-- ==== Sys2Proof/Word.lean ====
section
/-!
DEFINITION. The word and byte types of an instance, and nothing more: registers are 32 bits wide and little-endian (R6),
records, frames and memories are lists of bytes.
-/

namespace Sys2Proof

/-- A 32-bit register value (R29: register pages take naturally aligned 32-bit accesses). -/
abbrev Word := BitVec 32

/-- One byte of a record, a frame or a memory (R6). -/
abbrev Byte := BitVec 8

/-- An 8-bit requester number (R29, R133). -/
abbrev Req := BitVec 8

/-- A Skein node number, 0 to 65 (R38). -/
abbrev Node := Nat

end Sys2Proof
end

