-- ==== Sys2Proof/Machine/Bits.lean ====
section
/-!
DEFINITION. Bit, byte and table helpers shared by every family: little-endian packing (R6), bit fields of words, the two CRCs
the spec states, and sorted tables keyed by a number (channels, hanks, Bobbins, dies).
-/

namespace Sys2Proof.Machine

/-- `n` bytes of `v`, little-endian (R6). -/
def le (n v : Nat) : List Byte :=
  match n with
  | 0 => []
  | n + 1 => BitVec.ofNat 8 v :: le n (v / 256)

/-- The number a little-endian byte string spells (R6). -/
def ofLe (bs : List Byte) : Nat :=
  match bs with
  | [] => 0
  | b :: bs => b.toNat + 256 * ofLe bs

/-- `n` bytes of `v`, big-endian, and the number that a big-endian byte string spells. -/
def be (n v : Nat) : List Byte := (le n v).reverse
def ofBe (bs : List Byte) : Nat := ofLe bs.reverse

/-- The order of P-384 (log entry 137). -/
def p384Order : Nat := 0xFFFFFFFFFFFFFFFFFFFFFFFFFFFFFFFFFFFFFFFFFFFFFFFFC7634D81F4372DDF581A0DB248B0A77AECEC196ACCC52973

/-- The P-384 scalar of random or derived bytes (R107): the extra-bits method, `(s mod (n - 1)) + 1`. -/
def ecScalar (bs : List Byte) : List Byte := be 48 (ofBe bs % (p384Order - 1) + 1)

/-- Fields written one after another, each `(bytes, value)`, little-endian (R6). -/
def pack (fs : List (Nat × Nat)) : List Byte :=
  match fs with
  | [] => []
  | f :: fs => le f.1 f.2 ++ pack fs

/-- A byte string cut or zero-filled to `n` bytes ("unused bytes are 0"). -/
def padTo (n : Nat) (bs : List Byte) : List Byte :=
  bs.take n ++ List.replicate (n - bs.length) 0#8

/-- `n` bytes of `bs` from offset `at`, zero where `bs` ends. -/
def slice (bs : List Byte) (pos n : Nat) : List Byte := padTo n (bs.drop pos)

/-- The little-endian number at `pos`, `n` bytes wide. -/
def numAt (bs : List Byte) (pos n : Nat) : Nat := ofLe (slice bs pos n)

/-- Bits `hi:lo` of a number. -/
def bitsOf (v hi lo : Nat) : Nat := v / 2 ^ lo % 2 ^ (hi + 1 - lo)

/-- Bit `i` of a number. -/
def bit (v i : Nat) : Bool := v / 2 ^ i % 2 == 1

/-- The number with bit `i` set or cleared. -/
def withBit (v i : Nat) (b : Bool) : Nat :=
  if b then (if bit v i then v else v + 2 ^ i) else (if bit v i then v - 2 ^ i else v)

/-- The mask with a bit for every listed number. -/
def maskOf (is : List Nat) : Nat := is.foldl (fun m i => withBit m i true) 0

/-- The numbers below `n` whose bit is set, rising. -/
def bitsIn (v n : Nat) : List Nat := (List.range n).filter (bit v)

/-- One for true, zero for false. -/
def b2n (b : Bool) : Nat := if b then 1 else 0

/-- A sum that stops at `top` (the spec's "saturating"). -/
def satAdd (top a b : Nat) : Nat := min top (a + b)

/-- Bits `hi:lo` of a register value. -/
def wget (hi lo : Nat) (w : Word) : Nat := (w.extractLsb' lo (hi + 1 - lo)).toNat

/-- The 32-bit mask of bits `hi:lo`. -/
def wmask (hi lo : Nat) : Word := (BitVec.allOnes (hi + 1 - lo)).setWidth 32 <<< lo

/-- A register value with bits `hi:lo` replaced by `v`. -/
def wset (hi lo v : Nat) (w : Word) : Word :=
  (w &&& ~~~(wmask hi lo)) ||| ((BitVec.ofNat 32 v <<< lo) &&& wmask hi lo)

/-- One step of the bitwise CRC of Table 16.4 (polynomial 0x1021). -/
def crc16Bit (r : Nat) : Nat :=
  if bit r 15 then Nat.xor (r * 2 % 65536) 0x1021 else r * 2 % 65536

/-- CRC-16, polynomial 0x1021, initial 0xFFFF (Table 16.4). -/
def crc16 (bs : List Byte) : Nat :=
  bs.foldl (fun r b => (List.range 8).foldl (fun r _ => crc16Bit r) (Nat.xor r (b.toNat * 256))) 0xFFFF

/-- One step of the reflected CRC-32C (polynomial 0x1EDC6F41, reflected 0x82F63B78). -/
def crc32cBit (r : Nat) : Nat :=
  if r % 2 == 1 then Nat.xor (r / 2) 0x82F63B78 else r / 2

/-- CRC-32C of a byte string (Table 2.4, `HCRC`). -/
def crc32c (bs : List Byte) : Nat :=
  Nat.xor (bs.foldl (fun r b => (List.range 8).foldl (fun r _ => crc32cBit r) (Nat.xor r b.toNat)) 0xFFFFFFFF) 0xFFFFFFFF

/-- A table keyed by a number, keys strictly rising: the one form in which channels, hanks, Bobbins and dies are held. -/
abbrev Tab (α : Type) := List (Nat × α)

/-- The entry at key `k`. -/
def tget? {α : Type} (t : Tab α) (k : Nat) : Option α :=
  match t with
  | [] => none
  | e :: t => if e.1 = k then some e.2 else tget? t k

/-- The entry at key `k`, or `d` when the table lists none. -/
def tget {α : Type} (t : Tab α) (k : Nat) (d : α) : α := (tget? t k).getD d

/-- The table without key `k`. -/
def tdel {α : Type} (t : Tab α) (k : Nat) : Tab α := t.filter (fun e => e.1 != k)

/-- The table with `v` at key `k`, keys kept rising. -/
def tput {α : Type} (t : Tab α) (k : Nat) (v : α) : Tab α :=
  match t with
  | [] => [(k, v)]
  | e :: t => if k < e.1 then (k, v) :: e :: t else if e.1 = k then (k, v) :: t else e :: tput t k v

/-- Change the entry at key `k`, `d` standing for an unlisted one. -/
def tmod {α : Type} (t : Tab α) (k : Nat) (d : α) (f : α → α) : Tab α := tput t k (f (tget t k d))

/-- Keys strictly rising: the canonical form of a table. -/
def Tab.sorted {α : Type} (t : Tab α) : Bool :=
  match t with
  | [] => true
  | [_] => true
  | a :: b :: t => decide (a.1 < b.1) && Tab.sorted (b :: t)

/-- The list with its element at position `i` changed (nothing beyond its end). -/
def lmod {α : Type} (l : List α) (i : Nat) (f : α → α) : List α :=
  match l, i with
  | [], _ => []
  | a :: l, 0 => f a :: l
  | a :: l, i + 1 => a :: lmod l i f

/-- Keep the newest `n` of a list that grows at its end. -/
def newest {α : Type} (n : Nat) (l : List α) : List α := l.drop (l.length - n)

end Sys2Proof.Machine
end

