-- ==== Sys2Proof/Machine/Names.lean ====
section
/-!
DEFINITION. The spec's fixed sets of names: status codes with the order of R9, requester numbers and classes, package classes,
sequencer states, life-cycle states and page units.
-/

namespace Sys2Proof.Machine

/-- Status codes of Table 0.5 (R8). -/
inductive Status where
  | ok | pending | busy | denied | badArg | clamped | lengthShort | lengthLong | earlyRead | integrity
  | staleEpoch | limitReached | zeroized | poweredDown | fenced | noConsent
  deriving DecidableEq, Repr

/-- The code of a status (Table 0.5). -/
def Status.code (s : Status) : Nat :=
  match s with
  | .ok => 0x00 | .pending => 0x01 | .busy => 0x02 | .denied => 0x10 | .badArg => 0x11 | .clamped => 0x12
  | .lengthShort => 0x20 | .lengthLong => 0x21 | .earlyRead => 0x22 | .integrity => 0x30 | .staleEpoch => 0x31
  | .limitReached => 0x32 | .zeroized => 0x40 | .poweredDown => 0x41 | .fenced => 0x42 | .noConsent => 0x50

/-- The status a code names; R8: any other value is a failure of the request, here INTEGRITY-free BAD_ARG. -/
def Status.ofCode (n : Nat) : Option Status :=
  [Status.ok, .pending, .busy, .denied, .badArg, .clamped, .lengthShort, .lengthLong, .earlyRead, .integrity, .staleEpoch,
    .limitReached, .zeroized, .poweredDown, .fenced, .noConsent].find? (fun s => s.code == n)

/-- Position in the order of R9, 0 first. -/
def Status.rank (s : Status) : Nat :=
  match s with
  | .zeroized => 0 | .poweredDown => 1 | .fenced => 2 | .denied => 3 | .noConsent => 4 | .badArg => 5 | .lengthShort => 6
  | .lengthLong => 7 | .integrity => 8 | .staleEpoch => 9 | .limitReached => 10 | .earlyRead => 11 | .busy => 12
  | .clamped => 13 | .pending => 14 | .ok => 15

/-- The first status of R9 among those whose condition holds, OK when none does. -/
def firstStatus (cs : List (Bool × Status)) : Status :=
  match cs with
  | [] => .ok
  | c :: cs => if c.1 && decide (c.2.rank < (firstStatus cs).rank) then c.2 else firstStatus cs

/-- Requester numbers of R133 and R14: Roving core `c` is 0xF0 + c, the fold unit 0xFD, Custody DMA 0xFE, Spindle 0xFF. -/
def reqSpindle : Req := 0xFF#8
def reqCustody : Req := 0xFE#8
def reqFold : Req := 0xFD#8
def reqRoving (c : Nat) : Req := BitVec.ofNat 8 (0xF0 + c)

/-- Requester classes of R14. -/
inductive ReqClass where
  | spindle | roving | external
  deriving DecidableEq, Repr

/-- Requester numbers that no access may carry: 0, and those of R134 that no requester of the instance has. -/
def badReq (r : Req) : Bool := r.toNat == 0 || (decide (0xF6 ≤ r.toNat) && decide (r.toNat ≤ 0xFC))

/-- The class of a requester number (R14, R133): 0xFD to 0xFF Spindle class, 0xF0 to 0xF5 Roving, every other external. -/
def classOf (r : Req) : ReqClass :=
  if r.toNat ≥ 0xFD then .spindle else if r.toNat ≥ 0xF0 && r.toNat ≤ 0xF5 then .roving else .external

/-- The Roving core of a requester number. -/
def coreOf? (r : Req) : Option Nat :=
  if r.toNat ≥ 0xF0 && r.toNat ≤ 0xF5 then some (r.toNat - 0xF0) else none

/-- Package classes (R2), smallest first. -/
inductive Pkg where
  | hx4 | hx16 | hx64
  deriving DecidableEq, Repr

/-- The `GEN_ID.PKG_CLASS` code of a class (Table 0.2). -/
def Pkg.code (p : Pkg) : Nat := match p with | .hx4 => 0 | .hx16 => 1 | .hx64 => 2

/-- The class of a strap or fuse code; 0b11 is reserved and no class. -/
def Pkg.ofCode (n : Nat) : Option Pkg :=
  if n = 0 then some .hx4 else if n = 1 then some .hx16 else if n = 2 then some .hx64 else none

/-- Compute dies of a class (Table 0.1). -/
def Pkg.dies (p : Pkg) : Nat := match p with | .hx4 => 4 | .hx16 => 16 | .hx64 => 64

/-- Lease quorum of Bopin agents (Table 0.1; none in HX4). -/
def Pkg.quorum (p : Pkg) : Nat := match p with | .hx4 => 0 | .hx16 => 9 | .hx64 => 33

/-- Most hanks of a class (Table 0.1). -/
def Pkg.hanks (p : Pkg) : Nat := match p with | .hx4 => 4 | _ => 16

/-- Scale-out lanes and bytes of HBM that a class keys (Table 0.1). -/
def Pkg.lanes (p : Pkg) : Nat := match p with | .hx4 => 32 | .hx16 => 128 | .hx64 => 512
def Pkg.hbm (p : Pkg) : Nat := match p with | .hx4 => 2 ^ 36 | .hx16 => 2 ^ 38 | .hx64 => 2 ^ 40

/-- Most strands of a class (Table 0.1). -/
def Pkg.strands (p : Pkg) : Nat := match p with | .hx4 => 1024 | _ => 4096

/-- Power sequencer states (Table 3.4). -/
inductive Seq where
  | sense | svcWaking | service | active | sleepEntry | sleep | held | shutdown
  deriving DecidableEq, Repr

/-- State codes of Table 3.4. -/
def Seq.code (q : Seq) : Nat :=
  match q with
  | .sense => 0 | .svcWaking => 1 | .service => 2 | .active => 3 | .sleepEntry => 4 | .sleep => 5 | .held => 6 | .shutdown => 7

/-- The state a code names. -/
def Seq.ofCode (n : Nat) : Seq :=
  match n with
  | 0 => .sense | 1 => .svcWaking | 2 => .service | 3 => .active | 4 => .sleepEntry | 5 => .sleep | 6 => .held | _ => .shutdown

/-- R52: the Service domain is on in SVC_WAKING, SERVICE and ACTIVE. -/
def Seq.svcOn (q : Seq) : Bool :=
  match q with | .svcWaking => true | .service => true | .active => true | _ => false

/-- Page units of Table 19.1 and the firmware units of R517. -/
def uGEN : Nat := 0x00
def uPWR : Nat := 0x01
def uOTP : Nat := 0x02
def uLCS : Nat := 0x03
def uSNG : Nat := 0x04
def uWHL : Nat := 0x05
def uSKN : Nat := 0x06
def uPLY : Nat := 0x07
def uMBS : Nat := 0x08
def uMBN : Nat := 0x09
def uBOB : Nat := 0x0A
def uDST : Nat := 0x0B
def uCRY : Nat := 0x0C
def uDGT : Nat := 0x0D
def uTLY : Nat := 0x0E
def uDMA : Nat := 0x0F
def uDBG : Nat := 0x10
def uCOR : Nat := 0x18
def uTRS : Nat := 0x20
def uROM : Nat := 0x30
def uSPN : Nat := 0x31
def uLDR : Nat := 0x32

/-- The unit of the page that holds a window offset (Table 19.1), 0x20 in the TRS window.
Table 19.1 gives 0x1_9000 to 0x1_FFFF no unit: naming TRS there is this model's choice (assumption 150). -/
def unitOfOffset (off : Nat) : Nat :=
  if off < 0x10000 then off / 0x1000 else if off < 0x18000 then uDBG else if off < 0x19000 then uCOR else uTRS

end Sys2Proof.Machine
end

