-- ==== Sys2Proof/Machine/Operand.lean ====
section
/-!
DEFINITION. The fixed sets of names that command operands are drawn from: access kinds, how a cut fuse cell reads, and what a
physical process or a far party answers.
-/

namespace Sys2Proof.Machine

/-- How a cell reads whose pulse was ended early (R82): at no margin, at the loose margin only, or at every margin. -/
inductive CellRead where
  | unblown | weak | blown
  deriving DecidableEq, Repr

/-- How one fuse word reads at the three margins (R70): bit `i` of each number is cell `i`. A cell blown at the tight margin is
strongly blown, one blown at the loose margin only is weakly blown. -/
structure Cells where
  tight : Nat := 0
  normal : Nat := 0
  loose : Nat := 0
  deriving DecidableEq, Repr

/-- A condition Snag sees at a pad, a sensor or the rail in one AON cycle (Table 16.1). -/
inductive PadCause where
  | mesh (pairs : Nat)
  | lid
  | shield (track : Nat)
  | ext0
  | ext1
  | railHealth
  | railEdge (mv : Nat)
  | short (input : Nat)
  | ext0Short (us : Nat)
  deriving DecidableEq, Repr

/-- What a calibration of R454 measured: a sensor's bandgap (inside its trim or not) and the offset found, in 0.25 °C units; the
return delays of the four mesh pairs, in 0.25 ns units; the lid comparator. -/
inductive CalResult where
  | temp (sensor : Bool) (inTrim : Bool) (delta : Int)
  | mesh (delays : List Nat)
  | lid
  deriving DecidableEq, Repr

/-- A Warp frame (Table 2.2) without its CRC. `SHARE0` XOR `SHARE1` is the key it carries (zero when none). -/
structure WarpFrame where
  op : Nat
  result : Nat := 0
  sub : Nat
  bobbin : Nat
  epoch : Nat
  time : Nat := 0
  share0 : List Byte := []
  share1 : List Byte := []
  limit : Nat := 0
  deriving DecidableEq, Repr

/-- A Custody command descriptor (Table 7.5) but for its `OP`, as the cluster reads it at the ring's head. -/
structure CqDesc where
  op : Nat := 0
  flags : Nat := 0
  tag : Nat := 0
  first : Nat := 0
  last : Nat := 0
  epoch : Nat := 0
  arg0 : Nat := 0
  arg1 : Nat := 0
  arg2 : Nat := 0
  deriving DecidableEq, Repr

/-- A crypto descriptor (Table 10.2) as a channel takes it from its ring: its fields (`zero`: bytes 34 and 35), and the input and
auxiliary bytes its buffers hold when its unit starts. -/
structure CryDesc where
  op : Nat := 0
  flags : Nat := 1
  key : Nat := 0
  cls : Nat := 0
  inOff : Nat := 0
  inLen : Nat := 0
  auxOff : Nat := 0
  auxLen : Nat := 0
  outOff : Nat := 0
  outLen : Nat := 0
  arg : Nat := 0
  zero : Nat := 0
  input : List Byte := []
  aux : List Byte := []
  deriving DecidableEq, Repr

/-- The unit a faulty lane was running (R291): none, a descriptor of a crypto channel by ring index, a digest context, the Tally engine. -/
inductive LaneUnit where
  | idle
  | descriptor (n idx : Nat)
  | context (n : Nat)
  | tally
  deriving DecidableEq, Repr

/-- A DMA descriptor (Table 11.1) as a channel reads it from its ring; `table` is the index table where it lies beyond the instance. -/
structure DmaDesc where
  op : Nat := 0
  flags : Nat := 1
  req : Nat := 0
  prio : Nat := 0
  src : Nat := 0
  dst : Nat := 0
  len : Nat := 0
  index : Nat := 0
  count : Nat := 0
  elem : Nat := 0
  burst : Nat := 0
  pattern : List Byte := []
  crc : Nat := 0
  table : List Nat := []
  deriving DecidableEq, Repr

/-- How far a channel got since the last command that moved it: bytes written, bytes read behind them into staging, and what it read
beyond the instance. -/
structure DmaMove where
  ch : Nat
  bytes : Nat := 0
  staged : Nat := 0
  data : List Byte := []
  deriving DecidableEq, Repr

/-- A request at a debug module interface (R486): to the core's run control, to a breakpoint register, a 32-bit system bus access (a read with
what it returns from beyond the instance), or a command that acts in the core alone. -/
inductive DmiOp where
  | halt | resume | step
  | breakpoint (b : Nat) (value : BitVec 32)
  | busRead (addr : Nat) (data : List Byte)
  | busWrite (addr : Nat) (value : BitVec 32)
  | inCore
  deriving DecidableEq, Repr

/-- A measurement entry (R327): index, type, digest, SVN where Table 12.2 gives one, state (0 current, 1 pending, 2 stale). -/
structure Meas where
  idx : Nat
  typ : Nat
  digest : List Byte
  svn : Option Nat := none
  st : Nat := 0
  deriving DecidableEq, Repr

/-- What a partner says of itself beyond its frames' fields (assumption 89): its entries for indices 1 to 5 (Table 12.4), and the images it holds as
activated and not confirmed (R333). -/
structure Peer where
  meas : List Meas := []
  pend : List Meas := []
  deriving DecidableEq, Repr

/-- An SPDM message as it reaches Roving (R336): its connection (256 times the transport, 0 MCTP and 1 mailbox, plus the requester), the session
it is secured under, whether its AEAD check passed, and the message. -/
structure SpdmMsg where
  conn : Nat
  sess : Option Nat := none
  good : Bool := true
  msg : List Byte
  deriving DecidableEq, Repr

/-- A journal record group (Tables 7.8, 7.9): the head record and the 16-byte payloads of its continuations. `jseq` is the head's. -/
structure JRec where
  jseq : Nat
  op : Nat
  fresh : Bool := false
  hank : Nat
  cls : Nat := 0
  first : Nat
  last : Nat
  value : Nat := 0
  arg : Nat := 0
  parts : List (List Byte) := []
  deriving DecidableEq, Repr

/-- A launch entry as the pair mirrors it (R214), with the Bobbins ARMED for it. -/
structure LaunchItem where
  entry : Nat
  num : Nat
  slot : Nat
  cfg : Nat
  arg : Nat
  grace : Nat
  st : Nat
  final : Bool
  armed : List Nat := []
  deriving DecidableEq, Repr

/-- A mirror item (Table 15.5); an imported key travels with the session it belongs to (R254, assumption 98). -/
inductive MItem where
  | journal (pos : Nat) (rec : JRec)
  | hankKey (hank ceremony : Nat) (key : List Byte)
  | hankDrop (hank : Nat)
  | imported (bobbin epoch : Nat) (key : List Byte) (session : Nat)
  | launch (e : LaunchItem)
  | root (tree bobbin version : Nat) (node : List Byte)
  | boundary (bobbin epoch offset length status : Nat)
  | twist (src : Nat) (batch : List Byte)
  | session (id : Nat) (secret : List Byte)
  | object (body : List Byte)
  | endorsed (digest : List Byte) (owner : Nat)
  | share (hank owner : Nat) (secret : List Byte)
  | carding (die st : Nat) (key : List Byte)
  | ringKey (rkey : Nat) (key : List Byte)
  | scrub (number hank die : Nat) (nonce : List Byte)
  | lease (number fresh launch scrub : Nat)
  deriving DecidableEq, Repr

end Sys2Proof.Machine
end

