-- ==== Sys2Proof/Machine/Records.lean ====
section
/-!
DEFINITION. Records that the State holds and that resynchronisation carries whole between the instances of a pair (Tables 7.2, 13.3,
14.5, 14.6, 15.9): Bobbins, the chains of hanks, hanks and pending owner objects.
-/

namespace Sys2Proof.Machine

/-- A target of a key delivery: a Warp channel (8 and above on the partner's base die) or a die. -/
inductive Tgt where
  | warp (ch : Nat)
  | die (n : Nat)
  deriving DecidableEq, Repr

/-- A Bobbin: the fields of its record (Table 7.2; `warp` is byte 4, `blob` 0 invalid, 1 current slot, 2 other slot), and what the
cluster keeps with it: targets still to answer for the pending key and the status of one that failed; whether its Warp target has
its descriptor and first key (0 neither, 1 descriptor sent, 2 key sent, 3 enabled, 4 refused); memory base, length, metadata base,
re-encryption rate and descriptor flags from its hank's layout; the version of its tree root; whether a RETIRE found it still
re-encrypting; an epoch whose cancel was not confirmed (R221); its host session; the deadline notices written; the last re-encryption boundary reported. -/
structure Bob where
  cls : Nat
  st : Nat := 1
  hank : Nat
  sel : Nat := 0
  imported : Bool := false
  push : Bool := false
  frozen : Bool := false
  blob : Nat := 1
  strand : Nat := 0xFFF
  warp : Nat := 0
  hit : Bool := false
  limit : Nat := 0
  sub : Nat := 0
  epoch : Nat
  deadline : Nat := 0xFFFFFFFF
  launch : Nat := 0
  jseq : Nat := 0
  wait : List Tgt := []
  fail : Option Nat := none
  enable : Nat := 0
  base : Nat := 0
  len : Nat := 0
  aux : Nat := 0
  rate : Nat := 0
  dflags : Nat := 0
  rootVer : Nat := 0
  reenc : Bool := false
  unconf : Option Nat := none
  session : Nat := 0
  near : Bool := false
  past : Bool := false
  bound : Nat := 0
  deriving DecidableEq, Repr

/-- A step of a hank (Table 13.3): its number and state (1 OPEN, 2 AWAITING, 3 SIGNING, 4 SIGNED, 5 WITHHELD, 6 VOID), whether its
records still run, each die's STEP_BEGIN as die, `LAYER` and root, the dies that ended it, its CKPT records as die, shard and digest,
whether a GAP fell in it, the recipe body it runs under (empty: none), the captured segment, count, time and head, the mirror number of
the fold up to it, the result digests of its Tally accumulations, the Whorl time its payload was accepted, and its receipt. -/
structure TwStep where
  num : Nat
  st : Nat := 1
  running : Bool := true
  begun : List (Nat × Nat × List Byte) := []
  ended : List Nat := []
  ckpts : List (Nat × Nat × List Byte) := []
  gap : Bool := false
  recipe : List Byte := []
  seg : Nat := 0
  recs : Nat := 0
  time : Nat := 0
  head : List Byte := []
  mseq : Option Nat := none
  tallies : Tab (List Byte) := []
  signT : Nat := 0
  receipt : List Byte := []
  deriving DecidableEq, Repr

/-- The chain of a hank beyond its registers (R355 to R374): ceremony, head, the next word a read of `DGT_TWn_HEAD` returns; steps,
oldest first; the last completed step; steps `RESUME` may follow; recipe bodies in force and accepted; each die's place in its
sequence; steps whose seeds were delivered; receipts Roving keeps; records folded since the last mirror;
segment, records, head and step as the snapshot takes them at a receipt (R324). -/
structure Twist where
  ceremony : Nat := 0
  head : List Byte := []
  word : Nat := 0
  steps : List TwStep := []
  last : Option Nat := none
  resumable : List Nat := []
  recipe : List Byte := []
  next : List Byte := []
  pos : Tab Nat := []
  seeds : List Nat := []
  receipts : List (Nat × List Byte) := []
  done : List Byte := []
  mark : Nat × Nat × List Byte × Nat := (0, 0, [], 0)
  deriving DecidableEq, Repr

/-- A range entry of a hank's layout (Table 14.5). -/
structure RangeEnt where
  base : Nat
  len : Nat
  aux : Nat
  bob : Nat
  tier : Nat
  flags : Nat
  strand : Nat
  rate : Nat
  warp : Nat
  deriving DecidableEq, Repr

/-- A lane entry of a hank's layout (Table 14.5). -/
structure LaneEnt where
  lane : Nat
  flags : Nat
  limit : Nat
  bob : Nat
  warp : Nat
  deriving DecidableEq, Repr

/-- A consent in force (R398 to R400) with its parameters as they came, and the owners who endorsed it. -/
structure Consent where
  kind : Nat
  seq : Nat
  first : Nat
  last : Nat
  endSlot : Nat
  count : Nat
  params : List Byte
  owners : Nat := 0
  deriving DecidableEq, Repr

/-- A scrub outstanding at a die (R406, R407): its number, nonce and command (1 ARM, 3 NOW), and whether a result came. -/
structure ScrubOut where
  number : Nat
  nonce : List Byte
  op : Nat
  ok : Bool := false
  deriving DecidableEq, Repr

/-- A strand switch in progress (R404, R405): launch, strands, whether its slot passed and RELEASE was sent. -/
structure Switch where
  launch : Nat
  out : Nat
  into : Nat
  fired : Bool := false
  released : Bool := false
  deriving DecidableEq, Repr

/-- A hank that is not FREE (R382 to R417): state code of Table 14.6, ceremony, owner key digests, layout, strands, consents, shares by
owner, the last `SEQ` per object kind and consent kind, scrubs outstanding by die, the strand switch, the step reached in KEYING or
TEARING, the expiry, digest and call ticket of its CREATE, and the `JSEQ` it waits for. -/
structure Hank where
  st : Nat := 1
  ceremony : Nat
  owners : List (List Byte)
  flags : Nat
  dies : Nat
  first : Nat
  count : Nat
  epochBase : Nat
  hostMax : Nat
  thresh : List Nat
  ranges : List RangeEnt
  lanes : List LaneEnt
  strands : List Nat
  active : Nat
  shares : Tab (List Byte) := []
  endorsed : List Nat := []
  consents : List Consent := []
  seqs : Tab Nat := []
  scrubs : Tab ScrubOut := []
  switch : Option Switch := none
  phase : Nat := 0
  expiry : Nat := 0
  digest : List Byte := []
  ticket : Nat := 0
  jseq : Nat := 0
  deriving DecidableEq, Repr

/-- An owner object waiting for endorsements (R384 to R388). -/
structure Pend where
  digest : List Byte
  kind : Nat
  hank : Nat
  ceremony : Nat
  seq : Nat
  expiry : Nat
  body : List Byte
  owners : List Nat := []
  ticket : Nat := 0
  deriving DecidableEq, Repr

/-- A part of a resync as RESYNC_DATA carries it (Tables 15.3, 15.9): a state item (one that is also a mirror item; a hank with its
layout; a pending object; a chain with its registers), a chunk of the Bobbin table from an ID on, or journal records from a position
on, the hank key of a HANK_KEY group in place of its wrapping. -/
inductive ResPart where
  | item (i : MItem)
  | hank (h : Nat) (k : Hank)
  | object (p : Pend)
  | twist (h : Nat) (t : Twist) (regs : List (Nat × Word))
  | chunk (first : Nat) (bobs : List (Nat × Bob))
  | page (path : Nat) (recs : List (Nat × JRec)) (last : Bool)
  deriving DecidableEq, Repr

end Sys2Proof.Machine
end

