-- ==== Sys2Proof/Syntax.lean ====
section
/-!
DEFINITION. The commands an instance takes: one constructor per row of spec/opcode_table.json (assumption 1). A command is an
access to a register with a row of its own, a message that has reached the instance, or an event at a pin, a timer or an engine;
its operands are what the outside supplies: the requester, the message, the outcome of a physical process. Operand types with a
fixed set of names stand in Machine/Operand.lean.
-/

namespace Sys2Proof

open Sys2Proof.Machine

/-- The commands of an instance, in the order of the table. -/
inductive Instr where
  /-- REGISTER_WRITE (R7): the requester, the window offset and the word -/
  | registerWrite (req : Req) (off : Nat) (value : Word)
  /-- FABRIC_ACCESS_ERROR (R29): the access -/
  | fabricAccessError (req : Req) (addr size : Nat) (write : Bool)
  /-- PAGE_ACCESS_REFUSED (R14): the access -/
  | pageAccessRefused (req : Req) (off : Nat) (write sec : Bool)
  /-- PORST_N_ASSERT (R26): a pulse shorter than 1 µs is taken or ignored -/
  | porstNAssert (taken : Bool)
  /-- PORST_N_RISE (R27): the straps sampled -/
  | porstNRise (strapClass : Nat) (strapSide : Bool) (recoveryN : Bool)
  /-- SYSRST_N_PULSE (R26): a pulse shorter than 1 µs is taken or ignored; the strap sampled -/
  | sysrstNPulse (taken : Bool) (recoveryN : Bool)
  /-- BROWN_OUT_RESET (R53): the rail in mV -/
  | brownOutReset (mv : Nat)
  /-- VIN_OK_FALL (R54): the rail in mV -/
  | vinOkFall (mv : Nat)
  /-- VIN_FUSE_OK_FALL (R55): the rail in mV -/
  | vinFuseOkFall (mv : Nat)
  /-- REFCLK_LOST (R50). -/
  | refclkLost
  /-- CLOCK_GLITCH (R52). -/
  | clockGlitch
  /-- REFCLK_PRESENT_AGAIN (R50). -/
  | refclkPresentAgain
  /-- RSV_READY (R56). -/
  | rsvReady
  /-- FUSE_SENSING_DONE (R70): words that sense otherwise than blown; the sensing time in 16 µs units -/
  | fuseSensingDone (drift : List (Nat × Cells)) (time : Nat)
  /-- LCS_RECORD_RESUME (R95): the place of a cell that will not blow -/
  | lcsRecordResume (bad : Option Nat)
  /-- SEQ_SVC_WAKE (R59). -/
  | seqSvcWake
  /-- SVC_PLL_LOCKED (R59). -/
  | svcPllLocked
  /-- SVC_PLL_TIMEOUT (R59). -/
  | svcPllTimeout
  /-- CRYPTO_GROUP_WAKE (R61): the group -/
  | cryptoGroupWake (g : Fin 6)
  /-- CRYPTO_GROUP_READY (R61): the group (0: the PLL alone), and the lanes (class, lane) whose power-on test fails at the first wake -/
  | cryptoGroupReady (g : Fin 6) (bad : List (Nat × Nat))
  /-- CRYPTO_PLL_TIMEOUT (R62). -/
  | cryptoPllTimeout
  /-- GROUP_IDLE_POWER_OFF (R62): the group -/
  | groupIdlePowerOff (g : Fin 6)
  /-- CRYPTO_PLL_HOLD_EXPIRE (R59). -/
  | cryptoPllHoldExpire
  /-- PWR_FORCE_ON (R62): the requester and the field written -/
  | pwrForceOn (req : Req) (mask : BitVec 5)
  /-- SLEEP_REQ (R63): the requester -/
  | sleepReq (req : Req)
  /-- SLEEP_ENTRY_DONE (R59). -/
  | sleepEntryDone
  /-- PWR_SHUTDOWN (R59): the requester -/
  | pwrShutdown (req : Req)
  /-- WAKE_FABRIC_ACCESS (R65): the access -/
  | wakeFabricAccess (req : Req) (off : Nat) (write : Bool)
  /-- WAKE_TIMER (R65). -/
  | wakeTimer
  /-- WAKE_PLY_BEACON (R65). -/
  | wakePlyBeacon
  /-- WAKE_SVC_PORT (R65). -/
  | wakeSvcPort
  /-- OTP_READ (R80): the requester and the `KEY` written -/
  | otpRead (req : Req) (key : BitVec 16)
  /-- PROG_WORD (R81): the requester and the `KEY` written -/
  | progWord (req : Req) (key : BitVec 16)
  /-- PROG_DIGEST (R83): the requester, `KEY` and region -/
  | progDigest (req : Req) (key : BitVec 16) (arg : BitVec 8)
  /-- LOCK_WRITE (R83): the requester, `KEY` and region -/
  | lockWrite (req : Req) (key : BitVec 16) (arg : BitVec 8) (drift : List (Nat × Cells))
  /-- LOCK_READ (R84): the requester, `KEY` and region -/
  | lockRead (req : Req) (key : BitVec 16) (arg : BitVec 8)
  /-- LOCK_WRITE_RAW (R84): the requester, `KEY` and region -/
  | lockWriteRaw (req : Req) (key : BitVec 16) (arg : BitVec 8)
  /-- GEN_ROOTS (R85): the requester and the `KEY` written -/
  | genRoots (req : Req) (key : BitVec 16)
  /-- ARB_ADVANCE (R97): the requester, `KEY` and counter -/
  | arbAdvance (req : Req) (key : BitVec 16) (arg : BitVec 8)
  /-- OTP_PROGRAM_DONE (R81): the place of a cell that will not blow -/
  | otpProgramDone (bad : Option Nat)
  /-- OTP_AUDIT_START (R79): the requester and the value written to `OTP_AUDIT` -/
  | otpAuditStart (req : Req) (value : Word)
  /-- OTP_AUDIT_DONE (R79): words that the audit senses otherwise than blown -/
  | otpAuditDone (drift : List (Nat × Cells))
  /-- QUENCH_DONE (R86): a mask of the quench cells that will not blow -/
  | quenchDone (bad : Nat)
  /-- LCS_GO (R94): the requester and the value written to `LCS_CTRL` -/
  | lcsGo (req : Req) (value : Word)
  /-- LCS_PHASE_DONE (R94): the place of a cell that will not blow -/
  | lcsPhaseDone (bad : Option Nat)
  /-- LCS_RESTART (R94). -/
  | lcsRestart
  /-- FETCH_REQ (R78): the region asked for -/
  | fetchReq (region : Nat)
  /-- FETCH_RESP (R77): the answer's region, status code and words 0 to 503 -/
  | fetchResp (region : Nat) (st : Nat) (words : List Byte)
  /-- FETCH_RETRY_TIMER (R78). -/
  | fetchRetryTimer
  /-- FETCH_TIMEOUT (R77). -/
  | fetchTimeout
  /-- ROM_INIT (R102): the 256 KiB of ROM -/
  | romInit (rom : List Byte)
  /-- INTEG_DECIDE (R76). -/
  | integDecide
  /-- NOR_INIT (R33). -/
  | norInit
  /-- ROOT_LOAD (R89). -/
  | rootLoad
  /-- DEVICEID_DERIVE (R107). -/
  | deviceidDerive
  /-- SPINDLE_VERIFY (R105): whether both signatures verify -/
  | spindleVerify
  /-- ALIAS_DERIVE (R108). -/
  | aliasDerive
  /-- RECOVERY_ENTER (R106). -/
  | recoveryEnter
  /-- SPINDLE_INIT (R136). -/
  | spindleInit
  /-- CONFIG_APPLY (R114): whether both signatures verify -/
  | configApply
  /-- ROVING_START (R119): whether each image's signatures verify -/
  | rovingStart
  /-- CUSTODY_INIT (R184). -/
  | custodyInit
  /-- RING_START (R101, R204): whether the partner is in the ring and whether its markers are in force when this instance gets there -/
  | ringStart (other marks : Bool)
  /-- CARD_NODE_PRESENT (R126): the die -/
  | cardNodePresent (node : Nat)
  /-- MEASURED (R125). -/
  | measured
  /-- NOT_READY (R126). -/
  | notReady
  /-- KEY_INSTALLED (R126). -/
  | keyInstalled
  /-- KEY_FAILED (R126). -/
  | keyFailed
  /-- CARD_RETRY_TIMER (R126): the die -/
  | cardRetryTimer (node : Nat)
  /-- CARD_TIMEOUT (R126): the die -/
  | cardTimeout (node : Nat)
  /-- CARD_KEY_TIMEOUT (R126): the die -/
  | cardKeyTimeout (node : Nat)
  /-- CARD_TAKEOVER_TIMER (R121). -/
  | cardTakeoverTimer
  /-- CARD_NOTICE (R121): the frame's fields -/
  | cardNotice (rkey : Nat) (started : Bool)
  /-- RECARD (R126): the requester and the die -/
  | recard (req : Req) (node : Nat)
  /-- LOCKSTEP_MISMATCH (R139): the main core's program counter, the comparator group that diverged -/
  | lockstepMismatch (pc group : Nat)
  /-- SPINDLE_SRAM_UNCORRECTABLE (R138): the word's offset, the program counter -/
  | spindleSramUncorrectable (addr pc : Nat)
  /-- SPINDLE_WDT_EXPIRE (R139): the program counter -/
  | spindleWdtExpire (pc : Nat)
  /-- SPINDLE_WDT_KICK (R140): the requester, the word written to `COR_SPN_WDT` -/
  | spindleWdtKick (req : Req) (value : Word)
  /-- CODE_WP (R136): the requester, the word written to `COR_SPN_CTRL` -/
  | codeWp (req : Req) (value : Word)
  /-- SPINDLE_CODE_FAULT (R136): the offset in Spindle SRAM, write or fetch -/
  | spindleCodeFault (off : Nat) (wr : Bool)
  /-- CORE_ACCESS_FAULT (R135): the requester, the address, write or read -/
  | coreAccessFault (req : Req) (addr size : Nat) (wr fetch : Bool)
  /-- SRAM_PATROL (R138): which SRAM, the offset, the bits found wrong (0, 1, more) -/
  | sramPatrol (spindle : Bool) (addr errors : Nat)
  /-- ROVING_CORE_FENCE (R141): the core, the cause code -/
  | rovingCoreFence (core cause : Nat)
  /-- ROVING_WDT_EXPIRE (R141): the core -/
  | rovingWdtExpire (core : Nat)
  /-- FENCE (R141): the requester, the core -/
  | coreFence (req : Req) (core : Nat)
  /-- FENCING_DONE (R143): the core, its program counter -/
  | fencingDone (core pc : Nat)
  /-- RESTART (R142): the requester, the core -/
  | coreRestart (req : Req) (core : Nat)
  /-- CORE_RESET_RELEASE (R142): the core -/
  | coreResetRelease (core : Nat)
  /-- MB_LOCK_READ (R147): the requester, the page (MBN or MBS) and the mailbox -/
  | mbLockRead (req : Req) (ns : Bool) (n : Nat)
  /-- MB_DATA_WRITE (R148): the requester, the page, the mailbox, the data word and the value -/
  | mbDataWrite (req : Req) (ns : Bool) (n : Nat) (word : Nat) (value : Word)
  /-- MB_GO (R146): the requester, the page, the mailbox and `WORDS` -/
  | mbGo (req : Req) (ns : Bool) (n : Nat) (words : Nat)
  /-- MB_RELEASE (R146): the requester, the page and the mailbox -/
  | mbRelease (req : Req) (ns : Bool) (n : Nat)
  /-- MB_FORCE (R146): the requester, the page and the mailbox -/
  | mbForce (req : Req) (ns : Bool) (n : Nat)
  /-- MB_LOCK_TIMEOUT (R149): the page and the mailbox -/
  | mbLockTimeout (ns : Bool) (n : Nat)
  /-- CORE_HELLO (R156): the MBS mailbox that holds the call and the bytes of its input buffer -/
  | coreHello (n : Nat)
  /-- SNAPSHOT_GET (R324): the mailbox of the call -/
  | snapshotGet (n : Nat)
  /-- EVENTS_DRAIN (R516): the mailbox of the call -/
  | eventsDrain (n : Nat)
  /-- SIGN_REPORT (R332): the mailbox of the call, the bytes of its input buffer -/
  | signReport (n : Nat)
  /-- SIGN_SPDM (R347): as SIGN_REPORT -/
  | signSpdm (n : Nat)
  /-- SESSION_KEYS (R254): the mailbox of the call -/
  | sessionKeys (n : Nat)
  /-- LAUNCH_REQUEST (R210): the MBS mailbox that holds the call and the bytes of its input buffer -/
  | launchRequest (n : Nat)
  /-- LAUNCH_CANCEL (R220): the MBS mailbox that holds the call and the bytes of its input buffer -/
  | launchCancel (n : Nat)
  /-- HANK_CREATE (R390): the mailbox of the call, its input bytes, whether both signatures of an endorsement verify -/
  | hankCreate (n : Nat) (genuine : Bool)
  /-- HANK_TEARDOWN (R396): as HANK_CREATE -/
  | hankTeardown (n : Nat) (genuine : Bool)
  /-- CEREMONY_SHARE (R393): as HANK_CREATE -/
  | ceremonyShare (n : Nat) (genuine : Bool)
  /-- CONSENT (R399): as HANK_CREATE -/
  | consent (n : Nat) (genuine : Bool)
  /-- WITHDRAW_OBJECT (R401): as HANK_CREATE -/
  | withdrawObject (n : Nat)
  /-- STRAND_SET (R403): as HANK_CREATE -/
  | strandSet (n : Nat)
  /-- OWNER_ENDORSEMENT (R387): as HANK_CREATE -/
  | ownerEndorsement (n : Nat) (genuine : Bool)
  /-- OBJECT_EXPIRY (R388): the place of the object in the pending store -/
  | objectExpiry (n : Nat)
  /-- GRANT (R266): the mailbox of the call -/
  | grant (n : Nat)
  /-- RELEASE (R298): the mailbox of the call -/
  | release (n : Nat)
  /-- SLEEP_REQUEST (R64): the mailbox of the call -/
  | sleepRequest (n : Nat)
  /-- LC_REQUEST (R483): the mailbox of the call, its input bytes, whether both signatures of an authorisation verify -/
  | lcRequest (n : Nat) (genuine : Bool)
  /-- SERVICE_CALL_COMPLETE (R155): the Roving core the notice is for -/
  | serviceCallComplete (core : Nat)
  /-- BOB_CQ_TAIL_WRITE (R173): the requester and the index written -/
  | bobCqTailWrite (req : Req) (idx : BitVec 10)
  /-- BOB_CPL_HEAD_WRITE (R173): the requester and the index written -/
  | bobCplHeadWrite (req : Req) (idx : BitVec 10)
  /-- CREATE (R167): the descriptor at the ring's head -/
  | create
  /-- DERIVE (R168): the descriptor at the ring's head -/
  | derive
  /-- IMPORT (R522): the descriptor at the ring's head -/
  | importCmd
  /-- COMMIT (R180): the descriptor at the ring's head -/
  | commit
  /-- ARM (R168): the descriptor at the ring's head -/
  | arm
  /-- CANCEL (R177): the descriptor at the ring's head -/
  | cancel
  /-- FREEZE (R168): the descriptor at the ring's head -/
  | freeze
  /-- DESTROY (R168): the descriptor at the ring's head -/
  | destroy
  /-- RESUME (R186): the descriptor at the ring's head -/
  | resume
  /-- HISTORIC (R187): the descriptor at the ring's head -/
  | historic
  /-- READ (R174): the descriptor at the ring's head -/
  | bobRead
  /-- FENCE_COMMAND (R175): the descriptor at the ring's head -/
  | fenceCommand
  /-- KEY_REQ (R193). -/
  | keyReq
  /-- BLOB_LOAD_DONE (R170): the Bobbin and the 64 bytes read -/
  | blobLoadDone (bobbin : Nat) (bytes : List Byte)
  /-- KAT_DONE (R178): the channel and the answer -/
  | katDone (ch : Nat) (frame : WarpFrame)
  /-- WARP_ACK (R179): the channel and the answer -/
  | warpAck (ch : Nat) (frame : WarpFrame)
  /-- WARP_FRAME_CRC_FAIL (R31): the channel -/
  | warpFrameCrcFail (ch : Nat)
  /-- WARP_ANSWER_TIMEOUT (R32): the channel -/
  | warpAnswerTimeout (ch : Nat)
  /-- KEY_PUSH_ACK (R194). -/
  | keyPushAck
  /-- LIMIT_REPORT (R191): the channel and the report -/
  | limitReport (ch : Nat) (frame : WarpFrame)
  /-- JOURNAL_PROGRAM_DONE (R188): whether the page reads back as programmed -/
  | journalProgramDone (good : Bool)
  /-- JOURNAL_SECTOR_ERASE_DONE (R182). -/
  | journalSectorEraseDone
  /-- JOURNAL_SECTOR_WAIT_TIMEOUT (R182). -/
  | journalSectorWaitTimeout
  /-- BOBBIN_RECORD_UNCORRECTABLE (R189): the Bobbin; whether the partner can supply its record -/
  | bobbinRecordUncorrectable (bobbin : Nat) (fromPartner : Bool)
  /-- CACHE_REMASK (R172). -/
  | cacheRemask
  /-- DST_CACHE_FLUSH (R200): the requester -/
  | dstCacheFlush (req : Req)
  /-- BOB_WARP_CLEAR (R178): the requester and `CLEAR` -/
  | bobWarpClear (req : Req) (mask : BitVec 8)
  /-- DEADLINE_NEAR (R253): the Bobbin -/
  | deadlineNear (bobbin : Nat)
  /-- DEADLINE_PASSED (R253): the Bobbin -/
  | deadlinePassed (bobbin : Nat)
  /-- MARKER_EMIT (R205). -/
  | markerEmit
  /-- MARKER_RECEIVE (R206): the ring direction (true: counter-clockwise) and the marker's bytes -/
  | markerReceive (cc : Bool) (bytes : List Byte)
  /-- SLOT_BOUNDARY_CORRECTION (R206). -/
  | slotBoundaryCorrection
  /-- MARKER_TIMEOUT (R206). -/
  | markerTimeout
  /-- XPKG_TIME_REPORT (R208): the channel and the report -/
  | xpkgTimeReport (ch : Nat) (frame : WarpFrame)
  /-- XPKG_REPORT_TIMEOUT (R208). -/
  | xpkgReportTimeout
  /-- SCHEDULE (R210): the requester -/
  | schedule (req : Req)
  /-- WHL_CANCEL (R220): the requester and `ENTRY` -/
  | whlCancel (req : Req) (entry : BitVec 4)
  /-- WHL_FREE (R214): the requester and `ENTRY` -/
  | whlFree (req : Req) (entry : BitVec 4)
  /-- LAUNCH_HORIZON (R213): the entry -/
  | launchHorizon (n : BitVec 4)
  /-- LAUNCH_FINAL_POINT (R216): the entry -/
  | launchFinalPoint (n : BitVec 4)
  /-- LAUNCH_FIRE (R217): the entry -/
  | launchFire (n : BitVec 4)
  /-- LAUNCH_GRACE_END (R218): the entry -/
  | launchGraceEnd (n : BitVec 4)
  /-- LAUNCH_REPEAT (R215): the entry -/
  | launchRepeat (n : BitVec 4)
  /-- LAUNCH_CANCEL_REPEAT (R215): the launch number -/
  | launchCancelRepeat (num : Nat)
  /-- ROOT_UPDATE (R241): the channel and the update -/
  | rootUpdate (ch : Nat) (frame : WarpFrame)
  /-- ROOT_STORE_PATROL (R243): the entry; whether more than one bit is wrong -/
  | rootStorePatrol (tree : Nat) (double : Bool)
  /-- ROOT_REPAIR_DONE (R243): the entry; whether the partner's copy is good; its 64 bytes -/
  | rootRepairDone (tree : Nat) (good : Bool) (bytes : List Byte)
  /-- FAULT_REPORT (R244): the channel and the report -/
  | faultReport (ch : Nat) (frame : WarpFrame)
  /-- COMPLEX_RESET_ANNOUNCE (R246): the channel and the announcement -/
  | complexResetAnnounce (ch : Nat) (frame : WarpFrame)
  /-- BOUNDARY_REPORT (R249): the channel and the report -/
  | boundaryReport (ch : Nat) (frame : WarpFrame)
  /-- PEER_EPOCH_REPORT (R252): the channel and the report -/
  | peerEpochReport (ch : Nat) (frame : WarpFrame)
  /-- CRY_CH_TAIL_WRITE (R268): the requester, the channel and the index written -/
  | cryChTailWrite (req : Req) (n : BitVec 5) (idx : BitVec 8)
  /-- MLDSA_KEYGEN (R262): the channel, whose descriptor at HEAD the engine takes, as in every operation -/
  | mldsaKeygen (n : BitVec 5)
  /-- MLDSA_SIGN (R263). -/
  | mldsaSign (n : BitVec 5)
  /-- MLDSA_VERIFY (R264). -/
  | mldsaVerify (n : BitVec 5)
  /-- MLKEM_KEYGEN (R262). -/
  | mlkemKeygen (n : BitVec 5)
  /-- MLKEM_ENCAPS (R262). -/
  | mlkemEncaps (n : BitVec 5)
  /-- MLKEM_DECAPS (R264). -/
  | mlkemDecaps (n : BitVec 5)
  /-- NTT (R262): the channel and the transform (NTT, INTT, PMUL) -/
  | ntt (n : BitVec 5) (which : Fin 3)
  /-- ECC_KEYGEN (R264). -/
  | eccKeygen (n : BitVec 5)
  /-- ECDSA_SIGN (R264). -/
  | ecdsaSign (n : BitVec 5)
  /-- ECDSA_VERIFY (R264). -/
  | ecdsaVerify (n : BitVec 5)
  /-- ECDH (R264). -/
  | ecdh (n : BitVec 5)
  /-- KMAC (R269). -/
  | kmac (n : BitVec 5)
  /-- GCM_ENC (R265). -/
  | gcmEnc (n : BitVec 5)
  /-- GCM_DEC (R265). -/
  | gcmDec (n : BitVec 5)
  /-- CTR (R265). -/
  | ctr (n : BitVec 5)
  /-- KW_WRAP (R269). -/
  | kwWrap (n : BitVec 5)
  /-- KW_UNWRAP (R265). -/
  | kwUnwrap (n : BitVec 5)
  /-- KEY_RANDOM (R270). -/
  | keyRandom (n : BitVec 5)
  /-- KEY_ERASE (R270). -/
  | keyErase (n : BitVec 5)
  /-- KEY_DISTAFF (R268). -/
  | keyDistaff (n : BitVec 5)
  /-- KEY_LOAD (R268). -/
  | keyLoad (n : BitVec 5)
  /-- RANDOM (R283). -/
  | random (n : BitVec 5)
  /-- CRYPTO_OP_COMPLETE (R268): the channel, the ring index and the ML-DSA iterations taken -/
  | cryptoOpComplete (n : BitVec 5) (idx : BitVec 8) (iter : Nat)
  /-- OPEN (R278): the requester, the context and the word written -/
  | dgtOpen (req : Req) (n : BitVec 6) (value : Word)
  /-- FINAL (R275): the requester and the context -/
  | dgtFinal (req : Req) (n : BitVec 6)
  /-- CLOSE (R278): the requester and the context -/
  | dgtClose (req : Req) (n : BitVec 6)
  /-- DGT_FEED (R273): the requester, the context and the bytes stored -/
  | dgtFeed (req : Req) (n : BitVec 6) (data : List Byte)
  /-- DIGEST_ABSORBED (R275): the context -/
  | digestAbsorbed (n : BitVec 6)
  /-- DGT_RESULT_READ (R276): the requester and the context -/
  | dgtResultRead (req : Req) (n : BitVec 6)
  /-- ENTROPY_HEALTH_FAIL (R281): the source and its last 1,024 samples -/
  | entropyHealthFail (source : Bool) (window : List Byte)
  /-- ENTROPY_RETEST_DONE (R282): the source and the 1,024 samples of its start-up test -/
  | entropyRetestDone (source : Bool) (window : List Byte)
  /-- ENTROPY_CALIBRATE (R282): the requester and the source -/
  | entropyCalibrate (req : Req) (source : Bool)
  /-- DRBG_KAT_FAIL (R284). -/
  | drbgKatFail
  /-- TLY_OPEN (R285): the requester and the accumulator -/
  | tlyOpen (req : Req) (acc : BitVec 3)
  /-- TLY_ADD (R288): the requester, the accumulator and the owner -/
  | tlyAdd (req : Req) (acc : BitVec 3) (owner : BitVec 5)
  /-- TLY_ADD_DONE (R289): the contribution as read, and whether its source was readable -/
  | tlyAddDone (data : List Byte) (good : Bool)
  /-- TLY_ABORT (R288): the requester and the accumulator -/
  | tlyAbort (req : Req) (acc : BitVec 3)
  /-- TLY_RELEASE (R288): the requester and the accumulator -/
  | tlyRelease (req : Req) (acc : BitVec 3)
  /-- TLY_DIGEST_READ (R289): the requester and the accumulator -/
  | tlyDigestRead (req : Req) (acc : BitVec 3)
  /-- SELFTEST_REQUEST (R291): the requester and the fields written -/
  | selftestRequest (req : Req) (cls lane : BitVec 4)
  /-- SELFTEST_PERIODIC (R291). -/
  | selftestPeriodic
  /-- LANE_DRAINED (R291): the lane -/
  | laneDrained (cls lane : Nat)
  /-- LANE_TEST_DONE (R291): the lane (class 6: the DRBG) and the outcome -/
  | laneTestDone (cls lane : Nat) (pass : Bool)
  /-- LANE_FAULT (R291): the lane and what it was running -/
  | laneFault (cls lane : Nat) (unit : LaneUnit)
  /-- DMA_CH_TAIL_WRITE (R302): the requester, the channel and the index written -/
  | dmaChTailWrite (req : Req) (n : BitVec 5) (idx : BitVec 10)
  /-- DMA_OWN_POLL (R302): the channel -/
  | dmaOwnPoll (n : BitVec 5)
  /-- COPY (R303): the channel, which reads the descriptor at its head, as in every operation -/
  | copy (n : BitVec 5)
  /-- FILL (R303). -/
  | fill (n : BitVec 5)
  /-- GATHER (R304): the channel and the index table where it lies beyond the instance -/
  | gather (n : BitVec 5) (table : List Nat)
  /-- SCATTER (R304): the channel and the index table, as in GATHER -/
  | scatter (n : BitVec 5) (table : List Nat)
  /-- DMA_REQUEST_LINE (R308): the line and what is read beyond the instance -/
  | dmaRequestLine (line : BitVec 6) (data : List Byte)
  /-- DMA_DESCRIPTOR_DONE (R305): the channel and what is read beyond the instance -/
  | dmaDescriptorDone (n : BitVec 5) (data : List Byte)
  /-- DMA_SWREQ (R309): the requester and the bits written -/
  | dmaSwreq (req : Req) (mask : BitVec 16)
  /-- DMA_PAUSE (R311): the requester, the channel and the value written -/
  | dmaPause (req : Req) (n : BitVec 5) (on : Bool)
  /-- DMA_PAUSE_DRAINED (R311): the channel and how far it got -/
  | dmaPauseDrained (m : DmaMove)
  /-- DMA_ABORT (R311): the requester and the channel -/
  | dmaAbort (req : Req) (n : BitVec 5)
  /-- DMA_BUS_ERROR (R313): the channel, cause, address, direction, whether an index read, the ring index of a late write's descriptor, how far each channel got -/
  | dmaBusError (n : BitVec 5) (cause addr : Nat) (wr index : Bool) (late : Option Nat) (moves : List DmaMove)
  /-- DMA_RELEASE (R314): the requester and the bits written -/
  | dmaRelease (req : Req) (mask : Word)
  /-- DMA_CLEAR (R314): the requester and the channel -/
  | dmaClear (req : Req) (n : BitVec 5)
  /-- DMA_PARITY_ERROR (R317): the channel -/
  | dmaParityError (n : BitVec 5)
  /-- DMA_CHANNEL_ENABLE (R312): the requester and the channel -/
  | dmaChannelEnable (req : Req) (n : BitVec 5)
  /-- GET_VERSION (R336): the message as it reaches Roving -/
  | getVersion (m : SpdmMsg)
  /-- GET_CAPABILITIES (R337): as GET_VERSION -/
  | getCapabilities (m : SpdmMsg)
  /-- NEGOTIATE_ALGORITHMS (R337): as GET_VERSION -/
  | negotiateAlgorithms (m : SpdmMsg)
  /-- GET_DIGESTS (R338): as GET_VERSION -/
  | getDigests (m : SpdmMsg)
  /-- GET_CERTIFICATE (R322): as GET_VERSION -/
  | getCertificate (m : SpdmMsg)
  /-- CHALLENGE (R338): as GET_VERSION -/
  | challenge (m : SpdmMsg)
  /-- GET_MEASUREMENTS (R326): as GET_VERSION -/
  | getMeasurements (m : SpdmMsg)
  /-- KEY_EXCHANGE (R346): as GET_VERSION -/
  | keyExchange (m : SpdmMsg)
  /-- FINISH (R340): as GET_VERSION -/
  | finish (m : SpdmMsg)
  /-- HEARTBEAT (R339): as GET_VERSION -/
  | heartbeat (m : SpdmMsg)
  /-- KEY_UPDATE (R338): as GET_VERSION -/
  | keyUpdate (m : SpdmMsg)
  /-- END_SESSION (R339): as GET_VERSION -/
  | endSession (m : SpdmMsg)
  /-- SESSION_EXPIRE (R339): the session -/
  | sessionExpire (id : Nat)
  /-- ORPHAN_SESSION_EXPIRE (R340): the session -/
  | orphanSessionExpire (id : Nat)
  /-- GET_CHAIN (R342): as GET_VERSION -/
  | getChain (m : SpdmMsg)
  /-- HYBRID_SIG (R345): as GET_VERSION -/
  | hybridSig (m : SpdmMsg)
  /-- KEM_OFFER (R346): as GET_VERSION -/
  | kemOffer (m : SpdmMsg)
  /-- GET_REPORT (R343): as GET_VERSION -/
  | getReport (m : SpdmMsg)
  /-- GET_RECEIPT (R377): as GET_VERSION -/
  | getReceipt (m : SpdmMsg)
  /-- GET_TWIST_HEAD (R377): as GET_VERSION -/
  | getTwistHead (m : SpdmMsg)
  /-- REBIND (R340): as GET_VERSION -/
  | rebind (m : SpdmMsg)
  /-- GET_LEAKAGE (R412): as GET_VERSION -/
  | getLeakage (m : SpdmMsg)
  /-- OWNER_OBJECT_PORTION (R384): as GET_VERSION; whether both signatures of an endorsement verify -/
  | ownerObjectPortion (m : SpdmMsg) (genuine : Bool)
  /-- REPORT_SIGNED (R332): the entry of the signature queue -/
  | reportSigned (k : Nat)
  /-- TWIST_BATCH (R352). -/
  | twistBatch
  /-- TWIST_FOLD (R355): the hank -/
  | twistFold (h : BitVec 4)
  /-- SEAL (R358): the requester and the hank -/
  | seal (req : Req) (h : BitVec 4)
  /-- TWIST_LOG_WRITE_ERROR (R357): the hank, segment and position of the record -/
  | twistLogWriteError (h : BitVec 4) (seg pos : Nat)
  /-- TWIST_HEAD_READ (R380): the requester and the hank -/
  | twistHeadRead (req : Req) (h : BitVec 4)
  /-- RECEIPT_SIGNED (R369): the hank -/
  | receiptSigned (h : BitVec 4)
  /-- HANK_KEYING (R395): the hank -/
  | hankKeying (h : BitVec 4)
  /-- HANK_TEARING (R397): the hank -/
  | hankTearing (h : BitVec 4)
  /-- CONSENT_END_SLOT (R400): the hank, the consent kind -/
  | consentEndSlot (h : BitVec 4) (kind : Nat)
  /-- SCRUB_DIGEST (R407). -/
  | scrubDigest
  /-- SCRUB_TIMEOUT (R409): the hank, the die -/
  | scrubTimeout (h : BitVec 4) (die : Nat)
  /-- QUIET_REPLY_RELEASE (R413): the place of the reply among those held -/
  | quietReplyRelease (n : Nat)
  /-- LINK_EN (R420): the requester and the value written -/
  | linkEn (req : Req) (value : Bool)
  /-- PLY_RETRAIN (R420): the requester -/
  | plyRetrain (req : Req)
  /-- HELLO (R420): the 64 payload bytes -/
  | hello (body : List Byte)
  /-- AUTH (R420): the message's elements; whether the chains and signatures it carries verify -/
  | auth (point kem : List Byte) (certs sigs : List (List Byte)) (genuine : Bool)
  /-- PLY_FRAME_CHECK_FAIL (R419): the frame's type and number as received -/
  | plyFrameCheckFail (typ pseq : Nat)
  /-- LINK_NAK (R419): the first frame number lacking -/
  | linkNak (pseq : Nat)
  /-- HEARTBEAT_SEND (R421). -/
  | heartbeatSend
  /-- PLY_HEARTBEAT (R421): the 48 payload bytes; what the partner says of its measurements -/
  | plyHeartbeat (body : List Byte) (peer : Peer)
  /-- PARTNER_LOST (R421). -/
  | partnerLost
  /-- MIRROR_ACK_TIMEOUT (R421). -/
  | mirrorAckTimeout
  /-- MIRROR (R423): the item -/
  | mirror (mseq : Nat) (item : MItem)
  /-- MIRROR_ACK (R423): the highest item applied -/
  | mirrorAck (mseq : Nat)
  /-- RELAY (R424): the channel and the Warp frame -/
  | relay (ch : Nat) (frame : WarpFrame)
  /-- RELAY_ANS (R424): the channel and the answer or report -/
  | relayAns (ch : Nat) (frame : WarpFrame)
  /-- RELAY_ANSWER_TIMEOUT (R424): the partner's channel -/
  | relayAnswerTimeout (ch : Nat)
  /-- RESYNC_REQ (R436): the rejoiner's `BOB_JSEQ` and `BOB_JDUR` -/
  | resyncReq (jseq jdur : Nat)
  /-- RESYNC_DATA (R436): the part -/
  | resyncData (part : ResPart)
  /-- RESYNC_COMPLETE (R436). -/
  | resyncComplete
  /-- HANDOVER_FRAME (R439): the last `MSEQ` and the new lease number -/
  | handoverFrame (mseq lease : Nat)
  /-- SLEEP_FRAME (R441). -/
  | sleepFrame
  /-- SLEEP_ACK (R441). -/
  | sleepAck
  /-- LEASE_GRANT (R428). -/
  | leaseGrant
  /-- LEASE_RENEW (R425). -/
  | leaseRenew
  /-- LEASE_EXPIRY_MARGIN (R425). -/
  | leaseExpiryMargin
  /-- TAKEOVER_REPEAT (R429). -/
  | takeoverRepeat
  /-- CANDIDATE_TIMEOUT (R433). -/
  | candidateTimeout
  /-- PROMOTE (R431). -/
  | promote
  /-- PAIR_WAIT_EXPIRE (R418). -/
  | pairWaitExpire
  /-- START_EMPTY (R437): the requester -/
  | startEmpty (req : Req)
  /-- HANDOVER (R439): the requester -/
  | handover (req : Req)
  /-- HANDOVER_TIMEOUT (R439). -/
  | handoverTimeout
  /-- SLEEP_HS (R441): the requester -/
  | sleepHs (req : Req)
  /-- SKEIN_FRAME_RECEIVE (R39): the frame's bytes -/
  | skeinFrameReceive (bytes : List Byte)
  /-- AUTH_FAIL_WINDOW_END (R44). -/
  | authFailWindowEnd
  /-- RING_ACK (R42). -/
  | ringAck
  /-- RING_ACK_TIMEOUT (R42): the `SEQ` of the frame -/
  | ringAckTimeout (seq : Nat)
  /-- RING_STATE (R43). -/
  | ringState
  /-- SPLICE_FORCE (R45). -/
  | spliceForce
  /-- SPLICE_CLOSE (R45): the node -/
  | spliceClose (node : Nat)
  /-- SEGMENT_RETRAINED (R45): the live nodes at the segment's ends -/
  | segmentRetrained (endA : Nat) (endB : Nat)
  /-- NODE_READY (R46): the node -/
  | nodeReady (node : Nat)
  /-- RETRAIN (R47): the requester -/
  | retrain (req : Req)
  /-- RING_EN (R47): the requester and the value -/
  | ringEn (req : Req) (value : Bool)
  /-- PREKEY_CLEAR (R40): the requester -/
  | prekeyClear (req : Req)
  /-- SKN_BRIDGE_WRITE (R45): the requester, the register 0 to 2 and the value -/
  | sknBridgeWrite (req : Req) (n : Nat) (value : Word)
  /-- EVENT_FWD (R518). -/
  | eventFwd
  /-- SNAG_DECISION (R446): the conditions at the pads, sensors and rail in one AON cycle -/
  | snagDecision (causes : List PadCause)
  /-- ZEROIZE_OUT_PULSE_END (R450). -/
  | zeroizeOutPulseEnd
  /-- RECORD_WRITER (R458): whether the rail fell during the write, and whether the record reads back -/
  | recordWriter (vinFell : Bool) (verified : Bool)
  /-- TEMP_CONVERSION (R445): the two readings in 0.25 °C units -/
  | tempConversion (t0 : Int) (t1 : Int)
  /-- SENSOR_CALIBRATION (R454): what the calibration measured -/
  | sensorCalibration (result : CalResult)
  /-- FORCE_CAL (R454): the requester and what every calibration measured -/
  | forceCal (req : Req) (results : List CalResult)
  /-- QUENCH_EN (R448): the requester and the value written -/
  | quenchEn (req : Req) (value : Bool)
  /-- SVC_WRITE (R469): the frame's bytes -/
  | svcWrite (frame : List Byte)
  /-- SVC_READ (R469). -/
  | svcRead
  /-- UPDATE_HELLO (R467): the mailbox of the service call with its input bytes, or none for the frame at the service port -/
  | updateHello (via : Option Nat)
  /-- BEGIN (R471): as UPDATE_HELLO -/
  | updBegin (via : Option Nat)
  /-- PIECE (R472): as UPDATE_HELLO; whether NOR reads back otherwise than programmed -/
  | updPiece (via : Option Nat) (flaw : Bool)
  /-- QUERY (R467): as UPDATE_HELLO -/
  | updQuery (via : Option Nat)
  /-- CHECK (R475): as UPDATE_HELLO -/
  | updCheck (via : Option Nat)
  /-- CHECK_COMPLETE (R475): whether both signatures of the image verify -/
  | checkComplete
  /-- ACTIVATE (R476): as PIECE -/
  | updActivate (via : Option Nat) (flaw : Bool)
  /-- LOADER_ACTIVATION (R477): whether the retained copies' signatures verify; whether NOR reads back otherwise than programmed -/
  | loaderActivation (flaw : Bool)
  /-- RESTORE (R482): as UPDATE_HELLO and LOADER_ACTIVATION -/
  | updRestore (via : Option Nat) (flaw : Bool)
  /-- ABORT (R472): as UPDATE_HELLO -/
  | abort (via : Option Nat)
  /-- CONFIRM (R480): as UPDATE_HELLO -/
  | updConfirm (via : Option Nat)
  /-- UPDATE_RESET (R481): as UPDATE_HELLO; the level of `RECOVERY_N` -/
  | updateReset (via : Option Nat) (recoveryN : Bool)
  /-- STAGING_ERASE_DONE (R473). -/
  | stagingEraseDone
  /-- BYPASS (R486). -/
  | bypass
  /-- IDCODE (R35). -/
  | idcode
  /-- SAMPLE_PRELOAD (R35). -/
  | samplePreload
  /-- DTM_ROV (R486): the core and the request -/
  | dtmRov (core : Nat) (op : DmiOp)
  /-- DTM_SPN (R489): the request -/
  | dtmSpn (op : DmiOp)
  /-- OTP_PORT (R487): `WRITE`, `SEL` and `DATA` of the Update-DR -/
  | otpPort (write : Bool) (sel : BitVec 4) (data : Word)
  /-- LC_PORT (R487): as OTP_PORT -/
  | lcPort (write : Bool) (sel : BitVec 4) (data : Word)
  /-- ENT_RAW (R488): `DATA` of the Update-DR, the samples captured -/
  | entRaw (data samples : Word)
  /-- HALT (R491): the requester and the core -/
  | halt (req : Req) (core : Nat)
  /-- STEP (R491): the requester and the core -/
  | dbgStep (req : Req) (core : Nat)
  /-- DBG_RESUME (R491): the requester and the core -/
  | dbgResume (req : Req) (core : Nat)
  /-- BREAKPOINT_MATCH (R494): the core, the breakpoint and the fetch address -/
  | breakpointMatch (core b pc : Nat)
  /-- BREAK_ROV_CLEAR (R490): the requester -/
  | breakRovClear (req : Req)
  /-- TRACE_ROV_CLEAR (R500): the requester -/
  | traceRovClear (req : Req)
  /-- CNT_ROV_CLEAR (R507): the requester -/
  | cntRovClear (req : Req)
  /-- TRACE_ARM (R498): the requester and the source -/
  | traceArm (req : Req) (t : Nat)
  /-- TRACE_TRIGGER (R498): the source, the cause (2 breakpoint, 3 event), the breakpoint and the event code -/
  | traceTrigger (t cause bp code : Nat)
  /-- SW_TRIG (R498): the requester and the source -/
  | swTrig (req : Req) (t : Nat)
  /-- FLUSH (R499): the requester and the source -/
  | traceFlush (req : Req) (t : Nat)
  /-- TRACE_HOLD_TIMER (R499): the source -/
  | traceHoldTimer (t : Nat)
  /-- TRACE_PORT_READ (R495): the requester and the source -/
  | tracePortRead (req : Req) (t : Nat)
  /-- COUNTER_SAMPLE (R504): byte 7 of each group's sample -/
  | counterSample (boundary : List (BitVec 8))
  /-- SAMPLE_PORT_READ (R504): the requester and the group -/
  | samplePortRead (req : Req) (g : BitVec 3)
  /-- COUNTER_READ (R510): the requester and the counter -/
  | counterRead (req : Req) (n : BitVec 6)
  /-- NOIL_FREEZE (R502): the requester -/
  | noilFreeze (req : Req)
  /-- UNFREEZE (R502): the requester -/
  | unfreeze (req : Req)
  /-- NOIL_DATA_READ (R510): the requester -/
  | noilDataRead (req : Req)
  /-- DBG_SPN_TRACE_WRITE (R510): the requester and the word -/
  | dbgSpnTraceWrite (req : Req) (value : Word)
  /-- GEN_EVT_DATA_READ (R515): the requester -/
  | genEvtDataRead (req : Req)
  /-- GEN_AEV_DATA_READ (R515): the requester -/
  | genAevDataRead (req : Req)
  /-- WHL_TIME_READ (R227): the requester -/
  | whlTimeRead (req : Req)
  /-- VIN_FUSE_OK_RISE (R95): the rail in mV -/
  | vinFuseOkRise (mv : Nat)
  /-- ROVING_WDT_KICK (R141): the core -/
  | rovingWdtKick (core : Nat)
  /-- SOFTWARE_RECORD (R495): the core and the value written -/
  | softwareRecord (core : Nat) (value : BitVec 64)
  /-- HANDOVER_COMPLETE (R439). -/
  | handoverComplete
  deriving DecidableEq, Repr

end Sys2Proof
end

