-- ==== Sys2Proof/Decode.lean ====
section
/-!
DEFINITION. Reading a command from a word. The opcode table gives its rows no bits: a command is an access, a message or an event, and
no word spells one (assumption 1).
-/

namespace Sys2Proof

/-- The command a word spells: none, for no row of the table gives bits. -/
def decodeTableWord (_nbits _w : Nat) : Option Instr := none

end Sys2Proof
end

