-- ==== Sys2Proof/Config.lean ====
section
/-!
DEFINITION. What the spec leaves to a part or to an outside standard: free values (assumption 5), constants it does not give (the netlist
constant, the raw unlock token digest, the check matrix), and the functions of the cryptographic standards it names. All are
constants with no body: nothing is known of them but their type.
-/

namespace Sys2Proof.Config

/-- A free value, numbered. -/
opaque freeNat : Nat → Nat

/-- Byte `i` of a numbered free byte string. -/
opaque freeByte : Nat → Nat → Byte

/-- Hash functions the spec names (FIPS 202, FIPS 180-4). -/
opaque sha3_256 : List Byte → List Byte
opaque sha3_384 : List Byte → List Byte
opaque sha3_512 : List Byte → List Byte
opaque sha384 : List Byte → List Byte
opaque sha512 : List Byte → List Byte
opaque shake128 : List Byte → Nat → List Byte
opaque shake256 : List Byte → Nat → List Byte

/-- KMAC256 of SP 800-185: key, data, customization, output bytes. -/
opaque kmac256 : List Byte → List Byte → List Byte → Nat → List Byte

/-- AES-256-GMAC of SP 800-38D: key, 12-byte nonce, additional data; 16 bytes. -/
opaque gmac : List Byte → List Byte → List Byte → List Byte

/-- AES-256 key wrap of SP 800-38F: key, data; and the unwrap, none when its check fails. -/
opaque kwWrap : List Byte → List Byte → List Byte
opaque kwUnwrap : List Byte → List Byte → Option (List Byte)

/-- AES-256-GCM: key, nonce, additional data, text; ciphertext and tag, and back (none when the tag is wrong). -/
opaque gcmEnc : List Byte → List Byte → List Byte → List Byte → List Byte
opaque gcmDec : List Byte → List Byte → List Byte → List Byte → Option (List Byte)

/-- P-384: the compressed public key of a private value, the ECDH shared x-coordinate, the order-reduced scalar of R107 (extra bits), the
uncompressed public key; ECDSA and ML-DSA key pairs from a seed, and signatures (FIPS 186-5, FIPS 203, FIPS 204). -/
opaque ecPub : List Byte → List Byte
opaque ecdhX : List Byte → List Byte → List Byte
opaque ecPubFull : List Byte → List Byte
opaque ecdsaSign : List Byte → List Byte → List Byte → List Byte
opaque ecdsaVerify : List Byte → List Byte → List Byte → Bool
opaque mldsaPub : Nat → List Byte → List Byte
opaque mldsaMu : Nat → List Byte → List Byte → List Byte → List Byte
opaque mldsaSignMu : Nat → List Byte → List Byte → List Byte → List Byte
opaque mldsaVerifyMu : Nat → List Byte → List Byte → List Byte → Bool
opaque mlkemPub : List Byte → List Byte
opaque mlkemEncaps : List Byte → List Byte → List Byte × List Byte
opaque mlkemDecaps : List Byte → List Byte → List Byte

/-- An uncompressed SEC 1 encoding of a point of P-384 other than the point at infinity. -/
opaque ecPointOk : List Byte → Bool

/-- The representative μ of a message with a context string under a public key, and the hedged pure-mode signature under a seed with `rnd`,
are those of FIPS 204: `mldsaMu` set key context message, `mldsaSignMu` set seed μ rnd, `mldsaVerifyMu` set key μ signature. This is
the signature of a message with an empty context. -/
def mldsaSign (p : Nat) (seed msg rnd : List Byte) : List Byte := mldsaSignMu p seed (mldsaMu p (mldsaPub p seed) [] msg) rnd

/-- AES-256 counter mode of SP 800-38A: key, counter block, data. -/
opaque ctr : List Byte → List Byte → List Byte → List Byte

/-- The transforms of FIPS 204 and FIPS 203 over a polynomial of 256 coefficients: 0 NTT, 1 inverse, 2 pointwise product; modulus; operands. -/
opaque ntt : Nat → Nat → List Byte → List Byte → List Byte

/-- A digest over whole blocks that carry their own padding (R274): algorithm, blocks, result bytes. -/
opaque rawDigest : Nat → List Byte → Nat → List Byte

/-- X.509 v3 certificates with the TCG DICE TcbInfo extension (R108), of an issuer key over the fields given. -/
opaque certificate : List Byte → List Byte → List Byte

/-- The serial number in the package certificate of a certificate store (R323). -/
opaque packageSerial : List Byte → Nat

/-- A certificate of a certificate store (Tables 5.2, 12.1): 0 Root, 1 Device CA, 2 DeviceID of the ECC chain, 3 to 5 of the ML-DSA chain, 6 and 7
the package certificates. -/
opaque storeCert : List Byte → Nat → Option (List Byte)

/-- Which column of the part's Hsiao matrix (R69) a data bit has, among those that are left; the spec does not give it. -/
opaque eccColumn : Nat → Nat

/-- The SPDM 1.3 key schedule (DSP0274): the HMAC of a side (0 requester, 1 responder) over a transcript, and the export master secret, both from
the shared secret. -/
opaque spdmMac : List Byte → List Byte → Nat → List Byte
opaque spdmExport : List Byte → List Byte → List Byte

/-- What an instance that does not card knows of a die's measured fields (Table 5.9); the spec does not say how it learns them. -/
opaque farMeasured : Nat → List Byte

/-- The netlist constant of R72. -/
opaque netlist : List Byte

/-- SHA3-256 of the raw unlock token, fixed in ROM (Table 4.7). -/
opaque rawTokenDigest : List Byte

/-- The serial number in the package certificate at the far end of a scale-out lane (R251); the spec does not say how Spindle learns it. -/
opaque peerSerial : Nat → Nat

/-- What a fuse sensing that a register write started reads otherwise than it was blown: addresses with the cells at the tight, the normal
and the loose margin (R83). -/
opaque senseDrift : Nat → List (Nat × Nat × Nat × Nat)

/-- CTR_DRBG with AES-256 and no derivation function (SP 800-90A, R283): the working state from entropy input and personalisation string, the
state reseeded with entropy input, and the bytes of a request with the state after it. -/
opaque drbgInit : List Byte → List Byte → List Byte
opaque drbgReseed : List Byte → List Byte → List Byte
opaque drbgNext : List Byte → Nat → List Byte × List Byte

end Sys2Proof.Config
end

