-- ==== Sys2Proof/Machine/Regs.lean ====
section
/-!
DEFINITION. Every register of an instance: its offset (`R`), its fields (`F`), the access code of every field (`regTable`) and
the reset values that are not 0 (`regResets`), after Table 19.2 (R513) and the field tables of the chapters. A register of a
unit that comes in several copies is written once with its stride. PWR_STATUS.VIN_OK, VIN_FUSE_OK and PWR_VIN have no reset
value in the spec: they read a rail inside both windows here (assumption 3).
-/

namespace Sys2Proof.Machine

/-- Access codes of Table 0.4. -/
inductive Acc where
  | ro | rw | w1c | w1s | wo | rwl | rs
  deriving DecidableEq, Repr

/-- A field: the offset of its register (copy 0), the distance between copies, how many copies there are, and its bits. -/
structure Fld where
  base : Nat
  stride : Nat
  count : Nat
  hi : Nat
  lo : Nat
  deriving DecidableEq, Repr

/-- One field of a row of the register table. -/
structure FieldRow where
  hi : Nat
  lo : Nat
  acc : Acc
  deriving DecidableEq, Repr

/-- One row of the register table: `count` registers `stride` bytes apart. -/
structure RegRow where
  base : Nat
  stride : Nat
  count : Nat
  fields : List FieldRow
  deriving DecidableEq, Repr

/-- A reset value other than 0 (Table 19.2): `count` registers `stride` apart from `base`. -/
structure RegReset where
  base : Nat
  stride : Nat
  count : Nat
  val : Nat
  deriving DecidableEq, Repr

/-! Offsets (Table 19.2). -/
namespace R

def GEN_ID : Nat := 0x0
def GEN_STATUS : Nat := 0x4
def GEN_EVT_SUM : Nat := 0x8
def GEN_EVT_EN : Nat := 0xC
def GEN_BOOT : Nat := 0x10
def GEN_BOOT_TIME : Nat := 0x14
def GEN_CLAMP : Nat := 0x18
def GEN_CARDED0 : Nat := 0x20
def GEN_CARDED1 : Nat := 0x24
def GEN_CARDED2 : Nat := 0x28
def GEN_EVT_LEVEL : Nat := 0x30
def GEN_EVT_DATA : Nat := 0x34
def GEN_AEV_LEVEL : Nat := 0x38
def GEN_AEV_DATA : Nat := 0x3C
def GEN_CARD_STATEn (n : Nat) : Nat := 0x100 + 0x4 * n
def PWR_CTRL : Nat := 0x1000
def PWR_STATUS : Nat := 0x1004
def PWR_GRP_CTRL : Nat := 0x1008
def PWR_GRP_STATUS : Nat := 0x100C
def PWR_IDLE_CFG : Nat := 0x1010
def PWR_WAKE_EN : Nat := 0x1014
def PWR_WAKE_CAUSE : Nat := 0x1018
def PWR_WAKE_TIME_LO : Nat := 0x1020
def PWR_WAKE_TIME_HI : Nat := 0x1024
def PWR_VIN : Nat := 0x1028
def OTP_STATUS : Nat := 0x2000
def OTP_CMD : Nat := 0x2004
def OTP_ADDR : Nat := 0x2008
def OTP_WDATA : Nat := 0x200C
def OTP_RDATA : Nat := 0x2010
def OTP_RFLAGS : Nat := 0x2014
def OTP_REGION : Nat := 0x2018
def OTP_SENSE_SUM : Nat := 0x201C
def OTP_AUDIT : Nat := 0x2020
def OTP_AUDIT_RES : Nat := 0x2024
def OTP_ARBn (n : Nat) : Nat := 0x2030 + 0x4 * n
def LCS_STATE : Nat := 0x3000
def LCS_CTRL : Nat := 0x3004
def LCS_STATUS : Nat := 0x3008
def LCS_ROOTS : Nat := 0x300C
def LCS_NONCE_LO : Nat := 0x3030
def LCS_NONCE_HI : Nat := 0x3034
def LCS_TOKENn (n : Nat) : Nat := 0x3010 + 0x4 * n
def SNG_CTRL : Nat := 0x4000
def SNG_STATUS : Nat := 0x4004
def SNG_CAUSE : Nat := 0x4008
def SNG_LAST : Nat := 0x400C
def SNG_TEMP : Nat := 0x4010
def SNG_MESH : Nat := 0x4014
def SNG_SINCE : Nat := 0x4018
def SNG_LOG : Nat := 0x4028
def SNG_BASE_x (n : Nat) : Nat := 0x401C + 0x4 * n
def WHL_CTRL : Nat := 0x5000
def WHL_STATUS : Nat := 0x5004
def WHL_TIME_LO : Nat := 0x5008
def WHL_TIME_HI : Nat := 0x500C
def WHL_GRACE : Nat := 0x5010
def WHL_LAUNCH_CTRL : Nat := 0x5014
def WHL_LAUNCH_RES : Nat := 0x5018
def WHL_SCHED_SLOT_LO : Nat := 0x5020
def WHL_SCHED_SLOT_HI : Nat := 0x5024
def WHL_SCHED_CFG : Nat := 0x5028
def WHL_SCHED_ARG : Nat := 0x502C
def WHL_SCHED_GRACE : Nat := 0x5030
def WHL_ALIGN : Nat := 0x5034
def WHL_XPKG_CTRL : Nat := 0x5038
def WHL_XPKG_STATUS : Nat := 0x503C
def WHL_Ln_SLOT_LO (n : Nat) : Nat := 0x5100 + 0x40 * n
def WHL_Ln_SLOT_HI (n : Nat) : Nat := 0x5104 + 0x40 * n
def WHL_Ln_CFG (n : Nat) : Nat := 0x5108 + 0x40 * n
def WHL_Ln_ARG (n : Nat) : Nat := 0x510C + 0x40 * n
def WHL_Ln_GRACE (n : Nat) : Nat := 0x5110 + 0x40 * n
def WHL_Ln_NUM (n : Nat) : Nat := 0x5114 + 0x40 * n
def WHL_Ln_STATE (n : Nat) : Nat := 0x5118 + 0x40 * n
def WHL_Ln_BOUND (n : Nat) : Nat := 0x511C + 0x40 * n
def WHL_Ln_ARMED (n : Nat) : Nat := 0x5120 + 0x40 * n
def WHL_Ln_DROPPED (n : Nat) : Nat := 0x5124 + 0x40 * n
def WHL_Ln_UNCONFIRMED (n : Nat) : Nat := 0x5128 + 0x40 * n
def SKN_CTRL : Nat := 0x6000
def SKN_STATUS : Nat := 0x6004
def SKN_PRESENT0 : Nat := 0x6010
def SKN_PRESENT1 : Nat := 0x6014
def SKN_PRESENT2 : Nat := 0x6018
def SKN_BRIDGE0 : Nat := 0x6020
def SKN_BRIDGE1 : Nat := 0x6024
def SKN_BRIDGE2 : Nat := 0x6028
def SKN_RETRY_CFG : Nat := 0x6030
def SKN_STORM_CFG : Nat := 0x6034
def SKN_AUTH_FAIL : Nat := 0x6038
def PLY_CTRL : Nat := 0x7000
def PLY_STATUS : Nat := 0x7004
def PLY_CFG : Nat := 0x7008
def PLY_LEASE : Nat := 0x700C
def PLY_EXPIRY : Nat := 0x7010
def PLY_GRANTS_LO : Nat := 0x7014
def PLY_GRANTS_HI : Nat := 0x7018
def PLY_MSEQ_LO : Nat := 0x7020
def PLY_MSEQ_HI : Nat := 0x7024
def PLY_MACK_LO : Nat := 0x7028
def PLY_MACK_HI : Nat := 0x702C
def PLY_RESYNC : Nat := 0x7030
def PLY_PROMO_LO : Nat := 0x7034
def PLY_PROMO_HI : Nat := 0x7038
def PLY_LINK : Nat := 0x703C
def MBS_DATAn (n : Nat) : Nat := 0x8000 + 0x80 * n
def MBS_GOn (n : Nat) : Nat := 0x8040 + 0x80 * n
def MBS_STATUSn (n : Nat) : Nat := 0x8044 + 0x80 * n
def MBS_LOCKn (n : Nat) : Nat := 0x8048 + 0x80 * n
def MBS_CFGn (n : Nat) : Nat := 0x804C + 0x80 * n
def MBN_DATAn (n : Nat) : Nat := 0x9000 + 0x80 * n
def MBN_GOn (n : Nat) : Nat := 0x9040 + 0x80 * n
def MBN_STATUSn (n : Nat) : Nat := 0x9044 + 0x80 * n
def MBN_LOCKn (n : Nat) : Nat := 0x9048 + 0x80 * n
def MBN_CFGn (n : Nat) : Nat := 0x904C + 0x80 * n
def MBS_CTRL : Nat := 0x8800
def MBN_CTRL : Nat := 0x9800
def MBN_IRQ_EN : Nat := 0x9804
def MBN_SUM : Nat := 0x9808
def MBN_GEN : Nat := 0x980C
def BOB_CTRL : Nat := 0xA000
def BOB_STATUS : Nat := 0xA004
def BOB_CQ_BASE : Nat := 0xA008
def BOB_CQ_CFG : Nat := 0xA00C
def BOB_CQ_TAIL : Nat := 0xA010
def BOB_CQ_HEAD : Nat := 0xA014
def BOB_CPL_BASE : Nat := 0xA018
def BOB_CPL_HEAD : Nat := 0xA01C
def BOB_CPL_TAIL : Nat := 0xA020
def BOB_JSEQ_LO : Nat := 0xA030
def BOB_JSEQ_HI : Nat := 0xA034
def BOB_JDUR_LO : Nat := 0xA038
def BOB_JDUR_HI : Nat := 0xA03C
def BOB_JRNL_STATUS : Nat := 0xA040
def BOB_WARP_STATUS : Nat := 0xA050
def BOB_WARP_CTRL : Nat := 0xA054
def BOB_LIMIT_SUM : Nat := 0xA060
def BOB_REC_ERR : Nat := 0xA064
def DST_STATUS : Nat := 0xB000
def DST_CACHE_CTRL : Nat := 0xB004
def DST_CACHE_STAT : Nat := 0xB008
def DST_HANKn (n : Nat) : Nat := 0xB040 + 0x4 * n
def CRY_CTRL : Nat := 0xC000
def CRY_LANES0 : Nat := 0xC004
def CRY_LANES1 : Nat := 0xC008
def CRY_SELFTEST : Nat := 0xC00C
def CRY_ENT : Nat := 0xC010
def CRY_DRBG_STATUS : Nat := 0xC014
def CRY_DRBG_CFG : Nat := 0xC018
def CRY_CHn_BASE (n : Nat) : Nat := 0xC100 + 0x20 * n
def CRY_CHn_CFG (n : Nat) : Nat := 0xC104 + 0x20 * n
def CRY_CHn_TAIL (n : Nat) : Nat := 0xC108 + 0x20 * n
def CRY_CHn_HEAD (n : Nat) : Nat := 0xC10C + 0x20 * n
def CRY_CHn_STATUS (n : Nat) : Nat := 0xC110 + 0x20 * n
def CRY_CHn_KEYS (n : Nat) : Nat := 0xC114 + 0x20 * n
def DGT_CTXn_CTRL (n : Nat) : Nat := 0xD000 + 0x10 * n
def DGT_CTXn_STATUS (n : Nat) : Nat := 0xD004 + 0x10 * n
def DGT_CTXn_LEN (n : Nat) : Nat := 0xD008 + 0x10 * n
def DGT_CTXn_RESULT (n : Nat) : Nat := 0xD00C + 0x10 * n
def DGT_CTXn_FEED (n : Nat) : Nat := 0xD400 + 0x10 * n
def DGT_ACTIVE_LO : Nat := 0xD800
def DGT_ACTIVE_HI : Nat := 0xD804
def DGT_GRANT_LO : Nat := 0xD808
def DGT_GRANT_HI : Nat := 0xD80C
def DGT_TW_CTRL : Nat := 0xDBC0
def DGT_TW_STATUS : Nat := 0xDBC4
def DGT_TW_DUP : Nat := 0xDBC8
def DGT_TWn_CTRL (n : Nat) : Nat := 0xDC00 + 0x40 * n
def DGT_TWn_STATUS (n : Nat) : Nat := 0xDC04 + 0x40 * n
def DGT_TWn_SEGMENT (n : Nat) : Nat := 0xDC08 + 0x40 * n
def DGT_TWn_RECORDS (n : Nat) : Nat := 0xDC0C + 0x40 * n
def DGT_TWn_STEP_LO (n : Nat) : Nat := 0xDC10 + 0x40 * n
def DGT_TWn_STEP_HI (n : Nat) : Nat := 0xDC14 + 0x40 * n
def DGT_TWn_LOG_LO (n : Nat) : Nat := 0xDC18 + 0x40 * n
def DGT_TWn_LOG_HI (n : Nat) : Nat := 0xDC1C + 0x40 * n
def DGT_TWn_LOG_LEN (n : Nat) : Nat := 0xDC20 + 0x40 * n
def DGT_TWn_PROG (n : Nat) : Nat := 0xDC24 + 0x40 * n
def DGT_TWn_HEAD (n : Nat) : Nat := 0xDC28 + 0x40 * n
def DGT_TWn_COUNTS (n : Nat) : Nat := 0xDC2C + 0x40 * n
def TLY_CTRL : Nat := 0xE000
def TLY_STATUS : Nat := 0xE004
def TLY_SRC_LO : Nat := 0xE008
def TLY_SRC_HI : Nat := 0xE00C
def TLY_SRC_LEN : Nat := 0xE010
def TLY_ACCn_CFG (n : Nat) : Nat := 0xE100 + 0x40 * n
def TLY_ACCn_LEN (n : Nat) : Nat := 0xE104 + 0x40 * n
def TLY_ACCn_STEP_LO (n : Nat) : Nat := 0xE108 + 0x40 * n
def TLY_ACCn_STEP_HI (n : Nat) : Nat := 0xE10C + 0x40 * n
def TLY_ACCn_OWNERS (n : Nat) : Nat := 0xE110 + 0x40 * n
def TLY_ACCn_RECEIVED (n : Nat) : Nat := 0xE114 + 0x40 * n
def TLY_ACCn_OUT (n : Nat) : Nat := 0xE118 + 0x40 * n
def TLY_ACCn_STATUS (n : Nat) : Nat := 0xE11C + 0x40 * n
def TLY_ACCn_SAT (n : Nat) : Nat := 0xE120 + 0x40 * n
def TLY_ACCn_NAN (n : Nat) : Nat := 0xE124 + 0x40 * n
def TLY_ACCn_DIGEST (n : Nat) : Nat := 0xE128 + 0x40 * n
def DMA_CTRL : Nat := 0xF000
def DMA_STATUS : Nat := 0xF004
def DMA_FAULT_MASK : Nat := 0xF008
def DMA_STOP_MASK : Nat := 0xF00C
def DMA_RELEASE : Nat := 0xF010
def DMA_LINE_GRANT_LO : Nat := 0xF014
def DMA_LINE_GRANT_HI : Nat := 0xF018
def DMA_SWREQ : Nat := 0xF01C
def DMA_SWREQ_PEND_LO : Nat := 0xF020
def DMA_SWREQ_PEND_HI : Nat := 0xF024
def DMA_CHn_BASE (n : Nat) : Nat := 0xF100 + 0x40 * n
def DMA_CHn_CFG (n : Nat) : Nat := 0xF104 + 0x40 * n
def DMA_CHn_TAIL (n : Nat) : Nat := 0xF108 + 0x40 * n
def DMA_CHn_HEAD (n : Nat) : Nat := 0xF10C + 0x40 * n
def DMA_CHn_CTRL (n : Nat) : Nat := 0xF110 + 0x40 * n
def DMA_CHn_STATUS (n : Nat) : Nat := 0xF114 + 0x40 * n
def DMA_CHn_CUR_SRC_LO (n : Nat) : Nat := 0xF118 + 0x40 * n
def DMA_CHn_CUR_SRC_HI (n : Nat) : Nat := 0xF11C + 0x40 * n
def DMA_CHn_CUR_DST_LO (n : Nat) : Nat := 0xF120 + 0x40 * n
def DMA_CHn_CUR_DST_HI (n : Nat) : Nat := 0xF124 + 0x40 * n
def DMA_CHn_REMAIN (n : Nat) : Nat := 0xF128 + 0x40 * n
def DMA_CHn_ENTRY (n : Nat) : Nat := 0xF12C + 0x40 * n
def DMA_CHn_ELEM_OFF (n : Nat) : Nat := 0xF130 + 0x40 * n
def DMA_CHn_FAULT_ADDR_LO (n : Nat) : Nat := 0xF134 + 0x40 * n
def DMA_CHn_FAULT_ADDR_HI (n : Nat) : Nat := 0xF138 + 0x40 * n
def DMA_CHn_FAULT (n : Nat) : Nat := 0xF13C + 0x40 * n
def DBG_CTRL : Nat := 0x10000
def DBG_STATUS : Nat := 0x10004
def DBG_CNT_CFG : Nat := 0x10008
def DBG_SPN_TRACE : Nat := 0x1000C
def DBG_NOIL_CTRL : Nat := 0x10010
def DBG_NOIL_STATUS : Nat := 0x10014
def DBG_NOIL_SEL : Nat := 0x10018
def DBG_NOIL_DATA : Nat := 0x1001C
def DBG_COREc_CTRL (n : Nat) : Nat := 0x10100 + 0x20 * n
def DBG_COREc_STATUS (n : Nat) : Nat := 0x10104 + 0x20 * n
def DBG_COREc_BP0 (n : Nat) : Nat := 0x10108 + 0x20 * n
def DBG_COREc_BP1 (n : Nat) : Nat := 0x1010C + 0x20 * n
def DBG_COREc_BP2 (n : Nat) : Nat := 0x10110 + 0x20 * n
def DBG_COREc_BP3 (n : Nat) : Nat := 0x10114 + 0x20 * n
def DBG_TRt_CTRL (n : Nat) : Nat := 0x10400 + 0x10 * n
def DBG_TRt_STATUS (n : Nat) : Nat := 0x10404 + 0x10 * n
def DBG_TRt_LOST (n : Nat) : Nat := 0x10408 + 0x10 * n
def DBG_SMPg_LOST (n : Nat) : Nat := 0x10800 + 0x10 * n
def DBG_CNTi_CFG (n : Nat) : Nat := 0x11000 + 0x10 * n
def DBG_CNTi_LO (n : Nat) : Nat := 0x11004 + 0x10 * n
def DBG_CNTi_HI (n : Nat) : Nat := 0x11008 + 0x10 * n
def COR_STATUS : Nat := 0x18000
def COR_SPN_CTRL : Nat := 0x18004
def COR_SPN_WDT : Nat := 0x18008
def COR_ROV_WDT : Nat := 0x1800C
def COR_CORE_CTRLn (n : Nat) : Nat := 0x18020 + 0x4 * n
def COR_CORE_STATUSn (n : Nat) : Nat := 0x18040 + 0x4 * n
def COR_ROV_WINn_BASE (n : Nat) : Nat := 0x18060 + 0x8 * n
def COR_ROV_WINn_CTRL (n : Nat) : Nat := 0x18064 + 0x8 * n

end R

/-! Fields (the field tables of the chapters). -/
namespace F

def GEN_ID_BLOCK : Fld := ⟨0x0, 0x0, 1, 31, 20⟩
def GEN_ID_STEP_MAJOR : Fld := ⟨0x0, 0x0, 1, 19, 16⟩
def GEN_ID_STEP_MINOR : Fld := ⟨0x0, 0x0, 1, 15, 12⟩
def GEN_ID_PKG_CLASS : Fld := ⟨0x0, 0x0, 1, 11, 10⟩
def GEN_ID_SIDE : Fld := ⟨0x0, 0x0, 1, 9, 9⟩
def SKN_CTRL_CFG_LOCK : Fld := ⟨0x6000, 0x0, 1, 3, 3⟩
def SKN_CTRL_PREKEY : Fld := ⟨0x6000, 0x0, 1, 2, 2⟩
def SKN_CTRL_RETRAIN : Fld := ⟨0x6000, 0x0, 1, 1, 1⟩
def SKN_CTRL_RING_EN : Fld := ⟨0x6000, 0x0, 1, 0, 0⟩
def SKN_STATUS_BREAK_B : Fld := ⟨0x6004, 0x0, 1, 31, 24⟩
def SKN_STATUS_BREAK_A : Fld := ⟨0x6004, 0x0, 1, 23, 16⟩
def SKN_STATUS_BREAK : Fld := ⟨0x6004, 0x0, 1, 10, 10⟩
def SKN_STATUS_CC_LOCK : Fld := ⟨0x6004, 0x0, 1, 9, 9⟩
def SKN_STATUS_CW_LOCK : Fld := ⟨0x6004, 0x0, 1, 8, 8⟩
def SKN_STATUS_NODE : Fld := ⟨0x6004, 0x0, 1, 7, 0⟩
def SKN_PRESENT0_NODES : Fld := ⟨0x6010, 0x0, 1, 31, 0⟩
def SKN_PRESENT1_NODES : Fld := ⟨0x6014, 0x0, 1, 31, 0⟩
def SKN_PRESENT2_NODES : Fld := ⟨0x6018, 0x0, 1, 1, 0⟩
def SKN_BRIDGE0_NODES : Fld := ⟨0x6020, 0x0, 1, 31, 0⟩
def SKN_BRIDGE1_NODES : Fld := ⟨0x6024, 0x0, 1, 31, 0⟩
def SKN_BRIDGE2_NODES : Fld := ⟨0x6028, 0x0, 1, 1, 0⟩
def SKN_RETRY_CFG_MAX_TRY : Fld := ⟨0x6030, 0x0, 1, 11, 8⟩
def SKN_RETRY_CFG_ACK_TIMEOUT : Fld := ⟨0x6030, 0x0, 1, 7, 0⟩
def SKN_STORM_CFG_SRC_LIMIT : Fld := ⟨0x6034, 0x0, 1, 26, 16⟩
def SKN_STORM_CFG_THRESHOLD : Fld := ⟨0x6034, 0x0, 1, 10, 0⟩
def SKN_AUTH_FAIL_LIFETIME : Fld := ⟨0x6038, 0x0, 1, 31, 16⟩
def SKN_AUTH_FAIL_WINDOW : Fld := ⟨0x6038, 0x0, 1, 15, 0⟩
def PWR_CTRL_SHUTDOWN : Fld := ⟨0x1000, 0x0, 1, 3, 3⟩
def PWR_CTRL_SLEEP_REQ : Fld := ⟨0x1000, 0x0, 1, 2, 2⟩
def PWR_CTRL_PLL_KEEP : Fld := ⟨0x1000, 0x0, 1, 1, 1⟩
def PWR_CTRL_AUTO_GATE : Fld := ⟨0x1000, 0x0, 1, 0, 0⟩
def PWR_STATUS_LAST_RESULT : Fld := ⟨0x1004, 0x0, 1, 31, 24⟩
def PWR_STATUS_SEQ_STATE : Fld := ⟨0x1004, 0x0, 1, 23, 20⟩
def PWR_STATUS_RSV_READY : Fld := ⟨0x1004, 0x0, 1, 8, 8⟩
def PWR_STATUS_VIN_FUSE_OK : Fld := ⟨0x1004, 0x0, 1, 7, 7⟩
def PWR_STATUS_VIN_OK : Fld := ⟨0x1004, 0x0, 1, 6, 6⟩
def PWR_STATUS_ON_RC : Fld := ⟨0x1004, 0x0, 1, 5, 5⟩
def PWR_STATUS_REF_LOST : Fld := ⟨0x1004, 0x0, 1, 4, 4⟩
def PWR_STATUS_CRY_PLL_LOCK : Fld := ⟨0x1004, 0x0, 1, 3, 3⟩
def PWR_STATUS_SVC_PLL_LOCK : Fld := ⟨0x1004, 0x0, 1, 2, 2⟩
def PWR_GRP_CTRL_FORCE_ON : Fld := ⟨0x1008, 0x0, 1, 13, 9⟩
def PWR_GRP_CTRL_DISABLE : Fld := ⟨0x1008, 0x0, 1, 5, 1⟩
def PWR_GRP_STATUS_STATE : Fld := ⟨0x100C, 0x0, 1, 11, 0⟩
def PWR_IDLE_CFG_PLL_HOLD : Fld := ⟨0x1010, 0x0, 1, 31, 16⟩
def PWR_IDLE_CFG_IDLE_SLOTS : Fld := ⟨0x1010, 0x0, 1, 15, 0⟩
def PWR_WAKE_EN_SRC : Fld := ⟨0x1014, 0x0, 1, 3, 0⟩
def PWR_WAKE_CAUSE_COLD : Fld := ⟨0x1018, 0x0, 1, 5, 5⟩
def PWR_WAKE_CAUSE_RESET : Fld := ⟨0x1018, 0x0, 1, 4, 4⟩
def PWR_WAKE_CAUSE_SRC : Fld := ⟨0x1018, 0x0, 1, 3, 0⟩
def PWR_WAKE_TIME_LO_TIME : Fld := ⟨0x1020, 0x0, 1, 31, 0⟩
def PWR_WAKE_TIME_HI_TIME : Fld := ⟨0x1024, 0x0, 1, 31, 0⟩
def PWR_VIN_MV : Fld := ⟨0x1028, 0x0, 1, 15, 0⟩
def OTP_STATUS_LAST_OP : Fld := ⟨0x2000, 0x0, 1, 31, 24⟩
def OTP_STATUS_RESULT : Fld := ⟨0x2000, 0x0, 1, 23, 16⟩
def OTP_STATUS_REPAIRED : Fld := ⟨0x2000, 0x0, 1, 5, 5⟩
def OTP_STATUS_INTEG_FAIL : Fld := ⟨0x2000, 0x0, 1, 4, 4⟩
def OTP_STATUS_QUENCHED : Fld := ⟨0x2000, 0x0, 1, 3, 3⟩
def OTP_STATUS_PARTIAL : Fld := ⟨0x2000, 0x0, 1, 2, 2⟩
def OTP_STATUS_DONE : Fld := ⟨0x2000, 0x0, 1, 1, 1⟩
def OTP_STATUS_BUSY : Fld := ⟨0x2000, 0x0, 1, 0, 0⟩
def OTP_CMD_KEY : Fld := ⟨0x2004, 0x0, 1, 31, 16⟩
def OTP_CMD_ARG : Fld := ⟨0x2004, 0x0, 1, 15, 8⟩
def OTP_CMD_OP : Fld := ⟨0x2004, 0x0, 1, 7, 0⟩
def OTP_ADDR_WORD : Fld := ⟨0x2008, 0x0, 1, 11, 0⟩
def OTP_WDATA_DATA : Fld := ⟨0x200C, 0x0, 1, 31, 0⟩
def OTP_RDATA_DATA : Fld := ⟨0x2010, 0x0, 1, 31, 0⟩
def OTP_RFLAGS_CHECK : Fld := ⟨0x2014, 0x0, 1, 15, 8⟩
def OTP_RFLAGS_REPAIRED : Fld := ⟨0x2014, 0x0, 1, 5, 5⟩
def OTP_RFLAGS_MAJORITY : Fld := ⟨0x2014, 0x0, 1, 4, 4⟩
def OTP_RFLAGS_PARTIAL : Fld := ⟨0x2014, 0x0, 1, 3, 3⟩
def OTP_RFLAGS_UNCORR : Fld := ⟨0x2014, 0x0, 1, 2, 2⟩
def OTP_RFLAGS_MARGINAL : Fld := ⟨0x2014, 0x0, 1, 1, 1⟩
def OTP_RFLAGS_CORRECTED : Fld := ⟨0x2014, 0x0, 1, 0, 0⟩
def OTP_REGION_REG0 : Fld := ⟨0x2018, 0x0, 1, 3, 0⟩
def OTP_REGION_REG1 : Fld := ⟨0x2018, 0x0, 1, 7, 4⟩
def OTP_REGION_REG2 : Fld := ⟨0x2018, 0x0, 1, 11, 8⟩
def OTP_REGION_REG3 : Fld := ⟨0x2018, 0x0, 1, 15, 12⟩
def OTP_REGION_REG4 : Fld := ⟨0x2018, 0x0, 1, 19, 16⟩
def OTP_REGION_REG5 : Fld := ⟨0x2018, 0x0, 1, 23, 20⟩
def OTP_REGION_REG6 : Fld := ⟨0x2018, 0x0, 1, 27, 24⟩
def OTP_REGION_REG7 : Fld := ⟨0x2018, 0x0, 1, 31, 28⟩
def OTP_SENSE_SUM_MARGINAL : Fld := ⟨0x201C, 0x0, 1, 31, 24⟩
def OTP_SENSE_SUM_CORRECTED : Fld := ⟨0x201C, 0x0, 1, 23, 16⟩
def OTP_SENSE_SUM_UNCORR : Fld := ⟨0x201C, 0x0, 1, 15, 8⟩
def OTP_SENSE_SUM_TIME : Fld := ⟨0x201C, 0x0, 1, 7, 0⟩
def OTP_AUDIT_START : Fld := ⟨0x2020, 0x0, 1, 16, 16⟩
def OTP_AUDIT_LOCKROW : Fld := ⟨0x2020, 0x0, 1, 8, 8⟩
def OTP_AUDIT_REGIONS : Fld := ⟨0x2020, 0x0, 1, 7, 0⟩
def OTP_AUDIT_RES_MISMATCH : Fld := ⟨0x2024, 0x0, 1, 31, 16⟩
def OTP_AUDIT_RES_STATUS : Fld := ⟨0x2024, 0x0, 1, 15, 8⟩
def OTP_AUDIT_RES_RUNNING : Fld := ⟨0x2024, 0x0, 1, 0, 0⟩
def OTP_ARBn_SATURATED : Fld := ⟨0x2030, 0x4, 4, 31, 31⟩
def OTP_ARBn_VALUE : Fld := ⟨0x2030, 0x4, 4, 8, 0⟩
def LCS_STATE_RESUMED : Fld := ⟨0x3000, 0x0, 1, 19, 19⟩
def LCS_STATE_QUENCHED : Fld := ⟨0x3000, 0x0, 1, 18, 18⟩
def LCS_STATE_RECORDS : Fld := ⟨0x3000, 0x0, 1, 13, 8⟩
def LCS_STATE_NEXT : Fld := ⟨0x3000, 0x0, 1, 7, 4⟩
def LCS_STATE_CURRENT : Fld := ⟨0x3000, 0x0, 1, 3, 0⟩
def LCS_CTRL_KEY : Fld := ⟨0x3004, 0x0, 1, 31, 16⟩
def LCS_CTRL_AUTH_VERIFIED : Fld := ⟨0x3004, 0x0, 1, 9, 9⟩
def LCS_CTRL_GO : Fld := ⟨0x3004, 0x0, 1, 8, 8⟩
def LCS_CTRL_TARGET : Fld := ⟨0x3004, 0x0, 1, 3, 0⟩
def LCS_STATUS_PHASE : Fld := ⟨0x3008, 0x0, 1, 15, 12⟩
def LCS_STATUS_DONE : Fld := ⟨0x3008, 0x0, 1, 9, 9⟩
def LCS_STATUS_BUSY : Fld := ⟨0x3008, 0x0, 1, 8, 8⟩
def LCS_STATUS_RESULT : Fld := ⟨0x3008, 0x0, 1, 7, 0⟩
def LCS_ROOTS_SELECTED : Fld := ⟨0x300C, 0x0, 1, 7, 4⟩
def LCS_ROOTS_GOOD : Fld := ⟨0x300C, 0x0, 1, 3, 0⟩
def LCS_TOKENn_DATA : Fld := ⟨0x3010, 0x4, 8, 31, 0⟩
def LCS_NONCE_LO_NONCE : Fld := ⟨0x3030, 0x0, 1, 31, 0⟩
def LCS_NONCE_HI_NONCE : Fld := ⟨0x3034, 0x0, 1, 31, 0⟩
def GEN_BOOT_LAST_STATUS : Fld := ⟨0x10, 0x0, 1, 31, 24⟩
def GEN_BOOT_FAIL_STEP : Fld := ⟨0x10, 0x0, 1, 23, 16⟩
def GEN_BOOT_NO_ID : Fld := ⟨0x10, 0x0, 1, 11, 11⟩
def GEN_BOOT_AMVEX_DEFAULT : Fld := ⟨0x10, 0x0, 1, 10, 10⟩
def GEN_BOOT_WARM : Fld := ⟨0x10, 0x0, 1, 9, 9⟩
def GEN_BOOT_RECOVERY : Fld := ⟨0x10, 0x0, 1, 8, 8⟩
def GEN_BOOT_PHASE : Fld := ⟨0x10, 0x0, 1, 7, 0⟩
def GEN_BOOT_TIME_US : Fld := ⟨0x14, 0x0, 1, 31, 0⟩
def GEN_CLAMP_ENTRIES : Fld := ⟨0x18, 0x0, 1, 7, 0⟩
def GEN_CARDED0_NODES : Fld := ⟨0x20, 0x0, 1, 31, 0⟩
def GEN_CARDED1_NODES : Fld := ⟨0x24, 0x0, 1, 31, 0⟩
def GEN_CARD_STATEn_RECARD : Fld := ⟨0x100, 0x4, 64, 31, 31⟩
def GEN_CARD_STATEn_ATTEMPTS : Fld := ⟨0x100, 0x4, 64, 30, 24⟩
def GEN_CARD_STATEn_REASON : Fld := ⟨0x100, 0x4, 64, 23, 16⟩
def GEN_CARD_STATEn_STATE : Fld := ⟨0x100, 0x4, 64, 3, 0⟩
def GEN_STATUS_ROVING_LIVE : Fld := ⟨0x4, 0x0, 1, 15, 12⟩
def GEN_STATUS_HELD : Fld := ⟨0x4, 0x0, 1, 3, 3⟩
def GEN_STATUS_LEAD : Fld := ⟨0x4, 0x0, 1, 2, 2⟩
def GEN_STATUS_SERVING : Fld := ⟨0x4, 0x0, 1, 1, 1⟩
def GEN_STATUS_SVC_UP : Fld := ⟨0x4, 0x0, 1, 0, 0⟩
def GEN_EVT_SUM_CORE : Fld := ⟨0x8, 0x0, 1, 6, 6⟩
def GEN_EVT_SUM_TAMPER : Fld := ⟨0x8, 0x0, 1, 5, 5⟩
def GEN_EVT_SUM_ALARM : Fld := ⟨0x8, 0x0, 1, 4, 4⟩
def GEN_EVT_SUM_ERROR : Fld := ⟨0x8, 0x0, 1, 3, 3⟩
def GEN_EVT_SUM_NOTICE : Fld := ⟨0x8, 0x0, 1, 2, 2⟩
def GEN_EVT_SUM_LCS : Fld := ⟨0x8, 0x0, 1, 1, 1⟩
def GEN_EVT_SUM_OTP : Fld := ⟨0x8, 0x0, 1, 0, 0⟩
def GEN_EVT_EN_EN : Fld := ⟨0xC, 0x0, 1, 6, 0⟩
def MBS_GOn_WORDS : Fld := ⟨0x8040, 0x80, 16, 4, 0⟩
def MBN_GOn_WORDS : Fld := ⟨0x9040, 0x80, 16, 4, 0⟩
def MBS_STATUSn_OWNER : Fld := ⟨0x8044, 0x80, 16, 31, 24⟩
def MBN_STATUSn_OWNER : Fld := ⟨0x9044, 0x80, 16, 31, 24⟩
def MBS_STATUSn_LAST : Fld := ⟨0x8044, 0x80, 16, 23, 16⟩
def MBN_STATUSn_LAST : Fld := ⟨0x9044, 0x80, 16, 23, 16⟩
def MBS_STATUSn_WORDS : Fld := ⟨0x8044, 0x80, 16, 12, 8⟩
def MBN_STATUSn_WORDS : Fld := ⟨0x9044, 0x80, 16, 12, 8⟩
def MBS_STATUSn_EMPTY_IRQ : Fld := ⟨0x8044, 0x80, 16, 5, 5⟩
def MBN_STATUSn_EMPTY_IRQ : Fld := ⟨0x9044, 0x80, 16, 5, 5⟩
def MBS_STATUSn_FULL_IRQ : Fld := ⟨0x8044, 0x80, 16, 4, 4⟩
def MBN_STATUSn_FULL_IRQ : Fld := ⟨0x9044, 0x80, 16, 4, 4⟩
def MBS_STATUSn_STATE : Fld := ⟨0x8044, 0x80, 16, 2, 0⟩
def MBN_STATUSn_STATE : Fld := ⟨0x9044, 0x80, 16, 2, 0⟩
def MBS_LOCKn_OWNER : Fld := ⟨0x8048, 0x80, 16, 7, 0⟩
def MBN_LOCKn_OWNER : Fld := ⟨0x9048, 0x80, 16, 7, 0⟩
def MBS_LOCKn_FORCE : Fld := ⟨0x8048, 0x80, 16, 1, 1⟩
def MBN_LOCKn_FORCE : Fld := ⟨0x9048, 0x80, 16, 1, 1⟩
def MBS_LOCKn_RELEASE : Fld := ⟨0x8048, 0x80, 16, 0, 0⟩
def MBN_LOCKn_RELEASE : Fld := ⟨0x9048, 0x80, 16, 0, 0⟩
def MBN_CFGn_ROUTE : Fld := ⟨0x904C, 0x80, 16, 2, 0⟩
def MBS_CFGn_BOUND : Fld := ⟨0x804C, 0x80, 16, 2, 0⟩
def MBS_CTRL_LOCK_TIMEOUT : Fld := ⟨0x8800, 0x0, 1, 23, 0⟩
def MBN_CTRL_LOCK_TIMEOUT : Fld := ⟨0x9800, 0x0, 1, 23, 0⟩
def MBN_IRQ_EN_EN : Fld := ⟨0x9804, 0x0, 1, 15, 0⟩
def MBN_SUM_FULL : Fld := ⟨0x9808, 0x0, 1, 31, 16⟩
def MBN_SUM_EMPTY : Fld := ⟨0x9808, 0x0, 1, 15, 0⟩
def MBN_GEN_COUNT : Fld := ⟨0x980C, 0x0, 1, 31, 0⟩
def COR_STATUS_LIVE_COUNT : Fld := ⟨0x18000, 0x0, 1, 19, 16⟩
def COR_STATUS_FENCED : Fld := ⟨0x18000, 0x0, 1, 13, 8⟩
def COR_STATUS_LIVE : Fld := ⟨0x18000, 0x0, 1, 5, 0⟩
def COR_SPN_CTRL_CODE_TOP : Fld := ⟨0x18004, 0x0, 1, 15, 8⟩
def COR_SPN_CTRL_CODE_WP : Fld := ⟨0x18004, 0x0, 1, 0, 0⟩
def COR_SPN_WDT_KICK : Fld := ⟨0x18008, 0x0, 1, 31, 31⟩
def COR_SPN_WDT_PERIOD : Fld := ⟨0x18008, 0x0, 1, 23, 0⟩
def COR_ROV_WDT_PERIOD : Fld := ⟨0x1800C, 0x0, 1, 23, 0⟩
def COR_CORE_CTRLn_RESTART : Fld := ⟨0x18020, 0x4, 6, 1, 1⟩
def COR_CORE_CTRLn_FENCE : Fld := ⟨0x18020, 0x4, 6, 0, 0⟩
def COR_CORE_STATUSn_CAUSE : Fld := ⟨0x18040, 0x4, 6, 31, 24⟩
def COR_CORE_STATUSn_RESTARTS : Fld := ⟨0x18040, 0x4, 6, 23, 16⟩
def COR_CORE_STATUSn_STATE : Fld := ⟨0x18040, 0x4, 6, 2, 0⟩
def COR_ROV_WINn_BASE_ADDR : Fld := ⟨0x18060, 0x8, 4, 31, 0⟩
def COR_ROV_WINn_CTRL_EN : Fld := ⟨0x18064, 0x8, 4, 31, 31⟩
def COR_ROV_WINn_CTRL_WRITE : Fld := ⟨0x18064, 0x8, 4, 30, 30⟩
def COR_ROV_WINn_CTRL_PAGES : Fld := ⟨0x18064, 0x8, 4, 23, 0⟩
def BOB_CTRL_CPL_IRQ_EN : Fld := ⟨0xA000, 0x0, 1, 2, 2⟩
def BOB_CTRL_PAUSE : Fld := ⟨0xA000, 0x0, 1, 1, 1⟩
def BOB_CTRL_EN : Fld := ⟨0xA000, 0x0, 1, 0, 0⟩
def BOB_STATUS_LAST_ERR : Fld := ⟨0xA004, 0x0, 1, 15, 8⟩
def BOB_STATUS_JRNL_FAILED : Fld := ⟨0xA004, 0x0, 1, 4, 4⟩
def BOB_STATUS_REPLAYED : Fld := ⟨0xA004, 0x0, 1, 3, 3⟩
def BOB_STATUS_PAUSED : Fld := ⟨0xA004, 0x0, 1, 2, 2⟩
def BOB_STATUS_IDLE : Fld := ⟨0xA004, 0x0, 1, 1, 1⟩
def BOB_STATUS_OPEN : Fld := ⟨0xA004, 0x0, 1, 0, 0⟩
def BOB_CQ_BASE_ADDR : Fld := ⟨0xA008, 0x0, 1, 19, 5⟩
def BOB_CQ_CFG_LOG2 : Fld := ⟨0xA00C, 0x0, 1, 3, 0⟩
def BOB_CQ_TAIL_IDX : Fld := ⟨0xA010, 0x0, 1, 9, 0⟩
def BOB_CQ_HEAD_IDX : Fld := ⟨0xA014, 0x0, 1, 9, 0⟩
def BOB_CPL_BASE_ADDR : Fld := ⟨0xA018, 0x0, 1, 19, 4⟩
def BOB_CPL_HEAD_IDX : Fld := ⟨0xA01C, 0x0, 1, 9, 0⟩
def BOB_CPL_TAIL_IDX : Fld := ⟨0xA020, 0x0, 1, 9, 0⟩
def BOB_JSEQ_LO_SEQ : Fld := ⟨0xA030, 0x0, 1, 31, 0⟩
def BOB_JSEQ_HI_SEQ : Fld := ⟨0xA034, 0x0, 1, 31, 0⟩
def BOB_JDUR_LO_SEQ : Fld := ⟨0xA038, 0x0, 1, 31, 0⟩
def BOB_JDUR_HI_SEQ : Fld := ⟨0xA03C, 0x0, 1, 31, 0⟩
def BOB_JRNL_STATUS_HEAD_SECTOR : Fld := ⟨0xA040, 0x0, 1, 28, 16⟩
def BOB_JRNL_STATUS_PROG_ERR : Fld := ⟨0xA040, 0x0, 1, 15, 8⟩
def BOB_JRNL_STATUS_ERASING : Fld := ⟨0xA040, 0x0, 1, 2, 2⟩
def BOB_JRNL_STATUS_PROGRAMMING : Fld := ⟨0xA040, 0x0, 1, 1, 1⟩
def BOB_JRNL_STATUS_FAILED : Fld := ⟨0xA040, 0x0, 1, 0, 0⟩
def BOB_WARP_STATUS_CH : Fld := ⟨0xA050, 0x0, 1, 15, 0⟩
def BOB_WARP_CTRL_CLEAR : Fld := ⟨0xA054, 0x0, 1, 7, 0⟩
def BOB_LIMIT_SUM_COUNT : Fld := ⟨0xA060, 0x0, 1, 20, 0⟩
def BOB_REC_ERR_VALID : Fld := ⟨0xA064, 0x0, 1, 31, 31⟩
def BOB_REC_ERR_BOBBIN : Fld := ⟨0xA064, 0x0, 1, 19, 0⟩
def DST_STATUS_HANKS : Fld := ⟨0xB000, 0x0, 1, 31, 16⟩
def DST_STATUS_DICE_CLOSED : Fld := ⟨0xB000, 0x0, 1, 4, 4⟩
def DST_STATUS_BLOB_KEY : Fld := ⟨0xB000, 0x0, 1, 3, 3⟩
def DST_STATUS_JOURNAL_KEY : Fld := ⟨0xB000, 0x0, 1, 2, 2⟩
def DST_STATUS_STORE_KEY : Fld := ⟨0xB000, 0x0, 1, 1, 1⟩
def DST_STATUS_ROOT : Fld := ⟨0xB000, 0x0, 1, 0, 0⟩
def DST_CACHE_CTRL_FLUSH : Fld := ⟨0xB004, 0x0, 1, 31, 31⟩
def DST_CACHE_CTRL_REMASK_SLOTS : Fld := ⟨0xB004, 0x0, 1, 23, 0⟩
def DST_CACHE_STAT_PINNED : Fld := ⟨0xB008, 0x0, 1, 30, 16⟩
def DST_CACHE_STAT_VALID : Fld := ⟨0xB008, 0x0, 1, 14, 0⟩
def DST_HANKn_VALID : Fld := ⟨0xB040, 0x4, 16, 31, 31⟩
def DST_HANKn_FROZEN : Fld := ⟨0xB040, 0x4, 16, 30, 30⟩
def DST_HANKn_CEREMONY : Fld := ⟨0xB040, 0x4, 16, 15, 0⟩
def WHL_CTRL_MARKER_EN : Fld := ⟨0x5000, 0x0, 1, 1, 1⟩
def WHL_CTRL_SCHED_EN : Fld := ⟨0x5000, 0x0, 1, 0, 0⟩
def WHL_STATUS_MASTER : Fld := ⟨0x5004, 0x0, 1, 23, 16⟩
def WHL_STATUS_OPEN : Fld := ⟨0x5004, 0x0, 1, 15, 8⟩
def WHL_STATUS_XPKG_ALIGNED : Fld := ⟨0x5004, 0x0, 1, 3, 3⟩
def WHL_STATUS_IS_MASTER : Fld := ⟨0x5004, 0x0, 1, 2, 2⟩
def WHL_STATUS_ALIGN : Fld := ⟨0x5004, 0x0, 1, 1, 0⟩
def WHL_TIME_LO_TIME : Fld := ⟨0x5008, 0x0, 1, 31, 0⟩
def WHL_TIME_HI_TIME : Fld := ⟨0x500C, 0x0, 1, 31, 0⟩
def WHL_GRACE_SLOTS : Fld := ⟨0x5010, 0x0, 1, 20, 0⟩
def WHL_ALIGN_MISSED : Fld := ⟨0x5034, 0x0, 1, 31, 16⟩
def WHL_ALIGN_CORR : Fld := ⟨0x5034, 0x0, 1, 15, 8⟩
def WHL_ALIGN_DIFF : Fld := ⟨0x5034, 0x0, 1, 7, 0⟩
def WHL_LAUNCH_CTRL_ENTRY : Fld := ⟨0x5014, 0x0, 1, 11, 8⟩
def WHL_LAUNCH_CTRL_OP : Fld := ⟨0x5014, 0x0, 1, 1, 0⟩
def WHL_LAUNCH_RES_STATUS : Fld := ⟨0x5018, 0x0, 1, 31, 24⟩
def WHL_LAUNCH_RES_ENTRY : Fld := ⟨0x5018, 0x0, 1, 19, 16⟩
def WHL_LAUNCH_RES_BUSY : Fld := ⟨0x5018, 0x0, 1, 0, 0⟩
def WHL_SCHED_SLOT_LO_SLOT : Fld := ⟨0x5020, 0x0, 1, 31, 0⟩
def WHL_Ln_SLOT_LO_SLOT : Fld := ⟨0x5100, 0x40, 16, 31, 0⟩
def WHL_SCHED_SLOT_HI_SLOT : Fld := ⟨0x5024, 0x0, 1, 23, 0⟩
def WHL_Ln_SLOT_HI_SLOT : Fld := ⟨0x5104, 0x40, 16, 23, 0⟩
def WHL_SCHED_CFG_HANKS : Fld := ⟨0x5028, 0x0, 1, 31, 16⟩
def WHL_Ln_CFG_HANKS : Fld := ⟨0x5108, 0x40, 16, 31, 16⟩
def WHL_SCHED_CFG_XLINK : Fld := ⟨0x5028, 0x0, 1, 3, 3⟩
def WHL_Ln_CFG_XLINK : Fld := ⟨0x5108, 0x40, 16, 3, 3⟩
def WHL_SCHED_CFG_RING : Fld := ⟨0x5028, 0x0, 1, 2, 2⟩
def WHL_Ln_CFG_RING : Fld := ⟨0x5108, 0x40, 16, 2, 2⟩
def WHL_SCHED_CFG_STRAND : Fld := ⟨0x5028, 0x0, 1, 1, 1⟩
def WHL_Ln_CFG_STRAND : Fld := ⟨0x5108, 0x40, 16, 1, 1⟩
def WHL_SCHED_CFG_BOBBINS : Fld := ⟨0x5028, 0x0, 1, 0, 0⟩
def WHL_Ln_CFG_BOBBINS : Fld := ⟨0x5108, 0x40, 16, 0, 0⟩
def WHL_SCHED_ARG_STRAND_IN : Fld := ⟨0x502C, 0x0, 1, 23, 12⟩
def WHL_Ln_ARG_STRAND_IN : Fld := ⟨0x510C, 0x40, 16, 23, 12⟩
def WHL_SCHED_ARG_STRAND_OUT : Fld := ⟨0x502C, 0x0, 1, 11, 0⟩
def WHL_Ln_ARG_STRAND_OUT : Fld := ⟨0x510C, 0x40, 16, 11, 0⟩
def WHL_SCHED_GRACE_SLOTS : Fld := ⟨0x5030, 0x0, 1, 20, 0⟩
def WHL_Ln_GRACE_SLOTS : Fld := ⟨0x5110, 0x40, 16, 20, 0⟩
def WHL_Ln_NUM_NUM : Fld := ⟨0x5114, 0x40, 16, 31, 0⟩
def WHL_Ln_STATE_RESULT : Fld := ⟨0x5118, 0x40, 16, 31, 24⟩
def WHL_Ln_STATE_FINAL : Fld := ⟨0x5118, 0x40, 16, 19, 19⟩
def WHL_Ln_STATE_STATE : Fld := ⟨0x5118, 0x40, 16, 18, 16⟩
def WHL_Ln_STATE_CANCEL_LEAD : Fld := ⟨0x5118, 0x40, 16, 15, 0⟩
def WHL_Ln_BOUND_COUNT : Fld := ⟨0x511C, 0x40, 16, 20, 0⟩
def WHL_Ln_ARMED_COUNT : Fld := ⟨0x5120, 0x40, 16, 20, 0⟩
def WHL_Ln_DROPPED_COUNT : Fld := ⟨0x5124, 0x40, 16, 20, 0⟩
def WHL_Ln_UNCONFIRMED_COUNT : Fld := ⟨0x5128, 0x40, 16, 20, 0⟩
def WHL_XPKG_CTRL_CH : Fld := ⟨0x5038, 0x0, 1, 6, 4⟩
def WHL_XPKG_CTRL_MODE : Fld := ⟨0x5038, 0x0, 1, 1, 0⟩
def WHL_XPKG_STATUS_AGE : Fld := ⟨0x503C, 0x0, 1, 31, 24⟩
def WHL_XPKG_STATUS_OFFSET : Fld := ⟨0x503C, 0x0, 1, 15, 0⟩
def CRY_CTRL_SELFTEST_EN : Fld := ⟨0xC000, 0x0, 1, 8, 8⟩
def CRY_CTRL_PERIOD_LOG2 : Fld := ⟨0xC000, 0x0, 1, 4, 0⟩
def CRY_LANES0_SHA2 : Fld := ⟨0xC004, 0x0, 1, 27, 24⟩
def CRY_LANES0_AES : Fld := ⟨0xC004, 0x0, 1, 23, 16⟩
def CRY_LANES0_ECC : Fld := ⟨0xC004, 0x0, 1, 15, 8⟩
def CRY_LANES0_LAT : Fld := ⟨0xC004, 0x0, 1, 7, 0⟩
def CRY_LANES1_TLY : Fld := ⟨0xC008, 0x0, 1, 17, 16⟩
def CRY_LANES1_KEC : Fld := ⟨0xC008, 0x0, 1, 15, 0⟩
def CRY_SELFTEST_REQ : Fld := ⟨0xC00C, 0x0, 1, 31, 31⟩
def CRY_SELFTEST_CLASS : Fld := ⟨0xC00C, 0x0, 1, 27, 24⟩
def CRY_SELFTEST_LANE : Fld := ⟨0xC00C, 0x0, 1, 19, 16⟩
def CRY_SELFTEST_LAST : Fld := ⟨0xC00C, 0x0, 1, 15, 8⟩
def CRY_SELFTEST_COUNT : Fld := ⟨0xC00C, 0x0, 1, 7, 0⟩
def CRY_ENT_CAL1 : Fld := ⟨0xC010, 0x0, 1, 17, 17⟩
def CRY_ENT_CAL0 : Fld := ⟨0xC010, 0x0, 1, 16, 16⟩
def CRY_ENT_FAILS1 : Fld := ⟨0xC010, 0x0, 1, 11, 8⟩
def CRY_ENT_FAILS0 : Fld := ⟨0xC010, 0x0, 1, 7, 4⟩
def CRY_ENT_STATE1 : Fld := ⟨0xC010, 0x0, 1, 3, 2⟩
def CRY_ENT_STATE0 : Fld := ⟨0xC010, 0x0, 1, 1, 0⟩
def CRY_DRBG_STATUS_LAST : Fld := ⟨0xC014, 0x0, 1, 31, 24⟩
def CRY_DRBG_STATUS_GEN_SINCE : Fld := ⟨0xC014, 0x0, 1, 23, 8⟩
def CRY_DRBG_STATUS_SINGLE : Fld := ⟨0xC014, 0x0, 1, 2, 2⟩
def CRY_DRBG_STATUS_ERROR : Fld := ⟨0xC014, 0x0, 1, 1, 1⟩
def CRY_DRBG_STATUS_READY : Fld := ⟨0xC014, 0x0, 1, 0, 0⟩
def CRY_DRBG_CFG_RESEED_SLOTS : Fld := ⟨0xC018, 0x0, 1, 31, 16⟩
def CRY_DRBG_CFG_RESEED_REQS : Fld := ⟨0xC018, 0x0, 1, 10, 0⟩
def CRY_CHn_BASE_OFF : Fld := ⟨0xC100, 0x20, 32, 22, 6⟩
def CRY_CHn_CFG_EN : Fld := ⟨0xC104, 0x20, 32, 31, 31⟩
def CRY_CHn_CFG_OWNER : Fld := ⟨0xC104, 0x20, 32, 23, 16⟩
def CRY_CHn_CFG_CAP : Fld := ⟨0xC104, 0x20, 32, 9, 8⟩
def CRY_CHn_CFG_LOG2 : Fld := ⟨0xC104, 0x20, 32, 3, 0⟩
def CRY_CHn_TAIL_IDX : Fld := ⟨0xC108, 0x20, 32, 7, 0⟩
def CRY_CHn_HEAD_IDX : Fld := ⟨0xC10C, 0x20, 32, 7, 0⟩
def CRY_CHn_STATUS_LAST_ERR : Fld := ⟨0xC110, 0x20, 32, 31, 24⟩
def CRY_CHn_STATUS_INFLIGHT : Fld := ⟨0xC110, 0x20, 32, 23, 16⟩
def CRY_CHn_STATUS_IDLE : Fld := ⟨0xC110, 0x20, 32, 0, 0⟩
def CRY_CHn_KEYS_REG : Fld := ⟨0xC114, 0x20, 32, 15, 0⟩
def DGT_CTXn_CTRL_OUT_LEN : Fld := ⟨0xD000, 0x10, 64, 23, 16⟩
def DGT_CTXn_CTRL_ALG : Fld := ⟨0xD000, 0x10, 64, 15, 12⟩
def DGT_CTXn_CTRL_MODE : Fld := ⟨0xD000, 0x10, 64, 11, 11⟩
def DGT_CTXn_CTRL_PAD : Fld := ⟨0xD000, 0x10, 64, 10, 10⟩
def DGT_CTXn_CTRL_CLASS : Fld := ⟨0xD000, 0x10, 64, 9, 8⟩
def DGT_CTXn_CTRL_FEED_SRC : Fld := ⟨0xD000, 0x10, 64, 7, 2⟩
def DGT_CTXn_CTRL_OP : Fld := ⟨0xD000, 0x10, 64, 1, 0⟩
def DGT_CTXn_STATUS_OWNER : Fld := ⟨0xD004, 0x10, 64, 31, 24⟩
def DGT_CTXn_STATUS_LAST : Fld := ⟨0xD004, 0x10, 64, 23, 16⟩
def DGT_CTXn_STATUS_INTRUDED : Fld := ⟨0xD004, 0x10, 64, 15, 15⟩
def DGT_CTXn_STATUS_EARLY : Fld := ⟨0xD004, 0x10, 64, 14, 14⟩
def DGT_CTXn_STATUS_PTR : Fld := ⟨0xD004, 0x10, 64, 11, 8⟩
def DGT_CTXn_STATUS_STATE : Fld := ⟨0xD004, 0x10, 64, 2, 0⟩
def DGT_CTXn_LEN_BYTES : Fld := ⟨0xD008, 0x10, 64, 31, 0⟩
def DGT_CTXn_RESULT_WORD : Fld := ⟨0xD00C, 0x10, 64, 31, 0⟩
def DGT_CTXn_FEED_DATA : Fld := ⟨0xD400, 0x10, 64, 31, 0⟩
def DGT_ACTIVE_LO_CTX : Fld := ⟨0xD800, 0x0, 1, 31, 0⟩
def DGT_ACTIVE_HI_CTX : Fld := ⟨0xD804, 0x0, 1, 31, 0⟩
def DGT_GRANT_LO_CTX : Fld := ⟨0xD808, 0x0, 1, 31, 0⟩
def DGT_GRANT_HI_CTX : Fld := ⟨0xD80C, 0x0, 1, 31, 0⟩
def TLY_CTRL_OWNER : Fld := ⟨0xE000, 0x0, 1, 12, 8⟩
def TLY_CTRL_ACC : Fld := ⟨0xE000, 0x0, 1, 6, 4⟩
def TLY_CTRL_OP : Fld := ⟨0xE000, 0x0, 1, 2, 0⟩
def TLY_STATUS_LAST : Fld := ⟨0xE004, 0x0, 1, 31, 24⟩
def TLY_STATUS_ACC : Fld := ⟨0xE004, 0x0, 1, 6, 4⟩
def TLY_STATUS_BUSY : Fld := ⟨0xE004, 0x0, 1, 0, 0⟩
def TLY_SRC_LO_ADDR : Fld := ⟨0xE008, 0x0, 1, 31, 0⟩
def TLY_SRC_HI_ADDR : Fld := ⟨0xE00C, 0x0, 1, 31, 0⟩
def TLY_SRC_LEN_BYTES : Fld := ⟨0xE010, 0x0, 1, 31, 0⟩
def TLY_ACCn_CFG_VECTOR : Fld := ⟨0xE100, 0x40, 8, 31, 16⟩
def TLY_ACCn_CFG_FMT : Fld := ⟨0xE100, 0x40, 8, 9, 8⟩
def TLY_ACCn_CFG_HANK : Fld := ⟨0xE100, 0x40, 8, 3, 0⟩
def TLY_ACCn_LEN_ELEMS : Fld := ⟨0xE104, 0x40, 8, 15, 0⟩
def TLY_ACCn_STEP_LO_STEP : Fld := ⟨0xE108, 0x40, 8, 31, 0⟩
def TLY_ACCn_STEP_HI_STEP : Fld := ⟨0xE10C, 0x40, 8, 31, 0⟩
def TLY_ACCn_OWNERS_MASK : Fld := ⟨0xE110, 0x40, 8, 31, 0⟩
def TLY_ACCn_RECEIVED_MASK : Fld := ⟨0xE114, 0x40, 8, 31, 0⟩
def TLY_ACCn_OUT_OFF : Fld := ⟨0xE118, 0x40, 8, 19, 3⟩
def TLY_ACCn_STATUS_RESULT : Fld := ⟨0xE11C, 0x40, 8, 31, 24⟩
def TLY_ACCn_STATUS_STATE : Fld := ⟨0xE11C, 0x40, 8, 2, 0⟩
def TLY_ACCn_SAT_COUNT : Fld := ⟨0xE120, 0x40, 8, 31, 0⟩
def TLY_ACCn_NAN_COUNT : Fld := ⟨0xE124, 0x40, 8, 31, 0⟩
def TLY_ACCn_DIGEST_WORD : Fld := ⟨0xE128, 0x40, 8, 31, 0⟩
def DMA_CTRL_STOP_IRQ_EN : Fld := ⟨0xF000, 0x0, 1, 1, 1⟩
def DMA_CTRL_EN : Fld := ⟨0xF000, 0x0, 1, 0, 0⟩
def DMA_STATUS_STOPPED : Fld := ⟨0xF004, 0x0, 1, 31, 31⟩
def DMA_STATUS_MULTI : Fld := ⟨0xF004, 0x0, 1, 30, 30⟩
def DMA_STATUS_FIRST : Fld := ⟨0xF004, 0x0, 1, 12, 8⟩
def DMA_STATUS_ACTIVE : Fld := ⟨0xF004, 0x0, 1, 5, 0⟩
def DMA_FAULT_MASK_CH : Fld := ⟨0xF008, 0x0, 1, 31, 0⟩
def DMA_STOP_MASK_CH : Fld := ⟨0xF00C, 0x0, 1, 31, 0⟩
def DMA_RELEASE_CH : Fld := ⟨0xF010, 0x0, 1, 31, 0⟩
def DMA_LINE_GRANT_LO_LINES : Fld := ⟨0xF014, 0x0, 1, 31, 0⟩
def DMA_LINE_GRANT_HI_LINES : Fld := ⟨0xF018, 0x0, 1, 31, 0⟩
def DMA_SWREQ_LINE : Fld := ⟨0xF01C, 0x0, 1, 15, 0⟩
def DMA_SWREQ_PEND_LO_COUNT : Fld := ⟨0xF020, 0x0, 1, 31, 0⟩
def DMA_SWREQ_PEND_HI_COUNT : Fld := ⟨0xF024, 0x0, 1, 31, 0⟩
def DMA_CHn_BASE_OFF : Fld := ⟨0xF100, 0x40, 32, 22, 6⟩
def DMA_CHn_CFG_EN : Fld := ⟨0xF104, 0x40, 32, 31, 31⟩
def DMA_CHn_CFG_OWNER : Fld := ⟨0xF104, 0x40, 32, 23, 16⟩
def DMA_CHn_CFG_CAP : Fld := ⟨0xF104, 0x40, 32, 9, 8⟩
def DMA_CHn_CFG_LOG2 : Fld := ⟨0xF104, 0x40, 32, 3, 0⟩
def DMA_CHn_TAIL_IDX : Fld := ⟨0xF108, 0x40, 32, 9, 0⟩
def DMA_CHn_HEAD_IDX : Fld := ⟨0xF10C, 0x40, 32, 9, 0⟩
def DMA_CHn_CTRL_CLEAR : Fld := ⟨0xF110, 0x40, 32, 3, 3⟩
def DMA_CHn_CTRL_ABORT : Fld := ⟨0xF110, 0x40, 32, 2, 2⟩
def DMA_CHn_CTRL_PAUSE : Fld := ⟨0xF110, 0x40, 32, 1, 1⟩
def DMA_CHn_STATUS_LAST_ERR : Fld := ⟨0xF114, 0x40, 32, 31, 24⟩
def DMA_CHn_STATUS_STAGED : Fld := ⟨0xF114, 0x40, 32, 23, 15⟩
def DMA_CHn_STATUS_STATE : Fld := ⟨0xF114, 0x40, 32, 2, 0⟩
def DMA_CHn_CUR_SRC_LO_ADDR : Fld := ⟨0xF118, 0x40, 32, 31, 0⟩
def DMA_CHn_CUR_SRC_HI_ADDR : Fld := ⟨0xF11C, 0x40, 32, 31, 0⟩
def DMA_CHn_CUR_DST_LO_ADDR : Fld := ⟨0xF120, 0x40, 32, 31, 0⟩
def DMA_CHn_CUR_DST_HI_ADDR : Fld := ⟨0xF124, 0x40, 32, 31, 0⟩
def DMA_CHn_REMAIN_COUNT : Fld := ⟨0xF128, 0x40, 32, 31, 0⟩
def DMA_CHn_ENTRY_POS : Fld := ⟨0xF12C, 0x40, 32, 21, 0⟩
def DMA_CHn_ELEM_OFF_BYTES : Fld := ⟨0xF130, 0x40, 32, 11, 0⟩
def DMA_CHn_FAULT_ADDR_LO_ADDR : Fld := ⟨0xF134, 0x40, 32, 31, 0⟩
def DMA_CHn_FAULT_ADDR_HI_ADDR : Fld := ⟨0xF138, 0x40, 32, 31, 0⟩
def DMA_CHn_FAULT_STATUS : Fld := ⟨0xF13C, 0x40, 32, 31, 24⟩
def DMA_CHn_FAULT_CAUSE : Fld := ⟨0xF13C, 0x40, 32, 23, 16⟩
def DMA_CHn_FAULT_DESC : Fld := ⟨0xF13C, 0x40, 32, 15, 6⟩
def DMA_CHn_FAULT_LATE : Fld := ⟨0xF13C, 0x40, 32, 2, 2⟩
def DMA_CHn_FAULT_INDEX : Fld := ⟨0xF13C, 0x40, 32, 1, 1⟩
def DMA_CHn_FAULT_DIR : Fld := ⟨0xF13C, 0x40, 32, 0, 0⟩
def DGT_TW_CTRL_EN : Fld := ⟨0xDBC0, 0x0, 1, 0, 0⟩
def DGT_TW_STATUS_INTAKE : Fld := ⟨0xDBC4, 0x0, 1, 28, 16⟩
def DGT_TW_STATUS_RECIPE_USED : Fld := ⟨0xDBC4, 0x0, 1, 14, 0⟩
def DGT_TW_DUP_COUNT : Fld := ⟨0xDBC8, 0x0, 1, 31, 0⟩
def DGT_TWn_CTRL_SEAL : Fld := ⟨0xDC00, 0x40, 16, 1, 1⟩
def DGT_TWn_CTRL_OPEN : Fld := ⟨0xDC00, 0x40, 16, 0, 0⟩
def DGT_TWn_STATUS_DEPART_CODE : Fld := ⟨0xDC04, 0x40, 16, 31, 24⟩
def DGT_TWn_STATUS_DEPART_DIE : Fld := ⟨0xDC04, 0x40, 16, 23, 16⟩
def DGT_TWn_STATUS_PENDING : Fld := ⟨0xDC04, 0x40, 16, 10, 6⟩
def DGT_TWn_STATUS_STATE : Fld := ⟨0xDC04, 0x40, 16, 2, 0⟩
def DGT_TWn_SEGMENT_NUM : Fld := ⟨0xDC08, 0x40, 16, 31, 0⟩
def DGT_TWn_RECORDS_COUNT : Fld := ⟨0xDC0C, 0x40, 16, 21, 0⟩
def DGT_TWn_STEP_LO_STEP : Fld := ⟨0xDC10, 0x40, 16, 31, 0⟩
def DGT_TWn_STEP_HI_STEP : Fld := ⟨0xDC14, 0x40, 16, 31, 0⟩
def DGT_TWn_LOG_LO_ADDR : Fld := ⟨0xDC18, 0x40, 16, 31, 0⟩
def DGT_TWn_LOG_HI_ADDR : Fld := ⟨0xDC1C, 0x40, 16, 31, 0⟩
def DGT_TWn_LOG_LEN_GRANULES : Fld := ⟨0xDC20, 0x40, 16, 8, 0⟩
def DGT_TWn_PROG_COUNT : Fld := ⟨0xDC24, 0x40, 16, 29, 16⟩
def DGT_TWn_PROG_BASE : Fld := ⟨0xDC24, 0x40, 16, 13, 0⟩
def DGT_TWn_HEAD_WORD : Fld := ⟨0xDC28, 0x40, 16, 31, 0⟩
def DGT_TWn_COUNTS_GAPS : Fld := ⟨0xDC2C, 0x40, 16, 31, 16⟩
def DGT_TWn_COUNTS_VOIDS : Fld := ⟨0xDC2C, 0x40, 16, 15, 0⟩
def PLY_CTRL_SLEEP_HS : Fld := ⟨0x7000, 0x0, 1, 4, 4⟩
def PLY_CTRL_START_EMPTY : Fld := ⟨0x7000, 0x0, 1, 3, 3⟩
def PLY_CTRL_HANDOVER : Fld := ⟨0x7000, 0x0, 1, 2, 2⟩
def PLY_CTRL_RETRAIN : Fld := ⟨0x7000, 0x0, 1, 1, 1⟩
def PLY_CTRL_LINK_EN : Fld := ⟨0x7000, 0x0, 1, 0, 0⟩
def PLY_STATUS_LAST : Fld := ⟨0x7004, 0x0, 1, 31, 24⟩
def PLY_STATUS_QUORUM : Fld := ⟨0x7004, 0x0, 1, 23, 16⟩
def PLY_STATUS_PARTNER : Fld := ⟨0x7004, 0x0, 1, 15, 12⟩
def PLY_STATUS_SOLO : Fld := ⟨0x7004, 0x0, 1, 11, 11⟩
def PLY_STATUS_LEASE : Fld := ⟨0x7004, 0x0, 1, 10, 10⟩
def PLY_STATUS_AUTH : Fld := ⟨0x7004, 0x0, 1, 9, 9⟩
def PLY_STATUS_LINK_UP : Fld := ⟨0x7004, 0x0, 1, 8, 8⟩
def PLY_STATUS_ROLE : Fld := ⟨0x7004, 0x0, 1, 2, 0⟩
def PLY_CFG_PAIR_WAIT : Fld := ⟨0x7008, 0x0, 1, 15, 0⟩
def PLY_LEASE_NUM : Fld := ⟨0x700C, 0x0, 1, 31, 0⟩
def PLY_EXPIRY_SLOT : Fld := ⟨0x7010, 0x0, 1, 31, 0⟩
def PLY_GRANTS_LO_DIES : Fld := ⟨0x7014, 0x0, 1, 31, 0⟩
def PLY_GRANTS_HI_DIES : Fld := ⟨0x7018, 0x0, 1, 31, 0⟩
def PLY_MSEQ_LO_SEQ : Fld := ⟨0x7020, 0x0, 1, 31, 0⟩
def PLY_MSEQ_HI_SEQ : Fld := ⟨0x7024, 0x0, 1, 31, 0⟩
def PLY_MACK_LO_SEQ : Fld := ⟨0x7028, 0x0, 1, 31, 0⟩
def PLY_MACK_HI_SEQ : Fld := ⟨0x702C, 0x0, 1, 31, 0⟩
def PLY_RESYNC_PATH : Fld := ⟨0x7030, 0x0, 1, 31, 31⟩
def PLY_RESYNC_PHASE : Fld := ⟨0x7030, 0x0, 1, 30, 28⟩
def PLY_RESYNC_RECORDS : Fld := ⟨0x7030, 0x0, 1, 27, 0⟩
def PLY_PROMO_LO_TIME : Fld := ⟨0x7034, 0x0, 1, 31, 0⟩
def PLY_PROMO_HI_TIME : Fld := ⟨0x7038, 0x0, 1, 31, 0⟩
def PLY_LINK_RESENT : Fld := ⟨0x703C, 0x0, 1, 31, 16⟩
def PLY_LINK_BAD : Fld := ⟨0x703C, 0x0, 1, 15, 0⟩
def SNG_CTRL_BASE_LOCK : Fld := ⟨0x4000, 0x0, 1, 3, 3⟩
def SNG_CTRL_QUENCH_EN : Fld := ⟨0x4000, 0x0, 1, 2, 2⟩
def SNG_CTRL_FORCE_CAL : Fld := ⟨0x4000, 0x0, 1, 1, 1⟩
def SNG_CTRL_LOG_EN : Fld := ⟨0x4000, 0x0, 1, 0, 0⟩
def SNG_STATUS_TEMP1 : Fld := ⟨0x4004, 0x0, 1, 11, 10⟩
def SNG_STATUS_TEMP0 : Fld := ⟨0x4004, 0x0, 1, 9, 8⟩
def SNG_STATUS_UNTRIMMED : Fld := ⟨0x4004, 0x0, 1, 7, 7⟩
def SNG_STATUS_RAIL_FAULT : Fld := ⟨0x4004, 0x0, 1, 6, 6⟩
def SNG_STATUS_OUT_LOW : Fld := ⟨0x4004, 0x0, 1, 5, 5⟩
def SNG_STATUS_QUENCH_REQ : Fld := ⟨0x4004, 0x0, 1, 4, 4⟩
def SNG_STATUS_HELD_B : Fld := ⟨0x4004, 0x0, 1, 3, 3⟩
def SNG_STATUS_ARMED : Fld := ⟨0x4004, 0x0, 1, 2, 2⟩
def SNG_STATUS_CAL_BUSY : Fld := ⟨0x4004, 0x0, 1, 1, 1⟩
def SNG_CAUSE_BITS : Fld := ⟨0x4008, 0x0, 1, 21, 0⟩
def SNG_LAST_CAUSE : Fld := ⟨0x400C, 0x0, 1, 31, 24⟩
def SNG_LAST_FLAGS : Fld := ⟨0x400C, 0x0, 1, 23, 16⟩
def SNG_LAST_CLASS : Fld := ⟨0x400C, 0x0, 1, 15, 12⟩
def SNG_LAST_SEQ : Fld := ⟨0x400C, 0x0, 1, 11, 8⟩
def SNG_LAST_PHASE : Fld := ⟨0x400C, 0x0, 1, 7, 0⟩
def SNG_TEMP_TEMP1 : Fld := ⟨0x4010, 0x0, 1, 31, 16⟩
def SNG_TEMP_TEMP0 : Fld := ⟨0x4010, 0x0, 1, 15, 0⟩
def SNG_MESH_DELAY : Fld := ⟨0x4014, 0x0, 1, 31, 0⟩
def SNG_SINCE_A : Fld := ⟨0x4018, 0x0, 1, 31, 24⟩
def SNG_SINCE_B : Fld := ⟨0x4018, 0x0, 1, 23, 16⟩
def SNG_SINCE_C : Fld := ⟨0x4018, 0x0, 1, 15, 0⟩
def SNG_BASE_x_TOTAL : Fld := ⟨0x401C, 0x4, 3, 31, 0⟩
def SNG_LOG_RESULT : Fld := ⟨0x4028, 0x0, 1, 31, 24⟩
def SNG_LOG_NEXT : Fld := ⟨0x4028, 0x0, 1, 10, 0⟩
def DBG_CTRL_WATCH : Fld := ⟨0x10000, 0x0, 1, 31, 16⟩
def DBG_CTRL_CNT_ROV : Fld := ⟨0x10000, 0x0, 1, 2, 2⟩
def DBG_CTRL_TRACE_ROV : Fld := ⟨0x10000, 0x0, 1, 1, 1⟩
def DBG_CTRL_BREAK_ROV : Fld := ⟨0x10000, 0x0, 1, 0, 0⟩
def DBG_STATUS_TRACE_GRANTED : Fld := ⟨0x10004, 0x0, 1, 12, 8⟩
def DBG_STATUS_SPN_DBG : Fld := ⟨0x10004, 0x0, 1, 2, 2⟩
def DBG_STATUS_SPN_HALTED : Fld := ⟨0x10004, 0x0, 1, 1, 1⟩
def DBG_STATUS_JTAG_EXT : Fld := ⟨0x10004, 0x0, 1, 0, 0⟩
def DBG_CNT_CFG_EN : Fld := ⟨0x10008, 0x0, 1, 8, 8⟩
def DBG_CNT_CFG_K : Fld := ⟨0x10008, 0x0, 1, 4, 0⟩
def DBG_SPN_TRACE_DATA : Fld := ⟨0x1000C, 0x0, 1, 31, 0⟩
def DBG_NOIL_CTRL_UNFREEZE : Fld := ⟨0x10010, 0x0, 1, 1, 1⟩
def DBG_NOIL_CTRL_FREEZE : Fld := ⟨0x10010, 0x0, 1, 0, 0⟩
def DBG_NOIL_STATUS_CAUSE : Fld := ⟨0x10014, 0x0, 1, 3, 1⟩
def DBG_NOIL_STATUS_FROZEN : Fld := ⟨0x10014, 0x0, 1, 0, 0⟩
def DBG_NOIL_SEL_UNIT : Fld := ⟨0x10018, 0x0, 1, 15, 8⟩
def DBG_NOIL_SEL_ENTRY : Fld := ⟨0x10018, 0x0, 1, 7, 0⟩
def DBG_NOIL_DATA_WORD : Fld := ⟨0x1001C, 0x0, 1, 31, 0⟩
def DBG_COREc_CTRL_STEP : Fld := ⟨0x10100, 0x20, 6, 2, 2⟩
def DBG_COREc_CTRL_RESUME : Fld := ⟨0x10100, 0x20, 6, 1, 1⟩
def DBG_COREc_CTRL_HALT : Fld := ⟨0x10100, 0x20, 6, 0, 0⟩
def DBG_COREc_STATUS_LAST : Fld := ⟨0x10104, 0x20, 6, 31, 24⟩
def DBG_COREc_STATUS_BP : Fld := ⟨0x10104, 0x20, 6, 5, 4⟩
def DBG_COREc_STATUS_DRAINED : Fld := ⟨0x10104, 0x20, 6, 3, 3⟩
def DBG_COREc_STATUS_STATE : Fld := ⟨0x10104, 0x20, 6, 2, 0⟩
def DBG_COREc_BP0_ADDR : Fld := ⟨0x10108, 0x20, 6, 31, 2⟩
def DBG_COREc_BP1_ADDR : Fld := ⟨0x1010C, 0x20, 6, 31, 2⟩
def DBG_COREc_BP2_ADDR : Fld := ⟨0x10110, 0x20, 6, 31, 2⟩
def DBG_COREc_BP3_ADDR : Fld := ⟨0x10114, 0x20, 6, 31, 2⟩
def DBG_COREc_BP0_ACTION : Fld := ⟨0x10108, 0x20, 6, 1, 1⟩
def DBG_COREc_BP1_ACTION : Fld := ⟨0x1010C, 0x20, 6, 1, 1⟩
def DBG_COREc_BP2_ACTION : Fld := ⟨0x10110, 0x20, 6, 1, 1⟩
def DBG_COREc_BP3_ACTION : Fld := ⟨0x10114, 0x20, 6, 1, 1⟩
def DBG_COREc_BP0_EN : Fld := ⟨0x10108, 0x20, 6, 0, 0⟩
def DBG_COREc_BP1_EN : Fld := ⟨0x1010C, 0x20, 6, 0, 0⟩
def DBG_COREc_BP2_EN : Fld := ⟨0x10110, 0x20, 6, 0, 0⟩
def DBG_COREc_BP3_EN : Fld := ⟨0x10114, 0x20, 6, 0, 0⟩
def DBG_TRt_CTRL_EN : Fld := ⟨0x10400, 0x10, 17, 31, 31⟩
def DBG_TRt_CTRL_ARM : Fld := ⟨0x10400, 0x10, 17, 30, 30⟩
def DBG_TRt_CTRL_FLUSH : Fld := ⟨0x10400, 0x10, 17, 29, 29⟩
def DBG_TRt_CTRL_SW_TRIG : Fld := ⟨0x10400, 0x10, 17, 28, 28⟩
def DBG_TRt_CTRL_TRIG_CLASS : Fld := ⟨0x10400, 0x10, 17, 19, 17⟩
def DBG_TRt_CTRL_MODE : Fld := ⟨0x10400, 0x10, 17, 16, 16⟩
def DBG_TRt_CTRL_POST : Fld := ⟨0x10400, 0x10, 17, 6, 0⟩
def DBG_TRt_STATUS_OCC : Fld := ⟨0x10404, 0x10, 17, 25, 16⟩
def DBG_TRt_STATUS_GRANTED : Fld := ⟨0x10404, 0x10, 17, 3, 3⟩
def DBG_TRt_STATUS_STATE : Fld := ⟨0x10404, 0x10, 17, 2, 0⟩
def DBG_TRt_LOST_COUNT : Fld := ⟨0x10408, 0x10, 17, 31, 0⟩
def DBG_SMPg_LOST_COUNT : Fld := ⟨0x10800, 0x10, 8, 31, 0⟩
def DBG_CNTi_CFG_RESET_SEL : Fld := ⟨0x11000, 0x10, 64, 31, 28⟩
def DBG_CNTi_CFG_CH : Fld := ⟨0x11000, 0x10, 64, 27, 23⟩
def DBG_CNTi_CFG_HANK : Fld := ⟨0x11000, 0x10, 64, 22, 19⟩
def DBG_CNTi_CFG_HANK_EN : Fld := ⟨0x11000, 0x10, 64, 18, 18⟩
def DBG_CNTi_CFG_CODE : Fld := ⟨0x11000, 0x10, 64, 15, 0⟩
def DBG_CNTi_LO_VALUE : Fld := ⟨0x11004, 0x10, 64, 31, 0⟩
def DBG_CNTi_HI_VALUE : Fld := ⟨0x11008, 0x10, 64, 23, 0⟩
def GEN_EVT_LEVEL_LOST : Fld := ⟨0x30, 0x0, 1, 31, 16⟩
def GEN_EVT_LEVEL_COUNT : Fld := ⟨0x30, 0x0, 1, 12, 0⟩
def GEN_EVT_DATA_WORD : Fld := ⟨0x34, 0x0, 1, 31, 0⟩
def GEN_AEV_LEVEL_LOST : Fld := ⟨0x38, 0x0, 1, 31, 16⟩
def GEN_AEV_LEVEL_COUNT : Fld := ⟨0x38, 0x0, 1, 6, 0⟩
def GEN_AEV_DATA_WORD : Fld := ⟨0x3C, 0x0, 1, 31, 0⟩
def MBS_DATAn_DATA : Fld := ⟨0x8000, 0x80, 16, 31, 0⟩
def MBN_DATAn_DATA : Fld := ⟨0x9000, 0x80, 16, 31, 0⟩

end F

/-- The GEN registers and the access codes of their fields. -/
def regsGen : List RegRow :=
  [ ⟨0x0, 0x0, 1, [⟨31, 20, .ro⟩, ⟨19, 16, .ro⟩, ⟨15, 12, .ro⟩, ⟨11, 10, .ro⟩, ⟨9, 9, .ro⟩]⟩,
    ⟨0x4, 0x0, 1, [⟨15, 12, .ro⟩, ⟨3, 3, .ro⟩, ⟨2, 2, .ro⟩, ⟨1, 1, .ro⟩, ⟨0, 0, .ro⟩]⟩,
    ⟨0x8, 0x0, 1, [⟨6, 6, .w1c⟩, ⟨5, 5, .w1c⟩, ⟨4, 4, .w1c⟩, ⟨3, 3, .w1c⟩, ⟨2, 2, .w1c⟩, ⟨1, 1, .ro⟩, ⟨0, 0, .ro⟩]⟩,
    ⟨0xC, 0x0, 1, [⟨6, 0, .rw⟩]⟩,
    ⟨0x10, 0x0, 1, [⟨31, 24, .ro⟩, ⟨23, 16, .ro⟩, ⟨11, 11, .ro⟩, ⟨10, 10, .ro⟩, ⟨9, 9, .ro⟩, ⟨8, 8, .ro⟩, ⟨7, 0, .ro⟩]⟩,
    ⟨0x14, 0x0, 1, [⟨31, 0, .ro⟩]⟩,
    ⟨0x18, 0x0, 1, [⟨7, 0, .ro⟩]⟩,
    ⟨0x20, 0x0, 1, [⟨31, 0, .ro⟩]⟩,
    ⟨0x24, 0x0, 1, [⟨31, 0, .ro⟩]⟩,
    ⟨0x28, 0x0, 1, []⟩,
    ⟨0x30, 0x0, 1, [⟨31, 16, .ro⟩, ⟨12, 0, .ro⟩]⟩,
    ⟨0x34, 0x0, 1, [⟨31, 0, .rs⟩]⟩,
    ⟨0x38, 0x0, 1, [⟨31, 16, .ro⟩, ⟨6, 0, .ro⟩]⟩,
    ⟨0x3C, 0x0, 1, [⟨31, 0, .rs⟩]⟩,
    ⟨0x100, 0x4, 64, [⟨31, 31, .wo⟩, ⟨30, 24, .ro⟩, ⟨23, 16, .ro⟩, ⟨3, 0, .ro⟩]⟩ ]

/-- The PWR registers and the access codes of their fields. -/
def regsPwr : List RegRow :=
  [ ⟨0x1000, 0x0, 1, [⟨3, 3, .w1s⟩, ⟨2, 2, .wo⟩, ⟨1, 1, .rw⟩, ⟨0, 0, .rw⟩]⟩,
    ⟨0x1004, 0x0, 1, [⟨31, 24, .ro⟩, ⟨23, 20, .ro⟩, ⟨8, 8, .ro⟩, ⟨7, 7, .ro⟩, ⟨6, 6, .ro⟩, ⟨5, 5, .ro⟩, ⟨4, 4, .ro⟩, ⟨3, 3, .ro⟩, ⟨2, 2, .ro⟩]⟩,
    ⟨0x1008, 0x0, 1, [⟨13, 9, .rw⟩, ⟨5, 1, .rw⟩]⟩,
    ⟨0x100C, 0x0, 1, [⟨11, 0, .ro⟩]⟩,
    ⟨0x1010, 0x0, 1, [⟨31, 16, .rw⟩, ⟨15, 0, .rw⟩]⟩,
    ⟨0x1014, 0x0, 1, [⟨3, 0, .rw⟩]⟩,
    ⟨0x1018, 0x0, 1, [⟨5, 5, .w1c⟩, ⟨4, 4, .w1c⟩, ⟨3, 0, .w1c⟩]⟩,
    ⟨0x1020, 0x0, 1, [⟨31, 0, .rw⟩]⟩,
    ⟨0x1024, 0x0, 1, [⟨31, 0, .rw⟩]⟩,
    ⟨0x1028, 0x0, 1, [⟨15, 0, .ro⟩]⟩ ]

/-- The OTP registers and the access codes of their fields. -/
def regsOtp : List RegRow :=
  [ ⟨0x2000, 0x0, 1, [⟨31, 24, .ro⟩, ⟨23, 16, .ro⟩, ⟨5, 5, .ro⟩, ⟨4, 4, .ro⟩, ⟨3, 3, .ro⟩, ⟨2, 2, .ro⟩, ⟨1, 1, .w1c⟩, ⟨0, 0, .ro⟩]⟩,
    ⟨0x2004, 0x0, 1, [⟨31, 16, .wo⟩, ⟨15, 8, .wo⟩, ⟨7, 0, .wo⟩]⟩,
    ⟨0x2008, 0x0, 1, [⟨11, 0, .rw⟩]⟩,
    ⟨0x200C, 0x0, 1, [⟨31, 0, .rw⟩]⟩,
    ⟨0x2010, 0x0, 1, [⟨31, 0, .ro⟩]⟩,
    ⟨0x2014, 0x0, 1, [⟨15, 8, .ro⟩, ⟨5, 5, .ro⟩, ⟨4, 4, .ro⟩, ⟨3, 3, .ro⟩, ⟨2, 2, .ro⟩, ⟨1, 1, .ro⟩, ⟨0, 0, .ro⟩]⟩,
    ⟨0x2018, 0x0, 1, [⟨3, 0, .ro⟩, ⟨7, 4, .ro⟩, ⟨11, 8, .ro⟩, ⟨15, 12, .ro⟩, ⟨19, 16, .ro⟩, ⟨23, 20, .ro⟩, ⟨27, 24, .ro⟩, ⟨31, 28, .ro⟩]⟩,
    ⟨0x201C, 0x0, 1, [⟨31, 24, .ro⟩, ⟨23, 16, .ro⟩, ⟨15, 8, .ro⟩, ⟨7, 0, .ro⟩]⟩,
    ⟨0x2020, 0x0, 1, [⟨16, 16, .wo⟩, ⟨8, 8, .rw⟩, ⟨7, 0, .rw⟩]⟩,
    ⟨0x2024, 0x0, 1, [⟨31, 16, .ro⟩, ⟨15, 8, .ro⟩, ⟨0, 0, .ro⟩]⟩,
    ⟨0x2030, 0x4, 4, [⟨31, 31, .ro⟩, ⟨8, 0, .ro⟩]⟩ ]

/-- The LCS registers and the access codes of their fields. -/
def regsLcs : List RegRow :=
  [ ⟨0x3000, 0x0, 1, [⟨19, 19, .ro⟩, ⟨18, 18, .ro⟩, ⟨13, 8, .ro⟩, ⟨7, 4, .ro⟩, ⟨3, 0, .ro⟩]⟩,
    ⟨0x3004, 0x0, 1, [⟨31, 16, .wo⟩, ⟨9, 9, .wo⟩, ⟨8, 8, .wo⟩, ⟨3, 0, .wo⟩]⟩,
    ⟨0x3008, 0x0, 1, [⟨15, 12, .ro⟩, ⟨9, 9, .w1c⟩, ⟨8, 8, .ro⟩, ⟨7, 0, .ro⟩]⟩,
    ⟨0x300C, 0x0, 1, [⟨7, 4, .ro⟩, ⟨3, 0, .ro⟩]⟩,
    ⟨0x3030, 0x0, 1, [⟨31, 0, .ro⟩]⟩,
    ⟨0x3034, 0x0, 1, [⟨31, 0, .ro⟩]⟩,
    ⟨0x3010, 0x4, 8, [⟨31, 0, .wo⟩]⟩ ]

/-- The SNG registers and the access codes of their fields. -/
def regsSng : List RegRow :=
  [ ⟨0x4000, 0x0, 1, [⟨3, 3, .w1s⟩, ⟨2, 2, .rw⟩, ⟨1, 1, .wo⟩, ⟨0, 0, .rw⟩]⟩,
    ⟨0x4004, 0x0, 1, [⟨11, 10, .ro⟩, ⟨9, 8, .ro⟩, ⟨7, 7, .ro⟩, ⟨6, 6, .ro⟩, ⟨5, 5, .ro⟩, ⟨4, 4, .ro⟩, ⟨3, 3, .ro⟩, ⟨2, 2, .ro⟩, ⟨1, 1, .ro⟩]⟩,
    ⟨0x4008, 0x0, 1, [⟨21, 0, .w1c⟩]⟩,
    ⟨0x400C, 0x0, 1, [⟨31, 24, .ro⟩, ⟨23, 16, .ro⟩, ⟨15, 12, .ro⟩, ⟨11, 8, .ro⟩, ⟨7, 0, .ro⟩]⟩,
    ⟨0x4010, 0x0, 1, [⟨31, 16, .ro⟩, ⟨15, 0, .ro⟩]⟩,
    ⟨0x4014, 0x0, 1, [⟨31, 0, .ro⟩]⟩,
    ⟨0x4018, 0x0, 1, [⟨31, 24, .ro⟩, ⟨23, 16, .ro⟩, ⟨15, 0, .ro⟩]⟩,
    ⟨0x4028, 0x0, 1, [⟨31, 24, .ro⟩, ⟨10, 0, .rw⟩]⟩,
    ⟨0x401C, 0x4, 3, [⟨31, 0, .rwl⟩]⟩ ]

/-- The WHL registers and the access codes of their fields. -/
def regsWhl : List RegRow :=
  [ ⟨0x5000, 0x0, 1, [⟨1, 1, .rw⟩, ⟨0, 0, .rw⟩]⟩,
    ⟨0x5004, 0x0, 1, [⟨23, 16, .ro⟩, ⟨15, 8, .ro⟩, ⟨3, 3, .ro⟩, ⟨2, 2, .ro⟩, ⟨1, 0, .ro⟩]⟩,
    ⟨0x5008, 0x0, 1, [⟨31, 0, .rs⟩]⟩,
    ⟨0x500C, 0x0, 1, [⟨31, 0, .ro⟩]⟩,
    ⟨0x5010, 0x0, 1, [⟨20, 0, .rwl⟩]⟩,
    ⟨0x5014, 0x0, 1, [⟨11, 8, .wo⟩, ⟨1, 0, .wo⟩]⟩,
    ⟨0x5018, 0x0, 1, [⟨31, 24, .ro⟩, ⟨19, 16, .ro⟩, ⟨0, 0, .ro⟩]⟩,
    ⟨0x5020, 0x0, 1, [⟨31, 0, .rw⟩]⟩,
    ⟨0x5024, 0x0, 1, [⟨23, 0, .rw⟩]⟩,
    ⟨0x5028, 0x0, 1, [⟨31, 16, .rw⟩, ⟨3, 3, .rw⟩, ⟨2, 2, .rw⟩, ⟨1, 1, .rw⟩, ⟨0, 0, .rw⟩]⟩,
    ⟨0x502C, 0x0, 1, [⟨23, 12, .rw⟩, ⟨11, 0, .rw⟩]⟩,
    ⟨0x5030, 0x0, 1, [⟨20, 0, .rw⟩]⟩,
    ⟨0x5034, 0x0, 1, [⟨31, 16, .ro⟩, ⟨15, 8, .ro⟩, ⟨7, 0, .ro⟩]⟩,
    ⟨0x5038, 0x0, 1, [⟨6, 4, .rw⟩, ⟨1, 0, .rw⟩]⟩,
    ⟨0x503C, 0x0, 1, [⟨31, 24, .ro⟩, ⟨15, 0, .ro⟩]⟩,
    ⟨0x5100, 0x40, 16, [⟨31, 0, .ro⟩]⟩,
    ⟨0x5104, 0x40, 16, [⟨23, 0, .ro⟩]⟩,
    ⟨0x5108, 0x40, 16, [⟨31, 16, .ro⟩, ⟨3, 3, .ro⟩, ⟨2, 2, .ro⟩, ⟨1, 1, .ro⟩, ⟨0, 0, .ro⟩]⟩,
    ⟨0x510C, 0x40, 16, [⟨23, 12, .ro⟩, ⟨11, 0, .ro⟩]⟩,
    ⟨0x5110, 0x40, 16, [⟨20, 0, .ro⟩]⟩,
    ⟨0x5114, 0x40, 16, [⟨31, 0, .ro⟩]⟩,
    ⟨0x5118, 0x40, 16, [⟨31, 24, .ro⟩, ⟨19, 19, .ro⟩, ⟨18, 16, .ro⟩, ⟨15, 0, .ro⟩]⟩,
    ⟨0x511C, 0x40, 16, [⟨20, 0, .ro⟩]⟩,
    ⟨0x5120, 0x40, 16, [⟨20, 0, .ro⟩]⟩,
    ⟨0x5124, 0x40, 16, [⟨20, 0, .ro⟩]⟩,
    ⟨0x5128, 0x40, 16, [⟨20, 0, .ro⟩]⟩ ]

/-- The SKN registers and the access codes of their fields. -/
def regsSkn : List RegRow :=
  [ ⟨0x6000, 0x0, 1, [⟨3, 3, .w1s⟩, ⟨2, 2, .w1c⟩, ⟨1, 1, .wo⟩, ⟨0, 0, .rw⟩]⟩,
    ⟨0x6004, 0x0, 1, [⟨31, 24, .ro⟩, ⟨23, 16, .ro⟩, ⟨10, 10, .ro⟩, ⟨9, 9, .ro⟩, ⟨8, 8, .ro⟩, ⟨7, 0, .ro⟩]⟩,
    ⟨0x6010, 0x0, 1, [⟨31, 0, .ro⟩]⟩,
    ⟨0x6014, 0x0, 1, [⟨31, 0, .ro⟩]⟩,
    ⟨0x6018, 0x0, 1, [⟨1, 0, .ro⟩]⟩,
    ⟨0x6020, 0x0, 1, [⟨31, 0, .rw⟩]⟩,
    ⟨0x6024, 0x0, 1, [⟨31, 0, .rw⟩]⟩,
    ⟨0x6028, 0x0, 1, [⟨1, 0, .rw⟩]⟩,
    ⟨0x6030, 0x0, 1, [⟨11, 8, .rwl⟩, ⟨7, 0, .rwl⟩]⟩,
    ⟨0x6034, 0x0, 1, [⟨26, 16, .rwl⟩, ⟨10, 0, .rwl⟩]⟩,
    ⟨0x6038, 0x0, 1, [⟨31, 16, .w1c⟩, ⟨15, 0, .ro⟩]⟩ ]

/-- The PLY registers and the access codes of their fields. -/
def regsPly : List RegRow :=
  [ ⟨0x7000, 0x0, 1, [⟨4, 4, .wo⟩, ⟨3, 3, .wo⟩, ⟨2, 2, .wo⟩, ⟨1, 1, .wo⟩, ⟨0, 0, .rw⟩]⟩,
    ⟨0x7004, 0x0, 1, [⟨31, 24, .ro⟩, ⟨23, 16, .ro⟩, ⟨15, 12, .ro⟩, ⟨11, 11, .ro⟩, ⟨10, 10, .ro⟩, ⟨9, 9, .ro⟩, ⟨8, 8, .ro⟩, ⟨2, 0, .ro⟩]⟩,
    ⟨0x7008, 0x0, 1, [⟨15, 0, .rw⟩]⟩,
    ⟨0x700C, 0x0, 1, [⟨31, 0, .ro⟩]⟩,
    ⟨0x7010, 0x0, 1, [⟨31, 0, .ro⟩]⟩,
    ⟨0x7014, 0x0, 1, [⟨31, 0, .ro⟩]⟩,
    ⟨0x7018, 0x0, 1, [⟨31, 0, .ro⟩]⟩,
    ⟨0x7020, 0x0, 1, [⟨31, 0, .ro⟩]⟩,
    ⟨0x7024, 0x0, 1, [⟨31, 0, .ro⟩]⟩,
    ⟨0x7028, 0x0, 1, [⟨31, 0, .ro⟩]⟩,
    ⟨0x702C, 0x0, 1, [⟨31, 0, .ro⟩]⟩,
    ⟨0x7030, 0x0, 1, [⟨31, 31, .ro⟩, ⟨30, 28, .ro⟩, ⟨27, 0, .ro⟩]⟩,
    ⟨0x7034, 0x0, 1, [⟨31, 0, .ro⟩]⟩,
    ⟨0x7038, 0x0, 1, [⟨31, 0, .ro⟩]⟩,
    ⟨0x703C, 0x0, 1, [⟨31, 16, .ro⟩, ⟨15, 0, .ro⟩]⟩ ]

/-- The MBS registers and the access codes of their fields. -/
def regsMbs : List RegRow :=
  [ ⟨0x8000, 0x80, 16, [⟨31, 0, .rw⟩]⟩,
    ⟨0x8040, 0x80, 16, [⟨4, 0, .wo⟩]⟩,
    ⟨0x8044, 0x80, 16, [⟨31, 24, .ro⟩, ⟨23, 16, .ro⟩, ⟨12, 8, .ro⟩, ⟨5, 5, .w1c⟩, ⟨4, 4, .ro⟩, ⟨2, 0, .ro⟩]⟩,
    ⟨0x8048, 0x80, 16, [⟨7, 0, .rs⟩, ⟨1, 1, .wo⟩, ⟨0, 0, .wo⟩]⟩,
    ⟨0x804C, 0x80, 16, [⟨2, 0, .ro⟩]⟩,
    ⟨0x8800, 0x0, 1, [⟨23, 0, .rw⟩]⟩ ] ++
  (List.range 15).map (fun i => RegRow.mk (0x8004 + 4 * i) 0x80 16 [⟨31, 0, .rw⟩])

/-- The MBN registers and the access codes of their fields. -/
def regsMbn : List RegRow :=
  [ ⟨0x9000, 0x80, 16, [⟨31, 0, .rw⟩]⟩,
    ⟨0x9040, 0x80, 16, [⟨4, 0, .wo⟩]⟩,
    ⟨0x9044, 0x80, 16, [⟨31, 24, .ro⟩, ⟨23, 16, .ro⟩, ⟨12, 8, .ro⟩, ⟨5, 5, .w1c⟩, ⟨4, 4, .ro⟩, ⟨2, 0, .ro⟩]⟩,
    ⟨0x9048, 0x80, 16, [⟨7, 0, .rs⟩, ⟨1, 1, .wo⟩, ⟨0, 0, .wo⟩]⟩,
    ⟨0x904C, 0x80, 16, [⟨2, 0, .rw⟩]⟩,
    ⟨0x9800, 0x0, 1, [⟨23, 0, .rw⟩]⟩,
    ⟨0x9804, 0x0, 1, [⟨15, 0, .rw⟩]⟩,
    ⟨0x9808, 0x0, 1, [⟨31, 16, .ro⟩, ⟨15, 0, .ro⟩]⟩,
    ⟨0x980C, 0x0, 1, [⟨31, 0, .ro⟩]⟩ ] ++
  (List.range 15).map (fun i => RegRow.mk (0x9004 + 4 * i) 0x80 16 [⟨31, 0, .rw⟩])

/-- The BOB registers and the access codes of their fields. -/
def regsBob : List RegRow :=
  [ ⟨0xA000, 0x0, 1, [⟨2, 2, .rw⟩, ⟨1, 1, .rw⟩, ⟨0, 0, .rw⟩]⟩,
    ⟨0xA004, 0x0, 1, [⟨15, 8, .ro⟩, ⟨4, 4, .ro⟩, ⟨3, 3, .ro⟩, ⟨2, 2, .ro⟩, ⟨1, 1, .ro⟩, ⟨0, 0, .ro⟩]⟩,
    ⟨0xA008, 0x0, 1, [⟨19, 5, .rwl⟩]⟩,
    ⟨0xA00C, 0x0, 1, [⟨3, 0, .rwl⟩]⟩,
    ⟨0xA010, 0x0, 1, [⟨9, 0, .rw⟩]⟩,
    ⟨0xA014, 0x0, 1, [⟨9, 0, .ro⟩]⟩,
    ⟨0xA018, 0x0, 1, [⟨19, 4, .rwl⟩]⟩,
    ⟨0xA01C, 0x0, 1, [⟨9, 0, .rw⟩]⟩,
    ⟨0xA020, 0x0, 1, [⟨9, 0, .ro⟩]⟩,
    ⟨0xA030, 0x0, 1, [⟨31, 0, .ro⟩]⟩,
    ⟨0xA034, 0x0, 1, [⟨31, 0, .ro⟩]⟩,
    ⟨0xA038, 0x0, 1, [⟨31, 0, .ro⟩]⟩,
    ⟨0xA03C, 0x0, 1, [⟨31, 0, .ro⟩]⟩,
    ⟨0xA040, 0x0, 1, [⟨28, 16, .ro⟩, ⟨15, 8, .ro⟩, ⟨2, 2, .ro⟩, ⟨1, 1, .ro⟩, ⟨0, 0, .ro⟩]⟩,
    ⟨0xA050, 0x0, 1, [⟨15, 0, .ro⟩]⟩,
    ⟨0xA054, 0x0, 1, [⟨7, 0, .wo⟩]⟩,
    ⟨0xA060, 0x0, 1, [⟨20, 0, .ro⟩]⟩,
    ⟨0xA064, 0x0, 1, [⟨31, 31, .w1c⟩, ⟨19, 0, .ro⟩]⟩ ]

/-- The DST registers and the access codes of their fields. -/
def regsDst : List RegRow :=
  [ ⟨0xB000, 0x0, 1, [⟨31, 16, .ro⟩, ⟨4, 4, .ro⟩, ⟨3, 3, .ro⟩, ⟨2, 2, .ro⟩, ⟨1, 1, .ro⟩, ⟨0, 0, .ro⟩]⟩,
    ⟨0xB004, 0x0, 1, [⟨31, 31, .wo⟩, ⟨23, 0, .rw⟩]⟩,
    ⟨0xB008, 0x0, 1, [⟨30, 16, .ro⟩, ⟨14, 0, .ro⟩]⟩,
    ⟨0xB040, 0x4, 16, [⟨31, 31, .ro⟩, ⟨30, 30, .ro⟩, ⟨15, 0, .ro⟩]⟩ ]

/-- The CRY registers and the access codes of their fields. -/
def regsCry : List RegRow :=
  [ ⟨0xC000, 0x0, 1, [⟨8, 8, .rw⟩, ⟨4, 0, .rw⟩]⟩,
    ⟨0xC004, 0x0, 1, [⟨27, 24, .ro⟩, ⟨23, 16, .ro⟩, ⟨15, 8, .ro⟩, ⟨7, 0, .ro⟩]⟩,
    ⟨0xC008, 0x0, 1, [⟨17, 16, .ro⟩, ⟨15, 0, .ro⟩]⟩,
    ⟨0xC00C, 0x0, 1, [⟨31, 31, .wo⟩, ⟨27, 24, .rw⟩, ⟨19, 16, .rw⟩, ⟨15, 8, .ro⟩, ⟨7, 0, .ro⟩]⟩,
    ⟨0xC010, 0x0, 1, [⟨17, 17, .wo⟩, ⟨16, 16, .wo⟩, ⟨11, 8, .ro⟩, ⟨7, 4, .ro⟩, ⟨3, 2, .ro⟩, ⟨1, 0, .ro⟩]⟩,
    ⟨0xC014, 0x0, 1, [⟨31, 24, .ro⟩, ⟨23, 8, .ro⟩, ⟨2, 2, .ro⟩, ⟨1, 1, .ro⟩, ⟨0, 0, .ro⟩]⟩,
    ⟨0xC018, 0x0, 1, [⟨31, 16, .rw⟩, ⟨10, 0, .rw⟩]⟩,
    ⟨0xC100, 0x20, 32, [⟨22, 6, .rwl⟩]⟩,
    ⟨0xC104, 0x20, 32, [⟨31, 31, .rw⟩, ⟨23, 16, .rw⟩, ⟨9, 8, .rw⟩, ⟨3, 0, .rwl⟩]⟩,
    ⟨0xC108, 0x20, 32, [⟨7, 0, .rw⟩]⟩,
    ⟨0xC10C, 0x20, 32, [⟨7, 0, .ro⟩]⟩,
    ⟨0xC110, 0x20, 32, [⟨31, 24, .ro⟩, ⟨23, 16, .ro⟩, ⟨0, 0, .ro⟩]⟩,
    ⟨0xC114, 0x20, 32, [⟨15, 0, .ro⟩]⟩ ]

/-- The DGT registers and the access codes of their fields. -/
def regsDgt : List RegRow :=
  [ ⟨0xD000, 0x10, 64, [⟨23, 16, .rw⟩, ⟨15, 12, .rw⟩, ⟨11, 11, .rw⟩, ⟨10, 10, .rw⟩, ⟨9, 8, .rw⟩, ⟨7, 2, .rw⟩, ⟨1, 0, .wo⟩]⟩,
    ⟨0xD004, 0x10, 64, [⟨31, 24, .ro⟩, ⟨23, 16, .ro⟩, ⟨15, 15, .ro⟩, ⟨14, 14, .ro⟩, ⟨11, 8, .ro⟩, ⟨2, 0, .ro⟩]⟩,
    ⟨0xD008, 0x10, 64, [⟨31, 0, .rw⟩]⟩,
    ⟨0xD00C, 0x10, 64, [⟨31, 0, .rs⟩]⟩,
    ⟨0xD400, 0x10, 64, [⟨31, 0, .wo⟩]⟩,
    ⟨0xD800, 0x0, 1, [⟨31, 0, .ro⟩]⟩,
    ⟨0xD804, 0x0, 1, [⟨31, 0, .ro⟩]⟩,
    ⟨0xD808, 0x0, 1, [⟨31, 0, .rw⟩]⟩,
    ⟨0xD80C, 0x0, 1, [⟨31, 0, .rw⟩]⟩,
    ⟨0xDBC0, 0x0, 1, [⟨0, 0, .rw⟩]⟩,
    ⟨0xDBC4, 0x0, 1, [⟨28, 16, .ro⟩, ⟨14, 0, .ro⟩]⟩,
    ⟨0xDBC8, 0x0, 1, [⟨31, 0, .ro⟩]⟩,
    ⟨0xDC00, 0x40, 16, [⟨1, 1, .wo⟩, ⟨0, 0, .rw⟩]⟩,
    ⟨0xDC04, 0x40, 16, [⟨31, 24, .ro⟩, ⟨23, 16, .ro⟩, ⟨10, 6, .ro⟩, ⟨2, 0, .ro⟩]⟩,
    ⟨0xDC08, 0x40, 16, [⟨31, 0, .ro⟩]⟩,
    ⟨0xDC0C, 0x40, 16, [⟨21, 0, .ro⟩]⟩,
    ⟨0xDC10, 0x40, 16, [⟨31, 0, .ro⟩]⟩,
    ⟨0xDC14, 0x40, 16, [⟨31, 0, .ro⟩]⟩,
    ⟨0xDC18, 0x40, 16, [⟨31, 0, .rwl⟩]⟩,
    ⟨0xDC1C, 0x40, 16, [⟨31, 0, .rwl⟩]⟩,
    ⟨0xDC20, 0x40, 16, [⟨8, 0, .rwl⟩]⟩,
    ⟨0xDC24, 0x40, 16, [⟨29, 16, .ro⟩, ⟨13, 0, .ro⟩]⟩,
    ⟨0xDC28, 0x40, 16, [⟨31, 0, .rs⟩]⟩,
    ⟨0xDC2C, 0x40, 16, [⟨31, 16, .ro⟩, ⟨15, 0, .ro⟩]⟩ ]

/-- The TLY registers and the access codes of their fields. -/
def regsTly : List RegRow :=
  [ ⟨0xE000, 0x0, 1, [⟨12, 8, .wo⟩, ⟨6, 4, .wo⟩, ⟨2, 0, .wo⟩]⟩,
    ⟨0xE004, 0x0, 1, [⟨31, 24, .ro⟩, ⟨6, 4, .ro⟩, ⟨0, 0, .ro⟩]⟩,
    ⟨0xE008, 0x0, 1, [⟨31, 0, .rw⟩]⟩,
    ⟨0xE00C, 0x0, 1, [⟨31, 0, .rw⟩]⟩,
    ⟨0xE010, 0x0, 1, [⟨31, 0, .rw⟩]⟩,
    ⟨0xE100, 0x40, 8, [⟨31, 16, .rw⟩, ⟨9, 8, .rw⟩, ⟨3, 0, .rw⟩]⟩,
    ⟨0xE104, 0x40, 8, [⟨15, 0, .rw⟩]⟩,
    ⟨0xE108, 0x40, 8, [⟨31, 0, .rw⟩]⟩,
    ⟨0xE10C, 0x40, 8, [⟨31, 0, .rw⟩]⟩,
    ⟨0xE110, 0x40, 8, [⟨31, 0, .rw⟩]⟩,
    ⟨0xE114, 0x40, 8, [⟨31, 0, .ro⟩]⟩,
    ⟨0xE118, 0x40, 8, [⟨19, 3, .rw⟩]⟩,
    ⟨0xE11C, 0x40, 8, [⟨31, 24, .ro⟩, ⟨2, 0, .ro⟩]⟩,
    ⟨0xE120, 0x40, 8, [⟨31, 0, .ro⟩]⟩,
    ⟨0xE124, 0x40, 8, [⟨31, 0, .ro⟩]⟩,
    ⟨0xE128, 0x40, 8, [⟨31, 0, .rs⟩]⟩ ]

/-- The DMA registers and the access codes of their fields. -/
def regsDma : List RegRow :=
  [ ⟨0xF000, 0x0, 1, [⟨1, 1, .rw⟩, ⟨0, 0, .rw⟩]⟩,
    ⟨0xF004, 0x0, 1, [⟨31, 31, .ro⟩, ⟨30, 30, .ro⟩, ⟨12, 8, .ro⟩, ⟨5, 0, .ro⟩]⟩,
    ⟨0xF008, 0x0, 1, [⟨31, 0, .ro⟩]⟩,
    ⟨0xF00C, 0x0, 1, [⟨31, 0, .ro⟩]⟩,
    ⟨0xF010, 0x0, 1, [⟨31, 0, .wo⟩]⟩,
    ⟨0xF014, 0x0, 1, [⟨31, 0, .rw⟩]⟩,
    ⟨0xF018, 0x0, 1, [⟨31, 0, .rw⟩]⟩,
    ⟨0xF01C, 0x0, 1, [⟨15, 0, .wo⟩]⟩,
    ⟨0xF020, 0x0, 1, [⟨31, 0, .ro⟩]⟩,
    ⟨0xF024, 0x0, 1, [⟨31, 0, .ro⟩]⟩,
    ⟨0xF100, 0x40, 32, [⟨22, 6, .rwl⟩]⟩,
    ⟨0xF104, 0x40, 32, [⟨31, 31, .rw⟩, ⟨23, 16, .rw⟩, ⟨9, 8, .rw⟩, ⟨3, 0, .rwl⟩]⟩,
    ⟨0xF108, 0x40, 32, [⟨9, 0, .rw⟩]⟩,
    ⟨0xF10C, 0x40, 32, [⟨9, 0, .ro⟩]⟩,
    ⟨0xF110, 0x40, 32, [⟨3, 3, .wo⟩, ⟨2, 2, .wo⟩, ⟨1, 1, .rw⟩]⟩,
    ⟨0xF114, 0x40, 32, [⟨31, 24, .ro⟩, ⟨23, 15, .ro⟩, ⟨2, 0, .ro⟩]⟩,
    ⟨0xF118, 0x40, 32, [⟨31, 0, .ro⟩]⟩,
    ⟨0xF11C, 0x40, 32, [⟨31, 0, .ro⟩]⟩,
    ⟨0xF120, 0x40, 32, [⟨31, 0, .ro⟩]⟩,
    ⟨0xF124, 0x40, 32, [⟨31, 0, .ro⟩]⟩,
    ⟨0xF128, 0x40, 32, [⟨31, 0, .ro⟩]⟩,
    ⟨0xF12C, 0x40, 32, [⟨21, 0, .ro⟩]⟩,
    ⟨0xF130, 0x40, 32, [⟨11, 0, .ro⟩]⟩,
    ⟨0xF134, 0x40, 32, [⟨31, 0, .ro⟩]⟩,
    ⟨0xF138, 0x40, 32, [⟨31, 0, .ro⟩]⟩,
    ⟨0xF13C, 0x40, 32, [⟨31, 24, .ro⟩, ⟨23, 16, .ro⟩, ⟨15, 6, .ro⟩, ⟨2, 2, .ro⟩, ⟨1, 1, .ro⟩, ⟨0, 0, .ro⟩]⟩ ]

/-- The DBG registers and the access codes of their fields. -/
def regsDbg : List RegRow :=
  [ ⟨0x10000, 0x0, 1, [⟨31, 16, .rw⟩, ⟨2, 2, .rw⟩, ⟨1, 1, .rw⟩, ⟨0, 0, .rw⟩]⟩,
    ⟨0x10004, 0x0, 1, [⟨12, 8, .ro⟩, ⟨2, 2, .ro⟩, ⟨1, 1, .ro⟩, ⟨0, 0, .ro⟩]⟩,
    ⟨0x10008, 0x0, 1, [⟨8, 8, .rw⟩, ⟨4, 0, .rwl⟩]⟩,
    ⟨0x1000C, 0x0, 1, [⟨31, 0, .wo⟩]⟩,
    ⟨0x10010, 0x0, 1, [⟨1, 1, .wo⟩, ⟨0, 0, .wo⟩]⟩,
    ⟨0x10014, 0x0, 1, [⟨3, 1, .ro⟩, ⟨0, 0, .ro⟩]⟩,
    ⟨0x10018, 0x0, 1, [⟨15, 8, .rw⟩, ⟨7, 0, .rw⟩]⟩,
    ⟨0x1001C, 0x0, 1, [⟨31, 0, .rs⟩]⟩,
    ⟨0x10100, 0x20, 6, [⟨2, 2, .wo⟩, ⟨1, 1, .wo⟩, ⟨0, 0, .wo⟩]⟩,
    ⟨0x10104, 0x20, 6, [⟨31, 24, .ro⟩, ⟨5, 4, .ro⟩, ⟨3, 3, .ro⟩, ⟨2, 0, .ro⟩]⟩,
    ⟨0x10108, 0x20, 6, [⟨31, 2, .rw⟩, ⟨1, 1, .rw⟩, ⟨0, 0, .rw⟩]⟩,
    ⟨0x1010C, 0x20, 6, [⟨31, 2, .rw⟩, ⟨1, 1, .rw⟩, ⟨0, 0, .rw⟩]⟩,
    ⟨0x10110, 0x20, 6, [⟨31, 2, .rw⟩, ⟨1, 1, .rw⟩, ⟨0, 0, .rw⟩]⟩,
    ⟨0x10114, 0x20, 6, [⟨31, 2, .rw⟩, ⟨1, 1, .rw⟩, ⟨0, 0, .rw⟩]⟩,
    ⟨0x10400, 0x10, 17, [⟨31, 31, .rw⟩, ⟨30, 30, .wo⟩, ⟨29, 29, .wo⟩, ⟨28, 28, .wo⟩, ⟨19, 17, .rw⟩, ⟨16, 16, .rw⟩, ⟨6, 0, .rw⟩]⟩,
    ⟨0x10404, 0x10, 17, [⟨25, 16, .ro⟩, ⟨3, 3, .ro⟩, ⟨2, 0, .ro⟩]⟩,
    ⟨0x10408, 0x10, 17, [⟨31, 0, .ro⟩]⟩,
    ⟨0x10800, 0x10, 8, [⟨31, 0, .ro⟩]⟩,
    ⟨0x11000, 0x10, 64, [⟨31, 28, .rw⟩, ⟨27, 23, .rw⟩, ⟨22, 19, .rw⟩, ⟨18, 18, .rw⟩, ⟨15, 0, .rw⟩]⟩,
    ⟨0x11004, 0x10, 64, [⟨31, 0, .rs⟩]⟩,
    ⟨0x11008, 0x10, 64, [⟨23, 0, .ro⟩]⟩ ]

/-- The COR registers and the access codes of their fields. -/
def regsCor : List RegRow :=
  [ ⟨0x18000, 0x0, 1, [⟨19, 16, .ro⟩, ⟨13, 8, .ro⟩, ⟨5, 0, .ro⟩]⟩,
    ⟨0x18004, 0x0, 1, [⟨15, 8, .rwl⟩, ⟨0, 0, .w1s⟩]⟩,
    ⟨0x18008, 0x0, 1, [⟨31, 31, .wo⟩, ⟨23, 0, .rw⟩]⟩,
    ⟨0x1800C, 0x0, 1, [⟨23, 0, .rw⟩]⟩,
    ⟨0x18020, 0x4, 6, [⟨1, 1, .wo⟩, ⟨0, 0, .wo⟩]⟩,
    ⟨0x18040, 0x4, 6, [⟨31, 24, .ro⟩, ⟨23, 16, .ro⟩, ⟨2, 0, .ro⟩]⟩,
    ⟨0x18060, 0x8, 4, [⟨31, 0, .rw⟩]⟩,
    ⟨0x18064, 0x8, 4, [⟨31, 31, .rw⟩, ⟨30, 30, .rw⟩, ⟨23, 0, .rw⟩]⟩ ]

/-- Every register (R513). -/
def regTable : List RegRow :=
  regsGen ++ regsPwr ++ regsOtp ++ regsLcs ++ regsSng ++ regsWhl ++ regsSkn ++ regsPly ++ regsMbs ++ regsMbn ++ regsBob ++ regsDst ++ regsCry ++ regsDgt ++ regsTly ++ regsDma ++ regsDbg ++ regsCor

/-- The reset values other than 0 (Table 19.2). -/
def regResets : List RegReset :=
  [ ⟨0x0, 0x0, 1, 0x47110000⟩,
    ⟨0xC, 0x0, 1, 0x38⟩,
    ⟨0x10, 0x0, 1, 0x10⟩,
    ⟨0x1000, 0x0, 1, 0x1⟩,
    ⟨0x1010, 0x0, 1, 0x4000040⟩,
    ⟨0x1014, 0x0, 1, 0xF⟩,
    ⟨0x1018, 0x0, 1, 0x20⟩,
    ⟨0x1004, 0x0, 1, 0xC0⟩,
    ⟨0x1028, 0x0, 1, 0x708⟩,
    ⟨0x4000, 0x0, 1, 0x5⟩,
    ⟨0x5000, 0x0, 1, 0x3⟩,
    ⟨0x5010, 0x0, 1, 0x1000⟩,
    ⟨0x5118, 0x40, 16, 0x10⟩,
    ⟨0x6000, 0x0, 1, 0x4⟩,
    ⟨0x6004, 0x0, 1, 0xFFFF0040⟩,
    ⟨0x6030, 0x0, 1, 0x810⟩,
    ⟨0x6034, 0x0, 1, 0x100040⟩,
    ⟨0x7008, 0x0, 1, 0x2710⟩,
    ⟨0x8800, 0x0, 1, 0x10000⟩,
    ⟨0x9800, 0x0, 1, 0x100000⟩,
    ⟨0x9804, 0x0, 1, 0xFFFF⟩,
    ⟨0xA000, 0x0, 1, 0x4⟩,
    ⟨0xA00C, 0x0, 1, 0x8⟩,
    ⟨0xB004, 0x0, 1, 0x400⟩,
    ⟨0xC000, 0x0, 1, 0x116⟩,
    ⟨0xC010, 0x0, 1, 0x5⟩,
    ⟨0xC018, 0x0, 1, 0xFFFF0400⟩,
    ⟨0xDBC0, 0x0, 1, 0x1⟩,
    ⟨0xF000, 0x0, 1, 0x3⟩,
    ⟨0x10008, 0x0, 1, 0x10C⟩,
    ⟨0x18008, 0x0, 1, 0x10000⟩,
    ⟨0x1800C, 0x0, 1, 0x10000⟩,
    ⟨0x8044, 0x0, 1, 0xF0000001⟩,
    ⟨0x80C4, 0x0, 1, 0xF1000001⟩,
    ⟨0x8144, 0x0, 1, 0xF2000001⟩,
    ⟨0x81C4, 0x0, 1, 0xF3000001⟩,
    ⟨0x8244, 0x0, 1, 0xF4000001⟩,
    ⟨0x82C4, 0x0, 1, 0xF5000001⟩,
    ⟨0x8344, 0x0, 1, 0xFF000001⟩,
    ⟨0x83C4, 0x0, 1, 0xFF000001⟩,
    ⟨0x8444, 0x0, 1, 0xFF000001⟩,
    ⟨0x84C4, 0x0, 1, 0xFF000001⟩,
    ⟨0x8544, 0x0, 1, 0xFF000001⟩,
    ⟨0x85C4, 0x0, 1, 0xFF000001⟩,
    ⟨0x80CC, 0x0, 1, 0x1⟩,
    ⟨0x814C, 0x0, 1, 0x2⟩,
    ⟨0x81CC, 0x0, 1, 0x3⟩,
    ⟨0x824C, 0x0, 1, 0x4⟩,
    ⟨0x82CC, 0x0, 1, 0x5⟩,
    ⟨0x83CC, 0x0, 1, 0x1⟩,
    ⟨0x844C, 0x0, 1, 0x2⟩,
    ⟨0x84CC, 0x0, 1, 0x3⟩,
    ⟨0x854C, 0x0, 1, 0x4⟩,
    ⟨0x85CC, 0x0, 1, 0x5⟩,
    ⟨0xC104, 0x20, 8, 0xFF0304⟩,
    ⟨0xC204, 0x20, 24, 0x104⟩,
    ⟨0xF104, 0x40, 4, 0x80FE0304⟩,
    ⟨0xF204, 0x40, 4, 0xFF0304⟩,
    ⟨0xF304, 0x40, 24, 0x104⟩ ]

/-- Does the row of copies `base`, `stride`, `count` hold a register at this offset? -/
def copyAt (base stride count off : Nat) : Bool :=
  if stride = 0 then off == base
  else decide (base ≤ off) && (off - base) % stride == 0 && decide ((off - base) / stride < count)

/-- The reset value in the first row of a list that names this offset, 0 when none does. -/
def resetIn (rows : List RegReset) (off : Nat) : Nat :=
  match rows with
  | [] => 0
  | r :: rows => if copyAt r.base r.stride r.count off then r.val else resetIn rows off

/-- The reset value of the register at an offset (Table 19.2). -/
def regReset (off : Nat) : Word := BitVec.ofNat 32 (resetIn regResets off)

/-- The row of the register table that holds a register at this offset. -/
def rowIn (rows : List RegRow) (off : Nat) : Option RegRow :=
  match rows with
  | [] => none
  | r :: rows => if copyAt r.base r.stride r.count off then some r else rowIn rows off

/-- The register table's row for an offset, none when no register occupies it (R512). -/
def regRow (off : Nat) : Option RegRow := rowIn regTable off

end Sys2Proof.Machine
end

