-- ==== Sys2Proof/Machine/State.lean ====
section
/-!
DEFINITION. The state of one Gegrim instance: every register, memory, fuse, key, queue, table, counter, buffer and pin the spec gives it,
as plain data (assumption 2). The fuse cells stand apart from the rest (`State.fuses`), because nothing but a program pulse
changes them.
-/

namespace Sys2Proof.Machine

/-- One event record (Table 0.6); `args` are its 20 argument bytes. -/
structure EvRec where
  time : Nat
  unit : Nat
  code : Nat
  args : List Byte
  deriving DecidableEq, Repr

/-- The two event logs (R514), each with the words already read of its oldest record and its count of lost records, and the
slots at which rate-limited events were last logged (key: code and subject). -/
structure Logs where
  svc : List EvRec := []
  svcWord : Nat := 0
  svcLost : Nat := 0
  aon : List EvRec := []
  aonWord : Nat := 0
  aonLost : Nat := 0
  lastAt : List ((Nat × Nat) × Nat) := []
  deriving DecidableEq, Repr

/-- A Skein frame (Table 2.4) without `LEN` and `HCRC`, which its bytes determine. -/
structure RingFrame where
  typ : Nat
  flags : Nat
  src : Nat
  dst : Nat
  seq : Nat
  rkey : Nat
  payload : List Byte
  tag : List Byte
  deriving DecidableEq, Repr

/-- A unicast frame the sender keeps until it is acknowledged (R42), with the attempts made. -/
structure HeldFrame where
  frame : RingFrame
  tries : Nat
  deriving DecidableEq, Repr

/-- A Warp frame awaiting its answer (R31, R32): whether it was already resent, and whether the partner relayed it (R424). -/
structure WarpWait where
  frame : WarpFrame
  resent : Bool := false
  relayed : Bool := false
  deriving DecidableEq, Repr

/-- Replay state the destination keeps per source (R42): the highest `SEQ` seen and the `SEQ`s seen among the 1,024 below it. -/
structure Replay where
  top : Nat
  seen : List Nat
  deriving DecidableEq, Repr

/-- Splice states (Table 2.7). -/
inductive Splice where
  | bridged | opening | inRing | closing | retrain
  deriving DecidableEq, Repr

/-- A frame delivered to its unit and not yet taken by the step that handles it, with its `SEQ` and when it came. -/
structure Inbox where
  typ : Nat
  src : Nat
  seq : Nat
  time : Nat := 0
  payload : List Byte
  deriving DecidableEq, Repr

/-- The Skein ring interface (R39 to R47) beyond its registers: the ring key and its epoch, the previous one in its grace window (R218), the next `SEQ`, whether it would wrap, the
unicast frames held, receive state per source, broadcasts seen, tag failures per source in this window, frames delivered, and the
Splice with its forced bit; EVENT_FWD records accepted and refused per die in this window (R518); the segments known broken and the last sender of each
frame given up (R41, R42). -/
structure Ring where
  key : Option (List Byte) := none
  rkey : Nat := 0
  old : Option (Nat × List Byte) := none
  seq : Nat := 0
  stopped : Bool := false
  held : List HeldFrame := []
  replay : Tab Replay := []
  bcast : List (Nat × Nat) := []
  fails : Tab Nat := []
  inbox : List Inbox := []
  splice : Splice := .bridged
  forced : Bool := false
  fwdSeen : Tab Nat := []
  fwdBad : List Nat := []
  breaks : List (Nat × Nat) := []
  lost : List (Nat × Nat × Nat) := []
  deriving DecidableEq, Repr

/-- What `ZEROIZE_OUT_N` is driven to (R450): high, a 16 µs pulse, or low until `PORST_N`. -/
inductive ZOut where
  | high | pulse | low
  deriving DecidableEq, Repr

/-- Levels of the boundary pins that the instance samples or drives and no register shows (R24): among them `REQ_SEC` of the last fabric request made or
taken (R30) and whether the NOR interface is in 8D-8D-8D (R33). -/
structure Pins where
  porstN : Bool := false
  sysrstN : Bool := true
  strapClass : Nat := 0
  strapSide : Bool := false
  recoveryN : Bool := true
  zeroizeOut : ZOut := .high
  spliceHold : Bool := false
  norParked : Bool := false
  reqSec : Bool := false
  norOctal : Bool := false
  deriving DecidableEq, Repr

/-- A Ply frame (Table 15.2) before its protection: type, `PSEQ`, payload, and the mirror item or resync part it carries. -/
structure PlyFrame where
  typ : Nat
  pseq : Nat
  payload : List Byte
  item : Option MItem := none
  part : Option ResPart := none
  deriving DecidableEq, Repr

/-- Everything the instance sends at its ports, oldest first: frames, interrupts, wake beacons and pulses. Requests at the initiator
port carry `REQ_SEC` and the requester number (R30). -/
inductive Out where
  | ring (f : RingFrame)
  | ringForward (f : RingFrame)
  | marker (cc : Bool) (bytes : List Byte)
  | warp (ch : Nat) (f : WarpFrame)
  | ply (f : PlyFrame)
  | hbm (sec : Bool) (req : Nat) (addr : Nat) (data : List Byte)
  | blobRead (sec : Bool) (req : Nat) (bobbin : Nat)
  | initiator (sec : Bool) (req : Nat) (addr : Nat) (data : List Byte)
  | sfdpRead
  | twistLog (sec : Bool) (req : Nat) (addr : Nat) (data : List Byte)
  | initiatorRead (sec : Bool) (req : Nat) (addr : Nat)
  | linkTrain
  | beacon
  | irqSpindle (unit : Nat) (detail : Nat)
  | irqRoving (core : Nat) (detail : Nat)
  | fabric (req : Req) (ok : Bool) (data : Nat)
  | notice (core : Nat) (words : List Nat)
  | service (frame : List Byte)
  | spdm (conn : Nat) (sess : Option Nat) (body : List Byte)
  | jtag (width : Nat) (value : Nat)
  | resetComplexes
  deriving DecidableEq, Repr

/-- The power sequencer beyond the PWR page (R59 to R65): failed lock attempts of the two PLLs, the wake time once its high word was
written, whether a wake waits to be taken, and whether the next Service start is a warm one (R101, R111); the slot since which Crypto has been idle
(key 0) and each group has (its number), from which PLL_HOLD and IDLE_SLOTS count (R59, R62), and the ticks since PORST_N (R131). -/
structure Pwr where
  svcTries : Nat := 0
  cryTries : Nat := 0
  wakeAt : Option Nat := none
  latched : Bool := false
  warm : Bool := false
  idle : Tab Nat := []
  age : Nat := 0
  deriving DecidableEq, Repr

/-- Snag beyond the SNG page (R445 to R459): consecutive conversions outside the Class B and Class C limits and with the sensors
apart; whether causes 0x12, 0x20, 0x21 and 0x22 persist; sensor offsets, mesh window centres, pad causes that persist, the record the
record writer is to write, and the time of the last Class B or C decision at this start. -/
structure Sng where
  hot : Nat := 0
  hotSet : Bool := false
  warm : Nat := 0
  warmSet : Bool := false
  apart : Nat := 0
  railSet : Bool := false
  delaySet : List Nat := []
  offset0 : Int := 0
  offset1 : Int := 0
  centre : List Nat := [0, 0, 0, 0]
  persist : List Nat := []
  writer : Option EvRec := none
  bcTime : Nat := 0
  deriving DecidableEq, Repr

/-- A trace source (R495 to R500) beyond its registers: records held, words read of the oldest, the pending loss, records
still to admit after a trigger, the core it is granted to. -/
structure TraceSrc where
  recs : List (List Byte) := []
  word : Nat := 0
  loss : Nat := 0
  lossAt : Nat := 0
  post : Nat := 0
  grant : Option Nat := none
  deriving DecidableEq, Repr

/-- A counter group's sample buffer (R504, R506). -/
structure SampleBuf where
  recs : List (List Byte) := []
  word : Nat := 0
  loss : Bool := false
  deriving DecidableEq, Repr

/-- Debug, trace and counters beyond the DBG page (R486 to R508). `noil` is keyed by unit, oldest entry first; `jtag` is the JTAG
instruction in force, `portSel` the register the last Update-DR of a port named (0: none), `haltAt` the slots at which cores (6: the Spindle
pair) were halted. -/
structure Dbg where
  tr : Tab TraceSrc := []
  noil : Tab (List (List Byte)) := []
  noilWord : Nat := 0
  cnt : Tab Nat := []
  smp : Tab SampleBuf := []
  jtag : Nat := 0x01
  portSel : Nat := 0
  entSource : Nat := 0
  haltAt : Tab Nat := []
  spn : List Word := []
  deriving DecidableEq, Repr

/-- The fuse array (R68): data words by address 0 to 4,095 and the lock-row words L0 to L2 as 4,096 to 4,098, blank words
unlisted. -/
structure Fuses where
  cells : Tab Cells := []
  deriving DecidableEq, Repr

/-- The shadow of a data word (R70, R71): normal raw value, resolved value, flags of Table 4.13, and whether tight and loose
differed at sensing. -/
structure Shadow where
  raw : Nat := 0
  value : Nat := 0
  flags : Nat := 0
  marginal : Bool := false
  deriving DecidableEq, Repr

/-- What the OTP controller is programming (R80, R86, R94). -/
inductive OtpKind where
  | progWord | progDigest | lockWrite | lockRead | lockWriteRaw | genRoots | arbAdvance
  | lcsIntent | lcsAction | lcsDone | lcsQuench
  deriving DecidableEq, Repr

/-- A program in progress: the cells still to blow, in order, each `(word, cell)`; lock-row words are 4096 + j. `last` is the
result the command ends with once its cells are blown (ARB_ADVANCE beyond 256 repairs and then answers LIMIT_REACHED). -/
structure OtpJob where
  kind : OtpKind
  arg : Nat
  cells : List (Nat × Nat)
  last : Status
  deriving DecidableEq, Repr

/-- The OTP controller beyond its page (R70 to R87). `failed` lists the regions of an integrity failure at start still to be
decided by ROM; `cut` is a program whose pulse was ended and whose cells are still to be read back (R82); `atStart` the regions whose failure this start found (R76). -/
structure Otp where
  sensed : Bool := false
  shadow : Tab Shadow := []
  job : Option OtpJob := none
  cut : Option OtpJob := none
  quenching : Bool := false
  audit : Option Nat := none
  failed : List Nat := []
  fetching : List Nat := []
  atStart : List Nat := []
  deriving DecidableEq, Repr

/-- The life-cycle machine beyond its page (R92 to R95): the record in progress or left pending with its source and target, whether
SENSE still waits for it, whether event 0x1403 was logged for it at this start, whether it was left unfinished at this start (so
that no root is loaded), the number of records used, and the ticket of the LC_REQUEST call that asked for it;
`found` is the phase in which SENSE found a pending record (R95). -/
structure Lcs where
  record : Option Nat := none
  target : Nat := 0
  source : Nat := 0
  pending : Bool := false
  waited : Bool := false
  stuck : Bool := false
  used : Nat := 0
  ticket : Option Nat := none
  found : Option Nat := none
  deriving DecidableEq, Repr


/-- The memories an instance holds or owns: Spindle SRAM, Roving SRAM, NOR; canonical lists of listed bytes (Machine/Memory.lean).
`poison` lists the poisoned Roving SRAM words by address (R138). -/
structure Mem where
  spn : List Host.Cell := []
  rov : List Host.Cell := []
  nor : List Host.Cell := []
  poison : List Nat := []
  deriving DecidableEq, Repr

/-- A service call as its mailbox holds it (Table 6.9). -/
structure Call where
  core : Nat
  mbox : Nat
  code : Nat
  tag : Nat
  inAddr : Nat
  inLen : Nat
  outAddr : Nat
  outLen : Nat
  args : List Byte
  deriving DecidableEq, Repr

/-- What Spindle answers to a call: a status, bytes for the output buffer, and inline results; `wait_` when the answer leaves later. -/
structure Answer where
  st : Status
  ticket : Nat := 0
  out : List Byte := []
  inl : List Nat := []
  wait_ : Bool := false
  deriving DecidableEq, Repr

/-- A service call that replied PENDING (R155). -/
structure PendCall where
  core : Nat
  call : Nat
  tag : Nat
  outAddr : Nat
  outLen : Nat
  deriving DecidableEq, Repr

/-- A completion notice waiting for MBS 6 + c (R155). -/
structure Notice where
  call : Nat
  tag : Nat
  status : Nat
  ticket : Nat
  used : Nat
  deriving DecidableEq, Repr

/-- A message on an MBN mailbox (R158): its `PROTO`, the number of the next fragment, the bytes taken, whether `EOM` came; the reply still to be
fetched and the number of its next fragment. -/
structure HostMsg where
  proto : Nat
  next : Nat := 0
  bytes : List Byte := []
  whole : Bool := false
  reply : Option (List Byte) := none
  sent : Nat := 0
  deriving DecidableEq, Repr

/-- Cores and mailboxes beyond the COR, MBS and MBN pages (R141 to R157): the core at which each MBN full interrupt was last raised,
pool mailboxes whose core was fenced while FULL, PENDING calls by ticket, the next ticket, notices waiting per core,
the slots of the last watchdog kicks; the slot of the last owner access to each mailbox and the slot at which its count paused in FULL (R149);
the message of each MBN mailbox being assembled or answered, and messages that wait for a free core, with their length in words (R158). -/
structure Cores where
  mbAt : Tab Nat := []
  mbPause : Tab Nat := []
  hostWait : List (Nat × Nat) := []
  mbSeen : Tab Nat := []
  host : Tab HostMsg := []
  orphan : List Nat := []
  pend : Tab PendCall := []
  ticket : Nat := 1
  notices : Tab (List Notice) := []
  spnKick : Nat := 0
  kicks : Tab Nat := []
  deriving DecidableEq, Repr

/-- A key cache entry (R171): its tag and the two shares. -/
structure CEnt where
  bob : Nat
  epoch : Nat
  pinned : Bool
  s0 : List Byte
  s1 : List Byte
  deriving DecidableEq, Repr

/-- A Custody command in flight (R173 to R175): Bobbins on which it has still to take effect, commits it waits for, Bobbins done and
refused, the highest `JSEQ` it wrote. -/
structure CmdRun where
  id : Nat
  op : Nat
  tag : Nat
  irq : Bool
  durable : Bool := false
  first : Nat
  last : Nat
  left : List Nat := []
  holds : Nat := 0
  done : Nat := 0
  bad : List (Nat × Status) := []
  jseq : Nat := 0
  deriving DecidableEq, Repr

/-- The journal writer (R180 to R188): the next position, groups waiting to be programmed (each with the position the lead gave it, if
the lead did), the page in progress with its first position, failures in a row, the sector being erased, the sector erased and not yet
entered, one whose records still move forward before its erase with the last `JSEQ` of those, the highest `JSEQ` durable here, the last `JSEQ` of each hank's key records, ceremony numbers seen per
hank, the highest `JSEQ` the partner has made durable, and whether the sector after the head's is still to
be cleared since the journal was opened. -/
structure Jrnl where
  head : Nat := 0
  queue : List (Option Nat × JRec) := []
  page : List (Nat × JRec) := []
  fails : Nat := 0
  erasing : Option Nat := none
  ready : Option Nat := none
  want : Option Nat := none
  wantSeq : Nat := 0
  dur : Nat := 0
  hankSeq : Tab Nat := []
  partnerDur : Nat := 0
  owed : Bool := false
  deriving DecidableEq, Repr

/-- A KEY_REQ being served (R193), by source die. -/
structure KeyReq where
  src : Nat
  bob : Nat
  epoch : Nat
  reqId : Nat
  time : Nat
  deriving DecidableEq, Repr

/-- Keys Distaff holds (Table 7.1) and the Alias keys as handles. -/
structure Distaff where
  root : Option (List Byte) := none
  store : Option (List Byte) := none
  journal : Option (List Byte) := none
  blob : Option (List Byte) := none
  hank : Tab (List Byte) := []
  noise : Tab (List Byte) := []
  cdi : Option (List Byte) := none
  dice : Bool := false
  deriving DecidableEq, Repr

/-- The Custody cluster (R163 to R201, R229 to R261): Distaff's keys and the node keys; the Bobbin table; the key cache; commands in flight
and completions held behind a full ring; the journal writer; blobs being read and requests waiting for a group's wake; Warp frames awaiting an answer and behind a full channel, targets silent to a load, the state of the partner's
channels and the RETIRE and CANCEL frames held for them; pushes by `REQ_ID` (die, Bobbin, epoch); reports of the last slots; Bobbins
(true: from the partner) and roots under repair, updates held for a root, the tree root store; Bobbins whose blob is loaded before an
imported key takes the other slot (the launch and the new key), or so that their committed key can be mirrored (none). -/
structure Cust where
  keys : Distaff := {}
  node : Tab (List Byte) := []
  bobs : Tab Bob := []
  cache : List CEnt := []
  cmds : List CmdRun := []
  nextCmd : Nat := 0
  held : List (List Byte) := []
  jrnl : Jrnl := {}
  blobReads : List KeyReq := []
  waitGrp : List KeyReq := []
  warp : Tab (List WarpWait) := []
  backlog : Tab (List WarpWait) := []
  silent : List (Nat × Nat) := []
  chFar : Tab Nat := []
  farHeld : List (Nat × WarpFrame) := []
  pushes : Tab (Nat × Nat × Nat) := []
  nextReq : Nat := 0
  seenReports : List (Nat × WarpFrame × Nat) := []
  repair : List (Nat × Bool) := []
  rootRepair : List Nat := []
  rootWait : List (Nat × WarpFrame) := []
  trs : Tab (List Byte) := []
  replayed : Bool := false
  loads : List (Nat × Nat × Option (List Byte)) := []
  deriving DecidableEq, Repr

/-- Whorl time and launches beyond the WHL page (R202 to R228): consecutive good markers and slots without one, the correction due at the
next slot boundary, the last launch number, the new ring key of a RING launch with its epoch and the dies that acknowledged it, LAUNCH_CANCEL repeats still due (number, slot of the cancel, reason, launch slot), the entries mirrored by an earlier lead and the
last slot of a repeat sent for each (R215), the measured delays of the clockwise and the counter-clockwise outgoing segment (R205), and the CANCEL and RETIRE frames unanswered (launch, Bobbin);
slots for which Whorl time is still held, the slot of the last good marker, the slot of the last time report across packages and the offset still to correct; launches fired while no lead could log them. -/
structure Whl where
  good : Nat := 0
  corr : Int := 0
  adj : Int := 0
  lastNum : Nat := 0
  newRing : Option (Nat × List Byte) := none
  ringAcks : List Nat := []
  cancels : List (Nat × Nat × Nat × Nat) := []
  fromLead : List Nat := []
  sent : Tab Nat := []
  delay : Nat := 0
  delayCc : Nat := 0
  cancelWait : List (Nat × Nat) := []
  retireWait : List (Nat × Nat) := []
  hold : Nat := 0
  seen : Nat := 0
  xpkgAt : Nat := 0
  left : Int := 0
  unlogged : List Nat := []
  deriving DecidableEq, Repr

/-- A key register of a crypto channel (R269): type code of `CRY_CHn_KEYS`, `SEALED`, and its bytes. -/
structure CKey where
  typ : Nat := 0
  isSealed : Bool := false
  bytes : List Byte := []
  deriving DecidableEq, Repr

/-- A descriptor taken by a crypto channel and not completed (R268): its ring index, the descriptor, whether its unit has started, the
lane it holds (none while it waits or has yielded), its place in the order of arrival, whether its start expanded the private key, and what that unit leaves: status, output, bytes counted as output, the key for the destination register. -/
structure Flight where
  idx : Nat
  desc : CryDesc
  started : Bool := false
  lane : Option Nat := none
  arrive : Nat := 0
  expand : Bool := false
  st : Status := .ok
  out : List Byte := []
  used : Nat := 0
  key : Option CKey := none
  deriving DecidableEq, Repr

/-- A crypto channel beyond its registers (R266): key registers K0 to K3 and descriptors in flight, in ring order. -/
structure CryCh where
  keys : Tab CKey := []
  fl : List Flight := []
  deriving DecidableEq, Repr

/-- A digest context beyond its registers (R272 to R276): bytes received, result, whether event 0x1A03 was logged since OPEN, the declared
length latched at OPEN (or with a FINAL that waits), whether a FINAL waits for group 1 (R61). -/
structure DgtCtx where
  fed : List Byte := []
  result : List Byte := []
  early : Bool := false
  decl : Nat := 0
  final : Bool := false
  deriving DecidableEq, Repr

/-- A Tally accumulator beyond its registers (R285 to R289): mask key, masked sums, the owner whose ADD runs, result digest with the next
word a read returns, whether event 0x1A03 was logged since OPEN. -/
structure TlyAcc where
  ka : List Byte := []
  sums : List Nat := []
  owner : Nat := 0
  digest : List Byte := []
  word : Nat := 0
  early : Bool := false
  deriving DecidableEq, Repr

/-- The Crypto cluster beyond its pages (R262 to R293): channels, contexts and the core each granted context is granted to,
accumulators, the next lane of each class in round robin, lanes under a requested test, groups whose power-on tests have run, the slot
of each source's last health failure, sources in a retest, and the slot of the last reseed; the next number in
the order of arrival (R20), the last two seeds each lattice lane signed with (R263), the slot of the last periodic test, the blocks each source
buffers (R280), the DRBG's working state, and whether its known-answer test has failed once (1) or its second attempt runs (2) (R284). -/
structure Cry where
  ch : Tab CryCh := []
  ctx : Tab DgtCtx := []
  holder : Tab Nat := []
  acc : Tab TlyAcc := []
  next : Tab Nat := []
  asked : List (Nat × Nat) := []
  tested : List Nat := []
  failAt : Tab Nat := []
  retest : List Nat := []
  reseedAt : Nat := 0
  arrive : Nat := 0
  seeds : Tab (List (List Byte)) := []
  periodAt : Nat := 0
  ent : Tab (List (List Byte)) := []
  seed : List Byte := []
  kat : Nat := 0
  deriving DecidableEq, Repr

/-- A DMA channel beyond its registers (R300 to R307): the descriptor in progress, bytes staged with their destinations, and ring indexes of
descriptors completed without `BARRIER` whose writes through the initiator port may still fail; the prefetch buffer of 64 index entries (R304) with the number
of its first entry and the entries it held before; whether the descriptor in progress has written through the port. -/
structure DmaCh where
  desc : Option DmaDesc := none
  buf : List (Nat × List Byte) := []
  unacked : List Nat := []
  pre : List Nat := []
  old : List Nat := []
  preAt : Nat := 0
  port : Bool := false
  deriving DecidableEq, Repr

/-- The measurement snapshot of one generation (R324, Tables 12.2 to 12.4): generation, Whorl time at which it was formed, measurement
entries, the encoded maps, debug fields and consents (hank, kinds, owners), `layout` by hank (with its dies and its full encoding),
`twist` by hank, and why it is transitional (reason, stale dies, time at which the condition began). -/
structure Snap where
  gen : Nat := 0
  time : Nat := 0
  meas : List Meas := []
  ident : List Byte := []
  life : List Byte := []
  debug : Nat × Nat × Nat := (0, 0, 0)
  consents : List (Nat × Nat × Nat) := []
  layout : List (Nat × Nat × List Byte) := []
  ply : List Byte := []
  tamper : List Byte := []
  config : List Byte := []
  twist : List (Nat × List Byte) := []
  trans : Option (Nat × Nat × Nat) := none
  deriving DecidableEq, Repr

/-- An SPDM connection of one transport and requester (R336): how far negotiation went (1 version, 2 capabilities, 3 algorithms), the
transcripts of DSP0274 (negotiation; digests and certificates; measurements since the last signature, by session, 0 outside one), the message whose ECDSA
signature the last response carried, with its kind (R345), and KEM offers (slot, `K_kem`, `H_kem`). -/
structure Conn where
  stage : Nat := 0
  vca : List Byte := []
  certs : List Byte := []
  l1 : Tab (List Byte) := []
  last : Option (Nat × List Byte) := none
  kems : Tab (Nat × List Byte × List Byte) := []
  deriving DecidableEq, Repr

/-- An SPDM session (R337 to R346) as Spindle and Roving know it: connection, whether it is hybrid, its export master secret; whether
FINISH was served, what HYBRID_SIG must still sign, the transcript, the shared secret, key updates in each direction, the slot of the
last message, and the slot at which a promotion orphaned it. -/
structure Sess where
  conn : Nat := 0
  hybrid : Bool := false
  secret : List Byte := []
  est : Bool := false
  need : Option (List Byte) := none
  th : List Byte := []
  shared : List Byte := []
  updates : Nat × Nat := (0, 0)
  last : Nat := 0
  orphan : Option Nat := none
  deriving DecidableEq, Repr

/-- What an entry of the class-1 signature queue is for (R347): a SIGN_REPORT call (ticket, generation, payload, *t*), a SIGN_SPDM call (ticket,
algorithm, message), a GET_REPORT (generation, payload, *t*, offset), a response to be completed by an ECDSA signature over a message and by what
follows it (with the kind HYBRID_SIG may name), a HYBRID_SIG. -/
inductive SignWork where
  | report (ticket gen : Nat) (payload : List Byte) (t : Nat)
  | call (ticket alg : Nat) (msg : List Byte)
  | fetch (conn : Nat) (sess : Option Nat) (gen : Nat) (payload : List Byte) (t off : Nat)
  | response (conn : Nat) (sess : Option Nat) (kind : Nat) (body msg : List Byte)
  | hybrid (conn : Nat) (sess : Option Nat) (msg : List Byte)
  deriving DecidableEq, Repr

/-- Attestation beyond the registers (R321 to R347): the current and the previous snapshot; connections, sessions; the signature queue
with the slot at which each entry was accepted and the hank it is for (255 for none); reports kept (identifier, slot, bytes); the last report, session and KEM numbers given;
chains that could not be read; the session whose key each host channel was given (R254). -/
structure Spdm where
  snap : Option Snap := none
  prev : Option Snap := none
  conns : Tab Conn := []
  sess : Tab Sess := []
  queue : List (Nat × Nat × SignWork) := []
  reports : List (Nat × Nat × List Byte) := []
  lastReport : Nat := 0
  lastSess : Nat := 0
  lastKem : Nat := 0
  badChain : List Nat := []
  chan : Tab Nat := []
  deriving DecidableEq, Repr


/-- The fold unit (R352 to R357): chains by hank, the intake (whether the Gegrim inserted the record, and the record), the next `SEQ` of
each die. -/
structure Twists where
  tab : Tab Twist := []
  intake : List (Bool × List Byte) := []
  next : Tab Nat := []
  deriving DecidableEq, Repr


/-- An assembly of object portions Roving holds (R384): session, `OBJECT`, kind by opcode, `TOTAL`, the portions with their offsets, the slot
of the last one. -/
structure Assembly where
  session : Nat
  object : Nat
  opcode : Nat
  total : Nat
  parts : List (Nat × List Byte)
  last : Nat := 0
  deriving DecidableEq, Repr

/-- Hanks and owner objects (R382 to R417). `status` keeps the outcome of every object by session and `OBJECT` for queries. -/
structure Hanks where
  tab : Tab Hank := []
  pend : List Pend := []
  seenCer : Tab Nat := []
  scrub : Nat := 0
  dieRef : Tab Nat := []
  halted : Bool := false
  parts : List Assembly := []
  asked : List (Nat × Nat × List Byte × Nat) := []
  deriving DecidableEq, Repr

/-- An effect that waits for the partner's acknowledgement or for a journal program to start (R180, Table 15.5). -/
inductive Eff where
  | ring (typ dst : Nat) (payload : List Byte)
  | ringAll (typ : Nat) (payload : List Byte)
  | ack (src seq : Nat)
  | command (id : Nat) (ready : List Nat)
  | hankKey (hank : Nat) (key : List Byte)
  | root (tree : Nat) (node : List Byte)
  | answer (mbox : Nat) (a : Answer)
  | finish (ticket : Nat) (st : Status)
  | spdm (conn : Nat) (sess : Option Nat) (body : List Byte)
  | release (die : Nat)
  | launchCancel (entry reason : Nat)
  | warp (ch : Nat) (f : WarpFrame)
  | nothing
  deriving DecidableEq, Repr

/-- A held effect: released once `mseq` is acknowledged, the program of `jseq` has started and `BOB_JDUR` has reached `dur` (0: no
such wait). -/
structure Hold where
  eff : Eff
  mseq : Nat := 0
  jseq : Nat := 0
  dur : Nat := 0
  deriving DecidableEq, Repr

/-- A reply of a quiet hank (R413, R415): the slot its request arrived, the fixed count, the slot it was ready, the hank. -/
structure Late where
  arrive : Nat
  period : Nat
  ready : Nat
  eff : Eff
  hank : Nat := 0
  deriving DecidableEq, Repr

/-- The Ply pair beyond the PLY page (R418 to R444): link keys (sent, received) and frame numbers, frames kept for resending, mirror
numbers, effects held and acknowledgements owed (mirror number, the `JSEQ` whose program must start first); the two HELLOs and where
authentication stands, with its ephemeral values; the slot of the last heartbeat, the partner's state in it and whether it was lost; the
fresh mask and one a RENEW announces; the lease request outstanding (operation, expiry, slot, dies that granted it), the slot at which
the lease was taken, grants by die with their expiry, the partner's lease expiry; relayed frames awaited and reports held for a lead;
the resync's step, the Bobbin IDs whose chunk has come, journal records that wait for the repair, the last `JSEQ` to repair; handover (slot, step) and
what the partner says of its measurements; sleep handshakes (1 SLEEP sent, 2 acknowledged, 3 asleep as follow). -/
structure Ply where
  keys : Option (List Byte × List Byte) := none
  txSeq : Nat := 0
  rxSeq : Nat := 0
  sent : List PlyFrame := []
  mseq : Nat := 0
  macked : Nat := 0
  applied : Nat := 0
  oldest : Nat := 0
  holds : List Hold := []
  acks : List (Nat × Nat) := []
  own : List Byte := []
  hello : Option (List Byte) := none
  auth : Nat := 0
  eph : List Byte := []
  kem : List Byte := []
  first : List Byte := []
  t2 : List Byte := []
  newKeys : Option (List Byte × List Byte) := none
  beatAt : Nat := 0
  partner : Nat := 0
  lost : Bool := false
  fresh : Nat := 0
  newFresh : Option Nat := none
  op : Nat := 0
  asked : Nat := 0
  askedAt : Nat := 0
  got : List Nat := []
  taken : Nat := 0
  grants : Tab Nat := []
  leadExpiry : Nat := 0
  relay : List (Nat × WarpFrame) := []
  reports : List (Nat × WarpFrame) := []
  resync : Nat := 0
  asking : Bool := false
  chunks : Nat := 0
  late : List (Nat × JRec) := []
  repairTo : Nat := 0
  handover : Option (Nat × Nat) := none
  gave : Bool := false
  sleeping : Nat := 0
  waited : Bool := false
  serving : Bool := false
  peer : Peer := {}
  deriving DecidableEq, Repr
/-- A die in Carding (R122 to R126): the nonce outstanding, the slot of the last MEASURE, whether the die answered NOT_READY to it, key failures in
this round, the die's ephemeral key, the instance's ephemeral private key for it, `K_node` as computed, whether it waits in KEYING for
a RING launch to pass (R224), whether it is to be bridged, and the MEASURED payload last accepted. -/
structure CardDie where
  nonce : List Byte := []
  measured : Nat := 0
  notReady : Bool := false
  keyFails : Nat := 0
  epk : List Byte := []
  esk : List Byte := []
  key : List Byte := []
  waiting : Bool := false
  bridge : Bool := false
  meas : List Byte := []
  deriving DecidableEq, Repr

/-- Carding (R121 to R129): whether this instance cards, whether the partner's start notice came, the ephemeral key of the cold-start
round, whether a lease was ever seen, and the dies. -/
structure Card where
  active : Bool := false
  noticed : Bool := false
  eph : Option (List Byte) := none
  dies : Tab CardDie := []
  deriving DecidableEq, Repr

/-- What a start measured and derived (R102 to R120): digests, versions, the manifest, the clamp report, the DeviceID and Alias private
values as handles, the Alias certificates, the digests of the DeviceID public keys, the loads of Spindle, and the image check that failed in this phase. -/
structure Boot where
  rom : List Byte := []
  spn : List Byte := []
  spnSvn : Nat := 0
  signer : List Byte := []
  load : Nat := 0
  size : Nat := 0
  entry : Nat := 0
  rov : List Byte := []
  rovSvn : Nat := 0
  rovEntry : Nat := 0
  man : List Byte := []
  manSvn : Nat := 0
  manifest : List Byte := []
  amvex : List Byte := []
  amvexSvn : Nat := 0
  cfg : List Byte := []
  clamp : List Byte := []
  region5Lost : Bool := false
  deviceId : Option (List Byte × List Byte) := none
  alias_ : Option (List Byte × List Byte) := none
  certs : List (List Byte) := []
  dev : List Byte × List Byte := ([], [])
  failed : Option (Nat × Status) := none
  deriving DecidableEq, Repr


/-- An entry of the update set (Table 17.3). -/
structure SetEnt where
  typ : Nat
  st : Nat
  order : Nat
  newSvn : Nat
  oldSvn : Nat
  oldDigest : List Byte
  newDigest : List Byte
  deriving DecidableEq, Repr

/-- The update record in force (Table 17.2): generation, staging session, update set. -/
structure UpdRec where
  gen : Nat := 0
  session : Nat := 0
  typ : Nat := 0
  stage : Nat := 0
  source : Nat := 0
  total : Nat := 0
  pieces : Nat := 0
  imageId : List Byte := []
  set : List SetEnt := []
  deriving DecidableEq, Repr

/-- Whom an update command's outcome goes to, with what its response frame echoes: a PENDING call, a call not yet answered, or the service port. -/
inductive UpdWho where
  | call (ticket : Nat)
  | mbox (n : Nat)
  | port
  deriving DecidableEq, Repr

structure UpdFrom where
  who : UpdWho
  cmd : Nat
  session : Nat
  index : Nat
  deriving DecidableEq, Repr

/-- The resident loader at work (R477, R479): the step it takes next, the image type, whether it falls back, read-backs failed in a row. -/
structure Loader where
  step : Nat
  typ : Nat
  back : Bool := false
  tries : Nat := 0
  origin : UpdFrom
  deriving DecidableEq, Repr

/-- A CONFIRM at work (R480): counters still to advance with their values, whether all have been, the status that ended it. -/
structure Confirm where
  left : List (Nat × Nat)
  ended : Bool := false
  st : Status := .ok
  origin : UpdFrom
  deriving DecidableEq, Repr

/-- What ROM stages in recovery (R481): session, size, identity, pieces present, whether the copy passed CHECK, whether the area was written. -/
structure Rcv where
  session : Nat := 0
  last : Nat := 0
  total : Nat := 0
  imageId : List Byte := []
  parts : Tab (List Byte) := []
  checked : Bool := false
  written : Bool := false
  deriving DecidableEq, Repr

/-- Firmware update (R463 to R482): the record in force; NOR sectors still to erase in the background; a CHECK at work; loader; CONFIRM; the
service port's frame not yet served, its response, and whether an outcome still to come may take its place; recovery. -/
structure Upd where
  record : UpdRec := {}
  erase : List Nat := []
  check : Option UpdFrom := none
  loader : Option Loader := none
  confirm : Option Confirm := none
  portIn : Option (List Byte) := none
  portOut : Option (List Byte) := none
  portWait : Bool := false
  rcv : Rcv := {}
  deriving DecidableEq, Repr


/-- One instance but for its fuse cells. `regs` lists every register whose value is not its reset value; `time` is Whorl time in
units of 4 ns (R202); `dmaStop` is the time of the first bus error of the stop in force (R313); `free` numbers the free values already taken; `tx` is everything sent, oldest first. -/
structure Chip where
  regs : Tab Word := []
  time : Nat := 0
  free : Nat := 0
  tx : List Out := []
  logs : Logs := {}
  ring : Ring := {}
  pins : Pins := {}
  pwr : Pwr := {}
  sng : Sng := {}
  dbg : Dbg := {}
  otp : Otp := {}
  lcs : Lcs := {}
  mem : Mem := {}
  cores : Cores := {}
  cfg : Tab Nat := []
  boot : Boot := {}
  card : Card := {}
  cust : Cust := {}
  whl : Whl := {}
  cry : Cry := {}
  dma : Tab DmaCh := []
  dmaStop : Nat := 0
  spdm : Spdm := {}
  hanks : Hanks := {}
  twist : Twists := {}
  ply : Ply := {}
  late : List Late := []
  upd : Upd := {}
  deriving DecidableEq, Repr

/-- Reasons an instance's step stops with a fault. -/
inductive Fault where
  /-- The name kept for an access of the block itself to an address it does not have. No meaning raises it: such an access does not complete
  (assumption 120), and every failure the spec describes is a next state. Safe. -/
  | noSuchAddress
  deriving DecidableEq, Repr

/-- Reasons a command is refused. -/
inductive Refusal where
  /-- The command has no meaning in this model yet; raised by the dispatch alone. Safe: a run ends there. -/
  | notModelled (mnemonic : String)
  deriving DecidableEq, Repr

/-- The state of the model: the instance, its fuse cells, and the commands waiting, first in first out (assumption 1). -/
structure State where
  chip : Chip
  fuses : Fuses
  pending : List Instr
  deriving DecidableEq, Repr

/-- The instance while `PORST_N` is low, after R26: every register at the reset value of Table 19.2, every volatile store empty.
The cells of the fuse array are unblown (assumption 4). -/
def State.reset : State := { chip := {}, fuses := {}, pending := [] }

end Sys2Proof.Machine
end

