-- ==== Sys2Proof/Machine/Ops.lean ====
section
/-!
DEFINITION. Operations every family shares: register and field access (R513), the event logs (R10, R514, R520), the Noil rings (R501),
the trace sources (R495 to R498), the counters (R503), free values, and what the instance sends at its ports.
-/

namespace Sys2Proof.Machine

/-! Registers. -/

/-- The value a register holds: the one listed, else its reset value. -/
def Chip.rd (c : Chip) (off : Nat) : Word := (tget? c.regs off).getD (regReset off)

/-- The register list with `w` at `off`; a register at its reset value is not listed. -/
def regPut (t : Tab Word) (off : Nat) (w : Word) : Tab Word := if w = regReset off then tdel t off else tput t off w

/-- The instance with register `off` holding `w`. -/
def Chip.wr (c : Chip) (off : Nat) (w : Word) : Chip := { c with regs := regPut c.regs off w }

/-- The offset of copy `i` of a field's register. -/
def Fld.off (f : Fld) (i : Nat) : Nat := f.base + f.stride * i

/-- The largest value a field holds. -/
def Fld.top (f : Fld) : Nat := 2 ^ (f.hi + 1 - f.lo) - 1

/-- Field `f` of copy `i`. -/
def Chip.geti (c : Chip) (f : Fld) (i : Nat) : Nat := wget f.hi f.lo (c.rd (f.off i))

/-- Field `f`. -/
def Chip.get (c : Chip) (f : Fld) : Nat := c.geti f 0

/-- Field `f` of copy `i` set to `v`, the other bits of its register kept; a copy that does not exist is not written. -/
def Chip.puti (c : Chip) (f : Fld) (i v : Nat) : Chip :=
  if i < f.count then c.wr (f.off i) (wset f.hi f.lo v (c.rd (f.off i))) else c

/-- Field `f` set to `v`. -/
def Chip.put (c : Chip) (f : Fld) (v : Nat) : Chip := c.puti f 0 v

/-- Field `f` of copy `i` raised by `n`, saturating. -/
def Chip.addi (c : Chip) (f : Fld) (i n : Nat) : Chip := c.puti f i (satAdd f.top (c.geti f i) n)

/-- Field `f` raised by `n`, saturating. -/
def Chip.add (c : Chip) (f : Fld) (n : Nat) : Chip := c.addi f 0 n

/-- The value of a pair of registers, low word at `lo` and high word at `lo + 4`. -/
def Chip.get64 (c : Chip) (lo : Nat) : Nat := (c.rd lo).toNat + 2 ^ 32 * (c.rd (lo + 4)).toNat

/-- A pair of registers set to a 64-bit value. -/
def Chip.put64 (c : Chip) (lo v : Nat) : Chip := (c.wr lo (BitVec.ofNat 32 v)).wr (lo + 4) (BitVec.ofNat 32 (v / 2 ^ 32))

/-- The register of copy `i` that holds field `f` set whole; a copy that does not exist is not written. -/
def Chip.wri (c : Chip) (f : Fld) (i : Nat) (w : Word) : Chip := if i < f.count then c.wr (f.off i) w else c

/-- The same for a pair of registers, `f` in the low one. -/
def Chip.put64i (c : Chip) (f : Fld) (i v : Nat) : Chip := if i < f.count then c.put64 (f.off i) v else c

/-- Every register from `a` up to but not including `b` back at its reset value. -/
def Chip.resetRegs (c : Chip) (a b : Nat) : Chip := { c with regs := c.regs.filter (fun e => decide (e.1 < a) || decide (b ≤ e.1)) }

/-- The same for copy `n` of `count`; a copy that does not exist has no registers. -/
def Chip.resetCopy (c : Chip) (n count a b : Nat) : Chip := if n < count then c.resetRegs a b else c

/-- Apply `f` for every listed number in turn. -/
def Chip.each {α : Type} (c : Chip) (is : List α) (f : Chip → α → Chip) : Chip := is.foldl f c

/-- Apply `f` when `b` holds. -/
def Chip.when (c : Chip) (b : Bool) (f : Chip → Chip) : Chip := if b then f c else c

/-! Identity, states and time. -/

/-- The sequencer state (R59). -/
def Chip.seq (c : Chip) : Seq := Seq.ofCode (c.get F.PWR_STATUS_SEQ_STATE)

/-- Is the Service domain on (R52)? -/
def Chip.svcOn (c : Chip) : Bool := c.seq.svcOn

/-- Is the Service domain up: switched on, locked and released from isolation (R59)? Service logs, counters and traces work then. -/
def Chip.svcUp (c : Chip) : Bool := c.seq = .service || c.seq = .active

/-- The resolved package class (R2). -/
def Chip.pkg (c : Chip) : Pkg := (Pkg.ofCode (c.get F.GEN_ID_PKG_CLASS)).getD .hx4

/-- This instance's Skein node: 64 for GGM-A, 65 for GGM-B (R28, R38). -/
def Chip.node (c : Chip) : Nat := 64 + c.get F.GEN_ID_SIDE

/-- The partner's Skein node. -/
def Chip.partnerNode (c : Chip) : Nat := 65 - c.get F.GEN_ID_SIDE

/-- The Whorl slot: 256 units of 4 ns. -/
def Chip.slot (c : Chip) : Nat := c.time / 256

/-- The life-cycle state code (Table 4.6). -/
def Chip.lcState (c : Chip) : Nat := c.get F.LCS_STATE_CURRENT

/-- The boot phase code (Table 5.1). -/
def Chip.phase (c : Chip) : Nat := c.get F.GEN_BOOT_PHASE

/-- Does this instance hold the lease; in HX4, does it serve (Table 6.14)? -/
def Chip.leads (c : Chip) : Bool := if c.pkg = .hx4 then c.phase == 0x40 else c.get F.PLY_STATUS_LEASE == 1

/-! Free values and outputs. -/

/-- A free 64-bit value, and the instance with that value taken: nothing is known of it (assumption 5). -/
def Chip.draw (c : Chip) : Nat × Chip := (Config.freeNat c.free, { c with free := c.free + 1 })

/-- `n` free bytes. -/
def Chip.drawBytes (c : Chip) (n : Nat) : List Byte × Chip :=
  ((List.range n).map (fun i => Config.freeByte c.free i), { c with free := c.free + 1 })

/-- Send something at a port. -/
def Chip.send (c : Chip) (o : Out) : Chip := { c with tx := c.tx ++ [o] }

/-- A request at the initiator port, with the `REQ_SEC` it carries (R30). -/
def Chip.portReq (c : Chip) (sec : Bool) (o : Out) : Chip := { c with pins := { c.pins with reqSec := sec } }.send o

/-! Counters (R503). -/

/-- Counter `i` raised by `n`; counters saturate at 56 bits and count only while the Service domain is on. -/
def Chip.count (c : Chip) (i n : Nat) : Chip :=
  if c.svcUp then { c with dbg := { c.dbg with cnt := tmod c.dbg.cnt i 0 (fun v => satAdd (2 ^ 56 - 1) v n) } } else c

/-- Reset to 0 every counter whose `RESET_SEL` and qualifier `ok` name this command start (R505). -/
def Chip.countReset (c : Chip) (sel : Nat) (ok : Nat → Bool) : Chip :=
  { c with dbg := { c.dbg with cnt := c.dbg.cnt.filter (fun e => !(c.geti F.DBG_CNTi_CFG_RESET_SEL e.1 == sel && ok e.1)) } }

/-! Noil rings (R501). -/

/-- Units that keep a Noil ring (Table 18.4). -/
def noilUnit (u : Nat) : Bool := (decide (1 ≤ u) && decide (u ≤ 0x10)) || u == 0x18

/-- Add an entry to a unit's ring unless the rings are frozen (R502). -/
def Chip.noil (c : Chip) (unit code : Nat) (args : List Byte) : Chip :=
  if noilUnit unit && c.get F.DBG_NOIL_STATUS_FROZEN == 0 then
    { c with dbg := { c.dbg with
        noil := tmod c.dbg.noil unit [] (fun r => newest 256 (r ++ [le 6 c.time ++ le 2 code ++ padTo 8 args])) } }
  else c

/-- The entry of a state machine's transition (R501): the chapter and table of the machine, its instance, old and new code. -/
def Chip.noilTrans (c : Chip) (unit chapter table inst old new : Nat) : Chip :=
  if old = new then c else c.noil unit 0xFFFF (pack [(1, chapter), (1, table), (3, inst), (1, old), (1, new)])

/-! Trace sources (R495 to R498). -/

/-- A trace record (R496). -/
def traceBytes (c : Chip) (t kind arg0 : Nat) (data : List Byte) : List Byte :=
  le 8 c.time ++ le 1 t ++ le 1 kind ++ le 2 arg0 ++ padTo 20 data

/-- The state of trace source `t`. -/
def Chip.trSrc (c : Chip) (t : Nat) : TraceSrc := tget c.dbg.tr t {}

/-- Trace source `t` changed. -/
def Chip.trSet (c : Chip) (t : Nat) (s : TraceSrc) : Chip := { c with dbg := { c.dbg with tr := tput c.dbg.tr t s } }

/-- A source's admission limit: 384 records while armed, 512 otherwise (R497). -/
def Chip.trLimit (c : Chip) (t : Nat) : Nat := if c.geti F.DBG_TRt_STATUS_STATE t = 2 then 384 else 512

/-- The loss record of a source's pending loss (R496). -/
def lossRec (c : Chip) (t : Nat) (s : TraceSrc) : List Byte :=
  traceBytes c t 0xFF 0 (pack [(4, min s.loss 0xFFFFFFFF), (8, s.lossAt)])

/-- A source with its pending loss record inserted, if it has one and room (R497). -/
def Chip.trLoss (c : Chip) (t limit : Nat) (s : TraceSrc) : TraceSrc :=
  if s.loss > 0 && decide (s.recs.length < limit) then { s with recs := s.recs ++ [lossRec c t s], loss := 0, lossAt := 0 } else s

/-- A source after admitting a record: after a trigger with `POST` not 0 it stops once `POST` records are in (R498). -/
def Chip.trAdmit (c : Chip) (t : Nat) (s : TraceSrc) (rec : List Byte) : Chip :=
  let s := { s with recs := s.recs ++ [rec] }
  if c.geti F.DBG_TRt_STATUS_STATE t = 3 && s.post > 0 then
    let c := c.trSet t { s with post := s.post - 1 }
    if s.post = 1 then c.puti F.DBG_TRt_STATUS_STATE t 4 else c
  else c.trSet t s

/-- A source drops a record (R497): counted, the first drop's time kept. -/
def Chip.trDrop (c : Chip) (t : Nat) (s : TraceSrc) : Chip :=
  (c.trSet t { s with loss := s.loss + 1, lossAt := if s.loss = 0 then c.time else s.lossAt }).addi F.DBG_TRt_LOST_COUNT t 1

/-- Offer a record to source `t`; the flag says it was dropped. A source that is off or stopped takes none. -/
def Chip.traceOffer (c : Chip) (t kind arg0 : Nat) (data : List Byte) : Chip × Bool :=
  if c.geti F.DBG_TRt_CTRL_EN t = 0 || c.geti F.DBG_TRt_STATUS_STATE t = 4 || !c.svcUp then (c, false)
  else
    let s := c.trLoss t (c.trLimit t) (c.trSrc t)
    if s.recs.length < c.trLimit t then (c.trAdmit t s (traceBytes c t kind arg0 data), false)
    else (c.trDrop t s, true)

/-! Event logs (R10, R514, R520). -/

/-- The AON event buffer takes a record, dropping its oldest when it holds 64 (R514). -/
def Logs.aonPush (l : Logs) (r : EvRec) : Logs :=
  if l.aon.length < 64 then { l with aon := l.aon ++ [r] }
  else { l with aon := l.aon.drop 1 ++ [r], aonWord := 0, aonLost := satAdd 0xFFFF l.aonLost 1 }

/-- The service event log takes a record, or counts it as lost when it holds 4,096 (R514). -/
def Logs.svcPush (l : Logs) (r : EvRec) : Logs :=
  if l.svc.length < 4096 then { l with svc := l.svc ++ [r] } else { l with svcLost := satAdd 0xFFFF l.svcLost 1 }

/-- The `GEN_EVT_SUM` bit an event class sets (Table 6.14). -/
def Chip.sumBit (c : Chip) (cls : Nat) : Chip :=
  match cls with
  | 1 => c.put F.GEN_EVT_SUM_NOTICE 1
  | 2 => c.put F.GEN_EVT_SUM_ERROR 1
  | 3 => c.put F.GEN_EVT_SUM_ALARM 1
  | 4 => c.put F.GEN_EVT_SUM_TAMPER 1
  | _ => c

/-- The hank an event names: byte 0 of the layouts STEP and OBJ, which the codes 0x.D.. and 0x.E.. carry (Table 19.5). -/
def evHank? (code : Nat) (args : List Byte) : Option Nat :=
  if code / 256 % 16 = 0xD || code / 256 % 16 = 0xE then some (numAt args 0 1) else none

/-- Counters 48 to 63 that count this event (Table 18.5). -/
def Chip.countEvent (c : Chip) (code : Nat) (args : List Byte) : Chip :=
  c.each ((List.range 16).map (· + 48)) (fun c i =>
    if c.geti F.DBG_CNTi_CFG_CODE i = code &&
        (c.geti F.DBG_CNTi_CFG_HANK_EN i = 0 || evHank? code args = some (c.geti F.DBG_CNTi_CFG_HANK i))
    then c.count i 1 else c)

/-- A finished record enters the logs its class and the Service domain name (R514), sets the event summary, the Noil ring of its
unit and the event counters. -/
def Chip.logRec (c : Chip) (r : EvRec) : Chip :=
  let cls := r.code / 0x1000
  let l := if c.svcUp then c.logs.svcPush r else c.logs.aonPush r
  let l := if c.svcUp && (cls = 3 || cls = 4) then l.aonPush r else l
  ((({ c with logs := l }).sumBit cls).noil (r.unit % 256) r.code r.args).countEvent r.code r.args

/-- The record of an event of this instance's unit `unit` (R10, R517). -/
def Chip.evRec (c : Chip) (code unit : Nat) (args : List Byte) : EvRec :=
  { time := c.time, unit := c.node * 256 + unit, code := code, args := padTo 20 args }

/-- The slot of the last event of a code about a subject. -/
def Logs.last? (l : Logs) (code key : Nat) : Option Nat := (l.lastAt.find? (fun e => e.1 == (code, key))).map (·.2)

/-- May an event limited to one per 1,024 slots and subject be logged now? -/
def Chip.mayLog (c : Chip) (code key : Nat) : Bool :=
  match c.logs.last? code key with
  | some t => decide (t + 1024 ≤ c.slot)
  | none => true

/-- Note that such an event was logged in this slot. -/
def Chip.noteLog (c : Chip) (code key : Nat) : Chip :=
  { c with logs := { c.logs with lastAt := ((code, key), c.slot) :: c.logs.lastAt.filter (fun e => e.1 != (code, key)) } }

/-- A record offered to trace source 13, which takes every event (Table 18.3). -/
def Chip.traceEvent (c : Chip) (r : EvRec) : Chip × Bool := c.traceOffer 13 (r.unit % 256) r.code r.args

/-- Log a drop of source `t` as event 0x1022, at most once per source in 1,024 slots (R497). -/
def Chip.logDrop (c : Chip) (t : Nat) : Chip :=
  if c.mayLog 0x1022 t then
    let r := c.evRec 0x1022 uDBG (pack [(4, (c.trSrc t).loss), (4, 0), (8, (c.trSrc t).lossAt), (4, t)])
    (((c.noteLog 0x1022 t).logRec r).traceEvent r).1
  else c

/-- Offer a record to a trace source, logging a drop (R497). -/
def Chip.trace (c : Chip) (t kind arg0 : Nat) (data : List Byte) : Chip :=
  let p := c.traceOffer t kind arg0 data
  if p.2 then p.1.logDrop t else p.1

/-- The page unit whose events trigger a source of 6 to 14 (R498); the event source 13 takes every unit (assumption 6). -/
def trUnit (t : Nat) : Option Nat :=
  match t with
  | 6 => some uBOB | 7 => some uBOB | 8 => some uWHL | 9 => some uSKN | 10 => some uPLY | 11 => some uDMA | 12 => some uCRY
  | 14 => some uPWR | _ => none

/-- Fire the trigger of an armed source (R498): pending loss record, trigger record, FIRED with the full limit; event 0x0023. -/
def Chip.fire (c : Chip) (t cause bp code : Nat) : Chip :=
  if c.geti F.DBG_TRt_STATUS_STATE t = 2 then
    let s := c.trLoss t 512 (c.trSrc t)
    let c := (c.trSet t { s with recs := s.recs ++ [traceBytes c t 0xFE 0 (pack [(1, cause), (1, bp), (2, code)])],
                                 post := c.geti F.DBG_TRt_CTRL_POST t }).puti F.DBG_TRt_STATUS_STATE t 3
    let r := c.evRec 0x0023 uDBG (pack [(1, t)])
    ((c.logRec r).traceEvent r).1
  else c

/-- The triggers an event fires (R498): its class is at least `TRIG_CLASS` of an armed source of its unit. -/
def Chip.fireEvent (c : Chip) (unit code : Nat) : Chip :=
  c.each ((List.range 9).map (· + 6)) (fun c t =>
    let k := c.geti F.DBG_TRt_CTRL_TRIG_CLASS t
    if k > 0 && decide (k ≤ code / 0x1000) && (trUnit t == some unit || t == 13) then c.fire t 3 0 code else c)

/-- Log an event of this instance (R514), with the event trace it causes; then the triggers it fires, whose own events follow it
(R10, R495, R498). -/
def Chip.log (c : Chip) (code unit : Nat) (args : List Byte) : Chip :=
  let r := c.evRec code unit args
  let p := (c.logRec r).traceEvent r
  (if p.2 then p.1.logDrop 13 else p.1).fireEvent unit code

/-- Log an event at most once per subject in 1,024 slots. -/
def Chip.logOnce (c : Chip) (code key unit : Nat) (args : List Byte) : Chip :=
  if c.mayLog code key then (c.noteLog code key).log code unit args else c

/-- Once space returns, the service event log inserts event 0x1031 with the records lost, and clears the count (R514). -/
def Chip.logLost (c : Chip) : Chip :=
  if c.logs.svcLost > 0 && decide (c.logs.svc.length < 4096) then
    let r := c.evRec 0x1031 uGEN (pack [(4, c.logs.svcLost)])
    let c := { c with logs := { c.logs with svcLost := 0 } }
    ((c.logRec r).traceEvent r).1
  else c

/-! Argument layouts (Table 19.4). -/

/-- ACCESS: address or offset, requester, write, unit of the target, status returned, detail. -/
def aAccess (addr : Nat) (req : Nat) (wr : Bool) (unit st detail : Nat) : List Byte :=
  pack [(8, addr), (1, req), (1, b2n wr), (1, unit), (1, st), (4, detail), (3, 0), (1, 0)]

/-- CLAMP: register offset, value written, value kept, requester, low bit of the field. -/
def aClamp (off wrote kept req lo : Nat) : List Byte :=
  pack [(4, off), (4, wrote), (4, kept), (1, req), (1, lo), (5, 0), (1, 1)]

/-- BOBBIN: Bobbin, epoch, status, byte 9, whether byte 9 is a node, the limit delivered, launch number, last four bytes. -/
def aBobbin (id epoch st b9 : Nat) (isNode : Bool) (limit launch last : Nat) : List Byte :=
  pack [(4, id), (4, epoch), (1, st), (1, b9), (1, b2n isNode), (1, limit), (4, launch), (4, last)]

/-- LAUNCH: number, entry, state code, hanks, count, slot *L*, grace *G*. -/
def aLaunch (num entry st hanks count l g : Nat) : List Byte :=
  pack [(4, num), (1, entry), (1, st), (2, hanks), (4, count), (4, l), (4, g)]

/-- ALIGN: signed difference, alignment state, marker source, signed cross-package offset, slots without a marker. -/
def aAlign (diff : Int) (st src : Nat) (off : Int) (missed : Nat) : List Byte :=
  pack [(2, (diff % 65536).toNat), (1, st), (1, src), (8, (off % (2 ^ 64)).toNat), (4, missed)]

/-- WORD: word address, flags, region, resolved value, operation or phase, status, decision code or target, record or counter. -/
def aWord (addr flags region value op st dec num : Nat) : List Byte :=
  pack [(2, addr), (1, flags), (1, region), (4, value), (1, op), (1, st), (1, dec), (1, num)]

/-- FRAME: type, source, destination or channel, flags, sequence, ring key epoch, link, result, count. -/
def aFrame (typ src dst flags seq rkey link result count : Nat) : List Byte :=
  pack [(1, typ), (1, src), (1, dst), (1, flags), (8, seq), (2, rkey), (1, link), (1, result), (3, min count 16777215), (1, 0)]

/-- CARD: node, Carding state, status, field failed, ring key epoch, attempts, first 12 bytes of the value received. -/
def aCard (node st status field rkey attempts : Nat) (v : List Byte) : List Byte :=
  pack [(1, node), (1, st), (1, status), (1, field), (2, rkey), (1, attempts), (1, 0)] ++ padTo 12 v

/-- CORE: core, cause, state code, comparator group, program counter, last four bytes. -/
def aCore (core cause st group pc last : Nat) : List Byte :=
  pack [(1, core), (1, cause), (1, st), (1, group), (8, pc), (4, last)]

/-- CHAN: number, kind, status, requester, address, index or class, cause, flags, count. -/
def aChan (num kind st req addr idx cause flags count : Nat) : List Byte :=
  pack [(1, num), (1, kind), (1, st), (1, req), (8, addr), (2, idx), (1, cause), (1, flags), (4, count)]

/-- RANGE: Bobbin, tree or sub-unit, cause, status, byte offset, pages or version. -/
def aRange (id tree cause st off pages : Nat) : List Byte :=
  pack [(4, id), (2, tree), (1, cause), (1, st), (8, off), (4, pages)]

/-- STEP: hank, die, strand, step, code, status, count, number. -/
def aStep (hank die strand step code st count num : Nat) : List Byte :=
  pack [(1, hank), (1, die), (2, strand), (8, step), (1, code), (1, st), (2, count), (4, num)]

/-- OBJ: hank, kind, owner index, status, sequence number or session, first 12 bytes of a digest. -/
def aObj (hank kind owner st seq : Nat) (d : List Byte) : List Byte :=
  pack [(1, hank), (1, kind), (1, owner), (1, st), (4, seq)] ++ padTo 12 d

/-- LINK: Ply state, partner code, grants held, reason, lease number, expiry slot, mirror sequence. -/
def aLink (st partner grants reason lease expiry mseq : Nat) : List Byte :=
  pack [(1, st), (1, partner), (1, grants), (1, reason), (4, lease), (4, expiry), (8, mseq)]

/-- IMAGE: type, failing step, status, phase, SVN or piece, first 12 bytes of the body digest. -/
def aImage (typ step st phase n : Nat) (d : List Byte) : List Byte :=
  pack [(1, typ), (1, step), (1, st), (1, phase), (4, n)] ++ padTo 12 d

/-- COUNT: count, second count, Whorl time of the first, number. -/
def aCount (a b t n : Nat) : List Byte := pack [(4, a), (4, b), (8, t), (4, n)]

/-! State machines shown in registers. -/

/-- The sequencer moves to a state (R59), noted in the Noil ring and trace source 14. -/
def Chip.setSeq (c : Chip) (q : Seq) : Chip :=
  let old := c.get F.PWR_STATUS_SEQ_STATE
  ((c.put F.PWR_STATUS_SEQ_STATE q.code).noilTrans uPWR 3 4 0 old q.code).trace 14 1 0 (pack [(1, old), (1, q.code)])

/-- The state of Crypto group `g` (R61): 0 OFF, 1 WAKING, 2 ON, 3 FAILED. -/
def Chip.grp (c : Chip) (g : Nat) : Nat := bitsOf (c.get F.PWR_GRP_STATUS_STATE) (2 * g + 1) (2 * g)

/-- Group `g` moves to a state. -/
def Chip.setGrp (c : Chip) (g st : Nat) : Chip :=
  let old := c.grp g
  let w := c.get F.PWR_GRP_STATUS_STATE
  let c := c.when (st == 1) (fun c => c.count 45 1)
  ((c.put F.PWR_GRP_STATUS_STATE (w - old * 4 ^ g + st * 4 ^ g)).noilTrans uPWR 3 5 g old st).trace 14 2 0
    (pack [(1, g), (1, old), (1, st)])

/-! Lifting to the model's state. -/

/-- A meaning that changes the instance and not its fuse cells. -/
def State.on (s : State) (f : Chip → Chip) : Host.Outcome State Fault Refusal := .next { s with chip := f s.chip }

/-- A meaning that reads the fuse cells and changes only the instance. -/
def State.onF (s : State) (f : Fuses → Chip → Chip) : Host.Outcome State Fault Refusal := .next { s with chip := f s.fuses s.chip }

/-- A meaning that changes the fuse cells as well. -/
def State.both (s : State) (f : Fuses → Chip → Fuses × Chip) : Host.Outcome State Fault Refusal :=
  .next { s with fuses := (f s.fuses s.chip).1, chip := (f s.fuses s.chip).2 }

end Sys2Proof.Machine
end

