-- ==== Sys2Proof/Machine/OtpOps.lean ====
section
/-!
DEFINITION. The fuse array and what is read from it: margins and resolution (R69 to R71), scrambling and roots (R72), completion
digests (R73), life-cycle records (R92, R93), anti-rollback counters (R96), and programming cells (R81, R82, R86).
-/

namespace Sys2Proof.Machine

/-! Words as sensed. -/

/-- The first lock-row word's number. -/
def lockBase : Nat := 4096

/-- A word's cells. -/
def Fuses.at (fu : Fuses) (a : Nat) : Cells := tget fu.cells a {}

/-- The eight-bit columns of weight three, of which a Hsiao code of eight check bits over 32 data bits takes 32 different ones (R69). -/
def eccColumns : List Nat := (List.range 256).filter (fun x => ((List.range 8).filter (bit x)).length == 3)

/-- One column for each data bit, each different: which is the part's matrix, which the spec does not give. -/
def eccPick (bits cols : List Nat) : List Nat :=
  match bits with
  | [] => []
  | i :: rest =>
    let k := Config.eccColumn i % cols.length
    cols.getD k 0 :: eccPick rest (cols.eraseIdx k)

/-- The check bits of 32 data bits: the sum of the columns of the bits set, so that one wrong bit is corrected and two are detected; a blank word is a valid codeword (R69). -/
def ecc (d : Nat) : Nat :=
  if d = 0 then 0
  else (eccPick (List.range 32) eccColumns).zipIdx.foldl (fun x p => if bit d p.2 then Nat.xor x p.1 else x) 0

/-- The 40 bits of a data word with its check bits. -/
def eccWord (d : Nat) : Nat := d % 2 ^ 32 + 2 ^ 32 * ecc (d % 2 ^ 32)

/-- Is a raw 40-bit word a codeword? -/
def eccOk (raw : Nat) : Bool := raw / 2 ^ 32 == ecc (raw % 2 ^ 32)

/-- The data of a raw word and its flags: none when clean, `CORRECTED` when one bit was wrong, `UNCORR` and data 0 otherwise. -/
def eccDecode (raw : Nat) : Nat × Nat :=
  if eccOk raw then (raw % 2 ^ 32, 0)
  else
    match (List.range 40).find? (fun i => eccOk (withBit raw i (!bit raw i))) with
    | some i => (withBit raw i (!bit raw i) % 2 ^ 32, 1)
    | none => (0, 4)

/-- The value on which at least two of three copies agree in each bit. -/
def maj3 (a b c : Nat) : Nat := Nat.lor (Nat.lor (Nat.land a b) (Nat.land a c)) (Nat.land b c)

/-- `MARGINAL`: tight and loose differ in some bit (R70). -/
def Cells.marginal (w : Cells) : Bool := w.tight != w.loose

/-- The lock row resolved (Table 4.3): per bit at least two copies blown at the loose margin; quench when any one is. -/
def Fuses.lockRow (fu : Fuses) : Nat :=
  let l0 := (fu.at 4096).loose
  let l1 := (fu.at 4097).loose
  let l2 := (fu.at 4098).loose
  withBit (maj3 l0 l1 l2) 16 (bit l0 16 || bit l1 16 || bit l2 16)

/-- The package class field: the value on which at least two copies agree after correction, uncorrectable copies apart. -/
def Fuses.classField (fu : Fuses) : Option Nat :=
  let d := [6, 7, 8].map (fun a => eccDecode (fu.at a).normal)
  let vs := (d.filter (fun p => p.2 != 4)).map (·.1)
  vs.find? (fun v => decide (2 ≤ vs.count v))

/-- Do the copies of the class field differ after correction (an uncorrectable copy differs)? -/
def Fuses.classDiffer (fu : Fuses) : Bool :=
  let d := [6, 7, 8].map (fun a => (let p := eccDecode (fu.at a).normal; (p.1, p.2 == 4)))
  !(d.all (fun p => p == d.headD (0, false)))

/-- Copy 0 of a bit-coded word of region 4 (R96). -/
def arbCopy0 (a : Nat) : Nat := (a - 2048) / 24 * 24 + (a - 2048) % 8 + 2048

/-- A word of region 4 resolved, per bit, by its three copies at the loose margin. -/
def Fuses.bitWord (fu : Fuses) (a : Nat) : Nat :=
  if a < 2048 + 96 then
    maj3 (fu.at (arbCopy0 a)).loose (fu.at (arbCopy0 a + 8)).loose (fu.at (arbCopy0 a + 16)).loose
  else (fu.at a).loose

/-- The shadow a three-margin sense of one word gives (Table 4.3). -/
def Fuses.resolve (fu : Fuses) (a : Nat) : Shadow :=
  let w := fu.at a
  let mf := if w.marginal then 2 else 0
  if lockBase ≤ a then { raw := w.normal, value := fu.lockRow, flags := mf, marginal := w.marginal }
  else if a / 512 = 4 then { raw := w.normal, value := fu.bitWord a, flags := mf, marginal := w.marginal }
  else
    let d := eccDecode w.normal
    if 6 ≤ a && a ≤ 8 then
      { raw := w.normal, value := fu.classField.getD ((fu.at 6).normal % 2 ^ 32),
        flags := d.2 + mf + (if fu.classDiffer then 16 else 0), marginal := w.marginal }
    else { raw := w.normal, value := d.1, flags := d.2 + mf, marginal := w.marginal }

/-! The shadows. -/

/-- The shadow of a word. -/
def Otp.sh (o : Otp) (a : Nat) : Shadow := tget o.shadow a {}

/-- The lock row as last sensed. -/
def Otp.lockBit (o : Otp) (i : Nat) : Bool := bit (o.sh lockBase).value i

/-- Quench resolves blown (Table 4.3). -/
def Otp.quenched (o : Otp) : Bool := o.lockBit 16

/-- Region `r` is write-locked, read-locked (Table 4.2). -/
def Otp.wlock (o : Otp) (r : Nat) : Bool := o.lockBit r
def Otp.rlock (o : Otp) (r : Nat) : Bool := o.lockBit (8 + r)

/-- A region contributes no field after an integrity failure unless it was repaired (R75). -/
def Otp.dead (o : Otp) (r : Nat) : Bool := o.failed.contains r

/-- The resolved value of a word as its consumers see it. -/
def Otp.val (o : Otp) (a : Nat) : Nat := if o.dead (a / 512) then 0 else (o.sh a).value

/-- `n` words as bytes, each little-endian. -/
def Otp.bytes (o : Otp) (a n : Nat) : List Byte := ((List.range n).map (fun i => le 4 (o.val (a + i)))).flatten

/-- A word as it enters the completion digest of its region (R73). -/
def Otp.digestWord (o : Otp) (a : Nat) : Nat :=
  if a / 512 = 2 && bit (o.sh a).flags 2 then (o.sh a).raw % 2 ^ 32 else (o.sh a).value

/-- The completion digest of a region computed from the shadows (R73). -/
def Otp.digest (o : Otp) (r : Nat) : List Byte :=
  Config.sha3_256 (BitVec.ofNat 8 r :: ((List.range 504).map (fun i => le 4 (o.digestWord (512 * r + i)))).flatten)

/-- Words 504 to 511 of a region as stored. -/
def Otp.storedDigest (o : Otp) (r : Nat) : List Byte :=
  ((List.range 8).map (fun i => le 4 (o.sh (512 * r + 504 + i)).value)).flatten

/-- The scramble of a region-2 word (R72): the first 4 bytes of SHAKE256 over the netlist constant and the word address. -/
def scramble (a : Nat) : Nat := ofLe (Config.shake256 (Config.netlist ++ le 2 a) 4) % 2 ^ 32

/-- Word `k` of root `i` (Table 4.3): the common value of three copies neither marginal nor uncorrectable, none otherwise. -/
def Otp.rootWord (o : Otp) (i k : Nat) : Option Nat :=
  let cs := [0, 1, 2].map (fun j => 1024 + 24 * i + 8 * j + k)
  let vs := cs.map (fun a => Nat.xor (o.sh a).value (scramble a))
  if cs.all (fun a => !bit (o.sh a).flags 1 && !bit (o.sh a).flags 2) && vs.all (fun v => v == vs.headD 0) then vs.head? else none

/-- Was region 2 ever generated? -/
def Otp.rootsMade (o : Otp) : Bool := o.shadow.any (fun e => e.1 / 512 == 2 && (e.2.raw != 0 || e.2.marginal))

/-- Root `i` passed integrity: every word is common to its copies, the region stands locked with its digest (R74, R85). -/
def Otp.rootGood (o : Otp) (i : Nat) : Bool :=
  !o.quenched && o.wlock 2 && !o.dead 2 && (List.range 8).all (fun k => (o.rootWord i k).isSome)

/-- `LCS_ROOTS.GOOD` (Table 4.16). -/
def Otp.goodMask (o : Otp) : Nat := maskOf ((List.range 4).filter o.rootGood)

/-- The 32 bytes of root `i`. -/
def Otp.root (o : Otp) (i : Nat) : List Byte := ((List.range 8).map (fun k => le 4 ((o.rootWord i k).getD 0))).flatten

/-- The root a life-cycle state selects (Table 4.6). -/
def rootOf (st : Nat) : Option Nat :=
  match st with
  | 1 => some 0 | 2 => some 0 | 3 => some 1 | 4 => some 2 | 5 => some 2 | 6 => some 3 | _ => none

/-- The value of anti-rollback counter `k` (R96): one more than the highest position resolved as blown. -/
def Otp.arb (o : Otp) (k : Nat) : Nat :=
  (List.range 256).foldl (fun v p => if bit (o.sh (2048 + 24 * k + p / 32)).value (p % 32) then p + 1 else v) 0

/-! Life-cycle records (R92, R93). -/

/-- The transitions of Table 4.7. -/
def lcAllowed (src tgt : Nat) : Bool :=
  match src, tgt with
  | 0, 1 => true | 1, 2 => true | 2, 1 => true | 1, 3 => true | 1, 4 => true | 4, 5 => true | 3, 6 => true | 4, 6 => true
  | 0, 7 => true | 1, 7 => true | 2, 7 => true | 3, 7 => true | 4, 7 => true | 5, 7 => true | 6, 7 => true
  | _, _ => false

/-- The address of a record's intent copy `j` (0 to 2) or done copy `j` (3 to 5). -/
def recAddr (k j : Nat) : Nat := 512 + 8 + 6 * k + j

/-- The intent and done words of record `k` (Table 4.8). -/
def intentWord (k src tgt : Nat) : Nat := 0x1C000000 + k * 2 ^ 16 + src * 2 ^ 12 + tgt * 2 ^ 8 + 0xA5
def doneWord (k src tgt : Nat) : Nat := 0xD0000000 + k * 2 ^ 16 + src * 2 ^ 12 + tgt * 2 ^ 8 + 0x5A

/-- A word is blank: no cell reads blown at any margin. -/
def Otp.blank (o : Otp) (a : Nat) : Bool := (o.sh a).raw == 0 && !(o.sh a).marginal

/-- A record word's value when it is neither marginal nor uncorrectable. -/
def Otp.sound (o : Otp) (a : Nat) : Option Nat :=
  if bit (o.sh a).flags 1 || bit (o.sh a).flags 2 then none else some (o.sh a).value

/-- The source and target of an intent copy that decodes (R92). -/
def Otp.intentCopy (o : Otp) (k j : Nat) : Option (Nat × Nat) :=
  match o.sound (recAddr k j) with
  | some v =>
    if v = intentWord k (bitsOf v 15 12) (bitsOf v 11 8) && lcAllowed (bitsOf v 15 12) (bitsOf v 11 8)
    then some (bitsOf v 15 12, bitsOf v 11 8) else none
  | none => none

/-- The intent of record `k`: present when at least one copy decodes. -/
def Otp.intent (o : Otp) (k : Nat) : Option (Nat × Nat) := [0, 1, 2].findSome? (o.intentCopy k)

/-- The done field of record `k` is present: at least two copies decode and match the intent. -/
def Otp.done (o : Otp) (k : Nat) : Bool :=
  match o.intent k with
  | some (s, t) => decide (2 ≤ ([3, 4, 5].filter (fun j => o.sound (recAddr k j) == some (doneWord k s t))).length)
  | none => false

/-- All six words of record `k` are blank. -/
def Otp.recBlank (o : Otp) (k : Nat) : Bool := (List.range 6).all (fun j => o.blank (recAddr k j))

/-- A record whose intent copies are not all blank and none decodes is void. -/
def Otp.recVoid (o : Otp) (k : Nat) : Bool := !(List.range 3).all (fun j => o.blank (recAddr k j)) && (o.intent k).isNone

/-- What the records say (R93). -/
structure Derived where
  state : Nat
  pending : Option Nat
  bad : Bool
  used : Nat
  deriving DecidableEq, Repr

/-- One turn of the loop of R93; `stop` has been reached when the flag is set. -/
def Otp.deriveStep (o : Otp) (p : Derived × Bool) (k : Nat) : Derived × Bool :=
  if p.2 || p.1.bad then p
  else if o.recBlank k then (p.1, true)
  else if o.recVoid k then ({ p.1 with used := k + 1 }, false)
  else if p.1.pending.isSome then ({ p.1 with bad := true, used := k + 1 }, false)
  else
    match o.intent k with
    | none => ({ p.1 with bad := true, used := k + 1 }, false)
    | some (s, t) =>
      if s != p.1.state then ({ p.1 with bad := true, used := k + 1 }, false)
      else if o.done k then ({ p.1 with state := t, used := k + 1 }, false)
      else ({ p.1 with pending := some k, used := k + 1 }, false)

/-- The life-cycle state the records give (R93). -/
def Otp.derive (o : Otp) : Derived :=
  ((List.range 32).foldl o.deriveStep ({ state := 0, pending := none, bad := false, used := 0 }, false)).1

/-! Programming cells. -/

/-- Blow one cell: it reads blown at every margin. A cell is never returned to 0 (R68). -/
def Fuses.blow (fu : Fuses) (p : Nat × Nat) : Fuses :=
  { fu with cells := tmod fu.cells p.1 {} (fun w =>
      { tight := withBit w.tight p.2 true, normal := withBit w.normal p.2 true, loose := withBit w.loose p.2 true }) }

/-- A pulse cut short leaves its cell as `r` says (R82). -/
def Fuses.cut (fu : Fuses) (p : Nat × Nat) (r : CellRead) : Fuses :=
  match r with
  | .unblown => fu
  | .weak => { fu with cells := tmod fu.cells p.1 {} (fun w => { w with loose := withBit w.loose p.2 true }) }
  | .blown => fu.blow p

/-- Blow cells in order. -/
def Fuses.blowAll (fu : Fuses) (ps : List (Nat × Nat)) : Fuses := ps.foldl Fuses.blow fu

/-- The cells of a word that a target asks for and that do not yet read blown at the tight margin, lowest first (R81). -/
def Fuses.missing (fu : Fuses) (a target : Nat) : List (Nat × Nat) :=
  ((List.range 40).filter (fun i => bit target i && !bit (fu.at a).tight i)).map (fun i => (a, i))

/-- Every cell reading blown at the loose margin is also blown in the target (R81, step 2). -/
def Fuses.fits (fu : Fuses) (a target : Nat) : Bool := (List.range 40).all (fun i => !bit (fu.at a).loose i || bit target i)

/-- A bit of the lock row in L0, L1 and L2, in that order, where not yet blown. -/
def Fuses.lockCells (fu : Fuses) (i : Nat) : List (Nat × Nat) :=
  ([4096, 4097, 4098].filter (fun a => !bit (fu.at a).tight i)).map (fun a => (a, i))

/-- The shadows of the listed words sensed again at three margins (R81, R82): the words of `own` take the flag `extra`; the others, resolved with
them, keep `PARTIAL` as it was. -/
def Otp.refresh (o : Otp) (fu : Fuses) (ws own : List Nat) (extra : Nat) : Otp :=
  ws.foldl (fun o a =>
    { o with shadow := tput o.shadow a { fu.resolve a with
        flags := (fu.resolve a).flags + (if own.contains a then extra else 8 * b2n (bit (o.sh a).flags 3)) } }) o

/-- The words a list of cells touches, and the words resolved together with them. -/
def touched (ps : List (Nat × Nat)) : List Nat :=
  let ws := (ps.map (·.1)).dedup
  (ws.flatMap (fun a =>
    if lockBase ≤ a then [4096, 4097, 4098]
    else if 6 ≤ a && a ≤ 8 then [6, 7, 8]
    else if a / 512 = 4 && decide (a < 2048 + 96) then [arbCopy0 a, arbCopy0 a + 8, arbCopy0 a + 16]
    else [a])).dedup

/-- The page's mirrors of the shadows: lock and integrity nibbles, counters, quench, good roots (Table 4.14). -/
def Chip.otpMirror (c : Chip) : Chip :=
  let o := c.otp
  let c := c.each (List.range 8) (fun c r =>
    let nib := bitsOf (c.rd R.OTP_REGION).toNat (4 * r + 3) (4 * r)
    c.wr R.OTP_REGION (wset (4 * r + 3) (4 * r)
      (nib / 8 * 8 + (if o.dead r then 0 else 4) + 2 * b2n (o.rlock r) + b2n (o.wlock r)) (c.rd R.OTP_REGION)))
  let c := c.each (List.range 4) (fun c k =>
    (c.puti F.OTP_ARBn_VALUE k (o.arb k)).puti F.OTP_ARBn_SATURATED k (b2n (o.arb k == 256)))
  ((c.put F.OTP_STATUS_QUENCHED (b2n o.quenched)).put F.LCS_STATE_QUENCHED (b2n o.quenched)).put F.LCS_ROOTS_GOOD o.goodMask

/-- The instance after the listed cells' words were sensed again. -/
def Chip.otpRefresh (c : Chip) (fu : Fuses) (ps : List (Nat × Nat)) (extra : Nat) : Chip :=
  ({ c with otp := c.otp.refresh fu (touched ps) (ps.map Prod.fst) extra }).otpMirror

/-- Log a WORD event about a word (Table 19.4): the value is 0 for region 2 and the lock row. -/
def Chip.logWord (c : Chip) (code a op st dec num : Nat) : Chip :=
  let s := c.otp.sh a
  c.log code uOTP (aWord a s.flags (if lockBase ≤ a then 0xFF else a / 512)
    (if lockBase ≤ a || a / 512 = 2 then 0 else s.value) op st dec num)

/-- The same of a transition, under the life-cycle unit (Table 19.5). -/
def Chip.logLcs (c : Chip) (code a op st dec num : Nat) : Chip :=
  c.log code uLCS (aWord a (c.otp.sh a).flags (a / 512) (c.otp.sh a).value op st dec num)

/-- The `OP` code of a program (Table 4.5). -/
def OtpKind.op (k : OtpKind) : Nat :=
  match k with
  | .progWord => 2 | .progDigest => 3 | .lockWrite => 4 | .lockRead => 5 | .lockWriteRaw => 6 | .genRoots => 7 | .arbAdvance => 8
  | _ => 0

/-- Is a program one of the life-cycle machine's (R94)? -/
def OtpKind.lcs (k : OtpKind) : Bool :=
  match k with
  | .lcsIntent => true | .lcsAction => true | .lcsDone => true | .lcsQuench => true | _ => false

/-- An OTP command ends with a result (R80): `RESULT`, `DONE`, no longer busy. -/
def Chip.otpEnd (c : Chip) (st : Status) (partialWord : Bool) : Chip :=
  (((({ c with otp := { c.otp with job := none } }).put F.OTP_STATUS_RESULT st.code).put F.OTP_STATUS_BUSY 0).put
    F.OTP_STATUS_DONE 1).put F.OTP_STATUS_PARTIAL (b2n partialWord)

/-- A program is cut short by the zeroize line or a quench: a command ends with ZEROIZED, a transition stays in its phase
(R86, R449, Table 4.9). The cut pulse is settled against the cells afterwards. -/
def Chip.otpCut (c : Chip) (quench : Bool) : Chip :=
  let c := match c.otp.audit with
    | some _ => (({ c with otp := { c.otp with audit := none } }).put F.OTP_AUDIT_RES_STATUS Status.zeroized.code).put
        F.OTP_AUDIT_RES_RUNNING 0 |>.put F.OTP_STATUS_BUSY 0
    | none => c
  match c.otp.job with
  | none => c
  | some j =>
    if j.kind.lcs then
      if quench && j.kind != .lcsQuench then
        (((({ c with otp := { c.otp with job := none, cut := some j } }).put F.LCS_STATUS_RESULT Status.zeroized.code).put
          F.LCS_STATUS_BUSY 0).put F.OTP_STATUS_BUSY 0).put F.OTP_STATUS_PARTIAL (b2n (!j.cells.isEmpty))
      else c
    else ({ c with otp := { c.otp with cut := some j } }).otpEnd .zeroized true

/-- The cells of a cut program as the three-margin refresh finds them: how many were done and how the cut cell reads is free
(R82, assumption 7); the word is flagged `PARTIAL`. A quench is completed by the reservoir (R55). -/
def settleCut (fu : Fuses) (c : Chip) : Fuses × Chip :=
  match c.otp.cut with
  | none => (fu, c)
  | some j =>
    let d := c.draw
    let n := if j.kind = .lcsQuench then j.cells.length else d.1 % max 1 j.cells.length
    let e := d.2.draw
    let r := if e.1 % 3 = 0 then CellRead.unblown else if e.1 % 3 = 1 then .weak else .blown
    let fu' := (fu.blowAll (j.cells.take n)).cut (j.cells.getD n (0, 0)) r
    let fu' := if n < j.cells.length then fu' else fu.blowAll j.cells
    let c := { e.2 with otp := { e.2.otp with cut := none } }
    let c := c.otpRefresh fu' (j.cells.take (n + 1)) 0
    (fu', c.otpRefresh fu' ((j.cells.drop n).take 1) 8)

/-- A meaning that may cut a fuse pulse short: the cut is settled against the cells. -/
def State.onCut (s : State) (f : Chip → Chip) : Host.Outcome State Fault Refusal :=
  s.both (fun fu c => settleCut fu (f c))

end Sys2Proof.Machine
end

