-- ==== Sys2Proof/Machine/Drbg.lean ====
section
/-!
DEFINITION. The entropy sources' blocks and the DRBG (R60, R280, R283, R284): instantiation, reseeds and requests. A source's samples are free.
-/

namespace Sys2Proof.Machine

/-- The Crypto cluster changed. -/
def Chip.cr (c : Chip) (f : Cry → Cry) : Chip := { c with cry := f c.cry }

/-- The state of entropy source `i`: 0 OK, 1 RETEST, 2 CALIBRATING, 3 FAILED. -/
def Chip.entSt (c : Chip) (i : Nat) : Nat := c.get (if i = 0 then F.CRY_ENT_STATE0 else F.CRY_ENT_STATE1)

/-- An entropy source's state set. -/
def Chip.entSet (c : Chip) (i st : Nat) : Chip := c.put (if i = 0 then F.CRY_ENT_STATE0 else F.CRY_ENT_STATE1) st

/-- Are both sources FAILED? -/
def Chip.entGone (c : Chip) : Bool := c.entSt 0 == 3 && c.entSt 1 == 3

/-- Does a source give the DRBG nothing while ENT_RAW reads its raw samples (R488)? -/
def Chip.entRaw (c : Chip) (i : Nat) : Bool := c.dbg.jtag == 0x22 && c.dbg.entSource == i

/-- Can no source give a reseed: each FAILED or under ENT_RAW? -/
def Chip.entNone (c : Chip) : Bool := (c.entSt 0 == 3 || c.entRaw 0) && (c.entSt 1 == 3 || c.entRaw 1)

/-- Does a source deliver blocks? -/
def Chip.entGives (c : Chip) (i : Nat) : Bool := c.entSt i == 0 && !c.entRaw i

/-- A block of a source (R280): SHA3-256 of 1,024 consecutive samples. -/
def Chip.entSample (c : Chip) : List Byte × Chip := let d := c.drawBytes 128; (padTo 32 (Config.sha3_256 d.1), d.2)

/-- A block taken from a source: the oldest it buffers, else one conditioned now. -/
def Chip.entBlock (c : Chip) (i : Nat) : List Byte × Chip :=
  match tget c.cry.ent i [] with
  | b :: bs => (b, c.cr (fun u => { u with ent := tput u.ent i bs }))
  | [] => c.entSample

/-- Every source that delivers and buffers fewer than four blocks conditions one more. -/
def Chip.entFill (c : Chip) : Chip :=
  c.each ((List.range 2).filter c.entGives) (fun c i =>
    if (tget c.cry.ent i []).length < 4 then
      (let b := c.entSample; b.2.cr (fun u => { u with ent := tput u.ent i (tget u.ent i [] ++ [b.1]) }))
    else c)

/-- The entropy input (R283): 192 bits of a block of each source, or of two blocks of the one that delivers. -/
def Chip.entInput (c : Chip) : List Byte × Chip :=
  let a := c.entBlock (if c.entGives 0 || !c.entGives 1 then 0 else 1)
  let b := a.2.entBlock (if c.entGives 1 || !c.entGives 0 then 1 else 0)
  (a.1.take 24 ++ b.1.take 24, b.2)

/-- A (re)seed counted: from both sources, or from one alone while the other gives none (`SINGLE`). -/
def Chip.drbgSeeded (c : Chip) (seed : List Byte) : Chip :=
  ((c.put F.CRY_DRBG_STATUS_GEN_SINCE 0).put F.CRY_DRBG_STATUS_SINGLE (b2n (!c.entGives 0 || !c.entGives 1))).cr
    (fun u => { u with reseedAt := c.slot, seed := seed })

/-- A reseed. -/
def Chip.drbgSeed (c : Chip) : Chip := let e := c.entInput; e.2.drbgSeeded (Config.drbgReseed c.cry.seed e.1)

/-- The personalisation string (R283): the instance serial, `GEN_ID.SIDE` and the Whorl time. -/
def Chip.drbgPers (c : Chip) : List Byte := pack [(4, c.otp.val 0), (4, c.otp.val 1), (1, c.get F.GEN_ID_SIDE), (8, c.time)]

/-- Instantiation (R283). -/
def Chip.drbgStart (c : Chip) : Chip :=
  let e := c.entInput
  ((e.2.drbgSeeded (Config.drbgInit e.1 c.drbgPers)).put F.CRY_DRBG_STATUS_READY 1).put F.CRY_DRBG_STATUS_ERROR 0

/-- After a first failure of its known-answer tests the DRBG instantiates again, once (R284). -/
def Chip.drbgAgain (c : Chip) : Chip := if c.svcUp && c.cry.kat = 1 then c.drbgStart.cr (fun u => { u with kat := 2 }) else c

/-- Does a request reseed first? -/
def Chip.reseedDue (c : Chip) (pr : Bool) : Bool :=
  pr || decide (c.get F.CRY_DRBG_CFG_RESEED_REQS ≤ c.get F.CRY_DRBG_STATUS_GEN_SINCE) ||
    decide (c.cry.reseedAt + c.get F.CRY_DRBG_CFG_RESEED_SLOTS ≤ c.slot)

/-- A generate request: refused with INTEGRITY in ERROR, or with both sources FAILED once a reseed falls due. -/
def Chip.rngReq (c : Chip) (n : Nat) (pr : Bool) : Status × List Byte × Chip :=
  let c := if c.get F.CRY_DRBG_STATUS_READY = 0 && c.get F.CRY_DRBG_STATUS_ERROR = 0 then c.drbgStart else c
  if c.get F.CRY_DRBG_STATUS_ERROR = 1 || (c.reseedDue pr && c.entNone) then
    (.integrity, [], c.put F.CRY_DRBG_STATUS_LAST Status.integrity.code)
  else
    let c := if c.reseedDue pr then c.drbgSeed else c
    let r := Config.drbgNext c.cry.seed n
    let c := c.cr (fun u => { u with seed := r.2, kat := 0 })
    (.ok, padTo n r.1, (((c.add F.CRY_DRBG_STATUS_GEN_SINCE 1).put F.CRY_DRBG_STATUS_LAST 0).count 14 1))

/-- `n` DRBG bytes for an engine or for Spindle; what a unit takes in their place when the request is refused is free (assumption 145). -/
def Chip.rndWith (c : Chip) (n : Nat) (pr : Bool) : List Byte × Chip :=
  let r := c.rngReq n pr
  if r.1 = .ok then (r.2.1, r.2.2) else r.2.2.drawBytes n

/-- `n` DRBG bytes. -/
def Chip.rnd (c : Chip) (n : Nat) : List Byte × Chip := c.rndWith n false

/-- `n` DRBG bytes with prediction resistance (`GEN_ROOTS`, `K_blob`, ring keys, Tally mask keys). -/
def Chip.rndPr (c : Chip) (n : Nat) : List Byte × Chip := c.rndWith n true

end Sys2Proof.Machine
end

