-- ==== Sys2Proof/Machine/Memory.lean ====
section
/-!
DEFINITION. The instance's memories: Spindle SRAM (1 MiB), Roving SRAM (6 MiB) and the NOR device (64 MiB), each a list of
(address, byte) pairs in one canonical form: addresses strictly rising, no entry equal to what an unlisted address reads as.
SRAM reads 0 where nothing was written (ROM zeroes it, R102); NOR reads 0xFF where it is blank.
-/

namespace Sys2Proof.Machine

/-- The byte a memory holds at an address, `d` where nothing is listed. -/
def memRd (d : Byte) (m : List Host.Cell) (a : Nat) : Byte := (tget? m a).getD d

/-- The memory with byte `b` at address `a`, kept canonical. -/
def memWr (d : Byte) (m : List Host.Cell) (a : Nat) (b : Byte) : List Host.Cell := if b = d then tdel m a else tput m a b

/-- `n` bytes from address `a`. -/
def memRds (d : Byte) (m : List Host.Cell) (a n : Nat) : List Byte := (List.range n).map (fun i => memRd d m (a + i))

/-- Bytes written from address `a` upward. -/
def memWrs (d : Byte) (m : List Host.Cell) (a : Nat) (bs : List Byte) : List Host.Cell :=
  match bs with
  | [] => m
  | b :: bs => memWrs d (memWr d m a b) (a + 1) bs

/-- Is a memory in canonical form? -/
def memWf (d : Byte) (m : List Host.Cell) : Bool := Tab.sorted m && m.all (fun e => e.2 != d)

/-- A program into NOR only clears bits: each byte becomes the AND of what it held and what is programmed. -/
def norProg (m : List Host.Cell) (a : Nat) (bs : List Byte) : List Host.Cell :=
  match bs with
  | [] => m
  | b :: bs => norProg (memWr 0xFF#8 m a (memRd 0xFF#8 m a &&& b)) (a + 1) bs

/-- Every byte from `a` up to but not including `b` erased to what an unlisted address reads as. -/
def memClear (m : List Host.Cell) (a b : Nat) : List Host.Cell := m.filter (fun e => decide (e.1 < a) || decide (b ≤ e.1))

/-- Does NOR read blank over `n` bytes from `a`? -/
def norBlank (m : List Host.Cell) (a n : Nat) : Bool := m.all (fun e => decide (e.1 < a) || decide (a + n ≤ e.1))

/-- Read `n` bytes of Spindle SRAM. -/
def Chip.spnRd (c : Chip) (a n : Nat) : List Byte := memRds 0#8 c.mem.spn a n

/-- Write Spindle SRAM; a write that does not lie inside it does not complete (R135). -/
def Chip.spnWr (c : Chip) (a : Nat) (bs : List Byte) : Chip :=
  if a + bs.length ≤ 0x100000 then { c with mem := { c.mem with spn := memWrs 0#8 c.mem.spn a bs } } else c

/-- Read `n` bytes of Roving SRAM. -/
def Chip.rovRd (c : Chip) (a n : Nat) : List Byte := memRds 0#8 c.mem.rov a n

/-- Write Roving SRAM; a poisoned word written whole is no longer poisoned (R138). -/
def Chip.rovWr (c : Chip) (a : Nat) (bs : List Byte) : Chip :=
  if a + bs.length ≤ 0x600000 then
    { c with mem := { c.mem with
        rov := memWrs 0#8 c.mem.rov a bs
        poison := c.mem.poison.filter (fun w => !(decide (a ≤ w) && decide (w + 8 ≤ a + bs.length))) } }
  else c

/-- Read `n` bytes of NOR. -/
def Chip.norRd (c : Chip) (a n : Nat) : List Byte := memRds 0xFF#8 c.mem.nor a n

/-- Program NOR. -/
def Chip.norWr (c : Chip) (a : Nat) (bs : List Byte) : Chip :=
  if a + bs.length ≤ 0x4000000 then { c with mem := { c.mem with nor := norProg c.mem.nor a bs } } else c

/-- Erase NOR from `a` up to but not including `b`. -/
def Chip.norErase (c : Chip) (a b : Nat) : Chip := { c with mem := { c.mem with nor := memClear c.mem.nor a b } }

end Sys2Proof.Machine
end

