-- ==== Sys2Proof/Machine/CryBase.lean ====
section
/-!
DEFINITION. Crypto channels, digest contexts and accumulators as every domain uses them (R266 to R278, R288, R293): key registers, the
write-back of a descriptor, the erasure of a context, and what the zeroize line does.
-/

namespace Sys2Proof.Machine

/-! Lanes. -/

/-- The lane states of a class, two bits a lane, and its lanes (Table 10.13): lattice, ECC, Keccak, SHA-2, AES, Tally. -/
def laneField (cls : Nat) : Fld :=
  match cls with
  | 0 => F.CRY_LANES0_LAT | 1 => F.CRY_LANES0_ECC | 2 => F.CRY_LANES1_KEC | 3 => F.CRY_LANES0_SHA2 | 4 => F.CRY_LANES0_AES | _ => F.CRY_LANES1_TLY

/-- Lanes of a class. -/
def laneCount (cls : Nat) : Nat := match cls with | 0 => 4 | 1 => 4 | 2 => 8 | 3 => 2 | 4 => 4 | _ => 1

/-- The engine group of a class. -/
def laneGroup (cls : Nat) : Nat := match cls with | 0 => 4 | 1 => 3 | 2 => 1 | 3 => 1 | 4 => 2 | _ => 5

/-- The unit of a class's events (Table 19.5). -/
def laneUnit (cls : Nat) : Nat := if cls = 5 then uTLY else uCRY

/-- The state of a lane (Table 10.9): 0 IN_ROTATION, 1 DRAINING, 2 TESTING, 3 FAILED. -/
def Chip.laneSt (c : Chip) (cls l : Nat) : Nat := bitsOf (c.get (laneField cls)) (2 * l + 1) (2 * l)

/-- Lanes of a class in rotation. -/
def Chip.laneFree (c : Chip) (cls : Nat) : List Nat := (List.range (laneCount cls)).filter (fun l => c.laneSt cls l == 0)

/-! Channels. -/

/-- Crypto channel `n` beyond its registers. -/
def Chip.ch (c : Chip) (n : Nat) : CryCh := tget c.cry.ch n {}

/-- Crypto channel `n` changed. -/
def Chip.chMod (c : Chip) (n : Nat) (f : CryCh → CryCh) : Chip := c.cr (fun u => { u with ch := tmod u.ch n {} f })

/-- The owner's requester number: channels 0 to 7, and those not granted, are Spindle's (R266). -/
def Chip.chOwner (c : Chip) (n : Nat) : Nat :=
  if n < 8 || c.geti F.CRY_CHn_CFG_OWNER n = 0 then 0xFF else c.geti F.CRY_CHn_CFG_OWNER n

/-- Is the channel Spindle's? -/
def Chip.chSpn (c : Chip) (n : Nat) : Bool := c.chOwner n == 0xFF

/-- Key register `r` of a channel. -/
def Chip.chKey (c : Chip) (n r : Nat) : CKey := tget (c.ch n).keys r {}

/-- A key register written; `CRY_CHn_KEYS` shows its type and seal. -/
def Chip.chKeySet (c : Chip) (n r : Nat) (k : CKey) : Chip :=
  let w := c.geti F.CRY_CHn_KEYS_REG n
  (c.chMod n (fun u => { u with keys := if k.typ = 0 then tdel u.keys r else tput u.keys r k })).puti F.CRY_CHn_KEYS_REG n
    (w - bitsOf w (4 * r + 3) (4 * r) * 16 ^ r + (8 * b2n k.isSealed + k.typ) * 16 ^ r)

/-- The owner's SRAM written at an offset. -/
def Chip.ownWr (c : Chip) (owner a : Nat) (bs : List Byte) : Chip :=
  if bs.isEmpty then c else if owner = 0xFF then c.spnWr a bs else c.rovWr a bs

/-- The byte of the owner's SRAM at an offset. -/
def Chip.ownByte (c : Chip) (owner a : Nat) : Nat := (if owner = 0xFF then memRd 0#8 c.mem.spn a else memRd 0#8 c.mem.rov a).toNat

/-- `n` bytes of the owner's SRAM from an offset. -/
def Chip.ownRd (c : Chip) (owner a n : Nat) : List Byte := if owner = 0xFF then c.spnRd a n else c.rovRd a n

/-- The address of a descriptor of a channel's ring. -/
def Chip.chDesc (c : Chip) (n idx : Nat) : Nat := c.geti F.CRY_CHn_BASE_OFF n * 64 + 64 * idx

/-- The descriptor at a channel's `HEAD`, as its owner's SRAM holds it (R267, Table 10.2). -/
def Chip.chRead (c : Chip) (n : Nat) : CryDesc :=
  let b := c.ownRd (c.chOwner n) (c.chDesc n (c.geti F.CRY_CHn_HEAD_IDX n)) 48
  { op := numAt b 0 1, flags := numAt b 1 1, key := numAt b 2 1, cls := numAt b 3 1, inOff := numAt b 4 4, inLen := numAt b 8 4, auxOff := numAt b 12 4,
    auxLen := numAt b 16 4, outOff := numAt b 20 4, outLen := numAt b 24 4, arg := numAt b 28 4, zero := numAt b 34 2 }

/-- The write-back of a descriptor (Table 10.2): `STATUS`, `ITER`, `OUT_USED`, `TIME`, then `OWN` cleared. -/
def Chip.chBack (c : Chip) (n idx flags : Nat) (st : Status) (iter used : Nat) : Chip :=
  let a := c.chDesc n idx
  let o := c.chOwner n
  let c := (c.ownWr o (a + 32) (pack [(1, st.code), (1, min iter 255)])).ownWr o (a + 36) (pack [(4, used), (8, c.time)])
  let c := c.ownWr o (a + 1) (le 1 (withBit flags 0 false))
  if st = .ok then c else c.puti F.CRY_CHn_STATUS_LAST_ERR n st.code

/-- The interrupt of a channel's owner. -/
def Chip.chIrq (c : Chip) (unit base n owner : Nat) : Chip :=
  if owner = 0xFF then c.send (.irqSpindle unit n)
  else if 0xF0 ≤ owner && owner < 0xF6 then c.send (.irqRoving (owner - 0xF0) (base + n)) else c

/-- A descriptor in flight completes: its output, destination key and write-back, the trace record and the interrupt (R268). -/
def Chip.chDone (c : Chip) (n : Nat) (f : Flight) (st : Status) (iter : Nat) : Chip :=
  let o := c.chOwner n
  let c := c.chMod n (fun u => { u with fl := u.fl.filter (fun g => g.idx != f.idx) })
  let c := c.puti F.CRY_CHn_STATUS_INFLIGHT n (c.ch n).fl.length
  let c := c.ownWr o f.desc.outOff f.out
  let c := match f.key with | some k => (if st = Status.ok then c.chKeySet n (bitsOf f.desc.key 5 4) k else c) | none => c
  let c := c.chBack n f.idx f.desc.flags st iter f.used
  let c := c.trace 12 2 0 (pack [(1, f.desc.op), (1, withBit f.desc.flags 0 false), (1, f.desc.key), (1, f.desc.cls), (1, st.code), (1, min iter 255),
    (2, 0), (4, f.used), (8, c.time)])
  if bit f.desc.flags 1 then c.chIrq uCRY 64 n o else c

/-- Every descriptor in flight on a channel ends without a result; its output reads zero after the zeroize line (R293). -/
def Chip.chEnd (c : Chip) (n : Nat) (st : Status) : Chip :=
  c.each (c.ch n).fl (fun c f => c.chDone n { f with out := if st = .zeroized then List.replicate f.desc.outLen 0#8 else [], used := 0, key := none } st 0)

/-- A channel's key registers erased. -/
def Chip.chErase (c : Chip) (n : Nat) : Chip := (c.chMod n (fun u => { u with keys := [] })).puti F.CRY_CHn_KEYS_REG n 0

/-- Ring slots from `HEAD` up to `TAIL`. -/
def ringSlots (head tail size : Nat) : List Nat :=
  (List.range ((tail + size - head) % size)).map (fun i => (head + i) % size)

/-- A channel is taken back or its owner fenced (R143, R293): key registers erased, queued descriptors written back with FENCED, and a
granted channel returns to Spindle. -/
def Chip.chTake (c : Chip) (n : Nat) : Chip :=
  let c := (c.chEnd n .fenced).chErase n
  let o := c.chOwner n
  let left := ringSlots (c.geti F.CRY_CHn_HEAD_IDX n) (c.geti F.CRY_CHn_TAIL_IDX n) (2 ^ c.geti F.CRY_CHn_CFG_LOG2 n)
  let c := c.each (left.filter (fun i => bit (c.ownByte o (c.chDesc n i + 1)) 0)) (fun c i => c.chBack n i (c.ownByte o (c.chDesc n i + 1)) .fenced 0 0)
  if n < 8 then c
  else c.resetCopy n 32 (R.CRY_CHn_BASE n) (R.CRY_CHn_BASE (n + 1))

/-! Digest contexts. -/

/-- A context beyond its registers. -/
def Chip.cx (c : Chip) (n : Nat) : DgtCtx := tget c.cry.ctx n {}

/-- A context changed. -/
def Chip.cxMod (c : Chip) (n : Nat) (f : DgtCtx → DgtCtx) : Chip := c.cr (fun u => { u with ctx := tmod u.ctx n {} f })

/-- The state code of a context (Table 10.5). -/
def Chip.cxSt (c : Chip) (n : Nat) : Nat := c.geti F.DGT_CTXn_STATUS_STATE n

/-- A context's bit in `DGT_ACTIVE`. -/
def Chip.cxActive (c : Chip) (n : Nat) (b : Bool) : Chip :=
  if n < 32 then c.put F.DGT_ACTIVE_LO_CTX (withBit (c.get F.DGT_ACTIVE_LO_CTX) n b)
  else c.put F.DGT_ACTIVE_HI_CTX (withBit (c.get F.DGT_ACTIVE_HI_CTX) (n - 32) b)

/-- A context goes to FREE: state, buffer and result erased. -/
def Chip.cxFree (c : Chip) (n : Nat) : Chip :=
  ((c.resetCopy n 64 (R.DGT_CTXn_CTRL n) (R.DGT_CTXn_CTRL (n + 1))).cr (fun u => { u with ctx := if (c.cx n).early then tput u.ctx n { early := true } else tdel u.ctx n })).cxActive n false

/-- A context's grant bit. -/
def Chip.cxGranted (c : Chip) (n : Nat) : Bool :=
  if n < 32 then bit (c.get F.DGT_GRANT_LO_CTX) n else bit (c.get F.DGT_GRANT_HI_CTX) (n - 32)

/-- A context's grant to a core, or its return to Spindle, which erases it (Table 10.5). -/
def Chip.cxGrant (c : Chip) (n : Nat) (to_ : Option Nat) : Chip :=
  let b := to_.isSome
  let c := if n < 32 then c.put F.DGT_GRANT_LO_CTX (withBit (c.get F.DGT_GRANT_LO_CTX) n b)
    else c.put F.DGT_GRANT_HI_CTX (withBit (c.get F.DGT_GRANT_HI_CTX) (n - 32) b)
  match to_ with
  | some r => c.cr (fun u => { u with holder := tput u.holder n r })
  | none => (if c.cxSt n = 0 then c else c.cxFree n).cr (fun u => { u with holder := tdel u.holder n })

/-! Accumulators. -/

/-- An accumulator beyond its registers. -/
def Chip.ac (c : Chip) (n : Nat) : TlyAcc := tget c.cry.acc n {}

/-- An accumulator changed. -/
def Chip.acMod (c : Chip) (n : Nat) (f : TlyAcc → TlyAcc) : Chip := c.cr (fun u => { u with acc := tmod u.acc n {} f })

/-- The state code of an accumulator (Table 10.6). -/
def Chip.acSt (c : Chip) (n : Nat) : Nat := c.geti F.TLY_ACCn_STATUS_STATE n

/-- An accumulator goes to FREE: sums, mask key and result erased. -/
def Chip.acFree (c : Chip) (n : Nat) : Chip :=
  (((((c.puti F.TLY_ACCn_STATUS_STATE n 0).puti F.TLY_ACCn_STATUS_RESULT n 0).puti F.TLY_ACCn_RECEIVED_MASK n 0).puti F.TLY_ACCn_SAT_COUNT n 0).puti
    F.TLY_ACCn_NAN_COUNT n 0).cr (fun u => { u with acc := if (c.ac n).early then tput u.acc n { early := true } else tdel u.acc n })

/-- ABORT of an accumulator (Table 10.6); an ADD that runs on it ends. -/
def Chip.acAbort (c : Chip) (n : Nat) : Chip :=
  let c := if c.acSt n = 2 then c.put F.TLY_STATUS_BUSY 0 else c
  if c.acSt n = 0 then c else c.acFree n

/-- A hank's accumulators aborted (Table 10.11). -/
def Chip.tallyAbort (c : Chip) (h : Nat) : Chip :=
  c.each ((List.range 8).filter (fun n => c.acSt n != 0 && c.geti F.TLY_ACCn_CFG_HANK n == h)) Chip.acAbort

/-! The zeroize line. -/

/-- The zeroize line in the Crypto cluster (R60, R293, Table 16.3): operations end with ZEROIZED, key registers, contexts, accumulators
and the DRBG's state are erased. -/
def Chip.cryZero (c : Chip) : Chip :=
  let c := c.each (c.cry.ch.map (·.1)) (fun c n => (c.chEnd n .zeroized).chErase n)
  let c := c.each (c.cry.ctx.map (·.1)) Chip.cxFree
  let c := if c.get F.TLY_STATUS_BUSY = 1 then (c.put F.TLY_STATUS_BUSY 0).put F.TLY_STATUS_LAST Status.zeroized.code else c
  let c := c.each (c.cry.acc.map (·.1)) Chip.acFree
  (c.put F.CRY_DRBG_STATUS_READY 0).cr (fun u => { u with seed := [], ent := [], seeds := [] })

end Sys2Proof.Machine
end

