-- ==== Sys2Proof/Machine/JournalBase.lean ====
section
/-!
DEFINITION. The bytes of journal records and their programming into NOR (R181, R182, R184).
-/

namespace Sys2Proof.Machine

/-- Record positions and the NOR address of one (R182, Table 5.2). -/
def jPositions : Nat := 1048576
def jAddr (pos : Nat) : Nat := 0x01900000 + 32 * (pos % jPositions)

/-- A record with its CRC. -/
def jSeal (b : List Byte) : List Byte := b ++ le 4 (crc32c b)

/-- The records of a group, 32 bytes each (Tables 7.8, 7.9). -/
def JRec.bytes (r : JRec) : List (List Byte) :=
  jSeal (pack [(8, r.jseq), (1, r.op), (1, 128 * b2n r.fresh + r.parts.length), (1, r.hank), (1, r.cls), (4, r.first), (4, r.last),
    (4, r.value), (4, r.arg)]) ::
  (List.range r.parts.length).map (fun i =>
    jSeal (pack [(8, r.jseq + 1 + i), (1, 0x1F), (1, i), (2, 0)] ++ padTo 16 (r.parts.getD i [])))

/-- How many positions a group takes. -/
def JRec.size (r : JRec) : Nat := 1 + r.parts.length

/-- A page's bytes programmed into NOR. -/
def Chip.jBurn (c : Chip) (page : List (Nat × JRec)) (noise : List Byte) : Chip :=
  c.each page (fun c e => c.each (List.range e.2.size) (fun c i =>
    c.norWr (jAddr (e.1 + i)) ((e.2.bytes.getD i []).zipWith (· ||| ·) (noise ++ List.replicate 32 0#8))))

/-- A page program cut by the loss of the domain leaves bits free (R184): each byte has its record's bits and free others. -/
def Chip.jTear (c : Chip) : Chip :=
  if c.cust.jrnl.page.isEmpty then c
  else
    let d := c.drawBytes 32
    let c := d.2.jBurn c.cust.jrnl.page d.1
    { c with cust := { c.cust with jrnl := { c.cust.jrnl with page := [] } } }

end Sys2Proof.Machine
end

