-- ==== Sys2Proof/Machine/UpdBase.lean ====
section
/-!
DEFINITION. The NOR places of firmware update (R463), and what the loss of the domain leaves where the loader or a background erase
was at work.
-/

namespace Sys2Proof.Machine

/-- The NOR area of an image type (Table 5.2): offset and size. -/
def imgArea (typ : Nat) : Nat × Nat :=
  match typ with
  | 1 => (0x00010000, 0x40000) | 2 => (0x00100000, 0x800000) | 3 => (0x00050000, 0x10000) | _ => (0x00060000, 0x20000)

/-- Its retained place (Table 17.1). -/
def imgRetained (typ : Nat) : Nat × Nat :=
  match typ with
  | 1 => (0x03900000, 0x40000) | 2 => (0x01100000, 0x800000) | 3 => (0x03940000, 0x10000) | _ => (0x00080000, 0x20000)

/-- The incoming image, the record's sectors, the piece table (Table 17.1). -/
def incoming : Nat := 0x00900000
def updSector (b : Bool) : Nat := if b then 0x000B1000 else 0x000B0000
def pieceAddr (i : Nat) : Nat := 0x000B2000 + 64 * i

/-- The update state changed. -/
def Chip.up (c : Chip) (f : Upd → Upd) : Chip := { c with upd := f c.upd }

/-- A range of NOR left with free contents. -/
def Chip.norTorn (c : Chip) (a n : Nat) : Chip :=
  let d := c.drawBytes n
  (d.2.norErase a (a + n)).norWr a d.1

/-- An erase or program in progress is cut by the loss of the domain (R465, R478): its range reads as free bytes. -/
def Chip.updTear (c : Chip) : Chip :=
  let c := match c.upd.erase with
    | a :: _ => c.norTorn a 4096
    | [] => c
  match c.upd.loader with
  | some l =>
    if l.step = 2 then c.norTorn (imgRetained l.typ).1 (imgRetained l.typ).2
    else if l.step = 3 || l.step = 4 || l.step = 13 then c.norTorn (imgArea l.typ).1 (imgArea l.typ).2
    else c
  | none => c

end Sys2Proof.Machine
end

