-- ==== Sys2Proof/Machine/Domain.lean ====
section
/-!
DEFINITION. What switches off, erases and holds an instance: the Splice hold (R45), the zeroize line (R449), the loss of the Service
and Crypto domains (R26, Table 3.9), quench requests (R86), HELD (R59, R502), instance failure (R139), and Snag's answer to a
decision (R446 to R450).
-/

namespace Sys2Proof.Machine

/-! The Splice (Table 2.7). -/

/-- The Splice moves to a state. -/
def Chip.setSplice (c : Chip) (q : Splice) : Chip := { c with ring := { c.ring with splice := q } }

/-- A cause of R45: the hold falls and an open Splice begins to close. -/
def Chip.spliceDrop (c : Chip) : Chip :=
  let c := { c with pins := { c.pins with spliceHold := false } }
  match c.ring.splice with
  | .opening => c.setSplice .closing
  | .inRing => c.setSplice .closing
  | _ => c

/-! The zeroize line and the loss of the Service domain. -/

/-- Spindle SRAM above the code is cleared (Table 16.3). -/
def Chip.clearSpnData (c : Chip) : Chip :=
  { c with mem := { c.mem with spn := memClear c.mem.spn (c.get F.COR_SPN_CTRL_CODE_TOP * 4096) 0x100000 } }

/-- The ring key and its receive state are gone (R47, Table 16.3). -/
def Chip.clearRingKey (c : Chip) : Chip := { c with ring := { c.ring with key := none, old := none } }

/-- The keys of the Custody cluster, the Ply link, Carding, DICE and sessions are gone (Table 16.3); Custody commands in flight end. -/
def Chip.clearKeys (c : Chip) : Chip :=
  let c := if c.cust.cmds.isEmpty then c else c.put F.BOB_STATUS_LAST_ERR Status.zeroized.code
  let c := { c with
    cust := { c.cust with keys := {}, node := [], cache := [], cmds := [], waitGrp := [], blobReads := [], loads := [] },
    hanks := { c.hanks with tab := c.hanks.tab.map (fun (e : Nat × Hank) => (e.1, { e.2 with shares := [] })) },
    ply := { c.ply with holds := c.ply.holds.filter (fun h => match h.eff with | .hankKey _ _ => false | _ => true), keys := none, newKeys := none, eph := [], kem := [] },
    card := { c.card with eph := none, dies := c.card.dies.map (fun (e : Nat × CardDie) => (e.1, { e.2 with esk := [], key := [] })) },
    boot := { c.boot with deviceId := none, alias_ := none },
    whl := { c.whl with newRing := none },
    spdm := { sess := [] } }
  (((c.put F.LCS_ROOTS_SELECTED 0).resetRegs R.DST_STATUS R.DST_CACHE_CTRL).resetRegs R.DST_CACHE_STAT (R.DST_HANKn 16))

/-- PENDING calls end with ZEROIZED (Table 16.3). -/
def Chip.callsZero (c : Chip) : Chip :=
  { c with cores := { c.cores with
      pend := []
      notices := c.cores.pend.foldl (fun (t : Tab (List Notice)) (e : Nat × PendCall) => tmod t e.2.core []
        (· ++ [{ call := e.2.call, tag := e.2.tag, status := Status.zeroized.code, ticket := e.1, used := 0 }])) c.cores.notices } }

/-- Entries of each ring. -/
def Chip.cqSize (c : Chip) : Nat := 2 ^ c.get F.BOB_CQ_CFG_LOG2

/-- Is there room for a completion? -/
def Chip.cplRoom (c : Chip) : Bool :=
  decide ((c.get F.BOB_CPL_TAIL_IDX + 1) % c.cqSize ≠ c.get F.BOB_CPL_HEAD_IDX)

/-- Write held completions while the ring has room. -/
def Chip.cplDrain (c : Chip) (n : Nat) : Chip :=
  match n with
  | 0 => c
  | n + 1 =>
    match c.cust.held with
    | [] => c
    | b :: bs =>
      if c.cplRoom then
        let t := c.get F.BOB_CPL_TAIL_IDX
        let c := c.spnWr (c.get F.BOB_CPL_BASE_ADDR * 16 + 16 * t) b
        Chip.cplDrain (({ c with cust := { c.cust with held := bs } }).put F.BOB_CPL_TAIL_IDX ((t + 1) % c.cqSize)) n
      else c

/-- Add a completion or a notice; it waits behind a full ring (R173, R259). -/
def Chip.complete (c : Chip) (b : List Byte) (irq : Bool) : Chip :=
  let c := Chip.cplDrain { c with cust := { c.cust with held := c.cust.held ++ [b] } } (c.cust.held.length + 1)
  if irq && c.get F.BOB_CTRL_CPL_IRQ_EN = 1 then c.send (.irqSpindle uBOB 0) else c

/-- A Custody command that the zeroize line ends completes with ZEROIZED (Table 7.13). -/
def Chip.cmdZero (c : Chip) (r : CmdRun) : Chip :=
  let at_ := (r.left ++ r.bad.map (·.1)).foldl min (if r.left.isEmpty && r.bad.isEmpty then r.first else 0xFFFFFFFF)
  c.complete (pack [(2, r.tag), (1, r.op), (1, Status.zeroized.code), (4, r.done), (4, at_), (4, 0)]) r.irq

/-- The zeroize line (R449, Table 16.3): keys erased, operations in flight ended with ZEROIZED. -/
def Chip.zeroize (c : Chip) : Chip :=
  ((((c.clearRingKey.clearKeys).cryZero).callsZero.clearSpnData).each c.cust.cmds Chip.cmdZero).otpCut false

/-- The Service pages at their reset values: every page a Service reset clears (R47, R131, R162, R199, R200, R227, R294 to R296, R319,
R380, R443, R510), but for GEN_ID, GEN_STATUS, GEN_EVT_SUM, GEN_EVT_EN (R160), GEN_BOOT_TIME (R131),
MBN_GEN (R151), WHL_TIME_HI (R227) and DBG_NOIL_STATUS (R502). -/
def Chip.svcPages (c : Chip) : Chip :=
  let keep := [R.DBG_NOIL_STATUS, R.MBN_GEN, R.WHL_TIME_HI].map (fun a => (a, c.rd a))
  let c := c.resetRegs 0x10 0x14
  let c := c.resetRegs 0x18 0x1000
  let c := c.resetRegs 0x5000 0x20000
  c.each keep (fun c p => c.wr p.1 p.2)

/-- The Service and Crypto domains lose their state (R26, R48, Table 3.9). -/
def Chip.svcLost (c : Chip) : Chip :=
  let running := (List.range 6).any (fun k => c.geti F.COR_CORE_STATUSn_STATE k != 0)
  let c := c.spliceDrop.jTear.updTear.svcPages
  let c := if running then c.put F.GEN_EVT_SUM_CORE 1 else c
  let c := { c with
    cores := {}, cfg := [], boot := { region5Lost := c.boot.region5Lost }, card := {}, cust := {}, whl := { hold := c.whl.hold }, cry := {}, dma := [], spdm := {}, hanks := {}, twist := {},
    ply := {}, late := [], upd := {}, sng := { c.sng with bcTime := 0 },
    ring := { splice := c.ring.splice, forced := c.ring.forced },
    mem := { nor := c.mem.nor },
    dbg := { noil := c.dbg.noil, jtag := c.dbg.jtag },
    pwr := { c.pwr with cryTries := 0 } }
  (((c.put F.LCS_ROOTS_SELECTED 0).put F.PWR_STATUS_CRY_PLL_LOCK 0).put F.PWR_STATUS_SVC_PLL_LOCK 0).put F.PWR_GRP_STATUS_STATE 0

/-- Every Noil ring stops recording, with a cause (R502). -/
def Chip.freezeNoil (c : Chip) (cause : Nat) : Chip :=
  if c.get F.DBG_NOIL_STATUS_FROZEN = 0 then (c.put F.DBG_NOIL_STATUS_FROZEN 1).put F.DBG_NOIL_STATUS_CAUSE cause else c

/-- A phase change is timed in µs since `PORST_N` (R131). -/
def Chip.bootTime (c : Chip) : Chip := c.put F.GEN_BOOT_TIME_US (min 0xFFFFFFFF (c.pwr.age / 250))

/-- Entry to HELD (R59, R502): the Service domain goes, the rings freeze. -/
def Chip.enterHeld (c : Chip) (noilCause : Nat) : Chip :=
  if c.seq = .held then c else ((((c.setSeq .held).freezeNoil noilCause).svcLost).put F.GEN_BOOT_PHASE 0xF0).bootTime

/-- An instance failure (R139): erase, HELD, then the event in the AON buffer. -/
def Chip.instFail (c : Chip) (code unit : Nat) (args : List Byte) : Chip :=
  ((c.zeroize.freezeNoil 3).enterHeld 3).log code unit args

/-! Quench (R86). -/

/-- The `QUENCH` cells still to blow, in order. -/
def quenchCells : List (Nat × Nat) := [(4096, 16), (4097, 16), (4098, 16)]

/-- A requested quench starts: the pulse of any other operation is ended and that operation ends with ZEROIZED. -/
def Chip.quenchStart (c : Chip) : Chip :=
  let c := c.otpCut true
  ({ c with otp := { c.otp with quenching := true } }).log 0x3403 uOTP
    (aWord 4096 0 0xFF 0 0 Status.zeroized.code 0 0)

/-- A quench request from Snag or the life-cycle machine: skipped when quench is blown, started once `RSV_READY` is 1 (R86, R110). -/
def Chip.quenchRequest (c : Chip) : Chip :=
  if c.otp.quenched || c.otp.quenching then c
  else
    let c := c.put F.SNG_STATUS_QUENCH_REQ 1
    if c.get F.PWR_STATUS_RSV_READY = 1 then c.quenchStart else c

/-- The quench cells not yet blown although quench resolves blown are blown once `VIN_FUSE_OK` is 1 (R87). -/
def Chip.quenchFill (c : Chip) (fu : Fuses) : Chip :=
  if c.otp.quenched && !c.otp.quenching && c.otp.job.isNone && c.get F.PWR_STATUS_VIN_FUSE_OK = 1 &&
      quenchCells.any (fun p => !bit (fu.at p.1).tight p.2)
  then { c with otp := { c.otp with quenching := true } } else c

/-! Snag (R445 to R458). -/

/-- The class of a cause (Table 16.1): 1 A, 2 B, 3 C. -/
def causeClass (code : Nat) : Nat := code / 16 + 1

/-- The bit of a cause in `SNG_CAUSE` (Table 16.1). -/
def causeBit (code : Nat) : Nat :=
  match causeClass code with
  | 1 => code - 1
  | 2 => 8 + code - 0x10
  | _ => 16 + code - 0x20

/-- States in which a Class B decision is downgraded (R447). -/
def Seq.quiet (q : Seq) : Bool :=
  match q with
  | .sleepEntry => true | .sleep => true | .shutdown => true | .held => true | _ => false

/-- One of the three totals (R457): base plus since-start count once `BASE_LOCK` is set, 0xFFFF_FFFF before. -/
def Chip.total (c : Chip) (i since : Nat) : Nat :=
  if c.get F.SNG_CTRL_BASE_LOCK = 0 then 0xFFFFFFFF
  else satAdd 0xFFFFFFFF (c.rd (R.SNG_BASE_x i)).toNat since

/-- The argument bytes of a Snag record (Table 16.4). -/
def Chip.snagArgs (c : Chip) (code cause flags reading : Nat) : List Byte :=
  let head := pack [(1, cause), (1, flags), (2, reading % 65536), (1, c.get F.PWR_STATUS_SEQ_STATE), (1, c.phase)]
  let tot := pack [(4, c.total 0 (c.get F.SNG_SINCE_A)), (4, c.total 1 (c.get F.SNG_SINCE_B)), (4, c.total 2 (c.get F.SNG_SINCE_C))]
  let pre := pack [(8, c.time), (2, c.node * 256 + uSNG), (2, code)]
  head ++ le 2 (crc16 (pre ++ head ++ tot)) ++ tot

/-- The bytes of an event record (Table 0.6). -/
def EvRec.bytes (r : EvRec) : List Byte := le 8 r.time ++ le 2 r.unit ++ le 2 r.code ++ padTo 20 r.args

/-- A position of the tamper log (R456). -/
def tamperAddr (i : Nat) : Nat := 0x000A0000 + 32 * (i % 2048)

/-- Spindle keeps 64 blank positions ahead of `NEXT` by erasing the oldest sector (R459). -/
def Chip.tamperRoom (c : Chip) : Chip :=
  let p := (c.get F.SNG_LOG_NEXT + 63) % 2048
  if norBlank c.mem.nor (tamperAddr p) 32 then c else c.norErase (0xA0000 + p / 128 * 4096) (0xA0000 + p / 128 * 4096 + 4096)

/-- Spindle writes a record to the tamper log (R459). -/
def Chip.tamperWrite (c : Chip) (r : EvRec) : Chip :=
  let n := c.get F.SNG_LOG_NEXT
  ((c.norWr (tamperAddr n) r.bytes).put F.SNG_LOG_NEXT ((n + 1) % 2048)).tamperRoom

/-- Log a Class C record: at most once per cause in 1,024 slots; Spindle writes it to the log once the totals are known (R446, R459). -/
def Chip.snagC (c : Chip) (cause flags reading : Nat) (limited : Bool) : Chip :=
  if !limited || c.mayLog 0x4003 cause then
    let args := c.snagArgs 0x4003 cause flags reading
    let r := c.evRec 0x4003 uSNG args
    let c := ((if limited then c.noteLog 0x4003 cause else c).log 0x4003 uSNG args)
    if c.svcUp && c.get F.SNG_CTRL_BASE_LOCK = 1 then c.tamperWrite r else c
  else c

/-- Bit 3 and bit 1 of a decision's `FLAGS` (Table 16.4): AON on RC, before the root load. -/
def Chip.snagFlags (c : Chip) : Nat := 8 * c.get F.PWR_STATUS_ON_RC + (if c.get F.SNG_STATUS_ARMED = 1 then 0 else 2)

/-- `ZEROIZE_OUT_N` driven low for 16 µs, or low until `PORST_N` (R450). -/
def Chip.driveOut (c : Chip) (z : ZOut) : Chip :=
  if c.pins.zeroizeOut = .low then c
  else ({ c with pins := { c.pins with zeroizeOut := z } }).put F.SNG_STATUS_OUT_LOW (if z = ZOut.high then 0 else 1)

/-- The answer to a decision of class `act` (R447, Table 16.2); `rec` is its record, for the writer of R458. -/
def Chip.snagAnswer (c : Chip) (act : Nat) (rec : EvRec) : Chip :=
  if act = 3 then c
  else
    let armed := c.get F.SNG_STATUS_ARMED = 1 && c.seq.svcOn
    let c := c.when armed Chip.zeroize
    let c := if act = 1 then (c.driveOut .low).quenchRequest else (c.driveOut .pulse).put F.SNG_STATUS_HELD_B 1
    let c := if armed then { c with sng := { c.sng with writer := some rec } } else c
    c.enterHeld 1

/-- The count of a class in `SNG_SINCE` raised by one, saturating. -/
def Chip.since (c : Chip) (cls : Nat) : Chip :=
  c.add (if cls = 1 then F.SNG_SINCE_A else if cls = 2 then F.SNG_SINCE_B else F.SNG_SINCE_C) 1

/-- `SNG_LAST` after a decision (Table 16.8). -/
def Chip.snagLast (c : Chip) (cause flags cls : Nat) : Chip :=
  (if 2 ≤ cls then { c with sng := { c.sng with bcTime := c.time } } else c).wr R.SNG_LAST (BitVec.ofNat 32 (cause * 2 ^ 24 + flags * 2 ^ 16 + cls * 2 ^ 12 + c.get F.PWR_STATUS_SEQ_STATE * 2 ^ 8 + c.phase))

/-- One AON cycle's decision (R446, R447): every cause sets its bit; the lowest code of the highest class is answered. -/
def Chip.snagDecide (c : Chip) (causes : List (Nat × Nat)) : Chip :=
  let eff := fun k => if causeClass k = 2 && c.seq.quiet then 3 else causeClass k
  match causes with
  | [] => c
  | p :: _ =>
    let cls := causes.foldl (fun m q => min m (eff q.1)) (eff p.1)
    let win := (causes.filter (fun q => eff q.1 == cls)).map (·.1)
    let cause := win.foldl min (win.headD 0)
    let reading := ((causes.find? (fun q => q.1 == cause)).map (·.2)).getD 0
    let c := c.put F.SNG_CAUSE_BITS (causes.foldl (fun m q => withBit m (causeBit q.1) true) (c.get F.SNG_CAUSE_BITS))
    let down := causeClass cause = 2 && cls = 3
    let asB := cls = 1 && c.get F.SNG_CTRL_QUENCH_EN = 0
    let flags := c.snagFlags + (if down then 1 else 0) + (if asB then 4 else 0)
    let c := (c.since cls).snagLast cause flags cls
    if cls = 3 then (c.count 47 1).snagC cause flags reading true
    else
      let args := c.snagArgs (0x4000 + cls) cause flags reading
      let act := if asB then (if c.seq.quiet then 3 else 2) else cls
      (c.log (0x4000 + cls) uSNG args).snagAnswer act (c.evRec (0x4000 + cls) uSNG args)

/-- Both local segments re-train: lane lock is lost until they have (R47). -/
def Chip.retrainRing (c : Chip) : Chip := (c.put F.SKN_STATUS_CW_LOCK 0).put F.SKN_STATUS_CC_LOCK 0

/-- A ring training measures the delay of an outgoing segment (`cc` the counter-clockwise one); with this node's own forwarding delay it
is what a forwarded marker's `DELAY` grows by (R205). What the part measures is a free value (assumption 58). -/
def Chip.ringTrained (c : Chip) (cc : Bool) : Chip :=
  let d := c.draw
  if cc then { d.2 with whl := { d.2.whl with delayCc := d.1 % 65536 } } else { d.2 with whl := { d.2.whl with delay := d.1 % 65536 } }

/-- `RING_EN` written (R47): set, the PHYs are enabled and the hold rises when ready; cleared, the hold falls. -/
def Chip.ringEnable (c : Chip) (v : Bool) : Chip :=
  let c := c.put F.SKN_CTRL_RING_EN (b2n v)
  if v then (c.ringTrained false).ringTrained true else c.spliceDrop.retrainRing

end Sys2Proof.Machine
end

