-- ==== Sys2Proof/Machine/Access.lean ====
section
/-!
DEFINITION. Who reaches a register: the page grants of Table 1.5 (R14) with the finer limits of the pages' own rules, and what a
refused access answers (R14, R29, R135, R512).
-/

namespace Sys2Proof.Machine

/-- Answer an access on the fabric: with data, or with the error response, where a read returns 0 (R14). -/
def Chip.respond (c : Chip) (req : Req) (ok : Bool) (data : Nat) : Chip := c.send (.fabric req ok (if ok then data else 0))

/-- Does a Roving core reach a channel register of the CRY page (R294): it holds the channel, and writes only `TAIL`? -/
def Chip.rovCry (c : Chip) (req : Req) (off : Nat) (wr : Bool) : Bool :=
  0xC100 ≤ off && off < 0xC500 &&
    (let n := (off - 0xC100) / 0x20
     c.geti F.CRY_CHn_CFG_OWNER n == req.toNat && (!wr || off == R.CRY_CHn_TAIL n))

/-- Does a Roving core reach a register of the DGT page (R295): the registers of contexts granted to it, and every feed port, where the context
itself refuses a second user (R277)? -/
def Chip.rovDgt (c : Chip) (req : Req) (off : Nat) : Bool :=
  off < 0xD800 &&
    (let n := off % 0x400 / 0x10
     0xD400 ≤ off || (c.cxGranted n && (match tget? c.cry.holder n with | some r => r == req.toNat | none => true)))

/-- Does a Roving core reach a register of the DMA page (R319): it holds the channel, and writes only `TAIL` and `CTRL`? -/
def Chip.rovDma (c : Chip) (req : Req) (off : Nat) (wr : Bool) : Bool :=
  (List.range 32).any (fun n =>
    R.DMA_CHn_BASE n ≤ off && off < R.DMA_CHn_BASE (n + 1) && c.geti F.DMA_CHn_CFG_OWNER n == req.toNat &&
      (!wr || off == R.DMA_CHn_TAIL n || off == R.DMA_CHn_CTRL n))

/-- Does a Roving core reach a register of the DBG page (R510): core registers while `BREAK_ROV`, its granted trace sources and the Noil
selection and data while `TRACE_ROV`, source 16 while it holds it, counters and samples while `CNT_ROV`? -/
def Chip.rovDbg (c : Chip) (req : Req) (off : Nat) : Bool :=
  let tr := c.get F.DBG_CTRL_TRACE_ROV == 1
  let mine := fun t => (tget c.dbg.tr t {}).grant == coreOf? req && (coreOf? req).isSome
  let src := fun t => (tr || t == 16) && mine t
  if 0x10100 ≤ off && off < 0x101C0 then c.get F.DBG_CTRL_BREAK_ROV == 1
  else if 0x10400 ≤ off && off < 0x10510 then src ((off - 0x10400) / 0x10)
  else if 0x14000 ≤ off && off < 0x15100 then src ((off - 0x14000) / 0x100)
  else if off = R.DBG_NOIL_SEL || off = R.DBG_NOIL_DATA then tr
  else if (0x10800 ≤ off && off < 0x11400) || (0x16000 ≤ off && off < 0x16800) then c.get F.DBG_CTRL_CNT_ROV == 1
  else false

/-- Is the core the service-call partner of an MBS mailbox (Table 6.7; log entry 134)? -/
def mbsPartner (core n : Nat) : Bool := n == core || n == core + 6 || (decide (12 ≤ n) && decide (n < 16))

/-- Table 1.5: is an access to a window offset granted to its requester? An external read of the TRS window needs the secure attribute; the
lock of a fixed mailbox is read by each core (R147). -/
def Chip.granted (c : Chip) (req : Req) (off : Nat) (wr : Bool) : Bool :=
  match classOf req with
  | .spindle => if 0x9000 ≤ off && off < 0xA000 then false else true
  | .external =>
    if off = R.GEN_ID || off = R.GEN_STATUS then !wr
    else if 0x9000 ≤ off && off < 0xA000 then true
    else decide (0x20000 ≤ off) && decide (off < 0x60000) && !wr && c.pins.reqSec
  | .roving =>
    if off < 0x2000 then !wr
    else if off < 0x3000 then false
    else if off < 0x8000 then !wr
    else if off < 0x9000 then
      match coreOf? req with
      | some k => mbsPartner k ((off - 0x8000) / 0x80) || (off % 0x80 == 0x48 && !wr)
      | none => false
    else if off < 0xA000 then true
    else if off < 0xC000 then false
    else if off < 0xD000 then c.rovCry req off wr
    else if off < 0xE000 then c.rovDgt req off
    else if off < 0xF000 then false
    else if off < 0x10000 then c.rovDma req off wr
    else if off < 0x18000 then c.rovDbg req off
    else if off < 0x19000 then !wr
    else decide (off < 0x20000)

/-- Is the page powered: GEN, and the pages of the Always-on cluster, always; every other while the Service domain is up (R14)? -/
def Chip.powered (c : Chip) (off : Nat) : Bool := decide (off < 0x6000) || c.svcUp

/-- The error response of a refused access and its event (R14, R29, R135). -/
def Chip.refuse (c : Chip) (code : Nat) (req : Req) (off : Nat) (wr : Bool) (detail : Nat) : Chip :=
  (c.respond req false 0).log code (unitOfOffset off) (aAccess off req.toNat wr (unitOfOffset off) 0 detail)

/-- The sequencer starts the Service rail and PLL; a new start has loaded no root (R59, R110). -/
def Chip.svcWake (c : Chip) : Chip :=
  ({ (c.setSeq .svcWaking) with pwr := { c.pwr with svcTries := 0, latched := false } }).put F.SNG_STATUS_ARMED 0

/-- Leave SLEEP: a latched source starts the Service domain once the reference is present, with event 0x0302 and, in a pair, the
beacon (R59, R65, Table 3.10). -/
def Chip.tryWake (c : Chip) : Chip :=
  if c.seq = .sleep && c.pwr.latched && c.get F.PWR_STATUS_REF_LOST = 0 then
    let c := c.log 0x0302 uPWR (aCount (c.rd R.PWR_WAKE_CAUSE).toNat 0 0 0)
    let c := if c.pkg = .hx4 then c else c.send .beacon
    c.svcWake
  else c

/-- A wake source fires (R65): latched while its bit is enabled and the Service domain is not yet up; in SLEEP it starts the wake. -/
def Chip.wakeSource (c : Chip) (i : Nat) : Chip :=
  if !bit (c.get F.PWR_WAKE_EN_SRC) i then c
  else
    let l := fun (c : Chip) => c.put F.PWR_WAKE_CAUSE_SRC (withBit (c.get F.PWR_WAKE_CAUSE_SRC) i true)
    match c.seq with
    | .sleep => Chip.tryWake { l c with pwr := { c.pwr with latched := true } }
    | .sleepEntry => { l c with pwr := { c.pwr with latched := true } }
    | .sense => l c
    | .svcWaking => l c
    | _ => c

/-- The Service domain is asleep, or on its way up or down: where a wake source is latched (R65). -/
def Chip.asleep (c : Chip) : Bool := c.seq == .sleep || c.seq == .sleepEntry || c.seq == .sense || c.seq == .svcWaking

/-- An access to a page whose domain is down: the error response; an external one to the MBN page is the wake source of R65, with event
0x0303 (R151).
The event in the other states without Service than SLEEP is this model's choice (assumption 153). -/
def Chip.darkAccess (c : Chip) (req : Req) (off : Nat) (wr : Bool) : Chip :=
  if classOf req = .external && decide (0x9000 ≤ off) && decide (off < 0xA000) && c.asleep then
    ((c.respond req false 0).log 0x0303 uPWR (aAccess off req.toNat wr uMBN Status.poweredDown.code 0)).wakeSource 0
  else c.respond req false 0

/-- An access of a wrong size, alignment or range, or with a number that no access may carry: the error response, with event 0x1204 at the target
port (R29, R134) and 0x1601 from the instance's own requesters (R135). -/
def Chip.badAccess (c : Chip) (req : Req) (off : Nat) (wr : Bool) : Chip :=
  c.refuse (if classOf req = .external then 0x1204 else 0x1601) req off wr 0

/-- Sizes and alignments that R29 admits: 32-bit accesses of a register page, and in the TRS window also 64-bit and 64-byte reads. -/
def shapeOk (off size : Nat) (wr : Bool) : Bool :=
  decide (off < 0x60000) && off % size == 0 &&
    (size == 4 || (decide (0x20000 ≤ off) && !wr && (size == 8 || size == 64)))

/-- An access that reaches its register does `f`; one that does not gets the error response (R14). -/
def Chip.guarded (c : Chip) (req : Req) (off : Nat) (wr : Bool) (f : Chip → Chip) : Chip :=
  if badReq req then c.badAccess req off wr
  else if !c.powered off then c.darkAccess req off wr
  else if !c.granted req off wr then c.refuse 0x1601 req off wr 0
  else f c

/-- A granted write completes on the fabric. -/
def Chip.wrote (c : Chip) (req : Req) : Chip := c.respond req true 0

/-- A field written outside its range is clamped to it (the pages' own rules): the value kept. -/
def clampTo (lo hi v : Nat) : Nat := max lo (min hi v)

end Sys2Proof.Machine
end

