-- ==== Sys2Proof/Machine/Snag.lean ====
section
/-!
DEFINITION. Snag's commands (R445 to R461): decisions, the zeroize pulse, the record writer, conversions and calibrations, and the quench
enable. While `PORST_N` is low the AON domain is held in reset and Snag does nothing (R26).
-/

namespace Sys2Proof.Machine

/-- Nothing happens in AON while `PORST_N` is low (R26). -/
def Chip.aon (c : Chip) (f : Chip → Chip) : Chip := if c.pins.porstN then f c else c

/-- The code and reading of a condition (Table 16.1). -/
def PadCause.entry (p : PadCause) : Nat × Nat :=
  match p with
  | .mesh m => (0x01, m)
  | .lid => (0x02, 0)
  | .shield t => (0x03, t)
  | .ext0 => (0x04, 0)
  | .ext1 => (0x14, 0)
  | .railHealth => (0x15, 0)
  | .railEdge mv => (0x21, mv)
  | .short b => (0x23, b)
  | .ext0Short us => (0x24, min us 0xFFFF)

/-- Does a condition persist from one cycle to the next (R446)? Departures already over do not. -/
def PadCause.lasting (p : PadCause) : Bool := match p with | .short _ => false | .ext0Short _ => false | .railEdge _ => false | _ => true

/-- The fuse rail leaves its window: a program pulse in progress ends, and with it its command (R55, R82); the quench goes on, and so does
a phase of a transition that has no cell to blow (R94). -/
def Chip.fuseRailFall (c : Chip) : Chip :=
  let was := c.get F.PWR_STATUS_VIN_FUSE_OK
  let c := c.put F.PWR_STATUS_VIN_FUSE_OK 0
  match c.otp.job with
  | none => c
  | some j =>
    if was = 0 || j.cells.isEmpty then c
    else
      let c := { c with otp := { c.otp with job := none, cut := some j } }
      let c := if j.kind.lcs then
          (((c.put F.LCS_STATUS_RESULT Status.busy.code).put F.LCS_STATUS_BUSY 0).put F.OTP_STATUS_BUSY 0).put F.OTP_STATUS_PARTIAL 1
        else c.otpEnd .busy true
      c.logWord 0x1304 ((j.cells.headD (0, 0)).1) j.kind.op Status.busy.code 0 0

/-- The operating window and the fuse programming window of the rail, in mV (Table 3.2). -/
def railOk (mv : Nat) : Bool := decide (1710 ≤ mv) && decide (mv ≤ 1890)
def railFuseOk (mv : Nat) : Bool := decide (1760 ≤ mv) && decide (mv ≤ 1840)

/-- The rail monitor's result (R53, R54): the reading and both comparisons are published; a rail that leaves the fuse window ends a pulse,
one that leaves the operating window is cause 0x10, or in SHUTDOWN event 0x0304. While `PORST_N` is low nothing more happens. -/
def Chip.railTo (c : Chip) (mv : Nat) : Chip × List (Nat × Nat) :=
  let fell := c.get F.PWR_STATUS_VIN_OK = 1 && !railOk mv && c.pins.porstN
  let c := (c.put F.PWR_VIN_MV (min mv 0xFFFF)).put F.PWR_STATUS_VIN_OK (b2n (railOk mv))
  let c := if railFuseOk mv then c.put F.PWR_STATUS_VIN_FUSE_OK 1 else if c.pins.porstN then c.fuseRailFall else c.put F.PWR_STATUS_VIN_FUSE_OK 0
  if fell then (if c.seq = .shutdown then (c.log 0x0304 uPWR (aCount mv 0 0 0), []) else (c, [(0x10, mv)])) else (c, [])

/-- The rail as a `railEdge` condition reports it: measured (R53), and cause 0x21 unless it is set already or the rail is inside its limits;
the cause clears 10 mV inside (Table 16.1). -/
def Chip.railCheck (c : Chip) (ps : List PadCause) : Chip × List (Nat × Nat) :=
  match ps.findSome? (fun p => match p with | .railEdge mv => some mv | _ => none) with
  | none => (c, [])
  | some mv =>
    let p := c.railTo mv
    let c := p.1
    let out := (mv < 1740 || 1860 < mv) && c.get F.PWR_STATUS_VIN_OK == 1
    let inside := 1750 ≤ mv && mv ≤ 1850
    let fresh := out && !c.sng.railSet
    ({ c with sng := { c.sng with railSet := if out then true else if inside then false else c.sng.railSet } },
      p.2 ++ if fresh then [(0x21, mv)] else [])

/-- SNAG_DECISION (R446): the conditions of one AON cycle; one that persists is decided once. A rail back in
the fuse window lets an incomplete quench go on (R87). -/
def execSnagDecision (causes : List PadCause) (s : State) : Host.Outcome State Fault Refusal :=
  s.both (fun fu c => settleCut fu (c.aon (fun c =>
    let r := c.railCheck causes
    let now := (causes.filter (fun p => match p with | .railEdge _ => false | _ => true)).map PadCause.entry
    let fresh := now.filter (fun e => !r.1.sng.persist.contains e.1) ++ r.2
    let lasting := ((causes.filter PadCause.lasting).map (fun p => p.entry.1)).dedup
    let c := { r.1 with sng := { r.1.sng with persist := lasting } }
    let c := if lasting.contains 0x15 then c.put F.SNG_STATUS_RAIL_FAULT 1 else c
    (c.snagDecide fresh).quenchFill fu)))

/-- ZEROIZE_OUT_PULSE_END (R450): 16 µs after a Class B decision the line goes high. -/
def execZeroizeOutPulseEnd (s : State) : Host.Outcome State Fault Refusal :=
  s.on (fun c => if c.pins.zeroizeOut = ZOut.pulse then c.driveOut .high else c)

/-- RECORD_WRITER (R458): the record of the decision that led to HELD goes to the tamper log. -/
def execRecordWriter (vinFell verified : Bool) (s : State) : Host.Outcome State Fault Refusal :=
  s.on (fun c =>
    match c.sng.writer with
    | none => c
    | some r =>
      let c := { c with sng := { c.sng with writer := none } }
      if c.get F.SNG_CTRL_LOG_EN = 0 || c.get F.PWR_STATUS_VIN_OK = 0 then c
      else
        let n := c.get F.SNG_LOG_NEXT
        let blank := norBlank c.mem.nor (tamperAddr n) 32
        let st := if vinFell then Status.poweredDown else if !blank then .busy else if !verified then .integrity else .ok
        let d := c.drawBytes 32
        let c := if !blank then c
          else if vinFell then d.2.norWr (tamperAddr n) (List.zipWith (· ||| ·) r.bytes d.1)
          else c.norWr (tamperAddr n) r.bytes
        let c := c.put F.SNG_LOG_RESULT st.code
        if st = .ok then c.put F.SNG_LOG_NEXT ((n + 1) % 2048)
        else c.log 0x2001 uSNG (aCount st.code n 0 0))

/-- A 16-bit two's complement temperature field. -/
def temp16 (t : Int) : Nat := (t % 65536).toNat

/-- The readings of the sensors that are not FAULT (R455). -/
def Chip.voting (c : Chip) (t0 t1 : Int) : List Int :=
  (if c.get F.SNG_STATUS_TEMP0 = 2 then [] else [t0]) ++ (if c.get F.SNG_STATUS_TEMP1 = 2 then [] else [t1])

/-- Both sensors apart by more than 8 °C for 16 consecutive conversions become SUSPECT (R455): the sensors that change. -/
def Chip.suspects (c : Chip) (t0 t1 : Int) : Chip × List Nat :=
  let apart := decide ((t0 - t1).natAbs > 32) && c.get F.SNG_STATUS_TEMP0 != 2 && c.get F.SNG_STATUS_TEMP1 != 2
  let n := if apart then min 16 (c.sng.apart + 1) else 0
  let c := { c with sng := { c.sng with apart := n } }
  if n = 16 then
    let new := (if c.get F.SNG_STATUS_TEMP0 = 0 then [0] else []) ++ (if c.get F.SNG_STATUS_TEMP1 = 0 then [1] else [])
    let c := if c.get F.SNG_STATUS_TEMP0 = 0 then c.put F.SNG_STATUS_TEMP0 1 else c
    (if c.get F.SNG_STATUS_TEMP1 = 0 then c.put F.SNG_STATUS_TEMP1 1 else c, new)
  else (c, [])

/-- Causes 0x12 and 0x20 after a conversion: two consecutive conversions outside the limits, decided once while they persist, cause
0x20 cleared 5 °C inside (Table 16.1). -/
def Chip.tempCauses (c : Chip) (vs : List Int) : Chip × List (Nat × Nat) :=
  match vs with
  | [] => (c, [])
  | v :: vs =>
    let hi := vs.foldl max v
    let lo := vs.foldl min v
    let b := decide (hi > 440) || decide (lo < -80)
    let w := decide (hi > 400) || decide (lo < -40)
    let hot := if b then min 2 (c.sng.hot + 1) else 0
    let warm := if w then min 2 (c.sng.warm + 1) else 0
    let warmSet := c.sng.warmSet && !(decide (lo ≥ -20) && decide (hi ≤ 380))
    let hotSet := c.sng.hotSet && b
    let newB := hot = 2 && !hotSet
    let newC := warm = 2 && !warmSet
    ({ c with sng := { c.sng with hot := hot, warm := warm, hotSet := hotSet || newB, warmSet := warmSet || newC } },
      (if newB then [(0x12, temp16 (if hi > 440 then hi else lo))] else []) ++
        (if newC then [(0x20, temp16 (if hi > 400 then hi else lo))] else []))

/-- Decide causes of one cycle, a second change of sensor health after the first. -/
def Chip.decideHealth (c : Chip) (causes : List (Nat × Nat)) (sensors : List Nat) : Chip :=
  match sensors with
  | [] => c.snagDecide causes
  | a :: rest => (c.snagDecide (causes ++ [(0x25, a)])).each rest (fun c b => c.snagDecide [(0x25, b)])

/-- TEMP_CONVERSION (R445, R455): each sensor converts a reading. -/
def execTempConversion (t0 t1 : Int) (s : State) : Host.Outcome State Fault Refusal :=
  s.onCut (fun c => c.aon (fun c =>
    let a := t0 + c.sng.offset0
    let b := t1 + c.sng.offset1
    let c := (c.put F.SNG_TEMP_TEMP0 (temp16 a)).put F.SNG_TEMP_TEMP1 (temp16 b)
    let q := c.suspects a b
    let r := q.1.tempCauses (q.1.voting a b)
    r.1.decideHealth r.2 q.2))

/-- A correction of at most 1 °C (R454). -/
def atMostOne (d : Int) : Int := max (-4) (min 4 d)

/-- Mesh pairs whose return delay is above 32 ns while still inside the window (cause 0x22). -/
def slowPairs (ds : List Nat) : List Nat := (List.range 4).filter (fun p => decide (128 < ds.getD p 0))

/-- A calibration's effect (R454, R455). No limit of Table 16.1 changes. -/
def Chip.calibrate (c : Chip) (r : CalResult) : Chip :=
  match r with
  | .lid => c
  | .mesh ds =>
    let slow := slowPairs ds
    let new := slow.filter (fun p => !c.sng.delaySet.contains p)
    let c := { c with sng := { c.sng with centre := (List.range 4).map (fun p => min 144 (ds.getD p 0)), delaySet := slow } }
    let c := c.wr R.SNG_MESH (BitVec.ofNat 32 (ofLe ((List.range 4).map (fun p => BitVec.ofNat 8 (min 255 (ds.getD p 0))))))
    match new with
    | [] => c
    | p :: _ => c.snagDecide [(0x22, ds.getD p 0)]
  | .temp i inTrim delta =>
    let f := if i then F.SNG_STATUS_TEMP1 else F.SNG_STATUS_TEMP0
    let c := if i then { c with sng := { c.sng with offset1 := c.sng.offset1 + atMostOne delta } }
      else { c with sng := { c.sng with offset0 := c.sng.offset0 + atMostOne delta } }
    if inTrim || c.get f = 2 then c
    else
      let c := c.put f 2
      let both := c.get F.SNG_STATUS_TEMP0 = 2 && c.get F.SNG_STATUS_TEMP1 = 2
      c.snagDecide ((if both then [(0x15, 0)] else []) ++ [(0x25, b2n i)])

/-- SENSOR_CALIBRATION (R454): a periodic calibration. -/
def execSensorCalibration (result : CalResult) (s : State) : Host.Outcome State Fault Refusal :=
  s.onCut (fun c => c.aon (fun c => c.calibrate result))

/-- FORCE_CAL (R454): writing `SNG_CTRL.FORCE_CAL` runs every calibration at once. -/
def execForceCal (req : Req) (results : List CalResult) (s : State) : Host.Outcome State Fault Refusal :=
  s.onCut (fun c => c.aon (fun c => c.guarded req R.SNG_CTRL true (fun c => (c.wrote req).each results Chip.calibrate)))

/-- `QUENCH_EN` written (R448): in RAW and TEST_UNLOCKED only; writing 0 is logged as a record that is no Snag decision. -/
def Chip.quenchWrite (c : Chip) (value : Bool) : Chip :=
  if c.lcState ≤ 1 then
    let c := c.put F.SNG_CTRL_QUENCH_EN (b2n value)
    if value then c else c.snagC 0x25 c.snagFlags 0xFF false
  else c

/-- QUENCH_EN (R448). -/
def execQuenchEn (req : Req) (value : Bool) (s : State) : Host.Outcome State Fault Refusal :=
  s.on (fun c => c.aon (fun c => c.guarded req R.SNG_CTRL true (fun c => (c.wrote req).quenchWrite value)))

end Sys2Proof.Machine
end

