-- ==== Sys2Proof/Machine/Power.lean ====
section
/-!
DEFINITION. Resets, rails, the reference clock, the power sequencer, sleep and wake (R26, R27, R48 to R67). The Crypto groups' own
commands stand in Machine/CryptoPower.lean.
-/

namespace Sys2Proof.Machine

/-! Starts. -/

/-- A Crypto group off and not disabled begins to wake; with no other group on, the Crypto rail and PLL start (R59, R61). -/
def Chip.groupNeed (c : Chip) (g : Nat) : Chip :=
  if !c.svcUp || g = 0 || 5 < g || bit (c.get F.PWR_GRP_CTRL_DISABLE) (g - 1) then c
  else if c.grp g = 0 then (if c.seq = .service then c.setSeq .active else c).setGrp g 1
  else c

/-- Groups held on by `FORCE_ON` wake; `PLL_KEEP` alone starts the Crypto PLL (Table 3.4, R62). -/
def Chip.forced (c : Chip) : Chip :=
  let c := if c.get F.PWR_CTRL_PLL_KEEP = 1 && c.seq = .service then c.setSeq .active else c
  c.each [1, 2, 3, 4, 5] (fun c g => if bit (c.get F.PWR_GRP_CTRL_FORCE_ON) (g - 1) then c.groupNeed g else c)

/-! Resets. -/

/-- Every domain reset, the AON domain included (R26): what stays is outside it (the rail, NOR contents, what was sent) and a
frozen Noil ring (R502). -/
def Chip.allReset (c : Chip) (clearNoil : Bool) : Chip :=
  let frozen := c.get F.DBG_NOIL_STATUS_FROZEN = 1 && !clearNoil
  let keep := [R.PWR_VIN] ++ (if frozen then [R.DBG_NOIL_STATUS] else [])
  let vals := keep.map (fun a => (a, c.rd a))
  let ok := c.get F.PWR_STATUS_VIN_OK
  let fok := c.get F.PWR_STATUS_VIN_FUSE_OK
  let d : Chip := { free := c.free, tx := c.tx, mem := { nor := c.mem.nor }, dbg := { noil := if frozen then c.dbg.noil else [] } }
  let d := d.each vals (fun d p => d.wr p.1 p.2)
  (d.put F.PWR_STATUS_VIN_OK ok).put F.PWR_STATUS_VIN_FUSE_OK fok

/-- Power or the whole of AON goes: a program in progress is cut where it stands (R82); a quench is completed by the reservoir (R55). -/
def Chip.otpLost (c : Chip) : Chip :=
  if c.otp.quenching then { c with otp := { c.otp with cut := some { kind := .lcsQuench, arg := 0, cells := quenchCells, last := .ok } } }
  else
    match c.otp.job with
    | some j => { c with otp := { c.otp with cut := some j } }
    | none => c

/-- PORST_N_ASSERT (R26): a pulse shorter than 1 µs is taken in full or ignored, as `taken` says. -/
def execPorstNAssert (taken : Bool) (s : State) : Host.Outcome State Fault Refusal :=
  s.both (fun fu c =>
    if !taken then (fu, c)
    else
      let p := settleCut fu c.otpLost
      (p.1, p.2.allReset false))

/-- BROWN_OUT_RESET (R53, R502): as by `PORST_N`; the Noil rings are cleared and record again. -/
def execBrownOutReset (mv : Nat) (s : State) : Host.Outcome State Fault Refusal :=
  s.both (fun fu c =>
    let p := settleCut fu c.otpLost
    (p.1, (((p.2.allReset true).put F.PWR_STATUS_VIN_OK 0).put F.PWR_STATUS_VIN_FUSE_OK 0).put F.PWR_VIN_MV (min mv 1549)))

/-- The measured rail inside the operating window (R26, Table 3.2): what it reads there is free where it was measured outside. -/
def Chip.railIn (c : Chip) : Chip :=
  let c := if railOk (c.get F.PWR_VIN_MV) then c else (let d := c.draw; d.2.put F.PWR_VIN_MV (1710 + d.1 % 181))
  c.put F.PWR_STATUS_VIN_FUSE_OK (b2n (railFuseOk (c.get F.PWR_VIN_MV)))

/-- PORST_N_RISE (R27): the straps are sampled; fuse sensing and the reservoir charge begin. The rail is inside its window (R26). -/
def execPorstNRise (strapClass : Nat) (strapSide recoveryN : Bool) (s : State) : Host.Outcome State Fault Refusal :=
  s.on (fun c =>
    if c.pins.porstN then c
    else
      let c := { c with pins := { c.pins with porstN := true, strapClass := strapClass % 4, strapSide := strapSide, recoveryN := recoveryN } }
      (c.railIn.put F.PWR_STATUS_VIN_OK 1).put F.GEN_BOOT_PHASE 0)

/-- The Service and Crypto domains reset as by `SYSRST_N` and start again (R26, R59, R94, R477). -/
def Chip.warmReset (c : Chip) : Chip := if c.seq.svcOn then Chip.svcWake { (c.zeroize.freezeNoil 2).svcLost with pwr := { c.pwr with cryTries := 0, warm := true } } else c

/-- SYSRST_N_PULSE (R26, R59, R65, R111). -/
def execSysrstNPulse (taken recoveryN : Bool) (s : State) : Host.Outcome State Fault Refusal :=
  s.onCut (fun c => c.aon (fun c =>
    if !taken then c
    else
      let c := ({ c with pins := { c.pins with recoveryN := recoveryN } }).freezeNoil 2
      let latch := fun (c : Chip) => ({ c with pwr := { c.pwr with latched := true } }).put F.PWR_WAKE_CAUSE_RESET 1
      match c.seq with
      | .sleep => (latch c).tryWake
      | .sleepEntry => latch c
      | .svcWaking => c.warmReset.put F.PWR_WAKE_CAUSE_RESET 1
      | .sense => c.put F.PWR_WAKE_CAUSE_RESET 1
      | _ => c.warmReset))

/-! Rails and the reservoir. -/

/-- VIN_FUSE_OK_FALL (R53, R55): a reading outside the fuse window. -/
def execVinFuseOkFall (mv : Nat) (s : State) : Host.Outcome State Fault Refusal :=
  s.onCut (fun c => if railFuseOk mv then c else (let r := c.railTo mv; r.1.each r.2 (fun c e => c.snagDecide [e])))

/-- VIN_FUSE_OK_RISE (R53, R95, R87): a reading inside the fuse window, so inside the operating window too; an incomplete quench blows its
remaining cells. -/
def execVinFuseOkRise (mv : Nat) (s : State) : Host.Outcome State Fault Refusal :=
  s.onF (fun fu c => if railFuseOk mv then (c.railTo mv).1.aon (fun c => c.quenchFill fu) else c)

/-- VIN_OK_FALL (R53, R54): a reading outside the operating window, by the sequencer state. -/
def execVinOkFall (mv : Nat) (s : State) : Host.Outcome State Fault Refusal :=
  s.onCut (fun c => if railOk mv then c else (let r := c.railTo mv; r.1.each r.2 (fun c e => c.snagDecide [e])))

/-- RSV_READY (R56): the reservoir can complete one quench program; a quench requested before starts now. -/
def execRsvReady (s : State) : Host.Outcome State Fault Refusal :=
  s.onCut (fun c => c.aon (fun c =>
    let c := c.put F.PWR_STATUS_RSV_READY 1
    if c.get F.SNG_STATUS_QUENCH_REQ = 1 && !c.otp.quenching then c.quenchStart else c))

/-! The reference clock. -/

/-- Whorl time is no longer aligned (R51, R206). -/
def Chip.whlUnaligned (c : Chip) : Chip := c.put F.WHL_STATUS_ALIGN 0

/-- REFCLK_LOST (R50, R51, R52). -/
def execRefclkLost (s : State) : Host.Outcome State Fault Refusal :=
  s.onCut (fun c => c.aon (fun c =>
    if c.get F.PWR_STATUS_REF_LOST = 1 then c
    else
      let c := ((c.put F.PWR_STATUS_REF_LOST 1).put F.PWR_STATUS_ON_RC 1).whlUnaligned
      if c.seq.svcOn then c.snagDecide [(0x11, 0)] else c.log 0x1302 uPWR []))

/-- CLOCK_GLITCH (R49, R52). -/
def execClockGlitch (s : State) : Host.Outcome State Fault Refusal :=
  s.onCut (fun c => c.aon (fun c => c.snagDecide [(0x11, 0)]))

/-- REFCLK_PRESENT_AGAIN (R50, R52, Table 8.2): back on the reference; a master is aligned again; a wake that waited starts. -/
def execRefclkPresentAgain (s : State) : Host.Outcome State Fault Refusal :=
  s.on (fun c => c.aon (fun c =>
    if c.get F.PWR_STATUS_REF_LOST = 0 then c
    else
      let c := (c.put F.PWR_STATUS_REF_LOST 0).put F.PWR_STATUS_ON_RC 0
      let c := if c.get F.WHL_STATUS_IS_MASTER = 1 then c.put F.WHL_STATUS_ALIGN 2 else c
      (c.log 0x1303 uPWR []).tryWake))

/-! The sequencer. -/

/-- SEQ_SVC_WAKE (R59): SENSE ends once sensing is done, no record waits, the reference is present and `RSV_READY` is 1. -/
def execSeqSvcWake (s : State) : Host.Outcome State Fault Refusal :=
  s.on (fun c => c.aon (fun c =>
    if c.seq = .sense && c.otp.sensed && !c.lcs.pending && c.get F.PWR_STATUS_REF_LOST = 0 && c.get F.PWR_STATUS_RSV_READY = 1
    then c.svcWake else c))

/-- A Service start (R59, R101, R131, R151, R514): pages and log fresh, RNG group on, ROM at phase 0x10; in a pair the Ply
lanes train on their own (R78). -/
def Chip.svcStart (c : Chip) : Chip :=
  let c := (c.setSeq .service).put F.PWR_STATUS_SVC_PLL_LOCK 1
  let c := { c with logs := { c.logs with svc := [], svcWord := 0, svcLost := 0 }, pins := { c.pins with norParked := false, norOctal := false } }
  let c := ((c.put F.MBN_GEN_COUNT ((c.get F.MBN_GEN_COUNT + 1) % 2 ^ 32)).put F.GEN_BOOT_PHASE 0x10).bootTime
  let c := { c.put F.GEN_BOOT_WARM (b2n c.pwr.warm) with pwr := { c.pwr with warm := true } }
  let c : Chip := if c.pkg == Pkg.hx4 then c else c.send .linkTrain
  (c.setGrp 0 2).forced

/-- SVC_PLL_LOCKED (R59). -/
def execSvcPllLocked (s : State) : Host.Outcome State Fault Refusal :=
  s.on (fun c => if c.seq = .svcWaking then c.svcStart else c)

/-- SVC_PLL_TIMEOUT (R59): the second failure takes the sequencer to HELD with event 0x2302. -/
def execSvcPllTimeout (s : State) : Host.Outcome State Fault Refusal :=
  s.on (fun c =>
    if c.seq = .svcWaking then
      if c.pwr.svcTries = 0 then { c with pwr := { c.pwr with svcTries := 1 } }
      else (c.enterHeld 1).log 0x2302 uPWR []
    else c)

/-! Sleep. -/

/-- Is a launch entry in use (`WHL_STATUS.OPEN`): neither FREE, DONE nor CANCELLED? -/
def Chip.launchOpen (c : Chip) (n : Nat) : Bool :=
  let q := c.geti F.WHL_Ln_STATE_STATE n
  q != 0 && q != 4 && q != 6

/-- The conditions of R63 in order, the first unmet one numbered from 1; none when the request is accepted. -/
def Chip.sleepBar (c : Chip) : Option Nat :=
  if (List.range 16).any c.launchOpen then some 1
  else if c.get F.BOB_CQ_HEAD_IDX != c.get F.BOB_CQ_TAIL_IDX then some 2
  else if (List.range 32).any (fun n =>
      let st := c.geti F.DMA_CHn_STATUS_STATE n
      decide (1 < st) || (st == 1 && c.geti F.DMA_CHn_HEAD_IDX n != c.geti F.DMA_CHn_TAIL_IDX n)) then some 3
  else if c.get F.PLY_STATUS_LEASE = 1 then some 4
  else if c.seq = .active || [1, 2, 3, 4, 5].any (fun g => c.grp g == 1 || c.grp g == 2) then some 5
  else none

/-- A sleep request (R59, R63, Table 3.8): refused with BUSY and event 0x1301, or the entry sequence up to the parked NOR. -/
def Chip.sleepRequest (c : Chip) : Chip :=
  if !c.svcUp then c
  else
    match c.sleepBar with
    | some k => (c.put F.PWR_STATUS_LAST_RESULT Status.busy.code).log 0x1301 uPWR (pack [(1, Status.busy.code), (1, k)])
    | none =>
      let c := ((c.put F.PWR_STATUS_LAST_RESULT Status.ok.code).setSeq .sleepEntry).zeroize.spliceDrop
      { c with pins := { c.pins with norParked := true } }

/-- SLEEP_REQ (R63). -/
def execSleepReq (req : Req) (s : State) : Host.Outcome State Fault Refusal :=
  s.onCut (fun c => c.guarded req R.PWR_CTRL true (fun c => (c.wrote req).sleepRequest))

/-- SLEEP_ENTRY_DONE (R59): the Service rail is off; a source latched meanwhile wakes the instance in the next AON cycle. -/
def execSleepEntryDone (s : State) : Host.Outcome State Fault Refusal :=
  s.on (fun c => if c.seq = .sleepEntry then ((c.svcLost.setSeq .sleep).log 0x0301 uPWR []).tryWake else c)

/-- SHUTDOWN written 1 (Table 3.4). -/
def Chip.shutdownWrite (c : Chip) : Chip :=
  let c := c.put F.PWR_CTRL_SHUTDOWN 1
  if c.seq = .held || c.seq = .shutdown then c else c.zeroize.svcLost.setSeq .shutdown

/-- PWR_SHUTDOWN (R59). -/
def execPwrShutdown (req : Req) (s : State) : Host.Outcome State Fault Refusal :=
  s.onCut (fun c => c.guarded req R.PWR_CTRL true (fun c => (c.wrote req).shutdownWrite))

/-- WAKE_FABRIC_ACCESS (R65, R151): an external access to the MBN page before the Service domain is up gets the error response and event
0x0303, and wakes. -/
def execWakeFabricAccess (req : Req) (off : Nat) (write : Bool) (s : State) : Host.Outcome State Fault Refusal :=
  s.on (fun c =>
    if badReq req || classOf req != .external || !(decide (0x9000 ≤ off) && decide (off < 0xA000)) || !c.asleep then c
    else c.darkAccess req off write)

/-- WAKE_TIMER (R65): Whorl time has reached the pair written to `PWR_WAKE_TIME`. -/
def execWakeTimer (s : State) : Host.Outcome State Fault Refusal :=
  s.on (fun c =>
    match c.pwr.wakeAt with
    | some t => if t ≤ c.time then c.wakeSource 1 else c
    | none => c)

/-- WAKE_PLY_BEACON (R65). -/
def execWakePlyBeacon (s : State) : Host.Outcome State Fault Refusal := s.on (fun c => c.wakeSource 2)

/-- WAKE_SVC_PORT (R65). -/
def execWakeSvcPort (s : State) : Host.Outcome State Fault Refusal := s.on (fun c => c.wakeSource 3)

end Sys2Proof.Machine
end

