-- ==== Sys2Proof/Machine/OtpCmd.lean ====
section
/-!
DEFINITION. The OTP controller's commands (R79 to R87, R96, R97): what `OTP_CMD` starts, how a program ends, audits, quench.
-/

namespace Sys2Proof.Machine

/-- Life-cycle states by code (Table 4.6). -/
def lcRAW : Nat := 0
def lcTU : Nat := 1
def lcTL : Nat := 2
def lcDEV : Nat := 3
def lcPROD : Nat := 4
def lcEND : Nat := 5
def lcRMA : Nat := 6
def lcSCRAP : Nat := 7

/-- An operation runs: a command, a transition or an audit (R80). -/
def Otp.busy (o : Otp) : Bool := o.job.isSome || o.audit.isSome || o.quenching

/-- One of them runs, or a transition that has written its record waits for its restart (R80, R94). -/
def Chip.otpBusy (c : Chip) : Bool := c.otp.busy || c.get F.LCS_STATUS_BUSY == 1

/-- A command is refused or ends at once: `LAST_OP` and `RESULT`, and `DONE` when it completed. -/
def Chip.otpAnswer (c : Chip) (op : Nat) (st : Status) (done : Bool) : Chip :=
  let c := (c.put F.OTP_STATUS_LAST_OP op).put F.OTP_STATUS_RESULT st.code
  if done then c.put F.OTP_STATUS_DONE 1 else c

/-- A program starts: PENDING and busy; with nothing to blow it completes at once (R81). -/
def Chip.otpStart (c : Chip) (j : OtpJob) : Chip :=
  let c := c.otpAnswer j.kind.op .pending false
  (({ c with otp := { c.otp with job := some j } }).put F.OTP_STATUS_BUSY 1).put F.OTP_STATUS_PARTIAL 0

/-- Regions that `PROG_WORD` writes in a state (Table 4.1). -/
def progAllowed (st r : Nat) : Bool := (st = lcTU && [0, 3, 5, 6, 7].contains r) || ((st = lcDEV || st = lcPROD) && r = 7)

/-- States that allow a command for no region at all refuse it with DENIED whatever its `ARG` (R80, R9). -/
def progState (st : Nat) : Bool := st = lcTU || st = lcDEV || st = lcPROD

/-- The refusals of a program in R9's order; BUSY with the fuse rail outside its window logs event 0x1403. -/
def Chip.otpRefusal (c : Chip) (denied badArg integrity : Bool) : Status :=
  firstStatus [(denied, .denied), (badArg, .badArg), (integrity, .integrity),
    (c.otpBusy || c.get F.PWR_STATUS_VIN_FUSE_OK = 0, .busy)]

/-- Start `j` unless refused with `st`. -/
def Chip.otpTry (c : Chip) (st : Status) (j : OtpJob) : Chip :=
  if st = .ok then c.otpStart j
  else
    let c := if st = .busy && !c.otpBusy then c.logWord 0x1403 (c.get F.OTP_ADDR_WORD) j.kind.op st.code 0 0 else c
    c.otpAnswer j.kind.op st false

/-- READ (R80): the resolved word with its flags; check bits in TEST_UNLOCKED only. -/
def Chip.otpReadWord (c : Chip) : Chip :=
  let a := c.get F.OTP_ADDR_WORD
  let r := a / 512
  if r = 2 || c.otp.rlock r then ((c.wr R.OTP_RDATA 0#32).wr R.OTP_RFLAGS 0#32).otpAnswer 1 .denied true
  else if c.otpBusy then c.otpAnswer 1 .busy false
  else
    let s := c.otp.sh a
    let chk := if c.lcState = lcTU then s.raw / 2 ^ 32 % 256 else 0
    ((c.wr R.OTP_RDATA (BitVec.ofNat 32 (c.otp.val a))).wr R.OTP_RFLAGS (BitVec.ofNat 32 (chk * 256 + s.flags))).otpAnswer 1 .ok true

/-- PROG_WORD (R81). -/
def Chip.progWord (c : Chip) (fu : Fuses) : Chip :=
  let a := c.get F.OTP_ADDR_WORD
  let t := eccWord (c.get F.OTP_WDATA_DATA)
  let denied := !progAllowed c.lcState (a / 512) || c.otp.wlock (a / 512)
  c.otpTry (c.otpRefusal denied (!fu.fits a t) false)
    { kind := .progWord, arg := a, cells := fu.missing a t, last := .ok }

/-- The cells missing for a digest in words 504 to 511 of a region. -/
def digestCells (fu : Fuses) (r : Nat) (d : List Byte) : List (Nat × Nat) :=
  (List.range 8).flatMap (fun i => fu.missing (512 * r + 504 + i) (eccWord (numAt d (4 * i) 4)))

/-- A digest fits words 504 to 511 of a region as they stand. -/
def digestFits (fu : Fuses) (r : Nat) (d : List Byte) : Bool :=
  (List.range 8).all (fun i => fu.fits (512 * r + 504 + i) (eccWord (numAt d (4 * i) 4)))

/-- PROG_DIGEST (R83). -/
def Chip.progDigest (c : Chip) (fu : Fuses) (r : Nat) : Chip :=
  let d := c.otp.digest r
  let denied := if r < 8 then !progAllowed c.lcState r || c.otp.wlock r else !progState c.lcState
  c.otpTry (c.otpRefusal denied (decide (8 ≤ r) || !digestFits fu r d) false)
    { kind := .progDigest, arg := r, cells := digestCells fu r d, last := .ok }

/-- The checks of LOCK_WRITE on a region sensed again at three margins (R83): no word marginal, uncorrectable or `PARTIAL`, and the
digest stored is the one computed afresh. -/
def lockChecks (o : Otp) (fu : Fuses) (r : Nat) : Bool :=
  let listed := ((fu.cells.map (·.1)) ++ (o.shadow.map (·.1))).filter (fun a => a / 512 == r)
  let o' := o.refresh fu listed.dedup listed 0
  listed.all (fun a => !bit (o'.sh a).flags 1 && !bit (o'.sh a).flags 2 && !bit (o.sh a).flags 3) && o'.storedDigest r == o'.digest r

/-- LOCK_WRITE (R83). -/
def Chip.lockWrite (c : Chip) (fu : Fuses) (r : Nat) : Chip :=
  let dom := [0, 3, 5, 6, 7].contains r
  let denied := (decide (r < 8) && c.otp.wlock r) || (if dom then !progAllowed c.lcState r else !progState c.lcState)
  let bad := dom && !lockChecks c.otp fu r
  let st := c.otpRefusal denied (!dom) bad
  let c := if st = .integrity then c.logWord 0x1404 (512 * r) 4 st.code 0 r else c
  c.otpTry st { kind := .lockWrite, arg := r, cells := fu.lockCells r, last := .ok }

/-- LOCK_READ (R84). -/
def Chip.lockRead (c : Chip) (fu : Fuses) (r : Nat) : Chip :=
  let dom := [5, 6, 7].contains r
  let denied := if dom then !progAllowed c.lcState r else !progState c.lcState
  c.otpTry (c.otpRefusal denied (!dom) false) { kind := .lockRead, arg := r, cells := fu.lockCells (8 + r), last := .ok }

/-- LOCK_WRITE_RAW (R84): TEST_UNLOCKED while `TEST_DIS` is not blown. -/
def Chip.lockWriteRaw (c : Chip) (fu : Fuses) (r : Nat) : Chip :=
  let dom := [0, 3, 5, 6, 7].contains r
  let denied := c.lcState != lcTU || c.otp.lockBit 17 || (decide (r < 8) && c.otp.wlock r)
  c.otpTry (c.otpRefusal denied (!dom) false) { kind := .lockWriteRaw, arg := r, cells := fu.lockCells r, last := .ok }

/-- The stored words of the four roots drawn from the DRBG (R72, R85): `raw` are 128 free bytes, 32 for each root. -/
def rootWords (raw : List Byte) : List (Nat × Nat) :=
  (List.range 4).flatMap (fun i => (List.range 3).flatMap (fun j => (List.range 8).map (fun k =>
    (1024 + 24 * i + 8 * j + k, Nat.xor (numAt raw (32 * i + 4 * k) 4) (scramble (1024 + 24 * i + 8 * j + k))))))

/-- The completion digest of region 2 once the root words are in (R73). -/
def rootsDigest (ws : List (Nat × Nat)) : List Byte :=
  Config.sha3_256 (2#8 :: ((List.range 504).map (fun i => le 4 (tget ws (1024 + i) 0))).flatten)

/-- Region 2 wholly blank. -/
def Fuses.rootsBlank (fu : Fuses) : Bool := fu.cells.all (fun e => e.1 / 512 != 2)

/-- GEN_ROOTS (R85): read lock, words, digest, write lock, as one program; INTEGRITY when the DRBG gives no bytes. -/
def Chip.genRoots (c : Chip) (fu : Fuses) : Chip :=
  let denied := c.lcState != lcTU || !fu.rootsBlank
  let d := if c.otpRefusal denied false false = .ok then c.rngReq 128 true else (.ok, [], c)
  let ws := rootWords d.2.1
  d.2.2.otpTry (c.otpRefusal denied false (d.1 != .ok))
    { kind := .genRoots, arg := 2, last := .ok,
      cells := fu.lockCells 10 ++ ws.flatMap (fun w => fu.missing w.1 (eccWord w.2)) ++ digestCells fu 2 (rootsDigest ws) ++ fu.lockCells 2 }

/-- The cells of an anti-rollback position in its three copies where not yet blown at a margin (R96, R97). -/
def arbCells (fu : Fuses) (k p : Nat) : List (Nat × Nat) :=
  ([0, 1, 2].map (fun j => (2048 + 24 * k + 8 * j + p / 32, p % 32))).filter (fun q => !bit (fu.at q.1).loose q.2)

/-- The repair of a counter: the missing copies of every position below its value that resolves blown (R97). -/
def Otp.arbRepair (o : Otp) (fu : Fuses) (k : Nat) : List (Nat × Nat) :=
  (List.range (o.arb k)).flatMap (fun p => if bit (o.sh (2048 + 24 * k + p / 32)).value (p % 32) then arbCells fu k p else [])

/-- ARB_ADVANCE (R97). -/
def Chip.arbAdvance (c : Chip) (fu : Fuses) (k : Nat) : Chip :=
  let v := c.get F.OTP_WDATA_DATA
  let have_ := c.otp.arb k
  let denied := !(c.lcState = lcDEV || c.lcState = lcPROD || c.lcState = lcEND)
  let up := if have_ < v && v ≤ 256 then (List.range (v - have_)).flatMap (fun i => arbCells fu k (have_ + i)) else []
  c.otpTry (c.otpRefusal denied (decide (4 ≤ k)) false)
    { kind := .arbAdvance, arg := k, cells := c.otp.arbRepair fu k ++ up, last := if 256 < v then .limitReached else .ok }

/-- A command of Table 4.5 with its `ARG`; the controller takes none before sensing is done. -/
def Chip.otpOp (c : Chip) (fu : Fuses) (op arg : Nat) : Chip :=
  match op with
  | 1 => c.otpReadWord
  | 2 => c.progWord fu
  | 3 => c.progDigest fu arg
  | 4 => c.lockWrite fu arg
  | 5 => c.lockRead fu arg
  | 6 => c.lockWriteRaw fu arg
  | 7 => c.genRoots fu
  | 8 => c.arbAdvance fu arg
  | _ => c

/-- A write of `OTP_CMD` by the Spindle class or the JTAG path: a wrong `KEY` starts nothing, answers DENIED and logs event 0x1407
(R80); a reserved `OP` starts nothing and answers BAD_ARG with event 0x1033 (R7). -/
def Chip.otpCmdWrite (c : Chip) (fu : Fuses) (req : Req) (key op arg : Nat) : Chip :=
  if key != 0x0F75 then
    (c.put F.OTP_STATUS_RESULT Status.denied.code).log 0x1407 uOTP (aAccess R.OTP_CMD req.toNat true uOTP Status.denied.code 0)
  else if op = 0 || 8 < op then
    (c.put F.OTP_STATUS_RESULT Status.badArg.code).log 0x1033 uOTP (aClamp R.OTP_CMD op 0 req.toNat 0)
  else c.otpOp fu op arg

/-- The cells as one sensing finds them: the words listed read as listed, the others as blown. -/
def Fuses.seen (fu : Fuses) (drift : List (Nat × Cells)) : Fuses :=
  { cells := drift.foldl (fun t e => if e.1 < 4099 then tput t e.1 e.2 else t) fu.cells }

/-- An `OTP_CMD` write on the OTP page. -/
def State.otpCmd (s : State) (req : Req) (key : BitVec 16) (op : Nat) (arg : BitVec 8) : Host.Outcome State Fault Refusal :=
  s.onF (fun fu c => c.guarded req R.OTP_CMD true (fun c => (c.wrote req).otpCmdWrite fu req key.toNat op arg.toNat))

/-- OTP_READ (R80). -/
def execOtpRead (req : Req) (key : BitVec 16) (s : State) : Host.Outcome State Fault Refusal := s.otpCmd req key 1 0

/-- PROG_WORD (R81). -/
def execProgWord (req : Req) (key : BitVec 16) (s : State) : Host.Outcome State Fault Refusal := s.otpCmd req key 2 0

/-- PROG_DIGEST (R83). -/
def execProgDigest (req : Req) (key : BitVec 16) (arg : BitVec 8) (s : State) : Host.Outcome State Fault Refusal := s.otpCmd req key 3 arg

/-- LOCK_WRITE (R83): `drift` lists the words that its own sensing reads otherwise than they were blown. -/
def execLockWrite (req : Req) (key : BitVec 16) (arg : BitVec 8) (drift : List (Nat × Cells)) (s : State) : Host.Outcome State Fault Refusal :=
  s.onF (fun fu c => c.guarded req R.OTP_CMD true (fun c => (c.wrote req).otpCmdWrite (fu.seen drift) req key.toNat 4 arg.toNat))

/-- LOCK_READ (R84). -/
def execLockRead (req : Req) (key : BitVec 16) (arg : BitVec 8) (s : State) : Host.Outcome State Fault Refusal := s.otpCmd req key 5 arg

/-- LOCK_WRITE_RAW (R84). -/
def execLockWriteRaw (req : Req) (key : BitVec 16) (arg : BitVec 8) (s : State) : Host.Outcome State Fault Refusal :=
  s.otpCmd req key 6 arg

/-- GEN_ROOTS (R85). -/
def execGenRoots (req : Req) (key : BitVec 16) (s : State) : Host.Outcome State Fault Refusal := s.otpCmd req key 7 0

/-- ARB_ADVANCE (R97). -/
def execArbAdvance (req : Req) (key : BitVec 16) (arg : BitVec 8) (s : State) : Host.Outcome State Fault Refusal :=
  s.otpCmd req key 8 arg

/-! Ends of programs. -/

/-- The cells blown when the one at `bad` will not blow: those before it (R81). -/
def done (cells : List (Nat × Nat)) (bad : Option Nat) : List (Nat × Nat) :=
  match bad with
  | some i => if i < cells.length then cells.take i else cells
  | none => cells

/-- The cell that will not blow. -/
def stuckCell (cells : List (Nat × Nat)) (bad : Option Nat) : Option (Nat × Nat) := bad.bind (fun i => cells[i]?)

/-- The words that a program's command names: their shadows are sensed again although no cell was missing (R81 to R83). -/
def OtpJob.words (j : OtpJob) : List (Nat × Nat) :=
  match j.kind with
  | .progWord => [(j.arg, 0)]
  | .progDigest => (List.range 8).map (fun i => (512 * j.arg + 504 + i, 0))
  | .genRoots => []
  | .arbAdvance => (List.range 24).map (fun i => (2048 + 24 * j.arg + i, 0))
  | _ => [(4096, 0), (4097, 0), (4098, 0)]

/-- The event that the success of a program logs. -/
def Chip.otpDoneEvent (c : Chip) (j : OtpJob) (before : Nat) : Chip :=
  match j.kind with
  | .lockWrite => c.logWord 0x0404 (512 * j.arg) j.kind.op 0 0 j.arg
  | .genRoots => c.logWord 0x0404 1024 j.kind.op 0 0 2
  | .arbAdvance =>
    if j.last = .limitReached then c.logWord 0x1405 (2048 + 24 * j.arg) j.kind.op j.last.code 0 j.arg
    else if before < c.otp.arb j.arg then c.logWord 0x0405 (2048 + 24 * j.arg) j.kind.op 0 0 j.arg else c
  | _ => c

/-- CONFIRM's next advance (R480): the next counter's, once none runs; the status of one refused ends it. -/
def Chip.confirmNext (c : Chip) (fu : Fuses) : Chip :=
  match c.upd.confirm with
  | none => c
  | some q =>
    if q.ended || c.otp.job.isSome then c
    else
      match q.left with
      | [] => { c with upd := { c.upd with confirm := some { q with ended := true } } }
      | e :: rest =>
        let c := (c.put F.OTP_WDATA_DATA e.2).arbAdvance fu e.1
        let st := (Status.ofCode (c.get F.OTP_STATUS_RESULT)).getD .integrity
        { c with upd := { c.upd with confirm := some (if c.otp.job.isSome then { q with left := rest } else { q with ended := true, st := st }) } }

/-- The end of an advance with a status, as CONFIRM takes it. -/
def Chip.confirmTook (c : Chip) (fu : Fuses) (st : Status) : Chip :=
  match c.upd.confirm with
  | none => c
  | some q => if st = .ok then c.confirmNext fu else { c with upd := { c.upd with confirm := some { q with ended := true, st := st } } }

/-- OTP_PROGRAM_DONE (R81, R83 to R85, R97): `bad` is the place of a cell that will not blow in three pulses. -/
def execOtpProgramDone (bad : Option Nat) (s : State) : Host.Outcome State Fault Refusal :=
  s.both (fun fu c =>
    match c.otp.job with
    | none => (fu, c)
    | some j =>
      if j.kind.lcs then (fu, c)
      else
        let before := c.otp.arb j.arg
        let ps := done j.cells bad
        let fu := fu.blowAll ps
        match stuckCell j.cells bad with
        | some p =>
          let c := (c.otpRefresh fu ps 0).otpRefresh fu [p] 8
          (fu, ((c.logWord 0x2401 p.1 j.kind.op Status.integrity.code 0 j.arg).otpEnd .integrity true).confirmTook fu .integrity)
        | none => (fu, (((c.otpRefresh fu (ps ++ j.words) 0).otpEnd j.last false).otpDoneEvent j before).confirmTook fu j.last))

/-- QUENCH_DONE (R86, R450): the cells at the places of `bad` (bit 0 L0 to bit 2 L2) will not blow, each with event 0x2401 and its word
`PARTIAL`. The quench shadows are sensed again; once quench resolves blown, the line is held low and no root is selected; else a transition
to SCRAP stops. -/
def execQuenchDone (bad : Nat) (s : State) : Host.Outcome State Fault Refusal :=
  s.both (fun fu c =>
    if !c.otp.quenching then (fu, c)
    else
      let stuck := ((quenchCells.zipIdx.filter (fun p => bit bad p.2)).map (·.1)).filter (fun p => !bit (fu.at p.1).tight p.2)
      let fu := fu.blowAll ((quenchCells.zipIdx.filter (fun p => !bit bad p.2)).map (·.1))
      let c := (({ c with otp := { c.otp with quenching := false } }).otpRefresh fu quenchCells 0).otpRefresh fu stuck 8
      let c := c.put F.SNG_STATUS_QUENCH_REQ 0
      let c := c.each stuck (fun c p => c.logWord 0x2401 p.1 0 Status.integrity.code 0 0)
      if c.otp.quenched then (fu, ((c.put F.LCS_ROOTS_SELECTED 0).driveOut .low))
      else
        let c := if c.lcs.pending && c.seq = .sense then { c with lcs := { c.lcs with stuck := true } } else c
        match c.otp.job with
        | some j =>
          if j.kind = .lcsQuench then
            (fu, ((({ c with otp := { c.otp with job := none } }).put F.LCS_STATUS_RESULT Status.integrity.code).put F.LCS_STATUS_BUSY 0).put
              F.LCS_STATUS_PHASE 0 |>.put F.OTP_STATUS_BUSY 0 |>.put F.OTP_STATUS_PARTIAL 1)
          else (fu, c)
        | none => (fu, c))

/-! Audits (R79). -/

/-- OTP_AUDIT_START (R79): `value` is what was written to `OTP_AUDIT`. -/
def Chip.auditStart (c : Chip) (value : Word) : Chip :=
  let c := (c.put F.OTP_AUDIT_REGIONS (wget 7 0 value)).put F.OTP_AUDIT_LOCKROW (wget 8 8 value)
  if wget 16 16 value = 0 then c
  else if c.otpBusy then c.put F.OTP_AUDIT_RES_STATUS Status.busy.code
  else
    ((({ c with otp := { c.otp with audit := some (wget 8 0 value) } }).put F.OTP_AUDIT_RES_RUNNING 1).put F.OTP_STATUS_BUSY 1).put
      F.OTP_AUDIT_RES_MISMATCH 0

/-- OTP_AUDIT_START (R79). -/
def execOtpAuditStart (req : Req) (value : Word) (s : State) : Host.Outcome State Fault Refusal :=
  s.on (fun c => c.guarded req R.OTP_AUDIT true (fun c => (c.wrote req).auditStart value))

/-- Is a word part of an audit of mask `m` (bits 7:0 regions, bit 8 the lock row)? Region 2 is gated off after a quench (R87). -/
def audited (o : Otp) (m a : Nat) : Bool :=
  if lockBase ≤ a then bit m 8 else bit m (a / 512) && !(a / 512 == 2 && o.quenched)

/-- A word mismatches its shadow (R79). -/
def mismatch (o : Otp) (fu : Fuses) (a : Nat) : Bool := (fu.at a).normal != (o.sh a).raw || (fu.at a).marginal != (o.sh a).marginal

/-- OTP_AUDIT_DONE (R79): `drift` lists the words that this sensing reads otherwise than they were blown. -/
def execOtpAuditDone (drift : List (Nat × Cells)) (s : State) : Host.Outcome State Fault Refusal :=
  s.onF (fun fu c =>
    match c.otp.audit with
    | none => c
    | some m =>
      let fu := fu.seen drift
      let listed := (((fu.cells.map (·.1)) ++ (c.otp.shadow.map (·.1))).dedup.mergeSort (· ≤ ·)).filter
        (fun a => audited c.otp m a && mismatch c.otp fu a)
      let c := c.each listed (fun c a =>
        c.logWord (if lockBase ≤ a || a / 512 = 2 then 0x3402 else 0x2402) a 0 0 0 0)
      ((({ c with otp := { c.otp with audit := none } }).put F.OTP_AUDIT_RES_MISMATCH (min 65535 listed.length)).put
        F.OTP_AUDIT_RES_STATUS Status.ok.code).put F.OTP_AUDIT_RES_RUNNING 0 |>.put F.OTP_STATUS_BUSY 0)

end Sys2Proof.Machine
end

