-- ==== Sys2Proof/Machine/Lifecycle.lean ====
section
/-!
DEFINITION. Fuse sensing (R70 to R76), the resolved package class (R2, R27, R28), and the life-cycle machine (R88 to R95).
-/

namespace Sys2Proof.Machine

/-! Sensing. -/

/-- The words a sensing leaves in the shadows: every word with a blown or drifted cell, and the groups they resolve with; region 2 is
not sensed once quench is blown (R87). -/
def sensedWords (fu : Fuses) : List Nat :=
  let ws := (touched (fu.cells.map (fun e => (e.1, 0)))).mergeSort (· ≤ ·)
  if bit fu.lockRow 16 then ws.filter (fun a => a / 512 != 2) else ws

/-- The events of one word as sensed (Table 4.17); an uncorrectable word's in an unlocked region only. -/
def Chip.senseEvents (c : Chip) (a : Nat) : Chip :=
  let f := (c.otp.sh a).flags
  let c := c.when (bit f 1 || bit f 4) (fun c => c.logWord 0x1401 a 0 0 0 0)
  let c := c.when (bit f 0) (fun c => c.logWord 0x1402 a 0 0 0 0)
  c.when (bit f 2 && decide (a < lockBase) && !c.otp.wlock (a / 512)) (fun c => c.logWord 0x2404 a 0 0 0 0)

/-- Root `i` fails integrity although region 2 was generated (R74). -/
def Otp.rootFailed (o : Otp) (i : Nat) : Bool := o.rootsMade && !o.quenched && !(List.range 8).all (fun k => (o.rootWord i k).isSome)

/-- Regions whose digest, class field or records fail at start (R74). -/
def Otp.failures (o : Otp) (fu : Fuses) (d : Derived) : List Nat :=
  (List.range 8).filter (fun r =>
    (o.wlock r && r != 1 && r != 4 && !(r == 2 && o.quenched) && o.storedDigest r != o.digest r) ||
      (r == 0 && fu.classField.isNone) || (r == 1 && d.bad))

/-- The package class that strap and fuses resolve to (R2, R27, R75), with the fuse class. -/
def Chip.resolveClass (c : Chip) (fu : Fuses) : Nat × Nat :=
  let fuse := if c.otp.dead 0 then 0 else (fu.classField.getD 0) % 4
  let f := if fuse = 3 then 0 else fuse
  let s := if c.pins.strapClass = 3 then 0 else c.pins.strapClass
  (min f s, f)

/-- `GEN_ID` after sensing, with event 0x1203 for strap 0b11, or for `PLY_SIDE` 1 in HX4 (R27, R28). -/
def Chip.applyClass (c : Chip) (fu : Fuses) : Chip :=
  let r := c.resolveClass fu
  let side := b2n c.pins.strapSide
  let c := (c.put F.GEN_ID_PKG_CLASS r.1).put F.GEN_ID_SIDE (if r.1 = 0 then 0 else side)
  if c.pins.strapClass = 3 || (r.1 = 0 && side = 1)
  then c.log 0x1203 uGEN (pack [(1, c.pins.strapClass), (1, r.2), (1, r.1), (1, side)]) else c

/-- `LCS_STATE` for a derived state, with the target of a record in progress (Table 4.16). -/
def Chip.lcsShow (c : Chip) (cur next used : Nat) : Chip :=
  ((c.put F.LCS_STATE_CURRENT cur).put F.LCS_STATE_NEXT next).put F.LCS_STATE_RECORDS used

/-- Counts of `OTP_SENSE_SUM`, saturating. -/
def Chip.senseSum (c : Chip) (time : Nat) : Chip :=
  let n := fun i => min 255 (c.otp.shadow.filter (fun e => bit e.2.flags i)).length
  (((c.put F.OTP_SENSE_SUM_MARGINAL (n 1)).put F.OTP_SENSE_SUM_CORRECTED (n 0)).put F.OTP_SENSE_SUM_UNCORR (n 2)).put
    F.OTP_SENSE_SUM_TIME (min 255 time)

/-- The end of SENSE's work on the fuses once no record waits (R74, R76): the selected root is judged for the state then derived; an
integrity failure holds HX4 and HX16, and in HX64 waits for ROM. -/
def Chip.senseEnd (c : Chip) : Chip :=
  let sel := rootOf c.lcState
  let badSel := match sel with | some i => c.otp.rootFailed i | none => false
  let c := if badSel && !c.otp.dead 2 then { c with otp := { c.otp with failed := (c.otp.failed ++ [2]).mergeSort (· ≤ ·) } } else c
  let c := c.each (List.range 4) (fun c i =>
    if c.otp.rootFailed i && sel != some i then c.logWord 0x2403 (1024 + 24 * i) 0 0 0 i else c)
  let c := ({ c with lcs := { c.lcs with pending := false }, otp := { c.otp with atStart := c.otp.failed } }).otpMirror
  if c.otp.failed.isEmpty then c
  else
    let c := c.put F.OTP_STATUS_INTEG_FAIL 1
    if c.pkg = .hx64 then c
    else
      let rs := c.otp.failed
      c.enterHeld 1 |>.each rs (fun c r => c.logWord 0x3401 (512 * r) 0 0 0 0)

/-- The words as sensed: shadows at three margins, the regions whose stored digest fails, the events and the sums (R77 to R79). -/
def Chip.senseShadow (c : Chip) (fu : Fuses) : Chip :=
  { c with otp := ({ c.otp with sensed := true, shadow := [] }).refresh fu (sensedWords fu) [] 0 }

/-- What the sensed words decide before the life-cycle state: failures, events, the class and the trim flag. -/
def Chip.senseTake (c : Chip) (fu : Fuses) (d : Derived) (time : Nat) : Chip :=
  let c := { c with otp := { c.otp with failed := c.otp.failures fu d } }
  let c := (c.each (sensedWords fu) Chip.senseEvents).senseSum time
  (c.applyClass fu).put F.SNG_STATUS_UNTRIMMED (b2n ((List.range 512).all (fun i => (c.otp.sh (3072 + i)).raw == 0)))

/-- The life-cycle state the records give is shown, and the count of records used kept (R92, R95). -/
def Chip.senseLcs (c : Chip) (d : Derived) : Chip :=
  let c := if d.bad then c.lcsShow lcRAW lcRAW d.used
    else c.lcsShow d.state (match d.pending with | some k => ((c.otp.intent k).getD (0, d.state)).2 | none => d.state) d.used
  { c with lcs := { c.lcs with used := d.used } }

/-- A pending record waits to be finished; with none, sensing ends (R95). -/
def Chip.senseRecord (c : Chip) (d : Derived) : Chip :=
  match (if d.bad then none else d.pending) with
  | some k =>
    let st := (c.otp.intent k).getD (0, 0)
    ({ c with lcs := { c.lcs with record := some k, source := st.1, target := st.2, pending := true } }).otpMirror
  | none => c.senseEnd

/-- FUSE_SENSING_DONE (R70 to R76, R87, R93, R450): `drift` lists words that sense otherwise than they were blown. -/
def execFuseSensingDone (drift : List (Nat × Cells)) (time : Nat) (s : State) : Host.Outcome State Fault Refusal :=
  s.onF (fun fu c => c.aon (fun c =>
    if c.otp.sensed then c
    else
      let fu := fu.seen drift
      let c := c.senseShadow fu
      let d := c.otp.derive
      let c := (c.senseTake fu d time).senseLcs d
      (if c.otp.quenched then (c.driveOut .low).quenchFill fu else c).senseRecord d))

/-! Transitions. -/

/-- The cells of intent (`done_` false) or done copies of a record not yet blown, in copy order (R92, R94). -/
def recCells (fu : Fuses) (k src tgt : Nat) (done_ : Bool) : List (Nat × Nat) :=
  (List.range 3).flatMap (fun j =>
    fu.missing (recAddr k (if done_ then 3 + j else j)) (eccWord (if done_ then doneWord k src tgt else intentWord k src tgt)))

/-- The action of Table 4.7 as cells: `TEST_DIS` for DEV and PROD; the quench of SCRAP is requested apart. -/
def actionCells (fu : Fuses) (src tgt : Nat) : List (Nat × Nat) :=
  if src = lcTU && (tgt = lcDEV || tgt = lcPROD) then fu.lockCells 17 else []

/-- The phase a record has reached (R94, R95): INTENT, ACTION or DONE. -/
def Chip.recPhase (c : Chip) (fu : Fuses) (k src tgt : Nat) : Nat :=
  if !(recCells fu k src tgt false).isEmpty then 2
  else if !(actionCells fu src tgt).isEmpty || (tgt = lcSCRAP && !c.otp.quenched) then 3
  else 4

/-- The record waits for the next start: not finished at this one (R95). -/
def Chip.recStuck (c : Chip) : Chip := ({ c with lcs := { c.lcs with stuck := true } }).senseEnd

/-- A cell of a pending record will not blow (R81, R95). -/
def Chip.recStop (c : Chip) (fu : Fuses) (p : Nat × Nat) (ph : Nat) : Chip :=
  ((c.otpRefresh fu [p] 8).logWord 0x2401 p.1 ph Status.integrity.code c.lcs.target (c.lcs.record.getD 0)).recStuck

/-- LCS_RECORD_RESUME (R95): the pending record is finished in SENSE while `VIN_FUSE_OK` is 1; a transition to SCRAP takes its
missing intent copies, then the quench (ended by QUENCH_DONE), then the rest. A cell that will not blow leaves the record pending. -/
def execLcsRecordResume (bad : Option Nat) (s : State) : Host.Outcome State Fault Refusal :=
  s.both (fun fu c =>
    match c.lcs.record with
    | none => (fu, c)
    | some k =>
      if !c.lcs.pending || c.seq != .sense || c.otp.quenching then (fu, c)
      else if c.lcs.stuck then (fu, c.senseEnd)
      else if c.get F.PWR_STATUS_VIN_FUSE_OK = 0 then
        if c.lcs.waited then (fu, c)
        else (fu, ({ c with lcs := { c.lcs with waited := true } }).logWord 0x1403 (recAddr k 0) 0 Status.busy.code c.lcs.target k)
      else
        let src := c.lcs.source
        let tgt := c.lcs.target
        let ph := c.lcs.found.getD (c.recPhase fu k src tgt)
        let unq := tgt = lcSCRAP && !c.otp.quenched
        let cells := recCells fu k src tgt false ++ (if unq then [] else actionCells fu src tgt ++ recCells fu k src tgt true)
        let ps := done cells bad
        let fu := fu.blowAll ps
        let c := ({ c with lcs := { c.lcs with found := some ph } }).otpRefresh fu ps 0
        match stuckCell cells bad with
        | some p => (fu, c.recStop fu p ph)
        | none =>
          if unq then (fu, if c.get F.SNG_STATUS_QUENCH_REQ = 0 then c.quenchRequest else c)
          else
            let c := (c.lcsShow tgt tgt (c.lcs.used)).put F.LCS_STATE_RESUMED 1
            let c := { c with lcs := { c.lcs with record := none, found := none } }
            (fu, (c.logLcs 0x0403 (recAddr k 0) ph 0 tgt k).senseEnd))

/-- The token digest a transition compares with, none when it needs no token: the ROM constant, or words of region 3 (Table 4.7). -/
def Otp.tokenDigest (o : Otp) (src tgt : Nat) : Option (List Byte) :=
  if src = lcRAW && tgt = lcTU then some Config.rawTokenDigest
  else if src = lcTL && tgt = lcTU then some (o.bytes (1536 + 48) 8)
  else if tgt = lcRMA then some (o.bytes (1536 + 56) 8)
  else none

/-- The digest words of a token transition are all blank (R90). -/
def Otp.tokenBlank (o : Otp) (src tgt : Nat) : Bool :=
  if src = lcRAW then false else (o.tokenDigest src tgt).any (fun d => d.all (· == 0#8))

/-- Transitions that need a signed authorisation (Table 4.7). -/
def needsAuth (src tgt : Nat) : Bool :=
  (src = lcPROD && tgt = lcEND) || tgt = lcRMA || (tgt = lcSCRAP && lcDEV ≤ src)

/-- The token registers as 32 bytes. -/
def Chip.token (c : Chip) : List Byte := ((List.range 8).map (fun n => le 4 (c.rd (R.LCS_TOKENn n)).toNat)).flatten

/-- The check of a transition (R90, R94), in R9's order. A state that selects a failed root is refused (R74); after a torn `GEN_ROOTS` only SCRAP
is left (R85). A GO that resumes a record is checked again (log entry 131). -/
def Chip.lcsCheck (c : Chip) (src tgt : Nat) (auth jtag : Bool) : Status :=
  let o := c.otp
  let path := jtag || !(src = lcRAW || src = lcTL)
  let prov := src = lcTU && (tgt = lcDEV || tgt = lcPROD)
  let pre := !prov || ([0, 2, 3, 5, 6].all o.wlock && o.rlock 2)
  let other := match c.lcs.record with | some _ => tgt != c.lcs.target | none => false
  let torn := bit (Nat.lor (Nat.lor (o.sh 4096).raw (o.sh 4097).raw) (o.sh 4098).raw) 10 && !o.wlock 2 && tgt != lcSCRAP
  let rootless := (prov || tgt = lcRMA) && (!o.rootsMade || o.quenched)
  let rootBad := (!rootless && ((prov && !(List.range 4).all o.rootGood) || (tgt = lcRMA && !o.rootGood 3))) ||
    (match rootOf tgt with | some i => o.rootFailed i | none => false)
  let tokenBad := match o.tokenDigest src tgt with | some d => Config.sha3_256 c.token != d | none => false
  let free := match c.lcs.record with | some _ => true | none => c.lcs.used < (if tgt = lcSCRAP then 32 else 31)
  firstStatus
    [ (!lcAllowed src tgt || !path || !pre || other || (needsAuth src tgt && !auth) || o.tokenBlank src tgt || torn || rootless, .denied),
      (rootBad || tokenBad, .integrity), (!free, .limitReached),
      (o.busy || c.get F.LCS_STATUS_BUSY = 1 || c.get F.PWR_STATUS_VIN_FUSE_OK = 0, .busy) ]

/-- The token registers cleared (R90). -/
def Chip.clearToken (c : Chip) : Chip := c.resetRegs (R.LCS_TOKENn 0) (R.LCS_TOKENn 0 + 32)

/-- A transition enters a phase with the cells that phase blows. -/
def Chip.lcsPhase (c : Chip) (ph : Nat) (k : OtpKind) (cells : List (Nat × Nat)) : Chip :=
  ({ c with otp := { c.otp with job := some { kind := k, arg := 0, cells := cells, last := .ok } } }).put F.LCS_STATUS_PHASE ph

/-- A transition enters ACTION: `TEST_DIS`, the quench, or nothing (Table 4.7). -/
def Chip.lcsAction (c : Chip) (fu : Fuses) : Chip :=
  if c.lcs.target = lcSCRAP then (c.lcsPhase 3 .lcsQuench []).quenchRequest
  else c.lcsPhase 3 .lcsAction (actionCells fu c.lcs.source c.lcs.target)

/-- A transition begins, or a pending one resumes at the phase it reached (R94). -/
def Chip.lcsBegin (c : Chip) (fu : Fuses) (src tgt : Nat) : Chip :=
  let k := c.lcs.record.getD c.lcs.used
  let used := match c.lcs.record with | some _ => c.lcs.used | none => c.lcs.used + 1
  let c := { c with lcs := { c.lcs with record := some k, source := src, target := tgt, used := used } }
  let c := (((c.put F.LCS_STATUS_RESULT Status.pending.code).put F.LCS_STATUS_BUSY 1).put F.OTP_STATUS_BUSY 1).put F.LCS_STATE_NEXT tgt
  match c.recPhase fu k src tgt with
  | 2 => c.lcsPhase 2 .lcsIntent (recCells fu k src tgt false)
  | 3 => c.lcsAction fu
  | _ => c.lcsPhase 4 .lcsDone (recCells fu k src tgt true)

/-- A write of `LCS_CTRL` (R90, R94, R99): a wrong `KEY` changes nothing; a reserved `TARGET` is refused with DENIED and
logs event 0x1033 (R7); `GO` checks the transition, clears the token registers and starts it. -/
def Chip.lcsCtrlWrite (c : Chip) (fu : Fuses) (req : Req) (value : Word) (jtag : Bool) : Chip :=
  let tgt := wget 3 0 value
  if wget 31 16 value != 0x7C5A then c.log 0x1407 uLCS (aAccess R.LCS_CTRL req.toNat true uLCS 0 0)
  else if wget 8 8 value = 0 then c.when (decide (8 ≤ tgt)) (fun c => c.log 0x1033 uLCS (aClamp R.LCS_CTRL tgt 0 req.toNat 0))
  else
    let st := c.lcsCheck c.lcState tgt (wget 9 9 value = 1) jtag
    let c := c.clearToken
    let c := c.when (decide (8 ≤ tgt)) (fun c => c.log 0x1033 uLCS (aClamp R.LCS_CTRL tgt 0 req.toNat 0))
    if st = .ok then c.lcsBegin fu c.lcState tgt
    else
      let c := c.put F.LCS_STATUS_RESULT st.code
      let c := if c.get F.LCS_STATUS_BUSY = 0 then c.put F.LCS_STATUS_PHASE 0 else c
      if st = .busy && c.get F.PWR_STATUS_VIN_FUSE_OK = 0
      then c.logWord 0x1403 (recAddr (min 31 c.lcs.used) 0) 1 st.code tgt (min 31 c.lcs.used) else c

/-- LCS_GO (R94). -/
def execLcsGo (req : Req) (value : Word) (s : State) : Host.Outcome State Fault Refusal :=
  s.onCut (fun c => c.guarded req R.LCS_CTRL true (fun c => (c.wrote req).lcsCtrlWrite s.fuses req value false))

/-- LCS_PHASE_DONE (R94): the intent, action or done writes of a transition complete; `bad` is the place of a cell that will not blow. With
the rail outside the fuse window no pulse was started (R81), and the phase waits for a new `GO`. -/
def execLcsPhaseDone (bad : Option Nat) (s : State) : Host.Outcome State Fault Refusal :=
  s.both (fun fu c =>
    match c.otp.job with
    | none => (fu, c)
    | some j =>
      if !j.kind.lcs || (j.kind = .lcsQuench && (c.otp.quenching || !c.otp.quenched)) then (fu, c)
      else
        let k := c.lcs.record.getD 0
        if c.get F.PWR_STATUS_VIN_FUSE_OK = 0 && !j.cells.isEmpty then
          let c := (({ c with otp := { c.otp with job := none } }).put F.LCS_STATUS_RESULT Status.busy.code).put F.LCS_STATUS_BUSY 0
          (fu, (c.put F.OTP_STATUS_BUSY 0).logWord 0x1403 ((j.cells.headD (0, 0)).1) 1 Status.busy.code c.lcs.target k)
        else
        let ps := done j.cells bad
        let fu := fu.blowAll ps
        let c := ({ c with otp := { c.otp with job := none } }).otpRefresh fu ps 0
        match stuckCell j.cells bad with
        | some p =>
          let c := (c.otpRefresh fu [p] 8).logWord 0x2401 p.1 (c.get F.LCS_STATUS_PHASE) Status.integrity.code c.lcs.target k
          (fu, (((c.put F.LCS_STATUS_RESULT Status.integrity.code).put F.LCS_STATUS_PHASE 0).put F.LCS_STATUS_BUSY 0).put
            F.OTP_STATUS_BUSY 0 |>.put F.OTP_STATUS_PARTIAL 1)
        | none =>
          match j.kind with
          | .lcsIntent => settleCut fu (c.lcsAction fu)
          | .lcsDone =>
            let c := (((c.put F.LCS_STATUS_RESULT Status.ok.code).put F.LCS_STATUS_DONE 1).put F.LCS_STATUS_PHASE 5).put F.OTP_STATUS_PARTIAL 0
            (fu, ({ c with lcs := { c.lcs with record := none, stuck := false } }).logLcs 0x0402 (recAddr k 3) 4 0 c.lcs.target k)
          | _ => (fu, c.lcsPhase 4 .lcsDone (recCells fu k c.lcs.source c.lcs.target true)))

/-- LCS_RESTART (R94): 10 µs after DONE the Service and Crypto domains reset, and the warm start
derives the new state; with the Service domain off, the next start does. -/
def execLcsRestart (s : State) : Host.Outcome State Fault Refusal :=
  s.onCut (fun c =>
    if c.get F.LCS_STATUS_PHASE = 5 then
      let c := ((c.put F.LCS_STATUS_PHASE 0).put F.LCS_STATUS_BUSY 0).put F.OTP_STATUS_BUSY 0
      let c := (c.lcsShow c.lcs.target c.lcs.target c.lcs.used).put F.LCS_ROOTS_SELECTED 0
      (c.put F.SNG_CTRL_QUENCH_EN (if c.lcs.target ≤ 1 then c.get F.SNG_CTRL_QUENCH_EN else 1)).warmReset
    else c)

end Sys2Proof.Machine
end

