-- ==== Sys2Proof/Machine/RingOps.lean ====
section
/-!
DEFINITION. Sending and receiving Skein frames (R38 to R44): ring order and direction, tags, acknowledgements, retries, broadcasts,
replay windows, tag failures and the storm; the presence and break registers as notices change them.
-/

namespace Sys2Proof.Machine

/-! Ring order (Table 2.3). -/

/-- The nodes of a class, clockwise. -/
def ringOrder (p : Pkg) : List Nat :=
  match p with
  | .hx64 => [64] ++ List.range 32 ++ [65] ++ (List.range 32).map (· + 32)
  | .hx16 => [64] ++ List.range 8 ++ [65] ++ (List.range 8).map (· + 8)
  | .hx4 => [64, 0, 1, 2, 3]

/-- Hops clockwise from one node to another. -/
def cwHops (p : Pkg) (a b : Nat) : Nat :=
  let o := ringOrder p
  (o.idxOf b + o.length - o.idxOf a) % o.length

/-- The clockwise path from `a` to `b` crosses the segment from `x` to `y`. -/
def cwCrosses (p : Pkg) (a b x y : Nat) : Bool := decide (cwHops p a x + cwHops p x y ≤ cwHops p a b)

/-- A clockwise path from `a` to `b` crosses a segment of a break notice in force (R41): each break is avoided until its own segment is
mended (Table 2.7). -/
def Chip.cwBroken (c : Chip) (a b : Nat) : Bool := c.ring.breaks.any (fun k => cwCrosses c.pkg a b k.1 k.2)

/-- A path in a direction (`cc` true for counter-clockwise) crosses the segment of a break notice in force. -/
def Chip.pathBroken (c : Chip) (dst : Nat) (cc : Bool) : Bool := if cc then c.cwBroken dst c.node else c.cwBroken c.node dst

/-- What is left of a break once the segment from `a` to `b` carries frames: nothing where it lies inside that segment, the parts on
either side where it contains it. -/
def breakLess (p : Pkg) (a b : Nat) (k : Nat × Nat) : List (Nat × Nat) :=
  if cwCrosses p a b k.1 k.2 then []
  else if cwCrosses p k.1 k.2 a b then
    (if k.1 = a then [] else [(k.1, a)]) ++ (if b = k.2 then [] else [(b, k.2)])
  else [k]

/-- The breaks in force, and the newest of them in `SKN_STATUS` (Table 2.11). -/
def Chip.setBreaks (c : Chip) (ks : List (Nat × Nat)) : Chip :=
  let k := ks.getLastD (0xFF, 0xFF)
  let c := { c with ring := { c.ring with breaks := ks } }
  ((c.put F.SKN_STATUS_BREAK (b2n (!ks.isEmpty))).put F.SKN_STATUS_BREAK_A k.1).put F.SKN_STATUS_BREAK_B k.2

/-- The direction of a unicast frame (R41): fewer hops, clockwise on a tie, avoiding a break in force. -/
def Chip.dirOf (c : Chip) (dst : Nat) : Bool :=
  let cc := decide (cwHops c.pkg dst c.node < cwHops c.pkg c.node dst)
  if c.pathBroken dst cc && !c.pathBroken dst (!cc) then !cc else cc

/-! Frames. -/

/-- `FLAGS` bits (Table 2.4). -/
def flagDir : Nat := 128
def flagRetry : Nat := 64
def flagBcast : Nat := 32

/-- Bytes 0 to 11 of a frame. -/
def RingFrame.head (f : RingFrame) (flags : Nat) : List Byte :=
  pack [(1, f.typ), (1, flags), (1, f.src), (1, f.dst), (4, f.seq), (2, f.payload.length), (2, f.rkey)]

/-- A frame's tag under a ring key (R39): `DIR` and `RETRY` read as 0. -/
def RingFrame.gmac (f : RingFrame) (key : List Byte) : List Byte :=
  padTo 16 (Config.gmac key (pack [(1, f.src), (1, 0), (2, f.rkey), (4, f.seq), (4, 0)])
    (f.head (Nat.land f.flags (255 - flagDir - flagRetry)) ++ f.payload))

/-- A frame's bytes on the wire. -/
def RingFrame.bytes (f : RingFrame) : List Byte :=
  f.head f.flags ++ le 4 (crc32c (f.head f.flags)) ++ f.payload ++ f.tag

/-- An all-zero tag. -/
def zeroTag : List Byte := List.replicate 16 0#8

/-- Types a node without the ring key accepts (Table 2.5). -/
def preKey (typ : Nat) : Bool := typ = 0x40 || typ = 0x41 || typ = 0x70 || typ = 0x71 || typ = 0x7E

/-- The frame this instance sends next, tagged when it holds the ring key; MEAS_REQ always untagged (R40, R123). -/
def Chip.mkFrame (c : Chip) (typ dst flags : Nat) (payload : List Byte) : RingFrame :=
  let body := padTo ((payload.length + 15) / 16 * 16) payload
  let f : RingFrame :=
    { typ := typ, flags := flags, src := c.node, dst := dst, seq := c.ring.seq, rkey := c.ring.rkey, payload := body, tag := zeroTag }
  match c.ring.key with
  | some k => if typ = 0x40 then f else { f with tag := f.gmac k }
  | none => f

/-- The next `SEQ`; a node whose `SEQ` would wrap stops sending and logs event 0x2201 (R40). -/
def Chip.seqNext (c : Chip) : Chip :=
  if c.ring.seq + 1 < 2 ^ 32 then { c with ring := { c.ring with seq := c.ring.seq + 1 } }
  else ({ c with ring := { c.ring with stopped := true } }).log 0x2201 uSKN
    (aFrame 0 c.node 0xFF 0 c.ring.seq c.ring.rkey 0 Status.busy.code 0)

/-- Can the ring interface send: PHYs enabled, `SEQ` not exhausted (R40, R47)? -/
def Chip.ringLive (c : Chip) : Bool := c.svcUp && c.get F.SKN_CTRL_RING_EN == 1 && !c.ring.stopped

/-- A frame leaves at the ring interface: counted and traced (Tables 18.3, 18.5). -/
def Chip.ringOut (c : Chip) (f : RingFrame) : Chip := ((c.send (.ring f)).count 24 1).trace 9 1 0 (f.bytes.take 16)

/-- Send a unicast frame (R41, R42): held until acknowledged, RING_ACK apart. -/
def Chip.ringSend (c : Chip) (typ dst : Nat) (payload : List Byte) : Chip :=
  if !c.ringLive then c
  else
    let f := c.mkFrame typ dst (if c.dirOf dst then flagDir else 0) payload
    let c := c.ringOut f
    let c := if typ = 0x7E then c else { c with ring := { c.ring with held := c.ring.held ++ [{ frame := f, tries := 1 }] } }
    c.seqNext

/-- Send a broadcast once in each direction (R43). -/
def Chip.ringBroadcast (c : Chip) (typ : Nat) (payload : List Byte) : Chip :=
  if !c.ringLive then c
  else
    let f := c.mkFrame typ 0xFF flagBcast payload
    ((c.ringOut f).ringOut { f with flags := flagBcast + flagDir }).seqNext

/-- Resend a held frame with `RETRY`, alternating the direction unless a break rules one out (R42). -/
def Chip.ringResend (c : Chip) (h : HeldFrame) : Chip × HeldFrame :=
  let cc := !bit h.frame.flags 7
  let cc := if c.pathBroken h.frame.dst cc && !c.pathBroken h.frame.dst (!cc) then !cc else cc
  let f := { h.frame with flags := (if cc then flagDir else 0) + flagRetry }
  ((c.ringOut f).count 26 1, { frame := f, tries := h.tries + 1 })

/-- Apply a resend to every held frame that `p` names, in order. -/
def Chip.resendWhere (c : Chip) (p : HeldFrame → Bool) : Chip :=
  let r := c.ring.held.foldl (fun (acc : Chip × List HeldFrame) h =>
    if p h then (let q := acc.1.ringResend h; (q.1, acc.2 ++ [q.2])) else (acc.1, acc.2 ++ [h])) (c, [])
  { r.1 with ring := { r.1.ring with held := r.2 } }

/-- The retry of the held frame with a `SEQ` (R42): resent, or given up after `MAX_TRY` attempts with event 0x2201; the frame given up
is returned for its originating unit, which receives BUSY. -/
def Chip.ringTimeout (c : Chip) (seq : Nat) : Chip × Option RingFrame :=
  match c.ring.held.find? (fun h => h.frame.seq == seq) with
  | none => (c, none)
  | some h =>
    if h.tries < c.get F.SKN_RETRY_CFG_MAX_TRY then (c.resendWhere (· == h), none)
    else
      let c := { c with ring := { c.ring with held := c.ring.held.erase h } }
      (c.log 0x2201 uSKN (aFrame h.frame.typ h.frame.src h.frame.dst h.frame.flags h.frame.seq h.frame.rkey 0 Status.busy.code h.tries),
        some h.frame)

/-! Receiving. -/

/-- Carding states in which untagged answers of a node are accepted (R123): WAIT_READY, CHECKING, KEYING. -/
def Chip.cardOpen (c : Chip) (node : Nat) : Bool :=
  decide (node < 64) && (let q := c.geti F.GEN_CARD_STATEn_STATE node; q == 1 || q == 2 || q == 3)

/-- Receive state is kept per source and ring key epoch (R42, R223): its key in the table. -/
def rxKey (src rkey : Nat) : Nat := rkey * 256 + src

/-- The receive state of a source under a ring key epoch. -/
def Chip.rx (c : Chip) (src rkey : Nat) : Replay := tget c.ring.replay (rxKey src rkey) { top := 0, seen := [] }

/-- A `SEQ` is new from its source: not seen, and not older than the window of 1,024 below the highest (R42). -/
def Replay.fresh (r : Replay) (seq : Nat) : Bool := !r.seen.contains seq && decide (r.top ≤ seq + 1024)

/-- The receive state after a `SEQ`. -/
def Replay.note (r : Replay) (seq : Nat) : Replay :=
  let top := max r.top seq
  { top := top, seen := (seq :: r.seen).filter (fun s => decide (top ≤ s + 1024)) }

/-- A frame's fields read from its bytes; none when its header check fails or its length is wrong (R39). -/
def parseFrame (bs : List Byte) : Option RingFrame :=
  let n := numAt bs 8 2
  if 16 ≤ bs.length && crc32c (bs.take 12) = numAt bs 12 4 && bs.length = 32 + n && n ≤ 192 && n % 16 = 0 then
    some
      { typ := numAt bs 0 1, flags := numAt bs 1 1, src := numAt bs 2 1, dst := numAt bs 3 1, seq := numAt bs 4 4, rkey := numAt bs 10 2,
        payload := slice bs 16 n, tag := slice bs (16 + n) 16 }
  else none

/-- A tag failure (R39, R44): dropped, counted, event 0x1202; `SRC_LIMIT` from one source is event 0x3201; `THRESHOLD` in all is the
storm. -/
def Chip.tagFail (c : Chip) (f : RingFrame) : Chip :=
  let n := tget c.ring.fails f.src 0 + 1
  let c := { c with ring := { c.ring with fails := tput c.ring.fails f.src n } }
  let was := c.get F.SKN_AUTH_FAIL_WINDOW
  let c := (c.add F.SKN_AUTH_FAIL_WINDOW 1).add F.SKN_AUTH_FAIL_LIFETIME 1
  let args := aFrame f.typ f.src f.dst f.flags f.seq f.rkey 0 Status.integrity.code n
  let c := (c.count 27 1).log 0x1202 uSKN args
  let c := if n = c.get F.SKN_STORM_CFG_SRC_LIMIT then c.log 0x3201 uSKN args else c
  if was + 1 = c.get F.SKN_STORM_CFG_THRESHOLD then c.snagDecide [(0x13, was + 1)] else c

/-- What the tag check says of a frame for this node: taken, dropped without counting, or failed (R39, R40, R123). -/
def Chip.tagCheck (c : Chip) (f : RingFrame) : Option Bool :=
  let untagged := f.tag = zeroTag
  if c.get F.SKN_CTRL_PREKEY = 1 then (if preKey f.typ then some true else none)
  else if untagged && (f.typ = 0x70 || f.typ = 0x71) then none
  else if untagged && (f.typ = 0x41 || f.typ = 0x7E) && c.cardOpen f.src then some true
  else
    match c.ring.key with
    | none => none
    | some k =>
      match c.ring.old with
      | some o => some (if f.rkey = o.1 then f.gmac o.2 == f.tag else f.gmac k == f.tag)
      | none => some (f.gmac k == f.tag)

/-- Acknowledge a unicast frame (R42, Table 2.6). A TWIST_BATCH is acknowledged by its own step (R352, R353). -/
def Chip.ringAck (c : Chip) (f : RingFrame) (result : Nat) : Chip :=
  if f.typ = 0x7E || (f.typ = 0x30 && result = 0) then c else c.ringSend 0x7E f.src (pack [(4, f.seq), (1, result)])

/-- A frame reaches its unit. -/
def Chip.deliver (c : Chip) (f : RingFrame) : Chip :=
  { c with ring := { c.ring with inbox := c.ring.inbox ++ [{ typ := f.typ, src := f.src, seq := f.seq, time := c.time, payload := f.payload }] } }

/-- A frame's `SEQ` enters the receive state of its source under its ring key epoch (R42), whatever its type. -/
def Chip.rxNote (c : Chip) (f : RingFrame) : Chip :=
  { c with ring := { c.ring with replay := tput c.ring.replay (rxKey f.src f.rkey) ((c.rx f.src f.rkey).note f.seq) } }

/-- A frame for this node after its header check. Broadcasts are remembered by source, ring key epoch and `SEQ` (R43, R223; log entry 126). -/
def Chip.ringTake (c : Chip) (f : RingFrame) : Chip :=
  match c.tagCheck f with
  | none => c
  | some false => c.tagFail f
  | some true =>
    if bit f.flags 5 then
      if c.ring.bcast.contains (rxKey f.src f.rkey, f.seq) || !(c.rx f.src f.rkey).fresh f.seq then c
      else
        Chip.deliver (Chip.rxNote { c with ring := { c.ring with bcast := newest 1024 (c.ring.bcast ++ [(rxKey f.src f.rkey, f.seq)]) } } f) f
    else if f.typ = 0x7E then (if (c.rx f.src f.rkey).fresh f.seq then (c.rxNote f).deliver f else c)
    else if (c.rx f.src f.rkey).fresh f.seq then ((c.rxNote f).ringAck f 0).deliver f
    else c.ringAck f 1

/-- A frame arrives (R39, R41, R43): header check, forwarding, then the node's own copy. -/
def Chip.ringReceive (c : Chip) (bs : List Byte) : Chip :=
  if !(c.svcUp && c.get F.SKN_CTRL_RING_EN = 1) then c
  else
    let c := (c.count 25 1).trace 9 2 0 (bs.take 16)
    match parseFrame bs with
    | none =>
      c.log 0x1201 uSKN (aFrame (numAt bs 0 1) (numAt bs 2 1) (numAt bs 3 1) (numAt bs 1 1) (numAt bs 4 4) (numAt bs 10 2) 0
        Status.integrity.code 0)
    | some f =>
      if f.src = c.node then c
      else if bit f.flags 5 then (c.send (.ringForward f)).ringTake f
      else if f.dst = c.node then c.ringTake f
      else c.send (.ringForward f)

/-- The oldest delivered frame of a type, taken out of the inbox. -/
def Chip.takeInbox (c : Chip) (typ : Nat) : Option (Inbox × Chip) :=
  match c.ring.inbox.find? (fun m => m.typ == typ) with
  | none => none
  | some m => some (m, { c with ring := { c.ring with inbox := c.ring.inbox.erase m } })

/-- Handle the oldest delivered frame of a type, if there is one. -/
def Chip.onFrame (c : Chip) (typ : Nat) (f : Chip → Inbox → Chip) : Chip :=
  match c.takeInbox typ with
  | none => c
  | some p => f p.2 p.1

/-! Presence and breaks. -/

/-- A node's bit in `SKN_PRESENTn`. -/
def Chip.present (c : Chip) (n : Nat) : Bool :=
  if n < 32 then bit (c.get F.SKN_PRESENT0_NODES) n else if n < 64 then bit (c.get F.SKN_PRESENT1_NODES) (n - 32)
  else bit (c.get F.SKN_PRESENT2_NODES) (n - 64)

/-- Set or clear a node's bit. -/
def Chip.setPresent (c : Chip) (n : Nat) (b : Bool) : Chip :=
  if n < 32 then c.put F.SKN_PRESENT0_NODES (withBit (c.get F.SKN_PRESENT0_NODES) n b)
  else if n < 64 then c.put F.SKN_PRESENT1_NODES (withBit (c.get F.SKN_PRESENT1_NODES) (n - 32) b)
  else if n < 66 then c.put F.SKN_PRESENT2_NODES (withBit (c.get F.SKN_PRESENT2_NODES) (n - 64) b)
  else c

/-- The nodes strictly between two nodes, clockwise. -/
def nodesBetween (p : Pkg) (a b : Nat) : List Nat :=
  (ringOrder p).filter (fun n => n != a && n != b && decide (cwHops p a n < cwHops p a b))

/-- A break of the segment from `a` to `b` (Tables 2.6, 2.7, R42): routing avoids it, frames whose path it cuts are resent at once, the
nodes it bridges are no longer in the ring; event 0x0201. A frame that has had its `MAX_TRY` attempts is not sent again. The nodes that left are returned. -/
def Chip.noteBreak (c : Chip) (a b : Nat) : Chip × List Nat :=
  let c := c.count 28 1
  let gone := (nodesBetween c.pkg a b).filter c.present
  let c := c.setBreaks (c.ring.breaks.filter (· != (a, b)) ++ [(a, b)])
  let c := c.each gone (fun c n => c.setPresent n false)
  let c := c.resendWhere (fun h => c.pathBroken h.frame.dst (bit h.frame.flags 7) && decide (h.tries < c.get F.SKN_RETRY_CFG_MAX_TRY))
  (c.log 0x0201 uSKN (aFrame 0x70 a b 0 0 c.ring.rkey 0 0 gone.length), gone)

/-- A segment is whole again: its ends are in the ring; event 0x0202. Other breaks stay in force (Table 2.7: the ring is whole when the
last one is mended). -/
def Chip.noteMended (c : Chip) (a b : Nat) : Chip :=
  let c := c.setBreaks (c.ring.breaks.flatMap (breakLess c.pkg a b))
  ((c.setPresent a true).setPresent b true).log 0x0202 uSKN (aFrame 0x70 a b 0 0 c.ring.rkey 0 0 0)

/-- A RING_STATE payload (Table 2.6). -/
def ringStatePayload (st a b time : Nat) : List Byte := pack [(1, st), (1, a), (1, b), (1, 0), (8, time)]

/-- The next node in the ring in a direction (`cc` counter-clockwise), this instance apart: its live neighbour. -/
def Chip.neighbour (c : Chip) (cc : Bool) : Option Nat :=
  let o := ringOrder c.pkg
  let ns := (o.filter (fun n => n != c.node && c.present n))
  let key := fun n => if cc then cwHops c.pkg n c.node else cwHops c.pkg c.node n
  ns.foldl (fun best n => match best with | none => some n | some m => if key n < key m then some n else some m) none

/-- The register and first node of `SKN_BRIDGEn`. -/
def bridgeField (n : Nat) : Fld := if n = 0 then F.SKN_BRIDGE0_NODES else if n = 1 then F.SKN_BRIDGE1_NODES else F.SKN_BRIDGE2_NODES

/-- SPLICE_FORCE bridge or release to one node, as its bit of `SKN_BRIDGEn` says (Table 2.12). -/
def Chip.sendForce (c : Chip) (node : Nat) : Chip :=
  c.ringSend 0x71 node (pack [(1, if bit (c.get (bridgeField (node / 32))) (node % 32) then 1 else 2), (1, node)])

/-- `SKN_BRIDGEn` written: SPLICE_FORCE goes to every other node of the register, bridge for a bit written 1 and release for 0
(Table 2.12). -/
def Chip.bridgeWrite (c : Chip) (n : Nat) (value : Word) : Chip :=
  let f := bridgeField n
  (c.put f (value.toNat % (f.top + 1))).each ((ringOrder c.pkg).filter (fun i => i / 32 == n && i != c.node)) (fun c i => c.sendForce i)

end Sys2Proof.Machine
end

