-- ==== Sys2Proof/Machine/MailboxOps.lean ====
section
/-!
DEFINITION. Mailboxes and the service call as operations (R145 to R157): whose turn it is, the moves of Table 6.8, the words of
Table 6.9, buffers, tickets and completion notices. `ns` names the page: MBN when true, MBS when false.
-/

namespace Sys2Proof.Machine

/-! Roving cores as the mailboxes see them. -/

/-- The state of Roving core `k` (Table 6.6): 0 OFF, 1 RUNNING, 2 FENCING, 3 FENCED, 4 RESTARTING. -/
def Chip.coreSt (c : Chip) (k : Nat) : Nat := c.geti F.COR_CORE_STATUSn_STATE k

/-- A core moves to a state (Table 6.6), noted in the Noil ring; `GEN_EVT_SUM.CORE`. -/
def Chip.coreSet (c : Chip) (k st : Nat) : Chip :=
  ((c.puti F.COR_CORE_STATUSn_STATE k st).noilTrans uCOR 6 6 k (c.coreSt k) st).put F.GEN_EVT_SUM_CORE 1

/-- A core runs from `ENTRY`: event 0x0601; its watchdog counts afresh (R141, R142). -/
def Chip.coreStart (c : Chip) (k : Nat) : Chip :=
  let c := c.coreSet k 1
  ({ c with cores := { c.cores with kicks := tput c.cores.kicks k c.slot } }).log 0x0601 uCOR (aCore k 0 1 0 0 0)

/-- Is the core halted or stepping (Table 18.2)? -/
def Chip.coreHalted (c : Chip) (k : Nat) : Bool := c.geti F.DBG_COREc_STATUS_STATE k != 0

/-- Is the core RUNNING and not halted? -/
def Chip.coreFree (c : Chip) (k : Nat) : Bool := c.coreSt k == 1 && !c.coreHalted k

/-- Roving cores in RUNNING or RESTARTING (Table 6.14). -/
def Chip.liveCores (c : Chip) : List Nat := (List.range 6).filter (fun k => c.coreSt k == 1 || c.coreSt k == 4)

/-! Mailbox registers. -/

/-- A mailbox field on its page: the MBN page lies 0x1000 above the MBS page, with the same layout. -/
def mbF (ns : Bool) (f : Fld) : Fld := if ns then { f with base := f.base + 0x1000 } else f

/-- A mailbox field. -/
def Chip.mb (c : Chip) (ns : Bool) (n : Nat) (f : Fld) : Nat := c.geti (mbF ns f) n

/-- A mailbox field set. -/
def Chip.mbPut (c : Chip) (ns : Bool) (n : Nat) (f : Fld) (v : Nat) : Chip := c.puti (mbF ns f) n v

/-- The state of a mailbox (Table 6.8): 0 FREE, 1 LOCKED, 2 FULL, 3 REPLIED. -/
def Chip.mbSt (c : Chip) (ns : Bool) (n : Nat) : Nat := c.mb ns n F.MBS_STATUSn_STATE

/-- The owner's requester number, 0 when FREE. -/
def Chip.mbOwner (c : Chip) (ns : Bool) (n : Nat) : Nat := c.mb ns n F.MBS_STATUSn_OWNER

/-- The window offset of a mailbox's data word 0. -/
def mbBase (ns : Bool) (n : Nat) : Nat := (if ns then 0x9000 else 0x8000) + 0x80 * n

/-- Data word `i` of a mailbox set. -/
def Chip.mbWord (c : Chip) (ns : Bool) (n i : Nat) (w : Word) : Chip := if n < 16 && i < 16 then c.wr (mbBase ns n + 4 * i) w else c

/-- The unit of a mailbox page. -/
def mbUnit (ns : Bool) : Nat := if ns then uMBN else uMBS

/-- Mailboxes with a fixed lock (Table 6.7). -/
def mbFixed (ns : Bool) (n : Nat) : Bool := !ns && decide (n < 12)

/-- The core an MBN full interrupt goes to: the core in `ROUTE`, or the lowest-numbered free one while that core is not (R143, R493). -/
def Chip.mbnCore (c : Chip) (n : Nat) : Nat :=
  let r := c.geti F.MBN_CFGn_ROUTE n
  if c.coreFree r then r else ((List.range 6).find? c.coreFree).getD r

/-- The requester number of a mailbox's receiver (Table 6.7, R143): of an MBN box in FULL the core its interrupt went to. -/
def Chip.mbReceiver (c : Chip) (ns : Bool) (n : Nat) : Nat :=
  if ns then 0xF0 + (if c.mbSt true n = 2 then tget c.cores.mbAt n (c.mbnCore n) else c.mbnCore n) else if 6 ≤ n && n < 12 then 0xF0 + (n - 6) else 0xFF

/-- May a requester take the mailbox's lock: is it of the sender class (R147)? -/
def mbEligible (req : Req) (ns : Bool) (n : Nat) : Bool :=
  if ns then classOf req = .external && !badReq req
  else if 12 ≤ n then classOf req = .roving else false

/-- A mailbox's data words cleared. -/
def Chip.mbClear (c : Chip) (ns : Bool) (n : Nat) : Chip := c.resetCopy n 16 (mbBase ns n) (mbBase ns n + 0x40)

/-- A mailbox becomes FREE, or LOCKED where its lock is fixed: data and interrupts cleared (Table 6.8),
the message of R158 and the mark of a fenced owner (R143) gone. -/
def Chip.mbFree (c : Chip) (ns : Bool) (n : Nat) : Chip :=
  let c := ((c.mbClear ns n).mbPut ns n F.MBS_STATUSn_EMPTY_IRQ 0).mbPut ns n F.MBS_STATUSn_FULL_IRQ 0
  let c := { c with cores :=
    if ns then { c.cores with host := tdel c.cores.host n, hostWait := c.cores.hostWait.filter (fun w => w.1 != n) } else { c.cores with orphan := c.cores.orphan.filter (· != n) } }
  if mbFixed ns n then c.mbPut ns n F.MBS_STATUSn_STATE 1
  else (c.mbPut ns n F.MBS_STATUSn_STATE 0).mbPut ns n F.MBS_STATUSn_OWNER 0

/-- The full interrupt of a mailbox raised (R152). -/
def Chip.mbRaiseFull (c : Chip) (ns : Bool) (n : Nat) : Chip :=
  if ns then
    let k := c.mbnCore n
    ({ c with cores := { c.cores with mbAt := tput c.cores.mbAt n k } }).send (.irqRoving k (16 + n))
  else if 6 ≤ n && n < 12 then c.send (.irqRoving (n - 6) n) else c.send (.irqSpindle uMBS n)

/-- A mailbox becomes FULL with a message of `words` words. -/
def Chip.mbFull (c : Chip) (ns : Bool) (n words : Nat) : Chip :=
  let c := { c with cores := { c.cores with mbPause := tput c.cores.mbPause (16 * b2n ns + n) c.slot } }
  let c := (((c.mbPut ns n F.MBS_STATUSn_STATE 2).mbPut ns n F.MBS_STATUSn_WORDS words).mbPut ns n F.MBS_STATUSn_FULL_IRQ 1).mbPut ns n
    F.MBS_STATUSn_EMPTY_IRQ 0
  (c.count (if ns then 42 else 43) 1).mbRaiseFull ns n

/-- The empty interrupt of a mailbox raised at its sender (R152). -/
def Chip.mbRaiseEmpty (c : Chip) (ns : Bool) (n : Nat) : Chip :=
  if ns then c
  else if 6 ≤ n && n < 12 then c.send (.irqSpindle uMBS (16 + n)) else c.send (.irqRoving (c.mbOwner ns n - 0xF0) (32 + n))

/-- A mailbox becomes REPLIED with a reply of `words` words; the lock timeout, which did not run in FULL, goes on (R149). -/
def Chip.mbReplied (c : Chip) (ns : Bool) (n words : Nat) : Chip :=
  let c := (((c.mbPut ns n F.MBS_STATUSn_STATE 3).mbPut ns n F.MBS_STATUSn_WORDS words).mbPut ns n F.MBS_STATUSn_FULL_IRQ 0).mbPut ns n
    F.MBS_STATUSn_EMPTY_IRQ 1
  let k := 16 * b2n ns + n
  let c := { c with cores := { c.cores with
    mbSeen := tput c.cores.mbSeen k (tget c.cores.mbSeen k 0 + (c.slot - tget c.cores.mbPause k c.slot)), mbPause := tdel c.cores.mbPause k } }
  c.mbRaiseEmpty ns n

/-- `LAST` of a mailbox. -/
def Chip.mbLast (c : Chip) (ns : Bool) (n : Nat) (st : Status) : Chip := c.mbPut ns n F.MBS_STATUSn_LAST st.code

/-- A mailbox access out of turn: ignored, `LAST` DENIED, event 0x1602 (R148). -/
def Chip.mbDenied (c : Chip) (req : Req) (ns : Bool) (n off : Nat) : Chip :=
  (c.mbLast ns n .denied).log 0x1602 (mbUnit ns) (aAccess off req.toNat true (mbUnit ns) Status.denied.code n)

/-- Is it this requester's turn: the owner in LOCKED or REPLIED, the receiver in FULL (R148)? -/
def Chip.mbTurn (c : Chip) (req : Req) (ns : Bool) (n : Nat) : Bool :=
  let q := c.mbSt ns n
  if q = 2 then req.toNat == c.mbReceiver ns n else (q == 1 || q == 3) && req.toNat == c.mbOwner ns n

/-- The slot of the lock take or of the owner's last access, from which the lock timeout counts (R149), noted. -/
def Chip.mbTouch (c : Chip) (req : Req) (ns : Bool) (n : Nat) : Chip :=
  if req.toNat = c.mbOwner ns n then { c with cores := { c.cores with mbSeen := tput c.cores.mbSeen (16 * b2n ns + n) c.slot } } else c

/-- The owner has left a lock alone for `LOCK_TIMEOUT` slots (R149). -/
def Chip.mbStale (c : Chip) (ns : Bool) (n : Nat) : Bool :=
  decide (tget c.cores.mbSeen (16 * b2n ns + n) 0 + c.get (if ns then F.MBN_CTRL_LOCK_TIMEOUT else F.MBS_CTRL_LOCK_TIMEOUT) ≤ c.slot)

/-! Host transport (R158). -/

/-- A header word of Table 6.11. -/
def hostWord (proto seq flags status : Nat) : Word := BitVec.ofNat 32 (proto * 2 ^ 24 + seq % 256 * 2 ^ 16 + flags * 2 ^ 8 + status)

/-- Roving's one-word reply to a fragment. -/
def Chip.hostAck (c : Chip) (n proto seq flags : Nat) (st : Status) : Chip :=
  (((c.mbClear true n).mbWord true n 0 (hostWord proto seq flags st.code)).mbLast true n .ok).mbReplied true n 1

/-- The next fragment of a reply: 60 bytes of it, `SOM` on the first and `EOM` on the last, with which the message is done. -/
def Chip.hostSend (c : Chip) (n : Nat) (m : HostMsg) (body : List Byte) : Chip :=
  let part := (body.drop (60 * m.sent)).take 60
  let last := decide (body.length ≤ 60 * (m.sent + 1))
  let pad := (4 - part.length % 4) % 4
  let c := (c.mbClear true n).mbWord true n 0 (hostWord m.proto m.sent (b2n (m.sent == 0) + 2 * b2n last + 8 * pad) 0)
  let c := c.each (List.range 15) (fun c i => c.mbWord true n (1 + i) (BitVec.ofNat 32 (numAt part (4 * i) 4)))
  let host := if last then tdel c.cores.host n else tput c.cores.host n { m with reply := some body, sent := m.sent + 1 }
  (({ c with cores := { c.cores with host := host } }).mbLast true n .ok).mbReplied true n (1 + (part.length + 3) / 4)

/-- What Roving makes of a fragment (R158): the status with which the message is discarded, or the message with the fragment taken. -/
def hostTakes (old : Option HostMsg) (proto seq flags : Nat) (part : List Byte) (short : Bool) : Status × HostMsg :=
  let m : HostMsg := if bit flags 0 then { proto := proto } else old.getD { proto := proto, next := 256 }
  let m' : HostMsg := { m with next := seq + 1, bytes := m.bytes ++ part, whole := bit flags 1 }
  if (proto != 1 && proto != 2) || m.proto != proto || m.whole || m.next != seq || 32 ≤ flags then (.badArg, m')
  else if short || (bit flags 1 && m'.bytes.length < 4) then (.lengthShort, m')
  else if seq = 255 && !bit flags 1 then (.lengthLong, m')
  else (.ok, m')

/-- Roving takes a fragment that its sender has put in an MBN mailbox (R158; log entry 140): a `FETCH` draws the next fragment of the reply; a
fragment that ends its message leaves the mailbox FULL until the reply; any other, and one that is refused, is answered with one word. The reply of `PROTO` 2 is the
core's own writing, its next fragment too. With no core free the fragment waits for one. -/
def Chip.hostTake (c : Chip) (n words : Nat) : Chip :=
  let h := (c.rd (mbBase true n)).toNat
  let proto := h / 2 ^ 24
  let seq := h / 2 ^ 16 % 256
  let flags := h / 2 ^ 8 % 256
  let old := tget? c.cores.host n
  if !c.coreFree (c.mbnCore n) then { c with cores := { c.cores with hostWait := c.cores.hostWait ++ [(n, words)] } }
  else if bit flags 2 then
    match old with
    | some m =>
      (match m.reply with
      | some b =>
        if m.sent = seq && m.proto = proto then c.hostSend n m b
        else ({ c with cores := { c.cores with host := tdel c.cores.host n } }).hostAck n proto seq 3 .badArg
      | none => if m.whole && m.proto = 2 && proto = 2 then c else ({ c with cores := { c.cores with host := tdel c.cores.host n } }).hostAck n proto seq 3 .badArg)
    | none => c.hostAck n proto seq 3 .badArg
  else
    let pad := bitsOf flags 4 3
    let data := ((List.range (words - 1)).map (fun i => le 4 (c.rd (mbBase true n + 4 * (1 + i))).toNat)).flatten
    let r := hostTakes old proto seq flags (data.take (data.length - pad)) (decide (data.length < pad))
    if r.1 != .ok then ({ c with cores := { c.cores with host := tdel c.cores.host n } }).hostAck n proto seq 3 r.1
    else
      let c := { c with cores := { c.cores with host := tput c.cores.host n r.2 } }
      if r.2.whole then c else c.hostAck n proto seq 0 .ok

/-- Fragments that came while no core was free are taken once one is (R143, R158). -/
def Chip.hostRetry (c : Chip) : Chip :=
  c.each (c.cores.hostWait.filter (fun w => c.coreFree (c.mbnCore w.1))) (fun c w =>
    let c := { c with cores := { c.cores with hostWait := c.cores.hostWait.filter (fun v => v.1 != w.1) } }
    if c.mbSt true w.1 = 2 then (c.mbRaiseFull true w.1).hostTake w.1 w.2 else c)

/-- A reply of Roving's SPDM responder leaves by the mailbox that holds the request of the same host requester, if it came by one (R158, R336). -/
def Chip.hostReply (c : Chip) (conn : Nat) (body : List Byte) : Chip :=
  match (List.range 16).find? (fun n => conn / 256 == 1 && c.mbSt true n == 2 && c.mbOwner true n == conn % 256) with
  | none => c
  | some n =>
    match tget? c.cores.host n with
    | some m => if m.whole && m.proto = 1 then c.hostSend n { m with sent := 0 } body else c
    | none => c

/-! The service call (Table 6.9). -/

/-- Data word `w` of an MBS mailbox. -/
def Chip.mbsWord (c : Chip) (n w : Nat) : Nat := (c.rd (mbBase false n + 4 * w)).toNat

/-- The call waiting in an MBS mailbox whose receiver is Spindle. -/
def Chip.callAt (c : Chip) (n : Nat) : Option Call :=
  if c.svcUp && c.mbSt false n = 2 && (decide (n < 6) || (decide (12 ≤ n) && decide (n < 16))) then
    some
      { core := c.mbOwner false n - 0xF0, mbox := n, code := c.mbsWord n 0 / 65536, tag := c.mbsWord n 0 / 256 % 256,
        inAddr := c.mbsWord n 1, inLen := c.mbsWord n 2, outAddr := c.mbsWord n 3, outLen := c.mbsWord n 4,
        args := ((List.range 11).map (fun i => le 4 (c.mbsWord n (5 + i)))).flatten }
  else none

/-- Bytes of Roving SRAM. -/
def rovBytes : Nat := 0x600000

/-- A call buffer is absent, or 8-byte aligned, at most 256 KiB and wholly inside Roving SRAM (R153, R154). -/
def bufOk (addr len : Nat) : Bool := len = 0 || (addr % 8 == 0 && decide (len ≤ 262144) && decide (addr + len ≤ rovBytes))

/-- Both buffers of a call are good and do not overlap (R154). -/
def Call.bufsOk (k : Call) : Bool :=
  bufOk k.inAddr k.inLen && bufOk k.outAddr k.outLen &&
    (k.inLen == 0 || k.outLen == 0 || decide (k.inAddr + k.inLen ≤ k.outAddr) || decide (k.outAddr + k.outLen ≤ k.inAddr))

/-- Poisoned Roving SRAM words within a range. -/
def Chip.poisoned (c : Chip) (addr len : Nat) : Option Nat :=
  c.mem.poison.find? (fun a => decide (a < addr + len) && decide (addr < a + 8) && decide (0 < len))

/-- The CALL codes of Table 6.10. -/
def callCodes : List Nat :=
  [0x0001, 0x0002, 0x0003, 0x0010, 0x0011, 0x0012, 0x0020, 0x0021, 0x0030, 0x0031, 0x0032, 0x0033, 0x0040, 0x0041, 0x0042, 0x0050,
    0x0051, 0x0060, 0x0061]

/-- Spindle's reply to a call (Table 6.9, R143): words 0 to 15 and the move to REPLIED; a pool mailbox of a core fenced meanwhile is
freed instead. A refusal with DENIED or NO_CONSENT logs event 0x1605 (R156). -/
def Chip.answer (c : Chip) (k : Call) (a : Answer) : Chip :=
  let c := if a.st = .denied || a.st = .noConsent then c.log 0x1605 uSPN (aCore k.core 0 a.st.code 0 0 k.code) else c
  let c := c.count 40 1
  if c.cores.orphan.contains k.mbox then
    ({ c with cores := { c.cores with orphan := c.cores.orphan.filter (· != k.mbox) } }).mbFree false k.mbox
  else
    let out := a.out.take k.outLen
    let c := if out.isEmpty then c else c.rovWr k.outAddr out
    let ws := [k.code * 65536 + k.tag * 256 + a.st.code, a.ticket, out.length, 0, 0] ++ a.inl
    let c := c.each (List.range 16) (fun c i => c.mbWord false k.mbox i (BitVec.ofNat 32 (ws.getD i 0)))
    (c.mbLast false k.mbox .ok).mbReplied false k.mbox 16

/-- The input buffer of the call waiting in a mailbox, as Spindle copies it out of Roving SRAM (R154); empty when a buffer is bad. -/
def Chip.callInput (c : Chip) (n : Nat) : List Byte :=
  match c.callAt n with
  | some k => if k.bufsOk then c.rovRd k.inAddr k.inLen else []
  | none => []

/-- Handle the call of a code waiting in a mailbox (R154). `gate` is what refuses it whatever its input holds; `f` has its effect on
the copied input; an answer may leave later. A core that is being fenced has its call abandoned (R143). -/
def Chip.onCall (c : Chip) (n code : Nat) (gate : Chip → Call → Status) (f : Chip → Call → List Byte → Chip × Answer) : Chip :=
  match c.callAt n with
  | none => c
  | some k =>
    if k.code != code || c.coreSt k.core = 2 then c
    else if c.cores.orphan.contains n then c.answer k { st := .fenced }
    else
      let g := gate c k
      let st := firstStatus [(g != .ok, g), (!k.bufsOk, .badArg), ((c.poisoned k.inAddr k.inLen).isSome && k.bufsOk, .integrity)]
      if st = .ok then
        let r := f c k (c.callInput n)
        if r.2.wait_ then r.1 else r.1.answer k r.2
      else
        let c := match c.poisoned k.inAddr k.inLen with
          | some a => if st = Status.integrity && g != Status.integrity
              then c.log 0x2602 uCOR (aAccess (0x20000000 + a) 0xFF false uCOR st.code k.core) else c
          | none => c
        c.answer k { st := st }

/-- No refusal before the input is read. -/
def noGate (_ : Chip) (_ : Call) : Status := .ok

/-- A call becomes PENDING: its ticket, or none when its core holds 64 already (R155). -/
def Chip.pendCall (c : Chip) (k : Call) : Option (Nat × Chip) :=
  if (c.cores.pend.filter (fun e => e.2.core == k.core)).length < 64 then
    let t := c.cores.ticket
    let p : PendCall := { core := k.core, call := k.code, tag := k.tag, outAddr := k.outAddr, outLen := k.outLen }
    some (t, { c with cores := { c.cores with pend := tput c.cores.pend t p, ticket := t % 65535 + 1 } })
  else none

/-- Make a call PENDING and start its work with its ticket, or refuse it with BUSY (R155). -/
def Chip.pending (c : Chip) (k : Call) (work : Chip → Nat → Chip) : Chip × Answer :=
  match c.pendCall k with
  | none => (c, { st := .busy })
  | some p => (work p.2 p.1, { st := .pending, ticket := p.1 })

/-- The work of a PENDING call ends: the output is written and the notice queued (R155). A call of a core fenced meanwhile is gone. -/
def Chip.finishCall (c : Chip) (ticket : Nat) (st : Status) (out : List Byte) : Chip :=
  match tget? c.cores.pend ticket with
  | none => c
  | some p =>
    let out := out.take p.outLen
    let c := if out.isEmpty then c else c.rovWr p.outAddr out
    let c := if st = .denied || st = .noConsent then c.log 0x1605 uSPN (aCore p.core 0 st.code 0 0 p.call) else c
    let nt : Notice := { call := p.call, tag := p.tag, status := st.code, ticket := ticket, used := out.length }
    { c with cores := { c.cores with pend := tdel c.cores.pend ticket, notices := tmod c.cores.notices p.core [] (· ++ [nt]) } }

end Sys2Proof.Machine
end

