-- ==== Sys2Proof/Machine/PlySend.lean ====
section
/-!
DEFINITION. The sending half of the Ply link (R419, R422): frames, mirror items, and the effects that wait for an acknowledgement
(Table 15.5).
-/

namespace Sys2Proof.Machine

/-- This instance's Ply state (Table 15.1): 0 LINKING, 1 STALE, 2 RESYNCING, 3 FOLLOW, 4 CANDIDATE, 5 LEAD, 6 ALONE. -/
def Chip.role (c : Chip) : Nat := c.get F.PLY_STATUS_ROLE

/-- The Ply state changes, noted in the Noil ring (R418, R501). -/
def Chip.setRole (c : Chip) (r : Nat) : Chip := (c.put F.PLY_STATUS_ROLE r).noilTrans uPLY 15 1 0 c.role r

/-- Is the link authenticated? -/
def Chip.linked (c : Chip) : Bool := c.get F.PLY_STATUS_AUTH == 1

/-- Frame types that pass before authentication (Table 15.3). -/
def plyPreKey (typ : Nat) : Bool := typ = 1 || typ = 2 || typ = 3 || typ = 4

/-- The first 16 bytes of a Ply frame (Table 15.2). -/
def PlyFrame.head (f : PlyFrame) : List Byte :=
  let h := pack [(1, f.typ), (1, b2n (plyPreKey f.typ)), (2, f.payload.length), (8, f.pseq)]
  h ++ le 4 (crc32c h)

/-- A Ply frame as its lanes carry it (R419): pre-key frames in the clear, every other under the sender's link key. -/
def PlyFrame.wire (f : PlyFrame) (side : Nat) (key : List Byte) : List Byte :=
  if plyPreKey f.typ then f.head ++ f.payload ++ zeroTag
  else f.head ++ Config.gcmEnc key (pack [(1, side), (3, 0), (8, f.pseq)]) f.head f.payload

/-- The newest frames of at most 64 KiB in all (R419). -/
def keptFrames (fs : List PlyFrame) : List PlyFrame :=
  (fs.reverse.foldl (fun (acc : List PlyFrame × Nat) f =>
    let n := acc.2 + 32 + f.payload.length
    if n ≤ 65536 then (f :: acc.1, n) else (acc.1, 65537)) ([], 0)).1

/-- Send a Ply frame: before authentication only the pre-key types (R419, R420). -/
def Chip.plySend (c : Chip) (typ : Nat) (payload : List Byte) (item : Option MItem := none) (part : Option ResPart := none) : Chip :=
  if !c.svcUp || c.pkg = .hx4 || !(c.linked || plyPreKey typ) then c
  else
    let body := padTo (max 16 ((payload.length + 15) / 16 * 16)) payload
    let f : PlyFrame := { typ := typ, pseq := c.ply.txSeq, payload := body, item := item, part := part }
    let c := (c.send (.ply f)).trace 10 1 0 f.head
    { c with ply := { c.ply with txSeq := c.ply.txSeq + 1, sent := keptFrames (c.ply.sent ++ [f]) } }

/-- A fresh-mask bit of this instance and of its partner (Table 15.6). -/
def Chip.ownFresh (c : Chip) : Nat := 2 ^ c.get F.GEN_ID_SIDE
def Chip.partnerFresh (c : Chip) : Nat := 2 ^ (1 - c.get F.GEN_ID_SIDE)

/-- Does the lead wait for its partner: the fresh mask names it (R180, R423)? -/
def Chip.waitsPartner (c : Chip) : Bool := c.pkg != .hx4 && c.leads && bit c.ply.fresh (1 - c.get F.GEN_ID_SIDE)

/-- Does the lead mirror: to a fresh follow, or to a rejoiner from step 1 of Table 15.9? -/
def Chip.mirrors (c : Chip) : Bool := c.linked && c.leads && c.pkg != .hx4 && (c.waitsPartner || decide (0 < c.ply.resync))

/-- The kind code of a mirror item (Table 15.5). -/
def MItem.kind (i : MItem) : Nat :=
  match i with
  | .journal .. => 1 | .hankKey .. => 2 | .hankDrop .. => 2 | .imported .. => 3 | .launch .. => 4 | .root .. => 5 | .boundary .. => 6
  | .twist .. => 7 | .session .. => 8 | .object .. => 9 | .endorsed .. => 9 | .share .. => 9 | .carding .. => 10 | .ringKey .. => 11
  | .scrub .. => 12 | .lease .. => 13

/-- Mirror an item (R422): the number an effect must wait for, 0 when it need not. -/
def Chip.mirrorItem (c : Chip) (i : MItem) : Chip × Nat :=
  if c.mirrors then
    let n := c.ply.mseq + 1
    let wait := c.waitsPartner
    let c := ({ c with ply := { c.ply with mseq := n, oldest := if c.ply.macked + 1 = n then c.slot else c.ply.oldest } }).put64 R.PLY_MSEQ_LO n
    ((c.plySend 0x20 (pack [(8, n), (1, i.kind)]) (some i)).count 30 1, if wait then n else 0)
  else (c, if c.waitsPartner then c.ply.mseq + 1 else 0)

/-- The instance that cards before any lease exists passes an item to its partner over an authenticated link (R121): the number to
wait for. -/
def Chip.mirrorEarly (c : Chip) (i : MItem) : Chip × Nat :=
  if c.leads || !c.linked then c.mirrorItem i
  else
    let n := c.ply.mseq + 1
    let c := ({ c with ply := { c.ply with mseq := n } }).put64 R.PLY_MSEQ_LO n
    ((c.plySend 0x20 (pack [(8, n), (1, i.kind)]) (some i)).count 30 1, n)

/-- Hold an effect. -/
def Chip.hold (c : Chip) (e : Eff) (mseq jseq : Nat) : Chip :=
  { c with ply := { c.ply with holds := c.ply.holds ++ [{ eff := e, mseq := mseq, jseq := jseq }] } }

/-- Mirror an item and hold its effect until the partner acknowledges it, if it must (Table 15.5). -/
def Chip.mirrorThen (c : Chip) (i : MItem) (e : Eff) : Chip :=
  let p := c.mirrorItem i
  p.1.hold e p.2 0

/-- May a held effect be taken? An effect waits while effects are held for a partner that must acknowledge (R423). -/
def Chip.released (c : Chip) (h : Hold) : Bool := h.jseq = 0 && decide (h.dur ≤ c.get64 R.BOB_JDUR_LO) && (h.mseq = 0 || decide (h.mseq ≤ c.ply.macked) || !(c.waitsPartner || (c.linked && !c.leads)))

end Sys2Proof.Machine
end

