-- ==== Sys2Proof/Machine/JournalOps.lean ====
section
/-!
DEFINITION. The Bobbin journal (R180 to R188): records and their bytes, the writer, its page programs and sector erases, and what a
journal holds when it is opened.
-/

namespace Sys2Proof.Machine

/-- The head of a journal record read from 32 bytes, none when its CRC is wrong. -/
def jHead? (b : List Byte) : Option JRec :=
  if crc32c (b.take 28) = numAt b 28 4 then
    some
      { jseq := numAt b 0 8, op := numAt b 8 1, fresh := bit (numAt b 9 1) 7, hank := numAt b 10 1, cls := numAt b 11 1, first := numAt b 12 4,
        last := numAt b 16 4, value := numAt b 20 4, arg := numAt b 24 4, parts := [] }
  else none

/-- Part `i` of a group whose head has `JSEQ` `j`, read from 32 bytes. -/
def jPart? (b : List Byte) (j i : Nat) : Option (List Byte) :=
  if crc32c (b.take 28) = numAt b 28 4 && numAt b 8 1 = 0x1F && numAt b 9 1 = i && numAt b 0 8 = j + 1 + i then some (slice b 12 16) else none

/-- Is a position blank? -/
def Chip.jBlank (c : Chip) (pos : Nat) : Bool := norBlank c.mem.nor (jAddr pos) 32

/-- The group that starts at a position, when every part is present with a good CRC (R183). -/
def Chip.jGroup? (c : Chip) (pos : Nat) : Option JRec :=
  match jHead? (c.norRd (jAddr pos) 32) with
  | none => none
  | some r =>
    if r.op = 0x1F || c.jBlank pos then none
    else
      let n := numAt (c.norRd (jAddr pos) 32) 9 1 % 16
      let ps := (List.range n).map (fun i => jPart? (c.norRd (jAddr (pos + 1 + i)) 32) r.jseq i)
      if ps.all Option.isSome then some { r with parts := ps.filterMap id } else none

/-- Positions that are not blank, rising. -/
def Chip.jUsed (c : Chip) : List Nat :=
  ((c.mem.nor.filter (fun e => 0x01900000 ≤ e.1 && e.1 < 0x03900000)).map (fun e => (e.1 - 0x01900000) / 32)).dedup

/-- Every good group in the journal with its position. -/
def Chip.jGroups (c : Chip) : List (Nat × JRec) := c.jUsed.filterMap (fun p => (c.jGroup? p).map (fun r => (p, r)))

/-- Every good group in the journal with its position, in rising `JSEQ`; of two with one `JSEQ` the later position stands (R184). -/
def Chip.jAll (c : Chip) : List (Nat × JRec) :=
  let gs := c.jGroups
  let gs := gs.filter (fun g => !gs.any (fun k => k.2.jseq == g.2.jseq && decide (g.1 < k.1)))
  gs.mergeSort (fun a b => decide (a.2.jseq ≤ b.2.jseq))

/-- Is the journal open and not failed? -/
def Chip.jOpen (c : Chip) : Bool := c.get F.BOB_STATUS_OPEN == 1
def Chip.jFailed (c : Chip) : Bool := c.get F.BOB_JRNL_STATUS_FAILED == 1

/-- Does a record name a Bobbin, and is it the last to do so? `SWITCH` names none. -/
def Chip.jLive (c : Chip) (r : JRec) : Bool :=
  if r.op = 0x10 || r.op = 0x11 then tget? c.cust.jrnl.hankSeq r.hank == some r.jseq
  else if r.op = 0x06 && r.first = 0xFFFFFFFF then c.geti F.DST_HANKn_FROZEN r.hank == 1
  else r.op != 0x04 && c.cust.bobs.any (fun e => r.first ≤ e.1 && e.1 ≤ r.last && e.2.jseq == r.jseq % 2 ^ 32)

/-- The Bobbins a record names take its `JSEQ` (Table 7.2). -/
def Chip.jName (c : Chip) (r : JRec) : Chip :=
  if r.op = 0x10 || r.op = 0x11 then
    { c with cust := { c.cust with jrnl := { c.cust.jrnl with hankSeq := tput c.cust.jrnl.hankSeq r.hank r.jseq } } }
  else if r.op = 0x04 then c
  else
    let whole := r.op = 0x06 && r.first = 0xFFFFFFFF
    let hit := fun (e : Nat × Bob) => if whole then e.2.hank == r.hank else decide (r.first ≤ e.1) && decide (e.1 ≤ r.last)
    { c with cust := { c.cust with bobs := c.cust.bobs.map (fun e => if hit e then (e.1, { e.2 with jseq := r.jseq % 2 ^ 32 }) else e) } }

/-- Change the journal writer's state. -/
def Chip.jr (c : Chip) (f : Jrnl → Jrnl) : Chip := { c with cust := { c.cust with jrnl := f c.cust.jrnl } }

/-- Queue a group at the writer, which gives it the next `JSEQ`s; the `JSEQ` of its last record is returned (R180, R182). -/
def Chip.jWrite (c : Chip) (r : JRec) : Chip × Nat :=
  let n := c.get64 R.BOB_JSEQ_LO
  let r := { r with jseq := n }
  let c := (c.put64 R.BOB_JSEQ_LO (n + r.size)).jName r
  (c.jr (fun j => { j with queue := j.queue ++ [(none, r)] }), n + r.parts.length)

/-- The sector after the one the head entered begins its clearing: its records still live move forward first (R182). -/
def Chip.jWant (c : Chip) (sector : Nat) : Chip :=
  let live := ((List.range 128).filterMap (fun i => c.jGroup? (sector * 128 + i))).filter c.jLive
  let c := c.jr (fun j => { j with want := some sector, wantSeq := 0 })
  if c.role = 3 then c
  else c.each live (fun c r => let p := c.jWrite { r with fresh := true }; p.1.jr (fun j => { j with wantSeq := p.2 }))

/-- The sector the head enters next is cleared once since the journal was opened, when the table that says which records are live has been
rebuilt: by replay, or at a follow by the lead (R182, R184). -/
def Chip.jClear (c : Chip) : Chip :=
  if !c.cust.jrnl.owed || !(c.cust.replayed || c.role = 3) then c
  else
    let head := c.cust.jrnl.head
    let c := c.jr (fun j => { j with owed := false })
    if c.cust.jrnl.want.isSome || c.cust.jrnl.erasing.isSome || c.cust.jrnl.ready.isSome then c
    else c.jWant (if head % 128 = 0 then head / 128 else (head / 128 + 1) % 8192)

/-- The erase starts once the records moved forward are durable. -/
def Chip.jErase (c : Chip) : Chip :=
  match c.cust.jrnl.want with
  | some k =>
    if c.cust.jrnl.wantSeq ≤ c.cust.jrnl.dur && c.cust.jrnl.erasing.isNone then
      (c.jr (fun j => { j with want := none, erasing := some k })).put F.BOB_JRNL_STATUS_ERASING 1
    else c
  | none => c

/-- Groups taken from a queue while they fit in `room` positions from `pos`, with their positions. -/
def jTake (room pos : Nat) (q : List (Option Nat × JRec)) : List (Nat × JRec) × List (Option Nat × JRec) :=
  match q with
  | [] => ([], [])
  | e :: q =>
    if e.2.size ≤ room && (e.1 = none || e.1 = some pos) then
      let t := jTake (room - e.2.size) (pos + e.2.size) q
      ((pos, e.2) :: t.1, t.2)
    else ([], e :: q)

/-- Where the next page goes: the lead's position when it gave one, else the head, moved past a page that cannot take the first group. -/
def Chip.jPlace (c : Chip) (e : Option Nat × JRec) : Nat :=
  match e.1 with
  | some p => p
  | none =>
    let h := c.cust.jrnl.head
    if h % 8 + e.2.size ≤ 8 then h else ((h + 7) / 8 * 8) % jPositions

/-- The program of a page starts: it is mirrored, and what waits for its records now waits for the partner alone (R180). -/
def Chip.jPage (c : Chip) (page : List (Nat × JRec)) : Chip :=
  c.each page (fun c e =>
    let p := c.mirrorItem (.journal e.1 e.2)
    { p.1 with ply := { p.1.ply with
        holds := p.1.ply.holds.map (fun h => if h.jseq = e.2.jseq + e.2.parts.length then { h with jseq := 0, mseq := max h.mseq p.2 } else h)
        acks := p.1.ply.acks.map (fun (a : Nat × Nat) => if a.2 = e.2.jseq + e.2.parts.length then (a.1, 0) else a) } })

/-- Start the next page program when the NOR is idle and the head's sector is erased (R180, R182). -/
def Chip.jStart (c : Chip) : Chip :=
  let c := c.jClear
  let j := c.cust.jrnl
  match j.queue with
  | [] => c.jErase
  | e :: _ =>
    if !j.page.isEmpty || c.jFailed || !c.jOpen then c.jErase
    else
      let pos := c.jPlace e
      let sector := pos / 128
      let enters := pos % 128 = 0 || sector != j.head / 128
      if enters && j.ready != some sector then c.jErase
      else
        let t := jTake (8 - pos % 8) pos j.queue
        let head := match t.1.getLast? with | some l => (l.1 + l.2.size) % jPositions | none => pos
        let c := c.jr (fun j => { j with page := t.1, queue := t.2, head := head, ready := if enters then none else j.ready })
        let c := ((c.put F.BOB_JRNL_STATUS_PROGRAMMING 1).put F.BOB_JRNL_STATUS_HEAD_SECTOR sector).jPage t.1
        let c := if enters then c.jWant ((sector + 1) % 8192) else c
        c.jErase

/-- `BOB_JDUR`: durable here, and at the partner while it must be waited for (R180). -/
def Chip.jDurable (c : Chip) : Chip :=
  let own := c.cust.jrnl.dur
  let d := if c.waitsPartner then min own c.cust.jrnl.partnerDur else own
  c.put64 R.BOB_JDUR_LO (max d (c.get64 R.BOB_JDUR_LO))

/-- The journal opened (R184): the head after the last good record, the last page's torn records discarded with event 0x1705, `BOB_JSEQ`
one above the last good record, event 0x0701. A duplicate is no torn record. -/
def Chip.jOpenUp (c : Chip) : Chip :=
  let all := c.jAll
  let last := all.getLast?
  let endPos := match last with | some l => l.1 + l.2.size | none => 0
  let next := match last with | some l => l.2.jseq + l.2.size | none => 1
  let goodAt := c.jGroups.flatMap (fun g => (List.range g.2.size).map (fun i => g.1 + i))
  let page := (endPos - 1) / 8 * 8
  let torn := ((List.range 16).map (· + page)).filter (fun p => !c.jBlank p && !goodAt.contains p)
  let head := if torn.all (fun p => decide (p < endPos)) then endPos else (torn.foldl max 0 / 8 + 1) * 8
  let c := c.each torn (fun c p => c.log 0x1705 uBOB (aCount p 0 0 (numAt (c.norRd (jAddr p) 8) 0 4)))
  let head := head % jPositions
  let c := c.jr (fun j => { j with head := head, dur := next - 1, ready := none, page := [], queue := [], want := none, erasing := none, owed := true })
  let c := ((c.put64 R.BOB_JSEQ_LO next).put64 R.BOB_JDUR_LO (next - 1)).put F.BOB_STATUS_OPEN 1
  let c := { c with cust := { c.cust with jrnl := { c.cust.jrnl with
    hankSeq := all.foldl (fun (t : Tab Nat) (g : Nat × JRec) => if g.2.op = 0x10 || g.2.op = 0x11 then tput t g.2.hank g.2.jseq else t) [] } } }
  (c.put F.BOB_JRNL_STATUS_HEAD_SECTOR (head / 128)).log 0x0701 uBOB (aCount torn.length 0 0 (next - 1))

/-- The unwrapped key of a HANK_KEY group (Table 7.9). -/
def Chip.jHankKey (c : Chip) (r : JRec) : Option (List Byte) :=
  match c.cust.keys.journal with
  | some k => Config.kwUnwrap k (r.parts.flatten.take 40)
  | none => none

/-- The parts of a HANK_KEY group for a key. -/
def Chip.hankParts (c : Chip) (key : List Byte) : List (List Byte) :=
  let w := padTo 48 (Config.kwWrap (c.cust.keys.journal.getD []) key)
  [slice w 0 16, slice w 16 16, slice w 32 16]

end Sys2Proof.Machine
end

