-- ==== Sys2Proof/Machine/CustodyOps.lean ====
section
/-!
DEFINITION. The Custody cluster's operations (R163 to R198, R229 to R259): derivation, cache and blobs, the Warp port, pushes over the
ring, notices and completions, descriptors and first keys, the discard of a pending key, and answers to key requests.
-/

namespace Sys2Proof.Machine

/-! Small access. -/

/-- ASCII bytes of a label. -/
def ascii (s : String) : List Byte := s.toList.map (fun c => BitVec.ofNat 8 c.toNat)

/-- The XOR of two byte strings. -/
def xorBytes (a b : List Byte) : List Byte := List.zipWith (· ^^^ ·) a b

/-- The Custody cluster changed. -/
def Chip.cu (c : Chip) (f : Cust → Cust) : Chip := { c with cust := f c.cust }

/-- A Bobbin; none when FREE. -/
def Chip.bob? (c : Chip) (id : Nat) : Option Bob := tget? c.cust.bobs id

/-- A Bobbin changed. -/
def Chip.bobMod (c : Chip) (id : Nat) (f : Bob → Bob) : Chip :=
  match c.bob? id with
  | none => c
  | some b => (c.cu (fun u => { u with bobs := tput u.bobs id (f b) })).noilTrans uBOB 7 4 id b.st (f b).st

/-- The applied value of an Amvex tag, or its ROM default (Table 5.5). -/
def Chip.conf (c : Chip) (tag dflt : Nat) : Nat := tget c.cfg tag dflt

/-! Classes (Tables 7.3, 9.1). -/

def clsFLEECE : Nat := 1
def clsWORSTED : Nat := 2
def clsLINK : Nat := 3
def clsHOST : Nat := 4
def clsLOADER : Nat := 5
def clsCKPT : Nat := 6
def clsDIE : Nat := 7

/-- A hank that is not FREE. -/
def Chip.hank? (c : Chip) (h : Nat) : Option Hank := tget? c.hanks.tab h
def Chip.hankSt (c : Chip) (h : Nat) : Nat := match c.hank? h with | some k => k.st | none => 0
def Chip.ha (c : Chip) (f : Hanks → Hanks) : Chip := { c with hanks := f c.hanks }
def Chip.hankMod (c : Chip) (h : Nat) (f : Hank → Hank) : Chip :=
  match c.hank? h with
  | some k => c.ha (fun u => { u with tab := tput u.tab h (f k) })
  | none => c
/-- The package serial, as the package certificate of the certificate store carries it (R323). -/
def Chip.pkgSerial (c : Chip) : Nat := Config.packageSerial (c.norRd 0 0x10000)

/-- The delivered `LIMIT_LOG2` of a class for a requested one, and whether it was out of range (R230). -/
def Chip.limitFor (c : Chip) (cls want : Nat) : Nat × Bool :=
  if cls ≤ 2 then (0, false)
  else
    let lo := 20
    let hi := if cls = clsLINK then 36 else 40
    let d := if cls = clsLINK then c.conf 0x0501 34 else 38
    if want = 0 then (d, false) else (clampTo lo hi want, decide (want < lo) || decide (hi < want))

/-- The `LIMIT` a key is delivered with (R195). -/
def Chip.limitOf (c : Chip) (b : Bob) : Nat := if b.cls ≤ 2 then 0 else 2 ^ (c.limitFor b.cls b.limit).1

/-- Limit units a Bobbin of a class uses per slot at most (Table 9.1). -/
def Chip.unitRate (c : Chip) (cls : Nat) : Nat :=
  if cls = clsLINK then (if c.conf 0x0503 0 = 1 then 224 else 112) else if cls = clsHOST then 8192 else 4096

/-- The deadline of a key that becomes current now (R253). -/
def Chip.deadlineOf (c : Chip) (b : Bob) : Nat :=
  if b.cls ≤ 2 then 0xFFFFFFFF
  else
    let p := if b.cls = clsLINK then c.conf 0x0502 75 else 75
    (c.slot + p * c.limitOf b / (100 * c.unitRate b.cls)) % 2 ^ 32

/-! The ladder (R164). -/

/-- The customisation string *L*. -/
def ladder : List Byte := ascii "GGM-1 LADDER"

def kStore (root : List Byte) (side : Nat) : List Byte := Config.kmac256 root (ascii "store" ++ le 1 side) ladder 32
def kJournal (store : List Byte) : List Byte := Config.kmac256 store (ascii "journal") ladder 32
def kNoise (hank : List Byte) : List Byte := Config.kmac256 hank (ascii "noise") ladder 32

/-- The hank key of a ceremony (R394): the shares in ascending owner index. -/
def kHank (shares : List Byte) (h ceremony : Nat) : List Byte := Config.kmac256 shares (ascii "hank" ++ le 1 h ++ le 4 ceremony) ladder 32

/-- The key of a derived Bobbin at an epoch: the hank's Fleece key for class FLEECE. -/
def kBobbin (hank : List Byte) (cls id epoch : Nat) : List Byte :=
  if cls = clsFLEECE then Config.kmac256 hank (ascii "fleece" ++ le 4 epoch) ladder 32
  else Config.kmac256 hank (ascii "bobbin" ++ le 4 id ++ le 4 epoch) ladder 32

/-- The derived key of a Bobbin at an epoch, none when its hank has no key. -/
def Chip.derived (c : Chip) (id : Nat) (b : Bob) (epoch : Nat) : Option (List Byte) :=
  (tget? c.cust.keys.hank b.hank).map (fun k => kBobbin k b.cls id epoch)

/-! The key cache (R171, R172). -/

/-- The set of a key. -/
def cacheSet (id epoch : Nat) : Nat := Nat.xor (id % 4096) (epoch % 4096)

/-- The cached key of a Bobbin at an epoch. -/
def Chip.cached (c : Chip) (id epoch : Nat) : Option (List Byte) :=
  (c.cust.cache.find? (fun e => e.bob == id && e.epoch == epoch)).map (fun e => xorBytes e.s0 e.s1)

/-- `DST_CACHE_STAT` after a change. -/
def Chip.cacheStat (c : Chip) : Chip :=
  (c.put F.DST_CACHE_STAT_VALID c.cust.cache.length).put F.DST_CACHE_STAT_PINNED (c.cust.cache.filter (·.pinned)).length

/-- Cache entries that `p` names, erased. -/
def Chip.cacheDrop (c : Chip) (p : CEnt → Bool) : Chip := (c.cu (fun u => { u with cache := u.cache.filter (fun e => !p e) })).cacheStat

/-- A cached key is used: its way is the most recent of its set (R171). -/
def Chip.cacheTouch (c : Chip) (id epoch : Nat) : Chip :=
  let hit := fun (e : CEnt) => e.bob == id && e.epoch == epoch
  c.cu (fun u => { u with cache := u.cache.filter (fun e => !hit e) ++ u.cache.filter hit })

/-- Put a key into the cache: in its set of four ways an unpinned one is replaced, never the most recently used of several, which other one
is free (assumption 142); with every way pinned it is not cached (R171). The entries stand in the order of their last use. -/
def Chip.cachePut (c : Chip) (id epoch : Nat) (key : List Byte) (pinned : Bool) : Chip :=
  let c := c.cacheDrop (fun e => e.bob == id && e.epoch == epoch)
  let ways := c.cust.cache.filter (fun e => cacheSet e.bob e.epoch == cacheSet id epoch)
  let loose := ways.filter (fun e => !e.pinned)
  let old := if loose.length ≤ 1 then loose else loose.dropLast
  let r := c.rnd 32
  let c := r.2
  let ent : CEnt := { bob := id, epoch := epoch, pinned := pinned, s0 := r.1, s1 := xorBytes r.1 key }
  if ways.length < 4 then (c.cu (fun u => { u with cache := u.cache ++ [ent] })).cacheStat
  else
    match old with
    | [] => c
    | e :: _ =>
      let d := c.draw
      let victim := old.getD (d.1 % old.length) e
      (d.2.cu (fun u => { u with cache := u.cache.erase victim ++ [ent] })).cacheStat

/-- Pin or unpin a cached key. -/
def Chip.cachePin (c : Chip) (id epoch : Nat) (pin : Bool) : Chip :=
  (c.cu (fun u => { u with cache := u.cache.map (fun e => if e.bob = id && e.epoch = epoch then { e with pinned := pin } else e) })).cacheStat

/-- The blob of a Bobbin's key (R169). -/
def Chip.blobBytes (c : Chip) (id epoch : Nat) (key : List Byte) : List Byte :=
  padTo 64 (padTo 40 (Config.kwWrap (c.cust.keys.blob.getD []) key) ++ le 4 id ++ le 4 epoch)

/-- Write a blob to the private range (R169), which names a slot from then on: 1 current, 2 other. -/
def Chip.blobWrite (c : Chip) (id epoch : Nat) (key : List Byte) (slot : Nat) : Chip :=
  (((c.portReq true (.hbm true 0xFE (64 * id) (c.blobBytes id epoch key))).count 6 1).bobMod id (fun b => { b with blob := slot }))

/-- Derive a key of a Bobbin (R164), counted; none when its hank has no key. -/
def Chip.derive (c : Chip) (id epoch : Nat) : Chip × Option (List Byte) :=
  match c.bob? id with
  | none => (c, none)
  | some b =>
    match c.derived id b epoch with
    | none => (c, none)
    | some k => (c.count 5 1, some k)

/-! The completion ring (R173, R259). -/

/-- A notice (Table 9.10). -/
def Chip.notice (c : Chip) (op tag : Nat) (st : Status) (done failId jseq : Nat) : Chip :=
  c.complete (pack [(2, tag), (1, op), (1, st.code), (4, done), (4, failId), (4, jseq)]) true

/-- A command's completion (Table 7.6). -/
def Chip.cmdDone (c : Chip) (r : CmdRun) : Chip :=
  let worst := r.bad.foldl (fun (m : Nat × Status) p => if p.1 < m.1 then p else m) (0xFFFFFFFF, .ok)
  let b := pack [(2, r.tag), (1, r.op), (1, worst.2.code), (4, r.done), (4, worst.1), (4, if r.durable then 0 else r.jseq)]
  let c := c.cu (fun u => { u with cmds := u.cmds.filter (fun k => k.id != r.id) })
  let c := if worst.2 = .ok then c else c.put F.BOB_STATUS_LAST_ERR worst.2.code
  (((c.complete b r.irq).count 4 1).trace 6 2 0 b)

/-- A Bobbin's part of every command that still waits for it ends (R174). -/
def Chip.cmdPart (c : Chip) (id : Nat) (st : Status) : Chip :=
  c.cu (fun u => { u with cmds := u.cmds.map (fun r =>
    if r.left.contains id then
      let r := { r with left := r.left.filter (· != id) }
      if st = .ok then { r with done := r.done + 1 } else { r with bad := r.bad ++ [(id, st)] }
    else r) })

/-- Has a command's work ended (R174, R175)? -/
def Chip.cmdReady (c : Chip) (r : CmdRun) : Bool :=
  r.left.isEmpty && r.holds == 0 && (!r.durable || decide (r.jseq ≤ c.get64 R.BOB_JDUR_LO))

/-- Complete every command whose work has ended. -/
def Chip.cmdsEnd (c : Chip) : Chip := c.each (c.cust.cmds.filter c.cmdReady) Chip.cmdDone

/-! The Warp port (R31, R32, R178, R179, R195, R424). -/

/-- A Warp frame's bytes with its CRC (Table 2.2). -/
def WarpFrame.bytes (f : WarpFrame) : List Byte :=
  let b := pack [(1, f.op), (1, f.result), (2, f.sub), (4, f.bobbin), (4, f.epoch), (8, f.time)] ++ padTo 32 f.share0 ++ padTo 32 f.share1 ++
    le 8 f.limit
  b ++ le 4 (crc32c b)

/-- The channel of a Bobbin's Warp target, 8 and above on the partner's base die; none without a target. -/
def Chip.warpCh (c : Chip) (b : Bob) : Option Nat :=
  if bit b.warp 7 then some (b.warp % 8 + (if b2n (bit b.warp 6) = c.get F.GEN_ID_SIDE then 0 else 8)) else none

/-- The state of a channel (Table 7.16): 0 unused, 1 OK, 2 SUSPECT, 3 FAILED. Without an authenticated link every channel of the partner's
die is FAILED (R424). -/
def Chip.chSt (c : Chip) (ch : Nat) : Nat :=
  if ch < 8 then bitsOf (c.get F.BOB_WARP_STATUS_CH) (2 * ch + 1) (2 * ch) else if c.linked then tget c.cust.chFar (ch - 8) 1 else 3

/-- A channel's state set.
That a channel of the partner's die shows in no register here is this model's choice (assumption 154). -/
def Chip.chPut (c : Chip) (ch st : Nat) : Chip :=
  if ch < 8 then
    let w := c.get F.BOB_WARP_STATUS_CH
    c.put F.BOB_WARP_STATUS_CH (w - bitsOf w (2 * ch + 1) (2 * ch) * 4 ^ ch + st * 4 ^ ch)
  else c.cu (fun u => { u with chFar := tput u.chFar (ch - 8) st })

/-- Put a frame on this instance's own channel; beyond 128 frames unanswered it waits its turn (R195). -/
def Chip.warpPut (c : Chip) (ch : Nat) (w : WarpWait) : Chip :=
  let q := tget c.cust.warp ch []
  if q.length < 128 then
    ((c.cu (fun u => { u with warp := tput u.warp ch (q ++ [w]) })).send (.warp ch w.frame)).count 29 1
  else c.cu (fun u => { u with backlog := tmod u.backlog ch [] (· ++ [w]) })

/-- Send a frame to a channel of either base die (R195, R424): over the link for the partner's die; RETIRE and CANCEL are held for it
while no link is authenticated. -/
def Chip.warpTo (c : Chip) (ch : Nat) (f : WarpFrame) : Chip :=
  if ch < 8 then c.warpPut ch { frame := f }
  else if c.linked then
    (c.plySend 0x30 (padTo 16 (le 1 (ch - 8)) ++ f.bytes)).cu id |> fun c => { c with ply := { c.ply with relay := c.ply.relay ++ [(ch - 8, f)] } }
  else if f.op = 3 || f.op = 4 then c.cu (fun u => { u with farHeld := u.farHeld ++ [(ch - 8, f)] })
  else c

/-- A LOAD_PENDING frame that carries a key in two shares (R195). -/
def Chip.loadFrame (c : Chip) (id sub epoch : Nat) (key : List Byte) (limit : Nat) : Chip × WarpFrame :=
  let d := c.rnd 32
  (d.2, { op := 1, sub := sub, bobbin := id, epoch := epoch, share0 := d.1, share1 := xorBytes d.1 key, limit := limit })

/-- Send a key to a Bobbin's Warp target. -/
def Chip.warpKey (c : Chip) (id : Nat) (b : Bob) (sub epoch : Nat) (key : List Byte) (limit : Nat) : Chip :=
  match c.warpCh b with
  | none => c
  | some ch => let p := c.loadFrame id sub epoch key limit; p.1.warpTo ch p.2

/-- The descriptor of a Bobbin (R233, Table 9.3). -/
def descFrame (id : Nat) (b : Bob) : WarpFrame :=
  { op := 1, sub := 0xFFFC, bobbin := id, epoch := b.epoch, time := b.base, limit := b.len,
    share0 := padTo 32 (pack [(1, b.cls), (1, b.dflags), (2, b.sub), (1, b.hank), (1, if b.cls ≤ 2 then b.rate else 0), (2, b.strand),
      (8, if b.cls = clsWORSTED then b.aux else 0)]),
    share1 := List.replicate 32 0#8 }

/-- Send a Bobbin's descriptor, its tree root zero again (R233, R240). -/
def Chip.warpDesc (c : Chip) (id : Nat) : Chip :=
  match c.bob? id with
  | none => c
  | some b =>
    match c.warpCh b with
    | none => c
    | some ch =>
      let c := if b.cls = clsWORSTED then c.cu (fun u => { u with trs := tdel u.trs b.sub }) else c
      (c.bobMod id (fun b => { b with enable := 1, rootVer := 0 })).warpTo ch (descFrame id b)

/-! Pushes over the ring (R192, R194). -/

/-- Is a die's bit set in `GEN_CARDEDn`? -/
def Chip.carded (c : Chip) (n : Nat) : Bool :=
  if n < 32 then bit (c.get F.GEN_CARDED0_NODES) n else decide (n < 64) && bit (c.get F.GEN_CARDED1_NODES) (n - 32)

/-- A KEY_REPLY or KEY_PUSH payload (Table 7.11). -/
def keyPayload (id epoch : Nat) (st : Status) (flags sub reqId limit : Nat) (wrapped : List Byte) : List Byte :=
  padTo 96 (pack [(4, id), (4, epoch), (1, st.code), (1, flags), (2, sub), (4, reqId), (8, limit)] ++ padTo 40 wrapped)

/-- A key wrapped for a die (R192). -/
def Chip.wrapFor (c : Chip) (die : Nat) (key : List Byte) : List Byte := Config.kwWrap (tget c.cust.node die []) key

/-- A KEY_PUSH payload for a die under a new `REQ_ID`. -/
def Chip.pushBody (c : Chip) (die id epoch : Nat) (st : Status) (flags sub limit : Nat) (key : Option (List Byte)) : Chip × List Byte :=
  let r := c.cust.nextReq
  let w := match key with | some k => c.wrapFor die k | none => []
  (c.cu (fun u => { u with nextReq := (r + 1) % 2 ^ 32, pushes := tput u.pushes r (die, id, epoch) }),
    keyPayload id epoch st flags sub r limit w)

/-- Push a key or a notice to a die. -/
def Chip.push (c : Chip) (die id epoch : Nat) (st : Status) (flags sub limit : Nat) (key : Option (List Byte)) : Chip :=
  let p := c.pushBody die id epoch st flags sub limit key
  p.1.ringSend 0x03 die p.2

/-- The dies of a hank. -/
def Chip.hankDies (c : Chip) (h : Nat) : List Nat :=
  match tget? c.hanks.tab h with | some k => bitsIn k.dies 64 | none => []

/-- The released dies of a hank. -/
def Chip.hankCarded (c : Chip) (h : Nat) : List Nat := (c.hankDies h).filter c.carded

/-- The dies of a Bobbin of class DIE told that a key is gone: STALE_EPOCH and no key (Table 7.4, R216). -/
def Chip.pushStale (c : Chip) (id epoch flags : Nat) (b : Bob) : Chip :=
  c.each (c.hankCarded b.hank) (fun c n => c.push n id epoch .staleEpoch flags b.sub 0 none)

/-! Discard (R177, R220, R221). -/

/-- A CANCEL to a channel that has FAILED is not confirmed: counted at its launch, event 0x2802 (R221). -/
def Chip.unconfirmed (c : Chip) (launch id epoch : Nat) : Chip :=
  let c := c.bobMod id (fun b => { b with unconf := some epoch })
  let c := c.each (List.range 16) (fun c n =>
    if launch != 0 && (c.rd (R.WHL_Ln_NUM n)).toNat = launch then c.addi F.WHL_Ln_UNCONFIRMED_COUNT n 1 else c)
  c.log 0x2802 uWHL (aBobbin id epoch 0 (match c.bob? id with | some b => b.warp | none => 0) false 0 launch 0)

/-- The pending key of a Bobbin is discarded (R177): erased from the cache, its blob no longer named, CANCEL to every target that
received it. `quiet` leaves the dies to a LAUNCH_CANCEL broadcast. -/
def Chip.discard (c : Chip) (id : Nat) (quiet : Bool) : Chip :=
  match c.bob? id with
  | none => c
  | some b =>
    if b.st < 2 || 5 < b.st then c
    else
      let e := b.epoch + 1
      let c := (c.cacheDrop (fun k => k.bob == id && k.epoch == e)).cu (fun u => { u with loads := u.loads.filter (fun l => l.1 != id) })
      let c := c.bobMod id (fun b => { b with st := 1, blob := if b.blob = 2 then 0 else b.blob, launch := 0, wait := [], fail := none })
      let c := match c.warpCh b with
        | some ch =>
          if c.chSt ch = 3 && (ch < 8 || c.linked) then c.unconfirmed b.launch id e
          else
            let c := { c with whl := { c.whl with cancelWait := c.whl.cancelWait ++ [(b.launch, id)] } }
            c.warpTo ch { op := 3, sub := b.sub, bobbin := id, epoch := e }
        | none => c
      if b.cls = clsDIE && !quiet then c.pushStale id e 4 b else c

/-! Answers of targets (R178, R234). -/

/-- Whether byte 9 of a BOBBIN record names a node, and what it holds. -/
def Tgt.byte (t : Tgt) (b : Bob) : Nat × Bool := match t with | .warp _ => (b.warp, false) | .die n => (n, true)

/-- A target reports its check of the pending key (R178, R198): VERIFIED once every target answered OK, else discarded once every
target has answered. -/
def Chip.targetDone (c : Chip) (id : Nat) (t : Tgt) (st : Status) : Chip :=
  match c.bob? id with
  | none => c
  | some b =>
    if b.st != 2 || !b.wait.contains t then c
    else
      let c := if st = .ok then c
        else c.log 0x2701 uBOB (aBobbin id (b.epoch + 1) st.code (t.byte b).1 (t.byte b).2 0 b.launch 0)
      let c := c.bobMod id (fun b =>
        { b with wait := b.wait.filter (· != t), fail := if st = .ok || b.fail.isSome then b.fail else some st.code })
      match c.bob? id with
      | none => c
      | some b =>
        if !b.wait.isEmpty then c
        else
          match b.fail with
          | none => (c.bobMod id (fun b => { b with st := 3 })).cmdPart id .ok
          | some code => (c.discard id false).cmdPart id ((Status.ofCode code).getD .integrity)

/-- The outcome of a descriptor or first key (R234): an ENABLED notice with event 0x0901, or 0x2903. -/
def Chip.enabled (c : Chip) (id : Nat) (st : Status) : Chip :=
  match c.bob? id with
  | none => c
  | some b =>
    let c := c.bobMod id (fun b => { b with enable := if st = .ok then 3 else 4 })
    let c := c.notice 0x81 b.sub st b.epoch id 0
    c.log (if st = .ok then 0x0901 else 0x2903) uBOB (aBobbin id b.epoch st.code b.warp false (c.limitFor b.cls b.limit).1 b.launch 0)

/-- The current key of a Bobbin where no wait is needed: cached, or derived, which rewrites the blob when it names no slot (R170). -/
def Chip.currentKey (c : Chip) (id : Nat) (b : Bob) (epoch : Nat) : Chip × Option (List Byte) :=
  match c.cached id epoch with
  | some k => (c.cacheTouch id epoch, some k)
  | none =>
    if b.imported then (c, none)
    else
      let d := c.derive id epoch
      match d.2 with
      | some k => (if b.blob = 0 then d.1.blobWrite id epoch k 1 else d.1, some k)
      | none => d

/-- The source a waiting key need has that is the Custody cluster's own (R170, R234), no die's. -/
def ownNeed : Nat := 256

/-- After an accepted descriptor, the first key (R234): cached, or from the blob that names the slot, or derived (R170). -/
def Chip.firstKey (c : Chip) (id : Nat) : Chip :=
  match c.bob? id with
  | none => c
  | some b =>
    if b.blob = 1 && (c.cached id b.epoch).isNone then
      (c.portReq true (.blobRead true 0xFE id)).cu (fun u =>
        { u with blobReads := u.blobReads ++ [{ src := ownNeed, bob := id, epoch := b.epoch, reqId := 0, time := c.time }] })
    else
      let k := c.currentKey id b b.epoch
      match k.2 with
      | none => k.1.enabled id .integrity
      | some key => (k.1.bobMod id (fun b => { b with enable := 2 })).warpKey id b b.sub b.epoch key (c.limitOf b)

/-! Answers to key requests (R193). -/

/-- Send a KEY_REPLY, at its fixed slot for a quiet hank (R413), traced and counted. -/
def Chip.keyReply (c : Chip) (q : KeyReq) (st : Status) (flags sub limit : Nat) (key : Option (List Byte)) (epoch : Nat) : Chip :=
  let w := match key with | some k => c.wrapFor q.src k | none => []
  let body := keyPayload q.bob epoch st flags sub q.reqId limit w
  let quiet := c.hanks.tab.find? (fun e => bit e.2.flags 0 && decide (3 ≤ e.2.st) && bit e.2.dies q.src)
  let c := (c.count 0 1).trace 7 2 0 (body.take 12 ++ le 4 ((c.time - q.time) * 4))
  let c := if st = .limitReached then c.count 7 1 else c
  match quiet with
  | some h =>
    { c with late := c.late ++ [{ arrive := q.time / 256, period := 12, ready := c.slot, eff := .ring 0x02 q.src body, hank := h.1 }] }
  | none => c.ringSend 0x02 q.src body

end Sys2Proof.Machine
end

