-- ==== Sys2Proof/Machine/Cbor.lean ====
section
/-!
DEFINITION. The encodings receipts and reports are made of: CBOR under the deterministic requirements of RFC 8949 (R329), the
subjectPublicKeyInfo of an Alias key, and the COSE_Sign message of R331.
-/

namespace Sys2Proof.Machine

/-- A CBOR head of a major type in preferred serialisation. -/
def cHead (major n : Nat) : List Byte :=
  if n < 24 then [BitVec.ofNat 8 (major * 32 + n)]
  else if n < 256 then BitVec.ofNat 8 (major * 32 + 24) :: be 1 n
  else if n < 65536 then BitVec.ofNat 8 (major * 32 + 25) :: be 2 n
  else if n < 2 ^ 32 then BitVec.ofNat 8 (major * 32 + 26) :: be 4 n
  else BitVec.ofNat 8 (major * 32 + 27) :: be 8 n

/-- Unsigned and negative integers (`cNeg n` is −1 − n), byte and text strings, arrays of encoded items, maps of encoded pairs in the
order of their encoded keys, tags, and the two truth values. -/
def cUint (n : Nat) : List Byte := cHead 0 n
def cNeg (n : Nat) : List Byte := cHead 1 n
def cBytes (b : List Byte) : List Byte := cHead 2 b.length ++ b
def cText (s : String) : List Byte := cHead 3 s.length ++ ascii s
def cArr (xs : List (List Byte)) : List Byte := cHead 4 xs.length ++ xs.flatten
def cMap (ps : List (List Byte × List Byte)) : List Byte := cHead 5 ps.length ++ (ps.map (fun p => p.1 ++ p.2)).flatten
def cTag (t : Nat) (x : List Byte) : List Byte := cHead 6 t ++ x
def cBool (b : Bool) : List Byte := cHead 7 (if b then 21 else 20)

/-- A map with unsigned keys. -/
def cMapU (ps : List (Nat × List Byte)) : List Byte := cMap (ps.map (fun p => (cUint p.1, p.2)))

/-- The subjectPublicKeyInfo of a P-384 and of an ML-DSA-65 public key (PRESUMED, X.509: assumption 45). -/
def spkiEc (pub : List Byte) : List Byte :=
  ([0x30, 0x76, 0x30, 0x10, 0x06, 0x07, 0x2A, 0x86, 0x48, 0xCE, 0x3D, 0x02, 0x01, 0x06, 0x05, 0x2B, 0x81, 0x04, 0x00, 0x22, 0x03, 0x62,
    0x00].map (BitVec.ofNat 8)) ++ pub
def spkiMldsa (pub : List Byte) : List Byte :=
  ([0x30, 0x82, 0x07, 0xB2, 0x30, 0x0B, 0x06, 0x09, 0x60, 0x86, 0x48, 0x01, 0x65, 0x03, 0x04, 0x03, 0x12, 0x03, 0x82, 0x07, 0xA1,
    0x00].map (BitVec.ofNat 8)) ++ pub

/-- A signer's protected header: algorithm (−1 − `alg`), *kid*, *t* (R331). -/
def coseProt (alg : Nat) (spki : List Byte) (t : Nat) : List Byte :=
  cMap [(cUint 1, cNeg alg), (cUint 4, cBytes ((Config.sha3_384 spki).take 16)), (cNeg 70000, cUint t)]

/-- The body's protected header (R331). -/
def coseBody : List Byte := cMap [(cUint 3, cText "application/cbor")]

/-- The Sig_structure of a signer (RFC 9052), with an empty external_aad. -/
def sigStructure (prot payload : List Byte) : List Byte :=
  cArr [cText "Signature", cBytes coseBody, cBytes prot, cBytes [], cBytes payload]

/-- A COSE_Sign message by the Alias keys over a payload accepted at Whorl time `t` (R331); `nonce` makes the ECDSA nonce, `rnd` is ML-DSA's. -/
def Chip.coseSign (c : Chip) (payload : List Byte) (t : Nat) (nonce rnd : List Byte) : List Byte :=
  let a := c.boot.alias_.getD ([], [])
  let p1 := coseProt 34 (spkiEc (Config.ecPubFull a.1)) t
  let p2 := coseProt 48 (spkiMldsa (Config.mldsaPub 65 a.2)) t
  let s1 := padTo 96 (Config.ecdsaSign a.1 (Config.sha384 (sigStructure p1 payload)) nonce)
  let s2 := padTo 3309 (Config.mldsaSign 65 a.2 (sigStructure p2 payload) rnd)
  cTag 98 (cArr [cBytes coseBody, cMap [], cBytes payload,
    cArr [cArr [cBytes p1, cMap [], cBytes s1], cArr [cBytes p2, cMap [], cBytes s2]]])

end Sys2Proof.Machine
end

