-- ==== Sys2Proof/Machine/CryptoOps.lean ====
section
/-!
DEFINITION. Crypto channels at work (R262 to R270): what a descriptor's operation needs, what it computes from its source key, and when a
descriptor starts.
-/

namespace Sys2Proof.Machine

/-! Keys (R269). -/

def kAES : Nat := 1
def kEC : Nat := 2
def kDSA : Nat := 3
def kKEM : Nat := 4
def k32 : Nat := 5
def k64 : Nat := 6

/-- The bytes of a key of a type. -/
def keySize (typ : Nat) : Nat := if typ = kEC then 48 else if typ = kKEM || typ = k64 then 64 else 32

/-- Source and destination register of a descriptor. -/
def CryDesc.src (d : CryDesc) : Nat := d.key % 4
def CryDesc.dst (d : CryDesc) : Nat := bitsOf d.key 5 4

/-- `FLAGS` of a descriptor. -/
def CryDesc.order (d : CryDesc) : Bool := bit d.flags 2
def CryDesc.pset (d : CryDesc) : Nat := if bit d.flags 3 then 87 else 65
def CryDesc.mu (d : CryDesc) : Bool := bit d.flags 4
def CryDesc.pr (d : CryDesc) : Bool := bit d.flags 5
def CryDesc.out? (d : CryDesc) : Bool := bit d.flags 6

/-- The operations of Table 10.3. -/
def cryOps : List Nat :=
  [0x10, 0x11, 0x12, 0x18, 0x19, 0x1A, 0x1C, 0x1D, 0x1E, 0x20, 0x21, 0x22, 0x23, 0x30, 0x40, 0x41, 0x42, 0x43, 0x44, 0x50, 0x51, 0x52, 0x53, 0x60]

/-- The engine group of an operation (Tables 3.5, 10.1); 0 for the DRBG and the key registers. -/
def cryGroup (op : Nat) : Nat :=
  if op < 0x20 then 4 else if op < 0x30 then 3 else if op < 0x40 then 1 else if op < 0x50 then 2 else 0

/-- The lane class of an operation (Table 10.1): 6 for the DRBG; 7 for the key registers, which need no lane. -/
def cryLane (op : Nat) : Nat :=
  if op < 0x20 then 0 else if op < 0x30 then 1 else if op < 0x40 then 2 else if op < 0x50 then 4 else if op = 0x50 || op = 0x60 then 6 else 7

/-- Sizes of FIPS 204: public key and signature of a parameter set. -/
def dsaPk (p : Nat) : Nat := if p = 87 then 2592 else 1952
def dsaSig (p : Nat) : Nat := if p = 87 then 4627 else 3309

/-- Is the operation the channel's owner's to use (Table 10.3)? -/
def cryAllowed (spn : Bool) (d : CryDesc) : Bool :=
  cryOps.contains d.op &&
    (spn || !((0x1C ≤ d.op && d.op ≤ 0x1E) || d.op == 0x52 || d.op == 0x53 || (d.op == 0x30 && d.out?)))

/-- Lengths and arguments within the limits of the chapter (R263 to R268, Table 10.3). -/
def cryLens (d : CryDesc) : Bool :=
  let pk := dsaPk d.pset
  let sig := dsaSig d.pset
  let msg := if d.mu then d.inLen == 64 else decide (d.inLen ≤ 16384)
  match d.op with
  | 0x10 => decide (pk ≤ d.outLen)
  | 0x11 => msg && decide (d.auxLen ≤ 255) && decide (sig ≤ d.outLen)
  | 0x12 => msg && decide (d.arg ≤ 255) && d.auxLen == pk + sig + d.arg
  | 0x18 => decide (1568 ≤ d.outLen)
  | 0x19 => d.auxLen == 1568 && decide (1568 ≤ d.outLen)
  | 0x1A => d.inLen == 1568
  | 0x1C => d.inLen == 1024 && decide (1024 ≤ d.outLen) && decide (d.arg ≤ 1)
  | 0x1D => d.inLen == 1024 && decide (1024 ≤ d.outLen) && decide (d.arg ≤ 1)
  | 0x1E => d.inLen == 1024 && d.auxLen == 1024 && decide (1024 ≤ d.outLen) && decide (d.arg ≤ 1)
  | 0x20 => decide (97 ≤ d.outLen)
  | 0x21 => d.inLen == 48 && decide (96 ≤ d.outLen)
  | 0x22 => d.inLen == 48 && d.auxLen == 193
  | 0x23 => d.auxLen == 97
  | 0x30 => decide (d.inLen ≤ 1024) && decide (d.auxLen ≤ 64) && (d.arg == 32 || d.arg == 64) && (!d.out? || decide (d.arg ≤ d.outLen))
  | 0x40 => decide (d.inLen ≤ 4194304) && decide (d.arg ≤ 65536) && d.auxLen == 12 + d.arg && decide (d.inLen + 16 ≤ d.outLen)
  | 0x41 => decide (16 ≤ d.inLen) && decide (d.inLen ≤ 4194320) && decide (d.arg ≤ 65536) && d.auxLen == 12 + d.arg && decide (d.inLen ≤ d.outLen + 16)
  | 0x42 => decide (d.inLen ≤ 4194304) && d.auxLen == 16 && decide (d.inLen ≤ d.outLen)
  | 0x43 => decide (d.arg ≤ 3) && decide (40 ≤ d.outLen)
  | 0x44 => d.inLen == 40 || d.inLen == 72
  | 0x50 => 1 ≤ d.arg / 256 && d.arg / 256 ≤ 6 && d.arg % 256 == keySize (d.arg / 256) && d.arg / 256 != kEC
  | 0x52 => decide (d.arg ≤ 1)
  | 0x53 => 1 ≤ d.arg && d.arg ≤ 6 && d.inLen == keySize d.arg
  | 0x60 => decide (d.outLen ≤ 65536)
  | _ => true

/-- Is a buffer absent, or 8-byte aligned and inside an SRAM of `top` bytes? -/
def cryBuf (top off len : Nat) : Bool := len == 0 || (off % 8 == 0 && decide (off + len ≤ top))

/-- Two buffers that do not overlap. -/
def apart (a n b m : Nat) : Bool := n == 0 || m == 0 || decide (a + n ≤ b) || decide (b + m ≤ a)

/-- The checks before an operation starts (R268): reserved bits, buffers, class and lengths. -/
def cryGood (spn : Bool) (cap : Nat) (d : CryDesc) : Bool :=
  let top := if spn then 0x100000 else rovBytes
  !bit d.flags 7 && d.zero == 0 && bitsOf d.key 7 6 == 0 && bitsOf d.key 3 2 == 0 && decide (d.cls ≤ cap) && cryBuf top d.inOff d.inLen &&
    cryBuf top d.auxOff d.auxLen && cryBuf top d.outOff d.outLen && apart d.inOff d.inLen d.outOff d.outLen &&
    apart d.auxOff d.auxLen d.outOff d.outLen && cryLens d

/-- Which key types an operation takes as its source (Table 10.3); none: it has no source key. AES operations take an AES-256 key or a
32-byte secret, as IMPORT does (R522). -/
def crySrc (op : Nat) : Option (List Nat) :=
  match op with
  | 0x10 => some [kDSA] | 0x11 => some [kDSA] | 0x18 => some [kKEM] | 0x1A => some [kKEM] | 0x21 => some [kEC] | 0x23 => some [kEC]
  | 0x30 => some [kAES, k32, k64] | 0x40 => some [kAES, k32] | 0x41 => some [kAES, k32] | 0x42 => some [kAES, k32] | 0x43 => some [kAES, k32]
  | 0x44 => some [kAES, k32] | _ => none

/-- May a sealed key be used so (R269)? -/
def sealedUse (d : CryDesc) : Bool :=
  d.op == 0x40 || d.op == 0x41 || d.op == 0x42 || d.op == 0x44 || (d.op == 0x30 && !d.out?)

/-! What an operation leaves (R262 to R265). -/

/-- What a unit leaves: status, output, bytes used, destination key; `early` when it is refused before it takes a lane. -/
structure CryRes where
  st : Status := .ok
  out : List Byte := []
  used : Nat := 0
  key : Option CKey := none
  early : Bool := false

/-- An output of its own length. -/
def cryOut (bs : List Byte) : CryRes := { out := bs, used := bs.length }

/-- A secret for the destination register: type by its length, sealed as its source was. -/
def crySecret (bs : List Byte) (sealed_ : Bool) : CKey := { typ := if bs.length = 32 then k32 else k64, isSealed := sealed_, bytes := bs }

/-- The representative of a message: μ itself with `MU`, else μ of the message under its context (R263). -/
def CryDesc.muOf (d : CryDesc) (pk ctx : List Byte) : List Byte := if d.mu then d.input else Config.mldsaMu d.pset pk ctx d.input

/-- MLDSA_KEYGEN. -/
def cryDsaKeygen (d : CryDesc) (k : CKey) : CryRes := cryOut (padTo (dsaPk d.pset) (Config.mldsaPub d.pset k.bytes))

/-- MLDSA_SIGN, hedged with `rnd`. -/
def cryDsaSign (d : CryDesc) (k : CKey) (rnd : List Byte) : CryRes :=
  cryOut (padTo (dsaSig d.pset) (Config.mldsaSignMu d.pset k.bytes (d.muOf (Config.mldsaPub d.pset k.bytes) d.aux) rnd))

/-- MLDSA_VERIFY: public key, signature and context in `AUX`. -/
def cryDsaVerify (d : CryDesc) : CryRes :=
  let pk := slice d.aux 0 (dsaPk d.pset)
  let sig := slice d.aux (dsaPk d.pset) (dsaSig d.pset)
  let ctx := slice d.aux (dsaPk d.pset + dsaSig d.pset) d.arg
  if Config.mldsaVerifyMu d.pset pk (d.muOf pk ctx) sig then {} else { st := .integrity }

/-- MLKEM_KEYGEN, ENCAPS (with 32 random bytes) and DECAPS. -/
def cryKemKeygen (k : CKey) : CryRes := cryOut (padTo 1568 (Config.mlkemPub k.bytes))
def cryKemEncaps (d : CryDesc) (rnd : List Byte) : CryRes :=
  let r := Config.mlkemEncaps d.aux rnd
  { cryOut (padTo 1568 r.1) with key := some (crySecret (padTo 32 r.2) false) }
def cryKemDecaps (d : CryDesc) (k : CKey) : CryRes := { key := some (crySecret (padTo 32 (Config.mlkemDecaps k.bytes d.input)) k.isSealed) }

/-- NTT, INTT and PMUL. -/
def cryNtt (d : CryDesc) : CryRes :=
  cryOut (padTo 1024 (Config.ntt (d.op - 0x1C) (if d.arg = 0 then 8380417 else 3329) d.input d.aux))

/-- ECC_KEYGEN, ECDSA_SIGN (its nonce from 56 random bytes), ECDSA_VERIFY and ECDH; every point received is checked (R264). -/
def cryEcKeygen (rnd : List Byte) : CryRes :=
  let s := padTo 48 (ecScalar rnd)
  { cryOut (padTo 97 (Config.ecPubFull s)) with key := some { typ := kEC, bytes := s } }
def cryEcSign (d : CryDesc) (k : CKey) (rnd : List Byte) : CryRes := cryOut (padTo 96 (Config.ecdsaSign k.bytes d.input rnd))
def cryEcVerify (d : CryDesc) : CryRes :=
  let p := slice d.aux 0 97
  if !Config.ecPointOk p then { st := .badArg }
  else if Config.ecdsaVerify p d.input (slice d.aux 97 96) then {} else { st := .integrity }
def cryEcdh (d : CryDesc) (k : CKey) : CryRes :=
  if !Config.ecPointOk d.aux then { st := .badArg }
  else { key := some { typ := k64, isSealed := k.isSealed, bytes := padTo 48 (Config.ecdhX k.bytes d.aux) } }

/-- KMAC into a register, or with `EXPORT` to the output. -/
def cryKmac (d : CryDesc) (k : CKey) : CryRes :=
  let o := padTo d.arg (Config.kmac256 k.bytes d.input d.aux d.arg)
  if d.out? then cryOut o else { key := some (crySecret o k.isSealed) }

/-- GCM_ENC, GCM_DEC and CTR: IV (or counter block) and additional data in `AUX`. -/
def cryGcmEnc (d : CryDesc) (k : CKey) : CryRes :=
  cryOut (padTo (d.inLen + 16) (Config.gcmEnc k.bytes (slice d.aux 0 12) (slice d.aux 12 d.arg) d.input))
def cryGcmDec (d : CryDesc) (k : CKey) : CryRes :=
  match Config.gcmDec k.bytes (slice d.aux 0 12) (slice d.aux 12 d.arg) d.input with
  | some t => cryOut (padTo (d.inLen - 16) t)
  | none => { st := .integrity, out := List.replicate d.outLen 0#8 }
def cryCtr (d : CryDesc) (k : CKey) : CryRes := cryOut (padTo d.inLen (Config.ctr k.bytes d.aux d.input))

/-- KW_WRAP of a register of 32 or 64 bytes; KW_UNWRAP into the destination register. -/
def cryWrap (d : CryDesc) (k w : CKey) : CryRes :=
  if w.isSealed then { st := .denied, early := true }
  else if w.typ = 0 || w.typ = kEC || d.outLen < keySize w.typ + 8 then { st := .badArg, early := true }
  else cryOut (padTo (keySize w.typ + 8) (Config.kwWrap k.bytes w.bytes))
def cryUnwrap (d : CryDesc) (k : CKey) : CryRes :=
  match Config.kwUnwrap k.bytes d.input with
  | some b => { key := some (crySecret (padTo (d.inLen - 8) b) k.isSealed) }
  | none => { st := .integrity, out := List.replicate d.outLen 0#8 }

/-- KEY_RANDOM, KEY_ERASE, KEY_LOAD. -/
def cryKeyRandom (d : CryDesc) (rnd : List Byte) : CryRes := { key := some { typ := d.arg / 256, bytes := rnd } }
def cryKeyErase : CryRes := { key := some {} }
def cryKeyLoad (d : CryDesc) : CryRes := { key := some { typ := d.arg, bytes := padTo (keySize d.arg) d.input } }

/-- KEY_DISTAFF: the handle of an Alias private key, 0 the ECDSA one and 1 the ML-DSA one; BAD_ARG when Distaff holds none. -/
def Chip.cryDistaff (c : Chip) (d : CryDesc) : CryRes :=
  match c.boot.alias_ with
  | none => { st := .badArg, early := true }
  | some a => { key := some (if d.arg = 0 then { typ := kEC, bytes := a.1 } else { typ := kDSA, bytes := a.2 }) }

/-- How many random bytes an operation draws from the DRBG. -/
def cryRandom (d : CryDesc) : Nat :=
  match d.op with
  | 0x11 => 32 | 0x19 => 32 | 0x20 => 56 | 0x21 => 56 | 0x50 => d.arg % 256 | 0x60 => d.outLen | _ => 0

/-- The result of an operation on its source key, the register to wrap and its random bytes. -/
def Chip.cryRun (c : Chip) (d : CryDesc) (k w : CKey) (rnd : List Byte) : CryRes :=
  match d.op with
  | 0x10 => cryDsaKeygen d k
  | 0x11 => cryDsaSign d k rnd
  | 0x12 => cryDsaVerify d
  | 0x18 => cryKemKeygen k
  | 0x19 => cryKemEncaps d rnd
  | 0x1A => cryKemDecaps d k
  | 0x20 => cryEcKeygen rnd
  | 0x21 => cryEcSign d k rnd
  | 0x22 => cryEcVerify d
  | 0x23 => cryEcdh d k
  | 0x30 => cryKmac d k
  | 0x40 => cryGcmEnc d k
  | 0x41 => cryGcmDec d k
  | 0x42 => cryCtr d k
  | 0x43 => cryWrap d k w
  | 0x44 => cryUnwrap d k
  | 0x50 => cryKeyRandom d rnd
  | 0x51 => cryKeyErase
  | 0x52 => c.cryDistaff d
  | 0x53 => cryKeyLoad d
  | 0x60 => cryOut rnd
  | _ => cryNtt d

/-! Starting. -/

/-- A sealed key misused (R269). -/
def Chip.sealLog (c : Chip) (n : Nat) : Chip :=
  c.log 0x1A06 uCRY (aAccess (R.CRY_CHn_KEYS n) (c.chOwner n) false uCRY Status.denied.code n)

/-- A use of a sealed key that R269 forbids. -/
def Chip.cryMisuse (c : Chip) (n : Nat) (d : CryDesc) : Bool :=
  ((crySrc d.op).isSome && (c.chKey n d.src).isSealed && !sealedUse d) || (d.op == 0x43 && (c.chKey n (d.arg % 4)).isSealed)

/-- A poisoned word of Roving SRAM among a descriptor's inputs (R138). -/
def Chip.cryPoison (c : Chip) (n : Nat) (d : CryDesc) : Bool :=
  !c.chSpn n && ((c.poisoned d.inOff d.inLen).isSome || (c.poisoned d.auxOff d.auxLen).isSome)

/-- A descriptor with the bytes its buffers hold. -/
def Chip.cryLoad (c : Chip) (n : Nat) (d : CryDesc) : CryDesc :=
  { d with input := c.ownRd (c.chOwner n) d.inOff d.inLen, aux := c.ownRd (c.chOwner n) d.auxOff d.auxLen }

/-- A unit's start (R269, R270): the source key is read now; a bad key, or an input poisoned meanwhile, refuses the operation. -/
def Chip.cryBegin (c : Chip) (n : Nat) (d : CryDesc) : Chip × CryRes :=
  let k := c.chKey n d.src
  let w := c.chKey n (d.arg % 4)
  let wrong := match crySrc d.op with | some ts => !ts.contains k.typ | none => false
  if c.cryMisuse n d then (c.sealLog n, { st := .denied, early := true })
  else if wrong then (c, { st := .badArg, early := true })
  else if c.cryPoison n d then (c, { st := .integrity, early := true })
  else
    let d := c.cryLoad n d
    let m := cryRandom d
    if m = 0 then (c, c.cryRun d k w [])
    else
      let r := c.rngReq m d.pr
      if r.1 = .ok then (r.2.2, r.2.2.cryRun d k w r.2.1) else (r.2.2, { st := r.1, early := true })

/-- Is the engine group of an operation on? -/
def Chip.cryReady (c : Chip) (op : Nat) : Bool := cryGroup op == 0 || c.grp (cryGroup op) == 2

/-- Is the engine group of an operation disabled or FAILED (R61)? -/
def Chip.cryDown (c : Chip) (op : Nat) : Bool :=
  cryGroup op != 0 && (c.grp (cryGroup op) == 3 || bit (c.get F.PWR_GRP_CTRL_DISABLE) (cryGroup op - 1))

/-! Lanes served by class, then in order of arrival (R20, R271). -/

/-- The units that hold lanes of a class, each with its channel. -/
def Chip.laneRuns (c : Chip) (cls : Nat) : List (Nat × Flight) :=
  (List.range 32).flatMap (fun n => ((c.ch n).fl.filter (fun f => f.lane.isSome && cryLane f.desc.op == cls)).map (fun f => (n, f)))

/-- A lane of a class that is in rotation and runs nothing. -/
def Chip.laneOpen (c : Chip) (cls : Nat) : Option Nat :=
  if cls = 7 then some 0
  else (if cls = 6 then [0] else c.laneFree cls).find? (fun l => (c.laneRuns cls).all (fun r => r.2.lane != some l))

/-- A GCM or CTR operation longer than one unit (Table 10.4), which yields its lane between slices. -/
def cryLong (d : CryDesc) : Bool := decide (0x40 ≤ d.op) && decide (d.op ≤ 0x42) && decide (4096 < d.inLen)

/-- Does flight `a` come before `b`: by class, then by arrival? -/
def Flight.before (a b : Flight) : Bool := decide (b.desc.cls < a.desc.cls) || (b.desc.cls == a.desc.cls && decide (a.arrive < b.arrive))

/-- The first of several. -/
def flightFirst (ws : List (Nat × Flight)) : Option (Nat × Flight) :=
  ws.foldl (fun m w => match m with | some v => if w.2.before v.2 then some w else m | none => some w) none

/-- The lane a waiting unit can have: one that is free, or that of a long operation of a lower class, which yields. -/
def Chip.laneFor (c : Chip) (f : Flight) : Option Nat :=
  let cls := cryLane f.desc.op
  match c.laneOpen cls with
  | some l => some l
  | none =>
    ((c.laneRuns cls).find? (fun r => cryLong r.2.desc && decide (r.2.desc.cls < f.desc.cls) &&
      (match r.2.lane with | some l => (c.laneFree cls).contains l | none => false))).bind (fun r => r.2.lane)

/-- What waits for a lane on a channel whose core is not halted (R491): units that yielded, and the first descriptor not started, once its group is
on and `ORDER` lets it (R268). -/
def Chip.chWaits (c : Chip) (n : Nat) : List (Nat × Flight) :=
  let o := c.chOwner n
  if decide (0xF0 ≤ o) && o != 0xFF && c.coreHalted (o - 0xF0) then []
  else
    let fl := (c.ch n).fl
    let head := match fl with | g :: _ => [g.idx] | [] => []
    let next := match fl.find? (fun f => !f.started) with
      | some f => if c.cryReady f.desc.op && (!f.desc.order || head.contains f.idx) then [(n, f)] else []
      | none => []
    (fl.filter (fun f => f.started && f.lane.isNone)).map (fun f => (n, f)) ++ next

/-- A flight of a channel replaced. -/
def Chip.flPut (c : Chip) (n : Nat) (f : Flight) : Chip :=
  c.chMod n (fun u => { u with fl := u.fl.map (fun g => if g.idx = f.idx then f else g) })

/-- Does a lattice lane still hold a seed's expanded key (R263)? -/
def Chip.seedHeld (c : Chip) (l : Nat) (seed : List Byte) : Bool := (tget c.cry.seeds l []).contains seed

/-- A signature leaves its seed among the last two of its lane. -/
def Chip.seedUse (c : Chip) (l : Nat) (f : Flight) (seed : List Byte) : Chip :=
  if f.desc.op = 0x11 then c.cr (fun u => { u with seeds := tmod u.seeds l [] (fun q => newest 2 (q.filter (· != seed) ++ [seed])) }) else c

/-- A waiting unit takes a lane: what ran there yields; the unit starts, goes on, or is refused. -/
def Chip.cryStart (c : Chip) (n : Nat) (f : Flight) (l : Nat) : Chip :=
  let c := c.each ((c.laneRuns (cryLane f.desc.op)).filter (fun r => cryLane f.desc.op != 7 && r.2.lane == some l)) (fun c r => c.flPut r.1 { r.2 with lane := none })
  if f.started then c.flPut n { f with lane := some l }
  else
    let seed := (c.chKey n f.desc.src).bytes
    let r := c.cryBegin n f.desc
    if r.2.early then r.1.chDone n f r.2.st 0
    else
      (r.1.flPut n { f with
        started := true, lane := some l, expand := f.desc.op == 0x11 && !c.seedHeld l seed, st := r.2.st, out := r.2.out
        used := r.2.used, key := r.2.key }).seedUse l f seed

/-- Waiting units start, the highest class and then the oldest first, as long as one can have a lane. -/
def Chip.cryGo (c : Chip) (fuel : Nat) : Chip :=
  match fuel with
  | 0 => c
  | fuel + 1 =>
    match flightFirst (((List.range 32).flatMap c.chWaits).filter (fun w => (c.laneFor w.2).isSome)) with
    | none => c
    | some w => Chip.cryGo (c.cryStart w.1 w.2 ((c.laneFor w.2).getD 0)) fuel

/-- Start whatever may start; every start takes one of at most 32 times 256 descriptors. -/
def Chip.cryArb (c : Chip) : Chip := c.cryGo 8192

/-- The channel takes the descriptor at `HEAD` (R268): checked, queued for its group, or completed at once. -/
def Chip.cryTake (c : Chip) (n : Nat) (d : CryDesc) : Chip :=
  let h := c.geti F.CRY_CHn_HEAD_IDX n
  if !c.svcUp || 32 ≤ n || c.geti F.CRY_CHn_CFG_EN n = 0 || h = c.geti F.CRY_CHn_TAIL_IDX n || !bit d.flags 0 then c
  else
    let c := c.puti F.CRY_CHn_HEAD_IDX n ((h + 1) % 2 ^ c.geti F.CRY_CHn_CFG_LOG2 n)
    let c := (c.countReset 2 (fun i => c.geti F.DBG_CNTi_CFG_CH i == n)).trace 12 1 0 (pack [(1, d.op), (1, d.flags), (1, d.key), (1, d.cls)])
    let good := cryGood (c.chSpn n) (c.geti F.CRY_CHn_CFG_CAP n) d
    let st := firstStatus [(c.cryDown d.op, .poweredDown), (!cryAllowed (c.chSpn n) d, .denied), (!good && c.cryMisuse n d, .denied), (!good, .badArg), (good && c.cryPoison n d, .integrity)]
    let f : Flight := { idx := h, desc := d, arrive := c.cry.arrive }
    if st = .ok then
      let c := ((c.chMod n (fun u => { u with fl := u.fl ++ [f] })).cr (fun u => { u with arrive := u.arrive + 1 })).puti F.CRY_CHn_STATUS_INFLIGHT n ((c.ch n).fl.length + 1)
      ((if c.cryReady d.op then c else c.groupNeed (cryGroup d.op))).cryArb
    else (if cryAllowed (c.chSpn n) d && !good && c.cryMisuse n d && st = .denied then c.sealLog n else c).chDone n f st 0

/-- Descriptors at `HEAD` whose `OP` is outside Table 10.3 complete with DENIED as the channel comes to them (R268). -/
def Chip.crySkip (c : Chip) (n fuel : Nat) : Chip :=
  match fuel with
  | 0 => c
  | fuel + 1 =>
    if cryOps.contains (c.chRead n).op || c.geti F.CRY_CHn_HEAD_IDX n = c.geti F.CRY_CHn_TAIL_IDX n then c
    else Chip.crySkip (c.cryTake n (c.chRead n)) n fuel

/-- The operation at a channel's `HEAD` is taken when it is the one commanded. -/
def Chip.cryRow (c : Chip) (n op : Nat) : Chip := if (c.chRead n).op = op then (c.cryTake n (c.chRead n)).crySkip n 256 else c

/-! Completion. -/

/-- Lane cycles of an operation (Table 10.1) and the counter of its lanes; `expand`: the private key was expanded again (R263). -/
def cryCycles (d : CryDesc) (iter : Nat) (expand : Bool) : Nat × Nat :=
  let big := d.pset == 87
  match d.op with
  | 0x10 => (8, if big then 70000 else 45000)
  | 0x11 => (8, (if big then 26000 + 28000 * iter else 18000 + 20000 * iter) + (if expand then (if big then 70000 else 45000) else 0))
  | 0x12 => (8, if big then 60000 else 40000)
  | 0x18 => (8, 32000) | 0x19 => (8, 36000) | 0x1A => (8, 44000) | 0x1C => (8, 2000) | 0x1D => (8, 2000) | 0x1E => (8, 2000)
  | 0x20 => (9, 400000) | 0x21 => (9, 400000) | 0x22 => (9, 560000) | 0x23 => (9, 400000)
  | 0x30 => (10, 128)
  | 0x40 => (12, 16 + (d.inLen + 15) / 16) | 0x41 => (12, 16 + (d.inLen - 16 + 15) / 16) | 0x42 => (12, 16 + (d.inLen + 15) / 16)
  | 0x43 => (12, 384) | 0x44 => (12, 384)
  | _ => (14, 0)

/-- A unit on a lane ends (R268): an ML-DSA signature beyond 814 iterations leaves none, with event 0x2A05 (R263). -/
def Chip.cryEnd (c : Chip) (n idx iter : Nat) : Chip :=
  match (c.ch n).fl.find? (fun f => f.idx == idx && f.started && f.lane.isSome) with
  | none => c
  | some f =>
    let sign := f.desc.op == 0x11
    let it := if sign then max 1 iter else 0
    let q := cryCycles f.desc (min it 814) f.expand
    let c := c.count q.1 q.2
    let c := if sign && 814 < it then
        (c.chDone n { f with out := [], used := 0 } .limitReached 814).log 0x2A05 uCRY
          (aChan n 1 Status.limitReached.code (c.chOwner n) 0 idx 0 0 814)
      else c.chDone n f f.st it
    c.cryArb

/-- The key a handle of IMPORT names (R522), none when the handle is bad. -/
def Chip.keyHandle (c : Chip) (h : Nat) : Option (List Byte) :=
  let n := h % 32
  let k := c.chKey n (bitsOf h 9 8)
  if h = n + 256 * bitsOf h 9 8 && c.geti F.CRY_CHn_CFG_EN n = 1 && (k.typ = kAES || k.typ = k32) then some k.bytes else none

end Sys2Proof.Machine
end

