-- ==== Sys2Proof/Machine/DigestOps.lean ====
section
/-!
DEFINITION. Digest contexts at work (R272 to R279): opening, feeding, the final permutation, results.
-/

namespace Sys2Proof.Machine

/-- Is the code one of an algorithm of Table 10.16? -/
def dgtAlg (a : Nat) : Bool := (1 ≤ a && a ≤ 5) || a == 8 || a == 9

/-- Block bytes of an algorithm: the FIPS 202 rates, 128 for SHA-2. -/
def dgtRate (a : Nat) : Nat :=
  match a with | 1 => 136 | 2 => 104 | 3 => 72 | 4 => 168 | 5 => 136 | _ => 128

/-- Result bytes of an algorithm; `OUT_LEN` for SHAKE. -/
def dgtLen (a out : Nat) : Nat :=
  match a with | 1 => 32 | 2 => 48 | 3 => 64 | 8 => 48 | 9 => 64 | _ => out

/-- The digest of a message (R262, R274). -/
def dgtHash (a : Nat) (soft : Bool) (m : List Byte) (n : Nat) : List Byte :=
  padTo n (if soft then Config.rawDigest a m n else
    match a with
    | 1 => Config.sha3_256 m
    | 2 => Config.sha3_384 m
    | 3 => Config.sha3_512 m
    | 4 => Config.shake128 m n
    | 5 => Config.shake256 m n
    | 8 => Config.sha384 m
    | _ => Config.sha512 m)

/-- Lane cycles of `n` blocks, counted (Table 10.1). -/
def Chip.dgtCycles (c : Chip) (a n : Nat) : Chip := if a < 8 then c.count 10 (26 * n) else c.count 11 (82 * n)

/-- Configuration of an open context. -/
def Chip.cxAlg (c : Chip) (n : Nat) : Nat := c.geti F.DGT_CTXn_CTRL_ALG n
def Chip.cxFixed (c : Chip) (n : Nat) : Bool := c.geti F.DGT_CTXn_CTRL_MODE n == 0
def Chip.cxSoft (c : Chip) (n : Nat) : Bool := c.geti F.DGT_CTXn_CTRL_PAD n == 1
def Chip.cxOwner (c : Chip) (n : Nat) : Nat := c.geti F.DGT_CTXn_STATUS_OWNER n

/-- The declared length: latched at a FIXED OPEN and with a FINAL that waits, else what `LEN` holds (R275, Table 10.5). -/
def Chip.cxDecl (c : Chip) (n : Nat) : Nat :=
  if (c.cx n).final || (c.cxSt n != 0 && c.cxFixed n) then (c.cx n).decl else c.geti F.DGT_CTXn_LEN_BYTES n

/-- A context's state set. -/
def Chip.cxGo (c : Chip) (n st : Nat) : Chip := (c.puti F.DGT_CTXn_STATUS_STATE n st).noilTrans uCRY 10 5 n (c.cxSt n) st

/-- A context's state and last status set. -/
def Chip.cxPut (c : Chip) (n st : Nat) (last : Status) : Chip := (c.cxGo n st).puti F.DGT_CTXn_STATUS_LAST n last.code

/-- The message ended without a result (R275). -/
def Chip.cxError (c : Chip) (n : Nat) (st : Status) (got : Nat) : Chip :=
  ((c.cxPut n 4 st).cxMod n (fun u => { u with result := [] })).log 0x1A02 uDGT
    (aChan n 2 st.code (c.cxOwner n) (c.cxDecl n + 2 ^ 32 * (got % 2 ^ 32)) 0 0 0 0)

/-- The last block of a context is permuted: its result exists from now on. -/
def Chip.cxResult (c : Chip) (n : Nat) : Chip :=
  let a := c.cxAlg n
  let r := dgtHash a (c.cxSoft n) (c.cx n).fed (dgtLen a (c.geti F.DGT_CTXn_CTRL_OUT_LEN n))
  (c.cxMod n (fun u => { u with result := r })).dgtCycles a (if c.cxSoft n then 0 else 1)

/-- A FIXED context whose count has reached `LEN` pads and permutes once its group is on, and is ABSORBED (R61, R275). -/
def Chip.cxAbsorb (c : Chip) (n : Nat) : Chip :=
  if c.cxSt n = 1 && c.cxFixed n && c.cryReady 0x30 && (c.cx n).fed.length = c.cxDecl n then (c.cxResult n).cxGo n 2 else c

/-- What an OPEN of a FREE context meets in its fields (R272, R274, R279). -/
def Chip.cxOpenStatus (c : Chip) (req : Req) (n : Nat) (w : Word) : Status :=
  let a := wget 15 12 w
  let src := wget 7 2 w
  let soft := wget 10 10 w == 1
  let shake := a == 4 || a == 5
  let out := wget 23 16 w
  let held := src == 0 || (src ≤ 32 && c.geti F.DMA_CHn_CFG_OWNER (src - 1) == req.toNat)
  let badLen := wget 11 11 w == 0 && soft && c.cxDecl n % dgtRate a != 0
  firstStatus [(c.cryDown 0x30, .poweredDown),
    (!dgtAlg a || (shake && (out == 0 || decide (64 < out))) || !held || ((classOf req == .roving || c.cxGranted n) && decide (1 < wget 9 8 w)) || badLen, .badArg)]

/-- OPEN by a requester R14 lets through (Table 10.5). -/
def Chip.cxOpen (c : Chip) (req : Req) (n : Nat) (w : Word) : Chip :=
  let own := c.cxOpenStatus req n w
  let st := firstStatus [(true, own), (c.cxSt n != 0, .busy)]
  let a := wget 15 12 w
  if st = .badArg && !dgtAlg a then
    (c.puti F.DGT_CTXn_STATUS_LAST n st.code).log 0x1033 uDGT (aClamp (R.DGT_CTXn_CTRL n) a (c.cxAlg n) req.toNat 12)
  else if st != .ok then c.puti F.DGT_CTXn_STATUS_LAST n st.code
  else
    let c := if c.cryReady 0x30 then c else c.groupNeed 1
    let c := (c.wri F.DGT_CTXn_CTRL_ALG n (wset 1 0 0 (w &&& 0x00FFFFFF#32))).wri F.DGT_CTXn_STATUS_OWNER n 0
    let c := (c.cr (fun u => { u with ctx := tput u.ctx n { decl := c.geti F.DGT_CTXn_LEN_BYTES n } })).cxActive n true
    ((c.puti F.DGT_CTXn_STATUS_OWNER n req.toNat).cxPut n 1 .ok).cxAbsorb n

/-- FINAL on a context whose group is on (Table 10.5); bytes that are not whole blocks are BAD_ARG before their count is compared (R9, R274). -/
def Chip.cxEnd (c : Chip) (n : Nat) : Chip :=
  let c := c.cxAbsorb n
  let got := (c.cx n).fed.length
  let decl := c.cxDecl n
  match c.cxSt n with
  | 1 =>
    if !c.cxFixed n && c.cxSoft n && decl % dgtRate (c.cxAlg n) != 0 then c.puti F.DGT_CTXn_STATUS_LAST n Status.badArg.code
    else if got < decl then c.cxError n .lengthShort got
    else if decl < got then c.cxError n .lengthLong got
    else (c.cxResult n).cxPut n 3 .ok
  | 2 => c.cxPut n 3 .ok
  | _ => c

/-- FINAL by the owner: it waits for its group's wake, and is refused for a disabled or FAILED group (R61, R293). -/
def Chip.cxFinal (c : Chip) (n : Nat) : Chip :=
  if c.cxSt n != 1 && c.cxSt n != 2 then c
  else if c.cryDown 0x30 then c.puti F.DGT_CTXn_STATUS_LAST n Status.poweredDown.code
  else if c.cryReady 0x30 then c.cxEnd n
  else (let d := c.cxDecl n; (c.groupNeed 1).cxMod n (fun u => { u with final := true, decl := d }))

/-- Group 1 is on: what waited for it in a context runs. -/
def Chip.cxWake (c : Chip) (n : Nat) : Chip :=
  if (c.cx n).final then (c.cxEnd n).cxMod n (fun u => { u with final := false }) else c.cxAbsorb n

/-- A second user of a feed port (R277). -/
def Chip.cxIntrude (c : Chip) (n req : Nat) : Chip :=
  (c.puti F.DGT_CTXn_STATUS_INTRUDED n 1).log 0x1A01 uDGT (aChan n 2 0 req 0 0 0 4 0)

/-- Bytes arrive at a feed port from feeder `src` (0 a store, *k* DMA channel *k* − 1) with a requester number; false: the access gets the
error response (R273, R275, R277). -/
def Chip.cxFeed (c : Chip) (n src req : Nat) (bs : List Byte) : Chip × Bool :=
  let st := c.cxSt n
  let feeder := c.geti F.DGT_CTXn_CTRL_FEED_SRC n == src && (src != 0 || c.cxOwner n == req)
  if !((st = 1 || st = 2) && feeder) then (c.cxIntrude n req, false)
  else if bs.isEmpty then (c, true)
  else
    let old := (c.cx n).fed.length
    let now := old + bs.length
    if c.cxFixed n && c.cxDecl n < now then (c.cxError n .lengthLong now, true)
    else
      let r := dgtRate (c.cxAlg n)
      ((c.cxMod n (fun u => { u with fed := u.fed ++ bs })).dgtCycles (c.cxAlg n) (now / r - old / r), true)

/-- The next result word, or 0 with EARLY_READ (R276). -/
def Chip.cxRead (c : Chip) (n : Nat) : Chip × Nat :=
  if c.cxSt n = 3 then
    let p := c.geti F.DGT_CTXn_STATUS_PTR n
    let words := ((c.cx n).result.length + 3) / 4
    ((c.puti F.DGT_CTXn_STATUS_PTR n (if p + 1 < words then p + 1 else 0)).puti F.DGT_CTXn_STATUS_LAST n 0, numAt (c.cx n).result (4 * p) 4)
  else
    let c := (c.puti F.DGT_CTXn_STATUS_EARLY n 1).puti F.DGT_CTXn_STATUS_LAST n Status.earlyRead.code
    if (c.cx n).early then (c, 0)
    else
      let c := c.log 0x1A03 uDGT (aChan n 2 Status.earlyRead.code (c.cxOwner n) 0 0 0 0 0)
      (c.cxMod n (fun u => { u with early := true }), 0)

end Sys2Proof.Machine
end

