-- ==== Sys2Proof/Machine/LaunchOps.lean ====
section
/-!
DEFINITION. Launch entries (R210 to R226): their fields, what is bound to them, the cancel lead, their frames and mirror items, and the
steps that leave an entry's Bobbins switched, discarded or retired.
-/

namespace Sys2Proof.Machine

/-! Entries. -/

/-- The state of entry `n` (Table 8.3): 0 FREE, 1 SCHEDULED, 2 CLOSED, 3 GRACE, 4 DONE, 5 CANCELLING, 6 CANCELLED. -/
def Chip.lst (c : Chip) (n : Nat) : Nat := c.geti F.WHL_Ln_STATE_STATE n

/-- The number of entry `n`, 0 when FREE. -/
def Chip.lnum (c : Chip) (n : Nat) : Nat := (c.rd (R.WHL_Ln_NUM n)).toNat

/-- The launch slot *L* of entry `n`. -/
def Chip.lslot (c : Chip) (n : Nat) : Nat := c.get64 (R.WHL_Ln_SLOT_LO n) % 2 ^ 56

/-- The grace window *G* of entry `n`. -/
def Chip.lgrace (c : Chip) (n : Nat) : Nat :=
  let g := c.geti F.WHL_Ln_GRACE_SLOTS n
  if g = 0 then c.get F.WHL_GRACE_SLOTS else g

/-- The hanks of entry `n`. -/
def Chip.lhanks (c : Chip) (n : Nat) : Nat := c.geti F.WHL_Ln_CFG_HANKS n

/-- An entry that is not FREE, DONE or CANCELLED. -/
def lopen (st : Nat) : Bool := st = 1 || st = 2 || st = 3 || st = 5

/-- The open entry of a launch number. -/
def Chip.lfind (c : Chip) (num : Nat) : Option Nat :=
  if num = 0 then none else (List.range 16).find? (fun n => c.lnum n == num && lopen (c.lst n))

/-- The Bobbins bound to a launch: pending under its number (R212). -/
def Chip.bound (c : Chip) (num : Nat) : List (Nat × Bob) :=
  c.cust.bobs.filter (fun e => e.2.launch == num && decide (2 ≤ e.2.st) && decide (e.2.st ≤ 5) && num != 0)

/-- The greatest number of bound Bobbins on one Warp channel of either base die (R213), with `extra` more on one channel. -/
def Chip.busiest (c : Chip) (num : Nat) (extra : List Nat) : Nat :=
  let chs := ((c.bound num).filterMap (fun e => if bit e.2.warp 7 then some (e.2.warp % 128) else none)) ++ extra
  chs.foldl (fun m ch => max m (chs.count ch)) 0

/-- The cancel lead *C* for `w` bound Bobbins on the busiest channel (R213). -/
def cancelLead (w : Nat) : Nat := 16 + (30 * w + 1023) / 1024

/-- An entry's counts and cancel lead, kept current (R213, Table 8.12). -/
def Chip.recount (c : Chip) (n : Nat) : Chip :=
  let st := c.lst n
  if st = 0 then c
  else
    let bs := c.bound (c.lnum n)
    let c := c.puti F.WHL_Ln_BOUND_COUNT n bs.length
    let c := if st = 1 || st = 2 then c.puti F.WHL_Ln_ARMED_COUNT n (bs.filter (fun e => e.2.st == 5)).length else c
    if st = 1 then
      c.puti F.WHL_Ln_STATE_CANCEL_LEAD n (max (c.geti F.WHL_Ln_STATE_CANCEL_LEAD n) (cancelLead (c.busiest (c.lnum n) []))) else c

/-- A launch's LAUNCH record. -/
def Chip.lArgs (c : Chip) (n count : Nat) : List Byte := aLaunch (c.lnum n) n (c.lst n) (c.lhanks n) count (c.lslot n) (c.lgrace n)

/-- An entry moves to a state: traced, and noted in the Noil ring (R501, Table 18.3). -/
def Chip.lset (c : Chip) (n st : Nat) : Chip :=
  let old := c.lst n
  (((c.puti F.WHL_Ln_STATE_STATE n st).noilTrans uWHL 8 3 n old st).trace 8 1 0 (pack [(1, n), (4, c.lnum n), (1, old), (1, st)]))

/-- The mirror item of an entry (R214). -/
def Chip.lItem (c : Chip) (n : Nat) : MItem :=
  .launch
    { entry := n, num := c.lnum n, slot := c.lslot n, cfg := (c.rd (R.WHL_Ln_CFG n)).toNat, arg := (c.rd (R.WHL_Ln_ARG n)).toNat,
      grace := c.geti F.WHL_Ln_GRACE_SLOTS n, st := c.lst n, final := c.geti F.WHL_Ln_STATE_FINAL n == 1,
      armed := ((c.bound (c.lnum n)).filter (fun e => e.2.st == 5)).map (·.1) }

/-- The LAUNCH payload of an entry (Table 8.4). -/
def Chip.launchBody (c : Chip) (n : Nat) (final : Bool) : List Byte :=
  let ring := c.geti F.WHL_Ln_CFG_RING n
  let strand := c.geti F.WHL_Ln_CFG_STRAND n
  padTo 32 (pack [(4, c.lnum n), (1, c.geti F.WHL_Ln_CFG_BOBBINS n + 2 * strand + 4 * ring), (1, b2n final), (2, c.lhanks n),
    (8, 256 * c.lslot n), (4, c.lgrace n), (2, if ring = 1 then (c.ring.rkey + 1) % 65536 else 0), (2, 0),
    (4, if strand = 1 then (c.rd (R.WHL_Ln_ARG n)).toNat % 2 ^ 24 else 0)])

/-- The LAUNCH_CANCEL payload (Table 8.5). -/
def cancelBody (num reason slot : Nat) : List Byte := pack [(4, num), (1, reason), (3, 0), (8, 256 * slot)]

/-- An entry FREE again, its counts cleared (Table 8.3). -/
def Chip.lfree (c : Chip) (n : Nat) : Chip :=
  (({ c with whl := { c.whl with cancelWait := c.whl.cancelWait.filter (fun w => w.1 != c.lnum n || c.leads) } }.lset n 0).resetCopy n 16 (R.WHL_Ln_SLOT_LO n) (R.WHL_Ln_SLOT_LO n + 0x40))

/-- Does this instance act outside itself for launches: is it the lead, or the one instance of HX4 (R214)? -/
def Chip.actsLead (c : Chip) : Bool := c.leads

/-! Binding (R212). -/

/-- Would binding this Bobbin to a launch be admitted (R212)? -/
def Chip.bindOk (c : Chip) (num : Nat) (b : Bob) : Bool :=
  match c.lfind num with
  | none => false
  | some n =>
    let lead := cancelLead (c.busiest num (if bit b.warp 7 then [b.warp % 128] else []))
    c.lst n == 1 && c.geti F.WHL_Ln_CFG_BOBBINS n == 1 && bit (c.lhanks n) b.hank &&
      (b.cls != clsDIE || !c.cust.bobs.any (fun e => e.2.cls == clsDIE && e.2.hank == b.hank && decide (2 ≤ e.2.st) &&
        decide (e.2.st ≤ 5) && e.2.launch != 0 && e.2.launch != num)) &&
      decide (c.slot + max lead (c.geti F.WHL_Ln_STATE_CANCEL_LEAD n) ≤ c.lslot n)

/-! The launch slot and the end of grace (R217, R218). -/

/-- An ARMED Bobbin switches (Table 7.4): its blob names the current key where it held the pending one, else none; an imported current
key that no blob names stays pinned. -/
def Chip.switchBob (c : Chip) (id : Nat) : Chip :=
  match c.bob? id with
  | none => c
  | some b =>
    let e := (b.epoch + 1) % 2 ^ 32
    let c := c.bobMod id (fun b =>
      { b with st := 6, sel := 1 - b.sel, epoch := e, hit := false, blob := if b.blob = 2 then 1 else 0, deadline := c.deadlineOf b,
               near := false, past := false, bound := 0 })
    if b.imported then (if b.blob = 2 then (c.cachePin id b.epoch true).cachePin id e false else c.cachePin id b.epoch true) else c

/-- The end of a Bobbin's grace window (Table 7.4, R196): the other slot emptied, RETIRE to its target. -/
def Chip.retireBob (c : Chip) (num id : Nat) : Chip :=
  match c.bob? id with
  | none => c
  | some b =>
    let old := b.epoch - 1
    let c := (c.cacheDrop (fun k => k.bob == id && k.epoch == old)).bobMod id (fun b => { b with st := 1, launch := 0 })
    match c.warpCh b with
    | some ch =>
      if c.actsLead && !(c.chSt ch = 3 && ch < 8) then
        Chip.warpTo { c with whl := { c.whl with retireWait := c.whl.retireWait ++ [(num, id)] } } ch
          { op := 4, sub := b.sub, bobbin := id, epoch := old }
      else c
    | none => c

/-- Consecutive numbers gathered into runs. -/
def runs (ids : List Nat) : List (Nat × Nat) :=
  ids.foldl (fun (acc : List (Nat × Nat)) i =>
    match acc.getLast? with
    | some r => if r.2 + 1 = i then acc.dropLast ++ [(r.1, i)] else acc ++ [(i, i)]
    | none => [(i, i)]) []

/-- The records of a kind for Bobbins that took effect: one per run of consecutive Bobbins of one hank, epoch and launch (Table 7.9). -/
def Chip.bobRecs (c : Chip) (op : Nat) (ids : List Nat) (value : Bob → Nat) : List JRec :=
  let bs := ids.filterMap (fun i => (c.bob? i).map (fun b => (i, b)))
  let keys := (bs.map (fun e => (e.2.hank, value e.2, e.2.launch))).dedup
  keys.flatMap (fun k =>
    (runs ((bs.filter (fun e => (e.2.hank, value e.2, e.2.launch) == k)).map (·.1))).map (fun r =>
      { jseq := 0, op := op, hank := k.1, first := r.1, last := r.2, value := k.2.1, arg := k.2.2 }))

/-- CANCEL records for Bobbins that had reached READY (R220). -/
def Chip.cancelRecs (c : Chip) (ids : List Nat) : Chip :=
  let ready := ids.filter (fun i => match c.bob? i with | some b => decide (4 ≤ b.st) && decide (b.st ≤ 5) | none => false)
  if c.actsLead && c.jOpen && !c.jFailed then c.each (c.bobRecs 0x05 ready (fun b => b.epoch + 1)) (fun c r => (c.jWrite r).1) else c

/-- A launch is cancelled: its entry goes to CANCELLING and that is mirrored (R214, R220 step 1); the rest follows once the mirror
stands. -/
def Chip.launchCancel (c : Chip) (n reason : Nat) : Chip :=
  let c := c.lset n 5
  c.mirrorThen (c.lItem n) (.launchCancel n reason)

/-- Steps 2 and 3 of a cancel (R220): every bound Bobbin discarded, LAUNCH_CANCEL now and twice more (R215). -/
def Chip.cancelGo (c : Chip) (n reason : Nat) : Chip :=
  if c.lst n != 5 then c
  else
    let num := c.lnum n
    let ids := (c.bound num).map (·.1)
    let c := c.cancelRecs ids
    let c := c.each ids (fun c i => (c.discard i true).cmdPart i .staleEpoch)
    let c := if c.geti F.WHL_Ln_CFG_RING n = 1 then { c with whl := { c.whl with newRing := none, ringAcks := [] } } else c
    let c := c.ringBroadcast 0x21 (cancelBody num reason (c.lslot n))
    { c with whl := { c.whl with cancels := c.whl.cancels ++ [(num, c.slot, reason, c.lslot n)] } }

/-- Does the cancel of an entry still wait for its mirror? -/
def Chip.cancelHeld (c : Chip) (n : Nat) : Bool :=
  c.ply.holds.any (fun h => match h.eff with | .launchCancel m _ => m == n | _ => false)

/-- At the lead, entries in CANCELLING whose CANCEL frames are all answered become CANCELLED (Table 8.3). -/
def Chip.cancelsEnd (c : Chip) : Chip :=
  c.each (List.range 16) (fun c n =>
    if c.leads && c.lst n = 5 && !c.whl.cancelWait.any (fun w => w.1 == c.lnum n) && !c.cancelHeld n then
      let c := (c.lset n 6).puti F.WHL_Ln_STATE_RESULT n Status.staleEpoch.code
      let c := (c.mirrorItem (c.lItem n)).1
      c.log 0x0804 uWHL (c.lArgs n (c.geti F.WHL_Ln_UNCONFIRMED_COUNT n))
    else c)

/-- Event 0x0704 once no RETIRE frame of a launch is unanswered. -/
def Chip.retireDone (c : Chip) (num id : Nat) : Chip :=
  let c := { c with whl := { c.whl with retireWait := c.whl.retireWait.filter (fun w => w != (num, id)) } }
  if c.whl.retireWait.any (fun w => w.1 == num) then c
  else
    match (List.range 16).find? (fun n => c.lnum n == num) with
    | some n => c.log 0x0704 uBOB (c.lArgs n (c.geti F.WHL_Ln_ARMED_COUNT n))
    | none => c

end Sys2Proof.Machine
end

