-- ==== Sys2Proof/Machine/BootOps.lean ====
section
/-!
DEFINITION. Images and the configuration (R103 to R120), and the tamper log as Spindle opens it (R459).
-/

namespace Sys2Proof.Machine

/-- The instance enters a boot phase (R101, R131): the time of the change in µs since `PORST_N`. -/
def Chip.setPhase (c : Chip) (p : Nat) : Chip :=
  let c := (c.put F.GEN_BOOT_PHASE p).bootTime
  if p = 0x20 then { c with cores := { c.cores with spnKick := c.slot } } else c

/-- A step of the phase fails (Table 5.14). -/
def Chip.failStep (c : Chip) (st : Status) : Chip := (c.put F.GEN_BOOT_FAIL_STEP c.phase).put F.GEN_BOOT_LAST_STATUS st.code

/-! Images (Tables 5.2 to 5.4, R105). -/

/-- The key slot and the anti-rollback counter of an image type. -/
def imgSlot (typ : Nat) : Nat := match typ with | 1 => 0 | 2 => 1 | 3 => 1 | _ => 2
def imgArb (typ : Nat) : Nat := typ - 1

/-- The words of key slot `k`. -/
def Otp.keySlot (o : Otp) (k : Nat) : List Byte := o.bytes (1536 + 12 * k) 12

/-- Step 4 of R105: both signatures of a header verify over its bytes 0 to 2,128 under its own public keys (Table 5.3). -/
def imgSigned (hdr : List Byte) : Bool :=
  let m := hdr.take 2129
  let pk := slice hdr 80 1952
  let p := slice hdr 2032 97
  Config.mldsaVerifyMu 65 pk (Config.mldsaMu 65 pk [] m) (slice hdr 2176 3309) &&
    Config.ecPointOk p && Config.ecdsaVerify p (Config.sha384 m) (slice hdr 5504 96)

/-- The checks of R105 on an image header and body: the first step that fails with its status; 0 and OK when all pass. -/
def Chip.imgCheck (c : Chip) (typ : Nat) (hdr body : List Byte) (areaSize : Nat) : Nat × Status :=
  let keys := c.otp.keySlot (imgSlot typ)
  let svn := numAt hdr 8 4
  let arb := c.otp.arb (imgArb typ)
  if hdr.take 4 != ascii "GGMI" || numAt hdr 4 2 != 1 || numAt hdr 6 1 != typ || numAt hdr 7 1 != imgSlot typ ||
      decide (areaSize < numAt hdr 16 4 + 8192) then (1, .badArg)
  else if keys.all (· == 0#8) || keys != Config.sha3_384 (slice hdr 80 2049) then (2, .denied)
  else if slice hdr 32 48 != Config.sha3_384 body then (3, .integrity)
  else if !imgSigned hdr then (4, .integrity)
  else if 256 < svn then (5, .limitReached)
  else if c.lcState != 0 && svn < arb then (5, .staleEpoch)
  else (0, .ok)

/-- The image of a type in its NOR area: header, body, verdict. -/
def Chip.imgRead (c : Chip) (typ : Nat) : List Byte × List Byte × Nat × Status :=
  let a := imgArea typ
  let hdr := c.norRd a.1 8192
  let body := c.norRd (a.1 + 8192) (min (numAt hdr 16 4) (a.2 - 8192))
  (hdr, body, c.imgCheck typ hdr body a.2)

/-- The IMAGE arguments of a failed check. -/
def Chip.aImg (c : Chip) (typ step : Nat) (st : Status) (svn : Nat) (digest : List Byte) : List Byte :=
  aImage typ step st.code c.phase svn (digest.take 12)

/-! The Amvex image (R112 to R118). -/

/-- How a tag's value is checked: a numeric range, an enumeration's highest code, or the channel map. -/
inductive TagKind where
  | num (lo hi : Nat)
  | enum (hi : Nat)
  | map (hi : Nat)
  deriving DecidableEq, Repr

/-- The tags of Table 5.5: tag, length, kind, ROM default. -/
def tagTable : List (Nat × Nat × TagKind × Nat) :=
  [(0x0101, 4, .num 2 15, 8), (0x0102, 4, .num 8 64, 16), (0x0103, 4, .num 4 1024, 16), (0x0104, 4, .num 16 1024, 64),
    (0x0201, 4, .num 16 65535, 64), (0x0202, 4, .num 0 65535, 1024), (0x0203, 4, .num 0 1, 1), (0x0204, 4, .num 0 15, 15),
    (0x0301, 4, .num 50 5000, 500), (0x0302, 4, .num 256 65536, 1024), (0x0303, 4, .num 0 1, 1), (0x0401, 4, .num 256 1048576, 4096),
    (0x0501, 4, .num 20 36, 34), (0x0502, 4, .num 50 90, 75), (0x0503, 4, .enum 1, 0), (0x0504, 4, .enum 1, 0), (0x0601, 8, .map 4, 0),
    (0x0701, 4, .num 4 24, 12), (0x0702, 4, .num 0 1, 0)]

/-- A field of an Amvex body: position in its layer, tag, length, value. -/
structure AmField where
  pos : Nat
  tag : Nat
  len : Nat
  value : List Byte
  deriving DecidableEq, Repr

/-- A layer's fields in order and the field at which the parse was cut, if it was (R112). -/
def amParse (fuel pos : Nat) (bs : List Byte) : List AmField × Option AmField :=
  match fuel with
  | 0 => ([], none)
  | fuel + 1 =>
    let tag := numAt bs 0 2
    let len := numAt bs 2 2
    let f : AmField := { pos := pos, tag := tag, len := len, value := (bs.drop 4).take len }
    if bs.isEmpty || tag = 0 then ([], none)
    else if len % 4 != 0 || 1024 < len || bs.length < 4 + len then ([], some f)
    else
      let r := amParse fuel (pos + 1) (bs.drop (4 + len))
      (f :: r.1, r.2)

/-- A clamp report entry before sorting (R116): tag, reason, source, position, requested, applied. -/
structure ClampEnt where
  tag : Nat
  reason : Nat
  src : Nat
  pos : Nat
  want : List Byte
  got : Nat
  deriving DecidableEq, Repr

/-- The first well-formed field of a tag in a layer. -/
def amFind (fs : List AmField) (tag len : Nat) : Option AmField := fs.find? (fun f => f.tag == tag && f.len == len)

/-- A tag's applied value (R114) from the layers still to be consulted, with what it reports.
A WARP_MAP field with several reserved bytes gives one BAD_ENUM entry: this model's choice (assumption 152). -/
def amApply (layers : List (Nat × List AmField)) (t : Nat × Nat × TagKind × Nat) : Nat × List ClampEnt :=
  match layers with
  | [] => (t.2.2.2, [])
  | l :: ls =>
    match amFind l.2 t.1 t.2.1 with
    | none => amApply ls t
    | some f =>
      let v := ofLe f.value
      let ent := fun reason got => ({ tag := t.1, reason := reason, src := l.1, pos := f.pos, want := f.value, got := got } : ClampEnt)
      match t.2.2.1 with
      | .num lo hi => if v < lo then (lo, [ent 1 lo]) else if hi < v then (hi, [ent 2 hi]) else (v, [])
      | .enum hi => if v ≤ hi then (v, []) else (let r := amApply ls t; (r.1, ent 3 r.1 :: r.2))
      | .map hi =>
        let bad := (List.range 8).filter (fun i => decide (hi < numAt f.value i 1))
        if bad.isEmpty then (v, [])
        else
          let r := amApply ls t
          let out := ofLe ((List.range 8).map (fun i => if bad.contains i then BitVec.ofNat 8 (r.1 / 256 ^ i) else BitVec.ofNat 8 (v / 256 ^ i)))
          (out, ent 3 out :: (r.2.filter (fun e => bad.any (fun i => decide (hi < numAt e.want i 1)))).map (fun e => { e with got := out }))

/-- What a layer's fields report on their own: unknown tags, wrong lengths, repeats, the cut. -/
def amLayer (src : Nat) (fs : List AmField) (cut : Option AmField) (applied : Tab Nat) : List ClampEnt :=
  let one := fun (f : AmField) (reason : Nat) =>
    ({ tag := f.tag, reason := reason, src := src, pos := f.pos, want := f.value, got := tget applied f.tag 0 } : ClampEnt)
  fs.filterMap (fun f =>
    match tagTable.find? (fun t => t.1 == f.tag) with
    | none => some (one f 5)
    | some t =>
      if f.len != t.2.1 then some (one f 4)
      else if fs.any (fun g => g.tag == f.tag && g.len == f.len && decide (g.pos < f.pos)) then some (one f 6)
      else none) ++
    (match cut with | some f => [one f 7] | none => [])

/-- The clamp report (R116). -/
def clampReport (es : List ClampEnt) : List Byte × Nat :=
  let key := fun (e : ClampEnt) => (e.tag * 2 + e.src) * 2 ^ 32 + e.pos
  let es := es.mergeSort (fun a b => decide (key a ≤ key b))
  let kept := if es.length ≤ 255 then es
    else es.take 254 ++ [{ tag := 0xFFFF, reason := 0x0A, src := 0, pos := 0, want := le 8 (es.length - 254), got := 0 }]
  (ascii "GGMC" ++ pack [(2, 1), (2, kept.length), (8, 0)] ++
    (kept.map (fun e => pack [(2, e.tag), (1, e.reason), (1, e.src)] ++ padTo 8 e.want ++ le 8 e.got ++ le 4 0)).flatten, kept.length)

/-- The configuration digest (R117). -/
def cfgDigest (applied : Tab Nat) : List Byte :=
  Config.sha3_384 (tagTable.map (fun t => pack [(2, t.1), (2, t.2.1), (t.2.1, tget applied t.1 t.2.2.2)])).flatten

/-- The applied values written to their registers, then `CFG_LOCK` (R118). -/
def Chip.applyCfg (c : Chip) : Chip :=
  let v := fun tag => c.conf tag (((tagTable.find? (fun t => t.1 == tag)).map (·.2.2.2)).getD 0)
  let c := ((((c.put F.SKN_RETRY_CFG_MAX_TRY (v 0x0101)).put F.SKN_RETRY_CFG_ACK_TIMEOUT (v 0x0102)).put F.SKN_STORM_CFG_SRC_LIMIT (v 0x0103)).put
    F.SKN_STORM_CFG_THRESHOLD (v 0x0104)).put F.PWR_IDLE_CFG_IDLE_SLOTS (v 0x0201)
  let c := (((c.put F.PWR_IDLE_CFG_PLL_HOLD (v 0x0202)).put F.PWR_CTRL_AUTO_GATE (v 0x0203)).put F.PWR_WAKE_EN_SRC (v 0x0204)).put
    F.WHL_GRACE_SLOTS (v 0x0401)
  let map := v 0x0601
  let c := c.put F.BOB_WARP_STATUS_CH (((List.range 8).filter (fun i => map / 256 ^ i % 256 != 0)).foldl (fun w i => w + 4 ^ i) 0)
  (c.put F.DBG_CNT_CFG_K (v 0x0701)).put F.SKN_CTRL_CFG_LOCK 1

/-- CONFIG (R112 to R118) over an Amvex body, none when the image was refused with a status. -/
def Chip.config (c : Chip) (body : Option (List Byte)) (bad : Status) : Chip :=
  let l0 := match body with | some b => amParse 30721 0 b | none => ([], none)
  let r5 := if c.boot.region5Lost then [] else c.otp.bytes 2560 504
  let l1 := amParse 30721 0 r5
  let layers := [(0, l0.1), (1, l1.1)]
  let outs := tagTable.map (fun t => (t.1, amApply layers t))
  let applied : Tab Nat := outs.map (fun o => (o.1, o.2.1))
  let es := (if body.isNone then [({ tag := 0, reason := 9, src := 0, pos := 0, want := [BitVec.ofNat 8 bad.code], got := 0 } : ClampEnt)] else []) ++
    (if c.boot.region5Lost then [({ tag := 0, reason := 8, src := 1, pos := 0, want := [], got := 0 } : ClampEnt)] else []) ++
    (outs.map (·.2.2)).flatten ++ amLayer 0 l0.1 l0.2 applied ++ amLayer 1 l1.1 l1.2 applied
  let rep := clampReport es
  let dig := cfgDigest applied
  let c := ({ c with cfg := applied, boot := { c.boot with cfg := dig, clamp := rep.1 } }).applyCfg
  let c := (c.put F.GEN_CLAMP_ENTRIES rep.2).log 0x0504 uSPN (le 4 rep.2 ++ padTo 8 dig)
  if rep.2 = 0 then c else c.log 0x1501 uSPN (aCount rep.2 0 0 0)

/-! The tamper log at the start (R459). -/

/-- Position `i` of the tamper log, and whether its record's `CRC` holds. -/
def Chip.tamperAt (c : Chip) (i : Nat) : List Byte := c.norRd (tamperAddr i) 32
def tamperGood (b : List Byte) : Bool := crc16 (b.take 18 ++ slice b 20 12) == numAt b 18 2

/-- The totals of a record, and the class it counts for (0 none). -/
def tamperTotals (b : List Byte) : Nat × Nat × Nat := (numAt b 20 4, numAt b 24 4, numAt b 28 4)
def tamperClass (b : List Byte) : Nat := if 0x4001 ≤ numAt b 10 2 && numAt b 10 2 ≤ 0x4003 then numAt b 10 2 - 0x4000 else 0

/-- A record with totals, its `CRC` renewed. -/
def withTotals (b : List Byte) (t : Nat × Nat × Nat) : List Byte :=
  let tot := pack [(4, t.1), (4, t.2.1), (4, t.2.2)]
  b.take 18 ++ le 2 (crc16 (b.take 18 ++ tot)) ++ tot

/-- One more of a class, saturating. -/
def bumpTotals (t : Nat × Nat × Nat) (cls : Nat) : Nat × Nat × Nat :=
  let s := satAdd 0xFFFFFFFF
  match cls with
  | 1 => (s t.1 1, t.2.1, t.2.2) | 2 => (t.1, s t.2.1 1, t.2.2) | 3 => (t.1, t.2.1, s t.2.2 1) | _ => t

/-- Write a record with totals at `NEXT`. -/
def Chip.tamperPut (c : Chip) (b : List Byte) (t : Nat × Nat × Nat) : Chip :=
  let n := c.get F.SNG_LOG_NEXT
  (c.norWr (tamperAddr n) (withTotals b t)).put F.SNG_LOG_NEXT ((n + 1) % 2048)

/-- Spindle opens the tamper log: the totals, `SNG_BASE`, the records it adds, `BASE_LOCK` (R459). -/
def Chip.tamperOpen (c : Chip) : Chip :=
  let blank := fun i => norBlank c.mem.nor (tamperAddr i) 32
  let end_ := ((List.range 2048).find? (fun i => blank i && !blank ((i + 2047) % 2048))).getD 0
  let order := (List.range 2048).map (fun k => (end_ + k) % 2048)
  let good := (order.filter (fun i => !blank i)).map c.tamperAt |>.filter tamperGood
  let step := fun (t : Nat × Nat × Nat) (b : List Byte) => if (tamperTotals b).1 != 0xFFFFFFFF then tamperTotals b else bumpTotals t (tamperClass b)
  let tot := good.foldl step (0, 0, 0)
  let c := c.put F.SNG_LOG_NEXT end_
  let quench := c.get F.LCS_STATE_QUENCHED = 1 && (match good.getLast? with | some b => tamperClass b != 1 | none => true)
  let mk := fun (c : Chip) code cause => le 8 c.time ++ le 2 (c.node * 256 + uSNG) ++ le 2 code ++
    pack [(1, cause), (1, 0), (2, 0), (1, c.get F.PWR_STATUS_SEQ_STATE), (1, c.phase)]
  let p : Chip × (Nat × Nat × Nat) := if quench then (c.tamperPut (mk c 0x4001 0xFF) (bumpTotals tot 1), bumpTotals tot 1) else (c, tot)
  let warm := if c.get F.GEN_BOOT_WARM = 1 then c.logs.aon.filter (fun r => r.code / 0x1000 == 4) else []
  let q := warm.foldl (fun (p : Chip × (Nat × Nat × Nat)) r =>
    let t := bumpTotals p.2 (r.code - 0x4000)
    (p.1.tamperPut (r.bytes) t, t)) p
  let c := (((q.1.puti F.SNG_BASE_x_TOTAL 0 q.2.1).puti F.SNG_BASE_x_TOTAL 1 q.2.2.1).puti F.SNG_BASE_x_TOTAL 2 q.2.2.2).put F.SNG_CTRL_BASE_LOCK 1
  let c := (c.tamperPut (mk c 0x0001 0) q.2).tamperRoom
  c.log 0x0001 uSNG (c.snagArgs 0x0001 0 0 0)

end Sys2Proof.Machine
end

