-- ==== Sys2Proof/Machine/CardOps.lean ====
section
/-!
DEFINITION. Carding as operations (R121 to R129): MEASURE, KEY_PART, release, withdrawal and rejection of a die.
-/

namespace Sys2Proof.Machine

/-- The Carding state of a die (Table 5.10): 0 ABSENT, 1 WAIT_READY, 2 CHECKING, 3 KEYING, 4 RELEASED, 5 REJECTED. -/
def Chip.cardSt (c : Chip) (n : Nat) : Nat := c.geti F.GEN_CARD_STATEn_STATE n

/-- The Carding data of a die. -/
def Chip.cardDie (c : Chip) (n : Nat) : CardDie := tget c.card.dies n {}
def Chip.cardMod (c : Chip) (n : Nat) (f : CardDie → CardDie) : Chip := { c with card := { c.card with dies := tmod c.card.dies n {} f } }

/-- A die's Carding state changes, noted in the Noil ring (R501). -/
def Chip.cardSet (c : Chip) (n st : Nat) : Chip :=
  (c.puti F.GEN_CARD_STATEn_STATE n st).noilTrans uGEN 5 10 n (c.cardSt n) st

/-- Does this instance card (R121)? -/
def Chip.cards (c : Chip) : Bool := c.svcUp && (c.card.active || c.leads) && c.get F.GEN_BOOT_NO_ID == 0

/-- A die's bit in `GEN_CARDEDn`. -/
def Chip.setCarded (c : Chip) (n : Nat) (b : Bool) : Chip :=
  if n < 32 then c.put F.GEN_CARDED0_NODES (withBit (c.get F.GEN_CARDED0_NODES) n b)
  else c.put F.GEN_CARDED1_NODES (withBit (c.get F.GEN_CARDED1_NODES) (n - 32) b)

/-- A MEAS_REQ (Table 5.8). -/
def Chip.measReq (c : Chip) (n op index rkey : Nat) (data : List Byte) : Chip :=
  c.ringSend 0x40 n (pack [(1, op), (1, index), (2, rkey)] ++ padTo 12 data)

/-- MEASURE with a new nonce; the die is in WAIT_READY. -/
def Chip.measure (c : Chip) (n : Nat) : Chip :=
  let d := c.rnd 12
  let c := (d.2.cardSet n 1).cardMod n (fun k => { k with nonce := d.1, measured := c.slot, notReady := false, waiting := false })
  c.measReq n 1 0 0 d.1

/-- A CARD record about a die. -/
def Chip.cardArgs (c : Chip) (n : Nat) (st : Status) (field : Nat) (v : List Byte) : List Byte :=
  aCard n (c.cardSt n) st.code field c.ring.rkey (c.geti F.GEN_CARD_STATEn_ATTEMPTS n) v

/-- The SPLICE_FORCE bridge of a die set or released through its bit (R45, Table 2.12). -/
def Chip.bridgeDie (c : Chip) (n : Nat) (b : Bool) : Chip :=
  let f := bridgeField (n / 32)
  (c.put f (withBit (c.get f) (n % 32) b)).sendForce n

/-- Dies whose Carding is under way. -/
def Chip.cardBusy (c : Chip) : Bool := (List.range 64).any (fun n => decide (1 ≤ c.cardSt n) && decide (c.cardSt n ≤ 3))

/-- Rejected dies that wait for their bridge are bridged once this instance leads or its cold start has finished Carding; the round's
ephemeral key is erased when the round ends (R124, R126). -/
def Chip.cardRoundEnd (c : Chip) : Chip :=
  let c := if c.cardBusy then c else { c with card := { c.card with eph := none } }
  if c.cards && (c.leads || !c.cardBusy) then
    c.each ((c.card.dies.filter (·.2.bridge)).map (·.1)) (fun c n => (c.cardMod n (fun k => { k with bridge := false })).bridgeDie n true)
  else c

/-- A die is rejected (Table 5.10); the partner is told. -/
def Chip.cardReject (c : Chip) (n code : Nat) (st : Status) (field : Nat) (v : List Byte) : Chip :=
  let c := (c.cardSet n 5).puti F.GEN_CARD_STATEn_REASON n st.code
  let c := c.log code uGEN (c.cardArgs n st field v)
  let c := c.cardMod n (fun k => { k with bridge := c.conf 0x0303 1 == 1, esk := [], key := [] })
  ((c.mirrorEarly (.carding n 5 [])).1).cardRoundEnd

/-- The ring key drawn for a new epoch, installed here, `PREKEY` cleared, and passed to the partner (R121). -/
def Chip.cardKey (c : Chip) (rkey : Nat) : Chip × Nat :=
  let d := c.rndPr 32
  let c := { d.2 with ring := { d.2.ring with key := some d.1, rkey := rkey, seq := 0 } }
  (c.put F.SKN_CTRL_PREKEY 0).mirrorEarly (.ringKey rkey d.1)

/-- The key package of a die (R124): 108 bytes, and its `K_node` (R164). -/
def keyPackage (esk epk nonce ring : List Byte) (n rkey : Nat) : List Byte × List Byte :=
  let z := Config.ecdhX esk epk
  let x := nonce ++ le 1 n ++ le 2 rkey
  let body := Config.gcmEnc (Config.kmac256 z x (ascii "GGM-1 CARD") 32) nonce (le 1 n ++ le 2 rkey) ring
  (padTo 108 (padTo 49 (Config.ecPub esk) ++ padTo 48 body), Config.kmac256 z x (ascii "GGM-1 NODE") 32)

/-- Is a RING launch between its final point and its slot (R224)? -/
def Chip.ringShut (c : Chip) : Bool :=
  (List.range 16).any (fun n => (c.lst n == 1 || c.lst n == 2) && c.geti F.WHL_Ln_CFG_RING n == 1 && decide (c.lslot n ≤ c.slot + 16))

/-- KEY_PART 0 to 8 to a die in KEYING (R124), or it waits for a RING launch to pass. The frames wait until the partner holds the ring
key (Table 15.5). -/
def Chip.keyParts (c : Chip) (n : Nat) : Chip :=
  if c.ringShut then c.cardMod n (fun k => { k with waiting := true })
  else
    match c.ring.key with
    | none => c
    | some ring =>
      let k := c.cardDie n
      let p := keyPackage k.esk k.epk k.nonce ring n c.ring.rkey
      let c := c.cardMod n (fun k => { k with key := p.2, waiting := false })
      c.each (List.range 9) (fun c i =>
        c.hold (.ring 0x40 n (pack [(1, 2), (1, i), (2, c.ring.rkey)] ++ slice p.1 (12 * i) 12)) c.ply.mseq 0)

/-- A die's ephemeral key: the cold-start round shares one, a returning die draws its own (R124). -/
def Chip.cardEph (c : Chip) : Chip × List Byte :=
  match c.card.eph with
  | some e => (c, e)
  | none =>
    let d := c.rnd 48
    (if c.leads then d.2 else { d.2 with card := { d.2.card with eph := some d.1 } }, d.1)

/-- Entries of the die image manifest (Table 5.7): kind, SVN, ROM version, digest. -/
def manEntries (body : List Byte) : List (Nat × Nat × Nat × List Byte) :=
  ((List.range (min 896 (body.length / 64))).map (fun i => slice body (64 * i) 64)).takeWhile (fun e => numAt e 0 1 != 0) |>.map
    (fun e => (numAt e 0 1, numAt e 2 2, numAt e 4 2, slice e 16 48))

/-- The check of a manifest's entries (R120, by step 5 of R105): the first whose `SVN`, whatever its `KIND`, is above 256 or, in every state but
RAW, below counter 2 (log entry 132). -/
def Chip.manifestBad (c : Chip) (body : List Byte) : Status :=
  ((manEntries body).findSome? (fun e =>
    if 256 < e.2.1 then some .limitReached
    else if c.lcState != 0 && decide (e.2.1 < c.otp.arb 2) then some .staleEpoch else none)).getD .ok

/-- What a MEASURED fails on (R125): the field's number with the status and the value received; none when the die is accepted. -/
def Chip.manifestMiss (c : Chip) (p : List Byte) : Option (Nat × Status × List Byte) :=
  let es := manEntries c.boot.manifest
  let bop := es.find? (fun e => e.1 == 2 && e.2.2.2 == slice p 16 48)
  let cmp := es.find? (fun e => e.1 == 3 && e.2.2.2 == slice p 64 48)
  if !es.any (fun e => e.1 == 1 && e.2.2.1 == numAt p 2 2) then some (2, .integrity, slice p 2 2)
  else
    match bop, cmp with
    | none, _ => some (3, .integrity, slice p 16 12)
    | some _, none => some (4, .integrity, slice p 64 12)
    | some b, some k => if b.2.1 != numAt p 112 2 || k.2.1 != numAt p 114 2 then some (5, .staleEpoch, slice p 112 4) else none

/-- MEASURED (R125, R126): one with another nonce is discarded with event 0x1503, whatever the state of the die. -/
def Chip.measured (c : Chip) (m : Inbox) : Chip :=
  let n := m.src
  if !c.cards then c
  else if slice m.payload 4 12 != (c.cardDie n).nonce then
    c.log 0x1503 uGEN (c.cardArgs n .integrity 1 (slice m.payload 4 12))
  else if c.cardSt n != 1 then c
  else
    let c := c.cardSet n 2
    match c.manifestMiss m.payload with
    | some f => c.cardReject n 0x3504 f.2.1 f.1 f.2.2
    | none =>
      let e := (c.cardSet n 3).cardEph
      (e.1.cardMod n (fun k => { k with epk := slice m.payload 116 49, esk := e.2, meas := m.payload })).keyParts n

/-- KEY_INSTALLED: the release is mirrored, then takes effect (Tables 5.10, 15.5). -/
def Chip.keyInstalled (c : Chip) (m : Inbox) : Chip :=
  if !c.cards || c.cardSt m.src != 3 then c
  else
    let p := c.mirrorEarly (.carding m.src 4 (c.cardDie m.src).key)
    p.1.hold (.release m.src) p.2 0

/-- A die is released: RELEASE, its bit and its `K_node` (R126). -/
def Chip.cardRelease (c : Chip) (n : Nat) : Chip :=
  if c.cardSt n != 3 then c
  else
    let key := (c.cardDie n).key
    let c := (c.cardSet n 4).measReq n 3 0 0 []
    let c := (c.setCarded n true).cu (fun u => { u with node := tput u.node n key })
    let c := c.cardMod n (fun k => { k with esk := [], key := [], keyFails := 0 })
    (c.log 0x0502 uGEN (c.cardArgs n .ok 0 [])).cardRoundEnd

/-- A key failure in KEYING: a new MEASURE the first time, rejection the second (Table 5.10). -/
def Chip.keyFailed (c : Chip) (n : Nat) : Chip :=
  if !c.cards || c.cardSt n != 3 then c
  else if (c.cardDie n).keyFails = 0 then (c.cardMod n (fun k => { k with keyFails := 1, esk := [], key := [] })).measure n
  else c.cardReject n 0x2505 .integrity 0 []

/-- A die leaves RELEASED (R126, R163). -/
def Chip.cardDrop (c : Chip) (n : Nat) : Chip :=
  (c.setCarded n false).cu (fun u => { u with node := tdel u.node n })

/-- A die is withdrawn (R409): MEAS_REQ WITHDRAW, its bit cleared, MEASURE. -/
def Chip.cardWithdraw (c : Chip) (n : Nat) : Chip :=
  if c.cardSt n != 4 then c
  else
    let c := ((c.cardDrop n).measReq n 4 0 0 []).measure n
    let c := { c with hanks := { c.hanks with dieRef := tdel c.hanks.dieRef n } }
    (c.mirrorItem (.carding n 1 [])).1

/-- Dies whose node is no longer present become ABSENT (Table 5.10) and stop being targets (R226). -/
def Chip.cardAbsent (c : Chip) (left : Chip → Nat → Chip) : Chip :=
  c.each ((List.range 64).filter (fun n => c.cardSt n != 0 && !c.present n)) (fun c n =>
    let was := c.cardSt n
    let c := left ((c.cardDrop n).cardSet n 0) n
    let c := { c with card := { c.card with dies := tdel c.card.dies n }, hanks := { c.hanks with dieRef := tdel c.hanks.dieRef n } }
    if was = 4 then (c.mirrorItem (.carding n 0 [])).1 else c)

/-- Carding starts (R121): MEASURE to every present die that is ABSENT. -/
def Chip.cardAll (c : Chip) : Chip :=
  c.each ((List.range 64).filter (fun n => c.present n && c.cardSt n == 0)) Chip.measure

/-- This instance begins to card at a ring key epoch (R121). -/
def Chip.cardStart (c : Chip) (rkey : Nat) : Chip :=
  let p := Chip.cardKey { c with card := { c.card with active := true } } rkey
  ((p.1.plySend 0x51 (padTo 16 (pack [(2, rkey), (1, 1)]))).hold .nothing p.2 0).cardAll

end Sys2Proof.Machine
end

