-- ==== Sys2Proof/Machine/CustodyCmd.lean ====
section
/-!
DEFINITION. The Custody commands as operations (R166 to R187, R229 to R235, R250): taking a descriptor in queue order, the part of each
command on one Bobbin, and the records a command writes.
-/

namespace Sys2Proof.Machine

/-! Taking a descriptor (R173 to R175). -/

/-- The Bobbins of a range. -/
def CqDesc.ids (d : CqDesc) : List Nat := (List.range (d.last % 2 ^ 20 + 1 - d.first % 2 ^ 20)).map (· + d.first % 2 ^ 20)

/-- Does a descriptor order everything (R175, rule 2)? -/
def CqDesc.ordersAll (d : CqDesc) (op : Nat) : Bool := op = 0x0F || op = 0x09 || (op = 0x07 && bit d.arg0 63)

/-- The descriptor's first 20 bytes (Table 7.5). -/
def CqDesc.bytes20 (d : CqDesc) (op : Nat) : List Byte :=
  pack [(1, op), (1, d.flags), (2, d.tag), (4, d.first), (4, d.last), (4, d.epoch), (4, d.arg0)]

/-- The descriptor at `BOB_CQ_HEAD`, as Spindle SRAM holds it (R173, Table 7.5). -/
def Chip.cqRead (c : Chip) : CqDesc :=
  let b := c.spnRd (c.get F.BOB_CQ_BASE_ADDR * 32 + 32 * c.get F.BOB_CQ_HEAD_IDX) 32
  { op := numAt b 0 1, flags := numAt b 1 1, tag := numAt b 2 2, first := numAt b 4 4, last := numAt b 8 4, epoch := numAt b 12 4, arg0 := numAt b 16 8,
    arg1 := numAt b 24 4, arg2 := numAt b 28 4 }

/-- A descriptor at the head is taken: the queue runs, the completion ring has room, and no command in flight shares a Bobbin with it
(R173, R175; assumption 27). The lead takes Custody commands (Table 15.1). -/
def Chip.cmdTake (c : Chip) (op : Nat) (d : CqDesc) : Option (Chip × CmdRun) :=
  let all := d.ordersAll op
  let first := if all then 0 else d.first % 2 ^ 20
  let last := if all then 0xFFFFF else d.last % 2 ^ 20
  if !c.leads || c.get F.BOB_CTRL_EN = 0 || c.get F.BOB_CTRL_PAUSE = 1 || c.get F.BOB_CQ_HEAD_IDX = c.get F.BOB_CQ_TAIL_IDX ||
      !c.cust.held.isEmpty || !c.cplRoom || c.cust.cmds.any (fun r => decide (r.first ≤ last) && decide (first ≤ r.last)) then none
  else
    let c := (c.put F.BOB_CQ_HEAD_IDX ((c.get F.BOB_CQ_HEAD_IDX + 1) % c.cqSize)).trace 6 1 0 (d.bytes20 op)
    let r : CmdRun := { id := c.cust.nextCmd, op := op, tag := d.tag % 65536, irq := bit d.flags 0, first := first, last := last }
    some ((c.countReset 1 (fun _ => true)).cu (fun u => { u with nextCmd := u.nextCmd + 1 }), r)

/-- The Crypto groups a command's keys need: Keccak to derive, AES to wrap blobs (R61, R164, R169). -/
def cmdGroups (op : Nat) : List Nat := if op = 1 || op = 2 || op = 9 then [1, 2] else if op = 3 then [2] else if op = 0x0A then [1] else []

/-- Is a group held off or failed, so that a command to it completes with POWERED_DOWN (R61)? -/
def Chip.grpBarred (c : Chip) (g : Nat) : Bool := bit (c.get F.PWR_GRP_CTRL_DISABLE) (g - 1) || c.grp g == 3

/-- Wake the groups of a command; it stays queued while one of them is not yet ON (R61). -/
def Chip.grpsReady (c : Chip) (gs : List Nat) : Chip × Bool :=
  let c := c.each gs (fun c g => if c.grpBarred g then c else c.groupNeed g)
  (c, gs.all (fun g => c.grp g == 2 || c.grpBarred g))

/-- A command that would write a record is refused while the journal is not open or has FAILED (R184, R188). -/
def Chip.journalBar (c : Chip) : Option Status := if c.jFailed then some .integrity else if !c.jOpen then some .busy else none

/-- Run a command's part on each Bobbin: those on which it took effect, those on which it waits, those refused. -/
def Chip.cmdEach (c : Chip) (ids : List Nat) (step : Chip → Nat → Chip × Status) : Chip × List Nat × List Nat × List (Nat × Status) :=
  ids.foldl (fun (acc : Chip × List Nat × List Nat × List (Nat × Status)) i =>
    let p := step acc.1 i
    match p.2 with
    | .ok => (p.1, acc.2.1 ++ [i], acc.2.2.1, acc.2.2.2)
    | .pending => (p.1, acc.2.1, acc.2.2.1 ++ [i], acc.2.2.2)
    | st => (p.1, acc.2.1, acc.2.2.1, acc.2.2.2 ++ [(i, st)])) (c, [], [], [])

/-- Write a command's records; its completion waits for each of them (R180). -/
def Chip.cmdJournal (c : Chip) (id : Nat) (recs : List JRec) (ready : List Nat) : Chip :=
  c.each recs (fun c r =>
    let p := c.jWrite r
    let c := p.1.hold (.command id ready) 0 p.2
    c.cu (fun u => { u with cmds := u.cmds.map (fun k => if k.id = id then { k with holds := k.holds + 1, jseq := p.2 } else k) }))

/-- The status that the first Bobbin of a range would draw by itself: of several conditions the earlier in R9 decides. -/
def Chip.firstMet (c : Chip) (ids : List Nat) (step : Chip → Nat → Chip × Status) : Status :=
  match ids with
  | [] => .ok
  | i :: _ => (step c i).2

/-- A command: refused whole (`bar`, or `LAST` below `FIRST`), or run on each Bobbin of its range, its records written. -/
def Chip.cmd (c : Chip) (op : Nat) (d : CqDesc) (bar : Chip → Option Status) (ids : Chip → List Nat) (step : Chip → Nat → Chip × Status)
    (recs : Chip → List Nat → List JRec) : Chip :=
  let g := c.grpsReady (cmdGroups op)
  match c.cmdTake op d, g.1.cmdTake op d with
  | some _, some p =>
    if !g.2 then g.1 else
    let bar := if (cmdGroups op).any p.1.grpBarred then some .poweredDown
      else if d.last % 2 ^ 20 < d.first % 2 ^ 20 && !d.ordersAll op then some .badArg else bar p.1
    match bar with
    | some st =>
      let st := firstStatus [(true, st), (st == .busy || st == .integrity, p.1.firstMet (ids p.1) step)]
      p.1.cu (fun u => { u with cmds := u.cmds ++ [{ p.2 with bad := [(d.first % 2 ^ 20, st)] }] })
    | none =>
      let q := p.1.cmdEach (ids p.1) step
      let c := q.1.cu (fun u => { u with cmds := u.cmds ++ [{ p.2 with done := q.2.1.length, left := q.2.2.1, bad := q.2.2.2 }] })
      c.cmdJournal p.2.id (recs c q.2.1) []
  | _, _ => c

/-- Is an `OP` in Table 7.7? -/
def cqOp (op : Nat) : Bool := (decide (1 ≤ op) && decide (op ≤ 0x0B)) || op = 0x0F

/-- Descriptors at the head whose `OP` is outside Table 7.7 complete with BAD_ARG (R174), at most `n` of them. -/
def Chip.cqSkip (c : Chip) (n : Nat) : Chip :=
  match n with
  | 0 => c
  | n + 1 =>
    let d := c.cqRead
    if cqOp d.op then c
    else
      match c.cmdTake d.op d with
      | none => c
      | some p => Chip.cqSkip (p.1.cu (fun u => { u with cmds := u.cmds ++ [{ p.2 with bad := [(d.first % 2 ^ 20, .badArg)] }] })).cmdsEnd n

/-- A command of Table 7.7: the descriptor at the head when its `OP` is the row's (R173). -/
def Chip.cqRow (c : Chip) (op : Nat) (f : Chip → CqDesc → Chip) : Chip :=
  let d := c.cqRead
  if d.op = op then (f c d).cqSkip 1024 else c

/-- Records of one kind, one per run of consecutive Bobbins of one hank and value. -/
def Chip.runRecs (c : Chip) (op : Nat) (ids : List Nat) (value : Bob → Nat) (launch : Bob → Nat) : List JRec :=
  let bs := ids.filterMap (fun i => (c.bob? i).map (fun b => (i, b)))
  let keys := (bs.map (fun e => (e.2.hank, value e.2, launch e.2))).dedup
  keys.flatMap (fun k =>
    (runs ((bs.filter (fun e => (e.2.hank, value e.2, launch e.2) == k)).map (·.1))).map (fun r =>
      { jseq := 0, op := op, hank := k.1, first := r.1, last := r.2, value := k.2.1, arg := k.2.2 }))

/-! Shared checks. -/

/-- Is a Bobbin under repair (R189)? -/
def Chip.repairing (c : Chip) (id : Nat) : Bool := c.cust.repair.any (fun r => r.1 == id)

/-- A Bobbin's Warp channel has FAILED, so deliveries to it are skipped with FENCED (R178). -/
def Chip.fencedCh (c : Chip) (b : Bob) : Bool := match c.warpCh b with | some ch => c.chSt ch == 3 | none => false

/-- The number of Bobbins of class HOST. -/
def Chip.hostCount (c : Chip) : Nat := (c.cust.bobs.filter (fun e => e.2.cls == clsHOST)).length

/-- `BOB_LIMIT_SUM` kept current. -/
def Chip.limitSum (c : Chip) : Chip := c.put F.BOB_LIMIT_SUM_COUNT (c.cust.bobs.filter (·.2.hit)).length

/-- A Bobbin with the memory, metadata, rate and flags its hank's layout gives it (R233); `DIR` is 0 at the end whose package certificate has the
lower serial number (R251, assumption 146). -/
def Chip.withLayout (c : Chip) (id : Nat) (b : Bob) : Bob :=
  match tget? c.hanks.tab b.hank with
  | none => b
  | some h =>
    let b := match h.ranges.find? (fun r => r.bob == id) with
      | some r => { b with base := r.base, len := r.len, aux := r.aux, rate := r.rate }
      | none => b
    match h.lanes.find? (fun l => l.bob == id) with
    | some l => { b with dflags := b2n (decide (Config.peerSerial l.lane < c.pkgSerial)) + 2 * (l.flags % 2) }
    | none => b

/-! CREATE (R167, R230, R233). -/

/-- The row of Table 7.3: the classes CREATE admits, and what `WARP_V` and `PUSH` must read. -/
def createRow (cls warp : Nat) (push : Bool) : Bool :=
  decide (1 ≤ cls) && decide (cls ≤ 7) && cls != clsHOST && (bit warp 7 == (cls != clsDIE)) && (!push || cls == clsDIE)

/-- A new Bobbin: recorded, its key derived, its blob written, its descriptor sent (R168, R230, R233). -/
def Chip.bobNew (c : Chip) (id : Nat) (b : Bob) : Chip :=
  let l := c.limitFor b.cls b.limit
  let b := { b with limit := if l.2 then l.1 else b.limit }
  let b := c.withLayout id { b with deadline := c.deadlineOf b }
  let c := (c.cu (fun u => { u with bobs := tput u.bobs id b })).noilTrans uBOB 7 4 id 0 1
  if l.2 then c.log 0x1901 uBOB (aBobbin id b.epoch Status.ok.code b.warp false l.1 0 0) else c

/-- CREATE of one Bobbin. -/
def Chip.create1 (d : CqDesc) (c : Chip) (id : Nat) : Chip × Status :=
  let cls := bitsOf d.arg0 3 0
  let h := bitsOf d.arg0 7 4
  let warp := Nat.land (bitsOf d.arg1 7 0) 0xC7
  let b : Bob :=
    { cls := cls, hank := h, push := bit d.arg0 20, strand := bitsOf d.arg0 19 8, warp := warp, limit := bitsOf d.arg1 13 8,
      sub := (d.arg2 + (id - d.first % 2 ^ 20)) % 65536, epoch := d.epoch }
  let st := firstStatus [(c.repairing id, .busy), ((c.bob? id).isSome || (tget? c.cust.keys.hank h).isNone, .denied),
    (!createRow cls warp (bit d.arg0 20), .badArg), (createRow cls warp (bit d.arg0 20) && c.fencedCh b, .fenced)]
  if st = .ok then
    let c := c.bobNew id b
    let k := c.derive id d.epoch
    let c := match k.2 with | some key => k.1.blobWrite id d.epoch key 1 | none => k.1
    (c.warpDesc id, .ok)
  else (c, st)

/-- The continuation of a CREATE group (Table 7.9). -/
def createPart (b : Bob) : List Byte :=
  pack [(2, b.strand), (1, 8 * b.sel + 4 * b2n b.imported + 2 * b2n b.push + b2n b.frozen), (1, b.warp), (1, b.limit), (3, 0), (2, b.sub), (6, 0)]

/-- The CREATE groups of new Bobbins. -/
def Chip.createRecs (c : Chip) (ids : List Nat) : List JRec :=
  (c.runRecs 0x01 ids (·.epoch) (fun _ => 0)).map (fun r =>
    match c.bob? r.first with
    | some b => { r with cls := b.cls, parts := [createPart b] }
    | none => r)

/-- CREATE. -/
def Chip.cmdCreate (c : Chip) (d : CqDesc) : Chip :=
  c.cmd 0x01 d Chip.journalBar (fun _ => d.ids) (Chip.create1 d) Chip.createRecs

/-! DERIVE and IMPORT (R168, R178, R194, R195, R212, R522). -/

/-- Admission of a new key of an IDLE Bobbin: `EPOCH`, the launch, its target and its condition (Table 7.7, R212, R250). -/
def Chip.keyAdmit (c : Chip) (d : CqDesc) (id : Nat) (b : Bob) (imported : Bool) : Status :=
  firstStatus [(c.repairing id || b.reenc || (2 ≤ b.st && b.st ≤ 6), .busy), (b.frozen, .denied), (b.imported != imported, .badArg),
    (!c.bindOk d.arg1 b, .badArg), (d.epoch != (b.epoch + 1) % 2 ^ 32, .staleEpoch), (c.fencedCh b, .fenced)]

/-- A pending key goes to its targets: the Warp channel, or for a pushed DIE Bobbin every released die of its hank; without a target
to check it the Bobbin is VERIFIED at once (R178, R194, R195). The pinned current key of an imported Bobbin stays in the cache when the blob takes
the new one (R171). -/
def Chip.deliverNow (c : Chip) (id launch : Nat) (key : List Byte) : Chip × Status :=
  match c.bob? id with
  | none => (c, .badArg)
  | some b =>
    let e := (b.epoch + 1) % 2 ^ 32
    let c := if b.imported && b.blob = 1 then
        (match c.cached id b.epoch with
         | some k => c.cachePut id b.epoch k true
         | none => c)
      else c
    let c := (c.cachePut id e key false).blobWrite id e key 2
    let dies := if b.cls = clsDIE && b.push then c.hankCarded b.hank else []
    let wait := (match c.warpCh b with | some ch => [Tgt.warp ch] | none => []) ++ dies.map Tgt.die
    let c := c.bobMod id (fun b => { b with st := 2, launch := launch, wait := wait, fail := none })
    let c := (c.warpKey id b b.sub e key (c.limitOf b)).each dies (fun c n => c.push n id e .ok 4 b.sub (c.limitOf b) (some key))
    if wait.isEmpty then (c.bobMod id (fun b => { b with st := 3 }), .ok) else (c, .pending)

/-- Deliver a pending key; when an imported Bobbin's current key stands in its blob alone, that is loaded first (R170, R171). -/
def Chip.deliverKey (c : Chip) (id launch : Nat) (key : List Byte) : Chip × Status :=
  match c.bob? id with
  | none => (c, .badArg)
  | some b =>
    if b.imported && b.blob = 1 && (c.cached id b.epoch).isNone then
      let c := (c.portReq true (.blobRead true 0xFE id)).cu (fun u => { u with loads := u.loads ++ [(id, launch, some key)] })
      (c.bobMod id (fun b => { b with st := 2, launch := launch, wait := [], fail := none }), .pending)
    else c.deliverNow id launch key

/-- DERIVE of one Bobbin. -/
def Chip.derive1 (d : CqDesc) (c : Chip) (id : Nat) : Chip × Status :=
  match c.bob? id with
  | none => (c, .badArg)
  | some b =>
    let st := c.keyAdmit d id b false
    if st = .ok then
      let k := c.derive id d.epoch
      match k.2 with
      | some key => k.1.deliverKey id d.arg1 key
      | none => (k.1, .denied)
    else (c, st)

/-- DERIVE. -/
def Chip.cmdDerive (c : Chip) (d : CqDesc) : Chip := c.cmd 0x02 d (fun _ => none) (fun _ => d.ids) (Chip.derive1 d) (fun _ _ => [])

/-- IMPORT of one Bobbin with a key read from its handle, none when the handle is bad (R522). -/
def Chip.import1 (d : CqDesc) (key : Option (List Byte)) (c : Chip) (id : Nat) : Chip × Status :=
  match c.bob? id with
  | some b =>
    let st := firstStatus [(c.keyAdmit d id b true != .ok, c.keyAdmit d id b true), (key.isNone, .badArg)]
    match key with
    | some k => if st = .ok then (c.bobMod id (fun b => { b with session := tget c.spdm.chan b.sub b.session })).deliverKey id d.arg1 k else (c, st)
    | none => (c, st)
  | none =>
    let h := bitsOf d.arg2 15 12
    let b : Bob :=
      { cls := clsHOST, hank := h, imported := true, warp := Nat.land (bitsOf d.arg2 23 16) 0xC7, limit := bitsOf d.arg2 29 24, sub := bitsOf d.arg2 11 0,
        session := tget c.spdm.chan (bitsOf d.arg2 11 0) 0, epoch := d.epoch }
    let bad := key.isNone || !bit b.warp 7 || d.arg1 != 0 || 2 ^ 30 ≤ d.arg2 % 2 ^ 32
    let st := firstStatus [((tget? c.cust.keys.hank h).isNone, .denied), (bad, .badArg), (decide (4096 ≤ c.hostCount), .limitReached),
      (c.journalBar.isSome, c.journalBar.getD .busy), (!bad && c.fencedCh b, .fenced), (c.repairing id, .busy)]
    match key with
    | some k =>
      if st = .ok then ((((c.bobNew id b).cachePut id d.epoch k true).blobWrite id d.epoch k 1).warpDesc id, .ok) else (c, st)
    | none => (c, st)

/-- Does the descriptor's Bobbin start FREE? Then its CREATE and IMPORT records are written and its key mirrored. -/
def Chip.cmdImport (c : Chip) (d : CqDesc) (key : Option (List Byte)) : Chip :=
  let fresh := (c.bob? (d.first % 2 ^ 20)).isNone
  let c := c.cmd 0x03 d (fun _ => if d.first % 2 ^ 20 = d.last % 2 ^ 20 then none else some .badArg) (fun _ => d.ids) (Chip.import1 d key)
    (fun c ids => if fresh then c.createRecs ids ++ c.runRecs 0x02 ids (·.epoch) (fun _ => 0) else [])
  match key with
  | some k => if fresh && (c.bob? (d.first % 2 ^ 20)).isSome then (c.mirrorItem (.imported (d.first % 2 ^ 20) d.epoch k (tget c.spdm.chan (bitsOf d.arg2 11 0) 0))).1 else c
  | none => c

/-! COMMIT, ARM, CANCEL (R177 to R180, R213). -/

/-- COMMIT of one Bobbin; READY once its record has committed. -/
def Chip.commit1 (d : CqDesc) (c : Chip) (id : Nat) : Chip × Status :=
  match c.bob? id with
  | none => (c, .badArg)
  | some b =>
    (c, firstStatus [(c.repairing id || b.st = 2, .busy), (b.st != 2 && (b.st != 3 || b.launch != d.arg1), .badArg), (b.st = 3, .pending)])

/-- COMMIT: the records of the Bobbins that took effect, of imported ones also IMPORT with the key mirrored, from the blob where
the cache has lost it (R180, R197). -/
def Chip.cmdCommit (c : Chip) (d : CqDesc) : Chip :=
  let n := c.cust.nextCmd
  let c := c.cmd 0x04 d Chip.journalBar (fun _ => d.ids) (Chip.commit1 d) (fun _ _ => [])
  match c.cust.cmds.find? (fun r => r.id == n && r.op == 0x04) with
  | none => c
  | some r =>
    let imp := r.left.filter (fun i => match c.bob? i with | some b => b.imported | none => false)
    let c := c.each imp (fun c i =>
      match c.bob? i with
      | some b =>
        (match c.cached i (b.epoch + 1) with
         | some k => (c.mirrorItem (.imported i (b.epoch + 1) k b.session)).1
         | none => if b.blob = 2 then (c.portReq true (.blobRead true 0xFE i)).cu (fun u => { u with loads := u.loads ++ [(i, 0, none)] }) else c)
      | none => c)
    let c := c.cmdJournal n (c.runRecs 0x02 imp (fun b => (b.epoch + 1) % 2 ^ 32) (·.launch)) []
    c.each (c.runRecs 0x03 r.left (fun b => (b.epoch + 1) % 2 ^ 32) (·.launch)) (fun c k =>
      c.cmdJournal n [k] ((List.range (k.last + 1 - k.first)).map (· + k.first)))

/-- READY Bobbins of an entry become ARMED: the entry's change is mirrored, then ARM frames with the launch's Whorl time go to their
Warp targets (R214, R195; assumption 28). -/
def Chip.armAll (c : Chip) (n : Nat) (ids : List Nat) : Chip :=
  let c := c.each ids (fun c i => c.bobMod i (fun b => { b with st := 5 }))
  if ids.isEmpty then c
  else
    let p := c.mirrorItem (c.lItem n)
    p.1.each ids (fun c i =>
      match c.bob? i with
      | some b => (match c.warpCh b with
        | some ch => c.hold (.warp ch { op := 2, sub := b.sub, bobbin := i, epoch := (b.epoch + 1) % 2 ^ 32, time := 256 * c.lslot n }) p.2 0
        | none => c)
      | none => c)

/-- ARM admission. -/
def Chip.armAdmit (c : Chip) (d : CqDesc) (id : Nat) : Status :=
  match c.bob? id with
  | none => .badArg
  | some b =>
    match c.lfind d.arg1 with
    | none => firstStatus [(b.frozen, .denied), (true, .badArg)]
    | some n =>
      firstStatus [(c.repairing id, .busy), (b.frozen, .denied), (b.st != 4 || b.launch != d.arg1 || c.lst n != 1, .badArg), (c.fencedCh b, .fenced)]

/-- ARM. -/
def Chip.cmdArm (c : Chip) (d : CqDesc) : Chip :=
  let ok := d.ids.filter (fun i => c.armAdmit d i == .ok)
  let taken := (c.cmdTake 0x05 d).isSome
  let c := c.cmd 0x05 d (fun _ => none) (fun _ => d.ids) (fun c i => (c, c.armAdmit d i)) (fun _ _ => [])
  match c.lfind d.arg1 with
  | some n => if taken then c.armAll n ok else c
  | none => c

/-- Whether a pending key may be cancelled by command: its launch is still SCHEDULED (R213). -/
def Chip.cancelOpen (c : Chip) (b : Bob) : Bool := match c.lfind b.launch with | some n => c.lst n == 1 | none => true

/-- CANCEL admission. -/
def Chip.cancelAdmit (c : Chip) (d : CqDesc) (id : Nat) : Status :=
  match c.bob? id with
  | none => .badArg
  | some b =>
    firstStatus [(c.repairing id, .busy), (b.st = 1 || b.st = 6 || !c.cancelOpen b, .staleEpoch),
      (2 ≤ b.st && b.st ≤ 5 && d.arg1 != 0 && d.arg1 != b.launch, .badArg), (4 ≤ b.st && b.st ≤ 5 && c.journalBar.isSome, c.journalBar.getD .busy)]

/-- CANCEL: the Bobbins that had reached READY are journaled (R177). -/
def Chip.cmdCancel (c : Chip) (d : CqDesc) : Chip :=
  let ok := d.ids.filter (fun i => c.cancelAdmit d i == .ok)
  let recs := c.runRecs 0x05 (ok.filter (fun i => match c.bob? i with | some b => decide (4 ≤ b.st) | none => false))
    (fun b => (b.epoch + 1) % 2 ^ 32) (·.launch)
  c.cmd 0x06 d (fun _ => none) (fun _ => d.ids)
    (fun c i => if ok.contains i then (c.discard i false, .ok) else (c, c.cancelAdmit d i)) (fun _ _ => recs)

/-! FREEZE, DESTROY, RESUME (R168, R186). -/

/-- A FREEZE frame to a Bobbin's Warp target for its current epoch. -/
def Chip.freezeFrame (c : Chip) (id : Nat) : Chip :=
  match c.bob? id with
  | none => c
  | some b =>
    match c.warpCh b with
    | some ch => if c.chSt ch = 3 then c else c.warpTo ch { op := 5, sub := b.sub, bobbin := id, epoch := b.epoch }
    | none => c

/-- The CANCEL record of a Bobbin that had reached READY and is discarded by another way than CANCEL (R168, Table 7.9). -/
def Chip.cancelRec (c : Chip) (id : Nat) : Chip :=
  match c.bob? id with
  | some b =>
    if 4 ≤ b.st && b.st ≤ 5 && c.leads && c.journalBar.isNone then
      (c.jWrite { jseq := 0, op := 0x05, hank := b.hank, first := id, last := id, value := (b.epoch + 1) % 2 ^ 32, arg := b.launch }).1
    else c
  | none => c

/-- The launch of a HOST Bobbin whose pending key a FREEZE cancels ends with STALE_EPOCH (Table 9.11). -/
def Chip.launchStale (c : Chip) (id : Nat) : Chip :=
  match c.bob? id with
  | some b =>
    if b.cls = clsHOST && 2 ≤ b.st && b.st ≤ 5 then
      (match c.lfind b.launch with | some n => c.puti F.WHL_Ln_STATE_RESULT n Status.staleEpoch.code | none => c)
    else c
  | none => c

/-- A Bobbin frozen: its pending key discarded first, as by CANCEL. -/
def Chip.freezeBob (c : Chip) (id : Nat) : Chip :=
  ((((c.launchStale id).cancelRec id).discard id false).bobMod id (fun b => { b with frozen := true })).freezeFrame id

/-- FREEZE of one Bobbin; of a whole hank FREE ones are passed over. -/
def Chip.freeze1 (c : Chip) (id : Nat) : Chip × Status :=
  match c.bob? id with
  | none => (c, .badArg)
  | some _ => if c.repairing id then (c, .busy) else (c.freezeBob id, .ok)

/-- The Bobbins of a hank. -/
def Chip.hankBobs (c : Chip) (h : Nat) : List Nat := (c.cust.bobs.filter (fun e => e.2.hank == h)).map (·.1)

/-- The hank of a whole-hank FREEZE. -/
def CqDesc.whole? (d : CqDesc) : Option Nat := if bit d.arg0 63 then some (d.arg0 % 16) else none

/-- A whole-hank FREEZE takes effect: `FROZEN`, and a LIVE hank becomes FROZEN (Table 14.6). -/
def Chip.hankFrozen (c : Chip) (h : Nat) : Chip :=
  let c := c.puti F.DST_HANKn_FROZEN h 1
  { c with hanks := { c.hanks with tab := c.hanks.tab.map (fun e => if e.1 = h && e.2.st = 3 then (e.1, { e.2 with st := 4 }) else e) } }

/-- FREEZE. -/
def Chip.cmdFreeze (c : Chip) (d : CqDesc) : Chip :=
  match d.whole? with
  | some h =>
    let n := c.cust.nextCmd
    let c := c.cmd 0x07 d Chip.journalBar (fun c => c.hankBobs h) Chip.freeze1
      (fun _ _ => [{ jseq := 0, op := 0x06, hank := h, first := 0xFFFFFFFF, last := 0xFFFFFFFF }])
    if c.cust.cmds.any (fun r => r.id == n && decide (0 < r.holds)) then c.hankFrozen h else c
  | none => c.cmd 0x07 d Chip.journalBar (fun _ => d.ids) Chip.freeze1 (fun c ids => c.runRecs 0x06 ids (·.epoch) (fun _ => 0))

/-- A Bobbin FREE again: FREEZE frame, cache entries erased, its tree root zero (R168, R240). -/
def Chip.destroyBob (c : Chip) (id : Nat) : Chip :=
  match c.bob? id with
  | none => c
  | some b =>
    let c := (c.freezeFrame id).cacheDrop (fun k => k.bob == id)
    let c := c.cu (fun u => { u with bobs := tdel u.bobs id, trs := if b.cls = clsWORSTED then tdel u.trs b.sub else u.trs })
    (c.noilTrans uBOB 7 4 id b.st 0).limitSum

/-- DESTROY. -/
def Chip.cmdDestroy (c : Chip) (d : CqDesc) : Chip :=
  let allowed := fun (c : Chip) i => match c.bob? i with
    | none => Status.badArg
    | some b => if c.repairing i || (2 ≤ b.st && b.st ≤ 5) then .busy else .ok
  let recs := c.runRecs 0x07 (d.ids.filter (fun i => allowed c i == .ok)) (·.epoch) (fun _ => 0)
  c.cmd 0x08 d Chip.journalBar (fun _ => d.ids) (fun c i => if allowed c i = .ok then (c.destroyBob i, .ok) else (c, allowed c i)) (fun _ _ => recs)

/-- A derived Bobbin restarted at a higher epoch (Table 7.4): every key of it gone, the new one derived, descriptor and first key. -/
def Chip.resumeBob (c : Chip) (id epoch : Nat) : Chip :=
  match c.bob? id with
  | none => c
  | some b =>
    let c := (c.cacheDrop (fun k => k.bob == id)).freezeFrame id
    let c := if b.cls = clsDIE then c.pushStale id b.epoch 1 b else c
    let c := c.bobMod id (fun b => { b with epoch := epoch, blob := 0, hit := false, deadline := c.deadlineOf b, near := false, past := false, unconf := none })
    let k := c.derive id epoch
    let c := match k.2 with | some key => k.1.blobWrite id epoch key 1 | none => k.1
    (c.warpDesc id).limitSum

/-- RESUME of one Bobbin. -/
def Chip.resume1 (d : CqDesc) (c : Chip) (id : Nat) : Chip × Status :=
  match c.bob? id with
  | none => (c, .badArg)
  | some b =>
    let st := firstStatus [(c.repairing id || b.reenc || b.st != 1, .busy), (b.frozen || (tget? c.cust.keys.hank b.hank).isNone, .denied),
      (b.imported || decide (d.epoch ≤ b.epoch), .badArg), (c.fencedCh b, .fenced)]
    if st = .ok then (c.resumeBob id d.epoch, .ok) else (c, st)

/-- RESUME. -/
def Chip.cmdResume (c : Chip) (d : CqDesc) : Chip :=
  c.cmd 0x09 d (fun c => if d.last % 2 ^ 20 < d.first % 2 ^ 20 then some .badArg else c.journalBar) (fun _ => d.ids) (Chip.resume1 d)
    (fun c ids => c.runRecs 0x09 ids (·.epoch) (fun _ => 0))

/-! HISTORIC, READ, FENCE (R174, R175, R187). -/

/-- HISTORIC of one Bobbin: the past key to the restore path of its target. -/
def Chip.historic1 (d : CqDesc) (c : Chip) (id : Nat) : Chip × Status :=
  match c.bob? id with
  | none => (c, .badArg)
  | some b =>
    let st := firstStatus [(c.repairing id || (2 ≤ b.st && b.st ≤ 5), .busy), (b.cls != clsLOADER && b.cls != clsCKPT, .denied),
      (decide (b.epoch ≤ d.epoch), .badArg), (c.fencedCh b, .fenced)]
    if st = .ok then
      let k := c.derive id d.epoch
      match k.2 with
      | some key => (k.1.warpKey id b 0xFFFE d.epoch key 0, .pending)
      | none => (k.1, .denied)
    else (c, st)

/-- HISTORIC. -/
def Chip.cmdHistoric (c : Chip) (d : CqDesc) : Chip :=
  c.cmd 0x0A d (fun _ => if d.first % 2 ^ 20 = d.last % 2 ^ 20 then none else some .badArg) (fun _ => d.ids) (Chip.historic1 d) (fun _ _ => [])

/-- A Bobbin record (Table 7.2), all zero in FREE. -/
def Chip.bobBytes (c : Chip) (id : Nat) : List Byte :=
  match c.bob? id with
  | none => List.replicate 24 0#8
  | some b =>
    pack [(1, 16 * b.cls + b.st), (1, 16 * b.hank + 8 * b.sel + 4 * b2n b.imported + 2 * b2n b.push + b2n b.frozen), (2, b.blob * 2 ^ 14 + b.strand),
      (1, b.warp), (1, 128 * b2n b.hit + b.limit), (2, b.sub), (4, b.epoch), (4, b.deadline), (4, b.launch), (4, b.jseq)]

/-- READ: records into Spindle SRAM. -/
def Chip.cmdRead (c : Chip) (d : CqDesc) : Chip :=
  let fits := decide (d.arg0 + 24 * d.ids.length ≤ 0x100000)
  c.cmd 0x0B d (fun _ => if fits then none else some .badArg) (fun _ => d.ids)
    (fun c i => if c.repairing i then (c, .busy) else (c.spnWr (d.arg0 + 24 * (i - d.first % 2 ^ 20)) (c.bobBytes i), .ok)) (fun _ _ => [])

/-- FENCE: every earlier command has completed; with `DURABLE` it waits for `BOB_JDUR`. -/
def Chip.cmdFence (c : Chip) (d : CqDesc) : Chip :=
  match c.cmdTake 0x0F d with
  | none => c
  | some p => p.1.cu (fun u => { u with cmds := u.cmds ++ [{ p.2 with durable := bit d.flags 1, jseq := if bit d.flags 1 then p.1.get64 R.BOB_JSEQ_LO - 1 else 0 }] })

end Sys2Proof.Machine
end

