-- ==== Sys2Proof/Machine/CustodyEv.lean ====
section
/-!
DEFINITION. What reaches the Custody cluster from outside (R31, R32, R178, R179, R188 to R198, R233, R244 to R253): answers on Warp
channels, key requests and acknowledgements, limit reports, journal outcomes, and committed records applied to a table.
-/

namespace Sys2Proof.Machine

/-! Warp answers (R31, R32, R178, R179). -/

/-- The outcome of a LOAD_PENDING: of a descriptor, a restore key, a first key or a pending key. -/
def Chip.loadAnswer (c : Chip) (ch : Nat) (f : WarpFrame) (st : Status) : Chip :=
  if f.sub = 0xFFFC then (if st = .ok then c.firstKey f.bobbin else c.enabled f.bobbin st)
  else if f.sub = 0xFFFE then c.cmdPart f.bobbin st
  else
    match c.bob? f.bobbin with
    | none => c
    | some b =>
      if b.enable = 2 && f.epoch = b.epoch then c.enabled f.bobbin st
      else if f.epoch = (b.epoch + 1) % 2 ^ 32 then c.targetDone f.bobbin (.warp ch) st else c

/-- The REENC notice (Table 9.10) and a RANGE event of a Bobbin. -/
def Chip.reenc (c : Chip) (id : Nat) (b : Bob) (st : Status) (epoch : Nat) : Chip :=
  (c.notice 0x82 b.sub st (b.bound / 4096) id epoch).log (if st = .ok then 0x0902 else 0x2902) uBOB
    (aRange id b.sub 0 st.code b.bound (b.len / 4096))

/-- A CANCEL is settled at its target. -/
def Chip.cancelSettled (c : Chip) (id : Nat) : Chip :=
  { c with whl := { c.whl with cancelWait := c.whl.cancelWait.filter (fun w => w.2 != id) } }

/-- The launch whose RETIRE of a Bobbin is unanswered, settled (event 0x0704 with the last). -/
def Chip.retireSettled (c : Chip) (id : Nat) : Chip :=
  match c.whl.retireWait.find? (fun w => w.2 == id) with
  | some w => c.retireDone w.1 id
  | none => c

/-- An answer taken for a frame (R178, R179, R250). -/
def Chip.warpAnswer (c : Chip) (ch : Nat) (f : WarpFrame) (st : Status) : Chip :=
  match f.op with
  | 1 => (c.cu (fun u => { u with silent := u.silent.filter (· != (ch, f.bobbin)) })).loadAnswer ch f st
  | 3 => (c.cu (fun u => { u with silent := u.silent.filter (· != (ch, f.bobbin)) })).cancelSettled f.bobbin
  | 4 =>
    let c := match c.bob? f.bobbin with
      | some b => if st = Status.busy then (c.bobMod f.bobbin (fun b => { b with reenc := true })).reenc f.bobbin b Status.busy b.epoch else c
      | none => c
    c.retireSettled f.bobbin
  | _ => c

/-- A channel goes FAILED: every CANCEL outstanding on it is unconfirmed (R178, R179, R221). -/
def Chip.chFail (c : Chip) (ch : Nat) : Chip :=
  let outs := if ch < 8 then (tget c.cust.warp ch [] ++ tget c.cust.backlog ch []).map (·.frame)
    else (c.ply.relay.filter (fun r => r.1 + 8 == ch)).map (·.2)
  (c.chPut ch 3).each (outs.filter (fun f => f.op == 3)) (fun c f =>
    match c.whl.cancelWait.find? (fun w => w.2 == f.bobbin) with
    | some w => (c.cancelSettled f.bobbin).unconfirmed w.1 f.bobbin f.epoch
    | none => c)

/-- A Bobbin event about a frame (layout BOBBIN). -/
def Chip.logBob (c : Chip) (code id epoch : Nat) (st : Status) (last : Nat) : Chip :=
  match c.bob? id with
  | some b => c.log code uBOB (aBobbin id epoch st.code b.warp false (c.limitFor b.cls b.limit).1 b.launch last)
  | none => c.log code uBOB (aBobbin id epoch st.code 0 false 0 0 last)

/-- A frame both of whose tries failed (R32, R178, R179): a load fails at the target, an ARM leaves the channel SUSPECT, a CANCEL or
RETIRE marks it FAILED. -/
def Chip.warpSilent (c : Chip) (ch : Nat) (f : WarpFrame) : Chip :=
  match f.op with
  | 1 =>
    let pending := match c.bob? f.bobbin with | some b => f.sub < 0xFFFA && b.enable != 2 && decide (f.epoch = (b.epoch + 1) % 2 ^ 32) | none => false
    (if pending then c.cu (fun u => { u with silent := u.silent.filter (· != (ch, f.bobbin)) ++ [(ch, f.bobbin)] }) else c).loadAnswer ch f .integrity
  | 2 => if c.chSt ch = 1 then c.chPut ch 2 else c
  | 3 =>
    let code := if c.cust.silent.contains (ch, f.bobbin) then 0x2704 else 0x2705
    let w := c.whl.cancelWait.find? (fun w => w.2 == f.bobbin)
    let c := (c.chFail ch).logBob code f.bobbin f.epoch .integrity 0
    match w with
    | some w => if c.whl.cancelWait.contains w then (c.cancelSettled f.bobbin).unconfirmed w.1 f.bobbin f.epoch else c
    | none => c
  | 4 => ((c.chFail ch).logBob 0x2705 f.bobbin f.epoch .integrity 0).retireSettled f.bobbin
  | _ => c

/-- The next frames held behind a full channel go out (R195). -/
def Chip.warpNext (c : Chip) (ch : Nat) : Chip :=
  match tget c.cust.backlog ch [] with
  | [] => c
  | w :: ws => (c.cu (fun u => { u with backlog := tput u.backlog ch ws })).warpPut ch w

/-- The frame of a channel that an answer is for: the oldest of the answer's kind, Bobbin, sub-unit and epoch. -/
def answers (f : WarpFrame) (w : WarpFrame) : Bool :=
  ((f.op == 0x81) == (w.op == 1)) && f.bobbin == w.bobbin && f.epoch == w.epoch && (f.sub == w.sub || w.sub == 0xFFFC)

/-- Take a waiting frame off a channel. -/
def Chip.warpTake (c : Chip) (ch : Nat) (p : WarpFrame → Bool) : Option (WarpWait × Chip) :=
  let q := tget c.cust.warp ch []
  match q.find? (fun w => p w.frame) with
  | none => none
  | some w => some (w, (c.cu (fun u => { u with warp := tput u.warp ch (q.erase w) })).warpNext ch)

/-- The outcome of a frame the partner relayed goes back to it (R424). -/
def Chip.relayBack (c : Chip) (ch : Nat) (f : WarpFrame) : Chip := c.plySend 0x31 (padTo 16 (le 1 ch) ++ f.bytes)

/-- The oldest frame of a channel meets a failed check (R31): event 0x1205, resent once, then answered with INTEGRITY. -/
def Chip.warpBad (c : Chip) (ch : Nat) : Chip :=
  let c := c.log 0x1205 uBOB (aFrame 0 0 ch 0 0 0 2 Status.integrity.code 0)
  match tget c.cust.warp ch [] with
  | [] => c
  | w :: ws =>
    if !w.resent then (c.cu (fun u => { u with warp := tput u.warp ch ({ w with resent := true } :: ws) })).send (.warp ch w.frame)
    else
      let c := (c.cu (fun u => { u with warp := tput u.warp ch ws })).warpNext ch
      if w.relayed then c.relayBack ch { w.frame with op := if w.frame.op = 1 then 0x81 else 0x87, result := Status.integrity.code, share0 := [], share1 := [] }
      else if w.frame.op = 1 then c.warpAnswer ch w.frame .integrity else c.warpSilent ch w.frame

/-- An answer arrives on one of this instance's channels (R31, R178, R179, R424). -/
def Chip.warpReply (c : Chip) (ch : Nat) (f : WarpFrame) : Chip :=
  if (f.op = 0x87 && f.result = Status.integrity.code) || (Status.ofCode f.result).isNone then c.warpBad ch
  else
    match c.warpTake ch (answers f) with
    | none => c
    | some p => if p.1.relayed then p.2.relayBack ch f else p.2.warpAnswer ch p.1.frame ((Status.ofCode f.result).getD .integrity)

/-- A channel's oldest frame is not answered in time (R32).
One frame is resent once in all, for a failed check or for a late answer: this model's choice (assumption 151). -/
def Chip.warpLate (c : Chip) (ch : Nat) : Chip :=
  match tget c.cust.warp ch [] with
  | [] => c
  | w :: ws =>
    if !w.resent then (c.cu (fun u => { u with warp := tput u.warp ch ({ w with resent := true } :: ws) })).send (.warp ch w.frame)
    else
      let c := ((c.cu (fun u => { u with warp := tput u.warp ch ws })).warpNext ch).logBob 0x2202 w.frame.bobbin w.frame.epoch .integrity 0
      if w.relayed then c else c.warpSilent ch w.frame

/-! Unsolicited reports (R190, R231, R424). -/

/-- Reports held for a lead: at most 4,096, the oldest time and boundary reports dropped first. -/
def holdReport (rs : List (Nat × WarpFrame)) (r : Nat × WarpFrame) : List (Nat × WarpFrame) :=
  let rs := rs ++ [r]
  if rs.length ≤ 4096 then rs
  else
    match rs.find? (fun e => e.2.sub == 0xFFFD || e.2.sub == 0xFFFA) with
    | some e => rs.erase e
    | none => rs.drop 1

/-- A report from this instance's base die: acted on by the lead, passed to it or held for it by the other instance. -/
def Chip.report (c : Chip) (ch : Nat) (f : WarpFrame) (act : Chip → Nat → WarpFrame → Chip) : Chip :=
  if !c.svcUp then c
  else if c.pkg = .hx4 || c.leads then act c ch f
  else if c.linked then c.relayBack ch f
  else { c with ply := { c.ply with reports := holdReport c.ply.reports (ch, f) } }

/-- Copies of fault, epoch and reset reports within 16 slots are dropped (R231). -/
def Chip.reportOnce (c : Chip) (ch : Nat) (f : WarpFrame) (act : Chip → Chip) : Chip :=
  let live := c.cust.seenReports.filter (fun e => decide (c.slot ≤ e.2.2 + 16))
  if live.any (fun e => e.1 == ch && e.2.1 == f) then c
  else act (c.cu (fun u => { u with seenReports := live ++ [(ch, f, c.slot)] }))

/-- A usage limit is reached (R191). -/
def Chip.limitHit (c : Chip) (id epoch : Nat) : Chip :=
  match c.bob? id with
  | none => c.logBob 0x1703 id epoch .limitReached 0
  | some b =>
    if b.epoch != epoch then c.logBob 0x1703 id epoch .limitReached 0
    else
      let c := (c.bobMod id (fun b => { b with hit := true })).limitSum
      let c := if c.journalBar.isNone && c.leads then (c.jWrite { jseq := 0, op := 0x08, hank := b.hank, first := id, last := id, value := epoch }).1 else c
      c.logBob 0x2702 id epoch .limitReached 0

/-! Key requests (R170, R193, R413). -/

/-- Answer with a key, found under R170: the cache, then the blob that names the slot, then derivation. -/
def Chip.keyGive (c : Chip) (q : KeyReq) (b : Bob) (epoch : Nat) (st : Status) (flags : Nat) (blobNames : Bool) : Chip :=
  match c.cached q.bob epoch with
  | some k => ((c.cacheTouch q.bob epoch).count 1 1).keyReply q st flags b.sub (c.limitOf b) (some k) epoch
  | none =>
    let c := c.count 2 1
    if blobNames then (c.portReq true (.blobRead true 0xFE q.bob)).cu (fun u => { u with blobReads := u.blobReads ++ [q] })
    else if b.imported then c.keyReply q .integrity 0 b.sub 0 none epoch
    else
      let g := c.grpsReady [1]
      if !g.2 then g.1.cu (fun u => { u with waitGrp := u.waitGrp ++ [q] })
      else if g.1.grpBarred 1 then g.1.keyReply q .poweredDown 0 b.sub 0 none epoch
      else
        let k := g.1.derive q.bob epoch
        match k.2 with
        | none => k.1.keyReply q .integrity 0 b.sub 0 none epoch
        | some key =>
          let c := k.1.cachePut q.bob epoch key false
          let c := if b.blob != 0 then c else if epoch = b.epoch then c.blobWrite q.bob epoch key 1
            else if epoch = (b.epoch + 1) % 2 ^ 32 then c.blobWrite q.bob epoch key 2 else c
          c.keyReply q st flags b.sub (c.limitOf b) (some key) epoch

/-- Is a Bobbin's strand active: the whole hank, or the hank's active strand (R222)? -/
def Chip.strandActive (c : Chip) (b : Bob) : Bool :=
  b.strand == 0xFFF || (match tget? c.hanks.tab b.hank with | some h => h.active == b.strand | none => true)

/-- Has the grace window of a Bobbin's launch ended, though its retire is still to come in this slot (Table 7.13)? -/
def Chip.graceOver (c : Chip) (b : Bob) : Bool :=
  (List.range 16).any (fun n => c.lnum n == b.launch && b.launch != 0 && c.lst n == 3 && decide (c.lslot n + c.lgrace n ≤ c.slot))

/-- A key request answered by the first row of Table 7.12 that applies, after R128. -/
def Chip.keyServe (c : Chip) (q : KeyReq) : Chip :=
  if !c.carded q.src then
    (c.keyReply q .denied 0 0 0 none q.epoch).log 0x1505 uGEN (aCard q.src (c.geti F.GEN_CARD_STATEn_STATE q.src) Status.denied.code 0 c.ring.rkey 0
      (pack [(4, q.bob), (4, q.epoch), (4, q.reqId)]))
  else
    match c.bob? q.bob with
    | none => c.keyReply q .badArg 0 0 0 none q.epoch
    | some b =>
      if b.cls != clsDIE || !(c.hankDies b.hank).contains q.src || b.frozen || !c.strandActive b then
        (c.keyReply q .denied 0 b.sub 0 none q.epoch).log 0x1701 uBOB
          (aBobbin q.bob q.epoch Status.denied.code q.src true (c.limitFor b.cls b.limit).1 b.launch 0)
      else if c.repairing q.bob then c.keyReply q .busy 0 b.sub 0 none q.epoch
      else
        let want := if q.epoch = 0xFFFFFFFF then b.epoch else q.epoch
        let g := c.grpsReady [2]
        let next := (b.epoch + 1) % 2 ^ 32
        if want = next && (b.st = 2 || b.st = 3) then c.keyReply q .busy 0 b.sub 0 none want
        else if !(want = b.epoch || (want = next && (b.st = 4 || b.st = 5)) || ((want + 1) % 2 ^ 32 = b.epoch && b.st = 6 && !c.graceOver b)) then
          let c := c.keyReply q .staleEpoch 0 b.sub 0 none want
          c.logOnce 0x1702 q.bob uBOB (aBobbin q.bob want Status.staleEpoch.code q.src true (c.limitFor b.cls b.limit).1 b.launch 0)
        else if !g.2 then g.1.cu (fun u => { u with waitGrp := u.waitGrp ++ [q] })
        else if g.1.grpBarred 2 then g.1.keyReply q .poweredDown 0 b.sub 0 none want
        else if want = b.epoch then g.1.keyGive q b want (if b.hit then .limitReached else .ok) 1 (b.blob == 1)
        else if want = next then g.1.keyGive q b want .ok 4 (b.blob == 2)
        else g.1.keyGive q b want .ok 2 false

/-- Requests that waited for a group are served again (R61). -/
def Chip.keyRetry (c : Chip) : Chip :=
  let qs := c.cust.waitGrp
  (c.cu (fun u => { u with waitGrp := [] })).each qs Chip.keyServe

/-- A key whose set has all four ways pinned is not cached and is served from its blob (R171): it is held, in no way of its set, while those that
wait for it are answered, and `Chip.blobLeave` lets it go. -/
def Chip.blobHold (c : Chip) (id epoch : Nat) (key : List Byte) : Chip :=
  if (c.cached id epoch).isSome then c
  else
    let r := c.rnd 32
    r.2.cu (fun u => { u with cache := u.cache ++ [{ bob := id, epoch := epoch, pinned := false, s0 := r.1, s1 := xorBytes r.1 key }] })

/-- What `Chip.blobHold` held beyond the four ways of its set is gone. -/
def Chip.blobLeave (c : Chip) (id epoch : Nat) : Chip :=
  if (c.cust.cache.filter (fun e => cacheSet e.bob e.epoch == cacheSet id epoch)).length ≤ 4 then c
  else c.cacheDrop (fun e => e.bob == id && e.epoch == epoch)

/-- What waited for a Bobbin's blob as an imported key goes on (R171, R197): the new key is delivered, the current one pinned if the blob was
good; or the committed key is mirrored. -/
def Chip.loadGo (c : Chip) (id : Nat) (key : Option (List Byte)) (l : Nat × Nat × Option (List Byte)) : Chip :=
  match c.bob? id, l.2.2 with
  | some b, some new =>
    let c := match key with | some k => c.cachePut id b.epoch k true | none => c
    let p := c.deliverNow id l.2.1 new
    if p.2 = .ok then p.1.cmdPart id .ok else p.1
  | some b, none => (match key with | some k => (c.mirrorItem (.imported id ((b.epoch + 1) % 2 ^ 32) k b.session)).1 | none => c)
  | none, _ => c

/-- A blob read arrives (R169, R170): unwrapped into the cache when it checks and names the slot wanted, else treated as invalid with
event 0x3703; then what waited for it is answered. Of a Bobbin whose blob names no slot any more nothing is taken. -/
def Chip.blobDone (c : Chip) (id : Nat) (bytes : List Byte) : Chip :=
  let qs := c.cust.blobReads.filter (fun q => q.bob == id)
  let ls := c.cust.loads.filter (fun l => l.1 == id)
  let c := c.cu (fun u => { u with blobReads := u.blobReads.filter (fun q => q.bob != id), loads := u.loads.filter (fun l => l.1 != id) })
  match c.bob? id with
  | none => c.each (qs.filter (fun q => q.src != ownNeed)) Chip.keyServe
  | some b =>
    if qs.isEmpty && ls.isEmpty then c
    else
      let e := if b.blob = 2 then (b.epoch + 1) % 2 ^ 32 else b.epoch
      let key := match c.cust.keys.blob with
        | some k => if numAt bytes 40 4 = id && numAt bytes 44 4 = e && b.blob != 0 then Config.kwUnwrap k (slice bytes 0 40) else none
        | none => none
      let c := match key with
        | some k => (c.cachePut id e k false).blobHold id e k
        | none => if b.blob = 0 then c else (c.bobMod id (fun b => { b with blob := 0 })).logBob 0x3703 id e .integrity 0
      let c := c.each ls (fun c l => c.loadGo id key l)
      (c.each qs (fun c q => if q.src = ownNeed then c.firstKey id else c.keyServe q)).blobLeave id e

/-- The payload value that marks the ring key in a key frame (R223). -/
def ringKeyBob : Nat := 0xFFF00000

/-- A die's acknowledgement of a push (R178, R194, R223). -/
def Chip.pushAck (c : Chip) (m : Inbox) : Chip :=
  let req := numAt m.payload 8 4
  match tget? c.cust.pushes req with
  | none => c
  | some p =>
    if p.1 != m.src || p.2.1 != numAt m.payload 0 4 || p.2.2 != numAt m.payload 4 4 then c
    else
      let st := (Status.ofCode (numAt m.payload 12 1)).getD .integrity
      let c := c.cu (fun u => { u with pushes := tdel u.pushes req })
      if p.2.1 = ringKeyBob then
        if st = .ok then { c with whl := { c.whl with ringAcks := c.whl.ringAcks ++ [m.src] } } else c
      else
        match c.bob? p.2.1 with
        | some b => if p.2.2 = (b.epoch + 1) % 2 ^ 32 then c.targetDone p.2.1 (.die m.src) st else c
        | none => c

/-- A push that the ring could not deliver (R42, R178). -/
def Chip.pushLost (c : Chip) (f : RingFrame) : Chip :=
  let req := numAt f.payload 12 4
  match tget? c.cust.pushes req with
  | none => c
  | some p => (c.cu (fun u => { u with pushes := tdel u.pushes req })).targetDone p.2.1 (.die p.1) .busy

/-- A die that leaves the ring stops being a target (R226). -/
def Chip.dieLeft (c : Chip) (n : Nat) : Chip :=
  c.each ((c.cust.bobs.filter (fun e => e.2.wait.contains (.die n))).map (·.1)) (fun c i => c.targetDone i (.die n) .ok)

/-! The journal's outcomes (R180, R182, R188). -/

/-- A page program ends (R188): read back good, its records are durable here; bad, they are written again at the next page. -/
def Chip.jProgrammed (c : Chip) (ok : Bool) : Chip :=
  let page := c.cust.jrnl.page
  match page.head?, page.getLast? with
  | some f, some l =>
    let c := c.put F.BOB_JRNL_STATUS_PROGRAMMING 0
    if ok then
      let c := (c.jBurn page []).jr (fun j => { j with page := [], fails := 0, dur := max j.dur (l.2.jseq + l.2.parts.length) })
      c.jDurable
    else
      let d := c.drawBytes 32
      let c := (d.2.jBurn page d.1).add F.BOB_JRNL_STATUS_PROG_ERR 1
      let n := c.cust.jrnl.fails + 1
      let c := c.log 0x1704 uBOB (aCount f.1 0 0 (f.2.jseq % 2 ^ 32))
      let next := (f.1 / 8 + 1) * 8 % jPositions
      let c := c.jr (fun j => { j with page := [], fails := n, head := next, queue := page.map (fun e => (none, e.2)) ++ j.queue })
      if n < 3 then c
      else ((c.put F.BOB_JRNL_STATUS_FAILED 1).put F.BOB_STATUS_JRNL_FAILED 1).log 0x3701 uBOB (aCount n 0 0 (f.2.jseq % 2 ^ 32))
  | _, _ => c

/-- A sector erase ends. -/
def Chip.jErased (c : Chip) : Chip :=
  match c.cust.jrnl.erasing with
  | none => c
  | some k =>
    let a := jAddr (k * 128)
    ((c.norErase a (a + 4096)).jr (fun j => { j with erasing := none, ready := some k })).put F.BOB_JRNL_STATUS_ERASING 0

/-- Does the writer wait for a sector? -/
def Chip.jWaits (c : Chip) : Bool :=
  match c.cust.jrnl.queue with
  | [] => false
  | e :: _ =>
    let pos := c.jPlace e
    c.cust.jrnl.page.isEmpty && !c.jFailed && c.jOpen && (pos % 128 == 0 || pos / 128 != c.cust.jrnl.head / 128) &&
      c.cust.jrnl.ready != some (pos / 128)

/-! Committed records applied to a table (R189, R197, R423). -/

/-- The Bobbins a record names. -/
def JRec.ids (c : Chip) (r : JRec) : List Nat :=
  if r.first = 0xFFFFFFFF then c.hankBobs r.hank
  else (c.cust.bobs.filter (fun e => r.first ≤ e.1 && e.1 ≤ r.last)).map (·.1)

/-- A WORSTED Bobbin's tree root zero and its version forgotten, as when its descriptor is sent and at DESTROY (R240). -/
def Chip.rootZero (c : Chip) (id : Nat) : Chip :=
  match c.bob? id with
  | some b => if b.cls = clsWORSTED then (c.cu (fun u => { u with trs := tdel u.trs b.sub })).bobMod id (fun b => { b with rootVer := 0 }) else c
  | none => c

/-- A record's effect on the Bobbin table, without frames. -/
def Chip.applyRec (c : Chip) (r : JRec) : Chip :=
  let c := match r.op with
    | 0x01 =>
      let p := r.parts.getD 0 []
      let f := numAt p 2 1
      c.each ((List.range (r.last + 1 - r.first)).map (· + r.first)) (fun c i =>
        let b : Bob :=
          { cls := r.cls, hank := r.hank, sel := b2n (bit f 3), imported := bit f 2, push := bit f 1, frozen := bit f 0, blob := 0,
            strand := numAt p 0 2, warp := numAt p 3 1, limit := numAt p 4 1, sub := (numAt p 8 2 + (i - r.first)) % 65536, epoch := r.value,
            enable := 3 }
        (c.cu (fun u => { u with bobs := tput u.bobs i (c.withLayout i { b with deadline := c.deadlineOf b }) })).rootZero i)
    | 0x03 => c.each (r.ids c) (fun c i => c.bobMod i (fun b => { b with st := 4, launch := r.arg, wait := [] }))
    | 0x05 => c.each (r.ids c) (fun c i => c.bobMod i (fun b =>
        if 2 ≤ b.st && b.st ≤ 5 then { b with st := 1, launch := 0, blob := if b.blob = 2 then 0 else b.blob } else b))
    | 0x06 =>
      let c := if r.first = 0xFFFFFFFF then c.puti F.DST_HANKn_FROZEN r.hank 1 else c
      c.each (r.ids c) (fun c i => c.bobMod i (fun b =>
        { b with frozen := true, st := if 2 ≤ b.st && b.st ≤ 5 then 1 else b.st, launch := if 2 ≤ b.st && b.st ≤ 5 then 0 else b.launch }))
    | 0x07 => c.each (r.ids c) (fun c i => ((c.rootZero i).cacheDrop (fun k => k.bob == i)).cu (fun u => { u with bobs := tdel u.bobs i }))
    | 0x08 => c.each (r.ids c) (fun c i => c.bobMod i (fun b => if b.epoch = r.value then { b with hit := true } else b))
    | 0x09 => c.each (r.ids c) (fun c i => ((c.rootZero i).cacheDrop (fun k => k.bob == i)).bobMod i (fun b =>
        { b with st := 1, epoch := r.value, hit := false, blob := 0, launch := 0, deadline := c.deadlineOf b, near := false, past := false }))
    | _ => c
  (c.jName r).limitSum

/-- A record rebuilt from the journal (R189): the records that name the Bobbin, a SWITCH counting for its launch. -/
def Chip.jRebuild (c : Chip) (id : Nat) : Chip :=
  let scratch := c.cu (fun u => { u with bobs := tdel u.bobs id })
  let recs := (c.jAll.map (·.2)).filter (fun r => r.op = 0x04 || (r.first ≤ id && id ≤ r.last) || r.first = 0xFFFFFFFF)
  let out := scratch.each recs (fun s r =>
    if r.op = 0x04 then
      s.bobMod id (fun b => if b.launch = r.arg && b.st = 4 then { b with st := 1, epoch := (b.epoch + 1) % 2 ^ 32, sel := 1 - b.sel, launch := 0, hit := false } else b)
    else if r.first = 0xFFFFFFFF then (match s.bob? id with | some b => if b.hank = r.hank then s.bobMod id (fun b => { b with frozen := true }) else s | none => s)
    else s.applyRec { r with
      first := id, last := id
      parts := r.parts.map (fun p => if r.op = 0x01 then p.take 8 ++ le 2 (numAt p 8 2 + (id - r.first)) ++ p.drop 10 else p) })
  c.cu (fun u => { u with bobs := match out.bob? id with | some b => tput u.bobs id b | none => tdel u.bobs id })

/-- A record as the partner holds it, with what is committed alone (R189, R197): nothing PENDING or VERIFIED. -/
def Chip.partnerRec (c : Chip) (id : Nat) : Chip :=
  match c.bob? id with
  | none => c
  | some b => if b.st = 2 || b.st = 3 then (c.discard id false).cmdPart id .busy else c

/-- The records under repair are rebuilt (R189): as the partner holds them, or from the journal (assumption 34). -/
def Chip.repairDone (c : Chip) : Chip :=
  let rs := c.cust.repair
  (c.cu (fun u => { u with repair := [] })).each rs (fun c r => if r.2 then c.partnerRec r.1 else c.jRebuild r.1)

/-! Deadlines (R253). -/

/-- Slots from now to a 32-bit slot, modulo 2³², taken as passed when 2³¹ or more ahead (R203). -/
def Chip.slotsTo (c : Chip) (t : Nat) : Nat := (t + 2 ^ 32 - c.slot % 2 ^ 32) % 2 ^ 32

/-- `DEADLINE` − 65,536: the notice with PENDING and event 0x0903. -/
def Chip.deadlineNear (c : Chip) (id : Nat) : Chip :=
  match c.bob? id with
  | none => c
  | some b =>
    let d := c.slotsTo b.deadline
    if b.cls ≤ 2 || b.near || (65536 < d && d < 2 ^ 31) then c
    else
      ((c.bobMod id (fun b => { b with near := true })).notice 0x85 b.sub .pending b.deadline id b.epoch).logBob 0x0903 id b.epoch .pending b.deadline

/-- `DEADLINE` passes with the Bobbin unbound, or bound to a later launch (Table 9.11): LIMIT_REACHED and event 0x2905. -/
def Chip.deadlinePast (c : Chip) (id : Nat) : Chip :=
  match c.bob? id with
  | none => c
  | some b =>
    if b.cls ≤ 2 || b.past || c.slotsTo b.deadline < 2 ^ 31 then c
    else
      ((c.bobMod id (fun b => { b with past := true })).notice 0x85 b.sub .limitReached b.deadline id b.epoch).logBob 0x2905 id b.epoch .limitReached 0

end Sys2Proof.Machine
end

