-- ==== Sys2Proof/Machine/TwistOps.lean ====
section
/-!
DEFINITION. The Twist (R350 to R378): records and recipes, intake, the chain of each hank, steps, departures, seeds and receipts.
-/

namespace Sys2Proof.Machine

/-! Records (Table 13.1). -/

/-- Fields of a record. -/
def twKind (r : List Byte) : Nat := numAt r 8 1 / 16
def twHank (r : List Byte) : Nat := numAt r 8 1 % 16
def twDie (r : List Byte) : Nat := numAt r 9 1
def twSeq (r : List Byte) : Nat := numAt r 4 4
def twStrand (r : List Byte) : Nat := numAt r 10 2 % 4096
def twLayer (r : List Byte) : Nat := numAt r 12 2
def twOper (r : List Byte) : Nat := numAt r 14 2
def twCmd (r : List Byte) : Nat := numAt r 16 4
def twTensor (r : List Byte) : List Byte := slice r 20 32
def twStepOf (r : List Byte) : Nat := numAt r 52 8

/-! Recipes (Tables 13.6, 13.7). -/

/-- Fields of a recipe body. -/
def rcFlags (b : List Byte) : Nat := numAt b 7 1
def rcSeq (b : List Byte) : Nat := numAt b 8 4
def rcProgs (b : List Byte) : Nat := numAt b 12 2
def rcNoises (b : List Byte) : Nat := numAt b 14 2
def rcFirst (b : List Byte) : Nat := numAt b 16 8
def rcSigma (b : List Byte) : Nat := numAt b 24 4
def rcTally (b : List Byte) : Nat := numAt b 28 1
def rcFw (b : List Byte) : List Byte := slice b 32 48
/-- The program entries, and the noise tensors. -/
def rcProg (b : List Byte) : List (List Byte) := (List.range (rcProgs b)).map (fun i => slice b (160 + 16 * i) 16)
def rcNoise (b : List Byte) : List Nat := (List.range (rcNoises b)).map (fun i => numAt b (160 + 16 * rcProgs b + 4 * i) 4)
/-- The groups that contain a die, as a mask. -/
def rcGroups (b : List Byte) (die : Nat) : Nat := maskOf ((List.range 8).filter (fun g => bit (numAt b (80 + 8 * g) 8) die))
/-- A die's sequence (R373). -/
def rcSeqOf (b : List Byte) (die : Nat) : List (List Byte) := (rcProg b).filter (fun e => Nat.land (numAt e 8 1) (rcGroups b die) != 0)
/-- Is a recipe body well formed for a hank (R371, item 1)? -/
def rcFormat (h : Nat) (b : List Byte) : Bool :=
  b.take 4 == ascii "GGMR" && numAt b 4 2 == 1 && numAt b 6 1 == h && decide (rcFlags b < 4) && decide (rcProgs b ≤ 8192) &&
    decide (rcNoises b ≤ 256) && decide (rcTally b ≤ 8) && numAt b 29 3 == 0 && numAt b 144 16 == 0 &&
    b.length == 160 + 16 * rcProgs b + 4 * rcNoises b && (rcProg b).all (fun e => numAt e 9 3 == 0)

/-! Binary32 values as bit patterns (Table 13.8, code 0x04). -/

/-- Is the pattern a NaN? -/
def f32Nan (x : Nat) : Bool := x / 2 ^ 23 % 256 == 255 && x % 2 ^ 23 != 0
/-- Is the pattern above 0? -/
def f32Pos (x : Nat) : Bool := decide (0 < x) && decide (x ≤ 0x7F800000)
/-- Mantissa and exponent of a finite pattern: its magnitude is `m * 2 ^ (e - 149)`. -/
def f32Parts (x : Nat) : Nat × Nat :=
  let e := x / 2 ^ 23 % 256
  let f := x % 2 ^ 23
  if e = 0 then (f, 0) else (2 ^ 23 + f, e - 1)
/-- A number rounded to 53 significant bits, to nearest, ties to even (binary64). -/
def round53 (n : Nat) : Nat :=
  let k := n.log2 + 1 - 53
  let q := n / 2 ^ k
  let r := n % 2 ^ k
  (if 2 * r > 2 ^ k || (2 * r = 2 ^ k && q % 2 = 1) then q + 1 else q) * 2 ^ k
/-- `SUMSQ` > `RMS_MAX`² × `COUNT` computed in binary64, for a `RMS_MAX` above 0 and a `SUMSQ` that is no NaN. -/
def rmsOver (rms count sumsq : Nat) : Bool :=
  if rms = 0x7F800000 then false
  else if 2 ^ 31 ≤ sumsq then false
  else if sumsq = 0x7F800000 then true
  else
    let r := f32Parts rms
    let s := f32Parts sumsq
    decide (round53 (r.1 * r.1 * count) * 2 ^ (2 * r.2) < s.1 * 2 ^ (s.2 + 149))
/-- Does a record's statistics depart from an entry (code 0x04)? -/
def statsBad (entry r : List Byte) : Bool :=
  let rms := numAt entry 12 4
  f32Pos rms && (numAt r 52 4 == 0 || f32Nan (numAt r 56 4) || f32Nan (numAt r 60 4) || rmsOver rms (numAt r 52 4) (numAt r 60 4))

/-! Access. -/

/-- The chain of a hank. -/
def Chip.tw (c : Chip) (h : Nat) : Twist := tget c.twist.tab h {}
def Chip.twMod (c : Chip) (h : Nat) (f : Twist → Twist) : Chip :=
  { c with twist := { c.twist with tab := tmod c.twist.tab h {} f } }
/-- Its state (Table 13.9): 0 FREE, 1 UNCHECKED, 2 CHECKING, 3 DEPARTED, 4 FROZEN. -/
def Chip.twSt (c : Chip) (h : Nat) : Nat := c.geti F.DGT_TWn_STATUS_STATE h
def Chip.twSet (c : Chip) (h st : Nat) : Chip :=
  (c.puti F.DGT_TWn_STATUS_STATE h st).noilTrans uDGT 13 9 h (c.twSt h) st
/-- Is its chain open? -/
def Chip.twOpened (c : Chip) (h : Nat) : Bool := decide (h < 16) && c.geti F.DGT_TWn_CTRL_OPEN h == 1
/-- The active strand of a hank. -/
def Chip.twActive (c : Chip) (h : Nat) : Nat := match tget? c.hanks.tab h with | some k => k.active | none => 0
/-- The released dies of a hank, as the step rules count them (R359). -/
def Chip.twDies (c : Chip) (h : Nat) : List Nat := c.hankCarded h
/-- The hank that holds a die. -/
def Chip.hankOfDie (c : Chip) (n : Nat) : Option Nat := (c.hanks.tab.find? (fun e => bit e.2.dies n)).map (·.1)
/-- The step whose records run. -/
def Twist.open? (t : Twist) : Option TwStep := t.steps.find? (·.running)
/-- The running step changed. -/
def Chip.twStepMod (c : Chip) (h : Nat) (f : TwStep → TwStep) : Chip :=
  c.twMod h (fun t => { t with steps := t.steps.map (fun s => if s.running then f s else s) })
/-- `PENDING` and the noise of step states, kept current. -/
def Chip.twPending (c : Chip) (h : Nat) : Chip :=
  c.puti F.DGT_TWn_STATUS_PENDING h (min 31 ((c.tw h).steps.filter (fun s => s.st == 2 || s.st == 3)).length)

/-! Intake (R352 to R354). -/

/-- A record the Gegrim inserts (Table 13.2): bytes 10 and 11 hold the hank's active strand (assumption 47). -/
def Chip.twInsert (c : Chip) (h kind die layer : Nat) (tensor tail : List Byte) : List Byte :=
  pack [(4, c.slot % 2 ^ 32), (4, 0), (1, 16 * kind + h), (1, die), (2, c.twActive h), (2, layer), (2, 0), (4, 0)] ++ padTo 32 tensor ++ padTo 12 tail

/-- An event of the Twist. -/
def Chip.twLog (c : Chip) (code h die strand step cause count num : Nat) : Chip :=
  c.log code uDGT (aStep h die strand step cause 0 count num)

/-- One record of a batch: dropped, or put into the intake behind a GAP record where records are missing (R352, R354). The records that
went in are returned.
Whether the record's DIE byte is the die the batch came from is not compared: this model's choice (assumption 159). -/
def Chip.twTake (c : Chip) (src : Nat) (r : List Byte) : Chip × List (Bool × List Byte) :=
  if twKind r = 0 then (c, [])
  else if c.hankOfDie src != some (twHank r) || !c.twOpened (twHank r) then
    (c.twLog 0x1D01 (twHank r) src (twStrand r) 0 (twKind r) 1 (twSeq r), [])
  else
    let want := tget c.twist.next src 0
    let h := twHank r
    if twSeq r < want then
      let c := (c.add F.DGT_TW_DUP_COUNT 1).count 33 1
      (c.logOnce 0x1D02 src uDGT (aStep h src (twStrand r) 0 0 0 1 (twSeq r)), [])
    else
      let c := { c with twist := { c.twist with next := tput c.twist.next src (twSeq r + 1) } }
      if twSeq r = want then (c, [(false, r)])
      else
        let n := twSeq r - want
        (c.twLog 0x2D01 h src (twStrand r) 0 0 (min n 65535) want,
          [(true, c.twInsert h 8 src 0 [] (pack [(4, want), (4, n)])), (false, r)])

/-- `DGT_TW_STATUS.INTAKE` kept current. -/
def Chip.twIntake (c : Chip) (q : List (Bool × List Byte)) : Chip :=
  Chip.put { c with twist := { c.twist with intake := q } } F.DGT_TW_STATUS_INTAKE q.length

/-- Hanks of the quiet class that hold their reservations: LIVE or FROZEN with `QUIET` (R413, R414). -/
def Chip.quietHanks (c : Chip) : List Nat := (c.hanks.tab.filter (fun e => bit e.2.flags 0 && decide (3 ≤ e.2.st))).map (·.1)

/-- Has the intake room for `n` more records of a die: 4,096 in all, of which 256 are kept for each quiet hank (R352, R414)? -/
def Chip.twRoom (c : Chip) (src n : Nat) : Bool :=
  let used := fun (h : Nat) => (c.twist.intake.filter (fun q => twHank q.2 == h)).length
  let q := c.quietHanks
  let own := match c.hankOfDie src with | some h => h | none => 16
  let kept := q.foldl (fun s h => s + max 256 (used h + (if h = own then n else 0))) 0
  let others := (c.twist.intake.filter (fun r => !q.contains (twHank r.2))).length + (if q.contains own then 0 else n)
  (q.contains own && decide (used own + n ≤ 256)) || decide (kept + others ≤ 4096)

/-- A TWIST_BATCH reaches the fold unit of the lease holder.
A batch that comes while `EN` is 0 is dropped unacknowledged: this model's choice (assumption 158). -/
def Chip.twBatch (c : Chip) (m : Inbox) : Chip :=
  if !c.leads || c.get F.DGT_TW_CTRL_EN = 0 then c
  else if !c.carded m.src then c.twLog 0x1D01 0 m.src 0 0 0 3 0
  else
    let t := (List.range 3).foldl (fun (acc : Chip × List (Bool × List Byte)) i =>
      let p := acc.1.twTake m.src (slice m.payload (64 * i) 64)
      (p.1, acc.2 ++ p.2)) (c, [])
    if !c.twRoom m.src t.2.length then
      let k := rxKey m.src c.ring.rkey
      let c := { c with ring := { c.ring with replay := c.ring.replay.map (fun (e : Nat × Replay) =>
        if e.1 = k then (e.1, { e.2 with seen := e.2.seen.filter (· != m.seq) }) else e) } }
      let c := (c.ringSend 0x7E m.src (pack [(4, m.seq), (1, 2)])).count 35 1
      c.logOnce 0x1D05 0 uDGT (aStep 0 m.src 0 0 0 0 c.twist.intake.length 0)
    else
      let c := t.1.twIntake (t.1.twist.intake ++ t.2)
      c.mirrorThen (.twist m.src (t.2.map (·.2)).flatten) (.ack m.src m.seq)

/-! The chain (R355 to R358). -/

/-- The initial head of a segment. -/
def twHead0 (h ceremony g : Nat) (f : List Byte) : List Byte :=
  Config.sha3_384 (ascii "GGM-1 TWIST" ++ le 1 h ++ le 4 ceremony ++ le 4 g ++ f)

/-- Fold a record: the new head, its place in the log (R355, R357). -/
def Chip.twChain (c : Chip) (h : Nat) (r : List Byte) : Chip :=
  let g := c.geti F.DGT_TWn_SEGMENT_NUM h
  let i := c.geti F.DGT_TWn_RECORDS_COUNT h
  let gran := c.geti F.DGT_TWn_LOG_LEN_GRANULES h
  let cap := (gran * 2 ^ 22 - 2 ^ 24) / 64
  let c := c.twMod h (fun t => { t with head := Config.sha3_384 (t.head ++ r), word := 0, done := t.done ++ r })
  let c := (c.puti F.DGT_TWn_RECORDS_COUNT h (i + 1)).count 32 1
  if c.leads && 0 < cap then
    c.portReq true (.twistLog true 0xFD (c.get64 (R.DGT_TWn_LOG_LO h) + 2 ^ 24 + 64 * ((g * 2097152 + i) % cap)) r)
  else c

/-- Seal the segment (R358); `again` begins the next one. -/
def Chip.twSeal (c : Chip) (h : Nat) (again : Bool) : Chip :=
  let g := c.geti F.DGT_TWn_SEGMENT_NUM h
  let n := c.geti F.DGT_TWn_RECORDS_COUNT h + 1
  let c := c.twChain h (c.twInsert h 0xC c.node 0 [] (pack [(4, n), (4, g)]))
  let c := c.twLog 0x0D02 h c.node (c.twActive h) 0 0 0 g
  if again then
    let c := (c.puti F.DGT_TWn_SEGMENT_NUM h (g + 1)).puti F.DGT_TWn_RECORDS_COUNT h 0
    c.twMod h (fun t => { t with head := twHead0 h t.ceremony ((g + 1) % 2 ^ 32) t.head, word := 0 })
  else c

/-- A record folded, its segment sealed when full. -/
def Chip.twFull (c : Chip) (h : Nat) (r : List Byte) : Chip :=
  let c := c.twChain h r
  if c.geti F.DGT_TWn_RECORDS_COUNT h = 2097151 then c.twSeal h true else c

/-- What was folded is mirrored in fold order; steps captured meanwhile wait for it (R353, Table 13.3; assumption 46). -/
def Chip.twMirror (c : Chip) (h : Nat) : Chip :=
  let t := c.tw h
  let p := if t.done.isEmpty || !c.leads then (c, 0) else c.mirrorItem (.twist (128 + h) t.done)
  p.1.twMod h (fun t => { t with
    done := []
    steps := t.steps.map (fun s => if s.st = 2 && s.mseq.isNone then { s with mseq := some p.2 } else s) })

/-! Departures (R373 to R375). -/

/-- The compute firmware digest a die was released with (Table 5.9). -/
def Chip.dieFw (c : Chip) (n : Nat) : List Byte := slice (c.cardDie n).meas 64 48

/-- Steps in OPEN or AWAITING become WITHHELD. -/
def Chip.twWithhold (c : Chip) (h : Nat) : Chip :=
  (c.twMod h (fun t => { t with steps := t.steps.map (fun s => if s.st = 1 || s.st = 2 then { s with st := 5 } else s) })).twPending h

/-- The freeze of a departure: notices to the dies and the whole-hank FREEZE (R375; assumption 26). -/
def Chip.twFreeze (c : Chip) (h step : Nat) : Chip :=
  let c := c.each (c.hankDies h) (fun c n => c.push n (0xFFD00000 + h) (step % 2 ^ 32) .denied 0 0 0 none)
  let c := c.each (c.hankBobs h) Chip.freezeBob
  let c := c.hankFrozen h
  if c.journalBar.isNone then (c.jWrite { jseq := 0, op := 0x06, hank := h, first := 0xFFFFFFFF, last := 0xFFFFFFFF }).1 else c

/-- A departure. -/
def Chip.twDepart (c : Chip) (h code die step seq : Nat) : Chip :=
  let c := c.twFull h (c.twInsert h 0xB die code [] (pack [(8, step), (4, seq)]))
  let c := c.twLog 0x3D01 h die (c.twActive h) step code 0 seq
  let c := if c.geti F.DGT_TWn_STATUS_DEPART_CODE h = 0 then
      (c.puti F.DGT_TWn_STATUS_DEPART_CODE h code).puti F.DGT_TWn_STATUS_DEPART_DIE h die else c
  if c.twSt h != 2 then c
  else
    let freeze := bit (rcFlags (c.tw h).recipe) 0
    let c := (c.twSet h (if freeze then 4 else 3)).twWithhold h
    if freeze then (c.twFreeze h step).twLog 0x3D02 h die (c.twActive h) step code 0 seq else c

/-- Is a STEP_BEGIN in order (R359)? `running` is the step under way, `first` the recipe's `FIRST_STEP`. -/
def Twist.beginOk (t : Twist) (r : List Byte) : Bool :=
  let s := twStepOf r
  let resume := bit (twLayer r) 0
  let next := match t.last with
    | none => decide ((if t.recipe.isEmpty then 0 else rcFirst t.recipe) ≤ s)
    | some l => s == l + 1
  match t.open? with
  | some o => o.num == s && !o.begun.any (fun b => b.1 == twDie r) &&
      (next || (resume && o.begun.all (fun b => bit b.2.1 0)))
  | none => next || (resume && decide (0 < s) && t.resumable.contains (s - 1))

/-- The first check of Table 13.8 that a record from an agent fails, before its effect on the step. -/
def Chip.twCheck (c : Chip) (h : Nat) (r : List Byte) : Option Nat :=
  let t := c.tw h
  let b := t.recipe
  if b.isEmpty then none
  else
    let die := twDie r
    let k := twKind r
    let sq := rcSeqOf b die
    let p := tget? t.pos die
    let entry := match p with | some i => sq[i]? | none => none
    let opBad := match entry with
      | some e => numAt e 0 2 != twLayer r || numAt e 2 2 != twOper r || numAt e 4 4 != twCmd r
      | none => false
    let extra := rcGroups b die == 0 || (match p with | some i => decide (sq.length ≤ i) | none => false)
    let missing := match p with | some i => decide (i < sq.length) | none => false
    let stats := match entry with | some e => statsBad e r | none => false
    let disagree := bit (rcFlags b) 1 && (match t.open? with
      | some o => o.num == twStepOf r && o.begun.any (fun q => q.2.2 != twTensor r)
      | none => false)
    let list : List (Bool × Nat) :=
      [(k == 1 && opBad, 0x01), (k == 3 && missing, 0x02), (k == 1 && extra, 0x03), (k == 1 && stats, 0x04), (k == 2 && disagree, 0x05),
       (k == 2 && !t.beginOk r, 0x06), (twStrand r != c.twActive h, 0x09), (k == 0 || decide (5 ≤ k), 0x0B)]
    (list.find? (·.1)).map (·.2)

/-! Steps (R359 to R364). -/

/-- The seeds of a step go to the released dies, once (R365, R366). -/
def Chip.twSeeds (c : Chip) (h s : Nat) : Chip :=
  let t := c.tw h
  match tget? c.cust.keys.noise h with
  | none => c
  | some kn =>
    if t.seeds.contains s || !c.leads then c
    else
      let c := c.twMod h (fun t => { t with seeds := newest 64 (t.seeds ++ [s]) })
      c.each (rcNoise t.recipe) (fun c x =>
        let seed := Config.kmac256 kn (ascii "seed" ++ le 8 s ++ le 4 x) (ascii "GGM-1 NOISE") 32
        c.each (c.twDies h) (fun c n => c.push n (0xFFE00000 + h) x .ok 0 0 s (some seed)))

/-- A record's effect on its hank's steps. -/
def Chip.twStepRec (c : Chip) (h : Nat) (r : List Byte) : Chip :=
  let t := c.tw h
  let s := twStepOf r
  let die := twDie r
  match twKind r with
  | 1 => c.twMod h (fun t => { t with pos := t.pos.map (fun e => if e.1 = die then (e.1, e.2 + 1) else e) })
  | 2 =>
    let c := c.twMod h (fun t => { t with pos := tput t.pos die 0 })
    let c := c.countReset 4 (fun i => c.geti F.DBG_CNTi_CFG_HANK i == h)
    let ent := (die, twLayer r, twTensor r)
    match t.open? with
    | some o => if o.num = s && !o.begun.any (fun b => b.1 == die) then c.twStepMod h (fun o => { o with begun := o.begun ++ [ent] }) else c
    | none =>
      let st := if c.twSt h = 3 || c.twSt h = 4 then 5 else 1
      let c := c.twMod h (fun t => { t with steps := t.steps ++ [{ num := s, st := st, begun := [ent], recipe := t.recipe }] })
      (c.twSeeds h s).twSeeds h (s + 1)
  | 3 => match t.open? with
    | some o => if o.num = s && o.begun.any (fun b => b.1 == die) then c.twStepMod h (fun o => { o with ended := o.ended ++ [die] }) else c
    | none => c
  | 4 => match t.open? with
    | some o => if o.num = s then c.twStepMod h (fun o => { o with ckpts := o.ckpts ++ [(die, numAt r 12 4, twTensor r)] }) else c
    | none => c
  | _ => c

/-- A step is complete once every released die of the hank has ended it; its head is captured (R359, Table 13.3). -/
def Chip.twComplete (c : Chip) (h : Nat) : Chip :=
  let t := c.tw h
  match t.open? with
  | none => c
  | some o =>
    if o.ended.isEmpty || !(c.twDies h).all o.ended.contains then c
    else
      let c := c.twStepMod h (fun s => { s with
        running := false
        st := if s.st = 1 then 2 else s.st
        seg := c.geti F.DGT_TWn_SEGMENT_NUM h
        recs := c.geti F.DGT_TWn_RECORDS_COUNT h
        head := t.head
        time := c.time })
      let c := ((c.twMod h (fun t => { t with last := some o.num })).put64i F.DGT_TWn_STEP_LO_STEP h o.num).twPending h
      let done := ((c.tw h).steps.filter (fun s => s.st != 6 && !s.running))
      match done.find? (fun s => s.st == 2) with
      | some s =>
        if ((done.dropWhile (fun q => q != s)).drop 1).length < 16 || !c.leads then c
        else
          let c := c.twMod h (fun t => { t with steps := t.steps.map (fun q => if q = s then { q with st := 5 } else q) })
          (if s.recipe.isEmpty then c else c.twDepart h 0x0A c.node s.num 0).twPending h
      | none => c

/-- The recipe accepted takes effect at a STEP_BEGIN (R372). -/
def Chip.twEffect (c : Chip) (h : Nat) : Chip :=
  let b := (c.tw h).next
  let c := c.twSeal h true
  let c := c.twFull h (c.twInsert h 0xA c.node 0 ((Config.sha3_384 b).take 32) (pack [(4, rcSeq b)]))
  let d := c.draw
  let c := (d.2.puti F.DGT_TWn_PROG_COUNT h (rcProgs b)).puti F.DGT_TWn_PROG_BASE h (d.1 % 2 ^ 14)
  let c := c.twMod h (fun t => { t with recipe := b, next := [], last := none, pos := [] })
  let c := (if c.twSt h = 4 then c else c.twSet h 2).twLog 0x0D01 h c.node (c.twActive h) (rcFirst b) 0 0 (rcSeq b)
  if numAt (rcFw b) 0 48 = 0 then c
  else c.each ((c.twDies h).filter (fun n => c.dieFw n != rcFw b)) (fun c n => c.twDepart h 0x08 n (rcFirst b) 0)

/-- The watch record of an OP record (R508). -/
def Chip.twWatch (c : Chip) (h : Nat) (r : List Byte) : Chip :=
  if twKind r = 1 && bit (c.get F.DBG_CTRL_WATCH) h then
    let step := match (c.tw h).open? with | some o => o.num | none => 0
    c.trace 16 0x20 (h + 256 * twDie r) (slice r 12 4 ++ le 4 step ++ slice r 52 12)
  else c

/-- The fold unit of the lead folds one record of the intake. -/
def Chip.twFoldOne (c : Chip) (h : Nat) (q : Bool × List Byte) : Chip :=
  let r := q.2
  let step := match (c.tw h).open? with | some o => o.num | none => (c.tw h).last.getD 0
  if q.1 then
    let c := (c.twFull h r).twStepMod h (fun o => { o with gap := true })
    let c := c.addi F.DGT_TWn_COUNTS_GAPS h 1 |>.count 34 1
    if (c.tw h).recipe.isEmpty then c else c.twDepart h 0x07 (twDie r) step (numAt r 52 4)
  else
    let t := c.tw h
    let c := if twKind r = 2 && !t.next.isEmpty && t.open?.isNone && decide (rcFirst t.next ≤ twStepOf r) then c.twEffect h else c
    let c := (c.twFull h r).twWatch h r
    let code := c.twCheck h r
    let c := c.twStepRec h r
    let c := match code with
      | some k => c.twDepart h k (twDie r) (if twKind r = 1 || 5 ≤ twKind r then step else twStepOf r) (twSeq r)
      | none => c
    if twKind r = 3 then c.twComplete h else c

/-- The next unit of a hank: up to 32 of its records, in intake order (R356). -/
def Chip.twFold (c : Chip) (h : Nat) : Chip :=
  if !c.leads || !c.svcUp || c.get F.DGT_TW_CTRL_EN = 0 || !c.twOpened h || c.grp 1 != 2 then c
  else
    let mine := (c.twist.intake.filter (fun q => twHank q.2 == h)).take 32
    let rest := c.twist.intake.foldl (fun (acc : List (Bool × List Byte) × Nat) q =>
      if twHank q.2 = h && acc.2 < 32 then (acc.1, acc.2 + 1) else (acc.1 ++ [q], acc.2)) ([], 0)
    ((c.twIntake rest.1).each mine (fun c q => c.twFoldOne h q)).twMirror h

/-- The follow folds what the lead folded, and inserts nothing (R353). -/
def Chip.twFollow (c : Chip) (h : Nat) (recs : List Byte) : Chip :=
  c.each ((List.range (recs.length / 64)).map (fun i => slice recs (64 * i) 64)) (fun c r =>
    let c := match c.twist.intake.find? (fun q => q.2 == r) with
      | some q => c.twIntake (c.twist.intake.erase q)
      | none => c
    let c := c.twChain h r
    match twKind r with
    | 0x8 => (c.twStepMod h (fun o => { o with gap := true })).addi F.DGT_TWn_COUNTS_GAPS h 1
    | 0xA =>
      let c := c.twMod h (fun t => { t with recipe := t.next, next := [], last := none, pos := [] })
      if c.twSt h = 4 then c else c.twSet h 2
    | 0xB => (if c.twSt h = 2 then (c.twSet h (if bit (rcFlags (c.tw h).recipe) 0 then 4 else 3)).twWithhold h else c)
    | 0xC =>
      let g := c.geti F.DGT_TWn_SEGMENT_NUM h
      let c := (c.puti F.DGT_TWn_SEGMENT_NUM h (g + 1)).puti F.DGT_TWn_RECORDS_COUNT h 0
      c.twMod h (fun t => { t with head := twHead0 h t.ceremony ((g + 1) % 2 ^ 32) t.head, done := [] })
    | 0xD => (c.twStepMod h (fun o => { o with st := 6, running := false })).addi F.DGT_TWn_COUNTS_VOIDS h 1
    | 3 => (c.twStepRec h r).twComplete h |>.twMod h (fun t => { t with
        done := [], steps := t.steps.map (fun s => if s.st = 2 then { s with mseq := some 0 } else s) })
    | _ => (c.twStepRec h r).twMod h (fun t => { t with done := [] }))

/-- A step made VOID (R361): an OPEN one, at a teardown an AWAITING one too. -/
def Chip.twVoid (c : Chip) (h cause : Nat) : Chip :=
  let t := c.tw h
  let gone := t.steps.filter (fun s => (s.running && s.st == 1) || (cause == 3 && (s.st == 1 || s.st == 2)))
  let c := c.twMod h (fun t => { t with steps := t.steps.map (fun s =>
    if gone.contains s then { s with st := 6, running := false } else if s.running then { s with running := false } else s) })
  let c := c.each gone (fun c s =>
    let c := if c.leads then c.twFull h (c.twInsert h 0xD c.node cause [] (pack [(8, s.num)])) else c
    (c.addi F.DGT_TWn_COUNTS_VOIDS h 1).twLog 0x1D04 h c.node (c.twActive h) s.num cause 0 0)
  c.twPending h

/-- A die of a hank leaves RELEASED (Table 13.3, cause 0x01). -/
def Chip.twDieLeft (c : Chip) (n : Nat) : Chip :=
  match c.hankOfDie n with
  | some h => if c.leads && c.twOpened h && (c.tw h).open?.isSome then (c.twVoid h 1).twMirror h else c
  | none => c

/-- A strand switch fires: STRAND, then VOID of an OPEN step (Tables 13.2, 13.3). -/
def Chip.twStrand (c : Chip) (h out into num : Nat) : Chip :=
  if !c.leads || !c.twOpened h then c
  else
    let c := c.twFull h (c.twInsert h 9 c.node 0 [] (pack [(2, out), (2, into), (4, num)]))
    (c.twVoid h 2).twMirror h

/-- A die is released: its records number from 0, and a recipe in force checks its firmware (R354, R372). -/
def Chip.twReleased (c : Chip) (n : Nat) : Chip :=
  let c := { c with twist := { c.twist with next := tdel c.twist.next n } }
  match c.hankOfDie n with
  | some h =>
    let b := (c.tw h).recipe
    if c.leads && c.twOpened h && !b.isEmpty && numAt (rcFw b) 0 48 != 0 && c.dieFw n != rcFw b then
      (c.twDepart h 0x08 n ((c.tw h).last.getD 0) 0).twMirror h else c
  | none => c

/-- A chain opens at a hank's creation (Table 13.9); a recipe given then takes effect at its first step (assumption 49). -/
def Chip.twOpen (c : Chip) (h ceremony base granules : Nat) (recipe : List Byte) : Chip :=
  let c := c.resetCopy h 16 (R.DGT_TWn_CTRL h) (R.DGT_TWn_CTRL h + 0x40)
  let c := (c.put64i F.DGT_TWn_LOG_LO_ADDR h base).puti F.DGT_TWn_LOG_LEN_GRANULES h granules
  let c := c.twMod h (fun _ => { ceremony := ceremony, head := twHead0 h ceremony 0 (List.replicate 48 0#8), next := recipe, mark := (0, 0, twHead0 h ceremony 0 (List.replicate 48 0#8), 0) })
  let c := c.twSet h (if recipe.isEmpty then 1 else 2)
  c.puti F.DGT_TWn_CTRL_OPEN h 1

/-- A hank's chain ends with its teardown (R358, Table 13.9). -/
def Chip.twClose (c : Chip) (h : Nat) : Chip :=
  if !c.twOpened h then c
  else
    let c := c.twVoid h 3
    let c := (if c.leads then c.twSeal h false else c).twMirror h
    let c := ((c.puti F.DGT_TWn_CTRL_OPEN h 0).twSet h 0).puti F.DGT_TWn_PROG_COUNT h 0
    let c := c.twIntake (c.twist.intake.filter (fun q => twHank q.2 != h))
    c.twMod h (fun t => { t with recipe := [], next := [], receipts := [], resumable := [], pos := [] })

/-- Program entries in the store, those of a hank apart (R371, item 4; assumption 50). -/
def Chip.rcUsed (c : Chip) (h : Nat) : Nat :=
  c.twist.tab.foldl (fun n e => if e.1 = h then n else n + rcProgs (if e.2.next.isEmpty then e.2.recipe else e.2.next)) 0

/-- What a recipe is refused for (R371). -/
def Chip.rcStatus (c : Chip) (h : Nat) (b : List Byte) : Status :=
  let t := c.tw h
  let last := if t.next.isEmpty then t.recipe else t.next
  if !rcFormat h b then .badArg
  else if !last.isEmpty && rcSeq b ≤ rcSeq last then .staleEpoch
  else if c.twSt h = 4 then .denied
  else if 16384 < c.rcUsed h + rcProgs b then .limitReached
  else .ok

/-- A recipe is accepted or refused (R371); `DGT_TW_STATUS.RECIPE_USED` follows. -/
def Chip.rcAccept (c : Chip) (h : Nat) (b : List Byte) : Chip × Status :=
  let st := c.rcStatus h b
  if st = .ok then
    ((c.put F.DGT_TW_STATUS_RECIPE_USED (c.rcUsed h + rcProgs b)).twMod h (fun t => { t with next := b }), .ok)
  else (c.log 0x1D03 uDGT (aStep h c.node (c.twActive h) 0 0 st.code 0 (rcSeq b)), st)

/-! Receipts (R362 to R369). -/

/-- A Merkle root over a list (R362). -/
def merkleUp (xs : List (List Byte)) (fuel : Nat) : List Byte :=
  match fuel, xs with
  | 0, _ => xs.headD []
  | _, [] => List.replicate 32 0#8
  | _, [x] => x
  | fuel + 1, xs => merkleUp ((List.range ((xs.length + 1) / 2)).map (fun i =>
      match xs[2 * i]?, xs[2 * i + 1]? with
      | some a, some b => Config.sha3_256 (le 1 1 ++ a ++ b)
      | some a, none => a
      | none, _ => [])) fuel

/-- The data root of a step. -/
def TwStep.dataRoot (s : TwStep) : List Byte :=
  let bs := s.begun.mergeSort (fun a b => decide (a.1 ≤ b.1))
  if bit (rcFlags s.recipe) 1 && !s.recipe.isEmpty then (match bs with | b :: _ => b.2.2 | [] => List.replicate 32 0#8)
  else merkleUp (bs.map (fun b => Config.sha3_256 (le 1 0 ++ le 1 b.1 ++ b.2.2))) 7

/-- The checkpoint digest of a step (R363). -/
def TwStep.ckptDigest (s : TwStep) : List Byte :=
  if s.ckpts.isEmpty then List.replicate 48 0#8
  else Config.sha3_384 ((s.ckpts.mergeSort (fun a b => decide (a.1 < b.1) || (a.1 == b.1 && decide (a.2.1 ≤ b.2.1)))).map (·.2.2)).flatten

/-- How many accumulations a step has, whether they are all sealed, and the Tally digest (R364). -/
def TwStep.tallyN (s : TwStep) : Nat := if s.recipe.isEmpty then 0 else rcTally s.recipe
def TwStep.tallyDone (s : TwStep) : Bool := (List.range s.tallyN).all (fun v => (tget? s.tallies v).isSome)
def TwStep.tallyDigest (s : TwStep) : List Byte :=
  if s.tallyN = 0 then List.replicate 48 0#8
  else Config.sha3_384 ((List.range s.tallyN).map (fun v => tget s.tallies v [])).flatten

/-- A seed of a hank's step (R365). -/
def Chip.seedOf (c : Chip) (h s x : Nat) : List Byte :=
  Config.kmac256 (tget c.cust.keys.noise h []) (ascii "seed" ++ le 8 s ++ le 4 x) (ascii "GGM-1 NOISE") 32

/-- The noise commitment of a step (R367). -/
def Chip.commitment (c : Chip) (h : Nat) (s : TwStep) : List Byte :=
  let ts := if s.recipe.isEmpty then [] else rcNoise s.recipe
  if ts.isEmpty then List.replicate 48 0#8
  else Config.sha3_384 (ascii "GGM-1 NOISE" ++ le 1 h ++ le 8 s.num ++
    (ts.map (fun x => le 4 x ++ Config.sha3_256 (c.seedOf h s.num x))).flatten)

/-- A receipt's payload (Table 13.4). -/
def Chip.receiptPayload (c : Chip) (h : Nat) (s : TwStep) : List Byte :=
  let none_ := s.recipe.isEmpty
  let flags := b2n none_ + (if !none_ && bit (rcFlags s.recipe) 1 then 2 else 0) +
    (if !s.begun.isEmpty && s.begun.all (fun b => bit b.2.1 0) then 4 else 0) + (if s.gap then 8 else 0)
  cMapU [(1, cUint 1), (2, cUint h), (3, cUint (c.tw h).ceremony), (4, cUint s.num), (5, cUint s.seg), (6, cUint s.recs), (7, cBytes s.head),
    (8, cBytes (if none_ then List.replicate 48 0#8 else Config.sha3_384 s.recipe)), (9, cBytes s.dataRoot), (10, cBytes (c.commitment h s)),
    (11, cUint (if none_ then 0 else rcSigma s.recipe)), (12, cBytes s.tallyDigest), (13, cBytes s.ckptDigest), (14, cUint s.time), (15, cUint flags)]

/-- Steps whose Tally is complete and whose fold the partner holds go to SIGNING (Table 13.3). -/
def Chip.twSigning (c : Chip) (h : Nat) : Chip :=
  if !c.leads then c
  else
    (c.twMod h (fun t => { t with steps := t.steps.map (fun s =>
      if s.st = 2 && s.tallyDone && (match s.mseq with | some n => n = 0 || decide (n ≤ c.ply.macked) || !c.waitsPartner | none => false)
      then { s with st := 3, signT := c.time } else s) })).twPending h

/-- The oldest step of a hank in SIGNING, none when an older one still waits: receipts are signed in step order (R369). -/
def Twist.signing? (t : Twist) : Option TwStep :=
  match t.steps.find? (fun s => s.st == 2 || s.st == 3) with
  | some s => if s.st = 3 then some s else none
  | none => none

/-- A COSE_Sign message with its randomness drawn (R263, R264): 56 bytes for the ECDSA nonce, then 32 for ML-DSA. -/
def Chip.coseSigned (c : Chip) (payload : List Byte) (t : Nat) : List Byte × Chip :=
  let e := c.rnd 56
  let d := e.2.rnd 32
  (d.2.coseSign payload t e.1 d.1, d.2)

/-- A receipt is signed (R369): written to its place in the log, kept by Roving, its step's checkpoint a point to resume from. -/
def Chip.twSigned (c : Chip) (h : Nat) : Chip :=
  match (c.tw h).signing? with
  | none => c
  | some s =>
    let d := c.coseSigned (c.receiptPayload h s) s.signT
    let rcpt := d.1
    let c := (d.2.twMod h (fun t => { t with
      steps := t.steps.map (fun q => if q = s then { q with st := 4, receipt := rcpt } else q)
      receipts := newest 16 (t.receipts ++ [(s.num, rcpt)])
      mark := (s.seg, s.recs, s.head, s.num)
      resumable := if s.ckpts.isEmpty then t.resumable else newest 64 (t.resumable ++ [s.num]) })).twPending h
    let c := c.portReq true (.twistLog true 0xFD (c.get64 (R.DGT_TWn_LOG_LO h) + 4096 * (s.num % 4096)) (le 4 rcpt.length ++ rcpt))
    (c.count 36 1).twLog 0x0D03 h c.node (c.twActive h) s.num 0 0 s.seg

/-- The newest run of a step. -/
def Twist.newestRun (t : Twist) (n : Nat) : Option TwStep := t.steps.reverse.find? (fun s => s.num == n)

/-- The word a read of `DGT_TWn_HEAD` returns, the pointer moved (R276, R380). -/
def Chip.twHeadRead (c : Chip) (h : Nat) : Chip × Nat :=
  let t := c.tw h
  (c.twMod h (fun t => { t with word := (t.word + 1) % 12 }), numAt t.head (4 * t.word) 4)

end Sys2Proof.Machine
end

