-- ==== Sys2Proof/Machine/TallyOps.lean ====
section
/-!
DEFINITION. The Tally engine (R285 to R289): conversion to fixed point, masks that cancel, accumulation and the result record.
-/

namespace Sys2Proof.Machine

/-- 2^64 and the saturation bound. -/
def two64 : Nat := 2 ^ 64
def tlyMax : Nat := 2 ^ 58 - 1

/-- `m · 2^s / 2^126` rounded half to even, for the exponent field `e` of an fp32 value (1 for a subnormal one). -/
def roundEven (m e : Nat) : Nat :=
  if 126 ≤ e then m * 2 ^ (e - 126)
  else
    let d := 2 ^ (126 - e)
    let q := m / d
    let r := m % d
    if 2 * r < d then q else if d < 2 * r then q + 1 else q + q % 2

/-- An fp32 value in 64-bit fixed point with scale 2⁻²⁴ (R286): the value, and whether it saturated or was NaN. -/
def tlyConvert (x : Nat) : Nat × Bool × Bool :=
  let neg := bit x 31
  let e := x / 2 ^ 23 % 256
  let f := x % 2 ^ 23
  if e = 255 && f != 0 then (0, false, true)
  else
    let r := if e = 255 then 2 ^ 64 else if e = 0 then roundEven f 1 else roundEven (f + 2 ^ 23) e
    let sat := decide (tlyMax < r)
    let v := if sat then tlyMax else r
    (if neg then (two64 - v) % two64 else v, sat, false)

/-- Element bytes of a format: fp32, bf16, fixed. -/
def tlySize (fmt : Nat) : Nat := match fmt with | 0 => 4 | 1 => 2 | _ => 8

/-- Element `j` of a contribution, converted (R286, R287). -/
def tlyElem (fmt : Nat) (d : List Byte) (j : Nat) : Nat × Bool × Bool :=
  match fmt with
  | 0 => tlyConvert (numAt d (4 * j) 4)
  | 1 => tlyConvert (numAt d (2 * j) 2 * 65536)
  | _ => (numAt d (8 * j) 8, false, false)

/-- The pad of an owner at an element (R287). -/
def tlyPad (ka : List Byte) (i j : Nat) : Nat :=
  numAt (Config.kmac256 ka (ascii "tally" ++ le 1 i ++ le 4 (j / 8)) (ascii "GGM-1 TALLY") 64) (8 * (j % 8)) 8

/-- The owner after `o` in a set, in ascending order and round again. -/
def tlyAfter (mask o : Nat) : Nat :=
  let os := bitsIn mask 32
  ((os.find? (fun x => decide (o < x))).getD (os.headD o))

/-- The mask the engine adds to element `j` of an owner's contribution; none in fixed format. -/
def tlyMask (ka : List Byte) (fmt mask o j : Nat) : Nat :=
  if fmt = 2 then 0 else tlyPad ka o j + (two64 - tlyPad ka (tlyAfter mask o) j % two64)

/-- Elements of an accumulation: 0 encodes 32,768. -/
def Chip.acLen (c : Chip) (n : Nat) : Nat := if c.geti F.TLY_ACCn_LEN_ELEMS n = 0 then 32768 else c.geti F.TLY_ACCn_LEN_ELEMS n

/-- `TLY_STATUS` after a command. -/
def Chip.tlyLast (c : Chip) (n : Nat) (st : Status) : Chip := (c.put F.TLY_STATUS_LAST st.code).put F.TLY_STATUS_ACC n

/-- What meets a command of the engine first: BUSY while one runs, POWERED_DOWN for a disabled or FAILED group (R61, R288). -/
def Chip.tlyBar (c : Chip) : List (Bool × Status) :=
  [(c.get F.TLY_STATUS_BUSY == 1, .busy), (c.grp 5 == 3 || bit (c.get F.PWR_GRP_CTRL_DISABLE) 4, .poweredDown)]

/-- An accumulator moves to a state. -/
def Chip.acPut (c : Chip) (n st : Nat) : Chip := (c.puti F.TLY_ACCn_STATUS_STATE n st).noilTrans uTLY 10 6 n (c.acSt n) st

/-- OPEN (R285, Table 10.6).
BUSY for an accumulator that is not FREE is this model's choice (assumption 155). -/
def Chip.tlyOpen (c : Chip) (n : Nat) : Chip :=
  let open_ := ((List.range 8).filter (fun k => c.acSt k != 0)).foldl (fun m k => m + c.acLen k) 0
  let st := firstStatus (c.tlyBar ++
    [(c.acSt n != 0, .busy), (c.acLen n > 32768 || c.geti F.TLY_ACCn_OWNERS_MASK n == 0 || c.geti F.TLY_ACCn_CFG_FMT n == 3 ||
        decide (0x100000 < 8 * c.geti F.TLY_ACCn_OUT_OFF n + 32 + 8 * c.acLen n), .badArg),
      (decide (32768 < open_ + c.acLen n), .limitReached)])
  let c := c.tlyLast n st
  if st != .ok then c
  else
    let c := if c.grp 5 = 2 then c else c.groupNeed 5
    let d := c.rngReq 32 true
    if d.1 != .ok then d.2.2.tlyLast n d.1
    else ((d.2.2.cr (fun u => { u with acc := tput u.acc n { ka := d.2.1, sums := List.replicate (d.2.2.acLen n) 0 } })).acPut n 1)

/-- ADD (R288): checked, then ADDING.
BAD_ARG for an accumulator that is not OPEN is this model's choice (assumption 155). -/
def Chip.tlyAdd (c : Chip) (n owner : Nat) : Chip :=
  let need := c.acLen n * tlySize (c.geti F.TLY_ACCn_CFG_FMT n)
  let got := c.get F.TLY_SRC_LEN_BYTES
  let wrong := !bit (c.geti F.TLY_ACCn_OWNERS_MASK n) owner || bit (c.geti F.TLY_ACCn_RECEIVED_MASK n) owner
  let opened := c.acSt n == 1
  let st := firstStatus (c.tlyBar ++
    [(opened && wrong, .denied), (!opened, .badArg), (opened && decide (got < need), .lengthShort), (opened && decide (need < got), .lengthLong)])
  let c := c.tlyLast n st
  if st != .ok then c
  else
    let c := if c.grp 5 = 2 then c else c.groupNeed 5
    ((c.acMod n (fun u => { u with owner := owner })).acPut n 2).put F.TLY_STATUS_BUSY 1

/-- The result record (R289). -/
def Chip.tlyRecord (c : Chip) (n : Nat) : List Byte :=
  ascii "GGMT" ++ pack [(1, c.geti F.TLY_ACCn_CFG_HANK n), (1, c.geti F.TLY_ACCn_CFG_FMT n), (2, c.geti F.TLY_ACCn_CFG_VECTOR n),
    (8, c.get64 (R.TLY_ACCn_STEP_LO n)), (4, c.acLen n), (4, c.geti F.TLY_ACCn_OWNERS_MASK n), (4, c.geti F.TLY_ACCn_SAT_COUNT n),
    (4, c.geti F.TLY_ACCn_NAN_COUNT n)] ++ ((c.ac n).sums.map (le 8)).flatten

/-- The digest enters the step it belongs to (R364). -/
def Chip.tlyStep (c : Chip) (n : Nat) (d : List Byte) : Chip :=
  let h := c.geti F.TLY_ACCn_CFG_HANK n
  let s := c.get64 (R.TLY_ACCn_STEP_LO n)
  let v := c.geti F.TLY_ACCn_CFG_VECTOR n
  let c := c.twMod h (fun t => { t with steps := t.steps.map (fun q => if q.num = s && q.st ≤ 2 then { q with tallies := tput q.tallies v d } else q) })
  if c.twOpened h then c.twSigning h else c

/-- SEAL (R289): the record written, its digest formed, the mask key erased. -/
def Chip.tlySeal (c : Chip) (n : Nat) : Chip :=
  let rec_ := c.tlyRecord n
  let d := Config.sha3_384 rec_
  let sat := c.geti F.TLY_ACCn_SAT_COUNT n
  let nan := c.geti F.TLY_ACCn_NAN_COUNT n
  let st := if sat = 0 && nan = 0 then Status.ok else .clamped
  let c := (c.spnWr (8 * c.geti F.TLY_ACCn_OUT_OFF n) rec_).acMod n (fun u => { u with ka := [], digest := padTo 48 d, word := 0 })
  let c := ((c.acPut n 3).puti F.TLY_ACCn_STATUS_RESULT n st.code).tlyLast n st
  let counts := sat + 2 ^ 32 * nan
  let c := c.log 0x0A03 uTLY (aChan n 3 st.code 0xFF counts 0 0 0 0)
  let c := if st = .ok then c else c.log 0x1A05 uTLY (aChan n 3 st.code 0xFF counts 0 0 0 0)
  c.tlyStep n (padTo 48 d)

/-- A contribution complete (R286 to R288): converted, masked and added; an unreadable one fails the accumulation. -/
def Chip.tlyDone (c : Chip) (n : Nat) (data : List Byte) (good : Bool) : Chip :=
  let c := c.put F.TLY_STATUS_BUSY 0
  if !good then
    (((c.acPut n 4).puti F.TLY_ACCn_STATUS_RESULT n Status.integrity.code).tlyLast n .integrity).log 0x2A04 uTLY
      (aChan n 3 Status.integrity.code 0xFF (c.get64 R.TLY_SRC_LO) 0 0 0 0)
  else
    let fmt := c.geti F.TLY_ACCn_CFG_FMT n
    let mask := c.geti F.TLY_ACCn_OWNERS_MASK n
    let a := c.ac n
    let es := (List.range (c.acLen n)).map (tlyElem fmt data)
    let sums := (List.range (c.acLen n)).map (fun j => (a.sums.getD j 0 + (es.getD j (0, false, false)).1 + tlyMask a.ka fmt mask a.owner j) % two64)
    let c := (c.acMod n (fun u => { u with sums := sums })).count 13 (4 * c.acLen n)
    let c := (c.addi F.TLY_ACCn_SAT_COUNT n (es.filter (·.2.1)).length).addi F.TLY_ACCn_NAN_COUNT n (es.filter (·.2.2)).length
    let got := withBit (c.geti F.TLY_ACCn_RECEIVED_MASK n) a.owner true
    let c := c.puti F.TLY_ACCn_RECEIVED_MASK n got
    if got = mask then c.tlySeal n else (c.acPut n 1).tlyLast n .ok

/-- The contribution of the ADD that runs, from `TLY_SRC` in the core map (R288): what Spindle SRAM or Roving SRAM holds there, or what is read
beyond the instance; none when it cannot be read. -/
def Chip.tlySrc (c : Chip) (data : List Byte) (good : Bool) : Option (List Byte) :=
  let a := c.get64 R.TLY_SRC_LO
  let n := c.get F.TLY_SRC_LEN_BYTES
  if 0x10000000 ≤ a && a + n ≤ 0x10100000 then some (c.spnRd (a - 0x10000000) n)
  else if 0x20000000 ≤ a && a + n ≤ 0x20600000 then
    (if (c.poisoned (a - 0x20000000) n).isSome then none else some (c.rovRd (a - 0x20000000) n))
  else if 0x800000000 ≤ a && a + n ≤ 0x1000000000 then (if good then some (padTo n data) else none)
  else none

/-- ABORT: BUSY while another accumulator's ADD runs (R288, Table 10.11).
OK for a FREE accumulator is this model's choice (assumption 155). -/
def Chip.tlyAbortCmd (c : Chip) (n : Nat) : Chip :=
  if c.get F.TLY_STATUS_BUSY = 1 && c.acSt n != 2 then c.tlyLast n .busy
  else if c.acSt n != 0 && (c.grp 5 = 3 || bit (c.get F.PWR_GRP_CTRL_DISABLE) 4) then c.tlyLast n .poweredDown
  else (c.acAbort n).tlyLast n .ok

/-- RELEASE of a SEALED or FAILED accumulation.
BAD_ARG in another state is this model's choice (assumption 155). -/
def Chip.tlyRelease (c : Chip) (n : Nat) : Chip :=
  let st := firstStatus (c.tlyBar ++ [(c.acSt n != 3 && c.acSt n != 4, .badArg)])
  let c := c.tlyLast n st
  if st = .ok then c.acFree n else c

/-- The next word of the result digest, or 0 with EARLY_READ before SEALED (R276, R289). -/
def Chip.tlyRead (c : Chip) (n : Nat) : Chip × Nat :=
  if c.acSt n = 3 then
    let p := (c.ac n).word
    (c.acMod n (fun u => { u with word := if p < 11 then p + 1 else 0 }), numAt (c.ac n).digest (4 * p) 4)
  else
    let c := c.tlyLast n .earlyRead
    if (c.ac n).early then (c, 0)
    else
      let c := c.log 0x1A03 uTLY (aChan n 3 Status.earlyRead.code 0xFF 0 0 0 0 0)
      (c.acMod n (fun u => { u with early := true }), 0)

end Sys2Proof.Machine
end

