-- ==== Sys2Proof/Machine/LaneOps.lean ====
section
/-!
DEFINITION. Lanes, entropy sources and the instance failures of the Crypto cluster (R281, R282, R284, R290, R291): tests, faults and what
is left when the last of a class is gone.
-/

namespace Sys2Proof.Machine

/-- A lane moves to a state. -/
def Chip.laneSet (c : Chip) (cls l st : Nat) : Chip :=
  let old := c.laneSt cls l
  let w := c.get (laneField cls)
  (c.put (laneField cls) (w - old * 4 ^ l + st * 4 ^ l)).noilTrans (laneUnit cls) 10 9 (16 * cls + l) old st

/-- The next lane of a class in round robin that is in rotation. -/
def Chip.laneNext (c : Chip) (cls : Nat) : Option Nat :=
  let n := tget c.cry.next cls 0
  let fs := c.laneFree cls
  match fs.find? (fun l => decide (n ≤ l)) with | some l => some l | none => fs.head?

/-- A test takes a lane out of rotation, when another stays in it. -/
def Chip.laneDrain (c : Chip) (cls l : Nat) : Chip :=
  let c := (c.laneSet cls l 1).cr (fun u => { u with next := tput u.next cls ((l + 1) % laneCount cls) })
  if c.grp (laneGroup cls) = 2 then c else c.groupNeed (laneGroup cls)

/-- A lane goes to FAILED: event 0x2A01, and with no lane of the class left event 0x3A02 and the failure of the instance (R12, R291). -/
def Chip.laneFail (c : Chip) (cls l : Nat) : Chip :=
  let c := (c.laneSet cls l 3).log 0x2A01 (laneUnit cls) (aChan l 4 Status.integrity.code 0xFF 0 cls 0 0 0)
  if (List.range (laneCount cls)).all (fun k => c.laneSt cls k == 3) then
    c.instFail 0x3A02 uCRY (aChan l 4 Status.integrity.code 0xFF 0 cls 0 0 0)
  else c

/-- A requested test (R291): BUSY when it would take the last lane of its class. A reserved class leaves the field as it was (R7). -/
def Chip.laneAsk (c : Chip) (req : Req) (cls lane : Nat) : Chip :=
  let old := c.get F.CRY_SELFTEST_CLASS
  let c := (c.put F.CRY_SELFTEST_CLASS (if cls ≤ 6 then cls else old)).put F.CRY_SELFTEST_LANE lane
  let last := fun (c : Chip) (st : Status) => c.put F.CRY_SELFTEST_LAST st.code
  if 6 < cls then (last c .badArg).log 0x1033 uCRY (aClamp R.CRY_SELFTEST cls old req.toNat 24)
  else if cls = 6 then (last c .pending).cr (fun u => { u with asked := u.asked ++ [(6, 0)] })
  else if c.cryDown (match laneGroup cls with | 1 => 0x30 | 2 => 0x40 | 3 => 0x20 | 4 => 0x10 | _ => 0x60) ||
      (cls = 5 && (c.grp 5 = 3 || bit (c.get F.PWR_GRP_CTRL_DISABLE) 4)) then last c .poweredDown
  else
    match (if lane = 15 then c.laneNext cls else some lane) with
    | none => last c .busy
    | some l =>
      if laneCount cls ≤ l then last c .badArg
      else if c.laneSt cls l != 0 || (c.laneFree cls).length < 2 then last c .busy
      else ((last c .pending).laneDrain cls l).cr (fun u => { u with asked := u.asked ++ [(cls, l)] })

/-- The periodic schedule tests one lane of each class whose last lane it would not take (R291). -/
def Chip.lanePeriod (c : Chip) : Chip :=
  (c.cr (fun u => { u with periodAt := c.slot })).each (List.range 6) (fun c cls =>
    let down := c.grp (laneGroup cls) == 3 || bit (c.get F.PWR_GRP_CTRL_DISABLE) (laneGroup cls - 1)
    match c.laneNext cls with
    | some l => if down || (c.laneFree cls).length < 2 then c else c.laneDrain cls l
    | none => c)

/-- Has a period of 2^`PERIOD_LOG2` slots ended since the last periodic test? -/
def Chip.periodDue (c : Chip) : Bool :=
  decide (c.cry.periodAt / 2 ^ c.get F.CRY_CTRL_PERIOD_LOG2 < c.slot / 2 ^ c.get F.CRY_CTRL_PERIOD_LOG2)

/-- Both sources gone, or the DRBG's second failure: no lane of the class remains (R12, R282, R284). -/
def Chip.drbgFail (c : Chip) : Chip := ((c.put F.CRY_DRBG_STATUS_ERROR 1).put F.CRY_DRBG_STATUS_READY 0).instFail 0x3A03 uCRY []

/-- The DRBG's known-answer tests fail (R284): ERROR and one more attempt; the second failure ends the instance. -/
def Chip.katFail (c : Chip) : Chip :=
  if c.cry.kat = 0 then ((c.put F.CRY_DRBG_STATUS_ERROR 1).put F.CRY_DRBG_STATUS_READY 0).cr (fun u => { u with kat := 1 }) else c.drbgFail

/-- A test ends: of a lane in TESTING, or (class 6) the DRBG's (R284, R291). -/
def Chip.laneTested (c : Chip) (cls l : Nat) (pass : Bool) : Chip :=
  let asked := c.cry.asked.contains (cls, l)
  if !(if cls = 6 then asked else c.laneSt cls l == 2 && c.grp (laneGroup cls) == 2) then c
  else
    let c := ((c.add F.CRY_SELFTEST_COUNT 1).count 15 1).cr (fun u => { u with asked := u.asked.filter (· != (cls, l)) })
    let c := if asked then c.put F.CRY_SELFTEST_LAST (if pass then 0 else Status.integrity.code) else c
    if pass then
      let c := if cls = 6 then c else (c.laneSet cls l 0).cryArb
      if asked then c.log 0x0A01 (laneUnit cls) (aChan l 4 0 0xFF 0 cls 0 0 0) else c
    else if cls = 6 then c.katFail
    else c.laneFail cls l

/-- The unit a faulty lane was running: a descriptor holds its lane; a context's block or the Tally engine's ADD as the fault reports it. -/
def Chip.unitOn (c : Chip) (cls l : Nat) (unit : LaneUnit) : LaneUnit :=
  match (c.laneRuns cls).find? (fun r => r.2.lane == some l) with
  | some r => .descriptor r.1 r.2.idx
  | none =>
    match unit with
    | .context n => if cls = (if c.cxAlg n < 8 then 2 else 3) then unit else .idle
    | .tally => if cls = 5 then unit else .idle
    | _ => .idle

/-- What a lane fault ends with INTEGRITY: the unit of a channel's descriptor, of a digest context, or of the Tally engine. -/
def Chip.faultUnit (c : Chip) (unit : LaneUnit) : Chip :=
  match unit with
  | .idle => c
  | .descriptor n idx =>
    match (c.ch n).fl.find? (fun f => f.idx == idx && f.started) with
    | some f => (c.chDone n { f with out := [], used := 0, key := none } .integrity 0).cryArb
    | none => c
  | .context n => if c.cxSt n = 1 || c.cxSt n = 2 then (c.cxPut n 4 .integrity).cxMod n (fun u => { u with result := [] }) else c
  | .tally =>
    match (List.range 8).find? (fun n => c.acSt n == 2) with
    | some n => (((c.put F.TLY_STATUS_BUSY 0).acPut n 4).puti F.TLY_ACCn_STATUS_RESULT n Status.integrity.code).tlyLast n .integrity
    | none => c

/-- A lane fault during a unit (Table 10.9). -/
def Chip.laneFault (c : Chip) (cls l : Nat) (unit : LaneUnit) : Chip :=
  if c.laneSt cls l != 0 || laneCount cls ≤ l || 5 < cls then c
  else ((c.laneSet cls l 2).faultUnit (c.unitOn cls l unit)).log 0x2A03 (laneUnit cls) (aChan l 4 Status.integrity.code 0xFF 0 cls 0 0 0)

/-! Entropy sources (R281, R282). -/

/-- A source goes to FAILED; with both gone the instance fails. -/
def Chip.entFail (c : Chip) (i : Nat) : Chip :=
  let c := (c.entSet i 3).log 0x2A02 uCRY (aChan i 5 Status.integrity.code 0xFF 0 0 0 0 0)
  if c.entGone then c.instFail 0x3A01 uCRY [] else c

/-- A health test fails: RETEST, or FAILED the second time within 1,048,576 slots. -/
def Chip.entHealth (c : Chip) (i : Nat) : Chip :=
  let f := if i = 0 then F.CRY_ENT_FAILS0 else F.CRY_ENT_FAILS1
  let again := match tget? c.cry.failAt i with | some t => decide (c.slot < t + 1048576) | none => false
  let c := (c.add f 1).cr (fun u => { u with failAt := tput u.failAt i c.slot })
  if again then c.entFail i else (c.entSet i 1).cr (fun u => { u with retest := if u.retest.contains i then u.retest else u.retest ++ [i] })

/-- The samples of a window, first sample first. -/
def samples (bs : List Byte) : List Bool := bs.flatMap (fun b => (List.range 8).map (fun i => b.toNat.testBit i))

/-- The repetition count test (R281): `n` equal samples so far, the last of them `x`; true when a run reaches the cutoff 41. -/
def runFails (x : Bool) (n : Nat) (ss : List Bool) : Bool :=
  match ss with
  | [] => false
  | s :: ss => if s = x then (decide (41 ≤ n + 1) || runFails x (n + 1) ss) else runFails s 1 ss

/-- Do 1,024 samples fail a health test (R281): a run of 41, or their first value 800 times? -/
def healthFails (bs : List Byte) : Bool :=
  match samples (padTo 128 bs) with
  | [] => false
  | s :: ss => runFails s 1 ss || decide (800 ≤ ((s :: ss).filter (· == s)).length)

/-- A start-up test ends: of a start, of a retest or of a calibration. -/
def Chip.entTested (c : Chip) (i : Nat) (pass : Bool) : Chip :=
  let re := c.cry.retest.contains i
  let c := c.cr (fun u => { u with retest := u.retest.filter (· != i) })
  if pass then
    let c := c.entSet i 0
    if re then c.log 0x1A04 uCRY (aChan i 5 0 0xFF 0 0 0 0 (c.get (if i = 0 then F.CRY_ENT_FAILS0 else F.CRY_ENT_FAILS1))) else c
  else if re then c.entFail i
  else c.entHealth i

end Sys2Proof.Machine
end

