-- ==== Sys2Proof/Machine/DmaBase.lean ====
section
/-!
DEFINITION. DMA channels as the whole instance uses them (R298, R301 to R307, R312 to R315): states, descriptor checks, write-backs, the
all-channel stop, fences.
-/

namespace Sys2Proof.Machine

/-! Reach (R135, R299, Table 6.2). -/

/-- Base and end of the initiator port's range (Table 6.2). -/
def dmInitBase : Nat := 0x800000000
def dmInitEnd : Nat := 0x1000000000

/-- Does an enabled `COR_ROV_WINk` admit an access (R137)? -/
def Chip.rovWindow (c : Chip) (a : Nat) (wr : Bool) : Bool :=
  (List.range 4).any (fun k =>
    let lo := c.geti F.COR_ROV_WINn_BASE_ADDR k * 4096
    c.geti F.COR_ROV_WINn_CTRL_EN k == 1 && (!wr || c.geti F.COR_ROV_WINn_CTRL_WRITE k == 1) && decide (lo ≤ a) &&
      decide (lo + c.geti F.COR_ROV_WINn_CTRL_PAGES k * 4096 ≤ dmInitEnd) && decide (a < lo + c.geti F.COR_ROV_WINn_CTRL_PAGES k * 4096))

/-- The cause (Table 11.5) with which an access of a requester of the instance completes before it reaches its target; 0 for none. -/
def Chip.reach (c : Chip) (req : Req) (a : Nat) (wr : Bool) : Nat :=
  let spn := classOf req == .spindle
  if !spn && !(classOf req == .roving) then 1
  else if a < 0x40000 then (if spn && !wr then 0 else 1)
  else if 0x10000000 ≤ a && a < 0x10100000 then
    (if spn && !(wr && c.get F.COR_SPN_CTRL_CODE_WP == 1 && decide (a < 0x10000000 + 4096 * c.get F.COR_SPN_CTRL_CODE_TOP)) then 0 else 1)
  else if 0x20000000 ≤ a && a < 0x20600000 then 0
  else if 0x40000000 ≤ a && a < 0x40060000 then
    (if !c.powered (a - 0x40000000) then 4 else if c.granted req (a - 0x40000000) wr then 0 else 1)
  else if dmInitBase ≤ a && a < dmInitEnd then (if spn || c.rovWindow a wr then 0 else 1)
  else 1

/-- Channel state codes (Table 11.3). -/
def dDisabled : Nat := 0
def dIdle : Nat := 1
def dRunning : Nat := 2
def dWaiting : Nat := 3
def dPausing : Nat := 4
def dPaused : Nat := 5
def dStopped : Nat := 6
def dFault : Nat := 7

/-- A channel beyond its registers. -/
def Chip.dm (c : Chip) (n : Nat) : DmaCh := tget c.dma n {}
def Chip.dmMod (c : Chip) (n : Nat) (f : DmaCh → DmaCh) : Chip := { c with dma := tmod c.dma n {} f }

/-- The state of a channel. -/
def Chip.dmSt (c : Chip) (n : Nat) : Nat := c.geti F.DMA_CHn_STATUS_STATE n

/-- Its holder's requester number: an ungranted channel is Spindle's (R298). -/
def Chip.dmOwner (c : Chip) (n : Nat) : Nat := if c.geti F.DMA_CHn_CFG_OWNER n = 0 then 0xFF else c.geti F.DMA_CHn_CFG_OWNER n

/-- Is it held by a Roving core? -/
def Chip.dmRov (c : Chip) (n : Nat) : Bool := classOf (BitVec.ofNat 8 (c.dmOwner n)) == .roving

/-- A mask with the bits of the channels in a state. -/
def Chip.dmMask (c : Chip) (st : Nat) : Nat := maskOf ((List.range 32).filter (fun n => c.dmSt n == st))

/-- A channel moves to a state; the masks and `ACTIVE` follow. -/
def Chip.dmSet (c : Chip) (n st : Nat) : Chip :=
  let old := c.dmSt n
  let c := (c.puti F.DMA_CHn_STATUS_STATE n st).noilTrans uDMA 11 3 n old st
  let c := (c.put F.DMA_FAULT_MASK_CH (c.dmMask dFault)).put F.DMA_STOP_MASK_CH (c.dmMask dStopped)
  c.put F.DMA_STATUS_ACTIVE ((List.range 32).filter (fun k => decide (1 < c.dmSt k))).length

/-! Descriptors. -/

def DmaDesc.irq (d : DmaDesc) : Bool := bit d.flags 1
def DmaDesc.barrier (d : DmaDesc) : Bool := bit d.flags 2
def DmaDesc.srcFixed (d : DmaDesc) : Bool := bit d.flags 3
def DmaDesc.dstFixed (d : DmaDesc) : Bool := bit d.flags 4
def DmaDesc.paced (d : DmaDesc) : Bool := bit d.req 7
def DmaDesc.line (d : DmaDesc) : Nat := d.req % 64
/-- GATHER or SCATTER? -/
def DmaDesc.indexed (d : DmaDesc) : Bool := d.op == 3 || d.op == 4
/-- Bytes of a burst. -/
def DmaDesc.burstLen (d : DmaDesc) : Nat := if d.indexed then d.elem else if d.burst = 0 then 256 else d.burst
/-- Units of `DONE` and `REMAIN`: bytes, or entries. -/
def DmaDesc.total (d : DmaDesc) : Nat := if d.indexed then d.count else d.len

/-- Bytes 0 to 47 of a descriptor. -/
def DmaDesc.bytes (d : DmaDesc) : List Byte :=
  pack [(1, d.op), (1, d.flags), (1, d.req), (1, d.prio), (8, d.src), (8, d.dst), (4, d.len), (8, d.index), (4, d.count), (2, d.elem), (2, d.burst)] ++
    padTo 8 d.pattern

/-- Fields within the ranges of Table 11.1 and `PRIO` within `CAP` (R302). -/
def dmaGood (cap : Nat) (d : DmaDesc) : Bool :=
  let al := fun x => x % 4 == 0
  let bytes := al d.len && decide (4 ≤ d.len) && decide (d.len ≤ 4294967292)
  let zeroPat := (padTo 8 d.pattern).all (· == 0#8)
  bitsOf d.flags 7 5 == 0 && !bit d.req 6 && d.prio / 4 == 0 && decide (d.prio ≤ cap) && al d.src && al d.dst &&
    (!d.paced || (al d.burst && decide (d.burst ≤ 256))) &&
    (match d.op with
      | 1 => bytes && d.index == 0 && d.count == 0 && d.elem == 0 && zeroPat
      | 2 => bytes && d.index == 0 && d.count == 0 && d.elem == 0
      | 3 => d.len == 0 && al d.index && decide (1 ≤ d.count) && decide (d.count ≤ 2097152) && al d.elem && decide (4 ≤ d.elem) &&
          decide (d.elem ≤ 4096) && (!d.paced || decide (d.elem ≤ 256)) && zeroPat
      | 4 => d.len == 0 && al d.index && decide (1 ≤ d.count) && decide (d.count ≤ 2097152) && al d.elem && decide (4 ≤ d.elem) &&
          decide (d.elem ≤ 4096) && (!d.paced || decide (d.elem ≤ 256)) && zeroPat
      | _ => false)

/-- May the holder use a request line (Table 11.2)? -/
def Chip.dmLine (c : Chip) (n line : Nat) : Bool :=
  if c.dmRov n then
    (if line < 32 then bit (c.get F.DMA_LINE_GRANT_LO_LINES) line
     else if line < 40 || 48 ≤ line then bit (c.get F.DMA_LINE_GRANT_HI_LINES) (line - 32) else false)
  else !(44 ≤ line && line < 48)

/-- The channel a line is bound to. -/
def Chip.lineOwner (c : Chip) (line : Nat) : Option Nat :=
  (List.range 32).find? (fun n =>
    decide (1 < c.dmSt n) && (match (c.dm n).desc with | some d => d.paced && d.line == line | none => false))

/-! Write-back (R305). -/

/-- The ring of channels 0 to 3 is the Custody cluster's own; every other lies in the holder's SRAM. -/
def Chip.dmAddr (c : Chip) (n idx : Nat) : Nat := c.geti F.DMA_CHn_BASE_OFF n * 64 + 64 * idx

/-- The descriptor at `HEAD`, as the holder's SRAM holds it (R301); `table` is the index table where it lies beyond the instance. The rings of
channels 0 to 3 cannot be seen. -/
def Chip.dmRead (c : Chip) (n : Nat) (table : List Nat) : DmaDesc :=
  if n < 4 then { flags := 0 }
  else
    let b := c.ownRd (c.dmOwner n) (c.dmAddr n (c.geti F.DMA_CHn_HEAD_IDX n)) 52
    { op := numAt b 0 1, flags := numAt b 1 1, req := numAt b 2 1, prio := numAt b 3 1, src := numAt b 4 8, dst := numAt b 12 8, len := numAt b 20 4,
      index := numAt b 24 8, count := numAt b 32 4, elem := numAt b 36 2, burst := numAt b 38 2, pattern := slice b 40 8, crc := numAt b 48 4, table := table }

/-- Bytes 52 to 63, then byte 1 with `OWN` cleared. -/
def Chip.dmBack (c : Chip) (n idx flags : Nat) (st : Status) (cause done : Nat) : Chip :=
  let b := pack [(1, st.code), (1, cause), (2, 0), (4, done), (4, c.slot)]
  let c := if n < 4 then c
    else (c.ownWr (c.dmOwner n) (c.dmAddr n idx + 52) b).ownWr (c.dmOwner n) (c.dmAddr n idx + 1) (le 1 (withBit flags 0 false))
  (c.trace 11 2 0 b).when (st != .ok) (fun c => c.puti F.DMA_CHn_STATUS_LAST_ERR n st.code)

/-- `HEAD` advances. -/
def Chip.dmNext (c : Chip) (n : Nat) : Chip :=
  c.puti F.DMA_CHn_HEAD_IDX n ((c.geti F.DMA_CHn_HEAD_IDX n + 1) % 2 ^ c.geti F.DMA_CHn_CFG_LOG2 n)

/-- Index entry `i` of a descriptor in memory: in the SRAM its table lies in or, beyond the instance, as the command lists it. -/
def Chip.dmPeek (c : Chip) (d : DmaDesc) (i : Nat) : Nat :=
  let a := d.index + 4 * i
  if 0x10000000 ≤ a && a < 0x10100000 then ofLe (c.spnRd (a - 0x10000000) 4)
  else if 0x20000000 ≤ a && a < 0x20600000 then ofLe (c.rovRd (a - 0x20000000) 4)
  else d.table.getD i 0

/-- Index entry `i` as the channel's prefetch buffer holds it (R304). -/
def Chip.dmEntry (c : Chip) (n i : Nat) : Nat :=
  if (c.dm n).preAt ≤ i then (c.dm n).pre.getD (i - (c.dm n).preAt) 0 else (c.dm n).old.getD (i + 64 - (c.dm n).preAt) 0

/-- The prefetch buffer takes the 64 entries from `pos` on. -/
def Chip.dmFetch (c : Chip) (n : Nat) (d : DmaDesc) (pos : Nat) : Chip :=
  c.dmMod n (fun u => { u with old := u.pre, pre := (List.range (min 64 (d.count - pos))).map (fun i => c.dmPeek d (pos + i)), preAt := pos })

/-- The index value of a hole (R304). -/
def dmHole : Nat := 0xFFFFFFFF

/-- Whole entries of an indexed descriptor when the last `left` bytes read up to entry `pos`, byte `off` are still staged. -/
def Chip.dmWhole (c : Chip) (n : Nat) (d : DmaDesc) (fuel pos off left : Nat) : Nat :=
  match fuel with
  | 0 => pos
  | fuel + 1 =>
    if left = 0 then pos
    else if 0 < off then (if left < off then pos else c.dmWhole n d fuel pos 0 (left - off))
    else if pos = 0 then 0
    else if d.op = 4 && c.dmEntry n (pos - 1) = dmHole then c.dmWhole n d fuel (pos - 1) 0 left
    else if left < d.elem then pos - 1
    else c.dmWhole n d fuel (pos - 1) 0 (left - d.elem)

/-- Units of the descriptor in progress whose data has been written: bytes, or whole entries for an indexed one (R305, R311). -/
def Chip.dmDone (c : Chip) (n : Nat) (d : DmaDesc) : Nat :=
  let staged := c.geti F.DMA_CHn_STATUS_STAGED n
  let read := d.total - c.geti F.DMA_CHn_REMAIN_COUNT n
  if d.indexed then c.dmWhole n d (read + 2) read (c.geti F.DMA_CHn_ELEM_OFF_BYTES n) staged else read - staged

/-- A channel without work reads IDLE, or DISABLED while `EN` is 0 (assumption 105). -/
def Chip.dmIdle (c : Chip) (n : Nat) : Nat := if c.geti F.DMA_CHn_CFG_EN n = 1 then dIdle else dDisabled

/-- The holder is told of a completion when `IRQ` is 1. -/
def Chip.dmIrq (c : Chip) (n : Nat) (d : DmaDesc) : Chip := if d.irq then c.chIrq uDMA 128 n (c.dmOwner n) else c

/-- The registers of the descriptor in progress cleared. -/
def Chip.dmDrop (c : Chip) (n : Nat) : Chip :=
  let c := (c.dmMod n (fun u => { u with desc := none, buf := [], pre := [], old := [], preAt := 0, port := false })).puti F.DMA_CHn_STATUS_STAGED n 0
  c.resetCopy n 32 (R.DMA_CHn_CUR_SRC_LO n) (R.DMA_CHn_FAULT_ADDR_LO n)

/-- The descriptor in progress is written back and the channel's next one comes to its head; the channel moves to state `to_`. -/
def Chip.dmEnd (c : Chip) (n : Nat) (st : Status) (cause to_ : Nat) : Chip :=
  let to_ := if to_ = dIdle then c.dmIdle n else to_
  match (c.dm n).desc with
  | none => c.dmSet n to_
  | some d =>
    let h := c.geti F.DMA_CHn_HEAD_IDX n
    let c := (c.dmBack n h d.flags st cause (c.dmDone n d)).dmNext n
    (((c.dmDrop n).dmSet n to_).count 20 1).dmIrq n d

/-! Request lines (R308, R309). -/

/-- Requests pending on a software line. -/
def Chip.swPend (c : Chip) (line : Nat) : Nat :=
  let i := line - 48
  if i < 8 then bitsOf (c.get F.DMA_SWREQ_PEND_LO_COUNT) (4 * i + 3) (4 * i) else bitsOf (c.get F.DMA_SWREQ_PEND_HI_COUNT) (4 * (i - 8) + 3) (4 * (i - 8))

/-- A software line's pending count set. -/
def Chip.swPut (c : Chip) (line v : Nat) : Chip :=
  let i := line - 48
  let f := if i < 8 then F.DMA_SWREQ_PEND_LO_COUNT else F.DMA_SWREQ_PEND_HI_COUNT
  c.put f (c.get f + v * 16 ^ (i % 8) - c.swPend line * 16 ^ (i % 8))

/-- Is a line high as far as the instance's own buffers say: a trace source with 8 records (R499), a counter group with a sample (R504), a
software line with a request? The NOR controller's and the service port's lines are seen in their requests alone. -/
def Chip.lineHigh (c : Chip) (line : Nat) : Bool :=
  if line < 17 then decide (8 ≤ (c.trSrc line).recs.length)
  else if 32 ≤ line && line < 40 then !(tget c.dbg.smp (line - 32) {}).recs.isEmpty
  else if 48 ≤ line then decide (0 < c.swPend line)
  else false

/-! Pause, abort, release, clear (R311, R314). -/

/-- Is a channel held back: its `PAUSE` bit set, or its core halted (R492)? -/
def Chip.dmHeld (c : Chip) (n : Nat) : Bool :=
  c.geti F.DMA_CHn_CTRL_PAUSE n == 1 || (c.dmRov n && c.coreHalted (c.dmOwner n - 0xF0))

/-- A channel that may go on runs, or waits while its paced line is low and nothing is staged. -/
def Chip.dmGo (c : Chip) (n : Nat) : Chip :=
  match (c.dm n).desc with
  | none => c.dmSet n (c.dmIdle n)
  | some d =>
    let low := d.paced && (c.dm n).buf.isEmpty && c.geti F.DMA_CHn_REMAIN_COUNT n != 0 && !c.lineHigh d.line
    c.dmSet n (if low then dWaiting else dRunning)

/-- A channel is to pause (R311). -/
def Chip.dmStop1 (c : Chip) (n : Nat) : Chip :=
  if c.dmSt n = dRunning then c.dmSet n dPausing
  else if c.dmSt n = dWaiting then c.dmSet n dPaused
  else c

/-- A channel no longer held back continues. -/
def Chip.dmResume (c : Chip) (n : Nat) : Chip := if c.dmSt n = dPaused && !c.dmHeld n then c.dmGo n else c

/-- `PAUSE` written. -/
def Chip.dmPause (c : Chip) (n : Nat) (on : Bool) : Chip :=
  let c := c.puti F.DMA_CHn_CTRL_PAUSE n (b2n on)
  if on then c.dmStop1 n else c.dmResume n

/-- `ABORT` written (R311): in PAUSED alone. -/
def Chip.dmAbort (c : Chip) (n : Nat) : Chip := if c.dmSt n = dPaused then c.dmEnd n .lengthShort 0 dIdle else c

/-- Spindle pauses and aborts the Roving channels bound to lines it takes back (R500, R507). One with bytes staged is left paused. -/
def Chip.dmUnline (c : Chip) (lines : List Nat) : Chip :=
  c.each (List.range 32) (fun c n =>
    match (c.dm n).desc with
    | none => c
    | some d =>
      if c.dmRov n && d.paced && lines.contains d.line then
        let c := c.dmPause n true
        if !(c.dm n).buf.isEmpty || !(c.dmSt n == dPausing || c.dmSt n == dPaused) then c
        else (c.dmSet n dPaused).dmAbort n
      else c)

/-! The all-channel stop (R313, R314). -/

/-- The stop clears when no channel remains STOPPED. -/
def Chip.dmStopEnd (c : Chip) : Chip :=
  if c.get F.DMA_STATUS_STOPPED = 1 && c.dmMask dStopped = 0 then
    (((c.put F.DMA_STATUS_STOPPED 0).put F.DMA_STATUS_MULTI 0).put F.DMA_STATUS_FIRST 0).log 0x0B01 uDMA
      (aCount (bitsIn (c.dmMask dFault) 32).length 0 c.dmaStop (c.get F.DMA_STATUS_FIRST))
  else c

/-- A channel's fault registers. -/
def Chip.dmFaultRegs (c : Chip) (n : Nat) (st : Status) (cause desc addr : Nat) (late index wr : Bool) : Chip :=
  (c.wri F.DMA_CHn_FAULT_STATUS n (BitVec.ofNat 32 (st.code * 2 ^ 24 + cause * 2 ^ 16 + desc * 64 + 4 * b2n late + 2 * b2n index + b2n wr))).put64i
    F.DMA_CHn_FAULT_ADDR_LO_ADDR n addr

/-- The status of a cause (Table 11.5). -/
def dmaStatus (cause : Nat) : Status := match cause with | 3 => .integrity | 4 => .poweredDown | 6 => .integrity | _ => .denied

/-- The events of a bus error of channel `n` (R313): that of the access where R14 or R137 has one, then 0x2B01. -/
def Chip.busErrorLog (c : Chip) (n cause addr idx : Nat) (wr index : Bool) (late : Option Nat) : Chip :=
  let st := (dmaStatus cause).code
  let o := c.dmOwner n
  let done := match late, (c.dm n).desc with | none, some d => c.dmDone n d | _, _ => 0
  let c := if cause = 1 then c.log 0x1601 (if 0x40000000 ≤ addr && addr < 0x40080000 then unitOfOffset (addr - 0x40000000) else uDMA)
      (aAccess addr o wr uDMA st n)
    else if cause = 3 then c.log 0x2602 uCOR (aAccess addr o wr uCOR st n) else c
  c.log 0x2B01 uDMA (aChan n 0 st o addr idx cause (b2n late.isSome + 2 * b2n index + 4 * b2n wr) done)

/-- The faulting channel goes to FAULT (R313); a late error's descriptor is no longer awaited. -/
def Chip.busErrorEnd (c : Chip) (n cause : Nat) (late : Option Nat) : Chip :=
  match late with
  | some i => (c.dmMod n (fun u => { u with unacked := u.unacked.filter (· != i) })).dmSet n dFault
  | none => c.dmEnd n (dmaStatus cause) cause dFault

/-- The first error of a stop is recorded and counted, and interrupts Spindle where it is told to (R313). -/
def Chip.stopFirst (c : Chip) (n : Nat) : Chip :=
  (((({ c with dmaStop := c.time }).put F.DMA_STATUS_STOPPED 1).put F.DMA_STATUS_FIRST n).count 21 1).when (c.get F.DMA_CTRL_STOP_IRQ_EN == 1)
    (fun c => c.send (.irqSpindle uDMA 32))

/-- Every other active channel goes to STOPPED; a further error while the stop is in force is noted, and `FIRST` names the
lower channel of two at one time (R313). -/
def Chip.busStop (c : Chip) (n : Nat) : Chip :=
  let d := c.each ((List.range 32).filter (fun k => k != n && (c.dmSt k == dRunning || c.dmSt k == dWaiting || c.dmSt k == dPausing)))
    (fun c k => c.dmSet k dStopped)
  if c.get F.DMA_STATUS_STOPPED = 1 then
    (let d := d.put F.DMA_STATUS_MULTI 1; if c.dmaStop = c.time then d.put F.DMA_STATUS_FIRST (min n (c.get F.DMA_STATUS_FIRST)) else d)
  else d.stopFirst n

/-- A bus error of channel `n` in the descriptor of ring index `idx` (R313): events, the faulting channel to FAULT, every other active one to STOPPED. -/
def Chip.busErrorAt (c : Chip) (n idx cause addr : Nat) (wr index : Bool) (late : Option Nat) : Chip :=
  ((((c.busErrorLog n cause addr idx wr index late).busErrorEnd n cause late).dmFaultRegs n (dmaStatus cause) cause idx addr late.isSome index wr).busStop n)

/-- The same in the descriptor at `HEAD`, or a late write's. -/
def Chip.busError (c : Chip) (n cause addr : Nat) (wr index : Bool) (late : Option Nat) : Chip :=
  c.busErrorAt n (late.getD (c.geti F.DMA_CHn_HEAD_IDX n)) cause addr wr index late

/-- Channels released from the stop (R314): they go on, or pause. -/
def Chip.dmRelease (c : Chip) (mask : Nat) : Chip :=
  (c.each ((bitsIn mask 32).filter (fun n => c.dmSt n == dStopped)) (fun c n => if c.dmHeld n then c.dmSet n dPausing else c.dmGo n)).dmStopEnd

/-- `CLEAR` written to a channel in FAULT (R314). -/
def Chip.dmClear (c : Chip) (n : Nat) : Chip :=
  if c.dmSt n != dFault then c
  else
    let late := c.geti F.DMA_CHn_FAULT_LATE n = 1
    let c := (c.wri F.DMA_CHn_FAULT_STATUS n 0).put64i F.DMA_CHn_FAULT_ADDR_LO_ADDR n 0
    if late && (c.dm n).desc.isSome then (if c.dmHeld n then c.dmSet n dPausing else c.dmGo n) else c.dmSet n (c.dmIdle n)

/-- A request on a software line for every bit set (R309). -/
def Chip.dmSwreq (c : Chip) (mask : Nat) : Chip :=
  c.each (bitsIn mask 16) (fun c i =>
    let line := 48 + i
    let v := c.swPend line
    if 15 ≤ v then c.log 0x1B03 uDMA (aChan line 6 0 0xFF 0 0 0 0 v) else c.swPut line (v + 1))

/-- `EN` of a channel written (R312). -/
def Chip.dmEnable (c : Chip) (n : Nat) (on : Bool) : Chip :=
  let c := c.puti F.DMA_CHn_CFG_EN n (b2n on)
  if c.dmSt n = dDisabled || c.dmSt n = dIdle then c.dmSet n (c.dmIdle n) else c

/-- `TAIL` written: an index beyond the ring's capacity is not taken (R302). -/
def Chip.dmTail (c : Chip) (req : Req) (n idx : Nat) : Chip :=
  if idx < 2 ^ c.geti F.DMA_CHn_CFG_LOG2 n then c.puti F.DMA_CHn_TAIL_IDX n idx
  else c.log 0x1B02 uDMA (aAccess (R.DMA_CHn_TAIL n) req.toNat true uDMA 0 idx)

/-! Fences and returns (R143, R298, R315). -/

/-- A channel goes back to Spindle: its ring is empty and its state IDLE. -/
def Chip.dmReturn (c : Chip) (n : Nat) : Chip :=
  let en := c.geti F.DMA_CHn_CFG_EN n
  let c := (c.resetCopy n 32 (R.DMA_CHn_BASE n) (R.DMA_CHn_STATUS n)).puti F.DMA_CHn_CFG_EN n en
  let c := c.resetCopy n 32 (R.DMA_CHn_CUR_SRC_LO n) (R.DMA_CHn_BASE (n + 1))
  { c with dma := tdel c.dma n }.dmSet n (if en = 1 then dIdle else dDisabled)

/-- The holder of a channel is fenced: every descriptor the hardware owns is written back with FENCED, a fault it held is cleared. -/
def Chip.dmFence (c : Chip) (n : Nat) : Chip :=
  let o := c.dmOwner n
  let c := c.dmEnd n .fenced 0 dIdle
  let left := ringSlots (c.geti F.DMA_CHn_HEAD_IDX n) (c.geti F.DMA_CHn_TAIL_IDX n) (2 ^ c.geti F.DMA_CHn_CFG_LOG2 n)
  let c := c.each (left.filter (fun i => bit (c.ownByte o (c.dmAddr n i + 1)) 0)) (fun c i => c.dmBack n i (c.ownByte o (c.dmAddr n i + 1)) .fenced 0 0)
  (c.dmReturn n).dmStopEnd

end Sys2Proof.Machine
end

