-- ==== Sys2Proof/Machine/DebugOps.lean ====
section
/-!
DEFINITION. The instance-wide debug facilities consents gate (R402, R490, R500, R507): what clearing each of their bits does.
-/

namespace Sys2Proof.Machine

/-- A debug state of a Roving core (Table 18.2), noted in the Noil ring of the Roving cores; its watchdog stands still
while it is halted (R493). -/
def Chip.setHalt (c : Chip) (k st : Nat) : Chip :=
  let old := c.geti F.DBG_COREc_STATUS_STATE k
  let c := if old = 0 && st != 0 then { c with dbg := { c.dbg with haltAt := tput c.dbg.haltAt k c.slot } }
    else if old != 0 && st = 0 then
      { c with cores := { c.cores with kicks := tmod c.cores.kicks k 0 (fun v => v + (c.slot - tget c.dbg.haltAt k 0)) } }
    else c
  let c := (c.puti F.DBG_COREc_STATUS_STATE k st).noilTrans uCOR 18 2 k old st
  if st = 0 then c.puti F.DBG_COREc_STATUS_DRAINED k 0 else c

/-- An event about a core, as unit DBG logs it. -/
def Chip.dbgCore (c : Chip) (code k cause : Nat) (last : Nat) : Chip :=
  c.log code uDBG (aCore k cause (c.geti F.DBG_COREc_STATUS_STATE k) 0 0 last)

/-- `BREAK_ROV` cleared: halted cores run again, breakpoints are cleared (R490, Table 18.2). -/
def Chip.breakOff (c : Chip) : Chip :=
  let c := c.put F.DBG_CTRL_BREAK_ROV 0
  c.each (List.range 6) (fun c k =>
    let was := c.coreHalted k
    let c := c.resetCopy k 6 (0x10108 + 0x20 * k) (0x10118 + 0x20 * k)
    if was then (c.setHalt k 0).dbgCore 0x0022 k 1 0 else c)

/-- Sources granted to Roving, counted (R500). -/
def Chip.traceCount (c : Chip) : Chip :=
  c.put F.DBG_STATUS_TRACE_GRANTED ((List.range 17).filter (fun t => (c.trSrc t).grant.isSome)).length

/-- A source goes back to Spindle: its line grant is cleared (R500, R143). -/
def Chip.traceTake (c : Chip) (t : Nat) : Chip :=
  let c := (c.trSet t { c.trSrc t with grant := none }).puti F.DBG_TRt_STATUS_GRANTED t 0
  (c.put F.DMA_LINE_GRANT_LO_LINES (withBit (c.get F.DMA_LINE_GRANT_LO_LINES) t false)).traceCount

/-- `TRACE_ROV` cleared: every granted source erased and taken back, the channels on its line aborted (R500). Source 16 does not depend on the
bit (R508). -/
def Chip.traceOff (c : Chip) : Chip :=
  let c := c.put F.DBG_CTRL_TRACE_ROV 0
  let ts := (List.range 16).filter (fun t => (c.trSrc t).grant.isSome)
  let c := c.each ts (fun c t => (c.trSet t { c.trSrc t with recs := [], word := 0, loss := 0, lossAt := 0 }).traceTake t)
  c.dmUnline ts

/-- `CNT_ROV` cleared: the sample buffers erased, lines 32 to 39 taken back (R507). -/
def Chip.counterOff (c : Chip) : Chip :=
  let c := c.put F.DBG_CTRL_CNT_ROV 0
  let c := { c with dbg := { c.dbg with smp := [] } }
  (c.put F.DMA_LINE_GRANT_HI_LINES (c.get F.DMA_LINE_GRANT_HI_LINES / 256 * 256)).dmUnline [32, 33, 34, 35, 36, 37, 38, 39]

/-- The facility of a consent kind disabled (R402). -/
def Chip.facilityOff (c : Chip) (kind : Nat) : Chip :=
  match kind with
  | 5 => if c.get F.DBG_CTRL_BREAK_ROV = 1 then c.breakOff else c
  | 6 => if c.get F.DBG_CTRL_TRACE_ROV = 1 then c.traceOff else c
  | 7 => if c.get F.DBG_CTRL_CNT_ROV = 1 then c.counterOff else c
  | _ => c

end Sys2Proof.Machine
end

