-- ==== Sys2Proof/Machine/HankOps.lean ====
section
/-!
DEFINITION. Hanks and owner objects (R382 to R417): bodies and their checks, the pending store, what an object does when it takes
effect, consents, scrubs, strand switches, and the progress of KEYING and TEARING.
-/

namespace Sys2Proof.Machine

/-! Access. -/

/-! Bodies (Tables 14.2 to 14.5). -/

/-- Fields of the header. -/
def obKind (b : List Byte) : Nat := numAt b 6 1
def obHank (b : List Byte) : Nat := numAt b 7 1
def obCer (b : List Byte) : Nat := numAt b 8 4
def obSeq (b : List Byte) : Nat := numAt b 12 4
def obExpiry (b : List Byte) : Nat := numAt b 24 8
/-- Is an input a body and not an endorsement? -/
def isBody (b : List Byte) : Bool := b.take 4 == ascii "GGMO"
/-- Is the header well formed? -/
def obHeadOk (b : List Byte) : Bool :=
  decide (64 ≤ b.length) && decide (b.length ≤ 196608) && isBody b && numAt b 4 2 == 1 && decide (1 ≤ obCer b) && decide (obCer b ≤ 65535) &&
    numAt b 32 4 + 64 == b.length && numAt b 36 28 == 0 && (decide (0x10 ≤ obKind b) || obSeq b == 0)

/-- CREATE: counts and entries. -/
def crOwners (b : List Byte) : Nat := numAt b 64 1
def crFlags (b : List Byte) : Nat := numAt b 65 1
def crRanges (b : List Byte) : Nat := numAt b 66 2
def crLanes (b : List Byte) : Nat := numAt b 68 2
def crStrands (b : List Byte) : Nat := numAt b 70 2
def crOwnerKeys (b : List Byte) : List (List Byte) := (List.range (crOwners b)).map (fun i => slice b (128 + 48 * i) 48)
/-- A range entry's raw 40 bytes, and its fields. -/
def rangeOf (e : List Byte) : RangeEnt :=
  { base := numAt e 0 8, len := numAt e 8 8, aux := numAt e 16 8, bob := numAt e 24 4, tier := numAt e 28 1, flags := numAt e 29 1,
    strand := numAt e 30 2, rate := numAt e 32 1, warp := numAt e 33 1 }
def laneOf (e : List Byte) : LaneEnt :=
  { lane := numAt e 0 2, flags := numAt e 2 1, limit := numAt e 3 1, bob := numAt e 4 4, warp := numAt e 8 1 }
def entriesAt (b : List Byte) (pos n size : Nat) : List (List Byte) := (List.range n).map (fun i => slice b (pos + size * i) size)
def crRangeEnts (b : List Byte) : List (List Byte) := entriesAt b (128 + 48 * crOwners b) (crRanges b) 40
def crLaneEnts (b : List Byte) : List (List Byte) := entriesAt b (128 + 48 * crOwners b + 40 * crRanges b) (crLanes b) 16
def crStrandEnts (b : List Byte) : List (List Byte) := entriesAt b (128 + 48 * crOwners b + 40 * crRanges b + 16 * crLanes b) (crStrands b) 4

/-- Granules of a byte range, as first and number of 4 MiB granules; the metadata region of a WORSTED range is 5/32 of its length,
rounded up to whole granules (R236). -/
def granule : Nat := 4194304
def RangeEnt.spans (r : RangeEnt) (worsted : Bool) : List (Nat × Nat) :=
  (r.base / granule, r.len / granule) :: (if worsted then [(r.aux / granule, (5 * r.len / 32 + granule - 1) / granule)] else [])
def spansMeet (a b : Nat × Nat) : Bool := decide (a.1 < b.1 + b.2) && decide (b.1 < a.1 + a.2)
/-- Are the spans of a list pairwise apart? -/
def spansApart (l : List (Nat × Nat)) : Bool :=
  match l with
  | [] => true
  | a :: l => l.all (fun b => !spansMeet a b) && spansApart l

/-- Is a range WORSTED: by its entry, or by the applied `INPKG_TIER` (R235)? -/
def Chip.worsted (c : Chip) (r : RangeEnt) : Bool := r.tier == 1 || c.conf 0x0504 0 == 1
/-- Is a range entry well formed (R235, R236, R390)? -/
def Chip.rangeOk (c : Chip) (first count : Nat) (strands : List Nat) (e : List Byte) : Bool :=
  let r := rangeOf e
  let w := c.worsted r
  r.base % granule == 0 && r.len % granule == 0 && decide (0 < r.len) && decide (r.base + r.len ≤ (if w then 2 ^ 64 else c.pkg.hbm)) && decide (r.tier ≤ 1) &&
    decide (r.flags < 4) && numAt e 34 6 == 0 && decide (1 ≤ r.rate) && decide (first ≤ r.bob) && decide (r.bob < first + count) &&
    (if w then decide (r.len ≤ 2 ^ 30) && r.aux % granule == 0 else r.aux == 0 && !bit r.flags 0) &&
    (r.strand == 0xFFF || (w && strands.contains r.strand)) && bit r.warp 7 &&
    (!bit r.flags 1 || (w && r.strand == 0xFFF && decide (36 ≤ r.len / granule) && decide (r.len / granule ≤ 256)))
/-- Is a lane entry well formed (Table 14.5, R390)? -/
def Chip.laneGood (c : Chip) (first count : Nat) (e : List Byte) : Bool :=
  let l := laneOf e
  decide (l.lane < c.pkg.lanes) && decide (l.flags < 2) && (l.limit == 0 || (decide (20 ≤ l.limit) && decide (l.limit ≤ 36))) && numAt e 9 7 == 0 &&
    bit l.warp 7 && decide (l.bob ≤ 0xFFFFF) && (l.flags == 1 || (decide (first ≤ l.bob) && decide (l.bob < first + count)))
/-- No element twice. -/
def distinct (l : List Nat) : Bool := l.dedup.length == l.length

/-- Is a CREATE body well formed (R389, R390 BAD_ARG)? -/
def Chip.createOk (c : Chip) (b : List Byte) : Bool :=
  let n := crOwners b
  let rs := (crRangeEnts b).map rangeOf
  let first := numAt b 80 4
  let count := numAt b 84 4
  let ss := (crStrandEnts b).map (fun e => numAt e 0 2)
  let th := (List.range 9).map (fun i => numAt b (96 + i) 1)
  decide (obHank b < c.pkg.hanks) && decide (1 ≤ n) && decide (n ≤ 32) && decide (crFlags b < 4) && decide (1 ≤ crRanges b) &&
    decide (crRanges b ≤ 1024) && decide (crLanes b ≤ c.pkg.lanes) && decide (1 ≤ crStrands b) && decide (crStrands b ≤ 256) &&
    b.length == 128 + 48 * n + 40 * crRanges b + 16 * crLanes b + 4 * crStrands b && numAt b 72 8 != 0 && decide (1 ≤ count) &&
    decide (first + count ≤ 0x100000) && decide (1 ≤ numAt b 88 4) && decide (numAt b 88 4 ≤ 0xF0000000) && decide (numAt b 92 2 ≤ 4096) &&
    numAt b 94 2 == 0 && numAt b 105 23 == 0 && th.all (fun t => decide (t ≤ n)) && th.getD 2 0 == n &&
    (th.getD 3 0 != 0 || bit (crFlags b) 1) &&
    (crStrandEnts b).all (fun e => decide (numAt e 0 2 ≤ 0xFFE) && decide (numAt e 2 1 ≤ 1) && numAt e 3 1 == 0) && distinct ss &&
    ((crStrandEnts b).filter (fun e => bit (numAt e 2 1) 0)).length == 1 &&
    (crRangeEnts b).all (c.rangeOk first count ss) && (rs.filter (fun r => bit r.flags 1)).length == 1 &&
    (crLaneEnts b).all (c.laneGood first count) && distinct ((crLaneEnts b).map (fun e => (laneOf e).lane)) &&
    distinct (rs.map (·.bob) ++ (crLaneEnts b).map (fun e => (laneOf e).bob)) &&
    spansApart (rs.flatMap (fun r => r.spans (c.worsted r)))

/-- Does a CREATE name something another hank holds, or a die not released, or `QUIET` where it is not offered (R390 DENIED)? -/
def Chip.createTaken (c : Chip) (b : List Byte) : Bool :=
  let dies := bitsIn (numAt b 72 8) 64
  let rs := (crRangeEnts b).map rangeOf
  let spans := rs.flatMap (fun r => r.spans (c.worsted r))
  let first := numAt b 80 4
  let count := numAt b 84 4
  dies.any (fun n => !c.carded n || (c.hankOfDie n).isSome) ||
    c.hanks.tab.any (fun e =>
      (e.2.ranges.flatMap (fun r => r.spans (c.worsted r))).any (fun a => spans.any (spansMeet a)) ||
      e.2.lanes.any (fun l => (crLaneEnts b).any (fun x => (laneOf x).lane == l.lane)) || spansMeet (e.2.first, e.2.count) (first, count)) ||
    (bit (crFlags b) 0 && (c.conf 0x0702 0 == 0 || decide (4 ≤ (c.hanks.tab.filter (fun e => bit e.2.flags 0)).length)))

/-- Would a CREATE exceed a limit of the package (R390 LIMIT_REACHED)? -/
def Chip.createOver (c : Chip) (b : List Byte) : Bool :=
  decide (c.pkg.strands < (c.hanks.tab.map (fun e => e.2.strands.length)).sum + crStrands b) ||
    decide (4096 < (c.hanks.tab.map (fun e => e.2.hostMax)).sum + numAt b 92 2)

/-- CONSENT (R399) and WITHDRAW (R401): well formed? -/
def consentOk (b : List Byte) : Bool :=
  let k := numAt b 64 1
  let zero := fun pos n => numAt b pos n == 0
  decide (k ≤ 8) && k != 3 && k != 4 && zero 65 7 && zero 100 28 &&
    (if k = 1 then b.length == 128 + 1665 else if k = 2 then decide (128 < b.length) else b.length == 128) &&
    (if k = 1 || k = 8 then true else zero 72 8 && zero 80 8) && (if k = 1 || k = 2 then zero 88 8 else true) && (if k = 0 then true else zero 96 4)
def withdrawOk (b : List Byte) : Bool := b.length == 80 && numAt b 65 3 == 0 && numAt b 72 8 == 0

/-- A consent in force. -/
def Hank.consent? (k : Hank) (kind : Nat) : Option Consent := k.consents.find? (fun q => q.kind == kind)

/-- STRAND_SET (R403): entries. -/
def ssStrands (b : List Byte) : List (List Byte) := entriesAt b 80 (numAt b 64 2) 4
def ssRanges (b : List Byte) : List (List Byte) := entriesAt b (80 + 4 * numAt b 64 2) (numAt b 66 2) 40
def ssAdded (b : List Byte) : List Nat := ((ssStrands b).filter (fun e => !bit (numAt e 2 1) 1)).map (fun e => numAt e 0 2)
def ssDropped (b : List Byte) : List Nat := ((ssStrands b).filter (fun e => bit (numAt e 2 1) 1)).map (fun e => numAt e 0 2)
def Chip.strandSetOk (c : Chip) (k : Hank) (b : List Byte) : Bool :=
  let left := k.strands.filter (fun s => !(ssDropped b).contains s) ++ ssAdded b
  let rs := (ssRanges b).map rangeOf
  b.length == 80 + 4 * numAt b 64 2 + 40 * numAt b 66 2 && numAt b 68 12 == 0 &&
    (ssStrands b).all (fun e => decide (numAt e 0 2 ≤ 0xFFE) && (numAt e 2 1 == 0 || numAt e 2 1 == 2) && numAt e 3 1 == 0) &&
    distinct left && decide (left.length ≤ 256) && (ssDropped b).all k.strands.contains && (ssRanges b).all (c.rangeOk k.first k.count left) &&
    rs.all (fun r => !bit r.flags 1) && distinct (rs.map (·.bob) ++ k.ranges.map (·.bob) ++ k.lanes.map (·.bob)) &&
    spansApart ((k.ranges.filter (fun r => !(ssDropped b).contains r.strand) ++ rs).flatMap (fun r => r.spans (c.worsted r)))

/-! Checks of a complete body (R387). -/

/-- Does the hank's state admit the kind (Table 14.3)? -/
def kindAdmitted (kind st : Nat) : Bool :=
  match kind with
  | 0x01 => st == 0
  | 0x02 => st == 1
  | 0x03 => st == 1 || st == 3 || st == 4
  | 0x10 => st == 1 || st == 3 || st == 4
  | 0x11 => st == 3 || st == 4
  | 0x12 => st == 3
  | _ => false

/-- The key of a kind in a hank's table of the last `SEQ` (R387): CONSENT by its consent kind. -/
def seqKey (b : List Byte) : Nat := if obKind b = 0x10 then 0x100 + numAt b 64 1 else obKind b

/-- Is the body well formed for its kind? -/
def Chip.bodyOk (c : Chip) (b : List Byte) : Bool :=
  obHeadOk b &&
    (match obKind b, c.hank? (obHank b) with
     | 0x01, _ => c.createOk b
     | 0x02, some k => b.length == 128 && numAt b 65 3 == 0 && numAt b 112 16 == 0 && decide (numAt b 64 1 < k.owners.length)
     | 0x03, some _ => b.length == 64
     | 0x10, some _ => consentOk b
     | 0x11, some k => withdrawOk b && numAt b 64 1 != 2 &&
         (match k.consent? (numAt b 64 1) with | some q => q.seq == numAt b 68 4 | none => false)
     | 0x12, some k => c.strandSetOk k b
     | _, _ => false)

/-- Do ranges meet a range or metadata region of another hank (R236, R390)? -/
def Chip.spansTaken (c : Chip) (h : Nat) (rs : List RangeEnt) : Bool :=
  let spans := rs.flatMap (fun r => r.spans (c.worsted r))
  c.hanks.tab.any (fun e => e.1 != h && (e.2.ranges.flatMap (fun r => r.spans (c.worsted r))).any (fun a => spans.any (spansMeet a)))

/-- What DENIED refuses beyond the header (R390, R393, R398, R403). -/
def Chip.bodyDenied (c : Chip) (b : List Byte) : Bool :=
  match obKind b, c.hank? (obHank b) with
  | 0x01, _ => c.createOk b && c.createTaken b
  | 0x02, _ => !(match tget? c.spdm.sess (numAt b 68 4) with | some s => s.hybrid | none => false)
  | 0x10, some k => consentOk b && k.thresh.getD (numAt b 64 1) 0 == 0
  | 0x12, some k => (ssDropped b).contains k.active || c.spansTaken (obHank b) ((ssRanges b).map rangeOf)
  | _, _ => false

/-- What STALE_EPOCH refuses (R387, R393, R396).
STALE_EPOCH for a `CEREMONY` that is not the current one in other bodies than TEARDOWN is this model's choice (assumption 160). -/
def Chip.bodyStale (c : Chip) (b : List Byte) : Bool :=
  match obKind b, c.hank? (obHank b) with
  | 0x01, _ => decide (obCer b ≤ tget c.hanks.seenCer (obHank b) 0)
  | 0x02, some k => (tget? k.shares (numAt b 64 1)).isSome || obCer b != k.ceremony
  | 0x03, some k => obCer b != k.ceremony
  | _, some k => decide (obSeq b ≤ tget k.seqs (seqKey b) 0) || obCer b != k.ceremony
  | _, none => false

/-- The pending store's limits, and the limits of the body's resources (R388, R390, R403). -/
def Chip.bodyOver (c : Chip) (b : List Byte) : Bool :=
  decide (16 ≤ c.hanks.pend.length) || decide (393216 < (c.hanks.pend.map (fun p => p.body.length)).sum + b.length) ||
    (obKind b == 0x01 && c.createOver b) ||
    (obKind b == 0x12 && decide (c.pkg.strands < (c.hanks.tab.map (fun e => e.2.strands.length)).sum + (ssAdded b).length))

/-- The status a complete body is answered with (R387). -/
def Chip.bodyStatus (c : Chip) (b : List Byte) (fits : Bool) : Status :=
  let denied := !c.leads || c.phase != 0x40 || numAt b 16 8 != c.pkgSerial || decide (obExpiry b ≤ c.slot) ||
    !kindAdmitted (obKind b) (c.hankSt (obHank b)) || c.bodyDenied b || ((c.get F.DBG_STATUS_SPN_DBG == 1 || c.hanks.halted) && obKind b == 0x01)
  firstStatus [(denied, .denied), (!c.bodyOk b, .badArg), (c.bodyStale b, .staleEpoch), (c.bodyOver b || !fits, .limitReached), (true, .pending)]

/-- An event about an object (layout OBJ). -/
def Chip.objLog (c : Chip) (code h kind owner : Nat) (st : Status) (seq : Nat) (d : List Byte) : Chip :=
  c.log code uSPN (aObj h kind owner st.code seq d)


/-! Consents (R398 to R402). -/

/-- A facility of kinds 5 to 7 stays only while every hank consents to it (R402). -/
def Chip.facilities (c : Chip) : Chip :=
  c.each [5, 6, 7] (fun c kind => if c.hanks.tab.all (fun e => (e.2.consent? kind).isSome) && !c.hanks.tab.isEmpty then c else
    if c.hanks.tab.isEmpty then c else c.facilityOff kind)

/-- FREEZE of the CKPT Bobbins of a hank (R400). -/
def Chip.freezeCkpt (c : Chip) (h : Nat) : Chip :=
  let ids := (c.cust.bobs.filter (fun e => e.2.hank == h && e.2.cls == clsCKPT)).map (·.1)
  let c := c.each ids Chip.freezeBob
  if c.journalBar.isNone then c.each (c.runRecs 0x06 ids (·.epoch) (fun _ => 0)) (fun c r => (c.jWrite r).1) else c

/-- A consent ends, and what it gated stops within the slot. -/
def Chip.consentEnd (c : Chip) (h kind : Nat) : Chip :=
  match c.hank? h with
  | none => c
  | some k =>
    match k.consent? kind with
    | none => c
    | some q =>
      let c := c.hankMod h (fun k => { k with consents := k.consents.filter (fun q => q.kind != kind) })
      let c := (c.objLog 0x1E03 h kind 0 .ok q.seq [])
      if kind = 0 then (if c.leads then c.freezeCkpt h else c)
      else if kind = 8 then c.put F.DBG_CTRL_WATCH (withBit (c.get F.DBG_CTRL_WATCH) h false)
      else c.facilities

/-- A CONSENT takes effect (R400); a RECIPE is first accepted under R371. -/
def Chip.consentBegin (c : Chip) (h : Nat) (b : List Byte) (d : List Byte) (owners : List Nat) : Chip × Status :=
  let kind := numAt b 64 1
  let q : Consent := { kind := kind, seq := obSeq b, first := numAt b 72 8, last := numAt b 80 8, endSlot := numAt b 88 8, count := numAt b 96 4,
                       params := b.drop 128, owners := maskOf owners }
  let a := if kind = 2 then
      (if c.hankSt h = 1 then
        (if rcFormat h q.params && c.rcUsed h + rcProgs q.params ≤ 16384 then (c, Status.ok)
         else (c.log 0x1D03 uDGT (aStep h c.node 0 0 0 Status.badArg.code 0 (rcSeq q.params)), .badArg))
       else c.rcAccept h q.params)
    else (c, .ok)
  if a.2 != .ok then a
  else
    let c := a.1
    let c := match (match c.hank? h with | some k => k.consent? kind | none => none) with
      | some old => c.objLog 0x1E03 h kind 0 .ok old.seq []
      | none => c
    let c := c.hankMod h (fun k => { k with consents := k.consents.filter (fun q => q.kind != kind) ++ [q] })
    ((c.objLog 0x0E03 h kind 0 .ok q.seq d), .ok)

/-! Scrubs (R406 to R409). -/

/-- A SCRUB_CMD payload (Table 14.9). -/
def scrubPayload (op strand number launch h : Nat) (nonce : List Byte) : List Byte :=
  pack [(1, op), (1, if op = 1 || op = 3 then 15 else 0), (2, strand), (4, number), (4, launch), (1, h), (3, 0)] ++ padTo 16 nonce

/-- Send a scrub command to a die under a number: the outstanding scrub is mirrored first (Table 15.5). -/
def Chip.scrubDie (c : Chip) (h op strand launch number n : Nat) : Chip :=
  let d := c.rnd 16
  let c := d.2.hankMod h (fun k => { k with scrubs := tput k.scrubs n { number := number, nonce := d.1, op := op } })
  c.mirrorThen (.scrub number h n d.1) (.ring 0x50 n (scrubPayload op strand number launch h d.1))

/-- A scrub of several dies of a hank, under the next scrub number. -/
def Chip.scrubAll (c : Chip) (h op strand launch : Nat) (dies : List Nat) : Chip :=
  let n := (c.hanks.scrub + 1) % 2 ^ 32
  (c.ha (fun u => { u with scrub := n })).each dies (fun c d => c.scrubDie h op strand launch n d)

/-- RELEASE or ABORT to the dies of a hank. -/
def Chip.scrubTell (c : Chip) (h op : Nat) : Chip :=
  match c.hank? h with
  | none => c
  | some k => c.each (c.hankDies h) (fun c n =>
      match tget? k.scrubs n with
      | some s => c.ringSend 0x50 n (scrubPayload op 0 s.number 0 h [])
      | none => c)

/-- A scrub event about a die. -/
def Chip.scrubLog (c : Chip) (code h n number : Nat) : Chip := c.log code uSPN (aStep h n (c.twActive h) 0 0 0 0 number)

/-- KEYING fails: the hank is torn down (Table 14.6). -/
def Chip.hankFail (c : Chip) (h : Nat) : Chip :=
  match c.hank? h with
  | some k => if k.st = 2 then
      (c.hankMod h (fun k => { k with st := 5, phase := 0 })).objLog 0x2E01 h 1 0 .ok k.ceremony k.digest
    else c
  | none => c

/-- A die's scrub is not accepted, or is missing: the die is withdrawn (R409). -/
def Chip.scrubFail (c : Chip) (h n number : Nat) : Chip :=
  let c := c.hankMod h (fun k => { k with scrubs := tdel k.scrubs n })
  let c := (c.cardWithdraw n).twDieLeft n
  (c.scrubLog 0x2E02 h n number).hankFail h

/-- A strand switch is complete once every die's scrub is verified and RELEASE was sent: event 0x0E04 (R405). -/
def Chip.switchDone (c : Chip) (h : Nat) : Chip :=
  match c.hank? h with
  | some k => (match k.switch with
    | some w => if w.fired && w.released && k.scrubs.all (·.2.ok) then
        let num := (k.scrubs.headD (0, { number := 0, nonce := [], op := 0 })).2.number
        (c.hankMod h (fun k => { k with switch := none, scrubs := [] })).log 0x0E04 uSPN (aStep h c.node w.into 0 0 0 0 num)
      else c
    | none => c)
  | none => c

/-- The digest a die must answer with (R407). -/
def scrubDigest (nonce : List Byte) (n bytes : Nat) : List Byte :=
  Config.sha3_384 (ascii "GGM-1 SCRUB" ++ nonce ++ le 1 n ++ le 1 15 ++ le 8 bytes ++ List.replicate 64 0#8)

/-- A SCRUB_DIGEST arrives (R407, R409). -/
def Chip.scrubbed (c : Chip) (m : Inbox) : Chip :=
  if !c.leads then c
  else
    let n := m.src
    let p := m.payload
    let number := numAt p 0 4
    match c.hankOfDie n with
    | none => (c.cardWithdraw n).scrubLog 0x2E02 0 n number
    | some h =>
      let out := match c.hank? h with | some k => tget? k.scrubs n | none => none
      let bytes := numAt p 8 8
      let good := match out with
        | some s => s.number == number && !s.ok && numAt p 4 1 == 0 && numAt p 5 1 == 15 && slice p 16 48 == scrubDigest s.nonce n bytes &&
            (match tget? c.hanks.dieRef n with | some r => r == bytes | none => true)
        | none => false
      if good then
        let c := c.ha (fun u => { u with dieRef := tput u.dieRef n bytes })
        let c := c.hankMod h (fun k => { k with scrubs := k.scrubs.map (fun e => if e.1 = n then (n, { e.2 with ok := true }) else e) })
        (c.scrubLog 0x0E05 h n number).switchDone h
      else c.scrubFail h n number

/-- A die of a hank that is not FREE is released again: it is scrubbed (R408), and its records number from 0 (R354). -/
def Chip.hankReleased (c : Chip) (n : Nat) : Chip :=
  let c := c.twReleased n
  match c.hankOfDie n with
  | some h => if c.leads then c.scrubAll h 3 0 0 [n] else c
  | none => c

/-- Are all scrubs of a hank verified? -/
def Hank.scrubsOk (k : Hank) : Bool := k.scrubs.all (·.2.ok)

/-! Strand switches (R404, R405). -/

/-- A STRAND launch scheduled: ARM to every die of the hank. -/
def Chip.strandArm (c : Chip) (n : Nat) : Chip :=
  match bitsIn (c.lhanks n) 16 with
  | h :: _ =>
    let arg := (c.rd (R.WHL_Ln_ARG n)).toNat
    if c.geti F.WHL_Ln_CFG_STRAND n = 1 && (c.hank? h).isSome then
      let c := c.hankMod h (fun k => { k with switch := some { launch := c.lnum n, out := arg % 4096, into := arg / 4096 % 4096 }, scrubs := [] })
      c.scrubAll h 1 (arg % 4096) (c.lnum n) (c.hankDies h)
    else c
  | [] => c

/-- Strand-owned Bobbins of a strand of a hank. -/
def Chip.strandBobs (c : Chip) (h s : Nat) : List Nat := (c.cust.bobs.filter (fun e => e.2.hank == h && e.2.strand == s && s != 0xFFF)).map (·.1)

/-- The switch at slot *L*: the STRAND record, the active strand, and RESUME of the outgoing strand's Bobbins to an epoch two above. -/
def Chip.strandFire (c : Chip) (num : Nat) : Chip :=
  match c.hanks.tab.find? (fun e => match e.2.switch with | some w => w.launch == num && !w.fired | none => false) with
  | none => c
  | some e =>
    match e.2.switch with
    | none => c
    | some w =>
      let h := e.1
      let c := c.twStrand h w.out w.into num
      let c := (c.hankMod h (fun k => { k with active := w.into, switch := some { w with fired := true } }))
      if !c.leads then c
      else
        let ids := (c.strandBobs h w.out).filter (fun i => match c.bob? i with | some b => b.st == 1 && !b.frozen && !b.imported && !b.reenc | none => false)
        let c := c.each ids (fun c i => match c.bob? i with | some b => c.resumeBob i (b.epoch + 2) | none => c)
        if c.journalBar.isNone then c.each (c.runRecs 0x09 ids (·.epoch) (fun _ => 0)) (fun c r => (c.jWrite r).1) else c

/-- Switches that go on: a cancelled one sends ABORT; a fired one sends RELEASE once every Bobbin of the outgoing strand is enabled,
and never in a FROZEN hank (R404, R405, Table 14.12). -/
def Chip.switches (c : Chip) : Chip :=
  c.each (c.hanks.tab.map (·.1)) (fun c h =>
    match c.hank? h with
    | none => c
    | some k =>
      match k.switch with
      | none => c
      | some w =>
        if !w.fired then
          if (c.lfind w.launch).isSome && (match c.lfind w.launch with | some n => c.lst n != 5 | none => false) then c
          else
            let c := if c.leads then c.scrubTell h 4 else c
            c.hankMod h (fun k => { k with switch := none, scrubs := [] })
        else if w.released || !c.leads || k.st != 3 then c
        else if (c.strandBobs h w.out).all (fun i => match c.bob? i with | some b => !bit b.warp 7 || b.enable == 3 | none => true) then
          ((c.scrubTell h 2).hankMod h (fun k => { k with switch := some { w with released := true } })).switchDone h
        else c)

/-! Objects that take effect. -/

/-- The hank a CREATE describes; ranges the applied `INPKG_TIER` makes WORSTED are entered so (R235). -/
def Chip.hankOf (c : Chip) (b d : List Byte) (ticket : Nat) : Hank :=
  { ceremony := obCer b, owners := crOwnerKeys b, flags := crFlags b, dies := numAt b 72 8, first := numAt b 80 4, count := numAt b 84 4,
    epochBase := numAt b 88 4, hostMax := numAt b 92 2, thresh := (List.range 9).map (fun i => numAt b (96 + i) 1),
    ranges := (crRangeEnts b).map (fun e => let r := rangeOf e; { r with tier := if c.worsted r then 1 else 0 }),
    lanes := (crLaneEnts b).map laneOf, strands := (crStrandEnts b).map (fun e => numAt e 0 2),
    active := (match (crStrandEnts b).find? (fun e => bit (numAt e 2 1) 0) with | some e => numAt e 0 2 | none => 0xFFF),
    expiry := obExpiry b, digest := d, ticket := ticket }

/-- A hank gone: dies, ranges, lanes and window released with it; its quiet class no longer forces groups. -/
def Chip.hankFree (c : Chip) (h : Nat) : Chip :=
  let c := c.ha (fun u => { u with tab := tdel u.tab h, pend := u.pend.filter (fun p => p.hank != h) })
  let c := (((c.puti F.DST_HANKn_VALID h 0).puti F.DST_HANKn_FROZEN h 0).puti F.DST_HANKn_CEREMONY h 0).put F.DBG_CTRL_WATCH
    (withBit (c.get F.DBG_CTRL_WATCH) h false)
  (c.cu (fun u => { u with keys := { u.keys with hank := tdel u.keys.hank h, noise := tdel u.keys.noise h } }))

/-- GATHERING ends with every endorsement and share: KEYING (Table 14.6). -/
def Chip.gathered (c : Chip) (h : Nat) : Chip :=
  match c.hank? h with
  | none => c
  | some k =>
    if k.st != 1 || k.endorsed.length < k.owners.length || k.shares.length < k.owners.length then c
    else
      let c := c.ha (fun u => { u with pend := u.pend.filter (fun p => p.digest != k.digest), seenCer := tput u.seenCer h k.ceremony })
      ((c.hankMod h (fun k => { k with st := 2, phase := 0 })).finishCall k.ticket .ok [])

/-- A SHARE is unwrapped (R393). -/
def Chip.shareIn (c : Chip) (p : Pend) : Chip × Status :=
  let owner := numAt p.body 64 1
  match tget? c.spdm.sess (numAt p.body 68 4) with
  | none => (c, .denied)
  | some s =>
    let key := Config.kmac256 s.secret (ascii "share" ++ le 1 p.hank ++ le 4 p.ceremony ++ le 1 owner) (ascii "GGM-1 CEREMONY") 32
    match Config.kwUnwrap key (slice p.body 72 40) with
    | none => (c.objLog 0x3E02 p.hank 2 owner .integrity 0 p.digest, .integrity)
    | some x =>
      let c := c.hankMod p.hank (fun k => { k with shares := tput k.shares owner x })
      ((c.mirrorItem (.share p.hank owner x)).1, .ok)

/-- A TEARDOWN takes effect (Table 14.6, R397): the chain is sealed, consents end. -/
def Chip.teardown (c : Chip) (h : Nat) : Chip :=
  match c.hank? h with
  | none => c
  | some k =>
    if k.st = 1 then (c.finishCall k.ticket .noConsent []).hankFree h
    else
      let c := (c.twClose h).hankMod h (fun k => { k with st := 5, phase := 0 })
      (c.each (k.consents.map (·.kind)) (fun c kind => c.consentEnd h kind))

/-- Bobbins destroyed outside the command queue, with their records. -/
def Chip.dropBobs (c : Chip) (ids : List Nat) : Chip :=
  let c := c.each ids (fun c i => c.discard i false)
  let recs := c.runRecs 0x07 ids (·.epoch) (fun _ => 0)
  let c := c.each ids Chip.destroyBob
  if c.journalBar.isNone then c.each recs (fun c r => (c.jWrite r).1) else c

/-- The lowest `SUB` no Bobbin of a class uses (assumption 39). -/
def Chip.freeSub (c : Chip) (cls : Nat) : Nat :=
  let used := (c.cust.bobs.filter (fun e => e.2.cls == cls)).map (fun e => e.2.sub)
  ((List.range (used.length + 1)).find? (fun n => !used.contains n)).getD 0

/-- A Bobbin created outside the command queue: its key, blob, descriptor (R168, R233); its record follows with the others. -/
def Chip.makeBob (c : Chip) (id : Nat) (b : Bob) : Chip :=
  let c := c.bobNew id b
  let k := c.derive id b.epoch
  let c := match k.2 with | some key => k.1.blobWrite id b.epoch key 1 | none => k.1
  c.warpDesc id

/-- The Bobbins of range entries. -/
def Chip.makeRanges (c : Chip) (h : Nat) (k : Hank) (rs : List RangeEnt) : Chip :=
  c.each rs (fun c r =>
    let cls := if r.tier = 1 then clsWORSTED else clsFLEECE
    c.makeBob r.bob { cls := cls, hank := h, strand := r.strand, warp := Nat.land r.warp 0xC7, sub := c.freeSub cls, epoch := k.epochBase })

/-- A STRAND_SET takes effect (R403). -/
def Chip.strandSet (c : Chip) (h : Nat) (b : List Byte) : Chip :=
  let drop := ssDropped b
  let c := c.dropBobs ((c.cust.bobs.filter (fun e => e.2.hank == h && drop.contains e.2.strand)).map (·.1))
  let rs := (ssRanges b).map (fun e => let r := rangeOf e; { r with tier := if c.worsted r then 1 else 0 })
  let c := c.hankMod h (fun k =>
    { k with strands := k.strands.filter (fun s => !drop.contains s) ++ ssAdded b, ranges := k.ranges.filter (fun r => !drop.contains r.strand) ++ rs })
  match c.hank? h with
  | some k =>
    let c := c.makeRanges h k rs
    (if c.journalBar.isNone then c.each (c.createRecs (rs.map (·.bob))) (fun c r => (c.jWrite r).1) else c)
  | none => c

/-- How many owners must endorse an object (Table 14.3). -/
def Hank.need (k : Hank) (b : List Byte) : Nat :=
  match obKind b with
  | 0x02 => 1
  | 0x03 => if bit k.flags 1 then 0 else k.thresh.getD 3 0
  | 0x10 => if numAt b 64 1 = 2 then k.owners.length else k.thresh.getD (numAt b 64 1) 0
  | 0x11 => 1
  | 0x12 => k.thresh.getD 4 0
  | _ => k.owners.length

/-- An object other than CREATE takes effect: its call completes, its number is noted (R387, R388). -/
def Chip.objEffect (c : Chip) (p : Pend) : Chip :=
  let h := p.hank
  let r := match p.kind with
    | 0x02 => c.shareIn p
    | 0x03 => (c.teardown h, Status.ok)
    | 0x10 => c.consentBegin h p.body p.digest p.owners
    | 0x11 => (c.consentEnd h (numAt p.body 64 1), .ok)
    | 0x12 => (c.strandSet h p.body, .ok)
    | _ => (c, .ok)
  let c := r.1.ha (fun u => { u with pend := u.pend.filter (fun q => q.digest != p.digest) })
  let c := if r.2 = .ok && p.kind ≥ 0x10 then c.hankMod h (fun k => { k with seqs := tput k.seqs (seqKey p.body) p.seq }) else c
  let c := c.ha (fun u => { u with asked := u.asked.map (fun a => if a.2.2.1 = p.digest then (a.1, a.2.1, a.2.2.1, r.2.code) else a) })
  let c := if p.ticket = 0 then c else c.finishCall p.ticket r.2 []
  c.gathered h

/-- Objects of a kind that an equal or higher number has overtaken complete with STALE_EPOCH (Table 14.12). -/
def Chip.objOvertaken (c : Chip) (h key seq : Nat) : Chip :=
  let gone := c.hanks.pend.filter (fun p => p.hank == h && decide (0x10 ≤ p.kind) && seqKey p.body == key && decide (p.seq ≤ seq))
  (c.ha (fun u => { u with pend := u.pend.filter (fun p => !gone.contains p) })).each gone (fun c p =>
    (c.finishCall p.ticket .staleEpoch []).objLog 0x1E01 h p.kind 0 .staleEpoch p.seq p.digest)

/-- Objects whose endorsements suffice take effect. -/
def Chip.objReady (c : Chip) (d : List Byte) : Chip :=
  match c.hanks.pend.find? (fun p => p.digest == d) with
  | none => c
  | some p =>
    match c.hank? p.hank with
    | none => c
    | some k =>
      if p.kind = 1 then (c.hankMod p.hank (fun k => { k with endorsed := p.owners })).gathered p.hank
      else if p.owners.length < k.need p.body then c
      else
        let c := c.objEffect p
        if 0x10 ≤ p.kind then c.objOvertaken p.hank (seqKey p.body) p.seq else c

/-! The pending store (R387, R388). -/

/-- A body is checked and, when nothing refuses it, waits for its endorsements; `ticket` is its call's. -/
def Chip.bodyIn (c : Chip) (b : List Byte) (ticket : Nat) (fits : Bool) : Chip × Status :=
  let d := Config.sha3_384 b
  let st := c.bodyStatus b fits
  if st = .pending then
    let p : Pend := { digest := d, kind := obKind b, hank := obHank b, ceremony := obCer b, seq := obSeq b, expiry := obExpiry b, body := b, ticket := ticket }
    let c := c.ha (fun u => { u with pend := u.pend ++ [p] })
    let c := if p.kind = 1 then (c.ha (fun u => { u with tab := tput u.tab p.hank (c.hankOf b d ticket) })) else c
    ((c.mirrorItem (.object b)).1, .pending)
  else (c.objLog 0x1E01 (obHank b % 256) (obKind b) 0 st (obSeq b) d, st)

/-- An endorsement is checked against a pending object (R387); `genuine` says both its signatures verify. -/
def Chip.endorse (c : Chip) (e : List Byte) (genuine : Bool) : Chip × Status :=
  let d := slice e 0 48
  let owner := numAt e 48 1
  match c.hanks.pend.find? (fun p => p.digest == d) with
  | none => (c.objLog 0x1E01 0 0 owner .denied 0 d, .denied)
  | some p =>
    match c.hank? p.hank with
    | none => (c, .denied)
    | some k =>
      let key := Config.sha3_384 (slice e 64 1952 ++ slice e 2016 97)
      let inSet := decide (owner < k.owners.length) && (p.kind != 2 || owner == numAt p.body 64 1)
      if !inSet || k.owners.getD owner [] != key then (c.objLog 0x1E05 p.hank p.kind owner .badArg p.seq d, .badArg)
      else if !genuine then (c.objLog 0x3E01 p.hank p.kind owner .integrity p.seq d, .integrity)
      else if p.owners.contains owner then (c, .ok)
      else
        let c := c.ha (fun u => { u with pend := u.pend.map (fun q => if q.digest = d then { q with owners := q.owners ++ [owner] } else q) })
        (((c.mirrorItem (.endorsed d owner)).1).objReady d, .ok)

/-- A pending object whose `EXPIRY` has passed is dropped (R388, Table 14.6). -/
def Chip.objExpire (c : Chip) (p : Pend) : Chip :=
  if c.slot ≤ p.expiry || !c.hanks.pend.contains p then c
  else
    let c := c.ha (fun u => { u with pend := u.pend.filter (fun q => q != p), asked := u.asked.map (fun a => if a.2.2.1 = p.digest then (a.1, a.2.1, a.2.2.1, Status.noConsent.code) else a) })
    let c := c.finishCall p.ticket .noConsent []
    let short := match c.hank? p.hank with | some k => decide (p.owners.length < k.need p.body) | none => true
    let c := if short then c.objLog 0x1E02 p.hank p.kind 0 .noConsent p.seq p.digest else c
    if p.kind = 1 && c.hankSt p.hank = 1 then (c.hankFree p.hank).objLog 0x2E01 p.hank 1 0 .noConsent p.ceremony p.digest else c

/-! KEYING and TEARING (R395, R397). -/

/-- K_hank is usable once its HANK_KEY group's program has started and the partner holds it (R180, R395). -/
def Chip.hankKeyed (c : Chip) (h : Nat) (key : List Byte) : Chip :=
  match c.hank? h with
  | none => c
  | some k =>
    if k.phase != 1 then c
    else
      let c := c.cu (fun u => { u with keys := { u.keys with hank := tput u.keys.hank h key, noise := tput u.keys.noise h (kNoise key) } })
      let c := ((c.puti F.DST_HANKn_VALID h 1).puti F.DST_HANKn_CEREMONY h k.ceremony).puti F.DST_HANKn_FROZEN h 0
      c.hankMod h (fun k => { k with phase := 2 })

/-- The next step of KEYING whose wait is over. -/
def Chip.keyingStep (c : Chip) (h : Nat) : Chip :=
  match c.hank? h with
  | none => c
  | some k =>
    if k.st != 2 || !c.leads then c
    else if c.jFailed || c.hanks.halted then c.hankFail h
    else
      match k.phase with
      | 0 =>
        let g := c.grpsReady [1, 2]
        if !g.2 then g.1
        else
          let c := g.1
          let key := kHank (k.shares.map (·.2)).flatten h k.ceremony
          let r := c.jWrite
            { jseq := 0, op := 0x10, hank := h, first := 0xFFFFFFFF, last := 0xFFFFFFFF, value := k.ceremony, arg := k.owners.length,
              parts := c.hankParts key }
          let c := r.1.hankMod h (fun k => { k with shares := [], phase := 1, jseq := r.2 })
          let p := c.mirrorItem (.hankKey h k.ceremony key)
          p.1.hold (.hankKey h key) p.2 r.2
      | 2 =>
        if c.get64 R.BOB_JDUR_LO < k.jseq then c
        else (c.hankMod h (fun k => { k with phase := 3, scrubs := [] })).scrubAll h 3 0 0 (c.hankDies h)
      | 3 =>
        if !k.scrubsOk || k.scrubs.isEmpty then c
        else
          let c := c.facilities
          let log := k.ranges.find? (fun r => bit r.flags 1)
          let rcp := match k.consent? 2 with | some q => q.params | none => []
          let c := c.twOpen h k.ceremony (match log with | some r => r.base | none => 0) (match log with | some r => r.len / granule | none => 0) rcp
          let c := (c.makeRanges h k k.ranges).each k.lanes (fun c l =>
            c.makeBob l.bob { cls := clsLINK, hank := h, strand := 0xFFF, warp := Nat.land l.warp 0xC7, limit := l.limit, sub := l.lane, epoch := k.epochBase })
          let c := c.each (c.createRecs (c.hankBobs h)) (fun c r => (c.jWrite r).1)
          c.hankMod h (fun k => { k with phase := 4, scrubs := [] })
      | 4 =>
        let bs := c.cust.bobs.filter (fun e => e.2.hank == h)
        if bs.any (fun e => e.2.enable == 4) then c.hankFail h
        else if bs.all (fun e => e.2.enable == 3) then
          ((c.hankMod h (fun k => { k with st := 3, phase := 0 })).objLog 0x0E01 h 1 0 .ok k.ceremony k.digest)
        else c
      | _ => c

/-- While any quiet hank exists, groups 2, 3 and 4 are forced on (R413). -/
def Chip.quietForce (c : Chip) : Chip :=
  if c.quietHanks.isEmpty then c
  else (c.put F.PWR_GRP_CTRL_FORCE_ON (Nat.lor (c.get F.PWR_GRP_CTRL_FORCE_ON) 14)).forced

/-- The next step of TEARING whose wait is over; `abort` ends the hank's Tally accumulations (R397). -/
def Chip.tearingStep (c : Chip) (h : Nat) (abort : Chip → Nat → Chip) : Chip :=
  match c.hank? h with
  | none => c
  | some k =>
    if k.st != 5 || !c.leads then c
    else
      let binds := fun (c : Chip) n => (c.bound (c.lnum n)).any (fun e => e.2.hank == h)
      match k.phase with
      | 0 =>
        let c := c.each ((List.range 16).filter (fun n => c.lst n == 1 && binds c n)) (fun c n => c.launchCancel n 1)
        if (List.range 16).any (fun n => (c.lst n == 2 || c.lst n == 3) && (binds c n || c.cust.bobs.any (fun e => e.2.hank == h && e.2.launch == c.lnum n)))
        then c
        else
          let c := abort c h
          let ids := c.hankBobs h
          let c := (c.each ids Chip.freezeBob).hankFrozen h
          let c := if c.journalBar.isNone then (c.jWrite { jseq := 0, op := 0x06, hank := h, first := 0xFFFFFFFF, last := 0xFFFFFFFF }).1 else c
          let c := c.dropBobs ids
          (c.hankMod h (fun k => { k with phase := 1, scrubs := [] })).scrubAll h 3 0 0 (c.hankCarded h)
      | 1 =>
        if !k.scrubsOk then c
        else
          let r := c.jWrite { jseq := 0, op := 0x11, hank := h, first := 0xFFFFFFFF, last := 0xFFFFFFFF, value := k.ceremony }
          let c := r.1.hankMod h (fun k => { k with phase := 2, jseq := r.2 })
          (c.mirrorItem (.hankDrop h)).1
      | 2 =>
        if c.get64 R.BOB_JDUR_LO < k.jseq && !c.jFailed then c
        else (c.hankFree h).objLog 0x0E02 h 3 0 .ok k.ceremony k.digest
      | _ => c

/-- Steps of KEYING or TEARING in turn while they go on. -/
def Chip.hankSteps (c : Chip) (h : Nat) (abort : Chip → Nat → Chip) : Chip :=
  (((((c.keyingStep h).keyingStep h).tearingStep h abort).tearingStep h abort).tearingStep h abort).quietForce

/-! Quiet replies (R413, R415). -/

/-- The slot at which a held reply leaves. -/
def Late.due (l : Late) : Nat :=
  let k := max 1 ((l.ready + l.period - 1 - l.arrive) / l.period)
  l.arrive + k * l.period

end Sys2Proof.Machine
end

