-- ==== Sys2Proof/Machine/WhorlEv.lean ====
section
/-!
DEFINITION. Whorl time and launches as operations (R202 to R226): markers, alignment, cross-package offset, scheduling, the horizon,
the final point, firing, the end of grace, and cancelling.
-/

namespace Sys2Proof.Machine

/-- The signed value of an `n`-bit number. -/
def signed (n v : Nat) : Int := if v < 2 ^ (n - 1) then (v : Int) else (v : Int) - 2 ^ n
/-- The `n` low bits of a signed value, clamped to ±`top`. -/
def satBits (n top : Nat) (x : Int) : Nat := ((max (-(top : Int)) (min (top : Int) x)) % (2 ^ n : Int)).toNat

/-! Alignment (Table 8.2). -/

/-- The alignment state moves. -/
def Chip.alignSet (c : Chip) (st : Nat) : Chip :=
  let old := c.get F.WHL_STATUS_ALIGN
  (((c.put F.WHL_STATUS_ALIGN st).noilTrans uWHL 8 2 0 old st)).trace 8 2 0 (pack [(1, old), (1, st)])

/-- The arguments of an ALIGN event. -/
def Chip.alignArgs (c : Chip) (diff : Int) (src missed : Nat) : List Byte :=
  aAlign diff (c.get F.WHL_STATUS_ALIGN) src (signed 16 (c.get F.WHL_XPKG_STATUS_OFFSET)) missed

/-- Becoming time master (R204): ALIGNED unless on the RC oscillator, following its own markers. -/
def Chip.setMaster (c : Chip) : Chip :=
  if c.get F.WHL_STATUS_IS_MASTER = 1 then c
  else
    let c := (c.put F.WHL_STATUS_IS_MASTER 1).put F.WHL_STATUS_MASTER c.node
    if c.get F.PWR_STATUS_ON_RC = 1 then c else c.alignSet 2

/-- No longer time master. -/
def Chip.dropMaster (c : Chip) : Chip := c.put F.WHL_STATUS_IS_MASTER 0

/-- Markers of the partner are in force: one came within 64 slots. -/
def Chip.partnerMarks (c : Chip) : Bool := c.get F.WHL_STATUS_MASTER == c.partnerNode && decide (c.slot < c.whl.seen + 64) && c.whl.seen != 0

/-- The pre-lease master from phase 0x24 (R204): GGM-A, or GGM-B when GGM-A is not in the ring; neither while its partner's markers are in
force. -/
def Chip.masterStart (c : Chip) (other marks : Bool) : Chip :=
  if c.pkg = .hx4 then c.setMaster
  else if marks || c.partnerMarks || c.leads then c
  else if c.get F.GEN_ID_SIDE = 0 || !(other || c.present c.partnerNode) then c.setMaster
  else c

/-- A correction by `DIFF` at the next slot boundary. -/
def Chip.correct (c : Chip) (diff : Int) : Chip :=
  { c with whl := { c.whl with corr := diff, good := 0 } }.add F.WHL_ALIGN_CORR 1

/-- A good marker's `DIFF` taken by the state machine. -/
def Chip.markerDiff (c : Chip) (diff : Int) (src : Nat) : Chip :=
  let c := c.put F.WHL_ALIGN_DIFF (satBits 8 127 diff)
  let small := decide (diff.natAbs ≤ 1)
  if c.get F.PWR_STATUS_ON_RC = 1 then c
  else
    match c.get F.WHL_STATUS_ALIGN with
    | 0 => let c := c.alignSet 1; if small then { c with whl := { c.whl with good := 1 } } else c.correct diff
    | 1 =>
      if !small then c.correct diff
      else if c.whl.good = 0 then { c with whl := { c.whl with good := 1 } }
      else (c.alignSet 2).log 0x0805 uWHL (({ c with whl := c.whl }.alignSet 2).alignArgs diff src 0)
    | _ => if small then c else ((c.alignSet 1).correct diff).log 0x1802 uWHL ((c.alignSet 1).alignArgs diff src 0)

/-- A marker's bytes (Table 8.1). -/
def markerBytes (t delay adj src flags : Nat) : List Byte :=
  let b := pack [(8, t), (2, delay), (2, adj), (1, src), (1, flags)]
  b ++ le 2 (crc16 b)

/-- A marker comes in from a ring direction (R205, R206): forwarded with the delays of this node and its segment as the last ring
training measured them, and taken when its direction is the one in use. -/
def Chip.markerIn (c : Chip) (cc : Bool) (b : List Byte) : Chip :=
  let src := numAt b 12 1
  if !c.svcUp || c.get F.SKN_CTRL_RING_EN = 0 || crc16 (b.take 14) != numAt b 14 2 || src = c.node then c
  else
    let c := c.send (.marker cc (markerBytes (numAt b 0 8) ((numAt b 8 2 + (if cc then c.whl.delayCc else c.whl.delay)) % 65536) (numAt b 10 2) src (numAt b 13 1)))
    if c.get F.WHL_STATUS_IS_MASTER = 1 then c.log 0x3801 uWHL (c.alignArgs 0 src 0)
    else if cc != c.cwBroken src c.node then c
    else
      let diff := (c.time : Int) - ((numAt b 0 8 * 16 + numAt b 8 2 + 8) / 16 : Nat)
      let c := ({ c with whl := { c.whl with seen := c.slot, adj := signed 16 (numAt b 10 2) } }.put F.WHL_STATUS_MASTER src).put F.WHL_STATUS_XPKG_ALIGNED
        (numAt b 13 1 % 2)
      c.markerDiff diff src

/-- Is every scheduled launch slot at least 64 slots away (R209)? -/
def Chip.adjOpen (c : Chip) : Bool :=
  (List.range 16).all (fun n => !(c.lst n == 1 || c.lst n == 2 || c.lst n == 3) || decide (c.slot + 64 ≤ c.lslot n) || decide (c.lslot n + 64 ≤ c.slot))

/-- The `ADJ` of this slot's marker at the master (R208, R209). -/
def Chip.adjNow (c : Chip) : Int :=
  if c.get F.WHL_XPKG_CTRL_MODE != 2 then 0
  else if c.get F.WHL_STATUS_XPKG_ALIGNED = 1 then (if 2 ≤ c.whl.left.natAbs then c.whl.left.sign else 0)
  else
    let a := max (-32767) (min 32767 c.whl.left)
    if a.natAbs ≤ 1 || c.adjOpen then a else 0

/-- The master's markers of a slot, one in each direction (R205). The master emits `DELAY` 0: that its own outgoing segment is not
counted is this model's choice (DESIGN CHOICE, assumption 148). -/
def Chip.markerOut (c : Chip) : Chip :=
  if !c.svcUp || c.get F.WHL_STATUS_IS_MASTER = 0 || c.get F.WHL_CTRL_MARKER_EN = 0 || c.get F.SKN_CTRL_RING_EN = 0 then c
  else
    let a := c.adjNow
    let b := markerBytes c.time 0 (a % (65536 : Int)).toNat c.node (c.get F.WHL_STATUS_XPKG_ALIGNED)
    let c := { c with whl := { c.whl with adj := a, left := if c.get F.WHL_STATUS_XPKG_ALIGNED = 1 then c.whl.left else c.whl.left - a } }
    (c.send (.marker false b)).send (.marker true b)

/-- The corrections due at a slot boundary (R206): a step forward, or a hold. -/
def Chip.boundary (c : Chip) : Chip :=
  let x : Int := c.whl.adj - c.whl.corr
  let c := { c with whl := { c.whl with adj := 0, corr := 0 } }
  if 0 ≤ x then { c with time := (c.time + x.toNat) % 2 ^ 64 } else { c with whl := { c.whl with hold := c.whl.hold + x.natAbs } }

/-- Counter 44 over one unit of time, 3.2 Service cycles (R503). -/
def Chip.haltCount (c : Chip) : Chip :=
  if (List.range 6).any c.coreHalted then c.count 44 ((c.time + 1) * 16 / 5 - c.time * 16 / 5) else c

/-- One unit of time passes: it counts unless it is held (R202, R206); so does the time since `PORST_N` (R131). -/
def Chip.tick (c : Chip) : Chip :=
  let c := { c.haltCount with pwr := { c.pwr with age := c.pwr.age + 1 } }
  if 0 < c.whl.hold then { c with whl := { c.whl with hold := c.whl.hold - 1 } } else { c with time := (c.time + 1) % 2 ^ 64 }

/-- 64 slots without a good marker (Table 8.2). -/
def Chip.markerLost (c : Chip) : Chip :=
  if c.get F.WHL_STATUS_IS_MASTER = 1 || c.get F.WHL_STATUS_ALIGN = 0 || c.slot < c.whl.seen + 64 then c
  else
    let c := { c with whl := { c.whl with good := 0 } }.alignSet 0
    c.log 0x2803 uWHL (c.alignArgs 0 (c.get F.WHL_STATUS_MASTER) (c.slot - c.whl.seen))

/-- The package's alignment to the root is lost (R208). -/
def Chip.xpkgOut (c : Chip) : Chip :=
  let c := c.put F.WHL_STATUS_XPKG_ALIGNED 0
  c.log 0x2804 uWHL (c.alignArgs 0 c.node 0)

/-- A time report from a peer package (R208). -/
def Chip.xpkgTime (c : Chip) (ch : Nat) (f : WarpFrame) : Chip :=
  if c.get F.WHL_STATUS_IS_MASTER = 0 || c.get F.WHL_XPKG_CTRL_MODE != 2 || c.get F.WHL_XPKG_CTRL_CH != ch % 8 ||
      f.op != 0x87 || f.result != 0 || f.sub != 0xFFFD || f.bobbin != 0 then c
  else
    let off : Int := (f.time : Int) - (f.limit : Int)
    let c := ({ c with whl := { c.whl with xpkgAt := c.slot, left := off } }.put F.WHL_XPKG_STATUS_OFFSET (satBits 16 32767 off))
    if off.natAbs ≤ 16 then c.put F.WHL_STATUS_XPKG_ALIGNED 1 else c.xpkgOut

/-- No time report for 64 slots. -/
def Chip.xpkgLate (c : Chip) : Chip :=
  if c.get F.WHL_STATUS_IS_MASTER = 0 || c.get F.WHL_XPKG_CTRL_MODE != 2 || c.slot < c.whl.xpkgAt + 64 then c else c.xpkgOut

/-! Scheduling (R210, R211, R414). -/

/-- Entries that a new launch may take. -/
def Chip.lspare (c : Chip) : List Nat := (List.range 16).filter (fun n => !lopen (c.lst n))

/-- Is an entry free for a launch of these hanks, those kept for quiet hanks apart (R414)? -/
def Chip.lroom (c : Chip) (hanks : Nat) : Bool :=
  let q := c.quietHanks
  let kept := (q.filter (fun h => !(List.range 16).any (fun n => lopen (c.lst n) && bit (c.lhanks n) h))).length
  if q.any (bit hanks) then !c.lspare.isEmpty else decide (kept < c.lspare.length)

/-- The entry SCHEDULE takes: the lowest FREE one, else the ended one with the oldest launch. -/
def Chip.ltake (c : Chip) : Nat :=
  match c.lspare.find? (fun n => c.lst n == 0) with
  | some n => n
  | none => c.lspare.foldl (fun best n => if c.lslot n < c.lslot best then n else best) (c.lspare.headD 0)

/-- The status of a SCHEDULE request (R210). -/
def Chip.schedStatus (c : Chip) (l cfg grace : Nat) : Status :=
  let hanks := bitsOf cfg 31 16
  let strand := bit cfg 1
  let isOpen := fun (p : Nat → Bool) => (List.range 16).any (fun n => lopen (c.lst n) && p n)
  firstStatus [
    (c.get F.WHL_STATUS_IS_MASTER == 0 || !c.leads || c.phase != 0x40 || c.get F.WHL_CTRL_SCHED_EN == 0, .denied),
    (decide (l < c.slot + 64) || decide (c.slot + 2 ^ 31 ≤ l) || cfg % 8 == 0 || (hanks == 0 && cfg % 4 != 0) ||
      (strand && (bitsIn hanks 16).length != 1), .badArg),
    (!c.lroom hanks || c.get F.WHL_STATUS_ALIGN != 2 || (bit cfg 3 && c.get F.WHL_STATUS_XPKG_ALIGNED == 0) ||
      (bit cfg 2 && isOpen (fun n => c.geti F.WHL_Ln_CFG_RING n == 1)) ||
      (strand && isOpen (fun n => c.geti F.WHL_Ln_CFG_STRAND n == 1 && Nat.land (c.lhanks n) hanks != 0)), .busy),
    (grace != 0 && (decide (grace < 256) || decide (1048576 < grace)), .clamped)]

/-- The new ring key of a RING launch is drawn, mirrored and pushed (R223). -/
def Chip.ringLaunch (c : Chip) : Chip :=
  let d := c.rndPr 32
  let rk := (c.ring.rkey + 1) % 65536
  let c := { d.2 with whl := { d.2.whl with newRing := some (rk, d.1), ringAcks := [] } }
  let m := c.mirrorItem (.ringKey rk d.1)
  m.1.each ((List.range 64).filter m.1.carded) (fun c n =>
    let p := c.pushBody n ringKeyBob rk .ok 4 0 0 (some d.1)
    p.1.hold (.ring 0x03 n p.2) m.2 0)

/-- A launch is scheduled: its entry is mirrored, then LAUNCH goes out (Table 8.3, R214, R215). -/
def Chip.lmake (c : Chip) (l cfg arg grace : Nat) (st : Status) : Chip × Nat :=
  let n := c.ltake
  let g := if st = .clamped then clampTo 256 1048576 grace else grace
  let c := if c.lst n = 0 then c else c.lfree n
  let num := if c.whl.lastNum + 1 < 2 ^ 32 then c.whl.lastNum + 1 else 1
  let kept := c.whl.sent.filter (fun e => (List.range 16).any (fun k => c.lst k != 0 && c.lnum k == e.1))
  let c := { c with whl := { c.whl with lastNum := num, sent := tput kept num c.slot } }
  let c := (((c.put64i F.WHL_Ln_SLOT_LO_SLOT n (l % 2 ^ 56)).wri F.WHL_Ln_CFG_HANKS n (BitVec.ofNat 32 (Nat.land cfg 0xFFFF000F))).wri F.WHL_Ln_ARG_STRAND_IN n
    (BitVec.ofNat 32 (arg % 2 ^ 24))).puti F.WHL_Ln_GRACE_SLOTS n g
  let c := (c.puti F.WHL_Ln_NUM_NUM n num).puti F.WHL_Ln_STATE_RESULT n Status.pending.code
  let c := (c.puti F.WHL_Ln_STATE_CANCEL_LEAD n 16).lset n 1
  let c := if st = .clamped then c.log 0x1806 uWHL (aClamp R.WHL_SCHED_GRACE grace g 0xFF 0) else c
  let c := (c.mirrorThen (c.lItem n) (.ringAll 0x20 (c.launchBody n false))).log 0x0801 uWHL (c.lArgs n 0)
  let c := if bit cfg 2 then c.ringLaunch else c
  (c.strandArm n, n)

/-- SCHEDULE: the status, and the entry when it was taken. -/
def Chip.schedule (c : Chip) (l cfg arg grace : Nat) : Chip × Status × Nat :=
  let st := c.schedStatus l cfg grace
  if st = .ok || st = .clamped then let p := c.lmake l cfg arg grace st; (p.1, st, p.2) else (c, st, 0)

/-- `WHL_LAUNCH_RES` after a command. -/
def Chip.lres (c : Chip) (st : Status) (n : Nat) : Chip := (c.put F.WHL_LAUNCH_RES_STATUS st.code).put F.WHL_LAUNCH_RES_ENTRY n

/-! The life of an entry. -/

/-- The horizon of entry `n`. -/
def Chip.lhorizon (c : Chip) (n : Nat) : Nat := c.lslot n - c.geti F.WHL_Ln_STATE_CANCEL_LEAD n

/-- The horizon closes a launch (Table 8.3). -/
def Chip.lclose (c : Chip) (n : Nat) : Chip :=
  if c.lst n != 1 || c.slot < c.lhorizon n then c
  else let c := c.lset n 2; (c.mirrorItem (c.lItem n)).1

/-- CANCEL of an entry (R220), at the lead alone (assumption 143); `REASON` 2 for a launch that came from an earlier lead (R225). -/
def Chip.lcancel (c : Chip) (n : Nat) : Chip × Status :=
  if !c.leads then (c, .denied) else
  let c := c.lclose n
  match c.lst n with
  | 0 => (c, .badArg)
  | 1 => (c.launchCancel n (if c.whl.fromLead.contains (c.lnum n) then 2 else 1), .ok)
  | 5 => (c, .ok)
  | _ => (c.log 0x1804 uWHL (c.lArgs n 0), .staleEpoch)

/-- The pending key of a Bobbin goes, with its frames where this instance acts, in the tables alone where it follows (R214). -/
def Chip.shed (c : Chip) (id : Nat) : Chip :=
  if c.leads then (c.discard id false).cmdPart id .staleEpoch
  else
    match c.bob? id with
    | none => c
    | some b => (c.cacheDrop (fun k => k.bob == id && k.epoch == b.epoch + 1)).bobMod id (fun b =>
        { b with st := 1, blob := if b.blob = 2 then 0 else b.blob, launch := 0, wait := [], fail := none })

/-- The final point (R216): unarmed DIE Bobbins discarded, FINAL set and mirrored, LAUNCH with `FINAL`; dies that lack the new ring key
are withdrawn (R223). An instance that took the lease after *L* − 8 does not perform it. -/
def Chip.lfinal (c : Chip) (n : Nat) : Chip :=
  if !c.leads || c.lst n != 2 || c.slot + 16 < c.lslot n || c.lslot n ≤ c.slot || c.lslot n < c.ply.taken + 8 || c.geti F.WHL_Ln_STATE_FINAL n = 1 then c
  else
    let ids := ((c.bound (c.lnum n)).filter (fun e => e.2.cls == clsDIE && e.2.st != 5)).map (·.1)
    let c := (c.cancelRecs ids).each ids Chip.shed
    let c := c.puti F.WHL_Ln_STATE_FINAL n 1
    let c := c.mirrorThen (c.lItem n) (.ringAll 0x20 (c.launchBody n true))
    if c.geti F.WHL_Ln_CFG_RING n = 1 then
      c.each ((List.range 64).filter (fun d => c.carded d && !c.whl.ringAcks.contains d)) Chip.cardWithdraw
    else c

/-- The ring key changes at a RING launch's slot (R223). -/
def Chip.ringSwitch (c : Chip) : Chip :=
  match c.whl.newRing with
  | none => c
  | some k =>
    let old := match c.ring.key with | some o => some (c.ring.rkey, o) | none => none
    { c with ring := { c.ring with key := some k.2, rkey := k.1, old := old, seq := 0, stopped := false }, whl := { c.whl with newRing := none, ringAcks := [] } }

/-- The event of a launch that fired: Table 8.3. -/
def Chip.lfired (c : Chip) (n : Nat) : Chip :=
  let dropped := c.geti F.WHL_Ln_DROPPED_COUNT n
  let c := if dropped = 0 then c.log 0x0802 uWHL (c.lArgs n (c.geti F.WHL_Ln_ARMED_COUNT n)) else c.log 0x2801 uWHL (c.lArgs n dropped)
  c.log 0x0703 uBOB (c.lArgs n (c.geti F.WHL_Ln_ARMED_COUNT n))

/-- Slot *L* of entry `n` (R217). -/
def Chip.lfire (c : Chip) (n : Nat) : Chip :=
  let c := c.lclose n
  if c.lst n != 2 || c.slot < c.lslot n || (List.range n).any (fun m => (c.lst m == 1 || c.lst m == 2) && c.lslot m == c.lslot n) then c
  else
    let num := c.lnum n
    let final := c.geti F.WHL_Ln_STATE_FINAL n == 1
    let bs := c.bound num
    let armed := (bs.filter (fun e => e.2.st == 5 && (e.2.cls != clsDIE || final))).map (·.1)
    let others := (bs.filter (fun e => !(e.2.st == 5 && (e.2.cls != clsDIE || final)))).map (·.1)
    let c := (c.cancelRecs others).each others (fun c i => (if c.leads then c.logBob 0x2703 i (match c.bob? i with | some b => b.epoch + 1 | none => 0) .staleEpoch 0 else c).shed i)
    let c := c.each armed Chip.switchBob
    let c := (c.puti F.WHL_Ln_ARMED_COUNT n armed.length).puti F.WHL_Ln_DROPPED_COUNT n others.length
    let c := c.limitSum.lset n 3
    let c := if c.leads then (c.mirrorItem (c.lItem n)).1 else c
    let c := if c.leads && c.journalBar.isNone then
        (c.jWrite { jseq := 0, op := 0x04, hank := 0xFF, first := 0, last := 0xFFFFF, value := c.lslot n % 2 ^ 32, arg := num }).1 else c
    let c := (c.count 46 1).countReset 3 (fun _ => true)
    let c := if c.geti F.WHL_Ln_CFG_RING n = 1 then c.ringSwitch else c
    let c := if c.geti F.WHL_Ln_CFG_STRAND n = 1 then c.strandFire num else c
    if c.leads then c.lfired n else { c with whl := { c.whl with unlogged := c.whl.unlogged ++ [n] } }

/-- Slot *L* + *G* of entry `n` (R218). -/
def Chip.lretire (c : Chip) (n : Nat) : Chip :=
  if c.lst n != 3 || c.slot < c.lslot n + c.lgrace n then c
  else
    let num := c.lnum n
    let ids := (c.cust.bobs.filter (fun e => e.2.st == 6 && e.2.launch == num)).map (·.1)
    let c := c.each ids (fun c i => c.retireBob num i)
    let c := if c.geti F.WHL_Ln_CFG_RING n = 1 then { c with ring := { c.ring with old := none } } else c
    let c := c.lset n 4
    let c := if c.leads then (c.mirrorItem (c.lItem n)).1 else c
    let c := if c.geti F.WHL_Ln_STATE_RESULT n = Status.staleEpoch.code then c else c.puti F.WHL_Ln_STATE_RESULT n Status.ok.code
    let c := if c.leads then c.log 0x0803 uWHL (c.lArgs n ids.length) else c
    if c.leads && !ids.isEmpty && !c.whl.retireWait.any (fun w => w.1 == num) then c.log 0x0704 uBOB (c.lArgs n ids.length) else c

/-- Is a LAUNCH of an entry due again (R215): every 1,024 slots, and with `FINAL` set at *L* − 12 and *L* − 8? -/
def Chip.lrepeatDue (c : Chip) (n : Nat) : Bool :=
  let final := c.geti F.WHL_Ln_STATE_FINAL n == 1
  decide (tget c.whl.sent (c.lnum n) 0 + 1024 ≤ c.slot) ||
    final && (c.slot + 12 == c.lslot n || c.slot + 8 == c.lslot n)

/-- The LAUNCH of an entry goes out again. -/
def Chip.lrepeat (c : Chip) (n : Nat) : Chip :=
  if c.leads && (c.lst n == 1 || c.lst n == 2) then
    Chip.ringBroadcast { c with whl := { c.whl with sent := tput c.whl.sent (c.lnum n) c.slot } } 0x20 (c.launchBody n (c.geti F.WHL_Ln_STATE_FINAL n == 1)) else c

/-- A LAUNCH_CANCEL repeat, 4 and 8 slots after the cancel (R215); the second repeat is the last. -/
def Chip.lcancelRepeat (c : Chip) (num : Nat) : Chip :=
  match c.whl.cancels.find? (fun e => e.1 == num) with
  | none => c
  | some e =>
    if !c.leads || c.slot < e.2.1 + 4 then c
    else
      let rest := c.whl.cancels.filter (fun x => x != e)
      let again := if e.2.2.1 < 256 then rest ++ [(num, e.2.1 + 4, e.2.2.1 + 256, e.2.2.2)] else rest
      let c := { c with whl := { c.whl with cancels := again } }
      c.ringBroadcast 0x21 (cancelBody num (e.2.2.1 % 256) e.2.2.2)

/-- FREE of an ended entry (Table 8.3). -/
def Chip.lfreeCmd (c : Chip) (n : Nat) : Chip × Status :=
  if c.lst n = 4 || c.lst n = 6 then
    let item := c.lItem n
    let c := c.lfree n
    ((c.mirrorItem (match item with | .launch e => .launch { e with st := 0 } | i => i)).1, .ok)
  else (c, .badArg)

/-- What Spindle refuses of a strand switch beyond R210 (R404). -/
def Chip.strandPolicy (c : Chip) (cfg arg : Nat) : Status :=
  if !bit cfg 1 then .ok
  else
    match bitsIn (bitsOf cfg 31 16) 16 with
    | [h] => (match c.hank? h with
      | none => .denied
      | some k =>
        let out := arg % 4096
        let into := arg / 4096 % 4096
        firstStatus [(k.st != 3 || k.active != out || !k.strands.contains into || into == out, .denied),
          ((c.strandBobs h out).any (fun i => match c.bob? i with | some b => decide (2 ≤ b.st) && decide (b.st ≤ 5) | none => false), .busy)])
    | _ => .badArg

end Sys2Proof.Machine
end

