-- ==== Sys2Proof/Machine/MemOps.lean ====
section
/-!
DEFINITION. Keyed memory, link lanes and the tree root store as operations (R240 to R252): root updates and their repair, fault
reports, a complex's reset, re-encryption boundaries, peer epochs.
-/

namespace Sys2Proof.Machine

/-- The WORSTED Bobbin of a tree. -/
def Chip.treeBob (c : Chip) (tree : Nat) : Option (Nat × Bob) := c.cust.bobs.find? (fun e => e.2.cls == clsWORSTED && e.2.sub == tree)

/-- A RANGE event about a tree. -/
def Chip.treeLog (c : Chip) (code tree : Nat) (st : Status) : Chip :=
  match c.treeBob tree with
  | some e => c.log code uTRS (aRange e.1 tree 0 st.code 0 e.2.rootVer)
  | none => c.log code uTRS (aRange 0 tree 0 st.code 0 0)

/-- A root update from this base die's own channels (R241): accepted, mirrored and then written, or discarded with event 0x1902; held
while its entry is under repair (Table 9.11). -/
def Chip.rootUpdate (c : Chip) (ch : Nat) (f : WarpFrame) : Chip :=
  if !c.svcUp || 8 ≤ ch then c
  else
    let tree := f.epoch % 4096
    let ok := match c.bob? f.bobbin with
      | some b => b.cls == clsWORSTED && b.sub == tree && c.warpCh b == some ch && decide (b.rootVer < f.time)
      | none => false
    if !ok then c.log 0x1902 uTRS (aRange f.bobbin tree 0 Status.denied.code 0 (f.time % 2 ^ 32))
    else if c.cust.rootRepair.contains tree then c.cu (fun u => { u with rootWait := u.rootWait ++ [(ch, f)] })
    else
      let node := padTo 64 (padTo 32 f.share0 ++ padTo 32 f.share1)
      let c := c.bobMod f.bobbin (fun b => { b with rootVer := f.time })
      let p := c.mirrorEarly (.root tree f.bobbin f.time node)
      p.1.hold (.root tree node) p.2 0

/-- A mirrored root is written to this instance's copy. -/
def Chip.rootMirrored (c : Chip) (tree id version : Nat) (node : List Byte) : Chip :=
  (c.bobMod id (fun b => { b with rootVer := max b.rootVer version })).cu (fun u => { u with trs := tput u.trs tree node })

/-- The patrol of the root store finds an error (R243): a single-bit one is corrected, another starts the entry's repair. -/
def Chip.rootPatrol (c : Chip) (tree : Nat) (double : Bool) : Chip :=
  if !c.svcUp then c
  else if !double then c.treeLog 0x1904 tree .ok
  else c.cu (fun u => { u with rootRepair := if u.rootRepair.contains tree then u.rootRepair else u.rootRepair ++ [tree] })

/-- The package halts (R245): a whole-hank FREEZE for every hank, no creation until a restart. The record of each FREEZE is the lead's. -/
def Chip.packageHalt (c : Chip) : Chip :=
  (c.ha (fun u => { u with halted := true })).each (c.hanks.tab.map (·.1)) (fun c h =>
    let c := (c.each (c.hankBobs h) Chip.freezeBob).hankFrozen h
    if c.leads && c.journalBar.isNone then (c.jWrite { jseq := 0, op := 0x06, hank := h, first := 0xFFFFFFFF, last := 0xFFFFFFFF }).1 else c)

/-- The repair of a root ends: from the partner's copy, or it is lost (R243, R245); in HX4 it is always lost. Updates held meanwhile
are taken. -/
def Chip.rootRepaired (c : Chip) (tree : Nat) (good : Bool) (bytes : List Byte) : Chip :=
  if !c.cust.rootRepair.contains tree then c
  else
    let held := c.cust.rootWait.filter (fun w => w.2.epoch % 4096 == tree)
    let c := c.cu (fun u => { u with rootRepair := u.rootRepair.filter (· != tree), rootWait := u.rootWait.filter (fun w => w.2.epoch % 4096 != tree) })
    let id := match c.treeBob tree with | some e => (e.1, e.2.rootVer) | none => (0, 0)
    if good && c.pkg != .hx4 then
      let c := c.cu (fun u => { u with trs := tput u.trs tree (padTo 64 bytes) })
      let c := (c.notice 0x87 tree .ok id.2 id.1 0).treeLog 0x1903 tree .ok
      c.each held (fun c w => c.rootUpdate w.1 w.2)
    else ((c.treeLog 0x3904 tree .integrity).notice 0x87 tree .integrity id.2 id.1 0).packageHalt

/-- The dies of a LIVE hank are told of a fault in a range (R410). -/
def Chip.faultTold (c : Chip) (id : Nat) (b : Bob) (off pages : Nat) : Chip :=
  match c.hank? b.hank with
  | none => c
  | some k =>
    if k.st != 3 || !(b.strand == 0xFFF || b.strand == k.active) then c
    else
      let body := keyPayload (0xFFC00000 + b.hank) id .integrity 0 b.sub pages off []
      c.each (c.hankCarded b.hank) (fun c n => c.ringSend 0x03 n body)

/-- A fault report (R244): FAULT notice, event, the dies told. -/
def Chip.faultReport (c : Chip) (ch : Nat) (f : WarpFrame) : Chip :=
  c.reportOnce ch f (fun c =>
    match c.bob? f.bobbin with
    | none => c
    | some b =>
      let cause := numAt f.share0 0 1
      let line := cause == 3
      let pages := if line then 1 else (f.limit + 4095) / 4096
      let c := c.notice 0x83 b.sub .integrity (cause % 16 * 2 ^ 28 + f.time / 4096 % 2 ^ 28) f.bobbin pages
      let code := if cause = 1 then 0x3901 else if cause = 2 then 0x3902 else 0x2901
      let c := c.log code uBOB (aRange f.bobbin b.sub cause Status.integrity.code f.time pages)
      c.faultTold f.bobbin b f.time (if line then 0 else pages))

/-- A complex has left reset (R246): its channel FAILED, its ranges lost. -/
def Chip.complexReset (c : Chip) (ch : Nat) (f : WarpFrame) : Chip :=
  c.reportOnce ch f (fun c =>
    let ids := (c.cust.bobs.filter (fun e => c.warpCh e.2 == some ch)).map (·.1)
    let die := if ch < 8 then c.get F.GEN_ID_SIDE else 1 - c.get F.GEN_ID_SIDE
    let c := (c.chFail ch).each ids (fun c i => c.bobMod i (fun b => { b with enable := 0, reenc := false, bound := 0 }))
    let c := c.notice 0x84 (die * 256 + ch % 8) .zeroized ids.length 0xFFFFFFFF 0
    c.log 0x3903 uBOB (aBobbin 0 0 Status.zeroized.code (128 + 64 * die + ch % 8) false 0 0 ids.length))

/-- A boundary report (R249): mirrored; at completion a REENC notice, once. -/
def Chip.boundaryReport (c : Chip) (f : WarpFrame) : Chip :=
  match c.bob? f.bobbin with
  | none => c
  | some b =>
    if b.epoch != f.epoch then c
    else
      let done := f.result == Status.ok.code
      let seen := done && b.bound == f.limit && !b.reenc
      let c := c.bobMod f.bobbin (fun b => { b with bound := f.time, reenc := b.reenc && !done })
      let c := (c.mirrorItem (.boundary f.bobbin f.epoch f.time f.limit f.result)).1
      if done && !seen then c.reenc f.bobbin { b with bound := f.limit } .ok f.epoch else c

/-- A link engine sees flits under an epoch it holds no key for (R252). -/
def Chip.peerEpoch (c : Chip) (ch : Nat) (f : WarpFrame) : Chip :=
  c.reportOnce ch f (fun c =>
    match c.cust.bobs.find? (fun e => e.2.cls == clsLINK && e.2.sub == f.sub && c.warpCh e.2 == some ch) with
    | none => c
    | some e =>
      (c.notice 0x86 f.sub .staleEpoch f.epoch e.1 e.2.epoch).log 0x2906 uBOB
        (aBobbin e.1 e.2.epoch Status.staleEpoch.code e.2.warp false (c.limitFor e.2.cls e.2.limit).1 e.2.launch f.epoch))

/-- An unsolicited ACK at the instance that acts on it, by its fields (R190, R208, R244, R246, R249, R252). -/
def Chip.unsolicited (c : Chip) (ch : Nat) (f : WarpFrame) : Chip :=
  if f.sub = 0xFFFD then c.xpkgTime ch f
  else if f.sub = 0xFFFA then c.boundaryReport f
  else if f.sub = 0xFFF9 then c.faultReport ch f
  else if f.sub = 0xFFFF && f.result = Status.zeroized.code then c.complexReset ch f
  else if f.result = Status.staleEpoch.code then c.peerEpoch ch f
  else if f.result = Status.limitReached.code then c.limitHit f.bobbin f.epoch
  else c

/-- A HOST session ends: its Bobbins are frozen, then destroyed; event 0x2904 (R254). -/
def Chip.hostEnd (c : Chip) (session : Nat) : Chip :=
  let ids := (c.cust.bobs.filter (fun e => e.2.cls == clsHOST && e.2.session == session && session != 0)).map (·.1)
  if ids.isEmpty then c
  else
    let c := c.each ids Chip.freezeBob
    let c := if c.journalBar.isNone then c.each (c.runRecs 0x06 ids (·.epoch) (fun _ => 0)) (fun c r => (c.jWrite r).1) else c
    (c.dropBobs ids).log 0x2904 uSPN (aObj 0 0 0 0 session [])

end Sys2Proof.Machine
end

