-- ==== Sys2Proof/Machine/PlyOps.lean ====
section
/-!
DEFINITION. The Ply pair as operations (R418 to R443): training and authentication, heartbeats, the lease, losing the lead or the
follow, promotion, replay of the journal (R185), and what a follow does with a mirror item (R423).
-/

namespace Sys2Proof.Machine

/-- The Ply state changed. -/
def Chip.pl (c : Chip) (f : Ply → Ply) : Chip := { c with ply := f c.ply }

/-- An event about the link or the lease (layout LINK). -/
def Chip.linkLog (c : Chip) (code reason : Nat) : Chip :=
  c.log code uPLY (aLink c.role (c.get F.PLY_STATUS_PARTNER) (c.get F.PLY_STATUS_QUORUM) reason (c.rd R.PLY_LEASE).toNat
    (c.rd R.PLY_EXPIRY).toNat c.ply.mseq)

/-- A Ply frame of a type was received in order (R419): its number counts, and the trace notes it. -/
def Chip.plyGot (c : Chip) (typ : Nat) : Chip :=
  (c.pl (fun p => { p with rxSeq := p.rxSeq + 1 })).trace 10 2 0 (PlyFrame.head { typ := typ, pseq := c.ply.rxSeq, payload := [] })

/-! Training and authentication (R28, R419, R420). -/

/-- The instance serial (R329, Table 4.1): words 0 and 1 of region 0. -/
def Chip.instSerial (c : Chip) : Nat := c.otp.val 0 + 2 ^ 32 * c.otp.val 1

/-- HELLO of this instance (Table 15.4). -/
def Chip.helloBody (c : Chip) : List Byte :=
  padTo 64 (pack [(1, c.get F.GEN_ID_SIDE), (1, c.phase), (1, c.role), (1, b2n (c.role == 3 || c.role == 5) + 2 * b2n c.jFailed),
    (4, (c.rd R.GEN_ID).toNat), (8, c.instSerial), (8, c.pkgSerial), (8, c.get64 R.BOB_JSEQ_LO), (4, (c.rd R.PLY_LEASE).toNat)])

/-- A rejoiner whose lead or link is lost, or whose resync fails, is stale again (Table 15.1). -/
def Chip.resyncLost (c : Chip) : Chip :=
  if c.role = 2 then
    ((c.setRole 1).pl (fun p => { p with asking := false, late := [], chunks := 0, acks := [] })).linkLog 0x2F04 0
  else c

/-- The lead's side of a resync ends, done or not. -/
def Chip.resyncStop (c : Chip) : Chip := (c.pl (fun p => { p with resync := 0 })).wr R.PLY_RESYNC 0

/-- The lanes are trained again: no key, frame numbers from 0, HELLO sent (R419, R420). -/
def Chip.linkTrain (c : Chip) : Chip :=
  if !c.svcUp || c.pkg = .hx4 || c.get F.PLY_CTRL_LINK_EN = 0 then c
  else
    let c := (if c.leads then c.resyncStop else c.resyncLost)
    let c := (((c.put F.PLY_STATUS_AUTH 0).put F.PLY_STATUS_LINK_UP 0).put F.PLY_STATUS_PARTNER 0).send .linkTrain
    let c := c.pl (fun p => { p with
      keys := none, newKeys := none, txSeq := 0, rxSeq := 0, sent := [], hello := none, auth := 0, eph := [], kem := [], first := [], t2 := [],
      asking := false })
    let h := c.helloBody
    (c.pl (fun p => { p with own := h })).plySend 0x01 h

/-- The certificates an instance shows: DeviceID and Alias of both chains. -/
def Chip.plyCerts (c : Chip) : List (List Byte) :=
  let store := c.norRd 0 65536
  let dev := fun k => (Config.storeCert store k).getD []
  [dev 2, c.boot.certs.getD 0 [], dev 5, c.boot.certs.getD 1 []]

/-- An AUTH message (R329, R420): point, ML-KEM data, certificates and, but in the first, the two signatures. -/
def authBytes (point kem : List Byte) (certs sigs : List (List Byte)) : List Byte :=
  cArr ([cBytes point, cBytes kem] ++ certs.map cBytes ++ sigs.map cBytes)

/-- An AUTH message leaves in portions. -/
def Chip.authSend (c : Chip) (m : List Byte) : Chip :=
  c.each (List.range ((m.length + 4079) / 4080)) (fun c i =>
    c.plySend 0x02 (pack [(4, m.length), (4, 4080 * i)] ++ (m.drop (4080 * i)).take 4080))

/-- The two Alias signatures over a transcript digest, each with random bytes of its own (R263, R264). -/
def Chip.authSigs (c : Chip) (t : List Byte) : Chip × List (List Byte) :=
  let a := c.boot.alias_.getD ([], [])
  let e := c.rnd 56
  let r := e.2.rnd 32
  (r.2, [padTo 96 (Config.ecdsaSign a.1 (Config.sha384 t) e.1), padTo 3309 (Config.mldsaSign 65 a.2 t r.1)])

/-- The link keys from the shared secrets (R420): GGM-A's sending key, then GGM-B's. -/
def linkKeys (kem z t3 : List Byte) : List Byte × List Byte :=
  let k := Config.kmac256 (kem ++ z) (ascii "ply" ++ t3) (ascii "GGM-1 PLY") 64
  (slice k 0 32, slice k 32 32)

/-- The partner is not accepted: event 0x3F01, no key. -/
def Chip.authFail (c : Chip) : Chip :=
  (c.pl (fun p => { p with auth := 9, eph := [], kem := [], newKeys := none })).linkLog 0x3F01 0

/-- Records that this instance, when stale, asks a fresh lead for (R436). -/
def Chip.askResync (c : Chip) : Chip :=
  if c.role = 1 && c.linked && !c.ply.asking && c.get F.DBG_STATUS_SPN_DBG == 0 then
    (c.pl (fun p => { p with asking := true })).plySend 0x40 (pack [(8, c.get64 R.BOB_JSEQ_LO), (8, c.get64 R.BOB_JDUR_LO)])
  else c

/-! The lease (R425 to R428). -/

/-- A LEASE_REQ payload (Table 15.6). -/
def Chip.leaseBody (c : Chip) (op fresh succ lease expiry : Nat) : List Byte :=
  padTo 32 (pack [(1, op), (1, fresh), (1, succ), (1, 0), (4, lease), (4, expiry % 2 ^ 32), (4, 0), (8, c.get64 R.BOB_JSEQ_LO)])

/-- This instance's lease number. -/
def Chip.leaseNum (c : Chip) : Nat := (c.rd R.PLY_LEASE).toNat

/-- A 32-bit slot comes before another, modulo 2³² (R203). -/
def slotBefore (a b : Nat) : Bool :=
  let d := (b + 2 ^ 32 - a % 2 ^ 32) % 2 ^ 32
  decide (0 < d) && decide (d < 2 ^ 31)

/-- Die bits, quorum count and earliest expiry of the grants held, compared modulo 2³² (Table 15.13, R203). -/
def Chip.grantRegs (c : Chip) : Chip :=
  let m := maskOf (c.ply.grants.map (·.1))
  let q := (c.ply.grants.map (·.2)).mergeSort (fun a b => !slotBefore a b)
  ((c.put64 R.PLY_GRANTS_LO m).put F.PLY_STATUS_QUORUM c.ply.grants.length).wr R.PLY_EXPIRY
    (BitVec.ofNat 32 (if c.ply.grants.length < c.pkg.quorum then 0 else q.getD (c.pkg.quorum - 1) 0))

/-- Grants that still hold 16 slots from now. -/
def Chip.grantsGood (c : Chip) : Nat := (c.ply.grants.filter (fun g => decide (16 ≤ c.slotsTo g.2) && decide (c.slotsTo g.2 < 2 ^ 31))).length

/-- A request of this instance for the lease: its number and what it asks for are noted, and it is broadcast; `wait` holds it until the
journal is durable up to there. -/
def Chip.leaseAsk (c : Chip) (op fresh num dur : Nat) : Chip :=
  let exp := c.slot + 2048
  let c := c.pl (fun p => { p with op := op, asked := exp, askedAt := c.slot, got := [] })
  let c := c.wr R.PLY_LEASE (BitVec.ofNat 32 num)
  let b := c.leaseBody op fresh 0xFF num exp
  if dur = 0 then c.ringBroadcast 0x10 b
  else { c with ply := { c.ply with holds := c.ply.holds ++ [{ eff := .ringAll 0x10 b, dur := dur }] } }

/-- This instance becomes a candidate with a request (R429, R437): its Crypto groups 1 and 2 wake. One halted at this start seeks
no lease (R489). -/
def Chip.candidate (c : Chip) (op dur : Nat) : Chip :=
  if c.get F.DBG_STATUS_SPN_DBG = 1 then c.setRole 1
  else
  let num := (max c.leaseNum (match c.ply.hello with | some h => numAt h 32 4 | none => 0) + 1) % 2 ^ 32
  let c := ((c.setRole 4).pl (fun p => { p with grants := [], newFresh := none, fresh := c.ownFresh })).grantRegs
  (((c.groupNeed 1).groupNeed 2)).leaseAsk op c.ownFresh num dur

/-- Serving ends (R425, R428). -/
def Chip.stopServing (c : Chip) : Chip :=
  (((c.put F.PLY_STATUS_LEASE 0).put F.PLY_STATUS_SOLO 0).dropMaster.resyncStop).pl (fun p =>
    { p with op := 0, newFresh := none, grants := [], handover := none, holds := [], serving := false }) |>.grantRegs

/-- The lead becomes stale: its grants run out, or a higher lease number shows another holder. -/
def Chip.leadLost (c : Chip) (code reason : Nat) : Chip :=
  if c.role != 5 then c else ((c.stopServing.setRole 1).pl (fun p => { p with fresh := 0 })).linkLog code reason

/-- RENEW with a fresh mask (R425): while a fresh partner must hear of it first, its mirror item goes before (Table 15.5). -/
def Chip.renew (c : Chip) (mask : Nat) : Chip :=
  let exp := c.slot + 2048
  let c := c.pl (fun p => { p with op := 2, asked := exp, askedAt := c.slot, got := [], newFresh := if mask = c.ply.fresh then p.newFresh else some mask })
  let b := c.leaseBody 2 mask 0xFF c.leaseNum exp
  if bit mask (1 - c.get F.GEN_ID_SIDE) && c.mirrors then
    c.mirrorThen (.lease c.leaseNum mask c.whl.lastNum c.hanks.scrub) (.ringAll 0x10 b)
  else c.ringBroadcast 0x10 b

/-- A RENEW has its quorum: a mask it announced is in force (R434, R436). -/
def Chip.renewed (c : Chip) : Chip :=
  let c := c.pl (fun p => { p with op := 0 })
  match c.ply.newFresh with
  | none => c
  | some m =>
    let c := c.pl (fun p => { p with fresh := m, newFresh := none })
    if bit m (1 - c.get F.GEN_ID_SIDE) then ((c.resyncStop.put F.PLY_STATUS_SOLO 0).pl (fun p => { p with lost := false }))
    else ((c.put F.PLY_STATUS_SOLO 1).linkLog 0x2F03 0).jDurable

/-- A LEASE_GRANT (R426, R428, R433). -/
def Chip.granted_ (c : Chip) (m : Inbox) : Chip :=
  if c.pkg = .hx4 then c
  else
    let p := m.payload
    let op := numAt p 0 1
    let ok := numAt p 1 1 == Status.ok.code
    let reason := numAt p 3 1
    let lease := numAt p 4 4
    let exp := numAt p 8 4
    let die := numAt p 12 1
    if c.role = 5 && decide (c.leaseNum < lease) then c.leadLost 0x3F03 reason
    else if c.role != 5 && c.role != 4 then c
    else if ok && numAt p 2 1 = c.node && lease = c.leaseNum && die < c.pkg.dies then
      let c := (c.pl (fun q => { q with
        grants := tput q.grants die exp
        got := if op = q.op && exp = q.asked % 2 ^ 32 && !q.got.contains die then q.got ++ [die] else q.got })).grantRegs
      if c.role = 5 && c.ply.op = 2 && decide (c.pkg.quorum ≤ c.ply.got.length) then c.renewed else c
    else if !ok && c.role = 4 && (reason = 2 || (c.ply.leadExpiry != 0 && slotBefore c.ply.leadExpiry exp)) then
      ((c.setRole 1).pl (fun q => { q with op := 0, grants := [], fresh := 0 })).grantRegs.linkLog 0x1F04 reason |>.askResync
    else c

/-! Losing the lead or the follow (R421, R429, R434). -/

/-- Both instances report one side: no lease is sought and nothing is carded (R28). -/
def Chip.sidesEqual (c : Chip) : Bool := c.ply.auth == 9

/-- GGM-B cards in place of GGM-A, with a new ring key at the next epoch and event 0x1504 (R121): `held` says that a notice of GGM-A does not
keep it from it, as when GGM-A went to HELD. -/
def Chip.cardTakeover (c : Chip) (held : Bool) : Chip :=
  if c.svcUp && (c.phase = 0x30 || c.phase = 0x31) && !c.leads && c.role != 3 && c.ply.partner != 5 && c.pkg != .hx4 && c.get F.GEN_ID_SIDE = 1 && (held || !c.card.noticed) && !c.card.active &&
      c.get F.GEN_BOOT_NO_ID = 0 && !c.sidesEqual then
    let c := c.cardStart (c.ring.rkey + 1)
    c.log 0x1504 uGEN (aCard c.partnerNode 0 Status.ok.code 0 c.ring.rkey 0 [])
  else c

/-- The partner is declared lost. -/
def Chip.partnerLost (c : Chip) : Chip :=
  let c := (c.pl (fun p => { p with lost := true })).put F.PLY_STATUS_PARTNER 0
  match c.role with
  | 3 => (c.linkLog 0x2F01 0).candidate 3 0
  | 5 =>
    if c.ply.sleeping = 2 then c
    else
      let c := (c.linkLog 0x2F01 0).resyncStop
      if bit c.ply.fresh (1 - c.get F.GEN_ID_SIDE) then c.renew c.ownFresh else c
  | 2 => (c.linkLog 0x2F01 0).resyncLost
  | 4 => if c.ply.op = 5 then (c.linkLog 0x2F01 0).leaseAsk 3 c.ownFresh c.leaseNum 0 else c
  | _ => c.cardTakeover true

/-! Replay (R185, R186). -/

/-- A record's effect on the scratch table of R185. -/
def Chip.replayRec (c : Chip) (r : JRec) : Chip :=
  let on := fun (c : Chip) (f : Bob → Bob) => c.cu (fun u => { u with bobs := u.bobs.map (fun e =>
    if (r.first = 0xFFFFFFFF && e.2.hank = r.hank) || (r.first ≤ e.1 && e.1 ≤ r.last) then (e.1, f e.2) else e) })
  match r.op with
  | 0x01 => c.applyRec r
  | 0x03 => on c (fun b => { b with epoch := max b.epoch r.value })
  | 0x06 => on c (fun b => { b with frozen := true })
  | 0x07 => c.cu (fun u => { u with bobs := u.bobs.filter (fun e => !(r.first ≤ e.1 && e.1 ≤ r.last)) })
  | 0x09 => on c (fun b => { b with epoch := r.value })
  | 0x10 => c.cu (fun u => { u with keys := { u.keys with hank := match c.jHankKey r with | some k => tput u.keys.hank r.hank k | none => u.keys.hank } })
  | 0x11 => c.cu (fun u => { u with bobs := u.bobs.filter (fun e => e.2.hank != r.hank), keys := { u.keys with hank := tdel u.keys.hank r.hank } })
  | _ => c

/-- Replay: the hank keys unwrapped, each derived Bobbin created two epochs on, each imported one destroyed; event 0x0702. A frozen
Bobbin is not created again (assumption 64). -/
def Chip.replay (c : Chip) : Chip :=
  if c.jFailed || !c.jOpen then c
  else
    let recs := c.jAll.map (·.2)
    let scratch := (c.cu (fun u => { u with bobs := [], keys := { u.keys with hank := [] } })).each recs Chip.replayRec
    let keys := scratch.cust.keys.hank
    let cer := recs.foldl (fun (t : Tab Nat) r => if r.op = 0x10 then tput t r.hank r.value else t) []
    let c := c.cu (fun u => { u with keys := { u.keys with hank := keys, noise := keys.map (fun (e : Nat × List Byte) => (e.1, kNoise e.2)) } })
    let c := c.each keys (fun c (e : Nat × List Byte) => (c.puti F.DST_HANKn_VALID e.1 1).puti F.DST_HANKn_CEREMONY e.1 (tget cer e.1 0))
    let bobs := scratch.cust.bobs
    let back := bobs.filter (fun (e : Nat × Bob) => !e.2.imported && !e.2.frozen)
    let gone := (bobs.filter (fun (e : Nat × Bob) => e.2.imported)).map (·.1)
    let c := c.each back (fun c e => c.makeBob e.1
      { cls := e.2.cls, hank := e.2.hank, strand := e.2.strand, push := e.2.push, warp := e.2.warp, limit := e.2.limit, sub := e.2.sub,
        epoch := (e.2.epoch + 2) % 2 ^ 32 })
    let c := c.each (c.createRecs (back.map (·.1))) (fun c r => (c.jWrite r).1)
    let c := c.each (scratch.runRecs 0x07 gone (·.epoch) (fun _ => 0)) (fun c r => (c.jWrite r).1)
    (((c.put F.BOB_STATUS_REPLAYED 1).cu (fun u => { u with replayed := true }))).log 0x0702 uBOB (aCount keys.length back.length 0 0)

/-- The hanks a journal still holds: a HANK_KEY and no later HANK_DROP. -/
def Chip.jHanks (c : Chip) : List Nat :=
  (c.jAll.map (·.2)).foldl (fun (hs : List Nat) r =>
    if r.op = 0x10 then (if hs.contains r.hank then hs else hs ++ [r.hank]) else if r.op = 0x11 then hs.filter (· != r.hank) else hs) []

/-! An authenticated link (R420, R424, R436, R437). -/

/-- Relay resumes (R424): the lead clears the far channels and sends what it held; the other instance passes on the reports it held. -/
def Chip.relayResume (c : Chip) : Chip :=
  if c.leads then
    let held := c.cust.farHeld
    (c.cu (fun u => { u with chFar := [], farHeld := [] })).each held (fun c f => c.warpTo (f.1 + 8) f.2)
  else
    let held := c.ply.reports
    (c.pl (fun p => { p with reports := [] })).each held (fun c r => c.relayBack r.1 r.2)

/-- The Carding of the package is over, here or as the partner mirrors it: every die present is released or rejected (R19, R121). -/
def Chip.cardsOver (c : Chip) : Bool :=
  if c.card.active then !c.cardBusy else (List.range c.pkg.dies).all (fun n => !c.present n || decide (4 ≤ c.cardSt n))

/-- What an instance in LINKING does once its partner is authenticated (Table 15.1, R437). It seeks the lease from phase 0x31, with the dies
carded: the journal's Bobbins become current then and no sooner (R19). -/
def Chip.meet (c : Chip) : Chip :=
  match c.ply.hello with
  | none => c
  | some h =>
    let c := if c.role != 0 then c
      else if bit (numAt h 3 1) 0 then c.dropMaster.setRole 1
      else
        let own := numAt c.ply.own 24 8
        let his := numAt h 24 8
        if his < own || (own = his && c.get F.GEN_ID_SIDE = 0) then
          (if c.phase = 0x31 && c.cardsOver then c.replay.candidate 1 0 else c)
        else c.setRole 1
    if bit (numAt h 3 1) 0 then c.askResync else c

/-- GGM-A cards a cold package once its link is authenticated, or no partner came (R121). -/
def Chip.cardFirst (c : Chip) : Chip :=
  let cold := match c.ply.hello with | some h => !bit (numAt h 3 1) 0 | none => true
  if c.get F.GEN_ID_SIDE = 0 && c.phase = 0x30 && !c.card.active && !c.card.noticed && c.get F.GEN_BOOT_NO_ID = 0 && cold && !c.leads &&
      !c.sidesEqual then
    c.cardStart 1
  else c

/-- Both instances have accepted each other: keys set, event 0x0F01. -/
def Chip.authDone (c : Chip) (ks : List Byte × List Byte) : Chip :=
  let ks := if c.get F.GEN_ID_SIDE = 0 then ks else (ks.2, ks.1)
  let c := (c.pl (fun p => { p with
    keys := some ks, newKeys := none, auth := 3, eph := [], kem := [], beatAt := c.slot, lost := false, asking := false })).put F.PLY_STATUS_AUTH 1
  ((c.linkLog 0x0F01 0).relayResume).cardFirst.meet

/-- HELLO (R28, R420). -/
def Chip.helloIn (c : Chip) (h : List Byte) : Chip :=
  if !c.svcUp || c.pkg = .hx4 || c.get F.PLY_CTRL_LINK_EN = 0 || c.linked then c
  else
    let c := c.plyGot 0x01
    let c := if c.ply.own.isEmpty || c.ply.hello.isSome then c.linkTrain else c
    let c := (c.pl (fun p => { p with hello := some (padTo 64 h) })).put F.PLY_STATUS_LINK_UP 1
    if numAt h 0 1 = c.get F.GEN_ID_SIDE then (c.pl (fun p => { p with auth := 9 })).linkLog 0x2203 0
    else if numAt h 16 8 != c.pkgSerial then (c.put F.PLY_STATUS_LINK_UP 0).authFail
    else if c.get F.GEN_ID_SIDE = 0 then
      let e := c.rnd 48
      let k := e.2.rnd 64
      let m := authBytes (Config.ecPub e.1) (Config.mlkemPub k.1) c.plyCerts []
      (k.2.pl (fun p => { p with auth := 1, eph := e.1, kem := k.1, first := m })).authSend m
    else c.pl (fun p => { p with auth := 1 })

/-- AUTH (R420): message 1 and 3 at GGM-B, message 2 at GGM-A; `genuine` says that what the message carries of chains and signatures
verifies. -/
def Chip.authIn (c : Chip) (point kem : List Byte) (certs sigs : List (List Byte)) (genuine : Bool) : Chip :=
  match c.ply.hello with
  | none => c
  | some hello =>
    let c := c.plyGot 0x02
    if !genuine then (if c.ply.auth = 1 || c.ply.auth = 2 then c.authFail else c)
    else
      match c.get F.GEN_ID_SIDE, c.ply.auth with
      | 0, 1 =>
        let t2 := Config.sha3_384 (c.ply.own ++ hello ++ c.ply.first ++ point ++ kem)
        let t3 := Config.sha3_384 (t2 ++ sigs.flatten)
        let ks := linkKeys (Config.mlkemDecaps c.ply.kem kem) (Config.ecdhX c.ply.eph point) t3
        let s := c.authSigs t3
        (s.1.authSend (authBytes (Config.ecPub c.ply.eph) (Config.mlkemPub c.ply.kem) s.1.plyCerts s.2)).authDone ks
      | 1, 1 =>
        let m1 := authBytes point kem certs []
        let e := c.rnd 48
        let r := e.2.rnd 32
        let k := Config.mlkemEncaps kem r.1
        let t2 := Config.sha3_384 (hello ++ c.ply.own ++ m1 ++ Config.ecPub e.1 ++ k.1)
        let s := r.2.authSigs t2
        let t3 := Config.sha3_384 (t2 ++ s.2.flatten)
        (s.1.pl (fun p => { p with auth := 2, t2 := t2, newKeys := some (linkKeys k.2 (Config.ecdhX e.1 point) t3) })).authSend
          (authBytes (Config.ecPub e.1) k.1 s.1.plyCerts s.2)
      | 1, 2 => (match c.ply.newKeys with | some ks => c.authDone ks | none => c)
      | _, _ => c

/-! Promotion (R197, R225, R431). -/

/-- A cancel the lost lead had begun goes on at the new one (Table 8.8, R220 step 2 and 3): LAUNCH_CANCEL with reason 0x02, and CANCEL to
every target that held a key of the launch. -/
def Chip.cancelOn (c : Chip) (n : Nat) : Chip :=
  let num := c.lnum n
  let c := c.ringBroadcast 0x21 (cancelBody num 2 (c.lslot n))
  let c := { c with whl := { c.whl with cancels := c.whl.cancels ++ [(num, c.slot, 2, c.lslot n)] } }
  c.each ((c.whl.cancelWait.filter (fun w => w.1 == num)).map (·.2)) (fun c i =>
    match c.bob? i with
    | none => c.cancelSettled i
    | some b =>
      match c.warpCh b with
      | some ch =>
        if c.chSt ch = 3 && (ch < 8 || c.linked) then (c.cancelSettled i).unconfirmed num i (b.epoch + 1)
        else c.warpTo ch { op := 3, sub := b.sub, bobbin := i, epoch := b.epoch + 1 }
      | none => c.cancelSettled i)

/-- What Custody and Whorl do when this instance takes the lease (R197, R225). -/
def Chip.takeOver (c : Chip) : Chip :=
  let c := c.each ((c.cust.bobs.filter (fun e => e.2.st == 2 || e.2.st == 3)).map (·.1)) (fun c i => c.bobMod i (fun b =>
    { b with st := 1, launch := 0, wait := [], fail := none }))
  let c := (c.cacheDrop (fun e => !e.pinned)).cu (fun u => { u with bobs := u.bobs.map (fun (e : Nat × Bob) => (e.1, { e.2 with blob := 0 })) })
  let c := c.each (List.range 16) (fun c n =>
    if (c.lst n = 1 || c.lst n = 2) && c.slot + 16 < c.lslot n then
      c.armAll n (((c.bound (c.lnum n)).filter (fun e => e.2.st == 4 || e.2.st == 5)).map (·.1))
    else c)
  let c := c.each c.whl.unlogged Chip.lfired
  let c := { c with whl := { c.whl with unlogged := [] } }
  let c := c.each ((List.range 16).filter (fun n => c.lst n == 5)) Chip.cancelOn
  let c := c.each (c.twist.tab.map (·.1)) (fun c h => c.twMod h (fun t => { t with
    steps := t.steps.map (fun s => if s.st = 2 then { s with tallies := [] } else s) }))
  let c := c.each (List.range 16) (fun c n => if c.slot + 8 ≤ c.lslot n then (c.lclose n).lfinal n else c)
  let c := c.each (List.range 16) Chip.lrepeat
  let c := { c with spdm := { c.spdm with sess := c.spdm.sess.map (fun (e : Nat × Sess) =>
    if e.2.conn = 0x10000 then (e.1, { e.2 with orphan := some c.slot }) else e) } }
  c.each (c.cust.bobs.filter (fun e => !e.2.imported && !(e.2.st == 4 || e.2.st == 5))) (fun c e =>
    match c.derived e.1 e.2 e.2.epoch with | some k => c.blobWrite e.1 e.2.epoch k 1 | none => c)

/-- The conditions of R431. -/
def Chip.mayLead (c : Chip) : Bool :=
  c.role == 4 && decide (c.pkg.quorum ≤ c.grantsGood) && c.grp 1 == 2 && c.grp 2 == 2 && c.jOpen

/-- A candidate becomes LEAD. -/
def Chip.promote (c : Chip) : Chip :=
  if !c.mayLead then c
  else
    let op := c.ply.op
    let both := if op = 5 then 3 else c.ownFresh
    let c := (((c.setRole 5).put F.PLY_STATUS_LEASE 1).put F.PLY_STATUS_SOLO (b2n (both != 3))).put F.BOB_CTRL_PAUSE 0
    let c := c.pl (fun p => { p with op := 0, fresh := both, newFresh := none, taken := c.slot, handover := none, mseq := max p.mseq p.applied,
                                     macked := max p.mseq p.applied, relay := [] })
    let c := c.setMaster
    let c := c.takeOver
    let c := if c.ply.lost || !c.linked then c.cu (fun u => { u with chFar := (List.range 8).map (fun i => (i, 3)) }) else c
    let c := (c.put64 R.PLY_PROMO_LO c.time)
    (if op = 1 then c.linkLog 0x0F02 0 else c).linkLog 0x0F03 0

/-! Mirror items at the follow (R423). -/

/-- The wrapping of a HANK_KEY group under this instance's own `K_journal`. -/
def Chip.rewrap (c : Chip) (r : JRec) : JRec :=
  if r.op = 0x10 then { r with parts := c.hankParts (tget c.cust.keys.hank r.hank []) } else r

/-- A mirrored record enters the journal at the lead's position, in its turn (R423, Table 15.9). -/
def Chip.jFollow (c : Chip) (pos : Nat) (r : JRec) : Chip :=
  let r := c.rewrap r
  let c := c.put64 R.BOB_JSEQ_LO (max (c.get64 R.BOB_JSEQ_LO) (r.jseq + r.size))
  c.jr (fun j => { j with queue := j.queue ++ [(some pos, r)] })

/-- A hank in KEYING at a follow whose Bobbins have all been created is LIVE there (assumption 65). -/
def Chip.followLive (c : Chip) (h : Nat) : Chip :=
  match c.hank? h with
  | none => c
  | some k =>
    if k.st = 2 && (k.ranges.all (fun r => (c.bob? r.bob).isSome)) && (k.lanes.all (fun l => (c.bob? l.bob).isSome)) then
      let log := k.ranges.find? (fun r => bit r.flags 1)
      let rcp := match k.consent? 2 with | some q => q.params | none => []
      let c := c.twOpen h k.ceremony (match log with | some r => r.base | none => 0) (match log with | some r => r.len / granule | none => 0) rcp
      (c.hankMod h (fun k => { k with st := 3, phase := 0 }))
    else c

/-- A journal record at a follow: its effect on the table, and its place in the journal; during a resync it waits for the repair, and
acts only on Bobbins whose chunk has come. A record written again after a failed page acts no second time (R188). -/
def Chip.followRec (c : Chip) (pos : Nat) (r : JRec) : Chip :=
  let c := if c.role != 2 && r.jseq < c.get64 R.BOB_JSEQ_LO then c else if c.role != 2 || r.first = 0xFFFFFFFF || r.last < c.ply.chunks then (c.applyRec r).followLive r.hank else c.jName r
  if c.role = 2 then c.pl (fun p => { p with late := p.late ++ [(pos, r)] }) else c.jFollow pos r

/-- The registers of a mirrored launch entry (R423, Table 8.2). -/
def Chip.followEntry (c : Chip) (e : LaunchItem) (n : Nat) : Chip :=
  let d := (((c.put64i F.WHL_Ln_SLOT_LO_SLOT n e.slot).wri F.WHL_Ln_CFG_HANKS n (BitVec.ofNat 32 e.cfg)).wri F.WHL_Ln_ARG_STRAND_IN n (BitVec.ofNat 32 e.arg)).puti
    F.WHL_Ln_GRACE_SLOTS n e.grace
  let d := (d.puti F.WHL_Ln_NUM_NUM n e.num).puti F.WHL_Ln_STATE_FINAL n (b2n e.final)
  let d := if e.st = 6 then d.puti F.WHL_Ln_STATE_RESULT n Status.staleEpoch.code
    else if e.st = 3 || e.st = 4 then d else d.puti F.WHL_Ln_STATE_RESULT n Status.pending.code
  { d with whl := { c.whl with
    lastNum := max c.whl.lastNum e.num
    fromLead := if c.whl.fromLead.contains e.num then c.whl.fromLead
      else c.whl.fromLead.filter (fun m => (List.range 16).any (fun k => c.lst k != 0 && c.lnum k == m)) ++ [e.num] } }

/-- The strand switch a mirrored entry arms at its hank. -/
def Chip.followSwitch (c : Chip) (e : LaunchItem) : Chip :=
  match bitsIn (bitsOf e.cfg 31 16) 16 with
  | h :: _ => c.hankMod h (fun k => { k with switch := some { launch := e.num, out := e.arg % 4096, into := e.arg / 4096 % 4096 } })
  | [] => c

/-- The state of a mirrored entry, and the Bobbins it arms. A CANCELLING one is remembered with the Bobbins whose targets hold a key, for
the follow that must end the cancel (Table 8.8). GRACE and DONE come from the own slot events, but for an entry this instance did not hold. -/
def Chip.followState (c : Chip) (e : LaunchItem) (n : Nat) : Chip :=
  let ids := (c.bound e.num).filter (fun b => (c.warpCh b.2).isSome) |>.map (fun b => (e.num, b.1))
  let c := if e.st = 5 then { c with whl := { c.whl with cancelWait := c.whl.cancelWait ++ ids } }
    else if e.st = 6 then { c with whl := { c.whl with cancelWait := c.whl.cancelWait.filter (fun w => w.1 != e.num) } }
    else c
  ((c.when (e.st == 5) (fun c => c.each ((c.bound e.num).map (·.1)) Chip.shed)).when
      (if e.st == 3 || e.st == 4 then c.lst n == 0 else c.lst n != 3 && c.lst n != 4) (fun c => c.lset n e.st)).each
    e.armed (fun c i => c.bobMod i (fun b => if b.st = 4 then { b with st := 5, launch := e.num } else b))

/-- A launch entry as the lead has it (R214). -/
def Chip.followLaunch (c : Chip) (e : LaunchItem) : Chip :=
  let n := e.entry % 16
  if e.st = 0 then c.lfree n
  else
    let d := (if c.lnum n = e.num then c else c.lfree n).followEntry e n
    ((if d.lst n = 0 then (d.puti F.WHL_Ln_STATE_CANCEL_LEAD n 16).when (e.st == 1 && bit e.cfg 1) (fun d => d.followSwitch e) else d)).followState e n

/-- An owner object that took effect at the lead takes it here, in the tables alone. -/
def Chip.followObject (c : Chip) (d : List Byte) : Chip :=
  match c.hanks.pend.find? (fun p => p.digest == d) with
  | none => c
  | some p =>
    match c.hank? p.hank with
    | none => c
    | some k =>
      if p.kind = 1 then (c.hankMod p.hank (fun k => { k with endorsed := p.owners })).gathered p.hank
      else if p.owners.length < k.need p.body then c
      else
        let h := p.hank
        let kind := numAt p.body 64 1
        let c := c.ha (fun u => { u with pend := u.pend.filter (fun q => q.digest != d) })
        let c := c.hankMod h (fun k => if p.kind < 0x10 then k else { k with seqs := tput k.seqs (seqKey p.body) p.seq })
        match p.kind with
        | 0x03 => c.hankMod h (fun k => { k with st := 5, phase := 0, consents := [] })
        | 0x10 =>
          let q : Consent := { kind := kind, seq := p.seq, first := numAt p.body 72 8, last := numAt p.body 80 8, endSlot := numAt p.body 88 8,
                               count := numAt p.body 96 4, params := p.body.drop 128 }
          let c := c.hankMod h (fun k => { k with consents := k.consents.filter (fun q => q.kind != kind) ++ [q] })
          if kind = 2 && c.twOpened h then c.twMod h (fun t => { t with next := q.params }) else c
        | 0x11 => c.hankMod h (fun k => { k with consents := k.consents.filter (fun q => q.kind != kind) })
        | 0x12 =>
          let drop := ssDropped p.body
          let rs := (ssRanges p.body).map (fun e => let r := rangeOf e; { r with tier := if c.worsted r then 1 else 0 })
          c.hankMod h (fun k =>
            { k with strands := k.strands.filter (fun s => !drop.contains s) ++ ssAdded p.body,
                     ranges := k.ranges.filter (fun r => !drop.contains r.strand) ++ rs })
        | _ => c

/-- A hank key arrives (Table 15.5). -/
def Chip.followKey (c : Chip) (h cer : Nat) (key : List Byte) : Chip :=
  let c := c.cu (fun u => { u with keys := { u.keys with hank := tput u.keys.hank h key, noise := tput u.keys.noise h (kNoise key) } })
  let c := ((c.puti F.DST_HANKn_VALID h 1).puti F.DST_HANKn_CEREMONY h cer).puti F.DST_HANKn_FROZEN h 0
  c.hankMod h (fun k => { k with shares := [], phase := if k.st = 2 then 2 else k.phase })

/-- An object body arrives. -/
def Chip.followBody (c : Chip) (b : List Byte) : Chip :=
  let d := Config.sha3_384 b
  let p : Pend := { digest := d, kind := obKind b, hank := obHank b, ceremony := obCer b, seq := obSeq b, expiry := obExpiry b, body := b }
  let c := c.ha (fun u => { u with pend := u.pend ++ [p] })
  if p.kind = 1 then c.ha (fun u => { u with tab := tput u.tab p.hank (c.hankOf b d 0) }) else c

/-- A mirror item's effect on the follow's own state (R423). -/
def Chip.followItem (c : Chip) (i : MItem) : Chip :=
  match i with
  | .journal pos r => c.followRec pos r
  | .hankKey h cer key => c.followKey h cer key
  | .hankDrop h => c.hankFree h
  | .imported id e key q => (c.cachePut id e key true).bobMod id (fun b => { b with session := q })
  | .launch e => c.followLaunch e
  | .root tree id v node => c.rootMirrored tree id v node
  | .boundary id e off len st => c.bobMod id (fun b => if b.epoch = e then { b with bound := off, len := if b.len = 0 then len else b.len, reenc := b.reenc && st != Status.ok.code } else b)
  | .twist src batch =>
    if 128 ≤ src then c.twFollow (src - 128) batch
    else
      let rs := (List.range (batch.length / 64)).map (fun i => slice batch (64 * i) 64)
      c.twIntake (c.twist.intake ++ rs.map (fun r => (twKind r == 8, r)))
  | .session id secret => { c with spdm := { c.spdm with sess := tmod c.spdm.sess id {} (fun s => { s with secret := secret, conn := 0x10000, est := true }) } }
  | .object b => c.followBody b
  | .endorsed d o =>
    (c.ha (fun u => { u with pend := u.pend.map (fun q => if q.digest = d && !q.owners.contains o then { q with owners := q.owners ++ [o] } else q) })).followObject d
  | .share h o x => (c.hankMod h (fun k => { k with shares := tput k.shares o x })).gathered h
  | .carding n st key =>
    let c := c.cardSet n st
    if st = 4 then (c.setCarded n true).cu (fun u => { u with node := tput u.node n key }) else c.cardDrop n
  | .ringKey rk key =>
    if (List.range 16).any (fun n => lopen (c.lst n) && c.geti F.WHL_Ln_CFG_RING n == 1) then
      { c with whl := { c.whl with newRing := some (rk, key), ringAcks := [] } }
    else { c with ring := { c.ring with key := some key, rkey := rk, seq := 0, stopped := false } }.put F.SKN_CTRL_PREKEY 0
  | .scrub num h n nonce =>
    (c.ha (fun u => { u with scrub := num })).hankMod h (fun k => { k with scrubs := tput k.scrubs n { number := num, nonce := nonce, op := 3 } })
  | .lease num fresh launch scrub =>
    let c := (c.wr R.PLY_LEASE (BitVec.ofNat 32 num)).pl (fun p => { p with fresh := fresh })
    { c with whl := { c.whl with lastNum := max c.whl.lastNum launch }, hanks := { c.hanks with scrub := max c.hanks.scrub scrub } }

/-- Mirrored records the repair has reached enter the journal (Table 15.9, step 4). -/
def Chip.lateGo (c : Chip) (n : Nat) : Chip :=
  match n with
  | 0 => c
  | n + 1 =>
    match c.ply.late with
    | [] => c
    | e :: es =>
      let next := c.get64 R.BOB_JSEQ_LO
      if e.2.jseq < next then Chip.lateGo (c.pl (fun p => { p with late := es })) n
      else if e.2.jseq = next && c.ply.repairTo = 0 then Chip.lateGo ((c.pl (fun p => { p with late := es })).jFollow e.1 e.2) n
      else c

/-- A mirrored item in its turn (R423): applied once, and owed an acknowledgement, a journal record's once its program has started.
A lead takes the roots its follow accepts (R241). -/
def Chip.mirrorIn (c : Chip) (n : Nat) (i : MItem) : Chip :=
  if !c.linked then c
  else if c.leads then
    match i with
    | .root .. => (((c.plyGot 0x20).count 31 1).followItem i).pl (fun p => { p with acks := p.acks ++ [(n, 0)] })
    | _ => c
  else
    let c := (c.plyGot 0x20).count 31 1
    let c := if c.role = 1 then c.setRole 2 else c
    let seen := decide (n ≤ c.ply.applied) && c.role != 2
    let wait := match i with | .journal _ r => if c.role = 2 then 0 else r.jseq + r.parts.length | _ => 0
    let c := if seen then c else c.followItem i
    let c := (c.pl (fun p => { p with applied := max p.applied n, acks := p.acks ++ [(n, if seen then 0 else wait)] })).put64 R.PLY_MSEQ_LO (max c.ply.applied n)
    if c.role = 2 then c.lateGo c.ply.late.length else c

/-- The acknowledgements that may leave: the highest item with no earlier one still waiting for its program. -/
def Chip.acksDue (c : Chip) : Chip :=
  let ready := c.ply.acks.takeWhile (fun a => a.2 == 0)
  match ready.getLast? with
  | none => c
  | some a => (c.pl (fun p => { p with acks := p.acks.drop ready.length })).plySend 0x21 (le 8 (ready.foldl (fun m b => max m b.1) a.1))

/-! Resync (R436). -/

/-- `PLY_RESYNC` of the lead. -/
def Chip.resyncShow (c : Chip) (path phase records : Nat) : Chip :=
  (((c.pl (fun p => { p with resync := phase })).put F.PLY_RESYNC_PATH path).put F.PLY_RESYNC_PHASE phase).put F.PLY_RESYNC_RECORDS (min records (2 ^ 28 - 1))

/-- A RESYNC_DATA frame. -/
def Chip.resyncSend (c : Chip) (r : ResPart) : Chip :=
  let part := match r with | .chunk .. => 2 | .page .. => 3 | _ => 1
  c.plySend 0x41 (padTo 16 (le 1 part)) none (some r)

/-- The state items of step 2 (Table 15.9). -/
def Chip.stateItems (c : Chip) : List ResPart :=
  (c.cust.keys.hank.map (fun (e : Nat × List Byte) => ResPart.item (.hankKey e.1 (c.geti F.DST_HANKn_CEREMONY e.1) e.2))) ++
  (c.cust.node.map (fun (e : Nat × List Byte) => ResPart.item (.carding e.1 4 e.2))) ++
  (match c.ring.key with | some k => [ResPart.item (.ringKey c.ring.rkey k)] | none => []) ++
  ((c.cust.cache.filter (·.pinned)).map (fun e => ResPart.item (.imported e.bob e.epoch (xorBytes e.s0 e.s1) (match c.bob? e.bob with | some b => b.session | none => 0)))) ++
  (c.spdm.sess.map (fun (e : Nat × Sess) => ResPart.item (.session e.1 e.2.secret))) ++
  (c.hanks.tab.map (fun (e : Nat × Hank) => ResPart.hank e.1 e.2)) ++ (c.hanks.pend.map ResPart.object) ++
  (((List.range 16).filter (fun n => c.lst n != 0)).map (fun n => ResPart.item (c.lItem n))) ++
  (((List.range 64).filter (fun n => c.cardSt n != 4 && c.cardSt n != 0)).map (fun n => ResPart.item (.carding n (c.cardSt n) []))) ++
  (c.twist.tab.map (fun (e : Nat × Twist) => ResPart.twist e.1 e.2
    ((c.regs.filter (fun r => R.DGT_TWn_CTRL e.1 ≤ r.1 && r.1 < R.DGT_TWn_CTRL e.1 + 0x40))))) ++
  (c.cust.trs.map (fun (e : Nat × List Byte) => ResPart.item (.root e.1 ((c.treeBob e.1).map (·.1) |>.getD 0) ((c.treeBob e.1).map (·.2.rootVer) |>.getD 0) e.2))) ++
  [ResPart.item (.lease c.leaseNum c.ply.fresh c.whl.lastNum c.hanks.scrub)]

/-- IDs of a 4 KiB chunk of the Bobbin table. -/
def chunkIds : Nat := 170

/-- The chunks that hold a Bobbin, and the last one (Table 15.9, step 3). -/
def Chip.chunks (c : Chip) : List ResPart :=
  let ws := (c.cust.bobs.map (fun e => e.1 / chunkIds)).dedup
  let ws := if ws.contains (0xFFFFF / chunkIds) then ws else ws ++ [0xFFFFF / chunkIds]
  ws.map (fun w => ResPart.chunk (w * chunkIds) (c.cust.bobs.filter (fun e => e.1 / chunkIds == w)))

/-- A record as the repair sends it: a HANK_KEY group carries its key unwrapped. -/
def Chip.repairRec (c : Chip) (r : JRec) : JRec :=
  if r.op = 0x10 then { r with parts := (match c.jHankKey r with | some k => [slice k 0 16, slice k 16 16, slice k 32 16] | none => r.parts) } else r

/-- The journal records an answer sends, its last part marked (R427). -/
def Chip.resyncPages (c : Chip) (path : Nat) (todo : List (Nat × JRec)) : Chip :=
  match todo with
  | [] => c.resyncSend (.page path [] true)
  | _ => (c.each todo.dropLast (fun c g => c.resyncSend (.page path [(g.1, c.repairRec g.2)] false))).each (todo.drop (todo.length - 1)) (fun c g =>
      c.resyncSend (.page path [(g.1, c.repairRec g.2)] true))

/-- The parts of an answer in their order (R427): state, chunks, journal. -/
def Chip.resyncParts (c : Chip) (path next : Nat) (todo : List (Nat × JRec)) : Chip :=
  let d := c.resyncShow path 2 todo.length
  let d := (d.put F.PLY_STATUS_PARTNER 2).each d.stateItems Chip.resyncSend
  let d := (d.resyncShow path 3 todo.length).each d.chunks Chip.resyncSend
  ((d.resyncShow path 4 0).pl (fun p => { p with repairTo := next })).resyncPages path todo

/-- RESYNC_REQ at a fresh lead (Table 15.9): the path is chosen, and the steps 1 to 4 run in order. -/
def Chip.resyncReq (c : Chip) (jseq : Nat) : Chip :=
  if !c.linked || c.role != 5 || c.ply.resync != 0 then c
  else
    let d := c.plyGot 0x40
    let all := d.jAll
    let next := d.get64 R.BOB_JSEQ_LO
    if (jseq = next || all.any (fun g => g.2.jseq == jseq)) && decide (next ≤ jseq + 1048576) && decide (jseq ≤ next)
    then d.resyncParts 0 next (all.filter (fun g => decide (jseq ≤ g.2.jseq)))
    else d.resyncParts 1 next all

/-- Step 5: once every item is acknowledged and the partner's journal has reached the head of the repair, effects wait for it again and a
RENEW names it fresh (Table 15.9). -/
def Chip.resyncFive (c : Chip) : Chip :=
  if c.role = 5 && c.ply.resync = 4 && c.ply.macked = c.ply.mseq && decide (c.ply.repairTo ≤ c.cust.jrnl.partnerDur + 1) then
    let mask := Nat.lor c.ownFresh c.partnerFresh
    let c := (c.resyncShow (c.get F.PLY_RESYNC_PATH) 5 0).pl (fun p => { p with fresh := mask, newFresh := some mask })
    c.renew mask
  else c

/-- The registers of a hank's chain as the lead sends them. -/
def Chip.chainRegs (c : Chip) (h : Nat) (regs : List (Nat × Word)) : Chip :=
  (c.resetCopy h 16 (R.DGT_TWn_CTRL h) (R.DGT_TWn_CTRL h + 0x40)).each regs (fun c e =>
    if h < 16 ∧ R.DGT_TWn_CTRL h ≤ e.1 ∧ e.1 < R.DGT_TWn_CTRL h + 0x40 then c.wr e.1 e.2 else c)

/-- A record of the lead's journal taken into this instance's (R427): behind those queued, its page's sector erased first where the
repair starts one. -/
def Chip.repairTake (c : Chip) (path : Nat) (e : Nat × JRec) : Chip :=
  let r := if e.2.op = 0x10 then { e.2 with parts := c.hankParts ((e.2.parts.flatten).take 32) } else e.2
  let fresh := path == 1 && c.cust.jrnl.queue.isEmpty && c.cust.jrnl.ready != some (e.1 / 128) && c.cust.jrnl.erasing != some (e.1 / 128) && e.1 % 128 == 0
  ((c.put64 R.BOB_JSEQ_LO (r.jseq + r.size)).when fresh (fun c => c.jr (fun j => { j with want := some (e.1 / 128), wantSeq := 0 }))).jr (fun j =>
    { j with queue := j.queue ++ [(some e.1, r)] })

/-- A RESYNC_DATA part at the rejoiner (Table 15.9). -/
def Chip.resyncData (c : Chip) (r : ResPart) : Chip :=
  if !c.linked || (c.role != 1 && c.role != 2) then c
  else
    let c := c.plyGot 0x41
    let c := if c.role = 1 then
        (c.setRole 2).pl (fun p => { p with chunks := 0, late := [], repairTo := 1 }) |>.cu (fun u =>
          { u with cache := u.cache.filter (·.pinned), trs := [], node := [], keys := { u.keys with hank := [], noise := [] } }) |>.ha (fun h =>
          { h with tab := [], pend := [] }) |> fun c => { c with twist := { c.twist with tab := [] } }
      else c
    match r with
    | .item i => c.followItem i
    | .hank h k => c.ha (fun u => { u with tab := tput u.tab h k })
    | .object p => c.ha (fun u => { u with pend := u.pend ++ [{ p with ticket := 0 }] })
    | .twist h t regs => { c with twist := { c.twist with tab := tput c.twist.tab h t } }.chainRegs h regs
    | .chunk first bobs =>
      let keep := c.cust.bobs.filter (fun e => e.1 < c.ply.chunks || first + chunkIds ≤ e.1)
      let put := bobs.foldl (fun (t : Tab Bob) e => tput t e.1 { e.2 with wait := [], blob := 0 }) keep
      (c.cu (fun u => { u with bobs := put })).pl (fun p => { p with chunks := first + chunkIds })
    | .page path recs last =>
      let d := (c.each recs (fun c e => c.repairTake path e)).when last (fun d => d.pl (fun p => { p with repairTo := 0 }))
      d.lateGo (d.ply.late.length)

/-- The rejoiner is fresh (Table 15.1): the repair has ended, and the lead's heartbeat says that a quorum knows. -/
def Chip.resyncDone (c : Chip) : Chip :=
  if c.role = 2 && c.ply.repairTo = 0 && c.ply.late.isEmpty && c.ply.partner = 5 && c.ply.serving then
    (((c.setRole 3).pl (fun p => { p with asking := false, fresh := 3 })).linkLog 0x0F05 0)
  else c

/-! Heartbeats (R421). -/

/-- A HEARTBEAT of this instance (Table 15.4). -/
def Chip.beatBody (c : Chip) : List Byte :=
  let sees := c.role == 5 && bit c.ply.fresh (1 - c.get F.GEN_ID_SIDE) && c.ply.newFresh.isNone
  padTo 48 (pack [(4, c.slot % 2 ^ 32), (1, c.role), (1, c.get F.PLY_STATUS_LEASE + 2 * b2n (sees || (c.role == 3 && c.ply.partner == 5))), (2, 0),
    (8, if c.role = 5 then c.ply.mseq else c.ply.applied), (4, (c.rd R.PLY_EXPIRY).toNat), (4, c.leaseNum), (8, c.get64 R.BOB_JDUR_LO), (8, c.ply.rxSeq - 1)])

/-- The code `PLY_STATUS.PARTNER` shows for a partner's Ply state (Table 12.4). -/
def partnerCode (role : Nat) : Nat := if role = 5 then 4 else if role = 3 then 1 else 2

/-- A HEARTBEAT arrives: the run of misses is broken, the partner's state is known. -/
def Chip.beatIn (c : Chip) (b : List Byte) : Chip :=
  if !c.linked then c
  else
    let st := numAt b 4 1
    let c := c.plyGot 0x10
    let c := (c.pl (fun p => { p with
      beatAt := c.slot, lost := false, partner := st, serving := bit (numAt b 5 1) 1
      leadExpiry := if bit (numAt b 5 1) 0 then numAt b 16 4 else p.leadExpiry })).put F.PLY_STATUS_PARTNER (partnerCode st)
    let c := (c.jr (fun j => { j with partnerDur := numAt b 24 8 })).jDurable
    let c := if st = 5 && c.role != 5 then { c.dropMaster with card := { c.card with active := false } } else c
    let c := if c.role != 5 && c.role != 4 && decide (c.leaseNum < numAt b 20 4) then c.wr R.PLY_LEASE (BitVec.ofNat 32 (numAt b 20 4)) else c
    match c.role with
    | 3 =>
      if st = 5 then c.pl (fun p => { p with gave := false })
      else if c.ply.gave && st = 3 then (c.pl (fun p => { p with gave := false })).candidate 1 0
      else if c.ply.gave then c
      else c.partnerLost
    | 1 => if st = 5 then c.askResync else c
    | _ => c

/-! Handover and sleep (R439, R441). -/

/-- Why a handover is refused. -/
def Chip.handoverBar (c : Chip) : Bool :=
  c.role != 5 || c.ply.partner != 3 || !c.linked || !c.waitsPartner || (List.range 16).any (fun n => c.lst n == 2) ||
    decide (c.slotsTo (c.rd R.PLY_EXPIRY).toNat ≤ 64) || decide (2 ^ 31 ≤ c.slotsTo (c.rd R.PLY_EXPIRY).toNat) || c.ply.resync != 0 || c.ply.handover.isSome

/-- `PLY_CTRL.HANDOVER`. -/
def Chip.handoverStart (c : Chip) : Chip :=
  if c.handoverBar then (c.put F.PLY_STATUS_LAST Status.busy.code).linkLog 0x1F03 Status.busy.code
  else ((c.put F.PLY_STATUS_LAST Status.ok.code).put F.BOB_CTRL_PAUSE 1).pl (fun p => { p with handover := some (c.slot, 0) })

/-- Slot *h* + 1: every acknowledgement is in, and the lease moves (Table 15.10). -/
def Chip.handoverGo (c : Chip) : Chip :=
  match c.ply.handover with
  | some (h, 0) =>
    if c.ply.macked != c.ply.mseq || !c.ply.holds.isEmpty || c.slot ≤ h then c
    else
      let num := (c.leaseNum + 1) % 2 ^ 32
      let c := c.plySend 0x50 (pack [(8, c.ply.mseq), (4, num)])
      let c := c.ringBroadcast 0x10 (c.leaseBody 5 3 c.partnerNode num (c.slot + 2048))
      (c.dropMaster).pl (fun p => { p with handover := some (c.slot, 1) })
  | _ => c

/-- The old lead is done (Table 15.10): a fresh FOLLOW. -/
def Chip.handoverEnd (c : Chip) : Chip :=
  match c.ply.handover with
  | some (h, 1) =>
    if c.slot < h + 16 || c.role != 5 then c
    else ((c.stopServing.setRole 3).pl (fun p => { p with gave := true, fresh := 3, applied := p.mseq, partner := 4 })).linkLog 0x0F04 0
  | _ => c

/-- A journal that has FAILED moves the lease at once to a follow (R439). -/
def Chip.handoverFailed (c : Chip) : Chip :=
  if c.jFailed && c.role = 5 && c.ply.partner = 3 && c.ply.handover.isNone && !c.handoverBar then c.handoverStart else c

/-- The sleep handshake is completed (R441): at the follow with its answer, at the lead once it has released the lease. -/
def Chip.sleepShook (c : Chip) : Bool := c.ply.sleeping == 3 || (c.ply.sleeping == 2 && c.role != 5)

/-- `PLY_CTRL.SLEEP_HS`. -/
def Chip.sleepStart (c : Chip) : Chip :=
  if !c.hanks.tab.isEmpty then c.put F.PLY_STATUS_LAST Status.denied.code
  else if c.role != 5 || c.ply.partner != 3 || !c.linked then c.put F.PLY_STATUS_LAST Status.busy.code
  else ((c.put F.PLY_STATUS_LAST Status.ok.code).pl (fun p => { p with sleeping := 1 })).plySend 0x60 []

/-- The lead's last step of the sleep handshake: the lease released, event 0x0F06, sleep. A hank created meanwhile ends the handshake (R64). -/
def Chip.sleepLead (c : Chip) : Chip :=
  if !c.hanks.tab.isEmpty then c.pl (fun p => { p with sleeping := 0 })
  else
    let c := c.ringBroadcast 0x10 (c.leaseBody 4 0 0xFF c.leaseNum c.slot)
    let c := (c.stopServing.setRole 1).linkLog 0x0F06 0
    c.sleepRequest

/-! Phases 0x30 to 0x40 (Table 5.1). -/

/-- CARDING ends once this instance's own Carding has, or its partner's has started; PAIRING ends with the lease, the follow role or, in
HX4, at once (assumption 66). -/
def Chip.phases (c : Chip) : Chip :=
  let warm := match c.ply.hello with | some h => bit (numAt h 3 1) 0 | none => false
  let carded := if c.card.active then !c.cardBusy else c.pkg != .hx4 && c.linked && (c.card.noticed || warm || c.leads || c.role = 3)
  let c := if c.phase = 0x30 && carded then c.setPhase 0x31 else c
  let c := if c.phase = 0x31 && c.role = 0 && c.linked then c.meet else c
  if c.phase != 0x31 then c
  else if c.pkg = .hx4 then
    let c := if c.cust.replayed then c else c.replay
    ((((c.setPhase 0x40).setMaster))).log 0x0503 uSPN []
  else if c.leads || c.role = 3 then (c.setPhase 0x40).log 0x0503 uSPN []
  else c

end Sys2Proof.Machine
end

