-- ==== Sys2Proof/Machine/UpdateOps.lean ====
section
/-!
DEFINITION. Firmware update as operations (R463 to R482): the update record, pieces, frames, checks of a staged image, the resident
loader's steps, what a start completes, CONFIRM, recovery.
-/

namespace Sys2Proof.Machine

/-! The update record (R464, R465). -/

/-- An entry's bytes (Table 17.3). -/
def SetEnt.bytes (e : SetEnt) : List Byte :=
  pack [(1, e.typ), (1, e.st), (2, e.order), (4, e.newSvn), (4, e.oldSvn), (4, 0)] ++ padTo 48 e.oldDigest ++ padTo 48 e.newDigest

/-- The record's 640 bytes (Table 17.2); the entry of type `k` + 1 is entry `k`. -/
def UpdRec.bytes (r : UpdRec) : List Byte :=
  let ents := (List.range 4).flatMap (fun k => match r.set.find? (fun e => e.typ == k + 1) with | some e => e.bytes | none => List.replicate 112 0#8)
  jSeal (ascii "GGMU" ++ pack [(2, 1), (2, 0), (4, r.gen), (4, r.session), (1, r.typ), (1, r.stage), (1, r.source), (1, 0), (4, r.total),
    (2, r.pieces), (6, 0)] ++ padTo 48 r.imageId ++ List.replicate 48 0#8 ++ ents ++ List.replicate 60 0#8)

/-- The record in a sector, none when it is not valid. -/
def Chip.updRead (c : Chip) (b : Bool) : Option UpdRec :=
  let x := c.norRd (updSector b) 640
  if x.take 4 != ascii "GGMU" || crc32c (x.take 636) != numAt x 636 4 then none
  else
    let ent := fun k =>
      let e := slice x (128 + 112 * k) 112
      if numAt e 0 1 = 0 then none
      else some (SetEnt.mk (numAt e 0 1) (numAt e 1 1) (numAt e 2 2) (numAt e 4 4) (numAt e 8 4) (slice e 16 48) (slice e 64 48))
    some { gen := numAt x 8 4, session := numAt x 12 4, typ := numAt x 16 1, stage := numAt x 17 1, source := numAt x 18 1, total := numAt x 20 4
           pieces := numAt x 24 2, imageId := slice x 32 48, set := (List.range 4).filterMap ent }

/-- Is sector B's record the one in force? -/
def Chip.updInB (c : Chip) : Bool :=
  match c.updRead false, c.updRead true with
  | some a, some b => decide (a.gen < b.gen)
  | none, some _ => true
  | _, none => false

/-- The record in force is taken at a start (R465). -/
def Chip.updLoad (c : Chip) : Chip := c.up (fun u => { u with record := (c.updRead c.updInB).getD {} })

/-- Write the next record: into the other sector, its generation one higher (R465). -/
def Chip.updPut (c : Chip) (f : UpdRec → UpdRec) : Chip :=
  let r := f c.upd.record
  let r := { r with gen := c.upd.record.gen + 1 }
  let a := updSector (!c.updInB)
  let a := if (c.updRead false).isNone && (c.updRead true).isNone then updSector false else a
  ((c.norErase a (a + 4096)).norWr a r.bytes).up (fun u => { u with record := r })

/-- The record without a session. -/
def UpdRec.noSession (r : UpdRec) : UpdRec := { gen := r.gen, set := r.set }

/-- An IMAGE event of the loader. -/
def Chip.updLog (c : Chip) (code typ step : Nat) (st : Status) (n : Nat) (digest : List Byte) : Chip := c.log code uLDR (c.aImg typ step st n digest)

/-! Pieces (R465, R472). -/

/-- The stored digest of piece `i`, none when it is absent. -/
def Chip.piece? (c : Chip) (i : Nat) : Option (List Byte) :=
  let e := c.norRd (pieceAddr i) 64
  if crc32c (e.take 60) = numAt e 60 4 && numAt e 0 2 = i && numAt e 4 4 = c.upd.record.session && c.upd.record.session != 0 then some (slice e 8 48) else none

/-- Pieces present. -/
def Chip.pieces (c : Chip) : List Nat := (List.range c.upd.record.pieces).filter (fun i => (c.piece? i).isSome)

/-- The length a piece must have. -/
def pieceLen (total pieces i : Nat) : Nat := if i + 1 = pieces then total - 4096 * (pieces - 1) else 4096

/-- Write piece `i`'s entry; one that is not blank is renewed with its sector (assumption 90). -/
def Chip.pieceWrite (c : Chip) (i : Nat) (e : List Byte) : Chip :=
  if norBlank c.mem.nor (pieceAddr i) 64 then c.norWr (pieceAddr i) e
  else
    let s := pieceAddr (i / 64 * 64)
    let x := c.norRd s 4096
    (c.norErase s (s + 4096)).norWr s (x.take (64 * (i % 64)) ++ e ++ x.drop (64 * (i % 64) + 64))

/-- The highest session number NOR still names (assumption 90). -/
def Chip.lastSession (c : Chip) : Nat :=
  let ents := (List.range 2048).map (fun i =>
    let e := c.norRd (pieceAddr i) 64
    if crc32c (e.take 60) = numAt e 60 4 then numAt e 4 4 else 0)
  (([c.updRead false, c.updRead true].filterMap id).map (·.session) ++ ents).foldl max 0

/-- NOR sectors of a range that are not blank. -/
def Chip.dirty (c : Chip) (a n : Nat) : List Nat :=
  ((List.range (n / 4096)).map (fun i => a + 4096 * i)).filter (fun s => !norBlank c.mem.nor s 4096)

/-- The session ends: its fields are erased, every piece becomes absent, the incoming sectors are erased in the background (R472). -/
def Chip.sessionEnd (c : Chip) : Chip :=
  let c := c.updPut UpdRec.noSession
  c.up (fun u => { u with erase := c.dirty incoming 0x800000, check := none })

/-! Frames (R466). -/

/-- A request frame. -/
structure UFrame where
  cmd : Nat
  session : Nat
  index : Nat
  payload : List Byte
  deriving DecidableEq, Repr

/-- A frame read from bytes, and whether its CRCs hold. -/
def updFrame (b : List Byte) : UFrame × Bool :=
  let n := numAt b 2 2
  ({ cmd := numAt b 0 1, session := numAt b 4 4, index := numAt b 8 4, payload := slice b 16 n },
   decide (n ≤ 4144) && decide (20 + n ≤ b.length) && crc32c (b.take 12) == numAt b 12 4 && crc32c (slice b 16 n) == numAt b (16 + n) 4)

/-- A response frame. -/
def updResp (cmd session index : Nat) (st : Status) (payload : List Byte) : List Byte :=
  jSeal (pack [(1, cmd), (1, st.code), (2, payload.length), (4, session), (4, index)]) ++ payload ++ le 4 (crc32c payload)

/-- How a command comes: the input of a service call, or the service port. -/
inductive UpdMode where
  | host | running | recovery
  deriving DecidableEq, Repr

/-- The mode in which the service port is served; none before Spindle or ROM serves it (R470). -/
def Chip.portMode (c : Chip) : Option UpdMode :=
  if !c.svcUp then none else if c.phase = 0x17 then some .recovery else if 0x20 ≤ c.phase then some .running else none

/-- An outcome leaves: a PENDING call completes, a waiting call is answered, the port's response is replaced unless a WRITE came since. -/
def Chip.updOut (c : Chip) (o : UpdFrom) (st : Status) : Chip :=
  let b := updResp o.cmd o.session o.index st []
  match o.who with
  | .call t => c.finishCall t st b
  | .mbox n => match c.callAt n with | some k => c.answer k { st := st, out := b } | none => c
  | .port => if c.upd.portWait then c.up (fun u => { u with portOut := some b, portWait := false }) else c

/-- What serving a command leads to: its status (PENDING: an outcome follows), a payload, the `SESSION` to answer. -/
structure UAns where
  st : Status
  payload : List Byte := []
  session : Option Nat := none
  silent : Bool := false
  deriving DecidableEq, Repr

/-- Note whom the outcome of CHECK, ACTIVATE or CONFIRM goes to. -/
def Chip.updTo (c : Chip) (o : UpdFrom) : Chip :=
  c.up (fun u => match o.cmd with
    | 0x13 => { u with check := u.check.map (fun _ => o) }
    | 0x14 => { u with loader := u.loader.map (fun l => { l with origin := o }) }
    | _ => { u with confirm := u.confirm.map (fun q => { q with origin := o }) })

/-- Serve the frame of a command: from the service port, or as the input of a service call of its code (R467 to R470). `mine` says which
`CMD`s the command covers. -/
def Chip.updServe (c : Chip) (via : Option Nat) (code : Nat) (mine : Nat → Bool) (f : UpdMode → Chip → UFrame → Chip × UAns) : Chip :=
  match via with
  | none =>
    match c.portMode, c.upd.portIn with
    | some m, some b =>
      let fr := updFrame b
      if !mine fr.1.cmd then c
      else
        let c := c.up (fun u => { u with portIn := none })
        let out := fun (c : Chip) (st : Status) (p : List Byte) (s : Nat) => c.up (fun u => { u with portOut := some (updResp fr.1.cmd s fr.1.index st p) })
        if !fr.2 then out c .integrity [] fr.1.session
        else
          let r := f m c fr.1
          let c := if r.2.st = Status.pending then
            (r.1.updTo { who := .port, cmd := fr.1.cmd, session := fr.1.session, index := fr.1.index }).up (fun u => { u with portWait := true }) else r.1
          if r.2.silent then c else out c r.2.st r.2.payload (r.2.session.getD fr.1.session)
    | _, _ => c
  | some n =>
    if !mine (updFrame (c.callInput n)).1.cmd then c
    else
      c.onCall n code noGate (fun c k input =>
        let fr := updFrame input
        let resp := fun (st : Status) (p : List Byte) (s : Nat) => updResp fr.1.cmd s fr.1.index st p
        if !fr.2 then (c, { st := .integrity, out := resp .integrity [] fr.1.session })
        else if code = 0x40 && numAt k.args 0 1 != fr.1.cmd then (c, { st := .badArg, out := resp .badArg [] fr.1.session })
        else if (c.pendCall k).isNone && (fr.1.cmd = 0x13 || fr.1.cmd = 0x14) then (c, { st := .busy, out := resp .busy [] fr.1.session })
        else
          let r := f .host c fr.1
          let from_ := fun who => ({ who := who, cmd := fr.1.cmd, session := fr.1.session, index := fr.1.index } : UpdFrom)
          if r.2.st != Status.pending then (r.1, { st := r.2.st, out := resp r.2.st r.2.payload (r.2.session.getD fr.1.session) })
          else if r.2.silent then (r.1.updTo (from_ (.mbox n)), { st := .pending, wait_ := true })
          else
            match r.1.pendCall k with
            | some p => (p.2.updTo (from_ (.call p.1)), { st := .pending, ticket := p.1 })
            | none => (r.1, { st := .busy }))

/-! Staging (R471, R472). -/

/-- The set holds an entry in a state. -/
def UpdRec.some_ (r : UpdRec) (p : SetEnt → Bool) : Bool := r.set.any p

/-- Stopped at phase 0x22 under R119. -/
def Chip.stopped22 (c : Chip) : Bool := c.phase == 0x22 && c.get F.GEN_BOOT_FAIL_STEP == 0x22

/-- BEGIN (R470, R471): is the type admitted on the path? -/
def Chip.typeAdmitted (c : Chip) (m : UpdMode) (typ : Nat) : Bool :=
  match m with
  | .host => decide (2 ≤ typ) && decide (typ ≤ 4)
  | .running => typ == 1 || (decide (2 ≤ typ) && decide (typ ≤ 4) && c.stopped22)
  | .recovery => typ == 1

/-- A new session is opened. -/
def Chip.sessionOpen (c : Chip) (m : UpdMode) (typ total : Nat) (id : List Byte) : Chip × UAns :=
  let n := c.lastSession + 1
  let c := c.norErase (pieceAddr 0) (pieceAddr 2048)
  let src := if m = UpdMode.host then 0 else 1
  let c := c.updPut (fun r =>
    { r with session := n, typ := typ, stage := 1, source := src, total := total, pieces := (total + 4095) / 4096, imageId := id })
  let c := c.up (fun u => { u with erase := c.dirty incoming (4096 * c.upd.record.pieces) ++ c.dirty (imgRetained typ).1 (imgRetained typ).2 })
  (c.updLog 0x0101 typ 0 .ok 0 id, { st := .ok, session := some n })

/-- BEGIN while Spindle runs. -/
def Chip.begin_ (c : Chip) (m : UpdMode) (fr : UFrame) : Chip × UAns :=
  let p := fr.payload
  let typ := numAt p 0 1
  let total := numAt p 4 4
  let id := slice p 8 48
  let r := c.upd.record
  let st := firstStatus [(!c.typeAdmitted m typ, .denied), (p.length != 56 || decide (total < 8192) || decide ((imgArea typ).2 < total), .badArg),
    (r.some_ (fun e => e.typ == typ || e.st != 2), .busy)]
  if st != .ok then (c, { st := st })
  else if r.session = 0 then c.sessionOpen m typ total id
  else if r.typ = typ && r.total = total && r.imageId = id then
    let src := if m = UpdMode.host then 0 else 1
    let c := if r.source = src then c else c.updPut (fun r => { r with source := src })
    (c.updLog 0x0101 typ 0 .ok 0 id, { st := .ok, session := some r.session })
  else if bit (numAt p 1 1) 0 then c.sessionEnd.sessionOpen m typ total id
  else (c.updLog 0x1102 typ 0 .busy 0 id, { st := .busy })

/-- PIECE while Spindle runs (R472); `flaw`: NOR reads back otherwise than programmed. -/
def Chip.piece (c : Chip) (flaw : Bool) (fr : UFrame) : Chip × UAns :=
  let r := c.upd.record
  let d := fr.payload.take 48
  let x := fr.payload.drop 48
  if r.session = 0 || fr.session != r.session || decide (r.pieces ≤ fr.index) || x.length != pieceLen r.total r.pieces fr.index then
    (c, { st := .badArg })
  else
    match c.piece? fr.index with
    | some old => (c, { st := if old = d then .ok else .integrity })
    | none =>
      let a := incoming + 4096 * fr.index
      let c := if norBlank c.mem.nor a 4096 then c else c.norErase a (a + 4096)
      let c := (c.up (fun u => { u with erase := u.erase.filter (· != a) })).norWr a x
      let c := if flaw then (let e := c.drawBytes x.length; e.2.norWr a e.1) else c
      if Config.sha384 (c.norRd a x.length) = d then
        let e := jSeal (pack [(2, fr.index), (2, x.length), (4, r.session)] ++ padTo 48 d ++ List.replicate 4 0#8)
        (c.pieceWrite fr.index e, { st := .ok })
      else (c.updLog 0x1101 r.typ 0 .integrity fr.index d, { st := .integrity })

/-- QUERY's response (Table 17.5). -/
def Chip.updQueryBody (c : Chip) : List Byte :=
  let r := c.upd.record
  let ps := c.pieces
  pack [(1, r.stage), (1, r.typ), (1, r.source), (1, 0), (4, r.session), (2, r.pieces), (2, ps.length), (4, 0)] ++
    (List.range 4).flatMap (fun k => match r.set.find? (fun e => e.typ == k + 1) with
      | some e => pack [(1, e.typ), (1, e.st), (2, e.order), (4, e.newSvn)]
      | none => List.replicate 8 0#8) ++ le 256 (maskOf ps)

/-! CHECK (R475). -/

/-- CHECK starts. -/
def Chip.checkStart (c : Chip) (fr : UFrame) : Chip × UAns :=
  let r := c.upd.record
  let ret := imgRetained r.typ
  let st := firstStatus [(r.session = 0 || fr.session != r.session, .badArg),
    (decide (c.pieces.length < r.pieces) || c.upd.erase.any (fun a => decide (ret.1 ≤ a) && decide (a < ret.1 + ret.2)) || c.upd.check.isSome ||
      c.upd.loader.isSome, .busy)]
  if st = .ok then (c.up (fun u => { u with check := some { who := .port, cmd := 0x13, session := fr.session, index := fr.index } }), { st := .pending })
  else (c, { st := st })

/-- The staged image's header and body, as NOR holds them. -/
def Chip.staged (c : Chip) : List Byte × List Byte :=
  let h := c.norRd incoming 8192
  (h, c.norRd (incoming + 8192) (min (numAt h 16 4) (0x800000 - 8192)))

/-- The check of an image: the failing step and its status; step 0 is the session's own agreement, 6 the manifest's entries. -/
def Chip.stageCheck (c : Chip) (typ total : Nat) (id : List Byte) (img : List Byte × List Byte) : Nat × Status :=
  if Config.sha384 img.1 != id || numAt img.1 6 1 != typ || 8192 + numAt img.1 16 4 != total then (0, .badArg)
  else
    let v := c.imgCheck typ img.1 img.2 (imgArea typ).2
    if v.2 != .ok then v else if typ = 3 && c.manifestBad img.2 != .ok then (6, c.manifestBad img.2) else (0, .ok)

/-- The check of a staged image ends. -/
def Chip.checkEnd (c : Chip) (o : UpdFrom) : Chip :=
  let r := c.upd.record
  let c := c.up (fun u => { u with check := none })
  if r.session != o.session then c.updOut o .badArg
  else
    let img := c.staged
    let v := c.stageCheck r.typ r.total r.imageId img
    let d := slice img.1 32 48
    if v.2 = .ok then ((c.updPut (fun r => { r with stage := 2 })).updLog 0x0102 r.typ 0 .ok (numAt img.1 8 4) d).updOut o .ok
    else
      let c := if v.1 = 3 then
          c.each (c.pieces.filter (fun i => (c.piece? i) != some (Config.sha384 (c.norRd (incoming + 4096 * i) (pieceLen r.total r.pieces i)))))
            (fun c i => c.norWr (pieceAddr i) (List.replicate 64 0#8))
        else c.sessionEnd
      (c.updLog 0x2101 r.typ v.1 v.2 (numAt img.1 8 4) d).updOut o v.2

/-! The resident loader (R476 to R479). -/

/-- Whom the role lets activate (R476): the refusal, and whether the lease is handed over first. -/
def Chip.activateRole (c : Chip) (m : UpdMode) : Status × Bool :=
  let alone := if c.hanks.tab.isEmpty then Status.ok else Status.denied
  if c.stopped22 then (if m = UpdMode.running then .ok else .denied, false)
  else if c.pkg = .hx4 then (alone, false)
  else
    match c.role with
    | 3 => (.ok, false)
    | 5 => if c.ply.partner = 3 && c.waitsPartner then (if c.handoverBar then .busy else .ok, true) else (alone, false)
    | 6 => (alone, false)
    | _ => (.busy, false)

/-- Does an area hold an image, and its body's digest and `SVN`? -/
def Chip.areaImage (c : Chip) (a : Nat × Nat) : Option (List Byte × Nat) :=
  let h := c.norRd a.1 8192
  if h.take 4 = ascii "GGMI" then some (Config.sha3_384 (c.norRd (a.1 + 8192) (min (numAt h 16 4) (a.2 - 8192))), numAt h 8 4) else none

/-- Step 1: the set entry. -/
def Chip.loaderEnter (c : Chip) : Chip :=
  let r := c.upd.record
  let old := (c.areaImage (imgArea r.typ)).getD (List.replicate 48 0#8, 0)
  let h := c.norRd incoming 8192
  let order := (r.set.map (·.order)).foldl max 0 + 1
  c.updPut (fun r => { r with set := r.set ++ [SetEnt.mk r.typ 1 order (numAt h 8 4) old.2 old.1 (slice h 32 48)] })

/-- ACTIVATE (R476, R479). -/
def Chip.activate (c : Chip) (m : UpdMode) (fr : UFrame) : Chip × UAns :=
  let r := c.upd.record
  let back := bit (numAt fr.payload 0 4) 0
  let role := c.activateRole m
  let busy := r.some_ (fun e => e.st = 1 || (!back && e.st = 3)) || c.upd.loader.isSome || c.upd.check.isSome || c.upd.confirm.isSome
  let st := firstStatus [(role.1 != .ok, role.1), (busy, .busy), (if back then r.set.isEmpty else r.stage != 2, .denied),
    (!back && fr.session != r.session, .badArg)]
  if st != .ok then (c, { st := st })
  else
    let o : UpdFrom := { who := .port, cmd := 0x14, session := fr.session, index := fr.index }
    let l : Loader := { step := if role.2 then 1 else if back then 11 else 2, typ := r.typ, back := back, origin := o }
    let c := c.up (fun u => { u with loader := some l })
    let c := if role.2 then c.handoverStart else if back then c else c.loaderEnter
    (c, { st := .pending })

/-- The loader stops with a status. -/
def Chip.loaderStop (c : Chip) (l : Loader) (st : Status) : Chip := (c.up (fun u => { u with loader := none })).updOut l.origin st

/-- A read-back failed: programmed again, three times in a row at most (R477). -/
def Chip.loaderBad (c : Chip) (l : Loader) : Chip :=
  if l.tries < 2 then c.up (fun u => { u with loader := some { l with tries := l.tries + 1 } })
  else
    let c := c.updLog 0x2103 l.typ l.step .integrity 0 []
    let c := if l.step = 2 then c.updPut (fun r => { r with set := r.set.filter (fun e => e.typ != l.typ) }) else c
    c.loaderStop l .integrity

def Chip.loaderGo (c : Chip) (l : Loader) (step : Nat) : Chip := c.up (fun u => { u with loader := some { l with step := step, tries := 0 } })

/-- Does a place hold the image an entry replaced? A zero digest is a blank place. -/
def Chip.holdsOld (c : Chip) (a : Nat × Nat) (e : SetEnt) : Bool :=
  if e.oldDigest.all (· == 0#8) then norBlank c.mem.nor a.1 a.2 else (c.areaImage a).map (·.1) == some e.oldDigest

/-- A range copied to another, erased first. -/
def Chip.norCopy (c : Chip) (src dst : Nat × Nat) : Chip :=
  let x := c.norRd src.1 (min src.2 dst.2)
  (c.norErase dst.1 (dst.1 + dst.2)).norWr dst.1 x

/-- Program a range's copy; with `flaw` it reads back otherwise. -/
def Chip.norCopied (c : Chip) (src dst : Nat × Nat) (flaw : Bool) : Chip :=
  let c := c.norCopy src dst
  if flaw then c.norTorn dst.1 4096 else c

/-- The set entry of a type changed, or gone. -/
def Chip.entrySet (c : Chip) (typ : Nat) (f : SetEnt → Option SetEnt) : Chip :=
  c.updPut (fun r => { r with set := r.set.filterMap (fun e => if e.typ = typ then f e else some e) })

/-- The entry that falls back next: the highest `ORDER` (R479). -/
def UpdRec.lastEnt (r : UpdRec) : Option SetEnt := r.set.foldl (fun m e => match m with
  | some x => if x.order < e.order then some e else m
  | none => some e) none

/-- The restart of R477, step 6. -/
def Chip.loaderRestart (c : Chip) : Chip := (c.up (fun u => { u with loader := none })).warmReset

/-- May the loader still work: does this instance not serve alone with hanks (Table 17.7)? -/
def Chip.loaderMay (c : Chip) : Bool := c.stopped22 || c.role == 3 || c.hanks.tab.isEmpty

/-- Does the incoming image read back in its area (R477, step 4)? -/
def Chip.programmed (c : Chip) (typ : Nat) (id : List Byte) : Bool :=
  let h := c.norRd (imgArea typ).1 8192
  Config.sha384 h == id && (c.areaImage (imgArea typ)).map (·.1) == some (slice h 32 48)

/-- Do all retained copies pass R479, step 1? -/
def Chip.retainedOk (c : Chip) (e : SetEnt) : Bool :=
  if e.oldDigest.all (· == 0#8) then true
  else
    let a := imgRetained e.typ
    let h := c.norRd a.1 8192
    let b := c.norRd (a.1 + 8192) (min (numAt h 16 4) (a.2 - 8192))
    let v := c.imgCheck e.typ h b (imgArea e.typ).2
    (v.1 = 0 || v.1 = 5) && Config.sha3_384 b == e.oldDigest

/-- The area takes the retained copy, or stays erased (R479, step 2). -/
def Chip.fallBack (c : Chip) (e : SetEnt) (flaw : Bool) : Chip :=
  let a := imgArea e.typ
  if e.oldDigest.all (· == 0#8) then c.norErase a.1 (a.1 + a.2) else c.norCopied (imgRetained e.typ) a flaw

/-- One step of the loader; `flaw`: NOR reads back otherwise than programmed. -/
def Chip.loaderStep (c : Chip) (flaw : Bool) : Chip :=
  match c.upd.loader with
  | none => c
  | some l =>
    let r := c.upd.record
    let ent := r.set.find? (fun e => e.typ == l.typ)
    if l.step = 1 then
      if c.role = 3 then (if l.back then c.loaderGo l 11 else (c.loaderGo l 2).loaderEnter)
      else if c.ply.handover.isSome then c else c.loaderStop l .busy
    else if !c.loaderMay then c.loaderStop l .busy
    else
      match l.step, ent with
      | 2, some e =>
        let c := c.norCopied (imgArea l.typ) (imgRetained l.typ) flaw
        if c.holdsOld (imgRetained l.typ) e then c.loaderGo l 3 else c.loaderBad l
      | 3, some _ => (c.norErase (imgArea l.typ).1 ((imgArea l.typ).1 + (imgArea l.typ).2)).loaderGo l 4
      | 4, some e =>
        let c := c.norCopied (incoming, (imgArea l.typ).2) (imgArea l.typ) flaw
        if c.programmed l.typ r.imageId then
          let c := c.updPut (fun r => { r.noSession with set := r.set.map (fun x => if x.typ = l.typ then { x with st := 2 } else x) })
          (c.updLog 0x0103 l.typ 0 .ok e.newSvn e.newDigest).loaderRestart
        else c.loaderBad l
      | 11, _ =>
        match r.set.find? (fun e => !c.retainedOk e) with
        | some e => (c.updLog 0x3101 e.typ 1 .integrity e.oldSvn e.oldDigest).loaderStop l .integrity
        | none => c.loaderGo l 12
      | 12, _ =>
        match r.lastEnt with
        | some e => (c.entrySet e.typ (fun x => some { x with st := 3 })).loaderGo { l with typ := e.typ } 13
        | none => (c.updLog 0x0105 0 0 .ok 0 []).loaderRestart
      | 13, some e =>
        let c := c.fallBack e flaw
        if c.holdsOld (imgArea e.typ) e then (c.entrySet e.typ (fun _ => none)).loaderGo l 12 else c.loaderBad l
      | _, _ => c.loaderStop l .integrity

/-- What a start completes before the phase that reads an image (R478). -/
def Chip.updResume (c : Chip) (typ : Nat) : Chip :=
  match c.upd.record.set.find? (fun e => e.typ == typ && e.st != 2) with
  | none => c
  | some e =>
    let c :=
      if e.st = 3 then
        let c := (c.fallBack e false).entrySet typ (fun _ => none)
        if c.upd.record.set.isEmpty then c.updLog 0x0105 typ 0 .ok e.oldSvn e.oldDigest else c
      else
        let c := if c.holdsOld (imgRetained typ) e then c else c.norCopy (imgArea typ) (imgRetained typ)
        (c.norCopy (incoming, (imgArea typ).2) (imgArea typ)).updPut (fun r =>
          { r.noSession with set := r.set.map (fun x => if x.typ = typ then { x with st := 2 } else x) })
    let c := c.updLog 0x2102 typ 0 .ok (if e.st = 3 then e.oldSvn else e.newSvn) (if e.st = 3 then e.oldDigest else e.newDigest)
    if typ = 1 then c.warmReset else c

/-! CONFIRM (R480). -/

/-- The current measurement of an image type (Table 12.2). -/
def Chip.imgMeasure (c : Chip) (typ : Nat) : List Byte :=
  match typ with | 1 => c.boot.spn | 2 => c.boot.rov | 3 => c.boot.man | _ => c.boot.amvex

/-- May the set be confirmed? -/
def Chip.confirmBar (c : Chip) : Bool :=
  let r := c.upd.record
  let partnerHas := fun (e : SetEnt) => c.ply.peer.meas.any (fun m => m.idx == e.typ + 1 && m.digest == e.newDigest && m.st == 0)
  c.phase != 0x40 || !(c.pkg == .hx4 || c.role == 3 || c.role == 5) || r.set.any (fun e => e.st != 2 || e.newDigest != c.imgMeasure e.typ) ||
    (c.pkg != .hx4 && r.set.any (fun e => !partnerHas e))

/-- CONFIRM starts its advances, in ascending type. -/
def Chip.confirmStart (c : Chip) (fu : Fuses) (fr : UFrame) : Chip × UAns :=
  if c.confirmBar then (c, { st := .denied })
  else if c.upd.loader.isSome || c.upd.confirm.isSome then (c, { st := .busy })
  else
    let left := (List.range 4).filterMap (fun k => (c.upd.record.set.find? (fun e => e.typ == k + 1)).map (fun e => (imgArb e.typ, e.newSvn)))
    let q : Confirm := { left := left, origin := { who := .port, cmd := 0x17, session := fr.session, index := fr.index } }
    ((c.up (fun u => { u with confirm := some q })).confirmNext fu, { st := .pending, silent := true })

/-- CONFIRM ends: the set emptied, the retained places erased in the background (R480). -/
def Chip.confirmEnd (c : Chip) : Chip :=
  match c.upd.confirm with
  | none => c
  | some q =>
    if !q.ended && c.otp.job.isSome then c
    else
      let st := if q.ended then q.st else Status.busy
      let c := c.up (fun u => { u with confirm := none })
      if st != .ok then c.updOut q.origin st
      else
        let c := (c.updPut (fun r => { r with set := [] })).updLog 0x0104 0 0 .ok 0 []
        let old := [1, 2, 3].flatMap (fun t => c.dirty (imgRetained t).1 (imgRetained t).2)
        (c.up (fun u => { u with erase := u.erase ++ old })).updOut q.origin .ok

/-! Recovery (R481, R482). -/

/-- Change what ROM stages. -/
def Chip.rc (c : Chip) (f : Rcv → Rcv) : Chip := c.up (fun u => { u with rcv := f u.rcv })

/-- BEGIN in recovery. -/
def Chip.rcvBegin (c : Chip) (fr : UFrame) : Chip × UAns :=
  let p := fr.payload
  let v := c.upd.rcv
  let total := numAt p 4 4
  let id := slice p 8 48
  let st := firstStatus [(numAt p 0 1 != 1 || v.written, .denied), (p.length != 56 || decide (total < 8192) || decide (0x40000 < total), .badArg)]
  let fresh := fun (c : Chip) =>
    ((c.rc (fun v => { session := v.last + 1, last := v.last + 1, total := total, imageId := id })).updLog 0x0101 1 0 .ok 0 id,
      ({ st := .ok, session := some (v.last + 1) } : UAns))
  if st != .ok then (c, { st := st })
  else if v.session = 0 then fresh c
  else if v.total = total && v.imageId = id then (c.updLog 0x0101 1 0 .ok 0 id, { st := .ok, session := some v.session })
  else if bit (numAt p 1 1) 0 then fresh c
  else (c.updLog 0x1102 1 0 .busy 0 id, { st := .busy })

/-- PIECE in recovery: checked before it is stored. -/
def Chip.rcvPiece (c : Chip) (fr : UFrame) : Chip × UAns :=
  let v := c.upd.rcv
  let n := (v.total + 4095) / 4096
  let d := fr.payload.take 48
  let x := fr.payload.drop 48
  if v.written then (c, { st := .denied })
  else if v.session = 0 || fr.session != v.session || decide (n ≤ fr.index) || x.length != pieceLen v.total n fr.index then (c, { st := .badArg })
  else
    match tget? v.parts fr.index with
    | some old => (c, { st := if old = d then .ok else .integrity })
    | none =>
      if Config.sha384 x = d then ((c.spnWr (4096 * fr.index) x).rc (fun v => { v with parts := tput v.parts fr.index d }), { st := .ok })
      else (c.updLog 0x1101 1 0 .integrity fr.index d, { st := .integrity })

/-- QUERY in recovery. -/
def Chip.rcvQuery (c : Chip) : List Byte :=
  let v := c.upd.rcv
  let live := v.session != 0
  pack [(1, if v.checked then 2 else b2n live), (1, b2n live), (1, b2n live), (1, 0), (4, v.session), (2, (v.total + 4095) / 4096),
    (2, v.parts.length), (4, 0)] ++ slice c.updQueryBody 16 32 ++ le 256 (maskOf (v.parts.map (·.1)))

/-- The copy in Spindle SRAM. -/
def Chip.rcvImage (c : Chip) : List Byte × List Byte :=
  let h := c.spnRd 0 8192
  (h, c.spnRd 8192 (min (numAt h 16 4) (0x40000 - 8192)))

/-- CHECK in recovery starts. -/
def Chip.rcvCheck (c : Chip) (fr : UFrame) : Chip × UAns :=
  let v := c.upd.rcv
  let st := firstStatus [(v.written, .denied), (v.session = 0 || fr.session != v.session, .badArg),
    (decide (v.parts.length < (v.total + 4095) / 4096) || c.upd.check.isSome, .busy)]
  if st = .ok then
    (c.up (fun u => { u with check := some { who := .port, cmd := 0x13, session := fr.session, index := fr.index } }), { st := .pending, silent := true })
  else (c, { st := st })

/-- CHECK in recovery ends (R481). -/
def Chip.rcvCheckEnd (c : Chip) (o : UpdFrom) : Chip :=
  let v := c.upd.rcv
  let c := c.up (fun u => { u with check := none })
  if v.session != o.session then c.updOut o .badArg
  else
    let img := c.rcvImage
    let k := c.stageCheck 1 v.total v.imageId img
    if k.2 = .ok then ((c.rc (fun v => { v with checked := true })).updLog 0x0102 1 0 .ok (numAt img.1 8 4) (slice img.1 32 48)).updOut o .ok
    else
      let c := if k.1 = 3 then c.rc (fun v => { v with parts := v.parts.filter (fun e =>
            e.2 == Config.sha384 (c.spnRd (4096 * e.1) (pieceLen v.total ((v.total + 4095) / 4096) e.1))) })
        else c.rc (fun v => { last := v.last })
      (c.updLog 0x2101 1 k.1 k.2 (numAt img.1 8 4) (slice img.1 32 48)).updOut o k.2

/-- ACTIVATE in recovery writes the Spindle area (R481). -/
def Chip.rcvActivate (c : Chip) (flaw : Bool) : Chip × UAns :=
  let v := c.upd.rcv
  if v.written || !v.checked then (c, { st := .denied })
  else
    let a := imgArea 1
    let c := (c.norErase a.1 (a.1 + a.2)).norWr a.1 (c.spnRd 0 v.total)
    if flaw then ((c.norTorn a.1 4096).updLog 0x2103 1 4 .integrity 0 [], { st := .integrity })
    else
      let img := c.rcvImage
      let r : EvRec := c.evRec 0x0106 uROM (c.aImg 1 0 .ok (numAt img.1 8 4) (slice img.1 32 48))
      (({ c with logs := c.logs.aonPush r }).rc (fun v => { v with written := true }), { st := .ok })

/-- RESTORE (R482). -/
def Chip.rcvRestore (c : Chip) (flaw : Bool) : Chip × UAns :=
  if c.upd.rcv.written then (c, { st := .denied })
  else
    match c.upd.record.set.find? (fun e => e.typ == 1) with
    | none => (c, { st := .badArg })
    | some e =>
      if e.oldDigest.all (· == 0#8) || !c.retainedOk e then (c.updLog 0x3101 1 1 .integrity e.oldSvn e.oldDigest, { st := .integrity })
      else
        let c := c.fallBack e flaw
        if c.holdsOld (imgArea 1) e then ((c.entrySet 1 (fun _ => none)).updLog 0x0105 1 0 .ok e.oldSvn e.oldDigest, { st := .ok })
        else (c.updLog 0x2103 1 2 .integrity 0 [], { st := .integrity })

end Sys2Proof.Machine
end

