-- ==== Sys2Proof/Machine/SnapOps.lean ====
section
/-!
DEFINITION. The measurement snapshot and the report payload (R324 to R335): measurement entries, the maps of Table 12.4, the encoding of
a generation, its reduction to a scope.
-/

namespace Sys2Proof.Machine

/-! Measurements (Table 12.2). -/

/-- An entry's encoding (R327). -/
def Meas.enc (m : Meas) : List Byte :=
  cMapU ([(1, cUint m.idx), (2, cUint m.typ), (3, cBytes m.digest)] ++ (match m.svn with | some v => [(4, cUint v)] | none => []) ++ [(5, cUint m.st)])

/-- The index of a pending image of a type, and its value type. -/
def pendIdx (typ : Nat) : Nat × Nat := (79 + typ, if typ = 4 then 3 else 1)

/-- The value of a die's entry, from its MEASURED as last accepted. -/
def Chip.dieDigest (c : Chip) (n : Nat) : List Byte × Nat :=
  let p := (c.cardDie n).meas
  let p := if p.isEmpty then Config.farMeasured n else p
  (Config.sha3_384 (slice p 2 2 ++ slice p 16 48 ++ slice p 64 48 ++ slice p 112 2 ++ slice p 114 2), numAt p 114 2)

/-- Does some hank hold a die? -/
def Chip.held (c : Chip) (n : Nat) : Bool := c.hanks.tab.any (fun e => bit e.2.dies n)

/-- Stale dies: held by a hank and not released (R333, R334). -/
def Chip.staleDies (c : Chip) : List Nat := (List.range 64).filter (fun n => c.held n && !c.carded n)

/-- Entries of the dies. -/
def Chip.dieMeas (c : Chip) : List Meas :=
  (List.range 64).filterMap (fun n =>
    let d := c.dieDigest n
    if c.carded n then some { idx := 16 + n, typ := 1, digest := d.1, svn := some d.2 }
    else if c.held n then some { idx := 16 + n, typ := 1, digest := d.1, svn := some d.2, st := 2 }
    else none)

/-- Entries of images activated at either instance and not confirmed at both (R333). -/
def Chip.pendMeas (c : Chip) : List Meas :=
  (List.range 4).filterMap (fun k =>
    match c.upd.record.set.find? (fun e => e.typ == k + 1) with
    | some e => some { idx := 80 + k, typ := (pendIdx (k + 1)).2, digest := e.newDigest, svn := some e.newSvn, st := 1 }
    | none => c.ply.peer.pend.find? (fun m => m.idx == 80 + k))

/-! The maps of Table 12.4. -/

/-- `lifecycle`. -/
def Chip.lifeMap (c : Chip) : List Byte :=
  cMapU [(1, cUint c.lcState), (2, cBool (c.get F.LCS_STATE_QUENCHED == 1)), (3, cUint (c.get F.LCS_STATE_RECORDS)),
    (4, cUint (c.get F.LCS_STATE_RESUMED)), (5, cArr ((List.range 4).map (fun k => cUint (c.geti F.OTP_ARBn_VALUE k)))),
    (6, cUint (c.rd R.OTP_REGION).toNat), (7, cUint (c.rd R.OTP_SENSE_SUM).toNat), (8, cUint (c.get F.OTP_STATUS_INTEG_FAIL)),
    (9, cUint (c.get F.OTP_STATUS_REPAIRED))]

/-- Is some JTAG instruction beyond the three of every state available (R486, Table 18.1)? -/
def Chip.jtagExt (c : Chip) : Bool :=
  c.lcState == 0 || c.lcState == 1 || c.lcState == 2 || c.lcState == 3 || c.lcState == 6 ||
    ((c.lcState == 4 || c.lcState == 5) && c.get F.DBG_CTRL_BREAK_ROV == 1)

/-- The consents in force by hank: hank, kinds, owners. -/
def Chip.consentList (c : Chip) : List (Nat × Nat × Nat) :=
  (c.hanks.tab.filter (fun e => !e.2.consents.isEmpty)).map (fun (e : Nat × Hank) =>
    (e.1, maskOf (e.2.consents.map (·.kind)), e.2.consents.foldl (fun m q => Nat.lor m q.owners) 0))

/-- `debug`. -/
def debugMap (d : Nat × Nat × Nat) (qs : List (Nat × Nat × Nat)) : List Byte :=
  cMapU [(1, cUint d.1), (2, cBool (d.2.1 == 1)), (3, cUint d.2.2), (4, cArr (qs.map (fun q => cArr [cUint q.1, cUint q.2.1, cUint q.2.2])))]

/-- A hank's entry of `layout` in full. -/
def Chip.layoutEnt (c : Chip) (h : Nat) (k : Hank) : List Byte :=
  let hosts := c.cust.bobs.filter (fun e => e.2.cls == clsHOST && e.2.hank == h)
  cMapU [(1, cUint h), (2, cUint k.ceremony), (3, cUint k.owners.length), (4, cUint k.dies), (5, cUint k.strands.length), (6, cUint k.active),
    (7, cArr (k.ranges.map (fun r => cArr [cUint (r.flags % 2), cUint r.base, cUint r.len, cUint r.tier, cUint r.bob]))),
    (8, cArr (k.lanes.map (fun l => cArr [cUint l.lane, cUint l.bob, cBool (bit l.flags 0)]))),
    (9, cArr (hosts.map (fun (e : Nat × Bob) => cArr [cUint e.2.sub, cUint e.1]))), (10, cBool (k.st == 4)), (11, cBool (bit k.flags 0))]

/-- `ply`. -/
def Chip.plyMap (c : Chip) : List Byte :=
  let role := if c.pkg = .hx4 then 2 else if c.leads then 0 else 1
  cMapU [(1, cUint role), (2, cUint (c.get F.PLY_STATUS_PARTNER)), (3, cUint (if c.get F.PLY_STATUS_LEASE = 1 then (c.rd R.PLY_EXPIRY).toNat else 0)),
    (4, cArr (c.ply.peer.meas.map Meas.enc)), (5, cUint (c.get64 R.PLY_PROMO_LO))]

/-- `tamper`: the totals of R457. -/
def Chip.tamperMap (c : Chip) : List Byte :=
  cMapU [(1, cUint (c.total 0 (c.get F.SNG_SINCE_A))), (2, cUint (c.total 1 (c.get F.SNG_SINCE_B))), (3, cUint (c.total 2 (c.get F.SNG_SINCE_C))),
    (4, cUint c.sng.bcTime)]

/-- `identity`. -/
def Chip.identMap (c : Chip) : List Byte :=
  let a := c.boot.alias_.getD ([], [])
  cMapU [(1, cUint (c.rd R.GEN_ID).toNat), (2, cUint (c.get F.GEN_ID_SIDE)), (3, cBytes (c.otp.bytes 0 2)),
    (4, cBytes (Config.sha3_384 ((Config.storeCert (c.norRd 0 0x10000) 6).getD []))), (5, cBytes c.boot.dev.1), (6, cBytes c.boot.dev.2),
    (7, cBytes (Config.sha3_384 (spkiEc (Config.ecPubFull a.1)))), (8, cBytes (Config.sha3_384 (spkiMldsa (Config.mldsaPub 65 a.2))))]

/-- `config`. -/
def Chip.configMap (c : Chip) : List Byte :=
  cMapU [(1, cBytes c.boot.amvex), (2, cBytes c.boot.cfg), (3, cBytes (Config.sha3_384 c.boot.clamp)), (4, cUint (c.get F.GEN_CLAMP_ENTRIES))]

/-- A stale instance shows no layout and no chain (R335). -/
def Chip.staleHere (c : Chip) : Bool := c.pkg != .hx4 && (c.role == 1 || c.role == 2)

/-- Reason and stale dies of the condition of R333, none without one. -/
def Chip.transNow (c : Chip) : Option (Nat × Nat × Nat) :=
  let stale := c.staleDies
  let r := b2n (!c.pendMeas.isEmpty) + 2 * b2n (!stale.isEmpty) + 4 * b2n (c.staleHere || (c.pkg != .hx4 && c.get F.PLY_STATUS_PARTNER == 2))
  if r = 0 then none else some (r, maskOf stale, 0)

/-- The measured state as it is now, without its generation (R324). -/
def Chip.snapNow (c : Chip) : Snap :=
  let hanks := if c.staleHere then [] else c.hanks.tab
  let lay := hanks.map (fun (e : Nat × Hank) => (e.1, e.2.dies, c.layoutEnt e.1 e.2))
  let tw := hanks.map (fun (e : Nat × Hank) =>
    let m := (c.tw e.1).mark
    (e.1, cArr [cUint e.1, cUint m.1, cUint m.2.1, cBytes m.2.2.1, cUint m.2.2.2], m.2.2.1))
  let dbg := (b2n c.jtagExt, c.get F.DBG_CTRL_BREAK_ROV, c.get F.DBG_STATUS_TRACE_GRANTED)
  let life := c.lifeMap
  let img := fun (i t : Nat) (d : List Byte) (v : Option Nat) => ({ idx := i, typ := t, digest := d, svn := v } : Meas)
  { meas := [img 1 0 c.boot.rom none, img 2 1 c.boot.spn (some c.boot.spnSvn), img 3 1 c.boot.rov (some c.boot.rovSvn),
      img 4 1 c.boot.man (some c.boot.manSvn), img 5 3 c.boot.amvex (some c.boot.amvexSvn), img 6 3 c.boot.cfg none,
      img 7 3 (Config.sha3_384 c.boot.clamp) none, img 8 2 (Config.sha3_384 life) none, img 9 5 (Config.sha3_384 (debugMap dbg c.consentList)) none,
      img 10 2 (Config.sha3_384 (cArr (lay.map (fun (e : Nat × Nat × List Byte) => e.2.2)))) none, img 11 2 (Config.sha3_384 c.plyMap) none,
      img 12 2 (Config.sha3_384 c.tamperMap) none] ++ c.dieMeas ++ c.pendMeas ++ tw.map (fun (e : Nat × List Byte × List Byte) => img (96 + e.1) 8 e.2.2 none)
    ident := c.identMap, life := life, debug := dbg, consents := c.consentList, layout := lay, ply := c.plyMap, tamper := c.tamperMap,
    config := c.configMap, twist := tw.map (fun (e : Nat × List Byte × List Byte) => (e.1, e.2.1)), trans := c.transNow }

/-! The payload (Table 12.3). -/

/-- The elements of keys 4 to 14, reduced to a scope (R330): 255 full, else one hank. -/
def Snap.elems (s : Snap) (scope : Nat) : List (Nat × List Byte) :=
  let full := scope == 255
  [(4, cUint s.gen), (5, cUint s.time), (6, s.ident), (7, cArr (s.meas.map Meas.enc)), (8, s.life),
    (9, debugMap s.debug (s.consents.filter (fun q => full || q.1 == scope))),
    (10, cArr (s.layout.map (fun e => if full || e.1 = scope then e.2.2 else cMapU [(1, cUint e.1), (4, cUint e.2.1)]))), (11, s.ply), (12, s.tamper),
    (13, s.config), (14, cArr ((s.twist.filter (fun e => full || e.1 == scope)).map (·.2)))]

/-- The snapshot's encoding (R324). -/
def Snap.bytes (s : Snap) : List Byte := cMapU (s.elems 255)

/-- A report payload over a snapshot. -/
def Snap.payload (s : Snap) (nonce : List Byte) (scope : Nat) : List Byte :=
  cMapU ([(1, cUint 1), (2, cBytes nonce), (3, cUint scope)] ++ s.elems scope ++
    (match s.trans with
     | some t => [(15, cMapU [(1, cUint t.1), (2, cUint t.2.1), (3, cUint t.2.2)])]
     | none => []))

/-- The Spindle's part of attestation changed. -/
def Chip.sp (c : Chip) (f : Spdm → Spdm) : Chip := { c with spdm := f c.spdm }

/-- Does Spindle keep the snapshot: Roving runs, and the instance has an identity? -/
def Chip.snapLive (c : Chip) : Bool := c.svcUp && decide (0x23 ≤ c.phase) && decide (c.phase ≤ 0x40)

/-- The snapshot kept current (R324): a change of any measured value forms the next generation. -/
def Chip.snapKeep (c : Chip) : Chip :=
  if !c.snapLive then c
  else
    let s := c.snapNow
    match c.spdm.snap with
    | none => c.sp (fun u => { u with snap := some { s with gen := 1, time := c.time, trans := s.trans.map (fun (t : Nat × Nat × Nat) => (t.1, t.2.1, c.time)) } })
    | some o =>
      let began := match o.trans with | some t => t.2.2 | none => c.time
      let s := { s with trans := s.trans.map (fun (t : Nat × Nat × Nat) => (t.1, t.2.1, began)) }
      if { s with gen := o.gen, time := o.time } = o then c
      else c.sp (fun u => { u with prev := some o, snap := some { s with gen := o.gen + 1, time := c.time } })

/-- Would an object keep the snapshot within its size (R325)? -/
def Chip.snapFits (c : Chip) (b : List Byte) : Bool :=
  let h := obHank b
  let c := match obKind b with
    | 1 => c.ha (fun u => { u with tab := tput u.tab h (c.hankOf b [] 0) })
    | 0x10 =>
      let q : Consent := { kind := numAt b 64 1, seq := 0, first := 0, last := 0, endSlot := 0, count := 0, params := [], owners := 0xFFFF }
      c.hankMod h (fun k => { k with consents := k.consents ++ [q] })
    | 0x12 => c.hankMod h (fun k => { k with ranges := k.ranges ++ (ssRanges b).map rangeOf })
    | _ => c
  decide (c.snapNow.bytes.length + 64 ≤ 196608)

/-- The snapshot of a named generation: the current or the one before. -/
def Chip.snapOf (c : Chip) (gen : Nat) : Option Snap := [c.spdm.snap, c.spdm.prev].findSome? (fun s => s.filter (fun s => s.gen == gen))

end Sys2Proof.Machine
end

