-- ==== Sys2Proof/Machine/AttestOps.lean ====
section
/-!
DEFINITION. SPDM and the signature queue (R321 to R347): messages and their layouts (DSP0274, assumption 97), chains, sessions, the class-1 queue,
reports, vendor-defined messages.
-/

namespace Sys2Proof.Machine

/-! Connections and sessions. -/

def Chip.conn (c : Chip) (k : Nat) : Conn := tget c.spdm.conns k {}
def Chip.connMod (c : Chip) (k : Nat) (f : Conn → Conn) : Chip := c.sp (fun u => { u with conns := tmod u.conns k {} f })
def Chip.sess? (c : Chip) (id : Nat) : Option Sess := tget? c.spdm.sess id
def Chip.sessMod (c : Chip) (id : Nat) (f : Sess → Sess) : Chip :=
  match c.sess? id with
  | some s => c.sp (fun u => { u with sess := tput u.sess id (f s) })
  | none => c

/-- The connection of a session known only from the mirror. -/
def connMirror : Nat := 0x10000

/-- Sessions this instance holds of itself (R339): those mirrored from the partner do not count (assumption 98). -/
def Chip.ownSess (c : Chip) : List (Nat × Sess) := c.spdm.sess.filter (fun e => e.2.conn != connMirror)

/-- A session is gone, with its HOST Bobbins (R254, R339). -/
def Chip.sessEnd (c : Chip) (id code : Nat) : Chip :=
  match c.sess? id with
  | none => c
  | some _ =>
    let c := c.sp (fun u => { u with sess := tdel u.sess id, chan := u.chan.filter (fun e => e.2 != id) })
    let c := c.ha (fun u => { u with parts := u.parts.filter (fun a => a.session != id) })
    (c.log code uSPN (aObj 0 0 0 0 id [])).hostEnd id

/-! Messages. -/

/-- An SPDM message leaves on a connection, by the mailbox it belongs to where it has one. -/
def Chip.spdmSend (c : Chip) (conn : Nat) (sess : Option Nat) (body : List Byte) : Chip := (c.send (.spdm conn sess body)).hostReply conn body

/-- A message leaves. -/
def Chip.spdmOut (c : Chip) (m : SpdmMsg) (body : List Byte) : Chip := c.spdmSend m.conn m.sess body

/-- An ERROR response. -/
def spdmErrMsg (code data : Nat) : List Byte := pack [(1, 0x13), (1, 0x7F), (1, code), (1, data)]

/-- Event 0x1C01, once per requester in 1,024 slots (R344). -/
def Chip.errLog (c : Chip) (m : SpdmMsg) (code : Nat) : Chip :=
  c.logOnce 0x1C01 m.conn uSPN (aCount (m.conn / 256 % 256 + 256 * numAt m.msg 1 1 + 65536 * code + 2 ^ 24 * (m.conn % 256)) 0 0 0)

/-- A request refused with an SPDM error. -/
def Chip.spdmErr (c : Chip) (m : SpdmMsg) (code : Nat) : Chip := (c.errLog m code).spdmOut m (spdmErrMsg code 0)

/-- A full signature queue (R347): counted, event 0x1C03. -/
def Chip.queueFull (c : Chip) : Chip := (c.logOnce 0x1C03 0 uSPN (aCount c.spdm.queue.length 0 0 0)).count 39 1

/-- The SPDM request codes served (Table 12.7). -/
def spdmCodes : List Nat := [0x81, 0x82, 0x83, 0x84, 0xE0, 0xE1, 0xE3, 0xE4, 0xE5, 0xE8, 0xE9, 0xEC, 0xFE]

/-- Requests served only outside a session, and only inside one (DSP0274). -/
def outsideOnly : List Nat := [0x83, 0x84, 0xE1, 0xE3, 0xE4]
def insideOnly : List Nat := [0xE5, 0xE8, 0xE9, 0xEC]

/-- Is the request a vendor-defined one with Iryoter's header (R341)? -/
def vendorOk (b : List Byte) : Bool :=
  decide (17 ≤ b.length) && numAt b 4 2 == 4 && numAt b 6 1 == 4 && numAt b 7 4 == 0xE7A1 && decide (numAt b 11 2 + 13 ≤ b.length) && decide (4 ≤ numAt b 11 2)
/-- Opcode and body of a vendor-defined request. -/
def vendorOp (b : List Byte) : Nat := numAt b 13 2
def vendorBody (b : List Byte) : List Byte := slice b 17 (numAt b 11 2 - 4)

/-- Does an error other than a malformed body meet the request: version, sequence, session (R336, R338, R344, R345)? -/
def Chip.spdmBad (c : Chip) (m : SpdmMsg) : Option Nat :=
  let code := numAt m.msg 1 1
  let s := match m.sess with | some i => c.sess? i | none => none
  let stage := (c.conn m.conn).stage
  let hyb := code == 0xFE && vendorOk m.msg && vendorOp m.msg == 0x10
  if m.sess.isSome && (match s with | some s => s.conn != m.conn | none => true) then some 0x02
  else if numAt m.msg 0 1 != (if code = 0x84 then 0x10 else 0x13) then some 0x41
  else if !spdmCodes.contains code then some 0x07
  else if c.get F.GEN_BOOT_NO_ID = 1 && !([0x84, 0xE1, 0xE3].contains code) then some 0x07
  else if (outsideOnly.contains code && m.sess.isSome) || (insideOnly.contains code && m.sess.isNone) then some 0x04
  else if (code = 0xE1 && stage != 1) || (code = 0xE3 && stage != 2) || (!([0x84, 0xE1, 0xE3].contains code) && stage != 3) then some 0x04
  else
    match s with
    | some s =>
      if s.est != (code != 0xE5) then some 0x04
      else if s.hybrid && s.need.isSome && !hyb && code != 0xE5 && code != 0xE8 && code != 0xEC then some 0x04
      else none
    | none => none

/-- Does the instance answer attestation requests: SERVING, or without an identity (R335)? -/
def Chip.answers (c : Chip) : Bool := c.svcUp && (c.phase == 0x40 || (c.phase == 0x22 && c.get F.GEN_BOOT_NO_ID == 1))

/-- A request reaches Roving: a row's own requests (`mine`) are served by `f` where nothing refuses them before; `keep` leaves the
signature HYBRID_SIG may name (R345), `l1` the measurement transcript. -/
def Chip.spdmServe (c : Chip) (m : SpdmMsg) (mine : Nat → Bool) (keep l1 : Bool) (f : Chip → Chip) : Chip :=
  if !c.answers || !mine (numAt m.msg 1 1) then c
  else
    let c := c.count 38 1
    if !m.good then
      match m.sess with
      | some i => (c.sessEnd i 0x2C01).spdmOut { m with sess := none } (spdmErrMsg 0x06 0)
      | none => c
    else
      let bad := c.spdmBad m
      let c := match m.sess with | some i => c.sessMod i (fun s => { s with last := c.slot }) | none => c
      let c := if keep then c else c.connMod m.conn (fun u => { u with last := none })
      let c := if l1 then c else c.connMod m.conn (fun u => { u with l1 := tdel u.l1 (m.sess.getD 0) })
      match bad with
      | some e => c.spdmErr m e
      | none => f c

/-! Chains (R321, R322). -/

/-- The certificates of a chain: 0 the ML-DSA chain, 1 and 2 the package certificates, 4 the chain of slot 0; none when the store does not give
one of them. -/
def Chip.chainCerts (c : Chip) (k : Nat) : Option (List (List Byte)) :=
  let store := c.norRd 0 65536
  let at_ := fun i => Config.storeCert store i
  let three := fun a b d (own : List Byte) => match at_ a, at_ b, at_ d with
    | some x, some y, some z => some [x, y, z, own]
    | _, _, _ => none
  if c.spdm.badChain.contains k then none
  else if k = 0 then three 3 4 5 (c.boot.certs.getD 1 [])
  else if k = 1 then (at_ 6).map (fun x => [x])
  else if k = 2 then (at_ 7).map (fun x => [x])
  else three 0 1 2 (c.boot.certs.getD 0 [])

/-- A chain is needed; an unreadable one is noted, with event 0x2C02 (R322). -/
def Chip.chain (c : Chip) (k : Nat) : Chip × Option (List (List Byte)) :=
  match c.chainCerts k with
  | some l => (c, some l)
  | none =>
    if c.spdm.badChain.contains k then (c, none)
    else ((c.sp (fun u => { u with badChain := u.badChain ++ [k] })).log 0x2C02 uSPN (aCount k 0 0 0), none)

/-- The SPDM form of the slot 0 chain: length, root hash, certificates. -/
def spdmChain (l : List (List Byte)) : List Byte :=
  let body := Config.sha384 (l.headD []) ++ l.flatten
  pack [(2, body.length + 4), (2, 0)] ++ body

/-- Serve a request that needs the slot 0 chain. -/
def Chip.withChain (c : Chip) (m : SpdmMsg) (f : Chip → List Byte → Chip) : Chip :=
  let p := c.chain 4
  match p.2 with
  | some l => f p.1 (spdmChain l)
  | none => p.1.spdmErr m 0x05

/-! Measurement blocks (R326). -/

/-- A measurement block of DSP0274. -/
def Meas.block (m : Meas) : List Byte :=
  pack [(1, m.idx), (1, 1), (2, 51), (1, m.typ), (2, 48)] ++ padTo 48 m.digest

/-- The entries of the current snapshot. -/
def Chip.measNow (c : Chip) : List Meas := match c.spdm.snap with | some s => s.meas | none => []

/-- The summary hash of a type: none, TCB, all. -/
def Chip.measSummary (c : Chip) (typ : Nat) : List Byte :=
  if typ = 1 then Config.sha384 ((c.measNow.filter (fun m => decide (m.idx ≤ 4) || (decide (16 ≤ m.idx) && decide (m.idx ≤ 79)))).map Meas.block).flatten
  else if typ = 0xFF then Config.sha384 (c.measNow.map Meas.block).flatten
  else []

/-! Signing (R331, R345, R347). -/

/-- The message that SPDM 1.3 signs: the combined prefix and the transcript's hash. -/
def spdmM (ctx : String) (transcript : List Byte) : List Byte :=
  (List.replicate 4 (ascii "dmtf-spdm-v1.3.*")).flatten ++ List.replicate (36 - ctx.length) 0#8 ++ ascii ctx ++ Config.sha384 transcript

/-- The context of a kind: 1 CHALLENGE_AUTH, 2 MEASUREMENTS, 3 KEY_EXCHANGE_RSP. -/
def spdmCtx (kind : Nat) : String :=
  if kind = 1 then "responder-challenge_auth signing" else if kind = 2 then "responder-measurements signing" else "responder-key_exchange_rsp signing"

/-- The Alias keys' signatures over a message. -/
def Chip.aliasEc (c : Chip) (msg : List Byte) : Chip × List Byte :=
  let d := c.rnd 56
  (d.2, padTo 96 (Config.ecdsaSign (d.2.boot.alias_.getD ([], [])).1 (Config.sha384 msg) d.1))
def Chip.aliasMl (c : Chip) (msg : List Byte) : Chip × List Byte :=
  let d := c.rnd 32
  (d.2, padTo 3309 (Config.mldsaSign 65 (d.2.boot.alias_.getD ([], [])).2 msg d.1))

/-- Entries of the signature queue, receipts being signed included (R347), for a hank (255: none). -/
def Chip.sigUsed (c : Chip) (h : Nat) : Nat :=
  (c.spdm.queue.filter (fun e => e.2.1 == h)).length + (if h < 16 then ((c.tw h).steps.filter (fun s => s.st == 3)).length else 0)

/-- Has the queue room for an entry of a hank: 64 places a lane, four kept for each other quiet hank (R347, R414)? -/
def Chip.sigRoom (c : Chip) (h : Nat) : Bool :=
  let q := c.quietHanks
  let used := ((List.range 16 ++ [255]).map (fun g => if q.contains g then max 4 (c.sigUsed g) else c.sigUsed g)).sum
  (q.contains h && decide (c.sigUsed h < 4)) || decide (used + 1 ≤ min 256 (64 * (c.laneFree 1).length))

/-- An entry joins the queue. -/
def Chip.sigPut (c : Chip) (h : Nat) (w : SignWork) : Chip := c.sp (fun u => { u with queue := u.queue ++ [(c.slot, h, w)] })

/-- A response that waits for its ECDSA signature, or ERROR Busy. -/
def Chip.signLater (c : Chip) (m : SpdmMsg) (kind : Nat) (body transcript : List Byte) : Chip :=
  if c.sigRoom 255 then c.sigPut 255 (.response m.conn m.sess kind body (spdmM (spdmCtx kind) transcript))
  else c.queueFull.spdmOut m (spdmErrMsg 0x03 0)

/-- A vendor-defined response (R341). -/
def vendorMsg (op : Nat) (st : Status) (body : List Byte) : List Byte :=
  pack [(1, 0x13), (1, 0x7E), (2, 0), (2, 4), (1, 4), (4, 0xE7A1), (2, body.length + 4), (2, op), (1, 0), (1, st.code)] ++ body
def Chip.vout (c : Chip) (m : SpdmMsg) (op : Nat) (st : Status) (body : List Byte) : Chip := c.spdmOut m (vendorMsg op st body)

/-- An answer to a requester that concerns a hank: held back for a quiet one (R413). -/
def Chip.quietOut (c : Chip) (conn : Nat) (sess : Option Nat) (h arrive period : Nat) (body : List Byte) : Chip :=
  if c.quietHanks.contains h then { c with late := c.late ++ [{ arrive := arrive, period := period, ready := c.slot, eff := .spdm conn sess body, hank := h }] }
  else c.spdmSend conn sess body

/-- A KEY_EXCHANGE_RSP with its signature gets the responder's HMAC; both enter the transcript. -/
def Chip.kexDone (c : Chip) (conn id : Nat) (sent sig msg : List Byte) : Chip :=
  match c.sess? id with
  | none => c
  | some s =>
    let th := s.th ++ sig
    let mac := padTo 48 (Config.spdmMac s.shared th 1)
    (c.sessMod id (fun s => { s with th := th ++ mac, need := if s.hybrid then some msg else none })).spdmSend conn none (sent ++ sig ++ mac)

/-- The signature of a queue entry other than a report is complete. -/
def Chip.sigDone (c : Chip) (w : SignWork) : Chip :=
  match w with
  | .call ticket alg msg =>
    let r := if alg = 0 then c.aliasEc msg else c.aliasMl msg
    r.1.finishCall ticket .ok r.2
  | .response conn sess kind body msg =>
    let r := c.aliasEc msg
    if kind = 3 then (match sess with | some id => r.1.kexDone conn id body r.2 msg | none => r.1)
    else (r.1.connMod conn (fun u => { u with last := some (kind, msg) })).spdmSend conn sess (body ++ r.2)
  | .hybrid conn sess msg =>
    let r := c.aliasMl msg
    let c := match sess with
      | some id => r.1.sessMod id (fun s => { s with need := if s.need = some msg then none else s.need })
      | none => r.1
    c.spdmSend conn sess (vendorMsg 0x10 .ok r.2)
  | _ => c

/-- Signatures of entries other than reports complete after 250 µs (R347; assumption 99). -/
def SignWork.isReport (w : SignWork) : Bool := match w with | .report .. => true | .fetch .. => true | _ => false
def Chip.sigsDue (c : Chip) : Chip :=
  let due := c.spdm.queue.filter (fun e => !e.2.2.isReport && decide (e.1 + 244 ≤ c.slot))
  (c.sp (fun u => { u with queue := u.queue.filter (fun e => e.2.2.isReport || decide (c.slot < e.1 + 244)) })).each (due.map (·.2.2)) Chip.sigDone

/-! Reports (R332, R343). -/

/-- The first key whose element an input does not carry as Spindle encodes it, none when the input is right. -/
def payloadBad (input head : List Byte) (elems : List (Nat × List Byte)) : Option Nat :=
  if input.take head.length != head then some 1
  else
    let step := fun (acc : Nat × Option Nat) (e : Nat × List Byte) =>
      let b := cUint e.1 ++ e.2
      (acc.1 + b.length, if acc.2.isNone && slice input acc.1 b.length != b then some e.1 else acc.2)
    let r := elems.foldl step (head.length, none)
    match r.2 with
    | some k => some k
    | none => if input.length = r.1 then none else some 15

/-- A report's generation and its COSE_Sign are known: event 0x0C03, one more report. -/
def Chip.reportLog (c : Chip) (gen scope : Nat) : Chip := (c.log 0x0C03 uSPN (aCount gen 0 0 scope)).count 37 1

/-- The longest portion of a report (R341, R343). -/
def reportPart : Nat := 14992

/-- The response of GET_REPORT: identifier, total length, portion. -/
def reportMsg (id off : Nat) (bytes : List Byte) : List Byte :=
  vendorMsg 0x30 .ok (pack [(4, id), (4, bytes.length)] ++ (bytes.drop off).take reportPart)

/-- A report queued as entry `k` is signed with both keys. -/
def Chip.reportDone (c : Chip) (k : Nat) : Chip :=
  match c.spdm.queue[k]? with
  | none => c
  | some e =>
    let drop := fun (c : Chip) => c.sp (fun u => { u with queue := u.queue.eraseIdx k })
    match e.2.2 with
    | .report ticket gen payload t =>
      if (tget? c.cores.pend ticket).isNone then drop c
      else
        let d := (drop c).coseSigned payload t
        (d.2.finishCall ticket .ok d.1).reportLog gen e.2.1
    | .fetch conn sess gen payload t off =>
      let d := (drop c).coseSigned payload t
      let bytes := d.1
      let id := d.2.spdm.lastReport % (2 ^ 32 - 1) + 1
      let c := d.2.sp (fun u => { u with lastReport := id, reports := newest 64 (u.reports ++ [(id, d.2.slot, bytes)]) })
      (c.reportLog gen e.2.1).quietOut conn sess e.2.1 e.1 16000 (reportMsg id off bytes)
    | _ => c

end Sys2Proof.Machine
end

