-- ==== Sys2Proof/Machine/Settle.lean ====
section
/-!
DEFINITION. What follows of itself after a command (R174, R180, R195, R214, R338, R423): held effects whose waits are over, the journal
writer's next page, completions, acknowledgements owed, machines whose conditions have come true. The units of an instance run side by
side; the model lets them run until nothing more follows, within the command that set them going (assumption 76).
-/

namespace Sys2Proof.Machine

/-- The push of a new ring key to a die released after the others had theirs (R224). -/
def Chip.ringPush (c : Chip) (n : Nat) : Chip :=
  match c.whl.newRing with
  | some k =>
    if (List.range 16).any (fun e => (c.lst e == 1 || c.lst e == 2) && c.geti F.WHL_Ln_CFG_RING e == 1 && decide (c.slot + 16 < c.lslot e)) then
      let p := c.pushBody n ringKeyBob k.1 .ok 4 0 0 (some k.2)
      p.1.hold (.ring 0x03 n p.2) (if p.1.waitsPartner then p.1.ply.mseq else 0) 0
    else c
  | none => c

/-- The commit of a command's records takes effect (R180): Bobbins become READY, and one wait of the command is over. -/
def Chip.commitDone (c : Chip) (id : Nat) (ready : List Nat) : Chip :=
  let c := c.each ready (fun c i => match c.bob? i with
    | some b => if b.st = 3 then (c.bobMod i (fun b => { b with st := 4 })).cmdPart i .ok else c
    | none => c)
  c.cu (fun u => { u with cmds := u.cmds.map (fun k => if k.id = id then { k with holds := k.holds - 1 } else k) })

/-- A held effect is taken. -/
def Chip.doEff (c : Chip) (e : Eff) : Chip :=
  match e with
  | .ring typ dst p => c.ringSend typ dst p
  | .ringAll typ p => c.ringBroadcast typ p
  | .ack src seq => c.ringSend 0x7E src (pack [(4, seq), (1, 0)])
  | .command id ready => c.commitDone id ready
  | .hankKey h key => c.hankKeyed h key
  | .root tree node => c.cu (fun u => { u with trs := tput u.trs tree node })
  | .answer m a => (match c.callAt m with | some k => c.answer k a | none => c)
  | .finish t st => c.finishCall t st []
  | .spdm n q b => c.spdmSend n q b
  | .release n => ((c.cardRelease n).hankReleased n).ringPush n
  | .warp ch f => c.warpTo ch f
  | .launchCancel n r => c.cancelGo n r
  | .nothing => c

/-- A held effect is refused: its command or call ends with a status (R188, Table 7.13). -/
def Chip.failEff (st : Status) (c : Chip) (e : Eff) : Chip :=
  match e with
  | .command id _ => c.cu (fun u => { u with cmds := u.cmds.map (fun k =>
      if k.id = id then { k with holds := k.holds - 1, done := 0, left := [], bad := k.bad ++ [(k.first, st)] } else k) })
  | .answer m a => (match c.callAt m with | some k => c.answer k { a with st := st } | none => c)
  | .finish t _ => c.finishCall t st []
  | _ => c

/-- Every held effect whose waits are over is taken, in order. -/
def Chip.holdsDue (c : Chip) : Chip :=
  let due := c.ply.holds.filter c.released
  (c.pl (fun p => { p with holds := p.holds.filter (fun h => !c.released h) })).each (due.map (·.eff)) Chip.doEff

/-- The last `JSEQ` of a record that names a Bobbin, among the records programmed, in progress and queued. -/
def Chip.jLast (c : Chip) (id : Nat) : Nat :=
  let recs := (c.jAll ++ c.cust.jrnl.page).map (·.2) ++ c.cust.jrnl.queue.map (·.2)
  match (recs.filter (fun r => r.op != 0x04 && r.op < 0x10 && r.first ≤ id && id ≤ r.last)).getLast? with
  | some r => r.jseq % 2 ^ 32
  | none => 0

/-- The COMMIT and IMPORT records of commands that are given up after 100 ms without a sector are not written (R182); `BOB_JSEQ` goes back
over those that were the last. -/
def Chip.jForget (c : Chip) : Chip :=
  let ends := c.ply.holds.filterMap (fun h => match h.eff with | .command _ _ => some h.jseq | _ => none)
  let gone := c.cust.jrnl.queue.filter (fun e => (e.2.op = 0x02 || e.2.op = 0x03) && ends.contains (e.2.jseq + e.2.parts.length))
  match gone with
  | [] => c
  | g :: _ =>
    let keep := c.cust.jrnl.queue.filter (fun e => !gone.contains e)
    let c := c.jr (fun j => { j with queue := keep })
    let c := if keep.all (fun e => decide (e.2.jseq < g.2.jseq)) then c.put64 R.BOB_JSEQ_LO g.2.jseq else c
    let seqs := gone.map (fun e => e.2.jseq % 2 ^ 32)
    c.cu (fun u => { u with bobs := u.bobs.map (fun e => if seqs.contains e.2.jseq then (e.1, { e.2 with jseq := c.jLast e.1 }) else e) })

/-- Effects that wait for a journal program are refused; a hank key's waits on (its hank fails of itself once the journal has FAILED). -/
def Chip.holdsFail (c : Chip) (st : Status) : Chip :=
  let out := fun (h : Hold) => h.jseq != 0 && (match h.eff with | .hankKey _ _ => false | _ => true)
  let bad := c.ply.holds.filter out
  (c.pl (fun p => { p with holds := p.holds.filter (fun h => !out h) })).each (bad.map (·.eff)) (Chip.failEff st)

/-- Dies that waited in KEYING for a RING launch are served once it has passed (R224). -/
def Chip.keyWaiters (c : Chip) : Chip :=
  if c.ringShut then c
  else c.each ((c.card.dies.filter (fun e => e.2.waiting && c.cardSt e.1 == 3)).map (·.1)) Chip.keyParts

/-- The LC_REQUEST call is told how its transition ended (R94, Table 6.10). -/
def Chip.lcsReply (c : Chip) : Chip :=
  match c.lcs.ticket with
  | none => c
  | some t =>
    if c.get F.LCS_STATUS_RESULT = Status.pending.code then c
    else ({ c with lcs := { c.lcs with ticket := none } }).finishCall t ((Status.ofCode (c.get F.LCS_STATUS_RESULT)).getD .ok) []

/-- A die that leaves the ring leaves every unit that counted on it (R226, Table 5.10). -/
def Chip.dieGone (c : Chip) (n : Nat) : Chip := (c.dieLeft n).twDieLeft n

/-- One round. -/
def Chip.settleOnce (c : Chip) : Chip :=
  let c := (c.cardAbsent Chip.dieGone).cardRoundEnd
  let c := c.jStart
  let c := if c.jFailed then c.holdsFail .integrity else c
  let c := c.holdsDue
  let c := c.acksDue
  let c := (c.cancelsEnd).cmdsEnd
  let c := c.each (List.range 16) Chip.recount
  let c := c.keyWaiters.hostRetry
  let c := c.switches.confirmEnd.lcsReply
  let c := (c.each (c.hanks.tab.map (·.1)) Chip.twSigning).sigsDue
  ((c.resyncFive).handoverGo).handoverFailed.phases.logLost

/-- Has a group work: a descriptor in flight, a lane under test, a Tally command, or a key request that waits for it? -/
def Chip.groupBusy (c : Chip) (g : Nat) : Bool :=
  (List.range 32).any (fun n => (c.ch n).fl.any (fun f => cryGroup f.desc.op == g)) ||
    (List.range 6).any (fun cls => laneGroup cls == g && (List.range (laneCount cls)).any (fun l => c.laneSt cls l == 1 || c.laneSt cls l == 2)) ||
    (g == 5 && c.get F.TLY_STATUS_BUSY == 1)

/-- What keeps a group on (R62): `FORCE_ON`, unless disabled; an open digest context; a partial sum. -/
def Chip.groupKept (c : Chip) (g : Nat) : Bool :=
  (bit (c.get F.PWR_GRP_CTRL_FORCE_ON) (g - 1) && !bit (c.get F.PWR_GRP_CTRL_DISABLE) (g - 1)) ||
    (g == 1 && (List.range 64).any (fun n => c.cxSt n != 0)) || (g == 5 && (List.range 8).any (fun n => c.acSt n == 1 || c.acSt n == 2))

/-- The slot since which a thing has been idle: kept while it is, gone when it works. -/
def Chip.idleMark (c : Chip) (k : Nat) (works : Bool) : Chip :=
  { c with pwr := { c.pwr with
    idle := if works then tdel c.pwr.idle k else if (tget? c.pwr.idle k).isSome then c.pwr.idle else tput c.pwr.idle k c.slot } }

/-- Each Crypto group's idle slots (R62), and under 0 those with no group on (R59). -/
def Chip.idleNote (c : Chip) : Chip :=
  if c.seq != .active then { c with pwr := { c.pwr with idle := [] } }
  else
    let c := c.each [1, 2, 3, 4, 5] (fun c g => c.idleMark g (c.grp g != 2 || c.groupBusy g))
    c.idleMark 0 ([1, 2, 3, 4, 5].any (fun g => c.grp g == 1 || c.grp g == 2))

/-- Has a thing been idle for `n` consecutive slots? -/
def Chip.idleFor (c : Chip) (k n : Nat) : Bool := match tget? c.pwr.idle k with | some t => decide (t + n ≤ c.slot) | none => false

/-- Rounds until what a command sets going has run. -/
def Chip.settle (c : Chip) : Chip :=
  if c.svcUp then c.settleOnce.settleOnce.settleOnce.settleOnce.snapKeep.idleNote else c

/-- A source conditions 1,024 samples in 20.48 µs, 5,120 units of Whorl time (R280). -/
def Chip.blocksDue (c : Chip) : Chip := if c.svcUp && c.time % 5120 = 0 then c.entFill else c

/-- Rings are read again for descriptors whose `OP` is outside Tables 10.3 and 7.7 (R268, R174). -/
def Chip.crySkips (c : Chip) : Chip := if c.svcUp then (c.each (List.range 32) (fun c n => c.crySkip n 256)).cqSkip 1024 else c

/-- Nothing is commanded: one unit of Whorl time passes, and what became due runs (assumption 1). -/
def Chip.idle (c : Chip) : Chip := c.tick.blocksDue.drbgAgain.repairDone.crySkips.settle

/-- A meaning that changes the instance, with what follows of it. -/
def State.onS (s : State) (f : Chip → Chip) : Host.Outcome State Fault Refusal := s.on (fun c => (f c).settle)

/-- The same where the command can end a fuse program (a Snag decision, a failure). -/
def State.onCutS (s : State) (f : Chip → Chip) : Host.Outcome State Fault Refusal := s.onCut (fun c => (f c).settle)

end Sys2Proof.Machine
end

