-- ==== Sys2Proof/Machine/Boot.lean ====
section
/-!
DEFINITION. The boot phases (R101 to R119, R136, R184) and the firmware-free fetch (R76 to R78). Each command does the work of the phase
that `GEN_BOOT.PHASE` shows and enters the next (assumption 40).
-/

namespace Sys2Proof.Machine

/-- A boot command acts only in its phase. -/
def Chip.inPhase (c : Chip) (p : Nat) (f : Chip → Chip) : Chip := if c.svcUp && c.phase = p then f c else c

/-- ROM_INIT (R102, R283, R90): SRAM zero, groups 1, 3 and 4 woken, the DRBG instantiated once both start-up tests have ended, `LCS_NONCE` drawn from it, ROM measured. -/
def execRomInit (rom : List Byte) (s : State) : Host.Outcome State Fault Refusal :=
  s.on (fun c => c.inPhase 0x10 (fun c =>
    if c.entSt 0 = 1 || c.entSt 1 = 1 then c else
    let c := { c with mem := { nor := c.mem.nor }, boot := { c.boot with rom := Config.sha3_384 rom } }
    let c := (c.each [1, 3, 4] Chip.groupNeed).drbgStart
    let p := c.rnd 8
    let c := p.2.put64 R.LCS_NONCE_LO (ofLe p.1)
    c.setPhase (if c.get F.GEN_BOOT_WARM = 0 && c.get F.OTP_STATUS_INTEG_FAIL = 1 && c.pkg = .hx64 then 0x11 else 0x12)))

/-- Regions that make ROM hold (Table 4.4). -/
def romHolds (r : Nat) : Bool := r = 0 || r = 1 || r = 2 || r = 4 || r = 6

/-- ROM ends INTEG_DECIDE: the decision of each region that failed at start is logged, a repaired one's too (Table 4.4); a hold takes the sequencer to HELD. -/
def Chip.integEnd (c : Chip) : Chip :=
  let rs := c.otp.atStart
  let fetched := fun (c : Chip) r => !c.otp.dead r
  let hold := rs.any romHolds || c.otp.dead 3
  let code := fun r => if r = 3 && fetched c 3 then 1 else if r = 5 then (if fetched c 5 then 1 else 2) else if r = 7 then 3 else 0
  let c := c.each rs (fun c r => c.logWord 0x3401 (512 * r) 0 Status.integrity.code (code r) 0)
  if hold then c.enterHeld 1
  else ({ c with boot := { c.boot with region5Lost := c.otp.dead 5 }, otp := { c.otp with fetching := [] } }).setPhase 0x12

/-- INTEG_DECIDE (R76, R77): regions 3 and 5 are asked of the partner; with nothing to ask, or a region that holds, ROM decides. -/
def execIntegDecide (s : State) : Host.Outcome State Fault Refusal :=
  s.onCut (fun c => c.inPhase 0x11 (fun c =>
    let ask := c.otp.failed.filter (fun r => r == 3 || r == 5)
    if !c.otp.fetching.isEmpty then c
    else if ask.isEmpty || c.otp.failed.any romHolds then c.integEnd
    else (Chip.each { c with otp := { c.otp with fetching := ask } } ask (fun c r => c.plySend 0x03 (padTo 16 (le 1 r))))))

/-- FETCH_RETRY_TIMER (R78): FETCH_REQ again. -/
def execFetchRetryTimer (s : State) : Host.Outcome State Fault Refusal :=
  s.on (fun c => c.inPhase 0x11 (fun c => c.each c.otp.fetching (fun c r => c.plySend 0x03 (padTo 16 (le 1 r)))))

/-- The shadows of a region replaced by fetched words (R77). -/
def Chip.fetchAccept (c : Chip) (r : Nat) (bytes : List Byte) : Chip :=
  let sh := (List.range 504).foldl (fun t i =>
    let a := 512 * r + i
    let v := numAt bytes (4 * i) 4
    tput t a { raw := eccWord v, value := v, flags := 32, marginal := false }) c.otp.shadow
  let c := { c with otp := { c.otp with shadow := sh, failed := c.otp.failed.filter (· != r) } }
  let c := (c.wr R.OTP_REGION (wset (4 * r + 3) (4 * r + 3) 1 (c.rd R.OTP_REGION))).otpMirror
  (c.put F.OTP_STATUS_REPAIRED 1).log 0x1406 uOTP (aWord (512 * r) 32 r 0 0 Status.ok.code 1 0)

/-- FETCH_RESP (R77): accepted when the completion digest of its words equals the instance's own, itself sound. -/
def execFetchResp (region : Nat) (st : Nat) (words : List Byte) (s : State) : Host.Outcome State Fault Refusal :=
  s.onCut (fun c => c.inPhase 0x11 (fun c =>
    if !c.otp.fetching.contains region then c
    else
      let c := c.put F.PLY_STATUS_LINK_UP 1
      let own := (List.range 8).map (fun i => c.otp.sh (512 * region + 504 + i))
      let ok := st = 0 && own.all (fun w => !bit w.flags 1 && !bit w.flags 2) &&
        Config.sha3_256 (BitVec.ofNat 8 region :: padTo 2016 words) == c.otp.storedDigest region
      let c := { c with otp := { c.otp with fetching := c.otp.fetching.filter (· != region) } }
      let c := if ok then c.fetchAccept region words else c
      if c.otp.fetching.isEmpty then c.integEnd else c))

/-- FETCH_TIMEOUT (R77): what was asked is not accepted. -/
def execFetchTimeout (s : State) : Host.Outcome State Fault Refusal :=
  s.onCut (fun c => c.inPhase 0x11 (fun c =>
    if c.otp.fetching.isEmpty then c else Chip.integEnd { c with otp := { c.otp with fetching := [] } }))

/-- FETCH_REQ (R78): it came, so the lanes are trained; the responder answers from its shadows once its Service domain is up. -/
def execFetchReq (region : Nat) (s : State) : Host.Outcome State Fault Refusal :=
  s.on (fun c =>
    if !c.svcUp || !(region = 3 || region = 5) then c
    else
      let c := c.put F.PLY_STATUS_LINK_UP 1
      let good := !c.otp.dead region
      c.plySend 0x04 (pack [(1, region), (1, if good then 0 else Status.integrity.code), (2, 0)] ++
        (if good then c.otp.bytes (512 * region) 504 else List.replicate 2016 0#8)))

/-- NOR_INIT (R33): the SFDP table is read in 1S-1S-1S, and the device is switched to 8D-8D-8D. -/
def execNorInit (s : State) : Host.Outcome State Fault Refusal :=
  s.on (fun c => c.inPhase 0x12 (fun c => (Chip.send { c with pins := { c.pins with norOctal := true } } .sfdpRead).setPhase 0x13))

/-- No usable root (R109): the selected root is missing, failed, or quenched. -/
def Chip.usableRoot (c : Chip) : Option Nat :=
  match rootOf c.lcState with
  | some i => if c.otp.rootGood i && !c.lcs.stuck then some i else none
  | none => none

/-- ROOT_LOAD (R89, R109, R110, R163): the root and `K_store` in Distaff, the full Snag response armed. -/
def execRootLoad (s : State) : Host.Outcome State Fault Refusal :=
  s.on (fun c => c.inPhase 0x13 (fun c =>
    if !c.pins.recoveryN then c
    else
      match c.usableRoot with
      | none => (c.put F.GEN_BOOT_NO_ID 1).setPhase 0x14
      | some i =>
        let root := c.otp.root i
        let c := c.cu (fun u => { u with keys := { u.keys with root := some root, store := some (kStore root (c.get F.GEN_ID_SIDE)) } })
        ((((c.put F.DST_STATUS_ROOT 1).put F.LCS_ROOTS_SELECTED (2 ^ i)).put F.DST_STATUS_STORE_KEY 1).put F.SNG_STATUS_ARMED 1).setPhase 0x14))

/-- A DICE key pair's private values of a secret (R107, R108). -/
def diceKeys (secret : List Byte) (label : String) (side : Nat) : List Byte × List Byte :=
  (ecScalar (Config.kmac256 secret (ascii (label ++ "-ECC") ++ le 1 side) (ascii "GGM-1 DICE") 56),
   Config.kmac256 secret (ascii (label ++ "-MLDSA") ++ le 1 side) (ascii "GGM-1 DICE") 32)

/-- DEVICEID_DERIVE (R107). -/
def execDeviceidDerive (s : State) : Host.Outcome State Fault Refusal :=
  s.on (fun c => c.inPhase 0x14 (fun c =>
    let c := match c.cust.keys.root with
      | some r =>
        let d := diceKeys r "DeviceID" (c.get F.GEN_ID_SIDE)
        let pub := (Config.sha3_384 (spkiEc (Config.ecPubFull d.1)), Config.sha3_384 (spkiMldsa (Config.mldsaPub 65 d.2)))
        { c with boot := { c.boot with deviceId := some d, dev := pub } }
      | none => c
    c.setPhase 0x15))

/-- SPINDLE_VERIFY (R105): the image loaded into Spindle SRAM, or the failing step kept for recovery. -/
def execSpindleVerify (s : State) : Host.Outcome State Fault Refusal :=
  s.on (fun c => c.inPhase 0x15 (fun c =>
    let i := c.imgRead 1
    if i.2.2.2 = .ok then
      let b := { c.boot with spn := Config.sha3_384 i.2.1, spnSvn := numAt i.1 8 4, signer := c.otp.keySlot 0 }
      let c := { c with boot := { b with load := numAt i.1 20 4, size := i.2.1.length, entry := numAt i.1 24 4 } }
      (c.spnWr (numAt i.1 20 4) i.2.1).setPhase 0x16
    else Chip.failStep { c with boot := { c.boot with failed := some i.2.2 } } i.2.2.2))

/-- ALIAS_DERIVE (R108): CDI_A, the Alias keys and certificates; the DeviceID keys, CDI_A and the root erased. -/
def execAliasDerive (s : State) : Host.Outcome State Fault Refusal :=
  s.on (fun c => c.inPhase 0x16 (fun c =>
    let c := match c.cust.keys.root, c.boot.deviceId with
      | some r, some d =>
        let x := c.boot.spn ++ le 4 c.boot.spnSvn ++ le 1 c.lcState ++ c.boot.signer
        let side := c.get F.GEN_ID_SIDE
        let cdi := Config.kmac256 r (ascii "Alias" ++ le 1 side ++ x) (ascii "GGM-1 DICE") 32
        let a := diceKeys cdi "Alias" side
        let info := c.boot.spn ++ le 4 c.boot.spnSvn ++ le 1 c.lcState
        let certs := [Config.certificate d.1 (Config.ecPubFull a.1 ++ info), Config.certificate d.2 (Config.mldsaPub 65 a.2 ++ info)]
        { c with boot := { c.boot with alias_ := some a, certs := certs } }
      | _, _ => c
    let c := { c with boot := { c.boot with deviceId := none } }
    ((c.cu (fun u => { u with keys := { u.keys with root := none, cdi := none, dice := true } })).put F.DST_STATUS_DICE_CLOSED 1).setPhase 0x20))

/-- RECOVERY_ENTER (R106): a low `RECOVERY_N`, or a Spindle image that failed. -/
def execRecoveryEnter (s : State) : Host.Outcome State Fault Refusal :=
  s.onCut (fun c =>
    let enter := fun (c : Chip) (step : Nat) (st : Status) =>
      ((((c.put F.SKN_CTRL_RING_EN 0).put F.GEN_BOOT_RECOVERY 1).setPhase 0x17).updLoad).log 0x3501 uROM (c.aImg 1 step st 0 [])
    if !c.svcUp then c
    else if c.phase = 0x13 && !c.pins.recoveryN then enter c 0 .ok
    else if c.phase = 0x15 then
      match c.boot.failed with
      | some f => enter c.zeroize f.1 f.2
      | none => c
    else c)

/-- Is the instance past its start: SCRAP and a quench stay in 0x20 (R109)? -/
def Chip.mayLeave20 (c : Chip) : Bool := c.lcState != 7 && !c.otp.quenched

/-- SPINDLE_INIT (R136, R459): Spindle starts; code protection; the tamper log opened. -/
def execSpindleInit (s : State) : Host.Outcome State Fault Refusal :=
  s.on (fun c => c.inPhase 0x20 (fun c =>
    if c.get F.COR_SPN_CTRL_CODE_WP = 1 then c
    else
      let c := c.log 0x0501 uSPN (c.aImg 1 0 .ok c.boot.spnSvn c.boot.spn)
      let c := (c.put F.COR_SPN_CTRL_CODE_TOP ((c.boot.load + c.boot.size + 4095) / 4096)).put F.COR_SPN_CTRL_CODE_WP 1
      let c := c.tamperOpen.updLoad
      if c.mayLeave20 then c.setPhase 0x21 else c))

/-- CONFIG_APPLY (R114 to R118, R478): the Amvex image over its defaults. -/
def execConfigApply (s : State) : Host.Outcome State Fault Refusal :=
  s.onCutS (fun c => (c.inPhase 0x21 (fun c => c.updResume 1)).inPhase 0x21 (fun c =>
    let c := c.updResume 4
    let i := c.imgRead 4
    let c :=
      if i.2.2.2 = .ok then
        Chip.config { c with boot := { c.boot with amvex := Config.sha3_384 i.2.1, amvexSvn := numAt i.1 8 4 } } (some i.2.1) .ok
      else
        let c := Chip.config { c with boot := { c.boot with amvex := List.replicate 48 0#8 } } none i.2.2.2
        (c.put F.GEN_BOOT_AMVEX_DEFAULT 1).log 0x2502 uSPN (c.aImg 4 i.2.2.1 i.2.2.2 0 (slice i.1 32 12))
    c.setPhase 0x22))

/-- ROVING_START (R119, R478): both images verified, Roving loaded, its six cores released. -/
def execRovingStart (s : State) : Host.Outcome State Fault Refusal :=
  s.on (fun c => c.inPhase 0x22 (fun c =>
    let c := (c.updResume 2).updResume 3
    let r := c.imgRead 2
    let m := c.imgRead 3
    let fail := fun (typ : Nat) (hdr : List Byte) (v : Nat × Status) =>
      (c.failStep v.2).log 0x2501 uSPN (c.aImg typ v.1 v.2 (numAt hdr 8 4) (slice hdr 32 12))
    if r.2.2.2 != .ok then fail 2 r.1 r.2.2
    else if m.2.2.2 != .ok then fail 3 m.1 m.2.2
    else
      let st := c.manifestBad m.2.1
      if st != .ok then fail 3 m.1 (5, st)
      else
        let b := { c.boot with rov := Config.sha3_384 r.2.1, rovSvn := numAt r.1 8 4, rovEntry := numAt r.1 24 4 }
        let c := { c with boot := { b with man := Config.sha3_384 m.2.1, manSvn := numAt m.1 8 4, manifest := m.2.1 } }
        let c := (c.rovWr (numAt r.1 20 4) r.2.1).each (List.range 6) Chip.coreStart
        c.setPhase (if c.get F.GEN_BOOT_NO_ID = 1 then 0x22 else 0x23)))

/-- CUSTODY_INIT (R163, R184): table and cache cleared, `K_journal` and `K_blob` set, the journal opened. -/
def execCustodyInit (s : State) : Host.Outcome State Fault Refusal :=
  s.onS (fun c => c.inPhase 0x23 (fun c =>
    let k := c.rndPr 32
    let keys := { c.cust.keys with journal := c.cust.keys.store.map kJournal, blob := some k.1 }
    let c := k.2.cu (fun u => { u with keys := keys, bobs := [], cache := [] })
    let c := ((c.put F.DST_STATUS_JOURNAL_KEY (b2n keys.journal.isSome)).put F.DST_STATUS_BLOB_KEY 1).cacheStat
    c.jOpenUp.setPhase 0x24))

/-- RING_START (R101, R204, R420): `RING_EN`, and in a pair the Ply link; the pre-lease time master begins. -/
def execRingStart (other marks : Bool) (s : State) : Host.Outcome State Fault Refusal :=
  s.onS (fun c => c.inPhase 0x24 (fun c =>
    let c := c.ringEnable true
    let c := if c.pkg = .hx4 then c.setRole 6 else (c.put F.PLY_CTRL_LINK_EN 1).linkTrain
    let c := (c.masterStart other marks).setPhase 0x30
    if c.pkg = .hx4 then c.cardStart 1 else c))

end Sys2Proof.Machine
end

