-- ==== Sys2Proof/Machine/Carding.lean ====
section
/-!
DEFINITION. The Carding commands (R121 to R128).
-/

namespace Sys2Proof.Machine

/-- Take the oldest MEAS_RESP with an operation and handle it. -/
def Chip.onMeas (c : Chip) (op : Nat) (f : Chip → Inbox → Chip) : Chip :=
  match c.ring.inbox.find? (fun m => m.typ == 0x41 && numAt m.payload 0 1 == op) with
  | none => c
  | some m => f { c with ring := { c.ring with inbox := c.ring.inbox.erase m } } m

/-- CARD_NODE_PRESENT (Table 5.10). -/
def execCardNodePresent (node : Nat) (s : State) : Host.Outcome State Fault Refusal :=
  s.onS (fun c => if node < 64 && c.cards && decide (0x30 ≤ c.phase) && c.phase != 0xF0 && c.present node && c.cardSt node = 0 then c.measure node else c)

/-- MEASURED (R125). -/
def execMeasured (s : State) : Host.Outcome State Fault Refusal := s.onS (fun c => c.onMeas 1 Chip.measured)

/-- NOT_READY (Table 5.10). -/
def execNotReady (s : State) : Host.Outcome State Fault Refusal :=
  s.onS (fun c => c.onMeas 3 (fun c m => if c.cardSt m.src = 1 then c.cardMod m.src (fun k => { k with notReady := true }) else c))

/-- KEY_INSTALLED (Table 5.10). -/
def execKeyInstalled (s : State) : Host.Outcome State Fault Refusal := s.onS (fun c => c.onMeas 2 Chip.keyInstalled)

/-- KEY_FAILED (Table 5.10). -/
def execKeyFailed (s : State) : Host.Outcome State Fault Refusal := s.onS (fun c => c.onMeas 4 (fun c m => c.keyFailed m.src))

/-- CARD_RETRY_TIMER (Table 5.10): `CARD_RETRY_SLOTS` after the previous MEASURE. -/
def execCardRetryTimer (node : Nat) (s : State) : Host.Outcome State Fault Refusal :=
  s.onS (fun c =>
    let k := c.cardDie node
    if c.cards && c.cardSt node = 1 && k.notReady && decide (k.measured + c.conf 0x0302 1024 ≤ c.slot) then c.measure node else c)

/-- CARD_TIMEOUT (Table 5.10). -/
def execCardTimeout (node : Nat) (s : State) : Host.Outcome State Fault Refusal :=
  s.onS (fun c => if c.cards && c.cardSt node = 1 then c.cardReject node 0x2504 .busy 0 [] else c)

/-- CARD_KEY_TIMEOUT (Table 5.10). -/
def execCardKeyTimeout (node : Nat) (s : State) : Host.Outcome State Fault Refusal :=
  s.onS (fun c => if (c.cardDie node).waiting then c else c.keyFailed node)

/-- CARD_TAKEOVER_TIMER (R121): GGM-B cards in place of GGM-A. -/
def execCardTakeoverTimer (s : State) : Host.Outcome State Fault Refusal :=
  s.onS (fun c => c.cardTakeover false)

/-- CARD_NOTICE (R121): the partner cards under a ring key epoch. -/
def execCardNotice (rkey : Nat) (started : Bool) (s : State) : Host.Outcome State Fault Refusal :=
  s.onS (fun c => if c.linked && started then
      { c with card := { c.card with noticed := true, active := false }, ring := { c.ring with rkey := max c.ring.rkey rkey } } else c)

/-- Carding of a REJECTED die restarts (Table 5.10, R131): Spindle only; the die's bridge is released first. -/
def Chip.recard (c : Chip) (req : Req) (n : Nat) : Chip :=
  if classOf req = .spindle && c.cardSt n = 5 then
    let c := if bit (c.get (bridgeField (n / 32))) (n % 32) then c.bridgeDie n false else c
    ((c.cardMod n (fun k => { k with keyFails := 0, bridge := false })).addi F.GEN_CARD_STATEn_ATTEMPTS n 1).measure n
  else c

/-- RECARD (Table 5.10, R131). -/
def execRecard (req : Req) (node : Nat) (s : State) : Host.Outcome State Fault Refusal :=
  s.onS (fun c => c.guarded req (R.GEN_CARD_STATEn (node % 64)) true (fun c => (c.wrote req).recard req (node % 64)))

end Sys2Proof.Machine
end

