-- ==== Sys2Proof/Machine/CoreOps.lean ====
section
/-!
DEFINITION. The eight cores (R133 to R144): instance failures, the fence of a Roving core and what it takes back.
-/

namespace Sys2Proof.Machine

/-- An instance failure of the Spindle pair (R139), with its program counter and the comparator group. -/
def Chip.spnFail (c : Chip) (code pc group last : Nat) : Chip :=
  if c.svcUp then c.instFail code uCOR (aCore 0xFF 0 c.phase group pc last) else c

/-- A Spindle fault (R136): the refused access is logged (R135) and the instance ends as R139 orders; the spec gives it no event of its own
(assumption 103). -/
def Chip.codeFault (c : Chip) (addr : Nat) (wr : Bool) : Chip :=
  let c := c.log 0x1601 uCOR (aAccess addr 0xFF wr uCOR 0 0)
  (c.zeroize.freezeNoil 3).enterHeld 3

/-- Fence a core (R141, R144): a core that is not RUNNING has no cause to fence it. Its DMA channels stop as a pause stops
them (R143). -/
def Chip.fenceCore (c : Chip) (k cause : Nat) : Chip :=
  if 6 ≤ k || c.coreSt k != 1 || !c.svcUp then c
  else
    let c := ((c.setHalt k 0).coreSet k 2).puti F.COR_CORE_STATUSn_CAUSE k cause
    let c := c.each ((List.range 32).filter (fun n => c.geti F.DMA_CHn_CFG_OWNER n == 0xF0 + k)) Chip.dmStop1
    if c.liveCores.length < 2 then c.instFail 0x3604 uCOR (aCore k cause 2 0 0 c.liveCores.length) else c

/-- The mailboxes of a fenced core (R143). -/
def Chip.fenceBoxes (c : Chip) (k : Nat) : Chip :=
  let c := (c.mbFree false k).mbFree false (6 + k)
  let c := c.each [12, 13, 14, 15] (fun c n =>
    if c.mbOwner false n != 0xF0 + k then c
    else if c.mbSt false n = 2 then { c with cores := { c.cores with orphan := c.cores.orphan ++ [n] } }
    else c.mbFree false n)
  c.each ((List.range 16).filter (fun n => c.mbSt true n == 2 && tget c.cores.mbAt n (c.mbnCore n) == k)) (fun c n => c.mbRaiseFull true n)

/-- Every resource of a fenced core is taken back (R143): DMA channels, digest contexts, crypto channels, trace sources, mailboxes, calls. -/
def Chip.fenceTake (c : Chip) (k : Nat) : Chip :=
  let r := 0xF0 + k
  let c := c.each ((List.range 32).filter (fun n => c.geti F.DMA_CHn_CFG_OWNER n == r)) Chip.dmFence
  let c := c.each ((List.range 64).filter (fun n => tget? c.cry.holder n == some r)) (fun c n => c.cxGrant n none)
  let c := c.each ((List.range 64).filter (fun n => c.cxSt n != 0 && c.cxOwner n == r)) Chip.cxFree
  let c := c.each ((List.range 32).filter (fun n => c.chOwner n == r)) Chip.chTake
  let c := c.each ((List.range 17).filter (fun t => (c.trSrc t).grant == some k)) Chip.traceTake
  let c := c.fenceBoxes k
  { c with cores := { c.cores with pend := c.cores.pend.filter (fun e => e.2.core != k), notices := tdel c.cores.notices k } }

/-- FENCING ends (Table 6.6). -/
def Chip.fenceDone (c : Chip) (k pc : Nat) : Chip :=
  if 6 ≤ k || c.coreSt k != 2 || !c.svcUp then c
  else ((c.fenceTake k).coreSet k 3).log 0x2601 uCOR (aCore k (c.geti F.COR_CORE_STATUSn_CAUSE k) 3 0 pc 0)

/-- A field `PERIOD` of the watchdogs, kept within its range (Table 6.19). -/
def Chip.periodWrite (c : Chip) (req : Req) (f : Fld) (v : Nat) : Chip :=
  let k := clampTo 1024 16777215 v
  let c := c.put f k
  if k = v then c else c.log 0x1601 uCOR (aClamp f.base v k req.toNat f.lo)

end Sys2Proof.Machine
end

