-- ==== Sys2Proof/Machine/Cores.lean ====
section
/-!
DEFINITION. The commands of the cores (R135 to R144).
-/

namespace Sys2Proof.Machine

/-- LOCKSTEP_MISMATCH (R139). -/
def execLockstepMismatch (pc group : Nat) (s : State) : Host.Outcome State Fault Refusal := s.onCutS (fun c => c.spnFail 0x3601 pc group 0)

/-- SPINDLE_SRAM_UNCORRECTABLE (R138, R139). -/
def execSpindleSramUncorrectable (addr pc : Nat) (s : State) : Host.Outcome State Fault Refusal := s.onCutS (fun c => c.spnFail 0x3602 pc 0 addr)

/-- SPINDLE_WDT_EXPIRE (R139, R140): from phase 0x20 on, and not while the pair is halted (R489). -/
def execSpindleWdtExpire (pc : Nat) (s : State) : Host.Outcome State Fault Refusal :=
  s.onCutS (fun c =>
    if 0x20 ≤ c.phase && c.get F.DBG_STATUS_SPN_HALTED = 0 && c.cores.spnKick + c.get F.COR_SPN_WDT_PERIOD ≤ c.slot then c.spnFail 0x3603 pc 0 0 else c)

/-- What a write of `COR_SPN_WDT` does (R140): `PERIOD` is taken, `KICK` restarts the count. -/
def Chip.wdtWrite (c : Chip) (req : Req) (value : Word) : Chip :=
  let c := c.periodWrite req F.COR_SPN_WDT_PERIOD (wget 23 0 value)
  if wget 31 31 value = 1 then { c with cores := { c.cores with spnKick := c.slot } } else c

/-- SPINDLE_WDT_KICK (R140): a write of `COR_SPN_WDT`. -/
def execSpindleWdtKick (req : Req) (value : Word) (s : State) : Host.Outcome State Fault Refusal :=
  s.on (fun c => c.guarded req R.COR_SPN_WDT true (fun c => (c.wrote req).wdtWrite req value))

/-- What a write of `COR_SPN_CTRL` does (R136): `CODE_WP` is set and locks `CODE_TOP`. -/
def Chip.codeWrite (c : Chip) (value : Word) : Chip :=
  let c := if c.get F.COR_SPN_CTRL_CODE_WP = 0 then c.put F.COR_SPN_CTRL_CODE_TOP (wget 15 8 value) else c
  if wget 0 0 value = 1 then c.put F.COR_SPN_CTRL_CODE_WP 1 else c

/-- CODE_WP (R136): a write of `COR_SPN_CTRL`. -/
def execCodeWp (req : Req) (value : Word) (s : State) : Host.Outcome State Fault Refusal :=
  s.on (fun c => c.guarded req R.COR_SPN_CTRL true (fun c => (c.wrote req).codeWrite value))

/-- SPINDLE_CODE_FAULT (R136): a write below `CODE_TOP` (`wr`), or a fetch at or above it, by offset in Spindle SRAM. -/
def execSpindleCodeFault (off : Nat) (wr : Bool) (s : State) : Host.Outcome State Fault Refusal :=
  s.onCutS (fun c =>
    let top := 4096 * c.get F.COR_SPN_CTRL_CODE_TOP
    if c.svcUp && c.get F.COR_SPN_CTRL_CODE_WP = 1 && (if wr then decide (off < top) else decide (top ≤ off)) then c.codeFault (0x10000000 + off) wr else c)

/-- Does Table 6.2 grant a core's access: a fetch from ROM or below `CODE_TOP` by Spindle and from Roving SRAM by Roving, any other access by its
class and, in the window, of the sizes of R29 (R135)? -/
def Chip.coreGranted (c : Chip) (req : Req) (addr size : Nat) (wr fetch : Bool) : Bool :=
  if fetch then
    if classOf req == .spindle then
      decide (addr < 0x40000) || (decide (0x10000000 ≤ addr) && decide (addr < 0x10000000 + 4096 * c.get F.COR_SPN_CTRL_CODE_TOP))
    else decide (0x20000000 ≤ addr) && decide (addr < 0x20600000)
  else
    c.reach req addr wr == 0 &&
      (!(decide (0x40000000 ≤ addr) && decide (addr < 0x40080000)) || shapeOk (addr - 0x40000000) size wr)

/-- CORE_ACCESS_FAULT (R135): an access of a core outside its grants does not complete; one that Table 6.2 grants is no such command. -/
def execCoreAccessFault (req : Req) (addr size : Nat) (wr fetch : Bool) (s : State) : Host.Outcome State Fault Refusal :=
  s.on (fun c =>
    if !c.svcUp || classOf req = .external || c.coreGranted req addr size wr fetch then c
    else
      let unit := if 0x40000000 ≤ addr && addr < 0x40080000 then unitOfOffset (addr - 0x40000000) else uCOR
      (c.respond req false 0).log 0x1601 unit (aAccess addr req.toNat wr unit 0 0))

/-- SRAM_PATROL (R138): a word of Spindle SRAM (`spindle`) or Roving SRAM at an address, with no error, a single-bit or an uncorrectable one. -/
def execSramPatrol (spindle : Bool) (addr errors : Nat) (s : State) : Host.Outcome State Fault Refusal :=
  s.onCutS (fun c =>
    let a := addr / 8 * 8
    let base := if spindle then 0x10000000 else 0x20000000
    let size := if spindle then 0x100000 else rovBytes
    if !c.svcUp || size ≤ a || errors = 0 then c
    else if errors = 1 then c.logOnce 0x1604 (base + a) uCOR (aAccess (base + a) 0 false uCOR 0 0)
    else if spindle then c.spnFail 0x3602 0 0 a
    else if c.mem.poison.contains a then c
    else ({ c with mem := { c.mem with poison := c.mem.poison ++ [a] } }).log 0x2602 uCOR (aAccess (base + a) 0 false uCOR Status.integrity.code 0))

/-- ROVING_CORE_FENCE (R141): causes 0x01, 0x03 and 0x04, which arise in the core. -/
def execRovingCoreFence (core : Nat) (cause : Nat) (s : State) : Host.Outcome State Fault Refusal :=
  s.onCutS (fun c => if cause = 1 || cause = 3 || cause = 4 then c.fenceCore core cause else c)

/-- ROVING_WDT_EXPIRE (R141, cause 0x02); a halted core's watchdog does not run (R493). -/
def execRovingWdtExpire (core : Nat) (s : State) : Host.Outcome State Fault Refusal :=
  s.onCutS (fun c =>
    if c.coreHalted core || c.slot < tget c.cores.kicks core 0 + c.get F.COR_ROV_WDT_PERIOD then c else c.fenceCore core 2)

/-- ROVING_WDT_KICK (R141): the core's write of CSR 0x7C0. -/
def execRovingWdtKick (core : Nat) (s : State) : Host.Outcome State Fault Refusal :=
  s.on (fun c => if core < 6 && c.coreFree core then { c with cores := { c.cores with kicks := tput c.cores.kicks core c.slot } } else c)

/-- FENCE (R141, cause 0x05): a write of `COR_CORE_CTRLn.FENCE`. -/
def execCoreFence (req : Req) (core : Nat) (s : State) : Host.Outcome State Fault Refusal :=
  s.onCutS (fun c => if 6 ≤ core then c else c.guarded req (R.COR_CORE_CTRLn core) true (fun c => (c.wrote req).fenceCore core 5))

/-- A FENCED core is held in reset, unless it restarted three times at this start (R142). -/
def Chip.coreRestart (c : Chip) (core : Nat) : Chip :=
  if c.coreSt core != 3 then c
  else if c.geti F.COR_CORE_STATUSn_RESTARTS core < 3 then c.coreSet core 4
  else c.log 0x1606 uCOR (aCore core (c.geti F.COR_CORE_STATUSn_CAUSE core) 3 0 0 3)

/-- RESTART (R142): a write of `COR_CORE_CTRLn.RESTART`. -/
def execCoreRestart (req : Req) (core : Nat) (s : State) : Host.Outcome State Fault Refusal :=
  s.on (fun c => if 6 ≤ core then c else c.guarded req (R.COR_CORE_CTRLn core) true (fun c => (c.wrote req).coreRestart core))

/-- CORE_RESET_RELEASE (R142). -/
def execCoreResetRelease (core : Nat) (s : State) : Host.Outcome State Fault Refusal :=
  s.on (fun c => if core < 6 && c.svcUp && c.coreSt core = 4 then (c.addi F.COR_CORE_STATUSn_RESTARTS core 1).coreStart core else c)

end Sys2Proof.Machine
end

