-- ==== Sys2Proof/Machine/Crypto.lean ====
section
/-!
DEFINITION. The commands of crypto channels (R266 to R270): each operation takes the descriptor that its channel's ring holds at
`HEAD`, when that descriptor names the operation.
-/

namespace Sys2Proof.Machine

/-- `TAIL` of a crypto channel written; an index beyond the ring is clamped with event 0x1A06 (R294). -/
def Chip.cryTail (c : Chip) (req : Req) (n idx : Nat) : Chip :=
  let top := 2 ^ c.geti F.CRY_CHn_CFG_LOG2 n - 1
  let c := if top < idx then c.log 0x1A06 uCRY (aClamp (R.CRY_CHn_TAIL n) idx top req.toNat 0) else c
  c.puti F.CRY_CHn_TAIL_IDX n (min top idx)

/-- CRY_CH_TAIL_WRITE (R268): the owner moves `TAIL`; a descriptor with an `OP` outside Table 10.3 completes with DENIED. -/
def execCryChTailWrite (req : Req) (n : BitVec 5) (idx : BitVec 8) (s : State) : Host.Outcome State Fault Refusal :=
  s.onS (fun c => c.guarded req (R.CRY_CHn_TAIL n.toNat) true (fun c =>
    ((c.wrote req).cryTail req n.toNat idx.toNat).crySkip n.toNat 256))

/-- MLDSA_KEYGEN (R262, R263). -/
def execMldsaKeygen (n : BitVec 5) (s : State) : Host.Outcome State Fault Refusal :=
  s.onS (fun c => c.cryRow n.toNat 0x10)

/-- MLDSA_SIGN (R263). -/
def execMldsaSign (n : BitVec 5) (s : State) : Host.Outcome State Fault Refusal :=
  s.onS (fun c => c.cryRow n.toNat 0x11)

/-- MLDSA_VERIFY (R263, R264). -/
def execMldsaVerify (n : BitVec 5) (s : State) : Host.Outcome State Fault Refusal :=
  s.onS (fun c => c.cryRow n.toNat 0x12)

/-- MLKEM_KEYGEN (R262). -/
def execMlkemKeygen (n : BitVec 5) (s : State) : Host.Outcome State Fault Refusal :=
  s.onS (fun c => c.cryRow n.toNat 0x18)

/-- MLKEM_ENCAPS (R262). -/
def execMlkemEncaps (n : BitVec 5) (s : State) : Host.Outcome State Fault Refusal :=
  s.onS (fun c => c.cryRow n.toNat 0x19)

/-- MLKEM_DECAPS (R262, R264). -/
def execMlkemDecaps (n : BitVec 5) (s : State) : Host.Outcome State Fault Refusal :=
  s.onS (fun c => c.cryRow n.toNat 0x1A)

/-- NTT, INTT and PMUL (R262). -/
def execNtt (n : BitVec 5) (which : Fin 3) (s : State) : Host.Outcome State Fault Refusal :=
  s.onS (fun c => c.cryRow n.toNat (0x1C + which.val))

/-- ECC_KEYGEN (R262). -/
def execEccKeygen (n : BitVec 5) (s : State) : Host.Outcome State Fault Refusal :=
  s.onS (fun c => c.cryRow n.toNat 0x20)

/-- ECDSA_SIGN (R264). -/
def execEcdsaSign (n : BitVec 5) (s : State) : Host.Outcome State Fault Refusal :=
  s.onS (fun c => c.cryRow n.toNat 0x21)

/-- ECDSA_VERIFY (R264). -/
def execEcdsaVerify (n : BitVec 5) (s : State) : Host.Outcome State Fault Refusal :=
  s.onS (fun c => c.cryRow n.toNat 0x22)

/-- ECDH (R264). -/
def execEcdh (n : BitVec 5) (s : State) : Host.Outcome State Fault Refusal :=
  s.onS (fun c => c.cryRow n.toNat 0x23)

/-- KMAC (R269). -/
def execKmac (n : BitVec 5) (s : State) : Host.Outcome State Fault Refusal :=
  s.onS (fun c => c.cryRow n.toNat 0x30)

/-- GCM_ENC (R265). -/
def execGcmEnc (n : BitVec 5) (s : State) : Host.Outcome State Fault Refusal :=
  s.onS (fun c => c.cryRow n.toNat 0x40)

/-- GCM_DEC (R265). -/
def execGcmDec (n : BitVec 5) (s : State) : Host.Outcome State Fault Refusal :=
  s.onS (fun c => c.cryRow n.toNat 0x41)

/-- CTR (R265). -/
def execCtr (n : BitVec 5) (s : State) : Host.Outcome State Fault Refusal :=
  s.onS (fun c => c.cryRow n.toNat 0x42)

/-- KW_WRAP (R269). -/
def execKwWrap (n : BitVec 5) (s : State) : Host.Outcome State Fault Refusal :=
  s.onS (fun c => c.cryRow n.toNat 0x43)

/-- KW_UNWRAP (R265). -/
def execKwUnwrap (n : BitVec 5) (s : State) : Host.Outcome State Fault Refusal :=
  s.onS (fun c => c.cryRow n.toNat 0x44)

/-- KEY_RANDOM (R270). -/
def execKeyRandom (n : BitVec 5) (s : State) : Host.Outcome State Fault Refusal :=
  s.onS (fun c => c.cryRow n.toNat 0x50)

/-- KEY_ERASE (R270). -/
def execKeyErase (n : BitVec 5) (s : State) : Host.Outcome State Fault Refusal :=
  s.onS (fun c => c.cryRow n.toNat 0x51)

/-- KEY_DISTAFF (R268). -/
def execKeyDistaff (n : BitVec 5) (s : State) : Host.Outcome State Fault Refusal :=
  s.onS (fun c => c.cryRow n.toNat 0x52)

/-- KEY_LOAD (R268). -/
def execKeyLoad (n : BitVec 5) (s : State) : Host.Outcome State Fault Refusal :=
  s.onS (fun c => c.cryRow n.toNat 0x53)

/-- RANDOM (R283). -/
def execRandom (n : BitVec 5) (s : State) : Host.Outcome State Fault Refusal :=
  s.onS (fun c => c.cryRow n.toNat 0x60)

/-- CRYPTO_OP_COMPLETE (R268, R270): a unit on a lane ends. -/
def execCryptoOpComplete (n : BitVec 5) (idx : BitVec 8) (iter : Nat) (s : State) : Host.Outcome State Fault Refusal :=
  s.onS (fun c => c.cryEnd n.toNat idx.toNat iter)

/-- IMPORT (R522, Table 7.7): the key its handle names. -/
def execImportCmd (s : State) : Host.Outcome State Fault Refusal := s.onS (fun c => c.cqRow 0x03 (fun c d => c.cmdImport d (c.keyHandle d.arg0)))

end Sys2Proof.Machine
end

