-- ==== Sys2Proof/Machine/CryptoPower.lean ====
section
/-!
DEFINITION. The Crypto groups' power (R59, R61, R62, R290): waking, the PLL, gating.
-/

namespace Sys2Proof.Machine

/-- CRYPTO_GROUP_WAKE (R61). -/
def execCryptoGroupWake (g : Fin 6) (s : State) : Host.Outcome State Fault Refusal := s.onS (fun c => c.groupNeed g.val)

/-- A group's first wake runs the power-on tests of its lanes (R290). -/
def Chip.powerOnTests (c : Chip) (g : Nat) (bad : List (Nat × Nat)) : Chip :=
  if c.cry.tested.contains g then c
  else
    (c.cr (fun u => { u with tested := u.tested ++ [g] })).each
      (bad.filter (fun (b : Nat × Nat) => decide (b.1 ≤ 5) && laneGroup b.1 == g && decide (b.2 < laneCount b.1))) (fun c b => c.laneFail b.1 b.2)

/-- CRYPTO_GROUP_READY (R61): the group's queued work starts. -/
def execCryptoGroupReady (g : Fin 6) (bad : List (Nat × Nat)) (s : State) : Host.Outcome State Fault Refusal :=
  s.onCutS (fun c =>
    if c.seq != .active then c
    else if g.val = 0 then { c.put F.PWR_STATUS_CRY_PLL_LOCK 1 with pwr := { c.pwr with cryTries := 0 } }
    else if c.grp g.val != 1 then c
    else
      let c := { c.put F.PWR_STATUS_CRY_PLL_LOCK 1 with pwr := { c.pwr with cryTries := 0 } }
      let c := (c.setGrp g.val 2).powerOnTests g.val bad
      if !c.svcUp then c
      else
        let c := c.keyRetry.cryArb
        if g.val = 1 then c.each (List.range 64) Chip.cxWake else c)

/-- Custody commands at the head that need a group complete with POWERED_DOWN, at most `n` of them (R62). -/
def Chip.cqDown (c : Chip) (n : Nat) : Chip :=
  match n with
  | 0 => c
  | n + 1 =>
    let d := c.cqRead
    if (cmdGroups d.op).isEmpty || !cqOp d.op then c
    else
      match c.cmdTake d.op d with
      | none => c
      | some p => Chip.cqDown (p.1.cu (fun u => { u with cmds := u.cmds ++ [{ p.2 with bad := [(d.first % 2 ^ 20, .poweredDown)] }] })).cmdsEnd n

/-- Work queued for groups 1 to 5 completes with POWERED_DOWN. -/
def Chip.groupsDown (c : Chip) : Chip :=
  let c := c.each [1, 2, 3, 4, 5] (fun c g => c.setGrp g 3)
  let c := c.each (List.range 32) (fun c n =>
    c.each ((c.ch n).fl.filter (fun f => !f.started && cryGroup f.desc.op != 0)) (fun c f => c.chDone n f .poweredDown 0))
  let c := c.keyRetry.cqDown 1024
  if c.get F.TLY_STATUS_BUSY = 1 then (c.put F.TLY_STATUS_BUSY 0).put F.TLY_STATUS_LAST Status.poweredDown.code else c

/-- CRYPTO_PLL_TIMEOUT (R62): the second failure ends the instance, with groups 1 to 5 FAILED. -/
def execCryptoPllTimeout (s : State) : Host.Outcome State Fault Refusal :=
  s.onCutS (fun c =>
    if c.seq != .active || c.get F.PWR_STATUS_CRY_PLL_LOCK = 1 then c
    else if c.pwr.cryTries = 0 then { c with pwr := { c.pwr with cryTries := 1 } }
    else (c.groupsDown.instFail 0x2301 uPWR []).each [1, 2, 3, 4, 5] (fun c g => c.setGrp g 3))

/-- GROUP_IDLE_POWER_OFF (R62): a group idle for `IDLE_SLOTS` slots powers off under `AUTO_GATE`, or any idle one because `DISABLE` holds it off. Its engines hold no key between
units (R271). -/
def execGroupIdlePowerOff (g : Fin 6) (s : State) : Host.Outcome State Fault Refusal :=
  s.onS (fun c =>
    let gate := (c.get F.PWR_CTRL_AUTO_GATE = 1 && c.idleFor g.val (c.get F.PWR_IDLE_CFG_IDLE_SLOTS)) || bit (c.get F.PWR_GRP_CTRL_DISABLE) (g.val - 1)
    if g.val = 0 || c.grp g.val != 2 || !gate || c.groupBusy g.val || c.groupKept g.val then c else c.setGrp g.val 0)

/-- CRYPTO_PLL_HOLD_EXPIRE (R59): no group on for `PLL_HOLD` slots and `PLL_KEEP` 0. -/
def execCryptoPllHoldExpire (s : State) : Host.Outcome State Fault Refusal :=
  s.onS (fun c =>
    if c.seq != .active || c.get F.PWR_CTRL_PLL_KEEP = 1 || [1, 2, 3, 4, 5].any (fun g => c.grp g == 1 || c.grp g == 2) ||
      !c.idleFor 0 (c.get F.PWR_IDLE_CFG_PLL_HOLD) then c
    else (c.put F.PWR_STATUS_CRY_PLL_LOCK 0).setSeq .service)

/-- `FORCE_ON` written: groups whose bit is set wake at once. -/
def Chip.forceOn (c : Chip) (mask : Nat) : Chip := (c.put F.PWR_GRP_CTRL_FORCE_ON mask).forced

/-- PWR_FORCE_ON (R62). -/
def execPwrForceOn (req : Req) (mask : BitVec 5) (s : State) : Host.Outcome State Fault Refusal :=
  s.onS (fun c => c.guarded req R.PWR_GRP_CTRL true (fun c => (c.wrote req).forceOn mask.toNat))

end Sys2Proof.Machine
end

