-- ==== Sys2Proof/Machine/Custody.lean ====
section
/-!
DEFINITION. The commands that reach the Custody cluster (R163 to R200, R253): its rings, the Custody commands, key requests and
answers, the journal's outcomes.
-/

namespace Sys2Proof.Machine

/-- `BOB_CQ_TAIL` written (R173): a tail beyond the ring's capacity is refused with event 0x1706. -/
def Chip.cqTail (c : Chip) (req : Req) (idx : Nat) : Chip :=
  if idx < c.cqSize then (c.put F.BOB_CQ_TAIL_IDX idx).cqSkip 1024
  else c.log 0x1706 uBOB (aClamp R.BOB_CQ_TAIL idx (c.get F.BOB_CQ_TAIL_IDX) req.toNat 0)

/-- BOB_CQ_TAIL_WRITE (R173). -/
def execBobCqTailWrite (req : Req) (idx : BitVec 10) (s : State) : Host.Outcome State Fault Refusal :=
  s.onS (fun c => c.guarded req R.BOB_CQ_TAIL true (fun c => (c.wrote req).cqTail req idx.toNat))

/-- `BOB_CPL_HEAD` written (R173): completions held behind a full ring are written. -/
def Chip.cplHead (c : Chip) (idx : Nat) : Chip :=
  let c := c.put F.BOB_CPL_HEAD_IDX idx
  (c.cplDrain c.cust.held.length).cqSkip 1024

/-- BOB_CPL_HEAD_WRITE (R173). -/
def execBobCplHeadWrite (req : Req) (idx : BitVec 10) (s : State) : Host.Outcome State Fault Refusal :=
  s.onS (fun c => c.guarded req R.BOB_CPL_HEAD true (fun c => (c.wrote req).cplHead idx.toNat))

/-- CREATE (R167, R168). -/
def execCreate (s : State) : Host.Outcome State Fault Refusal := s.onS (fun c => c.cqRow 0x01 Chip.cmdCreate)

/-- DERIVE (R168, R195). -/
def execDerive (s : State) : Host.Outcome State Fault Refusal := s.onS (fun c => c.cqRow 0x02 Chip.cmdDerive)

/-- COMMIT (R180). -/
def execCommit (s : State) : Host.Outcome State Fault Refusal := s.onS (fun c => c.cqRow 0x04 Chip.cmdCommit)

/-- ARM (R179). -/
def execArm (s : State) : Host.Outcome State Fault Refusal := s.onS (fun c => c.cqRow 0x05 Chip.cmdArm)

/-- CANCEL (R177). -/
def execCancel (s : State) : Host.Outcome State Fault Refusal := s.onS (fun c => c.cqRow 0x06 Chip.cmdCancel)

/-- FREEZE (Table 7.4). -/
def execFreeze (s : State) : Host.Outcome State Fault Refusal := s.onS (fun c => c.cqRow 0x07 Chip.cmdFreeze)

/-- DESTROY (Table 7.4). -/
def execDestroy (s : State) : Host.Outcome State Fault Refusal := s.onS (fun c => c.cqRow 0x08 Chip.cmdDestroy)

/-- RESUME (R186). -/
def execResume (s : State) : Host.Outcome State Fault Refusal := s.onS (fun c => c.cqRow 0x09 Chip.cmdResume)

/-- HISTORIC (R187). -/
def execHistoric (s : State) : Host.Outcome State Fault Refusal := s.onS (fun c => c.cqRow 0x0A Chip.cmdHistoric)

/-- READ (R174). -/
def execBobRead (s : State) : Host.Outcome State Fault Refusal := s.onS (fun c => c.cqRow 0x0B Chip.cmdRead)

/-- FENCE_COMMAND (R175). -/
def execFenceCommand (s : State) : Host.Outcome State Fault Refusal := s.onS (fun c => c.cqRow 0x0F Chip.cmdFence)

/-- KEY_REQ (R170, R193): answered by the lease holder. -/
def execKeyReq (s : State) : Host.Outcome State Fault Refusal :=
  s.onS (fun c => c.onFrame 0x01 (fun c m =>
    let c := c.trace 7 1 0 (m.payload.take 16)
    if c.leads then
      c.keyServe { src := m.src, bob := numAt m.payload 0 4 % 2 ^ 20, epoch := numAt m.payload 4 4, reqId := numAt m.payload 8 4, time := m.time }
    else c))

/-- BLOB_LOAD_DONE (R169, R170). -/
def execBlobLoadDone (bobbin : Nat) (bytes : List Byte) (s : State) : Host.Outcome State Fault Refusal :=
  s.onS (fun c => if c.svcUp && c.get F.DMA_STATUS_STOPPED = 0 then c.blobDone bobbin bytes else c)

/-- KAT_DONE (R178). -/
def execKatDone (ch : Nat) (frame : WarpFrame) (s : State) : Host.Outcome State Fault Refusal :=
  s.onS (fun c => if c.svcUp && ch < 8 && frame.op = 0x81 then c.warpReply ch frame else c)

/-- WARP_ACK (R179). -/
def execWarpAck (ch : Nat) (frame : WarpFrame) (s : State) : Host.Outcome State Fault Refusal :=
  s.onS (fun c => if c.svcUp && ch < 8 && frame.op = 0x87 then c.warpReply ch frame else c)

/-- WARP_FRAME_CRC_FAIL (R31). -/
def execWarpFrameCrcFail (ch : Nat) (s : State) : Host.Outcome State Fault Refusal :=
  s.onS (fun c => if c.svcUp && ch < 8 then c.warpBad ch else c)

/-- WARP_ANSWER_TIMEOUT (R32). -/
def execWarpAnswerTimeout (ch : Nat) (s : State) : Host.Outcome State Fault Refusal :=
  s.onS (fun c => if c.svcUp && ch < 8 then c.warpLate ch else c)

/-- KEY_PUSH_ACK (R194). -/
def execKeyPushAck (s : State) : Host.Outcome State Fault Refusal := s.onS (fun c => c.onFrame 0x04 Chip.pushAck)

/-- LIMIT_REPORT (R191). -/
def execLimitReport (ch : Nat) (frame : WarpFrame) (s : State) : Host.Outcome State Fault Refusal :=
  s.onS (fun c => c.report (ch % 8) frame (fun c _ f => c.limitHit f.bobbin f.epoch))

/-- JOURNAL_PROGRAM_DONE (R188). -/
def execJournalProgramDone (good : Bool) (s : State) : Host.Outcome State Fault Refusal :=
  s.onS (fun c => if c.svcUp then c.jProgrammed good else c)

/-- JOURNAL_SECTOR_ERASE_DONE (R182). -/
def execJournalSectorEraseDone (s : State) : Host.Outcome State Fault Refusal := s.onS (fun c => if c.svcUp then c.jErased else c)

/-- JOURNAL_SECTOR_WAIT_TIMEOUT (R182): what has waited 100 ms for a sector completes with BUSY. -/
def execJournalSectorWaitTimeout (s : State) : Host.Outcome State Fault Refusal :=
  s.onS (fun c => if c.svcUp && c.jWaits then c.jForget.holdsFail .busy else c)

/-- BOBBIN_RECORD_UNCORRECTABLE (R189). -/
def execBobbinRecordUncorrectable (bobbin : Nat) (fromPartner : Bool) (s : State) : Host.Outcome State Fault Refusal :=
  s.onS (fun c =>
    match c.bob? bobbin with
    | none =>
      if !c.svcUp || c.repairing bobbin then c
      else
        let c := (c.put F.BOB_REC_ERR_VALID 1).put F.BOB_REC_ERR_BOBBIN bobbin
        (c.cu (fun u => { u with repair := u.repair ++ [(bobbin, fromPartner && c.pkg != .hx4 && c.linked)] })).logBob 0x3702 bobbin 0 .integrity 0
    | some b =>
      if !c.svcUp || c.repairing bobbin then c
      else
        let c := (c.put F.BOB_REC_ERR_VALID 1).put F.BOB_REC_ERR_BOBBIN bobbin
        (c.cu (fun u => { u with repair := u.repair ++ [(bobbin, fromPartner && c.pkg != .hx4 && c.linked)] })).logBob 0x3702 bobbin b.epoch .integrity 0)

/-- CACHE_REMASK (R172): 32 free bytes are XORed into both shares of every entry. -/
def execCacheRemask (s : State) : Host.Outcome State Fault Refusal :=
  s.onS (fun c =>
    if !c.svcUp then c
    else
      let r := c.cust.cache.foldl (fun (acc : Chip × List CEnt) e =>
        let d := acc.1.rnd 32
        (d.2, acc.2 ++ [{ e with s0 := xorBytes e.s0 d.1, s1 := xorBytes e.s1 d.1 }])) (c, [])
      r.1.cu (fun u => { u with cache := r.2 }))

/-- DST_CACHE_FLUSH (Table 7.18). -/
def execDstCacheFlush (req : Req) (s : State) : Host.Outcome State Fault Refusal :=
  s.onS (fun c => c.guarded req R.DST_CACHE_CTRL true (fun c => (c.wrote req).cacheDrop (fun e => !e.pinned)))

/-- Warp channels return to OK (R178), each the far channel of its number too (assumption 29). -/
def Chip.warpClear (c : Chip) (mask : Nat) : Chip :=
  c.each (bitsIn mask 8) (fun c i =>
    let c := if c.chSt i = 0 then c else c.chPut i 1
    (c.cu (fun u => { u with chFar := tdel u.chFar i, silent := u.silent.filter (fun x => x.1 % 8 != i) })))

/-- BOB_WARP_CLEAR (R178). -/
def execBobWarpClear (req : Req) (mask : BitVec 8) (s : State) : Host.Outcome State Fault Refusal :=
  s.onS (fun c => c.guarded req R.BOB_WARP_CTRL true (fun c => (c.wrote req).warpClear mask.toNat))

/-- DEADLINE_NEAR (R253). -/
def execDeadlineNear (bobbin : Nat) (s : State) : Host.Outcome State Fault Refusal :=
  s.onS (fun c => if c.leads then c.deadlineNear bobbin else c)

/-- DEADLINE_PASSED (R253). -/
def execDeadlinePassed (bobbin : Nat) (s : State) : Host.Outcome State Fault Refusal :=
  s.onS (fun c => if c.leads then c.deadlinePast bobbin else c)

end Sys2Proof.Machine
end

