-- ==== Sys2Proof/Machine/Digest.lean ====
section
/-!
DEFINITION. The commands of digest contexts (R272 to R279).
-/

namespace Sys2Proof.Machine

/-- A write of `DGT_CTXn_CTRL` that R14 lets through; one by a requester other than the owner of an open context is refused under R14. -/
def Chip.cxCommand (c : Chip) (req : Req) (n : Nat) (f : Chip → Chip) : Chip :=
  c.guarded req (R.DGT_CTXn_CTRL n) true (fun c =>
    if c.cxSt n != 0 && c.cxOwner n != req.toNat then c.refuse 0x1601 req (R.DGT_CTXn_CTRL n) true 0 else f (c.wrote req))

/-- OPEN (R272, R278). -/
def execDgtOpen (req : Req) (n : BitVec 6) (value : Word) (s : State) : Host.Outcome State Fault Refusal :=
  s.onS (fun c => c.cxCommand req n.toNat (fun c => c.cxOpen req n.toNat value))

/-- FINAL (R275, R278); without effect on a FREE context. -/
def execDgtFinal (req : Req) (n : BitVec 6) (s : State) : Host.Outcome State Fault Refusal :=
  s.onS (fun c => c.cxCommand req n.toNat (fun c => c.cxFinal n.toNat))

/-- CLOSE (R278): a context in any state but FREE is erased. -/
def execDgtClose (req : Req) (n : BitVec 6) (s : State) : Host.Outcome State Fault Refusal :=
  s.onS (fun c => c.cxCommand req n.toNat (fun c => if c.cxSt n.toNat = 0 then c else c.cxFree n.toNat))

/-- DGT_FEED (R273, R277): an aligned 32-bit or 64-bit store to a feed port. Bursts of a DMA channel are the channel's own. -/
def execDgtFeed (req : Req) (n : BitVec 6) (data : List Byte) (s : State) : Host.Outcome State Fault Refusal :=
  s.onS (fun c =>
    let off := R.DGT_CTXn_FEED n.toNat
    c.guarded req off true (fun c =>
      if data.length != 4 && data.length != 8 then c.refuse 0x1204 req off true 0
      else
        let r := c.cxFeed n.toNat 0 req.toNat data
        r.1.respond req r.2 0))

/-- DIGEST_ABSORBED (R275). -/
def execDigestAbsorbed (n : BitVec 6) (s : State) : Host.Outcome State Fault Refusal := s.onS (fun c => c.cxAbsorb n.toNat)

/-- DGT_RESULT_READ (R276). -/
def execDgtResultRead (req : Req) (n : BitVec 6) (s : State) : Host.Outcome State Fault Refusal :=
  s.onS (fun c => c.guarded req (R.DGT_CTXn_RESULT n.toNat) false (fun c =>
    let r := c.cxRead n.toNat
    r.1.respond req true r.2))

end Sys2Proof.Machine
end

