-- ==== Sys2Proof/Machine/Lanes.lean ====
section
/-!
DEFINITION. The commands of lanes, entropy sources and the DRBG (R281, R282, R284, R290, R291).
-/

namespace Sys2Proof.Machine

/-- Source 0 or 1. -/
def srcOf (b : Bool) : Nat := b2n b

/-- ENTROPY_HEALTH_FAIL (R281, R282): 1,024 samples of a source that delivers fail a health test. -/
def execEntropyHealthFail (source : Bool) (window : List Byte) (s : State) : Host.Outcome State Fault Refusal :=
  s.onCutS (fun c => if c.svcUp && c.entSt (srcOf source) = 0 && healthFails window then c.entHealth (srcOf source) else c)

/-- ENTROPY_RETEST_DONE (R281, R282): the start-up test of a source in RETEST or CALIBRATING ends over 1,024 samples. -/
def execEntropyRetestDone (source : Bool) (window : List Byte) (s : State) : Host.Outcome State Fault Refusal :=
  s.onCutS (fun c =>
    if c.svcUp && (c.entSt (srcOf source) = 1 || c.entSt (srcOf source) = 2) then c.entTested (srcOf source) (!healthFails window) else c)

/-- A calibration asked for (R282): refused unless the other source is OK. -/
def Chip.entCalibrate (c : Chip) (source : Bool) : Chip :=
  if c.entSt (1 - srcOf source) = 0 && c.entSt (srcOf source) != 3 then c.entSet (srcOf source) 2 else c

/-- ENTROPY_CALIBRATE (R282). -/
def execEntropyCalibrate (req : Req) (source : Bool) (s : State) : Host.Outcome State Fault Refusal :=
  s.onS (fun c => c.guarded req R.CRY_ENT true (fun c => (c.wrote req).entCalibrate source))

/-- DRBG_KAT_FAIL (R284). -/
def execDrbgKatFail (s : State) : Host.Outcome State Fault Refusal := s.onCutS (fun c => if c.svcUp then c.katFail else c)

/-- SELFTEST_REQUEST (R291): `CRY_SELFTEST.REQ` written 1. -/
def execSelftestRequest (req : Req) (cls lane : BitVec 4) (s : State) : Host.Outcome State Fault Refusal :=
  s.onS (fun c => c.guarded req R.CRY_SELFTEST true (fun c => (c.wrote req).laneAsk req cls.toNat lane.toNat))

/-- SELFTEST_PERIODIC (R291). -/
def execSelftestPeriodic (s : State) : Host.Outcome State Fault Refusal :=
  s.onS (fun c => if c.svcUp && c.get F.CRY_CTRL_SELFTEST_EN = 1 && c.periodDue then c.lanePeriod else c)

/-- LANE_DRAINED (R291). -/
def execLaneDrained (cls lane : Nat) (s : State) : Host.Outcome State Fault Refusal :=
  s.onS (fun c => if c.svcUp && decide (cls ≤ 5) && decide (lane < laneCount cls) && c.laneSt cls lane = 1 && (c.laneRuns cls).all (fun r => r.2.lane != some lane) then c.laneSet cls lane 2 else c)

/-- LANE_TEST_DONE (R291). -/
def execLaneTestDone (cls lane : Nat) (pass : Bool) (s : State) : Host.Outcome State Fault Refusal :=
  s.onCutS (fun c => if c.svcUp && decide (cls ≤ 6) && (cls = 6 || decide (lane < laneCount cls)) then c.laneTested cls lane pass else c)

/-- LANE_FAULT (R291). -/
def execLaneFault (cls lane : Nat) (unit : LaneUnit) (s : State) : Host.Outcome State Fault Refusal :=
  s.onS (fun c => if c.svcUp then c.laneFault cls lane unit else c)

end Sys2Proof.Machine
end

