-- ==== Sys2Proof/Machine/Mailbox.lean ====
section
/-!
DEFINITION. The mailbox commands (R145 to R152) and the notices of service calls (R155, R156).
-/

namespace Sys2Proof.Machine

/-- The lock register's offset. -/
def mbLockOff (ns : Bool) (n : Nat) : Nat := mbBase ns n + 0x48

/-- What a read of a lock register does and answers (R147): an eligible reader of a FREE mailbox takes the lock;
an owner's read restarts the lock timeout (R149). -/
def Chip.mbLockTake (c : Chip) (req : Req) (ns : Bool) (n : Nat) : Chip × Nat :=
  if c.mbSt ns n = 0 && mbEligible req ns n then
    (((c.mbPut ns n F.MBS_STATUSn_STATE 1).mbPut ns n F.MBS_STATUSn_OWNER req.toNat).mbTouch req ns n, 0)
  else (c.mbTouch req ns n, if c.mbOwner ns n = req.toNat then 0 else c.mbOwner ns n)

/-- MB_LOCK_READ (R147). -/
def execMbLockRead (req : Req) (ns : Bool) (n : Nat) (s : State) : Host.Outcome State Fault Refusal :=
  s.on (fun c => c.guarded req (mbLockOff ns n) false (fun c => let r := c.mbLockTake req ns n; r.1.respond req true r.2))

/-- A data word written, by the party whose turn it is (R148). -/
def Chip.mbDataPut (c : Chip) (req : Req) (ns : Bool) (n word : Nat) (value : Word) : Chip :=
  let off := mbBase ns n + 4 * (word % 16)
  if c.mbTurn req ns n then (c.mbTouch req ns n).mbWord ns n (word % 16) value else c.mbDenied req ns n off

/-- MB_DATA_WRITE (R148): taken from the party whose turn it is. -/
def execMbDataWrite (req : Req) (ns : Bool) (n word : Nat) (value : Word) (s : State) : Host.Outcome State Fault Refusal :=
  s.on (fun c => c.guarded req (mbBase ns n + 4 * (word % 16)) true (fun c => (c.wrote req).mbDataPut req ns n word value))

/-- What a `GO` meets (R148), in R9's order. -/
def Chip.mbGoStatus (c : Chip) (req : Req) (ns : Bool) (n words : Nat) : Status :=
  let ownerFull := c.mbSt ns n == 2 && req.toNat == c.mbOwner ns n
  firstStatus
    [(!c.mbTurn req ns n && !ownerFull, .denied), (words = 0 || decide (16 < words), .badArg), (ownerFull, .busy)]

/-- A service call with a `CALL` outside Table 6.10 returns BAD_ARG (R156). -/
def Chip.callUnknown (c : Chip) (n : Nat) : Chip :=
  match c.callAt n with
  | none => c
  | some k => if callCodes.contains k.code then c else c.answer k { st := .badArg }

/-- What a `GO` does (R146, R148); a reply to a mailbox whose owner was fenced frees it (R143); a fragment on MBN is taken by Roving (R158). -/
def Chip.mbGo (c : Chip) (req : Req) (ns : Bool) (n words : Nat) : Chip :=
  let st := c.mbGoStatus req ns n words
  if st = .denied then c.mbDenied req ns n (mbBase ns n + 0x40)
  else
    let q := c.mbSt ns n
    let c := (c.mbTouch req ns n).mbLast ns n st
    if st != .ok then c
    else if q = 2 then
      let c := if ns && bit (c.rd (mbBase true n)).toNat 9 then { c with cores := { c.cores with host := tdel c.cores.host n } } else c
      if !ns && c.cores.orphan.contains n then c.mbFree ns n else c.mbReplied ns n words
    else
      let c := c.mbFull ns n words
      if ns then c.hostTake n words else c.callUnknown n

/-- MB_GO (R146, R148). -/
def execMbGo (req : Req) (ns : Bool) (n words : Nat) (s : State) : Host.Outcome State Fault Refusal :=
  s.on (fun c => c.guarded req (mbBase ns n + 0x40) true (fun c => (c.wrote req).mbGo req ns n words))

/-- What a `RELEASE` does (R146, R148); without effect on a fixed lock. -/
def Chip.mbRelease (c : Chip) (req : Req) (ns : Bool) (n : Nat) : Chip :=
  if mbFixed ns n then c
  else if c.mbSt ns n = 0 || req.toNat != c.mbOwner ns n then c.mbDenied req ns n (mbLockOff ns n)
  else if c.mbSt ns n = 2 then c.mbLast ns n .busy
  else (c.mbFree ns n).mbLast ns n .ok

/-- MB_RELEASE (R146, R148). -/
def execMbRelease (req : Req) (ns : Bool) (n : Nat) (s : State) : Host.Outcome State Fault Refusal :=
  s.on (fun c => c.guarded req (mbLockOff ns n) true (fun c => (c.wrote req).mbRelease req ns n))

/-- Event 0x1603 of a mailbox. -/
def Chip.mbForced (c : Chip) (req : Nat) (ns : Bool) (n : Nat) : Chip :=
  c.log 0x1603 (mbUnit ns) (aAccess (mbLockOff ns n) req true (mbUnit ns) 0 n)

/-- What a `FORCE` does (R146, R150): the receiver drops a message; without effect on a fixed lock. -/
def Chip.mbForce (c : Chip) (req : Req) (ns : Bool) (n : Nat) : Chip :=
  if mbFixed ns n then c
  else if c.mbSt ns n = 2 && req.toNat = c.mbReceiver ns n then ((c.mbFree ns n).mbLast ns n .ok).mbForced req.toNat ns n
  else c.mbDenied req ns n (mbLockOff ns n)

/-- MB_FORCE (R146, R150). -/
def execMbForce (req : Req) (ns : Bool) (n : Nat) (s : State) : Host.Outcome State Fault Refusal :=
  s.on (fun c => c.guarded req (mbLockOff ns n) true (fun c => (c.wrote req).mbForce req ns n))

/-- MB_LOCK_TIMEOUT (R149): a lock held in LOCKED or REPLIED without an owner's access for `LOCK_TIMEOUT` slots is freed; it does not run in FULL. -/
def execMbLockTimeout (ns : Bool) (n : Nat) (s : State) : Host.Outcome State Fault Refusal :=
  s.on (fun c =>
    let q := c.mbSt ns n
    if c.svcUp && !mbFixed ns n && (q == 1 || q == 3) && c.mbStale ns n then
      let o := c.mbOwner ns n
      (c.mbFree ns n).mbForced o ns n
    else c)

/-- CORE_HELLO (R156): a core announces itself with its build. -/
def execCoreHello (n : Nat) (s : State) : Host.Outcome State Fault Refusal :=
  s.on (fun c => c.onCall n 0x0001 noGate (fun c _ _ => (c, { st := .ok })))

/-- SERVICE_CALL_COMPLETE (R155): Spindle sends the oldest notice of a core in MBS 6 + c once that mailbox is its own to fill. -/
def execServiceCallComplete (core : Nat) (s : State) : Host.Outcome State Fault Refusal :=
  s.on (fun c =>
    match tget c.cores.notices core [] with
    | [] => c
    | nt :: rest =>
      let n := 6 + core
      if !c.svcUp || 6 ≤ core || c.mbSt false n = 2 then c
      else
        let c := { c with cores := { c.cores with notices := tput c.cores.notices core rest } }
        let ws := [nt.call * 65536 + nt.tag * 256 + nt.status, nt.ticket, nt.used]
        let c := c.each (List.range 3) (fun c i => c.mbWord false n i (BitVec.ofNat 32 (ws.getD i 0)))
        ((c.mbLast false n .ok).mbFull false n 3).count 41 1)

end Sys2Proof.Machine
end

