-- ==== Sys2Proof/Machine/Operands.lean ====
section
/-!
DEFINITION. What a write operand does to a register's fields (R7, Table 0.4): access codes, the locks behind RWL fields, the ranges to
which the pages clamp, and the reserved encodings that leave an enumerated field as it was.
-/

namespace Sys2Proof.Machine

/-- Does a register offset hold a copy of field `f`? -/
def Fld.atOff (f : Fld) (off : Nat) : Bool := match regRow off with | some r => r.base == f.base | none => false

/-- Fields with a range: field, lowest value, highest value, the event of a clamp (R47, R67, R161, R162, R199, R200, R227, R294, R319,
R443, R510). -/
def fieldRanges : List (Fld × Nat × Nat × Nat) :=
  [ (F.SKN_RETRY_CFG_MAX_TRY, 2, 15, 0x1204), (F.SKN_RETRY_CFG_ACK_TIMEOUT, 8, 64, 0x1204), (F.SKN_STORM_CFG_SRC_LIMIT, 4, 1024, 0x1204),
    (F.SKN_STORM_CFG_THRESHOLD, 16, 1024, 0x1204), (F.PWR_IDLE_CFG_IDLE_SLOTS, 16, 65535, 0x1306), (F.MBS_CTRL_LOCK_TIMEOUT, 1024, 16777215, 0x1602),
    (F.MBN_CTRL_LOCK_TIMEOUT, 1024, 16777215, 0x1602), (F.COR_SPN_WDT_PERIOD, 1024, 16777215, 0x1601), (F.COR_ROV_WDT_PERIOD, 1024, 16777215, 0x1601),
    (F.BOB_CQ_CFG_LOG2, 4, 10, 0x1706), (F.DST_CACHE_CTRL_REMASK_SLOTS, 64, 16777215, 0x1706), (F.WHL_GRACE_SLOTS, 256, 1048576, 0x1806),
    (F.CRY_CTRL_PERIOD_LOG2, 16, 28, 0x1A06), (F.CRY_DRBG_CFG_RESEED_SLOTS, 1024, 65535, 0x1A06), (F.CRY_DRBG_CFG_RESEED_REQS, 1, 1024, 0x1A06),
    (F.CRY_CHn_CFG_LOG2, 2, 8, 0x1A06), (F.TLY_ACCn_LEN_ELEMS, 0, 32768, 0x1A06), (F.DMA_CHn_CFG_LOG2, 2, 10, 0x1B02), (F.PLY_CFG_PAIR_WAIT, 1000, 60000, 0x1F02),
    (F.DBG_CNT_CFG_K, 4, 24, 0x1025), (F.DBG_TRt_CTRL_POST, 0, 126, 0x1025) ]

/-- Enumerated fields with the number of their encodings; encodings from there on are reserved (R7). -/
def fieldNames : List (Fld × Nat) :=
  [ (F.WHL_XPKG_CTRL_MODE, 3), (F.MBN_CFGn_ROUTE, 6), (F.CRY_SELFTEST_CLASS, 7), (F.TLY_ACCn_CFG_FMT, 3), (F.DBG_TRt_CTRL_TRIG_CLASS, 5),
    (F.DBG_CNTi_CFG_RESET_SEL, 5) ]

/-- Is the lock set that governs the RWL fields of a register (R47, R136, R199, R227, R294, R319, R380, R457, R504)? -/
def Chip.fieldLocked (c : Chip) (off : Nat) : Bool :=
  match regRow off with
  | none => false
  | some r =>
    let n := if r.stride = 0 then 0 else (off - r.base) / r.stride
    if r.base = R.COR_SPN_CTRL then c.get F.COR_SPN_CTRL_CODE_WP == 1
    else if r.base = 0x401C then c.get F.SNG_CTRL_BASE_LOCK == 1
    else if 0xA000 ≤ off && off < 0xB000 then c.get F.BOB_CTRL_EN == 1
    else if 0xC100 ≤ off && off < 0xC500 then c.geti F.CRY_CHn_CFG_EN ((off - 0xC100) / 0x20) == 1
    else if 0xDC00 ≤ off && off < 0xE000 then c.geti F.DGT_TWn_CTRL_OPEN n == 1
    else if 0xF100 ≤ off && off < 0xF900 then c.geti F.DMA_CHn_CFG_EN ((off - 0xF100) / 0x40) == 1
    else c.get F.SKN_CTRL_CFG_LOCK == 1

/-- The bits of a register set from `lo` to `hi`. -/
def Chip.bitsPut (c : Chip) (off hi lo v : Nat) : Chip := c.wr off (wset hi lo v (c.rd off))

/-- A value written to the field at bits `hi:lo`: a reserved encoding leaves the field (event 0x1033), a value out of range is clamped with
its page's event. -/
def Chip.fieldPut (c : Chip) (req : Req) (off hi lo v : Nat) : Chip :=
  match fieldNames.find? (fun e => e.1.lo == lo && e.1.atOff off) with
  | some e =>
    if v < e.2 then c.bitsPut off hi lo v
    else c.log 0x1033 (unitOfOffset off) (aClamp off v (wget hi lo (c.rd off)) req.toNat lo)
  | none =>
    match fieldRanges.find? (fun e => e.1.lo == lo && e.1.atOff off) with
    | some e =>
      let k := clampTo e.2.1 e.2.2.1 v
      (c.bitsPut off hi lo k).when (k != v) (fun c => c.log e.2.2.2 (unitOfOffset off) (aClamp off v k req.toNat lo))
    | none => c.bitsPut off hi lo v

/-- The bits of `a` that `b` does not have. -/
def without (a b : Nat) : Nat := Nat.xor a (Nat.land a b)

/-- One field of a register written, by its access code (Table 0.4); `locked` is the lock of its RWL fields before the write. -/
def Chip.fieldWrite (c : Chip) (req : Req) (off : Nat) (w : Word) (locked : Bool) (f : FieldRow) : Chip :=
  let v := wget f.hi f.lo w
  let old := wget f.hi f.lo (c.rd off)
  match f.acc with
  | .ro => c
  | .rs => c
  | .wo => c
  | .rw => c.fieldPut req off f.hi f.lo v
  | .rwl => if locked then c else c.fieldPut req off f.hi f.lo v
  | .w1c => c.bitsPut off f.hi f.lo (without old v)
  | .w1s => c.bitsPut off f.hi f.lo (Nat.lor old v)

/-- Every field of a register written; an offset that no register occupies ignores the write (R512). -/
def Chip.fieldsWrite (c : Chip) (req : Req) (off : Nat) (w : Word) : Chip :=
  match regRow off with
  | none => c
  | some r => let locked := c.fieldLocked off; c.each r.fields (fun c f => c.fieldWrite req off w locked f)

/-- The bits of a register that a read shows: every field but the write-only ones, whose reads return 0. -/
def readMask (off : Nat) : Word :=
  match regRow off with
  | none => 0
  | some r => r.fields.foldl (fun m f => match f.acc with | .wo => m | _ => m ||| wmask f.hi f.lo) 0

end Sys2Proof.Machine
end

