-- ==== Sys2Proof/Machine/Ply.lean ====
section
/-!
DEFINITION. The commands of the Ply pair (R418 to R443).
-/

namespace Sys2Proof.Machine

/-- A write to `PLY_CTRL`. -/
def Chip.plyCtrl (c : Chip) (req : Req) (f : Chip → Chip) : Chip := c.guarded req R.PLY_CTRL true (fun c => f (c.wrote req))

/-- LINK_EN (R420). -/
def execLinkEn (req : Req) (value : Bool) (s : State) : Host.Outcome State Fault Refusal :=
  s.onS (fun c => c.plyCtrl req (fun c =>
    let c := c.put F.PLY_CTRL_LINK_EN (b2n value)
    if value then c.linkTrain else c))

/-- PLY_RETRAIN (Table 15.13). -/
def execPlyRetrain (req : Req) (s : State) : Host.Outcome State Fault Refusal := s.onS (fun c => c.plyCtrl req Chip.linkTrain)

/-- HELLO (R28, R420). -/
def execHello (body : List Byte) (s : State) : Host.Outcome State Fault Refusal := s.onS (fun c => c.helloIn body)

/-- AUTH (R420). -/
def execAuth (point kem : List Byte) (certs sigs : List (List Byte)) (genuine : Bool) (s : State) : Host.Outcome State Fault Refusal :=
  s.onS (fun c => if c.svcUp then c.authIn point kem certs sigs genuine else c)

/-- PLY_FRAME_CHECK_FAIL (R419). -/
def execPlyFrameCheckFail (typ pseq : Nat) (s : State) : Host.Outcome State Fault Refusal :=
  s.onS (fun c =>
    if !c.svcUp || c.pkg = .hx4 then c
    else
      let c := (c.add F.PLY_LINK_BAD 1).log 0x1F02 uPLY (aFrame typ 0 0 0 pseq 0 1 Status.integrity.code (c.get F.PLY_LINK_BAD + 1))
      c.plySend 0x11 (le 8 c.ply.rxSeq))

/-- LINK_NAK (R419): the frames from the one named on are sent again. -/
def execLinkNak (pseq : Nat) (s : State) : Host.Outcome State Fault Refusal :=
  s.onS (fun c =>
    if !c.linked then c
    else
      let fs := c.ply.sent.filter (fun f => decide (pseq ≤ f.pseq))
      ((c.plyGot 0x11).each fs (fun c f => c.send (.ply f))).add F.PLY_LINK_RESENT fs.length)

/-- HEARTBEAT_SEND (R421); a halted Spindle pair sends none (R489). -/
def execHeartbeatSend (s : State) : Host.Outcome State Fault Refusal :=
  s.onS (fun c => if c.linked && c.ply.sleeping != 3 && c.get F.DBG_STATUS_SPN_HALTED == 0 then c.plySend 0x10 c.beatBody else c)

/-- PLY_HEARTBEAT (R421). -/
def execPlyHeartbeat (body : List Byte) (peer : Peer) (s : State) : Host.Outcome State Fault Refusal :=
  s.onS (fun c => if c.linked then (c.beatIn body).pl (fun p => { p with peer := peer }) else c)

/-- PARTNER_LOST (R421): eight heartbeats in a row are missing. The lead in a sleep handshake then goes to sleep itself (R441). -/
def execPartnerLost (s : State) : Host.Outcome State Fault Refusal :=
  s.onCutS (fun c =>
    if !c.linked || c.ply.lost || c.slot < c.ply.beatAt + 9 then c
    else
      let c := c.partnerLost
      if c.role = 5 && c.ply.sleeping = 2 then c.sleepLead else c)

/-- MIRROR_ACK_TIMEOUT (R421): an item unacknowledged for 8 slots. -/
def execMirrorAckTimeout (s : State) : Host.Outcome State Fault Refusal :=
  s.onS (fun c =>
    if c.role = 5 && c.waitsPartner && decide (c.ply.macked < c.ply.mseq) && decide (c.ply.oldest + 8 ≤ c.slot) && !c.ply.lost then c.partnerLost else c)

/-- MIRROR (R423). -/
def execMirror (mseq : Nat) (item : MItem) (s : State) : Host.Outcome State Fault Refusal := s.onS (fun c => c.mirrorIn mseq item)

/-- MIRROR_ACK (R423). -/
def execMirrorAck (mseq : Nat) (s : State) : Host.Outcome State Fault Refusal :=
  s.onS (fun c =>
    if !c.linked then c
    else
      let c := c.plyGot 0x21
      let m := max c.ply.macked (min mseq c.ply.mseq)
      (c.pl (fun p => { p with macked := m, oldest := c.slot })).put64 R.PLY_MACK_LO m)

/-- RELAY (R424): the frame goes out on this instance's own channel; a descriptor makes the tree root zero here too (R240). -/
def execRelay (ch : Nat) (frame : WarpFrame) (s : State) : Host.Outcome State Fault Refusal :=
  s.onS (fun c => if c.linked then
    ((if frame.op = 1 && frame.sub = 0xFFFC then c.rootZero frame.bobbin else c).plyGot 0x30).warpPut (ch % 8) { frame := frame, relayed := true } else c)

/-- RELAY_ANS (R424): the answer to a relayed frame, or a report of the partner's base die. -/
def execRelayAns (ch : Nat) (frame : WarpFrame) (s : State) : Host.Outcome State Fault Refusal :=
  s.onS (fun c =>
    if !c.linked then c
    else
      let c := c.plyGot 0x31
      match c.ply.relay.find? (fun r => r.1 == ch % 8 && answers frame r.2) with
      | some r =>
        let c := c.pl (fun p => { p with relay := p.relay.erase r })
        let st := (Status.ofCode frame.result).getD .integrity
        if st = .integrity && r.2.op != 1 then c.warpSilent (ch % 8 + 8) r.2 else c.warpAnswer (ch % 8 + 8) r.2 st
      | none => if c.leads then c.unsolicited (ch % 8 + 8) frame else c)

/-- RELAY_ANSWER_TIMEOUT (R424). -/
def execRelayAnswerTimeout (ch : Nat) (s : State) : Host.Outcome State Fault Refusal :=
  s.onS (fun c =>
    match c.ply.relay.find? (fun r => r.1 == ch % 8) with
    | some r => (c.pl (fun p => { p with relay := p.relay.erase r })).warpSilent (ch % 8 + 8) r.2
    | none => c)

/-- RESYNC_REQ (R436). -/
def execResyncReq (jseq jdur : Nat) (s : State) : Host.Outcome State Fault Refusal :=
  s.onS (fun c => (if c.linked && c.role == 5 then c.jr (fun j => { j with partnerDur := jdur }) else c).resyncReq jseq)

/-- RESYNC_DATA (R436). -/
def execResyncData (part : ResPart) (s : State) : Host.Outcome State Fault Refusal := s.onS (fun c => c.resyncData part)

/-- RESYNC_COMPLETE (R436, Table 15.1). -/
def execResyncComplete (s : State) : Host.Outcome State Fault Refusal := s.onS Chip.resyncDone

/-- HANDOVER_FRAME (R439): the fresh follow becomes the successor. -/
def execHandoverFrame (mseq lease : Nat) (s : State) : Host.Outcome State Fault Refusal :=
  s.onS (fun c =>
    if !c.linked || c.role != 3 || c.ply.applied < mseq then c
    else
      let c := ((c.plyGot 0x50).setRole 4).wr R.PLY_LEASE (BitVec.ofNat 32 lease)
      let c := (c.pl (fun p => { p with op := 5, asked := c.slot + 2048, askedAt := c.slot, got := [], grants := [] })).grantRegs
      (c.groupNeed 1).groupNeed 2)

/-- SLEEP_FRAME (R441): the follow answers, stops heartbeating and requests sleep; while it knows
of a hank it does not (R64). -/
def execSleepFrame (s : State) : Host.Outcome State Fault Refusal :=
  s.onCutS (fun c =>
    if !c.linked || c.role != 3 || !c.hanks.tab.isEmpty then c
    else (((c.plyGot 0x60).plySend 0x61 []).pl (fun p => { p with sleeping := 3 })).sleepRequest)

/-- SLEEP_ACK (R441): the lead waits for the follow to be declared lost. -/
def execSleepAck (s : State) : Host.Outcome State Fault Refusal :=
  s.onS (fun c => if c.linked && c.ply.sleeping = 1 then (c.plyGot 0x61).pl (fun p => { p with sleeping := 2 }) else c)

/-- LEASE_GRANT (R426 to R428, R433). -/
def execLeaseGrant (s : State) : Host.Outcome State Fault Refusal := s.onS (fun c => c.onFrame 0x11 Chip.granted_)

/-- LEASE_RENEW (R425): every 1,024 slots from the lease's taking; every 64 until a quorum has granted. -/
def execLeaseRenew (s : State) : Host.Outcome State Fault Refusal :=
  s.onS (fun c =>
    if c.role != 5 then c
    else
      let mask := c.ply.newFresh.getD c.ply.fresh
      if c.ply.op = 2 && decide (c.ply.askedAt + 64 ≤ c.slot) then
        (c.pl (fun p => { p with askedAt := c.slot })).ringBroadcast 0x10 (c.leaseBody 2 mask 0xFF c.leaseNum c.ply.asked)
      else if decide (c.ply.taken + 1024 ≤ c.slot) then
        (c.pl (fun p => { p with taken := p.taken + 1024 * ((c.slot - p.taken) / 1024) })).renew mask
      else c)

/-- LEASE_EXPIRY_MARGIN (R425). -/
def execLeaseExpiryMargin (s : State) : Host.Outcome State Fault Refusal :=
  s.onS (fun c => if c.role = 5 && decide (c.grantsGood < c.pkg.quorum) then c.leadLost 0x2F02 0 else c)

/-- TAKEOVER_REPEAT (R429). -/
def execTakeoverRepeat (s : State) : Host.Outcome State Fault Refusal :=
  s.onS (fun c =>
    if c.role = 4 && (c.ply.op = 3 || c.ply.op = 1) && decide (c.ply.askedAt + 64 ≤ c.slot) then c.leaseAsk c.ply.op c.ownFresh c.leaseNum 0 else c)

/-- CANDIDATE_TIMEOUT (R433). -/
def execCandidateTimeout (s : State) : Host.Outcome State Fault Refusal :=
  s.onS (fun c =>
    if c.role = 4 && c.ply.op = 3 && (decide (c.slotsTo (c.ply.leadExpiry + 16) = 0) || decide (2 ^ 31 ≤ c.slotsTo (c.ply.leadExpiry + 16))) && decide (c.grantsGood < c.pkg.quorum) then
      ((((c.setRole 1).pl (fun p => { p with op := 0, grants := [], fresh := 0 })).grantRegs).linkLog 0x1F04 0).askResync
    else c)

/-- PROMOTE (R431). -/
def execPromote (s : State) : Host.Outcome State Fault Refusal := s.onS Chip.promote

/-- PAIR_WAIT_EXPIRE (R418): no authenticated partner within `PAIR_WAIT`. -/
def execPairWaitExpire (s : State) : Host.Outcome State Fault Refusal :=
  s.onS (fun c =>
    if c.svcUp && c.pkg != .hx4 && c.get F.PLY_CTRL_LINK_EN = 1 && c.role = 0 && !c.linked && !c.ply.waited then
      ((c.pl (fun p => { p with waited := true })).linkLog 0x2F05 0).cardFirst
    else c)

/-- The empty start (R437): ignored outside LINKING after `PAIR_WAIT`. -/
def Chip.startEmpty (c : Chip) : Chip :=
  if c.role != 0 || !c.ply.waited || c.linked || c.sidesEqual || !c.jOpen || c.jFailed || c.pkg = .hx4 then c
  else
    let c := c.each c.jHanks (fun c h => (c.jWrite { jseq := 0, op := 0x11, hank := h, first := 0xFFFFFFFF, last := 0xFFFFFFFF }).1)
    (c.candidate 1 (c.get64 R.BOB_JSEQ_LO - 1)).linkLog 0x3F02 0

/-- START_EMPTY (R437). -/
def execStartEmpty (req : Req) (s : State) : Host.Outcome State Fault Refusal := s.onS (fun c => c.plyCtrl req Chip.startEmpty)

/-- HANDOVER (R439). -/
def execHandover (req : Req) (s : State) : Host.Outcome State Fault Refusal := s.onS (fun c => c.plyCtrl req Chip.handoverStart)

/-- HANDOVER_TIMEOUT (R439): the successor lacks a quorum 32 slots after the HANDOVER frame. -/
def execHandoverTimeout (s : State) : Host.Outcome State Fault Refusal :=
  s.onS (fun c =>
    if c.role = 4 && c.ply.op = 5 && decide (c.ply.askedAt + 32 ≤ c.slot) && decide (c.grantsGood < c.pkg.quorum) then
      let c := c.ringBroadcast 0x10 (c.leaseBody 4 0 0xFF c.leaseNum c.slot)
      ((c.setRole 3).pl (fun p => { p with op := 0, grants := [], fresh := 3 })).grantRegs
    else c)

/-- SLEEP_HS (R441). -/
def execSleepHs (req : Req) (s : State) : Host.Outcome State Fault Refusal := s.onS (fun c => c.plyCtrl req Chip.sleepStart)

/-- HANDOVER_COMPLETE (R439). -/
def execHandoverComplete (s : State) : Host.Outcome State Fault Refusal := s.onS Chip.handoverEnd

end Sys2Proof.Machine
end

