-- ==== Sys2Proof/Machine/Ring.lean ====
section
/-!
DEFINITION. Commands of the fabric port and the Skein ring (R29 to R47) that end in the ring interface itself. Those that reach further
(RING_STATE, RING_ACK_TIMEOUT, SPLICE_CLOSE, EVENT_FWD) stand in Machine/RingLate.lean.
-/

namespace Sys2Proof.Machine

/-- FABRIC_ACCESS_ERROR (R29, R134): an access of `size` bytes at the target port of a wrong size, alignment or range, or with requester number 0
or 0xF0 to 0xFF; one that R29 admits is no such command. -/
def execFabricAccessError (req : Req) (addr size : Nat) (write : Bool) (s : State) : Host.Outcome State Fault Refusal :=
  s.on (fun c =>
    if shapeOk addr size write && req.toNat != 0 && decide (req.toNat < 0xF0) then c
    else
      let u := if addr < 0x60000 then unitOfOffset addr else uGEN
      (c.respond req false 0).log 0x1204 u (aAccess addr req.toNat write u 0 0))

/-- PAGE_ACCESS_REFUSED (R14): an access that Table 1.5 does not grant, with `REQ_SEC` as `sec` says; one that it grants is no such command. -/
def execPageAccessRefused (req : Req) (off : Nat) (write sec : Bool) (s : State) : Host.Outcome State Fault Refusal :=
  s.on (fun c =>
    let c := { c with pins := { c.pins with reqSec := sec } }
    if !badReq req && c.powered off && c.granted req off write then c else c.guarded req off write id)

/-- SKEIN_FRAME_RECEIVE (R39): a frame arrives on the ring. -/
def execSkeinFrameReceive (bytes : List Byte) (s : State) : Host.Outcome State Fault Refusal := s.onCut (fun c => c.ringReceive bytes)

/-- AUTH_FAIL_WINDOW_END (R44, R518): the windows of 1,024 slots start again. -/
def execAuthFailWindowEnd (s : State) : Host.Outcome State Fault Refusal :=
  s.on (fun c => ({ c with ring := { c.ring with fails := [], fwdSeen := [], fwdBad := [] } }).put F.SKN_AUTH_FAIL_WINDOW 0)

/-- RING_ACK (R42): result 0x00 or 0x01 releases the held frame; 0x02 leaves it to its retry. -/
def execRingAck (s : State) : Host.Outcome State Fault Refusal :=
  s.on (fun c => c.onFrame 0x7E (fun c m =>
    let seq := numAt m.payload 0 4
    if numAt m.payload 4 1 ≤ 1 then
      { c with ring := { c.ring with held := c.ring.held.filter (fun h => !(h.frame.seq == seq && h.frame.dst == m.src)) } }
    else c))

/-- SPLICE_FORCE (R45): taken from the partner while its heartbeats say that it holds the lease (state LEAD), and, with no link to say so,
from the partner while this instance holds none (assumption 147); a bridge drops the hold, a release frees the node. -/
def execSpliceForce (s : State) : Host.Outcome State Fault Refusal :=
  s.on (fun c => c.onFrame 0x71 (fun c m =>
    if numAt m.payload 1 1 != c.node || m.src != c.partnerNode || c.leads || (c.linked && !c.ply.lost && c.ply.partner != 5) then c
    else if numAt m.payload 0 1 = 1 then Chip.spliceDrop { c with ring := { c.ring with forced := true } }
    else if numAt m.payload 0 1 = 2 then { c with ring := { c.ring with forced := false } }
    else c))

/-- SEGMENT_RETRAINED (R45, Table 2.7): the segment between two live nodes carries frames again. At an end of it this instance regains
lane lock and sends the mended notice; with both segments trained an opening Splice is in the ring; a closed one is bridged by the
segment that spans it, and by no other Splice's. -/
def execSegmentRetrained (endA endB : Nat) (s : State) : Host.Outcome State Fault Refusal :=
  s.on (fun c =>
    match c.ring.splice with
    | .retrain =>
      if endA = c.node || !decide (cwHops c.pkg endA c.node < cwHops c.pkg endA endB) then c else (c.setSplice .bridged).log 0x0202 uSKN (aFrame 0x70 endA endB 0 0 c.ring.rkey 0 0 0)
    | .bridged => c
    | .closing => c
    | _ =>
      if endA = c.node || endB = c.node then
        let c := (if endB = c.node then c.put F.SKN_STATUS_CW_LOCK 1 else c.put F.SKN_STATUS_CC_LOCK 1).ringTrained (endB == c.node)
        let up := c.get F.SKN_STATUS_CW_LOCK = 1 && c.get F.SKN_STATUS_CC_LOCK = 1
        let c := if c.ring.splice = .opening && up then c.setSplice .inRing else c
        if c.ring.splice = .inRing then
          (c.noteMended endA endB).ringBroadcast 0x70 (ringStatePayload 2 endA endB c.time)
        else c
      else c)

/-- NODE_READY (R46): this node, trained and powered and not forced, raises its hold; a neighbour that does so breaks the lane of
its side until that segment re-trains. -/
def execNodeReady (node : Nat) (s : State) : Host.Outcome State Fault Refusal :=
  s.on (fun c =>
    if node = c.node then
      if c.ring.splice = .bridged && !c.ring.forced && c.svcUp && c.get F.SKN_CTRL_RING_EN = 1 then
        Chip.setSplice { c with pins := { c.pins with spliceHold := true } } .opening
      else c
    else if c.ring.splice = .inRing && !c.present node then
      let cw := (c.neighbour false).map (cwHops c.pkg c.node)
      let cc := (c.neighbour true).map (fun m => cwHops c.pkg m c.node)
      if cw.all (fun h => decide (cwHops c.pkg c.node node < h)) then c.put F.SKN_STATUS_CC_LOCK 0
      else if cc.all (fun h => decide (cwHops c.pkg node c.node < h)) then c.put F.SKN_STATUS_CW_LOCK 0
      else c
    else c)

/-- RETRAIN (R47). -/
def execRetrain (req : Req) (s : State) : Host.Outcome State Fault Refusal :=
  s.on (fun c => c.guarded req R.SKN_CTRL true (fun c => (c.wrote req).retrainRing))

/-- RING_EN (R47). -/
def execRingEn (req : Req) (value : Bool) (s : State) : Host.Outcome State Fault Refusal :=
  s.on (fun c => c.guarded req R.SKN_CTRL true (fun c => (c.wrote req).ringEnable value))

/-- PREKEY_CLEAR (R40): `PREKEY` is write 1 to clear. -/
def execPrekeyClear (req : Req) (s : State) : Host.Outcome State Fault Refusal :=
  s.on (fun c => c.guarded req R.SKN_CTRL true (fun c => (c.wrote req).put F.SKN_CTRL_PREKEY 0))

/-- SKN_BRIDGE_WRITE (R45). -/
def execSknBridgeWrite (req : Req) (n : Nat) (value : Word) (s : State) : Host.Outcome State Fault Refusal :=
  s.on (fun c => c.guarded req (R.SKN_BRIDGE0 + 4 * min n 2) true (fun c => (c.wrote req).bridgeWrite (min n 2) value))

end Sys2Proof.Machine
end

