-- ==== Sys2Proof/Machine/Tally.lean ====
section
/-!
DEFINITION. The commands of the Tally engine (R285 to R289).
-/

namespace Sys2Proof.Machine

/-- A write of `TLY_CTRL`. -/
def Chip.tlyCommand (c : Chip) (req : Req) (f : Chip → Chip) : Chip := c.guarded req R.TLY_CTRL true (fun c => f (c.wrote req))

/-- TLY_OPEN (R285). -/
def execTlyOpen (req : Req) (acc : BitVec 3) (s : State) : Host.Outcome State Fault Refusal :=
  s.onS (fun c => c.tlyCommand req (fun c => c.tlyOpen acc.toNat))

/-- TLY_ADD (R286 to R288). -/
def execTlyAdd (req : Req) (acc : BitVec 3) (owner : BitVec 5) (s : State) : Host.Outcome State Fault Refusal :=
  s.onS (fun c => c.tlyCommand req (fun c => c.tlyAdd acc.toNat owner.toNat))

/-- TLY_ADD_DONE (R288, R289): the contribution of the ADD that runs, once its group is on. -/
def execTlyAddDone (data : List Byte) (good : Bool) (s : State) : Host.Outcome State Fault Refusal :=
  s.onS (fun c =>
    match (List.range 8).find? (fun n => c.acSt n == 2) with
    | some n => if c.grp 5 = 2 then c.tlyDone n ((c.tlySrc data good).getD []) (c.tlySrc data good).isSome else c
    | none => c)

/-- TLY_ABORT (R288, R293). -/
def execTlyAbort (req : Req) (acc : BitVec 3) (s : State) : Host.Outcome State Fault Refusal :=
  s.onS (fun c => c.tlyCommand req (fun c => c.tlyAbortCmd acc.toNat))

/-- TLY_RELEASE (R288). -/
def execTlyRelease (req : Req) (acc : BitVec 3) (s : State) : Host.Outcome State Fault Refusal :=
  s.onS (fun c => c.tlyCommand req (fun c => c.tlyRelease acc.toNat))

/-- TLY_DIGEST_READ (R289). -/
def execTlyDigestRead (req : Req) (acc : BitVec 3) (s : State) : Host.Outcome State Fault Refusal :=
  s.onS (fun c => c.guarded req (R.TLY_ACCn_DIGEST acc.toNat) false (fun c =>
    let r := c.tlyRead acc.toNat
    r.1.respond req true r.2))

end Sys2Proof.Machine
end

