-- ==== Sys2Proof/Machine/TraceOps.lean ====
section
/-!
DEFINITION. Debug facilities at work: halted cores (R490 to R494), trace sources and their read ports (R495 to R499), Noil rings read and
restarted (R501, R502, R510), counter samples (R503 to R506), the event logs read (R515).
-/

namespace Sys2Proof.Machine

/-! Halted cores. -/

/-- The status of the last debug request of a core. -/
def Chip.dbgLast (c : Chip) (k : Nat) (st : Status) : Chip := c.puti F.DBG_COREc_STATUS_LAST k st.code

/-- Other cores RUNNING and not halted. -/
def Chip.othersFree (c : Chip) (k : Nat) : Nat := ((List.range 6).filter (fun j => j != k && c.coreFree j)).length

/-- A core halts (R491 to R493): its DMA channels pause, MBN full interrupts routed to it are raised again at another core. -/
def Chip.haltNow (c : Chip) (k : Nat) : Chip :=
  let boxes := (List.range 16).filter (fun n => c.mbSt true n == 2 && tget c.cores.mbAt n (c.mbnCore n) == k)
  let c := ((c.setHalt k 1).dbgLast k .ok).dbgCore 0x0021 k 0 0
  let c := c.each boxes (fun c n => c.mbRaiseFull true n)
  c.each ((List.range 32).filter (fun n => c.geti F.DMA_CHn_CFG_OWNER n == 0xF0 + k)) Chip.dmStop1

/-- A halt request (R490, R491). A core that is not RUNNING has no debug state; its request reads BUSY (assumption 106). -/
def Chip.haltReq (c : Chip) (k : Nat) : Chip :=
  if c.get F.DBG_CTRL_BREAK_ROV = 0 then c.dbgLast k .noConsent
  else if c.coreHalted k then c.dbgLast k .ok
  else if c.coreSt k != 1 then c.dbgLast k .busy
  else if 2 ≤ c.othersFree k then c.haltNow k
  else (c.dbgLast k .busy).dbgCore 0x1023 k 0 0

/-- `STEP` (Table 18.2): one instruction retires and the core is halted again. -/
def Chip.stepReq (c : Chip) (k : Nat) : Chip :=
  if c.coreHalted k then ((c.setHalt k 2).setHalt k 1).dbgLast k .ok else c

/-- `RESUME` (Table 18.2, R492): paused channels continue. -/
def Chip.resumeReq (c : Chip) (k : Nat) : Chip :=
  if !c.coreHalted k then c
  else
    let c := ((c.setHalt k 0).dbgLast k .ok).dbgCore 0x0022 k 0 0
    c.each ((List.range 32).filter (fun n => c.geti F.DMA_CHn_CFG_OWNER n == 0xF0 + k)) Chip.dmResume

/-- What a write of `DBG_COREc_CTRL` asks for. -/
def Chip.coreDbgWrite (c : Chip) (k : Nat) (w : Word) : Chip :=
  let c := c.when (wget 0 0 w == 1) (fun c => c.haltReq k)
  let c := c.when (wget 2 2 w == 1) (fun c => c.stepReq k)
  c.when (wget 1 1 w == 1) (fun c => c.resumeReq k)

/-- The register of breakpoint `b` of core `k`. -/
def bpOff (k b : Nat) : Nat := 0x10108 + 0x20 * k + 4 * b

/-- A breakpoint matches (R494): halt, or the trigger of the core's trace source. -/
def Chip.breakAt (c : Chip) (k b : Nat) (pc : Nat) : Chip :=
  let w := c.rd (bpOff k b)
  if 6 ≤ k || 4 ≤ b || !c.svcUp || !c.coreFree k || wget 0 0 w = 0 || bitsOf pc 31 2 != wget 31 2 w then c
  else
    let c := c.puti F.DBG_COREc_STATUS_BP k b
    if wget 1 1 w = 1 then (if c.get F.DBG_CTRL_TRACE_ROV = 1 then c.fire k 2 b 0 else c)
    else if c.get F.DBG_CTRL_BREAK_ROV = 1 then c.haltReq k
    else c

/-! Trace sources. -/

/-- A source's state follows `EN` (Table 18.9). -/
def Chip.traceEnable (c : Chip) (t : Nat) (on : Bool) : Chip :=
  let was := c.geti F.DBG_TRt_CTRL_EN t = 1
  let c := c.puti F.DBG_TRt_CTRL_EN t (b2n on)
  if on && !was then c.puti F.DBG_TRt_STATUS_STATE t 1
  else if !on then c.puti F.DBG_TRt_STATUS_STATE t 0
  else c

/-- `ARM` (R498): with `MODE` 1 a recording source is ARMED. -/
def Chip.traceArm (c : Chip) (t : Nat) : Chip :=
  if c.geti F.DBG_TRt_CTRL_MODE t = 1 && t != 16 && c.geti F.DBG_TRt_CTRL_EN t = 1 then c.puti F.DBG_TRt_STATUS_STATE t 2 else c

/-- Pad records up to the next multiple of 8 (R499). -/
def Chip.tracePad (c : Chip) (t : Nat) : Chip :=
  let s := c.trSrc t
  let n := (8 - s.recs.length % 8) % 8
  c.trSet t { s with recs := s.recs ++ List.replicate n (traceBytes c t 0 0 []) }

/-- What a write of `DBG_TRt_CTRL` does beyond its fields. -/
def Chip.traceCtrl (c : Chip) (t : Nat) (was : Nat) (w : Word) : Chip :=
  let en := wget 31 31 w
  let c := if was = en then c
    else (c.puti F.DBG_TRt_CTRL_EN t was).traceEnable t (en == 1)
  let c := c.when (t == 16) (fun c => c.puti F.DBG_TRt_CTRL_MODE t 0)
  let c := c.when (wget 30 30 w == 1) (fun c => c.traceArm t)
  let c := c.when (wget 28 28 w == 1) (fun c => c.fire t 1 0 0)
  c.when (wget 29 29 w == 1) (fun c => c.tracePad t)

/-- A word of the oldest record of a buffer, with the buffer after it: the record is freed after its last word. -/
def popWord (recs : List (List Byte)) (word last : Nat) : Nat × List (List Byte) × Nat :=
  match recs with
  | [] => (0, [], 0)
  | r :: rest => (numAt r (4 * word) 4, if word = last then (rest, 0) else (r :: rest, word + 1))

/-- A read of a trace read port (R495); room for the pending loss record may return with it (R497). -/
def Chip.traceRead (c : Chip) (t : Nat) : Chip × Nat :=
  let s := c.trSrc t
  let p := popWord s.recs s.word 7
  let s := { s with recs := p.2.1, word := p.2.2 }
  let on := c.geti F.DBG_TRt_CTRL_EN t = 1 && c.geti F.DBG_TRt_STATUS_STATE t != 4
  (c.trSet t (if on then c.trLoss t (c.trLimit t) s else s), p.1)

/-- Does the oldest record of a source wait since 4,096 slots (R499)? -/
def Chip.traceHeld (c : Chip) (t : Nat) : Bool :=
  match (c.trSrc t).recs with
  | [] => false
  | r :: _ => decide (numAt r 0 8 / 256 + 4096 ≤ c.slot)

/-! Counters. -/

/-- A sample of group `g` (R504). -/
def Chip.sampleBytes (c : Chip) (g boundary : Nat) (loss : Bool) : List Byte :=
  pack [(6, c.time), (1, g + 128 * b2n loss), (1, boundary)] ++ ((List.range 8).map (fun i => le 7 (tget c.dbg.cnt (8 * g + i) 0))).flatten

/-- A group is sampled (R504, R506). -/
def Chip.sampleGroup (c : Chip) (g boundary : Nat) : Chip :=
  let b := tget c.dbg.smp g {}
  if b.recs.length < 64 then
    { c with dbg := { c.dbg with smp := tput c.dbg.smp g { b with recs := b.recs ++ [c.sampleBytes g boundary b.loss], loss := false } } }
  else
    let c := { c with dbg := { c.dbg with smp := tput c.dbg.smp g { b with loss := true } } }
    let c := c.addi F.DBG_SMPg_LOST_COUNT g 1
    c.logOnce 0x1024 g uDBG (aCount (c.geti F.DBG_SMPg_LOST_COUNT g) 0 c.time g)

/-- A read of a sample read port (R504). -/
def Chip.sampleRead (c : Chip) (g : Nat) : Chip × Nat :=
  let b := tget c.dbg.smp g {}
  let p := popWord b.recs b.word 15
  ({ c with dbg := { c.dbg with smp := tput c.dbg.smp g { b with recs := p.2.1, word := p.2.2 } } }, p.1)

/-- A read of `DBG_CNTi_LO` (R510): bits 55:32 are latched. -/
def Chip.countRead (c : Chip) (i : Nat) : Chip × Nat :=
  let v := tget c.dbg.cnt i 0
  (c.puti F.DBG_CNTi_HI_VALUE i (v / 2 ^ 32), v % 2 ^ 32)

/-! Noil rings. -/

/-- Entry `e` of a unit's ring, 0 the oldest; entries a ring does not have yet read 0 (assumption 107). -/
def Chip.noilEntry (c : Chip) (u e : Nat) : List Byte := (tget c.dbg.noil u []).getD e []

/-- A read of `DBG_NOIL_DATA` (R510): after the fourth word `ENTRY` advances. -/
def Chip.noilRead (c : Chip) : Chip × Nat :=
  let v := numAt (c.noilEntry (c.get F.DBG_NOIL_SEL_UNIT) (c.get F.DBG_NOIL_SEL_ENTRY)) (4 * c.dbg.noilWord) 4
  if c.dbg.noilWord = 3 then
    (({ c with dbg := { c.dbg with noilWord := 0 } }).put F.DBG_NOIL_SEL_ENTRY ((c.get F.DBG_NOIL_SEL_ENTRY + 1) % 256), v)
  else ({ c with dbg := { c.dbg with noilWord := c.dbg.noilWord + 1 } }, v)

/-- `UNFREEZE` (R502): every ring is cleared and records again. -/
def Chip.unfreeze (c : Chip) : Chip :=
  (({ c with dbg := { c.dbg with noil := [], noilWord := 0 } }).put F.DBG_NOIL_STATUS_FROZEN 0).put F.DBG_NOIL_STATUS_CAUSE 0

/-- A write of `DBG_NOIL_CTRL`. -/
def Chip.noilCtrl (c : Chip) (w : Word) : Chip :=
  let c := c.when (wget 1 1 w == 1) Chip.unfreeze
  c.when (wget 0 0 w == 1) (fun c => c.freezeNoil 4)

/-- A write of `DBG_SPN_TRACE` (R510): eight words form a record of source 15, offered to it by the kind, argument and data it carries. -/
def Chip.spnTrace (c : Chip) (w : Word) : Chip :=
  let ws := c.dbg.spn ++ [w]
  if ws.length < 8 then { c with dbg := { c.dbg with spn := ws } }
  else
    let bs := (ws.map (fun x => le 4 x.toNat)).flatten
    ({ c with dbg := { c.dbg with spn := [] } }).trace 15 (numAt bs 9 1) (numAt bs 10 2) (slice bs 12 20)

/-! The event logs (R515). -/

/-- A read of `GEN_EVT_DATA`; by another than Spindle it returns 0 and does nothing. -/
def Chip.evtRead (c : Chip) (req : Req) : Chip × Nat :=
  if req != reqSpindle then (c, 0)
  else
    match c.logs.svc with
    | [] => (c, 0)
    | r :: rest =>
      let v := numAt r.bytes (4 * c.logs.svcWord) 4
      if c.logs.svcWord = 7 then (({ c with logs := { c.logs with svc := rest, svcWord := 0 } }).logLost, v)
      else ({ c with logs := { c.logs with svcWord := c.logs.svcWord + 1 } }, v)

/-- A read of `GEN_AEV_DATA`. -/
def Chip.aevRead (c : Chip) (req : Req) : Chip × Nat :=
  if req != reqSpindle then (c, 0)
  else
    match c.logs.aon with
    | [] => (c, 0)
    | r :: rest =>
      let v := numAt r.bytes (4 * c.logs.aonWord) 4
      if c.logs.aonWord = 7 then ({ c with logs := { c.logs with aon := rest, aonWord := 0 } }, v)
      else ({ c with logs := { c.logs with aonWord := c.logs.aonWord + 1 } }, v)

end Sys2Proof.Machine
end

