-- ==== Sys2Proof/Machine/Twisting.lean ====
section
/-!
DEFINITION. The commands of the Twist fold unit (R352 to R380).
-/

namespace Sys2Proof.Machine

/-- TWIST_BATCH (R352, R353). -/
def execTwistBatch (s : State) : Host.Outcome State Fault Refusal := s.onS (fun c => c.onFrame 0x30 Chip.twBatch)

/-- TWIST_FOLD (R355, R360). -/
def execTwistFold (h : BitVec 4) (s : State) : Host.Outcome State Fault Refusal := s.onS (fun c => c.twFold h.toNat)

/-- A segment sealed on demand (R358). -/
def Chip.twSealNow (c : Chip) (h : Nat) : Chip := if c.leads && c.twOpened h then (c.twSeal h true).twMirror h else c

/-- SEAL (R358): a write of `DGT_TWn_CTRL.SEAL`. -/
def execSeal (req : Req) (h : BitVec 4) (s : State) : Host.Outcome State Fault Refusal :=
  s.onS (fun c => c.guarded req (R.DGT_TWn_CTRL h.toNat) true (fun c => (c.wrote req).twSealNow h.toNat))

/-- TWIST_LOG_WRITE_ERROR (R357). -/
def execTwistLogWriteError (h : BitVec 4) (seg pos : Nat) (s : State) : Host.Outcome State Fault Refusal :=
  s.onS (fun c => if c.leads && c.twOpened h.toNat then c.twLog 0x2D02 h.toNat c.node (c.twActive h.toNat) 0 0 pos seg else c)

/-- TWIST_HEAD_READ (R380). -/
def execTwistHeadRead (req : Req) (h : BitVec 4) (s : State) : Host.Outcome State Fault Refusal :=
  s.onS (fun c => c.guarded req (R.DGT_TWn_HEAD h.toNat) false (fun c => let r := c.twHeadRead h.toNat; r.1.respond req true r.2))

/-- RECEIPT_SIGNED (R369). -/
def execReceiptSigned (h : BitVec 4) (s : State) : Host.Outcome State Fault Refusal :=
  s.onS (fun c => if c.svcUp then c.twSigned h.toNat else c)

end Sys2Proof.Machine
end

