-- ==== Sys2Proof/Machine/Whorl.lean ====
section
/-!
DEFINITION. The commands of Whorl time and launches (R202 to R227).
-/

namespace Sys2Proof.Machine

/-- MARKER_EMIT (R205). -/
def execMarkerEmit (s : State) : Host.Outcome State Fault Refusal := s.onS Chip.markerOut

/-- MARKER_RECEIVE (R205, R206). -/
def execMarkerReceive (cc : Bool) (bytes : List Byte) (s : State) : Host.Outcome State Fault Refusal := s.onS (fun c => c.markerIn cc bytes)

/-- SLOT_BOUNDARY_CORRECTION (R206). -/
def execSlotBoundaryCorrection (s : State) : Host.Outcome State Fault Refusal :=
  s.onS (fun c => if c.svcUp && c.time % 256 = 0 then c.boundary else c)

/-- MARKER_TIMEOUT (R206). -/
def execMarkerTimeout (s : State) : Host.Outcome State Fault Refusal := s.onS (fun c => if c.svcUp then c.markerLost else c)

/-- XPKG_TIME_REPORT (R208). -/
def execXpkgTimeReport (ch : Nat) (frame : WarpFrame) (s : State) : Host.Outcome State Fault Refusal :=
  s.onS (fun c => c.report (ch % 8) frame Chip.xpkgTime)

/-- XPKG_REPORT_TIMEOUT (R208). -/
def execXpkgReportTimeout (s : State) : Host.Outcome State Fault Refusal := s.onS (fun c => if c.svcUp then c.xpkgLate else c)

/-- A write to `WHL_LAUNCH_CTRL` with an operation. -/
def Chip.launchCtrl (c : Chip) (req : Req) (f : Chip → Chip) : Chip := c.guarded req R.WHL_LAUNCH_CTRL true (fun c => f (c.wrote req))

/-- SCHEDULE (R210). -/
def execSchedule (req : Req) (s : State) : Host.Outcome State Fault Refusal :=
  s.onS (fun c => c.launchCtrl req (fun c =>
    let r := c.schedule (c.get64 R.WHL_SCHED_SLOT_LO) (c.rd R.WHL_SCHED_CFG).toNat (c.rd R.WHL_SCHED_ARG).toNat (c.get F.WHL_SCHED_GRACE_SLOTS)
    r.1.lres r.2.1 r.2.2))

/-- WHL_CANCEL (R220). -/
def execWhlCancel (req : Req) (entry : BitVec 4) (s : State) : Host.Outcome State Fault Refusal :=
  s.onS (fun c => c.launchCtrl req (fun c => let r := c.lcancel entry.toNat; r.1.lres r.2 entry.toNat))

/-- WHL_FREE (R214). -/
def execWhlFree (req : Req) (entry : BitVec 4) (s : State) : Host.Outcome State Fault Refusal :=
  s.onS (fun c => c.launchCtrl req (fun c => let r := c.lfreeCmd entry.toNat; r.1.lres r.2 entry.toNat))

/-- LAUNCH_HORIZON (R213). -/
def execLaunchHorizon (n : BitVec 4) (s : State) : Host.Outcome State Fault Refusal := s.onS (fun c => c.lclose n.toNat)

/-- LAUNCH_FINAL_POINT (R216); while effects are held for a lost follow it waits, until *L* − 8 (R435). -/
def execLaunchFinalPoint (n : BitVec 4) (s : State) : Host.Outcome State Fault Refusal :=
  s.onS (fun c =>
    let solo := c.ply.newFresh.isSome && c.ply.lost
    if solo || (c.ply.lost && decide (c.lslot n.toNat ≤ c.slot + 8)) then c else c.lfinal n.toNat)

/-- LAUNCH_FIRE (R217). -/
def execLaunchFire (n : BitVec 4) (s : State) : Host.Outcome State Fault Refusal := s.onS (fun c => c.lfire n.toNat)

/-- LAUNCH_GRACE_END (R218). -/
def execLaunchGraceEnd (n : BitVec 4) (s : State) : Host.Outcome State Fault Refusal := s.onS (fun c => c.lretire n.toNat)

/-- LAUNCH_REPEAT (R215). -/
def execLaunchRepeat (n : BitVec 4) (s : State) : Host.Outcome State Fault Refusal := s.onS (fun c => if c.lrepeatDue n.toNat then c.lrepeat n.toNat else c)

/-- LAUNCH_CANCEL_REPEAT (R215). -/
def execLaunchCancelRepeat (num : Nat) (s : State) : Host.Outcome State Fault Refusal := s.onS (fun c => c.lcancelRepeat num)

/-- WHL_TIME_READ (R227): the low word, the high word latched. -/
def execWhlTimeRead (req : Req) (s : State) : Host.Outcome State Fault Refusal :=
  s.onS (fun c =>
    c.guarded req R.WHL_TIME_LO false (fun c =>
      (c.wr R.WHL_TIME_HI (BitVec.ofNat 32 (c.time / 2 ^ 32))).respond req true (c.time % 2 ^ 32)))

/-- LAUNCH_REQUEST (R210, R404): slot, kind, strands and grace as SCHEDULE takes them (assumption 38). -/
def execLaunchRequest (n : Nat) (s : State) : Host.Outcome State Fault Refusal :=
  s.onS (fun c => c.onCall n 0x0020 noGate (fun c _ b =>
    let cfg := numAt b 8 4
    let arg := numAt b 12 4
    let s := c.schedStatus (numAt b 0 8) cfg (numAt b 16 4)
    let p := c.strandPolicy cfg arg
    if p != .ok then (c, { st := firstStatus [(s != .ok, s), (true, p)] })
    else
      let r := c.schedule (numAt b 0 8) cfg arg (numAt b 16 4)
      (r.1, { st := r.2.1, inl := [r.2.2, r.1.lnum r.2.2] })))

/-- LAUNCH_CANCEL (R220), by launch number. -/
def execLaunchCancel (n : Nat) (s : State) : Host.Outcome State Fault Refusal :=
  s.onS (fun c => c.onCall n 0x0021 noGate (fun c _ b =>
    match (List.range 16).find? (fun e => c.lnum e == numAt b 0 4 && numAt b 0 4 != 0) with
    | none => (c, { st := .badArg })
    | some e => let r := c.lcancel e; (r.1, { st := r.2 })))

end Sys2Proof.Machine
end

