-- ==== Sys2Proof/Machine/RegWrite.lean ====
section
/-!
DEFINITION. A write of a register (R7, R512, R513): its fields by their access codes, and what the page's rules make the write start. The
answer of a granted write is 0 when it completes, 1 when the page refuses it under R14, 5 when a feed port refuses it (R277).
REGISTER_WRITE, DMA channels and the JTAG ports write through here.
-/

namespace Sys2Proof.Machine

/-- GEN page (R131, R160). -/
def Chip.wrGen (c : Chip) (req : Req) (off : Nat) (w : Word) : Chip :=
  if 0x100 ≤ off && off < 0x200 then (if wget 31 31 w = 1 then c.recard req ((off - 0x100) / 4) else c) else c.fieldsWrite req off w

/-- PWR page (R67): the timer compares the pair once `PWR_WAKE_TIME_HI` is written. -/
def Chip.wrPwr (c : Chip) (req : Req) (off : Nat) (w : Word) : Chip :=
  let c := c.fieldsWrite req off w
  if off = R.PWR_CTRL then
    let c := c.forced
    let c := c.when (wget 3 3 w == 1) Chip.shutdownWrite
    c.when (wget 2 2 w == 1) Chip.sleepRequest
  else if off = R.PWR_GRP_CTRL then c.forced
  else if off = R.PWR_WAKE_TIME_HI then { c with pwr := { c.pwr with wakeAt := some (c.get64 R.PWR_WAKE_TIME_LO) } }
  else c

/-- The words that a sensing started by a register write reads otherwise than they were blown: free (R83, assumption 149). -/
def senseDrift (k : Nat) : List (Nat × Cells) :=
  (Config.senseDrift k).map (fun e => (e.1, { tight := e.2.1, normal := e.2.2.1, loose := e.2.2.2 }))

/-- The sensing that a LOCK_WRITE among register writes starts: what it reads otherwise than blown is free (assumption 149). -/
def Chip.otpSensed (c : Chip) (fu : Fuses) (op : Nat) : Fuses × Chip :=
  if op = 4 then (fu.seen (senseDrift c.free), { c with free := c.free + 1 }) else (fu, c)

/-- OTP page (R80, R98). -/
def Chip.wrOtp (c : Chip) (fu : Fuses) (req : Req) (off : Nat) (w : Word) : Chip :=
  if off = R.OTP_CMD then
    let p := c.otpSensed fu (wget 7 0 w)
    p.2.otpCmdWrite p.1 req (wget 31 16 w) (wget 7 0 w) (wget 15 8 w)
  else if off = R.OTP_AUDIT then c.auditStart w
  else c.fieldsWrite req off w

/-- LCS page (R90, R99): in RAW and TEST_LOCKED the token registers take the JTAG path's writes alone. -/
def Chip.wrLcs (c : Chip) (fu : Fuses) (req : Req) (off : Nat) (w : Word) (jtag : Bool) : Chip :=
  if off = R.LCS_CTRL then c.lcsCtrlWrite fu req w jtag
  else if 0x3010 ≤ off && off < 0x3030 then (if !jtag && (c.lcState = lcRAW || c.lcState = lcTL) then c else c.wr off w)
  else c.fieldsWrite req off w

/-- SNG page (R448, R457): `QUENCH_EN` is written when the bit differs from the field; calibrations asked for have their own command. -/
def Chip.wrSng (c : Chip) (req : Req) (off : Nat) (w : Word) : Chip :=
  if off = R.SNG_CTRL then
    let c := (c.put F.SNG_CTRL_LOG_EN (wget 0 0 w)).when (wget 3 3 w == 1) (fun c => c.put F.SNG_CTRL_BASE_LOCK 1)
    if wget 2 2 w = c.get F.SNG_CTRL_QUENCH_EN then c else c.quenchWrite (wget 2 2 w == 1)
  else c.fieldsWrite req off w

/-- WHL page (R214, R220, R227). -/
def Chip.wrWhl (c : Chip) (req : Req) (off : Nat) (w : Word) : Chip :=
  if off = R.WHL_LAUNCH_CTRL then
    let n := wget 11 8 w
    match wget 1 0 w with
    | 1 => (let r := c.schedule (c.get64 R.WHL_SCHED_SLOT_LO) (c.rd R.WHL_SCHED_CFG).toNat (c.rd R.WHL_SCHED_ARG).toNat (c.get F.WHL_SCHED_GRACE_SLOTS); r.1.lres r.2.1 r.2.2)
    | 2 => (let r := c.lcancel n; r.1.lres r.2 n)
    | 3 => (let r := c.lfreeCmd n; r.1.lres r.2 n)
    | _ => c
  else c.fieldsWrite req off w

/-- SKN page (R40, R45, R47): `SKN_AUTH_FAIL.LIFETIME` clears as a whole by its lowest bit. -/
def Chip.wrSkn (c : Chip) (req : Req) (off : Nat) (w : Word) : Chip :=
  if off = R.SKN_CTRL then
    let c := c.when (wget 3 3 w == 1) (fun c => c.put F.SKN_CTRL_CFG_LOCK 1)
    let c := c.when (wget 2 2 w == 1) (fun c => c.put F.SKN_CTRL_PREKEY 0)
    let c := c.when (wget 0 0 w != c.get F.SKN_CTRL_RING_EN) (fun c => c.ringEnable (wget 0 0 w == 1))
    c.when (wget 1 1 w == 1) Chip.retrainRing
  else if R.SKN_BRIDGE0 ≤ off && off ≤ R.SKN_BRIDGE0 + 8 then c.bridgeWrite ((off - R.SKN_BRIDGE0) / 4) w
  else if off = R.SKN_AUTH_FAIL then c.when (wget 16 16 w == 1) (fun c => c.put F.SKN_AUTH_FAIL_LIFETIME 0)
  else c.fieldsWrite req off w

/-- PLY page (R420, R437, R439, R441, R443). -/
def Chip.wrPly (c : Chip) (req : Req) (off : Nat) (w : Word) : Chip :=
  if off = R.PLY_CTRL then
    let was := c.get F.PLY_CTRL_LINK_EN
    let c := c.put F.PLY_CTRL_LINK_EN (wget 0 0 w)
    let c := c.when ((wget 0 0 w == 1 && was == 0) || wget 1 1 w == 1) Chip.linkTrain
    let c := c.when (wget 2 2 w == 1) Chip.handoverStart
    let c := c.when (wget 3 3 w == 1) Chip.startEmpty
    c.when (wget 4 4 w == 1) Chip.sleepStart
  else c.fieldsWrite req off w

/-- A register of a mailbox (R146 to R152). `ROUTE` written while the box is FULL takes the interrupt to the new core (R152). -/
def Chip.wrMbox (c : Chip) (req : Req) (ns : Bool) (n off : Nat) (w : Word) : Chip :=
  let o := off % 0x80
  if o < 0x40 then c.mbDataPut req ns n (o / 4) w
  else if o = 0x40 then c.mbGo req ns n (wget 4 0 w)
  else if o = 0x44 then
    (let c := c.mbTouch req ns n
     if wget 5 5 w = 1 && req.toNat = c.mbOwner ns n then c.mbPut ns n F.MBS_STATUSn_EMPTY_IRQ 0 else c)
  else if o = 0x48 then
    (let c := c.when (wget 0 0 w == 1) (fun c => c.mbRelease req ns n)
     c.when (wget 1 1 w == 1) (fun c => c.mbForce req ns n))
  else
    let c := c.fieldsWrite req off w
    if ns && o = 0x4C && c.mbSt true n = 2 && tget c.cores.mbAt n (c.mbnCore n) != c.mbnCore n then c.mbRaiseFull true n else c

/-- MBS and MBN pages (R161): of the MBN page, the external class writes neither `MBN_CFGn` nor the page's control registers. -/
def Chip.wrMb (c : Chip) (req : Req) (off : Nat) (w : Word) : Chip × Nat :=
  let p := off % 0x1000
  if 0x9000 ≤ off && classOf req = .external && (0x800 ≤ p || p % 0x80 = 0x4C) then (c, 1)
  else if p < 0x800 then (c.wrMbox req (decide (0x9000 ≤ off)) (p / 0x80) off w, 0)
  else (c.fieldsWrite req off w, 0)

/-- BOB and DST pages (R173, R178, R199, R200). -/
def Chip.wrBob (c : Chip) (req : Req) (off : Nat) (w : Word) : Chip :=
  if off = R.BOB_CQ_TAIL then c.cqTail req (wget 9 0 w)
  else if off = R.BOB_CPL_HEAD then c.cplHead (wget 9 0 w)
  else if off = R.BOB_WARP_CTRL then c.warpClear (wget 7 0 w)
  else
    let c := c.fieldsWrite req off w
    if off = R.DST_CACHE_CTRL && wget 31 31 w = 1 then c.cacheDrop (fun e => !e.pinned) else c

/-- CRY page (R282, R291, R294). -/
def Chip.wrCry (c : Chip) (req : Req) (off : Nat) (w : Word) : Chip :=
  if off = R.CRY_SELFTEST then (if wget 31 31 w = 1 then c.laneAsk req (wget 27 24 w) (wget 19 16 w) else c.fieldsWrite req off w)
  else if off = R.CRY_ENT then (c.when (wget 16 16 w == 1) (fun c => c.entCalibrate false)).when (wget 17 17 w == 1) (fun c => c.entCalibrate true)
  else if 0xC100 ≤ off && off < 0xC500 && off % 0x20 = 8 then c.cryTail req ((off - 0xC100) / 0x20) (wget 7 0 w)
  else c.fieldsWrite req off w

/-- `DGT_GRANT` written (R295): a context whose bit is cleared comes back to Spindle. -/
def Chip.grantWrite (c : Chip) (base : Nat) (w : Word) : Chip :=
  let off := if base = 0 then R.DGT_GRANT_LO else R.DGT_GRANT_HI
  let gone := (bitsIn (c.rd off).toNat 32).filter (fun i => !bit w.toNat i)
  (c.each gone (fun c i => c.cxGrant (base + i) none)).wr off w

/-- DGT page (R277, R295, R358, R380). -/
def Chip.wrDgt (c : Chip) (req : Req) (off : Nat) (w : Word) : Chip × Nat :=
  if off < 0xD400 && off % 0x10 = 0 then
    let n := (off - 0xD000) / 0x10
    if c.cxSt n != 0 && c.cxOwner n != req.toNat then (c, 1)
    else
      match wget 1 0 w with
      | 1 => (c.cxOpen req n w, 0)
      | 2 => (c.cxFinal n, 0)
      | 3 => (if c.cxSt n = 0 then c else c.cxFree n, 0)
      | op => ((c.puti F.DGT_CTXn_STATUS_LAST n Status.badArg.code).log 0x1033 uDGT (aClamp off op 0 req.toNat 0), 0)
  else if 0xD400 ≤ off && off < 0xD800 then
    let r := c.cxFeed ((off - 0xD400) / 0x10) 0 req.toNat (le 4 w.toNat)
    (r.1, if r.2 then 0 else 5)
  else if off = R.DGT_GRANT_LO then (c.grantWrite 0 w, 0)
  else if off = R.DGT_GRANT_HI then (c.grantWrite 32 w, 0)
  else
    let c := c.fieldsWrite req off w
    (if 0xDC00 ≤ off && off % 0x40 = 0 && wget 1 1 w = 1 then c.twSealNow ((off - 0xDC00) / 0x40) else c, 0)

/-- TLY page (R285 to R289, R296): an accumulator's fields are writable while it is FREE. -/
def Chip.wrTly (c : Chip) (req : Req) (off : Nat) (w : Word) : Chip :=
  if off = R.TLY_CTRL then
    let a := wget 6 4 w
    match wget 2 0 w with
    | 1 => c.tlyOpen a
    | 2 => c.tlyAdd a (wget 12 8 w)
    | 3 => c.tlyAbortCmd a
    | 4 => c.tlyRelease a
    | op => (c.tlyLast a .badArg).log 0x1033 uTLY (aClamp off op 0 req.toNat 0)
  else if 0xE100 ≤ off && c.acSt ((off - 0xE100) / 0x40) != 0 then c
  else c.fieldsWrite req off w

/-- `CTRL` of a DMA channel (R311, R314): `CLEAR` is Spindle's. -/
def Chip.dmaCtrl (c : Chip) (req : Req) (n : Nat) (w : Word) : Chip :=
  let c := c.when (wget 2 2 w == 1) (fun c => c.dmAbort n)
  let c := c.when (wget 1 1 w != c.geti F.DMA_CHn_CTRL_PAUSE n) (fun c => c.dmPause n (wget 1 1 w == 1))
  c.when (wget 3 3 w == 1 && classOf req == .spindle) (fun c => c.dmClear n)

/-- DMA page (R309 to R319). -/
def Chip.wrDma (c : Chip) (req : Req) (off : Nat) (w : Word) : Chip :=
  if off = R.DMA_RELEASE then c.dmRelease w.toNat
  else if off = R.DMA_SWREQ then c.dmSwreq (wget 15 0 w)
  else if off = R.DMA_LINE_GRANT_HI then c.wr off (w &&& 0xFFFF00FF#32)
  else if off < 0xF100 || 0xF900 ≤ off then c.fieldsWrite req off w
  else
    let n := (off - 0xF100) / 0x40
    match off % 0x40 with
    | 4 => (c.fieldsWrite req off w).dmEnable n (wget 31 31 w == 1)
    | 8 => c.dmTail req n (wget 9 0 w)
    | 0x10 => c.dmaCtrl req n w
    | _ => c.fieldsWrite req off w

/-- `DBG_CTRL` written: a facility switched off does what its rule says (R490, R500, R507). -/
def Chip.dbgCtrl (c : Chip) (w : Word) : Chip :=
  let gone := fun (f : Fld) => c.get f == 1 && wget f.hi f.lo w == 0
  let b := gone F.DBG_CTRL_BREAK_ROV
  let t := gone F.DBG_CTRL_TRACE_ROV
  let k := gone F.DBG_CTRL_CNT_ROV
  (((c.wr R.DBG_CTRL (w &&& 0xFFFF0007#32)).when b Chip.breakOff).when t Chip.traceOff).when k Chip.counterOff

/-- DBG page (R490 to R510). -/
def Chip.wrDbg (c : Chip) (req : Req) (off : Nat) (w : Word) : Chip :=
  if off = R.DBG_CTRL then c.dbgCtrl w
  else if off = R.DBG_SPN_TRACE then c.spnTrace w
  else if off = R.DBG_NOIL_CTRL then c.noilCtrl w
  else if off = R.DBG_NOIL_SEL then { c.fieldsWrite req off w with dbg := { c.dbg with noilWord := 0 } }
  else if 0x10100 ≤ off && off < 0x101C0 && off % 0x20 = 0 then c.coreDbgWrite ((off - 0x10100) / 0x20) w
  else if 0x10400 ≤ off && off < 0x10510 && off % 0x10 = 0 then
    let t := (off - 0x10400) / 0x10
    (c.fieldsWrite req off w).traceCtrl t (c.geti F.DBG_TRt_CTRL_EN t) w
  else if 0x11000 ≤ off && off < 0x11300 then c.fieldsWrite req off (w &&& 0xFFFF0000#32)
  else c.fieldsWrite req off w

/-- COR page (R136 to R142, R162). -/
def Chip.wrCor (c : Chip) (req : Req) (off : Nat) (w : Word) : Chip :=
  if off = R.COR_SPN_CTRL then c.codeWrite w
  else if off = R.COR_SPN_WDT then c.wdtWrite req w
  else if 0x18020 ≤ off && off < 0x18038 then
    let k := (off - 0x18020) / 4
    let c := c.when (wget 0 0 w == 1) (fun c => c.fenceCore k 5)
    c.when (wget 1 1 w == 1) (fun c => c.coreRestart k)
  else c.fieldsWrite req off w

/-- A write of the register at an offset by a requester R14 lets through. -/
def Chip.writeReg (c : Chip) (fu : Fuses) (req : Req) (off : Nat) (w : Word) (jtag : Bool) : Chip × Nat :=
  if 0x18000 ≤ off then (c.wrCor req off w, 0)
  else
    match min (off / 0x1000) 0x10 with
    | 0x0 => (c.wrGen req off w, 0)
    | 0x1 => (c.wrPwr req off w, 0)
    | 0x2 => (c.wrOtp fu req off w, 0)
    | 0x3 => (c.wrLcs fu req off w jtag, 0)
    | 0x4 => (c.wrSng req off w, 0)
    | 0x5 => (c.wrWhl req off w, 0)
    | 0x6 => (c.wrSkn req off w, 0)
    | 0x7 => (c.wrPly req off w, 0)
    | 0x8 => c.wrMb req off w
    | 0x9 => c.wrMb req off w
    | 0xA => (c.wrBob req off w, 0)
    | 0xB => (c.wrBob req off w, 0)
    | 0xC => (c.wrCry req off w, 0)
    | 0xD => c.wrDgt req off w
    | 0xE => (c.wrTly req off w, 0)
    | 0xF => (c.wrDma req off w, 0)
    | _ => (c.wrDbg req off w, 0)

/-- A write of the window by a requester: what R14, R29 and R512 answer, or the write. -/
def Chip.fabricWrite (c : Chip) (fu : Fuses) (req : Req) (off : Nat) (w : Word) : Chip :=
  c.guarded req off true (fun c =>
    let r := c.writeReg fu req off w false
    if r.2 = 1 then c.refuse 0x1601 req off true 0 else r.1.respond req (r.2 == 0) 0)

/-- REGISTER_WRITE (R7, R512, R513): a 32-bit write of the register at an offset of the window; unaligned or at 0x6_0000 and above it
gets the error response (R29, R135). The Spindle class and the Roving
cores write as R135 grants, the external class at the target port. -/
def execRegisterWrite (req : Req) (off : Nat) (value : Word) (s : State) : Host.Outcome State Fault Refusal :=
  s.onCutS (fun c => if shapeOk off 4 true then c.fabricWrite s.fuses req off value else c.badAccess req off true)

end Sys2Proof.Machine
end

