-- ==== Sys2Proof/Machine/Calls.lean ====
section
/-!
DEFINITION. Service calls on the event log, on resources, on sleep and on the life cycle (R64, R91, R266, R272, R298, R483, R500, R508, R516).
-/

namespace Sys2Proof.Machine

/-- EVENTS_DRAIN (R516): whole records, oldest first, up to the inline maximum. -/
def execEventsDrain (n : Nat) (s : State) : Host.Outcome State Fault Refusal :=
  s.onS (fun c => c.onCall n 0x0003
    (fun c _ => if !c.hanks.tab.isEmpty && c.get F.DBG_CTRL_TRACE_ROV = 0 then .noConsent else .ok)
    (fun c k _ =>
      let m := min (numAt k.args 0 4) (k.outLen / 32)
      let out := ((c.logs.svc.take m).map EvRec.bytes).flatten
      let c := if m = 0 then c else { c with logs := { c.logs with svc := c.logs.svc.drop m, svcWord := 0 } }
      (c, { st := .ok, out := out, inl := [c.logs.svc.length, c.logs.svcLost] })))

/-! Resources (assumption 109). -/

/-- May resource `i` of a kind (0 DMA channel, 1 digest context, 2 crypto channel, 3 trace channel) be granted? -/
def Chip.grantable (c : Chip) (kind i : Nat) : Bool :=
  match kind with
  | 0 => decide (8 ≤ i) && decide (i < 32) && c.geti F.DMA_CHn_CFG_OWNER i == 0 && decide (c.dmSt i ≤ 1) &&
      c.geti F.DMA_CHn_HEAD_IDX i == c.geti F.DMA_CHn_TAIL_IDX i
  | 1 => decide (i < 64) && !c.cxGranted i && c.cxSt i == 0
  | 2 => decide (8 ≤ i) && decide (i < 32) && c.chSpn i && (c.ch i).fl.isEmpty &&
      c.geti F.CRY_CHn_HEAD_IDX i == c.geti F.CRY_CHn_TAIL_IDX i
  | 3 => (c.trSrc i).grant.isNone &&
      (if i = 16 then c.get F.DBG_CTRL_WATCH != 0 else decide (i < 16) && c.get F.DBG_CTRL_TRACE_ROV == 1)
  | _ => false

/-- Resource `i` granted to a core. -/
def Chip.grantTo (c : Chip) (kind i core : Nat) : Chip :=
  match kind with
  | 0 => c.puti F.DMA_CHn_CFG_OWNER i (0xF0 + core)
  | 1 => c.cxGrant i (some (0xF0 + core))
  | 2 => c.puti F.CRY_CHn_CFG_OWNER i (0xF0 + core)
  | _ =>
    let c := (c.trSet i { c.trSrc i with grant := some core }).puti F.DBG_TRt_STATUS_GRANTED i 1
    (c.put F.DMA_LINE_GRANT_LO_LINES (withBit (c.get F.DMA_LINE_GRANT_LO_LINES) i true)).traceCount

/-- Resource numbers as the inline results carry them: one byte each. -/
def inlineBytes (is : List Nat) : List Nat := (List.range 11).map (fun w => numAt (is.map (BitVec.ofNat 8)) (4 * w) 4)

/-- GRANT (R266, R272, R298, R500, R508): the lowest free resources of the kind; BUSY when there are not enough, NO_CONSENT for trace channels
that no consent opens. -/
def execGrant (n : Nat) (s : State) : Host.Outcome State Fault Refusal :=
  s.onS (fun c => c.onCall n 0x0050 noGate (fun c k _ =>
    let kind := numAt k.args 0 4
    let count := numAt k.args 4 4
    let is := ((List.range 64).filter (c.grantable kind)).take count
    if 3 < kind || count = 0 || 44 < count then (c, { st := .badArg })
    else if kind = 3 && c.get F.DBG_CTRL_TRACE_ROV = 0 && c.get F.DBG_CTRL_WATCH = 0 then (c, { st := .noConsent })
    else if is.length < count then (c, { st := .busy })
    else (c.each is (fun c i => c.grantTo kind i k.core), { st := .ok, inl := inlineBytes is })))

/-- Does a core hold resource `i` of a kind? -/
def Chip.holds? (c : Chip) (kind i core : Nat) : Bool :=
  match kind with
  | 0 => decide (i < 32) && c.geti F.DMA_CHn_CFG_OWNER i == 0xF0 + core
  | 1 => tget? c.cry.holder i == some (0xF0 + core)
  | 2 => decide (i < 32) && c.chOwner i == 0xF0 + core
  | 3 => (c.trSrc i).grant == some core
  | _ => false

/-- Is a channel not idle? -/
def Chip.resBusy (c : Chip) (kind i : Nat) : Bool :=
  match kind with
  | 0 => c.dmSt i != dIdle
  | 2 => !(c.ch i).fl.isEmpty || c.geti F.CRY_CHn_HEAD_IDX i != c.geti F.CRY_CHn_TAIL_IDX i
  | _ => false

/-- Resource `i` taken back. -/
def Chip.takeBack (c : Chip) (kind i : Nat) : Chip :=
  match kind with
  | 0 => c.dmReturn i
  | 1 => c.cxGrant i none
  | 2 => c.chTake i
  | _ => c.traceTake i

/-- RELEASE (R266, R298): kind, count and numbers in the inline arguments; DENIED for a resource the core does not hold, BUSY for a channel
that is not idle. -/
def execRelease (n : Nat) (s : State) : Host.Outcome State Fault Refusal :=
  s.onS (fun c => c.onCall n 0x0051 noGate (fun c k _ =>
    let kind := numAt k.args 0 1
    let is := (List.range (min 42 (numAt k.args 1 1))).map (fun i => numAt k.args (2 + i) 1)
    let st := firstStatus [(is.any (fun i => !c.holds? kind i k.core), .denied), (3 < kind || is.isEmpty, .badArg),
      (is.any (c.resBusy kind), .busy)]
    if st = .ok then (c.each is (fun c i => c.takeBack kind i), { st := .ok }) else (c, { st := st })))

/-- SLEEP_REQUEST (R63, R64): the answer leaves before the sleep entry begins. -/
def execSleepRequest (n : Nat) (s : State) : Host.Outcome State Fault Refusal :=
  s.onCutS (fun c => c.onCall n 0x0060
    (fun c _ => if !c.hanks.tab.isEmpty || (c.pkg != .hx4 && !c.sleepShook) then .denied else .ok)
    (fun c k _ =>
      if c.sleepBar.isSome then (c.sleepRequest, { st := .busy })
      else ((c.answer k { st := .ok }).sleepRequest, { st := .ok, wait_ := true })))

/-! The life cycle. -/

/-- The body of an authorisation (R483): what it must read for a target. -/
def Chip.authBody (c : Chip) (target : Nat) : List Byte :=
  ascii "GGMA" ++ pack [(2, 1), (1, target), (1, 0), (8, c.instSerial), (8, c.get64 R.LCS_NONCE_LO)]

/-- Is a signed authorisation good: body, the keys of slot 3, zero fields, and both signatures? -/
def Chip.authGood (c : Chip) (b : List Byte) (target : Nat) (genuine : Bool) : Bool :=
  genuine && b.length == 5488 && b.take 24 == c.authBody target &&
    Config.sha3_384 (slice b 24 1952 ++ slice b 1976 97) == c.otp.keySlot 3 &&
    (slice b 2073 7).all (· == 0#8) && (slice b 5389 3).all (· == 0#8)

/-- LC_REQUEST (R90, R91, R483): the target in inline byte 0, a token in bytes 4 to 35, an authorisation in the input buffer. -/
def execLcRequest (n : Nat) (genuine : Bool) (s : State) : Host.Outcome State Fault Refusal :=
  s.onCutS (fun c => c.onCall n 0x0061
    (fun c _ => if !c.hanks.tab.isEmpty || c.get F.PLY_STATUS_LEASE = 1 then .denied else .ok)
    (fun c k b =>
      let target := numAt k.args 0 1
      if 15 < target then (c, { st := .badArg })
      else
      let auth := c.authGood b target genuine
      let c := c.each (List.range 8) (fun c i => c.wrLcs s.fuses reqSpindle (R.LCS_TOKENn i) (BitVec.ofNat 32 (numAt k.args (4 + 4 * i) 4)) false)
      let c := c.lcsCtrlWrite s.fuses reqSpindle (BitVec.ofNat 32 (0x7C5A0000 + 512 * b2n auth + 256 + target % 16)) false
      let st := (Status.ofCode (c.get F.LCS_STATUS_RESULT)).getD .denied
      if st = .pending then c.pending k (fun c t => { c with lcs := { c.lcs with ticket := some t } })
      else (c, { st := st })))

end Sys2Proof.Machine
end

