-- ==== Sys2Proof/Machine/Flags.lean ====
section
/-!
DEFINITION. Status fields that show other state of the instance, and what a read of a register shows: the register's own fields, with
those fields in their places. Reads with a side effect stand in Machine/RegRead.lean.
-/

namespace Sys2Proof.Machine

/-- `GEN_STATUS` (Table 6.14). -/
def Chip.genStatus (c : Chip) : Nat :=
  let live := if c.svcUp then c.liveCores.length else 0
  live * 2 ^ 12 + 8 * b2n (c.seq == .held) + 4 * b2n (c.svcUp && c.leads) + 2 * b2n (c.svcUp && c.phase == 0x40) + b2n c.svcUp

/-- `GEN_EVT_SUM` with its mirrors of the OTP and LCS `DONE` bits (Table 6.14). -/
def Chip.evtSum (c : Chip) : Nat := (c.rd R.GEN_EVT_SUM).toNat / 4 * 4 + 2 * c.get F.LCS_STATUS_DONE + c.get F.OTP_STATUS_DONE

/-- `IRQ_EVT`: an enabled summary bit is set (Table 6.14). -/
def Chip.irqEvt (c : Chip) : Bool := Nat.land c.evtSum (c.get F.GEN_EVT_EN_EN) != 0

/-- `COR_STATUS` (Table 6.19). -/
def Chip.corStatus (c : Chip) : Nat :=
  let fenced := (List.range 6).filter (fun k => c.coreSt k == 2 || c.coreSt k == 3)
  c.liveCores.length * 2 ^ 16 + maskOf fenced * 2 ^ 8 + maskOf c.liveCores

/-- `MBN_SUM` (Table 6.17). -/
def Chip.mbnSum (c : Chip) : Nat :=
  maskOf ((List.range 16).filter (fun n => c.mb true n F.MBS_STATUSn_FULL_IRQ == 1)) * 2 ^ 16 +
    maskOf ((List.range 16).filter (fun n => c.mb true n F.MBS_STATUSn_EMPTY_IRQ == 1))

/-- `IRQ_MBN`: an enabled mailbox has its `EMPTY_IRQ` set (R152). -/
def Chip.irqMbn (c : Chip) : Bool := Nat.land (c.mbnSum % 2 ^ 16) (c.get F.MBN_IRQ_EN_EN) != 0

/-- Has a DMA channel nothing in flight (R492)? -/
def Chip.dmaQuiet (c : Chip) (n : Nat) : Bool := [0, 1, 5, 6, 7].contains (c.geti F.DMA_CHn_STATUS_STATE n)

/-- Is every engine of a halted core drained (R492)? -/
def Chip.coreDrained (c : Chip) (k : Nat) : Bool :=
  c.coreHalted k && (List.range 32).all (fun n => c.geti F.DMA_CHn_CFG_OWNER n != 0xF0 + k || c.dmaQuiet n) &&
    (List.range 32).all (fun n => c.chOwner n != 0xF0 + k || (c.ch n).fl.all (fun f => !f.started))

/-- `WHL_STATUS.OPEN` (Table 8.10). -/
def Chip.launchesOpen (c : Chip) : Nat := ((List.range 16).filter c.launchOpen).length

/-- A status field that shows other state, in the place where its register has it. -/
def Chip.viewPage (c : Chip) (off : Nat) (w : Word) : Word :=
  if off = R.SKN_STATUS then wset 7 0 c.node w
  else if off = R.BOB_STATUS then wset 4 4 (c.get F.BOB_JRNL_STATUS_FAILED) (wset 2 2 (c.get F.BOB_CTRL_PAUSE * b2n c.cust.cmds.isEmpty) (wset 1 1 (b2n c.cust.cmds.isEmpty) w))
  else if off = R.DST_STATUS then wset 31 16 (maskOf (c.cust.keys.hank.map (·.1))) w
  else if off = R.WHL_STATUS then wset 15 8 c.launchesOpen w
  else if off = R.WHL_TIME_LO then BitVec.ofNat 32 c.time
  else if off = R.WHL_ALIGN then wset 31 16 (if c.whl.seen = 0 then 0 else min 65535 (c.slot - c.whl.seen)) w
  else if off = R.WHL_XPKG_STATUS then wset 31 24 (if c.whl.xpkgAt = 0 then 0 else min 255 (c.slot - c.whl.xpkgAt)) w
  else if off = R.DGT_TW_STATUS then wset 28 16 c.twist.intake.length w
  else if off = R.DBG_STATUS then wset 0 0 (b2n c.jtagExt) w
  else w

/-- The same for registers that come in copies. -/
def Chip.viewCopy (c : Chip) (off : Nat) (w : Word) : Word :=
  if 0xC100 ≤ off && off < 0xC500 && (off - 0xC100) % 0x20 = 0x10 then wset 0 0 (b2n (c.geti F.CRY_CHn_CFG_EN ((off - 0xC100) / 0x20) == 1 && (c.ch ((off - 0xC100) / 0x20)).fl.isEmpty)) w
  else if 0xD000 ≤ off && off < 0xD400 && off % 0x10 = 8 then BitVec.ofNat 32 (c.cx ((off - 0xD000) / 0x10)).fed.length
  else if 0x10100 ≤ off && off < 0x101C0 && off % 0x20 = 4 then wset 3 3 (b2n (c.coreDrained ((off - 0x10100) / 0x20))) w
  else if 0x10400 ≤ off && off < 0x10510 && off % 0x10 = 4 then wset 25 16 (c.trSrc ((off - 0x10400) / 0x10)).recs.length w
  else if 0x11000 ≤ off && off < 0x11400 && off % 0x10 = 4 then BitVec.ofNat 32 (tget c.dbg.cnt ((off - 0x11000) / 0x10) 0)
  else if 0x20000 ≤ off && off < 0x60000 then BitVec.ofNat 32 (numAt (tget c.cust.trs ((off - 0x20000) / 64) []) (off % 64 / 4 * 4) 4)
  else w

/-- What a read of the register at an offset shows, side effects apart; 0 where no register is (R512) and in write-only fields. -/
def Chip.view (c : Chip) (off : Nat) : Word :=
  if off = R.GEN_STATUS then BitVec.ofNat 32 c.genStatus
  else if off = R.GEN_EVT_SUM then BitVec.ofNat 32 c.evtSum
  else if off = R.GEN_EVT_LEVEL then BitVec.ofNat 32 (c.logs.svcLost * 2 ^ 16 + c.logs.svc.length)
  else if off = R.GEN_AEV_LEVEL then BitVec.ofNat 32 (c.logs.aonLost * 2 ^ 16 + c.logs.aon.length)
  else if off = R.COR_STATUS then BitVec.ofNat 32 c.corStatus
  else if off = R.MBN_SUM then BitVec.ofNat 32 c.mbnSum
  else c.viewCopy off (c.viewPage off (c.rd off &&& readMask off))

end Sys2Proof.Machine
end

