-- ==== Sys2Proof/Machine/RegRead.lean ====
section
/-!
DEFINITION. A read of a register by one of the instance's own requesters, with the side effect of an RS field (Table 0.4). The commands of
single RS registers stand in their families; a DMA channel and the JTAG ports read through here.
-/

namespace Sys2Proof.Machine

/-- A read of `WHL_TIME_LO` (R227): bits 63:32 are latched into `WHL_TIME_HI`. -/
def Chip.timeRead (c : Chip) : Chip × Nat := (c.wr R.WHL_TIME_HI (BitVec.ofNat 32 (c.time / 2 ^ 32)), c.time % 2 ^ 32)

/-- RS registers that come in copies. -/
def Chip.readCopy (c : Chip) (req : Req) (off : Nat) : Chip × Nat :=
  if 0x8000 ≤ off && off < 0xA000 && off % 0x1000 < 0x800 && off % 0x80 = 0x48 then
    c.mbLockTake req (decide (0x9000 ≤ off)) (off % 0x1000 / 0x80)
  else if 0xD000 ≤ off && off < 0xD400 && off % 0x10 = 0xC then c.cxRead ((off - 0xD000) / 0x10)
  else if 0xDC00 ≤ off && off < 0xE000 && off % 0x40 = 0x28 then c.twHeadRead ((off - 0xDC00) / 0x40)
  else if 0xE100 ≤ off && off < 0xE300 && off % 0x40 = 0x28 then c.tlyRead ((off - 0xE100) / 0x40)
  else if 0x11000 ≤ off && off < 0x11400 && off % 0x10 = 4 then c.countRead ((off - 0x11000) / 0x10)
  else if 0x14000 ≤ off && off < 0x15100 && off % 0x100 = 0 then c.traceRead ((off - 0x14000) / 0x100)
  else if 0x16000 ≤ off && off < 0x16800 && off % 0x100 = 0 then c.sampleRead ((off - 0x16000) / 0x100)
  else (c, (c.view off).toNat)

/-- A data word of a mailbox of which the reader is neither owner nor receiver: it reads 0 (R148). -/
def Chip.mbHides (c : Chip) (req : Req) (off : Nat) : Bool :=
  let ns := decide (0x9000 ≤ off)
  let n := off % 0x1000 / 0x80
  decide (0x8000 ≤ off) && decide (off < 0xA000) && decide (n < 16) && decide (off % 0x80 < 0x40) &&
    req.toNat != c.mbOwner ns n && req.toNat != c.mbReceiver ns n

/-- The owner's read of a data word or of the status of its mailbox restarts the lock timeout (R149). -/
def Chip.mbLook (c : Chip) (req : Req) (off : Nat) : Chip :=
  if 0x8000 ≤ off && off < 0xA000 && off % 0x1000 < 0x800 && off % 0x80 < 0x48 then c.mbTouch req (decide (0x9000 ≤ off)) (off % 0x1000 / 0x80) else c

/-- A granted read of the register at an offset: its side effect, and the data. -/
def Chip.readReg (c : Chip) (req : Req) (off : Nat) : Chip × Nat :=
  if off = R.GEN_EVT_DATA then c.evtRead req
  else if off = R.GEN_AEV_DATA then c.aevRead req
  else if off = R.WHL_TIME_LO then c.timeRead
  else if off = R.DBG_NOIL_DATA then c.noilRead
  else if c.mbHides req off then (c, 0)
  else (c.mbLook req off).readCopy req off

end Sys2Proof.Machine
end

