-- ==== Sys2Proof/Machine/DmaOps.lean ====
section
/-!
DEFINITION. DMA channels moving data (R299 to R311): words read into staging and written from it, bursts, a descriptor
taken and completed, progress up to a pause or a bus error.
-/

namespace Sys2Proof.Machine

/-- The requester number a channel's accesses carry. -/
def Chip.dmReq (c : Chip) (n : Nat) : Req := BitVec.ofNat 8 (c.dmOwner n)

/-- Is the SRAM word an address lies in poisoned (R138)? -/
def Chip.poisonWord (c : Chip) (a : Nat) : Bool :=
  decide (0x20000000 ≤ a) && decide (a < 0x20600000) && c.mem.poison.contains ((a - 0x20000000) / 8 * 8)

/-- A digest feed port, at any address within it (R273)? -/
def feedPort (off : Nat) : Bool := decide (0xD400 ≤ off) && decide (off < 0xD800)

/-- A read of a tree root whose entry is under repair (R243). -/
def Chip.rootBusy (c : Chip) (off : Nat) : Bool := decide (0x20000 ≤ off) && decide (off < 0x60000) && c.cust.rootRepair.contains ((off - 0x20000) / 64)

/-- A read of the port of a context in FREE, DONE or ERROR, which no one may make (R277). -/
def Chip.portShut (c : Chip) (a : Nat) : Bool :=
  (decide (0x40020000 ≤ a) && decide (a < 0x40060000) && c.rootBusy (a - 0x40000000)) ||
  decide (0x40000000 ≤ a) && feedPort (a - 0x40000000) &&
    (let st := c.cxSt ((a - 0x4000D400) / 0x10); st != 1 && st != 2)

/-- The cause of a read access; 0 when it returns data. -/
def Chip.readCause (c : Chip) (req : Req) (a : Nat) : Nat :=
  let r := c.reach req a false
  if r != 0 then r else if c.poisonWord a then 3 else if c.portShut a then 5 else 0

/-- What a read that fails leaves at its target: a refused port's context is intruded (R277). -/
def Chip.readBad (c : Chip) (req a cause : Nat) : Chip := if cause = 5 && feedPort (a - 0x40000000) then c.cxIntrude ((a - 0x4000D400) / 0x10) req else c

/-! Words. -/

/-- Where an address of the core map stands: 1 SRAM-SPN, 2 SRAM-ROV, 3 the register map, 0 elsewhere, and the offset in it. -/
def busWindow (a : Nat) : Nat × Nat :=
  if 0x10000000 ≤ a && a < 0x10100000 then (1, a - 0x10000000)
  else if 0x20000000 ≤ a && a < 0x20600000 then (2, a - 0x20000000)
  else if 0x40000000 ≤ a && a < 0x40060000 then (3, a - 0x40000000)
  else (0, a)

/-- A read at the initiator port: one request for each 64 bytes it comes to (R30, R300). -/
def Chip.portRead (c : Chip) (req : Req) (a : Nat) : Chip :=
  let o := Out.initiatorRead (classOf req == .spindle) req.toNat (a / 64 * 64)
  if c.tx.getLast? = some o then c else c.portReq (classOf req == .spindle) o

/-- A word read in the core map, with the data beyond the instance still to come. -/
def Chip.busFetch (c : Chip) (req : Req) (a : Nat) (data : List Byte) : Chip × List Byte × List Byte :=
  match busWindow a with
  | (1, o) => (c, c.spnRd o 4, data)
  | (2, o) => (c, c.rovRd o 4, data)
  | (3, o) => (let r := c.readReg req o; (r.1, le 4 r.2, data))
  | _ => (c.portRead req a, slice data 0 4, data.drop 4)

/-- A register written over the fabric: a feed port takes the word from `feeder`, 0 a store, *k* DMA channel *k* − 1 (R273). -/
def Chip.busPort (c : Chip) (fu : Fuses) (req : Req) (feeder off : Nat) (bs : List Byte) : Chip × Nat :=
  if feedPort off then (let r := c.cxFeed ((off - 0xD400) / 0x10) feeder req.toNat bs; (r.1, if r.2 then 0 else 5))
  else c.writeReg fu req off (BitVec.ofNat 32 (ofLe bs)) false

/-- Bytes written in the core map: the cause with which the access completes, 0 for none. -/
def Chip.busStore (c : Chip) (fu : Fuses) (req : Req) (feeder a : Nat) (bs : List Byte) : Chip × Nat :=
  let r := c.reach req a true
  if r != 0 then (c, r)
  else
    match busWindow a with
    | (1, o) => (c.spnWr o bs, 0)
    | (2, o) => (c.rovWr o bs, 0)
    | (3, o) => c.busPort fu req feeder o bs
    | _ => (c.portReq (classOf req == .spindle) (.initiator (classOf req == .spindle) req.toNat a bs), 0)

/-! Staging. -/

/-- Bytes staged. -/
def bufLen (buf : List (Nat × List Byte)) : Nat := (buf.map (fun e => e.2.length)).foldl (· + ·) 0

/-- The staging buffer and `STAGED`. -/
def Chip.dmBuf (c : Chip) (n : Nat) (buf : List (Nat × List Byte)) : Chip :=
  (c.dmMod n (fun u => { u with buf := buf })).puti F.DMA_CHn_STATUS_STAGED n (bufLen buf)

/-- Does a staged word go in one write with the bytes before it: two words of one 64-bit word of memory, or one request of up to 64 bytes at the
initiator port (R300)? -/
def joins (e f : Nat × List Byte) : Bool :=
  f.1 == e.1 + e.2.length && (if dmInitBase ≤ e.1 then f.1 % 64 != 0 else e.1 % 8 == 0 && e.2.length == 4 && decide (e.1 < 0x40000000))

/-- Staged bytes with the words that go together joined. -/
def joined (buf : List (Nat × List Byte)) : List (Nat × List Byte) :=
  (buf.foldl (fun acc f => match acc with | e :: es => (if joins e f then (e.1, e.2 ++ f.2) :: es else f :: e :: es) | [] => [f]) []).reverse

/-- Staged bytes written in order, up to an access that fails: what is left, the cause and the address. -/
def Chip.dmWrites (c : Chip) (fu : Fuses) (n : Nat) (buf : List (Nat × List Byte)) : Chip × List (Nat × List Byte) × Nat × Nat :=
  match buf with
  | [] => (c, [], 0, 0)
  | e :: rest =>
    let r := c.busStore fu (c.dmReq n) (n + 1) e.1 e.2
    if r.2 = 0 then (r.1.count (16 + n / 8) e.2.length).dmWrites fu n rest else (r.1, e :: rest, r.2, e.1)

/-- Staging is written out; a failing write is a bus error (R313). True when all went. -/
def Chip.dmDrain (c : Chip) (fu : Fuses) (n : Nat) : Chip × Bool :=
  let far := (c.dm n).buf.any (fun e => decide (dmInitBase ≤ e.1))
  let c := if far then c.dmMod n (fun u => { u with port := true }) else c
  let r := c.dmWrites fu n (joined (c.dm n).buf)
  let c := r.1.dmBuf n r.2.1
  if r.2.2.1 = 0 then (c, true) else (c.busError n r.2.2.1 r.2.2.2 true false none, false)

/-! The next byte to read (R311). -/

/-- Source and destination of byte `off` of an indexed descriptor's entry `pos` (R303, R304). -/
def Chip.dmAim (c : Chip) (n : Nat) (d : DmaDesc) (pos off : Nat) : Nat × Nat :=
  let near := pos * d.elem + off
  let far := c.dmEntry n pos * d.elem + off
  (if d.srcFixed then d.src else (d.src + (if d.op = 3 then far else near)) % 2 ^ 64,
    if d.dstFixed then d.dst else (d.dst + (if d.op = 3 then near else far)) % 2 ^ 64)

/-- `CUR_SRC` and `CUR_DST`. -/
def Chip.dmCur (c : Chip) (n src dst : Nat) : Chip := (c.put64i F.DMA_CHn_CUR_SRC_LO_ADDR n src).put64i F.DMA_CHn_CUR_DST_LO_ADDR n dst

/-- An indexed descriptor stands at entry `pos`, byte `off`. -/
def Chip.dmAt (c : Chip) (n : Nat) (d : DmaDesc) (pos off : Nat) : Chip :=
  let c := ((c.puti F.DMA_CHn_ENTRY_POS n pos).puti F.DMA_CHn_ELEM_OFF_BYTES n off).puti F.DMA_CHn_REMAIN_COUNT n (d.count - pos)
  let c := if pos < d.count && pos % 64 = 0 && off = 0 then c.dmFetch n d pos else c
  if pos < d.count then (let a := c.dmAim n d pos off; c.dmCur n a.1 a.2) else c

/-- A descriptor latched (R312). -/
def Chip.dmStart (c : Chip) (n : Nat) (d : DmaDesc) : Chip :=
  let c := c.dmMod n (fun u => { u with desc := some d, buf := [], port := false })
  if d.indexed then c.dmAt n d 0 0 else (c.puti F.DMA_CHn_REMAIN_COUNT n d.len).dmCur n d.src d.dst

/-- What one read of a burst did: the instance, the data still to come, and cause, address and whether of the index table when it failed. -/
structure DmaRead where
  chip : Chip
  data : List Byte
  err : Option (Nat × Nat × Bool) := none

/-- A word of a COPY or FILL comes into staging. -/
def Chip.dmStep1 (c : Chip) (n : Nat) (d : DmaDesc) (data : List Byte) : DmaRead :=
  let left := c.geti F.DMA_CHn_REMAIN_COUNT n
  let src := c.get64 (R.DMA_CHn_CUR_SRC_LO n)
  let dst := c.get64 (R.DMA_CHn_CUR_DST_LO n)
  let cause := if d.op = 2 then 0 else c.readCause (c.dmReq n) src
  if cause != 0 then DmaRead.mk (c.readBad (c.dmOwner n) src cause) data (some (cause, src, false))
  else
    let r := if d.op = 2 then (c, slice (padTo 8 d.pattern) ((d.len - left) % 8) 4, data) else c.busFetch (c.dmReq n) src data
    let c := (r.1.dmBuf n ((r.1.dm n).buf ++ [(dst, r.2.1)])).puti F.DMA_CHn_REMAIN_COUNT n (left - 4)
    DmaRead.mk (c.dmCur n (if d.srcFixed || d.op == 2 then src else (src + 4) % 2 ^ 64) (if d.dstFixed then dst else (dst + 4) % 2 ^ 64)) r.2.2 none

/-- The first access of an index chunk that fails, as entries come into the prefetch buffer 256 bytes at a time (R304). -/
def Chip.dmIndexErr (c : Chip) (n : Nat) (d : DmaDesc) (pos : Nat) : Option (Nat × Nat × Bool) :=
  let words := (List.range (min 64 (d.count - pos))).map (fun i => d.index + 4 * (pos + i))
  match words.find? (fun a => c.readCause (c.dmReq n) a != 0) with
  | some a => some (c.readCause (c.dmReq n) a, a, true)
  | none => none

/-- A word of an indexed descriptor comes into staging; a hole of a SCATTER is passed over, a hole of a GATHER gives zeros. -/
def Chip.dmStep2 (c : Chip) (n : Nat) (d : DmaDesc) (data : List Byte) : DmaRead :=
  let pos := c.geti F.DMA_CHn_ENTRY_POS n
  let off := c.geti F.DMA_CHn_ELEM_OFF_BYTES n
  match if pos % 64 = 0 && off = 0 then c.dmIndexErr n d pos else none with
  | some e => DmaRead.mk c data (some e)
  | none =>
    let c := if off = 0 then c.count 23 1 else c
    let hole := c.dmEntry n pos == dmHole
    if hole && d.op == 4 then DmaRead.mk (c.dmAt n d (pos + 1) 0) data none
    else
      let a := c.dmAim n d pos off
      let cause := if hole then 0 else c.readCause (c.dmReq n) a.1
      if cause != 0 then DmaRead.mk (c.readBad (c.dmOwner n) a.1 cause) data (some (cause, a.1, false))
      else
        let r := if hole then (c, le 4 0, data) else c.busFetch (c.dmReq n) a.1 data
        let c := r.1.dmBuf n ((r.1.dm n).buf ++ [(a.2, r.2.1)])
        DmaRead.mk (if off + 4 < d.elem then c.dmAt n d pos (off + 4) else c.dmAt n d (pos + 1) 0) r.2.2 none

/-- Does a burst end here: at its length, at the end of the descriptor, or at the end of an element? -/
def Chip.dmLast (c : Chip) (n : Nat) (d : DmaDesc) : Bool :=
  c.geti F.DMA_CHn_REMAIN_COUNT n == 0 || (d.indexed && c.geti F.DMA_CHn_ELEM_OFF_BYTES n == 0)

/-- Up to `words` words of one burst come into staging. -/
def Chip.dmLoad (c : Chip) (n : Nat) (d : DmaDesc) (words : Nat) (data : List Byte) : DmaRead :=
  match words with
  | 0 => DmaRead.mk c data none
  | k + 1 =>
    let r := if d.indexed then c.dmStep2 n d data else c.dmStep1 n d data
    if r.err.isSome || r.chip.dmLast n d then r else r.chip.dmLoad n d k r.data

/-- One burst, or its part of at most 256 bytes: staging is written out, the burst read into it and written (R300). The flag says no access
failed, the number is the bytes read. -/
def Chip.dmBurst (c : Chip) (fu : Fuses) (n : Nat) (d : DmaDesc) (words : Nat) (data : List Byte) : Chip × Bool × List Byte × Nat :=
  let p := c.dmDrain fu n
  if !p.2 || p.1.geti F.DMA_CHn_REMAIN_COUNT n = 0 then (p.1, p.2, data, 0)
  else
    let r := p.1.dmLoad n d (min 64 (min words (d.burstLen / 4))) data
    match r.err with
    | some e => (r.chip.busError n e.1 e.2.1 false e.2.2 none, false, r.data, 0)
    | none => (let q := r.chip.dmDrain fu n; (q.1, q.2, r.data, bufLen (r.chip.dm n).buf))

/-- A channel moves on, burst by burst, while it is in state `st` and has something to move; `fuel` bounds the bursts. -/
def Chip.dmRun (c : Chip) (fu : Fuses) (n st : Nat) (d : DmaDesc) (fuel : Nat) (data : List Byte) : Chip × Bool × List Byte :=
  match fuel with
  | 0 => (c, true, data)
  | k + 1 =>
    if c.dmSt n != st || (c.geti F.DMA_CHn_REMAIN_COUNT n == 0 && (c.dm n).buf.isEmpty) then (c, true, data)
    else
      let r := c.dmBurst fu n d 64 data
      if r.2.1 then r.1.dmRun fu n st d k r.2.2.1 else (r.1, false, r.2.2.1)

/-- Bursts that suffice for a descriptor. -/
def DmaDesc.bursts (d : DmaDesc) : Nat := if d.indexed then d.count * (d.elem / 256 + 1) + 1 else d.len / 4 + 1

/-- How far a channel got (`DmaMove`): bytes written, then bytes read into staging behind them; false where an access failed. -/
def Chip.dmMoved (c : Chip) (fu : Fuses) (n : Nat) (d : DmaDesc) (fuel bytes : Nat) (data : List Byte) : Chip × Bool × List Byte :=
  match fuel with
  | 0 => (c, true, data)
  | k + 1 =>
    if bytes < 4 || c.geti F.DMA_CHn_REMAIN_COUNT n = 0 then (c, true, data)
    else
      let r := c.dmBurst fu n d (bytes / 4) data
      if r.2.1 then r.1.dmMoved fu n d k (bytes - r.2.2.2) r.2.2.1 else (r.1, false, r.2.2.1)

/-- Progress of a channel that has its own work in hand. -/
def Chip.dmProgress (c : Chip) (fu : Fuses) (m : DmaMove) : Chip :=
  match (c.dm m.ch).desc with
  | none => c
  | some d =>
    if !(c.dmSt m.ch == dRunning || c.dmSt m.ch == dPausing) then c
    else
      let r := c.dmMoved fu m.ch d d.bursts m.bytes m.data
      if r.2.1 && 4 ≤ m.staged && (r.1.dm m.ch).buf.isEmpty then
        (let q := r.1.dmLoad m.ch d (min 64 (m.staged / 4)) r.2.2
         match q.err with
         | some e => q.chip.busError m.ch e.1 e.2.1 false e.2.2 none
         | none => q.chip)
      else r.1

/-! Descriptors taken and completed. -/

/-- May a channel take its next descriptor: the engine on, the channel IDLE with work, nothing holding it back? -/
def Chip.dmReady (c : Chip) (n : Nat) : Bool :=
  c.svcUp && decide (n < 32) && c.get F.DMA_CTRL_EN == 1 && c.get F.DMA_STATUS_STOPPED == 0 && c.dmSt n == dIdle &&
    c.geti F.DMA_CHn_HEAD_IDX n != c.geti F.DMA_CHn_TAIL_IDX n && !c.dmHeld n

/-- The check of a descriptor (R302), its first failing status. -/
def Chip.dmCheck (c : Chip) (n : Nat) (d : DmaDesc) : Status :=
  firstStatus [(d.paced && !c.dmLine n d.line, .denied), (!dmaGood (c.geti F.DMA_CHn_CFG_CAP n) d, .badArg),
    (crc32c ({ d with flags := withBit d.flags 0 false }).bytes != d.crc, .integrity),
    (d.paced && (c.lineOwner d.line).isSome, .busy)]

/-- The channel reads the descriptor at `HEAD` (R302); one whose `OWN` reads 0 is read again later. -/
def Chip.dmTake (c : Chip) (n : Nat) (d : DmaDesc) : Chip :=
  if !c.dmReady n || !bit d.flags 0 then c
  else
    let h := c.geti F.DMA_CHn_HEAD_IDX n
    match c.dmCheck n d with
    | .ok => ((c.dmStart n d).trace 11 1 0 (d.bytes.take 20)).dmGo n
    | st =>
      let c := if st = .integrity then c.log 0x1B01 uDMA (aChan n 0 st.code (c.dmOwner n) (c.dmAddr n h) h 0 0 0) else c
      ((c.dmBack n h d.flags st 0 0).dmNext n).dmIrq n d

/-- Descriptors at `HEAD` with a reserved `OP` are refused as the channel comes to them (R302). -/
def Chip.dmSkip (c : Chip) (n fuel : Nat) : Chip :=
  match fuel with
  | 0 => c
  | fuel + 1 =>
    let d := c.dmRead n []
    if (d.op != 0 && decide (d.op ≤ 4)) || !bit d.flags 0 || !c.dmReady n then c else Chip.dmSkip (c.dmTake n d) n fuel

/-- The operation at a channel's `HEAD` is taken when it is the one commanded. -/
def Chip.dmRow (c : Chip) (n op : Nat) (table : List Nat) : Chip :=
  if (c.dmRead n table).op = op then (c.dmTake n (c.dmRead n table)).dmSkip n 1024 else c

/-- A descriptor is done (R305 to R307): without `BARRIER`, one that wrote through the initiator port is remembered. -/
def Chip.dmFinish (c : Chip) (n : Nat) (d : DmaDesc) : Chip :=
  let h := c.geti F.DMA_CHn_HEAD_IDX n
  let far := !d.barrier && (c.dm n).port
  let c := c.dmMod n (fun u => { u with unacked := u.unacked.filter (· != h) ++ (if far then [h] else []) })
  (c.dmEnd n .ok 0 dIdle).dmSkip n 1024

/-- The rest of a descriptor is moved and it completes; a paced one completes once its last burst went. -/
def Chip.dmComplete (c : Chip) (fu : Fuses) (n : Nat) (data : List Byte) : Chip :=
  match (c.dm n).desc with
  | none => c
  | some d =>
    if !c.svcUp || c.dmSt n != dRunning || (d.paced && c.geti F.DMA_CHn_REMAIN_COUNT n != 0) then c
    else
      let r := c.dmRun fu n dRunning d d.bursts data
      if r.2.1 && r.1.dmSt n == dRunning && r.1.geti F.DMA_CHn_REMAIN_COUNT n == 0 then r.1.dmFinish n d else r.1

/-- A request on a line moves one burst of the channel bound to it (R308, R309). The lines of the NOR controller and the service port (40 to
43) are high when the request comes. -/
def Chip.dmRequest (c : Chip) (fu : Fuses) (line : Nat) (data : List Byte) : Chip :=
  match c.lineOwner line with
  | none => c
  | some n =>
    match (c.dm n).desc with
    | none => c
    | some d =>
      let high := c.lineHigh line || (decide (40 ≤ line) && decide (line < 44))
      if !c.svcUp || !high || !(c.dmSt n == dWaiting || c.dmSt n == dRunning) || c.geti F.DMA_CHn_REMAIN_COUNT n = 0 then c
      else
        let c := c.dmSet n dRunning
        let c := if 48 ≤ line then c.swPut line (c.swPend line - 1) else c
        let r := (c.count 22 1).dmBurst fu n d 64 data
        if r.2.1 && r.1.dmSt n == dRunning then r.1.dmGo n else r.1

/-- The drain of a pausing channel ends (R311): what it moved before the pause and what was staged has been written. -/
def Chip.dmPaused (c : Chip) (fu : Fuses) (m : DmaMove) : Chip :=
  if !c.svcUp || c.dmSt m.ch != dPausing || 32 ≤ m.ch then c
  else
    let c := c.dmProgress fu { m with staged := 0 }
    if c.dmSt m.ch != dPausing then c
    else
      let p := c.dmDrain fu m.ch
      if !p.2 then p.1
      else if p.1.dmHeld m.ch then p.1.dmSet m.ch dPaused
      else (p.1.dmSet m.ch dPaused).dmGo m.ch

/-! Bus errors and parity errors. -/

/-- Can the access a command reports complete with the cause it reports? -/
def Chip.dmCauseOk (c : Chip) (n cause addr : Nat) (wr late : Bool) : Bool :=
  match cause with
  | 1 => c.reach (c.dmReq n) addr wr == 1
  | 2 => (late || c.reach (c.dmReq n) addr wr == 0) && decide (dmInitBase ≤ addr) && decide (addr < dmInitEnd)
  | 3 => c.reach (c.dmReq n) addr wr == 0 && !wr && decide (0x20000000 ≤ addr) && decide (addr < 0x20600000)
  | 4 => c.reach (c.dmReq n) addr wr == 4
  | 5 => c.reach (c.dmReq n) addr wr == 0 && decide (0x40000000 ≤ addr) && feedPort (addr - 0x40000000)
  | _ => false

/-- Has a channel an access in flight that can fail: its descriptor's, its ring's, or a late write's? -/
def Chip.dmInFlight (c : Chip) (n : Nat) (late : Option Nat) : Bool :=
  match late with
  | some i => (c.dm n).unacked.contains i && c.dmSt n != dFault
  | none =>
    c.dmSt n == dRunning || c.dmSt n == dPausing || c.dmSt n == dStopped || c.dmReady n

/-- The descriptor of a channel whose own ring access failed is written back as it stands in the ring. -/
def Chip.dmRingFault (c : Chip) (n : Nat) (st : Status) (cause : Nat) : Chip :=
  let h := c.geti F.DMA_CHn_HEAD_IDX n
  (c.dmBack n h (c.ownByte (c.dmOwner n) (c.dmAddr n h + 1)) st cause 0).dmNext n

/-- A bus error of a channel (R313), after what each channel moved before the stop. A poisoned word is recorded (R138); a refused feed gives
its context's event (R277). -/
def Chip.dmBusError (c : Chip) (fu : Fuses) (n cause addr : Nat) (wr index : Bool) (late : Option Nat) (moves : List DmaMove) : Chip :=
  if !c.svcUp || 32 ≤ n || !c.dmInFlight n late then c
  else
    let c := c.each moves (fun c m => if m.ch = n && late.isNone then c.dmProgress fu { m with staged := 0 } else c.dmProgress fu m)
    if !c.dmInFlight n late || !c.dmCauseOk n cause addr wr late.isSome || (late.isSome && cause != 2) then c
    else
      let a := (addr - 0x20000000) / 8 * 8
      let c := if cause = 3 && !c.mem.poison.contains a then { c with mem := { c.mem with poison := c.mem.poison ++ [a] } } else c
      let c := if cause = 5 && feedPort (a - 0x40000000) then c.cxIntrude ((addr - 0x4000D400) / 0x10) (c.dmOwner n) else c
      let ring := late.isNone && (c.dm n).desc.isNone
      let h := c.geti F.DMA_CHn_HEAD_IDX n
      ((if ring then c.dmRingFault n (dmaStatus cause) cause else c).busErrorAt n (late.getD h) cause addr wr index late).dmStopEnd

/-- A parity error in a channel's working registers (R317): that channel alone. -/
def Chip.dmParity (c : Chip) (n : Nat) : Chip :=
  if !c.svcUp || 32 ≤ n || c.dmSt n = dFault || c.dmSt n = dDisabled then c
  else
    let h := c.geti F.DMA_CHn_HEAD_IDX n
    let done := match (c.dm n).desc with | some d => c.dmDone n d | none => 0
    let c := c.log 0x2B02 uDMA (aChan n 0 Status.integrity.code (c.dmOwner n) 0 h 6 0 done)
    ((c.dmEnd n .integrity 6 dFault).dmFaultRegs n .integrity 6 h 0 false false false).dmStopEnd

end Sys2Proof.Machine
end

