-- ==== Sys2Proof/Machine/JtagOps.lean ====
section
/-!
DEFINITION. The JTAG port (R35, R486 to R489): which instructions a state admits, the two 40-bit ports, the debug modules.
-/

namespace Sys2Proof.Machine

/-- Does a hank exist? -/
def Chip.anyHank (c : Chip) : Bool := !c.hanks.tab.isEmpty

/-- Is a JTAG instruction available (Table 18.1)? In DEV and RMA, DTM_ROV needs `BREAK_ROV` while any hank exists. -/
def Chip.jtagOk (c : Chip) (code : Nat) : Bool :=
  let st := c.lcState
  let brk := c.get F.DBG_CTRL_BREAK_ROV == 1
  match code with
  | 0x01 => true
  | 0x02 => true
  | 0x10 => st == lcTU || ((st == lcDEV || st == lcRMA) && (brk || !c.anyHank)) || ((st == lcPROD || st == lcEND) && brk)
  | 0x11 => st == lcTU || st == lcDEV || st == lcRMA
  | 0x20 => st == lcTU
  | 0x21 => st == lcRAW || st == lcTU || st == lcTL
  | 0x22 => st == lcTU
  | 0xFF => true
  | _ => false

/-- An instruction refused is logged with its code (R486). -/
def Chip.jtagRefuse (c : Chip) (code : Nat) : Chip := c.log 0x1021 uDBG (aAccess 0 0 false uDBG 0 code)

/-- An instruction is selected; one that is not available selects the 1-bit register. -/
def Chip.jtagUse (c : Chip) (code : Nat) (f : Chip → Chip) : Chip :=
  if c.jtagOk code then f { c with dbg := { c.dbg with jtag := code } }
  else (({ c with dbg := { c.dbg with jtag := 0xFF } }).send (.jtag 1 0)).jtagRefuse code

/-- The IDCODE value (R35). -/
def Chip.idcode (c : Chip) : Nat :=
  c.get F.GEN_ID_STEP_MAJOR * 2 ^ 28 + 0x0471 * 2 ^ 12 + c.otp.val 2 % 2 ^ 11 * 2 + 1

/-- The register `SEL` of OTP_PORT names (R487). -/
def otpSel (sel : Nat) : Option Nat :=
  match sel with
  | 0 => some R.OTP_STATUS | 1 => some R.OTP_CMD | 2 => some R.OTP_ADDR | 3 => some R.OTP_WDATA | 4 => some R.OTP_RDATA
  | 5 => some R.OTP_RFLAGS | _ => none

/-- The register `SEL` of LC_PORT names. -/
def lcSel (sel : Nat) : Option Nat :=
  match sel with
  | 0 => some R.LCS_STATE | 1 => some R.LCS_CTRL | 2 => some R.LCS_STATUS
  | n => if 8 ≤ n && n < 16 then some (0x3010 + 4 * (n - 8)) else none

/-- One scan of a 40-bit port: Capture-DR returns what the last Update-DR named, Update-DR names a register and writes it. -/
def Chip.portScan (c : Chip) (fu : Fuses) (page : Nat) (sel : Option Nat) (write : Bool) (data : Word) : Chip :=
  let named := c.dbg.portSel
  let c := c.send (.jtag 40 (if named / 0x1000 = page then (c.view named).toNat else 0))
  let c := { c with dbg := { c.dbg with portSel := sel.getD 0 } }
  match sel with
  | some off => if write then (c.writeReg fu reqSpindle off data true).1 else c
  | none => c

/-- What a debug module answers: data and the status of the request, 0 done and 2 failed. -/
def Chip.dmiOut (c : Chip) (data : Nat) (failed : Bool) : Chip := c.send (.jtag 34 (4 * data + 2 * b2n failed))

/-- A system bus access with the reach of a core's class (R135). -/
def Chip.dmiBus (c : Chip) (fu : Fuses) (req : Req) (addr : Nat) (wr : Bool) (bs : List Byte) : Chip :=
  let bad := fun (c : Chip) (cause : Nat) =>
    (if cause = 1 then c.log 0x1601 uDBG (aAccess addr req.toNat wr uDBG 0 0) else c).dmiOut 0 true
  if addr % 4 != 0 then bad c 1
  else if wr then (let r := c.busStore fu req 0 addr bs; if r.2 = 0 then r.1.dmiOut 0 false else bad r.1 r.2)
  else
    let cause := c.readCause req addr
    if cause != 0 then bad (c.readBad req.toNat addr cause) cause else (let r := c.busFetch req addr bs; r.1.dmiOut (ofLe r.2.1) false)

/-- A request at the debug module of a Roving core (R486, R490): nothing reaches it while `BREAK_ROV` is 0. -/
def Chip.rovDmi (c : Chip) (fu : Fuses) (k : Nat) (op : DmiOp) : Chip :=
  let req : Req := BitVec.ofNat 8 (0xF0 + k)
  if 6 ≤ k || !c.svcUp then c.dmiOut 0 true
  else
    match op with
    | .halt => (let c := c.haltReq k; c.dmiOut 0 (!c.coreHalted k))
    | .resume => (let c := c.resumeReq k; c.dmiOut 0 (c.coreHalted k))
    | .step => (c.stepReq k).dmiOut 0 (!c.coreHalted k)
    | .breakpoint b value =>
      if b < 4 && c.get F.DBG_CTRL_BREAK_ROV == 1 then (c.wr (bpOff k b) value).dmiOut 0 false else c.dmiOut 0 true
    | .busRead a d => if c.get F.DBG_CTRL_BREAK_ROV = 1 then c.dmiBus fu req a false d else c.dmiOut 0 true
    | .busWrite a v => if c.get F.DBG_CTRL_BREAK_ROV = 1 then c.dmiBus fu req a true (le 4 v.toNat) else c.dmiOut 0 true
    | .inCore => c.dmiOut 0 (!c.coreHalted k)

/-- May the Spindle pair be halted (R489)? -/
def Chip.spnHaltOk (c : Chip) : Bool := !c.anyHank && !(c.phase == 0x40 && c.get F.PLY_STATUS_LEASE == 1)

/-- The first halt of the Spindle pair at a start (R489): zeroize without `ZEROIZE_OUT_N`, `SPN_DBG`, the watchdog suspended, event 0x3021; the
instance is stale. -/
def Chip.spnFirst (c : Chip) : Chip :=
  let c := (c.zeroize.put F.DBG_STATUS_SPN_DBG 1).put F.DBG_STATUS_SPN_HALTED 1
  let c := if c.role = 2 || c.role = 3 || c.role = 4 then c.setRole 1 else c
  c.log 0x3021 uDBG (aCore 0xFF 0 1 0 0 0)

/-- A halt of the Spindle pair. -/
def Chip.spnHalt (c : Chip) : Chip :=
  if c.get F.DBG_STATUS_SPN_HALTED = 1 then c.dmiOut 0 false
  else if !c.spnHaltOk then (c.jtagRefuse 0x11).dmiOut 0 true
  else
    let c := { c with dbg := { c.dbg with haltAt := tput c.dbg.haltAt 6 c.slot } }
    (if c.get F.DBG_STATUS_SPN_DBG = 1 then c.put F.DBG_STATUS_SPN_HALTED 1 else c.spnFirst).dmiOut 0 false

/-- The Spindle pair runs on; its watchdog goes on counting. -/
def Chip.spnResume (c : Chip) : Chip :=
  if c.get F.DBG_STATUS_SPN_HALTED = 0 then c
  else
    let c := { c with cores := { c.cores with spnKick := c.cores.spnKick + (c.slot - tget c.dbg.haltAt 6 0) } }
    c.put F.DBG_STATUS_SPN_HALTED 0

/-- A request at the debug module of the Spindle pair (R486, R489). -/
def Chip.spnDmi (c : Chip) (fu : Fuses) (op : DmiOp) : Chip :=
  if !c.svcUp then c.dmiOut 0 true
  else
    let halted := c.get F.DBG_STATUS_SPN_HALTED == 1
    match op with
    | .halt => c.spnHalt
    | .resume => c.spnResume.dmiOut 0 false
    | .step => c.dmiOut 0 (!halted)
    | .breakpoint _ _ => c.dmiOut 0 (!halted)
    | .busRead a d => c.dmiBus fu reqSpindle a false d
    | .busWrite a v => c.dmiBus fu reqSpindle a true (le 4 v.toNat)
    | .inCore => c.dmiOut 0 (!halted)

end Sys2Proof.Machine
end

