-- ==== Sys2Proof/Machine/Debug.lean ====
section
/-!
DEFINITION. The commands of debug, trace and counters (R486 to R510) and the reads of the event logs (R515).
-/

namespace Sys2Proof.Machine

/-! JTAG. -/

/-- BYPASS (R486). -/
def execBypass (s : State) : Host.Outcome State Fault Refusal := s.on (fun c => c.jtagUse 0xFF (fun c => c.send (.jtag 1 0)))

/-- IDCODE (R35). -/
def execIdcode (s : State) : Host.Outcome State Fault Refusal := s.on (fun c => c.jtagUse 0x01 (fun c => c.send (.jtag 32 c.idcode)))

/-- SAMPLE_PRELOAD (R35): the chain selected is the base die's. -/
def execSamplePreload (s : State) : Host.Outcome State Fault Refusal := s.on (fun c => c.jtagUse 0x02 (fun c => c))

/-- DTM_ROV (R486, R490). -/
def execDtmRov (core : Nat) (op : DmiOp) (s : State) : Host.Outcome State Fault Refusal :=
  s.onCutS (fun c => c.jtagUse 0x10 (fun c => c.rovDmi s.fuses core op))

/-- DTM_SPN (R486, R489). -/
def execDtmSpn (op : DmiOp) (s : State) : Host.Outcome State Fault Refusal :=
  s.onCutS (fun c => c.jtagUse 0x11 (fun c => c.spnDmi s.fuses op))

/-- OTP_PORT (R487). -/
def execOtpPort (write : Bool) (sel : BitVec 4) (data : Word) (s : State) : Host.Outcome State Fault Refusal :=
  s.onCutS (fun c => c.jtagUse 0x20 (fun c => c.portScan s.fuses 2 (otpSel sel.toNat) write data))

/-- LC_PORT (R487). -/
def execLcPort (write : Bool) (sel : BitVec 4) (data : Word) (s : State) : Host.Outcome State Fault Refusal :=
  s.onCutS (fun c => c.jtagUse 0x21 (fun c => c.portScan s.fuses 3 (lcSel sel.toNat) write data))

/-- ENT_RAW (R488): 32 raw samples of the source the previous Update-DR chose; `data` is this Update-DR. -/
def execEntRaw (data samples : Word) (s : State) : Host.Outcome State Fault Refusal :=
  s.on (fun c => c.jtagUse 0x22 (fun c =>
    let c := c.send (.jtag 32 samples.toNat)
    { c with dbg := { c.dbg with entSource := data.toNat % 2 } }))

/-! Roving cores. -/

/-- HALT (R490, R491): a write of `DBG_COREc_CTRL.HALT`. -/
def execHalt (req : Req) (core : Nat) (s : State) : Host.Outcome State Fault Refusal :=
  s.onS (fun c => if 6 ≤ core then c else c.guarded req (R.DBG_COREc_CTRL core) true (fun c => (c.wrote req).haltReq core))

/-- STEP (R491): a write of `DBG_COREc_CTRL.STEP`. -/
def execDbgStep (req : Req) (core : Nat) (s : State) : Host.Outcome State Fault Refusal :=
  s.onS (fun c => if 6 ≤ core then c else c.guarded req (R.DBG_COREc_CTRL core) true (fun c => (c.wrote req).stepReq core))

/-- DBG_RESUME (R491, R492): a write of `DBG_COREc_CTRL.RESUME`. -/
def execDbgResume (req : Req) (core : Nat) (s : State) : Host.Outcome State Fault Refusal :=
  s.onS (fun c => if 6 ≤ core then c else c.guarded req (R.DBG_COREc_CTRL core) true (fun c => (c.wrote req).resumeReq core))

/-- BREAKPOINT_MATCH (R494): the core's fetch address meets a breakpoint register. -/
def execBreakpointMatch (core b pc : Nat) (s : State) : Host.Outcome State Fault Refusal := s.onS (fun c => c.breakAt core b pc)

/-- A write of `DBG_CTRL` that clears a bit. -/
def Chip.ctrlClear (c : Chip) (req : Req) (f : Fld) (off : Chip → Chip) : Chip :=
  c.guarded req R.DBG_CTRL true (fun c => (c.wrote req).when (c.get f == 1) off)

/-- BREAK_ROV_CLEAR (R490, Table 18.2). -/
def execBreakRovClear (req : Req) (s : State) : Host.Outcome State Fault Refusal :=
  s.onS (fun c => c.ctrlClear req F.DBG_CTRL_BREAK_ROV Chip.breakOff)

/-- TRACE_ROV_CLEAR (R500). -/
def execTraceRovClear (req : Req) (s : State) : Host.Outcome State Fault Refusal :=
  s.onS (fun c => c.ctrlClear req F.DBG_CTRL_TRACE_ROV Chip.traceOff)

/-- CNT_ROV_CLEAR (R507). -/
def execCntRovClear (req : Req) (s : State) : Host.Outcome State Fault Refusal :=
  s.onS (fun c => c.ctrlClear req F.DBG_CTRL_CNT_ROV Chip.counterOff)

/-! Trace sources. -/

/-- A write of a bit of `DBG_TRt_CTRL`. -/
def Chip.traceBit (c : Chip) (req : Req) (t : Nat) (f : Chip → Chip) : Chip :=
  if 17 ≤ t then c else c.guarded req (R.DBG_TRt_CTRL t) true (fun c => f (c.wrote req))

/-- TRACE_ARM (R498). -/
def execTraceArm (req : Req) (t : Nat) (s : State) : Host.Outcome State Fault Refusal := s.onS (fun c => c.traceBit req t (fun c => c.traceArm t))

/-- TRACE_TRIGGER (R498): a breakpoint of a core's source, or an event of a unit's source, fires it. -/
def execTraceTrigger (t cause bp code : Nat) (s : State) : Host.Outcome State Fault Refusal :=
  s.onS (fun c =>
    let k := c.geti F.DBG_TRt_CTRL_TRIG_CLASS t
    let ok := match cause with
      | 2 => decide (t < 6) && decide (bp < 4) && wget 1 0 (c.rd (bpOff t bp)) == 3 && c.get F.DBG_CTRL_TRACE_ROV == 1
      | 3 => decide (6 ≤ t) && decide (t < 15) && decide (0 < k) && decide (k ≤ code / 0x1000)
      | _ => false
    if c.svcUp && ok then c.fire t cause (if cause = 2 then bp else 0) (if cause = 3 then code else 0) else c)

/-- SW_TRIG (R498). -/
def execSwTrig (req : Req) (t : Nat) (s : State) : Host.Outcome State Fault Refusal := s.onS (fun c => c.traceBit req t (fun c => c.fire t 1 0 0))

/-- FLUSH (R499). -/
def execTraceFlush (req : Req) (t : Nat) (s : State) : Host.Outcome State Fault Refusal := s.onS (fun c => c.traceBit req t (fun c => c.tracePad t))

/-- TRACE_HOLD_TIMER (R499): a record was held for 4,096 slots. -/
def execTraceHoldTimer (t : Nat) (s : State) : Host.Outcome State Fault Refusal :=
  s.onS (fun c => if c.svcUp && t < 17 && c.traceHeld t then c.tracePad t else c)

/-- A granted read of a register answers with its data. -/
def Chip.fabricRead (c : Chip) (req : Req) (off : Nat) : Chip :=
  c.guarded req off false (fun c => let r := c.readReg req off; r.1.respond req true r.2)

/-- TRACE_PORT_READ (R495). -/
def execTracePortRead (req : Req) (t : Nat) (s : State) : Host.Outcome State Fault Refusal :=
  s.onS (fun c => if 17 ≤ t then c else c.fabricRead req (0x14000 + 0x100 * t))

/-- SOFTWARE_RECORD (R495): a core's write of CSR 0x7C1. -/
def execSoftwareRecord (core : Nat) (value : BitVec 64) (s : State) : Host.Outcome State Fault Refusal :=
  s.onS (fun c => if core < 6 && c.svcUp && c.coreFree core then c.trace core 3 0 (le 8 value.toNat) else c)

/-- DBG_SPN_TRACE_WRITE (R510). -/
def execDbgSpnTraceWrite (req : Req) (value : Word) (s : State) : Host.Outcome State Fault Refusal :=
  s.onS (fun c => c.guarded req R.DBG_SPN_TRACE true (fun c => (c.wrote req).spnTrace value))

/-! Counters. -/

/-- COUNTER_SAMPLE (R504): `boundary` is each group's byte 7, set where a reset falls in the same cycle (R505). -/
def execCounterSample (boundary : List (BitVec 8)) (s : State) : Host.Outcome State Fault Refusal :=
  s.onS (fun c =>
    if c.svcUp && c.get F.DBG_CNT_CFG_EN = 1 && c.slot % 2 ^ c.get F.DBG_CNT_CFG_K = 0 then
      c.each (List.range 8) (fun c g => c.sampleGroup g (boundary.getD g 0).toNat)
    else c)

/-- SAMPLE_PORT_READ (R504). -/
def execSamplePortRead (req : Req) (g : BitVec 3) (s : State) : Host.Outcome State Fault Refusal :=
  s.onS (fun c => c.fabricRead req (0x16000 + 0x100 * g.toNat))

/-- COUNTER_READ (R510). -/
def execCounterRead (req : Req) (i : BitVec 6) (s : State) : Host.Outcome State Fault Refusal :=
  s.onS (fun c => c.fabricRead req (R.DBG_CNTi_LO i.toNat))

/-! Noil rings. -/

/-- NOIL_FREEZE (R502): a write of `FREEZE`; the other causes freeze where they arise. -/
def execNoilFreeze (req : Req) (s : State) : Host.Outcome State Fault Refusal :=
  s.onS (fun c => c.guarded req R.DBG_NOIL_CTRL true (fun c => (c.wrote req).freezeNoil 4))

/-- UNFREEZE (R502). -/
def execUnfreeze (req : Req) (s : State) : Host.Outcome State Fault Refusal :=
  s.onS (fun c => c.guarded req R.DBG_NOIL_CTRL true (fun c => (c.wrote req).unfreeze))

/-- NOIL_DATA_READ (R510). -/
def execNoilDataRead (req : Req) (s : State) : Host.Outcome State Fault Refusal := s.onS (fun c => c.fabricRead req R.DBG_NOIL_DATA)

/-! The event logs. -/

/-- GEN_EVT_DATA_READ (R515). -/
def execGenEvtDataRead (req : Req) (s : State) : Host.Outcome State Fault Refusal := s.onS (fun c => c.fabricRead req R.GEN_EVT_DATA)

/-- GEN_AEV_DATA_READ (R515). -/
def execGenAevDataRead (req : Req) (s : State) : Host.Outcome State Fault Refusal := s.onS (fun c => c.fabricRead req R.GEN_AEV_DATA)

end Sys2Proof.Machine
end

