-- ==== Sys2Proof/Machine/Dma.lean ====
section
/-!
DEFINITION. The commands of the DMA engine (R302 to R317). An operation's row takes the descriptor that its channel's ring holds
at `HEAD`, when that descriptor names the operation.
-/

namespace Sys2Proof.Machine

/-- DMA_CH_TAIL_WRITE (R302): the holder moves `TAIL`; descriptors with a reserved `OP` at the head are refused with BAD_ARG. -/
def execDmaChTailWrite (req : Req) (n : BitVec 5) (idx : BitVec 10) (s : State) : Host.Outcome State Fault Refusal :=
  s.onS (fun c => c.guarded req (R.DMA_CHn_TAIL n.toNat) true (fun c =>
    ((c.wrote req).dmTail req n.toNat idx.toNat).dmSkip n.toNat 1024))

/-- DMA_OWN_POLL (R302): a descriptor whose `OWN` still reads 0 is only read again. -/
def execDmaOwnPoll (_n : BitVec 5) (s : State) : Host.Outcome State Fault Refusal := .next s

/-- COPY (R303). -/
def execCopy (n : BitVec 5) (s : State) : Host.Outcome State Fault Refusal := s.onS (fun c => c.dmRow n.toNat 1 [])

/-- FILL (R303). -/
def execFill (n : BitVec 5) (s : State) : Host.Outcome State Fault Refusal := s.onS (fun c => c.dmRow n.toNat 2 [])

/-- GATHER (R303, R304). -/
def execGather (n : BitVec 5) (table : List Nat) (s : State) : Host.Outcome State Fault Refusal := s.onS (fun c => c.dmRow n.toNat 3 table)

/-- SCATTER (R303, R304). -/
def execScatter (n : BitVec 5) (table : List Nat) (s : State) : Host.Outcome State Fault Refusal := s.onS (fun c => c.dmRow n.toNat 4 table)

/-- DMA_REQUEST_LINE (R308, R309). -/
def execDmaRequestLine (line : BitVec 6) (data : List Byte) (s : State) : Host.Outcome State Fault Refusal :=
  s.onCutS (fun c => c.dmRequest s.fuses line.toNat data)

/-- DMA_DESCRIPTOR_DONE (R303 to R306): the rest of the descriptor's data goes, and it is written back. -/
def execDmaDescriptorDone (n : BitVec 5) (data : List Byte) (s : State) : Host.Outcome State Fault Refusal :=
  s.onCutS (fun c => c.dmComplete s.fuses n.toNat data)

/-- DMA_SWREQ (R309): a write of `DMA_SWREQ`. -/
def execDmaSwreq (req : Req) (mask : BitVec 16) (s : State) : Host.Outcome State Fault Refusal :=
  s.onS (fun c => c.guarded req R.DMA_SWREQ true (fun c => (c.wrote req).dmSwreq mask.toNat))

/-- DMA_PAUSE (R311): a write of `PAUSE`, set or cleared. -/
def execDmaPause (req : Req) (n : BitVec 5) (on : Bool) (s : State) : Host.Outcome State Fault Refusal :=
  s.onS (fun c => c.guarded req (R.DMA_CHn_CTRL n.toNat) true (fun c => (c.wrote req).dmPause n.toNat on))

/-- DMA_PAUSE_DRAINED (R311). -/
def execDmaPauseDrained (m : DmaMove) (s : State) : Host.Outcome State Fault Refusal := s.onCutS (fun c => c.dmPaused s.fuses m)

/-- DMA_ABORT (R311): a write of `ABORT`. -/
def execDmaAbort (req : Req) (n : BitVec 5) (s : State) : Host.Outcome State Fault Refusal :=
  s.onS (fun c => c.guarded req (R.DMA_CHn_CTRL n.toNat) true (fun c => (c.wrote req).dmAbort n.toNat))

/-- DMA_BUS_ERROR (R307, R313): cause, address, direction, whether an index read, the ring index of a late write's descriptor, and what the
channels moved before the stop. -/
def execDmaBusError (n : BitVec 5) (cause addr : Nat) (wr index : Bool) (late : Option Nat) (moves : List DmaMove) (s : State) :
    Host.Outcome State Fault Refusal :=
  s.onCutS (fun c => c.dmBusError s.fuses n.toNat cause addr wr index late moves)

/-- DMA_RELEASE (R314): a write of `DMA_RELEASE`. -/
def execDmaRelease (req : Req) (mask : Word) (s : State) : Host.Outcome State Fault Refusal :=
  s.onS (fun c => c.guarded req R.DMA_RELEASE true (fun c => (c.wrote req).dmRelease mask.toNat))

/-- DMA_CLEAR (R314): a write of `CLEAR`, which is Spindle's alone. -/
def execDmaClear (req : Req) (n : BitVec 5) (s : State) : Host.Outcome State Fault Refusal :=
  s.onS (fun c => c.guarded req (R.DMA_CHn_CTRL n.toNat) true (fun c =>
    let c := c.wrote req
    if classOf req = .spindle then c.dmClear n.toNat else c))

/-- What a fenced core's pausing channels had staged is written (R143, R311). -/
def Chip.fenceDrain (c : Chip) (fu : Fuses) (k : Nat) : Chip :=
  if 6 ≤ k || c.coreSt k != 2 || !c.svcUp then c
  else c.each ((List.range 32).filter (fun n => c.geti F.DMA_CHn_CFG_OWNER n == 0xF0 + k && c.dmSt n == dPausing)) (fun c n => (c.dmDrain fu n).1)

/-- FENCING_DONE (R143, R315). -/
def execFencingDone (core pc : Nat) (s : State) : Host.Outcome State Fault Refusal :=
  s.onCutS (fun c => (c.fenceDrain s.fuses core).fenceDone core pc)

/-- DMA_PARITY_ERROR (R317). -/
def execDmaParityError (n : BitVec 5) (s : State) : Host.Outcome State Fault Refusal := s.onS (fun c => c.dmParity n.toNat)

/-- DMA_CHANNEL_ENABLE (R312): a write of `EN` 1. -/
def execDmaChannelEnable (req : Req) (n : BitVec 5) (s : State) : Host.Outcome State Fault Refusal :=
  s.onS (fun c => c.guarded req (R.DMA_CHn_CFG n.toNat) true (fun c => (c.wrote req).dmEnable n.toNat true))

end Sys2Proof.Machine
end

