-- ==== Sys2Proof/Machine/ObjectOps.lean ====
section
/-!
DEFINITION. Owner objects as they reach Spindle, by service call and by SPDM (R384 to R388), and the reveal block (R376).
-/

namespace Sys2Proof.Machine

/-- The kinds a call or an opcode carries (R384, Table 14.3), by its last two bits: CONSENT, CEREMONY_SHARE, HANK_CREATE, HANK_TEARDOWN. -/
def kindsOf (op : Nat) : List Nat :=
  match op with
  | 0 => [0x10, 0x11, 0x12]
  | 1 => [0x02]
  | 2 => [0x01]
  | _ => [0x03]

/-- The status of a body that came under an opcode. -/
def Chip.bodySt (c : Chip) (op : Nat) (b : List Byte) : Status :=
  let st := c.bodyStatus b (c.snapFits b)
  if kindsOf op |>.contains (obKind b) then st else firstStatus [(st != .pending, st), (true, .badArg)]

/-- A body under an opcode, with its call's ticket; one that needs no endorsement takes effect at once (Table 14.3). -/
def Chip.bodyUnder (c : Chip) (op : Nat) (b : List Byte) (ticket : Nat) : Chip × Status :=
  if kindsOf op |>.contains (obKind b) then
    let r := c.bodyIn b ticket (c.snapFits b)
    if r.2 = .pending then (r.1.objReady (Config.sha3_384 b), .pending) else r
  else
    let st := c.bodySt op b
    (c.objLog 0x1E01 (obHank b % 256) (obKind b) 0 st (obSeq b) (Config.sha3_384 b), st)

/-- An answer waits for the partner's acknowledgement of what was mirrored for it (R388). -/
def Chip.answerMirrored (c : Chip) (k : Call) (a : Answer) (before : Nat) : Chip × Answer :=
  if c.waitsPartner && decide (before < c.ply.mseq) then (c.hold (.answer k.mbox a) c.ply.mseq 0, { a with wait_ := true }) else (c, a)

/-- An owner object's call: a body, or an endorsement (R384, R387). -/
def Chip.objCall (c : Chip) (k : Call) (op : Nat) (input : List Byte) (genuine : Bool) : Chip × Answer :=
  let before := c.ply.mseq
  if isBody input then
    if c.bodySt op input = .pending then
      match c.pendCall k with
      | none => (c, { st := .busy })
      | some p =>
        let r := p.2.bodyUnder op input p.1
        r.1.answerMirrored k { st := .pending, ticket := p.1 } before
    else
      let r := c.bodyUnder op input 0
      (r.1, { st := r.2 })
  else if input.length != 5536 then (c, { st := .badArg })
  else
    let r := c.endorse input genuine
    r.1.answerMirrored k { st := r.2 } before

/-- The last two bits of a call's code as the opcode of its objects (R384). -/
def callOp (code : Nat) : Nat := if code = 0x30 then 2 else if code = 0x31 then 3 else if code = 0x32 then 1 else 0

/-- The row of a call that carries owner objects. -/
def Chip.onObjCall (c : Chip) (n code : Nat) (genuine : Bool) (mine : List Byte → Bool) : Chip :=
  if mine (c.callInput n) then c.onCall n code noGate (fun c k b => c.objCall k (callOp code) b genuine) else c

/-! Portions (R384). -/

/-- Assemblies without a portion for 65,536 slots are dropped. -/
def Chip.partsFresh (c : Chip) : Chip := c.ha (fun u => { u with parts := u.parts.filter (fun a => decide (c.slot < a.last + 65536)) })

/-- Do two stretches of a body meet? -/
def partsMeet (off len : Nat) (parts : List (Nat × List Byte)) : Bool :=
  parts.any (fun p => decide (off < p.1 + p.2.length) && decide (p.1 < off + len))

/-- What an object's query is answered with. -/
def Chip.objQuery (c : Chip) (session object : Nat) : Status :=
  match c.hanks.asked.find? (fun a => a.1 == session && a.2.1 == object) with
  | some a => (Status.ofCode a.2.2.2).getD .badArg
  | none => if c.hanks.parts.any (fun a => a.session == session && a.object == object) then .pending else .badArg

/-- The outcome of an object noted for queries. -/
def Chip.objNote (c : Chip) (session object : Nat) (d : List Byte) (st : Status) : Chip :=
  c.ha (fun u => { u with asked := u.asked.filter (fun a => !(a.1 == session && a.2.1 == object)) ++ [(session, object, d, st.code)] })

/-- A portion, an endorsement or a query (R384). -/
def Chip.portion (c : Chip) (session op : Nat) (b : List Byte) (genuine : Bool) : Chip × Status :=
  let c := c.partsFresh
  let obj := numAt b 0 4
  let typ := numAt b 4 1
  let total := numAt b 8 4
  let off := numAt b 12 4
  let data := b.drop 16
  if b.length < 16 || obj = 0 || numAt b 5 3 != 0 then (c, .badArg)
  else if typ = 3 then (if total = 0 && off = 0 && data.isEmpty then (c, c.objQuery session obj) else (c, .badArg))
  else if typ = 2 then (if total = 0 && off = 0 && data.length = 5536 then c.endorse data genuine else (c, .badArg))
  else if typ != 1 || total < 64 || 196608 < total || data.isEmpty || 14336 < data.length || total < off + data.length then (c, .badArg)
  else
    let own := c.hanks.parts.find? (fun a => a.session == session && a.object == obj)
    let a := own.getD { session := session, object := obj, opcode := op, total := total, parts := [] }
    if a.total != total || a.opcode != op || partsMeet off data.length a.parts then (c, .badArg)
    else if own.isNone && 8 ≤ (c.hanks.parts.filter (fun a => a.session == session)).length then (c, .limitReached)
    else
      let parts := a.parts ++ [(off, data)]
      let others := c.hanks.parts.filter (fun a => !(a.session == session && a.object == obj))
      if (parts.map (fun p => p.2.length)).sum < total then
        (c.ha (fun u => { u with parts := others ++ [{ a with parts := parts, last := c.slot }] }), .ok)
      else
        let body := ((parts.mergeSort (fun p q => decide (p.1 ≤ q.1))).map (·.2)).flatten
        let c := c.ha (fun u => { u with parts := others })
        let d := Config.sha3_384 body
        let c := c.objNote session obj d .pending
        let r := if isBody body then c.bodyUnder (op % 4) body 0 else (c, Status.badArg)
        if r.2 = .pending then r else (r.1.objNote session obj d r.2, r.2)

/-! Receipts (R376, R377). -/

/-- A reveal block (Table 13.10), where a NOISE_REVEAL consent covers the step; event 0x0D04. -/
def Chip.reveal (c : Chip) (h : Nat) (s : TwStep) : Chip × List Byte :=
  match (match c.hank? h with | some k => k.consent? 1 | none => none) with
  | none => (c, [])
  | some q =>
    if s.num < q.first || q.last < s.num || (tget? c.cust.keys.noise h).isNone then (c, [])
    else
      let xs := if s.recipe.isEmpty then [] else rcNoise s.recipe
      let r := c.rnd 32
      let e := r.2.rnd 48
      let kem := Config.mlkemEncaps (slice q.params 0 1568) r.1
      let z := Config.ecdhX e.1 (slice q.params 1568 97)
      let key := Config.kmac256 (kem.2 ++ z) (ascii "reveal" ++ le 1 h ++ le 8 s.num) (ascii "GGM-1 REVEAL") 32
      let head := ascii "GGMN" ++ pack [(2, xs.length), (2, 0), (8, s.num)] ++ padTo 1568 kem.1 ++ padTo 97 (Config.ecPubFull e.1) ++ List.replicate 15 0#8
      let text := (xs.map (fun x => le 4 x ++ padTo 32 (c.seedOf h s.num x))).flatten
      let c := e.2.twLog 0x0D04 h c.node (c.twActive h) s.num 0 0 xs.length
      (c, head ++ Config.gcmEnc key (List.replicate 12 0#8) head text)

/-- The answer of GET_RECEIPT (R377). -/
def Chip.receipt (c : Chip) (h n : Nat) : Chip × Status × List Byte :=
  let t := c.tw h
  if (c.hank? h).isNone then (c, .badArg, [])
  else
    match t.newestRun n with
    | none => (c, .badArg, [])
    | some s =>
      match s.st with
      | 4 => (match t.receipts.reverse.find? (fun r => r.1 == n) with
        | some r => let v := c.reveal h s; (v.1, .ok, le 4 r.2.length ++ r.2 ++ v.2)
        | none => (c, .badArg, []))
      | 5 => (c, .integrity, [])
      | 6 => (c, .staleEpoch, [])
      | _ => (c, .busy, [])

end Sys2Proof.Machine
end

