-- ==== Sys2Proof/Machine/Hanks.lean ====
section
/-!
DEFINITION. The commands of hanks, owner objects, scrubs and quiet replies (R382 to R417).
-/

namespace Sys2Proof.Machine

/-- HANK_CREATE (R384, R387, R390): the call with a body or an endorsement. -/
def execHankCreate (n : Nat) (genuine : Bool) (s : State) : Host.Outcome State Fault Refusal :=
  s.onS (fun c => c.onObjCall n 0x30 genuine (fun _ => true))

/-- HANK_TEARDOWN (R396). -/
def execHankTeardown (n : Nat) (genuine : Bool) (s : State) : Host.Outcome State Fault Refusal :=
  s.onS (fun c => c.onObjCall n 0x31 genuine (fun _ => true))

/-- CEREMONY_SHARE (R393). -/
def execCeremonyShare (n : Nat) (genuine : Bool) (s : State) : Host.Outcome State Fault Refusal :=
  s.onS (fun c => c.onObjCall n 0x32 genuine (fun _ => true))

/-- CONSENT (R399, R400): the call with a CONSENT body or an endorsement. -/
def execConsent (n : Nat) (genuine : Bool) (s : State) : Host.Outcome State Fault Refusal :=
  s.onS (fun c => c.onObjCall n 0x33 genuine (fun b => !isBody b || (obKind b != 0x11 && obKind b != 0x12)))

/-- WITHDRAW_OBJECT (R401): the CONSENT call with a WITHDRAW body. -/
def execWithdrawObject (n : Nat) (s : State) : Host.Outcome State Fault Refusal :=
  s.onS (fun c => c.onObjCall n 0x33 false (fun b => isBody b && obKind b == 0x11))

/-- STRAND_SET (R403): the CONSENT call with a STRAND_SET body. -/
def execStrandSet (n : Nat) (s : State) : Host.Outcome State Fault Refusal :=
  s.onS (fun c => c.onObjCall n 0x33 false (fun b => isBody b && obKind b == 0x12))

/-- OWNER_ENDORSEMENT (R387): an endorsement by any of the four calls. -/
def execOwnerEndorsement (n : Nat) (genuine : Bool) (s : State) : Host.Outcome State Fault Refusal :=
  s.onS (fun c => match c.callAt n with
    | some k => if 0x30 ≤ k.code && k.code ≤ 0x33 then c.onObjCall n k.code genuine (fun b => !isBody b) else c
    | none => c)

/-- OBJECT_EXPIRY (R388). -/
def execObjectExpiry (i : Nat) (s : State) : Host.Outcome State Fault Refusal :=
  s.onS (fun c => match c.hanks.pend[i]? with | some p => c.objExpire p | none => c)

/-- HANK_KEYING (R394, R395): the steps of the ceremony whose waits are over. -/
def execHankKeying (h : BitVec 4) (s : State) : Host.Outcome State Fault Refusal :=
  s.onS (fun c => if c.svcUp && c.hankSt h.toNat = 2 then c.hankSteps h.toNat Chip.tallyAbort else c)

/-- HANK_TEARING (R397). -/
def execHankTearing (h : BitVec 4) (s : State) : Host.Outcome State Fault Refusal :=
  s.onS (fun c => if c.svcUp && c.hankSt h.toNat = 5 then c.hankSteps h.toNat Chip.tallyAbort else c)

/-- CONSENT_END_SLOT (R400); a RECIPE has no end slot. -/
def execConsentEndSlot (h : BitVec 4) (kind : Nat) (s : State) : Host.Outcome State Fault Refusal :=
  s.onS (fun c => match (match c.hank? h.toNat with | some k => k.consent? kind | none => none) with
    | some q => if c.svcUp && kind != 2 && q.endSlot != 0 && decide (q.endSlot < c.slot) then c.consentEnd h.toNat kind else c
    | none => c)

/-- SCRUB_DIGEST (R407, R409). -/
def execScrubDigest (s : State) : Host.Outcome State Fault Refusal := s.onS (fun c => c.onFrame 0x51 Chip.scrubbed)

/-- SCRUB_TIMEOUT (R409): no result of a scrub outstanding came within 50 ms. -/
def execScrubTimeout (h : BitVec 4) (die : Nat) (s : State) : Host.Outcome State Fault Refusal :=
  s.onS (fun c => match (match c.hank? h.toNat with | some k => tget? k.scrubs die | none => none) with
    | some q => if c.leads && !q.ok then c.scrubFail h.toNat die q.number else c
    | none => c)

/-- QUIET_REPLY_RELEASE (R413, R415). -/
def execQuietReplyRelease (i : Nat) (s : State) : Host.Outcome State Fault Refusal :=
  s.onS (fun c => match c.late[i]? with
    | none => c
    | some l =>
      if !c.svcUp || c.slot < l.due then c
      else
        let k := (l.due - l.arrive) / l.period
        let c := ({ c with late := c.late.eraseIdx i }).doEff l.eff
        if 2 ≤ k then c.log 0x1E04 uSPN (aStep l.hank 0 0 0 0 0 k 0) else c)

end Sys2Proof.Machine
end

