-- ==== Sys2Proof/Machine/Keyed.lean ====
section
/-!
DEFINITION. Reports of the inline engines and the tree root store (R240 to R252).
-/

namespace Sys2Proof.Machine

/-- ROOT_UPDATE (R241): the instance of its base die accepts it, whatever its role. -/
def execRootUpdate (ch : Nat) (frame : WarpFrame) (s : State) : Host.Outcome State Fault Refusal := s.onS (fun c => c.rootUpdate ch frame)

/-- ROOT_STORE_PATROL (R243). -/
def execRootStorePatrol (tree : Nat) (double : Bool) (s : State) : Host.Outcome State Fault Refusal := s.onS (fun c => c.rootPatrol tree double)

/-- ROOT_REPAIR_DONE (R243, R245). -/
def execRootRepairDone (tree : Nat) (good : Bool) (bytes : List Byte) (s : State) : Host.Outcome State Fault Refusal :=
  s.onS (fun c => if c.svcUp then c.rootRepaired tree good bytes else c)

/-- FAULT_REPORT (R244). -/
def execFaultReport (ch : Nat) (frame : WarpFrame) (s : State) : Host.Outcome State Fault Refusal :=
  s.onS (fun c => c.report (ch % 8) frame Chip.faultReport)

/-- COMPLEX_RESET_ANNOUNCE (R246). -/
def execComplexResetAnnounce (ch : Nat) (frame : WarpFrame) (s : State) : Host.Outcome State Fault Refusal :=
  s.onS (fun c => c.report (ch % 8) frame Chip.complexReset)

/-- BOUNDARY_REPORT (R249). -/
def execBoundaryReport (ch : Nat) (frame : WarpFrame) (s : State) : Host.Outcome State Fault Refusal :=
  s.onS (fun c => c.report (ch % 8) frame (fun c _ f => c.boundaryReport f))

/-- PEER_EPOCH_REPORT (R252). -/
def execPeerEpochReport (ch : Nat) (frame : WarpFrame) (s : State) : Host.Outcome State Fault Refusal :=
  s.onS (fun c => c.report (ch % 8) frame Chip.peerEpoch)

end Sys2Proof.Machine
end

