-- ==== Sys2Proof/Machine/RingLate.lean ====
section
/-!
DEFINITION. Commands of the Skein ring that reach other units (R42, R43, R45, R518).
-/

namespace Sys2Proof.Machine

/-- A break already in force. -/
def Chip.brokenAt (c : Chip) (a b : Nat) : Bool := c.ring.breaks.contains (a, b)

/-- A segment on which no break in force lies: its mended notice adds nothing. -/
def Chip.wholeAt (c : Chip) (a b : Nat) : Bool := c.ring.breaks.flatMap (breakLess c.pkg a b) == c.ring.breaks

/-- RING_STATE (R42, R43, Table 2.6): a break, or a mended segment. The other end's notice of the same change adds nothing. -/
def execRingState (s : State) : Host.Outcome State Fault Refusal :=
  s.onS (fun c => c.onFrame 0x70 (fun c m =>
    let a := numAt m.payload 1 1
    let b := numAt m.payload 2 1
    match numAt m.payload 0 1 with
    | 1 => if c.brokenAt a b then c.count 28 1 else (c.noteBreak a b).1
    | 2 => if c.wholeAt a b && c.present a && c.present b then c else c.noteMended a b
    | _ => c))

/-- This instance, a live neighbour of a node whose Splice closed, loses lane lock on that side and sends the break notice. -/
def Chip.besideClosed (c : Chip) (cc : Bool) : Chip :=
  match c.neighbour cc with
  | none => c
  | some m =>
    let a := if cc then m else c.node
    let b := if cc then c.node else m
    let c := if cc then c.put F.SKN_STATUS_CW_LOCK 0 else c.put F.SKN_STATUS_CC_LOCK 0
    (c.noteBreak a b).1.ringBroadcast 0x70 (ringStatePayload 1 a b c.time)

/-- SPLICE_CLOSE (R45, Table 2.7): the bypass of a node has closed. This instance's own Splice goes to RETRAIN; a neighbour's closure is seen
by the loss of lock. -/
def execSpliceClose (node : Nat) (s : State) : Host.Outcome State Fault Refusal :=
  s.onS (fun c =>
    if node = c.node then
      (if c.ring.splice = .closing then ((c.setSplice .retrain).put F.SKN_STATUS_CW_LOCK 0).put F.SKN_STATUS_CC_LOCK 0 else c)
    else if c.ring.splice != .inRing || !c.present node then c
    else
      let cw := c.neighbour false == some node
      let cc := c.neighbour true == some node
      if !cw && !cc then c
      else
        let c := c.setPresent node false
        let c := if cw then c.besideClosed false else c
        if cc then c.besideClosed true else c)

/-- RING_ACK_TIMEOUT (R42): the frame is resent, or given up and reported to its unit as BUSY. -/
def execRingAckTimeout (seq : Nat) (s : State) : Host.Outcome State Fault Refusal :=
  s.onS (fun c =>
    if !c.ringLive then c
    else
      let r := c.ringTimeout seq
      match r.2 with
      | some f =>
        let c := { r.1 with ring := { r.1.ring with lost := r.1.ring.lost ++ [(f.typ, f.dst, f.seq)] } }
        if f.typ = 0x03 then c.pushLost f else c
      | none => r.1)

/-- The codes a die may forward (R518). -/
def fwdCodes : List Nat := [0x1803, 0x2701, 0x2702, 0x2803]

/-- An event a die forwarded is logged with this instance's Whorl time, under the unit the agent gave it; the limit report of a DIE
Bobbin (R190) acts as every limit report (R191). -/
def Chip.fwdLog (c : Chip) (p : List Byte) : Chip :=
  let r : EvRec := { time := c.time, unit := numAt p 8 2, code := numAt p 10 2, args := slice p 12 20 }
  let t := (c.logRec r).traceEvent r
  let c := if t.2 then t.1.logDrop 13 else t.1
  if r.code = 0x2702 then c.limitHit (numAt r.args 0 4) (numAt r.args 4 4) else c

/-- EVENT_FWD (R518): only the lease holder takes it. -/
def execEventFwd (s : State) : Host.Outcome State Fault Refusal :=
  s.onS (fun c => c.onFrame 0x60 (fun c m =>
    if !c.leads then c
    else
      let n := tget c.ring.fwdSeen m.src 0
      if c.present m.src && numAt m.payload 9 1 = m.src && fwdCodes.contains (numAt m.payload 10 2) && n < 64 then
        ({ c with ring := { c.ring with fwdSeen := tput c.ring.fwdSeen m.src (n + 1) } }).fwdLog m.payload
      else if c.ring.fwdBad.contains m.src then c
      else
        ({ c with ring := { c.ring with fwdBad := c.ring.fwdBad ++ [m.src] } }).log 0x1032 uSKN
          (aFrame 0x60 m.src c.node 0 m.seq c.ring.rkey 0 Status.denied.code n)))

end Sys2Proof.Machine
end

