-- ==== Sys2Proof/Machine/Spdm.lean ====
section
/-!
DEFINITION. The commands of attestation: the calls of R332 and R347, the SPDM requests of Table 12.7 and the vendor-defined ones of Table 12.8.
A request row serves the messages that carry its own code; GET_VERSION answers those no row has, GET_CHAIN the unknown opcodes.
-/

namespace Sys2Proof.Machine

/-! Service calls. -/

/-- SNAPSHOT_GET (R324).
DENIED while Spindle keeps no snapshot is this model's choice (assumption 156). -/
def execSnapshotGet (n : Nat) (s : State) : Host.Outcome State Fault Refusal :=
  s.onS (fun c => c.onCall n 0x0002 noGate (fun c _ _ =>
    match c.spdm.snap with
    | some p => (c, { st := .ok, out := p.bytes, inl := [p.gen % 2 ^ 32, p.gen / 2 ^ 32] })
    | none => (c, { st := .denied })))

/-- SIGN_REPORT (R332): the inline arguments carry generation and scope. -/
def execSignReport (n : Nat) (s : State) : Host.Outcome State Fault Refusal :=
  s.onS (fun c => c.onCall n 0x0010 noGate (fun c k b =>
    let gen := numAt k.args 0 4
    let scope := numAt k.args 4 1
    if scope != 255 && 16 ≤ scope then (c, { st := .badArg })
    else
    match c.snapOf gen with
    | none => (c.log 0x1C02 uSPN (aCount gen 0 0 scope), { st := .staleEpoch })
    | some p =>
      if !c.sigRoom scope then (c.queueFull, { st := .busy })
      else
        let nonce := slice b 6 32
        let want := p.payload nonce scope
        if b = want then
          c.pending k (fun c t => c.sigPut scope (.report t gen b c.time))
        else
          let head := want.take 38
          let tail : List (Nat × List Byte) := match p.trans with
            | some t => [(15, cMapU [(1, cUint t.1), (2, cUint t.2.1), (3, cUint t.2.2)])]
            | none => []
          let key := (payloadBad b head ((3, cUint scope) :: p.elems scope ++ tail)).getD 0
          (c.log 0x3C01 uSPN (aCount key 0 0 gen), { st := .integrity })))

/-- SIGN_SPDM (R347): context (1 to 3), algorithm (0 ECDSA, 1 ML-DSA), six zero bytes, transcript hash (assumption 99). An
instance without identity signs nothing (R109; log entry 138). -/
def execSignSpdm (n : Nat) (s : State) : Host.Outcome State Fault Refusal :=
  s.onS (fun c => c.onCall n 0x0011 noGate (fun c k b =>
    let kind := numAt b 0 1
    let alg := numAt b 1 1
    if c.get F.GEN_BOOT_NO_ID = 1 then (c, { st := .denied })
    else if b.length != 56 || kind = 0 || 3 < kind || 1 < alg || numAt b 2 6 != 0 then (c, { st := .badArg })
    else if !c.sigRoom 255 then (c.queueFull, { st := .busy })
    else
      let ctx := spdmCtx kind
      let msg := (List.replicate 4 (ascii "dmtf-spdm-v1.3.*")).flatten ++ List.replicate (36 - ctx.length) 0#8 ++ ascii ctx ++ slice b 8 48
      c.pending k (fun c t => c.sigPut 255 (.call t alg msg))))

/-- SESSION_KEYS (R254, R522): session, crypto channel, key register, host channel, epoch; the sealed key's handle in the inline results
(assumption 99). -/
def execSessionKeys (n : Nat) (s : State) : Host.Outcome State Fault Refusal :=
  s.onS (fun c => c.onCall n 0x0012 noGate (fun c k _ =>
    let id := numAt k.args 0 4
    let ch := numAt k.args 4 1
    let r := numAt k.args 5 1
    let host := numAt k.args 6 2
    let e := numAt k.args 8 4
    match c.sess? id with
    | none => (c, { st := .badArg })
    | some q =>
      let st := firstStatus [(!q.est || (ch < 32 && c.chOwner ch != 0xF0 + k.core), .denied), (decide (32 ≤ ch) || decide (4 ≤ r) || decide (4096 ≤ host), .badArg)]
      if st != .ok then (c, { st := st })
      else
        let key := Config.kmac256 q.secret (ascii "bounce" ++ le 2 host ++ le 4 e) (ascii "GGM-1 HOST") 32
        let c := (c.chKeySet ch r { typ := kAES, isSealed := true, bytes := key }).sp (fun u => { u with chan := tput u.chan host id })
        (c, { st := .ok, inl := [ch + 256 * r] })))

/-- REPORT_SIGNED (R331, R332, R343): the report that is entry `k` of the queue. -/
def execReportSigned (k : Nat) (s : State) : Host.Outcome State Fault Refusal := s.onS (fun c => if c.svcUp then c.reportDone k else c)

/-! SPDM requests (Table 12.7). -/

/-- GET_VERSION (R336), and every request code no other row has. -/
def execGetVersion (m : SpdmMsg) (s : State) : Host.Outcome State Fault Refusal :=
  s.onS (fun c => c.spdmServe m (fun n => n == 0x84 || !spdmCodes.contains n) false false (fun c =>
    let out := pack [(1, 0x10), (1, 0x04), (2, 0), (1, 0), (1, 1), (2, 0x1300)]
    (c.connMod m.conn (fun u => { kems := u.kems, stage := 1, vca := m.msg ++ out })).spdmOut m out))

/-- The flags of Table 12.5. -/
def spdmCaps : Nat := 2 + 4 + 16 + 32 + 64 + 128 + 512 + 8192 + 16384 + 262144

/-- GET_CAPABILITIES (R337). -/
def execGetCapabilities (m : SpdmMsg) (s : State) : Host.Outcome State Fault Refusal :=
  s.onS (fun c => c.spdmServe m (· == 0xE1) false false (fun c =>
    if m.msg.length < 20 then c.spdmErr m 0x01
    else
      let out := pack [(1, 0x13), (1, 0x61), (2, 0), (1, 0), (1, 14), (2, 0), (4, spdmCaps), (4, 15360), (4, 15360)]
      (c.connMod m.conn (fun u => { u with stage := 2, vca := u.vca ++ m.msg ++ out })).spdmOut m out))

/-- The algorithm structures of NEGOTIATE_ALGORITHMS from a position on: type and the fixed bits supported. -/
def algStructs (b : List Byte) (pos n : Nat) : List (Nat × Nat) :=
  match n with
  | 0 => []
  | n + 1 => (numAt b pos 1, numAt b (pos + 2) 2) :: algStructs b (pos + 4 + 4 * (numAt b (pos + 1) 1 % 16)) n

/-- Does the request offer one of each required set (Table 12.6)? -/
def algsOffered (b : List Byte) : Bool :=
  let l := algStructs b (32 + 4 * numAt b 28 1 + 4 * numAt b 29 1) (numAt b 2 1)
  let has := fun t k => l.any (fun (e : Nat × Nat) => e.1 == t && bit e.2 k)
  decide (32 ≤ b.length) && bit (numAt b 6 1) 0 && bit (numAt b 7 1) 1 && bit (numAt b 8 4) 7 && bit (numAt b 12 4) 1 && has 2 4 && has 3 1 && has 5 0

/-- NEGOTIATE_ALGORITHMS (R337). -/
def execNegotiateAlgorithms (m : SpdmMsg) (s : State) : Host.Outcome State Fault Refusal :=
  s.onS (fun c => c.spdmServe m (· == 0xE3) false false (fun c =>
    if !algsOffered m.msg then c.spdmErr m 0x01
    else
      let out := pack [(1, 0x13), (1, 0x63), (1, 4), (1, 0), (2, 52), (1, 1), (1, 2), (4, 0x20), (4, 0x80), (4, 2), (11, 0), (1, 0), (1, 0), (1, 0), (2, 0),
        (1, 2), (1, 0x20), (2, 0x10), (1, 3), (1, 0x20), (2, 2), (1, 4), (1, 0x20), (2, 0), (1, 5), (1, 0x20), (2, 1)]
      (c.connMod m.conn (fun u => { u with stage := 3, vca := u.vca ++ m.msg ++ out })).spdmOut m out))

/-- GET_DIGESTS (R322, R338). -/
def execGetDigests (m : SpdmMsg) (s : State) : Host.Outcome State Fault Refusal :=
  s.onS (fun c => c.spdmServe m (· == 0x81) false false (fun c => c.withChain m (fun c ch =>
    let out := pack [(1, 0x13), (1, 0x01), (1, 1), (1, 1)] ++ padTo 48 (Config.sha384 ch)
    (c.connMod m.conn (fun u => { u with certs := u.certs ++ m.msg ++ out })).spdmOut m out)))

/-- GET_CERTIFICATE (R322, R338). -/
def execGetCertificate (m : SpdmMsg) (s : State) : Host.Outcome State Fault Refusal :=
  s.onS (fun c => c.spdmServe m (· == 0x82) false false (fun c =>
    if m.msg.length < 8 || numAt m.msg 2 1 % 16 != 0 then c.spdmErr m 0x01
    else c.withChain m (fun c ch =>
      let off := numAt m.msg 4 2
      if ch.length ≤ off then c.spdmErr m 0x01
      else
        let part := (ch.drop off).take (min 15000 (numAt m.msg 6 2))
        let out := pack [(1, 0x13), (1, 0x02), (1, 0), (1, 0), (2, part.length), (2, ch.length - off - part.length)] ++ part
        (c.connMod m.conn (fun u => { u with certs := u.certs ++ m.msg ++ out })).spdmOut m out)))

/-- Is a summary hash type one of Table 12.7? -/
def summaryOk (t : Nat) : Bool := t == 0 || t == 1 || t == 0xFF

/-- CHALLENGE (R338, R347). -/
def execChallenge (m : SpdmMsg) (s : State) : Host.Outcome State Fault Refusal :=
  s.onS (fun c => c.spdmServe m (· == 0x83) false false (fun c =>
    if m.msg.length < 44 || numAt m.msg 2 1 % 16 != 0 || !summaryOk (numAt m.msg 3 1) then c.spdmErr m 0x01
    else c.withChain m (fun c ch =>
      let d := c.rnd 32
      let body := pack [(1, 0x13), (1, 0x03), (1, 0), (1, 1)] ++ padTo 48 (Config.sha384 ch) ++ d.1 ++ d.2.measSummary (numAt m.msg 3 1) ++ le 2 0 ++ slice m.msg 36 8
      let u := d.2.conn m.conn
      let c := d.2.signLater m 1 body (u.vca ++ u.certs ++ m.msg ++ body)
      c.connMod m.conn (fun u => { u with certs := [] }))))

/-- GET_MEASUREMENTS (R326, R338): the number of blocks, all of them, or one. -/
def execGetMeasurements (m : SpdmMsg) (s : State) : Host.Outcome State Fault Refusal :=
  s.onS (fun c => c.spdmServe m (· == 0xE0) false true (fun c =>
    let signed := bit (numAt m.msg 2 1) 0
    let op := numAt m.msg 3 1
    let blocks := if op = 0 then [] else if op = 0xFF then c.measNow else c.measNow.filter (fun x => x.idx == op)
    let at_ := if signed then 37 else 4
    if m.msg.length < at_ + 8 || (signed && numAt m.msg 36 1 % 16 != 0) || (op != 0 && blocks.isEmpty) then c.spdmErr m 0x01
    else
      let rec_ := (blocks.map Meas.block).flatten
      let d := c.rnd 32
      let body := pack [(1, 0x13), (1, 0x60), (1, if op = 0 then c.measNow.length else 0), (1, 0), (1, blocks.length), (3, rec_.length)] ++ rec_ ++ d.1 ++
        le 2 0 ++ slice m.msg at_ 8
      let q := m.sess.getD 0
      let l := tget (d.2.conn m.conn).l1 q [] ++ m.msg ++ body
      if signed then (d.2.signLater m 2 body ((d.2.conn m.conn).vca ++ l)).connMod m.conn (fun u => { u with l1 := tdel u.l1 q })
      else (d.2.connMod m.conn (fun u => { u with l1 := tput u.l1 q l })).spdmOut m body))

/-- The elements of an opaque field in OpaqueDataFmt1: identifier, vendor bytes, data. -/
def opaqueElems (b : List Byte) (pos n : Nat) : List (Nat × List Byte × List Byte) :=
  match n with
  | 0 => []
  | n + 1 =>
    let v := numAt b (pos + 1) 1
    let len := numAt b (pos + 2 + v) 2
    let size := (4 + v + len + 3) / 4 * 4
    (numAt b pos 1, slice b (pos + 2) v, slice b (pos + 4 + v) len) :: opaqueElems b (pos + size) n

/-- What a KEY_EXCHANGE says of a hybrid session (R346): none without the element; the KEM offer's key, `H_kem` and the element's data, or an
invalid element. -/
def Chip.hybridOf (c : Chip) (m : SpdmMsg) : Option (Option (List Byte × List Byte × List Byte)) :=
  let es := if numAt m.msg 136 2 < 4 then [] else opaqueElems m.msg 142 (numAt m.msg 138 1)
  match es.find? (fun e => e.1 == 4 && e.2.1 == le 4 0xE7A1) with
  | none => none
  | some e =>
    let data := e.2.2
    match tget? (c.conn m.conn).kems (numAt data 1 4) with
    | some k => if data.length = 53 && numAt data 0 1 = 1 && decide (c.slot < k.1 + 65536) && slice data 5 48 = k.2.2 then some (some (k.2.1, k.2.2, data)) else some none
    | none => some none

/-- KEY_EXCHANGE (R338, R339, R346). -/
def execKeyExchange (m : SpdmMsg) (s : State) : Host.Outcome State Fault Refusal :=
  s.onS (fun c => c.spdmServe m (· == 0xE4) false false (fun c =>
    let hyb := c.hybridOf m
    let point := le 1 4 ++ slice m.msg 40 96
    if m.msg.length < 138 || m.msg.length < 138 + numAt m.msg 136 2 || numAt m.msg 3 1 % 16 != 0 || !summaryOk (numAt m.msg 2 1) || hyb = some none ||
        !Config.ecPointOk point then c.spdmErr m 0x01
    else if 32 ≤ c.ownSess.length then c.spdmErr m 0x0A
    else if !c.sigRoom 255 then c.queueFull.spdmOut m (spdmErrMsg 0x03 0)
    else c.withChain m (fun c ch =>
      let num := c.spdm.lastSess % 32767 + 1
      let rsp := 2 * num + c.get F.GEN_ID_SIDE
      let id := numAt m.msg 4 2 + 65536 * rsp
      let e := c.rnd 48
      let d := e.2.rnd 32
      let z := Config.ecdhX e.1 point
      let shared := match hyb with
        | some (some k) => Config.kmac256 k.1 (z ++ k.2.1) (ascii "GGM-1 HYBRID") 48
        | _ => z
      let opq := match hyb with
        | some (some k) => pack [(1, 1), (3, 0), (1, 4), (1, 4), (4, 0xE7A1), (2, 53)] ++ k.2.2 ++ List.replicate 1 0#8
        | _ => []
      let body := pack [(1, 0x13), (1, 0x64), (1, 4), (1, 0), (2, rsp), (1, 0), (1, 0)] ++ d.1 ++ padTo 96 ((Config.ecPubFull e.1).drop 1) ++
        d.2.measSummary (numAt m.msg 2 1) ++ le 2 opq.length ++ opq
      let th := (d.2.conn m.conn).vca ++ Config.sha384 ch ++ m.msg ++ body
      let kem := numAt (match hyb with | some (some k) => k.2.2 | _ => []) 1 4
      let c := d.2.connMod m.conn (fun u => { u with kems := if hyb.isSome then tdel u.kems kem else u.kems })
      let q : Sess := { conn := m.conn, hybrid := hyb.isSome, th := th, shared := shared, last := c.slot }
      let c := c.sp (fun u => { u with lastSess := num, sess := tput u.sess id q })
      c.sigPut 255 (.response m.conn (some id) 3 body (spdmM (spdmCtx 3) th)))))

/-- FINISH (R339, R340): the requester's HMAC is checked; the response waits for the mirror. -/
def execFinish (m : SpdmMsg) (s : State) : Host.Outcome State Fault Refusal :=
  s.onS (fun c => c.spdmServe m (· == 0xE5) false false (fun c =>
    match m.sess with
    | none => c
    | some id =>
      match c.sess? id with
      | none => c
      | some q =>
        if m.msg.length != 52 || bit (numAt m.msg 2 1) 0 then c.spdmErr m 0x01
        else if slice m.msg 4 48 != padTo 48 (Config.spdmMac q.shared (q.th ++ m.msg.take 4) 0) then
          (c.sessEnd id 0x2C01).spdmOut { m with sess := none } (spdmErrMsg 0x06 0)
        else
          let out := pack [(1, 0x13), (1, 0x65), (2, 0)]
          let th := q.th ++ m.msg ++ out
          let secret := Config.spdmExport q.shared th
          let c := c.sessMod id (fun q => { q with est := true, th := th, secret := secret })
          let c := c.log 0x0C01 uSPN (aObj 0 0 0 0 id [])
          c.mirrorThen (.session id secret) (.spdm m.conn m.sess out)))

/-- HEARTBEAT (R339). -/
def execHeartbeat (m : SpdmMsg) (s : State) : Host.Outcome State Fault Refusal :=
  s.onS (fun c => c.spdmServe m (· == 0xE8) false false (fun c => c.spdmOut m (pack [(1, 0x13), (1, 0x68), (2, 0)])))

/-- KEY_UPDATE (R338). -/
def execKeyUpdate (m : SpdmMsg) (s : State) : Host.Outcome State Fault Refusal :=
  s.onS (fun c => c.spdmServe m (· == 0xE9) false false (fun c =>
    let op := numAt m.msg 2 1
    if op = 0 || 3 < op then c.spdmErr m 0x01
    else
      let c := match m.sess with
        | some id => c.sessMod id (fun q => { q with updates := (q.updates.1 + b2n (op != 3), q.updates.2 + b2n (op == 2)) })
        | none => c
      c.spdmOut m (pack [(1, 0x13), (1, 0x69), (1, op), (1, numAt m.msg 3 1)])))

/-- END_SESSION (R339): the session and its HOST Bobbins end before the answer. -/
def execEndSession (m : SpdmMsg) (s : State) : Host.Outcome State Fault Refusal :=
  s.onS (fun c => c.spdmServe m (· == 0xEC) false false (fun c =>
    match m.sess with
    | some id => (c.sessEnd id 0x0C02).spdmOut m (pack [(1, 0x13), (1, 0x6C), (2, 0)])
    | none => c))

/-- SESSION_EXPIRE (R339): 8 s without a message in the session. -/
def execSessionExpire (id : Nat) (s : State) : Host.Outcome State Fault Refusal :=
  s.onS (fun c => match c.sess? id with
    | some q => if c.svcUp && q.conn != connMirror && decide (q.last + 7812500 ≤ c.slot) then c.sessEnd id 0x2C01 else c
    | none => c)

/-- ORPHAN_SESSION_EXPIRE (R340). -/
def execOrphanSessionExpire (id : Nat) (s : State) : Host.Outcome State Fault Refusal :=
  s.onS (fun c => match c.sess? id with
    | some q => (match q.orphan with
      | some t => if c.svcUp && decide (t + 1048576 ≤ c.slot) then c.sessEnd id 0x2C01 else c
      | none => c)
    | none => c)

/-! Vendor-defined messages (Table 12.8). -/

/-- The opcodes of Table 12.8. -/
def vendorOps : List Nat := [0x01, 0x10, 0x20, 0x30, 0x40, 0x41, 0x42, 0x43, 0x50, 0x51, 0x60, 0x70]

/-- A vendor-defined request (R341) with an opcode of the row. -/
def Chip.vendor (c : Chip) (m : SpdmMsg) (mine : Nat → Bool) (keep : Bool) (f : Chip → List Byte → Chip) : Chip :=
  let own := if vendorOk m.msg then mine (vendorOp m.msg) else mine 0x01
  if !own then c
  else c.spdmServe m (· == 0xFE) keep false (fun c =>
    if !vendorOk m.msg then c.spdmErr m 0x07
    else if numAt m.msg 15 2 != 0 then c.vout m (vendorOp m.msg) .badArg []
    else f c (vendorBody m.msg))

/-- GET_CHAIN (R322, R342, R343); an unknown opcode is answered BAD_ARG. -/
def execGetChain (m : SpdmMsg) (s : State) : Host.Outcome State Fault Refusal :=
  s.onS (fun c => c.vendor m (fun n => n == 0x01 || !vendorOps.contains n) false (fun c b =>
    let k := numAt b 0 1
    if vendorOp m.msg != 0x01 || b.length != 7 || 3 < k then c.vout m (vendorOp m.msg) .badArg []
    else
      let p := if k = 3 then (c, some [c.boot.clamp]) else c.chain k
      match p.2 with
      | none => (p.1.errLog m 0x05).vout m 0x01 .integrity []
      | some l =>
        let all := l.flatten
        let off := numAt b 1 4
        if all.length < off then p.1.vout m 0x01 .badArg []
        else p.1.vout m 0x01 .ok (le 4 all.length ++ (all.drop off).take (min 14996 (numAt b 5 2)))))

/-- HYBRID_SIG (R345). -/
def execHybridSig (m : SpdmMsg) (s : State) : Host.Outcome State Fault Refusal :=
  s.onS (fun c => c.vendor m (· == 0x10) true (fun c b =>
    let kind := numAt b 0 1
    let last := (c.conn m.conn).last
    let c := c.connMod m.conn (fun u => { u with last := none })
    let msg := if b.length != 1 then none
      else if kind = 3 then (match m.sess with | some id => (c.sess? id).bind (·.need) | none => none)
      else match last with
        | some l => if l.1 = kind then some l.2 else none
        | none => none
    match msg with
    | none => c.vout m 0x10 .badArg []
    | some x => if c.sigRoom 255 then c.sigPut 255 (.hybrid m.conn m.sess x) else c.queueFull.vout m 0x10 .busy []))

/-- KEM_OFFER (R346). -/
def execKemOffer (m : SpdmMsg) (s : State) : Host.Outcome State Fault Refusal :=
  s.onS (fun c => c.vendor m (· == 0x20) false (fun c b =>
    if b.length != 1568 then c.vout m 0x20 .badArg []
    else
      let r := c.rnd 32
      let k := Config.mlkemEncaps b r.1
      let id := (r.2.spdm.lastKem + 1) % 2 ^ 32
      let c := r.2.sp (fun u => { u with lastKem := id })
      let fresh := fun (t : Tab (Nat × List Byte × List Byte)) => t.filter (fun e => decide (c.slot < e.2.1 + 65536))
      let c := c.connMod m.conn (fun u => { u with kems := tput (fresh u.kems) id (c.slot, k.2, Config.sha384 (b ++ k.1)) })
      c.vout m 0x20 .ok (le 4 id ++ padTo 1568 k.1)))

/-- GET_REPORT (R332, R343, R413): a new report, or a portion of one kept.
BAD_ARG for a hank that does not exist is this model's choice (assumption 157). -/
def execGetReport (m : SpdmMsg) (s : State) : Host.Outcome State Fault Refusal :=
  s.onS (fun c => c.vendor m (· == 0x30) false (fun c b =>
    let scope := numAt b 32 1
    let id := numAt b 33 4
    let off := numAt b 37 4
    let known := scope == 255 || (decide (scope < 16) && (c.hank? scope).isSome)
    if b.length != 41 || !known then c.vout m 0x30 .badArg []
    else if id = 0 then
      match c.spdm.snap with
      | none => c.vout m 0x30 .busy []
      | some p =>
        if !c.sigRoom scope then c.queueFull.vout m 0x30 .busy []
        else c.sigPut scope (.fetch m.conn m.sess p.gen (p.payload (slice b 0 32) scope) c.time off)
    else
      match c.spdm.reports.find? (fun r => r.1 == id) with
      | some r =>
        if r.2.1 + 1048576 ≤ c.slot || r.2.2.length < off then c.vout m 0x30 .badArg []
        else c.quietOut m.conn m.sess scope c.slot 16000 (reportMsg id off r.2.2)
      | none => c.vout m 0x30 .badArg []))

/-- GET_RECEIPT (R376, R377, R413). -/
def execGetReceipt (m : SpdmMsg) (s : State) : Host.Outcome State Fault Refusal :=
  s.onS (fun c => c.vendor m (· == 0x50) false (fun c b =>
    if b.length != 9 then c.vout m 0x50 .badArg []
    else
      let h := numAt b 0 1
      let r := c.receipt h (numAt b 1 8)
      r.1.quietOut m.conn m.sess h r.1.slot 16000 (vendorMsg 0x50 r.2.1 r.2.2)))

/-- GET_TWIST_HEAD (R377, R413). -/
def execGetTwistHead (m : SpdmMsg) (s : State) : Host.Outcome State Fault Refusal :=
  s.onS (fun c => c.vendor m (· == 0x51) false (fun c b =>
    let h := numAt b 0 1
    if b.length != 1 || (c.hank? h).isNone then c.vout m 0x51 .badArg []
    else
      let body := le 4 (c.geti F.DGT_TWn_SEGMENT_NUM h) ++ le 4 (c.geti F.DGT_TWn_RECORDS_COUNT h) ++ padTo 48 (c.tw h).head
      c.quietOut m.conn m.sess h c.slot 16 (vendorMsg 0x51 .ok body)))

/-- REBIND (R340). -/
def execRebind (m : SpdmMsg) (s : State) : Host.Outcome State Fault Refusal :=
  s.onS (fun c => c.vendor m (· == 0x60) false (fun c b =>
    match m.sess with
    | none => c.vout m 0x60 .denied []
    | some new =>
      let old := numAt b 0 4
      match c.sess? old with
      | none => c.vout m 0x60 .badArg []
      | some q =>
        if b.length != 36 || q.orphan.isNone then c.vout m 0x60 .badArg []
        else if slice b 4 32 != Config.kmac256 q.secret (ascii "rebind" ++ le 4 old ++ le 4 new) (ascii "GGM-1 HOST") 32 then c.vout m 0x60 .integrity []
        else
          let c := c.sp (fun u => { u with sess := tdel u.sess old, chan := u.chan.map (fun (e : Nat × Nat) => if e.2 = old then (e.1, new) else e) })
          let c := c.cu (fun u => { u with bobs := u.bobs.map (fun (e : Nat × Bob) => if e.2.session = old then (e.1, { e.2 with session := new }) else e) })
          c.vout m 0x60 .ok []))

/-- The leakage table (R412; Table 14.11): row, bounds in ns, quiet code. -/
def leakage : List Byte :=
  let row := fun (r lo hi q : Nat) => cArr [cUint r, cUint lo, cUint hi, cUint q]
  cArr [cUint 1, row 1 1100 8000 1, row 2 250000 16250000 1, row 3 0 0 2, row 4 0 0 2, row 5 0 100000 0, row 6 0 0 0, row 7 0 0 0, row 8 0 0 3, row 9 0 0 3]

/-- GET_LEAKAGE (R412). -/
def execGetLeakage (m : SpdmMsg) (s : State) : Host.Outcome State Fault Refusal :=
  s.onS (fun c => c.vendor m (· == 0x70) false (fun c b => if b.isEmpty then c.vout m 0x70 .ok leakage else c.vout m 0x70 .badArg []))

/-- OWNER_OBJECT_PORTION (R342, R384): opcodes 0x0040 to 0x0043, in a hybrid session; the answer waits for what was mirrored (R388). -/
def execOwnerObjectPortion (m : SpdmMsg) (genuine : Bool) (s : State) : Host.Outcome State Fault Refusal :=
  s.onS (fun c => c.vendor m (fun n => decide (0x40 ≤ n) && decide (n ≤ 0x43)) false (fun c b =>
    let op := vendorOp m.msg
    match m.sess with
    | none => c.vout m op .denied []
    | some id =>
      if !(match c.sess? id with | some q => q.hybrid | none => false) then c.vout m op .denied []
      else
        let before := c.ply.mseq
        let r := c.portion id (op - 0x40) b genuine
        let out := vendorMsg op r.2 []
        if r.1.waitsPartner && decide (before < r.1.ply.mseq) then r.1.hold (.spdm m.conn m.sess out) r.1.ply.mseq 0 else r.1.spdmOut m out))

end Sys2Proof.Machine
end

