-- ==== Sys2Proof/Machine/Update.lean ====
section
/-!
DEFINITION. The update commands (R463 to R482) and the service port (R34, R469). `via` is the mailbox of the service call with its input
bytes, or none for the frame that waits at the service port.
-/

namespace Sys2Proof.Machine

/-- The level of `SVC_RDY_N` (R34, R469): low when the instance will accept a transaction: it serves the port and no frame waits for its
response. -/
def Chip.svcRdyN (c : Chip) : Bool := c.portMode.isNone || c.upd.portIn.isSome

/-- SVC_WRITE (R469): taken while `SVC_RDY_N` is low; an unread response is discarded. -/
def execSvcWrite (frame : List Byte) (s : State) : Host.Outcome State Fault Refusal :=
  s.onS (fun c => if c.svcRdyN then c
    else c.up (fun u => { u with portIn := some frame, portOut := none, portWait := false }))

/-- SVC_READ (R469). -/
def execSvcRead (s : State) : Host.Outcome State Fault Refusal :=
  s.onS (fun c => if c.portMode.isNone then c else
    match c.upd.portOut with
    | some b => (c.up (fun u => { u with portOut := none })).send (.service b)
    | none => c.send (.service (updResp 0 0 0 .busy [])))

/-- `CMD`s of Table 17.4. -/
def updCmds : List Nat := [0x01, 0x10, 0x11, 0x12, 0x13, 0x14, 0x15, 0x16, 0x17, 0x1F]

/-- UPDATE_HELLO (R467); a `CMD` outside the table is DENIED. -/
def execUpdateHello (via : Option Nat) (s : State) : Host.Outcome State Fault Refusal :=
  s.onS (fun c => c.updServe via 0x40 (fun n => n == 0x01 || !updCmds.contains n) (fun m c fr =>
    if fr.cmd != 0x01 then (c, { st := .denied })
    else (c, { st := .ok, payload := le 4 (c.rd R.GEN_ID).toNat ++ le 4 (c.rd R.GEN_BOOT).toNat ++ pack [(1, b2n (m == .recovery)), (3, 0)] })))

/-- BEGIN (R470, R471, R481). -/
def execUpdBegin (via : Option Nat) (s : State) : Host.Outcome State Fault Refusal :=
  s.onS (fun c => c.updServe via 0x40 (· == 0x10) (fun m c fr => if m = .recovery then c.rcvBegin fr else c.begin_ m fr))

/-- PIECE (R472, R481). -/
def execUpdPiece (via : Option Nat) (flaw : Bool) (s : State) : Host.Outcome State Fault Refusal :=
  s.onS (fun c => c.updServe via 0x40 (· == 0x11) (fun m c fr => if m = .recovery then c.rcvPiece fr else c.piece flaw fr))

/-- QUERY (Table 17.5). -/
def execUpdQuery (via : Option Nat) (s : State) : Host.Outcome State Fault Refusal :=
  s.onS (fun c => c.updServe via 0x40 (· == 0x12) (fun m c _ =>
    (c, { st := .ok, payload := if m = .recovery then c.rcvQuery else c.updQueryBody })))

/-- CHECK (R475). -/
def execUpdCheck (via : Option Nat) (s : State) : Host.Outcome State Fault Refusal :=
  s.onS (fun c => c.updServe via 0x40 (· == 0x13) (fun m c fr => if m = .recovery then c.rcvCheck fr else c.checkStart fr))

/-- CHECK_COMPLETE (R475, R481). -/
def execCheckComplete (s : State) : Host.Outcome State Fault Refusal :=
  s.onS (fun c => match c.upd.check with
    | none => c
    | some o => if c.phase = 0x17 then c.rcvCheckEnd o else c.checkEnd o)

/-- ACTIVATE (R476, R479, R481). -/
def execUpdActivate (via : Option Nat) (flaw : Bool) (s : State) : Host.Outcome State Fault Refusal :=
  s.onS (fun c => c.updServe via 0x41 (· == 0x14) (fun m c fr => if m = .recovery then c.rcvActivate flaw else c.activate m fr))

/-- LOADER_ACTIVATION (R477, R479): the loader's next step. -/
def execLoaderActivation (flaw : Bool) (s : State) : Host.Outcome State Fault Refusal :=
  s.onCutS (fun c => if c.svcUp then c.loaderStep flaw else c)

/-- RESTORE (R482). -/
def execUpdRestore (via : Option Nat) (flaw : Bool) (s : State) : Host.Outcome State Fault Refusal :=
  s.onS (fun c => c.updServe via 0x40 (· == 0x15) (fun m c _ => if m = .recovery then c.rcvRestore flaw else (c, { st := .denied })))

/-- ABORT (R472). -/
def execAbort (via : Option Nat) (s : State) : Host.Outcome State Fault Refusal :=
  s.onS (fun c => c.updServe via 0x40 (· == 0x16) (fun m c fr =>
    if m = .recovery then
      if c.upd.rcv.written then (c, { st := .denied })
      else if c.upd.rcv.session = 0 || fr.session != c.upd.rcv.session then (c, { st := .badArg })
      else (c.rc (fun v => { last := v.last }), { st := .ok })
    else if c.upd.record.session = 0 || fr.session != c.upd.record.session then (c, { st := .badArg })
    else if c.upd.loader.isSome then (c, { st := .busy })
    else (c.sessionEnd, { st := .ok })))

/-- CONFIRM (R480). -/
def execUpdConfirm (via : Option Nat) (s : State) : Host.Outcome State Fault Refusal :=
  s.onF (fun fu c => (c.updServe via 0x42 (· == 0x17) (fun m c fr =>
    if m = .recovery then (c, { st := .denied }) else c.confirmStart fu fr)).settle)

/-- UPDATE_RESET (R481): as a `SYSRST_N` pulse, the strap sampled again. -/
def execUpdateReset (via : Option Nat) (recoveryN : Bool) (s : State) : Host.Outcome State Fault Refusal :=
  s.onCutS (fun c => c.updServe via 0x40 (· == 0x1F) (fun m c _ =>
    if m = .recovery then
      (((({ c with pins := { c.pins with recoveryN := recoveryN } }).freezeNoil 2).warmReset).put F.PWR_WAKE_CAUSE_RESET 1, { st := .ok })
    else (c, { st := .denied })))

/-- STAGING_ERASE_DONE (R473): the erase of a sector ends; one suspended for a journal program is resumed. -/
def execStagingEraseDone (s : State) : Host.Outcome State Fault Refusal :=
  s.onS (fun c => match c.upd.erase with
    | a :: rest => if c.svcUp && c.cust.jrnl.page.isEmpty then (c.norErase a (a + 4096)).up (fun u => { u with erase := rest }) else c
    | [] => c)

end Sys2Proof.Machine
end

