-- ==== Sys2Proof/Machine/Dispatch.lean ====
section
/-!
DEFINITION. The dispatch of a command to its meaning, one arm per constructor.
-/

namespace Sys2Proof.Machine

/-- The effect of a command on everything but the queue. -/
def exec (i : Instr) (s : State) : Host.Outcome State Fault Refusal :=
  match i with
  | .registerWrite req off value => Sys2Proof.Machine.execRegisterWrite req off value s
  | .fabricAccessError req addr size write => Sys2Proof.Machine.execFabricAccessError req addr size write s
  | .pageAccessRefused req off write sec => Sys2Proof.Machine.execPageAccessRefused req off write sec s
  | .porstNAssert taken => Sys2Proof.Machine.execPorstNAssert taken s
  | .porstNRise strapClass strapSide recoveryN => Sys2Proof.Machine.execPorstNRise strapClass strapSide recoveryN s
  | .sysrstNPulse taken recoveryN => Sys2Proof.Machine.execSysrstNPulse taken recoveryN s
  | .brownOutReset mv => Sys2Proof.Machine.execBrownOutReset mv s
  | .vinOkFall mv => Sys2Proof.Machine.execVinOkFall mv s
  | .vinFuseOkFall mv => Sys2Proof.Machine.execVinFuseOkFall mv s
  | .refclkLost => Sys2Proof.Machine.execRefclkLost s
  | .clockGlitch => Sys2Proof.Machine.execClockGlitch s
  | .refclkPresentAgain => Sys2Proof.Machine.execRefclkPresentAgain s
  | .rsvReady => Sys2Proof.Machine.execRsvReady s
  | .fuseSensingDone drift time => Sys2Proof.Machine.execFuseSensingDone drift time s
  | .lcsRecordResume bad => Sys2Proof.Machine.execLcsRecordResume bad s
  | .seqSvcWake => Sys2Proof.Machine.execSeqSvcWake s
  | .svcPllLocked => Sys2Proof.Machine.execSvcPllLocked s
  | .svcPllTimeout => Sys2Proof.Machine.execSvcPllTimeout s
  | .cryptoGroupWake g => Sys2Proof.Machine.execCryptoGroupWake g s
  | .cryptoGroupReady g bad => Sys2Proof.Machine.execCryptoGroupReady g bad s
  | .cryptoPllTimeout => Sys2Proof.Machine.execCryptoPllTimeout s
  | .groupIdlePowerOff g => Sys2Proof.Machine.execGroupIdlePowerOff g s
  | .cryptoPllHoldExpire => Sys2Proof.Machine.execCryptoPllHoldExpire s
  | .pwrForceOn req mask => Sys2Proof.Machine.execPwrForceOn req mask s
  | .sleepReq req => Sys2Proof.Machine.execSleepReq req s
  | .sleepEntryDone => Sys2Proof.Machine.execSleepEntryDone s
  | .pwrShutdown req => Sys2Proof.Machine.execPwrShutdown req s
  | .wakeFabricAccess req off write => Sys2Proof.Machine.execWakeFabricAccess req off write s
  | .wakeTimer => Sys2Proof.Machine.execWakeTimer s
  | .wakePlyBeacon => Sys2Proof.Machine.execWakePlyBeacon s
  | .wakeSvcPort => Sys2Proof.Machine.execWakeSvcPort s
  | .otpRead req key => Sys2Proof.Machine.execOtpRead req key s
  | .progWord req key => Sys2Proof.Machine.execProgWord req key s
  | .progDigest req key arg => Sys2Proof.Machine.execProgDigest req key arg s
  | .lockWrite req key arg drift => Sys2Proof.Machine.execLockWrite req key arg drift s
  | .lockRead req key arg => Sys2Proof.Machine.execLockRead req key arg s
  | .lockWriteRaw req key arg => Sys2Proof.Machine.execLockWriteRaw req key arg s
  | .genRoots req key => Sys2Proof.Machine.execGenRoots req key s
  | .arbAdvance req key arg => Sys2Proof.Machine.execArbAdvance req key arg s
  | .otpProgramDone bad => Sys2Proof.Machine.execOtpProgramDone bad s
  | .otpAuditStart req value => Sys2Proof.Machine.execOtpAuditStart req value s
  | .otpAuditDone drift => Sys2Proof.Machine.execOtpAuditDone drift s
  | .quenchDone bad => Sys2Proof.Machine.execQuenchDone bad s
  | .lcsGo req value => Sys2Proof.Machine.execLcsGo req value s
  | .lcsPhaseDone bad => Sys2Proof.Machine.execLcsPhaseDone bad s
  | .lcsRestart => Sys2Proof.Machine.execLcsRestart s
  | .fetchReq region => Sys2Proof.Machine.execFetchReq region s
  | .fetchResp region st words => Sys2Proof.Machine.execFetchResp region st words s
  | .fetchRetryTimer => Sys2Proof.Machine.execFetchRetryTimer s
  | .fetchTimeout => Sys2Proof.Machine.execFetchTimeout s
  | .romInit rom => Sys2Proof.Machine.execRomInit rom s
  | .integDecide => Sys2Proof.Machine.execIntegDecide s
  | .norInit => Sys2Proof.Machine.execNorInit s
  | .rootLoad => Sys2Proof.Machine.execRootLoad s
  | .deviceidDerive => Sys2Proof.Machine.execDeviceidDerive s
  | .spindleVerify => Sys2Proof.Machine.execSpindleVerify s
  | .aliasDerive => Sys2Proof.Machine.execAliasDerive s
  | .recoveryEnter => Sys2Proof.Machine.execRecoveryEnter s
  | .spindleInit => Sys2Proof.Machine.execSpindleInit s
  | .configApply => Sys2Proof.Machine.execConfigApply s
  | .rovingStart => Sys2Proof.Machine.execRovingStart s
  | .custodyInit => Sys2Proof.Machine.execCustodyInit s
  | .ringStart other marks => Sys2Proof.Machine.execRingStart other marks s
  | .cardNodePresent node => Sys2Proof.Machine.execCardNodePresent node s
  | .measured => Sys2Proof.Machine.execMeasured s
  | .notReady => Sys2Proof.Machine.execNotReady s
  | .keyInstalled => Sys2Proof.Machine.execKeyInstalled s
  | .keyFailed => Sys2Proof.Machine.execKeyFailed s
  | .cardRetryTimer node => Sys2Proof.Machine.execCardRetryTimer node s
  | .cardTimeout node => Sys2Proof.Machine.execCardTimeout node s
  | .cardKeyTimeout node => Sys2Proof.Machine.execCardKeyTimeout node s
  | .cardTakeoverTimer => Sys2Proof.Machine.execCardTakeoverTimer s
  | .cardNotice rkey started => Sys2Proof.Machine.execCardNotice rkey started s
  | .recard req node => Sys2Proof.Machine.execRecard req node s
  | .lockstepMismatch pc group => Sys2Proof.Machine.execLockstepMismatch pc group s
  | .spindleSramUncorrectable addr pc => Sys2Proof.Machine.execSpindleSramUncorrectable addr pc s
  | .spindleWdtExpire pc => Sys2Proof.Machine.execSpindleWdtExpire pc s
  | .spindleWdtKick req value => Sys2Proof.Machine.execSpindleWdtKick req value s
  | .codeWp req value => Sys2Proof.Machine.execCodeWp req value s
  | .spindleCodeFault off wr => Sys2Proof.Machine.execSpindleCodeFault off wr s
  | .coreAccessFault req addr size wr fetch => Sys2Proof.Machine.execCoreAccessFault req addr size wr fetch s
  | .sramPatrol spindle addr errors => Sys2Proof.Machine.execSramPatrol spindle addr errors s
  | .rovingCoreFence core cause => Sys2Proof.Machine.execRovingCoreFence core cause s
  | .rovingWdtExpire core => Sys2Proof.Machine.execRovingWdtExpire core s
  | .coreFence req core => Sys2Proof.Machine.execCoreFence req core s
  | .fencingDone core pc => Sys2Proof.Machine.execFencingDone core pc s
  | .coreRestart req core => Sys2Proof.Machine.execCoreRestart req core s
  | .coreResetRelease core => Sys2Proof.Machine.execCoreResetRelease core s
  | .mbLockRead req ns n => Sys2Proof.Machine.execMbLockRead req ns n s
  | .mbDataWrite req ns n word value => Sys2Proof.Machine.execMbDataWrite req ns n word value s
  | .mbGo req ns n words => Sys2Proof.Machine.execMbGo req ns n words s
  | .mbRelease req ns n => Sys2Proof.Machine.execMbRelease req ns n s
  | .mbForce req ns n => Sys2Proof.Machine.execMbForce req ns n s
  | .mbLockTimeout ns n => Sys2Proof.Machine.execMbLockTimeout ns n s
  | .coreHello n => Sys2Proof.Machine.execCoreHello n s
  | .snapshotGet n => Sys2Proof.Machine.execSnapshotGet n s
  | .eventsDrain n => Sys2Proof.Machine.execEventsDrain n s
  | .signReport n => Sys2Proof.Machine.execSignReport n s
  | .signSpdm n => Sys2Proof.Machine.execSignSpdm n s
  | .sessionKeys n => Sys2Proof.Machine.execSessionKeys n s
  | .launchRequest n => Sys2Proof.Machine.execLaunchRequest n s
  | .launchCancel n => Sys2Proof.Machine.execLaunchCancel n s
  | .hankCreate n genuine => Sys2Proof.Machine.execHankCreate n genuine s
  | .hankTeardown n genuine => Sys2Proof.Machine.execHankTeardown n genuine s
  | .ceremonyShare n genuine => Sys2Proof.Machine.execCeremonyShare n genuine s
  | .consent n genuine => Sys2Proof.Machine.execConsent n genuine s
  | .withdrawObject n => Sys2Proof.Machine.execWithdrawObject n s
  | .strandSet n => Sys2Proof.Machine.execStrandSet n s
  | .ownerEndorsement n genuine => Sys2Proof.Machine.execOwnerEndorsement n genuine s
  | .objectExpiry n => Sys2Proof.Machine.execObjectExpiry n s
  | .grant n => Sys2Proof.Machine.execGrant n s
  | .release n => Sys2Proof.Machine.execRelease n s
  | .sleepRequest n => Sys2Proof.Machine.execSleepRequest n s
  | .lcRequest n genuine => Sys2Proof.Machine.execLcRequest n genuine s
  | .serviceCallComplete core => Sys2Proof.Machine.execServiceCallComplete core s
  | .bobCqTailWrite req idx => Sys2Proof.Machine.execBobCqTailWrite req idx s
  | .bobCplHeadWrite req idx => Sys2Proof.Machine.execBobCplHeadWrite req idx s
  | .create => Sys2Proof.Machine.execCreate s
  | .derive => Sys2Proof.Machine.execDerive s
  | .importCmd => Sys2Proof.Machine.execImportCmd s
  | .commit => Sys2Proof.Machine.execCommit s
  | .arm => Sys2Proof.Machine.execArm s
  | .cancel => Sys2Proof.Machine.execCancel s
  | .freeze => Sys2Proof.Machine.execFreeze s
  | .destroy => Sys2Proof.Machine.execDestroy s
  | .resume => Sys2Proof.Machine.execResume s
  | .historic => Sys2Proof.Machine.execHistoric s
  | .bobRead => Sys2Proof.Machine.execBobRead s
  | .fenceCommand => Sys2Proof.Machine.execFenceCommand s
  | .keyReq => Sys2Proof.Machine.execKeyReq s
  | .blobLoadDone bobbin bytes => Sys2Proof.Machine.execBlobLoadDone bobbin bytes s
  | .katDone ch frame => Sys2Proof.Machine.execKatDone ch frame s
  | .warpAck ch frame => Sys2Proof.Machine.execWarpAck ch frame s
  | .warpFrameCrcFail ch => Sys2Proof.Machine.execWarpFrameCrcFail ch s
  | .warpAnswerTimeout ch => Sys2Proof.Machine.execWarpAnswerTimeout ch s
  | .keyPushAck => Sys2Proof.Machine.execKeyPushAck s
  | .limitReport ch frame => Sys2Proof.Machine.execLimitReport ch frame s
  | .journalProgramDone good => Sys2Proof.Machine.execJournalProgramDone good s
  | .journalSectorEraseDone => Sys2Proof.Machine.execJournalSectorEraseDone s
  | .journalSectorWaitTimeout => Sys2Proof.Machine.execJournalSectorWaitTimeout s
  | .bobbinRecordUncorrectable bobbin fromPartner => Sys2Proof.Machine.execBobbinRecordUncorrectable bobbin fromPartner s
  | .cacheRemask => Sys2Proof.Machine.execCacheRemask s
  | .dstCacheFlush req => Sys2Proof.Machine.execDstCacheFlush req s
  | .bobWarpClear req mask => Sys2Proof.Machine.execBobWarpClear req mask s
  | .deadlineNear bobbin => Sys2Proof.Machine.execDeadlineNear bobbin s
  | .deadlinePassed bobbin => Sys2Proof.Machine.execDeadlinePassed bobbin s
  | .markerEmit => Sys2Proof.Machine.execMarkerEmit s
  | .markerReceive cc bytes => Sys2Proof.Machine.execMarkerReceive cc bytes s
  | .slotBoundaryCorrection => Sys2Proof.Machine.execSlotBoundaryCorrection s
  | .markerTimeout => Sys2Proof.Machine.execMarkerTimeout s
  | .xpkgTimeReport ch frame => Sys2Proof.Machine.execXpkgTimeReport ch frame s
  | .xpkgReportTimeout => Sys2Proof.Machine.execXpkgReportTimeout s
  | .schedule req => Sys2Proof.Machine.execSchedule req s
  | .whlCancel req entry => Sys2Proof.Machine.execWhlCancel req entry s
  | .whlFree req entry => Sys2Proof.Machine.execWhlFree req entry s
  | .launchHorizon n => Sys2Proof.Machine.execLaunchHorizon n s
  | .launchFinalPoint n => Sys2Proof.Machine.execLaunchFinalPoint n s
  | .launchFire n => Sys2Proof.Machine.execLaunchFire n s
  | .launchGraceEnd n => Sys2Proof.Machine.execLaunchGraceEnd n s
  | .launchRepeat n => Sys2Proof.Machine.execLaunchRepeat n s
  | .launchCancelRepeat num => Sys2Proof.Machine.execLaunchCancelRepeat num s
  | .rootUpdate ch frame => Sys2Proof.Machine.execRootUpdate ch frame s
  | .rootStorePatrol tree double => Sys2Proof.Machine.execRootStorePatrol tree double s
  | .rootRepairDone tree good bytes => Sys2Proof.Machine.execRootRepairDone tree good bytes s
  | .faultReport ch frame => Sys2Proof.Machine.execFaultReport ch frame s
  | .complexResetAnnounce ch frame => Sys2Proof.Machine.execComplexResetAnnounce ch frame s
  | .boundaryReport ch frame => Sys2Proof.Machine.execBoundaryReport ch frame s
  | .peerEpochReport ch frame => Sys2Proof.Machine.execPeerEpochReport ch frame s
  | .cryChTailWrite req n idx => Sys2Proof.Machine.execCryChTailWrite req n idx s
  | .mldsaKeygen n => Sys2Proof.Machine.execMldsaKeygen n s
  | .mldsaSign n => Sys2Proof.Machine.execMldsaSign n s
  | .mldsaVerify n => Sys2Proof.Machine.execMldsaVerify n s
  | .mlkemKeygen n => Sys2Proof.Machine.execMlkemKeygen n s
  | .mlkemEncaps n => Sys2Proof.Machine.execMlkemEncaps n s
  | .mlkemDecaps n => Sys2Proof.Machine.execMlkemDecaps n s
  | .ntt n which => Sys2Proof.Machine.execNtt n which s
  | .eccKeygen n => Sys2Proof.Machine.execEccKeygen n s
  | .ecdsaSign n => Sys2Proof.Machine.execEcdsaSign n s
  | .ecdsaVerify n => Sys2Proof.Machine.execEcdsaVerify n s
  | .ecdh n => Sys2Proof.Machine.execEcdh n s
  | .kmac n => Sys2Proof.Machine.execKmac n s
  | .gcmEnc n => Sys2Proof.Machine.execGcmEnc n s
  | .gcmDec n => Sys2Proof.Machine.execGcmDec n s
  | .ctr n => Sys2Proof.Machine.execCtr n s
  | .kwWrap n => Sys2Proof.Machine.execKwWrap n s
  | .kwUnwrap n => Sys2Proof.Machine.execKwUnwrap n s
  | .keyRandom n => Sys2Proof.Machine.execKeyRandom n s
  | .keyErase n => Sys2Proof.Machine.execKeyErase n s
  | .keyDistaff n => Sys2Proof.Machine.execKeyDistaff n s
  | .keyLoad n => Sys2Proof.Machine.execKeyLoad n s
  | .random n => Sys2Proof.Machine.execRandom n s
  | .cryptoOpComplete n idx iter => Sys2Proof.Machine.execCryptoOpComplete n idx iter s
  | .dgtOpen req n value => Sys2Proof.Machine.execDgtOpen req n value s
  | .dgtFinal req n => Sys2Proof.Machine.execDgtFinal req n s
  | .dgtClose req n => Sys2Proof.Machine.execDgtClose req n s
  | .dgtFeed req n data => Sys2Proof.Machine.execDgtFeed req n data s
  | .digestAbsorbed n => Sys2Proof.Machine.execDigestAbsorbed n s
  | .dgtResultRead req n => Sys2Proof.Machine.execDgtResultRead req n s
  | .entropyHealthFail source window => Sys2Proof.Machine.execEntropyHealthFail source window s
  | .entropyRetestDone source window => Sys2Proof.Machine.execEntropyRetestDone source window s
  | .entropyCalibrate req source => Sys2Proof.Machine.execEntropyCalibrate req source s
  | .drbgKatFail => Sys2Proof.Machine.execDrbgKatFail s
  | .tlyOpen req acc => Sys2Proof.Machine.execTlyOpen req acc s
  | .tlyAdd req acc owner => Sys2Proof.Machine.execTlyAdd req acc owner s
  | .tlyAddDone data good => Sys2Proof.Machine.execTlyAddDone data good s
  | .tlyAbort req acc => Sys2Proof.Machine.execTlyAbort req acc s
  | .tlyRelease req acc => Sys2Proof.Machine.execTlyRelease req acc s
  | .tlyDigestRead req acc => Sys2Proof.Machine.execTlyDigestRead req acc s
  | .selftestRequest req cls lane => Sys2Proof.Machine.execSelftestRequest req cls lane s
  | .selftestPeriodic => Sys2Proof.Machine.execSelftestPeriodic s
  | .laneDrained cls lane => Sys2Proof.Machine.execLaneDrained cls lane s
  | .laneTestDone cls lane pass => Sys2Proof.Machine.execLaneTestDone cls lane pass s
  | .laneFault cls lane unit => Sys2Proof.Machine.execLaneFault cls lane unit s
  | .dmaChTailWrite req n idx => Sys2Proof.Machine.execDmaChTailWrite req n idx s
  | .dmaOwnPoll n => Sys2Proof.Machine.execDmaOwnPoll n s
  | .copy n => Sys2Proof.Machine.execCopy n s
  | .fill n => Sys2Proof.Machine.execFill n s
  | .gather n table => Sys2Proof.Machine.execGather n table s
  | .scatter n table => Sys2Proof.Machine.execScatter n table s
  | .dmaRequestLine line data => Sys2Proof.Machine.execDmaRequestLine line data s
  | .dmaDescriptorDone n data => Sys2Proof.Machine.execDmaDescriptorDone n data s
  | .dmaSwreq req mask => Sys2Proof.Machine.execDmaSwreq req mask s
  | .dmaPause req n on => Sys2Proof.Machine.execDmaPause req n on s
  | .dmaPauseDrained m => Sys2Proof.Machine.execDmaPauseDrained m s
  | .dmaAbort req n => Sys2Proof.Machine.execDmaAbort req n s
  | .dmaBusError n cause addr wr index late moves => Sys2Proof.Machine.execDmaBusError n cause addr wr index late moves s
  | .dmaRelease req mask => Sys2Proof.Machine.execDmaRelease req mask s
  | .dmaClear req n => Sys2Proof.Machine.execDmaClear req n s
  | .dmaParityError n => Sys2Proof.Machine.execDmaParityError n s
  | .dmaChannelEnable req n => Sys2Proof.Machine.execDmaChannelEnable req n s
  | .getVersion m => Sys2Proof.Machine.execGetVersion m s
  | .getCapabilities m => Sys2Proof.Machine.execGetCapabilities m s
  | .negotiateAlgorithms m => Sys2Proof.Machine.execNegotiateAlgorithms m s
  | .getDigests m => Sys2Proof.Machine.execGetDigests m s
  | .getCertificate m => Sys2Proof.Machine.execGetCertificate m s
  | .challenge m => Sys2Proof.Machine.execChallenge m s
  | .getMeasurements m => Sys2Proof.Machine.execGetMeasurements m s
  | .keyExchange m => Sys2Proof.Machine.execKeyExchange m s
  | .finish m => Sys2Proof.Machine.execFinish m s
  | .heartbeat m => Sys2Proof.Machine.execHeartbeat m s
  | .keyUpdate m => Sys2Proof.Machine.execKeyUpdate m s
  | .endSession m => Sys2Proof.Machine.execEndSession m s
  | .sessionExpire id => Sys2Proof.Machine.execSessionExpire id s
  | .orphanSessionExpire id => Sys2Proof.Machine.execOrphanSessionExpire id s
  | .getChain m => Sys2Proof.Machine.execGetChain m s
  | .hybridSig m => Sys2Proof.Machine.execHybridSig m s
  | .kemOffer m => Sys2Proof.Machine.execKemOffer m s
  | .getReport m => Sys2Proof.Machine.execGetReport m s
  | .getReceipt m => Sys2Proof.Machine.execGetReceipt m s
  | .getTwistHead m => Sys2Proof.Machine.execGetTwistHead m s
  | .rebind m => Sys2Proof.Machine.execRebind m s
  | .getLeakage m => Sys2Proof.Machine.execGetLeakage m s
  | .ownerObjectPortion m genuine => Sys2Proof.Machine.execOwnerObjectPortion m genuine s
  | .reportSigned k => Sys2Proof.Machine.execReportSigned k s
  | .twistBatch => Sys2Proof.Machine.execTwistBatch s
  | .twistFold h => Sys2Proof.Machine.execTwistFold h s
  | .seal req h => Sys2Proof.Machine.execSeal req h s
  | .twistLogWriteError h seg pos => Sys2Proof.Machine.execTwistLogWriteError h seg pos s
  | .twistHeadRead req h => Sys2Proof.Machine.execTwistHeadRead req h s
  | .receiptSigned h => Sys2Proof.Machine.execReceiptSigned h s
  | .hankKeying h => Sys2Proof.Machine.execHankKeying h s
  | .hankTearing h => Sys2Proof.Machine.execHankTearing h s
  | .consentEndSlot h kind => Sys2Proof.Machine.execConsentEndSlot h kind s
  | .scrubDigest => Sys2Proof.Machine.execScrubDigest s
  | .scrubTimeout h die => Sys2Proof.Machine.execScrubTimeout h die s
  | .quietReplyRelease n => Sys2Proof.Machine.execQuietReplyRelease n s
  | .linkEn req value => Sys2Proof.Machine.execLinkEn req value s
  | .plyRetrain req => Sys2Proof.Machine.execPlyRetrain req s
  | .hello body => Sys2Proof.Machine.execHello body s
  | .auth point kem certs sigs genuine => Sys2Proof.Machine.execAuth point kem certs sigs genuine s
  | .plyFrameCheckFail typ pseq => Sys2Proof.Machine.execPlyFrameCheckFail typ pseq s
  | .linkNak pseq => Sys2Proof.Machine.execLinkNak pseq s
  | .heartbeatSend => Sys2Proof.Machine.execHeartbeatSend s
  | .plyHeartbeat body peer => Sys2Proof.Machine.execPlyHeartbeat body peer s
  | .partnerLost => Sys2Proof.Machine.execPartnerLost s
  | .mirrorAckTimeout => Sys2Proof.Machine.execMirrorAckTimeout s
  | .mirror mseq item => Sys2Proof.Machine.execMirror mseq item s
  | .mirrorAck mseq => Sys2Proof.Machine.execMirrorAck mseq s
  | .relay ch frame => Sys2Proof.Machine.execRelay ch frame s
  | .relayAns ch frame => Sys2Proof.Machine.execRelayAns ch frame s
  | .relayAnswerTimeout ch => Sys2Proof.Machine.execRelayAnswerTimeout ch s
  | .resyncReq jseq jdur => Sys2Proof.Machine.execResyncReq jseq jdur s
  | .resyncData part => Sys2Proof.Machine.execResyncData part s
  | .resyncComplete => Sys2Proof.Machine.execResyncComplete s
  | .handoverFrame mseq lease => Sys2Proof.Machine.execHandoverFrame mseq lease s
  | .sleepFrame => Sys2Proof.Machine.execSleepFrame s
  | .sleepAck => Sys2Proof.Machine.execSleepAck s
  | .leaseGrant => Sys2Proof.Machine.execLeaseGrant s
  | .leaseRenew => Sys2Proof.Machine.execLeaseRenew s
  | .leaseExpiryMargin => Sys2Proof.Machine.execLeaseExpiryMargin s
  | .takeoverRepeat => Sys2Proof.Machine.execTakeoverRepeat s
  | .candidateTimeout => Sys2Proof.Machine.execCandidateTimeout s
  | .promote => Sys2Proof.Machine.execPromote s
  | .pairWaitExpire => Sys2Proof.Machine.execPairWaitExpire s
  | .startEmpty req => Sys2Proof.Machine.execStartEmpty req s
  | .handover req => Sys2Proof.Machine.execHandover req s
  | .handoverTimeout => Sys2Proof.Machine.execHandoverTimeout s
  | .sleepHs req => Sys2Proof.Machine.execSleepHs req s
  | .skeinFrameReceive bytes => Sys2Proof.Machine.execSkeinFrameReceive bytes s
  | .authFailWindowEnd => Sys2Proof.Machine.execAuthFailWindowEnd s
  | .ringAck => Sys2Proof.Machine.execRingAck s
  | .ringAckTimeout seq => Sys2Proof.Machine.execRingAckTimeout seq s
  | .ringState => Sys2Proof.Machine.execRingState s
  | .spliceForce => Sys2Proof.Machine.execSpliceForce s
  | .spliceClose node => Sys2Proof.Machine.execSpliceClose node s
  | .segmentRetrained endA endB => Sys2Proof.Machine.execSegmentRetrained endA endB s
  | .nodeReady node => Sys2Proof.Machine.execNodeReady node s
  | .retrain req => Sys2Proof.Machine.execRetrain req s
  | .ringEn req value => Sys2Proof.Machine.execRingEn req value s
  | .prekeyClear req => Sys2Proof.Machine.execPrekeyClear req s
  | .sknBridgeWrite req n value => Sys2Proof.Machine.execSknBridgeWrite req n value s
  | .eventFwd => Sys2Proof.Machine.execEventFwd s
  | .snagDecision causes => Sys2Proof.Machine.execSnagDecision causes s
  | .zeroizeOutPulseEnd => Sys2Proof.Machine.execZeroizeOutPulseEnd s
  | .recordWriter vinFell verified => Sys2Proof.Machine.execRecordWriter vinFell verified s
  | .tempConversion t0 t1 => Sys2Proof.Machine.execTempConversion t0 t1 s
  | .sensorCalibration result => Sys2Proof.Machine.execSensorCalibration result s
  | .forceCal req results => Sys2Proof.Machine.execForceCal req results s
  | .quenchEn req value => Sys2Proof.Machine.execQuenchEn req value s
  | .svcWrite frame => Sys2Proof.Machine.execSvcWrite frame s
  | .svcRead => Sys2Proof.Machine.execSvcRead s
  | .updateHello via => Sys2Proof.Machine.execUpdateHello via s
  | .updBegin via => Sys2Proof.Machine.execUpdBegin via s
  | .updPiece via flaw => Sys2Proof.Machine.execUpdPiece via flaw s
  | .updQuery via => Sys2Proof.Machine.execUpdQuery via s
  | .updCheck via => Sys2Proof.Machine.execUpdCheck via s
  | .checkComplete => Sys2Proof.Machine.execCheckComplete s
  | .updActivate via flaw => Sys2Proof.Machine.execUpdActivate via flaw s
  | .loaderActivation flaw => Sys2Proof.Machine.execLoaderActivation flaw s
  | .updRestore via flaw => Sys2Proof.Machine.execUpdRestore via flaw s
  | .abort via => Sys2Proof.Machine.execAbort via s
  | .updConfirm via => Sys2Proof.Machine.execUpdConfirm via s
  | .updateReset via recoveryN => Sys2Proof.Machine.execUpdateReset via recoveryN s
  | .stagingEraseDone => Sys2Proof.Machine.execStagingEraseDone s
  | .bypass => Sys2Proof.Machine.execBypass s
  | .idcode => Sys2Proof.Machine.execIdcode s
  | .samplePreload => Sys2Proof.Machine.execSamplePreload s
  | .dtmRov core op => Sys2Proof.Machine.execDtmRov core op s
  | .dtmSpn op => Sys2Proof.Machine.execDtmSpn op s
  | .otpPort write sel data => Sys2Proof.Machine.execOtpPort write sel data s
  | .lcPort write sel data => Sys2Proof.Machine.execLcPort write sel data s
  | .entRaw data samples => Sys2Proof.Machine.execEntRaw data samples s
  | .halt req core => Sys2Proof.Machine.execHalt req core s
  | .dbgStep req core => Sys2Proof.Machine.execDbgStep req core s
  | .dbgResume req core => Sys2Proof.Machine.execDbgResume req core s
  | .breakpointMatch core b pc => Sys2Proof.Machine.execBreakpointMatch core b pc s
  | .breakRovClear req => Sys2Proof.Machine.execBreakRovClear req s
  | .traceRovClear req => Sys2Proof.Machine.execTraceRovClear req s
  | .cntRovClear req => Sys2Proof.Machine.execCntRovClear req s
  | .traceArm req t => Sys2Proof.Machine.execTraceArm req t s
  | .traceTrigger t cause bp code => Sys2Proof.Machine.execTraceTrigger t cause bp code s
  | .swTrig req t => Sys2Proof.Machine.execSwTrig req t s
  | .traceFlush req t => Sys2Proof.Machine.execTraceFlush req t s
  | .traceHoldTimer t => Sys2Proof.Machine.execTraceHoldTimer t s
  | .tracePortRead req t => Sys2Proof.Machine.execTracePortRead req t s
  | .counterSample boundary => Sys2Proof.Machine.execCounterSample boundary s
  | .samplePortRead req g => Sys2Proof.Machine.execSamplePortRead req g s
  | .counterRead req n => Sys2Proof.Machine.execCounterRead req n s
  | .noilFreeze req => Sys2Proof.Machine.execNoilFreeze req s
  | .unfreeze req => Sys2Proof.Machine.execUnfreeze req s
  | .noilDataRead req => Sys2Proof.Machine.execNoilDataRead req s
  | .dbgSpnTraceWrite req value => Sys2Proof.Machine.execDbgSpnTraceWrite req value s
  | .genEvtDataRead req => Sys2Proof.Machine.execGenEvtDataRead req s
  | .genAevDataRead req => Sys2Proof.Machine.execGenAevDataRead req s
  | .whlTimeRead req => Sys2Proof.Machine.execWhlTimeRead req s
  | .vinFuseOkRise mv => Sys2Proof.Machine.execVinFuseOkRise mv s
  | .rovingWdtKick core => Sys2Proof.Machine.execRovingWdtKick core s
  | .softwareRecord core value => Sys2Proof.Machine.execSoftwareRecord core value s
  | .handoverComplete => Sys2Proof.Machine.execHandoverComplete s

end Sys2Proof.Machine
end

