-- ==== Sys2Proof/Safety.lean ====
section
/-!
DEFINITION. The terms claims are stated in: what follows a command's own effect, what a command leaves unchanged, and which fuse
arrays may follow one another.
-/

namespace Sys2Proof.Machine

/-! What follows a command's own effect. -/

/-- The state in which the instance is `c`. -/
def State.after (s : State) (c : Chip) : State := { s with chip := c }

/-- The state once everything that follows of itself from `c` has run (assumption 76). -/
def State.settled (s : State) (c : Chip) : State := s.after c.settle

/-- The state in which the instance is `c` and a program it cut has been read back (R82). -/
def State.cutAfter (s : State) (c : Chip) : State := { s with fuses := (settleCut s.fuses c).1, chip := (settleCut s.fuses c).2 }

/-- Both. -/
def State.cutSettled (s : State) (c : Chip) : State := s.cutAfter c.settle

/-! What a command leaves unchanged. -/

/-- The components of an instance beside its registers. -/
inductive Part where
  | time | free | tx | logs | ring | pins | pwr | sng | dbg | otp | lcs | mem | cores | cfg | boot | card | cust | whl | cry | dma | dmaStop
  | spdm | hanks | twist | ply | late | upd
  deriving DecidableEq, Repr

/-- A component of `d` is that of `c`. -/
def Part.same (c d : Chip) (p : Part) : Prop :=
  match p with
  | .time => d.time = c.time | .free => d.free = c.free | .tx => d.tx = c.tx | .logs => d.logs = c.logs | .ring => d.ring = c.ring
  | .pins => d.pins = c.pins | .pwr => d.pwr = c.pwr | .sng => d.sng = c.sng | .dbg => d.dbg = c.dbg | .otp => d.otp = c.otp
  | .lcs => d.lcs = c.lcs | .mem => d.mem = c.mem | .cores => d.cores = c.cores | .cfg => d.cfg = c.cfg | .boot => d.boot = c.boot
  | .card => d.card = c.card | .cust => d.cust = c.cust | .whl => d.whl = c.whl | .cry => d.cry = c.cry | .dma => d.dma = c.dma
  | .dmaStop => d.dmaStop = c.dmaStop | .spdm => d.spdm = c.spdm | .hanks => d.hanks = c.hanks | .twist => d.twist = c.twist
  | .ply => d.ply = c.ply | .late => d.late = c.late | .upd => d.upd = c.upd

/-- Is this the offset of some copy of the field's register? -/
def Fld.holds (f : Fld) (off : Nat) : Bool := copyAt f.base f.stride f.count off

/-- Nothing changed but the listed components and the registers of the listed fields. -/
def Chip.Only (ps : List Part) (fs : List Fld) (c d : Chip) : Prop :=
  (∀ p, p ∈ ps ∨ p.same c d) ∧ ∀ off, fs.any (·.holds off) = true ∨ d.rd off = c.rd off

/-- The registers an event may change beside the logs (R497, R498, R514): the event summary, the trace sources' states and counts of drops. -/
def eventRegs : List Fld := [F.GEN_EVT_SUM_NOTICE, F.DBG_TRt_STATUS_STATE, F.DBG_TRt_LOST_COUNT]

/-- The components an event may change. -/
def eventParts : List Part := [.logs, .dbg]

/-- Two words of the fuse array: every cell blown in the first is blown in the second (R68). -/
def Cells.le (a b : Cells) : Prop :=
  (∀ i, a.normal.testBit i = true → b.normal.testBit i = true) ∧ (∀ i, a.tight.testBit i = true → b.tight.testBit i = true) ∧
    ∀ i, a.loose.testBit i = true → b.loose.testBit i = true

/-- No cell of the array is blown in the first and unblown in the second (R68). -/
def Fuses.le (a b : Fuses) : Prop := ∀ w, Cells.le (a.at w) (b.at w)

/-- A word as a fuse array can hold it (R68, R70): a cell blown at the tight margin reads blown at the normal one, one blown at the
normal margin at the loose one. -/
def Cells.ok (w : Cells) : Prop :=
  (∀ i, w.tight.testBit i = true → w.normal.testBit i = true) ∧ ∀ i, w.normal.testBit i = true → w.loose.testBit i = true

/-- The array in its one form: words in rising order, each as a fuse array can hold it. -/
def Fuses.ok (fu : Fuses) : Prop := Tab.sorted fu.cells = true ∧ ∀ e ∈ fu.cells, e.2.ok

/-- The instance's memories in their one form (Machine/Memory.lean). -/
def Chip.memOk (c : Chip) : Prop := memWf 0#8 c.mem.spn = true ∧ memWf 0#8 c.mem.rov = true ∧ memWf 0xFF#8 c.mem.nor = true

/-- Every component but the listed ones is as before; the registers may change. -/
def Chip.Keeps (ps : List Part) (c d : Chip) : Prop := ∀ p, p ∈ ps ∨ p.same c d

/-! Windows of registers, as fields that hold every offset of the window. -/

/-- Every offset of a window. -/
def window (lo len : Nat) : Fld := ⟨lo, 1, len, 31, 0⟩

/-- The life-cycle token, the launch entries, the mailboxes, the Distaff page, the crypto channels, the digest contexts, the Twist units, the
DMA channels and the cores' debug registers. -/
def tokenRegs : Fld := window 0x3010 0x20
def whlRegs : Fld := window 0x5100 0x400
def mbsRegs : Fld := window 0x8000 0x800
def mbnRegs : Fld := window 0x9000 0x800
def dstRegs : Fld := window 0xB000 0x80
def chRegs : Fld := window 0xC100 0x400
def ctxRegs : Fld := window 0xD000 0x400
def twRegs : Fld := window 0xDC00 0x400
def dmaRegs : Fld := window 0xF100 0x800
def coreRegs : Fld := window 0x10100 0xC0

/-- A service call of a code waits in an MBS mailbox with good buffers, none of them poisoned, its core neither being fenced nor fenced (R143, R154). -/
def Chip.callReady (c : Chip) (n code : Nat) : Bool :=
  match c.callAt n with
  | some k => k.code == code && c.coreSt k.core != 2 && !c.cores.orphan.contains n && k.bufsOk && c.mem.poison.isEmpty
  | none => false

/-- The mailbox holds Spindle's reply with a status (Table 6.9). -/
def Chip.answered (c : Chip) (n : Nat) (st : Status) : Bool := c.mbSt false n == 3 && c.mbsWord n 0 % 256 == st.code

/-- The instance has failed or was held: HELD, phase 0xF0, the volatile state of the Service domain gone (R59, R139). -/
def Chip.gone (c : Chip) : Bool := c.seq == .held && c.phase == 0xF0 && c.cust == {} && c.cores == {} && c.hanks == {} && c.cry == {} && c.spdm == {}

/-- The code of the newest record of the AON event buffer. -/
def Chip.lastAon (c : Chip) : Option Nat := (c.logs.aon.getLast?).map (·.code)

/-! Descriptors of a crypto channel (R268). -/

/-- The oldest delivered ring frame of a type. -/
def Chip.front (c : Chip) (typ : Nat) : Option Inbox := c.ring.inbox.find? (fun m => m.typ == typ)

/-- `HEAD` once a descriptor was taken. -/
def Chip.cryNext (c : Chip) (n : Nat) : Nat := (c.geti F.CRY_CHn_HEAD_IDX n + 1) % 2 ^ c.geti F.CRY_CHn_CFG_LOG2 n

/-- An enabled channel with nothing in flight has one descriptor of the hardware's, at `HEAD`, of this operation. -/
def Chip.cryOffered (c : Chip) (n op : Nat) : Bool :=
  (c.chRead n).op == op && c.svcUp && decide (n < 32) && c.geti F.CRY_CHn_CFG_EN n == 1 && c.geti F.CRY_CHn_HEAD_IDX n != c.geti F.CRY_CHn_TAIL_IDX n &&
    c.cryNext n == c.geti F.CRY_CHn_TAIL_IDX n && bit (c.chRead n).flags 0 && decide (c.geti F.CRY_CHn_CFG_LOG2 n ≤ 8) && (c.ch n).fl.isEmpty

/-- No unit waits for a lane, one of the operation's class is free, and the owner's core is not halted (R271). -/
def Chip.cryAlone (c : Chip) (n op : Nat) : Bool :=
  (List.range 32).all (fun k => (c.chWaits k).isEmpty) && (c.laneOpen (cryLane op)).isSome &&
    !(decide (0xF0 ≤ c.chOwner n) && c.chOwner n != 0xFF && c.coreHalted (c.chOwner n - 0xF0))

/-- Every check before the start passes. -/
def Chip.cryChecks (c : Chip) (n : Nat) : Bool :=
  let d := c.chRead n
  !c.cryDown d.op && cryAllowed (c.chSpn n) d && cryGood (c.chSpn n) (c.geti F.CRY_CHn_CFG_CAP n) d && !c.cryPoison n d

/-- The source key is of a type the operation takes and not sealed against it (R269). -/
def Chip.cryKeyed (c : Chip) (n : Nat) : Bool :=
  let d := c.chRead n
  !c.cryMisuse n d && (match crySrc d.op with | some ts => ts.contains (c.chKey n d.src).typ | none => true)

/-- The descriptor at `HEAD` as a unit that waits for its start. -/
def Chip.cryQueued (c : Chip) (n : Nat) : Flight := { idx := c.geti F.CRY_CHn_HEAD_IDX n, desc := c.chRead n, arrive := c.cry.arrive }

/-- The descriptor at `HEAD` as a unit that has started on a free lane: what the operation leaves of its input, source key and random bytes. -/
def Chip.cryRan (c : Chip) (n : Nat) (rnd : List Byte) : Flight :=
  let d := c.chRead n
  let l := (c.laneOpen (cryLane d.op)).getD 0
  let r := c.cryRun (c.cryLoad n d) (c.chKey n d.src) (c.chKey n (d.arg % 4)) rnd
  { c.cryQueued n with
    started := true, lane := some l, expand := d.op == 0x11 && !c.seedHeld l (c.chKey n d.src).bytes, st := r.st, out := r.out
    used := r.used, key := r.key }

/-- The ring holds one descriptor, of this command, and it is taken (R173). -/
def Chip.cqTaken (c : Chip) (op : Nat) : Bool :=
  c.cqRead.op == op && (c.cmdTake op c.cqRead).isSome && decide (c.get F.BOB_CQ_CFG_LOG2 ≤ 10) &&
    (c.get F.BOB_CQ_HEAD_IDX + 1) % c.cqSize == c.get F.BOB_CQ_TAIL_IDX

/-- The access reaches its register (R14): its requester number is one an access may carry, the page is powered and Table 1.5 grants it. -/
def Chip.opens (c : Chip) (req : Req) (off : Nat) (write : Bool) : Bool := !badReq req && c.powered off && c.granted req off write

end Sys2Proof.Machine
end

