-- ==== Sys2Proof/WellFormed.lean ====
section
/-!
DEFINITION. Well-formed commands: operands within the widths and ranges the spec gives the things they name. The machine is total on
ill-formed ones as well; a command that cannot happen changes nothing (assumption 11).
-/

namespace Sys2Proof

open Sys2Proof.Machine

/-- A Skein node: dies 0 to 63, the instances 64 and 65 (R38). -/
def nodeOk (n : Nat) : Bool := decide (n < 66)

/-- A compute die. -/
def dieOk (n : Nat) : Bool := decide (n < 64)

/-- A Roving core (R133). -/
def coreOk (n : Nat) : Bool := decide (n < 6)

/-- A mailbox of a page (R145). -/
def boxOk (n : Nat) : Bool := decide (n < 16)

/-- A Bobbin ID of 20 bits (Table 2.2). -/
def bobOk (n : Nat) : Bool := decide (n < 2 ^ 20)

/-- A lane of a class (Table 10.1). -/
def laneOk (cls lane : Nat) : Bool := decide (cls < 6) && decide (lane < (match cls with | 0 => 4 | 1 => 4 | 2 => 8 | 3 => 2 | 4 => 4 | _ => 1))

/-- An update command comes by a mailbox or by the service port. -/
def viaOk (via : Option Nat) : Bool := match via with | some n => boxOk n | none => true

/-- A fuse word: 40 cells, a cell blown at a tighter margin is blown at a looser one (R70). -/
def Machine.Cells.wf (w : Cells) : Bool :=
  decide (w.loose < 2 ^ 40) && Nat.land w.tight w.normal == w.tight && Nat.land w.normal w.loose == w.normal

/-- A Warp frame within Table 2.2. -/
def Machine.WarpFrame.wf (f : WarpFrame) : Bool :=
  decide (f.op < 256) && decide (f.result < 256) && decide (f.sub < 2 ^ 16) && decide (f.bobbin < 2 ^ 32) && decide (f.epoch < 2 ^ 32) &&
    decide (f.time < 2 ^ 64) && decide (f.share0.length ≤ 32) && decide (f.share1.length ≤ 32) && decide (f.limit < 2 ^ 64)

/-- A Custody descriptor within Table 7.5. -/
def Machine.CqDesc.wf (d : CqDesc) : Bool :=
  decide (d.flags < 256) && decide (d.tag < 2 ^ 16) && bobOk d.first && bobOk d.last && decide (d.epoch < 2 ^ 32) && decide (d.arg0 < 2 ^ 64) &&
    decide (d.arg1 < 2 ^ 32) && decide (d.arg2 < 2 ^ 32)

/-- A crypto descriptor within Table 10.2. -/
def Machine.CryDesc.wf (d : CryDesc) : Bool :=
  decide (d.op < 256) && decide (d.flags < 256) && decide (d.key < 256) && decide (d.cls < 256) && decide (d.inOff < 2 ^ 32) &&
    decide (d.inLen < 2 ^ 32) && decide (d.auxOff < 2 ^ 32) && decide (d.auxLen < 2 ^ 32) && decide (d.outOff < 2 ^ 32) &&
    decide (d.outLen < 2 ^ 32) && decide (d.arg < 2 ^ 32)

/-- A DMA descriptor within the widths of Table 11.1. -/
def Machine.DmaDesc.wf (d : DmaDesc) : Bool :=
  decide (d.op < 256) && decide (d.flags < 256) && decide (d.req < 256) && decide (d.prio < 256) && decide (d.src < 2 ^ 64) &&
    decide (d.dst < 2 ^ 64) && decide (d.len < 2 ^ 32) && decide (d.index < 2 ^ 64) && decide (d.count < 2 ^ 32) && decide (d.elem < 2 ^ 16) &&
    decide (d.burst < 2 ^ 16) && decide (d.pattern.length ≤ 8) && decide (d.crc < 2 ^ 32)

/-- What a channel moved: whole words, at most 256 bytes staged (R300). -/
def Machine.DmaMove.wf (m : DmaMove) : Bool := decide (m.ch < 32) && m.bytes % 4 == 0 && m.staged % 4 == 0 && decide (m.staged ≤ 256)

/-- A debug module request names a breakpoint register that exists (R494) and a word-aligned address. -/
def Machine.DmiOp.wf (op : DmiOp) : Bool :=
  match op with
  | .breakpoint b _ => decide (b < 4)
  | .busRead a _ => a % 4 == 0
  | .busWrite a _ => a % 4 == 0
  | _ => true

/-- An SPDM message has its version and code (R336). -/
def Machine.SpdmMsg.wf (m : SpdmMsg) : Bool := decide (m.conn < 512) && decide (2 ≤ m.msg.length)

/-- Is a command well-formed? -/
def Instr.wf (i : Instr) : Bool :=
  match i with
  | .registerWrite _ off _ => off % 4 == 0 && decide (off < 0x80000)
  | .fabricAccessError _ _ _ _ => true
  | .pageAccessRefused _ off _ _ => off % 4 == 0 && decide (off < 0x80000)
  | .porstNAssert _ => true
  | .porstNRise strapClass _ _ => decide (strapClass < 4)
  | .sysrstNPulse _ _ => true
  | .brownOutReset _ => true
  | .vinOkFall _ => true
  | .vinFuseOkFall _ => true
  | .refclkLost => true
  | .clockGlitch => true
  | .refclkPresentAgain => true
  | .rsvReady => true
  | .fuseSensingDone drift time => drift.all (fun e => decide (e.1 < 4099) && e.2.wf) && decide (time < 2 ^ 64)
  | .lcsRecordResume _ => true
  | .seqSvcWake => true
  | .svcPllLocked => true
  | .svcPllTimeout => true
  | .cryptoGroupWake _ => true
  | .cryptoGroupReady _ _ => true
  | .cryptoPllTimeout => true
  | .groupIdlePowerOff _ => true
  | .cryptoPllHoldExpire => true
  | .pwrForceOn _ _ => true
  | .sleepReq _ => true
  | .sleepEntryDone => true
  | .pwrShutdown _ => true
  | .wakeFabricAccess _ off _ => off % 4 == 0 && decide (off < 0x80000)
  | .wakeTimer => true
  | .wakePlyBeacon => true
  | .wakeSvcPort => true
  | .otpRead _ _ => true
  | .progWord _ _ => true
  | .progDigest _ _ _ => true
  | .lockWrite _ _ _ _ => true
  | .lockRead _ _ _ => true
  | .lockWriteRaw _ _ _ => true
  | .genRoots _ _ => true
  | .arbAdvance _ _ _ => true
  | .otpProgramDone _ => true
  | .otpAuditStart _ _ => true
  | .otpAuditDone drift => drift.all (fun e => decide (e.1 < 4099) && e.2.wf)
  | .quenchDone bad => decide (bad < 8)
  | .lcsGo _ _ => true
  | .lcsPhaseDone _ => true
  | .lcsRestart => true
  | .fetchReq region => decide (region < 8)
  | .fetchResp region _ words => decide (region < 8) && words.length == 2016
  | .fetchRetryTimer => true
  | .fetchTimeout => true
  | .romInit rom => rom.length == 262144
  | .integDecide => true
  | .norInit => true
  | .rootLoad => true
  | .deviceidDerive => true
  | .spindleVerify => true
  | .aliasDerive => true
  | .recoveryEnter => true
  | .spindleInit => true
  | .configApply => true
  | .rovingStart => true
  | .custodyInit => true
  | .ringStart _ _ => true
  | .cardNodePresent node => dieOk node
  | .measured => true
  | .notReady => true
  | .keyInstalled => true
  | .keyFailed => true
  | .cardRetryTimer node => dieOk node
  | .cardTimeout node => dieOk node
  | .cardKeyTimeout node => dieOk node
  | .cardTakeoverTimer => true
  | .cardNotice rkey _ => decide (rkey < 2 ^ 16)
  | .recard _ node => dieOk node
  | .lockstepMismatch _ group => decide (group < 256)
  | .spindleSramUncorrectable addr _ => decide (addr < 0x100000)
  | .spindleWdtExpire _ => true
  | .spindleWdtKick _ _ => true
  | .codeWp _ _ => true
  | .spindleCodeFault off _ => decide (off < 0x100000)
  | .coreAccessFault _ _ _ _ _ => true
  | .sramPatrol spindle addr errors => decide (addr < (if spindle then 0x100000 else 0x600000)) && decide (errors ≤ 2)
  | .rovingCoreFence core cause => coreOk core && (cause == 1 || cause == 3 || cause == 4)
  | .rovingWdtExpire core => coreOk core
  | .coreFence _ core => coreOk core
  | .fencingDone core _ => coreOk core
  | .coreRestart _ core => coreOk core
  | .coreResetRelease core => coreOk core
  | .mbLockRead _ _ n => boxOk n
  | .mbDataWrite _ _ n word _ => boxOk n && decide (word < 16)
  | .mbGo _ _ n words => boxOk n && decide (words < 32)
  | .mbRelease _ _ n => boxOk n
  | .mbForce _ _ n => boxOk n
  | .mbLockTimeout _ n => boxOk n
  | .coreHello n => boxOk n
  | .snapshotGet n => boxOk n
  | .eventsDrain n => boxOk n
  | .signReport n => boxOk n
  | .signSpdm n => boxOk n
  | .sessionKeys n => boxOk n
  | .launchRequest n => boxOk n
  | .launchCancel n => boxOk n
  | .hankCreate n _ => boxOk n
  | .hankTeardown n _ => boxOk n
  | .ceremonyShare n _ => boxOk n
  | .consent n _ => boxOk n
  | .withdrawObject n => boxOk n
  | .strandSet n => boxOk n
  | .ownerEndorsement n _ => boxOk n
  | .objectExpiry _ => true
  | .grant n => boxOk n
  | .release n => boxOk n
  | .sleepRequest n => boxOk n
  | .lcRequest n _ => boxOk n
  | .serviceCallComplete core => coreOk core
  | .bobCqTailWrite _ _ => true
  | .bobCplHeadWrite _ _ => true
  | .create => true
  | .derive => true
  | .importCmd => true
  | .commit => true
  | .arm => true
  | .cancel => true
  | .freeze => true
  | .destroy => true
  | .resume => true
  | .historic => true
  | .bobRead => true
  | .fenceCommand => true
  | .keyReq => true
  | .blobLoadDone bobbin bytes => bobOk bobbin && decide (bytes.length ≤ 64)
  | .katDone ch frame => frame.wf && decide (ch < 16)
  | .warpAck ch frame => frame.wf && decide (ch < 16)
  | .warpFrameCrcFail ch => decide (ch < 16)
  | .warpAnswerTimeout ch => decide (ch < 16)
  | .keyPushAck => true
  | .limitReport ch frame => frame.wf && decide (ch < 16)
  | .journalProgramDone _ => true
  | .journalSectorEraseDone => true
  | .journalSectorWaitTimeout => true
  | .bobbinRecordUncorrectable bobbin _ => bobOk bobbin
  | .cacheRemask => true
  | .dstCacheFlush _ => true
  | .bobWarpClear _ _ => true
  | .deadlineNear bobbin => bobOk bobbin
  | .deadlinePassed bobbin => bobOk bobbin
  | .markerEmit => true
  | .markerReceive _ bytes => bytes.length == 16
  | .slotBoundaryCorrection => true
  | .markerTimeout => true
  | .xpkgTimeReport ch frame => frame.wf && decide (ch < 16)
  | .xpkgReportTimeout => true
  | .schedule _ => true
  | .whlCancel _ _ => true
  | .whlFree _ _ => true
  | .launchHorizon _ => true
  | .launchFinalPoint _ => true
  | .launchFire _ => true
  | .launchGraceEnd _ => true
  | .launchRepeat _ => true
  | .launchCancelRepeat _ => true
  | .rootUpdate ch frame => frame.wf && decide (ch < 16)
  | .rootStorePatrol tree _ => decide (tree < 4096)
  | .rootRepairDone tree _ bytes => decide (tree < 4096) && bytes.length == 64
  | .faultReport ch frame => frame.wf && decide (ch < 16)
  | .complexResetAnnounce ch frame => frame.wf && decide (ch < 16)
  | .boundaryReport ch frame => frame.wf && decide (ch < 16)
  | .peerEpochReport ch frame => frame.wf && decide (ch < 16)
  | .cryChTailWrite _ _ _ => true
  | .mldsaKeygen _ => true
  | .mldsaSign _ => true
  | .mldsaVerify _ => true
  | .mlkemKeygen _ => true
  | .mlkemEncaps _ => true
  | .mlkemDecaps _ => true
  | .ntt _ _ => true
  | .eccKeygen _ => true
  | .ecdsaSign _ => true
  | .ecdsaVerify _ => true
  | .ecdh _ => true
  | .kmac _ => true
  | .gcmEnc _ => true
  | .gcmDec _ => true
  | .ctr _ => true
  | .kwWrap _ => true
  | .kwUnwrap _ => true
  | .keyRandom _ => true
  | .keyErase _ => true
  | .keyDistaff _ => true
  | .keyLoad _ => true
  | .random _ => true
  | .cryptoOpComplete _ _ _ => true
  | .dgtOpen _ _ _ => true
  | .dgtFinal _ _ => true
  | .dgtClose _ _ => true
  | .dgtFeed _ _ data => data.length % 4 == 0
  | .digestAbsorbed _ => true
  | .dgtResultRead _ _ => true
  | .entropyHealthFail _ window => window.length == 1024
  | .entropyRetestDone _ window => window.length == 1024
  | .entropyCalibrate _ _ => true
  | .drbgKatFail => true
  | .tlyOpen _ _ => true
  | .tlyAdd _ _ _ => true
  | .tlyAddDone _ _ => true
  | .tlyAbort _ _ => true
  | .tlyRelease _ _ => true
  | .tlyDigestRead _ _ => true
  | .selftestRequest _ _ _ => true
  | .selftestPeriodic => true
  | .laneDrained cls lane => laneOk cls lane
  | .laneTestDone cls lane _ => laneOk cls lane
  | .laneFault cls lane _ => laneOk cls lane
  | .dmaChTailWrite _ _ _ => true
  | .dmaOwnPoll _ => true
  | .copy _ => true
  | .fill _ => true
  | .gather _ table => table.all (fun a => decide (a < 2 ^ 64))
  | .scatter _ table => table.all (fun a => decide (a < 2 ^ 64))
  | .dmaRequestLine _ _ => true
  | .dmaDescriptorDone _ _ => true
  | .dmaSwreq _ _ => true
  | .dmaPause _ _ _ => true
  | .dmaPauseDrained m => m.wf
  | .dmaAbort _ _ => true
  | .dmaBusError _ cause _ _ _ _ moves => decide (1 ≤ cause) && decide (cause ≤ 5) && moves.all (fun m => m.wf)
  | .dmaRelease _ _ => true
  | .dmaClear _ _ => true
  | .dmaParityError _ => true
  | .dmaChannelEnable _ _ => true
  | .getVersion m => m.wf
  | .getCapabilities m => m.wf
  | .negotiateAlgorithms m => m.wf
  | .getDigests m => m.wf
  | .getCertificate m => m.wf
  | .challenge m => m.wf
  | .getMeasurements m => m.wf
  | .keyExchange m => m.wf
  | .finish m => m.wf
  | .heartbeat m => m.wf
  | .keyUpdate m => m.wf
  | .endSession m => m.wf
  | .sessionExpire _ => true
  | .orphanSessionExpire _ => true
  | .getChain m => m.wf
  | .hybridSig m => m.wf
  | .kemOffer m => m.wf
  | .getReport m => m.wf
  | .getReceipt m => m.wf
  | .getTwistHead m => m.wf
  | .rebind m => m.wf
  | .getLeakage m => m.wf
  | .ownerObjectPortion m _ => m.wf
  | .reportSigned _ => true
  | .twistBatch => true
  | .twistFold _ => true
  | .seal _ _ => true
  | .twistLogWriteError _ _ _ => true
  | .twistHeadRead _ _ => true
  | .receiptSigned _ => true
  | .hankKeying _ => true
  | .hankTearing _ => true
  | .consentEndSlot _ kind => decide (kind < 9)
  | .scrubDigest => true
  | .scrubTimeout _ die => dieOk die
  | .quietReplyRelease _ => true
  | .linkEn _ _ => true
  | .plyRetrain _ => true
  | .hello body => body.length == 64
  | .auth _ _ _ _ _ => true
  | .plyFrameCheckFail typ _ => decide (typ < 256)
  | .linkNak _ => true
  | .heartbeatSend => true
  | .plyHeartbeat body _ => body.length == 64
  | .partnerLost => true
  | .mirrorAckTimeout => true
  | .mirror _ _ => true
  | .mirrorAck _ => true
  | .relay ch frame => frame.wf && decide (ch < 16)
  | .relayAns ch frame => frame.wf && decide (ch < 16)
  | .relayAnswerTimeout ch => decide (ch < 16)
  | .resyncReq _ _ => true
  | .resyncData _ => true
  | .resyncComplete => true
  | .handoverFrame _ _ => true
  | .sleepFrame => true
  | .sleepAck => true
  | .leaseGrant => true
  | .leaseRenew => true
  | .leaseExpiryMargin => true
  | .takeoverRepeat => true
  | .candidateTimeout => true
  | .promote => true
  | .pairWaitExpire => true
  | .startEmpty _ => true
  | .handover _ => true
  | .handoverTimeout => true
  | .sleepHs _ => true
  | .skeinFrameReceive bytes => decide (32 ≤ bytes.length) && decide (bytes.length ≤ 224)
  | .authFailWindowEnd => true
  | .ringAck => true
  | .ringAckTimeout seq => decide (seq < 2 ^ 32)
  | .ringState => true
  | .spliceForce => true
  | .spliceClose node => nodeOk node
  | .segmentRetrained endA endB => nodeOk endA && nodeOk endB
  | .nodeReady node => nodeOk node
  | .retrain _ => true
  | .ringEn _ _ => true
  | .prekeyClear _ => true
  | .sknBridgeWrite _ n _ => decide (n < 3)
  | .eventFwd => true
  | .snagDecision _ => true
  | .zeroizeOutPulseEnd => true
  | .recordWriter _ _ => true
  | .tempConversion _ _ => true
  | .sensorCalibration _ => true
  | .forceCal _ _ => true
  | .quenchEn _ _ => true
  | .svcWrite _ => true
  | .svcRead => true
  | .updateHello via => viaOk via
  | .updBegin via => viaOk via
  | .updPiece via _ => viaOk via
  | .updQuery via => viaOk via
  | .updCheck via => viaOk via
  | .checkComplete => true
  | .updActivate via _ => viaOk via
  | .loaderActivation _ => true
  | .updRestore via _ => viaOk via
  | .abort via => viaOk via
  | .updConfirm via => viaOk via
  | .updateReset via _ => viaOk via
  | .stagingEraseDone => true
  | .bypass => true
  | .idcode => true
  | .samplePreload => true
  | .dtmRov core op => coreOk core && op.wf
  | .dtmSpn op => op.wf
  | .otpPort _ _ _ => true
  | .lcPort _ _ _ => true
  | .entRaw _ _ => true
  | .halt _ core => coreOk core
  | .dbgStep _ core => coreOk core
  | .dbgResume _ core => coreOk core
  | .breakpointMatch core b _ => coreOk core && decide (b < 4)
  | .breakRovClear _ => true
  | .traceRovClear _ => true
  | .cntRovClear _ => true
  | .traceArm _ t => decide (t < 17)
  | .traceTrigger t cause bp code => decide (t < 15) && (cause == 2 || cause == 3) && decide (bp < 4) && decide (code < 0x10000)
  | .swTrig _ t => decide (t < 17)
  | .traceFlush _ t => decide (t < 17)
  | .traceHoldTimer t => decide (t < 17)
  | .tracePortRead _ t => decide (t < 17)
  | .counterSample boundary => boundary.length == 8
  | .samplePortRead _ _ => true
  | .counterRead _ _ => true
  | .noilFreeze _ => true
  | .unfreeze _ => true
  | .noilDataRead _ => true
  | .dbgSpnTraceWrite _ _ => true
  | .genEvtDataRead _ => true
  | .genAevDataRead _ => true
  | .whlTimeRead _ => true
  | .vinFuseOkRise _ => true
  | .rovingWdtKick core => coreOk core
  | .softwareRecord core _ => coreOk core
  | .handoverComplete => true

end Sys2Proof
end

