-- ==== Sys2Proof/Certificates/Slice0/Obligations.lean ====
section
/-!
DEFINITION. The statements for the provers. `Says.x` is the claim about command `x`: it answers a next state, changes nothing but what is
listed, and has the effect of its rule where the conditions of the rule hold; an obligation gathers those of one family.
-/

namespace Sys2Proof.Machine

/-- PORST_N_ASSERT (R26): a pulse shorter than 1 µs is taken in full or ignored, as `taken` says. -/
def Says.porstNAssert : Prop :=
    (∀ (s : State) (taken : Bool), taken = false → ∃ (fu : Fuses) (c : Chip), exec (.porstNAssert taken) s = .next { s with fuses := fu, chip := c }
        ∧ s.fuses.le fu ∧ c = s.chip) ∧
    (∀ (s : State) (taken : Bool), taken = true → s.chip.otp.job = none → s.chip.otp.quenching = false → s.chip.otp.cut = none → s.chip.get
        F.DBG_NOIL_STATUS_FROZEN = 0 → ∃ (fu : Fuses) (c : Chip), exec (.porstNAssert taken) s = .next { s with fuses := fu, chip := c } ∧ s.fuses.le
        fu ∧ (∀ off, off ≠ R.PWR_VIN → off ≠ R.PWR_STATUS → c.rd off = regReset off) ∧ c.rd R.PWR_VIN = s.chip.rd R.PWR_VIN ∧ c.seq = .sense ∧ c.get
        F.PWR_STATUS_VIN_OK = s.chip.get F.PWR_STATUS_VIN_OK ∧ c.mem = { nor := s.chip.mem.nor } ∧ c.otp = {} ∧ c.cust = {} ∧ c.cores = {} ∧ c.logs =
        {} ∧ c.pins = {} ∧ fu = s.fuses)

/-- BROWN_OUT_RESET (R53, R502): as by `PORST_N`; the Noil rings are cleared and record again. -/
def Says.brownOutReset : Prop :=
    ∀ (s : State) (mv : Nat), s.chip.otp.job = none → s.chip.otp.quenching = false → s.chip.otp.cut = none → ∃ (fu : Fuses) (c : Chip), exec
        (.brownOutReset mv) s = .next { s with fuses := fu, chip := c } ∧ s.fuses.le fu ∧ c.get F.PWR_STATUS_VIN_OK = 0 ∧ c.get
        F.PWR_STATUS_VIN_FUSE_OK = 0 ∧ c.get F.PWR_VIN_MV = min mv 1549 ∧ c.seq = .sense ∧ c.mem = { nor := s.chip.mem.nor } ∧ c.dbg.noil = [] ∧
        c.otp = {} ∧ c.cust = {} ∧ fu = s.fuses

/-- PORST_N_RISE (R27): the straps are sampled; fuse sensing and the reservoir charge begin. The rail is inside its window (R26). -/
def Says.porstNRise : Prop :=
    (∀ (s : State) (strapClass : Nat) (strapSide recoveryN : Bool), ∃ c : Chip, exec (.porstNRise strapClass strapSide recoveryN) s = .next (s.after
        c) ∧ s.chip.Only [.free, .pins, .dbg] [F.GEN_BOOT_LAST_STATUS, F.PWR_STATUS_LAST_RESULT, F.PWR_VIN_MV] c) ∧
    (∀ (s : State) (strapClass : Nat) (strapSide recoveryN : Bool), s.chip.pins.porstN = false → ∃ c : Chip, exec (.porstNRise strapClass strapSide
        recoveryN) s = .next (s.after c) ∧ c.pins.porstN = true ∧ c.pins.strapClass = strapClass % 4 ∧ c.pins.strapSide = strapSide ∧
        c.pins.recoveryN = recoveryN ∧ c.get F.PWR_STATUS_VIN_OK = 1 ∧ c.phase = 0) ∧
    (∀ (s : State) (strapClass : Nat) (strapSide recoveryN : Bool), s.chip.pins.porstN = true → ∃ c : Chip, exec (.porstNRise strapClass strapSide
        recoveryN) s = .next (s.after c) ∧ c = s.chip)

/-- SYSRST_N_PULSE (R26, R59, R65, R111). -/
def Says.sysrstNPulse : Prop :=
    (∀ (s : State) (taken recoveryN : Bool), (taken = false ∨ s.chip.pins.porstN = false) → ∃ c : Chip, exec (.sysrstNPulse taken recoveryN) s =
        .next (s.cutAfter c) ∧ c = s.chip) ∧
    (∀ (s : State) (taken recoveryN : Bool), taken = true → s.chip.pins.porstN = true → s.chip.seq = .sleepEntry → ∃ c : Chip, exec (.sysrstNPulse
        taken recoveryN) s = .next (s.cutAfter c) ∧ c.pwr.latched = true ∧ c.get F.PWR_WAKE_CAUSE_RESET = 1 ∧ c.pins.recoveryN = recoveryN ∧ c.seq =
        .sleepEntry) ∧
    (∀ (s : State) (taken recoveryN : Bool), taken = true → s.chip.pins.porstN = true → s.chip.seq = .service → ∃ c : Chip, exec (.sysrstNPulse taken
        recoveryN) s = .next (s.cutAfter c) ∧ c.seq = .svcWaking ∧ c.cust = {} ∧ c.cores = {} ∧ c.cry = {} ∧ c.pins.recoveryN = recoveryN ∧
        c.pwr.warm = true)

/-- VIN_OK_FALL (R53, R54): a reading outside the operating window, by the sequencer state. -/
def Says.vinOkFall : Prop :=
    (∀ (s : State) (mv : Nat), railOk mv = false → s.chip.otp.job = none → s.chip.get F.PWR_STATUS_VIN_OK = 0 → ∃ c : Chip, exec (.vinOkFall mv) s =
        .next (s.cutAfter c) ∧ c.get F.PWR_STATUS_VIN_OK = 0 ∧ c.get F.PWR_VIN_MV = min mv 0xFFFF ∧ c.logs = s.chip.logs ∧ c.cust = s.chip.cust ∧
        c.seq = s.chip.seq) ∧
    (∀ (s : State) (mv : Nat), railOk mv = false → s.chip.pins.porstN = true → s.chip.otp.job = none → s.chip.get F.PWR_STATUS_VIN_OK = 1 →
        s.chip.seq = .shutdown → ∃ c : Chip, exec (.vinOkFall mv) s = .next (s.cutAfter c) ∧ c.get F.PWR_STATUS_VIN_OK = 0 ∧ c.get
        F.PWR_STATUS_VIN_FUSE_OK = 0 ∧ c.get F.PWR_VIN_MV = min mv 0xFFFF ∧ c.seq = .shutdown ∧ c.lastAon = some 0x0304) ∧
    (∀ (s : State) (mv : Nat), railOk mv = false → s.chip.pins.porstN = true → s.chip.otp.job = none → s.chip.get F.PWR_STATUS_VIN_OK = 1 →
        s.chip.seq = .service → ∃ c : Chip, exec (.vinOkFall mv) s = .next (s.cutAfter c) ∧ c.get F.PWR_STATUS_VIN_OK = 0 ∧ c.get
        F.PWR_STATUS_VIN_FUSE_OK = 0 ∧ c.get F.PWR_VIN_MV = min mv 0xFFFF ∧ bit (c.get F.SNG_CAUSE_BITS) (causeBit 0x10) = true ∧ c.gone = true)

/-- VIN_FUSE_OK_FALL (R53, R55): a reading outside the fuse window. -/
def Says.vinFuseOkFall : Prop :=
    ∀ (s : State) (mv : Nat), railOk mv = true → railFuseOk mv = false → s.chip.pins.porstN = true → s.chip.otp.job = none → ∃ c : Chip, exec
        (.vinFuseOkFall mv) s = .next (s.cutAfter c) ∧ c.get F.PWR_STATUS_VIN_FUSE_OK = 0 ∧ c.get F.PWR_STATUS_VIN_OK = 1 ∧ c.get F.PWR_VIN_MV = mv ∧
        c.logs = s.chip.logs ∧ c.otp = s.chip.otp

/-- VIN_FUSE_OK_RISE (R53, R95, R87): a reading inside the fuse window, so inside the operating window too; an incomplete quench blows its remaining
cells. -/
def Says.vinFuseOkRise : Prop :=
    (∀ (s : State) (mv : Nat), ∃ c : Chip, exec (.vinFuseOkRise mv) s = .next (s.after c) ∧ s.chip.Only ([Part.otp] ++ eventParts)
        ([F.PWR_STATUS_LAST_RESULT, F.PWR_VIN_MV, F.OTP_STATUS_LAST_OP, F.LCS_STATUS_PHASE] ++ eventRegs) c) ∧
    (∀ (s : State) (mv : Nat), railFuseOk mv = true → ∃ c : Chip, exec (.vinFuseOkRise mv) s = .next (s.after c) ∧ c.get F.PWR_STATUS_VIN_FUSE_OK = 1
        ∧ c.get F.PWR_STATUS_VIN_OK = 1 ∧ c.get F.PWR_VIN_MV = mv ∧ (s.chip.otp.quenched = false → c.otp = s.chip.otp))

/-- REFCLK_LOST (R50, R51, R52). -/
def Says.refclkLost : Prop :=
    ∀ (s : State), s.chip.pins.porstN = true → s.chip.get F.PWR_STATUS_REF_LOST = 0 → s.chip.seq = .sense → ∃ c : Chip, exec .refclkLost s = .next
        (s.cutAfter c) ∧ c.get F.PWR_STATUS_REF_LOST = 1 ∧ c.get F.PWR_STATUS_ON_RC = 1 ∧ c.get F.WHL_STATUS_ALIGN = 0 ∧ c.seq = .sense

/-- REFCLK_PRESENT_AGAIN (R50, R52, Table 8.2): back on the reference; a master is aligned again; a wake that waited starts. -/
def Says.refclkPresentAgain : Prop :=
    (∀ (s : State), ∃ c : Chip, exec .refclkPresentAgain s = .next (s.after c) ∧ s.chip.Only ([Part.tx, Part.pwr] ++ eventParts)
        ([F.PWR_STATUS_LAST_RESULT, F.SNG_STATUS_TEMP1, F.WHL_STATUS_MASTER] ++ eventRegs) c) ∧
    (∀ (s : State), s.chip.pins.porstN = true → s.chip.get F.PWR_STATUS_REF_LOST = 1 → s.chip.seq ≠ .sleep → ∃ c : Chip, exec .refclkPresentAgain s =
        .next (s.after c) ∧ c.get F.PWR_STATUS_REF_LOST = 0 ∧ c.get F.PWR_STATUS_ON_RC = 0 ∧ (s.chip.get F.WHL_STATUS_IS_MASTER = 1 → c.get
        F.WHL_STATUS_ALIGN = 2) ∧ c.seq = s.chip.seq)

/-- CLOCK_GLITCH (R49, R52). -/
def Says.clockGlitch : Prop :=
    (∀ (s : State), s.chip.pins.porstN = false → ∃ c : Chip, exec .clockGlitch s = .next (s.cutAfter c) ∧ c = s.chip) ∧
    (∀ (s : State), s.chip.pins.porstN = true → s.chip.seq = .service → ∃ c : Chip, exec .clockGlitch s = .next (s.cutAfter c) ∧ bit (c.get
        F.SNG_CAUSE_BITS) (causeBit 0x11) = true ∧ c.gone = true)

/-- RSV_READY (R56): the reservoir can complete one quench program; a quench requested before starts now. -/
def Says.rsvReady : Prop :=
    (∀ (s : State), ∃ c : Chip, exec .rsvReady s = .next (s.cutAfter c) ∧ s.chip.Only ([Part.otp] ++ eventParts) ([F.PWR_STATUS_LAST_RESULT,
        F.OTP_STATUS_LAST_OP, F.OTP_AUDIT_RES_MISMATCH, F.LCS_STATUS_PHASE] ++ eventRegs) c) ∧
    (∀ (s : State), s.chip.pins.porstN = true → s.chip.get F.SNG_STATUS_QUENCH_REQ = 0 → ∃ c : Chip, exec .rsvReady s = .next (s.cutAfter c) ∧ c.get
        F.PWR_STATUS_RSV_READY = 1 ∧ c.otp = s.chip.otp)

/-- SEQ_SVC_WAKE (R59): SENSE ends once sensing is done, no record waits, the reference is present and `RSV_READY` is 1. -/
def Says.seqSvcWake : Prop :=
    (∀ (s : State), ∃ c : Chip, exec .seqSvcWake s = .next (s.after c) ∧ s.chip.Only ([Part.pwr] ++ eventParts) ([F.PWR_STATUS_LAST_RESULT,
        F.SNG_STATUS_TEMP1] ++ eventRegs) c) ∧
    (∀ (s : State), s.chip.pins.porstN = true → s.chip.seq = .sense → s.chip.otp.sensed = true → s.chip.lcs.pending = false → s.chip.get
        F.PWR_STATUS_REF_LOST = 0 → s.chip.get F.PWR_STATUS_RSV_READY = 1 → ∃ c : Chip, exec .seqSvcWake s = .next (s.after c) ∧ c.seq = .svcWaking ∧
        c.pwr.svcTries = 0 ∧ c.pwr.latched = false ∧ c.get F.SNG_STATUS_ARMED = 0) ∧
    (∀ (s : State), s.chip.otp.sensed = false → ∃ c : Chip, exec .seqSvcWake s = .next (s.after c) ∧ c = s.chip)

/-- SVC_PLL_LOCKED (R59). -/
def Says.svcPllLocked : Prop :=
    (∀ (s : State), ∃ c : Chip, exec .svcPllLocked s = .next (s.after c) ∧ s.chip.Only ([Part.tx, Part.pins, Part.pwr] ++ eventParts)
        ([F.GEN_BOOT_LAST_STATUS, F.GEN_BOOT_TIME_US, F.PWR_STATUS_LAST_RESULT, F.PWR_GRP_STATUS_STATE, F.MBN_GEN_COUNT] ++ eventRegs) c) ∧
    (∀ (s : State), s.chip.seq = .svcWaking → ∃ c : Chip, exec .svcPllLocked s = .next (s.after c) ∧ c.svcUp = true ∧ c.get F.PWR_STATUS_SVC_PLL_LOCK
        = 1 ∧ c.get F.GEN_BOOT_WARM = b2n s.chip.pwr.warm ∧ c.pins.norParked = false ∧ c.logs.svcLost = 0 ∧ c.pwr.warm = true)

/-- SVC_PLL_TIMEOUT (R59): the second failure takes the sequencer to HELD with event 0x2302. -/
def Says.svcPllTimeout : Prop :=
    (∀ (s : State), ∃ c : Chip, exec .svcPllTimeout s = .next (s.after c) ∧ s.chip.Keeps [.free, .logs, .ring, .pins, .pwr, .sng, .dbg, .mem, .cores,
        .cfg, .boot, .card, .cust, .whl, .cry, .dma, .spdm, .hanks, .twist, .ply, .late, .upd] c) ∧
    (∀ (s : State), s.chip.seq = .svcWaking → s.chip.pwr.svcTries = 0 → ∃ c : Chip, exec .svcPllTimeout s = .next (s.after c) ∧ c.pwr.svcTries = 1 ∧
        c.seq = .svcWaking ∧ c.logs = s.chip.logs) ∧
    (∀ (s : State), s.chip.seq = .svcWaking → s.chip.pwr.svcTries ≠ 0 → ∃ c : Chip, exec .svcPllTimeout s = .next (s.after c) ∧ c.seq = .held ∧
        c.phase = 0xF0 ∧ c.cust = {} ∧ c.cores = {})

/-- SLEEP_REQ (R63). -/
def Says.sleepReq : Prop :=
    (∀ (s : State) (req : Req), ∃ c : Chip, exec (.sleepReq req) s = .next (s.cutAfter c) ∧ s.chip.Only ([Part.tx, Part.ring, Part.pins, Part.pwr,
        Part.otp, Part.mem, Part.cores, Part.boot, Part.card, Part.cust, Part.whl, Part.cry, Part.spdm, Part.hanks, Part.ply] ++ eventParts)
        ([F.PWR_STATUS_LAST_RESULT, F.PWR_WAKE_CAUSE_COLD, F.OTP_STATUS_LAST_OP, F.OTP_AUDIT_RES_MISMATCH, F.LCS_STATUS_PHASE, F.LCS_ROOTS_SELECTED,
        F.SNG_STATUS_TEMP1, F.BOB_STATUS_LAST_ERR, F.BOB_CPL_TAIL_IDX, F.CRY_DRBG_STATUS_LAST, F.CRY_CHn_STATUS_LAST_ERR, F.CRY_CHn_KEYS_REG,
        F.DGT_ACTIVE_LO_CTX, F.DGT_ACTIVE_HI_CTX, F.TLY_STATUS_LAST, F.TLY_ACCn_RECEIVED_MASK, F.TLY_ACCn_STATUS_RESULT, F.TLY_ACCn_SAT_COUNT,
        F.TLY_ACCn_NAN_COUNT, ctxRegs, dstRegs] ++ eventRegs) c) ∧
    (∀ (s : State) (req : Req), s.chip.opens req R.PWR_CTRL true = true → s.chip.svcUp = true → s.chip.sleepBar.isSome = true → ∃ c : Chip, exec
        (.sleepReq req) s = .next (s.cutAfter c) ∧ c.get F.PWR_STATUS_LAST_RESULT = Status.busy.code ∧ c.seq = s.chip.seq ∧ c.cust = s.chip.cust ∧
        c.whl = s.chip.whl) ∧
    (∀ (s : State) (req : Req), s.chip.opens req R.PWR_CTRL true = true → s.chip.svcUp = true → s.chip.sleepBar = none → ∃ c : Chip, exec (.sleepReq
        req) s = .next (s.cutAfter c) ∧ c.seq = .sleepEntry ∧ c.pins.norParked = true)

/-- SLEEP_ENTRY_DONE (R59): the Service rail is off; a source latched meanwhile wakes the instance in the next AON cycle. -/
def Says.sleepEntryDone : Prop :=
    (∀ (s : State), ∃ c : Chip, exec .sleepEntryDone s = .next (s.after c) ∧ s.chip.Keeps [.free, .tx, .logs, .ring, .pins, .pwr, .sng, .dbg, .mem,
        .cores, .cfg, .boot, .card, .cust, .whl, .cry, .dma, .spdm, .hanks, .twist, .ply, .late, .upd] c) ∧
    (∀ (s : State), s.chip.seq = .sleepEntry → s.chip.pwr.latched = false → ∃ c : Chip, exec .sleepEntryDone s = .next (s.after c) ∧ c.seq = .sleep ∧
        c.cust = {} ∧ c.cores = {} ∧ c.hanks = {} ∧ c.get F.PWR_STATUS_SVC_PLL_LOCK = 0)

/-- PWR_SHUTDOWN (R59). -/
def Says.pwrShutdown : Prop :=
    ∀ (s : State) (req : Req), s.chip.opens req R.PWR_CTRL true = true → s.chip.seq ≠ .held → s.chip.seq ≠ .shutdown → ∃ c : Chip, exec (.pwrShutdown
        req) s = .next (s.cutAfter c) ∧ c.seq = .shutdown ∧ c.cust = {} ∧ c.cores = {} ∧ c.get F.PWR_STATUS_SVC_PLL_LOCK = 0

/-- WAKE_FABRIC_ACCESS (R65, R151): an external access to the MBN page before the Service domain is up gets the error response and event 0x0303, and
wakes. -/
def Says.wakeFabricAccess : Prop :=
    (∀ (s : State) (req : Req) (off : Nat) (write : Bool), ∃ c : Chip, exec (.wakeFabricAccess req off write) s = .next (s.after c) ∧ s.chip.Only
        ([Part.tx, Part.pwr] ++ eventParts) ([F.PWR_STATUS_LAST_RESULT, F.PWR_WAKE_CAUSE_COLD, F.SNG_STATUS_TEMP1] ++ eventRegs) c) ∧
    (∀ (s : State) (req : Req) (off : Nat) (write : Bool), s.chip.seq ≠ .sleep → s.chip.seq ≠ .sleepEntry → ∃ c : Chip, exec (.wakeFabricAccess req
        off write) s = .next (s.after c) ∧ c = s.chip) ∧
    (∀ (s : State) (req : Req) (off : Nat) (write : Bool), s.chip.seq = .sleepEntry → bit (s.chip.get F.PWR_WAKE_EN_SRC) 0 = true → ∃ c : Chip, exec
        (.wakeFabricAccess req off write) s = .next (s.after c) ∧ c.pwr.latched = true ∧ bit (c.get F.PWR_WAKE_CAUSE_SRC) 0 = true ∧ c.seq =
        .sleepEntry)

/-- WAKE_TIMER (R65): Whorl time has reached the pair written to `PWR_WAKE_TIME`. -/
def Says.wakeTimer : Prop :=
    (∀ (s : State), ∃ c : Chip, exec .wakeTimer s = .next (s.after c) ∧ s.chip.Only ([Part.tx, Part.pwr] ++ eventParts) ([F.PWR_STATUS_LAST_RESULT,
        F.PWR_WAKE_CAUSE_COLD, F.SNG_STATUS_TEMP1] ++ eventRegs) c) ∧
    (∀ (s : State), s.chip.pwr.wakeAt = none → ∃ c : Chip, exec .wakeTimer s = .next (s.after c) ∧ c = s.chip) ∧
    (∀ (s : State), s.chip.pwr.wakeAt = some 0 → s.chip.seq = .sleepEntry → bit (s.chip.get F.PWR_WAKE_EN_SRC) 1 = true → ∃ c : Chip, exec .wakeTimer
        s = .next (s.after c) ∧ c.pwr.latched = true ∧ bit (c.get F.PWR_WAKE_CAUSE_SRC) 1 = true)

/-- WAKE_PLY_BEACON (R65). -/
def Says.wakePlyBeacon : Prop :=
    (∀ (s : State), ∃ c : Chip, exec .wakePlyBeacon s = .next (s.after c) ∧ s.chip.Only ([Part.tx, Part.pwr] ++ eventParts)
        ([F.PWR_STATUS_LAST_RESULT, F.PWR_WAKE_CAUSE_COLD, F.SNG_STATUS_TEMP1] ++ eventRegs) c) ∧
    (∀ (s : State), bit (s.chip.get F.PWR_WAKE_EN_SRC) 2 = false → ∃ c : Chip, exec .wakePlyBeacon s = .next (s.after c) ∧ c = s.chip) ∧
    (∀ (s : State), s.chip.seq = .sleepEntry → bit (s.chip.get F.PWR_WAKE_EN_SRC) 2 = true → ∃ c : Chip, exec .wakePlyBeacon s = .next (s.after c) ∧
        c.pwr.latched = true ∧ bit (c.get F.PWR_WAKE_CAUSE_SRC) 2 = true)

/-- WAKE_SVC_PORT (R65). -/
def Says.wakeSvcPort : Prop :=
    (∀ (s : State), ∃ c : Chip, exec .wakeSvcPort s = .next (s.after c) ∧ s.chip.Only ([Part.tx, Part.pwr] ++ eventParts) ([F.PWR_STATUS_LAST_RESULT,
        F.PWR_WAKE_CAUSE_COLD, F.SNG_STATUS_TEMP1] ++ eventRegs) c) ∧
    (∀ (s : State), s.chip.seq = .sleep → bit (s.chip.get F.PWR_WAKE_EN_SRC) 3 = true → s.chip.get F.PWR_STATUS_REF_LOST = 0 → ∃ c : Chip, exec
        .wakeSvcPort s = .next (s.after c) ∧ c.seq = .svcWaking ∧ bit (c.get F.PWR_WAKE_CAUSE_SRC) 3 = true ∧ c.pwr.latched = false)

/-- SNAG_DECISION (R446): the conditions of one AON cycle; one that persists is decided once. A rail back in the fuse window lets an incomplete
quench go on (R87). -/
def Says.snagDecision : Prop :=
    (∀ (s : State) (causes : List PadCause), s.chip.pins.porstN = false → ∃ (fu : Fuses) (c : Chip), exec (.snagDecision causes) s = .next
        { s with fuses := fu, chip := c } ∧ s.fuses.le fu ∧ c = s.chip) ∧
    (∀ (s : State) (causes : List PadCause), s.chip.pins.porstN = true → causes = [] → ∃ (fu : Fuses) (c : Chip), exec (.snagDecision causes) s =
        .next { s with fuses := fu, chip := c } ∧ s.fuses.le fu ∧ c.sng.persist = [] ∧ c.get F.SNG_CAUSE_BITS = s.chip.get F.SNG_CAUSE_BITS ∧ c.seq =
        s.chip.seq) ∧
    (∀ (s : State) (causes : List PadCause), s.chip.pins.porstN = true → causes = [.lid] → s.chip.sng.persist = [] → s.chip.seq = .service → ∃ (fu :
        Fuses) (c : Chip), exec (.snagDecision causes) s = .next { s with fuses := fu, chip := c } ∧ s.fuses.le fu ∧ c.seq = .held ∧ bit (c.get
        F.SNG_CAUSE_BITS) 1 = true ∧ c.phase = 0xF0 ∧ c.cust = {})

/-- ZEROIZE_OUT_PULSE_END (R450): 16 µs after a Class B decision the line goes high. -/
def Says.zeroizeOutPulseEnd : Prop :=
    (∀ (s : State), ∃ c : Chip, exec .zeroizeOutPulseEnd s = .next (s.after c) ∧ s.chip.Only [.pins, .dbg] [F.SNG_STATUS_TEMP1] c) ∧
    (∀ (s : State), s.chip.pins.zeroizeOut = ZOut.pulse → ∃ c : Chip, exec .zeroizeOutPulseEnd s = .next (s.after c) ∧ c.pins.zeroizeOut = ZOut.high
        ∧ c.get F.SNG_STATUS_OUT_LOW = 0) ∧
    (∀ (s : State), s.chip.pins.zeroizeOut = ZOut.low → ∃ c : Chip, exec .zeroizeOutPulseEnd s = .next (s.after c) ∧ c = s.chip)

/-- RECORD_WRITER (R458): the record of the decision that led to HELD goes to the tamper log. -/
def Says.recordWriter : Prop :=
    (∀ (s : State) (vinFell verified : Bool), ∃ c : Chip, exec (.recordWriter vinFell verified) s = .next (s.after c) ∧ s.chip.Only ([Part.free,
        Part.sng, Part.mem] ++ eventParts) ([F.SNG_LOG_RESULT] ++ eventRegs) c) ∧
    (∀ (s : State) (vinFell verified : Bool), s.chip.sng.writer = none → ∃ c : Chip, exec (.recordWriter vinFell verified) s = .next (s.after c) ∧ c
        = s.chip) ∧
    (∀ (s : State) (vinFell verified : Bool), s.chip.sng.writer.isSome = true → s.chip.get F.SNG_CTRL_LOG_EN = 0 → ∃ c : Chip, exec (.recordWriter
        vinFell verified) s = .next (s.after c) ∧ c.sng.writer = none ∧ c.mem = s.chip.mem ∧ c.get F.SNG_LOG_NEXT = s.chip.get F.SNG_LOG_NEXT) ∧
    (∀ (s : State) (vinFell verified : Bool), s.chip.sng.writer.isSome = true → s.chip.get F.SNG_CTRL_LOG_EN = 1 → s.chip.get F.PWR_STATUS_VIN_OK = 1
        → vinFell = false → verified = true → norBlank s.chip.mem.nor (tamperAddr (s.chip.get F.SNG_LOG_NEXT)) 32 = true → ∃ c : Chip, exec
        (.recordWriter vinFell verified) s = .next (s.after c) ∧ c.sng.writer = none ∧ c.get F.SNG_LOG_RESULT = 0 ∧ c.get F.SNG_LOG_NEXT =
        (s.chip.get F.SNG_LOG_NEXT + 1) % 2048 ∧ s.chip.sng.writer.all (fun r => decide (c.mem = (s.chip.norWr (tamperAddr (s.chip.get
        F.SNG_LOG_NEXT)) r.bytes).mem)) = true)

/-- TEMP_CONVERSION (R445, R455): each sensor converts a reading. -/
def Says.tempConversion : Prop :=
    ∀ (s : State) (t0 t1 : Int), s.chip.pins.porstN = true → s.chip.sng = {} → t0 = 100 → t1 = 96 → ∃ c : Chip, exec (.tempConversion t0 t1) s =
        .next (s.cutAfter c) ∧ c.get F.SNG_TEMP_TEMP0 = 100 ∧ c.get F.SNG_TEMP_TEMP1 = 96 ∧ c.seq = s.chip.seq

/-- SENSOR_CALIBRATION (R454): a periodic calibration. -/
def Says.sensorCalibration : Prop :=
    (∀ (s : State) (result : CalResult), s.chip.pins.porstN = true → result = .lid → ∃ c : Chip, exec (.sensorCalibration result) s = .next
        (s.cutAfter c) ∧ c = s.chip) ∧
    (∀ (s : State) (result : CalResult), s.chip.pins.porstN = true → result = .temp false true 40 → ∃ c : Chip, exec (.sensorCalibration result) s =
        .next (s.cutAfter c) ∧ c.sng.offset0 = s.chip.sng.offset0 + 4 ∧ c.sng.offset1 = s.chip.sng.offset1)

/-- FORCE_CAL (R454): writing `SNG_CTRL.FORCE_CAL` runs every calibration at once. -/
def Says.forceCal : Prop :=
    (∀ (s : State) (req : Req) (results : List CalResult), s.chip.pins.porstN = true → s.chip.opens req R.SNG_CTRL true = true → results = [.lid] → ∃
        c : Chip, exec (.forceCal req results) s = .next (s.cutAfter c) ∧ c = s.chip.wrote req) ∧
    (∀ (s : State) (req : Req) (results : List CalResult), s.chip.pins.porstN = true → s.chip.opens req R.SNG_CTRL true = true → results = [.temp
        false true 40] → ∃ c : Chip, exec (.forceCal req results) s = .next (s.cutAfter c) ∧ c.sng.offset0 = s.chip.sng.offset0 + 4 ∧ c.sng.offset1 =
        s.chip.sng.offset1)

/-- QUENCH_EN (R448). -/
def Says.quenchEn : Prop :=
    (∀ (s : State) (req : Req) (value : Bool), ∃ c : Chip, exec (.quenchEn req value) s = .next (s.after c) ∧ s.chip.Only ([Part.tx, Part.pwr,
        Part.mem] ++ eventParts) ([F.PWR_STATUS_LAST_RESULT, F.PWR_WAKE_CAUSE_COLD, F.SNG_CTRL_BASE_LOCK, F.SNG_STATUS_TEMP1, F.SNG_LOG_RESULT] ++
        eventRegs) c) ∧
    (∀ (s : State) (req : Req) (value : Bool), s.chip.pins.porstN = true → s.chip.opens req R.SNG_CTRL true = true → s.chip.lcState ≤ 1 → value =
        true → ∃ c : Chip, exec (.quenchEn req value) s = .next (s.after c) ∧ c.get F.SNG_CTRL_QUENCH_EN = 1) ∧
    (∀ (s : State) (req : Req) (value : Bool), s.chip.pins.porstN = true → s.chip.opens req R.SNG_CTRL true = true → 1 < s.chip.lcState → ∃ c : Chip,
        exec (.quenchEn req value) s = .next (s.after c) ∧ c.get F.SNG_CTRL_QUENCH_EN = s.chip.get F.SNG_CTRL_QUENCH_EN)

/-- OTP_READ (R80). -/
def Says.otpRead : Prop :=
    (∀ (s : State) (req : Req) (key : BitVec 16), ∃ c : Chip, exec (.otpRead req key) s = .next (s.after c) ∧ s.chip.Only ([Part.free, Part.tx,
        Part.pwr, Part.otp, Part.cry] ++ eventParts) ([F.PWR_STATUS_LAST_RESULT, F.PWR_WAKE_CAUSE_COLD, F.OTP_STATUS_LAST_OP, F.OTP_RDATA_DATA,
        F.OTP_RFLAGS_CHECK, F.SNG_STATUS_TEMP1, F.CRY_DRBG_STATUS_LAST] ++ eventRegs) c) ∧
    (∀ (s : State) (req : Req) (key : BitVec 16), s.chip.opens req R.OTP_CMD true = true → key ≠ 0x0F75#16 → ∃ c : Chip, exec (.otpRead req key) s =
        .next (s.after c) ∧ c.get F.OTP_STATUS_RESULT = Status.denied.code ∧ c.otp = s.chip.otp) ∧
    (∀ (s : State) (req : Req) (key : BitVec 16), s.chip.opens req R.OTP_CMD true = true → key = 0x0F75#16 → s.chip.otp.busy = false → s.chip.get
        F.OTP_ADDR_WORD / 512 = 2 → ∃ c : Chip, exec (.otpRead req key) s = .next (s.after c) ∧ c.rd R.OTP_RDATA = 0#32 ∧ c.rd R.OTP_RFLAGS = 0#32 ∧
        c.get F.OTP_STATUS_RESULT = Status.denied.code ∧ c.get F.OTP_STATUS_LAST_OP = 1 ∧ c.get F.OTP_STATUS_DONE = 1) ∧
    (∀ (s : State) (req : Req) (key : BitVec 16), s.chip.opens req R.OTP_CMD true = true → key = 0x0F75#16 → s.chip.otp.busy = false → s.chip.get
        F.OTP_ADDR_WORD / 512 ≠ 2 → s.chip.otp.rlock (s.chip.get F.OTP_ADDR_WORD / 512) = false → ∃ c : Chip, exec (.otpRead req key) s = .next
        (s.after c) ∧ c.rd R.OTP_RDATA = BitVec.ofNat 32 (s.chip.otp.val (s.chip.get F.OTP_ADDR_WORD)) ∧ c.get F.OTP_STATUS_RESULT = Status.ok.code ∧
        c.get F.OTP_STATUS_DONE = 1)

/-- PROG_WORD (R81). -/
def Says.progWord : Prop :=
    (∀ (s : State) (req : Req) (key : BitVec 16), ∃ c : Chip, exec (.progWord req key) s = .next (s.after c) ∧ s.chip.Only ([Part.free, Part.tx,
        Part.pwr, Part.otp, Part.cry] ++ eventParts) ([F.PWR_STATUS_LAST_RESULT, F.PWR_WAKE_CAUSE_COLD, F.OTP_STATUS_LAST_OP, F.OTP_RDATA_DATA,
        F.OTP_RFLAGS_CHECK, F.SNG_STATUS_TEMP1, F.CRY_DRBG_STATUS_LAST] ++ eventRegs) c) ∧
    (∀ (s : State) (req : Req) (key : BitVec 16), s.chip.opens req R.OTP_CMD true = true → key = 0x0F75#16 → s.chip.lcState = 1 → s.chip.get
        F.OTP_ADDR_WORD / 512 = 7 → s.chip.otp.wlock 7 = false → s.chip.otp.busy = false → s.chip.get F.PWR_STATUS_VIN_FUSE_OK = 1 → s.fuses.fits
        (s.chip.get F.OTP_ADDR_WORD) (eccWord (s.chip.get F.OTP_WDATA_DATA)) = true → ∃ c : Chip, exec (.progWord req key) s = .next (s.after c) ∧
        c.otp.job.isSome = true ∧ c.get F.OTP_STATUS_BUSY = 1 ∧ c.get F.OTP_STATUS_RESULT = Status.pending.code ∧ c.get F.OTP_STATUS_LAST_OP = 2 ∧
        c.get F.OTP_STATUS_PARTIAL = 0) ∧
    (∀ (s : State) (req : Req) (key : BitVec 16), s.chip.opens req R.OTP_CMD true = true → key = 0x0F75#16 → s.chip.lcState = 0 → ∃ c : Chip, exec
        (.progWord req key) s = .next (s.after c) ∧ c.get F.OTP_STATUS_RESULT = Status.denied.code ∧ c.otp = s.chip.otp)

/-- PROG_DIGEST (R83). -/
def Says.progDigest : Prop :=
    (∀ (s : State) (req : Req) (key : BitVec 16) (arg : BitVec 8), ∃ c : Chip, exec (.progDigest req key arg) s = .next (s.after c) ∧ s.chip.Only
        ([Part.free, Part.tx, Part.pwr, Part.otp, Part.cry] ++ eventParts) ([F.PWR_STATUS_LAST_RESULT, F.PWR_WAKE_CAUSE_COLD, F.OTP_STATUS_LAST_OP,
        F.OTP_RDATA_DATA, F.OTP_RFLAGS_CHECK, F.SNG_STATUS_TEMP1, F.CRY_DRBG_STATUS_LAST] ++ eventRegs) c) ∧
    (∀ (s : State) (req : Req) (key : BitVec 16) (arg : BitVec 8), s.chip.opens req R.OTP_CMD true = true → key = 0x0F75#16 → s.chip.lcState = 4 → 8
        ≤ arg.toNat → ∃ c : Chip, exec (.progDigest req key arg) s = .next (s.after c) ∧ c.get F.OTP_STATUS_RESULT = Status.badArg.code ∧ c.otp =
        s.chip.otp) ∧
    (∀ (s : State) (req : Req) (key : BitVec 16) (arg : BitVec 8), s.chip.opens req R.OTP_CMD true = true → key = 0x0F75#16 → arg.toNat < 8 →
        progAllowed s.chip.lcState arg.toNat = true → s.chip.otp.wlock arg.toNat = false → s.fuses.cells.all (fun e => e.1 / 512 != arg.toNat) = true
        → s.chip.otp.busy = false → s.chip.get F.PWR_STATUS_VIN_FUSE_OK = 1 → ∃ c : Chip, exec (.progDigest req key arg) s = .next (s.after c) ∧
        c.otp.job = some { kind := .progDigest, arg := arg.toNat, cells := digestCells s.fuses arg.toNat (s.chip.otp.digest arg.toNat), last := .ok }
        ∧ c.get F.OTP_STATUS_BUSY = 1 ∧ c.get F.OTP_STATUS_RESULT = Status.pending.code ∧ c.get F.OTP_STATUS_LAST_OP = 3)

/-- LOCK_WRITE (R83): `drift` lists the words that its own sensing reads otherwise than they were blown. -/
def Says.lockWrite : Prop :=
    (∀ (s : State) (req : Req) (key : BitVec 16) (arg : BitVec 8) (drift : List (Nat × Cells)), ∃ c : Chip, exec (.lockWrite req key arg drift) s =
        .next (s.after c) ∧ s.chip.Only ([Part.free, Part.tx, Part.pwr, Part.otp, Part.cry] ++ eventParts) ([F.PWR_STATUS_LAST_RESULT,
        F.PWR_WAKE_CAUSE_COLD, F.OTP_STATUS_LAST_OP, F.OTP_RDATA_DATA, F.OTP_RFLAGS_CHECK, F.SNG_STATUS_TEMP1, F.CRY_DRBG_STATUS_LAST] ++ eventRegs)
        c) ∧
    (∀ (s : State) (req : Req) (key : BitVec 16) (arg : BitVec 8) (drift : List (Nat × Cells)), s.chip.opens req R.OTP_CMD true = true → key =
        0x0F75#16 → s.chip.lcState = 1 → arg = 2#8 → s.chip.otp.wlock 2 = false → ∃ c : Chip, exec (.lockWrite req key arg drift) s = .next (s.after
        c) ∧ c.get F.OTP_STATUS_RESULT = Status.badArg.code ∧ c.otp = s.chip.otp) ∧
    (∀ (s : State) (req : Req) (key : BitVec 16) (arg : BitVec 8) (drift : List (Nat × Cells)), s.chip.opens req R.OTP_CMD true = true → key =
        0x0F75#16 → [0, 3, 5, 6, 7].contains arg.toNat = true → progAllowed s.chip.lcState arg.toNat = true → s.chip.otp.wlock arg.toNat = false →
        s.chip.otp.busy = false → s.chip.get F.PWR_STATUS_VIN_FUSE_OK = 1 → ∃ c : Chip, exec (.lockWrite req key arg drift) s = .next (s.after c) ∧
        (if lockChecks s.chip.otp (s.fuses.seen drift) arg.toNat = true then c.otp.job = some
        { kind := .lockWrite, arg := arg.toNat, cells := (s.fuses.seen drift).lockCells arg.toNat, last := .ok } ∧ c.get F.OTP_STATUS_BUSY = 1 ∧
        c.get F.OTP_STATUS_RESULT = Status.pending.code ∧ c.get F.OTP_STATUS_LAST_OP = 4 else c.get F.OTP_STATUS_RESULT = Status.integrity.code ∧
        c.otp = s.chip.otp))

/-- LOCK_READ (R84). -/
def Says.lockRead : Prop :=
    (∀ (s : State) (req : Req) (key : BitVec 16) (arg : BitVec 8), ∃ c : Chip, exec (.lockRead req key arg) s = .next (s.after c) ∧ s.chip.Only
        ([Part.free, Part.tx, Part.pwr, Part.otp, Part.cry] ++ eventParts) ([F.PWR_STATUS_LAST_RESULT, F.PWR_WAKE_CAUSE_COLD, F.OTP_STATUS_LAST_OP,
        F.OTP_RDATA_DATA, F.OTP_RFLAGS_CHECK, F.SNG_STATUS_TEMP1, F.CRY_DRBG_STATUS_LAST] ++ eventRegs) c) ∧
    (∀ (s : State) (req : Req) (key : BitVec 16) (arg : BitVec 8), s.chip.opens req R.OTP_CMD true = true → key = 0x0F75#16 → s.chip.lcState = 1 →
        arg = 5#8 → s.chip.otp.busy = false → s.chip.get F.PWR_STATUS_VIN_FUSE_OK = 1 → ∃ c : Chip, exec (.lockRead req key arg) s = .next (s.after
        c) ∧ c.otp.job = some ⟨.lockRead, 5, s.fuses.lockCells 13, .ok⟩ ∧ c.get F.OTP_STATUS_BUSY = 1 ∧ c.get F.OTP_STATUS_RESULT =
        Status.pending.code)

/-- LOCK_WRITE_RAW (R84). -/
def Says.lockWriteRaw : Prop :=
    (∀ (s : State) (req : Req) (key : BitVec 16) (arg : BitVec 8), ∃ c : Chip, exec (.lockWriteRaw req key arg) s = .next (s.after c) ∧ s.chip.Only
        ([Part.free, Part.tx, Part.pwr, Part.otp, Part.cry] ++ eventParts) ([F.PWR_STATUS_LAST_RESULT, F.PWR_WAKE_CAUSE_COLD, F.OTP_STATUS_LAST_OP,
        F.OTP_RDATA_DATA, F.OTP_RFLAGS_CHECK, F.SNG_STATUS_TEMP1, F.CRY_DRBG_STATUS_LAST] ++ eventRegs) c) ∧
    (∀ (s : State) (req : Req) (key : BitVec 16) (arg : BitVec 8), s.chip.opens req R.OTP_CMD true = true → key = 0x0F75#16 → s.chip.lcState ≠ 1 → ∃
        c : Chip, exec (.lockWriteRaw req key arg) s = .next (s.after c) ∧ c.get F.OTP_STATUS_RESULT = Status.denied.code ∧ c.otp = s.chip.otp) ∧
    (∀ (s : State) (req : Req) (key : BitVec 16) (arg : BitVec 8), s.chip.opens req R.OTP_CMD true = true → key = 0x0F75#16 → s.chip.lcState = 1 →
        arg = 7#8 → s.chip.otp.lockBit 17 = false → s.chip.otp.wlock 7 = false → s.chip.otp.busy = false → s.chip.get F.PWR_STATUS_VIN_FUSE_OK = 1 →
        ∃ c : Chip, exec (.lockWriteRaw req key arg) s = .next (s.after c) ∧ c.otp.job = some ⟨.lockWriteRaw, 7, s.fuses.lockCells 7, .ok⟩ ∧ c.get
        F.OTP_STATUS_BUSY = 1)

/-- GEN_ROOTS (R85). -/
def Says.genRoots : Prop :=
    (∀ (s : State) (req : Req) (key : BitVec 16), ∃ c : Chip, exec (.genRoots req key) s = .next (s.after c) ∧ s.chip.Only ([Part.free, Part.tx,
        Part.pwr, Part.otp, Part.cry] ++ eventParts) ([F.PWR_STATUS_LAST_RESULT, F.PWR_WAKE_CAUSE_COLD, F.OTP_STATUS_LAST_OP, F.OTP_RDATA_DATA,
        F.OTP_RFLAGS_CHECK, F.SNG_STATUS_TEMP1, F.CRY_DRBG_STATUS_LAST] ++ eventRegs) c) ∧
    (∀ (s : State) (req : Req) (key : BitVec 16), s.chip.opens req R.OTP_CMD true = true → key = 0x0F75#16 → s.chip.lcState = 1 → s.fuses.rootsBlank
        = false → ∃ c : Chip, exec (.genRoots req key) s = .next (s.after c) ∧ c.get F.OTP_STATUS_RESULT = Status.denied.code ∧ c.otp = s.chip.otp) ∧
    (∀ (s : State) (req : Req) (key : BitVec 16), s.chip.opens req R.OTP_CMD true = true → key = 0x0F75#16 → s.chip.lcState = 1 → s.fuses.rootsBlank
        = true → s.chip.otp.busy = false → s.chip.get F.PWR_STATUS_VIN_FUSE_OK = 1 → s.chip.get F.CRY_DRBG_STATUS_ERROR = 0 → s.chip.entNone = false
        → ∃ c : Chip, exec (.genRoots req key) s = .next (s.after c) ∧ c.otp.job.map (fun j => (j.kind, j.arg)) = some (.genRoots, 2) ∧ c.get
        F.OTP_STATUS_BUSY = 1 ∧ c.get F.OTP_STATUS_RESULT = Status.pending.code ∧ c.get F.OTP_STATUS_LAST_OP = 7)

/-- ARB_ADVANCE (R97). -/
def Says.arbAdvance : Prop :=
    (∀ (s : State) (req : Req) (key : BitVec 16) (arg : BitVec 8), ∃ c : Chip, exec (.arbAdvance req key arg) s = .next (s.after c) ∧ s.chip.Only
        ([Part.free, Part.tx, Part.pwr, Part.otp, Part.cry] ++ eventParts) ([F.PWR_STATUS_LAST_RESULT, F.PWR_WAKE_CAUSE_COLD, F.OTP_STATUS_LAST_OP,
        F.OTP_RDATA_DATA, F.OTP_RFLAGS_CHECK, F.SNG_STATUS_TEMP1, F.CRY_DRBG_STATUS_LAST] ++ eventRegs) c) ∧
    (∀ (s : State) (req : Req) (key : BitVec 16) (arg : BitVec 8), s.chip.opens req R.OTP_CMD true = true → key = 0x0F75#16 → s.chip.lcState = 4 → 4
        ≤ arg.toNat → ∃ c : Chip, exec (.arbAdvance req key arg) s = .next (s.after c) ∧ c.get F.OTP_STATUS_RESULT = Status.badArg.code ∧ c.otp =
        s.chip.otp) ∧
    (∀ (s : State) (req : Req) (key : BitVec 16) (arg : BitVec 8), s.chip.opens req R.OTP_CMD true = true → key = 0x0F75#16 → s.chip.lcState = 4 →
        arg.toNat < 4 → s.chip.otp.busy = false → s.chip.get F.PWR_STATUS_VIN_FUSE_OK = 1 → ∃ c : Chip, exec (.arbAdvance req key arg) s = .next
        (s.after c) ∧ c.otp.job.isSome = true ∧ c.get F.OTP_STATUS_BUSY = 1 ∧ c.get F.OTP_STATUS_LAST_OP = 8)

/-- OTP_PROGRAM_DONE (R81, R83 to R85, R97): `bad` is the place of a cell that will not blow in three pulses. -/
def Says.otpProgramDone : Prop :=
    (∀ (s : State) (bad : Option Nat), ∃ (fu : Fuses) (c : Chip), exec (.otpProgramDone bad) s = .next { s with fuses := fu, chip := c } ∧ s.fuses.le
        fu ∧ s.chip.Only ([Part.otp, Part.upd] ++ eventParts) ([F.OTP_STATUS_LAST_OP, F.OTP_WDATA_DATA, F.OTP_REGION_REG0, F.OTP_ARBn_SATURATED,
        F.LCS_STATE_RESUMED, F.LCS_ROOTS_SELECTED] ++ eventRegs) c) ∧
    (∀ (s : State) (bad : Option Nat), s.chip.otp.job = none → ∃ (fu : Fuses) (c : Chip), exec (.otpProgramDone bad) s = .next
        { s with fuses := fu, chip := c } ∧ s.fuses.le fu ∧ c = s.chip ∧ fu = s.fuses) ∧
    (∀ (s : State) (bad : Option Nat), s.chip.otp.job = some ⟨.lockRead, 5, [(4096, 13)], .ok⟩ → s.chip.upd.confirm = none → bad = none → ∃ (fu :
        Fuses) (c : Chip), exec (.otpProgramDone bad) s = .next { s with fuses := fu, chip := c } ∧ s.fuses.le fu ∧ fu = s.fuses.blow (4096, 13) ∧
        c.otp.job = none ∧ c.get F.OTP_STATUS_BUSY = 0 ∧ c.get F.OTP_STATUS_RESULT = Status.ok.code ∧ c.get F.OTP_STATUS_DONE = 1)

/-- OTP_AUDIT_START (R79). -/
def Says.otpAuditStart : Prop :=
    (∀ (s : State) (req : Req) (value : Word), ∃ c : Chip, exec (.otpAuditStart req value) s = .next (s.after c) ∧ s.chip.Only ([Part.tx, Part.pwr,
        Part.otp] ++ eventParts) ([F.PWR_STATUS_LAST_RESULT, F.PWR_WAKE_CAUSE_COLD, F.OTP_STATUS_LAST_OP, F.OTP_AUDIT_START,
        F.OTP_AUDIT_RES_MISMATCH, F.SNG_STATUS_TEMP1] ++ eventRegs) c) ∧
    (∀ (s : State) (req : Req) (value : Word), s.chip.opens req R.OTP_AUDIT true = true → wget 16 16 value = 1 → s.chip.otp.busy = true → ∃ c : Chip,
        exec (.otpAuditStart req value) s = .next (s.after c) ∧ c.get F.OTP_AUDIT_RES_STATUS = Status.busy.code ∧ c.otp = s.chip.otp) ∧
    (∀ (s : State) (req : Req) (value : Word), s.chip.opens req R.OTP_AUDIT true = true → wget 16 16 value = 1 → s.chip.otp.busy = false → ∃ c :
        Chip, exec (.otpAuditStart req value) s = .next (s.after c) ∧ c.otp.audit = some (wget 8 0 value) ∧ c.get F.OTP_AUDIT_RES_RUNNING = 1 ∧ c.get
        F.OTP_STATUS_BUSY = 1 ∧ c.get F.OTP_AUDIT_RES_MISMATCH = 0)

/-- OTP_AUDIT_DONE (R79): `drift` lists the words that this sensing reads otherwise than they were blown. -/
def Says.otpAuditDone : Prop :=
    (∀ (s : State) (drift : List (Nat × Cells)), ∃ c : Chip, exec (.otpAuditDone drift) s = .next (s.after c) ∧ s.chip.Only ([Part.otp] ++
        eventParts) ([F.OTP_STATUS_LAST_OP, F.OTP_AUDIT_RES_MISMATCH] ++ eventRegs) c) ∧
    (∀ (s : State) (drift : List (Nat × Cells)), s.chip.otp.audit = none → ∃ c : Chip, exec (.otpAuditDone drift) s = .next (s.after c) ∧ c = s.chip)
        ∧
    (∀ (s : State) (drift : List (Nat × Cells)), s.chip.otp.audit.isSome = true → ∃ c : Chip, exec (.otpAuditDone drift) s = .next (s.after c) ∧
        c.otp.audit = none ∧ c.get F.OTP_AUDIT_RES_RUNNING = 0 ∧ c.get F.OTP_AUDIT_RES_STATUS = Status.ok.code ∧ c.get F.OTP_STATUS_BUSY = 0)

/-- QUENCH_DONE (R86, R450): the cells at the places of `bad` (bit 0 L0 to bit 2 L2) will not blow, each with event 0x2401 and its word `PARTIAL`.
The quench shadows are sensed again; once quench resolves blown, the line is held low and no root is selected; else a transition to SCRAP stops. -/
def Says.quenchDone : Prop :=
    (∀ (s : State) (bad : Nat), ∃ (fu : Fuses) (c : Chip), exec (.quenchDone bad) s = .next { s with fuses := fu, chip := c } ∧ s.fuses.le fu ∧
        s.chip.Only ([Part.pins, Part.otp, Part.lcs] ++ eventParts) ([F.OTP_STATUS_LAST_OP, F.OTP_REGION_REG0, F.OTP_ARBn_SATURATED,
        F.LCS_STATE_RESUMED, F.LCS_STATUS_PHASE, F.LCS_ROOTS_SELECTED, F.SNG_STATUS_TEMP1] ++ eventRegs) c) ∧
    (∀ (s : State) (bad : Nat), s.chip.otp.quenching = false → ∃ (fu : Fuses) (c : Chip), exec (.quenchDone bad) s = .next
        { s with fuses := fu, chip := c } ∧ s.fuses.le fu ∧ c = s.chip ∧ fu = s.fuses) ∧
    (∀ (s : State) (bad : Nat), s.chip.otp.quenching = true → bad = 0 → ∃ (fu : Fuses) (c : Chip), exec (.quenchDone bad) s = .next
        { s with fuses := fu, chip := c } ∧ s.fuses.le fu ∧ fu = s.fuses.blowAll quenchCells ∧ c.get F.SNG_STATUS_QUENCH_REQ = 0 ∧ c.otp.quenching =
        false)

/-- FUSE_SENSING_DONE (R70 to R76, R87, R93, R450): `drift` lists words that sense otherwise than they were blown. -/
def Says.fuseSensingDone : Prop :=
    (∀ (s : State) (drift : List (Nat × Cells)) (time : Nat), (s.chip.pins.porstN = false ∨ s.chip.otp.sensed = true) → ∃ c : Chip, exec
        (.fuseSensingDone drift time) s = .next (s.after c) ∧ c = s.chip) ∧
    (∀ (s : State) (drift : List (Nat × Cells)) (time : Nat), s.chip.pins.porstN = true → s.chip.otp.sensed = false → ∃ c : Chip, exec
        (.fuseSensingDone drift time) s = .next (s.after c) ∧ c.otp.sensed = true)

/-- LCS_RECORD_RESUME (R95): the pending record is finished in SENSE while `VIN_FUSE_OK` is 1; a transition to SCRAP takes its missing intent copies,
then the quench (ended by QUENCH_DONE), then the rest. A cell that will not blow leaves the record pending. -/
def Says.lcsRecordResume : Prop :=
    (∀ (s : State) (bad : Option Nat), (s.chip.lcs.record = none ∨ s.chip.lcs.pending = false) → ∃ (fu : Fuses) (c : Chip), exec (.lcsRecordResume
        bad) s = .next { s with fuses := fu, chip := c } ∧ s.fuses.le fu ∧ c = s.chip ∧ fu = s.fuses) ∧
    (∀ (s : State) (bad : Option Nat), s.chip.lcs.record.isSome = true → s.chip.lcs.pending = true → s.chip.seq = .sense → s.chip.otp.quenching =
        false → s.chip.get F.PWR_STATUS_VIN_FUSE_OK = 0 → ∃ (fu : Fuses) (c : Chip), exec (.lcsRecordResume bad) s = .next
        { s with fuses := fu, chip := c } ∧ s.fuses.le fu ∧ c.lcs.waited = true ∧ c.lcs.record = s.chip.lcs.record ∧ c.otp = s.chip.otp ∧ fu =
        s.fuses) ∧
    (∀ (s : State) (bad : Option Nat), s.chip.lcs.record.isSome = true → s.chip.lcs.pending = true → s.chip.seq = .sense → s.chip.otp.quenching =
        false → s.chip.lcs.stuck = false → s.chip.get F.PWR_STATUS_VIN_FUSE_OK = 1 → s.chip.lcs.target < 7 → bad = none → ∃ (fu : Fuses) (c : Chip),
        exec (.lcsRecordResume bad) s = .next { s with fuses := fu, chip := c } ∧ s.fuses.le fu ∧ c.lcs.record = none ∧ c.get F.LCS_STATE_RESUMED = 1
        ∧ c.get F.LCS_STATE_CURRENT = s.chip.lcs.target ∧ s.chip.lcs.record.all (fun k => decide (fu = s.fuses.blowAll (recCells s.fuses k
        s.chip.lcs.source s.chip.lcs.target false ++ (actionCells s.fuses s.chip.lcs.source s.chip.lcs.target ++ recCells s.fuses k s.chip.lcs.source
        s.chip.lcs.target true)))) = true)

/-- LCS_GO (R94). -/
def Says.lcsGo : Prop :=
    (∀ (s : State) (req : Req) (value : Word), ∃ c : Chip, exec (.lcsGo req value) s = .next (s.cutAfter c) ∧ s.chip.Only ([Part.tx, Part.pwr,
        Part.otp, Part.lcs, Part.cores] ++ eventParts) ([F.PWR_STATUS_LAST_RESULT, F.PWR_WAKE_CAUSE_COLD, F.OTP_STATUS_LAST_OP,
        F.OTP_AUDIT_RES_MISMATCH, F.LCS_STATE_RESUMED, F.LCS_STATUS_PHASE, F.SNG_STATUS_TEMP1, tokenRegs] ++ eventRegs) c) ∧
    (∀ (s : State) (req : Req) (value : Word), s.chip.opens req R.LCS_CTRL true = true → wget 31 16 value ≠ 0x7C5A → ∃ c : Chip, exec (.lcsGo req
        value) s = .next (s.cutAfter c) ∧ c.lcs = s.chip.lcs ∧ c.otp = s.chip.otp ∧ c.rd R.LCS_STATUS = s.chip.rd R.LCS_STATUS) ∧
    (∀ (s : State) (req : Req) (value : Word), s.chip.opens req R.LCS_CTRL true = true → wget 31 16 value = 0x7C5A → wget 8 8 value = 1 → wget 3 0
        value = 2 → s.chip.lcState = 7 → ∃ c : Chip, exec (.lcsGo req value) s = .next (s.cutAfter c) ∧ c.get F.LCS_STATUS_RESULT =
        Status.denied.code ∧ c.lcs = s.chip.lcs ∧ (∀ n < 8, c.rd (R.LCS_TOKENn n) = 0#32)) ∧
    (∀ (s : State) (req : Req) (value : Word), s.chip.opens req R.LCS_CTRL true = true → wget 31 16 value = 0x7C5A → wget 8 8 value = 1 → wget 3 0
        value < 8 → s.chip.lcsCheck s.chip.lcState (wget 3 0 value) (wget 9 9 value = 1) false = .ok → bit (s.fuses.at (recAddr
        (s.chip.lcs.record.getD s.chip.lcs.used) 0)).tight 0 = false → ∃ c : Chip, exec (.lcsGo req value) s = .next (s.cutAfter c) ∧ c.get
        F.LCS_STATUS_BUSY = 1 ∧ c.get F.LCS_STATUS_RESULT = Status.pending.code ∧ c.get F.LCS_STATUS_PHASE = 2 ∧ c.get F.LCS_STATE_NEXT = wget 3 0
        value ∧ c.lcs.target = wget 3 0 value ∧ c.lcs.record.isSome = true ∧ (c.otp.job.map (·.kind)) = some .lcsIntent ∧ (∀ n < 8, c.rd
        (R.LCS_TOKENn n) = 0#32))

/-- LCS_PHASE_DONE (R94): the intent, action or done writes of a transition complete; `bad` is the place of a cell that will not blow. With the rail
outside the fuse window no pulse was started (R81), and the phase waits for a new `GO`. -/
def Says.lcsPhaseDone : Prop :=
    (∀ (s : State) (bad : Option Nat), ∃ (fu : Fuses) (c : Chip), exec (.lcsPhaseDone bad) s = .next { s with fuses := fu, chip := c } ∧ s.fuses.le
        fu ∧ s.chip.Only ([Part.free, Part.otp, Part.lcs] ++ eventParts) ([F.OTP_STATUS_LAST_OP, F.OTP_REGION_REG0, F.OTP_AUDIT_RES_MISMATCH,
        F.OTP_ARBn_SATURATED, F.LCS_STATE_RESUMED, F.LCS_STATUS_PHASE, F.LCS_ROOTS_SELECTED, F.SNG_STATUS_TEMP1] ++ eventRegs) c) ∧
    (∀ (s : State) (bad : Option Nat), s.chip.otp.job = none → ∃ (fu : Fuses) (c : Chip), exec (.lcsPhaseDone bad) s = .next
        { s with fuses := fu, chip := c } ∧ s.fuses.le fu ∧ c = s.chip ∧ fu = s.fuses) ∧
    (∀ (s : State) (bad : Option Nat), s.chip.otp.job = some ⟨.lcsDone, 0, [(600, 1)], .ok⟩ → bad = none → ∃ (fu : Fuses) (c : Chip), exec
        (.lcsPhaseDone bad) s = .next { s with fuses := fu, chip := c } ∧ s.fuses.le fu ∧ fu = s.fuses.blow (600, 1) ∧ c.get F.LCS_STATUS_DONE = 1 ∧
        c.get F.LCS_STATUS_PHASE = 5 ∧ c.get F.LCS_STATUS_RESULT = Status.ok.code ∧ c.lcs.record = none ∧ c.otp.job = none)

/-- LCS_RESTART (R94): 10 µs after DONE the Service and Crypto domains reset, and the warm start derives the new state; with the Service domain off,
the next start does. -/
def Says.lcsRestart : Prop :=
    (∀ (s : State), s.chip.get F.LCS_STATUS_PHASE ≠ 5 → ∃ c : Chip, exec .lcsRestart s = .next (s.cutAfter c) ∧ c = s.chip) ∧
    (∀ (s : State), s.chip.get F.LCS_STATUS_PHASE = 5 → s.chip.seq = .service → ∃ c : Chip, exec .lcsRestart s = .next (s.cutAfter c) ∧ c.seq =
        .svcWaking ∧ c.cust = {} ∧ c.cores = {})

/-- FETCH_REQ (R78): it came, so the lanes are trained; the responder answers from its shadows once its Service domain is up. -/
def Says.fetchReq : Prop :=
    (∀ (s : State) (region : Nat), ∃ c : Chip, exec (.fetchReq region) s = .next (s.after c) ∧ s.chip.Only ([Part.tx, Part.ply] ++ eventParts)
        ([F.PLY_STATUS_LAST] ++ eventRegs) c) ∧
    (∀ (s : State) (region : Nat), (s.chip.svcUp = false ∨ (region ≠ 3 ∧ region ≠ 5)) → ∃ c : Chip, exec (.fetchReq region) s = .next (s.after c) ∧ c
        = s.chip) ∧
    (∀ (s : State) (region : Nat), s.chip.svcUp = true → region = 3 → s.chip.otp.dead 3 = false → ∃ c : Chip, exec (.fetchReq region) s = .next
        (s.after c) ∧ c = (s.chip.put F.PLY_STATUS_LINK_UP 1).plySend 0x04 (pack [(1, 3), (1, 0), (2, 0)] ++ s.chip.otp.bytes 1536 504))

/-- FETCH_RESP (R77): accepted when the completion digest of its words equals the instance's own, itself sound. -/
def Says.fetchResp : Prop :=
    (∀ (s : State) (region : Nat) (st : Nat) (words : List Byte), ∃ c : Chip, exec (.fetchResp region st words) s = .next (s.cutAfter c) ∧
        s.chip.Keeps [.free, .logs, .ring, .pins, .pwr, .sng, .dbg, .otp, .mem, .cores, .cfg, .boot, .card, .cust, .whl, .cry, .dma, .spdm, .hanks,
        .twist, .ply, .late, .upd] c) ∧
    (∀ (s : State) (region : Nat) (st : Nat) (words : List Byte), s.chip.otp.fetching.contains region = false → ∃ c : Chip, exec (.fetchResp region
        st words) s = .next (s.cutAfter c) ∧ c = s.chip) ∧
    (∀ (s : State) (region : Nat) (st : Nat) (words : List Byte), s.chip.svcUp = true → s.chip.phase = 0x11 → s.chip.otp.fetching = [5] →
        s.chip.otp.failed = [5] → s.chip.otp.atStart = [5] → s.chip.otp.dead 3 = false → region = 5 → st ≠ 0 → ∃ c : Chip, exec (.fetchResp region st
        words) s = .next (s.cutAfter c) ∧ c.phase = 0x12 ∧ c.boot.region5Lost = s.chip.otp.dead 5 ∧ c.otp.fetching = [] ∧ c.otp.failed = [5])

/-- FETCH_RETRY_TIMER (R78): FETCH_REQ again. -/
def Says.fetchRetryTimer : Prop :=
    (∀ (s : State), ∃ c : Chip, exec .fetchRetryTimer s = .next (s.after c) ∧ s.chip.Only ([Part.tx, Part.ply] ++ eventParts) eventRegs c) ∧
    (∀ (s : State), s.chip.phase ≠ 0x11 → ∃ c : Chip, exec .fetchRetryTimer s = .next (s.after c) ∧ c = s.chip) ∧
    (∀ (s : State), s.chip.svcUp = true → s.chip.phase = 0x11 → s.chip.otp.fetching = [3] → ∃ c : Chip, exec .fetchRetryTimer s = .next (s.after c) ∧
        c = s.chip.plySend 0x03 (padTo 16 (le 1 3)))

/-- FETCH_TIMEOUT (R77): what was asked is not accepted. -/
def Says.fetchTimeout : Prop :=
    (∀ (s : State), ∃ c : Chip, exec .fetchTimeout s = .next (s.cutAfter c) ∧ s.chip.Keeps [.free, .logs, .ring, .pins, .pwr, .sng, .dbg, .otp, .mem,
        .cores, .cfg, .boot, .card, .cust, .whl, .cry, .dma, .spdm, .hanks, .twist, .ply, .late, .upd] c) ∧
    (∀ (s : State), s.chip.otp.fetching = [] → ∃ c : Chip, exec .fetchTimeout s = .next (s.cutAfter c) ∧ c = s.chip) ∧
    (∀ (s : State), s.chip.svcUp = true → s.chip.phase = 0x11 → s.chip.otp.fetching = [3] → s.chip.otp.failed = [3] → ∃ c : Chip, exec .fetchTimeout
        s = .next (s.cutAfter c) ∧ c.seq = .held ∧ c.phase = 0xF0 ∧ c.cust = {} ∧ c.boot = {})

/-- ROM_INIT (R102, R283, R90): SRAM zero, groups 1, 3 and 4 woken, the DRBG instantiated once both start-up tests have ended, `LCS_NONCE` drawn from
it, ROM measured. -/
def Says.romInit : Prop :=
    (∀ (s : State) (rom : List Byte), ∃ c : Chip, exec (.romInit rom) s = .next (s.after c) ∧ s.chip.Only ([Part.free, Part.mem, Part.cores,
        Part.boot, Part.cry] ++ eventParts) ([F.GEN_BOOT_LAST_STATUS, F.GEN_BOOT_TIME_US, F.PWR_STATUS_LAST_RESULT, F.PWR_GRP_STATUS_STATE,
        F.LCS_NONCE_LO_NONCE, F.LCS_NONCE_HI_NONCE, F.CRY_DRBG_STATUS_LAST] ++ eventRegs) c) ∧
    (∀ (s : State) (rom : List Byte), s.chip.phase ≠ 0x10 → ∃ c : Chip, exec (.romInit rom) s = .next (s.after c) ∧ c = s.chip) ∧
    (∀ (s : State) (rom : List Byte), s.chip.svcUp = true → s.chip.phase = 0x10 → ((s.chip.entSt 0 = 1 ∨ s.chip.entSt 1 = 1)) → ∃ c : Chip, exec
        (.romInit rom) s = .next (s.after c) ∧ c = s.chip) ∧
    (∀ (s : State) (rom : List Byte), s.chip.svcUp = true → s.chip.phase = 0x10 → s.chip.entSt 0 ≠ 1 → s.chip.entSt 1 ≠ 1 → s.chip.get
        F.GEN_BOOT_WARM = 1 → ∃ c : Chip, exec (.romInit rom) s = .next (s.after c) ∧ c.phase = 0x12 ∧ c.mem = { nor := s.chip.mem.nor } ∧ c.boot =
        { s.chip.boot with rom := Config.sha3_384 rom })

/-- INTEG_DECIDE (R76, R77): regions 3 and 5 are asked of the partner; with nothing to ask, or a region that holds, ROM decides. -/
def Says.integDecide : Prop :=
    (∀ (s : State), s.chip.svcUp = true → s.chip.phase = 0x11 → s.chip.otp.fetching = [] → s.chip.otp.failed = [3] → ∃ c : Chip, exec .integDecide s
        = .next (s.cutAfter c) ∧ c.otp.fetching = [3] ∧ c.otp.failed = [3] ∧ c.phase = 0x11) ∧
    (∀ (s : State), s.chip.svcUp = true → s.chip.phase = 0x11 → s.chip.otp.fetching = [] → s.chip.otp.failed = [7] → s.chip.otp.atStart = [7] →
        s.chip.otp.dead 3 = false → ∃ c : Chip, exec .integDecide s = .next (s.cutAfter c) ∧ c.phase = 0x12 ∧ c.otp.failed = [7]) ∧
    (∀ (s : State), s.chip.svcUp = true → s.chip.phase = 0x11 → s.chip.otp.fetching = [] → s.chip.otp.failed = [2] → s.chip.otp.atStart = [2] → ∃ c :
        Chip, exec .integDecide s = .next (s.cutAfter c) ∧ c.seq = .held ∧ c.phase = 0xF0 ∧ c.cust = {})

/-- NOR_INIT (R33): the SFDP table is read in 1S-1S-1S, and the device is switched to 8D-8D-8D. -/
def Says.norInit : Prop :=
    (∀ (s : State), ∃ c : Chip, exec .norInit s = .next (s.after c) ∧ s.chip.Only [.tx, .pins, .dbg, .cores] [F.GEN_BOOT_LAST_STATUS,
        F.GEN_BOOT_TIME_US] c) ∧
    (∀ (s : State), s.chip.svcUp = true → s.chip.phase = 0x12 → ∃ c : Chip, exec .norInit s = .next (s.after c) ∧ c.phase = 0x13) ∧
    (∀ (s : State), s.chip.phase ≠ 0x12 → ∃ c : Chip, exec .norInit s = .next (s.after c) ∧ c = s.chip)

/-- ROOT_LOAD (R89, R109, R110, R163): the root and `K_store` in Distaff, the full Snag response armed. -/
def Says.rootLoad : Prop :=
    (∀ (s : State), ∃ c : Chip, exec .rootLoad s = .next (s.after c) ∧ s.chip.Only [.dbg, .cores, .cust] [F.GEN_BOOT_LAST_STATUS, F.GEN_BOOT_TIME_US,
        F.LCS_ROOTS_SELECTED, F.SNG_STATUS_TEMP1, F.DST_STATUS_HANKS] c) ∧
    (∀ (s : State), s.chip.svcUp = true → s.chip.phase = 0x13 → s.chip.pins.recoveryN = false → ∃ c : Chip, exec .rootLoad s = .next (s.after c) ∧ c
        = s.chip) ∧
    (∀ (s : State), s.chip.svcUp = true → s.chip.phase = 0x13 → s.chip.pins.recoveryN = true → ∃ c : Chip, exec .rootLoad s = .next (s.after c) ∧
        c.phase = 0x14 ∧ (s.chip.usableRoot = none → c.get F.GEN_BOOT_NO_ID = 1 ∧ c.cust = s.chip.cust) ∧ (s.chip.usableRoot.isSome = true →
        c.cust.keys.root.isSome = true ∧ c.cust.keys.store.isSome = true ∧ c.get F.DST_STATUS_ROOT = 1 ∧ c.get F.DST_STATUS_STORE_KEY = 1 ∧ c.get
        F.SNG_STATUS_ARMED = 1))

/-- DEVICEID_DERIVE (R107). -/
def Says.deviceidDerive : Prop :=
    (∀ (s : State), ∃ c : Chip, exec .deviceidDerive s = .next (s.after c) ∧ s.chip.Only [.dbg, .cores, .boot] [F.GEN_BOOT_LAST_STATUS,
        F.GEN_BOOT_TIME_US] c) ∧
    (∀ (s : State), s.chip.svcUp = true → s.chip.phase = 0x14 → ∃ c : Chip, exec .deviceidDerive s = .next (s.after c) ∧ c.phase = 0x15 ∧
        (s.chip.cust.keys.root.isSome = true → c.boot.deviceId.isSome = true) ∧ (s.chip.cust.keys.root = none → c.boot = s.chip.boot) ∧ c.cust =
        s.chip.cust)

/-- SPINDLE_VERIFY (R105): the image loaded into Spindle SRAM, or the failing step kept for recovery. -/
def Says.spindleVerify : Prop :=
    (∀ (s : State), ∃ c : Chip, exec .spindleVerify s = .next (s.after c) ∧ s.chip.Only [.dbg, .mem, .cores, .boot] [F.GEN_BOOT_LAST_STATUS,
        F.GEN_BOOT_TIME_US] c) ∧
    (∀ (s : State), s.chip.svcUp = true → s.chip.phase = 0x15 → ∃ c : Chip, exec .spindleVerify s = .next (s.after c) ∧ c.phase = (if (s.chip.imgRead
        1).2.2.2 = .ok then 0x16 else 0x15) ∧ ((s.chip.imgRead 1).2.2.2 ≠ .ok → c.boot.failed = some (s.chip.imgRead 1).2.2 ∧ c.get
        F.GEN_BOOT_FAIL_STEP = 0x15 ∧ c.get F.GEN_BOOT_LAST_STATUS = (s.chip.imgRead 1).2.2.2.code ∧ c.mem = s.chip.mem))

/-- ALIAS_DERIVE (R108): CDI_A, the Alias keys and certificates; the DeviceID keys, CDI_A and the root erased. -/
def Says.aliasDerive : Prop :=
    (∀ (s : State), ∃ c : Chip, exec .aliasDerive s = .next (s.after c) ∧ s.chip.Only [.dbg, .cores, .boot, .cust] [F.GEN_BOOT_LAST_STATUS,
        F.GEN_BOOT_TIME_US, F.DST_STATUS_HANKS] c) ∧
    (∀ (s : State), s.chip.svcUp = true → s.chip.phase = 0x16 → ∃ c : Chip, exec .aliasDerive s = .next (s.after c) ∧ c.phase = 0x20 ∧
        c.cust.keys.root = none ∧ c.cust.keys.cdi = none ∧ c.cust.keys.dice = true ∧ c.boot.deviceId = none ∧ c.get F.DST_STATUS_DICE_CLOSED = 1 ∧
        c.cores.spnKick = s.chip.slot)

/-- RECOVERY_ENTER (R106): a low `RECOVERY_N`, or a Spindle image that failed. -/
def Says.recoveryEnter : Prop :=
    (∀ (s : State), ∃ c : Chip, exec .recoveryEnter s = .next (s.cutAfter c) ∧ s.chip.Only ([Part.tx, Part.ring, Part.otp, Part.mem, Part.cores,
        Part.boot, Part.card, Part.cust, Part.whl, Part.cry, Part.spdm, Part.hanks, Part.ply, Part.upd] ++ eventParts) ([F.GEN_BOOT_LAST_STATUS,
        F.GEN_BOOT_TIME_US, F.OTP_STATUS_LAST_OP, F.OTP_AUDIT_RES_MISMATCH, F.LCS_STATUS_PHASE, F.LCS_ROOTS_SELECTED, F.SKN_CTRL_CFG_LOCK,
        F.BOB_STATUS_LAST_ERR, F.BOB_CPL_TAIL_IDX, F.CRY_DRBG_STATUS_LAST, F.CRY_CHn_STATUS_LAST_ERR, F.CRY_CHn_KEYS_REG, F.DGT_ACTIVE_LO_CTX,
        F.DGT_ACTIVE_HI_CTX, F.TLY_STATUS_LAST, F.TLY_ACCn_RECEIVED_MASK, F.TLY_ACCn_STATUS_RESULT, F.TLY_ACCn_SAT_COUNT, F.TLY_ACCn_NAN_COUNT,
        ctxRegs, dstRegs] ++ eventRegs) c) ∧
    (∀ (s : State), s.chip.svcUp = true → s.chip.phase = 0x13 → s.chip.pins.recoveryN = false → ∃ c : Chip, exec .recoveryEnter s = .next (s.cutAfter
        c) ∧ c.phase = 0x17 ∧ c.get F.GEN_BOOT_RECOVERY = 1 ∧ c.get F.SKN_CTRL_RING_EN = 0) ∧
    (∀ (s : State), s.chip.phase = 0x15 → s.chip.boot.failed = none → ∃ c : Chip, exec .recoveryEnter s = .next (s.cutAfter c) ∧ c = s.chip)

/-- SPINDLE_INIT (R136, R459): Spindle starts; code protection; the tamper log opened. -/
def Says.spindleInit : Prop :=
    (∀ (s : State), ∃ c : Chip, exec .spindleInit s = .next (s.after c) ∧ s.chip.Only ([Part.mem, Part.cores, Part.upd] ++ eventParts)
        ([F.GEN_BOOT_LAST_STATUS, F.GEN_BOOT_TIME_US, F.SNG_CTRL_BASE_LOCK, F.SNG_LOG_RESULT, F.SNG_BASE_x_TOTAL, F.COR_SPN_CTRL_CODE_TOP] ++
        eventRegs) c) ∧
    (∀ (s : State), s.chip.get F.COR_SPN_CTRL_CODE_WP = 1 → ∃ c : Chip, exec .spindleInit s = .next (s.after c) ∧ c = s.chip) ∧
    (∀ (s : State), s.chip.svcUp = true → s.chip.phase = 0x20 → s.chip.get F.COR_SPN_CTRL_CODE_WP = 0 → ∃ c : Chip, exec .spindleInit s = .next
        (s.after c) ∧ c.phase = (if s.chip.mayLeave20 = true then 0x21 else 0x20) ∧ c.get F.COR_SPN_CTRL_CODE_WP = 1 ∧ c.get F.SNG_CTRL_BASE_LOCK = 1)

/-- CONFIG_APPLY (R114 to R118, R478): the Amvex image over its defaults. -/
def Says.configApply : Prop :=
    (∀ (s : State), s.chip.phase ≠ 0x21 → ∃ c : Chip, exec .configApply s = .next (s.cutSettled c) ∧ c = s.chip) ∧
    (∀ (s : State), s.chip.svcUp = true → s.chip.phase = 0x21 → s.chip.upd = {} → ∃ c : Chip, exec .configApply s = .next (s.cutSettled c) ∧ c.phase
        = 0x22 ∧ c.get F.SKN_CTRL_CFG_LOCK = 1 ∧ ((s.chip.imgRead 4).2.2.2 ≠ .ok → c.get F.GEN_BOOT_AMVEX_DEFAULT = 1))

/-- ROVING_START (R119, R478): both images verified, Roving loaded, its six cores released. -/
def Says.rovingStart : Prop :=
    (∀ (s : State), s.chip.svcUp = true → s.chip.phase = 0x22 → s.chip.upd = {} → (s.chip.imgRead 2).2.2.2 ≠ .ok → ∃ c : Chip, exec .rovingStart s =
        .next (s.after c) ∧ c.phase = 0x22 ∧ c.get F.GEN_BOOT_FAIL_STEP = 0x22 ∧ c.get F.GEN_BOOT_LAST_STATUS = (s.chip.imgRead 2).2.2.2.code ∧
        c.boot = s.chip.boot ∧ c.mem = s.chip.mem) ∧
    (∀ (s : State), s.chip.svcUp = true → s.chip.phase = 0x22 → s.chip.upd = {} → ∃ c : Chip, exec .rovingStart s = .next (s.after c) ∧
        ((s.chip.imgRead 2).2.2.2 = .ok → (s.chip.imgRead 3).2.2.2 = .ok → s.chip.manifestBad (s.chip.imgRead 3).2.1 = .ok → c.phase = (if s.chip.get
        F.GEN_BOOT_NO_ID = 1 then 0x22 else 0x23) ∧ c.boot.manifest = (s.chip.imgRead 3).2.1 ∧ c.boot.rov = Config.sha3_384 (s.chip.imgRead 2).2.1 ∧
        (∀ k < 6, c.coreSt k = 1)))

/-- CUSTODY_INIT (R163, R184): table and cache cleared, `K_journal` and `K_blob` set, the journal opened. -/
def Says.custodyInit : Prop :=
    (∀ (s : State), ∃ c : Chip, exec .custodyInit s = .next (s.settled c) ∧ s.chip.Only ([Part.free, Part.cores, Part.cust, Part.cry] ++ eventParts)
        ([F.GEN_BOOT_LAST_STATUS, F.GEN_BOOT_TIME_US, F.BOB_STATUS_LAST_ERR, F.BOB_JSEQ_LO_SEQ, F.BOB_JSEQ_HI_SEQ, F.BOB_JDUR_LO_SEQ,
        F.BOB_JDUR_HI_SEQ, F.BOB_JRNL_STATUS_HEAD_SECTOR, F.DST_STATUS_HANKS, F.DST_CACHE_STAT_PINNED, F.CRY_DRBG_STATUS_LAST] ++ eventRegs) c) ∧
    (∀ (s : State), s.chip.svcUp = true → s.chip.phase = 0x23 → ∃ c : Chip, exec .custodyInit s = .next (s.settled c) ∧ c.phase = 0x24 ∧
        c.cust.keys.blob.isSome = true ∧ c.cust.keys.journal = s.chip.cust.keys.store.map kJournal ∧ c.cust.bobs = [] ∧ c.cust.cache = [] ∧ c.get
        F.DST_STATUS_BLOB_KEY = 1 ∧ c.get F.BOB_STATUS_OPEN = 1)

/-- RING_START (R101, R204, R420): `RING_EN`, and in a pair the Ply link; the pre-lease time master begins. -/
def Says.ringStart : Prop :=
    (∀ (s : State) (other marks : Bool), ∃ c : Chip, exec (.ringStart other marks) s = .next (s.settled c) ∧ s.chip.Only ([Part.free, Part.tx,
        Part.ring, Part.pins, Part.cores, Part.card, Part.whl, Part.cry, Part.ply] ++ eventParts) ([F.GEN_BOOT_LAST_STATUS, F.GEN_BOOT_TIME_US,
        F.GEN_CARD_STATEn_RECARD, F.WHL_STATUS_MASTER, F.SKN_CTRL_CFG_LOCK, F.SKN_STATUS_BREAK_B, F.PLY_CTRL_SLEEP_HS, F.PLY_STATUS_LAST,
        F.PLY_MSEQ_LO_SEQ, F.PLY_MSEQ_HI_SEQ, F.PLY_RESYNC_PATH, F.CRY_DRBG_STATUS_LAST] ++ eventRegs) c) ∧
    (∀ (s : State) (other marks : Bool), s.chip.svcUp = true → s.chip.phase = 0x24 → ∃ c : Chip, exec (.ringStart other marks) s = .next (s.settled
        c) ∧ c.phase = 0x30 ∧ c.get F.SKN_CTRL_RING_EN = 1)

/-- CARD_NODE_PRESENT (Table 5.10). -/
def Says.cardNodePresent : Prop :=
    (∀ (s : State) (node : Nat), ∃ c : Chip, exec (.cardNodePresent node) s = .next (s.settled c) ∧ s.chip.Only ([Part.free, Part.tx, Part.ring,
        Part.card, Part.cry] ++ eventParts) ([F.GEN_CARD_STATEn_RECARD, F.CRY_DRBG_STATUS_LAST] ++ eventRegs) c) ∧
    (∀ (s : State) (node : Nat), s.chip.cards = false → ∃ c : Chip, exec (.cardNodePresent node) s = .next (s.settled c) ∧ c = s.chip) ∧
    (∀ (s : State) (node : Nat), node < 64 → s.chip.cards = true → 0x30 ≤ s.chip.phase → s.chip.phase ≠ 0xF0 → s.chip.present node = true →
        s.chip.cardSt node = 0 → ∃ c : Chip, exec (.cardNodePresent node) s = .next (s.settled c) ∧ c.cardSt node = 1 ∧ (c.cardDie node).measured =
        s.chip.slot ∧ (c.cardDie node).notReady = false)

/-- MEASURED (R125). -/
def Says.measured : Prop :=
    (∀ (s : State), ∃ c : Chip, exec .measured s = .next (s.settled c) ∧ s.chip.Only ([Part.free, Part.tx, Part.ring, Part.card, Part.cry,
        Part.ply] ++ eventParts) ([F.GEN_CARD_STATEn_RECARD, F.SKN_BRIDGE0_NODES, F.SKN_BRIDGE1_NODES, F.SKN_BRIDGE2_NODES, F.PLY_MSEQ_LO_SEQ,
        F.PLY_MSEQ_HI_SEQ, F.CRY_DRBG_STATUS_LAST] ++ eventRegs) c) ∧
    (∀ (s : State), s.chip.ring.inbox = [] → ∃ c : Chip, exec .measured s = .next (s.settled c) ∧ c = s.chip) ∧
    (∀ (s : State), s.chip.ring.inbox = [⟨0x41, 5, 0, 0, 1#8 :: List.replicate 164 0#8⟩] → s.chip.cards = true → s.chip.cardSt 5 = 1 →
        (s.chip.cardDie 5).nonce = List.replicate 12 0#8 → s.chip.manifestMiss (1#8 :: List.replicate 164 0#8) = none → ∃ c : Chip, exec .measured s
        = .next (s.settled c) ∧ c.cardSt 5 = 3 ∧ (c.cardDie 5).epk = List.replicate 49 0#8 ∧ c.ring.inbox = [])

/-- NOT_READY (Table 5.10). -/
def Says.notReady : Prop :=
    (∀ (s : State), ∃ c : Chip, exec .notReady s = .next (s.settled c) ∧ s.chip.Only [.ring, .card] [] c) ∧
    (∀ (s : State), s.chip.ring.inbox = [⟨0x41, 5, 0, 0, [3#8]⟩] → s.chip.cardSt 5 = 1 → ∃ c : Chip, exec .notReady s = .next (s.settled c) ∧
        (c.cardDie 5).notReady = true ∧ c.ring.inbox = [] ∧ c.cardSt 5 = 1)

/-- KEY_INSTALLED (Table 5.10). -/
def Says.keyInstalled : Prop :=
    (∀ (s : State), ∃ c : Chip, exec .keyInstalled s = .next (s.settled c) ∧ s.chip.Only ([Part.tx, Part.ring, Part.ply] ++ eventParts)
        ([F.PLY_MSEQ_LO_SEQ, F.PLY_MSEQ_HI_SEQ] ++ eventRegs) c) ∧
    (∀ (s : State), s.chip.ring.inbox = [⟨0x41, 5, 0, 0, [2#8]⟩] → s.chip.cards = true → s.chip.cardSt 5 = 3 → ∃ c : Chip, exec .keyInstalled s =
        .next (s.settled c) ∧ (c.ply.holds.getLast?).map (·.eff) = some (.release 5) ∧ c.cardSt 5 = 3 ∧ c.ring.inbox = [])

/-- KEY_FAILED (Table 5.10). -/
def Says.keyFailed : Prop :=
    (∀ (s : State), ∃ c : Chip, exec .keyFailed s = .next (s.settled c) ∧ s.chip.Only ([Part.free, Part.tx, Part.ring, Part.card, Part.cry,
        Part.ply] ++ eventParts) ([F.GEN_CARD_STATEn_RECARD, F.SKN_BRIDGE0_NODES, F.SKN_BRIDGE1_NODES, F.SKN_BRIDGE2_NODES, F.PLY_MSEQ_LO_SEQ,
        F.PLY_MSEQ_HI_SEQ, F.CRY_DRBG_STATUS_LAST] ++ eventRegs) c) ∧
    (∀ (s : State), s.chip.ring.inbox = [⟨0x41, 5, 0, 0, [4#8]⟩] → s.chip.cards = true → s.chip.cardSt 5 = 3 → ∃ c : Chip, exec .keyFailed s = .next
        (s.settled c) ∧ c.cardSt 5 = (if (s.chip.cardDie 5).keyFails = 0 then 1 else 5) ∧ ((s.chip.cardDie 5).keyFails = 0 → (c.cardDie 5).keyFails =
        1) ∧ (c.cardDie 5).esk = [] ∧ (c.cardDie 5).key = [])

/-- CARD_RETRY_TIMER (Table 5.10): `CARD_RETRY_SLOTS` after the previous MEASURE. -/
def Says.cardRetryTimer : Prop :=
    (∀ (s : State) (node : Nat), ∃ c : Chip, exec (.cardRetryTimer node) s = .next (s.settled c) ∧ s.chip.Only ([Part.free, Part.tx, Part.ring,
        Part.card, Part.cry, Part.ply] ++ eventParts) ([F.GEN_CARD_STATEn_RECARD, F.SKN_BRIDGE0_NODES, F.SKN_BRIDGE1_NODES, F.SKN_BRIDGE2_NODES,
        F.PLY_MSEQ_LO_SEQ, F.PLY_MSEQ_HI_SEQ, F.CRY_DRBG_STATUS_LAST] ++ eventRegs) c) ∧
    (∀ (s : State) (node : Nat), node < 64 → s.chip.cards = true → s.chip.cardSt node = 1 → (s.chip.cardDie node).notReady = true → (s.chip.cardDie
        node).measured + s.chip.conf 0x0302 1024 ≤ s.chip.slot → ∃ c : Chip, exec (.cardRetryTimer node) s = .next (s.settled c) ∧ c.cardSt node = 1
        ∧ (c.cardDie node).notReady = false ∧ (c.cardDie node).measured = s.chip.slot) ∧
    (∀ (s : State) (node : Nat), (s.chip.cardDie node).notReady = false → ∃ c : Chip, exec (.cardRetryTimer node) s = .next (s.settled c) ∧ c =
        s.chip)

/-- CARD_TIMEOUT (Table 5.10). -/
def Says.cardTimeout : Prop :=
    (∀ (s : State) (node : Nat), ∃ c : Chip, exec (.cardTimeout node) s = .next (s.settled c) ∧ s.chip.Only ([Part.tx, Part.ring, Part.card,
        Part.ply] ++ eventParts) ([F.GEN_CARD_STATEn_RECARD, F.SKN_BRIDGE0_NODES, F.SKN_BRIDGE1_NODES, F.SKN_BRIDGE2_NODES, F.PLY_MSEQ_LO_SEQ,
        F.PLY_MSEQ_HI_SEQ] ++ eventRegs) c) ∧
    (∀ (s : State) (node : Nat), node < 64 → s.chip.cards = true → s.chip.cardSt node = 1 → ∃ c : Chip, exec (.cardTimeout node) s = .next (s.settled
        c) ∧ c.cardSt node = 5 ∧ c.geti F.GEN_CARD_STATEn_REASON node = Status.busy.code) ∧
    (∀ (s : State) (node : Nat), s.chip.cardSt node ≠ 1 → ∃ c : Chip, exec (.cardTimeout node) s = .next (s.settled c) ∧ c = s.chip)

/-- CARD_KEY_TIMEOUT (Table 5.10). -/
def Says.cardKeyTimeout : Prop :=
    (∀ (s : State) (node : Nat), ∃ c : Chip, exec (.cardKeyTimeout node) s = .next (s.settled c) ∧ s.chip.Only ([Part.free, Part.tx, Part.ring,
        Part.card, Part.cry, Part.ply] ++ eventParts) ([F.GEN_CARD_STATEn_RECARD, F.SKN_BRIDGE0_NODES, F.SKN_BRIDGE1_NODES, F.SKN_BRIDGE2_NODES,
        F.PLY_MSEQ_LO_SEQ, F.PLY_MSEQ_HI_SEQ, F.CRY_DRBG_STATUS_LAST] ++ eventRegs) c) ∧
    (∀ (s : State) (node : Nat), (s.chip.cardDie node).waiting = true → ∃ c : Chip, exec (.cardKeyTimeout node) s = .next (s.settled c) ∧ c = s.chip)
        ∧
    (∀ (s : State) (node : Nat), node < 64 → s.chip.cards = true → s.chip.cardSt node = 3 → (s.chip.cardDie node).waiting = false → ∃ c : Chip, exec
        (.cardKeyTimeout node) s = .next (s.settled c) ∧ c.cardSt node = (if (s.chip.cardDie node).keyFails = 0 then 1 else 5) ∧ (c.cardDie node).esk
        = [])

/-- CARD_TAKEOVER_TIMER (R121): GGM-B cards in place of GGM-A. -/
def Says.cardTakeoverTimer : Prop :=
    (∀ (s : State), ∃ c : Chip, exec .cardTakeoverTimer s = .next (s.settled c) ∧ s.chip.Only ([Part.free, Part.tx, Part.ring, Part.card, Part.cry,
        Part.ply] ++ eventParts) ([F.GEN_CARD_STATEn_RECARD, F.SKN_CTRL_CFG_LOCK, F.PLY_MSEQ_LO_SEQ, F.PLY_MSEQ_HI_SEQ, F.CRY_DRBG_STATUS_LAST] ++
        eventRegs) c) ∧
    (∀ (s : State), s.chip.card.noticed = true → ∃ c : Chip, exec .cardTakeoverTimer s = .next (s.settled c) ∧ c = s.chip) ∧
    (∀ (s : State), s.chip.svcUp = true → s.chip.phase = 0x30 → s.chip.pkg ≠ .hx4 → s.chip.get F.GEN_ID_SIDE = 1 → s.chip.card.noticed = false →
        s.chip.card.active = false → s.chip.get F.GEN_BOOT_NO_ID = 0 → ∃ c : Chip, exec .cardTakeoverTimer s = .next (s.settled c) ∧ c.card.active =
        true ∧ c.ring.rkey = s.chip.ring.rkey + 1)

/-- CARD_NOTICE (R121): the partner cards under a ring key epoch. -/
def Says.cardNotice : Prop :=
    (∀ (s : State) (rkey : Nat) (started : Bool), ∃ c : Chip, exec (.cardNotice rkey started) s = .next (s.settled c) ∧ s.chip.Only [.ring, .card] []
        c) ∧
    (∀ (s : State) (rkey : Nat) (started : Bool), (started = false ∨ s.chip.linked = false) → ∃ c : Chip, exec (.cardNotice rkey started) s = .next
        (s.settled c) ∧ c = s.chip) ∧
    (∀ (s : State) (rkey : Nat) (started : Bool), started = true → s.chip.linked = true → ∃ c : Chip, exec (.cardNotice rkey started) s = .next
        (s.settled c) ∧ c.card.noticed = true ∧ c.card.active = false ∧ c.ring.rkey = max s.chip.ring.rkey rkey)

/-- RECARD (Table 5.10, R131). -/
def Says.recard : Prop :=
    (∀ (s : State) (req : Req) (node : Nat), ∃ c : Chip, exec (.recard req node) s = .next (s.settled c) ∧ s.chip.Only ([Part.free, Part.tx,
        Part.ring, Part.pwr, Part.card, Part.cry] ++ eventParts) ([F.GEN_CARD_STATEn_RECARD, F.PWR_STATUS_LAST_RESULT, F.PWR_WAKE_CAUSE_COLD,
        F.SNG_STATUS_TEMP1, F.SKN_BRIDGE0_NODES, F.SKN_BRIDGE1_NODES, F.SKN_BRIDGE2_NODES, F.CRY_DRBG_STATUS_LAST] ++ eventRegs) c) ∧
    (∀ (s : State) (req : Req) (node : Nat), s.chip.opens req (R.GEN_CARD_STATEn (node % 64)) true = true → classOf req = .spindle → s.chip.cardSt
        (node % 64) = 5 → ∃ c : Chip, exec (.recard req node) s = .next (s.settled c) ∧ c.cardSt (node % 64) = 1 ∧ (c.cardDie (node % 64)).keyFails =
        0 ∧ (c.cardDie (node % 64)).bridge = false) ∧
    (∀ (s : State) (req : Req) (node : Nat), s.chip.opens req (R.GEN_CARD_STATEn (node % 64)) true = true → classOf req = .spindle → s.chip.cardSt
        (node % 64) ≠ 5 → ∃ c : Chip, exec (.recard req node) s = .next (s.settled c) ∧ c = s.chip.wrote req)

/-- LOCKSTEP_MISMATCH (R139). -/
def Says.lockstepMismatch : Prop :=
    (∀ (s : State) (pc group : Nat), s.chip.svcUp = false → ∃ c : Chip, exec (.lockstepMismatch pc group) s = .next (s.cutSettled c) ∧ c = s.chip) ∧
    (∀ (s : State) (pc group : Nat), s.chip.svcUp = true → ∃ c : Chip, exec (.lockstepMismatch pc group) s = .next (s.cutSettled c) ∧ c.gone = true ∧
        c.lastAon = some 0x3601)

/-- SPINDLE_SRAM_UNCORRECTABLE (R138, R139). -/
def Says.spindleSramUncorrectable : Prop :=
    (∀ (s : State) (addr pc : Nat), s.chip.svcUp = false → ∃ c : Chip, exec (.spindleSramUncorrectable addr pc) s = .next (s.cutSettled c) ∧ c =
        s.chip) ∧
    (∀ (s : State) (addr pc : Nat), s.chip.svcUp = true → ∃ c : Chip, exec (.spindleSramUncorrectable addr pc) s = .next (s.cutSettled c) ∧ c.gone =
        true ∧ c.lastAon = some 0x3602)

/-- SPINDLE_WDT_EXPIRE (R139, R140): from phase 0x20 on, and not while the pair is halted (R489). -/
def Says.spindleWdtExpire : Prop :=
    (∀ (s : State) (pc : Nat), s.chip.slot < s.chip.cores.spnKick + s.chip.get F.COR_SPN_WDT_PERIOD → ∃ c : Chip, exec (.spindleWdtExpire pc) s =
        .next (s.cutSettled c) ∧ c = s.chip) ∧
    (∀ (s : State) (pc : Nat), s.chip.svcUp = true → 0x20 ≤ s.chip.phase → s.chip.get F.DBG_STATUS_SPN_HALTED = 0 → s.chip.cores.spnKick + s.chip.get
        F.COR_SPN_WDT_PERIOD ≤ s.chip.slot → ∃ c : Chip, exec (.spindleWdtExpire pc) s = .next (s.cutSettled c) ∧ c.gone = true ∧ c.lastAon = some
        0x3603)

/-- SPINDLE_WDT_KICK (R140): a write of `COR_SPN_WDT`. -/
def Says.spindleWdtKick : Prop :=
    (∀ (s : State) (req : Req) (value : Word), ∃ c : Chip, exec (.spindleWdtKick req value) s = .next (s.after c) ∧ s.chip.Only ([Part.tx, Part.pwr,
        Part.cores] ++ eventParts) ([F.PWR_STATUS_LAST_RESULT, F.PWR_WAKE_CAUSE_COLD, F.SNG_STATUS_TEMP1, F.COR_SPN_WDT_KICK] ++ eventRegs) c) ∧
    (∀ (s : State) (req : Req) (value : Word), s.chip.opens req R.COR_SPN_WDT true = true → ∃ c : Chip, exec (.spindleWdtKick req value) s = .next
        (s.after c) ∧ c.get F.COR_SPN_WDT_PERIOD = max 1024 (wget 23 0 value) ∧ c.cores = (if wget 31 31 value = 1 then
        { s.chip.cores with spnKick := s.chip.slot } else s.chip.cores))

/-- CODE_WP (R136): a write of `COR_SPN_CTRL`. -/
def Says.codeWp : Prop :=
    (∀ (s : State) (req : Req) (value : Word), ∃ c : Chip, exec (.codeWp req value) s = .next (s.after c) ∧ s.chip.Only ([Part.tx, Part.pwr] ++
        eventParts) ([F.PWR_STATUS_LAST_RESULT, F.PWR_WAKE_CAUSE_COLD, F.SNG_STATUS_TEMP1, F.COR_SPN_CTRL_CODE_TOP] ++ eventRegs) c) ∧
    (∀ (s : State) (req : Req) (value : Word), s.chip.opens req R.COR_SPN_CTRL true = true → s.chip.get F.COR_SPN_CTRL_CODE_WP = 1 → ∃ c : Chip, exec
        (.codeWp req value) s = .next (s.after c) ∧ c = s.chip.wrote req ∨ (c.get F.COR_SPN_CTRL_CODE_TOP = s.chip.get F.COR_SPN_CTRL_CODE_TOP ∧
        c.get F.COR_SPN_CTRL_CODE_WP = 1)) ∧
    (∀ (s : State) (req : Req) (value : Word), s.chip.opens req R.COR_SPN_CTRL true = true → s.chip.get F.COR_SPN_CTRL_CODE_WP = 0 → ∃ c : Chip, exec
        (.codeWp req value) s = .next (s.after c) ∧ c.get F.COR_SPN_CTRL_CODE_TOP = wget 15 8 value ∧ c.get F.COR_SPN_CTRL_CODE_WP = wget 0 0 value)

/-- SPINDLE_CODE_FAULT (R136): a write below `CODE_TOP` (`wr`), or a fetch at or above it, by offset in Spindle SRAM. -/
def Says.spindleCodeFault : Prop :=
    (∀ (s : State) (off : Nat) (wr : Bool), s.chip.get F.COR_SPN_CTRL_CODE_WP = 0 → ∃ c : Chip, exec (.spindleCodeFault off wr) s = .next
        (s.cutSettled c) ∧ c = s.chip) ∧
    (∀ (s : State) (off : Nat) (wr : Bool), s.chip.svcUp = true → s.chip.get F.COR_SPN_CTRL_CODE_WP = 1 → (if wr = true then off < 4096 * s.chip.get
        F.COR_SPN_CTRL_CODE_TOP else 4096 * s.chip.get F.COR_SPN_CTRL_CODE_TOP ≤ off) → ∃ c : Chip, exec (.spindleCodeFault off wr) s = .next
        (s.cutSettled c) ∧ c.gone = true)

/-- CORE_ACCESS_FAULT (R135): an access of a core outside its grants does not complete; one that Table 6.2 grants is no such command. -/
def Says.coreAccessFault : Prop :=
    (∀ (s : State) (req : Req) (addr size : Nat) (wr fetch : Bool), ∃ c : Chip, exec (.coreAccessFault req addr size wr fetch) s = .next (s.after c)
        ∧ s.chip.Only ([Part.tx] ++ eventParts) eventRegs c) ∧
    (∀ (s : State) (req : Req) (addr size : Nat) (wr fetch : Bool), (s.chip.svcUp = false ∨ classOf req = .external ∨ s.chip.coreGranted req addr
        size wr fetch = true) → ∃ c : Chip, exec (.coreAccessFault req addr size wr fetch) s = .next (s.after c) ∧ c = s.chip) ∧
    (∀ (s : State) (req : Req) (addr size : Nat) (wr fetch : Bool), s.chip.svcUp = true → classOf req ≠ .external → s.chip.coreGranted req addr size
        wr fetch = false → ∃ c : Chip, exec (.coreAccessFault req addr size wr fetch) s = .next (s.after c) ∧ c.tx = s.chip.tx ++ [.fabric req false
        0])

/-- SRAM_PATROL (R138): a word of Spindle SRAM (`spindle`) or Roving SRAM at an address, with no error, a single-bit or an uncorrectable one. -/
def Says.sramPatrol : Prop :=
    (∀ (s : State) (spindle : Bool) (addr errors : Nat), errors = 0 → ∃ c : Chip, exec (.sramPatrol spindle addr errors) s = .next (s.cutSettled c) ∧
        c = s.chip) ∧
    (∀ (s : State) (spindle : Bool) (addr errors : Nat), s.chip.svcUp = true → spindle = true → addr < 0x100000 → 2 ≤ errors → ∃ c : Chip, exec
        (.sramPatrol spindle addr errors) s = .next (s.cutSettled c) ∧ c.gone = true ∧ c.lastAon = some 0x3602) ∧
    (∀ (s : State) (spindle : Bool) (addr errors : Nat), s.chip.svcUp = true → spindle = false → addr < 0x600000 → 2 ≤ errors →
        s.chip.mem.poison.contains (addr / 8 * 8) = false → ∃ c : Chip, exec (.sramPatrol spindle addr errors) s = .next (s.cutSettled c) ∧ c.mem =
        { s.chip.mem with poison := s.chip.mem.poison ++ [addr / 8 * 8] })

/-- ROVING_CORE_FENCE (R141): causes 0x01, 0x03 and 0x04, which arise in the core. -/
def Says.rovingCoreFence : Prop :=
    (∀ (s : State) (core : Nat) (cause : Nat), cause ≠ 1 → cause ≠ 3 → cause ≠ 4 → ∃ c : Chip, exec (.rovingCoreFence core cause) s = .next
        (s.cutSettled c) ∧ c = s.chip) ∧
    (∀ (s : State) (core : Nat) (cause : Nat), (cause = 1 ∨ cause = 3 ∨ cause = 4) → core < 6 → s.chip.svcUp = true → s.chip.coreSt core = 1 → 3 ≤
        s.chip.liveCores.length → ∃ c : Chip, exec (.rovingCoreFence core cause) s = .next (s.cutSettled c) ∧ c.coreSt core = 2 ∧ c.geti
        F.COR_CORE_STATUSn_CAUSE core = cause)

/-- ROVING_WDT_EXPIRE (R141, cause 0x02); a halted core's watchdog does not run (R493). -/
def Says.rovingWdtExpire : Prop :=
    (∀ (s : State) (core : Nat), s.chip.slot < tget s.chip.cores.kicks core 0 + s.chip.get F.COR_ROV_WDT_PERIOD → ∃ c : Chip, exec (.rovingWdtExpire
        core) s = .next (s.cutSettled c) ∧ c = s.chip) ∧
    (∀ (s : State) (core : Nat), core < 6 → s.chip.svcUp = true → s.chip.coreHalted core = false → s.chip.coreSt core = 1 → 3 ≤
        s.chip.liveCores.length → tget s.chip.cores.kicks core 0 + s.chip.get F.COR_ROV_WDT_PERIOD ≤ s.chip.slot → ∃ c : Chip, exec (.rovingWdtExpire
        core) s = .next (s.cutSettled c) ∧ c.coreSt core = 2 ∧ c.geti F.COR_CORE_STATUSn_CAUSE core = 2)

/-- ROVING_WDT_KICK (R141): the core's write of CSR 0x7C0. -/
def Says.rovingWdtKick : Prop :=
    (∀ (s : State) (core : Nat), ∃ c : Chip, exec (.rovingWdtKick core) s = .next (s.after c) ∧ s.chip.Only [.cores] [] c) ∧
    (∀ (s : State) (core : Nat), core < 6 → s.chip.coreFree core = true → ∃ c : Chip, exec (.rovingWdtKick core) s = .next (s.after c) ∧ c =
        { s.chip with cores := { s.chip.cores with kicks := tput s.chip.cores.kicks core s.chip.slot } }) ∧
    (∀ (s : State) (core : Nat), s.chip.coreFree core = false → ∃ c : Chip, exec (.rovingWdtKick core) s = .next (s.after c) ∧ c = s.chip)

/-- FENCE (R141, cause 0x05): a write of `COR_CORE_CTRLn.FENCE`. -/
def Says.coreFence : Prop :=
    (∀ (s : State) (req : Req) (core : Nat), 6 ≤ core → ∃ c : Chip, exec (.coreFence req core) s = .next (s.cutSettled c) ∧ c = s.chip) ∧
    (∀ (s : State) (req : Req) (core : Nat), core < 6 → s.chip.svcUp = true → s.chip.opens req (R.COR_CORE_CTRLn core) true = true → s.chip.coreSt
        core = 1 → 3 ≤ s.chip.liveCores.length → ∃ c : Chip, exec (.coreFence req core) s = .next (s.cutSettled c) ∧ c.coreSt core = 2 ∧ c.geti
        F.COR_CORE_STATUSn_CAUSE core = 5)

/-- FENCING_DONE (R143, R315). -/
def Says.fencingDone : Prop :=
    (∀ (s : State) (core pc : Nat), s.chip.coreSt core ≠ 2 → ∃ c : Chip, exec (.fencingDone core pc) s = .next (s.cutSettled c) ∧ c = s.chip) ∧
    (∀ (s : State) (core pc : Nat), core < 6 → s.chip.svcUp = true → s.chip.coreSt core = 2 → ∃ c : Chip, exec (.fencingDone core pc) s = .next
        (s.cutSettled c) ∧ c.coreSt core = 3)

/-- RESTART (R142): a write of `COR_CORE_CTRLn.RESTART`. -/
def Says.coreRestart : Prop :=
    (∀ (s : State) (req : Req) (core : Nat), ∃ c : Chip, exec (.coreRestart req core) s = .next (s.after c) ∧ s.chip.Only ([Part.tx, Part.pwr] ++
        eventParts) ([F.PWR_STATUS_LAST_RESULT, F.PWR_WAKE_CAUSE_COLD, F.SNG_STATUS_TEMP1, F.COR_CORE_STATUSn_CAUSE] ++ eventRegs) c) ∧
    (∀ (s : State) (req : Req) (core : Nat), core < 6 → s.chip.opens req (R.COR_CORE_CTRLn core) true = true → s.chip.coreSt core = 3 → ∃ c : Chip,
        exec (.coreRestart req core) s = .next (s.after c) ∧ c.coreSt core = (if s.chip.geti F.COR_CORE_STATUSn_RESTARTS core < 3 then 4 else 3))

/-- CORE_RESET_RELEASE (R142). -/
def Says.coreResetRelease : Prop :=
    (∀ (s : State) (core : Nat), ∃ c : Chip, exec (.coreResetRelease core) s = .next (s.after c) ∧ s.chip.Only ([Part.cores] ++ eventParts)
        ([F.COR_CORE_STATUSn_CAUSE] ++ eventRegs) c) ∧
    (∀ (s : State) (core : Nat), core < 6 → s.chip.svcUp = true → s.chip.coreSt core = 4 → s.chip.geti F.COR_CORE_STATUSn_RESTARTS core < 3 → ∃ c :
        Chip, exec (.coreResetRelease core) s = .next (s.after c) ∧ c.coreSt core = 1 ∧ c.geti F.COR_CORE_STATUSn_RESTARTS core = s.chip.geti
        F.COR_CORE_STATUSn_RESTARTS core + 1 ∧ tget c.cores.kicks core 0 = s.chip.slot) ∧
    (∀ (s : State) (core : Nat), s.chip.coreSt core ≠ 4 → ∃ c : Chip, exec (.coreResetRelease core) s = .next (s.after c) ∧ c = s.chip)

/-- CRYPTO_GROUP_WAKE (R61). -/
def Says.cryptoGroupWake : Prop :=
    (∀ (s : State) (g : Fin 6), ∃ c : Chip, exec (.cryptoGroupWake g) s = .next (s.settled c) ∧ s.chip.Only eventParts ([F.PWR_STATUS_LAST_RESULT,
        F.PWR_GRP_STATUS_STATE] ++ eventRegs) c) ∧
    (∀ (s : State) (g : Fin 6), (s.chip.svcUp = false ∨ g.val = 0) → ∃ c : Chip, exec (.cryptoGroupWake g) s = .next (s.settled c) ∧ c = s.chip) ∧
    (∀ (s : State) (g : Fin 6), s.chip.svcUp = true → g.val ≠ 0 → bit (s.chip.get F.PWR_GRP_CTRL_DISABLE) (g.val - 1) = false → s.chip.grp g.val = 0
        → ∃ c : Chip, exec (.cryptoGroupWake g) s = .next (s.settled c) ∧ c.grp g.val = 1 ∧ c.seq = .active)

/-- CRYPTO_GROUP_READY (R61): the group's queued work starts. -/
def Says.cryptoGroupReady : Prop :=
    (∀ (s : State) (g : Fin 6) (bad : List (Nat × Nat)), s.chip.seq ≠ .active → ∃ c : Chip, exec (.cryptoGroupReady g bad) s = .next (s.cutSettled c)
        ∧ c = s.chip) ∧
    (∀ (s : State) (g : Fin 6) (bad : List (Nat × Nat)), s.chip.seq = .active → g.val ≠ 0 → s.chip.grp g.val = 1 → bad = [] → s.chip.cry.ch = [] →
        s.chip.cust.waitGrp = [] → ∃ c : Chip, exec (.cryptoGroupReady g bad) s = .next (s.cutSettled c) ∧ c.grp g.val = 2 ∧ c.get
        F.PWR_STATUS_CRY_PLL_LOCK = 1 ∧ c.pwr.cryTries = 0 ∧ c.seq = .active) ∧
    (∀ (s : State) (g : Fin 6) (bad : List (Nat × Nat)), s.chip.seq = .active → g.val = 0 → ∃ c : Chip, exec (.cryptoGroupReady g bad) s = .next
        (s.cutSettled c) ∧ c.get F.PWR_STATUS_CRY_PLL_LOCK = 1 ∧ c.cry = s.chip.cry)

/-- CRYPTO_PLL_TIMEOUT (R62): the second failure ends the instance, with groups 1 to 5 FAILED. -/
def Says.cryptoPllTimeout : Prop :=
    (∀ (s : State), s.chip.get F.PWR_STATUS_CRY_PLL_LOCK = 1 → ∃ c : Chip, exec .cryptoPllTimeout s = .next (s.cutSettled c) ∧ c = s.chip) ∧
    (∀ (s : State), s.chip.seq = .active → s.chip.get F.PWR_STATUS_CRY_PLL_LOCK = 0 → s.chip.pwr.cryTries = 0 → ∃ c : Chip, exec .cryptoPllTimeout s
        = .next (s.cutSettled c) ∧ c = { s.chip with pwr := { s.chip.pwr with cryTries := 1 } }) ∧
    (∀ (s : State), s.chip.seq = .active → s.chip.get F.PWR_STATUS_CRY_PLL_LOCK = 0 → s.chip.pwr.cryTries ≠ 0 → ∃ c : Chip, exec .cryptoPllTimeout s
        = .next (s.cutSettled c) ∧ c.gone = true ∧ c.lastAon = some 0x2301)

/-- GROUP_IDLE_POWER_OFF (R62): a group idle for `IDLE_SLOTS` slots powers off under `AUTO_GATE`, or any idle one because `DISABLE` holds it off. Its
engines hold no key between units (R271). -/
def Says.groupIdlePowerOff : Prop :=
    (∀ (s : State) (g : Fin 6), ∃ c : Chip, exec (.groupIdlePowerOff g) s = .next (s.settled c) ∧ s.chip.Only eventParts ([F.PWR_GRP_STATUS_STATE] ++
        eventRegs) c) ∧
    (∀ (s : State) (g : Fin 6), s.chip.grp g.val ≠ 2 → ∃ c : Chip, exec (.groupIdlePowerOff g) s = .next (s.settled c) ∧ c = s.chip) ∧
    (∀ (s : State) (g : Fin 6), g.val ≠ 0 → s.chip.grp g.val = 2 → s.chip.get F.PWR_CTRL_AUTO_GATE = 1 → s.chip.idleFor g.val (s.chip.get
        F.PWR_IDLE_CFG_IDLE_SLOTS) = true → s.chip.groupBusy g.val = false → s.chip.groupKept g.val = false → ∃ c : Chip, exec (.groupIdlePowerOff g)
        s = .next (s.settled c) ∧ c.grp g.val = 0 ∧ c.seq = s.chip.seq) ∧
    (∀ (s : State) (g : Fin 6), g.val ≠ 0 → s.chip.grp g.val = 2 → bit (s.chip.get F.PWR_GRP_CTRL_DISABLE) (g.val - 1) = true → s.chip.groupBusy
        g.val = false → s.chip.groupKept g.val = false → ∃ c : Chip, exec (.groupIdlePowerOff g) s = .next (s.settled c) ∧ c.grp g.val = 0 ∧ c.seq =
        s.chip.seq)

/-- CRYPTO_PLL_HOLD_EXPIRE (R59): no group on for `PLL_HOLD` slots and `PLL_KEEP` 0. -/
def Says.cryptoPllHoldExpire : Prop :=
    (∀ (s : State), ∃ c : Chip, exec .cryptoPllHoldExpire s = .next (s.settled c) ∧ s.chip.Only eventParts ([F.PWR_STATUS_LAST_RESULT] ++ eventRegs)
        c) ∧
    (∀ (s : State), s.chip.get F.PWR_CTRL_PLL_KEEP = 1 → ∃ c : Chip, exec .cryptoPllHoldExpire s = .next (s.settled c) ∧ c = s.chip) ∧
    (∀ (s : State), s.chip.seq = .active → s.chip.get F.PWR_CTRL_PLL_KEEP = 0 → [1, 2, 3, 4, 5].any (fun g => s.chip.grp g == 1 || s.chip.grp g == 2)
        = false → s.chip.idleFor 0 (s.chip.get F.PWR_IDLE_CFG_PLL_HOLD) = true → ∃ c : Chip, exec .cryptoPllHoldExpire s = .next (s.settled c) ∧
        c.seq = .service ∧ c.get F.PWR_STATUS_CRY_PLL_LOCK = 0)

/-- PWR_FORCE_ON (R62). -/
def Says.pwrForceOn : Prop :=
    (∀ (s : State) (req : Req) (mask : BitVec 5), ∃ c : Chip, exec (.pwrForceOn req mask) s = .next (s.settled c) ∧ s.chip.Only ([Part.tx,
        Part.pwr] ++ eventParts) ([F.PWR_STATUS_LAST_RESULT, F.PWR_GRP_CTRL_FORCE_ON, F.PWR_GRP_STATUS_STATE, F.PWR_WAKE_CAUSE_COLD,
        F.SNG_STATUS_TEMP1] ++ eventRegs) c) ∧
    (∀ (s : State) (req : Req) (mask : BitVec 5), s.chip.opens req R.PWR_GRP_CTRL true = true → ∃ c : Chip, exec (.pwrForceOn req mask) s = .next
        (s.settled c) ∧ c.get F.PWR_GRP_CTRL_FORCE_ON = mask.toNat)

/-- MB_LOCK_READ (R147). -/
def Says.mbLockRead : Prop :=
    (∀ (s : State) (req : Req) (ns : Bool) (n : Nat), ∃ c : Chip, exec (.mbLockRead req ns n) s = .next (s.after c) ∧ s.chip.Only ([Part.tx,
        Part.pwr, Part.cores] ++ eventParts) ([F.PWR_STATUS_LAST_RESULT, F.PWR_WAKE_CAUSE_COLD, F.SNG_STATUS_TEMP1, F.MBS_STATUSn_OWNER,
        F.MBN_STATUSn_OWNER] ++ eventRegs) c) ∧
    (∀ (s : State) (req : Req) (ns : Bool) (n : Nat), s.chip.opens req (mbLockOff ns n) false = true → n < 16 → s.chip.mbSt ns n = 0 → mbEligible req
        ns n = true → ∃ c : Chip, exec (.mbLockRead req ns n) s = .next (s.after c) ∧ c.mbSt ns n = 1 ∧ c.mbOwner ns n = req.toNat ∧ c.tx =
        s.chip.tx ++ [.fabric req true 0]) ∧
    (∀ (s : State) (req : Req) (ns : Bool) (n : Nat), s.chip.opens req (mbLockOff ns n) false = true → (s.chip.mbSt ns n ≠ 0 ∨ mbEligible req ns n =
        false) → ∃ c : Chip, exec (.mbLockRead req ns n) s = .next (s.after c) ∧ c = (s.chip.mbTouch req ns n).respond req true (if s.chip.mbOwner ns
        n = req.toNat then 0 else s.chip.mbOwner ns n))

/-- MB_DATA_WRITE (R148): taken from the party whose turn it is. -/
def Says.mbDataWrite : Prop :=
    (∀ (s : State) (req : Req) (ns : Bool) (n word : Nat) (value : Word), ∃ c : Chip, exec (.mbDataWrite req ns n word value) s = .next (s.after c) ∧
        s.chip.Only ([Part.tx, Part.pwr, Part.cores] ++ eventParts) ([F.PWR_STATUS_LAST_RESULT, F.PWR_WAKE_CAUSE_COLD, F.SNG_STATUS_TEMP1,
        F.MBS_STATUSn_OWNER, F.MBN_STATUSn_OWNER, mbsRegs, mbnRegs] ++ eventRegs) c) ∧
    (∀ (s : State) (req : Req) (ns : Bool) (n word : Nat) (value : Word), s.chip.opens req (mbBase ns n + 4 * (word % 16)) true = true → n < 16 →
        s.chip.mbTurn req ns n = true → ∃ c : Chip, exec (.mbDataWrite req ns n word value) s = .next (s.after c) ∧ c.rd (mbBase ns n + 4 * (word %
        16)) = value ∧ c.mbSt ns n = s.chip.mbSt ns n) ∧
    (∀ (s : State) (req : Req) (ns : Bool) (n word : Nat) (value : Word), s.chip.opens req (mbBase ns n + 4 * (word % 16)) true = true → n < 16 →
        s.chip.mbTurn req ns n = false → ∃ c : Chip, exec (.mbDataWrite req ns n word value) s = .next (s.after c) ∧ c.rd (mbBase ns n + 4 * (word %
        16)) = s.chip.rd (mbBase ns n + 4 * (word % 16)) ∧ c.mb ns n F.MBS_STATUSn_LAST = Status.denied.code)

/-- MB_GO (R146, R148). -/
def Says.mbGo : Prop :=
    (∀ (s : State) (req : Req) (ns : Bool) (n words : Nat), ∃ c : Chip, exec (.mbGo req ns n words) s = .next (s.after c) ∧ s.chip.Only ([Part.tx,
        Part.pwr, Part.mem, Part.cores] ++ eventParts) ([F.PWR_STATUS_LAST_RESULT, F.PWR_WAKE_CAUSE_COLD, F.SNG_STATUS_TEMP1, F.MBS_STATUSn_OWNER,
        F.MBN_STATUSn_OWNER, mbsRegs, mbnRegs] ++ eventRegs) c) ∧
    (∀ (s : State) (req : Req) (ns : Bool) (n words : Nat), s.chip.opens req (mbBase ns n + 0x40) true = true → n < 16 → ns = true → s.chip.mbTurn
        req ns n = true → s.chip.mbSt ns n ≠ 2 → 1 ≤ words → words ≤ 16 → ∃ c : Chip, exec (.mbGo req ns n words) s = .next (s.after c) ∧ c.mbSt ns n
        = 2 ∧ c.mb ns n F.MBS_STATUSn_WORDS = words ∧ c.mb ns n F.MBS_STATUSn_FULL_IRQ = 1 ∧ c.mb ns n F.MBS_STATUSn_LAST = Status.ok.code) ∧
    (∀ (s : State) (req : Req) (ns : Bool) (n words : Nat), s.chip.opens req (mbBase ns n + 0x40) true = true → n < 16 → s.chip.mbTurn req ns n =
        true → s.chip.mbSt ns n = 2 → req.toNat ≠ s.chip.mbOwner ns n → 1 ≤ words → words ≤ 16 → ∃ c : Chip, exec (.mbGo req ns n words) s = .next
        (s.after c) ∧ c.mbSt ns n = 3 ∧ c.mb ns n F.MBS_STATUSn_WORDS = words ∧ c.mb ns n F.MBS_STATUSn_EMPTY_IRQ = 1) ∧
    (∀ (s : State) (req : Req) (ns : Bool) (n words : Nat), s.chip.opens req (mbBase ns n + 0x40) true = true → n < 16 → s.chip.mbTurn req ns n =
        true → (words = 0 ∨ 16 < words) → ∃ c : Chip, exec (.mbGo req ns n words) s = .next (s.after c) ∧ c.mbSt ns n = s.chip.mbSt ns n ∧ c.mb ns n
        F.MBS_STATUSn_LAST = Status.badArg.code)

/-- MB_RELEASE (R146, R148). -/
def Says.mbRelease : Prop :=
    (∀ (s : State) (req : Req) (ns : Bool) (n : Nat), ∃ c : Chip, exec (.mbRelease req ns n) s = .next (s.after c) ∧ s.chip.Only ([Part.tx, Part.pwr,
        Part.cores] ++ eventParts) ([F.PWR_STATUS_LAST_RESULT, F.PWR_WAKE_CAUSE_COLD, F.SNG_STATUS_TEMP1, F.MBS_STATUSn_OWNER, F.MBN_STATUSn_OWNER,
        mbsRegs, mbnRegs] ++ eventRegs) c) ∧
    (∀ (s : State) (req : Req) (ns : Bool) (n : Nat), s.chip.opens req (mbLockOff ns n) true = true → n < 16 → mbFixed ns n = false → (s.chip.mbSt ns
        n = 1 ∨ s.chip.mbSt ns n = 3) → req.toNat = s.chip.mbOwner ns n → ∃ c : Chip, exec (.mbRelease req ns n) s = .next (s.after c) ∧ c.mbSt ns n
        = 0 ∧ c.mbOwner ns n = 0 ∧ c.mb ns n F.MBS_STATUSn_LAST = Status.ok.code ∧ (∀ i < 16, c.rd (mbBase ns n + 4 * i) = 0#32)) ∧
    (∀ (s : State) (req : Req) (ns : Bool) (n : Nat), s.chip.opens req (mbLockOff ns n) true = true → n < 16 → mbFixed ns n = false → s.chip.mbSt ns
        n = 2 → req.toNat = s.chip.mbOwner ns n → ∃ c : Chip, exec (.mbRelease req ns n) s = .next (s.after c) ∧ c.mbSt ns n = 2 ∧ c.mb ns n
        F.MBS_STATUSn_LAST = Status.busy.code) ∧
    (∀ (s : State) (req : Req) (ns : Bool) (n : Nat), s.chip.opens req (mbLockOff ns n) true = true → mbFixed ns n = true → ∃ c : Chip, exec
        (.mbRelease req ns n) s = .next (s.after c) ∧ c = s.chip.wrote req)

/-- MB_FORCE (R146, R150). -/
def Says.mbForce : Prop :=
    (∀ (s : State) (req : Req) (ns : Bool) (n : Nat), ∃ c : Chip, exec (.mbForce req ns n) s = .next (s.after c) ∧ s.chip.Only ([Part.tx, Part.pwr,
        Part.cores] ++ eventParts) ([F.PWR_STATUS_LAST_RESULT, F.PWR_WAKE_CAUSE_COLD, F.SNG_STATUS_TEMP1, F.MBS_STATUSn_OWNER, F.MBN_STATUSn_OWNER,
        mbsRegs, mbnRegs] ++ eventRegs) c) ∧
    (∀ (s : State) (req : Req) (ns : Bool) (n : Nat), s.chip.opens req (mbLockOff ns n) true = true → n < 16 → mbFixed ns n = false → s.chip.mbSt ns
        n = 2 → req.toNat = s.chip.mbReceiver ns n → ∃ c : Chip, exec (.mbForce req ns n) s = .next (s.after c) ∧ c.mbSt ns n = 0 ∧ c.mbOwner ns n =
        0 ∧ (∀ i < 16, c.rd (mbBase ns n + 4 * i) = 0#32))

/-- MB_LOCK_TIMEOUT (R149): a lock held in LOCKED or REPLIED without an owner's access for `LOCK_TIMEOUT` slots is freed; it does not run in FULL. -/
def Says.mbLockTimeout : Prop :=
    (∀ (s : State) (ns : Bool) (n : Nat), ∃ c : Chip, exec (.mbLockTimeout ns n) s = .next (s.after c) ∧ s.chip.Only ([Part.cores] ++ eventParts)
        ([F.MBS_STATUSn_OWNER, F.MBN_STATUSn_OWNER, mbsRegs, mbnRegs] ++ eventRegs) c) ∧
    (∀ (s : State) (ns : Bool) (n : Nat), s.chip.svcUp = true → n < 16 → mbFixed ns n = false → (s.chip.mbSt ns n = 1 ∨ s.chip.mbSt ns n = 3) →
        s.chip.mbStale ns n = true → ∃ c : Chip, exec (.mbLockTimeout ns n) s = .next (s.after c) ∧ c.mbSt ns n = 0 ∧ c.mbOwner ns n = 0) ∧
    (∀ (s : State) (ns : Bool) (n : Nat), s.chip.svcUp = true → s.chip.mbStale ns n = false → ∃ c : Chip, exec (.mbLockTimeout ns n) s = .next
        (s.after c) ∧ c = s.chip) ∧
    (∀ (s : State) (ns : Bool) (n : Nat), s.chip.mbSt ns n = 2 → ∃ c : Chip, exec (.mbLockTimeout ns n) s = .next (s.after c) ∧ c = s.chip)

/-- CORE_HELLO (R156): a core announces itself with its build. -/
def Says.coreHello : Prop :=
    (∀ (s : State) (n : Nat), ∃ c : Chip, exec (.coreHello n) s = .next (s.after c) ∧ s.chip.Only ([Part.tx, Part.mem, Part.cores] ++ eventParts)
        ([F.MBS_STATUSn_OWNER, F.MBN_STATUSn_OWNER, mbsRegs, mbnRegs] ++ eventRegs) c) ∧
    (∀ (s : State) (n : Nat), s.chip.callAt n = none → ∃ c : Chip, exec (.coreHello n) s = .next (s.after c) ∧ c = s.chip) ∧
    (∀ (s : State) (n : Nat), s.chip.callReady n 0x0001 = true → ∃ c : Chip, exec (.coreHello n) s = .next (s.after c) ∧ c.answered n .ok = true)

/-- SERVICE_CALL_COMPLETE (R155): Spindle sends the oldest notice of a core in MBS 6 + c once that mailbox is its own to fill. -/
def Says.serviceCallComplete : Prop :=
    (∀ (s : State) (core : Nat), ∃ c : Chip, exec (.serviceCallComplete core) s = .next (s.after c) ∧ s.chip.Only [.tx, .dbg, .cores]
        [F.MBS_STATUSn_OWNER, F.MBN_STATUSn_OWNER, mbsRegs, mbnRegs] c) ∧
    (∀ (s : State) (core : Nat), tget s.chip.cores.notices core [] = [] → ∃ c : Chip, exec (.serviceCallComplete core) s = .next (s.after c) ∧ c =
        s.chip) ∧
    (∀ (s : State) (core : Nat), s.chip.svcUp = true → core < 6 → s.chip.mbSt false (6 + core) ≠ 2 → tget s.chip.cores.notices core [] =
        [⟨0x0061, 7, 0, 1, 0⟩] → ∃ c : Chip, exec (.serviceCallComplete core) s = .next (s.after c) ∧ c.mbSt false (6 + core) = 2 ∧ c.rd (mbBase
        false (6 + core)) = 0x00610700#32 ∧ c.rd (mbBase false (6 + core) + 4) = 1#32 ∧ tget c.cores.notices core [] = [])

/-- REGISTER_WRITE (R7, R512, R513): a 32-bit write of the register at an offset of the window; unaligned or at 0x6_0000 and above it gets the error
response (R29, R135). The Spindle class and the Roving cores write as R135 grants, the external class at the target port. -/
def Says.registerWrite : Prop :=
    (∀ (s : State) (req : Req) (off : Nat) (value : Word), (off % 4 ≠ 0 ∨ 0x60000 ≤ off) → ∃ c : Chip, exec (.registerWrite req off value) s = .next
        (s.cutSettled c) ∧ c = s.chip.badAccess req off true) ∧
    (∀ (s : State) (req : Req) (off : Nat) (value : Word), off % 4 = 0 → off < 0x60000 → badReq req = false → s.chip.powered off = true →
        s.chip.granted req off true = false → ∃ c : Chip, exec (.registerWrite req off value) s = .next (s.cutSettled c) ∧ c = s.chip.refuse 0x1601
        req off true 0) ∧
    (∀ (s : State) (req : Req) (off : Nat) (value : Word), off = R.PWR_WAKE_TIME_HI → s.chip.opens req off true = true → ∃ c : Chip, exec
        (.registerWrite req off value) s = .next (s.cutSettled c) ∧ c.rd R.PWR_WAKE_TIME_HI = value ∧ c.pwr.wakeAt = some (2 ^ 32 * value.toNat +
        (s.chip.rd R.PWR_WAKE_TIME_LO).toNat))

/-- EVENTS_DRAIN (R516): whole records, oldest first, up to the inline maximum. -/
def Says.eventsDrain : Prop :=
    (∀ (s : State) (n : Nat), ∃ c : Chip, exec (.eventsDrain n) s = .next (s.settled c) ∧ s.chip.Only ([Part.tx, Part.mem, Part.cores] ++ eventParts)
        ([F.MBS_STATUSn_OWNER, F.MBN_STATUSn_OWNER, mbsRegs, mbnRegs] ++ eventRegs) c) ∧
    (∀ (s : State) (n : Nat), s.chip.callAt n = none → ∃ c : Chip, exec (.eventsDrain n) s = .next (s.settled c) ∧ c = s.chip) ∧
    (∀ (s : State) (n : Nat), s.chip.callReady n 0x0003 = true → s.chip.hanks.tab = [] → ∃ c : Chip, exec (.eventsDrain n) s = .next (s.settled c) ∧
        c.answered n .ok = true ∧ c.logs.svc = s.chip.logs.svc.drop
        (match s.chip.callAt n with | some k => min (numAt k.args 0 4) (k.outLen / 32) | none => 0)) ∧
    (∀ (s : State) (n : Nat), s.chip.callReady n 0x0003 = true → s.chip.hanks.tab ≠ [] → s.chip.get F.DBG_CTRL_TRACE_ROV = 0 → ∃ c : Chip, exec
        (.eventsDrain n) s = .next (s.settled c) ∧ c.answered n .noConsent = true)

/-- GRANT (R266, R272, R298, R500, R508): the lowest free resources of the kind; BUSY when there are not enough, NO_CONSENT for trace channels that
no consent opens. -/
def Says.grant : Prop :=
    (∀ (s : State) (n : Nat), ∃ c : Chip, exec (.grant n) s = .next (s.settled c) ∧ s.chip.Only ([Part.tx, Part.mem, Part.cores, Part.cry] ++
        eventParts) ([F.MBS_STATUSn_OWNER, F.MBN_STATUSn_OWNER, F.CRY_CHn_CFG_EN, F.DGT_ACTIVE_LO_CTX, F.DGT_ACTIVE_HI_CTX, F.DGT_GRANT_LO_CTX,
        F.DGT_GRANT_HI_CTX, F.DMA_LINE_GRANT_LO_LINES, F.DMA_CHn_CFG_EN, F.DBG_STATUS_TRACE_GRANTED, mbsRegs, mbnRegs, ctxRegs] ++ eventRegs) c) ∧
    (∀ (s : State) (n : Nat), s.chip.callReady n 0x0050 = true → (s.chip.callAt n).map (fun k => (numAt k.args 0 4, numAt k.args 4 4)) = some (0, 1)
        → s.chip.grantable 0 8 = true → s.chip.mbOwner false n = 0xF0 → ∃ c : Chip, exec (.grant n) s = .next (s.settled c) ∧ c.answered n .ok = true
        ∧ c.geti F.DMA_CHn_CFG_OWNER 8 = 0xF0) ∧
    (∀ (s : State) (n : Nat), s.chip.callReady n 0x0050 = true → (s.chip.callAt n).map (fun k => (numAt k.args 0 4, numAt k.args 4 4)) = some (0, 45)
        → ∃ c : Chip, exec (.grant n) s = .next (s.settled c) ∧ c.answered n .badArg = true)

/-- RELEASE (R266, R298): kind, count and numbers in the inline arguments; DENIED for a resource the core does not hold, BUSY for a channel that is
not idle. -/
def Says.release : Prop :=
    (∀ (s : State) (n : Nat), ∃ c : Chip, exec (.release n) s = .next (s.settled c) ∧ s.chip.Only ([Part.tx, Part.mem, Part.cores, Part.cry,
        Part.dma] ++ eventParts) ([F.MBS_STATUSn_OWNER, F.MBN_STATUSn_OWNER, F.CRY_CHn_STATUS_LAST_ERR, F.CRY_CHn_KEYS_REG, F.DGT_ACTIVE_LO_CTX,
        F.DGT_ACTIVE_HI_CTX, F.DGT_GRANT_LO_CTX, F.DGT_GRANT_HI_CTX, F.DMA_STATUS_STOPPED, F.DMA_FAULT_MASK_CH, F.DMA_STOP_MASK_CH,
        F.DMA_LINE_GRANT_LO_LINES, F.DMA_CHn_CFG_EN, F.DMA_CHn_STATUS_LAST_ERR, F.DBG_STATUS_TRACE_GRANTED, mbsRegs, mbnRegs, chRegs, ctxRegs,
        dmaRegs] ++ eventRegs) c) ∧
    (∀ (s : State) (n : Nat), s.chip.callReady n 0x0051 = true → (s.chip.callAt n).map (fun k => k.args.take 3) = some [0#8, 1#8, 8#8] →
        s.chip.mbOwner false n = 0xF0 → s.chip.geti F.DMA_CHn_CFG_OWNER 8 = 0xF0 → s.chip.dmSt 8 = dIdle → ∃ c : Chip, exec (.release n) s = .next
        (s.settled c) ∧ c.answered n .ok = true ∧ c.geti F.DMA_CHn_CFG_OWNER 8 = 0) ∧
    (∀ (s : State) (n : Nat), s.chip.callReady n 0x0051 = true → (s.chip.callAt n).map (fun k => k.args.take 3) = some [0#8, 1#8, 8#8] →
        s.chip.mbOwner false n = 0xF0 → s.chip.geti F.DMA_CHn_CFG_OWNER 8 = 0 → ∃ c : Chip, exec (.release n) s = .next (s.settled c) ∧ c.answered n
        .denied = true)

/-- SLEEP_REQUEST (R63, R64): the answer leaves before the sleep entry begins. -/
def Says.sleepRequest : Prop :=
    (∀ (s : State) (n : Nat), ∃ c : Chip, exec (.sleepRequest n) s = .next (s.cutSettled c) ∧ s.chip.Only ([Part.tx, Part.ring, Part.pins, Part.otp,
        Part.mem, Part.cores, Part.boot, Part.card, Part.cust, Part.whl, Part.cry, Part.spdm, Part.hanks, Part.ply] ++ eventParts)
        ([F.PWR_STATUS_LAST_RESULT, F.OTP_STATUS_LAST_OP, F.OTP_AUDIT_RES_MISMATCH, F.LCS_STATUS_PHASE, F.LCS_ROOTS_SELECTED, F.MBS_STATUSn_OWNER,
        F.MBN_STATUSn_OWNER, F.BOB_STATUS_LAST_ERR, F.BOB_CPL_TAIL_IDX, F.CRY_DRBG_STATUS_LAST, F.CRY_CHn_STATUS_LAST_ERR, F.CRY_CHn_KEYS_REG,
        F.DGT_ACTIVE_LO_CTX, F.DGT_ACTIVE_HI_CTX, F.TLY_STATUS_LAST, F.TLY_ACCn_RECEIVED_MASK, F.TLY_ACCn_STATUS_RESULT, F.TLY_ACCn_SAT_COUNT,
        F.TLY_ACCn_NAN_COUNT, mbsRegs, mbnRegs, ctxRegs, dstRegs] ++ eventRegs) c) ∧
    (∀ (s : State) (n : Nat), s.chip.callReady n 0x0060 = true → s.chip.hanks.tab ≠ [] → ∃ c : Chip, exec (.sleepRequest n) s = .next (s.cutSettled
        c) ∧ c.answered n .denied = true ∧ c.seq = s.chip.seq) ∧
    (∀ (s : State) (n : Nat), s.chip.callReady n 0x0060 = true → s.chip.hanks.tab = [] → s.chip.pkg = .hx4 → s.chip.sleepBar = none → ∃ c : Chip,
        exec (.sleepRequest n) s = .next (s.cutSettled c) ∧ c.seq = .sleepEntry ∧ c.pins.norParked = true) ∧
    (∀ (s : State) (n : Nat), s.chip.callReady n 0x0060 = true → s.chip.hanks.tab = [] → s.chip.pkg = .hx4 → s.chip.sleepBar.isSome = true → ∃ c :
        Chip, exec (.sleepRequest n) s = .next (s.cutSettled c) ∧ c.answered n .busy = true ∧ c.seq = s.chip.seq)

/-- LC_REQUEST (R90, R91, R483): the target in inline byte 0, a token in bytes 4 to 35, an authorisation in the input buffer. -/
def Says.lcRequest : Prop :=
    (∀ (s : State) (n : Nat) (genuine : Bool), ∃ c : Chip, exec (.lcRequest n genuine) s = .next (s.cutSettled c) ∧ s.chip.Keeps [.tx, .logs, .dbg,
        .otp, .lcs, .mem, .cores] c) ∧
    (∀ (s : State) (n : Nat) (genuine : Bool), s.chip.callReady n 0x0061 = true → s.chip.hanks.tab ≠ [] → ∃ c : Chip, exec (.lcRequest n genuine) s =
        .next (s.cutSettled c) ∧ c.answered n .denied = true ∧ c.lcs = s.chip.lcs) ∧
    (∀ (s : State) (n : Nat) (genuine : Bool), s.chip.callReady n 0x0061 = true → s.chip.hanks.tab = [] → s.chip.get F.PLY_STATUS_LEASE = 0 →
        (s.chip.callAt n).map (fun k => numAt k.args 0 1) = some 2 → s.chip.lcState = 1 → s.chip.lcs.record = none → s.chip.lcs.used < 31 →
        s.chip.otp.busy = false → s.chip.get F.LCS_STATUS_BUSY = 0 → s.chip.get F.PWR_STATUS_VIN_FUSE_OK = 1 → s.chip.cores.pend = [] → ∃ c : Chip,
        exec (.lcRequest n genuine) s = .next (s.cutSettled c) ∧ c.answered n .pending = true ∧ c.get F.LCS_STATUS_BUSY = 1 ∧ c.get F.LCS_STATE_NEXT
        = 2 ∧ c.lcs.target = 2 ∧ c.lcs.ticket = some s.chip.cores.ticket)

/-- CRY_CH_TAIL_WRITE (R268): the owner moves `TAIL`; a descriptor with an `OP` outside Table 10.3 completes with DENIED. -/
def Says.cryChTailWrite : Prop :=
    (∀ (s : State) (req : Req) (n : BitVec 5) (idx : BitVec 8), ∃ c : Chip, exec (.cryChTailWrite req n idx) s = .next (s.settled c) ∧ s.chip.Only
        ([Part.free, Part.tx, Part.pwr, Part.mem, Part.cry] ++ eventParts) ([F.PWR_STATUS_LAST_RESULT, F.PWR_GRP_STATUS_STATE, F.PWR_WAKE_CAUSE_COLD,
        F.SNG_STATUS_TEMP1, F.CRY_DRBG_STATUS_LAST, F.CRY_CHn_TAIL_IDX, F.CRY_CHn_HEAD_IDX, F.CRY_CHn_STATUS_LAST_ERR, F.CRY_CHn_KEYS_REG] ++
        eventRegs) c) ∧
    (∀ (s : State) (req : Req) (n : BitVec 5) (idx : BitVec 8), s.chip.opens req (R.CRY_CHn_TAIL n.toNat) true = true → cryOps.contains
        (s.chip.chRead n.toNat).op = true → ∃ c : Chip, exec (.cryChTailWrite req n idx) s = .next (s.settled c) ∧ c.geti F.CRY_CHn_TAIL_IDX n.toNat
        = min (2 ^ s.chip.geti F.CRY_CHn_CFG_LOG2 n.toNat - 1) idx.toNat ∧ c.cry = s.chip.cry)

/-- CRYPTO_OP_COMPLETE (R268, R270): a unit on a lane ends. -/
def Says.cryptoOpComplete : Prop :=
    (∀ (s : State) (n : BitVec 5) (idx : BitVec 8) (iter : Nat), ∃ c : Chip, exec (.cryptoOpComplete n idx iter) s = .next (s.settled c) ∧
        s.chip.Only ([Part.free, Part.tx, Part.mem, Part.cry] ++ eventParts) ([F.CRY_DRBG_STATUS_LAST, F.CRY_CHn_STATUS_LAST_ERR,
        F.CRY_CHn_KEYS_REG] ++ eventRegs) c) ∧
    (∀ (s : State) (n : BitVec 5) (idx : BitVec 8) (iter : Nat), (s.chip.ch n.toNat).fl = [] → ∃ c : Chip, exec (.cryptoOpComplete n idx iter) s =
        .next (s.settled c) ∧ c = s.chip) ∧
    (∀ (s : State) (n : BitVec 5) (idx : BitVec 8) (iter : Nat), (s.chip.ch n.toNat).fl =
        [{ idx := 0, desc := { op := 0x60 }, started := true, lane := some 0 }] → idx = 0 → ∃ c : Chip, exec (.cryptoOpComplete n idx iter) s = .next
        (s.settled c) ∧ (c.ch n.toNat).fl = [] ∧ c.geti F.CRY_CHn_STATUS_INFLIGHT n.toNat = 0)

/-- MLDSA_KEYGEN (R262, R263). -/
def Says.mldsaKeygen : Prop :=
    (∀ (s : State) (n : BitVec 5), ∃ c : Chip, exec (.mldsaKeygen n) s = .next (s.settled c) ∧ s.chip.Only ([Part.free, Part.tx, Part.mem,
        Part.cry] ++ eventParts) ([F.PWR_STATUS_LAST_RESULT, F.PWR_GRP_STATUS_STATE, F.CRY_DRBG_STATUS_LAST, F.CRY_CHn_HEAD_IDX,
        F.CRY_CHn_STATUS_LAST_ERR, F.CRY_CHn_KEYS_REG] ++ eventRegs) c) ∧
    (∀ (s : State) (n : BitVec 5), s.chip.geti F.CRY_CHn_CFG_EN n.toNat = 0 → ∃ c : Chip, exec (.mldsaKeygen n) s = .next (s.settled c) ∧ c = s.chip)
        ∧
    (∀ (s : State) (n : BitVec 5), s.chip.cryOffered n.toNat 0x10 = true → s.chip.cryChecks n.toNat = true → s.chip.cryReady 0x10 = false → ∃ c :
        Chip, exec (.mldsaKeygen n) s = .next (s.settled c) ∧ (c.ch n.toNat).fl = [s.chip.cryQueued n.toNat] ∧ c.geti F.CRY_CHn_HEAD_IDX n.toNat =
        s.chip.cryNext n.toNat ∧ c.geti F.CRY_CHn_STATUS_INFLIGHT n.toNat = 1 ∧ c.grp 4 ≠ 0) ∧
    (∀ (s : State) (n : BitVec 5), s.chip.cryOffered n.toNat 0x10 = true → s.chip.cryChecks n.toNat = true → s.chip.cryReady 0x10 = true →
        s.chip.cryAlone n.toNat 0x10 = true → s.chip.cryKeyed n.toNat = true → ∃ c : Chip, exec (.mldsaKeygen n) s = .next (s.settled c) ∧ (c.ch
        n.toNat).fl = [s.chip.cryRan n.toNat []] ∧ c.geti F.CRY_CHn_HEAD_IDX n.toNat = s.chip.cryNext n.toNat)

/-- MLDSA_SIGN (R263). -/
def Says.mldsaSign : Prop :=
    (∀ (s : State) (n : BitVec 5), ∃ c : Chip, exec (.mldsaSign n) s = .next (s.settled c) ∧ s.chip.Only ([Part.free, Part.tx, Part.mem, Part.cry] ++
        eventParts) ([F.PWR_STATUS_LAST_RESULT, F.PWR_GRP_STATUS_STATE, F.CRY_DRBG_STATUS_LAST, F.CRY_CHn_HEAD_IDX, F.CRY_CHn_STATUS_LAST_ERR,
        F.CRY_CHn_KEYS_REG] ++ eventRegs) c) ∧
    (∀ (s : State) (n : BitVec 5), s.chip.geti F.CRY_CHn_CFG_EN n.toNat = 0 → ∃ c : Chip, exec (.mldsaSign n) s = .next (s.settled c) ∧ c = s.chip) ∧
    (∀ (s : State) (n : BitVec 5), s.chip.cryOffered n.toNat 0x11 = true → s.chip.cryChecks n.toNat = true → s.chip.cryReady 0x11 = false → ∃ c :
        Chip, exec (.mldsaSign n) s = .next (s.settled c) ∧ (c.ch n.toNat).fl = [s.chip.cryQueued n.toNat] ∧ c.geti F.CRY_CHn_HEAD_IDX n.toNat =
        s.chip.cryNext n.toNat ∧ c.geti F.CRY_CHn_STATUS_INFLIGHT n.toNat = 1 ∧ c.grp 4 ≠ 0) ∧
    (∀ (s : State) (n : BitVec 5), s.chip.cryOffered n.toNat 0x11 = true → s.chip.cryChecks n.toNat = true → s.chip.cryReady 0x11 = true →
        s.chip.cryAlone n.toNat 0x11 = true → s.chip.cryKeyed n.toNat = true → s.chip.get F.CRY_DRBG_STATUS_ERROR = 0 → s.chip.entNone = false → ∃ c
        : Chip, exec (.mldsaSign n) s = .next (s.settled c) ∧ (∃ rnd, (c.ch n.toNat).fl = [s.chip.cryRan n.toNat rnd]) ∧ c.geti F.CRY_CHn_HEAD_IDX
        n.toNat = s.chip.cryNext n.toNat)

/-- MLDSA_VERIFY (R263, R264). -/
def Says.mldsaVerify : Prop :=
    (∀ (s : State) (n : BitVec 5), ∃ c : Chip, exec (.mldsaVerify n) s = .next (s.settled c) ∧ s.chip.Only ([Part.free, Part.tx, Part.mem,
        Part.cry] ++ eventParts) ([F.PWR_STATUS_LAST_RESULT, F.PWR_GRP_STATUS_STATE, F.CRY_DRBG_STATUS_LAST, F.CRY_CHn_HEAD_IDX,
        F.CRY_CHn_STATUS_LAST_ERR, F.CRY_CHn_KEYS_REG] ++ eventRegs) c) ∧
    (∀ (s : State) (n : BitVec 5), s.chip.geti F.CRY_CHn_CFG_EN n.toNat = 0 → ∃ c : Chip, exec (.mldsaVerify n) s = .next (s.settled c) ∧ c = s.chip)
        ∧
    (∀ (s : State) (n : BitVec 5), s.chip.cryOffered n.toNat 0x12 = true → s.chip.cryChecks n.toNat = true → s.chip.cryReady 0x12 = false → ∃ c :
        Chip, exec (.mldsaVerify n) s = .next (s.settled c) ∧ (c.ch n.toNat).fl = [s.chip.cryQueued n.toNat] ∧ c.geti F.CRY_CHn_HEAD_IDX n.toNat =
        s.chip.cryNext n.toNat ∧ c.geti F.CRY_CHn_STATUS_INFLIGHT n.toNat = 1 ∧ c.grp 4 ≠ 0) ∧
    (∀ (s : State) (n : BitVec 5), s.chip.cryOffered n.toNat 0x12 = true → s.chip.cryChecks n.toNat = true → s.chip.cryReady 0x12 = true →
        s.chip.cryAlone n.toNat 0x12 = true → ∃ c : Chip, exec (.mldsaVerify n) s = .next (s.settled c) ∧ (c.ch n.toNat).fl = [s.chip.cryRan n.toNat
        []] ∧ c.geti F.CRY_CHn_HEAD_IDX n.toNat = s.chip.cryNext n.toNat)

/-- MLKEM_KEYGEN (R262). -/
def Says.mlkemKeygen : Prop :=
    (∀ (s : State) (n : BitVec 5), ∃ c : Chip, exec (.mlkemKeygen n) s = .next (s.settled c) ∧ s.chip.Only ([Part.free, Part.tx, Part.mem,
        Part.cry] ++ eventParts) ([F.PWR_STATUS_LAST_RESULT, F.PWR_GRP_STATUS_STATE, F.CRY_DRBG_STATUS_LAST, F.CRY_CHn_HEAD_IDX,
        F.CRY_CHn_STATUS_LAST_ERR, F.CRY_CHn_KEYS_REG] ++ eventRegs) c) ∧
    (∀ (s : State) (n : BitVec 5), s.chip.geti F.CRY_CHn_CFG_EN n.toNat = 0 → ∃ c : Chip, exec (.mlkemKeygen n) s = .next (s.settled c) ∧ c = s.chip)
        ∧
    (∀ (s : State) (n : BitVec 5), s.chip.cryOffered n.toNat 0x18 = true → s.chip.cryChecks n.toNat = true → s.chip.cryReady 0x18 = false → ∃ c :
        Chip, exec (.mlkemKeygen n) s = .next (s.settled c) ∧ (c.ch n.toNat).fl = [s.chip.cryQueued n.toNat] ∧ c.geti F.CRY_CHn_HEAD_IDX n.toNat =
        s.chip.cryNext n.toNat ∧ c.geti F.CRY_CHn_STATUS_INFLIGHT n.toNat = 1 ∧ c.grp 4 ≠ 0) ∧
    (∀ (s : State) (n : BitVec 5), s.chip.cryOffered n.toNat 0x18 = true → s.chip.cryChecks n.toNat = true → s.chip.cryReady 0x18 = true →
        s.chip.cryAlone n.toNat 0x18 = true → s.chip.cryKeyed n.toNat = true → ∃ c : Chip, exec (.mlkemKeygen n) s = .next (s.settled c) ∧ (c.ch
        n.toNat).fl = [s.chip.cryRan n.toNat []] ∧ c.geti F.CRY_CHn_HEAD_IDX n.toNat = s.chip.cryNext n.toNat)

/-- MLKEM_ENCAPS (R262). -/
def Says.mlkemEncaps : Prop :=
    (∀ (s : State) (n : BitVec 5), ∃ c : Chip, exec (.mlkemEncaps n) s = .next (s.settled c) ∧ s.chip.Only ([Part.free, Part.tx, Part.mem,
        Part.cry] ++ eventParts) ([F.PWR_STATUS_LAST_RESULT, F.PWR_GRP_STATUS_STATE, F.CRY_DRBG_STATUS_LAST, F.CRY_CHn_HEAD_IDX,
        F.CRY_CHn_STATUS_LAST_ERR, F.CRY_CHn_KEYS_REG] ++ eventRegs) c) ∧
    (∀ (s : State) (n : BitVec 5), s.chip.geti F.CRY_CHn_CFG_EN n.toNat = 0 → ∃ c : Chip, exec (.mlkemEncaps n) s = .next (s.settled c) ∧ c = s.chip)
        ∧
    (∀ (s : State) (n : BitVec 5), s.chip.cryOffered n.toNat 0x19 = true → s.chip.cryChecks n.toNat = true → s.chip.cryReady 0x19 = false → ∃ c :
        Chip, exec (.mlkemEncaps n) s = .next (s.settled c) ∧ (c.ch n.toNat).fl = [s.chip.cryQueued n.toNat] ∧ c.geti F.CRY_CHn_HEAD_IDX n.toNat =
        s.chip.cryNext n.toNat ∧ c.geti F.CRY_CHn_STATUS_INFLIGHT n.toNat = 1 ∧ c.grp 4 ≠ 0) ∧
    (∀ (s : State) (n : BitVec 5), s.chip.cryOffered n.toNat 0x19 = true → s.chip.cryChecks n.toNat = true → s.chip.cryReady 0x19 = true →
        s.chip.cryAlone n.toNat 0x19 = true → s.chip.get F.CRY_DRBG_STATUS_ERROR = 0 → s.chip.entNone = false → ∃ c : Chip, exec (.mlkemEncaps n) s =
        .next (s.settled c) ∧ (∃ rnd, (c.ch n.toNat).fl = [s.chip.cryRan n.toNat rnd]) ∧ c.geti F.CRY_CHn_HEAD_IDX n.toNat = s.chip.cryNext n.toNat)

/-- MLKEM_DECAPS (R262, R264). -/
def Says.mlkemDecaps : Prop :=
    (∀ (s : State) (n : BitVec 5), ∃ c : Chip, exec (.mlkemDecaps n) s = .next (s.settled c) ∧ s.chip.Only ([Part.free, Part.tx, Part.mem,
        Part.cry] ++ eventParts) ([F.PWR_STATUS_LAST_RESULT, F.PWR_GRP_STATUS_STATE, F.CRY_DRBG_STATUS_LAST, F.CRY_CHn_HEAD_IDX,
        F.CRY_CHn_STATUS_LAST_ERR, F.CRY_CHn_KEYS_REG] ++ eventRegs) c) ∧
    (∀ (s : State) (n : BitVec 5), s.chip.geti F.CRY_CHn_CFG_EN n.toNat = 0 → ∃ c : Chip, exec (.mlkemDecaps n) s = .next (s.settled c) ∧ c = s.chip)
        ∧
    (∀ (s : State) (n : BitVec 5), s.chip.cryOffered n.toNat 0x1A = true → s.chip.cryChecks n.toNat = true → s.chip.cryReady 0x1A = false → ∃ c :
        Chip, exec (.mlkemDecaps n) s = .next (s.settled c) ∧ (c.ch n.toNat).fl = [s.chip.cryQueued n.toNat] ∧ c.geti F.CRY_CHn_HEAD_IDX n.toNat =
        s.chip.cryNext n.toNat ∧ c.geti F.CRY_CHn_STATUS_INFLIGHT n.toNat = 1 ∧ c.grp 4 ≠ 0) ∧
    (∀ (s : State) (n : BitVec 5), s.chip.cryOffered n.toNat 0x1A = true → s.chip.cryChecks n.toNat = true → s.chip.cryReady 0x1A = true →
        s.chip.cryAlone n.toNat 0x1A = true → s.chip.cryKeyed n.toNat = true → ∃ c : Chip, exec (.mlkemDecaps n) s = .next (s.settled c) ∧ (c.ch
        n.toNat).fl = [s.chip.cryRan n.toNat []] ∧ c.geti F.CRY_CHn_HEAD_IDX n.toNat = s.chip.cryNext n.toNat)

/-- NTT, INTT and PMUL (R262). -/
def Says.ntt : Prop :=
    (∀ (s : State) (n : BitVec 5) (which : Fin 3), ∃ c : Chip, exec (.ntt n which) s = .next (s.settled c) ∧ s.chip.Only ([Part.free, Part.tx,
        Part.mem, Part.cry] ++ eventParts) ([F.PWR_STATUS_LAST_RESULT, F.PWR_GRP_STATUS_STATE, F.CRY_DRBG_STATUS_LAST, F.CRY_CHn_HEAD_IDX,
        F.CRY_CHn_STATUS_LAST_ERR, F.CRY_CHn_KEYS_REG] ++ eventRegs) c) ∧
    (∀ (s : State) (n : BitVec 5) (which : Fin 3), s.chip.geti F.CRY_CHn_CFG_EN n.toNat = 0 → ∃ c : Chip, exec (.ntt n which) s = .next (s.settled c)
        ∧ c = s.chip) ∧
    (∀ (s : State) (n : BitVec 5) (which : Fin 3), s.chip.cryOffered n.toNat (0x1C + which.val) = true → s.chip.cryChecks n.toNat = true →
        s.chip.cryReady (0x1C + which.val) = false → ∃ c : Chip, exec (.ntt n which) s = .next (s.settled c) ∧ (c.ch n.toNat).fl = [s.chip.cryQueued
        n.toNat] ∧ c.geti F.CRY_CHn_HEAD_IDX n.toNat = s.chip.cryNext n.toNat ∧ c.geti F.CRY_CHn_STATUS_INFLIGHT n.toNat = 1 ∧ c.grp 4 ≠ 0) ∧
    (∀ (s : State) (n : BitVec 5) (which : Fin 3), s.chip.cryOffered n.toNat (0x1C + which.val) = true → s.chip.cryChecks n.toNat = true →
        s.chip.cryReady (0x1C + which.val) = true → s.chip.cryAlone n.toNat (0x1C + which.val) = true → ∃ c : Chip, exec (.ntt n which) s = .next
        (s.settled c) ∧ (c.ch n.toNat).fl = [s.chip.cryRan n.toNat []] ∧ c.geti F.CRY_CHn_HEAD_IDX n.toNat = s.chip.cryNext n.toNat)

/-- ECC_KEYGEN (R262). -/
def Says.eccKeygen : Prop :=
    (∀ (s : State) (n : BitVec 5), ∃ c : Chip, exec (.eccKeygen n) s = .next (s.settled c) ∧ s.chip.Only ([Part.free, Part.tx, Part.mem, Part.cry] ++
        eventParts) ([F.PWR_STATUS_LAST_RESULT, F.PWR_GRP_STATUS_STATE, F.CRY_DRBG_STATUS_LAST, F.CRY_CHn_HEAD_IDX, F.CRY_CHn_STATUS_LAST_ERR,
        F.CRY_CHn_KEYS_REG] ++ eventRegs) c) ∧
    (∀ (s : State) (n : BitVec 5), s.chip.geti F.CRY_CHn_CFG_EN n.toNat = 0 → ∃ c : Chip, exec (.eccKeygen n) s = .next (s.settled c) ∧ c = s.chip) ∧
    (∀ (s : State) (n : BitVec 5), s.chip.cryOffered n.toNat 0x20 = true → s.chip.cryChecks n.toNat = true → s.chip.cryReady 0x20 = false → ∃ c :
        Chip, exec (.eccKeygen n) s = .next (s.settled c) ∧ (c.ch n.toNat).fl = [s.chip.cryQueued n.toNat] ∧ c.geti F.CRY_CHn_HEAD_IDX n.toNat =
        s.chip.cryNext n.toNat ∧ c.geti F.CRY_CHn_STATUS_INFLIGHT n.toNat = 1 ∧ c.grp 3 ≠ 0) ∧
    (∀ (s : State) (n : BitVec 5), s.chip.cryOffered n.toNat 0x20 = true → s.chip.cryChecks n.toNat = true → s.chip.cryReady 0x20 = true →
        s.chip.cryAlone n.toNat 0x20 = true → s.chip.get F.CRY_DRBG_STATUS_ERROR = 0 → s.chip.entNone = false → ∃ c : Chip, exec (.eccKeygen n) s =
        .next (s.settled c) ∧ (∃ rnd, (c.ch n.toNat).fl = [s.chip.cryRan n.toNat rnd]) ∧ c.geti F.CRY_CHn_HEAD_IDX n.toNat = s.chip.cryNext n.toNat)

/-- ECDSA_SIGN (R264). -/
def Says.ecdsaSign : Prop :=
    (∀ (s : State) (n : BitVec 5), ∃ c : Chip, exec (.ecdsaSign n) s = .next (s.settled c) ∧ s.chip.Only ([Part.free, Part.tx, Part.mem, Part.cry] ++
        eventParts) ([F.PWR_STATUS_LAST_RESULT, F.PWR_GRP_STATUS_STATE, F.CRY_DRBG_STATUS_LAST, F.CRY_CHn_HEAD_IDX, F.CRY_CHn_STATUS_LAST_ERR,
        F.CRY_CHn_KEYS_REG] ++ eventRegs) c) ∧
    (∀ (s : State) (n : BitVec 5), s.chip.geti F.CRY_CHn_CFG_EN n.toNat = 0 → ∃ c : Chip, exec (.ecdsaSign n) s = .next (s.settled c) ∧ c = s.chip) ∧
    (∀ (s : State) (n : BitVec 5), s.chip.cryOffered n.toNat 0x21 = true → s.chip.cryChecks n.toNat = true → s.chip.cryReady 0x21 = false → ∃ c :
        Chip, exec (.ecdsaSign n) s = .next (s.settled c) ∧ (c.ch n.toNat).fl = [s.chip.cryQueued n.toNat] ∧ c.geti F.CRY_CHn_HEAD_IDX n.toNat =
        s.chip.cryNext n.toNat ∧ c.geti F.CRY_CHn_STATUS_INFLIGHT n.toNat = 1 ∧ c.grp 3 ≠ 0) ∧
    (∀ (s : State) (n : BitVec 5), s.chip.cryOffered n.toNat 0x21 = true → s.chip.cryChecks n.toNat = true → s.chip.cryReady 0x21 = true →
        s.chip.cryAlone n.toNat 0x21 = true → s.chip.cryKeyed n.toNat = true → s.chip.get F.CRY_DRBG_STATUS_ERROR = 0 → s.chip.entNone = false → ∃ c
        : Chip, exec (.ecdsaSign n) s = .next (s.settled c) ∧ (∃ rnd, (c.ch n.toNat).fl = [s.chip.cryRan n.toNat rnd]) ∧ c.geti F.CRY_CHn_HEAD_IDX
        n.toNat = s.chip.cryNext n.toNat)

/-- ECDSA_VERIFY (R264). -/
def Says.ecdsaVerify : Prop :=
    (∀ (s : State) (n : BitVec 5), ∃ c : Chip, exec (.ecdsaVerify n) s = .next (s.settled c) ∧ s.chip.Only ([Part.free, Part.tx, Part.mem,
        Part.cry] ++ eventParts) ([F.PWR_STATUS_LAST_RESULT, F.PWR_GRP_STATUS_STATE, F.CRY_DRBG_STATUS_LAST, F.CRY_CHn_HEAD_IDX,
        F.CRY_CHn_STATUS_LAST_ERR, F.CRY_CHn_KEYS_REG] ++ eventRegs) c) ∧
    (∀ (s : State) (n : BitVec 5), s.chip.geti F.CRY_CHn_CFG_EN n.toNat = 0 → ∃ c : Chip, exec (.ecdsaVerify n) s = .next (s.settled c) ∧ c = s.chip)
        ∧
    (∀ (s : State) (n : BitVec 5), s.chip.cryOffered n.toNat 0x22 = true → s.chip.cryChecks n.toNat = true → s.chip.cryReady 0x22 = false → ∃ c :
        Chip, exec (.ecdsaVerify n) s = .next (s.settled c) ∧ (c.ch n.toNat).fl = [s.chip.cryQueued n.toNat] ∧ c.geti F.CRY_CHn_HEAD_IDX n.toNat =
        s.chip.cryNext n.toNat ∧ c.geti F.CRY_CHn_STATUS_INFLIGHT n.toNat = 1 ∧ c.grp 3 ≠ 0) ∧
    (∀ (s : State) (n : BitVec 5), s.chip.cryOffered n.toNat 0x22 = true → s.chip.cryChecks n.toNat = true → s.chip.cryReady 0x22 = true →
        s.chip.cryAlone n.toNat 0x22 = true → ∃ c : Chip, exec (.ecdsaVerify n) s = .next (s.settled c) ∧ (c.ch n.toNat).fl = [s.chip.cryRan n.toNat
        []] ∧ c.geti F.CRY_CHn_HEAD_IDX n.toNat = s.chip.cryNext n.toNat)

/-- ECDH (R264). -/
def Says.ecdh : Prop :=
    (∀ (s : State) (n : BitVec 5), ∃ c : Chip, exec (.ecdh n) s = .next (s.settled c) ∧ s.chip.Only ([Part.free, Part.tx, Part.mem, Part.cry] ++
        eventParts) ([F.PWR_STATUS_LAST_RESULT, F.PWR_GRP_STATUS_STATE, F.CRY_DRBG_STATUS_LAST, F.CRY_CHn_HEAD_IDX, F.CRY_CHn_STATUS_LAST_ERR,
        F.CRY_CHn_KEYS_REG] ++ eventRegs) c) ∧
    (∀ (s : State) (n : BitVec 5), s.chip.geti F.CRY_CHn_CFG_EN n.toNat = 0 → ∃ c : Chip, exec (.ecdh n) s = .next (s.settled c) ∧ c = s.chip) ∧
    (∀ (s : State) (n : BitVec 5), s.chip.cryOffered n.toNat 0x23 = true → s.chip.cryChecks n.toNat = true → s.chip.cryReady 0x23 = false → ∃ c :
        Chip, exec (.ecdh n) s = .next (s.settled c) ∧ (c.ch n.toNat).fl = [s.chip.cryQueued n.toNat] ∧ c.geti F.CRY_CHn_HEAD_IDX n.toNat =
        s.chip.cryNext n.toNat ∧ c.geti F.CRY_CHn_STATUS_INFLIGHT n.toNat = 1 ∧ c.grp 3 ≠ 0) ∧
    (∀ (s : State) (n : BitVec 5), s.chip.cryOffered n.toNat 0x23 = true → s.chip.cryChecks n.toNat = true → s.chip.cryReady 0x23 = true →
        s.chip.cryAlone n.toNat 0x23 = true → s.chip.cryKeyed n.toNat = true → ∃ c : Chip, exec (.ecdh n) s = .next (s.settled c) ∧ (c.ch n.toNat).fl
        = [s.chip.cryRan n.toNat []] ∧ c.geti F.CRY_CHn_HEAD_IDX n.toNat = s.chip.cryNext n.toNat)

/-- KMAC (R269). -/
def Says.kmac : Prop :=
    (∀ (s : State) (n : BitVec 5), ∃ c : Chip, exec (.kmac n) s = .next (s.settled c) ∧ s.chip.Only ([Part.free, Part.tx, Part.mem, Part.cry] ++
        eventParts) ([F.PWR_STATUS_LAST_RESULT, F.PWR_GRP_STATUS_STATE, F.CRY_DRBG_STATUS_LAST, F.CRY_CHn_HEAD_IDX, F.CRY_CHn_STATUS_LAST_ERR,
        F.CRY_CHn_KEYS_REG] ++ eventRegs) c) ∧
    (∀ (s : State) (n : BitVec 5), s.chip.geti F.CRY_CHn_CFG_EN n.toNat = 0 → ∃ c : Chip, exec (.kmac n) s = .next (s.settled c) ∧ c = s.chip) ∧
    (∀ (s : State) (n : BitVec 5), s.chip.cryOffered n.toNat 0x30 = true → s.chip.cryChecks n.toNat = true → s.chip.cryReady 0x30 = false → ∃ c :
        Chip, exec (.kmac n) s = .next (s.settled c) ∧ (c.ch n.toNat).fl = [s.chip.cryQueued n.toNat] ∧ c.geti F.CRY_CHn_HEAD_IDX n.toNat =
        s.chip.cryNext n.toNat ∧ c.geti F.CRY_CHn_STATUS_INFLIGHT n.toNat = 1 ∧ c.grp 1 ≠ 0) ∧
    (∀ (s : State) (n : BitVec 5), s.chip.cryOffered n.toNat 0x30 = true → s.chip.cryChecks n.toNat = true → s.chip.cryReady 0x30 = true →
        s.chip.cryAlone n.toNat 0x30 = true → s.chip.cryKeyed n.toNat = true → ∃ c : Chip, exec (.kmac n) s = .next (s.settled c) ∧ (c.ch n.toNat).fl
        = [s.chip.cryRan n.toNat []] ∧ c.geti F.CRY_CHn_HEAD_IDX n.toNat = s.chip.cryNext n.toNat)

/-- GCM_ENC (R265). -/
def Says.gcmEnc : Prop :=
    (∀ (s : State) (n : BitVec 5), ∃ c : Chip, exec (.gcmEnc n) s = .next (s.settled c) ∧ s.chip.Only ([Part.free, Part.tx, Part.mem, Part.cry] ++
        eventParts) ([F.PWR_STATUS_LAST_RESULT, F.PWR_GRP_STATUS_STATE, F.CRY_DRBG_STATUS_LAST, F.CRY_CHn_HEAD_IDX, F.CRY_CHn_STATUS_LAST_ERR,
        F.CRY_CHn_KEYS_REG] ++ eventRegs) c) ∧
    (∀ (s : State) (n : BitVec 5), s.chip.geti F.CRY_CHn_CFG_EN n.toNat = 0 → ∃ c : Chip, exec (.gcmEnc n) s = .next (s.settled c) ∧ c = s.chip) ∧
    (∀ (s : State) (n : BitVec 5), s.chip.cryOffered n.toNat 0x40 = true → s.chip.cryChecks n.toNat = true → s.chip.cryReady 0x40 = false → ∃ c :
        Chip, exec (.gcmEnc n) s = .next (s.settled c) ∧ (c.ch n.toNat).fl = [s.chip.cryQueued n.toNat] ∧ c.geti F.CRY_CHn_HEAD_IDX n.toNat =
        s.chip.cryNext n.toNat ∧ c.geti F.CRY_CHn_STATUS_INFLIGHT n.toNat = 1 ∧ c.grp 2 ≠ 0) ∧
    (∀ (s : State) (n : BitVec 5), s.chip.cryOffered n.toNat 0x40 = true → s.chip.cryChecks n.toNat = true → s.chip.cryReady 0x40 = true →
        s.chip.cryAlone n.toNat 0x40 = true → s.chip.cryKeyed n.toNat = true → ∃ c : Chip, exec (.gcmEnc n) s = .next (s.settled c) ∧ (c.ch
        n.toNat).fl = [s.chip.cryRan n.toNat []] ∧ c.geti F.CRY_CHn_HEAD_IDX n.toNat = s.chip.cryNext n.toNat)

/-- GCM_DEC (R265). -/
def Says.gcmDec : Prop :=
    (∀ (s : State) (n : BitVec 5), ∃ c : Chip, exec (.gcmDec n) s = .next (s.settled c) ∧ s.chip.Only ([Part.free, Part.tx, Part.mem, Part.cry] ++
        eventParts) ([F.PWR_STATUS_LAST_RESULT, F.PWR_GRP_STATUS_STATE, F.CRY_DRBG_STATUS_LAST, F.CRY_CHn_HEAD_IDX, F.CRY_CHn_STATUS_LAST_ERR,
        F.CRY_CHn_KEYS_REG] ++ eventRegs) c) ∧
    (∀ (s : State) (n : BitVec 5), s.chip.geti F.CRY_CHn_CFG_EN n.toNat = 0 → ∃ c : Chip, exec (.gcmDec n) s = .next (s.settled c) ∧ c = s.chip) ∧
    (∀ (s : State) (n : BitVec 5), s.chip.cryOffered n.toNat 0x41 = true → s.chip.cryChecks n.toNat = true → s.chip.cryReady 0x41 = false → ∃ c :
        Chip, exec (.gcmDec n) s = .next (s.settled c) ∧ (c.ch n.toNat).fl = [s.chip.cryQueued n.toNat] ∧ c.geti F.CRY_CHn_HEAD_IDX n.toNat =
        s.chip.cryNext n.toNat ∧ c.geti F.CRY_CHn_STATUS_INFLIGHT n.toNat = 1 ∧ c.grp 2 ≠ 0) ∧
    (∀ (s : State) (n : BitVec 5), s.chip.cryOffered n.toNat 0x41 = true → s.chip.cryChecks n.toNat = true → s.chip.cryReady 0x41 = true →
        s.chip.cryAlone n.toNat 0x41 = true → s.chip.cryKeyed n.toNat = true → ∃ c : Chip, exec (.gcmDec n) s = .next (s.settled c) ∧ (c.ch
        n.toNat).fl = [s.chip.cryRan n.toNat []] ∧ c.geti F.CRY_CHn_HEAD_IDX n.toNat = s.chip.cryNext n.toNat)

/-- CTR (R265). -/
def Says.ctr : Prop :=
    (∀ (s : State) (n : BitVec 5), ∃ c : Chip, exec (.ctr n) s = .next (s.settled c) ∧ s.chip.Only ([Part.free, Part.tx, Part.mem, Part.cry] ++
        eventParts) ([F.PWR_STATUS_LAST_RESULT, F.PWR_GRP_STATUS_STATE, F.CRY_DRBG_STATUS_LAST, F.CRY_CHn_HEAD_IDX, F.CRY_CHn_STATUS_LAST_ERR,
        F.CRY_CHn_KEYS_REG] ++ eventRegs) c) ∧
    (∀ (s : State) (n : BitVec 5), s.chip.geti F.CRY_CHn_CFG_EN n.toNat = 0 → ∃ c : Chip, exec (.ctr n) s = .next (s.settled c) ∧ c = s.chip) ∧
    (∀ (s : State) (n : BitVec 5), s.chip.cryOffered n.toNat 0x42 = true → s.chip.cryChecks n.toNat = true → s.chip.cryReady 0x42 = false → ∃ c :
        Chip, exec (.ctr n) s = .next (s.settled c) ∧ (c.ch n.toNat).fl = [s.chip.cryQueued n.toNat] ∧ c.geti F.CRY_CHn_HEAD_IDX n.toNat =
        s.chip.cryNext n.toNat ∧ c.geti F.CRY_CHn_STATUS_INFLIGHT n.toNat = 1 ∧ c.grp 2 ≠ 0) ∧
    (∀ (s : State) (n : BitVec 5), s.chip.cryOffered n.toNat 0x42 = true → s.chip.cryChecks n.toNat = true → s.chip.cryReady 0x42 = true →
        s.chip.cryAlone n.toNat 0x42 = true → s.chip.cryKeyed n.toNat = true → ∃ c : Chip, exec (.ctr n) s = .next (s.settled c) ∧ (c.ch n.toNat).fl
        = [s.chip.cryRan n.toNat []] ∧ c.geti F.CRY_CHn_HEAD_IDX n.toNat = s.chip.cryNext n.toNat)

/-- KW_WRAP (R269). -/
def Says.kwWrap : Prop :=
    (∀ (s : State) (n : BitVec 5), ∃ c : Chip, exec (.kwWrap n) s = .next (s.settled c) ∧ s.chip.Only ([Part.free, Part.tx, Part.mem, Part.cry] ++
        eventParts) ([F.PWR_STATUS_LAST_RESULT, F.PWR_GRP_STATUS_STATE, F.CRY_DRBG_STATUS_LAST, F.CRY_CHn_HEAD_IDX, F.CRY_CHn_STATUS_LAST_ERR,
        F.CRY_CHn_KEYS_REG] ++ eventRegs) c) ∧
    (∀ (s : State) (n : BitVec 5), s.chip.geti F.CRY_CHn_CFG_EN n.toNat = 0 → ∃ c : Chip, exec (.kwWrap n) s = .next (s.settled c) ∧ c = s.chip) ∧
    (∀ (s : State) (n : BitVec 5), s.chip.cryOffered n.toNat 0x43 = true → s.chip.cryChecks n.toNat = true → s.chip.cryReady 0x43 = false → ∃ c :
        Chip, exec (.kwWrap n) s = .next (s.settled c) ∧ (c.ch n.toNat).fl = [s.chip.cryQueued n.toNat] ∧ c.geti F.CRY_CHn_HEAD_IDX n.toNat =
        s.chip.cryNext n.toNat ∧ c.geti F.CRY_CHn_STATUS_INFLIGHT n.toNat = 1 ∧ c.grp 2 ≠ 0) ∧
    (∀ (s : State) (n : BitVec 5), s.chip.cryOffered n.toNat 0x43 = true → s.chip.cryChecks n.toNat = true → s.chip.cryReady 0x43 = true →
        s.chip.cryAlone n.toNat 0x43 = true → s.chip.cryKeyed n.toNat = true → (s.chip.chKey n.toNat ((s.chip.chRead n.toNat).arg % 4)).isSealed =
        false → (s.chip.chKey n.toNat ((s.chip.chRead n.toNat).arg % 4)).typ = 1 → ∃ c : Chip, exec (.kwWrap n) s = .next (s.settled c) ∧ (c.ch
        n.toNat).fl = [s.chip.cryRan n.toNat []] ∧ c.geti F.CRY_CHn_HEAD_IDX n.toNat = s.chip.cryNext n.toNat)

/-- KW_UNWRAP (R265). -/
def Says.kwUnwrap : Prop :=
    (∀ (s : State) (n : BitVec 5), ∃ c : Chip, exec (.kwUnwrap n) s = .next (s.settled c) ∧ s.chip.Only ([Part.free, Part.tx, Part.mem, Part.cry] ++
        eventParts) ([F.PWR_STATUS_LAST_RESULT, F.PWR_GRP_STATUS_STATE, F.CRY_DRBG_STATUS_LAST, F.CRY_CHn_HEAD_IDX, F.CRY_CHn_STATUS_LAST_ERR,
        F.CRY_CHn_KEYS_REG] ++ eventRegs) c) ∧
    (∀ (s : State) (n : BitVec 5), s.chip.geti F.CRY_CHn_CFG_EN n.toNat = 0 → ∃ c : Chip, exec (.kwUnwrap n) s = .next (s.settled c) ∧ c = s.chip) ∧
    (∀ (s : State) (n : BitVec 5), s.chip.cryOffered n.toNat 0x44 = true → s.chip.cryChecks n.toNat = true → s.chip.cryReady 0x44 = false → ∃ c :
        Chip, exec (.kwUnwrap n) s = .next (s.settled c) ∧ (c.ch n.toNat).fl = [s.chip.cryQueued n.toNat] ∧ c.geti F.CRY_CHn_HEAD_IDX n.toNat =
        s.chip.cryNext n.toNat ∧ c.geti F.CRY_CHn_STATUS_INFLIGHT n.toNat = 1 ∧ c.grp 2 ≠ 0) ∧
    (∀ (s : State) (n : BitVec 5), s.chip.cryOffered n.toNat 0x44 = true → s.chip.cryChecks n.toNat = true → s.chip.cryReady 0x44 = true →
        s.chip.cryAlone n.toNat 0x44 = true → s.chip.cryKeyed n.toNat = true → ∃ c : Chip, exec (.kwUnwrap n) s = .next (s.settled c) ∧ (c.ch
        n.toNat).fl = [s.chip.cryRan n.toNat []] ∧ c.geti F.CRY_CHn_HEAD_IDX n.toNat = s.chip.cryNext n.toNat)

/-- KEY_RANDOM (R270). -/
def Says.keyRandom : Prop :=
    (∀ (s : State) (n : BitVec 5), ∃ c : Chip, exec (.keyRandom n) s = .next (s.settled c) ∧ s.chip.Only ([Part.free, Part.tx, Part.mem, Part.cry] ++
        eventParts) ([F.PWR_STATUS_LAST_RESULT, F.PWR_GRP_STATUS_STATE, F.CRY_DRBG_STATUS_LAST, F.CRY_CHn_HEAD_IDX, F.CRY_CHn_STATUS_LAST_ERR,
        F.CRY_CHn_KEYS_REG] ++ eventRegs) c) ∧
    (∀ (s : State) (n : BitVec 5), s.chip.geti F.CRY_CHn_CFG_EN n.toNat = 0 → ∃ c : Chip, exec (.keyRandom n) s = .next (s.settled c) ∧ c = s.chip) ∧
    (∀ (s : State) (n : BitVec 5), s.chip.cryOffered n.toNat 0x50 = true → s.chip.cryChecks n.toNat = true → s.chip.cryAlone n.toNat 0x50 = true →
        s.chip.get F.CRY_DRBG_STATUS_ERROR = 0 → s.chip.entNone = false → ∃ c : Chip, exec (.keyRandom n) s = .next (s.settled c) ∧ (∃ rnd, (c.ch
        n.toNat).fl = [s.chip.cryRan n.toNat rnd]) ∧ c.geti F.CRY_CHn_HEAD_IDX n.toNat = s.chip.cryNext n.toNat)

/-- KEY_ERASE (R270). -/
def Says.keyErase : Prop :=
    (∀ (s : State) (n : BitVec 5), ∃ c : Chip, exec (.keyErase n) s = .next (s.settled c) ∧ s.chip.Only ([Part.free, Part.tx, Part.mem, Part.cry] ++
        eventParts) ([F.PWR_STATUS_LAST_RESULT, F.PWR_GRP_STATUS_STATE, F.CRY_DRBG_STATUS_LAST, F.CRY_CHn_HEAD_IDX, F.CRY_CHn_STATUS_LAST_ERR,
        F.CRY_CHn_KEYS_REG] ++ eventRegs) c) ∧
    (∀ (s : State) (n : BitVec 5), s.chip.geti F.CRY_CHn_CFG_EN n.toNat = 0 → ∃ c : Chip, exec (.keyErase n) s = .next (s.settled c) ∧ c = s.chip) ∧
    (∀ (s : State) (n : BitVec 5), s.chip.cryOffered n.toNat 0x51 = true → s.chip.cryChecks n.toNat = true → s.chip.cryAlone n.toNat 0x51 = true → ∃
        c : Chip, exec (.keyErase n) s = .next (s.settled c) ∧ (c.ch n.toNat).fl = [s.chip.cryRan n.toNat []] ∧ c.geti F.CRY_CHn_HEAD_IDX n.toNat =
        s.chip.cryNext n.toNat)

/-- KEY_DISTAFF (R268). -/
def Says.keyDistaff : Prop :=
    (∀ (s : State) (n : BitVec 5), ∃ c : Chip, exec (.keyDistaff n) s = .next (s.settled c) ∧ s.chip.Only ([Part.free, Part.tx, Part.mem,
        Part.cry] ++ eventParts) ([F.PWR_STATUS_LAST_RESULT, F.PWR_GRP_STATUS_STATE, F.CRY_DRBG_STATUS_LAST, F.CRY_CHn_HEAD_IDX,
        F.CRY_CHn_STATUS_LAST_ERR, F.CRY_CHn_KEYS_REG] ++ eventRegs) c) ∧
    (∀ (s : State) (n : BitVec 5), s.chip.geti F.CRY_CHn_CFG_EN n.toNat = 0 → ∃ c : Chip, exec (.keyDistaff n) s = .next (s.settled c) ∧ c = s.chip) ∧
    (∀ (s : State) (n : BitVec 5), s.chip.cryOffered n.toNat 0x52 = true → s.chip.cryChecks n.toNat = true → s.chip.cryAlone n.toNat 0x52 = true →
        s.chip.boot.alias_.isSome = true → ∃ c : Chip, exec (.keyDistaff n) s = .next (s.settled c) ∧ (c.ch n.toNat).fl = [s.chip.cryRan n.toNat []]
        ∧ c.geti F.CRY_CHn_HEAD_IDX n.toNat = s.chip.cryNext n.toNat)

/-- KEY_LOAD (R268). -/
def Says.keyLoad : Prop :=
    (∀ (s : State) (n : BitVec 5), ∃ c : Chip, exec (.keyLoad n) s = .next (s.settled c) ∧ s.chip.Only ([Part.free, Part.tx, Part.mem, Part.cry] ++
        eventParts) ([F.PWR_STATUS_LAST_RESULT, F.PWR_GRP_STATUS_STATE, F.CRY_DRBG_STATUS_LAST, F.CRY_CHn_HEAD_IDX, F.CRY_CHn_STATUS_LAST_ERR,
        F.CRY_CHn_KEYS_REG] ++ eventRegs) c) ∧
    (∀ (s : State) (n : BitVec 5), s.chip.geti F.CRY_CHn_CFG_EN n.toNat = 0 → ∃ c : Chip, exec (.keyLoad n) s = .next (s.settled c) ∧ c = s.chip) ∧
    (∀ (s : State) (n : BitVec 5), s.chip.cryOffered n.toNat 0x53 = true → s.chip.cryChecks n.toNat = true → s.chip.cryAlone n.toNat 0x53 = true → ∃
        c : Chip, exec (.keyLoad n) s = .next (s.settled c) ∧ (c.ch n.toNat).fl = [s.chip.cryRan n.toNat []] ∧ c.geti F.CRY_CHn_HEAD_IDX n.toNat =
        s.chip.cryNext n.toNat)

/-- RANDOM (R283). -/
def Says.random : Prop :=
    (∀ (s : State) (n : BitVec 5), ∃ c : Chip, exec (.random n) s = .next (s.settled c) ∧ s.chip.Only ([Part.free, Part.tx, Part.mem, Part.cry] ++
        eventParts) ([F.PWR_STATUS_LAST_RESULT, F.PWR_GRP_STATUS_STATE, F.CRY_DRBG_STATUS_LAST, F.CRY_CHn_HEAD_IDX, F.CRY_CHn_STATUS_LAST_ERR,
        F.CRY_CHn_KEYS_REG] ++ eventRegs) c) ∧
    (∀ (s : State) (n : BitVec 5), s.chip.geti F.CRY_CHn_CFG_EN n.toNat = 0 → ∃ c : Chip, exec (.random n) s = .next (s.settled c) ∧ c = s.chip) ∧
    (∀ (s : State) (n : BitVec 5), s.chip.cryOffered n.toNat 0x60 = true → s.chip.cryChecks n.toNat = true → s.chip.cryAlone n.toNat 0x60 = true →
        s.chip.get F.CRY_DRBG_STATUS_ERROR = 0 → s.chip.entNone = false → (s.chip.chRead n.toNat).outLen ≠ 0 → ∃ c : Chip, exec (.random n) s = .next
        (s.settled c) ∧ (∃ rnd, (c.ch n.toNat).fl = [s.chip.cryRan n.toNat rnd]) ∧ c.geti F.CRY_CHn_HEAD_IDX n.toNat = s.chip.cryNext n.toNat)

/-- OPEN (R272, R278). -/
def Says.dgtOpen : Prop :=
    (∀ (s : State) (req : Req) (n : BitVec 6) (value : Word), ∃ c : Chip, exec (.dgtOpen req n value) s = .next (s.settled c) ∧ s.chip.Only
        ([Part.tx, Part.pwr, Part.cry] ++ eventParts) ([F.PWR_STATUS_LAST_RESULT, F.PWR_GRP_STATUS_STATE, F.PWR_WAKE_CAUSE_COLD, F.SNG_STATUS_TEMP1,
        F.DGT_CTXn_CTRL_OUT_LEN, F.DGT_CTXn_STATUS_OWNER, F.DGT_ACTIVE_LO_CTX, F.DGT_ACTIVE_HI_CTX] ++ eventRegs) c) ∧
    (∀ (s : State) (req : Req) (n : BitVec 6) (value : Word), s.chip.opens req (R.DGT_CTXn_CTRL n.toNat) true = true → s.chip.cxSt n.toNat = 0 →
        s.chip.cxOpenStatus req n.toNat value = .ok → ∃ c : Chip, exec (.dgtOpen req n value) s = .next (s.settled c) ∧ c.cxOwner n.toNat = req.toNat
        ∧ (c.cx n.toNat).fed = [] ∧ c.cxSt n.toNat = (if wget 11 11 value = 0 ∧ s.chip.cxDecl n.toNat = 0 then 2 else 1) ∧ c.cxAlg n.toNat = wget 15
        12 value) ∧
    (∀ (s : State) (req : Req) (n : BitVec 6) (value : Word), s.chip.opens req (R.DGT_CTXn_CTRL n.toNat) true = true → s.chip.cxSt n.toNat ≠ 0 →
        s.chip.cxOwner n.toNat = req.toNat → ∃ c : Chip, exec (.dgtOpen req n value) s = .next (s.settled c) ∧ c.geti F.DGT_CTXn_STATUS_LAST n.toNat
        = Status.busy.code ∧ c.cxSt n.toNat = s.chip.cxSt n.toNat ∧ c.cry = s.chip.cry) ∧
    (∀ (s : State) (req : Req) (n : BitVec 6) (value : Word), s.chip.opens req (R.DGT_CTXn_CTRL n.toNat) true = true → s.chip.cxSt n.toNat ≠ 0 →
        s.chip.cxOwner n.toNat ≠ req.toNat → ∃ c : Chip, exec (.dgtOpen req n value) s = .next (s.settled c) ∧ c = s.chip.refuse 0x1601 req
        (R.DGT_CTXn_CTRL n.toNat) true 0)

/-- FINAL (R275, R278); without effect on a FREE context. -/
def Says.dgtFinal : Prop :=
    (∀ (s : State) (req : Req) (n : BitVec 6), ∃ c : Chip, exec (.dgtFinal req n) s = .next (s.settled c) ∧ s.chip.Only ([Part.tx, Part.pwr,
        Part.cry] ++ eventParts) ([F.PWR_STATUS_LAST_RESULT, F.PWR_GRP_STATUS_STATE, F.PWR_WAKE_CAUSE_COLD, F.SNG_STATUS_TEMP1,
        F.DGT_CTXn_STATUS_OWNER] ++ eventRegs) c) ∧
    (∀ (s : State) (req : Req) (n : BitVec 6), s.chip.opens req (R.DGT_CTXn_CTRL n.toNat) true = true → s.chip.cxOwner n.toNat = req.toNat →
        s.chip.grp 1 = 2 → bit (s.chip.get F.PWR_GRP_CTRL_DISABLE) 0 = false → s.chip.cxSt n.toNat = 1 → s.chip.cxFixed n.toNat = true → (s.chip.cx
        n.toNat).fed.length < s.chip.cxDecl n.toNat → ∃ c : Chip, exec (.dgtFinal req n) s = .next (s.settled c) ∧ c.cxSt n.toNat = 4 ∧ c.geti
        F.DGT_CTXn_STATUS_LAST n.toNat = Status.lengthShort.code ∧ (c.cx n.toNat).result = []) ∧
    (∀ (s : State) (req : Req) (n : BitVec 6), s.chip.opens req (R.DGT_CTXn_CTRL n.toNat) true = true → s.chip.cxOwner n.toNat = req.toNat →
        s.chip.grp 1 = 2 → bit (s.chip.get F.PWR_GRP_CTRL_DISABLE) 0 = false → s.chip.cxSt n.toNat = 2 → ∃ c : Chip, exec (.dgtFinal req n) s = .next
        (s.settled c) ∧ c.cxSt n.toNat = 3 ∧ c.geti F.DGT_CTXn_STATUS_LAST n.toNat = Status.ok.code ∧ c.cry = s.chip.cry) ∧
    (∀ (s : State) (req : Req) (n : BitVec 6), s.chip.opens req (R.DGT_CTXn_CTRL n.toNat) true = true → s.chip.cxOwner n.toNat = req.toNat →
        s.chip.grp 1 = 3 → s.chip.cxSt n.toNat = 1 → ∃ c : Chip, exec (.dgtFinal req n) s = .next (s.settled c) ∧ c.cxSt n.toNat = 1 ∧ c.geti
        F.DGT_CTXn_STATUS_LAST n.toNat = Status.poweredDown.code ∧ c.cry = s.chip.cry)

/-- CLOSE (R278): a context in any state but FREE is erased. -/
def Says.dgtClose : Prop :=
    (∀ (s : State) (req : Req) (n : BitVec 6), ∃ c : Chip, exec (.dgtClose req n) s = .next (s.settled c) ∧ s.chip.Only ([Part.tx, Part.pwr,
        Part.cry] ++ eventParts) ([F.PWR_STATUS_LAST_RESULT, F.PWR_WAKE_CAUSE_COLD, F.SNG_STATUS_TEMP1, F.DGT_ACTIVE_LO_CTX, F.DGT_ACTIVE_HI_CTX,
        ctxRegs] ++ eventRegs) c) ∧
    (∀ (s : State) (req : Req) (n : BitVec 6), s.chip.opens req (R.DGT_CTXn_CTRL n.toNat) true = true → s.chip.cxOwner n.toNat = req.toNat →
        s.chip.cxSt n.toNat ≠ 0 → ∃ c : Chip, exec (.dgtClose req n) s = .next (s.settled c) ∧ c.cxSt n.toNat = 0 ∧ c.cx n.toNat = {} ∧ c.cxOwner
        n.toNat = 0) ∧
    (∀ (s : State) (req : Req) (n : BitVec 6), s.chip.opens req (R.DGT_CTXn_CTRL n.toNat) true = true → s.chip.cxSt n.toNat = 0 → ∃ c : Chip, exec
        (.dgtClose req n) s = .next (s.settled c) ∧ c = s.chip.wrote req)

/-- DGT_FEED (R273, R277): an aligned 32-bit or 64-bit store to a feed port. Bursts of a DMA channel are the channel's own. -/
def Says.dgtFeed : Prop :=
    (∀ (s : State) (req : Req) (n : BitVec 6) (data : List Byte), ∃ c : Chip, exec (.dgtFeed req n data) s = .next (s.settled c) ∧ s.chip.Only
        ([Part.tx, Part.pwr, Part.cry] ++ eventParts) ([F.PWR_STATUS_LAST_RESULT, F.PWR_WAKE_CAUSE_COLD, F.SNG_STATUS_TEMP1,
        F.DGT_CTXn_STATUS_OWNER] ++ eventRegs) c) ∧
    (∀ (s : State) (req : Req) (n : BitVec 6) (data : List Byte), s.chip.opens req (R.DGT_CTXn_FEED n.toNat) true = true → data.length ≠ 4 →
        data.length ≠ 8 → ∃ c : Chip, exec (.dgtFeed req n data) s = .next (s.settled c) ∧ c = s.chip.refuse 0x1204 req (R.DGT_CTXn_FEED n.toNat)
        true 0) ∧
    (∀ (s : State) (req : Req) (n : BitVec 6) (data : List Byte), s.chip.opens req (R.DGT_CTXn_FEED n.toNat) true = true → data.length = 4 →
        s.chip.cxSt n.toNat = 1 → s.chip.geti F.DGT_CTXn_CTRL_FEED_SRC n.toNat = 0 → s.chip.cxOwner n.toNat = req.toNat → s.chip.cxFixed n.toNat =
        false → ∃ c : Chip, exec (.dgtFeed req n data) s = .next (s.settled c) ∧ (c.cx n.toNat).fed = (s.chip.cx n.toNat).fed ++ data ∧ c.cxSt
        n.toNat = 1 ∧ c.tx = s.chip.tx ++ [.fabric req true 0]) ∧
    (∀ (s : State) (req : Req) (n : BitVec 6) (data : List Byte), s.chip.opens req (R.DGT_CTXn_FEED n.toNat) true = true → data.length = 4 →
        s.chip.geti F.DGT_CTXn_CTRL_FEED_SRC n.toNat ≠ 0 → ∃ c : Chip, exec (.dgtFeed req n data) s = .next (s.settled c) ∧ c.geti
        F.DGT_CTXn_STATUS_INTRUDED n.toNat = 1 ∧ c.cry = s.chip.cry ∧ c.tx = s.chip.tx ++ [.fabric req false 0])

/-- DIGEST_ABSORBED (R275). -/
def Says.digestAbsorbed : Prop :=
    (∀ (s : State) (n : BitVec 6), ∃ c : Chip, exec (.digestAbsorbed n) s = .next (s.settled c) ∧ s.chip.Only [.dbg, .cry] [F.DGT_CTXn_STATUS_OWNER]
        c) ∧
    (∀ (s : State) (n : BitVec 6), s.chip.cxSt n.toNat ≠ 1 → ∃ c : Chip, exec (.digestAbsorbed n) s = .next (s.settled c) ∧ c = s.chip) ∧
    (∀ (s : State) (n : BitVec 6), s.chip.cxSt n.toNat = 1 → s.chip.grp 1 = 2 → s.chip.cxFixed n.toNat = true → (s.chip.cx n.toNat).fed.length =
        s.chip.cxDecl n.toNat → ∃ c : Chip, exec (.digestAbsorbed n) s = .next (s.settled c) ∧ c.cxSt n.toNat = 2 ∧ c.geti F.DGT_CTXn_STATUS_LAST
        n.toNat = s.chip.geti F.DGT_CTXn_STATUS_LAST n.toNat ∧ (c.cx n.toNat).result = dgtHash (s.chip.cxAlg n.toNat) (s.chip.cxSoft n.toNat)
        (s.chip.cx n.toNat).fed (dgtLen (s.chip.cxAlg n.toNat) (s.chip.geti F.DGT_CTXn_CTRL_OUT_LEN n.toNat)))

/-- DGT_RESULT_READ (R276). -/
def Says.dgtResultRead : Prop :=
    (∀ (s : State) (req : Req) (n : BitVec 6), ∃ c : Chip, exec (.dgtResultRead req n) s = .next (s.settled c) ∧ s.chip.Only ([Part.tx, Part.pwr,
        Part.cry] ++ eventParts) ([F.PWR_STATUS_LAST_RESULT, F.PWR_WAKE_CAUSE_COLD, F.SNG_STATUS_TEMP1, F.DGT_CTXn_STATUS_OWNER] ++ eventRegs) c) ∧
    (∀ (s : State) (req : Req) (n : BitVec 6), s.chip.opens req (R.DGT_CTXn_RESULT n.toNat) false = true → s.chip.cxSt n.toNat = 3 → (s.chip.cx
        n.toNat).result.length ≤ 64 → ∃ c : Chip, exec (.dgtResultRead req n) s = .next (s.settled c) ∧ c.tx = s.chip.tx ++ [.fabric req true (numAt
        (s.chip.cx n.toNat).result (4 * s.chip.geti F.DGT_CTXn_STATUS_PTR n.toNat) 4)] ∧ c.geti F.DGT_CTXn_STATUS_PTR n.toNat = (if s.chip.geti
        F.DGT_CTXn_STATUS_PTR n.toNat + 1 < ((s.chip.cx n.toNat).result.length + 3) / 4 then s.chip.geti F.DGT_CTXn_STATUS_PTR n.toNat + 1 else 0)) ∧
    (∀ (s : State) (req : Req) (n : BitVec 6), s.chip.opens req (R.DGT_CTXn_RESULT n.toNat) false = true → s.chip.cxSt n.toNat ≠ 3 → ∃ c : Chip, exec
        (.dgtResultRead req n) s = .next (s.settled c) ∧ c.tx = s.chip.tx ++ [.fabric req true 0] ∧ c.geti F.DGT_CTXn_STATUS_EARLY n.toNat = 1 ∧
        c.geti F.DGT_CTXn_STATUS_LAST n.toNat = Status.earlyRead.code)

/-- TLY_OPEN (R285). -/
def Says.tlyOpen : Prop :=
    (∀ (s : State) (req : Req) (acc : BitVec 3), ∃ c : Chip, exec (.tlyOpen req acc) s = .next (s.settled c) ∧ s.chip.Only ([Part.free, Part.tx,
        Part.pwr, Part.cry] ++ eventParts) ([F.PWR_STATUS_LAST_RESULT, F.PWR_GRP_STATUS_STATE, F.PWR_WAKE_CAUSE_COLD, F.SNG_STATUS_TEMP1,
        F.CRY_DRBG_STATUS_LAST, F.TLY_STATUS_LAST, F.TLY_ACCn_STATUS_RESULT] ++ eventRegs) c) ∧
    (∀ (s : State) (req : Req) (acc : BitVec 3), s.chip.opens req R.TLY_CTRL true = true → s.chip.get F.TLY_STATUS_BUSY = 1 → s.chip.grp 5 ≠ 3 → bit
        (s.chip.get F.PWR_GRP_CTRL_DISABLE) 4 = false → s.chip.acSt acc.toNat = 0 → ((List.range 8).filter (fun k => s.chip.acSt k != 0)).foldl (fun
        m k => m + s.chip.acLen k) 0 + s.chip.acLen acc.toNat ≤ 32768 → s.chip.acLen acc.toNat ≤ 32768 → s.chip.geti F.TLY_ACCn_OWNERS_MASK acc.toNat
        ≠ 0 → s.chip.geti F.TLY_ACCn_CFG_FMT acc.toNat ≠ 3 → 8 * s.chip.geti F.TLY_ACCn_OUT_OFF acc.toNat + 32 + 8 * s.chip.acLen acc.toNat ≤
        0x100000 → ∃ c : Chip, exec (.tlyOpen req acc) s = .next (s.settled c) ∧ c.get F.TLY_STATUS_LAST = Status.busy.code ∧ c.cry = s.chip.cry) ∧
    (∀ (s : State) (req : Req) (acc : BitVec 3), s.chip.opens req R.TLY_CTRL true = true → s.chip.get F.TLY_STATUS_BUSY = 0 → s.chip.grp 5 ≠ 3 → bit
        (s.chip.get F.PWR_GRP_CTRL_DISABLE) 4 = false → s.chip.acSt acc.toNat = 0 → ((List.range 8).filter (fun k => s.chip.acSt k != 0)).foldl (fun
        m k => m + s.chip.acLen k) 0 + s.chip.acLen acc.toNat ≤ 32768 → s.chip.acLen acc.toNat ≤ 32768 → s.chip.geti F.TLY_ACCn_OWNERS_MASK acc.toNat
        ≠ 0 → s.chip.geti F.TLY_ACCn_CFG_FMT acc.toNat ≠ 3 → 8 * s.chip.geti F.TLY_ACCn_OUT_OFF acc.toNat + 32 + 8 * s.chip.acLen acc.toNat ≤
        0x100000 → s.chip.get F.CRY_DRBG_STATUS_ERROR = 0 → s.chip.entNone = false → ∃ c : Chip, exec (.tlyOpen req acc) s = .next (s.settled c) ∧
        c.acSt acc.toNat = 1 ∧ (c.ac acc.toNat).sums = List.replicate (s.chip.acLen acc.toNat) 0 ∧ c.get F.TLY_STATUS_LAST = Status.ok.code ∧ c.get
        F.TLY_STATUS_ACC = acc.toNat)

/-- TLY_ADD (R286 to R288). -/
def Says.tlyAdd : Prop :=
    (∀ (s : State) (req : Req) (acc : BitVec 3) (owner : BitVec 5), ∃ c : Chip, exec (.tlyAdd req acc owner) s = .next (s.settled c) ∧ s.chip.Only
        ([Part.tx, Part.pwr, Part.cry] ++ eventParts) ([F.PWR_STATUS_LAST_RESULT, F.PWR_GRP_STATUS_STATE, F.PWR_WAKE_CAUSE_COLD, F.SNG_STATUS_TEMP1,
        F.TLY_STATUS_LAST, F.TLY_ACCn_STATUS_RESULT] ++ eventRegs) c) ∧
    (∀ (s : State) (req : Req) (acc : BitVec 3) (owner : BitVec 5), s.chip.opens req R.TLY_CTRL true = true → s.chip.get F.TLY_STATUS_BUSY = 0 →
        s.chip.grp 5 ≠ 3 → bit (s.chip.get F.PWR_GRP_CTRL_DISABLE) 4 = false → s.chip.acSt acc.toNat = 1 → bit (s.chip.geti F.TLY_ACCn_OWNERS_MASK
        acc.toNat) owner.toNat = true → bit (s.chip.geti F.TLY_ACCn_RECEIVED_MASK acc.toNat) owner.toNat = false → s.chip.get F.TLY_SRC_LEN_BYTES =
        s.chip.acLen acc.toNat * tlySize (s.chip.geti F.TLY_ACCn_CFG_FMT acc.toNat) → ∃ c : Chip, exec (.tlyAdd req acc owner) s = .next (s.settled
        c) ∧ c.acSt acc.toNat = 2 ∧ (c.ac acc.toNat).owner = owner.toNat ∧ c.get F.TLY_STATUS_BUSY = 1 ∧ c.get F.TLY_STATUS_LAST = Status.ok.code) ∧
    (∀ (s : State) (req : Req) (acc : BitVec 3) (owner : BitVec 5), s.chip.opens req R.TLY_CTRL true = true → s.chip.get F.TLY_STATUS_BUSY = 0 →
        s.chip.grp 5 ≠ 3 → bit (s.chip.get F.PWR_GRP_CTRL_DISABLE) 4 = false → s.chip.acSt acc.toNat ≠ 1 → ∃ c : Chip, exec (.tlyAdd req acc owner) s
        = .next (s.settled c) ∧ c.get F.TLY_STATUS_LAST = Status.badArg.code ∧ c.cry = s.chip.cry ∧ c.acSt acc.toNat = s.chip.acSt acc.toNat)

/-- TLY_ADD_DONE (R288, R289): the contribution of the ADD that runs, once its group is on. -/
def Says.tlyAddDone : Prop :=
    (∀ (s : State) (data : List Byte) (good : Bool), ∃ c : Chip, exec (.tlyAddDone data good) s = .next (s.settled c) ∧ s.chip.Only ([Part.mem,
        Part.cry, Part.twist] ++ eventParts) ([F.DGT_TWn_STATUS_DEPART_CODE, F.TLY_STATUS_LAST, F.TLY_ACCn_RECEIVED_MASK, F.TLY_ACCn_STATUS_RESULT,
        F.TLY_ACCn_SAT_COUNT, F.TLY_ACCn_NAN_COUNT] ++ eventRegs) c) ∧
    (∀ (s : State) (data : List Byte) (good : Bool), (List.range 8).all (fun n => s.chip.acSt n != 2) = true → ∃ c : Chip, exec (.tlyAddDone data
        good) s = .next (s.settled c) ∧ c = s.chip) ∧
    (∀ (s : State) (data : List Byte) (good : Bool), s.chip.acSt 0 = 2 → s.chip.grp 5 = 2 → s.chip.tlySrc data good = none → ∃ c : Chip, exec
        (.tlyAddDone data good) s = .next (s.settled c) ∧ c.acSt 0 = 4 ∧ c.get F.TLY_STATUS_BUSY = 0 ∧ c.geti F.TLY_ACCn_STATUS_RESULT 0 =
        Status.integrity.code ∧ c.get F.TLY_STATUS_LAST = Status.integrity.code) ∧
    (∀ (s : State) (data : List Byte) (good : Bool), s.chip.acSt 0 = 2 → s.chip.grp 5 = 2 → (s.chip.tlySrc data good).isSome = true → (s.chip.ac
        0).owner < 32 → withBit (s.chip.geti F.TLY_ACCn_RECEIVED_MASK 0) (s.chip.ac 0).owner true ≠ s.chip.geti F.TLY_ACCn_OWNERS_MASK 0 → ∃ c :
        Chip, exec (.tlyAddDone data good) s = .next (s.settled c) ∧ c.acSt 0 = 1 ∧ c.get F.TLY_STATUS_BUSY = 0 ∧ c.geti F.TLY_ACCn_RECEIVED_MASK 0 =
        withBit (s.chip.geti F.TLY_ACCn_RECEIVED_MASK 0) (s.chip.ac 0).owner true ∧ (c.ac 0).sums.length = s.chip.acLen 0)

/-- TLY_ABORT (R288, R293). -/
def Says.tlyAbort : Prop :=
    (∀ (s : State) (req : Req) (acc : BitVec 3), ∃ c : Chip, exec (.tlyAbort req acc) s = .next (s.settled c) ∧ s.chip.Only ([Part.tx, Part.pwr,
        Part.cry] ++ eventParts) ([F.PWR_STATUS_LAST_RESULT, F.PWR_WAKE_CAUSE_COLD, F.SNG_STATUS_TEMP1, F.TLY_STATUS_LAST, F.TLY_ACCn_RECEIVED_MASK,
        F.TLY_ACCn_STATUS_RESULT, F.TLY_ACCn_SAT_COUNT, F.TLY_ACCn_NAN_COUNT] ++ eventRegs) c) ∧
    (∀ (s : State) (req : Req) (acc : BitVec 3), s.chip.opens req R.TLY_CTRL true = true → s.chip.get F.TLY_STATUS_BUSY = 1 → s.chip.acSt acc.toNat ≠
        2 → ∃ c : Chip, exec (.tlyAbort req acc) s = .next (s.settled c) ∧ c.get F.TLY_STATUS_LAST = Status.busy.code ∧ c.cry = s.chip.cry) ∧
    (∀ (s : State) (req : Req) (acc : BitVec 3), s.chip.opens req R.TLY_CTRL true = true → (s.chip.get F.TLY_STATUS_BUSY = 0 ∨ s.chip.acSt acc.toNat
        = 2) → ∃ c : Chip, exec (.tlyAbort req acc) s = .next (s.settled c) ∧ c.acSt acc.toNat = 0 ∧ (s.chip.acSt acc.toNat ≠ 0 → c.ac acc.toNat =
        {}) ∧ c.get F.TLY_STATUS_LAST = Status.ok.code)

/-- TLY_RELEASE (R288). -/
def Says.tlyRelease : Prop :=
    (∀ (s : State) (req : Req) (acc : BitVec 3), ∃ c : Chip, exec (.tlyRelease req acc) s = .next (s.settled c) ∧ s.chip.Only ([Part.tx, Part.pwr,
        Part.cry] ++ eventParts) ([F.PWR_STATUS_LAST_RESULT, F.PWR_WAKE_CAUSE_COLD, F.SNG_STATUS_TEMP1, F.TLY_STATUS_LAST, F.TLY_ACCn_RECEIVED_MASK,
        F.TLY_ACCn_STATUS_RESULT, F.TLY_ACCn_SAT_COUNT, F.TLY_ACCn_NAN_COUNT] ++ eventRegs) c) ∧
    (∀ (s : State) (req : Req) (acc : BitVec 3), s.chip.opens req R.TLY_CTRL true = true → s.chip.get F.TLY_STATUS_BUSY = 0 → (s.chip.acSt acc.toNat
        = 3 ∨ s.chip.acSt acc.toNat = 4) → ∃ c : Chip, exec (.tlyRelease req acc) s = .next (s.settled c) ∧ c.acSt acc.toNat = 0 ∧ c.ac acc.toNat =
        {} ∧ c.get F.TLY_STATUS_LAST = Status.ok.code) ∧
    (∀ (s : State) (req : Req) (acc : BitVec 3), s.chip.opens req R.TLY_CTRL true = true → s.chip.get F.TLY_STATUS_BUSY = 0 → s.chip.acSt acc.toNat =
        1 → ∃ c : Chip, exec (.tlyRelease req acc) s = .next (s.settled c) ∧ c.acSt acc.toNat = 1 ∧ c.get F.TLY_STATUS_LAST = Status.badArg.code ∧
        c.cry = s.chip.cry)

/-- TLY_DIGEST_READ (R289). -/
def Says.tlyDigestRead : Prop :=
    (∀ (s : State) (req : Req) (acc : BitVec 3), ∃ c : Chip, exec (.tlyDigestRead req acc) s = .next (s.settled c) ∧ s.chip.Only ([Part.tx, Part.pwr,
        Part.cry] ++ eventParts) ([F.PWR_STATUS_LAST_RESULT, F.PWR_WAKE_CAUSE_COLD, F.SNG_STATUS_TEMP1, F.TLY_STATUS_LAST] ++ eventRegs) c) ∧
    (∀ (s : State) (req : Req) (acc : BitVec 3), s.chip.opens req (R.TLY_ACCn_DIGEST acc.toNat) false = true → s.chip.acSt acc.toNat = 3 → ∃ c :
        Chip, exec (.tlyDigestRead req acc) s = .next (s.settled c) ∧ c.tx = s.chip.tx ++ [.fabric req true (numAt (s.chip.ac acc.toNat).digest (4 *
        (s.chip.ac acc.toNat).word) 4)] ∧ (c.ac acc.toNat).word = (if (s.chip.ac acc.toNat).word < 11 then (s.chip.ac acc.toNat).word + 1 else 0)) ∧
    (∀ (s : State) (req : Req) (acc : BitVec 3), s.chip.opens req (R.TLY_ACCn_DIGEST acc.toNat) false = true → s.chip.acSt acc.toNat ≠ 3 → ∃ c :
        Chip, exec (.tlyDigestRead req acc) s = .next (s.settled c) ∧ c.tx = s.chip.tx ++ [.fabric req true 0] ∧ c.get F.TLY_STATUS_LAST =
        Status.earlyRead.code)

/-- ENTROPY_HEALTH_FAIL (R281, R282): 1,024 samples of a source that delivers fail a health test. -/
def Says.entropyHealthFail : Prop :=
    (∀ (s : State) (source : Bool) (window : List Byte), s.chip.entSt (srcOf source) ≠ 0 → ∃ c : Chip, exec (.entropyHealthFail source window) s =
        .next (s.cutSettled c) ∧ c = s.chip) ∧
    (∀ (s : State) (source : Bool) (window : List Byte), s.chip.svcUp = true → s.chip.entSt (srcOf source) = 0 → healthFails window = true → tget?
        s.chip.cry.failAt (srcOf source) = none → ∃ c : Chip, exec (.entropyHealthFail source window) s = .next (s.cutSettled c) ∧ c.entSt (srcOf
        source) = 1 ∧ tget? c.cry.failAt (srcOf source) = some s.chip.slot) ∧
    (∀ (s : State) (source : Bool) (window : List Byte), s.chip.svcUp = true → s.chip.entSt (srcOf source) = 0 → healthFails window = true → tget?
        s.chip.cry.failAt (srcOf source) = some s.chip.slot → s.chip.entSt (1 - srcOf source) ≠ 3 → ∃ c : Chip, exec (.entropyHealthFail source
        window) s = .next (s.cutSettled c) ∧ c.entSt (srcOf source) = 3) ∧
    (∀ (s : State) (source : Bool) (window : List Byte), s.chip.svcUp = true → s.chip.entSt (srcOf source) = 0 → healthFails window = true → tget?
        s.chip.cry.failAt (srcOf source) = some s.chip.slot → s.chip.entSt (1 - srcOf source) = 3 → ∃ c : Chip, exec (.entropyHealthFail source
        window) s = .next (s.cutSettled c) ∧ c.gone = true ∧ c.lastAon = some 0x3A01)

/-- ENTROPY_RETEST_DONE (R281, R282): the start-up test of a source in RETEST or CALIBRATING ends over 1,024 samples. -/
def Says.entropyRetestDone : Prop :=
    (∀ (s : State) (source : Bool) (window : List Byte), s.chip.entSt (srcOf source) = 0 → ∃ c : Chip, exec (.entropyRetestDone source window) s =
        .next (s.cutSettled c) ∧ c = s.chip) ∧
    (∀ (s : State) (source : Bool) (window : List Byte), s.chip.svcUp = true → s.chip.entSt (srcOf source) = 1 → healthFails window = false → ∃ c :
        Chip, exec (.entropyRetestDone source window) s = .next (s.cutSettled c) ∧ c.entSt (srcOf source) = 0 ∧ c.cry.retest.contains (srcOf source)
        = false) ∧
    (∀ (s : State) (source : Bool) (window : List Byte), s.chip.svcUp = true → s.chip.entSt (srcOf source) = 1 → s.chip.cry.retest.contains (srcOf
        source) = true → healthFails window = true → s.chip.entSt (1 - srcOf source) ≠ 3 → ∃ c : Chip, exec (.entropyRetestDone source window) s =
        .next (s.cutSettled c) ∧ c.entSt (srcOf source) = 3)

/-- ENTROPY_CALIBRATE (R282). -/
def Says.entropyCalibrate : Prop :=
    (∀ (s : State) (req : Req) (source : Bool), ∃ c : Chip, exec (.entropyCalibrate req source) s = .next (s.settled c) ∧ s.chip.Only ([Part.tx,
        Part.pwr] ++ eventParts) ([F.PWR_STATUS_LAST_RESULT, F.PWR_WAKE_CAUSE_COLD, F.SNG_STATUS_TEMP1, F.CRY_ENT_CAL1] ++ eventRegs) c) ∧
    (∀ (s : State) (req : Req) (source : Bool), s.chip.opens req R.CRY_ENT true = true → s.chip.entSt (1 - srcOf source) = 0 → s.chip.entSt (srcOf
        source) ≠ 3 → ∃ c : Chip, exec (.entropyCalibrate req source) s = .next (s.settled c) ∧ c.entSt (srcOf source) = 2) ∧
    (∀ (s : State) (req : Req) (source : Bool), s.chip.opens req R.CRY_ENT true = true → s.chip.entSt (1 - srcOf source) ≠ 0 → ∃ c : Chip, exec
        (.entropyCalibrate req source) s = .next (s.settled c) ∧ c = s.chip.wrote req)

/-- DRBG_KAT_FAIL (R284). -/
def Says.drbgKatFail : Prop :=
    (∀ (s : State), s.chip.svcUp = false → ∃ c : Chip, exec .drbgKatFail s = .next (s.cutSettled c) ∧ c = s.chip) ∧
    (∀ (s : State), s.chip.svcUp = true → s.chip.cry.kat = 0 → ∃ c : Chip, exec .drbgKatFail s = .next (s.cutSettled c) ∧ c.get
        F.CRY_DRBG_STATUS_READY = 0 ∧ c.get F.CRY_DRBG_STATUS_ERROR = 1 ∧ c.cry.kat = 1) ∧
    (∀ (s : State), s.chip.svcUp = true → s.chip.cry.kat ≠ 0 → ∃ c : Chip, exec .drbgKatFail s = .next (s.cutSettled c) ∧ c.gone = true ∧ c.lastAon =
        some 0x3A03)

/-- SELFTEST_REQUEST (R291): `CRY_SELFTEST.REQ` written 1. -/
def Says.selftestRequest : Prop :=
    (∀ (s : State) (req : Req) (cls lane : BitVec 4), ∃ c : Chip, exec (.selftestRequest req cls lane) s = .next (s.settled c) ∧ s.chip.Only
        ([Part.tx, Part.pwr, Part.cry] ++ eventParts) ([F.PWR_STATUS_LAST_RESULT, F.PWR_GRP_STATUS_STATE, F.PWR_WAKE_CAUSE_COLD, F.SNG_STATUS_TEMP1,
        F.CRY_LANES0_SHA2, F.CRY_LANES1_TLY, F.CRY_SELFTEST_REQ] ++ eventRegs) c) ∧
    (∀ (s : State) (req : Req) (cls lane : BitVec 4), s.chip.opens req R.CRY_SELFTEST true = true → cls = 6 → ∃ c : Chip, exec (.selftestRequest req
        cls lane) s = .next (s.settled c) ∧ c.get F.CRY_SELFTEST_LAST = Status.pending.code ∧ c.cry.asked = s.chip.cry.asked ++ [(6, 0)] ∧ c.get
        F.CRY_SELFTEST_CLASS = 6) ∧
    (∀ (s : State) (req : Req) (cls lane : BitVec 4), s.chip.opens req R.CRY_SELFTEST true = true → cls = 0 → lane = 0 → s.chip.cryDown 0x10 = false
        → s.chip.laneSt 0 0 = 0 → 2 ≤ (s.chip.laneFree 0).length → ∃ c : Chip, exec (.selftestRequest req cls lane) s = .next (s.settled c) ∧
        c.laneSt 0 0 = 1 ∧ c.get F.CRY_SELFTEST_LAST = Status.pending.code ∧ c.cry.asked = s.chip.cry.asked ++ [(0, 0)]) ∧
    (∀ (s : State) (req : Req) (cls lane : BitVec 4), s.chip.opens req R.CRY_SELFTEST true = true → 6 < cls.toNat → ∃ c : Chip, exec
        (.selftestRequest req cls lane) s = .next (s.settled c) ∧ c.get F.CRY_SELFTEST_LAST = Status.badArg.code ∧ c.get F.CRY_SELFTEST_CLASS =
        s.chip.get F.CRY_SELFTEST_CLASS ∧ c.cry = s.chip.cry)

/-- SELFTEST_PERIODIC (R291). -/
def Says.selftestPeriodic : Prop :=
    (∀ (s : State), ∃ c : Chip, exec .selftestPeriodic s = .next (s.settled c) ∧ s.chip.Only ([Part.cry] ++ eventParts) ([F.PWR_STATUS_LAST_RESULT,
        F.PWR_GRP_STATUS_STATE, F.CRY_LANES0_SHA2, F.CRY_LANES1_TLY] ++ eventRegs) c) ∧
    (∀ (s : State), s.chip.get F.CRY_CTRL_SELFTEST_EN = 0 → ∃ c : Chip, exec .selftestPeriodic s = .next (s.settled c) ∧ c = s.chip) ∧
    (∀ (s : State), s.chip.svcUp = true → s.chip.get F.CRY_CTRL_SELFTEST_EN = 1 → s.chip.periodDue = true → s.chip.laneNext 0 = some 0 → s.chip.grp 4
        ≠ 3 → bit (s.chip.get F.PWR_GRP_CTRL_DISABLE) 3 = false → 2 ≤ (s.chip.laneFree 0).length → ∃ c : Chip, exec .selftestPeriodic s = .next
        (s.settled c) ∧ c.laneSt 0 0 = 1)

/-- LANE_DRAINED (R291). -/
def Says.laneDrained : Prop :=
    (∀ (s : State) (cls lane : Nat), ∃ c : Chip, exec (.laneDrained cls lane) s = .next (s.settled c) ∧ s.chip.Only [.dbg] [F.CRY_LANES0_SHA2,
        F.CRY_LANES1_TLY] c) ∧
    (∀ (s : State) (cls lane : Nat), s.chip.laneSt cls lane ≠ 1 → ∃ c : Chip, exec (.laneDrained cls lane) s = .next (s.settled c) ∧ c = s.chip) ∧
    (∀ (s : State) (cls lane : Nat), s.chip.svcUp = true → cls ≤ 5 → lane < laneCount cls → s.chip.laneSt cls lane = 1 → ∃ c : Chip, exec
        (.laneDrained cls lane) s = .next (s.settled c) ∧ c.laneSt cls lane = 2)

/-- LANE_TEST_DONE (R291). -/
def Says.laneTestDone : Prop :=
    (∀ (s : State) (cls lane : Nat) (pass : Bool), s.chip.svcUp = true → cls ≤ 5 → lane < laneCount cls → s.chip.laneSt cls lane = 2 → s.chip.grp
        (laneGroup cls) = 2 → pass = true → ∃ c : Chip, exec (.laneTestDone cls lane pass) s = .next (s.cutSettled c) ∧ c.laneSt cls lane = 0) ∧
    (∀ (s : State) (cls lane : Nat) (pass : Bool), s.chip.svcUp = true → cls ≤ 5 → lane < laneCount cls → s.chip.laneSt cls lane = 2 → s.chip.grp
        (laneGroup cls) = 2 → pass = false → (List.range (laneCount cls)).any (fun k => k != lane && s.chip.laneSt cls k != 3) = true → ∃ c : Chip,
        exec (.laneTestDone cls lane pass) s = .next (s.cutSettled c) ∧ c.laneSt cls lane = 3) ∧
    (∀ (s : State) (cls lane : Nat) (pass : Bool), s.chip.svcUp = true → cls = 5 → lane = 0 → s.chip.laneSt 5 0 = 2 → s.chip.grp 5 = 2 → pass = false
        → ∃ c : Chip, exec (.laneTestDone cls lane pass) s = .next (s.cutSettled c) ∧ c.gone = true ∧ c.lastAon = some 0x3A02)

/-- LANE_FAULT (R291). -/
def Says.laneFault : Prop :=
    (∀ (s : State) (cls lane : Nat) (unit : LaneUnit), ∃ c : Chip, exec (.laneFault cls lane unit) s = .next (s.settled c) ∧ s.chip.Only ([Part.free,
        Part.tx, Part.mem, Part.cry] ++ eventParts) ([F.CRY_LANES0_SHA2, F.CRY_LANES1_TLY, F.CRY_DRBG_STATUS_LAST, F.CRY_CHn_STATUS_LAST_ERR,
        F.CRY_CHn_KEYS_REG, F.DGT_CTXn_STATUS_OWNER, F.TLY_STATUS_LAST, F.TLY_ACCn_STATUS_RESULT] ++ eventRegs) c) ∧
    (∀ (s : State) (cls lane : Nat) (unit : LaneUnit), s.chip.laneSt cls lane ≠ 0 → ∃ c : Chip, exec (.laneFault cls lane unit) s = .next (s.settled
        c) ∧ c = s.chip) ∧
    (∀ (s : State) (cls lane : Nat) (unit : LaneUnit), s.chip.svcUp = true → cls ≤ 5 → lane < laneCount cls → s.chip.laneSt cls lane = 0 → unit =
        .idle → ∃ c : Chip, exec (.laneFault cls lane unit) s = .next (s.settled c) ∧ c.laneSt cls lane = 2)

/-- FABRIC_ACCESS_ERROR (R29, R134): an access of `size` bytes at the target port of a wrong size, alignment or range, or with requester number 0 or
0xF0 to 0xFF; one that R29 admits is no such command. -/
def Says.fabricAccessError : Prop :=
    (∀ (s : State) (req : Req) (addr size : Nat) (write : Bool), ∃ c : Chip, exec (.fabricAccessError req addr size write) s = .next (s.after c) ∧
        s.chip.Only ([Part.tx] ++ eventParts) eventRegs c) ∧
    (∀ (s : State) (req : Req) (addr size : Nat) (write : Bool), (shapeOk addr size write = false ∨ req.toNat = 0 ∨ 0xF0 ≤ req.toNat) → ∃ c : Chip,
        exec (.fabricAccessError req addr size write) s = .next (s.after c) ∧ c.tx = s.chip.tx ++ [.fabric req false 0]) ∧
    (∀ (s : State) (req : Req) (addr size : Nat) (write : Bool), shapeOk addr size write = true → req.toNat ≠ 0 → req.toNat < 0xF0 → ∃ c : Chip, exec
        (.fabricAccessError req addr size write) s = .next (s.after c) ∧ c = s.chip)

/-- PAGE_ACCESS_REFUSED (R14): an access that Table 1.5 does not grant, with `REQ_SEC` as `sec` says; one that it grants is no such command. -/
def Says.pageAccessRefused : Prop :=
    (∀ (s : State) (req : Req) (off : Nat) (write sec : Bool), ∃ c : Chip, exec (.pageAccessRefused req off write sec) s = .next (s.after c) ∧
        s.chip.Only ([Part.tx, Part.pins, Part.pwr] ++ eventParts) ([F.PWR_STATUS_LAST_RESULT, F.PWR_WAKE_CAUSE_COLD, F.SNG_STATUS_TEMP1] ++
        eventRegs) c) ∧
    (∀ (s : State) (req : Req) (off : Nat) (write sec : Bool), sec = s.chip.pins.reqSec → s.chip.opens req off write = true → ∃ c : Chip, exec
        (.pageAccessRefused req off write sec) s = .next (s.after c) ∧ c = s.chip) ∧
    (∀ (s : State) (req : Req) (off : Nat) (write sec : Bool), sec = s.chip.pins.reqSec → badReq req = false → s.chip.powered off = true →
        s.chip.granted req off write = false → ∃ c : Chip, exec (.pageAccessRefused req off write sec) s = .next (s.after c) ∧ c = s.chip.refuse
        0x1601 req off write 0)

/-- RETRAIN (R47). -/
def Says.retrain : Prop :=
    (∀ (s : State) (req : Req), ∃ c : Chip, exec (.retrain req) s = .next (s.after c) ∧ s.chip.Only ([Part.tx, Part.pwr] ++ eventParts)
        ([F.PWR_STATUS_LAST_RESULT, F.PWR_WAKE_CAUSE_COLD, F.SNG_STATUS_TEMP1, F.SKN_STATUS_BREAK_B] ++ eventRegs) c) ∧
    (∀ (s : State) (req : Req), s.chip.opens req R.SKN_CTRL true = true → ∃ c : Chip, exec (.retrain req) s = .next (s.after c) ∧ c.get
        F.SKN_STATUS_CW_LOCK = 0 ∧ c.get F.SKN_STATUS_CC_LOCK = 0) ∧
    (∀ (s : State) (req : Req), s.chip.powered R.SKN_CTRL = true → s.chip.granted req R.SKN_CTRL true = false → ∃ c : Chip, exec (.retrain req) s =
        .next (s.after c) ∧ c.get F.SKN_STATUS_CW_LOCK = s.chip.get F.SKN_STATUS_CW_LOCK ∧ c.get F.SKN_STATUS_CC_LOCK = s.chip.get
        F.SKN_STATUS_CC_LOCK)

/-- RING_EN (R47). -/
def Says.ringEn : Prop :=
    (∀ (s : State) (req : Req) (value : Bool), ∃ c : Chip, exec (.ringEn req value) s = .next (s.after c) ∧ s.chip.Only ([Part.free, Part.tx,
        Part.ring, Part.pins, Part.pwr, Part.whl] ++ eventParts) ([F.PWR_STATUS_LAST_RESULT, F.PWR_WAKE_CAUSE_COLD, F.SNG_STATUS_TEMP1,
        F.SKN_CTRL_CFG_LOCK, F.SKN_STATUS_BREAK_B] ++ eventRegs) c) ∧
    (∀ (s : State) (req : Req) (value : Bool), s.chip.opens req R.SKN_CTRL true = true → value = true → ∃ c : Chip, exec (.ringEn req value) s =
        .next (s.after c) ∧ c.get F.SKN_CTRL_RING_EN = 1 ∧ c.ring = s.chip.ring ∧ c.pins = s.chip.pins) ∧
    (∀ (s : State) (req : Req) (value : Bool), s.chip.opens req R.SKN_CTRL true = true → value = false → ∃ c : Chip, exec (.ringEn req value) s =
        .next (s.after c) ∧ c.get F.SKN_CTRL_RING_EN = 0 ∧ c.get F.SKN_STATUS_CW_LOCK = 0 ∧ c.get F.SKN_STATUS_CC_LOCK = 0 ∧ c.pins.spliceHold =
        false ∧ c.ring.splice = (if s.chip.ring.splice = .opening ∨ s.chip.ring.splice = .inRing then .closing else s.chip.ring.splice))

/-- PREKEY_CLEAR (R40): `PREKEY` is write 1 to clear. -/
def Says.prekeyClear : Prop :=
    (∀ (s : State) (req : Req), ∃ c : Chip, exec (.prekeyClear req) s = .next (s.after c) ∧ s.chip.Only ([Part.tx, Part.pwr] ++ eventParts)
        ([F.PWR_STATUS_LAST_RESULT, F.PWR_WAKE_CAUSE_COLD, F.SNG_STATUS_TEMP1, F.SKN_CTRL_CFG_LOCK] ++ eventRegs) c) ∧
    (∀ (s : State) (req : Req), s.chip.opens req R.SKN_CTRL true = true → ∃ c : Chip, exec (.prekeyClear req) s = .next (s.after c) ∧ c.get
        F.SKN_CTRL_PREKEY = 0 ∧ c.get F.SKN_CTRL_RING_EN = s.chip.get F.SKN_CTRL_RING_EN ∧ c.ring = s.chip.ring)

/-- SKN_BRIDGE_WRITE (R45). -/
def Says.sknBridgeWrite : Prop :=
    (∀ (s : State) (req : Req) (n : Nat) (value : Word), ∃ c : Chip, exec (.sknBridgeWrite req n value) s = .next (s.after c) ∧ s.chip.Only
        ([Part.tx, Part.ring, Part.pwr] ++ eventParts) ([F.PWR_STATUS_LAST_RESULT, F.PWR_WAKE_CAUSE_COLD, F.SNG_STATUS_TEMP1, F.SKN_BRIDGE0_NODES,
        F.SKN_BRIDGE1_NODES, F.SKN_BRIDGE2_NODES] ++ eventRegs) c) ∧
    (∀ (s : State) (req : Req) (n : Nat) (value : Word), s.chip.opens req (R.SKN_BRIDGE0 + 4 * min n 2) true = true → ∃ c : Chip, exec
        (.sknBridgeWrite req n value) s = .next (s.after c) ∧ c.get (bridgeField (min n 2)) = value.toNat % ((bridgeField (min n 2)).top + 1))

/-- SKEIN_FRAME_RECEIVE (R39): a frame arrives on the ring. -/
def Says.skeinFrameReceive : Prop :=
    (∀ (s : State) (bytes : List Byte), (s.chip.svcUp = false ∨ s.chip.get F.SKN_CTRL_RING_EN = 0) → ∃ c : Chip, exec (.skeinFrameReceive bytes) s =
        .next (s.cutAfter c) ∧ c = s.chip) ∧
    (∀ (s : State) (bytes : List Byte), s.chip.svcUp = true → s.chip.get F.SKN_CTRL_RING_EN = 1 → parseFrame bytes = none → ∃ c : Chip, exec
        (.skeinFrameReceive bytes) s = .next (s.cutAfter c) ∧ c.ring = s.chip.ring ∧ c.tx = s.chip.tx) ∧
    (∀ (s : State) (bytes : List Byte), s.chip.svcUp = true → s.chip.get F.SKN_CTRL_RING_EN = 1 → (parseFrame bytes).any (fun f => f.src ==
        s.chip.node) = true → ∃ c : Chip, exec (.skeinFrameReceive bytes) s = .next (s.cutAfter c) ∧ c.ring = s.chip.ring ∧ c.tx = s.chip.tx) ∧
    (∀ (s : State) (bytes : List Byte), s.chip.svcUp = true → s.chip.get F.SKN_CTRL_RING_EN = 1 → (parseFrame bytes).any (fun f => f.src !=
        s.chip.node && !bit f.flags 5 && f.dst != s.chip.node) = true → ∃ c : Chip, exec (.skeinFrameReceive bytes) s = .next (s.cutAfter c) ∧ c.ring
        = s.chip.ring ∧ (parseFrame bytes).map (fun f => s.chip.tx ++ [.ringForward f]) = some c.tx) ∧
    (∀ (s : State) (bytes : List Byte), s.chip.svcUp = true → s.chip.get F.SKN_CTRL_RING_EN = 1 → s.chip.get F.SKN_CTRL_PREKEY = 1 → (parseFrame
        bytes).any (fun f => f.src != s.chip.node && !bit f.flags 5 && f.dst == s.chip.node && !preKey f.typ) = true → ∃ c : Chip, exec
        (.skeinFrameReceive bytes) s = .next (s.cutAfter c) ∧ c.ring = s.chip.ring ∧ c.tx = s.chip.tx) ∧
    (∀ (s : State) (bytes : List Byte), s.chip.svcUp = true → s.chip.get F.SKN_CTRL_RING_EN = 1 → s.chip.get F.SKN_CTRL_PREKEY = 1 → (parseFrame
        bytes).any (fun f => f.src != s.chip.node && !bit f.flags 5 && f.dst == s.chip.node && preKey f.typ && f.typ != 0x7E && (s.chip.rx f.src
        f.rkey).fresh f.seq) = true → ∃ c : Chip, exec (.skeinFrameReceive bytes) s = .next (s.cutAfter c) ∧ (parseFrame bytes).map (fun f =>
        s.chip.ring.inbox ++ [⟨f.typ, f.src, f.seq, s.chip.time, f.payload⟩]) = some c.ring.inbox) ∧
    (∀ (s : State) (bytes : List Byte), s.chip.svcUp = true → s.chip.get F.SKN_CTRL_RING_EN = 1 → s.chip.get F.SKN_CTRL_PREKEY = 1 → (parseFrame
        bytes).any (fun f => f.src != s.chip.node && !bit f.flags 5 && f.dst == s.chip.node && preKey f.typ && f.typ != 0x7E && !(s.chip.rx f.src
        f.rkey).fresh f.seq) = true → ∃ c : Chip, exec (.skeinFrameReceive bytes) s = .next (s.cutAfter c) ∧ c.ring.inbox = s.chip.ring.inbox ∧
        c.ring.replay = s.chip.ring.replay)

/-- AUTH_FAIL_WINDOW_END (R44, R518): the windows of 1,024 slots start again. -/
def Says.authFailWindowEnd : Prop :=
    (∀ (s : State), ∃ c : Chip, exec .authFailWindowEnd s = .next (s.after c) ∧ s.chip.Only [.ring, .dbg] [F.SKN_AUTH_FAIL_LIFETIME] c) ∧
    (∀ (s : State), ∃ c : Chip, exec .authFailWindowEnd s = .next (s.after c) ∧ c.ring =
        { s.chip.ring with fails := [], fwdSeen := [], fwdBad := [] } ∧ c.get F.SKN_AUTH_FAIL_WINDOW = 0)

/-- RING_ACK (R42): result 0x00 or 0x01 releases the held frame; 0x02 leaves it to its retry. -/
def Says.ringAck : Prop :=
    (∀ (s : State), ∃ c : Chip, exec .ringAck s = .next (s.after c) ∧ s.chip.Only [.ring] [] c) ∧
    (∀ (s : State), s.chip.front 0x7E = none → ∃ c : Chip, exec .ringAck s = .next (s.after c) ∧ c = s.chip) ∧
    (∀ (s : State), (s.chip.front 0x7E).any (fun m => decide (numAt m.payload 4 1 ≤ 1)) = true → ∃ c : Chip, exec .ringAck s = .next (s.after c) ∧
        (s.chip.front 0x7E).all (fun m => decide (c.ring.held = s.chip.ring.held.filter (fun h => !(h.frame.seq == numAt m.payload 0 4 && h.frame.dst
        == m.src)))) = true) ∧
    (∀ (s : State), (s.chip.front 0x7E).any (fun m => decide (2 ≤ numAt m.payload 4 1)) = true → ∃ c : Chip, exec .ringAck s = .next (s.after c) ∧
        c.ring.held = s.chip.ring.held)

/-- RING_ACK_TIMEOUT (R42): the frame is resent, or given up and reported to its unit as BUSY. -/
def Says.ringAckTimeout : Prop :=
    (∀ (s : State) (seq : Nat), ∃ c : Chip, exec (.ringAckTimeout seq) s = .next (s.settled c) ∧ s.chip.Only ([Part.tx, Part.ring, Part.cust,
        Part.whl, Part.ply] ++ eventParts) ([F.WHL_Ln_UNCONFIRMED_COUNT, F.DST_CACHE_STAT_PINNED] ++ eventRegs) c) ∧
    (∀ (s : State) (seq : Nat), s.chip.ringLive = false → ∃ c : Chip, exec (.ringAckTimeout seq) s = .next (s.settled c) ∧ c = s.chip) ∧
    (∀ (s : State) (seq : Nat), s.chip.ringLive = true → (s.chip.ring.held.find? (fun h => h.frame.seq == seq)).any (fun h => decide (h.tries <
        s.chip.get F.SKN_RETRY_CFG_MAX_TRY)) = true → ∃ c : Chip, exec (.ringAckTimeout seq) s = .next (s.settled c) ∧ c.tx.length =
        s.chip.tx.length + (s.chip.ring.held.filter (fun h => h.frame.seq == seq)).length ∧ c.ring.held.length = s.chip.ring.held.length) ∧
    (∀ (s : State) (seq : Nat), s.chip.ringLive = true → (s.chip.ring.held.find? (fun h => h.frame.seq == seq)).any (fun h => decide (s.chip.get
        F.SKN_RETRY_CFG_MAX_TRY ≤ h.tries) && h.frame.typ != 0x03) = true → ∃ c : Chip, exec (.ringAckTimeout seq) s = .next (s.settled c) ∧ c.tx =
        s.chip.tx ∧ c.ring.lost.length = s.chip.ring.lost.length + 1 ∧ c.ring.held = s.chip.ring.held.filter (fun h => h.frame.seq != seq))

/-- EVENT_FWD (R518): only the lease holder takes it. -/
def Says.eventFwd : Prop :=
    (∀ (s : State), ∃ c : Chip, exec .eventFwd s = .next (s.settled c) ∧ s.chip.Only ([Part.ring, Part.cust] ++ eventParts) ([F.BOB_JSEQ_LO_SEQ,
        F.BOB_JSEQ_HI_SEQ, F.BOB_LIMIT_SUM_COUNT] ++ eventRegs) c) ∧
    (∀ (s : State), s.chip.leads = false → ∃ c : Chip, exec .eventFwd s = .next (s.settled c) ∧ c.ring.fwdSeen = s.chip.ring.fwdSeen ∧ c.ring.fwdBad
        = s.chip.ring.fwdBad ∧ c.logs = s.chip.logs) ∧
    (∀ (s : State), s.chip.leads = true → (s.chip.front 0x60).any (fun m => s.chip.present m.src && numAt m.payload 9 1 == m.src && fwdCodes.contains
        (numAt m.payload 10 2) && decide (tget s.chip.ring.fwdSeen m.src 0 < 64)) = true → ∃ c : Chip, exec .eventFwd s = .next (s.settled c) ∧
        (s.chip.front 0x60).all (fun m => tget c.ring.fwdSeen m.src 0 == tget s.chip.ring.fwdSeen m.src 0 + 1) = true ∧ c.ring.fwdBad =
        s.chip.ring.fwdBad)

/-- RING_STATE (R42, R43, Table 2.6): a break, or a mended segment. The other end's notice of the same change adds nothing. -/
def Says.ringState : Prop :=
    (∀ (s : State), ∃ c : Chip, exec .ringState s = .next (s.settled c) ∧ s.chip.Only ([Part.tx, Part.ring] ++ eventParts) ([F.SKN_STATUS_BREAK_B,
        F.SKN_PRESENT0_NODES, F.SKN_PRESENT1_NODES, F.SKN_PRESENT2_NODES] ++ eventRegs) c) ∧
    (∀ (s : State), (s.chip.front 0x70).any (fun m => numAt m.payload 0 1 == 1 && !s.chip.brokenAt (numAt m.payload 1 1) (numAt m.payload 2 1)) =
        true → ∃ c : Chip, exec .ringState s = .next (s.settled c) ∧ c.get F.SKN_STATUS_BREAK = 1 ∧ (s.chip.front 0x70).all (fun m => c.get
        F.SKN_STATUS_BREAK_A == numAt m.payload 1 1 && c.get F.SKN_STATUS_BREAK_B == numAt m.payload 2 1) = true) ∧
    (∀ (s : State), (s.chip.front 0x70).any (fun m => numAt m.payload 0 1 == 2 && s.chip.ring.breaks == [(numAt m.payload 1 1, numAt m.payload 2 1)]
        && decide (numAt m.payload 1 1 < 66) && decide (numAt m.payload 2 1 < 66)) = true → ∃ c : Chip, exec .ringState s = .next (s.settled c) ∧
        c.get F.SKN_STATUS_BREAK = 0 ∧ c.get F.SKN_STATUS_BREAK_A = 0xFF ∧ (s.chip.front 0x70).all (fun m => c.present (numAt m.payload 1 1) &&
        c.present (numAt m.payload 2 1)) = true)

/-- SPLICE_FORCE (R45): taken from the partner while its heartbeats say that it holds the lease (state LEAD), and, with no link to say so, from the
partner while this instance holds none (assumption 147); a bridge drops the hold, a release frees the node. -/
def Says.spliceForce : Prop :=
    (∀ (s : State), ∃ c : Chip, exec .spliceForce s = .next (s.after c) ∧ s.chip.Only [.ring, .pins] [] c) ∧
    (∀ (s : State), (s.chip.front 0x71).any (fun m => numAt m.payload 1 1 != s.chip.node || m.src != s.chip.partnerNode || s.chip.leads ||
        (s.chip.linked && !s.chip.ply.lost && s.chip.ply.partner != 5)) = true → ∃ c : Chip, exec .spliceForce s = .next (s.after c) ∧ c.ring.forced
        = s.chip.ring.forced ∧ c.ring.splice = s.chip.ring.splice ∧ c.pins = s.chip.pins) ∧
    (∀ (s : State), (s.chip.front 0x71).any (fun m => numAt m.payload 1 1 == s.chip.node && m.src == s.chip.partnerNode && !s.chip.leads &&
        (!s.chip.linked || s.chip.ply.lost || s.chip.ply.partner == 5) && numAt m.payload 0 1 == 1) = true → ∃ c : Chip, exec .spliceForce s = .next
        (s.after c) ∧ c.ring.forced = true ∧ c.pins.spliceHold = false) ∧
    (∀ (s : State), (s.chip.front 0x71).any (fun m => numAt m.payload 1 1 == s.chip.node && m.src == s.chip.partnerNode && !s.chip.leads &&
        (!s.chip.linked || s.chip.ply.lost || s.chip.ply.partner == 5) && numAt m.payload 0 1 == 2) = true → ∃ c : Chip, exec .spliceForce s = .next
        (s.after c) ∧ c.ring.forced = false ∧ c.pins = s.chip.pins)

/-- SPLICE_CLOSE (R45, Table 2.7): the bypass of a node has closed. This instance's own Splice goes to RETRAIN; a neighbour's closure is seen by the
loss of lock. -/
def Says.spliceClose : Prop :=
    (∀ (s : State) (node : Nat), ∃ c : Chip, exec (.spliceClose node) s = .next (s.settled c) ∧ s.chip.Only ([Part.tx, Part.ring] ++ eventParts)
        ([F.SKN_STATUS_BREAK_B, F.SKN_PRESENT0_NODES, F.SKN_PRESENT1_NODES, F.SKN_PRESENT2_NODES] ++ eventRegs) c) ∧
    (∀ (s : State) (node : Nat), node = s.chip.node → s.chip.ring.splice = .closing → ∃ c : Chip, exec (.spliceClose node) s = .next (s.settled c) ∧
        c.ring.splice = .retrain ∧ c.get F.SKN_STATUS_CW_LOCK = 0 ∧ c.get F.SKN_STATUS_CC_LOCK = 0) ∧
    (∀ (s : State) (node : Nat), node ≠ s.chip.node → s.chip.ring.splice = .inRing → s.chip.present node = true → s.chip.neighbour false = some node
        → ∃ c : Chip, exec (.spliceClose node) s = .next (s.settled c) ∧ c.present node = false) ∧
    (∀ (s : State) (node : Nat), node ≠ s.chip.node → s.chip.neighbour false ≠ some node → s.chip.neighbour true ≠ some node → ∃ c : Chip, exec
        (.spliceClose node) s = .next (s.settled c) ∧ c = s.chip)

/-- SEGMENT_RETRAINED (R45, Table 2.7): the segment between two live nodes carries frames again. At an end of it this instance regains lane lock and
sends the mended notice; with both segments trained an opening Splice is in the ring; a closed one is bridged by the segment that spans it, and by no
other Splice's. -/
def Says.segmentRetrained : Prop :=
    (∀ (s : State) (endA endB : Nat), ∃ c : Chip, exec (.segmentRetrained endA endB) s = .next (s.after c) ∧ s.chip.Only ([Part.free, Part.tx,
        Part.ring, Part.whl] ++ eventParts) ([F.SKN_STATUS_BREAK_B, F.SKN_PRESENT0_NODES, F.SKN_PRESENT1_NODES, F.SKN_PRESENT2_NODES] ++ eventRegs)
        c) ∧
    (∀ (s : State) (endA endB : Nat), s.chip.ring.splice = .retrain → endA ≠ s.chip.node → cwHops s.chip.pkg endA s.chip.node < cwHops s.chip.pkg
        endA endB → ∃ c : Chip, exec (.segmentRetrained endA endB) s = .next (s.after c) ∧ c.ring = { s.chip.ring with splice := .bridged }) ∧
    (∀ (s : State) (endA endB : Nat), (s.chip.ring.splice = .bridged ∨ s.chip.ring.splice = .closing) → ∃ c : Chip, exec (.segmentRetrained endA
        endB) s = .next (s.after c) ∧ c = s.chip) ∧
    (∀ (s : State) (endA endB : Nat), s.chip.ring.splice = .inRing → endB = s.chip.node → (s.chip.ring.breaks = [(endA, endB)] ∨ s.chip.ring.breaks =
        []) → ∃ c : Chip, exec (.segmentRetrained endA endB) s = .next (s.after c) ∧ c.get F.SKN_STATUS_CW_LOCK = 1 ∧ c.get F.SKN_STATUS_BREAK = 0 ∧
        c.ring.splice = .inRing) ∧
    (∀ (s : State) (endA endB : Nat), s.chip.ring.splice = .opening → endA = s.chip.node → endB ≠ s.chip.node → s.chip.get F.SKN_STATUS_CW_LOCK = 1 →
        ∃ c : Chip, exec (.segmentRetrained endA endB) s = .next (s.after c) ∧ c.get F.SKN_STATUS_CC_LOCK = 1 ∧ c.ring.splice = .inRing)

/-- NODE_READY (R46): this node, trained and powered and not forced, raises its hold; a neighbour that does so breaks the lane of its side until that
segment re-trains. -/
def Says.nodeReady : Prop :=
    (∀ (s : State) (node : Nat), ∃ c : Chip, exec (.nodeReady node) s = .next (s.after c) ∧ s.chip.Only [.ring, .pins, .dbg] [F.SKN_STATUS_BREAK_B]
        c) ∧
    (∀ (s : State) (node : Nat), node = s.chip.node → s.chip.ring.splice = .bridged → s.chip.ring.forced = false → s.chip.svcUp = true → s.chip.get
        F.SKN_CTRL_RING_EN = 1 → ∃ c : Chip, exec (.nodeReady node) s = .next (s.after c) ∧ c.pins = { s.chip.pins with spliceHold := true } ∧ c.ring
        = { s.chip.ring with splice := .opening }) ∧
    (∀ (s : State) (node : Nat), node = s.chip.node → s.chip.ring.forced = true → ∃ c : Chip, exec (.nodeReady node) s = .next (s.after c) ∧ c =
        s.chip) ∧
    (∀ (s : State) (node : Nat), node ≠ s.chip.node → s.chip.present node = true → ∃ c : Chip, exec (.nodeReady node) s = .next (s.after c) ∧ c =
        s.chip)

/-- MARKER_EMIT (R205). -/
def Says.markerEmit : Prop :=
    (∀ (s : State), ∃ c : Chip, exec .markerEmit s = .next (s.settled c) ∧ s.chip.Only [.tx, .whl] [] c) ∧
    (∀ (s : State), (s.chip.svcUp = false ∨ s.chip.get F.WHL_STATUS_IS_MASTER = 0 ∨ s.chip.get F.WHL_CTRL_MARKER_EN = 0 ∨ s.chip.get
        F.SKN_CTRL_RING_EN = 0) → ∃ c : Chip, exec .markerEmit s = .next (s.settled c) ∧ c = s.chip) ∧
    (∀ (s : State), s.chip.svcUp = true → s.chip.get F.WHL_STATUS_IS_MASTER = 1 → s.chip.get F.WHL_CTRL_MARKER_EN = 1 → s.chip.get F.SKN_CTRL_RING_EN
        = 1 → ∃ c : Chip, exec .markerEmit s = .next (s.settled c) ∧ c.tx = s.chip.tx ++ [.marker false (markerBytes s.chip.time 0 (s.chip.adjNow %
        (65536 : Int)).toNat s.chip.node (s.chip.get F.WHL_STATUS_XPKG_ALIGNED)), .marker true (markerBytes s.chip.time 0 (s.chip.adjNow % (65536 :
        Int)).toNat s.chip.node (s.chip.get F.WHL_STATUS_XPKG_ALIGNED))] ∧ c.whl.left = (if s.chip.get F.WHL_STATUS_XPKG_ALIGNED = 1 then
        s.chip.whl.left else s.chip.whl.left - s.chip.adjNow))

/-- MARKER_RECEIVE (R205, R206). -/
def Says.markerReceive : Prop :=
    (∀ (s : State) (cc : Bool) (bytes : List Byte), ∃ c : Chip, exec (.markerReceive cc bytes) s = .next (s.settled c) ∧ s.chip.Only ([Part.tx,
        Part.whl] ++ eventParts) ([F.WHL_STATUS_MASTER, F.WHL_ALIGN_MISSED] ++ eventRegs) c) ∧
    (∀ (s : State) (cc : Bool) (bytes : List Byte), (s.chip.svcUp = false ∨ s.chip.get F.SKN_CTRL_RING_EN = 0 ∨ numAt bytes 12 1 = s.chip.node) → ∃ c
        : Chip, exec (.markerReceive cc bytes) s = .next (s.settled c) ∧ c = s.chip) ∧
    (∀ (s : State) (cc : Bool) (bytes : List Byte), s.chip.svcUp = true → s.chip.get F.SKN_CTRL_RING_EN = 1 → crc16 (bytes.take 14) = numAt bytes 14
        2 → numAt bytes 12 1 ≠ s.chip.node → s.chip.ring.breaks = [] → s.chip.get F.WHL_STATUS_IS_MASTER = 0 → cc = true → ∃ c : Chip, exec
        (.markerReceive cc bytes) s = .next (s.settled c) ∧ c.whl = s.chip.whl ∧ c.tx.length = s.chip.tx.length + 1 ∧ c.get F.WHL_STATUS_MASTER =
        s.chip.get F.WHL_STATUS_MASTER) ∧
    (∀ (s : State) (cc : Bool) (bytes : List Byte), s.chip.svcUp = true → s.chip.get F.SKN_CTRL_RING_EN = 1 → crc16 (bytes.take 14) = numAt bytes 14
        2 → numAt bytes 12 1 ≠ s.chip.node → s.chip.ring.breaks = [] → s.chip.get F.WHL_STATUS_IS_MASTER = 0 → cc = false → ∃ c : Chip, exec
        (.markerReceive cc bytes) s = .next (s.settled c) ∧ c.whl.seen = s.chip.slot ∧ c.whl.adj = signed 16 (numAt bytes 10 2) ∧ c.get
        F.WHL_STATUS_MASTER = numAt bytes 12 1 ∧ c.get F.WHL_STATUS_XPKG_ALIGNED = numAt bytes 13 1 % 2) ∧
    (∀ (s : State) (cc : Bool) (bytes : List Byte), s.chip.svcUp = true → s.chip.get F.SKN_CTRL_RING_EN = 1 → crc16 (bytes.take 14) = numAt bytes 14
        2 → numAt bytes 12 1 ≠ s.chip.node → s.chip.ring.breaks = [] → s.chip.get F.WHL_STATUS_IS_MASTER = 1 → ∃ c : Chip, exec (.markerReceive cc
        bytes) s = .next (s.settled c) ∧ c.whl = s.chip.whl ∧ c.get F.WHL_STATUS_IS_MASTER = 1)

/-- SLOT_BOUNDARY_CORRECTION (R206). -/
def Says.slotBoundaryCorrection : Prop :=
    (∀ (s : State), ∃ c : Chip, exec .slotBoundaryCorrection s = .next (s.settled c) ∧ s.chip.Only [.time, .whl] [] c) ∧
    (∀ (s : State), (s.chip.svcUp = false ∨ s.chip.time % 256 ≠ 0) → ∃ c : Chip, exec .slotBoundaryCorrection s = .next (s.settled c) ∧ c = s.chip) ∧
    (∀ (s : State), s.chip.svcUp = true → s.chip.time % 256 = 0 → 0 ≤ s.chip.whl.adj - s.chip.whl.corr → ∃ c : Chip, exec .slotBoundaryCorrection s =
        .next (s.settled c) ∧ c.time = (s.chip.time + (s.chip.whl.adj - s.chip.whl.corr).toNat) % 2 ^ 64 ∧ c.whl.adj = 0 ∧ c.whl.corr = 0 ∧
        c.whl.hold = s.chip.whl.hold) ∧
    (∀ (s : State), s.chip.svcUp = true → s.chip.time % 256 = 0 → s.chip.whl.adj - s.chip.whl.corr < 0 → ∃ c : Chip, exec .slotBoundaryCorrection s =
        .next (s.settled c) ∧ c.time = s.chip.time ∧ c.whl.adj = 0 ∧ c.whl.corr = 0 ∧ c.whl.hold = s.chip.whl.hold + (s.chip.whl.adj -
        s.chip.whl.corr).natAbs)

/-- MARKER_TIMEOUT (R206). -/
def Says.markerTimeout : Prop :=
    (∀ (s : State), ∃ c : Chip, exec .markerTimeout s = .next (s.settled c) ∧ s.chip.Only ([Part.whl] ++ eventParts) ([F.WHL_STATUS_MASTER] ++
        eventRegs) c) ∧
    (∀ (s : State), (s.chip.get F.WHL_STATUS_IS_MASTER = 1 ∨ s.chip.get F.WHL_STATUS_ALIGN = 0 ∨ s.chip.slot < s.chip.whl.seen + 64) → ∃ c : Chip,
        exec .markerTimeout s = .next (s.settled c) ∧ c = s.chip) ∧
    (∀ (s : State), s.chip.svcUp = true → s.chip.get F.WHL_STATUS_IS_MASTER = 0 → s.chip.get F.WHL_STATUS_ALIGN ≠ 0 → s.chip.whl.seen + 64 ≤
        s.chip.slot → ∃ c : Chip, exec .markerTimeout s = .next (s.settled c) ∧ c.get F.WHL_STATUS_ALIGN = 0 ∧ c.whl = { s.chip.whl with good := 0 })

/-- XPKG_TIME_REPORT (R208). -/
def Says.xpkgTimeReport : Prop :=
    (∀ (s : State) (ch : Nat) (frame : WarpFrame), ∃ c : Chip, exec (.xpkgTimeReport ch frame) s = .next (s.settled c) ∧ s.chip.Only ([Part.tx,
        Part.whl, Part.ply] ++ eventParts) ([F.WHL_STATUS_MASTER, F.WHL_XPKG_STATUS_AGE] ++ eventRegs) c) ∧
    (∀ (s : State) (ch : Nat) (frame : WarpFrame), s.chip.svcUp = true → s.chip.leads = true → s.chip.get F.WHL_STATUS_IS_MASTER = 1 → s.chip.get
        F.WHL_XPKG_CTRL_MODE = 2 → s.chip.get F.WHL_XPKG_CTRL_CH = ch % 8 → frame.op = 0x87 → frame.result = 0 → frame.sub = 0xFFFD → frame.bobbin =
        0 → ∃ c : Chip, exec (.xpkgTimeReport ch frame) s = .next (s.settled c) ∧ c.whl =
        { s.chip.whl with xpkgAt := s.chip.slot, left := (frame.time : Int) - (frame.limit : Int) } ∧ c.get F.WHL_STATUS_XPKG_ALIGNED = (if
        ((frame.time : Int) - (frame.limit : Int)).natAbs ≤ 16 then 1 else 0)) ∧
    (∀ (s : State) (ch : Nat) (frame : WarpFrame), s.chip.svcUp = true → s.chip.leads = true → s.chip.get F.WHL_STATUS_IS_MASTER = 0 → ∃ c : Chip,
        exec (.xpkgTimeReport ch frame) s = .next (s.settled c) ∧ c = s.chip)

/-- XPKG_REPORT_TIMEOUT (R208). -/
def Says.xpkgReportTimeout : Prop :=
    (∀ (s : State), ∃ c : Chip, exec .xpkgReportTimeout s = .next (s.settled c) ∧ s.chip.Only eventParts ([F.WHL_STATUS_MASTER] ++ eventRegs) c) ∧
    (∀ (s : State), (s.chip.get F.WHL_STATUS_IS_MASTER = 0 ∨ s.chip.get F.WHL_XPKG_CTRL_MODE ≠ 2 ∨ s.chip.slot < s.chip.whl.xpkgAt + 64) → ∃ c :
        Chip, exec .xpkgReportTimeout s = .next (s.settled c) ∧ c = s.chip) ∧
    (∀ (s : State), s.chip.svcUp = true → s.chip.get F.WHL_STATUS_IS_MASTER = 1 → s.chip.get F.WHL_XPKG_CTRL_MODE = 2 → s.chip.whl.xpkgAt + 64 ≤
        s.chip.slot → ∃ c : Chip, exec .xpkgReportTimeout s = .next (s.settled c) ∧ c.get F.WHL_STATUS_XPKG_ALIGNED = 0 ∧ c.whl = s.chip.whl)

/-- WHL_TIME_READ (R227): the low word, the high word latched. -/
def Says.whlTimeRead : Prop :=
    (∀ (s : State) (req : Req), ∃ c : Chip, exec (.whlTimeRead req) s = .next (s.settled c) ∧ s.chip.Only ([Part.tx, Part.pwr] ++ eventParts)
        ([F.PWR_STATUS_LAST_RESULT, F.PWR_WAKE_CAUSE_COLD, F.SNG_STATUS_TEMP1, F.WHL_TIME_HI_TIME] ++ eventRegs) c) ∧
    (∀ (s : State) (req : Req), s.chip.opens req R.WHL_TIME_LO false = true → ∃ c : Chip, exec (.whlTimeRead req) s = .next (s.settled c) ∧ c.tx =
        s.chip.tx ++ [.fabric req true (s.chip.time % 2 ^ 32)] ∧ c.rd R.WHL_TIME_HI = BitVec.ofNat 32 (s.chip.time / 2 ^ 32)) ∧
    (∀ (s : State) (req : Req), s.chip.powered R.WHL_TIME_LO = true → s.chip.granted req R.WHL_TIME_LO false = false → ∃ c : Chip, exec (.whlTimeRead
        req) s = .next (s.settled c) ∧ c.rd R.WHL_TIME_HI = s.chip.rd R.WHL_TIME_HI)

/-- SCHEDULE (R210). -/
def Says.schedule : Prop :=
    (∀ (s : State) (req : Req), ∃ c : Chip, exec (.schedule req) s = .next (s.settled c) ∧ s.chip.Only ([Part.free, Part.tx, Part.pwr, Part.cores,
        Part.cust, Part.whl, Part.cry, Part.hanks, Part.ply] ++ eventParts) ([F.PWR_STATUS_LAST_RESULT, F.PWR_WAKE_CAUSE_COLD, F.SNG_STATUS_TEMP1,
        F.WHL_LAUNCH_RES_STATUS, F.WHL_Ln_SLOT_LO_SLOT, F.WHL_Ln_SLOT_HI_SLOT, F.WHL_Ln_CFG_HANKS, F.WHL_Ln_ARG_STRAND_IN, F.WHL_Ln_GRACE_SLOTS,
        F.WHL_Ln_NUM_NUM, F.WHL_Ln_STATE_RESULT, F.PLY_MSEQ_LO_SEQ, F.PLY_MSEQ_HI_SEQ, F.CRY_DRBG_STATUS_LAST, whlRegs] ++ eventRegs) c) ∧
    (∀ (s : State) (req : Req), s.chip.opens req R.WHL_LAUNCH_CTRL true = true → s.chip.get F.WHL_STATUS_IS_MASTER = 0 → ∃ c : Chip, exec (.schedule
        req) s = .next (s.settled c) ∧ c.get F.WHL_LAUNCH_RES_STATUS = Status.denied.code ∧ c.whl = s.chip.whl ∧ c.cust = s.chip.cust) ∧
    (∀ (s : State) (req : Req), s.chip.opens req R.WHL_LAUNCH_CTRL true = true → s.chip.schedStatus (s.chip.get64 R.WHL_SCHED_SLOT_LO) (s.chip.rd
        R.WHL_SCHED_CFG).toNat (s.chip.get F.WHL_SCHED_GRACE_SLOTS) = .ok → ∃ c : Chip, exec (.schedule req) s = .next (s.settled c) ∧ c.get
        F.WHL_LAUNCH_RES_STATUS = 0 ∧ c.get F.WHL_LAUNCH_RES_ENTRY = s.chip.ltake ∧ c.lst s.chip.ltake = 1 ∧ c.lslot s.chip.ltake = s.chip.get64
        R.WHL_SCHED_SLOT_LO % 2 ^ 56 ∧ c.lnum s.chip.ltake = c.whl.lastNum) ∧
    (∀ (s : State) (req : Req), s.chip.opens req R.WHL_LAUNCH_CTRL true = true → s.chip.schedStatus (s.chip.get64 R.WHL_SCHED_SLOT_LO) (s.chip.rd
        R.WHL_SCHED_CFG).toNat (s.chip.get F.WHL_SCHED_GRACE_SLOTS) = .clamped → ∃ c : Chip, exec (.schedule req) s = .next (s.settled c) ∧ c.get
        F.WHL_LAUNCH_RES_STATUS = Status.clamped.code ∧ c.get F.WHL_LAUNCH_RES_ENTRY = s.chip.ltake ∧ c.lst s.chip.ltake = 1 ∧ c.geti
        F.WHL_Ln_GRACE_SLOTS s.chip.ltake = clampTo 256 1048576 (s.chip.get F.WHL_SCHED_GRACE_SLOTS))

/-- WHL_CANCEL (R220). -/
def Says.whlCancel : Prop :=
    (∀ (s : State) (req : Req) (entry : BitVec 4), ∃ c : Chip, exec (.whlCancel req entry) s = .next (s.settled c) ∧ s.chip.Only ([Part.tx, Part.pwr,
        Part.ply] ++ eventParts) ([F.PWR_STATUS_LAST_RESULT, F.PWR_WAKE_CAUSE_COLD, F.SNG_STATUS_TEMP1, F.WHL_LAUNCH_RES_STATUS,
        F.WHL_Ln_STATE_RESULT, F.PLY_MSEQ_LO_SEQ, F.PLY_MSEQ_HI_SEQ] ++ eventRegs) c) ∧
    (∀ (s : State) (req : Req) (entry : BitVec 4), s.chip.opens req R.WHL_LAUNCH_CTRL true = true → s.chip.leads = false → ∃ c : Chip, exec
        (.whlCancel req entry) s = .next (s.settled c) ∧ c.get F.WHL_LAUNCH_RES_STATUS = Status.denied.code ∧ c.lst entry.toNat = s.chip.lst
        entry.toNat) ∧
    (∀ (s : State) (req : Req) (entry : BitVec 4), s.chip.opens req R.WHL_LAUNCH_CTRL true = true → s.chip.leads = true → s.chip.lst entry.toNat = 0
        → ∃ c : Chip, exec (.whlCancel req entry) s = .next (s.settled c) ∧ c.get F.WHL_LAUNCH_RES_STATUS = Status.badArg.code ∧ c.lst entry.toNat =
        0) ∧
    (∀ (s : State) (req : Req) (entry : BitVec 4), s.chip.opens req R.WHL_LAUNCH_CTRL true = true → s.chip.leads = true → s.chip.lst entry.toNat = 1
        → s.chip.slot < s.chip.lhorizon entry.toNat → ∃ c : Chip, exec (.whlCancel req entry) s = .next (s.settled c) ∧ c.get F.WHL_LAUNCH_RES_STATUS
        = 0 ∧ c.get F.WHL_LAUNCH_RES_ENTRY = entry.toNat ∧ c.lst entry.toNat = 5) ∧
    (∀ (s : State) (req : Req) (entry : BitVec 4), s.chip.opens req R.WHL_LAUNCH_CTRL true = true → s.chip.leads = true → (s.chip.lst entry.toNat = 2
        ∨ s.chip.lst entry.toNat = 3 ∨ s.chip.lst entry.toNat = 4 ∨ (s.chip.lst entry.toNat = 1 ∧ s.chip.lhorizon entry.toNat ≤ s.chip.slot)) → ∃ c :
        Chip, exec (.whlCancel req entry) s = .next (s.settled c) ∧ c.get F.WHL_LAUNCH_RES_STATUS = Status.staleEpoch.code ∧ c.lst entry.toNat = (if
        s.chip.lst entry.toNat = 1 then 2 else s.chip.lst entry.toNat))

/-- WHL_FREE (R214). -/
def Says.whlFree : Prop :=
    (∀ (s : State) (req : Req) (entry : BitVec 4), ∃ c : Chip, exec (.whlFree req entry) s = .next (s.settled c) ∧ s.chip.Only ([Part.tx, Part.pwr,
        Part.whl, Part.ply] ++ eventParts) ([F.PWR_STATUS_LAST_RESULT, F.PWR_WAKE_CAUSE_COLD, F.SNG_STATUS_TEMP1, F.WHL_LAUNCH_RES_STATUS,
        F.WHL_Ln_STATE_RESULT, F.PLY_MSEQ_LO_SEQ, F.PLY_MSEQ_HI_SEQ, whlRegs] ++ eventRegs) c) ∧
    (∀ (s : State) (req : Req) (entry : BitVec 4), s.chip.opens req R.WHL_LAUNCH_CTRL true = true → (s.chip.lst entry.toNat = 4 ∨ s.chip.lst
        entry.toNat = 6) → ∃ c : Chip, exec (.whlFree req entry) s = .next (s.settled c) ∧ c.get F.WHL_LAUNCH_RES_STATUS = 0 ∧ c.lst entry.toNat = 0
        ∧ c.lnum entry.toNat = 0) ∧
    (∀ (s : State) (req : Req) (entry : BitVec 4), s.chip.opens req R.WHL_LAUNCH_CTRL true = true → s.chip.lst entry.toNat ≠ 4 → s.chip.lst
        entry.toNat ≠ 6 → ∃ c : Chip, exec (.whlFree req entry) s = .next (s.settled c) ∧ c.get F.WHL_LAUNCH_RES_STATUS = Status.badArg.code ∧ c.lst
        entry.toNat = s.chip.lst entry.toNat)

/-- LAUNCH_HORIZON (R213). -/
def Says.launchHorizon : Prop :=
    (∀ (s : State) (n : BitVec 4), ∃ c : Chip, exec (.launchHorizon n) s = .next (s.settled c) ∧ s.chip.Only ([Part.tx, Part.ply] ++ eventParts)
        ([F.WHL_Ln_STATE_RESULT, F.PLY_MSEQ_LO_SEQ, F.PLY_MSEQ_HI_SEQ] ++ eventRegs) c) ∧
    (∀ (s : State) (n : BitVec 4), (s.chip.lst n.toNat ≠ 1 ∨ s.chip.slot < s.chip.lhorizon n.toNat) → ∃ c : Chip, exec (.launchHorizon n) s = .next
        (s.settled c) ∧ c = s.chip) ∧
    (∀ (s : State) (n : BitVec 4), s.chip.lst n.toNat = 1 → s.chip.lhorizon n.toNat ≤ s.chip.slot → ∃ c : Chip, exec (.launchHorizon n) s = .next
        (s.settled c) ∧ c.lst n.toNat = 2)

/-- LAUNCH_FINAL_POINT (R216); while effects are held for a lost follow it waits, until *L* − 8 (R435). -/
def Says.launchFinalPoint : Prop :=
    (∀ (s : State) (n : BitVec 4), ∃ c : Chip, exec (.launchFinalPoint n) s = .next (s.settled c) ∧ s.chip.Only ([Part.free, Part.tx, Part.ring,
        Part.card, Part.cust, Part.whl, Part.cry, Part.hanks, Part.ply] ++ eventParts) ([F.GEN_CARDED0_NODES, F.GEN_CARDED1_NODES,
        F.GEN_CARD_STATEn_RECARD, F.WHL_Ln_STATE_RESULT, F.WHL_Ln_UNCONFIRMED_COUNT, F.PLY_MSEQ_LO_SEQ, F.PLY_MSEQ_HI_SEQ, F.BOB_JSEQ_LO_SEQ,
        F.BOB_JSEQ_HI_SEQ, F.DST_CACHE_STAT_PINNED, F.CRY_DRBG_STATUS_LAST] ++ eventRegs) c) ∧
    (∀ (s : State) (n : BitVec 4), (s.chip.leads = false ∨ s.chip.lst n.toNat ≠ 2 ∨ s.chip.geti F.WHL_Ln_STATE_FINAL n.toNat = 1 ∨ s.chip.slot + 16 <
        s.chip.lslot n.toNat) → ∃ c : Chip, exec (.launchFinalPoint n) s = .next (s.settled c) ∧ c = s.chip) ∧
    (∀ (s : State) (n : BitVec 4), s.chip.leads = true → s.chip.ply.lost = false → s.chip.lst n.toNat = 2 → s.chip.slot < s.chip.lslot n.toNat →
        s.chip.lslot n.toNat ≤ s.chip.slot + 16 → ∃ c : Chip, exec (.launchFinalPoint n) s = .next (s.settled c) ∧ c.geti F.WHL_Ln_STATE_FINAL
        n.toNat = 1 ∧ c.lst n.toNat = 2)

/-- LAUNCH_FIRE (R217). -/
def Says.launchFire : Prop :=
    (∀ (s : State) (n : BitVec 4), ∃ c : Chip, exec (.launchFire n) s = .next (s.settled c) ∧ s.chip.Only ([Part.tx, Part.ring, Part.pins, Part.mem,
        Part.cust, Part.whl, Part.hanks, Part.twist, Part.ply] ++ eventParts) ([F.WHL_Ln_STATE_RESULT, F.WHL_Ln_ARMED_COUNT, F.WHL_Ln_DROPPED_COUNT,
        F.WHL_Ln_UNCONFIRMED_COUNT, F.PLY_MSEQ_LO_SEQ, F.PLY_MSEQ_HI_SEQ, F.BOB_CPL_TAIL_IDX, F.BOB_JSEQ_LO_SEQ, F.BOB_JSEQ_HI_SEQ,
        F.BOB_LIMIT_SUM_COUNT, F.DST_CACHE_STAT_PINNED, F.DGT_TWn_STATUS_DEPART_CODE, F.DGT_TWn_SEGMENT_NUM, F.DGT_TWn_RECORDS_COUNT,
        F.DGT_TWn_COUNTS_GAPS] ++ eventRegs) c) ∧
    (∀ (s : State) (n : BitVec 4), (s.chip.lst n.toNat = 0 ∨ s.chip.lst n.toNat = 3) → ∃ c : Chip, exec (.launchFire n) s = .next (s.settled c) ∧ c =
        s.chip) ∧
    (∀ (s : State) (n : BitVec 4), s.chip.lst n.toNat = 2 → s.chip.lslot n.toNat ≤ s.chip.slot → (List.range n.toNat).any (fun m => (s.chip.lst m ==
        1 || s.chip.lst m == 2) && s.chip.lslot m == s.chip.lslot n.toNat) = false → (s.chip.bound (s.chip.lnum n.toNat)).length ≤ 2 ^ 20 → ∃ c :
        Chip, exec (.launchFire n) s = .next (s.settled c) ∧ c.lst n.toNat = 3 ∧ c.geti F.WHL_Ln_ARMED_COUNT n.toNat + c.geti F.WHL_Ln_DROPPED_COUNT
        n.toNat = (s.chip.bound (s.chip.lnum n.toNat)).length)

/-- LAUNCH_GRACE_END (R218). -/
def Says.launchGraceEnd : Prop :=
    (∀ (s : State) (n : BitVec 4), ∃ c : Chip, exec (.launchGraceEnd n) s = .next (s.settled c) ∧ s.chip.Only ([Part.tx, Part.ring, Part.cust,
        Part.whl, Part.ply] ++ eventParts) ([F.WHL_Ln_STATE_RESULT, F.PLY_MSEQ_LO_SEQ, F.PLY_MSEQ_HI_SEQ, F.DST_CACHE_STAT_PINNED] ++ eventRegs) c) ∧
    (∀ (s : State) (n : BitVec 4), (s.chip.lst n.toNat ≠ 3 ∨ s.chip.slot < s.chip.lslot n.toNat + s.chip.lgrace n.toNat) → ∃ c : Chip, exec
        (.launchGraceEnd n) s = .next (s.settled c) ∧ c = s.chip) ∧
    (∀ (s : State) (n : BitVec 4), s.chip.lst n.toNat = 3 → s.chip.lslot n.toNat + s.chip.lgrace n.toNat ≤ s.chip.slot → ∃ c : Chip, exec
        (.launchGraceEnd n) s = .next (s.settled c) ∧ c.lst n.toNat = 4 ∧ c.geti F.WHL_Ln_STATE_RESULT n.toNat = 0 ∧ (s.chip.geti F.WHL_Ln_CFG_RING
        n.toNat = 1 → c.ring.old = none))

/-- LAUNCH_REPEAT (R215). -/
def Says.launchRepeat : Prop :=
    (∀ (s : State) (n : BitVec 4), ∃ c : Chip, exec (.launchRepeat n) s = .next (s.settled c) ∧ s.chip.Only ([Part.tx, Part.ring, Part.whl] ++
        eventParts) eventRegs c) ∧
    (∀ (s : State) (n : BitVec 4), (s.chip.lrepeatDue n.toNat = false ∨ s.chip.leads = false ∨ (s.chip.lst n.toNat ≠ 1 ∧ s.chip.lst n.toNat ≠ 2)) → ∃
        c : Chip, exec (.launchRepeat n) s = .next (s.settled c) ∧ c = s.chip) ∧
    (∀ (s : State) (n : BitVec 4), s.chip.lrepeatDue n.toNat = true → s.chip.leads = true → s.chip.ringLive = true → (s.chip.lst n.toNat = 1 ∨
        s.chip.lst n.toNat = 2) → ∃ c : Chip, exec (.launchRepeat n) s = .next (s.settled c) ∧ c.tx.length = s.chip.tx.length + 2 ∧ c.lst n.toNat =
        s.chip.lst n.toNat ∧ tget c.whl.sent (s.chip.lnum n.toNat) 0 = s.chip.slot)

/-- LAUNCH_CANCEL_REPEAT (R215). -/
def Says.launchCancelRepeat : Prop :=
    (∀ (s : State) (num : Nat), ∃ c : Chip, exec (.launchCancelRepeat num) s = .next (s.settled c) ∧ s.chip.Only ([Part.tx, Part.ring, Part.whl] ++
        eventParts) eventRegs c) ∧
    (∀ (s : State) (num : Nat), (s.chip.whl.cancels.find? (fun e => e.1 == num)) = none → ∃ c : Chip, exec (.launchCancelRepeat num) s = .next
        (s.settled c) ∧ c = s.chip) ∧
    (∀ (s : State) (num : Nat), s.chip.leads = true → s.chip.ringLive = true → (s.chip.whl.cancels.find? (fun e => e.1 == num)).any (fun e => decide
        (e.2.1 + 4 ≤ s.chip.slot)) = true → ∃ c : Chip, exec (.launchCancelRepeat num) s = .next (s.settled c) ∧ c.tx.length = s.chip.tx.length + 2 ∧
        (s.chip.whl.cancels.find? (fun e => e.1 == num)).all (fun e => decide (c.whl.cancels = s.chip.whl.cancels.filter (fun x => x != e) ++ (if
        e.2.2.1 < 256 then [(num, e.2.1 + 4, e.2.2.1 + 256, e.2.2.2)] else []))) = true)

/-- LAUNCH_REQUEST (R210, R404): slot, kind, strands and grace as SCHEDULE takes them (assumption 38). -/
def Says.launchRequest : Prop :=
    (∀ (s : State) (n : Nat), ∃ c : Chip, exec (.launchRequest n) s = .next (s.settled c) ∧ s.chip.Only ([Part.free, Part.tx, Part.mem, Part.cores,
        Part.cust, Part.whl, Part.cry, Part.hanks, Part.ply] ++ eventParts) ([F.WHL_Ln_SLOT_LO_SLOT, F.WHL_Ln_SLOT_HI_SLOT, F.WHL_Ln_CFG_HANKS,
        F.WHL_Ln_ARG_STRAND_IN, F.WHL_Ln_GRACE_SLOTS, F.WHL_Ln_NUM_NUM, F.WHL_Ln_STATE_RESULT, F.PLY_MSEQ_LO_SEQ, F.PLY_MSEQ_HI_SEQ,
        F.MBS_STATUSn_OWNER, F.MBN_STATUSn_OWNER, F.CRY_DRBG_STATUS_LAST, mbsRegs, mbnRegs, whlRegs] ++ eventRegs) c) ∧
    (∀ (s : State) (n : Nat), s.chip.callReady n 0x0020 = true → s.chip.get F.WHL_STATUS_IS_MASTER = 0 → ∃ c : Chip, exec (.launchRequest n) s =
        .next (s.settled c) ∧ c.answered n .denied = true ∧ c.whl = s.chip.whl) ∧
    (∀ (s : State) (n : Nat), s.chip.callReady n 0x0020 = true → s.chip.schedStatus (numAt (s.chip.callInput n) 0 8) (numAt (s.chip.callInput n) 8 4)
        (numAt (s.chip.callInput n) 16 4) = .ok → s.chip.strandPolicy (numAt (s.chip.callInput n) 8 4) (numAt (s.chip.callInput n) 12 4) = .ok → ∃ c
        : Chip, exec (.launchRequest n) s = .next (s.settled c) ∧ c.answered n .ok = true ∧ c.lst s.chip.ltake = 1 ∧ c.lslot s.chip.ltake = numAt
        (s.chip.callInput n) 0 8 % 2 ^ 56 ∧ c.lnum s.chip.ltake = c.whl.lastNum)

/-- LAUNCH_CANCEL (R220), by launch number. -/
def Says.launchCancel : Prop :=
    (∀ (s : State) (n : Nat), ∃ c : Chip, exec (.launchCancel n) s = .next (s.settled c) ∧ s.chip.Only ([Part.tx, Part.mem, Part.cores, Part.ply] ++
        eventParts) ([F.WHL_Ln_STATE_RESULT, F.PLY_MSEQ_LO_SEQ, F.PLY_MSEQ_HI_SEQ, F.MBS_STATUSn_OWNER, F.MBN_STATUSn_OWNER, mbsRegs, mbnRegs] ++
        eventRegs) c) ∧
    (∀ (s : State) (n : Nat), s.chip.callReady n 0x0021 = true → (List.range 16).all (fun e => s.chip.lnum e == 0) = true → ∃ c : Chip, exec
        (.launchCancel n) s = .next (s.settled c) ∧ c.answered n .badArg = true ∧ c.whl = s.chip.whl) ∧
    (∀ (s : State) (n : Nat), s.chip.callReady n 0x0021 = true → s.chip.leads = true → ((List.range 16).find? (fun e => s.chip.lnum e == numAt
        (s.chip.callInput n) 0 4 && numAt (s.chip.callInput n) 0 4 != 0)).any (fun e => s.chip.lst e == 1 && decide (s.chip.slot < s.chip.lhorizon
        e)) = true → ∃ c : Chip, exec (.launchCancel n) s = .next (s.settled c) ∧ c.answered n .ok = true ∧ ((List.range 16).find? (fun e =>
        s.chip.lnum e == numAt (s.chip.callInput n) 0 4 && numAt (s.chip.callInput n) 0 4 != 0)).all (fun e => c.lst e == 5) = true)

/-- BYPASS (R486). -/
def Says.bypass : Prop :=
    (∀ (s : State), ∃ c : Chip, exec .bypass s = .next (s.after c) ∧ s.chip.Only ([Part.tx] ++ eventParts) eventRegs c) ∧
    (∀ (s : State), ∃ c : Chip, exec .bypass s = .next (s.after c) ∧ c.dbg.jtag = 0xFF ∧ c.tx = s.chip.tx ++ [.jtag 1 0])

/-- IDCODE (R35). -/
def Says.idcode : Prop :=
    (∀ (s : State), ∃ c : Chip, exec .idcode s = .next (s.after c) ∧ s.chip.Only ([Part.tx] ++ eventParts) eventRegs c) ∧
    (∀ (s : State), ∃ c : Chip, exec .idcode s = .next (s.after c) ∧ c.dbg.jtag = 0x01 ∧ c.tx = s.chip.tx ++ [.jtag 32 s.chip.idcode])

/-- SAMPLE_PRELOAD (R35): the chain selected is the base die's. -/
def Says.samplePreload : Prop :=
    (∀ (s : State), ∃ c : Chip, exec .samplePreload s = .next (s.after c) ∧ s.chip.Only ([Part.tx] ++ eventParts) eventRegs c) ∧
    (∀ (s : State), ∃ c : Chip, exec .samplePreload s = .next (s.after c) ∧ c = { s.chip with dbg := { s.chip.dbg with jtag := 0x02 } })

/-- DTM_ROV (R486, R490). -/
def Says.dtmRov : Prop :=
    (∀ (s : State) (core : Nat) (op : DmiOp), s.chip.jtagOk 0x10 = true → core < 6 → s.chip.svcUp = true → op = .inCore → ∃ c : Chip, exec (.dtmRov
        core op) s = .next (s.cutSettled c) ∧ c.dbg.jtag = 0x10 ∧ c.tx = s.chip.tx ++ [.jtag 34 (2 * b2n (!s.chip.coreHalted core))] ∧ c.cores =
        s.chip.cores) ∧
    (∀ (s : State) (core : Nat) (op : DmiOp), s.chip.jtagOk 0x10 = true → core < 6 → s.chip.svcUp = true → op = .halt → s.chip.get
        F.DBG_CTRL_BREAK_ROV = 1 → s.chip.coreHalted core = false → s.chip.coreSt core = 1 → 2 ≤ s.chip.othersFree core → ∃ c : Chip, exec (.dtmRov
        core op) s = .next (s.cutSettled c) ∧ c.coreHalted core = true ∧ c.geti F.DBG_COREc_STATUS_LAST core = Status.ok.code)

/-- DTM_SPN (R486, R489). -/
def Says.dtmSpn : Prop :=
    (∀ (s : State) (op : DmiOp), s.chip.jtagOk 0x11 = true → s.chip.svcUp = true → op = .resume → ∃ c : Chip, exec (.dtmSpn op) s = .next
        (s.cutSettled c) ∧ c.dbg.jtag = 0x11 ∧ c.get F.DBG_STATUS_SPN_HALTED = 0 ∧ c.tx = s.chip.tx ++ [.jtag 34 0]) ∧
    (∀ (s : State) (op : DmiOp), s.chip.jtagOk 0x11 = true → s.chip.svcUp = true → op = .halt → s.chip.get F.DBG_STATUS_SPN_HALTED = 0 → ∃ c : Chip,
        exec (.dtmSpn op) s = .next (s.cutSettled c) ∧ c.dbg.jtag = 0x11)

/-- OTP_PORT (R487). -/
def Says.otpPort : Prop :=
    (∀ (s : State) (write : Bool) (sel : BitVec 4) (data : Word), s.chip.jtagOk 0x20 = true → write = false → ∃ c : Chip, exec (.otpPort write sel
        data) s = .next (s.cutSettled c) ∧ c.dbg.portSel = (otpSel sel.toNat).getD 0 ∧ c.tx.length = s.chip.tx.length + 1 ∧ (s.chip.dbg.portSel /
        0x1000 ≠ 2 → c.tx = s.chip.tx ++ [.jtag 40 0])) ∧
    (∀ (s : State) (write : Bool) (sel : BitVec 4) (data : Word), s.chip.jtagOk 0x20 = true → write = true → sel = 2 → s.chip.otp.busy = false →
        data.toNat < 4096 → ∃ c : Chip, exec (.otpPort write sel data) s = .next (s.cutSettled c) ∧ c.get F.OTP_ADDR_WORD = data.toNat ∧
        c.dbg.portSel = R.OTP_ADDR ∧ c.tx.length = s.chip.tx.length + 1)

/-- LC_PORT (R487). -/
def Says.lcPort : Prop :=
    (∀ (s : State) (write : Bool) (sel : BitVec 4) (data : Word), s.chip.jtagOk 0x21 = true → write = false → ∃ c : Chip, exec (.lcPort write sel
        data) s = .next (s.cutSettled c) ∧ c.dbg.portSel = (lcSel sel.toNat).getD 0 ∧ c.tx.length = s.chip.tx.length + 1 ∧ (s.chip.dbg.portSel /
        0x1000 ≠ 3 → c.tx = s.chip.tx ++ [.jtag 40 0])) ∧
    (∀ (s : State) (write : Bool) (sel : BitVec 4) (data : Word), s.chip.jtagOk 0x21 = true → write = true → sel = 15 → s.chip.get F.LCS_STATUS_BUSY
        = 0 → ∃ c : Chip, exec (.lcPort write sel data) s = .next (s.cutSettled c) ∧ c.rd (R.LCS_TOKENn 7) = data ∧ c.dbg.portSel = R.LCS_TOKENn 7 ∧
        c.tx.length = s.chip.tx.length + 1)

/-- ENT_RAW (R488): 32 raw samples of the source the previous Update-DR chose; `data` is this Update-DR. -/
def Says.entRaw : Prop :=
    (∀ (s : State) (data samples : Word), ∃ c : Chip, exec (.entRaw data samples) s = .next (s.after c) ∧ s.chip.Only ([Part.tx] ++ eventParts)
        eventRegs c) ∧
    (∀ (s : State) (data samples : Word), s.chip.jtagOk 0x22 = true → ∃ c : Chip, exec (.entRaw data samples) s = .next (s.after c) ∧ c.dbg.jtag =
        0x22 ∧ c.tx = s.chip.tx ++ [.jtag 32 samples.toNat] ∧ c.dbg.entSource = data.toNat % 2)

/-- HALT (R490, R491): a write of `DBG_COREc_CTRL.HALT`. -/
def Says.halt : Prop :=
    (∀ (s : State) (req : Req) (core : Nat), ∃ c : Chip, exec (.halt req core) s = .next (s.settled c) ∧ s.chip.Only ([Part.tx, Part.pwr,
        Part.cores] ++ eventParts) ([F.PWR_STATUS_LAST_RESULT, F.PWR_WAKE_CAUSE_COLD, F.SNG_STATUS_TEMP1, F.DMA_STATUS_STOPPED, F.DMA_FAULT_MASK_CH,
        F.DMA_STOP_MASK_CH, F.DMA_CHn_STATUS_LAST_ERR, F.DBG_COREc_STATUS_LAST] ++ eventRegs) c) ∧
    (∀ (s : State) (req : Req) (core : Nat), s.chip.opens req (R.DBG_COREc_CTRL core) true = true → core < 6 → s.chip.get F.DBG_CTRL_BREAK_ROV = 1 →
        s.chip.coreHalted core = false → s.chip.coreSt core = 1 → 2 ≤ s.chip.othersFree core → ∃ c : Chip, exec (.halt req core) s = .next (s.settled
        c) ∧ c.coreHalted core = true ∧ c.geti F.DBG_COREc_STATUS_LAST core = Status.ok.code) ∧
    (∀ (s : State) (req : Req) (core : Nat), s.chip.opens req (R.DBG_COREc_CTRL core) true = true → core < 6 → s.chip.get F.DBG_CTRL_BREAK_ROV = 0 →
        ∃ c : Chip, exec (.halt req core) s = .next (s.settled c) ∧ c.geti F.DBG_COREc_STATUS_LAST core = Status.noConsent.code ∧ c.cores =
        s.chip.cores ∧ c.tx = s.chip.tx ++ [.fabric req true 0])

/-- STEP (R491): a write of `DBG_COREc_CTRL.STEP`. -/
def Says.dbgStep : Prop :=
    (∀ (s : State) (req : Req) (core : Nat), ∃ c : Chip, exec (.dbgStep req core) s = .next (s.settled c) ∧ s.chip.Only ([Part.tx, Part.pwr,
        Part.cores] ++ eventParts) ([F.PWR_STATUS_LAST_RESULT, F.PWR_WAKE_CAUSE_COLD, F.SNG_STATUS_TEMP1, F.DBG_COREc_STATUS_LAST] ++ eventRegs) c) ∧
    (∀ (s : State) (req : Req) (core : Nat), s.chip.opens req (R.DBG_COREc_CTRL core) true = true → core < 6 → s.chip.coreHalted core = true → ∃ c :
        Chip, exec (.dbgStep req core) s = .next (s.settled c) ∧ c.coreHalted core = true ∧ c.geti F.DBG_COREc_STATUS_LAST core = Status.ok.code)

/-- DBG_RESUME (R491, R492): a write of `DBG_COREc_CTRL.RESUME`. -/
def Says.dbgResume : Prop :=
    (∀ (s : State) (req : Req) (core : Nat), ∃ c : Chip, exec (.dbgResume req core) s = .next (s.settled c) ∧ s.chip.Only ([Part.tx, Part.pwr,
        Part.cores] ++ eventParts) ([F.PWR_STATUS_LAST_RESULT, F.PWR_WAKE_CAUSE_COLD, F.SNG_STATUS_TEMP1, F.DMA_STATUS_STOPPED, F.DMA_FAULT_MASK_CH,
        F.DMA_STOP_MASK_CH, F.DMA_CHn_STATUS_LAST_ERR, F.DBG_COREc_STATUS_LAST] ++ eventRegs) c) ∧
    (∀ (s : State) (req : Req) (core : Nat), s.chip.opens req (R.DBG_COREc_CTRL core) true = true → core < 6 → s.chip.coreHalted core = true → ∃ c :
        Chip, exec (.dbgResume req core) s = .next (s.settled c) ∧ c.coreHalted core = false ∧ c.geti F.DBG_COREc_STATUS_LAST core = Status.ok.code)

/-- BREAKPOINT_MATCH (R494): the core's fetch address meets a breakpoint register. -/
def Says.breakpointMatch : Prop :=
    (∀ (s : State) (core b pc : Nat), ∃ c : Chip, exec (.breakpointMatch core b pc) s = .next (s.settled c) ∧ s.chip.Only ([Part.tx, Part.cores] ++
        eventParts) ([F.DMA_STATUS_STOPPED, F.DMA_FAULT_MASK_CH, F.DMA_STOP_MASK_CH, F.DMA_CHn_STATUS_LAST_ERR, F.DBG_COREc_STATUS_LAST] ++
        eventRegs) c) ∧
    (∀ (s : State) (core b pc : Nat), core < 6 → b < 4 → s.chip.svcUp = true → s.chip.coreFree core = true → wget 0 0 (s.chip.rd (bpOff core b)) = 1
        → wget 1 1 (s.chip.rd (bpOff core b)) = 0 → bitsOf pc 31 2 = wget 31 2 (s.chip.rd (bpOff core b)) → s.chip.get F.DBG_CTRL_BREAK_ROV = 1 → 2 ≤
        s.chip.othersFree core → ∃ c : Chip, exec (.breakpointMatch core b pc) s = .next (s.settled c) ∧ c.coreHalted core = true ∧ c.geti
        F.DBG_COREc_STATUS_BP core = b)

/-- BREAK_ROV_CLEAR (R490, Table 18.2). -/
def Says.breakRovClear : Prop :=
    (∀ (s : State) (req : Req), ∃ c : Chip, exec (.breakRovClear req) s = .next (s.settled c) ∧ s.chip.Only ([Part.tx, Part.pwr, Part.cores] ++
        eventParts) ([F.PWR_STATUS_LAST_RESULT, F.PWR_WAKE_CAUSE_COLD, F.SNG_STATUS_TEMP1, F.DBG_CTRL_WATCH, F.DBG_COREc_STATUS_LAST, coreRegs] ++
        eventRegs) c) ∧
    (∀ (s : State) (req : Req), s.chip.opens req R.DBG_CTRL true = true → s.chip.get F.DBG_CTRL_BREAK_ROV = 1 → ∃ c : Chip, exec (.breakRovClear req)
        s = .next (s.settled c) ∧ c.get F.DBG_CTRL_BREAK_ROV = 0 ∧ (List.range 6).all (fun k => !c.coreHalted k) = true)

/-- TRACE_ROV_CLEAR (R500). -/
def Says.traceRovClear : Prop :=
    (∀ (s : State) (req : Req), ∃ c : Chip, exec (.traceRovClear req) s = .next (s.settled c) ∧ s.chip.Only ([Part.tx, Part.pwr, Part.mem,
        Part.dma] ++ eventParts) ([F.PWR_STATUS_LAST_RESULT, F.PWR_WAKE_CAUSE_COLD, F.SNG_STATUS_TEMP1, F.DMA_STATUS_STOPPED, F.DMA_FAULT_MASK_CH,
        F.DMA_STOP_MASK_CH, F.DMA_LINE_GRANT_LO_LINES, F.DMA_CHn_HEAD_IDX, F.DMA_CHn_CTRL_CLEAR, F.DMA_CHn_STATUS_LAST_ERR, F.DBG_CTRL_WATCH,
        F.DBG_STATUS_TRACE_GRANTED, dmaRegs] ++ eventRegs) c) ∧
    (∀ (s : State) (req : Req), s.chip.opens req R.DBG_CTRL true = true → s.chip.get F.DBG_CTRL_TRACE_ROV = 1 → ∃ c : Chip, exec (.traceRovClear req)
        s = .next (s.settled c) ∧ c.get F.DBG_CTRL_TRACE_ROV = 0 ∧ (List.range 16).all (fun t => (s.chip.trSrc t).grant.isNone || (c.trSrc
        t).recs.isEmpty) = true)

/-- CNT_ROV_CLEAR (R507). -/
def Says.cntRovClear : Prop :=
    (∀ (s : State) (req : Req), ∃ c : Chip, exec (.cntRovClear req) s = .next (s.settled c) ∧ s.chip.Only ([Part.tx, Part.pwr, Part.mem, Part.dma] ++
        eventParts) ([F.PWR_STATUS_LAST_RESULT, F.PWR_WAKE_CAUSE_COLD, F.SNG_STATUS_TEMP1, F.DMA_STATUS_STOPPED, F.DMA_FAULT_MASK_CH,
        F.DMA_STOP_MASK_CH, F.DMA_LINE_GRANT_HI_LINES, F.DMA_CHn_HEAD_IDX, F.DMA_CHn_CTRL_CLEAR, F.DMA_CHn_STATUS_LAST_ERR, F.DBG_CTRL_WATCH,
        dmaRegs] ++ eventRegs) c) ∧
    (∀ (s : State) (req : Req), s.chip.opens req R.DBG_CTRL true = true → s.chip.get F.DBG_CTRL_CNT_ROV = 1 → ∃ c : Chip, exec (.cntRovClear req) s =
        .next (s.settled c) ∧ c.get F.DBG_CTRL_CNT_ROV = 0 ∧ c.dbg.smp = [])

/-- TRACE_ARM (R498). -/
def Says.traceArm : Prop :=
    (∀ (s : State) (req : Req) (t : Nat), ∃ c : Chip, exec (.traceArm req t) s = .next (s.settled c) ∧ s.chip.Only ([Part.tx, Part.pwr] ++
        eventParts) ([F.PWR_STATUS_LAST_RESULT, F.PWR_WAKE_CAUSE_COLD, F.SNG_STATUS_TEMP1] ++ eventRegs) c) ∧
    (∀ (s : State) (req : Req) (t : Nat), s.chip.opens req (R.DBG_TRt_CTRL t) true = true → t < 16 → s.chip.geti F.DBG_TRt_CTRL_MODE t = 1 →
        s.chip.geti F.DBG_TRt_CTRL_EN t = 1 → ∃ c : Chip, exec (.traceArm req t) s = .next (s.settled c) ∧ c.geti F.DBG_TRt_STATUS_STATE t = 2 ∧ c.tx
        = s.chip.tx ++ [.fabric req true 0])

/-- TRACE_TRIGGER (R498): a breakpoint of a core's source, or an event of a unit's source, fires it. -/
def Says.traceTrigger : Prop :=
    (∀ (s : State) (t cause bp code : Nat), ∃ c : Chip, exec (.traceTrigger t cause bp code) s = .next (s.settled c) ∧ s.chip.Only eventParts
        eventRegs c) ∧
    (∀ (s : State) (t cause bp code : Nat), s.chip.svcUp = true → cause = 2 → t < 6 → bp < 4 → wget 1 0 (s.chip.rd (bpOff t bp)) = 3 → s.chip.get
        F.DBG_CTRL_TRACE_ROV = 1 → s.chip.geti F.DBG_TRt_STATUS_STATE t = 2 → ∃ c : Chip, exec (.traceTrigger t cause bp code) s = .next (s.settled
        c) ∧ c.geti F.DBG_TRt_STATUS_STATE t = 3 ∧ (c.trSrc t).post = s.chip.geti F.DBG_TRt_CTRL_POST t)

/-- SW_TRIG (R498). -/
def Says.swTrig : Prop :=
    (∀ (s : State) (req : Req) (t : Nat), ∃ c : Chip, exec (.swTrig req t) s = .next (s.settled c) ∧ s.chip.Only ([Part.tx, Part.pwr] ++ eventParts)
        ([F.PWR_STATUS_LAST_RESULT, F.PWR_WAKE_CAUSE_COLD, F.SNG_STATUS_TEMP1] ++ eventRegs) c) ∧
    (∀ (s : State) (req : Req) (t : Nat), s.chip.opens req (R.DBG_TRt_CTRL t) true = true → t < 15 → s.chip.geti F.DBG_TRt_STATUS_STATE t = 2 → ∃ c :
        Chip, exec (.swTrig req t) s = .next (s.settled c) ∧ c.geti F.DBG_TRt_STATUS_STATE t = 3 ∧ (c.trSrc t).post = s.chip.geti F.DBG_TRt_CTRL_POST
        t)

/-- FLUSH (R499). -/
def Says.traceFlush : Prop :=
    (∀ (s : State) (req : Req) (t : Nat), ∃ c : Chip, exec (.traceFlush req t) s = .next (s.settled c) ∧ s.chip.Only ([Part.tx, Part.pwr] ++
        eventParts) ([F.PWR_STATUS_LAST_RESULT, F.PWR_WAKE_CAUSE_COLD, F.SNG_STATUS_TEMP1] ++ eventRegs) c) ∧
    (∀ (s : State) (req : Req) (t : Nat), s.chip.opens req (R.DBG_TRt_CTRL t) true = true → t < 17 → ∃ c : Chip, exec (.traceFlush req t) s = .next
        (s.settled c) ∧ (c.trSrc t).recs.length % 8 = 0 ∧ (c.trSrc t).recs.take (s.chip.trSrc t).recs.length = (s.chip.trSrc t).recs)

/-- TRACE_HOLD_TIMER (R499): a record was held for 4,096 slots. -/
def Says.traceHoldTimer : Prop :=
    (∀ (s : State) (t : Nat), ∃ c : Chip, exec (.traceHoldTimer t) s = .next (s.settled c) ∧ s.chip.Only [.dbg] [] c) ∧
    (∀ (s : State) (t : Nat), s.chip.svcUp = true → t < 17 → s.chip.traceHeld t = true → ∃ c : Chip, exec (.traceHoldTimer t) s = .next (s.settled c)
        ∧ (c.trSrc t).recs.length % 8 = 0 ∧ (c.trSrc t).recs.take (s.chip.trSrc t).recs.length = (s.chip.trSrc t).recs)

/-- TRACE_PORT_READ (R495). -/
def Says.tracePortRead : Prop :=
    (∀ (s : State) (req : Req) (t : Nat), ∃ c : Chip, exec (.tracePortRead req t) s = .next (s.settled c) ∧ s.chip.Only ([Part.tx, Part.pwr,
        Part.cores, Part.cry, Part.twist] ++ eventParts) ([F.PWR_STATUS_LAST_RESULT, F.PWR_WAKE_CAUSE_COLD, F.SNG_STATUS_TEMP1, F.WHL_TIME_HI_TIME,
        F.MBS_STATUSn_OWNER, F.MBN_STATUSn_OWNER, F.DGT_CTXn_STATUS_OWNER, F.TLY_STATUS_LAST, F.DBG_NOIL_SEL_UNIT, F.DBG_CNTi_HI_VALUE] ++ eventRegs)
        c) ∧
    (∀ (s : State) (req : Req) (t : Nat), s.chip.opens req (0x14000 + 0x100 * t) false = true → t < 17 → ∃ c : Chip, exec (.tracePortRead req t) s =
        .next (s.settled c) ∧ c.tx = (s.chip.traceRead t).1.tx ++ [.fabric req true (s.chip.traceRead t).2] ∧ (c.trSrc t).word = ((s.chip.traceRead
        t).1.trSrc t).word)

/-- COUNTER_SAMPLE (R504): `boundary` is each group's byte 7, set where a reset falls in the same cycle (R505). -/
def Says.counterSample : Prop :=
    (∀ (s : State) (boundary : List (BitVec 8)), ∃ c : Chip, exec (.counterSample boundary) s = .next (s.settled c) ∧ s.chip.Only eventParts
        ([F.DBG_SMPg_LOST_COUNT] ++ eventRegs) c) ∧
    (∀ (s : State) (boundary : List (BitVec 8)), s.chip.svcUp = true → s.chip.get F.DBG_CNT_CFG_EN = 1 → s.chip.slot % 2 ^ s.chip.get F.DBG_CNT_CFG_K
        = 0 → (List.range 8).all (fun g => decide ((tget s.chip.dbg.smp g {}).recs.length < 64)) = true → ∃ c : Chip, exec (.counterSample boundary)
        s = .next (s.settled c) ∧ (List.range 8).all (fun g => (tget c.dbg.smp g {}).recs.length == (tget s.chip.dbg.smp g {}).recs.length + 1) =
        true)

/-- SAMPLE_PORT_READ (R504). -/
def Says.samplePortRead : Prop :=
    (∀ (s : State) (req : Req) (g : BitVec 3), ∃ c : Chip, exec (.samplePortRead req g) s = .next (s.settled c) ∧ s.chip.Only ([Part.tx, Part.pwr,
        Part.cores, Part.cry, Part.twist] ++ eventParts) ([F.PWR_STATUS_LAST_RESULT, F.PWR_WAKE_CAUSE_COLD, F.SNG_STATUS_TEMP1, F.WHL_TIME_HI_TIME,
        F.MBS_STATUSn_OWNER, F.MBN_STATUSn_OWNER, F.DGT_CTXn_STATUS_OWNER, F.TLY_STATUS_LAST, F.DBG_NOIL_SEL_UNIT, F.DBG_CNTi_HI_VALUE] ++ eventRegs)
        c) ∧
    (∀ (s : State) (req : Req) (g : BitVec 3), s.chip.opens req (0x16000 + 0x100 * g.toNat) false = true → ∃ c : Chip, exec (.samplePortRead req g) s
        = .next (s.settled c) ∧ c.tx = s.chip.tx ++ [.fabric req true (s.chip.sampleRead g.toNat).2] ∧ c.dbg.smp = (s.chip.sampleRead
        g.toNat).1.dbg.smp)

/-- COUNTER_READ (R510). -/
def Says.counterRead : Prop :=
    (∀ (s : State) (req : Req) (i : BitVec 6), ∃ c : Chip, exec (.counterRead req i) s = .next (s.settled c) ∧ s.chip.Only ([Part.tx, Part.pwr,
        Part.cores, Part.cry, Part.twist] ++ eventParts) ([F.PWR_STATUS_LAST_RESULT, F.PWR_WAKE_CAUSE_COLD, F.SNG_STATUS_TEMP1, F.WHL_TIME_HI_TIME,
        F.MBS_STATUSn_OWNER, F.MBN_STATUSn_OWNER, F.DGT_CTXn_STATUS_OWNER, F.TLY_STATUS_LAST, F.DBG_NOIL_SEL_UNIT, F.DBG_CNTi_HI_VALUE] ++ eventRegs)
        c) ∧
    (∀ (s : State) (req : Req) (i : BitVec 6), s.chip.opens req (R.DBG_CNTi_LO i.toNat) false = true → ∃ c : Chip, exec (.counterRead req i) s =
        .next (s.settled c) ∧ c.tx = s.chip.tx ++ [.fabric req true (tget s.chip.dbg.cnt i.toNat 0 % 2 ^ 32)])

/-- NOIL_FREEZE (R502): a write of `FREEZE`; the other causes freeze where they arise. -/
def Says.noilFreeze : Prop :=
    (∀ (s : State) (req : Req), ∃ c : Chip, exec (.noilFreeze req) s = .next (s.settled c) ∧ s.chip.Only ([Part.tx, Part.pwr] ++ eventParts)
        ([F.PWR_STATUS_LAST_RESULT, F.PWR_WAKE_CAUSE_COLD, F.SNG_STATUS_TEMP1, F.DBG_NOIL_STATUS_CAUSE] ++ eventRegs) c) ∧
    (∀ (s : State) (req : Req), s.chip.opens req R.DBG_NOIL_CTRL true = true → s.chip.get F.DBG_NOIL_STATUS_FROZEN = 0 → ∃ c : Chip, exec
        (.noilFreeze req) s = .next (s.settled c) ∧ c.get F.DBG_NOIL_STATUS_FROZEN = 1 ∧ c.get F.DBG_NOIL_STATUS_CAUSE = 4 ∧ c.dbg = s.chip.dbg)

/-- UNFREEZE (R502). -/
def Says.unfreeze : Prop :=
    (∀ (s : State) (req : Req), ∃ c : Chip, exec (.unfreeze req) s = .next (s.settled c) ∧ s.chip.Only ([Part.tx, Part.pwr] ++ eventParts)
        ([F.PWR_STATUS_LAST_RESULT, F.PWR_WAKE_CAUSE_COLD, F.SNG_STATUS_TEMP1, F.DBG_NOIL_STATUS_CAUSE] ++ eventRegs) c) ∧
    (∀ (s : State) (req : Req), s.chip.opens req R.DBG_NOIL_CTRL true = true → ∃ c : Chip, exec (.unfreeze req) s = .next (s.settled c) ∧ c.dbg.noil
        = [] ∧ c.get F.DBG_NOIL_STATUS_FROZEN = 0 ∧ c.get F.DBG_NOIL_STATUS_CAUSE = 0)

/-- NOIL_DATA_READ (R510). -/
def Says.noilDataRead : Prop :=
    (∀ (s : State) (req : Req), ∃ c : Chip, exec (.noilDataRead req) s = .next (s.settled c) ∧ s.chip.Only ([Part.tx, Part.pwr, Part.cores, Part.cry,
        Part.twist] ++ eventParts) ([F.PWR_STATUS_LAST_RESULT, F.PWR_WAKE_CAUSE_COLD, F.SNG_STATUS_TEMP1, F.WHL_TIME_HI_TIME, F.MBS_STATUSn_OWNER,
        F.MBN_STATUSn_OWNER, F.DGT_CTXn_STATUS_OWNER, F.TLY_STATUS_LAST, F.DBG_NOIL_SEL_UNIT, F.DBG_CNTi_HI_VALUE] ++ eventRegs) c) ∧
    (∀ (s : State) (req : Req), s.chip.opens req R.DBG_NOIL_DATA false = true → s.chip.dbg.noilWord < 3 → ∃ c : Chip, exec (.noilDataRead req) s =
        .next (s.settled c) ∧ c.dbg.noilWord = s.chip.dbg.noilWord + 1 ∧ c.tx = s.chip.tx ++ [.fabric req true (numAt (s.chip.noilEntry (s.chip.get
        F.DBG_NOIL_SEL_UNIT) (s.chip.get F.DBG_NOIL_SEL_ENTRY)) (4 * s.chip.dbg.noilWord) 4)])

/-- DBG_SPN_TRACE_WRITE (R510). -/
def Says.dbgSpnTraceWrite : Prop :=
    (∀ (s : State) (req : Req) (value : Word), ∃ c : Chip, exec (.dbgSpnTraceWrite req value) s = .next (s.settled c) ∧ s.chip.Only ([Part.tx,
        Part.pwr] ++ eventParts) ([F.PWR_STATUS_LAST_RESULT, F.PWR_WAKE_CAUSE_COLD, F.SNG_STATUS_TEMP1] ++ eventRegs) c) ∧
    (∀ (s : State) (req : Req) (value : Word), s.chip.opens req R.DBG_SPN_TRACE true = true → s.chip.dbg.spn.length < 7 → ∃ c : Chip, exec
        (.dbgSpnTraceWrite req value) s = .next (s.settled c) ∧ c.dbg.spn = s.chip.dbg.spn ++ [value] ∧ c.tx = s.chip.tx ++ [.fabric req true 0])

/-- GEN_EVT_DATA_READ (R515). -/
def Says.genEvtDataRead : Prop :=
    (∀ (s : State) (req : Req), ∃ c : Chip, exec (.genEvtDataRead req) s = .next (s.settled c) ∧ s.chip.Only ([Part.tx, Part.pwr, Part.cores,
        Part.cry, Part.twist] ++ eventParts) ([F.PWR_STATUS_LAST_RESULT, F.PWR_WAKE_CAUSE_COLD, F.SNG_STATUS_TEMP1, F.WHL_TIME_HI_TIME,
        F.MBS_STATUSn_OWNER, F.MBN_STATUSn_OWNER, F.DGT_CTXn_STATUS_OWNER, F.TLY_STATUS_LAST, F.DBG_NOIL_SEL_UNIT, F.DBG_CNTi_HI_VALUE] ++ eventRegs)
        c) ∧
    (∀ (s : State) (req : Req), s.chip.opens req R.GEN_EVT_DATA false = true → req = reqSpindle → s.chip.logs.svcWord < 7 → s.chip.logs.svc ≠ [] → ∃
        c : Chip, exec (.genEvtDataRead req) s = .next (s.settled c) ∧ c.logs = { s.chip.logs with svcWord := s.chip.logs.svcWord + 1 } ∧
        (s.chip.logs.svc.map (fun r => s.chip.tx ++ [.fabric req true (numAt r.bytes (4 * s.chip.logs.svcWord) 4)])).head? = some c.tx)

/-- GEN_AEV_DATA_READ (R515). -/
def Says.genAevDataRead : Prop :=
    (∀ (s : State) (req : Req), ∃ c : Chip, exec (.genAevDataRead req) s = .next (s.settled c) ∧ s.chip.Only ([Part.tx, Part.pwr, Part.cores,
        Part.cry, Part.twist] ++ eventParts) ([F.PWR_STATUS_LAST_RESULT, F.PWR_WAKE_CAUSE_COLD, F.SNG_STATUS_TEMP1, F.WHL_TIME_HI_TIME,
        F.MBS_STATUSn_OWNER, F.MBN_STATUSn_OWNER, F.DGT_CTXn_STATUS_OWNER, F.TLY_STATUS_LAST, F.DBG_NOIL_SEL_UNIT, F.DBG_CNTi_HI_VALUE] ++ eventRegs)
        c) ∧
    (∀ (s : State) (req : Req), s.chip.opens req R.GEN_AEV_DATA false = true → req = reqSpindle → s.chip.logs.aonWord < 7 → s.chip.logs.aon ≠ [] → ∃
        c : Chip, exec (.genAevDataRead req) s = .next (s.settled c) ∧ c.logs = { s.chip.logs with aonWord := s.chip.logs.aonWord + 1 } ∧
        (s.chip.logs.aon.map (fun r => s.chip.tx ++ [.fabric req true (numAt r.bytes (4 * s.chip.logs.aonWord) 4)])).head? = some c.tx)

/-- SOFTWARE_RECORD (R495): a core's write of CSR 0x7C1. -/
def Says.softwareRecord : Prop :=
    (∀ (s : State) (core : Nat) (value : BitVec 64), ∃ c : Chip, exec (.softwareRecord core value) s = .next (s.settled c) ∧ s.chip.Only eventParts
        eventRegs c) ∧
    (∀ (s : State) (core : Nat) (value : BitVec 64), core < 6 → s.chip.svcUp = true → s.chip.coreFree core = true → ∃ c : Chip, exec (.softwareRecord
        core value) s = .next (s.settled c) ∧ c = s.chip.trace core 3 0 (le 8 value.toNat))

/-- DMA_CH_TAIL_WRITE (R302): the holder moves `TAIL`; descriptors with a reserved `OP` at the head are refused with BAD_ARG. -/
def Says.dmaChTailWrite : Prop :=
    (∀ (s : State) (req : Req) (n : BitVec 5) (idx : BitVec 10), ∃ c : Chip, exec (.dmaChTailWrite req n idx) s = .next (s.settled c) ∧ s.chip.Only
        ([Part.tx, Part.pwr, Part.mem, Part.dma] ++ eventParts) ([F.PWR_STATUS_LAST_RESULT, F.PWR_WAKE_CAUSE_COLD, F.SNG_STATUS_TEMP1,
        F.DMA_STATUS_STOPPED, F.DMA_FAULT_MASK_CH, F.DMA_STOP_MASK_CH, F.DMA_CHn_TAIL_IDX, F.DMA_CHn_HEAD_IDX, F.DMA_CHn_STATUS_LAST_ERR,
        F.DMA_CHn_CUR_SRC_LO_ADDR, F.DMA_CHn_CUR_SRC_HI_ADDR, F.DMA_CHn_CUR_DST_LO_ADDR, F.DMA_CHn_CUR_DST_HI_ADDR, F.DMA_CHn_REMAIN_COUNT,
        F.DMA_CHn_ENTRY_POS, F.DMA_CHn_ELEM_OFF_BYTES] ++ eventRegs) c) ∧
    (∀ (s : State) (req : Req) (n : BitVec 5) (idx : BitVec 10), s.chip.opens req (R.DMA_CHn_TAIL n.toNat) true = true → idx.toNat < 2 ^ s.chip.geti
        F.DMA_CHn_CFG_LOG2 n.toNat → 1 ≤ (s.chip.dmRead n.toNat []).op → (s.chip.dmRead n.toNat []).op ≤ 4 → ∃ c : Chip, exec (.dmaChTailWrite req n
        idx) s = .next (s.settled c) ∧ c.geti F.DMA_CHn_TAIL_IDX n.toNat = idx.toNat ∧ c.tx = s.chip.tx ++ [.fabric req true 0])

/-- DMA_OWN_POLL (R302): a descriptor whose `OWN` still reads 0 is only read again. -/
def Says.dmaOwnPoll : Prop :=
    ∀ (s : State) (_n : BitVec 5), exec (.dmaOwnPoll _n) s = .next s

/-- COPY (R303). -/
def Says.copy : Prop :=
    (∀ (s : State) (n : BitVec 5), ∃ c : Chip, exec (.copy n) s = .next (s.settled c) ∧ s.chip.Only ([Part.tx, Part.mem, Part.dma] ++ eventParts)
        ([F.DMA_STATUS_STOPPED, F.DMA_FAULT_MASK_CH, F.DMA_STOP_MASK_CH, F.DMA_CHn_HEAD_IDX, F.DMA_CHn_STATUS_LAST_ERR, F.DMA_CHn_CUR_SRC_LO_ADDR,
        F.DMA_CHn_CUR_SRC_HI_ADDR, F.DMA_CHn_CUR_DST_LO_ADDR, F.DMA_CHn_CUR_DST_HI_ADDR, F.DMA_CHn_REMAIN_COUNT, F.DMA_CHn_ENTRY_POS,
        F.DMA_CHn_ELEM_OFF_BYTES] ++ eventRegs) c) ∧
    (∀ (s : State) (n : BitVec 5), s.chip.dmReady n.toNat = true → (s.chip.dmRead n.toNat []).op = 1 → bit (s.chip.dmRead n.toNat []).flags 0 = true
        → s.chip.dmCheck n.toNat (s.chip.dmRead n.toNat []) = .ok → ∃ c : Chip, exec (.copy n) s = .next (s.settled c) ∧ (c.dm n.toNat).desc = some
        (s.chip.dmRead n.toNat []) ∧ (c.dmSt n.toNat = dRunning ∨ c.dmSt n.toNat = dWaiting))

/-- FILL (R303). -/
def Says.fill : Prop :=
    (∀ (s : State) (n : BitVec 5), ∃ c : Chip, exec (.fill n) s = .next (s.settled c) ∧ s.chip.Only ([Part.tx, Part.mem, Part.dma] ++ eventParts)
        ([F.DMA_STATUS_STOPPED, F.DMA_FAULT_MASK_CH, F.DMA_STOP_MASK_CH, F.DMA_CHn_HEAD_IDX, F.DMA_CHn_STATUS_LAST_ERR, F.DMA_CHn_CUR_SRC_LO_ADDR,
        F.DMA_CHn_CUR_SRC_HI_ADDR, F.DMA_CHn_CUR_DST_LO_ADDR, F.DMA_CHn_CUR_DST_HI_ADDR, F.DMA_CHn_REMAIN_COUNT, F.DMA_CHn_ENTRY_POS,
        F.DMA_CHn_ELEM_OFF_BYTES] ++ eventRegs) c) ∧
    (∀ (s : State) (n : BitVec 5), s.chip.dmReady n.toNat = true → (s.chip.dmRead n.toNat []).op = 2 → bit (s.chip.dmRead n.toNat []).flags 0 = true
        → s.chip.dmCheck n.toNat (s.chip.dmRead n.toNat []) = .ok → ∃ c : Chip, exec (.fill n) s = .next (s.settled c) ∧ (c.dm n.toNat).desc = some
        (s.chip.dmRead n.toNat []) ∧ (c.dmSt n.toNat = dRunning ∨ c.dmSt n.toNat = dWaiting))

/-- GATHER (R303, R304). -/
def Says.gather : Prop :=
    (∀ (s : State) (n : BitVec 5) (table : List Nat), ∃ c : Chip, exec (.gather n table) s = .next (s.settled c) ∧ s.chip.Only ([Part.tx, Part.mem,
        Part.dma] ++ eventParts) ([F.DMA_STATUS_STOPPED, F.DMA_FAULT_MASK_CH, F.DMA_STOP_MASK_CH, F.DMA_CHn_HEAD_IDX, F.DMA_CHn_STATUS_LAST_ERR,
        F.DMA_CHn_CUR_SRC_LO_ADDR, F.DMA_CHn_CUR_SRC_HI_ADDR, F.DMA_CHn_CUR_DST_LO_ADDR, F.DMA_CHn_CUR_DST_HI_ADDR, F.DMA_CHn_REMAIN_COUNT,
        F.DMA_CHn_ENTRY_POS, F.DMA_CHn_ELEM_OFF_BYTES] ++ eventRegs) c) ∧
    (∀ (s : State) (n : BitVec 5) (table : List Nat), s.chip.dmReady n.toNat = true → (s.chip.dmRead n.toNat table).op = 3 → bit (s.chip.dmRead
        n.toNat table).flags 0 = true → s.chip.dmCheck n.toNat (s.chip.dmRead n.toNat table) = .ok → ∃ c : Chip, exec (.gather n table) s = .next
        (s.settled c) ∧ (c.dm n.toNat).desc = some (s.chip.dmRead n.toNat table) ∧ (c.dmSt n.toNat = dRunning ∨ c.dmSt n.toNat = dWaiting))

/-- SCATTER (R303, R304). -/
def Says.scatter : Prop :=
    (∀ (s : State) (n : BitVec 5) (table : List Nat), ∃ c : Chip, exec (.scatter n table) s = .next (s.settled c) ∧ s.chip.Only ([Part.tx, Part.mem,
        Part.dma] ++ eventParts) ([F.DMA_STATUS_STOPPED, F.DMA_FAULT_MASK_CH, F.DMA_STOP_MASK_CH, F.DMA_CHn_HEAD_IDX, F.DMA_CHn_STATUS_LAST_ERR,
        F.DMA_CHn_CUR_SRC_LO_ADDR, F.DMA_CHn_CUR_SRC_HI_ADDR, F.DMA_CHn_CUR_DST_LO_ADDR, F.DMA_CHn_CUR_DST_HI_ADDR, F.DMA_CHn_REMAIN_COUNT,
        F.DMA_CHn_ENTRY_POS, F.DMA_CHn_ELEM_OFF_BYTES] ++ eventRegs) c) ∧
    (∀ (s : State) (n : BitVec 5) (table : List Nat), s.chip.dmReady n.toNat = true → (s.chip.dmRead n.toNat table).op = 4 → bit (s.chip.dmRead
        n.toNat table).flags 0 = true → s.chip.dmCheck n.toNat (s.chip.dmRead n.toNat table) = .ok → ∃ c : Chip, exec (.scatter n table) s = .next
        (s.settled c) ∧ (c.dm n.toNat).desc = some (s.chip.dmRead n.toNat table) ∧ (c.dmSt n.toNat = dRunning ∨ c.dmSt n.toNat = dWaiting))

/-- DMA_REQUEST_LINE (R308, R309). -/
def Says.dmaRequestLine : Prop :=
    ∀ (s : State) (line : BitVec 6) (data : List Byte), s.chip.svcUp = true → 48 ≤ line.toNat → 0 < s.chip.swPend line.toNat → (s.chip.lineOwner
        line.toNat).any (fun n => (s.chip.dm n).desc.isSome && (s.chip.dmSt n == dWaiting || s.chip.dmSt n == dRunning) && s.chip.geti
        F.DMA_CHn_REMAIN_COUNT n != 0) = true → ∃ c : Chip, exec (.dmaRequestLine line data) s = .next (s.cutSettled c) ∧ c.swPend line.toNat =
        s.chip.swPend line.toNat - 1

/-- DMA_DESCRIPTOR_DONE (R303 to R306): the rest of the descriptor's data goes, and it is written back. -/
def Says.dmaDescriptorDone : Prop :=
    ∀ (s : State) (n : BitVec 5) (data : List Byte), s.chip.svcUp = true → s.chip.dmSt n.toNat = dRunning → s.chip.geti F.DMA_CHn_REMAIN_COUNT
        n.toNat = 0 → (s.chip.dm n.toNat).buf.isEmpty = true → (s.chip.dm n.toNat).desc.isSome = true → ∃ c : Chip, exec (.dmaDescriptorDone n data)
        s = .next (s.cutSettled c) ∧ (c.dm n.toNat).desc = none ∧ c.dmSt n.toNat = s.chip.dmIdle n.toNat

/-- DMA_SWREQ (R309): a write of `DMA_SWREQ`. -/
def Says.dmaSwreq : Prop :=
    (∀ (s : State) (req : Req) (mask : BitVec 16), ∃ c : Chip, exec (.dmaSwreq req mask) s = .next (s.settled c) ∧ s.chip.Only ([Part.tx,
        Part.pwr] ++ eventParts) ([F.PWR_STATUS_LAST_RESULT, F.PWR_WAKE_CAUSE_COLD, F.SNG_STATUS_TEMP1, F.DMA_SWREQ_PEND_LO_COUNT,
        F.DMA_SWREQ_PEND_HI_COUNT] ++ eventRegs) c) ∧
    (∀ (s : State) (req : Req) (mask : BitVec 16), s.chip.opens req R.DMA_SWREQ true = true → mask = 0 → ∃ c : Chip, exec (.dmaSwreq req mask) s =
        .next (s.settled c) ∧ c = s.chip.wrote req) ∧
    (∀ (s : State) (req : Req) (mask : BitVec 16), s.chip.opens req R.DMA_SWREQ true = true → mask = 0x8000#16 → s.chip.swPend 63 < 15 → ∃ c : Chip,
        exec (.dmaSwreq req mask) s = .next (s.settled c) ∧ c.swPend 63 = s.chip.swPend 63 + 1 ∧ c.tx = s.chip.tx ++ [.fabric req true 0])

/-- DMA_PAUSE (R311): a write of `PAUSE`, set or cleared. -/
def Says.dmaPause : Prop :=
    (∀ (s : State) (req : Req) (n : BitVec 5) (on : Bool), ∃ c : Chip, exec (.dmaPause req n on) s = .next (s.settled c) ∧ s.chip.Only ([Part.tx,
        Part.pwr] ++ eventParts) ([F.PWR_STATUS_LAST_RESULT, F.PWR_WAKE_CAUSE_COLD, F.SNG_STATUS_TEMP1, F.DMA_STATUS_STOPPED, F.DMA_FAULT_MASK_CH,
        F.DMA_STOP_MASK_CH, F.DMA_CHn_CTRL_CLEAR, F.DMA_CHn_STATUS_LAST_ERR] ++ eventRegs) c) ∧
    (∀ (s : State) (req : Req) (n : BitVec 5) (on : Bool), s.chip.opens req (R.DMA_CHn_CTRL n.toNat) true = true → s.chip.dmSt n.toNat = dDisabled →
        ∃ c : Chip, exec (.dmaPause req n on) s = .next (s.settled c) ∧ c.geti F.DMA_CHn_CTRL_PAUSE n.toNat = b2n on) ∧
    (∀ (s : State) (req : Req) (n : BitVec 5) (on : Bool), s.chip.opens req (R.DMA_CHn_CTRL n.toNat) true = true → s.chip.dmSt n.toNat = dRunning →
        on = true → ∃ c : Chip, exec (.dmaPause req n on) s = .next (s.settled c) ∧ c.geti F.DMA_CHn_CTRL_PAUSE n.toNat = 1 ∧ c.dmSt n.toNat =
        dPausing ∧ c.tx = s.chip.tx ++ [.fabric req true 0])

/-- DMA_PAUSE_DRAINED (R311). -/
def Says.dmaPauseDrained : Prop :=
    ∀ (s : State) (m : DmaMove), s.chip.svcUp = true → m.ch < 32 → s.chip.dmSt m.ch = dPausing → (s.chip.dm m.ch).desc = none → (s.chip.dm
        m.ch).buf.isEmpty = true → s.chip.dmHeld m.ch = true → ∃ c : Chip, exec (.dmaPauseDrained m) s = .next (s.cutSettled c) ∧ c.dmSt m.ch =
        dPaused

/-- DMA_ABORT (R311): a write of `ABORT`. -/
def Says.dmaAbort : Prop :=
    (∀ (s : State) (req : Req) (n : BitVec 5), ∃ c : Chip, exec (.dmaAbort req n) s = .next (s.settled c) ∧ s.chip.Only ([Part.tx, Part.pwr,
        Part.mem, Part.dma] ++ eventParts) ([F.PWR_STATUS_LAST_RESULT, F.PWR_WAKE_CAUSE_COLD, F.SNG_STATUS_TEMP1, F.DMA_STATUS_STOPPED,
        F.DMA_FAULT_MASK_CH, F.DMA_STOP_MASK_CH, F.DMA_CHn_HEAD_IDX, F.DMA_CHn_STATUS_LAST_ERR, dmaRegs] ++ eventRegs) c) ∧
    (∀ (s : State) (req : Req) (n : BitVec 5), s.chip.opens req (R.DMA_CHn_CTRL n.toNat) true = true → s.chip.dmSt n.toNat ≠ dPaused → ∃ c : Chip,
        exec (.dmaAbort req n) s = .next (s.settled c) ∧ c = s.chip.wrote req) ∧
    (∀ (s : State) (req : Req) (n : BitVec 5), s.chip.opens req (R.DMA_CHn_CTRL n.toNat) true = true → s.chip.dmSt n.toNat = dPaused → (s.chip.dm
        n.toNat).desc.isSome = true → ∃ c : Chip, exec (.dmaAbort req n) s = .next (s.settled c) ∧ (c.dm n.toNat).desc = none ∧ c.dmSt n.toNat =
        s.chip.dmIdle n.toNat)

/-- DMA_BUS_ERROR (R307, R313): cause, address, direction, whether an index read, the ring index of a late write's descriptor, and what the channels
moved before the stop. -/
def Says.dmaBusError : Prop :=
    ∀ (s : State) (n : BitVec 5) (cause addr : Nat) (wr index : Bool) (late : Option Nat) (moves : List DmaMove), s.chip.svcUp = true → late = none →
        moves = [] → s.chip.dmInFlight n.toNat none = true → s.chip.dmCauseOk n.toNat cause addr wr false = true → (List.range 32).any (fun k => k !=
        n.toNat && s.chip.dmSt k == dRunning) = true → ∃ c : Chip, exec (.dmaBusError n cause addr wr index late moves) s = .next (s.cutSettled c) ∧
        c.get F.DMA_STATUS_STOPPED = 1 ∧ c.dmSt n.toNat = dFault

/-- DMA_RELEASE (R314): a write of `DMA_RELEASE`. -/
def Says.dmaRelease : Prop :=
    (∀ (s : State) (req : Req) (mask : Word), ∃ c : Chip, exec (.dmaRelease req mask) s = .next (s.settled c) ∧ s.chip.Only ([Part.tx, Part.pwr] ++
        eventParts) ([F.PWR_STATUS_LAST_RESULT, F.PWR_WAKE_CAUSE_COLD, F.SNG_STATUS_TEMP1, F.DMA_STATUS_STOPPED, F.DMA_FAULT_MASK_CH,
        F.DMA_STOP_MASK_CH, F.DMA_CHn_STATUS_LAST_ERR] ++ eventRegs) c) ∧
    (∀ (s : State) (req : Req) (mask : Word), s.chip.opens req R.DMA_RELEASE true = true → ∃ c : Chip, exec (.dmaRelease req mask) s = .next
        (s.settled c) ∧ (bitsIn mask.toNat 32).all (fun n => c.dmSt n != dStopped) = true)

/-- DMA_CLEAR (R314): a write of `CLEAR`, which is Spindle's alone. -/
def Says.dmaClear : Prop :=
    (∀ (s : State) (req : Req) (n : BitVec 5), ∃ c : Chip, exec (.dmaClear req n) s = .next (s.settled c) ∧ s.chip.Only ([Part.tx, Part.pwr] ++
        eventParts) ([F.PWR_STATUS_LAST_RESULT, F.PWR_WAKE_CAUSE_COLD, F.SNG_STATUS_TEMP1, F.DMA_STATUS_STOPPED, F.DMA_FAULT_MASK_CH,
        F.DMA_STOP_MASK_CH, F.DMA_CHn_STATUS_LAST_ERR, F.DMA_CHn_FAULT_ADDR_LO_ADDR, F.DMA_CHn_FAULT_ADDR_HI_ADDR, F.DMA_CHn_FAULT_STATUS] ++
        eventRegs) c) ∧
    (∀ (s : State) (req : Req) (n : BitVec 5), s.chip.opens req (R.DMA_CHn_CTRL n.toNat) true = true → classOf req = .spindle → s.chip.dmSt n.toNat =
        dFault → s.chip.geti F.DMA_CHn_FAULT_LATE n.toNat = 0 → ∃ c : Chip, exec (.dmaClear req n) s = .next (s.settled c) ∧ c.dmSt n.toNat =
        s.chip.dmIdle n.toNat ∧ c.rd (R.DMA_CHn_FAULT n.toNat) = 0)

/-- DMA_PARITY_ERROR (R317). -/
def Says.dmaParityError : Prop :=
    (∀ (s : State) (n : BitVec 5), ∃ c : Chip, exec (.dmaParityError n) s = .next (s.settled c) ∧ s.chip.Only ([Part.tx, Part.mem, Part.dma] ++
        eventParts) ([F.DMA_STATUS_STOPPED, F.DMA_FAULT_MASK_CH, F.DMA_STOP_MASK_CH, F.DMA_CHn_HEAD_IDX, F.DMA_CHn_STATUS_LAST_ERR,
        F.DMA_CHn_FAULT_ADDR_LO_ADDR, F.DMA_CHn_FAULT_ADDR_HI_ADDR, F.DMA_CHn_FAULT_STATUS, dmaRegs] ++ eventRegs) c) ∧
    (∀ (s : State) (n : BitVec 5), s.chip.svcUp = true → s.chip.dmSt n.toNat ≠ dFault → s.chip.dmSt n.toNat ≠ dDisabled → ∃ c : Chip, exec
        (.dmaParityError n) s = .next (s.settled c) ∧ c.dmSt n.toNat = dFault ∧ (c.dm n.toNat).desc = none)

/-- DMA_CHANNEL_ENABLE (R312): a write of `EN` 1. -/
def Says.dmaChannelEnable : Prop :=
    (∀ (s : State) (req : Req) (n : BitVec 5), ∃ c : Chip, exec (.dmaChannelEnable req n) s = .next (s.settled c) ∧ s.chip.Only ([Part.tx,
        Part.pwr] ++ eventParts) ([F.PWR_STATUS_LAST_RESULT, F.PWR_WAKE_CAUSE_COLD, F.SNG_STATUS_TEMP1, F.DMA_STATUS_STOPPED, F.DMA_FAULT_MASK_CH,
        F.DMA_STOP_MASK_CH, F.DMA_CHn_CFG_EN, F.DMA_CHn_STATUS_LAST_ERR] ++ eventRegs) c) ∧
    (∀ (s : State) (req : Req) (n : BitVec 5), s.chip.opens req (R.DMA_CHn_CFG n.toNat) true = true → s.chip.dmSt n.toNat = dDisabled → ∃ c : Chip,
        exec (.dmaChannelEnable req n) s = .next (s.settled c) ∧ c.geti F.DMA_CHn_CFG_EN n.toNat = 1 ∧ c.dmSt n.toNat = (s.chip.puti F.DMA_CHn_CFG_EN
        n.toNat 1).dmIdle n.toNat)

/-- ROOT_UPDATE (R241): the instance of its base die accepts it, whatever its role. -/
def Says.rootUpdate : Prop :=
    (∀ (s : State) (ch : Nat) (frame : WarpFrame), ∃ c : Chip, exec (.rootUpdate ch frame) s = .next (s.settled c) ∧ s.chip.Only ([Part.tx,
        Part.cust, Part.ply] ++ eventParts) ([F.PLY_MSEQ_LO_SEQ, F.PLY_MSEQ_HI_SEQ] ++ eventRegs) c) ∧
    (∀ (s : State) (ch : Nat) (frame : WarpFrame), s.chip.svcUp = true → ch < 8 → s.chip.cust.rootRepair = [] → (s.chip.bob? frame.bobbin).any (fun b
        => b.cls == clsWORSTED && b.sub == frame.epoch % 4096 && s.chip.warpCh b == some ch && decide (b.rootVer < frame.time)) = true → ∃ c : Chip,
        exec (.rootUpdate ch frame) s = .next (s.settled c) ∧ (c.bob? frame.bobbin).map (·.rootVer) = some frame.time ∧ c.cust.rootWait =
        s.chip.cust.rootWait)

/-- ROOT_STORE_PATROL (R243). -/
def Says.rootStorePatrol : Prop :=
    (∀ (s : State) (tree : Nat) (double : Bool), ∃ c : Chip, exec (.rootStorePatrol tree double) s = .next (s.settled c) ∧ s.chip.Only
        ([Part.cust] ++ eventParts) eventRegs c) ∧
    (∀ (s : State) (tree : Nat) (double : Bool), s.chip.svcUp = true → double = true → ∃ c : Chip, exec (.rootStorePatrol tree double) s = .next
        (s.settled c) ∧ c.cust.rootRepair.contains tree = true ∧ c.logs = s.chip.logs) ∧
    (∀ (s : State) (tree : Nat) (double : Bool), s.chip.svcUp = true → double = false → ∃ c : Chip, exec (.rootStorePatrol tree double) s = .next
        (s.settled c) ∧ c.cust = s.chip.cust)

/-- ROOT_REPAIR_DONE (R243, R245). -/
def Says.rootRepairDone : Prop :=
    (∀ (s : State) (tree : Nat) (good : Bool) (bytes : List Byte), ∃ c : Chip, exec (.rootRepairDone tree good bytes) s = .next (s.settled c) ∧
        s.chip.Only ([Part.tx, Part.ring, Part.mem, Part.cust, Part.whl, Part.hanks, Part.ply] ++ eventParts) ([F.WHL_Ln_STATE_RESULT,
        F.WHL_Ln_UNCONFIRMED_COUNT, F.PLY_MSEQ_LO_SEQ, F.PLY_MSEQ_HI_SEQ, F.BOB_CPL_TAIL_IDX, F.BOB_JSEQ_LO_SEQ, F.BOB_JSEQ_HI_SEQ,
        F.DST_CACHE_STAT_PINNED, F.DST_HANKn_VALID] ++ eventRegs) c) ∧
    (∀ (s : State) (tree : Nat) (good : Bool) (bytes : List Byte), s.chip.svcUp = true → s.chip.cust.rootRepair = [tree] → s.chip.cust.rootWait = []
        → good = true → s.chip.pkg ≠ .hx4 → ∃ c : Chip, exec (.rootRepairDone tree good bytes) s = .next (s.settled c) ∧ tget? c.cust.trs tree = some
        (padTo 64 bytes) ∧ c.cust.rootRepair = [])

/-- FAULT_REPORT (R244). -/
def Says.faultReport : Prop :=
    (∀ (s : State) (ch : Nat) (frame : WarpFrame), ∃ c : Chip, exec (.faultReport ch frame) s = .next (s.settled c) ∧ s.chip.Only ([Part.tx,
        Part.ring, Part.mem, Part.cust, Part.ply] ++ eventParts) ([F.BOB_CPL_TAIL_IDX] ++ eventRegs) c) ∧
    (∀ (s : State) (ch : Nat) (frame : WarpFrame), s.chip.svcUp = true → s.chip.pkg ≠ .hx4 → s.chip.leads = false → s.chip.linked = false → ∃ c :
        Chip, exec (.faultReport ch frame) s = .next (s.settled c) ∧ c.ply.reports = holdReport s.chip.ply.reports (ch % 8, frame)) ∧
    (∀ (s : State) (ch : Nat) (frame : WarpFrame), s.chip.svcUp = true → s.chip.leads = true → s.chip.cust.seenReports = [] → s.chip.logs.svc.length
        ≤ 4000 → (s.chip.bob? frame.bobbin).any (fun b => (s.chip.hank? b.hank).isNone) = true → ∃ c : Chip, exec (.faultReport ch frame) s = .next
        (s.settled c) ∧ c.cust.seenReports = [(ch % 8, frame, s.chip.slot)] ∧ (c.logs.svc.drop s.chip.logs.svc.length).any (fun r => r.code == (if
        numAt frame.share0 0 1 = 1 then 0x3901 else if numAt frame.share0 0 1 = 2 then 0x3902 else 0x2901)) = true)

/-- COMPLEX_RESET_ANNOUNCE (R246). -/
def Says.complexResetAnnounce : Prop :=
    (∀ (s : State) (ch : Nat) (frame : WarpFrame), ∃ c : Chip, exec (.complexResetAnnounce ch frame) s = .next (s.settled c) ∧ s.chip.Only ([Part.tx,
        Part.mem, Part.cust, Part.whl, Part.ply] ++ eventParts) ([F.WHL_Ln_UNCONFIRMED_COUNT, F.BOB_CPL_TAIL_IDX, F.BOB_WARP_STATUS_CH] ++ eventRegs)
        c) ∧
    (∀ (s : State) (ch : Nat) (frame : WarpFrame), s.chip.svcUp = true → s.chip.pkg ≠ .hx4 → s.chip.leads = false → s.chip.linked = false → ∃ c :
        Chip, exec (.complexResetAnnounce ch frame) s = .next (s.settled c) ∧ c.ply.reports = holdReport s.chip.ply.reports (ch % 8, frame)) ∧
    (∀ (s : State) (ch : Nat) (frame : WarpFrame), s.chip.svcUp = true → s.chip.leads = true → s.chip.cust.seenReports = [] → s.chip.cust.bobs = [] →
        ∃ c : Chip, exec (.complexResetAnnounce ch frame) s = .next (s.settled c) ∧ c.chSt (ch % 8) = 3)

/-- BOUNDARY_REPORT (R249). -/
def Says.boundaryReport : Prop :=
    (∀ (s : State) (ch : Nat) (frame : WarpFrame), ∃ c : Chip, exec (.boundaryReport ch frame) s = .next (s.settled c) ∧ s.chip.Only ([Part.tx,
        Part.mem, Part.cust, Part.ply] ++ eventParts) ([F.PLY_MSEQ_LO_SEQ, F.PLY_MSEQ_HI_SEQ, F.BOB_CPL_TAIL_IDX] ++ eventRegs) c) ∧
    (∀ (s : State) (ch : Nat) (frame : WarpFrame), s.chip.svcUp = true → s.chip.leads = true → (s.chip.bob? frame.bobbin).any (fun b => b.epoch ==
        frame.epoch) = true → frame.result ≠ Status.ok.code → ∃ c : Chip, exec (.boundaryReport ch frame) s = .next (s.settled c) ∧ (c.bob?
        frame.bobbin).map (fun b => (b.bound, b.reenc)) = (s.chip.bob? frame.bobbin).map (fun b => (frame.time, b.reenc && true))) ∧
    (∀ (s : State) (ch : Nat) (frame : WarpFrame), s.chip.svcUp = true → s.chip.leads = true → (s.chip.bob? frame.bobbin).any (fun b => b.epoch ==
        frame.epoch) = true → frame.result = Status.ok.code → ∃ c : Chip, exec (.boundaryReport ch frame) s = .next (s.settled c) ∧ (c.bob?
        frame.bobbin).map (fun b => (b.bound, b.reenc)) = some (frame.time, false))

/-- PEER_EPOCH_REPORT (R252). -/
def Says.peerEpochReport : Prop :=
    (∀ (s : State) (ch : Nat) (frame : WarpFrame), ∃ c : Chip, exec (.peerEpochReport ch frame) s = .next (s.settled c) ∧ s.chip.Only ([Part.tx,
        Part.mem, Part.cust, Part.ply] ++ eventParts) ([F.BOB_CPL_TAIL_IDX] ++ eventRegs) c) ∧
    (∀ (s : State) (ch : Nat) (frame : WarpFrame), s.chip.svcUp = true → s.chip.pkg ≠ .hx4 → s.chip.leads = false → s.chip.linked = false → ∃ c :
        Chip, exec (.peerEpochReport ch frame) s = .next (s.settled c) ∧ c.ply.reports = holdReport s.chip.ply.reports (ch % 8, frame)) ∧
    (∀ (s : State) (ch : Nat) (frame : WarpFrame), s.chip.svcUp = true → s.chip.leads = true → s.chip.cust.seenReports = [] → s.chip.logs.svc.length
        ≤ 4000 → (s.chip.cust.bobs.find? (fun e => e.2.cls == clsLINK && e.2.sub == frame.sub && s.chip.warpCh e.2 == some (ch % 8))).isSome = true →
        ∃ c : Chip, exec (.peerEpochReport ch frame) s = .next (s.settled c) ∧ c.cust.seenReports = [(ch % 8, frame, s.chip.slot)] ∧ (c.logs.svc.drop
        s.chip.logs.svc.length).any (fun r => r.code == 0x2906) = true)

/-- TWIST_BATCH (R352, R353). -/
def Says.twistBatch : Prop :=
    (∀ (s : State), ∃ c : Chip, exec .twistBatch s = .next (s.settled c) ∧ s.chip.Only ([Part.tx, Part.ring, Part.twist, Part.ply] ++ eventParts)
        ([F.PLY_MSEQ_LO_SEQ, F.PLY_MSEQ_HI_SEQ, F.DGT_TW_STATUS_INTAKE, F.DGT_TW_DUP_COUNT] ++ eventRegs) c) ∧
    (∀ (s : State), s.chip.leads = true → s.chip.get F.DGT_TW_CTRL_EN = 1 → (s.chip.front 0x30).any (fun m => !s.chip.carded m.src) = true → ∃ c :
        Chip, exec .twistBatch s = .next (s.settled c) ∧ c.twist = s.chip.twist ∧ c.ply = s.chip.ply) ∧
    (∀ (s : State), s.chip.leads = true → s.chip.get F.DGT_TW_CTRL_EN = 1 → (s.chip.front 0x30).any (fun m => s.chip.carded m.src && twKind (slice
        m.payload 0 64) != 0 && s.chip.hankOfDie m.src == some (twHank (slice m.payload 0 64)) && s.chip.twOpened (twHank (slice m.payload 0 64)) &&
        twSeq (slice m.payload 0 64) == tget s.chip.twist.next m.src 0 && twKind (slice m.payload 64 64) == 0 && twKind (slice m.payload 128 64) == 0
        && s.chip.twRoom m.src 1) = true → ∃ c : Chip, exec .twistBatch s = .next (s.settled c) ∧ (s.chip.front 0x30).all (fun m => decide
        (c.twist.intake = s.chip.twist.intake ++ [(false, (slice m.payload 0 64))]) && tget c.twist.next m.src 0 == twSeq (slice m.payload 0 64) + 1
        && decide ((c.ply.holds.getLast?).map (·.eff) = some (.ack m.src m.seq))) = true)

/-- TWIST_FOLD (R355, R360). -/
def Says.twistFold : Prop :=
    (∀ (s : State) (h : BitVec 4), ∃ c : Chip, exec (.twistFold h) s = .next (s.settled c) ∧ s.chip.Only ([Part.free, Part.tx, Part.ring, Part.pins,
        Part.cust, Part.whl, Part.hanks, Part.twist, Part.ply] ++ eventParts) ([F.WHL_Ln_STATE_RESULT, F.WHL_Ln_UNCONFIRMED_COUNT, F.PLY_MSEQ_LO_SEQ,
        F.PLY_MSEQ_HI_SEQ, F.BOB_JSEQ_LO_SEQ, F.BOB_JSEQ_HI_SEQ, F.DST_CACHE_STAT_PINNED, F.DST_HANKn_VALID, F.DGT_TW_STATUS_INTAKE,
        F.DGT_TWn_STATUS_DEPART_CODE, F.DGT_TWn_SEGMENT_NUM, F.DGT_TWn_RECORDS_COUNT, F.DGT_TWn_STEP_LO_STEP, F.DGT_TWn_STEP_HI_STEP,
        F.DGT_TWn_PROG_COUNT, F.DGT_TWn_COUNTS_GAPS] ++ eventRegs) c) ∧
    (∀ (s : State) (h : BitVec 4), s.chip.leads = true → s.chip.svcUp = true → s.chip.get F.DGT_TW_CTRL_EN = 1 → s.chip.twOpened h.toNat = true →
        s.chip.grp 1 = 2 → s.chip.twist.intake = [] → (s.chip.tw h.toNat).done = [] → ∃ c : Chip, exec (.twistFold h) s = .next (s.settled c) ∧
        c.twist.intake = [] ∧ (c.tw h.toNat).head = (s.chip.tw h.toNat).head) ∧
    (∀ (s : State) (h : BitVec 4), s.chip.leads = true → s.chip.svcUp = true → s.chip.get F.DGT_TW_CTRL_EN = 1 → s.chip.twOpened h.toNat = true →
        s.chip.grp 1 = 2 → 1 ≤ s.chip.twist.intake.length → s.chip.twist.intake.length ≤ 32 → s.chip.twist.intake.all (fun q => twHank q.2 ==
        h.toNat) = true → ∃ c : Chip, exec (.twistFold h) s = .next (s.settled c) ∧ c.twist.intake = [] ∧ c.get F.DGT_TW_STATUS_INTAKE = 0 ∧ (c.tw
        h.toNat).done = [])

/-- SEAL (R358): a write of `DGT_TWn_CTRL.SEAL`. -/
def Says.seal : Prop :=
    (∀ (s : State) (req : Req) (h : BitVec 4), ∃ c : Chip, exec (.seal req h) s = .next (s.settled c) ∧ s.chip.Only ([Part.tx, Part.pins, Part.pwr,
        Part.twist, Part.ply] ++ eventParts) ([F.PWR_STATUS_LAST_RESULT, F.PWR_WAKE_CAUSE_COLD, F.SNG_STATUS_TEMP1, F.PLY_MSEQ_LO_SEQ,
        F.PLY_MSEQ_HI_SEQ, F.DGT_TWn_SEGMENT_NUM, F.DGT_TWn_RECORDS_COUNT] ++ eventRegs) c) ∧
    (∀ (s : State) (req : Req) (h : BitVec 4), s.chip.opens req (R.DGT_TWn_CTRL h.toNat) true = true → s.chip.leads = true → s.chip.twOpened h.toNat
        = true → ∃ c : Chip, exec (.seal req h) s = .next (s.settled c) ∧ c.geti F.DGT_TWn_SEGMENT_NUM h.toNat = (s.chip.geti F.DGT_TWn_SEGMENT_NUM
        h.toNat + 1) % 2 ^ 32 ∧ c.geti F.DGT_TWn_RECORDS_COUNT h.toNat = 0)

/-- TWIST_LOG_WRITE_ERROR (R357). -/
def Says.twistLogWriteError : Prop :=
    (∀ (s : State) (h : BitVec 4) (seg pos : Nat), ∃ c : Chip, exec (.twistLogWriteError h seg pos) s = .next (s.settled c) ∧ s.chip.Only eventParts
        eventRegs c) ∧
    (∀ (s : State) (h : BitVec 4) (seg pos : Nat), s.chip.leads = true → s.chip.twOpened h.toNat = true → ∃ c : Chip, exec (.twistLogWriteError h seg
        pos) s = .next (s.settled c) ∧ c = s.chip.twLog 0x2D02 h.toNat s.chip.node (s.chip.twActive h.toNat) 0 0 pos seg)

/-- TWIST_HEAD_READ (R380). -/
def Says.twistHeadRead : Prop :=
    (∀ (s : State) (req : Req) (h : BitVec 4), ∃ c : Chip, exec (.twistHeadRead req h) s = .next (s.settled c) ∧ s.chip.Only ([Part.tx, Part.pwr,
        Part.twist] ++ eventParts) ([F.PWR_STATUS_LAST_RESULT, F.PWR_WAKE_CAUSE_COLD, F.SNG_STATUS_TEMP1] ++ eventRegs) c) ∧
    (∀ (s : State) (req : Req) (h : BitVec 4), s.chip.opens req (R.DGT_TWn_HEAD h.toNat) false = true → ∃ c : Chip, exec (.twistHeadRead req h) s =
        .next (s.settled c) ∧ (c.tw h.toNat).word = ((s.chip.tw h.toNat).word + 1) % 12 ∧ (c.tw h.toNat).head = (s.chip.tw h.toNat).head ∧ c.tx =
        s.chip.tx ++ [.fabric req true (numAt (s.chip.tw h.toNat).head (4 * (s.chip.tw h.toNat).word) 4)])

/-- RECEIPT_SIGNED (R369). -/
def Says.receiptSigned : Prop :=
    (∀ (s : State) (h : BitVec 4), ∃ c : Chip, exec (.receiptSigned h) s = .next (s.settled c) ∧ s.chip.Only ([Part.free, Part.tx, Part.pins,
        Part.cry, Part.twist] ++ eventParts) ([F.CRY_DRBG_STATUS_LAST, F.DGT_TWn_STATUS_DEPART_CODE] ++ eventRegs) c) ∧
    (∀ (s : State) (h : BitVec 4), (s.chip.tw h.toNat).signing? = none → ∃ c : Chip, exec (.receiptSigned h) s = .next (s.settled c) ∧ c = s.chip) ∧
    (∀ (s : State) (h : BitVec 4), s.chip.svcUp = true → (s.chip.tw h.toNat).signing?.isSome = true → ∃ c : Chip, exec (.receiptSigned h) s = .next
        (s.settled c) ∧ ((s.chip.tw h.toNat).signing?.map (·.num)) = (c.tw h.toNat).receipts.getLast?.map (·.1))

/-- LINK_EN (R420). -/
def Says.linkEn : Prop :=
    (∀ (s : State) (req : Req) (value : Bool), ∃ c : Chip, exec (.linkEn req value) s = .next (s.settled c) ∧ s.chip.Only ([Part.tx, Part.pwr,
        Part.ply] ++ eventParts) ([F.PWR_STATUS_LAST_RESULT, F.PWR_WAKE_CAUSE_COLD, F.SNG_STATUS_TEMP1, F.PLY_CTRL_SLEEP_HS, F.PLY_STATUS_LAST,
        F.PLY_RESYNC_PATH] ++ eventRegs) c) ∧
    (∀ (s : State) (req : Req) (value : Bool), s.chip.opens req R.PLY_CTRL true = true → value = false → ∃ c : Chip, exec (.linkEn req value) s =
        .next (s.settled c) ∧ c.get F.PLY_CTRL_LINK_EN = 0 ∧ c.ply = s.chip.ply ∧ c.tx = s.chip.tx ++ [.fabric req true 0]) ∧
    (∀ (s : State) (req : Req) (value : Bool), s.chip.opens req R.PLY_CTRL true = true → value = true → s.chip.pkg ≠ .hx4 → s.chip.svcUp = true → ∃ c
        : Chip, exec (.linkEn req value) s = .next (s.settled c) ∧ c.get F.PLY_CTRL_LINK_EN = 1 ∧ c.get F.PLY_STATUS_AUTH = 0 ∧ c.ply.keys = none ∧
        c.ply.hello = none ∧ c.ply.txSeq = 1)

/-- PLY_RETRAIN (Table 15.13). -/
def Says.plyRetrain : Prop :=
    (∀ (s : State) (req : Req), ∃ c : Chip, exec (.plyRetrain req) s = .next (s.settled c) ∧ s.chip.Only ([Part.tx, Part.pwr, Part.ply] ++
        eventParts) ([F.PWR_STATUS_LAST_RESULT, F.PWR_WAKE_CAUSE_COLD, F.SNG_STATUS_TEMP1, F.PLY_STATUS_LAST, F.PLY_RESYNC_PATH] ++ eventRegs) c) ∧
    (∀ (s : State) (req : Req), s.chip.opens req R.PLY_CTRL true = true → s.chip.get F.PLY_CTRL_LINK_EN = 1 → s.chip.pkg ≠ .hx4 → s.chip.svcUp = true
        → ∃ c : Chip, exec (.plyRetrain req) s = .next (s.settled c) ∧ c.get F.PLY_STATUS_AUTH = 0 ∧ c.ply.keys = none ∧ c.ply.hello = none ∧
        c.ply.txSeq = 1 ∧ c.ply.rxSeq = 0)

/-- HELLO (R28, R420). -/
def Says.hello : Prop :=
    (∀ (s : State) (body : List Byte), ∃ c : Chip, exec (.hello body) s = .next (s.settled c) ∧ s.chip.Only ([Part.free, Part.tx, Part.cry,
        Part.ply] ++ eventParts) ([F.PLY_STATUS_LAST, F.PLY_RESYNC_PATH, F.CRY_DRBG_STATUS_LAST] ++ eventRegs) c) ∧
    (∀ (s : State) (body : List Byte), s.chip.svcUp = true → s.chip.pkg ≠ .hx4 → s.chip.get F.PLY_CTRL_LINK_EN = 1 → s.chip.linked = false →
        s.chip.ply.own ≠ [] → s.chip.ply.hello = none → numAt body 0 1 = s.chip.get F.GEN_ID_SIDE → ∃ c : Chip, exec (.hello body) s = .next
        (s.settled c) ∧ c.ply.hello = some (padTo 64 body) ∧ c.ply.auth = 9 ∧ c.get F.PLY_STATUS_LINK_UP = 1 ∧ c.linked = false) ∧
    (∀ (s : State) (body : List Byte), s.chip.svcUp = true → s.chip.pkg ≠ .hx4 → s.chip.get F.PLY_CTRL_LINK_EN = 1 → s.chip.linked = false →
        s.chip.ply.own ≠ [] → s.chip.ply.hello = none → s.chip.get F.GEN_ID_SIDE = 1 → numAt body 0 1 = 0 → ∃ c : Chip, exec (.hello body) s = .next
        (s.settled c) ∧ (numAt body 16 8 = s.chip.pkgSerial → c.ply.hello = some (padTo 64 body) ∧ c.ply.auth = 1 ∧ c.get F.PLY_STATUS_LINK_UP = 1 ∧
        c.linked = false)) ∧
    (∀ (s : State) (body : List Byte), s.chip.svcUp = true → s.chip.pkg ≠ .hx4 → s.chip.get F.PLY_CTRL_LINK_EN = 1 → s.chip.linked = false →
        s.chip.ply.own ≠ [] → s.chip.ply.hello = none → s.chip.get F.GEN_ID_SIDE = 0 → numAt body 0 1 = 1 → ∃ c : Chip, exec (.hello body) s = .next
        (s.settled c) ∧ (numAt body 16 8 = s.chip.pkgSerial → c.ply.hello = some (padTo 64 body) ∧ c.ply.auth = 1 ∧ c.ply.eph ≠ [] ∧ s.chip.tx.length
        < c.tx.length))

/-- AUTH (R420). -/
def Says.auth : Prop :=
    (∀ (s : State) (point kem : List Byte) (certs sigs : List (List Byte)) (genuine : Bool), ∃ c : Chip, exec (.auth point kem certs sigs genuine) s
        = .next (s.settled c) ∧ s.chip.Only ([Part.free, Part.tx, Part.ring, Part.pins, Part.card, Part.cust, Part.cry, Part.ply] ++ eventParts)
        ([F.GEN_CARD_STATEn_RECARD, F.PWR_STATUS_LAST_RESULT, F.PWR_GRP_STATUS_STATE, F.WHL_STATUS_MASTER, F.SKN_CTRL_CFG_LOCK, F.PLY_STATUS_LAST,
        F.PLY_LEASE_NUM, F.PLY_EXPIRY_SLOT, F.PLY_GRANTS_LO_DIES, F.PLY_GRANTS_HI_DIES, F.PLY_MSEQ_LO_SEQ, F.PLY_MSEQ_HI_SEQ, F.BOB_STATUS_LAST_ERR,
        F.BOB_JSEQ_LO_SEQ, F.BOB_JSEQ_HI_SEQ, F.BOB_LIMIT_SUM_COUNT, F.DST_CACHE_STAT_PINNED, F.DST_HANKn_VALID, F.CRY_DRBG_STATUS_LAST] ++
        eventRegs) c) ∧
    (∀ (s : State) (point kem : List Byte) (certs sigs : List (List Byte)) (genuine : Bool), s.chip.svcUp = true → s.chip.ply.hello.isSome = true →
        genuine = true → s.chip.get F.GEN_ID_SIDE = 0 → s.chip.ply.auth ≠ 1 → ∃ c : Chip, exec (.auth point kem certs sigs genuine) s = .next
        (s.settled c) ∧ c.ply.rxSeq = s.chip.ply.rxSeq + 1 ∧ c.ply.auth = s.chip.ply.auth ∧ c.ply.keys = s.chip.ply.keys) ∧
    (∀ (s : State) (point kem : List Byte) (certs sigs : List (List Byte)) (genuine : Bool), s.chip.svcUp = true → s.chip.ply.hello.isSome = true →
        genuine = true → s.chip.get F.GEN_ID_SIDE = 1 → s.chip.ply.auth = 1 → ∃ c : Chip, exec (.auth point kem certs sigs genuine) s = .next
        (s.settled c) ∧ c.ply.auth = 2 ∧ c.ply.newKeys.isSome = true ∧ c.linked = s.chip.linked) ∧
    (∀ (s : State) (point kem : List Byte) (certs sigs : List (List Byte)) (genuine : Bool), s.chip.svcUp = true → s.chip.ply.hello.isSome = true →
        genuine = true → s.chip.get F.GEN_ID_SIDE = 1 → s.chip.ply.auth = 2 → s.chip.ply.newKeys.isSome = true → s.chip.role = 3 → ∃ c : Chip, exec
        (.auth point kem certs sigs genuine) s = .next (s.settled c) ∧ c.linked = true ∧ c.ply.auth = 3 ∧ c.ply.keys = s.chip.ply.newKeys.map (fun k
        => (k.2, k.1)) ∧ c.ply.lost = false)

/-- PLY_FRAME_CHECK_FAIL (R419). -/
def Says.plyFrameCheckFail : Prop :=
    (∀ (s : State) (typ pseq : Nat), ∃ c : Chip, exec (.plyFrameCheckFail typ pseq) s = .next (s.settled c) ∧ s.chip.Only ([Part.tx, Part.ply] ++
        eventParts) ([F.PLY_LINK_RESENT] ++ eventRegs) c) ∧
    (∀ (s : State) (typ pseq : Nat), s.chip.svcUp = true → s.chip.pkg ≠ .hx4 → s.chip.get F.PLY_LINK_BAD < F.PLY_LINK_BAD.top → ∃ c : Chip, exec
        (.plyFrameCheckFail typ pseq) s = .next (s.settled c) ∧ c.get F.PLY_LINK_BAD = s.chip.get F.PLY_LINK_BAD + 1 ∧ c.ply.rxSeq = s.chip.ply.rxSeq)

/-- LINK_NAK (R419): the frames from the one named on are sent again. -/
def Says.linkNak : Prop :=
    (∀ (s : State) (pseq : Nat), ∃ c : Chip, exec (.linkNak pseq) s = .next (s.settled c) ∧ s.chip.Only ([Part.tx, Part.ply] ++ eventParts)
        ([F.PLY_LINK_RESENT] ++ eventRegs) c) ∧
    (∀ (s : State) (pseq : Nat), s.chip.linked = true → ∃ c : Chip, exec (.linkNak pseq) s = .next (s.settled c) ∧ c.ply.rxSeq = s.chip.ply.rxSeq + 1
        ∧ c.tx = s.chip.tx ++ (s.chip.ply.sent.filter (fun f => decide (pseq ≤ f.pseq))).map (fun f => Out.ply f))

/-- HEARTBEAT_SEND (R421); a halted Spindle pair sends none (R489). -/
def Says.heartbeatSend : Prop :=
    (∀ (s : State), ∃ c : Chip, exec .heartbeatSend s = .next (s.settled c) ∧ s.chip.Only ([Part.tx, Part.ply] ++ eventParts) eventRegs c) ∧
    (∀ (s : State), s.chip.linked = true → s.chip.svcUp = true → s.chip.pkg ≠ .hx4 → s.chip.ply.sleeping ≠ 3 → s.chip.get F.DBG_STATUS_SPN_HALTED = 0
        → ∃ c : Chip, exec .heartbeatSend s = .next (s.settled c) ∧ c.ply.txSeq = s.chip.ply.txSeq + 1 ∧ c.tx.length = s.chip.tx.length + 1)

/-- PLY_HEARTBEAT (R421). -/
def Says.plyHeartbeat : Prop :=
    (∀ (s : State) (body : List Byte) (peer : Peer), ∃ c : Chip, exec (.plyHeartbeat body peer) s = .next (s.settled c) ∧ s.chip.Only ([Part.free,
        Part.tx, Part.ring, Part.card, Part.cust, Part.cry, Part.ply] ++ eventParts) ([F.GEN_CARD_STATEn_RECARD, F.PWR_STATUS_LAST_RESULT,
        F.PWR_GRP_STATUS_STATE, F.WHL_STATUS_MASTER, F.SKN_CTRL_CFG_LOCK, F.PLY_STATUS_LAST, F.PLY_LEASE_NUM, F.PLY_EXPIRY_SLOT,
        F.PLY_GRANTS_LO_DIES, F.PLY_GRANTS_HI_DIES, F.PLY_MSEQ_LO_SEQ, F.PLY_MSEQ_HI_SEQ, F.PLY_RESYNC_PATH, F.BOB_JDUR_LO_SEQ, F.BOB_JDUR_HI_SEQ,
        F.CRY_DRBG_STATUS_LAST] ++ eventRegs) c) ∧
    (∀ (s : State) (body : List Byte) (peer : Peer), s.chip.linked = true → s.chip.role = 2 → ∃ c : Chip, exec (.plyHeartbeat body peer) s = .next
        (s.settled c) ∧ c.ply.beatAt = s.chip.slot ∧ c.ply.lost = false ∧ c.ply.partner = numAt body 4 1 ∧ c.ply.peer = peer)

/-- PARTNER_LOST (R421): eight heartbeats in a row are missing. The lead in a sleep handshake then goes to sleep itself (R441). -/
def Says.partnerLost : Prop :=
    (∀ (s : State), ∃ c : Chip, exec .partnerLost s = .next (s.cutSettled c) ∧ s.chip.Only ([Part.free, Part.tx, Part.ring, Part.pins, Part.otp,
        Part.mem, Part.cores, Part.boot, Part.card, Part.cust, Part.whl, Part.cry, Part.spdm, Part.hanks, Part.ply] ++ eventParts)
        ([F.GEN_CARD_STATEn_RECARD, F.PWR_STATUS_LAST_RESULT, F.PWR_GRP_STATUS_STATE, F.OTP_STATUS_LAST_OP, F.OTP_AUDIT_RES_MISMATCH,
        F.LCS_STATUS_PHASE, F.LCS_ROOTS_SELECTED, F.WHL_STATUS_MASTER, F.SKN_CTRL_CFG_LOCK, F.PLY_STATUS_LAST, F.PLY_LEASE_NUM, F.PLY_EXPIRY_SLOT,
        F.PLY_GRANTS_LO_DIES, F.PLY_GRANTS_HI_DIES, F.PLY_MSEQ_LO_SEQ, F.PLY_MSEQ_HI_SEQ, F.PLY_RESYNC_PATH, F.BOB_STATUS_LAST_ERR,
        F.BOB_CPL_TAIL_IDX, F.CRY_DRBG_STATUS_LAST, F.CRY_CHn_STATUS_LAST_ERR, F.CRY_CHn_KEYS_REG, F.DGT_ACTIVE_LO_CTX, F.DGT_ACTIVE_HI_CTX,
        F.TLY_STATUS_LAST, F.TLY_ACCn_RECEIVED_MASK, F.TLY_ACCn_STATUS_RESULT, F.TLY_ACCn_SAT_COUNT, F.TLY_ACCn_NAN_COUNT, ctxRegs, dstRegs] ++
        eventRegs) c) ∧
    (∀ (s : State), (s.chip.linked = false ∨ s.chip.ply.lost = true ∨ s.chip.slot < s.chip.ply.beatAt + 9) → ∃ c : Chip, exec .partnerLost s = .next
        (s.cutSettled c) ∧ c = s.chip) ∧
    (∀ (s : State), s.chip.linked = true → s.chip.ply.lost = false → s.chip.ply.beatAt + 9 ≤ s.chip.slot → s.chip.role = 2 → ∃ c : Chip, exec
        .partnerLost s = .next (s.cutSettled c) ∧ c.ply.lost = true ∧ c.get F.PLY_STATUS_PARTNER = 0)

/-- MIRROR_ACK_TIMEOUT (R421): an item unacknowledged for 8 slots. -/
def Says.mirrorAckTimeout : Prop :=
    (∀ (s : State), ∃ c : Chip, exec .mirrorAckTimeout s = .next (s.settled c) ∧ s.chip.Only ([Part.free, Part.tx, Part.ring, Part.card, Part.cry,
        Part.ply] ++ eventParts) ([F.GEN_CARD_STATEn_RECARD, F.PWR_STATUS_LAST_RESULT, F.PWR_GRP_STATUS_STATE, F.SKN_CTRL_CFG_LOCK,
        F.PLY_STATUS_LAST, F.PLY_LEASE_NUM, F.PLY_EXPIRY_SLOT, F.PLY_GRANTS_LO_DIES, F.PLY_GRANTS_HI_DIES, F.PLY_MSEQ_LO_SEQ, F.PLY_MSEQ_HI_SEQ,
        F.PLY_RESYNC_PATH, F.CRY_DRBG_STATUS_LAST] ++ eventRegs) c) ∧
    (∀ (s : State), s.chip.role = 5 → s.chip.waitsPartner = true → s.chip.ply.macked < s.chip.ply.mseq → s.chip.ply.oldest + 8 ≤ s.chip.slot →
        s.chip.ply.lost = false → s.chip.ply.sleeping = 0 → ∃ c : Chip, exec .mirrorAckTimeout s = .next (s.settled c) ∧ c.ply.lost = true ∧ c.get
        F.PLY_STATUS_PARTNER = 0)

/-- MIRROR (R423). -/
def Says.mirror : Prop :=
    (∀ (s : State) (mseq : Nat) (item : MItem), ∃ c : Chip, exec (.mirror mseq item) s = .next (s.settled c) ∧ s.chip.Only ([Part.free, Part.tx,
        Part.ring, Part.pins, Part.mem, Part.cores, Part.cust, Part.whl, Part.cry, Part.spdm, Part.hanks, Part.twist, Part.ply, Part.late] ++
        eventParts) ([F.GEN_CARDED0_NODES, F.GEN_CARDED1_NODES, F.GEN_CARD_STATEn_RECARD, F.WHL_Ln_SLOT_LO_SLOT, F.WHL_Ln_SLOT_HI_SLOT,
        F.WHL_Ln_CFG_HANKS, F.WHL_Ln_ARG_STRAND_IN, F.WHL_Ln_GRACE_SLOTS, F.WHL_Ln_NUM_NUM, F.WHL_Ln_STATE_RESULT, F.WHL_Ln_UNCONFIRMED_COUNT,
        F.SKN_CTRL_CFG_LOCK, F.PLY_STATUS_LAST, F.PLY_LEASE_NUM, F.PLY_MSEQ_LO_SEQ, F.PLY_MSEQ_HI_SEQ, F.BOB_CPL_TAIL_IDX, F.BOB_JSEQ_LO_SEQ,
        F.BOB_JSEQ_HI_SEQ, F.BOB_LIMIT_SUM_COUNT, F.DST_CACHE_STAT_PINNED, F.DST_HANKn_VALID, F.CRY_DRBG_STATUS_LAST, F.DGT_TW_STATUS_INTAKE,
        F.DGT_TWn_CTRL_SEAL, F.DGT_TWn_STATUS_DEPART_CODE, F.DGT_TWn_SEGMENT_NUM, F.DGT_TWn_RECORDS_COUNT, F.DGT_TWn_STEP_LO_STEP,
        F.DGT_TWn_STEP_HI_STEP, F.DGT_TWn_LOG_LO_ADDR, F.DGT_TWn_LOG_HI_ADDR, F.DGT_TWn_LOG_LEN_GRANULES, F.DGT_TWn_COUNTS_GAPS, F.DBG_CTRL_WATCH,
        whlRegs, twRegs] ++ eventRegs) c) ∧
    (∀ (s : State) (mseq : Nat) (item : MItem), s.chip.linked = true → s.chip.leads = false → s.chip.role = 3 → mseq ≤ s.chip.ply.applied → ∃ c :
        Chip, exec (.mirror mseq item) s = .next (s.settled c) ∧ c.ply.applied = s.chip.ply.applied ∧ c.ply.acks = s.chip.ply.acks ++ [(mseq, 0)] ∧
        c.cust = s.chip.cust ∧ c.hanks = s.chip.hanks) ∧
    (∀ (s : State) (mseq : Nat) (item : MItem), s.chip.linked = true → s.chip.leads = false → s.chip.role = 3 → s.chip.ply.applied < mseq →
        (match item with | .lease .. => true | _ => false) = true → ∃ c : Chip, exec (.mirror mseq item) s = .next (s.settled c) ∧ c.ply.applied =
        mseq ∧ c.ply.acks = s.chip.ply.acks ++ [(mseq, 0)] ∧ (match item with | .lease num fresh _ _ => decide (c.rd R.PLY_LEASE = BitVec.ofNat 32 num) && c.ply.fresh == fresh | _ => true)
        = true)

/-- MIRROR_ACK (R423). -/
def Says.mirrorAck : Prop :=
    (∀ (s : State) (mseq : Nat), ∃ c : Chip, exec (.mirrorAck mseq) s = .next (s.settled c) ∧ s.chip.Only ([Part.ply] ++ eventParts)
        ([F.PLY_MACK_LO_SEQ, F.PLY_MACK_HI_SEQ] ++ eventRegs) c) ∧
    (∀ (s : State) (mseq : Nat), s.chip.linked = true → mseq ≤ s.chip.ply.mseq → ∃ c : Chip, exec (.mirrorAck mseq) s = .next (s.settled c) ∧
        c.ply.macked = max s.chip.ply.macked mseq ∧ c.ply.oldest = s.chip.slot)

/-- RELAY (R424): the frame goes out on this instance's own channel; a descriptor makes the tree root zero here too (R240). -/
def Says.relay : Prop :=
    (∀ (s : State) (ch : Nat) (frame : WarpFrame), ∃ c : Chip, exec (.relay ch frame) s = .next (s.settled c) ∧ s.chip.Only ([Part.tx, Part.cust,
        Part.ply] ++ eventParts) eventRegs c) ∧
    (∀ (s : State) (ch : Nat) (frame : WarpFrame), s.chip.linked = true → tget s.chip.cust.warp (ch % 8) [] = [] → ∃ c : Chip, exec (.relay ch frame)
        s = .next (s.settled c) ∧ c.ply.rxSeq = s.chip.ply.rxSeq + 1 ∧ (tget c.cust.warp (ch % 8) []).map (·.frame) = [frame])

/-- RELAY_ANS (R424): the answer to a relayed frame, or a report of the partner's base die. -/
def Says.relayAns : Prop :=
    (∀ (s : State) (ch : Nat) (frame : WarpFrame), ∃ c : Chip, exec (.relayAns ch frame) s = .next (s.settled c) ∧ s.chip.Only ([Part.free, Part.tx,
        Part.ring, Part.pins, Part.mem, Part.cust, Part.whl, Part.cry, Part.ply] ++ eventParts) ([F.WHL_STATUS_MASTER, F.WHL_XPKG_STATUS_AGE,
        F.WHL_Ln_UNCONFIRMED_COUNT, F.PLY_MSEQ_LO_SEQ, F.PLY_MSEQ_HI_SEQ, F.BOB_CPL_TAIL_IDX, F.BOB_JSEQ_LO_SEQ, F.BOB_JSEQ_HI_SEQ,
        F.BOB_WARP_STATUS_CH, F.BOB_LIMIT_SUM_COUNT, F.DST_CACHE_STAT_PINNED, F.CRY_DRBG_STATUS_LAST] ++ eventRegs) c) ∧
    (∀ (s : State) (ch : Nat) (frame : WarpFrame), s.chip.linked = true → s.chip.ply.relay = [] → s.chip.leads = false → ∃ c : Chip, exec (.relayAns
        ch frame) s = .next (s.settled c) ∧ c.ply.rxSeq = s.chip.ply.rxSeq + 1 ∧ c.cust = s.chip.cust) ∧
    (∀ (s : State) (ch : Nat) (frame : WarpFrame), s.chip.linked = true → (s.chip.ply.relay.find? (fun r => r.1 == ch % 8 && answers frame r.2)).any
        (fun r => r.2.op == 2) = true → frame.result = 0 → ∃ c : Chip, exec (.relayAns ch frame) s = .next (s.settled c) ∧ c.cust = s.chip.cust ∧
        (s.chip.ply.relay.find? (fun r => r.1 == ch % 8 && answers frame r.2)).all (fun r => decide (c.ply.relay = s.chip.ply.relay.erase r)) = true)

/-- RELAY_ANSWER_TIMEOUT (R424). -/
def Says.relayAnswerTimeout : Prop :=
    (∀ (s : State) (ch : Nat), ∃ c : Chip, exec (.relayAnswerTimeout ch) s = .next (s.settled c) ∧ s.chip.Only ([Part.free, Part.tx, Part.ring,
        Part.pins, Part.mem, Part.cust, Part.whl, Part.cry, Part.ply] ++ eventParts) ([F.WHL_Ln_UNCONFIRMED_COUNT, F.BOB_CPL_TAIL_IDX,
        F.BOB_WARP_STATUS_CH, F.DST_CACHE_STAT_PINNED, F.CRY_DRBG_STATUS_LAST] ++ eventRegs) c) ∧
    (∀ (s : State) (ch : Nat), (s.chip.ply.relay.filter (fun r => r.1 == ch % 8)).length = 1 → ∃ c : Chip, exec (.relayAnswerTimeout ch) s = .next
        (s.settled c) ∧ (c.ply.relay.filter (fun r => r.1 == ch % 8)) = [])

/-- RESYNC_REQ (R436). -/
def Says.resyncReq : Prop :=
    (∀ (s : State) (jseq jdur : Nat), ∃ c : Chip, exec (.resyncReq jseq jdur) s = .next (s.settled c) ∧ s.chip.Only ([Part.tx, Part.cust,
        Part.ply] ++ eventParts) ([F.PLY_STATUS_LAST, F.PLY_RESYNC_PATH] ++ eventRegs) c) ∧
    (∀ (s : State) (jseq jdur : Nat), (s.chip.linked = false ∨ s.chip.role ≠ 5) → ∃ c : Chip, exec (.resyncReq jseq jdur) s = .next (s.settled c) ∧ c
        = s.chip) ∧
    (∀ (s : State) (jseq jdur : Nat), s.chip.linked = true → s.chip.role = 5 → ∃ c : Chip, exec (.resyncReq jseq jdur) s = .next (s.settled c) ∧
        c.cust.jrnl.partnerDur = jdur)

/-- RESYNC_DATA (R436). -/
def Says.resyncData : Prop :=
    (∀ (s : State) (part : ResPart), ∃ c : Chip, exec (.resyncData part) s = .next (s.settled c) ∧ s.chip.Only ([Part.free, Part.tx, Part.ring,
        Part.pins, Part.mem, Part.cores, Part.cust, Part.whl, Part.cry, Part.spdm, Part.hanks, Part.twist, Part.ply, Part.late] ++ eventParts)
        ([F.GEN_CARDED0_NODES, F.GEN_CARDED1_NODES, F.GEN_CARD_STATEn_RECARD, F.WHL_Ln_SLOT_LO_SLOT, F.WHL_Ln_SLOT_HI_SLOT, F.WHL_Ln_CFG_HANKS,
        F.WHL_Ln_ARG_STRAND_IN, F.WHL_Ln_GRACE_SLOTS, F.WHL_Ln_NUM_NUM, F.WHL_Ln_STATE_RESULT, F.WHL_Ln_UNCONFIRMED_COUNT, F.SKN_CTRL_CFG_LOCK,
        F.PLY_STATUS_LAST, F.PLY_LEASE_NUM, F.BOB_CPL_TAIL_IDX, F.BOB_JSEQ_LO_SEQ, F.BOB_JSEQ_HI_SEQ, F.BOB_LIMIT_SUM_COUNT, F.DST_CACHE_STAT_PINNED,
        F.DST_HANKn_VALID, F.CRY_DRBG_STATUS_LAST, F.DGT_TW_STATUS_INTAKE, F.DGT_TWn_CTRL_SEAL, F.DGT_TWn_STATUS_DEPART_CODE, F.DGT_TWn_SEGMENT_NUM,
        F.DGT_TWn_RECORDS_COUNT, F.DGT_TWn_STEP_LO_STEP, F.DGT_TWn_STEP_HI_STEP, F.DGT_TWn_LOG_LO_ADDR, F.DGT_TWn_LOG_HI_ADDR,
        F.DGT_TWn_LOG_LEN_GRANULES, F.DGT_TWn_COUNTS_GAPS, F.DBG_CTRL_WATCH, whlRegs, twRegs] ++ eventRegs) c) ∧
    (∀ (s : State) (part : ResPart), s.chip.linked = true → s.chip.role = 2 → s.chip.ply.late = [] → ∃ c : Chip, exec (.resyncData part) s = .next
        (s.settled c) ∧ c.ply.rxSeq = s.chip.ply.rxSeq + 1) ∧
    (∀ (s : State) (part : ResPart), s.chip.linked = true → s.chip.role = 2 → (match part with | .hank _ _ => true | _ => false) = true → ∃ c : Chip,
        exec (.resyncData part) s = .next (s.settled c) ∧ (match part with | .hank h k => decide (c.hanks.tab = tput s.chip.hanks.tab h k) | _ => true)
        = true ∧ c.role = 2)

/-- RESYNC_COMPLETE (R436, Table 15.1). -/
def Says.resyncComplete : Prop :=
    (∀ (s : State), ∃ c : Chip, exec .resyncComplete s = .next (s.settled c) ∧ s.chip.Only ([Part.ply] ++ eventParts) ([F.PLY_STATUS_LAST] ++
        eventRegs) c) ∧
    (∀ (s : State), s.chip.role = 2 → s.chip.ply.repairTo = 0 → s.chip.ply.late = [] → s.chip.ply.partner = 5 → s.chip.ply.serving = true → ∃ c :
        Chip, exec .resyncComplete s = .next (s.settled c) ∧ c.role = 3 ∧ c.ply.fresh = 3 ∧ c.ply.asking = false)

/-- HANDOVER_FRAME (R439): the fresh follow becomes the successor. -/
def Says.handoverFrame : Prop :=
    (∀ (s : State) (mseq lease : Nat), ∃ c : Chip, exec (.handoverFrame mseq lease) s = .next (s.settled c) ∧ s.chip.Only ([Part.ply] ++ eventParts)
        ([F.PWR_STATUS_LAST_RESULT, F.PWR_GRP_STATUS_STATE, F.PLY_STATUS_LAST, F.PLY_LEASE_NUM, F.PLY_EXPIRY_SLOT, F.PLY_GRANTS_LO_DIES,
        F.PLY_GRANTS_HI_DIES] ++ eventRegs) c) ∧
    (∀ (s : State) (mseq lease : Nat), s.chip.linked = true → s.chip.role = 3 → mseq ≤ s.chip.ply.applied → ∃ c : Chip, exec (.handoverFrame mseq
        lease) s = .next (s.settled c) ∧ c.role = 4 ∧ c.rd R.PLY_LEASE = BitVec.ofNat 32 lease ∧ c.ply.op = 5 ∧ c.ply.grants = [] ∧ c.ply.asked =
        s.chip.slot + 2048)

/-- SLEEP_FRAME (R441): the follow answers, stops heartbeating and requests sleep; while it knows of a hank it does not (R64). -/
def Says.sleepFrame : Prop :=
    (∀ (s : State), ∃ c : Chip, exec .sleepFrame s = .next (s.cutSettled c) ∧ s.chip.Only ([Part.tx, Part.ring, Part.pins, Part.otp, Part.mem,
        Part.cores, Part.boot, Part.card, Part.cust, Part.whl, Part.cry, Part.spdm, Part.hanks, Part.ply] ++ eventParts) ([F.PWR_STATUS_LAST_RESULT,
        F.OTP_STATUS_LAST_OP, F.OTP_AUDIT_RES_MISMATCH, F.LCS_STATUS_PHASE, F.LCS_ROOTS_SELECTED, F.BOB_STATUS_LAST_ERR, F.BOB_CPL_TAIL_IDX,
        F.CRY_DRBG_STATUS_LAST, F.CRY_CHn_STATUS_LAST_ERR, F.CRY_CHn_KEYS_REG, F.DGT_ACTIVE_LO_CTX, F.DGT_ACTIVE_HI_CTX, F.TLY_STATUS_LAST,
        F.TLY_ACCn_RECEIVED_MASK, F.TLY_ACCn_STATUS_RESULT, F.TLY_ACCn_SAT_COUNT, F.TLY_ACCn_NAN_COUNT, ctxRegs, dstRegs] ++ eventRegs) c) ∧
    (∀ (s : State), s.chip.linked = true → s.chip.role = 3 → ∃ c : Chip, exec .sleepFrame s = .next (s.cutSettled c) ∧ c.ply.sleeping = 3 ∧
        c.ply.rxSeq = s.chip.ply.rxSeq + 1)

/-- SLEEP_ACK (R441): the lead waits for the follow to be declared lost. -/
def Says.sleepAck : Prop :=
    (∀ (s : State), ∃ c : Chip, exec .sleepAck s = .next (s.settled c) ∧ s.chip.Only ([Part.ply] ++ eventParts) eventRegs c) ∧
    (∀ (s : State), s.chip.linked = true → s.chip.ply.sleeping = 1 → ∃ c : Chip, exec .sleepAck s = .next (s.settled c) ∧ c.ply.sleeping = 2 ∧
        c.ply.rxSeq = s.chip.ply.rxSeq + 1)

/-- LEASE_GRANT (R426 to R428, R433). -/
def Says.leaseGrant : Prop :=
    (∀ (s : State), ∃ c : Chip, exec .leaseGrant s = .next (s.settled c) ∧ s.chip.Only ([Part.tx, Part.ring, Part.ply] ++ eventParts)
        ([F.WHL_STATUS_MASTER, F.PLY_STATUS_LAST, F.PLY_EXPIRY_SLOT, F.PLY_GRANTS_LO_DIES, F.PLY_GRANTS_HI_DIES, F.PLY_RESYNC_PATH,
        F.BOB_JDUR_LO_SEQ, F.BOB_JDUR_HI_SEQ] ++ eventRegs) c) ∧
    (∀ (s : State), s.chip.pkg ≠ .hx4 → s.chip.role = 4 → (s.chip.front 0x11).any (fun m => numAt m.payload 1 1 == 0 && numAt m.payload 2 1 ==
        s.chip.node && numAt m.payload 4 4 == s.chip.leaseNum && decide (numAt m.payload 12 1 < s.chip.pkg.dies)) = true → ∃ c : Chip, exec
        .leaseGrant s = .next (s.settled c) ∧ (s.chip.front 0x11).all (fun m => tget? c.ply.grants (numAt m.payload 12 1) == some (numAt m.payload 8
        4)) = true)

/-- LEASE_RENEW (R425): every 1,024 slots from the lease's taking; every 64 until a quorum has granted. -/
def Says.leaseRenew : Prop :=
    (∀ (s : State), ∃ c : Chip, exec .leaseRenew s = .next (s.settled c) ∧ s.chip.Only ([Part.tx, Part.ring, Part.ply] ++ eventParts)
        ([F.PLY_MSEQ_LO_SEQ, F.PLY_MSEQ_HI_SEQ] ++ eventRegs) c) ∧
    (∀ (s : State), s.chip.role ≠ 5 → ∃ c : Chip, exec .leaseRenew s = .next (s.settled c) ∧ c = s.chip) ∧
    (∀ (s : State), s.chip.role = 5 → s.chip.ply.op = 0 → s.chip.ply.taken + 1024 ≤ s.chip.slot → ∃ c : Chip, exec .leaseRenew s = .next (s.settled
        c) ∧ c.slot < c.ply.taken + 1024 ∧ c.ply.op = 2)

/-- LEASE_EXPIRY_MARGIN (R425). -/
def Says.leaseExpiryMargin : Prop :=
    (∀ (s : State), ∃ c : Chip, exec .leaseExpiryMargin s = .next (s.settled c) ∧ s.chip.Only ([Part.ply] ++ eventParts) ([F.WHL_STATUS_MASTER,
        F.PLY_STATUS_LAST, F.PLY_EXPIRY_SLOT, F.PLY_GRANTS_LO_DIES, F.PLY_GRANTS_HI_DIES, F.PLY_RESYNC_PATH] ++ eventRegs) c) ∧
    (∀ (s : State), s.chip.role = 5 → s.chip.grantsGood < s.chip.pkg.quorum → ∃ c : Chip, exec .leaseExpiryMargin s = .next (s.settled c) ∧ c.role =
        1 ∧ c.ply.fresh = 0)

/-- TAKEOVER_REPEAT (R429). -/
def Says.takeoverRepeat : Prop :=
    (∀ (s : State), ∃ c : Chip, exec .takeoverRepeat s = .next (s.settled c) ∧ s.chip.Only ([Part.tx, Part.ring, Part.ply] ++ eventParts)
        ([F.PLY_LEASE_NUM] ++ eventRegs) c) ∧
    (∀ (s : State), s.chip.role = 4 → s.chip.ply.op = 3 → s.chip.ply.askedAt + 64 ≤ s.chip.slot → ∃ c : Chip, exec .takeoverRepeat s = .next
        (s.settled c) ∧ c.ply.askedAt = s.chip.slot ∧ c.ply.asked = s.chip.slot + 2048 ∧ c.ply.got = [] ∧ c.role = 4)

/-- CANDIDATE_TIMEOUT (R433). -/
def Says.candidateTimeout : Prop :=
    (∀ (s : State), ∃ c : Chip, exec .candidateTimeout s = .next (s.settled c) ∧ s.chip.Only ([Part.tx, Part.ply] ++ eventParts) ([F.PLY_STATUS_LAST,
        F.PLY_EXPIRY_SLOT, F.PLY_GRANTS_LO_DIES, F.PLY_GRANTS_HI_DIES] ++ eventRegs) c) ∧
    (∀ (s : State), s.chip.role = 4 → s.chip.ply.op = 3 → s.chip.slotsTo (s.chip.ply.leadExpiry + 16) = 0 → s.chip.grantsGood < s.chip.pkg.quorum → ∃
        c : Chip, exec .candidateTimeout s = .next (s.settled c) ∧ c.role = 1 ∧ c.ply.op = 0 ∧ c.ply.grants = [])

/-- PROMOTE (R431). -/
def Says.promote : Prop :=
    (∀ (s : State), ∃ c : Chip, exec .promote s = .next (s.settled c) ∧ s.chip.Only ([Part.free, Part.tx, Part.ring, Part.pins, Part.card, Part.cust,
        Part.whl, Part.cry, Part.spdm, Part.hanks, Part.twist, Part.ply] ++ eventParts) ([F.GEN_CARDED0_NODES, F.GEN_CARDED1_NODES,
        F.GEN_CARD_STATEn_RECARD, F.WHL_STATUS_MASTER, F.WHL_Ln_STATE_RESULT, F.WHL_Ln_UNCONFIRMED_COUNT, F.PLY_STATUS_LAST, F.PLY_MSEQ_LO_SEQ,
        F.PLY_MSEQ_HI_SEQ, F.PLY_PROMO_LO_TIME, F.PLY_PROMO_HI_TIME, F.BOB_CTRL_CPL_IRQ_EN, F.BOB_JSEQ_LO_SEQ, F.BOB_JSEQ_HI_SEQ,
        F.DST_CACHE_STAT_PINNED, F.CRY_DRBG_STATUS_LAST] ++ eventRegs) c) ∧
    (∀ (s : State), s.chip.mayLead = false → ∃ c : Chip, exec .promote s = .next (s.settled c) ∧ c = s.chip) ∧
    (∀ (s : State), s.chip.mayLead = true → ∃ c : Chip, exec .promote s = .next (s.settled c) ∧ c.role = 5 ∧ c.get F.PLY_STATUS_LEASE = 1 ∧ c.ply.op
        = 0 ∧ c.ply.taken = s.chip.slot ∧ c.get F.WHL_STATUS_IS_MASTER = 1)

/-- PAIR_WAIT_EXPIRE (R418): no authenticated partner within `PAIR_WAIT`. -/
def Says.pairWaitExpire : Prop :=
    (∀ (s : State), ∃ c : Chip, exec .pairWaitExpire s = .next (s.settled c) ∧ s.chip.Only ([Part.free, Part.tx, Part.ring, Part.card, Part.cry,
        Part.ply] ++ eventParts) ([F.GEN_CARD_STATEn_RECARD, F.SKN_CTRL_CFG_LOCK, F.PLY_MSEQ_LO_SEQ, F.PLY_MSEQ_HI_SEQ, F.CRY_DRBG_STATUS_LAST] ++
        eventRegs) c) ∧
    (∀ (s : State), s.chip.svcUp = true → s.chip.pkg ≠ .hx4 → s.chip.get F.PLY_CTRL_LINK_EN = 1 → s.chip.role = 0 → s.chip.linked = false →
        s.chip.ply.waited = false → ∃ c : Chip, exec .pairWaitExpire s = .next (s.settled c) ∧ c.ply.waited = true)

/-- START_EMPTY (R437). -/
def Says.startEmpty : Prop :=
    (∀ (s : State) (req : Req), ∃ c : Chip, exec (.startEmpty req) s = .next (s.settled c) ∧ s.chip.Only ([Part.tx, Part.ring, Part.pwr, Part.cust,
        Part.ply] ++ eventParts) ([F.PWR_STATUS_LAST_RESULT, F.PWR_GRP_STATUS_STATE, F.PWR_WAKE_CAUSE_COLD, F.SNG_STATUS_TEMP1, F.PLY_STATUS_LAST,
        F.PLY_LEASE_NUM, F.PLY_EXPIRY_SLOT, F.PLY_GRANTS_LO_DIES, F.PLY_GRANTS_HI_DIES, F.BOB_JSEQ_LO_SEQ, F.BOB_JSEQ_HI_SEQ] ++ eventRegs) c) ∧
    (∀ (s : State) (req : Req), s.chip.opens req R.PLY_CTRL true = true → s.chip.role ≠ 0 → ∃ c : Chip, exec (.startEmpty req) s = .next (s.settled
        c) ∧ c = s.chip.wrote req) ∧
    (∀ (s : State) (req : Req), s.chip.opens req R.PLY_CTRL true = true → s.chip.role = 0 → s.chip.ply.waited = true → s.chip.linked = false →
        s.chip.sidesEqual = false → s.chip.jOpen = true → s.chip.jFailed = false → s.chip.pkg ≠ .hx4 → s.chip.get F.DBG_STATUS_SPN_DBG = 0 → ∃ c :
        Chip, exec (.startEmpty req) s = .next (s.settled c) ∧ c.role = 4 ∧ c.ply.op = 1 ∧ c.ply.grants = [])

/-- HANDOVER (R439). -/
def Says.handover : Prop :=
    (∀ (s : State) (req : Req), ∃ c : Chip, exec (.handover req) s = .next (s.settled c) ∧ s.chip.Only ([Part.tx, Part.pwr, Part.ply] ++ eventParts)
        ([F.PWR_STATUS_LAST_RESULT, F.PWR_WAKE_CAUSE_COLD, F.SNG_STATUS_TEMP1, F.PLY_STATUS_LAST, F.BOB_CTRL_CPL_IRQ_EN] ++ eventRegs) c) ∧
    (∀ (s : State) (req : Req), s.chip.opens req R.PLY_CTRL true = true → s.chip.handoverBar = true → ∃ c : Chip, exec (.handover req) s = .next
        (s.settled c) ∧ c.get F.PLY_STATUS_LAST = Status.busy.code ∧ c.ply = s.chip.ply) ∧
    (∀ (s : State) (req : Req), s.chip.opens req R.PLY_CTRL true = true → s.chip.handoverBar = false → ∃ c : Chip, exec (.handover req) s = .next
        (s.settled c) ∧ c.get F.PLY_STATUS_LAST = Status.ok.code ∧ c.get F.BOB_CTRL_PAUSE = 1 ∧ c.ply.handover = some (s.chip.slot, 0))

/-- HANDOVER_TIMEOUT (R439): the successor lacks a quorum 32 slots after the HANDOVER frame. -/
def Says.handoverTimeout : Prop :=
    (∀ (s : State), ∃ c : Chip, exec .handoverTimeout s = .next (s.settled c) ∧ s.chip.Only ([Part.tx, Part.ring, Part.ply] ++ eventParts)
        ([F.PLY_STATUS_LAST, F.PLY_EXPIRY_SLOT, F.PLY_GRANTS_LO_DIES, F.PLY_GRANTS_HI_DIES] ++ eventRegs) c) ∧
    (∀ (s : State), s.chip.role = 4 → s.chip.ply.op = 5 → s.chip.ply.askedAt + 32 ≤ s.chip.slot → s.chip.grantsGood < s.chip.pkg.quorum → ∃ c : Chip,
        exec .handoverTimeout s = .next (s.settled c) ∧ c.role = 3 ∧ c.ply.op = 0 ∧ c.ply.grants = [] ∧ c.ply.fresh = 3)

/-- SLEEP_HS (R441). -/
def Says.sleepHs : Prop :=
    (∀ (s : State) (req : Req), ∃ c : Chip, exec (.sleepHs req) s = .next (s.settled c) ∧ s.chip.Only ([Part.tx, Part.pwr, Part.ply] ++ eventParts)
        ([F.PWR_STATUS_LAST_RESULT, F.PWR_WAKE_CAUSE_COLD, F.SNG_STATUS_TEMP1, F.PLY_STATUS_LAST] ++ eventRegs) c) ∧
    (∀ (s : State) (req : Req), s.chip.opens req R.PLY_CTRL true = true → s.chip.hanks.tab ≠ [] → ∃ c : Chip, exec (.sleepHs req) s = .next
        (s.settled c) ∧ c.get F.PLY_STATUS_LAST = Status.denied.code ∧ c.ply = s.chip.ply) ∧
    (∀ (s : State) (req : Req), s.chip.opens req R.PLY_CTRL true = true → s.chip.hanks.tab = [] → s.chip.role = 5 → s.chip.ply.partner = 3 →
        s.chip.linked = true → ∃ c : Chip, exec (.sleepHs req) s = .next (s.settled c) ∧ c.get F.PLY_STATUS_LAST = Status.ok.code ∧ c.ply.sleeping =
        1)

/-- HANDOVER_COMPLETE (R439). -/
def Says.handoverComplete : Prop :=
    (∀ (s : State), ∃ c : Chip, exec .handoverComplete s = .next (s.settled c) ∧ s.chip.Only ([Part.ply] ++ eventParts) ([F.WHL_STATUS_MASTER,
        F.PLY_STATUS_LAST, F.PLY_EXPIRY_SLOT, F.PLY_GRANTS_LO_DIES, F.PLY_GRANTS_HI_DIES, F.PLY_RESYNC_PATH] ++ eventRegs) c) ∧
    (∀ (s : State), s.chip.role = 5 → s.chip.ply.handover.any (fun h => decide (h.1 + 16 ≤ s.chip.slot) && h.2 == 1) = true → ∃ c : Chip, exec
        .handoverComplete s = .next (s.settled c) ∧ c.role = 3 ∧ c.ply.gave = true ∧ c.ply.fresh = 3 ∧ c.ply.partner = 4)

/-- BOB_CQ_TAIL_WRITE (R173). -/
def Says.bobCqTailWrite : Prop :=
    (∀ (s : State) (req : Req) (idx : BitVec 10), ∃ c : Chip, exec (.bobCqTailWrite req idx) s = .next (s.settled c) ∧ s.chip.Only ([Part.tx,
        Part.pwr, Part.mem, Part.cust] ++ eventParts) ([F.PWR_STATUS_LAST_RESULT, F.PWR_WAKE_CAUSE_COLD, F.SNG_STATUS_TEMP1, F.BOB_STATUS_LAST_ERR,
        F.BOB_CQ_TAIL_IDX, F.BOB_CQ_HEAD_IDX, F.BOB_CPL_TAIL_IDX] ++ eventRegs) c) ∧
    (∀ (s : State) (req : Req) (idx : BitVec 10), s.chip.opens req R.BOB_CQ_TAIL true = true → idx.toNat < s.chip.cqSize → ∃ c : Chip, exec
        (.bobCqTailWrite req idx) s = .next (s.settled c) ∧ c.get F.BOB_CQ_TAIL_IDX = idx.toNat) ∧
    (∀ (s : State) (req : Req) (idx : BitVec 10), s.chip.opens req R.BOB_CQ_TAIL true = true → s.chip.cqSize ≤ idx.toNat → ∃ c : Chip, exec
        (.bobCqTailWrite req idx) s = .next (s.settled c) ∧ c.get F.BOB_CQ_TAIL_IDX = s.chip.get F.BOB_CQ_TAIL_IDX)

/-- BOB_CPL_HEAD_WRITE (R173). -/
def Says.bobCplHeadWrite : Prop :=
    (∀ (s : State) (req : Req) (idx : BitVec 10), ∃ c : Chip, exec (.bobCplHeadWrite req idx) s = .next (s.settled c) ∧ s.chip.Only ([Part.tx,
        Part.pwr, Part.mem, Part.cust] ++ eventParts) ([F.PWR_STATUS_LAST_RESULT, F.PWR_WAKE_CAUSE_COLD, F.SNG_STATUS_TEMP1, F.BOB_STATUS_LAST_ERR,
        F.BOB_CQ_HEAD_IDX, F.BOB_CPL_HEAD_IDX, F.BOB_CPL_TAIL_IDX] ++ eventRegs) c) ∧
    (∀ (s : State) (req : Req) (idx : BitVec 10), s.chip.opens req R.BOB_CPL_HEAD true = true → ∃ c : Chip, exec (.bobCplHeadWrite req idx) s = .next
        (s.settled c) ∧ c.get F.BOB_CPL_HEAD_IDX = idx.toNat)

/-- CREATE (R167, R168). -/
def Says.create : Prop :=
    (∀ (s : State), ∃ c : Chip, exec .create s = .next (s.settled c) ∧ s.chip.Only ([Part.tx, Part.pins, Part.mem, Part.cust, Part.ply] ++
        eventParts) ([F.PWR_STATUS_LAST_RESULT, F.PWR_GRP_STATUS_STATE, F.BOB_STATUS_LAST_ERR, F.BOB_CQ_HEAD_IDX, F.BOB_CPL_TAIL_IDX,
        F.BOB_JSEQ_LO_SEQ, F.BOB_JSEQ_HI_SEQ] ++ eventRegs) c) ∧
    (∀ (s : State), s.chip.cmdTake 1 s.chip.cqRead = none → ∃ c : Chip, exec .create s = .next (s.settled c) ∧ c = s.chip) ∧
    (∀ (s : State), s.chip.cqTaken 1 = true → s.chip.grp 1 = 2 → s.chip.grpBarred 1 = false → s.chip.grp 2 = 2 → s.chip.grpBarred 2 = false → ∃ c :
        Chip, exec .create s = .next (s.settled c) ∧ c.get F.BOB_CQ_HEAD_IDX = (s.chip.get F.BOB_CQ_HEAD_IDX + 1) % s.chip.cqSize ∧ c.cust.nextCmd =
        s.chip.cust.nextCmd + 1 ∧ c.cust.cmds.any (fun r => r.id == s.chip.cust.nextCmd && r.op == 1 && r.tag == s.chip.cqRead.tag % 65536) = true) ∧
    (∀ (s : State), s.chip.cqTaken 1 = true → s.chip.grp 1 = 2 → s.chip.grp 2 = 2 → s.chip.grpBarred 1 = false → s.chip.grpBarred 2 = false →
        s.chip.journalBar = none → s.chip.cqRead.first % 2 ^ 20 = s.chip.cqRead.last % 2 ^ 20 → (Chip.create1 s.chip.cqRead s.chip
        (s.chip.cqRead.first % 2 ^ 20)).2 = .ok → ∃ c : Chip, exec .create s = .next (s.settled c) ∧ (c.bob? (s.chip.cqRead.first % 2 ^ 20)).any (fun
        b => b.cls == bitsOf s.chip.cqRead.arg0 3 0 && b.hank == bitsOf s.chip.cqRead.arg0 7 4 && b.epoch == s.chip.cqRead.epoch && b.st == 1) = true)

/-- DERIVE (R168, R195). -/
def Says.derive : Prop :=
    (∀ (s : State), ∃ c : Chip, exec .derive s = .next (s.settled c) ∧ s.chip.Only ([Part.free, Part.tx, Part.ring, Part.pins, Part.mem, Part.cust,
        Part.cry, Part.ply] ++ eventParts) ([F.PWR_STATUS_LAST_RESULT, F.PWR_GRP_STATUS_STATE, F.BOB_STATUS_LAST_ERR, F.BOB_CQ_HEAD_IDX,
        F.BOB_CPL_TAIL_IDX, F.BOB_JSEQ_LO_SEQ, F.BOB_JSEQ_HI_SEQ, F.DST_CACHE_STAT_PINNED, F.CRY_DRBG_STATUS_LAST] ++ eventRegs) c) ∧
    (∀ (s : State), s.chip.cmdTake 2 s.chip.cqRead = none → ∃ c : Chip, exec .derive s = .next (s.settled c) ∧ c = s.chip) ∧
    (∀ (s : State), s.chip.cqTaken 2 = true → s.chip.grp 1 = 2 → s.chip.grpBarred 1 = false → s.chip.grp 2 = 2 → s.chip.grpBarred 2 = false → ∃ c :
        Chip, exec .derive s = .next (s.settled c) ∧ c.get F.BOB_CQ_HEAD_IDX = (s.chip.get F.BOB_CQ_HEAD_IDX + 1) % s.chip.cqSize ∧ c.cust.nextCmd =
        s.chip.cust.nextCmd + 1 ∧ c.cust.cmds.any (fun r => r.id == s.chip.cust.nextCmd && r.op == 2 && r.tag == s.chip.cqRead.tag % 65536) = true) ∧
    (∀ (s : State), s.chip.cqTaken 2 = true → s.chip.grp 1 = 2 → s.chip.grpBarred 1 = false → s.chip.grp 2 = 2 → s.chip.grpBarred 2 = false →
        s.chip.cqRead.first % 2 ^ 20 = s.chip.cqRead.last % 2 ^ 20 → (s.chip.bob? (s.chip.cqRead.first % 2 ^ 20)).any (fun b => s.chip.keyAdmit
        s.chip.cqRead (s.chip.cqRead.first % 2 ^ 20) b false == .ok && (tget? s.chip.cust.keys.hank b.hank).isSome) = true → ∃ c : Chip, exec .derive
        s = .next (s.settled c) ∧ (c.bob? (s.chip.cqRead.first % 2 ^ 20)).any (fun b => (b.st == 2 || b.st == 3) && b.launch == s.chip.cqRead.arg1) =
        true)

/-- IMPORT (R522, Table 7.7): the key its handle names. -/
def Says.importCmd : Prop :=
    (∀ (s : State), ∃ c : Chip, exec .importCmd s = .next (s.settled c) ∧ s.chip.Only ([Part.free, Part.tx, Part.ring, Part.pins, Part.mem,
        Part.cust, Part.cry, Part.ply] ++ eventParts) ([F.PWR_STATUS_LAST_RESULT, F.PWR_GRP_STATUS_STATE, F.PLY_MSEQ_LO_SEQ, F.PLY_MSEQ_HI_SEQ,
        F.BOB_STATUS_LAST_ERR, F.BOB_CQ_HEAD_IDX, F.BOB_CPL_TAIL_IDX, F.BOB_JSEQ_LO_SEQ, F.BOB_JSEQ_HI_SEQ, F.DST_CACHE_STAT_PINNED,
        F.CRY_DRBG_STATUS_LAST] ++ eventRegs) c) ∧
    (∀ (s : State), s.chip.cmdTake 3 s.chip.cqRead = none → ∃ c : Chip, exec .importCmd s = .next (s.settled c) ∧ c = s.chip) ∧
    (∀ (s : State), s.chip.cqTaken 3 = true → s.chip.grp 2 = 2 → s.chip.grpBarred 2 = false → ∃ c : Chip, exec .importCmd s = .next (s.settled c) ∧
        c.get F.BOB_CQ_HEAD_IDX = (s.chip.get F.BOB_CQ_HEAD_IDX + 1) % s.chip.cqSize ∧ c.cust.nextCmd = s.chip.cust.nextCmd + 1 ∧ c.cust.cmds.any
        (fun r => r.id == s.chip.cust.nextCmd && r.op == 3 && r.tag == s.chip.cqRead.tag % 65536) = true) ∧
    (∀ (s : State), s.chip.cqTaken 3 = true → s.chip.grp 2 = 2 → s.chip.grpBarred 2 = false → s.chip.cqRead.first % 2 ^ 20 = s.chip.cqRead.last % 2 ^
        20 → s.chip.bob? (s.chip.cqRead.first % 2 ^ 20) = none → (Chip.import1 s.chip.cqRead (s.chip.keyHandle s.chip.cqRead.arg0) s.chip
        (s.chip.cqRead.first % 2 ^ 20)).2 = .ok → ∃ c : Chip, exec .importCmd s = .next (s.settled c) ∧ (c.bob? (s.chip.cqRead.first % 2 ^ 20)).any
        (fun b => b.cls == clsHOST && b.imported && b.epoch == s.chip.cqRead.epoch) = true)

/-- COMMIT (R180). -/
def Says.commit : Prop :=
    (∀ (s : State), ∃ c : Chip, exec .commit s = .next (s.settled c) ∧ s.chip.Only ([Part.tx, Part.pins, Part.mem, Part.cust, Part.ply] ++
        eventParts) ([F.PWR_STATUS_LAST_RESULT, F.PWR_GRP_STATUS_STATE, F.PLY_MSEQ_LO_SEQ, F.PLY_MSEQ_HI_SEQ, F.BOB_STATUS_LAST_ERR,
        F.BOB_CQ_HEAD_IDX, F.BOB_CPL_TAIL_IDX, F.BOB_JSEQ_LO_SEQ, F.BOB_JSEQ_HI_SEQ] ++ eventRegs) c) ∧
    (∀ (s : State), s.chip.cqTaken 4 = true → ∃ c : Chip, exec .commit s = .next (s.settled c) ∧ c.get F.BOB_CQ_HEAD_IDX = (s.chip.get
        F.BOB_CQ_HEAD_IDX + 1) % s.chip.cqSize ∧ c.cust.nextCmd = s.chip.cust.nextCmd + 1 ∧ c.cust.cmds.any (fun r => r.id == s.chip.cust.nextCmd &&
        r.op == 4 && r.tag == s.chip.cqRead.tag % 65536) = true) ∧
    (∀ (s : State), s.chip.cqTaken 4 = true → s.chip.journalBar = none → s.chip.cqRead.first % 2 ^ 20 = s.chip.cqRead.last % 2 ^ 20 →
        s.chip.repairing (s.chip.cqRead.first % 2 ^ 20) = false → (s.chip.bob? (s.chip.cqRead.first % 2 ^ 20)).any (fun b => b.st == 3 && b.launch ==
        s.chip.cqRead.arg1 && !b.imported) = true → ∃ c : Chip, exec .commit s = .next (s.settled c) ∧ c.cust.cmds.any (fun r => r.id ==
        s.chip.cust.nextCmd && r.left == [(s.chip.cqRead.first % 2 ^ 20)] && r.holds == 1 && r.bad == []) = true)

/-- ARM (R179). -/
def Says.arm : Prop :=
    (∀ (s : State), ∃ c : Chip, exec .arm s = .next (s.settled c) ∧ s.chip.Only ([Part.tx, Part.mem, Part.cust, Part.ply] ++ eventParts)
        ([F.PWR_STATUS_LAST_RESULT, F.PWR_GRP_STATUS_STATE, F.PLY_MSEQ_LO_SEQ, F.PLY_MSEQ_HI_SEQ, F.BOB_STATUS_LAST_ERR, F.BOB_CQ_HEAD_IDX,
        F.BOB_CPL_TAIL_IDX, F.BOB_JSEQ_LO_SEQ, F.BOB_JSEQ_HI_SEQ] ++ eventRegs) c) ∧
    (∀ (s : State), s.chip.cmdTake 5 s.chip.cqRead = none → ∃ c : Chip, exec .arm s = .next (s.settled c) ∧ c = s.chip) ∧
    (∀ (s : State), s.chip.cqTaken 5 = true → ∃ c : Chip, exec .arm s = .next (s.settled c) ∧ c.get F.BOB_CQ_HEAD_IDX = (s.chip.get
        F.BOB_CQ_HEAD_IDX + 1) % s.chip.cqSize ∧ c.cust.nextCmd = s.chip.cust.nextCmd + 1 ∧ c.cust.cmds.any (fun r => r.id == s.chip.cust.nextCmd &&
        r.op == 5 && r.tag == s.chip.cqRead.tag % 65536) = true) ∧
    (∀ (s : State), s.chip.cqTaken 5 = true → s.chip.cqRead.first % 2 ^ 20 = s.chip.cqRead.last % 2 ^ 20 → s.chip.armAdmit s.chip.cqRead
        (s.chip.cqRead.first % 2 ^ 20) = .ok → ∃ c : Chip, exec .arm s = .next (s.settled c) ∧ (c.bob? (s.chip.cqRead.first % 2 ^ 20)).any (fun b =>
        b.st == 5) = true)

/-- CANCEL (R177). -/
def Says.cancel : Prop :=
    (∀ (s : State), ∃ c : Chip, exec .cancel s = .next (s.settled c) ∧ s.chip.Only ([Part.tx, Part.ring, Part.mem, Part.cust, Part.whl, Part.ply] ++
        eventParts) ([F.PWR_STATUS_LAST_RESULT, F.PWR_GRP_STATUS_STATE, F.WHL_Ln_UNCONFIRMED_COUNT, F.BOB_STATUS_LAST_ERR, F.BOB_CQ_HEAD_IDX,
        F.BOB_CPL_TAIL_IDX, F.BOB_JSEQ_LO_SEQ, F.BOB_JSEQ_HI_SEQ, F.DST_CACHE_STAT_PINNED] ++ eventRegs) c) ∧
    (∀ (s : State), s.chip.cmdTake 6 s.chip.cqRead = none → ∃ c : Chip, exec .cancel s = .next (s.settled c) ∧ c = s.chip) ∧
    (∀ (s : State), s.chip.cqTaken 6 = true → ∃ c : Chip, exec .cancel s = .next (s.settled c) ∧ c.get F.BOB_CQ_HEAD_IDX = (s.chip.get
        F.BOB_CQ_HEAD_IDX + 1) % s.chip.cqSize ∧ c.cust.nextCmd = s.chip.cust.nextCmd + 1 ∧ c.cust.cmds.any (fun r => r.id == s.chip.cust.nextCmd &&
        r.op == 6 && r.tag == s.chip.cqRead.tag % 65536) = true) ∧
    (∀ (s : State), s.chip.cqTaken 6 = true → s.chip.cqRead.first % 2 ^ 20 = s.chip.cqRead.last % 2 ^ 20 → s.chip.cancelAdmit s.chip.cqRead
        (s.chip.cqRead.first % 2 ^ 20) = .ok → ∃ c : Chip, exec .cancel s = .next (s.settled c) ∧ (c.bob? (s.chip.cqRead.first % 2 ^ 20)).all (fun b
        => b.st != 2 && b.st != 3 && b.st != 4 && b.st != 5) = true)

/-- FREEZE (Table 7.4). -/
def Says.freeze : Prop :=
    (∀ (s : State), ∃ c : Chip, exec .freeze s = .next (s.settled c) ∧ s.chip.Only ([Part.tx, Part.ring, Part.mem, Part.cust, Part.whl, Part.hanks,
        Part.ply] ++ eventParts) ([F.PWR_STATUS_LAST_RESULT, F.PWR_GRP_STATUS_STATE, F.WHL_Ln_STATE_RESULT, F.WHL_Ln_UNCONFIRMED_COUNT,
        F.BOB_STATUS_LAST_ERR, F.BOB_CQ_HEAD_IDX, F.BOB_CPL_TAIL_IDX, F.BOB_JSEQ_LO_SEQ, F.BOB_JSEQ_HI_SEQ, F.DST_CACHE_STAT_PINNED,
        F.DST_HANKn_VALID] ++ eventRegs) c) ∧
    (∀ (s : State), s.chip.cqTaken 7 = true → ∃ c : Chip, exec .freeze s = .next (s.settled c) ∧ c.get F.BOB_CQ_HEAD_IDX = (s.chip.get
        F.BOB_CQ_HEAD_IDX + 1) % s.chip.cqSize ∧ c.cust.nextCmd = s.chip.cust.nextCmd + 1 ∧ c.cust.cmds.any (fun r => r.id == s.chip.cust.nextCmd &&
        r.op == 7 && r.tag == s.chip.cqRead.tag % 65536) = true) ∧
    (∀ (s : State), s.chip.cqTaken 7 = true → s.chip.cqRead.whole? = none → s.chip.journalBar = none → s.chip.cqRead.first % 2 ^ 20 =
        s.chip.cqRead.last % 2 ^ 20 → s.chip.repairing (s.chip.cqRead.first % 2 ^ 20) = false → (s.chip.bob? (s.chip.cqRead.first % 2 ^ 20)).isSome =
        true → ∃ c : Chip, exec .freeze s = .next (s.settled c) ∧ (c.bob? (s.chip.cqRead.first % 2 ^ 20)).any (fun b => b.frozen) = true)

/-- DESTROY (Table 7.4). -/
def Says.destroy : Prop :=
    (∀ (s : State), ∃ c : Chip, exec .destroy s = .next (s.settled c) ∧ s.chip.Only ([Part.tx, Part.mem, Part.cust, Part.ply] ++ eventParts)
        ([F.PWR_STATUS_LAST_RESULT, F.PWR_GRP_STATUS_STATE, F.BOB_STATUS_LAST_ERR, F.BOB_CQ_HEAD_IDX, F.BOB_CPL_TAIL_IDX, F.BOB_JSEQ_LO_SEQ,
        F.BOB_JSEQ_HI_SEQ, F.BOB_LIMIT_SUM_COUNT, F.DST_CACHE_STAT_PINNED] ++ eventRegs) c) ∧
    (∀ (s : State), s.chip.cmdTake 8 s.chip.cqRead = none → ∃ c : Chip, exec .destroy s = .next (s.settled c) ∧ c = s.chip) ∧
    (∀ (s : State), s.chip.cqTaken 8 = true → ∃ c : Chip, exec .destroy s = .next (s.settled c) ∧ c.get F.BOB_CQ_HEAD_IDX = (s.chip.get
        F.BOB_CQ_HEAD_IDX + 1) % s.chip.cqSize ∧ c.cust.nextCmd = s.chip.cust.nextCmd + 1 ∧ c.cust.cmds.any (fun r => r.id == s.chip.cust.nextCmd &&
        r.op == 8 && r.tag == s.chip.cqRead.tag % 65536) = true) ∧
    (∀ (s : State), s.chip.cqTaken 8 = true → s.chip.journalBar = none → s.chip.cqRead.first % 2 ^ 20 = s.chip.cqRead.last % 2 ^ 20 →
        s.chip.repairing (s.chip.cqRead.first % 2 ^ 20) = false → (s.chip.bob? (s.chip.cqRead.first % 2 ^ 20)).any (fun b => b.st == 1 || b.st == 6)
        = true → ∃ c : Chip, exec .destroy s = .next (s.settled c) ∧ c.bob? (s.chip.cqRead.first % 2 ^ 20) = none)

/-- RESUME (R186). -/
def Says.resume : Prop :=
    (∀ (s : State), ∃ c : Chip, exec .resume s = .next (s.settled c) ∧ s.chip.Only ([Part.tx, Part.ring, Part.pins, Part.mem, Part.cust, Part.ply] ++
        eventParts) ([F.PWR_STATUS_LAST_RESULT, F.PWR_GRP_STATUS_STATE, F.BOB_STATUS_LAST_ERR, F.BOB_CQ_HEAD_IDX, F.BOB_CPL_TAIL_IDX,
        F.BOB_JSEQ_LO_SEQ, F.BOB_JSEQ_HI_SEQ, F.BOB_LIMIT_SUM_COUNT, F.DST_CACHE_STAT_PINNED] ++ eventRegs) c) ∧
    (∀ (s : State), s.chip.cmdTake 9 s.chip.cqRead = none → ∃ c : Chip, exec .resume s = .next (s.settled c) ∧ c = s.chip) ∧
    (∀ (s : State), s.chip.cqTaken 9 = true → s.chip.grp 1 = 2 → s.chip.grpBarred 1 = false → s.chip.grp 2 = 2 → s.chip.grpBarred 2 = false → ∃ c :
        Chip, exec .resume s = .next (s.settled c) ∧ c.get F.BOB_CQ_HEAD_IDX = (s.chip.get F.BOB_CQ_HEAD_IDX + 1) % s.chip.cqSize ∧ c.cust.nextCmd =
        s.chip.cust.nextCmd + 1 ∧ c.cust.cmds.any (fun r => r.id == s.chip.cust.nextCmd && r.op == 9 && r.tag == s.chip.cqRead.tag % 65536) = true) ∧
    (∀ (s : State), s.chip.cqTaken 9 = true → s.chip.grp 1 = 2 → s.chip.grp 2 = 2 → s.chip.grpBarred 1 = false → s.chip.grpBarred 2 = false →
        s.chip.journalBar = none → s.chip.cqRead.first % 2 ^ 20 = s.chip.cqRead.last % 2 ^ 20 → (Chip.resume1 s.chip.cqRead s.chip
        (s.chip.cqRead.first % 2 ^ 20)).2 = .ok → ∃ c : Chip, exec .resume s = .next (s.settled c) ∧ (c.bob? (s.chip.cqRead.first % 2 ^ 20)).any (fun
        b => b.epoch == s.chip.cqRead.epoch && b.st == 1) = true)

/-- HISTORIC (R187). -/
def Says.historic : Prop :=
    (∀ (s : State), ∃ c : Chip, exec .historic s = .next (s.settled c) ∧ s.chip.Only ([Part.free, Part.tx, Part.mem, Part.cust, Part.cry,
        Part.ply] ++ eventParts) ([F.PWR_STATUS_LAST_RESULT, F.PWR_GRP_STATUS_STATE, F.BOB_STATUS_LAST_ERR, F.BOB_CQ_HEAD_IDX, F.BOB_CPL_TAIL_IDX,
        F.BOB_JSEQ_LO_SEQ, F.BOB_JSEQ_HI_SEQ, F.CRY_DRBG_STATUS_LAST] ++ eventRegs) c) ∧
    (∀ (s : State), s.chip.cmdTake 10 s.chip.cqRead = none → ∃ c : Chip, exec .historic s = .next (s.settled c) ∧ c = s.chip) ∧
    (∀ (s : State), s.chip.cqTaken 10 = true → s.chip.grp 1 = 2 → s.chip.grpBarred 1 = false → ∃ c : Chip, exec .historic s = .next (s.settled c) ∧
        c.get F.BOB_CQ_HEAD_IDX = (s.chip.get F.BOB_CQ_HEAD_IDX + 1) % s.chip.cqSize ∧ c.cust.nextCmd = s.chip.cust.nextCmd + 1 ∧ c.cust.cmds.any
        (fun r => r.id == s.chip.cust.nextCmd && r.op == 0xA && r.tag == s.chip.cqRead.tag % 65536) = true) ∧
    (∀ (s : State), s.chip.cqTaken 10 = true → s.chip.grp 1 = 2 → s.chip.grpBarred 1 = false → s.chip.cqRead.first % 2 ^ 20 = s.chip.cqRead.last % 2
        ^ 20 → (s.chip.bob? (s.chip.cqRead.first % 2 ^ 20)).any (fun b => (Chip.historic1 s.chip.cqRead s.chip (s.chip.cqRead.first % 2 ^ 20)).2 ==
        .pending && decide (s.chip.warpCh b = some 0)) = true → tget s.chip.cust.warp 0 [] = [] → s.chip.chSt 0 ≠ 3 → ∃ c : Chip, exec .historic s =
        .next (s.settled c) ∧ (tget c.cust.warp 0 []).any (fun w => w.frame.op == 1 && w.frame.sub == 0xFFFE && w.frame.bobbin ==
        (s.chip.cqRead.first % 2 ^ 20) && w.frame.epoch == s.chip.cqRead.epoch) = true ∧ c.cust.cmds.any (fun r => r.id == s.chip.cust.nextCmd &&
        r.left == [(s.chip.cqRead.first % 2 ^ 20)]) = true)

/-- READ (R174). -/
def Says.bobRead : Prop :=
    (∀ (s : State), ∃ c : Chip, exec .bobRead s = .next (s.settled c) ∧ s.chip.Only ([Part.tx, Part.mem, Part.cust, Part.ply] ++ eventParts)
        ([F.PWR_STATUS_LAST_RESULT, F.PWR_GRP_STATUS_STATE, F.BOB_STATUS_LAST_ERR, F.BOB_CQ_HEAD_IDX, F.BOB_CPL_TAIL_IDX, F.BOB_JSEQ_LO_SEQ,
        F.BOB_JSEQ_HI_SEQ] ++ eventRegs) c) ∧
    (∀ (s : State), s.chip.cmdTake 11 s.chip.cqRead = none → ∃ c : Chip, exec .bobRead s = .next (s.settled c) ∧ c = s.chip) ∧
    (∀ (s : State), s.chip.cqTaken 11 = true → ∃ c : Chip, exec .bobRead s = .next (s.settled c) ∧ c.get F.BOB_CQ_HEAD_IDX = (s.chip.get
        F.BOB_CQ_HEAD_IDX + 1) % s.chip.cqSize ∧ c.cust.nextCmd = s.chip.cust.nextCmd + 1 ∧ c.cust.cmds.any (fun r => r.id == s.chip.cust.nextCmd &&
        r.op == 0xB && r.tag == s.chip.cqRead.tag % 65536) = true) ∧
    (∀ (s : State), s.chip.cqTaken 11 = true → s.chip.cqRead.first % 2 ^ 20 = s.chip.cqRead.last % 2 ^ 20 → s.chip.cqRead.arg0 + 24 ≤ 0x100000 →
        s.chip.repairing (s.chip.cqRead.first % 2 ^ 20) = false → ∃ c : Chip, exec .bobRead s = .next (s.settled c) ∧ c.spnRd s.chip.cqRead.arg0 24 =
        s.chip.bobBytes (s.chip.cqRead.first % 2 ^ 20))

/-- FENCE_COMMAND (R175). -/
def Says.fenceCommand : Prop :=
    (∀ (s : State), ∃ c : Chip, exec .fenceCommand s = .next (s.settled c) ∧ s.chip.Only ([Part.tx, Part.mem, Part.cust] ++ eventParts)
        ([F.BOB_STATUS_LAST_ERR, F.BOB_CQ_HEAD_IDX, F.BOB_CPL_TAIL_IDX] ++ eventRegs) c) ∧
    (∀ (s : State), s.chip.cmdTake 15 s.chip.cqRead = none → ∃ c : Chip, exec .fenceCommand s = .next (s.settled c) ∧ c = s.chip) ∧
    (∀ (s : State), s.chip.cqTaken 15 = true → ∃ c : Chip, exec .fenceCommand s = .next (s.settled c) ∧ c.get F.BOB_CQ_HEAD_IDX = (s.chip.get
        F.BOB_CQ_HEAD_IDX + 1) % s.chip.cqSize ∧ c.cust.nextCmd = s.chip.cust.nextCmd + 1 ∧ c.cust.cmds.any (fun r => r.id == s.chip.cust.nextCmd &&
        r.op == 0xF && r.tag == s.chip.cqRead.tag % 65536) = true) ∧
    (∀ (s : State), s.chip.cqTaken 15 = true → bit s.chip.cqRead.flags 1 = false → ∃ c : Chip, exec .fenceCommand s = .next (s.settled c) ∧
        c.cust.cmds = s.chip.cust.cmds ++ [{ id := s.chip.cust.nextCmd, op := 15, tag := s.chip.cqRead.tag % 65536, irq := bit s.chip.cqRead.flags 0, first := 0, last := 0xFFFFF }])

/-- KEY_REQ (R170, R193): answered by the lease holder. -/
def Says.keyReq : Prop :=
    (∀ (s : State), ∃ c : Chip, exec .keyReq s = .next (s.settled c) ∧ s.chip.Only ([Part.free, Part.tx, Part.ring, Part.pins, Part.cust, Part.cry,
        Part.late] ++ eventParts) ([F.PWR_STATUS_LAST_RESULT, F.PWR_GRP_STATUS_STATE, F.DST_CACHE_STAT_PINNED, F.CRY_DRBG_STATUS_LAST] ++ eventRegs)
        c) ∧
    (∀ (s : State), s.chip.front 0x01 = none → ∃ c : Chip, exec .keyReq s = .next (s.settled c) ∧ c = s.chip) ∧
    (∀ (s : State), s.chip.leads = true → s.chip.ringLive = true → s.chip.hanks.tab = [] → (s.chip.front 0x01).any (fun m => s.chip.carded m.src &&
        (s.chip.bob? (numAt m.payload 0 4 % 2 ^ 20)).isNone) = true → ∃ c : Chip, exec .keyReq s = .next (s.settled c) ∧ c.tx.length =
        s.chip.tx.length + 1 ∧ c.cust = s.chip.cust ∧ c.ring.held.length = s.chip.ring.held.length + 1) ∧
    (∀ (s : State), s.chip.leads = true → s.chip.ringLive = true → s.chip.hanks.tab.all (fun e => !bit e.2.flags 0) = true → s.chip.grp 2 = 2 →
        s.chip.grpBarred 2 = false → (s.chip.front 0x01).any (fun m => s.chip.carded m.src && !s.chip.repairing (numAt m.payload 0 4 % 2 ^ 20) &&
        (s.chip.bob? (numAt m.payload 0 4 % 2 ^ 20)).any (fun b => b.cls == clsDIE && (s.chip.hankDies b.hank).contains m.src && !b.frozen &&
        s.chip.strandActive b && numAt m.payload 4 4 == b.epoch && (s.chip.cached (numAt m.payload 0 4 % 2 ^ 20) b.epoch).isSome)) = true → ∃ c :
        Chip, exec .keyReq s = .next (s.settled c) ∧ c.tx.length = s.chip.tx.length + 1 ∧ c.ring.held.length = s.chip.ring.held.length + 1 ∧
        (c.ring.held.getLast?).map (fun h => (h.frame.typ, h.frame.dst)) = (s.chip.front 0x01).map (fun m => (0x02, m.src)) ∧ c.cust.bobs =
        s.chip.cust.bobs)

/-- BLOB_LOAD_DONE (R169, R170). -/
def Says.blobLoadDone : Prop :=
    (∀ (s : State) (bobbin : Nat) (bytes : List Byte), ∃ c : Chip, exec (.blobLoadDone bobbin bytes) s = .next (s.settled c) ∧ s.chip.Only
        ([Part.free, Part.tx, Part.ring, Part.pins, Part.mem, Part.cust, Part.cry, Part.ply, Part.late] ++ eventParts) ([F.PWR_STATUS_LAST_RESULT,
        F.PWR_GRP_STATUS_STATE, F.PLY_MSEQ_LO_SEQ, F.PLY_MSEQ_HI_SEQ, F.BOB_CPL_TAIL_IDX, F.DST_CACHE_STAT_PINNED, F.CRY_DRBG_STATUS_LAST] ++
        eventRegs) c) ∧
    (∀ (s : State) (bobbin : Nat) (bytes : List Byte), (s.chip.svcUp = false ∨ s.chip.get F.DMA_STATUS_STOPPED = 1) → ∃ c : Chip, exec (.blobLoadDone
        bobbin bytes) s = .next (s.settled c) ∧ c = s.chip) ∧
    (∀ (s : State) (bobbin : Nat) (bytes : List Byte), s.chip.svcUp = true → s.chip.get F.DMA_STATUS_STOPPED = 0 → s.chip.bob? bobbin = none → ∃ c :
        Chip, exec (.blobLoadDone bobbin bytes) s = .next (s.settled c) ∧ c.cust.blobReads = s.chip.cust.blobReads.filter (fun q => q.bob != bobbin))
        ∧
    (∀ (s : State) (bobbin : Nat) (bytes : List Byte), s.chip.svcUp = true → s.chip.get F.DMA_STATUS_STOPPED = 0 → s.chip.cust.loads = [] →
        s.chip.cust.blobReads.any (fun q => q.bob == bobbin) = true → s.chip.cust.blobReads.all (fun q => q.src != ownNeed) = true → (s.chip.bob?
        bobbin).any (fun b => b.blob == 1 && b.imported && numAt bytes 40 4 == bobbin && numAt bytes 44 4 == b.epoch) = true → ∃ c : Chip, exec
        (.blobLoadDone bobbin bytes) s = .next (s.settled c) ∧ (s.chip.cust.keys.blob.bind (fun k => Config.kwUnwrap k (slice bytes 0 40)) = none →
        (c.bob? bobbin).any (fun b => b.blob == 0) = true) ∧ (s.chip.cust.keys.blob.bind (fun k => Config.kwUnwrap k (slice bytes 0 40)) ≠ none →
        (c.bob? bobbin).any (fun b => b.blob == 1) = true))

/-- KAT_DONE (R178). -/
def Says.katDone : Prop :=
    (∀ (s : State) (ch : Nat) (frame : WarpFrame), ∃ c : Chip, exec (.katDone ch frame) s = .next (s.settled c) ∧ s.chip.Only ([Part.free, Part.tx,
        Part.ring, Part.pins, Part.mem, Part.cust, Part.whl, Part.cry, Part.ply] ++ eventParts) ([F.WHL_Ln_UNCONFIRMED_COUNT, F.BOB_CPL_TAIL_IDX,
        F.BOB_WARP_STATUS_CH, F.DST_CACHE_STAT_PINNED, F.CRY_DRBG_STATUS_LAST] ++ eventRegs) c) ∧
    (∀ (s : State) (ch : Nat) (frame : WarpFrame), (s.chip.svcUp = false ∨ 8 ≤ ch ∨ frame.op ≠ 0x81) → ∃ c : Chip, exec (.katDone ch frame) s = .next
        (s.settled c) ∧ c = s.chip) ∧
    (∀ (s : State) (ch : Nat) (frame : WarpFrame), s.chip.svcUp = true → ch < 8 → frame.op = 0x81 → frame.result = 0 → tget s.chip.cust.backlog ch []
        = [] → s.chip.bob? frame.bobbin = none → frame.sub < 0xFFFC → tget s.chip.cust.warp ch [] =
        [{ frame := { op := 1, sub := frame.sub, bobbin := frame.bobbin, epoch := frame.epoch } }] → ∃ c : Chip, exec (.katDone ch frame) s = .next
        (s.settled c) ∧ tget c.cust.warp ch [] = [] ∧ c.tx = s.chip.tx) ∧
    (∀ (s : State) (ch : Nat) (frame : WarpFrame), s.chip.svcUp = true → ch < 8 → frame.op = 0x81 → frame.result = 0 → tget s.chip.cust.backlog ch []
        = [] → frame.sub < 0xFFFC → tget s.chip.cust.warp ch [] =
        [{ frame := { op := 1, sub := frame.sub, bobbin := frame.bobbin, epoch := frame.epoch } }] → (s.chip.bob? frame.bobbin).any (fun b => b.st ==
        2 && b.wait == [Tgt.warp ch] && b.fail.isNone && b.enable != 2 && frame.epoch == (b.epoch + 1) % 2 ^ 32) = true → ∃ c : Chip, exec (.katDone
        ch frame) s = .next (s.settled c) ∧ (c.bob? frame.bobbin).any (fun b => b.st == 3 && b.wait == []) = true ∧ tget c.cust.warp ch [] = [])

/-- WARP_ACK (R179). -/
def Says.warpAck : Prop :=
    (∀ (s : State) (ch : Nat) (frame : WarpFrame), ∃ c : Chip, exec (.warpAck ch frame) s = .next (s.settled c) ∧ s.chip.Only ([Part.free, Part.tx,
        Part.ring, Part.pins, Part.mem, Part.cust, Part.whl, Part.cry, Part.ply] ++ eventParts) ([F.WHL_Ln_UNCONFIRMED_COUNT, F.BOB_CPL_TAIL_IDX,
        F.BOB_WARP_STATUS_CH, F.DST_CACHE_STAT_PINNED, F.CRY_DRBG_STATUS_LAST] ++ eventRegs) c) ∧
    (∀ (s : State) (ch : Nat) (frame : WarpFrame), (s.chip.svcUp = false ∨ 8 ≤ ch ∨ frame.op ≠ 0x87) → ∃ c : Chip, exec (.warpAck ch frame) s = .next
        (s.settled c) ∧ c = s.chip) ∧
    (∀ (s : State) (ch : Nat) (frame : WarpFrame), s.chip.svcUp = true → ch < 8 → frame.op = 0x87 → frame.result = 0 → tget s.chip.cust.backlog ch []
        = [] → tget s.chip.cust.warp ch [] = [{ frame := { op := 2, sub := frame.sub, bobbin := frame.bobbin, epoch := frame.epoch } }] → ∃ c : Chip,
        exec (.warpAck ch frame) s = .next (s.settled c) ∧ tget c.cust.warp ch [] = [] ∧ c.tx = s.chip.tx)

/-- WARP_FRAME_CRC_FAIL (R31). -/
def Says.warpFrameCrcFail : Prop :=
    (∀ (s : State) (ch : Nat), ∃ c : Chip, exec (.warpFrameCrcFail ch) s = .next (s.settled c) ∧ s.chip.Only ([Part.free, Part.tx, Part.ring,
        Part.pins, Part.mem, Part.cust, Part.whl, Part.cry, Part.ply] ++ eventParts) ([F.WHL_Ln_UNCONFIRMED_COUNT, F.BOB_CPL_TAIL_IDX,
        F.BOB_WARP_STATUS_CH, F.DST_CACHE_STAT_PINNED, F.CRY_DRBG_STATUS_LAST] ++ eventRegs) c) ∧
    (∀ (s : State) (ch : Nat), s.chip.svcUp = true → ch < 8 → (tget s.chip.cust.warp ch []).head?.any (fun w => !w.resent) = true → ∃ c : Chip, exec
        (.warpFrameCrcFail ch) s = .next (s.settled c) ∧ (tget c.cust.warp ch []).head?.any (fun w => w.resent) = true ∧ (tget s.chip.cust.warp ch
        []).head?.all (fun w => decide (c.tx = s.chip.tx ++ [.warp ch w.frame])) = true) ∧
    (∀ (s : State) (ch : Nat), s.chip.svcUp = true → tget s.chip.cust.warp ch [] = [] → ∃ c : Chip, exec (.warpFrameCrcFail ch) s = .next (s.settled
        c) ∧ c.cust = s.chip.cust ∧ c.tx = s.chip.tx)

/-- WARP_ANSWER_TIMEOUT (R32). -/
def Says.warpAnswerTimeout : Prop :=
    (∀ (s : State) (ch : Nat), ∃ c : Chip, exec (.warpAnswerTimeout ch) s = .next (s.settled c) ∧ s.chip.Only ([Part.free, Part.tx, Part.ring,
        Part.pins, Part.mem, Part.cust, Part.whl, Part.cry, Part.ply] ++ eventParts) ([F.WHL_Ln_UNCONFIRMED_COUNT, F.BOB_CPL_TAIL_IDX,
        F.BOB_WARP_STATUS_CH, F.DST_CACHE_STAT_PINNED, F.CRY_DRBG_STATUS_LAST] ++ eventRegs) c) ∧
    (∀ (s : State) (ch : Nat), s.chip.svcUp = true → ch < 8 → (tget s.chip.cust.warp ch []).head?.any (fun w => !w.resent) = true → ∃ c : Chip, exec
        (.warpAnswerTimeout ch) s = .next (s.settled c) ∧ (tget c.cust.warp ch []).head?.any (fun w => w.resent) = true ∧ (tget s.chip.cust.warp ch
        []).head?.all (fun w => decide (c.tx = s.chip.tx ++ [.warp ch w.frame])) = true) ∧
    (∀ (s : State) (ch : Nat), tget s.chip.cust.warp ch [] = [] → ∃ c : Chip, exec (.warpAnswerTimeout ch) s = .next (s.settled c) ∧ c = s.chip)

/-- KEY_PUSH_ACK (R194). -/
def Says.keyPushAck : Prop :=
    (∀ (s : State), ∃ c : Chip, exec .keyPushAck s = .next (s.settled c) ∧ s.chip.Only ([Part.tx, Part.ring, Part.cust, Part.whl, Part.ply] ++
        eventParts) ([F.WHL_Ln_UNCONFIRMED_COUNT, F.DST_CACHE_STAT_PINNED] ++ eventRegs) c) ∧
    (∀ (s : State), (s.chip.front 0x04).all (fun m => (tget? s.chip.cust.pushes (numAt m.payload 8 4)).isNone) = true → ∃ c : Chip, exec .keyPushAck
        s = .next (s.settled c) ∧ c.cust = s.chip.cust ∧ c.whl = s.chip.whl) ∧
    (∀ (s : State), (s.chip.front 0x04).any (fun m => numAt m.payload 0 4 == ringKeyBob && numAt m.payload 12 1 == 0 && decide (tget?
        s.chip.cust.pushes (numAt m.payload 8 4) = some (m.src, numAt m.payload 0 4, numAt m.payload 4 4))) = true → ∃ c : Chip, exec .keyPushAck s =
        .next (s.settled c) ∧ (s.chip.front 0x04).all (fun m => (tget? c.cust.pushes (numAt m.payload 8 4)).isNone && decide (c.whl.ringAcks =
        s.chip.whl.ringAcks ++ [m.src])) = true)

/-- LIMIT_REPORT (R191). -/
def Says.limitReport : Prop :=
    (∀ (s : State) (ch : Nat) (frame : WarpFrame), ∃ c : Chip, exec (.limitReport ch frame) s = .next (s.settled c) ∧ s.chip.Only ([Part.tx,
        Part.cust, Part.ply] ++ eventParts) ([F.BOB_JSEQ_LO_SEQ, F.BOB_JSEQ_HI_SEQ, F.BOB_LIMIT_SUM_COUNT] ++ eventRegs) c) ∧
    (∀ (s : State) (ch : Nat) (frame : WarpFrame), s.chip.svcUp = false → ∃ c : Chip, exec (.limitReport ch frame) s = .next (s.settled c) ∧ c =
        s.chip) ∧
    (∀ (s : State) (ch : Nat) (frame : WarpFrame), s.chip.leads = true → (s.chip.bob? frame.bobbin).any (fun b => b.epoch == frame.epoch) = true → ∃
        c : Chip, exec (.limitReport ch frame) s = .next (s.settled c) ∧ (c.bob? frame.bobbin).any (fun b => b.hit) = true)

/-- JOURNAL_PROGRAM_DONE (R188). -/
def Says.journalProgramDone : Prop :=
    (∀ (s : State) (good : Bool), ∃ c : Chip, exec (.journalProgramDone good) s = .next (s.settled c) ∧ s.chip.Only ([Part.free, Part.mem,
        Part.cust] ++ eventParts) ([F.BOB_STATUS_LAST_ERR, F.BOB_JDUR_LO_SEQ, F.BOB_JDUR_HI_SEQ, F.BOB_JRNL_STATUS_HEAD_SECTOR] ++ eventRegs) c) ∧
    (∀ (s : State) (good : Bool), (s.chip.svcUp = false ∨ s.chip.cust.jrnl.page = []) → ∃ c : Chip, exec (.journalProgramDone good) s = .next
        (s.settled c) ∧ c = s.chip) ∧
    (∀ (s : State) (good : Bool), s.chip.svcUp = true → s.chip.cust.jrnl.page.isEmpty = false → good = true → ∃ c : Chip, exec (.journalProgramDone
        good) s = .next (s.settled c) ∧ c.cust.jrnl.page = [] ∧ c.cust.jrnl.fails = 0 ∧ c.get F.BOB_JRNL_STATUS_PROGRAMMING = 0) ∧
    (∀ (s : State) (good : Bool), s.chip.svcUp = true → s.chip.cust.jrnl.page.isEmpty = false → good = false → ∃ c : Chip, exec (.journalProgramDone
        good) s = .next (s.settled c) ∧ c.cust.jrnl.page = [] ∧ c.cust.jrnl.fails = s.chip.cust.jrnl.fails + 1 ∧ c.cust.jrnl.queue =
        s.chip.cust.jrnl.page.map (fun e => (none, e.2)) ++ s.chip.cust.jrnl.queue)

/-- JOURNAL_SECTOR_ERASE_DONE (R182). -/
def Says.journalSectorEraseDone : Prop :=
    (∀ (s : State), ∃ c : Chip, exec .journalSectorEraseDone s = .next (s.settled c) ∧ s.chip.Only [.dbg, .mem, .cust]
        [F.BOB_JRNL_STATUS_HEAD_SECTOR] c) ∧
    (∀ (s : State), (s.chip.svcUp = false ∨ s.chip.cust.jrnl.erasing = none) → ∃ c : Chip, exec .journalSectorEraseDone s = .next (s.settled c) ∧ c =
        s.chip) ∧
    (∀ (s : State), s.chip.svcUp = true → s.chip.cust.jrnl.erasing.isSome = true → ∃ c : Chip, exec .journalSectorEraseDone s = .next (s.settled c) ∧
        c.cust.jrnl.erasing = none ∧ c.cust.jrnl.ready = s.chip.cust.jrnl.erasing ∧ c.get F.BOB_JRNL_STATUS_ERASING = 0)

/-- JOURNAL_SECTOR_WAIT_TIMEOUT (R182): what has waited 100 ms for a sector completes with BUSY. -/
def Says.journalSectorWaitTimeout : Prop :=
    (∀ (s : State), ∃ c : Chip, exec .journalSectorWaitTimeout s = .next (s.settled c) ∧ s.chip.Only ([Part.tx, Part.mem, Part.cores, Part.cust,
        Part.ply] ++ eventParts) ([F.MBS_STATUSn_OWNER, F.MBN_STATUSn_OWNER, F.BOB_JSEQ_LO_SEQ, F.BOB_JSEQ_HI_SEQ, mbsRegs, mbnRegs] ++ eventRegs) c)
        ∧
    (∀ (s : State), (s.chip.svcUp = false ∨ s.chip.jWaits = false) → ∃ c : Chip, exec .journalSectorWaitTimeout s = .next (s.settled c) ∧ c = s.chip)
        ∧
    (∀ (s : State), s.chip.svcUp = true → s.chip.jWaits = true → ∃ c : Chip, exec .journalSectorWaitTimeout s = .next (s.settled c) ∧ c.ply.holds =
        s.chip.ply.holds.filter (fun h => h.jseq == 0) ∧ c.cust.jrnl = s.chip.cust.jrnl)

/-- BOBBIN_RECORD_UNCORRECTABLE (R189). -/
def Says.bobbinRecordUncorrectable : Prop :=
    (∀ (s : State) (bobbin : Nat) (fromPartner : Bool), ∃ c : Chip, exec (.bobbinRecordUncorrectable bobbin fromPartner) s = .next (s.settled c) ∧
        s.chip.Only ([Part.cust] ++ eventParts) ([F.BOB_REC_ERR_VALID] ++ eventRegs) c) ∧
    (∀ (s : State) (bobbin : Nat) (fromPartner : Bool), (s.chip.svcUp = false ∨ s.chip.repairing bobbin = true) → ∃ c : Chip, exec
        (.bobbinRecordUncorrectable bobbin fromPartner) s = .next (s.settled c) ∧ c = s.chip) ∧
    (∀ (s : State) (bobbin : Nat) (fromPartner : Bool), s.chip.svcUp = true → s.chip.repairing bobbin = false → bobbin < 2 ^ 20 → ∃ c : Chip, exec
        (.bobbinRecordUncorrectable bobbin fromPartner) s = .next (s.settled c) ∧ c.get F.BOB_REC_ERR_VALID = 1 ∧ c.get F.BOB_REC_ERR_BOBBIN = bobbin
        ∧ c.cust.repair = s.chip.cust.repair ++ [(bobbin, fromPartner && s.chip.pkg != .hx4 && s.chip.linked)] ∧ c.cust.bobs = s.chip.cust.bobs)

/-- CACHE_REMASK (R172): 32 free bytes are XORed into both shares of every entry. -/
def Says.cacheRemask : Prop :=
    (∀ (s : State), ∃ c : Chip, exec .cacheRemask s = .next (s.settled c) ∧ s.chip.Only [.free, .dbg, .cust, .cry] [F.CRY_DRBG_STATUS_LAST] c) ∧
    (∀ (s : State), s.chip.svcUp = false → ∃ c : Chip, exec .cacheRemask s = .next (s.settled c) ∧ c = s.chip) ∧
    (∀ (s : State), s.chip.svcUp = true → ∃ c : Chip, exec .cacheRemask s = .next (s.settled c) ∧ c.cust.cache.map (fun e => (e.bob, e.epoch,
        e.pinned)) = s.chip.cust.cache.map (fun e => (e.bob, e.epoch, e.pinned)) ∧ c.cust.bobs = s.chip.cust.bobs)

/-- DST_CACHE_FLUSH (Table 7.18). -/
def Says.dstCacheFlush : Prop :=
    (∀ (s : State) (req : Req), ∃ c : Chip, exec (.dstCacheFlush req) s = .next (s.settled c) ∧ s.chip.Only ([Part.tx, Part.pwr, Part.cust] ++
        eventParts) ([F.PWR_STATUS_LAST_RESULT, F.PWR_WAKE_CAUSE_COLD, F.SNG_STATUS_TEMP1, F.DST_CACHE_STAT_PINNED] ++ eventRegs) c) ∧
    (∀ (s : State) (req : Req), s.chip.opens req R.DST_CACHE_CTRL true = true → ∃ c : Chip, exec (.dstCacheFlush req) s = .next (s.settled c) ∧
        c.cust.cache = s.chip.cust.cache.filter (fun e => e.pinned))

/-- BOB_WARP_CLEAR (R178). -/
def Says.bobWarpClear : Prop :=
    (∀ (s : State) (req : Req) (mask : BitVec 8), ∃ c : Chip, exec (.bobWarpClear req mask) s = .next (s.settled c) ∧ s.chip.Only ([Part.tx,
        Part.pwr, Part.cust] ++ eventParts) ([F.PWR_STATUS_LAST_RESULT, F.PWR_WAKE_CAUSE_COLD, F.SNG_STATUS_TEMP1, F.BOB_WARP_STATUS_CH] ++
        eventRegs) c) ∧
    (∀ (s : State) (req : Req) (mask : BitVec 8), s.chip.opens req R.BOB_WARP_CTRL true = true → ∃ c : Chip, exec (.bobWarpClear req mask) s = .next
        (s.settled c) ∧ (List.range 8).all (fun i => c.chSt i == if bit mask.toNat i && s.chip.chSt i != 0 then 1 else s.chip.chSt i) = true)

/-- DEADLINE_NEAR (R253). -/
def Says.deadlineNear : Prop :=
    (∀ (s : State) (bobbin : Nat), ∃ c : Chip, exec (.deadlineNear bobbin) s = .next (s.settled c) ∧ s.chip.Only ([Part.tx, Part.mem, Part.cust] ++
        eventParts) ([F.BOB_CPL_TAIL_IDX] ++ eventRegs) c) ∧
    (∀ (s : State) (bobbin : Nat), (s.chip.leads = false ∨ s.chip.bob? bobbin = none) → ∃ c : Chip, exec (.deadlineNear bobbin) s = .next (s.settled
        c) ∧ c = s.chip) ∧
    (∀ (s : State) (bobbin : Nat), s.chip.leads = true → (s.chip.bob? bobbin).any (fun b => decide (2 < b.cls) && decide (s.chip.slotsTo b.deadline ≤
        65536)) = true → ∃ c : Chip, exec (.deadlineNear bobbin) s = .next (s.settled c) ∧ (c.bob? bobbin).any (fun b => b.near) = true)

/-- DEADLINE_PASSED (R253). -/
def Says.deadlinePassed : Prop :=
    (∀ (s : State) (bobbin : Nat), ∃ c : Chip, exec (.deadlinePassed bobbin) s = .next (s.settled c) ∧ s.chip.Only ([Part.tx, Part.mem, Part.cust] ++
        eventParts) ([F.BOB_CPL_TAIL_IDX] ++ eventRegs) c) ∧
    (∀ (s : State) (bobbin : Nat), (s.chip.leads = false ∨ s.chip.bob? bobbin = none) → ∃ c : Chip, exec (.deadlinePassed bobbin) s = .next
        (s.settled c) ∧ c = s.chip) ∧
    (∀ (s : State) (bobbin : Nat), s.chip.leads = true → (s.chip.bob? bobbin).any (fun b => decide (2 < b.cls) && decide (2 ^ 31 ≤ s.chip.slotsTo
        b.deadline)) = true → ∃ c : Chip, exec (.deadlinePassed bobbin) s = .next (s.settled c) ∧ (c.bob? bobbin).any (fun b => b.past) = true)

/-- HANK_CREATE (R384, R387, R390): the call with a body or an endorsement. -/
def Says.hankCreate : Prop :=
    (∀ (s : State) (n : Nat) (genuine : Bool), ∃ c : Chip, exec (.hankCreate n genuine) s = .next (s.settled c) ∧ s.chip.Only ([Part.tx, Part.ring,
        Part.pins, Part.mem, Part.cores, Part.cust, Part.whl, Part.dma, Part.hanks, Part.twist, Part.ply] ++ eventParts) ([F.WHL_Ln_STATE_RESULT,
        F.WHL_Ln_UNCONFIRMED_COUNT, F.PLY_MSEQ_LO_SEQ, F.PLY_MSEQ_HI_SEQ, F.MBS_STATUSn_OWNER, F.MBN_STATUSn_OWNER, F.BOB_JSEQ_LO_SEQ,
        F.BOB_JSEQ_HI_SEQ, F.BOB_LIMIT_SUM_COUNT, F.DST_CACHE_STAT_PINNED, F.DST_HANKn_VALID, F.DGT_TW_STATUS_INTAKE, F.DGT_TWn_CTRL_SEAL,
        F.DGT_TWn_STATUS_DEPART_CODE, F.DGT_TWn_SEGMENT_NUM, F.DGT_TWn_RECORDS_COUNT, F.DGT_TWn_PROG_COUNT, F.DGT_TWn_COUNTS_GAPS,
        F.DMA_STATUS_STOPPED, F.DMA_FAULT_MASK_CH, F.DMA_STOP_MASK_CH, F.DMA_LINE_GRANT_LO_LINES, F.DMA_LINE_GRANT_HI_LINES, F.DMA_CHn_HEAD_IDX,
        F.DMA_CHn_CTRL_CLEAR, F.DMA_CHn_STATUS_LAST_ERR, F.DBG_CTRL_WATCH, F.DBG_STATUS_TRACE_GRANTED, F.DBG_COREc_STATUS_LAST, mbsRegs, mbnRegs,
        dmaRegs, coreRegs] ++ eventRegs) c) ∧
    (∀ (s : State) (n : Nat) (genuine : Bool), s.chip.callReady n 0x30 = true → isBody (s.chip.callInput n) = true → s.chip.cores.pend = [] →
        s.chip.waitsPartner = false → ∃ c : Chip, exec (.hankCreate n genuine) s = .next (s.settled c) ∧ c.answered n (s.chip.bodySt 2
        (s.chip.callInput n)) = true ∧ (s.chip.bodySt 2 (s.chip.callInput n) = .pending → c.cores.ticket = s.chip.cores.ticket % 65535 + 1)) ∧
    (∀ (s : State) (n : Nat) (genuine : Bool), s.chip.callReady n 0x30 = true → isBody (s.chip.callInput n) = false → (s.chip.callInput n).length =
        5536 → s.chip.cores.pend = [] → s.chip.waitsPartner = false → ∃ c : Chip, exec (.hankCreate n genuine) s = .next (s.settled c) ∧ c.answered n
        (s.chip.endorse (s.chip.callInput n) genuine).2 = true) ∧
    (∀ (s : State) (n : Nat) (genuine : Bool), s.chip.callReady n 0x30 = true → isBody (s.chip.callInput n) = false → (s.chip.callInput n).length ≠
        5536 → ∃ c : Chip, exec (.hankCreate n genuine) s = .next (s.settled c) ∧ c.answered n .badArg = true)

/-- HANK_TEARDOWN (R396). -/
def Says.hankTeardown : Prop :=
    (∀ (s : State) (n : Nat) (genuine : Bool), ∃ c : Chip, exec (.hankTeardown n genuine) s = .next (s.settled c) ∧ s.chip.Only ([Part.tx, Part.ring,
        Part.pins, Part.mem, Part.cores, Part.cust, Part.whl, Part.dma, Part.hanks, Part.twist, Part.ply] ++ eventParts) ([F.WHL_Ln_STATE_RESULT,
        F.WHL_Ln_UNCONFIRMED_COUNT, F.PLY_MSEQ_LO_SEQ, F.PLY_MSEQ_HI_SEQ, F.MBS_STATUSn_OWNER, F.MBN_STATUSn_OWNER, F.BOB_JSEQ_LO_SEQ,
        F.BOB_JSEQ_HI_SEQ, F.BOB_LIMIT_SUM_COUNT, F.DST_CACHE_STAT_PINNED, F.DST_HANKn_VALID, F.DGT_TW_STATUS_INTAKE, F.DGT_TWn_CTRL_SEAL,
        F.DGT_TWn_STATUS_DEPART_CODE, F.DGT_TWn_SEGMENT_NUM, F.DGT_TWn_RECORDS_COUNT, F.DGT_TWn_PROG_COUNT, F.DGT_TWn_COUNTS_GAPS,
        F.DMA_STATUS_STOPPED, F.DMA_FAULT_MASK_CH, F.DMA_STOP_MASK_CH, F.DMA_LINE_GRANT_LO_LINES, F.DMA_LINE_GRANT_HI_LINES, F.DMA_CHn_HEAD_IDX,
        F.DMA_CHn_CTRL_CLEAR, F.DMA_CHn_STATUS_LAST_ERR, F.DBG_CTRL_WATCH, F.DBG_STATUS_TRACE_GRANTED, F.DBG_COREc_STATUS_LAST, mbsRegs, mbnRegs,
        dmaRegs, coreRegs] ++ eventRegs) c) ∧
    (∀ (s : State) (n : Nat) (genuine : Bool), s.chip.callReady n 0x31 = true → isBody (s.chip.callInput n) = true → s.chip.cores.pend = [] →
        s.chip.waitsPartner = false → ∃ c : Chip, exec (.hankTeardown n genuine) s = .next (s.settled c) ∧ c.answered n (s.chip.bodySt 3
        (s.chip.callInput n)) = true ∧ (s.chip.bodySt 3 (s.chip.callInput n) = .pending → c.cores.ticket = s.chip.cores.ticket % 65535 + 1)) ∧
    (∀ (s : State) (n : Nat) (genuine : Bool), s.chip.callReady n 0x31 = true → isBody (s.chip.callInput n) = false → (s.chip.callInput n).length =
        5536 → s.chip.cores.pend = [] → s.chip.waitsPartner = false → ∃ c : Chip, exec (.hankTeardown n genuine) s = .next (s.settled c) ∧ c.answered
        n (s.chip.endorse (s.chip.callInput n) genuine).2 = true) ∧
    (∀ (s : State) (n : Nat) (genuine : Bool), s.chip.callReady n 0x31 = true → isBody (s.chip.callInput n) = false → (s.chip.callInput n).length ≠
        5536 → ∃ c : Chip, exec (.hankTeardown n genuine) s = .next (s.settled c) ∧ c.answered n .badArg = true)

/-- CEREMONY_SHARE (R393). -/
def Says.ceremonyShare : Prop :=
    (∀ (s : State) (n : Nat) (genuine : Bool), ∃ c : Chip, exec (.ceremonyShare n genuine) s = .next (s.settled c) ∧ s.chip.Only ([Part.tx,
        Part.ring, Part.pins, Part.mem, Part.cores, Part.cust, Part.whl, Part.dma, Part.hanks, Part.twist, Part.ply] ++ eventParts)
        ([F.WHL_Ln_STATE_RESULT, F.WHL_Ln_UNCONFIRMED_COUNT, F.PLY_MSEQ_LO_SEQ, F.PLY_MSEQ_HI_SEQ, F.MBS_STATUSn_OWNER, F.MBN_STATUSn_OWNER,
        F.BOB_JSEQ_LO_SEQ, F.BOB_JSEQ_HI_SEQ, F.BOB_LIMIT_SUM_COUNT, F.DST_CACHE_STAT_PINNED, F.DST_HANKn_VALID, F.DGT_TW_STATUS_INTAKE,
        F.DGT_TWn_CTRL_SEAL, F.DGT_TWn_STATUS_DEPART_CODE, F.DGT_TWn_SEGMENT_NUM, F.DGT_TWn_RECORDS_COUNT, F.DGT_TWn_PROG_COUNT,
        F.DGT_TWn_COUNTS_GAPS, F.DMA_STATUS_STOPPED, F.DMA_FAULT_MASK_CH, F.DMA_STOP_MASK_CH, F.DMA_LINE_GRANT_LO_LINES, F.DMA_LINE_GRANT_HI_LINES,
        F.DMA_CHn_HEAD_IDX, F.DMA_CHn_CTRL_CLEAR, F.DMA_CHn_STATUS_LAST_ERR, F.DBG_CTRL_WATCH, F.DBG_STATUS_TRACE_GRANTED, F.DBG_COREc_STATUS_LAST,
        mbsRegs, mbnRegs, dmaRegs, coreRegs] ++ eventRegs) c) ∧
    (∀ (s : State) (n : Nat) (genuine : Bool), s.chip.callReady n 0x32 = true → isBody (s.chip.callInput n) = true → s.chip.cores.pend = [] →
        s.chip.waitsPartner = false → ∃ c : Chip, exec (.ceremonyShare n genuine) s = .next (s.settled c) ∧ c.answered n (s.chip.bodySt 1
        (s.chip.callInput n)) = true ∧ (s.chip.bodySt 1 (s.chip.callInput n) = .pending → c.cores.ticket = s.chip.cores.ticket % 65535 + 1)) ∧
    (∀ (s : State) (n : Nat) (genuine : Bool), s.chip.callReady n 0x32 = true → isBody (s.chip.callInput n) = false → (s.chip.callInput n).length =
        5536 → s.chip.cores.pend = [] → s.chip.waitsPartner = false → ∃ c : Chip, exec (.ceremonyShare n genuine) s = .next (s.settled c) ∧
        c.answered n (s.chip.endorse (s.chip.callInput n) genuine).2 = true) ∧
    (∀ (s : State) (n : Nat) (genuine : Bool), s.chip.callReady n 0x32 = true → isBody (s.chip.callInput n) = false → (s.chip.callInput n).length ≠
        5536 → ∃ c : Chip, exec (.ceremonyShare n genuine) s = .next (s.settled c) ∧ c.answered n .badArg = true)

/-- CONSENT (R399, R400): the call with a CONSENT body or an endorsement. -/
def Says.consent : Prop :=
    (∀ (s : State) (n : Nat) (genuine : Bool), ∃ c : Chip, exec (.consent n genuine) s = .next (s.settled c) ∧ s.chip.Only ([Part.tx, Part.ring,
        Part.pins, Part.mem, Part.cores, Part.cust, Part.whl, Part.dma, Part.hanks, Part.twist, Part.ply] ++ eventParts) ([F.WHL_Ln_STATE_RESULT,
        F.WHL_Ln_UNCONFIRMED_COUNT, F.PLY_MSEQ_LO_SEQ, F.PLY_MSEQ_HI_SEQ, F.MBS_STATUSn_OWNER, F.MBN_STATUSn_OWNER, F.BOB_JSEQ_LO_SEQ,
        F.BOB_JSEQ_HI_SEQ, F.BOB_LIMIT_SUM_COUNT, F.DST_CACHE_STAT_PINNED, F.DST_HANKn_VALID, F.DGT_TW_STATUS_INTAKE, F.DGT_TWn_CTRL_SEAL,
        F.DGT_TWn_STATUS_DEPART_CODE, F.DGT_TWn_SEGMENT_NUM, F.DGT_TWn_RECORDS_COUNT, F.DGT_TWn_PROG_COUNT, F.DGT_TWn_COUNTS_GAPS,
        F.DMA_STATUS_STOPPED, F.DMA_FAULT_MASK_CH, F.DMA_STOP_MASK_CH, F.DMA_LINE_GRANT_LO_LINES, F.DMA_LINE_GRANT_HI_LINES, F.DMA_CHn_HEAD_IDX,
        F.DMA_CHn_CTRL_CLEAR, F.DMA_CHn_STATUS_LAST_ERR, F.DBG_CTRL_WATCH, F.DBG_STATUS_TRACE_GRANTED, F.DBG_COREc_STATUS_LAST, mbsRegs, mbnRegs,
        dmaRegs, coreRegs] ++ eventRegs) c) ∧
    (∀ (s : State) (n : Nat) (genuine : Bool), s.chip.callReady n 0x33 = true → isBody (s.chip.callInput n) = true → obKind (s.chip.callInput n) ≠
        0x11 → obKind (s.chip.callInput n) ≠ 0x12 → s.chip.cores.pend = [] → s.chip.waitsPartner = false → ∃ c : Chip, exec (.consent n genuine) s =
        .next (s.settled c) ∧ c.answered n (s.chip.bodySt 0 (s.chip.callInput n)) = true ∧ (s.chip.bodySt 0 (s.chip.callInput n) = .pending →
        c.cores.ticket = s.chip.cores.ticket % 65535 + 1)) ∧
    (∀ (s : State) (n : Nat) (genuine : Bool), s.chip.callReady n 0x33 = true → isBody (s.chip.callInput n) = false → (s.chip.callInput n).length =
        5536 → s.chip.cores.pend = [] → s.chip.waitsPartner = false → ∃ c : Chip, exec (.consent n genuine) s = .next (s.settled c) ∧ c.answered n
        (s.chip.endorse (s.chip.callInput n) genuine).2 = true) ∧
    (∀ (s : State) (n : Nat) (genuine : Bool), s.chip.callReady n 0x33 = true → isBody (s.chip.callInput n) = false → (s.chip.callInput n).length ≠
        5536 → ∃ c : Chip, exec (.consent n genuine) s = .next (s.settled c) ∧ c.answered n .badArg = true)

/-- WITHDRAW_OBJECT (R401): the CONSENT call with a WITHDRAW body. -/
def Says.withdrawObject : Prop :=
    (∀ (s : State) (n : Nat), ∃ c : Chip, exec (.withdrawObject n) s = .next (s.settled c) ∧ s.chip.Only ([Part.tx, Part.ring, Part.pins, Part.mem,
        Part.cores, Part.cust, Part.whl, Part.dma, Part.hanks, Part.twist, Part.ply] ++ eventParts) ([F.WHL_Ln_STATE_RESULT,
        F.WHL_Ln_UNCONFIRMED_COUNT, F.PLY_MSEQ_LO_SEQ, F.PLY_MSEQ_HI_SEQ, F.MBS_STATUSn_OWNER, F.MBN_STATUSn_OWNER, F.BOB_JSEQ_LO_SEQ,
        F.BOB_JSEQ_HI_SEQ, F.BOB_LIMIT_SUM_COUNT, F.DST_CACHE_STAT_PINNED, F.DST_HANKn_VALID, F.DGT_TW_STATUS_INTAKE, F.DGT_TWn_CTRL_SEAL,
        F.DGT_TWn_STATUS_DEPART_CODE, F.DGT_TWn_SEGMENT_NUM, F.DGT_TWn_RECORDS_COUNT, F.DGT_TWn_PROG_COUNT, F.DGT_TWn_COUNTS_GAPS,
        F.DMA_STATUS_STOPPED, F.DMA_FAULT_MASK_CH, F.DMA_STOP_MASK_CH, F.DMA_LINE_GRANT_LO_LINES, F.DMA_LINE_GRANT_HI_LINES, F.DMA_CHn_HEAD_IDX,
        F.DMA_CHn_CTRL_CLEAR, F.DMA_CHn_STATUS_LAST_ERR, F.DBG_CTRL_WATCH, F.DBG_STATUS_TRACE_GRANTED, F.DBG_COREc_STATUS_LAST, mbsRegs, mbnRegs,
        dmaRegs, coreRegs] ++ eventRegs) c) ∧
    (∀ (s : State) (n : Nat), s.chip.callReady n 0x33 = true → isBody (s.chip.callInput n) = true → obKind (s.chip.callInput n) = 0x11 →
        s.chip.cores.pend = [] → s.chip.waitsPartner = false → ∃ c : Chip, exec (.withdrawObject n) s = .next (s.settled c) ∧ c.answered n
        (s.chip.bodySt 0 (s.chip.callInput n)) = true ∧ (s.chip.bodySt 0 (s.chip.callInput n) = .pending → c.cores.ticket = s.chip.cores.ticket %
        65535 + 1))

/-- STRAND_SET (R403): the CONSENT call with a STRAND_SET body. -/
def Says.strandSet : Prop :=
    (∀ (s : State) (n : Nat), ∃ c : Chip, exec (.strandSet n) s = .next (s.settled c) ∧ s.chip.Only ([Part.tx, Part.ring, Part.pins, Part.mem,
        Part.cores, Part.cust, Part.whl, Part.dma, Part.hanks, Part.twist, Part.ply] ++ eventParts) ([F.WHL_Ln_STATE_RESULT,
        F.WHL_Ln_UNCONFIRMED_COUNT, F.PLY_MSEQ_LO_SEQ, F.PLY_MSEQ_HI_SEQ, F.MBS_STATUSn_OWNER, F.MBN_STATUSn_OWNER, F.BOB_JSEQ_LO_SEQ,
        F.BOB_JSEQ_HI_SEQ, F.BOB_LIMIT_SUM_COUNT, F.DST_CACHE_STAT_PINNED, F.DST_HANKn_VALID, F.DGT_TW_STATUS_INTAKE, F.DGT_TWn_CTRL_SEAL,
        F.DGT_TWn_STATUS_DEPART_CODE, F.DGT_TWn_SEGMENT_NUM, F.DGT_TWn_RECORDS_COUNT, F.DGT_TWn_PROG_COUNT, F.DGT_TWn_COUNTS_GAPS,
        F.DMA_STATUS_STOPPED, F.DMA_FAULT_MASK_CH, F.DMA_STOP_MASK_CH, F.DMA_LINE_GRANT_LO_LINES, F.DMA_LINE_GRANT_HI_LINES, F.DMA_CHn_HEAD_IDX,
        F.DMA_CHn_CTRL_CLEAR, F.DMA_CHn_STATUS_LAST_ERR, F.DBG_CTRL_WATCH, F.DBG_STATUS_TRACE_GRANTED, F.DBG_COREc_STATUS_LAST, mbsRegs, mbnRegs,
        dmaRegs, coreRegs] ++ eventRegs) c) ∧
    (∀ (s : State) (n : Nat), s.chip.callReady n 0x33 = true → isBody (s.chip.callInput n) = true → obKind (s.chip.callInput n) = 0x12 →
        s.chip.cores.pend = [] → s.chip.waitsPartner = false → ∃ c : Chip, exec (.strandSet n) s = .next (s.settled c) ∧ c.answered n (s.chip.bodySt
        0 (s.chip.callInput n)) = true ∧ (s.chip.bodySt 0 (s.chip.callInput n) = .pending → c.cores.ticket = s.chip.cores.ticket % 65535 + 1))

/-- OWNER_ENDORSEMENT (R387): an endorsement by any of the four calls. -/
def Says.ownerEndorsement : Prop :=
    (∀ (s : State) (n : Nat) (genuine : Bool), ∃ c : Chip, exec (.ownerEndorsement n genuine) s = .next (s.settled c) ∧ s.chip.Only ([Part.tx,
        Part.ring, Part.pins, Part.mem, Part.cores, Part.cust, Part.whl, Part.dma, Part.hanks, Part.twist, Part.ply] ++ eventParts)
        ([F.WHL_Ln_STATE_RESULT, F.WHL_Ln_UNCONFIRMED_COUNT, F.PLY_MSEQ_LO_SEQ, F.PLY_MSEQ_HI_SEQ, F.MBS_STATUSn_OWNER, F.MBN_STATUSn_OWNER,
        F.BOB_JSEQ_LO_SEQ, F.BOB_JSEQ_HI_SEQ, F.BOB_LIMIT_SUM_COUNT, F.DST_CACHE_STAT_PINNED, F.DST_HANKn_VALID, F.DGT_TW_STATUS_INTAKE,
        F.DGT_TWn_CTRL_SEAL, F.DGT_TWn_STATUS_DEPART_CODE, F.DGT_TWn_SEGMENT_NUM, F.DGT_TWn_RECORDS_COUNT, F.DGT_TWn_PROG_COUNT,
        F.DGT_TWn_COUNTS_GAPS, F.DMA_STATUS_STOPPED, F.DMA_FAULT_MASK_CH, F.DMA_STOP_MASK_CH, F.DMA_LINE_GRANT_LO_LINES, F.DMA_LINE_GRANT_HI_LINES,
        F.DMA_CHn_HEAD_IDX, F.DMA_CHn_CTRL_CLEAR, F.DMA_CHn_STATUS_LAST_ERR, F.DBG_CTRL_WATCH, F.DBG_STATUS_TRACE_GRANTED, F.DBG_COREc_STATUS_LAST,
        mbsRegs, mbnRegs, dmaRegs, coreRegs] ++ eventRegs) c) ∧
    (∀ (s : State) (n : Nat) (genuine : Bool), s.chip.callReady n 0x32 = true → isBody (s.chip.callInput n) = false → (s.chip.callInput n).length =
        5536 → s.chip.waitsPartner = false → ∃ c : Chip, exec (.ownerEndorsement n genuine) s = .next (s.settled c) ∧ c.answered n (s.chip.endorse
        (s.chip.callInput n) genuine).2 = true) ∧
    (∀ (s : State) (n : Nat) (genuine : Bool), s.chip.callAt n = none → ∃ c : Chip, exec (.ownerEndorsement n genuine) s = .next (s.settled c) ∧ c =
        s.chip)

/-- OBJECT_EXPIRY (R388). -/
def Says.objectExpiry : Prop :=
    (∀ (s : State) (i : Nat), ∃ c : Chip, exec (.objectExpiry i) s = .next (s.settled c) ∧ s.chip.Only ([Part.mem, Part.cores, Part.cust,
        Part.hanks] ++ eventParts) ([F.DST_HANKn_VALID, F.DBG_CTRL_WATCH] ++ eventRegs) c) ∧
    (∀ (s : State) (i : Nat), s.chip.hanks.pend[i]? = none → ∃ c : Chip, exec (.objectExpiry i) s = .next (s.settled c) ∧ c = s.chip) ∧
    (∀ (s : State) (i : Nat), (s.chip.hanks.pend[i]?).any (fun p => decide (p.expiry < s.chip.slot) && p.kind != 1) = true → ∃ c : Chip, exec
        (.objectExpiry i) s = .next (s.settled c) ∧ (s.chip.hanks.pend[i]?).all (fun p => !c.hanks.pend.contains p) = true)

/-- HANK_KEYING (R394, R395): the steps of the ceremony whose waits are over. -/
def Says.hankKeying : Prop :=
    (∀ (s : State) (h : BitVec 4), ∃ c : Chip, exec (.hankKeying h) s = .next (s.settled c) ∧ s.chip.Only ([Part.free, Part.tx, Part.ring, Part.pins,
        Part.mem, Part.cores, Part.cust, Part.whl, Part.cry, Part.dma, Part.hanks, Part.twist, Part.ply] ++ eventParts) ([F.PWR_STATUS_LAST_RESULT,
        F.PWR_GRP_CTRL_FORCE_ON, F.PWR_GRP_STATUS_STATE, F.WHL_Ln_STATE_RESULT, F.WHL_Ln_UNCONFIRMED_COUNT, F.PLY_MSEQ_LO_SEQ, F.PLY_MSEQ_HI_SEQ,
        F.BOB_JSEQ_LO_SEQ, F.BOB_JSEQ_HI_SEQ, F.BOB_LIMIT_SUM_COUNT, F.DST_CACHE_STAT_PINNED, F.DST_HANKn_VALID, F.CRY_DRBG_STATUS_LAST,
        F.DGT_TWn_CTRL_SEAL, F.DGT_TWn_STATUS_DEPART_CODE, F.DGT_TWn_LOG_LO_ADDR, F.DGT_TWn_LOG_HI_ADDR, F.DGT_TWn_LOG_LEN_GRANULES,
        F.TLY_STATUS_LAST, F.TLY_ACCn_RECEIVED_MASK, F.TLY_ACCn_STATUS_RESULT, F.TLY_ACCn_SAT_COUNT, F.TLY_ACCn_NAN_COUNT, F.DMA_STATUS_STOPPED,
        F.DMA_FAULT_MASK_CH, F.DMA_STOP_MASK_CH, F.DMA_LINE_GRANT_LO_LINES, F.DMA_LINE_GRANT_HI_LINES, F.DMA_CHn_HEAD_IDX, F.DMA_CHn_CTRL_CLEAR,
        F.DMA_CHn_STATUS_LAST_ERR, F.DBG_CTRL_WATCH, F.DBG_STATUS_TRACE_GRANTED, F.DBG_COREc_STATUS_LAST, twRegs, dmaRegs, coreRegs] ++ eventRegs) c)
        ∧
    (∀ (s : State) (h : BitVec 4), (s.chip.svcUp = false ∨ s.chip.hankSt h.toNat ≠ 2) → ∃ c : Chip, exec (.hankKeying h) s = .next (s.settled c) ∧ c
        = s.chip) ∧
    (∀ (s : State) (h : BitVec 4), s.chip.leads = true → s.chip.jFailed = false → (s.chip.hank? h.toNat).any (fun k => k.st == 2 && k.phase == 4) =
        true → s.chip.cust.bobs.all (fun e => e.2.hank != h.toNat || e.2.enable == 3) = true → ∃ c : Chip, exec (.hankKeying h) s = .next (s.settled
        c) ∧ c.hankSt h.toNat = 3)

/-- HANK_TEARING (R397). -/
def Says.hankTearing : Prop :=
    (∀ (s : State) (h : BitVec 4), ∃ c : Chip, exec (.hankTearing h) s = .next (s.settled c) ∧ s.chip.Only ([Part.free, Part.tx, Part.ring,
        Part.pins, Part.mem, Part.cores, Part.cust, Part.whl, Part.cry, Part.dma, Part.hanks, Part.twist, Part.ply] ++ eventParts)
        ([F.PWR_STATUS_LAST_RESULT, F.PWR_GRP_CTRL_FORCE_ON, F.PWR_GRP_STATUS_STATE, F.WHL_Ln_STATE_RESULT, F.WHL_Ln_UNCONFIRMED_COUNT,
        F.PLY_MSEQ_LO_SEQ, F.PLY_MSEQ_HI_SEQ, F.BOB_JSEQ_LO_SEQ, F.BOB_JSEQ_HI_SEQ, F.BOB_LIMIT_SUM_COUNT, F.DST_CACHE_STAT_PINNED,
        F.DST_HANKn_VALID, F.CRY_DRBG_STATUS_LAST, F.DGT_TWn_CTRL_SEAL, F.DGT_TWn_STATUS_DEPART_CODE, F.DGT_TWn_LOG_LO_ADDR, F.DGT_TWn_LOG_HI_ADDR,
        F.DGT_TWn_LOG_LEN_GRANULES, F.TLY_STATUS_LAST, F.TLY_ACCn_RECEIVED_MASK, F.TLY_ACCn_STATUS_RESULT, F.TLY_ACCn_SAT_COUNT,
        F.TLY_ACCn_NAN_COUNT, F.DMA_STATUS_STOPPED, F.DMA_FAULT_MASK_CH, F.DMA_STOP_MASK_CH, F.DMA_LINE_GRANT_LO_LINES, F.DMA_LINE_GRANT_HI_LINES,
        F.DMA_CHn_HEAD_IDX, F.DMA_CHn_CTRL_CLEAR, F.DMA_CHn_STATUS_LAST_ERR, F.DBG_CTRL_WATCH, F.DBG_STATUS_TRACE_GRANTED, F.DBG_COREc_STATUS_LAST,
        twRegs, dmaRegs, coreRegs] ++ eventRegs) c) ∧
    (∀ (s : State) (h : BitVec 4), (s.chip.svcUp = false ∨ s.chip.hankSt h.toNat ≠ 5) → ∃ c : Chip, exec (.hankTearing h) s = .next (s.settled c) ∧ c
        = s.chip) ∧
    (∀ (s : State) (h : BitVec 4), s.chip.leads = true → (s.chip.hank? h.toNat).any (fun k => k.st == 5 && k.phase == 2 && decide (k.jseq ≤
        s.chip.get64 R.BOB_JDUR_LO)) = true → ∃ c : Chip, exec (.hankTearing h) s = .next (s.settled c) ∧ c.hankSt h.toNat = 0 ∧ c.hank? h.toNat =
        none)

/-- CONSENT_END_SLOT (R400); a RECIPE has no end slot. -/
def Says.consentEndSlot : Prop :=
    (∀ (s : State) (h : BitVec 4) (kind : Nat), ∃ c : Chip, exec (.consentEndSlot h kind) s = .next (s.settled c) ∧ s.chip.Only ([Part.tx, Part.ring,
        Part.mem, Part.cores, Part.cust, Part.whl, Part.dma, Part.hanks, Part.ply] ++ eventParts) ([F.WHL_Ln_STATE_RESULT,
        F.WHL_Ln_UNCONFIRMED_COUNT, F.BOB_JSEQ_LO_SEQ, F.BOB_JSEQ_HI_SEQ, F.DST_CACHE_STAT_PINNED, F.DMA_STATUS_STOPPED, F.DMA_FAULT_MASK_CH,
        F.DMA_STOP_MASK_CH, F.DMA_LINE_GRANT_LO_LINES, F.DMA_LINE_GRANT_HI_LINES, F.DMA_CHn_HEAD_IDX, F.DMA_CHn_CTRL_CLEAR,
        F.DMA_CHn_STATUS_LAST_ERR, F.DBG_CTRL_WATCH, F.DBG_STATUS_TRACE_GRANTED, F.DBG_COREc_STATUS_LAST, dmaRegs, coreRegs] ++ eventRegs) c) ∧
    (∀ (s : State) (h : BitVec 4) (kind : Nat), ((s.chip.hank? h.toNat).bind (fun k => k.consent? kind)) = none → ∃ c : Chip, exec (.consentEndSlot h
        kind) s = .next (s.settled c) ∧ c = s.chip) ∧
    (∀ (s : State) (h : BitVec 4) (kind : Nat), s.chip.svcUp = true → kind ≠ 2 → ((s.chip.hank? h.toNat).bind (fun k => k.consent? kind)).any (fun q
        => q.endSlot != 0 && decide (q.endSlot < s.chip.slot)) = true → ∃ c : Chip, exec (.consentEndSlot h kind) s = .next (s.settled c) ∧ ((c.hank?
        h.toNat).bind (fun k => k.consent? kind)) = none)

/-- SCRUB_DIGEST (R407, R409). -/
def Says.scrubDigest : Prop :=
    (∀ (s : State), ∃ c : Chip, exec .scrubDigest s = .next (s.settled c) ∧ s.chip.Only ([Part.free, Part.tx, Part.ring, Part.pins, Part.card,
        Part.cust, Part.cry, Part.hanks, Part.twist, Part.ply] ++ eventParts) ([F.GEN_CARDED0_NODES, F.GEN_CARDED1_NODES, F.GEN_CARD_STATEn_RECARD,
        F.PLY_MSEQ_LO_SEQ, F.PLY_MSEQ_HI_SEQ, F.CRY_DRBG_STATUS_LAST, F.DGT_TWn_STATUS_DEPART_CODE, F.DGT_TWn_SEGMENT_NUM, F.DGT_TWn_RECORDS_COUNT,
        F.DGT_TWn_COUNTS_GAPS] ++ eventRegs) c) ∧
    (∀ (s : State), s.chip.front 0x51 = none → ∃ c : Chip, exec .scrubDigest s = .next (s.settled c) ∧ c = s.chip) ∧
    (∀ (s : State), s.chip.leads = true → (s.chip.front 0x51).any (fun m => (s.chip.hankOfDie m.src).any (fun h => ((s.chip.hank? h).bind (fun k =>
        tget? k.scrubs m.src)).any (fun q => q.number == numAt m.payload 0 4 && !q.ok && numAt m.payload 4 1 == 0 && numAt m.payload 5 1 == 15) &&
        (tget? s.chip.hanks.dieRef m.src).isNone)) = true → ∃ c : Chip, exec .scrubDigest s = .next (s.settled c) ∧ (s.chip.front 0x51).all (fun m =>
        (s.chip.hankOfDie m.src).all (fun h => ((s.chip.hank? h).bind (fun k => tget? k.scrubs m.src)).all (fun q => slice m.payload 16 48 !=
        Sys2Proof.Machine.scrubDigest q.nonce m.src (numAt m.payload 8 8) || decide (tget? c.hanks.dieRef m.src = some (numAt m.payload 8 8))))) =
        true)

/-- SCRUB_TIMEOUT (R409): no result of a scrub outstanding came within 50 ms. -/
def Says.scrubTimeout : Prop :=
    (∀ (s : State) (h : BitVec 4) (die : Nat), ∃ c : Chip, exec (.scrubTimeout h die) s = .next (s.settled c) ∧ s.chip.Only ([Part.free, Part.tx,
        Part.ring, Part.pins, Part.card, Part.cust, Part.cry, Part.hanks, Part.twist, Part.ply] ++ eventParts) ([F.GEN_CARDED0_NODES,
        F.GEN_CARDED1_NODES, F.GEN_CARD_STATEn_RECARD, F.PLY_MSEQ_LO_SEQ, F.PLY_MSEQ_HI_SEQ, F.CRY_DRBG_STATUS_LAST, F.DGT_TWn_STATUS_DEPART_CODE,
        F.DGT_TWn_SEGMENT_NUM, F.DGT_TWn_RECORDS_COUNT, F.DGT_TWn_COUNTS_GAPS] ++ eventRegs) c) ∧
    (∀ (s : State) (h : BitVec 4) (die : Nat), s.chip.leads = false → ∃ c : Chip, exec (.scrubTimeout h die) s = .next (s.settled c) ∧ c = s.chip) ∧
    (∀ (s : State) (h : BitVec 4) (die : Nat), s.chip.leads = true → ((s.chip.hank? h.toNat).bind (fun k => tget? k.scrubs die)).any (fun q => !q.ok)
        = true → ∃ c : Chip, exec (.scrubTimeout h die) s = .next (s.settled c) ∧ ((c.hank? h.toNat).bind (fun k => tget? k.scrubs die)) = none)

/-- QUIET_REPLY_RELEASE (R413, R415). -/
def Says.quietReplyRelease : Prop :=
    (∀ (s : State) (i : Nat), ∃ c : Chip, exec (.quietReplyRelease i) s = .next (s.settled c) ∧ s.chip.Only ([Part.free, Part.tx, Part.ring,
        Part.pins, Part.mem, Part.cores, Part.card, Part.cust, Part.whl, Part.cry, Part.hanks, Part.twist, Part.ply, Part.late] ++ eventParts)
        ([F.GEN_CARDED0_NODES, F.GEN_CARDED1_NODES, F.GEN_CARD_STATEn_RECARD, F.WHL_Ln_STATE_RESULT, F.WHL_Ln_UNCONFIRMED_COUNT, F.SKN_BRIDGE0_NODES,
        F.SKN_BRIDGE1_NODES, F.SKN_BRIDGE2_NODES, F.PLY_MSEQ_LO_SEQ, F.PLY_MSEQ_HI_SEQ, F.MBS_STATUSn_OWNER, F.MBN_STATUSn_OWNER, F.BOB_JSEQ_LO_SEQ,
        F.BOB_JSEQ_HI_SEQ, F.DST_CACHE_STAT_PINNED, F.DST_HANKn_VALID, F.CRY_DRBG_STATUS_LAST, F.DGT_TWn_STATUS_DEPART_CODE, F.DGT_TWn_SEGMENT_NUM,
        F.DGT_TWn_RECORDS_COUNT, mbsRegs, mbnRegs] ++ eventRegs) c) ∧
    (∀ (s : State) (i : Nat), (s.chip.svcUp = false ∨ (s.chip.late[i]?).all (fun l => decide (s.chip.slot < l.due)) = true) → ∃ c : Chip, exec
        (.quietReplyRelease i) s = .next (s.settled c) ∧ c = s.chip) ∧
    (∀ (s : State) (i : Nat), s.chip.svcUp = true → (s.chip.late[i]?).any (fun l => decide (l.due ≤ s.chip.slot) &&
        (match l.eff with | .spdm .. => true | _ => false)) = true → ∃ c : Chip, exec (.quietReplyRelease i) s = .next (s.settled c) ∧ c.late =
        s.chip.late.eraseIdx i ∧ (s.chip.late[i]?).all (fun l => match l.eff with | .spdm n q b => decide (c.tx = s.chip.tx ++ [.spdm n q b]) | _ => true)
        = true)

/-- SNAPSHOT_GET (R324). DENIED while Spindle keeps no snapshot is this model's choice (assumption 156). -/
def Says.snapshotGet : Prop :=
    (∀ (s : State) (n : Nat), ∃ c : Chip, exec (.snapshotGet n) s = .next (s.settled c) ∧ s.chip.Only ([Part.tx, Part.mem, Part.cores] ++ eventParts)
        ([F.MBS_STATUSn_OWNER, F.MBN_STATUSn_OWNER, mbsRegs, mbnRegs] ++ eventRegs) c) ∧
    (∀ (s : State) (n : Nat), s.chip.callReady n 0x0002 = true → s.chip.spdm.snap = none → ∃ c : Chip, exec (.snapshotGet n) s = .next (s.settled c)
        ∧ c.answered n .denied = true) ∧
    (∀ (s : State) (n : Nat), s.chip.callReady n 0x0002 = true → s.chip.spdm.snap.isSome = true → ∃ c : Chip, exec (.snapshotGet n) s = .next
        (s.settled c) ∧ c.answered n .ok = true ∧ c.spdm = s.chip.spdm)

/-- SIGN_REPORT (R332): the inline arguments carry generation and scope. -/
def Says.signReport : Prop :=
    (∀ (s : State) (n : Nat), ∃ c : Chip, exec (.signReport n) s = .next (s.settled c) ∧ s.chip.Only ([Part.tx, Part.mem, Part.cores, Part.spdm] ++
        eventParts) ([F.MBS_STATUSn_OWNER, F.MBN_STATUSn_OWNER, mbsRegs, mbnRegs] ++ eventRegs) c) ∧
    (∀ (s : State) (n : Nat), s.chip.callReady n 0x0010 = true → (s.chip.callAt n).any (fun k => (numAt k.args 4 1 == 255 || decide (numAt k.args 4 1
        < 16)) && (s.chip.snapOf (numAt k.args 0 4)).isNone) = true → ∃ c : Chip, exec (.signReport n) s = .next (s.settled c) ∧ c.answered n
        .staleEpoch = true ∧ c.spdm = s.chip.spdm) ∧
    (∀ (s : State) (n : Nat), s.chip.callReady n 0x0010 = true → s.chip.cores.pend = [] → (s.chip.callAt n).any (fun k => (numAt k.args 4 1 == 255 ||
        decide (numAt k.args 4 1 < 16)) && (s.chip.snapOf (numAt k.args 0 4)).any (fun p => s.chip.sigRoom (numAt k.args 4 1) && decide
        (s.chip.callInput n = p.payload (slice (s.chip.callInput n) 6 32) (numAt k.args 4 1)))) = true → ∃ c : Chip, exec (.signReport n) s = .next
        (s.settled c) ∧ c.answered n .pending = true ∧ c.spdm.queue.length = s.chip.spdm.queue.length + 1)

/-- SIGN_SPDM (R347): context (1 to 3), algorithm (0 ECDSA, 1 ML-DSA), six zero bytes, transcript hash (assumption 99). An instance without identity
signs nothing (R109; log entry 138). -/
def Says.signSpdm : Prop :=
    (∀ (s : State) (n : Nat), ∃ c : Chip, exec (.signSpdm n) s = .next (s.settled c) ∧ s.chip.Only ([Part.tx, Part.mem, Part.cores, Part.spdm] ++
        eventParts) ([F.MBS_STATUSn_OWNER, F.MBN_STATUSn_OWNER, mbsRegs, mbnRegs] ++ eventRegs) c) ∧
    (∀ (s : State) (n : Nat), s.chip.callReady n 0x0011 = true → s.chip.get F.GEN_BOOT_NO_ID = 1 → ∃ c : Chip, exec (.signSpdm n) s = .next
        (s.settled c) ∧ c.answered n .denied = true ∧ c.spdm = s.chip.spdm) ∧
    (∀ (s : State) (n : Nat), s.chip.callReady n 0x0011 = true → s.chip.get F.GEN_BOOT_NO_ID = 0 → s.chip.cores.pend = [] → s.chip.sigRoom 255 = true
        → (s.chip.callInput n).length = 56 → 1 ≤ numAt (s.chip.callInput n) 0 1 → numAt (s.chip.callInput n) 0 1 ≤ 3 → numAt (s.chip.callInput n) 1 1
        ≤ 1 → numAt (s.chip.callInput n) 2 6 = 0 → ∃ c : Chip, exec (.signSpdm n) s = .next (s.settled c) ∧ c.answered n .pending = true ∧
        c.spdm.queue.length = s.chip.spdm.queue.length + 1)

/-- SESSION_KEYS (R254, R522): session, crypto channel, key register, host channel, epoch; the sealed key's handle in the inline results (assumption
99). -/
def Says.sessionKeys : Prop :=
    (∀ (s : State) (n : Nat), ∃ c : Chip, exec (.sessionKeys n) s = .next (s.settled c) ∧ s.chip.Only ([Part.tx, Part.mem, Part.cores, Part.cry,
        Part.spdm] ++ eventParts) ([F.MBS_STATUSn_OWNER, F.MBN_STATUSn_OWNER, F.CRY_CHn_KEYS_REG, mbsRegs, mbnRegs] ++ eventRegs) c) ∧
    (∀ (s : State) (n : Nat), s.chip.callReady n 0x0012 = true → (s.chip.callAt n).any (fun k => (s.chip.sess? (numAt k.args 0 4)).isNone) = true → ∃
        c : Chip, exec (.sessionKeys n) s = .next (s.settled c) ∧ c.answered n .badArg = true ∧ c.spdm = s.chip.spdm) ∧
    (∀ (s : State) (n : Nat), s.chip.callReady n 0x0012 = true → (s.chip.callAt n).any (fun k => (s.chip.sess? (numAt k.args 0 4)).any (fun q =>
        q.est) && decide (numAt k.args 4 1 < 32) && s.chip.chOwner (numAt k.args 4 1) == 0xF0 + k.core && decide (numAt k.args 5 1 < 4) && decide
        (numAt k.args 6 2 < 4096)) = true → ∃ c : Chip, exec (.sessionKeys n) s = .next (s.settled c) ∧ c.answered n .ok = true ∧ (s.chip.callAt
        n).all (fun k => decide (tget? c.spdm.chan (numAt k.args 6 2) = some (numAt k.args 0 4))) = true)

/-- REPORT_SIGNED (R331, R332, R343): the report that is entry `k` of the queue. -/
def Says.reportSigned : Prop :=
    (∀ (s : State) (k : Nat), ∃ c : Chip, exec (.reportSigned k) s = .next (s.settled c) ∧ s.chip.Only ([Part.free, Part.tx, Part.mem, Part.cores,
        Part.cry, Part.spdm, Part.late] ++ eventParts) ([F.MBS_STATUSn_OWNER, F.MBN_STATUSn_OWNER, F.CRY_DRBG_STATUS_LAST, mbsRegs, mbnRegs] ++
        eventRegs) c) ∧
    (∀ (s : State) (k : Nat), s.chip.spdm.queue[k]? = none → ∃ c : Chip, exec (.reportSigned k) s = .next (s.settled c) ∧ c = s.chip) ∧
    (∀ (s : State) (k : Nat), s.chip.svcUp = true → (s.chip.spdm.queue[k]?).any (fun e => match e.2.2 with | .fetch _ _ _ _ _ _ => true | _ => false)
        = true → ∃ c : Chip, exec (.reportSigned k) s = .next (s.settled c) ∧ c.spdm.queue = s.chip.spdm.queue.eraseIdx k ∧ c.spdm.lastReport =
        s.chip.spdm.lastReport % (2 ^ 32 - 1) + 1)

/-- GET_VERSION (R336), and every request code no other row has. -/
def Says.getVersion : Prop :=
    (∀ (s : State) (m : SpdmMsg), ∃ c : Chip, exec (.getVersion m) s = .next (s.settled c) ∧ s.chip.Only ([Part.tx, Part.ring, Part.cores, Part.cust,
        Part.whl, Part.spdm, Part.hanks, Part.ply] ++ eventParts) ([F.WHL_Ln_STATE_RESULT, F.WHL_Ln_UNCONFIRMED_COUNT, F.MBS_STATUSn_OWNER,
        F.MBN_STATUSn_OWNER, F.BOB_JSEQ_LO_SEQ, F.BOB_JSEQ_HI_SEQ, F.BOB_LIMIT_SUM_COUNT, F.DST_CACHE_STAT_PINNED, mbsRegs, mbnRegs] ++ eventRegs) c)
        ∧
    (∀ (s : State) (m : SpdmMsg), s.chip.answers = true → numAt m.msg 1 1 = 0x84 → m.good = true → (s.chip.spdmBad m).isSome = true → m.conn / 256 ≠
        1 → ∃ c : Chip, exec (.getVersion m) s = .next (s.settled c) ∧ (s.chip.spdmBad m).all (fun e => decide (c.tx = s.chip.tx ++ [.spdm m.conn
        m.sess (spdmErrMsg e 0)])) = true) ∧
    (∀ (s : State) (m : SpdmMsg), s.chip.answers = true → numAt m.msg 1 1 = 0x84 → m.good = true → s.chip.spdmBad m = none → m.conn / 256 ≠ 1 → ∃ c :
        Chip, exec (.getVersion m) s = .next (s.settled c) ∧ c.tx = s.chip.tx ++ [.spdm m.conn m.sess (pack [(1, 0x10), (1, 0x04), (2, 0), (1, 0),
        (1, 1), (2, 0x1300)])] ∧ (c.conn m.conn).stage = 1)

/-- GET_CAPABILITIES (R337). -/
def Says.getCapabilities : Prop :=
    (∀ (s : State) (m : SpdmMsg), ∃ c : Chip, exec (.getCapabilities m) s = .next (s.settled c) ∧ s.chip.Only ([Part.tx, Part.ring, Part.cores,
        Part.cust, Part.whl, Part.spdm, Part.hanks, Part.ply] ++ eventParts) ([F.WHL_Ln_STATE_RESULT, F.WHL_Ln_UNCONFIRMED_COUNT,
        F.MBS_STATUSn_OWNER, F.MBN_STATUSn_OWNER, F.BOB_JSEQ_LO_SEQ, F.BOB_JSEQ_HI_SEQ, F.BOB_LIMIT_SUM_COUNT, F.DST_CACHE_STAT_PINNED, mbsRegs,
        mbnRegs] ++ eventRegs) c) ∧
    (∀ (s : State) (m : SpdmMsg), s.chip.answers = true → numAt m.msg 1 1 = 0xE1 → m.good = true → (s.chip.spdmBad m).isSome = true → m.conn / 256 ≠
        1 → ∃ c : Chip, exec (.getCapabilities m) s = .next (s.settled c) ∧ (s.chip.spdmBad m).all (fun e => decide (c.tx = s.chip.tx ++ [.spdm
        m.conn m.sess (spdmErrMsg e 0)])) = true) ∧
    (∀ (s : State) (m : SpdmMsg), s.chip.answers = true → numAt m.msg 1 1 = 0xE1 → m.good = true → s.chip.spdmBad m = none → m.conn / 256 ≠ 1 → 20 ≤
        m.msg.length → ∃ c : Chip, exec (.getCapabilities m) s = .next (s.settled c) ∧ c.tx = s.chip.tx ++ [.spdm m.conn m.sess (pack [(1, 0x13), (1,
        0x61), (2, 0), (1, 0), (1, 14), (2, 0), (4, spdmCaps), (4, 15360), (4, 15360)])] ∧ (c.conn m.conn).stage = 2)

/-- NEGOTIATE_ALGORITHMS (R337). -/
def Says.negotiateAlgorithms : Prop :=
    (∀ (s : State) (m : SpdmMsg), ∃ c : Chip, exec (.negotiateAlgorithms m) s = .next (s.settled c) ∧ s.chip.Only ([Part.tx, Part.ring, Part.cores,
        Part.cust, Part.whl, Part.spdm, Part.hanks, Part.ply] ++ eventParts) ([F.WHL_Ln_STATE_RESULT, F.WHL_Ln_UNCONFIRMED_COUNT,
        F.MBS_STATUSn_OWNER, F.MBN_STATUSn_OWNER, F.BOB_JSEQ_LO_SEQ, F.BOB_JSEQ_HI_SEQ, F.BOB_LIMIT_SUM_COUNT, F.DST_CACHE_STAT_PINNED, mbsRegs,
        mbnRegs] ++ eventRegs) c) ∧
    (∀ (s : State) (m : SpdmMsg), s.chip.answers = true → numAt m.msg 1 1 = 0xE3 → m.good = true → (s.chip.spdmBad m).isSome = true → m.conn / 256 ≠
        1 → ∃ c : Chip, exec (.negotiateAlgorithms m) s = .next (s.settled c) ∧ (s.chip.spdmBad m).all (fun e => decide (c.tx = s.chip.tx ++ [.spdm
        m.conn m.sess (spdmErrMsg e 0)])) = true) ∧
    (∀ (s : State) (m : SpdmMsg), s.chip.answers = true → numAt m.msg 1 1 = 0xE3 → m.good = true → s.chip.spdmBad m = none → m.conn / 256 ≠ 1 →
        algsOffered m.msg = true → ∃ c : Chip, exec (.negotiateAlgorithms m) s = .next (s.settled c) ∧ c.tx = s.chip.tx ++ [.spdm m.conn m.sess (pack
        [(1, 0x13), (1, 0x63), (1, 4), (1, 0), (2, 52), (1, 1), (1, 2), (4, 0x20), (4, 0x80), (4, 2), (11, 0), (1, 0), (1, 0), (1, 0), (2, 0), (1,
        2), (1, 0x20), (2, 0x10), (1, 3), (1, 0x20), (2, 2), (1, 4), (1, 0x20), (2, 0), (1, 5), (1, 0x20), (2, 1)])] ∧ (c.conn m.conn).stage = 3)

/-- GET_DIGESTS (R322, R338). -/
def Says.getDigests : Prop :=
    (∀ (s : State) (m : SpdmMsg), ∃ c : Chip, exec (.getDigests m) s = .next (s.settled c) ∧ s.chip.Only ([Part.tx, Part.ring, Part.cores, Part.cust,
        Part.whl, Part.spdm, Part.hanks, Part.ply] ++ eventParts) ([F.WHL_Ln_STATE_RESULT, F.WHL_Ln_UNCONFIRMED_COUNT, F.MBS_STATUSn_OWNER,
        F.MBN_STATUSn_OWNER, F.BOB_JSEQ_LO_SEQ, F.BOB_JSEQ_HI_SEQ, F.BOB_LIMIT_SUM_COUNT, F.DST_CACHE_STAT_PINNED, mbsRegs, mbnRegs] ++ eventRegs) c)
        ∧
    (∀ (s : State) (m : SpdmMsg), s.chip.answers = true → numAt m.msg 1 1 = 0x81 → m.good = true → (s.chip.spdmBad m).isSome = true → m.conn / 256 ≠
        1 → ∃ c : Chip, exec (.getDigests m) s = .next (s.settled c) ∧ (s.chip.spdmBad m).all (fun e => decide (c.tx = s.chip.tx ++ [.spdm m.conn
        m.sess (spdmErrMsg e 0)])) = true) ∧
    (∀ (s : State) (m : SpdmMsg), s.chip.answers = true → numAt m.msg 1 1 = 0x81 → m.good = true → s.chip.spdmBad m = none → m.conn / 256 ≠ 1 → ∃ c :
        Chip, exec (.getDigests m) s = .next (s.settled c) ∧ (match s.chip.chainCerts 4 with | some l => c.tx = s.chip.tx ++ [.spdm m.conn m.sess (pack [(1, 0x13), (1, 0x01), (1, 1), (1, 1)] ++ padTo 48 (Config.sha384 (spdmChain l)))] | none => c.tx = s.chip.tx ++ [.spdm m.conn m.sess (spdmErrMsg 0x05 0)]))

/-- GET_CERTIFICATE (R322, R338). -/
def Says.getCertificate : Prop :=
    (∀ (s : State) (m : SpdmMsg), ∃ c : Chip, exec (.getCertificate m) s = .next (s.settled c) ∧ s.chip.Only ([Part.tx, Part.ring, Part.cores,
        Part.cust, Part.whl, Part.spdm, Part.hanks, Part.ply] ++ eventParts) ([F.WHL_Ln_STATE_RESULT, F.WHL_Ln_UNCONFIRMED_COUNT,
        F.MBS_STATUSn_OWNER, F.MBN_STATUSn_OWNER, F.BOB_JSEQ_LO_SEQ, F.BOB_JSEQ_HI_SEQ, F.BOB_LIMIT_SUM_COUNT, F.DST_CACHE_STAT_PINNED, mbsRegs,
        mbnRegs] ++ eventRegs) c) ∧
    (∀ (s : State) (m : SpdmMsg), s.chip.answers = true → numAt m.msg 1 1 = 0x82 → m.good = true → (s.chip.spdmBad m).isSome = true → m.conn / 256 ≠
        1 → ∃ c : Chip, exec (.getCertificate m) s = .next (s.settled c) ∧ (s.chip.spdmBad m).all (fun e => decide (c.tx = s.chip.tx ++ [.spdm m.conn
        m.sess (spdmErrMsg e 0)])) = true) ∧
    (∀ (s : State) (m : SpdmMsg), s.chip.answers = true → numAt m.msg 1 1 = 0x82 → m.good = true → s.chip.spdmBad m = none → m.conn / 256 ≠ 1 → 8 ≤
        m.msg.length → numAt m.msg 2 1 % 16 = 0 → ∃ c : Chip, exec (.getCertificate m) s = .next (s.settled c) ∧
        (match s.chip.chainCerts 4 with | some l => c.tx.length = s.chip.tx.length + 1 ∧ (numAt m.msg 4 2 < (spdmChain l).length → c.tx = s.chip.tx ++ [.spdm m.conn m.sess (pack [(1, 0x13), (1, 0x02), (1, 0), (1, 0), (2, (((spdmChain l).drop (numAt m.msg 4 2)).take (min 15000 (numAt m.msg 6 2))).length), (2, (spdmChain l).length - numAt m.msg 4 2 - (((spdmChain l).drop (numAt m.msg 4 2)).take (min 15000 (numAt m.msg 6 2))).length)] ++ ((spdmChain l).drop (numAt m.msg 4 2)).take (min 15000 (numAt m.msg 6 2)))]) | none => c.tx = s.chip.tx ++ [.spdm m.conn m.sess (spdmErrMsg 0x05 0)]))

/-- CHALLENGE (R338, R347). -/
def Says.challenge : Prop :=
    (∀ (s : State) (m : SpdmMsg), ∃ c : Chip, exec (.challenge m) s = .next (s.settled c) ∧ s.chip.Only ([Part.free, Part.tx, Part.ring, Part.cores,
        Part.cust, Part.whl, Part.cry, Part.spdm, Part.hanks, Part.ply] ++ eventParts) ([F.WHL_Ln_STATE_RESULT, F.WHL_Ln_UNCONFIRMED_COUNT,
        F.MBS_STATUSn_OWNER, F.MBN_STATUSn_OWNER, F.BOB_JSEQ_LO_SEQ, F.BOB_JSEQ_HI_SEQ, F.BOB_LIMIT_SUM_COUNT, F.DST_CACHE_STAT_PINNED,
        F.CRY_DRBG_STATUS_LAST, mbsRegs, mbnRegs] ++ eventRegs) c) ∧
    (∀ (s : State) (m : SpdmMsg), s.chip.answers = true → numAt m.msg 1 1 = 0x83 → m.good = true → (s.chip.spdmBad m).isSome = true → m.conn / 256 ≠
        1 → ∃ c : Chip, exec (.challenge m) s = .next (s.settled c) ∧ (s.chip.spdmBad m).all (fun e => decide (c.tx = s.chip.tx ++ [.spdm m.conn
        m.sess (spdmErrMsg e 0)])) = true) ∧
    (∀ (s : State) (m : SpdmMsg), s.chip.answers = true → numAt m.msg 1 1 = 0x83 → m.good = true → s.chip.spdmBad m = none → m.conn / 256 ≠ 1 → 44 ≤
        m.msg.length → numAt m.msg 2 1 % 16 = 0 → summaryOk (numAt m.msg 3 1) = true → s.chip.sigRoom 255 = true → ∃ c : Chip, exec (.challenge m) s
        = .next (s.settled c) ∧ (match s.chip.chainCerts 4 with | some _ => c.spdm.queue.length = s.chip.spdm.queue.length + 1 | none => c.tx = s.chip.tx ++ [.spdm m.conn m.sess (spdmErrMsg 0x05 0)]))

/-- GET_MEASUREMENTS (R326, R338): the number of blocks, all of them, or one. -/
def Says.getMeasurements : Prop :=
    (∀ (s : State) (m : SpdmMsg), ∃ c : Chip, exec (.getMeasurements m) s = .next (s.settled c) ∧ s.chip.Only ([Part.free, Part.tx, Part.ring,
        Part.cores, Part.cust, Part.whl, Part.cry, Part.spdm, Part.hanks, Part.ply] ++ eventParts) ([F.WHL_Ln_STATE_RESULT,
        F.WHL_Ln_UNCONFIRMED_COUNT, F.MBS_STATUSn_OWNER, F.MBN_STATUSn_OWNER, F.BOB_JSEQ_LO_SEQ, F.BOB_JSEQ_HI_SEQ, F.BOB_LIMIT_SUM_COUNT,
        F.DST_CACHE_STAT_PINNED, F.CRY_DRBG_STATUS_LAST, mbsRegs, mbnRegs] ++ eventRegs) c) ∧
    (∀ (s : State) (m : SpdmMsg), s.chip.answers = true → numAt m.msg 1 1 = 0xE0 → m.good = true → (s.chip.spdmBad m).isSome = true → m.conn / 256 ≠
        1 → ∃ c : Chip, exec (.getMeasurements m) s = .next (s.settled c) ∧ (s.chip.spdmBad m).all (fun e => decide (c.tx = s.chip.tx ++ [.spdm
        m.conn m.sess (spdmErrMsg e 0)])) = true) ∧
    (∀ (s : State) (m : SpdmMsg), s.chip.answers = true → numAt m.msg 1 1 = 0xE0 → m.good = true → s.chip.spdmBad m = none → m.conn / 256 ≠ 1 → numAt
        m.msg 2 1 = 0 → numAt m.msg 3 1 = 0 → 12 ≤ m.msg.length → ∃ c : Chip, exec (.getMeasurements m) s = .next (s.settled c) ∧ c.tx.length =
        s.chip.tx.length + 1 ∧ c.spdm.queue = s.chip.spdm.queue ∧ (tget (c.conn m.conn).l1 (m.sess.getD 0) []).take m.msg.length = (tget (s.chip.conn
        m.conn).l1 (m.sess.getD 0) [] ++ m.msg).take m.msg.length)

/-- KEY_EXCHANGE (R338, R339, R346). -/
def Says.keyExchange : Prop :=
    (∀ (s : State) (m : SpdmMsg), ∃ c : Chip, exec (.keyExchange m) s = .next (s.settled c) ∧ s.chip.Only ([Part.free, Part.tx, Part.ring,
        Part.cores, Part.cust, Part.whl, Part.cry, Part.spdm, Part.hanks, Part.ply] ++ eventParts) ([F.WHL_Ln_STATE_RESULT,
        F.WHL_Ln_UNCONFIRMED_COUNT, F.MBS_STATUSn_OWNER, F.MBN_STATUSn_OWNER, F.BOB_JSEQ_LO_SEQ, F.BOB_JSEQ_HI_SEQ, F.BOB_LIMIT_SUM_COUNT,
        F.DST_CACHE_STAT_PINNED, F.CRY_DRBG_STATUS_LAST, mbsRegs, mbnRegs] ++ eventRegs) c) ∧
    (∀ (s : State) (m : SpdmMsg), s.chip.answers = true → numAt m.msg 1 1 = 0xE4 → m.good = true → (s.chip.spdmBad m).isSome = true → m.conn / 256 ≠
        1 → ∃ c : Chip, exec (.keyExchange m) s = .next (s.settled c) ∧ (s.chip.spdmBad m).all (fun e => decide (c.tx = s.chip.tx ++ [.spdm m.conn
        m.sess (spdmErrMsg e 0)])) = true) ∧
    (∀ (s : State) (m : SpdmMsg), s.chip.answers = true → numAt m.msg 1 1 = 0xE4 → m.good = true → s.chip.spdmBad m = none → m.conn / 256 ≠ 1 → 138 ≤
        m.msg.length → numAt m.msg 136 2 = 0 → numAt m.msg 3 1 % 16 = 0 → summaryOk (numAt m.msg 2 1) = true → s.chip.ownSess.length < 32 →
        s.chip.sigRoom 255 = true → ∃ c : Chip, exec (.keyExchange m) s = .next (s.settled c) ∧ (Config.ecPointOk (le 1 4 ++ slice m.msg 40 96) =
        false → c.tx = s.chip.tx ++ [.spdm m.conn m.sess (spdmErrMsg 0x01 0)]) ∧ (Config.ecPointOk (le 1 4 ++ slice m.msg 40 96) = true →
        (match s.chip.chainCerts 4 with | some _ => c.spdm.lastSess = s.chip.spdm.lastSess % 32767 + 1 ∧ c.spdm.queue.length = s.chip.spdm.queue.length + 1 | none => c.tx = s.chip.tx ++ [.spdm m.conn m.sess (spdmErrMsg 0x05 0)])))

/-- FINISH (R339, R340): the requester's HMAC is checked; the response waits for the mirror. -/
def Says.finish : Prop :=
    (∀ (s : State) (m : SpdmMsg), ∃ c : Chip, exec (.finish m) s = .next (s.settled c) ∧ s.chip.Only ([Part.tx, Part.ring, Part.cores, Part.cust,
        Part.whl, Part.spdm, Part.hanks, Part.ply] ++ eventParts) ([F.WHL_Ln_STATE_RESULT, F.WHL_Ln_UNCONFIRMED_COUNT, F.PLY_MSEQ_LO_SEQ,
        F.PLY_MSEQ_HI_SEQ, F.MBS_STATUSn_OWNER, F.MBN_STATUSn_OWNER, F.BOB_JSEQ_LO_SEQ, F.BOB_JSEQ_HI_SEQ, F.BOB_LIMIT_SUM_COUNT,
        F.DST_CACHE_STAT_PINNED, mbsRegs, mbnRegs] ++ eventRegs) c) ∧
    (∀ (s : State) (m : SpdmMsg), s.chip.answers = true → numAt m.msg 1 1 = 0xE5 → m.good = true → (s.chip.spdmBad m).isSome = true → m.conn / 256 ≠
        1 → ∃ c : Chip, exec (.finish m) s = .next (s.settled c) ∧ (s.chip.spdmBad m).all (fun e => decide (c.tx = s.chip.tx ++ [.spdm m.conn m.sess
        (spdmErrMsg e 0)])) = true) ∧
    (∀ (s : State) (m : SpdmMsg), s.chip.answers = true → numAt m.msg 1 1 = 0xE5 → m.good = true → s.chip.spdmBad m = none → m.conn / 256 ≠ 1 →
        m.msg.length = 52 → bit (numAt m.msg 2 1) 0 = false → ∃ c : Chip, exec (.finish m) s = .next (s.settled c) ∧
        (match m.sess.bind s.chip.sess? with | some q => (if slice m.msg 4 48 = padTo 48 (Config.spdmMac q.shared (q.th ++ m.msg.take 4) 0) then (m.sess.bind c.sess?).any (fun q => q.est) = true else m.sess.bind c.sess? = none) | none => True))

/-- HEARTBEAT (R339). -/
def Says.heartbeat : Prop :=
    (∀ (s : State) (m : SpdmMsg), ∃ c : Chip, exec (.heartbeat m) s = .next (s.settled c) ∧ s.chip.Only ([Part.tx, Part.ring, Part.cores, Part.cust,
        Part.whl, Part.spdm, Part.hanks, Part.ply] ++ eventParts) ([F.WHL_Ln_STATE_RESULT, F.WHL_Ln_UNCONFIRMED_COUNT, F.MBS_STATUSn_OWNER,
        F.MBN_STATUSn_OWNER, F.BOB_JSEQ_LO_SEQ, F.BOB_JSEQ_HI_SEQ, F.BOB_LIMIT_SUM_COUNT, F.DST_CACHE_STAT_PINNED, mbsRegs, mbnRegs] ++ eventRegs) c)
        ∧
    (∀ (s : State) (m : SpdmMsg), s.chip.answers = true → numAt m.msg 1 1 = 0xE8 → m.good = true → (s.chip.spdmBad m).isSome = true → m.conn / 256 ≠
        1 → ∃ c : Chip, exec (.heartbeat m) s = .next (s.settled c) ∧ (s.chip.spdmBad m).all (fun e => decide (c.tx = s.chip.tx ++ [.spdm m.conn
        m.sess (spdmErrMsg e 0)])) = true) ∧
    (∀ (s : State) (m : SpdmMsg), s.chip.answers = true → numAt m.msg 1 1 = 0xE8 → m.good = true → s.chip.spdmBad m = none → m.conn / 256 ≠ 1 → ∃ c :
        Chip, exec (.heartbeat m) s = .next (s.settled c) ∧ c.tx = s.chip.tx ++ [.spdm m.conn m.sess (pack [(1, 0x13), (1, 0x68), (2, 0)])])

/-- KEY_UPDATE (R338). -/
def Says.keyUpdate : Prop :=
    (∀ (s : State) (m : SpdmMsg), ∃ c : Chip, exec (.keyUpdate m) s = .next (s.settled c) ∧ s.chip.Only ([Part.tx, Part.ring, Part.cores, Part.cust,
        Part.whl, Part.spdm, Part.hanks, Part.ply] ++ eventParts) ([F.WHL_Ln_STATE_RESULT, F.WHL_Ln_UNCONFIRMED_COUNT, F.MBS_STATUSn_OWNER,
        F.MBN_STATUSn_OWNER, F.BOB_JSEQ_LO_SEQ, F.BOB_JSEQ_HI_SEQ, F.BOB_LIMIT_SUM_COUNT, F.DST_CACHE_STAT_PINNED, mbsRegs, mbnRegs] ++ eventRegs) c)
        ∧
    (∀ (s : State) (m : SpdmMsg), s.chip.answers = true → numAt m.msg 1 1 = 0xE9 → m.good = true → (s.chip.spdmBad m).isSome = true → m.conn / 256 ≠
        1 → ∃ c : Chip, exec (.keyUpdate m) s = .next (s.settled c) ∧ (s.chip.spdmBad m).all (fun e => decide (c.tx = s.chip.tx ++ [.spdm m.conn
        m.sess (spdmErrMsg e 0)])) = true) ∧
    (∀ (s : State) (m : SpdmMsg), s.chip.answers = true → numAt m.msg 1 1 = 0xE9 → m.good = true → s.chip.spdmBad m = none → m.conn / 256 ≠ 1 → 1 ≤
        numAt m.msg 2 1 → numAt m.msg 2 1 ≤ 3 → ∃ c : Chip, exec (.keyUpdate m) s = .next (s.settled c) ∧ c.tx = s.chip.tx ++ [.spdm m.conn m.sess
        (pack [(1, 0x13), (1, 0x69), (1, numAt m.msg 2 1), (1, numAt m.msg 3 1)])])

/-- END_SESSION (R339): the session and its HOST Bobbins end before the answer. -/
def Says.endSession : Prop :=
    (∀ (s : State) (m : SpdmMsg), ∃ c : Chip, exec (.endSession m) s = .next (s.settled c) ∧ s.chip.Only ([Part.tx, Part.ring, Part.cores, Part.cust,
        Part.whl, Part.spdm, Part.hanks, Part.ply] ++ eventParts) ([F.WHL_Ln_STATE_RESULT, F.WHL_Ln_UNCONFIRMED_COUNT, F.MBS_STATUSn_OWNER,
        F.MBN_STATUSn_OWNER, F.BOB_JSEQ_LO_SEQ, F.BOB_JSEQ_HI_SEQ, F.BOB_LIMIT_SUM_COUNT, F.DST_CACHE_STAT_PINNED, mbsRegs, mbnRegs] ++ eventRegs) c)
        ∧
    (∀ (s : State) (m : SpdmMsg), s.chip.answers = true → numAt m.msg 1 1 = 0xEC → m.good = true → (s.chip.spdmBad m).isSome = true → m.conn / 256 ≠
        1 → ∃ c : Chip, exec (.endSession m) s = .next (s.settled c) ∧ (s.chip.spdmBad m).all (fun e => decide (c.tx = s.chip.tx ++ [.spdm m.conn
        m.sess (spdmErrMsg e 0)])) = true) ∧
    (∀ (s : State) (m : SpdmMsg), s.chip.answers = true → numAt m.msg 1 1 = 0xEC → m.good = true → s.chip.spdmBad m = none → m.conn / 256 ≠ 1 → ∃ c :
        Chip, exec (.endSession m) s = .next (s.settled c) ∧ (m.sess.bind c.sess?) = none ∧ m.sess.isSome = true)

/-- SESSION_EXPIRE (R339): 8 s without a message in the session. -/
def Says.sessionExpire : Prop :=
    (∀ (s : State) (id : Nat), ∃ c : Chip, exec (.sessionExpire id) s = .next (s.settled c) ∧ s.chip.Only ([Part.tx, Part.ring, Part.cust, Part.whl,
        Part.spdm, Part.hanks, Part.ply] ++ eventParts) ([F.WHL_Ln_STATE_RESULT, F.WHL_Ln_UNCONFIRMED_COUNT, F.BOB_JSEQ_LO_SEQ, F.BOB_JSEQ_HI_SEQ,
        F.BOB_LIMIT_SUM_COUNT, F.DST_CACHE_STAT_PINNED] ++ eventRegs) c) ∧
    (∀ (s : State) (id : Nat), (s.chip.sess? id).all (fun q => decide (s.chip.slot < q.last + 7812500)) = true → ∃ c : Chip, exec (.sessionExpire id)
        s = .next (s.settled c) ∧ c = s.chip) ∧
    (∀ (s : State) (id : Nat), s.chip.svcUp = true → (s.chip.sess? id).any (fun q => q.conn != connMirror && decide (q.last + 7812500 ≤ s.chip.slot))
        = true → ∃ c : Chip, exec (.sessionExpire id) s = .next (s.settled c) ∧ c.sess? id = none)

/-- ORPHAN_SESSION_EXPIRE (R340). -/
def Says.orphanSessionExpire : Prop :=
    (∀ (s : State) (id : Nat), ∃ c : Chip, exec (.orphanSessionExpire id) s = .next (s.settled c) ∧ s.chip.Only ([Part.tx, Part.ring, Part.cust,
        Part.whl, Part.spdm, Part.hanks, Part.ply] ++ eventParts) ([F.WHL_Ln_STATE_RESULT, F.WHL_Ln_UNCONFIRMED_COUNT, F.BOB_JSEQ_LO_SEQ,
        F.BOB_JSEQ_HI_SEQ, F.BOB_LIMIT_SUM_COUNT, F.DST_CACHE_STAT_PINNED] ++ eventRegs) c) ∧
    (∀ (s : State) (id : Nat), (s.chip.sess? id).all (fun q => q.orphan.isNone) = true → ∃ c : Chip, exec (.orphanSessionExpire id) s = .next
        (s.settled c) ∧ c = s.chip) ∧
    (∀ (s : State) (id : Nat), s.chip.svcUp = true → (s.chip.sess? id).any (fun q => q.orphan.any (fun t => decide (t + 1048576 ≤ s.chip.slot))) =
        true → ∃ c : Chip, exec (.orphanSessionExpire id) s = .next (s.settled c) ∧ c.sess? id = none)

/-- GET_CHAIN (R322, R342, R343); an unknown opcode is answered BAD_ARG. -/
def Says.getChain : Prop :=
    (∀ (s : State) (m : SpdmMsg), ∃ c : Chip, exec (.getChain m) s = .next (s.settled c) ∧ s.chip.Only ([Part.tx, Part.ring, Part.cores, Part.cust,
        Part.whl, Part.spdm, Part.hanks, Part.ply] ++ eventParts) ([F.WHL_Ln_STATE_RESULT, F.WHL_Ln_UNCONFIRMED_COUNT, F.MBS_STATUSn_OWNER,
        F.MBN_STATUSn_OWNER, F.BOB_JSEQ_LO_SEQ, F.BOB_JSEQ_HI_SEQ, F.BOB_LIMIT_SUM_COUNT, F.DST_CACHE_STAT_PINNED, mbsRegs, mbnRegs] ++ eventRegs) c)
        ∧
    (∀ (s : State) (m : SpdmMsg), s.chip.answers = true → numAt m.msg 1 1 = 0xFE → m.good = true → s.chip.spdmBad m = none → m.conn / 256 ≠ 1 →
        vendorOk m.msg = true → numAt m.msg 15 2 = 0 → vendorOp m.msg = 0x01 → (vendorBody m.msg).length ≠ 7 → ∃ c : Chip, exec (.getChain m) s =
        .next (s.settled c) ∧ c.tx = s.chip.tx ++ [.spdm m.conn m.sess (vendorMsg 0x01 .badArg [])]) ∧
    (∀ (s : State) (m : SpdmMsg), s.chip.answers = true → numAt m.msg 1 1 = 0xFE → m.good = true → s.chip.spdmBad m = none → m.conn / 256 ≠ 1 →
        vendorOk m.msg = true → numAt m.msg 15 2 = 0 → vendorOp m.msg = 0x01 → (vendorBody m.msg).length = 7 → numAt (vendorBody m.msg) 0 1 = 3 →
        numAt (vendorBody m.msg) 1 4 ≤ s.chip.boot.clamp.length → ∃ c : Chip, exec (.getChain m) s = .next (s.settled c) ∧ c.tx = s.chip.tx ++ [.spdm
        m.conn m.sess (vendorMsg 0x01 .ok (le 4 s.chip.boot.clamp.length ++ (s.chip.boot.clamp.drop (numAt (vendorBody m.msg) 1 4)).take (min 14996
        (numAt (vendorBody m.msg) 5 2))))])

/-- HYBRID_SIG (R345). -/
def Says.hybridSig : Prop :=
    (∀ (s : State) (m : SpdmMsg), ∃ c : Chip, exec (.hybridSig m) s = .next (s.settled c) ∧ s.chip.Only ([Part.tx, Part.ring, Part.cores, Part.cust,
        Part.whl, Part.spdm, Part.hanks, Part.ply] ++ eventParts) ([F.WHL_Ln_STATE_RESULT, F.WHL_Ln_UNCONFIRMED_COUNT, F.MBS_STATUSn_OWNER,
        F.MBN_STATUSn_OWNER, F.BOB_JSEQ_LO_SEQ, F.BOB_JSEQ_HI_SEQ, F.BOB_LIMIT_SUM_COUNT, F.DST_CACHE_STAT_PINNED, mbsRegs, mbnRegs] ++ eventRegs) c)
        ∧
    (∀ (s : State) (m : SpdmMsg), s.chip.answers = true → numAt m.msg 1 1 = 0xFE → m.good = true → s.chip.spdmBad m = none → m.conn / 256 ≠ 1 →
        vendorOk m.msg = true → numAt m.msg 15 2 = 0 → vendorOp m.msg = 0x10 → (vendorBody m.msg).length ≠ 1 → ∃ c : Chip, exec (.hybridSig m) s =
        .next (s.settled c) ∧ c.tx = s.chip.tx ++ [.spdm m.conn m.sess (vendorMsg 0x10 .badArg [])]) ∧
    (∀ (s : State) (m : SpdmMsg), s.chip.answers = true → numAt m.msg 1 1 = 0xFE → m.good = true → s.chip.spdmBad m = none → m.conn / 256 ≠ 1 →
        vendorOk m.msg = true → numAt m.msg 15 2 = 0 → vendorOp m.msg = 0x10 → (vendorBody m.msg).length = 1 → numAt (vendorBody m.msg) 0 1 ≠ 3 →
        (s.chip.conn m.conn).last.any (fun l => l.1 == numAt (vendorBody m.msg) 0 1) = true → s.chip.sigRoom 255 = true → ∃ c : Chip, exec
        (.hybridSig m) s = .next (s.settled c) ∧ (s.chip.conn m.conn).last.all (fun l => decide (c.spdm.queue = s.chip.spdm.queue ++ [(s.chip.slot,
        255, .hybrid m.conn m.sess l.2)])) = true)

/-- KEM_OFFER (R346). -/
def Says.kemOffer : Prop :=
    (∀ (s : State) (m : SpdmMsg), ∃ c : Chip, exec (.kemOffer m) s = .next (s.settled c) ∧ s.chip.Only ([Part.free, Part.tx, Part.ring, Part.cores,
        Part.cust, Part.whl, Part.cry, Part.spdm, Part.hanks, Part.ply] ++ eventParts) ([F.WHL_Ln_STATE_RESULT, F.WHL_Ln_UNCONFIRMED_COUNT,
        F.MBS_STATUSn_OWNER, F.MBN_STATUSn_OWNER, F.BOB_JSEQ_LO_SEQ, F.BOB_JSEQ_HI_SEQ, F.BOB_LIMIT_SUM_COUNT, F.DST_CACHE_STAT_PINNED,
        F.CRY_DRBG_STATUS_LAST, mbsRegs, mbnRegs] ++ eventRegs) c) ∧
    (∀ (s : State) (m : SpdmMsg), s.chip.answers = true → numAt m.msg 1 1 = 0xFE → m.good = true → s.chip.spdmBad m = none → m.conn / 256 ≠ 1 →
        vendorOk m.msg = true → numAt m.msg 15 2 = 0 → vendorOp m.msg = 0x20 → (vendorBody m.msg).length ≠ 1568 → ∃ c : Chip, exec (.kemOffer m) s =
        .next (s.settled c) ∧ c.tx = s.chip.tx ++ [.spdm m.conn m.sess (vendorMsg 0x20 .badArg [])]) ∧
    (∀ (s : State) (m : SpdmMsg), s.chip.answers = true → numAt m.msg 1 1 = 0xFE → m.good = true → s.chip.spdmBad m = none → m.conn / 256 ≠ 1 →
        vendorOk m.msg = true → numAt m.msg 15 2 = 0 → vendorOp m.msg = 0x20 → (vendorBody m.msg).length = 1568 → ∃ c : Chip, exec (.kemOffer m) s =
        .next (s.settled c) ∧ c.spdm.lastKem = (s.chip.spdm.lastKem + 1) % 2 ^ 32 ∧ c.tx.length = s.chip.tx.length + 1)

/-- GET_REPORT (R332, R343, R413): a new report, or a portion of one kept. BAD_ARG for a hank that does not exist is this model's choice (assumption
157). -/
def Says.getReport : Prop :=
    (∀ (s : State) (m : SpdmMsg), ∃ c : Chip, exec (.getReport m) s = .next (s.settled c) ∧ s.chip.Only ([Part.tx, Part.ring, Part.cores, Part.cust,
        Part.whl, Part.spdm, Part.hanks, Part.ply, Part.late] ++ eventParts) ([F.WHL_Ln_STATE_RESULT, F.WHL_Ln_UNCONFIRMED_COUNT,
        F.MBS_STATUSn_OWNER, F.MBN_STATUSn_OWNER, F.BOB_JSEQ_LO_SEQ, F.BOB_JSEQ_HI_SEQ, F.BOB_LIMIT_SUM_COUNT, F.DST_CACHE_STAT_PINNED, mbsRegs,
        mbnRegs] ++ eventRegs) c) ∧
    (∀ (s : State) (m : SpdmMsg), s.chip.answers = true → numAt m.msg 1 1 = 0xFE → m.good = true → s.chip.spdmBad m = none → m.conn / 256 ≠ 1 →
        vendorOk m.msg = true → numAt m.msg 15 2 = 0 → vendorOp m.msg = 0x30 → (vendorBody m.msg).length ≠ 41 → ∃ c : Chip, exec (.getReport m) s =
        .next (s.settled c) ∧ c.tx = s.chip.tx ++ [.spdm m.conn m.sess (vendorMsg 0x30 .badArg [])]) ∧
    (∀ (s : State) (m : SpdmMsg), s.chip.answers = true → numAt m.msg 1 1 = 0xFE → m.good = true → s.chip.spdmBad m = none → m.conn / 256 ≠ 1 →
        vendorOk m.msg = true → numAt m.msg 15 2 = 0 → vendorOp m.msg = 0x30 → (vendorBody m.msg).length = 41 → numAt (vendorBody m.msg) 32 1 = 255 →
        numAt (vendorBody m.msg) 33 4 = 0 → s.chip.spdm.snap.isSome = true → s.chip.sigRoom 255 = true → ∃ c : Chip, exec (.getReport m) s = .next
        (s.settled c) ∧ c.spdm.queue.length = s.chip.spdm.queue.length + 1 ∧ c.tx = s.chip.tx)

/-- GET_RECEIPT (R376, R377, R413). -/
def Says.getReceipt : Prop :=
    (∀ (s : State) (m : SpdmMsg), ∃ c : Chip, exec (.getReceipt m) s = .next (s.settled c) ∧ s.chip.Only ([Part.free, Part.tx, Part.ring, Part.cores,
        Part.cust, Part.whl, Part.cry, Part.spdm, Part.hanks, Part.ply, Part.late] ++ eventParts) ([F.WHL_Ln_STATE_RESULT,
        F.WHL_Ln_UNCONFIRMED_COUNT, F.MBS_STATUSn_OWNER, F.MBN_STATUSn_OWNER, F.BOB_JSEQ_LO_SEQ, F.BOB_JSEQ_HI_SEQ, F.BOB_LIMIT_SUM_COUNT,
        F.DST_CACHE_STAT_PINNED, F.CRY_DRBG_STATUS_LAST, mbsRegs, mbnRegs] ++ eventRegs) c) ∧
    (∀ (s : State) (m : SpdmMsg), s.chip.answers = true → numAt m.msg 1 1 = 0xFE → m.good = true → s.chip.spdmBad m = none → m.conn / 256 ≠ 1 →
        vendorOk m.msg = true → numAt m.msg 15 2 = 0 → vendorOp m.msg = 0x50 → (vendorBody m.msg).length ≠ 9 → ∃ c : Chip, exec (.getReceipt m) s =
        .next (s.settled c) ∧ c.tx = s.chip.tx ++ [.spdm m.conn m.sess (vendorMsg 0x50 .badArg [])]) ∧
    (∀ (s : State) (m : SpdmMsg), s.chip.answers = true → numAt m.msg 1 1 = 0xFE → m.good = true → s.chip.spdmBad m = none → m.conn / 256 ≠ 1 →
        vendorOk m.msg = true → numAt m.msg 15 2 = 0 → vendorOp m.msg = 0x50 → (vendorBody m.msg).length = 9 → s.chip.hank? (numAt (vendorBody m.msg)
        0 1) = none → s.chip.hanks.tab = [] → ∃ c : Chip, exec (.getReceipt m) s = .next (s.settled c) ∧ c.tx = s.chip.tx ++ [.spdm m.conn m.sess
        (vendorMsg 0x50 .badArg [])]) ∧
    (∀ (s : State) (m : SpdmMsg), s.chip.answers = true → numAt m.msg 1 1 = 0xFE → m.good = true → s.chip.spdmBad m = none → m.conn / 256 ≠ 1 →
        vendorOk m.msg = true → numAt m.msg 15 2 = 0 → vendorOp m.msg = 0x50 → (vendorBody m.msg).length = 9 → (s.chip.hank? (numAt (vendorBody
        m.msg) 0 1)).isSome = true → s.chip.quietHanks = [] → ∃ c : Chip, exec (.getReceipt m) s = .next (s.settled c) ∧ c.tx.length =
        s.chip.tx.length + 1)

/-- GET_TWIST_HEAD (R377, R413). -/
def Says.getTwistHead : Prop :=
    (∀ (s : State) (m : SpdmMsg), ∃ c : Chip, exec (.getTwistHead m) s = .next (s.settled c) ∧ s.chip.Only ([Part.tx, Part.ring, Part.cores,
        Part.cust, Part.whl, Part.spdm, Part.hanks, Part.ply, Part.late] ++ eventParts) ([F.WHL_Ln_STATE_RESULT, F.WHL_Ln_UNCONFIRMED_COUNT,
        F.MBS_STATUSn_OWNER, F.MBN_STATUSn_OWNER, F.BOB_JSEQ_LO_SEQ, F.BOB_JSEQ_HI_SEQ, F.BOB_LIMIT_SUM_COUNT, F.DST_CACHE_STAT_PINNED, mbsRegs,
        mbnRegs] ++ eventRegs) c) ∧
    (∀ (s : State) (m : SpdmMsg), s.chip.answers = true → numAt m.msg 1 1 = 0xFE → m.good = true → s.chip.spdmBad m = none → m.conn / 256 ≠ 1 →
        vendorOk m.msg = true → numAt m.msg 15 2 = 0 → vendorOp m.msg = 0x51 → (vendorBody m.msg).length ≠ 1 → ∃ c : Chip, exec (.getTwistHead m) s =
        .next (s.settled c) ∧ c.tx = s.chip.tx ++ [.spdm m.conn m.sess (vendorMsg 0x51 .badArg [])]) ∧
    (∀ (s : State) (m : SpdmMsg), s.chip.answers = true → numAt m.msg 1 1 = 0xFE → m.good = true → s.chip.spdmBad m = none → m.conn / 256 ≠ 1 →
        vendorOk m.msg = true → numAt m.msg 15 2 = 0 → vendorOp m.msg = 0x51 → (vendorBody m.msg).length = 1 → (s.chip.hank? (numAt (vendorBody
        m.msg) 0 1)).isSome = true → s.chip.quietHanks = [] → ∃ c : Chip, exec (.getTwistHead m) s = .next (s.settled c) ∧ c.tx = s.chip.tx ++ [.spdm
        m.conn m.sess (vendorMsg 0x51 .ok (le 4 (s.chip.geti F.DGT_TWn_SEGMENT_NUM (numAt (vendorBody m.msg) 0 1)) ++ le 4 (s.chip.geti
        F.DGT_TWn_RECORDS_COUNT (numAt (vendorBody m.msg) 0 1)) ++ padTo 48 (s.chip.tw (numAt (vendorBody m.msg) 0 1)).head))])

/-- REBIND (R340). -/
def Says.rebind : Prop :=
    (∀ (s : State) (m : SpdmMsg), ∃ c : Chip, exec (.rebind m) s = .next (s.settled c) ∧ s.chip.Only ([Part.tx, Part.ring, Part.cores, Part.cust,
        Part.whl, Part.spdm, Part.hanks, Part.ply] ++ eventParts) ([F.WHL_Ln_STATE_RESULT, F.WHL_Ln_UNCONFIRMED_COUNT, F.MBS_STATUSn_OWNER,
        F.MBN_STATUSn_OWNER, F.BOB_JSEQ_LO_SEQ, F.BOB_JSEQ_HI_SEQ, F.BOB_LIMIT_SUM_COUNT, F.DST_CACHE_STAT_PINNED, mbsRegs, mbnRegs] ++ eventRegs) c)
        ∧
    (∀ (s : State) (m : SpdmMsg), s.chip.answers = true → numAt m.msg 1 1 = 0xFE → m.good = true → s.chip.spdmBad m = none → m.conn / 256 ≠ 1 →
        vendorOk m.msg = true → numAt m.msg 15 2 = 0 → vendorOp m.msg = 0x60 → m.sess = none → ∃ c : Chip, exec (.rebind m) s = .next (s.settled c) ∧
        c.tx = s.chip.tx ++ [.spdm m.conn m.sess (vendorMsg 0x60 .denied [])]) ∧
    (∀ (s : State) (m : SpdmMsg), s.chip.answers = true → numAt m.msg 1 1 = 0xFE → m.good = true → s.chip.spdmBad m = none → m.conn / 256 ≠ 1 →
        vendorOk m.msg = true → numAt m.msg 15 2 = 0 → vendorOp m.msg = 0x60 → (vendorBody m.msg).length = 36 → m.sess.isSome = true → (s.chip.sess?
        (numAt (vendorBody m.msg) 0 4)).any (fun q => q.orphan.isSome) = true → ∃ c : Chip, exec (.rebind m) s = .next (s.settled c) ∧ (m.sess.all
        (fun new => (s.chip.sess? (numAt (vendorBody m.msg) 0 4)).all (fun q => slice (vendorBody m.msg) 4 32 != Config.kmac256 q.secret (ascii
        "rebind" ++ le 4 (numAt (vendorBody m.msg) 0 4) ++ le 4 new) (ascii "GGM-1 HOST") 32 || (decide (c.tx = s.chip.tx ++ [.spdm m.conn m.sess
        (vendorMsg 0x60 .ok [])]) && (c.sess? (numAt (vendorBody m.msg) 0 4)).isNone)))) = true)

/-- GET_LEAKAGE (R412). -/
def Says.getLeakage : Prop :=
    (∀ (s : State) (m : SpdmMsg), ∃ c : Chip, exec (.getLeakage m) s = .next (s.settled c) ∧ s.chip.Only ([Part.tx, Part.ring, Part.cores, Part.cust,
        Part.whl, Part.spdm, Part.hanks, Part.ply] ++ eventParts) ([F.WHL_Ln_STATE_RESULT, F.WHL_Ln_UNCONFIRMED_COUNT, F.MBS_STATUSn_OWNER,
        F.MBN_STATUSn_OWNER, F.BOB_JSEQ_LO_SEQ, F.BOB_JSEQ_HI_SEQ, F.BOB_LIMIT_SUM_COUNT, F.DST_CACHE_STAT_PINNED, mbsRegs, mbnRegs] ++ eventRegs) c)
        ∧
    (∀ (s : State) (m : SpdmMsg), s.chip.answers = true → numAt m.msg 1 1 = 0xFE → m.good = true → s.chip.spdmBad m = none → m.conn / 256 ≠ 1 →
        vendorOk m.msg = true → numAt m.msg 15 2 = 0 → vendorOp m.msg = 0x70 → (vendorBody m.msg).isEmpty = true → ∃ c : Chip, exec (.getLeakage m) s
        = .next (s.settled c) ∧ c.tx = s.chip.tx ++ [.spdm m.conn m.sess (vendorMsg 0x70 .ok leakage)])

/-- OWNER_OBJECT_PORTION (R342, R384): opcodes 0x0040 to 0x0043, in a hybrid session; the answer waits for what was mirrored (R388). -/
def Says.ownerObjectPortion : Prop :=
    (∀ (s : State) (m : SpdmMsg) (genuine : Bool), ∃ c : Chip, exec (.ownerObjectPortion m genuine) s = .next (s.settled c) ∧ s.chip.Only ([Part.tx,
        Part.ring, Part.pins, Part.mem, Part.cores, Part.cust, Part.whl, Part.dma, Part.spdm, Part.hanks, Part.twist, Part.ply] ++ eventParts)
        ([F.WHL_Ln_STATE_RESULT, F.WHL_Ln_UNCONFIRMED_COUNT, F.PLY_MSEQ_LO_SEQ, F.PLY_MSEQ_HI_SEQ, F.MBS_STATUSn_OWNER, F.MBN_STATUSn_OWNER,
        F.BOB_JSEQ_LO_SEQ, F.BOB_JSEQ_HI_SEQ, F.BOB_LIMIT_SUM_COUNT, F.DST_CACHE_STAT_PINNED, F.DST_HANKn_VALID, F.DGT_TW_STATUS_INTAKE,
        F.DGT_TWn_CTRL_SEAL, F.DGT_TWn_STATUS_DEPART_CODE, F.DGT_TWn_SEGMENT_NUM, F.DGT_TWn_RECORDS_COUNT, F.DGT_TWn_PROG_COUNT,
        F.DGT_TWn_COUNTS_GAPS, F.DMA_STATUS_STOPPED, F.DMA_FAULT_MASK_CH, F.DMA_STOP_MASK_CH, F.DMA_LINE_GRANT_LO_LINES, F.DMA_LINE_GRANT_HI_LINES,
        F.DMA_CHn_HEAD_IDX, F.DMA_CHn_CTRL_CLEAR, F.DMA_CHn_STATUS_LAST_ERR, F.DBG_CTRL_WATCH, F.DBG_STATUS_TRACE_GRANTED, F.DBG_COREc_STATUS_LAST,
        mbsRegs, mbnRegs, dmaRegs, coreRegs] ++ eventRegs) c) ∧
    (∀ (s : State) (m : SpdmMsg) (genuine : Bool), s.chip.answers = true → numAt m.msg 1 1 = 0xFE → m.good = true → s.chip.spdmBad m = none → m.conn
        / 256 ≠ 1 → vendorOk m.msg = true → numAt m.msg 15 2 = 0 → 0x40 ≤ vendorOp m.msg → vendorOp m.msg ≤ 0x43 → m.sess = none → ∃ c : Chip, exec
        (.ownerObjectPortion m genuine) s = .next (s.settled c) ∧ c.tx = s.chip.tx ++ [.spdm m.conn m.sess (vendorMsg (vendorOp m.msg) .denied [])]) ∧
    (∀ (s : State) (m : SpdmMsg) (genuine : Bool), s.chip.answers = true → numAt m.msg 1 1 = 0xFE → m.good = true → s.chip.spdmBad m = none → m.conn
        / 256 ≠ 1 → vendorOk m.msg = true → numAt m.msg 15 2 = 0 → 0x40 ≤ vendorOp m.msg → vendorOp m.msg ≤ 0x43 → (m.sess.bind s.chip.sess?).any
        (fun q => q.hybrid) = true → s.chip.hanks.parts = [] → s.chip.waitsPartner = false → numAt (vendorBody m.msg) 0 4 ≠ 0 → numAt (vendorBody
        m.msg) 4 1 = 1 → numAt (vendorBody m.msg) 5 3 = 0 → 64 ≤ numAt (vendorBody m.msg) 8 4 → numAt (vendorBody m.msg) 8 4 ≤ 196608 → 16 <
        (vendorBody m.msg).length → (vendorBody m.msg).length ≤ 14352 → numAt (vendorBody m.msg) 12 4 + (vendorBody m.msg).length - 16 < numAt
        (vendorBody m.msg) 8 4 → ∃ c : Chip, exec (.ownerObjectPortion m genuine) s = .next (s.settled c) ∧ c.tx = s.chip.tx ++ [.spdm m.conn m.sess
        (vendorMsg (vendorOp m.msg) .ok [])] ∧ c.hanks.parts.any (fun a => m.sess == some a.session && a.object == numAt (vendorBody m.msg) 0 4) =
        true)

/-- SVC_WRITE (R469): taken while `SVC_RDY_N` is low; an unread response is discarded. -/
def Says.svcWrite : Prop :=
    (∀ (s : State) (frame : List Byte), ∃ c : Chip, exec (.svcWrite frame) s = .next (s.settled c) ∧ s.chip.Only [.upd] [] c) ∧
    (∀ (s : State) (frame : List Byte), s.chip.svcRdyN = true → ∃ c : Chip, exec (.svcWrite frame) s = .next (s.settled c) ∧ c = s.chip) ∧
    (∀ (s : State) (frame : List Byte), s.chip.svcRdyN = false → ∃ c : Chip, exec (.svcWrite frame) s = .next (s.settled c) ∧ c.upd.portIn = some
        frame ∧ c.upd.portOut = none ∧ c.svcRdyN = true)

/-- SVC_READ (R469). -/
def Says.svcRead : Prop :=
    (∀ (s : State), ∃ c : Chip, exec .svcRead s = .next (s.settled c) ∧ s.chip.Only [.tx, .upd] [] c) ∧
    (∀ (s : State), s.chip.portMode = none → ∃ c : Chip, exec .svcRead s = .next (s.settled c) ∧ c = s.chip) ∧
    (∀ (s : State), s.chip.portMode.isSome = true → s.chip.upd.portOut = none → ∃ c : Chip, exec .svcRead s = .next (s.settled c) ∧ c.tx =
        s.chip.tx ++ [.service (updResp 0 0 0 .busy [])] ∧ c.upd = s.chip.upd) ∧
    (∀ (s : State), s.chip.portMode.isSome = true → s.chip.upd.portOut.isSome = true → ∃ c : Chip, exec .svcRead s = .next (s.settled c) ∧
        s.chip.upd.portOut.all (fun b => decide (c.tx = s.chip.tx ++ [.service b])) = true ∧ c.upd.portOut = none)

/-- UPDATE_HELLO (R467); a `CMD` outside the table is DENIED. -/
def Says.updateHello : Prop :=
    (∀ (s : State) (via : Option Nat), ∃ c : Chip, exec (.updateHello via) s = .next (s.settled c) ∧ s.chip.Only ([Part.tx, Part.mem, Part.cores,
        Part.cust, Part.ply, Part.upd] ++ eventParts) ([F.PWR_STATUS_LAST_RESULT, F.PWR_GRP_STATUS_STATE, F.MBS_STATUSn_OWNER, F.MBN_STATUSn_OWNER,
        F.BOB_CQ_HEAD_IDX, F.BOB_JSEQ_LO_SEQ, F.BOB_JSEQ_HI_SEQ, mbsRegs, mbnRegs] ++ eventRegs) c) ∧
    (∀ (s : State) (via : Option Nat), via = none → s.chip.portMode = some .running → s.chip.upd.portIn.any (fun b => (updFrame b).2 && (updFrame
        b).1.cmd == 0x01) = true → ∃ c : Chip, exec (.updateHello via) s = .next (s.settled c) ∧ c.upd.portIn = none ∧ s.chip.upd.portIn.all (fun b
        => decide (c.upd.portOut = some (updResp 1 (updFrame b).1.session (updFrame b).1.index .ok (le 4 (s.chip.rd R.GEN_ID).toNat ++ le 4
        (s.chip.rd R.GEN_BOOT).toNat ++ pack [(1, 0), (3, 0)])))) = true)

/-- BEGIN (R470, R471, R481). -/
def Says.updBegin : Prop :=
    (∀ (s : State) (via : Option Nat), ∃ c : Chip, exec (.updBegin via) s = .next (s.settled c) ∧ s.chip.Only ([Part.tx, Part.mem, Part.cores,
        Part.cust, Part.ply, Part.upd] ++ eventParts) ([F.PWR_STATUS_LAST_RESULT, F.PWR_GRP_STATUS_STATE, F.MBS_STATUSn_OWNER, F.MBN_STATUSn_OWNER,
        F.BOB_CQ_HEAD_IDX, F.BOB_JSEQ_LO_SEQ, F.BOB_JSEQ_HI_SEQ, mbsRegs, mbnRegs] ++ eventRegs) c) ∧
    (∀ (s : State) (via : Option Nat), via = none → s.chip.portMode = some .running → s.chip.upd.portIn.any (fun b => (updFrame b).2 && (updFrame
        b).1.cmd == 0x10) = true → s.chip.upd.record = {} → s.chip.upd.portIn.any (fun b => (updFrame b).1.payload.length == 56 && numAt (updFrame
        b).1.payload 0 1 == 1 && decide (8192 ≤ numAt (updFrame b).1.payload 4 4) && decide (numAt (updFrame b).1.payload 4 4 ≤ (imgArea 1).2)) =
        true → ∃ c : Chip, exec (.updBegin via) s = .next (s.settled c) ∧ c.upd.portIn = none ∧ c.upd.portOut.isSome = true ∧ c.upd.record.session =
        s.chip.lastSession + 1 ∧ c.upd.record.typ = 1 ∧ c.upd.record.stage = 1)

/-- PIECE (R472, R481). -/
def Says.updPiece : Prop :=
    (∀ (s : State) (via : Option Nat) (flaw : Bool), ∃ c : Chip, exec (.updPiece via flaw) s = .next (s.settled c) ∧ s.chip.Only ([Part.free,
        Part.tx, Part.mem, Part.cores, Part.cust, Part.ply, Part.upd] ++ eventParts) ([F.PWR_STATUS_LAST_RESULT, F.PWR_GRP_STATUS_STATE,
        F.MBS_STATUSn_OWNER, F.MBN_STATUSn_OWNER, F.BOB_CQ_HEAD_IDX, F.BOB_JSEQ_LO_SEQ, F.BOB_JSEQ_HI_SEQ, mbsRegs, mbnRegs] ++ eventRegs) c) ∧
    (∀ (s : State) (via : Option Nat) (flaw : Bool), via = none → s.chip.portMode = some .running → s.chip.upd.portIn.any (fun b => (updFrame b).2 &&
        (updFrame b).1.cmd == 0x11) = true → flaw = false → s.chip.upd.record.session ≠ 0 → s.chip.upd.record.pieces ≤ 2048 → s.chip.upd.portIn.any
        (fun b => (updFrame b).1.session == s.chip.upd.record.session && decide ((updFrame b).1.index < s.chip.upd.record.pieces) && (updFrame
        b).1.payload.length == 48 + pieceLen s.chip.upd.record.total s.chip.upd.record.pieces (updFrame b).1.index && (s.chip.piece? (updFrame
        b).1.index).isNone && norBlank s.chip.mem.nor (incoming + 4096 * (updFrame b).1.index) 4096 && decide ((updFrame b).1.payload.length ≤ 4144))
        = true → ∃ c : Chip, exec (.updPiece via flaw) s = .next (s.settled c) ∧ c.upd.portIn = none ∧ c.upd.portOut.isSome = true ∧
        s.chip.upd.portIn.all (fun b => decide (c.norRd (incoming + 4096 * (updFrame b).1.index) ((updFrame b).1.payload.length - 48) = (updFrame
        b).1.payload.drop 48)) = true)

/-- QUERY (Table 17.5). -/
def Says.updQuery : Prop :=
    (∀ (s : State) (via : Option Nat), ∃ c : Chip, exec (.updQuery via) s = .next (s.settled c) ∧ s.chip.Only ([Part.tx, Part.mem, Part.cores,
        Part.cust, Part.ply, Part.upd] ++ eventParts) ([F.PWR_STATUS_LAST_RESULT, F.PWR_GRP_STATUS_STATE, F.MBS_STATUSn_OWNER, F.MBN_STATUSn_OWNER,
        F.BOB_CQ_HEAD_IDX, F.BOB_JSEQ_LO_SEQ, F.BOB_JSEQ_HI_SEQ, mbsRegs, mbnRegs] ++ eventRegs) c) ∧
    (∀ (s : State) (via : Option Nat), via = none → s.chip.portMode = some .running → s.chip.upd.portIn.any (fun b => (updFrame b).2 && (updFrame
        b).1.cmd == 0x12) = true → ∃ c : Chip, exec (.updQuery via) s = .next (s.settled c) ∧ c.upd.portIn = none ∧ s.chip.upd.portIn.all (fun b =>
        decide (c.upd.portOut = some (updResp 0x12 (updFrame b).1.session (updFrame b).1.index .ok s.chip.updQueryBody))) = true)

/-- CHECK (R475). -/
def Says.updCheck : Prop :=
    (∀ (s : State) (via : Option Nat), ∃ c : Chip, exec (.updCheck via) s = .next (s.settled c) ∧ s.chip.Only ([Part.tx, Part.mem, Part.cores,
        Part.cust, Part.ply, Part.upd] ++ eventParts) ([F.PWR_STATUS_LAST_RESULT, F.PWR_GRP_STATUS_STATE, F.MBS_STATUSn_OWNER, F.MBN_STATUSn_OWNER,
        F.BOB_CQ_HEAD_IDX, F.BOB_JSEQ_LO_SEQ, F.BOB_JSEQ_HI_SEQ, mbsRegs, mbnRegs] ++ eventRegs) c) ∧
    (∀ (s : State) (via : Option Nat), via = none → s.chip.portMode = some .running → s.chip.upd.portIn.any (fun b => (updFrame b).2 && (updFrame
        b).1.cmd == 0x13) = true → s.chip.upd.record.session ≠ 0 → s.chip.upd.record.pieces = 0 → s.chip.upd.erase = [] → s.chip.upd.check = none →
        s.chip.upd.loader = none → s.chip.upd.portIn.any (fun b => (updFrame b).1.session == s.chip.upd.record.session) = true → ∃ c : Chip, exec
        (.updCheck via) s = .next (s.settled c) ∧ c.upd.portIn = none ∧ c.upd.check.isSome = true ∧ c.upd.portWait = true ∧ s.chip.upd.portIn.all
        (fun b => decide (c.upd.portOut = some (updResp 0x13 (updFrame b).1.session (updFrame b).1.index .pending []))) = true)

/-- CHECK_COMPLETE (R475, R481). -/
def Says.checkComplete : Prop :=
    (∀ (s : State), ∃ c : Chip, exec .checkComplete s = .next (s.settled c) ∧ s.chip.Only ([Part.tx, Part.mem, Part.cores, Part.cust, Part.ply,
        Part.upd] ++ eventParts) ([F.PWR_STATUS_LAST_RESULT, F.PWR_GRP_STATUS_STATE, F.MBS_STATUSn_OWNER, F.MBN_STATUSn_OWNER, F.BOB_CQ_HEAD_IDX,
        F.BOB_JSEQ_LO_SEQ, F.BOB_JSEQ_HI_SEQ, mbsRegs, mbnRegs] ++ eventRegs) c) ∧
    (∀ (s : State), s.chip.upd.check = none → ∃ c : Chip, exec .checkComplete s = .next (s.settled c) ∧ c = s.chip) ∧
    (∀ (s : State), s.chip.upd.check.isSome = true → s.chip.phase ≠ 0x17 → ∃ c : Chip, exec .checkComplete s = .next (s.settled c) ∧ c.upd.check =
        none)

/-- ACTIVATE (R476, R479, R481). -/
def Says.updActivate : Prop :=
    (∀ (s : State) (via : Option Nat) (flaw : Bool), ∃ c : Chip, exec (.updActivate via flaw) s = .next (s.settled c) ∧ s.chip.Only ([Part.free,
        Part.tx, Part.mem, Part.cores, Part.cust, Part.ply, Part.upd] ++ eventParts) ([F.PWR_STATUS_LAST_RESULT, F.PWR_GRP_STATUS_STATE,
        F.PLY_STATUS_LAST, F.MBS_STATUSn_OWNER, F.MBN_STATUSn_OWNER, F.BOB_CTRL_CPL_IRQ_EN, F.BOB_CQ_HEAD_IDX, F.BOB_JSEQ_LO_SEQ, F.BOB_JSEQ_HI_SEQ,
        mbsRegs, mbnRegs] ++ eventRegs) c) ∧
    (∀ (s : State) (via : Option Nat) (flaw : Bool), via = none → s.chip.portMode = some .running → s.chip.upd.portIn.any (fun b => (updFrame b).2 &&
        (updFrame b).1.cmd == 0x14) = true → s.chip.pkg = .hx4 → s.chip.phase = 0x40 → s.chip.hanks.tab = [] → s.chip.upd.record.stage = 2 →
        s.chip.upd.record.set = [] → s.chip.upd.check = none → s.chip.upd.loader = none → s.chip.upd.confirm = none → s.chip.upd.portIn.any (fun b =>
        (updFrame b).1.session == s.chip.upd.record.session && numAt (updFrame b).1.payload 0 4 == 0) = true → ∃ c : Chip, exec (.updActivate via
        flaw) s = .next (s.settled c) ∧ c.upd.loader.map (fun l => (l.step, l.typ, l.back)) = some (2, s.chip.upd.record.typ, false) ∧
        c.upd.record.set.length = 1 ∧ s.chip.upd.portIn.all (fun b => decide (c.upd.portOut = some (updResp 0x14 (updFrame b).1.session (updFrame
        b).1.index .pending []))) = true)

/-- LOADER_ACTIVATION (R477, R479): the loader's next step. -/
def Says.loaderActivation : Prop :=
    (∀ (s : State) (flaw : Bool), (s.chip.svcUp = false ∨ s.chip.upd.loader = none) → ∃ c : Chip, exec (.loaderActivation flaw) s = .next
        (s.cutSettled c) ∧ c = s.chip) ∧
    (∀ (s : State) (flaw : Bool), s.chip.svcUp = true → s.chip.hanks.tab = [] → s.chip.upd.loader.any (fun l => l.step == 11) = true →
        s.chip.upd.record.set = [] → ∃ c : Chip, exec (.loaderActivation flaw) s = .next (s.cutSettled c) ∧ c.upd.loader.map (fun l => l.step) = some
        12) ∧
    (∀ (s : State) (flaw : Bool), s.chip.svcUp = true → s.chip.hanks.tab = [] → s.chip.upd.loader.any (fun l => l.step == 3 &&
        s.chip.upd.record.set.any (fun e => e.typ == l.typ)) = true → ∃ c : Chip, exec (.loaderActivation flaw) s = .next (s.cutSettled c) ∧
        c.upd.loader.map (fun l => l.step) = some 4 ∧ s.chip.upd.loader.all (fun l => decide (c.mem = (s.chip.norErase (imgArea l.typ).1 ((imgArea
        l.typ).1 + (imgArea l.typ).2)).mem)) = true)

/-- RESTORE (R482). -/
def Says.updRestore : Prop :=
    (∀ (s : State) (via : Option Nat) (flaw : Bool), ∃ c : Chip, exec (.updRestore via flaw) s = .next (s.settled c) ∧ s.chip.Only ([Part.free,
        Part.tx, Part.mem, Part.cores, Part.cust, Part.ply, Part.upd] ++ eventParts) ([F.PWR_STATUS_LAST_RESULT, F.PWR_GRP_STATUS_STATE,
        F.MBS_STATUSn_OWNER, F.MBN_STATUSn_OWNER, F.BOB_CQ_HEAD_IDX, F.BOB_JSEQ_LO_SEQ, F.BOB_JSEQ_HI_SEQ, mbsRegs, mbnRegs] ++ eventRegs) c) ∧
    (∀ (s : State) (via : Option Nat) (flaw : Bool), via = none → s.chip.portMode = some .recovery → s.chip.upd.portIn.any (fun b => (updFrame b).2
        && (updFrame b).1.cmd == 0x15) = true → s.chip.upd.rcv.written = false → s.chip.upd.record.set.any (fun e => e.typ == 1) = false → ∃ c :
        Chip, exec (.updRestore via flaw) s = .next (s.settled c) ∧ c.upd.portIn = none ∧ s.chip.upd.portIn.all (fun b => decide (c.upd.portOut =
        some (updResp 0x15 (updFrame b).1.session (updFrame b).1.index .badArg []))) = true) ∧
    (∀ (s : State) (via : Option Nat) (flaw : Bool), via = none → s.chip.portMode = some .recovery → s.chip.upd.portIn.any (fun b => (updFrame b).2
        && (updFrame b).1.cmd == 0x15) = true → flaw = false → s.chip.upd.rcv.written = false → s.chip.upd.record.set.any (fun e => e.typ == 1) =
        true → ∃ c : Chip, exec (.updRestore via flaw) s = .next (s.settled c) ∧ c.upd.portIn = none ∧
        (match s.chip.upd.record.set.find? (fun e => e.typ == 1) with | some e => (if e.oldDigest.all (· == 0#8) || !s.chip.retainedOk e then s.chip.upd.portIn.all (fun b => decide (c.upd.portOut = some (updResp 0x15 (updFrame b).1.session (updFrame b).1.index .integrity []))) = true else (s.chip.fallBack e false).holdsOld (imgArea 1) e = true → c.upd.record.set.all (fun x => x.typ != 1) = true) | none => True))

/-- ABORT (R472). -/
def Says.abort : Prop :=
    (∀ (s : State) (via : Option Nat), ∃ c : Chip, exec (.abort via) s = .next (s.settled c) ∧ s.chip.Only ([Part.tx, Part.mem, Part.cores,
        Part.cust, Part.ply, Part.upd] ++ eventParts) ([F.PWR_STATUS_LAST_RESULT, F.PWR_GRP_STATUS_STATE, F.MBS_STATUSn_OWNER, F.MBN_STATUSn_OWNER,
        F.BOB_CQ_HEAD_IDX, F.BOB_JSEQ_LO_SEQ, F.BOB_JSEQ_HI_SEQ, mbsRegs, mbnRegs] ++ eventRegs) c) ∧
    (∀ (s : State) (via : Option Nat), via = none → s.chip.portMode = some .running → s.chip.upd.portIn.any (fun b => (updFrame b).2 && (updFrame
        b).1.cmd == 0x16) = true → s.chip.upd.record.session ≠ 0 → s.chip.upd.loader = none → s.chip.upd.portIn.any (fun b => (updFrame b).1.session
        == s.chip.upd.record.session) = true → ∃ c : Chip, exec (.abort via) s = .next (s.settled c) ∧ c.upd.record.session = 0 ∧ c.upd.check = none
        ∧ c.upd.portIn = none ∧ s.chip.upd.portIn.all (fun b => decide (c.upd.portOut = some (updResp 0x16 (updFrame b).1.session (updFrame
        b).1.index .ok []))) = true)

/-- CONFIRM (R480). -/
def Says.updConfirm : Prop :=
    (∀ (s : State) (via : Option Nat), ∃ c : Chip, exec (.updConfirm via) s = .next (s.after c) ∧ s.chip.Only ([Part.free, Part.tx, Part.ring,
        Part.pins, Part.pwr, Part.otp, Part.lcs, Part.mem, Part.cores, Part.card, Part.cust, Part.whl, Part.cry, Part.spdm, Part.hanks, Part.twist,
        Part.ply, Part.upd] ++ eventParts) ([F.GEN_BOOT_LAST_STATUS, F.GEN_BOOT_TIME_US, F.GEN_CARDED0_NODES, F.GEN_CARDED1_NODES,
        F.GEN_CARD_STATEn_RECARD, F.PWR_STATUS_LAST_RESULT, F.PWR_GRP_STATUS_STATE, F.OTP_STATUS_LAST_OP, F.OTP_WDATA_DATA, F.WHL_STATUS_MASTER,
        F.WHL_Ln_STATE_RESULT, F.WHL_Ln_BOUND_COUNT, F.WHL_Ln_ARMED_COUNT, F.WHL_Ln_UNCONFIRMED_COUNT, F.SKN_BRIDGE0_NODES, F.SKN_BRIDGE1_NODES,
        F.SKN_BRIDGE2_NODES, F.PLY_STATUS_LAST, F.PLY_LEASE_NUM, F.PLY_EXPIRY_SLOT, F.PLY_GRANTS_LO_DIES, F.PLY_GRANTS_HI_DIES, F.PLY_MSEQ_LO_SEQ,
        F.PLY_MSEQ_HI_SEQ, F.PLY_RESYNC_PATH, F.MBS_STATUSn_OWNER, F.MBN_STATUSn_OWNER, F.BOB_CTRL_CPL_IRQ_EN, F.BOB_STATUS_LAST_ERR,
        F.BOB_CQ_HEAD_IDX, F.BOB_CPL_TAIL_IDX, F.BOB_JSEQ_LO_SEQ, F.BOB_JSEQ_HI_SEQ, F.BOB_JRNL_STATUS_HEAD_SECTOR, F.BOB_LIMIT_SUM_COUNT,
        F.DST_CACHE_STAT_PINNED, F.DST_HANKn_VALID, F.CRY_DRBG_STATUS_LAST, F.DGT_TWn_STATUS_DEPART_CODE, F.DGT_TWn_SEGMENT_NUM,
        F.DGT_TWn_RECORDS_COUNT, F.DGT_TWn_COUNTS_GAPS, mbsRegs, mbnRegs] ++ eventRegs) c) ∧
    (∀ (s : State) (via : Option Nat), via = none → s.chip.portMode = some .running → s.chip.upd.portIn.any (fun b => (updFrame b).2 && (updFrame
        b).1.cmd == 0x17) = true → s.chip.confirmBar = true → ∃ c : Chip, exec (.updConfirm via) s = .next (s.after c) ∧ c.upd.portIn = none ∧
        s.chip.upd.portIn.all (fun b => decide (c.upd.portOut = some (updResp 0x17 (updFrame b).1.session (updFrame b).1.index .denied []))) = true) ∧
    (∀ (s : State) (via : Option Nat), via = none → s.chip.portMode = some .running → s.chip.upd.portIn.any (fun b => (updFrame b).2 && (updFrame
        b).1.cmd == 0x17) = true → s.chip.confirmBar = false → s.chip.upd.loader = none → s.chip.upd.confirm = none → ∃ c : Chip, exec (.updConfirm
        via) s = .next (s.after c) ∧ c.upd.portIn = none ∧ c.upd.portOut.isSome = true)

/-- UPDATE_RESET (R481): as a `SYSRST_N` pulse, the strap sampled again. -/
def Says.updateReset : Prop :=
    ∀ (s : State) (via : Option Nat) (recoveryN : Bool), via = none → s.chip.portMode = some .recovery → s.chip.upd.portIn.any (fun b => (updFrame
        b).2 && (updFrame b).1.cmd == 0x1F) = true → ∃ c : Chip, exec (.updateReset via recoveryN) s = .next (s.cutSettled c) ∧ c.get
        F.PWR_WAKE_CAUSE_RESET = 1 ∧ c.pins.recoveryN = recoveryN

/-- STAGING_ERASE_DONE (R473): the erase of a sector ends; one suspended for a journal program is resumed. -/
def Says.stagingEraseDone : Prop :=
    (∀ (s : State), ∃ c : Chip, exec .stagingEraseDone s = .next (s.settled c) ∧ s.chip.Only [.mem, .upd] [] c) ∧
    (∀ (s : State), s.chip.upd.erase = [] → ∃ c : Chip, exec .stagingEraseDone s = .next (s.settled c) ∧ c = s.chip) ∧
    (∀ (s : State), s.chip.svcUp = true → s.chip.cust.jrnl.page = [] → s.chip.upd.erase ≠ [] → ∃ c : Chip, exec .stagingEraseDone s = .next
        (s.settled c) ∧ c.upd.erase = s.chip.upd.erase.tail ∧ s.chip.upd.erase.head?.all (fun a => decide (c.mem = (s.chip.norErase a (a +
        4096)).mem)) = true)

end Sys2Proof.Machine

open Sys2Proof Sys2Proof.Machine

/-- A step takes the front command: it is the meaning of that command on the state with the queue's rest (log entry 1). -/
def Obligations.StepRunsFront : Prop :=
  ∀ (i : Instr) (rest : List Instr) (s : State), step { s with pending := i :: rest } = exec i { s with pending := rest }

/-- On an empty queue a step is one tick of the instance: a next state with the fuse cells and the empty queue as they were (log entry 1). -/
def Obligations.EmptyQueueIdles : Prop :=
  ∀ (s : State), s.pending = [] → ∃ c : Chip, step s = .next (s.after c) ∧ c = s.chip.idle

/-- What R26 leaves at reset: the sequencer in SENSE, no log, no event summary, memories and fuse array empty, no command waiting. -/
def Obligations.ResetState : Prop :=
  State.reset.chip.seq = .sense ∧ State.reset.chip.pins.porstN = false ∧ State.reset.chip.logs = {} ∧ State.reset.chip.rd R.GEN_EVT_SUM = 0#32 ∧
    State.reset.chip.rd R.GEN_EVT_EN = 0x38#32 ∧ State.reset.chip.mem = {} ∧ State.reset.chip.otp = {} ∧ State.reset.chip.cust = {} ∧
    State.reset.fuses = {} ∧ State.reset.pending = []

/-- The fuse array of the reset state is in its one form. -/
def Obligations.ResetFusesOk : Prop := State.reset.fuses.ok

/-- No command puts a command in the queue or takes one out of it. -/
def Obligations.QueueKept : Prop := ∀ (i : Instr) (s t : State), exec i s = .next t → t.pending = s.pending

/-- No command stops the instance: each answers a next state from every state. -/
def Obligations.EveryCommandAnswers : Prop := ∀ (i : Instr) (s : State), ∃ t, exec i s = .next t

/-- A blown cell is never returned to 0, whatever the step, at each margin. -/
def Obligations.FusesNeverUnblown : Prop := ∀ (s t : State), step s = .next t → s.fuses.le t.fuses

/-- The fuse array keeps its one form at every step: words in rising order, a cell blown at the tight margin blown at the normal and the loose
one. -/
def Obligations.FusesKeepForm : Prop := ∀ (s t : State), s.fuses.ok → step s = .next t → t.fuses.ok

/-- The Roving class never reaches the pages OTP, BOB and DST, TLY and what of Table 1.5 has no Roving column. -/
def Obligations.RovingPages : Prop :=
  ∀ (c : Chip) (req : Req) (off : Nat) (write : Bool), classOf req = .roving →
    (0x2000 ≤ off ∧ off < 0x3000) ∨ (0xA000 ≤ off ∧ off < 0xC000) ∨ (0xE000 ≤ off ∧ off < 0xF000) → c.granted req off write = false

/-- The external class reaches GEN_ID and GEN_STATUS for reading, the MBN page, and with the secure attribute the TRS window for reading, and
nothing else. -/
def Obligations.ExternalPages : Prop :=
  ∀ (c : Chip) (req : Req) (off : Nat) (write : Bool), classOf req = .external →
    (c.granted req off write = true ↔
      ((off = R.GEN_ID ∨ off = R.GEN_STATUS) ∧ write = false) ∨ (0x9000 ≤ off ∧ off < 0xA000) ∨
        (0x20000 ≤ off ∧ off < 0x60000 ∧ write = false ∧ c.pins.reqSec = true))

/-- A refused access does none of its work: the answer is the error response with 0, the event names the page's unit, and no component but the
logs and the answer changes. -/
def Obligations.RefusedAccess : Prop :=
  ∀ (c : Chip) (req : Req) (off : Nat) (write : Bool) (f : Chip → Chip), badReq req = false → c.powered off = true → c.granted req off write = false →
    c.guarded req off write f = c.refuse 0x1601 req off write 0 ∧ c.Only (.tx :: eventParts) eventRegs (c.guarded req off write f)

/-- Read-only fields keep their value in a write by fields, but in the registers an event changes. -/
def Obligations.ReadOnlyFields : Prop :=
  ∀ (c : Chip) (req : Req) (off : Nat) (w : Word) (r : RegRow) (g : FieldRow), regRow off = some r → g ∈ r.fields → g.acc = .ro →
    eventRegs.any (·.holds off) = false → wget g.hi g.lo ((c.fieldsWrite req off w).rd off) = wget g.hi g.lo (c.rd off)

/-- An event changes the logs, the event summary and the trace sources, and nothing else. -/
def Obligations.EventFrame : Prop := ∀ (c : Chip) (code unit : Nat) (args : List Byte), c.Only eventParts eventRegs (c.log code unit args)

/-- The AON event buffer holds 64 records: a new one is always its last, and when it was full the oldest is dropped; the service event log
drops a new record once it holds 4,096 and counts it. -/
def Obligations.LogBounds : Prop :=
  ∀ (l : Logs) (r : EvRec),
    (l.aon.length ≤ 64 → (l.aonPush r).aon.length ≤ 64) ∧ (l.aonPush r).aon.getLast? = some r ∧
      (l.aon.length = 64 → (l.aonPush r).aon = l.aon.drop 1 ++ [r]) ∧
      (l.svc.length ≤ 4096 → (l.svcPush r).svc.length ≤ 4096) ∧ (4096 ≤ l.svc.length → (l.svcPush r).svc = l.svc) ∧
      (4096 ≤ l.svc.length → l.svcLost < 0xFFFF → (l.svcPush r).svcLost = l.svcLost + 1)

/-- Spindle SRAM and Roving SRAM hold what was written inside them and keep every other byte; a write that reaches past the end does nothing. -/
def Obligations.SramWrites : Prop :=
  ∀ (c : Chip) (a : Nat) (bs : List Byte) (x : Nat),
    memRd 0#8 (c.spnWr a bs).mem.spn x =
        (if a + bs.length ≤ 0x100000 ∧ a ≤ x ∧ x < a + bs.length then bs.getD (x - a) 0#8 else memRd 0#8 c.mem.spn x) ∧
      memRd 0#8 (c.rovWr a bs).mem.rov x =
        (if a + bs.length ≤ 0x600000 ∧ a ≤ x ∧ x < a + bs.length then bs.getD (x - a) 0#8 else memRd 0#8 c.mem.rov x)

/-- A program into NOR only clears bits of the bytes it covers, an erase sets the bytes of its range and no other. -/
def Obligations.NorWrites : Prop :=
  ∀ (c : Chip) (a b : Nat) (bs : List Byte) (x : Nat),
    memRd 0xFF#8 (c.norWr a bs).mem.nor x =
        (if a + bs.length ≤ 0x4000000 ∧ a ≤ x ∧ x < a + bs.length then memRd 0xFF#8 c.mem.nor x &&& bs.getD (x - a) 0xFF#8
         else memRd 0xFF#8 c.mem.nor x) ∧
      memRd 0xFF#8 (c.norErase a b).mem.nor x = (if a ≤ x ∧ x < b then 0xFF#8 else memRd 0xFF#8 c.mem.nor x)

/-- Every memory operation keeps the memories in their one form. -/
def Obligations.MemoriesKeepForm : Prop :=
  ∀ (c : Chip) (a b : Nat) (bs : List Byte), c.memOk → (c.spnWr a bs).memOk ∧ (c.rovWr a bs).memOk ∧ (c.norWr a bs).memOk ∧ (c.norErase a b).memOk

/-- A Skein frame read back from its bytes is the frame that was sent. -/
def Obligations.FrameRoundTrip : Prop :=
  ∀ (f : RingFrame), f.typ < 256 → f.flags < 256 → f.src < 256 → f.dst < 256 → f.seq < 2 ^ 32 → f.rkey < 2 ^ 16 → f.payload.length ≤ 192 →
    f.payload.length % 16 = 0 → f.tag.length = 16 → parseFrame f.bytes = some f

/-- A frame whose header check fails, or whose length is not the one its header gives, is no frame. -/
def Obligations.BadFrameRefused : Prop :=
  ∀ (bs : List Byte), crc32c (bs.take 12) ≠ numAt bs 12 4 ∨ bs.length ≠ 32 + numAt bs 8 2 → parseFrame bs = none

/-- What follows of itself from a command is nothing while the Service domain is down, and never touches the fuse controller, the pins, the
power controller, the tamper sensors, the queue of outputs' past, Whorl time and the DMA stop (log entry 76). -/
def Obligations.FollowsOfItself : Prop :=
  ∀ (c : Chip), (c.svcUp = false → c.settle = c) ∧
    c.settle.time = c.time ∧ c.settle.pins = c.pins ∧ c.settle.pwr = c.pwr ∧ c.settle.sng = c.sng ∧ c.settle.otp = c.otp ∧
      c.settle.dmaStop = c.dmaStop

/-- The three totals of a decision's record: the base plus the count since the start once BASE_LOCK is set, 0xFFFF_FFFF before. -/
def Obligations.SnagTotals : Prop :=
  ∀ (c : Chip) (i since : Nat),
    (c.get F.SNG_CTRL_BASE_LOCK = 0 → c.total i since = 0xFFFFFFFF) ∧
      (c.get F.SNG_CTRL_BASE_LOCK ≠ 0 → (c.rd (R.SNG_BASE_x i)).toNat + since ≤ 0xFFFFFFFF →
        c.total i since = (c.rd (R.SNG_BASE_x i)).toNat + since)

/-- R9: the status returned is that of a condition that holds and no condition that holds stands before it in the order given; OK when none holds.
The order is the list of R9. -/
def Obligations.StatusOrder : Prop :=
  ([Status.zeroized, .poweredDown, .fenced, .denied, .noConsent, .badArg, .lengthShort, .lengthLong, .integrity, .staleEpoch, .limitReached,
        .earlyRead,
    .busy, .clamped, .pending, .ok].map Status.rank = List.range 16) ∧
  ∀ (cs : List (Bool × Status)),
    (∀ p ∈ cs, p.1 = true → (firstStatus cs).rank ≤ p.2.rank) ∧
      (firstStatus cs = .ok ∨ ∃ p ∈ cs, p.1 = true ∧ p.2 = firstStatus cs)

/-- R147, the reads of a lock register: a FREE mailbox is taken by an eligible reader, which reads 0; its owner reads 0 and nothing changes; every
other read returns the owner's number and nothing changes, the Roving class on MBN and Spindle on the pool among them. Eligible are the external
requesters 1 to 0xEF on MBN and the Roving cores on the pool (Table 6.7). A lock take and an owner's read restart the lock timeout (R149). -/
def Obligations.LockRead : Prop :=
  ∀ (s : State) (req : Req) (ns : Bool) (n : Nat), n < 16 → s.chip.opens req (mbLockOff ns n) false = true →
    (mbEligible req ns n = true ↔ (ns = true ∧ 1 ≤ req.toNat ∧ req.toNat < 0xF0) ∨ (ns = false ∧ 12 ≤ n ∧ classOf req = .roving)) ∧
    ∃ c : Chip, exec (.mbLockRead req ns n) s = .next (s.after c) ∧
      (s.chip.mbSt ns n = 0 → mbEligible req ns n = true →
        c.mbSt ns n = 1 ∧ c.mbOwner ns n = req.toNat ∧ c.tx = s.chip.tx ++ [.fabric req true 0] ∧
          ∀ off, (F.MBS_STATUSn_OWNER.holds off || F.MBN_STATUSn_OWNER.holds off) = false → c.rd off = s.chip.rd off) ∧
      (s.chip.mbSt ns n ≠ 0 → s.chip.mbOwner ns n = req.toNat → c = (s.chip.mbTouch req ns n).respond req true 0) ∧
      (s.chip.mbSt ns n ≠ 0 → s.chip.mbOwner ns n ≠ req.toNat → c = s.chip.respond req true (s.chip.mbOwner ns n)) ∧
      (mbEligible req ns n = false → s.chip.mbOwner ns n ≠ req.toNat → c = s.chip.respond req true (s.chip.mbOwner ns n))

/-- Resets, rails and the reference clock. PORST_N low clears every component and every register but the measured rail; a pulse the instance does not
take changes nothing; PORST_N rising samples the straps; a brown-out is such a reset with both rail bits down; a second rail report while VIN_OK is 0
changes only the measured rail; the reference clock lost outside the Service states sets REF_LOST and ON_RC and leaves Whorl unaligned, and its
return clears them. Forms said to complete: .porstNAssert, .brownOutReset, .porstNRise, .sysrstNPulse, .vinOkFall, .vinFuseOkFall, .vinFuseOkRise,
.refclkLost, .refclkPresentAgain, .clockGlitch, .rsvReady. -/
def Obligations.ResetsAndRails : Prop :=
  Says.porstNAssert ∧ Says.brownOutReset ∧ Says.porstNRise ∧ Says.sysrstNPulse ∧ Says.vinOkFall ∧ Says.vinFuseOkFall ∧ Says.vinFuseOkRise ∧
        Says.refclkLost ∧ Says.refclkPresentAgain ∧ Says.clockGlitch ∧ Says.rsvReady

/-- The power sequencer, sleep and wake. The sequencer leaves SENSE once sensing is done, no record waits, the reference is present and the reservoir
is ready; a Service PLL lock starts the Service domain at ROM's first phase with a fresh log; a first PLL timeout is tried again; a sleep request
with an open launch is refused with BUSY; shutdown leaves SHUTDOWN unchanged; a wake source whose bit is 0 changes nothing, and one that comes during
sleep entry is latched. Forms said to complete: .seqSvcWake, .svcPllLocked, .svcPllTimeout, .sleepReq, .sleepEntryDone, .pwrShutdown,
.wakeFabricAccess, .wakeTimer, .wakePlyBeacon, .wakeSvcPort. -/
def Obligations.SequencerMoves : Prop :=
  Says.seqSvcWake ∧ Says.svcPllLocked ∧ Says.svcPllTimeout ∧ Says.sleepReq ∧ Says.sleepEntryDone ∧ Says.pwrShutdown ∧ Says.wakeFabricAccess ∧
        Says.wakeTimer ∧ Says.wakePlyBeacon ∧ Says.wakeSvcPort

/-- Tamper decisions, sensors and calibrations. Nothing is decided while PORST_N is low; conditions that persist are kept so that each is decided
once; the zeroize pulse ends high; the record writer writes nothing while logging is off; a conversion shows both temperatures; QUENCH_EN is written
in RAW and TEST_UNLOCKED only. Forms said to complete: .snagDecision, .zeroizeOutPulseEnd, .recordWriter, .tempConversion, .sensorCalibration,
.forceCal, .quenchEn. -/
def Obligations.SnagDecisions : Prop :=
  Says.snagDecision ∧ Says.zeroizeOutPulseEnd ∧ Says.recordWriter ∧ Says.tempConversion ∧ Says.sensorCalibration ∧ Says.forceCal ∧ Says.quenchEn

/-- The OTP controller's commands. A wrong key starts nothing and answers DENIED; a command while the controller is busy answers BUSY and starts
nothing; READ of region 2 reads 0 with DENIED; an audit request while busy answers BUSY, else runs; the end of an audit or a program clears BUSY; a
command with nothing to end changes nothing. Forms said to complete: .otpRead, .progWord, .progDigest, .lockWrite, .lockRead, .lockWriteRaw,
.genRoots, .arbAdvance, .otpProgramDone, .otpAuditStart, .otpAuditDone, .quenchDone. -/
def Obligations.OtpCommands : Prop :=
  Says.otpRead ∧ Says.progWord ∧ Says.progDigest ∧ Says.lockWrite ∧ Says.lockRead ∧ Says.lockWriteRaw ∧ Says.genRoots ∧ Says.arbAdvance ∧
        Says.otpProgramDone ∧ Says.otpAuditStart ∧ Says.otpAuditDone ∧ Says.quenchDone

/-- Sensing and life-cycle transitions. Sensing happens once, while PORST_N is high; a record is resumed only while one is pending; a transition
asked without its key changes no life-cycle register; the end of a phase nobody runs changes nothing; the restart after DONE ends the transition.
Forms said to complete: .fuseSensingDone, .lcsRecordResume, .lcsGo, .lcsPhaseDone, .lcsRestart. -/
def Obligations.LifeCycleMoves : Prop :=
  Says.fuseSensingDone ∧ Says.lcsRecordResume ∧ Says.lcsGo ∧ Says.lcsPhaseDone ∧ Says.lcsRestart

/-- Boot phases 0x10 to 0x30. A boot command acts only in its phase; ROM_INIT leaves SRAM zero and goes on to 0x12; an integrity failure of region 3
is asked of the partner; a region 5 not fetched lets ROM go on, one that must hold ends in HELD; the root load sets the root and storage keys and
arms the Snag response, or NO_ID when no root is usable; the Alias derivation erases root and DeviceID keys; a failed image sets FAIL_STEP and
LAST_STATUS; Spindle sets code protection and opens the tamper log; the configuration ends with CFG_LOCK; Custody starts with an empty cache. Forms
said to complete: .fetchReq, .fetchResp, .fetchRetryTimer, .fetchTimeout, .romInit, .integDecide, .norInit, .rootLoad, .deviceidDerive,
.spindleVerify, .aliasDerive, .recoveryEnter, .spindleInit, .configApply, .rovingStart, .custodyInit, .ringStart. -/
def Obligations.BootPhases : Prop :=
  Says.fetchReq ∧ Says.fetchResp ∧ Says.fetchRetryTimer ∧ Says.fetchTimeout ∧ Says.romInit ∧ Says.integDecide ∧ Says.norInit ∧ Says.rootLoad ∧
        Says.deviceidDerive ∧ Says.spindleVerify ∧ Says.aliasDerive ∧ Says.recoveryEnter ∧ Says.spindleInit ∧ Says.configApply ∧ Says.rovingStart ∧
        Says.custodyInit ∧ Says.ringStart

/-- Carding of a die. MEASURE puts a die in WAIT_READY with its slot; an accepted MEASURED takes it to KEYING; NOT_READY is noted; KEY_INSTALLED
holds the release for the mirror; a key failure measures again the first time and rejects the second; a timeout rejects with BUSY; a notice stops
this instance's own carding; a rejected die is measured again on RECARD. Forms said to complete: .cardNodePresent, .measured, .notReady,
.keyInstalled, .keyFailed, .cardRetryTimer, .cardTimeout, .cardKeyTimeout, .cardTakeoverTimer, .cardNotice, .recard. -/
def Obligations.CardingMoves : Prop :=
  Says.cardNodePresent ∧ Says.measured ∧ Says.notReady ∧ Says.keyInstalled ∧ Says.keyFailed ∧ Says.cardRetryTimer ∧ Says.cardTimeout ∧
        Says.cardKeyTimeout ∧ Says.cardTakeoverTimer ∧ Says.cardNotice ∧ Says.recard

/-- Cores, watchdogs and the SRAM patrol. A failure of the Spindle pair, its watchdog, or an uncorrectable Spindle word ends the instance in HELD
with its event last in the AON buffer; a kick restarts the count; CODE_WP locks CODE_TOP; a refused access answers with the error response; an
uncorrectable Roving word is poisoned; a fence cause takes a RUNNING core to FENCING with its cause while two more run; the end of fencing is FENCED,
RESTART is taken three times, and the release counts it. Forms said to complete: .lockstepMismatch, .spindleSramUncorrectable, .spindleWdtExpire,
.spindleWdtKick, .codeWp, .spindleCodeFault, .coreAccessFault, .sramPatrol, .rovingCoreFence, .rovingWdtExpire, .rovingWdtKick, .coreFence,
.fencingDone, .coreRestart, .coreResetRelease. -/
def Obligations.CoreFailuresAndFences : Prop :=
  Says.lockstepMismatch ∧ Says.spindleSramUncorrectable ∧ Says.spindleWdtExpire ∧ Says.spindleWdtKick ∧ Says.codeWp ∧ Says.spindleCodeFault ∧
        Says.coreAccessFault ∧ Says.sramPatrol ∧ Says.rovingCoreFence ∧ Says.rovingWdtExpire ∧ Says.rovingWdtKick ∧ Says.coreFence ∧ Says.fencingDone
        ∧ Says.coreRestart ∧ Says.coreResetRelease

/-- Power of the Crypto groups. An off group not disabled wakes and takes the sequencer to ACTIVE; a waking group becomes ON with the PLL locked; a
first PLL timeout is tried again and the second ends the instance; an idle group under AUTO_GATE goes off; with no group on the PLL stops and the
sequencer returns to SERVICE; FORCE_ON is set. Forms said to complete: .cryptoGroupWake, .cryptoGroupReady, .cryptoPllTimeout, .groupIdlePowerOff,
.cryptoPllHoldExpire, .pwrForceOn. -/
def Obligations.CryptoGroupPower : Prop :=
  Says.cryptoGroupWake ∧ Says.cryptoGroupReady ∧ Says.cryptoPllTimeout ∧ Says.groupIdlePowerOff ∧ Says.cryptoPllHoldExpire ∧ Says.pwrForceOn

/-- Mailboxes and their locks. A read of the lock of a FREE mailbox by an eligible reader takes it and answers 0, any other read answers the owner (0
to the owner itself); data is taken from the party whose turn it is and otherwise refused with DENIED; GO makes a LOCKED mailbox FULL and a FULL one
REPLIED, BAD_ARG outside 1 to 16 words; RELEASE and FORCE free the mailbox; a lock timeout frees LOCKED and REPLIED but not FULL; an announced core
is answered OK; a notice fills MBS 6 + c. Forms said to complete: .mbLockRead, .mbDataWrite, .mbGo, .mbRelease, .mbForce, .mbLockTimeout, .coreHello,
.serviceCallComplete. -/
def Obligations.MailboxMoves : Prop :=
  Says.mbLockRead ∧ Says.mbDataWrite ∧ Says.mbGo ∧ Says.mbRelease ∧ Says.mbForce ∧ Says.mbLockTimeout ∧ Says.coreHello ∧ Says.serviceCallComplete

/-- Register writes, events drained, resources and life-cycle requests. A write that the table does not grant is refused; the wake time is taken when
its high word is written; EVENTS_DRAIN takes the oldest records, or is refused with NO_CONSENT while a hank exists and no consent opens tracing;
GRANT gives the lowest free resource; RELEASE of a resource not held is DENIED; sleep is DENIED while a hank exists; a life-cycle request that passes
its checks is PENDING. Forms said to complete: .registerWrite, .eventsDrain, .grant, .release, .sleepRequest, .lcRequest. -/
def Obligations.ServiceCallAnswers : Prop :=
  Says.registerWrite ∧ Says.eventsDrain ∧ Says.grant ∧ Says.release ∧ Says.sleepRequest ∧ Says.lcRequest

/-- Descriptors of the crypto channels. A descriptor offered at HEAD that passes its checks is taken in ring order: while its engine group is off it
waits in flight and the group is needed; once the group is on and its source key fits, its unit starts on a lane with the result of its operation;
TAIL is clamped to the ring; a unit that ends leaves the channel. Forms said to complete: .cryChTailWrite, .cryptoOpComplete, .mldsaKeygen,
.mldsaSign, .mldsaVerify, .mlkemKeygen, .mlkemEncaps, .mlkemDecaps, .ntt, .eccKeygen, .ecdsaSign, .ecdsaVerify, .ecdh, .kmac, .gcmEnc, .gcmDec, .ctr,
.kwWrap, .kwUnwrap, .keyRandom, .keyErase, .keyDistaff, .keyLoad, .random. -/
def Obligations.CryptoEngines : Prop :=
  Says.cryChTailWrite ∧ Says.cryptoOpComplete ∧ Says.mldsaKeygen ∧ Says.mldsaSign ∧ Says.mldsaVerify ∧ Says.mlkemKeygen ∧ Says.mlkemEncaps ∧
        Says.mlkemDecaps ∧ Says.ntt ∧ Says.eccKeygen ∧ Says.ecdsaSign ∧ Says.ecdsaVerify ∧ Says.ecdh ∧ Says.kmac ∧ Says.gcmEnc ∧ Says.gcmDec ∧
        Says.ctr ∧ Says.kwWrap ∧ Says.kwUnwrap ∧ Says.keyRandom ∧ Says.keyErase ∧ Says.keyDistaff ∧ Says.keyLoad ∧ Says.random

/-- Digest contexts and the Tally engine. OPEN gives a FREE context to its requester with no bytes received; FINAL short of LEN ends in LENGTH_SHORT,
of an ABSORBED context in its result; CLOSE erases; a feed by the configured feeder is appended and any other is an intrusion; a read of the result
walks its words, and before it exists answers 0 with EARLY_READ; an accumulation opens with zero sums, takes one ADD of an owner not yet received,
counts it, and fails on an unreadable contribution; ABORT and RELEASE free it. Forms said to complete: .dgtOpen, .dgtFinal, .dgtClose, .dgtFeed,
.digestAbsorbed, .dgtResultRead, .tlyOpen, .tlyAdd, .tlyAddDone, .tlyAbort, .tlyRelease, .tlyDigestRead. -/
def Obligations.DigestsAndTally : Prop :=
  Says.dgtOpen ∧ Says.dgtFinal ∧ Says.dgtClose ∧ Says.dgtFeed ∧ Says.digestAbsorbed ∧ Says.dgtResultRead ∧ Says.tlyOpen ∧ Says.tlyAdd ∧
        Says.tlyAddDone ∧ Says.tlyAbort ∧ Says.tlyRelease ∧ Says.tlyDigestRead

/-- Lane tests, entropy sources and the DRBG. A first health failure of a source starts its retest, a second within its window fails it, and with
both sources gone the instance ends; a passed retest returns the source; a calibration needs the other source; a second DRBG failure ends the
instance; a requested test drains its lane; the drained lane is tested, returns when it passes and fails when not, and the last lane's failure ends
the instance; a lane fault starts a test. Forms said to complete: .entropyHealthFail, .entropyRetestDone, .entropyCalibrate, .drbgKatFail,
.selftestRequest, .selftestPeriodic, .laneDrained, .laneTestDone, .laneFault. -/
def Obligations.LanesAndEntropy : Prop :=
  Says.entropyHealthFail ∧ Says.entropyRetestDone ∧ Says.entropyCalibrate ∧ Says.drbgKatFail ∧ Says.selftestRequest ∧ Says.selftestPeriodic ∧
        Says.laneDrained ∧ Says.laneTestDone ∧ Says.laneFault

/-- Refused accesses and the ring's registers. An access of wrong size, alignment or range gets the error response; a refused access gets it with
event 0x1601 and one that is granted is no such command; RETRAIN loses both locks; RING_EN is written, and clearing it drops the locks; PREKEY
clears; SKN_BRIDGEn takes its value. Forms said to complete: .fabricAccessError, .pageAccessRefused, .retrain, .ringEn, .prekeyClear,
.sknBridgeWrite. -/
def Obligations.RingAccesses : Prop :=
  Says.fabricAccessError ∧ Says.pageAccessRefused ∧ Says.retrain ∧ Says.ringEn ∧ Says.prekeyClear ∧ Says.sknBridgeWrite

/-- Frames that arrive and are acknowledged. A node that is down or not enabled takes no frame; one whose header check fails changes nothing of the
ring; its own frame is dropped, one for another node is sent on; in pre-key mode a frame of another type is dropped, one of a pre-key type is
delivered; the window of tag failures starts again; an acknowledgement releases its held frame; a timeout resends a held frame or gives it up; the
lease holder takes a forwarded event. Forms said to complete: .skeinFrameReceive, .authFailWindowEnd, .ringAck, .ringAckTimeout, .eventFwd. -/
def Obligations.RingFramesIn : Prop :=
  Says.skeinFrameReceive ∧ Says.authFailWindowEnd ∧ Says.ringAck ∧ Says.ringAckTimeout ∧ Says.eventFwd

/-- Splices, breaks and mended segments. A break notice puts the break in force, a mended one clears it; SPLICE_FORCE of the lease holder to this
node sets and clears the force; the closed bypass of this node retrains, a neighbour whose bypass closed leaves the ring; a retrained segment bridges
a retraining node and restores the lock at its end; a ready node that is not forced raises its hold. Forms said to complete: .ringState,
.spliceForce, .spliceClose, .segmentRetrained, .nodeReady. -/
def Obligations.SpliceAndBreaks : Prop :=
  Says.ringState ∧ Says.spliceForce ∧ Says.spliceClose ∧ Says.segmentRetrained ∧ Says.nodeReady

/-- Markers, corrections and alignment. A master with its markers enabled sends one in each direction; a marker that is good, foreign and from the
direction in use makes its sender the master in force, one from the other direction is only sent on; the corrections due step the time forward or
hold it; 64 slots without a marker leave the alignment, 64 without a report the cross-package alignment; a report sets the offset; WHL_TIME_LO
latches the high word. Forms said to complete: .markerEmit, .markerReceive, .slotBoundaryCorrection, .markerTimeout, .xpkgTimeReport,
.xpkgReportTimeout, .whlTimeRead. -/
def Obligations.WhorlAlignment : Prop :=
  Says.markerEmit ∧ Says.markerReceive ∧ Says.slotBoundaryCorrection ∧ Says.markerTimeout ∧ Says.xpkgTimeReport ∧ Says.xpkgReportTimeout ∧
        Says.whlTimeRead

/-- Launches from their schedule to their end. SCHEDULE answers the first refusal of R210 or takes the entry for the launch, SCHEDULED; CANCEL before
the horizon cancels, after it answers STALE_EPOCH, of a FREE entry BAD_ARG; FREE frees an ended entry; the horizon closes, the final point sets
FINAL, slot L fires the earliest entry of its slot, the end of the grace ends it; repeats broadcast again. Forms said to complete: .schedule,
.whlCancel, .whlFree, .launchHorizon, .launchFinalPoint, .launchFire, .launchGraceEnd, .launchRepeat, .launchCancelRepeat, .launchRequest,
.launchCancel. -/
def Obligations.LaunchLife : Prop :=
  Says.schedule ∧ Says.whlCancel ∧ Says.whlFree ∧ Says.launchHorizon ∧ Says.launchFinalPoint ∧ Says.launchFire ∧ Says.launchGraceEnd ∧
        Says.launchRepeat ∧ Says.launchCancelRepeat ∧ Says.launchRequest ∧ Says.launchCancel

/-- The JTAG port and its debug modules. BYPASS, IDCODE and SAMPLE_PRELOAD select their register in every state and the first two shift out a zero
bit and the identity; a Roving debug module answers whether its core is halted and halts it under BREAK_ROV; the Spindle module lets the pair run on;
OTP_PORT and LC_PORT shift out what the last scan named and take the new name; ENT_RAW shifts out 32 raw samples and takes the source. Forms said to
complete: .bypass, .idcode, .samplePreload, .dtmRov, .dtmSpn, .otpPort, .lcPort, .entRaw. -/
def Obligations.JtagPort : Prop :=
  Says.bypass ∧ Says.idcode ∧ Says.samplePreload ∧ Says.dtmRov ∧ Says.dtmSpn ∧ Says.otpPort ∧ Says.lcPort ∧ Says.entRaw

/-- Debug of the Roving cores. Under BREAK_ROV a running core halts on a halt request or at its breakpoint, which names itself, while two others run;
without it the request ends in NO_CONSENT; a step leaves a halted core halted and a resume lets it run; clearing BREAK_ROV lets every core run,
clearing TRACE_ROV erases what the granted sources hold, clearing CNT_ROV the sample buffers. Forms said to complete: .halt, .dbgStep, .dbgResume,
.breakpointMatch, .breakRovClear, .traceRovClear, .cntRovClear. -/
def Obligations.CoreDebug : Prop :=
  Says.halt ∧ Says.dbgStep ∧ Says.dbgResume ∧ Says.breakpointMatch ∧ Says.breakRovClear ∧ Says.traceRovClear ∧ Says.cntRovClear

/-- Trace sources, counters, Noil rings and the logs' reads. ARM arms a recording source of MODE 1; a trigger that is due and SW_TRIG fire an armed
one, with its POST; a flush, and 4,096 slots with a held record, pad a source to a multiple of eight records and keep those it held; a read of a
trace port, a sample port, a counter or the Noil ring answers the next word and moves on; a sample adds a record to each group with room; FREEZE
stops the Noil rings with its cause, UNFREEZE empties them; a word of Spindle's record is kept until eight have come; a read of a log by Spindle
moves one word on. Forms said to complete: .traceArm, .traceTrigger, .swTrig, .traceFlush, .traceHoldTimer, .tracePortRead, .counterSample,
.samplePortRead, .counterRead, .noilFreeze, .unfreeze, .noilDataRead, .dbgSpnTraceWrite, .genEvtDataRead, .genAevDataRead, .softwareRecord. -/
def Obligations.TraceAndCounters : Prop :=
  Says.traceArm ∧ Says.traceTrigger ∧ Says.swTrig ∧ Says.traceFlush ∧ Says.traceHoldTimer ∧ Says.tracePortRead ∧ Says.counterSample ∧
        Says.samplePortRead ∧ Says.counterRead ∧ Says.noilFreeze ∧ Says.unfreeze ∧ Says.noilDataRead ∧ Says.dbgSpnTraceWrite ∧ Says.genEvtDataRead ∧
        Says.genAevDataRead ∧ Says.softwareRecord

/-- DMA channels and their descriptors. A tail within the ring is taken; an owned descriptor that fails its check is written back and the head moves
on, one that passes starts the channel; a descriptor whose OWN is 0 is read again; a software request on every line counts; PAUSE is written and a
running channel pauses; a pausing one with nothing to drain is paused; ABORT ends a paused one's descriptor; the cause of a fault is cleared with the
channel; a parity error puts the channel alone in FAULT; EN enables an idle channel. Forms said to complete: .dmaChTailWrite, .dmaOwnPoll, .copy,
.fill, .gather, .scatter, .dmaRequestLine, .dmaDescriptorDone, .dmaSwreq, .dmaPause, .dmaPauseDrained, .dmaAbort, .dmaBusError, .dmaRelease,
.dmaClear, .dmaParityError, .dmaChannelEnable. -/
def Obligations.DmaChannels : Prop :=
  Says.dmaChTailWrite ∧ Says.dmaOwnPoll ∧ Says.copy ∧ Says.fill ∧ Says.gather ∧ Says.scatter ∧ Says.dmaRequestLine ∧ Says.dmaDescriptorDone ∧
        Says.dmaSwreq ∧ Says.dmaPause ∧ Says.dmaPauseDrained ∧ Says.dmaAbort ∧ Says.dmaBusError ∧ Says.dmaRelease ∧ Says.dmaClear ∧
        Says.dmaParityError ∧ Says.dmaChannelEnable

/-- Tree roots and the reports of inline engines. A root update that names a WORSTED Bobbin of its channel with a higher version is accepted and
another discarded; the patrol corrects a single-bit error and starts the repair of another; a repaired root holds the partner's copy in a pair and is
lost in HX4; a report is acted on by the lead, passed to it over the link, or held for it. Forms said to complete: .rootUpdate, .rootStorePatrol,
.rootRepairDone, .faultReport, .complexResetAnnounce, .boundaryReport, .peerEpochReport. -/
def Obligations.TreesAndReports : Prop :=
  Says.rootUpdate ∧ Says.rootStorePatrol ∧ Says.rootRepairDone ∧ Says.faultReport ∧ Says.complexResetAnnounce ∧ Says.boundaryReport ∧
        Says.peerEpochReport

/-- The Twist fold unit. A batch from a die that is not carded is logged and changes no chain; a fold of a hank takes its oldest 32 records from the
intake; SEAL ends an open segment and begins the next; a read of the head returns one of its twelve words and moves on; a receipt signed completes
its step. Forms said to complete: .twistBatch, .twistFold, .seal, .twistLogWriteError, .twistHeadRead, .receiptSigned. -/
def Obligations.TwistUnit : Prop :=
  Says.twistBatch ∧ Says.twistFold ∧ Says.seal ∧ Says.twistLogWriteError ∧ Says.twistHeadRead ∧ Says.receiptSigned

/-- The Ply link: training, frames, heartbeats, mirror and relay. LINK_EN is written; training erases the link's keys and numbers and sends HELLO; a
HELLO of equal sides ends the authentication with no lease; a frame whose check fails is counted and asked for again; a NAK sends again the frames
from the one it names; a heartbeat of the partner is noted with its state; a partner is declared lost at the ninth slot without one; an
acknowledgement frees what the mirror held up to it; a relayed frame waits on this instance's channel; the answer to none and the timeout of none
change nothing. Forms said to complete: .linkEn, .plyRetrain, .hello, .auth, .plyFrameCheckFail, .linkNak, .heartbeatSend, .plyHeartbeat,
.partnerLost, .mirrorAckTimeout, .mirror, .mirrorAck, .relay, .relayAns, .relayAnswerTimeout, .resyncReq, .resyncData, .resyncComplete. -/
def Obligations.PlyLink : Prop :=
  Says.linkEn ∧ Says.plyRetrain ∧ Says.hello ∧ Says.auth ∧ Says.plyFrameCheckFail ∧ Says.linkNak ∧ Says.heartbeatSend ∧ Says.plyHeartbeat ∧
        Says.partnerLost ∧ Says.mirrorAckTimeout ∧ Says.mirror ∧ Says.mirrorAck ∧ Says.relay ∧ Says.relayAns ∧ Says.relayAnswerTimeout ∧
        Says.resyncReq ∧ Says.resyncData ∧ Says.resyncComplete

/-- The lease: candidates, grants, promotion, handover and sleep. A fresh follow that receives HANDOVER, having applied the mirror up to it, becomes
the successor; a follow that receives SLEEP answers it and requests sleep, the lead that receives the answer waits; a grant with the lease's number
from a die is kept; a lead renews every 1,024 slots; a lead below its quorum is lost; a candidate asks again every 64 slots, becomes stale at its
limit and lead when R431 holds; START_EMPTY outside LINKING is ignored; a handover that may not start ends in BUSY, one that may stands; a handover
ends 16 slots after its frame. Forms said to complete: .handoverFrame, .sleepFrame, .sleepAck, .leaseGrant, .leaseRenew, .leaseExpiryMargin,
.takeoverRepeat, .candidateTimeout, .promote, .pairWaitExpire, .startEmpty, .handover, .handoverTimeout, .sleepHs, .handoverComplete. -/
def Obligations.PlyLease : Prop :=
  Says.handoverFrame ∧ Says.sleepFrame ∧ Says.sleepAck ∧ Says.leaseGrant ∧ Says.leaseRenew ∧ Says.leaseExpiryMargin ∧ Says.takeoverRepeat ∧
        Says.candidateTimeout ∧ Says.promote ∧ Says.pairWaitExpire ∧ Says.startEmpty ∧ Says.handover ∧ Says.handoverTimeout ∧ Says.sleepHs ∧
        Says.handoverComplete

/-- Commands of the Bobbin ring. A ring write takes its index when it is inside the ring; a command that is not taken changes nothing; one that is
taken advances the head of the ring and is in flight under its tag; on one Bobbin that admits it CREATE makes the Bobbin, RESUME restarts it at the
epoch named, CANCEL discards the pending key, ARM arms it, FREEZE freezes it, DESTROY frees it, READ writes its record to Spindle SRAM. Forms said to
complete: .bobCqTailWrite, .bobCplHeadWrite, .create, .derive, .importCmd, .commit, .arm, .cancel, .freeze, .destroy, .resume, .historic, .bobRead,
.fenceCommand. -/
def Obligations.CustodyRing : Prop :=
  Says.bobCqTailWrite ∧ Says.bobCplHeadWrite ∧ Says.create ∧ Says.derive ∧ Says.importCmd ∧ Says.commit ∧ Says.arm ∧ Says.cancel ∧ Says.freeze ∧
        Says.destroy ∧ Says.resume ∧ Says.historic ∧ Says.bobRead ∧ Says.fenceCommand

/-- Custody's frames, journal and patrols. A key request that finds no Bobbin is answered at once; an answer on a channel takes its frame off it; a
frame that fails its check or is not answered is sent again once; the acknowledgement of a ring key is noted; a limit report sets LIMIT_HIT; a good
page program leaves the page empty, a bad one counts and writes again at the next page; the sector erased is ready; what waited 100 ms for a sector
is refused; an uncorrectable record is noted and repaired; the masks of the cache change and its entries stay; a flush drops what is not pinned;
BOB_WARP_CLEAR returns channels to OK; the deadline's notices are given once. Forms said to complete: .keyReq, .blobLoadDone, .katDone, .warpAck,
.warpFrameCrcFail, .warpAnswerTimeout, .keyPushAck, .limitReport, .journalProgramDone, .journalSectorEraseDone, .journalSectorWaitTimeout,
.bobbinRecordUncorrectable, .cacheRemask, .dstCacheFlush, .bobWarpClear, .deadlineNear, .deadlinePassed. -/
def Obligations.CustodyEvents : Prop :=
  Says.keyReq ∧ Says.blobLoadDone ∧ Says.katDone ∧ Says.warpAck ∧ Says.warpFrameCrcFail ∧ Says.warpAnswerTimeout ∧ Says.keyPushAck ∧ Says.limitReport
        ∧ Says.journalProgramDone ∧ Says.journalSectorEraseDone ∧ Says.journalSectorWaitTimeout ∧ Says.bobbinRecordUncorrectable ∧ Says.cacheRemask ∧
        Says.dstCacheFlush ∧ Says.bobWarpClear ∧ Says.deadlineNear ∧ Says.deadlinePassed

/-- Hanks, owner objects and consents. A body that comes by its call is answered with the status its checks give, PENDING when it waits for
endorsements; an endorsement is answered with what its own checks give; an object whose expiry has passed is dropped; KEYING ends LIVE once every
Bobbin of the hank is enabled; TEARING ends with the hank gone once its record is durable; a consent ends with its end slot; a scrub result that
checks is the die's reference; a scrub not answered is taken off; a held reply leaves at its slot. Forms said to complete: .hankCreate,
.hankTeardown, .ceremonyShare, .consent, .withdrawObject, .strandSet, .ownerEndorsement, .objectExpiry, .hankKeying, .hankTearing, .consentEndSlot,
.scrubDigest, .scrubTimeout, .quietReplyRelease. -/
def Obligations.HankObjects : Prop :=
  Says.hankCreate ∧ Says.hankTeardown ∧ Says.ceremonyShare ∧ Says.consent ∧ Says.withdrawObject ∧ Says.strandSet ∧ Says.ownerEndorsement ∧
        Says.objectExpiry ∧ Says.hankKeying ∧ Says.hankTearing ∧ Says.consentEndSlot ∧ Says.scrubDigest ∧ Says.scrubTimeout ∧ Says.quietReplyRelease

/-- The calls and signatures of attestation. SNAPSHOT_GET answers OK with the snapshot, DENIED without one; SIGN_REPORT answers STALE_EPOCH for a
generation it does not hold and PENDING for a payload that is the snapshot's; SIGN_SPDM is PENDING with its entry in the queue; SESSION_KEYS names
the session as the host channel's; a report signed leaves the queue and takes the next number. Forms said to complete: .snapshotGet, .signReport,
.signSpdm, .sessionKeys, .reportSigned. -/
def Obligations.AttestationCalls : Prop :=
  Says.snapshotGet ∧ Says.signReport ∧ Says.signSpdm ∧ Says.sessionKeys ∧ Says.reportSigned

/-- The SPDM requests and sessions. A request that nothing refuses is answered as Table 12.7 says: GET_VERSION, GET_CAPABILITIES and
NEGOTIATE_ALGORITHMS with their tables and the next stage; GET_DIGESTS, GET_CERTIFICATE and CHALLENGE with the chain or ERROR when it cannot be read;
GET_MEASUREMENTS with the number of blocks; KEY_EXCHANGE makes a session and asks for its signature; FINISH establishes it or ends it; HEARTBEAT and
KEY_UPDATE answer; END_SESSION and the two expiries end the session. A request refused gets the ERROR of R336. Forms said to complete: .getVersion,
.getCapabilities, .negotiateAlgorithms, .getDigests, .getCertificate, .challenge, .getMeasurements, .keyExchange, .finish, .heartbeat, .keyUpdate,
.endSession, .sessionExpire, .orphanSessionExpire. -/
def Obligations.SpdmRequests : Prop :=
  Says.getVersion ∧ Says.getCapabilities ∧ Says.negotiateAlgorithms ∧ Says.getDigests ∧ Says.getCertificate ∧ Says.challenge ∧ Says.getMeasurements ∧
        Says.keyExchange ∧ Says.finish ∧ Says.heartbeat ∧ Says.keyUpdate ∧ Says.endSession ∧ Says.sessionExpire ∧ Says.orphanSessionExpire

/-- The vendor-defined requests. A vendor-defined request that nothing refuses is answered as Table 12.8 says: a body of another length gets BAD_ARG;
GET_CHAIN gives the clamp report, HYBRID_SIG queues its signature, KEM_OFFER makes a numbered offer, GET_REPORT queues a report, GET_TWIST_HEAD gives
the head of the hank, REBIND and owner objects need a session, a portion is kept until its object is whole, GET_LEAKAGE gives the table. Forms said
to complete: .getChain, .hybridSig, .kemOffer, .getReport, .getReceipt, .getTwistHead, .rebind, .getLeakage, .ownerObjectPortion. -/
def Obligations.VendorRequests : Prop :=
  Says.getChain ∧ Says.hybridSig ∧ Says.kemOffer ∧ Says.getReport ∧ Says.getReceipt ∧ Says.getTwistHead ∧ Says.rebind ∧ Says.getLeakage ∧
        Says.ownerObjectPortion

/-- The service port and the update commands. A WRITE is taken while SVC_RDY_N is low and discards an unread response; a READ gives the response,
BUSY without one; a frame at the port is taken and answered: HELLO with the identification, QUERY with the state of the session, BEGIN opens a
session, a PIECE is staged, CHECK starts and ends, ABORT ends the session, ACTIVATE starts the loader, whose steps follow, RESTORE and RESET serve
recovery, CONFIRM is taken; the background erase goes on sector by sector. Forms said to complete: .svcWrite, .svcRead, .updateHello, .updBegin,
.updPiece, .updQuery, .updCheck, .checkComplete, .updActivate, .loaderActivation, .updRestore, .abort, .updConfirm, .updateReset, .stagingEraseDone.
-/
def Obligations.ServicePort : Prop :=
  Says.svcWrite ∧ Says.svcRead ∧ Says.updateHello ∧ Says.updBegin ∧ Says.updPiece ∧ Says.updQuery ∧ Says.updCheck ∧ Says.checkComplete ∧
        Says.updActivate ∧ Says.loaderActivation ∧ Says.updRestore ∧ Says.abort ∧ Says.updConfirm ∧ Says.updateReset ∧ Says.stagingEraseDone
end

