-- ==== Sys2Proof/Laws/Bits.lean ====
section
/-!
SUPPORT. Laws of bit fields and little-endian bytes (R6): reading a field back, fields apart from each other, lengths.
-/

namespace Sys2Proof.Machine

/-- The mask has exactly the bits `lo` to `hi`. -/
theorem getLsbD_wmask (hi lo i : Nat) (h : i < 32) : (wmask hi lo).getLsbD i = (decide (lo ≤ i) && decide (i ≤ hi)) := by
  unfold wmask
  simp only [BitVec.getLsbD_shiftLeft, BitVec.getLsbD_setWidth, BitVec.getLsbD_allOnes, h, decide_true, Bool.true_and]
  rw [Bool.eq_iff_iff]
  simp only [Bool.and_eq_true, Bool.not_eq_true', decide_eq_false_iff_not, decide_eq_true_eq]
  omega

/-- Inside the field the new value's bits, outside the old ones. -/
theorem getLsbD_wset (hi lo v : Nat) (w : Word) (i : Nat) (h : i < 32) :
    (wset hi lo v w).getLsbD i = if lo ≤ i ∧ i ≤ hi then v.testBit (i - lo) else w.getLsbD i := by
  unfold wset
  rw [BitVec.getLsbD_or, BitVec.getLsbD_and, BitVec.getLsbD_and, BitVec.getLsbD_not, getLsbD_wmask _ _ _ h, BitVec.getLsbD_shiftLeft,
    BitVec.getLsbD_ofNat]
  have h3 : i - lo < 32 := by omega
  by_cases hc : lo ≤ i ∧ i ≤ hi
  · have h4 : ¬ i < lo := by omega
    rw [if_pos hc]; simp [h, h3, h4, hc.1, hc.2]
  · rw [if_neg hc]
    have h5 : (decide (lo ≤ i) && decide (i ≤ hi)) = false := by
      rw [Bool.eq_false_iff]; simp only [ne_eq, Bool.and_eq_true, decide_eq_true_eq]; exact hc
    rw [h5]; simp [h]

/-- A field reads back what was written to it, cut to its width. -/
theorem wget_wset (hi lo v : Nat) (w : Word) (h1 : lo ≤ hi) (h2 : hi < 32) : wget hi lo (wset hi lo v w) = v % 2 ^ (hi + 1 - lo) := by
  apply Nat.eq_of_testBit_eq
  intro i
  unfold wget
  rw [BitVec.testBit_toNat, BitVec.getLsbD_extractLsb', Nat.testBit_mod_two_pow]
  by_cases h : i < hi + 1 - lo
  · rw [getLsbD_wset _ _ _ _ _ (by omega)]
    have : lo ≤ lo + i ∧ lo + i ≤ hi := by omega
    simp [h, this]
  · simp [h]

/-- Writing one field leaves another that shares no bit with it. -/
theorem wget_wset_other (hi lo hi' lo' v : Nat) (w : Word) (h2 : hi < 32) (h : hi < lo' ∨ hi' < lo) :
    wget hi lo (wset hi' lo' v w) = wget hi lo w := by
  apply Nat.eq_of_testBit_eq
  intro i
  unfold wget
  rw [BitVec.testBit_toNat, BitVec.testBit_toNat, BitVec.getLsbD_extractLsb', BitVec.getLsbD_extractLsb']
  by_cases h3 : i < hi + 1 - lo
  · rw [getLsbD_wset _ _ _ _ _ (by omega)]
    have : ¬ (lo' ≤ lo + i ∧ lo + i ≤ hi') := by omega
    simp [this]
  · simp [h3]

/-- A field is smaller than two to its width. -/
theorem wget_lt (hi lo : Nat) (w : Word) : wget hi lo w < 2 ^ (hi + 1 - lo) := by
  unfold wget; exact BitVec.isLt _

@[simp] theorem length_le (n v : Nat) : (le n v).length = n := by
  induction n generalizing v with
  | zero => rfl
  | succ n ih => simp [le, ih]

/-- A number written in `n` bytes reads back cut to them. -/
theorem ofLe_le (n v : Nat) : ofLe (le n v) = v % 256 ^ n := by
  induction n generalizing v with
  | zero => simp [le, ofLe, Nat.mod_one]
  | succ n ih =>
    have h : (BitVec.ofNat 8 v).toNat = v % 256 := by rw [BitVec.toNat_ofNat]
    rw [le, ofLe, ih, h, pow_succ, Nat.mul_comm (256 ^ n) 256, Nat.mod_mul]

@[simp] theorem length_padTo (n : Nat) (bs : List Byte) : (padTo n bs).length = n := by
  simp [padTo]; omega

@[simp] theorem length_slice (bs : List Byte) (p n : Nat) : (slice bs p n).length = n := by simp [slice]

@[simp] theorem b2n_true : b2n true = 1 := rfl
@[simp] theorem b2n_false : b2n false = 0 := rfl

end Sys2Proof.Machine
end

