-- ==== Sys2Proof/Laws/Tab.lean ====
section
/-!
SUPPORT. Laws of tables keyed by a number: reading back, other keys, the rising order kept.
-/

namespace Sys2Proof.Machine

variable {α : Type}

@[simp] theorem tget?_nil (k : Nat) : tget? ([] : Tab α) k = none := rfl

theorem tget?_cons (e : Nat × α) (t : Tab α) (k : Nat) : tget? (e :: t) k = if e.1 = k then some e.2 else tget? t k := rfl

/-- An entry put at a key reads back; other keys read as before. -/
theorem tget?_tput (t : Tab α) (k j : Nat) (v : α) : tget? (tput t k v) j = if j = k then some v else tget? t j := by
  induction t with
  | nil => simp only [tput, tget?]; split <;> rename_i h <;> simp [eq_comm, h]
  | cons e t ih =>
    simp only [tput]
    by_cases h1 : k < e.1
    · rw [if_pos h1, tget?_cons]
      by_cases h2 : j = k
      · simp [h2]
      · rw [if_neg (Ne.symm h2), if_neg h2]
    · rw [if_neg h1]
      by_cases h3 : e.1 = k
      · rw [if_pos h3, tget?_cons, tget?_cons]
        by_cases h2 : j = k
        · simp [h2]
        · have : e.1 ≠ j := by omega
          simp [h2, Ne.symm h2, this]
      · rw [if_neg h3, tget?_cons, tget?_cons, ih]
        by_cases h2 : j = k
        · subst h2; simp [h3]
        · simp [h2]

/-- An entry taken out is gone; other keys read as before. -/
theorem tget?_tdel (t : Tab α) (k j : Nat) : tget? (tdel t k) j = if j = k then none else tget? t j := by
  induction t with
  | nil => simp [tdel, tget?]
  | cons e t ih =>
    have ih' : tget? (t.filter (fun e => e.1 != k)) j = if j = k then none else tget? t j := ih
    simp only [tdel, List.filter_cons]
    by_cases h1 : e.1 = k
    · have : (e.1 != k) = false := by simp [h1]
      rw [this, if_neg (by simp), ih', tget?_cons]
      by_cases h2 : j = k
      · simp [h2]
      · have : e.1 ≠ j := by omega
        simp [h2, this]
    · have : (e.1 != k) = true := by simp [h1]
      rw [this, if_pos rfl, tget?_cons, tget?_cons, ih']
      by_cases h2 : j = k
      · subst h2; simp [h1]
      · simp [h2]

/-- A filter by key keeps what it lets through. -/
theorem tget?_filter (t : Tab α) (p : Nat → Bool) (j : Nat) :
    tget? (t.filter (fun e => p e.1)) j = if p j then tget? t j else none := by
  induction t with
  | nil => simp [tget?]
  | cons e t ih =>
    rw [List.filter_cons]
    by_cases h1 : p e.1 = true
    · rw [if_pos h1, tget?_cons, tget?_cons, ih]
      by_cases h2 : e.1 = j
      · subst h2; simp [h1]
      · simp [h2]
    · rw [if_neg h1, ih, tget?_cons]
      by_cases h2 : e.1 = j
      · subst h2; simp [h1]
      · simp [h2]

theorem Tab.sorted_cons (e : Nat × α) (t : Tab α) : Tab.sorted (e :: t) = true ↔ (∀ f ∈ t, e.1 < f.1) ∧ Tab.sorted t = true := by
  induction t generalizing e with
  | nil => simp [Tab.sorted]
  | cons f t ih =>
    simp only [Tab.sorted, Bool.and_eq_true, decide_eq_true_eq]
    constructor
    · rintro ⟨h, hs⟩
      refine ⟨?_, hs⟩
      intro g hg
      rcases List.mem_cons.mp hg with rfl | hg
      · exact h
      · exact Nat.lt_trans h ((ih f).mp hs |>.1 g hg)
    · rintro ⟨h, hs⟩
      exact ⟨h f (by simp), hs⟩

theorem mem_tput (t : Tab α) (k : Nat) (v : α) (e : Nat × α) (h : e ∈ tput t k v) : e = (k, v) ∨ e ∈ t := by
  induction t with
  | nil => simp [tput] at h; exact Or.inl h
  | cons f t ih =>
    simp only [tput] at h
    split at h
    · rcases List.mem_cons.mp h with h | h
      · exact Or.inl h
      · exact Or.inr h
    · split at h
      · rcases List.mem_cons.mp h with h | h
        · exact Or.inl h
        · exact Or.inr (List.mem_cons_of_mem _ h)
      · rcases List.mem_cons.mp h with h | h
        · exact Or.inr (by simp [h])
        · rcases ih h with h | h
          · exact Or.inl h
          · exact Or.inr (List.mem_cons_of_mem _ h)

/-- Putting an entry keeps the keys rising. -/
theorem Tab.sorted_tput (t : Tab α) (k : Nat) (v : α) (h : Tab.sorted t = true) : Tab.sorted (tput t k v) = true := by
  induction t with
  | nil => rfl
  | cons e t ih =>
    obtain ⟨h1, h2⟩ := (Tab.sorted_cons e t).mp h
    simp only [tput]
    split
    · rename_i hk
      refine (Tab.sorted_cons _ _).mpr ⟨?_, h⟩
      intro f hf
      rcases List.mem_cons.mp hf with rfl | hf
      · exact hk
      · exact Nat.lt_trans hk (h1 f hf)
    · split
      · rename_i hk
        refine (Tab.sorted_cons _ _).mpr ⟨?_, h2⟩
        intro f hf; rw [← hk]; exact h1 f hf
      · refine (Tab.sorted_cons _ _).mpr ⟨?_, ih h2⟩
        intro f hf
        rcases mem_tput t k v f hf with rfl | hf
        · show e.1 < k; omega
        · exact h1 f hf

/-- A filter keeps the keys rising. -/
theorem Tab.sorted_filter (t : Tab α) (p : Nat × α → Bool) (h : Tab.sorted t = true) : Tab.sorted (t.filter p) = true := by
  induction t with
  | nil => rfl
  | cons e t ih =>
    obtain ⟨h1, h2⟩ := (Tab.sorted_cons e t).mp h
    rw [List.filter_cons]
    split
    · refine (Tab.sorted_cons _ _).mpr ⟨?_, ih h2⟩
      intro f hf; exact h1 f (List.mem_filter.mp hf).1
    · exact ih h2

/-- Taking an entry out keeps the keys rising. -/
theorem Tab.sorted_tdel (t : Tab α) (k : Nat) (h : Tab.sorted t = true) : Tab.sorted (tdel t k) = true := Tab.sorted_filter t _ h

end Sys2Proof.Machine
end

