-- ==== Sys2Proof/Laws/Regs.lean ====
section
/-!
SUPPORT. Laws of registers and fields (R513): what a write leaves in its register and that it leaves every other register.
-/

namespace Sys2Proof.Machine

/-- A register written reads back; every other reads as before. -/
theorem Chip.rd_wr (c : Chip) (off off' : Nat) (w : Word) : (c.wr off w).rd off' = if off' = off then w else c.rd off' := by
  unfold Chip.wr Chip.rd regPut
  by_cases h : w = regReset off
  · simp only [h, if_true, tget?_tdel]
    by_cases h2 : off' = off
    · simp [h2]
    · simp [h2]
  · simp only [h, if_false, tget?_tput]
    by_cases h2 : off' = off
    · simp [h2]
    · simp [h2]

@[simp] theorem Chip.rd_wr_same (c : Chip) (off : Nat) (w : Word) : (c.wr off w).rd off = w := by simp [Chip.rd_wr]

theorem Chip.rd_wr_other (c : Chip) (off off' : Nat) (w : Word) (h : off' ≠ off) : (c.wr off w).rd off' = c.rd off' := by
  simp [Chip.rd_wr, h]

/-- Registers reset in a range read as at reset; the others as before. -/
theorem Chip.rd_resetRegs (c : Chip) (a b off : Nat) :
    (c.resetRegs a b).rd off = if a ≤ off ∧ off < b then regReset off else c.rd off := by
  unfold Chip.resetRegs Chip.rd
  rw [tget?_filter c.regs (fun k => decide (k < a) || decide (b ≤ k))]
  by_cases h : a ≤ off ∧ off < b
  · have : (decide (off < a) || decide (b ≤ off)) = false := by
      rw [Bool.or_eq_false_iff]; constructor <;> simp <;> omega
    simp [this, h]
  · have : (decide (off < a) || decide (b ≤ off)) = true := by
      rw [Bool.or_eq_true]; simp only [decide_eq_true_eq]; omega
    simp [this, h]

/-- A field is well formed: its bits lie in a word. -/
def Fld.ok (f : Fld) : Bool := decide (f.lo ≤ f.hi) && decide (f.hi < 32)

/-- A field set reads back, cut to its width. -/
theorem Chip.geti_puti (c : Chip) (f : Fld) (i v : Nat) (h : f.ok = true) (hi : i < f.count) :
    (c.puti f i v).geti f i = v % 2 ^ (f.hi + 1 - f.lo) := by
  simp only [Fld.ok, Bool.and_eq_true, decide_eq_true_eq] at h
  unfold Chip.puti Chip.geti
  rw [if_pos hi, Chip.rd_wr_same, wget_wset _ _ _ _ h.1 h.2]

/-- Fields in different registers, or in different bits. -/
def Fld.apart (f g : Fld) (i j : Nat) : Bool := f.off i != g.off j || decide (f.hi < g.lo) || decide (g.hi < f.lo)

/-- A field set leaves a field apart from it. -/
theorem Chip.geti_puti_other (c : Chip) (f g : Fld) (i j v : Nat) (h : f.ok = true) (ha : f.apart g i j = true) :
    (c.puti g j v).geti f i = c.geti f i := by
  simp only [Fld.ok, Bool.and_eq_true, decide_eq_true_eq] at h
  simp only [Fld.apart, Bool.or_eq_true, bne_iff_ne, decide_eq_true_eq] at ha
  unfold Chip.puti Chip.geti
  split
  · rw [Chip.rd_wr]
    by_cases he : f.off i = g.off j
    · rw [if_pos he, wget_wset_other _ _ _ _ _ _ h.2 (by rcases ha with (h | h) | h <;> omega), he]
    · rw [if_neg he]
  · rfl

theorem Chip.get_put (c : Chip) (f : Fld) (v : Nat) (h : f.ok = true) (hi : 0 < f.count) : (c.put f v).get f = v % 2 ^ (f.hi + 1 - f.lo) :=
  Chip.geti_puti c f 0 v h hi

theorem Chip.get_put_other (c : Chip) (f g : Fld) (v : Nat) (h : f.ok = true) (ha : f.apart g 0 0 = true) : (c.put g v).get f = c.get f :=
  Chip.geti_puti_other c f g 0 0 v h ha

/-- A field keeps below two to its width. -/
theorem Chip.geti_lt (c : Chip) (f : Fld) (i : Nat) : c.geti f i < 2 ^ (f.hi + 1 - f.lo) := wget_lt _ _ _

end Sys2Proof.Machine
end

