-- ==== Sys2Proof/Laws/Touch.lean ====
section
/-!
SUPPORT. A calculus of frames: `Touch pm bm c d` says that from `c` to `d` at most the components of the set `pm` and the registers of the
set `bm` changed. The sets are numbers, one bit for each component and each row of the register table, so that Lean compares them at once.
-/

namespace Sys2Proof.Machine

/-- The bit of a component in a set of components. -/
def Part.ix (p : Part) : Nat :=
  match p with
  | .time => 0 | .free => 1 | .tx => 2 | .logs => 3 | .ring => 4 | .pins => 5 | .pwr => 6 | .sng => 7 | .dbg => 8 | .otp => 9 | .lcs => 10
  | .mem => 11 | .cores => 12 | .cfg => 13 | .boot => 14 | .card => 15 | .cust => 16 | .whl => 17 | .cry => 18 | .dma => 19 | .dmaStop => 20
  | .spdm => 21 | .hanks => 22 | .twist => 23 | .ply => 24 | .late => 25 | .upd => 26

/-- The key of a bank of registers: base, stride and count of the copies in one number. -/
def bankKey (base stride count : Nat) : Nat := base + 2 ^ 20 * stride + 2 ^ 40 * count

def bankIx0 (b : Nat) : Nat :=
  (bif Nat.blt b 0x1004 then (bif Nat.blt b 0x24 then (bif Nat.blt b 0x10 then (bif Nat.blt b 0x8 then (bif Nat.blt b 0x4 then 0
      else 1)
     else (bif Nat.blt b 0xc then 2
      else 3))
    else (bif Nat.blt b 0x18 then (bif Nat.blt b 0x14 then 4
      else 5)
     else (bif Nat.blt b 0x20 then 6
      else 7)))
   else (bif Nat.blt b 0x38 then (bif Nat.blt b 0x30 then (bif Nat.blt b 0x28 then 8
      else 9)
     else (bif Nat.blt b 0x34 then 10
      else 11))
    else (bif Nat.blt b 0x100 then (bif Nat.blt b 0x3c then 12
      else 13)
     else (bif Nat.blt b 0x1000 then 14
      else 15))))
  else (bif Nat.blt b 0x1028 then (bif Nat.blt b 0x1014 then (bif Nat.blt b 0x100c then (bif Nat.blt b 0x1008 then 16
      else 17)
     else (bif Nat.blt b 0x1010 then 18
      else 19))
    else (bif Nat.blt b 0x1020 then (bif Nat.blt b 0x1018 then 20
      else 21)
     else (bif Nat.blt b 0x1024 then 22
      else 23)))
   else (bif Nat.blt b 0x200c then (bif Nat.blt b 0x2004 then (bif Nat.blt b 0x2000 then 24
      else 25)
     else (bif Nat.blt b 0x2008 then 26
      else 27))
    else (bif Nat.blt b 0x2014 then (bif Nat.blt b 0x2010 then 28
      else 29)
     else (bif Nat.blt b 0x2018 then 30
      else 31)))))

def bankIx1 (b : Nat) : Nat :=
  (bif Nat.blt b 0x4014 then (bif Nat.blt b 0x3010 then (bif Nat.blt b 0x3000 then (bif Nat.blt b 0x2024 then (bif Nat.blt b 0x2020 then 32
      else 33)
     else (bif Nat.blt b 0x2030 then 34
      else 35))
    else (bif Nat.blt b 0x3008 then (bif Nat.blt b 0x3004 then 36
      else 37)
     else (bif Nat.blt b 0x300c then 38
      else 39)))
   else (bif Nat.blt b 0x4004 then (bif Nat.blt b 0x3034 then (bif Nat.blt b 0x3030 then 42
      else 40)
     else (bif Nat.blt b 0x4000 then 41
      else 43))
    else (bif Nat.blt b 0x400c then (bif Nat.blt b 0x4008 then 44
      else 45)
     else (bif Nat.blt b 0x4010 then 46
      else 47))))
  else (bif Nat.blt b 0x5010 then (bif Nat.blt b 0x5000 then (bif Nat.blt b 0x401c then (bif Nat.blt b 0x4018 then 48
      else 49)
     else (bif Nat.blt b 0x4028 then 51
      else 50))
    else (bif Nat.blt b 0x5008 then (bif Nat.blt b 0x5004 then 52
      else 53)
     else (bif Nat.blt b 0x500c then 54
      else 55)))
   else (bif Nat.blt b 0x5024 then (bif Nat.blt b 0x5018 then (bif Nat.blt b 0x5014 then 56
      else 57)
     else (bif Nat.blt b 0x5020 then 58
      else 59))
    else (bif Nat.blt b 0x502c then (bif Nat.blt b 0x5028 then 60
      else 61)
     else (bif Nat.blt b 0x5030 then 62
      else 63)))))

def bankIx2 (b : Nat) : Nat :=
  (bif Nat.blt b 0x6010 then (bif Nat.blt b 0x5114 then (bif Nat.blt b 0x5104 then (bif Nat.blt b 0x503c then (bif Nat.blt b 0x5038 then 64
      else 65)
     else (bif Nat.blt b 0x5100 then 66
      else 67))
    else (bif Nat.blt b 0x510c then (bif Nat.blt b 0x5108 then 68
      else 69)
     else (bif Nat.blt b 0x5110 then 70
      else 71)))
   else (bif Nat.blt b 0x5124 then (bif Nat.blt b 0x511c then (bif Nat.blt b 0x5118 then 72
      else 73)
     else (bif Nat.blt b 0x5120 then 74
      else 75))
    else (bif Nat.blt b 0x6000 then (bif Nat.blt b 0x5128 then 76
      else 77)
     else (bif Nat.blt b 0x6004 then 78
      else 79))))
  else (bif Nat.blt b 0x6038 then (bif Nat.blt b 0x6024 then (bif Nat.blt b 0x6018 then (bif Nat.blt b 0x6014 then 80
      else 81)
     else (bif Nat.blt b 0x6020 then 82
      else 83))
    else (bif Nat.blt b 0x6030 then (bif Nat.blt b 0x6028 then 84
      else 85)
     else (bif Nat.blt b 0x6034 then 86
      else 87)))
   else (bif Nat.blt b 0x700c then (bif Nat.blt b 0x7004 then (bif Nat.blt b 0x7000 then 88
      else 89)
     else (bif Nat.blt b 0x7008 then 90
      else 91))
    else (bif Nat.blt b 0x7014 then (bif Nat.blt b 0x7010 then 92
      else 93)
     else (bif Nat.blt b 0x7018 then 94
      else 95)))))

def bankIx3 (b : Nat) : Nat :=
  (bif Nat.blt b 0x9044 then (bif Nat.blt b 0x8000 then (bif Nat.blt b 0x7030 then (bif Nat.blt b 0x7028 then (bif Nat.blt b 0x7024 then 96
      else 97)
     else (bif Nat.blt b 0x702c then 98
      else 99))
    else (bif Nat.blt b 0x7038 then (bif Nat.blt b 0x7034 then 100
      else 101)
     else (bif Nat.blt b 0x703c then 102
      else 103)))
   else (bif Nat.blt b 0x804c then (bif Nat.blt b 0x8044 then (bif Nat.blt b 0x8040 then 104
      else 105)
     else (bif Nat.blt b 0x8048 then 106
      else 107))
    else (bif Nat.blt b 0x9000 then (bif Nat.blt b 0x8800 then 108
      else 109)
     else (bif Nat.blt b 0x9040 then 110
      else 111))))
  else (bif Nat.blt b 0xa004 then (bif Nat.blt b 0x9804 then (bif Nat.blt b 0x904c then (bif Nat.blt b 0x9048 then 112
      else 113)
     else (bif Nat.blt b 0x9800 then 114
      else 115))
    else (bif Nat.blt b 0x980c then (bif Nat.blt b 0x9808 then 116
      else 117)
     else (bif Nat.blt b 0xa000 then 118
      else 119)))
   else (bif Nat.blt b 0xa014 then (bif Nat.blt b 0xa00c then (bif Nat.blt b 0xa008 then 120
      else 121)
     else (bif Nat.blt b 0xa010 then 122
      else 123))
    else (bif Nat.blt b 0xa01c then (bif Nat.blt b 0xa018 then 124
      else 125)
     else (bif Nat.blt b 0xa020 then 126
      else 127)))))

def bankIx4 (b : Nat) : Nat :=
  (bif Nat.blt b 0xc00c then (bif Nat.blt b 0xa064 then (bif Nat.blt b 0xa040 then (bif Nat.blt b 0xa038 then (bif Nat.blt b 0xa034 then 128
      else 129)
     else (bif Nat.blt b 0xa03c then 130
      else 131))
    else (bif Nat.blt b 0xa054 then (bif Nat.blt b 0xa050 then 132
      else 133)
     else (bif Nat.blt b 0xa060 then 134
      else 135)))
   else (bif Nat.blt b 0xb040 then (bif Nat.blt b 0xb004 then (bif Nat.blt b 0xb000 then 136
      else 137)
     else (bif Nat.blt b 0xb008 then 138
      else 139))
    else (bif Nat.blt b 0xc004 then (bif Nat.blt b 0xc000 then 140
      else 141)
     else (bif Nat.blt b 0xc008 then 142
      else 143))))
  else (bif Nat.blt b 0xc110 then (bif Nat.blt b 0xc100 then (bif Nat.blt b 0xc014 then (bif Nat.blt b 0xc010 then 144
      else 145)
     else (bif Nat.blt b 0xc018 then 146
      else 147))
    else (bif Nat.blt b 0xc108 then (bif Nat.blt b 0xc104 then 148
      else 149)
     else (bif Nat.blt b 0xc10c then 150
      else 151)))
   else (bif Nat.blt b 0xd008 then (bif Nat.blt b 0xd000 then (bif Nat.blt b 0xc114 then 152
      else 153)
     else (bif Nat.blt b 0xd004 then 154
      else 155))
    else (bif Nat.blt b 0xd400 then (bif Nat.blt b 0xd00c then 156
      else 157)
     else (bif Nat.blt b 0xd800 then 158
      else 159)))))

def bankIx5 (b : Nat) : Nat :=
  (bif Nat.blt b 0xdc28 then (bif Nat.blt b 0xdc08 then (bif Nat.blt b 0xdbc4 then (bif Nat.blt b 0xd80c then (bif Nat.blt b 0xd808 then 160
      else 161)
     else (bif Nat.blt b 0xdbc0 then 162
      else 163))
    else (bif Nat.blt b 0xdc00 then (bif Nat.blt b 0xdbc8 then 164
      else 165)
     else (bif Nat.blt b 0xdc04 then 166
      else 167)))
   else (bif Nat.blt b 0xdc18 then (bif Nat.blt b 0xdc10 then (bif Nat.blt b 0xdc0c then 168
      else 169)
     else (bif Nat.blt b 0xdc14 then 170
      else 171))
    else (bif Nat.blt b 0xdc20 then (bif Nat.blt b 0xdc1c then 172
      else 173)
     else (bif Nat.blt b 0xdc24 then 174
      else 175))))
  else (bif Nat.blt b 0xe104 then (bif Nat.blt b 0xe008 then (bif Nat.blt b 0xe000 then (bif Nat.blt b 0xdc2c then 176
      else 177)
     else (bif Nat.blt b 0xe004 then 178
      else 179))
    else (bif Nat.blt b 0xe010 then (bif Nat.blt b 0xe00c then 180
      else 181)
     else (bif Nat.blt b 0xe100 then 182
      else 183)))
   else (bif Nat.blt b 0xe114 then (bif Nat.blt b 0xe10c then (bif Nat.blt b 0xe108 then 184
      else 185)
     else (bif Nat.blt b 0xe110 then 186
      else 187))
    else (bif Nat.blt b 0xe11c then (bif Nat.blt b 0xe118 then 188
      else 189)
     else (bif Nat.blt b 0xe120 then 190
      else 191)))))

def bankIx6 (b : Nat) : Nat :=
  (bif Nat.blt b 0xf110 then (bif Nat.blt b 0xf018 then (bif Nat.blt b 0xf008 then (bif Nat.blt b 0xf000 then (bif Nat.blt b 0xe128 then 192
      else 193)
     else (bif Nat.blt b 0xf004 then 194
      else 195))
    else (bif Nat.blt b 0xf010 then (bif Nat.blt b 0xf00c then 196
      else 197)
     else (bif Nat.blt b 0xf014 then 198
      else 199)))
   else (bif Nat.blt b 0xf100 then (bif Nat.blt b 0xf020 then (bif Nat.blt b 0xf01c then 200
      else 201)
     else (bif Nat.blt b 0xf024 then 202
      else 203))
    else (bif Nat.blt b 0xf108 then (bif Nat.blt b 0xf104 then 204
      else 205)
     else (bif Nat.blt b 0xf10c then 206
      else 207))))
  else (bif Nat.blt b 0xf130 then (bif Nat.blt b 0xf120 then (bif Nat.blt b 0xf118 then (bif Nat.blt b 0xf114 then 208
      else 209)
     else (bif Nat.blt b 0xf11c then 210
      else 211))
    else (bif Nat.blt b 0xf128 then (bif Nat.blt b 0xf124 then 212
      else 213)
     else (bif Nat.blt b 0xf12c then 214
      else 215)))
   else (bif Nat.blt b 0x10000 then (bif Nat.blt b 0xf138 then (bif Nat.blt b 0xf134 then 216
      else 217)
     else (bif Nat.blt b 0xf13c then 218
      else 219))
    else (bif Nat.blt b 0x10008 then (bif Nat.blt b 0x10004 then 220
      else 221)
     else (bif Nat.blt b 0x1000c then 222
      else 223)))))

def bankIx7 (b : Nat) : Nat :=
  (bif Nat.blt b 0x10408 then (bif Nat.blt b 0x10108 then (bif Nat.blt b 0x1001c then (bif Nat.blt b 0x10014 then 224
     else (bif Nat.blt b 0x10018 then 225
      else 226))
    else (bif Nat.blt b 0x10100 then 227
     else (bif Nat.blt b 0x10104 then 228
      else 229)))
   else (bif Nat.blt b 0x10114 then (bif Nat.blt b 0x1010c then 230
     else (bif Nat.blt b 0x10110 then 231
      else 232))
    else (bif Nat.blt b 0x10400 then 233
     else (bif Nat.blt b 0x10404 then 234
      else 235))))
  else (bif Nat.blt b 0x18004 then (bif Nat.blt b 0x11004 then (bif Nat.blt b 0x10800 then 236
     else (bif Nat.blt b 0x11000 then 237
      else 238))
    else (bif Nat.blt b 0x11008 then 239
     else (bif Nat.blt b 0x18000 then 240
      else 241)))
   else (bif Nat.blt b 0x18020 then (bif Nat.blt b 0x18008 then 242
     else (bif Nat.blt b 0x1800c then 243
      else 244))
    else (bif Nat.blt b 0x18060 then (bif Nat.blt b 0x18040 then 245
      else 246)
     else (bif Nat.blt b 0x18064 then 247
      else 248)))))

/-- The bit of the register that starts at an offset. -/
def bankIx (b : Nat) : Nat :=
  (bif Nat.blt b 0xa030 then (bif Nat.blt b 0x5034 then (bif Nat.blt b 0x201c then bankIx0 b
    else bankIx1 b)
   else (bif Nat.blt b 0x7020 then bankIx2 b
    else bankIx3 b))
  else (bif Nat.blt b 0xe124 then (bif Nat.blt b 0xd804 then bankIx4 b
    else bankIx5 b)
   else (bif Nat.blt b 0x10010 then bankIx6 b
    else bankIx7 b)))

def bankAt0 (i : Nat) : Nat :=
  (bif Nat.blt i 16 then (bif Nat.blt i 8 then (bif Nat.blt i 4 then (bif Nat.blt i 2 then (bif Nat.blt i 1 then 0x10000000000
      else 0x10000000004)
     else (bif Nat.blt i 3 then 0x10000000008
      else 0x1000000000c))
    else (bif Nat.blt i 6 then (bif Nat.blt i 5 then 0x10000000010
      else 0x10000000014)
     else (bif Nat.blt i 7 then 0x10000000018
      else 0x10000000020)))
   else (bif Nat.blt i 12 then (bif Nat.blt i 10 then (bif Nat.blt i 9 then 0x10000000024
      else 0x10000000028)
     else (bif Nat.blt i 11 then 0x10000000030
      else 0x10000000034))
    else (bif Nat.blt i 14 then (bif Nat.blt i 13 then 0x10000000038
      else 0x1000000003c)
     else (bif Nat.blt i 15 then 0x400000400100
      else 0x10000001000))))
  else (bif Nat.blt i 24 then (bif Nat.blt i 20 then (bif Nat.blt i 18 then (bif Nat.blt i 17 then 0x10000001004
      else 0x10000001008)
     else (bif Nat.blt i 19 then 0x1000000100c
      else 0x10000001010))
    else (bif Nat.blt i 22 then (bif Nat.blt i 21 then 0x10000001014
      else 0x10000001018)
     else (bif Nat.blt i 23 then 0x10000001020
      else 0x10000001024)))
   else (bif Nat.blt i 28 then (bif Nat.blt i 26 then (bif Nat.blt i 25 then 0x10000001028
      else 0x10000002000)
     else (bif Nat.blt i 27 then 0x10000002004
      else 0x10000002008))
    else (bif Nat.blt i 30 then (bif Nat.blt i 29 then 0x1000000200c
      else 0x10000002010)
     else (bif Nat.blt i 31 then 0x10000002014
      else 0x10000002018)))))

def bankAt1 (i : Nat) : Nat :=
  (bif Nat.blt i 48 then (bif Nat.blt i 40 then (bif Nat.blt i 36 then (bif Nat.blt i 34 then (bif Nat.blt i 33 then 0x1000000201c
      else 0x10000002020)
     else (bif Nat.blt i 35 then 0x10000002024
      else 0x40000402030))
    else (bif Nat.blt i 38 then (bif Nat.blt i 37 then 0x10000003000
      else 0x10000003004)
     else (bif Nat.blt i 39 then 0x10000003008
      else 0x1000000300c)))
   else (bif Nat.blt i 44 then (bif Nat.blt i 42 then (bif Nat.blt i 41 then 0x10000003030
      else 0x10000003034)
     else (bif Nat.blt i 43 then 0x80000403010
      else 0x10000004000))
    else (bif Nat.blt i 46 then (bif Nat.blt i 45 then 0x10000004004
      else 0x10000004008)
     else (bif Nat.blt i 47 then 0x1000000400c
      else 0x10000004010))))
  else (bif Nat.blt i 56 then (bif Nat.blt i 52 then (bif Nat.blt i 50 then (bif Nat.blt i 49 then 0x10000004014
      else 0x10000004018)
     else (bif Nat.blt i 51 then 0x10000004028
      else 0x3000040401c))
    else (bif Nat.blt i 54 then (bif Nat.blt i 53 then 0x10000005000
      else 0x10000005004)
     else (bif Nat.blt i 55 then 0x10000005008
      else 0x1000000500c)))
   else (bif Nat.blt i 60 then (bif Nat.blt i 58 then (bif Nat.blt i 57 then 0x10000005010
      else 0x10000005014)
     else (bif Nat.blt i 59 then 0x10000005018
      else 0x10000005020))
    else (bif Nat.blt i 62 then (bif Nat.blt i 61 then 0x10000005024
      else 0x10000005028)
     else (bif Nat.blt i 63 then 0x1000000502c
      else 0x10000005030)))))

def bankAt2 (i : Nat) : Nat :=
  (bif Nat.blt i 80 then (bif Nat.blt i 72 then (bif Nat.blt i 68 then (bif Nat.blt i 66 then (bif Nat.blt i 65 then 0x10000005034
      else 0x10000005038)
     else (bif Nat.blt i 67 then 0x1000000503c
      else 0x100004005100))
    else (bif Nat.blt i 70 then (bif Nat.blt i 69 then 0x100004005104
      else 0x100004005108)
     else (bif Nat.blt i 71 then 0x10000400510c
      else 0x100004005110)))
   else (bif Nat.blt i 76 then (bif Nat.blt i 74 then (bif Nat.blt i 73 then 0x100004005114
      else 0x100004005118)
     else (bif Nat.blt i 75 then 0x10000400511c
      else 0x100004005120))
    else (bif Nat.blt i 78 then (bif Nat.blt i 77 then 0x100004005124
      else 0x100004005128)
     else (bif Nat.blt i 79 then 0x10000006000
      else 0x10000006004))))
  else (bif Nat.blt i 88 then (bif Nat.blt i 84 then (bif Nat.blt i 82 then (bif Nat.blt i 81 then 0x10000006010
      else 0x10000006014)
     else (bif Nat.blt i 83 then 0x10000006018
      else 0x10000006020))
    else (bif Nat.blt i 86 then (bif Nat.blt i 85 then 0x10000006024
      else 0x10000006028)
     else (bif Nat.blt i 87 then 0x10000006030
      else 0x10000006034)))
   else (bif Nat.blt i 92 then (bif Nat.blt i 90 then (bif Nat.blt i 89 then 0x10000006038
      else 0x10000007000)
     else (bif Nat.blt i 91 then 0x10000007004
      else 0x10000007008))
    else (bif Nat.blt i 94 then (bif Nat.blt i 93 then 0x1000000700c
      else 0x10000007010)
     else (bif Nat.blt i 95 then 0x10000007014
      else 0x10000007018)))))

def bankAt3 (i : Nat) : Nat :=
  (bif Nat.blt i 112 then (bif Nat.blt i 104 then (bif Nat.blt i 100 then (bif Nat.blt i 98 then (bif Nat.blt i 97 then 0x10000007020
      else 0x10000007024)
     else (bif Nat.blt i 99 then 0x10000007028
      else 0x1000000702c))
    else (bif Nat.blt i 102 then (bif Nat.blt i 101 then 0x10000007030
      else 0x10000007034)
     else (bif Nat.blt i 103 then 0x10000007038
      else 0x1000000703c)))
   else (bif Nat.blt i 108 then (bif Nat.blt i 106 then (bif Nat.blt i 105 then 0x100008008000
      else 0x100008008040)
     else (bif Nat.blt i 107 then 0x100008008044
      else 0x100008008048))
    else (bif Nat.blt i 110 then (bif Nat.blt i 109 then 0x10000800804c
      else 0x10000008800)
     else (bif Nat.blt i 111 then 0x100008009000
      else 0x100008009040))))
  else (bif Nat.blt i 120 then (bif Nat.blt i 116 then (bif Nat.blt i 114 then (bif Nat.blt i 113 then 0x100008009044
      else 0x100008009048)
     else (bif Nat.blt i 115 then 0x10000800904c
      else 0x10000009800))
    else (bif Nat.blt i 118 then (bif Nat.blt i 117 then 0x10000009804
      else 0x10000009808)
     else (bif Nat.blt i 119 then 0x1000000980c
      else 0x1000000a000)))
   else (bif Nat.blt i 124 then (bif Nat.blt i 122 then (bif Nat.blt i 121 then 0x1000000a004
      else 0x1000000a008)
     else (bif Nat.blt i 123 then 0x1000000a00c
      else 0x1000000a010))
    else (bif Nat.blt i 126 then (bif Nat.blt i 125 then 0x1000000a014
      else 0x1000000a018)
     else (bif Nat.blt i 127 then 0x1000000a01c
      else 0x1000000a020)))))

def bankAt4 (i : Nat) : Nat :=
  (bif Nat.blt i 144 then (bif Nat.blt i 136 then (bif Nat.blt i 132 then (bif Nat.blt i 130 then (bif Nat.blt i 129 then 0x1000000a030
      else 0x1000000a034)
     else (bif Nat.blt i 131 then 0x1000000a038
      else 0x1000000a03c))
    else (bif Nat.blt i 134 then (bif Nat.blt i 133 then 0x1000000a040
      else 0x1000000a050)
     else (bif Nat.blt i 135 then 0x1000000a054
      else 0x1000000a060)))
   else (bif Nat.blt i 140 then (bif Nat.blt i 138 then (bif Nat.blt i 137 then 0x1000000a064
      else 0x1000000b000)
     else (bif Nat.blt i 139 then 0x1000000b004
      else 0x1000000b008))
    else (bif Nat.blt i 142 then (bif Nat.blt i 141 then 0x10000040b040
      else 0x1000000c000)
     else (bif Nat.blt i 143 then 0x1000000c004
      else 0x1000000c008))))
  else (bif Nat.blt i 152 then (bif Nat.blt i 148 then (bif Nat.blt i 146 then (bif Nat.blt i 145 then 0x1000000c00c
      else 0x1000000c010)
     else (bif Nat.blt i 147 then 0x1000000c014
      else 0x1000000c018))
    else (bif Nat.blt i 150 then (bif Nat.blt i 149 then 0x20000200c100
      else 0x20000200c104)
     else (bif Nat.blt i 151 then 0x20000200c108
      else 0x20000200c10c)))
   else (bif Nat.blt i 156 then (bif Nat.blt i 154 then (bif Nat.blt i 153 then 0x20000200c110
      else 0x20000200c114)
     else (bif Nat.blt i 155 then 0x40000100d000
      else 0x40000100d004))
    else (bif Nat.blt i 158 then (bif Nat.blt i 157 then 0x40000100d008
      else 0x40000100d00c)
     else (bif Nat.blt i 159 then 0x40000100d400
      else 0x1000000d800)))))

def bankAt5 (i : Nat) : Nat :=
  (bif Nat.blt i 176 then (bif Nat.blt i 168 then (bif Nat.blt i 164 then (bif Nat.blt i 162 then (bif Nat.blt i 161 then 0x1000000d804
      else 0x1000000d808)
     else (bif Nat.blt i 163 then 0x1000000d80c
      else 0x1000000dbc0))
    else (bif Nat.blt i 166 then (bif Nat.blt i 165 then 0x1000000dbc4
      else 0x1000000dbc8)
     else (bif Nat.blt i 167 then 0x10000400dc00
      else 0x10000400dc04)))
   else (bif Nat.blt i 172 then (bif Nat.blt i 170 then (bif Nat.blt i 169 then 0x10000400dc08
      else 0x10000400dc0c)
     else (bif Nat.blt i 171 then 0x10000400dc10
      else 0x10000400dc14))
    else (bif Nat.blt i 174 then (bif Nat.blt i 173 then 0x10000400dc18
      else 0x10000400dc1c)
     else (bif Nat.blt i 175 then 0x10000400dc20
      else 0x10000400dc24))))
  else (bif Nat.blt i 184 then (bif Nat.blt i 180 then (bif Nat.blt i 178 then (bif Nat.blt i 177 then 0x10000400dc28
      else 0x10000400dc2c)
     else (bif Nat.blt i 179 then 0x1000000e000
      else 0x1000000e004))
    else (bif Nat.blt i 182 then (bif Nat.blt i 181 then 0x1000000e008
      else 0x1000000e00c)
     else (bif Nat.blt i 183 then 0x1000000e010
      else 0x8000400e100)))
   else (bif Nat.blt i 188 then (bif Nat.blt i 186 then (bif Nat.blt i 185 then 0x8000400e104
      else 0x8000400e108)
     else (bif Nat.blt i 187 then 0x8000400e10c
      else 0x8000400e110))
    else (bif Nat.blt i 190 then (bif Nat.blt i 189 then 0x8000400e114
      else 0x8000400e118)
     else (bif Nat.blt i 191 then 0x8000400e11c
      else 0x8000400e120)))))

def bankAt6 (i : Nat) : Nat :=
  (bif Nat.blt i 208 then (bif Nat.blt i 200 then (bif Nat.blt i 196 then (bif Nat.blt i 194 then (bif Nat.blt i 193 then 0x8000400e124
      else 0x8000400e128)
     else (bif Nat.blt i 195 then 0x1000000f000
      else 0x1000000f004))
    else (bif Nat.blt i 198 then (bif Nat.blt i 197 then 0x1000000f008
      else 0x1000000f00c)
     else (bif Nat.blt i 199 then 0x1000000f010
      else 0x1000000f014)))
   else (bif Nat.blt i 204 then (bif Nat.blt i 202 then (bif Nat.blt i 201 then 0x1000000f018
      else 0x1000000f01c)
     else (bif Nat.blt i 203 then 0x1000000f020
      else 0x1000000f024))
    else (bif Nat.blt i 206 then (bif Nat.blt i 205 then 0x20000400f100
      else 0x20000400f104)
     else (bif Nat.blt i 207 then 0x20000400f108
      else 0x20000400f10c))))
  else (bif Nat.blt i 216 then (bif Nat.blt i 212 then (bif Nat.blt i 210 then (bif Nat.blt i 209 then 0x20000400f110
      else 0x20000400f114)
     else (bif Nat.blt i 211 then 0x20000400f118
      else 0x20000400f11c))
    else (bif Nat.blt i 214 then (bif Nat.blt i 213 then 0x20000400f120
      else 0x20000400f124)
     else (bif Nat.blt i 215 then 0x20000400f128
      else 0x20000400f12c)))
   else (bif Nat.blt i 220 then (bif Nat.blt i 218 then (bif Nat.blt i 217 then 0x20000400f130
      else 0x20000400f134)
     else (bif Nat.blt i 219 then 0x20000400f138
      else 0x20000400f13c))
    else (bif Nat.blt i 222 then (bif Nat.blt i 221 then 0x10000010000
      else 0x10000010004)
     else (bif Nat.blt i 223 then 0x10000010008
      else 0x1000001000c)))))

def bankAt7 (i : Nat) : Nat :=
  (bif Nat.blt i 240 then (bif Nat.blt i 232 then (bif Nat.blt i 228 then (bif Nat.blt i 226 then (bif Nat.blt i 225 then 0x10000010010
      else 0x10000010014)
     else (bif Nat.blt i 227 then 0x10000010018
      else 0x1000001001c))
    else (bif Nat.blt i 230 then (bif Nat.blt i 229 then 0x60002010100
      else 0x60002010104)
     else (bif Nat.blt i 231 then 0x60002010108
      else 0x6000201010c)))
   else (bif Nat.blt i 236 then (bif Nat.blt i 234 then (bif Nat.blt i 233 then 0x60002010110
      else 0x60002010114)
     else (bif Nat.blt i 235 then 0x110001010400
      else 0x110001010404))
    else (bif Nat.blt i 238 then (bif Nat.blt i 237 then 0x110001010408
      else 0x80001010800)
     else (bif Nat.blt i 239 then 0x400001011000
      else 0x400001011004))))
  else (bif Nat.blt i 248 then (bif Nat.blt i 244 then (bif Nat.blt i 242 then (bif Nat.blt i 241 then 0x400001011008
      else 0x10000018000)
     else (bif Nat.blt i 243 then 0x10000018004
      else 0x10000018008))
    else (bif Nat.blt i 246 then (bif Nat.blt i 245 then 0x1000001800c
      else 0x60000418020)
     else (bif Nat.blt i 247 then 0x60000418040
      else 0x40000818060)))
   else (bif Nat.blt i 252 then (bif Nat.blt i 250 then (bif Nat.blt i 249 then 0x40000818064
      else 0)
     else (bif Nat.blt i 251 then 0x8000000108000
      else 0x8000000109000))
    else (bif Nat.blt i 254 then (bif Nat.blt i 253 then 0x4000000105100
      else 0x400000010c100)
     else (bif Nat.blt i 255 then 0x400000010d000
      else 0x400000010dc00)))))

def bankAt8 (i : Nat) : Nat :=
  (bif Nat.blt i 258 then (bif Nat.blt i 257 then 0x800000010f100
   else 0xc00000110100)
  else (bif Nat.blt i 259 then 0x200000103010
   else 0x80000010b000))

/-- The key of the bank of a bit: the rows of the register table (bits 0 to 248), bit 249 standing for every register, and the windows of
mailbox data, launch entries, Crypto channels, Digest contexts, hank chains, DMA channels, debug cores, tokens and Distaff. -/
def bankAt (i : Nat) : Nat :=
  (bif Nat.blt i 128 then (bif Nat.blt i 64 then (bif Nat.blt i 32 then bankAt0 i
    else bankAt1 i)
   else (bif Nat.blt i 96 then bankAt2 i
    else bankAt3 i))
  else (bif Nat.blt i 192 then (bif Nat.blt i 160 then bankAt4 i
    else bankAt5 i)
   else (bif Nat.blt i 224 then bankAt6 i
    else (bif Nat.blt i 256 then bankAt7 i
     else bankAt8 i))))

/-- Does the bank of bit `i` hold the register at an offset? -/
def bankHolds (i off : Nat) : Bool := copyAt (bankAt i % 2 ^ 20) (bankAt i / 2 ^ 20 % 2 ^ 20) (bankAt i / 2 ^ 40) off

/-- Is the register at an offset in the set? -/
def covers (bm off : Nat) : Prop := bm.testBit 249 = true ∨ ∃ i, bm.testBit i = true ∧ bankHolds i off = true

/-- Is every register of the field in the set? -/
def hasField (bm : Nat) (f : Fld) : Bool :=
  bm.testBit 249 || (bm.testBit (bankIx f.base) && Nat.beq (bankAt (bankIx f.base)) (bankKey f.base f.stride f.count) &&
    (Nat.blt f.base (2 ^ 20) && Nat.blt f.stride (2 ^ 20)))

/-- Is the register at an offset, the first of its row, in the set? -/
def hasReg (bm off : Nat) : Bool := bm.testBit 249 || (bm.testBit (bankIx off) && bankHolds (bankIx off) off)

/-- Is window `i` in the set, and does it hold the `len` offsets from `lo`? -/
def hasWindow (bm i lo len : Nat) : Bool :=
  bm.testBit 249 || (bm.testBit i && Nat.beq (bankAt i) (bankKey lo 1 len) && Nat.blt lo (2 ^ 20))

/-- A set is part of another. -/
def sub (a b : Nat) : Bool := Nat.land a b == a

/-- At most the components of `pm` and the registers of `bm` changed. -/
def Touch (pm bm : Nat) (c d : Chip) : Prop :=
  (∀ p : Part, pm.testBit p.ix = true ∨ p.same c d) ∧ ∀ off, covers bm off ∨ d.rd off = c.rd off

theorem sub_bit {a b i : Nat} (h : sub a b = true) (ha : a.testBit i = true) : b.testBit i = true := by
  have h' : a &&& b = a := by simpa [sub] using h
  rw [← h', Nat.testBit_and] at ha
  exact (Bool.and_eq_true _ _ ▸ ha).2

theorem sub_trans {a b c : Nat} (h : sub a b = true) (k : sub b c = true) : sub a c = true := by
  have h' : a &&& b = a := by simpa [sub] using h
  have k' : b &&& c = b := by simpa [sub] using k
  have : a &&& c = a := by rw [← h', Nat.and_assoc, k']
  simpa [sub] using this

theorem covers_sub {a b off : Nat} (h : sub a b = true) (k : covers a off) : covers b off := by
  rcases k with k | ⟨i, k1, k2⟩
  · exact Or.inl (sub_bit h k)
  · exact Or.inr ⟨i, sub_bit h k1, k2⟩

theorem hasField_sub {a b : Nat} {f : Fld} (h : sub a b = true) (k : hasField a f = true) : hasField b f = true := by
  simp only [hasField, Bool.or_eq_true, Bool.and_eq_true] at k ⊢
  rcases k with k | k
  · exact Or.inl (sub_bit h k)
  · exact Or.inr ⟨⟨sub_bit h k.1.1, k.1.2⟩, k.2⟩

theorem hasWindow_sub {a b i lo len : Nat} (h : sub a b = true) (k : hasWindow a i lo len = true) : hasWindow b i lo len = true := by
  simp only [hasWindow, Bool.or_eq_true, Bool.and_eq_true] at k ⊢
  rcases k with k | k
  · exact Or.inl (sub_bit h k)
  · exact Or.inr ⟨⟨sub_bit h k.1.1, k.1.2⟩, k.2⟩

theorem bankKey_parts {a s n : Nat} (ha : a < 2 ^ 20) (hs : s < 2 ^ 20) :
    bankKey a s n % 2 ^ 20 = a ∧ bankKey a s n / 2 ^ 20 % 2 ^ 20 = s ∧ bankKey a s n / 2 ^ 40 = n := by
  unfold bankKey
  omega

theorem covers_field {bm i : Nat} {f : Fld} (h : hasField bm f = true) (hi : i < f.count) : covers bm (f.off i) := by
  simp only [hasField, Bool.or_eq_true, Bool.and_eq_true, Nat.blt_eq] at h
  rcases h with h | ⟨⟨h1, h2⟩, ha, hs⟩
  · exact Or.inl h
  · refine Or.inr ⟨_, h1, ?_⟩
    obtain ⟨e1, e2, e3⟩ := bankKey_parts (n := f.count) ha hs
    rw [bankHolds, Nat.eq_of_beq_eq_true h2, e1, e2, e3]
    simp only [copyAt, Fld.off]
    by_cases hs : f.stride = 0
    · simp [hs]
    · rw [if_neg hs]
      have h1 : f.base + f.stride * i - f.base = f.stride * i := by omega
      have h2 : f.stride * i / f.stride = i := Nat.mul_div_cancel_left _ (Nat.pos_of_ne_zero hs)
      simp [h1, h2, hi]

theorem covers_reg {bm off : Nat} (h : hasReg bm off = true) : covers bm off := by
  simp only [hasReg, Bool.or_eq_true, Bool.and_eq_true] at h
  rcases h with h | ⟨h1, h2⟩
  · exact Or.inl h
  · exact Or.inr ⟨_, h1, h2⟩

theorem covers_window {bm i lo len off : Nat} (h : hasWindow bm i lo len = true) (h1 : lo ≤ off) (h2 : off < lo + len) : covers bm off := by
  simp only [hasWindow, Bool.or_eq_true, Bool.and_eq_true, Nat.blt_eq] at h
  rcases h with h | ⟨⟨g1, g2⟩, ha⟩
  · exact Or.inl h
  · refine Or.inr ⟨_, g1, ?_⟩
    obtain ⟨e1, e2, e3⟩ := bankKey_parts (n := len) ha (show 1 < 2 ^ 20 by decide)
    rw [bankHolds, Nat.eq_of_beq_eq_true g2, e1, e2, e3]
    simp [copyAt, h1]; omega

variable {pm bm pm' bm' : Nat} {a c d e : Chip}

theorem Touch.refl : Touch pm bm a a := ⟨fun p => Or.inr (by cases p <;> rfl), fun _ => Or.inr rfl⟩

theorem Part.same_trans {p : Part} (h : p.same a c) (k : p.same c d) : p.same a d := by
  cases p <;> exact Eq.trans k h

theorem Touch.trans (h : Touch pm bm a c) (k : Touch pm bm c d) : Touch pm bm a d := by
  refine ⟨fun p => ?_, fun off => ?_⟩
  · rcases h.1 p with h1 | h1
    · exact Or.inl h1
    · rcases k.1 p with k1 | k1
      · exact Or.inl k1
      · exact Or.inr (Part.same_trans h1 k1)
  · rcases h.2 off with h1 | h1
    · exact Or.inl h1
    · rcases k.2 off with k1 | k1
      · exact Or.inl k1
      · exact Or.inr (k1.trans h1)

theorem Touch.mono (h : Touch pm' bm' c d) (hp : sub pm' pm = true) (hb : sub bm' bm = true) : Touch pm bm c d := by
  refine ⟨fun p => ?_, fun off => ?_⟩
  · rcases h.1 p with h1 | h1
    · exact Or.inl (sub_bit hp h1)
    · exact Or.inr h1
  · rcases h.2 off with h1 | h1
    · exact Or.inl (covers_sub hb h1)
    · exact Or.inr h1

/-- A function with a known frame at the end of a chain. -/
theorem Touch.step (k : Touch pm' bm' c d) (hp : sub pm' pm = true) (hb : sub bm' bm = true) (h : Touch pm bm a c) : Touch pm bm a d :=
  h.trans (k.mono hp hb)

/-- A chain proved up to `d` carries the rest. -/
theorem Touch.cut (h : Touch pm bm a d) (k : Touch pm bm a d → Touch pm bm a e) : Touch pm bm a e := k h

/-- A record update at the end of a chain: the registers as in `c`, every other component as in `c` or in the set. -/
theorem Touch.upd
    {x_time : Nat} {x_free : Nat} {x_tx : List Out} {x_logs : Logs} {x_ring : Ring} {x_pins : Pins} {x_pwr : Pwr} {x_sng : Sng}
    {x_dbg : Dbg} {x_otp : Otp} {x_lcs : Lcs} {x_mem : Mem} {x_cores : Cores} {x_cfg : Tab Nat} {x_boot : Boot} {x_card : Card}
    {x_cust : Cust} {x_whl : Whl} {x_cry : Cry} {x_dma : Tab DmaCh} {x_dmaStop : Nat} {x_spdm : Spdm} {x_hanks : Hanks}
    {x_twist : Twists} {x_ply : Ply} {x_late : List Late} {x_upd : Upd}
    (hp : ∀ p : Part, pm.testBit p.ix = true ∨ p.same c
      (Chip.mk c.regs x_time x_free x_tx x_logs x_ring x_pins x_pwr x_sng x_dbg x_otp x_lcs x_mem x_cores x_cfg
        x_boot x_card x_cust x_whl x_cry x_dma x_dmaStop x_spdm x_hanks x_twist x_ply x_late x_upd))
    (h : Touch pm bm a c) :
    Touch pm bm a
      (Chip.mk c.regs x_time x_free x_tx x_logs x_ring x_pins x_pwr x_sng x_dbg x_otp x_lcs x_mem x_cores x_cfg
        x_boot x_card x_cust x_whl x_cry x_dma x_dmaStop x_spdm x_hanks x_twist x_ply x_late x_upd) :=
  h.trans ⟨hp, fun _ => Or.inr rfl⟩

theorem Touch.wr {off : Nat} {w : Word} (hc : covers bm off) (h : Touch pm bm a c) : Touch pm bm a (c.wr off w) := by
  refine h.trans ⟨fun p => Or.inr (by cases p <;> rfl), fun o => ?_⟩
  by_cases ho : o = off
  · exact Or.inl (ho ▸ hc)
  · exact Or.inr (Chip.rd_wr_other _ _ _ _ ho)

theorem Touch.puti {f : Fld} {i v : Nat} (hf : hasField bm f = true) (h : Touch pm bm a c) : Touch pm bm a (c.puti f i v) := by
  unfold Chip.puti
  split
  · exact Touch.wr (covers_field hf ‹_›) h
  · exact h

theorem Touch.put {f : Fld} {v : Nat} (hf : hasField bm f = true) (h : Touch pm bm a c) : Touch pm bm a (c.put f v) := Touch.puti hf h

theorem Touch.addi {f : Fld} {i v : Nat} (hf : hasField bm f = true) (h : Touch pm bm a c) : Touch pm bm a (c.addi f i v) := Touch.puti hf h

theorem Touch.add {f : Fld} {v : Nat} (hf : hasField bm f = true) (h : Touch pm bm a c) : Touch pm bm a (c.add f v) := Touch.puti hf h

theorem Touch.wri {f : Fld} {i : Nat} {w : Word} (hf : hasField bm f = true) (h : Touch pm bm a c) : Touch pm bm a (c.wri f i w) := by
  unfold Chip.wri
  split
  · exact Touch.wr (covers_field hf ‹_›) h
  · exact h

theorem Touch.put64 {lo v : Nat} (h1 : covers bm lo) (h2 : covers bm (lo + 4)) (h : Touch pm bm a c) : Touch pm bm a (c.put64 lo v) :=
  Touch.wr h2 (Touch.wr h1 h)

/-- The field four bytes on: the high word of a pair. -/
def Fld.high (f : Fld) : Fld := { f with base := f.base + 4 }

theorem Touch.put64i {f : Fld} {i v : Nat} (h1 : hasField bm f = true) (h2 : hasField bm f.high = true) (h : Touch pm bm a c) :
    Touch pm bm a (c.put64i f i v) := by
  unfold Chip.put64i
  split
  · rename_i hi
    refine Touch.put64 (covers_field h1 hi) ?_ h
    have : f.off i + 4 = f.high.off i := by simp [Fld.off, Fld.high]; omega
    rw [this]; exact covers_field h2 hi
  · exact h

theorem Touch.resetRegs {x y : Nat} (hc : ∀ off, x ≤ off → off < y → covers bm off) (h : Touch pm bm a c) :
    Touch pm bm a (c.resetRegs x y) := by
  refine h.trans ⟨fun p => Or.inr (by cases p <;> rfl), fun o => ?_⟩
  by_cases ho : x ≤ o ∧ o < y
  · exact Or.inl (hc o ho.1 ho.2)
  · exact Or.inr (by rw [Chip.rd_resetRegs, if_neg ho])

/-- A window that holds the copies' registers. -/
theorem Touch.resetCopy {n k x y : Nat} (i lo len : Nat) (hw : hasWindow bm i lo len = true) (hx : n < k → lo ≤ x ∧ y ≤ lo + len)
    (h : Touch pm bm a c) : Touch pm bm a (c.resetCopy n k x y) := by
  unfold Chip.resetCopy
  split
  · rename_i hn
    obtain ⟨h1, h2⟩ := hx hn
    exact Touch.resetRegs (fun off g1 g2 => covers_window hw (by omega) (by omega)) h
  · exact h

theorem Touch.foldl {α : Type} {l : List α} {f : Chip → α → Chip} (hf : ∀ d i, Touch pm bm a d → Touch pm bm a (f d i)) (h : Touch pm bm a c) :
    Touch pm bm a (l.foldl f c) := by
  induction l generalizing c with
  | nil => exact h
  | cons x l ih => exact ih (hf _ _ h)

theorem Touch.foldl_fst {α β : Type} {l : List α} {s : Chip × β} {f : Chip × β → α → Chip × β}
    (hf : ∀ d i, Touch pm bm a d.1 → Touch pm bm a (f d i).1) (h : Touch pm bm a s.1) : Touch pm bm a (l.foldl f s).1 := by
  induction l generalizing s with
  | nil => exact h
  | cons x l ih => exact ih (hf _ _ h)

theorem Touch.each {α : Type} {l : List α} {f : Chip → α → Chip} (hf : ∀ d i, Touch pm bm a d → Touch pm bm a (f d i)) (h : Touch pm bm a c) :
    Touch pm bm a (c.each l f) := Touch.foldl hf h

theorem Touch.when {b : Bool} {f : Chip → Chip} (hf : ∀ d, Touch pm bm a d → Touch pm bm a (f d)) (h : Touch pm bm a c) :
    Touch pm bm a (c.when b f) := by
  unfold Chip.when
  split
  · exact hf _ h
  · exact h

theorem Touch.ite {p : Prop} [Decidable p] (h : Touch pm bm a c) (k : Touch pm bm a d) : Touch pm bm a (if p then c else d) := by
  split <;> assumption

end Sys2Proof.Machine
end

