-- ==== Sys2Proof/Laws/TouchOps.lean ====
section
/-! SUPPORT. What each function of Machine/Ops.lean can change: the two masks of `Touch` (Laws/Touch.lean), parts and banks of registers. -/

set_option linter.unreachableTactic false
set_option linter.unusedTactic false
set_option linter.tactic.unusedName false
set_option linter.unnecessarySeqFocus false
set_option linter.unusedVariables false
set_option Elab.async false

namespace Sys2Proof.Machine

theorem Chip.draw_touch (c : Chip) : Touch 0x2 0x0 c (Chip.draw c).2 := by
  unfold Chip.draw
  repeat' first
    | (with_reducible first | exact Touch.refl | assumption)
    | decide +kernel
    | (with_reducible apply Touch.upd) <;> first | (intro p; cases p <;> dsimp only [Part.same] <;> first | exact Or.inl (by decide +kernel) | exact Or.inr rfl) | (with_reducible first | exact Touch.refl | assumption) | split
    | split
    | (intro _; intros)
    | (clear_value *; split)

theorem Chip.drawBytes_touch (c : Chip) (n : Nat) : Touch 0x2 0x0 c (Chip.drawBytes c n).2 := by
  unfold Chip.drawBytes
  repeat' first
    | (with_reducible first | exact Touch.refl | assumption)
    | decide +kernel
    | (with_reducible apply Touch.upd) <;> first | (intro p; cases p <;> dsimp only [Part.same] <;> first | exact Or.inl (by decide +kernel) | exact Or.inr rfl) | (with_reducible first | exact Touch.refl | assumption) | split
    | split
    | (intro _; intros)
    | (clear_value *; split)

theorem Chip.send_touch (c : Chip) (o : Out) : Touch 0x4 0x0 c (Chip.send c o) := by
  unfold Chip.send
  repeat' first
    | (with_reducible first | exact Touch.refl | assumption)
    | decide +kernel
    | (with_reducible apply Touch.upd) <;> first | (intro p; cases p <;> dsimp only [Part.same] <;> first | exact Or.inl (by decide +kernel) | exact Or.inr rfl) | (with_reducible first | exact Touch.refl | assumption) | split
    | split
    | (intro _; intros)
    | (clear_value *; split)

theorem Chip.portReq_touch (c : Chip) (sec : Bool) (o : Out) : Touch 0x24 0x0 c (Chip.portReq c sec o) := by
  unfold Chip.portReq
  repeat' first
    | (with_reducible first | exact Touch.refl | assumption | apply Touch.step (Chip.send_touch ..))
    | decide +kernel
    | (with_reducible apply Touch.upd) <;> first | (intro p; cases p <;> dsimp only [Part.same] <;> first | exact Or.inl (by decide +kernel) | exact Or.inr rfl) | (with_reducible first | exact Touch.refl | assumption | apply Touch.step (Chip.send_touch ..)) | split
    | split
    | (intro _; intros)
    | (clear_value *; split)

theorem Chip.count_touch (c : Chip) (i n : Nat) : Touch 0x100 0x0 c (Chip.count c i n) := by
  unfold Chip.count
  repeat' first
    | (with_reducible first | exact Touch.refl | assumption)
    | decide +kernel
    | (with_reducible apply Touch.upd) <;> first | (intro p; cases p <;> dsimp only [Part.same] <;> first | exact Or.inl (by decide +kernel) | exact Or.inr rfl) | (with_reducible first | exact Touch.refl | assumption) | split
    | split
    | (intro _; intros)
    | (clear_value *; split)

theorem Chip.countReset_touch (c : Chip) (sel : Nat) (ok : Nat → Bool) : Touch 0x100 0x0 c (Chip.countReset c sel ok) := by
  unfold Chip.countReset
  repeat' first
    | (with_reducible first | exact Touch.refl | assumption)
    | decide +kernel
    | (with_reducible apply Touch.upd) <;> first | (intro p; cases p <;> dsimp only [Part.same] <;> first | exact Or.inl (by decide +kernel) | exact Or.inr rfl) | (with_reducible first | exact Touch.refl | assumption) | split
    | split
    | (intro _; intros)
    | (clear_value *; split)

theorem Chip.noil_touch (c : Chip) (unit code : Nat) (args : List Byte) : Touch 0x100 0x0 c (Chip.noil c unit code args) := by
  unfold Chip.noil
  repeat' first
    | (with_reducible first | exact Touch.refl | assumption)
    | decide +kernel
    | (with_reducible apply Touch.upd) <;> first | (intro p; cases p <;> dsimp only [Part.same] <;> first | exact Or.inl (by decide +kernel) | exact Or.inr rfl) | (with_reducible first | exact Touch.refl | assumption) | split
    | split
    | (intro _; intros)
    | (clear_value *; split)

theorem Chip.noilTrans_touch (c : Chip) (unit chapter table inst old new : Nat) : Touch 0x100 0x0 c (Chip.noilTrans c unit chapter table inst old new) := by
  unfold Chip.noilTrans
  repeat' first
    | (with_reducible first | exact Touch.refl | assumption | apply Touch.step (Chip.noil_touch ..))
    | decide +kernel
    | split
    | (intro _; intros)
    | (clear_value *; split)

theorem Chip.trSet_touch (c : Chip) (t : Nat) (s : TraceSrc) : Touch 0x100 0x0 c (Chip.trSet c t s) := by
  unfold Chip.trSet
  repeat' first
    | (with_reducible first | exact Touch.refl | assumption)
    | decide +kernel
    | (with_reducible apply Touch.upd) <;> first | (intro p; cases p <;> dsimp only [Part.same] <;> first | exact Or.inl (by decide +kernel) | exact Or.inr rfl) | (with_reducible first | exact Touch.refl | assumption) | split
    | split
    | (intro _; intros)
    | (clear_value *; split)

theorem Chip.trAdmit_touch (c : Chip) (t : Nat) (s : TraceSrc) (rec : List Byte) : Touch 0x100 0x80000000000000000000000000000000000000000000000000000000000 c (Chip.trAdmit c t s rec) := by
  unfold Chip.trAdmit
  repeat' first
    | (fail_if_no_progress extract_lets +onlyGivenNames x; first | (revert x; intro (x : Chip); refine Touch.cut (d := x) ?_ (fun hx => ?_); subst x; rotate_left; try clear_value x) | (revert x; intro (x : Chip × _); refine Touch.cut (d := x.1) ?_ (fun hx => ?_); subst x; rotate_left; try clear_value x) | skip)
    | (with_reducible first | exact Touch.refl | assumption | apply Touch.puti | apply Touch.step (Chip.trSet_touch ..))
    | decide +kernel
    | split
    | (intro _; intros)
    | (clear_value *; split)

theorem Chip.trDrop_touch (c : Chip) (t : Nat) (s : TraceSrc) : Touch 0x100 0x100000000000000000000000000000000000000000000000000000000000 c (Chip.trDrop c t s) := by
  unfold Chip.trDrop
  repeat' first
    | (with_reducible first | exact Touch.refl | assumption | apply Touch.addi | apply Touch.step (Chip.trSet_touch ..))
    | decide +kernel
    | split
    | (intro _; intros)
    | (clear_value *; split)

theorem Chip.traceOffer_touch (c : Chip) (t kind arg0 : Nat) (data : List Byte) : Touch 0x100 0x180000000000000000000000000000000000000000000000000000000000 c (Chip.traceOffer c t kind arg0 data).1 := by
  unfold Chip.traceOffer
  repeat' first
    | (fail_if_no_progress extract_lets +onlyGivenNames x; first | (revert x; intro (x : Chip); refine Touch.cut (d := x) ?_ (fun hx => ?_); subst x; rotate_left; try clear_value x) | (revert x; intro (x : Chip × _); refine Touch.cut (d := x.1) ?_ (fun hx => ?_); subst x; rotate_left; try clear_value x) | skip)
    | (with_reducible first | exact Touch.refl | assumption | apply Touch.step (Chip.trAdmit_touch ..) | apply Touch.step (Chip.trDrop_touch ..))
    | decide +kernel
    | split
    | (intro _; intros)
    | (clear_value *; split)

theorem Chip.sumBit_touch (c : Chip) (cls : Nat) : Touch 0x100 0x4 c (Chip.sumBit c cls) := by
  unfold Chip.sumBit
  repeat' first
    | (with_reducible first | exact Touch.refl | assumption | apply Touch.put)
    | decide +kernel
    | split
    | (intro _; intros)
    | (clear_value *; split)

theorem Chip.countEvent_touch (c : Chip) (code : Nat) (args : List Byte) : Touch 0x100 0x0 c (Chip.countEvent c code args) := by
  unfold Chip.countEvent
  repeat' first
    | (with_reducible first | exact Touch.refl | assumption | apply Touch.each | apply Touch.step (Chip.count_touch ..))
    | decide +kernel
    | split
    | (intro _; intros)
    | (clear_value *; split)

theorem Chip.logRec_touch (c : Chip) (r : EvRec) : Touch 0x108 0x4 c (Chip.logRec c r) := by
  unfold Chip.logRec
  repeat' first
    | (fail_if_no_progress extract_lets +onlyGivenNames x; first | (revert x; intro (x : Chip); refine Touch.cut (d := x) ?_ (fun hx => ?_); subst x; rotate_left; try clear_value x) | (revert x; intro (x : Chip × _); refine Touch.cut (d := x.1) ?_ (fun hx => ?_); subst x; rotate_left; try clear_value x) | skip)
    | (with_reducible first | exact Touch.refl | assumption | apply Touch.step (Chip.countEvent_touch ..) | apply Touch.step (Chip.noil_touch ..) | apply Touch.step (Chip.sumBit_touch ..))
    | decide +kernel
    | (with_reducible apply Touch.upd) <;> first | (intro p; cases p <;> dsimp only [Part.same] <;> first | exact Or.inl (by decide +kernel) | exact Or.inr rfl) | (with_reducible first | exact Touch.refl | assumption | apply Touch.step (Chip.countEvent_touch ..) | apply Touch.step (Chip.noil_touch ..) | apply Touch.step (Chip.sumBit_touch ..)) | split
    | split
    | (intro _; intros)
    | (clear_value *; split)

theorem Chip.noteLog_touch (c : Chip) (code key : Nat) : Touch 0x8 0x0 c (Chip.noteLog c code key) := by
  unfold Chip.noteLog
  repeat' first
    | (with_reducible first | exact Touch.refl | assumption)
    | decide +kernel
    | (with_reducible apply Touch.upd) <;> first | (intro p; cases p <;> dsimp only [Part.same] <;> first | exact Or.inl (by decide +kernel) | exact Or.inr rfl) | (with_reducible first | exact Touch.refl | assumption) | split
    | split
    | (intro _; intros)
    | (clear_value *; split)

theorem Chip.traceEvent_touch (c : Chip) (r : EvRec) : Touch 0x100 0x180000000000000000000000000000000000000000000000000000000000 c (Chip.traceEvent c r).1 := by
  unfold Chip.traceEvent
  repeat' first
    | (with_reducible first | exact Touch.refl | assumption | apply Touch.step (Chip.traceOffer_touch ..))
    | decide +kernel
    | split
    | (intro _; intros)
    | (clear_value *; split)

theorem Chip.logDrop_touch (c : Chip) (t : Nat) : Touch 0x108 0x180000000000000000000000000000000000000000000000000000000004 c (Chip.logDrop c t) := by
  unfold Chip.logDrop
  repeat' first
    | (fail_if_no_progress extract_lets +onlyGivenNames x; first | (revert x; intro (x : Chip); refine Touch.cut (d := x) ?_ (fun hx => ?_); subst x; rotate_left; try clear_value x) | (revert x; intro (x : Chip × _); refine Touch.cut (d := x.1) ?_ (fun hx => ?_); subst x; rotate_left; try clear_value x) | skip)
    | (with_reducible first | exact Touch.refl | assumption | apply Touch.step (Chip.logRec_touch ..) | apply Touch.step (Chip.noteLog_touch ..) | apply Touch.step (Chip.traceEvent_touch ..))
    | decide +kernel
    | split
    | (intro _; intros)
    | (clear_value *; split)

theorem Chip.trace_touch (c : Chip) (t kind arg0 : Nat) (data : List Byte) : Touch 0x108 0x180000000000000000000000000000000000000000000000000000000004 c (Chip.trace c t kind arg0 data) := by
  unfold Chip.trace
  repeat' first
    | (fail_if_no_progress extract_lets +onlyGivenNames x; first | (revert x; intro (x : Chip); refine Touch.cut (d := x) ?_ (fun hx => ?_); subst x; rotate_left; try clear_value x) | (revert x; intro (x : Chip × _); refine Touch.cut (d := x.1) ?_ (fun hx => ?_); subst x; rotate_left; try clear_value x) | skip)
    | (with_reducible first | exact Touch.refl | assumption | apply Touch.step (Chip.logDrop_touch ..) | apply Touch.step (Chip.traceOffer_touch ..))
    | decide +kernel
    | split
    | (intro _; intros)
    | (clear_value *; split)

theorem Chip.fire_touch (c : Chip) (t cause bp code : Nat) : Touch 0x108 0x180000000000000000000000000000000000000000000000000000000004 c (Chip.fire c t cause bp code) := by
  unfold Chip.fire
  repeat' first
    | (fail_if_no_progress extract_lets +onlyGivenNames x; first | (revert x; intro (x : Chip); refine Touch.cut (d := x) ?_ (fun hx => ?_); subst x; rotate_left; try clear_value x) | (revert x; intro (x : Chip × _); refine Touch.cut (d := x.1) ?_ (fun hx => ?_); subst x; rotate_left; try clear_value x) | skip)
    | (with_reducible first | exact Touch.refl | assumption | apply Touch.puti | apply Touch.step (Chip.logRec_touch ..) | apply Touch.step (Chip.trSet_touch ..) | apply Touch.step (Chip.traceEvent_touch ..))
    | decide +kernel
    | split
    | (intro _; intros)
    | (clear_value *; split)

theorem Chip.fireEvent_touch (c : Chip) (unit code : Nat) : Touch 0x108 0x180000000000000000000000000000000000000000000000000000000004 c (Chip.fireEvent c unit code) := by
  unfold Chip.fireEvent
  repeat' first
    | (fail_if_no_progress extract_lets +onlyGivenNames x; first | (revert x; intro (x : Chip); refine Touch.cut (d := x) ?_ (fun hx => ?_); subst x; rotate_left; try clear_value x) | (revert x; intro (x : Chip × _); refine Touch.cut (d := x.1) ?_ (fun hx => ?_); subst x; rotate_left; try clear_value x) | skip)
    | (with_reducible first | exact Touch.refl | assumption | apply Touch.each | apply Touch.step (Chip.fire_touch ..))
    | decide +kernel
    | split
    | (intro _; intros)
    | (clear_value *; split)

theorem Chip.log_touch (c : Chip) (code unit : Nat) (args : List Byte) : Touch 0x108 0x180000000000000000000000000000000000000000000000000000000004 c (Chip.log c code unit args) := by
  unfold Chip.log
  repeat' first
    | (fail_if_no_progress extract_lets +onlyGivenNames x; first | (revert x; intro (x : Chip); refine Touch.cut (d := x) ?_ (fun hx => ?_); subst x; rotate_left; try clear_value x) | (revert x; intro (x : Chip × _); refine Touch.cut (d := x.1) ?_ (fun hx => ?_); subst x; rotate_left; try clear_value x) | skip)
    | (with_reducible first | exact Touch.refl | assumption | apply Touch.step (Chip.fireEvent_touch ..) | apply Touch.step (Chip.logDrop_touch ..) | apply Touch.step (Chip.logRec_touch ..) | apply Touch.step (Chip.traceEvent_touch ..))
    | decide +kernel
    | split
    | (intro _; intros)
    | (clear_value *; split)

theorem Chip.logOnce_touch (c : Chip) (code key unit : Nat) (args : List Byte) : Touch 0x108 0x180000000000000000000000000000000000000000000000000000000004 c (Chip.logOnce c code key unit args) := by
  unfold Chip.logOnce
  repeat' first
    | (with_reducible first | exact Touch.refl | assumption | apply Touch.step (Chip.log_touch ..) | apply Touch.step (Chip.noteLog_touch ..))
    | decide +kernel
    | split
    | (intro _; intros)
    | (clear_value *; split)

theorem Chip.logLost_touch (c : Chip) : Touch 0x108 0x180000000000000000000000000000000000000000000000000000000004 c (Chip.logLost c) := by
  unfold Chip.logLost
  repeat' first
    | (fail_if_no_progress extract_lets +onlyGivenNames x; first | (revert x; intro (x : Chip); refine Touch.cut (d := x) ?_ (fun hx => ?_); subst x; rotate_left; try clear_value x) | (revert x; intro (x : Chip × _); refine Touch.cut (d := x.1) ?_ (fun hx => ?_); subst x; rotate_left; try clear_value x) | skip)
    | (with_reducible first | exact Touch.refl | assumption | apply Touch.step (Chip.logRec_touch ..) | apply Touch.step (Chip.traceEvent_touch ..))
    | decide +kernel
    | (with_reducible apply Touch.upd) <;> first | (intro p; cases p <;> dsimp only [Part.same] <;> first | exact Or.inl (by decide +kernel) | exact Or.inr rfl) | (with_reducible first | exact Touch.refl | assumption | apply Touch.step (Chip.logRec_touch ..) | apply Touch.step (Chip.traceEvent_touch ..)) | split
    | split
    | (intro _; intros)
    | (clear_value *; split)

theorem Chip.setSeq_touch (c : Chip) (q : Seq) : Touch 0x108 0x180000000000000000000000000000000000000000000000000000010004 c (Chip.setSeq c q) := by
  unfold Chip.setSeq
  repeat' first
    | (fail_if_no_progress extract_lets +onlyGivenNames x; first | (revert x; intro (x : Chip); refine Touch.cut (d := x) ?_ (fun hx => ?_); subst x; rotate_left; try clear_value x) | (revert x; intro (x : Chip × _); refine Touch.cut (d := x.1) ?_ (fun hx => ?_); subst x; rotate_left; try clear_value x) | skip)
    | (with_reducible first | exact Touch.refl | assumption | apply Touch.put | apply Touch.step (Chip.noilTrans_touch ..) | apply Touch.step (Chip.trace_touch ..))
    | decide +kernel
    | split
    | (intro _; intros)
    | (clear_value *; split)

theorem Chip.setGrp_touch (c : Chip) (g st : Nat) : Touch 0x108 0x180000000000000000000000000000000000000000000000000000040004 c (Chip.setGrp c g st) := by
  unfold Chip.setGrp
  repeat' first
    | (fail_if_no_progress extract_lets +onlyGivenNames x; first | (revert x; intro (x : Chip); refine Touch.cut (d := x) ?_ (fun hx => ?_); subst x; rotate_left; try clear_value x) | (revert x; intro (x : Chip × _); refine Touch.cut (d := x.1) ?_ (fun hx => ?_); subst x; rotate_left; try clear_value x) | skip)
    | (with_reducible first | exact Touch.refl | assumption | apply Touch.put | apply Touch.when | apply Touch.step (Chip.count_touch ..) | apply Touch.step (Chip.noilTrans_touch ..) | apply Touch.step (Chip.trace_touch ..))
    | decide +kernel
    | split
    | (intro _; intros)
    | (clear_value *; split)

end Sys2Proof.Machine
end

