-- ==== Sys2Proof/Laws/TouchDrbg.lean ====
section
/-! SUPPORT. What each function of Machine/Drbg.lean can change: the two masks of `Touch` (Laws/Touch.lean), parts and banks of registers. -/

set_option linter.unreachableTactic false
set_option linter.unusedTactic false
set_option linter.tactic.unusedName false
set_option linter.unnecessarySeqFocus false
set_option linter.unusedVariables false
set_option Elab.async false

namespace Sys2Proof.Machine

theorem Chip.cr_touch (c : Chip) (f : Cry → Cry) : Touch 0x40000 0x0 c (Chip.cr c f) := by
  unfold Chip.cr
  repeat' first
    | (with_reducible first | exact Touch.refl | assumption)
    | decide +kernel
    | (with_reducible apply Touch.upd) <;> first | (intro p; cases p <;> dsimp only [Part.same] <;> first | exact Or.inl (by decide +kernel) | exact Or.inr rfl) | (with_reducible first | exact Touch.refl | assumption) | split
    | split
    | (intro _; intros)
    | (clear_value *; split)

theorem Chip.entSet_touch (c : Chip) (i st : Nat) : Touch 0x100 0x2000000000000000000000000000000000000 c (Chip.entSet c i st) := by
  unfold Chip.entSet
  repeat' first
    | (with_reducible first | exact Touch.refl | assumption | apply Touch.put)
    | decide +kernel
    | split
    | (intro _; intros)
    | (clear_value *; split)

theorem Chip.entSample_touch (c : Chip) : Touch 0x2 0x0 c (Chip.entSample c).2 := by
  unfold Chip.entSample
  repeat' first
    | (fail_if_no_progress extract_lets +onlyGivenNames x; first | (revert x; intro (x : Chip); refine Touch.cut (d := x) ?_ (fun hx => ?_); subst x; rotate_left; try clear_value x) | (revert x; intro (x : Chip × _); refine Touch.cut (d := x.1) ?_ (fun hx => ?_); subst x; rotate_left; try clear_value x) | (revert x; intro (x : _ × Chip); refine Touch.cut (d := x.2) ?_ (fun hx => ?_); subst x; rotate_left; try clear_value x) | (revert x; intro (x : _ × _ × Chip); refine Touch.cut (d := x.2.2) ?_ (fun hx => ?_); subst x; rotate_left; try clear_value x) | skip)
    | (with_reducible first | exact Touch.refl | assumption | apply Touch.step (Chip.drawBytes_touch ..))
    | decide +kernel
    | split
    | (intro _; intros)
    | (clear_value *; split)

theorem Chip.entBlock_touch (c : Chip) (i : Nat) : Touch 0x40002 0x0 c (Chip.entBlock c i).2 := by
  unfold Chip.entBlock
  repeat' first
    | (with_reducible first | exact Touch.refl | assumption | apply Touch.step (Chip.cr_touch ..) | apply Touch.step (Chip.entSample_touch ..))
    | decide +kernel
    | split
    | (intro _; intros)
    | (clear_value *; split)

theorem Chip.entFill_touch (c : Chip) : Touch 0x40002 0x0 c (Chip.entFill c) := by
  unfold Chip.entFill
  repeat' first
    | (fail_if_no_progress extract_lets +onlyGivenNames x; first | (revert x; intro (x : Chip); refine Touch.cut (d := x) ?_ (fun hx => ?_); subst x; rotate_left; try clear_value x) | (revert x; intro (x : Chip × _); refine Touch.cut (d := x.1) ?_ (fun hx => ?_); subst x; rotate_left; try clear_value x) | (revert x; intro (x : _ × Chip); refine Touch.cut (d := x.2) ?_ (fun hx => ?_); subst x; rotate_left; try clear_value x) | (revert x; intro (x : _ × _ × Chip); refine Touch.cut (d := x.2.2) ?_ (fun hx => ?_); subst x; rotate_left; try clear_value x) | skip)
    | (with_reducible first | exact Touch.refl | assumption | apply Touch.each | apply Touch.step (Chip.cr_touch ..) | apply Touch.step (Chip.entSample_touch ..))
    | decide +kernel
    | split
    | (intro _; intros)
    | (clear_value *; split)

theorem Chip.entInput_touch (c : Chip) : Touch 0x40002 0x0 c (Chip.entInput c).2 := by
  unfold Chip.entInput
  repeat' first
    | (fail_if_no_progress extract_lets +onlyGivenNames x; first | (revert x; intro (x : Chip); refine Touch.cut (d := x) ?_ (fun hx => ?_); subst x; rotate_left; try clear_value x) | (revert x; intro (x : Chip × _); refine Touch.cut (d := x.1) ?_ (fun hx => ?_); subst x; rotate_left; try clear_value x) | (revert x; intro (x : _ × Chip); refine Touch.cut (d := x.2) ?_ (fun hx => ?_); subst x; rotate_left; try clear_value x) | (revert x; intro (x : _ × _ × Chip); refine Touch.cut (d := x.2.2) ?_ (fun hx => ?_); subst x; rotate_left; try clear_value x) | skip)
    | (with_reducible first | exact Touch.refl | assumption | apply Touch.step (Chip.entBlock_touch ..))
    | decide +kernel
    | split
    | (intro _; intros)
    | (clear_value *; split)

theorem Chip.drbgSeeded_touch (c : Chip) (seed : List Byte) : Touch 0x40100 0x4000000000000000000000000000000000000 c (Chip.drbgSeeded c seed) := by
  unfold Chip.drbgSeeded
  repeat' first
    | (with_reducible first | exact Touch.refl | assumption | apply Touch.put | apply Touch.step (Chip.cr_touch ..))
    | decide +kernel
    | split
    | (intro _; intros)
    | (clear_value *; split)

theorem Chip.drbgSeed_touch (c : Chip) : Touch 0x40102 0x4000000000000000000000000000000000000 c (Chip.drbgSeed c) := by
  unfold Chip.drbgSeed
  repeat' first
    | (fail_if_no_progress extract_lets +onlyGivenNames x; first | (revert x; intro (x : Chip); refine Touch.cut (d := x) ?_ (fun hx => ?_); subst x; rotate_left; try clear_value x) | (revert x; intro (x : Chip × _); refine Touch.cut (d := x.1) ?_ (fun hx => ?_); subst x; rotate_left; try clear_value x) | (revert x; intro (x : _ × Chip); refine Touch.cut (d := x.2) ?_ (fun hx => ?_); subst x; rotate_left; try clear_value x) | (revert x; intro (x : _ × _ × Chip); refine Touch.cut (d := x.2.2) ?_ (fun hx => ?_); subst x; rotate_left; try clear_value x) | skip)
    | (with_reducible first | exact Touch.refl | assumption | apply Touch.step (Chip.drbgSeeded_touch ..) | apply Touch.step (Chip.entInput_touch ..))
    | decide +kernel
    | split
    | (intro _; intros)
    | (clear_value *; split)

theorem Chip.drbgStart_touch (c : Chip) : Touch 0x40102 0x4000000000000000000000000000000000000 c (Chip.drbgStart c) := by
  unfold Chip.drbgStart
  repeat' first
    | (fail_if_no_progress extract_lets +onlyGivenNames x; first | (revert x; intro (x : Chip); refine Touch.cut (d := x) ?_ (fun hx => ?_); subst x; rotate_left; try clear_value x) | (revert x; intro (x : Chip × _); refine Touch.cut (d := x.1) ?_ (fun hx => ?_); subst x; rotate_left; try clear_value x) | (revert x; intro (x : _ × Chip); refine Touch.cut (d := x.2) ?_ (fun hx => ?_); subst x; rotate_left; try clear_value x) | (revert x; intro (x : _ × _ × Chip); refine Touch.cut (d := x.2.2) ?_ (fun hx => ?_); subst x; rotate_left; try clear_value x) | skip)
    | (with_reducible first | exact Touch.refl | assumption | apply Touch.put | apply Touch.step (Chip.drbgSeeded_touch ..) | apply Touch.step (Chip.entInput_touch ..))
    | decide +kernel
    | split
    | (intro _; intros)
    | (clear_value *; split)

theorem Chip.drbgAgain_touch (c : Chip) : Touch 0x40102 0x4000000000000000000000000000000000000 c (Chip.drbgAgain c) := by
  unfold Chip.drbgAgain
  repeat' first
    | (with_reducible first | exact Touch.refl | assumption | apply Touch.step (Chip.cr_touch ..) | apply Touch.step (Chip.drbgStart_touch ..))
    | decide +kernel
    | split
    | (intro _; intros)
    | (clear_value *; split)

theorem Chip.rngReq_touch (c : Chip) (n : Nat) (pr : Bool) : Touch 0x40102 0x4000000000000000000000000000000000000 c (Chip.rngReq c n pr).2.2 := by
  unfold Chip.rngReq
  repeat' first
    | (fail_if_no_progress extract_lets +onlyGivenNames x; first | (revert x; intro (x : Chip); refine Touch.cut (d := x) ?_ (fun hx => ?_); subst x; rotate_left; try clear_value x) | (revert x; intro (x : Chip × _); refine Touch.cut (d := x.1) ?_ (fun hx => ?_); subst x; rotate_left; try clear_value x) | skip)
    | (with_reducible first | exact Touch.refl | assumption | apply Touch.add | apply Touch.put | apply Touch.step (Chip.count_touch ..) | apply Touch.step (Chip.cr_touch ..) | apply Touch.step (Chip.drbgSeed_touch ..) | apply Touch.step (Chip.drbgStart_touch ..))
    | decide +kernel
    | split
    | (intro _; intros)
    | (clear_value *; split)

theorem Chip.rndWith_touch (c : Chip) (n : Nat) (pr : Bool) : Touch 0x40102 0x4000000000000000000000000000000000000 c (Chip.rndWith c n pr).2 := by
  unfold Chip.rndWith
  repeat' first
    | (fail_if_no_progress extract_lets +onlyGivenNames x; first | (revert x; intro (x : Chip); refine Touch.cut (d := x) ?_ (fun hx => ?_); subst x; rotate_left; try clear_value x) | (revert x; intro (x : Chip × _); refine Touch.cut (d := x.1) ?_ (fun hx => ?_); subst x; rotate_left; try clear_value x) | (revert x; intro (x : _ × Chip); refine Touch.cut (d := x.2) ?_ (fun hx => ?_); subst x; rotate_left; try clear_value x) | (revert x; intro (x : _ × _ × Chip); refine Touch.cut (d := x.2.2) ?_ (fun hx => ?_); subst x; rotate_left; try clear_value x) | skip)
    | (with_reducible first | exact Touch.refl | assumption | apply Touch.step (Chip.drawBytes_touch ..) | apply Touch.step (Chip.rngReq_touch ..))
    | decide +kernel
    | split
    | (intro _; intros)
    | (clear_value *; split)

theorem Chip.rnd_touch (c : Chip) (n : Nat) : Touch 0x40102 0x4000000000000000000000000000000000000 c (Chip.rnd c n).2 := by
  unfold Chip.rnd
  repeat' first
    | (with_reducible first | exact Touch.refl | assumption | apply Touch.step (Chip.rndWith_touch ..))
    | decide +kernel
    | split
    | (intro _; intros)
    | (clear_value *; split)

theorem Chip.rndPr_touch (c : Chip) (n : Nat) : Touch 0x40102 0x4000000000000000000000000000000000000 c (Chip.rndPr c n).2 := by
  unfold Chip.rndPr
  repeat' first
    | (with_reducible first | exact Touch.refl | assumption | apply Touch.step (Chip.rndWith_touch ..))
    | decide +kernel
    | split
    | (intro _; intros)
    | (clear_value *; split)

end Sys2Proof.Machine
end

