-- ==== Sys2Proof/Laws/TouchMemory.lean ====
section
/-! SUPPORT. What each function of Machine/Memory.lean can change: the two masks of `Touch` (Laws/Touch.lean), parts and banks of registers. -/

set_option linter.unreachableTactic false
set_option linter.unusedTactic false
set_option linter.tactic.unusedName false
set_option linter.unnecessarySeqFocus false
set_option linter.unusedVariables false
set_option Elab.async false

namespace Sys2Proof.Machine

theorem Chip.spnWr_touch (c : Chip) (a : Nat) (bs : List Byte) : Touch 0x800 0x0 c (Chip.spnWr c a bs) := by
  unfold Chip.spnWr
  repeat' first
    | (with_reducible first | exact Touch.refl | assumption)
    | decide +kernel
    | (with_reducible apply Touch.upd) <;> first | (intro p; cases p <;> dsimp only [Part.same] <;> first | exact Or.inl (by decide +kernel) | exact Or.inr rfl) | (with_reducible first | exact Touch.refl | assumption) | split
    | split
    | (intro _; intros)
    | (clear_value *; split)

theorem Chip.rovWr_touch (c : Chip) (a : Nat) (bs : List Byte) : Touch 0x800 0x0 c (Chip.rovWr c a bs) := by
  unfold Chip.rovWr
  repeat' first
    | (with_reducible first | exact Touch.refl | assumption)
    | decide +kernel
    | (with_reducible apply Touch.upd) <;> first | (intro p; cases p <;> dsimp only [Part.same] <;> first | exact Or.inl (by decide +kernel) | exact Or.inr rfl) | (with_reducible first | exact Touch.refl | assumption) | split
    | split
    | (intro _; intros)
    | (clear_value *; split)

theorem Chip.norWr_touch (c : Chip) (a : Nat) (bs : List Byte) : Touch 0x800 0x0 c (Chip.norWr c a bs) := by
  unfold Chip.norWr
  repeat' first
    | (with_reducible first | exact Touch.refl | assumption)
    | decide +kernel
    | (with_reducible apply Touch.upd) <;> first | (intro p; cases p <;> dsimp only [Part.same] <;> first | exact Or.inl (by decide +kernel) | exact Or.inr rfl) | (with_reducible first | exact Touch.refl | assumption) | split
    | split
    | (intro _; intros)
    | (clear_value *; split)

theorem Chip.norErase_touch (c : Chip) (a b : Nat) : Touch 0x800 0x0 c (Chip.norErase c a b) := by
  unfold Chip.norErase
  repeat' first
    | (with_reducible first | exact Touch.refl | assumption)
    | decide +kernel
    | (with_reducible apply Touch.upd) <;> first | (intro p; cases p <;> dsimp only [Part.same] <;> first | exact Or.inl (by decide +kernel) | exact Or.inr rfl) | (with_reducible first | exact Touch.refl | assumption) | split
    | split
    | (intro _; intros)
    | (clear_value *; split)

end Sys2Proof.Machine
end

