-- ==== Sys2Proof/Laws/TouchCryBase.lean ====
section
/-! SUPPORT. What each function of Machine/CryBase.lean can change: the two masks of `Touch` (Laws/Touch.lean), parts and banks of registers. -/

set_option linter.unreachableTactic false
set_option linter.unusedTactic false
set_option linter.tactic.unusedName false
set_option linter.unnecessarySeqFocus false
set_option linter.unusedVariables false
set_option Elab.async false

namespace Sys2Proof.Machine

theorem Chip.chMod_touch (c : Chip) (n : Nat) (f : CryCh → CryCh) : Touch 0x40000 0x0 c (Chip.chMod c n f) := by
  unfold Chip.chMod
  repeat' first
    | (with_reducible first | exact Touch.refl | assumption | apply Touch.step (Chip.cr_touch ..))
    | decide +kernel
    | split
    | (intro _; intros)
    | (clear_value *; split)

theorem Chip.chKeySet_touch (c : Chip) (n r : Nat) (k : CKey) : Touch 0x40100 0x200000000000000000000000000000000000000 c (Chip.chKeySet c n r k) := by
  unfold Chip.chKeySet
  repeat' first
    | (fail_if_no_progress extract_lets +onlyGivenNames x; first | (revert x; intro (x : Chip); refine Touch.cut (d := x) ?_ (fun hx => ?_); subst x; rotate_left; try clear_value x) | (revert x; intro (x : Chip × _); refine Touch.cut (d := x.1) ?_ (fun hx => ?_); subst x; rotate_left; try clear_value x) | skip)
    | (with_reducible first | exact Touch.refl | assumption | apply Touch.puti | apply Touch.step (Chip.chMod_touch ..))
    | decide +kernel
    | split
    | (intro _; intros)
    | (clear_value *; split)

theorem Chip.ownWr_touch (c : Chip) (owner a : Nat) (bs : List Byte) : Touch 0x800 0x0 c (Chip.ownWr c owner a bs) := by
  unfold Chip.ownWr
  repeat' first
    | (with_reducible first | exact Touch.refl | assumption | apply Touch.step (Chip.rovWr_touch ..) | apply Touch.step (Chip.spnWr_touch ..))
    | decide +kernel
    | split
    | (intro _; intros)
    | (clear_value *; split)

theorem Chip.chBack_touch (c : Chip) (n idx flags : Nat) (st : Status) (iter used : Nat) : Touch 0x900 0x100000000000000000000000000000000000000 c (Chip.chBack c n idx flags st iter used) := by
  unfold Chip.chBack
  repeat' first
    | (fail_if_no_progress extract_lets +onlyGivenNames x; first | (revert x; intro (x : Chip); refine Touch.cut (d := x) ?_ (fun hx => ?_); subst x; rotate_left; try clear_value x) | (revert x; intro (x : Chip × _); refine Touch.cut (d := x.1) ?_ (fun hx => ?_); subst x; rotate_left; try clear_value x) | skip)
    | (with_reducible first | exact Touch.refl | assumption | apply Touch.puti | apply Touch.step (Chip.ownWr_touch ..))
    | decide +kernel
    | split
    | (intro _; intros)
    | (clear_value *; split)

theorem Chip.chIrq_touch (c : Chip) (unit base n owner : Nat) : Touch 0x4 0x0 c (Chip.chIrq c unit base n owner) := by
  unfold Chip.chIrq
  repeat' first
    | (with_reducible first | exact Touch.refl | assumption | apply Touch.step (Chip.send_touch ..))
    | decide +kernel
    | split
    | (intro _; intros)
    | (clear_value *; split)

theorem Chip.chDone_touch (c : Chip) (n : Nat) (f : Flight) (st : Status) (iter : Nat) : Touch 0x4090c 0x180000000000000000000300000000000000000000000000000000000004 c (Chip.chDone c n f st iter) := by
  unfold Chip.chDone
  repeat' first
    | (fail_if_no_progress extract_lets +onlyGivenNames x; first | (revert x; intro (x : Chip); refine Touch.cut (d := x) ?_ (fun hx => ?_); subst x; rotate_left; try clear_value x) | (revert x; intro (x : Chip × _); refine Touch.cut (d := x.1) ?_ (fun hx => ?_); subst x; rotate_left; try clear_value x) | skip)
    | (with_reducible first | exact Touch.refl | assumption | apply Touch.puti | apply Touch.step (Chip.chBack_touch ..) | apply Touch.step (Chip.chIrq_touch ..) | apply Touch.step (Chip.chKeySet_touch ..) | apply Touch.step (Chip.chMod_touch ..) | apply Touch.step (Chip.ownWr_touch ..) | apply Touch.step (Chip.trace_touch ..))
    | decide +kernel
    | split
    | (intro _; intros)
    | (clear_value *; split)

theorem Chip.chEnd_touch (c : Chip) (n : Nat) (st : Status) : Touch 0x4090c 0x180000000000000000000300000000000000000000000000000000000004 c (Chip.chEnd c n st) := by
  unfold Chip.chEnd
  repeat' first
    | (with_reducible first | exact Touch.refl | assumption | apply Touch.each | apply Touch.step (Chip.chDone_touch ..))
    | decide +kernel
    | split
    | (intro _; intros)
    | (clear_value *; split)

theorem Chip.chErase_touch (c : Chip) (n : Nat) : Touch 0x40100 0x200000000000000000000000000000000000000 c (Chip.chErase c n) := by
  unfold Chip.chErase
  repeat' first
    | (with_reducible first | exact Touch.refl | assumption | apply Touch.puti | apply Touch.step (Chip.chMod_touch ..))
    | decide +kernel
    | split
    | (intro _; intros)
    | (clear_value *; split)

theorem Chip.chTake_touch (c : Chip) (n : Nat) : Touch 0x4090c 0x2000180000000000000000000300000000000000000000000000000000000004 c (Chip.chTake c n) := by
  unfold Chip.chTake
  repeat' first
    | (fail_if_no_progress extract_lets +onlyGivenNames x; first | (revert x; intro (x : Chip); refine Touch.cut (d := x) ?_ (fun hx => ?_); subst x; rotate_left; try clear_value x) | (revert x; intro (x : Chip × _); refine Touch.cut (d := x.1) ?_ (fun hx => ?_); subst x; rotate_left; try clear_value x) | skip)
    | (with_reducible first | exact Touch.refl | assumption | apply Touch.each | apply Touch.resetCopy 253 0xc100 0x400 | apply Touch.step (Chip.chBack_touch ..) | apply Touch.step (Chip.chEnd_touch ..) | apply Touch.step (Chip.chErase_touch ..))
    | decide +kernel
    | (intro h; constructor <;> simp only [R.CRY_CHn_BASE] <;> omega)
    | (intro off h1 h2; simp only [R.CRY_CHn_BASE] at h1 h2; exact covers_window (i := 253) (lo := 0xc100) (len := 0x400) (by decide +kernel) (by omega) (by omega))
    | split
    | (intro _; intros)
    | (clear_value *; split)

theorem Chip.cxMod_touch (c : Chip) (n : Nat) (f : DgtCtx → DgtCtx) : Touch 0x40000 0x0 c (Chip.cxMod c n f) := by
  unfold Chip.cxMod
  repeat' first
    | (with_reducible first | exact Touch.refl | assumption | apply Touch.step (Chip.cr_touch ..))
    | decide +kernel
    | split
    | (intro _; intros)
    | (clear_value *; split)

theorem Chip.cxActive_touch (c : Chip) (n : Nat) (b : Bool) : Touch 0x100 0x18000000000000000000000000000000000000000 c (Chip.cxActive c n b) := by
  unfold Chip.cxActive
  repeat' first
    | (with_reducible first | exact Touch.refl | assumption | apply Touch.put)
    | decide +kernel
    | split
    | (intro _; intros)
    | (clear_value *; split)

theorem Chip.cxFree_touch (c : Chip) (n : Nat) : Touch 0x40100 0x4000000000000000000000018000000000000000000000000000000000000000 c (Chip.cxFree c n) := by
  unfold Chip.cxFree
  repeat' first
    | (with_reducible first | exact Touch.refl | assumption | apply Touch.resetCopy 254 0xd000 0x400 | apply Touch.step (Chip.cr_touch ..) | apply Touch.step (Chip.cxActive_touch ..))
    | decide +kernel
    | (intro h; constructor <;> simp only [R.DGT_CTXn_CTRL] <;> omega)
    | (intro off h1 h2; simp only [R.DGT_CTXn_CTRL] at h1 h2; exact covers_window (i := 254) (lo := 0xd000) (len := 0x400) (by decide +kernel) (by omega) (by omega))
    | split
    | (intro _; intros)
    | (clear_value *; split)

theorem Chip.cxGrant_touch (c : Chip) (n : Nat) (to_ : Option Nat) : Touch 0x40100 0x4000000000000000000000078000000000000000000000000000000000000000 c (Chip.cxGrant c n to_) := by
  unfold Chip.cxGrant
  repeat' first
    | (fail_if_no_progress extract_lets +onlyGivenNames x; first | (revert x; intro (x : Chip); refine Touch.cut (d := x) ?_ (fun hx => ?_); subst x; rotate_left; try clear_value x) | (revert x; intro (x : Chip × _); refine Touch.cut (d := x.1) ?_ (fun hx => ?_); subst x; rotate_left; try clear_value x) | skip)
    | (with_reducible first | exact Touch.refl | assumption | apply Touch.put | apply Touch.step (Chip.cr_touch ..) | apply Touch.step (Chip.cxFree_touch ..))
    | decide +kernel
    | split
    | (intro _; intros)
    | (clear_value *; split)

theorem Chip.acMod_touch (c : Chip) (n : Nat) (f : TlyAcc → TlyAcc) : Touch 0x40000 0x0 c (Chip.acMod c n f) := by
  unfold Chip.acMod
  repeat' first
    | (with_reducible first | exact Touch.refl | assumption | apply Touch.step (Chip.cr_touch ..))
    | decide +kernel
    | split
    | (intro _; intros)
    | (clear_value *; split)

theorem Chip.acFree_touch (c : Chip) (n : Nat) : Touch 0x40100 0x1d00000000000000000000000000000000000000000000000 c (Chip.acFree c n) := by
  unfold Chip.acFree
  repeat' first
    | (with_reducible first | exact Touch.refl | assumption | apply Touch.puti | apply Touch.step (Chip.cr_touch ..))
    | decide +kernel
    | split
    | (intro _; intros)
    | (clear_value *; split)

theorem Chip.acAbort_touch (c : Chip) (n : Nat) : Touch 0x40100 0x1d00800000000000000000000000000000000000000000000 c (Chip.acAbort c n) := by
  unfold Chip.acAbort
  repeat' first
    | (fail_if_no_progress extract_lets +onlyGivenNames x; first | (revert x; intro (x : Chip); refine Touch.cut (d := x) ?_ (fun hx => ?_); subst x; rotate_left; try clear_value x) | (revert x; intro (x : Chip × _); refine Touch.cut (d := x.1) ?_ (fun hx => ?_); subst x; rotate_left; try clear_value x) | skip)
    | (with_reducible first | exact Touch.refl | assumption | apply Touch.put | apply Touch.step (Chip.acFree_touch ..))
    | decide +kernel
    | split
    | (intro _; intros)
    | (clear_value *; split)

theorem Chip.tallyAbort_touch (c : Chip) (h : Nat) : Touch 0x40100 0x1d00800000000000000000000000000000000000000000000 c (Chip.tallyAbort c h) := by
  unfold Chip.tallyAbort
  repeat' first
    | (with_reducible first | exact Touch.refl | assumption | apply Touch.each | apply Touch.step (Chip.acAbort_touch ..))
    | decide +kernel
    | split
    | (intro _; intros)
    | (clear_value *; split)

theorem Chip.cryZero_touch (c : Chip) : Touch 0x4090c 0x4000180000000001d00800018304000000000000000000000000000000000004 c (Chip.cryZero c) := by
  unfold Chip.cryZero
  repeat' first
    | (fail_if_no_progress extract_lets +onlyGivenNames x; first | (revert x; intro (x : Chip); refine Touch.cut (d := x) ?_ (fun hx => ?_); subst x; rotate_left; try clear_value x) | (revert x; intro (x : Chip × _); refine Touch.cut (d := x.1) ?_ (fun hx => ?_); subst x; rotate_left; try clear_value x) | skip)
    | (with_reducible first | exact Touch.refl | assumption | apply Touch.each | apply Touch.put | apply Touch.step (Chip.acFree_touch ..) | apply Touch.step (Chip.chEnd_touch ..) | apply Touch.step (Chip.chErase_touch ..) | apply Touch.step (Chip.cr_touch ..) | apply Touch.step (Chip.cxFree_touch ..))
    | decide +kernel
    | split
    | (intro _; intros)
    | (clear_value *; split)

end Sys2Proof.Machine
end

