-- ==== Sys2Proof/Laws/TouchJournalBase.lean ====
section
/-! SUPPORT. What each function of Machine/JournalBase.lean can change: the two masks of `Touch` (Laws/Touch.lean), parts and banks of registers. -/

set_option linter.unreachableTactic false
set_option linter.unusedTactic false
set_option linter.tactic.unusedName false
set_option linter.unnecessarySeqFocus false
set_option linter.unusedVariables false
set_option Elab.async false

namespace Sys2Proof.Machine

theorem Chip.jBurn_touch (c : Chip) (page : List (Nat × JRec)) (noise : List Byte) : Touch 0x800 0x0 c (Chip.jBurn c page noise) := by
  unfold Chip.jBurn
  repeat' first
    | (with_reducible first | exact Touch.refl | assumption | apply Touch.each | apply Touch.step (Chip.norWr_touch ..))
    | decide +kernel
    | split
    | (intro _; intros)
    | (clear_value *; split)

theorem Chip.jTear_touch (c : Chip) : Touch 0x10802 0x0 c (Chip.jTear c) := by
  unfold Chip.jTear
  repeat' first
    | (fail_if_no_progress extract_lets +onlyGivenNames x; first | (revert x; intro (x : Chip); refine Touch.cut (d := x) ?_ (fun hx => ?_); subst x; rotate_left; try clear_value x) | (revert x; intro (x : Chip × _); refine Touch.cut (d := x.1) ?_ (fun hx => ?_); subst x; rotate_left; try clear_value x) | (revert x; intro (x : _ × Chip); refine Touch.cut (d := x.2) ?_ (fun hx => ?_); subst x; rotate_left; try clear_value x) | (revert x; intro (x : _ × _ × Chip); refine Touch.cut (d := x.2.2) ?_ (fun hx => ?_); subst x; rotate_left; try clear_value x) | skip)
    | (with_reducible first | exact Touch.refl | assumption | apply Touch.step (Chip.drawBytes_touch ..) | apply Touch.step (Chip.jBurn_touch ..))
    | decide +kernel
    | (with_reducible apply Touch.upd) <;> first | (intro p; cases p <;> dsimp only [Part.same] <;> first | exact Or.inl (by decide +kernel) | exact Or.inr rfl) | (with_reducible first | exact Touch.refl | assumption | apply Touch.step (Chip.drawBytes_touch ..) | apply Touch.step (Chip.jBurn_touch ..)) | split
    | split
    | (intro _; intros)
    | (clear_value *; split)

end Sys2Proof.Machine
end

