-- ==== Sys2Proof/Laws/TouchOtpOps.lean ====
section
/-! SUPPORT. What each function of Machine/OtpOps.lean can change: the two masks of `Touch` (Laws/Touch.lean), parts and banks of registers. -/

set_option linter.unreachableTactic false
set_option linter.unusedTactic false
set_option linter.tactic.unusedName false
set_option linter.unnecessarySeqFocus false
set_option linter.unusedVariables false
set_option Elab.async false

namespace Sys2Proof.Machine

theorem Chip.otpMirror_touch (c : Chip) : Touch 0x100 0x9882000000 c (Chip.otpMirror c) := by
  unfold Chip.otpMirror
  repeat' first
    | (fail_if_no_progress extract_lets +onlyGivenNames x; first | (revert x; intro (x : Chip); refine Touch.cut (d := x) ?_ (fun hx => ?_); subst x; rotate_left; try clear_value x) | (revert x; intro (x : Chip × _); refine Touch.cut (d := x.1) ?_ (fun hx => ?_); subst x; rotate_left; try clear_value x) | skip)
    | (with_reducible first | exact Touch.refl | assumption | apply Touch.each | apply Touch.put | apply Touch.puti | apply Touch.wr)
    | decide +kernel
    | exact covers_reg (by decide +kernel)
    | split
    | (intro _; intros)
    | (clear_value *; split)

theorem Chip.otpRefresh_touch (c : Chip) (fu : Fuses) (ps : List (Nat × Nat)) (extra : Nat) : Touch 0x300 0x9882000000 c (Chip.otpRefresh c fu ps extra) := by
  unfold Chip.otpRefresh
  repeat' first
    | (with_reducible first | exact Touch.refl | assumption | apply Touch.step (Chip.otpMirror_touch ..))
    | decide +kernel
    | (with_reducible apply Touch.upd) <;> first | (intro p; cases p <;> dsimp only [Part.same] <;> first | exact Or.inl (by decide +kernel) | exact Or.inr rfl) | (with_reducible first | exact Touch.refl | assumption | apply Touch.step (Chip.otpMirror_touch ..)) | split
    | split
    | (intro _; intros)
    | (clear_value *; split)

theorem Chip.logWord_touch (c : Chip) (code a op st dec num : Nat) : Touch 0x108 0x180000000000000000000000000000000000000000000000000000000004 c (Chip.logWord c code a op st dec num) := by
  unfold Chip.logWord
  repeat' first
    | (fail_if_no_progress extract_lets +onlyGivenNames x; first | (revert x; intro (x : Chip); refine Touch.cut (d := x) ?_ (fun hx => ?_); subst x; rotate_left; try clear_value x) | (revert x; intro (x : Chip × _); refine Touch.cut (d := x.1) ?_ (fun hx => ?_); subst x; rotate_left; try clear_value x) | skip)
    | (with_reducible first | exact Touch.refl | assumption | apply Touch.step (Chip.log_touch ..))
    | decide +kernel
    | split
    | (intro _; intros)
    | (clear_value *; split)

theorem Chip.logLcs_touch (c : Chip) (code a op st dec num : Nat) : Touch 0x108 0x180000000000000000000000000000000000000000000000000000000004 c (Chip.logLcs c code a op st dec num) := by
  unfold Chip.logLcs
  repeat' first
    | (with_reducible first | exact Touch.refl | assumption | apply Touch.step (Chip.log_touch ..))
    | decide +kernel
    | split
    | (intro _; intros)
    | (clear_value *; split)

theorem Chip.otpEnd_touch (c : Chip) (st : Status) (partialWord : Bool) : Touch 0x300 0x2000000 c (Chip.otpEnd c st partialWord) := by
  unfold Chip.otpEnd
  repeat' first
    | (with_reducible first | exact Touch.refl | assumption | apply Touch.put)
    | decide +kernel
    | (with_reducible apply Touch.upd) <;> first | (intro p; cases p <;> dsimp only [Part.same] <;> first | exact Or.inl (by decide +kernel) | exact Or.inr rfl) | (with_reducible first | exact Touch.refl | assumption | apply Touch.put) | split
    | split
    | (intro _; intros)
    | (clear_value *; split)

theorem Chip.otpCut_touch (c : Chip) (quench : Bool) : Touch 0x300 0x4402000000 c (Chip.otpCut c quench) := by
  unfold Chip.otpCut
  repeat' first
    | (fail_if_no_progress extract_lets +onlyGivenNames x; first | (revert x; intro (x : Chip); refine Touch.cut (d := x) ?_ (fun hx => ?_); subst x; rotate_left; try clear_value x) | (revert x; intro (x : Chip × _); refine Touch.cut (d := x.1) ?_ (fun hx => ?_); subst x; rotate_left; try clear_value x) | skip)
    | (with_reducible first | exact Touch.refl | assumption | apply Touch.put | apply Touch.step (Chip.otpEnd_touch ..))
    | decide +kernel
    | (with_reducible apply Touch.upd) <;> first | (intro p; cases p <;> dsimp only [Part.same] <;> first | exact Or.inl (by decide +kernel) | exact Or.inr rfl) | (with_reducible first | exact Touch.refl | assumption | apply Touch.put | apply Touch.step (Chip.otpEnd_touch ..)) | split
    | split
    | (intro _; intros)
    | (clear_value *; split)

theorem Chip.settleCut_touch (fu : Fuses) (c : Chip) : Touch 0x302 0x9882000000 c (settleCut fu c).2 := by
  unfold settleCut
  repeat' first
    | (fail_if_no_progress extract_lets +onlyGivenNames x; first | (revert x; intro (x : Chip); refine Touch.cut (d := x) ?_ (fun hx => ?_); subst x; rotate_left; try clear_value x) | (revert x; intro (x : Chip × _); refine Touch.cut (d := x.1) ?_ (fun hx => ?_); subst x; rotate_left; try clear_value x) | (revert x; intro (x : _ × Chip); refine Touch.cut (d := x.2) ?_ (fun hx => ?_); subst x; rotate_left; try clear_value x) | (revert x; intro (x : _ × _ × Chip); refine Touch.cut (d := x.2.2) ?_ (fun hx => ?_); subst x; rotate_left; try clear_value x) | skip)
    | (with_reducible first | exact Touch.refl | assumption | apply Touch.step (Chip.draw_touch ..) | apply Touch.step (Chip.otpRefresh_touch ..))
    | decide +kernel
    | (with_reducible apply Touch.upd) <;> first | (intro p; cases p <;> dsimp only [Part.same] <;> first | exact Or.inl (by decide +kernel) | exact Or.inr rfl) | (with_reducible first | exact Touch.refl | assumption | apply Touch.step (Chip.draw_touch ..) | apply Touch.step (Chip.otpRefresh_touch ..)) | split
    | split
    | (intro _; intros)
    | (clear_value *; split)

end Sys2Proof.Machine
end

