-- ==== Sys2Proof/Laws/TouchUpdBase.lean ====
section
/-! SUPPORT. What each function of Machine/UpdBase.lean can change: the two masks of `Touch` (Laws/Touch.lean), parts and banks of registers. -/

set_option linter.unreachableTactic false
set_option linter.unusedTactic false
set_option linter.tactic.unusedName false
set_option linter.unnecessarySeqFocus false
set_option linter.unusedVariables false
set_option Elab.async false

namespace Sys2Proof.Machine

theorem Chip.up_touch (c : Chip) (f : Upd → Upd) : Touch 0x4000000 0x0 c (Chip.up c f) := by
  unfold Chip.up
  repeat' first
    | (with_reducible first | exact Touch.refl | assumption)
    | decide +kernel
    | (with_reducible apply Touch.upd) <;> first | (intro p; cases p <;> dsimp only [Part.same] <;> first | exact Or.inl (by decide +kernel) | exact Or.inr rfl) | (with_reducible first | exact Touch.refl | assumption) | split
    | split
    | (intro _; intros)
    | (clear_value *; split)

theorem Chip.norTorn_touch (c : Chip) (a n : Nat) : Touch 0x802 0x0 c (Chip.norTorn c a n) := by
  unfold Chip.norTorn
  repeat' first
    | (fail_if_no_progress extract_lets +onlyGivenNames x; first | (revert x; intro (x : Chip); refine Touch.cut (d := x) ?_ (fun hx => ?_); subst x; rotate_left; try clear_value x) | (revert x; intro (x : Chip × _); refine Touch.cut (d := x.1) ?_ (fun hx => ?_); subst x; rotate_left; try clear_value x) | (revert x; intro (x : _ × Chip); refine Touch.cut (d := x.2) ?_ (fun hx => ?_); subst x; rotate_left; try clear_value x) | (revert x; intro (x : _ × _ × Chip); refine Touch.cut (d := x.2.2) ?_ (fun hx => ?_); subst x; rotate_left; try clear_value x) | skip)
    | (with_reducible first | exact Touch.refl | assumption | apply Touch.step (Chip.drawBytes_touch ..) | apply Touch.step (Chip.norErase_touch ..) | apply Touch.step (Chip.norWr_touch ..))
    | decide +kernel
    | split
    | (intro _; intros)
    | (clear_value *; split)

theorem Chip.updTear_touch (c : Chip) : Touch 0x802 0x0 c (Chip.updTear c) := by
  unfold Chip.updTear
  repeat' first
    | (fail_if_no_progress extract_lets +onlyGivenNames x; first | (revert x; intro (x : Chip); refine Touch.cut (d := x) ?_ (fun hx => ?_); subst x; rotate_left; try clear_value x) | (revert x; intro (x : Chip × _); refine Touch.cut (d := x.1) ?_ (fun hx => ?_); subst x; rotate_left; try clear_value x) | skip)
    | (with_reducible first | exact Touch.refl | assumption | apply Touch.step (Chip.norTorn_touch ..))
    | decide +kernel
    | split
    | (intro _; intros)
    | (clear_value *; split)

end Sys2Proof.Machine
end

