-- ==== Sys2Proof/Laws/TouchDomain.lean ====
section
/-! SUPPORT. What each function of Machine/Domain.lean can change: the two masks of `Touch` (Laws/Touch.lean), parts and banks of registers. -/

set_option linter.unreachableTactic false
set_option linter.unusedTactic false
set_option linter.tactic.unusedName false
set_option linter.unnecessarySeqFocus false
set_option linter.unusedVariables false
set_option Elab.async false

namespace Sys2Proof.Machine

theorem Chip.setSplice_touch (c : Chip) (q : Splice) : Touch 0x10 0x0 c (Chip.setSplice c q) := by
  unfold Chip.setSplice
  repeat' first
    | (with_reducible first | exact Touch.refl | assumption)
    | decide +kernel
    | (with_reducible apply Touch.upd) <;> first | (intro p; cases p <;> dsimp only [Part.same] <;> first | exact Or.inl (by decide +kernel) | exact Or.inr rfl) | (with_reducible first | exact Touch.refl | assumption) | split
    | split
    | (intro _; intros)
    | (clear_value *; split)

theorem Chip.spliceDrop_touch (c : Chip) : Touch 0x30 0x0 c (Chip.spliceDrop c) := by
  unfold Chip.spliceDrop
  repeat' first
    | (fail_if_no_progress extract_lets +onlyGivenNames x; first | (revert x; intro (x : Chip); refine Touch.cut (d := x) ?_ (fun hx => ?_); subst x; rotate_left; try clear_value x) | (revert x; intro (x : Chip × _); refine Touch.cut (d := x.1) ?_ (fun hx => ?_); subst x; rotate_left; try clear_value x) | skip)
    | (with_reducible first | exact Touch.refl | assumption | apply Touch.step (Chip.setSplice_touch ..))
    | decide +kernel
    | (with_reducible apply Touch.upd) <;> first | (intro p; cases p <;> dsimp only [Part.same] <;> first | exact Or.inl (by decide +kernel) | exact Or.inr rfl) | (with_reducible first | exact Touch.refl | assumption | apply Touch.step (Chip.setSplice_touch ..)) | split
    | split
    | (intro _; intros)
    | (clear_value *; split)

theorem Chip.clearSpnData_touch (c : Chip) : Touch 0x800 0x0 c (Chip.clearSpnData c) := by
  unfold Chip.clearSpnData
  repeat' first
    | (with_reducible first | exact Touch.refl | assumption)
    | decide +kernel
    | (with_reducible apply Touch.upd) <;> first | (intro p; cases p <;> dsimp only [Part.same] <;> first | exact Or.inl (by decide +kernel) | exact Or.inr rfl) | (with_reducible first | exact Touch.refl | assumption) | split
    | split
    | (intro _; intros)
    | (clear_value *; split)

theorem Chip.clearRingKey_touch (c : Chip) : Touch 0x10 0x0 c (Chip.clearRingKey c) := by
  unfold Chip.clearRingKey
  repeat' first
    | (with_reducible first | exact Touch.refl | assumption)
    | decide +kernel
    | (with_reducible apply Touch.upd) <;> first | (intro p; cases p <;> dsimp only [Part.same] <;> first | exact Or.inl (by decide +kernel) | exact Or.inr rfl) | (with_reducible first | exact Touch.refl | assumption) | split
    | split
    | (intro _; intros)
    | (clear_value *; split)

theorem Chip.clearKeys_touch (c : Chip) : Touch 0x163c100 0x80000000000000000000000000000000001000000000000000000008000000000 c (Chip.clearKeys c) := by
  unfold Chip.clearKeys
  repeat' first
    | (fail_if_no_progress extract_lets +onlyGivenNames x; first | (revert x; intro (x : Chip); refine Touch.cut (d := x) ?_ (fun hx => ?_); subst x; rotate_left; try clear_value x) | (revert x; intro (x : Chip × _); refine Touch.cut (d := x.1) ?_ (fun hx => ?_); subst x; rotate_left; try clear_value x) | skip)
    | (with_reducible first | exact Touch.refl | assumption | apply Touch.put | apply Touch.resetRegs)
    | decide +kernel
    | (with_reducible apply Touch.upd) <;> first | (intro p; cases p <;> dsimp only [Part.same] <;> first | exact Or.inl (by decide +kernel) | exact Or.inr rfl) | (with_reducible first | exact Touch.refl | assumption | apply Touch.put | apply Touch.resetRegs) | split
    | (intro h; constructor <;> simp only [R.DST_STATUS, R.DST_CACHE_CTRL, R.DST_CACHE_STAT, R.DST_HANKn] <;> omega)
    | (intro off h1 h2; simp only [R.DST_STATUS, R.DST_CACHE_CTRL, R.DST_CACHE_STAT, R.DST_HANKn] at h1 h2; exact covers_window (i := 259) (lo := 0xb000) (len := 0x80) (by decide +kernel) (by omega) (by omega))
    | split
    | (intro _; intros)
    | (clear_value *; split)

theorem Chip.callsZero_touch (c : Chip) : Touch 0x1000 0x0 c (Chip.callsZero c) := by
  unfold Chip.callsZero
  repeat' first
    | (with_reducible first | exact Touch.refl | assumption | apply Touch.foldl | apply Touch.foldl_fst)
    | decide +kernel
    | (with_reducible apply Touch.upd) <;> first | (intro p; cases p <;> dsimp only [Part.same] <;> first | exact Or.inl (by decide +kernel) | exact Or.inr rfl) | (with_reducible first | exact Touch.refl | assumption | apply Touch.foldl | apply Touch.foldl_fst) | split
    | split
    | (intro _; intros)
    | (clear_value *; split)

theorem Chip.cplDrain_touch (c : Chip) (n : Nat) : Touch 0x10900 0x80000000000000000000000000000000 c (Chip.cplDrain c n) := by
  induction n generalizing c with
  | zero => unfold Chip.cplDrain; (try split) <;> exact Touch.refl
  | succ n ih =>
  unfold Chip.cplDrain
  repeat' first
    | (fail_if_no_progress extract_lets +onlyGivenNames x; first | (revert x; intro (x : Chip); refine Touch.cut (d := x) ?_ (fun hx => ?_); subst x; rotate_left; try clear_value x) | (revert x; intro (x : Chip × _); refine Touch.cut (d := x.1) ?_ (fun hx => ?_); subst x; rotate_left; try clear_value x) | skip)
    | (with_reducible first | exact Touch.refl | assumption | apply Touch.put | apply Touch.step (Chip.spnWr_touch ..) | apply Touch.step (ih ..))
    | decide +kernel
    | (with_reducible apply Touch.upd) <;> first | (intro p; cases p <;> dsimp only [Part.same] <;> first | exact Or.inl (by decide +kernel) | exact Or.inr rfl) | (with_reducible first | exact Touch.refl | assumption | apply Touch.put | apply Touch.step (Chip.spnWr_touch ..) | apply Touch.step (ih ..)) | split
    | split
    | (intro _; intros)
    | (clear_value *; split)

theorem Chip.complete_touch (c : Chip) (b : List Byte) (irq : Bool) : Touch 0x10904 0x80000000000000000000000000000000 c (Chip.complete c b irq) := by
  unfold Chip.complete
  repeat' first
    | (fail_if_no_progress extract_lets +onlyGivenNames x; first | (revert x; intro (x : Chip); refine Touch.cut (d := x) ?_ (fun hx => ?_); subst x; rotate_left; try clear_value x) | (revert x; intro (x : Chip × _); refine Touch.cut (d := x.1) ?_ (fun hx => ?_); subst x; rotate_left; try clear_value x) | skip)
    | (with_reducible first | exact Touch.refl | assumption | apply Touch.step (Chip.cplDrain_touch ..) | apply Touch.step (Chip.send_touch ..))
    | decide +kernel
    | (with_reducible apply Touch.upd) <;> first | (intro p; cases p <;> dsimp only [Part.same] <;> first | exact Or.inl (by decide +kernel) | exact Or.inr rfl) | (with_reducible first | exact Touch.refl | assumption | apply Touch.step (Chip.cplDrain_touch ..) | apply Touch.step (Chip.send_touch ..)) | split
    | split
    | (intro _; intros)
    | (clear_value *; split)

theorem Chip.cmdZero_touch (c : Chip) (r : CmdRun) : Touch 0x10904 0x80000000000000000000000000000000 c (Chip.cmdZero c r) := by
  unfold Chip.cmdZero
  repeat' first
    | (fail_if_no_progress extract_lets +onlyGivenNames x; first | (revert x; intro (x : Chip); refine Touch.cut (d := x) ?_ (fun hx => ?_); subst x; rotate_left; try clear_value x) | (revert x; intro (x : Chip × _); refine Touch.cut (d := x.1) ?_ (fun hx => ?_); subst x; rotate_left; try clear_value x) | skip)
    | (with_reducible first | exact Touch.refl | assumption | apply Touch.foldl | apply Touch.foldl_fst | apply Touch.step (Chip.complete_touch ..))
    | decide +kernel
    | split
    | (intro _; intros)
    | (clear_value *; split)

theorem Chip.zeroize_touch (c : Chip) : Touch 0x167db1c 0x84000180000000001d0080001830400008100000000000000000000c402000004 c (Chip.zeroize c) := by
  unfold Chip.zeroize
  repeat' first
    | (with_reducible first | exact Touch.refl | assumption | apply Touch.each | apply Touch.step (Chip.callsZero_touch ..) | apply Touch.step (Chip.clearKeys_touch ..) | apply Touch.step (Chip.clearRingKey_touch ..) | apply Touch.step (Chip.clearSpnData_touch ..) | apply Touch.step (Chip.cmdZero_touch ..) | apply Touch.step (Chip.cryZero_touch ..) | apply Touch.step (Chip.otpCut_touch ..))
    | decide +kernel
    | split
    | (intro _; intros)
    | (clear_value *; split)

theorem Chip.svcPages_touch (c : Chip) : Touch 0x0 0x200000000000000000000000000000000000000000000000000000000000000 c (Chip.svcPages c) := by
  unfold Chip.svcPages
  repeat' first
    | (fail_if_no_progress extract_lets +onlyGivenNames x; first | (revert x; intro (x : Chip); refine Touch.cut (d := x) ?_ (fun hx => ?_); subst x; rotate_left; try clear_value x) | (revert x; intro (x : Chip × _); refine Touch.cut (d := x.1) ?_ (fun hx => ?_); subst x; rotate_left; try clear_value x) | skip)
    | (with_reducible first | exact Touch.refl | assumption | apply Touch.each | apply Touch.resetRegs | apply Touch.wr)
    | decide +kernel
    | exact Or.inl (by decide +kernel)
    | exact fun _ _ _ => Or.inl (by decide +kernel)
    | exact covers_reg (by decide +kernel)
    | split
    | (intro _; intros)
    | (clear_value *; split)

theorem Chip.svcLost_touch (c : Chip) : Touch 0x7eff9f2 0x200000000000000000000000000000000000000000000000000008000050004 c (Chip.svcLost c) := by
  unfold Chip.svcLost
  repeat' first
    | (fail_if_no_progress extract_lets +onlyGivenNames x; first | (revert x; intro (x : Chip); refine Touch.cut (d := x) ?_ (fun hx => ?_); subst x; rotate_left; try clear_value x) | (revert x; intro (x : Chip × _); refine Touch.cut (d := x.1) ?_ (fun hx => ?_); subst x; rotate_left; try clear_value x) | skip)
    | (with_reducible first | exact Touch.refl | assumption | apply Touch.put | apply Touch.step (Chip.jTear_touch ..) | apply Touch.step (Chip.spliceDrop_touch ..) | apply Touch.step (Chip.svcPages_touch ..) | apply Touch.step (Chip.updTear_touch ..))
    | decide +kernel
    | (with_reducible apply Touch.upd) <;> first | (intro p; cases p <;> dsimp only [Part.same] <;> first | exact Or.inl (by decide +kernel) | exact Or.inr rfl) | (with_reducible first | exact Touch.refl | assumption | apply Touch.put | apply Touch.step (Chip.jTear_touch ..) | apply Touch.step (Chip.spliceDrop_touch ..) | apply Touch.step (Chip.svcPages_touch ..) | apply Touch.step (Chip.updTear_touch ..)) | split
    | split
    | (intro _; intros)
    | (clear_value *; split)

theorem Chip.freezeNoil_touch (c : Chip) (cause : Nat) : Touch 0x100 0x200000000000000000000000000000000000000000000000000000000 c (Chip.freezeNoil c cause) := by
  unfold Chip.freezeNoil
  repeat' first
    | (with_reducible first | exact Touch.refl | assumption | apply Touch.put)
    | decide +kernel
    | split
    | (intro _; intros)
    | (clear_value *; split)

theorem Chip.bootTime_touch (c : Chip) : Touch 0x100 0x20 c (Chip.bootTime c) := by
  unfold Chip.bootTime
  repeat' first
    | (with_reducible first | exact Touch.refl | assumption | apply Touch.put)
    | decide +kernel
    | split
    | (intro _; intros)
    | (clear_value *; split)

theorem Chip.enterHeld_touch (c : Chip) (noilCause : Nat) : Touch 0x7eff9fa 0x200180200000000000000000000000000000000000000000000008000050034 c (Chip.enterHeld c noilCause) := by
  unfold Chip.enterHeld
  repeat' first
    | (with_reducible first | exact Touch.refl | assumption | apply Touch.put | apply Touch.step (Chip.bootTime_touch ..) | apply Touch.step (Chip.freezeNoil_touch ..) | apply Touch.step (Chip.setSeq_touch ..) | apply Touch.step (Chip.svcLost_touch ..))
    | decide +kernel
    | split
    | (intro _; intros)
    | (clear_value *; split)

theorem Chip.instFail_touch (c : Chip) (code unit : Nat) (args : List Byte) : Touch 0x7effbfe 0x84200180200000001d0080001830400008100000000000000000000c402050034 c (Chip.instFail c code unit args) := by
  unfold Chip.instFail
  repeat' first
    | (with_reducible first | exact Touch.refl | assumption | apply Touch.step (Chip.enterHeld_touch ..) | apply Touch.step (Chip.freezeNoil_touch ..) | apply Touch.step (Chip.log_touch ..) | apply Touch.step (Chip.zeroize_touch ..))
    | decide +kernel
    | split
    | (intro _; intros)
    | (clear_value *; split)

theorem Chip.quenchStart_touch (c : Chip) : Touch 0x308 0x180000000000000000000000000000000000000000000000004402000004 c (Chip.quenchStart c) := by
  unfold Chip.quenchStart
  repeat' first
    | (fail_if_no_progress extract_lets +onlyGivenNames x; first | (revert x; intro (x : Chip); refine Touch.cut (d := x) ?_ (fun hx => ?_); subst x; rotate_left; try clear_value x) | (revert x; intro (x : Chip × _); refine Touch.cut (d := x.1) ?_ (fun hx => ?_); subst x; rotate_left; try clear_value x) | skip)
    | (with_reducible first | exact Touch.refl | assumption | apply Touch.step (Chip.log_touch ..) | apply Touch.step (Chip.otpCut_touch ..))
    | decide +kernel
    | (with_reducible apply Touch.upd) <;> first | (intro p; cases p <;> dsimp only [Part.same] <;> first | exact Or.inl (by decide +kernel) | exact Or.inr rfl) | (with_reducible first | exact Touch.refl | assumption | apply Touch.step (Chip.log_touch ..) | apply Touch.step (Chip.otpCut_touch ..)) | split
    | split
    | (intro _; intros)
    | (clear_value *; split)

theorem Chip.quenchRequest_touch (c : Chip) : Touch 0x308 0x180000000000000000000000000000000000000000000000104402000004 c (Chip.quenchRequest c) := by
  unfold Chip.quenchRequest
  repeat' first
    | (fail_if_no_progress extract_lets +onlyGivenNames x; first | (revert x; intro (x : Chip); refine Touch.cut (d := x) ?_ (fun hx => ?_); subst x; rotate_left; try clear_value x) | (revert x; intro (x : Chip × _); refine Touch.cut (d := x.1) ?_ (fun hx => ?_); subst x; rotate_left; try clear_value x) | skip)
    | (with_reducible first | exact Touch.refl | assumption | apply Touch.put | apply Touch.step (Chip.quenchStart_touch ..))
    | decide +kernel
    | split
    | (intro _; intros)
    | (clear_value *; split)

theorem Chip.quenchFill_touch (c : Chip) (fu : Fuses) : Touch 0x200 0x0 c (Chip.quenchFill c fu) := by
  unfold Chip.quenchFill
  repeat' first
    | (with_reducible first | exact Touch.refl | assumption)
    | decide +kernel
    | (with_reducible apply Touch.upd) <;> first | (intro p; cases p <;> dsimp only [Part.same] <;> first | exact Or.inl (by decide +kernel) | exact Or.inr rfl) | (with_reducible first | exact Touch.refl | assumption) | split
    | split
    | (intro _; intros)
    | (clear_value *; split)

theorem Chip.tamperRoom_touch (c : Chip) : Touch 0x800 0x0 c (Chip.tamperRoom c) := by
  unfold Chip.tamperRoom
  repeat' first
    | (fail_if_no_progress extract_lets +onlyGivenNames x; first | (revert x; intro (x : Chip); refine Touch.cut (d := x) ?_ (fun hx => ?_); subst x; rotate_left; try clear_value x) | (revert x; intro (x : Chip × _); refine Touch.cut (d := x.1) ?_ (fun hx => ?_); subst x; rotate_left; try clear_value x) | skip)
    | (with_reducible first | exact Touch.refl | assumption | apply Touch.step (Chip.norErase_touch ..))
    | decide +kernel
    | split
    | (intro _; intros)
    | (clear_value *; split)

theorem Chip.tamperWrite_touch (c : Chip) (r : EvRec) : Touch 0x900 0x4000000000000 c (Chip.tamperWrite c r) := by
  unfold Chip.tamperWrite
  repeat' first
    | (fail_if_no_progress extract_lets +onlyGivenNames x; first | (revert x; intro (x : Chip); refine Touch.cut (d := x) ?_ (fun hx => ?_); subst x; rotate_left; try clear_value x) | (revert x; intro (x : Chip × _); refine Touch.cut (d := x.1) ?_ (fun hx => ?_); subst x; rotate_left; try clear_value x) | skip)
    | (with_reducible first | exact Touch.refl | assumption | apply Touch.put | apply Touch.step (Chip.norWr_touch ..) | apply Touch.step (Chip.tamperRoom_touch ..))
    | decide +kernel
    | split
    | (intro _; intros)
    | (clear_value *; split)

theorem Chip.snagC_touch (c : Chip) (cause flags reading : Nat) (limited : Bool) : Touch 0x908 0x180000000000000000000000000000000000000000000004000000000004 c (Chip.snagC c cause flags reading limited) := by
  unfold Chip.snagC
  repeat' first
    | (fail_if_no_progress extract_lets +onlyGivenNames x; first | (revert x; intro (x : Chip); refine Touch.cut (d := x) ?_ (fun hx => ?_); subst x; rotate_left; try clear_value x) | (revert x; intro (x : Chip × _); refine Touch.cut (d := x.1) ?_ (fun hx => ?_); subst x; rotate_left; try clear_value x) | skip)
    | (with_reducible first | exact Touch.refl | assumption | apply Touch.step (Chip.log_touch ..) | apply Touch.step (Chip.noteLog_touch ..) | apply Touch.step (Chip.tamperWrite_touch ..))
    | decide +kernel
    | split
    | (intro _; intros)
    | (clear_value *; split)

theorem Chip.driveOut_touch (c : Chip) (z : ZOut) : Touch 0x120 0x100000000000 c (Chip.driveOut c z) := by
  unfold Chip.driveOut
  repeat' first
    | (with_reducible first | exact Touch.refl | assumption | apply Touch.put)
    | decide +kernel
    | (with_reducible apply Touch.upd) <;> first | (intro p; cases p <;> dsimp only [Part.same] <;> first | exact Or.inl (by decide +kernel) | exact Or.inr rfl) | (with_reducible first | exact Touch.refl | assumption | apply Touch.put) | split
    | split
    | (intro _; intros)
    | (clear_value *; split)

theorem Chip.snagAnswer_touch (c : Chip) (act : Nat) (rec : EvRec) : Touch 0x7effbfe 0x84200180200000001d0080001830400008100000000000000000010c402050034 c (Chip.snagAnswer c act rec) := by
  unfold Chip.snagAnswer
  repeat' first
    | (fail_if_no_progress extract_lets +onlyGivenNames x; first | (revert x; intro (x : Chip); refine Touch.cut (d := x) ?_ (fun hx => ?_); subst x; rotate_left; try clear_value x) | (revert x; intro (x : Chip × _); refine Touch.cut (d := x.1) ?_ (fun hx => ?_); subst x; rotate_left; try clear_value x) | skip)
    | (with_reducible first | exact Touch.refl | assumption | apply Touch.put | apply Touch.when | apply Touch.step (Chip.driveOut_touch ..) | apply Touch.step (Chip.enterHeld_touch ..) | apply Touch.step (Chip.quenchRequest_touch ..) | apply Touch.step (Chip.zeroize_touch ..))
    | decide +kernel
    | (with_reducible apply Touch.upd) <;> first | (intro p; cases p <;> dsimp only [Part.same] <;> first | exact Or.inl (by decide +kernel) | exact Or.inr rfl) | (with_reducible first | exact Touch.refl | assumption | apply Touch.put | apply Touch.when | apply Touch.step (Chip.driveOut_touch ..) | apply Touch.step (Chip.enterHeld_touch ..) | apply Touch.step (Chip.quenchRequest_touch ..) | apply Touch.step (Chip.zeroize_touch ..)) | split
    | split
    | (intro _; intros)
    | (clear_value *; split)

theorem Chip.since_touch (c : Chip) (cls : Nat) : Touch 0x100 0x2000000000000 c (Chip.since c cls) := by
  unfold Chip.since
  repeat' first
    | (with_reducible first | exact Touch.refl | assumption | apply Touch.add)
    | decide +kernel
    | split
    | (intro _; intros)
    | (clear_value *; split)

theorem Chip.snagLast_touch (c : Chip) (cause flags cls : Nat) : Touch 0x80 0x400000000000 c (Chip.snagLast c cause flags cls) := by
  unfold Chip.snagLast
  repeat' first
    | (with_reducible first | exact Touch.refl | assumption | apply Touch.wr)
    | decide +kernel
    | (with_reducible apply Touch.upd) <;> first | (intro p; cases p <;> dsimp only [Part.same] <;> first | exact Or.inl (by decide +kernel) | exact Or.inr rfl) | (with_reducible first | exact Touch.refl | assumption | apply Touch.wr) | split
    | exact covers_reg (by decide +kernel)
    | split
    | (intro _; intros)
    | (clear_value *; split)

theorem Chip.snagDecide_touch (c : Chip) (causes : List (Nat × Nat)) : Touch 0x7effbfe 0x84200180200000001d0080001830400008100000000000000000670c402050034 c (Chip.snagDecide c causes) := by
  unfold Chip.snagDecide
  repeat' first
    | (fail_if_no_progress extract_lets +onlyGivenNames x; first | (revert x; intro (x : Chip); refine Touch.cut (d := x) ?_ (fun hx => ?_); subst x; rotate_left; try clear_value x) | (revert x; intro (x : Chip × _); refine Touch.cut (d := x.1) ?_ (fun hx => ?_); subst x; rotate_left; try clear_value x) | skip)
    | (with_reducible first | exact Touch.refl | assumption | apply Touch.put | apply Touch.foldl | apply Touch.foldl_fst | apply Touch.step (Chip.count_touch ..) | apply Touch.step (Chip.log_touch ..) | apply Touch.step (Chip.since_touch ..) | apply Touch.step (Chip.snagAnswer_touch ..) | apply Touch.step (Chip.snagC_touch ..) | apply Touch.step (Chip.snagLast_touch ..))
    | decide +kernel
    | split
    | (intro _; intros)
    | (clear_value *; split)

theorem Chip.retrainRing_touch (c : Chip) : Touch 0x100 0x80000000000000000000 c (Chip.retrainRing c) := by
  unfold Chip.retrainRing
  repeat' first
    | (with_reducible first | exact Touch.refl | assumption | apply Touch.put)
    | decide +kernel
    | split
    | (intro _; intros)
    | (clear_value *; split)

theorem Chip.ringTrained_touch (c : Chip) (cc : Bool) : Touch 0x20002 0x0 c (Chip.ringTrained c cc) := by
  unfold Chip.ringTrained
  repeat' first
    | (fail_if_no_progress extract_lets +onlyGivenNames x; first | (revert x; intro (x : Chip); refine Touch.cut (d := x) ?_ (fun hx => ?_); subst x; rotate_left; try clear_value x) | (revert x; intro (x : Chip × _); refine Touch.cut (d := x.1) ?_ (fun hx => ?_); subst x; rotate_left; try clear_value x) | (revert x; intro (x : _ × Chip); refine Touch.cut (d := x.2) ?_ (fun hx => ?_); subst x; rotate_left; try clear_value x) | (revert x; intro (x : _ × _ × Chip); refine Touch.cut (d := x.2.2) ?_ (fun hx => ?_); subst x; rotate_left; try clear_value x) | skip)
    | (with_reducible first | exact Touch.refl | assumption | apply Touch.step (Chip.draw_touch ..))
    | decide +kernel
    | (with_reducible apply Touch.upd) <;> first | (intro p; cases p <;> dsimp only [Part.same] <;> first | exact Or.inl (by decide +kernel) | exact Or.inr rfl) | (with_reducible first | exact Touch.refl | assumption | apply Touch.step (Chip.draw_touch ..)) | split
    | split
    | (intro _; intros)
    | (clear_value *; split)

theorem Chip.ringEnable_touch (c : Chip) (v : Bool) : Touch 0x20132 0xc0000000000000000000 c (Chip.ringEnable c v) := by
  unfold Chip.ringEnable
  repeat' first
    | (fail_if_no_progress extract_lets +onlyGivenNames x; first | (revert x; intro (x : Chip); refine Touch.cut (d := x) ?_ (fun hx => ?_); subst x; rotate_left; try clear_value x) | (revert x; intro (x : Chip × _); refine Touch.cut (d := x.1) ?_ (fun hx => ?_); subst x; rotate_left; try clear_value x) | skip)
    | (with_reducible first | exact Touch.refl | assumption | apply Touch.put | apply Touch.step (Chip.retrainRing_touch ..) | apply Touch.step (Chip.ringTrained_touch ..) | apply Touch.step (Chip.spliceDrop_touch ..))
    | decide +kernel
    | split
    | (intro _; intros)
    | (clear_value *; split)

end Sys2Proof.Machine
end

