-- ==== Sys2Proof/Laws/TouchAccess.lean ====
section
/-! SUPPORT. What each function of Machine/Access.lean can change: the two masks of `Touch` (Laws/Touch.lean), parts and banks of registers. -/

set_option linter.unreachableTactic false
set_option linter.unusedTactic false
set_option linter.tactic.unusedName false
set_option linter.unnecessarySeqFocus false
set_option linter.unusedVariables false
set_option Elab.async false

namespace Sys2Proof.Machine

theorem Chip.respond_touch (c : Chip) (req : Req) (ok : Bool) (data : Nat) : Touch 0x4 0x0 c (Chip.respond c req ok data) := by
  unfold Chip.respond
  repeat' first
    | (with_reducible first | exact Touch.refl | assumption | apply Touch.step (Chip.send_touch ..))
    | decide +kernel
    | split
    | (intro _; intros)
    | (clear_value *; split)

theorem Chip.refuse_touch (c : Chip) (code : Nat) (req : Req) (off : Nat) (wr : Bool) (detail : Nat) : Touch 0x10c 0x180000000000000000000000000000000000000000000000000000000004 c (Chip.refuse c code req off wr detail) := by
  unfold Chip.refuse
  repeat' first
    | (with_reducible first | exact Touch.refl | assumption | apply Touch.step (Chip.log_touch ..) | apply Touch.step (Chip.respond_touch ..))
    | decide +kernel
    | split
    | (intro _; intros)
    | (clear_value *; split)

theorem Chip.svcWake_touch (c : Chip) : Touch 0x148 0x180000000000000000000000000000000000000000000000100000010004 c (Chip.svcWake c) := by
  unfold Chip.svcWake
  repeat' first
    | (with_reducible first | exact Touch.refl | assumption | apply Touch.put | apply Touch.step (Chip.setSeq_touch ..))
    | decide +kernel
    | (with_reducible apply Touch.upd) <;> first | (intro p; cases p <;> dsimp only [Part.same] <;> first | exact Or.inl (by decide +kernel) | exact Or.inr rfl) | (with_reducible first | exact Touch.refl | assumption | apply Touch.put | apply Touch.step (Chip.setSeq_touch ..)) | split
    | split
    | (intro _; intros)
    | (clear_value *; split)

theorem Chip.tryWake_touch (c : Chip) : Touch 0x14c 0x180000000000000000000000000000000000000000000000100000010004 c (Chip.tryWake c) := by
  unfold Chip.tryWake
  repeat' first
    | (fail_if_no_progress extract_lets +onlyGivenNames x; first | (revert x; intro (x : Chip); refine Touch.cut (d := x) ?_ (fun hx => ?_); subst x; rotate_left; try clear_value x) | (revert x; intro (x : Chip × _); refine Touch.cut (d := x.1) ?_ (fun hx => ?_); subst x; rotate_left; try clear_value x) | skip)
    | (with_reducible first | exact Touch.refl | assumption | apply Touch.step (Chip.log_touch ..) | apply Touch.step (Chip.send_touch ..) | apply Touch.step (Chip.svcWake_touch ..))
    | decide +kernel
    | split
    | (intro _; intros)
    | (clear_value *; split)

theorem Chip.wakeSource_touch (c : Chip) (i : Nat) : Touch 0x14c 0x180000000000000000000000000000000000000000000000100000210004 c (Chip.wakeSource c i) := by
  unfold Chip.wakeSource
  repeat' first
    | (fail_if_no_progress extract_lets +onlyGivenNames x; first | (revert x; intro (x : Chip); refine Touch.cut (d := x) ?_ (fun hx => ?_); subst x; rotate_left; try clear_value x) | (revert x; intro (x : Chip × _); refine Touch.cut (d := x.1) ?_ (fun hx => ?_); subst x; rotate_left; try clear_value x) | skip)
    | (with_reducible first | exact Touch.refl | assumption | apply Touch.put | apply Touch.step (Chip.tryWake_touch ..))
    | decide +kernel
    | (with_reducible apply Touch.upd) <;> first | (intro p; cases p <;> dsimp only [Part.same] <;> first | exact Or.inl (by decide +kernel) | exact Or.inr rfl) | (with_reducible first | exact Touch.refl | assumption | apply Touch.put | apply Touch.step (Chip.tryWake_touch ..)) | split
    | split
    | (intro _; intros)
    | (clear_value *; split)

theorem Chip.darkAccess_touch (c : Chip) (req : Req) (off : Nat) (wr : Bool) : Touch 0x14c 0x180000000000000000000000000000000000000000000000100000210004 c (Chip.darkAccess c req off wr) := by
  unfold Chip.darkAccess
  repeat' first
    | (with_reducible first | exact Touch.refl | assumption | apply Touch.step (Chip.log_touch ..) | apply Touch.step (Chip.respond_touch ..) | apply Touch.step (Chip.wakeSource_touch ..))
    | decide +kernel
    | split
    | (intro _; intros)
    | (clear_value *; split)

theorem Chip.badAccess_touch (c : Chip) (req : Req) (off : Nat) (wr : Bool) : Touch 0x10c 0x180000000000000000000000000000000000000000000000000000000004 c (Chip.badAccess c req off wr) := by
  unfold Chip.badAccess
  repeat' first
    | (with_reducible first | exact Touch.refl | assumption | apply Touch.step (Chip.refuse_touch ..))
    | decide +kernel
    | split
    | (intro _; intros)
    | (clear_value *; split)

theorem Chip.guarded_touch {pm bm : Nat} {a : Chip} (c : Chip) (req : Req) (off : Nat) (wr : Bool) (f : Chip → Chip) (hp : sub 0x14c pm = true) (hb : sub 0x180000000000000000000000000000000000000000000000100000210004 bm = true)
    (h_f : ∀ d, Touch pm bm a d → Touch pm bm a (f d))
    (hT : Touch pm bm a c) : Touch pm bm a (Chip.guarded c req off wr f) := by
  unfold Chip.guarded
  repeat' first
    | (with_reducible first | exact Touch.refl | assumption | apply Touch.step (Chip.badAccess_touch ..) | apply Touch.step (Chip.darkAccess_touch ..) | apply Touch.step (Chip.refuse_touch ..) | apply h_f)
    | exact sub_trans (by decide +kernel) hp
    | exact sub_trans (by decide +kernel) hb
    | exact hasField_sub hb (by decide +kernel)
    | split
    | (intro _; intros)
    | (clear_value *; split)

theorem Chip.wrote_touch (c : Chip) (req : Req) : Touch 0x4 0x0 c (Chip.wrote c req) := by
  unfold Chip.wrote
  repeat' first
    | (with_reducible first | exact Touch.refl | assumption | apply Touch.step (Chip.respond_touch ..))
    | decide +kernel
    | split
    | (intro _; intros)
    | (clear_value *; split)

end Sys2Proof.Machine
end

