-- ==== Sys2Proof/Laws/TouchSnag.lean ====
section
/-! SUPPORT. What each function of Machine/Snag.lean can change: the two masks of `Touch` (Laws/Touch.lean), parts and banks of registers. -/

set_option linter.unreachableTactic false
set_option linter.unusedTactic false
set_option linter.tactic.unusedName false
set_option linter.unnecessarySeqFocus false
set_option linter.unusedVariables false
set_option Elab.async false

namespace Sys2Proof.Machine

theorem Chip.aon_touch {pm bm : Nat} {a : Chip} (c : Chip) (f : Chip → Chip) (hp : sub 0x0 pm = true) (hb : sub 0x0 bm = true)
    (h_f : ∀ d, Touch pm bm a d → Touch pm bm a (f d))
    (hT : Touch pm bm a c) : Touch pm bm a (Chip.aon c f) := by
  unfold Chip.aon
  repeat' first
    | (with_reducible first | exact Touch.refl | assumption | apply h_f)
    | exact sub_trans (by decide +kernel) hp
    | exact sub_trans (by decide +kernel) hb
    | exact hasField_sub hb (by decide +kernel)
    | split
    | (intro _; intros)
    | (clear_value *; split)

theorem Chip.fuseRailFall_touch (c : Chip) : Touch 0x308 0x180000000000000000000000000000000000000000000000004002010004 c (Chip.fuseRailFall c) := by
  unfold Chip.fuseRailFall
  repeat' first
    | (fail_if_no_progress extract_lets +onlyGivenNames x; first | (revert x; intro (x : Chip); refine Touch.cut (d := x) ?_ (fun hx => ?_); subst x; rotate_left; try clear_value x) | (revert x; intro (x : Chip × _); refine Touch.cut (d := x.1) ?_ (fun hx => ?_); subst x; rotate_left; try clear_value x) | skip)
    | (with_reducible first | exact Touch.refl | assumption | apply Touch.put | apply Touch.step (Chip.logWord_touch ..) | apply Touch.step (Chip.otpEnd_touch ..))
    | decide +kernel
    | (with_reducible apply Touch.upd) <;> first | (intro p; cases p <;> dsimp only [Part.same] <;> first | exact Or.inl (by decide +kernel) | exact Or.inr rfl) | (with_reducible first | exact Touch.refl | assumption | apply Touch.put | apply Touch.step (Chip.logWord_touch ..) | apply Touch.step (Chip.otpEnd_touch ..)) | split
    | split
    | (intro _; intros)
    | (clear_value *; split)

theorem Chip.railTo_touch (c : Chip) (mv : Nat) : Touch 0x308 0x180000000000000000000000000000000000000000000000004003010004 c (Chip.railTo c mv).1 := by
  unfold Chip.railTo
  repeat' first
    | (fail_if_no_progress extract_lets +onlyGivenNames x; first | (revert x; intro (x : Chip); refine Touch.cut (d := x) ?_ (fun hx => ?_); subst x; rotate_left; try clear_value x) | (revert x; intro (x : Chip × _); refine Touch.cut (d := x.1) ?_ (fun hx => ?_); subst x; rotate_left; try clear_value x) | skip)
    | (with_reducible first | exact Touch.refl | assumption | apply Touch.put | apply Touch.step (Chip.fuseRailFall_touch ..) | apply Touch.step (Chip.log_touch ..))
    | decide +kernel
    | split
    | (intro _; intros)
    | (clear_value *; split)

theorem Chip.railCheck_touch (c : Chip) (ps : List PadCause) : Touch 0x388 0x180000000000000000000000000000000000000000000000004003010004 c (Chip.railCheck c ps).1 := by
  unfold Chip.railCheck
  repeat' first
    | (fail_if_no_progress extract_lets +onlyGivenNames x; first | (revert x; intro (x : Chip); refine Touch.cut (d := x) ?_ (fun hx => ?_); subst x; rotate_left; try clear_value x) | (revert x; intro (x : Chip × _); refine Touch.cut (d := x.1) ?_ (fun hx => ?_); subst x; rotate_left; try clear_value x) | skip)
    | (with_reducible first | exact Touch.refl | assumption | apply Touch.step (Chip.railTo_touch ..))
    | decide +kernel
    | (with_reducible apply Touch.upd) <;> first | (intro p; cases p <;> dsimp only [Part.same] <;> first | exact Or.inl (by decide +kernel) | exact Or.inr rfl) | (with_reducible first | exact Touch.refl | assumption | apply Touch.step (Chip.railTo_touch ..)) | split
    | split
    | (intro _; intros)
    | (clear_value *; split)

theorem Chip.suspects_touch (c : Chip) (t0 t1 : Int) : Touch 0x180 0x100000000000 c (Chip.suspects c t0 t1).1 := by
  unfold Chip.suspects
  dsimp only
  repeat' first
    | (with_reducible first | exact Touch.refl | assumption | apply Touch.put)
    | decide +kernel
    | (with_reducible apply Touch.upd) <;> first | (intro p; cases p <;> dsimp only [Part.same] <;> first | exact Or.inl (by decide +kernel) | exact Or.inr rfl) | (with_reducible first | exact Touch.refl | assumption | apply Touch.put) | split
    | split
    | (intro _; intros)
    | (clear_value *; split)

theorem Chip.tempCauses_touch (c : Chip) (vs : List Int) : Touch 0x80 0x0 c (c.tempCauses vs).1 := by
  unfold Chip.tempCauses
  split
  · exact Touch.refl
  · refine Touch.upd (c := c) ?_ Touch.refl
    intro p; cases p <;> first | exact Or.inl (by decide +kernel) | exact Or.inr rfl

theorem Chip.decideHealth_touch (c : Chip) (causes : List (Nat × Nat)) (sensors : List Nat) : Touch 0x7effbfe 0x84200180200000001d0080001830400008100000000000000000670c402050034 c (Chip.decideHealth c causes sensors) := by
  unfold Chip.decideHealth
  repeat' first
    | (with_reducible first | exact Touch.refl | assumption | apply Touch.each | apply Touch.step (Chip.snagDecide_touch ..))
    | decide +kernel
    | split
    | (intro _; intros)
    | (clear_value *; split)

theorem Chip.calibrate_touch (c : Chip) (r : CalResult) : Touch 0x7effbfe 0x84200180200000001d0080001830400008100000000000000000770c402050034 c (Chip.calibrate c r) := by
  unfold Chip.calibrate
  dsimp only
  repeat' first
    | (with_reducible first | exact Touch.refl | assumption | apply Touch.put | apply Touch.wr | apply Touch.step (Chip.snagDecide_touch ..))
    | decide +kernel
    | (with_reducible apply Touch.upd) <;> first | (intro p; cases p <;> dsimp only [Part.same] <;> first | exact Or.inl (by decide +kernel) | exact Or.inr rfl) | (with_reducible first | exact Touch.refl | assumption | apply Touch.put | apply Touch.wr | apply Touch.step (Chip.snagDecide_touch ..)) | split
    | exact covers_reg (by decide +kernel)
    | split
    | (intro _; intros)
    | (clear_value *; split)

theorem Chip.quenchWrite_touch (c : Chip) (value : Bool) : Touch 0x908 0x180000000000000000000000000000000000000000000004080000000004 c (Chip.quenchWrite c value) := by
  unfold Chip.quenchWrite
  repeat' first
    | (fail_if_no_progress extract_lets +onlyGivenNames x; first | (revert x; intro (x : Chip); refine Touch.cut (d := x) ?_ (fun hx => ?_); subst x; rotate_left; try clear_value x) | (revert x; intro (x : Chip × _); refine Touch.cut (d := x.1) ?_ (fun hx => ?_); subst x; rotate_left; try clear_value x) | skip)
    | (with_reducible first | exact Touch.refl | assumption | apply Touch.put | apply Touch.step (Chip.snagC_touch ..))
    | decide +kernel
    | split
    | (intro _; intros)
    | (clear_value *; split)

end Sys2Proof.Machine
end

