-- ==== Sys2Proof/Laws/TouchPower.lean ====
section
/-! SUPPORT. What each function of Machine/Power.lean can change: the two masks of `Touch` (Laws/Touch.lean), parts and banks of registers. -/

set_option linter.unreachableTactic false
set_option linter.unusedTactic false
set_option linter.tactic.unusedName false
set_option linter.unnecessarySeqFocus false
set_option linter.unusedVariables false
set_option Elab.async false

namespace Sys2Proof.Machine

theorem Chip.groupNeed_touch (c : Chip) (g : Nat) : Touch 0x108 0x180000000000000000000000000000000000000000000000000000050004 c (Chip.groupNeed c g) := by
  unfold Chip.groupNeed
  repeat' first
    | (with_reducible first | exact Touch.refl | assumption | apply Touch.step (Chip.setGrp_touch ..) | apply Touch.step (Chip.setSeq_touch ..))
    | decide +kernel
    | split
    | (intro _; intros)
    | (clear_value *; split)

theorem Chip.forced_touch (c : Chip) : Touch 0x108 0x180000000000000000000000000000000000000000000000000000050004 c (Chip.forced c) := by
  unfold Chip.forced
  repeat' first
    | (fail_if_no_progress extract_lets +onlyGivenNames x; first | (revert x; intro (x : Chip); refine Touch.cut (d := x) ?_ (fun hx => ?_); subst x; rotate_left; try clear_value x) | (revert x; intro (x : Chip × _); refine Touch.cut (d := x.1) ?_ (fun hx => ?_); subst x; rotate_left; try clear_value x) | skip)
    | (with_reducible first | exact Touch.refl | assumption | apply Touch.each | apply Touch.step (Chip.groupNeed_touch ..) | apply Touch.step (Chip.setSeq_touch ..))
    | decide +kernel
    | split
    | (intro _; intros)
    | (clear_value *; split)

theorem Chip.allReset_touch (c : Chip) (clearNoil : Bool) : Touch 0x7fffff9 0x200000000000000000000000000000000000000000000000000000000010000 c (c.allReset clearNoil) := by
  unfold Chip.allReset
  extract_lets
  refine Touch.put (by decide +kernel) (Touch.put (by decide +kernel) (Touch.each (fun d i h => Touch.wr (Or.inl (by decide +kernel)) h) ?_))
  exact ⟨fun p => by cases p <;> first | exact Or.inl (by decide +kernel) | exact Or.inr rfl, fun _ => Or.inl (Or.inl (by decide +kernel))⟩

theorem Chip.otpLost_touch (c : Chip) : Touch 0x200 0x0 c (Chip.otpLost c) := by
  unfold Chip.otpLost
  repeat' first
    | (with_reducible first | exact Touch.refl | assumption)
    | decide +kernel
    | (with_reducible apply Touch.upd) <;> first | (intro p; cases p <;> dsimp only [Part.same] <;> first | exact Or.inl (by decide +kernel) | exact Or.inr rfl) | (with_reducible first | exact Touch.refl | assumption) | split
    | split
    | (intro _; intros)
    | (clear_value *; split)

theorem Chip.railIn_touch (c : Chip) : Touch 0x102 0x1010000 c (Chip.railIn c) := by
  unfold Chip.railIn
  repeat' first
    | (fail_if_no_progress extract_lets +onlyGivenNames x; first | (revert x; intro (x : Chip); refine Touch.cut (d := x) ?_ (fun hx => ?_); subst x; rotate_left; try clear_value x) | (revert x; intro (x : Chip × _); refine Touch.cut (d := x.1) ?_ (fun hx => ?_); subst x; rotate_left; try clear_value x) | (revert x; intro (x : _ × Chip); refine Touch.cut (d := x.2) ?_ (fun hx => ?_); subst x; rotate_left; try clear_value x) | (revert x; intro (x : _ × _ × Chip); refine Touch.cut (d := x.2.2) ?_ (fun hx => ?_); subst x; rotate_left; try clear_value x) | skip)
    | (with_reducible first | exact Touch.refl | assumption | apply Touch.put | apply Touch.step (Chip.draw_touch ..))
    | decide +kernel
    | split
    | (intro _; intros)
    | (clear_value *; split)

theorem Chip.warmReset_touch (c : Chip) : Touch 0x7effbfe 0x84200180200000001d0080001830400008100000000000000000010c402050004 c (Chip.warmReset c) := by
  unfold Chip.warmReset
  repeat' first
    | (with_reducible first | exact Touch.refl | assumption | apply Touch.step (Chip.freezeNoil_touch ..) | apply Touch.step (Chip.svcLost_touch ..) | apply Touch.step (Chip.svcWake_touch ..) | apply Touch.step (Chip.zeroize_touch ..))
    | decide +kernel
    | (with_reducible apply Touch.upd) <;> first | (intro p; cases p <;> dsimp only [Part.same] <;> first | exact Or.inl (by decide +kernel) | exact Or.inr rfl) | (with_reducible first | exact Touch.refl | assumption | apply Touch.step (Chip.freezeNoil_touch ..) | apply Touch.step (Chip.svcLost_touch ..) | apply Touch.step (Chip.svcWake_touch ..) | apply Touch.step (Chip.zeroize_touch ..)) | split
    | split
    | (intro _; intros)
    | (clear_value *; split)

theorem Chip.whlUnaligned_touch (c : Chip) : Touch 0x100 0x20000000000000 c (Chip.whlUnaligned c) := by
  unfold Chip.whlUnaligned
  repeat' first
    | (with_reducible first | exact Touch.refl | assumption | apply Touch.put)
    | decide +kernel
    | split
    | (intro _; intros)
    | (clear_value *; split)

theorem Chip.svcStart_touch (c : Chip) : Touch 0x16c 0x180000000000000000000000000000400000000000000000000000050034 c (Chip.svcStart c) := by
  unfold Chip.svcStart
  repeat' first
    | (fail_if_no_progress extract_lets +onlyGivenNames x; first | (revert x; intro (x : Chip); refine Touch.cut (d := x) ?_ (fun hx => ?_); subst x; rotate_left; try clear_value x) | (revert x; intro (x : Chip × _); refine Touch.cut (d := x.1) ?_ (fun hx => ?_); subst x; rotate_left; try clear_value x) | skip)
    | (with_reducible first | exact Touch.refl | assumption | apply Touch.put | apply Touch.step (Chip.bootTime_touch ..) | apply Touch.step (Chip.forced_touch ..) | apply Touch.step (Chip.send_touch ..) | apply Touch.step (Chip.setGrp_touch ..) | apply Touch.step (Chip.setSeq_touch ..))
    | decide +kernel
    | (with_reducible apply Touch.upd) <;> first | (intro p; cases p <;> dsimp only [Part.same] <;> first | exact Or.inl (by decide +kernel) | exact Or.inr rfl) | (with_reducible first | exact Touch.refl | assumption | apply Touch.put | apply Touch.step (Chip.bootTime_touch ..) | apply Touch.step (Chip.forced_touch ..) | apply Touch.step (Chip.send_touch ..) | apply Touch.step (Chip.setGrp_touch ..) | apply Touch.step (Chip.setSeq_touch ..)) | split
    | split
    | (intro _; intros)
    | (clear_value *; split)

theorem Chip.sleepRequest_touch (c : Chip) : Touch 0x167db3c 0x84000180000000001d0080001830400008100000000000000000000c402010004 c (Chip.sleepRequest c) := by
  unfold Chip.sleepRequest
  repeat' first
    | (fail_if_no_progress extract_lets +onlyGivenNames x; first | (revert x; intro (x : Chip); refine Touch.cut (d := x) ?_ (fun hx => ?_); subst x; rotate_left; try clear_value x) | (revert x; intro (x : Chip × _); refine Touch.cut (d := x.1) ?_ (fun hx => ?_); subst x; rotate_left; try clear_value x) | skip)
    | (with_reducible first | exact Touch.refl | assumption | apply Touch.put | apply Touch.step (Chip.log_touch ..) | apply Touch.step (Chip.setSeq_touch ..) | apply Touch.step (Chip.spliceDrop_touch ..) | apply Touch.step (Chip.zeroize_touch ..))
    | decide +kernel
    | (with_reducible apply Touch.upd) <;> first | (intro p; cases p <;> dsimp only [Part.same] <;> first | exact Or.inl (by decide +kernel) | exact Or.inr rfl) | (with_reducible first | exact Touch.refl | assumption | apply Touch.put | apply Touch.step (Chip.log_touch ..) | apply Touch.step (Chip.setSeq_touch ..) | apply Touch.step (Chip.spliceDrop_touch ..) | apply Touch.step (Chip.zeroize_touch ..)) | split
    | split
    | (intro _; intros)
    | (clear_value *; split)

theorem Chip.shutdownWrite_touch (c : Chip) : Touch 0x7effbfe 0x84200180000000001d0080001830400008100000000000000000000c402058004 c (Chip.shutdownWrite c) := by
  unfold Chip.shutdownWrite
  repeat' first
    | (fail_if_no_progress extract_lets +onlyGivenNames x; first | (revert x; intro (x : Chip); refine Touch.cut (d := x) ?_ (fun hx => ?_); subst x; rotate_left; try clear_value x) | (revert x; intro (x : Chip × _); refine Touch.cut (d := x.1) ?_ (fun hx => ?_); subst x; rotate_left; try clear_value x) | skip)
    | (with_reducible first | exact Touch.refl | assumption | apply Touch.put | apply Touch.step (Chip.setSeq_touch ..) | apply Touch.step (Chip.svcLost_touch ..) | apply Touch.step (Chip.zeroize_touch ..))
    | decide +kernel
    | split
    | (intro _; intros)
    | (clear_value *; split)

end Sys2Proof.Machine
end

