-- ==== Sys2Proof/Laws/TouchOtpCmd.lean ====
section
/-! SUPPORT. What each function of Machine/OtpCmd.lean can change: the two masks of `Touch` (Laws/Touch.lean), parts and banks of registers. -/

set_option linter.unreachableTactic false
set_option linter.unusedTactic false
set_option linter.tactic.unusedName false
set_option linter.unnecessarySeqFocus false
set_option linter.unusedVariables false
set_option Elab.async false

namespace Sys2Proof.Machine

theorem Chip.otpAnswer_touch (c : Chip) (op : Nat) (st : Status) (done : Bool) : Touch 0x100 0x2000000 c (Chip.otpAnswer c op st done) := by
  unfold Chip.otpAnswer
  repeat' first
    | (fail_if_no_progress extract_lets +onlyGivenNames x; first | (revert x; intro (x : Chip); refine Touch.cut (d := x) ?_ (fun hx => ?_); subst x; rotate_left; try clear_value x) | (revert x; intro (x : Chip × _); refine Touch.cut (d := x.1) ?_ (fun hx => ?_); subst x; rotate_left; try clear_value x) | skip)
    | (with_reducible first | exact Touch.refl | assumption | apply Touch.put)
    | decide +kernel
    | split
    | (intro _; intros)
    | (clear_value *; split)

theorem Chip.otpStart_touch (c : Chip) (j : OtpJob) : Touch 0x300 0x2000000 c (Chip.otpStart c j) := by
  unfold Chip.otpStart
  repeat' first
    | (fail_if_no_progress extract_lets +onlyGivenNames x; first | (revert x; intro (x : Chip); refine Touch.cut (d := x) ?_ (fun hx => ?_); subst x; rotate_left; try clear_value x) | (revert x; intro (x : Chip × _); refine Touch.cut (d := x.1) ?_ (fun hx => ?_); subst x; rotate_left; try clear_value x) | skip)
    | (with_reducible first | exact Touch.refl | assumption | apply Touch.put | apply Touch.step (Chip.otpAnswer_touch ..))
    | decide +kernel
    | (with_reducible apply Touch.upd) <;> first | (intro p; cases p <;> dsimp only [Part.same] <;> first | exact Or.inl (by decide +kernel) | exact Or.inr rfl) | (with_reducible first | exact Touch.refl | assumption | apply Touch.put | apply Touch.step (Chip.otpAnswer_touch ..)) | split
    | split
    | (intro _; intros)
    | (clear_value *; split)

theorem Chip.otpTry_touch (c : Chip) (st : Status) (j : OtpJob) : Touch 0x308 0x180000000000000000000000000000000000000000000000000002000004 c (Chip.otpTry c st j) := by
  unfold Chip.otpTry
  repeat' first
    | (fail_if_no_progress extract_lets +onlyGivenNames x; first | (revert x; intro (x : Chip); refine Touch.cut (d := x) ?_ (fun hx => ?_); subst x; rotate_left; try clear_value x) | (revert x; intro (x : Chip × _); refine Touch.cut (d := x.1) ?_ (fun hx => ?_); subst x; rotate_left; try clear_value x) | skip)
    | (with_reducible first | exact Touch.refl | assumption | apply Touch.step (Chip.logWord_touch ..) | apply Touch.step (Chip.otpAnswer_touch ..) | apply Touch.step (Chip.otpStart_touch ..))
    | decide +kernel
    | split
    | (intro _; intros)
    | (clear_value *; split)

theorem Chip.otpReadWord_touch (c : Chip) : Touch 0x100 0x62000000 c (Chip.otpReadWord c) := by
  unfold Chip.otpReadWord
  repeat' first
    | (fail_if_no_progress extract_lets +onlyGivenNames x; first | (revert x; intro (x : Chip); refine Touch.cut (d := x) ?_ (fun hx => ?_); subst x; rotate_left; try clear_value x) | (revert x; intro (x : Chip × _); refine Touch.cut (d := x.1) ?_ (fun hx => ?_); subst x; rotate_left; try clear_value x) | skip)
    | (with_reducible first | exact Touch.refl | assumption | apply Touch.wr | apply Touch.step (Chip.otpAnswer_touch ..))
    | decide +kernel
    | exact covers_reg (by decide +kernel)
    | split
    | (intro _; intros)
    | (clear_value *; split)

theorem Chip.progWord_touch (c : Chip) (fu : Fuses) : Touch 0x308 0x180000000000000000000000000000000000000000000000000002000004 c (Chip.progWord c fu) := by
  unfold Chip.progWord
  repeat' first
    | (fail_if_no_progress extract_lets +onlyGivenNames x; first | (revert x; intro (x : Chip); refine Touch.cut (d := x) ?_ (fun hx => ?_); subst x; rotate_left; try clear_value x) | (revert x; intro (x : Chip × _); refine Touch.cut (d := x.1) ?_ (fun hx => ?_); subst x; rotate_left; try clear_value x) | skip)
    | (with_reducible first | exact Touch.refl | assumption | apply Touch.step (Chip.otpTry_touch ..))
    | decide +kernel
    | split
    | (intro _; intros)
    | (clear_value *; split)

theorem Chip.progDigest_touch (c : Chip) (fu : Fuses) (r : Nat) : Touch 0x308 0x180000000000000000000000000000000000000000000000000002000004 c (Chip.progDigest c fu r) := by
  unfold Chip.progDigest
  repeat' first
    | (fail_if_no_progress extract_lets +onlyGivenNames x; first | (revert x; intro (x : Chip); refine Touch.cut (d := x) ?_ (fun hx => ?_); subst x; rotate_left; try clear_value x) | (revert x; intro (x : Chip × _); refine Touch.cut (d := x.1) ?_ (fun hx => ?_); subst x; rotate_left; try clear_value x) | skip)
    | (with_reducible first | exact Touch.refl | assumption | apply Touch.step (Chip.otpTry_touch ..))
    | decide +kernel
    | split
    | (intro _; intros)
    | (clear_value *; split)

theorem Chip.lockWrite_touch (c : Chip) (fu : Fuses) (r : Nat) : Touch 0x308 0x180000000000000000000000000000000000000000000000000002000004 c (Chip.lockWrite c fu r) := by
  unfold Chip.lockWrite
  repeat' first
    | (fail_if_no_progress extract_lets +onlyGivenNames x; first | (revert x; intro (x : Chip); refine Touch.cut (d := x) ?_ (fun hx => ?_); subst x; rotate_left; try clear_value x) | (revert x; intro (x : Chip × _); refine Touch.cut (d := x.1) ?_ (fun hx => ?_); subst x; rotate_left; try clear_value x) | skip)
    | (with_reducible first | exact Touch.refl | assumption | apply Touch.step (Chip.logWord_touch ..) | apply Touch.step (Chip.otpTry_touch ..))
    | decide +kernel
    | split
    | (intro _; intros)
    | (clear_value *; split)

theorem Chip.lockRead_touch (c : Chip) (fu : Fuses) (r : Nat) : Touch 0x308 0x180000000000000000000000000000000000000000000000000002000004 c (Chip.lockRead c fu r) := by
  unfold Chip.lockRead
  repeat' first
    | (fail_if_no_progress extract_lets +onlyGivenNames x; first | (revert x; intro (x : Chip); refine Touch.cut (d := x) ?_ (fun hx => ?_); subst x; rotate_left; try clear_value x) | (revert x; intro (x : Chip × _); refine Touch.cut (d := x.1) ?_ (fun hx => ?_); subst x; rotate_left; try clear_value x) | skip)
    | (with_reducible first | exact Touch.refl | assumption | apply Touch.step (Chip.otpTry_touch ..))
    | decide +kernel
    | split
    | (intro _; intros)
    | (clear_value *; split)

theorem Chip.lockWriteRaw_touch (c : Chip) (fu : Fuses) (r : Nat) : Touch 0x308 0x180000000000000000000000000000000000000000000000000002000004 c (Chip.lockWriteRaw c fu r) := by
  unfold Chip.lockWriteRaw
  repeat' first
    | (fail_if_no_progress extract_lets +onlyGivenNames x; first | (revert x; intro (x : Chip); refine Touch.cut (d := x) ?_ (fun hx => ?_); subst x; rotate_left; try clear_value x) | (revert x; intro (x : Chip × _); refine Touch.cut (d := x.1) ?_ (fun hx => ?_); subst x; rotate_left; try clear_value x) | skip)
    | (with_reducible first | exact Touch.refl | assumption | apply Touch.step (Chip.otpTry_touch ..))
    | decide +kernel
    | split
    | (intro _; intros)
    | (clear_value *; split)

theorem Chip.genRoots_touch (c : Chip) (fu : Fuses) : Touch 0x4030a 0x180000000000000000000004000000000000000000000000000002000004 c (Chip.genRoots c fu) := by
  unfold Chip.genRoots
  repeat' first
    | (fail_if_no_progress extract_lets +onlyGivenNames x; first | (revert x; intro (x : Chip); refine Touch.cut (d := x) ?_ (fun hx => ?_); subst x; rotate_left; try clear_value x) | (revert x; intro (x : Chip × _); refine Touch.cut (d := x.1) ?_ (fun hx => ?_); subst x; rotate_left; try clear_value x) | (revert x; intro (x : _ × Chip); refine Touch.cut (d := x.2) ?_ (fun hx => ?_); subst x; rotate_left; try clear_value x) | (revert x; intro (x : _ × _ × Chip); refine Touch.cut (d := x.2.2) ?_ (fun hx => ?_); subst x; rotate_left; try clear_value x) | skip)
    | (with_reducible first | exact Touch.refl | assumption | apply Touch.step (Chip.otpTry_touch ..) | apply Touch.step (Chip.rngReq_touch ..))
    | decide +kernel
    | split
    | (intro _; intros)
    | (clear_value *; split)

theorem Chip.arbAdvance_touch (c : Chip) (fu : Fuses) (k : Nat) : Touch 0x308 0x180000000000000000000000000000000000000000000000000002000004 c (Chip.arbAdvance c fu k) := by
  unfold Chip.arbAdvance
  repeat' first
    | (fail_if_no_progress extract_lets +onlyGivenNames x; first | (revert x; intro (x : Chip); refine Touch.cut (d := x) ?_ (fun hx => ?_); subst x; rotate_left; try clear_value x) | (revert x; intro (x : Chip × _); refine Touch.cut (d := x.1) ?_ (fun hx => ?_); subst x; rotate_left; try clear_value x) | skip)
    | (with_reducible first | exact Touch.refl | assumption | apply Touch.step (Chip.otpTry_touch ..))
    | decide +kernel
    | split
    | (intro _; intros)
    | (clear_value *; split)

theorem Chip.otpOp_touch (c : Chip) (fu : Fuses) (op arg : Nat) : Touch 0x4030a 0x180000000000000000000004000000000000000000000000000062000004 c (Chip.otpOp c fu op arg) := by
  unfold Chip.otpOp
  repeat' first
    | (with_reducible first | exact Touch.refl | assumption | apply Touch.step (Chip.arbAdvance_touch ..) | apply Touch.step (Chip.genRoots_touch ..) | apply Touch.step (Chip.lockRead_touch ..) | apply Touch.step (Chip.lockWrite_touch ..) | apply Touch.step (Chip.lockWriteRaw_touch ..) | apply Touch.step (Chip.otpReadWord_touch ..) | apply Touch.step (Chip.progDigest_touch ..) | apply Touch.step (Chip.progWord_touch ..))
    | decide +kernel
    | split
    | (intro _; intros)
    | (clear_value *; split)

theorem Chip.otpCmdWrite_touch (c : Chip) (fu : Fuses) (req : Req) (key op arg : Nat) : Touch 0x4030a 0x180000000000000000000004000000000000000000000000000062000004 c (Chip.otpCmdWrite c fu req key op arg) := by
  unfold Chip.otpCmdWrite
  repeat' first
    | (with_reducible first | exact Touch.refl | assumption | apply Touch.put | apply Touch.step (Chip.log_touch ..) | apply Touch.step (Chip.otpOp_touch ..))
    | decide +kernel
    | split
    | (intro _; intros)
    | (clear_value *; split)

theorem Chip.otpDoneEvent_touch (c : Chip) (j : OtpJob) (before : Nat) : Touch 0x108 0x180000000000000000000000000000000000000000000000000000000004 c (Chip.otpDoneEvent c j before) := by
  unfold Chip.otpDoneEvent
  repeat' first
    | (with_reducible first | exact Touch.refl | assumption | apply Touch.step (Chip.logWord_touch ..))
    | decide +kernel
    | split
    | (intro _; intros)
    | (clear_value *; split)

theorem Chip.confirmNext_touch (c : Chip) (fu : Fuses) : Touch 0x4000308 0x180000000000000000000000000000000000000000000000000012000004 c (Chip.confirmNext c fu) := by
  unfold Chip.confirmNext
  repeat' first
    | (fail_if_no_progress extract_lets +onlyGivenNames x; first | (revert x; intro (x : Chip); refine Touch.cut (d := x) ?_ (fun hx => ?_); subst x; rotate_left; try clear_value x) | (revert x; intro (x : Chip × _); refine Touch.cut (d := x.1) ?_ (fun hx => ?_); subst x; rotate_left; try clear_value x) | skip)
    | (with_reducible first | exact Touch.refl | assumption | apply Touch.put | apply Touch.step (Chip.arbAdvance_touch ..))
    | decide +kernel
    | (with_reducible apply Touch.upd) <;> first | (intro p; cases p <;> dsimp only [Part.same] <;> first | exact Or.inl (by decide +kernel) | exact Or.inr rfl) | (with_reducible first | exact Touch.refl | assumption | apply Touch.put | apply Touch.step (Chip.arbAdvance_touch ..)) | split
    | split
    | (intro _; intros)
    | (clear_value *; split)

theorem Chip.confirmTook_touch (c : Chip) (fu : Fuses) (st : Status) : Touch 0x4000308 0x180000000000000000000000000000000000000000000000000012000004 c (Chip.confirmTook c fu st) := by
  unfold Chip.confirmTook
  repeat' first
    | (with_reducible first | exact Touch.refl | assumption | apply Touch.step (Chip.confirmNext_touch ..))
    | decide +kernel
    | (with_reducible apply Touch.upd) <;> first | (intro p; cases p <;> dsimp only [Part.same] <;> first | exact Or.inl (by decide +kernel) | exact Or.inr rfl) | (with_reducible first | exact Touch.refl | assumption | apply Touch.step (Chip.confirmNext_touch ..)) | split
    | split
    | (intro _; intros)
    | (clear_value *; split)

theorem Chip.auditStart_touch (c : Chip) (value : Word) : Touch 0x300 0x602000000 c (Chip.auditStart c value) := by
  unfold Chip.auditStart
  repeat' first
    | (fail_if_no_progress extract_lets +onlyGivenNames x; first | (revert x; intro (x : Chip); refine Touch.cut (d := x) ?_ (fun hx => ?_); subst x; rotate_left; try clear_value x) | (revert x; intro (x : Chip × _); refine Touch.cut (d := x.1) ?_ (fun hx => ?_); subst x; rotate_left; try clear_value x) | skip)
    | (with_reducible first | exact Touch.refl | assumption | apply Touch.put)
    | decide +kernel
    | (with_reducible apply Touch.upd) <;> first | (intro p; cases p <;> dsimp only [Part.same] <;> first | exact Or.inl (by decide +kernel) | exact Or.inr rfl) | (with_reducible first | exact Touch.refl | assumption | apply Touch.put) | split
    | split
    | (intro _; intros)
    | (clear_value *; split)

end Sys2Proof.Machine
end

