-- ==== Sys2Proof/Laws/TouchLifecycle.lean ====
section
/-! SUPPORT. What each function of Machine/Lifecycle.lean can change: the two masks of `Touch` (Laws/Touch.lean), parts and banks of registers. -/

set_option linter.unreachableTactic false
set_option linter.unusedTactic false
set_option linter.tactic.unusedName false
set_option linter.unnecessarySeqFocus false
set_option linter.unusedVariables false
set_option Elab.async false

namespace Sys2Proof.Machine

theorem Chip.senseEvents_touch (c : Chip) (a : Nat) : Touch 0x108 0x180000000000000000000000000000000000000000000000000000000004 c (Chip.senseEvents c a) := by
  unfold Chip.senseEvents
  repeat' first
    | (fail_if_no_progress extract_lets +onlyGivenNames x; first | (revert x; intro (x : Chip); refine Touch.cut (d := x) ?_ (fun hx => ?_); subst x; rotate_left; try clear_value x) | (revert x; intro (x : Chip × _); refine Touch.cut (d := x.1) ?_ (fun hx => ?_); subst x; rotate_left; try clear_value x) | skip)
    | (with_reducible first | exact Touch.refl | assumption | apply Touch.when | apply Touch.step (Chip.logWord_touch ..))
    | decide +kernel
    | split
    | (intro _; intros)
    | (clear_value *; split)

theorem Chip.applyClass_touch (c : Chip) (fu : Fuses) : Touch 0x108 0x180000000000000000000000000000000000000000000000000000000005 c (Chip.applyClass c fu) := by
  unfold Chip.applyClass
  repeat' first
    | (fail_if_no_progress extract_lets +onlyGivenNames x; first | (revert x; intro (x : Chip); refine Touch.cut (d := x) ?_ (fun hx => ?_); subst x; rotate_left; try clear_value x) | (revert x; intro (x : Chip × _); refine Touch.cut (d := x.1) ?_ (fun hx => ?_); subst x; rotate_left; try clear_value x) | skip)
    | (with_reducible first | exact Touch.refl | assumption | apply Touch.put | apply Touch.step (Chip.log_touch ..))
    | decide +kernel
    | split
    | (intro _; intros)
    | (clear_value *; split)

theorem Chip.lcsShow_touch (c : Chip) (cur next used : Nat) : Touch 0x100 0x1000000000 c (Chip.lcsShow c cur next used) := by
  unfold Chip.lcsShow
  repeat' first
    | (with_reducible first | exact Touch.refl | assumption | apply Touch.put)
    | decide +kernel
    | split
    | (intro _; intros)
    | (clear_value *; split)

theorem Chip.senseSum_touch (c : Chip) (time : Nat) : Touch 0x100 0x100000000 c (Chip.senseSum c time) := by
  unfold Chip.senseSum
  repeat' first
    | (fail_if_no_progress extract_lets +onlyGivenNames x; first | (revert x; intro (x : Chip); refine Touch.cut (d := x) ?_ (fun hx => ?_); subst x; rotate_left; try clear_value x) | (revert x; intro (x : Chip × _); refine Touch.cut (d := x.1) ?_ (fun hx => ?_); subst x; rotate_left; try clear_value x) | skip)
    | (with_reducible first | exact Touch.refl | assumption | apply Touch.put)
    | decide +kernel
    | split
    | (intro _; intros)
    | (clear_value *; split)

theorem Chip.senseEnd_touch (c : Chip) : Touch 0x7effffa 0x200180200000000000000000000000000000000000000000000009882050034 c (Chip.senseEnd c) := by
  unfold Chip.senseEnd
  repeat' first
    | (fail_if_no_progress extract_lets +onlyGivenNames x; first | (revert x; intro (x : Chip); refine Touch.cut (d := x) ?_ (fun hx => ?_); subst x; rotate_left; try clear_value x) | (revert x; intro (x : Chip × _); refine Touch.cut (d := x.1) ?_ (fun hx => ?_); subst x; rotate_left; try clear_value x) | skip)
    | (with_reducible first | exact Touch.refl | assumption | apply Touch.each | apply Touch.put | apply Touch.step (Chip.enterHeld_touch ..) | apply Touch.step (Chip.logWord_touch ..) | apply Touch.step (Chip.otpMirror_touch ..))
    | decide +kernel
    | (with_reducible apply Touch.upd) <;> first | (intro p; cases p <;> dsimp only [Part.same] <;> first | exact Or.inl (by decide +kernel) | exact Or.inr rfl) | (with_reducible first | exact Touch.refl | assumption | apply Touch.each | apply Touch.put | apply Touch.step (Chip.enterHeld_touch ..) | apply Touch.step (Chip.logWord_touch ..) | apply Touch.step (Chip.otpMirror_touch ..)) | split
    | split
    | (intro _; intros)
    | (clear_value *; split)

theorem Chip.senseShadow_touch (c : Chip) (fu : Fuses) : Touch 0x200 0x0 c (Chip.senseShadow c fu) := by
  unfold Chip.senseShadow
  repeat' first
    | (with_reducible first | exact Touch.refl | assumption)
    | decide +kernel
    | (with_reducible apply Touch.upd) <;> first | (intro p; cases p <;> dsimp only [Part.same] <;> first | exact Or.inl (by decide +kernel) | exact Or.inr rfl) | (with_reducible first | exact Touch.refl | assumption) | split
    | split
    | (intro _; intros)
    | (clear_value *; split)

theorem Chip.senseTake_touch (c : Chip) (fu : Fuses) (d : Derived) (time : Nat) : Touch 0x308 0x180000000000000000000000000000000000000000000000100100000005 c (Chip.senseTake c fu d time) := by
  unfold Chip.senseTake
  repeat' first
    | (fail_if_no_progress extract_lets +onlyGivenNames x; first | (revert x; intro (x : Chip); refine Touch.cut (d := x) ?_ (fun hx => ?_); subst x; rotate_left; try clear_value x) | (revert x; intro (x : Chip × _); refine Touch.cut (d := x.1) ?_ (fun hx => ?_); subst x; rotate_left; try clear_value x) | skip)
    | (with_reducible first | exact Touch.refl | assumption | apply Touch.each | apply Touch.put | apply Touch.step (Chip.applyClass_touch ..) | apply Touch.step (Chip.senseEvents_touch ..) | apply Touch.step (Chip.senseSum_touch ..))
    | decide +kernel
    | (with_reducible apply Touch.upd) <;> first | (intro p; cases p <;> dsimp only [Part.same] <;> first | exact Or.inl (by decide +kernel) | exact Or.inr rfl) | (with_reducible first | exact Touch.refl | assumption | apply Touch.each | apply Touch.put | apply Touch.step (Chip.applyClass_touch ..) | apply Touch.step (Chip.senseEvents_touch ..) | apply Touch.step (Chip.senseSum_touch ..)) | split
    | split
    | (intro _; intros)
    | (clear_value *; split)

theorem Chip.senseLcs_touch (c : Chip) (d : Derived) : Touch 0x1500 0x1000000000 c (Chip.senseLcs c d) := by
  unfold Chip.senseLcs
  repeat' first
    | (fail_if_no_progress extract_lets +onlyGivenNames x; first | (revert x; intro (x : Chip); refine Touch.cut (d := x) ?_ (fun hx => ?_); subst x; rotate_left; try clear_value x) | (revert x; intro (x : Chip × _); refine Touch.cut (d := x.1) ?_ (fun hx => ?_); subst x; rotate_left; try clear_value x) | skip)
    | (with_reducible first | exact Touch.refl | assumption | apply Touch.step (Chip.lcsShow_touch ..) | apply Chip.pending_touch)
    | decide +kernel
    | (with_reducible apply Touch.upd) <;> first | (intro p; cases p <;> dsimp only [Part.same] <;> first | exact Or.inl (by decide +kernel) | exact Or.inr rfl) | (with_reducible first | exact Touch.refl | assumption | apply Touch.step (Chip.lcsShow_touch ..) | apply Chip.pending_touch) | split
    | split
    | (intro _; intros)
    | (clear_value *; split)

theorem Chip.senseRecord_touch (c : Chip) (d : Derived) : Touch 0x7effffa 0x200180200000000000000000000000000000000000000000000009882050034 c (Chip.senseRecord c d) := by
  unfold Chip.senseRecord
  repeat' first
    | (fail_if_no_progress extract_lets +onlyGivenNames x; first | (revert x; intro (x : Chip); refine Touch.cut (d := x) ?_ (fun hx => ?_); subst x; rotate_left; try clear_value x) | (revert x; intro (x : Chip × _); refine Touch.cut (d := x.1) ?_ (fun hx => ?_); subst x; rotate_left; try clear_value x) | skip)
    | (with_reducible first | exact Touch.refl | assumption | apply Touch.step (Chip.otpMirror_touch ..) | apply Chip.pending_touch | apply Touch.step (Chip.senseEnd_touch ..))
    | decide +kernel
    | (with_reducible apply Touch.upd) <;> first | (intro p; cases p <;> dsimp only [Part.same] <;> first | exact Or.inl (by decide +kernel) | exact Or.inr rfl) | (with_reducible first | exact Touch.refl | assumption | apply Touch.step (Chip.otpMirror_touch ..) | apply Chip.pending_touch | apply Touch.step (Chip.senseEnd_touch ..)) | split
    | split
    | (intro _; intros)
    | (clear_value *; split)

theorem Chip.recStuck_touch (c : Chip) : Touch 0x7effffa 0x200180200000000000000000000000000000000000000000000009882050034 c (Chip.recStuck c) := by
  unfold Chip.recStuck
  repeat' first
    | (with_reducible first | exact Touch.refl | assumption | apply Touch.step (Chip.senseEnd_touch ..))
    | decide +kernel
    | (with_reducible apply Touch.upd) <;> first | (intro p; cases p <;> dsimp only [Part.same] <;> first | exact Or.inl (by decide +kernel) | exact Or.inr rfl) | (with_reducible first | exact Touch.refl | assumption | apply Touch.step (Chip.senseEnd_touch ..)) | split
    | split
    | (intro _; intros)
    | (clear_value *; split)

theorem Chip.recStop_touch (c : Chip) (fu : Fuses) (p : Nat × Nat) (ph : Nat) : Touch 0x7effffa 0x200180200000000000000000000000000000000000000000000009882050034 c (Chip.recStop c fu p ph) := by
  unfold Chip.recStop
  repeat' first
    | (with_reducible first | exact Touch.refl | assumption | apply Touch.step (Chip.logWord_touch ..) | apply Touch.step (Chip.otpRefresh_touch ..) | apply Touch.step (Chip.recStuck_touch ..))
    | decide +kernel
    | split
    | (intro _; intros)
    | (clear_value *; split)

theorem Chip.clearToken_touch (c : Chip) : Touch 0x0 0x40000000000000000000000000000000000000000000000000000000000000000 c (Chip.clearToken c) := by
  unfold Chip.clearToken
  repeat' first
    | (with_reducible first | exact Touch.refl | assumption | apply Touch.resetRegs)
    | decide +kernel
    | (intro h; constructor <;> simp only [R.LCS_TOKENn] <;> omega)
    | (intro off h1 h2; simp only [R.LCS_TOKENn] at h1 h2; exact covers_window (i := 258) (lo := 0x3010) (len := 0x20) (by decide +kernel) (by omega) (by omega))
    | split
    | (intro _; intros)
    | (clear_value *; split)

theorem Chip.lcsPhase_touch (c : Chip) (ph : Nat) (k : OtpKind) (cells : List (Nat × Nat)) : Touch 0x300 0x4000000000 c (Chip.lcsPhase c ph k cells) := by
  unfold Chip.lcsPhase
  repeat' first
    | (with_reducible first | exact Touch.refl | assumption | apply Touch.put)
    | decide +kernel
    | (with_reducible apply Touch.upd) <;> first | (intro p; cases p <;> dsimp only [Part.same] <;> first | exact Or.inl (by decide +kernel) | exact Or.inr rfl) | (with_reducible first | exact Touch.refl | assumption | apply Touch.put) | split
    | split
    | (intro _; intros)
    | (clear_value *; split)

theorem Chip.lcsAction_touch (c : Chip) (fu : Fuses) : Touch 0x308 0x180000000000000000000000000000000000000000000000104402000004 c (Chip.lcsAction c fu) := by
  unfold Chip.lcsAction
  repeat' first
    | (with_reducible first | exact Touch.refl | assumption | apply Touch.step (Chip.lcsPhase_touch ..) | apply Touch.step (Chip.quenchRequest_touch ..))
    | decide +kernel
    | split
    | (intro _; intros)
    | (clear_value *; split)

theorem Chip.lcsBegin_touch (c : Chip) (fu : Fuses) (src tgt : Nat) : Touch 0x1708 0x180000000000000000000000000000000000000000000000105402000004 c (Chip.lcsBegin c fu src tgt) := by
  unfold Chip.lcsBegin
  repeat' first
    | (fail_if_no_progress extract_lets +onlyGivenNames x; first | (revert x; intro (x : Chip); refine Touch.cut (d := x) ?_ (fun hx => ?_); subst x; rotate_left; try clear_value x) | (revert x; intro (x : Chip × _); refine Touch.cut (d := x.1) ?_ (fun hx => ?_); subst x; rotate_left; try clear_value x) | skip)
    | (with_reducible first | exact Touch.refl | assumption | apply Touch.put | apply Touch.step (Chip.lcsAction_touch ..) | apply Touch.step (Chip.lcsPhase_touch ..) | apply Chip.pending_touch)
    | decide +kernel
    | (with_reducible apply Touch.upd) <;> first | (intro p; cases p <;> dsimp only [Part.same] <;> first | exact Or.inl (by decide +kernel) | exact Or.inr rfl) | (with_reducible first | exact Touch.refl | assumption | apply Touch.put | apply Touch.step (Chip.lcsAction_touch ..) | apply Touch.step (Chip.lcsPhase_touch ..) | apply Chip.pending_touch) | split
    | split
    | (intro _; intros)
    | (clear_value *; split)

theorem Chip.lcsCtrlWrite_touch (c : Chip) (fu : Fuses) (req : Req) (value : Word) (jtag : Bool) : Touch 0x1708 0x40000180000000000000000000000000000000000000000000000105402000004 c (Chip.lcsCtrlWrite c fu req value jtag) := by
  unfold Chip.lcsCtrlWrite
  repeat' first
    | (fail_if_no_progress extract_lets +onlyGivenNames x; first | (revert x; intro (x : Chip); refine Touch.cut (d := x) ?_ (fun hx => ?_); subst x; rotate_left; try clear_value x) | (revert x; intro (x : Chip × _); refine Touch.cut (d := x.1) ?_ (fun hx => ?_); subst x; rotate_left; try clear_value x) | skip)
    | (with_reducible first | exact Touch.refl | assumption | apply Touch.put | apply Touch.when | apply Touch.step (Chip.clearToken_touch ..) | apply Touch.step (Chip.lcsBegin_touch ..) | apply Touch.step (Chip.log_touch ..) | apply Touch.step (Chip.logWord_touch ..))
    | decide +kernel
    | split
    | (intro _; intros)
    | (clear_value *; split)

end Sys2Proof.Machine
end

