-- ==== Sys2Proof/Laws/TouchRingOps.lean ====
section
/-! SUPPORT. What each function of Machine/RingOps.lean can change: the two masks of `Touch` (Laws/Touch.lean), parts and banks of registers. -/

set_option linter.unreachableTactic false
set_option linter.unusedTactic false
set_option linter.tactic.unusedName false
set_option linter.unnecessarySeqFocus false
set_option linter.unusedVariables false
set_option Elab.async false

namespace Sys2Proof.Machine

theorem Chip.setBreaks_touch (c : Chip) (ks : List (Nat × Nat)) : Touch 0x110 0x80000000000000000000 c (Chip.setBreaks c ks) := by
  unfold Chip.setBreaks
  repeat' first
    | (fail_if_no_progress extract_lets +onlyGivenNames x; first | (revert x; intro (x : Chip); refine Touch.cut (d := x) ?_ (fun hx => ?_); subst x; rotate_left; try clear_value x) | (revert x; intro (x : Chip × _); refine Touch.cut (d := x.1) ?_ (fun hx => ?_); subst x; rotate_left; try clear_value x) | skip)
    | (with_reducible first | exact Touch.refl | assumption | apply Touch.put)
    | decide +kernel
    | (with_reducible apply Touch.upd) <;> first | (intro p; cases p <;> dsimp only [Part.same] <;> first | exact Or.inl (by decide +kernel) | exact Or.inr rfl) | (with_reducible first | exact Touch.refl | assumption | apply Touch.put) | split
    | split
    | (intro _; intros)
    | (clear_value *; split)

theorem Chip.seqNext_touch (c : Chip) : Touch 0x118 0x180000000000000000000000000000000000000000000000000000000004 c (Chip.seqNext c) := by
  unfold Chip.seqNext
  repeat' first
    | (with_reducible first | exact Touch.refl | assumption | apply Touch.step (Chip.log_touch ..))
    | decide +kernel
    | (with_reducible apply Touch.upd) <;> first | (intro p; cases p <;> dsimp only [Part.same] <;> first | exact Or.inl (by decide +kernel) | exact Or.inr rfl) | (with_reducible first | exact Touch.refl | assumption | apply Touch.step (Chip.log_touch ..)) | split
    | split
    | (intro _; intros)
    | (clear_value *; split)

theorem Chip.ringOut_touch (c : Chip) (f : RingFrame) : Touch 0x10c 0x180000000000000000000000000000000000000000000000000000000004 c (Chip.ringOut c f) := by
  unfold Chip.ringOut
  repeat' first
    | (with_reducible first | exact Touch.refl | assumption | apply Touch.step (Chip.count_touch ..) | apply Touch.step (Chip.send_touch ..) | apply Touch.step (Chip.trace_touch ..))
    | decide +kernel
    | split
    | (intro _; intros)
    | (clear_value *; split)

theorem Chip.ringSend_touch (c : Chip) (typ dst : Nat) (payload : List Byte) : Touch 0x11c 0x180000000000000000000000000000000000000000000000000000000004 c (Chip.ringSend c typ dst payload) := by
  unfold Chip.ringSend
  repeat' first
    | (fail_if_no_progress extract_lets +onlyGivenNames x; first | (revert x; intro (x : Chip); refine Touch.cut (d := x) ?_ (fun hx => ?_); subst x; rotate_left; try clear_value x) | (revert x; intro (x : Chip × _); refine Touch.cut (d := x.1) ?_ (fun hx => ?_); subst x; rotate_left; try clear_value x) | skip)
    | (with_reducible first | exact Touch.refl | assumption | apply Touch.step (Chip.ringOut_touch ..) | apply Touch.step (Chip.seqNext_touch ..))
    | decide +kernel
    | (with_reducible apply Touch.upd) <;> first | (intro p; cases p <;> dsimp only [Part.same] <;> first | exact Or.inl (by decide +kernel) | exact Or.inr rfl) | (with_reducible first | exact Touch.refl | assumption | apply Touch.step (Chip.ringOut_touch ..) | apply Touch.step (Chip.seqNext_touch ..)) | split
    | split
    | (intro _; intros)
    | (clear_value *; split)

theorem Chip.ringBroadcast_touch (c : Chip) (typ : Nat) (payload : List Byte) : Touch 0x11c 0x180000000000000000000000000000000000000000000000000000000004 c (Chip.ringBroadcast c typ payload) := by
  unfold Chip.ringBroadcast
  repeat' first
    | (fail_if_no_progress extract_lets +onlyGivenNames x; first | (revert x; intro (x : Chip); refine Touch.cut (d := x) ?_ (fun hx => ?_); subst x; rotate_left; try clear_value x) | (revert x; intro (x : Chip × _); refine Touch.cut (d := x.1) ?_ (fun hx => ?_); subst x; rotate_left; try clear_value x) | skip)
    | (with_reducible first | exact Touch.refl | assumption | apply Touch.step (Chip.ringOut_touch ..) | apply Touch.step (Chip.seqNext_touch ..))
    | decide +kernel
    | split
    | (intro _; intros)
    | (clear_value *; split)

theorem Chip.ringResend_touch (c : Chip) (h : HeldFrame) : Touch 0x10c 0x180000000000000000000000000000000000000000000000000000000004 c (Chip.ringResend c h).1 := by
  unfold Chip.ringResend
  repeat' first
    | (fail_if_no_progress extract_lets +onlyGivenNames x; first | (revert x; intro (x : Chip); refine Touch.cut (d := x) ?_ (fun hx => ?_); subst x; rotate_left; try clear_value x) | (revert x; intro (x : Chip × _); refine Touch.cut (d := x.1) ?_ (fun hx => ?_); subst x; rotate_left; try clear_value x) | skip)
    | (with_reducible first | exact Touch.refl | assumption | apply Touch.step (Chip.count_touch ..) | apply Touch.step (Chip.ringOut_touch ..))
    | decide +kernel
    | split
    | (intro _; intros)
    | (clear_value *; split)

theorem Chip.resendWhere_touch (c : Chip) (p : HeldFrame → Bool) : Touch 0x11c 0x180000000000000000000000000000000000000000000000000000000004 c (c.resendWhere p) := by
  unfold Chip.resendWhere
  refine Touch.upd (c := (c.ring.held.foldl (fun (acc : Chip × List HeldFrame) h =>
    if p h then (let q := acc.1.ringResend h; (q.1, acc.2 ++ [q.2])) else (acc.1, acc.2 ++ [h])) (c, [])).1) ?_ ?_
  · intro p; cases p <;> first | exact Or.inl (by decide +kernel) | exact Or.inr rfl
  · refine Touch.foldl_fst (fun d i h => ?_) Touch.refl
    split
    · exact Touch.step (Chip.ringResend_touch ..) (by decide +kernel) (by decide +kernel) h
    · exact h

theorem Chip.ringTimeout_touch (c : Chip) (seq : Nat) : Touch 0x11c 0x180000000000000000000000000000000000000000000000000000000004 c (Chip.ringTimeout c seq).1 := by
  unfold Chip.ringTimeout
  repeat' first
    | (fail_if_no_progress extract_lets +onlyGivenNames x; first | (revert x; intro (x : Chip); refine Touch.cut (d := x) ?_ (fun hx => ?_); subst x; rotate_left; try clear_value x) | (revert x; intro (x : Chip × _); refine Touch.cut (d := x.1) ?_ (fun hx => ?_); subst x; rotate_left; try clear_value x) | skip)
    | (with_reducible first | exact Touch.refl | assumption | apply Touch.step (Chip.log_touch ..) | apply Touch.step (Chip.resendWhere_touch ..))
    | decide +kernel
    | (with_reducible apply Touch.upd) <;> first | (intro p; cases p <;> dsimp only [Part.same] <;> first | exact Or.inl (by decide +kernel) | exact Or.inr rfl) | (with_reducible first | exact Touch.refl | assumption | apply Touch.step (Chip.log_touch ..) | apply Touch.step (Chip.resendWhere_touch ..)) | split
    | split
    | (intro _; intros)
    | (clear_value *; split)

theorem Chip.tagFail_touch (c : Chip) (f : RingFrame) : Touch 0x7effbfe 0x84200180200000001d0080001830400008100000001000000000670c402050034 c (c.tagFail f) := by
  unfold Chip.tagFail
  have h1 : ∀ t, Touch 0x7effbfe 0x84200180200000001d0080001830400008100000001000000000670c402050034 c { c with ring := { c.ring with fails := t } } := by
    intro n
    refine Touch.upd (c := c) ?_ Touch.refl
    intro p; cases p <;> first | exact Or.inl (by decide +kernel) | exact Or.inr rfl
  have h2 : ∀ d, Touch 0x7effbfe 0x84200180200000001d0080001830400008100000001000000000670c402050034 c d → Touch 0x7effbfe 0x84200180200000001d0080001830400008100000001000000000670c402050034 c ((d.add F.SKN_AUTH_FAIL_WINDOW 1).add F.SKN_AUTH_FAIL_LIFETIME 1) :=
    fun d h => Touch.add (by decide +kernel) (Touch.add (by decide +kernel) h)
  have h3 : ∀ d x y z, Touch 0x7effbfe 0x84200180200000001d0080001830400008100000001000000000670c402050034 c d → Touch 0x7effbfe 0x84200180200000001d0080001830400008100000001000000000670c402050034 c (d.log x y z) := fun d x y z h => Touch.step (Chip.log_touch ..) (by decide +kernel) (by decide +kernel) h
  have h4 : ∀ d x y, Touch 0x7effbfe 0x84200180200000001d0080001830400008100000001000000000670c402050034 c d → Touch 0x7effbfe 0x84200180200000001d0080001830400008100000001000000000670c402050034 c (d.count x y) := fun d x y h => Touch.step (Chip.count_touch ..) (by decide +kernel) (by decide +kernel) h
  have h5 : ∀ d x, Touch 0x7effbfe 0x84200180200000001d0080001830400008100000001000000000670c402050034 c d → Touch 0x7effbfe 0x84200180200000001d0080001830400008100000001000000000670c402050034 c (d.snagDecide x) := fun d x h => Touch.step (Chip.snagDecide_touch ..) (by decide +kernel) (by decide +kernel) h
  have h6 : ∀ d (p : Prop) [Decidable p] x y z, Touch 0x7effbfe 0x84200180200000001d0080001830400008100000001000000000670c402050034 c d → Touch 0x7effbfe 0x84200180200000001d0080001830400008100000001000000000670c402050034 c (if p then d.log x y z else d) := fun d p _ x y z h => Touch.ite (h3 _ _ _ _ h) h
  have h7 : ∀ d (p : Prop) [Decidable p] x, Touch 0x7effbfe 0x84200180200000001d0080001830400008100000001000000000670c402050034 c d → Touch 0x7effbfe 0x84200180200000001d0080001830400008100000001000000000670c402050034 c (if p then d.snagDecide x else d) := fun d p _ x h => Touch.ite (h5 _ _ h) h
  exact h7 _ _ _ (h6 _ _ _ _ _ (h3 _ _ _ _ (h4 _ _ _ (h2 _ (h1 _)))))

theorem Chip.ringAck_touch (c : Chip) (f : RingFrame) (result : Nat) : Touch 0x11c 0x180000000000000000000000000000000000000000000000000000000004 c (Chip.ringAck c f result) := by
  unfold Chip.ringAck
  repeat' first
    | (with_reducible first | exact Touch.refl | assumption | apply Touch.step (Chip.ringSend_touch ..))
    | decide +kernel
    | split
    | (intro _; intros)
    | (clear_value *; split)

theorem Chip.deliver_touch (c : Chip) (f : RingFrame) : Touch 0x10 0x0 c (Chip.deliver c f) := by
  unfold Chip.deliver
  repeat' first
    | (with_reducible first | exact Touch.refl | assumption)
    | decide +kernel
    | (with_reducible apply Touch.upd) <;> first | (intro p; cases p <;> dsimp only [Part.same] <;> first | exact Or.inl (by decide +kernel) | exact Or.inr rfl) | (with_reducible first | exact Touch.refl | assumption) | split
    | split
    | (intro _; intros)
    | (clear_value *; split)

theorem Chip.rxNote_touch (c : Chip) (f : RingFrame) : Touch 0x10 0x0 c (Chip.rxNote c f) := by
  unfold Chip.rxNote
  repeat' first
    | (with_reducible first | exact Touch.refl | assumption)
    | decide +kernel
    | (with_reducible apply Touch.upd) <;> first | (intro p; cases p <;> dsimp only [Part.same] <;> first | exact Or.inl (by decide +kernel) | exact Or.inr rfl) | (with_reducible first | exact Touch.refl | assumption) | split
    | split
    | (intro _; intros)
    | (clear_value *; split)

theorem Chip.ringTake_touch (c : Chip) (f : RingFrame) : Touch 0x7effbfe 0x84200180200000001d0080001830400008100000001000000000670c402050034 c (Chip.ringTake c f) := by
  unfold Chip.ringTake
  repeat' first
    | (with_reducible first | exact Touch.refl | assumption | apply Touch.step (Chip.deliver_touch ..) | apply Touch.step (Chip.ringAck_touch ..) | apply Touch.step (Chip.rxNote_touch ..) | apply Touch.step (Chip.tagFail_touch ..))
    | decide +kernel
    | (with_reducible apply Touch.upd) <;> first | (intro p; cases p <;> dsimp only [Part.same] <;> first | exact Or.inl (by decide +kernel) | exact Or.inr rfl) | (with_reducible first | exact Touch.refl | assumption | apply Touch.step (Chip.deliver_touch ..) | apply Touch.step (Chip.ringAck_touch ..) | apply Touch.step (Chip.rxNote_touch ..) | apply Touch.step (Chip.tagFail_touch ..)) | split
    | split
    | (intro _; intros)
    | (clear_value *; split)

theorem Chip.ringReceive_touch (c : Chip) (bs : List Byte) : Touch 0x7effbfe 0x84200180200000001d0080001830400008100000001000000000670c402050034 c (Chip.ringReceive c bs) := by
  unfold Chip.ringReceive
  repeat' first
    | (fail_if_no_progress extract_lets +onlyGivenNames x; first | (revert x; intro (x : Chip); refine Touch.cut (d := x) ?_ (fun hx => ?_); subst x; rotate_left; try clear_value x) | (revert x; intro (x : Chip × _); refine Touch.cut (d := x.1) ?_ (fun hx => ?_); subst x; rotate_left; try clear_value x) | skip)
    | (with_reducible first | exact Touch.refl | assumption | apply Touch.step (Chip.count_touch ..) | apply Touch.step (Chip.log_touch ..) | apply Touch.step (Chip.ringTake_touch ..) | apply Touch.step (Chip.send_touch ..) | apply Touch.step (Chip.trace_touch ..))
    | decide +kernel
    | split
    | (intro _; intros)
    | (clear_value *; split)

theorem Chip.takeInbox_touch (c : Chip) (typ : Nat) (p : Inbox × Chip) (h : c.takeInbox typ = some p) : Touch 0x10 0x0 c p.2 := by
  unfold Chip.takeInbox at h
  split at h
  · cases h
  · cases h
    refine Touch.upd (c := c) ?_ Touch.refl
    intro p; cases p <;> first | exact Or.inl (by decide +kernel) | exact Or.inr rfl

theorem Chip.onFrame_touch {pm bm : Nat} {a : Chip} (c : Chip) (typ : Nat) (f : Chip → Inbox → Chip) (hp : sub 0x10 pm = true) (hb : sub 0x0 bm = true)
    (h_f : ∀ d x1, Touch pm bm a d → Touch pm bm a (f d x1))
    (hT : Touch pm bm a c) : Touch pm bm a (Chip.onFrame c typ f) := by
  unfold Chip.onFrame
  split
  · exact hT
  · exact h_f _ _ (Touch.step (Chip.takeInbox_touch _ _ _ ‹_›) (sub_trans (by decide +kernel) hp) (sub_trans (by decide +kernel) hb) hT)

theorem Chip.setPresent_touch (c : Chip) (n : Nat) (b : Bool) : Touch 0x100 0x700000000000000000000 c (Chip.setPresent c n b) := by
  unfold Chip.setPresent
  repeat' first
    | (with_reducible first | exact Touch.refl | assumption | apply Touch.put)
    | decide +kernel
    | split
    | (intro _; intros)
    | (clear_value *; split)

theorem Chip.noteBreak_touch (c : Chip) (a b : Nat) : Touch 0x11c 0x180000000000000000000000000000000000000780000000000000000004 c (Chip.noteBreak c a b).1 := by
  unfold Chip.noteBreak
  repeat' first
    | (fail_if_no_progress extract_lets +onlyGivenNames x; first | (revert x; intro (x : Chip); refine Touch.cut (d := x) ?_ (fun hx => ?_); subst x; rotate_left; try clear_value x) | (revert x; intro (x : Chip × _); refine Touch.cut (d := x.1) ?_ (fun hx => ?_); subst x; rotate_left; try clear_value x) | skip)
    | (with_reducible first | exact Touch.refl | assumption | apply Touch.each | apply Touch.step (Chip.count_touch ..) | apply Touch.step (Chip.log_touch ..) | apply Touch.step (Chip.resendWhere_touch ..) | apply Touch.step (Chip.setBreaks_touch ..) | apply Touch.step (Chip.setPresent_touch ..))
    | decide +kernel
    | split
    | (intro _; intros)
    | (clear_value *; split)

theorem Chip.noteMended_touch (c : Chip) (a b : Nat) : Touch 0x118 0x180000000000000000000000000000000000000780000000000000000004 c (Chip.noteMended c a b) := by
  unfold Chip.noteMended
  repeat' first
    | (fail_if_no_progress extract_lets +onlyGivenNames x; first | (revert x; intro (x : Chip); refine Touch.cut (d := x) ?_ (fun hx => ?_); subst x; rotate_left; try clear_value x) | (revert x; intro (x : Chip × _); refine Touch.cut (d := x.1) ?_ (fun hx => ?_); subst x; rotate_left; try clear_value x) | skip)
    | (with_reducible first | exact Touch.refl | assumption | apply Touch.step (Chip.log_touch ..) | apply Touch.step (Chip.setBreaks_touch ..) | apply Touch.step (Chip.setPresent_touch ..))
    | decide +kernel
    | split
    | (intro _; intros)
    | (clear_value *; split)

theorem Chip.sendForce_touch (c : Chip) (node : Nat) : Touch 0x11c 0x180000000000000000000000000000000000000000000000000000000004 c (Chip.sendForce c node) := by
  unfold Chip.sendForce
  repeat' first
    | (with_reducible first | exact Touch.refl | assumption | apply Touch.step (Chip.ringSend_touch ..))
    | decide +kernel
    | unfold bridgeField
    | split
    | (intro _; intros)
    | (clear_value *; split)

theorem Chip.bridgeWrite_touch (c : Chip) (n : Nat) (value : Word) : Touch 0x11c 0x180000000000000000000000000000000000003800000000000000000004 c (Chip.bridgeWrite c n value) := by
  unfold Chip.bridgeWrite
  dsimp only
  repeat' first
    | (with_reducible first | exact Touch.refl | assumption | apply Touch.each | apply Touch.put | apply Touch.step (Chip.sendForce_touch ..))
    | decide +kernel
    | unfold bridgeField
    | split
    | (intro _; intros)
    | (clear_value *; split)

end Sys2Proof.Machine
end

