-- ==== Sys2Proof/Laws/TouchMailboxOps.lean ====
section
/-! SUPPORT. What each function of Machine/MailboxOps.lean can change: the two masks of `Touch` (Laws/Touch.lean), parts and banks of registers. -/

set_option linter.unreachableTactic false
set_option linter.unusedTactic false
set_option linter.tactic.unusedName false
set_option linter.unnecessarySeqFocus false
set_option linter.unusedVariables false
set_option Elab.async false

namespace Sys2Proof.Machine

theorem Chip.coreSet_touch (c : Chip) (k st : Nat) : Touch 0x100 0x40000000000000000000000000000000000000000000000000000000000004 c (Chip.coreSet c k st) := by
  unfold Chip.coreSet
  repeat' first
    | (with_reducible first | exact Touch.refl | assumption | apply Touch.put | apply Touch.puti | apply Touch.step (Chip.noilTrans_touch ..))
    | decide +kernel
    | split
    | (intro _; intros)
    | (clear_value *; split)

theorem Chip.coreStart_touch (c : Chip) (k : Nat) : Touch 0x1108 0x40180000000000000000000000000000000000000000000000000000000004 c (Chip.coreStart c k) := by
  unfold Chip.coreStart
  repeat' first
    | (fail_if_no_progress extract_lets +onlyGivenNames x; first | (revert x; intro (x : Chip); refine Touch.cut (d := x) ?_ (fun hx => ?_); subst x; rotate_left; try clear_value x) | (revert x; intro (x : Chip × _); refine Touch.cut (d := x.1) ?_ (fun hx => ?_); subst x; rotate_left; try clear_value x) | skip)
    | (with_reducible first | exact Touch.refl | assumption | apply Touch.step (Chip.coreSet_touch ..) | apply Touch.step (Chip.log_touch ..))
    | decide +kernel
    | (with_reducible apply Touch.upd) <;> first | (intro p; cases p <;> dsimp only [Part.same] <;> first | exact Or.inl (by decide +kernel) | exact Or.inr rfl) | (with_reducible first | exact Touch.refl | assumption | apply Touch.step (Chip.coreSet_touch ..) | apply Touch.step (Chip.log_touch ..)) | split
    | split
    | (intro _; intros)
    | (clear_value *; split)

theorem Chip.mbPut_touch {pm bm : Nat} {a : Chip} (c : Chip) (ns : Bool) (n : Nat) (f : Fld) (v : Nat)
    (h1 : hasField bm f = true) (h2 : hasField bm (mbF true f) = true) (h : Touch pm bm a c) : Touch pm bm a (c.mbPut ns n f v) := by
  unfold Chip.mbPut
  refine Touch.puti ?_ h
  cases ns
  · exact h1
  · exact h2

theorem Chip.mbWord_touch (c : Chip) (ns : Bool) (n i : Nat) (w : Word) : Touch 0x0 0xc00000000000000000000000000000000000000000000000000000000000000 c (c.mbWord ns n i w) := by
  unfold Chip.mbWord
  split
  · rename_i h
    simp only [Bool.and_eq_true, decide_eq_true_eq] at h
    refine Touch.wr ?_ Touch.refl
    cases ns
    · exact covers_window (i := 250) (lo := 0x8000) (len := 0x800) (by decide +kernel) (by simp [mbBase]; omega) (by simp [mbBase]; omega)
    · exact covers_window (i := 251) (lo := 0x9000) (len := 0x800) (by decide +kernel) (by simp [mbBase]; omega) (by simp [mbBase]; omega)
  · exact Touch.refl

theorem Chip.mbClear_touch (c : Chip) (ns : Bool) (n : Nat) : Touch 0x0 0xc00000000000000000000000000000000000000000000000000000000000000 c (c.mbClear ns n) := by
  unfold Chip.mbClear
  cases ns
  · exact Touch.resetCopy 250 0x8000 0x800 (by decide +kernel) (fun h => by simp [mbBase]; omega) Touch.refl
  · exact Touch.resetCopy 251 0x9000 0x800 (by decide +kernel) (fun h => by simp [mbBase]; omega) Touch.refl

theorem Chip.mbFree_touch (c : Chip) (ns : Bool) (n : Nat) : Touch 0x1100 0xc00000000000000000000000000000000010400000000000000000000000000 c (Chip.mbFree c ns n) := by
  unfold Chip.mbFree
  repeat' first
    | (fail_if_no_progress extract_lets +onlyGivenNames x; first | (revert x; intro (x : Chip); refine Touch.cut (d := x) ?_ (fun hx => ?_); subst x; rotate_left; try clear_value x) | (revert x; intro (x : Chip × _); refine Touch.cut (d := x.1) ?_ (fun hx => ?_); subst x; rotate_left; try clear_value x) | skip)
    | (with_reducible first | exact Touch.refl | assumption | apply Touch.step (Chip.mbClear_touch ..) | apply Chip.mbPut_touch)
    | decide +kernel
    | (with_reducible apply Touch.upd) <;> first | (intro p; cases p <;> dsimp only [Part.same] <;> first | exact Or.inl (by decide +kernel) | exact Or.inr rfl) | (with_reducible first | exact Touch.refl | assumption | apply Touch.step (Chip.mbClear_touch ..) | apply Chip.mbPut_touch) | split
    | split
    | (intro _; intros)
    | (clear_value *; split)

theorem Chip.mbRaiseFull_touch (c : Chip) (ns : Bool) (n : Nat) : Touch 0x1004 0x0 c (Chip.mbRaiseFull c ns n) := by
  unfold Chip.mbRaiseFull
  repeat' first
    | (fail_if_no_progress extract_lets +onlyGivenNames x; first | (revert x; intro (x : Chip); refine Touch.cut (d := x) ?_ (fun hx => ?_); subst x; rotate_left; try clear_value x) | (revert x; intro (x : Chip × _); refine Touch.cut (d := x.1) ?_ (fun hx => ?_); subst x; rotate_left; try clear_value x) | skip)
    | (with_reducible first | exact Touch.refl | assumption | apply Touch.step (Chip.send_touch ..))
    | decide +kernel
    | (with_reducible apply Touch.upd) <;> first | (intro p; cases p <;> dsimp only [Part.same] <;> first | exact Or.inl (by decide +kernel) | exact Or.inr rfl) | (with_reducible first | exact Touch.refl | assumption | apply Touch.step (Chip.send_touch ..)) | split
    | split
    | (intro _; intros)
    | (clear_value *; split)

theorem Chip.mbFull_touch (c : Chip) (ns : Bool) (n words : Nat) : Touch 0x1104 0x10400000000000000000000000000 c (Chip.mbFull c ns n words) := by
  unfold Chip.mbFull
  repeat' first
    | (fail_if_no_progress extract_lets +onlyGivenNames x; first | (revert x; intro (x : Chip); refine Touch.cut (d := x) ?_ (fun hx => ?_); subst x; rotate_left; try clear_value x) | (revert x; intro (x : Chip × _); refine Touch.cut (d := x.1) ?_ (fun hx => ?_); subst x; rotate_left; try clear_value x) | skip)
    | (with_reducible first | exact Touch.refl | assumption | apply Touch.step (Chip.count_touch ..) | apply Chip.mbPut_touch | apply Touch.step (Chip.mbRaiseFull_touch ..))
    | decide +kernel
    | (with_reducible apply Touch.upd) <;> first | (intro p; cases p <;> dsimp only [Part.same] <;> first | exact Or.inl (by decide +kernel) | exact Or.inr rfl) | (with_reducible first | exact Touch.refl | assumption | apply Touch.step (Chip.count_touch ..) | apply Chip.mbPut_touch | apply Touch.step (Chip.mbRaiseFull_touch ..)) | split
    | split
    | (intro _; intros)
    | (clear_value *; split)

theorem Chip.mbRaiseEmpty_touch (c : Chip) (ns : Bool) (n : Nat) : Touch 0x4 0x0 c (Chip.mbRaiseEmpty c ns n) := by
  unfold Chip.mbRaiseEmpty
  repeat' first
    | (with_reducible first | exact Touch.refl | assumption | apply Touch.step (Chip.send_touch ..))
    | decide +kernel
    | split
    | (intro _; intros)
    | (clear_value *; split)

theorem Chip.mbReplied_touch (c : Chip) (ns : Bool) (n words : Nat) : Touch 0x1104 0x10400000000000000000000000000 c (Chip.mbReplied c ns n words) := by
  unfold Chip.mbReplied
  repeat' first
    | (fail_if_no_progress extract_lets +onlyGivenNames x; first | (revert x; intro (x : Chip); refine Touch.cut (d := x) ?_ (fun hx => ?_); subst x; rotate_left; try clear_value x) | (revert x; intro (x : Chip × _); refine Touch.cut (d := x.1) ?_ (fun hx => ?_); subst x; rotate_left; try clear_value x) | skip)
    | (with_reducible first | exact Touch.refl | assumption | apply Chip.mbPut_touch | apply Touch.step (Chip.mbRaiseEmpty_touch ..))
    | decide +kernel
    | (with_reducible apply Touch.upd) <;> first | (intro p; cases p <;> dsimp only [Part.same] <;> first | exact Or.inl (by decide +kernel) | exact Or.inr rfl) | (with_reducible first | exact Touch.refl | assumption | apply Chip.mbPut_touch | apply Touch.step (Chip.mbRaiseEmpty_touch ..)) | split
    | split
    | (intro _; intros)
    | (clear_value *; split)

theorem Chip.mbLast_touch (c : Chip) (ns : Bool) (n : Nat) (st : Status) : Touch 0x100 0x10400000000000000000000000000 c (Chip.mbLast c ns n st) := by
  unfold Chip.mbLast
  repeat' first
    | (with_reducible first | exact Touch.refl | assumption | apply Chip.mbPut_touch)
    | decide +kernel
    | split
    | (intro _; intros)
    | (clear_value *; split)

theorem Chip.mbDenied_touch (c : Chip) (req : Req) (ns : Bool) (n off : Nat) : Touch 0x108 0x180000000000000000000000000000010400000000000000000000000004 c (Chip.mbDenied c req ns n off) := by
  unfold Chip.mbDenied
  repeat' first
    | (with_reducible first | exact Touch.refl | assumption | apply Touch.step (Chip.log_touch ..) | apply Touch.step (Chip.mbLast_touch ..))
    | decide +kernel
    | split
    | (intro _; intros)
    | (clear_value *; split)

theorem Chip.mbTouch_touch (c : Chip) (req : Req) (ns : Bool) (n : Nat) : Touch 0x1000 0x0 c (Chip.mbTouch c req ns n) := by
  unfold Chip.mbTouch
  repeat' first
    | (with_reducible first | exact Touch.refl | assumption)
    | decide +kernel
    | (with_reducible apply Touch.upd) <;> first | (intro p; cases p <;> dsimp only [Part.same] <;> first | exact Or.inl (by decide +kernel) | exact Or.inr rfl) | (with_reducible first | exact Touch.refl | assumption) | split
    | split
    | (intro _; intros)
    | (clear_value *; split)

theorem Chip.hostAck_touch (c : Chip) (n proto seq flags : Nat) (st : Status) : Touch 0x1104 0xc00000000000000000000000000000000010400000000000000000000000000 c (Chip.hostAck c n proto seq flags st) := by
  unfold Chip.hostAck
  repeat' first
    | (with_reducible first | exact Touch.refl | assumption | apply Touch.step (Chip.mbClear_touch ..) | apply Touch.step (Chip.mbLast_touch ..) | apply Touch.step (Chip.mbReplied_touch ..) | apply Touch.step (Chip.mbWord_touch ..))
    | decide +kernel
    | split
    | (intro _; intros)
    | (clear_value *; split)

theorem Chip.hostSend_touch (c : Chip) (n : Nat) (m : HostMsg) (body : List Byte) : Touch 0x1104 0xc00000000000000000000000000000000010400000000000000000000000000 c (Chip.hostSend c n m body) := by
  unfold Chip.hostSend
  repeat' first
    | (fail_if_no_progress extract_lets +onlyGivenNames x; first | (revert x; intro (x : Chip); refine Touch.cut (d := x) ?_ (fun hx => ?_); subst x; rotate_left; try clear_value x) | (revert x; intro (x : Chip × _); refine Touch.cut (d := x.1) ?_ (fun hx => ?_); subst x; rotate_left; try clear_value x) | skip)
    | (with_reducible first | exact Touch.refl | assumption | apply Touch.each | apply Touch.step (Chip.mbClear_touch ..) | apply Touch.step (Chip.mbLast_touch ..) | apply Touch.step (Chip.mbReplied_touch ..) | apply Touch.step (Chip.mbWord_touch ..))
    | decide +kernel
    | (with_reducible apply Touch.upd) <;> first | (intro p; cases p <;> dsimp only [Part.same] <;> first | exact Or.inl (by decide +kernel) | exact Or.inr rfl) | (with_reducible first | exact Touch.refl | assumption | apply Touch.each | apply Touch.step (Chip.mbClear_touch ..) | apply Touch.step (Chip.mbLast_touch ..) | apply Touch.step (Chip.mbReplied_touch ..) | apply Touch.step (Chip.mbWord_touch ..)) | split
    | split
    | (intro _; intros)
    | (clear_value *; split)

theorem Chip.hostTake_touch (c : Chip) (n words : Nat) : Touch 0x1104 0xc00000000000000000000000000000000010400000000000000000000000000 c (Chip.hostTake c n words) := by
  unfold Chip.hostTake
  repeat' first
    | (fail_if_no_progress extract_lets +onlyGivenNames x; first | (revert x; intro (x : Chip); refine Touch.cut (d := x) ?_ (fun hx => ?_); subst x; rotate_left; try clear_value x) | (revert x; intro (x : Chip × _); refine Touch.cut (d := x.1) ?_ (fun hx => ?_); subst x; rotate_left; try clear_value x) | skip)
    | (with_reducible first | exact Touch.refl | assumption | apply Touch.step (Chip.hostAck_touch ..) | apply Touch.step (Chip.hostSend_touch ..))
    | decide +kernel
    | split
    | (with_reducible apply Touch.upd) <;> first | (intro p; cases p <;> dsimp only [Part.same] <;> first | exact Or.inl (by decide +kernel) | exact Or.inr rfl) | (with_reducible first | exact Touch.refl | assumption | apply Touch.step (Chip.hostAck_touch ..) | apply Touch.step (Chip.hostSend_touch ..)) | split
    | split
    | (intro _; intros)
    | (clear_value *; split)

theorem Chip.hostRetry_touch (c : Chip) : Touch 0x1104 0xc00000000000000000000000000000000010400000000000000000000000000 c (Chip.hostRetry c) := by
  unfold Chip.hostRetry
  repeat' first
    | (fail_if_no_progress extract_lets +onlyGivenNames x; first | (revert x; intro (x : Chip); refine Touch.cut (d := x) ?_ (fun hx => ?_); subst x; rotate_left; try clear_value x) | (revert x; intro (x : Chip × _); refine Touch.cut (d := x.1) ?_ (fun hx => ?_); subst x; rotate_left; try clear_value x) | skip)
    | (with_reducible first | exact Touch.refl | assumption | apply Touch.each | apply Touch.step (Chip.hostTake_touch ..) | apply Touch.step (Chip.mbRaiseFull_touch ..))
    | decide +kernel
    | (with_reducible apply Touch.upd) <;> first | (intro p; cases p <;> dsimp only [Part.same] <;> first | exact Or.inl (by decide +kernel) | exact Or.inr rfl) | (with_reducible first | exact Touch.refl | assumption | apply Touch.each | apply Touch.step (Chip.hostTake_touch ..) | apply Touch.step (Chip.mbRaiseFull_touch ..)) | split
    | split
    | (intro _; intros)
    | (clear_value *; split)

theorem Chip.hostReply_touch (c : Chip) (conn : Nat) (body : List Byte) : Touch 0x1104 0xc00000000000000000000000000000000010400000000000000000000000000 c (Chip.hostReply c conn body) := by
  unfold Chip.hostReply
  repeat' first
    | (with_reducible first | exact Touch.refl | assumption | apply Touch.step (Chip.hostSend_touch ..))
    | decide +kernel
    | split
    | (intro _; intros)
    | (clear_value *; split)

theorem Chip.answer_touch (c : Chip) (k : Call) (a : Answer) : Touch 0x190c 0xc00180000000000000000000000000000010400000000000000000000000004 c (Chip.answer c k a) := by
  unfold Chip.answer
  repeat' first
    | (fail_if_no_progress extract_lets +onlyGivenNames x; first | (revert x; intro (x : Chip); refine Touch.cut (d := x) ?_ (fun hx => ?_); subst x; rotate_left; try clear_value x) | (revert x; intro (x : Chip × _); refine Touch.cut (d := x.1) ?_ (fun hx => ?_); subst x; rotate_left; try clear_value x) | skip)
    | (with_reducible first | exact Touch.refl | assumption | apply Touch.each | apply Touch.step (Chip.count_touch ..) | apply Touch.step (Chip.log_touch ..) | apply Touch.step (Chip.mbFree_touch ..) | apply Touch.step (Chip.mbLast_touch ..) | apply Touch.step (Chip.mbReplied_touch ..) | apply Touch.step (Chip.mbWord_touch ..) | apply Touch.step (Chip.rovWr_touch ..))
    | decide +kernel
    | (with_reducible apply Touch.upd) <;> first | (intro p; cases p <;> dsimp only [Part.same] <;> first | exact Or.inl (by decide +kernel) | exact Or.inr rfl) | (with_reducible first | exact Touch.refl | assumption | apply Touch.each | apply Touch.step (Chip.count_touch ..) | apply Touch.step (Chip.log_touch ..) | apply Touch.step (Chip.mbFree_touch ..) | apply Touch.step (Chip.mbLast_touch ..) | apply Touch.step (Chip.mbReplied_touch ..) | apply Touch.step (Chip.mbWord_touch ..) | apply Touch.step (Chip.rovWr_touch ..)) | split
    | split
    | (intro _; intros)
    | (clear_value *; split)

theorem Chip.onCall_touch {pm bm : Nat} {a : Chip} (c : Chip) (n code : Nat) (gate : Chip → Call → Status) (f : Chip → Call → List Byte → Chip × Answer) (hp : sub 0x190c pm = true) (hb : sub 0xc00180000000000000000000000000000010400000000000000000000000004 bm = true)
    (h_f : ∀ d x1 x2, Touch pm bm a d → Touch pm bm a (f d x1 x2).1)
    (hT : Touch pm bm a c) : Touch pm bm a (Chip.onCall c n code gate f) := by
  unfold Chip.onCall
  repeat' first
    | (fail_if_no_progress extract_lets +onlyGivenNames x; first | (revert x; intro (x : Chip); refine Touch.cut (d := x) ?_ (fun hx => ?_); subst x; rotate_left; try clear_value x) | (revert x; intro (x : Chip × _); refine Touch.cut (d := x.1) ?_ (fun hx => ?_); subst x; rotate_left; try clear_value x) | skip)
    | (with_reducible first | exact Touch.refl | assumption | apply Touch.step (Chip.answer_touch ..) | apply Touch.step (Chip.log_touch ..) | apply h_f)
    | exact sub_trans (by decide +kernel) hp
    | exact sub_trans (by decide +kernel) hb
    | exact hasField_sub hb (by decide +kernel)
    | split
    | (intro _; intros)
    | (clear_value *; split)

theorem Chip.pendCall_touch (c : Chip) (k : Call) (p : Nat × Chip) (h : c.pendCall k = some p) : Touch 0x1000 0x0 c p.2 := by
  unfold Chip.pendCall at h
  split at h
  · cases h
    refine Touch.upd (c := c) ?_ Touch.refl
    intro p; cases p <;> first | exact Or.inl (by decide +kernel) | exact Or.inr rfl
  · cases h

theorem Chip.pending_touch {pm bm : Nat} {a : Chip} (c : Chip) (k : Call) (work : Chip → Nat → Chip) (hp : sub 0x1000 pm = true) (hb : sub 0x0 bm = true)
    (h_work : ∀ d x1, Touch pm bm a d → Touch pm bm a (work d x1))
    (hT : Touch pm bm a c) : Touch pm bm a (Chip.pending c k work).1 := by
  unfold Chip.pending
  split
  · exact hT
  · exact h_work _ _ (Touch.step (Chip.pendCall_touch _ _ _ ‹_›) (sub_trans (by decide +kernel) hp) (sub_trans (by decide +kernel) hb) hT)

theorem Chip.finishCall_touch (c : Chip) (ticket : Nat) (st : Status) (out : List Byte) : Touch 0x1908 0x180000000000000000000000000000000000000000000000000000000004 c (Chip.finishCall c ticket st out) := by
  unfold Chip.finishCall
  repeat' first
    | (fail_if_no_progress extract_lets +onlyGivenNames x; first | (revert x; intro (x : Chip); refine Touch.cut (d := x) ?_ (fun hx => ?_); subst x; rotate_left; try clear_value x) | (revert x; intro (x : Chip × _); refine Touch.cut (d := x.1) ?_ (fun hx => ?_); subst x; rotate_left; try clear_value x) | skip)
    | (with_reducible first | exact Touch.refl | assumption | apply Touch.step (Chip.log_touch ..) | apply Touch.step (Chip.rovWr_touch ..))
    | decide +kernel
    | (with_reducible apply Touch.upd) <;> first | (intro p; cases p <;> dsimp only [Part.same] <;> first | exact Or.inl (by decide +kernel) | exact Or.inr rfl) | (with_reducible first | exact Touch.refl | assumption | apply Touch.step (Chip.log_touch ..) | apply Touch.step (Chip.rovWr_touch ..)) | split
    | split
    | (intro _; intros)
    | (clear_value *; split)

end Sys2Proof.Machine
end

