-- ==== Sys2Proof/Laws/TouchPlySend.lean ====
section
/-! SUPPORT. What each function of Machine/PlySend.lean can change: the two masks of `Touch` (Laws/Touch.lean), parts and banks of registers. -/

set_option linter.unreachableTactic false
set_option linter.unusedTactic false
set_option linter.tactic.unusedName false
set_option linter.unnecessarySeqFocus false
set_option linter.unusedVariables false
set_option Elab.async false

namespace Sys2Proof.Machine

theorem Chip.setRole_touch (c : Chip) (r : Nat) : Touch 0x100 0x40000000000000000000000 c (Chip.setRole c r) := by
  unfold Chip.setRole
  repeat' first
    | (with_reducible first | exact Touch.refl | assumption | apply Touch.put | apply Touch.step (Chip.noilTrans_touch ..))
    | decide +kernel
    | split
    | (intro _; intros)
    | (clear_value *; split)

theorem Chip.plySend_touch (c : Chip) (typ : Nat) (payload : List Byte) (item : Option MItem) (part : Option ResPart) : Touch 0x100010c 0x180000000000000000000000000000000000000000000000000000000004 c (Chip.plySend c typ payload item part) := by
  unfold Chip.plySend
  repeat' first
    | (fail_if_no_progress extract_lets +onlyGivenNames x; first | (revert x; intro (x : Chip); refine Touch.cut (d := x) ?_ (fun hx => ?_); subst x; rotate_left; try clear_value x) | (revert x; intro (x : Chip × _); refine Touch.cut (d := x.1) ?_ (fun hx => ?_); subst x; rotate_left; try clear_value x) | skip)
    | (with_reducible first | exact Touch.refl | assumption | apply Touch.step (Chip.send_touch ..) | apply Touch.step (Chip.trace_touch ..))
    | decide +kernel
    | (with_reducible apply Touch.upd) <;> first | (intro p; cases p <;> dsimp only [Part.same] <;> first | exact Or.inl (by decide +kernel) | exact Or.inr rfl) | (with_reducible first | exact Touch.refl | assumption | apply Touch.step (Chip.send_touch ..) | apply Touch.step (Chip.trace_touch ..)) | split
    | split
    | (intro _; intros)
    | (clear_value *; split)

theorem Chip.mirrorItem_touch (c : Chip) (i : MItem) : Touch 0x100010c 0x180000000000000000000000000000000003000000000000000000000004 c (Chip.mirrorItem c i).1 := by
  unfold Chip.mirrorItem
  repeat' first
    | (fail_if_no_progress extract_lets +onlyGivenNames x; first | (revert x; intro (x : Chip); refine Touch.cut (d := x) ?_ (fun hx => ?_); subst x; rotate_left; try clear_value x) | (revert x; intro (x : Chip × _); refine Touch.cut (d := x.1) ?_ (fun hx => ?_); subst x; rotate_left; try clear_value x) | skip)
    | (with_reducible first | exact Touch.refl | assumption | apply Touch.put64 | apply Touch.step (Chip.count_touch ..) | apply Touch.step (Chip.plySend_touch ..))
    | decide +kernel
    | (with_reducible apply Touch.upd) <;> first | (intro p; cases p <;> dsimp only [Part.same] <;> first | exact Or.inl (by decide +kernel) | exact Or.inr rfl) | (with_reducible first | exact Touch.refl | assumption | apply Touch.put64 | apply Touch.step (Chip.count_touch ..) | apply Touch.step (Chip.plySend_touch ..)) | split
    | exact covers_reg (by decide +kernel)
    | split
    | (intro _; intros)
    | (clear_value *; split)

theorem Chip.mirrorEarly_touch (c : Chip) (i : MItem) : Touch 0x100010c 0x180000000000000000000000000000000003000000000000000000000004 c (Chip.mirrorEarly c i).1 := by
  unfold Chip.mirrorEarly
  repeat' first
    | (fail_if_no_progress extract_lets +onlyGivenNames x; first | (revert x; intro (x : Chip); refine Touch.cut (d := x) ?_ (fun hx => ?_); subst x; rotate_left; try clear_value x) | (revert x; intro (x : Chip × _); refine Touch.cut (d := x.1) ?_ (fun hx => ?_); subst x; rotate_left; try clear_value x) | skip)
    | (with_reducible first | exact Touch.refl | assumption | apply Touch.put64 | apply Touch.step (Chip.count_touch ..) | apply Touch.step (Chip.mirrorItem_touch ..) | apply Touch.step (Chip.plySend_touch ..))
    | decide +kernel
    | (with_reducible apply Touch.upd) <;> first | (intro p; cases p <;> dsimp only [Part.same] <;> first | exact Or.inl (by decide +kernel) | exact Or.inr rfl) | (with_reducible first | exact Touch.refl | assumption | apply Touch.put64 | apply Touch.step (Chip.count_touch ..) | apply Touch.step (Chip.mirrorItem_touch ..) | apply Touch.step (Chip.plySend_touch ..)) | split
    | exact covers_reg (by decide +kernel)
    | split
    | (intro _; intros)
    | (clear_value *; split)

theorem Chip.hold_touch (c : Chip) (e : Eff) (mseq jseq : Nat) : Touch 0x1000000 0x0 c (Chip.hold c e mseq jseq) := by
  unfold Chip.hold
  repeat' first
    | (with_reducible first | exact Touch.refl | assumption)
    | decide +kernel
    | (with_reducible apply Touch.upd) <;> first | (intro p; cases p <;> dsimp only [Part.same] <;> first | exact Or.inl (by decide +kernel) | exact Or.inr rfl) | (with_reducible first | exact Touch.refl | assumption) | split
    | split
    | (intro _; intros)
    | (clear_value *; split)

theorem Chip.mirrorThen_touch (c : Chip) (i : MItem) (e : Eff) : Touch 0x100010c 0x180000000000000000000000000000000003000000000000000000000004 c (Chip.mirrorThen c i e) := by
  unfold Chip.mirrorThen
  repeat' first
    | (fail_if_no_progress extract_lets +onlyGivenNames x; first | (revert x; intro (x : Chip); refine Touch.cut (d := x) ?_ (fun hx => ?_); subst x; rotate_left; try clear_value x) | (revert x; intro (x : Chip × _); refine Touch.cut (d := x.1) ?_ (fun hx => ?_); subst x; rotate_left; try clear_value x) | skip)
    | (with_reducible first | exact Touch.refl | assumption | apply Touch.step (Chip.hold_touch ..) | apply Touch.step (Chip.mirrorItem_touch ..))
    | decide +kernel
    | split
    | (intro _; intros)
    | (clear_value *; split)

end Sys2Proof.Machine
end

