-- ==== Sys2Proof/Laws/TouchJournalOps.lean ====
section
/-! SUPPORT. What each function of Machine/JournalOps.lean can change: the two masks of `Touch` (Laws/Touch.lean), parts and banks of registers. -/

set_option linter.unreachableTactic false
set_option linter.unusedTactic false
set_option linter.tactic.unusedName false
set_option linter.unnecessarySeqFocus false
set_option linter.unusedVariables false
set_option Elab.async false

namespace Sys2Proof.Machine

theorem Chip.jName_touch (c : Chip) (r : JRec) : Touch 0x10000 0x0 c (Chip.jName c r) := by
  unfold Chip.jName
  repeat' first
    | (fail_if_no_progress extract_lets +onlyGivenNames x; first | (revert x; intro (x : Chip); refine Touch.cut (d := x) ?_ (fun hx => ?_); subst x; rotate_left; try clear_value x) | (revert x; intro (x : Chip × _); refine Touch.cut (d := x.1) ?_ (fun hx => ?_); subst x; rotate_left; try clear_value x) | skip)
    | (with_reducible first | exact Touch.refl | assumption)
    | decide +kernel
    | (with_reducible apply Touch.upd) <;> first | (intro p; cases p <;> dsimp only [Part.same] <;> first | exact Or.inl (by decide +kernel) | exact Or.inr rfl) | (with_reducible first | exact Touch.refl | assumption) | split
    | split
    | (intro _; intros)
    | (clear_value *; split)

theorem Chip.jr_touch (c : Chip) (f : Jrnl → Jrnl) : Touch 0x10000 0x0 c (Chip.jr c f) := by
  unfold Chip.jr
  repeat' first
    | (with_reducible first | exact Touch.refl | assumption)
    | decide +kernel
    | (with_reducible apply Touch.upd) <;> first | (intro p; cases p <;> dsimp only [Part.same] <;> first | exact Or.inl (by decide +kernel) | exact Or.inr rfl) | (with_reducible first | exact Touch.refl | assumption) | split
    | split
    | (intro _; intros)
    | (clear_value *; split)

theorem Chip.jWrite_touch (c : Chip) (r : JRec) : Touch 0x10000 0x300000000000000000000000000000000 c (Chip.jWrite c r).1 := by
  unfold Chip.jWrite
  repeat' first
    | (fail_if_no_progress extract_lets +onlyGivenNames x; first | (revert x; intro (x : Chip); refine Touch.cut (d := x) ?_ (fun hx => ?_); subst x; rotate_left; try clear_value x) | (revert x; intro (x : Chip × _); refine Touch.cut (d := x.1) ?_ (fun hx => ?_); subst x; rotate_left; try clear_value x) | skip)
    | (with_reducible first | exact Touch.refl | assumption | apply Touch.put64 | apply Touch.step (Chip.jName_touch ..) | apply Touch.step (Chip.jr_touch ..))
    | decide +kernel
    | exact covers_reg (by decide +kernel)
    | split
    | (intro _; intros)
    | (clear_value *; split)

theorem Chip.jWant_touch (c : Chip) (sector : Nat) : Touch 0x10000 0x300000000000000000000000000000000 c (Chip.jWant c sector) := by
  unfold Chip.jWant
  repeat' first
    | (fail_if_no_progress extract_lets +onlyGivenNames x; first | (revert x; intro (x : Chip); refine Touch.cut (d := x) ?_ (fun hx => ?_); subst x; rotate_left; try clear_value x) | (revert x; intro (x : Chip × _); refine Touch.cut (d := x.1) ?_ (fun hx => ?_); subst x; rotate_left; try clear_value x) | skip)
    | (with_reducible first | exact Touch.refl | assumption | apply Touch.each | apply Touch.step (Chip.jWrite_touch ..) | apply Touch.step (Chip.jr_touch ..))
    | decide +kernel
    | split
    | (intro _; intros)
    | (clear_value *; split)

theorem Chip.jClear_touch (c : Chip) : Touch 0x10000 0x300000000000000000000000000000000 c (Chip.jClear c) := by
  unfold Chip.jClear
  repeat' first
    | (fail_if_no_progress extract_lets +onlyGivenNames x; first | (revert x; intro (x : Chip); refine Touch.cut (d := x) ?_ (fun hx => ?_); subst x; rotate_left; try clear_value x) | (revert x; intro (x : Chip × _); refine Touch.cut (d := x.1) ?_ (fun hx => ?_); subst x; rotate_left; try clear_value x) | skip)
    | (with_reducible first | exact Touch.refl | assumption | apply Touch.step (Chip.jWant_touch ..) | apply Touch.step (Chip.jr_touch ..))
    | decide +kernel
    | split
    | (intro _; intros)
    | (clear_value *; split)

theorem Chip.jErase_touch (c : Chip) : Touch 0x10100 0x1000000000000000000000000000000000 c (Chip.jErase c) := by
  unfold Chip.jErase
  repeat' first
    | (with_reducible first | exact Touch.refl | assumption | apply Touch.put | apply Touch.step (Chip.jr_touch ..))
    | decide +kernel
    | split
    | (intro _; intros)
    | (clear_value *; split)

theorem Chip.jPage_touch (c : Chip) (page : List (Nat × JRec)) : Touch 0x100010c 0x180000000000000000000000000000000003000000000000000000000004 c (Chip.jPage c page) := by
  unfold Chip.jPage
  repeat' first
    | (fail_if_no_progress extract_lets +onlyGivenNames x; first | (revert x; intro (x : Chip); refine Touch.cut (d := x) ?_ (fun hx => ?_); subst x; rotate_left; try clear_value x) | (revert x; intro (x : Chip × _); refine Touch.cut (d := x.1) ?_ (fun hx => ?_); subst x; rotate_left; try clear_value x) | skip)
    | (with_reducible first | exact Touch.refl | assumption | apply Touch.each | apply Touch.step (Chip.mirrorItem_touch ..))
    | decide +kernel
    | (with_reducible apply Touch.upd) <;> first | (intro p; cases p <;> dsimp only [Part.same] <;> first | exact Or.inl (by decide +kernel) | exact Or.inr rfl) | (with_reducible first | exact Touch.refl | assumption | apply Touch.each | apply Touch.step (Chip.mirrorItem_touch ..)) | split
    | split
    | (intro _; intros)
    | (clear_value *; split)

theorem Chip.jStart_touch (c : Chip) : Touch 0x101010c 0x180000000000000000000000001300000003000000000000000000000004 c (Chip.jStart c) := by
  unfold Chip.jStart
  repeat' first
    | (fail_if_no_progress extract_lets +onlyGivenNames x; first | (revert x; intro (x : Chip); refine Touch.cut (d := x) ?_ (fun hx => ?_); subst x; rotate_left; try clear_value x) | (revert x; intro (x : Chip × _); refine Touch.cut (d := x.1) ?_ (fun hx => ?_); subst x; rotate_left; try clear_value x) | skip)
    | (with_reducible first | exact Touch.refl | assumption | apply Touch.put | apply Touch.step (Chip.jClear_touch ..) | apply Touch.step (Chip.jErase_touch ..) | apply Touch.step (Chip.jPage_touch ..) | apply Touch.step (Chip.jWant_touch ..) | apply Touch.step (Chip.jr_touch ..))
    | decide +kernel
    | split
    | (intro _; intros)
    | (clear_value *; split)

theorem Chip.jDurable_touch (c : Chip) : Touch 0x0 0xc00000000000000000000000000000000 c (Chip.jDurable c) := by
  unfold Chip.jDurable
  repeat' first
    | (fail_if_no_progress extract_lets +onlyGivenNames x; first | (revert x; intro (x : Chip); refine Touch.cut (d := x) ?_ (fun hx => ?_); subst x; rotate_left; try clear_value x) | (revert x; intro (x : Chip × _); refine Touch.cut (d := x.1) ?_ (fun hx => ?_); subst x; rotate_left; try clear_value x) | skip)
    | (with_reducible first | exact Touch.refl | assumption | apply Touch.put64)
    | decide +kernel
    | exact covers_reg (by decide +kernel)
    | split
    | (intro _; intros)
    | (clear_value *; split)

theorem Chip.jOpenUp_touch (c : Chip) : Touch 0x10108 0x180000000000000000000000001f01000000000000000000000000000004 c (Chip.jOpenUp c) := by
  unfold Chip.jOpenUp
  repeat' first
    | (fail_if_no_progress extract_lets +onlyGivenNames x; first | (revert x; intro (x : Chip); refine Touch.cut (d := x) ?_ (fun hx => ?_); subst x; rotate_left; try clear_value x) | (revert x; intro (x : Chip × _); refine Touch.cut (d := x.1) ?_ (fun hx => ?_); subst x; rotate_left; try clear_value x) | skip)
    | (with_reducible first | exact Touch.refl | assumption | apply Touch.each | apply Touch.put | apply Touch.put64 | apply Touch.foldl | apply Touch.foldl_fst | apply Touch.step (Chip.jr_touch ..) | apply Touch.step (Chip.log_touch ..))
    | decide +kernel
    | (with_reducible apply Touch.upd) <;> first | (intro p; cases p <;> dsimp only [Part.same] <;> first | exact Or.inl (by decide +kernel) | exact Or.inr rfl) | (with_reducible first | exact Touch.refl | assumption | apply Touch.each | apply Touch.put | apply Touch.put64 | apply Touch.foldl | apply Touch.foldl_fst | apply Touch.step (Chip.jr_touch ..) | apply Touch.step (Chip.log_touch ..)) | split
    | exact covers_reg (by decide +kernel)
    | split
    | (intro _; intros)
    | (clear_value *; split)

end Sys2Proof.Machine
end

