-- ==== Sys2Proof/Laws/TouchCustodyOps.lean ====
section
/-! SUPPORT. What each function of Machine/CustodyOps.lean can change: the two masks of `Touch` (Laws/Touch.lean), parts and banks of registers. -/

set_option linter.unreachableTactic false
set_option linter.unusedTactic false
set_option linter.tactic.unusedName false
set_option linter.unnecessarySeqFocus false
set_option linter.unusedVariables false
set_option Elab.async false

namespace Sys2Proof.Machine

theorem Chip.cu_touch (c : Chip) (f : Cust → Cust) : Touch 0x10000 0x0 c (Chip.cu c f) := by
  unfold Chip.cu
  repeat' first
    | (with_reducible first | exact Touch.refl | assumption)
    | decide +kernel
    | (with_reducible apply Touch.upd) <;> first | (intro p; cases p <;> dsimp only [Part.same] <;> first | exact Or.inl (by decide +kernel) | exact Or.inr rfl) | (with_reducible first | exact Touch.refl | assumption) | split
    | split
    | (intro _; intros)
    | (clear_value *; split)

theorem Chip.bobMod_touch (c : Chip) (id : Nat) (f : Bob → Bob) : Touch 0x10100 0x0 c (Chip.bobMod c id f) := by
  unfold Chip.bobMod
  repeat' first
    | (with_reducible first | exact Touch.refl | assumption | apply Touch.step (Chip.cu_touch ..) | apply Touch.step (Chip.noilTrans_touch ..))
    | decide +kernel
    | split
    | (intro _; intros)
    | (clear_value *; split)

theorem Chip.ha_touch (c : Chip) (f : Hanks → Hanks) : Touch 0x400000 0x0 c (Chip.ha c f) := by
  unfold Chip.ha
  repeat' first
    | (with_reducible first | exact Touch.refl | assumption)
    | decide +kernel
    | (with_reducible apply Touch.upd) <;> first | (intro p; cases p <;> dsimp only [Part.same] <;> first | exact Or.inl (by decide +kernel) | exact Or.inr rfl) | (with_reducible first | exact Touch.refl | assumption) | split
    | split
    | (intro _; intros)
    | (clear_value *; split)

theorem Chip.hankMod_touch (c : Chip) (h : Nat) (f : Hank → Hank) : Touch 0x400000 0x0 c (Chip.hankMod c h f) := by
  unfold Chip.hankMod
  repeat' first
    | (with_reducible first | exact Touch.refl | assumption | apply Touch.step (Chip.ha_touch ..))
    | decide +kernel
    | split
    | (intro _; intros)
    | (clear_value *; split)

theorem Chip.cacheStat_touch (c : Chip) : Touch 0x100 0x80000000000000000000000000000000000 c (Chip.cacheStat c) := by
  unfold Chip.cacheStat
  repeat' first
    | (with_reducible first | exact Touch.refl | assumption | apply Touch.put)
    | decide +kernel
    | split
    | (intro _; intros)
    | (clear_value *; split)

theorem Chip.cacheDrop_touch (c : Chip) (p : CEnt → Bool) : Touch 0x10100 0x80000000000000000000000000000000000 c (Chip.cacheDrop c p) := by
  unfold Chip.cacheDrop
  repeat' first
    | (with_reducible first | exact Touch.refl | assumption | apply Touch.step (Chip.cacheStat_touch ..) | apply Touch.step (Chip.cu_touch ..))
    | decide +kernel
    | split
    | (intro _; intros)
    | (clear_value *; split)

theorem Chip.cacheTouch_touch (c : Chip) (id epoch : Nat) : Touch 0x10000 0x0 c (Chip.cacheTouch c id epoch) := by
  unfold Chip.cacheTouch
  repeat' first
    | (fail_if_no_progress extract_lets +onlyGivenNames x; first | (revert x; intro (x : Chip); refine Touch.cut (d := x) ?_ (fun hx => ?_); subst x; rotate_left; try clear_value x) | (revert x; intro (x : Chip × _); refine Touch.cut (d := x.1) ?_ (fun hx => ?_); subst x; rotate_left; try clear_value x) | skip)
    | (with_reducible first | exact Touch.refl | assumption | apply Touch.step (Chip.cu_touch ..))
    | decide +kernel
    | split
    | (intro _; intros)
    | (clear_value *; split)

theorem Chip.cachePut_touch (c : Chip) (id epoch : Nat) (key : List Byte) (pinned : Bool) : Touch 0x50102 0x4080000000000000000000000000000000000 c (Chip.cachePut c id epoch key pinned) := by
  unfold Chip.cachePut
  repeat' first
    | (fail_if_no_progress extract_lets +onlyGivenNames x; first | (revert x; intro (x : Chip); refine Touch.cut (d := x) ?_ (fun hx => ?_); subst x; rotate_left; try clear_value x) | (revert x; intro (x : Chip × _); refine Touch.cut (d := x.1) ?_ (fun hx => ?_); subst x; rotate_left; try clear_value x) | (revert x; intro (x : _ × Chip); refine Touch.cut (d := x.2) ?_ (fun hx => ?_); subst x; rotate_left; try clear_value x) | (revert x; intro (x : _ × _ × Chip); refine Touch.cut (d := x.2.2) ?_ (fun hx => ?_); subst x; rotate_left; try clear_value x) | clear_value x | skip)
    | (with_reducible first | exact Touch.refl | assumption | apply Touch.step (Chip.cacheDrop_touch ..) | apply Touch.step (Chip.cacheStat_touch ..) | apply Touch.step (Chip.cu_touch ..) | apply Touch.step (Chip.draw_touch ..) | apply Touch.step (Chip.rnd_touch ..))
    | decide +kernel
    | split
    | (intro _; intros)
    | (clear_value *; split)

theorem Chip.cachePin_touch (c : Chip) (id epoch : Nat) (pin : Bool) : Touch 0x10100 0x80000000000000000000000000000000000 c (Chip.cachePin c id epoch pin) := by
  unfold Chip.cachePin
  repeat' first
    | (with_reducible first | exact Touch.refl | assumption | apply Touch.step (Chip.cacheStat_touch ..) | apply Touch.step (Chip.cu_touch ..))
    | decide +kernel
    | split
    | (intro _; intros)
    | (clear_value *; split)

theorem Chip.blobWrite_touch (c : Chip) (id epoch : Nat) (key : List Byte) (slot : Nat) : Touch 0x10124 0x0 c (Chip.blobWrite c id epoch key slot) := by
  unfold Chip.blobWrite
  repeat' first
    | (with_reducible first | exact Touch.refl | assumption | apply Touch.step (Chip.bobMod_touch ..) | apply Touch.step (Chip.count_touch ..) | apply Touch.step (Chip.portReq_touch ..))
    | decide +kernel
    | split
    | (intro _; intros)
    | (clear_value *; split)

theorem Chip.derive_touch (c : Chip) (id epoch : Nat) : Touch 0x100 0x0 c (Chip.derive c id epoch).1 := by
  unfold Chip.derive
  repeat' first
    | (with_reducible first | exact Touch.refl | assumption | apply Touch.step (Chip.count_touch ..))
    | decide +kernel
    | split
    | (intro _; intros)
    | (clear_value *; split)

theorem Chip.notice_touch (c : Chip) (op tag : Nat) (st : Status) (done failId jseq : Nat) : Touch 0x10904 0x80000000000000000000000000000000 c (Chip.notice c op tag st done failId jseq) := by
  unfold Chip.notice
  repeat' first
    | (with_reducible first | exact Touch.refl | assumption | apply Touch.step (Chip.complete_touch ..))
    | decide +kernel
    | split
    | (intro _; intros)
    | (clear_value *; split)

theorem Chip.cmdDone_touch (c : Chip) (r : CmdRun) : Touch 0x1090c 0x180000000000000000000000000081000000000000000000000000000004 c (Chip.cmdDone c r) := by
  unfold Chip.cmdDone
  repeat' first
    | (fail_if_no_progress extract_lets +onlyGivenNames x; first | (revert x; intro (x : Chip); refine Touch.cut (d := x) ?_ (fun hx => ?_); subst x; rotate_left; try clear_value x) | (revert x; intro (x : Chip × _); refine Touch.cut (d := x.1) ?_ (fun hx => ?_); subst x; rotate_left; try clear_value x) | skip)
    | (with_reducible first | exact Touch.refl | assumption | apply Touch.put | apply Touch.foldl | apply Touch.foldl_fst | apply Touch.step (Chip.complete_touch ..) | apply Touch.step (Chip.count_touch ..) | apply Touch.step (Chip.cu_touch ..) | apply Touch.step (Chip.trace_touch ..))
    | decide +kernel
    | split
    | (intro _; intros)
    | (clear_value *; split)

theorem Chip.cmdPart_touch (c : Chip) (id : Nat) (st : Status) : Touch 0x10000 0x0 c (Chip.cmdPart c id st) := by
  unfold Chip.cmdPart
  repeat' first
    | (fail_if_no_progress extract_lets +onlyGivenNames x; first | (revert x; intro (x : Chip); refine Touch.cut (d := x) ?_ (fun hx => ?_); subst x; rotate_left; try clear_value x) | (revert x; intro (x : Chip × _); refine Touch.cut (d := x.1) ?_ (fun hx => ?_); subst x; rotate_left; try clear_value x) | skip)
    | (with_reducible first | exact Touch.refl | assumption | apply Touch.step (Chip.cu_touch ..))
    | decide +kernel
    | split
    | (intro _; intros)
    | (clear_value *; split)

theorem Chip.cmdsEnd_touch (c : Chip) : Touch 0x1090c 0x180000000000000000000000000081000000000000000000000000000004 c (Chip.cmdsEnd c) := by
  unfold Chip.cmdsEnd
  repeat' first
    | (with_reducible first | exact Touch.refl | assumption | apply Touch.each | apply Touch.step (Chip.cmdDone_touch ..))
    | decide +kernel
    | split
    | (intro _; intros)
    | (clear_value *; split)

theorem Chip.chPut_touch (c : Chip) (ch st : Nat) : Touch 0x10100 0x2000000000000000000000000000000000 c (Chip.chPut c ch st) := by
  unfold Chip.chPut
  repeat' first
    | (fail_if_no_progress extract_lets +onlyGivenNames x; first | (revert x; intro (x : Chip); refine Touch.cut (d := x) ?_ (fun hx => ?_); subst x; rotate_left; try clear_value x) | (revert x; intro (x : Chip × _); refine Touch.cut (d := x.1) ?_ (fun hx => ?_); subst x; rotate_left; try clear_value x) | skip)
    | (with_reducible first | exact Touch.refl | assumption | apply Touch.put | apply Touch.step (Chip.cu_touch ..))
    | decide +kernel
    | split
    | (intro _; intros)
    | (clear_value *; split)

theorem Chip.warpPut_touch (c : Chip) (ch : Nat) (w : WarpWait) : Touch 0x10104 0x0 c (Chip.warpPut c ch w) := by
  unfold Chip.warpPut
  repeat' first
    | (fail_if_no_progress extract_lets +onlyGivenNames x; first | (revert x; intro (x : Chip); refine Touch.cut (d := x) ?_ (fun hx => ?_); subst x; rotate_left; try clear_value x) | (revert x; intro (x : Chip × _); refine Touch.cut (d := x.1) ?_ (fun hx => ?_); subst x; rotate_left; try clear_value x) | skip)
    | (with_reducible first | exact Touch.refl | assumption | apply Touch.step (Chip.count_touch ..) | apply Touch.step (Chip.cu_touch ..) | apply Touch.step (Chip.send_touch ..))
    | decide +kernel
    | split
    | (intro _; intros)
    | (clear_value *; split)

theorem Chip.warpTo_touch (c : Chip) (ch : Nat) (f : WarpFrame) : Touch 0x101010c 0x180000000000000000000000000000000000000000000000000000000004 c (Chip.warpTo c ch f) := by
  unfold Chip.warpTo
  repeat' first
    | (with_reducible first | exact Touch.refl | assumption | apply Touch.step (Chip.cu_touch ..) | apply Touch.step (Chip.plySend_touch ..) | apply Touch.step (Chip.warpPut_touch ..))
    | decide +kernel
    | (with_reducible apply Touch.upd) <;> first | (intro p; cases p <;> dsimp only [Part.same] <;> first | exact Or.inl (by decide +kernel) | exact Or.inr rfl) | (with_reducible first | exact Touch.refl | assumption | apply Touch.step (Chip.cu_touch ..) | apply Touch.step (Chip.plySend_touch ..) | apply Touch.step (Chip.warpPut_touch ..)) | split
    | split
    | (intro _; intros)
    | (clear_value *; split)

theorem Chip.loadFrame_touch (c : Chip) (id sub epoch : Nat) (key : List Byte) (limit : Nat) : Touch 0x40102 0x4000000000000000000000000000000000000 c (Chip.loadFrame c id sub epoch key limit).1 := by
  unfold Chip.loadFrame
  repeat' first
    | (fail_if_no_progress extract_lets +onlyGivenNames x; first | (revert x; intro (x : Chip); refine Touch.cut (d := x) ?_ (fun hx => ?_); subst x; rotate_left; try clear_value x) | (revert x; intro (x : Chip × _); refine Touch.cut (d := x.1) ?_ (fun hx => ?_); subst x; rotate_left; try clear_value x) | (revert x; intro (x : _ × Chip); refine Touch.cut (d := x.2) ?_ (fun hx => ?_); subst x; rotate_left; try clear_value x) | (revert x; intro (x : _ × _ × Chip); refine Touch.cut (d := x.2.2) ?_ (fun hx => ?_); subst x; rotate_left; try clear_value x) | skip)
    | (with_reducible first | exact Touch.refl | assumption | apply Touch.step (Chip.rnd_touch ..))
    | decide +kernel
    | split
    | (intro _; intros)
    | (clear_value *; split)

theorem Chip.warpKey_touch (c : Chip) (id : Nat) (b : Bob) (sub epoch : Nat) (key : List Byte) (limit : Nat) : Touch 0x105010e 0x180000000000000000000004000000000000000000000000000000000004 c (Chip.warpKey c id b sub epoch key limit) := by
  unfold Chip.warpKey
  repeat' first
    | (fail_if_no_progress extract_lets +onlyGivenNames x; first | (revert x; intro (x : Chip); refine Touch.cut (d := x) ?_ (fun hx => ?_); subst x; rotate_left; try clear_value x) | (revert x; intro (x : Chip × _); refine Touch.cut (d := x.1) ?_ (fun hx => ?_); subst x; rotate_left; try clear_value x) | skip)
    | (with_reducible first | exact Touch.refl | assumption | apply Touch.step (Chip.loadFrame_touch ..) | apply Touch.step (Chip.warpTo_touch ..))
    | decide +kernel
    | split
    | (intro _; intros)
    | (clear_value *; split)

theorem Chip.warpDesc_touch (c : Chip) (id : Nat) : Touch 0x101010c 0x180000000000000000000000000000000000000000000000000000000004 c (Chip.warpDesc c id) := by
  unfold Chip.warpDesc
  repeat' first
    | (fail_if_no_progress extract_lets +onlyGivenNames x; first | (revert x; intro (x : Chip); refine Touch.cut (d := x) ?_ (fun hx => ?_); subst x; rotate_left; try clear_value x) | (revert x; intro (x : Chip × _); refine Touch.cut (d := x.1) ?_ (fun hx => ?_); subst x; rotate_left; try clear_value x) | skip)
    | (with_reducible first | exact Touch.refl | assumption | apply Touch.step (Chip.bobMod_touch ..) | apply Touch.step (Chip.cu_touch ..) | apply Touch.step (Chip.warpTo_touch ..))
    | decide +kernel
    | split
    | (intro _; intros)
    | (clear_value *; split)

theorem Chip.pushBody_touch (c : Chip) (die id epoch : Nat) (st : Status) (flags sub limit : Nat) (key : Option (List Byte)) : Touch 0x10000 0x0 c (Chip.pushBody c die id epoch st flags sub limit key).1 := by
  unfold Chip.pushBody
  repeat' first
    | (fail_if_no_progress extract_lets +onlyGivenNames x; first | (revert x; intro (x : Chip); refine Touch.cut (d := x) ?_ (fun hx => ?_); subst x; rotate_left; try clear_value x) | (revert x; intro (x : Chip × _); refine Touch.cut (d := x.1) ?_ (fun hx => ?_); subst x; rotate_left; try clear_value x) | skip)
    | (with_reducible first | exact Touch.refl | assumption | apply Touch.step (Chip.cu_touch ..))
    | decide +kernel
    | split
    | (intro _; intros)
    | (clear_value *; split)

theorem Chip.push_touch (c : Chip) (die id epoch : Nat) (st : Status) (flags sub limit : Nat) (key : Option (List Byte)) : Touch 0x1011c 0x180000000000000000000000000000000000000000000000000000000004 c (Chip.push c die id epoch st flags sub limit key) := by
  unfold Chip.push
  repeat' first
    | (fail_if_no_progress extract_lets +onlyGivenNames x; first | (revert x; intro (x : Chip); refine Touch.cut (d := x) ?_ (fun hx => ?_); subst x; rotate_left; try clear_value x) | (revert x; intro (x : Chip × _); refine Touch.cut (d := x.1) ?_ (fun hx => ?_); subst x; rotate_left; try clear_value x) | skip)
    | (with_reducible first | exact Touch.refl | assumption | apply Touch.step (Chip.pushBody_touch ..) | apply Touch.step (Chip.ringSend_touch ..))
    | decide +kernel
    | split
    | (intro _; intros)
    | (clear_value *; split)

theorem Chip.pushStale_touch (c : Chip) (id epoch flags : Nat) (b : Bob) : Touch 0x1011c 0x180000000000000000000000000000000000000000000000000000000004 c (Chip.pushStale c id epoch flags b) := by
  unfold Chip.pushStale
  repeat' first
    | (with_reducible first | exact Touch.refl | assumption | apply Touch.each | apply Touch.step (Chip.push_touch ..))
    | decide +kernel
    | split
    | (intro _; intros)
    | (clear_value *; split)

theorem Chip.unconfirmed_touch (c : Chip) (launch id epoch : Nat) : Touch 0x10108 0x180000000000000000000000000000000000000020000000000000000004 c (Chip.unconfirmed c launch id epoch) := by
  unfold Chip.unconfirmed
  repeat' first
    | (fail_if_no_progress extract_lets +onlyGivenNames x; first | (revert x; intro (x : Chip); refine Touch.cut (d := x) ?_ (fun hx => ?_); subst x; rotate_left; try clear_value x) | (revert x; intro (x : Chip × _); refine Touch.cut (d := x.1) ?_ (fun hx => ?_); subst x; rotate_left; try clear_value x) | skip)
    | (with_reducible first | exact Touch.refl | assumption | apply Touch.addi | apply Touch.each | apply Touch.step (Chip.bobMod_touch ..) | apply Touch.step (Chip.log_touch ..))
    | decide +kernel
    | split
    | (intro _; intros)
    | (clear_value *; split)

theorem Chip.discard_touch (c : Chip) (id : Nat) (quiet : Bool) : Touch 0x103011c 0x180000000000000000000000080000000000000020000000000000000004 c (Chip.discard c id quiet) := by
  unfold Chip.discard
  repeat' first
    | (fail_if_no_progress extract_lets +onlyGivenNames x; first | (revert x; intro (x : Chip); refine Touch.cut (d := x) ?_ (fun hx => ?_); subst x; rotate_left; try clear_value x) | (revert x; intro (x : Chip × _); refine Touch.cut (d := x.1) ?_ (fun hx => ?_); subst x; rotate_left; try clear_value x) | skip)
    | (with_reducible first | exact Touch.refl | assumption | apply Touch.step (Chip.bobMod_touch ..) | apply Touch.step (Chip.cacheDrop_touch ..) | apply Touch.step (Chip.cu_touch ..) | apply Touch.step (Chip.pushStale_touch ..) | apply Touch.step (Chip.unconfirmed_touch ..) | apply Touch.step (Chip.warpTo_touch ..))
    | decide +kernel
    | (with_reducible apply Touch.upd) <;> first | (intro p; cases p <;> dsimp only [Part.same] <;> first | exact Or.inl (by decide +kernel) | exact Or.inr rfl) | (with_reducible first | exact Touch.refl | assumption | apply Touch.step (Chip.bobMod_touch ..) | apply Touch.step (Chip.cacheDrop_touch ..) | apply Touch.step (Chip.cu_touch ..) | apply Touch.step (Chip.pushStale_touch ..) | apply Touch.step (Chip.unconfirmed_touch ..) | apply Touch.step (Chip.warpTo_touch ..)) | split
    | split
    | (intro _; intros)
    | (clear_value *; split)

theorem Chip.targetDone_touch (c : Chip) (id : Nat) (t : Tgt) (st : Status) : Touch 0x103011c 0x180000000000000000000000080000000000000020000000000000000004 c (Chip.targetDone c id t st) := by
  unfold Chip.targetDone
  repeat' first
    | (fail_if_no_progress extract_lets +onlyGivenNames x; first | (revert x; intro (x : Chip); refine Touch.cut (d := x) ?_ (fun hx => ?_); subst x; rotate_left; try clear_value x) | (revert x; intro (x : Chip × _); refine Touch.cut (d := x.1) ?_ (fun hx => ?_); subst x; rotate_left; try clear_value x) | skip)
    | (with_reducible first | exact Touch.refl | assumption | apply Touch.step (Chip.bobMod_touch ..) | apply Touch.step (Chip.cmdPart_touch ..) | apply Touch.step (Chip.discard_touch ..) | apply Touch.step (Chip.log_touch ..))
    | decide +kernel
    | split
    | (intro _; intros)
    | (clear_value *; split)

theorem Chip.enabled_touch (c : Chip) (id : Nat) (st : Status) : Touch 0x1090c 0x180000000000000000000000000080000000000000000000000000000004 c (Chip.enabled c id st) := by
  unfold Chip.enabled
  repeat' first
    | (fail_if_no_progress extract_lets +onlyGivenNames x; first | (revert x; intro (x : Chip); refine Touch.cut (d := x) ?_ (fun hx => ?_); subst x; rotate_left; try clear_value x) | (revert x; intro (x : Chip × _); refine Touch.cut (d := x.1) ?_ (fun hx => ?_); subst x; rotate_left; try clear_value x) | skip)
    | (with_reducible first | exact Touch.refl | assumption | apply Touch.step (Chip.bobMod_touch ..) | apply Touch.step (Chip.log_touch ..) | apply Touch.step (Chip.notice_touch ..))
    | decide +kernel
    | split
    | (intro _; intros)
    | (clear_value *; split)

theorem Chip.currentKey_touch (c : Chip) (id : Nat) (b : Bob) (epoch : Nat) : Touch 0x10124 0x0 c (Chip.currentKey c id b epoch).1 := by
  unfold Chip.currentKey
  repeat' first
    | (fail_if_no_progress extract_lets +onlyGivenNames x; first | (revert x; intro (x : Chip); refine Touch.cut (d := x) ?_ (fun hx => ?_); subst x; rotate_left; try clear_value x) | (revert x; intro (x : Chip × _); refine Touch.cut (d := x.1) ?_ (fun hx => ?_); subst x; rotate_left; try clear_value x) | skip)
    | (with_reducible first | exact Touch.refl | assumption | apply Touch.step (Chip.blobWrite_touch ..) | apply Touch.step (Chip.cacheTouch_touch ..) | apply Touch.step (Chip.derive_touch ..))
    | decide +kernel
    | split
    | (intro _; intros)
    | (clear_value *; split)

theorem Chip.firstKey_touch (c : Chip) (id : Nat) : Touch 0x105092e 0x180000000000000000000004000080000000000000000000000000000004 c (Chip.firstKey c id) := by
  unfold Chip.firstKey
  repeat' first
    | (fail_if_no_progress extract_lets +onlyGivenNames x; first | (revert x; intro (x : Chip); refine Touch.cut (d := x) ?_ (fun hx => ?_); subst x; rotate_left; try clear_value x) | (revert x; intro (x : Chip × _); refine Touch.cut (d := x.1) ?_ (fun hx => ?_); subst x; rotate_left; try clear_value x) | skip)
    | (with_reducible first | exact Touch.refl | assumption | apply Touch.step (Chip.bobMod_touch ..) | apply Touch.step (Chip.cu_touch ..) | apply Touch.step (Chip.currentKey_touch ..) | apply Touch.step (Chip.enabled_touch ..) | apply Touch.step (Chip.portReq_touch ..) | apply Touch.step (Chip.warpKey_touch ..))
    | decide +kernel
    | split
    | (intro _; intros)
    | (clear_value *; split)

theorem Chip.keyReply_touch (c : Chip) (q : KeyReq) (st : Status) (flags sub limit : Nat) (key : Option (List Byte)) (epoch : Nat) : Touch 0x200011c 0x180000000000000000000000000000000000000000000000000000000004 c (Chip.keyReply c q st flags sub limit key epoch) := by
  unfold Chip.keyReply
  repeat' first
    | (fail_if_no_progress extract_lets +onlyGivenNames x; first | (revert x; intro (x : Chip); refine Touch.cut (d := x) ?_ (fun hx => ?_); subst x; rotate_left; try clear_value x) | (revert x; intro (x : Chip × _); refine Touch.cut (d := x.1) ?_ (fun hx => ?_); subst x; rotate_left; try clear_value x) | skip)
    | (with_reducible first | exact Touch.refl | assumption | apply Touch.step (Chip.count_touch ..) | apply Touch.step (Chip.ringSend_touch ..) | apply Touch.step (Chip.trace_touch ..))
    | decide +kernel
    | split
    | (with_reducible apply Touch.upd) <;> first | (intro p; cases p <;> dsimp only [Part.same] <;> first | exact Or.inl (by decide +kernel) | exact Or.inr rfl) | (with_reducible first | exact Touch.refl | assumption | apply Touch.step (Chip.count_touch ..) | apply Touch.step (Chip.ringSend_touch ..) | apply Touch.step (Chip.trace_touch ..)) | split
    | split
    | (intro _; intros)
    | (clear_value *; split)

end Sys2Proof.Machine
end

