-- ==== Sys2Proof/Laws/TouchCryptoOps.lean ====
section
/-! SUPPORT. What each function of Machine/CryptoOps.lean can change: the two masks of `Touch` (Laws/Touch.lean), parts and banks of registers. -/

set_option linter.unreachableTactic false
set_option linter.unusedTactic false
set_option linter.tactic.unusedName false
set_option linter.unnecessarySeqFocus false
set_option linter.unusedVariables false
set_option Elab.async false

namespace Sys2Proof.Machine

theorem Chip.sealLog_touch (c : Chip) (n : Nat) : Touch 0x108 0x180000000000000000000000000000000000000000000000000000000004 c (Chip.sealLog c n) := by
  unfold Chip.sealLog
  repeat' first
    | (with_reducible first | exact Touch.refl | assumption | apply Touch.step (Chip.log_touch ..))
    | decide +kernel
    | split
    | (intro _; intros)
    | (clear_value *; split)

theorem Chip.cryBegin_touch (c : Chip) (n : Nat) (d : CryDesc) : Touch 0x4010a 0x180000000000000000000004000000000000000000000000000000000004 c (Chip.cryBegin c n d).1 := by
  unfold Chip.cryBegin
  repeat' first
    | (fail_if_no_progress extract_lets +onlyGivenNames x; first | (revert x; intro (x : Chip); refine Touch.cut (d := x) ?_ (fun hx => ?_); subst x; rotate_left; try clear_value x) | (revert x; intro (x : Chip × _); refine Touch.cut (d := x.1) ?_ (fun hx => ?_); subst x; rotate_left; try clear_value x) | (revert x; intro (x : _ × Chip); refine Touch.cut (d := x.2) ?_ (fun hx => ?_); subst x; rotate_left; try clear_value x) | (revert x; intro (x : _ × _ × Chip); refine Touch.cut (d := x.2.2) ?_ (fun hx => ?_); subst x; rotate_left; try clear_value x) | skip)
    | (with_reducible first | exact Touch.refl | assumption | apply Touch.step (Chip.rngReq_touch ..) | apply Touch.step (Chip.sealLog_touch ..))
    | decide +kernel
    | split
    | (intro _; intros)
    | (clear_value *; split)

theorem Chip.flPut_touch (c : Chip) (n : Nat) (f : Flight) : Touch 0x40000 0x0 c (Chip.flPut c n f) := by
  unfold Chip.flPut
  repeat' first
    | (with_reducible first | exact Touch.refl | assumption | apply Touch.step (Chip.chMod_touch ..))
    | decide +kernel
    | split
    | (intro _; intros)
    | (clear_value *; split)

theorem Chip.seedUse_touch (c : Chip) (l : Nat) (f : Flight) (seed : List Byte) : Touch 0x40000 0x0 c (Chip.seedUse c l f seed) := by
  unfold Chip.seedUse
  repeat' first
    | (with_reducible first | exact Touch.refl | assumption | apply Touch.step (Chip.cr_touch ..))
    | decide +kernel
    | split
    | (intro _; intros)
    | (clear_value *; split)

theorem Chip.cryStart_touch (c : Chip) (n : Nat) (f : Flight) (l : Nat) : Touch 0x4090e 0x180000000000000000000304000000000000000000000000000000000004 c (Chip.cryStart c n f l) := by
  unfold Chip.cryStart
  repeat' first
    | (fail_if_no_progress extract_lets +onlyGivenNames x; first | (revert x; intro (x : Chip); refine Touch.cut (d := x) ?_ (fun hx => ?_); subst x; rotate_left; try clear_value x) | (revert x; intro (x : Chip × _); refine Touch.cut (d := x.1) ?_ (fun hx => ?_); subst x; rotate_left; try clear_value x) | skip)
    | (with_reducible first | exact Touch.refl | assumption | apply Touch.each | apply Touch.step (Chip.chDone_touch ..) | apply Touch.step (Chip.cryBegin_touch ..) | apply Touch.step (Chip.flPut_touch ..) | apply Touch.step (Chip.seedUse_touch ..))
    | decide +kernel
    | split
    | (intro _; intros)
    | (clear_value *; split)

theorem Chip.cryGo_touch (c : Chip) (fuel : Nat) : Touch 0x4090e 0x180000000000000000000304000000000000000000000000000000000004 c (Chip.cryGo c fuel) := by
  induction fuel generalizing c with
  | zero => unfold Chip.cryGo; (try split) <;> exact Touch.refl
  | succ k ih =>
  unfold Chip.cryGo
  repeat' first
    | (with_reducible first | exact Touch.refl | assumption | apply Touch.step (Chip.cryStart_touch ..) | apply Touch.step (ih ..))
    | decide +kernel
    | split
    | (intro _; intros)
    | (clear_value *; split)

theorem Chip.cryArb_touch (c : Chip) : Touch 0x4090e 0x180000000000000000000304000000000000000000000000000000000004 c (Chip.cryArb c) := by
  unfold Chip.cryArb
  repeat' first
    | (with_reducible first | exact Touch.refl | assumption | apply Touch.step (Chip.cryGo_touch ..))
    | decide +kernel
    | split
    | (intro _; intros)
    | (clear_value *; split)

theorem Chip.cryTake_touch (c : Chip) (n : Nat) (d : CryDesc) : Touch 0x4090e 0x180000000000000000000384000000000000000000000000000000050004 c (Chip.cryTake c n d) := by
  unfold Chip.cryTake
  repeat' first
    | (fail_if_no_progress extract_lets +onlyGivenNames x; first | (revert x; intro (x : Chip); refine Touch.cut (d := x) ?_ (fun hx => ?_); subst x; rotate_left; try clear_value x) | (revert x; intro (x : Chip × _); refine Touch.cut (d := x.1) ?_ (fun hx => ?_); subst x; rotate_left; try clear_value x) | skip)
    | (with_reducible first | exact Touch.refl | assumption | apply Touch.puti | apply Touch.step (Chip.chDone_touch ..) | apply Touch.step (Chip.chMod_touch ..) | apply Touch.step (Chip.countReset_touch ..) | apply Touch.step (Chip.cr_touch ..) | apply Touch.step (Chip.cryArb_touch ..) | apply Touch.step (Chip.groupNeed_touch ..) | apply Touch.step (Chip.sealLog_touch ..) | apply Touch.step (Chip.trace_touch ..))
    | decide +kernel
    | split
    | (intro _; intros)
    | (clear_value *; split)

theorem Chip.crySkip_touch (c : Chip) (n fuel : Nat) : Touch 0x4090e 0x180000000000000000000384000000000000000000000000000000050004 c (Chip.crySkip c n fuel) := by
  induction fuel generalizing n c with
  | zero => unfold Chip.crySkip; (try split) <;> exact Touch.refl
  | succ k ih =>
  unfold Chip.crySkip
  repeat' first
    | (with_reducible first | exact Touch.refl | assumption | apply Touch.step (Chip.cryTake_touch ..) | apply Touch.step (ih ..))
    | decide +kernel
    | split
    | (intro _; intros)
    | (clear_value *; split)

theorem Chip.cryRow_touch (c : Chip) (n op : Nat) : Touch 0x4090e 0x180000000000000000000384000000000000000000000000000000050004 c (Chip.cryRow c n op) := by
  unfold Chip.cryRow
  repeat' first
    | (with_reducible first | exact Touch.refl | assumption | apply Touch.step (Chip.crySkip_touch ..) | apply Touch.step (Chip.cryTake_touch ..))
    | decide +kernel
    | split
    | (intro _; intros)
    | (clear_value *; split)

theorem Chip.cryEnd_touch (c : Chip) (n idx iter : Nat) : Touch 0x4090e 0x180000000000000000000304000000000000000000000000000000000004 c (Chip.cryEnd c n idx iter) := by
  unfold Chip.cryEnd
  repeat' first
    | (fail_if_no_progress extract_lets +onlyGivenNames x; first | (revert x; intro (x : Chip); refine Touch.cut (d := x) ?_ (fun hx => ?_); subst x; rotate_left; try clear_value x) | (revert x; intro (x : Chip × _); refine Touch.cut (d := x.1) ?_ (fun hx => ?_); subst x; rotate_left; try clear_value x) | skip)
    | (with_reducible first | exact Touch.refl | assumption | apply Touch.step (Chip.chDone_touch ..) | apply Touch.step (Chip.count_touch ..) | apply Touch.step (Chip.cryArb_touch ..) | apply Touch.step (Chip.log_touch ..))
    | decide +kernel
    | split
    | (intro _; intros)
    | (clear_value *; split)

end Sys2Proof.Machine
end

