-- ==== Sys2Proof/Laws/TouchDigestOps.lean ====
section
/-! SUPPORT. What each function of Machine/DigestOps.lean can change: the two masks of `Touch` (Laws/Touch.lean), parts and banks of registers. -/

set_option linter.unreachableTactic false
set_option linter.unusedTactic false
set_option linter.tactic.unusedName false
set_option linter.unnecessarySeqFocus false
set_option linter.unusedVariables false
set_option Elab.async false

namespace Sys2Proof.Machine

theorem Chip.dgtCycles_touch (c : Chip) (a n : Nat) : Touch 0x100 0x0 c (Chip.dgtCycles c a n) := by
  unfold Chip.dgtCycles
  repeat' first
    | (with_reducible first | exact Touch.refl | assumption | apply Touch.step (Chip.count_touch ..))
    | decide +kernel
    | split
    | (intro _; intros)
    | (clear_value *; split)

theorem Chip.cxGo_touch (c : Chip) (n st : Nat) : Touch 0x100 0x800000000000000000000000000000000000000 c (Chip.cxGo c n st) := by
  unfold Chip.cxGo
  repeat' first
    | (with_reducible first | exact Touch.refl | assumption | apply Touch.puti | apply Touch.step (Chip.noilTrans_touch ..))
    | decide +kernel
    | split
    | (intro _; intros)
    | (clear_value *; split)

theorem Chip.cxPut_touch (c : Chip) (n st : Nat) (last : Status) : Touch 0x100 0x800000000000000000000000000000000000000 c (Chip.cxPut c n st last) := by
  unfold Chip.cxPut
  repeat' first
    | (with_reducible first | exact Touch.refl | assumption | apply Touch.puti | apply Touch.step (Chip.cxGo_touch ..))
    | decide +kernel
    | split
    | (intro _; intros)
    | (clear_value *; split)

theorem Chip.cxError_touch (c : Chip) (n : Nat) (st : Status) (got : Nat) : Touch 0x40108 0x180000000000000000000800000000000000000000000000000000000004 c (Chip.cxError c n st got) := by
  unfold Chip.cxError
  repeat' first
    | (with_reducible first | exact Touch.refl | assumption | apply Touch.step (Chip.cxMod_touch ..) | apply Touch.step (Chip.cxPut_touch ..) | apply Touch.step (Chip.log_touch ..))
    | decide +kernel
    | split
    | (intro _; intros)
    | (clear_value *; split)

theorem Chip.cxResult_touch (c : Chip) (n : Nat) : Touch 0x40100 0x0 c (Chip.cxResult c n) := by
  unfold Chip.cxResult
  repeat' first
    | (fail_if_no_progress extract_lets +onlyGivenNames x; first | (revert x; intro (x : Chip); refine Touch.cut (d := x) ?_ (fun hx => ?_); subst x; rotate_left; try clear_value x) | (revert x; intro (x : Chip × _); refine Touch.cut (d := x.1) ?_ (fun hx => ?_); subst x; rotate_left; try clear_value x) | skip)
    | (with_reducible first | exact Touch.refl | assumption | apply Touch.step (Chip.cxMod_touch ..) | apply Touch.step (Chip.dgtCycles_touch ..))
    | decide +kernel
    | split
    | (intro _; intros)
    | (clear_value *; split)

theorem Chip.cxAbsorb_touch (c : Chip) (n : Nat) : Touch 0x40100 0x800000000000000000000000000000000000000 c (Chip.cxAbsorb c n) := by
  unfold Chip.cxAbsorb
  repeat' first
    | (with_reducible first | exact Touch.refl | assumption | apply Touch.step (Chip.cxGo_touch ..) | apply Touch.step (Chip.cxResult_touch ..))
    | decide +kernel
    | split
    | (intro _; intros)
    | (clear_value *; split)

theorem Chip.cxOpen_touch (c : Chip) (req : Req) (n : Nat) (w : Word) : Touch 0x40108 0x180000000000000000018c00000000000000000000000000000000050004 c (Chip.cxOpen c req n w) := by
  unfold Chip.cxOpen
  repeat' first
    | (fail_if_no_progress extract_lets +onlyGivenNames x; first | (revert x; intro (x : Chip); refine Touch.cut (d := x) ?_ (fun hx => ?_); subst x; rotate_left; try clear_value x) | (revert x; intro (x : Chip × _); refine Touch.cut (d := x.1) ?_ (fun hx => ?_); subst x; rotate_left; try clear_value x) | skip)
    | (with_reducible first | exact Touch.refl | assumption | apply Touch.puti | apply Touch.wri | apply Touch.step (Chip.cr_touch ..) | apply Touch.step (Chip.cxAbsorb_touch ..) | apply Touch.step (Chip.cxActive_touch ..) | apply Touch.step (Chip.cxPut_touch ..) | apply Touch.step (Chip.groupNeed_touch ..) | apply Touch.step (Chip.log_touch ..))
    | decide +kernel
    | split
    | (intro _; intros)
    | (clear_value *; split)

theorem Chip.cxEnd_touch (c : Chip) (n : Nat) : Touch 0x40108 0x180000000000000000000800000000000000000000000000000000000004 c (Chip.cxEnd c n) := by
  unfold Chip.cxEnd
  repeat' first
    | (fail_if_no_progress extract_lets +onlyGivenNames x; first | (revert x; intro (x : Chip); refine Touch.cut (d := x) ?_ (fun hx => ?_); subst x; rotate_left; try clear_value x) | (revert x; intro (x : Chip × _); refine Touch.cut (d := x.1) ?_ (fun hx => ?_); subst x; rotate_left; try clear_value x) | skip)
    | (with_reducible first | exact Touch.refl | assumption | apply Touch.puti | apply Touch.step (Chip.cxAbsorb_touch ..) | apply Touch.step (Chip.cxError_touch ..) | apply Touch.step (Chip.cxPut_touch ..) | apply Touch.step (Chip.cxResult_touch ..))
    | decide +kernel
    | split
    | (intro _; intros)
    | (clear_value *; split)

theorem Chip.cxFinal_touch (c : Chip) (n : Nat) : Touch 0x40108 0x180000000000000000000800000000000000000000000000000000050004 c (Chip.cxFinal c n) := by
  unfold Chip.cxFinal
  repeat' first
    | (fail_if_no_progress extract_lets +onlyGivenNames x; first | (revert x; intro (x : Chip); refine Touch.cut (d := x) ?_ (fun hx => ?_); subst x; rotate_left; try clear_value x) | (revert x; intro (x : Chip × _); refine Touch.cut (d := x.1) ?_ (fun hx => ?_); subst x; rotate_left; try clear_value x) | skip)
    | (with_reducible first | exact Touch.refl | assumption | apply Touch.puti | apply Touch.step (Chip.cxEnd_touch ..) | apply Touch.step (Chip.cxMod_touch ..) | apply Touch.step (Chip.groupNeed_touch ..))
    | decide +kernel
    | split
    | (intro _; intros)
    | (clear_value *; split)

theorem Chip.cxWake_touch (c : Chip) (n : Nat) : Touch 0x40108 0x180000000000000000000800000000000000000000000000000000000004 c (Chip.cxWake c n) := by
  unfold Chip.cxWake
  repeat' first
    | (with_reducible first | exact Touch.refl | assumption | apply Touch.step (Chip.cxAbsorb_touch ..) | apply Touch.step (Chip.cxEnd_touch ..) | apply Touch.step (Chip.cxMod_touch ..))
    | decide +kernel
    | split
    | (intro _; intros)
    | (clear_value *; split)

theorem Chip.cxIntrude_touch (c : Chip) (n req : Nat) : Touch 0x108 0x180000000000000000000800000000000000000000000000000000000004 c (Chip.cxIntrude c n req) := by
  unfold Chip.cxIntrude
  repeat' first
    | (with_reducible first | exact Touch.refl | assumption | apply Touch.puti | apply Touch.step (Chip.log_touch ..))
    | decide +kernel
    | split
    | (intro _; intros)
    | (clear_value *; split)

theorem Chip.cxFeed_touch (c : Chip) (n src req : Nat) (bs : List Byte) : Touch 0x40108 0x180000000000000000000800000000000000000000000000000000000004 c (Chip.cxFeed c n src req bs).1 := by
  unfold Chip.cxFeed
  repeat' first
    | (fail_if_no_progress extract_lets +onlyGivenNames x; first | (revert x; intro (x : Chip); refine Touch.cut (d := x) ?_ (fun hx => ?_); subst x; rotate_left; try clear_value x) | (revert x; intro (x : Chip × _); refine Touch.cut (d := x.1) ?_ (fun hx => ?_); subst x; rotate_left; try clear_value x) | skip)
    | (with_reducible first | exact Touch.refl | assumption | apply Touch.step (Chip.cxError_touch ..) | apply Touch.step (Chip.cxIntrude_touch ..) | apply Touch.step (Chip.cxMod_touch ..) | apply Touch.step (Chip.dgtCycles_touch ..))
    | decide +kernel
    | split
    | (intro _; intros)
    | (clear_value *; split)

theorem Chip.cxRead_touch (c : Chip) (n : Nat) : Touch 0x40108 0x180000000000000000000800000000000000000000000000000000000004 c (Chip.cxRead c n).1 := by
  unfold Chip.cxRead
  repeat' first
    | (fail_if_no_progress extract_lets +onlyGivenNames x; first | (revert x; intro (x : Chip); refine Touch.cut (d := x) ?_ (fun hx => ?_); subst x; rotate_left; try clear_value x) | (revert x; intro (x : Chip × _); refine Touch.cut (d := x.1) ?_ (fun hx => ?_); subst x; rotate_left; try clear_value x) | skip)
    | (with_reducible first | exact Touch.refl | assumption | apply Touch.puti | apply Touch.step (Chip.cxMod_touch ..) | apply Touch.step (Chip.log_touch ..))
    | decide +kernel
    | split
    | (intro _; intros)
    | (clear_value *; split)

end Sys2Proof.Machine
end

