-- ==== Sys2Proof/Laws/TouchLaunchOps.lean ====
section
/-! SUPPORT. What each function of Machine/LaunchOps.lean can change: the two masks of `Touch` (Laws/Touch.lean), parts and banks of registers. -/

set_option linter.unreachableTactic false
set_option linter.unusedTactic false
set_option linter.tactic.unusedName false
set_option linter.unnecessarySeqFocus false
set_option linter.unusedVariables false
set_option Elab.async false

namespace Sys2Proof.Machine

theorem Chip.recount_touch (c : Chip) (n : Nat) : Touch 0x100 0xe000000000000000000 c (Chip.recount c n) := by
  unfold Chip.recount
  repeat' first
    | (fail_if_no_progress extract_lets +onlyGivenNames x; first | (revert x; intro (x : Chip); refine Touch.cut (d := x) ?_ (fun hx => ?_); subst x; rotate_left; try clear_value x) | (revert x; intro (x : Chip × _); refine Touch.cut (d := x.1) ?_ (fun hx => ?_); subst x; rotate_left; try clear_value x) | skip)
    | (with_reducible first | exact Touch.refl | assumption | apply Touch.puti)
    | decide +kernel
    | split
    | (intro _; intros)
    | (clear_value *; split)

theorem Chip.lset_touch (c : Chip) (n st : Nat) : Touch 0x108 0x180000000000000000000000000000000000000002000000000000000004 c (Chip.lset c n st) := by
  unfold Chip.lset
  repeat' first
    | (fail_if_no_progress extract_lets +onlyGivenNames x; first | (revert x; intro (x : Chip); refine Touch.cut (d := x) ?_ (fun hx => ?_); subst x; rotate_left; try clear_value x) | (revert x; intro (x : Chip × _); refine Touch.cut (d := x.1) ?_ (fun hx => ?_); subst x; rotate_left; try clear_value x) | skip)
    | (with_reducible first | exact Touch.refl | assumption | apply Touch.puti | apply Touch.step (Chip.noilTrans_touch ..) | apply Touch.step (Chip.trace_touch ..))
    | decide +kernel
    | split
    | (intro _; intros)
    | (clear_value *; split)

theorem Chip.lfree_touch (c : Chip) (n : Nat) : Touch 0x20108 0x1000180000000000000000000000000000000000000002000000000000000004 c (Chip.lfree c n) := by
  unfold Chip.lfree
  repeat' first
    | (with_reducible first | exact Touch.refl | assumption | apply Touch.resetCopy 252 0x5100 0x400 | apply Touch.step (Chip.lset_touch ..))
    | decide +kernel
    | (with_reducible apply Touch.upd) <;> first | (intro p; cases p <;> dsimp only [Part.same] <;> first | exact Or.inl (by decide +kernel) | exact Or.inr rfl) | (with_reducible first | exact Touch.refl | assumption | apply Touch.resetCopy 252 0x5100 0x400 | apply Touch.step (Chip.lset_touch ..)) | split
    | (intro h; constructor <;> simp only [R.WHL_Ln_SLOT_LO] <;> omega)
    | (intro off h1 h2; simp only [R.WHL_Ln_SLOT_LO] at h1 h2; exact covers_window (i := 252) (lo := 0x5100) (len := 0x400) (by decide +kernel) (by omega) (by omega))
    | split
    | (intro _; intros)
    | (clear_value *; split)

theorem Chip.switchBob_touch (c : Chip) (id : Nat) : Touch 0x10100 0x80000000000000000000000000000000000 c (Chip.switchBob c id) := by
  unfold Chip.switchBob
  repeat' first
    | (fail_if_no_progress extract_lets +onlyGivenNames x; first | (revert x; intro (x : Chip); refine Touch.cut (d := x) ?_ (fun hx => ?_); subst x; rotate_left; try clear_value x) | (revert x; intro (x : Chip × _); refine Touch.cut (d := x.1) ?_ (fun hx => ?_); subst x; rotate_left; try clear_value x) | skip)
    | (with_reducible first | exact Touch.refl | assumption | apply Touch.step (Chip.bobMod_touch ..) | apply Touch.step (Chip.cachePin_touch ..))
    | decide +kernel
    | split
    | (intro _; intros)
    | (clear_value *; split)

theorem Chip.retireBob_touch (c : Chip) (num id : Nat) : Touch 0x103010c 0x180000000000000000000000080000000000000000000000000000000004 c (Chip.retireBob c num id) := by
  unfold Chip.retireBob
  repeat' first
    | (fail_if_no_progress extract_lets +onlyGivenNames x; first | (revert x; intro (x : Chip); refine Touch.cut (d := x) ?_ (fun hx => ?_); subst x; rotate_left; try clear_value x) | (revert x; intro (x : Chip × _); refine Touch.cut (d := x.1) ?_ (fun hx => ?_); subst x; rotate_left; try clear_value x) | skip)
    | (with_reducible first | exact Touch.refl | assumption | apply Touch.step (Chip.bobMod_touch ..) | apply Touch.step (Chip.cacheDrop_touch ..) | apply Touch.step (Chip.warpTo_touch ..))
    | decide +kernel
    | (with_reducible apply Touch.upd) <;> first | (intro p; cases p <;> dsimp only [Part.same] <;> first | exact Or.inl (by decide +kernel) | exact Or.inr rfl) | (with_reducible first | exact Touch.refl | assumption | apply Touch.step (Chip.bobMod_touch ..) | apply Touch.step (Chip.cacheDrop_touch ..) | apply Touch.step (Chip.warpTo_touch ..)) | split
    | split
    | (intro _; intros)
    | (clear_value *; split)

theorem Chip.cancelRecs_touch (c : Chip) (ids : List Nat) : Touch 0x10000 0x300000000000000000000000000000000 c (Chip.cancelRecs c ids) := by
  unfold Chip.cancelRecs
  repeat' first
    | (fail_if_no_progress extract_lets +onlyGivenNames x; first | (revert x; intro (x : Chip); refine Touch.cut (d := x) ?_ (fun hx => ?_); subst x; rotate_left; try clear_value x) | (revert x; intro (x : Chip × _); refine Touch.cut (d := x.1) ?_ (fun hx => ?_); subst x; rotate_left; try clear_value x) | skip)
    | (with_reducible first | exact Touch.refl | assumption | apply Touch.each | apply Touch.step (Chip.jWrite_touch ..))
    | decide +kernel
    | split
    | (intro _; intros)
    | (clear_value *; split)

theorem Chip.launchCancel_touch (c : Chip) (n reason : Nat) : Touch 0x100010c 0x180000000000000000000000000000000003000002000000000000000004 c (Chip.launchCancel c n reason) := by
  unfold Chip.launchCancel
  repeat' first
    | (fail_if_no_progress extract_lets +onlyGivenNames x; first | (revert x; intro (x : Chip); refine Touch.cut (d := x) ?_ (fun hx => ?_); subst x; rotate_left; try clear_value x) | (revert x; intro (x : Chip × _); refine Touch.cut (d := x.1) ?_ (fun hx => ?_); subst x; rotate_left; try clear_value x) | skip)
    | (with_reducible first | exact Touch.refl | assumption | apply Touch.step (Chip.lset_touch ..) | apply Touch.step (Chip.mirrorThen_touch ..))
    | decide +kernel
    | split
    | (intro _; intros)
    | (clear_value *; split)

theorem Chip.cancelGo_touch (c : Chip) (n reason : Nat) : Touch 0x103011c 0x180000000000000000000000080300000000000020000000000000000004 c (Chip.cancelGo c n reason) := by
  unfold Chip.cancelGo
  repeat' first
    | (fail_if_no_progress extract_lets +onlyGivenNames x; first | (revert x; intro (x : Chip); refine Touch.cut (d := x) ?_ (fun hx => ?_); subst x; rotate_left; try clear_value x) | (revert x; intro (x : Chip × _); refine Touch.cut (d := x.1) ?_ (fun hx => ?_); subst x; rotate_left; try clear_value x) | skip)
    | (with_reducible first | exact Touch.refl | assumption | apply Touch.each | apply Touch.step (Chip.cancelRecs_touch ..) | apply Touch.step (Chip.cmdPart_touch ..) | apply Touch.step (Chip.discard_touch ..) | apply Touch.step (Chip.ringBroadcast_touch ..))
    | decide +kernel
    | (with_reducible apply Touch.upd) <;> first | (intro p; cases p <;> dsimp only [Part.same] <;> first | exact Or.inl (by decide +kernel) | exact Or.inr rfl) | (with_reducible first | exact Touch.refl | assumption | apply Touch.each | apply Touch.step (Chip.cancelRecs_touch ..) | apply Touch.step (Chip.cmdPart_touch ..) | apply Touch.step (Chip.discard_touch ..) | apply Touch.step (Chip.ringBroadcast_touch ..)) | split
    | split
    | (intro _; intros)
    | (clear_value *; split)

theorem Chip.cancelsEnd_touch (c : Chip) : Touch 0x100010c 0x180000000000000000000000000000000003000002000000000000000004 c (Chip.cancelsEnd c) := by
  unfold Chip.cancelsEnd
  repeat' first
    | (fail_if_no_progress extract_lets +onlyGivenNames x; first | (revert x; intro (x : Chip); refine Touch.cut (d := x) ?_ (fun hx => ?_); subst x; rotate_left; try clear_value x) | (revert x; intro (x : Chip × _); refine Touch.cut (d := x.1) ?_ (fun hx => ?_); subst x; rotate_left; try clear_value x) | skip)
    | (with_reducible first | exact Touch.refl | assumption | apply Touch.each | apply Touch.puti | apply Touch.step (Chip.log_touch ..) | apply Touch.step (Chip.lset_touch ..) | apply Touch.step (Chip.mirrorItem_touch ..))
    | decide +kernel
    | split
    | (intro _; intros)
    | (clear_value *; split)

theorem Chip.retireDone_touch (c : Chip) (num id : Nat) : Touch 0x20108 0x180000000000000000000000000000000000000000000000000000000004 c (Chip.retireDone c num id) := by
  unfold Chip.retireDone
  repeat' first
    | (fail_if_no_progress extract_lets +onlyGivenNames x; first | (revert x; intro (x : Chip); refine Touch.cut (d := x) ?_ (fun hx => ?_); subst x; rotate_left; try clear_value x) | (revert x; intro (x : Chip × _); refine Touch.cut (d := x.1) ?_ (fun hx => ?_); subst x; rotate_left; try clear_value x) | skip)
    | (with_reducible first | exact Touch.refl | assumption | apply Touch.step (Chip.log_touch ..))
    | decide +kernel
    | (with_reducible apply Touch.upd) <;> first | (intro p; cases p <;> dsimp only [Part.same] <;> first | exact Or.inl (by decide +kernel) | exact Or.inr rfl) | (with_reducible first | exact Touch.refl | assumption | apply Touch.step (Chip.log_touch ..)) | split
    | split
    | (intro _; intros)
    | (clear_value *; split)

end Sys2Proof.Machine
end

