-- ==== Sys2Proof/Laws/TouchBootOps.lean ====
section
/-! SUPPORT. What each function of Machine/BootOps.lean can change: the two masks of `Touch` (Laws/Touch.lean), parts and banks of registers. -/

set_option linter.unreachableTactic false
set_option linter.unusedTactic false
set_option linter.tactic.unusedName false
set_option linter.unnecessarySeqFocus false
set_option linter.unusedVariables false
set_option Elab.async false

namespace Sys2Proof.Machine

theorem Chip.setPhase_touch (c : Chip) (p : Nat) : Touch 0x1100 0x30 c (Chip.setPhase c p) := by
  unfold Chip.setPhase
  repeat' first
    | (fail_if_no_progress extract_lets +onlyGivenNames x; first | (revert x; intro (x : Chip); refine Touch.cut (d := x) ?_ (fun hx => ?_); subst x; rotate_left; try clear_value x) | (revert x; intro (x : Chip × _); refine Touch.cut (d := x.1) ?_ (fun hx => ?_); subst x; rotate_left; try clear_value x) | skip)
    | (with_reducible first | exact Touch.refl | assumption | apply Touch.put | apply Touch.step (Chip.bootTime_touch ..))
    | decide +kernel
    | (with_reducible apply Touch.upd) <;> first | (intro p; cases p <;> dsimp only [Part.same] <;> first | exact Or.inl (by decide +kernel) | exact Or.inr rfl) | (with_reducible first | exact Touch.refl | assumption | apply Touch.put | apply Touch.step (Chip.bootTime_touch ..)) | split
    | split
    | (intro _; intros)
    | (clear_value *; split)

theorem Chip.failStep_touch (c : Chip) (st : Status) : Touch 0x100 0x10 c (Chip.failStep c st) := by
  unfold Chip.failStep
  repeat' first
    | (with_reducible first | exact Touch.refl | assumption | apply Touch.put)
    | decide +kernel
    | split
    | (intro _; intros)
    | (clear_value *; split)

theorem Chip.applyCfg_touch (c : Chip) : Touch 0x100 0x4000000000000000000000200000000000c040000100000000188000 c (Chip.applyCfg c) := by
  unfold Chip.applyCfg
  repeat' first
    | (fail_if_no_progress extract_lets +onlyGivenNames x; first | (revert x; intro (x : Chip); refine Touch.cut (d := x) ?_ (fun hx => ?_); subst x; rotate_left; try clear_value x) | (revert x; intro (x : Chip × _); refine Touch.cut (d := x.1) ?_ (fun hx => ?_); subst x; rotate_left; try clear_value x) | skip)
    | (with_reducible first | exact Touch.refl | assumption | apply Touch.put | apply Touch.foldl | apply Touch.foldl_fst)
    | decide +kernel
    | split
    | (intro _; intros)
    | (clear_value *; split)

theorem Chip.config_touch (c : Chip) (body : Option (List Byte)) (bad : Status) : Touch 0x6108 0x18004000000000000000000000200000000000c040000100000000188044 c (Chip.config c body bad) := by
  unfold Chip.config
  repeat' first
    | (fail_if_no_progress extract_lets +onlyGivenNames x; first | (revert x; intro (x : Chip); refine Touch.cut (d := x) ?_ (fun hx => ?_); subst x; rotate_left; try clear_value x) | (revert x; intro (x : Chip × _); refine Touch.cut (d := x.1) ?_ (fun hx => ?_); subst x; rotate_left; try clear_value x) | skip)
    | (with_reducible first | exact Touch.refl | assumption | apply Touch.put | apply Touch.step (Chip.applyCfg_touch ..) | apply Touch.step (Chip.log_touch ..))
    | decide +kernel
    | (with_reducible apply Touch.upd) <;> first | (intro p; cases p <;> dsimp only [Part.same] <;> first | exact Or.inl (by decide +kernel) | exact Or.inr rfl) | (with_reducible first | exact Touch.refl | assumption | apply Touch.put | apply Touch.step (Chip.applyCfg_touch ..) | apply Touch.step (Chip.log_touch ..)) | split
    | split
    | (intro _; intros)
    | (clear_value *; split)

theorem Chip.tamperPut_touch (c : Chip) (b : List Byte) (t : Nat × Nat × Nat) : Touch 0x900 0x4000000000000 c (Chip.tamperPut c b t) := by
  unfold Chip.tamperPut
  repeat' first
    | (fail_if_no_progress extract_lets +onlyGivenNames x; first | (revert x; intro (x : Chip); refine Touch.cut (d := x) ?_ (fun hx => ?_); subst x; rotate_left; try clear_value x) | (revert x; intro (x : Chip × _); refine Touch.cut (d := x.1) ?_ (fun hx => ?_); subst x; rotate_left; try clear_value x) | skip)
    | (with_reducible first | exact Touch.refl | assumption | apply Touch.put | apply Touch.step (Chip.norWr_touch ..))
    | decide +kernel
    | split
    | (intro _; intros)
    | (clear_value *; split)

theorem Chip.tamperOpen_touch (c : Chip) : Touch 0x908 0x18000000000000000000000000000000000000000000000c080000000004 c (Chip.tamperOpen c) := by
  unfold Chip.tamperOpen
  repeat' first
    | (fail_if_no_progress extract_lets +onlyGivenNames x; first | (revert x; intro (x : Chip); refine Touch.cut (d := x) ?_ (fun hx => ?_); subst x; rotate_left; try clear_value x) | (revert x; intro (x : Chip × _); refine Touch.cut (d := x.1) ?_ (fun hx => ?_); subst x; rotate_left; try clear_value x) | skip)
    | (with_reducible first | exact Touch.refl | assumption | apply Touch.put | apply Touch.puti | apply Touch.foldl | apply Touch.foldl_fst | apply Touch.step (Chip.log_touch ..) | apply Touch.step (Chip.tamperPut_touch ..) | apply Touch.step (Chip.tamperRoom_touch ..))
    | decide +kernel
    | split
    | (intro _; intros)
    | (clear_value *; split)

end Sys2Proof.Machine
end

