-- ==== Sys2Proof/Laws/TouchCardOps.lean ====
section
/-! SUPPORT. What each function of Machine/CardOps.lean can change: the two masks of `Touch` (Laws/Touch.lean), parts and banks of registers. -/

set_option linter.unreachableTactic false
set_option linter.unusedTactic false
set_option linter.tactic.unusedName false
set_option linter.unnecessarySeqFocus false
set_option linter.unusedVariables false
set_option Elab.async false

namespace Sys2Proof.Machine

theorem Chip.cardMod_touch (c : Chip) (n : Nat) (f : CardDie → CardDie) : Touch 0x8000 0x0 c (Chip.cardMod c n f) := by
  unfold Chip.cardMod
  repeat' first
    | (with_reducible first | exact Touch.refl | assumption)
    | decide +kernel
    | (with_reducible apply Touch.upd) <;> first | (intro p; cases p <;> dsimp only [Part.same] <;> first | exact Or.inl (by decide +kernel) | exact Or.inr rfl) | (with_reducible first | exact Touch.refl | assumption) | split
    | split
    | (intro _; intros)
    | (clear_value *; split)

theorem Chip.cardSet_touch (c : Chip) (n st : Nat) : Touch 0x100 0x4000 c (Chip.cardSet c n st) := by
  unfold Chip.cardSet
  repeat' first
    | (with_reducible first | exact Touch.refl | assumption | apply Touch.puti | apply Touch.step (Chip.noilTrans_touch ..))
    | decide +kernel
    | split
    | (intro _; intros)
    | (clear_value *; split)

theorem Chip.setCarded_touch (c : Chip) (n : Nat) (b : Bool) : Touch 0x100 0x180 c (Chip.setCarded c n b) := by
  unfold Chip.setCarded
  repeat' first
    | (with_reducible first | exact Touch.refl | assumption | apply Touch.put)
    | decide +kernel
    | split
    | (intro _; intros)
    | (clear_value *; split)

theorem Chip.measReq_touch (c : Chip) (n op index rkey : Nat) (data : List Byte) : Touch 0x11c 0x180000000000000000000000000000000000000000000000000000000004 c (Chip.measReq c n op index rkey data) := by
  unfold Chip.measReq
  repeat' first
    | (with_reducible first | exact Touch.refl | assumption | apply Touch.step (Chip.ringSend_touch ..))
    | decide +kernel
    | split
    | (intro _; intros)
    | (clear_value *; split)

theorem Chip.measure_touch (c : Chip) (n : Nat) : Touch 0x4811e 0x180000000000000000000004000000000000000000000000000000004004 c (Chip.measure c n) := by
  unfold Chip.measure
  repeat' first
    | (fail_if_no_progress extract_lets +onlyGivenNames x; first | (revert x; intro (x : Chip); refine Touch.cut (d := x) ?_ (fun hx => ?_); subst x; rotate_left; try clear_value x) | (revert x; intro (x : Chip × _); refine Touch.cut (d := x.1) ?_ (fun hx => ?_); subst x; rotate_left; try clear_value x) | (revert x; intro (x : _ × Chip); refine Touch.cut (d := x.2) ?_ (fun hx => ?_); subst x; rotate_left; try clear_value x) | (revert x; intro (x : _ × _ × Chip); refine Touch.cut (d := x.2.2) ?_ (fun hx => ?_); subst x; rotate_left; try clear_value x) | skip)
    | (with_reducible first | exact Touch.refl | assumption | apply Touch.step (Chip.cardMod_touch ..) | apply Touch.step (Chip.cardSet_touch ..) | apply Touch.step (Chip.measReq_touch ..) | apply Touch.step (Chip.rnd_touch ..))
    | decide +kernel
    | split
    | (intro _; intros)
    | (clear_value *; split)

theorem Chip.bridgeDie_touch (c : Chip) (n : Nat) (b : Bool) : Touch 0x11c 0x180000000000000000000000000000000000003800000000000000000004 c (Chip.bridgeDie c n b) := by
  unfold Chip.bridgeDie
  dsimp only
  repeat' first
    | (with_reducible first | exact Touch.refl | assumption | apply Touch.put | apply Touch.step (Chip.sendForce_touch ..))
    | decide +kernel
    | unfold bridgeField
    | split
    | (intro _; intros)
    | (clear_value *; split)

theorem Chip.cardRoundEnd_touch (c : Chip) : Touch 0x811c 0x180000000000000000000000000000000000003800000000000000000004 c (Chip.cardRoundEnd c) := by
  unfold Chip.cardRoundEnd
  repeat' first
    | (fail_if_no_progress extract_lets +onlyGivenNames x; first | (revert x; intro (x : Chip); refine Touch.cut (d := x) ?_ (fun hx => ?_); subst x; rotate_left; try clear_value x) | (revert x; intro (x : Chip × _); refine Touch.cut (d := x.1) ?_ (fun hx => ?_); subst x; rotate_left; try clear_value x) | skip)
    | (with_reducible first | exact Touch.refl | assumption | apply Touch.each | apply Touch.step (Chip.bridgeDie_touch ..) | apply Touch.step (Chip.cardMod_touch ..))
    | decide +kernel
    | (with_reducible apply Touch.upd) <;> first | (intro p; cases p <;> dsimp only [Part.same] <;> first | exact Or.inl (by decide +kernel) | exact Or.inr rfl) | (with_reducible first | exact Touch.refl | assumption | apply Touch.each | apply Touch.step (Chip.bridgeDie_touch ..) | apply Touch.step (Chip.cardMod_touch ..)) | split
    | split
    | (intro _; intros)
    | (clear_value *; split)

theorem Chip.cardReject_touch (c : Chip) (n code : Nat) (st : Status) (field : Nat) (v : List Byte) : Touch 0x100811c 0x180000000000000000000000000000000003003800000000000000004004 c (Chip.cardReject c n code st field v) := by
  unfold Chip.cardReject
  repeat' first
    | (fail_if_no_progress extract_lets +onlyGivenNames x; first | (revert x; intro (x : Chip); refine Touch.cut (d := x) ?_ (fun hx => ?_); subst x; rotate_left; try clear_value x) | (revert x; intro (x : Chip × _); refine Touch.cut (d := x.1) ?_ (fun hx => ?_); subst x; rotate_left; try clear_value x) | skip)
    | (with_reducible first | exact Touch.refl | assumption | apply Touch.puti | apply Touch.step (Chip.cardMod_touch ..) | apply Touch.step (Chip.cardRoundEnd_touch ..) | apply Touch.step (Chip.cardSet_touch ..) | apply Touch.step (Chip.log_touch ..) | apply Touch.step (Chip.mirrorEarly_touch ..))
    | decide +kernel
    | split
    | (intro _; intros)
    | (clear_value *; split)

theorem Chip.cardKey_touch (c : Chip) (rkey : Nat) : Touch 0x104011e 0x180000000000000000000004000000000003000040000000000000000004 c (Chip.cardKey c rkey).1 := by
  unfold Chip.cardKey
  repeat' first
    | (fail_if_no_progress extract_lets +onlyGivenNames x; first | (revert x; intro (x : Chip); refine Touch.cut (d := x) ?_ (fun hx => ?_); subst x; rotate_left; try clear_value x) | (revert x; intro (x : Chip × _); refine Touch.cut (d := x.1) ?_ (fun hx => ?_); subst x; rotate_left; try clear_value x) | (revert x; intro (x : _ × Chip); refine Touch.cut (d := x.2) ?_ (fun hx => ?_); subst x; rotate_left; try clear_value x) | (revert x; intro (x : _ × _ × Chip); refine Touch.cut (d := x.2.2) ?_ (fun hx => ?_); subst x; rotate_left; try clear_value x) | skip)
    | (with_reducible first | exact Touch.refl | assumption | apply Touch.put | apply Touch.step (Chip.mirrorEarly_touch ..) | apply Touch.step (Chip.rndPr_touch ..))
    | decide +kernel
    | (with_reducible apply Touch.upd) <;> first | (intro p; cases p <;> dsimp only [Part.same] <;> first | exact Or.inl (by decide +kernel) | exact Or.inr rfl) | (with_reducible first | exact Touch.refl | assumption | apply Touch.put | apply Touch.step (Chip.mirrorEarly_touch ..) | apply Touch.step (Chip.rndPr_touch ..)) | split
    | split
    | (intro _; intros)
    | (clear_value *; split)

theorem Chip.keyParts_touch (c : Chip) (n : Nat) : Touch 0x1008000 0x0 c (Chip.keyParts c n) := by
  unfold Chip.keyParts
  repeat' first
    | (fail_if_no_progress extract_lets +onlyGivenNames x; first | (revert x; intro (x : Chip); refine Touch.cut (d := x) ?_ (fun hx => ?_); subst x; rotate_left; try clear_value x) | (revert x; intro (x : Chip × _); refine Touch.cut (d := x.1) ?_ (fun hx => ?_); subst x; rotate_left; try clear_value x) | skip)
    | (with_reducible first | exact Touch.refl | assumption | apply Touch.each | apply Touch.step (Chip.cardMod_touch ..) | apply Touch.step (Chip.hold_touch ..))
    | decide +kernel
    | split
    | (intro _; intros)
    | (clear_value *; split)

theorem Chip.cardEph_touch (c : Chip) : Touch 0x48102 0x4000000000000000000000000000000000000 c (Chip.cardEph c).1 := by
  unfold Chip.cardEph
  repeat' first
    | (fail_if_no_progress extract_lets +onlyGivenNames x; first | (revert x; intro (x : Chip); refine Touch.cut (d := x) ?_ (fun hx => ?_); subst x; rotate_left; try clear_value x) | (revert x; intro (x : Chip × _); refine Touch.cut (d := x.1) ?_ (fun hx => ?_); subst x; rotate_left; try clear_value x) | (revert x; intro (x : _ × Chip); refine Touch.cut (d := x.2) ?_ (fun hx => ?_); subst x; rotate_left; try clear_value x) | (revert x; intro (x : _ × _ × Chip); refine Touch.cut (d := x.2.2) ?_ (fun hx => ?_); subst x; rotate_left; try clear_value x) | skip)
    | (with_reducible first | exact Touch.refl | assumption | apply Touch.step (Chip.rnd_touch ..))
    | decide +kernel
    | (with_reducible apply Touch.upd) <;> first | (intro p; cases p <;> dsimp only [Part.same] <;> first | exact Or.inl (by decide +kernel) | exact Or.inr rfl) | (with_reducible first | exact Touch.refl | assumption | apply Touch.step (Chip.rnd_touch ..)) | split
    | split
    | (intro _; intros)
    | (clear_value *; split)

theorem Chip.measured_touch (c : Chip) (m : Inbox) : Touch 0x104811e 0x180000000000000000000004000000000003003800000000000000004004 c (Chip.measured c m) := by
  unfold Chip.measured
  repeat' first
    | (fail_if_no_progress extract_lets +onlyGivenNames x; first | (revert x; intro (x : Chip); refine Touch.cut (d := x) ?_ (fun hx => ?_); subst x; rotate_left; try clear_value x) | (revert x; intro (x : Chip × _); refine Touch.cut (d := x.1) ?_ (fun hx => ?_); subst x; rotate_left; try clear_value x) | skip)
    | (with_reducible first | exact Touch.refl | assumption | apply Touch.step (Chip.cardEph_touch ..) | apply Touch.step (Chip.cardMod_touch ..) | apply Touch.step (Chip.cardReject_touch ..) | apply Touch.step (Chip.cardSet_touch ..) | apply Touch.step (Chip.keyParts_touch ..) | apply Touch.step (Chip.log_touch ..))
    | decide +kernel
    | split
    | (intro _; intros)
    | (clear_value *; split)

theorem Chip.keyInstalled_touch (c : Chip) (m : Inbox) : Touch 0x100010c 0x180000000000000000000000000000000003000000000000000000000004 c (Chip.keyInstalled c m) := by
  unfold Chip.keyInstalled
  repeat' first
    | (fail_if_no_progress extract_lets +onlyGivenNames x; first | (revert x; intro (x : Chip); refine Touch.cut (d := x) ?_ (fun hx => ?_); subst x; rotate_left; try clear_value x) | (revert x; intro (x : Chip × _); refine Touch.cut (d := x.1) ?_ (fun hx => ?_); subst x; rotate_left; try clear_value x) | skip)
    | (with_reducible first | exact Touch.refl | assumption | apply Touch.step (Chip.hold_touch ..) | apply Touch.step (Chip.mirrorEarly_touch ..))
    | decide +kernel
    | split
    | (intro _; intros)
    | (clear_value *; split)

theorem Chip.cardRelease_touch (c : Chip) (n : Nat) : Touch 0x1811c 0x180000000000000000000000000000000000003800000000000000004184 c (Chip.cardRelease c n) := by
  unfold Chip.cardRelease
  repeat' first
    | (fail_if_no_progress extract_lets +onlyGivenNames x; first | (revert x; intro (x : Chip); refine Touch.cut (d := x) ?_ (fun hx => ?_); subst x; rotate_left; try clear_value x) | (revert x; intro (x : Chip × _); refine Touch.cut (d := x.1) ?_ (fun hx => ?_); subst x; rotate_left; try clear_value x) | skip)
    | (with_reducible first | exact Touch.refl | assumption | apply Touch.step (Chip.cardMod_touch ..) | apply Touch.step (Chip.cardRoundEnd_touch ..) | apply Touch.step (Chip.cardSet_touch ..) | apply Touch.step (Chip.cu_touch ..) | apply Touch.step (Chip.log_touch ..) | apply Touch.step (Chip.measReq_touch ..) | apply Touch.step (Chip.setCarded_touch ..))
    | decide +kernel
    | split
    | (intro _; intros)
    | (clear_value *; split)

theorem Chip.keyFailed_touch (c : Chip) (n : Nat) : Touch 0x104811e 0x180000000000000000000004000000000003003800000000000000004004 c (Chip.keyFailed c n) := by
  unfold Chip.keyFailed
  repeat' first
    | (with_reducible first | exact Touch.refl | assumption | apply Touch.step (Chip.cardMod_touch ..) | apply Touch.step (Chip.cardReject_touch ..) | apply Touch.step (Chip.measure_touch ..))
    | decide +kernel
    | split
    | (intro _; intros)
    | (clear_value *; split)

theorem Chip.cardDrop_touch (c : Chip) (n : Nat) : Touch 0x10100 0x180 c (Chip.cardDrop c n) := by
  unfold Chip.cardDrop
  repeat' first
    | (with_reducible first | exact Touch.refl | assumption | apply Touch.step (Chip.cu_touch ..) | apply Touch.step (Chip.setCarded_touch ..))
    | decide +kernel
    | split
    | (intro _; intros)
    | (clear_value *; split)

theorem Chip.cardWithdraw_touch (c : Chip) (n : Nat) : Touch 0x145811e 0x180000000000000000000004000000000003000000000000000000004184 c (Chip.cardWithdraw c n) := by
  unfold Chip.cardWithdraw
  repeat' first
    | (fail_if_no_progress extract_lets +onlyGivenNames x; first | (revert x; intro (x : Chip); refine Touch.cut (d := x) ?_ (fun hx => ?_); subst x; rotate_left; try clear_value x) | (revert x; intro (x : Chip × _); refine Touch.cut (d := x.1) ?_ (fun hx => ?_); subst x; rotate_left; try clear_value x) | skip)
    | (with_reducible first | exact Touch.refl | assumption | apply Touch.step (Chip.cardDrop_touch ..) | apply Touch.step (Chip.measReq_touch ..) | apply Touch.step (Chip.measure_touch ..) | apply Touch.step (Chip.mirrorItem_touch ..))
    | decide +kernel
    | (with_reducible apply Touch.upd) <;> first | (intro p; cases p <;> dsimp only [Part.same] <;> first | exact Or.inl (by decide +kernel) | exact Or.inr rfl) | (with_reducible first | exact Touch.refl | assumption | apply Touch.step (Chip.cardDrop_touch ..) | apply Touch.step (Chip.measReq_touch ..) | apply Touch.step (Chip.measure_touch ..) | apply Touch.step (Chip.mirrorItem_touch ..)) | split
    | split
    | (intro _; intros)
    | (clear_value *; split)

theorem Chip.cardAbsent_touch {pm bm : Nat} {a : Chip} (c : Chip) (left : Chip → Nat → Chip) (hp : sub 0x141810c pm = true) (hb : sub 0x180000000000000000000000000000000003000000000000000000004184 bm = true)
    (h_left : ∀ d x1, Touch pm bm a d → Touch pm bm a (left d x1))
    (hT : Touch pm bm a c) : Touch pm bm a (Chip.cardAbsent c left) := by
  unfold Chip.cardAbsent
  repeat' first
    | (fail_if_no_progress extract_lets +onlyGivenNames x; first | (revert x; intro (x : Chip); refine Touch.cut (d := x) ?_ (fun hx => ?_); subst x; rotate_left; try clear_value x) | (revert x; intro (x : Chip × _); refine Touch.cut (d := x.1) ?_ (fun hx => ?_); subst x; rotate_left; try clear_value x) | skip)
    | (with_reducible first | exact Touch.refl | assumption | apply Touch.each | apply Touch.step (Chip.cardDrop_touch ..) | apply Touch.step (Chip.cardSet_touch ..) | apply Touch.step (Chip.mirrorItem_touch ..) | apply h_left)
    | exact sub_trans (by decide +kernel) hp
    | exact sub_trans (by decide +kernel) hb
    | exact hasField_sub hb (by decide +kernel)
    | (with_reducible apply Touch.upd) <;> first | (intro p; cases p <;> dsimp only [Part.same] <;> first | exact Or.inl (sub_bit hp (by decide +kernel)) | exact Or.inr rfl) | (with_reducible first | exact Touch.refl | assumption | apply Touch.each | apply Touch.step (Chip.cardDrop_touch ..) | apply Touch.step (Chip.cardSet_touch ..) | apply Touch.step (Chip.mirrorItem_touch ..) | apply h_left) | split
    | split
    | (intro _; intros)
    | (clear_value *; split)

theorem Chip.cardAll_touch (c : Chip) : Touch 0x4811e 0x180000000000000000000004000000000000000000000000000000004004 c (Chip.cardAll c) := by
  unfold Chip.cardAll
  repeat' first
    | (with_reducible first | exact Touch.refl | assumption | apply Touch.each | apply Touch.step (Chip.measure_touch ..))
    | decide +kernel
    | split
    | (intro _; intros)
    | (clear_value *; split)

theorem Chip.cardStart_touch (c : Chip) (rkey : Nat) : Touch 0x104811e 0x180000000000000000000004000000000003000040000000000000004004 c (Chip.cardStart c rkey) := by
  unfold Chip.cardStart
  repeat' first
    | (fail_if_no_progress extract_lets +onlyGivenNames x; first | (revert x; intro (x : Chip); refine Touch.cut (d := x) ?_ (fun hx => ?_); subst x; rotate_left; try clear_value x) | (revert x; intro (x : Chip × _); refine Touch.cut (d := x.1) ?_ (fun hx => ?_); subst x; rotate_left; try clear_value x) | skip)
    | (with_reducible first | exact Touch.refl | assumption | apply Touch.step (Chip.cardAll_touch ..) | apply Touch.step (Chip.cardKey_touch ..) | apply Touch.step (Chip.hold_touch ..) | apply Touch.step (Chip.plySend_touch ..))
    | decide +kernel
    | (with_reducible apply Touch.upd) <;> first | (intro p; cases p <;> dsimp only [Part.same] <;> first | exact Or.inl (by decide +kernel) | exact Or.inr rfl) | (with_reducible first | exact Touch.refl | assumption | apply Touch.step (Chip.cardAll_touch ..) | apply Touch.step (Chip.cardKey_touch ..) | apply Touch.step (Chip.hold_touch ..) | apply Touch.step (Chip.plySend_touch ..)) | split
    | split
    | (intro _; intros)
    | (clear_value *; split)

end Sys2Proof.Machine
end

