-- ==== Sys2Proof/Laws/TouchCustodyCmd.lean ====
section
/-! SUPPORT. What each function of Machine/CustodyCmd.lean can change: the two masks of `Touch` (Laws/Touch.lean), parts and banks of registers. -/

set_option linter.unreachableTactic false
set_option linter.unusedTactic false
set_option linter.tactic.unusedName false
set_option linter.unnecessarySeqFocus false
set_option linter.unusedVariables false
set_option Elab.async false

namespace Sys2Proof.Machine

theorem Chip.cmdTake_touch (c : Chip) (op : Nat) (d : CqDesc) (p : Chip × CmdRun) (h : c.cmdTake op d = some p) : Touch 0x10108 0x180000000000000000000000000010000000000000000000000000000004 c p.1 := by
  unfold Chip.cmdTake at h
  extract_lets at h
  split at h
  · cases h
  · cases h
    refine Touch.step (Chip.cu_touch ..) (by decide +kernel) (by decide +kernel) (Touch.step (Chip.countReset_touch ..) (by decide +kernel) (by decide +kernel)
      (Touch.step (Chip.trace_touch ..) (by decide +kernel) (by decide +kernel) (Touch.put (by decide +kernel) Touch.refl)))

theorem Chip.grpsReady_touch (c : Chip) (gs : List Nat) : Touch 0x108 0x180000000000000000000000000000000000000000000000000000050004 c (Chip.grpsReady c gs).1 := by
  unfold Chip.grpsReady
  repeat' first
    | (fail_if_no_progress extract_lets +onlyGivenNames x; first | (revert x; intro (x : Chip); refine Touch.cut (d := x) ?_ (fun hx => ?_); subst x; rotate_left; try clear_value x) | (revert x; intro (x : Chip × _); refine Touch.cut (d := x.1) ?_ (fun hx => ?_); subst x; rotate_left; try clear_value x) | skip)
    | (with_reducible first | exact Touch.refl | assumption | apply Touch.each | apply Touch.step (Chip.groupNeed_touch ..))
    | decide +kernel
    | split
    | (intro _; intros)
    | (clear_value *; split)

theorem Chip.cmdEach_touch {pm bm : Nat} {a : Chip} (c : Chip) (ids : List Nat) (step : Chip → Nat → Chip × Status) (hp : sub 0x0 pm = true) (hb : sub 0x0 bm = true)
    (h_step : ∀ d x1, Touch pm bm a d → Touch pm bm a (step d x1).1)
    (hT : Touch pm bm a c) : Touch pm bm a (Chip.cmdEach c ids step).1 := by
  unfold Chip.cmdEach
  repeat' first
    | (fail_if_no_progress extract_lets +onlyGivenNames x; first | (revert x; intro (x : Chip); refine Touch.cut (d := x) ?_ (fun hx => ?_); subst x; rotate_left; try clear_value x) | (revert x; intro (x : Chip × _); refine Touch.cut (d := x.1) ?_ (fun hx => ?_); subst x; rotate_left; try clear_value x) | skip)
    | (with_reducible first | exact Touch.refl | assumption | apply Touch.foldl | apply Touch.foldl_fst | apply h_step)
    | exact sub_trans (by decide +kernel) hp
    | exact sub_trans (by decide +kernel) hb
    | exact hasField_sub hb (by decide +kernel)
    | split
    | (intro _; intros)
    | (clear_value *; split)

theorem Chip.cmdJournal_touch (c : Chip) (id : Nat) (recs : List JRec) (ready : List Nat) : Touch 0x1010000 0x300000000000000000000000000000000 c (Chip.cmdJournal c id recs ready) := by
  unfold Chip.cmdJournal
  repeat' first
    | (fail_if_no_progress extract_lets +onlyGivenNames x; first | (revert x; intro (x : Chip); refine Touch.cut (d := x) ?_ (fun hx => ?_); subst x; rotate_left; try clear_value x) | (revert x; intro (x : Chip × _); refine Touch.cut (d := x.1) ?_ (fun hx => ?_); subst x; rotate_left; try clear_value x) | skip)
    | (with_reducible first | exact Touch.refl | assumption | apply Touch.each | apply Touch.step (Chip.cu_touch ..) | apply Touch.step (Chip.hold_touch ..) | apply Touch.step (Chip.jWrite_touch ..))
    | decide +kernel
    | split
    | (intro _; intros)
    | (clear_value *; split)

theorem Chip.cmd_touch {pm bm : Nat} {a : Chip} (c : Chip) (op : Nat) (d : CqDesc) (bar : Chip → Option Status) (ids : Chip → List Nat) (step : Chip → Nat → Chip × Status) (recs : Chip → List Nat → List JRec) (hp : sub 0x1010108 pm = true) (hb : sub 0x180000000000000000000000000310000000000000000000000000050004 bm = true)
    (h_step : ∀ d x1, Touch pm bm a d → Touch pm bm a (step d x1).1)
    (hT : Touch pm bm a c) : Touch pm bm a (Chip.cmd c op d bar ids step recs) := by
  unfold Chip.cmd
  repeat' first
    | (fail_if_no_progress extract_lets +onlyGivenNames x; first | (revert x; intro (x : Chip); refine Touch.cut (d := x) ?_ (fun hx => ?_); subst x; rotate_left; try clear_value x) | (revert x; intro (x : Chip × _); refine Touch.cut (d := x.1) ?_ (fun hx => ?_); subst x; rotate_left; try clear_value x) | clear_value x | skip)
    | (with_reducible first | exact Touch.refl | assumption | apply Chip.cmdEach_touch | apply Touch.step (Chip.cmdJournal_touch ..) | apply Touch.step (Chip.cu_touch ..) | apply Touch.step (Chip.grpsReady_touch ..) | apply h_step)
    | exact sub_trans (by decide +kernel) hp
    | exact sub_trans (by decide +kernel) hb
    | exact hasField_sub hb (by decide +kernel)
    | exact Touch.step (Chip.cmdTake_touch _ _ _ _ ‹_›) (sub_trans (by decide +kernel) hp) (sub_trans (by decide +kernel) hb) (by first | exact Touch.refl | assumption)
    | split
    | (intro _; intros)
    | (clear_value *; split)

theorem Chip.cqSkip_touch (c : Chip) (n : Nat) : Touch 0x1090c 0x180000000000000000000000000091000000000000000000000000000004 c (Chip.cqSkip c n) := by
  induction n generalizing c with
  | zero => unfold Chip.cqSkip; exact Touch.refl
  | succ k ih =>
    unfold Chip.cqSkip
    dsimp only
    split
    · exact Touch.refl
    · split
      · exact Touch.refl
      · rename_i p h
        exact Touch.step (ih _) (by decide +kernel) (by decide +kernel) (Touch.step (Chip.cmdsEnd_touch ..) (by decide +kernel) (by decide +kernel)
          (Touch.step (Chip.cu_touch ..) (by decide +kernel) (by decide +kernel) (Touch.step (Chip.cmdTake_touch _ _ _ _ h) (by decide +kernel) (by decide +kernel) Touch.refl)))

theorem Chip.cqRow_touch {pm bm : Nat} {a : Chip} (c : Chip) (op : Nat) (f : Chip → CqDesc → Chip) (hp : sub 0x1090c pm = true) (hb : sub 0x180000000000000000000000000091000000000000000000000000000004 bm = true)
    (h_f : ∀ d x1, Touch pm bm a d → Touch pm bm a (f d x1))
    (hT : Touch pm bm a c) : Touch pm bm a (Chip.cqRow c op f) := by
  unfold Chip.cqRow
  repeat' first
    | (fail_if_no_progress extract_lets +onlyGivenNames x; first | (revert x; intro (x : Chip); refine Touch.cut (d := x) ?_ (fun hx => ?_); subst x; rotate_left; try clear_value x) | (revert x; intro (x : Chip × _); refine Touch.cut (d := x.1) ?_ (fun hx => ?_); subst x; rotate_left; try clear_value x) | skip)
    | (with_reducible first | exact Touch.refl | assumption | apply Touch.step (Chip.cqSkip_touch ..) | apply h_f)
    | exact sub_trans (by decide +kernel) hp
    | exact sub_trans (by decide +kernel) hb
    | exact hasField_sub hb (by decide +kernel)
    | split
    | (intro _; intros)
    | (clear_value *; split)

theorem Chip.limitSum_touch (c : Chip) : Touch 0x100 0x8000000000000000000000000000000000 c (Chip.limitSum c) := by
  unfold Chip.limitSum
  repeat' first
    | (with_reducible first | exact Touch.refl | assumption | apply Touch.put)
    | decide +kernel
    | split
    | (intro _; intros)
    | (clear_value *; split)

theorem Chip.bobNew_touch (c : Chip) (id : Nat) (b : Bob) : Touch 0x10108 0x180000000000000000000000000000000000000000000000000000000004 c (Chip.bobNew c id b) := by
  unfold Chip.bobNew
  repeat' first
    | (fail_if_no_progress extract_lets +onlyGivenNames x; first | (revert x; intro (x : Chip); refine Touch.cut (d := x) ?_ (fun hx => ?_); subst x; rotate_left; try clear_value x) | (revert x; intro (x : Chip × _); refine Touch.cut (d := x.1) ?_ (fun hx => ?_); subst x; rotate_left; try clear_value x) | skip)
    | (with_reducible first | exact Touch.refl | assumption | apply Touch.step (Chip.cu_touch ..) | apply Touch.step (Chip.log_touch ..) | apply Touch.step (Chip.noilTrans_touch ..))
    | decide +kernel
    | split
    | (intro _; intros)
    | (clear_value *; split)

theorem Chip.create1_touch (d : CqDesc) (c : Chip) (id : Nat) : Touch 0x101012c 0x180000000000000000000000000000000000000000000000000000000004 c (Chip.create1 d c id).1 := by
  unfold Chip.create1
  repeat' first
    | (fail_if_no_progress extract_lets +onlyGivenNames x; first | (revert x; intro (x : Chip); refine Touch.cut (d := x) ?_ (fun hx => ?_); subst x; rotate_left; try clear_value x) | (revert x; intro (x : Chip × _); refine Touch.cut (d := x.1) ?_ (fun hx => ?_); subst x; rotate_left; try clear_value x) | skip)
    | (with_reducible first | exact Touch.refl | assumption | apply Touch.step (Chip.blobWrite_touch ..) | apply Touch.step (Chip.bobNew_touch ..) | apply Touch.step (Chip.derive_touch ..) | apply Touch.step (Chip.warpDesc_touch ..))
    | decide +kernel
    | split
    | (intro _; intros)
    | (clear_value *; split)

theorem Chip.cmdCreate_touch (c : Chip) (d : CqDesc) : Touch 0x101012c 0x180000000000000000000000000310000000000000000000000000050004 c (Chip.cmdCreate c d) := by
  unfold Chip.cmdCreate
  repeat' first
    | (with_reducible first | exact Touch.refl | assumption | apply Chip.cmd_touch | apply Touch.step (Chip.create1_touch ..))
    | decide +kernel
    | split
    | (intro _; intros)
    | (clear_value *; split)

theorem Chip.deliverNow_touch (c : Chip) (id launch : Nat) (key : List Byte) : Touch 0x105013e 0x180000000000000000000004080000000000000000000000000000000004 c (Chip.deliverNow c id launch key).1 := by
  unfold Chip.deliverNow
  repeat' first
    | (fail_if_no_progress extract_lets +onlyGivenNames x; first | (revert x; intro (x : Chip); refine Touch.cut (d := x) ?_ (fun hx => ?_); subst x; rotate_left; try clear_value x) | (revert x; intro (x : Chip × _); refine Touch.cut (d := x.1) ?_ (fun hx => ?_); subst x; rotate_left; try clear_value x) | skip)
    | (with_reducible first | exact Touch.refl | assumption | apply Touch.each | apply Touch.step (Chip.blobWrite_touch ..) | apply Touch.step (Chip.bobMod_touch ..) | apply Touch.step (Chip.cachePut_touch ..) | apply Touch.step (Chip.push_touch ..) | apply Touch.step (Chip.warpKey_touch ..))
    | decide +kernel
    | split
    | (intro _; intros)
    | (clear_value *; split)

theorem Chip.deliverKey_touch (c : Chip) (id launch : Nat) (key : List Byte) : Touch 0x105013e 0x180000000000000000000004080000000000000000000000000000000004 c (Chip.deliverKey c id launch key).1 := by
  unfold Chip.deliverKey
  repeat' first
    | (fail_if_no_progress extract_lets +onlyGivenNames x; first | (revert x; intro (x : Chip); refine Touch.cut (d := x) ?_ (fun hx => ?_); subst x; rotate_left; try clear_value x) | (revert x; intro (x : Chip × _); refine Touch.cut (d := x.1) ?_ (fun hx => ?_); subst x; rotate_left; try clear_value x) | skip)
    | (with_reducible first | exact Touch.refl | assumption | apply Touch.step (Chip.bobMod_touch ..) | apply Touch.step (Chip.cu_touch ..) | apply Touch.step (Chip.deliverNow_touch ..) | apply Touch.step (Chip.portReq_touch ..))
    | decide +kernel
    | split
    | (intro _; intros)
    | (clear_value *; split)

theorem Chip.derive1_touch (d : CqDesc) (c : Chip) (id : Nat) : Touch 0x105013e 0x180000000000000000000004080000000000000000000000000000000004 c (Chip.derive1 d c id).1 := by
  unfold Chip.derive1
  repeat' first
    | (fail_if_no_progress extract_lets +onlyGivenNames x; first | (revert x; intro (x : Chip); refine Touch.cut (d := x) ?_ (fun hx => ?_); subst x; rotate_left; try clear_value x) | (revert x; intro (x : Chip × _); refine Touch.cut (d := x.1) ?_ (fun hx => ?_); subst x; rotate_left; try clear_value x) | skip)
    | (with_reducible first | exact Touch.refl | assumption | apply Touch.step (Chip.deliverKey_touch ..) | apply Touch.step (Chip.derive_touch ..))
    | decide +kernel
    | split
    | (intro _; intros)
    | (clear_value *; split)

theorem Chip.cmdDerive_touch (c : Chip) (d : CqDesc) : Touch 0x105013e 0x180000000000000000000004080310000000000000000000000000050004 c (Chip.cmdDerive c d) := by
  unfold Chip.cmdDerive
  repeat' first
    | (with_reducible first | exact Touch.refl | assumption | apply Chip.cmd_touch | apply Touch.step (Chip.derive1_touch ..))
    | decide +kernel
    | split
    | (intro _; intros)
    | (clear_value *; split)

theorem Chip.import1_touch (d : CqDesc) (key : Option (List Byte)) (c : Chip) (id : Nat) : Touch 0x105013e 0x180000000000000000000004080000000000000000000000000000000004 c (Chip.import1 d key c id).1 := by
  unfold Chip.import1
  repeat' first
    | (fail_if_no_progress extract_lets +onlyGivenNames x; first | (revert x; intro (x : Chip); refine Touch.cut (d := x) ?_ (fun hx => ?_); subst x; rotate_left; try clear_value x) | (revert x; intro (x : Chip × _); refine Touch.cut (d := x.1) ?_ (fun hx => ?_); subst x; rotate_left; try clear_value x) | skip)
    | (with_reducible first | exact Touch.refl | assumption | apply Touch.step (Chip.blobWrite_touch ..) | apply Touch.step (Chip.bobMod_touch ..) | apply Touch.step (Chip.bobNew_touch ..) | apply Touch.step (Chip.cachePut_touch ..) | apply Touch.step (Chip.deliverKey_touch ..) | apply Touch.step (Chip.warpDesc_touch ..))
    | decide +kernel
    | split
    | (intro _; intros)
    | (clear_value *; split)

theorem Chip.cmdImport_touch (c : Chip) (d : CqDesc) (key : Option (List Byte)) : Touch 0x105013e 0x180000000000000000000004080310000003000000000000000000050004 c (Chip.cmdImport c d key) := by
  unfold Chip.cmdImport
  repeat' first
    | (fail_if_no_progress extract_lets +onlyGivenNames x; first | (revert x; intro (x : Chip); refine Touch.cut (d := x) ?_ (fun hx => ?_); subst x; rotate_left; try clear_value x) | (revert x; intro (x : Chip × _); refine Touch.cut (d := x.1) ?_ (fun hx => ?_); subst x; rotate_left; try clear_value x) | skip)
    | (with_reducible first | exact Touch.refl | assumption | apply Chip.cmd_touch | apply Touch.step (Chip.import1_touch ..) | apply Touch.step (Chip.mirrorItem_touch ..))
    | decide +kernel
    | split
    | (intro _; intros)
    | (clear_value *; split)

theorem Chip.commit1_touch (d : CqDesc) (c : Chip) (id : Nat) : Touch 0x0 0x0 c (Chip.commit1 d c id).1 := by
  unfold Chip.commit1
  repeat' first
    | (with_reducible first | exact Touch.refl | assumption)
    | decide +kernel
    | split
    | (intro _; intros)
    | (clear_value *; split)

theorem Chip.cmdCommit_touch (c : Chip) (d : CqDesc) : Touch 0x101012c 0x180000000000000000000000000310000003000000000000000000050004 c (Chip.cmdCommit c d) := by
  unfold Chip.cmdCommit
  repeat' first
    | (fail_if_no_progress extract_lets +onlyGivenNames x; first | (revert x; intro (x : Chip); refine Touch.cut (d := x) ?_ (fun hx => ?_); subst x; rotate_left; try clear_value x) | (revert x; intro (x : Chip × _); refine Touch.cut (d := x.1) ?_ (fun hx => ?_); subst x; rotate_left; try clear_value x) | skip)
    | (with_reducible first | exact Touch.refl | assumption | apply Touch.each | apply Chip.cmd_touch | apply Touch.step (Chip.cmdJournal_touch ..) | apply Touch.step (Chip.commit1_touch ..) | apply Touch.step (Chip.cu_touch ..) | apply Touch.step (Chip.mirrorItem_touch ..) | apply Touch.step (Chip.portReq_touch ..))
    | decide +kernel
    | split
    | (intro _; intros)
    | (clear_value *; split)

theorem Chip.armAll_touch (c : Chip) (n : Nat) (ids : List Nat) : Touch 0x101010c 0x180000000000000000000000000000000003000000000000000000000004 c (Chip.armAll c n ids) := by
  unfold Chip.armAll
  repeat' first
    | (fail_if_no_progress extract_lets +onlyGivenNames x; first | (revert x; intro (x : Chip); refine Touch.cut (d := x) ?_ (fun hx => ?_); subst x; rotate_left; try clear_value x) | (revert x; intro (x : Chip × _); refine Touch.cut (d := x.1) ?_ (fun hx => ?_); subst x; rotate_left; try clear_value x) | skip)
    | (with_reducible first | exact Touch.refl | assumption | apply Touch.each | apply Touch.step (Chip.bobMod_touch ..) | apply Touch.step (Chip.hold_touch ..) | apply Touch.step (Chip.mirrorItem_touch ..))
    | decide +kernel
    | split
    | (intro _; intros)
    | (clear_value *; split)

theorem Chip.cmdArm_touch (c : Chip) (d : CqDesc) : Touch 0x101010c 0x180000000000000000000000000310000003000000000000000000050004 c (Chip.cmdArm c d) := by
  unfold Chip.cmdArm
  repeat' first
    | (fail_if_no_progress extract_lets +onlyGivenNames x; first | (revert x; intro (x : Chip); refine Touch.cut (d := x) ?_ (fun hx => ?_); subst x; rotate_left; try clear_value x) | (revert x; intro (x : Chip × _); refine Touch.cut (d := x.1) ?_ (fun hx => ?_); subst x; rotate_left; try clear_value x) | skip)
    | (with_reducible first | exact Touch.refl | assumption | apply Touch.step (Chip.armAll_touch ..) | apply Chip.cmd_touch)
    | decide +kernel
    | exact Touch.step (Chip.cmdTake_touch _ _ _ _ ‹_›) (by decide +kernel) (by decide +kernel) (by first | exact Touch.refl | assumption)
    | split
    | (intro _; intros)
    | (clear_value *; split)

theorem Chip.cmdCancel_touch (c : Chip) (d : CqDesc) : Touch 0x103011c 0x180000000000000000000000080310000000000020000000000000050004 c (Chip.cmdCancel c d) := by
  unfold Chip.cmdCancel
  repeat' first
    | (fail_if_no_progress extract_lets +onlyGivenNames x; first | (revert x; intro (x : Chip); refine Touch.cut (d := x) ?_ (fun hx => ?_); subst x; rotate_left; try clear_value x) | (revert x; intro (x : Chip × _); refine Touch.cut (d := x.1) ?_ (fun hx => ?_); subst x; rotate_left; try clear_value x) | skip)
    | (with_reducible first | exact Touch.refl | assumption | apply Chip.cmd_touch | apply Touch.step (Chip.discard_touch ..))
    | decide +kernel
    | split
    | (intro _; intros)
    | (clear_value *; split)

theorem Chip.freezeFrame_touch (c : Chip) (id : Nat) : Touch 0x101010c 0x180000000000000000000000000000000000000000000000000000000004 c (Chip.freezeFrame c id) := by
  unfold Chip.freezeFrame
  repeat' first
    | (with_reducible first | exact Touch.refl | assumption | apply Touch.step (Chip.warpTo_touch ..))
    | decide +kernel
    | split
    | (intro _; intros)
    | (clear_value *; split)

theorem Chip.cancelRec_touch (c : Chip) (id : Nat) : Touch 0x10000 0x300000000000000000000000000000000 c (Chip.cancelRec c id) := by
  unfold Chip.cancelRec
  repeat' first
    | (with_reducible first | exact Touch.refl | assumption | apply Touch.step (Chip.jWrite_touch ..))
    | decide +kernel
    | split
    | (intro _; intros)
    | (clear_value *; split)

theorem Chip.launchStale_touch (c : Chip) (id : Nat) : Touch 0x100 0x2000000000000000000 c (Chip.launchStale c id) := by
  unfold Chip.launchStale
  repeat' first
    | (with_reducible first | exact Touch.refl | assumption | apply Touch.puti)
    | decide +kernel
    | split
    | (intro _; intros)
    | (clear_value *; split)

theorem Chip.freezeBob_touch (c : Chip) (id : Nat) : Touch 0x103011c 0x180000000000000000000000080300000000000022000000000000000004 c (Chip.freezeBob c id) := by
  unfold Chip.freezeBob
  repeat' first
    | (with_reducible first | exact Touch.refl | assumption | apply Touch.step (Chip.bobMod_touch ..) | apply Touch.step (Chip.cancelRec_touch ..) | apply Touch.step (Chip.discard_touch ..) | apply Touch.step (Chip.freezeFrame_touch ..) | apply Touch.step (Chip.launchStale_touch ..))
    | decide +kernel
    | split
    | (intro _; intros)
    | (clear_value *; split)

theorem Chip.freeze1_touch (c : Chip) (id : Nat) : Touch 0x103011c 0x180000000000000000000000080300000000000022000000000000000004 c (Chip.freeze1 c id).1 := by
  unfold Chip.freeze1
  repeat' first
    | (with_reducible first | exact Touch.refl | assumption | apply Touch.step (Chip.freezeBob_touch ..))
    | decide +kernel
    | split
    | (intro _; intros)
    | (clear_value *; split)

theorem Chip.hankFrozen_touch (c : Chip) (h : Nat) : Touch 0x400100 0x100000000000000000000000000000000000 c (Chip.hankFrozen c h) := by
  unfold Chip.hankFrozen
  repeat' first
    | (fail_if_no_progress extract_lets +onlyGivenNames x; first | (revert x; intro (x : Chip); refine Touch.cut (d := x) ?_ (fun hx => ?_); subst x; rotate_left; try clear_value x) | (revert x; intro (x : Chip × _); refine Touch.cut (d := x.1) ?_ (fun hx => ?_); subst x; rotate_left; try clear_value x) | skip)
    | (with_reducible first | exact Touch.refl | assumption | apply Touch.puti)
    | decide +kernel
    | (with_reducible apply Touch.upd) <;> first | (intro p; cases p <;> dsimp only [Part.same] <;> first | exact Or.inl (by decide +kernel) | exact Or.inr rfl) | (with_reducible first | exact Touch.refl | assumption | apply Touch.puti) | split
    | split
    | (intro _; intros)
    | (clear_value *; split)

theorem Chip.cmdFreeze_touch (c : Chip) (d : CqDesc) : Touch 0x143011c 0x180000000000000000000000180310000000000022000000000000050004 c (Chip.cmdFreeze c d) := by
  unfold Chip.cmdFreeze
  repeat' first
    | (fail_if_no_progress extract_lets +onlyGivenNames x; first | (revert x; intro (x : Chip); refine Touch.cut (d := x) ?_ (fun hx => ?_); subst x; rotate_left; try clear_value x) | (revert x; intro (x : Chip × _); refine Touch.cut (d := x.1) ?_ (fun hx => ?_); subst x; rotate_left; try clear_value x) | skip)
    | (with_reducible first | exact Touch.refl | assumption | apply Chip.cmd_touch | apply Touch.step (Chip.freeze1_touch ..) | apply Touch.step (Chip.hankFrozen_touch ..))
    | decide +kernel
    | split
    | (intro _; intros)
    | (clear_value *; split)

theorem Chip.destroyBob_touch (c : Chip) (id : Nat) : Touch 0x101010c 0x180000000000000000000000088000000000000000000000000000000004 c (Chip.destroyBob c id) := by
  unfold Chip.destroyBob
  repeat' first
    | (fail_if_no_progress extract_lets +onlyGivenNames x; first | (revert x; intro (x : Chip); refine Touch.cut (d := x) ?_ (fun hx => ?_); subst x; rotate_left; try clear_value x) | (revert x; intro (x : Chip × _); refine Touch.cut (d := x.1) ?_ (fun hx => ?_); subst x; rotate_left; try clear_value x) | skip)
    | (with_reducible first | exact Touch.refl | assumption | apply Touch.step (Chip.cacheDrop_touch ..) | apply Touch.step (Chip.cu_touch ..) | apply Touch.step (Chip.freezeFrame_touch ..) | apply Touch.step (Chip.limitSum_touch ..) | apply Touch.step (Chip.noilTrans_touch ..))
    | decide +kernel
    | split
    | (intro _; intros)
    | (clear_value *; split)

theorem Chip.cmdDestroy_touch (c : Chip) (d : CqDesc) : Touch 0x101010c 0x180000000000000000000000088310000000000000000000000000050004 c (Chip.cmdDestroy c d) := by
  unfold Chip.cmdDestroy
  repeat' first
    | (fail_if_no_progress extract_lets +onlyGivenNames x; first | (revert x; intro (x : Chip); refine Touch.cut (d := x) ?_ (fun hx => ?_); subst x; rotate_left; try clear_value x) | (revert x; intro (x : Chip × _); refine Touch.cut (d := x.1) ?_ (fun hx => ?_); subst x; rotate_left; try clear_value x) | skip)
    | (with_reducible first | exact Touch.refl | assumption | apply Chip.cmd_touch | apply Touch.step (Chip.destroyBob_touch ..))
    | decide +kernel
    | split
    | (intro _; intros)
    | (clear_value *; split)

theorem Chip.resumeBob_touch (c : Chip) (id epoch : Nat) : Touch 0x101013c 0x180000000000000000000000088000000000000000000000000000000004 c (Chip.resumeBob c id epoch) := by
  unfold Chip.resumeBob
  repeat' first
    | (fail_if_no_progress extract_lets +onlyGivenNames x; first | (revert x; intro (x : Chip); refine Touch.cut (d := x) ?_ (fun hx => ?_); subst x; rotate_left; try clear_value x) | (revert x; intro (x : Chip × _); refine Touch.cut (d := x.1) ?_ (fun hx => ?_); subst x; rotate_left; try clear_value x) | skip)
    | (with_reducible first | exact Touch.refl | assumption | apply Touch.step (Chip.blobWrite_touch ..) | apply Touch.step (Chip.bobMod_touch ..) | apply Touch.step (Chip.cacheDrop_touch ..) | apply Touch.step (Chip.derive_touch ..) | apply Touch.step (Chip.freezeFrame_touch ..) | apply Touch.step (Chip.limitSum_touch ..) | apply Touch.step (Chip.pushStale_touch ..) | apply Touch.step (Chip.warpDesc_touch ..))
    | decide +kernel
    | split
    | (intro _; intros)
    | (clear_value *; split)

theorem Chip.resume1_touch (d : CqDesc) (c : Chip) (id : Nat) : Touch 0x101093c 0x180000000000000000000000088080000000000000000000000000000004 c (Chip.resume1 d c id).1 := by
  unfold Chip.resume1
  repeat' first
    | (fail_if_no_progress extract_lets +onlyGivenNames x; first | (revert x; intro (x : Chip); refine Touch.cut (d := x) ?_ (fun hx => ?_); subst x; rotate_left; try clear_value x) | (revert x; intro (x : Chip × _); refine Touch.cut (d := x.1) ?_ (fun hx => ?_); subst x; rotate_left; try clear_value x) | skip)
    | (with_reducible first | exact Touch.refl | assumption | apply Touch.step (Chip.reenc_touch ..) | apply Touch.step (Chip.resumeBob_touch ..))
    | decide +kernel
    | split
    | (intro _; intros)
    | (clear_value *; split)

theorem Chip.cmdResume_touch (c : Chip) (d : CqDesc) : Touch 0x101093c 0x180000000000000000000000088390000000000000000000000000050004 c (Chip.cmdResume c d) := by
  unfold Chip.cmdResume
  repeat' first
    | (with_reducible first | exact Touch.refl | assumption | apply Chip.cmd_touch | apply Touch.step (Chip.resume1_touch ..))
    | decide +kernel
    | split
    | (intro _; intros)
    | (clear_value *; split)

theorem Chip.historic1_touch (d : CqDesc) (c : Chip) (id : Nat) : Touch 0x105010e 0x180000000000000000000004000000000000000000000000000000000004 c (Chip.historic1 d c id).1 := by
  unfold Chip.historic1
  repeat' first
    | (fail_if_no_progress extract_lets +onlyGivenNames x; first | (revert x; intro (x : Chip); refine Touch.cut (d := x) ?_ (fun hx => ?_); subst x; rotate_left; try clear_value x) | (revert x; intro (x : Chip × _); refine Touch.cut (d := x.1) ?_ (fun hx => ?_); subst x; rotate_left; try clear_value x) | skip)
    | (with_reducible first | exact Touch.refl | assumption | apply Touch.step (Chip.derive_touch ..) | apply Touch.step (Chip.warpKey_touch ..))
    | decide +kernel
    | split
    | (intro _; intros)
    | (clear_value *; split)

theorem Chip.cmdHistoric_touch (c : Chip) (d : CqDesc) : Touch 0x105010e 0x180000000000000000000004000310000000000000000000000000050004 c (Chip.cmdHistoric c d) := by
  unfold Chip.cmdHistoric
  repeat' first
    | (with_reducible first | exact Touch.refl | assumption | apply Chip.cmd_touch | apply Touch.step (Chip.historic1_touch ..))
    | decide +kernel
    | split
    | (intro _; intros)
    | (clear_value *; split)

theorem Chip.cmdRead_touch (c : Chip) (d : CqDesc) : Touch 0x1010908 0x180000000000000000000000000310000000000000000000000000050004 c (Chip.cmdRead c d) := by
  unfold Chip.cmdRead
  repeat' first
    | (fail_if_no_progress extract_lets +onlyGivenNames x; first | (revert x; intro (x : Chip); refine Touch.cut (d := x) ?_ (fun hx => ?_); subst x; rotate_left; try clear_value x) | (revert x; intro (x : Chip × _); refine Touch.cut (d := x.1) ?_ (fun hx => ?_); subst x; rotate_left; try clear_value x) | skip)
    | (with_reducible first | exact Touch.refl | assumption | apply Chip.cmd_touch | apply Touch.step (Chip.spnWr_touch ..))
    | decide +kernel
    | split
    | (intro _; intros)
    | (clear_value *; split)

theorem Chip.cmdFence_touch (c : Chip) (d : CqDesc) : Touch 0x10108 0x180000000000000000000000000010000000000000000000000000000004 c (Chip.cmdFence c d) := by
  unfold Chip.cmdFence
  repeat' first
    | (with_reducible first | exact Touch.refl | assumption | apply Touch.step (Chip.cu_touch ..))
    | decide +kernel
    | exact Touch.step (Chip.cmdTake_touch _ _ _ _ ‹_›) (by decide +kernel) (by decide +kernel) (by first | exact Touch.refl | assumption)
    | split
    | (intro _; intros)
    | (clear_value *; split)

end Sys2Proof.Machine
end

