-- ==== Sys2Proof/Laws/TouchCustodyEv.lean ====
section
/-! SUPPORT. What each function of Machine/CustodyEv.lean can change: the two masks of `Touch` (Laws/Touch.lean), parts and banks of registers. -/

set_option linter.unreachableTactic false
set_option linter.unusedTactic false
set_option linter.tactic.unusedName false
set_option linter.unnecessarySeqFocus false
set_option linter.unusedVariables false
set_option Elab.async false

namespace Sys2Proof.Machine

theorem Chip.loadAnswer_touch (c : Chip) (ch : Nat) (f : WarpFrame) (st : Status) : Touch 0x107093e 0x180000000000000000000004080080000000000020000000000000000004 c (Chip.loadAnswer c ch f st) := by
  unfold Chip.loadAnswer
  repeat' first
    | (with_reducible first | exact Touch.refl | assumption | apply Touch.step (Chip.cmdPart_touch ..) | apply Touch.step (Chip.enabled_touch ..) | apply Touch.step (Chip.firstKey_touch ..) | apply Touch.step (Chip.targetDone_touch ..))
    | decide +kernel
    | split
    | (intro _; intros)
    | (clear_value *; split)

theorem Chip.reenc_touch (c : Chip) (id : Nat) (b : Bob) (st : Status) (epoch : Nat) : Touch 0x1090c 0x180000000000000000000000000080000000000000000000000000000004 c (Chip.reenc c id b st epoch) := by
  unfold Chip.reenc
  repeat' first
    | (with_reducible first | exact Touch.refl | assumption | apply Touch.step (Chip.log_touch ..) | apply Touch.step (Chip.notice_touch ..))
    | decide +kernel
    | split
    | (intro _; intros)
    | (clear_value *; split)

theorem Chip.cancelSettled_touch (c : Chip) (id : Nat) : Touch 0x20000 0x0 c (Chip.cancelSettled c id) := by
  unfold Chip.cancelSettled
  repeat' first
    | (with_reducible first | exact Touch.refl | assumption)
    | decide +kernel
    | (with_reducible apply Touch.upd) <;> first | (intro p; cases p <;> dsimp only [Part.same] <;> first | exact Or.inl (by decide +kernel) | exact Or.inr rfl) | (with_reducible first | exact Touch.refl | assumption) | split
    | split
    | (intro _; intros)
    | (clear_value *; split)

theorem Chip.retireSettled_touch (c : Chip) (id : Nat) : Touch 0x20108 0x180000000000000000000000000000000000000000000000000000000004 c (Chip.retireSettled c id) := by
  unfold Chip.retireSettled
  repeat' first
    | (with_reducible first | exact Touch.refl | assumption | apply Touch.step (Chip.retireDone_touch ..))
    | decide +kernel
    | split
    | (intro _; intros)
    | (clear_value *; split)

theorem Chip.warpAnswer_touch (c : Chip) (ch : Nat) (f : WarpFrame) (st : Status) : Touch 0x107093e 0x180000000000000000000004080080000000000020000000000000000004 c (Chip.warpAnswer c ch f st) := by
  unfold Chip.warpAnswer
  repeat' first
    | (fail_if_no_progress extract_lets +onlyGivenNames x; first | (revert x; intro (x : Chip); refine Touch.cut (d := x) ?_ (fun hx => ?_); subst x; rotate_left; try clear_value x) | (revert x; intro (x : Chip × _); refine Touch.cut (d := x.1) ?_ (fun hx => ?_); subst x; rotate_left; try clear_value x) | skip)
    | (with_reducible first | exact Touch.refl | assumption | apply Touch.step (Chip.bobMod_touch ..) | apply Touch.step (Chip.cancelSettled_touch ..) | apply Touch.step (Chip.cu_touch ..) | apply Touch.step (Chip.loadAnswer_touch ..) | apply Touch.step (Chip.reenc_touch ..) | apply Touch.step (Chip.retireSettled_touch ..))
    | decide +kernel
    | split
    | (intro _; intros)
    | (clear_value *; split)

theorem Chip.chFail_touch (c : Chip) (ch : Nat) : Touch 0x30108 0x180000000000000000000000002000000000000020000000000000000004 c (Chip.chFail c ch) := by
  unfold Chip.chFail
  repeat' first
    | (fail_if_no_progress extract_lets +onlyGivenNames x; first | (revert x; intro (x : Chip); refine Touch.cut (d := x) ?_ (fun hx => ?_); subst x; rotate_left; try clear_value x) | (revert x; intro (x : Chip × _); refine Touch.cut (d := x.1) ?_ (fun hx => ?_); subst x; rotate_left; try clear_value x) | skip)
    | (with_reducible first | exact Touch.refl | assumption | apply Touch.each | apply Touch.step (Chip.cancelSettled_touch ..) | apply Touch.step (Chip.chPut_touch ..) | apply Touch.step (Chip.unconfirmed_touch ..))
    | decide +kernel
    | split
    | (intro _; intros)
    | (clear_value *; split)

theorem Chip.logBob_touch (c : Chip) (code id epoch : Nat) (st : Status) (last : Nat) : Touch 0x108 0x180000000000000000000000000000000000000000000000000000000004 c (Chip.logBob c code id epoch st last) := by
  unfold Chip.logBob
  repeat' first
    | (with_reducible first | exact Touch.refl | assumption | apply Touch.step (Chip.log_touch ..))
    | decide +kernel
    | split
    | (intro _; intros)
    | (clear_value *; split)

theorem Chip.warpSilent_touch (c : Chip) (ch : Nat) (f : WarpFrame) : Touch 0x107093e 0x180000000000000000000004082080000000000020000000000000000004 c (Chip.warpSilent c ch f) := by
  unfold Chip.warpSilent
  repeat' first
    | (fail_if_no_progress extract_lets +onlyGivenNames x; first | (revert x; intro (x : Chip); refine Touch.cut (d := x) ?_ (fun hx => ?_); subst x; rotate_left; try clear_value x) | (revert x; intro (x : Chip × _); refine Touch.cut (d := x.1) ?_ (fun hx => ?_); subst x; rotate_left; try clear_value x) | clear_value x | skip)
    | (with_reducible first | exact Touch.refl | assumption | apply Touch.step (Chip.cancelSettled_touch ..) | apply Touch.step (Chip.chFail_touch ..) | apply Touch.step (Chip.chPut_touch ..) | apply Touch.step (Chip.cu_touch ..) | apply Touch.step (Chip.loadAnswer_touch ..) | apply Touch.step (Chip.logBob_touch ..) | apply Touch.step (Chip.retireSettled_touch ..) | apply Touch.step (Chip.unconfirmed_touch ..))
    | decide +kernel
    | split
    | (intro _; intros)
    | (clear_value *; split)

theorem Chip.warpNext_touch (c : Chip) (ch : Nat) : Touch 0x10104 0x0 c (Chip.warpNext c ch) := by
  unfold Chip.warpNext
  repeat' first
    | (with_reducible first | exact Touch.refl | assumption | apply Touch.step (Chip.cu_touch ..) | apply Touch.step (Chip.warpPut_touch ..))
    | decide +kernel
    | split
    | (intro _; intros)
    | (clear_value *; split)

theorem Chip.warpTake_touch (c : Chip) (ch : Nat) (q : WarpFrame → Bool) (p : WarpWait × Chip) (h : c.warpTake ch q = some p) :
    Touch 0x10104 0x0 c p.2 := by
  unfold Chip.warpTake at h
  extract_lets at h
  split at h
  · cases h
  · cases h
    exact Touch.step (Chip.warpNext_touch ..) (by decide +kernel) (by decide +kernel) (Touch.step (Chip.cu_touch ..) (by decide +kernel) (by decide +kernel) Touch.refl)

theorem Chip.relayBack_touch (c : Chip) (ch : Nat) (f : WarpFrame) : Touch 0x100010c 0x180000000000000000000000000000000000000000000000000000000004 c (Chip.relayBack c ch f) := by
  unfold Chip.relayBack
  repeat' first
    | (with_reducible first | exact Touch.refl | assumption | apply Touch.step (Chip.plySend_touch ..))
    | decide +kernel
    | split
    | (intro _; intros)
    | (clear_value *; split)

theorem Chip.warpBad_touch (c : Chip) (ch : Nat) : Touch 0x107093e 0x180000000000000000000004082080000000000020000000000000000004 c (Chip.warpBad c ch) := by
  unfold Chip.warpBad
  repeat' first
    | (fail_if_no_progress extract_lets +onlyGivenNames x; first | (revert x; intro (x : Chip); refine Touch.cut (d := x) ?_ (fun hx => ?_); subst x; rotate_left; try clear_value x) | (revert x; intro (x : Chip × _); refine Touch.cut (d := x.1) ?_ (fun hx => ?_); subst x; rotate_left; try clear_value x) | skip)
    | (with_reducible first | exact Touch.refl | assumption | apply Touch.step (Chip.cu_touch ..) | apply Touch.step (Chip.log_touch ..) | apply Touch.step (Chip.relayBack_touch ..) | apply Touch.step (Chip.send_touch ..) | apply Touch.step (Chip.warpAnswer_touch ..) | apply Touch.step (Chip.warpNext_touch ..) | apply Touch.step (Chip.warpSilent_touch ..))
    | decide +kernel
    | split
    | (intro _; intros)
    | (clear_value *; split)

theorem Chip.warpReply_touch (c : Chip) (ch : Nat) (f : WarpFrame) : Touch 0x107093e 0x180000000000000000000004082080000000000020000000000000000004 c (Chip.warpReply c ch f) := by
  unfold Chip.warpReply
  repeat' first
    | (with_reducible first | exact Touch.refl | assumption | apply Touch.step (Chip.relayBack_touch ..) | apply Touch.step (Chip.warpAnswer_touch ..) | apply Touch.step (Chip.warpBad_touch ..))
    | decide +kernel
    | exact Touch.step (Chip.warpTake_touch _ _ _ _ ‹_›) (by decide +kernel) (by decide +kernel) (by first | exact Touch.refl | assumption)
    | split
    | (intro _; intros)
    | (clear_value *; split)

theorem Chip.warpLate_touch (c : Chip) (ch : Nat) : Touch 0x107093e 0x180000000000000000000004082080000000000020000000000000000004 c (Chip.warpLate c ch) := by
  unfold Chip.warpLate
  repeat' first
    | (fail_if_no_progress extract_lets +onlyGivenNames x; first | (revert x; intro (x : Chip); refine Touch.cut (d := x) ?_ (fun hx => ?_); subst x; rotate_left; try clear_value x) | (revert x; intro (x : Chip × _); refine Touch.cut (d := x.1) ?_ (fun hx => ?_); subst x; rotate_left; try clear_value x) | skip)
    | (with_reducible first | exact Touch.refl | assumption | apply Touch.step (Chip.cu_touch ..) | apply Touch.step (Chip.logBob_touch ..) | apply Touch.step (Chip.send_touch ..) | apply Touch.step (Chip.warpNext_touch ..) | apply Touch.step (Chip.warpSilent_touch ..))
    | decide +kernel
    | split
    | (intro _; intros)
    | (clear_value *; split)

theorem Chip.report_touch {pm bm : Nat} {a : Chip} (c : Chip) (ch : Nat) (f : WarpFrame) (act : Chip → Nat → WarpFrame → Chip) (hp : sub 0x100010c pm = true) (hb : sub 0x180000000000000000000000000000000000000000000000000000000004 bm = true)
    (h_act : ∀ d x1 x2, Touch pm bm a d → Touch pm bm a (act d x1 x2))
    (hT : Touch pm bm a c) : Touch pm bm a (Chip.report c ch f act) := by
  unfold Chip.report
  repeat' first
    | (with_reducible first | exact Touch.refl | assumption | apply Touch.step (Chip.relayBack_touch ..) | apply h_act)
    | exact sub_trans (by decide +kernel) hp
    | exact sub_trans (by decide +kernel) hb
    | exact hasField_sub hb (by decide +kernel)
    | (with_reducible apply Touch.upd) <;> first | (intro p; cases p <;> dsimp only [Part.same] <;> first | exact Or.inl (sub_bit hp (by decide +kernel)) | exact Or.inr rfl) | (with_reducible first | exact Touch.refl | assumption | apply Touch.step (Chip.relayBack_touch ..) | apply h_act) | split
    | split
    | (intro _; intros)
    | (clear_value *; split)

theorem Chip.reportOnce_touch {pm bm : Nat} {a : Chip} (c : Chip) (ch : Nat) (f : WarpFrame) (act : Chip → Chip) (hp : sub 0x10000 pm = true) (hb : sub 0x0 bm = true)
    (h_act : ∀ d, Touch pm bm a d → Touch pm bm a (act d))
    (hT : Touch pm bm a c) : Touch pm bm a (Chip.reportOnce c ch f act) := by
  unfold Chip.reportOnce
  repeat' first
    | (fail_if_no_progress extract_lets +onlyGivenNames x; first | (revert x; intro (x : Chip); refine Touch.cut (d := x) ?_ (fun hx => ?_); subst x; rotate_left; try clear_value x) | (revert x; intro (x : Chip × _); refine Touch.cut (d := x.1) ?_ (fun hx => ?_); subst x; rotate_left; try clear_value x) | skip)
    | (with_reducible first | exact Touch.refl | assumption | apply Touch.step (Chip.cu_touch ..) | apply h_act)
    | exact sub_trans (by decide +kernel) hp
    | exact sub_trans (by decide +kernel) hb
    | exact hasField_sub hb (by decide +kernel)
    | split
    | (intro _; intros)
    | (clear_value *; split)

theorem Chip.limitHit_touch (c : Chip) (id epoch : Nat) : Touch 0x10108 0x180000000000000000000000008300000000000000000000000000000004 c (Chip.limitHit c id epoch) := by
  unfold Chip.limitHit
  repeat' first
    | (fail_if_no_progress extract_lets +onlyGivenNames x; first | (revert x; intro (x : Chip); refine Touch.cut (d := x) ?_ (fun hx => ?_); subst x; rotate_left; try clear_value x) | (revert x; intro (x : Chip × _); refine Touch.cut (d := x.1) ?_ (fun hx => ?_); subst x; rotate_left; try clear_value x) | skip)
    | (with_reducible first | exact Touch.refl | assumption | apply Touch.step (Chip.bobMod_touch ..) | apply Touch.step (Chip.jWrite_touch ..) | apply Touch.step (Chip.limitSum_touch ..) | apply Touch.step (Chip.logBob_touch ..))
    | decide +kernel
    | split
    | (intro _; intros)
    | (clear_value *; split)

theorem Chip.keyGive_touch (c : Chip) (q : KeyReq) (b : Bob) (epoch : Nat) (st : Status) (flags : Nat) (blobNames : Bool) : Touch 0x205013e 0x180000000000000000000004080000000000000000000000000000050004 c (Chip.keyGive c q b epoch st flags blobNames) := by
  unfold Chip.keyGive
  repeat' first
    | (fail_if_no_progress extract_lets +onlyGivenNames x; first | (revert x; intro (x : Chip); refine Touch.cut (d := x) ?_ (fun hx => ?_); subst x; rotate_left; try clear_value x) | (revert x; intro (x : Chip × _); refine Touch.cut (d := x.1) ?_ (fun hx => ?_); subst x; rotate_left; try clear_value x) | skip)
    | (with_reducible first | exact Touch.refl | assumption | apply Touch.step (Chip.blobWrite_touch ..) | apply Touch.step (Chip.cachePut_touch ..) | apply Touch.step (Chip.cacheTouch_touch ..) | apply Touch.step (Chip.count_touch ..) | apply Touch.step (Chip.cu_touch ..) | apply Touch.step (Chip.derive_touch ..) | apply Touch.step (Chip.grpsReady_touch ..) | apply Touch.step (Chip.keyReply_touch ..) | apply Touch.step (Chip.portReq_touch ..))
    | decide +kernel
    | split
    | (intro _; intros)
    | (clear_value *; split)

theorem Chip.keyServe_touch (c : Chip) (q : KeyReq) : Touch 0x205013e 0x180000000000000000000004080000000000000000000000000000050004 c (Chip.keyServe c q) := by
  unfold Chip.keyServe
  repeat' first
    | (fail_if_no_progress extract_lets +onlyGivenNames x; first | (revert x; intro (x : Chip); refine Touch.cut (d := x) ?_ (fun hx => ?_); subst x; rotate_left; try clear_value x) | (revert x; intro (x : Chip × _); refine Touch.cut (d := x.1) ?_ (fun hx => ?_); subst x; rotate_left; try clear_value x) | skip)
    | (with_reducible first | exact Touch.refl | assumption | apply Touch.step (Chip.cu_touch ..) | apply Touch.step (Chip.grpsReady_touch ..) | apply Touch.step (Chip.keyGive_touch ..) | apply Touch.step (Chip.keyReply_touch ..) | apply Touch.step (Chip.log_touch ..) | apply Touch.step (Chip.logOnce_touch ..))
    | decide +kernel
    | split
    | (intro _; intros)
    | (clear_value *; split)

theorem Chip.keyRetry_touch (c : Chip) : Touch 0x205013e 0x180000000000000000000004080000000000000000000000000000050004 c (Chip.keyRetry c) := by
  unfold Chip.keyRetry
  repeat' first
    | (fail_if_no_progress extract_lets +onlyGivenNames x; first | (revert x; intro (x : Chip); refine Touch.cut (d := x) ?_ (fun hx => ?_); subst x; rotate_left; try clear_value x) | (revert x; intro (x : Chip × _); refine Touch.cut (d := x.1) ?_ (fun hx => ?_); subst x; rotate_left; try clear_value x) | skip)
    | (with_reducible first | exact Touch.refl | assumption | apply Touch.each | apply Touch.step (Chip.cu_touch ..) | apply Touch.step (Chip.keyServe_touch ..))
    | decide +kernel
    | split
    | (intro _; intros)
    | (clear_value *; split)

theorem Chip.blobHold_touch (c : Chip) (id epoch : Nat) (key : List Byte) : Touch 0x50102 0x4000000000000000000000000000000000000 c (Chip.blobHold c id epoch key) := by
  unfold Chip.blobHold
  repeat' first
    | (fail_if_no_progress extract_lets +onlyGivenNames x; first | (revert x; intro (x : Chip); refine Touch.cut (d := x) ?_ (fun hx => ?_); subst x; rotate_left; try clear_value x) | (revert x; intro (x : Chip × _); refine Touch.cut (d := x.1) ?_ (fun hx => ?_); subst x; rotate_left; try clear_value x) | (revert x; intro (x : _ × Chip); refine Touch.cut (d := x.2) ?_ (fun hx => ?_); subst x; rotate_left; try clear_value x) | (revert x; intro (x : _ × _ × Chip); refine Touch.cut (d := x.2.2) ?_ (fun hx => ?_); subst x; rotate_left; try clear_value x) | skip)
    | (with_reducible first | exact Touch.refl | assumption | apply Touch.step (Chip.cu_touch ..) | apply Touch.step (Chip.rnd_touch ..))
    | decide +kernel
    | split
    | (intro _; intros)
    | (clear_value *; split)

theorem Chip.blobLeave_touch (c : Chip) (id epoch : Nat) : Touch 0x10100 0x80000000000000000000000000000000000 c (Chip.blobLeave c id epoch) := by
  unfold Chip.blobLeave
  repeat' first
    | (with_reducible first | exact Touch.refl | assumption | apply Touch.step (Chip.cacheDrop_touch ..))
    | decide +kernel
    | split
    | (intro _; intros)
    | (clear_value *; split)

theorem Chip.loadGo_touch (c : Chip) (id : Nat) (key : Option (List Byte)) (l : Nat × Nat × Option (List Byte)) : Touch 0x105013e 0x180000000000000000000004080000000003000000000000000000000004 c (Chip.loadGo c id key l) := by
  unfold Chip.loadGo
  repeat' first
    | (fail_if_no_progress extract_lets +onlyGivenNames x; first | (revert x; intro (x : Chip); refine Touch.cut (d := x) ?_ (fun hx => ?_); subst x; rotate_left; try clear_value x) | (revert x; intro (x : Chip × _); refine Touch.cut (d := x.1) ?_ (fun hx => ?_); subst x; rotate_left; try clear_value x) | skip)
    | (with_reducible first | exact Touch.refl | assumption | apply Touch.step (Chip.cachePut_touch ..) | apply Touch.step (Chip.cmdPart_touch ..) | apply Touch.step (Chip.deliverNow_touch ..) | apply Touch.step (Chip.mirrorItem_touch ..))
    | decide +kernel
    | split
    | (intro _; intros)
    | (clear_value *; split)

theorem Chip.blobDone_touch (c : Chip) (id : Nat) (bytes : List Byte) : Touch 0x305093e 0x180000000000000000000004080080000003000000000000000000050004 c (Chip.blobDone c id bytes) := by
  unfold Chip.blobDone
  repeat' first
    | (fail_if_no_progress extract_lets +onlyGivenNames x; first | (revert x; intro (x : Chip); refine Touch.cut (d := x) ?_ (fun hx => ?_); subst x; rotate_left; try clear_value x) | (revert x; intro (x : Chip × _); refine Touch.cut (d := x.1) ?_ (fun hx => ?_); subst x; rotate_left; try clear_value x) | clear_value x | skip)
    | (with_reducible first | exact Touch.refl | assumption | apply Touch.each | apply Touch.step (Chip.blobHold_touch ..) | apply Touch.step (Chip.blobLeave_touch ..) | apply Touch.step (Chip.bobMod_touch ..) | apply Touch.step (Chip.cachePut_touch ..) | apply Touch.step (Chip.cu_touch ..) | apply Touch.step (Chip.firstKey_touch ..) | apply Touch.step (Chip.keyServe_touch ..) | apply Touch.step (Chip.loadGo_touch ..) | apply Touch.step (Chip.logBob_touch ..))
    | decide +kernel
    | split
    | (intro _; intros)
    | (clear_value *; split)

theorem Chip.pushAck_touch (c : Chip) (m : Inbox) : Touch 0x103011c 0x180000000000000000000000080000000000000020000000000000000004 c (Chip.pushAck c m) := by
  unfold Chip.pushAck
  repeat' first
    | (fail_if_no_progress extract_lets +onlyGivenNames x; first | (revert x; intro (x : Chip); refine Touch.cut (d := x) ?_ (fun hx => ?_); subst x; rotate_left; try clear_value x) | (revert x; intro (x : Chip × _); refine Touch.cut (d := x.1) ?_ (fun hx => ?_); subst x; rotate_left; try clear_value x) | skip)
    | (with_reducible first | exact Touch.refl | assumption | apply Touch.step (Chip.cu_touch ..) | apply Touch.step (Chip.targetDone_touch ..))
    | decide +kernel
    | (with_reducible apply Touch.upd) <;> first | (intro p; cases p <;> dsimp only [Part.same] <;> first | exact Or.inl (by decide +kernel) | exact Or.inr rfl) | (with_reducible first | exact Touch.refl | assumption | apply Touch.step (Chip.cu_touch ..) | apply Touch.step (Chip.targetDone_touch ..)) | split
    | split
    | (intro _; intros)
    | (clear_value *; split)

theorem Chip.pushLost_touch (c : Chip) (f : RingFrame) : Touch 0x103011c 0x180000000000000000000000080000000000000020000000000000000004 c (Chip.pushLost c f) := by
  unfold Chip.pushLost
  repeat' first
    | (fail_if_no_progress extract_lets +onlyGivenNames x; first | (revert x; intro (x : Chip); refine Touch.cut (d := x) ?_ (fun hx => ?_); subst x; rotate_left; try clear_value x) | (revert x; intro (x : Chip × _); refine Touch.cut (d := x.1) ?_ (fun hx => ?_); subst x; rotate_left; try clear_value x) | skip)
    | (with_reducible first | exact Touch.refl | assumption | apply Touch.step (Chip.cu_touch ..) | apply Touch.step (Chip.targetDone_touch ..))
    | decide +kernel
    | split
    | (intro _; intros)
    | (clear_value *; split)

theorem Chip.dieLeft_touch (c : Chip) (n : Nat) : Touch 0x103011c 0x180000000000000000000000080000000000000020000000000000000004 c (Chip.dieLeft c n) := by
  unfold Chip.dieLeft
  repeat' first
    | (with_reducible first | exact Touch.refl | assumption | apply Touch.each | apply Touch.step (Chip.targetDone_touch ..))
    | decide +kernel
    | split
    | (intro _; intros)
    | (clear_value *; split)

theorem Chip.jProgrammed_touch (c : Chip) (ok : Bool) : Touch 0x1090a 0x180000000000000000000000001c01000000000000000000000000000004 c (Chip.jProgrammed c ok) := by
  unfold Chip.jProgrammed
  repeat' first
    | (fail_if_no_progress extract_lets +onlyGivenNames x; first | (revert x; intro (x : Chip); refine Touch.cut (d := x) ?_ (fun hx => ?_); subst x; rotate_left; try clear_value x) | (revert x; intro (x : Chip × _); refine Touch.cut (d := x.1) ?_ (fun hx => ?_); subst x; rotate_left; try clear_value x) | (revert x; intro (x : _ × Chip); refine Touch.cut (d := x.2) ?_ (fun hx => ?_); subst x; rotate_left; try clear_value x) | (revert x; intro (x : _ × _ × Chip); refine Touch.cut (d := x.2.2) ?_ (fun hx => ?_); subst x; rotate_left; try clear_value x) | skip)
    | (with_reducible first | exact Touch.refl | assumption | apply Touch.add | apply Touch.put | apply Touch.step (Chip.drawBytes_touch ..) | apply Touch.step (Chip.jBurn_touch ..) | apply Touch.step (Chip.jDurable_touch ..) | apply Touch.step (Chip.jr_touch ..) | apply Touch.step (Chip.log_touch ..))
    | decide +kernel
    | split
    | (intro _; intros)
    | (clear_value *; split)

theorem Chip.jErased_touch (c : Chip) : Touch 0x10900 0x1000000000000000000000000000000000 c (Chip.jErased c) := by
  unfold Chip.jErased
  repeat' first
    | (fail_if_no_progress extract_lets +onlyGivenNames x; first | (revert x; intro (x : Chip); refine Touch.cut (d := x) ?_ (fun hx => ?_); subst x; rotate_left; try clear_value x) | (revert x; intro (x : Chip × _); refine Touch.cut (d := x.1) ?_ (fun hx => ?_); subst x; rotate_left; try clear_value x) | skip)
    | (with_reducible first | exact Touch.refl | assumption | apply Touch.put | apply Touch.step (Chip.jr_touch ..) | apply Touch.step (Chip.norErase_touch ..))
    | decide +kernel
    | split
    | (intro _; intros)
    | (clear_value *; split)

theorem Chip.rootZero_touch (c : Chip) (id : Nat) : Touch 0x10100 0x0 c (Chip.rootZero c id) := by
  unfold Chip.rootZero
  repeat' first
    | (with_reducible first | exact Touch.refl | assumption | apply Touch.step (Chip.bobMod_touch ..) | apply Touch.step (Chip.cu_touch ..))
    | decide +kernel
    | split
    | (intro _; intros)
    | (clear_value *; split)

theorem Chip.applyRec_touch (c : Chip) (r : JRec) : Touch 0x10100 0x188000000000000000000000000000000000 c (Chip.applyRec c r) := by
  unfold Chip.applyRec
  repeat' first
    | (fail_if_no_progress extract_lets +onlyGivenNames x; first | (revert x; intro (x : Chip); refine Touch.cut (d := x) ?_ (fun hx => ?_); subst x; rotate_left; try clear_value x) | (revert x; intro (x : Chip × _); refine Touch.cut (d := x.1) ?_ (fun hx => ?_); subst x; rotate_left; try clear_value x) | skip)
    | (with_reducible first | exact Touch.refl | assumption | apply Touch.each | apply Touch.puti | apply Touch.step (Chip.bobMod_touch ..) | apply Touch.step (Chip.cacheDrop_touch ..) | apply Touch.step (Chip.cu_touch ..) | apply Touch.step (Chip.jName_touch ..) | apply Touch.step (Chip.limitSum_touch ..) | apply Touch.step (Chip.rootZero_touch ..))
    | decide +kernel
    | split
    | (intro _; intros)
    | (clear_value *; split)

theorem Chip.jRebuild_touch (c : Chip) (id : Nat) : Touch 0x10100 0x188000000000000000000000000000000000 c (Chip.jRebuild c id) := by
  unfold Chip.jRebuild
  repeat' first
    | (fail_if_no_progress extract_lets +onlyGivenNames x; first | (revert x; intro (x : Chip); refine Touch.cut (d := x) ?_ (fun hx => ?_); subst x; rotate_left; try clear_value x) | (revert x; intro (x : Chip × _); refine Touch.cut (d := x.1) ?_ (fun hx => ?_); subst x; rotate_left; try clear_value x) | skip)
    | (with_reducible first | exact Touch.refl | assumption | apply Touch.each | apply Touch.step (Chip.applyRec_touch ..) | apply Touch.step (Chip.bobMod_touch ..) | apply Touch.step (Chip.cu_touch ..))
    | decide +kernel
    | split
    | (intro _; intros)
    | (clear_value *; split)

theorem Chip.partnerRec_touch (c : Chip) (id : Nat) : Touch 0x103011c 0x180000000000000000000000080000000000000020000000000000000004 c (Chip.partnerRec c id) := by
  unfold Chip.partnerRec
  repeat' first
    | (with_reducible first | exact Touch.refl | assumption | apply Touch.step (Chip.cmdPart_touch ..) | apply Touch.step (Chip.discard_touch ..))
    | decide +kernel
    | split
    | (intro _; intros)
    | (clear_value *; split)

theorem Chip.repairDone_touch (c : Chip) : Touch 0x103011c 0x180000000000000000000000188000000000000020000000000000000004 c (Chip.repairDone c) := by
  unfold Chip.repairDone
  repeat' first
    | (fail_if_no_progress extract_lets +onlyGivenNames x; first | (revert x; intro (x : Chip); refine Touch.cut (d := x) ?_ (fun hx => ?_); subst x; rotate_left; try clear_value x) | (revert x; intro (x : Chip × _); refine Touch.cut (d := x.1) ?_ (fun hx => ?_); subst x; rotate_left; try clear_value x) | skip)
    | (with_reducible first | exact Touch.refl | assumption | apply Touch.each | apply Touch.step (Chip.cu_touch ..) | apply Touch.step (Chip.jRebuild_touch ..) | apply Touch.step (Chip.partnerRec_touch ..))
    | decide +kernel
    | split
    | (intro _; intros)
    | (clear_value *; split)

theorem Chip.deadlineNear_touch (c : Chip) (id : Nat) : Touch 0x1090c 0x180000000000000000000000000080000000000000000000000000000004 c (Chip.deadlineNear c id) := by
  unfold Chip.deadlineNear
  repeat' first
    | (fail_if_no_progress extract_lets +onlyGivenNames x; first | (revert x; intro (x : Chip); refine Touch.cut (d := x) ?_ (fun hx => ?_); subst x; rotate_left; try clear_value x) | (revert x; intro (x : Chip × _); refine Touch.cut (d := x.1) ?_ (fun hx => ?_); subst x; rotate_left; try clear_value x) | skip)
    | (with_reducible first | exact Touch.refl | assumption | apply Touch.step (Chip.bobMod_touch ..) | apply Touch.step (Chip.logBob_touch ..) | apply Touch.step (Chip.notice_touch ..))
    | decide +kernel
    | split
    | (intro _; intros)
    | (clear_value *; split)

theorem Chip.deadlinePast_touch (c : Chip) (id : Nat) : Touch 0x1090c 0x180000000000000000000000000080000000000000000000000000000004 c (Chip.deadlinePast c id) := by
  unfold Chip.deadlinePast
  repeat' first
    | (with_reducible first | exact Touch.refl | assumption | apply Touch.step (Chip.bobMod_touch ..) | apply Touch.step (Chip.logBob_touch ..) | apply Touch.step (Chip.notice_touch ..))
    | decide +kernel
    | split
    | (intro _; intros)
    | (clear_value *; split)

end Sys2Proof.Machine
end

