-- ==== Sys2Proof/Laws/TouchTwistOps.lean ====
section
/-! SUPPORT. What each function of Machine/TwistOps.lean can change: the two masks of `Touch` (Laws/Touch.lean), parts and banks of registers. -/

set_option linter.unreachableTactic false
set_option linter.unusedTactic false
set_option linter.tactic.unusedName false
set_option linter.unnecessarySeqFocus false
set_option linter.unusedVariables false
set_option Elab.async false

namespace Sys2Proof.Machine

theorem Chip.twMod_touch (c : Chip) (h : Nat) (f : Twist → Twist) : Touch 0x800000 0x0 c (Chip.twMod c h f) := by
  unfold Chip.twMod
  repeat' first
    | (with_reducible first | exact Touch.refl | assumption)
    | decide +kernel
    | (with_reducible apply Touch.upd) <;> first | (intro p; cases p <;> dsimp only [Part.same] <;> first | exact Or.inl (by decide +kernel) | exact Or.inr rfl) | (with_reducible first | exact Touch.refl | assumption) | split
    | split
    | (intro _; intros)
    | (clear_value *; split)

theorem Chip.twSet_touch (c : Chip) (h st : Nat) : Touch 0x100 0x800000000000000000000000000000000000000000 c (Chip.twSet c h st) := by
  unfold Chip.twSet
  repeat' first
    | (with_reducible first | exact Touch.refl | assumption | apply Touch.puti | apply Touch.step (Chip.noilTrans_touch ..))
    | decide +kernel
    | split
    | (intro _; intros)
    | (clear_value *; split)

theorem Chip.twStepMod_touch (c : Chip) (h : Nat) (f : TwStep → TwStep) : Touch 0x800000 0x0 c (Chip.twStepMod c h f) := by
  unfold Chip.twStepMod
  repeat' first
    | (with_reducible first | exact Touch.refl | assumption | apply Touch.step (Chip.twMod_touch ..))
    | decide +kernel
    | split
    | (intro _; intros)
    | (clear_value *; split)

theorem Chip.twPending_touch (c : Chip) (h : Nat) : Touch 0x100 0x800000000000000000000000000000000000000000 c (Chip.twPending c h) := by
  unfold Chip.twPending
  repeat' first
    | (with_reducible first | exact Touch.refl | assumption | apply Touch.puti)
    | decide +kernel
    | split
    | (intro _; intros)
    | (clear_value *; split)

theorem Chip.twLog_touch (c : Chip) (code h die strand step cause count num : Nat) : Touch 0x108 0x180000000000000000000000000000000000000000000000000000000004 c (Chip.twLog c code h die strand step cause count num) := by
  unfold Chip.twLog
  repeat' first
    | (with_reducible first | exact Touch.refl | assumption | apply Touch.step (Chip.log_touch ..))
    | decide +kernel
    | split
    | (intro _; intros)
    | (clear_value *; split)

theorem Chip.twTake_touch (c : Chip) (src : Nat) (r : List Byte) : Touch 0x800108 0x180000000000000000200000000000000000000000000000000000000004 c (Chip.twTake c src r).1 := by
  unfold Chip.twTake
  repeat' first
    | (fail_if_no_progress extract_lets +onlyGivenNames x; first | (revert x; intro (x : Chip); refine Touch.cut (d := x) ?_ (fun hx => ?_); subst x; rotate_left; try clear_value x) | (revert x; intro (x : Chip × _); refine Touch.cut (d := x.1) ?_ (fun hx => ?_); subst x; rotate_left; try clear_value x) | skip)
    | (with_reducible first | exact Touch.refl | assumption | apply Touch.add | apply Touch.step (Chip.count_touch ..) | apply Touch.step (Chip.logOnce_touch ..) | apply Touch.step (Chip.twLog_touch ..))
    | decide +kernel
    | (with_reducible apply Touch.upd) <;> first | (intro p; cases p <;> dsimp only [Part.same] <;> first | exact Or.inl (by decide +kernel) | exact Or.inr rfl) | (with_reducible first | exact Touch.refl | assumption | apply Touch.add | apply Touch.step (Chip.count_touch ..) | apply Touch.step (Chip.logOnce_touch ..) | apply Touch.step (Chip.twLog_touch ..)) | split
    | split
    | (intro _; intros)
    | (clear_value *; split)

theorem Chip.twIntake_touch (c : Chip) (q : List (Bool × List Byte)) : Touch 0x800100 0x100000000000000000000000000000000000000000 c (Chip.twIntake c q) := by
  unfold Chip.twIntake
  repeat' first
    | (with_reducible first | exact Touch.refl | assumption | apply Touch.put)
    | decide +kernel
    | (with_reducible apply Touch.upd) <;> first | (intro p; cases p <;> dsimp only [Part.same] <;> first | exact Or.inl (by decide +kernel) | exact Or.inr rfl) | (with_reducible first | exact Touch.refl | assumption | apply Touch.put) | split
    | split
    | (intro _; intros)
    | (clear_value *; split)

theorem Chip.twBatch_touch (c : Chip) (m : Inbox) : Touch 0x180011c 0x180000000000000000300000000000000003000000000000000000000004 c (Chip.twBatch c m) := by
  unfold Chip.twBatch
  repeat' first
    | (fail_if_no_progress extract_lets +onlyGivenNames x; first | (revert x; intro (x : Chip); refine Touch.cut (d := x) ?_ (fun hx => ?_); subst x; rotate_left; try clear_value x) | (revert x; intro (x : Chip × _); refine Touch.cut (d := x.1) ?_ (fun hx => ?_); subst x; rotate_left; try clear_value x) | skip)
    | (with_reducible first | exact Touch.refl | assumption | apply Touch.foldl | apply Touch.foldl_fst | apply Touch.step (Chip.count_touch ..) | apply Touch.step (Chip.logOnce_touch ..) | apply Touch.step (Chip.mirrorThen_touch ..) | apply Touch.step (Chip.ringSend_touch ..) | apply Touch.step (Chip.twIntake_touch ..) | apply Touch.step (Chip.twLog_touch ..) | apply Touch.step (Chip.twTake_touch ..))
    | decide +kernel
    | (with_reducible apply Touch.upd) <;> first | (intro p; cases p <;> dsimp only [Part.same] <;> first | exact Or.inl (by decide +kernel) | exact Or.inr rfl) | (with_reducible first | exact Touch.refl | assumption | apply Touch.foldl | apply Touch.foldl_fst | apply Touch.step (Chip.count_touch ..) | apply Touch.step (Chip.logOnce_touch ..) | apply Touch.step (Chip.mirrorThen_touch ..) | apply Touch.step (Chip.ringSend_touch ..) | apply Touch.step (Chip.twIntake_touch ..) | apply Touch.step (Chip.twLog_touch ..) | apply Touch.step (Chip.twTake_touch ..)) | split
    | split
    | (intro _; intros)
    | (clear_value *; split)

theorem Chip.twChain_touch (c : Chip) (h : Nat) (r : List Byte) : Touch 0x800124 0x2000000000000000000000000000000000000000000 c (Chip.twChain c h r) := by
  unfold Chip.twChain
  repeat' first
    | (fail_if_no_progress extract_lets +onlyGivenNames x; first | (revert x; intro (x : Chip); refine Touch.cut (d := x) ?_ (fun hx => ?_); subst x; rotate_left; try clear_value x) | (revert x; intro (x : Chip × _); refine Touch.cut (d := x.1) ?_ (fun hx => ?_); subst x; rotate_left; try clear_value x) | skip)
    | (with_reducible first | exact Touch.refl | assumption | apply Touch.puti | apply Touch.step (Chip.count_touch ..) | apply Touch.step (Chip.portReq_touch ..) | apply Touch.step (Chip.twMod_touch ..))
    | decide +kernel
    | split
    | (intro _; intros)
    | (clear_value *; split)

theorem Chip.twSeal_touch (c : Chip) (h : Nat) (again : Bool) : Touch 0x80012c 0x180000000000000003000000000000000000000000000000000000000004 c (Chip.twSeal c h again) := by
  unfold Chip.twSeal
  repeat' first
    | (fail_if_no_progress extract_lets +onlyGivenNames x; first | (revert x; intro (x : Chip); refine Touch.cut (d := x) ?_ (fun hx => ?_); subst x; rotate_left; try clear_value x) | (revert x; intro (x : Chip × _); refine Touch.cut (d := x.1) ?_ (fun hx => ?_); subst x; rotate_left; try clear_value x) | skip)
    | (with_reducible first | exact Touch.refl | assumption | apply Touch.puti | apply Touch.step (Chip.twChain_touch ..) | apply Touch.step (Chip.twLog_touch ..) | apply Touch.step (Chip.twMod_touch ..))
    | decide +kernel
    | split
    | (intro _; intros)
    | (clear_value *; split)

theorem Chip.twFull_touch (c : Chip) (h : Nat) (r : List Byte) : Touch 0x80012c 0x180000000000000003000000000000000000000000000000000000000004 c (Chip.twFull c h r) := by
  unfold Chip.twFull
  repeat' first
    | (fail_if_no_progress extract_lets +onlyGivenNames x; first | (revert x; intro (x : Chip); refine Touch.cut (d := x) ?_ (fun hx => ?_); subst x; rotate_left; try clear_value x) | (revert x; intro (x : Chip × _); refine Touch.cut (d := x.1) ?_ (fun hx => ?_); subst x; rotate_left; try clear_value x) | skip)
    | (with_reducible first | exact Touch.refl | assumption | apply Touch.step (Chip.twChain_touch ..) | apply Touch.step (Chip.twSeal_touch ..))
    | decide +kernel
    | split
    | (intro _; intros)
    | (clear_value *; split)

theorem Chip.twMirror_touch (c : Chip) (h : Nat) : Touch 0x180010c 0x180000000000000000000000000000000003000000000000000000000004 c (Chip.twMirror c h) := by
  unfold Chip.twMirror
  repeat' first
    | (fail_if_no_progress extract_lets +onlyGivenNames x; first | (revert x; intro (x : Chip); refine Touch.cut (d := x) ?_ (fun hx => ?_); subst x; rotate_left; try clear_value x) | (revert x; intro (x : Chip × _); refine Touch.cut (d := x.1) ?_ (fun hx => ?_); subst x; rotate_left; try clear_value x) | skip)
    | (with_reducible first | exact Touch.refl | assumption | apply Touch.step (Chip.mirrorItem_touch ..) | apply Touch.step (Chip.twMod_touch ..))
    | decide +kernel
    | split
    | (intro _; intros)
    | (clear_value *; split)

theorem Chip.twWithhold_touch (c : Chip) (h : Nat) : Touch 0x800100 0x800000000000000000000000000000000000000000 c (Chip.twWithhold c h) := by
  unfold Chip.twWithhold
  repeat' first
    | (with_reducible first | exact Touch.refl | assumption | apply Touch.step (Chip.twMod_touch ..) | apply Touch.step (Chip.twPending_touch ..))
    | decide +kernel
    | split
    | (intro _; intros)
    | (clear_value *; split)

theorem Chip.twFreeze_touch (c : Chip) (h step : Nat) : Touch 0x143011c 0x180000000000000000000000180300000000000022000000000000000004 c (Chip.twFreeze c h step) := by
  unfold Chip.twFreeze
  repeat' first
    | (fail_if_no_progress extract_lets +onlyGivenNames x; first | (revert x; intro (x : Chip); refine Touch.cut (d := x) ?_ (fun hx => ?_); subst x; rotate_left; try clear_value x) | (revert x; intro (x : Chip × _); refine Touch.cut (d := x.1) ?_ (fun hx => ?_); subst x; rotate_left; try clear_value x) | skip)
    | (with_reducible first | exact Touch.refl | assumption | apply Touch.each | apply Touch.step (Chip.freezeBob_touch ..) | apply Touch.step (Chip.hankFrozen_touch ..) | apply Touch.step (Chip.jWrite_touch ..) | apply Touch.step (Chip.push_touch ..))
    | decide +kernel
    | split
    | (intro _; intros)
    | (clear_value *; split)

theorem Chip.twDepart_touch (c : Chip) (h code die step seq : Nat) : Touch 0x1c3013c 0x180000000000000003800000180300000000000022000000000000000004 c (Chip.twDepart c h code die step seq) := by
  unfold Chip.twDepart
  repeat' first
    | (fail_if_no_progress extract_lets +onlyGivenNames x; first | (revert x; intro (x : Chip); refine Touch.cut (d := x) ?_ (fun hx => ?_); subst x; rotate_left; try clear_value x) | (revert x; intro (x : Chip × _); refine Touch.cut (d := x.1) ?_ (fun hx => ?_); subst x; rotate_left; try clear_value x) | skip)
    | (with_reducible first | exact Touch.refl | assumption | apply Touch.puti | apply Touch.step (Chip.twFreeze_touch ..) | apply Touch.step (Chip.twFull_touch ..) | apply Touch.step (Chip.twLog_touch ..) | apply Touch.step (Chip.twSet_touch ..) | apply Touch.step (Chip.twWithhold_touch ..))
    | decide +kernel
    | split
    | (intro _; intros)
    | (clear_value *; split)

theorem Chip.twSeeds_touch (c : Chip) (h s : Nat) : Touch 0x81011c 0x180000000000000000000000000000000000000000000000000000000004 c (Chip.twSeeds c h s) := by
  unfold Chip.twSeeds
  repeat' first
    | (fail_if_no_progress extract_lets +onlyGivenNames x; first | (revert x; intro (x : Chip); refine Touch.cut (d := x) ?_ (fun hx => ?_); subst x; rotate_left; try clear_value x) | (revert x; intro (x : Chip × _); refine Touch.cut (d := x.1) ?_ (fun hx => ?_); subst x; rotate_left; try clear_value x) | skip)
    | (with_reducible first | exact Touch.refl | assumption | apply Touch.each | apply Touch.step (Chip.push_touch ..) | apply Touch.step (Chip.twMod_touch ..))
    | decide +kernel
    | split
    | (intro _; intros)
    | (clear_value *; split)

theorem Chip.twStepRec_touch (c : Chip) (h : Nat) (r : List Byte) : Touch 0x81011c 0x180000000000000000000000000000000000000000000000000000000004 c (Chip.twStepRec c h r) := by
  unfold Chip.twStepRec
  repeat' first
    | (fail_if_no_progress extract_lets +onlyGivenNames x; first | (revert x; intro (x : Chip); refine Touch.cut (d := x) ?_ (fun hx => ?_); subst x; rotate_left; try clear_value x) | (revert x; intro (x : Chip × _); refine Touch.cut (d := x.1) ?_ (fun hx => ?_); subst x; rotate_left; try clear_value x) | skip)
    | (with_reducible first | exact Touch.refl | assumption | apply Touch.step (Chip.countReset_touch ..) | apply Touch.step (Chip.twMod_touch ..) | apply Touch.step (Chip.twSeeds_touch ..) | apply Touch.step (Chip.twStepMod_touch ..))
    | decide +kernel
    | split
    | (intro _; intros)
    | (clear_value *; split)

theorem Chip.twComplete_touch (c : Chip) (h : Nat) : Touch 0x1c3013c 0x18000000000000000f800000180300000000000022000000000000000004 c (Chip.twComplete c h) := by
  unfold Chip.twComplete
  repeat' first
    | (fail_if_no_progress extract_lets +onlyGivenNames x; first | (revert x; intro (x : Chip); refine Touch.cut (d := x) ?_ (fun hx => ?_); subst x; rotate_left; try clear_value x) | (revert x; intro (x : Chip × _); refine Touch.cut (d := x.1) ?_ (fun hx => ?_); subst x; rotate_left; try clear_value x) | skip)
    | (with_reducible first | exact Touch.refl | assumption | apply Touch.put64i | apply Touch.step (Chip.twDepart_touch ..) | apply Touch.step (Chip.twMod_touch ..) | apply Touch.step (Chip.twPending_touch ..) | apply Touch.step (Chip.twStepMod_touch ..))
    | decide +kernel
    | split
    | (intro _; intros)
    | (clear_value *; split)

theorem Chip.twEffect_touch (c : Chip) (h : Nat) : Touch 0x1c3013e 0x180000000000000083800000180300000000000022000000000000000004 c (Chip.twEffect c h) := by
  unfold Chip.twEffect
  repeat' first
    | (fail_if_no_progress extract_lets +onlyGivenNames x; first | (revert x; intro (x : Chip); refine Touch.cut (d := x) ?_ (fun hx => ?_); subst x; rotate_left; try clear_value x) | (revert x; intro (x : Chip × _); refine Touch.cut (d := x.1) ?_ (fun hx => ?_); subst x; rotate_left; try clear_value x) | (revert x; intro (x : _ × Chip); refine Touch.cut (d := x.2) ?_ (fun hx => ?_); subst x; rotate_left; try clear_value x) | (revert x; intro (x : _ × _ × Chip); refine Touch.cut (d := x.2.2) ?_ (fun hx => ?_); subst x; rotate_left; try clear_value x) | skip)
    | (with_reducible first | exact Touch.refl | assumption | apply Touch.each | apply Touch.puti | apply Touch.step (Chip.draw_touch ..) | apply Touch.step (Chip.twDepart_touch ..) | apply Touch.step (Chip.twFull_touch ..) | apply Touch.step (Chip.twLog_touch ..) | apply Touch.step (Chip.twMod_touch ..) | apply Touch.step (Chip.twSeal_touch ..) | apply Touch.step (Chip.twSet_touch ..))
    | decide +kernel
    | split
    | (intro _; intros)
    | (clear_value *; split)

theorem Chip.twWatch_touch (c : Chip) (h : Nat) (r : List Byte) : Touch 0x108 0x180000000000000000000000000000000000000000000000000000000004 c (Chip.twWatch c h r) := by
  unfold Chip.twWatch
  repeat' first
    | (fail_if_no_progress extract_lets +onlyGivenNames x; first | (revert x; intro (x : Chip); refine Touch.cut (d := x) ?_ (fun hx => ?_); subst x; rotate_left; try clear_value x) | (revert x; intro (x : Chip × _); refine Touch.cut (d := x.1) ?_ (fun hx => ?_); subst x; rotate_left; try clear_value x) | skip)
    | (with_reducible first | exact Touch.refl | assumption | apply Touch.step (Chip.trace_touch ..))
    | decide +kernel
    | split
    | (intro _; intros)
    | (clear_value *; split)

theorem Chip.twFoldOne_touch (c : Chip) (h : Nat) (q : Bool × List Byte) : Touch 0x1c3013e 0x18000000000000028f800000180300000000000022000000000000000004 c (Chip.twFoldOne c h q) := by
  unfold Chip.twFoldOne
  repeat' first
    | (fail_if_no_progress extract_lets +onlyGivenNames x; first | (revert x; intro (x : Chip); refine Touch.cut (d := x) ?_ (fun hx => ?_); subst x; rotate_left; try clear_value x) | (revert x; intro (x : Chip × _); refine Touch.cut (d := x.1) ?_ (fun hx => ?_); subst x; rotate_left; try clear_value x) | clear_value x | skip)
    | (with_reducible first | exact Touch.refl | assumption | apply Touch.addi | apply Touch.step (Chip.count_touch ..) | apply Touch.step (Chip.twComplete_touch ..) | apply Touch.step (Chip.twDepart_touch ..) | apply Touch.step (Chip.twEffect_touch ..) | apply Touch.step (Chip.twFull_touch ..) | apply Touch.step (Chip.twStepMod_touch ..) | apply Touch.step (Chip.twStepRec_touch ..) | apply Touch.step (Chip.twWatch_touch ..))
    | decide +kernel
    | split
    | (intro _; intros)
    | (clear_value *; split)

theorem Chip.twFold_touch (c : Chip) (h : Nat) : Touch 0x1c3013e 0x18000000000000028f900000180300000003000022000000000000000004 c (Chip.twFold c h) := by
  unfold Chip.twFold
  repeat' first
    | (fail_if_no_progress extract_lets +onlyGivenNames x; first | (revert x; intro (x : Chip); refine Touch.cut (d := x) ?_ (fun hx => ?_); subst x; rotate_left; try clear_value x) | (revert x; intro (x : Chip × _); refine Touch.cut (d := x.1) ?_ (fun hx => ?_); subst x; rotate_left; try clear_value x) | skip)
    | (with_reducible first | exact Touch.refl | assumption | apply Touch.each | apply Touch.foldl | apply Touch.foldl_fst | apply Touch.step (Chip.twFoldOne_touch ..) | apply Touch.step (Chip.twIntake_touch ..) | apply Touch.step (Chip.twMirror_touch ..))
    | decide +kernel
    | split
    | (intro _; intros)
    | (clear_value *; split)

theorem Chip.twFollow_touch (c : Chip) (h : Nat) (recs : List Byte) : Touch 0x1c3013c 0x18000000000000020f900000180300000000000022000000000000000004 c (Chip.twFollow c h recs) := by
  unfold Chip.twFollow
  repeat' first
    | (fail_if_no_progress extract_lets +onlyGivenNames x; first | (revert x; intro (x : Chip); refine Touch.cut (d := x) ?_ (fun hx => ?_); subst x; rotate_left; try clear_value x) | (revert x; intro (x : Chip × _); refine Touch.cut (d := x.1) ?_ (fun hx => ?_); subst x; rotate_left; try clear_value x) | skip)
    | (with_reducible first | exact Touch.refl | assumption | apply Touch.addi | apply Touch.each | apply Touch.puti | apply Touch.step (Chip.twChain_touch ..) | apply Touch.step (Chip.twComplete_touch ..) | apply Touch.step (Chip.twIntake_touch ..) | apply Touch.step (Chip.twMod_touch ..) | apply Touch.step (Chip.twSet_touch ..) | apply Touch.step (Chip.twStepMod_touch ..) | apply Touch.step (Chip.twStepRec_touch ..) | apply Touch.step (Chip.twWithhold_touch ..))
    | decide +kernel
    | split
    | (intro _; intros)
    | (clear_value *; split)

theorem Chip.twVoid_touch (c : Chip) (h cause : Nat) : Touch 0x80012c 0x180000000000000203800000000000000000000000000000000000000004 c (Chip.twVoid c h cause) := by
  unfold Chip.twVoid
  repeat' first
    | (fail_if_no_progress extract_lets +onlyGivenNames x; first | (revert x; intro (x : Chip); refine Touch.cut (d := x) ?_ (fun hx => ?_); subst x; rotate_left; try clear_value x) | (revert x; intro (x : Chip × _); refine Touch.cut (d := x.1) ?_ (fun hx => ?_); subst x; rotate_left; try clear_value x) | skip)
    | (with_reducible first | exact Touch.refl | assumption | apply Touch.addi | apply Touch.each | apply Touch.step (Chip.twFull_touch ..) | apply Touch.step (Chip.twLog_touch ..) | apply Touch.step (Chip.twMod_touch ..) | apply Touch.step (Chip.twPending_touch ..))
    | decide +kernel
    | split
    | (intro _; intros)
    | (clear_value *; split)

theorem Chip.twDieLeft_touch (c : Chip) (n : Nat) : Touch 0x180012c 0x180000000000000203800000000000000003000000000000000000000004 c (Chip.twDieLeft c n) := by
  unfold Chip.twDieLeft
  repeat' first
    | (with_reducible first | exact Touch.refl | assumption | apply Touch.step (Chip.twMirror_touch ..) | apply Touch.step (Chip.twVoid_touch ..))
    | decide +kernel
    | split
    | (intro _; intros)
    | (clear_value *; split)

theorem Chip.twStrand_touch (c : Chip) (h out into num : Nat) : Touch 0x180012c 0x180000000000000203800000000000000003000000000000000000000004 c (Chip.twStrand c h out into num) := by
  unfold Chip.twStrand
  repeat' first
    | (fail_if_no_progress extract_lets +onlyGivenNames x; first | (revert x; intro (x : Chip); refine Touch.cut (d := x) ?_ (fun hx => ?_); subst x; rotate_left; try clear_value x) | (revert x; intro (x : Chip × _); refine Touch.cut (d := x.1) ?_ (fun hx => ?_); subst x; rotate_left; try clear_value x) | skip)
    | (with_reducible first | exact Touch.refl | assumption | apply Touch.step (Chip.twFull_touch ..) | apply Touch.step (Chip.twMirror_touch ..) | apply Touch.step (Chip.twVoid_touch ..))
    | decide +kernel
    | split
    | (intro _; intros)
    | (clear_value *; split)

theorem Chip.twReleased_touch (c : Chip) (n : Nat) : Touch 0x1c3013c 0x180000000000000003800000180300000003000022000000000000000004 c (Chip.twReleased c n) := by
  unfold Chip.twReleased
  repeat' first
    | (fail_if_no_progress extract_lets +onlyGivenNames x; first | (revert x; intro (x : Chip); refine Touch.cut (d := x) ?_ (fun hx => ?_); subst x; rotate_left; try clear_value x) | (revert x; intro (x : Chip × _); refine Touch.cut (d := x.1) ?_ (fun hx => ?_); subst x; rotate_left; try clear_value x) | skip)
    | (with_reducible first | exact Touch.refl | assumption | apply Touch.step (Chip.twDepart_touch ..) | apply Touch.step (Chip.twMirror_touch ..))
    | decide +kernel
    | (with_reducible apply Touch.upd) <;> first | (intro p; cases p <;> dsimp only [Part.same] <;> first | exact Or.inl (by decide +kernel) | exact Or.inr rfl) | (with_reducible first | exact Touch.refl | assumption | apply Touch.step (Chip.twDepart_touch ..) | apply Touch.step (Chip.twMirror_touch ..)) | split
    | split
    | (intro _; intros)
    | (clear_value *; split)

theorem Chip.twOpen_touch (c : Chip) (h ceremony base granules : Nat) (recipe : List Byte) : Touch 0x800100 0x8000000000000000000070c00000000000000000000000000000000000000000 c (Chip.twOpen c h ceremony base granules recipe) := by
  unfold Chip.twOpen
  repeat' first
    | (fail_if_no_progress extract_lets +onlyGivenNames x; first | (revert x; intro (x : Chip); refine Touch.cut (d := x) ?_ (fun hx => ?_); subst x; rotate_left; try clear_value x) | (revert x; intro (x : Chip × _); refine Touch.cut (d := x.1) ?_ (fun hx => ?_); subst x; rotate_left; try clear_value x) | skip)
    | (with_reducible first | exact Touch.refl | assumption | apply Touch.put64i | apply Touch.puti | apply Touch.resetCopy 255 0xdc00 0x400 | apply Touch.step (Chip.twMod_touch ..) | apply Touch.step (Chip.twSet_touch ..))
    | decide +kernel
    | (intro h; constructor <;> simp only [R.DGT_TWn_CTRL] <;> omega)
    | (intro off h1 h2; simp only [R.DGT_TWn_CTRL] at h1 h2; exact covers_window (i := 255) (lo := 0xdc00) (len := 0x400) (by decide +kernel) (by omega) (by omega))
    | split
    | (intro _; intros)
    | (clear_value *; split)

theorem Chip.twClose_touch (c : Chip) (h : Nat) : Touch 0x180012c 0x180000000000000283d00000000000000003000000000000000000000004 c (Chip.twClose c h) := by
  unfold Chip.twClose
  repeat' first
    | (fail_if_no_progress extract_lets +onlyGivenNames x; first | (revert x; intro (x : Chip); refine Touch.cut (d := x) ?_ (fun hx => ?_); subst x; rotate_left; try clear_value x) | (revert x; intro (x : Chip × _); refine Touch.cut (d := x.1) ?_ (fun hx => ?_); subst x; rotate_left; try clear_value x) | skip)
    | (with_reducible first | exact Touch.refl | assumption | apply Touch.puti | apply Touch.step (Chip.twIntake_touch ..) | apply Touch.step (Chip.twMirror_touch ..) | apply Touch.step (Chip.twMod_touch ..) | apply Touch.step (Chip.twSeal_touch ..) | apply Touch.step (Chip.twSet_touch ..) | apply Touch.step (Chip.twVoid_touch ..))
    | decide +kernel
    | split
    | (intro _; intros)
    | (clear_value *; split)

theorem Chip.rcAccept_touch (c : Chip) (h : Nat) (b : List Byte) : Touch 0x800108 0x180000000000000000100000000000000000000000000000000000000004 c (Chip.rcAccept c h b).1 := by
  unfold Chip.rcAccept
  repeat' first
    | (fail_if_no_progress extract_lets +onlyGivenNames x; first | (revert x; intro (x : Chip); refine Touch.cut (d := x) ?_ (fun hx => ?_); subst x; rotate_left; try clear_value x) | (revert x; intro (x : Chip × _); refine Touch.cut (d := x.1) ?_ (fun hx => ?_); subst x; rotate_left; try clear_value x) | skip)
    | (with_reducible first | exact Touch.refl | assumption | apply Touch.put | apply Touch.step (Chip.log_touch ..) | apply Touch.step (Chip.twMod_touch ..))
    | decide +kernel
    | split
    | (intro _; intros)
    | (clear_value *; split)

theorem Chip.twSigning_touch (c : Chip) (h : Nat) : Touch 0x800100 0x800000000000000000000000000000000000000000 c (Chip.twSigning c h) := by
  unfold Chip.twSigning
  repeat' first
    | (with_reducible first | exact Touch.refl | assumption | apply Touch.step (Chip.twMod_touch ..) | apply Touch.step (Chip.twPending_touch ..))
    | decide +kernel
    | split
    | (intro _; intros)
    | (clear_value *; split)

theorem Chip.coseSigned_touch (c : Chip) (payload : List Byte) (t : Nat) : Touch 0x40102 0x4000000000000000000000000000000000000 c (Chip.coseSigned c payload t).2 := by
  unfold Chip.coseSigned
  repeat' first
    | (fail_if_no_progress extract_lets +onlyGivenNames x; first | (revert x; intro (x : Chip); refine Touch.cut (d := x) ?_ (fun hx => ?_); subst x; rotate_left; try clear_value x) | (revert x; intro (x : Chip × _); refine Touch.cut (d := x.1) ?_ (fun hx => ?_); subst x; rotate_left; try clear_value x) | (revert x; intro (x : _ × Chip); refine Touch.cut (d := x.2) ?_ (fun hx => ?_); subst x; rotate_left; try clear_value x) | (revert x; intro (x : _ × _ × Chip); refine Touch.cut (d := x.2.2) ?_ (fun hx => ?_); subst x; rotate_left; try clear_value x) | skip)
    | (with_reducible first | exact Touch.refl | assumption | apply Touch.step (Chip.rnd_touch ..))
    | decide +kernel
    | split
    | (intro _; intros)
    | (clear_value *; split)

theorem Chip.twSigned_touch (c : Chip) (h : Nat) : Touch 0x84012e 0x180000000000000000800004000000000000000000000000000000000004 c (Chip.twSigned c h) := by
  unfold Chip.twSigned
  repeat' first
    | (fail_if_no_progress extract_lets +onlyGivenNames x; first | (revert x; intro (x : Chip); refine Touch.cut (d := x) ?_ (fun hx => ?_); subst x; rotate_left; try clear_value x) | (revert x; intro (x : Chip × _); refine Touch.cut (d := x.1) ?_ (fun hx => ?_); subst x; rotate_left; try clear_value x) | (revert x; intro (x : _ × Chip); refine Touch.cut (d := x.2) ?_ (fun hx => ?_); subst x; rotate_left; try clear_value x) | (revert x; intro (x : _ × _ × Chip); refine Touch.cut (d := x.2.2) ?_ (fun hx => ?_); subst x; rotate_left; try clear_value x) | skip)
    | (with_reducible first | exact Touch.refl | assumption | apply Touch.step (Chip.coseSigned_touch ..) | apply Touch.step (Chip.count_touch ..) | apply Touch.step (Chip.portReq_touch ..) | apply Touch.step (Chip.twLog_touch ..) | apply Touch.step (Chip.twMod_touch ..) | apply Touch.step (Chip.twPending_touch ..))
    | decide +kernel
    | split
    | (intro _; intros)
    | (clear_value *; split)

theorem Chip.twHeadRead_touch (c : Chip) (h : Nat) : Touch 0x800000 0x0 c (Chip.twHeadRead c h).1 := by
  unfold Chip.twHeadRead
  repeat' first
    | (fail_if_no_progress extract_lets +onlyGivenNames x; first | (revert x; intro (x : Chip); refine Touch.cut (d := x) ?_ (fun hx => ?_); subst x; rotate_left; try clear_value x) | (revert x; intro (x : Chip × _); refine Touch.cut (d := x.1) ?_ (fun hx => ?_); subst x; rotate_left; try clear_value x) | skip)
    | (with_reducible first | exact Touch.refl | assumption | apply Touch.step (Chip.twMod_touch ..))
    | decide +kernel
    | split
    | (intro _; intros)
    | (clear_value *; split)

end Sys2Proof.Machine
end

