-- ==== Sys2Proof/Laws/TouchTallyOps.lean ====
section
/-! SUPPORT. What each function of Machine/TallyOps.lean can change: the two masks of `Touch` (Laws/Touch.lean), parts and banks of registers. -/

set_option linter.unreachableTactic false
set_option linter.unusedTactic false
set_option linter.tactic.unusedName false
set_option linter.unnecessarySeqFocus false
set_option linter.unusedVariables false
set_option Elab.async false

namespace Sys2Proof.Machine

theorem Chip.tlyLast_touch (c : Chip) (n : Nat) (st : Status) : Touch 0x100 0x800000000000000000000000000000000000000000000 c (Chip.tlyLast c n st) := by
  unfold Chip.tlyLast
  repeat' first
    | (with_reducible first | exact Touch.refl | assumption | apply Touch.put)
    | decide +kernel
    | split
    | (intro _; intros)
    | (clear_value *; split)

theorem Chip.acPut_touch (c : Chip) (n st : Nat) : Touch 0x100 0x400000000000000000000000000000000000000000000000 c (Chip.acPut c n st) := by
  unfold Chip.acPut
  repeat' first
    | (with_reducible first | exact Touch.refl | assumption | apply Touch.puti | apply Touch.step (Chip.noilTrans_touch ..))
    | decide +kernel
    | split
    | (intro _; intros)
    | (clear_value *; split)

theorem Chip.tlyOpen_touch (c : Chip) (n : Nat) : Touch 0x4010a 0x180000000000400800000004000000000000000000000000000000050004 c (Chip.tlyOpen c n) := by
  unfold Chip.tlyOpen
  repeat' first
    | (fail_if_no_progress extract_lets +onlyGivenNames x; first | (revert x; intro (x : Chip); refine Touch.cut (d := x) ?_ (fun hx => ?_); subst x; rotate_left; try clear_value x) | (revert x; intro (x : Chip × _); refine Touch.cut (d := x.1) ?_ (fun hx => ?_); subst x; rotate_left; try clear_value x) | (revert x; intro (x : _ × Chip); refine Touch.cut (d := x.2) ?_ (fun hx => ?_); subst x; rotate_left; try clear_value x) | (revert x; intro (x : _ × _ × Chip); refine Touch.cut (d := x.2.2) ?_ (fun hx => ?_); subst x; rotate_left; try clear_value x) | skip)
    | (with_reducible first | exact Touch.refl | assumption | apply Touch.foldl | apply Touch.foldl_fst | apply Touch.step (Chip.acPut_touch ..) | apply Touch.step (Chip.cr_touch ..) | apply Touch.step (Chip.groupNeed_touch ..) | apply Touch.step (Chip.rngReq_touch ..) | apply Touch.step (Chip.tlyLast_touch ..))
    | decide +kernel
    | split
    | (intro _; intros)
    | (clear_value *; split)

theorem Chip.tlyAdd_touch (c : Chip) (n owner : Nat) : Touch 0x40108 0x180000000000400800000000000000000000000000000000000000050004 c (Chip.tlyAdd c n owner) := by
  unfold Chip.tlyAdd
  repeat' first
    | (fail_if_no_progress extract_lets +onlyGivenNames x; first | (revert x; intro (x : Chip); refine Touch.cut (d := x) ?_ (fun hx => ?_); subst x; rotate_left; try clear_value x) | (revert x; intro (x : Chip × _); refine Touch.cut (d := x.1) ?_ (fun hx => ?_); subst x; rotate_left; try clear_value x) | skip)
    | (with_reducible first | exact Touch.refl | assumption | apply Touch.put | apply Touch.step (Chip.acMod_touch ..) | apply Touch.step (Chip.acPut_touch ..) | apply Touch.step (Chip.groupNeed_touch ..) | apply Touch.step (Chip.tlyLast_touch ..))
    | decide +kernel
    | split
    | (intro _; intros)
    | (clear_value *; split)

theorem Chip.tlyStep_touch (c : Chip) (n : Nat) (d : List Byte) : Touch 0x800100 0x800000000000000000000000000000000000000000 c (Chip.tlyStep c n d) := by
  unfold Chip.tlyStep
  repeat' first
    | (fail_if_no_progress extract_lets +onlyGivenNames x; first | (revert x; intro (x : Chip); refine Touch.cut (d := x) ?_ (fun hx => ?_); subst x; rotate_left; try clear_value x) | (revert x; intro (x : Chip × _); refine Touch.cut (d := x.1) ?_ (fun hx => ?_); subst x; rotate_left; try clear_value x) | skip)
    | (with_reducible first | exact Touch.refl | assumption | apply Touch.step (Chip.twMod_touch ..) | apply Touch.step (Chip.twSigning_touch ..))
    | decide +kernel
    | split
    | (intro _; intros)
    | (clear_value *; split)

theorem Chip.tlySeal_touch (c : Chip) (n : Nat) : Touch 0x840908 0x180000000000400800800000000000000000000000000000000000000004 c (Chip.tlySeal c n) := by
  unfold Chip.tlySeal
  repeat' first
    | (fail_if_no_progress extract_lets +onlyGivenNames x; first | (revert x; intro (x : Chip); refine Touch.cut (d := x) ?_ (fun hx => ?_); subst x; rotate_left; try clear_value x) | (revert x; intro (x : Chip × _); refine Touch.cut (d := x.1) ?_ (fun hx => ?_); subst x; rotate_left; try clear_value x) | skip)
    | (with_reducible first | exact Touch.refl | assumption | apply Touch.puti | apply Touch.step (Chip.acMod_touch ..) | apply Touch.step (Chip.acPut_touch ..) | apply Touch.step (Chip.log_touch ..) | apply Touch.step (Chip.spnWr_touch ..) | apply Touch.step (Chip.tlyLast_touch ..) | apply Touch.step (Chip.tlyStep_touch ..))
    | decide +kernel
    | split
    | (intro _; intros)
    | (clear_value *; split)

theorem Chip.tlyDone_touch (c : Chip) (n : Nat) (data : List Byte) (good : Bool) : Touch 0x840908 0x180000000001d00800800000000000000000000000000000000000000004 c (Chip.tlyDone c n data good) := by
  unfold Chip.tlyDone
  repeat' first
    | (fail_if_no_progress extract_lets +onlyGivenNames x; first | (revert x; intro (x : Chip); refine Touch.cut (d := x) ?_ (fun hx => ?_); subst x; rotate_left; try clear_value x) | (revert x; intro (x : Chip × _); refine Touch.cut (d := x.1) ?_ (fun hx => ?_); subst x; rotate_left; try clear_value x) | skip)
    | (with_reducible first | exact Touch.refl | assumption | apply Touch.addi | apply Touch.put | apply Touch.puti | apply Touch.step (Chip.acMod_touch ..) | apply Touch.step (Chip.acPut_touch ..) | apply Touch.step (Chip.count_touch ..) | apply Touch.step (Chip.log_touch ..) | apply Touch.step (Chip.tlyLast_touch ..) | apply Touch.step (Chip.tlySeal_touch ..))
    | decide +kernel
    | split
    | (intro _; intros)
    | (clear_value *; split)

theorem Chip.tlyAbortCmd_touch (c : Chip) (n : Nat) : Touch 0x40100 0x1d00800000000000000000000000000000000000000000000 c (Chip.tlyAbortCmd c n) := by
  unfold Chip.tlyAbortCmd
  repeat' first
    | (with_reducible first | exact Touch.refl | assumption | apply Touch.step (Chip.acAbort_touch ..) | apply Touch.step (Chip.tlyLast_touch ..))
    | decide +kernel
    | split
    | (intro _; intros)
    | (clear_value *; split)

theorem Chip.tlyRelease_touch (c : Chip) (n : Nat) : Touch 0x40100 0x1d00800000000000000000000000000000000000000000000 c (Chip.tlyRelease c n) := by
  unfold Chip.tlyRelease
  repeat' first
    | (fail_if_no_progress extract_lets +onlyGivenNames x; first | (revert x; intro (x : Chip); refine Touch.cut (d := x) ?_ (fun hx => ?_); subst x; rotate_left; try clear_value x) | (revert x; intro (x : Chip × _); refine Touch.cut (d := x.1) ?_ (fun hx => ?_); subst x; rotate_left; try clear_value x) | skip)
    | (with_reducible first | exact Touch.refl | assumption | apply Touch.step (Chip.acFree_touch ..) | apply Touch.step (Chip.tlyLast_touch ..))
    | decide +kernel
    | split
    | (intro _; intros)
    | (clear_value *; split)

theorem Chip.tlyRead_touch (c : Chip) (n : Nat) : Touch 0x40108 0x180000000000000800000000000000000000000000000000000000000004 c (Chip.tlyRead c n).1 := by
  unfold Chip.tlyRead
  repeat' first
    | (fail_if_no_progress extract_lets +onlyGivenNames x; first | (revert x; intro (x : Chip); refine Touch.cut (d := x) ?_ (fun hx => ?_); subst x; rotate_left; try clear_value x) | (revert x; intro (x : Chip × _); refine Touch.cut (d := x.1) ?_ (fun hx => ?_); subst x; rotate_left; try clear_value x) | skip)
    | (with_reducible first | exact Touch.refl | assumption | apply Touch.step (Chip.acMod_touch ..) | apply Touch.step (Chip.log_touch ..) | apply Touch.step (Chip.tlyLast_touch ..))
    | decide +kernel
    | split
    | (intro _; intros)
    | (clear_value *; split)

end Sys2Proof.Machine
end

