-- ==== Sys2Proof/Laws/TouchLaneOps.lean ====
section
/-! SUPPORT. What each function of Machine/LaneOps.lean can change: the two masks of `Touch` (Laws/Touch.lean), parts and banks of registers. -/

set_option linter.unreachableTactic false
set_option linter.unusedTactic false
set_option linter.tactic.unusedName false
set_option linter.unnecessarySeqFocus false
set_option linter.unusedVariables false
set_option Elab.async false

namespace Sys2Proof.Machine

theorem Chip.laneSet_touch (c : Chip) (cls l st : Nat) : Touch 0x100 0xc00000000000000000000000000000000000 c (Chip.laneSet c cls l st) := by
  unfold Chip.laneSet
  repeat' first
    | (fail_if_no_progress extract_lets +onlyGivenNames x; first | (revert x; intro (x : Chip); refine Touch.cut (d := x) ?_ (fun hx => ?_); subst x; rotate_left; try clear_value x) | (revert x; intro (x : Chip × _); refine Touch.cut (d := x.1) ?_ (fun hx => ?_); subst x; rotate_left; try clear_value x) | skip)
    | (with_reducible first | exact Touch.refl | assumption | apply Touch.put | apply Touch.step (Chip.noilTrans_touch ..))
    | decide +kernel
    | unfold bridgeField
    | unfold laneField
    | split
    | (intro _; intros)
    | (clear_value *; split)

theorem Chip.laneDrain_touch (c : Chip) (cls l : Nat) : Touch 0x40108 0x180000000000000000000000c00000000000000000000000000000050004 c (Chip.laneDrain c cls l) := by
  unfold Chip.laneDrain
  repeat' first
    | (fail_if_no_progress extract_lets +onlyGivenNames x; first | (revert x; intro (x : Chip); refine Touch.cut (d := x) ?_ (fun hx => ?_); subst x; rotate_left; try clear_value x) | (revert x; intro (x : Chip × _); refine Touch.cut (d := x.1) ?_ (fun hx => ?_); subst x; rotate_left; try clear_value x) | skip)
    | (with_reducible first | exact Touch.refl | assumption | apply Touch.step (Chip.cr_touch ..) | apply Touch.step (Chip.groupNeed_touch ..) | apply Touch.step (Chip.laneSet_touch ..))
    | decide +kernel
    | split
    | (intro _; intros)
    | (clear_value *; split)

theorem Chip.laneFail_touch (c : Chip) (cls l : Nat) : Touch 0x7effbfe 0x84200180200000001d00800018304c0008100000000000000000000c402050034 c (Chip.laneFail c cls l) := by
  unfold Chip.laneFail
  repeat' first
    | (fail_if_no_progress extract_lets +onlyGivenNames x; first | (revert x; intro (x : Chip); refine Touch.cut (d := x) ?_ (fun hx => ?_); subst x; rotate_left; try clear_value x) | (revert x; intro (x : Chip × _); refine Touch.cut (d := x.1) ?_ (fun hx => ?_); subst x; rotate_left; try clear_value x) | skip)
    | (with_reducible first | exact Touch.refl | assumption | apply Touch.step (Chip.instFail_touch ..) | apply Touch.step (Chip.laneSet_touch ..) | apply Touch.step (Chip.log_touch ..))
    | decide +kernel
    | split
    | (intro _; intros)
    | (clear_value *; split)

theorem Chip.laneAsk_touch (c : Chip) (req : Req) (cls lane : Nat) : Touch 0x40108 0x180000000000000000000001c00000000000000000000000000000050004 c (Chip.laneAsk c req cls lane) := by
  unfold Chip.laneAsk
  dsimp only
  repeat' first
    | (with_reducible first | exact Touch.refl | assumption | apply Touch.put | apply Touch.step (Chip.cr_touch ..) | apply Touch.step (Chip.laneDrain_touch ..) | apply Touch.step (Chip.log_touch ..))
    | decide +kernel
    | split
    | (intro _; intros)
    | (clear_value *; split)

theorem Chip.lanePeriod_touch (c : Chip) : Touch 0x40108 0x180000000000000000000000c00000000000000000000000000000050004 c (Chip.lanePeriod c) := by
  unfold Chip.lanePeriod
  repeat' first
    | (fail_if_no_progress extract_lets +onlyGivenNames x; first | (revert x; intro (x : Chip); refine Touch.cut (d := x) ?_ (fun hx => ?_); subst x; rotate_left; try clear_value x) | (revert x; intro (x : Chip × _); refine Touch.cut (d := x.1) ?_ (fun hx => ?_); subst x; rotate_left; try clear_value x) | skip)
    | (with_reducible first | exact Touch.refl | assumption | apply Touch.each | apply Touch.step (Chip.cr_touch ..) | apply Touch.step (Chip.laneDrain_touch ..))
    | decide +kernel
    | split
    | (intro _; intros)
    | (clear_value *; split)

theorem Chip.drbgFail_touch (c : Chip) : Touch 0x7effbfe 0x84200180200000001d0080001830400008100000000000000000000c402050034 c (Chip.drbgFail c) := by
  unfold Chip.drbgFail
  repeat' first
    | (with_reducible first | exact Touch.refl | assumption | apply Touch.put | apply Touch.step (Chip.instFail_touch ..))
    | decide +kernel
    | split
    | (intro _; intros)
    | (clear_value *; split)

theorem Chip.katFail_touch (c : Chip) : Touch 0x7effbfe 0x84200180200000001d0080001830400008100000000000000000000c402050034 c (Chip.katFail c) := by
  unfold Chip.katFail
  repeat' first
    | (with_reducible first | exact Touch.refl | assumption | apply Touch.put | apply Touch.step (Chip.cr_touch ..) | apply Touch.step (Chip.drbgFail_touch ..))
    | decide +kernel
    | split
    | (intro _; intros)
    | (clear_value *; split)

theorem Chip.laneTested_touch (c : Chip) (cls l : Nat) (pass : Bool) : Touch 0x7effbfe 0x84200180200000001d00800018305c0008100000000000000000000c402050034 c (Chip.laneTested c cls l pass) := by
  unfold Chip.laneTested
  repeat' first
    | (fail_if_no_progress extract_lets +onlyGivenNames x; first | (revert x; intro (x : Chip); refine Touch.cut (d := x) ?_ (fun hx => ?_); subst x; rotate_left; try clear_value x) | (revert x; intro (x : Chip × _); refine Touch.cut (d := x.1) ?_ (fun hx => ?_); subst x; rotate_left; try clear_value x) | skip)
    | (with_reducible first | exact Touch.refl | assumption | apply Touch.add | apply Touch.put | apply Touch.step (Chip.count_touch ..) | apply Touch.step (Chip.cr_touch ..) | apply Touch.step (Chip.cryArb_touch ..) | apply Touch.step (Chip.katFail_touch ..) | apply Touch.step (Chip.laneFail_touch ..) | apply Touch.step (Chip.laneSet_touch ..) | apply Touch.step (Chip.log_touch ..))
    | decide +kernel
    | split
    | (intro _; intros)
    | (clear_value *; split)

theorem Chip.faultUnit_touch (c : Chip) (unit : LaneUnit) : Touch 0x4090e 0x180000000000400800000b04000000000000000000000000000000000004 c (Chip.faultUnit c unit) := by
  unfold Chip.faultUnit
  repeat' first
    | (with_reducible first | exact Touch.refl | assumption | apply Touch.put | apply Touch.puti | apply Touch.step (Chip.acPut_touch ..) | apply Touch.step (Chip.chDone_touch ..) | apply Touch.step (Chip.cryArb_touch ..) | apply Touch.step (Chip.cxMod_touch ..) | apply Touch.step (Chip.cxPut_touch ..) | apply Touch.step (Chip.tlyLast_touch ..))
    | decide +kernel
    | split
    | (intro _; intros)
    | (clear_value *; split)

theorem Chip.laneFault_touch (c : Chip) (cls l : Nat) (unit : LaneUnit) : Touch 0x4090e 0x180000000000400800000b04c00000000000000000000000000000000004 c (Chip.laneFault c cls l unit) := by
  unfold Chip.laneFault
  repeat' first
    | (with_reducible first | exact Touch.refl | assumption | apply Touch.step (Chip.faultUnit_touch ..) | apply Touch.step (Chip.laneSet_touch ..) | apply Touch.step (Chip.log_touch ..))
    | decide +kernel
    | split
    | (intro _; intros)
    | (clear_value *; split)

theorem Chip.entFail_touch (c : Chip) (i : Nat) : Touch 0x7effbfe 0x84200180200000001d0080001830600008100000000000000000000c402050034 c (Chip.entFail c i) := by
  unfold Chip.entFail
  repeat' first
    | (fail_if_no_progress extract_lets +onlyGivenNames x; first | (revert x; intro (x : Chip); refine Touch.cut (d := x) ?_ (fun hx => ?_); subst x; rotate_left; try clear_value x) | (revert x; intro (x : Chip × _); refine Touch.cut (d := x.1) ?_ (fun hx => ?_); subst x; rotate_left; try clear_value x) | skip)
    | (with_reducible first | exact Touch.refl | assumption | apply Touch.step (Chip.entSet_touch ..) | apply Touch.step (Chip.instFail_touch ..) | apply Touch.step (Chip.log_touch ..))
    | decide +kernel
    | split
    | (intro _; intros)
    | (clear_value *; split)

theorem Chip.entHealth_touch (c : Chip) (i : Nat) : Touch 0x7effbfe 0x84200180200000001d0080001830600008100000000000000000000c402050034 c (Chip.entHealth c i) := by
  unfold Chip.entHealth
  dsimp only
  repeat' first
    | (with_reducible first | exact Touch.refl | assumption | apply Touch.add | apply Touch.step (Chip.cr_touch ..) | apply Touch.step (Chip.entFail_touch ..) | apply Touch.step (Chip.entSet_touch ..))
    | decide +kernel
    | split
    | (intro _; intros)
    | (clear_value *; split)

theorem Chip.entTested_touch (c : Chip) (i : Nat) (pass : Bool) : Touch 0x7effbfe 0x84200180200000001d0080001830600008100000000000000000000c402050034 c (Chip.entTested c i pass) := by
  unfold Chip.entTested
  repeat' first
    | (fail_if_no_progress extract_lets +onlyGivenNames x; first | (revert x; intro (x : Chip); refine Touch.cut (d := x) ?_ (fun hx => ?_); subst x; rotate_left; try clear_value x) | (revert x; intro (x : Chip × _); refine Touch.cut (d := x.1) ?_ (fun hx => ?_); subst x; rotate_left; try clear_value x) | skip)
    | (with_reducible first | exact Touch.refl | assumption | apply Touch.step (Chip.cr_touch ..) | apply Touch.step (Chip.entFail_touch ..) | apply Touch.step (Chip.entHealth_touch ..) | apply Touch.step (Chip.entSet_touch ..) | apply Touch.step (Chip.log_touch ..))
    | decide +kernel
    | split
    | (intro _; intros)
    | (clear_value *; split)

end Sys2Proof.Machine
end

