-- ==== Sys2Proof/Laws/TouchDmaBase.lean ====
section
/-! SUPPORT. What each function of Machine/DmaBase.lean can change: the two masks of `Touch` (Laws/Touch.lean), parts and banks of registers. -/

set_option linter.unreachableTactic false
set_option linter.unusedTactic false
set_option linter.tactic.unusedName false
set_option linter.unnecessarySeqFocus false
set_option linter.unusedVariables false
set_option Elab.async false

namespace Sys2Proof.Machine

theorem Chip.dmMod_touch (c : Chip) (n : Nat) (f : DmaCh → DmaCh) : Touch 0x80000 0x0 c (Chip.dmMod c n f) := by
  unfold Chip.dmMod
  repeat' first
    | (with_reducible first | exact Touch.refl | assumption)
    | decide +kernel
    | (with_reducible apply Touch.upd) <;> first | (intro p; cases p <;> dsimp only [Part.same] <;> first | exact Or.inl (by decide +kernel) | exact Or.inr rfl) | (with_reducible first | exact Touch.refl | assumption) | split
    | split
    | (intro _; intros)
    | (clear_value *; split)

theorem Chip.dmSet_touch (c : Chip) (n st : Nat) : Touch 0x100 0x20038000000000000000000000000000000000000000000000000 c (Chip.dmSet c n st) := by
  unfold Chip.dmSet
  repeat' first
    | (fail_if_no_progress extract_lets +onlyGivenNames x; first | (revert x; intro (x : Chip); refine Touch.cut (d := x) ?_ (fun hx => ?_); subst x; rotate_left; try clear_value x) | (revert x; intro (x : Chip × _); refine Touch.cut (d := x.1) ?_ (fun hx => ?_); subst x; rotate_left; try clear_value x) | skip)
    | (with_reducible first | exact Touch.refl | assumption | apply Touch.put | apply Touch.puti | apply Touch.step (Chip.noilTrans_touch ..))
    | decide +kernel
    | split
    | (intro _; intros)
    | (clear_value *; split)

theorem Chip.dmBack_touch (c : Chip) (n idx flags : Nat) (st : Status) (cause done : Nat) : Touch 0x908 0x180000020000000000000000000000000000000000000000000000000004 c (Chip.dmBack c n idx flags st cause done) := by
  unfold Chip.dmBack
  repeat' first
    | (fail_if_no_progress extract_lets +onlyGivenNames x; first | (revert x; intro (x : Chip); refine Touch.cut (d := x) ?_ (fun hx => ?_); subst x; rotate_left; try clear_value x) | (revert x; intro (x : Chip × _); refine Touch.cut (d := x.1) ?_ (fun hx => ?_); subst x; rotate_left; try clear_value x) | skip)
    | (with_reducible first | exact Touch.refl | assumption | apply Touch.puti | apply Touch.when | apply Touch.step (Chip.ownWr_touch ..) | apply Touch.step (Chip.trace_touch ..))
    | decide +kernel
    | split
    | (intro _; intros)
    | (clear_value *; split)

theorem Chip.dmNext_touch (c : Chip) (n : Nat) : Touch 0x100 0x8000000000000000000000000000000000000000000000000000 c (Chip.dmNext c n) := by
  unfold Chip.dmNext
  repeat' first
    | (with_reducible first | exact Touch.refl | assumption | apply Touch.puti)
    | decide +kernel
    | split
    | (intro _; intros)
    | (clear_value *; split)

theorem Chip.dmFetch_touch (c : Chip) (n : Nat) (d : DmaDesc) (pos : Nat) : Touch 0x80100 0x0 c (Chip.dmFetch c n d pos) := by
  unfold Chip.dmFetch
  repeat' first
    | (with_reducible first | exact Touch.refl | assumption | apply Touch.step (Chip.count_touch ..) | apply Touch.step (Chip.dmMod_touch ..))
    | decide +kernel
    | split
    | (intro _; intros)
    | (clear_value *; split)

theorem Chip.dmIrq_touch (c : Chip) (n : Nat) (d : DmaDesc) : Touch 0x4 0x0 c (Chip.dmIrq c n d) := by
  unfold Chip.dmIrq
  repeat' first
    | (with_reducible first | exact Touch.refl | assumption | apply Touch.step (Chip.chIrq_touch ..))
    | decide +kernel
    | split
    | (intro _; intros)
    | (clear_value *; split)

theorem Chip.dmDrop_touch (c : Chip) (n : Nat) : Touch 0x80100 0x10000000000020000000000000000000000000000000000000000000000000000 c (Chip.dmDrop c n) := by
  unfold Chip.dmDrop
  repeat' first
    | (fail_if_no_progress extract_lets +onlyGivenNames x; first | (revert x; intro (x : Chip); refine Touch.cut (d := x) ?_ (fun hx => ?_); subst x; rotate_left; try clear_value x) | (revert x; intro (x : Chip × _); refine Touch.cut (d := x.1) ?_ (fun hx => ?_); subst x; rotate_left; try clear_value x) | skip)
    | (with_reducible first | exact Touch.refl | assumption | apply Touch.puti | apply Touch.resetCopy 256 0xf100 0x800 | apply Touch.step (Chip.dmMod_touch ..))
    | decide +kernel
    | (intro h; constructor <;> simp only [R.DMA_CHn_CUR_SRC_LO, R.DMA_CHn_FAULT_ADDR_LO] <;> omega)
    | (intro off h1 h2; simp only [R.DMA_CHn_CUR_SRC_LO, R.DMA_CHn_FAULT_ADDR_LO] at h1 h2; exact covers_window (i := 256) (lo := 0xf100) (len := 0x800) (by decide +kernel) (by omega) (by omega))
    | split
    | (intro _; intros)
    | (clear_value *; split)

theorem Chip.dmEnd_touch (c : Chip) (n : Nat) (st : Status) (cause to_ : Nat) : Touch 0x8090c 0x10000180000028038000000000000000000000000000000000000000000000004 c (Chip.dmEnd c n st cause to_) := by
  unfold Chip.dmEnd
  repeat' first
    | (fail_if_no_progress extract_lets +onlyGivenNames x; first | (revert x; intro (x : Chip); refine Touch.cut (d := x) ?_ (fun hx => ?_); subst x; rotate_left; try clear_value x) | (revert x; intro (x : Chip × _); refine Touch.cut (d := x.1) ?_ (fun hx => ?_); subst x; rotate_left; try clear_value x) | skip)
    | (with_reducible first | exact Touch.refl | assumption | apply Touch.step (Chip.count_touch ..) | apply Touch.step (Chip.dmBack_touch ..) | apply Touch.step (Chip.dmDrop_touch ..) | apply Touch.step (Chip.dmIrq_touch ..) | apply Touch.step (Chip.dmNext_touch ..) | apply Touch.step (Chip.dmSet_touch ..))
    | decide +kernel
    | split
    | (intro _; intros)
    | (clear_value *; split)

theorem Chip.swPut_touch (c : Chip) (line v : Nat) : Touch 0x100 0xc00000000000000000000000000000000000000000000000000 c (Chip.swPut c line v) := by
  unfold Chip.swPut
  dsimp only
  repeat' first
    | (with_reducible first | exact Touch.refl | assumption | apply Touch.put)
    | decide +kernel
    | split
    | (intro _; intros)
    | (clear_value *; split)

theorem Chip.dmGo_touch (c : Chip) (n : Nat) : Touch 0x100 0x20038000000000000000000000000000000000000000000000000 c (Chip.dmGo c n) := by
  unfold Chip.dmGo
  repeat' first
    | (fail_if_no_progress extract_lets +onlyGivenNames x; first | (revert x; intro (x : Chip); refine Touch.cut (d := x) ?_ (fun hx => ?_); subst x; rotate_left; try clear_value x) | (revert x; intro (x : Chip × _); refine Touch.cut (d := x.1) ?_ (fun hx => ?_); subst x; rotate_left; try clear_value x) | skip)
    | (with_reducible first | exact Touch.refl | assumption | apply Touch.step (Chip.dmSet_touch ..))
    | decide +kernel
    | split
    | (intro _; intros)
    | (clear_value *; split)

theorem Chip.dmStop1_touch (c : Chip) (n : Nat) : Touch 0x100 0x20038000000000000000000000000000000000000000000000000 c (Chip.dmStop1 c n) := by
  unfold Chip.dmStop1
  repeat' first
    | (with_reducible first | exact Touch.refl | assumption | apply Touch.step (Chip.dmSet_touch ..))
    | decide +kernel
    | split
    | (intro _; intros)
    | (clear_value *; split)

theorem Chip.dmResume_touch (c : Chip) (n : Nat) : Touch 0x100 0x20038000000000000000000000000000000000000000000000000 c (Chip.dmResume c n) := by
  unfold Chip.dmResume
  repeat' first
    | (with_reducible first | exact Touch.refl | assumption | apply Touch.step (Chip.dmGo_touch ..))
    | decide +kernel
    | split
    | (intro _; intros)
    | (clear_value *; split)

theorem Chip.dmPause_touch (c : Chip) (n : Nat) (on : Bool) : Touch 0x100 0x30038000000000000000000000000000000000000000000000000 c (Chip.dmPause c n on) := by
  unfold Chip.dmPause
  repeat' first
    | (fail_if_no_progress extract_lets +onlyGivenNames x; first | (revert x; intro (x : Chip); refine Touch.cut (d := x) ?_ (fun hx => ?_); subst x; rotate_left; try clear_value x) | (revert x; intro (x : Chip × _); refine Touch.cut (d := x.1) ?_ (fun hx => ?_); subst x; rotate_left; try clear_value x) | skip)
    | (with_reducible first | exact Touch.refl | assumption | apply Touch.puti | apply Touch.step (Chip.dmResume_touch ..) | apply Touch.step (Chip.dmStop1_touch ..))
    | decide +kernel
    | split
    | (intro _; intros)
    | (clear_value *; split)

theorem Chip.dmAbort_touch (c : Chip) (n : Nat) : Touch 0x8090c 0x10000180000028038000000000000000000000000000000000000000000000004 c (Chip.dmAbort c n) := by
  unfold Chip.dmAbort
  repeat' first
    | (with_reducible first | exact Touch.refl | assumption | apply Touch.step (Chip.dmEnd_touch ..))
    | decide +kernel
    | split
    | (intro _; intros)
    | (clear_value *; split)

theorem Chip.dmUnline_touch (c : Chip) (lines : List Nat) : Touch 0x8090c 0x10000180000038038000000000000000000000000000000000000000000000004 c (Chip.dmUnline c lines) := by
  unfold Chip.dmUnline
  repeat' first
    | (fail_if_no_progress extract_lets +onlyGivenNames x; first | (revert x; intro (x : Chip); refine Touch.cut (d := x) ?_ (fun hx => ?_); subst x; rotate_left; try clear_value x) | (revert x; intro (x : Chip × _); refine Touch.cut (d := x.1) ?_ (fun hx => ?_); subst x; rotate_left; try clear_value x) | skip)
    | (with_reducible first | exact Touch.refl | assumption | apply Touch.each | apply Touch.step (Chip.dmAbort_touch ..) | apply Touch.step (Chip.dmPause_touch ..) | apply Touch.step (Chip.dmSet_touch ..))
    | decide +kernel
    | split
    | (intro _; intros)
    | (clear_value *; split)

theorem Chip.dmStopEnd_touch (c : Chip) : Touch 0x108 0x180000000008000000000000000000000000000000000000000000000004 c (Chip.dmStopEnd c) := by
  unfold Chip.dmStopEnd
  repeat' first
    | (with_reducible first | exact Touch.refl | assumption | apply Touch.put | apply Touch.step (Chip.log_touch ..))
    | decide +kernel
    | split
    | (intro _; intros)
    | (clear_value *; split)

theorem Chip.dmFaultRegs_touch (c : Chip) (n : Nat) (st : Status) (cause desc addr : Nat) (late index wr : Bool) : Touch 0x100 0xe000000000000000000000000000000000000000000000000000000 c (Chip.dmFaultRegs c n st cause desc addr late index wr) := by
  unfold Chip.dmFaultRegs
  repeat' first
    | (with_reducible first | exact Touch.refl | assumption | apply Touch.put64i | apply Touch.wri)
    | decide +kernel
    | split
    | (intro _; intros)
    | (clear_value *; split)

theorem Chip.busErrorLog_touch (c : Chip) (n cause addr idx : Nat) (wr index : Bool) (late : Option Nat) : Touch 0x108 0x180000000000000000000000000000000000000000000000000000000004 c (Chip.busErrorLog c n cause addr idx wr index late) := by
  unfold Chip.busErrorLog
  repeat' first
    | (fail_if_no_progress extract_lets +onlyGivenNames x; first | (revert x; intro (x : Chip); refine Touch.cut (d := x) ?_ (fun hx => ?_); subst x; rotate_left; try clear_value x) | (revert x; intro (x : Chip × _); refine Touch.cut (d := x.1) ?_ (fun hx => ?_); subst x; rotate_left; try clear_value x) | skip)
    | (with_reducible first | exact Touch.refl | assumption | apply Touch.step (Chip.log_touch ..))
    | decide +kernel
    | split
    | (intro _; intros)
    | (clear_value *; split)

theorem Chip.busErrorEnd_touch (c : Chip) (n cause : Nat) (late : Option Nat) : Touch 0x8090c 0x10000180000028038000000000000000000000000000000000000000000000004 c (Chip.busErrorEnd c n cause late) := by
  unfold Chip.busErrorEnd
  repeat' first
    | (with_reducible first | exact Touch.refl | assumption | apply Touch.step (Chip.dmEnd_touch ..) | apply Touch.step (Chip.dmMod_touch ..) | apply Touch.step (Chip.dmSet_touch ..))
    | decide +kernel
    | split
    | (intro _; intros)
    | (clear_value *; split)

theorem Chip.stopFirst_touch (c : Chip) (n : Nat) : Touch 0x100104 0x8000000000000000000000000000000000000000000000000 c (Chip.stopFirst c n) := by
  unfold Chip.stopFirst
  repeat' first
    | (with_reducible first | exact Touch.refl | assumption | apply Touch.put | apply Touch.when | apply Touch.step (Chip.count_touch ..) | apply Touch.step (Chip.send_touch ..))
    | decide +kernel
    | (with_reducible apply Touch.upd) <;> first | (intro p; cases p <;> dsimp only [Part.same] <;> first | exact Or.inl (by decide +kernel) | exact Or.inr rfl) | (with_reducible first | exact Touch.refl | assumption | apply Touch.put | apply Touch.when | apply Touch.step (Chip.count_touch ..) | apply Touch.step (Chip.send_touch ..)) | split
    | split
    | (intro _; intros)
    | (clear_value *; split)

theorem Chip.busStop_touch (c : Chip) (n : Nat) : Touch 0x100104 0x20038000000000000000000000000000000000000000000000000 c (Chip.busStop c n) := by
  unfold Chip.busStop
  repeat' first
    | (fail_if_no_progress extract_lets +onlyGivenNames x; first | (revert x; intro (x : Chip); refine Touch.cut (d := x) ?_ (fun hx => ?_); subst x; rotate_left; try clear_value x) | (revert x; intro (x : Chip × _); refine Touch.cut (d := x.1) ?_ (fun hx => ?_); subst x; rotate_left; try clear_value x) | skip)
    | (with_reducible first | exact Touch.refl | assumption | apply Touch.each | apply Touch.put | apply Touch.step (Chip.dmSet_touch ..) | apply Touch.step (Chip.stopFirst_touch ..))
    | decide +kernel
    | split
    | (intro _; intros)
    | (clear_value *; split)

theorem Chip.busErrorAt_touch (c : Chip) (n idx cause addr : Nat) (wr index : Bool) (late : Option Nat) : Touch 0x18090c 0x1000018000e028038000000000000000000000000000000000000000000000004 c (Chip.busErrorAt c n idx cause addr wr index late) := by
  unfold Chip.busErrorAt
  repeat' first
    | (with_reducible first | exact Touch.refl | assumption | apply Touch.step (Chip.busErrorEnd_touch ..) | apply Touch.step (Chip.busErrorLog_touch ..) | apply Touch.step (Chip.busStop_touch ..) | apply Touch.step (Chip.dmFaultRegs_touch ..))
    | decide +kernel
    | split
    | (intro _; intros)
    | (clear_value *; split)

theorem Chip.busError_touch (c : Chip) (n cause addr : Nat) (wr index : Bool) (late : Option Nat) : Touch 0x18090c 0x1000018000e028038000000000000000000000000000000000000000000000004 c (Chip.busError c n cause addr wr index late) := by
  unfold Chip.busError
  repeat' first
    | (with_reducible first | exact Touch.refl | assumption | apply Touch.step (Chip.busErrorAt_touch ..))
    | decide +kernel
    | split
    | (intro _; intros)
    | (clear_value *; split)

theorem Chip.dmRelease_touch (c : Chip) (mask : Nat) : Touch 0x108 0x180000020038000000000000000000000000000000000000000000000004 c (Chip.dmRelease c mask) := by
  unfold Chip.dmRelease
  repeat' first
    | (with_reducible first | exact Touch.refl | assumption | apply Touch.each | apply Touch.step (Chip.dmGo_touch ..) | apply Touch.step (Chip.dmSet_touch ..) | apply Touch.step (Chip.dmStopEnd_touch ..))
    | decide +kernel
    | split
    | (intro _; intros)
    | (clear_value *; split)

theorem Chip.dmClear_touch (c : Chip) (n : Nat) : Touch 0x100 0xe020038000000000000000000000000000000000000000000000000 c (Chip.dmClear c n) := by
  unfold Chip.dmClear
  repeat' first
    | (fail_if_no_progress extract_lets +onlyGivenNames x; first | (revert x; intro (x : Chip); refine Touch.cut (d := x) ?_ (fun hx => ?_); subst x; rotate_left; try clear_value x) | (revert x; intro (x : Chip × _); refine Touch.cut (d := x.1) ?_ (fun hx => ?_); subst x; rotate_left; try clear_value x) | skip)
    | (with_reducible first | exact Touch.refl | assumption | apply Touch.put64i | apply Touch.wri | apply Touch.step (Chip.dmGo_touch ..) | apply Touch.step (Chip.dmSet_touch ..))
    | decide +kernel
    | split
    | (intro _; intros)
    | (clear_value *; split)

theorem Chip.dmSwreq_touch (c : Chip) (mask : Nat) : Touch 0x108 0x180000000c00000000000000000000000000000000000000000000000004 c (Chip.dmSwreq c mask) := by
  unfold Chip.dmSwreq
  repeat' first
    | (fail_if_no_progress extract_lets +onlyGivenNames x; first | (revert x; intro (x : Chip); refine Touch.cut (d := x) ?_ (fun hx => ?_); subst x; rotate_left; try clear_value x) | (revert x; intro (x : Chip × _); refine Touch.cut (d := x.1) ?_ (fun hx => ?_); subst x; rotate_left; try clear_value x) | skip)
    | (with_reducible first | exact Touch.refl | assumption | apply Touch.each | apply Touch.step (Chip.log_touch ..) | apply Touch.step (Chip.swPut_touch ..))
    | decide +kernel
    | split
    | (intro _; intros)
    | (clear_value *; split)

theorem Chip.dmEnable_touch (c : Chip) (n : Nat) (on : Bool) : Touch 0x100 0x22038000000000000000000000000000000000000000000000000 c (Chip.dmEnable c n on) := by
  unfold Chip.dmEnable
  repeat' first
    | (fail_if_no_progress extract_lets +onlyGivenNames x; first | (revert x; intro (x : Chip); refine Touch.cut (d := x) ?_ (fun hx => ?_); subst x; rotate_left; try clear_value x) | (revert x; intro (x : Chip × _); refine Touch.cut (d := x.1) ?_ (fun hx => ?_); subst x; rotate_left; try clear_value x) | skip)
    | (with_reducible first | exact Touch.refl | assumption | apply Touch.puti | apply Touch.step (Chip.dmSet_touch ..))
    | decide +kernel
    | split
    | (intro _; intros)
    | (clear_value *; split)

theorem Chip.dmTail_touch (c : Chip) (req : Req) (n idx : Nat) : Touch 0x108 0x180000004000000000000000000000000000000000000000000000000004 c (Chip.dmTail c req n idx) := by
  unfold Chip.dmTail
  repeat' first
    | (with_reducible first | exact Touch.refl | assumption | apply Touch.puti | apply Touch.step (Chip.log_touch ..))
    | decide +kernel
    | split
    | (intro _; intros)
    | (clear_value *; split)

theorem Chip.dmReturn_touch (c : Chip) (n : Nat) : Touch 0x80100 0x10000000000022038000000000000000000000000000000000000000000000000 c (Chip.dmReturn c n) := by
  unfold Chip.dmReturn
  repeat' first
    | (fail_if_no_progress extract_lets +onlyGivenNames x; first | (revert x; intro (x : Chip); refine Touch.cut (d := x) ?_ (fun hx => ?_); subst x; rotate_left; try clear_value x) | (revert x; intro (x : Chip × _); refine Touch.cut (d := x.1) ?_ (fun hx => ?_); subst x; rotate_left; try clear_value x) | skip)
    | (with_reducible first | exact Touch.refl | assumption | apply Touch.puti | apply Touch.resetCopy 256 0xf100 0x800 | apply Touch.step (Chip.dmSet_touch ..))
    | decide +kernel
    | (with_reducible apply Touch.upd) <;> first | (intro p; cases p <;> dsimp only [Part.same] <;> first | exact Or.inl (by decide +kernel) | exact Or.inr rfl) | (with_reducible first | exact Touch.refl | assumption | apply Touch.puti | apply Touch.resetCopy 256 0xf100 0x800 | apply Touch.step (Chip.dmSet_touch ..)) | split
    | (intro h; constructor <;> simp only [R.DMA_CHn_BASE, R.DMA_CHn_STATUS, R.DMA_CHn_CUR_SRC_LO] <;> omega)
    | (intro off h1 h2; simp only [R.DMA_CHn_BASE, R.DMA_CHn_STATUS, R.DMA_CHn_CUR_SRC_LO] at h1 h2; exact covers_window (i := 256) (lo := 0xf100) (len := 0x800) (by decide +kernel) (by omega) (by omega))
    | split
    | (intro _; intros)
    | (clear_value *; split)

theorem Chip.dmFence_touch (c : Chip) (n : Nat) : Touch 0x8090c 0x1000018000002a038000000000000000000000000000000000000000000000004 c (Chip.dmFence c n) := by
  unfold Chip.dmFence
  repeat' first
    | (fail_if_no_progress extract_lets +onlyGivenNames x; first | (revert x; intro (x : Chip); refine Touch.cut (d := x) ?_ (fun hx => ?_); subst x; rotate_left; try clear_value x) | (revert x; intro (x : Chip × _); refine Touch.cut (d := x.1) ?_ (fun hx => ?_); subst x; rotate_left; try clear_value x) | skip)
    | (with_reducible first | exact Touch.refl | assumption | apply Touch.each | apply Touch.step (Chip.dmBack_touch ..) | apply Touch.step (Chip.dmEnd_touch ..) | apply Touch.step (Chip.dmReturn_touch ..) | apply Touch.step (Chip.dmStopEnd_touch ..))
    | decide +kernel
    | split
    | (intro _; intros)
    | (clear_value *; split)

end Sys2Proof.Machine
end

