-- ==== Sys2Proof/Laws/TouchDebugOps.lean ====
section
/-! SUPPORT. What each function of Machine/DebugOps.lean can change: the two masks of `Touch` (Laws/Touch.lean), parts and banks of registers. -/

set_option linter.unreachableTactic false
set_option linter.unusedTactic false
set_option linter.tactic.unusedName false
set_option linter.unnecessarySeqFocus false
set_option linter.unusedVariables false
set_option Elab.async false

namespace Sys2Proof.Machine

theorem Chip.setHalt_touch (c : Chip) (k st : Nat) : Touch 0x1100 0x2000000000000000000000000000000000000000000000000000000000 c (Chip.setHalt c k st) := by
  unfold Chip.setHalt
  repeat' first
    | (fail_if_no_progress extract_lets +onlyGivenNames x; first | (revert x; intro (x : Chip); refine Touch.cut (d := x) ?_ (fun hx => ?_); subst x; rotate_left; try clear_value x) | (revert x; intro (x : Chip × _); refine Touch.cut (d := x.1) ?_ (fun hx => ?_); subst x; rotate_left; try clear_value x) | skip)
    | (with_reducible first | exact Touch.refl | assumption | apply Touch.puti | apply Touch.step (Chip.noilTrans_touch ..))
    | decide +kernel
    | (with_reducible apply Touch.upd) <;> first | (intro p; cases p <;> dsimp only [Part.same] <;> first | exact Or.inl (by decide +kernel) | exact Or.inr rfl) | (with_reducible first | exact Touch.refl | assumption | apply Touch.puti | apply Touch.step (Chip.noilTrans_touch ..)) | split
    | split
    | (intro _; intros)
    | (clear_value *; split)

theorem Chip.dbgCore_touch (c : Chip) (code k cause : Nat) (last : Nat) : Touch 0x108 0x180000000000000000000000000000000000000000000000000000000004 c (Chip.dbgCore c code k cause last) := by
  unfold Chip.dbgCore
  repeat' first
    | (with_reducible first | exact Touch.refl | assumption | apply Touch.step (Chip.log_touch ..))
    | decide +kernel
    | split
    | (intro _; intros)
    | (clear_value *; split)

theorem Chip.breakOff_touch (c : Chip) : Touch 0x1108 0x20000182010000000000000000000000000000000000000000000000000000004 c (Chip.breakOff c) := by
  unfold Chip.breakOff
  repeat' first
    | (fail_if_no_progress extract_lets +onlyGivenNames x; first | (revert x; intro (x : Chip); refine Touch.cut (d := x) ?_ (fun hx => ?_); subst x; rotate_left; try clear_value x) | (revert x; intro (x : Chip × _); refine Touch.cut (d := x.1) ?_ (fun hx => ?_); subst x; rotate_left; try clear_value x) | skip)
    | (with_reducible first | exact Touch.refl | assumption | apply Touch.each | apply Touch.put | apply Touch.resetCopy 257 0x10100 0xc0 | apply Touch.step (Chip.dbgCore_touch ..) | apply Touch.step (Chip.setHalt_touch ..))
    | decide +kernel
    | (intro h; constructor <;> omega)
    | (intro off h1 h2; simp only [] at h1 h2; exact covers_window (i := 257) (lo := 0x10100) (len := 0xc0) (by decide +kernel) (by omega) (by omega))
    | split
    | (intro _; intros)
    | (clear_value *; split)

theorem Chip.traceCount_touch (c : Chip) : Touch 0x100 0x20000000000000000000000000000000000000000000000000000000 c (Chip.traceCount c) := by
  unfold Chip.traceCount
  repeat' first
    | (with_reducible first | exact Touch.refl | assumption | apply Touch.put)
    | decide +kernel
    | split
    | (intro _; intros)
    | (clear_value *; split)

theorem Chip.traceTake_touch (c : Chip) (t : Nat) : Touch 0x100 0x80020000080000000000000000000000000000000000000000000000000 c (Chip.traceTake c t) := by
  unfold Chip.traceTake
  repeat' first
    | (fail_if_no_progress extract_lets +onlyGivenNames x; first | (revert x; intro (x : Chip); refine Touch.cut (d := x) ?_ (fun hx => ?_); subst x; rotate_left; try clear_value x) | (revert x; intro (x : Chip × _); refine Touch.cut (d := x.1) ?_ (fun hx => ?_); subst x; rotate_left; try clear_value x) | skip)
    | (with_reducible first | exact Touch.refl | assumption | apply Touch.put | apply Touch.puti | apply Touch.step (Chip.trSet_touch ..) | apply Touch.step (Chip.traceCount_touch ..))
    | decide +kernel
    | split
    | (intro _; intros)
    | (clear_value *; split)

theorem Chip.traceOff_touch (c : Chip) : Touch 0x8090c 0x100001800300380b8000000000000000000000000000000000000000000000004 c (Chip.traceOff c) := by
  unfold Chip.traceOff
  repeat' first
    | (fail_if_no_progress extract_lets +onlyGivenNames x; first | (revert x; intro (x : Chip); refine Touch.cut (d := x) ?_ (fun hx => ?_); subst x; rotate_left; try clear_value x) | (revert x; intro (x : Chip × _); refine Touch.cut (d := x.1) ?_ (fun hx => ?_); subst x; rotate_left; try clear_value x) | skip)
    | (with_reducible first | exact Touch.refl | assumption | apply Touch.each | apply Touch.put | apply Touch.step (Chip.dmUnline_touch ..) | apply Touch.step (Chip.trSet_touch ..) | apply Touch.step (Chip.traceTake_touch ..))
    | decide +kernel
    | split
    | (intro _; intros)
    | (clear_value *; split)

theorem Chip.counterOff_touch (c : Chip) : Touch 0x8090c 0x10000180010038138000000000000000000000000000000000000000000000004 c (Chip.counterOff c) := by
  unfold Chip.counterOff
  repeat' first
    | (fail_if_no_progress extract_lets +onlyGivenNames x; first | (revert x; intro (x : Chip); refine Touch.cut (d := x) ?_ (fun hx => ?_); subst x; rotate_left; try clear_value x) | (revert x; intro (x : Chip × _); refine Touch.cut (d := x.1) ?_ (fun hx => ?_); subst x; rotate_left; try clear_value x) | skip)
    | (with_reducible first | exact Touch.refl | assumption | apply Touch.put | apply Touch.step (Chip.dmUnline_touch ..))
    | decide +kernel
    | (with_reducible apply Touch.upd) <;> first | (intro p; cases p <;> dsimp only [Part.same] <;> first | exact Or.inl (by decide +kernel) | exact Or.inr rfl) | (with_reducible first | exact Touch.refl | assumption | apply Touch.put | apply Touch.step (Chip.dmUnline_touch ..)) | split
    | split
    | (intro _; intros)
    | (clear_value *; split)

theorem Chip.facilityOff_touch (c : Chip) (kind : Nat) : Touch 0x8190c 0x300001820300381b8000000000000000000000000000000000000000000000004 c (Chip.facilityOff c kind) := by
  unfold Chip.facilityOff
  repeat' first
    | (with_reducible first | exact Touch.refl | assumption | apply Touch.step (Chip.breakOff_touch ..) | apply Touch.step (Chip.counterOff_touch ..) | apply Touch.step (Chip.traceOff_touch ..))
    | decide +kernel
    | split
    | (intro _; intros)
    | (clear_value *; split)

end Sys2Proof.Machine
end

