-- ==== Sys2Proof/Laws/TouchHankOps.lean ====
section
/-! SUPPORT. What each function of Machine/HankOps.lean can change: the two masks of `Touch` (Laws/Touch.lean), parts and banks of registers. -/

set_option linter.unreachableTactic false
set_option linter.unusedTactic false
set_option linter.tactic.unusedName false
set_option linter.unnecessarySeqFocus false
set_option linter.unusedVariables false
set_option Elab.async false

namespace Sys2Proof.Machine

theorem Chip.objLog_touch (c : Chip) (code h kind owner : Nat) (st : Status) (seq : Nat) (d : List Byte) : Touch 0x108 0x180000000000000000000000000000000000000000000000000000000004 c (Chip.objLog c code h kind owner st seq d) := by
  unfold Chip.objLog
  repeat' first
    | (with_reducible first | exact Touch.refl | assumption | apply Touch.step (Chip.log_touch ..))
    | decide +kernel
    | split
    | (intro _; intros)
    | (clear_value *; split)

theorem Chip.facilities_touch (c : Chip) : Touch 0x8190c 0x300001820300381b8000000000000000000000000000000000000000000000004 c (Chip.facilities c) := by
  unfold Chip.facilities
  repeat' first
    | (with_reducible first | exact Touch.refl | assumption | apply Touch.each | apply Touch.step (Chip.facilityOff_touch ..))
    | decide +kernel
    | split
    | (intro _; intros)
    | (clear_value *; split)

theorem Chip.freezeCkpt_touch (c : Chip) (h : Nat) : Touch 0x103011c 0x180000000000000000000000080300000000000022000000000000000004 c (Chip.freezeCkpt c h) := by
  unfold Chip.freezeCkpt
  repeat' first
    | (fail_if_no_progress extract_lets +onlyGivenNames x; first | (revert x; intro (x : Chip); refine Touch.cut (d := x) ?_ (fun hx => ?_); subst x; rotate_left; try clear_value x) | (revert x; intro (x : Chip × _); refine Touch.cut (d := x.1) ?_ (fun hx => ?_); subst x; rotate_left; try clear_value x) | skip)
    | (with_reducible first | exact Touch.refl | assumption | apply Touch.each | apply Touch.step (Chip.freezeBob_touch ..) | apply Touch.step (Chip.jWrite_touch ..))
    | decide +kernel
    | split
    | (intro _; intros)
    | (clear_value *; split)

theorem Chip.consentEnd_touch (c : Chip) (h kind : Nat) : Touch 0x14b191c 0x300001820300381b8000000000000080300000000000022000000000000000004 c (Chip.consentEnd c h kind) := by
  unfold Chip.consentEnd
  repeat' first
    | (fail_if_no_progress extract_lets +onlyGivenNames x; first | (revert x; intro (x : Chip); refine Touch.cut (d := x) ?_ (fun hx => ?_); subst x; rotate_left; try clear_value x) | (revert x; intro (x : Chip × _); refine Touch.cut (d := x.1) ?_ (fun hx => ?_); subst x; rotate_left; try clear_value x) | skip)
    | (with_reducible first | exact Touch.refl | assumption | apply Touch.put | apply Touch.step (Chip.facilities_touch ..) | apply Touch.step (Chip.freezeCkpt_touch ..) | apply Touch.step (Chip.hankMod_touch ..) | apply Touch.step (Chip.objLog_touch ..))
    | decide +kernel
    | split
    | (intro _; intros)
    | (clear_value *; split)

theorem Chip.consentBegin_touch (c : Chip) (h : Nat) (b : List Byte) (d : List Byte) (owners : List Nat) : Touch 0xc00108 0x180000000000000000100000000000000000000000000000000000000004 c (Chip.consentBegin c h b d owners).1 := by
  unfold Chip.consentBegin
  repeat' first
    | (fail_if_no_progress extract_lets +onlyGivenNames x; first | (revert x; intro (x : Chip); refine Touch.cut (d := x) ?_ (fun hx => ?_); subst x; rotate_left; try clear_value x) | (revert x; intro (x : Chip × _); refine Touch.cut (d := x.1) ?_ (fun hx => ?_); subst x; rotate_left; try clear_value x) | skip)
    | (with_reducible first | exact Touch.refl | assumption | apply Touch.step (Chip.hankMod_touch ..) | apply Touch.step (Chip.log_touch ..) | apply Touch.step (Chip.objLog_touch ..) | apply Touch.step (Chip.rcAccept_touch ..))
    | decide +kernel
    | split
    | (intro _; intros)
    | (clear_value *; split)

theorem Chip.scrubDie_touch (c : Chip) (h op strand launch number n : Nat) : Touch 0x144010e 0x180000000000000000000004000000000003000000000000000000000004 c (Chip.scrubDie c h op strand launch number n) := by
  unfold Chip.scrubDie
  repeat' first
    | (fail_if_no_progress extract_lets +onlyGivenNames x; first | (revert x; intro (x : Chip); refine Touch.cut (d := x) ?_ (fun hx => ?_); subst x; rotate_left; try clear_value x) | (revert x; intro (x : Chip × _); refine Touch.cut (d := x.1) ?_ (fun hx => ?_); subst x; rotate_left; try clear_value x) | (revert x; intro (x : _ × Chip); refine Touch.cut (d := x.2) ?_ (fun hx => ?_); subst x; rotate_left; try clear_value x) | (revert x; intro (x : _ × _ × Chip); refine Touch.cut (d := x.2.2) ?_ (fun hx => ?_); subst x; rotate_left; try clear_value x) | skip)
    | (with_reducible first | exact Touch.refl | assumption | apply Touch.step (Chip.hankMod_touch ..) | apply Touch.step (Chip.mirrorThen_touch ..) | apply Touch.step (Chip.rnd_touch ..))
    | decide +kernel
    | split
    | (intro _; intros)
    | (clear_value *; split)

theorem Chip.scrubAll_touch (c : Chip) (h op strand launch : Nat) (dies : List Nat) : Touch 0x144010e 0x180000000000000000000004000000000003000000000000000000000004 c (Chip.scrubAll c h op strand launch dies) := by
  unfold Chip.scrubAll
  repeat' first
    | (fail_if_no_progress extract_lets +onlyGivenNames x; first | (revert x; intro (x : Chip); refine Touch.cut (d := x) ?_ (fun hx => ?_); subst x; rotate_left; try clear_value x) | (revert x; intro (x : Chip × _); refine Touch.cut (d := x.1) ?_ (fun hx => ?_); subst x; rotate_left; try clear_value x) | skip)
    | (with_reducible first | exact Touch.refl | assumption | apply Touch.each | apply Touch.step (Chip.ha_touch ..) | apply Touch.step (Chip.scrubDie_touch ..))
    | decide +kernel
    | split
    | (intro _; intros)
    | (clear_value *; split)

theorem Chip.scrubTell_touch (c : Chip) (h op : Nat) : Touch 0x11c 0x180000000000000000000000000000000000000000000000000000000004 c (Chip.scrubTell c h op) := by
  unfold Chip.scrubTell
  repeat' first
    | (with_reducible first | exact Touch.refl | assumption | apply Touch.each | apply Touch.step (Chip.ringSend_touch ..))
    | decide +kernel
    | split
    | (intro _; intros)
    | (clear_value *; split)

theorem Chip.scrubLog_touch (c : Chip) (code h n number : Nat) : Touch 0x108 0x180000000000000000000000000000000000000000000000000000000004 c (Chip.scrubLog c code h n number) := by
  unfold Chip.scrubLog
  repeat' first
    | (with_reducible first | exact Touch.refl | assumption | apply Touch.step (Chip.log_touch ..))
    | decide +kernel
    | split
    | (intro _; intros)
    | (clear_value *; split)

theorem Chip.hankFail_touch (c : Chip) (h : Nat) : Touch 0x400108 0x180000000000000000000000000000000000000000000000000000000004 c (Chip.hankFail c h) := by
  unfold Chip.hankFail
  repeat' first
    | (with_reducible first | exact Touch.refl | assumption | apply Touch.step (Chip.hankMod_touch ..) | apply Touch.step (Chip.objLog_touch ..))
    | decide +kernel
    | split
    | (intro _; intros)
    | (clear_value *; split)

theorem Chip.scrubFail_touch (c : Chip) (h n number : Nat) : Touch 0x1c5813e 0x180000000000000203800004000000000003000000000000000000004184 c (Chip.scrubFail c h n number) := by
  unfold Chip.scrubFail
  repeat' first
    | (fail_if_no_progress extract_lets +onlyGivenNames x; first | (revert x; intro (x : Chip); refine Touch.cut (d := x) ?_ (fun hx => ?_); subst x; rotate_left; try clear_value x) | (revert x; intro (x : Chip × _); refine Touch.cut (d := x.1) ?_ (fun hx => ?_); subst x; rotate_left; try clear_value x) | skip)
    | (with_reducible first | exact Touch.refl | assumption | apply Touch.step (Chip.cardWithdraw_touch ..) | apply Touch.step (Chip.hankFail_touch ..) | apply Touch.step (Chip.hankMod_touch ..) | apply Touch.step (Chip.scrubLog_touch ..) | apply Touch.step (Chip.twDieLeft_touch ..))
    | decide +kernel
    | split
    | (intro _; intros)
    | (clear_value *; split)

theorem Chip.switchDone_touch (c : Chip) (h : Nat) : Touch 0x400108 0x180000000000000000000000000000000000000000000000000000000004 c (Chip.switchDone c h) := by
  unfold Chip.switchDone
  repeat' first
    | (fail_if_no_progress extract_lets +onlyGivenNames x; first | (revert x; intro (x : Chip); refine Touch.cut (d := x) ?_ (fun hx => ?_); subst x; rotate_left; try clear_value x) | (revert x; intro (x : Chip × _); refine Touch.cut (d := x.1) ?_ (fun hx => ?_); subst x; rotate_left; try clear_value x) | skip)
    | (with_reducible first | exact Touch.refl | assumption | apply Touch.step (Chip.hankMod_touch ..) | apply Touch.step (Chip.log_touch ..))
    | decide +kernel
    | split
    | (intro _; intros)
    | (clear_value *; split)

theorem Chip.scrubbed_touch (c : Chip) (m : Inbox) : Touch 0x1c5813e 0x180000000000000203800004000000000003000000000000000000004184 c (Chip.scrubbed c m) := by
  unfold Chip.scrubbed
  repeat' first
    | (fail_if_no_progress extract_lets +onlyGivenNames x; first | (revert x; intro (x : Chip); refine Touch.cut (d := x) ?_ (fun hx => ?_); subst x; rotate_left; try clear_value x) | (revert x; intro (x : Chip × _); refine Touch.cut (d := x.1) ?_ (fun hx => ?_); subst x; rotate_left; try clear_value x) | skip)
    | (with_reducible first | exact Touch.refl | assumption | apply Touch.step (Chip.cardWithdraw_touch ..) | apply Touch.step (Chip.ha_touch ..) | apply Touch.step (Chip.hankMod_touch ..) | apply Touch.step (Chip.scrubFail_touch ..) | apply Touch.step (Chip.scrubLog_touch ..) | apply Touch.step (Chip.switchDone_touch ..))
    | decide +kernel
    | split
    | (intro _; intros)
    | (clear_value *; split)

theorem Chip.hankReleased_touch (c : Chip) (n : Nat) : Touch 0x1c7013e 0x180000000000000003800004180300000003000022000000000000000004 c (Chip.hankReleased c n) := by
  unfold Chip.hankReleased
  repeat' first
    | (fail_if_no_progress extract_lets +onlyGivenNames x; first | (revert x; intro (x : Chip); refine Touch.cut (d := x) ?_ (fun hx => ?_); subst x; rotate_left; try clear_value x) | (revert x; intro (x : Chip × _); refine Touch.cut (d := x.1) ?_ (fun hx => ?_); subst x; rotate_left; try clear_value x) | skip)
    | (with_reducible first | exact Touch.refl | assumption | apply Touch.step (Chip.scrubAll_touch ..) | apply Touch.step (Chip.twReleased_touch ..))
    | decide +kernel
    | split
    | (intro _; intros)
    | (clear_value *; split)

theorem Chip.strandArm_touch (c : Chip) (n : Nat) : Touch 0x144010e 0x180000000000000000000004000000000003000000000000000000000004 c (Chip.strandArm c n) := by
  unfold Chip.strandArm
  repeat' first
    | (fail_if_no_progress extract_lets +onlyGivenNames x; first | (revert x; intro (x : Chip); refine Touch.cut (d := x) ?_ (fun hx => ?_); subst x; rotate_left; try clear_value x) | (revert x; intro (x : Chip × _); refine Touch.cut (d := x.1) ?_ (fun hx => ?_); subst x; rotate_left; try clear_value x) | skip)
    | (with_reducible first | exact Touch.refl | assumption | apply Touch.step (Chip.hankMod_touch ..) | apply Touch.step (Chip.scrubAll_touch ..))
    | decide +kernel
    | split
    | (intro _; intros)
    | (clear_value *; split)

theorem Chip.strandFire_touch (c : Chip) (num : Nat) : Touch 0x1c1093c 0x180000000000000203800000088380000003000000000000000000000004 c (Chip.strandFire c num) := by
  unfold Chip.strandFire
  repeat' first
    | (fail_if_no_progress extract_lets +onlyGivenNames x; first | (revert x; intro (x : Chip); refine Touch.cut (d := x) ?_ (fun hx => ?_); subst x; rotate_left; try clear_value x) | (revert x; intro (x : Chip × _); refine Touch.cut (d := x.1) ?_ (fun hx => ?_); subst x; rotate_left; try clear_value x) | skip)
    | (with_reducible first | exact Touch.refl | assumption | apply Touch.each | apply Touch.step (Chip.hankMod_touch ..) | apply Touch.step (Chip.jWrite_touch ..) | apply Touch.step (Chip.reenc_touch ..) | apply Touch.step (Chip.resumeBob_touch ..) | apply Touch.step (Chip.twStrand_touch ..))
    | decide +kernel
    | split
    | (intro _; intros)
    | (clear_value *; split)

theorem Chip.switches_touch (c : Chip) : Touch 0x40011c 0x180000000000000000000000000000000000000000000000000000000004 c (Chip.switches c) := by
  unfold Chip.switches
  repeat' first
    | (fail_if_no_progress extract_lets +onlyGivenNames x; first | (revert x; intro (x : Chip); refine Touch.cut (d := x) ?_ (fun hx => ?_); subst x; rotate_left; try clear_value x) | (revert x; intro (x : Chip × _); refine Touch.cut (d := x.1) ?_ (fun hx => ?_); subst x; rotate_left; try clear_value x) | skip)
    | (with_reducible first | exact Touch.refl | assumption | apply Touch.each | apply Touch.step (Chip.hankMod_touch ..) | apply Touch.step (Chip.scrubTell_touch ..) | apply Touch.step (Chip.switchDone_touch ..))
    | decide +kernel
    | split
    | (intro _; intros)
    | (clear_value *; split)

theorem Chip.hankFree_touch (c : Chip) (h : Nat) : Touch 0x410100 0x10000000000000000000100000000000000000000000000000000000 c (Chip.hankFree c h) := by
  unfold Chip.hankFree
  repeat' first
    | (fail_if_no_progress extract_lets +onlyGivenNames x; first | (revert x; intro (x : Chip); refine Touch.cut (d := x) ?_ (fun hx => ?_); subst x; rotate_left; try clear_value x) | (revert x; intro (x : Chip × _); refine Touch.cut (d := x.1) ?_ (fun hx => ?_); subst x; rotate_left; try clear_value x) | skip)
    | (with_reducible first | exact Touch.refl | assumption | apply Touch.put | apply Touch.puti | apply Touch.step (Chip.cu_touch ..) | apply Touch.step (Chip.ha_touch ..))
    | decide +kernel
    | split
    | (intro _; intros)
    | (clear_value *; split)

theorem Chip.gathered_touch (c : Chip) (h : Nat) : Touch 0x401908 0x180000000000000000000000000000000000000000000000000000000004 c (Chip.gathered c h) := by
  unfold Chip.gathered
  repeat' first
    | (fail_if_no_progress extract_lets +onlyGivenNames x; first | (revert x; intro (x : Chip); refine Touch.cut (d := x) ?_ (fun hx => ?_); subst x; rotate_left; try clear_value x) | (revert x; intro (x : Chip × _); refine Touch.cut (d := x.1) ?_ (fun hx => ?_); subst x; rotate_left; try clear_value x) | skip)
    | (with_reducible first | exact Touch.refl | assumption | apply Touch.step (Chip.finishCall_touch ..) | apply Touch.step (Chip.ha_touch ..) | apply Touch.step (Chip.hankMod_touch ..))
    | decide +kernel
    | split
    | (intro _; intros)
    | (clear_value *; split)

theorem Chip.shareIn_touch (c : Chip) (p : Pend) : Touch 0x140010c 0x180000000000000000000000000000000003000000000000000000000004 c (Chip.shareIn c p).1 := by
  unfold Chip.shareIn
  repeat' first
    | (fail_if_no_progress extract_lets +onlyGivenNames x; first | (revert x; intro (x : Chip); refine Touch.cut (d := x) ?_ (fun hx => ?_); subst x; rotate_left; try clear_value x) | (revert x; intro (x : Chip × _); refine Touch.cut (d := x.1) ?_ (fun hx => ?_); subst x; rotate_left; try clear_value x) | skip)
    | (with_reducible first | exact Touch.refl | assumption | apply Touch.step (Chip.hankMod_touch ..) | apply Touch.step (Chip.mirrorItem_touch ..) | apply Touch.step (Chip.objLog_touch ..))
    | decide +kernel
    | split
    | (intro _; intros)
    | (clear_value *; split)

theorem Chip.teardown_touch (c : Chip) (h : Nat) : Touch 0x1cb193c 0x300001820300381b8000283d00000180300000003000022000000000000000004 c (Chip.teardown c h) := by
  unfold Chip.teardown
  repeat' first
    | (fail_if_no_progress extract_lets +onlyGivenNames x; first | (revert x; intro (x : Chip); refine Touch.cut (d := x) ?_ (fun hx => ?_); subst x; rotate_left; try clear_value x) | (revert x; intro (x : Chip × _); refine Touch.cut (d := x.1) ?_ (fun hx => ?_); subst x; rotate_left; try clear_value x) | skip)
    | (with_reducible first | exact Touch.refl | assumption | apply Touch.each | apply Touch.step (Chip.consentEnd_touch ..) | apply Touch.step (Chip.finishCall_touch ..) | apply Touch.step (Chip.hankFree_touch ..) | apply Touch.step (Chip.hankMod_touch ..) | apply Touch.step (Chip.twClose_touch ..))
    | decide +kernel
    | split
    | (intro _; intros)
    | (clear_value *; split)

theorem Chip.dropBobs_touch (c : Chip) (ids : List Nat) : Touch 0x103011c 0x180000000000000000000000088300000000000020000000000000000004 c (Chip.dropBobs c ids) := by
  unfold Chip.dropBobs
  repeat' first
    | (fail_if_no_progress extract_lets +onlyGivenNames x; first | (revert x; intro (x : Chip); refine Touch.cut (d := x) ?_ (fun hx => ?_); subst x; rotate_left; try clear_value x) | (revert x; intro (x : Chip × _); refine Touch.cut (d := x.1) ?_ (fun hx => ?_); subst x; rotate_left; try clear_value x) | skip)
    | (with_reducible first | exact Touch.refl | assumption | apply Touch.each | apply Touch.step (Chip.destroyBob_touch ..) | apply Touch.step (Chip.discard_touch ..) | apply Touch.step (Chip.jWrite_touch ..))
    | decide +kernel
    | split
    | (intro _; intros)
    | (clear_value *; split)

theorem Chip.makeBob_touch (c : Chip) (id : Nat) (b : Bob) : Touch 0x101012c 0x180000000000000000000000000000000000000000000000000000000004 c (Chip.makeBob c id b) := by
  unfold Chip.makeBob
  repeat' first
    | (fail_if_no_progress extract_lets +onlyGivenNames x; first | (revert x; intro (x : Chip); refine Touch.cut (d := x) ?_ (fun hx => ?_); subst x; rotate_left; try clear_value x) | (revert x; intro (x : Chip × _); refine Touch.cut (d := x.1) ?_ (fun hx => ?_); subst x; rotate_left; try clear_value x) | skip)
    | (with_reducible first | exact Touch.refl | assumption | apply Touch.step (Chip.blobWrite_touch ..) | apply Touch.step (Chip.bobNew_touch ..) | apply Touch.step (Chip.derive_touch ..) | apply Touch.step (Chip.warpDesc_touch ..))
    | decide +kernel
    | split
    | (intro _; intros)
    | (clear_value *; split)

theorem Chip.makeRanges_touch (c : Chip) (h : Nat) (k : Hank) (rs : List RangeEnt) : Touch 0x101012c 0x180000000000000000000000000000000000000000000000000000000004 c (Chip.makeRanges c h k rs) := by
  unfold Chip.makeRanges
  repeat' first
    | (fail_if_no_progress extract_lets +onlyGivenNames x; first | (revert x; intro (x : Chip); refine Touch.cut (d := x) ?_ (fun hx => ?_); subst x; rotate_left; try clear_value x) | (revert x; intro (x : Chip × _); refine Touch.cut (d := x.1) ?_ (fun hx => ?_); subst x; rotate_left; try clear_value x) | skip)
    | (with_reducible first | exact Touch.refl | assumption | apply Touch.each | apply Touch.step (Chip.makeBob_touch ..))
    | decide +kernel
    | split
    | (intro _; intros)
    | (clear_value *; split)

theorem Chip.strandSet_touch (c : Chip) (h : Nat) (b : List Byte) : Touch 0x143013c 0x180000000000000000000000088300000000000020000000000000000004 c (Chip.strandSet c h b) := by
  unfold Chip.strandSet
  repeat' first
    | (fail_if_no_progress extract_lets +onlyGivenNames x; first | (revert x; intro (x : Chip); refine Touch.cut (d := x) ?_ (fun hx => ?_); subst x; rotate_left; try clear_value x) | (revert x; intro (x : Chip × _); refine Touch.cut (d := x.1) ?_ (fun hx => ?_); subst x; rotate_left; try clear_value x) | skip)
    | (with_reducible first | exact Touch.refl | assumption | apply Touch.each | apply Touch.step (Chip.dropBobs_touch ..) | apply Touch.step (Chip.hankMod_touch ..) | apply Touch.step (Chip.jWrite_touch ..) | apply Touch.step (Chip.makeRanges_touch ..))
    | decide +kernel
    | split
    | (intro _; intros)
    | (clear_value *; split)

theorem Chip.objEffect_touch (c : Chip) (p : Pend) : Touch 0x1cb193c 0x300001820300381b8000283d00000188300000003000022000000000000000004 c (Chip.objEffect c p) := by
  unfold Chip.objEffect
  repeat' first
    | (fail_if_no_progress extract_lets +onlyGivenNames x; first | (revert x; intro (x : Chip); refine Touch.cut (d := x) ?_ (fun hx => ?_); subst x; rotate_left; try clear_value x) | (revert x; intro (x : Chip × _); refine Touch.cut (d := x.1) ?_ (fun hx => ?_); subst x; rotate_left; try clear_value x) | skip)
    | (with_reducible first | exact Touch.refl | assumption | apply Touch.step (Chip.consentBegin_touch ..) | apply Touch.step (Chip.consentEnd_touch ..) | apply Touch.step (Chip.finishCall_touch ..) | apply Touch.step (Chip.gathered_touch ..) | apply Touch.step (Chip.ha_touch ..) | apply Touch.step (Chip.hankMod_touch ..) | apply Touch.step (Chip.shareIn_touch ..) | apply Touch.step (Chip.strandSet_touch ..) | apply Touch.step (Chip.teardown_touch ..))
    | decide +kernel
    | split
    | (intro _; intros)
    | (clear_value *; split)

theorem Chip.objOvertaken_touch (c : Chip) (h key seq : Nat) : Touch 0x401908 0x180000000000000000000000000000000000000000000000000000000004 c (Chip.objOvertaken c h key seq) := by
  unfold Chip.objOvertaken
  repeat' first
    | (fail_if_no_progress extract_lets +onlyGivenNames x; first | (revert x; intro (x : Chip); refine Touch.cut (d := x) ?_ (fun hx => ?_); subst x; rotate_left; try clear_value x) | (revert x; intro (x : Chip × _); refine Touch.cut (d := x.1) ?_ (fun hx => ?_); subst x; rotate_left; try clear_value x) | skip)
    | (with_reducible first | exact Touch.refl | assumption | apply Touch.each | apply Touch.step (Chip.finishCall_touch ..) | apply Touch.step (Chip.ha_touch ..) | apply Touch.step (Chip.objLog_touch ..))
    | decide +kernel
    | split
    | (intro _; intros)
    | (clear_value *; split)

theorem Chip.objReady_touch (c : Chip) (d : List Byte) : Touch 0x1cb193c 0x300001820300381b8000283d00000188300000003000022000000000000000004 c (Chip.objReady c d) := by
  unfold Chip.objReady
  repeat' first
    | (fail_if_no_progress extract_lets +onlyGivenNames x; first | (revert x; intro (x : Chip); refine Touch.cut (d := x) ?_ (fun hx => ?_); subst x; rotate_left; try clear_value x) | (revert x; intro (x : Chip × _); refine Touch.cut (d := x.1) ?_ (fun hx => ?_); subst x; rotate_left; try clear_value x) | skip)
    | (with_reducible first | exact Touch.refl | assumption | apply Touch.step (Chip.gathered_touch ..) | apply Touch.step (Chip.hankMod_touch ..) | apply Touch.step (Chip.objEffect_touch ..) | apply Touch.step (Chip.objOvertaken_touch ..))
    | decide +kernel
    | split
    | (intro _; intros)
    | (clear_value *; split)

theorem Chip.bodyIn_touch (c : Chip) (b : List Byte) (ticket : Nat) (fits : Bool) : Touch 0x140010c 0x180000000000000000000000000000000003000000000000000000000004 c (Chip.bodyIn c b ticket fits).1 := by
  unfold Chip.bodyIn
  repeat' first
    | (fail_if_no_progress extract_lets +onlyGivenNames x; first | (revert x; intro (x : Chip); refine Touch.cut (d := x) ?_ (fun hx => ?_); subst x; rotate_left; try clear_value x) | (revert x; intro (x : Chip × _); refine Touch.cut (d := x.1) ?_ (fun hx => ?_); subst x; rotate_left; try clear_value x) | skip)
    | (with_reducible first | exact Touch.refl | assumption | apply Touch.step (Chip.ha_touch ..) | apply Touch.step (Chip.mirrorItem_touch ..) | apply Touch.step (Chip.objLog_touch ..))
    | decide +kernel
    | split
    | (intro _; intros)
    | (clear_value *; split)

theorem Chip.endorse_touch (c : Chip) (e : List Byte) (genuine : Bool) : Touch 0x1cb193c 0x300001820300381b8000283d00000188300000003000022000000000000000004 c (Chip.endorse c e genuine).1 := by
  unfold Chip.endorse
  repeat' first
    | (fail_if_no_progress extract_lets +onlyGivenNames x; first | (revert x; intro (x : Chip); refine Touch.cut (d := x) ?_ (fun hx => ?_); subst x; rotate_left; try clear_value x) | (revert x; intro (x : Chip × _); refine Touch.cut (d := x.1) ?_ (fun hx => ?_); subst x; rotate_left; try clear_value x) | skip)
    | (with_reducible first | exact Touch.refl | assumption | apply Touch.step (Chip.ha_touch ..) | apply Touch.step (Chip.mirrorItem_touch ..) | apply Touch.step (Chip.objLog_touch ..) | apply Touch.step (Chip.objReady_touch ..))
    | decide +kernel
    | split
    | (intro _; intros)
    | (clear_value *; split)

theorem Chip.objExpire_touch (c : Chip) (p : Pend) : Touch 0x411908 0x180010000000000000000000100000000000000000000000000000000004 c (Chip.objExpire c p) := by
  unfold Chip.objExpire
  repeat' first
    | (fail_if_no_progress extract_lets +onlyGivenNames x; first | (revert x; intro (x : Chip); refine Touch.cut (d := x) ?_ (fun hx => ?_); subst x; rotate_left; try clear_value x) | (revert x; intro (x : Chip × _); refine Touch.cut (d := x.1) ?_ (fun hx => ?_); subst x; rotate_left; try clear_value x) | skip)
    | (with_reducible first | exact Touch.refl | assumption | apply Touch.step (Chip.finishCall_touch ..) | apply Touch.step (Chip.ha_touch ..) | apply Touch.step (Chip.hankFree_touch ..) | apply Touch.step (Chip.objLog_touch ..))
    | decide +kernel
    | split
    | (intro _; intros)
    | (clear_value *; split)

theorem Chip.hankKeyed_touch (c : Chip) (h : Nat) (key : List Byte) : Touch 0x410100 0x100000000000000000000000000000000000 c (Chip.hankKeyed c h key) := by
  unfold Chip.hankKeyed
  repeat' first
    | (fail_if_no_progress extract_lets +onlyGivenNames x; first | (revert x; intro (x : Chip); refine Touch.cut (d := x) ?_ (fun hx => ?_); subst x; rotate_left; try clear_value x) | (revert x; intro (x : Chip × _); refine Touch.cut (d := x.1) ?_ (fun hx => ?_); subst x; rotate_left; try clear_value x) | skip)
    | (with_reducible first | exact Touch.refl | assumption | apply Touch.puti | apply Touch.step (Chip.cu_touch ..) | apply Touch.step (Chip.hankMod_touch ..))
    | decide +kernel
    | split
    | (intro _; intros)
    | (clear_value *; split)

theorem Chip.keyingStep_touch (c : Chip) (h : Nat) : Touch 0x1cd192e 0x380001820300381b8000070c00004000300000003000000000000000000050004 c (Chip.keyingStep c h) := by
  unfold Chip.keyingStep
  repeat' first
    | (fail_if_no_progress extract_lets +onlyGivenNames x; first | (revert x; intro (x : Chip); refine Touch.cut (d := x) ?_ (fun hx => ?_); subst x; rotate_left; try clear_value x) | (revert x; intro (x : Chip × _); refine Touch.cut (d := x.1) ?_ (fun hx => ?_); subst x; rotate_left; try clear_value x) | skip)
    | (with_reducible first | exact Touch.refl | assumption | apply Touch.each | apply Touch.step (Chip.facilities_touch ..) | apply Touch.step (Chip.grpsReady_touch ..) | apply Touch.step (Chip.hankFail_touch ..) | apply Touch.step (Chip.hankMod_touch ..) | apply Touch.step (Chip.hold_touch ..) | apply Touch.step (Chip.jWrite_touch ..) | apply Touch.step (Chip.makeBob_touch ..) | apply Touch.step (Chip.makeRanges_touch ..) | apply Touch.step (Chip.mirrorItem_touch ..) | apply Touch.step (Chip.objLog_touch ..) | apply Touch.step (Chip.scrubAll_touch ..) | apply Touch.step (Chip.twOpen_touch ..))
    | decide +kernel
    | split
    | (intro _; intros)
    | (clear_value *; split)

theorem Chip.quietForce_touch (c : Chip) : Touch 0x108 0x180000000000000000000000000000000000000000000000000000070004 c (Chip.quietForce c) := by
  unfold Chip.quietForce
  repeat' first
    | (with_reducible first | exact Touch.refl | assumption | apply Touch.put | apply Touch.step (Chip.forced_touch ..))
    | decide +kernel
    | split
    | (intro _; intros)
    | (clear_value *; split)

theorem Chip.tearingStep_touch {pm bm : Nat} {a : Chip} (c : Chip) (h : Nat) (abort : Chip → Nat → Chip) (hp : sub 0x147011e pm = true) (hb : sub 0x180010000000000000000004188300000003000022000000000000000004 bm = true)
    (h_abort : ∀ d x1, Touch pm bm a d → Touch pm bm a (abort d x1))
    (hT : Touch pm bm a c) : Touch pm bm a (Chip.tearingStep c h abort) := by
  unfold Chip.tearingStep
  repeat' first
    | (fail_if_no_progress extract_lets +onlyGivenNames x; first | (revert x; intro (x : Chip); refine Touch.cut (d := x) ?_ (fun hx => ?_); subst x; rotate_left; try clear_value x) | (revert x; intro (x : Chip × _); refine Touch.cut (d := x.1) ?_ (fun hx => ?_); subst x; rotate_left; try clear_value x) | skip)
    | (with_reducible first | exact Touch.refl | assumption | apply Touch.each | apply Touch.step (Chip.dropBobs_touch ..) | apply Touch.step (Chip.freezeBob_touch ..) | apply Touch.step (Chip.hankFree_touch ..) | apply Touch.step (Chip.hankFrozen_touch ..) | apply Touch.step (Chip.hankMod_touch ..) | apply Touch.step (Chip.jWrite_touch ..) | apply Touch.step (Chip.launchCancel_touch ..) | apply Touch.step (Chip.mirrorItem_touch ..) | apply Touch.step (Chip.objLog_touch ..) | apply Touch.step (Chip.scrubAll_touch ..) | apply h_abort)
    | exact sub_trans (by decide +kernel) hp
    | exact sub_trans (by decide +kernel) hb
    | exact hasField_sub hb (by decide +kernel)
    | split
    | (intro _; intros)
    | (clear_value *; split)

theorem Chip.hankSteps_touch {pm bm : Nat} {a : Chip} (c : Chip) (h : Nat) (abort : Chip → Nat → Chip) (hp : sub 0x1cf193e pm = true) (hb : sub 0x380001820300381b8000070c00004188300000003000022000000000000070004 bm = true)
    (h_abort : ∀ d x1, Touch pm bm a d → Touch pm bm a (abort d x1))
    (hT : Touch pm bm a c) : Touch pm bm a (Chip.hankSteps c h abort) := by
  unfold Chip.hankSteps
  repeat' first
    | (with_reducible first | exact Touch.refl | assumption | apply Touch.step (Chip.keyingStep_touch ..) | apply Touch.step (Chip.quietForce_touch ..) | apply Chip.tearingStep_touch | apply h_abort)
    | exact sub_trans (by decide +kernel) hp
    | exact sub_trans (by decide +kernel) hb
    | exact hasField_sub hb (by decide +kernel)
    | split
    | (intro _; intros)
    | (clear_value *; split)

end Sys2Proof.Machine
end

