-- ==== Sys2Proof/Laws/TouchWhorlEv.lean ====
section
/-! SUPPORT. What each function of Machine/WhorlEv.lean can change: the two masks of `Touch` (Laws/Touch.lean), parts and banks of registers. -/

set_option linter.unreachableTactic false
set_option linter.unusedTactic false
set_option linter.tactic.unusedName false
set_option linter.unnecessarySeqFocus false
set_option linter.unusedVariables false
set_option Elab.async false

namespace Sys2Proof.Machine

theorem Chip.alignSet_touch (c : Chip) (st : Nat) : Touch 0x108 0x180000000000000000000000000000000000000000000020000000000004 c (Chip.alignSet c st) := by
  unfold Chip.alignSet
  repeat' first
    | (fail_if_no_progress extract_lets +onlyGivenNames x; first | (revert x; intro (x : Chip); refine Touch.cut (d := x) ?_ (fun hx => ?_); subst x; rotate_left; try clear_value x) | (revert x; intro (x : Chip × _); refine Touch.cut (d := x.1) ?_ (fun hx => ?_); subst x; rotate_left; try clear_value x) | skip)
    | (with_reducible first | exact Touch.refl | assumption | apply Touch.put | apply Touch.step (Chip.noilTrans_touch ..) | apply Touch.step (Chip.trace_touch ..))
    | decide +kernel
    | split
    | (intro _; intros)
    | (clear_value *; split)

theorem Chip.setMaster_touch (c : Chip) : Touch 0x108 0x180000000000000000000000000000000000000000000020000000000004 c (Chip.setMaster c) := by
  unfold Chip.setMaster
  repeat' first
    | (fail_if_no_progress extract_lets +onlyGivenNames x; first | (revert x; intro (x : Chip); refine Touch.cut (d := x) ?_ (fun hx => ?_); subst x; rotate_left; try clear_value x) | (revert x; intro (x : Chip × _); refine Touch.cut (d := x.1) ?_ (fun hx => ?_); subst x; rotate_left; try clear_value x) | skip)
    | (with_reducible first | exact Touch.refl | assumption | apply Touch.put | apply Touch.step (Chip.alignSet_touch ..))
    | decide +kernel
    | split
    | (intro _; intros)
    | (clear_value *; split)

theorem Chip.dropMaster_touch (c : Chip) : Touch 0x100 0x20000000000000 c (Chip.dropMaster c) := by
  unfold Chip.dropMaster
  repeat' first
    | (with_reducible first | exact Touch.refl | assumption | apply Touch.put)
    | decide +kernel
    | split
    | (intro _; intros)
    | (clear_value *; split)

theorem Chip.masterStart_touch (c : Chip) (other marks : Bool) : Touch 0x108 0x180000000000000000000000000000000000000000000020000000000004 c (Chip.masterStart c other marks) := by
  unfold Chip.masterStart
  repeat' first
    | (with_reducible first | exact Touch.refl | assumption | apply Touch.step (Chip.setMaster_touch ..))
    | decide +kernel
    | split
    | (intro _; intros)
    | (clear_value *; split)

theorem Chip.correct_touch (c : Chip) (diff : Int) : Touch 0x20100 0x10000000000000000 c (Chip.correct c diff) := by
  unfold Chip.correct
  repeat' first
    | (with_reducible first | exact Touch.refl | assumption | apply Touch.add)
    | decide +kernel
    | (with_reducible apply Touch.upd) <;> first | (intro p; cases p <;> dsimp only [Part.same] <;> first | exact Or.inl (by decide +kernel) | exact Or.inr rfl) | (with_reducible first | exact Touch.refl | assumption | apply Touch.add) | split
    | split
    | (intro _; intros)
    | (clear_value *; split)

theorem Chip.markerDiff_touch (c : Chip) (diff : Int) (src : Nat) : Touch 0x20108 0x180000000000000000000000000000000000000000010020000000000004 c (Chip.markerDiff c diff src) := by
  unfold Chip.markerDiff
  repeat' first
    | (fail_if_no_progress extract_lets +onlyGivenNames x; first | (revert x; intro (x : Chip); refine Touch.cut (d := x) ?_ (fun hx => ?_); subst x; rotate_left; try clear_value x) | (revert x; intro (x : Chip × _); refine Touch.cut (d := x.1) ?_ (fun hx => ?_); subst x; rotate_left; try clear_value x) | skip)
    | (with_reducible first | exact Touch.refl | assumption | apply Touch.put | apply Touch.step (Chip.alignSet_touch ..) | apply Touch.step (Chip.correct_touch ..) | apply Touch.step (Chip.log_touch ..))
    | decide +kernel
    | (with_reducible apply Touch.upd) <;> first | (intro p; cases p <;> dsimp only [Part.same] <;> first | exact Or.inl (by decide +kernel) | exact Or.inr rfl) | (with_reducible first | exact Touch.refl | assumption | apply Touch.put | apply Touch.step (Chip.alignSet_touch ..) | apply Touch.step (Chip.correct_touch ..) | apply Touch.step (Chip.log_touch ..)) | split
    | split
    | (intro _; intros)
    | (clear_value *; split)

theorem Chip.markerIn_touch (c : Chip) (cc : Bool) (b : List Byte) : Touch 0x2010c 0x180000000000000000000000000000000000000000010020000000000004 c (Chip.markerIn c cc b) := by
  unfold Chip.markerIn
  repeat' first
    | (fail_if_no_progress extract_lets +onlyGivenNames x; first | (revert x; intro (x : Chip); refine Touch.cut (d := x) ?_ (fun hx => ?_); subst x; rotate_left; try clear_value x) | (revert x; intro (x : Chip × _); refine Touch.cut (d := x.1) ?_ (fun hx => ?_); subst x; rotate_left; try clear_value x) | skip)
    | (with_reducible first | exact Touch.refl | assumption | apply Touch.put | apply Touch.step (Chip.log_touch ..) | apply Touch.step (Chip.markerDiff_touch ..) | apply Touch.step (Chip.send_touch ..))
    | decide +kernel
    | (with_reducible apply Touch.upd) <;> first | (intro p; cases p <;> dsimp only [Part.same] <;> first | exact Or.inl (by decide +kernel) | exact Or.inr rfl) | (with_reducible first | exact Touch.refl | assumption | apply Touch.put | apply Touch.step (Chip.log_touch ..) | apply Touch.step (Chip.markerDiff_touch ..) | apply Touch.step (Chip.send_touch ..)) | split
    | split
    | (intro _; intros)
    | (clear_value *; split)

theorem Chip.markerOut_touch (c : Chip) : Touch 0x20004 0x0 c (Chip.markerOut c) := by
  unfold Chip.markerOut
  repeat' first
    | (fail_if_no_progress extract_lets +onlyGivenNames x; first | (revert x; intro (x : Chip); refine Touch.cut (d := x) ?_ (fun hx => ?_); subst x; rotate_left; try clear_value x) | (revert x; intro (x : Chip × _); refine Touch.cut (d := x.1) ?_ (fun hx => ?_); subst x; rotate_left; try clear_value x) | skip)
    | (with_reducible first | exact Touch.refl | assumption | apply Touch.step (Chip.send_touch ..))
    | decide +kernel
    | (with_reducible apply Touch.upd) <;> first | (intro p; cases p <;> dsimp only [Part.same] <;> first | exact Or.inl (by decide +kernel) | exact Or.inr rfl) | (with_reducible first | exact Touch.refl | assumption | apply Touch.step (Chip.send_touch ..)) | split
    | split
    | (intro _; intros)
    | (clear_value *; split)

theorem Chip.boundary_touch (c : Chip) : Touch 0x20001 0x0 c (Chip.boundary c) := by
  unfold Chip.boundary
  repeat' first
    | (fail_if_no_progress extract_lets +onlyGivenNames x; first | (revert x; intro (x : Chip); refine Touch.cut (d := x) ?_ (fun hx => ?_); subst x; rotate_left; try clear_value x) | (revert x; intro (x : Chip × _); refine Touch.cut (d := x.1) ?_ (fun hx => ?_); subst x; rotate_left; try clear_value x) | skip)
    | (with_reducible first | exact Touch.refl | assumption)
    | decide +kernel
    | (with_reducible apply Touch.upd) <;> first | (intro p; cases p <;> dsimp only [Part.same] <;> first | exact Or.inl (by decide +kernel) | exact Or.inr rfl) | (with_reducible first | exact Touch.refl | assumption) | split
    | split
    | (intro _; intros)
    | (clear_value *; split)

theorem Chip.haltCount_touch (c : Chip) : Touch 0x100 0x0 c (Chip.haltCount c) := by
  unfold Chip.haltCount
  repeat' first
    | (with_reducible first | exact Touch.refl | assumption | apply Touch.step (Chip.count_touch ..))
    | decide +kernel
    | split
    | (intro _; intros)
    | (clear_value *; split)

theorem Chip.tick_touch (c : Chip) : Touch 0x20141 0x0 c (Chip.tick c) := by
  unfold Chip.tick
  repeat' first
    | (fail_if_no_progress extract_lets +onlyGivenNames x; first | (revert x; intro (x : Chip); refine Touch.cut (d := x) ?_ (fun hx => ?_); subst x; rotate_left; try clear_value x) | (revert x; intro (x : Chip × _); refine Touch.cut (d := x.1) ?_ (fun hx => ?_); subst x; rotate_left; try clear_value x) | skip)
    | (with_reducible first | exact Touch.refl | assumption | apply Touch.step (Chip.haltCount_touch ..))
    | decide +kernel
    | (with_reducible apply Touch.upd) <;> first | (intro p; cases p <;> dsimp only [Part.same] <;> first | exact Or.inl (by decide +kernel) | exact Or.inr rfl) | (with_reducible first | exact Touch.refl | assumption | apply Touch.step (Chip.haltCount_touch ..)) | split
    | split
    | (intro _; intros)
    | (clear_value *; split)

theorem Chip.markerLost_touch (c : Chip) : Touch 0x20108 0x180000000000000000000000000000000000000000000020000000000004 c (Chip.markerLost c) := by
  unfold Chip.markerLost
  repeat' first
    | (fail_if_no_progress extract_lets +onlyGivenNames x; first | (revert x; intro (x : Chip); refine Touch.cut (d := x) ?_ (fun hx => ?_); subst x; rotate_left; try clear_value x) | (revert x; intro (x : Chip × _); refine Touch.cut (d := x.1) ?_ (fun hx => ?_); subst x; rotate_left; try clear_value x) | skip)
    | (with_reducible first | exact Touch.refl | assumption | apply Touch.step (Chip.alignSet_touch ..) | apply Touch.step (Chip.log_touch ..))
    | decide +kernel
    | (with_reducible apply Touch.upd) <;> first | (intro p; cases p <;> dsimp only [Part.same] <;> first | exact Or.inl (by decide +kernel) | exact Or.inr rfl) | (with_reducible first | exact Touch.refl | assumption | apply Touch.step (Chip.alignSet_touch ..) | apply Touch.step (Chip.log_touch ..)) | split
    | split
    | (intro _; intros)
    | (clear_value *; split)

theorem Chip.xpkgOut_touch (c : Chip) : Touch 0x108 0x180000000000000000000000000000000000000000000020000000000004 c (Chip.xpkgOut c) := by
  unfold Chip.xpkgOut
  repeat' first
    | (fail_if_no_progress extract_lets +onlyGivenNames x; first | (revert x; intro (x : Chip); refine Touch.cut (d := x) ?_ (fun hx => ?_); subst x; rotate_left; try clear_value x) | (revert x; intro (x : Chip × _); refine Touch.cut (d := x.1) ?_ (fun hx => ?_); subst x; rotate_left; try clear_value x) | skip)
    | (with_reducible first | exact Touch.refl | assumption | apply Touch.put | apply Touch.step (Chip.log_touch ..))
    | decide +kernel
    | split
    | (intro _; intros)
    | (clear_value *; split)

theorem Chip.xpkgTime_touch (c : Chip) (ch : Nat) (f : WarpFrame) : Touch 0x20108 0x180000000000000000000000000000000000000000040020000000000004 c (Chip.xpkgTime c ch f) := by
  unfold Chip.xpkgTime
  repeat' first
    | (fail_if_no_progress extract_lets +onlyGivenNames x; first | (revert x; intro (x : Chip); refine Touch.cut (d := x) ?_ (fun hx => ?_); subst x; rotate_left; try clear_value x) | (revert x; intro (x : Chip × _); refine Touch.cut (d := x.1) ?_ (fun hx => ?_); subst x; rotate_left; try clear_value x) | skip)
    | (with_reducible first | exact Touch.refl | assumption | apply Touch.put | apply Touch.step (Chip.xpkgOut_touch ..))
    | decide +kernel
    | (with_reducible apply Touch.upd) <;> first | (intro p; cases p <;> dsimp only [Part.same] <;> first | exact Or.inl (by decide +kernel) | exact Or.inr rfl) | (with_reducible first | exact Touch.refl | assumption | apply Touch.put | apply Touch.step (Chip.xpkgOut_touch ..)) | split
    | split
    | (intro _; intros)
    | (clear_value *; split)

theorem Chip.xpkgLate_touch (c : Chip) : Touch 0x108 0x180000000000000000000000000000000000000000000020000000000004 c (Chip.xpkgLate c) := by
  unfold Chip.xpkgLate
  repeat' first
    | (with_reducible first | exact Touch.refl | assumption | apply Touch.step (Chip.xpkgOut_touch ..))
    | decide +kernel
    | split
    | (intro _; intros)
    | (clear_value *; split)

theorem Chip.ringLaunch_touch (c : Chip) : Touch 0x107010e 0x180000000000000000000004000000000003000000000000000000000004 c (Chip.ringLaunch c) := by
  unfold Chip.ringLaunch
  repeat' first
    | (fail_if_no_progress extract_lets +onlyGivenNames x; first | (revert x; intro (x : Chip); refine Touch.cut (d := x) ?_ (fun hx => ?_); subst x; rotate_left; try clear_value x) | (revert x; intro (x : Chip × _); refine Touch.cut (d := x.1) ?_ (fun hx => ?_); subst x; rotate_left; try clear_value x) | (revert x; intro (x : _ × Chip); refine Touch.cut (d := x.2) ?_ (fun hx => ?_); subst x; rotate_left; try clear_value x) | (revert x; intro (x : _ × _ × Chip); refine Touch.cut (d := x.2.2) ?_ (fun hx => ?_); subst x; rotate_left; try clear_value x) | skip)
    | (with_reducible first | exact Touch.refl | assumption | apply Touch.each | apply Touch.step (Chip.hold_touch ..) | apply Touch.step (Chip.mirrorItem_touch ..) | apply Touch.step (Chip.pushBody_touch ..) | apply Touch.step (Chip.rndPr_touch ..))
    | decide +kernel
    | (with_reducible apply Touch.upd) <;> first | (intro p; cases p <;> dsimp only [Part.same] <;> first | exact Or.inl (by decide +kernel) | exact Or.inr rfl) | (with_reducible first | exact Touch.refl | assumption | apply Touch.each | apply Touch.step (Chip.hold_touch ..) | apply Touch.step (Chip.mirrorItem_touch ..) | apply Touch.step (Chip.pushBody_touch ..) | apply Touch.step (Chip.rndPr_touch ..)) | split
    | split
    | (intro _; intros)
    | (clear_value *; split)

theorem Chip.lmake_touch (c : Chip) (l cfg arg grace : Nat) (st : Status) : Touch 0x147110e 0x1000180000000000000000000004000000000003000003f80000000000000004 c (Chip.lmake c l cfg arg grace st).1 := by
  unfold Chip.lmake
  repeat' first
    | (fail_if_no_progress extract_lets +onlyGivenNames x; first | (revert x; intro (x : Chip); refine Touch.cut (d := x) ?_ (fun hx => ?_); subst x; rotate_left; try clear_value x) | (revert x; intro (x : Chip × _); refine Touch.cut (d := x.1) ?_ (fun hx => ?_); subst x; rotate_left; try clear_value x) | skip)
    | (with_reducible first | exact Touch.refl | assumption | apply Touch.put64i | apply Touch.puti | apply Touch.wri | apply Touch.step (Chip.lfree_touch ..) | apply Touch.step (Chip.log_touch ..) | apply Touch.step (Chip.lset_touch ..) | apply Touch.step (Chip.mirrorThen_touch ..) | apply Chip.pending_touch | apply Touch.step (Chip.ringLaunch_touch ..) | apply Touch.step (Chip.strandArm_touch ..))
    | decide +kernel
    | (with_reducible apply Touch.upd) <;> first | (intro p; cases p <;> dsimp only [Part.same] <;> first | exact Or.inl (by decide +kernel) | exact Or.inr rfl) | (with_reducible first | exact Touch.refl | assumption | apply Touch.put64i | apply Touch.puti | apply Touch.wri | apply Touch.step (Chip.lfree_touch ..) | apply Touch.step (Chip.log_touch ..) | apply Touch.step (Chip.lset_touch ..) | apply Touch.step (Chip.mirrorThen_touch ..) | apply Chip.pending_touch | apply Touch.step (Chip.ringLaunch_touch ..) | apply Touch.step (Chip.strandArm_touch ..)) | split
    | split
    | (intro _; intros)
    | (clear_value *; split)

theorem Chip.schedule_touch (c : Chip) (l cfg arg grace : Nat) : Touch 0x147110e 0x1000180000000000000000000004000000000003000003f80000000000000004 c (Chip.schedule c l cfg arg grace).1 := by
  unfold Chip.schedule
  repeat' first
    | (fail_if_no_progress extract_lets +onlyGivenNames x; first | (revert x; intro (x : Chip); refine Touch.cut (d := x) ?_ (fun hx => ?_); subst x; rotate_left; try clear_value x) | (revert x; intro (x : Chip × _); refine Touch.cut (d := x.1) ?_ (fun hx => ?_); subst x; rotate_left; try clear_value x) | skip)
    | (with_reducible first | exact Touch.refl | assumption | apply Touch.step (Chip.lmake_touch ..))
    | decide +kernel
    | split
    | (intro _; intros)
    | (clear_value *; split)

theorem Chip.lres_touch (c : Chip) (st : Status) (n : Nat) : Touch 0x100 0x400000000000000 c (Chip.lres c st n) := by
  unfold Chip.lres
  repeat' first
    | (with_reducible first | exact Touch.refl | assumption | apply Touch.put)
    | decide +kernel
    | split
    | (intro _; intros)
    | (clear_value *; split)

theorem Chip.lclose_touch (c : Chip) (n : Nat) : Touch 0x100010c 0x180000000000000000000000000000000003000002000000000000000004 c (Chip.lclose c n) := by
  unfold Chip.lclose
  repeat' first
    | (fail_if_no_progress extract_lets +onlyGivenNames x; first | (revert x; intro (x : Chip); refine Touch.cut (d := x) ?_ (fun hx => ?_); subst x; rotate_left; try clear_value x) | (revert x; intro (x : Chip × _); refine Touch.cut (d := x.1) ?_ (fun hx => ?_); subst x; rotate_left; try clear_value x) | skip)
    | (with_reducible first | exact Touch.refl | assumption | apply Touch.step (Chip.lset_touch ..) | apply Touch.step (Chip.mirrorItem_touch ..))
    | decide +kernel
    | split
    | (intro _; intros)
    | (clear_value *; split)

theorem Chip.lcancel_touch (c : Chip) (n : Nat) : Touch 0x100010c 0x180000000000000000000000000000000003000002000000000000000004 c (Chip.lcancel c n).1 := by
  unfold Chip.lcancel
  repeat' first
    | (fail_if_no_progress extract_lets +onlyGivenNames x; first | (revert x; intro (x : Chip); refine Touch.cut (d := x) ?_ (fun hx => ?_); subst x; rotate_left; try clear_value x) | (revert x; intro (x : Chip × _); refine Touch.cut (d := x.1) ?_ (fun hx => ?_); subst x; rotate_left; try clear_value x) | skip)
    | (with_reducible first | exact Touch.refl | assumption | apply Touch.step (Chip.launchCancel_touch ..) | apply Touch.step (Chip.lclose_touch ..) | apply Touch.step (Chip.log_touch ..))
    | decide +kernel
    | split
    | (intro _; intros)
    | (clear_value *; split)

theorem Chip.shed_touch (c : Chip) (id : Nat) : Touch 0x103011c 0x180000000000000000000000080000000000000020000000000000000004 c (Chip.shed c id) := by
  unfold Chip.shed
  repeat' first
    | (with_reducible first | exact Touch.refl | assumption | apply Touch.step (Chip.bobMod_touch ..) | apply Touch.step (Chip.cacheDrop_touch ..) | apply Touch.step (Chip.cmdPart_touch ..) | apply Touch.step (Chip.discard_touch ..))
    | decide +kernel
    | split
    | (intro _; intros)
    | (clear_value *; split)

theorem Chip.lfinal_touch (c : Chip) (n : Nat) : Touch 0x147811e 0x180000000000000000000004080300000003000022000000000000004184 c (Chip.lfinal c n) := by
  unfold Chip.lfinal
  repeat' first
    | (fail_if_no_progress extract_lets +onlyGivenNames x; first | (revert x; intro (x : Chip); refine Touch.cut (d := x) ?_ (fun hx => ?_); subst x; rotate_left; try clear_value x) | (revert x; intro (x : Chip × _); refine Touch.cut (d := x.1) ?_ (fun hx => ?_); subst x; rotate_left; try clear_value x) | skip)
    | (with_reducible first | exact Touch.refl | assumption | apply Touch.each | apply Touch.puti | apply Touch.step (Chip.cancelRecs_touch ..) | apply Touch.step (Chip.cardWithdraw_touch ..) | apply Touch.step (Chip.mirrorThen_touch ..) | apply Touch.step (Chip.shed_touch ..))
    | decide +kernel
    | split
    | (intro _; intros)
    | (clear_value *; split)

theorem Chip.ringSwitch_touch (c : Chip) : Touch 0x20010 0x0 c (Chip.ringSwitch c) := by
  unfold Chip.ringSwitch
  repeat' first
    | (fail_if_no_progress extract_lets +onlyGivenNames x; first | (revert x; intro (x : Chip); refine Touch.cut (d := x) ?_ (fun hx => ?_); subst x; rotate_left; try clear_value x) | (revert x; intro (x : Chip × _); refine Touch.cut (d := x.1) ?_ (fun hx => ?_); subst x; rotate_left; try clear_value x) | skip)
    | (with_reducible first | exact Touch.refl | assumption)
    | decide +kernel
    | (with_reducible apply Touch.upd) <;> first | (intro p; cases p <;> dsimp only [Part.same] <;> first | exact Or.inl (by decide +kernel) | exact Or.inr rfl) | (with_reducible first | exact Touch.refl | assumption) | split
    | split
    | (intro _; intros)
    | (clear_value *; split)

theorem Chip.lfired_touch (c : Chip) (n : Nat) : Touch 0x108 0x180000000000000000000000000000000000000000000000000000000004 c (Chip.lfired c n) := by
  unfold Chip.lfired
  repeat' first
    | (fail_if_no_progress extract_lets +onlyGivenNames x; first | (revert x; intro (x : Chip); refine Touch.cut (d := x) ?_ (fun hx => ?_); subst x; rotate_left; try clear_value x) | (revert x; intro (x : Chip × _); refine Touch.cut (d := x.1) ?_ (fun hx => ?_); subst x; rotate_left; try clear_value x) | skip)
    | (with_reducible first | exact Touch.refl | assumption | apply Touch.step (Chip.log_touch ..))
    | decide +kernel
    | split
    | (intro _; intros)
    | (clear_value *; split)

theorem Chip.lfire_touch (c : Chip) (n : Nat) : Touch 0x1c3093c 0x18000000000000020380000008838000000300003a000000000000000004 c (Chip.lfire c n) := by
  unfold Chip.lfire
  repeat' first
    | (fail_if_no_progress extract_lets +onlyGivenNames x; first | (revert x; intro (x : Chip); refine Touch.cut (d := x) ?_ (fun hx => ?_); subst x; rotate_left; try clear_value x) | (revert x; intro (x : Chip × _); refine Touch.cut (d := x.1) ?_ (fun hx => ?_); subst x; rotate_left; try clear_value x) | skip)
    | (with_reducible first | exact Touch.refl | assumption | apply Touch.each | apply Touch.puti | apply Touch.step (Chip.cancelRecs_touch ..) | apply Touch.step (Chip.count_touch ..) | apply Touch.step (Chip.countReset_touch ..) | apply Touch.step (Chip.jWrite_touch ..) | apply Touch.step (Chip.lclose_touch ..) | apply Touch.step (Chip.lfired_touch ..) | apply Touch.step (Chip.limitSum_touch ..) | apply Touch.step (Chip.logBob_touch ..) | apply Touch.step (Chip.lset_touch ..) | apply Touch.step (Chip.mirrorItem_touch ..) | apply Touch.step (Chip.ringSwitch_touch ..) | apply Touch.step (Chip.shed_touch ..) | apply Touch.step (Chip.strandFire_touch ..) | apply Touch.step (Chip.switchBob_touch ..))
    | decide +kernel
    | (with_reducible apply Touch.upd) <;> first | (intro p; cases p <;> dsimp only [Part.same] <;> first | exact Or.inl (by decide +kernel) | exact Or.inr rfl) | (with_reducible first | exact Touch.refl | assumption | apply Touch.each | apply Touch.puti | apply Touch.step (Chip.cancelRecs_touch ..) | apply Touch.step (Chip.count_touch ..) | apply Touch.step (Chip.countReset_touch ..) | apply Touch.step (Chip.jWrite_touch ..) | apply Touch.step (Chip.lclose_touch ..) | apply Touch.step (Chip.lfired_touch ..) | apply Touch.step (Chip.limitSum_touch ..) | apply Touch.step (Chip.logBob_touch ..) | apply Touch.step (Chip.lset_touch ..) | apply Touch.step (Chip.mirrorItem_touch ..) | apply Touch.step (Chip.ringSwitch_touch ..) | apply Touch.step (Chip.shed_touch ..) | apply Touch.step (Chip.strandFire_touch ..) | apply Touch.step (Chip.switchBob_touch ..)) | split
    | split
    | (intro _; intros)
    | (clear_value *; split)

theorem Chip.lretire_touch (c : Chip) (n : Nat) : Touch 0x103011c 0x180000000000000000000000080000000003000002000000000000000004 c (Chip.lretire c n) := by
  unfold Chip.lretire
  repeat' first
    | (fail_if_no_progress extract_lets +onlyGivenNames x; first | (revert x; intro (x : Chip); refine Touch.cut (d := x) ?_ (fun hx => ?_); subst x; rotate_left; try clear_value x) | (revert x; intro (x : Chip × _); refine Touch.cut (d := x.1) ?_ (fun hx => ?_); subst x; rotate_left; try clear_value x) | skip)
    | (with_reducible first | exact Touch.refl | assumption | apply Touch.each | apply Touch.puti | apply Touch.step (Chip.log_touch ..) | apply Touch.step (Chip.lset_touch ..) | apply Touch.step (Chip.mirrorItem_touch ..) | apply Touch.step (Chip.retireBob_touch ..))
    | decide +kernel
    | (with_reducible apply Touch.upd) <;> first | (intro p; cases p <;> dsimp only [Part.same] <;> first | exact Or.inl (by decide +kernel) | exact Or.inr rfl) | (with_reducible first | exact Touch.refl | assumption | apply Touch.each | apply Touch.puti | apply Touch.step (Chip.log_touch ..) | apply Touch.step (Chip.lset_touch ..) | apply Touch.step (Chip.mirrorItem_touch ..) | apply Touch.step (Chip.retireBob_touch ..)) | split
    | split
    | (intro _; intros)
    | (clear_value *; split)

theorem Chip.lrepeat_touch (c : Chip) (n : Nat) : Touch 0x2011c 0x180000000000000000000000000000000000000000000000000000000004 c (Chip.lrepeat c n) := by
  unfold Chip.lrepeat
  repeat' first
    | (with_reducible first | exact Touch.refl | assumption | apply Touch.step (Chip.ringBroadcast_touch ..))
    | decide +kernel
    | (with_reducible apply Touch.upd) <;> first | (intro p; cases p <;> dsimp only [Part.same] <;> first | exact Or.inl (by decide +kernel) | exact Or.inr rfl) | (with_reducible first | exact Touch.refl | assumption | apply Touch.step (Chip.ringBroadcast_touch ..)) | split
    | split
    | (intro _; intros)
    | (clear_value *; split)

theorem Chip.lcancelRepeat_touch (c : Chip) (num : Nat) : Touch 0x2011c 0x180000000000000000000000000000000000000000000000000000000004 c (Chip.lcancelRepeat c num) := by
  unfold Chip.lcancelRepeat
  repeat' first
    | (fail_if_no_progress extract_lets +onlyGivenNames x; first | (revert x; intro (x : Chip); refine Touch.cut (d := x) ?_ (fun hx => ?_); subst x; rotate_left; try clear_value x) | (revert x; intro (x : Chip × _); refine Touch.cut (d := x.1) ?_ (fun hx => ?_); subst x; rotate_left; try clear_value x) | skip)
    | (with_reducible first | exact Touch.refl | assumption | apply Touch.step (Chip.ringBroadcast_touch ..))
    | decide +kernel
    | (with_reducible apply Touch.upd) <;> first | (intro p; cases p <;> dsimp only [Part.same] <;> first | exact Or.inl (by decide +kernel) | exact Or.inr rfl) | (with_reducible first | exact Touch.refl | assumption | apply Touch.step (Chip.ringBroadcast_touch ..)) | split
    | split
    | (intro _; intros)
    | (clear_value *; split)

theorem Chip.lfreeCmd_touch (c : Chip) (n : Nat) : Touch 0x102010c 0x1000180000000000000000000000000000000003000002000000000000000004 c (Chip.lfreeCmd c n).1 := by
  unfold Chip.lfreeCmd
  repeat' first
    | (fail_if_no_progress extract_lets +onlyGivenNames x; first | (revert x; intro (x : Chip); refine Touch.cut (d := x) ?_ (fun hx => ?_); subst x; rotate_left; try clear_value x) | (revert x; intro (x : Chip × _); refine Touch.cut (d := x.1) ?_ (fun hx => ?_); subst x; rotate_left; try clear_value x) | skip)
    | (with_reducible first | exact Touch.refl | assumption | apply Touch.step (Chip.lfree_touch ..) | apply Touch.step (Chip.mirrorItem_touch ..))
    | decide +kernel
    | split
    | (intro _; intros)
    | (clear_value *; split)

end Sys2Proof.Machine
end

