-- ==== Sys2Proof/Laws/TouchMemOps.lean ====
section
/-! SUPPORT. What each function of Machine/MemOps.lean can change: the two masks of `Touch` (Laws/Touch.lean), parts and banks of registers. -/

set_option linter.unreachableTactic false
set_option linter.unusedTactic false
set_option linter.tactic.unusedName false
set_option linter.unnecessarySeqFocus false
set_option linter.unusedVariables false
set_option Elab.async false

namespace Sys2Proof.Machine

theorem Chip.treeLog_touch (c : Chip) (code tree : Nat) (st : Status) : Touch 0x108 0x180000000000000000000000000000000000000000000000000000000004 c (Chip.treeLog c code tree st) := by
  unfold Chip.treeLog
  repeat' first
    | (with_reducible first | exact Touch.refl | assumption | apply Touch.step (Chip.log_touch ..))
    | decide +kernel
    | split
    | (intro _; intros)
    | (clear_value *; split)

theorem Chip.rootUpdate_touch (c : Chip) (ch : Nat) (f : WarpFrame) : Touch 0x101010c 0x180000000000000000000000000000000003000000000000000000000004 c (Chip.rootUpdate c ch f) := by
  unfold Chip.rootUpdate
  repeat' first
    | (fail_if_no_progress extract_lets +onlyGivenNames x; first | (revert x; intro (x : Chip); refine Touch.cut (d := x) ?_ (fun hx => ?_); subst x; rotate_left; try clear_value x) | (revert x; intro (x : Chip × _); refine Touch.cut (d := x.1) ?_ (fun hx => ?_); subst x; rotate_left; try clear_value x) | skip)
    | (with_reducible first | exact Touch.refl | assumption | apply Touch.step (Chip.bobMod_touch ..) | apply Touch.step (Chip.cu_touch ..) | apply Touch.step (Chip.hold_touch ..) | apply Touch.step (Chip.log_touch ..) | apply Touch.step (Chip.mirrorEarly_touch ..))
    | decide +kernel
    | split
    | (intro _; intros)
    | (clear_value *; split)

theorem Chip.rootMirrored_touch (c : Chip) (tree id version : Nat) (node : List Byte) : Touch 0x10100 0x0 c (Chip.rootMirrored c tree id version node) := by
  unfold Chip.rootMirrored
  repeat' first
    | (with_reducible first | exact Touch.refl | assumption | apply Touch.step (Chip.bobMod_touch ..) | apply Touch.step (Chip.cu_touch ..))
    | decide +kernel
    | split
    | (intro _; intros)
    | (clear_value *; split)

theorem Chip.rootPatrol_touch (c : Chip) (tree : Nat) (double : Bool) : Touch 0x10108 0x180000000000000000000000000000000000000000000000000000000004 c (Chip.rootPatrol c tree double) := by
  unfold Chip.rootPatrol
  repeat' first
    | (with_reducible first | exact Touch.refl | assumption | apply Touch.step (Chip.cu_touch ..) | apply Touch.step (Chip.treeLog_touch ..))
    | decide +kernel
    | split
    | (intro _; intros)
    | (clear_value *; split)

theorem Chip.packageHalt_touch (c : Chip) : Touch 0x143011c 0x180000000000000000000000180300000000000022000000000000000004 c (Chip.packageHalt c) := by
  unfold Chip.packageHalt
  repeat' first
    | (fail_if_no_progress extract_lets +onlyGivenNames x; first | (revert x; intro (x : Chip); refine Touch.cut (d := x) ?_ (fun hx => ?_); subst x; rotate_left; try clear_value x) | (revert x; intro (x : Chip × _); refine Touch.cut (d := x.1) ?_ (fun hx => ?_); subst x; rotate_left; try clear_value x) | skip)
    | (with_reducible first | exact Touch.refl | assumption | apply Touch.each | apply Touch.step (Chip.freezeBob_touch ..) | apply Touch.step (Chip.ha_touch ..) | apply Touch.step (Chip.hankFrozen_touch ..) | apply Touch.step (Chip.jWrite_touch ..))
    | decide +kernel
    | split
    | (intro _; intros)
    | (clear_value *; split)

theorem Chip.rootRepaired_touch (c : Chip) (tree : Nat) (good : Bool) (bytes : List Byte) : Touch 0x143091c 0x180000000000000000000000180380000003000022000000000000000004 c (Chip.rootRepaired c tree good bytes) := by
  unfold Chip.rootRepaired
  repeat' first
    | (fail_if_no_progress extract_lets +onlyGivenNames x; first | (revert x; intro (x : Chip); refine Touch.cut (d := x) ?_ (fun hx => ?_); subst x; rotate_left; try clear_value x) | (revert x; intro (x : Chip × _); refine Touch.cut (d := x.1) ?_ (fun hx => ?_); subst x; rotate_left; try clear_value x) | skip)
    | (with_reducible first | exact Touch.refl | assumption | apply Touch.each | apply Touch.step (Chip.cu_touch ..) | apply Touch.step (Chip.notice_touch ..) | apply Touch.step (Chip.packageHalt_touch ..) | apply Touch.step (Chip.rootUpdate_touch ..) | apply Touch.step (Chip.treeLog_touch ..))
    | decide +kernel
    | split
    | (intro _; intros)
    | (clear_value *; split)

theorem Chip.faultTold_touch (c : Chip) (id : Nat) (b : Bob) (off pages : Nat) : Touch 0x11c 0x180000000000000000000000000000000000000000000000000000000004 c (Chip.faultTold c id b off pages) := by
  unfold Chip.faultTold
  repeat' first
    | (fail_if_no_progress extract_lets +onlyGivenNames x; first | (revert x; intro (x : Chip); refine Touch.cut (d := x) ?_ (fun hx => ?_); subst x; rotate_left; try clear_value x) | (revert x; intro (x : Chip × _); refine Touch.cut (d := x.1) ?_ (fun hx => ?_); subst x; rotate_left; try clear_value x) | skip)
    | (with_reducible first | exact Touch.refl | assumption | apply Touch.each | apply Touch.step (Chip.ringSend_touch ..))
    | decide +kernel
    | split
    | (intro _; intros)
    | (clear_value *; split)

theorem Chip.faultReport_touch (c : Chip) (ch : Nat) (f : WarpFrame) : Touch 0x1091c 0x180000000000000000000000000080000000000000000000000000000004 c (Chip.faultReport c ch f) := by
  unfold Chip.faultReport
  repeat' first
    | (fail_if_no_progress extract_lets +onlyGivenNames x; first | (revert x; intro (x : Chip); refine Touch.cut (d := x) ?_ (fun hx => ?_); subst x; rotate_left; try clear_value x) | (revert x; intro (x : Chip × _); refine Touch.cut (d := x.1) ?_ (fun hx => ?_); subst x; rotate_left; try clear_value x) | skip)
    | (with_reducible first | exact Touch.refl | assumption | apply Touch.step (Chip.faultTold_touch ..) | apply Touch.step (Chip.log_touch ..) | apply Touch.step (Chip.notice_touch ..) | apply Chip.reportOnce_touch)
    | decide +kernel
    | split
    | (intro _; intros)
    | (clear_value *; split)

theorem Chip.complexReset_touch (c : Chip) (ch : Nat) (f : WarpFrame) : Touch 0x3090c 0x180000000000000000000000002080000000000020000000000000000004 c (Chip.complexReset c ch f) := by
  unfold Chip.complexReset
  repeat' first
    | (fail_if_no_progress extract_lets +onlyGivenNames x; first | (revert x; intro (x : Chip); refine Touch.cut (d := x) ?_ (fun hx => ?_); subst x; rotate_left; try clear_value x) | (revert x; intro (x : Chip × _); refine Touch.cut (d := x.1) ?_ (fun hx => ?_); subst x; rotate_left; try clear_value x) | skip)
    | (with_reducible first | exact Touch.refl | assumption | apply Touch.each | apply Touch.step (Chip.bobMod_touch ..) | apply Touch.step (Chip.chFail_touch ..) | apply Touch.step (Chip.log_touch ..) | apply Touch.step (Chip.notice_touch ..) | apply Chip.reportOnce_touch)
    | decide +kernel
    | split
    | (intro _; intros)
    | (clear_value *; split)

theorem Chip.boundaryReport_touch (c : Chip) (f : WarpFrame) : Touch 0x101090c 0x180000000000000000000000000080000003000000000000000000000004 c (Chip.boundaryReport c f) := by
  unfold Chip.boundaryReport
  repeat' first
    | (fail_if_no_progress extract_lets +onlyGivenNames x; first | (revert x; intro (x : Chip); refine Touch.cut (d := x) ?_ (fun hx => ?_); subst x; rotate_left; try clear_value x) | (revert x; intro (x : Chip × _); refine Touch.cut (d := x.1) ?_ (fun hx => ?_); subst x; rotate_left; try clear_value x) | skip)
    | (with_reducible first | exact Touch.refl | assumption | apply Touch.step (Chip.bobMod_touch ..) | apply Touch.step (Chip.mirrorItem_touch ..) | apply Touch.step (Chip.reenc_touch ..))
    | decide +kernel
    | split
    | (intro _; intros)
    | (clear_value *; split)

theorem Chip.peerEpoch_touch (c : Chip) (ch : Nat) (f : WarpFrame) : Touch 0x1090c 0x180000000000000000000000000080000000000000000000000000000004 c (Chip.peerEpoch c ch f) := by
  unfold Chip.peerEpoch
  repeat' first
    | (with_reducible first | exact Touch.refl | assumption | apply Touch.step (Chip.log_touch ..) | apply Touch.step (Chip.notice_touch ..) | apply Chip.reportOnce_touch)
    | decide +kernel
    | split
    | (intro _; intros)
    | (clear_value *; split)

theorem Chip.unsolicited_touch (c : Chip) (ch : Nat) (f : WarpFrame) : Touch 0x103091c 0x18000000000000000000000000a380000003000020040020000000000004 c (Chip.unsolicited c ch f) := by
  unfold Chip.unsolicited
  repeat' first
    | (with_reducible first | exact Touch.refl | assumption | apply Touch.step (Chip.boundaryReport_touch ..) | apply Touch.step (Chip.complexReset_touch ..) | apply Touch.step (Chip.faultReport_touch ..) | apply Touch.step (Chip.limitHit_touch ..) | apply Touch.step (Chip.peerEpoch_touch ..) | apply Touch.step (Chip.xpkgTime_touch ..))
    | decide +kernel
    | split
    | (intro _; intros)
    | (clear_value *; split)

theorem Chip.hostEnd_touch (c : Chip) (session : Nat) : Touch 0x103011c 0x180000000000000000000000088300000000000022000000000000000004 c (Chip.hostEnd c session) := by
  unfold Chip.hostEnd
  repeat' first
    | (fail_if_no_progress extract_lets +onlyGivenNames x; first | (revert x; intro (x : Chip); refine Touch.cut (d := x) ?_ (fun hx => ?_); subst x; rotate_left; try clear_value x) | (revert x; intro (x : Chip × _); refine Touch.cut (d := x.1) ?_ (fun hx => ?_); subst x; rotate_left; try clear_value x) | skip)
    | (with_reducible first | exact Touch.refl | assumption | apply Touch.each | apply Touch.step (Chip.dropBobs_touch ..) | apply Touch.step (Chip.freezeBob_touch ..) | apply Touch.step (Chip.jWrite_touch ..) | apply Touch.step (Chip.log_touch ..))
    | decide +kernel
    | split
    | (intro _; intros)
    | (clear_value *; split)

end Sys2Proof.Machine
end

