-- ==== Sys2Proof/Laws/TouchPlyOps.lean ====
section
/-! SUPPORT. What each function of Machine/PlyOps.lean can change: the two masks of `Touch` (Laws/Touch.lean), parts and banks of registers. -/

set_option linter.unreachableTactic false
set_option linter.unusedTactic false
set_option linter.tactic.unusedName false
set_option linter.unnecessarySeqFocus false
set_option linter.unusedVariables false
set_option Elab.async false

namespace Sys2Proof.Machine

theorem Chip.pl_touch (c : Chip) (f : Ply → Ply) : Touch 0x1000000 0x0 c (Chip.pl c f) := by
  unfold Chip.pl
  repeat' first
    | (with_reducible first | exact Touch.refl | assumption)
    | decide +kernel
    | (with_reducible apply Touch.upd) <;> first | (intro p; cases p <;> dsimp only [Part.same] <;> first | exact Or.inl (by decide +kernel) | exact Or.inr rfl) | (with_reducible first | exact Touch.refl | assumption) | split
    | split
    | (intro _; intros)
    | (clear_value *; split)

theorem Chip.linkLog_touch (c : Chip) (code reason : Nat) : Touch 0x108 0x180000000000000000000000000000000000000000000000000000000004 c (Chip.linkLog c code reason) := by
  unfold Chip.linkLog
  repeat' first
    | (with_reducible first | exact Touch.refl | assumption | apply Touch.step (Chip.log_touch ..))
    | decide +kernel
    | split
    | (intro _; intros)
    | (clear_value *; split)

theorem Chip.plyGot_touch (c : Chip) (typ : Nat) : Touch 0x1000108 0x180000000000000000000000000000000000000000000000000000000004 c (Chip.plyGot c typ) := by
  unfold Chip.plyGot
  repeat' first
    | (with_reducible first | exact Touch.refl | assumption | apply Touch.step (Chip.pl_touch ..) | apply Touch.step (Chip.trace_touch ..))
    | decide +kernel
    | split
    | (intro _; intros)
    | (clear_value *; split)

theorem Chip.resyncLost_touch (c : Chip) : Touch 0x1000108 0x180000000000000000000000000000000000040000000000000000000004 c (Chip.resyncLost c) := by
  unfold Chip.resyncLost
  repeat' first
    | (with_reducible first | exact Touch.refl | assumption | apply Touch.step (Chip.linkLog_touch ..) | apply Touch.step (Chip.pl_touch ..) | apply Touch.step (Chip.setRole_touch ..))
    | decide +kernel
    | split
    | (intro _; intros)
    | (clear_value *; split)

theorem Chip.resyncStop_touch (c : Chip) : Touch 0x1000000 0x10000000000000000000000000 c (Chip.resyncStop c) := by
  unfold Chip.resyncStop
  repeat' first
    | (with_reducible first | exact Touch.refl | assumption | apply Touch.wr | apply Touch.step (Chip.pl_touch ..))
    | decide +kernel
    | exact covers_reg (by decide +kernel)
    | split
    | (intro _; intros)
    | (clear_value *; split)

theorem Chip.linkTrain_touch (c : Chip) : Touch 0x100010c 0x180000000000000000000000000000000010040000000000000000000004 c (Chip.linkTrain c) := by
  unfold Chip.linkTrain
  repeat' first
    | (fail_if_no_progress extract_lets +onlyGivenNames x; first | (revert x; intro (x : Chip); refine Touch.cut (d := x) ?_ (fun hx => ?_); subst x; rotate_left; try clear_value x) | (revert x; intro (x : Chip × _); refine Touch.cut (d := x.1) ?_ (fun hx => ?_); subst x; rotate_left; try clear_value x) | skip)
    | (with_reducible first | exact Touch.refl | assumption | apply Touch.put | apply Touch.step (Chip.pl_touch ..) | apply Touch.step (Chip.plySend_touch ..) | apply Touch.step (Chip.resyncLost_touch ..) | apply Touch.step (Chip.resyncStop_touch ..) | apply Touch.step (Chip.send_touch ..))
    | decide +kernel
    | split
    | (intro _; intros)
    | (clear_value *; split)

theorem Chip.authSend_touch (c : Chip) (m : List Byte) : Touch 0x100010c 0x180000000000000000000000000000000000000000000000000000000004 c (Chip.authSend c m) := by
  unfold Chip.authSend
  repeat' first
    | (with_reducible first | exact Touch.refl | assumption | apply Touch.each | apply Touch.step (Chip.plySend_touch ..))
    | decide +kernel
    | split
    | (intro _; intros)
    | (clear_value *; split)

theorem Chip.authSigs_touch (c : Chip) (t : List Byte) : Touch 0x40102 0x4000000000000000000000000000000000000 c (Chip.authSigs c t).1 := by
  unfold Chip.authSigs
  repeat' first
    | (fail_if_no_progress extract_lets +onlyGivenNames x; first | (revert x; intro (x : Chip); refine Touch.cut (d := x) ?_ (fun hx => ?_); subst x; rotate_left; try clear_value x) | (revert x; intro (x : Chip × _); refine Touch.cut (d := x.1) ?_ (fun hx => ?_); subst x; rotate_left; try clear_value x) | (revert x; intro (x : _ × Chip); refine Touch.cut (d := x.2) ?_ (fun hx => ?_); subst x; rotate_left; try clear_value x) | (revert x; intro (x : _ × _ × Chip); refine Touch.cut (d := x.2.2) ?_ (fun hx => ?_); subst x; rotate_left; try clear_value x) | skip)
    | (with_reducible first | exact Touch.refl | assumption | apply Touch.step (Chip.rnd_touch ..))
    | decide +kernel
    | split
    | (intro _; intros)
    | (clear_value *; split)

theorem Chip.authFail_touch (c : Chip) : Touch 0x1000108 0x180000000000000000000000000000000000000000000000000000000004 c (Chip.authFail c) := by
  unfold Chip.authFail
  repeat' first
    | (with_reducible first | exact Touch.refl | assumption | apply Touch.step (Chip.linkLog_touch ..) | apply Touch.step (Chip.pl_touch ..))
    | decide +kernel
    | split
    | (intro _; intros)
    | (clear_value *; split)

theorem Chip.askResync_touch (c : Chip) : Touch 0x100010c 0x180000000000000000000000000000000000000000000000000000000004 c (Chip.askResync c) := by
  unfold Chip.askResync
  repeat' first
    | (with_reducible first | exact Touch.refl | assumption | apply Touch.step (Chip.pl_touch ..) | apply Touch.step (Chip.plySend_touch ..))
    | decide +kernel
    | split
    | (intro _; intros)
    | (clear_value *; split)

theorem Chip.grantRegs_touch (c : Chip) : Touch 0x100 0xe40000000000000000000000 c (Chip.grantRegs c) := by
  unfold Chip.grantRegs
  repeat' first
    | (fail_if_no_progress extract_lets +onlyGivenNames x; first | (revert x; intro (x : Chip); refine Touch.cut (d := x) ?_ (fun hx => ?_); subst x; rotate_left; try clear_value x) | (revert x; intro (x : Chip × _); refine Touch.cut (d := x.1) ?_ (fun hx => ?_); subst x; rotate_left; try clear_value x) | skip)
    | (with_reducible first | exact Touch.refl | assumption | apply Touch.put | apply Touch.put64 | apply Touch.wr)
    | decide +kernel
    | exact covers_reg (by decide +kernel)
    | split
    | (intro _; intros)
    | (clear_value *; split)

theorem Chip.leaseAsk_touch (c : Chip) (op fresh num dur : Nat) : Touch 0x100011c 0x180000000000000000000000000000000000100000000000000000000004 c (Chip.leaseAsk c op fresh num dur) := by
  unfold Chip.leaseAsk
  repeat' first
    | (fail_if_no_progress extract_lets +onlyGivenNames x; first | (revert x; intro (x : Chip); refine Touch.cut (d := x) ?_ (fun hx => ?_); subst x; rotate_left; try clear_value x) | (revert x; intro (x : Chip × _); refine Touch.cut (d := x.1) ?_ (fun hx => ?_); subst x; rotate_left; try clear_value x) | skip)
    | (with_reducible first | exact Touch.refl | assumption | apply Touch.wr | apply Touch.step (Chip.pl_touch ..) | apply Touch.step (Chip.ringBroadcast_touch ..))
    | decide +kernel
    | (with_reducible apply Touch.upd) <;> first | (intro p; cases p <;> dsimp only [Part.same] <;> first | exact Or.inl (by decide +kernel) | exact Or.inr rfl) | (with_reducible first | exact Touch.refl | assumption | apply Touch.wr | apply Touch.step (Chip.pl_touch ..) | apply Touch.step (Chip.ringBroadcast_touch ..)) | split
    | exact covers_reg (by decide +kernel)
    | split
    | (intro _; intros)
    | (clear_value *; split)

theorem Chip.candidate_touch (c : Chip) (op dur : Nat) : Touch 0x100011c 0x180000000000000000000000000000000000f40000000000000000050004 c (Chip.candidate c op dur) := by
  unfold Chip.candidate
  repeat' first
    | (fail_if_no_progress extract_lets +onlyGivenNames x; first | (revert x; intro (x : Chip); refine Touch.cut (d := x) ?_ (fun hx => ?_); subst x; rotate_left; try clear_value x) | (revert x; intro (x : Chip × _); refine Touch.cut (d := x.1) ?_ (fun hx => ?_); subst x; rotate_left; try clear_value x) | skip)
    | (with_reducible first | exact Touch.refl | assumption | apply Touch.step (Chip.grantRegs_touch ..) | apply Touch.step (Chip.groupNeed_touch ..) | apply Touch.step (Chip.leaseAsk_touch ..) | apply Touch.step (Chip.pl_touch ..) | apply Touch.step (Chip.setRole_touch ..))
    | decide +kernel
    | split
    | (intro _; intros)
    | (clear_value *; split)

theorem Chip.stopServing_touch (c : Chip) : Touch 0x1000100 0x10e40000000020000000000000 c (Chip.stopServing c) := by
  unfold Chip.stopServing
  repeat' first
    | (with_reducible first | exact Touch.refl | assumption | apply Touch.put | apply Touch.step (Chip.dropMaster_touch ..) | apply Touch.step (Chip.grantRegs_touch ..) | apply Touch.step (Chip.pl_touch ..) | apply Touch.step (Chip.resyncStop_touch ..))
    | decide +kernel
    | split
    | (intro _; intros)
    | (clear_value *; split)

theorem Chip.leadLost_touch (c : Chip) (code reason : Nat) : Touch 0x1000108 0x180000000000000000000000000000000010e40000000020000000000004 c (Chip.leadLost c code reason) := by
  unfold Chip.leadLost
  repeat' first
    | (with_reducible first | exact Touch.refl | assumption | apply Touch.step (Chip.linkLog_touch ..) | apply Touch.step (Chip.pl_touch ..) | apply Touch.step (Chip.setRole_touch ..) | apply Touch.step (Chip.stopServing_touch ..))
    | decide +kernel
    | split
    | (intro _; intros)
    | (clear_value *; split)

theorem Chip.renew_touch (c : Chip) (mask : Nat) : Touch 0x100011c 0x180000000000000000000000000000000003000000000000000000000004 c (Chip.renew c mask) := by
  unfold Chip.renew
  repeat' first
    | (fail_if_no_progress extract_lets +onlyGivenNames x; first | (revert x; intro (x : Chip); refine Touch.cut (d := x) ?_ (fun hx => ?_); subst x; rotate_left; try clear_value x) | (revert x; intro (x : Chip × _); refine Touch.cut (d := x.1) ?_ (fun hx => ?_); subst x; rotate_left; try clear_value x) | skip)
    | (with_reducible first | exact Touch.refl | assumption | apply Touch.step (Chip.mirrorThen_touch ..) | apply Touch.step (Chip.pl_touch ..) | apply Touch.step (Chip.ringBroadcast_touch ..))
    | decide +kernel
    | split
    | (intro _; intros)
    | (clear_value *; split)

theorem Chip.renewed_touch (c : Chip) : Touch 0x1000108 0x180000000000000000000000000c00000010040000000000000000000004 c (Chip.renewed c) := by
  unfold Chip.renewed
  repeat' first
    | (fail_if_no_progress extract_lets +onlyGivenNames x; first | (revert x; intro (x : Chip); refine Touch.cut (d := x) ?_ (fun hx => ?_); subst x; rotate_left; try clear_value x) | (revert x; intro (x : Chip × _); refine Touch.cut (d := x.1) ?_ (fun hx => ?_); subst x; rotate_left; try clear_value x) | skip)
    | (with_reducible first | exact Touch.refl | assumption | apply Touch.put | apply Touch.step (Chip.jDurable_touch ..) | apply Touch.step (Chip.linkLog_touch ..) | apply Touch.step (Chip.pl_touch ..) | apply Touch.step (Chip.resyncStop_touch ..))
    | decide +kernel
    | split
    | (intro _; intros)
    | (clear_value *; split)

theorem Chip.granted__touch (c : Chip) (m : Inbox) : Touch 0x100010c 0x180000000000000000000000000c00000010e40000000020000000000004 c (Chip.granted_ c m) := by
  unfold Chip.granted_
  repeat' first
    | (fail_if_no_progress extract_lets +onlyGivenNames x; first | (revert x; intro (x : Chip); refine Touch.cut (d := x) ?_ (fun hx => ?_); subst x; rotate_left; try clear_value x) | (revert x; intro (x : Chip × _); refine Touch.cut (d := x.1) ?_ (fun hx => ?_); subst x; rotate_left; try clear_value x) | skip)
    | (with_reducible first | exact Touch.refl | assumption | apply Touch.step (Chip.askResync_touch ..) | apply Touch.step (Chip.grantRegs_touch ..) | apply Touch.step (Chip.leadLost_touch ..) | apply Touch.step (Chip.linkLog_touch ..) | apply Touch.step (Chip.pl_touch ..) | apply Touch.step (Chip.renewed_touch ..) | apply Touch.step (Chip.setRole_touch ..))
    | decide +kernel
    | split
    | (intro _; intros)
    | (clear_value *; split)

theorem Chip.cardTakeover_touch (c : Chip) (held : Bool) : Touch 0x104811e 0x180000000000000000000004000000000003000040000000000000004004 c (Chip.cardTakeover c held) := by
  unfold Chip.cardTakeover
  repeat' first
    | (fail_if_no_progress extract_lets +onlyGivenNames x; first | (revert x; intro (x : Chip); refine Touch.cut (d := x) ?_ (fun hx => ?_); subst x; rotate_left; try clear_value x) | (revert x; intro (x : Chip × _); refine Touch.cut (d := x.1) ?_ (fun hx => ?_); subst x; rotate_left; try clear_value x) | skip)
    | (with_reducible first | exact Touch.refl | assumption | apply Touch.step (Chip.cardStart_touch ..) | apply Touch.step (Chip.log_touch ..))
    | decide +kernel
    | split
    | (intro _; intros)
    | (clear_value *; split)

theorem Chip.partnerLost_touch (c : Chip) : Touch 0x104811e 0x180000000000000000000004000000000013f40040000000000000054004 c (Chip.partnerLost c) := by
  unfold Chip.partnerLost
  repeat' first
    | (fail_if_no_progress extract_lets +onlyGivenNames x; first | (revert x; intro (x : Chip); refine Touch.cut (d := x) ?_ (fun hx => ?_); subst x; rotate_left; try clear_value x) | (revert x; intro (x : Chip × _); refine Touch.cut (d := x.1) ?_ (fun hx => ?_); subst x; rotate_left; try clear_value x) | skip)
    | (with_reducible first | exact Touch.refl | assumption | apply Touch.put | apply Touch.step (Chip.candidate_touch ..) | apply Touch.step (Chip.cardTakeover_touch ..) | apply Touch.step (Chip.leaseAsk_touch ..) | apply Touch.step (Chip.linkLog_touch ..) | apply Touch.step (Chip.pl_touch ..) | apply Touch.step (Chip.renew_touch ..) | apply Touch.step (Chip.resyncLost_touch ..) | apply Touch.step (Chip.resyncStop_touch ..))
    | decide +kernel
    | split
    | (intro _; intros)
    | (clear_value *; split)

theorem Chip.replayRec_touch (c : Chip) (r : JRec) : Touch 0x10100 0x188000000000000000000000000000000000 c (Chip.replayRec c r) := by
  unfold Chip.replayRec
  repeat' first
    | (fail_if_no_progress extract_lets +onlyGivenNames x; first | (revert x; intro (x : Chip); refine Touch.cut (d := x) ?_ (fun hx => ?_); subst x; rotate_left; try clear_value x) | (revert x; intro (x : Chip × _); refine Touch.cut (d := x.1) ?_ (fun hx => ?_); subst x; rotate_left; try clear_value x) | skip)
    | (with_reducible first | exact Touch.refl | assumption | apply Touch.step (Chip.applyRec_touch ..) | apply Touch.step (Chip.cu_touch ..))
    | decide +kernel
    | split
    | (intro _; intros)
    | (clear_value *; split)

theorem Chip.replay_touch (c : Chip) : Touch 0x101013c 0x180000000000000000000000188301000000000000000000000000000004 c (Chip.replay c) := by
  unfold Chip.replay
  repeat' first
    | (fail_if_no_progress extract_lets +onlyGivenNames x; first | (revert x; intro (x : Chip); refine Touch.cut (d := x) ?_ (fun hx => ?_); subst x; rotate_left; try clear_value x) | (revert x; intro (x : Chip × _); refine Touch.cut (d := x.1) ?_ (fun hx => ?_); subst x; rotate_left; try clear_value x) | skip)
    | (with_reducible first | exact Touch.refl | assumption | apply Touch.each | apply Touch.put | apply Touch.puti | apply Touch.foldl | apply Touch.foldl_fst | apply Touch.step (Chip.cu_touch ..) | apply Touch.step (Chip.jWrite_touch ..) | apply Touch.step (Chip.log_touch ..) | apply Touch.step (Chip.makeBob_touch ..) | apply Touch.step (Chip.push_touch ..) | apply Touch.step (Chip.replayRec_touch ..))
    | decide +kernel
    | split
    | (intro _; intros)
    | (clear_value *; split)

theorem Chip.relayResume_touch (c : Chip) : Touch 0x101010c 0x180000000000000000000000000000000000000000000000000000000004 c (Chip.relayResume c) := by
  unfold Chip.relayResume
  repeat' first
    | (fail_if_no_progress extract_lets +onlyGivenNames x; first | (revert x; intro (x : Chip); refine Touch.cut (d := x) ?_ (fun hx => ?_); subst x; rotate_left; try clear_value x) | (revert x; intro (x : Chip × _); refine Touch.cut (d := x.1) ?_ (fun hx => ?_); subst x; rotate_left; try clear_value x) | skip)
    | (with_reducible first | exact Touch.refl | assumption | apply Touch.each | apply Touch.step (Chip.cu_touch ..) | apply Touch.step (Chip.pl_touch ..) | apply Touch.step (Chip.relayBack_touch ..) | apply Touch.step (Chip.warpTo_touch ..))
    | decide +kernel
    | split
    | (intro _; intros)
    | (clear_value *; split)

theorem Chip.meet_touch (c : Chip) : Touch 0x101013c 0x180000000000000000000000188301000000f40000000020000000050004 c (Chip.meet c) := by
  unfold Chip.meet
  repeat' first
    | (fail_if_no_progress extract_lets +onlyGivenNames x; first | (revert x; intro (x : Chip); refine Touch.cut (d := x) ?_ (fun hx => ?_); subst x; rotate_left; try clear_value x) | (revert x; intro (x : Chip × _); refine Touch.cut (d := x.1) ?_ (fun hx => ?_); subst x; rotate_left; try clear_value x) | skip)
    | (with_reducible first | exact Touch.refl | assumption | apply Touch.step (Chip.askResync_touch ..) | apply Touch.step (Chip.candidate_touch ..) | apply Touch.step (Chip.dropMaster_touch ..) | apply Touch.step (Chip.replay_touch ..) | apply Touch.step (Chip.setRole_touch ..))
    | decide +kernel
    | split
    | (intro _; intros)
    | (clear_value *; split)

theorem Chip.cardFirst_touch (c : Chip) : Touch 0x104811e 0x180000000000000000000004000000000003000040000000000000004004 c (Chip.cardFirst c) := by
  unfold Chip.cardFirst
  repeat' first
    | (fail_if_no_progress extract_lets +onlyGivenNames x; first | (revert x; intro (x : Chip); refine Touch.cut (d := x) ?_ (fun hx => ?_); subst x; rotate_left; try clear_value x) | (revert x; intro (x : Chip × _); refine Touch.cut (d := x.1) ?_ (fun hx => ?_); subst x; rotate_left; try clear_value x) | skip)
    | (with_reducible first | exact Touch.refl | assumption | apply Touch.step (Chip.cardStart_touch ..))
    | decide +kernel
    | split
    | (intro _; intros)
    | (clear_value *; split)

theorem Chip.authDone_touch (c : Chip) (ks : List Byte × List Byte) : Touch 0x105813e 0x180000000000000000000004188301000003f40040000020000000054004 c (Chip.authDone c ks) := by
  unfold Chip.authDone
  repeat' first
    | (fail_if_no_progress extract_lets +onlyGivenNames x; first | (revert x; intro (x : Chip); refine Touch.cut (d := x) ?_ (fun hx => ?_); subst x; rotate_left; try clear_value x) | (revert x; intro (x : Chip × _); refine Touch.cut (d := x.1) ?_ (fun hx => ?_); subst x; rotate_left; try clear_value x) | skip)
    | (with_reducible first | exact Touch.refl | assumption | apply Touch.put | apply Touch.step (Chip.cardFirst_touch ..) | apply Touch.step (Chip.linkLog_touch ..) | apply Touch.step (Chip.meet_touch ..) | apply Touch.step (Chip.pl_touch ..) | apply Touch.step (Chip.relayResume_touch ..))
    | decide +kernel
    | split
    | (intro _; intros)
    | (clear_value *; split)

theorem Chip.helloIn_touch (c : Chip) (h : List Byte) : Touch 0x104010e 0x180000000000000000000004000000000010040000000000000000000004 c (Chip.helloIn c h) := by
  unfold Chip.helloIn
  repeat' first
    | (fail_if_no_progress extract_lets +onlyGivenNames x; first | (revert x; intro (x : Chip); refine Touch.cut (d := x) ?_ (fun hx => ?_); subst x; rotate_left; try clear_value x) | (revert x; intro (x : Chip × _); refine Touch.cut (d := x.1) ?_ (fun hx => ?_); subst x; rotate_left; try clear_value x) | (revert x; intro (x : _ × Chip); refine Touch.cut (d := x.2) ?_ (fun hx => ?_); subst x; rotate_left; try clear_value x) | (revert x; intro (x : _ × _ × Chip); refine Touch.cut (d := x.2.2) ?_ (fun hx => ?_); subst x; rotate_left; try clear_value x) | skip)
    | (with_reducible first | exact Touch.refl | assumption | apply Touch.put | apply Touch.step (Chip.authFail_touch ..) | apply Touch.step (Chip.authSend_touch ..) | apply Touch.step (Chip.linkLog_touch ..) | apply Touch.step (Chip.linkTrain_touch ..) | apply Touch.step (Chip.pl_touch ..) | apply Touch.step (Chip.plyGot_touch ..) | apply Touch.step (Chip.rnd_touch ..))
    | decide +kernel
    | split
    | (intro _; intros)
    | (clear_value *; split)

theorem Chip.authIn_touch (c : Chip) (point kem : List Byte) (certs sigs : List (List Byte)) (genuine : Bool) : Touch 0x105813e 0x180000000000000000000004188301000003f40040000020000000054004 c (Chip.authIn c point kem certs sigs genuine) := by
  unfold Chip.authIn
  repeat' first
    | (fail_if_no_progress extract_lets +onlyGivenNames x; first | (revert x; intro (x : Chip); refine Touch.cut (d := x) ?_ (fun hx => ?_); subst x; rotate_left; try clear_value x) | (revert x; intro (x : Chip × _); refine Touch.cut (d := x.1) ?_ (fun hx => ?_); subst x; rotate_left; try clear_value x) | (revert x; intro (x : _ × Chip); refine Touch.cut (d := x.2) ?_ (fun hx => ?_); subst x; rotate_left; try clear_value x) | (revert x; intro (x : _ × _ × Chip); refine Touch.cut (d := x.2.2) ?_ (fun hx => ?_); subst x; rotate_left; try clear_value x) | skip)
    | (with_reducible first | exact Touch.refl | assumption | apply Touch.step (Chip.authDone_touch ..) | apply Touch.step (Chip.authFail_touch ..) | apply Touch.step (Chip.authSend_touch ..) | apply Touch.step (Chip.authSigs_touch ..) | apply Touch.step (Chip.pl_touch ..) | apply Touch.step (Chip.plyGot_touch ..) | apply Touch.step (Chip.rnd_touch ..))
    | decide +kernel
    | split
    | (intro _; intros)
    | (clear_value *; split)

theorem Chip.cancelOn_touch (c : Chip) (n : Nat) : Touch 0x103011c 0x180000000000000000000000000000000000000020000000000000000004 c (Chip.cancelOn c n) := by
  unfold Chip.cancelOn
  repeat' first
    | (fail_if_no_progress extract_lets +onlyGivenNames x; first | (revert x; intro (x : Chip); refine Touch.cut (d := x) ?_ (fun hx => ?_); subst x; rotate_left; try clear_value x) | (revert x; intro (x : Chip × _); refine Touch.cut (d := x.1) ?_ (fun hx => ?_); subst x; rotate_left; try clear_value x) | skip)
    | (with_reducible first | exact Touch.refl | assumption | apply Touch.each | apply Touch.step (Chip.cancelSettled_touch ..) | apply Touch.step (Chip.ringBroadcast_touch ..) | apply Touch.step (Chip.unconfirmed_touch ..) | apply Touch.step (Chip.warpTo_touch ..))
    | decide +kernel
    | (with_reducible apply Touch.upd) <;> first | (intro p; cases p <;> dsimp only [Part.same] <;> first | exact Or.inl (by decide +kernel) | exact Or.inr rfl) | (with_reducible first | exact Touch.refl | assumption | apply Touch.each | apply Touch.step (Chip.cancelSettled_touch ..) | apply Touch.step (Chip.ringBroadcast_touch ..) | apply Touch.step (Chip.unconfirmed_touch ..) | apply Touch.step (Chip.warpTo_touch ..)) | split
    | split
    | (intro _; intros)
    | (clear_value *; split)

theorem Chip.takeOver_touch (c : Chip) : Touch 0x1e7813e 0x180000000000000000000004080300000003000022000000000000004184 c (Chip.takeOver c) := by
  unfold Chip.takeOver
  repeat' first
    | (fail_if_no_progress extract_lets +onlyGivenNames x; first | (revert x; intro (x : Chip); refine Touch.cut (d := x) ?_ (fun hx => ?_); subst x; rotate_left; try clear_value x) | (revert x; intro (x : Chip × _); refine Touch.cut (d := x.1) ?_ (fun hx => ?_); subst x; rotate_left; try clear_value x) | skip)
    | (with_reducible first | exact Touch.refl | assumption | apply Touch.each | apply Touch.step (Chip.armAll_touch ..) | apply Touch.step (Chip.blobWrite_touch ..) | apply Touch.step (Chip.bobMod_touch ..) | apply Touch.step (Chip.cacheDrop_touch ..) | apply Touch.step (Chip.cancelOn_touch ..) | apply Touch.step (Chip.cu_touch ..) | apply Touch.step (Chip.lclose_touch ..) | apply Touch.step (Chip.lfinal_touch ..) | apply Touch.step (Chip.lfired_touch ..) | apply Touch.step (Chip.lrepeat_touch ..) | apply Touch.step (Chip.twMod_touch ..))
    | decide +kernel
    | (with_reducible apply Touch.upd) <;> first | (intro p; cases p <;> dsimp only [Part.same] <;> first | exact Or.inl (by decide +kernel) | exact Or.inr rfl) | (with_reducible first | exact Touch.refl | assumption | apply Touch.each | apply Touch.step (Chip.armAll_touch ..) | apply Touch.step (Chip.blobWrite_touch ..) | apply Touch.step (Chip.bobMod_touch ..) | apply Touch.step (Chip.cacheDrop_touch ..) | apply Touch.step (Chip.cancelOn_touch ..) | apply Touch.step (Chip.cu_touch ..) | apply Touch.step (Chip.lclose_touch ..) | apply Touch.step (Chip.lfinal_touch ..) | apply Touch.step (Chip.lfired_touch ..) | apply Touch.step (Chip.lrepeat_touch ..) | apply Touch.step (Chip.twMod_touch ..)) | split
    | split
    | (intro _; intros)
    | (clear_value *; split)

theorem Chip.promote_touch (c : Chip) : Touch 0x1e7813e 0x180000000000000000000004080300800063040022000020000000004184 c (Chip.promote c) := by
  unfold Chip.promote
  repeat' first
    | (fail_if_no_progress extract_lets +onlyGivenNames x; first | (revert x; intro (x : Chip); refine Touch.cut (d := x) ?_ (fun hx => ?_); subst x; rotate_left; try clear_value x) | (revert x; intro (x : Chip × _); refine Touch.cut (d := x.1) ?_ (fun hx => ?_); subst x; rotate_left; try clear_value x) | skip)
    | (with_reducible first | exact Touch.refl | assumption | apply Touch.put | apply Touch.put64 | apply Touch.step (Chip.cu_touch ..) | apply Touch.step (Chip.linkLog_touch ..) | apply Touch.step (Chip.pl_touch ..) | apply Touch.step (Chip.setMaster_touch ..) | apply Touch.step (Chip.setRole_touch ..) | apply Touch.step (Chip.takeOver_touch ..))
    | decide +kernel
    | exact covers_reg (by decide +kernel)
    | split
    | (intro _; intros)
    | (clear_value *; split)

theorem Chip.jFollow_touch (c : Chip) (pos : Nat) (r : JRec) : Touch 0x10000 0x300000000000000000000000000000000 c (Chip.jFollow c pos r) := by
  unfold Chip.jFollow
  repeat' first
    | (fail_if_no_progress extract_lets +onlyGivenNames x; first | (revert x; intro (x : Chip); refine Touch.cut (d := x) ?_ (fun hx => ?_); subst x; rotate_left; try clear_value x) | (revert x; intro (x : Chip × _); refine Touch.cut (d := x.1) ?_ (fun hx => ?_); subst x; rotate_left; try clear_value x) | skip)
    | (with_reducible first | exact Touch.refl | assumption | apply Touch.put64 | apply Touch.step (Chip.jr_touch ..))
    | decide +kernel
    | exact covers_reg (by decide +kernel)
    | split
    | (intro _; intros)
    | (clear_value *; split)

theorem Chip.followLive_touch (c : Chip) (h : Nat) : Touch 0xc00100 0x8000000000000000000070c00000000000000000000000000000000000000000 c (Chip.followLive c h) := by
  unfold Chip.followLive
  repeat' first
    | (fail_if_no_progress extract_lets +onlyGivenNames x; first | (revert x; intro (x : Chip); refine Touch.cut (d := x) ?_ (fun hx => ?_); subst x; rotate_left; try clear_value x) | (revert x; intro (x : Chip × _); refine Touch.cut (d := x.1) ?_ (fun hx => ?_); subst x; rotate_left; try clear_value x) | skip)
    | (with_reducible first | exact Touch.refl | assumption | apply Touch.step (Chip.hankMod_touch ..) | apply Touch.step (Chip.twOpen_touch ..))
    | decide +kernel
    | split
    | (intro _; intros)
    | (clear_value *; split)

theorem Chip.followRec_touch (c : Chip) (pos : Nat) (r : JRec) : Touch 0x3c10100 0x8000000000000000000070c00000188300000000000000000000000000000000 c (Chip.followRec c pos r) := by
  unfold Chip.followRec
  repeat' first
    | (fail_if_no_progress extract_lets +onlyGivenNames x; first | (revert x; intro (x : Chip); refine Touch.cut (d := x) ?_ (fun hx => ?_); subst x; rotate_left; try clear_value x) | (revert x; intro (x : Chip × _); refine Touch.cut (d := x.1) ?_ (fun hx => ?_); subst x; rotate_left; try clear_value x) | skip)
    | (with_reducible first | exact Touch.refl | assumption | apply Touch.step (Chip.applyRec_touch ..) | apply Touch.step (Chip.followLive_touch ..) | apply Touch.step (Chip.jFollow_touch ..) | apply Touch.step (Chip.jName_touch ..) | apply Touch.step (Chip.pl_touch ..))
    | decide +kernel
    | (with_reducible apply Touch.upd) <;> first | (intro p; cases p <;> dsimp only [Part.same] <;> first | exact Or.inl (by decide +kernel) | exact Or.inr rfl) | (with_reducible first | exact Touch.refl | assumption | apply Touch.step (Chip.applyRec_touch ..) | apply Touch.step (Chip.followLive_touch ..) | apply Touch.step (Chip.jFollow_touch ..) | apply Touch.step (Chip.jName_touch ..) | apply Touch.step (Chip.pl_touch ..)) | split
    | split
    | (intro _; intros)
    | (clear_value *; split)

theorem Chip.followEntry_touch (c : Chip) (e : LaunchItem) (n : Nat) : Touch 0x21100 0x3f80000000000000000 c (Chip.followEntry c e n) := by
  unfold Chip.followEntry
  repeat' first
    | (fail_if_no_progress extract_lets +onlyGivenNames x; first | (revert x; intro (x : Chip); refine Touch.cut (d := x) ?_ (fun hx => ?_); subst x; rotate_left; try clear_value x) | (revert x; intro (x : Chip × _); refine Touch.cut (d := x.1) ?_ (fun hx => ?_); subst x; rotate_left; try clear_value x) | skip)
    | (with_reducible first | exact Touch.refl | assumption | apply Touch.put64i | apply Touch.puti | apply Touch.wri | apply Chip.pending_touch)
    | decide +kernel
    | (with_reducible apply Touch.upd) <;> first | (intro p; cases p <;> dsimp only [Part.same] <;> first | exact Or.inl (by decide +kernel) | exact Or.inr rfl) | (with_reducible first | exact Touch.refl | assumption | apply Touch.put64i | apply Touch.puti | apply Touch.wri | apply Chip.pending_touch) | split
    | split
    | (intro _; intros)
    | (clear_value *; split)

theorem Chip.followSwitch_touch (c : Chip) (e : LaunchItem) : Touch 0x400000 0x0 c (Chip.followSwitch c e) := by
  unfold Chip.followSwitch
  repeat' first
    | (with_reducible first | exact Touch.refl | assumption | apply Touch.step (Chip.hankMod_touch ..))
    | decide +kernel
    | split
    | (intro _; intros)
    | (clear_value *; split)

theorem Chip.followState_touch (c : Chip) (e : LaunchItem) (n : Nat) : Touch 0x103011c 0x180000000000000000000000080000000000000022000000000000000004 c (Chip.followState c e n) := by
  unfold Chip.followState
  repeat' first
    | (fail_if_no_progress extract_lets +onlyGivenNames x; first | (revert x; intro (x : Chip); refine Touch.cut (d := x) ?_ (fun hx => ?_); subst x; rotate_left; try clear_value x) | (revert x; intro (x : Chip × _); refine Touch.cut (d := x.1) ?_ (fun hx => ?_); subst x; rotate_left; try clear_value x) | skip)
    | (with_reducible first | exact Touch.refl | assumption | apply Touch.each | apply Touch.when | apply Touch.step (Chip.bobMod_touch ..) | apply Touch.step (Chip.lset_touch ..) | apply Touch.step (Chip.shed_touch ..))
    | decide +kernel
    | (with_reducible apply Touch.upd) <;> first | (intro p; cases p <;> dsimp only [Part.same] <;> first | exact Or.inl (by decide +kernel) | exact Or.inr rfl) | (with_reducible first | exact Touch.refl | assumption | apply Touch.each | apply Touch.when | apply Touch.step (Chip.bobMod_touch ..) | apply Touch.step (Chip.lset_touch ..) | apply Touch.step (Chip.shed_touch ..)) | split
    | split
    | (intro _; intros)
    | (clear_value *; split)

theorem Chip.followLaunch_touch (c : Chip) (e : LaunchItem) : Touch 0x143111c 0x1000180000000000000000000000080000000000000023f80000000000000004 c (Chip.followLaunch c e) := by
  unfold Chip.followLaunch
  repeat' first
    | (fail_if_no_progress extract_lets +onlyGivenNames x; first | (revert x; intro (x : Chip); refine Touch.cut (d := x) ?_ (fun hx => ?_); subst x; rotate_left; try clear_value x) | (revert x; intro (x : Chip × _); refine Touch.cut (d := x.1) ?_ (fun hx => ?_); subst x; rotate_left; try clear_value x) | skip)
    | (with_reducible first | exact Touch.refl | assumption | apply Touch.puti | apply Touch.when | apply Touch.step (Chip.followEntry_touch ..) | apply Touch.step (Chip.followState_touch ..) | apply Touch.step (Chip.followSwitch_touch ..) | apply Touch.step (Chip.lfree_touch ..))
    | decide +kernel
    | split
    | (intro _; intros)
    | (clear_value *; split)

theorem Chip.followObject_touch (c : Chip) (d : List Byte) : Touch 0xc01908 0x180000000000000000000000000000000000000000000000000000000004 c (Chip.followObject c d) := by
  unfold Chip.followObject
  repeat' first
    | (fail_if_no_progress extract_lets +onlyGivenNames x; first | (revert x; intro (x : Chip); refine Touch.cut (d := x) ?_ (fun hx => ?_); subst x; rotate_left; try clear_value x) | (revert x; intro (x : Chip × _); refine Touch.cut (d := x.1) ?_ (fun hx => ?_); subst x; rotate_left; try clear_value x) | skip)
    | (with_reducible first | exact Touch.refl | assumption | apply Touch.step (Chip.gathered_touch ..) | apply Touch.step (Chip.ha_touch ..) | apply Touch.step (Chip.hankMod_touch ..) | apply Touch.step (Chip.twMod_touch ..))
    | decide +kernel
    | split
    | (intro _; intros)
    | (clear_value *; split)

theorem Chip.followKey_touch (c : Chip) (h cer : Nat) (key : List Byte) : Touch 0x410100 0x100000000000000000000000000000000000 c (Chip.followKey c h cer key) := by
  unfold Chip.followKey
  repeat' first
    | (fail_if_no_progress extract_lets +onlyGivenNames x; first | (revert x; intro (x : Chip); refine Touch.cut (d := x) ?_ (fun hx => ?_); subst x; rotate_left; try clear_value x) | (revert x; intro (x : Chip × _); refine Touch.cut (d := x.1) ?_ (fun hx => ?_); subst x; rotate_left; try clear_value x) | skip)
    | (with_reducible first | exact Touch.refl | assumption | apply Touch.puti | apply Touch.step (Chip.cu_touch ..) | apply Touch.step (Chip.hankMod_touch ..))
    | decide +kernel
    | split
    | (intro _; intros)
    | (clear_value *; split)

theorem Chip.followBody_touch (c : Chip) (b : List Byte) : Touch 0x400000 0x0 c (Chip.followBody c b) := by
  unfold Chip.followBody
  repeat' first
    | (fail_if_no_progress extract_lets +onlyGivenNames x; first | (revert x; intro (x : Chip); refine Touch.cut (d := x) ?_ (fun hx => ?_); subst x; rotate_left; try clear_value x) | (revert x; intro (x : Chip × _); refine Touch.cut (d := x.1) ?_ (fun hx => ?_); subst x; rotate_left; try clear_value x) | skip)
    | (with_reducible first | exact Touch.refl | assumption | apply Touch.step (Chip.ha_touch ..))
    | decide +kernel
    | split
    | (intro _; intros)
    | (clear_value *; split)

theorem Chip.followItem_touch (c : Chip) (i : MItem) : Touch 0x3e7193e 0x900018001000000000027fd00004188380000000100063f80000000000004184 c (Chip.followItem c i) := by
  unfold Chip.followItem
  repeat' first
    | (fail_if_no_progress extract_lets +onlyGivenNames x; first | (revert x; intro (x : Chip); refine Touch.cut (d := x) ?_ (fun hx => ?_); subst x; rotate_left; try clear_value x) | (revert x; intro (x : Chip × _); refine Touch.cut (d := x.1) ?_ (fun hx => ?_); subst x; rotate_left; try clear_value x) | skip)
    | (with_reducible first | exact Touch.refl | assumption | apply Touch.put | apply Touch.wr | apply Touch.step (Chip.bobMod_touch ..) | apply Touch.step (Chip.cachePut_touch ..) | apply Touch.step (Chip.cardDrop_touch ..) | apply Touch.step (Chip.cardSet_touch ..) | apply Touch.step (Chip.cu_touch ..) | apply Touch.step (Chip.followBody_touch ..) | apply Touch.step (Chip.followKey_touch ..) | apply Touch.step (Chip.followLaunch_touch ..) | apply Touch.step (Chip.followObject_touch ..) | apply Touch.step (Chip.followRec_touch ..) | apply Touch.step (Chip.gathered_touch ..) | apply Touch.step (Chip.ha_touch ..) | apply Touch.step (Chip.hankFree_touch ..) | apply Touch.step (Chip.hankMod_touch ..) | apply Touch.step (Chip.pl_touch ..) | apply Touch.step (Chip.reenc_touch ..) | apply Touch.step (Chip.rootMirrored_touch ..) | apply Touch.step (Chip.setCarded_touch ..) | apply Touch.step (Chip.twFollow_touch ..) | apply Touch.step (Chip.twIntake_touch ..))
    | decide +kernel
    | (with_reducible apply Touch.upd) <;> first | (intro p; cases p <;> dsimp only [Part.same] <;> first | exact Or.inl (by decide +kernel) | exact Or.inr rfl) | (with_reducible first | exact Touch.refl | assumption | apply Touch.put | apply Touch.wr | apply Touch.step (Chip.bobMod_touch ..) | apply Touch.step (Chip.cachePut_touch ..) | apply Touch.step (Chip.cardDrop_touch ..) | apply Touch.step (Chip.cardSet_touch ..) | apply Touch.step (Chip.cu_touch ..) | apply Touch.step (Chip.followBody_touch ..) | apply Touch.step (Chip.followKey_touch ..) | apply Touch.step (Chip.followLaunch_touch ..) | apply Touch.step (Chip.followObject_touch ..) | apply Touch.step (Chip.followRec_touch ..) | apply Touch.step (Chip.gathered_touch ..) | apply Touch.step (Chip.ha_touch ..) | apply Touch.step (Chip.hankFree_touch ..) | apply Touch.step (Chip.hankMod_touch ..) | apply Touch.step (Chip.pl_touch ..) | apply Touch.step (Chip.reenc_touch ..) | apply Touch.step (Chip.rootMirrored_touch ..) | apply Touch.step (Chip.setCarded_touch ..) | apply Touch.step (Chip.twFollow_touch ..) | apply Touch.step (Chip.twIntake_touch ..)) | split
    | exact covers_reg (by decide +kernel)
    | split
    | (intro _; intros)
    | (clear_value *; split)

theorem Chip.lateGo_touch (c : Chip) (n : Nat) : Touch 0x3010000 0x300000000000000000000000000000000 c (Chip.lateGo c n) := by
  induction n generalizing c with
  | zero => unfold Chip.lateGo; (try split) <;> exact Touch.refl
  | succ n ih =>
  unfold Chip.lateGo
  repeat' first
    | (fail_if_no_progress extract_lets +onlyGivenNames x; first | (revert x; intro (x : Chip); refine Touch.cut (d := x) ?_ (fun hx => ?_); subst x; rotate_left; try clear_value x) | (revert x; intro (x : Chip × _); refine Touch.cut (d := x.1) ?_ (fun hx => ?_); subst x; rotate_left; try clear_value x) | skip)
    | (with_reducible first | exact Touch.refl | assumption | apply Touch.step (Chip.jFollow_touch ..) | apply Touch.step (Chip.pl_touch ..) | apply Touch.step (ih ..))
    | decide +kernel
    | (with_reducible apply Touch.upd) <;> first | (intro p; cases p <;> dsimp only [Part.same] <;> first | exact Or.inl (by decide +kernel) | exact Or.inr rfl) | (with_reducible first | exact Touch.refl | assumption | apply Touch.step (Chip.jFollow_touch ..) | apply Touch.step (Chip.pl_touch ..) | apply Touch.step (ih ..)) | split
    | split
    | (intro _; intros)
    | (clear_value *; split)

theorem Chip.mirrorIn_touch (c : Chip) (n : Nat) (i : MItem) : Touch 0x3e7193e 0x900018001000000000027fd00004188380000003140063f80000000000004184 c (Chip.mirrorIn c n i) := by
  unfold Chip.mirrorIn
  repeat' first
    | (fail_if_no_progress extract_lets +onlyGivenNames x; first | (revert x; intro (x : Chip); refine Touch.cut (d := x) ?_ (fun hx => ?_); subst x; rotate_left; try clear_value x) | (revert x; intro (x : Chip × _); refine Touch.cut (d := x.1) ?_ (fun hx => ?_); subst x; rotate_left; try clear_value x) | skip)
    | (with_reducible first | exact Touch.refl | assumption | apply Touch.put64 | apply Touch.step (Chip.count_touch ..) | apply Touch.step (Chip.followItem_touch ..) | apply Touch.step (Chip.lateGo_touch ..) | apply Touch.step (Chip.pl_touch ..) | apply Touch.step (Chip.plyGot_touch ..) | apply Touch.step (Chip.setRole_touch ..))
    | decide +kernel
    | exact covers_reg (by decide +kernel)
    | split
    | (intro _; intros)
    | (clear_value *; split)

theorem Chip.acksDue_touch (c : Chip) : Touch 0x100010c 0x180000000000000000000000000000000000000000000000000000000004 c (Chip.acksDue c) := by
  unfold Chip.acksDue
  repeat' first
    | (fail_if_no_progress extract_lets +onlyGivenNames x; first | (revert x; intro (x : Chip); refine Touch.cut (d := x) ?_ (fun hx => ?_); subst x; rotate_left; try clear_value x) | (revert x; intro (x : Chip × _); refine Touch.cut (d := x.1) ?_ (fun hx => ?_); subst x; rotate_left; try clear_value x) | skip)
    | (with_reducible first | exact Touch.refl | assumption | apply Touch.foldl | apply Touch.foldl_fst | apply Touch.step (Chip.pl_touch ..) | apply Touch.step (Chip.plySend_touch ..))
    | decide +kernel
    | split
    | (intro _; intros)
    | (clear_value *; split)

theorem Chip.resyncShow_touch (c : Chip) (path phase records : Nat) : Touch 0x1000100 0x10000000000000000000000000 c (Chip.resyncShow c path phase records) := by
  unfold Chip.resyncShow
  repeat' first
    | (with_reducible first | exact Touch.refl | assumption | apply Touch.put | apply Touch.step (Chip.pl_touch ..))
    | decide +kernel
    | split
    | (intro _; intros)
    | (clear_value *; split)

theorem Chip.resyncSend_touch (c : Chip) (r : ResPart) : Touch 0x100010c 0x180000000000000000000000000000000000000000000000000000000004 c (Chip.resyncSend c r) := by
  unfold Chip.resyncSend
  repeat' first
    | (fail_if_no_progress extract_lets +onlyGivenNames x; first | (revert x; intro (x : Chip); refine Touch.cut (d := x) ?_ (fun hx => ?_); subst x; rotate_left; try clear_value x) | (revert x; intro (x : Chip × _); refine Touch.cut (d := x.1) ?_ (fun hx => ?_); subst x; rotate_left; try clear_value x) | skip)
    | (with_reducible first | exact Touch.refl | assumption | apply Touch.step (Chip.plySend_touch ..))
    | decide +kernel
    | split
    | (intro _; intros)
    | (clear_value *; split)

theorem Chip.resyncPages_touch (c : Chip) (path : Nat) (todo : List (Nat × JRec)) : Touch 0x100010c 0x180000000000000000000000000000000000000000000000000000000004 c (Chip.resyncPages c path todo) := by
  unfold Chip.resyncPages
  repeat' first
    | (with_reducible first | exact Touch.refl | assumption | apply Touch.each | apply Touch.step (Chip.resyncSend_touch ..))
    | decide +kernel
    | split
    | (intro _; intros)
    | (clear_value *; split)

theorem Chip.resyncParts_touch (c : Chip) (path next : Nat) (todo : List (Nat × JRec)) : Touch 0x100010c 0x180000000000000000000000000000000010040000000000000000000004 c (Chip.resyncParts c path next todo) := by
  unfold Chip.resyncParts
  repeat' first
    | (fail_if_no_progress extract_lets +onlyGivenNames x; first | (revert x; intro (x : Chip); refine Touch.cut (d := x) ?_ (fun hx => ?_); subst x; rotate_left; try clear_value x) | (revert x; intro (x : Chip × _); refine Touch.cut (d := x.1) ?_ (fun hx => ?_); subst x; rotate_left; try clear_value x) | skip)
    | (with_reducible first | exact Touch.refl | assumption | apply Touch.each | apply Touch.put | apply Touch.step (Chip.pl_touch ..) | apply Touch.step (Chip.resyncPages_touch ..) | apply Touch.step (Chip.resyncSend_touch ..) | apply Touch.step (Chip.resyncShow_touch ..))
    | decide +kernel
    | split
    | (intro _; intros)
    | (clear_value *; split)

theorem Chip.resyncReq_touch (c : Chip) (jseq : Nat) : Touch 0x100010c 0x180000000000000000000000000000000010040000000000000000000004 c (Chip.resyncReq c jseq) := by
  unfold Chip.resyncReq
  repeat' first
    | (fail_if_no_progress extract_lets +onlyGivenNames x; first | (revert x; intro (x : Chip); refine Touch.cut (d := x) ?_ (fun hx => ?_); subst x; rotate_left; try clear_value x) | (revert x; intro (x : Chip × _); refine Touch.cut (d := x.1) ?_ (fun hx => ?_); subst x; rotate_left; try clear_value x) | skip)
    | (with_reducible first | exact Touch.refl | assumption | apply Touch.step (Chip.plyGot_touch ..) | apply Touch.step (Chip.resyncParts_touch ..))
    | decide +kernel
    | split
    | (intro _; intros)
    | (clear_value *; split)

theorem Chip.resyncFive_touch (c : Chip) : Touch 0x100011c 0x180000000000000000000000000000000013000000000000000000000004 c (Chip.resyncFive c) := by
  unfold Chip.resyncFive
  repeat' first
    | (fail_if_no_progress extract_lets +onlyGivenNames x; first | (revert x; intro (x : Chip); refine Touch.cut (d := x) ?_ (fun hx => ?_); subst x; rotate_left; try clear_value x) | (revert x; intro (x : Chip × _); refine Touch.cut (d := x.1) ?_ (fun hx => ?_); subst x; rotate_left; try clear_value x) | skip)
    | (with_reducible first | exact Touch.refl | assumption | apply Touch.step (Chip.pl_touch ..) | apply Touch.step (Chip.renew_touch ..) | apply Touch.step (Chip.resyncShow_touch ..))
    | decide +kernel
    | split
    | (intro _; intros)
    | (clear_value *; split)

theorem Chip.chainRegs_touch (c : Chip) (h : Nat) (regs : List (Nat × Word)) : Touch 0x0 0x8000000000000000000000000000000000000000000000000000000000000000 c (c.chainRegs h regs) := by
  unfold Chip.chainRegs
  refine Touch.each (fun d e hd => ?_) (Touch.resetCopy 255 0xdc00 0x400 (by decide +kernel) (fun hn => by simp only [R.DGT_TWn_CTRL]; omega) Touch.refl)
  split
  · rename_i hc
    simp only [R.DGT_TWn_CTRL] at hc
    exact Touch.wr (covers_window (i := 255) (lo := 0xdc00) (len := 0x400) (by decide +kernel) (by omega) (by omega)) hd
  · exact hd

theorem Chip.repairTake_touch (c : Chip) (path : Nat) (e : Nat × JRec) : Touch 0x10000 0x300000000000000000000000000000000 c (Chip.repairTake c path e) := by
  unfold Chip.repairTake
  repeat' first
    | (fail_if_no_progress extract_lets +onlyGivenNames x; first | (revert x; intro (x : Chip); refine Touch.cut (d := x) ?_ (fun hx => ?_); subst x; rotate_left; try clear_value x) | (revert x; intro (x : Chip × _); refine Touch.cut (d := x.1) ?_ (fun hx => ?_); subst x; rotate_left; try clear_value x) | skip)
    | (with_reducible first | exact Touch.refl | assumption | apply Touch.put64 | apply Touch.when | apply Touch.step (Chip.jr_touch ..))
    | decide +kernel
    | exact covers_reg (by decide +kernel)
    | split
    | (intro _; intros)
    | (clear_value *; split)

theorem Chip.resyncData_touch (c : Chip) (r : ResPart) : Touch 0x3e7193e 0x900018001000000000027fd00004188380000000140063f80000000000004184 c (Chip.resyncData c r) := by
  unfold Chip.resyncData
  repeat' first
    | (fail_if_no_progress extract_lets +onlyGivenNames x; first | (revert x; intro (x : Chip); refine Touch.cut (d := x) ?_ (fun hx => ?_); subst x; rotate_left; try clear_value x) | (revert x; intro (x : Chip × _); refine Touch.cut (d := x.1) ?_ (fun hx => ?_); subst x; rotate_left; try clear_value x) | skip)
    | (with_reducible first | exact Touch.refl | assumption | apply Touch.each | apply Touch.when | apply Touch.foldl | apply Touch.foldl_fst | apply Touch.step (Chip.chainRegs_touch ..) | apply Touch.step (Chip.cu_touch ..) | apply Touch.step (Chip.followItem_touch ..) | apply Touch.step (Chip.ha_touch ..) | apply Touch.step (Chip.lateGo_touch ..) | apply Touch.step (Chip.pl_touch ..) | apply Touch.step (Chip.plyGot_touch ..) | apply Touch.step (Chip.repairTake_touch ..) | apply Touch.step (Chip.setRole_touch ..))
    | decide +kernel
    | (with_reducible apply Touch.upd) <;> first | (intro p; cases p <;> dsimp only [Part.same] <;> first | exact Or.inl (by decide +kernel) | exact Or.inr rfl) | (with_reducible first | exact Touch.refl | assumption | apply Touch.each | apply Touch.when | apply Touch.foldl | apply Touch.foldl_fst | apply Touch.step (Chip.chainRegs_touch ..) | apply Touch.step (Chip.cu_touch ..) | apply Touch.step (Chip.followItem_touch ..) | apply Touch.step (Chip.ha_touch ..) | apply Touch.step (Chip.lateGo_touch ..) | apply Touch.step (Chip.pl_touch ..) | apply Touch.step (Chip.plyGot_touch ..) | apply Touch.step (Chip.repairTake_touch ..) | apply Touch.step (Chip.setRole_touch ..)) | split
    | split
    | (intro _; intros)
    | (clear_value *; split)

theorem Chip.resyncDone_touch (c : Chip) : Touch 0x1000108 0x180000000000000000000000000000000000040000000000000000000004 c (Chip.resyncDone c) := by
  unfold Chip.resyncDone
  repeat' first
    | (with_reducible first | exact Touch.refl | assumption | apply Touch.step (Chip.linkLog_touch ..) | apply Touch.step (Chip.pl_touch ..) | apply Touch.step (Chip.setRole_touch ..))
    | decide +kernel
    | split
    | (intro _; intros)
    | (clear_value *; split)

theorem Chip.beatIn_touch (c : Chip) (b : List Byte) : Touch 0x105811e 0x180000000000000000000004000c00000013f40040000020000000054004 c (Chip.beatIn c b) := by
  unfold Chip.beatIn
  repeat' first
    | (fail_if_no_progress extract_lets +onlyGivenNames x; first | (revert x; intro (x : Chip); refine Touch.cut (d := x) ?_ (fun hx => ?_); subst x; rotate_left; try clear_value x) | (revert x; intro (x : Chip × _); refine Touch.cut (d := x.1) ?_ (fun hx => ?_); subst x; rotate_left; try clear_value x) | skip)
    | (with_reducible first | exact Touch.refl | assumption | apply Touch.put | apply Touch.wr | apply Touch.step (Chip.askResync_touch ..) | apply Touch.step (Chip.candidate_touch ..) | apply Touch.step (Chip.dropMaster_touch ..) | apply Touch.step (Chip.jDurable_touch ..) | apply Touch.step (Chip.jr_touch ..) | apply Touch.step (Chip.partnerLost_touch ..) | apply Touch.step (Chip.pl_touch ..) | apply Touch.step (Chip.plyGot_touch ..))
    | decide +kernel
    | (with_reducible apply Touch.upd) <;> first | (intro p; cases p <;> dsimp only [Part.same] <;> first | exact Or.inl (by decide +kernel) | exact Or.inr rfl) | (with_reducible first | exact Touch.refl | assumption | apply Touch.put | apply Touch.wr | apply Touch.step (Chip.askResync_touch ..) | apply Touch.step (Chip.candidate_touch ..) | apply Touch.step (Chip.dropMaster_touch ..) | apply Touch.step (Chip.jDurable_touch ..) | apply Touch.step (Chip.jr_touch ..) | apply Touch.step (Chip.partnerLost_touch ..) | apply Touch.step (Chip.pl_touch ..) | apply Touch.step (Chip.plyGot_touch ..)) | split
    | exact covers_reg (by decide +kernel)
    | split
    | (intro _; intros)
    | (clear_value *; split)

theorem Chip.handoverStart_touch (c : Chip) : Touch 0x1000108 0x180000000000000000000000000000800000040000000000000000000004 c (Chip.handoverStart c) := by
  unfold Chip.handoverStart
  repeat' first
    | (with_reducible first | exact Touch.refl | assumption | apply Touch.put | apply Touch.step (Chip.linkLog_touch ..) | apply Touch.step (Chip.pl_touch ..))
    | decide +kernel
    | split
    | (intro _; intros)
    | (clear_value *; split)

theorem Chip.handoverGo_touch (c : Chip) : Touch 0x100011c 0x180000000000000000000000000000000000000000000020000000000004 c (Chip.handoverGo c) := by
  unfold Chip.handoverGo
  repeat' first
    | (fail_if_no_progress extract_lets +onlyGivenNames x; first | (revert x; intro (x : Chip); refine Touch.cut (d := x) ?_ (fun hx => ?_); subst x; rotate_left; try clear_value x) | (revert x; intro (x : Chip × _); refine Touch.cut (d := x.1) ?_ (fun hx => ?_); subst x; rotate_left; try clear_value x) | skip)
    | (with_reducible first | exact Touch.refl | assumption | apply Touch.step (Chip.dropMaster_touch ..) | apply Touch.step (Chip.pl_touch ..) | apply Touch.step (Chip.plySend_touch ..) | apply Touch.step (Chip.ringBroadcast_touch ..))
    | decide +kernel
    | split
    | (intro _; intros)
    | (clear_value *; split)

theorem Chip.handoverEnd_touch (c : Chip) : Touch 0x1000108 0x180000000000000000000000000000000010e40000000020000000000004 c (Chip.handoverEnd c) := by
  unfold Chip.handoverEnd
  repeat' first
    | (with_reducible first | exact Touch.refl | assumption | apply Touch.step (Chip.linkLog_touch ..) | apply Touch.step (Chip.pl_touch ..) | apply Touch.step (Chip.setRole_touch ..) | apply Touch.step (Chip.stopServing_touch ..))
    | decide +kernel
    | split
    | (intro _; intros)
    | (clear_value *; split)

theorem Chip.handoverFailed_touch (c : Chip) : Touch 0x1000108 0x180000000000000000000000000000800000040000000000000000000004 c (Chip.handoverFailed c) := by
  unfold Chip.handoverFailed
  repeat' first
    | (with_reducible first | exact Touch.refl | assumption | apply Touch.step (Chip.handoverStart_touch ..))
    | decide +kernel
    | split
    | (intro _; intros)
    | (clear_value *; split)

theorem Chip.sleepStart_touch (c : Chip) : Touch 0x100010c 0x180000000000000000000000000000000000040000000000000000000004 c (Chip.sleepStart c) := by
  unfold Chip.sleepStart
  repeat' first
    | (with_reducible first | exact Touch.refl | assumption | apply Touch.put | apply Touch.step (Chip.pl_touch ..) | apply Touch.step (Chip.plySend_touch ..))
    | decide +kernel
    | split
    | (intro _; intros)
    | (clear_value *; split)

theorem Chip.sleepLead_touch (c : Chip) : Touch 0x167db3c 0x84000180000000001d00800018304000081000010e4000000002000c402010004 c (Chip.sleepLead c) := by
  unfold Chip.sleepLead
  repeat' first
    | (fail_if_no_progress extract_lets +onlyGivenNames x; first | (revert x; intro (x : Chip); refine Touch.cut (d := x) ?_ (fun hx => ?_); subst x; rotate_left; try clear_value x) | (revert x; intro (x : Chip × _); refine Touch.cut (d := x.1) ?_ (fun hx => ?_); subst x; rotate_left; try clear_value x) | skip)
    | (with_reducible first | exact Touch.refl | assumption | apply Touch.step (Chip.linkLog_touch ..) | apply Touch.step (Chip.pl_touch ..) | apply Touch.step (Chip.ringBroadcast_touch ..) | apply Touch.step (Chip.setRole_touch ..) | apply Touch.step (Chip.sleepRequest_touch ..) | apply Touch.step (Chip.stopServing_touch ..))
    | decide +kernel
    | split
    | (intro _; intros)
    | (clear_value *; split)

theorem Chip.phases_touch (c : Chip) : Touch 0x101113c 0x180000000000000000000000188301000000f40000000020000000050034 c (Chip.phases c) := by
  unfold Chip.phases
  repeat' first
    | (fail_if_no_progress extract_lets +onlyGivenNames x; first | (revert x; intro (x : Chip); refine Touch.cut (d := x) ?_ (fun hx => ?_); subst x; rotate_left; try clear_value x) | (revert x; intro (x : Chip × _); refine Touch.cut (d := x.1) ?_ (fun hx => ?_); subst x; rotate_left; try clear_value x) | skip)
    | (with_reducible first | exact Touch.refl | assumption | apply Touch.step (Chip.log_touch ..) | apply Touch.step (Chip.meet_touch ..) | apply Touch.step (Chip.replay_touch ..) | apply Touch.step (Chip.setMaster_touch ..) | apply Touch.step (Chip.setPhase_touch ..))
    | decide +kernel
    | split
    | (intro _; intros)
    | (clear_value *; split)

end Sys2Proof.Machine
end

