-- ==== Sys2Proof/Laws/TouchUpdateOps.lean ====
section
/-! SUPPORT. What each function of Machine/UpdateOps.lean can change: the two masks of `Touch` (Laws/Touch.lean), parts and banks of registers. -/

set_option linter.unreachableTactic false
set_option linter.unusedTactic false
set_option linter.tactic.unusedName false
set_option linter.unnecessarySeqFocus false
set_option linter.unusedVariables false
set_option Elab.async false

namespace Sys2Proof.Machine

theorem Chip.updLoad_touch (c : Chip) : Touch 0x4000000 0x0 c (Chip.updLoad c) := by
  unfold Chip.updLoad
  repeat' first
    | (with_reducible first | exact Touch.refl | assumption | apply Touch.step (Chip.up_touch ..))
    | decide +kernel
    | split
    | (intro _; intros)
    | (clear_value *; split)

theorem Chip.updPut_touch (c : Chip) (f : UpdRec → UpdRec) : Touch 0x4000800 0x0 c (Chip.updPut c f) := by
  unfold Chip.updPut
  repeat' first
    | (fail_if_no_progress extract_lets +onlyGivenNames x; first | (revert x; intro (x : Chip); refine Touch.cut (d := x) ?_ (fun hx => ?_); subst x; rotate_left; try clear_value x) | (revert x; intro (x : Chip × _); refine Touch.cut (d := x.1) ?_ (fun hx => ?_); subst x; rotate_left; try clear_value x) | skip)
    | (with_reducible first | exact Touch.refl | assumption | apply Touch.step (Chip.norErase_touch ..) | apply Touch.step (Chip.norWr_touch ..) | apply Touch.step (Chip.up_touch ..))
    | decide +kernel
    | split
    | (intro _; intros)
    | (clear_value *; split)

theorem Chip.updLog_touch (c : Chip) (code typ step : Nat) (st : Status) (n : Nat) (digest : List Byte) : Touch 0x108 0x180000000000000000000000000000000000000000000000000000000004 c (Chip.updLog c code typ step st n digest) := by
  unfold Chip.updLog
  repeat' first
    | (with_reducible first | exact Touch.refl | assumption | apply Touch.step (Chip.log_touch ..))
    | decide +kernel
    | split
    | (intro _; intros)
    | (clear_value *; split)

theorem Chip.pieceWrite_touch (c : Chip) (i : Nat) (e : List Byte) : Touch 0x800 0x0 c (Chip.pieceWrite c i e) := by
  unfold Chip.pieceWrite
  repeat' first
    | (fail_if_no_progress extract_lets +onlyGivenNames x; first | (revert x; intro (x : Chip); refine Touch.cut (d := x) ?_ (fun hx => ?_); subst x; rotate_left; try clear_value x) | (revert x; intro (x : Chip × _); refine Touch.cut (d := x.1) ?_ (fun hx => ?_); subst x; rotate_left; try clear_value x) | skip)
    | (with_reducible first | exact Touch.refl | assumption | apply Touch.step (Chip.norErase_touch ..) | apply Touch.step (Chip.norWr_touch ..))
    | decide +kernel
    | split
    | (intro _; intros)
    | (clear_value *; split)

theorem Chip.sessionEnd_touch (c : Chip) : Touch 0x4000800 0x0 c (Chip.sessionEnd c) := by
  unfold Chip.sessionEnd
  repeat' first
    | (fail_if_no_progress extract_lets +onlyGivenNames x; first | (revert x; intro (x : Chip); refine Touch.cut (d := x) ?_ (fun hx => ?_); subst x; rotate_left; try clear_value x) | (revert x; intro (x : Chip × _); refine Touch.cut (d := x.1) ?_ (fun hx => ?_); subst x; rotate_left; try clear_value x) | skip)
    | (with_reducible first | exact Touch.refl | assumption | apply Touch.step (Chip.up_touch ..) | apply Touch.step (Chip.updPut_touch ..))
    | decide +kernel
    | split
    | (intro _; intros)
    | (clear_value *; split)

theorem Chip.updOut_touch (c : Chip) (o : UpdFrom) (st : Status) : Touch 0x501190c 0xc00180000000000000000000000000310010400000000000000000000050004 c (Chip.updOut c o st) := by
  unfold Chip.updOut
  repeat' first
    | (fail_if_no_progress extract_lets +onlyGivenNames x; first | (revert x; intro (x : Chip); refine Touch.cut (d := x) ?_ (fun hx => ?_); subst x; rotate_left; try clear_value x) | (revert x; intro (x : Chip × _); refine Touch.cut (d := x.1) ?_ (fun hx => ?_); subst x; rotate_left; try clear_value x) | skip)
    | (with_reducible first | exact Touch.refl | assumption | apply Touch.step (Chip.answer_touch ..) | apply Chip.cmd_touch | apply Touch.step (Chip.finishCall_touch ..) | apply Touch.step (Chip.up_touch ..))
    | decide +kernel
    | split
    | (intro _; intros)
    | (clear_value *; split)

theorem Chip.updTo_touch (c : Chip) (o : UpdFrom) : Touch 0x5010108 0x180000000000000000000000000310000000000000000000000000050004 c (Chip.updTo c o) := by
  unfold Chip.updTo
  repeat' first
    | (with_reducible first | exact Touch.refl | assumption | apply Chip.cmd_touch | apply Touch.step (Chip.up_touch ..))
    | decide +kernel
    | split
    | (intro _; intros)
    | (clear_value *; split)

theorem Chip.updServe_touch {pm bm : Nat} {a : Chip} (c : Chip) (via : Option Nat) (code : Nat) (mine : Nat → Bool) (f : UpdMode → Chip → UFrame → Chip × UAns) (hp : sub 0x501190c pm = true) (hb : sub 0xc00180000000000000000000000000310010400000000000000000000050004 bm = true)
    (h_f : ∀ x0 d x2, Touch pm bm a d → Touch pm bm a (f x0 d x2).1)
    (hT : Touch pm bm a c) : Touch pm bm a (Chip.updServe c via code mine f) := by
  unfold Chip.updServe
  dsimp only
  repeat' first
    | (with_reducible first | exact Touch.refl | assumption | apply Chip.cmd_touch | apply Chip.onCall_touch | apply Chip.pending_touch | apply Touch.step (Chip.up_touch ..) | apply Touch.step (Chip.updTo_touch ..) | apply h_f)
    | exact sub_trans (by decide +kernel) hp
    | exact sub_trans (by decide +kernel) hb
    | exact hasField_sub hb (by decide +kernel)
    | refine Touch.step (Chip.pendCall_touch _ _ _ ‹_›) (sub_trans (by decide +kernel) hp) (sub_trans (by decide +kernel) hb) ?_
    | split
    | (intro _; intros)
    | (clear_value *; split)

theorem Chip.sessionOpen_touch (c : Chip) (m : UpdMode) (typ total : Nat) (id : List Byte) : Touch 0x4000908 0x180000000000000000000000000000000000000000000000000000000004 c (Chip.sessionOpen c m typ total id).1 := by
  unfold Chip.sessionOpen
  repeat' first
    | (fail_if_no_progress extract_lets +onlyGivenNames x; first | (revert x; intro (x : Chip); refine Touch.cut (d := x) ?_ (fun hx => ?_); subst x; rotate_left; try clear_value x) | (revert x; intro (x : Chip × _); refine Touch.cut (d := x.1) ?_ (fun hx => ?_); subst x; rotate_left; try clear_value x) | skip)
    | (with_reducible first | exact Touch.refl | assumption | apply Touch.step (Chip.norErase_touch ..) | apply Touch.step (Chip.up_touch ..) | apply Touch.step (Chip.updLog_touch ..) | apply Touch.step (Chip.updPut_touch ..))
    | decide +kernel
    | split
    | (intro _; intros)
    | (clear_value *; split)

theorem Chip.begin__touch (c : Chip) (m : UpdMode) (fr : UFrame) : Touch 0x4000908 0x180000000000000000000000000000000000000000000000000000000004 c (Chip.begin_ c m fr).1 := by
  unfold Chip.begin_
  repeat' first
    | (fail_if_no_progress extract_lets +onlyGivenNames x; first | (revert x; intro (x : Chip); refine Touch.cut (d := x) ?_ (fun hx => ?_); subst x; rotate_left; try clear_value x) | (revert x; intro (x : Chip × _); refine Touch.cut (d := x.1) ?_ (fun hx => ?_); subst x; rotate_left; try clear_value x) | skip)
    | (with_reducible first | exact Touch.refl | assumption | apply Touch.step (Chip.sessionEnd_touch ..) | apply Touch.step (Chip.sessionOpen_touch ..) | apply Touch.step (Chip.updLog_touch ..) | apply Touch.step (Chip.updPut_touch ..))
    | decide +kernel
    | split
    | (intro _; intros)
    | (clear_value *; split)

theorem Chip.piece_touch (c : Chip) (flaw : Bool) (fr : UFrame) : Touch 0x400090a 0x180000000000000000000000000000000000000000000000000000000004 c (Chip.piece c flaw fr).1 := by
  unfold Chip.piece
  repeat' first
    | (fail_if_no_progress extract_lets +onlyGivenNames x; first | (revert x; intro (x : Chip); refine Touch.cut (d := x) ?_ (fun hx => ?_); subst x; rotate_left; try clear_value x) | (revert x; intro (x : Chip × _); refine Touch.cut (d := x.1) ?_ (fun hx => ?_); subst x; rotate_left; try clear_value x) | (revert x; intro (x : _ × Chip); refine Touch.cut (d := x.2) ?_ (fun hx => ?_); subst x; rotate_left; try clear_value x) | (revert x; intro (x : _ × _ × Chip); refine Touch.cut (d := x.2.2) ?_ (fun hx => ?_); subst x; rotate_left; try clear_value x) | skip)
    | (with_reducible first | exact Touch.refl | assumption | apply Touch.step (Chip.drawBytes_touch ..) | apply Touch.step (Chip.norErase_touch ..) | apply Touch.step (Chip.norWr_touch ..) | apply Touch.step (Chip.pieceWrite_touch ..) | apply Touch.step (Chip.up_touch ..) | apply Touch.step (Chip.updLog_touch ..))
    | decide +kernel
    | split
    | (intro _; intros)
    | (clear_value *; split)

theorem Chip.checkStart_touch (c : Chip) (fr : UFrame) : Touch 0x4000000 0x0 c (Chip.checkStart c fr).1 := by
  unfold Chip.checkStart
  repeat' first
    | (fail_if_no_progress extract_lets +onlyGivenNames x; first | (revert x; intro (x : Chip); refine Touch.cut (d := x) ?_ (fun hx => ?_); subst x; rotate_left; try clear_value x) | (revert x; intro (x : Chip × _); refine Touch.cut (d := x.1) ?_ (fun hx => ?_); subst x; rotate_left; try clear_value x) | skip)
    | (with_reducible first | exact Touch.refl | assumption | apply Touch.step (Chip.up_touch ..))
    | decide +kernel
    | split
    | (intro _; intros)
    | (clear_value *; split)

theorem Chip.checkEnd_touch (c : Chip) (o : UpdFrom) : Touch 0x501190c 0xc00180000000000000000000000000310010400000000000000000000050004 c (Chip.checkEnd c o) := by
  unfold Chip.checkEnd
  repeat' first
    | (fail_if_no_progress extract_lets +onlyGivenNames x; first | (revert x; intro (x : Chip); refine Touch.cut (d := x) ?_ (fun hx => ?_); subst x; rotate_left; try clear_value x) | (revert x; intro (x : Chip × _); refine Touch.cut (d := x.1) ?_ (fun hx => ?_); subst x; rotate_left; try clear_value x) | skip)
    | (with_reducible first | exact Touch.refl | assumption | apply Touch.each | apply Touch.step (Chip.norWr_touch ..) | apply Touch.step (Chip.sessionEnd_touch ..) | apply Touch.step (Chip.up_touch ..) | apply Touch.step (Chip.updLog_touch ..) | apply Touch.step (Chip.updOut_touch ..) | apply Touch.step (Chip.updPut_touch ..))
    | decide +kernel
    | split
    | (intro _; intros)
    | (clear_value *; split)

theorem Chip.loaderEnter_touch (c : Chip) : Touch 0x4000800 0x0 c (Chip.loaderEnter c) := by
  unfold Chip.loaderEnter
  repeat' first
    | (fail_if_no_progress extract_lets +onlyGivenNames x; first | (revert x; intro (x : Chip); refine Touch.cut (d := x) ?_ (fun hx => ?_); subst x; rotate_left; try clear_value x) | (revert x; intro (x : Chip × _); refine Touch.cut (d := x.1) ?_ (fun hx => ?_); subst x; rotate_left; try clear_value x) | skip)
    | (with_reducible first | exact Touch.refl | assumption | apply Touch.foldl | apply Touch.foldl_fst | apply Touch.step (Chip.updPut_touch ..))
    | decide +kernel
    | split
    | (intro _; intros)
    | (clear_value *; split)

theorem Chip.activate_touch (c : Chip) (m : UpdMode) (fr : UFrame) : Touch 0x5000908 0x180000000000000000000000000000800000040000000000000000000004 c (Chip.activate c m fr).1 := by
  unfold Chip.activate
  repeat' first
    | (fail_if_no_progress extract_lets +onlyGivenNames x; first | (revert x; intro (x : Chip); refine Touch.cut (d := x) ?_ (fun hx => ?_); subst x; rotate_left; try clear_value x) | (revert x; intro (x : Chip × _); refine Touch.cut (d := x.1) ?_ (fun hx => ?_); subst x; rotate_left; try clear_value x) | skip)
    | (with_reducible first | exact Touch.refl | assumption | apply Touch.step (Chip.handoverStart_touch ..) | apply Touch.step (Chip.loaderEnter_touch ..) | apply Touch.step (Chip.up_touch ..))
    | decide +kernel
    | split
    | (intro _; intros)
    | (clear_value *; split)

theorem Chip.loaderStop_touch (c : Chip) (l : Loader) (st : Status) : Touch 0x501190c 0xc00180000000000000000000000000310010400000000000000000000050004 c (Chip.loaderStop c l st) := by
  unfold Chip.loaderStop
  repeat' first
    | (with_reducible first | exact Touch.refl | assumption | apply Touch.step (Chip.up_touch ..) | apply Touch.step (Chip.updOut_touch ..))
    | decide +kernel
    | split
    | (intro _; intros)
    | (clear_value *; split)

theorem Chip.loaderBad_touch (c : Chip) (l : Loader) : Touch 0x501190c 0xc00180000000000000000000000000310010400000000000000000000050004 c (Chip.loaderBad c l) := by
  unfold Chip.loaderBad
  repeat' first
    | (fail_if_no_progress extract_lets +onlyGivenNames x; first | (revert x; intro (x : Chip); refine Touch.cut (d := x) ?_ (fun hx => ?_); subst x; rotate_left; try clear_value x) | (revert x; intro (x : Chip × _); refine Touch.cut (d := x.1) ?_ (fun hx => ?_); subst x; rotate_left; try clear_value x) | skip)
    | (with_reducible first | exact Touch.refl | assumption | apply Touch.step (Chip.loaderStop_touch ..) | apply Touch.step (Chip.up_touch ..) | apply Touch.step (Chip.updLog_touch ..) | apply Touch.step (Chip.updPut_touch ..))
    | decide +kernel
    | split
    | (intro _; intros)
    | (clear_value *; split)

theorem Chip.loaderGo_touch (c : Chip) (l : Loader) (step : Nat) : Touch 0x4000000 0x0 c (Chip.loaderGo c l step) := by
  unfold Chip.loaderGo
  repeat' first
    | (with_reducible first | exact Touch.refl | assumption | apply Touch.step (Chip.up_touch ..))
    | decide +kernel
    | split
    | (intro _; intros)
    | (clear_value *; split)

theorem Chip.norCopy_touch (c : Chip) (src dst : Nat × Nat) : Touch 0x800 0x0 c (Chip.norCopy c src dst) := by
  unfold Chip.norCopy
  repeat' first
    | (fail_if_no_progress extract_lets +onlyGivenNames x; first | (revert x; intro (x : Chip); refine Touch.cut (d := x) ?_ (fun hx => ?_); subst x; rotate_left; try clear_value x) | (revert x; intro (x : Chip × _); refine Touch.cut (d := x.1) ?_ (fun hx => ?_); subst x; rotate_left; try clear_value x) | skip)
    | (with_reducible first | exact Touch.refl | assumption | apply Touch.step (Chip.norErase_touch ..) | apply Touch.step (Chip.norWr_touch ..))
    | decide +kernel
    | split
    | (intro _; intros)
    | (clear_value *; split)

theorem Chip.norCopied_touch (c : Chip) (src dst : Nat × Nat) (flaw : Bool) : Touch 0x802 0x0 c (Chip.norCopied c src dst flaw) := by
  unfold Chip.norCopied
  repeat' first
    | (fail_if_no_progress extract_lets +onlyGivenNames x; first | (revert x; intro (x : Chip); refine Touch.cut (d := x) ?_ (fun hx => ?_); subst x; rotate_left; try clear_value x) | (revert x; intro (x : Chip × _); refine Touch.cut (d := x.1) ?_ (fun hx => ?_); subst x; rotate_left; try clear_value x) | skip)
    | (with_reducible first | exact Touch.refl | assumption | apply Touch.step (Chip.norCopy_touch ..) | apply Touch.step (Chip.norTorn_touch ..))
    | decide +kernel
    | split
    | (intro _; intros)
    | (clear_value *; split)

theorem Chip.entrySet_touch (c : Chip) (typ : Nat) (f : SetEnt → Option SetEnt) : Touch 0x4000800 0x0 c (Chip.entrySet c typ f) := by
  unfold Chip.entrySet
  repeat' first
    | (with_reducible first | exact Touch.refl | assumption | apply Touch.step (Chip.updPut_touch ..))
    | decide +kernel
    | split
    | (intro _; intros)
    | (clear_value *; split)

theorem Chip.loaderRestart_touch (c : Chip) : Touch 0x7effbfe 0x84200180200000001d0080001830400008100000000000000000010c402050004 c (Chip.loaderRestart c) := by
  unfold Chip.loaderRestart
  repeat' first
    | (with_reducible first | exact Touch.refl | assumption | apply Touch.step (Chip.up_touch ..) | apply Touch.step (Chip.warmReset_touch ..))
    | decide +kernel
    | split
    | (intro _; intros)
    | (clear_value *; split)

theorem Chip.fallBack_touch (c : Chip) (e : SetEnt) (flaw : Bool) : Touch 0x802 0x0 c (Chip.fallBack c e flaw) := by
  unfold Chip.fallBack
  repeat' first
    | (fail_if_no_progress extract_lets +onlyGivenNames x; first | (revert x; intro (x : Chip); refine Touch.cut (d := x) ?_ (fun hx => ?_); subst x; rotate_left; try clear_value x) | (revert x; intro (x : Chip × _); refine Touch.cut (d := x.1) ?_ (fun hx => ?_); subst x; rotate_left; try clear_value x) | skip)
    | (with_reducible first | exact Touch.refl | assumption | apply Touch.step (Chip.norCopied_touch ..) | apply Touch.step (Chip.norErase_touch ..))
    | decide +kernel
    | split
    | (intro _; intros)
    | (clear_value *; split)

theorem Chip.loaderStep_touch (c : Chip) (flaw : Bool) : Touch 0x7effbfe 0x84e00180200000001d0080001830400039101040000000000000010c402050004 c (Chip.loaderStep c flaw) := by
  unfold Chip.loaderStep
  repeat' first
    | (fail_if_no_progress extract_lets +onlyGivenNames x; first | (revert x; intro (x : Chip); refine Touch.cut (d := x) ?_ (fun hx => ?_); subst x; rotate_left; try clear_value x) | (revert x; intro (x : Chip × _); refine Touch.cut (d := x.1) ?_ (fun hx => ?_); subst x; rotate_left; try clear_value x) | skip)
    | (with_reducible first | exact Touch.refl | assumption | apply Touch.step (Chip.entrySet_touch ..) | apply Touch.step (Chip.fallBack_touch ..) | apply Touch.step (Chip.loaderBad_touch ..) | apply Touch.step (Chip.loaderEnter_touch ..) | apply Touch.step (Chip.loaderGo_touch ..) | apply Touch.step (Chip.loaderRestart_touch ..) | apply Touch.step (Chip.loaderStop_touch ..) | apply Touch.step (Chip.norCopied_touch ..) | apply Touch.step (Chip.norErase_touch ..) | apply Touch.step (Chip.updLog_touch ..) | apply Touch.step (Chip.updPut_touch ..))
    | decide +kernel
    | split
    | (intro _; intros)
    | (clear_value *; split)

theorem Chip.updResume_touch (c : Chip) (typ : Nat) : Touch 0x7effbfe 0x84200180200000001d0080001830400008100000000000000000010c402050004 c (Chip.updResume c typ) := by
  unfold Chip.updResume
  repeat' first
    | (fail_if_no_progress extract_lets +onlyGivenNames x; first | (revert x; intro (x : Chip); refine Touch.cut (d := x) ?_ (fun hx => ?_); subst x; rotate_left; try clear_value x) | (revert x; intro (x : Chip × _); refine Touch.cut (d := x.1) ?_ (fun hx => ?_); subst x; rotate_left; try clear_value x) | skip)
    | (with_reducible first | exact Touch.refl | assumption | apply Touch.step (Chip.entrySet_touch ..) | apply Touch.step (Chip.fallBack_touch ..) | apply Touch.step (Chip.norCopy_touch ..) | apply Touch.step (Chip.updLog_touch ..) | apply Touch.step (Chip.updPut_touch ..) | apply Touch.step (Chip.warmReset_touch ..))
    | decide +kernel
    | split
    | (intro _; intros)
    | (clear_value *; split)

theorem Chip.confirmStart_touch (c : Chip) (fu : Fuses) (fr : UFrame) : Touch 0x4000308 0x180000000000000000000000000000000000000000000000000012000004 c (Chip.confirmStart c fu fr).1 := by
  unfold Chip.confirmStart
  repeat' first
    | (fail_if_no_progress extract_lets +onlyGivenNames x; first | (revert x; intro (x : Chip); refine Touch.cut (d := x) ?_ (fun hx => ?_); subst x; rotate_left; try clear_value x) | (revert x; intro (x : Chip × _); refine Touch.cut (d := x.1) ?_ (fun hx => ?_); subst x; rotate_left; try clear_value x) | skip)
    | (with_reducible first | exact Touch.refl | assumption | apply Touch.step (Chip.confirmNext_touch ..) | apply Touch.step (Chip.up_touch ..))
    | decide +kernel
    | split
    | (intro _; intros)
    | (clear_value *; split)

theorem Chip.confirmEnd_touch (c : Chip) : Touch 0x501190c 0xc00180000000000000000000000000310010400000000000000000000050004 c (Chip.confirmEnd c) := by
  unfold Chip.confirmEnd
  repeat' first
    | (fail_if_no_progress extract_lets +onlyGivenNames x; first | (revert x; intro (x : Chip); refine Touch.cut (d := x) ?_ (fun hx => ?_); subst x; rotate_left; try clear_value x) | (revert x; intro (x : Chip × _); refine Touch.cut (d := x.1) ?_ (fun hx => ?_); subst x; rotate_left; try clear_value x) | skip)
    | (with_reducible first | exact Touch.refl | assumption | apply Touch.step (Chip.up_touch ..) | apply Touch.step (Chip.updLog_touch ..) | apply Touch.step (Chip.updOut_touch ..) | apply Touch.step (Chip.updPut_touch ..))
    | decide +kernel
    | split
    | (intro _; intros)
    | (clear_value *; split)

theorem Chip.rc_touch (c : Chip) (f : Rcv → Rcv) : Touch 0x4000000 0x0 c (Chip.rc c f) := by
  unfold Chip.rc
  repeat' first
    | (with_reducible first | exact Touch.refl | assumption | apply Touch.step (Chip.up_touch ..))
    | decide +kernel
    | split
    | (intro _; intros)
    | (clear_value *; split)

theorem Chip.rcvBegin_touch (c : Chip) (fr : UFrame) : Touch 0x4000108 0x180000000000000000000000000000000000000000000000000000000004 c (Chip.rcvBegin c fr).1 := by
  unfold Chip.rcvBegin
  dsimp only
  repeat' first
    | (with_reducible first | exact Touch.refl | assumption | apply Touch.step (Chip.rc_touch ..) | apply Touch.step (Chip.updLog_touch ..))
    | decide +kernel
    | split
    | (intro _; intros)
    | (clear_value *; split)

theorem Chip.rcvPiece_touch (c : Chip) (fr : UFrame) : Touch 0x4000908 0x180000000000000000000000000000000000000000000000000000000004 c (Chip.rcvPiece c fr).1 := by
  unfold Chip.rcvPiece
  repeat' first
    | (fail_if_no_progress extract_lets +onlyGivenNames x; first | (revert x; intro (x : Chip); refine Touch.cut (d := x) ?_ (fun hx => ?_); subst x; rotate_left; try clear_value x) | (revert x; intro (x : Chip × _); refine Touch.cut (d := x.1) ?_ (fun hx => ?_); subst x; rotate_left; try clear_value x) | skip)
    | (with_reducible first | exact Touch.refl | assumption | apply Touch.step (Chip.rc_touch ..) | apply Touch.step (Chip.spnWr_touch ..) | apply Touch.step (Chip.updLog_touch ..))
    | decide +kernel
    | split
    | (intro _; intros)
    | (clear_value *; split)

theorem Chip.rcvCheck_touch (c : Chip) (fr : UFrame) : Touch 0x4000000 0x0 c (Chip.rcvCheck c fr).1 := by
  unfold Chip.rcvCheck
  repeat' first
    | (fail_if_no_progress extract_lets +onlyGivenNames x; first | (revert x; intro (x : Chip); refine Touch.cut (d := x) ?_ (fun hx => ?_); subst x; rotate_left; try clear_value x) | (revert x; intro (x : Chip × _); refine Touch.cut (d := x.1) ?_ (fun hx => ?_); subst x; rotate_left; try clear_value x) | skip)
    | (with_reducible first | exact Touch.refl | assumption | apply Touch.step (Chip.up_touch ..))
    | decide +kernel
    | split
    | (intro _; intros)
    | (clear_value *; split)

theorem Chip.rcvCheckEnd_touch (c : Chip) (o : UpdFrom) : Touch 0x501190c 0xc00180000000000000000000000000310010400000000000000000000050004 c (Chip.rcvCheckEnd c o) := by
  unfold Chip.rcvCheckEnd
  repeat' first
    | (fail_if_no_progress extract_lets +onlyGivenNames x; first | (revert x; intro (x : Chip); refine Touch.cut (d := x) ?_ (fun hx => ?_); subst x; rotate_left; try clear_value x) | (revert x; intro (x : Chip × _); refine Touch.cut (d := x.1) ?_ (fun hx => ?_); subst x; rotate_left; try clear_value x) | skip)
    | (with_reducible first | exact Touch.refl | assumption | apply Touch.step (Chip.rc_touch ..) | apply Touch.step (Chip.up_touch ..) | apply Touch.step (Chip.updLog_touch ..) | apply Touch.step (Chip.updOut_touch ..))
    | decide +kernel
    | split
    | (intro _; intros)
    | (clear_value *; split)

theorem Chip.rcvActivate_touch (c : Chip) (flaw : Bool) : Touch 0x400090a 0x180000000000000000000000000000000000000000000000000000000004 c (Chip.rcvActivate c flaw).1 := by
  unfold Chip.rcvActivate
  repeat' first
    | (fail_if_no_progress extract_lets +onlyGivenNames x; first | (revert x; intro (x : Chip); refine Touch.cut (d := x) ?_ (fun hx => ?_); subst x; rotate_left; try clear_value x) | (revert x; intro (x : Chip × _); refine Touch.cut (d := x.1) ?_ (fun hx => ?_); subst x; rotate_left; try clear_value x) | skip)
    | (with_reducible first | exact Touch.refl | assumption | apply Touch.step (Chip.norErase_touch ..) | apply Touch.step (Chip.norTorn_touch ..) | apply Touch.step (Chip.norWr_touch ..) | apply Touch.step (Chip.rc_touch ..) | apply Touch.step (Chip.updLog_touch ..))
    | decide +kernel
    | (with_reducible apply Touch.upd) <;> first | (intro p; cases p <;> dsimp only [Part.same] <;> first | exact Or.inl (by decide +kernel) | exact Or.inr rfl) | (with_reducible first | exact Touch.refl | assumption | apply Touch.step (Chip.norErase_touch ..) | apply Touch.step (Chip.norTorn_touch ..) | apply Touch.step (Chip.norWr_touch ..) | apply Touch.step (Chip.rc_touch ..) | apply Touch.step (Chip.updLog_touch ..)) | split
    | split
    | (intro _; intros)
    | (clear_value *; split)

theorem Chip.rcvRestore_touch (c : Chip) (flaw : Bool) : Touch 0x400090a 0x180000000000000000000000000000000000000000000000000000000004 c (Chip.rcvRestore c flaw).1 := by
  unfold Chip.rcvRestore
  repeat' first
    | (fail_if_no_progress extract_lets +onlyGivenNames x; first | (revert x; intro (x : Chip); refine Touch.cut (d := x) ?_ (fun hx => ?_); subst x; rotate_left; try clear_value x) | (revert x; intro (x : Chip × _); refine Touch.cut (d := x.1) ?_ (fun hx => ?_); subst x; rotate_left; try clear_value x) | skip)
    | (with_reducible first | exact Touch.refl | assumption | apply Touch.step (Chip.entrySet_touch ..) | apply Touch.step (Chip.fallBack_touch ..) | apply Touch.step (Chip.updLog_touch ..))
    | decide +kernel
    | split
    | (intro _; intros)
    | (clear_value *; split)

end Sys2Proof.Machine
end

