-- ==== Sys2Proof/Laws/TouchAttestOps.lean ====
section
/-! SUPPORT. What each function of Machine/AttestOps.lean can change: the two masks of `Touch` (Laws/Touch.lean), parts and banks of registers. -/

set_option linter.unreachableTactic false
set_option linter.unusedTactic false
set_option linter.tactic.unusedName false
set_option linter.unnecessarySeqFocus false
set_option linter.unusedVariables false
set_option Elab.async false

namespace Sys2Proof.Machine

theorem Chip.connMod_touch (c : Chip) (k : Nat) (f : Conn → Conn) : Touch 0x200000 0x0 c (Chip.connMod c k f) := by
  unfold Chip.connMod
  repeat' first
    | (with_reducible first | exact Touch.refl | assumption | apply Touch.step (Chip.sp_touch ..))
    | decide +kernel
    | split
    | (intro _; intros)
    | (clear_value *; split)

theorem Chip.sessMod_touch (c : Chip) (id : Nat) (f : Sess → Sess) : Touch 0x200000 0x0 c (Chip.sessMod c id f) := by
  unfold Chip.sessMod
  repeat' first
    | (with_reducible first | exact Touch.refl | assumption | apply Touch.step (Chip.sp_touch ..))
    | decide +kernel
    | split
    | (intro _; intros)
    | (clear_value *; split)

theorem Chip.sessEnd_touch (c : Chip) (id code : Nat) : Touch 0x163011c 0x180000000000000000000000088300000000000022000000000000000004 c (Chip.sessEnd c id code) := by
  unfold Chip.sessEnd
  repeat' first
    | (fail_if_no_progress extract_lets +onlyGivenNames x; first | (revert x; intro (x : Chip); refine Touch.cut (d := x) ?_ (fun hx => ?_); subst x; rotate_left; try clear_value x) | (revert x; intro (x : Chip × _); refine Touch.cut (d := x.1) ?_ (fun hx => ?_); subst x; rotate_left; try clear_value x) | skip)
    | (with_reducible first | exact Touch.refl | assumption | apply Touch.step (Chip.ha_touch ..) | apply Touch.step (Chip.hostEnd_touch ..) | apply Touch.step (Chip.log_touch ..) | apply Touch.step (Chip.sp_touch ..))
    | decide +kernel
    | split
    | (intro _; intros)
    | (clear_value *; split)

theorem Chip.spdmSend_touch (c : Chip) (conn : Nat) (sess : Option Nat) (body : List Byte) : Touch 0x1104 0xc00000000000000000000000000000000010400000000000000000000000000 c (Chip.spdmSend c conn sess body) := by
  unfold Chip.spdmSend
  repeat' first
    | (with_reducible first | exact Touch.refl | assumption | apply Touch.step (Chip.hostReply_touch ..) | apply Touch.step (Chip.send_touch ..))
    | decide +kernel
    | split
    | (intro _; intros)
    | (clear_value *; split)

theorem Chip.spdmOut_touch (c : Chip) (m : SpdmMsg) (body : List Byte) : Touch 0x1104 0xc00000000000000000000000000000000010400000000000000000000000000 c (Chip.spdmOut c m body) := by
  unfold Chip.spdmOut
  repeat' first
    | (with_reducible first | exact Touch.refl | assumption | apply Touch.step (Chip.spdmSend_touch ..))
    | decide +kernel
    | split
    | (intro _; intros)
    | (clear_value *; split)

theorem Chip.errLog_touch (c : Chip) (m : SpdmMsg) (code : Nat) : Touch 0x108 0x180000000000000000000000000000000000000000000000000000000004 c (Chip.errLog c m code) := by
  unfold Chip.errLog
  repeat' first
    | (with_reducible first | exact Touch.refl | assumption | apply Touch.step (Chip.logOnce_touch ..))
    | decide +kernel
    | split
    | (intro _; intros)
    | (clear_value *; split)

theorem Chip.spdmErr_touch (c : Chip) (m : SpdmMsg) (code : Nat) : Touch 0x110c 0xc00180000000000000000000000000000010400000000000000000000000004 c (Chip.spdmErr c m code) := by
  unfold Chip.spdmErr
  repeat' first
    | (with_reducible first | exact Touch.refl | assumption | apply Touch.step (Chip.errLog_touch ..) | apply Touch.step (Chip.spdmOut_touch ..))
    | decide +kernel
    | split
    | (intro _; intros)
    | (clear_value *; split)

theorem Chip.queueFull_touch (c : Chip) : Touch 0x108 0x180000000000000000000000000000000000000000000000000000000004 c (Chip.queueFull c) := by
  unfold Chip.queueFull
  repeat' first
    | (with_reducible first | exact Touch.refl | assumption | apply Touch.step (Chip.count_touch ..) | apply Touch.step (Chip.logOnce_touch ..))
    | decide +kernel
    | split
    | (intro _; intros)
    | (clear_value *; split)

theorem Chip.spdmServe_touch {pm bm : Nat} {a : Chip} (c : Chip) (m : SpdmMsg) (mine : Nat → Bool) (keep l1 : Bool) (f : Chip → Chip) (hp : sub 0x163111c pm = true) (hb : sub 0xc00180000000000000000000000088300010400000022000000000000000004 bm = true)
    (h_f : ∀ d, Touch pm bm a d → Touch pm bm a (f d))
    (hT : Touch pm bm a c) : Touch pm bm a (Chip.spdmServe c m mine keep l1 f) := by
  unfold Chip.spdmServe
  dsimp only
  repeat' first
    | (with_reducible first | exact Touch.refl | assumption | apply Touch.step (Chip.connMod_touch ..) | apply Touch.step (Chip.count_touch ..) | apply Touch.step (Chip.sessEnd_touch ..) | apply Touch.step (Chip.sessMod_touch ..) | apply Touch.step (Chip.spdmErr_touch ..) | apply Touch.step (Chip.spdmOut_touch ..) | apply h_f)
    | exact sub_trans (by decide +kernel) hp
    | exact sub_trans (by decide +kernel) hb
    | exact hasField_sub hb (by decide +kernel)
    | split
    | (intro _; intros)
    | (clear_value *; split)

theorem Chip.chain_touch (c : Chip) (k : Nat) : Touch 0x200108 0x180000000000000000000000000000000000000000000000000000000004 c (Chip.chain c k).1 := by
  unfold Chip.chain
  repeat' first
    | (with_reducible first | exact Touch.refl | assumption | apply Touch.step (Chip.log_touch ..) | apply Touch.step (Chip.sp_touch ..))
    | decide +kernel
    | split
    | (intro _; intros)
    | (clear_value *; split)

theorem Chip.withChain_touch {pm bm : Nat} {a : Chip} (c : Chip) (m : SpdmMsg) (f : Chip → List Byte → Chip) (hp : sub 0x20110c pm = true) (hb : sub 0xc00180000000000000000000000000000010400000000000000000000000004 bm = true)
    (h_f : ∀ d x1, Touch pm bm a d → Touch pm bm a (f d x1))
    (hT : Touch pm bm a c) : Touch pm bm a (Chip.withChain c m f) := by
  unfold Chip.withChain
  repeat' first
    | (fail_if_no_progress extract_lets +onlyGivenNames x; first | (revert x; intro (x : Chip); refine Touch.cut (d := x) ?_ (fun hx => ?_); subst x; rotate_left; try clear_value x) | (revert x; intro (x : Chip × _); refine Touch.cut (d := x.1) ?_ (fun hx => ?_); subst x; rotate_left; try clear_value x) | skip)
    | (with_reducible first | exact Touch.refl | assumption | apply Touch.step (Chip.chain_touch ..) | apply Touch.step (Chip.spdmErr_touch ..) | apply h_f)
    | exact sub_trans (by decide +kernel) hp
    | exact sub_trans (by decide +kernel) hb
    | exact hasField_sub hb (by decide +kernel)
    | split
    | (intro _; intros)
    | (clear_value *; split)

theorem Chip.aliasEc_touch (c : Chip) (msg : List Byte) : Touch 0x40102 0x4000000000000000000000000000000000000 c (Chip.aliasEc c msg).1 := by
  unfold Chip.aliasEc
  repeat' first
    | (fail_if_no_progress extract_lets +onlyGivenNames x; first | (revert x; intro (x : Chip); refine Touch.cut (d := x) ?_ (fun hx => ?_); subst x; rotate_left; try clear_value x) | (revert x; intro (x : Chip × _); refine Touch.cut (d := x.1) ?_ (fun hx => ?_); subst x; rotate_left; try clear_value x) | (revert x; intro (x : _ × Chip); refine Touch.cut (d := x.2) ?_ (fun hx => ?_); subst x; rotate_left; try clear_value x) | (revert x; intro (x : _ × _ × Chip); refine Touch.cut (d := x.2.2) ?_ (fun hx => ?_); subst x; rotate_left; try clear_value x) | skip)
    | (with_reducible first | exact Touch.refl | assumption | apply Touch.step (Chip.rnd_touch ..))
    | decide +kernel
    | split
    | (intro _; intros)
    | (clear_value *; split)

theorem Chip.aliasMl_touch (c : Chip) (msg : List Byte) : Touch 0x40102 0x4000000000000000000000000000000000000 c (Chip.aliasMl c msg).1 := by
  unfold Chip.aliasMl
  repeat' first
    | (fail_if_no_progress extract_lets +onlyGivenNames x; first | (revert x; intro (x : Chip); refine Touch.cut (d := x) ?_ (fun hx => ?_); subst x; rotate_left; try clear_value x) | (revert x; intro (x : Chip × _); refine Touch.cut (d := x.1) ?_ (fun hx => ?_); subst x; rotate_left; try clear_value x) | (revert x; intro (x : _ × Chip); refine Touch.cut (d := x.2) ?_ (fun hx => ?_); subst x; rotate_left; try clear_value x) | (revert x; intro (x : _ × _ × Chip); refine Touch.cut (d := x.2.2) ?_ (fun hx => ?_); subst x; rotate_left; try clear_value x) | skip)
    | (with_reducible first | exact Touch.refl | assumption | apply Touch.step (Chip.rnd_touch ..))
    | decide +kernel
    | split
    | (intro _; intros)
    | (clear_value *; split)

theorem Chip.sigPut_touch (c : Chip) (h : Nat) (w : SignWork) : Touch 0x200000 0x0 c (Chip.sigPut c h w) := by
  unfold Chip.sigPut
  repeat' first
    | (with_reducible first | exact Touch.refl | assumption | apply Touch.step (Chip.sp_touch ..))
    | decide +kernel
    | split
    | (intro _; intros)
    | (clear_value *; split)

theorem Chip.signLater_touch (c : Chip) (m : SpdmMsg) (kind : Nat) (body transcript : List Byte) : Touch 0x20110c 0xc00180000000000000000000000000000010400000000000000000000000004 c (Chip.signLater c m kind body transcript) := by
  unfold Chip.signLater
  repeat' first
    | (with_reducible first | exact Touch.refl | assumption | apply Touch.step (Chip.queueFull_touch ..) | apply Touch.step (Chip.sigPut_touch ..) | apply Touch.step (Chip.spdmOut_touch ..))
    | decide +kernel
    | split
    | (intro _; intros)
    | (clear_value *; split)

theorem Chip.vout_touch (c : Chip) (m : SpdmMsg) (op : Nat) (st : Status) (body : List Byte) : Touch 0x1104 0xc00000000000000000000000000000000010400000000000000000000000000 c (Chip.vout c m op st body) := by
  unfold Chip.vout
  repeat' first
    | (with_reducible first | exact Touch.refl | assumption | apply Touch.step (Chip.spdmOut_touch ..))
    | decide +kernel
    | split
    | (intro _; intros)
    | (clear_value *; split)

theorem Chip.quietOut_touch (c : Chip) (conn : Nat) (sess : Option Nat) (h arrive period : Nat) (body : List Byte) : Touch 0x2001104 0xc00000000000000000000000000000000010400000000000000000000000000 c (Chip.quietOut c conn sess h arrive period body) := by
  unfold Chip.quietOut
  repeat' first
    | (with_reducible first | exact Touch.refl | assumption | apply Touch.step (Chip.spdmSend_touch ..))
    | decide +kernel
    | (with_reducible apply Touch.upd) <;> first | (intro p; cases p <;> dsimp only [Part.same] <;> first | exact Or.inl (by decide +kernel) | exact Or.inr rfl) | (with_reducible first | exact Touch.refl | assumption | apply Touch.step (Chip.spdmSend_touch ..)) | split
    | split
    | (intro _; intros)
    | (clear_value *; split)

theorem Chip.kexDone_touch (c : Chip) (conn id : Nat) (sent sig msg : List Byte) : Touch 0x201104 0xc00000000000000000000000000000000010400000000000000000000000000 c (Chip.kexDone c conn id sent sig msg) := by
  unfold Chip.kexDone
  repeat' first
    | (fail_if_no_progress extract_lets +onlyGivenNames x; first | (revert x; intro (x : Chip); refine Touch.cut (d := x) ?_ (fun hx => ?_); subst x; rotate_left; try clear_value x) | (revert x; intro (x : Chip × _); refine Touch.cut (d := x.1) ?_ (fun hx => ?_); subst x; rotate_left; try clear_value x) | skip)
    | (with_reducible first | exact Touch.refl | assumption | apply Touch.step (Chip.sessMod_touch ..) | apply Touch.step (Chip.spdmSend_touch ..))
    | decide +kernel
    | split
    | (intro _; intros)
    | (clear_value *; split)

theorem Chip.sigDone_touch (c : Chip) (w : SignWork) : Touch 0x24190e 0xc00180000000000000000000004000000010400000000000000000000000004 c (Chip.sigDone c w) := by
  unfold Chip.sigDone
  repeat' first
    | (fail_if_no_progress extract_lets +onlyGivenNames x; first | (revert x; intro (x : Chip); refine Touch.cut (d := x) ?_ (fun hx => ?_); subst x; rotate_left; try clear_value x) | (revert x; intro (x : Chip × _); refine Touch.cut (d := x.1) ?_ (fun hx => ?_); subst x; rotate_left; try clear_value x) | skip)
    | (with_reducible first | exact Touch.refl | assumption | apply Touch.step (Chip.aliasEc_touch ..) | apply Touch.step (Chip.aliasMl_touch ..) | apply Touch.step (Chip.connMod_touch ..) | apply Touch.step (Chip.finishCall_touch ..) | apply Touch.step (Chip.kexDone_touch ..) | apply Touch.step (Chip.sessMod_touch ..) | apply Touch.step (Chip.spdmSend_touch ..))
    | decide +kernel
    | split
    | (intro _; intros)
    | (clear_value *; split)

theorem Chip.sigsDue_touch (c : Chip) : Touch 0x24190e 0xc00180000000000000000000004000000010400000000000000000000000004 c (Chip.sigsDue c) := by
  unfold Chip.sigsDue
  repeat' first
    | (fail_if_no_progress extract_lets +onlyGivenNames x; first | (revert x; intro (x : Chip); refine Touch.cut (d := x) ?_ (fun hx => ?_); subst x; rotate_left; try clear_value x) | (revert x; intro (x : Chip × _); refine Touch.cut (d := x.1) ?_ (fun hx => ?_); subst x; rotate_left; try clear_value x) | skip)
    | (with_reducible first | exact Touch.refl | assumption | apply Touch.each | apply Touch.step (Chip.sigDone_touch ..) | apply Touch.step (Chip.sp_touch ..))
    | decide +kernel
    | split
    | (intro _; intros)
    | (clear_value *; split)

theorem Chip.reportLog_touch (c : Chip) (gen scope : Nat) : Touch 0x108 0x180000000000000000000000000000000000000000000000000000000004 c (Chip.reportLog c gen scope) := by
  unfold Chip.reportLog
  repeat' first
    | (with_reducible first | exact Touch.refl | assumption | apply Touch.step (Chip.count_touch ..) | apply Touch.step (Chip.log_touch ..))
    | decide +kernel
    | split
    | (intro _; intros)
    | (clear_value *; split)

theorem Chip.reportDone_touch (c : Chip) (k : Nat) : Touch 0x224190e 0xc00180000000000000000000004000000010400000000000000000000000004 c (Chip.reportDone c k) := by
  unfold Chip.reportDone
  dsimp only
  repeat' first
    | (with_reducible first | exact Touch.refl | assumption | apply Touch.step (Chip.coseSigned_touch ..) | apply Touch.step (Chip.finishCall_touch ..) | apply Touch.step (Chip.quietOut_touch ..) | apply Touch.step (Chip.reportLog_touch ..) | apply Touch.step (Chip.sp_touch ..))
    | decide +kernel
    | split
    | (intro _; intros)
    | (clear_value *; split)

end Sys2Proof.Machine
end

