-- ==== Sys2Proof/Laws/TouchSettle.lean ====
section
/-! SUPPORT. What each function of Machine/Settle.lean can change: the two masks of `Touch` (Laws/Touch.lean), parts and banks of registers. -/

set_option linter.unreachableTactic false
set_option linter.unusedTactic false
set_option linter.tactic.unusedName false
set_option linter.unnecessarySeqFocus false
set_option linter.unusedVariables false
set_option Elab.async false

namespace Sys2Proof.Machine

theorem Chip.ringPush_touch (c : Chip) (n : Nat) : Touch 0x1010000 0x0 c (Chip.ringPush c n) := by
  unfold Chip.ringPush
  repeat' first
    | (fail_if_no_progress extract_lets +onlyGivenNames x; first | (revert x; intro (x : Chip); refine Touch.cut (d := x) ?_ (fun hx => ?_); subst x; rotate_left; try clear_value x) | (revert x; intro (x : Chip × _); refine Touch.cut (d := x.1) ?_ (fun hx => ?_); subst x; rotate_left; try clear_value x) | skip)
    | (with_reducible first | exact Touch.refl | assumption | apply Touch.step (Chip.hold_touch ..) | apply Touch.step (Chip.pushBody_touch ..))
    | decide +kernel
    | split
    | (intro _; intros)
    | (clear_value *; split)

theorem Chip.commitDone_touch (c : Chip) (id : Nat) (ready : List Nat) : Touch 0x10100 0x0 c (Chip.commitDone c id ready) := by
  unfold Chip.commitDone
  repeat' first
    | (fail_if_no_progress extract_lets +onlyGivenNames x; first | (revert x; intro (x : Chip); refine Touch.cut (d := x) ?_ (fun hx => ?_); subst x; rotate_left; try clear_value x) | (revert x; intro (x : Chip × _); refine Touch.cut (d := x.1) ?_ (fun hx => ?_); subst x; rotate_left; try clear_value x) | skip)
    | (with_reducible first | exact Touch.refl | assumption | apply Touch.each | apply Touch.step (Chip.bobMod_touch ..) | apply Touch.step (Chip.cmdPart_touch ..) | apply Touch.step (Chip.cu_touch ..))
    | decide +kernel
    | split
    | (intro _; intros)
    | (clear_value *; split)

theorem Chip.doEff_touch (c : Chip) (e : Eff) : Touch 0x1c7993e 0xc00180000000000000003800004180300010403003822000000000000004184 c (Chip.doEff c e) := by
  unfold Chip.doEff
  repeat' first
    | (with_reducible first | exact Touch.refl | assumption | apply Touch.step (Chip.answer_touch ..) | apply Touch.step (Chip.cancelGo_touch ..) | apply Touch.step (Chip.cardRelease_touch ..) | apply Touch.step (Chip.commitDone_touch ..) | apply Touch.step (Chip.cu_touch ..) | apply Touch.step (Chip.finishCall_touch ..) | apply Touch.step (Chip.hankKeyed_touch ..) | apply Touch.step (Chip.hankReleased_touch ..) | apply Touch.step (Chip.ringBroadcast_touch ..) | apply Touch.step (Chip.ringPush_touch ..) | apply Touch.step (Chip.ringSend_touch ..) | apply Touch.step (Chip.spdmSend_touch ..) | apply Touch.step (Chip.warpTo_touch ..))
    | decide +kernel
    | split
    | (intro _; intros)
    | (clear_value *; split)

theorem Chip.failEff_touch (st : Status) (c : Chip) (e : Eff) : Touch 0x1190c 0xc00180000000000000000000000000000010400000000000000000000000004 c (Chip.failEff st c e) := by
  unfold Chip.failEff
  repeat' first
    | (with_reducible first | exact Touch.refl | assumption | apply Touch.step (Chip.answer_touch ..) | apply Touch.step (Chip.cu_touch ..) | apply Touch.step (Chip.finishCall_touch ..))
    | decide +kernel
    | split
    | (intro _; intros)
    | (clear_value *; split)

theorem Chip.holdsDue_touch (c : Chip) : Touch 0x1c7993e 0xc00180000000000000003800004180300010403003822000000000000004184 c (Chip.holdsDue c) := by
  unfold Chip.holdsDue
  repeat' first
    | (fail_if_no_progress extract_lets +onlyGivenNames x; first | (revert x; intro (x : Chip); refine Touch.cut (d := x) ?_ (fun hx => ?_); subst x; rotate_left; try clear_value x) | (revert x; intro (x : Chip × _); refine Touch.cut (d := x.1) ?_ (fun hx => ?_); subst x; rotate_left; try clear_value x) | skip)
    | (with_reducible first | exact Touch.refl | assumption | apply Touch.each | apply Touch.step (Chip.doEff_touch ..) | apply Touch.step (Chip.pl_touch ..))
    | decide +kernel
    | split
    | (intro _; intros)
    | (clear_value *; split)

theorem Chip.jForget_touch (c : Chip) : Touch 0x10000 0x300000000000000000000000000000000 c (Chip.jForget c) := by
  unfold Chip.jForget
  repeat' first
    | (fail_if_no_progress extract_lets +onlyGivenNames x; first | (revert x; intro (x : Chip); refine Touch.cut (d := x) ?_ (fun hx => ?_); subst x; rotate_left; try clear_value x) | (revert x; intro (x : Chip × _); refine Touch.cut (d := x.1) ?_ (fun hx => ?_); subst x; rotate_left; try clear_value x) | skip)
    | (with_reducible first | exact Touch.refl | assumption | apply Touch.put64 | apply Touch.step (Chip.cu_touch ..) | apply Touch.step (Chip.jr_touch ..))
    | decide +kernel
    | exact covers_reg (by decide +kernel)
    | split
    | (intro _; intros)
    | (clear_value *; split)

theorem Chip.holdsFail_touch (c : Chip) (st : Status) : Touch 0x101190c 0xc00180000000000000000000000000000010400000000000000000000000004 c (Chip.holdsFail c st) := by
  unfold Chip.holdsFail
  repeat' first
    | (fail_if_no_progress extract_lets +onlyGivenNames x; first | (revert x; intro (x : Chip); refine Touch.cut (d := x) ?_ (fun hx => ?_); subst x; rotate_left; try clear_value x) | (revert x; intro (x : Chip × _); refine Touch.cut (d := x.1) ?_ (fun hx => ?_); subst x; rotate_left; try clear_value x) | skip)
    | (with_reducible first | exact Touch.refl | assumption | apply Touch.each | apply Touch.step (Chip.failEff_touch ..) | apply Touch.step (Chip.pl_touch ..))
    | decide +kernel
    | split
    | (intro _; intros)
    | (clear_value *; split)

theorem Chip.keyWaiters_touch (c : Chip) : Touch 0x1008000 0x0 c (Chip.keyWaiters c) := by
  unfold Chip.keyWaiters
  repeat' first
    | (with_reducible first | exact Touch.refl | assumption | apply Touch.each | apply Touch.step (Chip.keyParts_touch ..))
    | decide +kernel
    | split
    | (intro _; intros)
    | (clear_value *; split)

theorem Chip.lcsReply_touch (c : Chip) : Touch 0x1d08 0x180000000000000000000000000000000000000000000000000000000004 c (Chip.lcsReply c) := by
  unfold Chip.lcsReply
  repeat' first
    | (with_reducible first | exact Touch.refl | assumption | apply Touch.step (Chip.finishCall_touch ..) | apply Chip.pending_touch)
    | decide +kernel
    | (with_reducible apply Touch.upd) <;> first | (intro p; cases p <;> dsimp only [Part.same] <;> first | exact Or.inl (by decide +kernel) | exact Or.inr rfl) | (with_reducible first | exact Touch.refl | assumption | apply Touch.step (Chip.finishCall_touch ..) | apply Chip.pending_touch) | split
    | split
    | (intro _; intros)
    | (clear_value *; split)

theorem Chip.dieGone_touch (c : Chip) (n : Nat) : Touch 0x183013c 0x180000000000000203800000080000000003000020000000000000000004 c (Chip.dieGone c n) := by
  unfold Chip.dieGone
  repeat' first
    | (with_reducible first | exact Touch.refl | assumption | apply Touch.step (Chip.dieLeft_touch ..) | apply Touch.step (Chip.twDieLeft_touch ..))
    | decide +kernel
    | split
    | (intro _; intros)
    | (clear_value *; split)

theorem Chip.settleOnce_touch (c : Chip) : Touch 0x5e79d3e 0xc00180000000000000203800004189391810413f4382e0000200000000541b4 c (Chip.settleOnce c) := by
  unfold Chip.settleOnce
  repeat' first
    | (fail_if_no_progress extract_lets +onlyGivenNames x; first | (revert x; intro (x : Chip); refine Touch.cut (d := x) ?_ (fun hx => ?_); subst x; rotate_left; try clear_value x) | (revert x; intro (x : Chip × _); refine Touch.cut (d := x.1) ?_ (fun hx => ?_); subst x; rotate_left; try clear_value x) | skip)
    | (with_reducible first | exact Touch.refl | assumption | apply Touch.each | apply Touch.step (Chip.acksDue_touch ..) | apply Touch.step (Chip.cancelsEnd_touch ..) | apply Chip.cardAbsent_touch | apply Touch.step (Chip.cardRoundEnd_touch ..) | apply Touch.step (Chip.cmdsEnd_touch ..) | apply Touch.step (Chip.confirmEnd_touch ..) | apply Touch.step (Chip.dieGone_touch ..) | apply Touch.step (Chip.handoverFailed_touch ..) | apply Touch.step (Chip.handoverGo_touch ..) | apply Touch.step (Chip.holdsDue_touch ..) | apply Touch.step (Chip.holdsFail_touch ..) | apply Touch.step (Chip.hostRetry_touch ..) | apply Touch.step (Chip.jStart_touch ..) | apply Touch.step (Chip.keyWaiters_touch ..) | apply Touch.step (Chip.lcsReply_touch ..) | apply Touch.step (Chip.logLost_touch ..) | apply Touch.step (Chip.phases_touch ..) | apply Touch.step (Chip.recount_touch ..) | apply Touch.step (Chip.resyncFive_touch ..) | apply Touch.step (Chip.sigsDue_touch ..) | apply Touch.step (Chip.switches_touch ..) | apply Touch.step (Chip.twSigning_touch ..))
    | decide +kernel
    | split
    | (intro _; intros)
    | (clear_value *; split)

theorem Chip.idleMark_touch (c : Chip) (k : Nat) (works : Bool) : Touch 0x40 0x0 c (Chip.idleMark c k works) := by
  unfold Chip.idleMark
  repeat' first
    | (with_reducible first | exact Touch.refl | assumption)
    | decide +kernel
    | (with_reducible apply Touch.upd) <;> first | (intro p; cases p <;> dsimp only [Part.same] <;> first | exact Or.inl (by decide +kernel) | exact Or.inr rfl) | (with_reducible first | exact Touch.refl | assumption) | split
    | split
    | (intro _; intros)
    | (clear_value *; split)

theorem Chip.idleNote_touch (c : Chip) : Touch 0x40 0x0 c (Chip.idleNote c) := by
  unfold Chip.idleNote
  repeat' first
    | (fail_if_no_progress extract_lets +onlyGivenNames x; first | (revert x; intro (x : Chip); refine Touch.cut (d := x) ?_ (fun hx => ?_); subst x; rotate_left; try clear_value x) | (revert x; intro (x : Chip × _); refine Touch.cut (d := x.1) ?_ (fun hx => ?_); subst x; rotate_left; try clear_value x) | skip)
    | (with_reducible first | exact Touch.refl | assumption | apply Touch.each | apply Touch.step (Chip.idleMark_touch ..))
    | decide +kernel
    | (with_reducible apply Touch.upd) <;> first | (intro p; cases p <;> dsimp only [Part.same] <;> first | exact Or.inl (by decide +kernel) | exact Or.inr rfl) | (with_reducible first | exact Touch.refl | assumption | apply Touch.each | apply Touch.step (Chip.idleMark_touch ..)) | split
    | split
    | (intro _; intros)
    | (clear_value *; split)

theorem Chip.settle_touch (c : Chip) : Touch 0x5e79d7e 0xc00180000000000000203800004189391810413f4382e0000200000000541b4 c (Chip.settle c) := by
  unfold Chip.settle
  repeat' first
    | (with_reducible first | exact Touch.refl | assumption | apply Touch.step (Chip.idleNote_touch ..) | apply Touch.step (Chip.settleOnce_touch ..) | apply Touch.step (Chip.snapKeep_touch ..))
    | decide +kernel
    | split
    | (intro _; intros)
    | (clear_value *; split)

theorem Chip.blocksDue_touch (c : Chip) : Touch 0x40002 0x0 c (Chip.blocksDue c) := by
  unfold Chip.blocksDue
  repeat' first
    | (with_reducible first | exact Touch.refl | assumption | apply Touch.step (Chip.entFill_touch ..))
    | decide +kernel
    | split
    | (intro _; intros)
    | (clear_value *; split)

theorem Chip.crySkips_touch (c : Chip) : Touch 0x5090e 0x180000000000000000000384000091000000000000000000000000050004 c (Chip.crySkips c) := by
  unfold Chip.crySkips
  repeat' first
    | (with_reducible first | exact Touch.refl | assumption | apply Touch.each | apply Touch.step (Chip.cqSkip_touch ..) | apply Touch.step (Chip.crySkip_touch ..))
    | decide +kernel
    | split
    | (intro _; intros)
    | (clear_value *; split)

theorem Chip.idle_touch (c : Chip) : Touch 0x5e79d7f 0xc00180000000000000203800384189391810413f4382e0000200000000541b4 c (Chip.idle c) := by
  unfold Chip.idle
  repeat' first
    | (with_reducible first | exact Touch.refl | assumption | apply Touch.step (Chip.blocksDue_touch ..) | apply Touch.step (Chip.crySkips_touch ..) | apply Touch.step (Chip.drbgAgain_touch ..) | apply Touch.step (Chip.repairDone_touch ..) | apply Touch.step (Chip.settle_touch ..) | apply Touch.step (Chip.tick_touch ..))
    | decide +kernel
    | split
    | (intro _; intros)
    | (clear_value *; split)

end Sys2Proof.Machine
end

