-- ==== Sys2Proof/Laws/TouchBoot.lean ====
section
/-! SUPPORT. What each function of Machine/Boot.lean can change: the two masks of `Touch` (Laws/Touch.lean), parts and banks of registers. -/

set_option linter.unreachableTactic false
set_option linter.unusedTactic false
set_option linter.tactic.unusedName false
set_option linter.unnecessarySeqFocus false
set_option linter.unusedVariables false
set_option Elab.async false

namespace Sys2Proof.Machine

theorem Chip.inPhase_touch {pm bm : Nat} {a : Chip} (c : Chip) (p : Nat) (f : Chip → Chip) (hp : sub 0x0 pm = true) (hb : sub 0x0 bm = true)
    (h_f : ∀ d, Touch pm bm a d → Touch pm bm a (f d))
    (hT : Touch pm bm a c) : Touch pm bm a (Chip.inPhase c p f) := by
  unfold Chip.inPhase
  repeat' first
    | (with_reducible first | exact Touch.refl | assumption | apply h_f)
    | exact sub_trans (by decide +kernel) hp
    | exact sub_trans (by decide +kernel) hb
    | exact hasField_sub hb (by decide +kernel)
    | split
    | (intro _; intros)
    | (clear_value *; split)

theorem Chip.integEnd_touch (c : Chip) : Touch 0x7effbfa 0x200180200000000000000000000000000000000000000000000008000050034 c (Chip.integEnd c) := by
  unfold Chip.integEnd
  repeat' first
    | (fail_if_no_progress extract_lets +onlyGivenNames x; first | (revert x; intro (x : Chip); refine Touch.cut (d := x) ?_ (fun hx => ?_); subst x; rotate_left; try clear_value x) | (revert x; intro (x : Chip × _); refine Touch.cut (d := x.1) ?_ (fun hx => ?_); subst x; rotate_left; try clear_value x) | skip)
    | (with_reducible first | exact Touch.refl | assumption | apply Touch.each | apply Touch.step (Chip.enterHeld_touch ..) | apply Touch.step (Chip.logWord_touch ..) | apply Touch.step (Chip.setPhase_touch ..))
    | decide +kernel
    | (with_reducible apply Touch.upd) <;> first | (intro p; cases p <;> dsimp only [Part.same] <;> first | exact Or.inl (by decide +kernel) | exact Or.inr rfl) | (with_reducible first | exact Touch.refl | assumption | apply Touch.each | apply Touch.step (Chip.enterHeld_touch ..) | apply Touch.step (Chip.logWord_touch ..) | apply Touch.step (Chip.setPhase_touch ..)) | split
    | split
    | (intro _; intros)
    | (clear_value *; split)

theorem Chip.fetchAccept_touch (c : Chip) (r : Nat) (bytes : List Byte) : Touch 0x308 0x180000000000000000000000000000000000000000000000009882000004 c (Chip.fetchAccept c r bytes) := by
  unfold Chip.fetchAccept
  repeat' first
    | (fail_if_no_progress extract_lets +onlyGivenNames x; first | (revert x; intro (x : Chip); refine Touch.cut (d := x) ?_ (fun hx => ?_); subst x; rotate_left; try clear_value x) | (revert x; intro (x : Chip × _); refine Touch.cut (d := x.1) ?_ (fun hx => ?_); subst x; rotate_left; try clear_value x) | skip)
    | (with_reducible first | exact Touch.refl | assumption | apply Touch.put | apply Touch.wr | apply Touch.foldl | apply Touch.foldl_fst | apply Touch.step (Chip.log_touch ..) | apply Touch.step (Chip.otpMirror_touch ..))
    | decide +kernel
    | (with_reducible apply Touch.upd) <;> first | (intro p; cases p <;> dsimp only [Part.same] <;> first | exact Or.inl (by decide +kernel) | exact Or.inr rfl) | (with_reducible first | exact Touch.refl | assumption | apply Touch.put | apply Touch.wr | apply Touch.foldl | apply Touch.foldl_fst | apply Touch.step (Chip.log_touch ..) | apply Touch.step (Chip.otpMirror_touch ..)) | split
    | exact covers_reg (by decide +kernel)
    | split
    | (intro _; intros)
    | (clear_value *; split)

end Sys2Proof.Machine
end

