-- ==== Sys2Proof/Laws/TouchCarding.lean ====
section
/-! SUPPORT. What each function of Machine/Carding.lean can change: the two masks of `Touch` (Laws/Touch.lean), parts and banks of registers. -/

set_option linter.unreachableTactic false
set_option linter.unusedTactic false
set_option linter.tactic.unusedName false
set_option linter.unnecessarySeqFocus false
set_option linter.unusedVariables false
set_option Elab.async false

namespace Sys2Proof.Machine

theorem Chip.onMeas_touch {pm bm : Nat} {a : Chip} (c : Chip) (op : Nat) (f : Chip → Inbox → Chip) (hp : sub 0x10 pm = true) (hb : sub 0x0 bm = true)
    (h_f : ∀ d x1, Touch pm bm a d → Touch pm bm a (f d x1))
    (hT : Touch pm bm a c) : Touch pm bm a (Chip.onMeas c op f) := by
  unfold Chip.onMeas
  repeat' first
    | (with_reducible first | exact Touch.refl | assumption | apply h_f)
    | exact sub_trans (by decide +kernel) hp
    | exact sub_trans (by decide +kernel) hb
    | exact hasField_sub hb (by decide +kernel)
    | (with_reducible apply Touch.upd) <;> first | (intro p; cases p <;> dsimp only [Part.same] <;> first | exact Or.inl (sub_bit hp (by decide +kernel)) | exact Or.inr rfl) | (with_reducible first | exact Touch.refl | assumption | apply h_f) | split
    | split
    | (intro _; intros)
    | (clear_value *; split)

theorem Chip.recard_touch (c : Chip) (req : Req) (n : Nat) : Touch 0x4811e 0x180000000000000000000004000000000000003800000000000000004004 c (Chip.recard c req n) := by
  unfold Chip.recard
  repeat' first
    | (fail_if_no_progress extract_lets +onlyGivenNames x; first | (revert x; intro (x : Chip); refine Touch.cut (d := x) ?_ (fun hx => ?_); subst x; rotate_left; try clear_value x) | (revert x; intro (x : Chip × _); refine Touch.cut (d := x.1) ?_ (fun hx => ?_); subst x; rotate_left; try clear_value x) | skip)
    | (with_reducible first | exact Touch.refl | assumption | apply Touch.addi | apply Touch.step (Chip.bridgeDie_touch ..) | apply Touch.step (Chip.cardMod_touch ..) | apply Touch.step (Chip.measure_touch ..))
    | decide +kernel
    | unfold bridgeField
    | split
    | (intro _; intros)
    | (clear_value *; split)

end Sys2Proof.Machine
end

