-- ==== Sys2Proof/Laws/TouchCoreOps.lean ====
section
/-! SUPPORT. What each function of Machine/CoreOps.lean can change: the two masks of `Touch` (Laws/Touch.lean), parts and banks of registers. -/

set_option linter.unreachableTactic false
set_option linter.unusedTactic false
set_option linter.tactic.unusedName false
set_option linter.unnecessarySeqFocus false
set_option linter.unusedVariables false
set_option Elab.async false

namespace Sys2Proof.Machine

theorem Chip.spnFail_touch (c : Chip) (code pc group last : Nat) : Touch 0x7effbfe 0x84200180200000001d0080001830400008100000000000000000000c402050034 c (Chip.spnFail c code pc group last) := by
  unfold Chip.spnFail
  repeat' first
    | (with_reducible first | exact Touch.refl | assumption | apply Touch.step (Chip.instFail_touch ..))
    | decide +kernel
    | split
    | (intro _; intros)
    | (clear_value *; split)

theorem Chip.codeFault_touch (c : Chip) (addr : Nat) (wr : Bool) : Touch 0x7effbfe 0x84200180200000001d0080001830400008100000000000000000000c402050034 c (Chip.codeFault c addr wr) := by
  unfold Chip.codeFault
  repeat' first
    | (fail_if_no_progress extract_lets +onlyGivenNames x; first | (revert x; intro (x : Chip); refine Touch.cut (d := x) ?_ (fun hx => ?_); subst x; rotate_left; try clear_value x) | (revert x; intro (x : Chip × _); refine Touch.cut (d := x.1) ?_ (fun hx => ?_); subst x; rotate_left; try clear_value x) | skip)
    | (with_reducible first | exact Touch.refl | assumption | apply Touch.step (Chip.enterHeld_touch ..) | apply Touch.step (Chip.freezeNoil_touch ..) | apply Touch.step (Chip.log_touch ..) | apply Touch.step (Chip.zeroize_touch ..))
    | decide +kernel
    | split
    | (intro _; intros)
    | (clear_value *; split)

theorem Chip.fenceCore_touch (c : Chip) (k cause : Nat) : Touch 0x7effbfe 0x84240182200020039d0080001830400008100000000000000000000c402050034 c (Chip.fenceCore c k cause) := by
  unfold Chip.fenceCore
  repeat' first
    | (fail_if_no_progress extract_lets +onlyGivenNames x; first | (revert x; intro (x : Chip); refine Touch.cut (d := x) ?_ (fun hx => ?_); subst x; rotate_left; try clear_value x) | (revert x; intro (x : Chip × _); refine Touch.cut (d := x.1) ?_ (fun hx => ?_); subst x; rotate_left; try clear_value x) | skip)
    | (with_reducible first | exact Touch.refl | assumption | apply Touch.each | apply Touch.puti | apply Touch.step (Chip.coreSet_touch ..) | apply Touch.step (Chip.dmStop1_touch ..) | apply Touch.step (Chip.instFail_touch ..) | apply Touch.step (Chip.setHalt_touch ..))
    | decide +kernel
    | split
    | (intro _; intros)
    | (clear_value *; split)

theorem Chip.fenceBoxes_touch (c : Chip) (k : Nat) : Touch 0x1104 0xc00000000000000000000000000000000010400000000000000000000000000 c (Chip.fenceBoxes c k) := by
  unfold Chip.fenceBoxes
  repeat' first
    | (fail_if_no_progress extract_lets +onlyGivenNames x; first | (revert x; intro (x : Chip); refine Touch.cut (d := x) ?_ (fun hx => ?_); subst x; rotate_left; try clear_value x) | (revert x; intro (x : Chip × _); refine Touch.cut (d := x.1) ?_ (fun hx => ?_); subst x; rotate_left; try clear_value x) | skip)
    | (with_reducible first | exact Touch.refl | assumption | apply Touch.each | apply Touch.step (Chip.mbFree_touch ..) | apply Touch.step (Chip.mbRaiseFull_touch ..))
    | decide +kernel
    | (with_reducible apply Touch.upd) <;> first | (intro p; cases p <;> dsimp only [Part.same] <;> first | exact Or.inl (by decide +kernel) | exact Or.inr rfl) | (with_reducible first | exact Touch.refl | assumption | apply Touch.each | apply Touch.step (Chip.mbFree_touch ..) | apply Touch.step (Chip.mbRaiseFull_touch ..)) | split
    | split
    | (intro _; intros)
    | (clear_value *; split)

theorem Chip.fenceTake_touch (c : Chip) (k : Nat) : Touch 0xc190c 0x16c0018002002a0b8000000078300000000010400000000000000000000000004 c (Chip.fenceTake c k) := by
  unfold Chip.fenceTake
  repeat' first
    | (fail_if_no_progress extract_lets +onlyGivenNames x; first | (revert x; intro (x : Chip); refine Touch.cut (d := x) ?_ (fun hx => ?_); subst x; rotate_left; try clear_value x) | (revert x; intro (x : Chip × _); refine Touch.cut (d := x.1) ?_ (fun hx => ?_); subst x; rotate_left; try clear_value x) | skip)
    | (with_reducible first | exact Touch.refl | assumption | apply Touch.each | apply Touch.step (Chip.chTake_touch ..) | apply Touch.step (Chip.cxFree_touch ..) | apply Touch.step (Chip.cxGrant_touch ..) | apply Touch.step (Chip.dmFence_touch ..) | apply Touch.step (Chip.fenceBoxes_touch ..) | apply Touch.step (Chip.traceTake_touch ..))
    | decide +kernel
    | (with_reducible apply Touch.upd) <;> first | (intro p; cases p <;> dsimp only [Part.same] <;> first | exact Or.inl (by decide +kernel) | exact Or.inr rfl) | (with_reducible first | exact Touch.refl | assumption | apply Touch.each | apply Touch.step (Chip.chTake_touch ..) | apply Touch.step (Chip.cxFree_touch ..) | apply Touch.step (Chip.cxGrant_touch ..) | apply Touch.step (Chip.dmFence_touch ..) | apply Touch.step (Chip.fenceBoxes_touch ..) | apply Touch.step (Chip.traceTake_touch ..)) | split
    | split
    | (intro _; intros)
    | (clear_value *; split)

theorem Chip.fenceDone_touch (c : Chip) (k pc : Nat) : Touch 0xc190c 0x16c4018002002a0b8000000078300000000010400000000000000000000000004 c (Chip.fenceDone c k pc) := by
  unfold Chip.fenceDone
  repeat' first
    | (with_reducible first | exact Touch.refl | assumption | apply Touch.step (Chip.coreSet_touch ..) | apply Touch.step (Chip.fenceTake_touch ..) | apply Touch.step (Chip.log_touch ..))
    | decide +kernel
    | split
    | (intro _; intros)
    | (clear_value *; split)

theorem Chip.periodWrite_touch {pm bm : Nat} {a : Chip} (c : Chip) (req : Req) (f : Fld) (v : Nat) (hp : sub 0x108 pm = true) (hb : sub 0x180000000000000000000000000000000000000000000000000000000004 bm = true)
    (h1 : hasField bm f = true) (h : Touch pm bm a c) : Touch pm bm a (c.periodWrite req f v) := by
  unfold Chip.periodWrite
  extract_lets k d
  have hd : Touch pm bm a d := Touch.put h1 h
  exact Touch.ite hd (Touch.step (Chip.log_touch ..) (sub_trans (by decide +kernel) hp) (sub_trans (by decide +kernel) hb) hd)

end Sys2Proof.Machine
end

