-- ==== Sys2Proof/Laws/TouchCores.lean ====
section
/-! SUPPORT. What each function of Machine/Cores.lean can change: the two masks of `Touch` (Laws/Touch.lean), parts and banks of registers. -/

set_option linter.unreachableTactic false
set_option linter.unusedTactic false
set_option linter.tactic.unusedName false
set_option linter.unnecessarySeqFocus false
set_option linter.unusedVariables false
set_option Elab.async false

namespace Sys2Proof.Machine

theorem Chip.wdtWrite_touch (c : Chip) (req : Req) (value : Word) : Touch 0x1108 0x8180000000000000000000000000000000000000000000000000000000004 c (Chip.wdtWrite c req value) := by
  unfold Chip.wdtWrite
  repeat' first
    | (fail_if_no_progress extract_lets +onlyGivenNames x; first | (revert x; intro (x : Chip); refine Touch.cut (d := x) ?_ (fun hx => ?_); subst x; rotate_left; try clear_value x) | (revert x; intro (x : Chip × _); refine Touch.cut (d := x.1) ?_ (fun hx => ?_); subst x; rotate_left; try clear_value x) | skip)
    | (with_reducible first | exact Touch.refl | assumption | apply Chip.periodWrite_touch)
    | decide +kernel
    | (with_reducible apply Touch.upd) <;> first | (intro p; cases p <;> dsimp only [Part.same] <;> first | exact Or.inl (by decide +kernel) | exact Or.inr rfl) | (with_reducible first | exact Touch.refl | assumption | apply Chip.periodWrite_touch) | split
    | split
    | (intro _; intros)
    | (clear_value *; split)

theorem Chip.codeWrite_touch (c : Chip) (value : Word) : Touch 0x100 0x4000000000000000000000000000000000000000000000000000000000000 c (Chip.codeWrite c value) := by
  unfold Chip.codeWrite
  repeat' first
    | (fail_if_no_progress extract_lets +onlyGivenNames x; first | (revert x; intro (x : Chip); refine Touch.cut (d := x) ?_ (fun hx => ?_); subst x; rotate_left; try clear_value x) | (revert x; intro (x : Chip × _); refine Touch.cut (d := x.1) ?_ (fun hx => ?_); subst x; rotate_left; try clear_value x) | skip)
    | (with_reducible first | exact Touch.refl | assumption | apply Touch.put)
    | decide +kernel
    | split
    | (intro _; intros)
    | (clear_value *; split)

theorem Chip.coreRestart_touch (c : Chip) (core : Nat) : Touch 0x108 0x40180000000000000000000000000000000000000000000000000000000004 c (Chip.coreRestart c core) := by
  unfold Chip.coreRestart
  repeat' first
    | (with_reducible first | exact Touch.refl | assumption | apply Touch.step (Chip.coreSet_touch ..) | apply Touch.step (Chip.log_touch ..))
    | decide +kernel
    | split
    | (intro _; intros)
    | (clear_value *; split)

end Sys2Proof.Machine
end

