-- ==== Sys2Proof/Laws/TouchCryptoPower.lean ====
section
/-! SUPPORT. What each function of Machine/CryptoPower.lean can change: the two masks of `Touch` (Laws/Touch.lean), parts and banks of registers. -/

set_option linter.unreachableTactic false
set_option linter.unusedTactic false
set_option linter.tactic.unusedName false
set_option linter.unnecessarySeqFocus false
set_option linter.unusedVariables false
set_option Elab.async false

namespace Sys2Proof.Machine

theorem Chip.powerOnTests_touch (c : Chip) (g : Nat) (bad : List (Nat × Nat)) : Touch 0x7effbfe 0x84200180200000001d00800018304c0008100000000000000000000c402050034 c (Chip.powerOnTests c g bad) := by
  unfold Chip.powerOnTests
  repeat' first
    | (with_reducible first | exact Touch.refl | assumption | apply Touch.each | apply Touch.step (Chip.cr_touch ..) | apply Touch.step (Chip.laneFail_touch ..))
    | decide +kernel
    | split
    | (intro _; intros)
    | (clear_value *; split)

theorem Chip.cqDown_touch (c : Chip) (n : Nat) : Touch 0x1090c 0x180000000000000000000000000091000000000000000000000000000004 c (Chip.cqDown c n) := by
  induction n generalizing c with
  | zero => unfold Chip.cqDown; exact Touch.refl
  | succ k ih =>
    unfold Chip.cqDown
    dsimp only
    split
    · exact Touch.refl
    · split
      · exact Touch.refl
      · rename_i p h
        exact Touch.step (ih _) (by decide +kernel) (by decide +kernel) (Touch.step (Chip.cmdsEnd_touch ..) (by decide +kernel) (by decide +kernel)
          (Touch.step (Chip.cu_touch ..) (by decide +kernel) (by decide +kernel) (Touch.step (Chip.cmdTake_touch _ _ _ _ h) (by decide +kernel) (by decide +kernel) Touch.refl)))

theorem Chip.groupsDown_touch (c : Chip) : Touch 0x205093e 0x180000000000000800000304080091000000000000000000000000050004 c (Chip.groupsDown c) := by
  unfold Chip.groupsDown
  repeat' first
    | (fail_if_no_progress extract_lets +onlyGivenNames x; first | (revert x; intro (x : Chip); refine Touch.cut (d := x) ?_ (fun hx => ?_); subst x; rotate_left; try clear_value x) | (revert x; intro (x : Chip × _); refine Touch.cut (d := x.1) ?_ (fun hx => ?_); subst x; rotate_left; try clear_value x) | skip)
    | (with_reducible first | exact Touch.refl | assumption | apply Touch.each | apply Touch.put | apply Touch.step (Chip.chDone_touch ..) | apply Touch.step (Chip.cqDown_touch ..) | apply Touch.step (Chip.keyRetry_touch ..) | apply Touch.step (Chip.setGrp_touch ..))
    | decide +kernel
    | split
    | (intro _; intros)
    | (clear_value *; split)

theorem Chip.forceOn_touch (c : Chip) (mask : Nat) : Touch 0x108 0x180000000000000000000000000000000000000000000000000000070004 c (Chip.forceOn c mask) := by
  unfold Chip.forceOn
  repeat' first
    | (with_reducible first | exact Touch.refl | assumption | apply Touch.put | apply Touch.step (Chip.forced_touch ..))
    | decide +kernel
    | split
    | (intro _; intros)
    | (clear_value *; split)

end Sys2Proof.Machine
end

