-- ==== Sys2Proof/Laws/TouchLanes.lean ====
section
/-! SUPPORT. What each function of Machine/Lanes.lean can change: the two masks of `Touch` (Laws/Touch.lean), parts and banks of registers. -/

set_option linter.unreachableTactic false
set_option linter.unusedTactic false
set_option linter.tactic.unusedName false
set_option linter.unnecessarySeqFocus false
set_option linter.unusedVariables false
set_option Elab.async false

namespace Sys2Proof.Machine

theorem Chip.entCalibrate_touch (c : Chip) (source : Bool) : Touch 0x100 0x2000000000000000000000000000000000000 c (Chip.entCalibrate c source) := by
  unfold Chip.entCalibrate
  repeat' first
    | (with_reducible first | exact Touch.refl | assumption | apply Touch.step (Chip.entSet_touch ..))
    | decide +kernel
    | split
    | (intro _; intros)
    | (clear_value *; split)

end Sys2Proof.Machine
end

