-- ==== Sys2Proof/Laws/TouchMailbox.lean ====
section
/-! SUPPORT. What each function of Machine/Mailbox.lean can change: the two masks of `Touch` (Laws/Touch.lean), parts and banks of registers. -/

set_option linter.unreachableTactic false
set_option linter.unusedTactic false
set_option linter.tactic.unusedName false
set_option linter.unnecessarySeqFocus false
set_option linter.unusedVariables false
set_option Elab.async false

namespace Sys2Proof.Machine

theorem Chip.mbLockTake_touch (c : Chip) (req : Req) (ns : Bool) (n : Nat) : Touch 0x1100 0x10400000000000000000000000000 c (Chip.mbLockTake c req ns n).1 := by
  unfold Chip.mbLockTake
  repeat' first
    | (with_reducible first | exact Touch.refl | assumption | apply Chip.mbPut_touch | apply Touch.step (Chip.mbTouch_touch ..))
    | decide +kernel
    | split
    | (intro _; intros)
    | (clear_value *; split)

theorem Chip.mbDataPut_touch (c : Chip) (req : Req) (ns : Bool) (n word : Nat) (value : Word) : Touch 0x1108 0xc00180000000000000000000000000000010400000000000000000000000004 c (Chip.mbDataPut c req ns n word value) := by
  unfold Chip.mbDataPut
  repeat' first
    | (fail_if_no_progress extract_lets +onlyGivenNames x; first | (revert x; intro (x : Chip); refine Touch.cut (d := x) ?_ (fun hx => ?_); subst x; rotate_left; try clear_value x) | (revert x; intro (x : Chip × _); refine Touch.cut (d := x.1) ?_ (fun hx => ?_); subst x; rotate_left; try clear_value x) | skip)
    | (with_reducible first | exact Touch.refl | assumption | apply Touch.step (Chip.mbDenied_touch ..) | apply Touch.step (Chip.mbTouch_touch ..) | apply Touch.step (Chip.mbWord_touch ..))
    | decide +kernel
    | split
    | (intro _; intros)
    | (clear_value *; split)

theorem Chip.callUnknown_touch (c : Chip) (n : Nat) : Touch 0x190c 0xc00180000000000000000000000000000010400000000000000000000000004 c (Chip.callUnknown c n) := by
  unfold Chip.callUnknown
  repeat' first
    | (with_reducible first | exact Touch.refl | assumption | apply Touch.step (Chip.answer_touch ..))
    | decide +kernel
    | split
    | (intro _; intros)
    | (clear_value *; split)

theorem Chip.mbGo_touch (c : Chip) (req : Req) (ns : Bool) (n words : Nat) : Touch 0x190c 0xc00180000000000000000000000000000010400000000000000000000000004 c (Chip.mbGo c req ns n words) := by
  unfold Chip.mbGo
  repeat' first
    | (fail_if_no_progress extract_lets +onlyGivenNames x; first | (revert x; intro (x : Chip); refine Touch.cut (d := x) ?_ (fun hx => ?_); subst x; rotate_left; try clear_value x) | (revert x; intro (x : Chip × _); refine Touch.cut (d := x.1) ?_ (fun hx => ?_); subst x; rotate_left; try clear_value x) | skip)
    | (with_reducible first | exact Touch.refl | assumption | apply Touch.step (Chip.callUnknown_touch ..) | apply Touch.step (Chip.hostTake_touch ..) | apply Touch.step (Chip.mbDenied_touch ..) | apply Touch.step (Chip.mbFree_touch ..) | apply Touch.step (Chip.mbFull_touch ..) | apply Touch.step (Chip.mbLast_touch ..) | apply Touch.step (Chip.mbReplied_touch ..) | apply Touch.step (Chip.mbTouch_touch ..))
    | decide +kernel
    | (with_reducible apply Touch.upd) <;> first | (intro p; cases p <;> dsimp only [Part.same] <;> first | exact Or.inl (by decide +kernel) | exact Or.inr rfl) | (with_reducible first | exact Touch.refl | assumption | apply Touch.step (Chip.callUnknown_touch ..) | apply Touch.step (Chip.hostTake_touch ..) | apply Touch.step (Chip.mbDenied_touch ..) | apply Touch.step (Chip.mbFree_touch ..) | apply Touch.step (Chip.mbFull_touch ..) | apply Touch.step (Chip.mbLast_touch ..) | apply Touch.step (Chip.mbReplied_touch ..) | apply Touch.step (Chip.mbTouch_touch ..)) | split
    | split
    | (intro _; intros)
    | (clear_value *; split)

theorem Chip.mbRelease_touch (c : Chip) (req : Req) (ns : Bool) (n : Nat) : Touch 0x1108 0xc00180000000000000000000000000000010400000000000000000000000004 c (Chip.mbRelease c req ns n) := by
  unfold Chip.mbRelease
  repeat' first
    | (with_reducible first | exact Touch.refl | assumption | apply Touch.step (Chip.mbDenied_touch ..) | apply Touch.step (Chip.mbFree_touch ..) | apply Touch.step (Chip.mbLast_touch ..))
    | decide +kernel
    | split
    | (intro _; intros)
    | (clear_value *; split)

theorem Chip.mbForced_touch (c : Chip) (req : Nat) (ns : Bool) (n : Nat) : Touch 0x108 0x180000000000000000000000000000000000000000000000000000000004 c (Chip.mbForced c req ns n) := by
  unfold Chip.mbForced
  repeat' first
    | (with_reducible first | exact Touch.refl | assumption | apply Touch.step (Chip.log_touch ..))
    | decide +kernel
    | split
    | (intro _; intros)
    | (clear_value *; split)

theorem Chip.mbForce_touch (c : Chip) (req : Req) (ns : Bool) (n : Nat) : Touch 0x1108 0xc00180000000000000000000000000000010400000000000000000000000004 c (Chip.mbForce c req ns n) := by
  unfold Chip.mbForce
  repeat' first
    | (with_reducible first | exact Touch.refl | assumption | apply Touch.step (Chip.mbDenied_touch ..) | apply Touch.step (Chip.mbForced_touch ..) | apply Touch.step (Chip.mbFree_touch ..) | apply Touch.step (Chip.mbLast_touch ..))
    | decide +kernel
    | split
    | (intro _; intros)
    | (clear_value *; split)

end Sys2Proof.Machine
end

