-- ==== Sys2Proof/Laws/TouchOperands.lean ====
section
/-! SUPPORT. What each function of Machine/Operands.lean can change: the two masks of `Touch` (Laws/Touch.lean), parts and banks of registers. -/

set_option linter.unreachableTactic false
set_option linter.unusedTactic false
set_option linter.tactic.unusedName false
set_option linter.unnecessarySeqFocus false
set_option linter.unusedVariables false
set_option Elab.async false

namespace Sys2Proof.Machine

theorem Chip.bitsPut_touch (c : Chip) (off hi lo v : Nat) : Touch 0x0 0x200000000000000000000000000000000000000000000000000000000000000 c (Chip.bitsPut c off hi lo v) := by
  unfold Chip.bitsPut
  repeat' first
    | (with_reducible first | exact Touch.refl | assumption | apply Touch.wr)
    | decide +kernel
    | exact Or.inl (by decide +kernel)
    | exact fun _ _ _ => Or.inl (by decide +kernel)
    | exact covers_reg (by decide +kernel)
    | split
    | (intro _; intros)
    | (clear_value *; split)

theorem Chip.fieldPut_touch (c : Chip) (req : Req) (off hi lo v : Nat) : Touch 0x108 0x200180000000000000000000000000000000000000000000000000000000004 c (Chip.fieldPut c req off hi lo v) := by
  unfold Chip.fieldPut
  repeat' first
    | (fail_if_no_progress extract_lets +onlyGivenNames x; first | (revert x; intro (x : Chip); refine Touch.cut (d := x) ?_ (fun hx => ?_); subst x; rotate_left; try clear_value x) | (revert x; intro (x : Chip × _); refine Touch.cut (d := x.1) ?_ (fun hx => ?_); subst x; rotate_left; try clear_value x) | skip)
    | (with_reducible first | exact Touch.refl | assumption | apply Touch.when | apply Touch.step (Chip.bitsPut_touch ..) | apply Touch.step (Chip.log_touch ..))
    | decide +kernel
    | split
    | (intro _; intros)
    | (clear_value *; split)

theorem Chip.fieldWrite_touch (c : Chip) (req : Req) (off : Nat) (w : Word) (locked : Bool) (f : FieldRow) : Touch 0x108 0x200180000000000000000000000000000000000000000000000000000000004 c (Chip.fieldWrite c req off w locked f) := by
  unfold Chip.fieldWrite
  repeat' first
    | (fail_if_no_progress extract_lets +onlyGivenNames x; first | (revert x; intro (x : Chip); refine Touch.cut (d := x) ?_ (fun hx => ?_); subst x; rotate_left; try clear_value x) | (revert x; intro (x : Chip × _); refine Touch.cut (d := x.1) ?_ (fun hx => ?_); subst x; rotate_left; try clear_value x) | skip)
    | (with_reducible first | exact Touch.refl | assumption | apply Touch.step (Chip.bitsPut_touch ..) | apply Touch.step (Chip.fieldPut_touch ..))
    | decide +kernel
    | split
    | (intro _; intros)
    | (clear_value *; split)

theorem Chip.fieldsWrite_touch (c : Chip) (req : Req) (off : Nat) (w : Word) : Touch 0x108 0x200180000000000000000000000000000000000000000000000000000000004 c (Chip.fieldsWrite c req off w) := by
  unfold Chip.fieldsWrite
  repeat' first
    | (fail_if_no_progress extract_lets +onlyGivenNames x; first | (revert x; intro (x : Chip); refine Touch.cut (d := x) ?_ (fun hx => ?_); subst x; rotate_left; try clear_value x) | (revert x; intro (x : Chip × _); refine Touch.cut (d := x.1) ?_ (fun hx => ?_); subst x; rotate_left; try clear_value x) | skip)
    | (with_reducible first | exact Touch.refl | assumption | apply Touch.each | apply Touch.step (Chip.fieldWrite_touch ..))
    | decide +kernel
    | split
    | (intro _; intros)
    | (clear_value *; split)

end Sys2Proof.Machine
end

