-- ==== Sys2Proof/Laws/TouchTraceOps.lean ====
section
/-! SUPPORT. What each function of Machine/TraceOps.lean can change: the two masks of `Touch` (Laws/Touch.lean), parts and banks of registers. -/

set_option linter.unreachableTactic false
set_option linter.unusedTactic false
set_option linter.tactic.unusedName false
set_option linter.unnecessarySeqFocus false
set_option linter.unusedVariables false
set_option Elab.async false

namespace Sys2Proof.Machine

theorem Chip.dbgLast_touch (c : Chip) (k : Nat) (st : Status) : Touch 0x100 0x2000000000000000000000000000000000000000000000000000000000 c (Chip.dbgLast c k st) := by
  unfold Chip.dbgLast
  repeat' first
    | (with_reducible first | exact Touch.refl | assumption | apply Touch.puti)
    | decide +kernel
    | split
    | (intro _; intros)
    | (clear_value *; split)

theorem Chip.haltNow_touch (c : Chip) (k : Nat) : Touch 0x110c 0x182000020038000000000000000000000000000000000000000000000004 c (Chip.haltNow c k) := by
  unfold Chip.haltNow
  repeat' first
    | (fail_if_no_progress extract_lets +onlyGivenNames x; first | (revert x; intro (x : Chip); refine Touch.cut (d := x) ?_ (fun hx => ?_); subst x; rotate_left; try clear_value x) | (revert x; intro (x : Chip × _); refine Touch.cut (d := x.1) ?_ (fun hx => ?_); subst x; rotate_left; try clear_value x) | skip)
    | (with_reducible first | exact Touch.refl | assumption | apply Touch.each | apply Touch.step (Chip.dbgCore_touch ..) | apply Touch.step (Chip.dbgLast_touch ..) | apply Touch.step (Chip.dmStop1_touch ..) | apply Touch.step (Chip.mbRaiseFull_touch ..) | apply Touch.step (Chip.setHalt_touch ..))
    | decide +kernel
    | split
    | (intro _; intros)
    | (clear_value *; split)

theorem Chip.haltReq_touch (c : Chip) (k : Nat) : Touch 0x110c 0x182000020038000000000000000000000000000000000000000000000004 c (Chip.haltReq c k) := by
  unfold Chip.haltReq
  repeat' first
    | (with_reducible first | exact Touch.refl | assumption | apply Touch.step (Chip.dbgCore_touch ..) | apply Touch.step (Chip.dbgLast_touch ..) | apply Touch.step (Chip.haltNow_touch ..))
    | decide +kernel
    | split
    | (intro _; intros)
    | (clear_value *; split)

theorem Chip.stepReq_touch (c : Chip) (k : Nat) : Touch 0x1100 0x2000000000000000000000000000000000000000000000000000000000 c (Chip.stepReq c k) := by
  unfold Chip.stepReq
  repeat' first
    | (with_reducible first | exact Touch.refl | assumption | apply Touch.step (Chip.dbgLast_touch ..) | apply Touch.step (Chip.setHalt_touch ..))
    | decide +kernel
    | split
    | (intro _; intros)
    | (clear_value *; split)

theorem Chip.resumeReq_touch (c : Chip) (k : Nat) : Touch 0x1108 0x182000020038000000000000000000000000000000000000000000000004 c (Chip.resumeReq c k) := by
  unfold Chip.resumeReq
  repeat' first
    | (fail_if_no_progress extract_lets +onlyGivenNames x; first | (revert x; intro (x : Chip); refine Touch.cut (d := x) ?_ (fun hx => ?_); subst x; rotate_left; try clear_value x) | (revert x; intro (x : Chip × _); refine Touch.cut (d := x.1) ?_ (fun hx => ?_); subst x; rotate_left; try clear_value x) | skip)
    | (with_reducible first | exact Touch.refl | assumption | apply Touch.each | apply Touch.step (Chip.dbgCore_touch ..) | apply Touch.step (Chip.dbgLast_touch ..) | apply Touch.step (Chip.dmResume_touch ..) | apply Touch.step (Chip.setHalt_touch ..))
    | decide +kernel
    | split
    | (intro _; intros)
    | (clear_value *; split)

theorem Chip.coreDbgWrite_touch (c : Chip) (k : Nat) (w : Word) : Touch 0x110c 0x182000020038000000000000000000000000000000000000000000000004 c (Chip.coreDbgWrite c k w) := by
  unfold Chip.coreDbgWrite
  repeat' first
    | (fail_if_no_progress extract_lets +onlyGivenNames x; first | (revert x; intro (x : Chip); refine Touch.cut (d := x) ?_ (fun hx => ?_); subst x; rotate_left; try clear_value x) | (revert x; intro (x : Chip × _); refine Touch.cut (d := x.1) ?_ (fun hx => ?_); subst x; rotate_left; try clear_value x) | skip)
    | (with_reducible first | exact Touch.refl | assumption | apply Touch.when | apply Touch.step (Chip.haltReq_touch ..) | apply Touch.step (Chip.resumeReq_touch ..) | apply Touch.step (Chip.stepReq_touch ..))
    | decide +kernel
    | split
    | (intro _; intros)
    | (clear_value *; split)

theorem Chip.breakAt_touch (c : Chip) (k b : Nat) (pc : Nat) : Touch 0x110c 0x182000020038000000000000000000000000000000000000000000000004 c (Chip.breakAt c k b pc) := by
  unfold Chip.breakAt
  repeat' first
    | (fail_if_no_progress extract_lets +onlyGivenNames x; first | (revert x; intro (x : Chip); refine Touch.cut (d := x) ?_ (fun hx => ?_); subst x; rotate_left; try clear_value x) | (revert x; intro (x : Chip × _); refine Touch.cut (d := x.1) ?_ (fun hx => ?_); subst x; rotate_left; try clear_value x) | skip)
    | (with_reducible first | exact Touch.refl | assumption | apply Touch.puti | apply Touch.step (Chip.fire_touch ..) | apply Touch.step (Chip.haltReq_touch ..))
    | decide +kernel
    | split
    | (intro _; intros)
    | (clear_value *; split)

theorem Chip.traceEnable_touch (c : Chip) (t : Nat) (on : Bool) : Touch 0x100 0xc0000000000000000000000000000000000000000000000000000000000 c (Chip.traceEnable c t on) := by
  unfold Chip.traceEnable
  repeat' first
    | (fail_if_no_progress extract_lets +onlyGivenNames x; first | (revert x; intro (x : Chip); refine Touch.cut (d := x) ?_ (fun hx => ?_); subst x; rotate_left; try clear_value x) | (revert x; intro (x : Chip × _); refine Touch.cut (d := x.1) ?_ (fun hx => ?_); subst x; rotate_left; try clear_value x) | skip)
    | (with_reducible first | exact Touch.refl | assumption | apply Touch.puti)
    | decide +kernel
    | split
    | (intro _; intros)
    | (clear_value *; split)

theorem Chip.traceArm_touch (c : Chip) (t : Nat) : Touch 0x100 0x80000000000000000000000000000000000000000000000000000000000 c (Chip.traceArm c t) := by
  unfold Chip.traceArm
  repeat' first
    | (with_reducible first | exact Touch.refl | assumption | apply Touch.puti)
    | decide +kernel
    | split
    | (intro _; intros)
    | (clear_value *; split)

theorem Chip.tracePad_touch (c : Chip) (t : Nat) : Touch 0x100 0x0 c (Chip.tracePad c t) := by
  unfold Chip.tracePad
  repeat' first
    | (fail_if_no_progress extract_lets +onlyGivenNames x; first | (revert x; intro (x : Chip); refine Touch.cut (d := x) ?_ (fun hx => ?_); subst x; rotate_left; try clear_value x) | (revert x; intro (x : Chip × _); refine Touch.cut (d := x.1) ?_ (fun hx => ?_); subst x; rotate_left; try clear_value x) | skip)
    | (with_reducible first | exact Touch.refl | assumption | apply Touch.step (Chip.trSet_touch ..))
    | decide +kernel
    | split
    | (intro _; intros)
    | (clear_value *; split)

theorem Chip.traceCtrl_touch (c : Chip) (t : Nat) (was : Nat) (w : Word) : Touch 0x108 0x1c0000000000000000000000000000000000000000000000000000000004 c (Chip.traceCtrl c t was w) := by
  unfold Chip.traceCtrl
  repeat' first
    | (fail_if_no_progress extract_lets +onlyGivenNames x; first | (revert x; intro (x : Chip); refine Touch.cut (d := x) ?_ (fun hx => ?_); subst x; rotate_left; try clear_value x) | (revert x; intro (x : Chip × _); refine Touch.cut (d := x.1) ?_ (fun hx => ?_); subst x; rotate_left; try clear_value x) | skip)
    | (with_reducible first | exact Touch.refl | assumption | apply Touch.puti | apply Touch.when | apply Touch.step (Chip.fire_touch ..) | apply Touch.step (Chip.traceArm_touch ..) | apply Touch.step (Chip.traceEnable_touch ..) | apply Touch.step (Chip.tracePad_touch ..))
    | decide +kernel
    | split
    | (intro _; intros)
    | (clear_value *; split)

theorem Chip.traceRead_touch (c : Chip) (t : Nat) : Touch 0x100 0x0 c (Chip.traceRead c t).1 := by
  unfold Chip.traceRead
  repeat' first
    | (fail_if_no_progress extract_lets +onlyGivenNames x; first | (revert x; intro (x : Chip); refine Touch.cut (d := x) ?_ (fun hx => ?_); subst x; rotate_left; try clear_value x) | (revert x; intro (x : Chip × _); refine Touch.cut (d := x.1) ?_ (fun hx => ?_); subst x; rotate_left; try clear_value x) | skip)
    | (with_reducible first | exact Touch.refl | assumption | apply Touch.step (Chip.trSet_touch ..))
    | decide +kernel
    | split
    | (intro _; intros)
    | (clear_value *; split)

theorem Chip.sampleGroup_touch (c : Chip) (g boundary : Nat) : Touch 0x108 0x380000000000000000000000000000000000000000000000000000000004 c (Chip.sampleGroup c g boundary) := by
  unfold Chip.sampleGroup
  repeat' first
    | (fail_if_no_progress extract_lets +onlyGivenNames x; first | (revert x; intro (x : Chip); refine Touch.cut (d := x) ?_ (fun hx => ?_); subst x; rotate_left; try clear_value x) | (revert x; intro (x : Chip × _); refine Touch.cut (d := x.1) ?_ (fun hx => ?_); subst x; rotate_left; try clear_value x) | skip)
    | (with_reducible first | exact Touch.refl | assumption | apply Touch.addi | apply Touch.step (Chip.logOnce_touch ..))
    | decide +kernel
    | (with_reducible apply Touch.upd) <;> first | (intro p; cases p <;> dsimp only [Part.same] <;> first | exact Or.inl (by decide +kernel) | exact Or.inr rfl) | (with_reducible first | exact Touch.refl | assumption | apply Touch.addi | apply Touch.step (Chip.logOnce_touch ..)) | split
    | split
    | (intro _; intros)
    | (clear_value *; split)

theorem Chip.sampleRead_touch (c : Chip) (g : Nat) : Touch 0x100 0x0 c (Chip.sampleRead c g).1 := by
  unfold Chip.sampleRead
  repeat' first
    | (fail_if_no_progress extract_lets +onlyGivenNames x; first | (revert x; intro (x : Chip); refine Touch.cut (d := x) ?_ (fun hx => ?_); subst x; rotate_left; try clear_value x) | (revert x; intro (x : Chip × _); refine Touch.cut (d := x.1) ?_ (fun hx => ?_); subst x; rotate_left; try clear_value x) | skip)
    | (with_reducible first | exact Touch.refl | assumption)
    | decide +kernel
    | (with_reducible apply Touch.upd) <;> first | (intro p; cases p <;> dsimp only [Part.same] <;> first | exact Or.inl (by decide +kernel) | exact Or.inr rfl) | (with_reducible first | exact Touch.refl | assumption) | split
    | split
    | (intro _; intros)
    | (clear_value *; split)

theorem Chip.countRead_touch (c : Chip) (i : Nat) : Touch 0x100 0x1000000000000000000000000000000000000000000000000000000000000 c (Chip.countRead c i).1 := by
  unfold Chip.countRead
  repeat' first
    | (fail_if_no_progress extract_lets +onlyGivenNames x; first | (revert x; intro (x : Chip); refine Touch.cut (d := x) ?_ (fun hx => ?_); subst x; rotate_left; try clear_value x) | (revert x; intro (x : Chip × _); refine Touch.cut (d := x.1) ?_ (fun hx => ?_); subst x; rotate_left; try clear_value x) | skip)
    | (with_reducible first | exact Touch.refl | assumption | apply Touch.puti)
    | decide +kernel
    | split
    | (intro _; intros)
    | (clear_value *; split)

theorem Chip.noilRead_touch (c : Chip) : Touch 0x100 0x400000000000000000000000000000000000000000000000000000000 c (Chip.noilRead c).1 := by
  unfold Chip.noilRead
  repeat' first
    | (fail_if_no_progress extract_lets +onlyGivenNames x; first | (revert x; intro (x : Chip); refine Touch.cut (d := x) ?_ (fun hx => ?_); subst x; rotate_left; try clear_value x) | (revert x; intro (x : Chip × _); refine Touch.cut (d := x.1) ?_ (fun hx => ?_); subst x; rotate_left; try clear_value x) | skip)
    | (with_reducible first | exact Touch.refl | assumption | apply Touch.put)
    | decide +kernel
    | (with_reducible apply Touch.upd) <;> first | (intro p; cases p <;> dsimp only [Part.same] <;> first | exact Or.inl (by decide +kernel) | exact Or.inr rfl) | (with_reducible first | exact Touch.refl | assumption | apply Touch.put) | split
    | split
    | (intro _; intros)
    | (clear_value *; split)

theorem Chip.unfreeze_touch (c : Chip) : Touch 0x100 0x200000000000000000000000000000000000000000000000000000000 c (Chip.unfreeze c) := by
  unfold Chip.unfreeze
  repeat' first
    | (with_reducible first | exact Touch.refl | assumption | apply Touch.put)
    | decide +kernel
    | (with_reducible apply Touch.upd) <;> first | (intro p; cases p <;> dsimp only [Part.same] <;> first | exact Or.inl (by decide +kernel) | exact Or.inr rfl) | (with_reducible first | exact Touch.refl | assumption | apply Touch.put) | split
    | split
    | (intro _; intros)
    | (clear_value *; split)

theorem Chip.noilCtrl_touch (c : Chip) (w : Word) : Touch 0x100 0x200000000000000000000000000000000000000000000000000000000 c (Chip.noilCtrl c w) := by
  unfold Chip.noilCtrl
  repeat' first
    | (fail_if_no_progress extract_lets +onlyGivenNames x; first | (revert x; intro (x : Chip); refine Touch.cut (d := x) ?_ (fun hx => ?_); subst x; rotate_left; try clear_value x) | (revert x; intro (x : Chip × _); refine Touch.cut (d := x.1) ?_ (fun hx => ?_); subst x; rotate_left; try clear_value x) | skip)
    | (with_reducible first | exact Touch.refl | assumption | apply Touch.when | apply Touch.step (Chip.freezeNoil_touch ..) | apply Touch.step (Chip.unfreeze_touch ..))
    | decide +kernel
    | split
    | (intro _; intros)
    | (clear_value *; split)

theorem Chip.spnTrace_touch (c : Chip) (w : Word) : Touch 0x108 0x180000000000000000000000000000000000000000000000000000000004 c (Chip.spnTrace c w) := by
  unfold Chip.spnTrace
  repeat' first
    | (fail_if_no_progress extract_lets +onlyGivenNames x; first | (revert x; intro (x : Chip); refine Touch.cut (d := x) ?_ (fun hx => ?_); subst x; rotate_left; try clear_value x) | (revert x; intro (x : Chip × _); refine Touch.cut (d := x.1) ?_ (fun hx => ?_); subst x; rotate_left; try clear_value x) | skip)
    | (with_reducible first | exact Touch.refl | assumption | apply Touch.step (Chip.trace_touch ..))
    | decide +kernel
    | (with_reducible apply Touch.upd) <;> first | (intro p; cases p <;> dsimp only [Part.same] <;> first | exact Or.inl (by decide +kernel) | exact Or.inr rfl) | (with_reducible first | exact Touch.refl | assumption | apply Touch.step (Chip.trace_touch ..)) | split
    | split
    | (intro _; intros)
    | (clear_value *; split)

theorem Chip.evtRead_touch (c : Chip) (req : Req) : Touch 0x108 0x180000000000000000000000000000000000000000000000000000000004 c (Chip.evtRead c req).1 := by
  unfold Chip.evtRead
  repeat' first
    | (fail_if_no_progress extract_lets +onlyGivenNames x; first | (revert x; intro (x : Chip); refine Touch.cut (d := x) ?_ (fun hx => ?_); subst x; rotate_left; try clear_value x) | (revert x; intro (x : Chip × _); refine Touch.cut (d := x.1) ?_ (fun hx => ?_); subst x; rotate_left; try clear_value x) | skip)
    | (with_reducible first | exact Touch.refl | assumption | apply Touch.step (Chip.logLost_touch ..))
    | decide +kernel
    | (with_reducible apply Touch.upd) <;> first | (intro p; cases p <;> dsimp only [Part.same] <;> first | exact Or.inl (by decide +kernel) | exact Or.inr rfl) | (with_reducible first | exact Touch.refl | assumption | apply Touch.step (Chip.logLost_touch ..)) | split
    | split
    | (intro _; intros)
    | (clear_value *; split)

theorem Chip.aevRead_touch (c : Chip) (req : Req) : Touch 0x8 0x0 c (Chip.aevRead c req).1 := by
  unfold Chip.aevRead
  repeat' first
    | (fail_if_no_progress extract_lets +onlyGivenNames x; first | (revert x; intro (x : Chip); refine Touch.cut (d := x) ?_ (fun hx => ?_); subst x; rotate_left; try clear_value x) | (revert x; intro (x : Chip × _); refine Touch.cut (d := x.1) ?_ (fun hx => ?_); subst x; rotate_left; try clear_value x) | skip)
    | (with_reducible first | exact Touch.refl | assumption)
    | decide +kernel
    | (with_reducible apply Touch.upd) <;> first | (intro p; cases p <;> dsimp only [Part.same] <;> first | exact Or.inl (by decide +kernel) | exact Or.inr rfl) | (with_reducible first | exact Touch.refl | assumption) | split
    | split
    | (intro _; intros)
    | (clear_value *; split)

end Sys2Proof.Machine
end

