-- ==== Sys2Proof/Laws/TouchTwisting.lean ====
section
/-! SUPPORT. What each function of Machine/Twisting.lean can change: the two masks of `Touch` (Laws/Touch.lean), parts and banks of registers. -/

set_option linter.unreachableTactic false
set_option linter.unusedTactic false
set_option linter.tactic.unusedName false
set_option linter.unnecessarySeqFocus false
set_option linter.unusedVariables false
set_option Elab.async false

namespace Sys2Proof.Machine

theorem Chip.twSealNow_touch (c : Chip) (h : Nat) : Touch 0x180012c 0x180000000000000003000000000000000003000000000000000000000004 c (Chip.twSealNow c h) := by
  unfold Chip.twSealNow
  repeat' first
    | (with_reducible first | exact Touch.refl | assumption | apply Touch.step (Chip.twMirror_touch ..) | apply Touch.step (Chip.twSeal_touch ..))
    | decide +kernel
    | split
    | (intro _; intros)
    | (clear_value *; split)

end Sys2Proof.Machine
end

