-- ==== Sys2Proof/Laws/TouchWhorl.lean ====
section
/-! SUPPORT. What each function of Machine/Whorl.lean can change: the two masks of `Touch` (Laws/Touch.lean), parts and banks of registers. -/

set_option linter.unreachableTactic false
set_option linter.unusedTactic false
set_option linter.tactic.unusedName false
set_option linter.unnecessarySeqFocus false
set_option linter.unusedVariables false
set_option Elab.async false

namespace Sys2Proof.Machine

theorem Chip.launchCtrl_touch {pm bm : Nat} {a : Chip} (c : Chip) (req : Req) (f : Chip → Chip) (hp : sub 0x14c pm = true) (hb : sub 0x180000000000000000000000000000000000000000000000100000210004 bm = true)
    (h_f : ∀ d, Touch pm bm a d → Touch pm bm a (f d))
    (hT : Touch pm bm a c) : Touch pm bm a (Chip.launchCtrl c req f) := by
  unfold Chip.launchCtrl
  repeat' first
    | (with_reducible first | exact Touch.refl | assumption | apply Chip.guarded_touch | apply Touch.step (Chip.wrote_touch ..) | apply h_f)
    | exact sub_trans (by decide +kernel) hp
    | exact sub_trans (by decide +kernel) hb
    | exact hasField_sub hb (by decide +kernel)
    | split
    | (intro _; intros)
    | (clear_value *; split)

end Sys2Proof.Machine
end

