-- ==== Sys2Proof/Laws/TouchRegWrite.lean ====
section
/-! SUPPORT. What each function of Machine/RegWrite.lean can change: the two masks of `Touch` (Laws/Touch.lean), parts and banks of registers. -/

set_option linter.unreachableTactic false
set_option linter.unusedTactic false
set_option linter.tactic.unusedName false
set_option linter.unnecessarySeqFocus false
set_option linter.unusedVariables false
set_option Elab.async false

namespace Sys2Proof.Machine

theorem Chip.wrGen_touch (c : Chip) (req : Req) (off : Nat) (w : Word) : Touch 0x4811e 0x200180000000000000000000004000000000000003800000000000000004004 c (Chip.wrGen c req off w) := by
  unfold Chip.wrGen
  repeat' first
    | (with_reducible first | exact Touch.refl | assumption | apply Touch.step (Chip.fieldsWrite_touch ..) | apply Touch.step (Chip.recard_touch ..))
    | decide +kernel
    | split
    | (intro _; intros)
    | (clear_value *; split)

theorem Chip.wrPwr_touch (c : Chip) (req : Req) (off : Nat) (w : Word) : Touch 0x7effbfe 0x84200180000000001d0080001830400008100000000000000000000c402058004 c (Chip.wrPwr c req off w) := by
  unfold Chip.wrPwr
  repeat' first
    | (fail_if_no_progress extract_lets +onlyGivenNames x; first | (revert x; intro (x : Chip); refine Touch.cut (d := x) ?_ (fun hx => ?_); subst x; rotate_left; try clear_value x) | (revert x; intro (x : Chip × _); refine Touch.cut (d := x.1) ?_ (fun hx => ?_); subst x; rotate_left; try clear_value x) | skip)
    | (with_reducible first | exact Touch.refl | assumption | apply Touch.when | apply Touch.step (Chip.fieldsWrite_touch ..) | apply Touch.step (Chip.forced_touch ..) | apply Touch.step (Chip.shutdownWrite_touch ..) | apply Touch.step (Chip.sleepRequest_touch ..))
    | decide +kernel
    | (with_reducible apply Touch.upd) <;> first | (intro p; cases p <;> dsimp only [Part.same] <;> first | exact Or.inl (by decide +kernel) | exact Or.inr rfl) | (with_reducible first | exact Touch.refl | assumption | apply Touch.when | apply Touch.step (Chip.fieldsWrite_touch ..) | apply Touch.step (Chip.forced_touch ..) | apply Touch.step (Chip.shutdownWrite_touch ..) | apply Touch.step (Chip.sleepRequest_touch ..)) | split
    | split
    | (intro _; intros)
    | (clear_value *; split)

theorem Chip.otpSensed_touch (c : Chip) (fu : Fuses) (op : Nat) : Touch 0x2 0x0 c (Chip.otpSensed c fu op).2 := by
  unfold Chip.otpSensed
  repeat' first
    | (with_reducible first | exact Touch.refl | assumption)
    | decide +kernel
    | (with_reducible apply Touch.upd) <;> first | (intro p; cases p <;> dsimp only [Part.same] <;> first | exact Or.inl (by decide +kernel) | exact Or.inr rfl) | (with_reducible first | exact Touch.refl | assumption) | split
    | split
    | (intro _; intros)
    | (clear_value *; split)

theorem Chip.wrOtp_touch (c : Chip) (fu : Fuses) (req : Req) (off : Nat) (w : Word) : Touch 0x4030a 0x200180000000000000000000004000000000000000000000000000662000004 c (Chip.wrOtp c fu req off w) := by
  unfold Chip.wrOtp
  repeat' first
    | (fail_if_no_progress extract_lets +onlyGivenNames x; first | (revert x; intro (x : Chip); refine Touch.cut (d := x) ?_ (fun hx => ?_); subst x; rotate_left; try clear_value x) | (revert x; intro (x : Chip × _); refine Touch.cut (d := x.1) ?_ (fun hx => ?_); subst x; rotate_left; try clear_value x) | (revert x; intro (x : _ × Chip); refine Touch.cut (d := x.2) ?_ (fun hx => ?_); subst x; rotate_left; try clear_value x) | (revert x; intro (x : _ × _ × Chip); refine Touch.cut (d := x.2.2) ?_ (fun hx => ?_); subst x; rotate_left; try clear_value x) | skip)
    | (with_reducible first | exact Touch.refl | assumption | apply Touch.step (Chip.auditStart_touch ..) | apply Touch.step (Chip.fieldsWrite_touch ..) | apply Touch.step (Chip.otpCmdWrite_touch ..) | apply Touch.step (Chip.otpSensed_touch ..))
    | decide +kernel
    | split
    | (intro _; intros)
    | (clear_value *; split)

theorem Chip.wrLcs_touch (c : Chip) (fu : Fuses) (req : Req) (off : Nat) (w : Word) (jtag : Bool) : Touch 0x1708 0x40200180000000000000000000000000000000000000000000000105402000004 c (Chip.wrLcs c fu req off w jtag) := by
  unfold Chip.wrLcs
  repeat' first
    | (with_reducible first | exact Touch.refl | assumption | apply Touch.wr | apply Touch.step (Chip.fieldsWrite_touch ..) | apply Touch.step (Chip.lcsCtrlWrite_touch ..))
    | decide +kernel
    | exact Or.inl (by decide +kernel)
    | exact fun _ _ _ => Or.inl (by decide +kernel)
    | exact covers_reg (by decide +kernel)
    | split
    | (intro _; intros)
    | (clear_value *; split)

theorem Chip.wrSng_touch (c : Chip) (req : Req) (off : Nat) (w : Word) : Touch 0x908 0x200180000000000000000000000000000000000000000000004080000000004 c (Chip.wrSng c req off w) := by
  unfold Chip.wrSng
  repeat' first
    | (fail_if_no_progress extract_lets +onlyGivenNames x; first | (revert x; intro (x : Chip); refine Touch.cut (d := x) ?_ (fun hx => ?_); subst x; rotate_left; try clear_value x) | (revert x; intro (x : Chip × _); refine Touch.cut (d := x.1) ?_ (fun hx => ?_); subst x; rotate_left; try clear_value x) | skip)
    | (with_reducible first | exact Touch.refl | assumption | apply Touch.put | apply Touch.when | apply Touch.step (Chip.fieldsWrite_touch ..) | apply Touch.step (Chip.quenchWrite_touch ..))
    | decide +kernel
    | split
    | (intro _; intros)
    | (clear_value *; split)

theorem Chip.wrWhl_touch (c : Chip) (req : Req) (off : Nat) (w : Word) : Touch 0x147110e 0x1200180000000000000000000004000000000003000003f80400000000000004 c (Chip.wrWhl c req off w) := by
  unfold Chip.wrWhl
  repeat' first
    | (fail_if_no_progress extract_lets +onlyGivenNames x; first | (revert x; intro (x : Chip); refine Touch.cut (d := x) ?_ (fun hx => ?_); subst x; rotate_left; try clear_value x) | (revert x; intro (x : Chip × _); refine Touch.cut (d := x.1) ?_ (fun hx => ?_); subst x; rotate_left; try clear_value x) | skip)
    | (with_reducible first | exact Touch.refl | assumption | apply Touch.step (Chip.fieldsWrite_touch ..) | apply Touch.step (Chip.lcancel_touch ..) | apply Touch.step (Chip.lfreeCmd_touch ..) | apply Touch.step (Chip.lres_touch ..) | apply Touch.step (Chip.schedule_touch ..))
    | decide +kernel
    | split
    | (intro _; intros)
    | (clear_value *; split)

theorem Chip.wrSkn_touch (c : Chip) (req : Req) (off : Nat) (w : Word) : Touch 0x2013e 0x2001800000000000000000000000000000000000138c0000000000000000004 c (Chip.wrSkn c req off w) := by
  unfold Chip.wrSkn
  repeat' first
    | (fail_if_no_progress extract_lets +onlyGivenNames x; first | (revert x; intro (x : Chip); refine Touch.cut (d := x) ?_ (fun hx => ?_); subst x; rotate_left; try clear_value x) | (revert x; intro (x : Chip × _); refine Touch.cut (d := x.1) ?_ (fun hx => ?_); subst x; rotate_left; try clear_value x) | skip)
    | (with_reducible first | exact Touch.refl | assumption | apply Touch.put | apply Touch.when | apply Touch.step (Chip.bridgeWrite_touch ..) | apply Touch.step (Chip.fieldsWrite_touch ..) | apply Touch.step (Chip.retrainRing_touch ..) | apply Touch.step (Chip.ringEnable_touch ..))
    | decide +kernel
    | split
    | (intro _; intros)
    | (clear_value *; split)

theorem Chip.wrPly_touch (c : Chip) (req : Req) (off : Nat) (w : Word) : Touch 0x101011c 0x200180000000000000000000000000300800010f60000000000000000050004 c (Chip.wrPly c req off w) := by
  unfold Chip.wrPly
  repeat' first
    | (fail_if_no_progress extract_lets +onlyGivenNames x; first | (revert x; intro (x : Chip); refine Touch.cut (d := x) ?_ (fun hx => ?_); subst x; rotate_left; try clear_value x) | (revert x; intro (x : Chip × _); refine Touch.cut (d := x.1) ?_ (fun hx => ?_); subst x; rotate_left; try clear_value x) | skip)
    | (with_reducible first | exact Touch.refl | assumption | apply Touch.put | apply Touch.when | apply Touch.step (Chip.fieldsWrite_touch ..) | apply Touch.step (Chip.handoverStart_touch ..) | apply Touch.step (Chip.linkTrain_touch ..) | apply Touch.step (Chip.sleepStart_touch ..) | apply Touch.step (Chip.startEmpty_touch ..))
    | decide +kernel
    | split
    | (intro _; intros)
    | (clear_value *; split)

theorem Chip.wrMbox_touch (c : Chip) (req : Req) (ns : Bool) (n off : Nat) (w : Word) : Touch 0x190c 0xe00180000000000000000000000000000010400000000000000000000000004 c (Chip.wrMbox c req ns n off w) := by
  unfold Chip.wrMbox
  repeat' first
    | (fail_if_no_progress extract_lets +onlyGivenNames x; first | (revert x; intro (x : Chip); refine Touch.cut (d := x) ?_ (fun hx => ?_); subst x; rotate_left; try clear_value x) | (revert x; intro (x : Chip × _); refine Touch.cut (d := x.1) ?_ (fun hx => ?_); subst x; rotate_left; try clear_value x) | skip)
    | (with_reducible first | exact Touch.refl | assumption | apply Touch.when | apply Touch.step (Chip.fieldsWrite_touch ..) | apply Touch.step (Chip.mbDataPut_touch ..) | apply Touch.step (Chip.mbForce_touch ..) | apply Touch.step (Chip.mbGo_touch ..) | apply Chip.mbPut_touch | apply Touch.step (Chip.mbRaiseFull_touch ..) | apply Touch.step (Chip.mbRelease_touch ..) | apply Touch.step (Chip.mbTouch_touch ..))
    | decide +kernel
    | split
    | (intro _; intros)
    | (clear_value *; split)

theorem Chip.wrMb_touch (c : Chip) (req : Req) (off : Nat) (w : Word) : Touch 0x190c 0xe00180000000000000000000000000000010400000000000000000000000004 c (Chip.wrMb c req off w).1 := by
  unfold Chip.wrMb
  repeat' first
    | (fail_if_no_progress extract_lets +onlyGivenNames x; first | (revert x; intro (x : Chip); refine Touch.cut (d := x) ?_ (fun hx => ?_); subst x; rotate_left; try clear_value x) | (revert x; intro (x : Chip × _); refine Touch.cut (d := x.1) ?_ (fun hx => ?_); subst x; rotate_left; try clear_value x) | skip)
    | (with_reducible first | exact Touch.refl | assumption | apply Touch.step (Chip.fieldsWrite_touch ..) | apply Touch.step (Chip.wrMbox_touch ..))
    | decide +kernel
    | split
    | (intro _; intros)
    | (clear_value *; split)

theorem Chip.wrBob_touch (c : Chip) (req : Req) (off : Nat) (w : Word) : Touch 0x1090c 0x2001800000000000000000000000820d9000000000000000000000000000004 c (Chip.wrBob c req off w) := by
  unfold Chip.wrBob
  repeat' first
    | (fail_if_no_progress extract_lets +onlyGivenNames x; first | (revert x; intro (x : Chip); refine Touch.cut (d := x) ?_ (fun hx => ?_); subst x; rotate_left; try clear_value x) | (revert x; intro (x : Chip × _); refine Touch.cut (d := x.1) ?_ (fun hx => ?_); subst x; rotate_left; try clear_value x) | skip)
    | (with_reducible first | exact Touch.refl | assumption | apply Touch.step (Chip.cacheDrop_touch ..) | apply Touch.step (Chip.cplHead_touch ..) | apply Touch.step (Chip.cqTail_touch ..) | apply Touch.step (Chip.fieldsWrite_touch ..) | apply Touch.step (Chip.warpClear_touch ..))
    | decide +kernel
    | split
    | (intro _; intros)
    | (clear_value *; split)

theorem Chip.wrCry_touch (c : Chip) (req : Req) (off : Nat) (w : Word) : Touch 0x40108 0x200180000000000000000000043c00000000000000000000000000000050004 c (Chip.wrCry c req off w) := by
  unfold Chip.wrCry
  repeat' first
    | (with_reducible first | exact Touch.refl | assumption | apply Touch.when | apply Touch.step (Chip.cryTail_touch ..) | apply Touch.step (Chip.entCalibrate_touch ..) | apply Touch.step (Chip.fieldsWrite_touch ..) | apply Touch.step (Chip.laneAsk_touch ..))
    | decide +kernel
    | split
    | (intro _; intros)
    | (clear_value *; split)

theorem Chip.grantWrite_touch (c : Chip) (base : Nat) (w : Word) : Touch 0x40100 0x4000000000000000000000078000000000000000000000000000000000000000 c (Chip.grantWrite c base w) := by
  unfold Chip.grantWrite
  extract_lets off gone
  have ho : covers 0x4000000000000000000000078000000000000000000000000000000000000000 off := by
    subst off
    split <;> exact covers_reg (by decide +kernel)
  exact Touch.wr ho (Touch.each (fun d i h => Touch.step (Chip.cxGrant_touch ..) (by decide +kernel) (by decide +kernel) h) Touch.refl)

theorem Chip.wrDgt_touch (c : Chip) (req : Req) (off : Nat) (w : Word) : Touch 0x184012c 0x4200180000000000000003078c00000000000003000000000000000000050004 c (Chip.wrDgt c req off w).1 := by
  unfold Chip.wrDgt
  repeat' first
    | (fail_if_no_progress extract_lets +onlyGivenNames x; first | (revert x; intro (x : Chip); refine Touch.cut (d := x) ?_ (fun hx => ?_); subst x; rotate_left; try clear_value x) | (revert x; intro (x : Chip × _); refine Touch.cut (d := x.1) ?_ (fun hx => ?_); subst x; rotate_left; try clear_value x) | skip)
    | (with_reducible first | exact Touch.refl | assumption | apply Touch.puti | apply Touch.step (Chip.cxFeed_touch ..) | apply Touch.step (Chip.cxFinal_touch ..) | apply Touch.step (Chip.cxFree_touch ..) | apply Touch.step (Chip.cxOpen_touch ..) | apply Touch.step (Chip.fieldsWrite_touch ..) | apply Touch.step (Chip.grantWrite_touch ..) | apply Touch.step (Chip.log_touch ..) | apply Touch.step (Chip.twSealNow_touch ..))
    | decide +kernel
    | split
    | (intro _; intros)
    | (clear_value *; split)

theorem Chip.wrTly_touch (c : Chip) (req : Req) (off : Nat) (w : Word) : Touch 0x4010a 0x200180000000001d00800000004000000000000000000000000000000050004 c (Chip.wrTly c req off w) := by
  unfold Chip.wrTly
  repeat' first
    | (fail_if_no_progress extract_lets +onlyGivenNames x; first | (revert x; intro (x : Chip); refine Touch.cut (d := x) ?_ (fun hx => ?_); subst x; rotate_left; try clear_value x) | (revert x; intro (x : Chip × _); refine Touch.cut (d := x.1) ?_ (fun hx => ?_); subst x; rotate_left; try clear_value x) | skip)
    | (with_reducible first | exact Touch.refl | assumption | apply Touch.step (Chip.fieldsWrite_touch ..) | apply Touch.step (Chip.log_touch ..) | apply Touch.step (Chip.tlyAbortCmd_touch ..) | apply Touch.step (Chip.tlyAdd_touch ..) | apply Touch.step (Chip.tlyLast_touch ..) | apply Touch.step (Chip.tlyOpen_touch ..) | apply Touch.step (Chip.tlyRelease_touch ..))
    | decide +kernel
    | split
    | (intro _; intros)
    | (clear_value *; split)

theorem Chip.dmaCtrl_touch (c : Chip) (req : Req) (n : Nat) (w : Word) : Touch 0x8090c 0x1000018000e038038000000000000000000000000000000000000000000000004 c (Chip.dmaCtrl c req n w) := by
  unfold Chip.dmaCtrl
  repeat' first
    | (fail_if_no_progress extract_lets +onlyGivenNames x; first | (revert x; intro (x : Chip); refine Touch.cut (d := x) ?_ (fun hx => ?_); subst x; rotate_left; try clear_value x) | (revert x; intro (x : Chip × _); refine Touch.cut (d := x.1) ?_ (fun hx => ?_); subst x; rotate_left; try clear_value x) | skip)
    | (with_reducible first | exact Touch.refl | assumption | apply Touch.when | apply Touch.step (Chip.dmAbort_touch ..) | apply Touch.step (Chip.dmClear_touch ..) | apply Touch.step (Chip.dmPause_touch ..))
    | decide +kernel
    | split
    | (intro _; intros)
    | (clear_value *; split)

theorem Chip.wrDma_touch (c : Chip) (req : Req) (off : Nat) (w : Word) : Touch 0x8090c 0x1020018000e03ec38000000000000000000000000000000000000000000000004 c (Chip.wrDma c req off w) := by
  unfold Chip.wrDma
  repeat' first
    | (fail_if_no_progress extract_lets +onlyGivenNames x; first | (revert x; intro (x : Chip); refine Touch.cut (d := x) ?_ (fun hx => ?_); subst x; rotate_left; try clear_value x) | (revert x; intro (x : Chip × _); refine Touch.cut (d := x.1) ?_ (fun hx => ?_); subst x; rotate_left; try clear_value x) | skip)
    | (with_reducible first | exact Touch.refl | assumption | apply Touch.wr | apply Touch.step (Chip.dmEnable_touch ..) | apply Touch.step (Chip.dmRelease_touch ..) | apply Touch.step (Chip.dmSwreq_touch ..) | apply Touch.step (Chip.dmTail_touch ..) | apply Touch.step (Chip.dmaCtrl_touch ..) | apply Touch.step (Chip.fieldsWrite_touch ..))
    | decide +kernel
    | exact Or.inl (by decide +kernel)
    | exact fun _ _ _ => Or.inl (by decide +kernel)
    | exact covers_reg (by decide +kernel)
    | split
    | (intro _; intros)
    | (clear_value *; split)

theorem Chip.dbgCtrl_touch (c : Chip) (w : Word) : Touch 0x8190c 0x300001820300381b8000000000000000000000000000000000000000000000004 c (Chip.dbgCtrl c w) := by
  unfold Chip.dbgCtrl
  repeat' first
    | (fail_if_no_progress extract_lets +onlyGivenNames x; first | (revert x; intro (x : Chip); refine Touch.cut (d := x) ?_ (fun hx => ?_); subst x; rotate_left; try clear_value x) | (revert x; intro (x : Chip × _); refine Touch.cut (d := x.1) ?_ (fun hx => ?_); subst x; rotate_left; try clear_value x) | skip)
    | (with_reducible first | exact Touch.refl | assumption | apply Touch.when | apply Touch.wr | apply Touch.step (Chip.breakOff_touch ..) | apply Touch.step (Chip.counterOff_touch ..) | apply Touch.step (Chip.traceOff_touch ..))
    | decide +kernel
    | exact covers_reg (by decide +kernel)
    | split
    | (intro _; intros)
    | (clear_value *; split)

theorem Chip.wrDbg_touch (c : Chip) (req : Req) (off : Nat) (w : Word) : Touch 0x8190c 0x302001c22300381b8000000000000000000000000000000000000000000000004 c (Chip.wrDbg c req off w) := by
  unfold Chip.wrDbg
  repeat' first
    | (fail_if_no_progress extract_lets +onlyGivenNames x; first | (revert x; intro (x : Chip); refine Touch.cut (d := x) ?_ (fun hx => ?_); subst x; rotate_left; try clear_value x) | (revert x; intro (x : Chip × _); refine Touch.cut (d := x.1) ?_ (fun hx => ?_); subst x; rotate_left; try clear_value x) | skip)
    | (with_reducible first | exact Touch.refl | assumption | apply Touch.step (Chip.coreDbgWrite_touch ..) | apply Touch.step (Chip.dbgCtrl_touch ..) | apply Touch.step (Chip.fieldsWrite_touch ..) | apply Touch.step (Chip.noilCtrl_touch ..) | apply Touch.step (Chip.spnTrace_touch ..) | apply Touch.step (Chip.traceCtrl_touch ..))
    | decide +kernel
    | (with_reducible apply Touch.upd) <;> first | (intro p; cases p <;> dsimp only [Part.same] <;> first | exact Or.inl (by decide +kernel) | exact Or.inr rfl) | (with_reducible first | exact Touch.refl | assumption | apply Touch.step (Chip.coreDbgWrite_touch ..) | apply Touch.step (Chip.dbgCtrl_touch ..) | apply Touch.step (Chip.fieldsWrite_touch ..) | apply Touch.step (Chip.noilCtrl_touch ..) | apply Touch.step (Chip.spnTrace_touch ..) | apply Touch.step (Chip.traceCtrl_touch ..)) | split
    | split
    | (intro _; intros)
    | (clear_value *; split)

theorem Chip.wrCor_touch (c : Chip) (req : Req) (off : Nat) (w : Word) : Touch 0x7effbfe 0x8424c182200020039d0080001830400008100000000000000000000c402050034 c (Chip.wrCor c req off w) := by
  unfold Chip.wrCor
  repeat' first
    | (fail_if_no_progress extract_lets +onlyGivenNames x; first | (revert x; intro (x : Chip); refine Touch.cut (d := x) ?_ (fun hx => ?_); subst x; rotate_left; try clear_value x) | (revert x; intro (x : Chip × _); refine Touch.cut (d := x.1) ?_ (fun hx => ?_); subst x; rotate_left; try clear_value x) | skip)
    | (with_reducible first | exact Touch.refl | assumption | apply Touch.when | apply Touch.step (Chip.codeWrite_touch ..) | apply Touch.step (Chip.coreRestart_touch ..) | apply Touch.step (Chip.fenceCore_touch ..) | apply Touch.step (Chip.fieldsWrite_touch ..) | apply Touch.step (Chip.wdtWrite_touch ..))
    | decide +kernel
    | split
    | (intro _; intros)
    | (clear_value *; split)

theorem Chip.writeReg_touch (c : Chip) (fu : Fuses) (req : Req) (off : Nat) (w : Word) (jtag : Bool) : Touch 0x7effffe 0xf5e4c1c223e03edb9d00803078f47c823d9810413f738c3f8040418d66205c034 c (Chip.writeReg c fu req off w jtag).1 := by
  unfold Chip.writeReg
  repeat' first
    | (with_reducible first | exact Touch.refl | assumption | apply Touch.step (Chip.wrBob_touch ..) | apply Touch.step (Chip.wrCor_touch ..) | apply Touch.step (Chip.wrCry_touch ..) | apply Touch.step (Chip.wrDbg_touch ..) | apply Touch.step (Chip.wrDgt_touch ..) | apply Touch.step (Chip.wrDma_touch ..) | apply Touch.step (Chip.wrGen_touch ..) | apply Touch.step (Chip.wrLcs_touch ..) | apply Touch.step (Chip.wrMb_touch ..) | apply Touch.step (Chip.wrOtp_touch ..) | apply Touch.step (Chip.wrPly_touch ..) | apply Touch.step (Chip.wrPwr_touch ..) | apply Touch.step (Chip.wrSkn_touch ..) | apply Touch.step (Chip.wrSng_touch ..) | apply Touch.step (Chip.wrTly_touch ..) | apply Touch.step (Chip.wrWhl_touch ..))
    | decide +kernel
    | split
    | (intro _; intros)
    | (clear_value *; split)

theorem Chip.fabricWrite_touch (c : Chip) (fu : Fuses) (req : Req) (off : Nat) (w : Word) : Touch 0x7effffe 0xf5e4c1c223e03edb9d00803078f47c823d9810413f738c3f8040418d66225c034 c (Chip.fabricWrite c fu req off w) := by
  unfold Chip.fabricWrite
  repeat' first
    | (fail_if_no_progress extract_lets +onlyGivenNames x; first | (revert x; intro (x : Chip); refine Touch.cut (d := x) ?_ (fun hx => ?_); subst x; rotate_left; try clear_value x) | (revert x; intro (x : Chip × _); refine Touch.cut (d := x.1) ?_ (fun hx => ?_); subst x; rotate_left; try clear_value x) | skip)
    | (with_reducible first | exact Touch.refl | assumption | apply Chip.guarded_touch | apply Touch.step (Chip.refuse_touch ..) | apply Touch.step (Chip.respond_touch ..) | apply Touch.step (Chip.writeReg_touch ..))
    | decide +kernel
    | split
    | (intro _; intros)
    | (clear_value *; split)

end Sys2Proof.Machine
end

