-- ==== Sys2Proof/Laws/TouchCalls.lean ====
section
/-! SUPPORT. What each function of Machine/Calls.lean can change: the two masks of `Touch` (Laws/Touch.lean), parts and banks of registers. -/

set_option linter.unreachableTactic false
set_option linter.unusedTactic false
set_option linter.tactic.unusedName false
set_option linter.unnecessarySeqFocus false
set_option linter.unusedVariables false
set_option Elab.async false

namespace Sys2Proof.Machine

theorem Chip.grantTo_touch (c : Chip) (kind i core : Nat) : Touch 0x40100 0x4000080020002080000000078020000000000000000000000000000000000000 c (Chip.grantTo c kind i core) := by
  unfold Chip.grantTo
  repeat' first
    | (fail_if_no_progress extract_lets +onlyGivenNames x; first | (revert x; intro (x : Chip); refine Touch.cut (d := x) ?_ (fun hx => ?_); subst x; rotate_left; try clear_value x) | (revert x; intro (x : Chip × _); refine Touch.cut (d := x.1) ?_ (fun hx => ?_); subst x; rotate_left; try clear_value x) | skip)
    | (with_reducible first | exact Touch.refl | assumption | apply Touch.put | apply Touch.puti | apply Touch.step (Chip.cxGrant_touch ..) | apply Touch.step (Chip.trSet_touch ..) | apply Touch.step (Chip.traceCount_touch ..))
    | decide +kernel
    | split
    | (intro _; intros)
    | (clear_value *; split)

theorem Chip.takeBack_touch (c : Chip) (kind i : Nat) : Touch 0xc090c 0x160001800200220b8000000078300000000000000000000000000000000000004 c (Chip.takeBack c kind i) := by
  unfold Chip.takeBack
  repeat' first
    | (with_reducible first | exact Touch.refl | assumption | apply Touch.step (Chip.chTake_touch ..) | apply Touch.step (Chip.cxGrant_touch ..) | apply Touch.step (Chip.dmReturn_touch ..) | apply Touch.step (Chip.traceTake_touch ..))
    | decide +kernel
    | split
    | (intro _; intros)
    | (clear_value *; split)

end Sys2Proof.Machine
end

