-- ==== Sys2Proof/Laws/TouchRegRead.lean ====
section
/-! SUPPORT. What each function of Machine/RegRead.lean can change: the two masks of `Touch` (Laws/Touch.lean), parts and banks of registers. -/

set_option linter.unreachableTactic false
set_option linter.unusedTactic false
set_option linter.tactic.unusedName false
set_option linter.unnecessarySeqFocus false
set_option linter.unusedVariables false
set_option Elab.async false

namespace Sys2Proof.Machine

theorem Chip.timeRead_touch (c : Chip) : Touch 0x0 0x80000000000000 c (Chip.timeRead c).1 := by
  unfold Chip.timeRead
  repeat' first
    | (with_reducible first | exact Touch.refl | assumption | apply Touch.wr)
    | decide +kernel
    | exact covers_reg (by decide +kernel)
    | split
    | (intro _; intros)
    | (clear_value *; split)

theorem Chip.readCopy_touch (c : Chip) (req : Req) (off : Nat) : Touch 0x841108 0x1180000000000000800000800000000010400000000000000000000000004 c (Chip.readCopy c req off).1 := by
  unfold Chip.readCopy
  repeat' first
    | (with_reducible first | exact Touch.refl | assumption | apply Touch.step (Chip.countRead_touch ..) | apply Touch.step (Chip.cxRead_touch ..) | apply Touch.step (Chip.mbLockTake_touch ..) | apply Touch.step (Chip.sampleRead_touch ..) | apply Touch.step (Chip.tlyRead_touch ..) | apply Touch.step (Chip.traceRead_touch ..) | apply Touch.step (Chip.twHeadRead_touch ..))
    | decide +kernel
    | split
    | (intro _; intros)
    | (clear_value *; split)

theorem Chip.mbLook_touch (c : Chip) (req : Req) (off : Nat) : Touch 0x1000 0x0 c (Chip.mbLook c req off) := by
  unfold Chip.mbLook
  repeat' first
    | (with_reducible first | exact Touch.refl | assumption | apply Touch.step (Chip.mbTouch_touch ..))
    | decide +kernel
    | split
    | (intro _; intros)
    | (clear_value *; split)

theorem Chip.readReg_touch (c : Chip) (req : Req) (off : Nat) : Touch 0x841108 0x1180400000000000800000800000000010400000000000080000000000004 c (Chip.readReg c req off).1 := by
  unfold Chip.readReg
  repeat' first
    | (with_reducible first | exact Touch.refl | assumption | apply Touch.step (Chip.aevRead_touch ..) | apply Touch.step (Chip.evtRead_touch ..) | apply Touch.step (Chip.mbLook_touch ..) | apply Touch.step (Chip.noilRead_touch ..) | apply Touch.step (Chip.readCopy_touch ..) | apply Touch.step (Chip.timeRead_touch ..))
    | decide +kernel
    | split
    | (intro _; intros)
    | (clear_value *; split)

end Sys2Proof.Machine
end

