-- ==== Sys2Proof/Laws/TouchDmaOps.lean ====
section
/-! SUPPORT. What each function of Machine/DmaOps.lean can change: the two masks of `Touch` (Laws/Touch.lean), parts and banks of registers. -/

set_option linter.unreachableTactic false
set_option linter.unusedTactic false
set_option linter.tactic.unusedName false
set_option linter.unnecessarySeqFocus false
set_option linter.unusedVariables false
set_option Elab.async false

namespace Sys2Proof.Machine

theorem Chip.readBad_touch (c : Chip) (req a cause : Nat) : Touch 0x108 0x180000000000000000000800000000000000000000000000000000000004 c (Chip.readBad c req a cause) := by
  unfold Chip.readBad
  repeat' first
    | (with_reducible first | exact Touch.refl | assumption | apply Touch.step (Chip.cxIntrude_touch ..))
    | decide +kernel
    | split
    | (intro _; intros)
    | (clear_value *; split)

theorem Chip.portRead_touch (c : Chip) (req : Req) (a : Nat) : Touch 0x24 0x0 c (Chip.portRead c req a) := by
  unfold Chip.portRead
  repeat' first
    | (fail_if_no_progress extract_lets +onlyGivenNames x; first | (revert x; intro (x : Chip); refine Touch.cut (d := x) ?_ (fun hx => ?_); subst x; rotate_left; try clear_value x) | (revert x; intro (x : Chip × _); refine Touch.cut (d := x.1) ?_ (fun hx => ?_); subst x; rotate_left; try clear_value x) | skip)
    | (with_reducible first | exact Touch.refl | assumption | apply Touch.step (Chip.portReq_touch ..))
    | decide +kernel
    | split
    | (intro _; intros)
    | (clear_value *; split)

theorem Chip.busFetch_touch (c : Chip) (req : Req) (a : Nat) (data : List Byte) : Touch 0x84112c 0x1180400000000000800000800000000010400000000000080000000000004 c (Chip.busFetch c req a data).1 := by
  unfold Chip.busFetch
  repeat' first
    | (fail_if_no_progress extract_lets +onlyGivenNames x; first | (revert x; intro (x : Chip); refine Touch.cut (d := x) ?_ (fun hx => ?_); subst x; rotate_left; try clear_value x) | (revert x; intro (x : Chip × _); refine Touch.cut (d := x.1) ?_ (fun hx => ?_); subst x; rotate_left; try clear_value x) | skip)
    | (with_reducible first | exact Touch.refl | assumption | apply Touch.step (Chip.portRead_touch ..) | apply Touch.step (Chip.readReg_touch ..))
    | decide +kernel
    | split
    | (intro _; intros)
    | (clear_value *; split)

theorem Chip.busPort_touch (c : Chip) (fu : Fuses) (req : Req) (feeder off : Nat) (bs : List Byte) : Touch 0x7effffe 0xf5e4c1c223e03edb9d00803078f47c823d9810413f738c3f8040418d66205c034 c (Chip.busPort c fu req feeder off bs).1 := by
  unfold Chip.busPort
  repeat' first
    | (fail_if_no_progress extract_lets +onlyGivenNames x; first | (revert x; intro (x : Chip); refine Touch.cut (d := x) ?_ (fun hx => ?_); subst x; rotate_left; try clear_value x) | (revert x; intro (x : Chip × _); refine Touch.cut (d := x.1) ?_ (fun hx => ?_); subst x; rotate_left; try clear_value x) | skip)
    | (with_reducible first | exact Touch.refl | assumption | apply Touch.step (Chip.cxFeed_touch ..) | apply Touch.step (Chip.writeReg_touch ..))
    | decide +kernel
    | split
    | (intro _; intros)
    | (clear_value *; split)

theorem Chip.busStore_touch (c : Chip) (fu : Fuses) (req : Req) (feeder a : Nat) (bs : List Byte) : Touch 0x7effffe 0xf5e4c1c223e03edb9d00803078f47c823d9810413f738c3f8040418d66205c034 c (Chip.busStore c fu req feeder a bs).1 := by
  unfold Chip.busStore
  repeat' first
    | (fail_if_no_progress extract_lets +onlyGivenNames x; first | (revert x; intro (x : Chip); refine Touch.cut (d := x) ?_ (fun hx => ?_); subst x; rotate_left; try clear_value x) | (revert x; intro (x : Chip × _); refine Touch.cut (d := x.1) ?_ (fun hx => ?_); subst x; rotate_left; try clear_value x) | skip)
    | (with_reducible first | exact Touch.refl | assumption | apply Touch.step (Chip.busPort_touch ..) | apply Touch.step (Chip.portReq_touch ..) | apply Touch.step (Chip.rovWr_touch ..) | apply Touch.step (Chip.spnWr_touch ..))
    | decide +kernel
    | split
    | (intro _; intros)
    | (clear_value *; split)

theorem Chip.dmBuf_touch (c : Chip) (n : Nat) (buf : List (Nat × List Byte)) : Touch 0x80100 0x20000000000000000000000000000000000000000000000000000 c (Chip.dmBuf c n buf) := by
  unfold Chip.dmBuf
  repeat' first
    | (with_reducible first | exact Touch.refl | assumption | apply Touch.puti | apply Touch.step (Chip.dmMod_touch ..))
    | decide +kernel
    | split
    | (intro _; intros)
    | (clear_value *; split)

theorem Chip.dmWrites_touch (c : Chip) (fu : Fuses) (n : Nat) (buf : List (Nat × List Byte)) : Touch 0x7effffe 0xf5e4c1c223e03edb9d00803078f47c823d9810413f738c3f8040418d66205c034 c (Chip.dmWrites c fu n buf).1 := by
  induction buf generalizing c with
  | nil => unfold Chip.dmWrites; (try split) <;> exact Touch.refl
  | cons e rest ih =>
  unfold Chip.dmWrites
  repeat' first
    | (fail_if_no_progress extract_lets +onlyGivenNames x; first | (revert x; intro (x : Chip); refine Touch.cut (d := x) ?_ (fun hx => ?_); subst x; rotate_left; try clear_value x) | (revert x; intro (x : Chip × _); refine Touch.cut (d := x.1) ?_ (fun hx => ?_); subst x; rotate_left; try clear_value x) | skip)
    | (with_reducible first | exact Touch.refl | assumption | apply Touch.step (Chip.busStore_touch ..) | apply Touch.step (Chip.count_touch ..) | apply Touch.step (ih ..))
    | decide +kernel
    | split
    | (intro _; intros)
    | (clear_value *; split)

theorem Chip.dmDrain_touch (c : Chip) (fu : Fuses) (n : Nat) : Touch 0x7fffffe 0xf5e4c1c223e03edb9d00803078f47c823d9810413f738c3f8040418d66205c034 c (Chip.dmDrain c fu n).1 := by
  unfold Chip.dmDrain
  repeat' first
    | (fail_if_no_progress extract_lets +onlyGivenNames x; first | (revert x; intro (x : Chip); refine Touch.cut (d := x) ?_ (fun hx => ?_); subst x; rotate_left; try clear_value x) | (revert x; intro (x : Chip × _); refine Touch.cut (d := x.1) ?_ (fun hx => ?_); subst x; rotate_left; try clear_value x) | skip)
    | (with_reducible first | exact Touch.refl | assumption | apply Touch.step (Chip.busError_touch ..) | apply Touch.step (Chip.dmBuf_touch ..) | apply Touch.step (Chip.dmMod_touch ..) | apply Touch.step (Chip.dmWrites_touch ..))
    | decide +kernel
    | split
    | (intro _; intros)
    | (clear_value *; split)

theorem Chip.dmCur_touch (c : Chip) (n src dst : Nat) : Touch 0x100 0x3c0000000000000000000000000000000000000000000000000000 c (Chip.dmCur c n src dst) := by
  unfold Chip.dmCur
  repeat' first
    | (with_reducible first | exact Touch.refl | assumption | apply Touch.put64i)
    | decide +kernel
    | split
    | (intro _; intros)
    | (clear_value *; split)

theorem Chip.dmAt_touch (c : Chip) (n : Nat) (d : DmaDesc) (pos off : Nat) : Touch 0x80100 0x1fc0000000000000000000000000000000000000000000000000000 c (Chip.dmAt c n d pos off) := by
  unfold Chip.dmAt
  repeat' first
    | (fail_if_no_progress extract_lets +onlyGivenNames x; first | (revert x; intro (x : Chip); refine Touch.cut (d := x) ?_ (fun hx => ?_); subst x; rotate_left; try clear_value x) | (revert x; intro (x : Chip × _); refine Touch.cut (d := x.1) ?_ (fun hx => ?_); subst x; rotate_left; try clear_value x) | skip)
    | (with_reducible first | exact Touch.refl | assumption | apply Touch.puti | apply Touch.step (Chip.count_touch ..) | apply Touch.step (Chip.dmCur_touch ..) | apply Touch.step (Chip.dmFetch_touch ..))
    | decide +kernel
    | split
    | (intro _; intros)
    | (clear_value *; split)

theorem Chip.dmStart_touch (c : Chip) (n : Nat) (d : DmaDesc) : Touch 0x80100 0x1fc0000000000000000000000000000000000000000000000000000 c (Chip.dmStart c n d) := by
  unfold Chip.dmStart
  repeat' first
    | (fail_if_no_progress extract_lets +onlyGivenNames x; first | (revert x; intro (x : Chip); refine Touch.cut (d := x) ?_ (fun hx => ?_); subst x; rotate_left; try clear_value x) | (revert x; intro (x : Chip × _); refine Touch.cut (d := x.1) ?_ (fun hx => ?_); subst x; rotate_left; try clear_value x) | skip)
    | (with_reducible first | exact Touch.refl | assumption | apply Touch.puti | apply Touch.step (Chip.dmAt_touch ..) | apply Touch.step (Chip.dmCur_touch ..) | apply Touch.step (Chip.dmMod_touch ..))
    | decide +kernel
    | split
    | (intro _; intros)
    | (clear_value *; split)

theorem Chip.dmStep1_touch (c : Chip) (n : Nat) (d : DmaDesc) (data : List Byte) : Touch 0x8c112c 0x1180401fe0000000800000800000000010400000000000080000000000004 c (c.dmStep1 n d data).chip := by
  unfold Chip.dmStep1
  extract_lets left src dst cause r e
  have hr : Touch 0x8c112c 0x1180401fe0000000800000800000000010400000000000080000000000004 c r.1 := by
    subst r
    simp only [apply_ite Prod.fst]
    exact Touch.ite Touch.refl (Touch.step (Chip.busFetch_touch ..) (by decide +kernel) (by decide +kernel) Touch.refl)
  clear_value r
  split
  · exact Touch.step (Chip.readBad_touch ..) (by decide +kernel) (by decide +kernel) Touch.refl
  · exact Touch.step (Chip.dmCur_touch ..) (by decide +kernel) (by decide +kernel) (Touch.puti (by decide +kernel) (Touch.step (Chip.dmBuf_touch ..) (by decide +kernel) (by decide +kernel) hr))

theorem Chip.dmStep2_touch (c : Chip) (n : Nat) (d : DmaDesc) (data : List Byte) : Touch 0x8c112c 0x1180401fe0000000800000800000000010400000000000080000000000004 c (c.dmStep2 n d data).chip := by
  unfold Chip.dmStep2
  dsimp only
  repeat' first
    | exact Touch.refl
    | (with_reducible first | apply Touch.step (Chip.readBad_touch ..) | apply Touch.step (Chip.dmAt_touch ..) | apply Touch.step (Chip.dmBuf_touch ..) | apply Touch.step (Chip.busFetch_touch ..) | apply Touch.step (Chip.count_touch ..))
    | decide +kernel
    | split

theorem Chip.dmLoad_touch (c : Chip) (n : Nat) (d : DmaDesc) (words : Nat) (data : List Byte) : Touch 0x8c112c 0x1180401fe0000000800000800000000010400000000000080000000000004 c (c.dmLoad n d words data).chip := by
  induction words generalizing c data with
  | zero => exact Touch.refl
  | succ k ih =>
    rw [Chip.dmLoad]
    obtain ⟨r, e⟩ : ∃ r, r = (if d.indexed then c.dmStep2 n d data else c.dmStep1 n d data) := ⟨_, rfl⟩
    have hr : Touch 0x8c112c 0x1180401fe0000000800000800000000010400000000000080000000000004 c r.chip := by
      subst e
      split
      · exact Chip.dmStep2_touch ..
      · exact Chip.dmStep1_touch ..
    simp only [← e]
    split
    · exact hr
    · exact Touch.step (ih ..) (by decide +kernel) (by decide +kernel) hr

theorem Chip.dmBurst_touch (c : Chip) (fu : Fuses) (n : Nat) (d : DmaDesc) (words : Nat) (data : List Byte) : Touch 0x7fffffe 0xf5e4d1c263fffedb9d00803078f47c823d9810413f738c3f8048418d66205c034 c (Chip.dmBurst c fu n d words data).1 := by
  unfold Chip.dmBurst
  extract_lets p r
  have hp : Touch 0x7fffffe 0xf5e4d1c263fffedb9d00803078f47c823d9810413f738c3f8048418d66205c034 c p.1 := Touch.step (Chip.dmDrain_touch ..) (by decide +kernel) (by decide +kernel) Touch.refl
  have hr : Touch 0x7fffffe 0xf5e4d1c263fffedb9d00803078f47c823d9810413f738c3f8048418d66205c034 c r.chip := Touch.step (Chip.dmLoad_touch ..) (by decide +kernel) (by decide +kernel) hp
  clear_value r p
  split
  · exact hp
  · split
    · exact Touch.step (Chip.busError_touch ..) (by decide +kernel) (by decide +kernel) hr
    · exact Touch.step (Chip.dmDrain_touch ..) (by decide +kernel) (by decide +kernel) hr

theorem Chip.dmRun_touch (c : Chip) (fu : Fuses) (n st : Nat) (d : DmaDesc) (fuel : Nat) (data : List Byte) : Touch 0x7fffffe 0xf5e4d1c263fffedb9d00803078f47c823d9810413f738c3f8048418d66205c034 c (Chip.dmRun c fu n st d fuel data).1 := by
  induction fuel generalizing c data with
  | zero => unfold Chip.dmRun; (try split) <;> exact Touch.refl
  | succ k ih =>
  unfold Chip.dmRun
  repeat' first
    | (fail_if_no_progress extract_lets +onlyGivenNames x; first | (revert x; intro (x : Chip); refine Touch.cut (d := x) ?_ (fun hx => ?_); subst x; rotate_left; try clear_value x) | (revert x; intro (x : Chip × _); refine Touch.cut (d := x.1) ?_ (fun hx => ?_); subst x; rotate_left; try clear_value x) | skip)
    | (with_reducible first | exact Touch.refl | assumption | apply Touch.step (Chip.dmBurst_touch ..) | apply Touch.step (ih ..))
    | decide +kernel
    | split
    | (intro _; intros)
    | (clear_value *; split)

theorem Chip.dmMoved_touch (c : Chip) (fu : Fuses) (n : Nat) (d : DmaDesc) (fuel bytes : Nat) (data : List Byte) : Touch 0x7fffffe 0xf5e4d1c263fffedb9d00803078f47c823d9810413f738c3f8048418d66205c034 c (Chip.dmMoved c fu n d fuel bytes data).1 := by
  induction fuel generalizing c bytes data with
  | zero => unfold Chip.dmMoved; (try split) <;> exact Touch.refl
  | succ k ih =>
  unfold Chip.dmMoved
  repeat' first
    | (fail_if_no_progress extract_lets +onlyGivenNames x; first | (revert x; intro (x : Chip); refine Touch.cut (d := x) ?_ (fun hx => ?_); subst x; rotate_left; try clear_value x) | (revert x; intro (x : Chip × _); refine Touch.cut (d := x.1) ?_ (fun hx => ?_); subst x; rotate_left; try clear_value x) | skip)
    | (with_reducible first | exact Touch.refl | assumption | apply Touch.step (Chip.dmBurst_touch ..) | apply Touch.step (ih ..))
    | decide +kernel
    | split
    | (intro _; intros)
    | (clear_value *; split)

theorem Chip.dmProgress_touch (c : Chip) (fu : Fuses) (m : DmaMove) : Touch 0x7fffffe 0xf5e4d1c263fffedb9d00803078f47c823d9810413f738c3f8048418d66205c034 c (Chip.dmProgress c fu m) := by
  unfold Chip.dmProgress
  split
  · exact Touch.refl
  · split
    · exact Touch.refl
    · extract_lets r q
      have hr : Touch 0x7fffffe 0xf5e4d1c263fffedb9d00803078f47c823d9810413f738c3f8048418d66205c034 c r.1 := Touch.step (Chip.dmMoved_touch ..) (by decide +kernel) (by decide +kernel) Touch.refl
      have hq : Touch 0x7fffffe 0xf5e4d1c263fffedb9d00803078f47c823d9810413f738c3f8048418d66205c034 c q.chip := Touch.step (Chip.dmLoad_touch ..) (by decide +kernel) (by decide +kernel) hr
      clear_value q r
      split
      · split
        · exact Touch.step (Chip.busError_touch ..) (by decide +kernel) (by decide +kernel) hq
        · exact hq
      · exact hr

theorem Chip.dmTake_touch (c : Chip) (n : Nat) (d : DmaDesc) : Touch 0x8090c 0x180001fe8038000000000000000000000000000000000000000000000004 c (Chip.dmTake c n d) := by
  unfold Chip.dmTake
  repeat' first
    | (fail_if_no_progress extract_lets +onlyGivenNames x; first | (revert x; intro (x : Chip); refine Touch.cut (d := x) ?_ (fun hx => ?_); subst x; rotate_left; try clear_value x) | (revert x; intro (x : Chip × _); refine Touch.cut (d := x.1) ?_ (fun hx => ?_); subst x; rotate_left; try clear_value x) | skip)
    | (with_reducible first | exact Touch.refl | assumption | apply Touch.step (Chip.dmBack_touch ..) | apply Touch.step (Chip.dmGo_touch ..) | apply Touch.step (Chip.dmIrq_touch ..) | apply Touch.step (Chip.dmNext_touch ..) | apply Touch.step (Chip.dmStart_touch ..) | apply Touch.step (Chip.log_touch ..) | apply Touch.step (Chip.trace_touch ..))
    | decide +kernel
    | split
    | (intro _; intros)
    | (clear_value *; split)

theorem Chip.dmSkip_touch (c : Chip) (n fuel : Nat) : Touch 0x8090c 0x180001fe8038000000000000000000000000000000000000000000000004 c (Chip.dmSkip c n fuel) := by
  induction fuel generalizing n c with
  | zero => unfold Chip.dmSkip; (try split) <;> exact Touch.refl
  | succ k ih =>
  unfold Chip.dmSkip
  repeat' first
    | (fail_if_no_progress extract_lets +onlyGivenNames x; first | (revert x; intro (x : Chip); refine Touch.cut (d := x) ?_ (fun hx => ?_); subst x; rotate_left; try clear_value x) | (revert x; intro (x : Chip × _); refine Touch.cut (d := x.1) ?_ (fun hx => ?_); subst x; rotate_left; try clear_value x) | skip)
    | (with_reducible first | exact Touch.refl | assumption | apply Touch.step (Chip.dmTake_touch ..) | apply Touch.step (ih ..))
    | decide +kernel
    | split
    | (intro _; intros)
    | (clear_value *; split)

theorem Chip.dmRow_touch (c : Chip) (n op : Nat) (table : List Nat) : Touch 0x8090c 0x180001fe8038000000000000000000000000000000000000000000000004 c (Chip.dmRow c n op table) := by
  unfold Chip.dmRow
  repeat' first
    | (with_reducible first | exact Touch.refl | assumption | apply Touch.step (Chip.dmSkip_touch ..) | apply Touch.step (Chip.dmTake_touch ..))
    | decide +kernel
    | split
    | (intro _; intros)
    | (clear_value *; split)

theorem Chip.dmFinish_touch (c : Chip) (n : Nat) (d : DmaDesc) : Touch 0x8090c 0x10000180001fe8038000000000000000000000000000000000000000000000004 c (Chip.dmFinish c n d) := by
  unfold Chip.dmFinish
  repeat' first
    | (fail_if_no_progress extract_lets +onlyGivenNames x; first | (revert x; intro (x : Chip); refine Touch.cut (d := x) ?_ (fun hx => ?_); subst x; rotate_left; try clear_value x) | (revert x; intro (x : Chip × _); refine Touch.cut (d := x.1) ?_ (fun hx => ?_); subst x; rotate_left; try clear_value x) | skip)
    | (with_reducible first | exact Touch.refl | assumption | apply Touch.step (Chip.dmEnd_touch ..) | apply Touch.step (Chip.dmMod_touch ..) | apply Touch.step (Chip.dmSkip_touch ..))
    | decide +kernel
    | split
    | (intro _; intros)
    | (clear_value *; split)

theorem Chip.dmComplete_touch (c : Chip) (fu : Fuses) (n : Nat) (data : List Byte) : Touch 0x7fffffe 0xf5e4d1c263fffedb9d00803078f47c823d9810413f738c3f8048418d66205c034 c (Chip.dmComplete c fu n data) := by
  unfold Chip.dmComplete
  repeat' first
    | (fail_if_no_progress extract_lets +onlyGivenNames x; first | (revert x; intro (x : Chip); refine Touch.cut (d := x) ?_ (fun hx => ?_); subst x; rotate_left; try clear_value x) | (revert x; intro (x : Chip × _); refine Touch.cut (d := x.1) ?_ (fun hx => ?_); subst x; rotate_left; try clear_value x) | skip)
    | (with_reducible first | exact Touch.refl | assumption | apply Touch.step (Chip.dmFinish_touch ..) | apply Touch.step (Chip.dmRun_touch ..))
    | decide +kernel
    | split
    | (intro _; intros)
    | (clear_value *; split)

theorem Chip.dmRequest_touch (c : Chip) (fu : Fuses) (line : Nat) (data : List Byte) : Touch 0x7fffffe 0xf5e4d1c263fffedb9d00803078f47c823d9810413f738c3f8048418d66205c034 c (Chip.dmRequest c fu line data) := by
  unfold Chip.dmRequest
  repeat' first
    | (fail_if_no_progress extract_lets +onlyGivenNames x; first | (revert x; intro (x : Chip); refine Touch.cut (d := x) ?_ (fun hx => ?_); subst x; rotate_left; try clear_value x) | (revert x; intro (x : Chip × _); refine Touch.cut (d := x.1) ?_ (fun hx => ?_); subst x; rotate_left; try clear_value x) | skip)
    | (with_reducible first | exact Touch.refl | assumption | apply Touch.step (Chip.count_touch ..) | apply Touch.step (Chip.dmBurst_touch ..) | apply Touch.step (Chip.dmGo_touch ..) | apply Touch.step (Chip.dmSet_touch ..) | apply Touch.step (Chip.swPut_touch ..))
    | decide +kernel
    | split
    | (intro _; intros)
    | (clear_value *; split)

theorem Chip.dmPaused_touch (c : Chip) (fu : Fuses) (m : DmaMove) : Touch 0x7fffffe 0xf5e4d1c263fffedb9d00803078f47c823d9810413f738c3f8048418d66205c034 c (Chip.dmPaused c fu m) := by
  unfold Chip.dmPaused
  repeat' first
    | (fail_if_no_progress extract_lets +onlyGivenNames x; first | (revert x; intro (x : Chip); refine Touch.cut (d := x) ?_ (fun hx => ?_); subst x; rotate_left; try clear_value x) | (revert x; intro (x : Chip × _); refine Touch.cut (d := x.1) ?_ (fun hx => ?_); subst x; rotate_left; try clear_value x) | skip)
    | (with_reducible first | exact Touch.refl | assumption | apply Touch.step (Chip.dmDrain_touch ..) | apply Touch.step (Chip.dmGo_touch ..) | apply Touch.step (Chip.dmProgress_touch ..) | apply Touch.step (Chip.dmSet_touch ..))
    | decide +kernel
    | split
    | (intro _; intros)
    | (clear_value *; split)

theorem Chip.dmRingFault_touch (c : Chip) (n : Nat) (st : Status) (cause : Nat) : Touch 0x908 0x180000028000000000000000000000000000000000000000000000000004 c (Chip.dmRingFault c n st cause) := by
  unfold Chip.dmRingFault
  repeat' first
    | (fail_if_no_progress extract_lets +onlyGivenNames x; first | (revert x; intro (x : Chip); refine Touch.cut (d := x) ?_ (fun hx => ?_); subst x; rotate_left; try clear_value x) | (revert x; intro (x : Chip × _); refine Touch.cut (d := x.1) ?_ (fun hx => ?_); subst x; rotate_left; try clear_value x) | skip)
    | (with_reducible first | exact Touch.refl | assumption | apply Touch.step (Chip.dmBack_touch ..) | apply Touch.step (Chip.dmNext_touch ..))
    | decide +kernel
    | split
    | (intro _; intros)
    | (clear_value *; split)

theorem Chip.dmBusError_touch (c : Chip) (fu : Fuses) (n cause addr : Nat) (wr index : Bool) (late : Option Nat) (moves : List DmaMove) : Touch 0x7fffffe 0xf5e4d1c263fffedb9d00803078f47c823d9810413f738c3f8048418d66205c034 c (Chip.dmBusError c fu n cause addr wr index late moves) := by
  unfold Chip.dmBusError
  repeat' first
    | (fail_if_no_progress extract_lets +onlyGivenNames x; first | (revert x; intro (x : Chip); refine Touch.cut (d := x) ?_ (fun hx => ?_); subst x; rotate_left; try clear_value x) | (revert x; intro (x : Chip × _); refine Touch.cut (d := x.1) ?_ (fun hx => ?_); subst x; rotate_left; try clear_value x) | skip)
    | (with_reducible first | exact Touch.refl | assumption | apply Touch.each | apply Touch.step (Chip.busErrorAt_touch ..) | apply Touch.step (Chip.cxIntrude_touch ..) | apply Touch.step (Chip.dmProgress_touch ..) | apply Touch.step (Chip.dmRingFault_touch ..) | apply Touch.step (Chip.dmStopEnd_touch ..))
    | decide +kernel
    | (with_reducible apply Touch.upd) <;> first | (intro p; cases p <;> dsimp only [Part.same] <;> first | exact Or.inl (by decide +kernel) | exact Or.inr rfl) | (with_reducible first | exact Touch.refl | assumption | apply Touch.each | apply Touch.step (Chip.busErrorAt_touch ..) | apply Touch.step (Chip.cxIntrude_touch ..) | apply Touch.step (Chip.dmProgress_touch ..) | apply Touch.step (Chip.dmRingFault_touch ..) | apply Touch.step (Chip.dmStopEnd_touch ..)) | split
    | split
    | (intro _; intros)
    | (clear_value *; split)

theorem Chip.dmParity_touch (c : Chip) (n : Nat) : Touch 0x8090c 0x1000018000e028038000000000000000000000000000000000000000000000004 c (Chip.dmParity c n) := by
  unfold Chip.dmParity
  repeat' first
    | (fail_if_no_progress extract_lets +onlyGivenNames x; first | (revert x; intro (x : Chip); refine Touch.cut (d := x) ?_ (fun hx => ?_); subst x; rotate_left; try clear_value x) | (revert x; intro (x : Chip × _); refine Touch.cut (d := x.1) ?_ (fun hx => ?_); subst x; rotate_left; try clear_value x) | skip)
    | (with_reducible first | exact Touch.refl | assumption | apply Touch.step (Chip.dmEnd_touch ..) | apply Touch.step (Chip.dmFaultRegs_touch ..) | apply Touch.step (Chip.dmStopEnd_touch ..) | apply Touch.step (Chip.log_touch ..))
    | decide +kernel
    | split
    | (intro _; intros)
    | (clear_value *; split)

end Sys2Proof.Machine
end

