-- ==== Sys2Proof/Laws/TouchJtagOps.lean ====
section
/-! SUPPORT. What each function of Machine/JtagOps.lean can change: the two masks of `Touch` (Laws/Touch.lean), parts and banks of registers. -/

set_option linter.unreachableTactic false
set_option linter.unusedTactic false
set_option linter.tactic.unusedName false
set_option linter.unnecessarySeqFocus false
set_option linter.unusedVariables false
set_option Elab.async false

namespace Sys2Proof.Machine

theorem Chip.jtagRefuse_touch (c : Chip) (code : Nat) : Touch 0x108 0x180000000000000000000000000000000000000000000000000000000004 c (Chip.jtagRefuse c code) := by
  unfold Chip.jtagRefuse
  repeat' first
    | (with_reducible first | exact Touch.refl | assumption | apply Touch.step (Chip.log_touch ..))
    | decide +kernel
    | split
    | (intro _; intros)
    | (clear_value *; split)

theorem Chip.jtagUse_touch {pm bm : Nat} {a : Chip} (c : Chip) (code : Nat) (f : Chip → Chip) (hp : sub 0x10c pm = true) (hb : sub 0x180000000000000000000000000000000000000000000000000000000004 bm = true)
    (h_f : ∀ d, Touch pm bm a d → Touch pm bm a (f d))
    (hT : Touch pm bm a c) : Touch pm bm a (Chip.jtagUse c code f) := by
  unfold Chip.jtagUse
  repeat' first
    | (with_reducible first | exact Touch.refl | assumption | apply Touch.step (Chip.jtagRefuse_touch ..) | apply Touch.step (Chip.send_touch ..) | apply h_f)
    | exact sub_trans (by decide +kernel) hp
    | exact sub_trans (by decide +kernel) hb
    | exact hasField_sub hb (by decide +kernel)
    | (with_reducible apply Touch.upd) <;> first | (intro p; cases p <;> dsimp only [Part.same] <;> first | exact Or.inl (sub_bit hp (by decide +kernel)) | exact Or.inr rfl) | (with_reducible first | exact Touch.refl | assumption | apply Touch.step (Chip.jtagRefuse_touch ..) | apply Touch.step (Chip.send_touch ..) | apply h_f) | split
    | split
    | (intro _; intros)
    | (clear_value *; split)

theorem Chip.portScan_touch (c : Chip) (fu : Fuses) (page : Nat) (sel : Option Nat) (write : Bool) (data : Word) : Touch 0x7effffe 0xf5e4c1c223e03edb9d00803078f47c823d9810413f738c3f8040418d66205c034 c (Chip.portScan c fu page sel write data) := by
  unfold Chip.portScan
  repeat' first
    | (fail_if_no_progress extract_lets +onlyGivenNames x; first | (revert x; intro (x : Chip); refine Touch.cut (d := x) ?_ (fun hx => ?_); subst x; rotate_left; try clear_value x) | (revert x; intro (x : Chip × _); refine Touch.cut (d := x.1) ?_ (fun hx => ?_); subst x; rotate_left; try clear_value x) | skip)
    | (with_reducible first | exact Touch.refl | assumption | apply Touch.step (Chip.send_touch ..) | apply Touch.step (Chip.writeReg_touch ..))
    | decide +kernel
    | (with_reducible apply Touch.upd) <;> first | (intro p; cases p <;> dsimp only [Part.same] <;> first | exact Or.inl (by decide +kernel) | exact Or.inr rfl) | (with_reducible first | exact Touch.refl | assumption | apply Touch.step (Chip.send_touch ..) | apply Touch.step (Chip.writeReg_touch ..)) | split
    | split
    | (intro _; intros)
    | (clear_value *; split)

theorem Chip.dmiOut_touch (c : Chip) (data : Nat) (failed : Bool) : Touch 0x4 0x0 c (Chip.dmiOut c data failed) := by
  unfold Chip.dmiOut
  repeat' first
    | (with_reducible first | exact Touch.refl | assumption | apply Touch.step (Chip.send_touch ..))
    | decide +kernel
    | split
    | (intro _; intros)
    | (clear_value *; split)

theorem Chip.dmiBus_touch (c : Chip) (fu : Fuses) (req : Req) (addr : Nat) (wr : Bool) (bs : List Byte) : Touch 0x7effffe 0xf5e4d1c263e03edb9d00803078f47c823d9810413f738c3f8048418d66205c034 c (Chip.dmiBus c fu req addr wr bs) := by
  unfold Chip.dmiBus
  repeat' first
    | (fail_if_no_progress extract_lets +onlyGivenNames x; first | (revert x; intro (x : Chip); refine Touch.cut (d := x) ?_ (fun hx => ?_); subst x; rotate_left; try clear_value x) | (revert x; intro (x : Chip × _); refine Touch.cut (d := x.1) ?_ (fun hx => ?_); subst x; rotate_left; try clear_value x) | skip)
    | (with_reducible first | exact Touch.refl | assumption | apply Touch.step (Chip.busFetch_touch ..) | apply Touch.step (Chip.busStore_touch ..) | apply Touch.step (Chip.dmiOut_touch ..) | apply Touch.step (Chip.log_touch ..) | apply Touch.step (Chip.readBad_touch ..))
    | decide +kernel
    | split
    | (intro _; intros)
    | (clear_value *; split)

theorem Chip.rovDmi_touch (c : Chip) (fu : Fuses) (k : Nat) (op : DmiOp) : Touch 0x7effffe 0xf5e4d1c263e03edb9d00803078f47c823d9810413f738c3f8048418d66205c034 c (Chip.rovDmi c fu k op) := by
  unfold Chip.rovDmi
  repeat' first
    | (fail_if_no_progress extract_lets +onlyGivenNames x; first | (revert x; intro (x : Chip); refine Touch.cut (d := x) ?_ (fun hx => ?_); subst x; rotate_left; try clear_value x) | (revert x; intro (x : Chip × _); refine Touch.cut (d := x.1) ?_ (fun hx => ?_); subst x; rotate_left; try clear_value x) | skip)
    | (with_reducible first | exact Touch.refl | assumption | apply Touch.wr | apply Touch.step (Chip.dmiBus_touch ..) | apply Touch.step (Chip.dmiOut_touch ..) | apply Touch.step (Chip.haltReq_touch ..) | apply Touch.step (Chip.resumeReq_touch ..) | apply Touch.step (Chip.stepReq_touch ..))
    | decide +kernel
    | exact covers_reg (by decide +kernel)
    | (refine covers_window (i := 257) (lo := 0x10100) (len := 0xc0) (by decide +kernel) ?_ ?_ <;> simp_all [bpOff] <;> omega)
    | split
    | (intro _; intros)
    | (clear_value *; split)

theorem Chip.spnFirst_touch (c : Chip) : Touch 0x167db1c 0x84000180020000001d0080001830400008100000004000000000000c402000004 c (Chip.spnFirst c) := by
  unfold Chip.spnFirst
  repeat' first
    | (fail_if_no_progress extract_lets +onlyGivenNames x; first | (revert x; intro (x : Chip); refine Touch.cut (d := x) ?_ (fun hx => ?_); subst x; rotate_left; try clear_value x) | (revert x; intro (x : Chip × _); refine Touch.cut (d := x.1) ?_ (fun hx => ?_); subst x; rotate_left; try clear_value x) | skip)
    | (with_reducible first | exact Touch.refl | assumption | apply Touch.put | apply Touch.step (Chip.log_touch ..) | apply Touch.step (Chip.setRole_touch ..) | apply Touch.step (Chip.zeroize_touch ..))
    | decide +kernel
    | split
    | (intro _; intros)
    | (clear_value *; split)

theorem Chip.spnHalt_touch (c : Chip) : Touch 0x167db1c 0x84000180020000001d0080001830400008100000004000000000000c402000004 c (Chip.spnHalt c) := by
  unfold Chip.spnHalt
  repeat' first
    | (fail_if_no_progress extract_lets +onlyGivenNames x; first | (revert x; intro (x : Chip); refine Touch.cut (d := x) ?_ (fun hx => ?_); subst x; rotate_left; try clear_value x) | (revert x; intro (x : Chip × _); refine Touch.cut (d := x.1) ?_ (fun hx => ?_); subst x; rotate_left; try clear_value x) | skip)
    | (with_reducible first | exact Touch.refl | assumption | apply Touch.put | apply Touch.step (Chip.dmiOut_touch ..) | apply Touch.step (Chip.jtagRefuse_touch ..) | apply Touch.step (Chip.spnFirst_touch ..))
    | decide +kernel
    | (with_reducible apply Touch.upd) <;> first | (intro p; cases p <;> dsimp only [Part.same] <;> first | exact Or.inl (by decide +kernel) | exact Or.inr rfl) | (with_reducible first | exact Touch.refl | assumption | apply Touch.put | apply Touch.step (Chip.dmiOut_touch ..) | apply Touch.step (Chip.jtagRefuse_touch ..) | apply Touch.step (Chip.spnFirst_touch ..)) | split
    | split
    | (intro _; intros)
    | (clear_value *; split)

theorem Chip.spnResume_touch (c : Chip) : Touch 0x1100 0x20000000000000000000000000000000000000000000000000000000 c (Chip.spnResume c) := by
  unfold Chip.spnResume
  repeat' first
    | (fail_if_no_progress extract_lets +onlyGivenNames x; first | (revert x; intro (x : Chip); refine Touch.cut (d := x) ?_ (fun hx => ?_); subst x; rotate_left; try clear_value x) | (revert x; intro (x : Chip × _); refine Touch.cut (d := x.1) ?_ (fun hx => ?_); subst x; rotate_left; try clear_value x) | skip)
    | (with_reducible first | exact Touch.refl | assumption | apply Touch.put)
    | decide +kernel
    | (with_reducible apply Touch.upd) <;> first | (intro p; cases p <;> dsimp only [Part.same] <;> first | exact Or.inl (by decide +kernel) | exact Or.inr rfl) | (with_reducible first | exact Touch.refl | assumption | apply Touch.put) | split
    | split
    | (intro _; intros)
    | (clear_value *; split)

theorem Chip.spnDmi_touch (c : Chip) (fu : Fuses) (op : DmiOp) : Touch 0x7effffe 0xf5e4d1c263e03edb9d00803078f47c823d9810413f738c3f8048418d66205c034 c (Chip.spnDmi c fu op) := by
  unfold Chip.spnDmi
  repeat' first
    | (fail_if_no_progress extract_lets +onlyGivenNames x; first | (revert x; intro (x : Chip); refine Touch.cut (d := x) ?_ (fun hx => ?_); subst x; rotate_left; try clear_value x) | (revert x; intro (x : Chip × _); refine Touch.cut (d := x.1) ?_ (fun hx => ?_); subst x; rotate_left; try clear_value x) | skip)
    | (with_reducible first | exact Touch.refl | assumption | apply Touch.step (Chip.dmiBus_touch ..) | apply Touch.step (Chip.dmiOut_touch ..) | apply Touch.step (Chip.spnHalt_touch ..) | apply Touch.step (Chip.spnResume_touch ..))
    | decide +kernel
    | split
    | (intro _; intros)
    | (clear_value *; split)

end Sys2Proof.Machine
end

