-- ==== Sys2Proof/Laws/TouchDebug.lean ====
section
/-! SUPPORT. What each function of Machine/Debug.lean can change: the two masks of `Touch` (Laws/Touch.lean), parts and banks of registers. -/

set_option linter.unreachableTactic false
set_option linter.unusedTactic false
set_option linter.tactic.unusedName false
set_option linter.unnecessarySeqFocus false
set_option linter.unusedVariables false
set_option Elab.async false

namespace Sys2Proof.Machine

theorem Chip.ctrlClear_touch {pm bm : Nat} {a : Chip} (c : Chip) (req : Req) (f : Fld) (off : Chip → Chip) (hp : sub 0x14c pm = true) (hb : sub 0x180000000000000000000000000000000000000000000000100000210004 bm = true)
    (h_off : ∀ d, Touch pm bm a d → Touch pm bm a (off d))
    (hT : Touch pm bm a c) : Touch pm bm a (Chip.ctrlClear c req f off) := by
  unfold Chip.ctrlClear
  repeat' first
    | (with_reducible first | exact Touch.refl | assumption | apply Touch.when | apply Chip.guarded_touch | apply Touch.step (Chip.wrote_touch ..) | apply h_off)
    | exact sub_trans (by decide +kernel) hp
    | exact sub_trans (by decide +kernel) hb
    | exact hasField_sub hb (by decide +kernel)
    | split
    | (intro _; intros)
    | (clear_value *; split)

theorem Chip.traceBit_touch {pm bm : Nat} {a : Chip} (c : Chip) (req : Req) (t : Nat) (f : Chip → Chip) (hp : sub 0x14c pm = true) (hb : sub 0x180000000000000000000000000000000000000000000000100000210004 bm = true)
    (h_f : ∀ d, Touch pm bm a d → Touch pm bm a (f d))
    (hT : Touch pm bm a c) : Touch pm bm a (Chip.traceBit c req t f) := by
  unfold Chip.traceBit
  repeat' first
    | (with_reducible first | exact Touch.refl | assumption | apply Chip.guarded_touch | apply Touch.step (Chip.wrote_touch ..) | apply h_f)
    | exact sub_trans (by decide +kernel) hp
    | exact sub_trans (by decide +kernel) hb
    | exact hasField_sub hb (by decide +kernel)
    | split
    | (intro _; intros)
    | (clear_value *; split)

theorem Chip.fabricRead_touch (c : Chip) (req : Req) (off : Nat) : Touch 0x84114c 0x1180400000000000800000800000000010400000000000080100000210004 c (Chip.fabricRead c req off) := by
  unfold Chip.fabricRead
  repeat' first
    | (fail_if_no_progress extract_lets +onlyGivenNames x; first | (revert x; intro (x : Chip); refine Touch.cut (d := x) ?_ (fun hx => ?_); subst x; rotate_left; try clear_value x) | (revert x; intro (x : Chip × _); refine Touch.cut (d := x.1) ?_ (fun hx => ?_); subst x; rotate_left; try clear_value x) | skip)
    | (with_reducible first | exact Touch.refl | assumption | apply Chip.guarded_touch | apply Touch.step (Chip.readReg_touch ..) | apply Touch.step (Chip.respond_touch ..))
    | decide +kernel
    | split
    | (intro _; intros)
    | (clear_value *; split)

end Sys2Proof.Machine
end

