-- ==== Sys2Proof/Laws/TouchObjectOps.lean ====
section
/-! SUPPORT. What each function of Machine/ObjectOps.lean can change: the two masks of `Touch` (Laws/Touch.lean), parts and banks of registers. -/

set_option linter.unreachableTactic false
set_option linter.unusedTactic false
set_option linter.tactic.unusedName false
set_option linter.unnecessarySeqFocus false
set_option linter.unusedVariables false
set_option Elab.async false

namespace Sys2Proof.Machine

theorem Chip.bodyUnder_touch (c : Chip) (op : Nat) (b : List Byte) (ticket : Nat) : Touch 0x1cb193c 0x300001820300381b8000283d00000188300000003000022000000000000000004 c (Chip.bodyUnder c op b ticket).1 := by
  unfold Chip.bodyUnder
  repeat' first
    | (fail_if_no_progress extract_lets +onlyGivenNames x; first | (revert x; intro (x : Chip); refine Touch.cut (d := x) ?_ (fun hx => ?_); subst x; rotate_left; try clear_value x) | (revert x; intro (x : Chip × _); refine Touch.cut (d := x.1) ?_ (fun hx => ?_); subst x; rotate_left; try clear_value x) | skip)
    | (with_reducible first | exact Touch.refl | assumption | apply Touch.step (Chip.bodyIn_touch ..) | apply Touch.step (Chip.objLog_touch ..) | apply Touch.step (Chip.objReady_touch ..))
    | decide +kernel
    | split
    | (intro _; intros)
    | (clear_value *; split)

theorem Chip.answerMirrored_touch (c : Chip) (k : Call) (a : Answer) (before : Nat) : Touch 0x1000000 0x0 c (Chip.answerMirrored c k a before).1 := by
  unfold Chip.answerMirrored
  repeat' first
    | (with_reducible first | exact Touch.refl | assumption | apply Touch.step (Chip.hold_touch ..))
    | decide +kernel
    | split
    | (intro _; intros)
    | (clear_value *; split)

theorem Chip.objCall_touch (c : Chip) (k : Call) (op : Nat) (input : List Byte) (genuine : Bool) : Touch 0x1cb193c 0x300001820300381b8000283d00000188300000003000022000000000000000004 c (Chip.objCall c k op input genuine).1 := by
  unfold Chip.objCall
  repeat' first
    | (fail_if_no_progress extract_lets +onlyGivenNames x; first | (revert x; intro (x : Chip); refine Touch.cut (d := x) ?_ (fun hx => ?_); subst x; rotate_left; try clear_value x) | (revert x; intro (x : Chip × _); refine Touch.cut (d := x.1) ?_ (fun hx => ?_); subst x; rotate_left; try clear_value x) | skip)
    | (with_reducible first | exact Touch.refl | assumption | apply Touch.step (Chip.answerMirrored_touch ..) | apply Touch.step (Chip.bodyUnder_touch ..) | apply Touch.step (Chip.endorse_touch ..))
    | decide +kernel
    | refine Touch.step (Chip.pendCall_touch _ _ _ ‹_›) (by decide +kernel) (by decide +kernel) ?_
    | split
    | (intro _; intros)
    | (clear_value *; split)

theorem Chip.onObjCall_touch (c : Chip) (n code : Nat) (genuine : Bool) (mine : List Byte → Bool) : Touch 0x1cb193c 0x30c001820300381b8000283d00000188300010403000022000000000000000004 c (Chip.onObjCall c n code genuine mine) := by
  unfold Chip.onObjCall
  repeat' first
    | (with_reducible first | exact Touch.refl | assumption | apply Touch.step (Chip.objCall_touch ..) | apply Chip.onCall_touch)
    | decide +kernel
    | split
    | (intro _; intros)
    | (clear_value *; split)

theorem Chip.partsFresh_touch (c : Chip) : Touch 0x400000 0x0 c (Chip.partsFresh c) := by
  unfold Chip.partsFresh
  repeat' first
    | (with_reducible first | exact Touch.refl | assumption | apply Touch.step (Chip.ha_touch ..))
    | decide +kernel
    | split
    | (intro _; intros)
    | (clear_value *; split)

theorem Chip.objNote_touch (c : Chip) (session object : Nat) (d : List Byte) (st : Status) : Touch 0x400000 0x0 c (Chip.objNote c session object d st) := by
  unfold Chip.objNote
  repeat' first
    | (with_reducible first | exact Touch.refl | assumption | apply Touch.step (Chip.ha_touch ..))
    | decide +kernel
    | split
    | (intro _; intros)
    | (clear_value *; split)

theorem Chip.portion_touch (c : Chip) (session op : Nat) (b : List Byte) (genuine : Bool) : Touch 0x1cb193c 0x300001820300381b8000283d00000188300000003000022000000000000000004 c (Chip.portion c session op b genuine).1 := by
  unfold Chip.portion
  repeat' first
    | (fail_if_no_progress extract_lets +onlyGivenNames x; first | (revert x; intro (x : Chip); refine Touch.cut (d := x) ?_ (fun hx => ?_); subst x; rotate_left; try clear_value x) | (revert x; intro (x : Chip × _); refine Touch.cut (d := x.1) ?_ (fun hx => ?_); subst x; rotate_left; try clear_value x) | skip)
    | (with_reducible first | exact Touch.refl | assumption | apply Touch.step (Chip.bodyUnder_touch ..) | apply Touch.step (Chip.endorse_touch ..) | apply Touch.step (Chip.ha_touch ..) | apply Touch.step (Chip.objNote_touch ..) | apply Touch.step (Chip.partsFresh_touch ..))
    | decide +kernel
    | split
    | (intro _; intros)
    | (clear_value *; split)

theorem Chip.reveal_touch (c : Chip) (h : Nat) (s : TwStep) : Touch 0x4010a 0x180000000000000000000004000000000000000000000000000000000004 c (Chip.reveal c h s).1 := by
  unfold Chip.reveal
  repeat' first
    | (fail_if_no_progress extract_lets +onlyGivenNames x; first | (revert x; intro (x : Chip); refine Touch.cut (d := x) ?_ (fun hx => ?_); subst x; rotate_left; try clear_value x) | (revert x; intro (x : Chip × _); refine Touch.cut (d := x.1) ?_ (fun hx => ?_); subst x; rotate_left; try clear_value x) | (revert x; intro (x : _ × Chip); refine Touch.cut (d := x.2) ?_ (fun hx => ?_); subst x; rotate_left; try clear_value x) | (revert x; intro (x : _ × _ × Chip); refine Touch.cut (d := x.2.2) ?_ (fun hx => ?_); subst x; rotate_left; try clear_value x) | skip)
    | (with_reducible first | exact Touch.refl | assumption | apply Touch.step (Chip.rnd_touch ..) | apply Touch.step (Chip.twLog_touch ..))
    | decide +kernel
    | split
    | (intro _; intros)
    | (clear_value *; split)

theorem Chip.receipt_touch (c : Chip) (h n : Nat) : Touch 0x4010a 0x180000000000000000000004000000000000000000000000000000000004 c (Chip.receipt c h n).1 := by
  unfold Chip.receipt
  repeat' first
    | (fail_if_no_progress extract_lets +onlyGivenNames x; first | (revert x; intro (x : Chip); refine Touch.cut (d := x) ?_ (fun hx => ?_); subst x; rotate_left; try clear_value x) | (revert x; intro (x : Chip × _); refine Touch.cut (d := x.1) ?_ (fun hx => ?_); subst x; rotate_left; try clear_value x) | skip)
    | (with_reducible first | exact Touch.refl | assumption | apply Touch.step (Chip.reveal_touch ..))
    | decide +kernel
    | split
    | (intro _; intros)
    | (clear_value *; split)

end Sys2Proof.Machine
end

