-- ==== Sys2Proof/Laws/TouchRingLate.lean ====
section
/-! SUPPORT. What each function of Machine/RingLate.lean can change: the two masks of `Touch` (Laws/Touch.lean), parts and banks of registers. -/

set_option linter.unreachableTactic false
set_option linter.unusedTactic false
set_option linter.tactic.unusedName false
set_option linter.unnecessarySeqFocus false
set_option linter.unusedVariables false
set_option Elab.async false

namespace Sys2Proof.Machine

theorem Chip.besideClosed_touch (c : Chip) (cc : Bool) : Touch 0x11c 0x180000000000000000000000000000000000000780000000000000000004 c (Chip.besideClosed c cc) := by
  unfold Chip.besideClosed
  dsimp only
  repeat' first
    | (with_reducible first | exact Touch.refl | assumption | apply Touch.put | apply Touch.step (Chip.noteBreak_touch ..) | apply Touch.step (Chip.ringBroadcast_touch ..))
    | decide +kernel
    | split
    | (intro _; intros)
    | (clear_value *; split)

theorem Chip.fwdLog_touch (c : Chip) (p : List Byte) : Touch 0x10108 0x180000000000000000000000008300000000000000000000000000000004 c (Chip.fwdLog c p) := by
  unfold Chip.fwdLog
  repeat' first
    | (fail_if_no_progress extract_lets +onlyGivenNames x; first | (revert x; intro (x : Chip); refine Touch.cut (d := x) ?_ (fun hx => ?_); subst x; rotate_left; try clear_value x) | (revert x; intro (x : Chip × _); refine Touch.cut (d := x.1) ?_ (fun hx => ?_); subst x; rotate_left; try clear_value x) | skip)
    | (with_reducible first | exact Touch.refl | assumption | apply Touch.step (Chip.limitHit_touch ..) | apply Touch.step (Chip.logDrop_touch ..) | apply Touch.step (Chip.logRec_touch ..) | apply Touch.step (Chip.traceEvent_touch ..))
    | decide +kernel
    | split
    | (intro _; intros)
    | (clear_value *; split)

end Sys2Proof.Machine
end

