-- ==== Sys2Proof/Laws/TouchSpdm.lean ====
section
/-! SUPPORT. What each function of Machine/Spdm.lean can change: the two masks of `Touch` (Laws/Touch.lean), parts and banks of registers. -/

set_option linter.unreachableTactic false
set_option linter.unusedTactic false
set_option linter.tactic.unusedName false
set_option linter.unnecessarySeqFocus false
set_option linter.unusedVariables false
set_option Elab.async false

namespace Sys2Proof.Machine

theorem Chip.vendor_touch {pm bm : Nat} {a : Chip} (c : Chip) (m : SpdmMsg) (mine : Nat → Bool) (keep : Bool) (f : Chip → List Byte → Chip) (hp : sub 0x163111c pm = true) (hb : sub 0xc00180000000000000000000000088300010400000022000000000000000004 bm = true)
    (h_f : ∀ d x1, Touch pm bm a d → Touch pm bm a (f d x1))
    (hT : Touch pm bm a c) : Touch pm bm a (Chip.vendor c m mine keep f) := by
  unfold Chip.vendor
  repeat' first
    | (fail_if_no_progress extract_lets +onlyGivenNames x; first | (revert x; intro (x : Chip); refine Touch.cut (d := x) ?_ (fun hx => ?_); subst x; rotate_left; try clear_value x) | (revert x; intro (x : Chip × _); refine Touch.cut (d := x.1) ?_ (fun hx => ?_); subst x; rotate_left; try clear_value x) | skip)
    | (with_reducible first | exact Touch.refl | assumption | apply Touch.step (Chip.spdmErr_touch ..) | apply Chip.spdmServe_touch | apply Touch.step (Chip.vout_touch ..) | apply h_f)
    | exact sub_trans (by decide +kernel) hp
    | exact sub_trans (by decide +kernel) hb
    | exact hasField_sub hb (by decide +kernel)
    | split
    | (intro _; intros)
    | (clear_value *; split)

end Sys2Proof.Machine
end

