-- ==== Sys2Proof/Laws/TouchDma.lean ====
section
/-! SUPPORT. What each function of Machine/Dma.lean can change: the two masks of `Touch` (Laws/Touch.lean), parts and banks of registers. -/

set_option linter.unreachableTactic false
set_option linter.unusedTactic false
set_option linter.tactic.unusedName false
set_option linter.unnecessarySeqFocus false
set_option linter.unusedVariables false
set_option Elab.async false

namespace Sys2Proof.Machine

theorem Chip.fenceDrain_touch (c : Chip) (fu : Fuses) (k : Nat) : Touch 0x7fffffe 0xf5e4c1c223e03edb9d00803078f47c823d9810413f738c3f8040418d66205c034 c (Chip.fenceDrain c fu k) := by
  unfold Chip.fenceDrain
  repeat' first
    | (with_reducible first | exact Touch.refl | assumption | apply Touch.each | apply Touch.step (Chip.dmDrain_touch ..))
    | decide +kernel
    | split
    | (intro _; intros)
    | (clear_value *; split)

end Sys2Proof.Machine
end

