-- ==== Sys2Proof/Laws/ExecBoot.lean ====
section
/-! SUPPORT. What each command of Machine/Boot.lean can change before what follows of itself: the two masks of `Touch` (Laws/Touch.lean). -/

set_option linter.unreachableTactic false
set_option linter.unusedTactic false
set_option linter.tactic.unusedName false
set_option linter.unnecessarySeqFocus false
set_option linter.unusedVariables false
set_option Elab.async false

namespace Sys2Proof.Machine

theorem execRomInit_touch (rom : List Byte) (s : State) : ∃ c, execRomInit rom s = .next (s.after c) ∧ Touch 0x4590a 0x180000000000000000000004000000000000000000000000030000050034 s.chip c := by
  refine ⟨_, rfl, ?_⟩
  generalize s.chip = c
  beta_reduce
  repeat' first
    | (fail_if_no_progress extract_lets +onlyGivenNames x; first | (revert x; intro (x : Chip); refine Touch.cut (d := x) ?_ (fun hx => ?_); subst x; rotate_left; try clear_value x) | (revert x; intro (x : Chip × _); refine Touch.cut (d := x.1) ?_ (fun hx => ?_); subst x; rotate_left; try clear_value x) | (revert x; intro (x : _ × Chip); refine Touch.cut (d := x.2) ?_ (fun hx => ?_); subst x; rotate_left; try clear_value x) | (revert x; intro (x : _ × _ × Chip); refine Touch.cut (d := x.2.2) ?_ (fun hx => ?_); subst x; rotate_left; try clear_value x) | skip)
    | (with_reducible first | exact Touch.refl | assumption | apply Touch.each | apply Touch.put64 | apply Touch.step (Chip.drbgStart_touch ..) | apply Touch.step (Chip.groupNeed_touch ..) | apply Chip.inPhase_touch | apply Touch.step (Chip.rnd_touch ..) | apply Touch.step (Chip.setPhase_touch ..))
    | decide +kernel
    | (with_reducible apply Touch.upd) <;> first | (intro p; cases p <;> dsimp only [Part.same] <;> first | exact Or.inl (by decide +kernel) | exact Or.inr rfl) | (with_reducible first | exact Touch.refl | assumption | apply Touch.each | apply Touch.put64 | apply Touch.step (Chip.drbgStart_touch ..) | apply Touch.step (Chip.groupNeed_touch ..) | apply Chip.inPhase_touch | apply Touch.step (Chip.rnd_touch ..) | apply Touch.step (Chip.setPhase_touch ..)) | split
    | exact covers_reg (by decide +kernel)
    | split
    | (intro _; intros)
    | (clear_value *; split)

theorem execIntegDecide_touch (s : State) : ∃ c, execIntegDecide s = .next (s.cutAfter c) ∧ Touch 0x7effbfe 0x200180200000000000000000000000000000000000000000000008000050034 s.chip c := by
  refine ⟨_, rfl, ?_⟩
  generalize s.chip = c
  beta_reduce
  repeat' first
    | (fail_if_no_progress extract_lets +onlyGivenNames x; first | (revert x; intro (x : Chip); refine Touch.cut (d := x) ?_ (fun hx => ?_); subst x; rotate_left; try clear_value x) | (revert x; intro (x : Chip × _); refine Touch.cut (d := x.1) ?_ (fun hx => ?_); subst x; rotate_left; try clear_value x) | skip)
    | (with_reducible first | exact Touch.refl | assumption | apply Touch.each | apply Chip.inPhase_touch | apply Touch.step (Chip.integEnd_touch ..) | apply Touch.step (Chip.plySend_touch ..))
    | decide +kernel
    | (with_reducible apply Touch.upd) <;> first | (intro p; cases p <;> dsimp only [Part.same] <;> first | exact Or.inl (by decide +kernel) | exact Or.inr rfl) | (with_reducible first | exact Touch.refl | assumption | apply Touch.each | apply Chip.inPhase_touch | apply Touch.step (Chip.integEnd_touch ..) | apply Touch.step (Chip.plySend_touch ..)) | split
    | split
    | (intro _; intros)
    | (clear_value *; split)

theorem execFetchRetryTimer_touch (s : State) : ∃ c, execFetchRetryTimer s = .next (s.after c) ∧ Touch 0x100010c 0x180000000000000000000000000000000000000000000000000000000004 s.chip c := by
  refine ⟨_, rfl, ?_⟩
  generalize s.chip = c
  beta_reduce
  repeat' first
    | (with_reducible first | exact Touch.refl | assumption | apply Touch.each | apply Chip.inPhase_touch | apply Touch.step (Chip.plySend_touch ..))
    | decide +kernel
    | split
    | (intro _; intros)
    | (clear_value *; split)

theorem execFetchResp_touch (region : Nat) (st : Nat) (words : List Byte) (s : State) : ∃ c, execFetchResp region st words s = .next (s.cutAfter c) ∧ Touch 0x7effbfa 0x200180200000000000000000000000000000000040000000000009882050034 s.chip c := by
  refine ⟨_, rfl, ?_⟩
  generalize s.chip = c
  beta_reduce
  repeat' first
    | (fail_if_no_progress extract_lets +onlyGivenNames x; first | (revert x; intro (x : Chip); refine Touch.cut (d := x) ?_ (fun hx => ?_); subst x; rotate_left; try clear_value x) | (revert x; intro (x : Chip × _); refine Touch.cut (d := x.1) ?_ (fun hx => ?_); subst x; rotate_left; try clear_value x) | skip)
    | (with_reducible first | exact Touch.refl | assumption | apply Touch.put | apply Touch.step (Chip.fetchAccept_touch ..) | apply Chip.inPhase_touch | apply Touch.step (Chip.integEnd_touch ..))
    | decide +kernel
    | (with_reducible apply Touch.upd) <;> first | (intro p; cases p <;> dsimp only [Part.same] <;> first | exact Or.inl (by decide +kernel) | exact Or.inr rfl) | (with_reducible first | exact Touch.refl | assumption | apply Touch.put | apply Touch.step (Chip.fetchAccept_touch ..) | apply Chip.inPhase_touch | apply Touch.step (Chip.integEnd_touch ..)) | split
    | split
    | (intro _; intros)
    | (clear_value *; split)

theorem execFetchTimeout_touch (s : State) : ∃ c, execFetchTimeout s = .next (s.cutAfter c) ∧ Touch 0x7effbfa 0x200180200000000000000000000000000000000000000000000008000050034 s.chip c := by
  refine ⟨_, rfl, ?_⟩
  generalize s.chip = c
  beta_reduce
  repeat' first
    | (with_reducible first | exact Touch.refl | assumption | apply Chip.inPhase_touch | apply Touch.step (Chip.integEnd_touch ..))
    | decide +kernel
    | (with_reducible apply Touch.upd) <;> first | (intro p; cases p <;> dsimp only [Part.same] <;> first | exact Or.inl (by decide +kernel) | exact Or.inr rfl) | (with_reducible first | exact Touch.refl | assumption | apply Chip.inPhase_touch | apply Touch.step (Chip.integEnd_touch ..)) | split
    | split
    | (intro _; intros)
    | (clear_value *; split)

theorem execFetchReq_touch (region : Nat) (s : State) : ∃ c, execFetchReq region s = .next (s.after c) ∧ Touch 0x100010c 0x180000000000000000000000000000000000040000000000000000000004 s.chip c := by
  refine ⟨_, rfl, ?_⟩
  generalize s.chip = c
  beta_reduce
  repeat' first
    | (fail_if_no_progress extract_lets +onlyGivenNames x; first | (revert x; intro (x : Chip); refine Touch.cut (d := x) ?_ (fun hx => ?_); subst x; rotate_left; try clear_value x) | (revert x; intro (x : Chip × _); refine Touch.cut (d := x.1) ?_ (fun hx => ?_); subst x; rotate_left; try clear_value x) | skip)
    | (with_reducible first | exact Touch.refl | assumption | apply Touch.put | apply Touch.step (Chip.plySend_touch ..))
    | decide +kernel
    | split
    | (intro _; intros)
    | (clear_value *; split)

theorem execNorInit_touch (s : State) : ∃ c, execNorInit s = .next (s.after c) ∧ Touch 0x1124 0x30 s.chip c := by
  refine ⟨_, rfl, ?_⟩
  generalize s.chip = c
  beta_reduce
  repeat' first
    | (with_reducible first | exact Touch.refl | assumption | apply Chip.inPhase_touch | apply Touch.step (Chip.send_touch ..) | apply Touch.step (Chip.setPhase_touch ..))
    | decide +kernel
    | (with_reducible apply Touch.upd) <;> first | (intro p; cases p <;> dsimp only [Part.same] <;> first | exact Or.inl (by decide +kernel) | exact Or.inr rfl) | (with_reducible first | exact Touch.refl | assumption | apply Chip.inPhase_touch | apply Touch.step (Chip.send_touch ..) | apply Touch.step (Chip.setPhase_touch ..)) | split
    | split
    | (intro _; intros)
    | (clear_value *; split)

theorem execRootLoad_touch (s : State) : ∃ c, execRootLoad s = .next (s.after c) ∧ Touch 0x11100 0x20000000000000000000000108000000030 s.chip c := by
  refine ⟨_, rfl, ?_⟩
  generalize s.chip = c
  beta_reduce
  repeat' first
    | (fail_if_no_progress extract_lets +onlyGivenNames x; first | (revert x; intro (x : Chip); refine Touch.cut (d := x) ?_ (fun hx => ?_); subst x; rotate_left; try clear_value x) | (revert x; intro (x : Chip × _); refine Touch.cut (d := x.1) ?_ (fun hx => ?_); subst x; rotate_left; try clear_value x) | skip)
    | (with_reducible first | exact Touch.refl | assumption | apply Touch.put | apply Touch.step (Chip.cu_touch ..) | apply Chip.inPhase_touch | apply Touch.step (Chip.setPhase_touch ..))
    | decide +kernel
    | split
    | (intro _; intros)
    | (clear_value *; split)

theorem execDeviceidDerive_touch (s : State) : ∃ c, execDeviceidDerive s = .next (s.after c) ∧ Touch 0x5100 0x30 s.chip c := by
  refine ⟨_, rfl, ?_⟩
  generalize s.chip = c
  beta_reduce
  repeat' first
    | (fail_if_no_progress extract_lets +onlyGivenNames x; first | (revert x; intro (x : Chip); refine Touch.cut (d := x) ?_ (fun hx => ?_); subst x; rotate_left; try clear_value x) | (revert x; intro (x : Chip × _); refine Touch.cut (d := x.1) ?_ (fun hx => ?_); subst x; rotate_left; try clear_value x) | skip)
    | (with_reducible first | exact Touch.refl | assumption | apply Chip.inPhase_touch | apply Touch.step (Chip.setPhase_touch ..))
    | decide +kernel
    | (with_reducible apply Touch.upd) <;> first | (intro p; cases p <;> dsimp only [Part.same] <;> first | exact Or.inl (by decide +kernel) | exact Or.inr rfl) | (with_reducible first | exact Touch.refl | assumption | apply Chip.inPhase_touch | apply Touch.step (Chip.setPhase_touch ..)) | split
    | split
    | (intro _; intros)
    | (clear_value *; split)

theorem execSpindleVerify_touch (s : State) : ∃ c, execSpindleVerify s = .next (s.after c) ∧ Touch 0x5900 0x30 s.chip c := by
  refine ⟨_, rfl, ?_⟩
  generalize s.chip = c
  beta_reduce
  repeat' first
    | (fail_if_no_progress extract_lets +onlyGivenNames x; first | (revert x; intro (x : Chip); refine Touch.cut (d := x) ?_ (fun hx => ?_); subst x; rotate_left; try clear_value x) | (revert x; intro (x : Chip × _); refine Touch.cut (d := x.1) ?_ (fun hx => ?_); subst x; rotate_left; try clear_value x) | skip)
    | (with_reducible first | exact Touch.refl | assumption | apply Touch.step (Chip.failStep_touch ..) | apply Chip.inPhase_touch | apply Touch.step (Chip.setPhase_touch ..) | apply Touch.step (Chip.spnWr_touch ..))
    | decide +kernel
    | (with_reducible apply Touch.upd) <;> first | (intro p; cases p <;> dsimp only [Part.same] <;> first | exact Or.inl (by decide +kernel) | exact Or.inr rfl) | (with_reducible first | exact Touch.refl | assumption | apply Touch.step (Chip.failStep_touch ..) | apply Chip.inPhase_touch | apply Touch.step (Chip.setPhase_touch ..) | apply Touch.step (Chip.spnWr_touch ..)) | split
    | split
    | (intro _; intros)
    | (clear_value *; split)

theorem execAliasDerive_touch (s : State) : ∃ c, execAliasDerive s = .next (s.after c) ∧ Touch 0x15100 0x20000000000000000000000000000000030 s.chip c := by
  refine ⟨_, rfl, ?_⟩
  generalize s.chip = c
  beta_reduce
  repeat' first
    | (fail_if_no_progress extract_lets +onlyGivenNames x; first | (revert x; intro (x : Chip); refine Touch.cut (d := x) ?_ (fun hx => ?_); subst x; rotate_left; try clear_value x) | (revert x; intro (x : Chip × _); refine Touch.cut (d := x.1) ?_ (fun hx => ?_); subst x; rotate_left; try clear_value x) | skip)
    | (with_reducible first | exact Touch.refl | assumption | apply Touch.put | apply Touch.step (Chip.cu_touch ..) | apply Chip.inPhase_touch | apply Touch.step (Chip.setPhase_touch ..))
    | decide +kernel
    | (with_reducible apply Touch.upd) <;> first | (intro p; cases p <;> dsimp only [Part.same] <;> first | exact Or.inl (by decide +kernel) | exact Or.inr rfl) | (with_reducible first | exact Touch.refl | assumption | apply Touch.put | apply Touch.step (Chip.cu_touch ..) | apply Chip.inPhase_touch | apply Touch.step (Chip.setPhase_touch ..)) | split
    | split
    | (intro _; intros)
    | (clear_value *; split)

theorem execRecoveryEnter_touch (s : State) : ∃ c, execRecoveryEnter s = .next (s.cutAfter c) ∧ Touch 0x567db1c 0x84000180000000001d0080001830400008100000000004000000000c402000034 s.chip c := by
  refine ⟨_, rfl, ?_⟩
  generalize s.chip = c
  beta_reduce
  repeat' first
    | (fail_if_no_progress extract_lets +onlyGivenNames x; first | (revert x; intro (x : Chip); refine Touch.cut (d := x) ?_ (fun hx => ?_); subst x; rotate_left; try clear_value x) | (revert x; intro (x : Chip × _); refine Touch.cut (d := x.1) ?_ (fun hx => ?_); subst x; rotate_left; try clear_value x) | skip)
    | (with_reducible first | exact Touch.refl | assumption | apply Touch.put | apply Touch.step (Chip.log_touch ..) | apply Touch.step (Chip.setPhase_touch ..) | apply Touch.step (Chip.updLoad_touch ..) | apply Touch.step (Chip.zeroize_touch ..))
    | decide +kernel
    | split
    | (intro _; intros)
    | (clear_value *; split)

theorem execSpindleInit_touch (s : State) : ∃ c, execSpindleInit s = .next (s.after c) ∧ Touch 0x4001908 0x418000000000000000000000000000000000000000000000c080000000034 s.chip c := by
  refine ⟨_, rfl, ?_⟩
  generalize s.chip = c
  beta_reduce
  repeat' first
    | (fail_if_no_progress extract_lets +onlyGivenNames x; first | (revert x; intro (x : Chip); refine Touch.cut (d := x) ?_ (fun hx => ?_); subst x; rotate_left; try clear_value x) | (revert x; intro (x : Chip × _); refine Touch.cut (d := x.1) ?_ (fun hx => ?_); subst x; rotate_left; try clear_value x) | skip)
    | (with_reducible first | exact Touch.refl | assumption | apply Touch.put | apply Chip.inPhase_touch | apply Touch.step (Chip.log_touch ..) | apply Touch.step (Chip.setPhase_touch ..) | apply Touch.step (Chip.tamperOpen_touch ..) | apply Touch.step (Chip.updLoad_touch ..))
    | decide +kernel
    | split
    | (intro _; intros)
    | (clear_value *; split)

theorem execConfigApply_touch (s : State) : ∃ c, execConfigApply s = .next (s.cutSettled c) ∧ Touch 0x7effbfe 0x84200180240000001d0080001830400208100000000c04000010010c4021d8074 s.chip c := by
  refine ⟨_, rfl, ?_⟩
  generalize s.chip = c
  beta_reduce
  repeat' first
    | (fail_if_no_progress extract_lets +onlyGivenNames x; first | (revert x; intro (x : Chip); refine Touch.cut (d := x) ?_ (fun hx => ?_); subst x; rotate_left; try clear_value x) | (revert x; intro (x : Chip × _); refine Touch.cut (d := x.1) ?_ (fun hx => ?_); subst x; rotate_left; try clear_value x) | skip)
    | (with_reducible first | exact Touch.refl | assumption | apply Touch.put | apply Touch.step (Chip.config_touch ..) | apply Chip.inPhase_touch | apply Touch.step (Chip.log_touch ..) | apply Touch.step (Chip.setPhase_touch ..) | apply Touch.step (Chip.updResume_touch ..))
    | decide +kernel
    | (with_reducible apply Touch.upd) <;> first | (intro p; cases p <;> dsimp only [Part.same] <;> first | exact Or.inl (by decide +kernel) | exact Or.inr rfl) | (with_reducible first | exact Touch.refl | assumption | apply Touch.put | apply Touch.step (Chip.config_touch ..) | apply Chip.inPhase_touch | apply Touch.step (Chip.log_touch ..) | apply Touch.step (Chip.setPhase_touch ..) | apply Touch.step (Chip.updResume_touch ..)) | split
    | split
    | (intro _; intros)
    | (clear_value *; split)

theorem execRovingStart_touch (s : State) : ∃ c, execRovingStart s = .next (s.after c) ∧ Touch 0x7effbfe 0x84240180200000001d0080001830400008100000000000000000010c402050034 s.chip c := by
  refine ⟨_, rfl, ?_⟩
  generalize s.chip = c
  beta_reduce
  repeat' first
    | (fail_if_no_progress extract_lets +onlyGivenNames x; first | (revert x; intro (x : Chip); refine Touch.cut (d := x) ?_ (fun hx => ?_); subst x; rotate_left; try clear_value x) | (revert x; intro (x : Chip × _); refine Touch.cut (d := x.1) ?_ (fun hx => ?_); subst x; rotate_left; try clear_value x) | skip)
    | (with_reducible first | exact Touch.refl | assumption | apply Touch.each | apply Touch.step (Chip.coreStart_touch ..) | apply Touch.step (Chip.failStep_touch ..) | apply Chip.inPhase_touch | apply Touch.step (Chip.log_touch ..) | apply Touch.step (Chip.rovWr_touch ..) | apply Touch.step (Chip.setPhase_touch ..) | apply Touch.step (Chip.updResume_touch ..))
    | decide +kernel
    | (with_reducible apply Touch.upd) <;> first | (intro p; cases p <;> dsimp only [Part.same] <;> first | exact Or.inl (by decide +kernel) | exact Or.inr rfl) | (with_reducible first | exact Touch.refl | assumption | apply Touch.each | apply Touch.step (Chip.coreStart_touch ..) | apply Touch.step (Chip.failStep_touch ..) | apply Chip.inPhase_touch | apply Touch.step (Chip.log_touch ..) | apply Touch.step (Chip.rovWr_touch ..) | apply Touch.step (Chip.setPhase_touch ..) | apply Touch.step (Chip.updResume_touch ..)) | split
    | split
    | (intro _; intros)
    | (clear_value *; split)

theorem execCustodyInit_touch (s : State) : ∃ c, execCustodyInit s = .next (s.settled c) ∧ Touch 0x5110a 0x1800000000000000000000040a1f01000000000000000000000000000034 s.chip c := by
  refine ⟨_, rfl, ?_⟩
  generalize s.chip = c
  beta_reduce
  repeat' first
    | (fail_if_no_progress extract_lets +onlyGivenNames x; first | (revert x; intro (x : Chip); refine Touch.cut (d := x) ?_ (fun hx => ?_); subst x; rotate_left; try clear_value x) | (revert x; intro (x : Chip × _); refine Touch.cut (d := x.1) ?_ (fun hx => ?_); subst x; rotate_left; try clear_value x) | (revert x; intro (x : _ × Chip); refine Touch.cut (d := x.2) ?_ (fun hx => ?_); subst x; rotate_left; try clear_value x) | (revert x; intro (x : _ × _ × Chip); refine Touch.cut (d := x.2.2) ?_ (fun hx => ?_); subst x; rotate_left; try clear_value x) | skip)
    | (with_reducible first | exact Touch.refl | assumption | apply Touch.put | apply Touch.step (Chip.cacheStat_touch ..) | apply Touch.step (Chip.cu_touch ..) | apply Chip.inPhase_touch | apply Touch.step (Chip.jOpenUp_touch ..) | apply Touch.step (Chip.rndPr_touch ..) | apply Touch.step (Chip.setPhase_touch ..))
    | decide +kernel
    | split
    | (intro _; intros)
    | (clear_value *; split)

theorem execRingStart_touch (other marks : Bool) (s : State) : ∃ c, execRingStart other marks s = .next (s.settled c) ∧ Touch 0x106913e 0x1800000000000000000000040000000000130600c0000020000000004034 s.chip c := by
  refine ⟨_, rfl, ?_⟩
  generalize s.chip = c
  beta_reduce
  repeat' first
    | (fail_if_no_progress extract_lets +onlyGivenNames x; first | (revert x; intro (x : Chip); refine Touch.cut (d := x) ?_ (fun hx => ?_); subst x; rotate_left; try clear_value x) | (revert x; intro (x : Chip × _); refine Touch.cut (d := x.1) ?_ (fun hx => ?_); subst x; rotate_left; try clear_value x) | skip)
    | (with_reducible first | exact Touch.refl | assumption | apply Touch.put | apply Touch.step (Chip.cardStart_touch ..) | apply Chip.inPhase_touch | apply Touch.step (Chip.linkTrain_touch ..) | apply Touch.step (Chip.masterStart_touch ..) | apply Touch.step (Chip.ringEnable_touch ..) | apply Touch.step (Chip.setPhase_touch ..) | apply Touch.step (Chip.setRole_touch ..))
    | decide +kernel
    | split
    | (intro _; intros)
    | (clear_value *; split)

end Sys2Proof.Machine
end

