-- ==== Sys2Proof/Laws/ExecCalls.lean ====
section
/-! SUPPORT. What each command of Machine/Calls.lean can change before what follows of itself: the two masks of `Touch` (Laws/Touch.lean). -/

set_option linter.unreachableTactic false
set_option linter.unusedTactic false
set_option linter.tactic.unusedName false
set_option linter.unnecessarySeqFocus false
set_option linter.unusedVariables false
set_option Elab.async false

namespace Sys2Proof.Machine

theorem execEventsDrain_touch (n : Nat) (s : State) : ∃ c, execEventsDrain n s = .next (s.settled c) ∧ Touch 0x190c 0xc00180000000000000000000000000000010400000000000000000000000004 s.chip c := by
  refine ⟨_, rfl, ?_⟩
  generalize s.chip = c
  beta_reduce
  repeat' first
    | (fail_if_no_progress extract_lets +onlyGivenNames x; first | (revert x; intro (x : Chip); refine Touch.cut (d := x) ?_ (fun hx => ?_); subst x; rotate_left; try clear_value x) | (revert x; intro (x : Chip × _); refine Touch.cut (d := x.1) ?_ (fun hx => ?_); subst x; rotate_left; try clear_value x) | skip)
    | (with_reducible first | exact Touch.refl | assumption | apply Chip.onCall_touch)
    | decide +kernel
    | (with_reducible apply Touch.upd) <;> first | (intro p; cases p <;> dsimp only [Part.same] <;> first | exact Or.inl (by decide +kernel) | exact Or.inr rfl) | (with_reducible first | exact Touch.refl | assumption | apply Chip.onCall_touch) | split
    | split
    | (intro _; intros)
    | (clear_value *; split)

theorem execGrant_touch (n : Nat) (s : State) : ∃ c, execGrant n s = .next (s.settled c) ∧ Touch 0x4190c 0x4c00180020002080000000078020000000010400000000000000000000000004 s.chip c := by
  refine ⟨_, rfl, ?_⟩
  generalize s.chip = c
  beta_reduce
  repeat' first
    | (fail_if_no_progress extract_lets +onlyGivenNames x; first | (revert x; intro (x : Chip); refine Touch.cut (d := x) ?_ (fun hx => ?_); subst x; rotate_left; try clear_value x) | (revert x; intro (x : Chip × _); refine Touch.cut (d := x.1) ?_ (fun hx => ?_); subst x; rotate_left; try clear_value x) | skip)
    | (with_reducible first | exact Touch.refl | assumption | apply Touch.each | apply Touch.step (Chip.grantTo_touch ..) | apply Chip.onCall_touch)
    | decide +kernel
    | split
    | (intro _; intros)
    | (clear_value *; split)

theorem execRelease_touch (n : Nat) (s : State) : ∃ c, execRelease n s = .next (s.settled c) ∧ Touch 0xc190c 0x16c001800200220b8000000078300000000010400000000000000000000000004 s.chip c := by
  refine ⟨_, rfl, ?_⟩
  generalize s.chip = c
  beta_reduce
  repeat' first
    | (fail_if_no_progress extract_lets +onlyGivenNames x; first | (revert x; intro (x : Chip); refine Touch.cut (d := x) ?_ (fun hx => ?_); subst x; rotate_left; try clear_value x) | (revert x; intro (x : Chip × _); refine Touch.cut (d := x.1) ?_ (fun hx => ?_); subst x; rotate_left; try clear_value x) | skip)
    | (with_reducible first | exact Touch.refl | assumption | apply Touch.each | apply Chip.onCall_touch | apply Touch.step (Chip.takeBack_touch ..))
    | decide +kernel
    | split
    | (intro _; intros)
    | (clear_value *; split)

theorem execSleepRequest_touch (n : Nat) (s : State) : ∃ c, execSleepRequest n s = .next (s.cutSettled c) ∧ Touch 0x167db3c 0x84c00180000000001d0080001830400008101040000000000000000c402010004 s.chip c := by
  refine ⟨_, rfl, ?_⟩
  generalize s.chip = c
  beta_reduce
  repeat' first
    | (with_reducible first | exact Touch.refl | assumption | apply Touch.step (Chip.answer_touch ..) | apply Chip.onCall_touch | apply Touch.step (Chip.sleepRequest_touch ..))
    | decide +kernel
    | split
    | (intro _; intros)
    | (clear_value *; split)

theorem execLcRequest_touch (n : Nat) (genuine : Bool) (s : State) : ∃ c, execLcRequest n genuine s = .next (s.cutSettled c) ∧ Touch 0x1f0c 0x40e00180000000000000000000000000000010400000000000000105402000004 s.chip c := by
  refine ⟨_, rfl, ?_⟩
  generalize s.chip = c
  generalize s.fuses = fu
  beta_reduce
  repeat' first
    | (fail_if_no_progress extract_lets +onlyGivenNames x; first | (revert x; intro (x : Chip); refine Touch.cut (d := x) ?_ (fun hx => ?_); subst x; rotate_left; try clear_value x) | (revert x; intro (x : Chip × _); refine Touch.cut (d := x.1) ?_ (fun hx => ?_); subst x; rotate_left; try clear_value x) | skip)
    | (with_reducible first | exact Touch.refl | assumption | apply Touch.each | apply Touch.step (Chip.lcsCtrlWrite_touch ..) | apply Chip.onCall_touch | apply Chip.pending_touch | apply Touch.step (Chip.wrLcs_touch ..))
    | decide +kernel
    | (with_reducible apply Touch.upd) <;> first | (intro p; cases p <;> dsimp only [Part.same] <;> first | exact Or.inl (by decide +kernel) | exact Or.inr rfl) | (with_reducible first | exact Touch.refl | assumption | apply Touch.each | apply Touch.step (Chip.lcsCtrlWrite_touch ..) | apply Chip.onCall_touch | apply Chip.pending_touch | apply Touch.step (Chip.wrLcs_touch ..)) | split
    | split
    | (intro _; intros)
    | (clear_value *; split)

end Sys2Proof.Machine
end

