-- ==== Sys2Proof/Laws/ExecCarding.lean ====
section
/-! SUPPORT. What each command of Machine/Carding.lean can change before what follows of itself: the two masks of `Touch` (Laws/Touch.lean). -/

set_option linter.unreachableTactic false
set_option linter.unusedTactic false
set_option linter.tactic.unusedName false
set_option linter.unnecessarySeqFocus false
set_option linter.unusedVariables false
set_option Elab.async false

namespace Sys2Proof.Machine

theorem execCardNodePresent_touch (node : Nat) (s : State) : ∃ c, execCardNodePresent node s = .next (s.settled c) ∧ Touch 0x4811e 0x180000000000000000000004000000000000000000000000000000004004 s.chip c := by
  refine ⟨_, rfl, ?_⟩
  generalize s.chip = c
  beta_reduce
  repeat' first
    | (with_reducible first | exact Touch.refl | assumption | apply Touch.step (Chip.measure_touch ..))
    | decide +kernel
    | split
    | (intro _; intros)
    | (clear_value *; split)

theorem execMeasured_touch (s : State) : ∃ c, execMeasured s = .next (s.settled c) ∧ Touch 0x104811e 0x180000000000000000000004000000000003003800000000000000004004 s.chip c := by
  refine ⟨_, rfl, ?_⟩
  generalize s.chip = c
  beta_reduce
  repeat' first
    | (with_reducible first | exact Touch.refl | assumption | apply Touch.step (Chip.measured_touch ..) | apply Chip.onMeas_touch)
    | decide +kernel
    | split
    | (intro _; intros)
    | (clear_value *; split)

theorem execNotReady_touch (s : State) : ∃ c, execNotReady s = .next (s.settled c) ∧ Touch 0x8010 0x0 s.chip c := by
  refine ⟨_, rfl, ?_⟩
  generalize s.chip = c
  beta_reduce
  repeat' first
    | (with_reducible first | exact Touch.refl | assumption | apply Touch.step (Chip.cardMod_touch ..) | apply Chip.onMeas_touch)
    | decide +kernel
    | split
    | (intro _; intros)
    | (clear_value *; split)

theorem execKeyInstalled_touch (s : State) : ∃ c, execKeyInstalled s = .next (s.settled c) ∧ Touch 0x100011c 0x180000000000000000000000000000000003000000000000000000000004 s.chip c := by
  refine ⟨_, rfl, ?_⟩
  generalize s.chip = c
  beta_reduce
  repeat' first
    | (with_reducible first | exact Touch.refl | assumption | apply Touch.step (Chip.keyInstalled_touch ..) | apply Chip.onMeas_touch)
    | decide +kernel
    | split
    | (intro _; intros)
    | (clear_value *; split)

theorem execKeyFailed_touch (s : State) : ∃ c, execKeyFailed s = .next (s.settled c) ∧ Touch 0x104811e 0x180000000000000000000004000000000003003800000000000000004004 s.chip c := by
  refine ⟨_, rfl, ?_⟩
  generalize s.chip = c
  beta_reduce
  repeat' first
    | (with_reducible first | exact Touch.refl | assumption | apply Touch.step (Chip.keyFailed_touch ..) | apply Chip.onMeas_touch)
    | decide +kernel
    | split
    | (intro _; intros)
    | (clear_value *; split)

theorem execCardRetryTimer_touch (node : Nat) (s : State) : ∃ c, execCardRetryTimer node s = .next (s.settled c) ∧ Touch 0x104811e 0x180000000000000000000004000000000003003800000000000000004004 s.chip c := by
  refine ⟨_, rfl, ?_⟩
  generalize s.chip = c
  beta_reduce
  repeat' first
    | (fail_if_no_progress extract_lets +onlyGivenNames x; first | (revert x; intro (x : Chip); refine Touch.cut (d := x) ?_ (fun hx => ?_); subst x; rotate_left; try clear_value x) | (revert x; intro (x : Chip × _); refine Touch.cut (d := x.1) ?_ (fun hx => ?_); subst x; rotate_left; try clear_value x) | skip)
    | (with_reducible first | exact Touch.refl | assumption | apply Touch.step (Chip.measure_touch ..) | apply Touch.step (Chip.measured_touch ..))
    | decide +kernel
    | split
    | (intro _; intros)
    | (clear_value *; split)

theorem execCardTimeout_touch (node : Nat) (s : State) : ∃ c, execCardTimeout node s = .next (s.settled c) ∧ Touch 0x100811c 0x180000000000000000000000000000000003003800000000000000004004 s.chip c := by
  refine ⟨_, rfl, ?_⟩
  generalize s.chip = c
  beta_reduce
  repeat' first
    | (with_reducible first | exact Touch.refl | assumption | apply Touch.step (Chip.cardReject_touch ..))
    | decide +kernel
    | split
    | (intro _; intros)
    | (clear_value *; split)

theorem execCardKeyTimeout_touch (node : Nat) (s : State) : ∃ c, execCardKeyTimeout node s = .next (s.settled c) ∧ Touch 0x104811e 0x180000000000000000000004000000000003003800000000000000004004 s.chip c := by
  refine ⟨_, rfl, ?_⟩
  generalize s.chip = c
  beta_reduce
  repeat' first
    | (with_reducible first | exact Touch.refl | assumption | apply Touch.step (Chip.keyFailed_touch ..))
    | decide +kernel
    | split
    | (intro _; intros)
    | (clear_value *; split)

theorem execCardTakeoverTimer_touch (s : State) : ∃ c, execCardTakeoverTimer s = .next (s.settled c) ∧ Touch 0x104811e 0x180000000000000000000004000000000003000040000000000000004004 s.chip c := by
  refine ⟨_, rfl, ?_⟩
  generalize s.chip = c
  beta_reduce
  repeat' first
    | (with_reducible first | exact Touch.refl | assumption | apply Touch.step (Chip.cardTakeover_touch ..))
    | decide +kernel
    | split
    | (intro _; intros)
    | (clear_value *; split)

theorem execCardNotice_touch (rkey : Nat) (started : Bool) (s : State) : ∃ c, execCardNotice rkey started s = .next (s.settled c) ∧ Touch 0x8010 0x0 s.chip c := by
  refine ⟨_, rfl, ?_⟩
  generalize s.chip = c
  beta_reduce
  repeat' first
    | (with_reducible first | exact Touch.refl | assumption)
    | decide +kernel
    | (with_reducible apply Touch.upd) <;> first | (intro p; cases p <;> dsimp only [Part.same] <;> first | exact Or.inl (by decide +kernel) | exact Or.inr rfl) | (with_reducible first | exact Touch.refl | assumption) | split
    | split
    | (intro _; intros)
    | (clear_value *; split)

theorem execRecard_touch (req : Req) (node : Nat) (s : State) : ∃ c, execRecard req node s = .next (s.settled c) ∧ Touch 0x4815e 0x180000000000000000000004000000000000003800000000100000214004 s.chip c := by
  refine ⟨_, rfl, ?_⟩
  generalize s.chip = c
  beta_reduce
  repeat' first
    | (with_reducible first | exact Touch.refl | assumption | apply Chip.guarded_touch | apply Touch.step (Chip.recard_touch ..) | apply Touch.step (Chip.wrote_touch ..))
    | decide +kernel
    | split
    | (intro _; intros)
    | (clear_value *; split)

end Sys2Proof.Machine
end

