-- ==== Sys2Proof/Laws/ExecCores.lean ====
section
/-! SUPPORT. What each command of Machine/Cores.lean can change before what follows of itself: the two masks of `Touch` (Laws/Touch.lean). -/

set_option linter.unreachableTactic false
set_option linter.unusedTactic false
set_option linter.tactic.unusedName false
set_option linter.unnecessarySeqFocus false
set_option linter.unusedVariables false
set_option Elab.async false

namespace Sys2Proof.Machine

theorem execLockstepMismatch_touch (pc group : Nat) (s : State) : ∃ c, execLockstepMismatch pc group s = .next (s.cutSettled c) ∧ Touch 0x7effbfe 0x84200180200000001d0080001830400008100000000000000000000c402050034 s.chip c := by
  refine ⟨_, rfl, ?_⟩
  generalize s.chip = c
  beta_reduce
  repeat' first
    | (with_reducible first | exact Touch.refl | assumption | apply Touch.step (Chip.spnFail_touch ..))
    | decide +kernel
    | split
    | (intro _; intros)
    | (clear_value *; split)

theorem execSpindleSramUncorrectable_touch (addr pc : Nat) (s : State) : ∃ c, execSpindleSramUncorrectable addr pc s = .next (s.cutSettled c) ∧ Touch 0x7effbfe 0x84200180200000001d0080001830400008100000000000000000000c402050034 s.chip c := by
  refine ⟨_, rfl, ?_⟩
  generalize s.chip = c
  beta_reduce
  repeat' first
    | (with_reducible first | exact Touch.refl | assumption | apply Touch.step (Chip.spnFail_touch ..))
    | decide +kernel
    | split
    | (intro _; intros)
    | (clear_value *; split)

theorem execSpindleWdtExpire_touch (pc : Nat) (s : State) : ∃ c, execSpindleWdtExpire pc s = .next (s.cutSettled c) ∧ Touch 0x7effbfe 0x84200180200000001d0080001830400008100000000000000000000c402050034 s.chip c := by
  refine ⟨_, rfl, ?_⟩
  generalize s.chip = c
  beta_reduce
  repeat' first
    | (with_reducible first | exact Touch.refl | assumption | apply Touch.step (Chip.spnFail_touch ..))
    | decide +kernel
    | split
    | (intro _; intros)
    | (clear_value *; split)

theorem execSpindleWdtKick_touch (req : Req) (value : Word) (s : State) : ∃ c, execSpindleWdtKick req value s = .next (s.after c) ∧ Touch 0x114c 0x8180000000000000000000000000000000000000000000000100000210004 s.chip c := by
  refine ⟨_, rfl, ?_⟩
  generalize s.chip = c
  beta_reduce
  repeat' first
    | (with_reducible first | exact Touch.refl | assumption | apply Chip.guarded_touch | apply Touch.step (Chip.wdtWrite_touch ..) | apply Touch.step (Chip.wrote_touch ..))
    | decide +kernel
    | split
    | (intro _; intros)
    | (clear_value *; split)

theorem execCodeWp_touch (req : Req) (value : Word) (s : State) : ∃ c, execCodeWp req value s = .next (s.after c) ∧ Touch 0x14c 0x4180000000000000000000000000000000000000000000000100000210004 s.chip c := by
  refine ⟨_, rfl, ?_⟩
  generalize s.chip = c
  beta_reduce
  repeat' first
    | (with_reducible first | exact Touch.refl | assumption | apply Touch.step (Chip.codeWrite_touch ..) | apply Chip.guarded_touch | apply Touch.step (Chip.wrote_touch ..))
    | decide +kernel
    | split
    | (intro _; intros)
    | (clear_value *; split)

theorem execSpindleCodeFault_touch (off : Nat) (wr : Bool) (s : State) : ∃ c, execSpindleCodeFault off wr s = .next (s.cutSettled c) ∧ Touch 0x7effbfe 0x84200180200000001d0080001830400008100000000000000000000c402050034 s.chip c := by
  refine ⟨_, rfl, ?_⟩
  generalize s.chip = c
  beta_reduce
  repeat' first
    | (fail_if_no_progress extract_lets +onlyGivenNames x; first | (revert x; intro (x : Chip); refine Touch.cut (d := x) ?_ (fun hx => ?_); subst x; rotate_left; try clear_value x) | (revert x; intro (x : Chip × _); refine Touch.cut (d := x.1) ?_ (fun hx => ?_); subst x; rotate_left; try clear_value x) | skip)
    | (with_reducible first | exact Touch.refl | assumption | apply Touch.step (Chip.codeFault_touch ..))
    | decide +kernel
    | split
    | (intro _; intros)
    | (clear_value *; split)

theorem execCoreAccessFault_touch (req : Req) (addr size : Nat) (wr fetch : Bool) (s : State) : ∃ c, execCoreAccessFault req addr size wr fetch s = .next (s.after c) ∧ Touch 0x10c 0x180000000000000000000000000000000000000000000000000000000004 s.chip c := by
  refine ⟨_, rfl, ?_⟩
  generalize s.chip = c
  beta_reduce
  repeat' first
    | (fail_if_no_progress extract_lets +onlyGivenNames x; first | (revert x; intro (x : Chip); refine Touch.cut (d := x) ?_ (fun hx => ?_); subst x; rotate_left; try clear_value x) | (revert x; intro (x : Chip × _); refine Touch.cut (d := x.1) ?_ (fun hx => ?_); subst x; rotate_left; try clear_value x) | skip)
    | (with_reducible first | exact Touch.refl | assumption | apply Touch.step (Chip.log_touch ..) | apply Touch.step (Chip.respond_touch ..))
    | decide +kernel
    | split
    | (intro _; intros)
    | (clear_value *; split)

theorem execSramPatrol_touch (spindle : Bool) (addr errors : Nat) (s : State) : ∃ c, execSramPatrol spindle addr errors s = .next (s.cutSettled c) ∧ Touch 0x7effbfe 0x84200180200000001d0080001830400008100000000000000000000c402050034 s.chip c := by
  refine ⟨_, rfl, ?_⟩
  generalize s.chip = c
  beta_reduce
  repeat' first
    | (fail_if_no_progress extract_lets +onlyGivenNames x; first | (revert x; intro (x : Chip); refine Touch.cut (d := x) ?_ (fun hx => ?_); subst x; rotate_left; try clear_value x) | (revert x; intro (x : Chip × _); refine Touch.cut (d := x.1) ?_ (fun hx => ?_); subst x; rotate_left; try clear_value x) | skip)
    | (with_reducible first | exact Touch.refl | assumption | apply Touch.step (Chip.log_touch ..) | apply Touch.step (Chip.logOnce_touch ..) | apply Touch.step (Chip.spnFail_touch ..))
    | decide +kernel
    | (with_reducible apply Touch.upd) <;> first | (intro p; cases p <;> dsimp only [Part.same] <;> first | exact Or.inl (by decide +kernel) | exact Or.inr rfl) | (with_reducible first | exact Touch.refl | assumption | apply Touch.step (Chip.log_touch ..) | apply Touch.step (Chip.logOnce_touch ..) | apply Touch.step (Chip.spnFail_touch ..)) | split
    | split
    | (intro _; intros)
    | (clear_value *; split)

theorem execRovingCoreFence_touch (core : Nat) (cause : Nat) (s : State) : ∃ c, execRovingCoreFence core cause s = .next (s.cutSettled c) ∧ Touch 0x7effbfe 0x84240182200020039d0080001830400008100000000000000000000c402050034 s.chip c := by
  refine ⟨_, rfl, ?_⟩
  generalize s.chip = c
  beta_reduce
  repeat' first
    | (with_reducible first | exact Touch.refl | assumption | apply Touch.step (Chip.fenceCore_touch ..))
    | decide +kernel
    | split
    | (intro _; intros)
    | (clear_value *; split)

theorem execRovingWdtExpire_touch (core : Nat) (s : State) : ∃ c, execRovingWdtExpire core s = .next (s.cutSettled c) ∧ Touch 0x7effbfe 0x84240182200020039d0080001830400008100000000000000000000c402050034 s.chip c := by
  refine ⟨_, rfl, ?_⟩
  generalize s.chip = c
  beta_reduce
  repeat' first
    | (with_reducible first | exact Touch.refl | assumption | apply Touch.step (Chip.fenceCore_touch ..))
    | decide +kernel
    | split
    | (intro _; intros)
    | (clear_value *; split)

theorem execRovingWdtKick_touch (core : Nat) (s : State) : ∃ c, execRovingWdtKick core s = .next (s.after c) ∧ Touch 0x1000 0x0 s.chip c := by
  refine ⟨_, rfl, ?_⟩
  generalize s.chip = c
  beta_reduce
  repeat' first
    | (with_reducible first | exact Touch.refl | assumption)
    | decide +kernel
    | (with_reducible apply Touch.upd) <;> first | (intro p; cases p <;> dsimp only [Part.same] <;> first | exact Or.inl (by decide +kernel) | exact Or.inr rfl) | (with_reducible first | exact Touch.refl | assumption) | split
    | split
    | (intro _; intros)
    | (clear_value *; split)

theorem execCoreFence_touch (req : Req) (core : Nat) (s : State) : ∃ c, execCoreFence req core s = .next (s.cutSettled c) ∧ Touch 0x7effbfe 0x84240182200020039d0080001830400008100000000000000000010c402250034 s.chip c := by
  refine ⟨_, rfl, ?_⟩
  generalize s.chip = c
  beta_reduce
  repeat' first
    | (with_reducible first | exact Touch.refl | assumption | apply Touch.step (Chip.fenceCore_touch ..) | apply Chip.guarded_touch | apply Touch.step (Chip.wrote_touch ..))
    | decide +kernel
    | split
    | (intro _; intros)
    | (clear_value *; split)

theorem execCoreRestart_touch (req : Req) (core : Nat) (s : State) : ∃ c, execCoreRestart req core s = .next (s.after c) ∧ Touch 0x14c 0x40180000000000000000000000000000000000000000000000100000210004 s.chip c := by
  refine ⟨_, rfl, ?_⟩
  generalize s.chip = c
  beta_reduce
  repeat' first
    | (with_reducible first | exact Touch.refl | assumption | apply Touch.step (Chip.coreRestart_touch ..) | apply Chip.guarded_touch | apply Touch.step (Chip.wrote_touch ..))
    | decide +kernel
    | split
    | (intro _; intros)
    | (clear_value *; split)

theorem execCoreResetRelease_touch (core : Nat) (s : State) : ∃ c, execCoreResetRelease core s = .next (s.after c) ∧ Touch 0x1108 0x40180000000000000000000000000000000000000000000000000000000004 s.chip c := by
  refine ⟨_, rfl, ?_⟩
  generalize s.chip = c
  beta_reduce
  repeat' first
    | (with_reducible first | exact Touch.refl | assumption | apply Touch.addi | apply Touch.step (Chip.coreStart_touch ..))
    | decide +kernel
    | split
    | (intro _; intros)
    | (clear_value *; split)

end Sys2Proof.Machine
end

