-- ==== Sys2Proof/Laws/ExecCrypto.lean ====
section
/-! SUPPORT. What each command of Machine/Crypto.lean can change before what follows of itself: the two masks of `Touch` (Laws/Touch.lean). -/

set_option linter.unreachableTactic false
set_option linter.unusedTactic false
set_option linter.tactic.unusedName false
set_option linter.unnecessarySeqFocus false
set_option linter.unusedVariables false
set_option Elab.async false

namespace Sys2Proof.Machine

theorem execCryChTailWrite_touch (req : Req) (n : BitVec 5) (idx : BitVec 8) (s : State) : ∃ c, execCryChTailWrite req n idx s = .next (s.settled c) ∧ Touch 0x4094e 0x1800000000000000000003c4000000000000000000000000100000250004 s.chip c := by
  refine ⟨_, rfl, ?_⟩
  generalize s.chip = c
  beta_reduce
  repeat' first
    | (with_reducible first | exact Touch.refl | assumption | apply Touch.step (Chip.crySkip_touch ..) | apply Touch.step (Chip.cryTail_touch ..) | apply Chip.guarded_touch | apply Touch.step (Chip.wrote_touch ..))
    | decide +kernel
    | split
    | (intro _; intros)
    | (clear_value *; split)

theorem execMldsaKeygen_touch (n : BitVec 5) (s : State) : ∃ c, execMldsaKeygen n s = .next (s.settled c) ∧ Touch 0x4090e 0x180000000000000000000384000000000000000000000000000000050004 s.chip c := by
  refine ⟨_, rfl, ?_⟩
  generalize s.chip = c
  beta_reduce
  repeat' first
    | (with_reducible first | exact Touch.refl | assumption | apply Touch.step (Chip.cryRow_touch ..))
    | decide +kernel
    | split
    | (intro _; intros)
    | (clear_value *; split)

theorem execMldsaSign_touch (n : BitVec 5) (s : State) : ∃ c, execMldsaSign n s = .next (s.settled c) ∧ Touch 0x4090e 0x180000000000000000000384000000000000000000000000000000050004 s.chip c := by
  refine ⟨_, rfl, ?_⟩
  generalize s.chip = c
  beta_reduce
  repeat' first
    | (with_reducible first | exact Touch.refl | assumption | apply Touch.step (Chip.cryRow_touch ..))
    | decide +kernel
    | split
    | (intro _; intros)
    | (clear_value *; split)

theorem execMldsaVerify_touch (n : BitVec 5) (s : State) : ∃ c, execMldsaVerify n s = .next (s.settled c) ∧ Touch 0x4090e 0x180000000000000000000384000000000000000000000000000000050004 s.chip c := by
  refine ⟨_, rfl, ?_⟩
  generalize s.chip = c
  beta_reduce
  repeat' first
    | (with_reducible first | exact Touch.refl | assumption | apply Touch.step (Chip.cryRow_touch ..))
    | decide +kernel
    | split
    | (intro _; intros)
    | (clear_value *; split)

theorem execMlkemKeygen_touch (n : BitVec 5) (s : State) : ∃ c, execMlkemKeygen n s = .next (s.settled c) ∧ Touch 0x4090e 0x180000000000000000000384000000000000000000000000000000050004 s.chip c := by
  refine ⟨_, rfl, ?_⟩
  generalize s.chip = c
  beta_reduce
  repeat' first
    | (with_reducible first | exact Touch.refl | assumption | apply Touch.step (Chip.cryRow_touch ..))
    | decide +kernel
    | split
    | (intro _; intros)
    | (clear_value *; split)

theorem execMlkemEncaps_touch (n : BitVec 5) (s : State) : ∃ c, execMlkemEncaps n s = .next (s.settled c) ∧ Touch 0x4090e 0x180000000000000000000384000000000000000000000000000000050004 s.chip c := by
  refine ⟨_, rfl, ?_⟩
  generalize s.chip = c
  beta_reduce
  repeat' first
    | (with_reducible first | exact Touch.refl | assumption | apply Touch.step (Chip.cryRow_touch ..))
    | decide +kernel
    | split
    | (intro _; intros)
    | (clear_value *; split)

theorem execMlkemDecaps_touch (n : BitVec 5) (s : State) : ∃ c, execMlkemDecaps n s = .next (s.settled c) ∧ Touch 0x4090e 0x180000000000000000000384000000000000000000000000000000050004 s.chip c := by
  refine ⟨_, rfl, ?_⟩
  generalize s.chip = c
  beta_reduce
  repeat' first
    | (with_reducible first | exact Touch.refl | assumption | apply Touch.step (Chip.cryRow_touch ..))
    | decide +kernel
    | split
    | (intro _; intros)
    | (clear_value *; split)

theorem execNtt_touch (n : BitVec 5) (which : Fin 3) (s : State) : ∃ c, execNtt n which s = .next (s.settled c) ∧ Touch 0x4090e 0x180000000000000000000384000000000000000000000000000000050004 s.chip c := by
  refine ⟨_, rfl, ?_⟩
  generalize s.chip = c
  beta_reduce
  repeat' first
    | (with_reducible first | exact Touch.refl | assumption | apply Touch.step (Chip.cryRow_touch ..))
    | decide +kernel
    | split
    | (intro _; intros)
    | (clear_value *; split)

theorem execEccKeygen_touch (n : BitVec 5) (s : State) : ∃ c, execEccKeygen n s = .next (s.settled c) ∧ Touch 0x4090e 0x180000000000000000000384000000000000000000000000000000050004 s.chip c := by
  refine ⟨_, rfl, ?_⟩
  generalize s.chip = c
  beta_reduce
  repeat' first
    | (with_reducible first | exact Touch.refl | assumption | apply Touch.step (Chip.cryRow_touch ..))
    | decide +kernel
    | split
    | (intro _; intros)
    | (clear_value *; split)

theorem execEcdsaSign_touch (n : BitVec 5) (s : State) : ∃ c, execEcdsaSign n s = .next (s.settled c) ∧ Touch 0x4090e 0x180000000000000000000384000000000000000000000000000000050004 s.chip c := by
  refine ⟨_, rfl, ?_⟩
  generalize s.chip = c
  beta_reduce
  repeat' first
    | (with_reducible first | exact Touch.refl | assumption | apply Touch.step (Chip.cryRow_touch ..))
    | decide +kernel
    | split
    | (intro _; intros)
    | (clear_value *; split)

theorem execEcdsaVerify_touch (n : BitVec 5) (s : State) : ∃ c, execEcdsaVerify n s = .next (s.settled c) ∧ Touch 0x4090e 0x180000000000000000000384000000000000000000000000000000050004 s.chip c := by
  refine ⟨_, rfl, ?_⟩
  generalize s.chip = c
  beta_reduce
  repeat' first
    | (with_reducible first | exact Touch.refl | assumption | apply Touch.step (Chip.cryRow_touch ..))
    | decide +kernel
    | split
    | (intro _; intros)
    | (clear_value *; split)

theorem execEcdh_touch (n : BitVec 5) (s : State) : ∃ c, execEcdh n s = .next (s.settled c) ∧ Touch 0x4090e 0x180000000000000000000384000000000000000000000000000000050004 s.chip c := by
  refine ⟨_, rfl, ?_⟩
  generalize s.chip = c
  beta_reduce
  repeat' first
    | (with_reducible first | exact Touch.refl | assumption | apply Touch.step (Chip.cryRow_touch ..))
    | decide +kernel
    | split
    | (intro _; intros)
    | (clear_value *; split)

theorem execKmac_touch (n : BitVec 5) (s : State) : ∃ c, execKmac n s = .next (s.settled c) ∧ Touch 0x4090e 0x180000000000000000000384000000000000000000000000000000050004 s.chip c := by
  refine ⟨_, rfl, ?_⟩
  generalize s.chip = c
  beta_reduce
  repeat' first
    | (with_reducible first | exact Touch.refl | assumption | apply Touch.step (Chip.cryRow_touch ..))
    | decide +kernel
    | split
    | (intro _; intros)
    | (clear_value *; split)

theorem execGcmEnc_touch (n : BitVec 5) (s : State) : ∃ c, execGcmEnc n s = .next (s.settled c) ∧ Touch 0x4090e 0x180000000000000000000384000000000000000000000000000000050004 s.chip c := by
  refine ⟨_, rfl, ?_⟩
  generalize s.chip = c
  beta_reduce
  repeat' first
    | (with_reducible first | exact Touch.refl | assumption | apply Touch.step (Chip.cryRow_touch ..))
    | decide +kernel
    | split
    | (intro _; intros)
    | (clear_value *; split)

theorem execGcmDec_touch (n : BitVec 5) (s : State) : ∃ c, execGcmDec n s = .next (s.settled c) ∧ Touch 0x4090e 0x180000000000000000000384000000000000000000000000000000050004 s.chip c := by
  refine ⟨_, rfl, ?_⟩
  generalize s.chip = c
  beta_reduce
  repeat' first
    | (with_reducible first | exact Touch.refl | assumption | apply Touch.step (Chip.cryRow_touch ..))
    | decide +kernel
    | split
    | (intro _; intros)
    | (clear_value *; split)

theorem execCtr_touch (n : BitVec 5) (s : State) : ∃ c, execCtr n s = .next (s.settled c) ∧ Touch 0x4090e 0x180000000000000000000384000000000000000000000000000000050004 s.chip c := by
  refine ⟨_, rfl, ?_⟩
  generalize s.chip = c
  beta_reduce
  repeat' first
    | (with_reducible first | exact Touch.refl | assumption | apply Touch.step (Chip.cryRow_touch ..))
    | decide +kernel
    | split
    | (intro _; intros)
    | (clear_value *; split)

theorem execKwWrap_touch (n : BitVec 5) (s : State) : ∃ c, execKwWrap n s = .next (s.settled c) ∧ Touch 0x4090e 0x180000000000000000000384000000000000000000000000000000050004 s.chip c := by
  refine ⟨_, rfl, ?_⟩
  generalize s.chip = c
  beta_reduce
  repeat' first
    | (with_reducible first | exact Touch.refl | assumption | apply Touch.step (Chip.cryRow_touch ..))
    | decide +kernel
    | split
    | (intro _; intros)
    | (clear_value *; split)

theorem execKwUnwrap_touch (n : BitVec 5) (s : State) : ∃ c, execKwUnwrap n s = .next (s.settled c) ∧ Touch 0x4090e 0x180000000000000000000384000000000000000000000000000000050004 s.chip c := by
  refine ⟨_, rfl, ?_⟩
  generalize s.chip = c
  beta_reduce
  repeat' first
    | (with_reducible first | exact Touch.refl | assumption | apply Touch.step (Chip.cryRow_touch ..))
    | decide +kernel
    | split
    | (intro _; intros)
    | (clear_value *; split)

theorem execKeyRandom_touch (n : BitVec 5) (s : State) : ∃ c, execKeyRandom n s = .next (s.settled c) ∧ Touch 0x4090e 0x180000000000000000000384000000000000000000000000000000050004 s.chip c := by
  refine ⟨_, rfl, ?_⟩
  generalize s.chip = c
  beta_reduce
  repeat' first
    | (with_reducible first | exact Touch.refl | assumption | apply Touch.step (Chip.cryRow_touch ..))
    | decide +kernel
    | split
    | (intro _; intros)
    | (clear_value *; split)

theorem execKeyErase_touch (n : BitVec 5) (s : State) : ∃ c, execKeyErase n s = .next (s.settled c) ∧ Touch 0x4090e 0x180000000000000000000384000000000000000000000000000000050004 s.chip c := by
  refine ⟨_, rfl, ?_⟩
  generalize s.chip = c
  beta_reduce
  repeat' first
    | (with_reducible first | exact Touch.refl | assumption | apply Touch.step (Chip.cryRow_touch ..))
    | decide +kernel
    | split
    | (intro _; intros)
    | (clear_value *; split)

theorem execKeyDistaff_touch (n : BitVec 5) (s : State) : ∃ c, execKeyDistaff n s = .next (s.settled c) ∧ Touch 0x4090e 0x180000000000000000000384000000000000000000000000000000050004 s.chip c := by
  refine ⟨_, rfl, ?_⟩
  generalize s.chip = c
  beta_reduce
  repeat' first
    | (with_reducible first | exact Touch.refl | assumption | apply Touch.step (Chip.cryRow_touch ..))
    | decide +kernel
    | split
    | (intro _; intros)
    | (clear_value *; split)

theorem execKeyLoad_touch (n : BitVec 5) (s : State) : ∃ c, execKeyLoad n s = .next (s.settled c) ∧ Touch 0x4090e 0x180000000000000000000384000000000000000000000000000000050004 s.chip c := by
  refine ⟨_, rfl, ?_⟩
  generalize s.chip = c
  beta_reduce
  repeat' first
    | (with_reducible first | exact Touch.refl | assumption | apply Touch.step (Chip.cryRow_touch ..))
    | decide +kernel
    | split
    | (intro _; intros)
    | (clear_value *; split)

theorem execRandom_touch (n : BitVec 5) (s : State) : ∃ c, execRandom n s = .next (s.settled c) ∧ Touch 0x4090e 0x180000000000000000000384000000000000000000000000000000050004 s.chip c := by
  refine ⟨_, rfl, ?_⟩
  generalize s.chip = c
  beta_reduce
  repeat' first
    | (with_reducible first | exact Touch.refl | assumption | apply Touch.step (Chip.cryRow_touch ..))
    | decide +kernel
    | split
    | (intro _; intros)
    | (clear_value *; split)

theorem execCryptoOpComplete_touch (n : BitVec 5) (idx : BitVec 8) (iter : Nat) (s : State) : ∃ c, execCryptoOpComplete n idx iter s = .next (s.settled c) ∧ Touch 0x4090e 0x180000000000000000000304000000000000000000000000000000000004 s.chip c := by
  refine ⟨_, rfl, ?_⟩
  generalize s.chip = c
  beta_reduce
  repeat' first
    | (with_reducible first | exact Touch.refl | assumption | apply Touch.step (Chip.cryEnd_touch ..))
    | decide +kernel
    | split
    | (intro _; intros)
    | (clear_value *; split)

theorem execImportCmd_touch (s : State) : ∃ c, execImportCmd s = .next (s.settled c) ∧ Touch 0x105093e 0x180000000000000000000004080391000003000000000000000000050004 s.chip c := by
  refine ⟨_, rfl, ?_⟩
  generalize s.chip = c
  beta_reduce
  repeat' first
    | (with_reducible first | exact Touch.refl | assumption | apply Touch.step (Chip.cmdImport_touch ..) | apply Chip.cqRow_touch)
    | decide +kernel
    | split
    | (intro _; intros)
    | (clear_value *; split)

end Sys2Proof.Machine
end

