-- ==== Sys2Proof/Laws/ExecCryptoPower.lean ====
section
/-! SUPPORT. What each command of Machine/CryptoPower.lean can change before what follows of itself: the two masks of `Touch` (Laws/Touch.lean). -/

set_option linter.unreachableTactic false
set_option linter.unusedTactic false
set_option linter.tactic.unusedName false
set_option linter.unnecessarySeqFocus false
set_option linter.unusedVariables false
set_option Elab.async false

namespace Sys2Proof.Machine

theorem execCryptoGroupWake_touch (g : Fin 6) (s : State) : ∃ c, execCryptoGroupWake g s = .next (s.settled c) ∧ Touch 0x108 0x180000000000000000000000000000000000000000000000000000050004 s.chip c := by
  refine ⟨_, rfl, ?_⟩
  generalize s.chip = c
  beta_reduce
  repeat' first
    | (with_reducible first | exact Touch.refl | assumption | apply Touch.step (Chip.groupNeed_touch ..))
    | decide +kernel
    | split
    | (intro _; intros)
    | (clear_value *; split)

theorem execCryptoGroupReady_touch (g : Fin 6) (bad : List (Nat × Nat)) (s : State) : ∃ c, execCryptoGroupReady g bad s = .next (s.cutSettled c) ∧ Touch 0x7effbfe 0x84200180200000001d00800018b04c8008100000000000000000000c402050034 s.chip c := by
  refine ⟨_, rfl, ?_⟩
  generalize s.chip = c
  beta_reduce
  repeat' first
    | (fail_if_no_progress extract_lets +onlyGivenNames x; first | (revert x; intro (x : Chip); refine Touch.cut (d := x) ?_ (fun hx => ?_); subst x; rotate_left; try clear_value x) | (revert x; intro (x : Chip × _); refine Touch.cut (d := x.1) ?_ (fun hx => ?_); subst x; rotate_left; try clear_value x) | skip)
    | (with_reducible first | exact Touch.refl | assumption | apply Touch.each | apply Touch.put | apply Touch.step (Chip.cryArb_touch ..) | apply Touch.step (Chip.cxWake_touch ..) | apply Touch.step (Chip.keyRetry_touch ..) | apply Touch.step (Chip.powerOnTests_touch ..) | apply Touch.step (Chip.setGrp_touch ..))
    | decide +kernel
    | (with_reducible apply Touch.upd) <;> first | (intro p; cases p <;> dsimp only [Part.same] <;> first | exact Or.inl (by decide +kernel) | exact Or.inr rfl) | (with_reducible first | exact Touch.refl | assumption | apply Touch.each | apply Touch.put | apply Touch.step (Chip.cryArb_touch ..) | apply Touch.step (Chip.cxWake_touch ..) | apply Touch.step (Chip.keyRetry_touch ..) | apply Touch.step (Chip.powerOnTests_touch ..) | apply Touch.step (Chip.setGrp_touch ..)) | split
    | split
    | (intro _; intros)
    | (clear_value *; split)

theorem execCryptoPllTimeout_touch (s : State) : ∃ c, execCryptoPllTimeout s = .next (s.cutSettled c) ∧ Touch 0x7effbfe 0x84200180200000001d0080001830408009100000000000000000000c402050034 s.chip c := by
  refine ⟨_, rfl, ?_⟩
  generalize s.chip = c
  beta_reduce
  repeat' first
    | (with_reducible first | exact Touch.refl | assumption | apply Touch.each | apply Touch.step (Chip.groupsDown_touch ..) | apply Touch.step (Chip.instFail_touch ..) | apply Touch.step (Chip.setGrp_touch ..))
    | decide +kernel
    | (with_reducible apply Touch.upd) <;> first | (intro p; cases p <;> dsimp only [Part.same] <;> first | exact Or.inl (by decide +kernel) | exact Or.inr rfl) | (with_reducible first | exact Touch.refl | assumption | apply Touch.each | apply Touch.step (Chip.groupsDown_touch ..) | apply Touch.step (Chip.instFail_touch ..) | apply Touch.step (Chip.setGrp_touch ..)) | split
    | split
    | (intro _; intros)
    | (clear_value *; split)

theorem execGroupIdlePowerOff_touch (g : Fin 6) (s : State) : ∃ c, execGroupIdlePowerOff g s = .next (s.settled c) ∧ Touch 0x108 0x180000000000000000000000000000000000000000000000000000040004 s.chip c := by
  refine ⟨_, rfl, ?_⟩
  generalize s.chip = c
  beta_reduce
  repeat' first
    | (fail_if_no_progress extract_lets +onlyGivenNames x; first | (revert x; intro (x : Chip); refine Touch.cut (d := x) ?_ (fun hx => ?_); subst x; rotate_left; try clear_value x) | (revert x; intro (x : Chip × _); refine Touch.cut (d := x.1) ?_ (fun hx => ?_); subst x; rotate_left; try clear_value x) | skip)
    | (with_reducible first | exact Touch.refl | assumption | apply Touch.step (Chip.setGrp_touch ..))
    | decide +kernel
    | split
    | (intro _; intros)
    | (clear_value *; split)

theorem execCryptoPllHoldExpire_touch (s : State) : ∃ c, execCryptoPllHoldExpire s = .next (s.settled c) ∧ Touch 0x108 0x180000000000000000000000000000000000000000000000000000010004 s.chip c := by
  refine ⟨_, rfl, ?_⟩
  generalize s.chip = c
  beta_reduce
  repeat' first
    | (with_reducible first | exact Touch.refl | assumption | apply Touch.put | apply Touch.step (Chip.setSeq_touch ..))
    | decide +kernel
    | split
    | (intro _; intros)
    | (clear_value *; split)

theorem execPwrForceOn_touch (req : Req) (mask : BitVec 5) (s : State) : ∃ c, execPwrForceOn req mask s = .next (s.settled c) ∧ Touch 0x14c 0x180000000000000000000000000000000000000000000000100000270004 s.chip c := by
  refine ⟨_, rfl, ?_⟩
  generalize s.chip = c
  beta_reduce
  repeat' first
    | (with_reducible first | exact Touch.refl | assumption | apply Touch.step (Chip.forceOn_touch ..) | apply Chip.guarded_touch | apply Touch.step (Chip.wrote_touch ..))
    | decide +kernel
    | split
    | (intro _; intros)
    | (clear_value *; split)

end Sys2Proof.Machine
end

