-- ==== Sys2Proof/Laws/ExecCustody.lean ====
section
/-! SUPPORT. What each command of Machine/Custody.lean can change before what follows of itself: the two masks of `Touch` (Laws/Touch.lean). -/

set_option linter.unreachableTactic false
set_option linter.unusedTactic false
set_option linter.tactic.unusedName false
set_option linter.unnecessarySeqFocus false
set_option linter.unusedVariables false
set_option Elab.async false

namespace Sys2Proof.Machine

theorem execBobCqTailWrite_touch (req : Req) (idx : BitVec 10) (s : State) : ∃ c, execBobCqTailWrite req idx s = .next (s.settled c) ∧ Touch 0x1094c 0x180000000000000000000000000099000000000000000000100000210004 s.chip c := by
  refine ⟨_, rfl, ?_⟩
  generalize s.chip = c
  beta_reduce
  repeat' first
    | (with_reducible first | exact Touch.refl | assumption | apply Touch.step (Chip.cqTail_touch ..) | apply Chip.guarded_touch | apply Touch.step (Chip.wrote_touch ..))
    | decide +kernel
    | split
    | (intro _; intros)
    | (clear_value *; split)

theorem execBobCplHeadWrite_touch (req : Req) (idx : BitVec 10) (s : State) : ∃ c, execBobCplHeadWrite req idx s = .next (s.settled c) ∧ Touch 0x1094c 0x1800000000000000000000000000d1000000000000000000100000210004 s.chip c := by
  refine ⟨_, rfl, ?_⟩
  generalize s.chip = c
  beta_reduce
  repeat' first
    | (with_reducible first | exact Touch.refl | assumption | apply Touch.step (Chip.cplHead_touch ..) | apply Chip.guarded_touch | apply Touch.step (Chip.wrote_touch ..))
    | decide +kernel
    | split
    | (intro _; intros)
    | (clear_value *; split)

theorem execCreate_touch (s : State) : ∃ c, execCreate s = .next (s.settled c) ∧ Touch 0x101092c 0x180000000000000000000000000391000000000000000000000000050004 s.chip c := by
  refine ⟨_, rfl, ?_⟩
  generalize s.chip = c
  beta_reduce
  repeat' first
    | (with_reducible first | exact Touch.refl | assumption | apply Touch.step (Chip.cmdCreate_touch ..) | apply Chip.cqRow_touch)
    | decide +kernel
    | split
    | (intro _; intros)
    | (clear_value *; split)

theorem execDerive_touch (s : State) : ∃ c, execDerive s = .next (s.settled c) ∧ Touch 0x105093e 0x180000000000000000000004080391000000000000000000000000050004 s.chip c := by
  refine ⟨_, rfl, ?_⟩
  generalize s.chip = c
  beta_reduce
  repeat' first
    | (with_reducible first | exact Touch.refl | assumption | apply Touch.step (Chip.cmdDerive_touch ..) | apply Chip.cqRow_touch)
    | decide +kernel
    | split
    | (intro _; intros)
    | (clear_value *; split)

theorem execCommit_touch (s : State) : ∃ c, execCommit s = .next (s.settled c) ∧ Touch 0x101092c 0x180000000000000000000000000391000003000000000000000000050004 s.chip c := by
  refine ⟨_, rfl, ?_⟩
  generalize s.chip = c
  beta_reduce
  repeat' first
    | (with_reducible first | exact Touch.refl | assumption | apply Touch.step (Chip.cmdCommit_touch ..) | apply Chip.cqRow_touch)
    | decide +kernel
    | split
    | (intro _; intros)
    | (clear_value *; split)

theorem execArm_touch (s : State) : ∃ c, execArm s = .next (s.settled c) ∧ Touch 0x101090c 0x180000000000000000000000000391000003000000000000000000050004 s.chip c := by
  refine ⟨_, rfl, ?_⟩
  generalize s.chip = c
  beta_reduce
  repeat' first
    | (with_reducible first | exact Touch.refl | assumption | apply Touch.step (Chip.cmdArm_touch ..) | apply Chip.cqRow_touch)
    | decide +kernel
    | split
    | (intro _; intros)
    | (clear_value *; split)

theorem execCancel_touch (s : State) : ∃ c, execCancel s = .next (s.settled c) ∧ Touch 0x103091c 0x180000000000000000000000080391000000000020000000000000050004 s.chip c := by
  refine ⟨_, rfl, ?_⟩
  generalize s.chip = c
  beta_reduce
  repeat' first
    | (with_reducible first | exact Touch.refl | assumption | apply Touch.step (Chip.cmdCancel_touch ..) | apply Chip.cqRow_touch)
    | decide +kernel
    | split
    | (intro _; intros)
    | (clear_value *; split)

theorem execFreeze_touch (s : State) : ∃ c, execFreeze s = .next (s.settled c) ∧ Touch 0x143091c 0x180000000000000000000000180391000000000022000000000000050004 s.chip c := by
  refine ⟨_, rfl, ?_⟩
  generalize s.chip = c
  beta_reduce
  repeat' first
    | (with_reducible first | exact Touch.refl | assumption | apply Touch.step (Chip.cmdFreeze_touch ..) | apply Chip.cqRow_touch)
    | decide +kernel
    | split
    | (intro _; intros)
    | (clear_value *; split)

theorem execDestroy_touch (s : State) : ∃ c, execDestroy s = .next (s.settled c) ∧ Touch 0x101090c 0x180000000000000000000000088391000000000000000000000000050004 s.chip c := by
  refine ⟨_, rfl, ?_⟩
  generalize s.chip = c
  beta_reduce
  repeat' first
    | (with_reducible first | exact Touch.refl | assumption | apply Touch.step (Chip.cmdDestroy_touch ..) | apply Chip.cqRow_touch)
    | decide +kernel
    | split
    | (intro _; intros)
    | (clear_value *; split)

theorem execResume_touch (s : State) : ∃ c, execResume s = .next (s.settled c) ∧ Touch 0x101093c 0x180000000000000000000000088391000000000000000000000000050004 s.chip c := by
  refine ⟨_, rfl, ?_⟩
  generalize s.chip = c
  beta_reduce
  repeat' first
    | (with_reducible first | exact Touch.refl | assumption | apply Touch.step (Chip.cmdResume_touch ..) | apply Chip.cqRow_touch)
    | decide +kernel
    | split
    | (intro _; intros)
    | (clear_value *; split)

theorem execHistoric_touch (s : State) : ∃ c, execHistoric s = .next (s.settled c) ∧ Touch 0x105090e 0x180000000000000000000004000391000000000000000000000000050004 s.chip c := by
  refine ⟨_, rfl, ?_⟩
  generalize s.chip = c
  beta_reduce
  repeat' first
    | (with_reducible first | exact Touch.refl | assumption | apply Touch.step (Chip.cmdHistoric_touch ..) | apply Chip.cqRow_touch)
    | decide +kernel
    | split
    | (intro _; intros)
    | (clear_value *; split)

theorem execBobRead_touch (s : State) : ∃ c, execBobRead s = .next (s.settled c) ∧ Touch 0x101090c 0x180000000000000000000000000391000000000000000000000000050004 s.chip c := by
  refine ⟨_, rfl, ?_⟩
  generalize s.chip = c
  beta_reduce
  repeat' first
    | (with_reducible first | exact Touch.refl | assumption | apply Touch.step (Chip.cmdRead_touch ..) | apply Chip.cqRow_touch)
    | decide +kernel
    | split
    | (intro _; intros)
    | (clear_value *; split)

theorem execFenceCommand_touch (s : State) : ∃ c, execFenceCommand s = .next (s.settled c) ∧ Touch 0x1090c 0x180000000000000000000000000091000000000000000000000000000004 s.chip c := by
  refine ⟨_, rfl, ?_⟩
  generalize s.chip = c
  beta_reduce
  repeat' first
    | (with_reducible first | exact Touch.refl | assumption | apply Touch.step (Chip.cmdFence_touch ..) | apply Chip.cqRow_touch)
    | decide +kernel
    | split
    | (intro _; intros)
    | (clear_value *; split)

theorem execKeyReq_touch (s : State) : ∃ c, execKeyReq s = .next (s.settled c) ∧ Touch 0x205013e 0x180000000000000000000004080000000000000000000000000000050004 s.chip c := by
  refine ⟨_, rfl, ?_⟩
  generalize s.chip = c
  beta_reduce
  repeat' first
    | (fail_if_no_progress extract_lets +onlyGivenNames x; first | (revert x; intro (x : Chip); refine Touch.cut (d := x) ?_ (fun hx => ?_); subst x; rotate_left; try clear_value x) | (revert x; intro (x : Chip × _); refine Touch.cut (d := x.1) ?_ (fun hx => ?_); subst x; rotate_left; try clear_value x) | skip)
    | (with_reducible first | exact Touch.refl | assumption | apply Touch.step (Chip.keyServe_touch ..) | apply Chip.onFrame_touch | apply Touch.step (Chip.trace_touch ..))
    | decide +kernel
    | split
    | (intro _; intros)
    | (clear_value *; split)

theorem execBlobLoadDone_touch (bobbin : Nat) (bytes : List Byte) (s : State) : ∃ c, execBlobLoadDone bobbin bytes s = .next (s.settled c) ∧ Touch 0x305093e 0x180000000000000000000004080080000003000000000000000000050004 s.chip c := by
  refine ⟨_, rfl, ?_⟩
  generalize s.chip = c
  beta_reduce
  repeat' first
    | (with_reducible first | exact Touch.refl | assumption | apply Touch.step (Chip.blobDone_touch ..))
    | decide +kernel
    | split
    | (intro _; intros)
    | (clear_value *; split)

theorem execKatDone_touch (ch : Nat) (frame : WarpFrame) (s : State) : ∃ c, execKatDone ch frame s = .next (s.settled c) ∧ Touch 0x107093e 0x180000000000000000000004082080000000000020000000000000000004 s.chip c := by
  refine ⟨_, rfl, ?_⟩
  generalize s.chip = c
  beta_reduce
  repeat' first
    | (with_reducible first | exact Touch.refl | assumption | apply Touch.step (Chip.warpReply_touch ..))
    | decide +kernel
    | split
    | (intro _; intros)
    | (clear_value *; split)

theorem execWarpAck_touch (ch : Nat) (frame : WarpFrame) (s : State) : ∃ c, execWarpAck ch frame s = .next (s.settled c) ∧ Touch 0x107093e 0x180000000000000000000004082080000000000020000000000000000004 s.chip c := by
  refine ⟨_, rfl, ?_⟩
  generalize s.chip = c
  beta_reduce
  repeat' first
    | (with_reducible first | exact Touch.refl | assumption | apply Touch.step (Chip.warpReply_touch ..))
    | decide +kernel
    | split
    | (intro _; intros)
    | (clear_value *; split)

theorem execWarpFrameCrcFail_touch (ch : Nat) (s : State) : ∃ c, execWarpFrameCrcFail ch s = .next (s.settled c) ∧ Touch 0x107093e 0x180000000000000000000004082080000000000020000000000000000004 s.chip c := by
  refine ⟨_, rfl, ?_⟩
  generalize s.chip = c
  beta_reduce
  repeat' first
    | (with_reducible first | exact Touch.refl | assumption | apply Touch.step (Chip.warpBad_touch ..))
    | decide +kernel
    | split
    | (intro _; intros)
    | (clear_value *; split)

theorem execWarpAnswerTimeout_touch (ch : Nat) (s : State) : ∃ c, execWarpAnswerTimeout ch s = .next (s.settled c) ∧ Touch 0x107093e 0x180000000000000000000004082080000000000020000000000000000004 s.chip c := by
  refine ⟨_, rfl, ?_⟩
  generalize s.chip = c
  beta_reduce
  repeat' first
    | (with_reducible first | exact Touch.refl | assumption | apply Touch.step (Chip.warpLate_touch ..))
    | decide +kernel
    | split
    | (intro _; intros)
    | (clear_value *; split)

theorem execKeyPushAck_touch (s : State) : ∃ c, execKeyPushAck s = .next (s.settled c) ∧ Touch 0x103011c 0x180000000000000000000000080000000000000020000000000000000004 s.chip c := by
  refine ⟨_, rfl, ?_⟩
  generalize s.chip = c
  beta_reduce
  repeat' first
    | (with_reducible first | exact Touch.refl | assumption | apply Chip.onFrame_touch | apply Touch.step (Chip.pushAck_touch ..))
    | decide +kernel
    | split
    | (intro _; intros)
    | (clear_value *; split)

theorem execLimitReport_touch (ch : Nat) (frame : WarpFrame) (s : State) : ∃ c, execLimitReport ch frame s = .next (s.settled c) ∧ Touch 0x101010c 0x180000000000000000000000008300000000000000000000000000000004 s.chip c := by
  refine ⟨_, rfl, ?_⟩
  generalize s.chip = c
  beta_reduce
  repeat' first
    | (with_reducible first | exact Touch.refl | assumption | apply Touch.step (Chip.limitHit_touch ..) | apply Chip.report_touch)
    | decide +kernel
    | split
    | (intro _; intros)
    | (clear_value *; split)

theorem execJournalProgramDone_touch (good : Bool) (s : State) : ∃ c, execJournalProgramDone good s = .next (s.settled c) ∧ Touch 0x1090a 0x180000000000000000000000001c01000000000000000000000000000004 s.chip c := by
  refine ⟨_, rfl, ?_⟩
  generalize s.chip = c
  beta_reduce
  repeat' first
    | (with_reducible first | exact Touch.refl | assumption | apply Touch.step (Chip.jProgrammed_touch ..))
    | decide +kernel
    | split
    | (intro _; intros)
    | (clear_value *; split)

theorem execJournalSectorEraseDone_touch (s : State) : ∃ c, execJournalSectorEraseDone s = .next (s.settled c) ∧ Touch 0x10900 0x1000000000000000000000000000000000 s.chip c := by
  refine ⟨_, rfl, ?_⟩
  generalize s.chip = c
  beta_reduce
  repeat' first
    | (with_reducible first | exact Touch.refl | assumption | apply Touch.step (Chip.jErased_touch ..))
    | decide +kernel
    | split
    | (intro _; intros)
    | (clear_value *; split)

theorem execJournalSectorWaitTimeout_touch (s : State) : ∃ c, execJournalSectorWaitTimeout s = .next (s.settled c) ∧ Touch 0x101190c 0xc00180000000000000000000000000300010400000000000000000000000004 s.chip c := by
  refine ⟨_, rfl, ?_⟩
  generalize s.chip = c
  beta_reduce
  repeat' first
    | (with_reducible first | exact Touch.refl | assumption | apply Touch.step (Chip.holdsFail_touch ..) | apply Touch.step (Chip.jForget_touch ..))
    | decide +kernel
    | split
    | (intro _; intros)
    | (clear_value *; split)

theorem execBobbinRecordUncorrectable_touch (bobbin : Nat) (fromPartner : Bool) (s : State) : ∃ c, execBobbinRecordUncorrectable bobbin fromPartner s = .next (s.settled c) ∧ Touch 0x10108 0x180000000000000000000000010000000000000000000000000000000004 s.chip c := by
  refine ⟨_, rfl, ?_⟩
  generalize s.chip = c
  beta_reduce
  repeat' first
    | (fail_if_no_progress extract_lets +onlyGivenNames x; first | (revert x; intro (x : Chip); refine Touch.cut (d := x) ?_ (fun hx => ?_); subst x; rotate_left; try clear_value x) | (revert x; intro (x : Chip × _); refine Touch.cut (d := x.1) ?_ (fun hx => ?_); subst x; rotate_left; try clear_value x) | skip)
    | (with_reducible first | exact Touch.refl | assumption | apply Touch.put | apply Touch.step (Chip.cu_touch ..) | apply Touch.step (Chip.logBob_touch ..))
    | decide +kernel
    | split
    | (intro _; intros)
    | (clear_value *; split)

theorem execCacheRemask_touch (s : State) : ∃ c, execCacheRemask s = .next (s.settled c) ∧ Touch 0x50102 0x4000000000000000000000000000000000000 s.chip c := by
  refine ⟨_, rfl, ?_⟩
  generalize s.chip = c
  beta_reduce
  repeat' first
    | (fail_if_no_progress extract_lets +onlyGivenNames x; first | (revert x; intro (x : Chip); refine Touch.cut (d := x) ?_ (fun hx => ?_); subst x; rotate_left; try clear_value x) | (revert x; intro (x : Chip × _); refine Touch.cut (d := x.1) ?_ (fun hx => ?_); subst x; rotate_left; try clear_value x) | (revert x; intro (x : _ × Chip); refine Touch.cut (d := x.2) ?_ (fun hx => ?_); subst x; rotate_left; try clear_value x) | (revert x; intro (x : _ × _ × Chip); refine Touch.cut (d := x.2.2) ?_ (fun hx => ?_); subst x; rotate_left; try clear_value x) | skip)
    | (with_reducible first | exact Touch.refl | assumption | apply Touch.foldl | apply Touch.foldl_fst | apply Touch.step (Chip.cu_touch ..) | apply Touch.step (Chip.rnd_touch ..))
    | decide +kernel
    | split
    | (intro _; intros)
    | (clear_value *; split)

theorem execDstCacheFlush_touch (req : Req) (s : State) : ∃ c, execDstCacheFlush req s = .next (s.settled c) ∧ Touch 0x1014c 0x180000000000000000000000080000000000000000000000100000210004 s.chip c := by
  refine ⟨_, rfl, ?_⟩
  generalize s.chip = c
  beta_reduce
  repeat' first
    | (with_reducible first | exact Touch.refl | assumption | apply Touch.step (Chip.cacheDrop_touch ..) | apply Chip.guarded_touch | apply Touch.step (Chip.wrote_touch ..))
    | decide +kernel
    | split
    | (intro _; intros)
    | (clear_value *; split)

theorem execBobWarpClear_touch (req : Req) (mask : BitVec 8) (s : State) : ∃ c, execBobWarpClear req mask s = .next (s.settled c) ∧ Touch 0x1014c 0x180000000000000000000000002000000000000000000000100000210004 s.chip c := by
  refine ⟨_, rfl, ?_⟩
  generalize s.chip = c
  beta_reduce
  repeat' first
    | (with_reducible first | exact Touch.refl | assumption | apply Chip.guarded_touch | apply Touch.step (Chip.warpClear_touch ..) | apply Touch.step (Chip.wrote_touch ..))
    | decide +kernel
    | split
    | (intro _; intros)
    | (clear_value *; split)

theorem execDeadlineNear_touch (bobbin : Nat) (s : State) : ∃ c, execDeadlineNear bobbin s = .next (s.settled c) ∧ Touch 0x1090c 0x180000000000000000000000000080000000000000000000000000000004 s.chip c := by
  refine ⟨_, rfl, ?_⟩
  generalize s.chip = c
  beta_reduce
  repeat' first
    | (with_reducible first | exact Touch.refl | assumption | apply Touch.step (Chip.deadlineNear_touch ..))
    | decide +kernel
    | split
    | (intro _; intros)
    | (clear_value *; split)

theorem execDeadlinePassed_touch (bobbin : Nat) (s : State) : ∃ c, execDeadlinePassed bobbin s = .next (s.settled c) ∧ Touch 0x1090c 0x180000000000000000000000000080000000000000000000000000000004 s.chip c := by
  refine ⟨_, rfl, ?_⟩
  generalize s.chip = c
  beta_reduce
  repeat' first
    | (with_reducible first | exact Touch.refl | assumption | apply Touch.step (Chip.deadlinePast_touch ..))
    | decide +kernel
    | split
    | (intro _; intros)
    | (clear_value *; split)

end Sys2Proof.Machine
end

