-- ==== Sys2Proof/Laws/ExecDebug.lean ====
section
/-! SUPPORT. What each command of Machine/Debug.lean can change before what follows of itself: the two masks of `Touch` (Laws/Touch.lean). -/

set_option linter.unreachableTactic false
set_option linter.unusedTactic false
set_option linter.tactic.unusedName false
set_option linter.unnecessarySeqFocus false
set_option linter.unusedVariables false
set_option Elab.async false

namespace Sys2Proof.Machine

theorem execBypass_touch (s : State) : ∃ c, execBypass s = .next (s.after c) ∧ Touch 0x10c 0x180000000000000000000000000000000000000000000000000000000004 s.chip c := by
  refine ⟨_, rfl, ?_⟩
  generalize s.chip = c
  beta_reduce
  repeat' first
    | (with_reducible first | exact Touch.refl | assumption | apply Chip.jtagUse_touch | apply Touch.step (Chip.send_touch ..))
    | decide +kernel
    | split
    | (intro _; intros)
    | (clear_value *; split)

theorem execIdcode_touch (s : State) : ∃ c, execIdcode s = .next (s.after c) ∧ Touch 0x10c 0x180000000000000000000000000000000000000000000000000000000004 s.chip c := by
  refine ⟨_, rfl, ?_⟩
  generalize s.chip = c
  beta_reduce
  repeat' first
    | (with_reducible first | exact Touch.refl | assumption | apply Chip.jtagUse_touch | apply Touch.step (Chip.send_touch ..))
    | decide +kernel
    | split
    | (intro _; intros)
    | (clear_value *; split)

theorem execSamplePreload_touch (s : State) : ∃ c, execSamplePreload s = .next (s.after c) ∧ Touch 0x10c 0x180000000000000000000000000000000000000000000000000000000004 s.chip c := by
  refine ⟨_, rfl, ?_⟩
  generalize s.chip = c
  beta_reduce
  repeat' first
    | (with_reducible first | exact Touch.refl | assumption | apply Chip.jtagUse_touch)
    | decide +kernel
    | split
    | (intro _; intros)
    | (clear_value *; split)

theorem execDtmRov_touch (core : Nat) (op : DmiOp) (s : State) : ∃ c, execDtmRov core op s = .next (s.cutSettled c) ∧ Touch 0x7effffe 0xf5e4d1c263e03edb9d00803078f47c823d9810413f738c3f8048418d66205c034 s.chip c := by
  refine ⟨_, rfl, ?_⟩
  generalize s.chip = c
  generalize s.fuses = fu
  beta_reduce
  repeat' first
    | (with_reducible first | exact Touch.refl | assumption | apply Chip.jtagUse_touch | apply Touch.step (Chip.rovDmi_touch ..))
    | decide +kernel
    | split
    | (intro _; intros)
    | (clear_value *; split)

theorem execDtmSpn_touch (op : DmiOp) (s : State) : ∃ c, execDtmSpn op s = .next (s.cutSettled c) ∧ Touch 0x7effffe 0xf5e4d1c263e03edb9d00803078f47c823d9810413f738c3f8048418d66205c034 s.chip c := by
  refine ⟨_, rfl, ?_⟩
  generalize s.chip = c
  generalize s.fuses = fu
  beta_reduce
  repeat' first
    | (with_reducible first | exact Touch.refl | assumption | apply Chip.jtagUse_touch | apply Touch.step (Chip.spnDmi_touch ..))
    | decide +kernel
    | split
    | (intro _; intros)
    | (clear_value *; split)

theorem execOtpPort_touch (write : Bool) (sel : BitVec 4) (data : Word) (s : State) : ∃ c, execOtpPort write sel data s = .next (s.cutSettled c) ∧ Touch 0x7effffe 0xf5e4c1c223e03edb9d00803078f47c823d9810413f738c3f8040418d66205c034 s.chip c := by
  refine ⟨_, rfl, ?_⟩
  generalize s.chip = c
  generalize s.fuses = fu
  beta_reduce
  repeat' first
    | (with_reducible first | exact Touch.refl | assumption | apply Chip.jtagUse_touch | apply Touch.step (Chip.portScan_touch ..))
    | decide +kernel
    | split
    | (intro _; intros)
    | (clear_value *; split)

theorem execLcPort_touch (write : Bool) (sel : BitVec 4) (data : Word) (s : State) : ∃ c, execLcPort write sel data s = .next (s.cutSettled c) ∧ Touch 0x7effffe 0xf5e4c1c223e03edb9d00803078f47c823d9810413f738c3f8040418d66205c034 s.chip c := by
  refine ⟨_, rfl, ?_⟩
  generalize s.chip = c
  generalize s.fuses = fu
  beta_reduce
  repeat' first
    | (with_reducible first | exact Touch.refl | assumption | apply Chip.jtagUse_touch | apply Touch.step (Chip.portScan_touch ..))
    | decide +kernel
    | split
    | (intro _; intros)
    | (clear_value *; split)

theorem execEntRaw_touch (data samples : Word) (s : State) : ∃ c, execEntRaw data samples s = .next (s.after c) ∧ Touch 0x10c 0x180000000000000000000000000000000000000000000000000000000004 s.chip c := by
  refine ⟨_, rfl, ?_⟩
  generalize s.chip = c
  beta_reduce
  repeat' first
    | (fail_if_no_progress extract_lets +onlyGivenNames x; first | (revert x; intro (x : Chip); refine Touch.cut (d := x) ?_ (fun hx => ?_); subst x; rotate_left; try clear_value x) | (revert x; intro (x : Chip × _); refine Touch.cut (d := x.1) ?_ (fun hx => ?_); subst x; rotate_left; try clear_value x) | skip)
    | (with_reducible first | exact Touch.refl | assumption | apply Chip.jtagUse_touch | apply Touch.step (Chip.send_touch ..))
    | decide +kernel
    | (with_reducible apply Touch.upd) <;> first | (intro p; cases p <;> dsimp only [Part.same] <;> first | exact Or.inl (by decide +kernel) | exact Or.inr rfl) | (with_reducible first | exact Touch.refl | assumption | apply Chip.jtagUse_touch | apply Touch.step (Chip.send_touch ..)) | split
    | split
    | (intro _; intros)
    | (clear_value *; split)

theorem execHalt_touch (req : Req) (core : Nat) (s : State) : ∃ c, execHalt req core s = .next (s.settled c) ∧ Touch 0x114c 0x182000020038000000000000000000000000000000000000100000210004 s.chip c := by
  refine ⟨_, rfl, ?_⟩
  generalize s.chip = c
  beta_reduce
  repeat' first
    | (with_reducible first | exact Touch.refl | assumption | apply Chip.guarded_touch | apply Touch.step (Chip.haltReq_touch ..) | apply Touch.step (Chip.wrote_touch ..))
    | decide +kernel
    | split
    | (intro _; intros)
    | (clear_value *; split)

theorem execDbgStep_touch (req : Req) (core : Nat) (s : State) : ∃ c, execDbgStep req core s = .next (s.settled c) ∧ Touch 0x114c 0x182000000000000000000000000000000000000000000000100000210004 s.chip c := by
  refine ⟨_, rfl, ?_⟩
  generalize s.chip = c
  beta_reduce
  repeat' first
    | (with_reducible first | exact Touch.refl | assumption | apply Chip.guarded_touch | apply Touch.step (Chip.stepReq_touch ..) | apply Touch.step (Chip.wrote_touch ..))
    | decide +kernel
    | split
    | (intro _; intros)
    | (clear_value *; split)

theorem execDbgResume_touch (req : Req) (core : Nat) (s : State) : ∃ c, execDbgResume req core s = .next (s.settled c) ∧ Touch 0x114c 0x182000020038000000000000000000000000000000000000100000210004 s.chip c := by
  refine ⟨_, rfl, ?_⟩
  generalize s.chip = c
  beta_reduce
  repeat' first
    | (with_reducible first | exact Touch.refl | assumption | apply Chip.guarded_touch | apply Touch.step (Chip.resumeReq_touch ..) | apply Touch.step (Chip.wrote_touch ..))
    | decide +kernel
    | split
    | (intro _; intros)
    | (clear_value *; split)

theorem execBreakpointMatch_touch (core b pc : Nat) (s : State) : ∃ c, execBreakpointMatch core b pc s = .next (s.settled c) ∧ Touch 0x110c 0x182000020038000000000000000000000000000000000000000000000004 s.chip c := by
  refine ⟨_, rfl, ?_⟩
  generalize s.chip = c
  beta_reduce
  repeat' first
    | (with_reducible first | exact Touch.refl | assumption | apply Touch.step (Chip.breakAt_touch ..))
    | decide +kernel
    | split
    | (intro _; intros)
    | (clear_value *; split)

theorem execBreakRovClear_touch (req : Req) (s : State) : ∃ c, execBreakRovClear req s = .next (s.settled c) ∧ Touch 0x114c 0x20000182010000000000000000000000000000000000000000000100000210004 s.chip c := by
  refine ⟨_, rfl, ?_⟩
  generalize s.chip = c
  beta_reduce
  repeat' first
    | (with_reducible first | exact Touch.refl | assumption | apply Touch.step (Chip.breakOff_touch ..) | apply Chip.ctrlClear_touch)
    | decide +kernel
    | split
    | (intro _; intros)
    | (clear_value *; split)

theorem execTraceRovClear_touch (req : Req) (s : State) : ∃ c, execTraceRovClear req s = .next (s.settled c) ∧ Touch 0x8094c 0x100001800300380b8000000000000000000000000000000000000100000210004 s.chip c := by
  refine ⟨_, rfl, ?_⟩
  generalize s.chip = c
  beta_reduce
  repeat' first
    | (with_reducible first | exact Touch.refl | assumption | apply Chip.ctrlClear_touch | apply Touch.step (Chip.traceOff_touch ..))
    | decide +kernel
    | split
    | (intro _; intros)
    | (clear_value *; split)

theorem execCntRovClear_touch (req : Req) (s : State) : ∃ c, execCntRovClear req s = .next (s.settled c) ∧ Touch 0x8094c 0x10000180010038138000000000000000000000000000000000000100000210004 s.chip c := by
  refine ⟨_, rfl, ?_⟩
  generalize s.chip = c
  beta_reduce
  repeat' first
    | (with_reducible first | exact Touch.refl | assumption | apply Touch.step (Chip.counterOff_touch ..) | apply Chip.ctrlClear_touch)
    | decide +kernel
    | split
    | (intro _; intros)
    | (clear_value *; split)

theorem execTraceArm_touch (req : Req) (t : Nat) (s : State) : ∃ c, execTraceArm req t s = .next (s.settled c) ∧ Touch 0x14c 0x180000000000000000000000000000000000000000000000100000210004 s.chip c := by
  refine ⟨_, rfl, ?_⟩
  generalize s.chip = c
  beta_reduce
  repeat' first
    | (with_reducible first | exact Touch.refl | assumption | apply Touch.step (Chip.traceArm_touch ..) | apply Chip.traceBit_touch)
    | decide +kernel
    | split
    | (intro _; intros)
    | (clear_value *; split)

theorem execTraceTrigger_touch (t cause bp code : Nat) (s : State) : ∃ c, execTraceTrigger t cause bp code s = .next (s.settled c) ∧ Touch 0x108 0x180000000000000000000000000000000000000000000000000000000004 s.chip c := by
  refine ⟨_, rfl, ?_⟩
  generalize s.chip = c
  beta_reduce
  repeat' first
    | (fail_if_no_progress extract_lets +onlyGivenNames x; first | (revert x; intro (x : Chip); refine Touch.cut (d := x) ?_ (fun hx => ?_); subst x; rotate_left; try clear_value x) | (revert x; intro (x : Chip × _); refine Touch.cut (d := x.1) ?_ (fun hx => ?_); subst x; rotate_left; try clear_value x) | skip)
    | (with_reducible first | exact Touch.refl | assumption | apply Touch.step (Chip.fire_touch ..))
    | decide +kernel
    | split
    | (intro _; intros)
    | (clear_value *; split)

theorem execSwTrig_touch (req : Req) (t : Nat) (s : State) : ∃ c, execSwTrig req t s = .next (s.settled c) ∧ Touch 0x14c 0x180000000000000000000000000000000000000000000000100000210004 s.chip c := by
  refine ⟨_, rfl, ?_⟩
  generalize s.chip = c
  beta_reduce
  repeat' first
    | (with_reducible first | exact Touch.refl | assumption | apply Touch.step (Chip.fire_touch ..) | apply Chip.traceBit_touch)
    | decide +kernel
    | split
    | (intro _; intros)
    | (clear_value *; split)

theorem execTraceFlush_touch (req : Req) (t : Nat) (s : State) : ∃ c, execTraceFlush req t s = .next (s.settled c) ∧ Touch 0x14c 0x180000000000000000000000000000000000000000000000100000210004 s.chip c := by
  refine ⟨_, rfl, ?_⟩
  generalize s.chip = c
  beta_reduce
  repeat' first
    | (with_reducible first | exact Touch.refl | assumption | apply Chip.traceBit_touch | apply Touch.step (Chip.tracePad_touch ..))
    | decide +kernel
    | split
    | (intro _; intros)
    | (clear_value *; split)

theorem execTraceHoldTimer_touch (t : Nat) (s : State) : ∃ c, execTraceHoldTimer t s = .next (s.settled c) ∧ Touch 0x100 0x0 s.chip c := by
  refine ⟨_, rfl, ?_⟩
  generalize s.chip = c
  beta_reduce
  repeat' first
    | (with_reducible first | exact Touch.refl | assumption | apply Touch.step (Chip.tracePad_touch ..))
    | decide +kernel
    | split
    | (intro _; intros)
    | (clear_value *; split)

theorem execTracePortRead_touch (req : Req) (t : Nat) (s : State) : ∃ c, execTracePortRead req t s = .next (s.settled c) ∧ Touch 0x84114c 0x1180400000000000800000800000000010400000000000080100000210004 s.chip c := by
  refine ⟨_, rfl, ?_⟩
  generalize s.chip = c
  beta_reduce
  repeat' first
    | (with_reducible first | exact Touch.refl | assumption | apply Touch.step (Chip.fabricRead_touch ..))
    | decide +kernel
    | split
    | (intro _; intros)
    | (clear_value *; split)

theorem execSoftwareRecord_touch (core : Nat) (value : BitVec 64) (s : State) : ∃ c, execSoftwareRecord core value s = .next (s.settled c) ∧ Touch 0x108 0x180000000000000000000000000000000000000000000000000000000004 s.chip c := by
  refine ⟨_, rfl, ?_⟩
  generalize s.chip = c
  beta_reduce
  repeat' first
    | (with_reducible first | exact Touch.refl | assumption | apply Touch.step (Chip.trace_touch ..))
    | decide +kernel
    | split
    | (intro _; intros)
    | (clear_value *; split)

theorem execDbgSpnTraceWrite_touch (req : Req) (value : Word) (s : State) : ∃ c, execDbgSpnTraceWrite req value s = .next (s.settled c) ∧ Touch 0x14c 0x180000000000000000000000000000000000000000000000100000210004 s.chip c := by
  refine ⟨_, rfl, ?_⟩
  generalize s.chip = c
  beta_reduce
  repeat' first
    | (with_reducible first | exact Touch.refl | assumption | apply Chip.guarded_touch | apply Touch.step (Chip.spnTrace_touch ..) | apply Touch.step (Chip.wrote_touch ..))
    | decide +kernel
    | split
    | (intro _; intros)
    | (clear_value *; split)

theorem execCounterSample_touch (boundary : List (BitVec 8)) (s : State) : ∃ c, execCounterSample boundary s = .next (s.settled c) ∧ Touch 0x108 0x380000000000000000000000000000000000000000000000000000000004 s.chip c := by
  refine ⟨_, rfl, ?_⟩
  generalize s.chip = c
  beta_reduce
  repeat' first
    | (with_reducible first | exact Touch.refl | assumption | apply Touch.each | apply Touch.step (Chip.sampleGroup_touch ..))
    | decide +kernel
    | split
    | (intro _; intros)
    | (clear_value *; split)

theorem execSamplePortRead_touch (req : Req) (g : BitVec 3) (s : State) : ∃ c, execSamplePortRead req g s = .next (s.settled c) ∧ Touch 0x84114c 0x1180400000000000800000800000000010400000000000080100000210004 s.chip c := by
  refine ⟨_, rfl, ?_⟩
  generalize s.chip = c
  beta_reduce
  repeat' first
    | (with_reducible first | exact Touch.refl | assumption | apply Touch.step (Chip.fabricRead_touch ..))
    | decide +kernel
    | split
    | (intro _; intros)
    | (clear_value *; split)

theorem execCounterRead_touch (req : Req) (i : BitVec 6) (s : State) : ∃ c, execCounterRead req i s = .next (s.settled c) ∧ Touch 0x84114c 0x1180400000000000800000800000000010400000000000080100000210004 s.chip c := by
  refine ⟨_, rfl, ?_⟩
  generalize s.chip = c
  beta_reduce
  repeat' first
    | (with_reducible first | exact Touch.refl | assumption | apply Touch.step (Chip.fabricRead_touch ..))
    | decide +kernel
    | split
    | (intro _; intros)
    | (clear_value *; split)

theorem execNoilFreeze_touch (req : Req) (s : State) : ∃ c, execNoilFreeze req s = .next (s.settled c) ∧ Touch 0x14c 0x180200000000000000000000000000000000000000000000100000210004 s.chip c := by
  refine ⟨_, rfl, ?_⟩
  generalize s.chip = c
  beta_reduce
  repeat' first
    | (with_reducible first | exact Touch.refl | assumption | apply Touch.step (Chip.freezeNoil_touch ..) | apply Chip.guarded_touch | apply Touch.step (Chip.wrote_touch ..))
    | decide +kernel
    | split
    | (intro _; intros)
    | (clear_value *; split)

theorem execUnfreeze_touch (req : Req) (s : State) : ∃ c, execUnfreeze req s = .next (s.settled c) ∧ Touch 0x14c 0x180200000000000000000000000000000000000000000000100000210004 s.chip c := by
  refine ⟨_, rfl, ?_⟩
  generalize s.chip = c
  beta_reduce
  repeat' first
    | (with_reducible first | exact Touch.refl | assumption | apply Chip.guarded_touch | apply Touch.step (Chip.unfreeze_touch ..) | apply Touch.step (Chip.wrote_touch ..))
    | decide +kernel
    | split
    | (intro _; intros)
    | (clear_value *; split)

theorem execNoilDataRead_touch (req : Req) (s : State) : ∃ c, execNoilDataRead req s = .next (s.settled c) ∧ Touch 0x84114c 0x1180400000000000800000800000000010400000000000080100000210004 s.chip c := by
  refine ⟨_, rfl, ?_⟩
  generalize s.chip = c
  beta_reduce
  repeat' first
    | (with_reducible first | exact Touch.refl | assumption | apply Touch.step (Chip.fabricRead_touch ..))
    | decide +kernel
    | split
    | (intro _; intros)
    | (clear_value *; split)

theorem execGenEvtDataRead_touch (req : Req) (s : State) : ∃ c, execGenEvtDataRead req s = .next (s.settled c) ∧ Touch 0x84114c 0x1180400000000000800000800000000010400000000000080100000210004 s.chip c := by
  refine ⟨_, rfl, ?_⟩
  generalize s.chip = c
  beta_reduce
  repeat' first
    | (with_reducible first | exact Touch.refl | assumption | apply Touch.step (Chip.fabricRead_touch ..))
    | decide +kernel
    | split
    | (intro _; intros)
    | (clear_value *; split)

theorem execGenAevDataRead_touch (req : Req) (s : State) : ∃ c, execGenAevDataRead req s = .next (s.settled c) ∧ Touch 0x84114c 0x1180400000000000800000800000000010400000000000080100000210004 s.chip c := by
  refine ⟨_, rfl, ?_⟩
  generalize s.chip = c
  beta_reduce
  repeat' first
    | (with_reducible first | exact Touch.refl | assumption | apply Touch.step (Chip.fabricRead_touch ..))
    | decide +kernel
    | split
    | (intro _; intros)
    | (clear_value *; split)

end Sys2Proof.Machine
end

