-- ==== Sys2Proof/Laws/ExecDigest.lean ====
section
/-! SUPPORT. What each command of Machine/Digest.lean can change before what follows of itself: the two masks of `Touch` (Laws/Touch.lean). -/

set_option linter.unreachableTactic false
set_option linter.unusedTactic false
set_option linter.tactic.unusedName false
set_option linter.unnecessarySeqFocus false
set_option linter.unusedVariables false
set_option Elab.async false

namespace Sys2Proof.Machine

theorem execDgtOpen_touch (req : Req) (n : BitVec 6) (value : Word) (s : State) : ∃ c, execDgtOpen req n value s = .next (s.settled c) ∧ Touch 0x4014c 0x180000000000000000018c00000000000000000000000000100000250004 s.chip c := by
  refine ⟨_, rfl, ?_⟩
  generalize s.chip = c
  beta_reduce
  repeat' first
    | (with_reducible first | exact Touch.refl | assumption | apply Chip.cxCommand_touch | apply Touch.step (Chip.cxOpen_touch ..))
    | decide +kernel
    | split
    | (intro _; intros)
    | (clear_value *; split)

theorem execDgtFinal_touch (req : Req) (n : BitVec 6) (s : State) : ∃ c, execDgtFinal req n s = .next (s.settled c) ∧ Touch 0x4014c 0x180000000000000000000800000000000000000000000000100000250004 s.chip c := by
  refine ⟨_, rfl, ?_⟩
  generalize s.chip = c
  beta_reduce
  repeat' first
    | (with_reducible first | exact Touch.refl | assumption | apply Chip.cxCommand_touch | apply Touch.step (Chip.cxFinal_touch ..))
    | decide +kernel
    | split
    | (intro _; intros)
    | (clear_value *; split)

theorem execDgtClose_touch (req : Req) (n : BitVec 6) (s : State) : ∃ c, execDgtClose req n s = .next (s.settled c) ∧ Touch 0x4014c 0x4000180000000000000000018000000000000000000000000000100000210004 s.chip c := by
  refine ⟨_, rfl, ?_⟩
  generalize s.chip = c
  beta_reduce
  repeat' first
    | (with_reducible first | exact Touch.refl | assumption | apply Chip.cxCommand_touch | apply Touch.step (Chip.cxFree_touch ..))
    | decide +kernel
    | split
    | (intro _; intros)
    | (clear_value *; split)

theorem execDgtFeed_touch (req : Req) (n : BitVec 6) (data : List Byte) (s : State) : ∃ c, execDgtFeed req n data s = .next (s.settled c) ∧ Touch 0x4014c 0x180000000000000000000800000000000000000000000000100000210004 s.chip c := by
  refine ⟨_, rfl, ?_⟩
  generalize s.chip = c
  beta_reduce
  repeat' first
    | (fail_if_no_progress extract_lets +onlyGivenNames x; first | (revert x; intro (x : Chip); refine Touch.cut (d := x) ?_ (fun hx => ?_); subst x; rotate_left; try clear_value x) | (revert x; intro (x : Chip × _); refine Touch.cut (d := x.1) ?_ (fun hx => ?_); subst x; rotate_left; try clear_value x) | skip)
    | (with_reducible first | exact Touch.refl | assumption | apply Touch.step (Chip.cxFeed_touch ..) | apply Chip.guarded_touch | apply Touch.step (Chip.refuse_touch ..) | apply Touch.step (Chip.respond_touch ..))
    | decide +kernel
    | split
    | (intro _; intros)
    | (clear_value *; split)

theorem execDigestAbsorbed_touch (n : BitVec 6) (s : State) : ∃ c, execDigestAbsorbed n s = .next (s.settled c) ∧ Touch 0x40100 0x800000000000000000000000000000000000000 s.chip c := by
  refine ⟨_, rfl, ?_⟩
  generalize s.chip = c
  beta_reduce
  repeat' first
    | (with_reducible first | exact Touch.refl | assumption | apply Touch.step (Chip.cxAbsorb_touch ..))
    | decide +kernel
    | split
    | (intro _; intros)
    | (clear_value *; split)

theorem execDgtResultRead_touch (req : Req) (n : BitVec 6) (s : State) : ∃ c, execDgtResultRead req n s = .next (s.settled c) ∧ Touch 0x4014c 0x180000000000000000000800000000000000000000000000100000210004 s.chip c := by
  refine ⟨_, rfl, ?_⟩
  generalize s.chip = c
  beta_reduce
  repeat' first
    | (fail_if_no_progress extract_lets +onlyGivenNames x; first | (revert x; intro (x : Chip); refine Touch.cut (d := x) ?_ (fun hx => ?_); subst x; rotate_left; try clear_value x) | (revert x; intro (x : Chip × _); refine Touch.cut (d := x.1) ?_ (fun hx => ?_); subst x; rotate_left; try clear_value x) | skip)
    | (with_reducible first | exact Touch.refl | assumption | apply Touch.step (Chip.cxRead_touch ..) | apply Chip.guarded_touch | apply Touch.step (Chip.respond_touch ..))
    | decide +kernel
    | split
    | (intro _; intros)
    | (clear_value *; split)

end Sys2Proof.Machine
end

