-- ==== Sys2Proof/Laws/ExecDma.lean ====
section
/-! SUPPORT. What each command of Machine/Dma.lean can change before what follows of itself: the two masks of `Touch` (Laws/Touch.lean). -/

set_option linter.unreachableTactic false
set_option linter.unusedTactic false
set_option linter.tactic.unusedName false
set_option linter.unnecessarySeqFocus false
set_option linter.unusedVariables false
set_option Elab.async false

namespace Sys2Proof.Machine

theorem execDmaChTailWrite_touch (req : Req) (n : BitVec 5) (idx : BitVec 10) (s : State) : ∃ c, execDmaChTailWrite req n idx s = .next (s.settled c) ∧ Touch 0x8094c 0x180001fec038000000000000000000000000000000000000100000210004 s.chip c := by
  refine ⟨_, rfl, ?_⟩
  generalize s.chip = c
  beta_reduce
  repeat' first
    | (with_reducible first | exact Touch.refl | assumption | apply Touch.step (Chip.dmSkip_touch ..) | apply Touch.step (Chip.dmTail_touch ..) | apply Chip.guarded_touch | apply Touch.step (Chip.wrote_touch ..))
    | decide +kernel
    | split
    | (intro _; intros)
    | (clear_value *; split)

theorem execCopy_touch (n : BitVec 5) (s : State) : ∃ c, execCopy n s = .next (s.settled c) ∧ Touch 0x8090c 0x180001fe8038000000000000000000000000000000000000000000000004 s.chip c := by
  refine ⟨_, rfl, ?_⟩
  generalize s.chip = c
  beta_reduce
  repeat' first
    | (with_reducible first | exact Touch.refl | assumption | apply Touch.step (Chip.dmRow_touch ..))
    | decide +kernel
    | split
    | (intro _; intros)
    | (clear_value *; split)

theorem execFill_touch (n : BitVec 5) (s : State) : ∃ c, execFill n s = .next (s.settled c) ∧ Touch 0x8090c 0x180001fe8038000000000000000000000000000000000000000000000004 s.chip c := by
  refine ⟨_, rfl, ?_⟩
  generalize s.chip = c
  beta_reduce
  repeat' first
    | (with_reducible first | exact Touch.refl | assumption | apply Touch.step (Chip.dmRow_touch ..))
    | decide +kernel
    | split
    | (intro _; intros)
    | (clear_value *; split)

theorem execGather_touch (n : BitVec 5) (table : List Nat) (s : State) : ∃ c, execGather n table s = .next (s.settled c) ∧ Touch 0x8090c 0x180001fe8038000000000000000000000000000000000000000000000004 s.chip c := by
  refine ⟨_, rfl, ?_⟩
  generalize s.chip = c
  beta_reduce
  repeat' first
    | (with_reducible first | exact Touch.refl | assumption | apply Touch.step (Chip.dmRow_touch ..))
    | decide +kernel
    | split
    | (intro _; intros)
    | (clear_value *; split)

theorem execScatter_touch (n : BitVec 5) (table : List Nat) (s : State) : ∃ c, execScatter n table s = .next (s.settled c) ∧ Touch 0x8090c 0x180001fe8038000000000000000000000000000000000000000000000004 s.chip c := by
  refine ⟨_, rfl, ?_⟩
  generalize s.chip = c
  beta_reduce
  repeat' first
    | (with_reducible first | exact Touch.refl | assumption | apply Touch.step (Chip.dmRow_touch ..))
    | decide +kernel
    | split
    | (intro _; intros)
    | (clear_value *; split)

theorem execDmaRequestLine_touch (line : BitVec 6) (data : List Byte) (s : State) : ∃ c, execDmaRequestLine line data s = .next (s.cutSettled c) ∧ Touch 0x7fffffe 0xf5e4d1c263fffedb9d00803078f47c823d9810413f738c3f8048418d66205c034 s.chip c := by
  refine ⟨_, rfl, ?_⟩
  generalize s.chip = c
  generalize s.fuses = fu
  beta_reduce
  repeat' first
    | (with_reducible first | exact Touch.refl | assumption | apply Touch.step (Chip.dmRequest_touch ..))
    | decide +kernel
    | split
    | (intro _; intros)
    | (clear_value *; split)

theorem execDmaDescriptorDone_touch (n : BitVec 5) (data : List Byte) (s : State) : ∃ c, execDmaDescriptorDone n data s = .next (s.cutSettled c) ∧ Touch 0x7fffffe 0xf5e4d1c263fffedb9d00803078f47c823d9810413f738c3f8048418d66205c034 s.chip c := by
  refine ⟨_, rfl, ?_⟩
  generalize s.chip = c
  generalize s.fuses = fu
  beta_reduce
  repeat' first
    | (with_reducible first | exact Touch.refl | assumption | apply Touch.step (Chip.dmComplete_touch ..))
    | decide +kernel
    | split
    | (intro _; intros)
    | (clear_value *; split)

theorem execDmaSwreq_touch (req : Req) (mask : BitVec 16) (s : State) : ∃ c, execDmaSwreq req mask s = .next (s.settled c) ∧ Touch 0x14c 0x180000000c00000000000000000000000000000000000000100000210004 s.chip c := by
  refine ⟨_, rfl, ?_⟩
  generalize s.chip = c
  beta_reduce
  repeat' first
    | (with_reducible first | exact Touch.refl | assumption | apply Touch.step (Chip.dmSwreq_touch ..) | apply Chip.guarded_touch | apply Touch.step (Chip.wrote_touch ..))
    | decide +kernel
    | split
    | (intro _; intros)
    | (clear_value *; split)

theorem execDmaPause_touch (req : Req) (n : BitVec 5) (on : Bool) (s : State) : ∃ c, execDmaPause req n on s = .next (s.settled c) ∧ Touch 0x14c 0x180000030038000000000000000000000000000000000000100000210004 s.chip c := by
  refine ⟨_, rfl, ?_⟩
  generalize s.chip = c
  beta_reduce
  repeat' first
    | (with_reducible first | exact Touch.refl | assumption | apply Touch.step (Chip.dmPause_touch ..) | apply Chip.guarded_touch | apply Touch.step (Chip.wrote_touch ..))
    | decide +kernel
    | split
    | (intro _; intros)
    | (clear_value *; split)

theorem execDmaPauseDrained_touch (m : DmaMove) (s : State) : ∃ c, execDmaPauseDrained m s = .next (s.cutSettled c) ∧ Touch 0x7fffffe 0xf5e4d1c263fffedb9d00803078f47c823d9810413f738c3f8048418d66205c034 s.chip c := by
  refine ⟨_, rfl, ?_⟩
  generalize s.chip = c
  generalize s.fuses = fu
  beta_reduce
  repeat' first
    | (with_reducible first | exact Touch.refl | assumption | apply Touch.step (Chip.dmPaused_touch ..))
    | decide +kernel
    | split
    | (intro _; intros)
    | (clear_value *; split)

theorem execDmaAbort_touch (req : Req) (n : BitVec 5) (s : State) : ∃ c, execDmaAbort req n s = .next (s.settled c) ∧ Touch 0x8094c 0x10000180000028038000000000000000000000000000000000000100000210004 s.chip c := by
  refine ⟨_, rfl, ?_⟩
  generalize s.chip = c
  beta_reduce
  repeat' first
    | (with_reducible first | exact Touch.refl | assumption | apply Touch.step (Chip.dmAbort_touch ..) | apply Chip.guarded_touch | apply Touch.step (Chip.wrote_touch ..))
    | decide +kernel
    | split
    | (intro _; intros)
    | (clear_value *; split)

theorem execDmaBusError_touch (n : BitVec 5) (cause addr : Nat) (wr index : Bool) (late : Option Nat) (moves : List DmaMove) (s : State) : ∃ c, execDmaBusError n cause addr wr index late moves s = .next (s.cutSettled c) ∧ Touch 0x7fffffe 0xf5e4d1c263fffedb9d00803078f47c823d9810413f738c3f8048418d66205c034 s.chip c := by
  refine ⟨_, rfl, ?_⟩
  generalize s.chip = c
  generalize s.fuses = fu
  beta_reduce
  repeat' first
    | (with_reducible first | exact Touch.refl | assumption | apply Touch.step (Chip.dmBusError_touch ..))
    | decide +kernel
    | split
    | (intro _; intros)
    | (clear_value *; split)

theorem execDmaRelease_touch (req : Req) (mask : Word) (s : State) : ∃ c, execDmaRelease req mask s = .next (s.settled c) ∧ Touch 0x14c 0x180000020038000000000000000000000000000000000000100000210004 s.chip c := by
  refine ⟨_, rfl, ?_⟩
  generalize s.chip = c
  beta_reduce
  repeat' first
    | (with_reducible first | exact Touch.refl | assumption | apply Touch.step (Chip.dmRelease_touch ..) | apply Chip.guarded_touch | apply Touch.step (Chip.wrote_touch ..))
    | decide +kernel
    | split
    | (intro _; intros)
    | (clear_value *; split)

theorem execDmaClear_touch (req : Req) (n : BitVec 5) (s : State) : ∃ c, execDmaClear req n s = .next (s.settled c) ∧ Touch 0x14c 0x18000e020038000000000000000000000000000000000000100000210004 s.chip c := by
  refine ⟨_, rfl, ?_⟩
  generalize s.chip = c
  beta_reduce
  repeat' first
    | (fail_if_no_progress extract_lets +onlyGivenNames x; first | (revert x; intro (x : Chip); refine Touch.cut (d := x) ?_ (fun hx => ?_); subst x; rotate_left; try clear_value x) | (revert x; intro (x : Chip × _); refine Touch.cut (d := x.1) ?_ (fun hx => ?_); subst x; rotate_left; try clear_value x) | skip)
    | (with_reducible first | exact Touch.refl | assumption | apply Touch.step (Chip.dmClear_touch ..) | apply Chip.guarded_touch | apply Touch.step (Chip.wrote_touch ..))
    | decide +kernel
    | split
    | (intro _; intros)
    | (clear_value *; split)

theorem execFencingDone_touch (core pc : Nat) (s : State) : ∃ c, execFencingDone core pc s = .next (s.cutSettled c) ∧ Touch 0x7fffffe 0xf7e4c1c223e03edb9d00803078f47c823d9810413f738c3f8040418d66205c034 s.chip c := by
  refine ⟨_, rfl, ?_⟩
  generalize s.chip = c
  generalize s.fuses = fu
  beta_reduce
  repeat' first
    | (with_reducible first | exact Touch.refl | assumption | apply Touch.step (Chip.fenceDone_touch ..) | apply Touch.step (Chip.fenceDrain_touch ..))
    | decide +kernel
    | split
    | (intro _; intros)
    | (clear_value *; split)

theorem execDmaParityError_touch (n : BitVec 5) (s : State) : ∃ c, execDmaParityError n s = .next (s.settled c) ∧ Touch 0x8090c 0x1000018000e028038000000000000000000000000000000000000000000000004 s.chip c := by
  refine ⟨_, rfl, ?_⟩
  generalize s.chip = c
  beta_reduce
  repeat' first
    | (with_reducible first | exact Touch.refl | assumption | apply Touch.step (Chip.dmParity_touch ..))
    | decide +kernel
    | split
    | (intro _; intros)
    | (clear_value *; split)

theorem execDmaChannelEnable_touch (req : Req) (n : BitVec 5) (s : State) : ∃ c, execDmaChannelEnable req n s = .next (s.settled c) ∧ Touch 0x14c 0x180000022038000000000000000000000000000000000000100000210004 s.chip c := by
  refine ⟨_, rfl, ?_⟩
  generalize s.chip = c
  beta_reduce
  repeat' first
    | (with_reducible first | exact Touch.refl | assumption | apply Touch.step (Chip.dmEnable_touch ..) | apply Chip.guarded_touch | apply Touch.step (Chip.wrote_touch ..))
    | decide +kernel
    | split
    | (intro _; intros)
    | (clear_value *; split)

end Sys2Proof.Machine
end

