-- ==== Sys2Proof/Laws/ExecHanks.lean ====
section
/-! SUPPORT. What each command of Machine/Hanks.lean can change before what follows of itself: the two masks of `Touch` (Laws/Touch.lean). -/

set_option linter.unreachableTactic false
set_option linter.unusedTactic false
set_option linter.tactic.unusedName false
set_option linter.unnecessarySeqFocus false
set_option linter.unusedVariables false
set_option Elab.async false

namespace Sys2Proof.Machine

theorem execHankCreate_touch (n : Nat) (genuine : Bool) (s : State) : ∃ c, execHankCreate n genuine s = .next (s.settled c) ∧ Touch 0x1cb193c 0x30c001820300381b8000283d00000188300010403000022000000000000000004 s.chip c := by
  refine ⟨_, rfl, ?_⟩
  generalize s.chip = c
  beta_reduce
  repeat' first
    | (with_reducible first | exact Touch.refl | assumption | apply Touch.step (Chip.onObjCall_touch ..))
    | decide +kernel
    | split
    | (intro _; intros)
    | (clear_value *; split)

theorem execHankTeardown_touch (n : Nat) (genuine : Bool) (s : State) : ∃ c, execHankTeardown n genuine s = .next (s.settled c) ∧ Touch 0x1cb193c 0x30c001820300381b8000283d00000188300010403000022000000000000000004 s.chip c := by
  refine ⟨_, rfl, ?_⟩
  generalize s.chip = c
  beta_reduce
  repeat' first
    | (with_reducible first | exact Touch.refl | assumption | apply Touch.step (Chip.onObjCall_touch ..))
    | decide +kernel
    | split
    | (intro _; intros)
    | (clear_value *; split)

theorem execCeremonyShare_touch (n : Nat) (genuine : Bool) (s : State) : ∃ c, execCeremonyShare n genuine s = .next (s.settled c) ∧ Touch 0x1cb193c 0x30c001820300381b8000283d00000188300010403000022000000000000000004 s.chip c := by
  refine ⟨_, rfl, ?_⟩
  generalize s.chip = c
  beta_reduce
  repeat' first
    | (with_reducible first | exact Touch.refl | assumption | apply Touch.step (Chip.onObjCall_touch ..))
    | decide +kernel
    | split
    | (intro _; intros)
    | (clear_value *; split)

theorem execConsent_touch (n : Nat) (genuine : Bool) (s : State) : ∃ c, execConsent n genuine s = .next (s.settled c) ∧ Touch 0x1cb193c 0x30c001820300381b8000283d00000188300010403000022000000000000000004 s.chip c := by
  refine ⟨_, rfl, ?_⟩
  generalize s.chip = c
  beta_reduce
  repeat' first
    | (with_reducible first | exact Touch.refl | assumption | apply Touch.step (Chip.onObjCall_touch ..))
    | decide +kernel
    | split
    | (intro _; intros)
    | (clear_value *; split)

theorem execWithdrawObject_touch (n : Nat) (s : State) : ∃ c, execWithdrawObject n s = .next (s.settled c) ∧ Touch 0x1cb193c 0x30c001820300381b8000283d00000188300010403000022000000000000000004 s.chip c := by
  refine ⟨_, rfl, ?_⟩
  generalize s.chip = c
  beta_reduce
  repeat' first
    | (with_reducible first | exact Touch.refl | assumption | apply Touch.step (Chip.onObjCall_touch ..))
    | decide +kernel
    | split
    | (intro _; intros)
    | (clear_value *; split)

theorem execStrandSet_touch (n : Nat) (s : State) : ∃ c, execStrandSet n s = .next (s.settled c) ∧ Touch 0x1cb193c 0x30c001820300381b8000283d00000188300010403000022000000000000000004 s.chip c := by
  refine ⟨_, rfl, ?_⟩
  generalize s.chip = c
  beta_reduce
  repeat' first
    | (with_reducible first | exact Touch.refl | assumption | apply Touch.step (Chip.onObjCall_touch ..))
    | decide +kernel
    | split
    | (intro _; intros)
    | (clear_value *; split)

theorem execOwnerEndorsement_touch (n : Nat) (genuine : Bool) (s : State) : ∃ c, execOwnerEndorsement n genuine s = .next (s.settled c) ∧ Touch 0x1cb193c 0x30c001820300381b8000283d00000188300010403000022000000000000000004 s.chip c := by
  refine ⟨_, rfl, ?_⟩
  generalize s.chip = c
  beta_reduce
  repeat' first
    | (with_reducible first | exact Touch.refl | assumption | apply Touch.step (Chip.onObjCall_touch ..))
    | decide +kernel
    | split
    | (intro _; intros)
    | (clear_value *; split)

theorem execObjectExpiry_touch (i : Nat) (s : State) : ∃ c, execObjectExpiry i s = .next (s.settled c) ∧ Touch 0x411908 0x180010000000000000000000100000000000000000000000000000000004 s.chip c := by
  refine ⟨_, rfl, ?_⟩
  generalize s.chip = c
  beta_reduce
  repeat' first
    | (with_reducible first | exact Touch.refl | assumption | apply Touch.step (Chip.objExpire_touch ..))
    | decide +kernel
    | split
    | (intro _; intros)
    | (clear_value *; split)

theorem execHankKeying_touch (h : BitVec 4) (s : State) : ∃ c, execHankKeying h s = .next (s.settled c) ∧ Touch 0x1cf193e 0x380001820300381b9d00870c00004188300000003000022000000000000070004 s.chip c := by
  refine ⟨_, rfl, ?_⟩
  generalize s.chip = c
  beta_reduce
  repeat' first
    | (with_reducible first | exact Touch.refl | assumption | apply Chip.hankSteps_touch | apply Touch.step (Chip.tallyAbort_touch ..))
    | decide +kernel
    | split
    | (intro _; intros)
    | (clear_value *; split)

theorem execHankTearing_touch (h : BitVec 4) (s : State) : ∃ c, execHankTearing h s = .next (s.settled c) ∧ Touch 0x1cf193e 0x380001820300381b9d00870c00004188300000003000022000000000000070004 s.chip c := by
  refine ⟨_, rfl, ?_⟩
  generalize s.chip = c
  beta_reduce
  repeat' first
    | (with_reducible first | exact Touch.refl | assumption | apply Chip.hankSteps_touch | apply Touch.step (Chip.tallyAbort_touch ..))
    | decide +kernel
    | split
    | (intro _; intros)
    | (clear_value *; split)

theorem execConsentEndSlot_touch (h : BitVec 4) (kind : Nat) (s : State) : ∃ c, execConsentEndSlot h kind s = .next (s.settled c) ∧ Touch 0x14b191c 0x300001820300381b8000000000000080300000000000022000000000000000004 s.chip c := by
  refine ⟨_, rfl, ?_⟩
  generalize s.chip = c
  beta_reduce
  repeat' first
    | (with_reducible first | exact Touch.refl | assumption | apply Touch.step (Chip.consentEnd_touch ..))
    | decide +kernel
    | split
    | (intro _; intros)
    | (clear_value *; split)

theorem execScrubDigest_touch (s : State) : ∃ c, execScrubDigest s = .next (s.settled c) ∧ Touch 0x1c5813e 0x180000000000000203800004000000000003000000000000000000004184 s.chip c := by
  refine ⟨_, rfl, ?_⟩
  generalize s.chip = c
  beta_reduce
  repeat' first
    | (with_reducible first | exact Touch.refl | assumption | apply Chip.onFrame_touch | apply Touch.step (Chip.scrubbed_touch ..))
    | decide +kernel
    | split
    | (intro _; intros)
    | (clear_value *; split)

theorem execScrubTimeout_touch (h : BitVec 4) (die : Nat) (s : State) : ∃ c, execScrubTimeout h die s = .next (s.settled c) ∧ Touch 0x1c5813e 0x180000000000000203800004000000000003000000000000000000004184 s.chip c := by
  refine ⟨_, rfl, ?_⟩
  generalize s.chip = c
  beta_reduce
  repeat' first
    | (with_reducible first | exact Touch.refl | assumption | apply Touch.step (Chip.scrubFail_touch ..))
    | decide +kernel
    | split
    | (intro _; intros)
    | (clear_value *; split)

theorem execQuietReplyRelease_touch (i : Nat) (s : State) : ∃ c, execQuietReplyRelease i s = .next (s.settled c) ∧ Touch 0x3c7993e 0xc00180000000000000003800004180300010403003822000000000000004184 s.chip c := by
  refine ⟨_, rfl, ?_⟩
  generalize s.chip = c
  beta_reduce
  repeat' first
    | (fail_if_no_progress extract_lets +onlyGivenNames x; first | (revert x; intro (x : Chip); refine Touch.cut (d := x) ?_ (fun hx => ?_); subst x; rotate_left; try clear_value x) | (revert x; intro (x : Chip × _); refine Touch.cut (d := x.1) ?_ (fun hx => ?_); subst x; rotate_left; try clear_value x) | skip)
    | (with_reducible first | exact Touch.refl | assumption | apply Touch.step (Chip.doEff_touch ..) | apply Touch.step (Chip.log_touch ..))
    | decide +kernel
    | (with_reducible apply Touch.upd) <;> first | (intro p; cases p <;> dsimp only [Part.same] <;> first | exact Or.inl (by decide +kernel) | exact Or.inr rfl) | (with_reducible first | exact Touch.refl | assumption | apply Touch.step (Chip.doEff_touch ..) | apply Touch.step (Chip.log_touch ..)) | split
    | split
    | (intro _; intros)
    | (clear_value *; split)

end Sys2Proof.Machine
end

