-- ==== Sys2Proof/Laws/ExecKeyed.lean ====
section
/-! SUPPORT. What each command of Machine/Keyed.lean can change before what follows of itself: the two masks of `Touch` (Laws/Touch.lean). -/

set_option linter.unreachableTactic false
set_option linter.unusedTactic false
set_option linter.tactic.unusedName false
set_option linter.unnecessarySeqFocus false
set_option linter.unusedVariables false
set_option Elab.async false

namespace Sys2Proof.Machine

theorem execRootUpdate_touch (ch : Nat) (frame : WarpFrame) (s : State) : ∃ c, execRootUpdate ch frame s = .next (s.settled c) ∧ Touch 0x101010c 0x180000000000000000000000000000000003000000000000000000000004 s.chip c := by
  refine ⟨_, rfl, ?_⟩
  generalize s.chip = c
  beta_reduce
  repeat' first
    | (with_reducible first | exact Touch.refl | assumption | apply Touch.step (Chip.rootUpdate_touch ..))
    | decide +kernel
    | split
    | (intro _; intros)
    | (clear_value *; split)

theorem execRootStorePatrol_touch (tree : Nat) (double : Bool) (s : State) : ∃ c, execRootStorePatrol tree double s = .next (s.settled c) ∧ Touch 0x10108 0x180000000000000000000000000000000000000000000000000000000004 s.chip c := by
  refine ⟨_, rfl, ?_⟩
  generalize s.chip = c
  beta_reduce
  repeat' first
    | (with_reducible first | exact Touch.refl | assumption | apply Touch.step (Chip.rootPatrol_touch ..))
    | decide +kernel
    | split
    | (intro _; intros)
    | (clear_value *; split)

theorem execRootRepairDone_touch (tree : Nat) (good : Bool) (bytes : List Byte) (s : State) : ∃ c, execRootRepairDone tree good bytes s = .next (s.settled c) ∧ Touch 0x143091c 0x180000000000000000000000180380000003000022000000000000000004 s.chip c := by
  refine ⟨_, rfl, ?_⟩
  generalize s.chip = c
  beta_reduce
  repeat' first
    | (with_reducible first | exact Touch.refl | assumption | apply Touch.step (Chip.rootRepaired_touch ..))
    | decide +kernel
    | split
    | (intro _; intros)
    | (clear_value *; split)

theorem execFaultReport_touch (ch : Nat) (frame : WarpFrame) (s : State) : ∃ c, execFaultReport ch frame s = .next (s.settled c) ∧ Touch 0x101091c 0x180000000000000000000000000080000000000000000000000000000004 s.chip c := by
  refine ⟨_, rfl, ?_⟩
  generalize s.chip = c
  beta_reduce
  repeat' first
    | (with_reducible first | exact Touch.refl | assumption | apply Touch.step (Chip.faultReport_touch ..) | apply Chip.report_touch)
    | decide +kernel
    | split
    | (intro _; intros)
    | (clear_value *; split)

theorem execComplexResetAnnounce_touch (ch : Nat) (frame : WarpFrame) (s : State) : ∃ c, execComplexResetAnnounce ch frame s = .next (s.settled c) ∧ Touch 0x103090c 0x180000000000000000000000002080000000000020000000000000000004 s.chip c := by
  refine ⟨_, rfl, ?_⟩
  generalize s.chip = c
  beta_reduce
  repeat' first
    | (with_reducible first | exact Touch.refl | assumption | apply Touch.step (Chip.complexReset_touch ..) | apply Chip.report_touch)
    | decide +kernel
    | split
    | (intro _; intros)
    | (clear_value *; split)

theorem execBoundaryReport_touch (ch : Nat) (frame : WarpFrame) (s : State) : ∃ c, execBoundaryReport ch frame s = .next (s.settled c) ∧ Touch 0x101090c 0x180000000000000000000000000080000003000000000000000000000004 s.chip c := by
  refine ⟨_, rfl, ?_⟩
  generalize s.chip = c
  beta_reduce
  repeat' first
    | (with_reducible first | exact Touch.refl | assumption | apply Touch.step (Chip.boundaryReport_touch ..) | apply Chip.report_touch)
    | decide +kernel
    | split
    | (intro _; intros)
    | (clear_value *; split)

theorem execPeerEpochReport_touch (ch : Nat) (frame : WarpFrame) (s : State) : ∃ c, execPeerEpochReport ch frame s = .next (s.settled c) ∧ Touch 0x101090c 0x180000000000000000000000000080000000000000000000000000000004 s.chip c := by
  refine ⟨_, rfl, ?_⟩
  generalize s.chip = c
  beta_reduce
  repeat' first
    | (with_reducible first | exact Touch.refl | assumption | apply Touch.step (Chip.peerEpoch_touch ..) | apply Chip.report_touch)
    | decide +kernel
    | split
    | (intro _; intros)
    | (clear_value *; split)

end Sys2Proof.Machine
end

