-- ==== Sys2Proof/Laws/ExecLanes.lean ====
section
/-! SUPPORT. What each command of Machine/Lanes.lean can change before what follows of itself: the two masks of `Touch` (Laws/Touch.lean). -/

set_option linter.unreachableTactic false
set_option linter.unusedTactic false
set_option linter.tactic.unusedName false
set_option linter.unnecessarySeqFocus false
set_option linter.unusedVariables false
set_option Elab.async false

namespace Sys2Proof.Machine

theorem execEntropyHealthFail_touch (source : Bool) (window : List Byte) (s : State) : ∃ c, execEntropyHealthFail source window s = .next (s.cutSettled c) ∧ Touch 0x7effbfe 0x84200180200000001d0080001830600008100000000000000000000c402050034 s.chip c := by
  refine ⟨_, rfl, ?_⟩
  generalize s.chip = c
  beta_reduce
  repeat' first
    | (with_reducible first | exact Touch.refl | assumption | apply Touch.step (Chip.entHealth_touch ..))
    | decide +kernel
    | split
    | (intro _; intros)
    | (clear_value *; split)

theorem execEntropyRetestDone_touch (source : Bool) (window : List Byte) (s : State) : ∃ c, execEntropyRetestDone source window s = .next (s.cutSettled c) ∧ Touch 0x7effbfe 0x84200180200000001d0080001830600008100000000000000000000c402050034 s.chip c := by
  refine ⟨_, rfl, ?_⟩
  generalize s.chip = c
  beta_reduce
  repeat' first
    | (with_reducible first | exact Touch.refl | assumption | apply Touch.step (Chip.entTested_touch ..))
    | decide +kernel
    | split
    | (intro _; intros)
    | (clear_value *; split)

theorem execEntropyCalibrate_touch (req : Req) (source : Bool) (s : State) : ∃ c, execEntropyCalibrate req source s = .next (s.settled c) ∧ Touch 0x14c 0x180000000000000000000002000000000000000000000000100000210004 s.chip c := by
  refine ⟨_, rfl, ?_⟩
  generalize s.chip = c
  beta_reduce
  repeat' first
    | (with_reducible first | exact Touch.refl | assumption | apply Touch.step (Chip.entCalibrate_touch ..) | apply Chip.guarded_touch | apply Touch.step (Chip.wrote_touch ..))
    | decide +kernel
    | split
    | (intro _; intros)
    | (clear_value *; split)

theorem execDrbgKatFail_touch (s : State) : ∃ c, execDrbgKatFail s = .next (s.cutSettled c) ∧ Touch 0x7effbfe 0x84200180200000001d0080001830400008100000000000000000000c402050034 s.chip c := by
  refine ⟨_, rfl, ?_⟩
  generalize s.chip = c
  beta_reduce
  repeat' first
    | (with_reducible first | exact Touch.refl | assumption | apply Touch.step (Chip.katFail_touch ..))
    | decide +kernel
    | split
    | (intro _; intros)
    | (clear_value *; split)

theorem execSelftestRequest_touch (req : Req) (cls lane : BitVec 4) (s : State) : ∃ c, execSelftestRequest req cls lane s = .next (s.settled c) ∧ Touch 0x4014c 0x180000000000000000000001c00000000000000000000000100000250004 s.chip c := by
  refine ⟨_, rfl, ?_⟩
  generalize s.chip = c
  beta_reduce
  repeat' first
    | (with_reducible first | exact Touch.refl | assumption | apply Chip.guarded_touch | apply Touch.step (Chip.laneAsk_touch ..) | apply Touch.step (Chip.wrote_touch ..))
    | decide +kernel
    | split
    | (intro _; intros)
    | (clear_value *; split)

theorem execSelftestPeriodic_touch (s : State) : ∃ c, execSelftestPeriodic s = .next (s.settled c) ∧ Touch 0x40108 0x180000000000000000000000c00000000000000000000000000000050004 s.chip c := by
  refine ⟨_, rfl, ?_⟩
  generalize s.chip = c
  beta_reduce
  repeat' first
    | (with_reducible first | exact Touch.refl | assumption | apply Touch.step (Chip.lanePeriod_touch ..))
    | decide +kernel
    | split
    | (intro _; intros)
    | (clear_value *; split)

theorem execLaneDrained_touch (cls lane : Nat) (s : State) : ∃ c, execLaneDrained cls lane s = .next (s.settled c) ∧ Touch 0x100 0xc00000000000000000000000000000000000 s.chip c := by
  refine ⟨_, rfl, ?_⟩
  generalize s.chip = c
  beta_reduce
  repeat' first
    | (with_reducible first | exact Touch.refl | assumption | apply Touch.step (Chip.laneSet_touch ..))
    | decide +kernel
    | split
    | (intro _; intros)
    | (clear_value *; split)

theorem execLaneTestDone_touch (cls lane : Nat) (pass : Bool) (s : State) : ∃ c, execLaneTestDone cls lane pass s = .next (s.cutSettled c) ∧ Touch 0x7effbfe 0x84200180200000001d00800018305c0008100000000000000000000c402050034 s.chip c := by
  refine ⟨_, rfl, ?_⟩
  generalize s.chip = c
  beta_reduce
  repeat' first
    | (with_reducible first | exact Touch.refl | assumption | apply Touch.step (Chip.laneTested_touch ..))
    | decide +kernel
    | split
    | (intro _; intros)
    | (clear_value *; split)

theorem execLaneFault_touch (cls lane : Nat) (unit : LaneUnit) (s : State) : ∃ c, execLaneFault cls lane unit s = .next (s.settled c) ∧ Touch 0x4090e 0x180000000000400800000b04c00000000000000000000000000000000004 s.chip c := by
  refine ⟨_, rfl, ?_⟩
  generalize s.chip = c
  beta_reduce
  repeat' first
    | (with_reducible first | exact Touch.refl | assumption | apply Touch.step (Chip.laneFault_touch ..))
    | decide +kernel
    | split
    | (intro _; intros)
    | (clear_value *; split)

end Sys2Proof.Machine
end

