-- ==== Sys2Proof/Laws/ExecLifecycle.lean ====
section
/-! SUPPORT. What each command of Machine/Lifecycle.lean can change before what follows of itself: the two masks of `Touch` (Laws/Touch.lean). -/

set_option linter.unreachableTactic false
set_option linter.unusedTactic false
set_option linter.tactic.unusedName false
set_option linter.unnecessarySeqFocus false
set_option linter.unusedVariables false
set_option Elab.async false

namespace Sys2Proof.Machine

theorem execFuseSensingDone_touch (drift : List (Nat × Cells)) (time : Nat) (s : State) : ∃ c, execFuseSensingDone drift time s = .next (s.after c) ∧ Touch 0x7effffa 0x200180200000000000000000000000000000000000000000000109982050035 s.chip c := by
  refine ⟨_, rfl, ?_⟩
  generalize s.chip = c
  generalize s.fuses = fu
  beta_reduce
  repeat' first
    | (fail_if_no_progress extract_lets +onlyGivenNames x; first | (revert x; intro (x : Chip); refine Touch.cut (d := x) ?_ (fun hx => ?_); subst x; rotate_left; try clear_value x) | (revert x; intro (x : Chip × _); refine Touch.cut (d := x.1) ?_ (fun hx => ?_); subst x; rotate_left; try clear_value x) | skip)
    | (with_reducible first | exact Touch.refl | assumption | apply Chip.aon_touch | apply Touch.step (Chip.driveOut_touch ..) | apply Touch.step (Chip.quenchFill_touch ..) | apply Touch.step (Chip.senseLcs_touch ..) | apply Touch.step (Chip.senseRecord_touch ..) | apply Touch.step (Chip.senseShadow_touch ..) | apply Touch.step (Chip.senseTake_touch ..))
    | decide +kernel
    | split
    | (intro _; intros)
    | (clear_value *; split)

set_option maxRecDepth 100000 in
theorem execLcsRecordResume_touch (bad : Option Nat) (s : State) : ∃ fu c, execLcsRecordResume bad s = .next { s with fuses := fu, chip := c } ∧ Touch 0x7effffa 0x20018020000000000000000000000000000000000000000000010dc82050034 s.chip c := by
  refine ⟨_, _, rfl, ?_⟩
  generalize s.chip = c
  generalize s.fuses = fu
  beta_reduce
  dsimp only
  repeat' first
    | (with_reducible first | exact Touch.refl | assumption | apply Touch.put | apply Touch.step (Chip.lcsShow_touch ..) | apply Touch.step (Chip.logLcs_touch ..) | apply Touch.step (Chip.logWord_touch ..) | apply Touch.step (Chip.otpRefresh_touch ..) | apply Touch.step (Chip.quenchRequest_touch ..) | apply Touch.step (Chip.recStop_touch ..) | apply Touch.step (Chip.senseEnd_touch ..))
    | decide +kernel
    | (with_reducible apply Touch.upd) <;> first | (intro p; cases p <;> dsimp only [Part.same] <;> first | exact Or.inl (by decide +kernel) | exact Or.inr rfl) | (with_reducible first | exact Touch.refl | assumption | apply Touch.put | apply Touch.step (Chip.lcsShow_touch ..) | apply Touch.step (Chip.logLcs_touch ..) | apply Touch.step (Chip.logWord_touch ..) | apply Touch.step (Chip.otpRefresh_touch ..) | apply Touch.step (Chip.quenchRequest_touch ..) | apply Touch.step (Chip.recStop_touch ..) | apply Touch.step (Chip.senseEnd_touch ..)) | split
    | split
    | (intro _; intros)
    | (clear_value *; split)

theorem execLcsGo_touch (req : Req) (value : Word) (s : State) : ∃ c, execLcsGo req value s = .next (s.cutAfter c) ∧ Touch 0x174c 0x40000180000000000000000000000000000000000000000000000105402210004 s.chip c := by
  refine ⟨_, rfl, ?_⟩
  generalize s.chip = c
  generalize s.fuses = fu
  beta_reduce
  repeat' first
    | (with_reducible first | exact Touch.refl | assumption | apply Chip.guarded_touch | apply Touch.step (Chip.lcsCtrlWrite_touch ..) | apply Touch.step (Chip.wrote_touch ..))
    | decide +kernel
    | split
    | (intro _; intros)
    | (clear_value *; split)

theorem execLcsPhaseDone_touch (bad : Option Nat) (s : State) : ∃ fu c, execLcsPhaseDone bad s = .next { s with fuses := fu, chip := c } ∧ Touch 0x70a 0x18000000000000000000000000000000000000000000000010dc82000004 s.chip c := by
  refine ⟨_, _, rfl, ?_⟩
  generalize s.chip = c
  generalize s.fuses = fu
  beta_reduce
  repeat' first
    | (fail_if_no_progress extract_lets +onlyGivenNames x; first | (revert x; intro (x : Chip); refine Touch.cut (d := x) ?_ (fun hx => ?_); subst x; rotate_left; try clear_value x) | (revert x; intro (x : Chip × _); refine Touch.cut (d := x.1) ?_ (fun hx => ?_); subst x; rotate_left; try clear_value x) | (revert x; intro (x : _ × Chip); refine Touch.cut (d := x.2) ?_ (fun hx => ?_); subst x; rotate_left; try clear_value x) | (revert x; intro (x : _ × _ × Chip); refine Touch.cut (d := x.2.2) ?_ (fun hx => ?_); subst x; rotate_left; try clear_value x) | skip)
    | (with_reducible first | exact Touch.refl | assumption | apply Touch.put | apply Touch.step (Chip.lcsAction_touch ..) | apply Touch.step (Chip.lcsPhase_touch ..) | apply Touch.step (Chip.logLcs_touch ..) | apply Touch.step (Chip.logWord_touch ..) | apply Touch.step (Chip.otpRefresh_touch ..) | apply Touch.step (Chip.settleCut_touch ..))
    | decide +kernel
    | (with_reducible apply Touch.upd) <;> first | (intro p; cases p <;> dsimp only [Part.same] <;> first | exact Or.inl (by decide +kernel) | exact Or.inr rfl) | (with_reducible first | exact Touch.refl | assumption | apply Touch.put | apply Touch.step (Chip.lcsAction_touch ..) | apply Touch.step (Chip.lcsPhase_touch ..) | apply Touch.step (Chip.logLcs_touch ..) | apply Touch.step (Chip.logWord_touch ..) | apply Touch.step (Chip.otpRefresh_touch ..) | apply Touch.step (Chip.settleCut_touch ..)) | split
    | split
    | (intro _; intros)
    | (clear_value *; split)

theorem execLcsRestart_touch (s : State) : ∃ c, execLcsRestart s = .next (s.cutAfter c) ∧ Touch 0x7effbfe 0x84200180200000001d0080001830400008100000000000000000018d402050004 s.chip c := by
  refine ⟨_, rfl, ?_⟩
  generalize s.chip = c
  beta_reduce
  repeat' first
    | (fail_if_no_progress extract_lets +onlyGivenNames x; first | (revert x; intro (x : Chip); refine Touch.cut (d := x) ?_ (fun hx => ?_); subst x; rotate_left; try clear_value x) | (revert x; intro (x : Chip × _); refine Touch.cut (d := x.1) ?_ (fun hx => ?_); subst x; rotate_left; try clear_value x) | skip)
    | (with_reducible first | exact Touch.refl | assumption | apply Touch.put | apply Touch.step (Chip.lcsShow_touch ..) | apply Touch.step (Chip.warmReset_touch ..))
    | decide +kernel
    | split
    | (intro _; intros)
    | (clear_value *; split)

end Sys2Proof.Machine
end

