-- ==== Sys2Proof/Laws/ExecMailbox.lean ====
section
/-! SUPPORT. What each command of Machine/Mailbox.lean can change before what follows of itself: the two masks of `Touch` (Laws/Touch.lean). -/

set_option linter.unreachableTactic false
set_option linter.unusedTactic false
set_option linter.tactic.unusedName false
set_option linter.unnecessarySeqFocus false
set_option linter.unusedVariables false
set_option Elab.async false

namespace Sys2Proof.Machine

theorem execMbLockRead_touch (req : Req) (ns : Bool) (n : Nat) (s : State) : ∃ c, execMbLockRead req ns n s = .next (s.after c) ∧ Touch 0x114c 0x180000000000000000000000000000010400000000000000100000210004 s.chip c := by
  refine ⟨_, rfl, ?_⟩
  generalize s.chip = c
  beta_reduce
  repeat' first
    | (fail_if_no_progress extract_lets +onlyGivenNames x; first | (revert x; intro (x : Chip); refine Touch.cut (d := x) ?_ (fun hx => ?_); subst x; rotate_left; try clear_value x) | (revert x; intro (x : Chip × _); refine Touch.cut (d := x.1) ?_ (fun hx => ?_); subst x; rotate_left; try clear_value x) | skip)
    | (with_reducible first | exact Touch.refl | assumption | apply Chip.guarded_touch | apply Touch.step (Chip.mbLockTake_touch ..) | apply Touch.step (Chip.respond_touch ..))
    | decide +kernel
    | split
    | (intro _; intros)
    | (clear_value *; split)

theorem execMbDataWrite_touch (req : Req) (ns : Bool) (n word : Nat) (value : Word) (s : State) : ∃ c, execMbDataWrite req ns n word value s = .next (s.after c) ∧ Touch 0x114c 0xc00180000000000000000000000000000010400000000000000100000210004 s.chip c := by
  refine ⟨_, rfl, ?_⟩
  generalize s.chip = c
  beta_reduce
  repeat' first
    | (with_reducible first | exact Touch.refl | assumption | apply Chip.guarded_touch | apply Touch.step (Chip.mbDataPut_touch ..) | apply Touch.step (Chip.wrote_touch ..))
    | decide +kernel
    | split
    | (intro _; intros)
    | (clear_value *; split)

theorem execMbGo_touch (req : Req) (ns : Bool) (n words : Nat) (s : State) : ∃ c, execMbGo req ns n words s = .next (s.after c) ∧ Touch 0x194c 0xc00180000000000000000000000000000010400000000000000100000210004 s.chip c := by
  refine ⟨_, rfl, ?_⟩
  generalize s.chip = c
  beta_reduce
  repeat' first
    | (with_reducible first | exact Touch.refl | assumption | apply Chip.guarded_touch | apply Touch.step (Chip.mbGo_touch ..) | apply Touch.step (Chip.wrote_touch ..))
    | decide +kernel
    | split
    | (intro _; intros)
    | (clear_value *; split)

theorem execMbRelease_touch (req : Req) (ns : Bool) (n : Nat) (s : State) : ∃ c, execMbRelease req ns n s = .next (s.after c) ∧ Touch 0x114c 0xc00180000000000000000000000000000010400000000000000100000210004 s.chip c := by
  refine ⟨_, rfl, ?_⟩
  generalize s.chip = c
  beta_reduce
  repeat' first
    | (with_reducible first | exact Touch.refl | assumption | apply Chip.guarded_touch | apply Touch.step (Chip.mbRelease_touch ..) | apply Touch.step (Chip.wrote_touch ..))
    | decide +kernel
    | split
    | (intro _; intros)
    | (clear_value *; split)

theorem execMbForce_touch (req : Req) (ns : Bool) (n : Nat) (s : State) : ∃ c, execMbForce req ns n s = .next (s.after c) ∧ Touch 0x114c 0xc00180000000000000000000000000000010400000000000000100000210004 s.chip c := by
  refine ⟨_, rfl, ?_⟩
  generalize s.chip = c
  beta_reduce
  repeat' first
    | (with_reducible first | exact Touch.refl | assumption | apply Chip.guarded_touch | apply Touch.step (Chip.mbForce_touch ..) | apply Touch.step (Chip.wrote_touch ..))
    | decide +kernel
    | split
    | (intro _; intros)
    | (clear_value *; split)

theorem execMbLockTimeout_touch (ns : Bool) (n : Nat) (s : State) : ∃ c, execMbLockTimeout ns n s = .next (s.after c) ∧ Touch 0x1108 0xc00180000000000000000000000000000010400000000000000000000000004 s.chip c := by
  refine ⟨_, rfl, ?_⟩
  generalize s.chip = c
  beta_reduce
  repeat' first
    | (fail_if_no_progress extract_lets +onlyGivenNames x; first | (revert x; intro (x : Chip); refine Touch.cut (d := x) ?_ (fun hx => ?_); subst x; rotate_left; try clear_value x) | (revert x; intro (x : Chip × _); refine Touch.cut (d := x.1) ?_ (fun hx => ?_); subst x; rotate_left; try clear_value x) | skip)
    | (with_reducible first | exact Touch.refl | assumption | apply Touch.step (Chip.mbForced_touch ..) | apply Touch.step (Chip.mbFree_touch ..))
    | decide +kernel
    | split
    | (intro _; intros)
    | (clear_value *; split)

theorem execCoreHello_touch (n : Nat) (s : State) : ∃ c, execCoreHello n s = .next (s.after c) ∧ Touch 0x190c 0xc00180000000000000000000000000000010400000000000000000000000004 s.chip c := by
  refine ⟨_, rfl, ?_⟩
  generalize s.chip = c
  beta_reduce
  repeat' first
    | (with_reducible first | exact Touch.refl | assumption | apply Chip.onCall_touch)
    | decide +kernel
    | split
    | (intro _; intros)
    | (clear_value *; split)

theorem execServiceCallComplete_touch (core : Nat) (s : State) : ∃ c, execServiceCallComplete core s = .next (s.after c) ∧ Touch 0x1104 0xc00000000000000000000000000000000010400000000000000000000000000 s.chip c := by
  refine ⟨_, rfl, ?_⟩
  generalize s.chip = c
  beta_reduce
  repeat' first
    | (fail_if_no_progress extract_lets +onlyGivenNames x; first | (revert x; intro (x : Chip); refine Touch.cut (d := x) ?_ (fun hx => ?_); subst x; rotate_left; try clear_value x) | (revert x; intro (x : Chip × _); refine Touch.cut (d := x.1) ?_ (fun hx => ?_); subst x; rotate_left; try clear_value x) | skip)
    | (with_reducible first | exact Touch.refl | assumption | apply Touch.each | apply Touch.step (Chip.count_touch ..) | apply Touch.step (Chip.mbFull_touch ..) | apply Touch.step (Chip.mbLast_touch ..) | apply Touch.step (Chip.mbWord_touch ..))
    | decide +kernel
    | (with_reducible apply Touch.upd) <;> first | (intro p; cases p <;> dsimp only [Part.same] <;> first | exact Or.inl (by decide +kernel) | exact Or.inr rfl) | (with_reducible first | exact Touch.refl | assumption | apply Touch.each | apply Touch.step (Chip.count_touch ..) | apply Touch.step (Chip.mbFull_touch ..) | apply Touch.step (Chip.mbLast_touch ..) | apply Touch.step (Chip.mbWord_touch ..)) | split
    | split
    | (intro _; intros)
    | (clear_value *; split)

end Sys2Proof.Machine
end

