-- ==== Sys2Proof/Laws/ExecOtpCmd.lean ====
section
/-! SUPPORT. What each command of Machine/OtpCmd.lean can change before what follows of itself: the two masks of `Touch` (Laws/Touch.lean). -/

set_option linter.unreachableTactic false
set_option linter.unusedTactic false
set_option linter.tactic.unusedName false
set_option linter.unnecessarySeqFocus false
set_option linter.unusedVariables false
set_option Elab.async false

namespace Sys2Proof.Machine

theorem execOtpRead_touch (req : Req) (key : BitVec 16) (s : State) : ∃ c, execOtpRead req key s = .next (s.after c) ∧ Touch 0x4034e 0x180000000000000000000004000000000000000000000000100062210004 s.chip c := by
  refine ⟨_, rfl, ?_⟩
  show Touch _ _ s.chip (s.chip.guarded _ _ _ _)
  generalize s.chip = c
  beta_reduce
  repeat' first
    | (with_reducible first | exact Touch.refl | assumption | apply Chip.guarded_touch | apply Touch.step (Chip.otpCmdWrite_touch ..) | apply Touch.step (Chip.wrote_touch ..))
    | decide +kernel
    | split
    | (intro _; intros)
    | (clear_value *; split)

theorem execProgWord_touch (req : Req) (key : BitVec 16) (s : State) : ∃ c, execProgWord req key s = .next (s.after c) ∧ Touch 0x4034e 0x180000000000000000000004000000000000000000000000100062210004 s.chip c := by
  refine ⟨_, rfl, ?_⟩
  show Touch _ _ s.chip (s.chip.guarded _ _ _ _)
  generalize s.chip = c
  beta_reduce
  repeat' first
    | (with_reducible first | exact Touch.refl | assumption | apply Chip.guarded_touch | apply Touch.step (Chip.otpCmdWrite_touch ..) | apply Touch.step (Chip.wrote_touch ..))
    | decide +kernel
    | split
    | (intro _; intros)
    | (clear_value *; split)

theorem execProgDigest_touch (req : Req) (key : BitVec 16) (arg : BitVec 8) (s : State) : ∃ c, execProgDigest req key arg s = .next (s.after c) ∧ Touch 0x4034e 0x180000000000000000000004000000000000000000000000100062210004 s.chip c := by
  refine ⟨_, rfl, ?_⟩
  show Touch _ _ s.chip (s.chip.guarded _ _ _ _)
  generalize s.chip = c
  beta_reduce
  repeat' first
    | (with_reducible first | exact Touch.refl | assumption | apply Chip.guarded_touch | apply Touch.step (Chip.otpCmdWrite_touch ..) | apply Touch.step (Chip.wrote_touch ..))
    | decide +kernel
    | split
    | (intro _; intros)
    | (clear_value *; split)

theorem execLockWrite_touch (req : Req) (key : BitVec 16) (arg : BitVec 8) (drift : List (Nat × Cells)) (s : State) : ∃ c, execLockWrite req key arg drift s = .next (s.after c) ∧ Touch 0x4034e 0x180000000000000000000004000000000000000000000000100062210004 s.chip c := by
  refine ⟨_, rfl, ?_⟩
  generalize s.chip = c
  generalize s.fuses = fu
  beta_reduce
  repeat' first
    | (with_reducible first | exact Touch.refl | assumption | apply Chip.guarded_touch | apply Touch.step (Chip.otpCmdWrite_touch ..) | apply Touch.step (Chip.wrote_touch ..))
    | decide +kernel
    | split
    | (intro _; intros)
    | (clear_value *; split)

theorem execLockRead_touch (req : Req) (key : BitVec 16) (arg : BitVec 8) (s : State) : ∃ c, execLockRead req key arg s = .next (s.after c) ∧ Touch 0x4034e 0x180000000000000000000004000000000000000000000000100062210004 s.chip c := by
  refine ⟨_, rfl, ?_⟩
  show Touch _ _ s.chip (s.chip.guarded _ _ _ _)
  generalize s.chip = c
  beta_reduce
  repeat' first
    | (with_reducible first | exact Touch.refl | assumption | apply Chip.guarded_touch | apply Touch.step (Chip.otpCmdWrite_touch ..) | apply Touch.step (Chip.wrote_touch ..))
    | decide +kernel
    | split
    | (intro _; intros)
    | (clear_value *; split)

theorem execLockWriteRaw_touch (req : Req) (key : BitVec 16) (arg : BitVec 8) (s : State) : ∃ c, execLockWriteRaw req key arg s = .next (s.after c) ∧ Touch 0x4034e 0x180000000000000000000004000000000000000000000000100062210004 s.chip c := by
  refine ⟨_, rfl, ?_⟩
  show Touch _ _ s.chip (s.chip.guarded _ _ _ _)
  generalize s.chip = c
  beta_reduce
  repeat' first
    | (with_reducible first | exact Touch.refl | assumption | apply Chip.guarded_touch | apply Touch.step (Chip.otpCmdWrite_touch ..) | apply Touch.step (Chip.wrote_touch ..))
    | decide +kernel
    | split
    | (intro _; intros)
    | (clear_value *; split)

theorem execGenRoots_touch (req : Req) (key : BitVec 16) (s : State) : ∃ c, execGenRoots req key s = .next (s.after c) ∧ Touch 0x4034e 0x180000000000000000000004000000000000000000000000100062210004 s.chip c := by
  refine ⟨_, rfl, ?_⟩
  show Touch _ _ s.chip (s.chip.guarded _ _ _ _)
  generalize s.chip = c
  beta_reduce
  repeat' first
    | (with_reducible first | exact Touch.refl | assumption | apply Chip.guarded_touch | apply Touch.step (Chip.otpCmdWrite_touch ..) | apply Touch.step (Chip.wrote_touch ..))
    | decide +kernel
    | split
    | (intro _; intros)
    | (clear_value *; split)

theorem execArbAdvance_touch (req : Req) (key : BitVec 16) (arg : BitVec 8) (s : State) : ∃ c, execArbAdvance req key arg s = .next (s.after c) ∧ Touch 0x4034e 0x180000000000000000000004000000000000000000000000100062210004 s.chip c := by
  refine ⟨_, rfl, ?_⟩
  show Touch _ _ s.chip (s.chip.guarded _ _ _ _)
  generalize s.chip = c
  beta_reduce
  repeat' first
    | (with_reducible first | exact Touch.refl | assumption | apply Chip.guarded_touch | apply Touch.step (Chip.otpCmdWrite_touch ..) | apply Touch.step (Chip.wrote_touch ..))
    | decide +kernel
    | split
    | (intro _; intros)
    | (clear_value *; split)

theorem execOtpProgramDone_touch (bad : Option Nat) (s : State) : ∃ fu c, execOtpProgramDone bad s = .next { s with fuses := fu, chip := c } ∧ Touch 0x4000308 0x180000000000000000000000000000000000000000000000009892000004 s.chip c := by
  refine ⟨_, _, rfl, ?_⟩
  generalize s.chip = c
  generalize s.fuses = fu
  beta_reduce
  repeat' first
    | (fail_if_no_progress extract_lets +onlyGivenNames x; first | (revert x; intro (x : Chip); refine Touch.cut (d := x) ?_ (fun hx => ?_); subst x; rotate_left; try clear_value x) | (revert x; intro (x : Chip × _); refine Touch.cut (d := x.1) ?_ (fun hx => ?_); subst x; rotate_left; try clear_value x) | skip)
    | (with_reducible first | exact Touch.refl | assumption | apply Touch.step (Chip.confirmTook_touch ..) | apply Touch.step (Chip.logWord_touch ..) | apply Touch.step (Chip.otpDoneEvent_touch ..) | apply Touch.step (Chip.otpEnd_touch ..) | apply Touch.step (Chip.otpRefresh_touch ..))
    | decide +kernel
    | split
    | (intro _; intros)
    | (clear_value *; split)

theorem execQuenchDone_touch (bad : Nat) (s : State) : ∃ fu c, execQuenchDone bad s = .next { s with fuses := fu, chip := c } ∧ Touch 0x728 0x18000000000000000000000000000000000000000000000010d882000004 s.chip c := by
  refine ⟨_, _, rfl, ?_⟩
  generalize s.chip = c
  generalize s.fuses = fu
  beta_reduce
  repeat' first
    | (fail_if_no_progress extract_lets +onlyGivenNames x; first | (revert x; intro (x : Chip); refine Touch.cut (d := x) ?_ (fun hx => ?_); subst x; rotate_left; try clear_value x) | (revert x; intro (x : Chip × _); refine Touch.cut (d := x.1) ?_ (fun hx => ?_); subst x; rotate_left; try clear_value x) | skip)
    | (with_reducible first | exact Touch.refl | assumption | apply Touch.each | apply Touch.put | apply Touch.step (Chip.driveOut_touch ..) | apply Touch.step (Chip.logWord_touch ..) | apply Touch.step (Chip.otpRefresh_touch ..))
    | decide +kernel
    | (with_reducible apply Touch.upd) <;> first | (intro p; cases p <;> dsimp only [Part.same] <;> first | exact Or.inl (by decide +kernel) | exact Or.inr rfl) | (with_reducible first | exact Touch.refl | assumption | apply Touch.each | apply Touch.put | apply Touch.step (Chip.driveOut_touch ..) | apply Touch.step (Chip.logWord_touch ..) | apply Touch.step (Chip.otpRefresh_touch ..)) | split
    | split
    | (intro _; intros)
    | (clear_value *; split)

theorem execOtpAuditStart_touch (req : Req) (value : Word) (s : State) : ∃ c, execOtpAuditStart req value s = .next (s.after c) ∧ Touch 0x34c 0x180000000000000000000000000000000000000000000000100602210004 s.chip c := by
  refine ⟨_, rfl, ?_⟩
  generalize s.chip = c
  beta_reduce
  repeat' first
    | (with_reducible first | exact Touch.refl | assumption | apply Touch.step (Chip.auditStart_touch ..) | apply Chip.guarded_touch | apply Touch.step (Chip.wrote_touch ..))
    | decide +kernel
    | split
    | (intro _; intros)
    | (clear_value *; split)

theorem execOtpAuditDone_touch (drift : List (Nat × Cells)) (s : State) : ∃ c, execOtpAuditDone drift s = .next (s.after c) ∧ Touch 0x308 0x180000000000000000000000000000000000000000000000000402000004 s.chip c := by
  refine ⟨_, rfl, ?_⟩
  generalize s.chip = c
  generalize s.fuses = fu
  beta_reduce
  repeat' first
    | (fail_if_no_progress extract_lets +onlyGivenNames x; first | (revert x; intro (x : Chip); refine Touch.cut (d := x) ?_ (fun hx => ?_); subst x; rotate_left; try clear_value x) | (revert x; intro (x : Chip × _); refine Touch.cut (d := x.1) ?_ (fun hx => ?_); subst x; rotate_left; try clear_value x) | skip)
    | (with_reducible first | exact Touch.refl | assumption | apply Touch.each | apply Touch.put | apply Touch.step (Chip.logWord_touch ..))
    | decide +kernel
    | (with_reducible apply Touch.upd) <;> first | (intro p; cases p <;> dsimp only [Part.same] <;> first | exact Or.inl (by decide +kernel) | exact Or.inr rfl) | (with_reducible first | exact Touch.refl | assumption | apply Touch.each | apply Touch.put | apply Touch.step (Chip.logWord_touch ..)) | split
    | split
    | (intro _; intros)
    | (clear_value *; split)

end Sys2Proof.Machine
end

