-- ==== Sys2Proof/Laws/ExecPly.lean ====
section
/-! SUPPORT. What each command of Machine/Ply.lean can change before what follows of itself: the two masks of `Touch` (Laws/Touch.lean). -/

set_option linter.unreachableTactic false
set_option linter.unusedTactic false
set_option linter.tactic.unusedName false
set_option linter.unnecessarySeqFocus false
set_option linter.unusedVariables false
set_option Elab.async false

namespace Sys2Proof.Machine

theorem execLinkEn_touch (req : Req) (value : Bool) (s : State) : ∃ c, execLinkEn req value s = .next (s.settled c) ∧ Touch 0x100014c 0x180000000000000000000000000000000010060000000000100000210004 s.chip c := by
  refine ⟨_, rfl, ?_⟩
  generalize s.chip = c
  beta_reduce
  repeat' first
    | (fail_if_no_progress extract_lets +onlyGivenNames x; first | (revert x; intro (x : Chip); refine Touch.cut (d := x) ?_ (fun hx => ?_); subst x; rotate_left; try clear_value x) | (revert x; intro (x : Chip × _); refine Touch.cut (d := x.1) ?_ (fun hx => ?_); subst x; rotate_left; try clear_value x) | skip)
    | (with_reducible first | exact Touch.refl | assumption | apply Touch.put | apply Touch.step (Chip.linkTrain_touch ..) | apply Chip.plyCtrl_touch)
    | decide +kernel
    | split
    | (intro _; intros)
    | (clear_value *; split)

theorem execPlyRetrain_touch (req : Req) (s : State) : ∃ c, execPlyRetrain req s = .next (s.settled c) ∧ Touch 0x100014c 0x180000000000000000000000000000000010040000000000100000210004 s.chip c := by
  refine ⟨_, rfl, ?_⟩
  generalize s.chip = c
  beta_reduce
  repeat' first
    | (with_reducible first | exact Touch.refl | assumption | apply Touch.step (Chip.linkTrain_touch ..) | apply Chip.plyCtrl_touch)
    | decide +kernel
    | split
    | (intro _; intros)
    | (clear_value *; split)

theorem execHello_touch (body : List Byte) (s : State) : ∃ c, execHello body s = .next (s.settled c) ∧ Touch 0x104010e 0x180000000000000000000004000000000010040000000000000000000004 s.chip c := by
  refine ⟨_, rfl, ?_⟩
  generalize s.chip = c
  beta_reduce
  repeat' first
    | (with_reducible first | exact Touch.refl | assumption | apply Touch.step (Chip.helloIn_touch ..))
    | decide +kernel
    | split
    | (intro _; intros)
    | (clear_value *; split)

theorem execAuth_touch (point kem : List Byte) (certs sigs : List (List Byte)) (genuine : Bool) (s : State) : ∃ c, execAuth point kem certs sigs genuine s = .next (s.settled c) ∧ Touch 0x105813e 0x180000000000000000000004188301000003f40040000020000000054004 s.chip c := by
  refine ⟨_, rfl, ?_⟩
  generalize s.chip = c
  beta_reduce
  repeat' first
    | (with_reducible first | exact Touch.refl | assumption | apply Touch.step (Chip.authIn_touch ..))
    | decide +kernel
    | split
    | (intro _; intros)
    | (clear_value *; split)

theorem execPlyFrameCheckFail_touch (typ pseq : Nat) (s : State) : ∃ c, execPlyFrameCheckFail typ pseq s = .next (s.settled c) ∧ Touch 0x100010c 0x180000000000000000000000000000000080000000000000000000000004 s.chip c := by
  refine ⟨_, rfl, ?_⟩
  generalize s.chip = c
  beta_reduce
  repeat' first
    | (fail_if_no_progress extract_lets +onlyGivenNames x; first | (revert x; intro (x : Chip); refine Touch.cut (d := x) ?_ (fun hx => ?_); subst x; rotate_left; try clear_value x) | (revert x; intro (x : Chip × _); refine Touch.cut (d := x.1) ?_ (fun hx => ?_); subst x; rotate_left; try clear_value x) | skip)
    | (with_reducible first | exact Touch.refl | assumption | apply Touch.add | apply Touch.step (Chip.log_touch ..) | apply Touch.step (Chip.plySend_touch ..))
    | decide +kernel
    | split
    | (intro _; intros)
    | (clear_value *; split)

theorem execLinkNak_touch (pseq : Nat) (s : State) : ∃ c, execLinkNak pseq s = .next (s.settled c) ∧ Touch 0x100010c 0x180000000000000000000000000000000080000000000000000000000004 s.chip c := by
  refine ⟨_, rfl, ?_⟩
  generalize s.chip = c
  beta_reduce
  repeat' first
    | (fail_if_no_progress extract_lets +onlyGivenNames x; first | (revert x; intro (x : Chip); refine Touch.cut (d := x) ?_ (fun hx => ?_); subst x; rotate_left; try clear_value x) | (revert x; intro (x : Chip × _); refine Touch.cut (d := x.1) ?_ (fun hx => ?_); subst x; rotate_left; try clear_value x) | skip)
    | (with_reducible first | exact Touch.refl | assumption | apply Touch.add | apply Touch.each | apply Touch.step (Chip.plyGot_touch ..) | apply Touch.step (Chip.send_touch ..))
    | decide +kernel
    | split
    | (intro _; intros)
    | (clear_value *; split)

theorem execHeartbeatSend_touch (s : State) : ∃ c, execHeartbeatSend s = .next (s.settled c) ∧ Touch 0x100010c 0x180000000000000000000000000000000000000000000000000000000004 s.chip c := by
  refine ⟨_, rfl, ?_⟩
  generalize s.chip = c
  beta_reduce
  repeat' first
    | (with_reducible first | exact Touch.refl | assumption | apply Touch.step (Chip.plySend_touch ..))
    | decide +kernel
    | split
    | (intro _; intros)
    | (clear_value *; split)

theorem execPlyHeartbeat_touch (body : List Byte) (peer : Peer) (s : State) : ∃ c, execPlyHeartbeat body peer s = .next (s.settled c) ∧ Touch 0x105811e 0x180000000000000000000004000c00000013f40040000020000000054004 s.chip c := by
  refine ⟨_, rfl, ?_⟩
  generalize s.chip = c
  beta_reduce
  repeat' first
    | (with_reducible first | exact Touch.refl | assumption | apply Touch.step (Chip.beatIn_touch ..) | apply Touch.step (Chip.pl_touch ..))
    | decide +kernel
    | split
    | (intro _; intros)
    | (clear_value *; split)

theorem execPartnerLost_touch (s : State) : ∃ c, execPartnerLost s = .next (s.cutSettled c) ∧ Touch 0x167db3e 0x84000180000000001d00800018304000081000013f4004000002000c402054004 s.chip c := by
  refine ⟨_, rfl, ?_⟩
  generalize s.chip = c
  beta_reduce
  repeat' first
    | (fail_if_no_progress extract_lets +onlyGivenNames x; first | (revert x; intro (x : Chip); refine Touch.cut (d := x) ?_ (fun hx => ?_); subst x; rotate_left; try clear_value x) | (revert x; intro (x : Chip × _); refine Touch.cut (d := x.1) ?_ (fun hx => ?_); subst x; rotate_left; try clear_value x) | skip)
    | (with_reducible first | exact Touch.refl | assumption | apply Touch.step (Chip.partnerLost_touch ..) | apply Touch.step (Chip.sleepLead_touch ..))
    | decide +kernel
    | split
    | (intro _; intros)
    | (clear_value *; split)

theorem execMirrorAckTimeout_touch (s : State) : ∃ c, execMirrorAckTimeout s = .next (s.settled c) ∧ Touch 0x104811e 0x180000000000000000000004000000000013f40040000000000000054004 s.chip c := by
  refine ⟨_, rfl, ?_⟩
  generalize s.chip = c
  beta_reduce
  repeat' first
    | (with_reducible first | exact Touch.refl | assumption | apply Touch.step (Chip.partnerLost_touch ..))
    | decide +kernel
    | split
    | (intro _; intros)
    | (clear_value *; split)

theorem execMirror_touch (mseq : Nat) (item : MItem) (s : State) : ∃ c, execMirror mseq item s = .next (s.settled c) ∧ Touch 0x3e7193e 0x900018001000000000027fd00004188380000003140063f80000000000004184 s.chip c := by
  refine ⟨_, rfl, ?_⟩
  generalize s.chip = c
  beta_reduce
  repeat' first
    | (with_reducible first | exact Touch.refl | assumption | apply Touch.step (Chip.mirrorIn_touch ..))
    | decide +kernel
    | split
    | (intro _; intros)
    | (clear_value *; split)

theorem execMirrorAck_touch (mseq : Nat) (s : State) : ∃ c, execMirrorAck mseq s = .next (s.settled c) ∧ Touch 0x1000108 0x18000000000000000000000000000000000c000000000000000000000004 s.chip c := by
  refine ⟨_, rfl, ?_⟩
  generalize s.chip = c
  beta_reduce
  repeat' first
    | (fail_if_no_progress extract_lets +onlyGivenNames x; first | (revert x; intro (x : Chip); refine Touch.cut (d := x) ?_ (fun hx => ?_); subst x; rotate_left; try clear_value x) | (revert x; intro (x : Chip × _); refine Touch.cut (d := x.1) ?_ (fun hx => ?_); subst x; rotate_left; try clear_value x) | skip)
    | (with_reducible first | exact Touch.refl | assumption | apply Touch.put64 | apply Touch.step (Chip.pl_touch ..) | apply Touch.step (Chip.plyGot_touch ..))
    | decide +kernel
    | exact covers_reg (by decide +kernel)
    | split
    | (intro _; intros)
    | (clear_value *; split)

theorem execRelay_touch (ch : Nat) (frame : WarpFrame) (s : State) : ∃ c, execRelay ch frame s = .next (s.settled c) ∧ Touch 0x101010c 0x180000000000000000000000000000000000000000000000000000000004 s.chip c := by
  refine ⟨_, rfl, ?_⟩
  generalize s.chip = c
  beta_reduce
  repeat' first
    | (with_reducible first | exact Touch.refl | assumption | apply Touch.step (Chip.plyGot_touch ..) | apply Touch.step (Chip.rootZero_touch ..) | apply Touch.step (Chip.warpPut_touch ..))
    | decide +kernel
    | split
    | (intro _; intros)
    | (clear_value *; split)

theorem execRelayAns_touch (ch : Nat) (frame : WarpFrame) (s : State) : ∃ c, execRelayAns ch frame s = .next (s.settled c) ∧ Touch 0x107093e 0x18000000000000000000000408a380000003000020040020000000000004 s.chip c := by
  refine ⟨_, rfl, ?_⟩
  generalize s.chip = c
  beta_reduce
  repeat' first
    | (fail_if_no_progress extract_lets +onlyGivenNames x; first | (revert x; intro (x : Chip); refine Touch.cut (d := x) ?_ (fun hx => ?_); subst x; rotate_left; try clear_value x) | (revert x; intro (x : Chip × _); refine Touch.cut (d := x.1) ?_ (fun hx => ?_); subst x; rotate_left; try clear_value x) | skip)
    | (with_reducible first | exact Touch.refl | assumption | apply Touch.step (Chip.pl_touch ..) | apply Touch.step (Chip.plyGot_touch ..) | apply Touch.step (Chip.unsolicited_touch ..) | apply Touch.step (Chip.warpAnswer_touch ..) | apply Touch.step (Chip.warpSilent_touch ..))
    | decide +kernel
    | split
    | (intro _; intros)
    | (clear_value *; split)

theorem execRelayAnswerTimeout_touch (ch : Nat) (s : State) : ∃ c, execRelayAnswerTimeout ch s = .next (s.settled c) ∧ Touch 0x107093e 0x180000000000000000000004082080000000000020000000000000000004 s.chip c := by
  refine ⟨_, rfl, ?_⟩
  generalize s.chip = c
  beta_reduce
  repeat' first
    | (with_reducible first | exact Touch.refl | assumption | apply Touch.step (Chip.pl_touch ..) | apply Touch.step (Chip.warpSilent_touch ..))
    | decide +kernel
    | split
    | (intro _; intros)
    | (clear_value *; split)

theorem execResyncReq_touch (jseq jdur : Nat) (s : State) : ∃ c, execResyncReq jseq jdur s = .next (s.settled c) ∧ Touch 0x101010c 0x180000000000000000000000000000000010040000000000000000000004 s.chip c := by
  refine ⟨_, rfl, ?_⟩
  generalize s.chip = c
  beta_reduce
  repeat' first
    | (with_reducible first | exact Touch.refl | assumption | apply Touch.step (Chip.jr_touch ..) | apply Touch.step (Chip.resyncReq_touch ..))
    | decide +kernel
    | split
    | (intro _; intros)
    | (clear_value *; split)

theorem execResyncData_touch (part : ResPart) (s : State) : ∃ c, execResyncData part s = .next (s.settled c) ∧ Touch 0x3e7193e 0x900018001000000000027fd00004188380000000140063f80000000000004184 s.chip c := by
  refine ⟨_, rfl, ?_⟩
  generalize s.chip = c
  beta_reduce
  repeat' first
    | (with_reducible first | exact Touch.refl | assumption | apply Touch.step (Chip.resyncData_touch ..))
    | decide +kernel
    | split
    | (intro _; intros)
    | (clear_value *; split)

theorem execResyncComplete_touch (s : State) : ∃ c, execResyncComplete s = .next (s.settled c) ∧ Touch 0x1000108 0x180000000000000000000000000000000000040000000000000000000004 s.chip c := by
  refine ⟨_, rfl, ?_⟩
  generalize s.chip = c
  beta_reduce
  repeat' first
    | (with_reducible first | exact Touch.refl | assumption | apply Touch.step (Chip.resyncDone_touch ..))
    | decide +kernel
    | split
    | (intro _; intros)
    | (clear_value *; split)

theorem execHandoverFrame_touch (mseq lease : Nat) (s : State) : ∃ c, execHandoverFrame mseq lease s = .next (s.settled c) ∧ Touch 0x1000108 0x180000000000000000000000000000000000f40000000000000000050004 s.chip c := by
  refine ⟨_, rfl, ?_⟩
  generalize s.chip = c
  beta_reduce
  repeat' first
    | (fail_if_no_progress extract_lets +onlyGivenNames x; first | (revert x; intro (x : Chip); refine Touch.cut (d := x) ?_ (fun hx => ?_); subst x; rotate_left; try clear_value x) | (revert x; intro (x : Chip × _); refine Touch.cut (d := x.1) ?_ (fun hx => ?_); subst x; rotate_left; try clear_value x) | skip)
    | (with_reducible first | exact Touch.refl | assumption | apply Touch.wr | apply Touch.step (Chip.grantRegs_touch ..) | apply Touch.step (Chip.groupNeed_touch ..) | apply Touch.step (Chip.pl_touch ..) | apply Touch.step (Chip.plyGot_touch ..) | apply Touch.step (Chip.setRole_touch ..))
    | decide +kernel
    | exact covers_reg (by decide +kernel)
    | split
    | (intro _; intros)
    | (clear_value *; split)

theorem execSleepFrame_touch (s : State) : ∃ c, execSleepFrame s = .next (s.cutSettled c) ∧ Touch 0x167db3c 0x84000180000000001d0080001830400008100000000000000000000c402010004 s.chip c := by
  refine ⟨_, rfl, ?_⟩
  generalize s.chip = c
  beta_reduce
  repeat' first
    | (with_reducible first | exact Touch.refl | assumption | apply Touch.step (Chip.pl_touch ..) | apply Touch.step (Chip.plyGot_touch ..) | apply Touch.step (Chip.plySend_touch ..) | apply Touch.step (Chip.sleepRequest_touch ..))
    | decide +kernel
    | split
    | (intro _; intros)
    | (clear_value *; split)

theorem execSleepAck_touch (s : State) : ∃ c, execSleepAck s = .next (s.settled c) ∧ Touch 0x1000108 0x180000000000000000000000000000000000000000000000000000000004 s.chip c := by
  refine ⟨_, rfl, ?_⟩
  generalize s.chip = c
  beta_reduce
  repeat' first
    | (with_reducible first | exact Touch.refl | assumption | apply Touch.step (Chip.pl_touch ..) | apply Touch.step (Chip.plyGot_touch ..))
    | decide +kernel
    | split
    | (intro _; intros)
    | (clear_value *; split)

theorem execLeaseGrant_touch (s : State) : ∃ c, execLeaseGrant s = .next (s.settled c) ∧ Touch 0x100011c 0x180000000000000000000000000c00000010e40000000020000000000004 s.chip c := by
  refine ⟨_, rfl, ?_⟩
  generalize s.chip = c
  beta_reduce
  repeat' first
    | (with_reducible first | exact Touch.refl | assumption | apply Touch.step (Chip.granted__touch ..) | apply Chip.onFrame_touch)
    | decide +kernel
    | split
    | (intro _; intros)
    | (clear_value *; split)

theorem execLeaseRenew_touch (s : State) : ∃ c, execLeaseRenew s = .next (s.settled c) ∧ Touch 0x100011c 0x180000000000000000000000000000000003000000000000000000000004 s.chip c := by
  refine ⟨_, rfl, ?_⟩
  generalize s.chip = c
  beta_reduce
  repeat' first
    | (fail_if_no_progress extract_lets +onlyGivenNames x; first | (revert x; intro (x : Chip); refine Touch.cut (d := x) ?_ (fun hx => ?_); subst x; rotate_left; try clear_value x) | (revert x; intro (x : Chip × _); refine Touch.cut (d := x.1) ?_ (fun hx => ?_); subst x; rotate_left; try clear_value x) | skip)
    | (with_reducible first | exact Touch.refl | assumption | apply Touch.step (Chip.pl_touch ..) | apply Touch.step (Chip.renew_touch ..) | apply Touch.step (Chip.ringBroadcast_touch ..))
    | decide +kernel
    | split
    | (intro _; intros)
    | (clear_value *; split)

theorem execLeaseExpiryMargin_touch (s : State) : ∃ c, execLeaseExpiryMargin s = .next (s.settled c) ∧ Touch 0x1000108 0x180000000000000000000000000000000010e40000000020000000000004 s.chip c := by
  refine ⟨_, rfl, ?_⟩
  generalize s.chip = c
  beta_reduce
  repeat' first
    | (with_reducible first | exact Touch.refl | assumption | apply Touch.step (Chip.leadLost_touch ..))
    | decide +kernel
    | split
    | (intro _; intros)
    | (clear_value *; split)

theorem execTakeoverRepeat_touch (s : State) : ∃ c, execTakeoverRepeat s = .next (s.settled c) ∧ Touch 0x100011c 0x180000000000000000000000000000000000100000000000000000000004 s.chip c := by
  refine ⟨_, rfl, ?_⟩
  generalize s.chip = c
  beta_reduce
  repeat' first
    | (with_reducible first | exact Touch.refl | assumption | apply Touch.step (Chip.leaseAsk_touch ..))
    | decide +kernel
    | split
    | (intro _; intros)
    | (clear_value *; split)

theorem execCandidateTimeout_touch (s : State) : ∃ c, execCandidateTimeout s = .next (s.settled c) ∧ Touch 0x100010c 0x180000000000000000000000000000000000e40000000000000000000004 s.chip c := by
  refine ⟨_, rfl, ?_⟩
  generalize s.chip = c
  beta_reduce
  repeat' first
    | (with_reducible first | exact Touch.refl | assumption | apply Touch.step (Chip.askResync_touch ..) | apply Touch.step (Chip.grantRegs_touch ..) | apply Touch.step (Chip.linkLog_touch ..) | apply Touch.step (Chip.pl_touch ..) | apply Touch.step (Chip.setRole_touch ..))
    | decide +kernel
    | split
    | (intro _; intros)
    | (clear_value *; split)

theorem execPromote_touch (s : State) : ∃ c, execPromote s = .next (s.settled c) ∧ Touch 0x1e7813e 0x180000000000000000000004080300800063040022000020000000004184 s.chip c := by
  refine ⟨_, rfl, ?_⟩
  generalize s.chip = c
  beta_reduce
  repeat' first
    | (with_reducible first | exact Touch.refl | assumption | apply Touch.step (Chip.promote_touch ..))
    | decide +kernel
    | split
    | (intro _; intros)
    | (clear_value *; split)

theorem execPairWaitExpire_touch (s : State) : ∃ c, execPairWaitExpire s = .next (s.settled c) ∧ Touch 0x104811e 0x180000000000000000000004000000000003000040000000000000004004 s.chip c := by
  refine ⟨_, rfl, ?_⟩
  generalize s.chip = c
  beta_reduce
  repeat' first
    | (with_reducible first | exact Touch.refl | assumption | apply Touch.step (Chip.cardFirst_touch ..) | apply Touch.step (Chip.linkLog_touch ..) | apply Touch.step (Chip.pl_touch ..))
    | decide +kernel
    | split
    | (intro _; intros)
    | (clear_value *; split)

theorem execStartEmpty_touch (req : Req) (s : State) : ∃ c, execStartEmpty req s = .next (s.settled c) ∧ Touch 0x101015c 0x180000000000000000000000000300000000f40000000000100000250004 s.chip c := by
  refine ⟨_, rfl, ?_⟩
  generalize s.chip = c
  beta_reduce
  repeat' first
    | (with_reducible first | exact Touch.refl | assumption | apply Chip.plyCtrl_touch | apply Touch.step (Chip.startEmpty_touch ..))
    | decide +kernel
    | split
    | (intro _; intros)
    | (clear_value *; split)

theorem execHandover_touch (req : Req) (s : State) : ∃ c, execHandover req s = .next (s.settled c) ∧ Touch 0x100014c 0x180000000000000000000000000000800000040000000000100000210004 s.chip c := by
  refine ⟨_, rfl, ?_⟩
  generalize s.chip = c
  beta_reduce
  repeat' first
    | (with_reducible first | exact Touch.refl | assumption | apply Touch.step (Chip.handoverStart_touch ..) | apply Chip.plyCtrl_touch)
    | decide +kernel
    | split
    | (intro _; intros)
    | (clear_value *; split)

theorem execHandoverTimeout_touch (s : State) : ∃ c, execHandoverTimeout s = .next (s.settled c) ∧ Touch 0x100011c 0x180000000000000000000000000000000000e40000000000000000000004 s.chip c := by
  refine ⟨_, rfl, ?_⟩
  generalize s.chip = c
  beta_reduce
  repeat' first
    | (fail_if_no_progress extract_lets +onlyGivenNames x; first | (revert x; intro (x : Chip); refine Touch.cut (d := x) ?_ (fun hx => ?_); subst x; rotate_left; try clear_value x) | (revert x; intro (x : Chip × _); refine Touch.cut (d := x.1) ?_ (fun hx => ?_); subst x; rotate_left; try clear_value x) | skip)
    | (with_reducible first | exact Touch.refl | assumption | apply Touch.step (Chip.grantRegs_touch ..) | apply Touch.step (Chip.pl_touch ..) | apply Touch.step (Chip.ringBroadcast_touch ..) | apply Touch.step (Chip.setRole_touch ..))
    | decide +kernel
    | split
    | (intro _; intros)
    | (clear_value *; split)

theorem execSleepHs_touch (req : Req) (s : State) : ∃ c, execSleepHs req s = .next (s.settled c) ∧ Touch 0x100014c 0x180000000000000000000000000000000000040000000000100000210004 s.chip c := by
  refine ⟨_, rfl, ?_⟩
  generalize s.chip = c
  beta_reduce
  repeat' first
    | (with_reducible first | exact Touch.refl | assumption | apply Chip.plyCtrl_touch | apply Touch.step (Chip.sleepStart_touch ..))
    | decide +kernel
    | split
    | (intro _; intros)
    | (clear_value *; split)

theorem execHandoverComplete_touch (s : State) : ∃ c, execHandoverComplete s = .next (s.settled c) ∧ Touch 0x1000108 0x180000000000000000000000000000000010e40000000020000000000004 s.chip c := by
  refine ⟨_, rfl, ?_⟩
  generalize s.chip = c
  beta_reduce
  repeat' first
    | (with_reducible first | exact Touch.refl | assumption | apply Touch.step (Chip.handoverEnd_touch ..))
    | decide +kernel
    | split
    | (intro _; intros)
    | (clear_value *; split)

end Sys2Proof.Machine
end

