-- ==== Sys2Proof/Laws/ExecPower.lean ====
section
/-! SUPPORT. What each command of Machine/Power.lean can change before what follows of itself: the two masks of `Touch` (Laws/Touch.lean). -/

set_option linter.unreachableTactic false
set_option linter.unusedTactic false
set_option linter.tactic.unusedName false
set_option linter.unnecessarySeqFocus false
set_option linter.unusedVariables false
set_option Elab.async false

namespace Sys2Proof.Machine

theorem execPorstNAssert_touch (taken : Bool) (s : State) : ∃ fu c, execPorstNAssert taken s = .next { s with fuses := fu, chip := c } ∧ Touch 0x7fffffb 0x200000000000000000000000000000000000000000000000000009882010000 s.chip c := by
  refine ⟨_, _, rfl, ?_⟩
  generalize s.chip = c
  generalize s.fuses = fu
  beta_reduce
  repeat' first
    | (fail_if_no_progress extract_lets +onlyGivenNames x; first | (revert x; intro (x : Chip); refine Touch.cut (d := x) ?_ (fun hx => ?_); subst x; rotate_left; try clear_value x) | (revert x; intro (x : Chip × _); refine Touch.cut (d := x.1) ?_ (fun hx => ?_); subst x; rotate_left; try clear_value x) | (revert x; intro (x : _ × Chip); refine Touch.cut (d := x.2) ?_ (fun hx => ?_); subst x; rotate_left; try clear_value x) | (revert x; intro (x : _ × _ × Chip); refine Touch.cut (d := x.2.2) ?_ (fun hx => ?_); subst x; rotate_left; try clear_value x) | skip)
    | (with_reducible first | exact Touch.refl | assumption | apply Touch.step (Chip.allReset_touch ..) | apply Touch.step (Chip.otpLost_touch ..) | apply Touch.step (Chip.settleCut_touch ..))
    | decide +kernel
    | split
    | (intro _; intros)
    | (clear_value *; split)

theorem execBrownOutReset_touch (mv : Nat) (s : State) : ∃ fu c, execBrownOutReset mv s = .next { s with fuses := fu, chip := c } ∧ Touch 0x7fffffb 0x200000000000000000000000000000000000000000000000000009883010000 s.chip c := by
  refine ⟨_, _, rfl, ?_⟩
  generalize s.chip = c
  generalize s.fuses = fu
  beta_reduce
  repeat' first
    | (fail_if_no_progress extract_lets +onlyGivenNames x; first | (revert x; intro (x : Chip); refine Touch.cut (d := x) ?_ (fun hx => ?_); subst x; rotate_left; try clear_value x) | (revert x; intro (x : Chip × _); refine Touch.cut (d := x.1) ?_ (fun hx => ?_); subst x; rotate_left; try clear_value x) | (revert x; intro (x : _ × Chip); refine Touch.cut (d := x.2) ?_ (fun hx => ?_); subst x; rotate_left; try clear_value x) | (revert x; intro (x : _ × _ × Chip); refine Touch.cut (d := x.2.2) ?_ (fun hx => ?_); subst x; rotate_left; try clear_value x) | skip)
    | (with_reducible first | exact Touch.refl | assumption | apply Touch.put | apply Touch.step (Chip.allReset_touch ..) | apply Touch.step (Chip.otpLost_touch ..) | apply Touch.step (Chip.settleCut_touch ..))
    | decide +kernel
    | split
    | (intro _; intros)
    | (clear_value *; split)

theorem execPorstNRise_touch (strapClass : Nat) (strapSide recoveryN : Bool) (s : State) : ∃ c, execPorstNRise strapClass strapSide recoveryN s = .next (s.after c) ∧ Touch 0x122 0x1010010 s.chip c := by
  refine ⟨_, rfl, ?_⟩
  generalize s.chip = c
  beta_reduce
  repeat' first
    | (fail_if_no_progress extract_lets +onlyGivenNames x; first | (revert x; intro (x : Chip); refine Touch.cut (d := x) ?_ (fun hx => ?_); subst x; rotate_left; try clear_value x) | (revert x; intro (x : Chip × _); refine Touch.cut (d := x.1) ?_ (fun hx => ?_); subst x; rotate_left; try clear_value x) | skip)
    | (with_reducible first | exact Touch.refl | assumption | apply Touch.put | apply Touch.step (Chip.railIn_touch ..))
    | decide +kernel
    | (with_reducible apply Touch.upd) <;> first | (intro p; cases p <;> dsimp only [Part.same] <;> first | exact Or.inl (by decide +kernel) | exact Or.inr rfl) | (with_reducible first | exact Touch.refl | assumption | apply Touch.put | apply Touch.step (Chip.railIn_touch ..)) | split
    | split
    | (intro _; intros)
    | (clear_value *; split)

theorem execSysrstNPulse_touch (taken recoveryN : Bool) (s : State) : ∃ c, execSysrstNPulse taken recoveryN s = .next (s.cutAfter c) ∧ Touch 0x7effbfe 0x84200180200000001d0080001830400008100000000000000000010c402250004 s.chip c := by
  refine ⟨_, rfl, ?_⟩
  generalize s.chip = c
  beta_reduce
  repeat' first
    | (fail_if_no_progress extract_lets +onlyGivenNames x; first | (revert x; intro (x : Chip); refine Touch.cut (d := x) ?_ (fun hx => ?_); subst x; rotate_left; try clear_value x) | (revert x; intro (x : Chip × _); refine Touch.cut (d := x.1) ?_ (fun hx => ?_); subst x; rotate_left; try clear_value x) | skip)
    | (with_reducible first | exact Touch.refl | assumption | apply Touch.put | apply Chip.aon_touch | apply Touch.step (Chip.freezeNoil_touch ..) | apply Touch.step (Chip.tryWake_touch ..) | apply Touch.step (Chip.warmReset_touch ..))
    | decide +kernel
    | (with_reducible apply Touch.upd) <;> first | (intro p; cases p <;> dsimp only [Part.same] <;> first | exact Or.inl (by decide +kernel) | exact Or.inr rfl) | (with_reducible first | exact Touch.refl | assumption | apply Touch.put | apply Chip.aon_touch | apply Touch.step (Chip.freezeNoil_touch ..) | apply Touch.step (Chip.tryWake_touch ..) | apply Touch.step (Chip.warmReset_touch ..)) | split
    | split
    | (intro _; intros)
    | (clear_value *; split)

theorem execVinFuseOkFall_touch (mv : Nat) (s : State) : ∃ c, execVinFuseOkFall mv s = .next (s.cutAfter c) ∧ Touch 0x7effbfe 0x84200180200000001d0080001830400008100000000000000000670c403050034 s.chip c := by
  refine ⟨_, rfl, ?_⟩
  generalize s.chip = c
  beta_reduce
  repeat' first
    | (fail_if_no_progress extract_lets +onlyGivenNames x; first | (revert x; intro (x : Chip); refine Touch.cut (d := x) ?_ (fun hx => ?_); subst x; rotate_left; try clear_value x) | (revert x; intro (x : Chip × _); refine Touch.cut (d := x.1) ?_ (fun hx => ?_); subst x; rotate_left; try clear_value x) | skip)
    | (with_reducible first | exact Touch.refl | assumption | apply Touch.each | apply Touch.step (Chip.railTo_touch ..) | apply Touch.step (Chip.snagDecide_touch ..))
    | decide +kernel
    | split
    | (intro _; intros)
    | (clear_value *; split)

theorem execVinFuseOkRise_touch (mv : Nat) (s : State) : ∃ c, execVinFuseOkRise mv s = .next (s.after c) ∧ Touch 0x308 0x180000000000000000000000000000000000000000000000004003010004 s.chip c := by
  refine ⟨_, rfl, ?_⟩
  generalize s.chip = c
  generalize s.fuses = fu
  beta_reduce
  repeat' first
    | (with_reducible first | exact Touch.refl | assumption | apply Chip.aon_touch | apply Touch.step (Chip.quenchFill_touch ..) | apply Touch.step (Chip.railTo_touch ..))
    | decide +kernel
    | split
    | (intro _; intros)
    | (clear_value *; split)

theorem execVinOkFall_touch (mv : Nat) (s : State) : ∃ c, execVinOkFall mv s = .next (s.cutAfter c) ∧ Touch 0x7effbfe 0x84200180200000001d0080001830400008100000000000000000670c403050034 s.chip c := by
  refine ⟨_, rfl, ?_⟩
  generalize s.chip = c
  beta_reduce
  repeat' first
    | (fail_if_no_progress extract_lets +onlyGivenNames x; first | (revert x; intro (x : Chip); refine Touch.cut (d := x) ?_ (fun hx => ?_); subst x; rotate_left; try clear_value x) | (revert x; intro (x : Chip × _); refine Touch.cut (d := x.1) ?_ (fun hx => ?_); subst x; rotate_left; try clear_value x) | skip)
    | (with_reducible first | exact Touch.refl | assumption | apply Touch.each | apply Touch.step (Chip.railTo_touch ..) | apply Touch.step (Chip.snagDecide_touch ..))
    | decide +kernel
    | split
    | (intro _; intros)
    | (clear_value *; split)

theorem execRsvReady_touch (s : State) : ∃ c, execRsvReady s = .next (s.cutAfter c) ∧ Touch 0x308 0x180000000000000000000000000000000000000000000000004402010004 s.chip c := by
  refine ⟨_, rfl, ?_⟩
  generalize s.chip = c
  beta_reduce
  repeat' first
    | (fail_if_no_progress extract_lets +onlyGivenNames x; first | (revert x; intro (x : Chip); refine Touch.cut (d := x) ?_ (fun hx => ?_); subst x; rotate_left; try clear_value x) | (revert x; intro (x : Chip × _); refine Touch.cut (d := x.1) ?_ (fun hx => ?_); subst x; rotate_left; try clear_value x) | skip)
    | (with_reducible first | exact Touch.refl | assumption | apply Touch.put | apply Chip.aon_touch | apply Touch.step (Chip.quenchStart_touch ..))
    | decide +kernel
    | split
    | (intro _; intros)
    | (clear_value *; split)

theorem execRefclkLost_touch (s : State) : ∃ c, execRefclkLost s = .next (s.cutAfter c) ∧ Touch 0x7effbfe 0x84200180200000001d0080001830400008100000000000000002670c402050034 s.chip c := by
  refine ⟨_, rfl, ?_⟩
  generalize s.chip = c
  beta_reduce
  repeat' first
    | (fail_if_no_progress extract_lets +onlyGivenNames x; first | (revert x; intro (x : Chip); refine Touch.cut (d := x) ?_ (fun hx => ?_); subst x; rotate_left; try clear_value x) | (revert x; intro (x : Chip × _); refine Touch.cut (d := x.1) ?_ (fun hx => ?_); subst x; rotate_left; try clear_value x) | skip)
    | (with_reducible first | exact Touch.refl | assumption | apply Touch.put | apply Chip.aon_touch | apply Touch.step (Chip.log_touch ..) | apply Touch.step (Chip.snagDecide_touch ..) | apply Touch.step (Chip.whlUnaligned_touch ..))
    | decide +kernel
    | split
    | (intro _; intros)
    | (clear_value *; split)

theorem execClockGlitch_touch (s : State) : ∃ c, execClockGlitch s = .next (s.cutAfter c) ∧ Touch 0x7effbfe 0x84200180200000001d0080001830400008100000000000000000670c402050034 s.chip c := by
  refine ⟨_, rfl, ?_⟩
  generalize s.chip = c
  beta_reduce
  repeat' first
    | (with_reducible first | exact Touch.refl | assumption | apply Chip.aon_touch | apply Touch.step (Chip.snagDecide_touch ..))
    | decide +kernel
    | split
    | (intro _; intros)
    | (clear_value *; split)

theorem execRefclkPresentAgain_touch (s : State) : ∃ c, execRefclkPresentAgain s = .next (s.after c) ∧ Touch 0x14c 0x180000000000000000000000000000000000000000000020100000010004 s.chip c := by
  refine ⟨_, rfl, ?_⟩
  generalize s.chip = c
  beta_reduce
  repeat' first
    | (fail_if_no_progress extract_lets +onlyGivenNames x; first | (revert x; intro (x : Chip); refine Touch.cut (d := x) ?_ (fun hx => ?_); subst x; rotate_left; try clear_value x) | (revert x; intro (x : Chip × _); refine Touch.cut (d := x.1) ?_ (fun hx => ?_); subst x; rotate_left; try clear_value x) | skip)
    | (with_reducible first | exact Touch.refl | assumption | apply Touch.put | apply Chip.aon_touch | apply Touch.step (Chip.log_touch ..) | apply Touch.step (Chip.tryWake_touch ..))
    | decide +kernel
    | split
    | (intro _; intros)
    | (clear_value *; split)

theorem execSeqSvcWake_touch (s : State) : ∃ c, execSeqSvcWake s = .next (s.after c) ∧ Touch 0x148 0x180000000000000000000000000000000000000000000000100000010004 s.chip c := by
  refine ⟨_, rfl, ?_⟩
  generalize s.chip = c
  beta_reduce
  repeat' first
    | (with_reducible first | exact Touch.refl | assumption | apply Chip.aon_touch | apply Touch.step (Chip.svcWake_touch ..))
    | decide +kernel
    | split
    | (intro _; intros)
    | (clear_value *; split)

theorem execSvcPllLocked_touch (s : State) : ∃ c, execSvcPllLocked s = .next (s.after c) ∧ Touch 0x16c 0x180000000000000000000000000000400000000000000000000000050034 s.chip c := by
  refine ⟨_, rfl, ?_⟩
  generalize s.chip = c
  beta_reduce
  repeat' first
    | (with_reducible first | exact Touch.refl | assumption | apply Touch.step (Chip.svcStart_touch ..))
    | decide +kernel
    | split
    | (intro _; intros)
    | (clear_value *; split)

theorem execSvcPllTimeout_touch (s : State) : ∃ c, execSvcPllTimeout s = .next (s.after c) ∧ Touch 0x7eff9fa 0x200180200000000000000000000000000000000000000000000008000050034 s.chip c := by
  refine ⟨_, rfl, ?_⟩
  generalize s.chip = c
  beta_reduce
  repeat' first
    | (with_reducible first | exact Touch.refl | assumption | apply Touch.step (Chip.enterHeld_touch ..) | apply Touch.step (Chip.log_touch ..))
    | decide +kernel
    | (with_reducible apply Touch.upd) <;> first | (intro p; cases p <;> dsimp only [Part.same] <;> first | exact Or.inl (by decide +kernel) | exact Or.inr rfl) | (with_reducible first | exact Touch.refl | assumption | apply Touch.step (Chip.enterHeld_touch ..) | apply Touch.step (Chip.log_touch ..)) | split
    | split
    | (intro _; intros)
    | (clear_value *; split)

theorem execSleepReq_touch (req : Req) (s : State) : ∃ c, execSleepReq req s = .next (s.cutAfter c) ∧ Touch 0x167db7c 0x84000180000000001d0080001830400008100000000000000000010c402210004 s.chip c := by
  refine ⟨_, rfl, ?_⟩
  generalize s.chip = c
  beta_reduce
  repeat' first
    | (with_reducible first | exact Touch.refl | assumption | apply Chip.guarded_touch | apply Touch.step (Chip.sleepRequest_touch ..) | apply Touch.step (Chip.wrote_touch ..))
    | decide +kernel
    | split
    | (intro _; intros)
    | (clear_value *; split)

theorem execSleepEntryDone_touch (s : State) : ∃ c, execSleepEntryDone s = .next (s.after c) ∧ Touch 0x7eff9fe 0x200180000000000000000000000000000000000000000000000108000050004 s.chip c := by
  refine ⟨_, rfl, ?_⟩
  generalize s.chip = c
  beta_reduce
  repeat' first
    | (with_reducible first | exact Touch.refl | assumption | apply Touch.step (Chip.log_touch ..) | apply Touch.step (Chip.setSeq_touch ..) | apply Touch.step (Chip.svcLost_touch ..) | apply Touch.step (Chip.tryWake_touch ..))
    | decide +kernel
    | split
    | (intro _; intros)
    | (clear_value *; split)

theorem execPwrShutdown_touch (req : Req) (s : State) : ∃ c, execPwrShutdown req s = .next (s.cutAfter c) ∧ Touch 0x7effbfe 0x84200180000000001d0080001830400008100000000000000000010c402258004 s.chip c := by
  refine ⟨_, rfl, ?_⟩
  generalize s.chip = c
  beta_reduce
  repeat' first
    | (with_reducible first | exact Touch.refl | assumption | apply Chip.guarded_touch | apply Touch.step (Chip.shutdownWrite_touch ..) | apply Touch.step (Chip.wrote_touch ..))
    | decide +kernel
    | split
    | (intro _; intros)
    | (clear_value *; split)

theorem execWakeFabricAccess_touch (req : Req) (off : Nat) (write : Bool) (s : State) : ∃ c, execWakeFabricAccess req off write s = .next (s.after c) ∧ Touch 0x14c 0x180000000000000000000000000000000000000000000000100000210004 s.chip c := by
  refine ⟨_, rfl, ?_⟩
  generalize s.chip = c
  beta_reduce
  repeat' first
    | (with_reducible first | exact Touch.refl | assumption | apply Touch.step (Chip.darkAccess_touch ..))
    | decide +kernel
    | split
    | (intro _; intros)
    | (clear_value *; split)

theorem execWakeTimer_touch (s : State) : ∃ c, execWakeTimer s = .next (s.after c) ∧ Touch 0x14c 0x180000000000000000000000000000000000000000000000100000210004 s.chip c := by
  refine ⟨_, rfl, ?_⟩
  generalize s.chip = c
  beta_reduce
  repeat' first
    | (with_reducible first | exact Touch.refl | assumption | apply Touch.step (Chip.wakeSource_touch ..))
    | decide +kernel
    | split
    | (intro _; intros)
    | (clear_value *; split)

theorem execWakePlyBeacon_touch (s : State) : ∃ c, execWakePlyBeacon s = .next (s.after c) ∧ Touch 0x14c 0x180000000000000000000000000000000000000000000000100000210004 s.chip c := by
  refine ⟨_, rfl, ?_⟩
  generalize s.chip = c
  beta_reduce
  repeat' first
    | (with_reducible first | exact Touch.refl | assumption | apply Touch.step (Chip.wakeSource_touch ..))
    | decide +kernel
    | split
    | (intro _; intros)
    | (clear_value *; split)

theorem execWakeSvcPort_touch (s : State) : ∃ c, execWakeSvcPort s = .next (s.after c) ∧ Touch 0x14c 0x180000000000000000000000000000000000000000000000100000210004 s.chip c := by
  refine ⟨_, rfl, ?_⟩
  generalize s.chip = c
  beta_reduce
  repeat' first
    | (with_reducible first | exact Touch.refl | assumption | apply Touch.step (Chip.wakeSource_touch ..))
    | decide +kernel
    | split
    | (intro _; intros)
    | (clear_value *; split)

end Sys2Proof.Machine
end

