-- ==== Sys2Proof/Laws/ExecRegWrite.lean ====
section
/-! SUPPORT. What each command of Machine/RegWrite.lean can change before what follows of itself: the two masks of `Touch` (Laws/Touch.lean). -/

set_option linter.unreachableTactic false
set_option linter.unusedTactic false
set_option linter.tactic.unusedName false
set_option linter.unnecessarySeqFocus false
set_option linter.unusedVariables false
set_option Elab.async false

namespace Sys2Proof.Machine

theorem execRegisterWrite_touch (req : Req) (off : Nat) (value : Word) (s : State) : ∃ c, execRegisterWrite req off value s = .next (s.cutSettled c) ∧ Touch 0x7effffe 0xf5e4c1c223e03edb9d00803078f47c823d9810413f738c3f8040418d66225c034 s.chip c := by
  refine ⟨_, rfl, ?_⟩
  generalize s.chip = c
  generalize s.fuses = fu
  beta_reduce
  repeat' first
    | (with_reducible first | exact Touch.refl | assumption | apply Touch.step (Chip.badAccess_touch ..) | apply Touch.step (Chip.fabricWrite_touch ..))
    | decide +kernel
    | split
    | (intro _; intros)
    | (clear_value *; split)

end Sys2Proof.Machine
end

