-- ==== Sys2Proof/Laws/ExecSnag.lean ====
section
/-! SUPPORT. What each command of Machine/Snag.lean can change before what follows of itself: the two masks of `Touch` (Laws/Touch.lean). -/

set_option linter.unreachableTactic false
set_option linter.unusedTactic false
set_option linter.tactic.unusedName false
set_option linter.unnecessarySeqFocus false
set_option linter.unusedVariables false
set_option Elab.async false

namespace Sys2Proof.Machine

theorem execSnagDecision_touch (causes : List PadCause) (s : State) : ∃ fu c, execSnagDecision causes s = .next { s with fuses := fu, chip := c } ∧ Touch 0x7effbfe 0x84200180200000001d0080001830400008100000000000000000670dc83050034 s.chip c := by
  refine ⟨_, _, rfl, ?_⟩
  generalize s.chip = c
  generalize s.fuses = fu
  beta_reduce
  repeat' first
    | (fail_if_no_progress extract_lets +onlyGivenNames x; first | (revert x; intro (x : Chip); refine Touch.cut (d := x) ?_ (fun hx => ?_); subst x; rotate_left; try clear_value x) | (revert x; intro (x : Chip × _); refine Touch.cut (d := x.1) ?_ (fun hx => ?_); subst x; rotate_left; try clear_value x) | (revert x; intro (x : _ × Chip); refine Touch.cut (d := x.2) ?_ (fun hx => ?_); subst x; rotate_left; try clear_value x) | (revert x; intro (x : _ × _ × Chip); refine Touch.cut (d := x.2.2) ?_ (fun hx => ?_); subst x; rotate_left; try clear_value x) | skip)
    | (with_reducible first | exact Touch.refl | assumption | apply Touch.put | apply Chip.aon_touch | apply Touch.step (Chip.quenchFill_touch ..) | apply Touch.step (Chip.railCheck_touch ..) | apply Touch.step (Chip.snagDecide_touch ..) | apply Touch.step (Chip.settleCut_touch ..))
    | decide +kernel
    | (with_reducible apply Touch.upd) <;> first | (intro p; cases p <;> dsimp only [Part.same] <;> first | exact Or.inl (by decide +kernel) | exact Or.inr rfl) | (with_reducible first | exact Touch.refl | assumption | apply Touch.put | apply Chip.aon_touch | apply Touch.step (Chip.quenchFill_touch ..) | apply Touch.step (Chip.railCheck_touch ..) | apply Touch.step (Chip.snagDecide_touch ..) | apply Touch.step (Chip.settleCut_touch ..)) | split
    | split
    | (intro _; intros)
    | (clear_value *; split)

theorem execZeroizeOutPulseEnd_touch (s : State) : ∃ c, execZeroizeOutPulseEnd s = .next (s.after c) ∧ Touch 0x120 0x100000000000 s.chip c := by
  refine ⟨_, rfl, ?_⟩
  generalize s.chip = c
  beta_reduce
  repeat' first
    | (with_reducible first | exact Touch.refl | assumption | apply Touch.step (Chip.driveOut_touch ..))
    | decide +kernel
    | split
    | (intro _; intros)
    | (clear_value *; split)

theorem execRecordWriter_touch (vinFell verified : Bool) (s : State) : ∃ c, execRecordWriter vinFell verified s = .next (s.after c) ∧ Touch 0x98a 0x180000000000000000000000000000000000000000000004000000000004 s.chip c := by
  refine ⟨_, rfl, ?_⟩
  generalize s.chip = c
  beta_reduce
  repeat' first
    | (fail_if_no_progress extract_lets +onlyGivenNames x; first | (revert x; intro (x : Chip); refine Touch.cut (d := x) ?_ (fun hx => ?_); subst x; rotate_left; try clear_value x) | (revert x; intro (x : Chip × _); refine Touch.cut (d := x.1) ?_ (fun hx => ?_); subst x; rotate_left; try clear_value x) | (revert x; intro (x : _ × Chip); refine Touch.cut (d := x.2) ?_ (fun hx => ?_); subst x; rotate_left; try clear_value x) | (revert x; intro (x : _ × _ × Chip); refine Touch.cut (d := x.2.2) ?_ (fun hx => ?_); subst x; rotate_left; try clear_value x) | skip)
    | (with_reducible first | exact Touch.refl | assumption | apply Touch.put | apply Touch.step (Chip.drawBytes_touch ..) | apply Touch.step (Chip.log_touch ..) | apply Touch.step (Chip.norWr_touch ..))
    | decide +kernel
    | (with_reducible apply Touch.upd) <;> first | (intro p; cases p <;> dsimp only [Part.same] <;> first | exact Or.inl (by decide +kernel) | exact Or.inr rfl) | (with_reducible first | exact Touch.refl | assumption | apply Touch.put | apply Touch.step (Chip.drawBytes_touch ..) | apply Touch.step (Chip.log_touch ..) | apply Touch.step (Chip.norWr_touch ..)) | split
    | split
    | (intro _; intros)
    | (clear_value *; split)

theorem execTempConversion_touch (t0 t1 : Int) (s : State) : ∃ c, execTempConversion t0 t1 s = .next (s.cutAfter c) ∧ Touch 0x7effbfe 0x84200180200000001d00800018304000081000000000000000006f0c402050034 s.chip c := by
  refine ⟨_, rfl, ?_⟩
  generalize s.chip = c
  beta_reduce
  repeat' first
    | (fail_if_no_progress extract_lets +onlyGivenNames x; first | (revert x; intro (x : Chip); refine Touch.cut (d := x) ?_ (fun hx => ?_); subst x; rotate_left; try clear_value x) | (revert x; intro (x : Chip × _); refine Touch.cut (d := x.1) ?_ (fun hx => ?_); subst x; rotate_left; try clear_value x) | skip)
    | (with_reducible first | exact Touch.refl | assumption | apply Touch.put | apply Chip.aon_touch | apply Touch.step (Chip.decideHealth_touch ..) | apply Touch.step (Chip.suspects_touch ..) | apply Touch.step (Chip.tempCauses_touch ..))
    | decide +kernel
    | split
    | (intro _; intros)
    | (clear_value *; split)

theorem execSensorCalibration_touch (result : CalResult) (s : State) : ∃ c, execSensorCalibration result s = .next (s.cutAfter c) ∧ Touch 0x7effbfe 0x84200180200000001d0080001830400008100000000000000000770c402050034 s.chip c := by
  refine ⟨_, rfl, ?_⟩
  generalize s.chip = c
  beta_reduce
  repeat' first
    | (with_reducible first | exact Touch.refl | assumption | apply Chip.aon_touch | apply Touch.step (Chip.calibrate_touch ..))
    | decide +kernel
    | split
    | (intro _; intros)
    | (clear_value *; split)

theorem execForceCal_touch (req : Req) (results : List CalResult) (s : State) : ∃ c, execForceCal req results s = .next (s.cutAfter c) ∧ Touch 0x7effbfe 0x84200180200000001d0080001830400008100000000000000000770c402250034 s.chip c := by
  refine ⟨_, rfl, ?_⟩
  generalize s.chip = c
  beta_reduce
  repeat' first
    | (with_reducible first | exact Touch.refl | assumption | apply Touch.each | apply Chip.aon_touch | apply Touch.step (Chip.calibrate_touch ..) | apply Chip.guarded_touch | apply Touch.step (Chip.wrote_touch ..))
    | decide +kernel
    | split
    | (intro _; intros)
    | (clear_value *; split)

theorem execQuenchEn_touch (req : Req) (value : Bool) (s : State) : ∃ c, execQuenchEn req value s = .next (s.after c) ∧ Touch 0x94c 0x180000000000000000000000000000000000000000000004180000210004 s.chip c := by
  refine ⟨_, rfl, ?_⟩
  generalize s.chip = c
  beta_reduce
  repeat' first
    | (with_reducible first | exact Touch.refl | assumption | apply Chip.aon_touch | apply Chip.guarded_touch | apply Touch.step (Chip.quenchWrite_touch ..) | apply Touch.step (Chip.wrote_touch ..))
    | decide +kernel
    | split
    | (intro _; intros)
    | (clear_value *; split)

end Sys2Proof.Machine
end

