-- ==== Sys2Proof/Laws/ExecSpdm.lean ====
section
/-! SUPPORT. What each command of Machine/Spdm.lean can change before what follows of itself: the two masks of `Touch` (Laws/Touch.lean). -/

set_option linter.unreachableTactic false
set_option linter.unusedTactic false
set_option linter.tactic.unusedName false
set_option linter.unnecessarySeqFocus false
set_option linter.unusedVariables false
set_option Elab.async false

namespace Sys2Proof.Machine

theorem execSnapshotGet_touch (n : Nat) (s : State) : ∃ c, execSnapshotGet n s = .next (s.settled c) ∧ Touch 0x190c 0xc00180000000000000000000000000000010400000000000000000000000004 s.chip c := by
  refine ⟨_, rfl, ?_⟩
  generalize s.chip = c
  beta_reduce
  repeat' first
    | (with_reducible first | exact Touch.refl | assumption | apply Chip.onCall_touch)
    | decide +kernel
    | split
    | (intro _; intros)
    | (clear_value *; split)

theorem execSignReport_touch (n : Nat) (s : State) : ∃ c, execSignReport n s = .next (s.settled c) ∧ Touch 0x20190c 0xc00180000000000000000000000000000010400000000000000000000000004 s.chip c := by
  refine ⟨_, rfl, ?_⟩
  generalize s.chip = c
  beta_reduce
  repeat' first
    | (fail_if_no_progress extract_lets +onlyGivenNames x; first | (revert x; intro (x : Chip); refine Touch.cut (d := x) ?_ (fun hx => ?_); subst x; rotate_left; try clear_value x) | (revert x; intro (x : Chip × _); refine Touch.cut (d := x.1) ?_ (fun hx => ?_); subst x; rotate_left; try clear_value x) | skip)
    | (with_reducible first | exact Touch.refl | assumption | apply Touch.step (Chip.log_touch ..) | apply Chip.onCall_touch | apply Chip.pending_touch | apply Touch.step (Chip.queueFull_touch ..) | apply Touch.step (Chip.sigPut_touch ..))
    | decide +kernel
    | split
    | (intro _; intros)
    | (clear_value *; split)

theorem execSignSpdm_touch (n : Nat) (s : State) : ∃ c, execSignSpdm n s = .next (s.settled c) ∧ Touch 0x20190c 0xc00180000000000000000000000000000010400000000000000000000000004 s.chip c := by
  refine ⟨_, rfl, ?_⟩
  generalize s.chip = c
  beta_reduce
  repeat' first
    | (fail_if_no_progress extract_lets +onlyGivenNames x; first | (revert x; intro (x : Chip); refine Touch.cut (d := x) ?_ (fun hx => ?_); subst x; rotate_left; try clear_value x) | (revert x; intro (x : Chip × _); refine Touch.cut (d := x.1) ?_ (fun hx => ?_); subst x; rotate_left; try clear_value x) | skip)
    | (with_reducible first | exact Touch.refl | assumption | apply Chip.onCall_touch | apply Chip.pending_touch | apply Touch.step (Chip.queueFull_touch ..) | apply Touch.step (Chip.sigPut_touch ..))
    | decide +kernel
    | split
    | (intro _; intros)
    | (clear_value *; split)

theorem execSessionKeys_touch (n : Nat) (s : State) : ∃ c, execSessionKeys n s = .next (s.settled c) ∧ Touch 0x24190c 0xc00180000000000000000000200000000010400000000000000000000000004 s.chip c := by
  refine ⟨_, rfl, ?_⟩
  generalize s.chip = c
  beta_reduce
  repeat' first
    | (fail_if_no_progress extract_lets +onlyGivenNames x; first | (revert x; intro (x : Chip); refine Touch.cut (d := x) ?_ (fun hx => ?_); subst x; rotate_left; try clear_value x) | (revert x; intro (x : Chip × _); refine Touch.cut (d := x.1) ?_ (fun hx => ?_); subst x; rotate_left; try clear_value x) | skip)
    | (with_reducible first | exact Touch.refl | assumption | apply Touch.step (Chip.chKeySet_touch ..) | apply Chip.onCall_touch | apply Touch.step (Chip.sp_touch ..))
    | decide +kernel
    | split
    | (intro _; intros)
    | (clear_value *; split)

theorem execReportSigned_touch (k : Nat) (s : State) : ∃ c, execReportSigned k s = .next (s.settled c) ∧ Touch 0x224190e 0xc00180000000000000000000004000000010400000000000000000000000004 s.chip c := by
  refine ⟨_, rfl, ?_⟩
  generalize s.chip = c
  beta_reduce
  repeat' first
    | (with_reducible first | exact Touch.refl | assumption | apply Touch.step (Chip.reportDone_touch ..))
    | decide +kernel
    | split
    | (intro _; intros)
    | (clear_value *; split)

theorem execGetVersion_touch (m : SpdmMsg) (s : State) : ∃ c, execGetVersion m s = .next (s.settled c) ∧ Touch 0x163111c 0xc00180000000000000000000000088300010400000022000000000000000004 s.chip c := by
  refine ⟨_, rfl, ?_⟩
  generalize s.chip = c
  beta_reduce
  repeat' first
    | (fail_if_no_progress extract_lets +onlyGivenNames x; first | (revert x; intro (x : Chip); refine Touch.cut (d := x) ?_ (fun hx => ?_); subst x; rotate_left; try clear_value x) | (revert x; intro (x : Chip × _); refine Touch.cut (d := x.1) ?_ (fun hx => ?_); subst x; rotate_left; try clear_value x) | skip)
    | (with_reducible first | exact Touch.refl | assumption | apply Touch.step (Chip.connMod_touch ..) | apply Touch.step (Chip.spdmOut_touch ..) | apply Chip.spdmServe_touch)
    | decide +kernel
    | split
    | (intro _; intros)
    | (clear_value *; split)

theorem execGetCapabilities_touch (m : SpdmMsg) (s : State) : ∃ c, execGetCapabilities m s = .next (s.settled c) ∧ Touch 0x163111c 0xc00180000000000000000000000088300010400000022000000000000000004 s.chip c := by
  refine ⟨_, rfl, ?_⟩
  generalize s.chip = c
  beta_reduce
  repeat' first
    | (fail_if_no_progress extract_lets +onlyGivenNames x; first | (revert x; intro (x : Chip); refine Touch.cut (d := x) ?_ (fun hx => ?_); subst x; rotate_left; try clear_value x) | (revert x; intro (x : Chip × _); refine Touch.cut (d := x.1) ?_ (fun hx => ?_); subst x; rotate_left; try clear_value x) | skip)
    | (with_reducible first | exact Touch.refl | assumption | apply Touch.step (Chip.connMod_touch ..) | apply Touch.step (Chip.spdmErr_touch ..) | apply Touch.step (Chip.spdmOut_touch ..) | apply Chip.spdmServe_touch)
    | decide +kernel
    | split
    | (intro _; intros)
    | (clear_value *; split)

theorem execNegotiateAlgorithms_touch (m : SpdmMsg) (s : State) : ∃ c, execNegotiateAlgorithms m s = .next (s.settled c) ∧ Touch 0x163111c 0xc00180000000000000000000000088300010400000022000000000000000004 s.chip c := by
  refine ⟨_, rfl, ?_⟩
  generalize s.chip = c
  beta_reduce
  repeat' first
    | (fail_if_no_progress extract_lets +onlyGivenNames x; first | (revert x; intro (x : Chip); refine Touch.cut (d := x) ?_ (fun hx => ?_); subst x; rotate_left; try clear_value x) | (revert x; intro (x : Chip × _); refine Touch.cut (d := x.1) ?_ (fun hx => ?_); subst x; rotate_left; try clear_value x) | skip)
    | (with_reducible first | exact Touch.refl | assumption | apply Touch.step (Chip.connMod_touch ..) | apply Touch.step (Chip.spdmErr_touch ..) | apply Touch.step (Chip.spdmOut_touch ..) | apply Chip.spdmServe_touch)
    | decide +kernel
    | split
    | (intro _; intros)
    | (clear_value *; split)

theorem execGetDigests_touch (m : SpdmMsg) (s : State) : ∃ c, execGetDigests m s = .next (s.settled c) ∧ Touch 0x163111c 0xc00180000000000000000000000088300010400000022000000000000000004 s.chip c := by
  refine ⟨_, rfl, ?_⟩
  generalize s.chip = c
  beta_reduce
  repeat' first
    | (fail_if_no_progress extract_lets +onlyGivenNames x; first | (revert x; intro (x : Chip); refine Touch.cut (d := x) ?_ (fun hx => ?_); subst x; rotate_left; try clear_value x) | (revert x; intro (x : Chip × _); refine Touch.cut (d := x.1) ?_ (fun hx => ?_); subst x; rotate_left; try clear_value x) | skip)
    | (with_reducible first | exact Touch.refl | assumption | apply Touch.step (Chip.connMod_touch ..) | apply Touch.step (Chip.spdmOut_touch ..) | apply Chip.spdmServe_touch | apply Chip.withChain_touch)
    | decide +kernel
    | split
    | (intro _; intros)
    | (clear_value *; split)

theorem execGetCertificate_touch (m : SpdmMsg) (s : State) : ∃ c, execGetCertificate m s = .next (s.settled c) ∧ Touch 0x163111c 0xc00180000000000000000000000088300010400000022000000000000000004 s.chip c := by
  refine ⟨_, rfl, ?_⟩
  generalize s.chip = c
  beta_reduce
  repeat' first
    | (fail_if_no_progress extract_lets +onlyGivenNames x; first | (revert x; intro (x : Chip); refine Touch.cut (d := x) ?_ (fun hx => ?_); subst x; rotate_left; try clear_value x) | (revert x; intro (x : Chip × _); refine Touch.cut (d := x.1) ?_ (fun hx => ?_); subst x; rotate_left; try clear_value x) | skip)
    | (with_reducible first | exact Touch.refl | assumption | apply Touch.step (Chip.connMod_touch ..) | apply Touch.step (Chip.spdmErr_touch ..) | apply Touch.step (Chip.spdmOut_touch ..) | apply Chip.spdmServe_touch | apply Chip.withChain_touch)
    | decide +kernel
    | split
    | (intro _; intros)
    | (clear_value *; split)

theorem execChallenge_touch (m : SpdmMsg) (s : State) : ∃ c, execChallenge m s = .next (s.settled c) ∧ Touch 0x167111e 0xc00180000000000000000000004088300010400000022000000000000000004 s.chip c := by
  refine ⟨_, rfl, ?_⟩
  generalize s.chip = c
  beta_reduce
  repeat' first
    | (fail_if_no_progress extract_lets +onlyGivenNames x; first | (revert x; intro (x : Chip); refine Touch.cut (d := x) ?_ (fun hx => ?_); subst x; rotate_left; try clear_value x) | (revert x; intro (x : Chip × _); refine Touch.cut (d := x.1) ?_ (fun hx => ?_); subst x; rotate_left; try clear_value x) | (revert x; intro (x : _ × Chip); refine Touch.cut (d := x.2) ?_ (fun hx => ?_); subst x; rotate_left; try clear_value x) | (revert x; intro (x : _ × _ × Chip); refine Touch.cut (d := x.2.2) ?_ (fun hx => ?_); subst x; rotate_left; try clear_value x) | skip)
    | (with_reducible first | exact Touch.refl | assumption | apply Touch.step (Chip.connMod_touch ..) | apply Touch.step (Chip.rnd_touch ..) | apply Touch.step (Chip.signLater_touch ..) | apply Touch.step (Chip.spdmErr_touch ..) | apply Chip.spdmServe_touch | apply Chip.withChain_touch)
    | decide +kernel
    | split
    | (intro _; intros)
    | (clear_value *; split)

theorem execGetMeasurements_touch (m : SpdmMsg) (s : State) : ∃ c, execGetMeasurements m s = .next (s.settled c) ∧ Touch 0x167111e 0xc00180000000000000000000004088300010400000022000000000000000004 s.chip c := by
  refine ⟨_, rfl, ?_⟩
  generalize s.chip = c
  beta_reduce
  repeat' first
    | (fail_if_no_progress extract_lets +onlyGivenNames x; first | (revert x; intro (x : Chip); refine Touch.cut (d := x) ?_ (fun hx => ?_); subst x; rotate_left; try clear_value x) | (revert x; intro (x : Chip × _); refine Touch.cut (d := x.1) ?_ (fun hx => ?_); subst x; rotate_left; try clear_value x) | (revert x; intro (x : _ × Chip); refine Touch.cut (d := x.2) ?_ (fun hx => ?_); subst x; rotate_left; try clear_value x) | (revert x; intro (x : _ × _ × Chip); refine Touch.cut (d := x.2.2) ?_ (fun hx => ?_); subst x; rotate_left; try clear_value x) | skip)
    | (with_reducible first | exact Touch.refl | assumption | apply Touch.step (Chip.connMod_touch ..) | apply Touch.step (Chip.rnd_touch ..) | apply Touch.step (Chip.signLater_touch ..) | apply Touch.step (Chip.spdmErr_touch ..) | apply Touch.step (Chip.spdmOut_touch ..) | apply Chip.spdmServe_touch)
    | decide +kernel
    | split
    | (intro _; intros)
    | (clear_value *; split)

theorem execKeyExchange_touch (m : SpdmMsg) (s : State) : ∃ c, execKeyExchange m s = .next (s.settled c) ∧ Touch 0x167111e 0xc00180000000000000000000004088300010400000022000000000000000004 s.chip c := by
  refine ⟨_, rfl, ?_⟩
  generalize s.chip = c
  beta_reduce
  repeat' first
    | (fail_if_no_progress extract_lets +onlyGivenNames x; first | (revert x; intro (x : Chip); refine Touch.cut (d := x) ?_ (fun hx => ?_); subst x; rotate_left; try clear_value x) | (revert x; intro (x : Chip × _); refine Touch.cut (d := x.1) ?_ (fun hx => ?_); subst x; rotate_left; try clear_value x) | (revert x; intro (x : _ × Chip); refine Touch.cut (d := x.2) ?_ (fun hx => ?_); subst x; rotate_left; try clear_value x) | (revert x; intro (x : _ × _ × Chip); refine Touch.cut (d := x.2.2) ?_ (fun hx => ?_); subst x; rotate_left; try clear_value x) | skip)
    | (with_reducible first | exact Touch.refl | assumption | apply Touch.step (Chip.connMod_touch ..) | apply Touch.step (Chip.queueFull_touch ..) | apply Touch.step (Chip.rnd_touch ..) | apply Touch.step (Chip.sigPut_touch ..) | apply Touch.step (Chip.sp_touch ..) | apply Touch.step (Chip.spdmErr_touch ..) | apply Touch.step (Chip.spdmOut_touch ..) | apply Chip.spdmServe_touch | apply Chip.withChain_touch)
    | decide +kernel
    | split
    | (intro _; intros)
    | (clear_value *; split)

theorem execFinish_touch (m : SpdmMsg) (s : State) : ∃ c, execFinish m s = .next (s.settled c) ∧ Touch 0x163111c 0xc00180000000000000000000000088300010403000022000000000000000004 s.chip c := by
  refine ⟨_, rfl, ?_⟩
  generalize s.chip = c
  beta_reduce
  repeat' first
    | (fail_if_no_progress extract_lets +onlyGivenNames x; first | (revert x; intro (x : Chip); refine Touch.cut (d := x) ?_ (fun hx => ?_); subst x; rotate_left; try clear_value x) | (revert x; intro (x : Chip × _); refine Touch.cut (d := x.1) ?_ (fun hx => ?_); subst x; rotate_left; try clear_value x) | skip)
    | (with_reducible first | exact Touch.refl | assumption | apply Touch.step (Chip.log_touch ..) | apply Touch.step (Chip.mirrorThen_touch ..) | apply Touch.step (Chip.sessEnd_touch ..) | apply Touch.step (Chip.sessMod_touch ..) | apply Touch.step (Chip.spdmErr_touch ..) | apply Touch.step (Chip.spdmOut_touch ..) | apply Chip.spdmServe_touch)
    | decide +kernel
    | split
    | (intro _; intros)
    | (clear_value *; split)

theorem execHeartbeat_touch (m : SpdmMsg) (s : State) : ∃ c, execHeartbeat m s = .next (s.settled c) ∧ Touch 0x163111c 0xc00180000000000000000000000088300010400000022000000000000000004 s.chip c := by
  refine ⟨_, rfl, ?_⟩
  generalize s.chip = c
  beta_reduce
  repeat' first
    | (with_reducible first | exact Touch.refl | assumption | apply Touch.step (Chip.spdmOut_touch ..) | apply Chip.spdmServe_touch)
    | decide +kernel
    | split
    | (intro _; intros)
    | (clear_value *; split)

theorem execKeyUpdate_touch (m : SpdmMsg) (s : State) : ∃ c, execKeyUpdate m s = .next (s.settled c) ∧ Touch 0x163111c 0xc00180000000000000000000000088300010400000022000000000000000004 s.chip c := by
  refine ⟨_, rfl, ?_⟩
  generalize s.chip = c
  beta_reduce
  repeat' first
    | (fail_if_no_progress extract_lets +onlyGivenNames x; first | (revert x; intro (x : Chip); refine Touch.cut (d := x) ?_ (fun hx => ?_); subst x; rotate_left; try clear_value x) | (revert x; intro (x : Chip × _); refine Touch.cut (d := x.1) ?_ (fun hx => ?_); subst x; rotate_left; try clear_value x) | skip)
    | (with_reducible first | exact Touch.refl | assumption | apply Touch.step (Chip.sessMod_touch ..) | apply Touch.step (Chip.spdmErr_touch ..) | apply Touch.step (Chip.spdmOut_touch ..) | apply Chip.spdmServe_touch)
    | decide +kernel
    | split
    | (intro _; intros)
    | (clear_value *; split)

theorem execEndSession_touch (m : SpdmMsg) (s : State) : ∃ c, execEndSession m s = .next (s.settled c) ∧ Touch 0x163111c 0xc00180000000000000000000000088300010400000022000000000000000004 s.chip c := by
  refine ⟨_, rfl, ?_⟩
  generalize s.chip = c
  beta_reduce
  repeat' first
    | (with_reducible first | exact Touch.refl | assumption | apply Touch.step (Chip.sessEnd_touch ..) | apply Touch.step (Chip.spdmOut_touch ..) | apply Chip.spdmServe_touch)
    | decide +kernel
    | split
    | (intro _; intros)
    | (clear_value *; split)

theorem execSessionExpire_touch (id : Nat) (s : State) : ∃ c, execSessionExpire id s = .next (s.settled c) ∧ Touch 0x163011c 0x180000000000000000000000088300000000000022000000000000000004 s.chip c := by
  refine ⟨_, rfl, ?_⟩
  generalize s.chip = c
  beta_reduce
  repeat' first
    | (with_reducible first | exact Touch.refl | assumption | apply Touch.step (Chip.sessEnd_touch ..))
    | decide +kernel
    | split
    | (intro _; intros)
    | (clear_value *; split)

theorem execOrphanSessionExpire_touch (id : Nat) (s : State) : ∃ c, execOrphanSessionExpire id s = .next (s.settled c) ∧ Touch 0x163011c 0x180000000000000000000000088300000000000022000000000000000004 s.chip c := by
  refine ⟨_, rfl, ?_⟩
  generalize s.chip = c
  beta_reduce
  repeat' first
    | (with_reducible first | exact Touch.refl | assumption | apply Touch.step (Chip.sessEnd_touch ..))
    | decide +kernel
    | split
    | (intro _; intros)
    | (clear_value *; split)

theorem execGetChain_touch (m : SpdmMsg) (s : State) : ∃ c, execGetChain m s = .next (s.settled c) ∧ Touch 0x163111c 0xc00180000000000000000000000088300010400000022000000000000000004 s.chip c := by
  refine ⟨_, rfl, ?_⟩
  generalize s.chip = c
  beta_reduce
  repeat' first
    | (fail_if_no_progress extract_lets +onlyGivenNames x; first | (revert x; intro (x : Chip); refine Touch.cut (d := x) ?_ (fun hx => ?_); subst x; rotate_left; try clear_value x) | (revert x; intro (x : Chip × _); refine Touch.cut (d := x.1) ?_ (fun hx => ?_); subst x; rotate_left; try clear_value x) | skip)
    | (with_reducible first | exact Touch.refl | assumption | apply Touch.step (Chip.chain_touch ..) | apply Touch.step (Chip.errLog_touch ..) | apply Chip.vendor_touch | apply Touch.step (Chip.vout_touch ..))
    | decide +kernel
    | split
    | (intro _; intros)
    | (clear_value *; split)

theorem execHybridSig_touch (m : SpdmMsg) (s : State) : ∃ c, execHybridSig m s = .next (s.settled c) ∧ Touch 0x163111c 0xc00180000000000000000000000088300010400000022000000000000000004 s.chip c := by
  refine ⟨_, rfl, ?_⟩
  generalize s.chip = c
  beta_reduce
  repeat' first
    | (fail_if_no_progress extract_lets +onlyGivenNames x; first | (revert x; intro (x : Chip); refine Touch.cut (d := x) ?_ (fun hx => ?_); subst x; rotate_left; try clear_value x) | (revert x; intro (x : Chip × _); refine Touch.cut (d := x.1) ?_ (fun hx => ?_); subst x; rotate_left; try clear_value x) | clear_value x | skip)
    | (with_reducible first | exact Touch.refl | assumption | apply Touch.step (Chip.connMod_touch ..) | apply Touch.step (Chip.queueFull_touch ..) | apply Touch.step (Chip.sigPut_touch ..) | apply Chip.vendor_touch | apply Touch.step (Chip.vout_touch ..))
    | decide +kernel
    | split
    | (intro _; intros)
    | (clear_value *; split)

theorem execKemOffer_touch (m : SpdmMsg) (s : State) : ∃ c, execKemOffer m s = .next (s.settled c) ∧ Touch 0x167111e 0xc00180000000000000000000004088300010400000022000000000000000004 s.chip c := by
  refine ⟨_, rfl, ?_⟩
  generalize s.chip = c
  beta_reduce
  repeat' first
    | (fail_if_no_progress extract_lets +onlyGivenNames x; first | (revert x; intro (x : Chip); refine Touch.cut (d := x) ?_ (fun hx => ?_); subst x; rotate_left; try clear_value x) | (revert x; intro (x : Chip × _); refine Touch.cut (d := x.1) ?_ (fun hx => ?_); subst x; rotate_left; try clear_value x) | (revert x; intro (x : _ × Chip); refine Touch.cut (d := x.2) ?_ (fun hx => ?_); subst x; rotate_left; try clear_value x) | (revert x; intro (x : _ × _ × Chip); refine Touch.cut (d := x.2.2) ?_ (fun hx => ?_); subst x; rotate_left; try clear_value x) | skip)
    | (with_reducible first | exact Touch.refl | assumption | apply Touch.step (Chip.connMod_touch ..) | apply Touch.step (Chip.rnd_touch ..) | apply Touch.step (Chip.sp_touch ..) | apply Chip.vendor_touch | apply Touch.step (Chip.vout_touch ..))
    | decide +kernel
    | split
    | (intro _; intros)
    | (clear_value *; split)

theorem execGetReport_touch (m : SpdmMsg) (s : State) : ∃ c, execGetReport m s = .next (s.settled c) ∧ Touch 0x363111c 0xc00180000000000000000000000088300010400000022000000000000000004 s.chip c := by
  refine ⟨_, rfl, ?_⟩
  generalize s.chip = c
  beta_reduce
  repeat' first
    | (fail_if_no_progress extract_lets +onlyGivenNames x; first | (revert x; intro (x : Chip); refine Touch.cut (d := x) ?_ (fun hx => ?_); subst x; rotate_left; try clear_value x) | (revert x; intro (x : Chip × _); refine Touch.cut (d := x.1) ?_ (fun hx => ?_); subst x; rotate_left; try clear_value x) | skip)
    | (with_reducible first | exact Touch.refl | assumption | apply Touch.step (Chip.queueFull_touch ..) | apply Touch.step (Chip.quietOut_touch ..) | apply Touch.step (Chip.sigPut_touch ..) | apply Chip.vendor_touch | apply Touch.step (Chip.vout_touch ..))
    | decide +kernel
    | split
    | (intro _; intros)
    | (clear_value *; split)

theorem execGetReceipt_touch (m : SpdmMsg) (s : State) : ∃ c, execGetReceipt m s = .next (s.settled c) ∧ Touch 0x367111e 0xc00180000000000000000000004088300010400000022000000000000000004 s.chip c := by
  refine ⟨_, rfl, ?_⟩
  generalize s.chip = c
  beta_reduce
  repeat' first
    | (fail_if_no_progress extract_lets +onlyGivenNames x; first | (revert x; intro (x : Chip); refine Touch.cut (d := x) ?_ (fun hx => ?_); subst x; rotate_left; try clear_value x) | (revert x; intro (x : Chip × _); refine Touch.cut (d := x.1) ?_ (fun hx => ?_); subst x; rotate_left; try clear_value x) | skip)
    | (with_reducible first | exact Touch.refl | assumption | apply Touch.step (Chip.quietOut_touch ..) | apply Touch.step (Chip.receipt_touch ..) | apply Chip.vendor_touch | apply Touch.step (Chip.vout_touch ..))
    | decide +kernel
    | split
    | (intro _; intros)
    | (clear_value *; split)

theorem execGetTwistHead_touch (m : SpdmMsg) (s : State) : ∃ c, execGetTwistHead m s = .next (s.settled c) ∧ Touch 0x363111c 0xc00180000000000000000000000088300010400000022000000000000000004 s.chip c := by
  refine ⟨_, rfl, ?_⟩
  generalize s.chip = c
  beta_reduce
  repeat' first
    | (fail_if_no_progress extract_lets +onlyGivenNames x; first | (revert x; intro (x : Chip); refine Touch.cut (d := x) ?_ (fun hx => ?_); subst x; rotate_left; try clear_value x) | (revert x; intro (x : Chip × _); refine Touch.cut (d := x.1) ?_ (fun hx => ?_); subst x; rotate_left; try clear_value x) | skip)
    | (with_reducible first | exact Touch.refl | assumption | apply Touch.step (Chip.quietOut_touch ..) | apply Chip.vendor_touch | apply Touch.step (Chip.vout_touch ..))
    | decide +kernel
    | split
    | (intro _; intros)
    | (clear_value *; split)

theorem execRebind_touch (m : SpdmMsg) (s : State) : ∃ c, execRebind m s = .next (s.settled c) ∧ Touch 0x163111c 0xc00180000000000000000000000088300010400000022000000000000000004 s.chip c := by
  refine ⟨_, rfl, ?_⟩
  generalize s.chip = c
  beta_reduce
  repeat' first
    | (fail_if_no_progress extract_lets +onlyGivenNames x; first | (revert x; intro (x : Chip); refine Touch.cut (d := x) ?_ (fun hx => ?_); subst x; rotate_left; try clear_value x) | (revert x; intro (x : Chip × _); refine Touch.cut (d := x.1) ?_ (fun hx => ?_); subst x; rotate_left; try clear_value x) | skip)
    | (with_reducible first | exact Touch.refl | assumption | apply Touch.step (Chip.cu_touch ..) | apply Touch.step (Chip.sp_touch ..) | apply Chip.vendor_touch | apply Touch.step (Chip.vout_touch ..))
    | decide +kernel
    | split
    | (intro _; intros)
    | (clear_value *; split)

theorem execGetLeakage_touch (m : SpdmMsg) (s : State) : ∃ c, execGetLeakage m s = .next (s.settled c) ∧ Touch 0x163111c 0xc00180000000000000000000000088300010400000022000000000000000004 s.chip c := by
  refine ⟨_, rfl, ?_⟩
  generalize s.chip = c
  beta_reduce
  repeat' first
    | (with_reducible first | exact Touch.refl | assumption | apply Chip.vendor_touch | apply Touch.step (Chip.vout_touch ..))
    | decide +kernel
    | split
    | (intro _; intros)
    | (clear_value *; split)

theorem execOwnerObjectPortion_touch (m : SpdmMsg) (genuine : Bool) (s : State) : ∃ c, execOwnerObjectPortion m genuine s = .next (s.settled c) ∧ Touch 0x1eb193c 0x30c001820300381b8000283d00000188300010403000022000000000000000004 s.chip c := by
  refine ⟨_, rfl, ?_⟩
  generalize s.chip = c
  beta_reduce
  repeat' first
    | (fail_if_no_progress extract_lets +onlyGivenNames x; first | (revert x; intro (x : Chip); refine Touch.cut (d := x) ?_ (fun hx => ?_); subst x; rotate_left; try clear_value x) | (revert x; intro (x : Chip × _); refine Touch.cut (d := x.1) ?_ (fun hx => ?_); subst x; rotate_left; try clear_value x) | skip)
    | (with_reducible first | exact Touch.refl | assumption | apply Touch.step (Chip.hold_touch ..) | apply Touch.step (Chip.portion_touch ..) | apply Touch.step (Chip.spdmOut_touch ..) | apply Chip.vendor_touch | apply Touch.step (Chip.vout_touch ..))
    | decide +kernel
    | split
    | (intro _; intros)
    | (clear_value *; split)

end Sys2Proof.Machine
end

