-- ==== Sys2Proof/Laws/ExecTally.lean ====
section
/-! SUPPORT. What each command of Machine/Tally.lean can change before what follows of itself: the two masks of `Touch` (Laws/Touch.lean). -/

set_option linter.unreachableTactic false
set_option linter.unusedTactic false
set_option linter.tactic.unusedName false
set_option linter.unnecessarySeqFocus false
set_option linter.unusedVariables false
set_option Elab.async false

namespace Sys2Proof.Machine

theorem execTlyOpen_touch (req : Req) (acc : BitVec 3) (s : State) : ∃ c, execTlyOpen req acc s = .next (s.settled c) ∧ Touch 0x4014e 0x180000000000400800000004000000000000000000000000100000250004 s.chip c := by
  refine ⟨_, rfl, ?_⟩
  generalize s.chip = c
  beta_reduce
  repeat' first
    | (with_reducible first | exact Touch.refl | assumption | apply Chip.tlyCommand_touch | apply Touch.step (Chip.tlyOpen_touch ..))
    | decide +kernel
    | split
    | (intro _; intros)
    | (clear_value *; split)

theorem execTlyAdd_touch (req : Req) (acc : BitVec 3) (owner : BitVec 5) (s : State) : ∃ c, execTlyAdd req acc owner s = .next (s.settled c) ∧ Touch 0x4014c 0x180000000000400800000000000000000000000000000000100000250004 s.chip c := by
  refine ⟨_, rfl, ?_⟩
  generalize s.chip = c
  beta_reduce
  repeat' first
    | (with_reducible first | exact Touch.refl | assumption | apply Touch.step (Chip.tlyAdd_touch ..) | apply Chip.tlyCommand_touch)
    | decide +kernel
    | split
    | (intro _; intros)
    | (clear_value *; split)

theorem execTlyAddDone_touch (data : List Byte) (good : Bool) (s : State) : ∃ c, execTlyAddDone data good s = .next (s.settled c) ∧ Touch 0x840908 0x180000000001d00800800000000000000000000000000000000000000004 s.chip c := by
  refine ⟨_, rfl, ?_⟩
  generalize s.chip = c
  beta_reduce
  repeat' first
    | (with_reducible first | exact Touch.refl | assumption | apply Touch.step (Chip.tlyDone_touch ..))
    | decide +kernel
    | split
    | (intro _; intros)
    | (clear_value *; split)

theorem execTlyAbort_touch (req : Req) (acc : BitVec 3) (s : State) : ∃ c, execTlyAbort req acc s = .next (s.settled c) ∧ Touch 0x4014c 0x180000000001d00800000000000000000000000000000000100000210004 s.chip c := by
  refine ⟨_, rfl, ?_⟩
  generalize s.chip = c
  beta_reduce
  repeat' first
    | (with_reducible first | exact Touch.refl | assumption | apply Touch.step (Chip.tlyAbortCmd_touch ..) | apply Chip.tlyCommand_touch)
    | decide +kernel
    | split
    | (intro _; intros)
    | (clear_value *; split)

theorem execTlyRelease_touch (req : Req) (acc : BitVec 3) (s : State) : ∃ c, execTlyRelease req acc s = .next (s.settled c) ∧ Touch 0x4014c 0x180000000001d00800000000000000000000000000000000100000210004 s.chip c := by
  refine ⟨_, rfl, ?_⟩
  generalize s.chip = c
  beta_reduce
  repeat' first
    | (with_reducible first | exact Touch.refl | assumption | apply Chip.tlyCommand_touch | apply Touch.step (Chip.tlyRelease_touch ..))
    | decide +kernel
    | split
    | (intro _; intros)
    | (clear_value *; split)

theorem execTlyDigestRead_touch (req : Req) (acc : BitVec 3) (s : State) : ∃ c, execTlyDigestRead req acc s = .next (s.settled c) ∧ Touch 0x4014c 0x180000000000000800000000000000000000000000000000100000210004 s.chip c := by
  refine ⟨_, rfl, ?_⟩
  generalize s.chip = c
  beta_reduce
  repeat' first
    | (fail_if_no_progress extract_lets +onlyGivenNames x; first | (revert x; intro (x : Chip); refine Touch.cut (d := x) ?_ (fun hx => ?_); subst x; rotate_left; try clear_value x) | (revert x; intro (x : Chip × _); refine Touch.cut (d := x.1) ?_ (fun hx => ?_); subst x; rotate_left; try clear_value x) | skip)
    | (with_reducible first | exact Touch.refl | assumption | apply Chip.guarded_touch | apply Touch.step (Chip.respond_touch ..) | apply Touch.step (Chip.tlyRead_touch ..))
    | decide +kernel
    | split
    | (intro _; intros)
    | (clear_value *; split)

end Sys2Proof.Machine
end

