-- ==== Sys2Proof/Laws/ExecTwisting.lean ====
section
/-! SUPPORT. What each command of Machine/Twisting.lean can change before what follows of itself: the two masks of `Touch` (Laws/Touch.lean). -/

set_option linter.unreachableTactic false
set_option linter.unusedTactic false
set_option linter.tactic.unusedName false
set_option linter.unnecessarySeqFocus false
set_option linter.unusedVariables false
set_option Elab.async false

namespace Sys2Proof.Machine

theorem execTwistBatch_touch (s : State) : ∃ c, execTwistBatch s = .next (s.settled c) ∧ Touch 0x180011c 0x180000000000000000300000000000000003000000000000000000000004 s.chip c := by
  refine ⟨_, rfl, ?_⟩
  generalize s.chip = c
  beta_reduce
  repeat' first
    | (with_reducible first | exact Touch.refl | assumption | apply Chip.onFrame_touch | apply Touch.step (Chip.twBatch_touch ..))
    | decide +kernel
    | split
    | (intro _; intros)
    | (clear_value *; split)

theorem execTwistFold_touch (h : BitVec 4) (s : State) : ∃ c, execTwistFold h s = .next (s.settled c) ∧ Touch 0x1c3013e 0x18000000000000028f900000180300000003000022000000000000000004 s.chip c := by
  refine ⟨_, rfl, ?_⟩
  generalize s.chip = c
  beta_reduce
  repeat' first
    | (with_reducible first | exact Touch.refl | assumption | apply Touch.step (Chip.twFold_touch ..))
    | decide +kernel
    | split
    | (intro _; intros)
    | (clear_value *; split)

theorem execSeal_touch (req : Req) (h : BitVec 4) (s : State) : ∃ c, execSeal req h s = .next (s.settled c) ∧ Touch 0x180016c 0x180000000000000003000000000000000003000000000000100000210004 s.chip c := by
  refine ⟨_, rfl, ?_⟩
  generalize s.chip = c
  beta_reduce
  repeat' first
    | (with_reducible first | exact Touch.refl | assumption | apply Chip.guarded_touch | apply Touch.step (Chip.twSealNow_touch ..) | apply Touch.step (Chip.wrote_touch ..))
    | decide +kernel
    | split
    | (intro _; intros)
    | (clear_value *; split)

theorem execTwistLogWriteError_touch (h : BitVec 4) (seg pos : Nat) (s : State) : ∃ c, execTwistLogWriteError h seg pos s = .next (s.settled c) ∧ Touch 0x108 0x180000000000000000000000000000000000000000000000000000000004 s.chip c := by
  refine ⟨_, rfl, ?_⟩
  generalize s.chip = c
  beta_reduce
  repeat' first
    | (with_reducible first | exact Touch.refl | assumption | apply Touch.step (Chip.twLog_touch ..))
    | decide +kernel
    | split
    | (intro _; intros)
    | (clear_value *; split)

theorem execTwistHeadRead_touch (req : Req) (h : BitVec 4) (s : State) : ∃ c, execTwistHeadRead req h s = .next (s.settled c) ∧ Touch 0x80014c 0x180000000000000000000000000000000000000000000000100000210004 s.chip c := by
  refine ⟨_, rfl, ?_⟩
  generalize s.chip = c
  beta_reduce
  repeat' first
    | (fail_if_no_progress extract_lets +onlyGivenNames x; first | (revert x; intro (x : Chip); refine Touch.cut (d := x) ?_ (fun hx => ?_); subst x; rotate_left; try clear_value x) | (revert x; intro (x : Chip × _); refine Touch.cut (d := x.1) ?_ (fun hx => ?_); subst x; rotate_left; try clear_value x) | skip)
    | (with_reducible first | exact Touch.refl | assumption | apply Chip.guarded_touch | apply Touch.step (Chip.respond_touch ..) | apply Touch.step (Chip.twHeadRead_touch ..))
    | decide +kernel
    | split
    | (intro _; intros)
    | (clear_value *; split)

theorem execReceiptSigned_touch (h : BitVec 4) (s : State) : ∃ c, execReceiptSigned h s = .next (s.settled c) ∧ Touch 0x84012e 0x180000000000000000800004000000000000000000000000000000000004 s.chip c := by
  refine ⟨_, rfl, ?_⟩
  generalize s.chip = c
  beta_reduce
  repeat' first
    | (with_reducible first | exact Touch.refl | assumption | apply Touch.step (Chip.twSigned_touch ..))
    | decide +kernel
    | split
    | (intro _; intros)
    | (clear_value *; split)

end Sys2Proof.Machine
end

