-- ==== Sys2Proof/Laws/ExecUpdate.lean ====
section
/-! SUPPORT. What each command of Machine/Update.lean can change before what follows of itself: the two masks of `Touch` (Laws/Touch.lean). -/

set_option linter.unreachableTactic false
set_option linter.unusedTactic false
set_option linter.tactic.unusedName false
set_option linter.unnecessarySeqFocus false
set_option linter.unusedVariables false
set_option Elab.async false

namespace Sys2Proof.Machine

theorem execSvcWrite_touch (frame : List Byte) (s : State) : ∃ c, execSvcWrite frame s = .next (s.settled c) ∧ Touch 0x4000000 0x0 s.chip c := by
  refine ⟨_, rfl, ?_⟩
  generalize s.chip = c
  beta_reduce
  repeat' first
    | (with_reducible first | exact Touch.refl | assumption | apply Touch.step (Chip.up_touch ..))
    | decide +kernel
    | split
    | (intro _; intros)
    | (clear_value *; split)

theorem execSvcRead_touch (s : State) : ∃ c, execSvcRead s = .next (s.settled c) ∧ Touch 0x4000004 0x0 s.chip c := by
  refine ⟨_, rfl, ?_⟩
  generalize s.chip = c
  beta_reduce
  repeat' first
    | (with_reducible first | exact Touch.refl | assumption | apply Touch.step (Chip.send_touch ..) | apply Touch.step (Chip.up_touch ..))
    | decide +kernel
    | split
    | (intro _; intros)
    | (clear_value *; split)

theorem execUpdateHello_touch (via : Option Nat) (s : State) : ∃ c, execUpdateHello via s = .next (s.settled c) ∧ Touch 0x501190c 0xc00180000000000000000000000000310010400000000000000000000050004 s.chip c := by
  refine ⟨_, rfl, ?_⟩
  generalize s.chip = c
  beta_reduce
  repeat' first
    | (with_reducible first | exact Touch.refl | assumption | apply Chip.cmd_touch | apply Chip.updServe_touch)
    | decide +kernel
    | split
    | (intro _; intros)
    | (clear_value *; split)

theorem execUpdBegin_touch (via : Option Nat) (s : State) : ∃ c, execUpdBegin via s = .next (s.settled c) ∧ Touch 0x501190c 0xc00180000000000000000000000000310010400000000000000000000050004 s.chip c := by
  refine ⟨_, rfl, ?_⟩
  generalize s.chip = c
  beta_reduce
  repeat' first
    | (with_reducible first | exact Touch.refl | assumption | apply Touch.step (Chip.begin__touch ..) | apply Touch.step (Chip.rcvBegin_touch ..) | apply Chip.updServe_touch)
    | decide +kernel
    | split
    | (intro _; intros)
    | (clear_value *; split)

theorem execUpdPiece_touch (via : Option Nat) (flaw : Bool) (s : State) : ∃ c, execUpdPiece via flaw s = .next (s.settled c) ∧ Touch 0x501190e 0xc00180000000000000000000000000310010400000000000000000000050004 s.chip c := by
  refine ⟨_, rfl, ?_⟩
  generalize s.chip = c
  beta_reduce
  repeat' first
    | (with_reducible first | exact Touch.refl | assumption | apply Touch.step (Chip.piece_touch ..) | apply Touch.step (Chip.rcvPiece_touch ..) | apply Chip.updServe_touch)
    | decide +kernel
    | split
    | (intro _; intros)
    | (clear_value *; split)

theorem execUpdQuery_touch (via : Option Nat) (s : State) : ∃ c, execUpdQuery via s = .next (s.settled c) ∧ Touch 0x501190c 0xc00180000000000000000000000000310010400000000000000000000050004 s.chip c := by
  refine ⟨_, rfl, ?_⟩
  generalize s.chip = c
  beta_reduce
  repeat' first
    | (with_reducible first | exact Touch.refl | assumption | apply Chip.updServe_touch)
    | decide +kernel
    | split
    | (intro _; intros)
    | (clear_value *; split)

theorem execUpdCheck_touch (via : Option Nat) (s : State) : ∃ c, execUpdCheck via s = .next (s.settled c) ∧ Touch 0x501190c 0xc00180000000000000000000000000310010400000000000000000000050004 s.chip c := by
  refine ⟨_, rfl, ?_⟩
  generalize s.chip = c
  beta_reduce
  repeat' first
    | (with_reducible first | exact Touch.refl | assumption | apply Touch.step (Chip.checkStart_touch ..) | apply Touch.step (Chip.rcvCheck_touch ..) | apply Chip.updServe_touch)
    | decide +kernel
    | split
    | (intro _; intros)
    | (clear_value *; split)

theorem execCheckComplete_touch (s : State) : ∃ c, execCheckComplete s = .next (s.settled c) ∧ Touch 0x501190c 0xc00180000000000000000000000000310010400000000000000000000050004 s.chip c := by
  refine ⟨_, rfl, ?_⟩
  generalize s.chip = c
  beta_reduce
  repeat' first
    | (with_reducible first | exact Touch.refl | assumption | apply Touch.step (Chip.checkEnd_touch ..) | apply Touch.step (Chip.rcvCheckEnd_touch ..))
    | decide +kernel
    | split
    | (intro _; intros)
    | (clear_value *; split)

theorem execUpdActivate_touch (via : Option Nat) (flaw : Bool) (s : State) : ∃ c, execUpdActivate via flaw s = .next (s.settled c) ∧ Touch 0x501190e 0xc00180000000000000000000000000310810400040000000000000000050004 s.chip c := by
  refine ⟨_, rfl, ?_⟩
  generalize s.chip = c
  beta_reduce
  repeat' first
    | (with_reducible first | exact Touch.refl | assumption | apply Touch.step (Chip.activate_touch ..) | apply Touch.step (Chip.rcvActivate_touch ..) | apply Chip.updServe_touch)
    | decide +kernel
    | split
    | (intro _; intros)
    | (clear_value *; split)

theorem execLoaderActivation_touch (flaw : Bool) (s : State) : ∃ c, execLoaderActivation flaw s = .next (s.cutSettled c) ∧ Touch 0x7effbfe 0x84e00180200000001d0080001830400039101040000000000000010c402050004 s.chip c := by
  refine ⟨_, rfl, ?_⟩
  generalize s.chip = c
  beta_reduce
  repeat' first
    | (with_reducible first | exact Touch.refl | assumption | apply Touch.step (Chip.loaderStep_touch ..))
    | decide +kernel
    | split
    | (intro _; intros)
    | (clear_value *; split)

theorem execUpdRestore_touch (via : Option Nat) (flaw : Bool) (s : State) : ∃ c, execUpdRestore via flaw s = .next (s.settled c) ∧ Touch 0x501190e 0xc00180000000000000000000000000310010400000000000000000000050004 s.chip c := by
  refine ⟨_, rfl, ?_⟩
  generalize s.chip = c
  beta_reduce
  repeat' first
    | (with_reducible first | exact Touch.refl | assumption | apply Touch.step (Chip.rcvRestore_touch ..) | apply Chip.updServe_touch)
    | decide +kernel
    | split
    | (intro _; intros)
    | (clear_value *; split)

theorem execAbort_touch (via : Option Nat) (s : State) : ∃ c, execAbort via s = .next (s.settled c) ∧ Touch 0x501190c 0xc00180000000000000000000000000310010400000000000000000000050004 s.chip c := by
  refine ⟨_, rfl, ?_⟩
  generalize s.chip = c
  beta_reduce
  repeat' first
    | (with_reducible first | exact Touch.refl | assumption | apply Touch.step (Chip.rc_touch ..) | apply Touch.step (Chip.sessionEnd_touch ..) | apply Chip.updServe_touch)
    | decide +kernel
    | split
    | (intro _; intros)
    | (clear_value *; split)

theorem execUpdConfirm_touch (via : Option Nat) (s : State) : ∃ c, execUpdConfirm via s = .next (s.after c) ∧ Touch 0x5e79f7e 0xc00180000000000000203800004189391810413f4382e0000200000120541b4 s.chip c := by
  refine ⟨_, rfl, ?_⟩
  generalize s.chip = c
  generalize s.fuses = fu
  beta_reduce
  repeat' first
    | (with_reducible first | exact Touch.refl | assumption | apply Touch.step (Chip.confirmStart_touch ..) | apply Touch.step (Chip.settle_touch ..) | apply Chip.updServe_touch)
    | decide +kernel
    | split
    | (intro _; intros)
    | (clear_value *; split)

theorem execUpdateReset_touch (via : Option Nat) (recoveryN : Bool) (s : State) : ∃ c, execUpdateReset via recoveryN s = .next (s.cutSettled c) ∧ Touch 0x7effbfe 0x84e00180200000001d0080001830400039101040000000000000010c402250004 s.chip c := by
  refine ⟨_, rfl, ?_⟩
  generalize s.chip = c
  beta_reduce
  repeat' first
    | (with_reducible first | exact Touch.refl | assumption | apply Touch.put | apply Touch.step (Chip.freezeNoil_touch ..) | apply Chip.updServe_touch | apply Touch.step (Chip.warmReset_touch ..))
    | decide +kernel
    | (with_reducible apply Touch.upd) <;> first | (intro p; cases p <;> dsimp only [Part.same] <;> first | exact Or.inl (by decide +kernel) | exact Or.inr rfl) | (with_reducible first | exact Touch.refl | assumption | apply Touch.put | apply Touch.step (Chip.freezeNoil_touch ..) | apply Chip.updServe_touch | apply Touch.step (Chip.warmReset_touch ..)) | split
    | split
    | (intro _; intros)
    | (clear_value *; split)

theorem execStagingEraseDone_touch (s : State) : ∃ c, execStagingEraseDone s = .next (s.settled c) ∧ Touch 0x4000800 0x0 s.chip c := by
  refine ⟨_, rfl, ?_⟩
  generalize s.chip = c
  beta_reduce
  repeat' first
    | (with_reducible first | exact Touch.refl | assumption | apply Touch.step (Chip.norErase_touch ..) | apply Touch.step (Chip.up_touch ..))
    | decide +kernel
    | split
    | (intro _; intros)
    | (clear_value *; split)

end Sys2Proof.Machine
end

