-- ==== Sys2Proof/Laws/ExecWhorl.lean ====
section
/-! SUPPORT. What each command of Machine/Whorl.lean can change before what follows of itself: the two masks of `Touch` (Laws/Touch.lean). -/

set_option linter.unreachableTactic false
set_option linter.unusedTactic false
set_option linter.tactic.unusedName false
set_option linter.unnecessarySeqFocus false
set_option linter.unusedVariables false
set_option Elab.async false

namespace Sys2Proof.Machine

theorem execMarkerEmit_touch (s : State) : ∃ c, execMarkerEmit s = .next (s.settled c) ∧ Touch 0x20004 0x0 s.chip c := by
  refine ⟨_, rfl, ?_⟩
  generalize s.chip = c
  beta_reduce
  repeat' first
    | (with_reducible first | exact Touch.refl | assumption | apply Touch.step (Chip.markerOut_touch ..))
    | decide +kernel
    | split
    | (intro _; intros)
    | (clear_value *; split)

theorem execMarkerReceive_touch (cc : Bool) (bytes : List Byte) (s : State) : ∃ c, execMarkerReceive cc bytes s = .next (s.settled c) ∧ Touch 0x2010c 0x180000000000000000000000000000000000000000010020000000000004 s.chip c := by
  refine ⟨_, rfl, ?_⟩
  generalize s.chip = c
  beta_reduce
  repeat' first
    | (with_reducible first | exact Touch.refl | assumption | apply Touch.step (Chip.markerIn_touch ..))
    | decide +kernel
    | split
    | (intro _; intros)
    | (clear_value *; split)

theorem execSlotBoundaryCorrection_touch (s : State) : ∃ c, execSlotBoundaryCorrection s = .next (s.settled c) ∧ Touch 0x20001 0x0 s.chip c := by
  refine ⟨_, rfl, ?_⟩
  generalize s.chip = c
  beta_reduce
  repeat' first
    | (with_reducible first | exact Touch.refl | assumption | apply Touch.step (Chip.boundary_touch ..))
    | decide +kernel
    | split
    | (intro _; intros)
    | (clear_value *; split)

theorem execMarkerTimeout_touch (s : State) : ∃ c, execMarkerTimeout s = .next (s.settled c) ∧ Touch 0x20108 0x180000000000000000000000000000000000000000000020000000000004 s.chip c := by
  refine ⟨_, rfl, ?_⟩
  generalize s.chip = c
  beta_reduce
  repeat' first
    | (with_reducible first | exact Touch.refl | assumption | apply Touch.step (Chip.markerLost_touch ..))
    | decide +kernel
    | split
    | (intro _; intros)
    | (clear_value *; split)

theorem execXpkgTimeReport_touch (ch : Nat) (frame : WarpFrame) (s : State) : ∃ c, execXpkgTimeReport ch frame s = .next (s.settled c) ∧ Touch 0x102010c 0x180000000000000000000000000000000000000000040020000000000004 s.chip c := by
  refine ⟨_, rfl, ?_⟩
  generalize s.chip = c
  beta_reduce
  repeat' first
    | (with_reducible first | exact Touch.refl | assumption | apply Chip.report_touch | apply Touch.step (Chip.xpkgTime_touch ..))
    | decide +kernel
    | split
    | (intro _; intros)
    | (clear_value *; split)

theorem execXpkgReportTimeout_touch (s : State) : ∃ c, execXpkgReportTimeout s = .next (s.settled c) ∧ Touch 0x108 0x180000000000000000000000000000000000000000000020000000000004 s.chip c := by
  refine ⟨_, rfl, ?_⟩
  generalize s.chip = c
  beta_reduce
  repeat' first
    | (with_reducible first | exact Touch.refl | assumption | apply Touch.step (Chip.xpkgLate_touch ..))
    | decide +kernel
    | split
    | (intro _; intros)
    | (clear_value *; split)

theorem execSchedule_touch (req : Req) (s : State) : ∃ c, execSchedule req s = .next (s.settled c) ∧ Touch 0x147114e 0x1000180000000000000000000004000000000003000003f80400100000210004 s.chip c := by
  refine ⟨_, rfl, ?_⟩
  generalize s.chip = c
  beta_reduce
  repeat' first
    | (fail_if_no_progress extract_lets +onlyGivenNames x; first | (revert x; intro (x : Chip); refine Touch.cut (d := x) ?_ (fun hx => ?_); subst x; rotate_left; try clear_value x) | (revert x; intro (x : Chip × _); refine Touch.cut (d := x.1) ?_ (fun hx => ?_); subst x; rotate_left; try clear_value x) | skip)
    | (with_reducible first | exact Touch.refl | assumption | apply Chip.launchCtrl_touch | apply Touch.step (Chip.lres_touch ..) | apply Touch.step (Chip.schedule_touch ..))
    | decide +kernel
    | split
    | (intro _; intros)
    | (clear_value *; split)

theorem execWhlCancel_touch (req : Req) (entry : BitVec 4) (s : State) : ∃ c, execWhlCancel req entry s = .next (s.settled c) ∧ Touch 0x100014c 0x180000000000000000000000000000000003000002000400100000210004 s.chip c := by
  refine ⟨_, rfl, ?_⟩
  generalize s.chip = c
  beta_reduce
  repeat' first
    | (fail_if_no_progress extract_lets +onlyGivenNames x; first | (revert x; intro (x : Chip); refine Touch.cut (d := x) ?_ (fun hx => ?_); subst x; rotate_left; try clear_value x) | (revert x; intro (x : Chip × _); refine Touch.cut (d := x.1) ?_ (fun hx => ?_); subst x; rotate_left; try clear_value x) | skip)
    | (with_reducible first | exact Touch.refl | assumption | apply Chip.launchCtrl_touch | apply Touch.step (Chip.lcancel_touch ..) | apply Touch.step (Chip.lres_touch ..))
    | decide +kernel
    | split
    | (intro _; intros)
    | (clear_value *; split)

theorem execWhlFree_touch (req : Req) (entry : BitVec 4) (s : State) : ∃ c, execWhlFree req entry s = .next (s.settled c) ∧ Touch 0x102014c 0x1000180000000000000000000000000000000003000002000400100000210004 s.chip c := by
  refine ⟨_, rfl, ?_⟩
  generalize s.chip = c
  beta_reduce
  repeat' first
    | (fail_if_no_progress extract_lets +onlyGivenNames x; first | (revert x; intro (x : Chip); refine Touch.cut (d := x) ?_ (fun hx => ?_); subst x; rotate_left; try clear_value x) | (revert x; intro (x : Chip × _); refine Touch.cut (d := x.1) ?_ (fun hx => ?_); subst x; rotate_left; try clear_value x) | skip)
    | (with_reducible first | exact Touch.refl | assumption | apply Chip.launchCtrl_touch | apply Touch.step (Chip.lfreeCmd_touch ..) | apply Touch.step (Chip.lres_touch ..))
    | decide +kernel
    | split
    | (intro _; intros)
    | (clear_value *; split)

theorem execLaunchHorizon_touch (n : BitVec 4) (s : State) : ∃ c, execLaunchHorizon n s = .next (s.settled c) ∧ Touch 0x100010c 0x180000000000000000000000000000000003000002000000000000000004 s.chip c := by
  refine ⟨_, rfl, ?_⟩
  generalize s.chip = c
  beta_reduce
  repeat' first
    | (with_reducible first | exact Touch.refl | assumption | apply Touch.step (Chip.lclose_touch ..))
    | decide +kernel
    | split
    | (intro _; intros)
    | (clear_value *; split)

theorem execLaunchFinalPoint_touch (n : BitVec 4) (s : State) : ∃ c, execLaunchFinalPoint n s = .next (s.settled c) ∧ Touch 0x147811e 0x180000000000000000000004080300000003000022000000000000004184 s.chip c := by
  refine ⟨_, rfl, ?_⟩
  generalize s.chip = c
  beta_reduce
  repeat' first
    | (fail_if_no_progress extract_lets +onlyGivenNames x; first | (revert x; intro (x : Chip); refine Touch.cut (d := x) ?_ (fun hx => ?_); subst x; rotate_left; try clear_value x) | (revert x; intro (x : Chip × _); refine Touch.cut (d := x.1) ?_ (fun hx => ?_); subst x; rotate_left; try clear_value x) | skip)
    | (with_reducible first | exact Touch.refl | assumption | apply Touch.step (Chip.lfinal_touch ..))
    | decide +kernel
    | split
    | (intro _; intros)
    | (clear_value *; split)

theorem execLaunchFire_touch (n : BitVec 4) (s : State) : ∃ c, execLaunchFire n s = .next (s.settled c) ∧ Touch 0x1c3093c 0x18000000000000020380000008838000000300003a000000000000000004 s.chip c := by
  refine ⟨_, rfl, ?_⟩
  generalize s.chip = c
  beta_reduce
  repeat' first
    | (with_reducible first | exact Touch.refl | assumption | apply Touch.step (Chip.lfire_touch ..))
    | decide +kernel
    | split
    | (intro _; intros)
    | (clear_value *; split)

theorem execLaunchGraceEnd_touch (n : BitVec 4) (s : State) : ∃ c, execLaunchGraceEnd n s = .next (s.settled c) ∧ Touch 0x103011c 0x180000000000000000000000080000000003000002000000000000000004 s.chip c := by
  refine ⟨_, rfl, ?_⟩
  generalize s.chip = c
  beta_reduce
  repeat' first
    | (with_reducible first | exact Touch.refl | assumption | apply Touch.step (Chip.lretire_touch ..))
    | decide +kernel
    | split
    | (intro _; intros)
    | (clear_value *; split)

theorem execLaunchRepeat_touch (n : BitVec 4) (s : State) : ∃ c, execLaunchRepeat n s = .next (s.settled c) ∧ Touch 0x2011c 0x180000000000000000000000000000000000000000000000000000000004 s.chip c := by
  refine ⟨_, rfl, ?_⟩
  generalize s.chip = c
  beta_reduce
  repeat' first
    | (with_reducible first | exact Touch.refl | assumption | apply Touch.step (Chip.lrepeat_touch ..))
    | decide +kernel
    | split
    | (intro _; intros)
    | (clear_value *; split)

theorem execLaunchCancelRepeat_touch (num : Nat) (s : State) : ∃ c, execLaunchCancelRepeat num s = .next (s.settled c) ∧ Touch 0x2011c 0x180000000000000000000000000000000000000000000000000000000004 s.chip c := by
  refine ⟨_, rfl, ?_⟩
  generalize s.chip = c
  beta_reduce
  repeat' first
    | (with_reducible first | exact Touch.refl | assumption | apply Touch.step (Chip.lcancelRepeat_touch ..))
    | decide +kernel
    | split
    | (intro _; intros)
    | (clear_value *; split)

theorem execWhlTimeRead_touch (req : Req) (s : State) : ∃ c, execWhlTimeRead req s = .next (s.settled c) ∧ Touch 0x14c 0x180000000000000000000000000000000000000000000080100000210004 s.chip c := by
  refine ⟨_, rfl, ?_⟩
  generalize s.chip = c
  beta_reduce
  repeat' first
    | (with_reducible first | exact Touch.refl | assumption | apply Touch.wr | apply Chip.guarded_touch | apply Touch.step (Chip.respond_touch ..))
    | decide +kernel
    | exact covers_reg (by decide +kernel)
    | split
    | (intro _; intros)
    | (clear_value *; split)

theorem execLaunchRequest_touch (n : Nat) (s : State) : ∃ c, execLaunchRequest n s = .next (s.settled c) ∧ Touch 0x147190e 0x1c00180000000000000000000004000000010403000003f80000000000000004 s.chip c := by
  refine ⟨_, rfl, ?_⟩
  generalize s.chip = c
  beta_reduce
  repeat' first
    | (fail_if_no_progress extract_lets +onlyGivenNames x; first | (revert x; intro (x : Chip); refine Touch.cut (d := x) ?_ (fun hx => ?_); subst x; rotate_left; try clear_value x) | (revert x; intro (x : Chip × _); refine Touch.cut (d := x.1) ?_ (fun hx => ?_); subst x; rotate_left; try clear_value x) | skip)
    | (with_reducible first | exact Touch.refl | assumption | apply Chip.onCall_touch | apply Touch.step (Chip.schedule_touch ..))
    | decide +kernel
    | split
    | (intro _; intros)
    | (clear_value *; split)

theorem execLaunchCancel_touch (n : Nat) (s : State) : ∃ c, execLaunchCancel n s = .next (s.settled c) ∧ Touch 0x100190c 0xc00180000000000000000000000000000010403000002000000000000000004 s.chip c := by
  refine ⟨_, rfl, ?_⟩
  generalize s.chip = c
  beta_reduce
  repeat' first
    | (fail_if_no_progress extract_lets +onlyGivenNames x; first | (revert x; intro (x : Chip); refine Touch.cut (d := x) ?_ (fun hx => ?_); subst x; rotate_left; try clear_value x) | (revert x; intro (x : Chip × _); refine Touch.cut (d := x.1) ?_ (fun hx => ?_); subst x; rotate_left; try clear_value x) | skip)
    | (with_reducible first | exact Touch.refl | assumption | apply Touch.step (Chip.lcancel_touch ..) | apply Chip.onCall_touch)
    | decide +kernel
    | split
    | (intro _; intros)
    | (clear_value *; split)

end Sys2Proof.Machine
end

