-- ==== Sys2Proof/Laws/Memory.lean ====
section
/-! SUPPORT. Laws of the memories: a read after a write, and the canonical form that every memory operation keeps. -/

namespace Sys2Proof.Machine

/-- A byte read after a byte was written. -/
theorem memRd_memWr (d b : Byte) (m : List Host.Cell) (a x : Nat) : memRd d (memWr d m a b) x = if x = a then b else memRd d m x := by
  unfold memRd memWr
  by_cases h : b = d
  · rw [if_pos h, tget?_tdel]
    by_cases hx : x = a
    · simp [hx, h]
    · simp [hx]
  · rw [if_neg h, tget?_tput]
    by_cases hx : x = a
    · simp [hx]
    · simp [hx]

theorem memWf_tdel {d : Byte} {m : List Host.Cell} (a : Nat) (h : memWf d m = true) : memWf d (tdel m a) = true := by
  simp only [memWf, Bool.and_eq_true, List.all_eq_true] at *
  exact ⟨Tab.sorted_tdel m a h.1, fun e he => h.2 e (List.mem_of_mem_filter he)⟩

/-- Writing a byte keeps the form. -/
theorem memWf_memWr {d : Byte} {m : List Host.Cell} (a : Nat) (b : Byte) (h : memWf d m = true) : memWf d (memWr d m a b) = true := by
  unfold memWr
  by_cases hb : b = d
  · rw [if_pos hb]; exact memWf_tdel a h
  · rw [if_neg hb]
    simp only [memWf, Bool.and_eq_true, List.all_eq_true] at *
    refine ⟨Tab.sorted_tput m a b h.1, fun e he => ?_⟩
    rcases mem_tput _ _ _ _ he with rfl | he
    · simpa using hb
    · exact h.2 e he

theorem memWf_memWrs {d : Byte} {m : List Host.Cell} (a : Nat) (bs : List Byte) (h : memWf d m = true) : memWf d (memWrs d m a bs) = true := by
  induction bs generalizing m a with
  | nil => exact h
  | cons b bs ih => exact ih (a + 1) (memWf_memWr a b h)

theorem memWf_norProg {m : List Host.Cell} (a : Nat) (bs : List Byte) (h : memWf 0xFF#8 m = true) : memWf 0xFF#8 (norProg m a bs) = true := by
  induction bs generalizing m a with
  | nil => exact h
  | cons b bs ih => exact ih (a + 1) (memWf_memWr a _ h)

theorem memWf_memClear {d : Byte} {m : List Host.Cell} (a b : Nat) (h : memWf d m = true) : memWf d (memClear m a b) = true := by
  simp only [memWf, Bool.and_eq_true, List.all_eq_true] at *
  exact ⟨Tab.sorted_filter m _ h.1, fun e he => h.2 e (List.mem_of_mem_filter he)⟩

/-- Bytes read after bytes were written: the byte written at the address, if any, else the one before. -/
theorem memRd_memWrs (d : Byte) (m : List Host.Cell) (a : Nat) (bs : List Byte) (x : Nat) :
    memRd d (memWrs d m a bs) x = if a ≤ x ∧ x < a + bs.length then bs.getD (x - a) d else memRd d m x := by
  induction bs generalizing m a with
  | nil => simp [memWrs]
  | cons b bs ih =>
    rw [memWrs, ih, memRd_memWr]
    simp only [List.length_cons]
    by_cases hx : x = a
    · subst hx
      simp
    · by_cases h1 : a + 1 ≤ x ∧ x < a + 1 + bs.length
      · rw [if_pos h1, if_pos (by omega), show x - a = (x - (a + 1)) + 1 by omega]
        rfl
      · rw [if_neg h1, if_neg hx, if_neg (by omega)]

end Sys2Proof.Machine
end

