-- ==== Sys2Proof/Tests/Slice0.lean ====
section
/-!
SUPPORT. Small tests: ill-formed commands refused, one witness for the conditions of each statement (`wit_…`), and steps with results taken from
the spec's tables.
-/

namespace Sys2Proof.Tests

open Sys2Proof Sys2Proof.Machine

set_option maxRecDepth 100000
set_option Elab.async false
set_option linter.unusedVariables false

/-- An instance out of `PORST_N` with fields set. -/
def at_ (fs : List (Fld × Nat)) : State :=
  { State.reset with chip := fs.foldl (fun c p => c.put p.1 p.2) { State.reset.chip with pins := { State.reset.chip.pins with porstN := true } } }

/-- The same in SERVICE. -/
def up (fs : List (Fld × Nat)) : State := at_ ((F.PWR_STATUS_SEQ_STATE, 2) :: fs)

/-- The instance of a state changed. -/
def md (s : State) (f : Chip → Chip) : State := { s with chip := f s.chip }

/-- A service call of core 0 waiting in MBS 0: its code, the lengths of its output buffer, its inline words. -/
def callIn (code outLen : Nat) (args : List Nat) (s : State) : State :=
  md s (fun c => Chip.mbPut (((((c.wr 0x8000 (BitVec.ofNat 32 (code * 65536))).wr 0x8010 (BitVec.ofNat 32 outLen)).each (List.range args.length)
    (fun c i => c.mbWord false 0 (5 + i) (BitVec.ofNat 32 (args.getD i 0)))).mbPut false 0 F.MBS_STATUSn_OWNER 0xF0)) false 0 F.MBS_STATUSn_STATE 2)

/-- Copy `i` of a field, as a field of its own. -/
def cp (f : Fld) (i : Nat) : Fld := { f with base := f.off i }

/-- A hank, a Bobbin and a Custody command with nothing in them. -/
def hank0 : Hank := ⟨1, 1, [], 0, 0, 0, 0, 0, 0, [], [], [], [], 0, [], [], [], [], [], none, 0, 0, [], 0, 0⟩
def bob0 : Bob := { cls := 0, hank := 0, epoch := 1 }

/-- Delivered ring frames waiting for their unit. -/
def inb (ms : List Inbox) (s : State) : State := md s (fun c => { c with ring := { c.ring with inbox := ms } })

/-- A Splice state. -/
def spl (q : Splice) (s : State) : State := md s (fun c => { c with ring := { c.ring with splice := q } })

/-- An instance that serves alone (HX4), and one of a pair with its link up. -/
def ldr (fs : List (Fld × Nat)) : State := up ((F.GEN_BOOT_PHASE, 0x40) :: fs)
def pair (fs : List (Fld × Nat)) : State := up ((F.GEN_ID_PKG_CLASS, 1) :: (F.PLY_STATUS_AUTH, 1) :: fs)

/-- A frame of the service port waiting at an instance that serves it. -/
def port (cmd session : Nat) (payload : List Byte) : State :=
  md (ldr []) (fun c => { c with upd := { c.upd with portIn := some (updResp cmd session 0 .ok payload) } })

/-- A Custody ring with one descriptor, the journal open and the Crypto groups on. -/
def ringJ (fs : List (Fld × Nat)) : State :=
  md (ldr ([(F.BOB_CTRL_EN, 1), (F.BOB_CQ_TAIL_IDX, 1), (F.PWR_GRP_STATUS_STATE, 0x28), (F.BOB_STATUS_OPEN, 1)] ++ fs))
    (fun c => c.cu (fun u => { u with keys := { u.keys with hank := [(0, List.replicate 32 1#8)], blob := some (List.replicate 32 2#8) } }))

/-- An SPDM connection at a stage. -/
def spd (stage : Nat) (s : State) : State := md s (fun c => { c with spdm := { c.spdm with conns := [(0, { stage := stage })] } })


/-- A valid DMA descriptor of an operation, and a channel ready to take it. -/
def dsc (op : Nat) : DmaDesc :=
  let d : DmaDesc := { op := op, src := if op = 2 then 0 else 0x20000000, dst := 0x20001000, len := if op < 3 then 4 else 0, count := if op < 3 then 0 else 1,
                       elem := if op < 3 then 0 else 4, index := if op < 3 then 0 else 0x20002000, table := [0] }
  { d with crc := crc32c ({ d with flags := 0 }).bytes }
def chan1 : State := up [(F.DMA_CTRL_EN, 1), (cp F.DMA_CHn_STATUS_STATE 4, 1), (cp F.DMA_CHn_CFG_EN 4, 1), (cp F.DMA_CHn_TAIL_IDX 4, 1), (cp
        F.DMA_CHn_CFG_OWNER 4, 0xFF), (cp F.DMA_CHn_CFG_LOG2 4, 4)]

/-- A channel in a state, with a descriptor in hand. -/
def chanIn (st : Nat) (fs : List (Fld × Nat)) : State :=
  md (up ([(F.DMA_CTRL_EN, 1), (cp F.DMA_CHn_STATUS_STATE 0, st), (cp F.DMA_CHn_CFG_EN 0, 1), (cp F.DMA_CHn_CFG_OWNER 0, 0xFF)] ++ fs))
    (fun c => c.dmMod 0 (fun u => { u with desc := some (dsc 2) }))

/-- A service call with an input buffer. -/
def callB (code : Nat) (inp : List Byte) (outLen : Nat) (args : List Nat) (s : State) : State :=
  md (callIn code outLen args s) (fun c => ((c.wr 0x8004 0x1000#32).wr 0x8008 (BitVec.ofNat 32 inp.length)).rovWr 0x1000 inp)

/-- A service call whose input buffer holds zeros. -/
def callZ (code len : Nat) (s : State) : State :=
  md (callIn code 0 [] s) (fun c => (c.wr 0x8004 0x1000#32).wr 0x8008 (BitVec.ofNat 32 len))

/-- The start of a body of an owner object of a kind for hank 3. -/
def body0 (kind : Nat) : List Byte := ascii "GGMO" ++ pack [(2, 1), (1, kind), (1, 3)]

/-- A vendor-defined request. -/
def vend (op : Nat) (body : List Byte) : List Byte :=
  pack [(1, 0x13), (1, 0xFE), (2, 0), (2, 4), (1, 4), (4, 0xE7A1), (2, body.length + 4), (2, op), (2, 0)] ++ body

/-- An established hybrid session on a connection. -/
def inSess (s : State) : State := spd 3 (md s (fun c => { c with spdm := { c.spdm with sess := [(1, { est := true, hybrid := true })] } }))

/-- A crypto descriptor (Table 10.2) at the head of a channel's ring. -/
def putC (n : Nat) (d : CryDesc) (s : State) : State :=
  md s (fun c => c.ownWr (c.chOwner n) (c.chDesc n (c.geti F.CRY_CHn_HEAD_IDX n))
    (pack [(1, d.op), (1, d.flags), (1, d.key), (1, d.cls), (4, d.inOff), (4, d.inLen), (4, d.auxOff), (4, d.auxLen), (4, d.outOff), (4, d.outLen),
      (4, d.arg), (2, 0), (2, d.zero)]))

/-- A DMA descriptor (Table 11.1) at the head of a channel's ring. -/
def putD (n : Nat) (d : DmaDesc) (s : State) : State :=
  md s (fun c => c.ownWr (c.dmOwner n) (c.dmAddr n (c.geti F.DMA_CHn_HEAD_IDX n)) (d.bytes ++ le 4 d.crc))

/-- A Custody descriptor (Table 7.5) at the head of the ring. -/
def putQ (d : CqDesc) (s : State) : State :=
  md s (fun c => c.spnWr (c.get F.BOB_CQ_BASE_ADDR * 32 + 32 * c.get F.BOB_CQ_HEAD_IDX)
    (pack [(1, d.op), (1, d.flags), (2, d.tag), (4, d.first), (4, d.last), (4, d.epoch), (8, d.arg0), (4, d.arg1), (4, d.arg2)]))
theorem wit_porstNAssert : (fun (s : State) (taken : Bool) => decide (taken = false)) (State.reset) (false) = true := by
  decide +kernel

theorem wit_porstNAssert2 : (fun (s : State) (taken : Bool) => decide (taken = true ∧ s.chip.otp.job = none ∧ s.chip.otp.quenching = false ∧
        s.chip.otp.cut = none ∧ s.chip.get F.DBG_NOIL_STATUS_FROZEN = 0)) (up []) (true) = true := by
  decide +kernel

theorem wit_brownOutReset : (fun (s : State) (mv : Nat) => decide (s.chip.otp.job = none ∧ s.chip.otp.quenching = false ∧ s.chip.otp.cut = none)) (up
        []) (1549) = true := by
  decide +kernel

theorem wit_porstNRise : (fun (s : State) (strapClass : Nat) (strapSide recoveryN : Bool) => decide (s.chip.pins.porstN = false)) (State.reset) (2)
        (true) (false) = true := by
  decide +kernel

theorem wit_porstNRise2 : (fun (s : State) (strapClass : Nat) (strapSide recoveryN : Bool) => decide (s.chip.pins.porstN = true)) (at_ []) (2) (true)
        (false) = true := by
  decide +kernel

theorem wit_sysrstNPulse : (fun (s : State) (taken recoveryN : Bool) => decide ((taken = false ∨ s.chip.pins.porstN = false))) (at_ []) (false)
        (true) = true := by
  decide +kernel

theorem wit_sysrstNPulse2 : (fun (s : State) (taken recoveryN : Bool) => decide (taken = true ∧ s.chip.pins.porstN = true ∧ s.chip.seq =
        .sleepEntry)) (at_ [(F.PWR_STATUS_SEQ_STATE, 4)]) (true) (true) = true := by
  decide +kernel

theorem wit_sysrstNPulse3 : (fun (s : State) (taken recoveryN : Bool) => decide (taken = true ∧ s.chip.pins.porstN = true ∧ s.chip.seq = .service))
        (up []) (true) (true) = true := by
  decide +kernel

theorem wit_vinOkFall : (fun (s : State) (mv : Nat) => decide (railOk mv = false ∧ s.chip.otp.job = none ∧ s.chip.get F.PWR_STATUS_VIN_OK = 0)) (at_
        [(F.PWR_STATUS_VIN_OK, 0)]) (1600) = true := by
  decide +kernel

theorem wit_vinOkFall2 : (fun (s : State) (mv : Nat) => decide (railOk mv = false ∧ s.chip.pins.porstN = true ∧ s.chip.otp.job = none ∧ s.chip.get
        F.PWR_STATUS_VIN_OK = 1 ∧ s.chip.seq = .shutdown)) (at_ [(F.PWR_STATUS_VIN_OK, 1), (F.PWR_STATUS_SEQ_STATE, 7)]) (1600) = true := by
  decide +kernel

theorem wit_vinOkFall3 : (fun (s : State) (mv : Nat) => decide (railOk mv = false ∧ s.chip.pins.porstN = true ∧ s.chip.otp.job = none ∧ s.chip.get
        F.PWR_STATUS_VIN_OK = 1 ∧ s.chip.seq = .service)) (up [(F.PWR_STATUS_VIN_OK, 1)]) (1600) = true := by
  decide +kernel

theorem wit_vinFuseOkFall : (fun (s : State) (mv : Nat) => decide (railOk mv = true ∧ railFuseOk mv = false ∧ s.chip.pins.porstN = true ∧
        s.chip.otp.job = none)) (at_ [(F.PWR_STATUS_VIN_FUSE_OK, 1)]) (1750) = true := by
  decide +kernel

theorem wit_vinFuseOkFall2 : (fun (s : State) (mv : Nat) => decide (railOk mv = true ∧ railFuseOk mv = false ∧ s.chip.pins.porstN = true ∧
        s.chip.otp.job = none)) (at_ [(F.PWR_STATUS_VIN_FUSE_OK, 1)]) (1841) = true := by
  decide +kernel

theorem wit_vinFuseOkRise : (fun (s : State) (mv : Nat) => decide (railFuseOk mv = true)) (at_ []) (1800) = true := by
  decide +kernel

theorem wit_refclkLost : (fun (s : State) => decide (s.chip.pins.porstN = true ∧ s.chip.get F.PWR_STATUS_REF_LOST = 0 ∧ s.chip.seq = .sense)) (at_
        []) = true := by
  decide +kernel

theorem wit_refclkPresentAgain : (fun (s : State) => decide (s.chip.pins.porstN = true ∧ s.chip.get F.PWR_STATUS_REF_LOST = 1 ∧ s.chip.seq ≠ .sleep))
        (at_ [(F.PWR_STATUS_REF_LOST, 1)]) = true := by
  decide +kernel

theorem wit_clockGlitch : (fun (s : State) => decide (s.chip.pins.porstN = false)) (State.reset) = true := by
  decide +kernel

theorem wit_clockGlitch2 : (fun (s : State) => decide (s.chip.pins.porstN = true ∧ s.chip.seq = .service)) (up []) = true := by
  decide +kernel

theorem wit_rsvReady : (fun (s : State) => decide (s.chip.pins.porstN = true ∧ s.chip.get F.SNG_STATUS_QUENCH_REQ = 0)) (at_ []) = true := by
  decide +kernel

theorem wit_seqSvcWake : (fun (s : State) => decide (s.chip.pins.porstN = true ∧ s.chip.seq = .sense ∧ s.chip.otp.sensed = true ∧ s.chip.lcs.pending
        = false ∧ s.chip.get F.PWR_STATUS_REF_LOST = 0 ∧ s.chip.get F.PWR_STATUS_RSV_READY = 1)) (md (at_ [(F.PWR_STATUS_RSV_READY, 1)]) (fun c =>
        { c with otp := { c.otp with sensed := true } })) = true := by
  decide +kernel

theorem wit_seqSvcWake2 : (fun (s : State) => decide (s.chip.otp.sensed = false)) (at_ []) = true := by
  decide +kernel

theorem wit_svcPllLocked : (fun (s : State) => decide (s.chip.seq = .svcWaking)) (at_ [(F.PWR_STATUS_SEQ_STATE, 1)]) = true := by
  decide +kernel

theorem wit_svcPllTimeout : (fun (s : State) => decide (s.chip.seq = .svcWaking ∧ s.chip.pwr.svcTries = 0)) (at_ [(F.PWR_STATUS_SEQ_STATE, 1)]) =
        true := by
  decide +kernel

theorem wit_svcPllTimeout2 : (fun (s : State) => decide (s.chip.seq = .svcWaking ∧ s.chip.pwr.svcTries ≠ 0)) (md (at_ [(F.PWR_STATUS_SEQ_STATE, 1)])
        (fun c => { c with pwr := { c.pwr with svcTries := 1 } })) = true := by
  decide +kernel

theorem wit_sleepReq : (fun (s : State) (req : Req) => decide (s.chip.opens req R.PWR_CTRL true = true ∧ s.chip.svcUp = true ∧ s.chip.sleepBar.isSome
        = true)) (up [(F.WHL_Ln_STATE_STATE, 1)]) (reqSpindle) = true := by
  decide +kernel

theorem wit_sleepReq2 : (fun (s : State) (req : Req) => decide (s.chip.opens req R.PWR_CTRL true = true ∧ s.chip.svcUp = true ∧ s.chip.sleepBar =
        none)) (up []) (reqSpindle) = true := by
  decide +kernel

theorem wit_sleepEntryDone : (fun (s : State) => decide (s.chip.seq = .sleepEntry ∧ s.chip.pwr.latched = false)) (at_ [(F.PWR_STATUS_SEQ_STATE, 4)])
        = true := by
  decide +kernel

theorem wit_pwrShutdown : (fun (s : State) (req : Req) => decide (s.chip.opens req R.PWR_CTRL true = true ∧ s.chip.seq ≠ .held ∧ s.chip.seq ≠
        .shutdown)) (up []) (reqSpindle) = true := by
  decide +kernel

theorem wit_wakeFabricAccess : (fun (s : State) (req : Req) (off : Nat) (write : Bool) => decide (s.chip.seq ≠ .sleep ∧ s.chip.seq ≠ .sleepEntry))
        (up []) (reqSpindle) (0x9000) (false) = true := by
  decide +kernel

theorem wit_wakeFabricAccess2 : (fun (s : State) (req : Req) (off : Nat) (write : Bool) => decide (s.chip.seq = .sleepEntry ∧ bit (s.chip.get
        F.PWR_WAKE_EN_SRC) 0 = true)) (at_ [(F.PWR_STATUS_SEQ_STATE, 4), (F.PWR_WAKE_EN_SRC, 1)]) (0x80#8) (0x9000) (false) = true := by
  decide +kernel

theorem wit_wakeTimer : (fun (s : State) => decide (s.chip.pwr.wakeAt = none)) (at_ []) = true := by
  decide +kernel

theorem wit_wakeTimer2 : (fun (s : State) => decide (s.chip.pwr.wakeAt = some 0 ∧ s.chip.seq = .sleepEntry ∧ bit (s.chip.get F.PWR_WAKE_EN_SRC) 1 =
        true)) (md (at_ [(F.PWR_STATUS_SEQ_STATE, 4), (F.PWR_WAKE_EN_SRC, 2)]) (fun c => { c with pwr := { c.pwr with wakeAt := some 0 } })) = true
        := by
  decide +kernel

theorem wit_wakePlyBeacon : (fun (s : State) => decide (bit (s.chip.get F.PWR_WAKE_EN_SRC) 2 = false)) (at_ [(F.PWR_STATUS_SEQ_STATE, 5),
        (F.PWR_WAKE_EN_SRC, 0)]) = true := by
  decide +kernel

theorem wit_wakePlyBeacon2 : (fun (s : State) => decide (s.chip.seq = .sleepEntry ∧ bit (s.chip.get F.PWR_WAKE_EN_SRC) 2 = true)) (at_
        [(F.PWR_STATUS_SEQ_STATE, 4), (F.PWR_WAKE_EN_SRC, 4)]) = true := by
  decide +kernel

theorem wit_wakeSvcPort : (fun (s : State) => decide (s.chip.seq = .sleep ∧ bit (s.chip.get F.PWR_WAKE_EN_SRC) 3 = true ∧ s.chip.get
        F.PWR_STATUS_REF_LOST = 0)) (at_ [(F.PWR_STATUS_SEQ_STATE, 5), (F.PWR_WAKE_EN_SRC, 8)]) = true := by
  decide +kernel

theorem wit_snagDecision : (fun (s : State) (causes : List PadCause) => decide (s.chip.pins.porstN = false)) (State.reset) ([.lid]) = true := by
  decide +kernel

theorem wit_snagDecision2 : (fun (s : State) (causes : List PadCause) => decide (s.chip.pins.porstN = true ∧ causes = [])) (at_ []) ([]) = true := by
  decide +kernel

theorem wit_snagDecision3 : (fun (s : State) (causes : List PadCause) => decide (s.chip.pins.porstN = true ∧ causes = [.lid] ∧ s.chip.sng.persist =
        [] ∧ s.chip.seq = .service)) (up []) ([.lid]) = true := by
  decide +kernel

theorem wit_zeroizeOutPulseEnd : (fun (s : State) => decide (s.chip.pins.zeroizeOut = ZOut.pulse)) (md (at_ []) (fun c =>
        { c with pins := { c.pins with zeroizeOut := .pulse } })) = true := by
  decide +kernel

theorem wit_zeroizeOutPulseEnd2 : (fun (s : State) => decide (s.chip.pins.zeroizeOut = ZOut.low)) (md (at_ []) (fun c =>
        { c with pins := { c.pins with zeroizeOut := .low } })) = true := by
  decide +kernel

theorem wit_recordWriter : (fun (s : State) (vinFell verified : Bool) => decide (s.chip.sng.writer = none)) (at_ []) (false) (true) = true := by
  decide +kernel

theorem wit_recordWriter2 : (fun (s : State) (vinFell verified : Bool) => decide (s.chip.sng.writer.isSome = true ∧ s.chip.get F.SNG_CTRL_LOG_EN =
        0)) (md (at_ [(F.SNG_CTRL_LOG_EN, 0)]) (fun c => { c with sng := { c.sng with writer := some ⟨0, 4, 0x4002, []⟩ } })) (false) (true) = true
        := by
  decide +kernel

theorem wit_recordWriter3 : (fun (s : State) (vinFell verified : Bool) => decide (s.chip.sng.writer.isSome = true ∧ s.chip.get F.SNG_CTRL_LOG_EN = 1
        ∧ s.chip.get F.PWR_STATUS_VIN_OK = 1 ∧ vinFell = false ∧ verified = true ∧ norBlank s.chip.mem.nor (tamperAddr (s.chip.get F.SNG_LOG_NEXT))
        32 = true)) (md (at_ [(F.SNG_CTRL_LOG_EN, 1), (F.PWR_STATUS_VIN_OK, 1)]) (fun c =>
        { c with sng := { c.sng with writer := some ⟨0, 4, 0x4002, []⟩ } })) (false) (true) = true := by
  decide +kernel

theorem wit_tempConversion : (fun (s : State) (t0 t1 : Int) => decide (s.chip.pins.porstN = true ∧ s.chip.sng = {} ∧ t0 = 100 ∧ t1 = 96)) (at_ [])
        (100) (96) = true := by
  decide +kernel

theorem wit_sensorCalibration : (fun (s : State) (result : CalResult) => decide (s.chip.pins.porstN = true ∧ result = .lid)) (at_ []) (.lid) = true
        := by
  decide +kernel

theorem wit_sensorCalibration2 : (fun (s : State) (result : CalResult) => decide (s.chip.pins.porstN = true ∧ result = .temp false true 40)) (at_ [])
        (.temp false true 40) = true := by
  decide +kernel

theorem wit_forceCal : (fun (s : State) (req : Req) (results : List CalResult) => decide (s.chip.pins.porstN = true ∧ s.chip.opens req R.SNG_CTRL
        true = true ∧ results = [.lid])) (at_ []) (reqSpindle) ([.lid]) = true := by
  decide +kernel

theorem wit_forceCal2 : (fun (s : State) (req : Req) (results : List CalResult) => decide (s.chip.pins.porstN = true ∧ s.chip.opens req R.SNG_CTRL
        true = true ∧ results = [.temp false true 40])) (at_ []) (reqSpindle) ([.temp false true 40]) = true := by
  decide +kernel

theorem wit_quenchEn : (fun (s : State) (req : Req) (value : Bool) => decide (s.chip.pins.porstN = true ∧ s.chip.opens req R.SNG_CTRL true = true ∧
        s.chip.lcState ≤ 1 ∧ value = true)) (at_ []) (reqSpindle) (true) = true := by
  decide +kernel

theorem wit_quenchEn2 : (fun (s : State) (req : Req) (value : Bool) => decide (s.chip.pins.porstN = true ∧ s.chip.opens req R.SNG_CTRL true = true ∧
        1 < s.chip.lcState)) (at_ [(F.LCS_STATE_CURRENT, 4)]) (reqSpindle) (false) = true := by
  decide +kernel

theorem wit_otpRead : (fun (s : State) (req : Req) (key : BitVec 16) => decide (s.chip.opens req R.OTP_CMD true = true ∧ key ≠ 0x0F75#16)) (at_ [])
        (reqSpindle) (0#16) = true := by
  decide +kernel

theorem wit_otpRead2 : (fun (s : State) (req : Req) (key : BitVec 16) => decide (s.chip.opens req R.OTP_CMD true = true ∧ key = 0x0F75#16 ∧
        s.chip.otp.busy = false ∧ s.chip.get F.OTP_ADDR_WORD / 512 = 2)) (at_ [(F.OTP_ADDR_WORD, 1024)]) (reqSpindle) (0x0F75#16) = true := by
  decide +kernel

theorem wit_otpRead3 : (fun (s : State) (req : Req) (key : BitVec 16) => decide (s.chip.opens req R.OTP_CMD true = true ∧ key = 0x0F75#16 ∧
        s.chip.otp.busy = false ∧ s.chip.get F.OTP_ADDR_WORD / 512 ≠ 2 ∧ s.chip.otp.rlock (s.chip.get F.OTP_ADDR_WORD / 512) = false)) (at_ [])
        (reqSpindle) (0x0F75#16) = true := by
  decide +kernel

theorem wit_progWord : (fun (s : State) (req : Req) (key : BitVec 16) => decide (s.chip.opens req R.OTP_CMD true = true ∧ key = 0x0F75#16 ∧
        s.chip.lcState = 1 ∧ s.chip.get F.OTP_ADDR_WORD / 512 = 7 ∧ s.chip.otp.wlock 7 = false ∧ s.chip.otp.busy = false ∧ s.chip.get
        F.PWR_STATUS_VIN_FUSE_OK = 1 ∧ s.fuses.fits (s.chip.get F.OTP_ADDR_WORD) (eccWord (s.chip.get F.OTP_WDATA_DATA)) = true)) (at_
        [(F.LCS_STATE_CURRENT, 1), (F.OTP_ADDR_WORD, 3584), (F.PWR_STATUS_VIN_FUSE_OK, 1)]) (reqSpindle) (0x0F75#16) = true := by
  decide +kernel

theorem wit_progWord2 : (fun (s : State) (req : Req) (key : BitVec 16) => decide (s.chip.opens req R.OTP_CMD true = true ∧ key = 0x0F75#16 ∧
        s.chip.lcState = 0)) (at_ []) (reqSpindle) (0x0F75#16) = true := by
  decide +kernel

theorem wit_progDigest : (fun (s : State) (req : Req) (key : BitVec 16) (arg : BitVec 8) => decide (s.chip.opens req R.OTP_CMD true = true ∧ key =
        0x0F75#16 ∧ s.chip.lcState = 4 ∧ 8 ≤ arg.toNat)) (at_ [(F.LCS_STATE_CURRENT, 4)]) (reqSpindle) (0x0F75#16) (8#8) = true := by
  decide +kernel

theorem wit_progDigest2 : (fun (s : State) (req : Req) (key : BitVec 16) (arg : BitVec 8) => decide (s.chip.opens req R.OTP_CMD true = true ∧ key =
        0x0F75#16 ∧ arg.toNat < 8 ∧ progAllowed s.chip.lcState arg.toNat = true ∧ s.chip.otp.wlock arg.toNat = false ∧ s.fuses.cells.all (fun e =>
        e.1 / 512 != arg.toNat) = true ∧ s.chip.otp.busy = false ∧ s.chip.get F.PWR_STATUS_VIN_FUSE_OK = 1)) (at_ [(F.LCS_STATE_CURRENT, 4),
        (F.PWR_STATUS_VIN_FUSE_OK, 1)]) (reqSpindle) (0x0F75#16) (7#8) = true := by
  decide +kernel

theorem wit_lockWrite : (fun (s : State) (req : Req) (key : BitVec 16) (arg : BitVec 8) (drift : List (Nat × Cells)) => decide (s.chip.opens req
        R.OTP_CMD true = true ∧ key = 0x0F75#16 ∧ s.chip.lcState = 1 ∧ arg = 2#8 ∧ s.chip.otp.wlock 2 = false)) (at_ [(F.LCS_STATE_CURRENT, 1)])
        (reqSpindle) (0x0F75#16) (2#8) ([]) = true := by
  decide +kernel

theorem wit_lockWrite2 : (fun (s : State) (req : Req) (key : BitVec 16) (arg : BitVec 8) (drift : List (Nat × Cells)) => decide (s.chip.opens req
        R.OTP_CMD true = true ∧ key = 0x0F75#16 ∧ [0, 3, 5, 6, 7].contains arg.toNat = true ∧ progAllowed s.chip.lcState arg.toNat = true ∧
        s.chip.otp.wlock arg.toNat = false ∧ s.chip.otp.busy = false ∧ s.chip.get F.PWR_STATUS_VIN_FUSE_OK = 1)) (at_ [(F.LCS_STATE_CURRENT, 1),
        (F.PWR_STATUS_VIN_FUSE_OK, 1)]) (reqSpindle) (0x0F75#16) (0#8) ([]) = true := by
  decide +kernel

theorem wit_lockRead : (fun (s : State) (req : Req) (key : BitVec 16) (arg : BitVec 8) => decide (s.chip.opens req R.OTP_CMD true = true ∧ key =
        0x0F75#16 ∧ s.chip.lcState = 1 ∧ arg = 5#8 ∧ s.chip.otp.busy = false ∧ s.chip.get F.PWR_STATUS_VIN_FUSE_OK = 1)) (at_ [(F.LCS_STATE_CURRENT,
        1), (F.PWR_STATUS_VIN_FUSE_OK, 1)]) (reqSpindle) (0x0F75#16) (5#8) = true := by
  decide +kernel

theorem wit_lockWriteRaw : (fun (s : State) (req : Req) (key : BitVec 16) (arg : BitVec 8) => decide (s.chip.opens req R.OTP_CMD true = true ∧ key =
        0x0F75#16 ∧ s.chip.lcState ≠ 1)) (at_ [(F.LCS_STATE_CURRENT, 4)]) (reqSpindle) (0x0F75#16) (7#8) = true := by
  decide +kernel

theorem wit_lockWriteRaw2 : (fun (s : State) (req : Req) (key : BitVec 16) (arg : BitVec 8) => decide (s.chip.opens req R.OTP_CMD true = true ∧ key =
        0x0F75#16 ∧ s.chip.lcState = 1 ∧ arg = 7#8 ∧ s.chip.otp.lockBit 17 = false ∧ s.chip.otp.wlock 7 = false ∧ s.chip.otp.busy = false ∧
        s.chip.get F.PWR_STATUS_VIN_FUSE_OK = 1)) (at_ [(F.LCS_STATE_CURRENT, 1), (F.PWR_STATUS_VIN_FUSE_OK, 1)]) (reqSpindle) (0x0F75#16) (7#8) =
        true := by
  decide +kernel

theorem wit_genRoots : (fun (s : State) (req : Req) (key : BitVec 16) => decide (s.chip.opens req R.OTP_CMD true = true ∧ key = 0x0F75#16 ∧
        s.chip.lcState = 1 ∧ s.fuses.rootsBlank = false)) ({ at_ [(F.LCS_STATE_CURRENT, 1)] with fuses := { cells := [(1024, ⟨1, 1, 1⟩)] } })
        (reqSpindle) (0x0F75#16) = true := by
  decide +kernel

theorem wit_genRoots2 : (fun (s : State) (req : Req) (key : BitVec 16) => decide (s.chip.opens req R.OTP_CMD true = true ∧ key = 0x0F75#16 ∧
        s.chip.lcState = 1 ∧ s.fuses.rootsBlank = true ∧ s.chip.otp.busy = false ∧ s.chip.get F.PWR_STATUS_VIN_FUSE_OK = 1 ∧ s.chip.get
        F.CRY_DRBG_STATUS_ERROR = 0 ∧ s.chip.entNone = false)) (at_ [(F.LCS_STATE_CURRENT, 1), (F.PWR_STATUS_VIN_FUSE_OK, 1)]) (reqSpindle)
        (0x0F75#16) = true := by
  decide +kernel

theorem wit_arbAdvance : (fun (s : State) (req : Req) (key : BitVec 16) (arg : BitVec 8) => decide (s.chip.opens req R.OTP_CMD true = true ∧ key =
        0x0F75#16 ∧ s.chip.lcState = 4 ∧ 4 ≤ arg.toNat)) (at_ [(F.LCS_STATE_CURRENT, 4)]) (reqSpindle) (0x0F75#16) (4#8) = true := by
  decide +kernel

theorem wit_arbAdvance2 : (fun (s : State) (req : Req) (key : BitVec 16) (arg : BitVec 8) => decide (s.chip.opens req R.OTP_CMD true = true ∧ key =
        0x0F75#16 ∧ s.chip.lcState = 4 ∧ arg.toNat < 4 ∧ s.chip.otp.busy = false ∧ s.chip.get F.PWR_STATUS_VIN_FUSE_OK = 1)) (at_
        [(F.LCS_STATE_CURRENT, 4), (F.PWR_STATUS_VIN_FUSE_OK, 1)]) (reqSpindle) (0x0F75#16) (3#8) = true := by
  decide +kernel

theorem wit_otpProgramDone : (fun (s : State) (bad : Option Nat) => decide (s.chip.otp.job = none)) (at_ []) (none) = true := by
  decide +kernel

theorem wit_otpProgramDone2 : (fun (s : State) (bad : Option Nat) => decide (s.chip.otp.job = some ⟨.lockRead, 5, [(4096, 13)], .ok⟩ ∧
        s.chip.upd.confirm = none ∧ bad = none)) (md (at_ []) (fun c =>
        { c with otp := { c.otp with job := some ⟨.lockRead, 5, [(4096, 13)], .ok⟩ } })) (none) = true := by
  decide +kernel

theorem wit_otpAuditStart : (fun (s : State) (req : Req) (value : Word) => decide (s.chip.opens req R.OTP_AUDIT true = true ∧ wget 16 16 value = 1 ∧
        s.chip.otp.busy = true)) (md (at_ []) (fun c => { c with otp := { c.otp with audit := some 1 } })) (reqSpindle) (0x10001#32) = true := by
  decide +kernel

theorem wit_otpAuditStart2 : (fun (s : State) (req : Req) (value : Word) => decide (s.chip.opens req R.OTP_AUDIT true = true ∧ wget 16 16 value = 1 ∧
        s.chip.otp.busy = false)) (at_ []) (reqSpindle) (0x10001#32) = true := by
  decide +kernel

theorem wit_otpAuditDone : (fun (s : State) (drift : List (Nat × Cells)) => decide (s.chip.otp.audit = none)) (at_ []) ([]) = true := by
  decide +kernel

theorem wit_otpAuditDone2 : (fun (s : State) (drift : List (Nat × Cells)) => decide (s.chip.otp.audit.isSome = true)) (md (at_ []) (fun c =>
        { c with otp := { c.otp with audit := some 1 } })) ([]) = true := by
  decide +kernel

theorem wit_quenchDone : (fun (s : State) (bad : Nat) => decide (s.chip.otp.quenching = false)) (at_ []) (0) = true := by
  decide +kernel

theorem wit_quenchDone2 : (fun (s : State) (bad : Nat) => decide (s.chip.otp.quenching = true ∧ bad = 0)) (md (at_ []) (fun c =>
        { c with otp := { c.otp with quenching := true } })) (0) = true := by
  decide +kernel

theorem wit_fuseSensingDone : (fun (s : State) (drift : List (Nat × Cells)) (time : Nat) => decide ((s.chip.pins.porstN = false ∨ s.chip.otp.sensed =
        true))) (State.reset) ([]) (9) = true := by
  decide +kernel

theorem wit_fuseSensingDone2 : (fun (s : State) (drift : List (Nat × Cells)) (time : Nat) => decide (s.chip.pins.porstN = true ∧ s.chip.otp.sensed =
        false)) (at_ []) ([]) (9) = true := by
  decide +kernel

theorem wit_lcsRecordResume : (fun (s : State) (bad : Option Nat) => decide ((s.chip.lcs.record = none ∨ s.chip.lcs.pending = false))) (at_ [])
        (none) = true := by
  decide +kernel

theorem wit_lcsRecordResume2 : (fun (s : State) (bad : Option Nat) => decide (s.chip.lcs.record.isSome = true ∧ s.chip.lcs.pending = true ∧
        s.chip.seq = .sense ∧ s.chip.otp.quenching = false ∧ s.chip.get F.PWR_STATUS_VIN_FUSE_OK = 0)) (md (at_ [(F.PWR_STATUS_VIN_FUSE_OK, 0)]) (fun
        c => { c with lcs := { c.lcs with record := some 0, pending := true } })) (none) = true := by
  decide +kernel

theorem wit_lcsRecordResume3 : (fun (s : State) (bad : Option Nat) => decide (s.chip.lcs.record.isSome = true ∧ s.chip.lcs.pending = true ∧
        s.chip.seq = .sense ∧ s.chip.otp.quenching = false ∧ s.chip.lcs.stuck = false ∧ s.chip.get F.PWR_STATUS_VIN_FUSE_OK = 1 ∧ s.chip.lcs.target <
        7 ∧ bad = none)) (md (at_ [(F.PWR_STATUS_VIN_FUSE_OK, 1)]) (fun c =>
        { c with lcs := { c.lcs with record := some 3, pending := true, source := 4, target := 5 } })) (none) = true := by
  decide +kernel

theorem wit_lcsGo : (fun (s : State) (req : Req) (value : Word) => decide (s.chip.opens req R.LCS_CTRL true = true ∧ wget 31 16 value ≠ 0x7C5A)) (at_
        []) (reqSpindle) (0x100#32) = true := by
  decide +kernel

theorem wit_lcsGo2 : (fun (s : State) (req : Req) (value : Word) => decide (s.chip.opens req R.LCS_CTRL true = true ∧ wget 31 16 value = 0x7C5A ∧
        wget 8 8 value = 1 ∧ wget 3 0 value = 2 ∧ s.chip.lcState = 7)) (at_ [(F.LCS_STATE_CURRENT, 7)]) (reqSpindle) (0x7C5A0102#32) = true := by
  decide +kernel

theorem wit_lcsGo3 : (fun (s : State) (req : Req) (value : Word) => decide (s.chip.opens req R.LCS_CTRL true = true ∧ wget 31 16 value = 0x7C5A ∧
        wget 8 8 value = 1 ∧ wget 3 0 value < 8 ∧ s.chip.lcsCheck s.chip.lcState (wget 3 0 value) (wget 9 9 value = 1) false = .ok ∧ bit (s.fuses.at
        (recAddr (s.chip.lcs.record.getD s.chip.lcs.used) 0)).tight 0 = false)) (at_ [(F.LCS_STATE_CURRENT, 1), (F.PWR_STATUS_VIN_FUSE_OK, 1)])
        (reqSpindle) (0x7C5A0307#32) = true := by
  decide +kernel

theorem wit_lcsPhaseDone : (fun (s : State) (bad : Option Nat) => decide (s.chip.otp.job = none)) (at_ []) (none) = true := by
  decide +kernel

theorem wit_lcsPhaseDone2 : (fun (s : State) (bad : Option Nat) => decide (s.chip.otp.job = some ⟨.lcsDone, 0, [(600, 1)], .ok⟩ ∧ bad = none)) (md
        (at_ []) (fun c => { c with otp := { c.otp with job := some ⟨.lcsDone, 0, [(600, 1)], .ok⟩ } })) (none) = true := by
  decide +kernel

theorem wit_lcsRestart : (fun (s : State) => decide (s.chip.get F.LCS_STATUS_PHASE ≠ 5)) (at_ []) = true := by
  decide +kernel

theorem wit_lcsRestart2 : (fun (s : State) => decide (s.chip.get F.LCS_STATUS_PHASE = 5 ∧ s.chip.seq = .service)) (up [(F.LCS_STATUS_PHASE, 5)]) =
        true := by
  decide +kernel

theorem wit_fetchReq : (fun (s : State) (region : Nat) => decide ((s.chip.svcUp = false ∨ (region ≠ 3 ∧ region ≠ 5)))) (at_ []) (3) = true := by
  decide +kernel

theorem wit_fetchReq2 : (fun (s : State) (region : Nat) => decide ((s.chip.svcUp = false ∨ (region ≠ 3 ∧ region ≠ 5)))) (up []) (4) = true := by
  decide +kernel

theorem wit_fetchReq3 : (fun (s : State) (region : Nat) => decide (s.chip.svcUp = true ∧ region = 3 ∧ s.chip.otp.dead 3 = false)) (up []) (3) = true
        := by
  decide +kernel

theorem wit_fetchResp : (fun (s : State) (region : Nat) (st : Nat) (words : List Byte) => decide (s.chip.otp.fetching.contains region = false)) (up
        [(F.GEN_BOOT_PHASE, 0x11)]) (3) (0) ([]) = true := by
  decide +kernel

theorem wit_fetchResp2 : (fun (s : State) (region : Nat) (st : Nat) (words : List Byte) => decide (s.chip.svcUp = true ∧ s.chip.phase = 0x11 ∧
        s.chip.otp.fetching = [5] ∧ s.chip.otp.failed = [5] ∧ s.chip.otp.atStart = [5] ∧ s.chip.otp.dead 3 = false ∧ region = 5 ∧ st ≠ 0)) (md (up
        [(F.GEN_BOOT_PHASE, 0x11)]) (fun c => { c with otp := { c.otp with fetching := [5], failed := [5], atStart := [5] } })) (5) (1) ([]) = true
        := by
  decide +kernel

theorem wit_fetchRetryTimer : (fun (s : State) => decide (s.chip.phase ≠ 0x11)) (up [(F.GEN_BOOT_PHASE, 0x12)]) = true := by
  decide +kernel

theorem wit_fetchRetryTimer2 : (fun (s : State) => decide (s.chip.svcUp = true ∧ s.chip.phase = 0x11 ∧ s.chip.otp.fetching = [3])) (md (up
        [(F.GEN_BOOT_PHASE, 0x11)]) (fun c => { c with otp := { c.otp with fetching := [3] } })) = true := by
  decide +kernel

theorem wit_fetchTimeout : (fun (s : State) => decide (s.chip.otp.fetching = [])) (up [(F.GEN_BOOT_PHASE, 0x11)]) = true := by
  decide +kernel

theorem wit_fetchTimeout2 : (fun (s : State) => decide (s.chip.svcUp = true ∧ s.chip.phase = 0x11 ∧ s.chip.otp.fetching = [3] ∧ s.chip.otp.failed =
        [3])) (md (up [(F.GEN_BOOT_PHASE, 0x11)]) (fun c => { c with otp := { c.otp with fetching := [3], failed := [3] } })) = true := by
  decide +kernel

theorem wit_romInit : (fun (s : State) (rom : List Byte) => decide (s.chip.phase ≠ 0x10)) (up [(F.GEN_BOOT_PHASE, 0x11)]) ([]) = true := by
  decide +kernel

theorem wit_romInit2 : (fun (s : State) (rom : List Byte) => decide (s.chip.svcUp = true ∧ s.chip.phase = 0x10 ∧ ((s.chip.entSt 0 = 1 ∨ s.chip.entSt
        1 = 1)))) (up [(F.GEN_BOOT_PHASE, 0x10)]) ([]) = true := by
  decide +kernel

theorem wit_romInit3 : (fun (s : State) (rom : List Byte) => decide (s.chip.svcUp = true ∧ s.chip.phase = 0x10 ∧ s.chip.entSt 0 ≠ 1 ∧ s.chip.entSt 1
        ≠ 1 ∧ s.chip.get F.GEN_BOOT_WARM = 1)) (up [(F.GEN_BOOT_PHASE, 0x10), (F.GEN_BOOT_WARM, 1), (F.CRY_ENT_STATE0, 0), (F.CRY_ENT_STATE1, 0)])
        ([1#8]) = true := by
  decide +kernel

theorem wit_integDecide : (fun (s : State) => decide (s.chip.svcUp = true ∧ s.chip.phase = 0x11 ∧ s.chip.otp.fetching = [] ∧ s.chip.otp.failed =
        [3])) (md (up [(F.GEN_BOOT_PHASE, 0x11)]) (fun c => { c with otp := { c.otp with failed := [3] } })) = true := by
  decide +kernel

theorem wit_integDecide2 : (fun (s : State) => decide (s.chip.svcUp = true ∧ s.chip.phase = 0x11 ∧ s.chip.otp.fetching = [] ∧ s.chip.otp.failed = [7]
        ∧ s.chip.otp.atStart = [7] ∧ s.chip.otp.dead 3 = false)) (md (up [(F.GEN_BOOT_PHASE, 0x11)]) (fun c =>
        { c with otp := { c.otp with failed := [7], atStart := [7] } })) = true := by
  decide +kernel

theorem wit_integDecide3 : (fun (s : State) => decide (s.chip.svcUp = true ∧ s.chip.phase = 0x11 ∧ s.chip.otp.fetching = [] ∧ s.chip.otp.failed = [2]
        ∧ s.chip.otp.atStart = [2])) (md (up [(F.GEN_BOOT_PHASE, 0x11)]) (fun c => { c with otp := { c.otp with failed := [2], atStart := [2] } })) =
        true := by
  decide +kernel

theorem wit_norInit : (fun (s : State) => decide (s.chip.svcUp = true ∧ s.chip.phase = 0x12)) (up [(F.GEN_BOOT_PHASE, 0x12)]) = true := by
  decide +kernel

theorem wit_norInit2 : (fun (s : State) => decide (s.chip.phase ≠ 0x12)) (up [(F.GEN_BOOT_PHASE, 0x13)]) = true := by
  decide +kernel

theorem wit_rootLoad : (fun (s : State) => decide (s.chip.svcUp = true ∧ s.chip.phase = 0x13 ∧ s.chip.pins.recoveryN = false)) (md (up
        [(F.GEN_BOOT_PHASE, 0x13)]) (fun c => { c with pins := { c.pins with recoveryN := false } })) = true := by
  decide +kernel

theorem wit_rootLoad2 : (fun (s : State) => decide (s.chip.svcUp = true ∧ s.chip.phase = 0x13 ∧ s.chip.pins.recoveryN = true)) (up
        [(F.GEN_BOOT_PHASE, 0x13)]) = true := by
  decide +kernel

theorem wit_deviceidDerive : (fun (s : State) => decide (s.chip.svcUp = true ∧ s.chip.phase = 0x14)) (up [(F.GEN_BOOT_PHASE, 0x14)]) = true := by
  decide +kernel

theorem wit_deviceidDerive2 : (fun (s : State) => decide (s.chip.svcUp = true ∧ s.chip.phase = 0x14)) (md (up [(F.GEN_BOOT_PHASE, 0x14)]) (fun c =>
        { c with cust := { c.cust with keys := { c.cust.keys with root := some [1#8] } } })) = true := by
  decide +kernel

theorem wit_spindleVerify : (fun (s : State) => decide (s.chip.svcUp = true ∧ s.chip.phase = 0x15)) (up [(F.GEN_BOOT_PHASE, 0x15)]) = true := by
  decide +kernel

theorem wit_aliasDerive : (fun (s : State) => decide (s.chip.svcUp = true ∧ s.chip.phase = 0x16)) (up [(F.GEN_BOOT_PHASE, 0x16)]) = true := by
  decide +kernel

theorem wit_recoveryEnter : (fun (s : State) => decide (s.chip.svcUp = true ∧ s.chip.phase = 0x13 ∧ s.chip.pins.recoveryN = false)) (md (up
        [(F.GEN_BOOT_PHASE, 0x13)]) (fun c => { c with pins := { c.pins with recoveryN := false } })) = true := by
  decide +kernel

theorem wit_recoveryEnter2 : (fun (s : State) => decide (s.chip.phase = 0x15 ∧ s.chip.boot.failed = none)) (up [(F.GEN_BOOT_PHASE, 0x15)]) = true :=
        by
  decide +kernel

theorem wit_spindleInit : (fun (s : State) => decide (s.chip.get F.COR_SPN_CTRL_CODE_WP = 1)) (up [(F.GEN_BOOT_PHASE, 0x20), (F.COR_SPN_CTRL_CODE_WP,
        1)]) = true := by
  decide +kernel

theorem wit_spindleInit2 : (fun (s : State) => decide (s.chip.svcUp = true ∧ s.chip.phase = 0x20 ∧ s.chip.get F.COR_SPN_CTRL_CODE_WP = 0)) (up
        [(F.GEN_BOOT_PHASE, 0x20)]) = true := by
  decide +kernel

theorem wit_configApply : (fun (s : State) => decide (s.chip.phase ≠ 0x21)) (up [(F.GEN_BOOT_PHASE, 0x20)]) = true := by
  decide +kernel

theorem wit_configApply2 : (fun (s : State) => decide (s.chip.svcUp = true ∧ s.chip.phase = 0x21 ∧ s.chip.upd = {})) (up [(F.GEN_BOOT_PHASE, 0x21)])
        = true := by
  decide +kernel

theorem wit_rovingStart : (fun (s : State) => decide (s.chip.svcUp = true ∧ s.chip.phase = 0x22 ∧ s.chip.upd = {} ∧ (s.chip.imgRead 2).2.2.2 ≠ .ok))
        (up [(F.GEN_BOOT_PHASE, 0x22)]) = true := by
  decide +kernel

theorem wit_rovingStart2 : (fun (s : State) => decide (s.chip.svcUp = true ∧ s.chip.phase = 0x22 ∧ s.chip.upd = {})) (up [(F.GEN_BOOT_PHASE, 0x22)])
        = true := by
  decide +kernel

theorem wit_custodyInit : (fun (s : State) => decide (s.chip.svcUp = true ∧ s.chip.phase = 0x23)) (up [(F.GEN_BOOT_PHASE, 0x23)]) = true := by
  decide +kernel

theorem wit_ringStart : (fun (s : State) (other marks : Bool) => decide (s.chip.svcUp = true ∧ s.chip.phase = 0x24)) (up [(F.GEN_BOOT_PHASE, 0x24)])
        (false) (false) = true := by
  decide +kernel

theorem wit_ringStart2 : (fun (s : State) (other marks : Bool) => decide (s.chip.svcUp = true ∧ s.chip.phase = 0x24)) (up [(F.GEN_BOOT_PHASE, 0x24),
        (F.GEN_ID_PKG_CLASS, 1)]) (true) (true) = true := by
  decide +kernel

theorem wit_cardNodePresent : (fun (s : State) (node : Nat) => decide (s.chip.cards = false)) (up []) (5) = true := by
  decide +kernel

theorem wit_cardNodePresent2 : (fun (s : State) (node : Nat) => decide (node < 64 ∧ s.chip.cards = true ∧ 0x30 ≤ s.chip.phase ∧ s.chip.phase ≠ 0xF0 ∧
        s.chip.present node = true ∧ s.chip.cardSt node = 0)) (md (up [(F.GEN_BOOT_PHASE, 0x30), (F.SKN_PRESENT0_NODES, 32)]) (fun c =>
        { c with card := { c.card with active := true } })) (5) = true := by
  decide +kernel

theorem wit_measured : (fun (s : State) => decide (s.chip.ring.inbox = [])) (up []) = true := by
  decide +kernel

theorem wit_measured2 : (fun (s : State) => decide (s.chip.ring.inbox = [⟨0x41, 5, 0, 0, 1#8 :: List.replicate 164 0#8⟩] ∧ s.chip.cards = true ∧
        s.chip.cardSt 5 = 1 ∧ (s.chip.cardDie 5).nonce = List.replicate 12 0#8 ∧ s.chip.manifestMiss (1#8 :: List.replicate 164 0#8) = none)) (md (up
        [(F.GEN_BOOT_PHASE, 0x30), (F.SKN_PRESENT0_NODES, 32), (cp F.GEN_CARD_STATEn_STATE 5, 1)]) (fun c =>
        { c with card := { c.card with active := true, dies := [(5, { nonce := List.replicate 12 0#8 })] }, ring := { c.ring with inbox := [⟨0x41, 5, 0, 0, 1#8 :: List.replicate 164 0#8⟩] }, boot := { c.boot with manifest := (1#8 :: List.replicate 63 0#8) ++ (2#8 :: List.replicate 63 0#8) ++ (3#8 :: List.replicate 63 0#8) } }))
        = true := by
  decide +kernel

theorem wit_notReady : (fun (s : State) => decide (s.chip.ring.inbox = [⟨0x41, 5, 0, 0, [3#8]⟩] ∧ s.chip.cardSt 5 = 1)) (md (up
        [(F.SKN_PRESENT0_NODES, 32), (cp F.GEN_CARD_STATEn_STATE 5, 1)]) (fun c =>
        { c with ring := { c.ring with inbox := [⟨0x41, 5, 0, 0, [3#8]⟩] } })) = true := by
  decide +kernel

theorem wit_keyInstalled : (fun (s : State) => decide (s.chip.ring.inbox = [⟨0x41, 5, 0, 0, [2#8]⟩] ∧ s.chip.cards = true ∧ s.chip.cardSt 5 = 3)) (md
        (up [(F.GEN_BOOT_PHASE, 0x30), (F.SKN_PRESENT0_NODES, 32), (cp F.GEN_CARD_STATEn_STATE 5, 3)]) (fun c =>
        { c with card := { c.card with active := true }, ring := { c.ring with inbox := [⟨0x41, 5, 0, 0, [2#8]⟩] } })) = true := by
  decide +kernel

theorem wit_keyFailed : (fun (s : State) => decide (s.chip.ring.inbox = [⟨0x41, 5, 0, 0, [4#8]⟩] ∧ s.chip.cards = true ∧ s.chip.cardSt 5 = 3)) (md
        (up [(F.GEN_BOOT_PHASE, 0x30), (F.SKN_PRESENT0_NODES, 32), (cp F.GEN_CARD_STATEn_STATE 5, 3)]) (fun c =>
        { c with card := { c.card with active := true }, ring := { c.ring with inbox := [⟨0x41, 5, 0, 0, [4#8]⟩] } })) = true := by
  decide +kernel

theorem wit_keyFailed2 : (fun (s : State) => decide (s.chip.ring.inbox = [⟨0x41, 5, 0, 0, [4#8]⟩] ∧ s.chip.cards = true ∧ s.chip.cardSt 5 = 3)) (md
        (up [(F.GEN_BOOT_PHASE, 0x30), (F.SKN_PRESENT0_NODES, 32), (cp F.GEN_CARD_STATEn_STATE 5, 3)]) (fun c =>
        { c with card := { c.card with active := true, dies := [(5, { keyFails := 1, esk := [1#8] })] }, ring := { c.ring with inbox := [⟨0x41, 5, 0, 0, [4#8]⟩] } }))
        = true := by
  decide +kernel

theorem wit_cardRetryTimer : (fun (s : State) (node : Nat) => decide (node < 64 ∧ s.chip.cards = true ∧ s.chip.cardSt node = 1 ∧ (s.chip.cardDie
        node).notReady = true ∧ (s.chip.cardDie node).measured + s.chip.conf 0x0302 1024 ≤ s.chip.slot)) (md (up [(F.SKN_PRESENT0_NODES, 32), (cp
        F.GEN_CARD_STATEn_STATE 5, 1)]) (fun c => { c with time := 1024 * 256, card := { c.card with active := true, dies := [(5, { notReady := true })] } }))
        (5) = true := by
  decide +kernel

theorem wit_cardRetryTimer2 : (fun (s : State) (node : Nat) => decide ((s.chip.cardDie node).notReady = false)) (up []) (5) = true := by
  decide +kernel

theorem wit_cardTimeout : (fun (s : State) (node : Nat) => decide (node < 64 ∧ s.chip.cards = true ∧ s.chip.cardSt node = 1)) (md (up
        [(F.SKN_PRESENT0_NODES, 32), (cp F.GEN_CARD_STATEn_STATE 5, 1)]) (fun c => { c with card := { c.card with active := true } })) (5) = true :=
        by
  decide +kernel

theorem wit_cardTimeout2 : (fun (s : State) (node : Nat) => decide (s.chip.cardSt node ≠ 1)) (up []) (5) = true := by
  decide +kernel

theorem wit_cardKeyTimeout : (fun (s : State) (node : Nat) => decide ((s.chip.cardDie node).waiting = true)) (md (up []) (fun c =>
        { c with card := { c.card with dies := [(5, { waiting := true })] } })) (5) = true := by
  decide +kernel

theorem wit_cardKeyTimeout2 : (fun (s : State) (node : Nat) => decide (node < 64 ∧ s.chip.cards = true ∧ s.chip.cardSt node = 3 ∧ (s.chip.cardDie
        node).waiting = false)) (md (up [(F.SKN_PRESENT0_NODES, 32), (cp F.GEN_CARD_STATEn_STATE 5, 3)]) (fun c =>
        { c with card := { c.card with active := true } })) (5) = true := by
  decide +kernel

theorem wit_cardTakeoverTimer : (fun (s : State) => decide (s.chip.card.noticed = true)) (md (up []) (fun c =>
        { c with card := { c.card with noticed := true } })) = true := by
  decide +kernel

theorem wit_cardTakeoverTimer2 : (fun (s : State) => decide (s.chip.svcUp = true ∧ s.chip.phase = 0x30 ∧ s.chip.pkg ≠ .hx4 ∧ s.chip.get F.GEN_ID_SIDE
        = 1 ∧ s.chip.card.noticed = false ∧ s.chip.card.active = false ∧ s.chip.get F.GEN_BOOT_NO_ID = 0)) (up [(F.GEN_BOOT_PHASE, 0x30),
        (F.GEN_ID_PKG_CLASS, 1), (F.GEN_ID_SIDE, 1)]) = true := by
  decide +kernel

theorem wit_cardNotice : (fun (s : State) (rkey : Nat) (started : Bool) => decide ((started = false ∨ s.chip.linked = false))) (up []) (3) (true) =
        true := by
  decide +kernel

theorem wit_cardNotice2 : (fun (s : State) (rkey : Nat) (started : Bool) => decide (started = true ∧ s.chip.linked = true)) (up [(F.PLY_STATUS_AUTH,
        1)]) (3) (true) = true := by
  decide +kernel

theorem wit_recard : (fun (s : State) (req : Req) (node : Nat) => decide (s.chip.opens req (R.GEN_CARD_STATEn (node % 64)) true = true ∧ classOf req
        = .spindle ∧ s.chip.cardSt (node % 64) = 5)) (up [(F.SKN_PRESENT0_NODES, 32), (cp F.GEN_CARD_STATEn_STATE 5, 5)]) (reqSpindle) (5) = true :=
        by
  decide +kernel

theorem wit_recard2 : (fun (s : State) (req : Req) (node : Nat) => decide (s.chip.opens req (R.GEN_CARD_STATEn (node % 64)) true = true ∧ classOf req
        = .spindle ∧ s.chip.cardSt (node % 64) ≠ 5)) (up []) (reqSpindle) (5) = true := by
  decide +kernel

theorem wit_lockstepMismatch : (fun (s : State) (pc group : Nat) => decide (s.chip.svcUp = false)) (at_ []) (0) (0) = true := by
  decide +kernel

theorem wit_lockstepMismatch2 : (fun (s : State) (pc group : Nat) => decide (s.chip.svcUp = true)) (up []) (0) (1) = true := by
  decide +kernel

theorem wit_spindleSramUncorrectable : (fun (s : State) (addr pc : Nat) => decide (s.chip.svcUp = false)) (at_ []) (0) (0) = true := by
  decide +kernel

theorem wit_spindleSramUncorrectable2 : (fun (s : State) (addr pc : Nat) => decide (s.chip.svcUp = true)) (up []) (8) (0) = true := by
  decide +kernel

theorem wit_spindleWdtExpire : (fun (s : State) (pc : Nat) => decide (s.chip.slot < s.chip.cores.spnKick + s.chip.get F.COR_SPN_WDT_PERIOD)) (up
        [(F.GEN_BOOT_PHASE, 0x20)]) (0) = true := by
  decide +kernel

theorem wit_spindleWdtExpire2 : (fun (s : State) (pc : Nat) => decide (s.chip.svcUp = true ∧ 0x20 ≤ s.chip.phase ∧ s.chip.get F.DBG_STATUS_SPN_HALTED
        = 0 ∧ s.chip.cores.spnKick + s.chip.get F.COR_SPN_WDT_PERIOD ≤ s.chip.slot)) (up [(F.GEN_BOOT_PHASE, 0x20), (F.COR_SPN_WDT_PERIOD, 0)]) (0) =
        true := by
  decide +kernel

theorem wit_spindleWdtKick : (fun (s : State) (req : Req) (value : Word) => decide (s.chip.opens req R.COR_SPN_WDT true = true)) (up []) (reqSpindle)
        (0x80000400#32) = true := by
  decide +kernel

theorem wit_spindleWdtKick2 : (fun (s : State) (req : Req) (value : Word) => decide (s.chip.opens req R.COR_SPN_WDT true = true)) (up [])
        (reqSpindle) (0xFFFFFF#32) = true := by
  decide +kernel

theorem wit_codeWp : (fun (s : State) (req : Req) (value : Word) => decide (s.chip.opens req R.COR_SPN_CTRL true = true ∧ s.chip.get
        F.COR_SPN_CTRL_CODE_WP = 1)) (up [(F.COR_SPN_CTRL_CODE_WP, 1)]) (reqSpindle) (0xFF00#32) = true := by
  decide +kernel

theorem wit_codeWp2 : (fun (s : State) (req : Req) (value : Word) => decide (s.chip.opens req R.COR_SPN_CTRL true = true ∧ s.chip.get
        F.COR_SPN_CTRL_CODE_WP = 0)) (up []) (reqSpindle) (0xFF01#32) = true := by
  decide +kernel

theorem wit_spindleCodeFault : (fun (s : State) (off : Nat) (wr : Bool) => decide (s.chip.get F.COR_SPN_CTRL_CODE_WP = 0)) (up []) (0) (true) = true
        := by
  decide +kernel

theorem wit_spindleCodeFault2 : (fun (s : State) (off : Nat) (wr : Bool) => decide (s.chip.svcUp = true ∧ s.chip.get F.COR_SPN_CTRL_CODE_WP = 1 ∧ (if
        wr = true then off < 4096 * s.chip.get F.COR_SPN_CTRL_CODE_TOP else 4096 * s.chip.get F.COR_SPN_CTRL_CODE_TOP ≤ off))) (up
        [(F.COR_SPN_CTRL_CODE_WP, 1), (F.COR_SPN_CTRL_CODE_TOP, 1)]) (4095) (true) = true := by
  decide +kernel

theorem wit_spindleCodeFault3 : (fun (s : State) (off : Nat) (wr : Bool) => decide (s.chip.svcUp = true ∧ s.chip.get F.COR_SPN_CTRL_CODE_WP = 1 ∧ (if
        wr = true then off < 4096 * s.chip.get F.COR_SPN_CTRL_CODE_TOP else 4096 * s.chip.get F.COR_SPN_CTRL_CODE_TOP ≤ off))) (up
        [(F.COR_SPN_CTRL_CODE_WP, 1), (F.COR_SPN_CTRL_CODE_TOP, 1)]) (4096) (false) = true := by
  decide +kernel

theorem wit_coreAccessFault : (fun (s : State) (req : Req) (addr size : Nat) (wr fetch : Bool) => decide ((s.chip.svcUp = false ∨ classOf req =
        .external ∨ s.chip.coreGranted req addr size wr fetch = true))) (at_ []) (reqSpindle) (0) (4) (true) (false) = true := by
  decide +kernel

theorem wit_coreAccessFault2 : (fun (s : State) (req : Req) (addr size : Nat) (wr fetch : Bool) => decide ((s.chip.svcUp = false ∨ classOf req =
        .external ∨ s.chip.coreGranted req addr size wr fetch = true))) (up []) (reqSpindle) (0) (4) (false) (true) = true := by
  decide +kernel

theorem wit_coreAccessFault3 : (fun (s : State) (req : Req) (addr size : Nat) (wr fetch : Bool) => decide (s.chip.svcUp = true ∧ classOf req ≠
        .external ∧ s.chip.coreGranted req addr size wr fetch = false)) (up []) (reqSpindle) (0) (4) (true) (false) = true := by
  decide +kernel

theorem wit_coreAccessFault4 : (fun (s : State) (req : Req) (addr size : Nat) (wr fetch : Bool) => decide (s.chip.svcUp = true ∧ classOf req ≠
        .external ∧ s.chip.coreGranted req addr size wr fetch = false)) (up []) (0xF0#8) (0x10000000) (4) (false) (true) = true := by
  decide +kernel

theorem wit_sramPatrol : (fun (s : State) (spindle : Bool) (addr errors : Nat) => decide (errors = 0)) (up []) (true) (0) (0) = true := by
  decide +kernel

theorem wit_sramPatrol2 : (fun (s : State) (spindle : Bool) (addr errors : Nat) => decide (s.chip.svcUp = true ∧ spindle = true ∧ addr < 0x100000 ∧ 2
        ≤ errors)) (up []) (true) (0xFFFFF) (2) = true := by
  decide +kernel

theorem wit_sramPatrol3 : (fun (s : State) (spindle : Bool) (addr errors : Nat) => decide (s.chip.svcUp = true ∧ spindle = false ∧ addr < 0x600000 ∧
        2 ≤ errors ∧ s.chip.mem.poison.contains (addr / 8 * 8) = false)) (up []) (false) (0x5FFFFF) (2) = true := by
  decide +kernel

theorem wit_rovingCoreFence : (fun (s : State) (core : Nat) (cause : Nat) => decide (cause ≠ 1 ∧ cause ≠ 3 ∧ cause ≠ 4)) (up []) (0) (2) = true := by
  decide +kernel

theorem wit_rovingCoreFence2 : (fun (s : State) (core : Nat) (cause : Nat) => decide ((cause = 1 ∨ cause = 3 ∨ cause = 4) ∧ core < 6 ∧ s.chip.svcUp =
        true ∧ s.chip.coreSt core = 1 ∧ 3 ≤ s.chip.liveCores.length)) (up [(cp F.COR_CORE_STATUSn_STATE 0, 1), (cp F.COR_CORE_STATUSn_STATE 1, 1),
        (cp F.COR_CORE_STATUSn_STATE 5, 1)]) (5) (4) = true := by
  decide +kernel

theorem wit_rovingWdtExpire : (fun (s : State) (core : Nat) => decide (s.chip.slot < tget s.chip.cores.kicks core 0 + s.chip.get
        F.COR_ROV_WDT_PERIOD)) (up []) (0) = true := by
  decide +kernel

theorem wit_rovingWdtExpire2 : (fun (s : State) (core : Nat) => decide (core < 6 ∧ s.chip.svcUp = true ∧ s.chip.coreHalted core = false ∧
        s.chip.coreSt core = 1 ∧ 3 ≤ s.chip.liveCores.length ∧ tget s.chip.cores.kicks core 0 + s.chip.get F.COR_ROV_WDT_PERIOD ≤ s.chip.slot)) (up
        [(cp F.COR_CORE_STATUSn_STATE 0, 1), (cp F.COR_CORE_STATUSn_STATE 1, 1), (cp F.COR_CORE_STATUSn_STATE 2, 1), (F.COR_ROV_WDT_PERIOD, 0)]) (2)
        = true := by
  decide +kernel

theorem wit_rovingWdtKick : (fun (s : State) (core : Nat) => decide (core < 6 ∧ s.chip.coreFree core = true)) (up [(cp F.COR_CORE_STATUSn_STATE 5,
        1)]) (5) = true := by
  decide +kernel

theorem wit_rovingWdtKick2 : (fun (s : State) (core : Nat) => decide (s.chip.coreFree core = false)) (up []) (0) = true := by
  decide +kernel

theorem wit_coreFence : (fun (s : State) (req : Req) (core : Nat) => decide (6 ≤ core)) (up []) (reqSpindle) (6) = true := by
  decide +kernel

theorem wit_coreFence2 : (fun (s : State) (req : Req) (core : Nat) => decide (core < 6 ∧ s.chip.svcUp = true ∧ s.chip.opens req (R.COR_CORE_CTRLn
        core) true = true ∧ s.chip.coreSt core = 1 ∧ 3 ≤ s.chip.liveCores.length)) (up [(cp F.COR_CORE_STATUSn_STATE 0, 1), (cp
        F.COR_CORE_STATUSn_STATE 1, 1), (cp F.COR_CORE_STATUSn_STATE 2, 4)]) (reqSpindle) (0) = true := by
  decide +kernel

theorem wit_fencingDone : (fun (s : State) (core pc : Nat) => decide (s.chip.coreSt core ≠ 2)) (up []) (0) (0) = true := by
  decide +kernel

theorem wit_fencingDone2 : (fun (s : State) (core pc : Nat) => decide (core < 6 ∧ s.chip.svcUp = true ∧ s.chip.coreSt core = 2)) (up [(cp
        F.COR_CORE_STATUSn_STATE 5, 2)]) (5) (0) = true := by
  decide +kernel

theorem wit_coreRestart : (fun (s : State) (req : Req) (core : Nat) => decide (core < 6 ∧ s.chip.opens req (R.COR_CORE_CTRLn core) true = true ∧
        s.chip.coreSt core = 3)) (up [(cp F.COR_CORE_STATUSn_STATE 5, 3)]) (reqSpindle) (5) = true := by
  decide +kernel

theorem wit_coreRestart2 : (fun (s : State) (req : Req) (core : Nat) => decide (core < 6 ∧ s.chip.opens req (R.COR_CORE_CTRLn core) true = true ∧
        s.chip.coreSt core = 3)) (up [(cp F.COR_CORE_STATUSn_STATE 5, 3), (cp F.COR_CORE_STATUSn_RESTARTS 5, 3)]) (reqSpindle) (5) = true := by
  decide +kernel

theorem wit_coreResetRelease : (fun (s : State) (core : Nat) => decide (core < 6 ∧ s.chip.svcUp = true ∧ s.chip.coreSt core = 4 ∧ s.chip.geti
        F.COR_CORE_STATUSn_RESTARTS core < 3)) (up [(cp F.COR_CORE_STATUSn_STATE 0, 4)]) (0) = true := by
  decide +kernel

theorem wit_coreResetRelease2 : (fun (s : State) (core : Nat) => decide (s.chip.coreSt core ≠ 4)) (up []) (0) = true := by
  decide +kernel

theorem wit_cryptoGroupWake : (fun (s : State) (g : Fin 6) => decide ((s.chip.svcUp = false ∨ g.val = 0))) (at_ []) (1) = true := by
  decide +kernel

theorem wit_cryptoGroupWake2 : (fun (s : State) (g : Fin 6) => decide (s.chip.svcUp = true ∧ g.val ≠ 0 ∧ bit (s.chip.get F.PWR_GRP_CTRL_DISABLE)
        (g.val - 1) = false ∧ s.chip.grp g.val = 0)) (up []) (5) = true := by
  decide +kernel

theorem wit_cryptoGroupReady : (fun (s : State) (g : Fin 6) (bad : List (Nat × Nat)) => decide (s.chip.seq ≠ .active)) (up []) (1) ([]) = true := by
  decide +kernel

theorem wit_cryptoGroupReady2 : (fun (s : State) (g : Fin 6) (bad : List (Nat × Nat)) => decide (s.chip.seq = .active ∧ g.val ≠ 0 ∧ s.chip.grp g.val
        = 1 ∧ bad = [] ∧ s.chip.cry.ch = [] ∧ s.chip.cust.waitGrp = [])) (at_ [(F.PWR_STATUS_SEQ_STATE, 3), (F.PWR_GRP_STATUS_STATE, 0x400)]) (5)
        ([]) = true := by
  decide +kernel

theorem wit_cryptoGroupReady3 : (fun (s : State) (g : Fin 6) (bad : List (Nat × Nat)) => decide (s.chip.seq = .active ∧ g.val = 0)) (at_
        [(F.PWR_STATUS_SEQ_STATE, 3)]) (0) ([]) = true := by
  decide +kernel

theorem wit_cryptoPllTimeout : (fun (s : State) => decide (s.chip.get F.PWR_STATUS_CRY_PLL_LOCK = 1)) (at_ [(F.PWR_STATUS_SEQ_STATE, 3),
        (F.PWR_STATUS_CRY_PLL_LOCK, 1)]) = true := by
  decide +kernel

theorem wit_cryptoPllTimeout2 : (fun (s : State) => decide (s.chip.seq = .active ∧ s.chip.get F.PWR_STATUS_CRY_PLL_LOCK = 0 ∧ s.chip.pwr.cryTries =
        0)) (at_ [(F.PWR_STATUS_SEQ_STATE, 3)]) = true := by
  decide +kernel

theorem wit_cryptoPllTimeout3 : (fun (s : State) => decide (s.chip.seq = .active ∧ s.chip.get F.PWR_STATUS_CRY_PLL_LOCK = 0 ∧ s.chip.pwr.cryTries ≠
        0)) (md (at_ [(F.PWR_STATUS_SEQ_STATE, 3)]) (fun c => { c with pwr := { c.pwr with cryTries := 1 } })) = true := by
  decide +kernel

theorem wit_groupIdlePowerOff : (fun (s : State) (g : Fin 6) => decide (s.chip.grp g.val ≠ 2)) (up []) (1) = true := by
  decide +kernel

theorem wit_groupIdlePowerOff2 : (fun (s : State) (g : Fin 6) => decide (g.val ≠ 0 ∧ s.chip.grp g.val = 2 ∧ s.chip.get F.PWR_CTRL_AUTO_GATE = 1 ∧
        s.chip.idleFor g.val (s.chip.get F.PWR_IDLE_CFG_IDLE_SLOTS) = true ∧ s.chip.groupBusy g.val = false ∧ s.chip.groupKept g.val = false)) (md
        (at_ [(F.PWR_STATUS_SEQ_STATE, 3), (F.PWR_GRP_STATUS_STATE, 8), (F.PWR_CTRL_AUTO_GATE, 1)]) (fun c =>
        { c with time := 2 ^ 40, pwr := { c.pwr with idle := [(1, 0)] } })) (1) = true := by
  decide +kernel

theorem wit_groupIdlePowerOff3 : (fun (s : State) (g : Fin 6) => decide (g.val ≠ 0 ∧ s.chip.grp g.val = 2 ∧ bit (s.chip.get F.PWR_GRP_CTRL_DISABLE)
        (g.val - 1) = true ∧ s.chip.groupBusy g.val = false ∧ s.chip.groupKept g.val = false)) (at_ [(F.PWR_STATUS_SEQ_STATE, 3),
        (F.PWR_GRP_STATUS_STATE, 8), (F.PWR_GRP_CTRL_DISABLE, 1)]) (1) = true := by
  decide +kernel

theorem wit_cryptoPllHoldExpire : (fun (s : State) => decide (s.chip.get F.PWR_CTRL_PLL_KEEP = 1)) (at_ [(F.PWR_STATUS_SEQ_STATE, 3),
        (F.PWR_CTRL_PLL_KEEP, 1)]) = true := by
  decide +kernel

theorem wit_cryptoPllHoldExpire2 : (fun (s : State) => decide (s.chip.seq = .active ∧ s.chip.get F.PWR_CTRL_PLL_KEEP = 0 ∧ [1, 2, 3, 4, 5].any (fun g
        => s.chip.grp g == 1 || s.chip.grp g == 2) = false ∧ s.chip.idleFor 0 (s.chip.get F.PWR_IDLE_CFG_PLL_HOLD) = true)) (md (at_
        [(F.PWR_STATUS_SEQ_STATE, 3), (F.PWR_STATUS_CRY_PLL_LOCK, 1)]) (fun c => { c with time := 2 ^ 40, pwr := { c.pwr with idle := [(0, 0)] } }))
        = true := by
  decide +kernel

theorem wit_pwrForceOn : (fun (s : State) (req : Req) (mask : BitVec 5) => decide (s.chip.opens req R.PWR_GRP_CTRL true = true)) (up []) (reqSpindle)
        (0x1F#5) = true := by
  decide +kernel

theorem wit_mbLockRead : (fun (s : State) (req : Req) (ns : Bool) (n : Nat) => decide (s.chip.opens req (mbLockOff ns n) false = true ∧ n < 16 ∧
        s.chip.mbSt ns n = 0 ∧ mbEligible req ns n = true)) (up []) (0xF0#8) (false) (15) = true := by
  decide +kernel

theorem wit_mbLockRead2 : (fun (s : State) (req : Req) (ns : Bool) (n : Nat) => decide (s.chip.opens req (mbLockOff ns n) false = true ∧ n < 16 ∧
        s.chip.mbSt ns n = 0 ∧ mbEligible req ns n = true)) (up []) (1#8) (true) (0) = true := by
  decide +kernel

theorem wit_mbLockRead3 : (fun (s : State) (req : Req) (ns : Bool) (n : Nat) => decide (s.chip.opens req (mbLockOff ns n) false = true ∧ (s.chip.mbSt
        ns n ≠ 0 ∨ mbEligible req ns n = false))) (up []) (0xF0#8) (false) (0) = true := by
  decide +kernel

theorem wit_mbDataWrite : (fun (s : State) (req : Req) (ns : Bool) (n word : Nat) (value : Word) => decide (s.chip.opens req (mbBase ns n + 4 * (word
        % 16)) true = true ∧ n < 16 ∧ s.chip.mbTurn req ns n = true)) (up [(cp F.MBS_STATUSn_STATE 15, 1), (cp F.MBS_STATUSn_OWNER 15, 0xF5)])
        (0xF5#8) (false) (15) (15) (0xFFFFFFFF#32) = true := by
  decide +kernel

theorem wit_mbDataWrite2 : (fun (s : State) (req : Req) (ns : Bool) (n word : Nat) (value : Word) => decide (s.chip.opens req (mbBase ns n + 4 *
        (word % 16)) true = true ∧ n < 16 ∧ s.chip.mbTurn req ns n = false)) (up []) (0xF5#8) (false) (15) (15) (0xFFFFFFFF#32) = true := by
  decide +kernel

theorem wit_mbGo : (fun (s : State) (req : Req) (ns : Bool) (n words : Nat) => decide (s.chip.opens req (mbBase ns n + 0x40) true = true ∧ n < 16 ∧
        ns = true ∧ s.chip.mbTurn req ns n = true ∧ s.chip.mbSt ns n ≠ 2 ∧ 1 ≤ words ∧ words ≤ 16)) (up [(mbF true (cp F.MBS_STATUSn_STATE 15), 1),
        (mbF true (cp F.MBS_STATUSn_OWNER 15), 1)]) (1#8) (true) (15) (16) = true := by
  decide +kernel

theorem wit_mbGo2 : (fun (s : State) (req : Req) (ns : Bool) (n words : Nat) => decide (s.chip.opens req (mbBase ns n + 0x40) true = true ∧ n < 16 ∧
        s.chip.mbTurn req ns n = true ∧ s.chip.mbSt ns n = 2 ∧ req.toNat ≠ s.chip.mbOwner ns n ∧ 1 ≤ words ∧ words ≤ 16)) (up [(cp
        F.MBS_STATUSn_STATE 0, 2), (cp F.MBS_STATUSn_OWNER 0, 0xF0)]) (reqSpindle) (false) (0) (1) = true := by
  decide +kernel

theorem wit_mbGo3 : (fun (s : State) (req : Req) (ns : Bool) (n words : Nat) => decide (s.chip.opens req (mbBase ns n + 0x40) true = true ∧ n < 16 ∧
        s.chip.mbTurn req ns n = true ∧ (words = 0 ∨ 16 < words))) (up [(cp F.MBS_STATUSn_STATE 0, 2), (cp F.MBS_STATUSn_OWNER 0, 0xF0)])
        (reqSpindle) (false) (0) (17) = true := by
  decide +kernel

theorem wit_mbRelease : (fun (s : State) (req : Req) (ns : Bool) (n : Nat) => decide (s.chip.opens req (mbLockOff ns n) true = true ∧ n < 16 ∧
        mbFixed ns n = false ∧ (s.chip.mbSt ns n = 1 ∨ s.chip.mbSt ns n = 3) ∧ req.toNat = s.chip.mbOwner ns n)) (up [(cp F.MBS_STATUSn_STATE 12, 1),
        (cp F.MBS_STATUSn_OWNER 12, 0xF0)]) (0xF0#8) (false) (12) = true := by
  decide +kernel

theorem wit_mbRelease2 : (fun (s : State) (req : Req) (ns : Bool) (n : Nat) => decide (s.chip.opens req (mbLockOff ns n) true = true ∧ n < 16 ∧
        mbFixed ns n = false ∧ s.chip.mbSt ns n = 2 ∧ req.toNat = s.chip.mbOwner ns n)) (up [(cp F.MBS_STATUSn_STATE 12, 2), (cp F.MBS_STATUSn_OWNER
        12, 0xF0)]) (0xF0#8) (false) (12) = true := by
  decide +kernel

theorem wit_mbRelease3 : (fun (s : State) (req : Req) (ns : Bool) (n : Nat) => decide (s.chip.opens req (mbLockOff ns n) true = true ∧ mbFixed ns n =
        true)) (up []) (reqSpindle) (false) (11) = true := by
  decide +kernel

theorem wit_mbForce : (fun (s : State) (req : Req) (ns : Bool) (n : Nat) => decide (s.chip.opens req (mbLockOff ns n) true = true ∧ n < 16 ∧ mbFixed
        ns n = false ∧ s.chip.mbSt ns n = 2 ∧ req.toNat = s.chip.mbReceiver ns n)) (up [(cp F.MBS_STATUSn_STATE 12, 2), (cp F.MBS_STATUSn_OWNER 12,
        0xF0)]) (reqSpindle) (false) (12) = true := by
  decide +kernel

theorem wit_mbLockTimeout : (fun (s : State) (ns : Bool) (n : Nat) => decide (s.chip.svcUp = true ∧ n < 16 ∧ mbFixed ns n = false ∧ (s.chip.mbSt ns n
        = 1 ∨ s.chip.mbSt ns n = 3) ∧ s.chip.mbStale ns n = true)) (md (up [(cp F.MBS_STATUSn_STATE 12, 1), (cp F.MBS_STATUSn_OWNER 12, 0xF0)]) (fun
        c => { c with time := 2 ^ 40 })) (false) (12) = true := by
  decide +kernel

theorem wit_mbLockTimeout2 : (fun (s : State) (ns : Bool) (n : Nat) => decide (s.chip.svcUp = true ∧ s.chip.mbStale ns n = false)) (up
        [(F.MBS_CTRL_LOCK_TIMEOUT, 1024)]) (false) (12) = true := by
  decide +kernel

theorem wit_mbLockTimeout3 : (fun (s : State) (ns : Bool) (n : Nat) => decide (s.chip.mbSt ns n = 2)) (up [(cp F.MBS_STATUSn_STATE 12, 2), (cp
        F.MBS_STATUSn_OWNER 12, 0xF0)]) (false) (12) = true := by
  decide +kernel

theorem wit_coreHello : (fun (s : State) (n : Nat) => decide (s.chip.callAt n = none)) (up []) (0) = true := by
  decide +kernel

theorem wit_coreHello2 : (fun (s : State) (n : Nat) => decide (s.chip.callReady n 0x0001 = true)) (callIn 1 0 [] (up [])) (0) = true := by
  decide +kernel

theorem wit_serviceCallComplete : (fun (s : State) (core : Nat) => decide (tget s.chip.cores.notices core [] = [])) (up []) (0) = true := by
  decide +kernel

theorem wit_serviceCallComplete2 : (fun (s : State) (core : Nat) => decide (s.chip.svcUp = true ∧ core < 6 ∧ s.chip.mbSt false (6 + core) ≠ 2 ∧ tget
        s.chip.cores.notices core [] = [⟨0x0061, 7, 0, 1, 0⟩])) (md (up []) (fun c =>
        { c with cores := { c.cores with notices := [(5, [⟨0x0061, 7, 0, 1, 0⟩])] } })) (5) = true := by
  decide +kernel

theorem wit_registerWrite : (fun (s : State) (req : Req) (off : Nat) (value : Word) => decide ((off % 4 ≠ 0 ∨ 0x60000 ≤ off))) (up []) (reqSpindle)
        (2) (0#32) = true := by
  decide +kernel

theorem wit_registerWrite2 : (fun (s : State) (req : Req) (off : Nat) (value : Word) => decide ((off % 4 ≠ 0 ∨ 0x60000 ≤ off))) (up []) (reqSpindle)
        (0x60000) (0#32) = true := by
  decide +kernel

theorem wit_registerWrite3 : (fun (s : State) (req : Req) (off : Nat) (value : Word) => decide (off % 4 = 0 ∧ off < 0x60000 ∧ badReq req = false ∧
        s.chip.powered off = true ∧ s.chip.granted req off true = false)) (up []) (0xF0#8) (0x2000) (0#32) = true := by
  decide +kernel

theorem wit_registerWrite4 : (fun (s : State) (req : Req) (off : Nat) (value : Word) => decide (off = R.PWR_WAKE_TIME_HI ∧ s.chip.opens req off true
        = true)) (up []) (reqSpindle) (R.PWR_WAKE_TIME_HI) (0xFFFFFFFF#32) = true := by
  decide +kernel

theorem wit_eventsDrain : (fun (s : State) (n : Nat) => decide (s.chip.callAt n = none)) (up []) (0) = true := by
  decide +kernel

theorem wit_eventsDrain2 : (fun (s : State) (n : Nat) => decide (s.chip.callReady n 0x0003 = true ∧ s.chip.hanks.tab = [])) (md (callIn 3 64 [2] (up
        [])) (fun c => { c with logs := { c.logs with svc := [⟨0, 0, 1, []⟩, ⟨0, 0, 2, []⟩, ⟨0, 0, 3, []⟩] } })) (0) = true := by
  decide +kernel

theorem wit_eventsDrain3 : (fun (s : State) (n : Nat) => decide (s.chip.callReady n 0x0003 = true ∧ s.chip.hanks.tab ≠ [] ∧ s.chip.get
        F.DBG_CTRL_TRACE_ROV = 0)) (md (callIn 3 0 [2] (up [])) (fun c => { c with hanks := { c.hanks with tab := [(0, hank0)] } })) (0) = true := by
  decide +kernel

theorem wit_grant : (fun (s : State) (n : Nat) => decide (s.chip.callReady n 0x0050 = true ∧ (s.chip.callAt n).map (fun k => (numAt k.args 0 4, numAt
        k.args 4 4)) = some (0, 1) ∧ s.chip.grantable 0 8 = true ∧ s.chip.mbOwner false n = 0xF0)) (callIn 0x50 0 [0, 1] (up [])) (0) = true := by
  decide +kernel

theorem wit_grant2 : (fun (s : State) (n : Nat) => decide (s.chip.callReady n 0x0050 = true ∧ (s.chip.callAt n).map (fun k => (numAt k.args 0 4,
        numAt k.args 4 4)) = some (0, 45))) (callIn 0x50 0 [0, 45] (up [])) (0) = true := by
  decide +kernel

theorem wit_release : (fun (s : State) (n : Nat) => decide (s.chip.callReady n 0x0051 = true ∧ (s.chip.callAt n).map (fun k => k.args.take 3) = some
        [0#8, 1#8, 8#8] ∧ s.chip.mbOwner false n = 0xF0 ∧ s.chip.geti F.DMA_CHn_CFG_OWNER 8 = 0xF0 ∧ s.chip.dmSt 8 = dIdle)) (md (callIn 0x51 0
        [0x80100] (up [(cp F.DMA_CHn_STATUS_STATE 8, 1)])) (fun c => c.puti F.DMA_CHn_CFG_OWNER 8 0xF0)) (0) = true := by
  decide +kernel

theorem wit_release2 : (fun (s : State) (n : Nat) => decide (s.chip.callReady n 0x0051 = true ∧ (s.chip.callAt n).map (fun k => k.args.take 3) = some
        [0#8, 1#8, 8#8] ∧ s.chip.mbOwner false n = 0xF0 ∧ s.chip.geti F.DMA_CHn_CFG_OWNER 8 = 0)) (callIn 0x51 0 [0x80100] (up [])) (0) = true := by
  decide +kernel

theorem wit_sleepRequest : (fun (s : State) (n : Nat) => decide (s.chip.callReady n 0x0060 = true ∧ s.chip.hanks.tab ≠ [])) (md (callIn 0x60 0 [] (up
        [])) (fun c => { c with hanks := { c.hanks with tab := [(0, hank0)] } })) (0) = true := by
  decide +kernel

theorem wit_sleepRequest2 : (fun (s : State) (n : Nat) => decide (s.chip.callReady n 0x0060 = true ∧ s.chip.hanks.tab = [] ∧ s.chip.pkg = .hx4 ∧
        s.chip.sleepBar = none)) (callIn 0x60 0 [] (up [])) (0) = true := by
  decide +kernel

theorem wit_sleepRequest3 : (fun (s : State) (n : Nat) => decide (s.chip.callReady n 0x0060 = true ∧ s.chip.hanks.tab = [] ∧ s.chip.pkg = .hx4 ∧
        s.chip.sleepBar.isSome = true)) (callIn 0x60 0 [] (up [(F.WHL_Ln_STATE_STATE, 1)])) (0) = true := by
  decide +kernel

theorem wit_lcRequest : (fun (s : State) (n : Nat) (genuine : Bool) => decide (s.chip.callReady n 0x0061 = true ∧ s.chip.hanks.tab ≠ [])) (md (callIn
        0x61 0 [] (up [])) (fun c => { c with hanks := { c.hanks with tab := [(0, hank0)] } })) (0) (true) = true := by
  decide +kernel

theorem wit_lcRequest2 : (fun (s : State) (n : Nat) (genuine : Bool) => decide (s.chip.callReady n 0x0061 = true ∧ s.chip.hanks.tab = [] ∧ s.chip.get
        F.PLY_STATUS_LEASE = 0 ∧ (s.chip.callAt n).map (fun k => numAt k.args 0 1) = some 2 ∧ s.chip.lcState = 1 ∧ s.chip.lcs.record = none ∧
        s.chip.lcs.used < 31 ∧ s.chip.otp.busy = false ∧ s.chip.get F.LCS_STATUS_BUSY = 0 ∧ s.chip.get F.PWR_STATUS_VIN_FUSE_OK = 1 ∧
        s.chip.cores.pend = [])) (callIn 0x61 0 [2] (up [(F.LCS_STATE_CURRENT, 1), (F.PWR_STATUS_VIN_FUSE_OK, 1)])) (0) (false) = true := by
  decide +kernel

theorem wit_cryChTailWrite : (fun (s : State) (req : Req) (n : BitVec 5) (idx : BitVec 8) => decide (s.chip.opens req (R.CRY_CHn_TAIL n.toNat) true =
        true ∧ cryOps.contains (s.chip.chRead n.toNat).op = true)) (putC 31 { op := 0x60 } (up [(cp F.CRY_CHn_CFG_LOG2 31, 3)])) (reqSpindle) (31)
        (7) = true := by
  decide +kernel

theorem wit_cryChTailWrite2 : (fun (s : State) (req : Req) (n : BitVec 5) (idx : BitVec 8) => decide (s.chip.opens req (R.CRY_CHn_TAIL n.toNat) true
        = true ∧ cryOps.contains (s.chip.chRead n.toNat).op = true)) (putC 31 { op := 0x60 } (up [(cp F.CRY_CHn_CFG_LOG2 31, 3)])) (reqSpindle) (31)
        (8) = true := by
  decide +kernel

theorem wit_cryptoOpComplete : (fun (s : State) (n : BitVec 5) (idx : BitVec 8) (iter : Nat) => decide ((s.chip.ch n.toNat).fl = [])) (up []) (0) (0)
        (0) = true := by
  decide +kernel

theorem wit_cryptoOpComplete2 : (fun (s : State) (n : BitVec 5) (idx : BitVec 8) (iter : Nat) => decide ((s.chip.ch n.toNat).fl =
        [{ idx := 0, desc := { op := 0x60 }, started := true, lane := some 0 }] ∧ idx = 0)) (md (up []) (fun c =>
        { c with cry := { c.cry with ch := [(5, { fl := [{ idx := 0, desc := { op := 0x60 }, started := true, lane := some 0 }] })] } })) (5) (0) (0)
        = true := by
  decide +kernel

theorem wit_mldsaKeygen : (fun (s : State) (n : BitVec 5) => decide (s.chip.geti F.CRY_CHn_CFG_EN n.toNat = 0)) (up []) (3) = true := by
  decide +kernel

theorem wit_mldsaKeygen2 : (fun (s : State) (n : BitVec 5) => decide (s.chip.cryOffered n.toNat 0x10 = true ∧ s.chip.cryChecks n.toNat = true ∧
        s.chip.cryReady 0x10 = false)) (putC 3 { op := 0x10, inOff := 0, auxOff := 0x8000, outOff := 0x10000, outLen := 1952 } (md (up [(cp
        F.CRY_CHn_CFG_EN 3, 1), (cp F.CRY_CHn_CFG_OWNER 3, 0xFF), (cp F.CRY_CHn_CFG_LOG2 3, 1), (cp F.CRY_CHn_TAIL_IDX 3, 1)]) (fun c =>
        { c with cry := { c.cry with ch := [(3, { keys := [] })] }, boot := { c.boot with alias_ := some ([1#8], [2#8]) } }))) (3) = true := by
  decide +kernel

theorem wit_mldsaKeygen3 : (fun (s : State) (n : BitVec 5) => decide (s.chip.cryOffered n.toNat 0x10 = true ∧ s.chip.cryChecks n.toNat = true ∧
        s.chip.cryReady 0x10 = true ∧ s.chip.cryAlone n.toNat 0x10 = true ∧ s.chip.cryKeyed n.toNat = true)) (putC 3
        { op := 0x10, inOff := 0, auxOff := 0x8000, outOff := 0x10000, outLen := 1952 } (md (up [(cp F.CRY_CHn_CFG_EN 3, 1), (cp F.CRY_CHn_CFG_OWNER
        3, 0xFF), (cp F.CRY_CHn_CFG_LOG2 3, 1), (cp F.CRY_CHn_TAIL_IDX 3, 1), (F.PWR_GRP_STATUS_STATE, 512)]) (fun c =>
        { c with cry := { c.cry with ch := [(3, { keys := [(0, ⟨3, false, []⟩)] })] }, boot := { c.boot with alias_ := some ([1#8], [2#8]) } }))) (3)
        = true := by
  decide +kernel

theorem wit_mldsaSign : (fun (s : State) (n : BitVec 5) => decide (s.chip.geti F.CRY_CHn_CFG_EN n.toNat = 0)) (up []) (3) = true := by
  decide +kernel

theorem wit_mldsaSign2 : (fun (s : State) (n : BitVec 5) => decide (s.chip.cryOffered n.toNat 0x11 = true ∧ s.chip.cryChecks n.toNat = true ∧
        s.chip.cryReady 0x11 = false)) (putC 3 { op := 0x11, inOff := 0, auxOff := 0x8000, outOff := 0x10000, outLen := 3309 } (md (up [(cp
        F.CRY_CHn_CFG_EN 3, 1), (cp F.CRY_CHn_CFG_OWNER 3, 0xFF), (cp F.CRY_CHn_CFG_LOG2 3, 1), (cp F.CRY_CHn_TAIL_IDX 3, 1)]) (fun c =>
        { c with cry := { c.cry with ch := [(3, { keys := [] })] }, boot := { c.boot with alias_ := some ([1#8], [2#8]) } }))) (3) = true := by
  decide +kernel

theorem wit_mldsaSign3 : (fun (s : State) (n : BitVec 5) => decide (s.chip.cryOffered n.toNat 0x11 = true ∧ s.chip.cryChecks n.toNat = true ∧
        s.chip.cryReady 0x11 = true ∧ s.chip.cryAlone n.toNat 0x11 = true ∧ s.chip.cryKeyed n.toNat = true ∧ s.chip.get F.CRY_DRBG_STATUS_ERROR = 0 ∧
        s.chip.entNone = false)) (putC 3 { op := 0x11, inOff := 0, auxOff := 0x8000, outOff := 0x10000, outLen := 3309 } (md (up [(cp
        F.CRY_CHn_CFG_EN 3, 1), (cp F.CRY_CHn_CFG_OWNER 3, 0xFF), (cp F.CRY_CHn_CFG_LOG2 3, 1), (cp F.CRY_CHn_TAIL_IDX 3, 1),
        (F.PWR_GRP_STATUS_STATE, 512)]) (fun c => { c with cry := { c.cry with ch := [(3, { keys := [(0, ⟨3, false, []⟩)] })] }, boot := { c.boot with alias_ := some ([1#8], [2#8]) } })))
        (3) = true := by
  decide +kernel

theorem wit_mldsaVerify : (fun (s : State) (n : BitVec 5) => decide (s.chip.geti F.CRY_CHn_CFG_EN n.toNat = 0)) (up []) (3) = true := by
  decide +kernel

theorem wit_mldsaVerify2 : (fun (s : State) (n : BitVec 5) => decide (s.chip.cryOffered n.toNat 0x12 = true ∧ s.chip.cryChecks n.toNat = true ∧
        s.chip.cryReady 0x12 = false)) (putC 3 { op := 0x12, inOff := 0, auxOff := 0x8000, outOff := 0x10000, auxLen := 5261 } (md (up [(cp
        F.CRY_CHn_CFG_EN 3, 1), (cp F.CRY_CHn_CFG_OWNER 3, 0xFF), (cp F.CRY_CHn_CFG_LOG2 3, 1), (cp F.CRY_CHn_TAIL_IDX 3, 1)]) (fun c =>
        { c with cry := { c.cry with ch := [(3, { keys := [] })] }, boot := { c.boot with alias_ := some ([1#8], [2#8]) } }))) (3) = true := by
  decide +kernel

theorem wit_mldsaVerify3 : (fun (s : State) (n : BitVec 5) => decide (s.chip.cryOffered n.toNat 0x12 = true ∧ s.chip.cryChecks n.toNat = true ∧
        s.chip.cryReady 0x12 = true ∧ s.chip.cryAlone n.toNat 0x12 = true)) (putC 3
        { op := 0x12, inOff := 0, auxOff := 0x8000, outOff := 0x10000, auxLen := 5261 } (md (up [(cp F.CRY_CHn_CFG_EN 3, 1), (cp F.CRY_CHn_CFG_OWNER
        3, 0xFF), (cp F.CRY_CHn_CFG_LOG2 3, 1), (cp F.CRY_CHn_TAIL_IDX 3, 1), (F.PWR_GRP_STATUS_STATE, 512)]) (fun c =>
        { c with cry := { c.cry with ch := [(3, { keys := [] })] }, boot := { c.boot with alias_ := some ([1#8], [2#8]) } }))) (3) = true := by
  decide +kernel

theorem wit_mlkemKeygen : (fun (s : State) (n : BitVec 5) => decide (s.chip.geti F.CRY_CHn_CFG_EN n.toNat = 0)) (up []) (3) = true := by
  decide +kernel

theorem wit_mlkemKeygen2 : (fun (s : State) (n : BitVec 5) => decide (s.chip.cryOffered n.toNat 0x18 = true ∧ s.chip.cryChecks n.toNat = true ∧
        s.chip.cryReady 0x18 = false)) (putC 3 { op := 0x18, inOff := 0, auxOff := 0x8000, outOff := 0x10000, outLen := 1568 } (md (up [(cp
        F.CRY_CHn_CFG_EN 3, 1), (cp F.CRY_CHn_CFG_OWNER 3, 0xFF), (cp F.CRY_CHn_CFG_LOG2 3, 1), (cp F.CRY_CHn_TAIL_IDX 3, 1)]) (fun c =>
        { c with cry := { c.cry with ch := [(3, { keys := [] })] }, boot := { c.boot with alias_ := some ([1#8], [2#8]) } }))) (3) = true := by
  decide +kernel

theorem wit_mlkemKeygen3 : (fun (s : State) (n : BitVec 5) => decide (s.chip.cryOffered n.toNat 0x18 = true ∧ s.chip.cryChecks n.toNat = true ∧
        s.chip.cryReady 0x18 = true ∧ s.chip.cryAlone n.toNat 0x18 = true ∧ s.chip.cryKeyed n.toNat = true)) (putC 3
        { op := 0x18, inOff := 0, auxOff := 0x8000, outOff := 0x10000, outLen := 1568 } (md (up [(cp F.CRY_CHn_CFG_EN 3, 1), (cp F.CRY_CHn_CFG_OWNER
        3, 0xFF), (cp F.CRY_CHn_CFG_LOG2 3, 1), (cp F.CRY_CHn_TAIL_IDX 3, 1), (F.PWR_GRP_STATUS_STATE, 512)]) (fun c =>
        { c with cry := { c.cry with ch := [(3, { keys := [(0, ⟨4, false, []⟩)] })] }, boot := { c.boot with alias_ := some ([1#8], [2#8]) } }))) (3)
        = true := by
  decide +kernel

theorem wit_mlkemEncaps : (fun (s : State) (n : BitVec 5) => decide (s.chip.geti F.CRY_CHn_CFG_EN n.toNat = 0)) (up []) (3) = true := by
  decide +kernel

theorem wit_mlkemEncaps2 : (fun (s : State) (n : BitVec 5) => decide (s.chip.cryOffered n.toNat 0x19 = true ∧ s.chip.cryChecks n.toNat = true ∧
        s.chip.cryReady 0x19 = false)) (putC 3 { op := 0x19, inOff := 0, auxOff := 0x8000, outOff := 0x10000, auxLen := 1568, outLen := 1568 } (md
        (up [(cp F.CRY_CHn_CFG_EN 3, 1), (cp F.CRY_CHn_CFG_OWNER 3, 0xFF), (cp F.CRY_CHn_CFG_LOG2 3, 1), (cp F.CRY_CHn_TAIL_IDX 3, 1)]) (fun c =>
        { c with cry := { c.cry with ch := [(3, { keys := [] })] }, boot := { c.boot with alias_ := some ([1#8], [2#8]) } }))) (3) = true := by
  decide +kernel

theorem wit_mlkemEncaps3 : (fun (s : State) (n : BitVec 5) => decide (s.chip.cryOffered n.toNat 0x19 = true ∧ s.chip.cryChecks n.toNat = true ∧
        s.chip.cryReady 0x19 = true ∧ s.chip.cryAlone n.toNat 0x19 = true ∧ s.chip.get F.CRY_DRBG_STATUS_ERROR = 0 ∧ s.chip.entNone = false)) (putC 3
        { op := 0x19, inOff := 0, auxOff := 0x8000, outOff := 0x10000, auxLen := 1568, outLen := 1568 } (md (up [(cp F.CRY_CHn_CFG_EN 3, 1), (cp
        F.CRY_CHn_CFG_OWNER 3, 0xFF), (cp F.CRY_CHn_CFG_LOG2 3, 1), (cp F.CRY_CHn_TAIL_IDX 3, 1), (F.PWR_GRP_STATUS_STATE, 512)]) (fun c =>
        { c with cry := { c.cry with ch := [(3, { keys := [] })] }, boot := { c.boot with alias_ := some ([1#8], [2#8]) } }))) (3) = true := by
  decide +kernel

theorem wit_mlkemDecaps : (fun (s : State) (n : BitVec 5) => decide (s.chip.geti F.CRY_CHn_CFG_EN n.toNat = 0)) (up []) (3) = true := by
  decide +kernel

theorem wit_mlkemDecaps2 : (fun (s : State) (n : BitVec 5) => decide (s.chip.cryOffered n.toNat 0x1A = true ∧ s.chip.cryChecks n.toNat = true ∧
        s.chip.cryReady 0x1A = false)) (putC 3 { op := 0x1A, inOff := 0, auxOff := 0x8000, outOff := 0x10000, inLen := 1568 } (md (up [(cp
        F.CRY_CHn_CFG_EN 3, 1), (cp F.CRY_CHn_CFG_OWNER 3, 0xFF), (cp F.CRY_CHn_CFG_LOG2 3, 1), (cp F.CRY_CHn_TAIL_IDX 3, 1)]) (fun c =>
        { c with cry := { c.cry with ch := [(3, { keys := [] })] }, boot := { c.boot with alias_ := some ([1#8], [2#8]) } }))) (3) = true := by
  decide +kernel

theorem wit_mlkemDecaps3 : (fun (s : State) (n : BitVec 5) => decide (s.chip.cryOffered n.toNat 0x1A = true ∧ s.chip.cryChecks n.toNat = true ∧
        s.chip.cryReady 0x1A = true ∧ s.chip.cryAlone n.toNat 0x1A = true ∧ s.chip.cryKeyed n.toNat = true)) (putC 3
        { op := 0x1A, inOff := 0, auxOff := 0x8000, outOff := 0x10000, inLen := 1568 } (md (up [(cp F.CRY_CHn_CFG_EN 3, 1), (cp F.CRY_CHn_CFG_OWNER
        3, 0xFF), (cp F.CRY_CHn_CFG_LOG2 3, 1), (cp F.CRY_CHn_TAIL_IDX 3, 1), (F.PWR_GRP_STATUS_STATE, 512)]) (fun c =>
        { c with cry := { c.cry with ch := [(3, { keys := [(0, ⟨4, false, []⟩)] })] }, boot := { c.boot with alias_ := some ([1#8], [2#8]) } }))) (3)
        = true := by
  decide +kernel

theorem wit_ntt : (fun (s : State) (n : BitVec 5) (which : Fin 3) => decide (s.chip.geti F.CRY_CHn_CFG_EN n.toNat = 0)) (up []) (3) (1) = true := by
  decide +kernel

theorem wit_ntt2 : (fun (s : State) (n : BitVec 5) (which : Fin 3) => decide (s.chip.cryOffered n.toNat (0x1C + which.val) = true ∧ s.chip.cryChecks
        n.toNat = true ∧ s.chip.cryReady (0x1C + which.val) = false)) (putC 3
        { op := 0x1D, inOff := 0, auxOff := 0x8000, outOff := 0x10000, inLen := 1024, outLen := 1024 } (md (up [(cp F.CRY_CHn_CFG_EN 3, 1), (cp
        F.CRY_CHn_CFG_OWNER 3, 0xFF), (cp F.CRY_CHn_CFG_LOG2 3, 1), (cp F.CRY_CHn_TAIL_IDX 3, 1)]) (fun c =>
        { c with cry := { c.cry with ch := [(3, { keys := [] })] }, boot := { c.boot with alias_ := some ([1#8], [2#8]) } }))) (3) (1) = true := by
  decide +kernel

theorem wit_ntt3 : (fun (s : State) (n : BitVec 5) (which : Fin 3) => decide (s.chip.cryOffered n.toNat (0x1C + which.val) = true ∧ s.chip.cryChecks
        n.toNat = true ∧ s.chip.cryReady (0x1C + which.val) = true ∧ s.chip.cryAlone n.toNat (0x1C + which.val) = true)) (putC 3
        { op := 0x1D, inOff := 0, auxOff := 0x8000, outOff := 0x10000, inLen := 1024, outLen := 1024 } (md (up [(cp F.CRY_CHn_CFG_EN 3, 1), (cp
        F.CRY_CHn_CFG_OWNER 3, 0xFF), (cp F.CRY_CHn_CFG_LOG2 3, 1), (cp F.CRY_CHn_TAIL_IDX 3, 1), (F.PWR_GRP_STATUS_STATE, 512)]) (fun c =>
        { c with cry := { c.cry with ch := [(3, { keys := [] })] }, boot := { c.boot with alias_ := some ([1#8], [2#8]) } }))) (3) (1) = true := by
  decide +kernel

theorem wit_eccKeygen : (fun (s : State) (n : BitVec 5) => decide (s.chip.geti F.CRY_CHn_CFG_EN n.toNat = 0)) (up []) (3) = true := by
  decide +kernel

theorem wit_eccKeygen2 : (fun (s : State) (n : BitVec 5) => decide (s.chip.cryOffered n.toNat 0x20 = true ∧ s.chip.cryChecks n.toNat = true ∧
        s.chip.cryReady 0x20 = false)) (putC 3 { op := 0x20, inOff := 0, auxOff := 0x8000, outOff := 0x10000, outLen := 97 } (md (up [(cp
        F.CRY_CHn_CFG_EN 3, 1), (cp F.CRY_CHn_CFG_OWNER 3, 0xFF), (cp F.CRY_CHn_CFG_LOG2 3, 1), (cp F.CRY_CHn_TAIL_IDX 3, 1)]) (fun c =>
        { c with cry := { c.cry with ch := [(3, { keys := [] })] }, boot := { c.boot with alias_ := some ([1#8], [2#8]) } }))) (3) = true := by
  decide +kernel

theorem wit_eccKeygen3 : (fun (s : State) (n : BitVec 5) => decide (s.chip.cryOffered n.toNat 0x20 = true ∧ s.chip.cryChecks n.toNat = true ∧
        s.chip.cryReady 0x20 = true ∧ s.chip.cryAlone n.toNat 0x20 = true ∧ s.chip.get F.CRY_DRBG_STATUS_ERROR = 0 ∧ s.chip.entNone = false)) (putC 3
        { op := 0x20, inOff := 0, auxOff := 0x8000, outOff := 0x10000, outLen := 97 } (md (up [(cp F.CRY_CHn_CFG_EN 3, 1), (cp F.CRY_CHn_CFG_OWNER 3,
        0xFF), (cp F.CRY_CHn_CFG_LOG2 3, 1), (cp F.CRY_CHn_TAIL_IDX 3, 1), (F.PWR_GRP_STATUS_STATE, 128)]) (fun c =>
        { c with cry := { c.cry with ch := [(3, { keys := [] })] }, boot := { c.boot with alias_ := some ([1#8], [2#8]) } }))) (3) = true := by
  decide +kernel

theorem wit_ecdsaSign : (fun (s : State) (n : BitVec 5) => decide (s.chip.geti F.CRY_CHn_CFG_EN n.toNat = 0)) (up []) (3) = true := by
  decide +kernel

theorem wit_ecdsaSign2 : (fun (s : State) (n : BitVec 5) => decide (s.chip.cryOffered n.toNat 0x21 = true ∧ s.chip.cryChecks n.toNat = true ∧
        s.chip.cryReady 0x21 = false)) (putC 3 { op := 0x21, inOff := 0, auxOff := 0x8000, outOff := 0x10000, inLen := 48, outLen := 96 } (md (up
        [(cp F.CRY_CHn_CFG_EN 3, 1), (cp F.CRY_CHn_CFG_OWNER 3, 0xFF), (cp F.CRY_CHn_CFG_LOG2 3, 1), (cp F.CRY_CHn_TAIL_IDX 3, 1)]) (fun c =>
        { c with cry := { c.cry with ch := [(3, { keys := [] })] }, boot := { c.boot with alias_ := some ([1#8], [2#8]) } }))) (3) = true := by
  decide +kernel

theorem wit_ecdsaSign3 : (fun (s : State) (n : BitVec 5) => decide (s.chip.cryOffered n.toNat 0x21 = true ∧ s.chip.cryChecks n.toNat = true ∧
        s.chip.cryReady 0x21 = true ∧ s.chip.cryAlone n.toNat 0x21 = true ∧ s.chip.cryKeyed n.toNat = true ∧ s.chip.get F.CRY_DRBG_STATUS_ERROR = 0 ∧
        s.chip.entNone = false)) (putC 3 { op := 0x21, inOff := 0, auxOff := 0x8000, outOff := 0x10000, inLen := 48, outLen := 96 } (md (up [(cp
        F.CRY_CHn_CFG_EN 3, 1), (cp F.CRY_CHn_CFG_OWNER 3, 0xFF), (cp F.CRY_CHn_CFG_LOG2 3, 1), (cp F.CRY_CHn_TAIL_IDX 3, 1),
        (F.PWR_GRP_STATUS_STATE, 128)]) (fun c => { c with cry := { c.cry with ch := [(3, { keys := [(0, ⟨2, false, []⟩)] })] }, boot := { c.boot with alias_ := some ([1#8], [2#8]) } })))
        (3) = true := by
  decide +kernel

theorem wit_ecdsaVerify : (fun (s : State) (n : BitVec 5) => decide (s.chip.geti F.CRY_CHn_CFG_EN n.toNat = 0)) (up []) (3) = true := by
  decide +kernel

theorem wit_ecdsaVerify2 : (fun (s : State) (n : BitVec 5) => decide (s.chip.cryOffered n.toNat 0x22 = true ∧ s.chip.cryChecks n.toNat = true ∧
        s.chip.cryReady 0x22 = false)) (putC 3 { op := 0x22, inOff := 0, auxOff := 0x8000, outOff := 0x10000, inLen := 48, auxLen := 193 } (md (up
        [(cp F.CRY_CHn_CFG_EN 3, 1), (cp F.CRY_CHn_CFG_OWNER 3, 0xFF), (cp F.CRY_CHn_CFG_LOG2 3, 1), (cp F.CRY_CHn_TAIL_IDX 3, 1)]) (fun c =>
        { c with cry := { c.cry with ch := [(3, { keys := [] })] }, boot := { c.boot with alias_ := some ([1#8], [2#8]) } }))) (3) = true := by
  decide +kernel

theorem wit_ecdsaVerify3 : (fun (s : State) (n : BitVec 5) => decide (s.chip.cryOffered n.toNat 0x22 = true ∧ s.chip.cryChecks n.toNat = true ∧
        s.chip.cryReady 0x22 = true ∧ s.chip.cryAlone n.toNat 0x22 = true)) (putC 3
        { op := 0x22, inOff := 0, auxOff := 0x8000, outOff := 0x10000, inLen := 48, auxLen := 193 } (md (up [(cp F.CRY_CHn_CFG_EN 3, 1), (cp
        F.CRY_CHn_CFG_OWNER 3, 0xFF), (cp F.CRY_CHn_CFG_LOG2 3, 1), (cp F.CRY_CHn_TAIL_IDX 3, 1), (F.PWR_GRP_STATUS_STATE, 128)]) (fun c =>
        { c with cry := { c.cry with ch := [(3, { keys := [] })] }, boot := { c.boot with alias_ := some ([1#8], [2#8]) } }))) (3) = true := by
  decide +kernel

theorem wit_ecdh : (fun (s : State) (n : BitVec 5) => decide (s.chip.geti F.CRY_CHn_CFG_EN n.toNat = 0)) (up []) (3) = true := by
  decide +kernel

theorem wit_ecdh2 : (fun (s : State) (n : BitVec 5) => decide (s.chip.cryOffered n.toNat 0x23 = true ∧ s.chip.cryChecks n.toNat = true ∧
        s.chip.cryReady 0x23 = false)) (putC 3 { op := 0x23, inOff := 0, auxOff := 0x8000, outOff := 0x10000, auxLen := 97 } (md (up [(cp
        F.CRY_CHn_CFG_EN 3, 1), (cp F.CRY_CHn_CFG_OWNER 3, 0xFF), (cp F.CRY_CHn_CFG_LOG2 3, 1), (cp F.CRY_CHn_TAIL_IDX 3, 1)]) (fun c =>
        { c with cry := { c.cry with ch := [(3, { keys := [] })] }, boot := { c.boot with alias_ := some ([1#8], [2#8]) } }))) (3) = true := by
  decide +kernel

theorem wit_ecdh3 : (fun (s : State) (n : BitVec 5) => decide (s.chip.cryOffered n.toNat 0x23 = true ∧ s.chip.cryChecks n.toNat = true ∧
        s.chip.cryReady 0x23 = true ∧ s.chip.cryAlone n.toNat 0x23 = true ∧ s.chip.cryKeyed n.toNat = true)) (putC 3
        { op := 0x23, inOff := 0, auxOff := 0x8000, outOff := 0x10000, auxLen := 97 } (md (up [(cp F.CRY_CHn_CFG_EN 3, 1), (cp F.CRY_CHn_CFG_OWNER 3,
        0xFF), (cp F.CRY_CHn_CFG_LOG2 3, 1), (cp F.CRY_CHn_TAIL_IDX 3, 1), (F.PWR_GRP_STATUS_STATE, 128)]) (fun c =>
        { c with cry := { c.cry with ch := [(3, { keys := [(0, ⟨2, false, []⟩)] })] }, boot := { c.boot with alias_ := some ([1#8], [2#8]) } }))) (3)
        = true := by
  decide +kernel

theorem wit_kmac : (fun (s : State) (n : BitVec 5) => decide (s.chip.geti F.CRY_CHn_CFG_EN n.toNat = 0)) (up []) (3) = true := by
  decide +kernel

theorem wit_kmac2 : (fun (s : State) (n : BitVec 5) => decide (s.chip.cryOffered n.toNat 0x30 = true ∧ s.chip.cryChecks n.toNat = true ∧
        s.chip.cryReady 0x30 = false)) (putC 3 { op := 0x30, inOff := 0, auxOff := 0x8000, outOff := 0x10000, arg := 32 } (md (up [(cp
        F.CRY_CHn_CFG_EN 3, 1), (cp F.CRY_CHn_CFG_OWNER 3, 0xFF), (cp F.CRY_CHn_CFG_LOG2 3, 1), (cp F.CRY_CHn_TAIL_IDX 3, 1)]) (fun c =>
        { c with cry := { c.cry with ch := [(3, { keys := [] })] }, boot := { c.boot with alias_ := some ([1#8], [2#8]) } }))) (3) = true := by
  decide +kernel

theorem wit_kmac3 : (fun (s : State) (n : BitVec 5) => decide (s.chip.cryOffered n.toNat 0x30 = true ∧ s.chip.cryChecks n.toNat = true ∧
        s.chip.cryReady 0x30 = true ∧ s.chip.cryAlone n.toNat 0x30 = true ∧ s.chip.cryKeyed n.toNat = true)) (putC 3
        { op := 0x30, inOff := 0, auxOff := 0x8000, outOff := 0x10000, arg := 32 } (md (up [(cp F.CRY_CHn_CFG_EN 3, 1), (cp F.CRY_CHn_CFG_OWNER 3,
        0xFF), (cp F.CRY_CHn_CFG_LOG2 3, 1), (cp F.CRY_CHn_TAIL_IDX 3, 1), (F.PWR_GRP_STATUS_STATE, 8)]) (fun c =>
        { c with cry := { c.cry with ch := [(3, { keys := [(0, ⟨1, false, []⟩)] })] }, boot := { c.boot with alias_ := some ([1#8], [2#8]) } }))) (3)
        = true := by
  decide +kernel

theorem wit_gcmEnc : (fun (s : State) (n : BitVec 5) => decide (s.chip.geti F.CRY_CHn_CFG_EN n.toNat = 0)) (up []) (3) = true := by
  decide +kernel

theorem wit_gcmEnc2 : (fun (s : State) (n : BitVec 5) => decide (s.chip.cryOffered n.toNat 0x40 = true ∧ s.chip.cryChecks n.toNat = true ∧
        s.chip.cryReady 0x40 = false)) (putC 3 { op := 0x40, inOff := 0, auxOff := 0x8000, outOff := 0x10000, auxLen := 12, outLen := 16 } (md (up
        [(cp F.CRY_CHn_CFG_EN 3, 1), (cp F.CRY_CHn_CFG_OWNER 3, 0xFF), (cp F.CRY_CHn_CFG_LOG2 3, 1), (cp F.CRY_CHn_TAIL_IDX 3, 1)]) (fun c =>
        { c with cry := { c.cry with ch := [(3, { keys := [] })] }, boot := { c.boot with alias_ := some ([1#8], [2#8]) } }))) (3) = true := by
  decide +kernel

theorem wit_gcmEnc3 : (fun (s : State) (n : BitVec 5) => decide (s.chip.cryOffered n.toNat 0x40 = true ∧ s.chip.cryChecks n.toNat = true ∧
        s.chip.cryReady 0x40 = true ∧ s.chip.cryAlone n.toNat 0x40 = true ∧ s.chip.cryKeyed n.toNat = true)) (putC 3
        { op := 0x40, inOff := 0, auxOff := 0x8000, outOff := 0x10000, auxLen := 12, outLen := 16 } (md (up [(cp F.CRY_CHn_CFG_EN 3, 1), (cp
        F.CRY_CHn_CFG_OWNER 3, 0xFF), (cp F.CRY_CHn_CFG_LOG2 3, 1), (cp F.CRY_CHn_TAIL_IDX 3, 1), (F.PWR_GRP_STATUS_STATE, 32)]) (fun c =>
        { c with cry := { c.cry with ch := [(3, { keys := [(0, ⟨1, false, []⟩)] })] }, boot := { c.boot with alias_ := some ([1#8], [2#8]) } }))) (3)
        = true := by
  decide +kernel

theorem wit_gcmDec : (fun (s : State) (n : BitVec 5) => decide (s.chip.geti F.CRY_CHn_CFG_EN n.toNat = 0)) (up []) (3) = true := by
  decide +kernel

theorem wit_gcmDec2 : (fun (s : State) (n : BitVec 5) => decide (s.chip.cryOffered n.toNat 0x41 = true ∧ s.chip.cryChecks n.toNat = true ∧
        s.chip.cryReady 0x41 = false)) (putC 3 { op := 0x41, inOff := 0, auxOff := 0x8000, outOff := 0x10000, inLen := 16, auxLen := 12 } (md (up
        [(cp F.CRY_CHn_CFG_EN 3, 1), (cp F.CRY_CHn_CFG_OWNER 3, 0xFF), (cp F.CRY_CHn_CFG_LOG2 3, 1), (cp F.CRY_CHn_TAIL_IDX 3, 1)]) (fun c =>
        { c with cry := { c.cry with ch := [(3, { keys := [] })] }, boot := { c.boot with alias_ := some ([1#8], [2#8]) } }))) (3) = true := by
  decide +kernel

theorem wit_gcmDec3 : (fun (s : State) (n : BitVec 5) => decide (s.chip.cryOffered n.toNat 0x41 = true ∧ s.chip.cryChecks n.toNat = true ∧
        s.chip.cryReady 0x41 = true ∧ s.chip.cryAlone n.toNat 0x41 = true ∧ s.chip.cryKeyed n.toNat = true)) (putC 3
        { op := 0x41, inOff := 0, auxOff := 0x8000, outOff := 0x10000, inLen := 16, auxLen := 12 } (md (up [(cp F.CRY_CHn_CFG_EN 3, 1), (cp
        F.CRY_CHn_CFG_OWNER 3, 0xFF), (cp F.CRY_CHn_CFG_LOG2 3, 1), (cp F.CRY_CHn_TAIL_IDX 3, 1), (F.PWR_GRP_STATUS_STATE, 32)]) (fun c =>
        { c with cry := { c.cry with ch := [(3, { keys := [(0, ⟨1, false, []⟩)] })] }, boot := { c.boot with alias_ := some ([1#8], [2#8]) } }))) (3)
        = true := by
  decide +kernel

theorem wit_ctr : (fun (s : State) (n : BitVec 5) => decide (s.chip.geti F.CRY_CHn_CFG_EN n.toNat = 0)) (up []) (3) = true := by
  decide +kernel

theorem wit_ctr2 : (fun (s : State) (n : BitVec 5) => decide (s.chip.cryOffered n.toNat 0x42 = true ∧ s.chip.cryChecks n.toNat = true ∧
        s.chip.cryReady 0x42 = false)) (putC 3 { op := 0x42, inOff := 0, auxOff := 0x8000, outOff := 0x10000, auxLen := 16 } (md (up [(cp
        F.CRY_CHn_CFG_EN 3, 1), (cp F.CRY_CHn_CFG_OWNER 3, 0xFF), (cp F.CRY_CHn_CFG_LOG2 3, 1), (cp F.CRY_CHn_TAIL_IDX 3, 1)]) (fun c =>
        { c with cry := { c.cry with ch := [(3, { keys := [] })] }, boot := { c.boot with alias_ := some ([1#8], [2#8]) } }))) (3) = true := by
  decide +kernel

theorem wit_ctr3 : (fun (s : State) (n : BitVec 5) => decide (s.chip.cryOffered n.toNat 0x42 = true ∧ s.chip.cryChecks n.toNat = true ∧
        s.chip.cryReady 0x42 = true ∧ s.chip.cryAlone n.toNat 0x42 = true ∧ s.chip.cryKeyed n.toNat = true)) (putC 3
        { op := 0x42, inOff := 0, auxOff := 0x8000, outOff := 0x10000, auxLen := 16 } (md (up [(cp F.CRY_CHn_CFG_EN 3, 1), (cp F.CRY_CHn_CFG_OWNER 3,
        0xFF), (cp F.CRY_CHn_CFG_LOG2 3, 1), (cp F.CRY_CHn_TAIL_IDX 3, 1), (F.PWR_GRP_STATUS_STATE, 32)]) (fun c =>
        { c with cry := { c.cry with ch := [(3, { keys := [(0, ⟨1, false, []⟩)] })] }, boot := { c.boot with alias_ := some ([1#8], [2#8]) } }))) (3)
        = true := by
  decide +kernel

theorem wit_kwWrap : (fun (s : State) (n : BitVec 5) => decide (s.chip.geti F.CRY_CHn_CFG_EN n.toNat = 0)) (up []) (3) = true := by
  decide +kernel

theorem wit_kwWrap2 : (fun (s : State) (n : BitVec 5) => decide (s.chip.cryOffered n.toNat 0x43 = true ∧ s.chip.cryChecks n.toNat = true ∧
        s.chip.cryReady 0x43 = false)) (putC 3 { op := 0x43, inOff := 0, auxOff := 0x8000, outOff := 0x10000, arg := 1, outLen := 40 } (md (up [(cp
        F.CRY_CHn_CFG_EN 3, 1), (cp F.CRY_CHn_CFG_OWNER 3, 0xFF), (cp F.CRY_CHn_CFG_LOG2 3, 1), (cp F.CRY_CHn_TAIL_IDX 3, 1)]) (fun c =>
        { c with cry := { c.cry with ch := [(3, { keys := [] })] }, boot := { c.boot with alias_ := some ([1#8], [2#8]) } }))) (3) = true := by
  decide +kernel

theorem wit_kwWrap3 : (fun (s : State) (n : BitVec 5) => decide (s.chip.cryOffered n.toNat 0x43 = true ∧ s.chip.cryChecks n.toNat = true ∧
        s.chip.cryReady 0x43 = true ∧ s.chip.cryAlone n.toNat 0x43 = true ∧ s.chip.cryKeyed n.toNat = true ∧ (s.chip.chKey n.toNat ((s.chip.chRead
        n.toNat).arg % 4)).isSealed = false ∧ (s.chip.chKey n.toNat ((s.chip.chRead n.toNat).arg % 4)).typ = 1)) (putC 3
        { op := 0x43, inOff := 0, auxOff := 0x8000, outOff := 0x10000, arg := 1, outLen := 40 } (md (up [(cp F.CRY_CHn_CFG_EN 3, 1), (cp
        F.CRY_CHn_CFG_OWNER 3, 0xFF), (cp F.CRY_CHn_CFG_LOG2 3, 1), (cp F.CRY_CHn_TAIL_IDX 3, 1), (F.PWR_GRP_STATUS_STATE, 32)]) (fun c =>
        { c with cry := { c.cry with ch := [(3, { keys := [(0, ⟨1, false, []⟩), (1, ⟨1, false, []⟩)] })] }, boot := { c.boot with alias_ := some ([1#8], [2#8]) } })))
        (3) = true := by
  decide +kernel

theorem wit_kwUnwrap : (fun (s : State) (n : BitVec 5) => decide (s.chip.geti F.CRY_CHn_CFG_EN n.toNat = 0)) (up []) (3) = true := by
  decide +kernel

theorem wit_kwUnwrap2 : (fun (s : State) (n : BitVec 5) => decide (s.chip.cryOffered n.toNat 0x44 = true ∧ s.chip.cryChecks n.toNat = true ∧
        s.chip.cryReady 0x44 = false)) (putC 3 { op := 0x44, inOff := 0, auxOff := 0x8000, outOff := 0x10000, inLen := 40 } (md (up [(cp
        F.CRY_CHn_CFG_EN 3, 1), (cp F.CRY_CHn_CFG_OWNER 3, 0xFF), (cp F.CRY_CHn_CFG_LOG2 3, 1), (cp F.CRY_CHn_TAIL_IDX 3, 1)]) (fun c =>
        { c with cry := { c.cry with ch := [(3, { keys := [] })] }, boot := { c.boot with alias_ := some ([1#8], [2#8]) } }))) (3) = true := by
  decide +kernel

theorem wit_kwUnwrap3 : (fun (s : State) (n : BitVec 5) => decide (s.chip.cryOffered n.toNat 0x44 = true ∧ s.chip.cryChecks n.toNat = true ∧
        s.chip.cryReady 0x44 = true ∧ s.chip.cryAlone n.toNat 0x44 = true ∧ s.chip.cryKeyed n.toNat = true)) (putC 3
        { op := 0x44, inOff := 0, auxOff := 0x8000, outOff := 0x10000, inLen := 40 } (md (up [(cp F.CRY_CHn_CFG_EN 3, 1), (cp F.CRY_CHn_CFG_OWNER 3,
        0xFF), (cp F.CRY_CHn_CFG_LOG2 3, 1), (cp F.CRY_CHn_TAIL_IDX 3, 1), (F.PWR_GRP_STATUS_STATE, 32)]) (fun c =>
        { c with cry := { c.cry with ch := [(3, { keys := [(0, ⟨1, false, []⟩)] })] }, boot := { c.boot with alias_ := some ([1#8], [2#8]) } }))) (3)
        = true := by
  decide +kernel

theorem wit_keyRandom : (fun (s : State) (n : BitVec 5) => decide (s.chip.geti F.CRY_CHn_CFG_EN n.toNat = 0)) (up []) (3) = true := by
  decide +kernel

theorem wit_keyRandom2 : (fun (s : State) (n : BitVec 5) => decide (s.chip.cryOffered n.toNat 0x50 = true ∧ s.chip.cryChecks n.toNat = true ∧
        s.chip.cryAlone n.toNat 0x50 = true ∧ s.chip.get F.CRY_DRBG_STATUS_ERROR = 0 ∧ s.chip.entNone = false)) (putC 3
        { op := 0x50, inOff := 0, auxOff := 0x8000, outOff := 0x10000, arg := 288 } (md (up [(cp F.CRY_CHn_CFG_EN 3, 1), (cp F.CRY_CHn_CFG_OWNER 3,
        0xFF), (cp F.CRY_CHn_CFG_LOG2 3, 1), (cp F.CRY_CHn_TAIL_IDX 3, 1)]) (fun c =>
        { c with cry := { c.cry with ch := [(3, { keys := [] })] }, boot := { c.boot with alias_ := some ([1#8], [2#8]) } }))) (3) = true := by
  decide +kernel

theorem wit_keyErase : (fun (s : State) (n : BitVec 5) => decide (s.chip.geti F.CRY_CHn_CFG_EN n.toNat = 0)) (up []) (3) = true := by
  decide +kernel

theorem wit_keyErase2 : (fun (s : State) (n : BitVec 5) => decide (s.chip.cryOffered n.toNat 0x51 = true ∧ s.chip.cryChecks n.toNat = true ∧
        s.chip.cryAlone n.toNat 0x51 = true)) (putC 3 { op := 0x51, inOff := 0, auxOff := 0x8000, outOff := 0x10000 } (md (up [(cp F.CRY_CHn_CFG_EN
        3, 1), (cp F.CRY_CHn_CFG_OWNER 3, 0xFF), (cp F.CRY_CHn_CFG_LOG2 3, 1), (cp F.CRY_CHn_TAIL_IDX 3, 1)]) (fun c =>
        { c with cry := { c.cry with ch := [(3, { keys := [] })] }, boot := { c.boot with alias_ := some ([1#8], [2#8]) } }))) (3) = true := by
  decide +kernel

theorem wit_keyDistaff : (fun (s : State) (n : BitVec 5) => decide (s.chip.geti F.CRY_CHn_CFG_EN n.toNat = 0)) (up []) (3) = true := by
  decide +kernel

theorem wit_keyDistaff2 : (fun (s : State) (n : BitVec 5) => decide (s.chip.cryOffered n.toNat 0x52 = true ∧ s.chip.cryChecks n.toNat = true ∧
        s.chip.cryAlone n.toNat 0x52 = true ∧ s.chip.boot.alias_.isSome = true)) (putC 3
        { op := 0x52, inOff := 0, auxOff := 0x8000, outOff := 0x10000 } (md (up [(cp F.CRY_CHn_CFG_EN 3, 1), (cp F.CRY_CHn_CFG_OWNER 3, 0xFF), (cp
        F.CRY_CHn_CFG_LOG2 3, 1), (cp F.CRY_CHn_TAIL_IDX 3, 1)]) (fun c =>
        { c with cry := { c.cry with ch := [(3, { keys := [] })] }, boot := { c.boot with alias_ := some ([1#8], [2#8]) } }))) (3) = true := by
  decide +kernel

theorem wit_keyLoad : (fun (s : State) (n : BitVec 5) => decide (s.chip.geti F.CRY_CHn_CFG_EN n.toNat = 0)) (up []) (3) = true := by
  decide +kernel

theorem wit_keyLoad2 : (fun (s : State) (n : BitVec 5) => decide (s.chip.cryOffered n.toNat 0x53 = true ∧ s.chip.cryChecks n.toNat = true ∧
        s.chip.cryAlone n.toNat 0x53 = true)) (putC 3 { op := 0x53, inOff := 0, auxOff := 0x8000, outOff := 0x10000, arg := 1, inLen := 32 } (md (up
        [(cp F.CRY_CHn_CFG_EN 3, 1), (cp F.CRY_CHn_CFG_OWNER 3, 0xFF), (cp F.CRY_CHn_CFG_LOG2 3, 1), (cp F.CRY_CHn_TAIL_IDX 3, 1)]) (fun c =>
        { c with cry := { c.cry with ch := [(3, { keys := [] })] }, boot := { c.boot with alias_ := some ([1#8], [2#8]) } }))) (3) = true := by
  decide +kernel

theorem wit_random : (fun (s : State) (n : BitVec 5) => decide (s.chip.geti F.CRY_CHn_CFG_EN n.toNat = 0)) (up []) (3) = true := by
  decide +kernel

theorem wit_random2 : (fun (s : State) (n : BitVec 5) => decide (s.chip.cryOffered n.toNat 0x60 = true ∧ s.chip.cryChecks n.toNat = true ∧
        s.chip.cryAlone n.toNat 0x60 = true ∧ s.chip.get F.CRY_DRBG_STATUS_ERROR = 0 ∧ s.chip.entNone = false ∧ (s.chip.chRead n.toNat).outLen ≠ 0))
        (putC 3 { op := 0x60, inOff := 0, auxOff := 0x8000, outOff := 0x10000, outLen := 32 } (md (up [(cp F.CRY_CHn_CFG_EN 3, 1), (cp
        F.CRY_CHn_CFG_OWNER 3, 0xFF), (cp F.CRY_CHn_CFG_LOG2 3, 1), (cp F.CRY_CHn_TAIL_IDX 3, 1)]) (fun c =>
        { c with cry := { c.cry with ch := [(3, { keys := [] })] }, boot := { c.boot with alias_ := some ([1#8], [2#8]) } }))) (3) = true := by
  decide +kernel

theorem wit_dgtOpen : (fun (s : State) (req : Req) (n : BitVec 6) (value : Word) => decide (s.chip.opens req (R.DGT_CTXn_CTRL n.toNat) true = true ∧
        s.chip.cxSt n.toNat = 0 ∧ s.chip.cxOpenStatus req n.toNat value = .ok)) (up []) (reqSpindle) (63) (0x1801#32) = true := by
  decide +kernel

theorem wit_dgtOpen2 : (fun (s : State) (req : Req) (n : BitVec 6) (value : Word) => decide (s.chip.opens req (R.DGT_CTXn_CTRL n.toNat) true = true ∧
        s.chip.cxSt n.toNat = 0 ∧ s.chip.cxOpenStatus req n.toNat value = .ok)) (up [(cp F.DGT_CTXn_LEN_BYTES 63, 4)]) (reqSpindle) (63) (0x2001#32)
        = true := by
  decide +kernel

theorem wit_dgtOpen3 : (fun (s : State) (req : Req) (n : BitVec 6) (value : Word) => decide (s.chip.opens req (R.DGT_CTXn_CTRL n.toNat) true = true ∧
        s.chip.cxSt n.toNat ≠ 0 ∧ s.chip.cxOwner n.toNat = req.toNat)) (up [(cp F.DGT_CTXn_STATUS_STATE 5, 1), (cp F.DGT_CTXn_STATUS_OWNER 5, 0xFF)])
        (reqSpindle) (5) (0x1801#32) = true := by
  decide +kernel

theorem wit_dgtOpen4 : (fun (s : State) (req : Req) (n : BitVec 6) (value : Word) => decide (s.chip.opens req (R.DGT_CTXn_CTRL n.toNat) true = true ∧
        s.chip.cxSt n.toNat ≠ 0 ∧ s.chip.cxOwner n.toNat ≠ req.toNat)) (up [(cp F.DGT_CTXn_STATUS_STATE 5, 1), (cp F.DGT_CTXn_STATUS_OWNER 5, 0xF0)])
        (reqSpindle) (5) (0x1801#32) = true := by
  decide +kernel

theorem wit_dgtFinal : (fun (s : State) (req : Req) (n : BitVec 6) => decide (s.chip.opens req (R.DGT_CTXn_CTRL n.toNat) true = true ∧ s.chip.cxOwner
        n.toNat = req.toNat ∧ s.chip.grp 1 = 2 ∧ bit (s.chip.get F.PWR_GRP_CTRL_DISABLE) 0 = false ∧ s.chip.cxSt n.toNat = 1 ∧ s.chip.cxFixed n.toNat
        = true ∧ (s.chip.cx n.toNat).fed.length < s.chip.cxDecl n.toNat)) (md (up [(F.PWR_GRP_STATUS_STATE, 8), (cp F.DGT_CTXn_STATUS_STATE 5, 1),
        (cp F.DGT_CTXn_STATUS_OWNER 5, 0xFF)]) (fun c => { c with cry := { c.cry with ctx := [(5, { decl := 4 })] } })) (reqSpindle) (5) = true := by
  decide +kernel

theorem wit_dgtFinal2 : (fun (s : State) (req : Req) (n : BitVec 6) => decide (s.chip.opens req (R.DGT_CTXn_CTRL n.toNat) true = true ∧
        s.chip.cxOwner n.toNat = req.toNat ∧ s.chip.grp 1 = 2 ∧ bit (s.chip.get F.PWR_GRP_CTRL_DISABLE) 0 = false ∧ s.chip.cxSt n.toNat = 2)) (up
        [(F.PWR_GRP_STATUS_STATE, 8), (cp F.DGT_CTXn_STATUS_STATE 5, 2), (cp F.DGT_CTXn_STATUS_OWNER 5, 0xFF)]) (reqSpindle) (5) = true := by
  decide +kernel

theorem wit_dgtFinal3 : (fun (s : State) (req : Req) (n : BitVec 6) => decide (s.chip.opens req (R.DGT_CTXn_CTRL n.toNat) true = true ∧
        s.chip.cxOwner n.toNat = req.toNat ∧ s.chip.grp 1 = 3 ∧ s.chip.cxSt n.toNat = 1)) (up [(F.PWR_GRP_STATUS_STATE, 0xC), (cp
        F.DGT_CTXn_STATUS_STATE 5, 1), (cp F.DGT_CTXn_STATUS_OWNER 5, 0xFF)]) (reqSpindle) (5) = true := by
  decide +kernel

theorem wit_dgtClose : (fun (s : State) (req : Req) (n : BitVec 6) => decide (s.chip.opens req (R.DGT_CTXn_CTRL n.toNat) true = true ∧ s.chip.cxOwner
        n.toNat = req.toNat ∧ s.chip.cxSt n.toNat ≠ 0)) (up [(cp F.DGT_CTXn_STATUS_STATE 5, 4), (cp F.DGT_CTXn_STATUS_OWNER 5, 0xFF)]) (reqSpindle)
        (5) = true := by
  decide +kernel

theorem wit_dgtClose2 : (fun (s : State) (req : Req) (n : BitVec 6) => decide (s.chip.opens req (R.DGT_CTXn_CTRL n.toNat) true = true ∧ s.chip.cxSt
        n.toNat = 0)) (up []) (reqSpindle) (5) = true := by
  decide +kernel

theorem wit_dgtFeed : (fun (s : State) (req : Req) (n : BitVec 6) (data : List Byte) => decide (s.chip.opens req (R.DGT_CTXn_FEED n.toNat) true =
        true ∧ data.length ≠ 4 ∧ data.length ≠ 8)) (up []) (reqSpindle) (5) ([]) = true := by
  decide +kernel

theorem wit_dgtFeed2 : (fun (s : State) (req : Req) (n : BitVec 6) (data : List Byte) => decide (s.chip.opens req (R.DGT_CTXn_FEED n.toNat) true =
        true ∧ data.length = 4 ∧ s.chip.cxSt n.toNat = 1 ∧ s.chip.geti F.DGT_CTXn_CTRL_FEED_SRC n.toNat = 0 ∧ s.chip.cxOwner n.toNat = req.toNat ∧
        s.chip.cxFixed n.toNat = false)) (up [(cp F.DGT_CTXn_STATUS_STATE 5, 1), (cp F.DGT_CTXn_STATUS_OWNER 5, 0xFF), (cp F.DGT_CTXn_CTRL_MODE 5,
        1)]) (reqSpindle) (5) ([1#8, 2#8, 3#8, 4#8]) = true := by
  decide +kernel

theorem wit_dgtFeed3 : (fun (s : State) (req : Req) (n : BitVec 6) (data : List Byte) => decide (s.chip.opens req (R.DGT_CTXn_FEED n.toNat) true =
        true ∧ data.length = 4 ∧ s.chip.geti F.DGT_CTXn_CTRL_FEED_SRC n.toNat ≠ 0)) (up [(cp F.DGT_CTXn_STATUS_STATE 5, 1), (cp
        F.DGT_CTXn_STATUS_OWNER 5, 0xFF), (cp F.DGT_CTXn_CTRL_FEED_SRC 5, 1)]) (reqSpindle) (5) ([1#8, 2#8, 3#8, 4#8]) = true := by
  decide +kernel

theorem wit_digestAbsorbed : (fun (s : State) (n : BitVec 6) => decide (s.chip.cxSt n.toNat ≠ 1)) (up []) (5) = true := by
  decide +kernel

theorem wit_digestAbsorbed2 : (fun (s : State) (n : BitVec 6) => decide (s.chip.cxSt n.toNat = 1 ∧ s.chip.grp 1 = 2 ∧ s.chip.cxFixed n.toNat = true ∧
        (s.chip.cx n.toNat).fed.length = s.chip.cxDecl n.toNat)) (up [(F.PWR_GRP_STATUS_STATE, 8), (cp F.DGT_CTXn_STATUS_STATE 5, 1)]) (5) = true :=
        by
  decide +kernel

theorem wit_dgtResultRead : (fun (s : State) (req : Req) (n : BitVec 6) => decide (s.chip.opens req (R.DGT_CTXn_RESULT n.toNat) false = true ∧
        s.chip.cxSt n.toNat = 3 ∧ (s.chip.cx n.toNat).result.length ≤ 64)) (md (up [(cp F.DGT_CTXn_STATUS_STATE 5, 3), (cp F.DGT_CTXn_STATUS_PTR 5,
        14)]) (fun c => { c with cry := { c.cry with ctx := [(5, { result := List.replicate 64 1#8 })] } })) (reqSpindle) (5) = true := by
  decide +kernel

theorem wit_dgtResultRead2 : (fun (s : State) (req : Req) (n : BitVec 6) => decide (s.chip.opens req (R.DGT_CTXn_RESULT n.toNat) false = true ∧
        s.chip.cxSt n.toNat = 3 ∧ (s.chip.cx n.toNat).result.length ≤ 64)) (md (up [(cp F.DGT_CTXn_STATUS_STATE 5, 3), (cp F.DGT_CTXn_STATUS_PTR 5,
        15)]) (fun c => { c with cry := { c.cry with ctx := [(5, { result := List.replicate 64 1#8 })] } })) (reqSpindle) (5) = true := by
  decide +kernel

theorem wit_dgtResultRead3 : (fun (s : State) (req : Req) (n : BitVec 6) => decide (s.chip.opens req (R.DGT_CTXn_RESULT n.toNat) false = true ∧
        s.chip.cxSt n.toNat ≠ 3)) (up []) (reqSpindle) (5) = true := by
  decide +kernel

theorem wit_tlyOpen : (fun (s : State) (req : Req) (acc : BitVec 3) => decide (s.chip.opens req R.TLY_CTRL true = true ∧ s.chip.get F.TLY_STATUS_BUSY
        = 1 ∧ s.chip.grp 5 ≠ 3 ∧ bit (s.chip.get F.PWR_GRP_CTRL_DISABLE) 4 = false ∧ s.chip.acSt acc.toNat = 0 ∧ ((List.range 8).filter (fun k =>
        s.chip.acSt k != 0)).foldl (fun m k => m + s.chip.acLen k) 0 + s.chip.acLen acc.toNat ≤ 32768 ∧ s.chip.acLen acc.toNat ≤ 32768 ∧ s.chip.geti
        F.TLY_ACCn_OWNERS_MASK acc.toNat ≠ 0 ∧ s.chip.geti F.TLY_ACCn_CFG_FMT acc.toNat ≠ 3 ∧ 8 * s.chip.geti F.TLY_ACCn_OUT_OFF acc.toNat + 32 + 8 *
        s.chip.acLen acc.toNat ≤ 0x100000)) (up [(F.TLY_STATUS_BUSY, 1), (cp F.TLY_ACCn_OWNERS_MASK 7, 3), (cp F.TLY_ACCn_LEN_ELEMS 7, 1)])
        (reqSpindle) (7) = true := by
  decide +kernel

theorem wit_tlyOpen2 : (fun (s : State) (req : Req) (acc : BitVec 3) => decide (s.chip.opens req R.TLY_CTRL true = true ∧ s.chip.get
        F.TLY_STATUS_BUSY = 0 ∧ s.chip.grp 5 ≠ 3 ∧ bit (s.chip.get F.PWR_GRP_CTRL_DISABLE) 4 = false ∧ s.chip.acSt acc.toNat = 0 ∧ ((List.range
        8).filter (fun k => s.chip.acSt k != 0)).foldl (fun m k => m + s.chip.acLen k) 0 + s.chip.acLen acc.toNat ≤ 32768 ∧ s.chip.acLen acc.toNat ≤
        32768 ∧ s.chip.geti F.TLY_ACCn_OWNERS_MASK acc.toNat ≠ 0 ∧ s.chip.geti F.TLY_ACCn_CFG_FMT acc.toNat ≠ 3 ∧ 8 * s.chip.geti F.TLY_ACCn_OUT_OFF
        acc.toNat + 32 + 8 * s.chip.acLen acc.toNat ≤ 0x100000 ∧ s.chip.get F.CRY_DRBG_STATUS_ERROR = 0 ∧ s.chip.entNone = false)) (up [(cp
        F.TLY_ACCn_OWNERS_MASK 7, 3), (cp F.TLY_ACCn_LEN_ELEMS 7, 1)]) (reqSpindle) (7) = true := by
  decide +kernel

theorem wit_tlyAdd : (fun (s : State) (req : Req) (acc : BitVec 3) (owner : BitVec 5) => decide (s.chip.opens req R.TLY_CTRL true = true ∧ s.chip.get
        F.TLY_STATUS_BUSY = 0 ∧ s.chip.grp 5 ≠ 3 ∧ bit (s.chip.get F.PWR_GRP_CTRL_DISABLE) 4 = false ∧ s.chip.acSt acc.toNat = 1 ∧ bit (s.chip.geti
        F.TLY_ACCn_OWNERS_MASK acc.toNat) owner.toNat = true ∧ bit (s.chip.geti F.TLY_ACCn_RECEIVED_MASK acc.toNat) owner.toNat = false ∧ s.chip.get
        F.TLY_SRC_LEN_BYTES = s.chip.acLen acc.toNat * tlySize (s.chip.geti F.TLY_ACCn_CFG_FMT acc.toNat))) (up [(cp F.TLY_ACCn_STATUS_STATE 7, 1),
        (cp F.TLY_ACCn_OWNERS_MASK 7, 0x80000000), (cp F.TLY_ACCn_LEN_ELEMS 7, 1), (F.TLY_SRC_LEN_BYTES, 4)]) (reqSpindle) (7) (31) = true := by
  decide +kernel

theorem wit_tlyAdd2 : (fun (s : State) (req : Req) (acc : BitVec 3) (owner : BitVec 5) => decide (s.chip.opens req R.TLY_CTRL true = true ∧
        s.chip.get F.TLY_STATUS_BUSY = 0 ∧ s.chip.grp 5 ≠ 3 ∧ bit (s.chip.get F.PWR_GRP_CTRL_DISABLE) 4 = false ∧ s.chip.acSt acc.toNat ≠ 1)) (up [])
        (reqSpindle) (7) (31) = true := by
  decide +kernel

theorem wit_tlyAddDone : (fun (s : State) (data : List Byte) (good : Bool) => decide ((List.range 8).all (fun n => s.chip.acSt n != 2) = true)) (up
        []) ([]) (true) = true := by
  decide +kernel

theorem wit_tlyAddDone2 : (fun (s : State) (data : List Byte) (good : Bool) => decide (s.chip.acSt 0 = 2 ∧ s.chip.grp 5 = 2 ∧ s.chip.tlySrc data good
        = none)) (up [(F.TLY_ACCn_STATUS_STATE, 2), (F.PWR_GRP_STATUS_STATE, 0x800), (F.TLY_STATUS_BUSY, 1)]) ([]) (false) = true := by
  decide +kernel

theorem wit_tlyAddDone3 : (fun (s : State) (data : List Byte) (good : Bool) => decide (s.chip.acSt 0 = 2 ∧ s.chip.grp 5 = 2 ∧ (s.chip.tlySrc data
        good).isSome = true ∧ (s.chip.ac 0).owner < 32 ∧ withBit (s.chip.geti F.TLY_ACCn_RECEIVED_MASK 0) (s.chip.ac 0).owner true ≠ s.chip.geti
        F.TLY_ACCn_OWNERS_MASK 0)) (md (up [(F.TLY_ACCn_STATUS_STATE, 2), (F.PWR_GRP_STATUS_STATE, 0x800), (F.TLY_STATUS_BUSY, 1),
        (F.TLY_ACCn_LEN_ELEMS, 1), (F.TLY_ACCn_OWNERS_MASK, 3), (F.TLY_SRC_LEN_BYTES, 4)]) (fun c =>
        { c with cry := { c.cry with acc := [(0, { owner := 1 })] } }.put64 R.TLY_SRC_LO 0x800000000)) ([0#8, 0#8, 0x80#8, 0x3F#8]) (true) = true :=
        by
  decide +kernel

theorem wit_tlyAbort : (fun (s : State) (req : Req) (acc : BitVec 3) => decide (s.chip.opens req R.TLY_CTRL true = true ∧ s.chip.get
        F.TLY_STATUS_BUSY = 1 ∧ s.chip.acSt acc.toNat ≠ 2)) (up [(F.TLY_STATUS_BUSY, 1)]) (reqSpindle) (3) = true := by
  decide +kernel

theorem wit_tlyAbort2 : (fun (s : State) (req : Req) (acc : BitVec 3) => decide (s.chip.opens req R.TLY_CTRL true = true ∧ (s.chip.get
        F.TLY_STATUS_BUSY = 0 ∨ s.chip.acSt acc.toNat = 2))) (up [(cp F.TLY_ACCn_STATUS_STATE 7, 2), (F.TLY_STATUS_BUSY, 1)]) (reqSpindle) (7) = true
        := by
  decide +kernel

theorem wit_tlyRelease : (fun (s : State) (req : Req) (acc : BitVec 3) => decide (s.chip.opens req R.TLY_CTRL true = true ∧ s.chip.get
        F.TLY_STATUS_BUSY = 0 ∧ (s.chip.acSt acc.toNat = 3 ∨ s.chip.acSt acc.toNat = 4))) (up [(cp F.TLY_ACCn_STATUS_STATE 7, 4)]) (reqSpindle) (7) =
        true := by
  decide +kernel

theorem wit_tlyRelease2 : (fun (s : State) (req : Req) (acc : BitVec 3) => decide (s.chip.opens req R.TLY_CTRL true = true ∧ s.chip.get
        F.TLY_STATUS_BUSY = 0 ∧ s.chip.acSt acc.toNat = 1)) (up [(cp F.TLY_ACCn_STATUS_STATE 7, 1)]) (reqSpindle) (7) = true := by
  decide +kernel

theorem wit_tlyDigestRead : (fun (s : State) (req : Req) (acc : BitVec 3) => decide (s.chip.opens req (R.TLY_ACCn_DIGEST acc.toNat) false = true ∧
        s.chip.acSt acc.toNat = 3)) (up [(cp F.TLY_ACCn_STATUS_STATE 7, 3)]) (reqSpindle) (7) = true := by
  decide +kernel

theorem wit_tlyDigestRead2 : (fun (s : State) (req : Req) (acc : BitVec 3) => decide (s.chip.opens req (R.TLY_ACCn_DIGEST acc.toNat) false = true ∧
        s.chip.acSt acc.toNat ≠ 3)) (up []) (reqSpindle) (7) = true := by
  decide +kernel

theorem wit_entropyHealthFail : (fun (s : State) (source : Bool) (window : List Byte) => decide (s.chip.entSt (srcOf source) ≠ 0)) (up
        [(F.CRY_ENT_STATE0, 1)]) (false) ([]) = true := by
  decide +kernel

theorem wit_entropyHealthFail2 : (fun (s : State) (source : Bool) (window : List Byte) => decide (s.chip.svcUp = true ∧ s.chip.entSt (srcOf source) =
        0 ∧ healthFails window = true ∧ tget? s.chip.cry.failAt (srcOf source) = none)) (up [(F.CRY_ENT_STATE1, 0)]) (true) ([]) = true := by
  decide +kernel

theorem wit_entropyHealthFail3 : (fun (s : State) (source : Bool) (window : List Byte) => decide (s.chip.svcUp = true ∧ s.chip.entSt (srcOf source) =
        0 ∧ healthFails window = true ∧ tget? s.chip.cry.failAt (srcOf source) = some s.chip.slot ∧ s.chip.entSt (1 - srcOf source) ≠ 3)) (md (up
        [(F.CRY_ENT_STATE1, 0)]) (fun c => { c with cry := { c.cry with failAt := [(1, 0)] } })) (true) ([]) = true := by
  decide +kernel

theorem wit_entropyHealthFail4 : (fun (s : State) (source : Bool) (window : List Byte) => decide (s.chip.svcUp = true ∧ s.chip.entSt (srcOf source) =
        0 ∧ healthFails window = true ∧ tget? s.chip.cry.failAt (srcOf source) = some s.chip.slot ∧ s.chip.entSt (1 - srcOf source) = 3)) (md (up
        [(F.CRY_ENT_STATE0, 3), (F.CRY_ENT_STATE1, 0)]) (fun c => { c with cry := { c.cry with failAt := [(1, 0)] } })) (true) ([]) = true := by
  decide +kernel

theorem wit_entropyRetestDone : (fun (s : State) (source : Bool) (window : List Byte) => decide (s.chip.entSt (srcOf source) = 0)) (up
        [(F.CRY_ENT_STATE0, 0)]) (false) (List.replicate 128 0xAA#8) = true := by
  decide +kernel

theorem wit_entropyRetestDone2 : (fun (s : State) (source : Bool) (window : List Byte) => decide (s.chip.svcUp = true ∧ s.chip.entSt (srcOf source) =
        1 ∧ healthFails window = false)) (md (up [(F.CRY_ENT_STATE0, 1)]) (fun c => { c with cry := { c.cry with retest := [0] } })) (false)
        (List.replicate 128 0xAA#8) = true := by
  decide +kernel

theorem wit_entropyRetestDone3 : (fun (s : State) (source : Bool) (window : List Byte) => decide (s.chip.svcUp = true ∧ s.chip.entSt (srcOf source) =
        1 ∧ s.chip.cry.retest.contains (srcOf source) = true ∧ healthFails window = true ∧ s.chip.entSt (1 - srcOf source) ≠ 3)) (md (up
        [(F.CRY_ENT_STATE0, 1)]) (fun c => { c with cry := { c.cry with retest := [0] } })) (false) ([]) = true := by
  decide +kernel

theorem wit_entropyCalibrate : (fun (s : State) (req : Req) (source : Bool) => decide (s.chip.opens req R.CRY_ENT true = true ∧ s.chip.entSt (1 -
        srcOf source) = 0 ∧ s.chip.entSt (srcOf source) ≠ 3)) (up [(F.CRY_ENT_STATE1, 0)]) (reqSpindle) (false) = true := by
  decide +kernel

theorem wit_entropyCalibrate2 : (fun (s : State) (req : Req) (source : Bool) => decide (s.chip.opens req R.CRY_ENT true = true ∧ s.chip.entSt (1 -
        srcOf source) ≠ 0)) (up [(F.CRY_ENT_STATE1, 1)]) (reqSpindle) (false) = true := by
  decide +kernel

theorem wit_drbgKatFail : (fun (s : State) => decide (s.chip.svcUp = false)) (at_ []) = true := by
  decide +kernel

theorem wit_drbgKatFail2 : (fun (s : State) => decide (s.chip.svcUp = true ∧ s.chip.cry.kat = 0)) (up []) = true := by
  decide +kernel

theorem wit_drbgKatFail3 : (fun (s : State) => decide (s.chip.svcUp = true ∧ s.chip.cry.kat ≠ 0)) (md (up [(F.CRY_DRBG_STATUS_ERROR, 1)]) (fun c =>
        { c with cry := { c.cry with kat := 1 } })) = true := by
  decide +kernel

theorem wit_selftestRequest : (fun (s : State) (req : Req) (cls lane : BitVec 4) => decide (s.chip.opens req R.CRY_SELFTEST true = true ∧ cls = 6))
        (up []) (reqSpindle) (6) (0) = true := by
  decide +kernel

theorem wit_selftestRequest2 : (fun (s : State) (req : Req) (cls lane : BitVec 4) => decide (s.chip.opens req R.CRY_SELFTEST true = true ∧ cls = 0 ∧
        lane = 0 ∧ s.chip.cryDown 0x10 = false ∧ s.chip.laneSt 0 0 = 0 ∧ 2 ≤ (s.chip.laneFree 0).length)) (up []) (reqSpindle) (0) (0) = true := by
  decide +kernel

theorem wit_selftestRequest3 : (fun (s : State) (req : Req) (cls lane : BitVec 4) => decide (s.chip.opens req R.CRY_SELFTEST true = true ∧ 6 <
        cls.toNat)) (up []) (reqSpindle) (7) (0) = true := by
  decide +kernel

theorem wit_selftestPeriodic : (fun (s : State) => decide (s.chip.get F.CRY_CTRL_SELFTEST_EN = 0)) (up [(F.CRY_CTRL_SELFTEST_EN, 0)]) = true := by
  decide +kernel

theorem wit_selftestPeriodic2 : (fun (s : State) => decide (s.chip.svcUp = true ∧ s.chip.get F.CRY_CTRL_SELFTEST_EN = 1 ∧ s.chip.periodDue = true ∧
        s.chip.laneNext 0 = some 0 ∧ s.chip.grp 4 ≠ 3 ∧ bit (s.chip.get F.PWR_GRP_CTRL_DISABLE) 3 = false ∧ 2 ≤ (s.chip.laneFree 0).length)) (md (up
        [(F.CRY_CTRL_SELFTEST_EN, 1)]) (fun c => { c with time := 2 ^ 48 })) = true := by
  decide +kernel

theorem wit_laneDrained : (fun (s : State) (cls lane : Nat) => decide (s.chip.laneSt cls lane ≠ 1)) (up []) (0) (0) = true := by
  decide +kernel

theorem wit_laneDrained2 : (fun (s : State) (cls lane : Nat) => decide (s.chip.svcUp = true ∧ cls ≤ 5 ∧ lane < laneCount cls ∧ s.chip.laneSt cls lane
        = 1)) (up [(F.CRY_LANES1_KEC, 0x4000)]) (2) (7) = true := by
  decide +kernel

theorem wit_laneTestDone : (fun (s : State) (cls lane : Nat) (pass : Bool) => decide (s.chip.svcUp = true ∧ cls ≤ 5 ∧ lane < laneCount cls ∧
        s.chip.laneSt cls lane = 2 ∧ s.chip.grp (laneGroup cls) = 2 ∧ pass = true)) (up [(F.CRY_LANES1_KEC, 0x8000), (F.PWR_GRP_STATUS_STATE, 8)])
        (2) (7) (true) = true := by
  decide +kernel

theorem wit_laneTestDone2 : (fun (s : State) (cls lane : Nat) (pass : Bool) => decide (s.chip.svcUp = true ∧ cls ≤ 5 ∧ lane < laneCount cls ∧
        s.chip.laneSt cls lane = 2 ∧ s.chip.grp (laneGroup cls) = 2 ∧ pass = false ∧ (List.range (laneCount cls)).any (fun k => k != lane &&
        s.chip.laneSt cls k != 3) = true)) (up [(F.CRY_LANES1_KEC, 0x8000), (F.PWR_GRP_STATUS_STATE, 8)]) (2) (7) (false) = true := by
  decide +kernel

theorem wit_laneTestDone3 : (fun (s : State) (cls lane : Nat) (pass : Bool) => decide (s.chip.svcUp = true ∧ cls = 5 ∧ lane = 0 ∧ s.chip.laneSt 5 0 =
        2 ∧ s.chip.grp 5 = 2 ∧ pass = false)) (up [(F.CRY_LANES1_TLY, 2), (F.PWR_GRP_STATUS_STATE, 0x800)]) (5) (0) (false) = true := by
  decide +kernel

theorem wit_laneFault : (fun (s : State) (cls lane : Nat) (unit : LaneUnit) => decide (s.chip.laneSt cls lane ≠ 0)) (up [(F.CRY_LANES1_TLY, 1)]) (5)
        (0) (.idle) = true := by
  decide +kernel

theorem wit_laneFault2 : (fun (s : State) (cls lane : Nat) (unit : LaneUnit) => decide (s.chip.svcUp = true ∧ cls ≤ 5 ∧ lane < laneCount cls ∧
        s.chip.laneSt cls lane = 0 ∧ unit = .idle)) (up []) (4) (3) (.idle) = true := by
  decide +kernel

theorem wit_fabricAccessError : (fun (s : State) (req : Req) (addr size : Nat) (write : Bool) => decide ((shapeOk addr size write = false ∨ req.toNat
        = 0 ∨ 0xF0 ≤ req.toNat))) (up []) (1#8) (0x60001) (4) (true) = true := by
  decide +kernel

theorem wit_fabricAccessError2 : (fun (s : State) (req : Req) (addr size : Nat) (write : Bool) => decide ((shapeOk addr size write = false ∨
        req.toNat = 0 ∨ 0xF0 ≤ req.toNat))) (up []) (0xF6#8) (0) (4) (false) = true := by
  decide +kernel

theorem wit_fabricAccessError3 : (fun (s : State) (req : Req) (addr size : Nat) (write : Bool) => decide (shapeOk addr size write = true ∧ req.toNat
        ≠ 0 ∧ req.toNat < 0xF0)) (up []) (1#8) (0x20040) (64) (false) = true := by
  decide +kernel

theorem wit_pageAccessRefused : (fun (s : State) (req : Req) (off : Nat) (write sec : Bool) => decide (sec = s.chip.pins.reqSec ∧ s.chip.opens req
        off write = true)) (up []) (reqSpindle) (0x4) (false) (false) = true := by
  decide +kernel

theorem wit_pageAccessRefused2 : (fun (s : State) (req : Req) (off : Nat) (write sec : Bool) => decide (sec = s.chip.pins.reqSec ∧ badReq req = false
        ∧ s.chip.powered off = true ∧ s.chip.granted req off write = false)) (up []) (0xF0#8) (0x2000) (true) (false) = true := by
  decide +kernel

theorem wit_pageAccessRefused3 : (fun (s : State) (req : Req) (off : Nat) (write sec : Bool) => decide (sec = s.chip.pins.reqSec ∧ badReq req = false
        ∧ s.chip.powered off = true ∧ s.chip.granted req off write = false)) (up []) (1#8) (0x20000) (false) (false) = true := by
  decide +kernel

theorem wit_retrain : (fun (s : State) (req : Req) => decide (s.chip.opens req R.SKN_CTRL true = true)) (up [(F.SKN_STATUS_CW_LOCK, 1),
        (F.SKN_STATUS_CC_LOCK, 1)]) (reqSpindle) = true := by
  decide +kernel

theorem wit_retrain2 : (fun (s : State) (req : Req) => decide (s.chip.powered R.SKN_CTRL = true ∧ s.chip.granted req R.SKN_CTRL true = false)) (up
        [(F.SKN_STATUS_CW_LOCK, 1), (F.SKN_STATUS_CC_LOCK, 1)]) (0xF0#8) = true := by
  decide +kernel

theorem wit_ringEn : (fun (s : State) (req : Req) (value : Bool) => decide (s.chip.opens req R.SKN_CTRL true = true ∧ value = true)) (up [])
        (reqSpindle) (true) = true := by
  decide +kernel

theorem wit_ringEn2 : (fun (s : State) (req : Req) (value : Bool) => decide (s.chip.opens req R.SKN_CTRL true = true ∧ value = false)) (spl .inRing
        (up [(F.SKN_CTRL_RING_EN, 1)])) (reqSpindle) (false) = true := by
  decide +kernel

theorem wit_prekeyClear : (fun (s : State) (req : Req) => decide (s.chip.opens req R.SKN_CTRL true = true)) (up [(F.SKN_CTRL_PREKEY, 1)])
        (reqSpindle) = true := by
  decide +kernel

theorem wit_sknBridgeWrite : (fun (s : State) (req : Req) (n : Nat) (value : Word) => decide (s.chip.opens req (R.SKN_BRIDGE0 + 4 * min n 2) true =
        true)) (up [(F.SKN_CTRL_RING_EN, 1)]) (reqSpindle) (0) (0x80000001#32) = true := by
  decide +kernel

theorem wit_sknBridgeWrite2 : (fun (s : State) (req : Req) (n : Nat) (value : Word) => decide (s.chip.opens req (R.SKN_BRIDGE0 + 4 * min n 2) true =
        true)) (up []) (reqSpindle) (2) (0xFFFFFFFF#32) = true := by
  decide +kernel

theorem wit_skeinFrameReceive : (fun (s : State) (bytes : List Byte) => decide ((s.chip.svcUp = false ∨ s.chip.get F.SKN_CTRL_RING_EN = 0))) (at_ [])
        ([]) = true := by
  decide +kernel

theorem wit_skeinFrameReceive2 : (fun (s : State) (bytes : List Byte) => decide ((s.chip.svcUp = false ∨ s.chip.get F.SKN_CTRL_RING_EN = 0))) (up [])
        ([]) = true := by
  decide +kernel

theorem wit_skeinFrameReceive3 : (fun (s : State) (bytes : List Byte) => decide (s.chip.svcUp = true ∧ s.chip.get F.SKN_CTRL_RING_EN = 1 ∧ parseFrame
        bytes = none)) (up [(F.SKN_CTRL_RING_EN, 1)]) (List.replicate 32 1#8) = true := by
  decide +kernel

theorem wit_skeinFrameReceive4 : (fun (s : State) (bytes : List Byte) => decide (s.chip.svcUp = true ∧ s.chip.get F.SKN_CTRL_RING_EN = 1 ∧
        (parseFrame bytes).any (fun f => f.src == s.chip.node) = true)) (up [(F.SKN_CTRL_RING_EN, 1)]) (RingFrame.bytes
        ⟨0x60, 0, 64, 0, 7, 0, [], zeroTag⟩) = true := by
  decide +kernel

theorem wit_skeinFrameReceive5 : (fun (s : State) (bytes : List Byte) => decide (s.chip.svcUp = true ∧ s.chip.get F.SKN_CTRL_RING_EN = 1 ∧
        (parseFrame bytes).any (fun f => f.src != s.chip.node && !bit f.flags 5 && f.dst != s.chip.node) = true)) (up [(F.SKN_CTRL_RING_EN, 1)])
        (RingFrame.bytes ⟨0x60, 0, 1, 3, 7, 0, [], zeroTag⟩) = true := by
  decide +kernel

theorem wit_skeinFrameReceive6 : (fun (s : State) (bytes : List Byte) => decide (s.chip.svcUp = true ∧ s.chip.get F.SKN_CTRL_RING_EN = 1 ∧ s.chip.get
        F.SKN_CTRL_PREKEY = 1 ∧ (parseFrame bytes).any (fun f => f.src != s.chip.node && !bit f.flags 5 && f.dst == s.chip.node && !preKey f.typ) =
        true)) (up [(F.SKN_CTRL_RING_EN, 1)]) (RingFrame.bytes ⟨0x60, 0, 1, 64, 7, 0, [], zeroTag⟩) = true := by
  decide +kernel

theorem wit_skeinFrameReceive7 : (fun (s : State) (bytes : List Byte) => decide (s.chip.svcUp = true ∧ s.chip.get F.SKN_CTRL_RING_EN = 1 ∧ s.chip.get
        F.SKN_CTRL_PREKEY = 1 ∧ (parseFrame bytes).any (fun f => f.src != s.chip.node && !bit f.flags 5 && f.dst == s.chip.node && preKey f.typ &&
        f.typ != 0x7E && (s.chip.rx f.src f.rkey).fresh f.seq) = true)) (up [(F.SKN_CTRL_RING_EN, 1)]) (RingFrame.bytes
        ⟨0x41, 0, 1, 64, 7, 0, List.replicate 16 2#8, zeroTag⟩) = true := by
  decide +kernel

theorem wit_skeinFrameReceive8 : (fun (s : State) (bytes : List Byte) => decide (s.chip.svcUp = true ∧ s.chip.get F.SKN_CTRL_RING_EN = 1 ∧ s.chip.get
        F.SKN_CTRL_PREKEY = 1 ∧ (parseFrame bytes).any (fun f => f.src != s.chip.node && !bit f.flags 5 && f.dst == s.chip.node && preKey f.typ &&
        f.typ != 0x7E && !(s.chip.rx f.src f.rkey).fresh f.seq) = true)) (md (up [(F.SKN_CTRL_RING_EN, 1)]) (fun c =>
        { c with ring := { c.ring with replay := [(1, ⟨7, [7]⟩)] } })) (RingFrame.bytes ⟨0x41, 0, 1, 64, 7, 0, List.replicate 16 2#8, zeroTag⟩) =
        true := by
  decide +kernel

theorem wit_ringAck : (fun (s : State) => decide (s.chip.front 0x7E = none)) (up []) = true := by
  decide +kernel

theorem wit_ringAck2 : (fun (s : State) => decide ((s.chip.front 0x7E).any (fun m => decide (numAt m.payload 4 1 ≤ 1)) = true)) (md (inb
        [⟨0x7E, 3, 0, 0, [9#8, 0#8, 0#8, 0#8, 1#8]⟩] (up [])) (fun c =>
        { c with ring := { c.ring with held := [⟨⟨0x40, 0, 64, 3, 9, 0, [], []⟩, 1⟩] } })) = true := by
  decide +kernel

theorem wit_ringAck3 : (fun (s : State) => decide ((s.chip.front 0x7E).any (fun m => decide (2 ≤ numAt m.payload 4 1)) = true)) (md (inb
        [⟨0x7E, 3, 0, 0, [9#8, 0#8, 0#8, 0#8, 2#8]⟩] (up [])) (fun c =>
        { c with ring := { c.ring with held := [⟨⟨0x40, 0, 64, 3, 9, 0, [], []⟩, 1⟩] } })) = true := by
  decide +kernel

theorem wit_ringAckTimeout : (fun (s : State) (seq : Nat) => decide (s.chip.ringLive = false)) (up []) (9) = true := by
  decide +kernel

theorem wit_ringAckTimeout2 : (fun (s : State) (seq : Nat) => decide (s.chip.ringLive = true ∧ (s.chip.ring.held.find? (fun h => h.frame.seq ==
        seq)).any (fun h => decide (h.tries < s.chip.get F.SKN_RETRY_CFG_MAX_TRY)) = true)) (md (up [(F.SKN_CTRL_RING_EN, 1)]) (fun c =>
        { c with ring := { c.ring with held := [⟨⟨0x40, 0, 64, 3, 9, 0, [], []⟩, 1⟩] } })) (9) = true := by
  decide +kernel

theorem wit_ringAckTimeout3 : (fun (s : State) (seq : Nat) => decide (s.chip.ringLive = true ∧ (s.chip.ring.held.find? (fun h => h.frame.seq ==
        seq)).any (fun h => decide (s.chip.get F.SKN_RETRY_CFG_MAX_TRY ≤ h.tries) && h.frame.typ != 0x03) = true)) (md (up [(F.SKN_CTRL_RING_EN, 1)])
        (fun c => { c with ring := { c.ring with held := [⟨⟨0x40, 0, 64, 3, 9, 0, [], []⟩, 255⟩] } })) (9) = true := by
  decide +kernel

theorem wit_eventFwd : (fun (s : State) => decide (s.chip.leads = false)) (inb [⟨0x60, 3, 0, 0, []⟩] (up [])) = true := by
  decide +kernel

theorem wit_eventFwd2 : (fun (s : State) => decide (s.chip.leads = true ∧ (s.chip.front 0x60).any (fun m => s.chip.present m.src && numAt m.payload 9
        1 == m.src && fwdCodes.contains (numAt m.payload 10 2) && decide (tget s.chip.ring.fwdSeen m.src 0 < 64)) = true)) (inb
        [⟨0x60, 3, 0, 0, [0#8, 0#8, 0#8, 0#8, 0#8, 0#8, 0#8, 0#8, 0#8, 3#8, 3#8, 0x18#8]⟩] (up [(F.GEN_BOOT_PHASE, 0x40), (F.SKN_PRESENT0_NODES,
        8)])) = true := by
  decide +kernel

theorem wit_ringState : (fun (s : State) => decide ((s.chip.front 0x70).any (fun m => numAt m.payload 0 1 == 1 && !s.chip.brokenAt (numAt m.payload 1
        1) (numAt m.payload 2 1)) = true)) (inb [⟨0x70, 3, 0, 0, [1#8, 1#8, 2#8]⟩] (up [])) = true := by
  decide +kernel

theorem wit_ringState2 : (fun (s : State) => decide ((s.chip.front 0x70).any (fun m => numAt m.payload 0 1 == 2 && s.chip.ring.breaks == [(numAt
        m.payload 1 1, numAt m.payload 2 1)] && decide (numAt m.payload 1 1 < 66) && decide (numAt m.payload 2 1 < 66)) = true)) (md (inb
        [⟨0x70, 3, 0, 0, [2#8, 65#8, 2#8]⟩] (up [(F.SKN_STATUS_BREAK, 1)])) (fun c => { c with ring := { c.ring with breaks := [(65, 2)] } })) = true
        := by
  decide +kernel

theorem wit_spliceForce : (fun (s : State) => decide ((s.chip.front 0x71).any (fun m => numAt m.payload 1 1 != s.chip.node || m.src !=
        s.chip.partnerNode || s.chip.leads || (s.chip.linked && !s.chip.ply.lost && s.chip.ply.partner != 5)) = true)) (inb
        [⟨0x71, 65, 0, 0, [1#8, 63#8]⟩] (up [])) = true := by
  decide +kernel

theorem wit_spliceForce2 : (fun (s : State) => decide ((s.chip.front 0x71).any (fun m => numAt m.payload 1 1 == s.chip.node && m.src ==
        s.chip.partnerNode && !s.chip.leads && (!s.chip.linked || s.chip.ply.lost || s.chip.ply.partner == 5) && numAt m.payload 0 1 == 1) = true))
        (inb [⟨0x71, 65, 0, 0, [1#8, 64#8]⟩] (md (up []) (fun c => { c with ply := { c.ply with partner := 5 } }))) = true := by
  decide +kernel

theorem wit_spliceForce3 : (fun (s : State) => decide ((s.chip.front 0x71).any (fun m => numAt m.payload 1 1 == s.chip.node && m.src ==
        s.chip.partnerNode && !s.chip.leads && (!s.chip.linked || s.chip.ply.lost || s.chip.ply.partner == 5) && numAt m.payload 0 1 == 2) = true))
        (inb [⟨0x71, 65, 0, 0, [2#8, 64#8]⟩] (md (up []) (fun c => { c with ply := { c.ply with partner := 5 } }))) = true := by
  decide +kernel

theorem wit_spliceClose : (fun (s : State) (node : Nat) => decide (node = s.chip.node ∧ s.chip.ring.splice = .closing)) (spl .closing (up
        [(F.SKN_STATUS_CW_LOCK, 1)])) (64) = true := by
  decide +kernel

theorem wit_spliceClose2 : (fun (s : State) (node : Nat) => decide (node ≠ s.chip.node ∧ s.chip.ring.splice = .inRing ∧ s.chip.present node = true ∧
        s.chip.neighbour false = some node)) (spl .inRing (up [(F.SKN_PRESENT0_NODES, 0xF)])) (0) = true := by
  decide +kernel

theorem wit_spliceClose3 : (fun (s : State) (node : Nat) => decide (node ≠ s.chip.node ∧ s.chip.neighbour false ≠ some node ∧ s.chip.neighbour true ≠
        some node)) (spl .inRing (up [(F.SKN_PRESENT0_NODES, 0xF)])) (2) = true := by
  decide +kernel

theorem wit_segmentRetrained : (fun (s : State) (endA endB : Nat) => decide (s.chip.ring.splice = .retrain ∧ endA ≠ s.chip.node ∧ cwHops s.chip.pkg
        endA s.chip.node < cwHops s.chip.pkg endA endB)) (spl .retrain (up [])) (3) (0) = true := by
  decide +kernel

theorem wit_segmentRetrained2 : (fun (s : State) (endA endB : Nat) => decide ((s.chip.ring.splice = .bridged ∨ s.chip.ring.splice = .closing))) (spl
        .bridged (up [])) (64) (0) = true := by
  decide +kernel

theorem wit_segmentRetrained3 : (fun (s : State) (endA endB : Nat) => decide (s.chip.ring.splice = .inRing ∧ endB = s.chip.node ∧ (s.chip.ring.breaks
        = [(endA, endB)] ∨ s.chip.ring.breaks = []))) (spl .inRing (up [])) (3) (64) = true := by
  decide +kernel

theorem wit_segmentRetrained4 : (fun (s : State) (endA endB : Nat) => decide (s.chip.ring.splice = .opening ∧ endA = s.chip.node ∧ endB ≠ s.chip.node
        ∧ s.chip.get F.SKN_STATUS_CW_LOCK = 1)) (spl .opening (up [(F.SKN_STATUS_CW_LOCK, 1)])) (64) (0) = true := by
  decide +kernel

theorem wit_nodeReady : (fun (s : State) (node : Nat) => decide (node = s.chip.node ∧ s.chip.ring.splice = .bridged ∧ s.chip.ring.forced = false ∧
        s.chip.svcUp = true ∧ s.chip.get F.SKN_CTRL_RING_EN = 1)) (spl .bridged (up [(F.SKN_CTRL_RING_EN, 1)])) (64) = true := by
  decide +kernel

theorem wit_nodeReady2 : (fun (s : State) (node : Nat) => decide (node = s.chip.node ∧ s.chip.ring.forced = true)) (md (spl .bridged (up
        [(F.SKN_CTRL_RING_EN, 1)])) (fun c => { c with ring := { c.ring with forced := true } })) (64) = true := by
  decide +kernel

theorem wit_nodeReady3 : (fun (s : State) (node : Nat) => decide (node ≠ s.chip.node ∧ s.chip.present node = true)) (spl .inRing (up
        [(F.SKN_PRESENT0_NODES, 0xF)])) (3) = true := by
  decide +kernel

theorem wit_markerEmit : (fun (s : State) => decide ((s.chip.svcUp = false ∨ s.chip.get F.WHL_STATUS_IS_MASTER = 0 ∨ s.chip.get F.WHL_CTRL_MARKER_EN
        = 0 ∨ s.chip.get F.SKN_CTRL_RING_EN = 0))) (up []) = true := by
  decide +kernel

theorem wit_markerEmit2 : (fun (s : State) => decide (s.chip.svcUp = true ∧ s.chip.get F.WHL_STATUS_IS_MASTER = 1 ∧ s.chip.get F.WHL_CTRL_MARKER_EN =
        1 ∧ s.chip.get F.SKN_CTRL_RING_EN = 1)) (up [(F.WHL_STATUS_IS_MASTER, 1), (F.WHL_CTRL_MARKER_EN, 1), (F.SKN_CTRL_RING_EN, 1)]) = true := by
  decide +kernel

theorem wit_markerReceive : (fun (s : State) (cc : Bool) (bytes : List Byte) => decide ((s.chip.svcUp = false ∨ s.chip.get F.SKN_CTRL_RING_EN = 0 ∨
        numAt bytes 12 1 = s.chip.node))) (up [(F.SKN_CTRL_RING_EN, 1)]) (false) (markerBytes 0 0 0 64 0) = true := by
  decide +kernel

theorem wit_markerReceive2 : (fun (s : State) (cc : Bool) (bytes : List Byte) => decide (s.chip.svcUp = true ∧ s.chip.get F.SKN_CTRL_RING_EN = 1 ∧
        crc16 (bytes.take 14) = numAt bytes 14 2 ∧ numAt bytes 12 1 ≠ s.chip.node ∧ s.chip.ring.breaks = [] ∧ s.chip.get F.WHL_STATUS_IS_MASTER = 0 ∧
        cc = true)) (up [(F.SKN_CTRL_RING_EN, 1)]) (true) (markerBytes 5 0 0 65 0) = true := by
  decide +kernel

theorem wit_markerReceive3 : (fun (s : State) (cc : Bool) (bytes : List Byte) => decide (s.chip.svcUp = true ∧ s.chip.get F.SKN_CTRL_RING_EN = 1 ∧
        crc16 (bytes.take 14) = numAt bytes 14 2 ∧ numAt bytes 12 1 ≠ s.chip.node ∧ s.chip.ring.breaks = [] ∧ s.chip.get F.WHL_STATUS_IS_MASTER = 0 ∧
        cc = false)) (up [(F.SKN_CTRL_RING_EN, 1)]) (false) (markerBytes 5 0 65535 65 1) = true := by
  decide +kernel

theorem wit_markerReceive4 : (fun (s : State) (cc : Bool) (bytes : List Byte) => decide (s.chip.svcUp = true ∧ s.chip.get F.SKN_CTRL_RING_EN = 1 ∧
        crc16 (bytes.take 14) = numAt bytes 14 2 ∧ numAt bytes 12 1 ≠ s.chip.node ∧ s.chip.ring.breaks = [] ∧ s.chip.get F.WHL_STATUS_IS_MASTER = 1))
        (up [(F.SKN_CTRL_RING_EN, 1), (F.WHL_STATUS_IS_MASTER, 1)]) (true) (markerBytes 5 0 0 65 0) = true := by
  decide +kernel

theorem wit_slotBoundaryCorrection : (fun (s : State) => decide ((s.chip.svcUp = false ∨ s.chip.time % 256 ≠ 0))) (md (up []) (fun c =>
        { c with time := 255 })) = true := by
  decide +kernel

theorem wit_slotBoundaryCorrection2 : (fun (s : State) => decide (s.chip.svcUp = true ∧ s.chip.time % 256 = 0 ∧ 0 ≤ s.chip.whl.adj -
        s.chip.whl.corr)) (md (up []) (fun c => { c with time := 2 ^ 64 - 256, whl := { c.whl with adj := 300, corr := -1 } })) = true := by
  decide +kernel

theorem wit_slotBoundaryCorrection3 : (fun (s : State) => decide (s.chip.svcUp = true ∧ s.chip.time % 256 = 0 ∧ s.chip.whl.adj - s.chip.whl.corr <
        0)) (md (up []) (fun c => { c with time := 512, whl := { c.whl with corr := 5 } })) = true := by
  decide +kernel

theorem wit_markerTimeout : (fun (s : State) => decide ((s.chip.get F.WHL_STATUS_IS_MASTER = 1 ∨ s.chip.get F.WHL_STATUS_ALIGN = 0 ∨ s.chip.slot <
        s.chip.whl.seen + 64))) (up [(F.WHL_STATUS_ALIGN, 2)]) = true := by
  decide +kernel

theorem wit_markerTimeout2 : (fun (s : State) => decide (s.chip.svcUp = true ∧ s.chip.get F.WHL_STATUS_IS_MASTER = 0 ∧ s.chip.get F.WHL_STATUS_ALIGN
        ≠ 0 ∧ s.chip.whl.seen + 64 ≤ s.chip.slot)) (md (up [(F.WHL_STATUS_ALIGN, 2)]) (fun c => { c with time := 16384 })) = true := by
  decide +kernel

theorem wit_xpkgTimeReport : (fun (s : State) (ch : Nat) (frame : WarpFrame) => decide (s.chip.svcUp = true ∧ s.chip.leads = true ∧ s.chip.get
        F.WHL_STATUS_IS_MASTER = 1 ∧ s.chip.get F.WHL_XPKG_CTRL_MODE = 2 ∧ s.chip.get F.WHL_XPKG_CTRL_CH = ch % 8 ∧ frame.op = 0x87 ∧ frame.result =
        0 ∧ frame.sub = 0xFFFD ∧ frame.bobbin = 0)) (up [(F.GEN_BOOT_PHASE, 0x40), (F.WHL_STATUS_IS_MASTER, 1), (F.WHL_XPKG_CTRL_MODE, 2),
        (F.WHL_XPKG_CTRL_CH, 3)]) (11) (⟨0x87, 0, 0xFFFD, 0, 0, 100, [], [], 116⟩) = true := by
  decide +kernel

theorem wit_xpkgTimeReport2 : (fun (s : State) (ch : Nat) (frame : WarpFrame) => decide (s.chip.svcUp = true ∧ s.chip.leads = true ∧ s.chip.get
        F.WHL_STATUS_IS_MASTER = 1 ∧ s.chip.get F.WHL_XPKG_CTRL_MODE = 2 ∧ s.chip.get F.WHL_XPKG_CTRL_CH = ch % 8 ∧ frame.op = 0x87 ∧ frame.result =
        0 ∧ frame.sub = 0xFFFD ∧ frame.bobbin = 0)) (up [(F.GEN_BOOT_PHASE, 0x40), (F.WHL_STATUS_IS_MASTER, 1), (F.WHL_XPKG_CTRL_MODE, 2),
        (F.WHL_STATUS_XPKG_ALIGNED, 1)]) (0) (⟨0x87, 0, 0xFFFD, 0, 0, 117, [], [], 100⟩) = true := by
  decide +kernel

theorem wit_xpkgTimeReport3 : (fun (s : State) (ch : Nat) (frame : WarpFrame) => decide (s.chip.svcUp = true ∧ s.chip.leads = true ∧ s.chip.get
        F.WHL_STATUS_IS_MASTER = 0)) (up [(F.GEN_BOOT_PHASE, 0x40)]) (0) (⟨0x87, 0, 0xFFFD, 0, 0, 100, [], [], 116⟩) = true := by
  decide +kernel

theorem wit_xpkgReportTimeout : (fun (s : State) => decide ((s.chip.get F.WHL_STATUS_IS_MASTER = 0 ∨ s.chip.get F.WHL_XPKG_CTRL_MODE ≠ 2 ∨
        s.chip.slot < s.chip.whl.xpkgAt + 64))) (up [(F.WHL_STATUS_IS_MASTER, 1), (F.WHL_XPKG_CTRL_MODE, 2)]) = true := by
  decide +kernel

theorem wit_xpkgReportTimeout2 : (fun (s : State) => decide (s.chip.svcUp = true ∧ s.chip.get F.WHL_STATUS_IS_MASTER = 1 ∧ s.chip.get
        F.WHL_XPKG_CTRL_MODE = 2 ∧ s.chip.whl.xpkgAt + 64 ≤ s.chip.slot)) (md (up [(F.WHL_STATUS_IS_MASTER, 1), (F.WHL_XPKG_CTRL_MODE, 2),
        (F.WHL_STATUS_XPKG_ALIGNED, 1)]) (fun c => { c with time := 16384 })) = true := by
  decide +kernel

theorem wit_whlTimeRead : (fun (s : State) (req : Req) => decide (s.chip.opens req R.WHL_TIME_LO false = true)) (md (up []) (fun c =>
        { c with time := 2 ^ 64 - 1 })) (reqSpindle) = true := by
  decide +kernel

theorem wit_whlTimeRead2 : (fun (s : State) (req : Req) => decide (s.chip.powered R.WHL_TIME_LO = true ∧ s.chip.granted req R.WHL_TIME_LO false =
        false)) (md (up []) (fun c => { c with time := 2 ^ 64 - 1 })) (1#8) = true := by
  decide +kernel

theorem wit_schedule : (fun (s : State) (req : Req) => decide (s.chip.opens req R.WHL_LAUNCH_CTRL true = true ∧ s.chip.get F.WHL_STATUS_IS_MASTER =
        0)) (up []) (reqSpindle) = true := by
  decide +kernel

theorem wit_schedule2 : (fun (s : State) (req : Req) => decide (s.chip.opens req R.WHL_LAUNCH_CTRL true = true ∧ s.chip.schedStatus (s.chip.get64
        R.WHL_SCHED_SLOT_LO) (s.chip.rd R.WHL_SCHED_CFG).toNat (s.chip.get F.WHL_SCHED_GRACE_SLOTS) = .ok)) (md (up [(F.GEN_BOOT_PHASE, 0x40),
        (F.WHL_STATUS_IS_MASTER, 1), (F.WHL_STATUS_ALIGN, 2), (F.WHL_CTRL_SCHED_EN, 1), (F.WHL_SCHED_GRACE_SLOTS, 0)]) (fun c => (c.wr
        R.WHL_SCHED_SLOT_LO 64#32).wr R.WHL_SCHED_CFG 0x10001#32)) (reqSpindle) = true := by
  decide +kernel

theorem wit_schedule3 : (fun (s : State) (req : Req) => decide (s.chip.opens req R.WHL_LAUNCH_CTRL true = true ∧ s.chip.schedStatus (s.chip.get64
        R.WHL_SCHED_SLOT_LO) (s.chip.rd R.WHL_SCHED_CFG).toNat (s.chip.get F.WHL_SCHED_GRACE_SLOTS) = .clamped)) (md (up [(F.GEN_BOOT_PHASE, 0x40),
        (F.WHL_STATUS_IS_MASTER, 1), (F.WHL_STATUS_ALIGN, 2), (F.WHL_CTRL_SCHED_EN, 1), (F.WHL_SCHED_GRACE_SLOTS, 255)]) (fun c => (c.wr
        R.WHL_SCHED_SLOT_LO 64#32).wr R.WHL_SCHED_CFG 0x10001#32)) (reqSpindle) = true := by
  decide +kernel

theorem wit_whlCancel : (fun (s : State) (req : Req) (entry : BitVec 4) => decide (s.chip.opens req R.WHL_LAUNCH_CTRL true = true ∧ s.chip.leads =
        false)) (up []) (reqSpindle) (15) = true := by
  decide +kernel

theorem wit_whlCancel2 : (fun (s : State) (req : Req) (entry : BitVec 4) => decide (s.chip.opens req R.WHL_LAUNCH_CTRL true = true ∧ s.chip.leads =
        true ∧ s.chip.lst entry.toNat = 0)) (up [(F.GEN_BOOT_PHASE, 0x40)]) (reqSpindle) (15) = true := by
  decide +kernel

theorem wit_whlCancel3 : (fun (s : State) (req : Req) (entry : BitVec 4) => decide (s.chip.opens req R.WHL_LAUNCH_CTRL true = true ∧ s.chip.leads =
        true ∧ s.chip.lst entry.toNat = 1 ∧ s.chip.slot < s.chip.lhorizon entry.toNat)) (md (up [(F.GEN_BOOT_PHASE, 0x40), (cp F.WHL_Ln_STATE_STATE
        15, 1), (cp F.WHL_Ln_STATE_CANCEL_LEAD 15, 16)]) (fun c => c.wr (R.WHL_Ln_SLOT_LO 15) 17#32)) (reqSpindle) (15) = true := by
  decide +kernel

theorem wit_whlCancel4 : (fun (s : State) (req : Req) (entry : BitVec 4) => decide (s.chip.opens req R.WHL_LAUNCH_CTRL true = true ∧ s.chip.leads =
        true ∧ (s.chip.lst entry.toNat = 2 ∨ s.chip.lst entry.toNat = 3 ∨ s.chip.lst entry.toNat = 4 ∨ (s.chip.lst entry.toNat = 1 ∧ s.chip.lhorizon
        entry.toNat ≤ s.chip.slot)))) (up [(F.GEN_BOOT_PHASE, 0x40), (F.WHL_Ln_STATE_STATE, 4)]) (reqSpindle) (0) = true := by
  decide +kernel

theorem wit_whlFree : (fun (s : State) (req : Req) (entry : BitVec 4) => decide (s.chip.opens req R.WHL_LAUNCH_CTRL true = true ∧ (s.chip.lst
        entry.toNat = 4 ∨ s.chip.lst entry.toNat = 6))) (up [(cp F.WHL_Ln_STATE_STATE 15, 4)]) (reqSpindle) (15) = true := by
  decide +kernel

theorem wit_whlFree2 : (fun (s : State) (req : Req) (entry : BitVec 4) => decide (s.chip.opens req R.WHL_LAUNCH_CTRL true = true ∧ s.chip.lst
        entry.toNat ≠ 4 ∧ s.chip.lst entry.toNat ≠ 6)) (up []) (reqSpindle) (15) = true := by
  decide +kernel

theorem wit_launchHorizon : (fun (s : State) (n : BitVec 4) => decide ((s.chip.lst n.toNat ≠ 1 ∨ s.chip.slot < s.chip.lhorizon n.toNat))) (up [])
        (15) = true := by
  decide +kernel

theorem wit_launchHorizon2 : (fun (s : State) (n : BitVec 4) => decide (s.chip.lst n.toNat = 1 ∧ s.chip.lhorizon n.toNat ≤ s.chip.slot)) (md (up [(cp
        F.WHL_Ln_STATE_STATE 15, 1)]) (fun c => c.wr (R.WHL_Ln_SLOT_LO 15) 16#32)) (15) = true := by
  decide +kernel

theorem wit_launchFinalPoint : (fun (s : State) (n : BitVec 4) => decide ((s.chip.leads = false ∨ s.chip.lst n.toNat ≠ 2 ∨ s.chip.geti
        F.WHL_Ln_STATE_FINAL n.toNat = 1 ∨ s.chip.slot + 16 < s.chip.lslot n.toNat))) (up []) (15) = true := by
  decide +kernel

theorem wit_launchFinalPoint2 : (fun (s : State) (n : BitVec 4) => decide (s.chip.leads = true ∧ s.chip.ply.lost = false ∧ s.chip.lst n.toNat = 2 ∧
        s.chip.slot < s.chip.lslot n.toNat ∧ s.chip.lslot n.toNat ≤ s.chip.slot + 16)) (md (up [(F.GEN_BOOT_PHASE, 0x40), (cp F.WHL_Ln_STATE_STATE
        15, 2)]) (fun c => c.wr (R.WHL_Ln_SLOT_LO 15) 16#32)) (15) = true := by
  decide +kernel

theorem wit_launchFire : (fun (s : State) (n : BitVec 4) => decide ((s.chip.lst n.toNat = 0 ∨ s.chip.lst n.toNat = 3))) (up []) (15) = true := by
  decide +kernel

theorem wit_launchFire2 : (fun (s : State) (n : BitVec 4) => decide (s.chip.lst n.toNat = 2 ∧ s.chip.lslot n.toNat ≤ s.chip.slot ∧ (List.range
        n.toNat).any (fun m => (s.chip.lst m == 1 || s.chip.lst m == 2) && s.chip.lslot m == s.chip.lslot n.toNat) = false ∧ (s.chip.bound
        (s.chip.lnum n.toNat)).length ≤ 2 ^ 20)) (up [(cp F.WHL_Ln_STATE_STATE 15, 2)]) (15) = true := by
  decide +kernel

theorem wit_launchGraceEnd : (fun (s : State) (n : BitVec 4) => decide ((s.chip.lst n.toNat ≠ 3 ∨ s.chip.slot < s.chip.lslot n.toNat + s.chip.lgrace
        n.toNat))) (up []) (15) = true := by
  decide +kernel

theorem wit_launchGraceEnd2 : (fun (s : State) (n : BitVec 4) => decide (s.chip.lst n.toNat = 3 ∧ s.chip.lslot n.toNat + s.chip.lgrace n.toNat ≤
        s.chip.slot)) (md (up [(cp F.WHL_Ln_STATE_STATE 15, 3), (cp F.WHL_Ln_STATE_RESULT 15, 1), (cp F.WHL_Ln_CFG_RING 15, 1)]) (fun c =>
        { c with time := 2 ^ 40 })) (15) = true := by
  decide +kernel

theorem wit_launchRepeat : (fun (s : State) (n : BitVec 4) => decide ((s.chip.lrepeatDue n.toNat = false ∨ s.chip.leads = false ∨ (s.chip.lst n.toNat
        ≠ 1 ∧ s.chip.lst n.toNat ≠ 2)))) (up []) (15) = true := by
  decide +kernel

theorem wit_launchRepeat2 : (fun (s : State) (n : BitVec 4) => decide (s.chip.lrepeatDue n.toNat = true ∧ s.chip.leads = true ∧ s.chip.ringLive =
        true ∧ (s.chip.lst n.toNat = 1 ∨ s.chip.lst n.toNat = 2))) (md (up [(F.GEN_BOOT_PHASE, 0x40), (F.SKN_CTRL_RING_EN, 1), (cp
        F.WHL_Ln_STATE_STATE 15, 1)]) (fun c => { (c.wr (R.WHL_Ln_SLOT_LO 15) 2000#32) with time := 256 * 1024 })) (15) = true := by
  decide +kernel

theorem wit_launchCancelRepeat : (fun (s : State) (num : Nat) => decide ((s.chip.whl.cancels.find? (fun e => e.1 == num)) = none)) (up []) (1) = true
        := by
  decide +kernel

theorem wit_launchCancelRepeat2 : (fun (s : State) (num : Nat) => decide (s.chip.leads = true ∧ s.chip.ringLive = true ∧ (s.chip.whl.cancels.find?
        (fun e => e.1 == num)).any (fun e => decide (e.2.1 + 4 ≤ s.chip.slot)) = true)) (md (up [(F.GEN_BOOT_PHASE, 0x40), (F.SKN_CTRL_RING_EN, 1)])
        (fun c => { c with time := 1024, whl := { c.whl with cancels := [(9, 0, 1, 77)] } })) (9) = true := by
  decide +kernel

theorem wit_launchRequest : (fun (s : State) (n : Nat) => decide (s.chip.callReady n 0x0020 = true ∧ s.chip.get F.WHL_STATUS_IS_MASTER = 0)) (callIn
        0x20 0 [] (up [])) (0) = true := by
  decide +kernel

theorem wit_launchRequest2 : (fun (s : State) (n : Nat) => decide (s.chip.callReady n 0x0020 = true ∧ s.chip.schedStatus (numAt (s.chip.callInput n)
        0 8) (numAt (s.chip.callInput n) 8 4) (numAt (s.chip.callInput n) 16 4) = .ok ∧ s.chip.strandPolicy (numAt (s.chip.callInput n) 8 4) (numAt
        (s.chip.callInput n) 12 4) = .ok)) (callB 0x20 (pack [(8, 64), (4, 0x10001), (4, 0), (4, 0)]) 0 [] (up [(F.GEN_BOOT_PHASE, 0x40),
        (F.WHL_STATUS_IS_MASTER, 1), (F.WHL_STATUS_ALIGN, 2), (F.WHL_CTRL_SCHED_EN, 1)])) (0) = true := by
  decide +kernel

theorem wit_launchCancel : (fun (s : State) (n : Nat) => decide (s.chip.callReady n 0x0021 = true ∧ (List.range 16).all (fun e => s.chip.lnum e == 0)
        = true)) (callIn 0x21 0 [] (up [])) (0) = true := by
  decide +kernel

theorem wit_launchCancel2 : (fun (s : State) (n : Nat) => decide (s.chip.callReady n 0x0021 = true ∧ s.chip.leads = true ∧ ((List.range 16).find?
        (fun e => s.chip.lnum e == numAt (s.chip.callInput n) 0 4 && numAt (s.chip.callInput n) 0 4 != 0)).any (fun e => s.chip.lst e == 1 && decide
        (s.chip.slot < s.chip.lhorizon e)) = true)) (md (callB 0x21 (pack [(4, 7)]) 0 [] (up [(F.GEN_BOOT_PHASE, 0x40), (cp F.WHL_Ln_STATE_STATE 15,
        1), (cp F.WHL_Ln_STATE_CANCEL_LEAD 15, 16)])) (fun c => (c.wr (R.WHL_Ln_SLOT_LO 15) 17#32).wr (R.WHL_Ln_NUM 15) 7#32)) (0) = true := by
  decide +kernel

theorem wit_dtmRov : (fun (s : State) (core : Nat) (op : DmiOp) => decide (s.chip.jtagOk 0x10 = true ∧ core < 6 ∧ s.chip.svcUp = true ∧ op =
        .inCore)) (up [(F.LCS_STATE_CURRENT, 1)]) (5) (.inCore) = true := by
  decide +kernel

theorem wit_dtmRov2 : (fun (s : State) (core : Nat) (op : DmiOp) => decide (s.chip.jtagOk 0x10 = true ∧ core < 6 ∧ s.chip.svcUp = true ∧ op = .halt ∧
        s.chip.get F.DBG_CTRL_BREAK_ROV = 1 ∧ s.chip.coreHalted core = false ∧ s.chip.coreSt core = 1 ∧ 2 ≤ s.chip.othersFree core)) (up
        [(F.LCS_STATE_CURRENT, 1), (F.DBG_CTRL_BREAK_ROV, 1), (cp F.COR_CORE_STATUSn_STATE 0, 1), (cp F.COR_CORE_STATUSn_STATE 1, 1), (cp
        F.COR_CORE_STATUSn_STATE 2, 1)]) (0) (.halt) = true := by
  decide +kernel

theorem wit_dtmSpn : (fun (s : State) (op : DmiOp) => decide (s.chip.jtagOk 0x11 = true ∧ s.chip.svcUp = true ∧ op = .resume)) (up
        [(F.LCS_STATE_CURRENT, 1), (F.DBG_STATUS_SPN_HALTED, 1)]) (.resume) = true := by
  decide +kernel

theorem wit_dtmSpn2 : (fun (s : State) (op : DmiOp) => decide (s.chip.jtagOk 0x11 = true ∧ s.chip.svcUp = true ∧ op = .halt ∧ s.chip.get
        F.DBG_STATUS_SPN_HALTED = 0)) (up [(F.LCS_STATE_CURRENT, 1)]) (.halt) = true := by
  decide +kernel

theorem wit_otpPort : (fun (s : State) (write : Bool) (sel : BitVec 4) (data : Word) => decide (s.chip.jtagOk 0x20 = true ∧ write = false)) (up
        [(F.LCS_STATE_CURRENT, 1)]) (false) (3) (0) = true := by
  decide +kernel

theorem wit_otpPort2 : (fun (s : State) (write : Bool) (sel : BitVec 4) (data : Word) => decide (s.chip.jtagOk 0x20 = true ∧ write = true ∧ sel = 2 ∧
        s.chip.otp.busy = false ∧ data.toNat < 4096)) (up [(F.LCS_STATE_CURRENT, 1)]) (true) (2) (0xFFF#32) = true := by
  decide +kernel

theorem wit_lcPort : (fun (s : State) (write : Bool) (sel : BitVec 4) (data : Word) => decide (s.chip.jtagOk 0x21 = true ∧ write = false)) (up [])
        (false) (1) (0) = true := by
  decide +kernel

theorem wit_lcPort2 : (fun (s : State) (write : Bool) (sel : BitVec 4) (data : Word) => decide (s.chip.jtagOk 0x21 = true ∧ write = true ∧ sel = 15 ∧
        s.chip.get F.LCS_STATUS_BUSY = 0)) (up []) (true) (15) (0xFFFFFFFF#32) = true := by
  decide +kernel

theorem wit_entRaw : (fun (s : State) (data samples : Word) => decide (s.chip.jtagOk 0x22 = true)) (up [(F.LCS_STATE_CURRENT, 1)]) (3#32)
        (0xFFFFFFFF#32) = true := by
  decide +kernel

theorem wit_halt : (fun (s : State) (req : Req) (core : Nat) => decide (s.chip.opens req (R.DBG_COREc_CTRL core) true = true ∧ core < 6 ∧ s.chip.get
        F.DBG_CTRL_BREAK_ROV = 1 ∧ s.chip.coreHalted core = false ∧ s.chip.coreSt core = 1 ∧ 2 ≤ s.chip.othersFree core)) (up [(F.DBG_CTRL_BREAK_ROV,
        1), (cp F.COR_CORE_STATUSn_STATE 5, 1), (cp F.COR_CORE_STATUSn_STATE 1, 1), (cp F.COR_CORE_STATUSn_STATE 2, 1)]) (reqSpindle) (5) = true := by
  decide +kernel

theorem wit_halt2 : (fun (s : State) (req : Req) (core : Nat) => decide (s.chip.opens req (R.DBG_COREc_CTRL core) true = true ∧ core < 6 ∧ s.chip.get
        F.DBG_CTRL_BREAK_ROV = 0)) (up []) (reqSpindle) (0) = true := by
  decide +kernel

theorem wit_dbgStep : (fun (s : State) (req : Req) (core : Nat) => decide (s.chip.opens req (R.DBG_COREc_CTRL core) true = true ∧ core < 6 ∧
        s.chip.coreHalted core = true)) (up [(cp F.DBG_COREc_STATUS_STATE 3, 1)]) (reqSpindle) (3) = true := by
  decide +kernel

theorem wit_dbgResume : (fun (s : State) (req : Req) (core : Nat) => decide (s.chip.opens req (R.DBG_COREc_CTRL core) true = true ∧ core < 6 ∧
        s.chip.coreHalted core = true)) (up [(cp F.DBG_COREc_STATUS_STATE 3, 1)]) (reqSpindle) (3) = true := by
  decide +kernel

theorem wit_breakpointMatch : (fun (s : State) (core b pc : Nat) => decide (core < 6 ∧ b < 4 ∧ s.chip.svcUp = true ∧ s.chip.coreFree core = true ∧
        wget 0 0 (s.chip.rd (bpOff core b)) = 1 ∧ wget 1 1 (s.chip.rd (bpOff core b)) = 0 ∧ bitsOf pc 31 2 = wget 31 2 (s.chip.rd (bpOff core b)) ∧
        s.chip.get F.DBG_CTRL_BREAK_ROV = 1 ∧ 2 ≤ s.chip.othersFree core)) (md (up [(F.DBG_CTRL_BREAK_ROV, 1), (cp F.COR_CORE_STATUSn_STATE 5, 1),
        (cp F.COR_CORE_STATUSn_STATE 1, 1), (cp F.COR_CORE_STATUSn_STATE 2, 1)]) (fun c => c.wr (bpOff 5 3) 0x105#32)) (5) (3) (0x104) = true := by
  decide +kernel

theorem wit_breakRovClear : (fun (s : State) (req : Req) => decide (s.chip.opens req R.DBG_CTRL true = true ∧ s.chip.get F.DBG_CTRL_BREAK_ROV = 1))
        (up [(F.DBG_CTRL_BREAK_ROV, 1), (cp F.DBG_COREc_STATUS_STATE 3, 1)]) (reqSpindle) = true := by
  decide +kernel

theorem wit_traceRovClear : (fun (s : State) (req : Req) => decide (s.chip.opens req R.DBG_CTRL true = true ∧ s.chip.get F.DBG_CTRL_TRACE_ROV = 1))
        (up [(F.DBG_CTRL_TRACE_ROV, 1)]) (reqSpindle) = true := by
  decide +kernel

theorem wit_cntRovClear : (fun (s : State) (req : Req) => decide (s.chip.opens req R.DBG_CTRL true = true ∧ s.chip.get F.DBG_CTRL_CNT_ROV = 1)) (up
        [(F.DBG_CTRL_CNT_ROV, 1)]) (reqSpindle) = true := by
  decide +kernel

theorem wit_traceArm : (fun (s : State) (req : Req) (t : Nat) => decide (s.chip.opens req (R.DBG_TRt_CTRL t) true = true ∧ t < 16 ∧ s.chip.geti
        F.DBG_TRt_CTRL_MODE t = 1 ∧ s.chip.geti F.DBG_TRt_CTRL_EN t = 1)) (up [(cp F.DBG_TRt_CTRL_MODE 15, 1), (cp F.DBG_TRt_CTRL_EN 15, 1)])
        (reqSpindle) (15) = true := by
  decide +kernel

theorem wit_traceTrigger : (fun (s : State) (t cause bp code : Nat) => decide (s.chip.svcUp = true ∧ cause = 2 ∧ t < 6 ∧ bp < 4 ∧ wget 1 0 (s.chip.rd
        (bpOff t bp)) = 3 ∧ s.chip.get F.DBG_CTRL_TRACE_ROV = 1 ∧ s.chip.geti F.DBG_TRt_STATUS_STATE t = 2)) (md (up [(F.DBG_CTRL_TRACE_ROV, 1), (cp
        F.DBG_TRt_STATUS_STATE 5, 2)]) (fun c => c.wr (bpOff 5 3) 3#32)) (5) (2) (3) (0) = true := by
  decide +kernel

theorem wit_swTrig : (fun (s : State) (req : Req) (t : Nat) => decide (s.chip.opens req (R.DBG_TRt_CTRL t) true = true ∧ t < 15 ∧ s.chip.geti
        F.DBG_TRt_STATUS_STATE t = 2)) (up [(cp F.DBG_TRt_STATUS_STATE 14, 2)]) (reqSpindle) (14) = true := by
  decide +kernel

theorem wit_traceFlush : (fun (s : State) (req : Req) (t : Nat) => decide (s.chip.opens req (R.DBG_TRt_CTRL t) true = true ∧ t < 17)) (up [])
        (reqSpindle) (16) = true := by
  decide +kernel

theorem wit_traceHoldTimer : (fun (s : State) (t : Nat) => decide (s.chip.svcUp = true ∧ t < 17 ∧ s.chip.traceHeld t = true)) (md (up []) (fun c =>
        { c.trSet 3 { c.trSrc 3 with recs := [[]] } with time := 2000000 })) (3) = true := by
  decide +kernel

theorem wit_tracePortRead : (fun (s : State) (req : Req) (t : Nat) => decide (s.chip.opens req (0x14000 + 0x100 * t) false = true ∧ t < 17)) (up [])
        (reqSpindle) (16) = true := by
  decide +kernel

theorem wit_counterSample : (fun (s : State) (boundary : List (BitVec 8)) => decide (s.chip.svcUp = true ∧ s.chip.get F.DBG_CNT_CFG_EN = 1 ∧
        s.chip.slot % 2 ^ s.chip.get F.DBG_CNT_CFG_K = 0 ∧ (List.range 8).all (fun g => decide ((tget s.chip.dbg.smp g {}).recs.length < 64)) =
        true)) (up [(F.DBG_CNT_CFG_EN, 1)]) ([]) = true := by
  decide +kernel

theorem wit_samplePortRead : (fun (s : State) (req : Req) (g : BitVec 3) => decide (s.chip.opens req (0x16000 + 0x100 * g.toNat) false = true)) (up
        []) (reqSpindle) (7) = true := by
  decide +kernel

theorem wit_counterRead : (fun (s : State) (req : Req) (i : BitVec 6) => decide (s.chip.opens req (R.DBG_CNTi_LO i.toNat) false = true)) (up [])
        (reqSpindle) (63) = true := by
  decide +kernel

theorem wit_noilFreeze : (fun (s : State) (req : Req) => decide (s.chip.opens req R.DBG_NOIL_CTRL true = true ∧ s.chip.get F.DBG_NOIL_STATUS_FROZEN =
        0)) (up []) (reqSpindle) = true := by
  decide +kernel

theorem wit_unfreeze : (fun (s : State) (req : Req) => decide (s.chip.opens req R.DBG_NOIL_CTRL true = true)) (up [(F.DBG_NOIL_STATUS_FROZEN, 1)])
        (reqSpindle) = true := by
  decide +kernel

theorem wit_noilDataRead : (fun (s : State) (req : Req) => decide (s.chip.opens req R.DBG_NOIL_DATA false = true ∧ s.chip.dbg.noilWord < 3)) (up [])
        (reqSpindle) = true := by
  decide +kernel

theorem wit_dbgSpnTraceWrite : (fun (s : State) (req : Req) (value : Word) => decide (s.chip.opens req R.DBG_SPN_TRACE true = true ∧
        s.chip.dbg.spn.length < 7)) (up []) (reqSpindle) (9#32) = true := by
  decide +kernel

theorem wit_genEvtDataRead : (fun (s : State) (req : Req) => decide (s.chip.opens req R.GEN_EVT_DATA false = true ∧ req = reqSpindle ∧
        s.chip.logs.svcWord < 7 ∧ s.chip.logs.svc ≠ [])) (md (up []) (fun c => { c with logs := { c.logs with svc := [⟨5, 1, 0x0101, []⟩] } }))
        (reqSpindle) = true := by
  decide +kernel

theorem wit_genAevDataRead : (fun (s : State) (req : Req) => decide (s.chip.opens req R.GEN_AEV_DATA false = true ∧ req = reqSpindle ∧
        s.chip.logs.aonWord < 7 ∧ s.chip.logs.aon ≠ [])) (md (up []) (fun c => { c with logs := { c.logs with aon := [⟨5, 1, 0x0101, []⟩] } }))
        (reqSpindle) = true := by
  decide +kernel

theorem wit_softwareRecord : (fun (s : State) (core : Nat) (value : BitVec 64) => decide (core < 6 ∧ s.chip.svcUp = true ∧ s.chip.coreFree core =
        true)) (up [(cp F.COR_CORE_STATUSn_STATE 5, 1)]) (5) (7#64) = true := by
  decide +kernel

theorem wit_dmaChTailWrite : (fun (s : State) (req : Req) (n : BitVec 5) (idx : BitVec 10) => decide (s.chip.opens req (R.DMA_CHn_TAIL n.toNat) true
        = true ∧ idx.toNat < 2 ^ s.chip.geti F.DMA_CHn_CFG_LOG2 n.toNat ∧ 1 ≤ (s.chip.dmRead n.toNat []).op ∧ (s.chip.dmRead n.toNat []).op ≤ 4))
        (putD 31 (dsc 1) (up [(cp F.DMA_CHn_CFG_LOG2 31, 10)])) (reqSpindle) (31) (1023) = true := by
  decide +kernel

theorem wit_copy : (fun (s : State) (n : BitVec 5) => decide (s.chip.dmReady n.toNat = true ∧ (s.chip.dmRead n.toNat []).op = 1 ∧ bit (s.chip.dmRead
        n.toNat []).flags 0 = true ∧ s.chip.dmCheck n.toNat (s.chip.dmRead n.toNat []) = .ok)) (putD 4 (dsc 1) chan1) (4) = true := by
  decide +kernel

theorem wit_fill : (fun (s : State) (n : BitVec 5) => decide (s.chip.dmReady n.toNat = true ∧ (s.chip.dmRead n.toNat []).op = 2 ∧ bit (s.chip.dmRead
        n.toNat []).flags 0 = true ∧ s.chip.dmCheck n.toNat (s.chip.dmRead n.toNat []) = .ok)) (putD 4 (dsc 2) chan1) (4) = true := by
  decide +kernel

theorem wit_gather : (fun (s : State) (n : BitVec 5) (table : List Nat) => decide (s.chip.dmReady n.toNat = true ∧ (s.chip.dmRead n.toNat table).op =
        3 ∧ bit (s.chip.dmRead n.toNat table).flags 0 = true ∧ s.chip.dmCheck n.toNat (s.chip.dmRead n.toNat table) = .ok)) (putD 4 (dsc 3) chan1)
        (4) ([]) = true := by
  decide +kernel

theorem wit_scatter : (fun (s : State) (n : BitVec 5) (table : List Nat) => decide (s.chip.dmReady n.toNat = true ∧ (s.chip.dmRead n.toNat table).op
        = 4 ∧ bit (s.chip.dmRead n.toNat table).flags 0 = true ∧ s.chip.dmCheck n.toNat (s.chip.dmRead n.toNat table) = .ok)) (putD 4 (dsc 4) chan1)
        (4) ([]) = true := by
  decide +kernel

theorem wit_dmaRequestLine : (fun (s : State) (line : BitVec 6) (data : List Byte) => decide (s.chip.svcUp = true ∧ 48 ≤ line.toNat ∧ 0 <
        s.chip.swPend line.toNat ∧ (s.chip.lineOwner line.toNat).any (fun n => (s.chip.dm n).desc.isSome && (s.chip.dmSt n == dWaiting || s.chip.dmSt
        n == dRunning) && s.chip.geti F.DMA_CHn_REMAIN_COUNT n != 0) = true)) (md (chanIn 3 [(F.DMA_SWREQ_PEND_HI_COUNT, 0x20000000), (cp
        F.DMA_CHn_REMAIN_COUNT 0, 4)]) (fun c => c.dmMod 0 (fun u => { u with desc := some { dsc 2 with req := 0xBF } }))) (63) ([]) = true := by
  decide +kernel

theorem wit_dmaDescriptorDone : (fun (s : State) (n : BitVec 5) (data : List Byte) => decide (s.chip.svcUp = true ∧ s.chip.dmSt n.toNat = dRunning ∧
        s.chip.geti F.DMA_CHn_REMAIN_COUNT n.toNat = 0 ∧ (s.chip.dm n.toNat).buf.isEmpty = true ∧ (s.chip.dm n.toNat).desc.isSome = true)) (chanIn 2
        []) (0) ([]) = true := by
  decide +kernel

theorem wit_dmaSwreq : (fun (s : State) (req : Req) (mask : BitVec 16) => decide (s.chip.opens req R.DMA_SWREQ true = true ∧ mask = 0)) (up [])
        (reqSpindle) (0) = true := by
  decide +kernel

theorem wit_dmaSwreq2 : (fun (s : State) (req : Req) (mask : BitVec 16) => decide (s.chip.opens req R.DMA_SWREQ true = true ∧ mask = 0x8000#16 ∧
        s.chip.swPend 63 < 15)) (up []) (reqSpindle) (0x8000#16) = true := by
  decide +kernel

theorem wit_dmaPause : (fun (s : State) (req : Req) (n : BitVec 5) (on : Bool) => decide (s.chip.opens req (R.DMA_CHn_CTRL n.toNat) true = true ∧
        s.chip.dmSt n.toNat = dDisabled)) (up []) (reqSpindle) (31) (true) = true := by
  decide +kernel

theorem wit_dmaPause2 : (fun (s : State) (req : Req) (n : BitVec 5) (on : Bool) => decide (s.chip.opens req (R.DMA_CHn_CTRL n.toNat) true = true ∧
        s.chip.dmSt n.toNat = dRunning ∧ on = true)) (chanIn 2 []) (reqSpindle) (0) (true) = true := by
  decide +kernel

theorem wit_dmaPauseDrained : (fun (s : State) (m : DmaMove) => decide (s.chip.svcUp = true ∧ m.ch < 32 ∧ s.chip.dmSt m.ch = dPausing ∧ (s.chip.dm
        m.ch).desc = none ∧ (s.chip.dm m.ch).buf.isEmpty = true ∧ s.chip.dmHeld m.ch = true)) (up [(cp F.DMA_CHn_STATUS_STATE 31, 4), (cp
        F.DMA_CHn_CTRL_PAUSE 31, 1)]) (⟨31, 0, 0, []⟩) = true := by
  decide +kernel

theorem wit_dmaAbort : (fun (s : State) (req : Req) (n : BitVec 5) => decide (s.chip.opens req (R.DMA_CHn_CTRL n.toNat) true = true ∧ s.chip.dmSt
        n.toNat ≠ dPaused)) (up []) (reqSpindle) (31) = true := by
  decide +kernel

theorem wit_dmaAbort2 : (fun (s : State) (req : Req) (n : BitVec 5) => decide (s.chip.opens req (R.DMA_CHn_CTRL n.toNat) true = true ∧ s.chip.dmSt
        n.toNat = dPaused ∧ (s.chip.dm n.toNat).desc.isSome = true)) (chanIn 5 []) (reqSpindle) (0) = true := by
  decide +kernel

theorem wit_dmaBusError : (fun (s : State) (n : BitVec 5) (cause addr : Nat) (wr index : Bool) (late : Option Nat) (moves : List DmaMove) => decide
        (s.chip.svcUp = true ∧ late = none ∧ moves = [] ∧ s.chip.dmInFlight n.toNat none = true ∧ s.chip.dmCauseOk n.toNat cause addr wr false = true
        ∧ (List.range 32).any (fun k => k != n.toNat && s.chip.dmSt k == dRunning) = true)) (chanIn 2 [(cp F.DMA_CHn_STATUS_STATE 5, 2)]) (0) (1)
        (0x900000) (false) (false) (none) ([]) = true := by
  decide +kernel

theorem wit_dmaRelease : (fun (s : State) (req : Req) (mask : Word) => decide (s.chip.opens req R.DMA_RELEASE true = true)) (chanIn 6
        [(F.DMA_STATUS_STOPPED, 1)]) (reqSpindle) (0xFFFFFFFF#32) = true := by
  decide +kernel

theorem wit_dmaClear : (fun (s : State) (req : Req) (n : BitVec 5) => decide (s.chip.opens req (R.DMA_CHn_CTRL n.toNat) true = true ∧ classOf req =
        .spindle ∧ s.chip.dmSt n.toNat = dFault ∧ s.chip.geti F.DMA_CHn_FAULT_LATE n.toNat = 0)) (up [(cp F.DMA_CHn_STATUS_STATE 31, 7), (cp
        F.DMA_CHn_FAULT_CAUSE 31, 3)]) (reqSpindle) (31) = true := by
  decide +kernel

theorem wit_dmaParityError : (fun (s : State) (n : BitVec 5) => decide (s.chip.svcUp = true ∧ s.chip.dmSt n.toNat ≠ dFault ∧ s.chip.dmSt n.toNat ≠
        dDisabled)) (chanIn 2 []) (0) = true := by
  decide +kernel

theorem wit_dmaChannelEnable : (fun (s : State) (req : Req) (n : BitVec 5) => decide (s.chip.opens req (R.DMA_CHn_CFG n.toNat) true = true ∧
        s.chip.dmSt n.toNat = dDisabled)) (up []) (reqSpindle) (31) = true := by
  decide +kernel

theorem wit_rootUpdate : (fun (s : State) (ch : Nat) (frame : WarpFrame) => decide (s.chip.svcUp = true ∧ ch < 8 ∧ s.chip.cust.rootRepair = [] ∧
        (s.chip.bob? frame.bobbin).any (fun b => b.cls == clsWORSTED && b.sub == frame.epoch % 4096 && s.chip.warpCh b == some ch && decide
        (b.rootVer < frame.time)) = true)) (md (ldr []) (fun c => c.cu (fun u =>
        { u with bobs := [(5, { bob0 with cls := clsWORSTED, warp := 0x80, sub := 9 })] }))) (0)
        ({ op := 6, sub := 0, bobbin := 5, epoch := 9, time := 3 }) = true := by
  decide +kernel

theorem wit_rootStorePatrol : (fun (s : State) (tree : Nat) (double : Bool) => decide (s.chip.svcUp = true ∧ double = true)) (up []) (4095) (true) =
        true := by
  decide +kernel

theorem wit_rootStorePatrol2 : (fun (s : State) (tree : Nat) (double : Bool) => decide (s.chip.svcUp = true ∧ double = false)) (up []) (0) (false) =
        true := by
  decide +kernel

theorem wit_rootRepairDone : (fun (s : State) (tree : Nat) (good : Bool) (bytes : List Byte) => decide (s.chip.svcUp = true ∧ s.chip.cust.rootRepair
        = [tree] ∧ s.chip.cust.rootWait = [] ∧ good = true ∧ s.chip.pkg ≠ .hx4)) (md (pair []) (fun c => c.cu (fun u =>
        { u with rootRepair := [7] }))) (7) (true) ([1#8]) = true := by
  decide +kernel

theorem wit_faultReport : (fun (s : State) (ch : Nat) (frame : WarpFrame) => decide (s.chip.svcUp = true ∧ s.chip.pkg ≠ .hx4 ∧ s.chip.leads = false ∧
        s.chip.linked = false)) (up [(F.GEN_ID_PKG_CLASS, 1)]) (15) ({ op := 0x87, sub := 0, bobbin := 5, epoch := 9 }) = true := by
  decide +kernel

theorem wit_faultReport2 : (fun (s : State) (ch : Nat) (frame : WarpFrame) => decide (s.chip.svcUp = true ∧ s.chip.leads = true ∧
        s.chip.cust.seenReports = [] ∧ s.chip.logs.svc.length ≤ 4000 ∧ (s.chip.bob? frame.bobbin).any (fun b => (s.chip.hank? b.hank).isNone) =
        true)) (md (ldr []) (fun c => c.cu (fun u => { u with bobs := [(5, bob0)] }))) (15)
        ({ op := 0x87, sub := 0, bobbin := 5, epoch := 9, share0 := [2#8] }) = true := by
  decide +kernel

theorem wit_complexResetAnnounce : (fun (s : State) (ch : Nat) (frame : WarpFrame) => decide (s.chip.svcUp = true ∧ s.chip.pkg ≠ .hx4 ∧ s.chip.leads
        = false ∧ s.chip.linked = false)) (up [(F.GEN_ID_PKG_CLASS, 1)]) (15) ({ op := 0x87, sub := 0, bobbin := 5, epoch := 9 }) = true := by
  decide +kernel

theorem wit_complexResetAnnounce2 : (fun (s : State) (ch : Nat) (frame : WarpFrame) => decide (s.chip.svcUp = true ∧ s.chip.leads = true ∧
        s.chip.cust.seenReports = [] ∧ s.chip.cust.bobs = [])) (ldr []) (15) ({ op := 0x87, sub := 0, bobbin := 5, epoch := 9 }) = true := by
  decide +kernel

theorem wit_boundaryReport : (fun (s : State) (ch : Nat) (frame : WarpFrame) => decide (s.chip.svcUp = true ∧ s.chip.leads = true ∧ (s.chip.bob?
        frame.bobbin).any (fun b => b.epoch == frame.epoch) = true ∧ frame.result ≠ Status.ok.code)) (md (ldr []) (fun c => c.cu (fun u =>
        { u with bobs := [(5, { bob0 with epoch := 9 })] }))) (0)
        ({ op := 0x87, result := Status.pending.code, sub := 0, bobbin := 5, epoch := 9, time := 77 }) = true := by
  decide +kernel

theorem wit_boundaryReport2 : (fun (s : State) (ch : Nat) (frame : WarpFrame) => decide (s.chip.svcUp = true ∧ s.chip.leads = true ∧ (s.chip.bob?
        frame.bobbin).any (fun b => b.epoch == frame.epoch) = true ∧ frame.result = Status.ok.code)) (md (ldr []) (fun c => c.cu (fun u =>
        { u with bobs := [(5, { bob0 with epoch := 9, reenc := true })] }))) (0)
        ({ op := 0x87, result := 0, sub := 0, bobbin := 5, epoch := 9, time := 77 }) = true := by
  decide +kernel

theorem wit_peerEpochReport : (fun (s : State) (ch : Nat) (frame : WarpFrame) => decide (s.chip.svcUp = true ∧ s.chip.pkg ≠ .hx4 ∧ s.chip.leads =
        false ∧ s.chip.linked = false)) (up [(F.GEN_ID_PKG_CLASS, 1)]) (15) ({ op := 0x87, sub := 0, bobbin := 5, epoch := 9 }) = true := by
  decide +kernel

theorem wit_peerEpochReport2 : (fun (s : State) (ch : Nat) (frame : WarpFrame) => decide (s.chip.svcUp = true ∧ s.chip.leads = true ∧
        s.chip.cust.seenReports = [] ∧ s.chip.logs.svc.length ≤ 4000 ∧ (s.chip.cust.bobs.find? (fun e => e.2.cls == clsLINK && e.2.sub == frame.sub
        && s.chip.warpCh e.2 == some (ch % 8))).isSome = true)) (md (ldr []) (fun c => c.cu (fun u =>
        { u with bobs := [(5, { bob0 with cls := clsLINK, sub := 4, warp := 0x87 })] }))) (15) ({ op := 0x87, sub := 4, bobbin := 0, epoch := 9 }) =
        true := by
  decide +kernel

theorem wit_twistBatch : (fun (s : State) => decide (s.chip.leads = true ∧ s.chip.get F.DGT_TW_CTRL_EN = 1 ∧ (s.chip.front 0x30).any (fun m =>
        !s.chip.carded m.src) = true)) (inb [⟨0x30, 3, 0, 0, []⟩] (ldr [(F.DGT_TW_CTRL_EN, 1)])) = true := by
  decide +kernel

theorem wit_twistBatch2 : (fun (s : State) => decide (s.chip.leads = true ∧ s.chip.get F.DGT_TW_CTRL_EN = 1 ∧ (s.chip.front 0x30).any (fun m =>
        s.chip.carded m.src && twKind (slice m.payload 0 64) != 0 && s.chip.hankOfDie m.src == some (twHank (slice m.payload 0 64)) &&
        s.chip.twOpened (twHank (slice m.payload 0 64)) && twSeq (slice m.payload 0 64) == tget s.chip.twist.next m.src 0 && twKind (slice m.payload
        64 64) == 0 && twKind (slice m.payload 128 64) == 0 && s.chip.twRoom m.src 1) = true)) (md (inb
        [⟨0x30, 4, 6, 0, pack [(4, 0), (4, 0), (1, 0x1F)]⟩] (ldr [(F.DGT_TW_CTRL_EN, 1), (F.GEN_CARDED0_NODES, 16), (cp F.DGT_TWn_CTRL_OPEN 15, 1)]))
        (fun c => { c with hanks := { c.hanks with tab := [(15, { hank0 with st := 3, dies := 16 })] } })) = true := by
  decide +kernel

theorem wit_twistFold : (fun (s : State) (h : BitVec 4) => decide (s.chip.leads = true ∧ s.chip.svcUp = true ∧ s.chip.get F.DGT_TW_CTRL_EN = 1 ∧
        s.chip.twOpened h.toNat = true ∧ s.chip.grp 1 = 2 ∧ s.chip.twist.intake = [] ∧ (s.chip.tw h.toNat).done = [])) (ldr [(F.DGT_TW_CTRL_EN, 1),
        (F.PWR_GRP_STATUS_STATE, 8), (cp F.DGT_TWn_CTRL_OPEN 15, 1)]) (15) = true := by
  decide +kernel

theorem wit_twistFold2 : (fun (s : State) (h : BitVec 4) => decide (s.chip.leads = true ∧ s.chip.svcUp = true ∧ s.chip.get F.DGT_TW_CTRL_EN = 1 ∧
        s.chip.twOpened h.toNat = true ∧ s.chip.grp 1 = 2 ∧ 1 ≤ s.chip.twist.intake.length ∧ s.chip.twist.intake.length ≤ 32 ∧
        s.chip.twist.intake.all (fun q => twHank q.2 == h.toNat) = true)) (md (ldr [(F.DGT_TW_CTRL_EN, 1), (F.PWR_GRP_STATUS_STATE, 8), (cp
        F.DGT_TWn_CTRL_OPEN 15, 1)]) (fun c => { c with twist := { c.twist with intake := [(false, padTo 64 (pack [(4, 0), (4, 0), (1, 0x1F)]))] } }))
        (15) = true := by
  decide +kernel

theorem wit_seal : (fun (s : State) (req : Req) (h : BitVec 4) => decide (s.chip.opens req (R.DGT_TWn_CTRL h.toNat) true = true ∧ s.chip.leads = true
        ∧ s.chip.twOpened h.toNat = true)) (ldr [(cp F.DGT_TWn_CTRL_OPEN 15, 1), (cp F.DGT_TWn_SEGMENT_NUM 15, 0xFFFFFFFF)]) (reqSpindle) (15) = true
        := by
  decide +kernel

theorem wit_twistLogWriteError : (fun (s : State) (h : BitVec 4) (seg pos : Nat) => decide (s.chip.leads = true ∧ s.chip.twOpened h.toNat = true))
        (ldr [(cp F.DGT_TWn_CTRL_OPEN 15, 1)]) (15) (2) (3) = true := by
  decide +kernel

theorem wit_twistHeadRead : (fun (s : State) (req : Req) (h : BitVec 4) => decide (s.chip.opens req (R.DGT_TWn_HEAD h.toNat) false = true)) (up [])
        (reqSpindle) (15) = true := by
  decide +kernel

theorem wit_receiptSigned : (fun (s : State) (h : BitVec 4) => decide ((s.chip.tw h.toNat).signing? = none)) (up []) (15) = true := by
  decide +kernel

theorem wit_receiptSigned2 : (fun (s : State) (h : BitVec 4) => decide (s.chip.svcUp = true ∧ (s.chip.tw h.toNat).signing?.isSome = true)) (md (up
        []) (fun c => { c with twist := { c.twist with tab := [(15, { steps := [{ num := 7, st := 3 }] })] } })) (15) = true := by
  decide +kernel

theorem wit_linkEn : (fun (s : State) (req : Req) (value : Bool) => decide (s.chip.opens req R.PLY_CTRL true = true ∧ value = false)) (pair
        [(F.PLY_CTRL_LINK_EN, 1)]) (reqSpindle) (false) = true := by
  decide +kernel

theorem wit_linkEn2 : (fun (s : State) (req : Req) (value : Bool) => decide (s.chip.opens req R.PLY_CTRL true = true ∧ value = true ∧ s.chip.pkg ≠
        .hx4 ∧ s.chip.svcUp = true)) (pair []) (reqSpindle) (true) = true := by
  decide +kernel

theorem wit_plyRetrain : (fun (s : State) (req : Req) => decide (s.chip.opens req R.PLY_CTRL true = true ∧ s.chip.get F.PLY_CTRL_LINK_EN = 1 ∧
        s.chip.pkg ≠ .hx4 ∧ s.chip.svcUp = true)) (pair [(F.PLY_CTRL_LINK_EN, 1)]) (reqSpindle) = true := by
  decide +kernel

theorem wit_hello : (fun (s : State) (body : List Byte) => decide (s.chip.svcUp = true ∧ s.chip.pkg ≠ .hx4 ∧ s.chip.get F.PLY_CTRL_LINK_EN = 1 ∧
        s.chip.linked = false ∧ s.chip.ply.own ≠ [] ∧ s.chip.ply.hello = none ∧ numAt body 0 1 = s.chip.get F.GEN_ID_SIDE)) (md (up
        [(F.GEN_ID_PKG_CLASS, 1), (F.PLY_CTRL_LINK_EN, 1)]) (fun c => { c with ply := { c.ply with own := [1#8] } })) ([]) = true := by
  decide +kernel

theorem wit_hello2 : (fun (s : State) (body : List Byte) => decide (s.chip.svcUp = true ∧ s.chip.pkg ≠ .hx4 ∧ s.chip.get F.PLY_CTRL_LINK_EN = 1 ∧
        s.chip.linked = false ∧ s.chip.ply.own ≠ [] ∧ s.chip.ply.hello = none ∧ s.chip.get F.GEN_ID_SIDE = 1 ∧ numAt body 0 1 = 0)) (md (up
        [(F.GEN_ID_PKG_CLASS, 1), (F.GEN_ID_SIDE, 1), (F.PLY_CTRL_LINK_EN, 1)]) (fun c => { c with ply := { c.ply with own := [1#8] } })) ([]) = true
        := by
  decide +kernel

theorem wit_hello3 : (fun (s : State) (body : List Byte) => decide (s.chip.svcUp = true ∧ s.chip.pkg ≠ .hx4 ∧ s.chip.get F.PLY_CTRL_LINK_EN = 1 ∧
        s.chip.linked = false ∧ s.chip.ply.own ≠ [] ∧ s.chip.ply.hello = none ∧ s.chip.get F.GEN_ID_SIDE = 0 ∧ numAt body 0 1 = 1)) (md (up
        [(F.GEN_ID_PKG_CLASS, 1), (F.PLY_CTRL_LINK_EN, 1)]) (fun c => { c with ply := { c.ply with own := [1#8] } })) ([1#8]) = true := by
  decide +kernel

theorem wit_auth : (fun (s : State) (point kem : List Byte) (certs sigs : List (List Byte)) (genuine : Bool) => decide (s.chip.svcUp = true ∧
        s.chip.ply.hello.isSome = true ∧ genuine = true ∧ s.chip.get F.GEN_ID_SIDE = 0 ∧ s.chip.ply.auth ≠ 1)) (md (up [(F.GEN_ID_PKG_CLASS, 1)])
        (fun c => { c with ply := { c.ply with hello := some [] } })) ([]) ([]) ([]) ([]) (true) = true := by
  decide +kernel

theorem wit_auth2 : (fun (s : State) (point kem : List Byte) (certs sigs : List (List Byte)) (genuine : Bool) => decide (s.chip.svcUp = true ∧
        s.chip.ply.hello.isSome = true ∧ genuine = true ∧ s.chip.get F.GEN_ID_SIDE = 1 ∧ s.chip.ply.auth = 1)) (md (up [(F.GEN_ID_PKG_CLASS, 1),
        (F.GEN_ID_SIDE, 1)]) (fun c => { c with ply := { c.ply with hello := some [], auth := 1 } })) ([]) ([]) ([]) ([]) (true) = true := by
  decide +kernel

theorem wit_auth3 : (fun (s : State) (point kem : List Byte) (certs sigs : List (List Byte)) (genuine : Bool) => decide (s.chip.svcUp = true ∧
        s.chip.ply.hello.isSome = true ∧ genuine = true ∧ s.chip.get F.GEN_ID_SIDE = 1 ∧ s.chip.ply.auth = 2 ∧ s.chip.ply.newKeys.isSome = true ∧
        s.chip.role = 3)) (md (up [(F.GEN_ID_PKG_CLASS, 1), (F.GEN_ID_SIDE, 1), (F.PLY_STATUS_ROLE, 3)]) (fun c =>
        { c with ply := { c.ply with hello := some [], auth := 2, newKeys := some ([], [1#8]) } })) ([]) ([]) ([]) ([]) (true) = true := by
  decide +kernel

theorem wit_plyFrameCheckFail : (fun (s : State) (typ pseq : Nat) => decide (s.chip.svcUp = true ∧ s.chip.pkg ≠ .hx4 ∧ s.chip.get F.PLY_LINK_BAD <
        F.PLY_LINK_BAD.top)) (pair []) (0x10) (7) = true := by
  decide +kernel

theorem wit_linkNak : (fun (s : State) (pseq : Nat) => decide (s.chip.linked = true)) (md (pair []) (fun c =>
        { c with ply := { c.ply with sent := [{ typ := 0x10, pseq := 3, payload := [] }, { typ := 0x10, pseq := 4, payload := [] }] } })) (4) = true
        := by
  decide +kernel

theorem wit_heartbeatSend : (fun (s : State) => decide (s.chip.linked = true ∧ s.chip.svcUp = true ∧ s.chip.pkg ≠ .hx4 ∧ s.chip.ply.sleeping ≠ 3 ∧
        s.chip.get F.DBG_STATUS_SPN_HALTED = 0)) (pair []) = true := by
  decide +kernel

theorem wit_plyHeartbeat : (fun (s : State) (body : List Byte) (peer : Peer) => decide (s.chip.linked = true ∧ s.chip.role = 2)) (pair
        [(F.PLY_STATUS_ROLE, 2)]) ([]) ({}) = true := by
  decide +kernel

theorem wit_partnerLost : (fun (s : State) => decide ((s.chip.linked = false ∨ s.chip.ply.lost = true ∨ s.chip.slot < s.chip.ply.beatAt + 9))) (up
        []) = true := by
  decide +kernel

theorem wit_partnerLost2 : (fun (s : State) => decide (s.chip.linked = true ∧ s.chip.ply.lost = false ∧ s.chip.ply.beatAt + 9 ≤ s.chip.slot ∧
        s.chip.role = 2)) (md (pair [(F.PLY_STATUS_ROLE, 2)]) (fun c => { c with time := 256 * 9 })) = true := by
  decide +kernel

theorem wit_mirrorAckTimeout : (fun (s : State) => decide (s.chip.role = 5 ∧ s.chip.waitsPartner = true ∧ s.chip.ply.macked < s.chip.ply.mseq ∧
        s.chip.ply.oldest + 8 ≤ s.chip.slot ∧ s.chip.ply.lost = false ∧ s.chip.ply.sleeping = 0)) (md (pair [(F.PLY_STATUS_ROLE, 5),
        (F.PLY_STATUS_LEASE, 1)]) (fun c => { c with time := 256 * 8, ply := { c.ply with fresh := 3, mseq := 1 } })) = true := by
  decide +kernel

theorem wit_mirror : (fun (s : State) (mseq : Nat) (item : MItem) => decide (s.chip.linked = true ∧ s.chip.leads = false ∧ s.chip.role = 3 ∧ mseq ≤
        s.chip.ply.applied)) (pair [(F.PLY_STATUS_ROLE, 3)]) (0) (.hankDrop 3) = true := by
  decide +kernel

theorem wit_mirror2 : (fun (s : State) (mseq : Nat) (item : MItem) => decide (s.chip.linked = true ∧ s.chip.leads = false ∧ s.chip.role = 3 ∧
        s.chip.ply.applied < mseq ∧ (match item with | .lease .. => true | _ => false) = true)) (pair [(F.PLY_STATUS_ROLE, 3)]) (1) (.lease 7 2 9 4)
        = true := by
  decide +kernel

theorem wit_mirrorAck : (fun (s : State) (mseq : Nat) => decide (s.chip.linked = true ∧ mseq ≤ s.chip.ply.mseq)) (pair []) (0) = true := by
  decide +kernel

theorem wit_relay : (fun (s : State) (ch : Nat) (frame : WarpFrame) => decide (s.chip.linked = true ∧ tget s.chip.cust.warp (ch % 8) [] = [])) (pair
        []) (15) ({ op := 1, sub := 0, bobbin := 5, epoch := 9 }) = true := by
  decide +kernel

theorem wit_relayAns : (fun (s : State) (ch : Nat) (frame : WarpFrame) => decide (s.chip.linked = true ∧ s.chip.ply.relay = [] ∧ s.chip.leads =
        false)) (pair []) (15) ({ op := 0x81, sub := 0, bobbin := 5, epoch := 9 }) = true := by
  decide +kernel

theorem wit_relayAns2 : (fun (s : State) (ch : Nat) (frame : WarpFrame) => decide (s.chip.linked = true ∧ (s.chip.ply.relay.find? (fun r => r.1 == ch
        % 8 && answers frame r.2)).any (fun r => r.2.op == 2) = true ∧ frame.result = 0)) (md (pair []) (fun c =>
        { c with ply := { c.ply with relay := [(7, { op := 2, sub := 0, bobbin := 5, epoch := 9 })] } })) (15)
        ({ op := 0x87, sub := 0, bobbin := 5, epoch := 9 }) = true := by
  decide +kernel

theorem wit_relayAnswerTimeout : (fun (s : State) (ch : Nat) => decide ((s.chip.ply.relay.filter (fun r => r.1 == ch % 8)).length = 1)) (md (pair [])
        (fun c => { c with ply := { c.ply with relay := [(7, { op := 4, sub := 0, bobbin := 5, epoch := 9 })] } })) (15) = true := by
  decide +kernel

theorem wit_resyncReq : (fun (s : State) (jseq jdur : Nat) => decide ((s.chip.linked = false ∨ s.chip.role ≠ 5))) (pair []) (1) (0) = true := by
  decide +kernel

theorem wit_resyncReq2 : (fun (s : State) (jseq jdur : Nat) => decide (s.chip.linked = true ∧ s.chip.role = 5)) (pair [(F.PLY_STATUS_ROLE, 5)]) (1)
        (9) = true := by
  decide +kernel

theorem wit_resyncData : (fun (s : State) (part : ResPart) => decide (s.chip.linked = true ∧ s.chip.role = 2 ∧ s.chip.ply.late = [])) (pair
        [(F.PLY_STATUS_ROLE, 2)]) (.hank 3 hank0) = true := by
  decide +kernel

theorem wit_resyncData2 : (fun (s : State) (part : ResPart) => decide (s.chip.linked = true ∧ s.chip.role = 2 ∧
        (match part with | .hank _ _ => true | _ => false) = true)) (pair [(F.PLY_STATUS_ROLE, 2)]) (.hank 3 hank0) = true := by
  decide +kernel

theorem wit_resyncComplete : (fun (s : State) => decide (s.chip.role = 2 ∧ s.chip.ply.repairTo = 0 ∧ s.chip.ply.late = [] ∧ s.chip.ply.partner = 5 ∧
        s.chip.ply.serving = true)) (md (pair [(F.PLY_STATUS_ROLE, 2)]) (fun c => { c with ply := { c.ply with partner := 5, serving := true } })) =
        true := by
  decide +kernel

theorem wit_handoverFrame : (fun (s : State) (mseq lease : Nat) => decide (s.chip.linked = true ∧ s.chip.role = 3 ∧ mseq ≤ s.chip.ply.applied)) (pair
        [(F.PLY_STATUS_ROLE, 3)]) (0) (9) = true := by
  decide +kernel

theorem wit_sleepFrame : (fun (s : State) => decide (s.chip.linked = true ∧ s.chip.role = 3)) (pair [(F.PLY_STATUS_ROLE, 3)]) = true := by
  decide +kernel

theorem wit_sleepAck : (fun (s : State) => decide (s.chip.linked = true ∧ s.chip.ply.sleeping = 1)) (md (pair []) (fun c =>
        { c with ply := { c.ply with sleeping := 1 } })) = true := by
  decide +kernel

theorem wit_leaseGrant : (fun (s : State) => decide (s.chip.pkg ≠ .hx4 ∧ s.chip.role = 4 ∧ (s.chip.front 0x11).any (fun m => numAt m.payload 1 1 == 0
        && numAt m.payload 2 1 == s.chip.node && numAt m.payload 4 4 == s.chip.leaseNum && decide (numAt m.payload 12 1 < s.chip.pkg.dies)) = true))
        (inb [⟨0x11, 3, 0, 0, [3#8, 0#8, 64#8, 0#8, 0#8, 0#8, 0#8, 0#8, 9#8, 0#8, 0#8, 0#8, 3#8]⟩] (pair [(F.PLY_STATUS_ROLE, 4)])) = true := by
  decide +kernel

theorem wit_leaseRenew : (fun (s : State) => decide (s.chip.role ≠ 5)) (pair []) = true := by
  decide +kernel

theorem wit_leaseRenew2 : (fun (s : State) => decide (s.chip.role = 5 ∧ s.chip.ply.op = 0 ∧ s.chip.ply.taken + 1024 ≤ s.chip.slot)) (md (pair
        [(F.PLY_STATUS_ROLE, 5)]) (fun c => { c with time := 256 * 1024 })) = true := by
  decide +kernel

theorem wit_leaseExpiryMargin : (fun (s : State) => decide (s.chip.role = 5 ∧ s.chip.grantsGood < s.chip.pkg.quorum)) (pair [(F.PLY_STATUS_ROLE, 5)])
        = true := by
  decide +kernel

theorem wit_takeoverRepeat : (fun (s : State) => decide (s.chip.role = 4 ∧ s.chip.ply.op = 3 ∧ s.chip.ply.askedAt + 64 ≤ s.chip.slot)) (md (pair
        [(F.PLY_STATUS_ROLE, 4)]) (fun c => { c with time := 256 * 64, ply := { c.ply with op := 3 } })) = true := by
  decide +kernel

theorem wit_candidateTimeout : (fun (s : State) => decide (s.chip.role = 4 ∧ s.chip.ply.op = 3 ∧ s.chip.slotsTo (s.chip.ply.leadExpiry + 16) = 0 ∧
        s.chip.grantsGood < s.chip.pkg.quorum)) (md (pair [(F.PLY_STATUS_ROLE, 4)]) (fun c =>
        { c with time := 256 * 16, ply := { c.ply with op := 3 } })) = true := by
  decide +kernel

theorem wit_promote : (fun (s : State) => decide (s.chip.mayLead = false)) (pair []) = true := by
  decide +kernel

theorem wit_promote2 : (fun (s : State) => decide (s.chip.mayLead = true)) (md (pair [(F.PLY_STATUS_ROLE, 4), (F.PWR_GRP_STATUS_STATE, 0x28),
        (F.BOB_STATUS_OPEN, 1)]) (fun c => { c with ply := { c.ply with grants := (List.range 64).map (fun i => (i, 16)) } })) = true := by
  decide +kernel

theorem wit_pairWaitExpire : (fun (s : State) => decide (s.chip.svcUp = true ∧ s.chip.pkg ≠ .hx4 ∧ s.chip.get F.PLY_CTRL_LINK_EN = 1 ∧ s.chip.role =
        0 ∧ s.chip.linked = false ∧ s.chip.ply.waited = false)) (up [(F.GEN_ID_PKG_CLASS, 1), (F.PLY_CTRL_LINK_EN, 1)]) = true := by
  decide +kernel

theorem wit_startEmpty : (fun (s : State) (req : Req) => decide (s.chip.opens req R.PLY_CTRL true = true ∧ s.chip.role ≠ 0)) (pair
        [(F.PLY_STATUS_ROLE, 3)]) (reqSpindle) = true := by
  decide +kernel

theorem wit_startEmpty2 : (fun (s : State) (req : Req) => decide (s.chip.opens req R.PLY_CTRL true = true ∧ s.chip.role = 0 ∧ s.chip.ply.waited =
        true ∧ s.chip.linked = false ∧ s.chip.sidesEqual = false ∧ s.chip.jOpen = true ∧ s.chip.jFailed = false ∧ s.chip.pkg ≠ .hx4 ∧ s.chip.get
        F.DBG_STATUS_SPN_DBG = 0)) (md (up [(F.GEN_ID_PKG_CLASS, 1), (F.BOB_STATUS_OPEN, 1)]) (fun c =>
        { c with ply := { c.ply with waited := true } })) (reqSpindle) = true := by
  decide +kernel

theorem wit_handover : (fun (s : State) (req : Req) => decide (s.chip.opens req R.PLY_CTRL true = true ∧ s.chip.handoverBar = true)) (pair [])
        (reqSpindle) = true := by
  decide +kernel

theorem wit_handover2 : (fun (s : State) (req : Req) => decide (s.chip.opens req R.PLY_CTRL true = true ∧ s.chip.handoverBar = false)) (md (pair
        [(F.PLY_STATUS_ROLE, 5), (F.PLY_STATUS_LEASE, 1)]) (fun c => ({ c with ply := { c.ply with partner := 3, fresh := 3 } }).wr R.PLY_EXPIRY
        65#32)) (reqSpindle) = true := by
  decide +kernel

theorem wit_handoverTimeout : (fun (s : State) => decide (s.chip.role = 4 ∧ s.chip.ply.op = 5 ∧ s.chip.ply.askedAt + 32 ≤ s.chip.slot ∧
        s.chip.grantsGood < s.chip.pkg.quorum)) (md (pair [(F.PLY_STATUS_ROLE, 4)]) (fun c =>
        { c with time := 256 * 32, ply := { c.ply with op := 5 } })) = true := by
  decide +kernel

theorem wit_sleepHs : (fun (s : State) (req : Req) => decide (s.chip.opens req R.PLY_CTRL true = true ∧ s.chip.hanks.tab ≠ [])) (md (pair []) (fun c
        => { c with hanks := { c.hanks with tab := [(3, hank0)] } })) (reqSpindle) = true := by
  decide +kernel

theorem wit_sleepHs2 : (fun (s : State) (req : Req) => decide (s.chip.opens req R.PLY_CTRL true = true ∧ s.chip.hanks.tab = [] ∧ s.chip.role = 5 ∧
        s.chip.ply.partner = 3 ∧ s.chip.linked = true)) (md (pair [(F.PLY_STATUS_ROLE, 5)]) (fun c => { c with ply := { c.ply with partner := 3 } }))
        (reqSpindle) = true := by
  decide +kernel

theorem wit_handoverComplete : (fun (s : State) => decide (s.chip.role = 5 ∧ s.chip.ply.handover.any (fun h => decide (h.1 + 16 ≤ s.chip.slot) && h.2
        == 1) = true)) (md (pair [(F.PLY_STATUS_ROLE, 5)]) (fun c => { c with time := 256 * 16, ply := { c.ply with handover := some (0, 1) } })) =
        true := by
  decide +kernel

theorem wit_bobCqTailWrite : (fun (s : State) (req : Req) (idx : BitVec 10) => decide (s.chip.opens req R.BOB_CQ_TAIL true = true ∧ idx.toNat <
        s.chip.cqSize)) (up [(F.BOB_CQ_CFG_LOG2, 10)]) (reqSpindle) (1023) = true := by
  decide +kernel

theorem wit_bobCqTailWrite2 : (fun (s : State) (req : Req) (idx : BitVec 10) => decide (s.chip.opens req R.BOB_CQ_TAIL true = true ∧ s.chip.cqSize ≤
        idx.toNat)) (up [(F.BOB_CQ_CFG_LOG2, 4)]) (reqSpindle) (16) = true := by
  decide +kernel

theorem wit_bobCplHeadWrite : (fun (s : State) (req : Req) (idx : BitVec 10) => decide (s.chip.opens req R.BOB_CPL_HEAD true = true)) (up [])
        (reqSpindle) (1023) = true := by
  decide +kernel

theorem wit_create : (fun (s : State) => decide (s.chip.cmdTake 1 s.chip.cqRead = none)) (up []) = true := by
  decide +kernel

theorem wit_create2 : (fun (s : State) => decide (s.chip.cqTaken 1 = true ∧ s.chip.grp 1 = 2 ∧ s.chip.grpBarred 1 = false ∧ s.chip.grp 2 = 2 ∧
        s.chip.grpBarred 2 = false)) (putQ { op := 1, tag := 65537, first := 5, last := 5 } (ringJ [])) = true := by
  decide +kernel

theorem wit_create3 : (fun (s : State) => decide (s.chip.cqTaken 1 = true ∧ s.chip.grp 1 = 2 ∧ s.chip.grp 2 = 2 ∧ s.chip.grpBarred 1 = false ∧
        s.chip.grpBarred 2 = false ∧ s.chip.journalBar = none ∧ s.chip.cqRead.first % 2 ^ 20 = s.chip.cqRead.last % 2 ^ 20 ∧ (Chip.create1
        s.chip.cqRead s.chip (s.chip.cqRead.first % 2 ^ 20)).2 = .ok)) (putQ { op := 1, first := 5, last := 5, epoch := 9, arg0 := 5, arg1 := 0x80 }
        (ringJ [])) = true := by
  decide +kernel

theorem wit_derive : (fun (s : State) => decide (s.chip.cmdTake 2 s.chip.cqRead = none)) (up []) = true := by
  decide +kernel

theorem wit_derive2 : (fun (s : State) => decide (s.chip.cqTaken 2 = true ∧ s.chip.grp 1 = 2 ∧ s.chip.grpBarred 1 = false ∧ s.chip.grp 2 = 2 ∧
        s.chip.grpBarred 2 = false)) (putQ { op := 2, tag := 65537, first := 5, last := 5 } (ringJ [])) = true := by
  decide +kernel

theorem wit_derive3 : (fun (s : State) => decide (s.chip.cqTaken 2 = true ∧ s.chip.grp 1 = 2 ∧ s.chip.grpBarred 1 = false ∧ s.chip.grp 2 = 2 ∧
        s.chip.grpBarred 2 = false ∧ s.chip.cqRead.first % 2 ^ 20 = s.chip.cqRead.last % 2 ^ 20 ∧ (s.chip.bob? (s.chip.cqRead.first % 2 ^ 20)).any
        (fun b => s.chip.keyAdmit s.chip.cqRead (s.chip.cqRead.first % 2 ^ 20) b false == .ok && (tget? s.chip.cust.keys.hank b.hank).isSome) =
        true)) (putQ { op := 2, first := 5, last := 5, epoch := 2, arg1 := 77 } (md (ringJ [(cp F.WHL_Ln_STATE_STATE 3, 1), (cp F.WHL_Ln_CFG_BOBBINS
        3, 1)]) (fun c => (((c.wr (R.WHL_Ln_NUM 3) 77#32).wr (R.WHL_Ln_SLOT_LO 3) 1000#32).puti F.WHL_Ln_CFG_HANKS 3 1).cu (fun u =>
        { u with bobs := [(5, { bob0 with st := 1 })] })))) = true := by
  decide +kernel

theorem wit_importCmd : (fun (s : State) => decide (s.chip.cmdTake 3 s.chip.cqRead = none)) (up []) = true := by
  decide +kernel

theorem wit_importCmd2 : (fun (s : State) => decide (s.chip.cqTaken 3 = true ∧ s.chip.grp 2 = 2 ∧ s.chip.grpBarred 2 = false)) (putQ
        { op := 3, tag := 65537, first := 5, last := 5 } (ringJ [])) = true := by
  decide +kernel

theorem wit_importCmd3 : (fun (s : State) => decide (s.chip.cqTaken 3 = true ∧ s.chip.grp 2 = 2 ∧ s.chip.grpBarred 2 = false ∧ s.chip.cqRead.first %
        2 ^ 20 = s.chip.cqRead.last % 2 ^ 20 ∧ s.chip.bob? (s.chip.cqRead.first % 2 ^ 20) = none ∧ (Chip.import1 s.chip.cqRead (s.chip.keyHandle
        s.chip.cqRead.arg0) s.chip (s.chip.cqRead.first % 2 ^ 20)).2 = .ok)) (putQ
        { op := 3, first := 5, last := 5, epoch := 2, arg0 := 8, arg2 := 0x800000 } (md (ringJ [(cp F.CRY_CHn_CFG_EN 8, 1)]) (fun c =>
        { c with cry := { c.cry with ch := [(8, { keys := [(0, ⟨1, false, List.replicate 32 7#8⟩)] })] } }))) = true := by
  decide +kernel

theorem wit_commit : (fun (s : State) => decide (s.chip.cqTaken 4 = true)) (putQ { op := 4, tag := 65537, first := 5, last := 5 } (ringJ [])) = true
        := by
  decide +kernel

theorem wit_commit2 : (fun (s : State) => decide (s.chip.cqTaken 4 = true ∧ s.chip.journalBar = none ∧ s.chip.cqRead.first % 2 ^ 20 =
        s.chip.cqRead.last % 2 ^ 20 ∧ s.chip.repairing (s.chip.cqRead.first % 2 ^ 20) = false ∧ (s.chip.bob? (s.chip.cqRead.first % 2 ^ 20)).any (fun
        b => b.st == 3 && b.launch == s.chip.cqRead.arg1 && !b.imported) = true)) (putQ { op := 4, first := 5, last := 5, arg1 := 77 } (md (ringJ [])
        (fun c => c.cu (fun u => { u with bobs := [(5, { bob0 with st := 3, launch := 77 })] })))) = true := by
  decide +kernel

theorem wit_arm : (fun (s : State) => decide (s.chip.cmdTake 5 s.chip.cqRead = none)) (up []) = true := by
  decide +kernel

theorem wit_arm2 : (fun (s : State) => decide (s.chip.cqTaken 5 = true)) (putQ { op := 5, tag := 65537, first := 5, last := 5 } (ringJ [])) = true :=
        by
  decide +kernel

theorem wit_arm3 : (fun (s : State) => decide (s.chip.cqTaken 5 = true ∧ s.chip.cqRead.first % 2 ^ 20 = s.chip.cqRead.last % 2 ^ 20 ∧ s.chip.armAdmit
        s.chip.cqRead (s.chip.cqRead.first % 2 ^ 20) = .ok)) (putQ { op := 5, first := 5, last := 5, arg1 := 77 } (md (ringJ [(cp
        F.WHL_Ln_STATE_STATE 3, 1)]) (fun c => (c.wr (R.WHL_Ln_NUM 3) 77#32).cu (fun u =>
        { u with bobs := [(5, { bob0 with st := 4, launch := 77 })] })))) = true := by
  decide +kernel

theorem wit_cancel : (fun (s : State) => decide (s.chip.cmdTake 6 s.chip.cqRead = none)) (up []) = true := by
  decide +kernel

theorem wit_cancel2 : (fun (s : State) => decide (s.chip.cqTaken 6 = true)) (putQ { op := 6, tag := 65537, first := 5, last := 5 } (ringJ [])) = true
        := by
  decide +kernel

theorem wit_cancel3 : (fun (s : State) => decide (s.chip.cqTaken 6 = true ∧ s.chip.cqRead.first % 2 ^ 20 = s.chip.cqRead.last % 2 ^ 20 ∧
        s.chip.cancelAdmit s.chip.cqRead (s.chip.cqRead.first % 2 ^ 20) = .ok)) (putQ { op := 6, first := 5, last := 5, arg1 := 77 } (md (ringJ [(cp
        F.WHL_Ln_STATE_STATE 3, 1), (cp F.WHL_Ln_STATE_CANCEL_LEAD 3, 16)]) (fun c => ((c.wr (R.WHL_Ln_SLOT_LO 3) 1000#32).wr (R.WHL_Ln_NUM 3)
        77#32).cu (fun u => { u with bobs := [(5, { bob0 with st := 4, launch := 77 })] })))) = true := by
  decide +kernel

theorem wit_freeze : (fun (s : State) => decide (s.chip.cqTaken 7 = true)) (putQ { op := 7, tag := 65537, first := 5, last := 5 } (ringJ [])) = true
        := by
  decide +kernel

theorem wit_freeze2 : (fun (s : State) => decide (s.chip.cqTaken 7 = true ∧ s.chip.cqRead.whole? = none ∧ s.chip.journalBar = none ∧
        s.chip.cqRead.first % 2 ^ 20 = s.chip.cqRead.last % 2 ^ 20 ∧ s.chip.repairing (s.chip.cqRead.first % 2 ^ 20) = false ∧ (s.chip.bob?
        (s.chip.cqRead.first % 2 ^ 20)).isSome = true)) (putQ { op := 7, first := 5, last := 5 } (md (ringJ []) (fun c => c.cu (fun u =>
        { u with bobs := [(5, bob0)] })))) = true := by
  decide +kernel

theorem wit_destroy : (fun (s : State) => decide (s.chip.cmdTake 8 s.chip.cqRead = none)) (up []) = true := by
  decide +kernel

theorem wit_destroy2 : (fun (s : State) => decide (s.chip.cqTaken 8 = true)) (putQ { op := 8, tag := 65537, first := 5, last := 5 } (ringJ [])) =
        true := by
  decide +kernel

theorem wit_destroy3 : (fun (s : State) => decide (s.chip.cqTaken 8 = true ∧ s.chip.journalBar = none ∧ s.chip.cqRead.first % 2 ^ 20 =
        s.chip.cqRead.last % 2 ^ 20 ∧ s.chip.repairing (s.chip.cqRead.first % 2 ^ 20) = false ∧ (s.chip.bob? (s.chip.cqRead.first % 2 ^ 20)).any (fun
        b => b.st == 1 || b.st == 6) = true)) (putQ { op := 8, first := 5, last := 5 } (md (ringJ []) (fun c => c.cu (fun u =>
        { u with bobs := [(5, { bob0 with st := 1 })] })))) = true := by
  decide +kernel

theorem wit_resume : (fun (s : State) => decide (s.chip.cmdTake 9 s.chip.cqRead = none)) (up []) = true := by
  decide +kernel

theorem wit_resume2 : (fun (s : State) => decide (s.chip.cqTaken 9 = true ∧ s.chip.grp 1 = 2 ∧ s.chip.grpBarred 1 = false ∧ s.chip.grp 2 = 2 ∧
        s.chip.grpBarred 2 = false)) (putQ { op := 9, tag := 65537, first := 5, last := 5 } (ringJ [])) = true := by
  decide +kernel

theorem wit_resume3 : (fun (s : State) => decide (s.chip.cqTaken 9 = true ∧ s.chip.grp 1 = 2 ∧ s.chip.grp 2 = 2 ∧ s.chip.grpBarred 1 = false ∧
        s.chip.grpBarred 2 = false ∧ s.chip.journalBar = none ∧ s.chip.cqRead.first % 2 ^ 20 = s.chip.cqRead.last % 2 ^ 20 ∧ (Chip.resume1
        s.chip.cqRead s.chip (s.chip.cqRead.first % 2 ^ 20)).2 = .ok)) (putQ { op := 9, first := 5, last := 5, epoch := 9 } (md (ringJ []) (fun c =>
        c.cu (fun u => { u with bobs := [(5, { bob0 with st := 1 })] })))) = true := by
  decide +kernel

theorem wit_historic : (fun (s : State) => decide (s.chip.cmdTake 10 s.chip.cqRead = none)) (up []) = true := by
  decide +kernel

theorem wit_historic2 : (fun (s : State) => decide (s.chip.cqTaken 10 = true ∧ s.chip.grp 1 = 2 ∧ s.chip.grpBarred 1 = false)) (putQ
        { op := 10, tag := 65537, first := 5, last := 5 } (ringJ [])) = true := by
  decide +kernel

theorem wit_historic3 : (fun (s : State) => decide (s.chip.cqTaken 10 = true ∧ s.chip.grp 1 = 2 ∧ s.chip.grpBarred 1 = false ∧ s.chip.cqRead.first %
        2 ^ 20 = s.chip.cqRead.last % 2 ^ 20 ∧ (s.chip.bob? (s.chip.cqRead.first % 2 ^ 20)).any (fun b => (Chip.historic1 s.chip.cqRead s.chip
        (s.chip.cqRead.first % 2 ^ 20)).2 == .pending && decide (s.chip.warpCh b = some 0)) = true ∧ tget s.chip.cust.warp 0 [] = [] ∧ s.chip.chSt 0
        ≠ 3)) (putQ { op := 10, first := 5, last := 5, epoch := 0 } (md (ringJ [(cp F.BOB_WARP_STATUS_CH 0, 1)]) (fun c => c.cu (fun u =>
        { u with bobs := [(5, { bob0 with cls := clsCKPT, st := 1, warp := 0x80 })] })))) = true := by
  decide +kernel

theorem wit_bobRead : (fun (s : State) => decide (s.chip.cmdTake 11 s.chip.cqRead = none)) (up []) = true := by
  decide +kernel

theorem wit_bobRead2 : (fun (s : State) => decide (s.chip.cqTaken 11 = true)) (putQ { op := 11, tag := 65537, first := 5, last := 5 } (ringJ [])) =
        true := by
  decide +kernel

theorem wit_bobRead3 : (fun (s : State) => decide (s.chip.cqTaken 11 = true ∧ s.chip.cqRead.first % 2 ^ 20 = s.chip.cqRead.last % 2 ^ 20 ∧
        s.chip.cqRead.arg0 + 24 ≤ 0x100000 ∧ s.chip.repairing (s.chip.cqRead.first % 2 ^ 20) = false)) (putQ
        { op := 11, first := 5, last := 5, arg0 := 0xFFFE8 } (md (ringJ []) (fun c => c.cu (fun u =>
        { u with bobs := [(5, { bob0 with st := 1 })] })))) = true := by
  decide +kernel

theorem wit_fenceCommand : (fun (s : State) => decide (s.chip.cmdTake 15 s.chip.cqRead = none)) (up []) = true := by
  decide +kernel

theorem wit_fenceCommand2 : (fun (s : State) => decide (s.chip.cqTaken 15 = true)) (putQ { op := 15, tag := 65537, first := 5, last := 5 } (ringJ
        [])) = true := by
  decide +kernel

theorem wit_fenceCommand3 : (fun (s : State) => decide (s.chip.cqTaken 15 = true ∧ bit s.chip.cqRead.flags 1 = false)) (putQ
        { op := 15, tag := 3, flags := 1 } (ringJ [])) = true := by
  decide +kernel

theorem wit_keyReq : (fun (s : State) => decide (s.chip.front 0x01 = none)) (up []) = true := by
  decide +kernel

theorem wit_keyReq2 : (fun (s : State) => decide (s.chip.leads = true ∧ s.chip.ringLive = true ∧ s.chip.hanks.tab = [] ∧ (s.chip.front 0x01).any (fun
        m => s.chip.carded m.src && (s.chip.bob? (numAt m.payload 0 4 % 2 ^ 20)).isNone) = true)) (inb
        [⟨0x01, 3, 0, 0, [7#8, 0#8, 0#8, 0#8, 1#8, 0#8, 0#8, 0#8, 2#8]⟩] (ldr [(F.SKN_CTRL_RING_EN, 1), (F.GEN_CARDED0_NODES, 8)])) = true := by
  decide +kernel

theorem wit_keyReq3 : (fun (s : State) => decide (s.chip.leads = true ∧ s.chip.ringLive = true ∧ s.chip.hanks.tab.all (fun e => !bit e.2.flags 0) =
        true ∧ s.chip.grp 2 = 2 ∧ s.chip.grpBarred 2 = false ∧ (s.chip.front 0x01).any (fun m => s.chip.carded m.src && !s.chip.repairing (numAt
        m.payload 0 4 % 2 ^ 20) && (s.chip.bob? (numAt m.payload 0 4 % 2 ^ 20)).any (fun b => b.cls == clsDIE && (s.chip.hankDies b.hank).contains
        m.src && !b.frozen && s.chip.strandActive b && numAt m.payload 4 4 == b.epoch && (s.chip.cached (numAt m.payload 0 4 % 2 ^ 20)
        b.epoch).isSome)) = true)) (md (inb [⟨0x01, 3, 0, 0, pack [(4, 7), (4, 1), (4, 2)]⟩] (ldr [(F.SKN_CTRL_RING_EN, 1), (F.GEN_CARDED0_NODES, 8),
        (F.PWR_GRP_STATUS_STATE, 0x28)])) (fun c => { c.cu (fun u => { u with bobs := [(7, { bob0 with cls := clsDIE, st := 1, strand := 0xFFF })], cache := [⟨7, 1, true, [], []⟩] }) with hanks := { c.hanks with tab := [(0, { hank0 with st := 3, dies := 8 })] } }))
        = true := by
  decide +kernel

theorem wit_blobLoadDone : (fun (s : State) (bobbin : Nat) (bytes : List Byte) => decide ((s.chip.svcUp = false ∨ s.chip.get F.DMA_STATUS_STOPPED =
        1))) (up [(F.DMA_STATUS_STOPPED, 1)]) (5) ([]) = true := by
  decide +kernel

theorem wit_blobLoadDone2 : (fun (s : State) (bobbin : Nat) (bytes : List Byte) => decide (s.chip.svcUp = true ∧ s.chip.get F.DMA_STATUS_STOPPED = 0
        ∧ s.chip.bob? bobbin = none)) (md (up []) (fun c => c.cu (fun u => { u with blobReads := [⟨3, 5, 1, 9, 0⟩, ⟨3, 6, 1, 9, 0⟩] }))) (5) ([]) =
        true := by
  decide +kernel

theorem wit_blobLoadDone3 : (fun (s : State) (bobbin : Nat) (bytes : List Byte) => decide (s.chip.svcUp = true ∧ s.chip.get F.DMA_STATUS_STOPPED = 0
        ∧ s.chip.cust.loads = [] ∧ s.chip.cust.blobReads.any (fun q => q.bob == bobbin) = true ∧ s.chip.cust.blobReads.all (fun q => q.src !=
        ownNeed) = true ∧ (s.chip.bob? bobbin).any (fun b => b.blob == 1 && b.imported && numAt bytes 40 4 == bobbin && numAt bytes 44 4 == b.epoch)
        = true)) (md (ldr []) (fun c => c.cu (fun u => { u with bobs := [(5, { bob0 with cls := clsHOST, st := 1, imported := true, blob := 1 })], blobReads := [⟨3, 5, 1, 9, 0⟩], keys := { u.keys with blob := some [] } })))
        (5) (List.replicate 40 0#8 ++ pack [(4, 5), (4, 1)]) = true := by
  decide +kernel

theorem wit_katDone : (fun (s : State) (ch : Nat) (frame : WarpFrame) => decide ((s.chip.svcUp = false ∨ 8 ≤ ch ∨ frame.op ≠ 0x81))) (up []) (8)
        ({ op := 0x81, sub := 0, bobbin := 5, epoch := 9 }) = true := by
  decide +kernel

theorem wit_katDone2 : (fun (s : State) (ch : Nat) (frame : WarpFrame) => decide (s.chip.svcUp = true ∧ ch < 8 ∧ frame.op = 0x81 ∧ frame.result = 0 ∧
        tget s.chip.cust.backlog ch [] = [] ∧ s.chip.bob? frame.bobbin = none ∧ frame.sub < 0xFFFC ∧ tget s.chip.cust.warp ch [] =
        [{ frame := { op := 1, sub := frame.sub, bobbin := frame.bobbin, epoch := frame.epoch } }])) (md (up []) (fun c => c.cu (fun u =>
        { u with warp := [(7, [{ frame := { op := 1, sub := 4, bobbin := 5, epoch := 9 } }])] }))) (7)
        ({ op := 0x81, sub := 4, bobbin := 5, epoch := 9 }) = true := by
  decide +kernel

theorem wit_katDone3 : (fun (s : State) (ch : Nat) (frame : WarpFrame) => decide (s.chip.svcUp = true ∧ ch < 8 ∧ frame.op = 0x81 ∧ frame.result = 0 ∧
        tget s.chip.cust.backlog ch [] = [] ∧ frame.sub < 0xFFFC ∧ tget s.chip.cust.warp ch [] =
        [{ frame := { op := 1, sub := frame.sub, bobbin := frame.bobbin, epoch := frame.epoch } }] ∧ (s.chip.bob? frame.bobbin).any (fun b => b.st ==
        2 && b.wait == [Tgt.warp ch] && b.fail.isNone && b.enable != 2 && frame.epoch == (b.epoch + 1) % 2 ^ 32) = true)) (md (up []) (fun c => c.cu
        (fun u => { u with bobs := [(5, { bob0 with st := 2, wait := [Tgt.warp 7] })], warp := [(7, [{ frame := { op := 1, sub := 4, bobbin := 5, epoch := 2 } }])] })))
        (7) ({ op := 0x81, sub := 4, bobbin := 5, epoch := 2 }) = true := by
  decide +kernel

theorem wit_warpAck : (fun (s : State) (ch : Nat) (frame : WarpFrame) => decide ((s.chip.svcUp = false ∨ 8 ≤ ch ∨ frame.op ≠ 0x87))) (up []) (8)
        ({ op := 0x87, sub := 0, bobbin := 5, epoch := 9 }) = true := by
  decide +kernel

theorem wit_warpAck2 : (fun (s : State) (ch : Nat) (frame : WarpFrame) => decide (s.chip.svcUp = true ∧ ch < 8 ∧ frame.op = 0x87 ∧ frame.result = 0 ∧
        tget s.chip.cust.backlog ch [] = [] ∧ tget s.chip.cust.warp ch [] =
        [{ frame := { op := 2, sub := frame.sub, bobbin := frame.bobbin, epoch := frame.epoch } }])) (md (up []) (fun c => c.cu (fun u =>
        { u with warp := [(7, [{ frame := { op := 2, sub := 4, bobbin := 5, epoch := 9 } }])] }))) (7)
        ({ op := 0x87, sub := 4, bobbin := 5, epoch := 9 }) = true := by
  decide +kernel

theorem wit_warpFrameCrcFail : (fun (s : State) (ch : Nat) => decide (s.chip.svcUp = true ∧ ch < 8 ∧ (tget s.chip.cust.warp ch []).head?.any (fun w
        => !w.resent) = true)) (md (up []) (fun c => c.cu (fun u =>
        { u with warp := [(7, [{ frame := { op := 2, sub := 4, bobbin := 5, epoch := 9 } }])] }))) (7) = true := by
  decide +kernel

theorem wit_warpFrameCrcFail2 : (fun (s : State) (ch : Nat) => decide (s.chip.svcUp = true ∧ tget s.chip.cust.warp ch [] = [])) (up []) (7) = true :=
        by
  decide +kernel

theorem wit_warpAnswerTimeout : (fun (s : State) (ch : Nat) => decide (s.chip.svcUp = true ∧ ch < 8 ∧ (tget s.chip.cust.warp ch []).head?.any (fun w
        => !w.resent) = true)) (md (up []) (fun c => c.cu (fun u =>
        { u with warp := [(7, [{ frame := { op := 2, sub := 4, bobbin := 5, epoch := 9 } }])] }))) (7) = true := by
  decide +kernel

theorem wit_warpAnswerTimeout2 : (fun (s : State) (ch : Nat) => decide (tget s.chip.cust.warp ch [] = [])) (up []) (7) = true := by
  decide +kernel

theorem wit_keyPushAck : (fun (s : State) => decide ((s.chip.front 0x04).all (fun m => (tget? s.chip.cust.pushes (numAt m.payload 8 4)).isNone) =
        true)) (inb [⟨0x04, 3, 0, 0, []⟩] (up [])) = true := by
  decide +kernel

theorem wit_keyPushAck2 : (fun (s : State) => decide ((s.chip.front 0x04).any (fun m => numAt m.payload 0 4 == ringKeyBob && numAt m.payload 12 1 ==
        0 && decide (tget? s.chip.cust.pushes (numAt m.payload 8 4) = some (m.src, numAt m.payload 0 4, numAt m.payload 4 4))) = true)) (md (inb
        [⟨0x04, 3, 0, 0, le 4 ringKeyBob ++ le 4 6 ++ le 4 9 ++ le 4 0⟩] (up [])) (fun c => c.cu (fun u =>
        { u with pushes := [(9, (3, ringKeyBob, 6))] }))) = true := by
  decide +kernel

theorem wit_limitReport : (fun (s : State) (ch : Nat) (frame : WarpFrame) => decide (s.chip.svcUp = false)) (at_ []) (0)
        ({ op := 0x87, sub := 0, bobbin := 5, epoch := 9 }) = true := by
  decide +kernel

theorem wit_limitReport2 : (fun (s : State) (ch : Nat) (frame : WarpFrame) => decide (s.chip.leads = true ∧ (s.chip.bob? frame.bobbin).any (fun b =>
        b.epoch == frame.epoch) = true)) (md (ldr []) (fun c => c.cu (fun u => { u with bobs := [(5, { bob0 with epoch := 9 })] }))) (0)
        ({ op := 0x87, sub := 0, bobbin := 5, epoch := 9 }) = true := by
  decide +kernel

theorem wit_journalProgramDone : (fun (s : State) (good : Bool) => decide ((s.chip.svcUp = false ∨ s.chip.cust.jrnl.page = []))) (up []) (true) =
        true := by
  decide +kernel

theorem wit_journalProgramDone2 : (fun (s : State) (good : Bool) => decide (s.chip.svcUp = true ∧ s.chip.cust.jrnl.page.isEmpty = false ∧ good =
        true)) (md (up [(F.BOB_JRNL_STATUS_PROGRAMMING, 1)]) (fun c => c.jr (fun j =>
        { j with page := [(8, { jseq := 1, op := 6, hank := 0, first := 5, last := 5 })], fails := 2 }))) (true) = true := by
  decide +kernel

theorem wit_journalProgramDone3 : (fun (s : State) (good : Bool) => decide (s.chip.svcUp = true ∧ s.chip.cust.jrnl.page.isEmpty = false ∧ good =
        false)) (md (up [(F.BOB_JRNL_STATUS_PROGRAMMING, 1)]) (fun c => c.jr (fun j =>
        { j with page := [(8, { jseq := 1, op := 6, hank := 0, first := 5, last := 5 })], fails := 2 }))) (false) = true := by
  decide +kernel

theorem wit_journalSectorEraseDone : (fun (s : State) => decide ((s.chip.svcUp = false ∨ s.chip.cust.jrnl.erasing = none))) (up []) = true := by
  decide +kernel

theorem wit_journalSectorEraseDone2 : (fun (s : State) => decide (s.chip.svcUp = true ∧ s.chip.cust.jrnl.erasing.isSome = true)) (md (up
        [(F.BOB_JRNL_STATUS_ERASING, 1)]) (fun c => c.jr (fun j => { j with erasing := some 3 }))) = true := by
  decide +kernel

theorem wit_journalSectorWaitTimeout : (fun (s : State) => decide ((s.chip.svcUp = false ∨ s.chip.jWaits = false))) (up []) = true := by
  decide +kernel

theorem wit_journalSectorWaitTimeout2 : (fun (s : State) => decide (s.chip.svcUp = true ∧ s.chip.jWaits = true)) (md (up [(F.BOB_STATUS_OPEN, 1)])
        (fun c => c.jr (fun j => { j with queue := [(none, { jseq := 1, op := 6, hank := 0, first := 5, last := 5 })] }))) = true := by
  decide +kernel

theorem wit_bobbinRecordUncorrectable : (fun (s : State) (bobbin : Nat) (fromPartner : Bool) => decide ((s.chip.svcUp = false ∨ s.chip.repairing
        bobbin = true))) (at_ []) (5) (false) = true := by
  decide +kernel

theorem wit_bobbinRecordUncorrectable2 : (fun (s : State) (bobbin : Nat) (fromPartner : Bool) => decide (s.chip.svcUp = true ∧ s.chip.repairing
        bobbin = false ∧ bobbin < 2 ^ 20)) (up []) (0xFFFFF) (true) = true := by
  decide +kernel

theorem wit_cacheRemask : (fun (s : State) => decide (s.chip.svcUp = false)) (at_ []) = true := by
  decide +kernel

theorem wit_cacheRemask2 : (fun (s : State) => decide (s.chip.svcUp = true)) (md (up []) (fun c => c.cu (fun u =>
        { u with cache := [⟨5, 9, true, [1#8], [2#8]⟩] }))) = true := by
  decide +kernel

theorem wit_dstCacheFlush : (fun (s : State) (req : Req) => decide (s.chip.opens req R.DST_CACHE_CTRL true = true)) (md (up []) (fun c => c.cu (fun u
        => { u with cache := [⟨5, 9, true, [1#8], [2#8]⟩, ⟨5, 8, false, [1#8], [2#8]⟩] }))) (reqSpindle) = true := by
  decide +kernel

theorem wit_bobWarpClear : (fun (s : State) (req : Req) (mask : BitVec 8) => decide (s.chip.opens req R.BOB_WARP_CTRL true = true)) (up
        [(F.BOB_WARP_STATUS_CH, 0xC00E)]) (reqSpindle) (0x83) = true := by
  decide +kernel

theorem wit_deadlineNear : (fun (s : State) (bobbin : Nat) => decide ((s.chip.leads = false ∨ s.chip.bob? bobbin = none))) (ldr []) (5) = true := by
  decide +kernel

theorem wit_deadlineNear2 : (fun (s : State) (bobbin : Nat) => decide (s.chip.leads = true ∧ (s.chip.bob? bobbin).any (fun b => decide (2 < b.cls) &&
        decide (s.chip.slotsTo b.deadline ≤ 65536)) = true)) (md (ldr []) (fun c => c.cu (fun u =>
        { u with bobs := [(5, { bob0 with cls := 5, deadline := 65536 })] }))) (5) = true := by
  decide +kernel

theorem wit_deadlinePassed : (fun (s : State) (bobbin : Nat) => decide ((s.chip.leads = false ∨ s.chip.bob? bobbin = none))) (ldr []) (5) = true := by
  decide +kernel

theorem wit_deadlinePassed2 : (fun (s : State) (bobbin : Nat) => decide (s.chip.leads = true ∧ (s.chip.bob? bobbin).any (fun b => decide (2 < b.cls)
        && decide (2 ^ 31 ≤ s.chip.slotsTo b.deadline)) = true)) (md (ldr []) (fun c =>
        { (c.cu (fun u => { u with bobs := [(5, { bob0 with cls := 5, deadline := 6 })] })) with time := 256 * 7 })) (5) = true := by
  decide +kernel

theorem wit_hankCreate : (fun (s : State) (n : Nat) (genuine : Bool) => decide (s.chip.callReady n 0x30 = true ∧ isBody (s.chip.callInput n) = true ∧
        s.chip.cores.pend = [] ∧ s.chip.waitsPartner = false)) (callB 0x30 (body0 1) 0 [] (ldr [])) (0) (true) = true := by
  decide +kernel

theorem wit_hankCreate2 : (fun (s : State) (n : Nat) (genuine : Bool) => decide (s.chip.callReady n 0x30 = true ∧ isBody (s.chip.callInput n) = false
        ∧ (s.chip.callInput n).length = 5536 ∧ s.chip.cores.pend = [] ∧ s.chip.waitsPartner = false)) (callZ 0x30 5536 (ldr [])) (0) (true) = true :=
        by
  decide +kernel

theorem wit_hankCreate3 : (fun (s : State) (n : Nat) (genuine : Bool) => decide (s.chip.callReady n 0x30 = true ∧ isBody (s.chip.callInput n) = false
        ∧ (s.chip.callInput n).length ≠ 5536)) (callIn 0x30 0 [] (ldr [])) (0) (true) = true := by
  decide +kernel

theorem wit_hankTeardown : (fun (s : State) (n : Nat) (genuine : Bool) => decide (s.chip.callReady n 0x31 = true ∧ isBody (s.chip.callInput n) = true
        ∧ s.chip.cores.pend = [] ∧ s.chip.waitsPartner = false)) (callB 0x31 (body0 3) 0 [] (ldr [])) (0) (true) = true := by
  decide +kernel

theorem wit_hankTeardown2 : (fun (s : State) (n : Nat) (genuine : Bool) => decide (s.chip.callReady n 0x31 = true ∧ isBody (s.chip.callInput n) =
        false ∧ (s.chip.callInput n).length = 5536 ∧ s.chip.cores.pend = [] ∧ s.chip.waitsPartner = false)) (callZ 0x31 5536 (ldr [])) (0) (true) =
        true := by
  decide +kernel

theorem wit_hankTeardown3 : (fun (s : State) (n : Nat) (genuine : Bool) => decide (s.chip.callReady n 0x31 = true ∧ isBody (s.chip.callInput n) =
        false ∧ (s.chip.callInput n).length ≠ 5536)) (callIn 0x31 0 [] (ldr [])) (0) (true) = true := by
  decide +kernel

theorem wit_ceremonyShare : (fun (s : State) (n : Nat) (genuine : Bool) => decide (s.chip.callReady n 0x32 = true ∧ isBody (s.chip.callInput n) =
        true ∧ s.chip.cores.pend = [] ∧ s.chip.waitsPartner = false)) (callB 0x32 (body0 2) 0 [] (ldr [])) (0) (true) = true := by
  decide +kernel

theorem wit_ceremonyShare2 : (fun (s : State) (n : Nat) (genuine : Bool) => decide (s.chip.callReady n 0x32 = true ∧ isBody (s.chip.callInput n) =
        false ∧ (s.chip.callInput n).length = 5536 ∧ s.chip.cores.pend = [] ∧ s.chip.waitsPartner = false)) (callZ 0x32 5536 (ldr [])) (0) (true) =
        true := by
  decide +kernel

theorem wit_ceremonyShare3 : (fun (s : State) (n : Nat) (genuine : Bool) => decide (s.chip.callReady n 0x32 = true ∧ isBody (s.chip.callInput n) =
        false ∧ (s.chip.callInput n).length ≠ 5536)) (callIn 0x32 0 [] (ldr [])) (0) (true) = true := by
  decide +kernel

theorem wit_consent : (fun (s : State) (n : Nat) (genuine : Bool) => decide (s.chip.callReady n 0x33 = true ∧ isBody (s.chip.callInput n) = true ∧
        obKind (s.chip.callInput n) ≠ 0x11 ∧ obKind (s.chip.callInput n) ≠ 0x12 ∧ s.chip.cores.pend = [] ∧ s.chip.waitsPartner = false)) (callB 0x33
        (body0 16) 0 [] (ldr [])) (0) (true) = true := by
  decide +kernel

theorem wit_consent2 : (fun (s : State) (n : Nat) (genuine : Bool) => decide (s.chip.callReady n 0x33 = true ∧ isBody (s.chip.callInput n) = false ∧
        (s.chip.callInput n).length = 5536 ∧ s.chip.cores.pend = [] ∧ s.chip.waitsPartner = false)) (callZ 0x33 5536 (ldr [])) (0) (true) = true := by
  decide +kernel

theorem wit_consent3 : (fun (s : State) (n : Nat) (genuine : Bool) => decide (s.chip.callReady n 0x33 = true ∧ isBody (s.chip.callInput n) = false ∧
        (s.chip.callInput n).length ≠ 5536)) (callIn 0x33 0 [] (ldr [])) (0) (true) = true := by
  decide +kernel

theorem wit_withdrawObject : (fun (s : State) (n : Nat) => decide (s.chip.callReady n 0x33 = true ∧ isBody (s.chip.callInput n) = true ∧ obKind
        (s.chip.callInput n) = 0x11 ∧ s.chip.cores.pend = [] ∧ s.chip.waitsPartner = false)) (callB 0x33 (body0 17) 0 [] (ldr [])) (0) = true := by
  decide +kernel

theorem wit_strandSet : (fun (s : State) (n : Nat) => decide (s.chip.callReady n 0x33 = true ∧ isBody (s.chip.callInput n) = true ∧ obKind
        (s.chip.callInput n) = 0x12 ∧ s.chip.cores.pend = [] ∧ s.chip.waitsPartner = false)) (callB 0x33 (body0 18) 0 [] (ldr [])) (0) = true := by
  decide +kernel

theorem wit_ownerEndorsement : (fun (s : State) (n : Nat) (genuine : Bool) => decide (s.chip.callReady n 0x32 = true ∧ isBody (s.chip.callInput n) =
        false ∧ (s.chip.callInput n).length = 5536 ∧ s.chip.waitsPartner = false)) (callZ 0x32 5536 (ldr [])) (0) (true) = true := by
  decide +kernel

theorem wit_ownerEndorsement2 : (fun (s : State) (n : Nat) (genuine : Bool) => decide (s.chip.callAt n = none)) (up []) (0) (true) = true := by
  decide +kernel

theorem wit_objectExpiry : (fun (s : State) (i : Nat) => decide (s.chip.hanks.pend[i]? = none)) (up []) (0) = true := by
  decide +kernel

theorem wit_objectExpiry2 : (fun (s : State) (i : Nat) => decide ((s.chip.hanks.pend[i]?).any (fun p => decide (p.expiry < s.chip.slot) && p.kind !=
        1) = true)) (md (up []) (fun c => { c with time := 256 * 9, hanks := { c.hanks with pend := [⟨[], 0x10, 3, 1, 7, 8, [], [], 0⟩] } })) (0) =
        true := by
  decide +kernel

theorem wit_hankKeying : (fun (s : State) (h : BitVec 4) => decide ((s.chip.svcUp = false ∨ s.chip.hankSt h.toNat ≠ 2))) (up []) (15) = true := by
  decide +kernel

theorem wit_hankKeying2 : (fun (s : State) (h : BitVec 4) => decide (s.chip.leads = true ∧ s.chip.jFailed = false ∧ (s.chip.hank? h.toNat).any (fun k
        => k.st == 2 && k.phase == 4) = true ∧ s.chip.cust.bobs.all (fun e => e.2.hank != h.toNat || e.2.enable == 3) = true)) (md (ldr []) (fun c =>
        { c with hanks := { c.hanks with tab := [(3, { hank0 with st := 2, phase := 4 })] }, cust := { c.cust with bobs := [(5, { bob0 with hank := 3, enable := 3 })] } }))
        (3) = true := by
  decide +kernel

theorem wit_hankTearing : (fun (s : State) (h : BitVec 4) => decide ((s.chip.svcUp = false ∨ s.chip.hankSt h.toNat ≠ 5))) (up []) (15) = true := by
  decide +kernel

theorem wit_hankTearing2 : (fun (s : State) (h : BitVec 4) => decide (s.chip.leads = true ∧ (s.chip.hank? h.toNat).any (fun k => k.st == 5 && k.phase
        == 2 && decide (k.jseq ≤ s.chip.get64 R.BOB_JDUR_LO)) = true)) (md (ldr []) (fun c =>
        { c with hanks := { c.hanks with tab := [(3, { hank0 with st := 5, phase := 2 })] } })) (3) = true := by
  decide +kernel

theorem wit_consentEndSlot : (fun (s : State) (h : BitVec 4) (kind : Nat) => decide (((s.chip.hank? h.toNat).bind (fun k => k.consent? kind)) =
        none)) (up []) (15) (0) = true := by
  decide +kernel

theorem wit_consentEndSlot2 : (fun (s : State) (h : BitVec 4) (kind : Nat) => decide (s.chip.svcUp = true ∧ kind ≠ 2 ∧ ((s.chip.hank? h.toNat).bind
        (fun k => k.consent? kind)).any (fun q => q.endSlot != 0 && decide (q.endSlot < s.chip.slot)) = true)) (md (ldr []) (fun c =>
        { c with time := 256 * 9, hanks := { c.hanks with tab := [(3, { hank0 with st := 3, consents := [⟨5, 1, 0, 0, 8, 0, [], 1⟩] })] } })) (3) (5)
        = true := by
  decide +kernel

theorem wit_scrubDigest : (fun (s : State) => decide (s.chip.front 0x51 = none)) (up []) = true := by
  decide +kernel

theorem wit_scrubDigest2 : (fun (s : State) => decide (s.chip.leads = true ∧ (s.chip.front 0x51).any (fun m => (s.chip.hankOfDie m.src).any (fun h =>
        ((s.chip.hank? h).bind (fun k => tget? k.scrubs m.src)).any (fun q => q.number == numAt m.payload 0 4 && !q.ok && numAt m.payload 4 1 == 0 &&
        numAt m.payload 5 1 == 15) && (tget? s.chip.hanks.dieRef m.src).isNone)) = true)) (md (inb
        [⟨0x51, 4, 0, 0, pack [(4, 6), (1, 0), (1, 15), (2, 0), (8, 64)] ++ List.replicate 48 0#8⟩] (ldr [])) (fun c =>
        { c with hanks := { c.hanks with tab := [(3, { hank0 with st := 3, dies := 16, scrubs := [(4, ⟨6, [], 1, false⟩)] })] } })) = true := by
  decide +kernel

theorem wit_scrubTimeout : (fun (s : State) (h : BitVec 4) (die : Nat) => decide (s.chip.leads = false)) (up [(F.GEN_ID_PKG_CLASS, 1)]) (3) (4) =
        true := by
  decide +kernel

theorem wit_scrubTimeout2 : (fun (s : State) (h : BitVec 4) (die : Nat) => decide (s.chip.leads = true ∧ ((s.chip.hank? h.toNat).bind (fun k => tget?
        k.scrubs die)).any (fun q => !q.ok) = true)) (md (ldr []) (fun c =>
        { c with hanks := { c.hanks with tab := [(3, { hank0 with st := 3, dies := 16, scrubs := [(4, ⟨6, [], 1, false⟩)] })] } })) (3) (4) = true :=
        by
  decide +kernel

theorem wit_quietReplyRelease : (fun (s : State) (i : Nat) => decide ((s.chip.svcUp = false ∨ (s.chip.late[i]?).all (fun l => decide (s.chip.slot <
        l.due)) = true))) (up []) (0) = true := by
  decide +kernel

theorem wit_quietReplyRelease2 : (fun (s : State) (i : Nat) => decide (s.chip.svcUp = true ∧ (s.chip.late[i]?).any (fun l => decide (l.due ≤
        s.chip.slot) && (match l.eff with | .spdm .. => true | _ => false)) = true)) (md (ldr []) (fun c =>
        { c with time := 256 * 16, late := [{ arrive := 0, period := 16, ready := 3, eff := .spdm 4 none [1#8] }] })) (0) = true := by
  decide +kernel

theorem wit_snapshotGet : (fun (s : State) (n : Nat) => decide (s.chip.callReady n 0x0002 = true ∧ s.chip.spdm.snap = none)) (callIn 2 0 [] (ldr []))
        (0) = true := by
  decide +kernel

theorem wit_snapshotGet2 : (fun (s : State) (n : Nat) => decide (s.chip.callReady n 0x0002 = true ∧ s.chip.spdm.snap.isSome = true)) (md (callIn 2 0
        [] (ldr [])) (fun c => { c with spdm := { c.spdm with snap := some { gen := 3 } } })) (0) = true := by
  decide +kernel

theorem wit_signReport : (fun (s : State) (n : Nat) => decide (s.chip.callReady n 0x0010 = true ∧ (s.chip.callAt n).any (fun k => (numAt k.args 4 1
        == 255 || decide (numAt k.args 4 1 < 16)) && (s.chip.snapOf (numAt k.args 0 4)).isNone) = true)) (callIn 0x10 0 [3, 255] (ldr [])) (0) = true
        := by
  decide +kernel

theorem wit_signReport2 : (fun (s : State) (n : Nat) => decide (s.chip.callReady n 0x0010 = true ∧ s.chip.cores.pend = [] ∧ (s.chip.callAt n).any
        (fun k => (numAt k.args 4 1 == 255 || decide (numAt k.args 4 1 < 16)) && (s.chip.snapOf (numAt k.args 0 4)).any (fun p => s.chip.sigRoom
        (numAt k.args 4 1) && decide (s.chip.callInput n = p.payload (slice (s.chip.callInput n) 6 32) (numAt k.args 4 1)))) = true)) (md (callB 0x10
        (Snap.payload { gen := 3 } (List.replicate 32 5#8) 255) 0 [3, 255] (ldr [])) (fun c =>
        { c with spdm := { c.spdm with snap := some { gen := 3 } } })) (0) = true := by
  decide +kernel

theorem wit_signSpdm : (fun (s : State) (n : Nat) => decide (s.chip.callReady n 0x0011 = true ∧ s.chip.get F.GEN_BOOT_NO_ID = 1)) (callIn 0x11 0 []
        (ldr [(F.GEN_BOOT_NO_ID, 1)])) (0) = true := by
  decide +kernel

theorem wit_signSpdm2 : (fun (s : State) (n : Nat) => decide (s.chip.callReady n 0x0011 = true ∧ s.chip.get F.GEN_BOOT_NO_ID = 0 ∧ s.chip.cores.pend
        = [] ∧ s.chip.sigRoom 255 = true ∧ (s.chip.callInput n).length = 56 ∧ 1 ≤ numAt (s.chip.callInput n) 0 1 ∧ numAt (s.chip.callInput n) 0 1 ≤ 3
        ∧ numAt (s.chip.callInput n) 1 1 ≤ 1 ∧ numAt (s.chip.callInput n) 2 6 = 0)) (callB 0x11 (3#8 :: 1#8 :: List.replicate 54 0#8) 0 [] (ldr []))
        (0) = true := by
  decide +kernel

theorem wit_sessionKeys : (fun (s : State) (n : Nat) => decide (s.chip.callReady n 0x0012 = true ∧ (s.chip.callAt n).any (fun k => (s.chip.sess?
        (numAt k.args 0 4)).isNone) = true)) (callIn 0x12 0 [9, 0, 0] (ldr [])) (0) = true := by
  decide +kernel

theorem wit_sessionKeys2 : (fun (s : State) (n : Nat) => decide (s.chip.callReady n 0x0012 = true ∧ (s.chip.callAt n).any (fun k => (s.chip.sess?
        (numAt k.args 0 4)).any (fun q => q.est) && decide (numAt k.args 4 1 < 32) && s.chip.chOwner (numAt k.args 4 1) == 0xF0 + k.core && decide
        (numAt k.args 5 1 < 4) && decide (numAt k.args 6 2 < 4096)) = true)) (md (callIn 0x12 0 [1, 0x0FFF0308, 7] (inSess (ldr []))) (fun c =>
        c.puti F.CRY_CHn_CFG_OWNER 8 0xF0)) (0) = true := by
  decide +kernel

theorem wit_reportSigned : (fun (s : State) (k : Nat) => decide (s.chip.spdm.queue[k]? = none)) (ldr []) (0) = true := by
  decide +kernel

theorem wit_reportSigned2 : (fun (s : State) (k : Nat) => decide (s.chip.svcUp = true ∧ (s.chip.spdm.queue[k]?).any
        (fun e => match e.2.2 with | .fetch _ _ _ _ _ _ => true | _ => false) = true)) (md (ldr []) (fun c =>
        { c with spdm := { c.spdm with queue := [(0, 255, .fetch 4 none 3 [1#8] 0 0)] } })) (0) = true := by
  decide +kernel

theorem wit_getVersion : (fun (s : State) (m : SpdmMsg) => decide (s.chip.answers = true ∧ numAt m.msg 1 1 = 0x84 ∧ m.good = true ∧ (s.chip.spdmBad
        m).isSome = true ∧ m.conn / 256 ≠ 1)) (ldr []) ({ conn := 3, msg := [0x11#8, 0x84#8, 0#8, 0#8] }) = true := by
  decide +kernel

theorem wit_getVersion2 : (fun (s : State) (m : SpdmMsg) => decide (s.chip.answers = true ∧ numAt m.msg 1 1 = 0x84 ∧ m.good = true ∧ s.chip.spdmBad m
        = none ∧ m.conn / 256 ≠ 1)) (ldr []) ({ conn := 3, msg := [0x10#8, 0x84#8, 0#8, 0#8] }) = true := by
  decide +kernel

theorem wit_getCapabilities : (fun (s : State) (m : SpdmMsg) => decide (s.chip.answers = true ∧ numAt m.msg 1 1 = 0xE1 ∧ m.good = true ∧
        (s.chip.spdmBad m).isSome = true ∧ m.conn / 256 ≠ 1)) (ldr []) ({ conn := 3, msg := [0x11#8, 0xE1#8, 0#8, 0#8] }) = true := by
  decide +kernel

theorem wit_getCapabilities2 : (fun (s : State) (m : SpdmMsg) => decide (s.chip.answers = true ∧ numAt m.msg 1 1 = 0xE1 ∧ m.good = true ∧
        s.chip.spdmBad m = none ∧ m.conn / 256 ≠ 1 ∧ 20 ≤ m.msg.length)) (spd 1 (ldr []))
        ({ conn := 0, msg := [0x13#8, 0xE1#8] ++ List.replicate 18 0#8 }) = true := by
  decide +kernel

theorem wit_negotiateAlgorithms : (fun (s : State) (m : SpdmMsg) => decide (s.chip.answers = true ∧ numAt m.msg 1 1 = 0xE3 ∧ m.good = true ∧
        (s.chip.spdmBad m).isSome = true ∧ m.conn / 256 ≠ 1)) (ldr []) ({ conn := 3, msg := [0x11#8, 0xE3#8, 0#8, 0#8] }) = true := by
  decide +kernel

theorem wit_negotiateAlgorithms2 : (fun (s : State) (m : SpdmMsg) => decide (s.chip.answers = true ∧ numAt m.msg 1 1 = 0xE3 ∧ m.good = true ∧
        s.chip.spdmBad m = none ∧ m.conn / 256 ≠ 1 ∧ algsOffered m.msg = true)) (spd 2 (ldr []))
        ({ conn := 0, msg := pack [(1, 0x13), (1, 0xE3), (1, 3), (1, 0), (2, 44), (1, 1), (1, 2), (4, 0x80), (4, 2), (16, 0), (2, 2), (2, 0x10), (2, 3), (2, 2), (2, 5), (2, 1)] })
        = true := by
  decide +kernel

theorem wit_getDigests : (fun (s : State) (m : SpdmMsg) => decide (s.chip.answers = true ∧ numAt m.msg 1 1 = 0x81 ∧ m.good = true ∧ (s.chip.spdmBad
        m).isSome = true ∧ m.conn / 256 ≠ 1)) (ldr []) ({ conn := 3, msg := [0x11#8, 0x81#8, 0#8, 0#8] }) = true := by
  decide +kernel

theorem wit_getDigests2 : (fun (s : State) (m : SpdmMsg) => decide (s.chip.answers = true ∧ numAt m.msg 1 1 = 0x81 ∧ m.good = true ∧ s.chip.spdmBad m
        = none ∧ m.conn / 256 ≠ 1)) (spd 3 (ldr [])) ({ conn := 0, msg := [0x13#8, 0x81#8, 0#8, 0#8] }) = true := by
  decide +kernel

theorem wit_getCertificate : (fun (s : State) (m : SpdmMsg) => decide (s.chip.answers = true ∧ numAt m.msg 1 1 = 0x82 ∧ m.good = true ∧
        (s.chip.spdmBad m).isSome = true ∧ m.conn / 256 ≠ 1)) (ldr []) ({ conn := 3, msg := [0x11#8, 0x82#8, 0#8, 0#8] }) = true := by
  decide +kernel

theorem wit_getCertificate2 : (fun (s : State) (m : SpdmMsg) => decide (s.chip.answers = true ∧ numAt m.msg 1 1 = 0x82 ∧ m.good = true ∧
        s.chip.spdmBad m = none ∧ m.conn / 256 ≠ 1 ∧ 8 ≤ m.msg.length ∧ numAt m.msg 2 1 % 16 = 0)) (spd 3 (ldr []))
        ({ conn := 0, msg := [0x13#8, 0x82#8, 0#8, 0#8, 0#8, 0#8, 0#8, 0#8] }) = true := by
  decide +kernel

theorem wit_challenge : (fun (s : State) (m : SpdmMsg) => decide (s.chip.answers = true ∧ numAt m.msg 1 1 = 0x83 ∧ m.good = true ∧ (s.chip.spdmBad
        m).isSome = true ∧ m.conn / 256 ≠ 1)) (ldr []) ({ conn := 3, msg := [0x11#8, 0x83#8, 0#8, 0#8] }) = true := by
  decide +kernel

theorem wit_challenge2 : (fun (s : State) (m : SpdmMsg) => decide (s.chip.answers = true ∧ numAt m.msg 1 1 = 0x83 ∧ m.good = true ∧ s.chip.spdmBad m
        = none ∧ m.conn / 256 ≠ 1 ∧ 44 ≤ m.msg.length ∧ numAt m.msg 2 1 % 16 = 0 ∧ summaryOk (numAt m.msg 3 1) = true ∧ s.chip.sigRoom 255 = true))
        (spd 3 (ldr [])) ({ conn := 0, msg := [0x13#8, 0x83#8, 0#8, 1#8] ++ List.replicate 40 0#8 }) = true := by
  decide +kernel

theorem wit_getMeasurements : (fun (s : State) (m : SpdmMsg) => decide (s.chip.answers = true ∧ numAt m.msg 1 1 = 0xE0 ∧ m.good = true ∧
        (s.chip.spdmBad m).isSome = true ∧ m.conn / 256 ≠ 1)) (ldr []) ({ conn := 3, msg := [0x11#8, 0xE0#8, 0#8, 0#8] }) = true := by
  decide +kernel

theorem wit_getMeasurements2 : (fun (s : State) (m : SpdmMsg) => decide (s.chip.answers = true ∧ numAt m.msg 1 1 = 0xE0 ∧ m.good = true ∧
        s.chip.spdmBad m = none ∧ m.conn / 256 ≠ 1 ∧ numAt m.msg 2 1 = 0 ∧ numAt m.msg 3 1 = 0 ∧ 12 ≤ m.msg.length)) (spd 3 (ldr []))
        ({ conn := 0, msg := [0x13#8, 0xE0#8] ++ List.replicate 10 0#8 }) = true := by
  decide +kernel

theorem wit_keyExchange : (fun (s : State) (m : SpdmMsg) => decide (s.chip.answers = true ∧ numAt m.msg 1 1 = 0xE4 ∧ m.good = true ∧ (s.chip.spdmBad
        m).isSome = true ∧ m.conn / 256 ≠ 1)) (ldr []) ({ conn := 3, msg := [0x11#8, 0xE4#8, 0#8, 0#8] }) = true := by
  decide +kernel

theorem wit_keyExchange2 : (fun (s : State) (m : SpdmMsg) => decide (s.chip.answers = true ∧ numAt m.msg 1 1 = 0xE4 ∧ m.good = true ∧ s.chip.spdmBad
        m = none ∧ m.conn / 256 ≠ 1 ∧ 138 ≤ m.msg.length ∧ numAt m.msg 136 2 = 0 ∧ numAt m.msg 3 1 % 16 = 0 ∧ summaryOk (numAt m.msg 2 1) = true ∧
        s.chip.ownSess.length < 32 ∧ s.chip.sigRoom 255 = true)) (spd 3 (ldr [])) ({ conn := 0, msg := [0x13#8, 0xE4#8] ++ List.replicate 136 0#8 })
        = true := by
  decide +kernel

theorem wit_finish : (fun (s : State) (m : SpdmMsg) => decide (s.chip.answers = true ∧ numAt m.msg 1 1 = 0xE5 ∧ m.good = true ∧ (s.chip.spdmBad
        m).isSome = true ∧ m.conn / 256 ≠ 1)) (ldr []) ({ conn := 3, msg := [0x11#8, 0xE5#8, 0#8, 0#8] }) = true := by
  decide +kernel

theorem wit_finish2 : (fun (s : State) (m : SpdmMsg) => decide (s.chip.answers = true ∧ numAt m.msg 1 1 = 0xE5 ∧ m.good = true ∧ s.chip.spdmBad m =
        none ∧ m.conn / 256 ≠ 1 ∧ m.msg.length = 52 ∧ bit (numAt m.msg 2 1) 0 = false)) (spd 3 (md (ldr []) (fun c =>
        { c with spdm := { c.spdm with sess := [(1, {})] } }))) ({ conn := 0, sess := some 1, msg := [0x13#8, 0xE5#8] ++ List.replicate 50 0#8 }) =
        true := by
  decide +kernel

theorem wit_heartbeat : (fun (s : State) (m : SpdmMsg) => decide (s.chip.answers = true ∧ numAt m.msg 1 1 = 0xE8 ∧ m.good = true ∧ (s.chip.spdmBad
        m).isSome = true ∧ m.conn / 256 ≠ 1)) (ldr []) ({ conn := 3, msg := [0x11#8, 0xE8#8, 0#8, 0#8] }) = true := by
  decide +kernel

theorem wit_heartbeat2 : (fun (s : State) (m : SpdmMsg) => decide (s.chip.answers = true ∧ numAt m.msg 1 1 = 0xE8 ∧ m.good = true ∧ s.chip.spdmBad m
        = none ∧ m.conn / 256 ≠ 1)) (inSess (ldr [])) ({ conn := 0, sess := some 1, msg := [0x13#8, 0xE8#8, 0#8, 0#8] }) = true := by
  decide +kernel

theorem wit_keyUpdate : (fun (s : State) (m : SpdmMsg) => decide (s.chip.answers = true ∧ numAt m.msg 1 1 = 0xE9 ∧ m.good = true ∧ (s.chip.spdmBad
        m).isSome = true ∧ m.conn / 256 ≠ 1)) (ldr []) ({ conn := 3, msg := [0x11#8, 0xE9#8, 0#8, 0#8] }) = true := by
  decide +kernel

theorem wit_keyUpdate2 : (fun (s : State) (m : SpdmMsg) => decide (s.chip.answers = true ∧ numAt m.msg 1 1 = 0xE9 ∧ m.good = true ∧ s.chip.spdmBad m
        = none ∧ m.conn / 256 ≠ 1 ∧ 1 ≤ numAt m.msg 2 1 ∧ numAt m.msg 2 1 ≤ 3)) (inSess (ldr []))
        ({ conn := 0, sess := some 1, msg := [0x13#8, 0xE9#8, 2#8, 7#8] }) = true := by
  decide +kernel

theorem wit_endSession : (fun (s : State) (m : SpdmMsg) => decide (s.chip.answers = true ∧ numAt m.msg 1 1 = 0xEC ∧ m.good = true ∧ (s.chip.spdmBad
        m).isSome = true ∧ m.conn / 256 ≠ 1)) (ldr []) ({ conn := 3, msg := [0x11#8, 0xEC#8, 0#8, 0#8] }) = true := by
  decide +kernel

theorem wit_endSession2 : (fun (s : State) (m : SpdmMsg) => decide (s.chip.answers = true ∧ numAt m.msg 1 1 = 0xEC ∧ m.good = true ∧ s.chip.spdmBad m
        = none ∧ m.conn / 256 ≠ 1)) (inSess (ldr [])) ({ conn := 0, sess := some 1, msg := [0x13#8, 0xEC#8, 0#8, 0#8] }) = true := by
  decide +kernel

theorem wit_sessionExpire : (fun (s : State) (id : Nat) => decide ((s.chip.sess? id).all (fun q => decide (s.chip.slot < q.last + 7812500)) = true))
        (inSess (ldr [])) (1) = true := by
  decide +kernel

theorem wit_sessionExpire2 : (fun (s : State) (id : Nat) => decide (s.chip.svcUp = true ∧ (s.chip.sess? id).any (fun q => q.conn != connMirror &&
        decide (q.last + 7812500 ≤ s.chip.slot)) = true)) (md (inSess (ldr [])) (fun c => { c with time := 256 * 7812500 })) (1) = true := by
  decide +kernel

theorem wit_orphanSessionExpire : (fun (s : State) (id : Nat) => decide ((s.chip.sess? id).all (fun q => q.orphan.isNone) = true)) (inSess (ldr []))
        (1) = true := by
  decide +kernel

theorem wit_orphanSessionExpire2 : (fun (s : State) (id : Nat) => decide (s.chip.svcUp = true ∧ (s.chip.sess? id).any (fun q => q.orphan.any (fun t
        => decide (t + 1048576 ≤ s.chip.slot))) = true)) (md (ldr []) (fun c =>
        { c with time := 256 * 1048576, spdm := { c.spdm with sess := [(1, { orphan := some 0 })] } })) (1) = true := by
  decide +kernel

theorem wit_getChain : (fun (s : State) (m : SpdmMsg) => decide (s.chip.answers = true ∧ numAt m.msg 1 1 = 0xFE ∧ m.good = true ∧ s.chip.spdmBad m =
        none ∧ m.conn / 256 ≠ 1 ∧ vendorOk m.msg = true ∧ numAt m.msg 15 2 = 0 ∧ vendorOp m.msg = 0x01 ∧ (vendorBody m.msg).length ≠ 7)) (spd 3 (ldr
        [])) ({ conn := 0, msg := vend 0x01 (List.replicate 8 0#8) }) = true := by
  decide +kernel

theorem wit_getChain2 : (fun (s : State) (m : SpdmMsg) => decide (s.chip.answers = true ∧ numAt m.msg 1 1 = 0xFE ∧ m.good = true ∧ s.chip.spdmBad m =
        none ∧ m.conn / 256 ≠ 1 ∧ vendorOk m.msg = true ∧ numAt m.msg 15 2 = 0 ∧ vendorOp m.msg = 0x01 ∧ (vendorBody m.msg).length = 7 ∧ numAt
        (vendorBody m.msg) 0 1 = 3 ∧ numAt (vendorBody m.msg) 1 4 ≤ s.chip.boot.clamp.length)) (md (spd 3 (ldr [])) (fun c =>
        { c with boot := { c.boot with clamp := [1#8, 2#8, 3#8] } })) ({ conn := 0, msg := vend 0x01 [3#8, 1#8, 0#8, 0#8, 0#8, 9#8, 0#8] }) = true :=
        by
  decide +kernel

theorem wit_hybridSig : (fun (s : State) (m : SpdmMsg) => decide (s.chip.answers = true ∧ numAt m.msg 1 1 = 0xFE ∧ m.good = true ∧ s.chip.spdmBad m =
        none ∧ m.conn / 256 ≠ 1 ∧ vendorOk m.msg = true ∧ numAt m.msg 15 2 = 0 ∧ vendorOp m.msg = 0x10 ∧ (vendorBody m.msg).length ≠ 1)) (spd 3 (ldr
        [])) ({ conn := 0, msg := vend 0x10 (List.replicate 2 0#8) }) = true := by
  decide +kernel

theorem wit_hybridSig2 : (fun (s : State) (m : SpdmMsg) => decide (s.chip.answers = true ∧ numAt m.msg 1 1 = 0xFE ∧ m.good = true ∧ s.chip.spdmBad m
        = none ∧ m.conn / 256 ≠ 1 ∧ vendorOk m.msg = true ∧ numAt m.msg 15 2 = 0 ∧ vendorOp m.msg = 0x10 ∧ (vendorBody m.msg).length = 1 ∧ numAt
        (vendorBody m.msg) 0 1 ≠ 3 ∧ (s.chip.conn m.conn).last.any (fun l => l.1 == numAt (vendorBody m.msg) 0 1) = true ∧ s.chip.sigRoom 255 =
        true)) (md (spd 3 (ldr [])) (fun c => { c with spdm := { c.spdm with conns := [(0, { stage := 3, last := some (2, [7#8]) })] } }))
        ({ conn := 0, msg := vend 0x10 [2#8] }) = true := by
  decide +kernel

theorem wit_kemOffer : (fun (s : State) (m : SpdmMsg) => decide (s.chip.answers = true ∧ numAt m.msg 1 1 = 0xFE ∧ m.good = true ∧ s.chip.spdmBad m =
        none ∧ m.conn / 256 ≠ 1 ∧ vendorOk m.msg = true ∧ numAt m.msg 15 2 = 0 ∧ vendorOp m.msg = 0x20 ∧ (vendorBody m.msg).length ≠ 1568)) (spd 3
        (ldr [])) ({ conn := 0, msg := vend 0x20 (List.replicate 1569 0#8) }) = true := by
  decide +kernel

theorem wit_kemOffer2 : (fun (s : State) (m : SpdmMsg) => decide (s.chip.answers = true ∧ numAt m.msg 1 1 = 0xFE ∧ m.good = true ∧ s.chip.spdmBad m =
        none ∧ m.conn / 256 ≠ 1 ∧ vendorOk m.msg = true ∧ numAt m.msg 15 2 = 0 ∧ vendorOp m.msg = 0x20 ∧ (vendorBody m.msg).length = 1568)) (spd 3
        (ldr [])) ({ conn := 0, msg := vend 0x20 (List.replicate 1568 0#8) }) = true := by
  decide +kernel

theorem wit_getReport : (fun (s : State) (m : SpdmMsg) => decide (s.chip.answers = true ∧ numAt m.msg 1 1 = 0xFE ∧ m.good = true ∧ s.chip.spdmBad m =
        none ∧ m.conn / 256 ≠ 1 ∧ vendorOk m.msg = true ∧ numAt m.msg 15 2 = 0 ∧ vendorOp m.msg = 0x30 ∧ (vendorBody m.msg).length ≠ 41)) (spd 3 (ldr
        [])) ({ conn := 0, msg := vend 0x30 (List.replicate 42 0#8) }) = true := by
  decide +kernel

theorem wit_getReport2 : (fun (s : State) (m : SpdmMsg) => decide (s.chip.answers = true ∧ numAt m.msg 1 1 = 0xFE ∧ m.good = true ∧ s.chip.spdmBad m
        = none ∧ m.conn / 256 ≠ 1 ∧ vendorOk m.msg = true ∧ numAt m.msg 15 2 = 0 ∧ vendorOp m.msg = 0x30 ∧ (vendorBody m.msg).length = 41 ∧ numAt
        (vendorBody m.msg) 32 1 = 255 ∧ numAt (vendorBody m.msg) 33 4 = 0 ∧ s.chip.spdm.snap.isSome = true ∧ s.chip.sigRoom 255 = true)) (md (spd 3
        (ldr [])) (fun c => { c with spdm := { c.spdm with snap := some { gen := 3 } } }))
        ({ conn := 0, msg := vend 0x30 (List.replicate 32 0#8 ++ 255#8 :: List.replicate 8 0#8) }) = true := by
  decide +kernel

theorem wit_getReceipt : (fun (s : State) (m : SpdmMsg) => decide (s.chip.answers = true ∧ numAt m.msg 1 1 = 0xFE ∧ m.good = true ∧ s.chip.spdmBad m
        = none ∧ m.conn / 256 ≠ 1 ∧ vendorOk m.msg = true ∧ numAt m.msg 15 2 = 0 ∧ vendorOp m.msg = 0x50 ∧ (vendorBody m.msg).length ≠ 9)) (spd 3
        (ldr [])) ({ conn := 0, msg := vend 0x50 (List.replicate 10 0#8) }) = true := by
  decide +kernel

theorem wit_getReceipt2 : (fun (s : State) (m : SpdmMsg) => decide (s.chip.answers = true ∧ numAt m.msg 1 1 = 0xFE ∧ m.good = true ∧ s.chip.spdmBad m
        = none ∧ m.conn / 256 ≠ 1 ∧ vendorOk m.msg = true ∧ numAt m.msg 15 2 = 0 ∧ vendorOp m.msg = 0x50 ∧ (vendorBody m.msg).length = 9 ∧
        s.chip.hank? (numAt (vendorBody m.msg) 0 1) = none ∧ s.chip.hanks.tab = [])) (spd 3 (ldr []))
        ({ conn := 0, msg := vend 0x50 (List.replicate 9 0#8) }) = true := by
  decide +kernel

theorem wit_getReceipt3 : (fun (s : State) (m : SpdmMsg) => decide (s.chip.answers = true ∧ numAt m.msg 1 1 = 0xFE ∧ m.good = true ∧ s.chip.spdmBad m
        = none ∧ m.conn / 256 ≠ 1 ∧ vendorOk m.msg = true ∧ numAt m.msg 15 2 = 0 ∧ vendorOp m.msg = 0x50 ∧ (vendorBody m.msg).length = 9 ∧
        (s.chip.hank? (numAt (vendorBody m.msg) 0 1)).isSome = true ∧ s.chip.quietHanks = [])) (md (spd 3 (ldr [])) (fun c =>
        { c with hanks := { c.hanks with tab := [(3, { hank0 with st := 3 })] } })) ({ conn := 0, msg := vend 0x50 (3#8 :: List.replicate 8 0#8) }) =
        true := by
  decide +kernel

theorem wit_getTwistHead : (fun (s : State) (m : SpdmMsg) => decide (s.chip.answers = true ∧ numAt m.msg 1 1 = 0xFE ∧ m.good = true ∧ s.chip.spdmBad
        m = none ∧ m.conn / 256 ≠ 1 ∧ vendorOk m.msg = true ∧ numAt m.msg 15 2 = 0 ∧ vendorOp m.msg = 0x51 ∧ (vendorBody m.msg).length ≠ 1)) (spd 3
        (ldr [])) ({ conn := 0, msg := vend 0x51 (List.replicate 2 0#8) }) = true := by
  decide +kernel

theorem wit_getTwistHead2 : (fun (s : State) (m : SpdmMsg) => decide (s.chip.answers = true ∧ numAt m.msg 1 1 = 0xFE ∧ m.good = true ∧ s.chip.spdmBad
        m = none ∧ m.conn / 256 ≠ 1 ∧ vendorOk m.msg = true ∧ numAt m.msg 15 2 = 0 ∧ vendorOp m.msg = 0x51 ∧ (vendorBody m.msg).length = 1 ∧
        (s.chip.hank? (numAt (vendorBody m.msg) 0 1)).isSome = true ∧ s.chip.quietHanks = [])) (md (spd 3 (ldr [])) (fun c =>
        { c with hanks := { c.hanks with tab := [(3, { hank0 with st := 3 })] } })) ({ conn := 0, msg := vend 0x51 [3#8] }) = true := by
  decide +kernel

theorem wit_rebind : (fun (s : State) (m : SpdmMsg) => decide (s.chip.answers = true ∧ numAt m.msg 1 1 = 0xFE ∧ m.good = true ∧ s.chip.spdmBad m =
        none ∧ m.conn / 256 ≠ 1 ∧ vendorOk m.msg = true ∧ numAt m.msg 15 2 = 0 ∧ vendorOp m.msg = 0x60 ∧ m.sess = none)) (spd 3 (ldr []))
        ({ conn := 0, msg := vend 0x60 [] }) = true := by
  decide +kernel

theorem wit_rebind2 : (fun (s : State) (m : SpdmMsg) => decide (s.chip.answers = true ∧ numAt m.msg 1 1 = 0xFE ∧ m.good = true ∧ s.chip.spdmBad m =
        none ∧ m.conn / 256 ≠ 1 ∧ vendorOk m.msg = true ∧ numAt m.msg 15 2 = 0 ∧ vendorOp m.msg = 0x60 ∧ (vendorBody m.msg).length = 36 ∧
        m.sess.isSome = true ∧ (s.chip.sess? (numAt (vendorBody m.msg) 0 4)).any (fun q => q.orphan.isSome) = true)) (md (inSess (ldr [])) (fun c =>
        { c with spdm := { c.spdm with sess := [(1, { est := true, hybrid := true }), (2, { orphan := some 0 })] } }))
        ({ conn := 0, sess := some 1, msg := vend 0x60 (2#8 :: List.replicate 35 0#8) }) = true := by
  decide +kernel

theorem wit_getLeakage : (fun (s : State) (m : SpdmMsg) => decide (s.chip.answers = true ∧ numAt m.msg 1 1 = 0xFE ∧ m.good = true ∧ s.chip.spdmBad m
        = none ∧ m.conn / 256 ≠ 1 ∧ vendorOk m.msg = true ∧ numAt m.msg 15 2 = 0 ∧ vendorOp m.msg = 0x70 ∧ (vendorBody m.msg).isEmpty = true)) (spd 3
        (ldr [])) ({ conn := 0, msg := vend 0x70 [] }) = true := by
  decide +kernel

theorem wit_ownerObjectPortion : (fun (s : State) (m : SpdmMsg) (genuine : Bool) => decide (s.chip.answers = true ∧ numAt m.msg 1 1 = 0xFE ∧ m.good =
        true ∧ s.chip.spdmBad m = none ∧ m.conn / 256 ≠ 1 ∧ vendorOk m.msg = true ∧ numAt m.msg 15 2 = 0 ∧ 0x40 ≤ vendorOp m.msg ∧ vendorOp m.msg ≤
        0x43 ∧ m.sess = none)) (spd 3 (ldr [])) ({ conn := 0, msg := vend 0x43 [] }) (true) = true := by
  decide +kernel

theorem wit_ownerObjectPortion2 : (fun (s : State) (m : SpdmMsg) (genuine : Bool) => decide (s.chip.answers = true ∧ numAt m.msg 1 1 = 0xFE ∧ m.good
        = true ∧ s.chip.spdmBad m = none ∧ m.conn / 256 ≠ 1 ∧ vendorOk m.msg = true ∧ numAt m.msg 15 2 = 0 ∧ 0x40 ≤ vendorOp m.msg ∧ vendorOp m.msg ≤
        0x43 ∧ (m.sess.bind s.chip.sess?).any (fun q => q.hybrid) = true ∧ s.chip.hanks.parts = [] ∧ s.chip.waitsPartner = false ∧ numAt (vendorBody
        m.msg) 0 4 ≠ 0 ∧ numAt (vendorBody m.msg) 4 1 = 1 ∧ numAt (vendorBody m.msg) 5 3 = 0 ∧ 64 ≤ numAt (vendorBody m.msg) 8 4 ∧ numAt (vendorBody
        m.msg) 8 4 ≤ 196608 ∧ 16 < (vendorBody m.msg).length ∧ (vendorBody m.msg).length ≤ 14352 ∧ numAt (vendorBody m.msg) 12 4 + (vendorBody
        m.msg).length - 16 < numAt (vendorBody m.msg) 8 4)) (inSess (ldr []))
        ({ conn := 0, sess := some 1, msg := vend 0x42 (pack [(4, 9), (1, 1), (3, 0), (4, 64), (4, 0)] ++ [1#8]) }) (true) = true := by
  decide +kernel

theorem wit_svcWrite : (fun (s : State) (frame : List Byte) => decide (s.chip.svcRdyN = true)) (up []) ([1#8]) = true := by
  decide +kernel

theorem wit_svcWrite2 : (fun (s : State) (frame : List Byte) => decide (s.chip.svcRdyN = false)) (md (ldr []) (fun c =>
        { c with upd := { c.upd with portOut := some [2#8] } })) ([1#8]) = true := by
  decide +kernel

theorem wit_svcRead : (fun (s : State) => decide (s.chip.portMode = none)) (up []) = true := by
  decide +kernel

theorem wit_svcRead2 : (fun (s : State) => decide (s.chip.portMode.isSome = true ∧ s.chip.upd.portOut = none)) (ldr []) = true := by
  decide +kernel

theorem wit_svcRead3 : (fun (s : State) => decide (s.chip.portMode.isSome = true ∧ s.chip.upd.portOut.isSome = true)) (md (ldr []) (fun c =>
        { c with upd := { c.upd with portOut := some [2#8] } })) = true := by
  decide +kernel

theorem wit_updateHello : (fun (s : State) (via : Option Nat) => decide (via = none ∧ s.chip.portMode = some .running ∧ s.chip.upd.portIn.any (fun b
        => (updFrame b).2 && (updFrame b).1.cmd == 0x01) = true)) (port 0x01 7 []) (none) = true := by
  decide +kernel

theorem wit_updBegin : (fun (s : State) (via : Option Nat) => decide (via = none ∧ s.chip.portMode = some .running ∧ s.chip.upd.portIn.any (fun b =>
        (updFrame b).2 && (updFrame b).1.cmd == 0x10) = true ∧ s.chip.upd.record = {} ∧ s.chip.upd.portIn.any (fun b => (updFrame b).1.payload.length
        == 56 && numAt (updFrame b).1.payload 0 1 == 1 && decide (8192 ≤ numAt (updFrame b).1.payload 4 4) && decide (numAt (updFrame b).1.payload 4
        4 ≤ (imgArea 1).2)) = true)) (port 0x10 0 (pack [(1, 1), (3, 0), (4, 8192)] ++ List.replicate 48 7#8)) (none) = true := by
  decide +kernel

theorem wit_updPiece : (fun (s : State) (via : Option Nat) (flaw : Bool) => decide (via = none ∧ s.chip.portMode = some .running ∧
        s.chip.upd.portIn.any (fun b => (updFrame b).2 && (updFrame b).1.cmd == 0x11) = true ∧ flaw = false ∧ s.chip.upd.record.session ≠ 0 ∧
        s.chip.upd.record.pieces ≤ 2048 ∧ s.chip.upd.portIn.any (fun b => (updFrame b).1.session == s.chip.upd.record.session && decide ((updFrame
        b).1.index < s.chip.upd.record.pieces) && (updFrame b).1.payload.length == 48 + pieceLen s.chip.upd.record.total s.chip.upd.record.pieces
        (updFrame b).1.index && (s.chip.piece? (updFrame b).1.index).isNone && norBlank s.chip.mem.nor (incoming + 4096 * (updFrame b).1.index) 4096
        && decide ((updFrame b).1.payload.length ≤ 4144)) = true)) (md (port 0x11 9 (List.replicate 48 0#8 ++ [5#8])) (fun c =>
        { c with upd := { c.upd with record := { session := 9, typ := 1, total := 1, pieces := 1 } } })) (none) (false) = true := by
  decide +kernel

theorem wit_updQuery : (fun (s : State) (via : Option Nat) => decide (via = none ∧ s.chip.portMode = some .running ∧ s.chip.upd.portIn.any (fun b =>
        (updFrame b).2 && (updFrame b).1.cmd == 0x12) = true)) (port 0x12 7 []) (none) = true := by
  decide +kernel

theorem wit_updCheck : (fun (s : State) (via : Option Nat) => decide (via = none ∧ s.chip.portMode = some .running ∧ s.chip.upd.portIn.any (fun b =>
        (updFrame b).2 && (updFrame b).1.cmd == 0x13) = true ∧ s.chip.upd.record.session ≠ 0 ∧ s.chip.upd.record.pieces = 0 ∧ s.chip.upd.erase = [] ∧
        s.chip.upd.check = none ∧ s.chip.upd.loader = none ∧ s.chip.upd.portIn.any (fun b => (updFrame b).1.session == s.chip.upd.record.session) =
        true)) (md (port 0x13 9 []) (fun c => { c with upd := { c.upd with record := { session := 9 } } })) (none) = true := by
  decide +kernel

theorem wit_checkComplete : (fun (s : State) => decide (s.chip.upd.check = none)) (ldr []) = true := by
  decide +kernel

theorem wit_checkComplete2 : (fun (s : State) => decide (s.chip.upd.check.isSome = true ∧ s.chip.phase ≠ 0x17)) (md (ldr []) (fun c =>
        { c with upd := { c.upd with record := { session := 8 }, check := some ⟨.port, 0x13, 9, 0⟩ } })) = true := by
  decide +kernel

theorem wit_updActivate : (fun (s : State) (via : Option Nat) (flaw : Bool) => decide (via = none ∧ s.chip.portMode = some .running ∧
        s.chip.upd.portIn.any (fun b => (updFrame b).2 && (updFrame b).1.cmd == 0x14) = true ∧ s.chip.pkg = .hx4 ∧ s.chip.phase = 0x40 ∧
        s.chip.hanks.tab = [] ∧ s.chip.upd.record.stage = 2 ∧ s.chip.upd.record.set = [] ∧ s.chip.upd.check = none ∧ s.chip.upd.loader = none ∧
        s.chip.upd.confirm = none ∧ s.chip.upd.portIn.any (fun b => (updFrame b).1.session == s.chip.upd.record.session && numAt (updFrame
        b).1.payload 0 4 == 0) = true)) (md (port 0x14 9 [0#8, 0#8, 0#8, 0#8]) (fun c =>
        { c with upd := { c.upd with record := { session := 9, typ := 1, stage := 2 } } })) (none) (false) = true := by
  decide +kernel

theorem wit_loaderActivation : (fun (s : State) (flaw : Bool) => decide ((s.chip.svcUp = false ∨ s.chip.upd.loader = none))) (ldr []) (false) = true
        := by
  decide +kernel

theorem wit_loaderActivation2 : (fun (s : State) (flaw : Bool) => decide (s.chip.svcUp = true ∧ s.chip.hanks.tab = [] ∧ s.chip.upd.loader.any (fun l
        => l.step == 11) = true ∧ s.chip.upd.record.set = [])) (md (ldr []) (fun c =>
        { c with upd := { c.upd with loader := some { step := 11, typ := 1, origin := ⟨.port, 0x14, 9, 0⟩ } } })) (false) = true := by
  decide +kernel

theorem wit_loaderActivation3 : (fun (s : State) (flaw : Bool) => decide (s.chip.svcUp = true ∧ s.chip.hanks.tab = [] ∧ s.chip.upd.loader.any (fun l
        => l.step == 3 && s.chip.upd.record.set.any (fun e => e.typ == l.typ)) = true)) (md (ldr []) (fun c =>
        { c with upd := { c.upd with record := { set := [SetEnt.mk 1 1 1 0 0 [] []] }, loader := some { step := 3, typ := 1, origin := ⟨.port, 0x14, 9, 0⟩ } } }))
        (false) = true := by
  decide +kernel

theorem wit_updRestore : (fun (s : State) (via : Option Nat) (flaw : Bool) => decide (via = none ∧ s.chip.portMode = some .recovery ∧
        s.chip.upd.portIn.any (fun b => (updFrame b).2 && (updFrame b).1.cmd == 0x15) = true ∧ s.chip.upd.rcv.written = false ∧
        s.chip.upd.record.set.any (fun e => e.typ == 1) = false)) (md (port 0x15 9 []) (fun c => c.setPhase 0x17)) (none) (false) = true := by
  decide +kernel

theorem wit_updRestore2 : (fun (s : State) (via : Option Nat) (flaw : Bool) => decide (via = none ∧ s.chip.portMode = some .recovery ∧
        s.chip.upd.portIn.any (fun b => (updFrame b).2 && (updFrame b).1.cmd == 0x15) = true ∧ flaw = false ∧ s.chip.upd.rcv.written = false ∧
        s.chip.upd.record.set.any (fun e => e.typ == 1) = true)) (md (port 0x15 9 []) (fun c =>
        { (c.setPhase 0x17) with upd := { c.upd with record := { set := [SetEnt.mk 1 1 1 0 0 [] []] } } })) (none) (false) = true := by
  decide +kernel

theorem wit_abort : (fun (s : State) (via : Option Nat) => decide (via = none ∧ s.chip.portMode = some .running ∧ s.chip.upd.portIn.any (fun b =>
        (updFrame b).2 && (updFrame b).1.cmd == 0x16) = true ∧ s.chip.upd.record.session ≠ 0 ∧ s.chip.upd.loader = none ∧ s.chip.upd.portIn.any (fun
        b => (updFrame b).1.session == s.chip.upd.record.session) = true)) (md (port 0x16 9 []) (fun c =>
        { c with upd := { c.upd with record := { session := 9, typ := 1 } } })) (none) = true := by
  decide +kernel

theorem wit_updConfirm : (fun (s : State) (via : Option Nat) => decide (via = none ∧ s.chip.portMode = some .running ∧ s.chip.upd.portIn.any (fun b
        => (updFrame b).2 && (updFrame b).1.cmd == 0x17) = true ∧ s.chip.confirmBar = true)) (md (port 0x17 9 []) (fun c => c.setPhase 0x30)) (none)
        = true := by
  decide +kernel

theorem wit_updConfirm2 : (fun (s : State) (via : Option Nat) => decide (via = none ∧ s.chip.portMode = some .running ∧ s.chip.upd.portIn.any (fun b
        => (updFrame b).2 && (updFrame b).1.cmd == 0x17) = true ∧ s.chip.confirmBar = false ∧ s.chip.upd.loader = none ∧ s.chip.upd.confirm = none))
        (port 0x17 9 []) (none) = true := by
  decide +kernel

theorem wit_updateReset : (fun (s : State) (via : Option Nat) (recoveryN : Bool) => decide (via = none ∧ s.chip.portMode = some .recovery ∧
        s.chip.upd.portIn.any (fun b => (updFrame b).2 && (updFrame b).1.cmd == 0x1F) = true)) (md (port 0x1F 9 []) (fun c => c.setPhase 0x17))
        (none) (true) = true := by
  decide +kernel

theorem wit_stagingEraseDone : (fun (s : State) => decide (s.chip.upd.erase = [])) (ldr []) = true := by
  decide +kernel

theorem wit_stagingEraseDone2 : (fun (s : State) => decide (s.chip.svcUp = true ∧ s.chip.cust.jrnl.page = [] ∧ s.chip.upd.erase ≠ [])) (md (ldr [])
        (fun c => { c with upd := { c.upd with erase := [0x900000] } })) = true := by
  decide +kernel

/-! Ill-formed commands: one for each check of `Instr.wf`. -/

theorem test_wf_word_aligned : (Instr.registerWrite 0xFF#8 2 0#32).wf = false := by decide +kernel
theorem test_wf_window : (Instr.registerWrite 0xFF#8 0x80000 0#32).wf = false := by decide +kernel
theorem test_wf_strap : (Instr.porstNRise 4 false true).wf = false := by decide +kernel
theorem test_wf_cells : (Instr.otpAuditDone [(0, { tight := 1, normal := 0, loose := 1 })]).wf = false := by decide +kernel
theorem test_wf_fuse_word : (Instr.otpAuditDone [(4099, {})]).wf = false := by decide +kernel
theorem test_wf_region : (Instr.fetchReq 8).wf = false := by decide +kernel
theorem test_wf_lock_row : (Instr.quenchDone 8).wf = false := by decide +kernel
theorem test_wf_rom : (Instr.romInit []).wf = false := by decide +kernel
theorem test_wf_die : (Instr.cardRetryTimer 64).wf = false := by decide +kernel
theorem test_wf_core : (Instr.coreRestart 0xFF#8 6).wf = false := by decide +kernel
theorem test_wf_fence_cause : (Instr.rovingCoreFence 0 2).wf = false := by decide +kernel
theorem test_wf_mailbox : (Instr.mbRelease 0xFF#8 false 16).wf = false := by decide +kernel
theorem test_wf_mailbox_word : (Instr.mbDataWrite 0xFF#8 false 15 16 0#32).wf = false := by decide +kernel
theorem test_wf_bobbin : (Instr.deadlineNear (2 ^ 20)).wf = false := by decide +kernel
theorem test_wf_blob : (Instr.blobLoadDone 0 (List.replicate 65 0#8)).wf = false := by decide +kernel
theorem test_wf_samples : (Instr.entropyHealthFail false [0#8]).wf = false := by decide +kernel
theorem test_wf_warp : (Instr.katDone 0 { op := 256, sub := 0, bobbin := 0, epoch := 0 }).wf = false := by decide +kernel
theorem test_wf_channel : (Instr.warpAnswerTimeout 16).wf = false := by decide +kernel
theorem test_wf_marker : (Instr.markerReceive false []).wf = false := by decide +kernel
theorem test_wf_feed : (Instr.dgtFeed 0xFF#8 0#6 [0#8]).wf = false := by decide +kernel
theorem test_wf_lane : (Instr.laneDrained 5 1).wf = false := by decide +kernel
theorem test_wf_dma_move : (Instr.dmaPauseDrained { ch := 0, staged := 260 }).wf = false := by decide +kernel
theorem test_wf_dma_cause : (Instr.dmaBusError 0#5 6 0 false false none []).wf = false := by decide +kernel
theorem test_wf_spdm : (Instr.getVersion { conn := 512, msg := [0#8, 0#8] }).wf = false := by decide +kernel
theorem test_wf_consent_kind : (Instr.consentEndSlot 0#4 9).wf = false := by decide +kernel
theorem test_wf_hello : (Instr.hello []).wf = false := by decide +kernel
theorem test_wf_node : (Instr.nodeReady 66).wf = false := by decide +kernel
theorem test_wf_frame : (Instr.skeinFrameReceive []).wf = false := by decide +kernel
theorem test_wf_bridge : (Instr.sknBridgeWrite 0xFF#8 3 0#32).wf = false := by decide +kernel
theorem test_wf_update_box : (Instr.updQuery (some 16)).wf = false := by decide +kernel
theorem test_wf_debug_bus : (Instr.dtmSpn (.busRead 2 [])).wf = false := by decide +kernel
theorem test_wf_breakpoint : (Instr.breakpointMatch 0 4 0).wf = false := by decide +kernel
theorem test_wf_trace : (Instr.traceArm 0xFF#8 17).wf = false := by decide +kernel
theorem test_wf_boundary : (Instr.counterSample []).wf = false := by decide +kernel

/-! Witnesses for the conditions of the general statements, at the bounds of their ranges. -/

theorem wit_EmptyQueueIdles : State.reset.pending = [] := by decide +kernel
theorem wit_RovingPages : classOf 0xF0#8 = .roving ∧ classOf 0xF5#8 = .roving ∧ (Chip.granted (up []).chip 0xF5#8 0x2000 true = false) ∧
    Chip.granted (up []).chip 0xF5#8 0x2FFC false = false ∧ Chip.granted (up []).chip 0xF0#8 0xA000 false = false ∧
    Chip.granted (up []).chip 0xF0#8 0xBFFC true = false ∧ Chip.granted (up []).chip 0xF5#8 0xE000 false = false ∧
    Chip.granted (up []).chip 0xF5#8 0xEFFC false = false := by decide +kernel
theorem wit_ExternalPages : classOf 0#8 = .external ∧ Chip.granted (up []).chip 1#8 R.GEN_ID false = true ∧ Chip.granted (up []).chip 1#8 R.GEN_ID
        true = false ∧
    Chip.granted (up []).chip 0xEF#8 0x9000 true = true ∧ Chip.granted (up []).chip 0xEF#8 0x9FFC false = true ∧
    Chip.granted (up []).chip 0xEF#8 0xA000 false = false ∧ Chip.granted (md (up []) (fun c =>
        { c with pins := { c.pins with reqSec := true } })).chip 1#8 0x20000 false = true ∧ Chip.granted (up []).chip 1#8 0x20000 false = false ∧
    Chip.granted (md (up []) (fun c => { c with pins := { c.pins with reqSec := true } })).chip 1#8 0x5FFFC false = true ∧ Chip.granted (up []).chip
        1#8 0x60000 false = false ∧
    Chip.granted (up []).chip 1#8 0x20000 true = false := by decide +kernel
theorem wit_RefusedAccess : badReq 0xF0#8 = false ∧ (up []).chip.powered 0x2000 = true ∧ (up []).chip.granted 0xF0#8 0x2000 true = false :=
        by decide +kernel
theorem wit_QueueKept : ∃ t, exec .sleepFrame (up []) = .next t := ⟨_, rfl⟩
theorem wit_FusesNeverUnblown : ∃ t, step (up []) = .next t := ⟨_, rfl⟩
theorem wit_MemoriesKeepForm : memWf 0#8 State.reset.chip.mem.spn = true ∧ memWf 0#8 State.reset.chip.mem.rov = true ∧
    memWf 0xFF#8 State.reset.chip.mem.nor = true := by decide +kernel
theorem wit_LogBounds : ({} : Logs).aon.length ≤ 64 ∧ (List.replicate 64 (⟨0, 0, 0, []⟩ : EvRec)).length = 64 ∧
    4096 ≤ (List.replicate 4096 (⟨0, 0, 0, []⟩ : EvRec)).length := by
  refine ⟨by decide, ?_, ?_⟩ <;> simp
theorem wit_SnagTotals : (up []).chip.get F.SNG_CTRL_BASE_LOCK = 0 ∧ (up [(F.SNG_CTRL_BASE_LOCK, 1)]).chip.get F.SNG_CTRL_BASE_LOCK ≠ 0 ∧
    ((up [(F.SNG_CTRL_BASE_LOCK, 1)]).chip.rd (R.SNG_BASE_x 0)).toNat + 0xFFFFFFFF ≤ 0xFFFFFFFF := by decide +kernel
theorem wit_FrameRoundTrip :
    let f : RingFrame := ⟨255, 255, 255, 255, 2 ^ 32 - 1, 2 ^ 16 - 1, List.replicate 16 0#8, List.replicate 16 0#8⟩
    f.typ < 256 ∧ f.flags < 256 ∧ f.src < 256 ∧ f.dst < 256 ∧ f.seq < 2 ^ 32 ∧ f.rkey < 2 ^ 16 ∧ f.payload.length ≤ 192 ∧ f.payload.length % 16 = 0 ∧
      f.tag.length = 16 ∧ parseFrame f.bytes = some f := by decide +kernel
theorem wit_BadFrameRefused : crc32c (List.replicate 12 0#8) ≠ 0 := by decide +kernel
theorem wit_LockRead : (up []).chip.opens 1#8 (mbLockOff true 0) false = true ∧ (up []).chip.mbSt true 0 = 0 ∧ mbEligible 1#8 true 0 = true ∧
    (up []).chip.opens 0xF5#8 (mbLockOff false 15) false = true ∧ mbEligible 0xF5#8 false 15 = true ∧
    (up []).chip.mbSt false 0 ≠ 0 ∧ (up []).chip.mbOwner false 0 = 0xF0 ∧ mbEligible 0xF5#8 true 0 = false := by decide +kernel
theorem wit_StatusOrder : firstStatus [(true, .busy), (false, .zeroized), (true, .badArg), (true, .denied)] = .denied := by decide +kernel
theorem wit_ReadOnlyFields : (regRow R.MBS_CTRL).isSome = true ∧ eventRegs.any (·.holds R.MBS_CTRL) = false := by decide +kernel

end Sys2Proof.Tests
end

/-!
SUPPORT. The statements on the model's scope (spec section 00): every command answers, the order of R9, and the calls on resources, sleep
and the life cycle.
-/

namespace Sys2Proof.Machine

/-! Every command answers. -/

/-- Settles O6. Each arm of the dispatch is a lift of a function on the chip (`State.on`, `State.onF`, `State.both` and those built on
them), and each lift is a next state by definition, so the state answered is read off its unfolding. -/
theorem everyCommandAnswers : Obligations.EveryCommandAnswers := by
  intro i s
  cases i
  all_goals exact ⟨_, rfl⟩

/-! The order of R9. -/

theorem firstStatus_cons_of_first {b : Bool} {st : Status} {cs : List (Bool × Status)} (hb : b = true)
    (h : st.rank < (firstStatus cs).rank) : firstStatus ((b, st) :: cs) = st := by
  simp [firstStatus, hb, h]

theorem firstStatus_cons_of_not_first {b : Bool} {st : Status} {cs : List (Bool × Status)}
    (h : ¬ (b = true ∧ st.rank < (firstStatus cs).rank)) : firstStatus ((b, st) :: cs) = firstStatus cs := by
  simp only [firstStatus, Bool.and_eq_true, decide_eq_true_eq]
  exact if_neg h

/-- A condition put in front never moves the answer down the order. -/
theorem rank_firstStatus_cons_le (p : Bool × Status) (cs : List (Bool × Status)) :
    (firstStatus (p :: cs)).rank ≤ (firstStatus cs).rank := by
  by_cases h : p.1 = true ∧ p.2.rank < (firstStatus cs).rank
  · rw [firstStatus_cons_of_first h.1 h.2]; exact h.2.le
  · rw [firstStatus_cons_of_not_first h]

/-- No condition that holds stands before the answer. -/
theorem rank_firstStatus_le {cs : List (Bool × Status)} {p : Bool × Status} (hp : p ∈ cs) (hold : p.1 = true) :
    (firstStatus cs).rank ≤ p.2.rank := by
  induction cs with
  | nil => cases hp
  | cons q cs ih =>
    rcases List.mem_cons.mp hp with rfl | hp
    · by_cases h : p.2.rank < (firstStatus cs).rank
      · rw [firstStatus_cons_of_first hold h]
      · rw [firstStatus_cons_of_not_first fun hq => h hq.2]; exact Nat.le_of_not_lt h
    · exact (rank_firstStatus_cons_le q cs).trans (ih hp)

/-- The answer is OK or that of a condition that holds. -/
theorem firstStatus_eq_ok_or_holds (cs : List (Bool × Status)) :
    firstStatus cs = .ok ∨ ∃ p ∈ cs, p.1 = true ∧ p.2 = firstStatus cs := by
  induction cs with
  | nil => exact .inl rfl
  | cons q cs ih =>
    by_cases h : q.1 = true ∧ q.2.rank < (firstStatus cs).rank
    · exact .inr ⟨q, List.mem_cons_self, h.1, (firstStatus_cons_of_first h.1 h.2).symm⟩
    · rw [firstStatus_cons_of_not_first h]
      exact ih.imp_right fun ⟨p, hp, hold, heq⟩ => ⟨p, List.mem_cons_of_mem q hp, hold, heq⟩

/-- Settles O22: the list of R9 is the ranks in order; the rest by induction on the conditions. -/
theorem statusOrder : Obligations.StatusOrder :=
  ⟨by decide, fun cs => ⟨fun _ hp hold => rank_firstStatus_le hp hold, firstStatus_eq_ok_or_holds cs⟩⟩

/-! Registers outside a frame. -/

/-- No bank of the set holds the register at an offset. -/
def spares (bm off : Nat) : Bool :=
  !bm.testBit 249 && (List.range (bm.log2 + 1)).all (fun i => !(bm.testBit i && bankHolds i off))

theorem not_covers_of_spares {bm off : Nat} (h : spares bm off = true) : ¬ covers bm off := by
  simp only [spares, Bool.and_eq_true, Bool.not_eq_true', List.all_eq_true, List.mem_range, Bool.and_eq_false_imp] at h
  obtain ⟨hall, hbank⟩ := h
  rintro (h | ⟨i, hi, hold⟩)
  · simp [h] at hall
  · have hle : 2 ^ i ≤ bm := Nat.ge_two_pow_of_testBit hi
    have hlog : i ≤ bm.log2 := (Nat.le_log2 (Nat.two_pow_pos i |>.trans_le hle).ne').mpr hle
    simp [hbank i (Nat.lt_succ_of_le hlog) hi] at hold

/-- A field of a register outside the frame reads as before. -/
theorem Touch.geti_eq {pm bm : Nat} {c d : Chip} (h : Touch pm bm c d) {f : Fld} {i : Nat} (hs : spares bm (f.off i) = true) :
    d.geti f i = c.geti f i := by
  unfold Chip.geti
  rw [(h.2 (f.off i)).resolve_left (not_covers_of_spares hs)]

/-! The life-cycle request. -/

/-- What follows of itself, and the reading back of a cut program, leave `LCS_STATUS.BUSY`. -/
theorem State.cutSettled_lcsBusy (s : State) (c : Chip) :
    (s.cutSettled c).chip.get F.LCS_STATUS_BUSY = c.get F.LCS_STATUS_BUSY :=
  calc (settleCut s.fuses c.settle).2.get F.LCS_STATUS_BUSY
    _ = c.settle.get F.LCS_STATUS_BUSY := (Chip.settleCut_touch s.fuses c.settle).geti_eq (by decide +kernel)
    _ = c.get F.LCS_STATUS_BUSY := c.settle_touch.geti_eq (by decide +kernel)

/-- A chip in SERVICE and TEST_UNLOCKED with core 0's LC_REQUEST to TEST_LOCKED in MBS 0, whose lock row shows a torn GEN_ROOTS (R85): the
read lock of region 2 is blown in one copy, its write lock in none. -/
def tornRequest : State :=
  let regs : List (Fld × Nat) :=
    [(F.PWR_STATUS_SEQ_STATE, 2), (F.PWR_STATUS_VIN_FUSE_OK, 1), (F.LCS_STATE_CURRENT, lcTU), (F.MBS_STATUSn_OWNER, 0xF0), (F.MBS_STATUSn_STATE, 2)]
  let chip : Chip := { otp := { shadow := [(lockBase, { raw := 2 ^ 10 })] } }
  { State.reset with chip := ((chip.each regs fun c p => c.put p.1 p.2).mbWord false 0 0 0x00610000#32).mbWord false 0 5 (BitVec.ofNat 32 lcTL) }

/-- R85 leaves `tornRequest` SCRAP alone, so no transition begins. -/
theorem lcRequest_tornRequest_not_busy :
    ∃ t, exec (.lcRequest 0 false) tornRequest = .next t ∧ t.chip.get F.LCS_STATUS_BUSY = 0 :=
  ⟨_, rfl, by decide +kernel⟩

/-- Refutes O34: its last clause on LC_REQUEST does not ask that no GEN_ROOTS be torn. In `tornRequest` every condition named there holds, and the
check of R90 answers DENIED, where the clause claims a transition in progress. -/
theorem not_serviceCallAnswers : ¬ Obligations.ServiceCallAnswers := by
  rintro ⟨-, -, -, -, -, -, -, hpending⟩
  obtain ⟨c, hc, -, hbusy, -⟩ := hpending tornRequest 0 false (by decide +kernel) rfl (by decide +kernel) (by decide +kernel) (by decide +kernel) rfl
    (by decide +kernel) rfl (by decide +kernel) (by decide +kernel) rfl
  obtain ⟨t, ht, hidle⟩ := lcRequest_tornRequest_not_busy
  obtain rfl : t = tornRequest.cutSettled c := Host.Outcome.next.inj (ht.symm.trans hc)
  rw [State.cutSettled_lcsBusy, hbusy] at hidle
  exact absurd hidle (by decide)

end Sys2Proof.Machine

/-!
SUPPORT. The statements on the architecture (spec section 01): a step and its queue, the page grants of Table 1.5, refused accesses, and
the ring's own registers.
-/

namespace Sys2Proof.Machine

/-! A step and its queue. -/

/-- Settles O1: the front is taken off the queue and the rest is left, by the equation of `step` on a queue with a front. -/
theorem stepRunsFront : Obligations.StepRunsFront := by
  intro i rest s
  rfl

/-- Every arm of the dispatch is a lift of a function on the fuses and the chip, so what it answers has the queue it started with. -/
theorem exec_changes_fuses_and_chip (i : Instr) (s : State) : ∃ fu c, exec i s = .next { s with fuses := fu, chip := c } := by
  cases i
  all_goals exact ⟨_, _, rfl⟩

/-- Settles O5. -/
theorem queueKept : Obligations.QueueKept := by
  intro i s t ht
  obtain ⟨fu, c, hc⟩ := exec_changes_fuses_and_chip i s
  obtain rfl := Host.Outcome.next.inj (hc.symm.trans ht)
  rfl

/-! The page grants of Table 1.5. -/

/-- Settles O9, down the Roving column of Table 1.5 to each page it leaves closed: OTP, then BOB and DST, then TLY. -/
theorem rovingPages : Obligations.RovingPages := by
  intro c req off wr hreq hoff
  simp only [Chip.granted, hreq]
  rcases hoff with ⟨hlo, hhi⟩ | ⟨hlo, hhi⟩ | ⟨hlo, hhi⟩
  · rw [if_neg (by omega), if_pos (by omega)]
  · iterate 5 rw [if_neg (by omega)]
    rw [if_pos (by omega)]
  · iterate 8 rw [if_neg (by omega)]
    rw [if_pos (by omega)]

/-- Settles O10, along the external column of Table 1.5: the two GEN registers, the MBN page, the TRS window. -/
theorem externalPages : Obligations.ExternalPages := by
  intro c req off wr hreq
  simp only [Chip.granted, hreq]
  by_cases hgen : off = R.GEN_ID ∨ off = R.GEN_STATUS
  · have hlow : off < 0x9000 := by rcases hgen with rfl | rfl <;> decide
    rw [if_pos (by simpa using hgen)]
    simp [hgen, show ¬ 0x9000 ≤ off by omega, show ¬ 0x20000 ≤ off by omega]
  · rw [if_neg (by simpa using hgen)]
    by_cases hmbn : 0x9000 ≤ off ∧ off < 0xA000
    · simp [hmbn]
    · simp [hgen, hmbn, and_assoc]

/-! From a `Touch` to the frame a statement names. -/

/-- Every component of the set is listed. -/
def partsListed (pm : Nat) (ps : List Part) : Bool := (List.range 27).all fun i => !pm.testBit i || decide (Part.ofNat i ∈ ps)

/-- Is bank `i` that of the field's register? -/
def Fld.isBank (f : Fld) (i : Nat) : Bool :=
  bankAt i % 2 ^ 20 == f.base && bankAt i / 2 ^ 20 % 2 ^ 20 == f.stride && bankAt i / 2 ^ 40 == f.count

/-- Every bank of the set is that of a listed field. -/
def banksListed (bm : Nat) (fs : List Fld) : Bool :=
  !bm.testBit 249 && (List.range (bm.log2 + 1)).all fun i => !bm.testBit i || fs.any (·.isBank i)

theorem Part.ix_lt (p : Part) : p.ix < 27 := by cases p <;> decide

theorem Part.ofNat_ix (p : Part) : Part.ofNat p.ix = p := by cases p <;> rfl

theorem mem_of_partsListed {pm : Nat} {ps : List Part} (h : partsListed pm ps = true) {p : Part} (hp : pm.testBit p.ix = true) : p ∈ ps := by
  simp only [partsListed, List.all_eq_true, List.mem_range] at h
  simpa [hp, p.ofNat_ix] using h p.ix p.ix_lt

theorem Fld.holds_of_isBank {f : Fld} {i off : Nat} (h : f.isBank i = true) (hold : bankHolds i off = true) : f.holds off = true := by
  simp only [Fld.isBank, Bool.and_eq_true, beq_iff_eq] at h
  obtain ⟨⟨hbase, hstride⟩, hcount⟩ := h
  rwa [bankHolds, hbase, hstride, hcount] at hold

theorem holds_of_banksListed {bm off : Nat} {fs : List Fld} (h : banksListed bm fs = true) (hc : covers bm off) :
    fs.any (·.holds off) = true := by
  simp only [banksListed, Bool.and_eq_true, Bool.not_eq_true', List.all_eq_true, List.mem_range] at h
  obtain ⟨hall, hbank⟩ := h
  rcases hc with hc | ⟨i, hi, hold⟩
  · simp [hc] at hall
  · have hle : 2 ^ i ≤ bm := Nat.ge_two_pow_of_testBit hi
    have hlog : i ≤ bm.log2 := (Nat.le_log2 (Nat.two_pow_pos i |>.trans_le hle).ne').mpr hle
    have hf : fs.any (·.isBank i) = true := by simpa [hi] using hbank i (Nat.lt_succ_of_le hlog)
    obtain ⟨f, hmem, hf⟩ := List.any_eq_true.mp hf
    exact List.any_eq_true.mpr ⟨f, hmem, Fld.holds_of_isBank hf hold⟩

/-- A frame whose components and banks are all listed is the frame of a statement. -/
theorem Touch.only {pm bm : Nat} {c d : Chip} (h : Touch pm bm c d) {ps : List Part} {fs : List Fld} (hp : partsListed pm ps = true)
    (hf : banksListed bm fs = true) : c.Only ps fs d :=
  ⟨fun p => (h.1 p).imp_left (mem_of_partsListed hp), fun off => (h.2 off).imp_left (holds_of_banksListed hf)⟩

/-- A component outside the set is as before. -/
theorem Touch.same {pm bm : Nat} {c d : Chip} (h : Touch pm bm c d) (p : Part) (hp : pm.testBit p.ix = false) : p.same c d :=
  (h.1 p).resolve_left (by simp [hp])

/-- The frame clause of a statement, from what the command can touch. -/
theorem exists_only_of_touch {pm bm : Nat} {c : Chip} {o : Host.Outcome State Fault Refusal} {g : Chip → State}
    (h : ∃ d, o = .next (g d) ∧ Touch pm bm c d) {ps : List Part} {fs : List Fld} (hp : partsListed pm ps = true)
    (hf : banksListed bm fs = true) : ∃ d, o = .next (g d) ∧ c.Only ps fs d :=
  h.imp fun _ hd => ⟨hd.1, hd.2.only hp hf⟩

/-! What an access answers (R14). -/

theorem Chip.guarded_of_opens {c : Chip} {req : Req} {off : Nat} {wr : Bool} (f : Chip → Chip) (h : c.opens req off wr = true) :
    c.guarded req off wr f = f c := by
  simp only [Chip.opens, Bool.and_eq_true, Bool.not_eq_true'] at h
  obtain ⟨⟨hreq, hpow⟩, hgrant⟩ := h
  simp [Chip.guarded, hreq, hpow, hgrant]

/-- A command that is an access, where the access reaches its register. -/
theorem State.on_guarded_of_opens {s : State} {req : Req} {off : Nat} {wr : Bool} (f : Chip → Chip) (h : s.chip.opens req off wr = true) :
    s.on (fun c => c.guarded req off wr f) = .next (s.after (f s.chip)) := by
  rw [State.on, Chip.guarded_of_opens f h, State.after]

theorem Chip.guarded_of_not_granted {c : Chip} {req : Req} {off : Nat} {wr : Bool} (f : Chip → Chip) (hreq : badReq req = false)
    (hpow : c.powered off = true) (hgrant : c.granted req off wr = false) : c.guarded req off wr f = c.refuse 0x1601 req off wr 0 := by
  simp [Chip.guarded, hreq, hpow, hgrant]

/-- On a powered page an access that is not granted is one refusal or the other, so it changes the logs and the answer alone. -/
theorem Chip.guarded_touch_of_not_granted {c : Chip} {req : Req} {off : Nat} {wr : Bool} (f : Chip → Chip) (hpow : c.powered off = true)
    (hgrant : c.granted req off wr = false) :
    Touch 0x10c 0x180000000000000000000000000000000000000000000000000000000004 c (c.guarded req off wr f) := by
  cases hreq : badReq req with
  | true => simpa [Chip.guarded, hreq] using c.badAccess_touch req off wr
  | false => simpa only [Chip.guarded_of_not_granted f hreq hpow hgrant] using c.refuse_touch 0x1601 req off wr 0

/-- Settles O11. -/
theorem refusedAccess : Obligations.RefusedAccess := by
  intro c req off wr f hreq hpow hgrant
  exact ⟨Chip.guarded_of_not_granted f hreq hpow hgrant,
    (Chip.guarded_touch_of_not_granted f hpow hgrant).only (by decide +kernel) (by decide +kernel)⟩

/-! The ring's registers (R40, R45, R47). -/

theorem Chip.retrainRing_cwLock (c : Chip) : c.retrainRing.get F.SKN_STATUS_CW_LOCK = 0 := by
  rw [Chip.retrainRing, Chip.get_put_other _ _ _ _ rfl rfl, Chip.get_put _ _ _ rfl Nat.one_pos, Nat.zero_mod]

theorem Chip.retrainRing_ccLock (c : Chip) : c.retrainRing.get F.SKN_STATUS_CC_LOCK = 0 := by
  rw [Chip.retrainRing, Chip.get_put _ _ _ rfl Nat.one_pos, Nat.zero_mod]

theorem Chip.spliceDrop_spliceHold (c : Chip) : c.spliceDrop.pins.spliceHold = false := by
  unfold Chip.spliceDrop
  cases h : c.ring.splice <;> simp [Chip.setSplice, h]

/-- An open Splice begins to close; any other is as it was. -/
theorem Chip.spliceDrop_splice (c : Chip) :
    c.spliceDrop.ring.splice = if c.ring.splice = .opening ∨ c.ring.splice = .inRing then .closing else c.ring.splice := by
  unfold Chip.spliceDrop
  cases h : c.ring.splice <;> simp [Chip.setSplice, h]

/-- Enabled, the ring trains: `SKN_CTRL`, the measured delays and the free values drawn for them. -/
theorem Chip.ringEnable_true_touch (c : Chip) : Touch 0x20002 0x40000000000000000000 c (c.ringEnable true) :=
  .step (Chip.ringTrained_touch _ true) (by decide +kernel) (by decide +kernel) <|
    .step (Chip.ringTrained_touch _ false) (by decide +kernel) (by decide +kernel) <| .put (by decide +kernel) .refl

theorem Chip.ringEnable_true_ringEn (c : Chip) : (c.ringEnable true).get F.SKN_CTRL_RING_EN = 1 :=
  calc (c.ringEnable true).get F.SKN_CTRL_RING_EN
    _ = ((c.put F.SKN_CTRL_RING_EN 1).ringTrained false).get F.SKN_CTRL_RING_EN := (Chip.ringTrained_touch _ true).geti_eq (by decide +kernel)
    _ = (c.put F.SKN_CTRL_RING_EN 1).get F.SKN_CTRL_RING_EN := (Chip.ringTrained_touch _ false).geti_eq (by decide +kernel)
    _ = 1 := Chip.get_put _ _ _ rfl Nat.one_pos

theorem Chip.ringEnable_false_ringEn (c : Chip) : (c.ringEnable false).get F.SKN_CTRL_RING_EN = 0 :=
  calc (c.ringEnable false).get F.SKN_CTRL_RING_EN
    _ = (c.put F.SKN_CTRL_RING_EN 0).spliceDrop.get F.SKN_CTRL_RING_EN := (Chip.retrainRing_touch _).geti_eq (by decide +kernel)
    _ = (c.put F.SKN_CTRL_RING_EN 0).get F.SKN_CTRL_RING_EN := (Chip.spliceDrop_touch _).geti_eq (by decide +kernel)
    _ = 0 := Chip.get_put _ _ _ rfl Nat.one_pos

theorem Chip.ringEnable_false_spliceHold (c : Chip) : (c.ringEnable false).pins.spliceHold = false := by
  have hpins : (c.ringEnable false).pins = (c.put F.SKN_CTRL_RING_EN 0).spliceDrop.pins := (Chip.retrainRing_touch _).same .pins rfl
  rw [hpins, Chip.spliceDrop_spliceHold]

theorem Chip.ringEnable_false_splice (c : Chip) :
    (c.ringEnable false).ring.splice = if c.ring.splice = .opening ∨ c.ring.splice = .inRing then .closing else c.ring.splice := by
  have hring : (c.ringEnable false).ring = (c.put F.SKN_CTRL_RING_EN 0).spliceDrop.ring := (Chip.retrainRing_touch _).same .ring rfl
  rw [hring, Chip.spliceDrop_splice]
  rfl

theorem bridgeField_eq (n : Nat) :
    bridgeField n = F.SKN_BRIDGE0_NODES ∨ bridgeField n = F.SKN_BRIDGE1_NODES ∨ bridgeField n = F.SKN_BRIDGE2_NODES := by
  unfold bridgeField
  split
  · exact .inl rfl
  · exact .inr (ite_eq_or_eq ..)

theorem Fld.top_add_one (f : Fld) : f.top + 1 = 2 ^ (f.hi + 1 - f.lo) := Nat.sub_add_cancel Nat.one_le_two_pow

/-- The SPLICE_FORCE frames that follow the write leave `SKN_BRIDGEn` alone. -/
theorem Chip.bridgeWrite_get (c : Chip) (n : Nat) (value : Word) :
    (c.bridgeWrite n value).get (bridgeField n) = value.toNat % ((bridgeField n).top + 1) := by
  have hsent : Touch 0x11c 0x180000000000000000000000000000000000000000000000000000000004
      (c.put (bridgeField n) (value.toNat % ((bridgeField n).top + 1))) (c.bridgeWrite n value) :=
    .each (fun d i h => .step (Chip.sendForce_touch d i) (by decide +kernel) (by decide +kernel) h) .refl
  have hput : (bridgeField n).ok = true ∧ 0 < (bridgeField n).count ∧
      spares 0x180000000000000000000000000000000000000000000000000000000004 ((bridgeField n).off 0) = true := by
    rcases bridgeField_eq n with h | h | h <;> rw [h] <;> decide +kernel
  obtain ⟨hok, hcount, hspares⟩ := hput
  rw [Chip.get, hsent.geti_eq hspares, ← Chip.get, Chip.get_put _ _ _ hok hcount, Fld.top_add_one, Nat.mod_mod]

/-! The commands of the fabric port and of the ring's registers. -/

theorem says_fabricAccessError : Says.fabricAccessError := by
  refine ⟨fun s req addr size wr => ?_, fun s req addr size wr hbad => ?_, fun s req addr size wr hshape hreq hlt => ?_⟩
  · exact exists_only_of_touch (execFabricAccessError_touch req addr size wr s) (by decide +kernel) (by decide +kernel)
  · have hcond : ¬ (shapeOk addr size wr && req.toNat != 0 && decide (req.toNat < 0xF0)) = true := by
      rcases hbad with hbad | hbad | hbad <;> simp [hbad]
    exact ⟨_, rfl, (congrArg Chip.tx (if_neg hcond)).trans ((Chip.log_touch ..).same .tx rfl)⟩
  · exact ⟨_, rfl, if_pos (by simp [hshape, hreq, hlt])⟩

theorem says_pageAccessRefused : Says.pageAccessRefused := by
  refine ⟨fun s req off wr sec => ?_, fun s req off wr sec hsec hopens => ?_, fun s req off wr sec hsec hreq hpow hgrant => ?_⟩
  · exact exists_only_of_touch (execPageAccessRefused_touch req off wr sec s) (by decide +kernel) (by decide +kernel)
  · subst hsec
    exact ⟨_, rfl, if_pos hopens⟩
  · subst hsec
    refine ⟨_, rfl, (if_neg ?_).trans (Chip.guarded_of_not_granted id hreq hpow hgrant)⟩
    simp [hgrant]

theorem says_retrain : Says.retrain := by
  refine ⟨fun s req => ?_, fun s req hopens => ?_, fun s req hpow hgrant => ?_⟩
  · exact exists_only_of_touch (execRetrain_touch req s) (by decide +kernel) (by decide +kernel)
  · exact ⟨_, State.on_guarded_of_opens _ hopens, Chip.retrainRing_cwLock _, Chip.retrainRing_ccLock _⟩
  · have ht := Chip.guarded_touch_of_not_granted (fun c => (c.wrote req).retrainRing) hpow hgrant
    exact ⟨_, rfl, ht.geti_eq (by decide +kernel), ht.geti_eq (by decide +kernel)⟩

theorem says_ringEn : Says.ringEn := by
  refine ⟨fun s req value => ?_, fun s req value hopens hvalue => ?_, fun s req value hopens hvalue => ?_⟩
  · exact exists_only_of_touch (execRingEn_touch req value s) (by decide +kernel) (by decide +kernel)
  · subst hvalue
    have ht := Chip.ringEnable_true_touch (s.chip.wrote req)
    exact ⟨_, State.on_guarded_of_opens _ hopens, Chip.ringEnable_true_ringEn _, ht.same .ring rfl, ht.same .pins rfl⟩
  · subst hvalue
    exact ⟨_, State.on_guarded_of_opens _ hopens, Chip.ringEnable_false_ringEn _, Chip.retrainRing_cwLock _, Chip.retrainRing_ccLock _,
      Chip.ringEnable_false_spliceHold _, Chip.ringEnable_false_splice _⟩

theorem says_prekeyClear : Says.prekeyClear := by
  refine ⟨fun s req => ?_, fun s req hopens => ?_⟩
  · exact exists_only_of_touch (execPrekeyClear_touch req s) (by decide +kernel) (by decide +kernel)
  · exact ⟨_, State.on_guarded_of_opens _ hopens, Chip.get_put _ _ _ rfl Nat.one_pos, Chip.get_put_other _ _ _ _ rfl rfl, rfl⟩

theorem says_sknBridgeWrite : Says.sknBridgeWrite := by
  refine ⟨fun s req n value => ?_, fun s req n value hopens => ?_⟩
  · exact exists_only_of_touch (execSknBridgeWrite_touch req n value s) (by decide +kernel) (by decide +kernel)
  · exact ⟨_, State.on_guarded_of_opens _ hopens, Chip.bridgeWrite_get _ _ _⟩

/-- Settles O38, command by command. -/
theorem ringAccesses : Obligations.RingAccesses :=
  ⟨says_fabricAccessError, says_pageAccessRefused, says_retrain, says_ringEn, says_prekeyClear, says_sknBridgeWrite⟩

end Sys2Proof.Machine

/-!
SUPPORT. The statements on bytes: a Skein frame read back from its bytes (spec section 02), the NOR device, and what reset leaves.
-/

namespace Sys2Proof.Machine

set_option Elab.async false

/-! Reading back what was written one field after another (R6, R39). -/

theorem slice_append_of_le {a r : List Byte} {p n : Nat} (h : a.length ≤ p) : slice (a ++ r) p n = slice r (p - a.length) n := by
  simp [slice, List.drop_append, List.drop_of_length_le h]

theorem slice_append_left (a r : List Byte) : slice (a ++ r) 0 a.length = a := by simp [slice, padTo]

theorem numAt_le_append_of_le {m v p n : Nat} {r : List Byte} (h : m ≤ p) : numAt (le m v ++ r) p n = numAt r (p - m) n := by
  rw [numAt, slice_append_of_le (by simpa using h), length_le, numAt]

theorem numAt_le_append (n v : Nat) (r : List Byte) : numAt (le n v ++ r) 0 n = v % 256 ^ n := by
  have h := slice_append_left (le n v) r
  rw [length_le] at h
  rw [numAt, h, ofLe_le]

theorem RingFrame.head_eq (f : RingFrame) (flags : Nat) : f.head flags =
    le 1 f.typ ++ (le 1 flags ++ (le 1 f.src ++ (le 1 f.dst ++ (le 4 f.seq ++ (le 2 f.payload.length ++ (le 2 f.rkey ++ [])))))) := rfl

@[simp] theorem RingFrame.length_head (f : RingFrame) (flags : Nat) : (f.head flags).length = 12 := by simp [RingFrame.head_eq]

/-- The header of Table 2.4: each field where the table puts it. -/
theorem RingFrame.numAt_bytes (f : RingFrame) (htyp : f.typ < 256) (hflags : f.flags < 256) (hsrc : f.src < 256) (hdst : f.dst < 256)
    (hseq : f.seq < 2 ^ 32) (hrkey : f.rkey < 2 ^ 16) (hlen : f.payload.length ≤ 192) :
    numAt f.bytes 0 1 = f.typ ∧ numAt f.bytes 1 1 = f.flags ∧ numAt f.bytes 2 1 = f.src ∧ numAt f.bytes 3 1 = f.dst ∧ numAt f.bytes 4 4 = f.seq ∧
      numAt f.bytes 8 2 = f.payload.length ∧ numAt f.bytes 10 2 = f.rkey := by
  simp only [RingFrame.bytes, RingFrame.head_eq, List.append_assoc]
  refine ⟨?_, ?_, ?_, ?_, ?_, ?_, ?_⟩ <;> simp only [numAt_le_append_of_le, numAt_le_append, Nat.reduceLeDiff, Nat.reduceSub] <;> omega

theorem RingFrame.length_bytes (f : RingFrame) : f.bytes.length = 16 + f.payload.length + f.tag.length := by
  simp [RingFrame.bytes]; omega

/-- `HCRC` stands at byte 12 and is the CRC of the bytes before it. -/
theorem RingFrame.hcrc_bytes (f : RingFrame) : numAt f.bytes 12 4 = crc32c (f.bytes.take 12) % 256 ^ 4 := by
  have hhead : f.bytes.take 12 = f.head f.flags := by simp [RingFrame.bytes]
  rw [hhead, RingFrame.bytes, List.append_assoc, List.append_assoc, numAt, slice_append_of_le (by simp), RingFrame.length_head,
    ← numAt, Nat.sub_self, numAt_le_append]

theorem RingFrame.payload_bytes (f : RingFrame) : slice f.bytes 16 f.payload.length = f.payload := by
  rw [RingFrame.bytes, List.append_assoc, slice_append_of_le (by simp)]
  simpa using slice_append_left f.payload f.tag

theorem RingFrame.tag_bytes (f : RingFrame) : slice f.bytes (16 + f.payload.length) f.tag.length = f.tag := by
  have hpos : (f.head f.flags ++ le 4 (crc32c (f.head f.flags)) ++ f.payload).length = 16 + f.payload.length := by simp; omega
  rw [RingFrame.bytes, slice_append_of_le hpos.le, hpos, Nat.sub_self]
  simpa using slice_append_left f.tag []

theorem xor_lt_two_pow_32 {a b : Nat} (ha : a < 2 ^ 32) (hb : b < 2 ^ 32) : Nat.xor a b < 2 ^ 32 := Nat.xor_lt_two_pow ha hb

theorem crc32cBit_lt {r : Nat} (h : r < 2 ^ 32) : crc32cBit r < 2 ^ 32 := by
  unfold crc32cBit
  split
  · exact xor_lt_two_pow_32 (by omega) (by decide)
  · omega

theorem crc32cByte_lt {is : List Nat} {r : Nat} (h : r < 2 ^ 32) : is.foldl (fun r _ => crc32cBit r) r < 2 ^ 32 := by
  induction is generalizing r with
  | nil => exact h
  | cons i is ih => exact ih (crc32cBit_lt h)

theorem crc32c_lt (bs : List Byte) : crc32c bs < 2 ^ 32 := by
  suffices h : ∀ r < 2 ^ 32, bs.foldl (fun r b => (List.range 8).foldl (fun r _ => crc32cBit r) (Nat.xor r b.toNat)) r < 2 ^ 32 from
    xor_lt_two_pow_32 (h _ (by decide)) (by decide)
  induction bs with
  | nil => exact fun r hr => hr
  | cons b bs ih => exact fun r hr => ih _ (crc32cByte_lt (xor_lt_two_pow_32 hr (b.isLt.trans (by decide))))

/-- Settles O18: the five checks of the reader hold of the bytes, and each field reads back from where the table puts it. -/
theorem frameRoundTrip : Obligations.FrameRoundTrip := by
  intro f htyp hflags hsrc hdst hseq hrkey hlen hblocks htag
  obtain ⟨ntyp, nflags, nsrc, ndst, nseq, nlen, nrkey⟩ := f.numAt_bytes htyp hflags hsrc hdst hseq hrkey hlen
  have hcrc : crc32c (f.bytes.take 12) = numAt f.bytes 12 4 := by
    rw [f.hcrc_bytes]
    exact (Nat.mod_eq_of_lt (crc32c_lt _)).symm
  have hbytes : f.bytes.length = 32 + f.payload.length := by rw [f.length_bytes, htag]; omega
  have hpayload := f.payload_bytes
  have htagBytes := f.tag_bytes
  rw [htag] at htagBytes
  simp only [parseFrame, ntyp, nflags, nsrc, ndst, nseq, nlen, nrkey, hpayload, htagBytes]
  rw [if_pos (by simp [hcrc, hbytes, hlen, hblocks]; omega)]

/-- Settles O19: each of the two is a check of the reader. -/
theorem badFrameRefused : Obligations.BadFrameRefused := by
  intro bs hbad
  rw [parseFrame, if_neg]
  rcases hbad with hcrc | hlen
  · simp [hcrc]
  · simp [hlen]

/-! NOR (R33). -/

theorem memRd_norProg (m : List Host.Cell) (a : Nat) (bs : List Byte) (x : Nat) : memRd 0xFF#8 (norProg m a bs) x =
    if a ≤ x ∧ x < a + bs.length then memRd 0xFF#8 m x &&& bs.getD (x - a) 0xFF#8 else memRd 0xFF#8 m x := by
  induction bs generalizing m a with
  | nil => simp [norProg]
  | cons b bs ih =>
    rw [norProg, ih, memRd_memWr, List.length_cons]
    by_cases hx : x = a
    · subst hx
      simp
    · by_cases hin : a + 1 ≤ x ∧ x < a + 1 + bs.length
      · rw [if_pos hin, if_neg hx, if_pos (by omega), show x - a = x - (a + 1) + 1 by omega, List.getD_cons_succ]
      · rw [if_neg hin, if_neg hx, if_neg (by omega)]

theorem memRd_memClear (m : List Host.Cell) (a b x : Nat) :
    memRd 0xFF#8 (memClear m a b) x = if a ≤ x ∧ x < b then 0xFF#8 else memRd 0xFF#8 m x := by
  rw [memRd, memClear, tget?_filter m (fun k => decide (k < a) || decide (b ≤ k))]
  by_cases hx : a ≤ x ∧ x < b
  · rw [if_pos hx, if_neg (by simp; omega)]
    rfl
  · rw [if_neg hx, if_pos (by simp; omega)]
    rfl

/-- Settles O16: a program byte by byte, an erase by the filter that drops the range; a program that reaches past the end does nothing. -/
theorem norWrites : Obligations.NorWrites := by
  refine fun c a b bs x => ⟨?_, memRd_memClear c.mem.nor a b x⟩
  by_cases hend : a + bs.length ≤ 0x4000000
  · simp only [Chip.norWr, hend, true_and]
    exact memRd_norProg c.mem.nor a bs x
  · simp only [Chip.norWr, hend, false_and, if_false]

/-- Settles O3. -/
theorem resetState : Obligations.ResetState := by
  refine ⟨?_, rfl, rfl, ?_, ?_, rfl, rfl, rfl, rfl, rfl⟩ <;> decide +kernel

end Sys2Proof.Machine

/-!
SUPPORT. The statement on the JTAG port (spec section 18).
-/

namespace Sys2Proof.Machine

set_option Elab.async false

/-! What leaves the debug record as it is: every register write, and what Touch (Laws/Touch.lean) counts with the writes. -/

theorem Chip.each_keeps {α β : Type} {g : Chip → β} {l : List α} {f : Chip → α → Chip} (hf : ∀ d i, g (f d i) = g d) (c : Chip) :
    g (c.each l f) = g c := by
  induction l generalizing c with
  | nil => rfl
  | cons i l ih => exact (ih (f c i)).trans (hf c i)

/-- A field write changes registers alone. -/
theorem Chip.puti_same (c : Chip) (f : Fld) (i v : Nat) (p : Part) : p.same c (c.puti f i v) := by
  unfold Chip.puti
  split <;> cases p <;> rfl

theorem Chip.put_same (c : Chip) (f : Fld) (v : Nat) (p : Part) : p.same c (c.put f v) := Chip.puti_same c f 0 v p

@[simp] theorem Chip.dbg_wr (c : Chip) (off : Nat) (w : Word) : (c.wr off w).dbg = c.dbg := rfl

@[simp] theorem Chip.dbg_puti (c : Chip) (f : Fld) (i v : Nat) : (c.puti f i v).dbg = c.dbg := Chip.puti_same c f i v .dbg

@[simp] theorem Chip.dbg_put (c : Chip) (f : Fld) (v : Nat) : (c.put f v).dbg = c.dbg := Chip.dbg_puti c f 0 v

@[simp] theorem Chip.dbg_addi (c : Chip) (f : Fld) (i n : Nat) : (c.addi f i n).dbg = c.dbg := Chip.dbg_puti ..

@[simp] theorem Chip.dbg_resetRegs (c : Chip) (a b : Nat) : (c.resetRegs a b).dbg = c.dbg := rfl

@[simp] theorem Chip.dbg_resetCopy (c : Chip) (n count a b : Nat) : (c.resetCopy n count a b).dbg = c.dbg := by
  unfold Chip.resetCopy
  split <;> rfl

@[simp] theorem Chip.dbg_send (c : Chip) (o : Out) : (c.send o).dbg = c.dbg := rfl

@[simp] theorem Chip.dbg_sumBit (c : Chip) (cls : Nat) : (c.sumBit cls).dbg = c.dbg := by
  unfold Chip.sumBit
  split <;> simp

@[simp] theorem Chip.dbg_cxActive (c : Chip) (n : Nat) (b : Bool) : (c.cxActive n b).dbg = c.dbg := by
  unfold Chip.cxActive
  split <;> simp

@[simp] theorem Chip.dbg_cxFree (c : Chip) (n : Nat) : (c.cxFree n).dbg = c.dbg := by simp [Chip.cxFree, Chip.cr]

@[simp] theorem Chip.dbg_acFree (c : Chip) (n : Nat) : (c.acFree n).dbg = c.dbg := by simp [Chip.acFree, Chip.cr]

@[simp] theorem Chip.dbg_chMod (c : Chip) (n : Nat) (f : CryCh → CryCh) : (c.chMod n f).dbg = c.dbg := rfl

@[simp] theorem Chip.dbg_chErase (c : Chip) (n : Nat) : (c.chErase n).dbg = c.dbg := by simp [Chip.chErase]

@[simp] theorem Chip.dbg_chKeySet (c : Chip) (n r : Nat) (k : CKey) : (c.chKeySet n r k).dbg = c.dbg := by simp [Chip.chKeySet]

@[simp] theorem Chip.dbg_ownWr (c : Chip) (owner a : Nat) (bs : List Byte) : (c.ownWr owner a bs).dbg = c.dbg :=
  (Chip.ownWr_touch c owner a bs).same .dbg rfl

@[simp] theorem Chip.dbg_spnWr (c : Chip) (a : Nat) (bs : List Byte) : (c.spnWr a bs).dbg = c.dbg := (Chip.spnWr_touch c a bs).same .dbg rfl

@[simp] theorem Chip.dbg_chIrq (c : Chip) (unit base n owner : Nat) : (c.chIrq unit base n owner).dbg = c.dbg :=
  (Chip.chIrq_touch c unit base n owner).same .dbg rfl

@[simp] theorem Chip.dbg_chBack (c : Chip) (n idx flags : Nat) (st : Status) (iter used : Nat) : (c.chBack n idx flags st iter used).dbg = c.dbg := by
  simp only [Chip.chBack]
  split <;> simp

@[simp] theorem Chip.dbg_cplDrain (c : Chip) (n : Nat) : (c.cplDrain n).dbg = c.dbg := by
  induction n generalizing c with
  | zero => rfl
  | succ n ih =>
    unfold Chip.cplDrain
    split
    · rfl
    · split
      · simp [ih]
      · rfl

@[simp] theorem Chip.dbg_complete (c : Chip) (b : List Byte) (irq : Bool) : (c.complete b irq).dbg = c.dbg := by
  simp only [Chip.complete]
  split <;> simp

@[simp] theorem Chip.dbg_cmdZero (c : Chip) (r : CmdRun) : (c.cmdZero r).dbg = c.dbg := Chip.dbg_complete ..

@[simp] theorem Chip.dbg_otpEnd (c : Chip) (st : Status) (b : Bool) : (c.otpEnd st b).dbg = c.dbg := by simp [Chip.otpEnd]

@[simp] theorem Chip.dbg_otpCut (c : Chip) (quench : Bool) : (c.otpCut quench).dbg = c.dbg := by
  cases ha : c.otp.audit
  all_goals
    simp only [Chip.otpCut, ha]
    split
    · simp
    · split
      · split <;> simp
      · simp

@[simp] theorem Chip.dbg_clearKeys (c : Chip) : c.clearKeys.dbg = c.dbg := by
  unfold Chip.clearKeys
  split <;> simp

/-! The JTAG register selected through an event: an event changes the trace, the counters and the windows kept on NOIL's behalf alone. -/

@[simp] theorem Chip.jtag_trSet (c : Chip) (t : Nat) (s : TraceSrc) : (c.trSet t s).dbg.jtag = c.dbg.jtag := rfl

@[simp] theorem Chip.jtag_trAdmit (c : Chip) (t : Nat) (s : TraceSrc) (rec : List Byte) : (c.trAdmit t s rec).dbg.jtag = c.dbg.jtag := by
  simp only [Chip.trAdmit]
  split
  · split <;> simp
  · simp

@[simp] theorem Chip.jtag_traceOffer (c : Chip) (t kind arg0 : Nat) (data : List Byte) : (c.traceOffer t kind arg0 data).1.dbg.jtag = c.dbg.jtag := by
  simp only [Chip.traceOffer]
  split
  · rfl
  · split <;> simp [Chip.trDrop]

@[simp] theorem Chip.jtag_traceEvent (c : Chip) (r : EvRec) : (c.traceEvent r).1.dbg.jtag = c.dbg.jtag := Chip.jtag_traceOffer ..

@[simp] theorem Chip.jtag_noil (c : Chip) (unit code : Nat) (args : List Byte) : (c.noil unit code args).dbg.jtag = c.dbg.jtag := by
  unfold Chip.noil
  split <;> rfl

@[simp] theorem Chip.jtag_noilTrans (c : Chip) (unit chapter table inst old new : Nat) :
    (c.noilTrans unit chapter table inst old new).dbg.jtag = c.dbg.jtag := by
  unfold Chip.noilTrans
  split <;> simp

@[simp] theorem Chip.jtag_countEvent (c : Chip) (code : Nat) (args : List Byte) : (c.countEvent code args).dbg.jtag = c.dbg.jtag := by
  unfold Chip.countEvent
  refine Chip.each_keeps (g := (·.dbg.jtag)) (fun d i => ?_) c
  split
  · unfold Chip.count
    split <;> rfl
  · rfl

@[simp] theorem Chip.jtag_logRec (c : Chip) (r : EvRec) : (c.logRec r).dbg.jtag = c.dbg.jtag := by simp [Chip.logRec]

@[simp] theorem Chip.jtag_logDrop (c : Chip) (t : Nat) : (c.logDrop t).dbg.jtag = c.dbg.jtag := by
  simp only [Chip.logDrop]
  split
  · exact (Chip.jtag_traceEvent ..).trans (Chip.jtag_logRec ..)
  · rfl

@[simp] theorem Chip.jtag_fire (c : Chip) (t cause bp code : Nat) : (c.fire t cause bp code).dbg.jtag = c.dbg.jtag := by
  unfold Chip.fire
  split <;> simp

@[simp] theorem Chip.jtag_fireEvent (c : Chip) (unit code : Nat) : (c.fireEvent unit code).dbg.jtag = c.dbg.jtag := by
  refine Chip.each_keeps (g := (·.dbg.jtag)) (fun d t => ?_) c
  dsimp only
  split <;> simp

@[simp] theorem Chip.jtag_log (c : Chip) (code unit : Nat) (args : List Byte) : (c.log code unit args).dbg.jtag = c.dbg.jtag := by
  simp only [Chip.log, Chip.jtag_fireEvent]
  split <;> simp

@[simp] theorem Chip.jtag_trace (c : Chip) (t kind arg0 : Nat) (data : List Byte) : (c.trace t kind arg0 data).dbg.jtag = c.dbg.jtag := by
  simp only [Chip.trace]
  split <;> simp

/-! And through the zeroization of R489. -/

@[simp] theorem Chip.jtag_chDone (c : Chip) (n : Nat) (f : Flight) (st : Status) (iter : Nat) : (c.chDone n f st iter).dbg.jtag = c.dbg.jtag := by
  unfold Chip.chDone
  extract_lets o d d' d'' d3 d4 d5
  have hd'' : d''.dbg = c.dbg := by simp [d'', d', d]
  have hd3 : d3.dbg = d''.dbg := by
    simp only [d3]
    split
    · split
      · simp
      · rfl
    · rfl
  have hd5 : d5.dbg.jtag = c.dbg.jtag := by simp [d5, d4, hd3, hd'']
  split
  · rw [Chip.dbg_chIrq, hd5]
  · exact hd5

@[simp] theorem Chip.jtag_chEnd (c : Chip) (n : Nat) (st : Status) : (c.chEnd n st).dbg.jtag = c.dbg.jtag :=
  Chip.each_keeps (g := (·.dbg.jtag)) (fun d _ => Chip.jtag_chDone d n ..) c

@[simp] theorem Chip.jtag_cryZero (c : Chip) : c.cryZero.dbg.jtag = c.dbg.jtag := by
  unfold Chip.cryZero
  extract_lets d1 d2 d3 d4
  have h1 : d1.dbg.jtag = c.dbg.jtag := Chip.each_keeps (g := (·.dbg.jtag)) (fun d n => by simp) c
  have h2 : d2.dbg.jtag = d1.dbg.jtag := Chip.each_keeps (g := (·.dbg.jtag)) (fun d n => by simp) d1
  have h3 : d3.dbg.jtag = d2.dbg.jtag := by
    simp only [d3]
    split <;> simp
  have h4 : d4.dbg.jtag = d3.dbg.jtag := Chip.each_keeps (g := (·.dbg.jtag)) (fun d n => by simp) d3
  simp [Chip.cr, h4, h3, h2, h1]

@[simp] theorem Chip.jtag_zeroize (c : Chip) : c.zeroize.dbg.jtag = c.dbg.jtag := by
  rw [Chip.zeroize, Chip.dbg_otpCut, Chip.each_keeps (g := (·.dbg.jtag)) (fun d r => by simp)]
  simp [Chip.clearSpnData, Chip.callsZero, Chip.clearRingKey]

@[simp] theorem Chip.jtag_spnFirst (c : Chip) : c.spnFirst.dbg.jtag = c.dbg.jtag := by
  simp only [Chip.spnFirst, Chip.jtag_log]
  split <;> simp [Chip.setRole]

/-! The instructions of R486. -/

/-- A chip whose JTAG instruction register holds `code`. -/
def Chip.scanned (c : Chip) (code : Nat) : Chip := { c with dbg := { c.dbg with jtag := code } }

theorem Chip.jtagUse_of_ok {c : Chip} {code : Nat} (h : c.jtagOk code = true) (f : Chip → Chip) : c.jtagUse code f = f (c.scanned code) := by
  rw [Chip.jtagUse, if_pos h, Chip.scanned]

theorem exec_dtmRov_of_ok {s : State} (h : s.chip.jtagOk 0x10 = true) (core : Nat) (op : DmiOp) :
    exec (.dtmRov core op) s = .next (s.cutSettled ((s.chip.scanned 0x10).rovDmi s.fuses core op)) :=
  congrArg (fun c => Host.Outcome.next (s.cutSettled c)) (Chip.jtagUse_of_ok h _)

theorem exec_dtmSpn_of_ok {s : State} (h : s.chip.jtagOk 0x11 = true) (op : DmiOp) :
    exec (.dtmSpn op) s = .next (s.cutSettled ((s.chip.scanned 0x11).spnDmi s.fuses op)) :=
  congrArg (fun c => Host.Outcome.next (s.cutSettled c)) (Chip.jtagUse_of_ok h _)

theorem exec_otpPort_of_ok {s : State} (h : s.chip.jtagOk 0x20 = true) (write : Bool) (sel : BitVec 4) (data : Word) :
    exec (.otpPort write sel data) s = .next (s.cutSettled ((s.chip.scanned 0x20).portScan s.fuses 2 (otpSel sel.toNat) write data)) :=
  congrArg (fun c => Host.Outcome.next (s.cutSettled c)) (Chip.jtagUse_of_ok h _)

theorem exec_lcPort_of_ok {s : State} (h : s.chip.jtagOk 0x21 = true) (write : Bool) (sel : BitVec 4) (data : Word) :
    exec (.lcPort write sel data) s = .next (s.cutSettled ((s.chip.scanned 0x21).portScan s.fuses 3 (lcSel sel.toNat) write data)) :=
  congrArg (fun c => Host.Outcome.next (s.cutSettled c)) (Chip.jtagUse_of_ok h _)

theorem says_bypass : Says.bypass :=
  ⟨fun s => exists_only_of_touch (execBypass_touch s) (by decide +kernel) (by decide +kernel), fun _ => ⟨_, rfl, rfl, rfl⟩⟩

theorem says_idcode : Says.idcode :=
  ⟨fun s => exists_only_of_touch (execIdcode_touch s) (by decide +kernel) (by decide +kernel), fun _ => ⟨_, rfl, rfl, rfl⟩⟩

theorem says_samplePreload : Says.samplePreload :=
  ⟨fun s => exists_only_of_touch (execSamplePreload_touch s) (by decide +kernel) (by decide +kernel), fun _ => ⟨_, rfl, rfl⟩⟩

theorem says_entRaw : Says.entRaw := by
  refine ⟨fun s data samples => exists_only_of_touch (execEntRaw_touch (s := s) ..) (by decide +kernel) (by decide +kernel), ?_⟩
  intro s data samples hok
  exact ⟨_, congrArg (fun c => Host.Outcome.next (s.after c)) (Chip.jtagUse_of_ok hok _), rfl, rfl, rfl⟩

/-- DTM_SPN leaves its own register selected, whatever the halt does (R489). -/
theorem Chip.jtag_spnHalt (c : Chip) : c.spnHalt.dbg.jtag = c.dbg.jtag := by
  unfold Chip.spnHalt
  split
  · rfl
  · split
    · simp [Chip.dmiOut, Chip.jtagRefuse]
    · simp only [Chip.dmiOut, Chip.dbg_send]
      split <;> simp

theorem Chip.jtag_spnResume (c : Chip) : c.spnResume.dbg.jtag = c.dbg.jtag := by
  unfold Chip.spnResume
  split <;> simp

theorem Chip.tx_spnResume (c : Chip) : c.spnResume.tx = c.tx := by
  unfold Chip.spnResume
  split
  · rfl
  · exact Chip.put_same _ _ _ .tx

theorem Chip.spnHalted_spnResume (c : Chip) : c.spnResume.get F.DBG_STATUS_SPN_HALTED = 0 := by
  unfold Chip.spnResume
  split
  · assumption
  · exact Chip.get_put _ _ _ rfl Nat.one_pos

theorem Chip.spnDmi_of_svcUp {c : Chip} (h : c.svcUp = true) (fu : Fuses) :
    c.spnDmi fu .halt = c.spnHalt ∧ c.spnDmi fu .resume = c.spnResume.dmiOut 0 false := by
  simp [Chip.spnDmi, h]

theorem says_dtmSpn : Says.dtmSpn := by
  refine ⟨?_, ?_⟩
  · rintro s op hok hup rfl
    refine ⟨_, exec_dtmSpn_of_ok hok _, ?_⟩
    rw [(Chip.spnDmi_of_svcUp (c := s.chip.scanned 0x11) hup _).2]
    exact ⟨Chip.jtag_spnResume _, Chip.spnHalted_spnResume _, congrArg (· ++ _) (Chip.tx_spnResume _)⟩
  · rintro s op hok hup rfl -
    refine ⟨_, exec_dtmSpn_of_ok hok _, ?_⟩
    rw [(Chip.spnDmi_of_svcUp (c := s.chip.scanned 0x11) hup _).1]
    exact Chip.jtag_spnHalt _

/-- The parts and registers a halt changes once the core's own status is written: those of an event, of mailboxes and of the DMA channels. -/
theorem Chip.haltNow_touch_status (c : Chip) (k : Nat) :
    Touch 0x110c 0x180000020038000000000000000000000000000000000000000000000004 ((c.setHalt k 1).dbgLast k .ok) (c.haltNow k) := by
  refine Touch.each (fun d n hd => Touch.step (Chip.dmStop1_touch d n) (by decide +kernel) (by decide +kernel) hd) ?_
  refine Touch.each (fun d n hd => Touch.step (Chip.mbRaiseFull_touch d true n) (by decide +kernel) (by decide +kernel) hd) ?_
  exact Touch.step (Chip.dbgCore_touch ..) (by decide +kernel) (by decide +kernel) Touch.refl

theorem spares_coreStatus :
    ∀ k < 6, spares 0x180000020038000000000000000000000000000000000000000000000004 (F.DBG_COREc_STATUS_STATE.off k) = true := by
  decide +kernel

theorem Chip.coreState_setHalt (c : Chip) {k : Nat} (hk : k < 6) : (c.setHalt k 1).geti F.DBG_COREc_STATUS_STATE k = 1 := by
  simp only [Chip.setHalt, Nat.one_ne_zero, if_false]
  rw [(Chip.noilTrans_touch ..).geti_eq (by simp [spares]), Chip.geti_puti _ _ _ _ rfl hk]
  rfl

/-- A halt at once leaves the core halted, its last request OK (R490). -/
theorem Chip.haltNow_status (c : Chip) {k : Nat} (hk : k < 6) :
    (c.haltNow k).geti F.DBG_COREc_STATUS_STATE k = 1 ∧ (c.haltNow k).geti F.DBG_COREc_STATUS_LAST k = Status.ok.code := by
  have hoff := spares_coreStatus k hk
  rw [(Chip.haltNow_touch_status c k).geti_eq hoff, (Chip.haltNow_touch_status c k).geti_eq (f := F.DBG_COREc_STATUS_LAST) hoff]
  refine ⟨?_, Chip.geti_puti _ _ _ _ rfl hk⟩
  exact (Chip.geti_puti_other _ _ _ _ _ _ rfl (by simp [Fld.apart, F.DBG_COREc_STATUS_STATE, F.DBG_COREc_STATUS_LAST])).trans (c.coreState_setHalt hk)

theorem Chip.rovDmi_inCore {c : Chip} {k : Nat} (hk : k < 6) (hup : c.svcUp = true) (fu : Fuses) :
    c.rovDmi fu k .inCore = c.dmiOut 0 (!c.coreHalted k) := by
  simp [Chip.rovDmi, hup, hk]

/-- A halt request that is due, under BREAK_ROV of a running core while two others run, halts the core at once. -/
theorem Chip.rovDmi_halt {c : Chip} {k : Nat} (hk : k < 6) (hup : c.svcUp = true) (hbreak : c.get F.DBG_CTRL_BREAK_ROV = 1)
    (hruns : c.coreHalted k = false) (hst : c.coreSt k = 1) (hothers : 2 ≤ c.othersFree k) (fu : Fuses) :
    c.rovDmi fu k .halt = (c.haltNow k).dmiOut 0 (!(c.haltNow k).coreHalted k) := by
  simp [Chip.rovDmi, Chip.haltReq, hup, hk, hbreak, hruns, hst, hothers]

theorem says_dtmRov : Says.dtmRov := by
  refine ⟨?_, ?_⟩
  · rintro s core op hok hcore hup rfl
    refine ⟨_, exec_dtmRov_of_ok hok _ _, ?_⟩
    rw [Chip.rovDmi_inCore (c := s.chip.scanned 0x10) hcore hup]
    exact ⟨rfl, congrArg (fun n => s.chip.tx ++ [.jtag 34 n]) (Nat.zero_add _), rfl⟩
  · rintro s core op hok hcore hup rfl hbreak hruns hst hothers
    refine ⟨_, exec_dtmRov_of_ok hok _ _, ?_⟩
    rw [Chip.rovDmi_halt (c := s.chip.scanned 0x10) hcore hup hbreak hruns hst hothers]
    obtain ⟨hstate, hlast⟩ := Chip.haltNow_status (s.chip.scanned 0x10) hcore
    exact ⟨bne_iff_ne.mpr (hstate.trans_ne Nat.one_ne_zero), hlast⟩

/-- What a scan of OTP_PORT or LC_PORT shifts out and selects (R487): the register the last scan named, if it is one of the port's page. -/
def Chip.portOut (c : Chip) (page : Nat) (sel : Option Nat) : Chip :=
  let c' := c.send (.jtag 40 (if c.dbg.portSel / 0x1000 = page then (c.view c.dbg.portSel).toNat else 0))
  { c' with dbg := { c'.dbg with portSel := sel.getD 0 } }

theorem Chip.portScan_read (c : Chip) (fu : Fuses) (page : Nat) (sel : Option Nat) (data : Word) :
    c.portScan fu page sel false data = c.portOut page sel := by
  cases sel <;> rfl

theorem Chip.portScan_write (c : Chip) (fu : Fuses) (page off : Nat) (data : Word) :
    c.portScan fu page (some off) true data = ((c.portOut page (some off)).writeReg fu reqSpindle off data true).1 := rfl

theorem Chip.tx_portOut_of_other (c : Chip) {page : Nat} (h : c.dbg.portSel / 0x1000 ≠ page) (sel : Option Nat) :
    (c.portOut page sel).tx = c.tx ++ [.jtag 40 0] := by
  simp [Chip.portOut, Chip.send, h]

theorem Chip.tx_length_portOut (c : Chip) (page : Nat) (sel : Option Nat) : (c.portOut page sel).tx.length = c.tx.length + 1 := by
  simp [Chip.portOut, Chip.send]

/-- OTP_ADDR holds one field, RW, and no name or range of Table 0.4 bounds it. -/
theorem Chip.writeReg_otpAddr (c : Chip) (fu : Fuses) (req : Req) (w : Word) (jtag : Bool) :
    c.writeReg fu req R.OTP_ADDR w jtag = (c.put F.OTP_ADDR_WORD (wget 11 0 w), 0) := by
  rfl

theorem Chip.writeReg_token7 (c : Chip) (fu : Fuses) (req : Req) (w : Word) :
    c.writeReg fu req (R.LCS_TOKENn 7) w true = (c.wr (R.LCS_TOKENn 7) w, 0) := rfl

theorem says_otpPort : Says.otpPort := by
  refine ⟨?_, ?_⟩
  · rintro s write sel data hok rfl
    refine ⟨_, exec_otpPort_of_ok hok _ _ _, ?_⟩
    rw [Chip.portScan_read]
    exact ⟨rfl, Chip.tx_length_portOut .., fun h => Chip.tx_portOut_of_other (s.chip.scanned 0x20) h _⟩
  · rintro s write sel data hok rfl rfl - hdata
    refine ⟨_, exec_otpPort_of_ok hok _ _ _, ?_⟩
    change (Chip.portScan _ _ _ (some R.OTP_ADDR) _ _).get _ = _ ∧ (Chip.portScan _ _ _ (some R.OTP_ADDR) _ _).dbg.portSel = _ ∧
      (Chip.portScan _ _ _ (some R.OTP_ADDR) _ _).tx.length = _
    rw [Chip.portScan_write, Chip.writeReg_otpAddr]
    refine ⟨?_, ?_, ?_⟩
    · rw [Chip.get_put _ _ _ rfl Nat.one_pos]
      simp [wget, F.OTP_ADDR_WORD, Nat.mod_eq_of_lt hdata]
    · exact congrArg Dbg.portSel (Chip.dbg_put ..)
    · exact (congrArg List.length (Chip.put_same _ _ _ .tx)).trans (Chip.tx_length_portOut ..)

theorem says_lcPort : Says.lcPort := by
  refine ⟨?_, ?_⟩
  · rintro s write sel data hok rfl
    refine ⟨_, exec_lcPort_of_ok hok _ _ _, ?_⟩
    rw [Chip.portScan_read]
    exact ⟨rfl, Chip.tx_length_portOut .., fun h => Chip.tx_portOut_of_other (s.chip.scanned 0x21) h _⟩
  · rintro s write sel data hok rfl rfl -
    exact ⟨_, exec_lcPort_of_ok hok _ _ _, Chip.rd_wr_same .., rfl, Chip.tx_length_portOut _ _ (some (R.LCS_TOKENn 7))⟩

/-- Settles O43, instruction by instruction. -/
theorem jtagPort : Obligations.JtagPort :=
  ⟨says_bypass, says_idcode, says_samplePreload, says_dtmRov, says_dtmSpn, says_otpPort, says_lcPort, says_entRaw⟩

end Sys2Proof.Machine

/-!
SUPPORT. The statement on the Ply link (spec section 15).
-/

namespace Sys2Proof.Machine

set_option Elab.async false

/-! What the end of a step leaves while the Service domain is down. -/

theorem Chip.seq_idleNote (c : Chip) : c.idleNote.seq = c.seq :=
  congrArg Seq.ofCode ((Chip.idleNote_touch c).geti_eq (i := 0) (by decide +kernel : spares 0x0 (F.PWR_STATUS_SEQ_STATE.off 0) = true))

/-- Outside ACTIVE, what the end of a step does with the Service domain up leaves no thing idle: so a chip with one, and the domain down, is
itself what the step left. -/
theorem Chip.eq_settle_of_idle {c : Chip} (hdown : c.settle.svcUp = false) (hidle : c.settle.pwr.idle ≠ []) : c = c.settle := by
  by_cases hup : c.svcUp = true
  · rw [Chip.settle, if_pos hup] at hdown hidle
    generalize c.settleOnce.settleOnce.settleOnce.settleOnce.snapKeep = d at hdown hidle
    have hseq : d.seq ≠ .active := by
      rintro h
      simp [Chip.svcUp, Chip.seq_idleNote, h] at hdown
    exact absurd (by simp [Chip.idleNote, hseq]) hidle
  · rw [Chip.settle, if_neg hup]

/-! A relayed SEALED_LOAD whose answer fails. -/

/-- A chip in SENSE with its Ply link authenticated, one load still relayed on channel 0 of its partner, and the load's Bobbin waiting for
that alone. -/
def relayedLoad : State :=
  let regs : List (Fld × Nat) := [(F.PLY_STATUS_AUTH, 1), (F.GEN_ID_SIDE, 1)]
  let load : WarpFrame := { op := 1, sub := 0, bobbin := 5, epoch := 10 }
  let chip : Chip :=
    { cust := { bobs := [(5, { cls := 0, st := 2, hank := 0, epoch := 9, warp := 0x80, wait := [.warp 8] })] }
      ply := { relay := [(0, load)] }
      pwr := { idle := [(0, 0)] } }
  { State.reset with chip := chip.each regs fun c p => c.put p.1 p.2 }

/-- The load that fails is discarded, and the CANCEL of it is relayed on the channel the load was on. -/
theorem exec_relayAnswerTimeout_relayedLoad :
    ∃ c, exec (.relayAnswerTimeout 0) relayedLoad = .next (relayedLoad.settled c) ∧ c.settle.svcUp = false ∧ c.settle.pwr.idle ≠ [] ∧
      c.settle.ply.relay.filter (fun r => r.1 == 0) ≠ [] :=
  ⟨_, rfl, by decide +kernel, by decide +kernel, by decide +kernel⟩

/-- Refutes O49: a load whose relay answer does not come is discarded, and where its Bobbin waits for that answer alone the discard relays a
CANCEL on the same channel. In `relayedLoad` one frame is relayed on channel 0, and after the step one is. -/
theorem not_plyLink : ¬ Obligations.PlyLink := by
  rintro ⟨-, -, -, -, -, -, -, -, -, -, -, -, -, -, ⟨-, hnone⟩, -, -, -⟩
  obtain ⟨c, hc, hout⟩ := hnone relayedLoad 0 rfl
  obtain ⟨d, hd, hdown, hidle, hrelay⟩ := exec_relayAnswerTimeout_relayedLoad
  have hsettle : d.settle = c.settle := congrArg State.chip (Host.Outcome.next.inj (hd.symm.trans hc))
  rw [hsettle] at hdown hidle hrelay
  rw [← Chip.eq_settle_of_idle hdown hidle] at hrelay
  exact hrelay hout

end Sys2Proof.Machine

/-!
SUPPORT. The statement on the service port and the update commands (spec section 17).
-/

namespace Sys2Proof.Machine

set_option Elab.async false

/-! A CONFIRM that ends in the step that refuses another. -/

/-- SERVICE in phase 0x30, where CONFIRM is refused, with a CONFIRM of session 9 at the service port, while the outcome of an earlier one, of
session 5, is still owed to the port: that one has no counter left to advance and OTP does nothing, so it ends in this step. -/
def twoConfirms : State :=
  let regs : List (Fld × Nat) := [(F.PWR_STATUS_SEQ_STATE, 2), (F.GEN_BOOT_PHASE, 0x30)]
  let earlier : Confirm := { left := [], origin := { who := .port, cmd := 0x17, session := 5, index := 0 } }
  let chip : Chip := { upd := { portIn := some (updResp 0x17 9 0 .ok []), portWait := true, confirm := some earlier } }
  { State.reset with chip := chip.each regs fun c p => c.put p.1 p.2 }

/-- The outcome of the earlier CONFIRM takes the place of the DENIED frame. -/
theorem exec_updConfirm_twoConfirms :
    ∃ t, exec (.updConfirm none) twoConfirms = .next t ∧ t.chip.upd.portOut = some (updResp 0x17 5 0 .busy []) :=
  ⟨_, rfl, by decide +kernel⟩

/-- Refutes O57: the clause on a refused CONFIRM says that the port then holds its DENIED frame, and does not ask that no earlier CONFIRM be
at work. In `twoConfirms` every condition named there holds, and the outcome of the earlier one, BUSY for session 5, stands at the port. -/
theorem not_servicePort : ¬ Obligations.ServicePort := by
  rintro ⟨-, -, -, -, -, -, -, -, -, -, -, -, ⟨-, hdenied, -⟩, -, -⟩
  obtain ⟨c, hc, -, hout⟩ := hdenied twoConfirms none rfl (by decide +kernel) (by decide +kernel) (by decide +kernel)
  obtain ⟨t, ht, hbusy⟩ := exec_updConfirm_twoConfirms
  obtain rfl : t = twoConfirms.after c := Host.Outcome.next.inj (ht.symm.trans hc)
  change c.upd.portOut = _ at hbusy
  rw [hbusy] at hout
  exact absurd hout (by decide +kernel)

end Sys2Proof.Machine

/-!
SUPPORT. The statement on splices and breaks of the Skein ring (spec section 02).
-/

namespace Sys2Proof.Machine

set_option Elab.async false

/-! One bit of a word changed (R6). -/

theorem bit_eq_testBit (v i : Nat) : bit v i = v.testBit i := by
  rw [bit, Nat.testBit_eq_decide_div_mod_eq]
  rfl

/-- A bit that is 0 is set by adding its weight, with no carry. -/
theorem testBit_add_two_pow {v i : Nat} (h : v.testBit i = false) (j : Nat) : (v + 2 ^ i).testBit j = (decide (j = i) || v.testBit j) := by
  rw [Nat.add_comm]
  rcases lt_trichotomy j i with hj | rfl | hj
  · rw [Nat.testBit_two_pow_add_gt hj, decide_eq_false hj.ne, Bool.false_or]
  · rw [Nat.testBit_two_pow_add_eq, h]
    simp
  · obtain ⟨k, rfl⟩ : ∃ k, j = i + (k + 1) := ⟨j - i - 1, by omega⟩
    have heven : v / 2 ^ i % 2 = 0 := by simpa [Nat.testBit_eq_decide_div_mod_eq] using h
    have hdiv : (2 ^ i + v) / 2 ^ (i + (k + 1)) = v / 2 ^ (i + (k + 1)) := by
      rw [Nat.pow_add, Nat.pow_succ', ← Nat.div_div_eq_div_mul, ← Nat.div_div_eq_div_mul, ← Nat.div_div_eq_div_mul, ← Nat.div_div_eq_div_mul,
        Nat.add_div_left _ (Nat.two_pow_pos i)]
      congr 1
      omega
    simp [Nat.testBit_eq_decide_div_mod_eq, hdiv]

theorem bit_withBit (v i : Nat) (b : Bool) (j : Nat) : bit (withBit v i b) j = if j = i then b else bit v j := by
  simp only [withBit, bit_eq_testBit]
  cases b <;> cases hv : v.testBit i
  case false.false => by_cases hj : j = i <;> simp [hj, hv]
  case true.true => by_cases hj : j = i <;> simp [hj, hv]
  case true.false => by_cases hj : j = i <;> simp [hj, testBit_add_two_pow hv]
  case false.true =>
    obtain ⟨u, rfl⟩ : ∃ u, v = u + 2 ^ i := ⟨v - 2 ^ i, (Nat.sub_add_cancel (Nat.ge_two_pow_of_testBit hv)).symm⟩
    have hu : u.testBit i = false := by simpa [Nat.add_comm u, Nat.testBit_two_pow_add_eq] using hv
    by_cases hj : j = i <;> simp [hj, hu, testBit_add_two_pow hu]

theorem withBit_lt {v i w : Nat} (hv : v < 2 ^ w) (hi : i < w) (b : Bool) : withBit v i b < 2 ^ w := by
  refine Nat.lt_pow_two_of_testBit _ fun j hj => ?_
  rw [← bit_eq_testBit, bit_withBit, if_neg (by omega), bit_eq_testBit, Nat.testBit_lt_two_pow (hv.trans_le (Nat.pow_le_pow_right Nat.two_pos hj))]

/-! The nodes of the ring that carry frames (R42). -/

theorem Chip.bit_get_put_withBit (c : Chip) {f : Fld} (hf : f.ok = true) (hc : 0 < f.count) {i : Nat} (hi : i < f.hi + 1 - f.lo) (b : Bool) (j : Nat) :
    bit ((c.put f (withBit (c.get f) i b)).get f) j = if j = i then b else bit (c.get f) j := by
  have hlt : withBit (c.get f) i b < 2 ^ (f.hi + 1 - f.lo) := withBit_lt (c.geti_lt f 0) hi b
  rw [Chip.get_put _ _ _ hf hc, Nat.mod_eq_of_lt hlt, bit_withBit]

/-- The PRESENT field of a node, and the node's bit in it. -/
def presentBit (n : Nat) : Fld × Nat :=
  if n < 32 then (F.SKN_PRESENT0_NODES, n) else if n < 64 then (F.SKN_PRESENT1_NODES, n - 32) else (F.SKN_PRESENT2_NODES, n - 64)

theorem presentBit_cases (n : Nat) :
    n < 32 ∧ presentBit n = (F.SKN_PRESENT0_NODES, n) ∨ 32 ≤ n ∧ n < 64 ∧ presentBit n = (F.SKN_PRESENT1_NODES, n - 32) ∨
      64 ≤ n ∧ presentBit n = (F.SKN_PRESENT2_NODES, n - 64) := by
  unfold presentBit
  split
  · simp [*]
  · split
    · simp; omega
    · simp; omega

theorem Chip.present_eq (c : Chip) (n : Nat) : c.present n = bit (c.get (presentBit n).1) (presentBit n).2 := by
  unfold Chip.present presentBit
  split
  · rfl
  · split <;> rfl

theorem Chip.setPresent_eq (c : Chip) {n : Nat} (hn : n < 66) (b : Bool) :
    c.setPresent n b = c.put (presentBit n).1 (withBit (c.get (presentBit n).1) (presentBit n).2 b) := by
  unfold Chip.setPresent presentBit
  split
  · rfl
  · split
    · rfl
    · rfl

theorem presentBit_lt {n : Nat} (hn : n < 66) :
    (presentBit n).1.ok = true ∧ (presentBit n).1.count = 1 ∧ (presentBit n).2 < (presentBit n).1.hi + 1 - (presentBit n).1.lo := by
  rcases presentBit_cases n with ⟨h, e⟩ | ⟨h, h', e⟩ | ⟨h, e⟩
  all_goals
    rw [e]
    exact ⟨rfl, rfl, by simp [F.SKN_PRESENT0_NODES, F.SKN_PRESENT1_NODES, F.SKN_PRESENT2_NODES]; omega⟩

/-- Two nodes have their bits apart: in one field at two places, or in two registers. -/
theorem presentBit_apart {m n : Nat} (h : m ≠ n) :
    (presentBit m).1 = (presentBit n).1 ∧ (presentBit m).2 ≠ (presentBit n).2 ∨ (presentBit m).1.apart (presentBit n).1 0 0 = true := by
  rcases presentBit_cases m with ⟨hm, e⟩ | ⟨hm, hm', e⟩ | ⟨hm, e⟩ <;> rcases presentBit_cases n with ⟨hn, e'⟩ | ⟨hn, hn', e'⟩ | ⟨hn, e'⟩
  all_goals
    rw [e, e']
    simp [Fld.apart, Fld.off, F.SKN_PRESENT0_NODES, F.SKN_PRESENT1_NODES, F.SKN_PRESENT2_NODES] <;> omega

theorem Chip.present_setPresent (c : Chip) {n : Nat} (hn : n < 66) (b : Bool) (m : Nat) :
    (c.setPresent n b).present m = if m = n then b else c.present m := by
  obtain ⟨hok, hcount, hlt⟩ := presentBit_lt hn
  rw [Chip.present_eq, Chip.setPresent_eq c hn, Chip.present_eq c m]
  by_cases h : m = n
  · subst h
    rw [Chip.bit_get_put_withBit c hok (hcount ▸ Nat.one_pos) hlt, if_pos rfl, if_pos rfl]
  · rw [if_neg h]
    rcases presentBit_apart h with ⟨hf, hi⟩ | hapart
    · rw [hf, Chip.bit_get_put_withBit c hok (hcount ▸ Nat.one_pos) hlt, if_neg hi]
    · rw [Chip.get_put_other]
      · rcases presentBit_cases m with ⟨-, e⟩ | ⟨-, -, e⟩ | ⟨-, e⟩ <;> rw [e] <;> rfl
      · exact hapart

/-! The breaks in force (R43): what SKN_STATUS says of them. -/

@[simp] theorem Chip.ring_put (c : Chip) (f : Fld) (v : Nat) : (c.put f v).ring = c.ring := Chip.put_same c f v .ring

@[simp] theorem Chip.ring_setBreaks (c : Chip) (ks : List (Nat × Nat)) : (c.setBreaks ks).ring = { c.ring with breaks := ks } := by
  simp [Chip.setBreaks]

theorem Chip.break_setBreaks (c : Chip) (ks : List (Nat × Nat)) : (c.setBreaks ks).get F.SKN_STATUS_BREAK = b2n (!ks.isEmpty) := by
  unfold Chip.setBreaks
  rw [Chip.get_put_other _ _ _ _ rfl rfl, Chip.get_put_other _ _ _ _ rfl rfl, Chip.get_put _ _ _ rfl Nat.one_pos]
  cases ks.isEmpty <;> rfl

theorem Chip.breakA_setBreaks (c : Chip) (ks : List (Nat × Nat)) :
    (c.setBreaks ks).get F.SKN_STATUS_BREAK_A = (ks.getLastD (0xFF, 0xFF)).1 % 256 := by
  unfold Chip.setBreaks
  rw [Chip.get_put_other _ _ _ _ rfl rfl, Chip.get_put _ _ _ rfl Nat.one_pos]
  rfl

theorem Chip.breakB_setBreaks (c : Chip) (ks : List (Nat × Nat)) :
    (c.setBreaks ks).get F.SKN_STATUS_BREAK_B = (ks.getLastD (0xFF, 0xFF)).2 % 256 := by
  unfold Chip.setBreaks
  rw [Chip.get_put _ _ _ rfl Nat.one_pos]
  rfl

theorem Chip.lock_setBreaks (c : Chip) (ks : List (Nat × Nat)) :
    (c.setBreaks ks).get F.SKN_STATUS_CW_LOCK = c.get F.SKN_STATUS_CW_LOCK ∧ (c.setBreaks ks).get F.SKN_STATUS_CC_LOCK = c.get F.SKN_STATUS_CC_LOCK := by
  unfold Chip.setBreaks
  constructor
  all_goals
    rw [Chip.get_put_other _ _ _ _ rfl rfl, Chip.get_put_other _ _ _ _ rfl rfl, Chip.get_put_other _ _ _ _ rfl rfl]
    rfl

/-- After a break is in force, the rest of the notice changes no part of SKN_STATUS: nodes leave PRESENT, held frames are sent again, an event. -/
theorem Chip.noteBreak_touch_setBreaks (c : Chip) (a b : Nat) :
    Touch 0x11c 0x180000000000000000000000000000000000000700000000000000000004
      ((c.count 28 1).setBreaks ((c.count 28 1).ring.breaks.filter (· != (a, b)) ++ [(a, b)])) (c.noteBreak a b).1 := by
  refine Touch.step (Chip.log_touch ..) (by decide +kernel) (by decide +kernel) ?_
  refine Touch.step (Chip.resendWhere_touch ..) (by decide +kernel) (by decide +kernel) ?_
  exact Touch.each (fun d n hd => Touch.step (Chip.setPresent_touch d n false) (by decide +kernel) (by decide +kernel) hd) Touch.refl

/-- After breaks have gone, so too for a mended segment: its ends are in PRESENT, an event. -/
theorem Chip.noteMended_touch_setBreaks (c : Chip) (a b : Nat) :
    Touch 0x108 0x180000000000000000000000000000000000000700000000000000000004
      (c.setBreaks (c.ring.breaks.flatMap (breakLess c.pkg a b))) (c.noteMended a b) := by
  refine Touch.step (Chip.log_touch ..) (by decide +kernel) (by decide +kernel) ?_
  refine Touch.step (Chip.setPresent_touch ..) (by decide +kernel) (by decide +kernel) ?_
  exact Touch.step (Chip.setPresent_touch ..) (by decide +kernel) (by decide +kernel) Touch.refl

theorem Chip.breakFields_noteBreak (c : Chip) {a b : Nat} (ha : a < 256) (hb : b < 256) :
    (c.noteBreak a b).1.get F.SKN_STATUS_BREAK = 1 ∧ (c.noteBreak a b).1.get F.SKN_STATUS_BREAK_A = a ∧
      (c.noteBreak a b).1.get F.SKN_STATUS_BREAK_B = b := by
  have h := Chip.noteBreak_touch_setBreaks c a b
  have keeps (f : Fld) (hf : f.off 0 = 0x6004) := h.geti_eq (f := f) (i := 0) (by rw [hf]; decide +kernel)
  refine ⟨(keeps _ rfl).trans ?_, (keeps _ rfl).trans ?_, (keeps _ rfl).trans ?_⟩
  · exact (Chip.break_setBreaks ..).trans (by simp [b2n])
  · exact (Chip.breakA_setBreaks ..).trans (by simpa using ha)
  · exact (Chip.breakB_setBreaks ..).trans (by simpa using hb)

/-- A break between two nodes is gone when the segment between them is mended. -/
theorem breakLess_self (p : Pkg) (a b : Nat) : breakLess p a b (a, b) = [] := by
  have h : cwHops p a a = 0 := by simp [cwHops]
  simp [breakLess, cwCrosses, h]

theorem Chip.noteMended_whole (c : Chip) {a b : Nat} (h : c.ring.breaks = [(a, b)] ∨ c.ring.breaks = []) :
    (c.noteMended a b).get F.SKN_STATUS_BREAK = 0 ∧ (c.noteMended a b).get F.SKN_STATUS_BREAK_A = 0xFF := by
  have hnone : c.ring.breaks.flatMap (breakLess c.pkg a b) = [] := by
    rcases h with h | h <;> simp [h, breakLess_self]
  have htouch := Chip.noteMended_touch_setBreaks c a b
  rw [hnone] at htouch
  exact ⟨(htouch.geti_eq (by decide +kernel)).trans (Chip.break_setBreaks ..), (htouch.geti_eq (by decide +kernel)).trans (Chip.breakA_setBreaks ..)⟩

theorem Chip.present_of_touch {pm bm : Nat} {c d : Chip} (h : Touch pm bm c d) (hs : spares bm 0x6010 = true) (hs' : spares bm 0x6014 = true)
    (hs'' : spares bm 0x6018 = true) (n : Nat) : d.present n = c.present n := by
  unfold Chip.present Chip.get
  rw [h.geti_eq (f := F.SKN_PRESENT0_NODES) (i := 0) hs, h.geti_eq (f := F.SKN_PRESENT1_NODES) (i := 0) hs', h.geti_eq (f := F.SKN_PRESENT2_NODES) (i := 0) hs'']

theorem Chip.present_log (c : Chip) (code unit : Nat) (args : List Byte) (n : Nat) : (c.log code unit args).present n = c.present n :=
  Chip.present_of_touch (Chip.log_touch ..) (by decide +kernel) (by decide +kernel) (by decide +kernel) n

theorem Chip.present_noteMended (c : Chip) {a b : Nat} (ha : a < 66) (hb : b < 66) :
    (c.noteMended a b).present a = true ∧ (c.noteMended a b).present b = true := by
  unfold Chip.noteMended
  simp [Chip.present_log, Chip.present_setPresent _ ha, Chip.present_setPresent _ hb]

/-! Frames in the inbox. -/

/-- The chip with a frame taken out of its inbox. -/
def Chip.taken (c : Chip) (m : Inbox) : Chip := { c with ring := { c.ring with inbox := c.ring.inbox.erase m } }

theorem Chip.onFrame_of_front {c : Chip} {typ : Nat} {m : Inbox} (h : c.front typ = some m) (f : Chip → Inbox → Chip) :
    c.onFrame typ f = f (c.taken m) m := by
  unfold Chip.front at h
  simp only [Chip.onFrame, Chip.takeInbox, h]
  rfl

theorem Chip.onFrame_of_none {c : Chip} {typ : Nat} (h : c.front typ = none) (f : Chip → Inbox → Chip) : c.onFrame typ f = c := by
  unfold Chip.front at h
  simp only [Chip.onFrame, Chip.takeInbox, h]

theorem ofLe_lt (bs : List Byte) : ofLe bs < 256 ^ bs.length := by
  induction bs with
  | nil => simp [ofLe]
  | cons b bs ih =>
    have hb : b.toNat < 256 := b.isLt
    simp only [ofLe, List.length_cons, Nat.pow_succ]
    omega

theorem numAt_one_lt (bs : List Byte) (p : Nat) : numAt bs p 1 < 256 := by
  have h := ofLe_lt (slice bs p 1)
  rwa [length_slice] at h

theorem exec_ringState_break {s : State} {m : Inbox} (h : s.chip.front 0x70 = some m) (hst : numAt m.payload 0 1 = 1)
    (hnew : s.chip.brokenAt (numAt m.payload 1 1) (numAt m.payload 2 1) = false) :
    exec .ringState s = .next (s.settled ((s.chip.taken m).noteBreak (numAt m.payload 1 1) (numAt m.payload 2 1)).1) := by
  have hnew' : (s.chip.taken m).brokenAt (numAt m.payload 1 1) (numAt m.payload 2 1) = false := hnew
  refine congrArg (fun c => Host.Outcome.next (s.settled c)) ((Chip.onFrame_of_front h _).trans ?_)
  simp [hst, hnew']

theorem exec_ringState_mended {s : State} {m : Inbox} (h : s.chip.front 0x70 = some m) (hst : numAt m.payload 0 1 = 2)
    (hone : s.chip.ring.breaks = [(numAt m.payload 1 1, numAt m.payload 2 1)]) :
    exec .ringState s = .next (s.settled ((s.chip.taken m).noteMended (numAt m.payload 1 1) (numAt m.payload 2 1))) := by
  have hnew : (s.chip.taken m).wholeAt (numAt m.payload 1 1) (numAt m.payload 2 1) = false := by
    rw [Chip.wholeAt, show (s.chip.taken m).ring.breaks = _ from hone]
    simp [breakLess_self]
  refine congrArg (fun c => Host.Outcome.next (s.settled c)) ((Chip.onFrame_of_front h _).trans ?_)
  simp [hst, hnew]

theorem says_ringState : Says.ringState := by
  refine ⟨fun s => exists_only_of_touch (execRingState_touch s) (by decide +kernel) (by decide +kernel), ?_, ?_⟩
  · intro s h
    obtain ⟨m, hm, h⟩ := (Option.any_eq_true _ _).mp h
    simp only [Bool.and_eq_true, beq_iff_eq, Bool.not_eq_true'] at h
    obtain ⟨hst, hnew⟩ := h
    obtain ⟨hbreak, hA, hB⟩ := Chip.breakFields_noteBreak (s.chip.taken m) (numAt_one_lt m.payload 1) (numAt_one_lt m.payload 2)
    refine ⟨_, exec_ringState_break hm hst hnew, hbreak, ?_⟩
    simp [hm, hA, hB]
  · intro s h
    obtain ⟨m, hm, h⟩ := (Option.any_eq_true _ _).mp h
    simp only [Bool.and_eq_true, beq_iff_eq, decide_eq_true_eq] at h
    obtain ⟨⟨⟨hst, hone⟩, ha⟩, hb⟩ := h
    obtain ⟨hbreak, hA⟩ := Chip.noteMended_whole (s.chip.taken m) (Or.inl hone)
    obtain ⟨hpa, hpb⟩ := Chip.present_noteMended (s.chip.taken m) ha hb
    refine ⟨_, exec_ringState_mended hm hst hone, hbreak, hA, ?_⟩
    simp [hm, hpa, hpb]

/-! The Splice of this node (R45, R46). -/

/-- A SPLICE_FORCE this chip does not take (R45): another node's, not its partner's, its own lease's, or of a partner whose heartbeats say
that it does not lead. -/
def Chip.forceRefused (c : Chip) (m : Inbox) : Bool :=
  numAt m.payload 1 1 != c.node || m.src != c.partnerNode || c.leads || (c.linked && !c.ply.lost && c.ply.partner != 5)

theorem Chip.not_forceRefused (c : Chip) (m : Inbox) :
    (numAt m.payload 1 1 == c.node && m.src == c.partnerNode && !c.leads && (!c.linked || c.ply.lost || c.ply.partner == 5)) = !c.forceRefused m := by
  simp [Chip.forceRefused, bne, Bool.not_or, Bool.not_and, Bool.or_assoc, Bool.and_assoc]

theorem exec_spliceForce_refused {s : State} {m : Inbox} (h : s.chip.front 0x71 = some m) (hm : s.chip.forceRefused m = true) :
    exec .spliceForce s = .next (s.after (s.chip.taken m)) :=
  congrArg (fun c => Host.Outcome.next (s.after c)) ((Chip.onFrame_of_front h _).trans (if_pos hm))

theorem exec_spliceForce_set {s : State} {m : Inbox} (h : s.chip.front 0x71 = some m) (hm : s.chip.forceRefused m = false)
    (hset : numAt m.payload 0 1 = 1) :
    exec .spliceForce s = .next (s.after (Chip.spliceDrop { s.chip.taken m with ring := { (s.chip.taken m).ring with forced := true } })) :=
  congrArg (fun c => Host.Outcome.next (s.after c))
    ((Chip.onFrame_of_front h _).trans ((if_neg (ne_true_of_eq_false hm)).trans (if_pos hset)))

theorem exec_spliceForce_clear {s : State} {m : Inbox} (h : s.chip.front 0x71 = some m) (hm : s.chip.forceRefused m = false)
    (hclear : numAt m.payload 0 1 = 2) :
    exec .spliceForce s = .next (s.after { s.chip.taken m with ring := { (s.chip.taken m).ring with forced := false } }) :=
  congrArg (fun c => Host.Outcome.next (s.after c))
    ((Chip.onFrame_of_front h _).trans ((if_neg (ne_true_of_eq_false hm)).trans ((if_neg (by simp [hclear])).trans (if_pos hclear))))

theorem Chip.spliceDrop_forced (c : Chip) : c.spliceDrop.ring.forced = c.ring.forced := by
  unfold Chip.spliceDrop
  cases h : c.ring.splice <;> simp [Chip.setSplice, h]

theorem says_spliceForce : Says.spliceForce := by
  refine ⟨fun s => exists_only_of_touch (execSpliceForce_touch s) (by decide +kernel) (by decide +kernel), ?_, ?_, ?_⟩
  all_goals
    intro s h
    obtain ⟨m, hm, h⟩ := (Option.any_eq_true _ _).mp h
  · exact ⟨_, exec_spliceForce_refused hm h, rfl, rfl, rfl⟩
  · rw [Chip.not_forceRefused, Bool.and_eq_true, Bool.not_eq_true', beq_iff_eq] at h
    exact ⟨_, exec_spliceForce_set hm h.1 h.2, Chip.spliceDrop_forced _, Chip.spliceDrop_spliceHold _⟩
  · rw [Chip.not_forceRefused, Bool.and_eq_true, Bool.not_eq_true', beq_iff_eq] at h
    exact ⟨_, exec_spliceForce_clear hm h.1 h.2, rfl, rfl⟩

/-! A neighbour whose bypass has closed leaves the ring (R45). -/

theorem Chip.present_lt {c : Chip} {n : Nat} (h : c.present n = true) : n < 66 := by
  by_contra hn
  have hv : c.get F.SKN_PRESENT2_NODES < 2 ^ 2 := c.geti_lt F.SKN_PRESENT2_NODES 0
  rw [Chip.present, if_neg (by omega), if_neg (by omega), bit_eq_testBit,
    Nat.testBit_lt_two_pow (hv.trans_le (Nat.pow_le_pow_right Nat.two_pos (by omega)))] at h
  cases h

theorem Chip.each_keeps_prop {α : Type} {P : Chip → Prop} {l : List α} {f : Chip → α → Chip} (hf : ∀ d i, P d → P (f d i)) {c : Chip} (h : P c) :
    P (c.each l f) :=
  List.foldlRecOn l f h fun d hd i _ => hf d i hd

theorem Chip.absent_setPresent {c : Chip} {n : Nat} (h : c.present n = false) (m : Nat) : (c.setPresent m false).present n = false := by
  by_cases hm : m < 66
  · rw [Chip.present_setPresent c hm]
    split
    · rfl
    · exact h
  · rw [Chip.setPresent, if_neg (by omega), if_neg (by omega), if_neg hm]
    exact h

/-- A node that is away stays so: a break takes nodes out of PRESENT and puts none in. -/
theorem Chip.absent_noteBreak {c : Chip} {n : Nat} (h : c.present n = false) (a b : Nat) : (c.noteBreak a b).1.present n = false := by
  unfold Chip.noteBreak
  extract_lets c' gone d d' e
  have hd : d.present n = false := by
    rw [← h]
    exact (Chip.present_of_touch (Chip.setBreaks_touch ..) (by decide +kernel) (by decide +kernel) (by decide +kernel) n).trans
      (Chip.present_of_touch (Chip.count_touch c 28 1) (by decide +kernel) (by decide +kernel) (by decide +kernel) n)
  have hd' : d'.present n = false := Chip.each_keeps_prop (P := (·.present n = false)) (fun e m he => Chip.absent_setPresent he m) hd
  rw [Chip.present_log, Chip.present_of_touch (Chip.resendWhere_touch ..) (by decide +kernel) (by decide +kernel) (by decide +kernel) n]
  exact hd'

theorem Chip.absent_besideClosed {c : Chip} {n : Nat} (h : c.present n = false) (cc : Bool) : (c.besideClosed cc).present n = false := by
  unfold Chip.besideClosed
  split
  · exact h
  · extract_lets a b d
    have hd : d.present n = false := by
      have hput (f : Fld) (hf : hasField 0x80000000000000000000 f = true) : (c.put f 0).present n = false :=
        (Chip.present_of_touch (Touch.put (pm := 0) hf Touch.refl) (by decide +kernel) (by decide +kernel) (by decide +kernel) n).trans h
      simp only [d]
      split
      · exact hput _ (by decide +kernel)
      · exact hput _ (by decide +kernel)
    rw [Chip.present_of_touch (Chip.ringBroadcast_touch ..) (by decide +kernel) (by decide +kernel) (by decide +kernel) n]
    exact Chip.absent_noteBreak hd a b

theorem exec_spliceClose_neighbour {s : State} {node : Nat} (hnode : node ≠ s.chip.node) (hring : s.chip.ring.splice = .inRing)
    (hpresent : s.chip.present node = true) (hcw : s.chip.neighbour false = some node) :
    exec (.spliceClose node) s = .next (s.settled
      (if s.chip.neighbour true == some node then ((s.chip.setPresent node false).besideClosed false).besideClosed true
        else (s.chip.setPresent node false).besideClosed false)) := by
  refine congrArg (fun c => Host.Outcome.next (s.settled c)) ((if_neg hnode).trans ?_)
  simp [hring, hpresent, hcw]

theorem exec_spliceClose_other {s : State} {node : Nat} (hnode : node ≠ s.chip.node) (hcw : s.chip.neighbour false ≠ some node)
    (hcc : s.chip.neighbour true ≠ some node) : exec (.spliceClose node) s = .next (s.settled s.chip) := by
  refine congrArg (fun c => Host.Outcome.next (s.settled c)) ((if_neg hnode).trans ?_)
  simp [hcw, hcc]

theorem says_spliceClose : Says.spliceClose := by
  refine ⟨fun s node => exists_only_of_touch (execSpliceClose_touch (s := s) ..) (by decide +kernel) (by decide +kernel), ?_, ?_, ?_⟩
  · rintro s node rfl hclosing
    refine ⟨_, congrArg (fun c => Host.Outcome.next (s.settled c)) ((if_pos rfl).trans (if_pos hclosing)), ?_, ?_, ?_⟩
    · simp [Chip.setSplice]
    · rw [Chip.get_put_other _ _ _ _ rfl rfl]
      exact Chip.get_put _ _ _ rfl Nat.one_pos
    · exact Chip.get_put _ _ _ rfl Nat.one_pos
  · intro s node hnode hring hpresent hcw
    refine ⟨_, exec_spliceClose_neighbour hnode hring hpresent hcw, ?_⟩
    have haway : (s.chip.setPresent node false).present node = false := by
      rw [Chip.present_setPresent _ (Chip.present_lt hpresent), if_pos rfl]
    split
    · exact Chip.absent_besideClosed (Chip.absent_besideClosed haway _) _
    · exact Chip.absent_besideClosed haway _
  · intro s node hnode hcw hcc
    exact ⟨_, exec_spliceClose_other hnode hcw hcc, rfl⟩

/-! A node that is ready to come back (R46). -/

theorem says_nodeReady : Says.nodeReady := by
  refine ⟨fun s node => exists_only_of_touch (execNodeReady_touch (s := s) ..) (by decide +kernel) (by decide +kernel), ?_, ?_, ?_⟩
  · rintro s node rfl hbridged hforced hup hen
    refine ⟨_, congrArg (fun c => Host.Outcome.next (s.after c)) ((if_pos rfl).trans (if_pos ?_)), rfl, rfl⟩
    simp [hbridged, hforced, hup, hen]
  · rintro s node rfl hforced
    refine ⟨_, congrArg (fun c => Host.Outcome.next (s.after c)) ((if_pos rfl).trans (if_neg ?_)), rfl⟩
    simp [hforced]
  · intro s node hnode hpresent
    refine ⟨_, congrArg (fun c => Host.Outcome.next (s.after c)) ((if_neg hnode).trans (if_neg ?_)), rfl⟩
    simp [hpresent]

/-! A segment that carries frames again (R45, Table 2.7). -/

theorem Chip.ring_log (c : Chip) (code unit : Nat) (args : List Byte) : (c.log code unit args).ring = c.ring :=
  (Chip.log_touch c code unit args).same .ring rfl

theorem Chip.splice_seqNext (c : Chip) : c.seqNext.ring.splice = c.ring.splice := by
  unfold Chip.seqNext
  split
  · rfl
  · rw [Chip.ring_log]

theorem Chip.ring_ringOut (c : Chip) (f : RingFrame) : (c.ringOut f).ring = c.ring := (Chip.ringOut_touch c f).same .ring rfl

theorem Chip.splice_ringBroadcast (c : Chip) (typ : Nat) (payload : List Byte) : (c.ringBroadcast typ payload).ring.splice = c.ring.splice := by
  unfold Chip.ringBroadcast
  split
  · rfl
  · simp only [Chip.splice_seqNext, Chip.ring_ringOut]

theorem Chip.splice_noteMended (c : Chip) (a b : Nat) : (c.noteMended a b).ring.splice = c.ring.splice := by
  rw [(Chip.noteMended_touch_setBreaks c a b).same .ring rfl, Chip.ring_setBreaks]

theorem Chip.locks_noteMended (c : Chip) (a b : Nat) :
    (c.noteMended a b).get F.SKN_STATUS_CW_LOCK = c.get F.SKN_STATUS_CW_LOCK ∧
      (c.noteMended a b).get F.SKN_STATUS_CC_LOCK = c.get F.SKN_STATUS_CC_LOCK := by
  have h := Chip.noteMended_touch_setBreaks c a b
  exact ⟨(h.geti_eq (by decide +kernel)).trans (Chip.lock_setBreaks ..).1, (h.geti_eq (by decide +kernel)).trans (Chip.lock_setBreaks ..).2⟩

/-- The notice of a mended segment to the whole ring (Table 2.6). -/
def Chip.tellMended (c : Chip) (a b : Nat) : Chip := (c.noteMended a b).ringBroadcast 0x70 (ringStatePayload 2 a b c.time)

theorem Chip.locks_tellMended (c : Chip) (a b : Nat) :
    (c.tellMended a b).get F.SKN_STATUS_CW_LOCK = c.get F.SKN_STATUS_CW_LOCK ∧
      (c.tellMended a b).get F.SKN_STATUS_CC_LOCK = c.get F.SKN_STATUS_CC_LOCK := by
  have h := Chip.ringBroadcast_touch (c.noteMended a b) 0x70 (ringStatePayload 2 a b c.time)
  exact ⟨(h.geti_eq (by decide +kernel)).trans (c.locks_noteMended a b).1, (h.geti_eq (by decide +kernel)).trans (c.locks_noteMended a b).2⟩

theorem Chip.splice_tellMended (c : Chip) (a b : Nat) : (c.tellMended a b).ring.splice = c.ring.splice :=
  (Chip.splice_ringBroadcast ..).trans (c.splice_noteMended a b)

/-- The segment behind this node has its lock again, and its delay is measured. -/
def Chip.cwTrained (c : Chip) : Chip := (c.put F.SKN_STATUS_CW_LOCK 1).ringTrained true

/-- And so the segment before it. -/
def Chip.ccTrained (c : Chip) : Chip := (c.put F.SKN_STATUS_CC_LOCK 1).ringTrained false

theorem Chip.ring_cwTrained (c : Chip) : c.cwTrained.ring = c.ring := ((Chip.ringTrained_touch ..).same .ring rfl).trans (Chip.ring_put ..)

theorem Chip.ring_ccTrained (c : Chip) : c.ccTrained.ring = c.ring := ((Chip.ringTrained_touch ..).same .ring rfl).trans (Chip.ring_put ..)

theorem Chip.cwLock_cwTrained (c : Chip) : c.cwTrained.get F.SKN_STATUS_CW_LOCK = 1 :=
  ((Chip.ringTrained_touch ..).geti_eq (by decide +kernel)).trans (Chip.get_put _ _ _ rfl Nat.one_pos)

theorem Chip.locks_ccTrained (c : Chip) :
    c.ccTrained.get F.SKN_STATUS_CC_LOCK = 1 ∧ c.ccTrained.get F.SKN_STATUS_CW_LOCK = c.get F.SKN_STATUS_CW_LOCK :=
  ⟨((Chip.ringTrained_touch ..).geti_eq (by decide +kernel)).trans (Chip.get_put _ _ _ rfl Nat.one_pos),
    ((Chip.ringTrained_touch ..).geti_eq (by decide +kernel)).trans (Chip.get_put_other _ _ _ _ rfl rfl)⟩

theorem exec_segmentRetrained_spanned {s : State} {endA endB : Nat} (hsplice : s.chip.ring.splice = .retrain) (hA : endA ≠ s.chip.node)
    (hspan : cwHops s.chip.pkg endA s.chip.node < cwHops s.chip.pkg endA endB) :
    exec (.segmentRetrained endA endB) s =
      .next (s.after ((s.chip.setSplice .bridged).log 0x0202 uSKN (aFrame 0x70 endA endB 0 0 s.chip.ring.rkey 0 0 0))) := by
  refine congrArg (fun c => Host.Outcome.next (s.after c)) ?_
  simp [hsplice, hA, hspan]

theorem exec_segmentRetrained_out {s : State} (hsplice : s.chip.ring.splice = .bridged ∨ s.chip.ring.splice = .closing) (endA endB : Nat) :
    exec (.segmentRetrained endA endB) s = .next (s.after s.chip) := by
  refine congrArg (fun c => Host.Outcome.next (s.after c)) ?_
  rcases hsplice with h | h <;> simp [h]

theorem exec_segmentRetrained_inRing {s : State} (hsplice : s.chip.ring.splice = .inRing) (endA : Nat) :
    exec (.segmentRetrained endA s.chip.node) s = .next (s.after (s.chip.cwTrained.tellMended endA s.chip.node)) := by
  refine congrArg (fun c => Host.Outcome.next (s.after c)) ?_
  have hring : ((s.chip.put F.SKN_STATUS_CW_LOCK 1).ringTrained true).ring.splice = .inRing :=
    (congrArg Ring.splice s.chip.ring_cwTrained).trans hsplice
  simp [hsplice, hring, Chip.tellMended, Chip.cwTrained]

theorem exec_segmentRetrained_opening {s : State} {endB : Nat} (hsplice : s.chip.ring.splice = .opening) (hB : endB ≠ s.chip.node)
    (hcw : s.chip.get F.SKN_STATUS_CW_LOCK = 1) :
    exec (.segmentRetrained s.chip.node endB) s = .next (s.after ((s.chip.ccTrained.setSplice .inRing).tellMended s.chip.node endB)) := by
  refine congrArg (fun c => Host.Outcome.next (s.after c)) ?_
  have hring : ((s.chip.put F.SKN_STATUS_CC_LOCK 1).ringTrained false).ring.splice = .opening :=
    (congrArg Ring.splice s.chip.ring_ccTrained).trans hsplice
  obtain ⟨hcc, hcw'⟩ : ((s.chip.put F.SKN_STATUS_CC_LOCK 1).ringTrained false).get F.SKN_STATUS_CC_LOCK = 1 ∧
      ((s.chip.put F.SKN_STATUS_CC_LOCK 1).ringTrained false).get F.SKN_STATUS_CW_LOCK = s.chip.get F.SKN_STATUS_CW_LOCK := s.chip.locks_ccTrained
  have hin (d : Chip) : (d.setSplice .inRing).ring.splice = .inRing := rfl
  simp [hsplice, hring, hB, hcc, hcw', hcw, hin, beq_false_of_ne hB, Chip.tellMended, Chip.ccTrained]

theorem says_segmentRetrained : Says.segmentRetrained := by
  refine ⟨fun s a b => exists_only_of_touch (execSegmentRetrained_touch (s := s) ..) (by decide +kernel) (by decide +kernel), ?_, ?_, ?_, ?_⟩
  · intro s endA endB hsplice hA hspan
    exact ⟨_, exec_segmentRetrained_spanned hsplice hA hspan, Chip.ring_log ..⟩
  · intro s endA endB hsplice
    exact ⟨_, exec_segmentRetrained_out hsplice endA endB, rfl⟩
  · rintro s endA endB hsplice rfl hbreaks
    refine ⟨_, exec_segmentRetrained_inRing hsplice endA, ?_, ?_, ?_⟩
    · rw [(Chip.locks_tellMended ..).1, Chip.cwLock_cwTrained]
    · refine ((Chip.ringBroadcast_touch ..).geti_eq (by decide +kernel)).trans (Chip.noteMended_whole _ ?_).1
      rwa [Chip.ring_cwTrained]
    · rw [Chip.splice_tellMended, Chip.ring_cwTrained, hsplice]
  · rintro s endA endB hsplice rfl hB hcw
    refine ⟨_, exec_segmentRetrained_opening hsplice hB hcw, ?_, ?_⟩
    · exact (Chip.locks_tellMended ..).2.trans s.chip.locks_ccTrained.1
    · rw [Chip.splice_tellMended]
      rfl

/-- Settles O40, instruction by instruction. -/
theorem spliceAndBreaks : Obligations.SpliceAndBreaks :=
  ⟨says_ringState, says_spliceForce, says_spliceClose, says_segmentRetrained, says_nodeReady⟩

end Sys2Proof.Machine

/-!
SUPPORT. The statement on resets, rails and the reference clock (spec section 03).
-/

namespace Sys2Proof.Machine

set_option Elab.async false

/-! The power reset (R26): every component and register as at reset, the rail as measured. -/

theorem Fuses.le_refl (a : Fuses) : a.le a := fun _ => ⟨fun _ => id, fun _ => id, fun _ => id⟩

theorem settleCut_of_none {fu : Fuses} {c : Chip} (h : c.otp.cut = none) : settleCut fu c = (fu, c) := by
  simp only [settleCut, h]

theorem Chip.otpLost_of_idle {c : Chip} (hjob : c.otp.job = none) (hquench : c.otp.quenching = false) : c.otpLost = c := by
  simp [Chip.otpLost, hjob, hquench]

/-- What a power reset keeps: what the world has still to give and has been sent, the NOR device, and the measured rail. -/
def Chip.blank (c : Chip) : Chip := ({ free := c.free, tx := c.tx, mem := { nor := c.mem.nor } } : Chip).wr R.PWR_VIN (c.rd R.PWR_VIN)

theorem Chip.allReset_eq {c : Chip} {clear : Bool} (h : clear = true ∨ c.get F.DBG_NOIL_STATUS_FROZEN = 0) :
    c.allReset clear = (c.blank.put F.PWR_STATUS_VIN_OK (c.get F.PWR_STATUS_VIN_OK)).put F.PWR_STATUS_VIN_FUSE_OK (c.get F.PWR_STATUS_VIN_FUSE_OK) := by
  have hfrozen : (decide (c.get F.DBG_NOIL_STATUS_FROZEN = 1) && !clear) = false := by
    rcases h with h | h <;> simp [h]
  simp only [Chip.allReset, hfrozen]
  rfl

theorem Chip.rd_blank (c : Chip) (off : Nat) : c.blank.rd off = if off = R.PWR_VIN then c.rd R.PWR_VIN else regReset off := Chip.rd_wr ..

theorem Chip.rd_put_other (c : Chip) (f : Fld) (v off : Nat) (h : off ≠ f.off 0) : (c.put f v).rd off = c.rd off := by
  unfold Chip.put Chip.puti
  split
  · exact Chip.rd_wr_other _ _ _ _ h
  · rfl

/-- A power reset leaves the components it clears as a chip begins, and the registers at reset but for the rail's. -/
theorem Chip.allReset_clears {c : Chip} {clear : Bool} (h : clear = true ∨ c.get F.DBG_NOIL_STATUS_FROZEN = 0) :
    (c.allReset clear).mem = { nor := c.mem.nor } ∧ (c.allReset clear).otp = {} ∧ (c.allReset clear).cust = {} ∧ (c.allReset clear).cores = {} ∧
      (c.allReset clear).logs = {} ∧ (c.allReset clear).pins = {} ∧ (c.allReset clear).dbg = {} := by
  rw [Chip.allReset_eq h]
  have keeps (p : Part) : p.same c.blank ((c.blank.put F.PWR_STATUS_VIN_OK (c.get F.PWR_STATUS_VIN_OK)).put F.PWR_STATUS_VIN_FUSE_OK
      (c.get F.PWR_STATUS_VIN_FUSE_OK)) := Part.same_trans (Chip.put_same ..) (Chip.put_same ..)
  exact ⟨keeps .mem, keeps .otp, keeps .cust, keeps .cores, keeps .logs, keeps .pins, keeps .dbg⟩

theorem Chip.rd_allReset {c : Chip} {clear : Bool} (h : clear = true ∨ c.get F.DBG_NOIL_STATUS_FROZEN = 0) {off : Nat} (hoff : off ≠ R.PWR_STATUS) :
    (c.allReset clear).rd off = if off = R.PWR_VIN then c.rd R.PWR_VIN else regReset off := by
  rw [Chip.allReset_eq h, Chip.rd_put_other _ _ _ _ hoff, Chip.rd_put_other _ _ _ _ hoff, Chip.rd_blank]

theorem Chip.rail_allReset {c : Chip} {clear : Bool} (h : clear = true ∨ c.get F.DBG_NOIL_STATUS_FROZEN = 0) :
    (c.allReset clear).seq = .sense ∧ (c.allReset clear).get F.PWR_STATUS_VIN_OK = c.get F.PWR_STATUS_VIN_OK := by
  rw [Chip.allReset_eq h]
  constructor
  · rw [Chip.seq, Chip.get_put_other _ _ _ _ rfl rfl, Chip.get_put_other _ _ _ _ rfl rfl]
    have hreset : c.blank.rd R.PWR_STATUS = regReset R.PWR_STATUS := Chip.rd_blank c _
    change Seq.ofCode (wget _ _ (c.blank.rd R.PWR_STATUS)) = _
    rw [hreset]
    rfl
  · rw [Chip.get_put_other _ _ _ _ rfl rfl, Chip.get_put _ _ _ rfl Nat.one_pos]
    exact Nat.mod_eq_of_lt (c.geti_lt F.PWR_STATUS_VIN_OK 0)

theorem settleCut_otpLost_of_idle {c : Chip} (hjob : c.otp.job = none) (hquench : c.otp.quenching = false) (hcut : c.otp.cut = none) (fu : Fuses) :
    settleCut fu c.otpLost = (fu, c) := by
  rw [Chip.otpLost_of_idle hjob hquench, settleCut_of_none hcut]

theorem exec_porstNAssert_idle {s : State} (hjob : s.chip.otp.job = none) (hquench : s.chip.otp.quenching = false) (hcut : s.chip.otp.cut = none) :
    exec (.porstNAssert true) s = .next { s with fuses := s.fuses, chip := s.chip.allReset false } := by
  change Host.Outcome.next { s with fuses := (settleCut s.fuses s.chip.otpLost).1, chip := (settleCut s.fuses s.chip.otpLost).2.allReset false } = _
  rw [settleCut_otpLost_of_idle hjob hquench hcut]

theorem says_porstNAssert : Says.porstNAssert := by
  refine ⟨?_, ?_⟩
  · rintro s taken rfl
    exact ⟨_, _, rfl, Fuses.le_refl _, rfl⟩
  · rintro s taken rfl hjob hquench hcut hfrozen
    have h : false = true ∨ s.chip.get F.DBG_NOIL_STATUS_FROZEN = 0 := Or.inr hfrozen
    obtain ⟨hmem, hotp, hcust, hcores, hlogs, hpins, -⟩ := Chip.allReset_clears h
    obtain ⟨hseq, hok⟩ := Chip.rail_allReset h
    refine ⟨_, _, exec_porstNAssert_idle hjob hquench hcut, Fuses.le_refl _, fun off hvin hst => ?_, ?_, hseq, hok, hmem, hotp, hcust, hcores, hlogs,
      hpins, rfl⟩
    · rw [Chip.rd_allReset h hst, if_neg hvin]
    · rw [Chip.rd_allReset h (by decide), if_pos rfl]

theorem exec_brownOutReset_idle {s : State} (hjob : s.chip.otp.job = none) (hquench : s.chip.otp.quenching = false) (hcut : s.chip.otp.cut = none)
    (mv : Nat) :
    exec (.brownOutReset mv) s = .next { s with
      fuses := s.fuses
      chip := (((s.chip.allReset true).put F.PWR_STATUS_VIN_OK 0).put F.PWR_STATUS_VIN_FUSE_OK 0).put F.PWR_VIN_MV (min mv 1549) } := by
  change Host.Outcome.next { s with
    fuses := (settleCut s.fuses s.chip.otpLost).1
    chip := ((((settleCut s.fuses s.chip.otpLost).2.allReset true).put F.PWR_STATUS_VIN_OK 0).put F.PWR_STATUS_VIN_FUSE_OK 0).put F.PWR_VIN_MV
      (min mv 1549) } = _
  rw [settleCut_otpLost_of_idle hjob hquench hcut]

theorem says_brownOutReset : Says.brownOutReset := by
  intro s mv hjob hquench hcut
  have h : true = true ∨ s.chip.get F.DBG_NOIL_STATUS_FROZEN = 0 := Or.inl rfl
  obtain ⟨hmem, hotp, hcust, -, -, -, hdbg⟩ := Chip.allReset_clears h
  have keeps (p : Part) : p.same (s.chip.allReset true)
      ((((s.chip.allReset true).put F.PWR_STATUS_VIN_OK 0).put F.PWR_STATUS_VIN_FUSE_OK 0).put F.PWR_VIN_MV (min mv 1549)) :=
    Part.same_trans (Chip.put_same ..) (Part.same_trans (Chip.put_same ..) (Chip.put_same ..))
  have hmv : min mv 1549 < 2 ^ 16 := by omega
  refine ⟨_, _, exec_brownOutReset_idle hjob hquench hcut mv, Fuses.le_refl _, ?_, ?_, ?_, ?_, (keeps .mem).trans hmem,
    (congrArg Dbg.noil (keeps .dbg)).trans (congrArg Dbg.noil hdbg), (keeps .otp).trans hotp, (keeps .cust).trans hcust, rfl⟩
  · rw [Chip.get_put_other _ _ _ _ rfl rfl, Chip.get_put_other _ _ _ _ rfl rfl]
    exact Chip.get_put _ _ _ rfl Nat.one_pos
  · rw [Chip.get_put_other _ _ _ _ rfl rfl]
    exact Chip.get_put _ _ _ rfl Nat.one_pos
  · exact (Chip.get_put _ _ _ rfl Nat.one_pos).trans (Nat.mod_eq_of_lt hmv)
  · refine (congrArg Seq.ofCode ?_).trans (Chip.rail_allReset h).1
    rw [Chip.get_put_other _ _ _ _ rfl rfl, Chip.get_put_other _ _ _ _ rfl rfl, Chip.get_put_other _ _ _ _ rfl rfl]

/-! `PORST_N` high again (R27). -/

theorem Chip.pins_railIn (c : Chip) : c.railIn.pins = c.pins := (Chip.railIn_touch c).same .pins rfl

/-- The straps as `PORST_N` high samples them. -/
def Chip.strapped (c : Chip) (k : Nat) (side recoveryN : Bool) : Chip :=
  { c with pins := { c.pins with porstN := true, strapClass := k % 4, strapSide := side, recoveryN := recoveryN } }

theorem exec_porstNRise_low {s : State} (h : s.chip.pins.porstN = false) (k : Nat) (side recoveryN : Bool) :
    exec (.porstNRise k side recoveryN) s =
      .next (s.after (((s.chip.strapped k side recoveryN).railIn.put F.PWR_STATUS_VIN_OK 1).put F.GEN_BOOT_PHASE 0)) :=
  congrArg (fun c => Host.Outcome.next (s.after c)) (if_neg (ne_true_of_eq_false h))

theorem says_porstNRise : Says.porstNRise := by
  refine ⟨fun s k side r => exists_only_of_touch (execPorstNRise_touch (s := s) ..) (by decide +kernel) (by decide +kernel), ?_, ?_⟩
  · intro s k side r hlow
    have hpins : (((s.chip.strapped k side r).railIn.put F.PWR_STATUS_VIN_OK 1).put F.GEN_BOOT_PHASE 0).pins = (s.chip.strapped k side r).pins :=
      (Chip.put_same _ _ _ .pins).trans ((Chip.put_same _ _ _ .pins).trans (Chip.pins_railIn _))
    refine ⟨_, exec_porstNRise_low hlow k side r, ?_, ?_, ?_, ?_, ?_, ?_⟩
    · exact congrArg Pins.porstN hpins
    · exact congrArg Pins.strapClass hpins
    · exact congrArg Pins.strapSide hpins
    · exact congrArg Pins.recoveryN hpins
    · rw [Chip.get_put_other _ _ _ _ rfl rfl]
      exact Chip.get_put _ _ _ rfl Nat.one_pos
    · exact Chip.get_put _ _ _ rfl Nat.one_pos
  · intro s k side r hhigh
    exact ⟨_, congrArg (fun c => Host.Outcome.next (s.after c)) (if_pos hhigh), rfl⟩

/-! The rail measured anew (R53 to R55). -/

/-- The chip with a new reading of the rail: its value, and the two windows it is in. -/
def Chip.railRead (c : Chip) (mv : Nat) (fuse : Nat) : Chip :=
  ((c.put F.PWR_VIN_MV (min mv 0xFFFF)).put F.PWR_STATUS_VIN_OK (b2n (railOk mv))).put F.PWR_STATUS_VIN_FUSE_OK fuse

theorem Chip.railRead_same (c : Chip) (mv fuse : Nat) (p : Part) : p.same c (c.railRead mv fuse) :=
  Part.same_trans (Chip.put_same ..) (Part.same_trans (Chip.put_same ..) (Chip.put_same ..))

theorem Chip.get_railRead (c : Chip) (mv : Nat) {fuse : Nat} (hfuse : fuse < 2) :
    (c.railRead mv fuse).get F.PWR_STATUS_VIN_FUSE_OK = fuse ∧ (c.railRead mv fuse).get F.PWR_STATUS_VIN_OK = b2n (railOk mv) ∧
      (c.railRead mv fuse).get F.PWR_VIN_MV = min mv 0xFFFF ∧ (c.railRead mv fuse).seq = c.seq := by
  have hmv : min mv 0xFFFF < 2 ^ 16 := by omega
  refine ⟨?_, ?_, ?_, ?_⟩
  · rw [Chip.railRead, Chip.get_put _ _ _ rfl Nat.one_pos]
    exact Nat.mod_eq_of_lt hfuse
  · rw [Chip.railRead, Chip.get_put_other _ _ _ _ rfl rfl, Chip.get_put _ _ _ rfl Nat.one_pos]
    cases railOk mv <;> rfl
  · rw [Chip.railRead, Chip.get_put_other _ _ _ _ rfl rfl, Chip.get_put_other _ _ _ _ rfl rfl, Chip.get_put _ _ _ rfl Nat.one_pos]
    exact Nat.mod_eq_of_lt hmv
  · refine congrArg Seq.ofCode ?_
    rw [Chip.railRead, Chip.get_put_other _ _ _ _ rfl rfl, Chip.get_put_other _ _ _ _ rfl rfl, Chip.get_put_other _ _ _ _ rfl rfl]

theorem railOk_of_railFuseOk {mv : Nat} (h : railFuseOk mv = true) : railOk mv = true := by
  simp [railOk, railFuseOk] at h ⊢
  omega

theorem Chip.fuseRailFall_of_idle {c : Chip} (h : c.otp.job = none) : c.fuseRailFall = c.put F.PWR_STATUS_VIN_FUSE_OK 0 := by
  have hjob : (c.put F.PWR_STATUS_VIN_FUSE_OK 0).otp.job = none := (congrArg Otp.job (Chip.put_same c _ _ .otp)).trans h
  simp only [Chip.fuseRailFall, hjob]

theorem Chip.fuseRail_of_idle {c : Chip} {mv : Nat} (hjob : railFuseOk mv = true ∨ c.otp.job = none) :
    (if railFuseOk mv then c.put F.PWR_STATUS_VIN_FUSE_OK 1 else if c.pins.porstN then c.fuseRailFall else c.put F.PWR_STATUS_VIN_FUSE_OK 0) =
      c.put F.PWR_STATUS_VIN_FUSE_OK (b2n (railFuseOk mv)) := by
  cases hf : railFuseOk mv
  · rw [if_neg Bool.false_ne_true, Chip.fuseRailFall_of_idle (hjob.resolve_left (by simp [hf])), ite_self]
    rfl
  · rfl

/-- Does a reading end the operating window? -/
def Chip.railFalls (c : Chip) (mv : Nat) : Bool := c.get F.PWR_STATUS_VIN_OK = 1 && !railOk mv && c.pins.porstN

/-- A reading that interrupts no program: the rail's fields, and what the end of the operating window asks for. -/
theorem Chip.railTo_eq {c : Chip} {mv : Nat} (hjob : railFuseOk mv = true ∨ c.otp.job = none) :
    c.railTo mv =
      if c.railFalls mv then
        if c.seq = .shutdown then ((c.railRead mv (b2n (railFuseOk mv))).log 0x0304 uPWR (aCount mv 0 0 0), [])
        else (c.railRead mv (b2n (railFuseOk mv)), [(0x10, mv)])
      else (c.railRead mv (b2n (railFuseOk mv)), []) := by
  have hseq := (c.get_railRead mv (fuse := b2n (railFuseOk mv)) (by cases railFuseOk mv <;> decide)).2.2.2
  have hidle : railFuseOk mv = true ∨ ((c.put F.PWR_VIN_MV (min mv 0xFFFF)).put F.PWR_STATUS_VIN_OK (b2n (railOk mv))).otp.job = none :=
    hjob.imp_right (congrArg Otp.job (Part.same_trans (Chip.put_same ..) (Chip.put_same _ _ _ .otp))).trans
  unfold Chip.railTo
  simp only [Chip.fuseRail_of_idle hidle]
  rw [← hseq]
  rfl

theorem exec_vinOkFall_bad {s : State} {mv : Nat} (h : railOk mv = false) :
    exec (.vinOkFall mv) s = .next (s.cutAfter ((s.chip.railTo mv).1.each (s.chip.railTo mv).2 (fun c e => c.snagDecide [e]))) :=
  congrArg (fun c => Host.Outcome.next (s.cutAfter c)) (if_neg (ne_true_of_eq_false h))

theorem exec_vinFuseOkFall_bad {s : State} {mv : Nat} (h : railFuseOk mv = false) :
    exec (.vinFuseOkFall mv) s = .next (s.cutAfter ((s.chip.railTo mv).1.each (s.chip.railTo mv).2 (fun c e => c.snagDecide [e]))) :=
  congrArg (fun c => Host.Outcome.next (s.cutAfter c)) (if_neg (ne_true_of_eq_false h))

theorem railFuseOk_of_railOk {mv : Nat} (h : railOk mv = false) : railFuseOk mv = false := by
  cases hf : railFuseOk mv
  · rfl
  · rw [railOk_of_railFuseOk hf] at h
    cases h

theorem railOk_lt {mv : Nat} (h : railOk mv = true) : min mv 0xFFFF = mv := by
  simp [railOk] at h
  omega

theorem says_vinFuseOkFall : Says.vinFuseOkFall := by
  intro s mv hok hfuse hhigh hjob
  have hfalls : s.chip.railFalls mv = false := by simp [Chip.railFalls, hok]
  obtain ⟨hfuse', hok', hmv, -⟩ := s.chip.get_railRead mv (fuse := 0) (by decide)
  refine ⟨_, exec_vinFuseOkFall_bad hfuse, ?_⟩
  rw [Chip.railTo_eq (Or.inr hjob), hfalls, hfuse]
  refine ⟨hfuse', hok'.trans (by rw [hok]; rfl), hmv.trans (railOk_lt hok), Chip.railRead_same _ _ _ .logs, Chip.railRead_same _ _ _ .otp⟩

theorem exec_vinFuseOkRise_good {s : State} {mv : Nat} (h : railFuseOk mv = true) :
    exec (.vinFuseOkRise mv) s = .next (s.after ((s.chip.railTo mv).1.aon (fun c => c.quenchFill s.fuses))) :=
  congrArg (fun c => Host.Outcome.next (s.after c)) (if_pos h)

theorem Chip.get_quenchFill (c : Chip) (fu : Fuses) (f : Fld) : (c.quenchFill fu).get f = c.get f :=
  (Chip.quenchFill_touch c fu).geti_eq (by simp [spares])

theorem Chip.get_aon_quenchFill (c : Chip) (fu : Fuses) (f : Fld) : (c.aon (fun d => d.quenchFill fu)).get f = c.get f := by
  unfold Chip.aon
  split
  · exact Chip.get_quenchFill c fu f
  · rfl

theorem Chip.aon_quenchFill_of_unquenched {c : Chip} (h : c.otp.quenched = false) (fu : Fuses) : c.aon (fun d => d.quenchFill fu) = c := by
  simp [Chip.aon, Chip.quenchFill, h]

theorem says_vinFuseOkRise : Says.vinFuseOkRise := by
  refine ⟨fun s mv => exists_only_of_touch (execVinFuseOkRise_touch (s := s) ..) (by decide +kernel) (by decide +kernel), ?_⟩
  intro s mv hfuse
  have hok := railOk_of_railFuseOk hfuse
  have hfalls : s.chip.railFalls mv = false := by simp [Chip.railFalls, hok]
  obtain ⟨hfuse', hok', hmv, -⟩ := s.chip.get_railRead mv (fuse := 1) (by decide)
  have hotp : (s.chip.railRead mv 1).otp = s.chip.otp := Chip.railRead_same _ _ _ .otp
  refine ⟨_, exec_vinFuseOkRise_good hfuse, ?_⟩
  rw [Chip.railTo_eq (Or.inl hfuse), hfalls, hfuse]
  change ((s.chip.railRead mv 1).aon _).get _ = 1 ∧ ((s.chip.railRead mv 1).aon _).get _ = 1 ∧ ((s.chip.railRead mv 1).aon _).get _ = mv ∧
    (_ → ((s.chip.railRead mv 1).aon _).otp = _)
  have keeps (f : Fld) : ((s.chip.railRead mv 1).aon (fun d => d.quenchFill s.fuses)).get f = (s.chip.railRead mv 1).get f :=
    Chip.get_aon_quenchFill ..
  refine ⟨(keeps _).trans hfuse', (keeps _).trans (hok'.trans (by rw [hok]; rfl)), (keeps _).trans (hmv.trans (railOk_lt hok)), fun hq => ?_⟩
  rw [Chip.aon_quenchFill_of_unquenched (hotp ▸ hq), hotp]

/-! The reference clock (R50 to R52), and the reservoir (R56). -/

theorem Chip.aon_of_high {c : Chip} (h : c.pins.porstN = true) (f : Chip → Chip) : c.aon f = f c := if_pos h

/-- The chip on the RC oscillator, its Whorl unaligned. -/
def Chip.onRc (c : Chip) : Chip := ((c.put F.PWR_STATUS_REF_LOST 1).put F.PWR_STATUS_ON_RC 1).whlUnaligned

theorem Chip.get_onRc (c : Chip) :
    c.onRc.get F.PWR_STATUS_REF_LOST = 1 ∧ c.onRc.get F.PWR_STATUS_ON_RC = 1 ∧ c.onRc.get F.WHL_STATUS_ALIGN = 0 ∧ c.onRc.seq = c.seq := by
  have keeps (f : Fld) (hf : f.off 0 = 0x1004) : c.onRc.get f = ((c.put F.PWR_STATUS_REF_LOST 1).put F.PWR_STATUS_ON_RC 1).get f :=
    (Chip.whlUnaligned_touch _).geti_eq (by rw [hf]; decide +kernel)
  refine ⟨(keeps _ rfl).trans ?_, (keeps _ rfl).trans (Chip.get_put _ _ _ rfl Nat.one_pos), Chip.get_put _ _ _ rfl Nat.one_pos,
    congrArg Seq.ofCode ((keeps _ rfl).trans ?_)⟩
  · rw [Chip.get_put_other _ _ _ _ rfl rfl]
    exact Chip.get_put _ _ _ rfl Nat.one_pos
  · rw [Chip.get_put_other _ _ _ _ rfl rfl, Chip.get_put_other _ _ _ _ rfl rfl]

theorem exec_refclkLost_off {s : State} (hhigh : s.chip.pins.porstN = true) (hpresent : s.chip.get F.PWR_STATUS_REF_LOST = 0)
    (hoff : s.chip.seq.svcOn = false) : exec .refclkLost s = .next (s.cutAfter (s.chip.onRc.log 0x1302 uPWR [])) := by
  refine congrArg (fun c => Host.Outcome.next (s.cutAfter c)) ((Chip.aon_of_high hhigh _).trans ((if_neg (by simp [hpresent])).trans (if_neg ?_)))
  exact ne_true_of_eq_false ((congrArg Seq.svcOn s.chip.get_onRc.2.2.2).trans hoff)

theorem says_refclkLost : Says.refclkLost := by
  intro s hhigh hpresent hsense
  obtain ⟨hlost, hrc, halign, hseq⟩ := s.chip.get_onRc
  have hlog := Chip.log_touch s.chip.onRc 0x1302 uPWR []
  refine ⟨_, exec_refclkLost_off hhigh hpresent (by rw [hsense]; rfl), (hlog.geti_eq (by decide +kernel)).trans hlost,
    (hlog.geti_eq (by decide +kernel)).trans hrc, (hlog.geti_eq (by decide +kernel)).trans halign, ?_⟩
  exact (congrArg Seq.ofCode (hlog.geti_eq (by decide +kernel))).trans (hseq.trans hsense)

/-- The chip back on the reference clock, a master aligned again. -/
def Chip.onRef (c : Chip) : Chip :=
  let d := (c.put F.PWR_STATUS_REF_LOST 0).put F.PWR_STATUS_ON_RC 0
  if d.get F.WHL_STATUS_IS_MASTER = 1 then d.put F.WHL_STATUS_ALIGN 2 else d

theorem Chip.get_onRef (c : Chip) :
    c.onRef.get F.PWR_STATUS_REF_LOST = 0 ∧ c.onRef.get F.PWR_STATUS_ON_RC = 0 ∧
      (c.get F.WHL_STATUS_IS_MASTER = 1 → c.onRef.get F.WHL_STATUS_ALIGN = 2) ∧ c.onRef.seq = c.seq := by
  have hmaster : ((c.put F.PWR_STATUS_REF_LOST 0).put F.PWR_STATUS_ON_RC 0).get F.WHL_STATUS_IS_MASTER = c.get F.WHL_STATUS_IS_MASTER := by
    rw [Chip.get_put_other _ _ _ _ rfl rfl, Chip.get_put_other _ _ _ _ rfl rfl]
  have keeps (f : Fld) (hok : f.ok = true) (hf : f.apart F.WHL_STATUS_ALIGN 0 0 = true) :
      c.onRef.get f = ((c.put F.PWR_STATUS_REF_LOST 0).put F.PWR_STATUS_ON_RC 0).get f := by
    simp only [Chip.onRef]
    split
    · exact Chip.get_put_other _ _ _ _ hok hf
    · rfl
  refine ⟨(keeps _ rfl rfl).trans ?_, (keeps _ rfl rfl).trans (Chip.get_put _ _ _ rfl Nat.one_pos), fun h => ?_,
    congrArg Seq.ofCode ((keeps _ rfl rfl).trans ?_)⟩
  · rw [Chip.get_put_other _ _ _ _ rfl rfl]
    exact Chip.get_put _ _ _ rfl Nat.one_pos
  · rw [Chip.onRef, if_pos (hmaster.trans h)]
    exact Chip.get_put _ _ _ rfl Nat.one_pos
  · rw [Chip.get_put_other _ _ _ _ rfl rfl, Chip.get_put_other _ _ _ _ rfl rfl]

theorem exec_refclkPresentAgain_lost {s : State} (hhigh : s.chip.pins.porstN = true) (hlost : s.chip.get F.PWR_STATUS_REF_LOST = 1) :
    exec .refclkPresentAgain s = .next (s.after (s.chip.onRef.log 0x1303 uPWR []).tryWake) :=
  congrArg (fun c => Host.Outcome.next (s.after c)) ((Chip.aon_of_high hhigh _).trans (if_neg (by simp [hlost])))

theorem Chip.tryWake_awake {c : Chip} (h : c.seq ≠ .sleep) : c.tryWake = c := by simp [Chip.tryWake, h]

theorem says_refclkPresentAgain : Says.refclkPresentAgain := by
  refine ⟨fun s => exists_only_of_touch (execRefclkPresentAgain_touch s) (by decide +kernel) (by decide +kernel), ?_⟩
  intro s hhigh hlost hawake
  obtain ⟨href, hrc, halign, hseq⟩ := s.chip.get_onRef
  have hlog := Chip.log_touch s.chip.onRef 0x1303 uPWR []
  have hseq' : (s.chip.onRef.log 0x1303 uPWR []).seq = s.chip.seq := (congrArg Seq.ofCode (hlog.geti_eq (by decide +kernel))).trans hseq
  refine ⟨_, exec_refclkPresentAgain_lost hhigh hlost, ?_⟩
  rw [Chip.tryWake_awake (hseq' ▸ hawake)]
  exact ⟨(hlog.geti_eq (by decide +kernel)).trans href, (hlog.geti_eq (by decide +kernel)).trans hrc,
    fun h => (hlog.geti_eq (by decide +kernel)).trans (halign h), hseq'⟩

theorem exec_rsvReady_unasked {s : State} (hhigh : s.chip.pins.porstN = true) (hreq : s.chip.get F.SNG_STATUS_QUENCH_REQ = 0) :
    exec .rsvReady s = .next (s.cutAfter (s.chip.put F.PWR_STATUS_RSV_READY 1)) := by
  have hreq' : (s.chip.put F.PWR_STATUS_RSV_READY 1).get F.SNG_STATUS_QUENCH_REQ = 0 := (Chip.get_put_other _ _ _ _ rfl rfl).trans hreq
  exact congrArg (fun c => Host.Outcome.next (s.cutAfter c)) ((Chip.aon_of_high hhigh _).trans (if_neg (by simp [hreq'])))

theorem says_rsvReady : Says.rsvReady := by
  refine ⟨fun s => exists_only_of_touch (execRsvReady_touch s) (by decide +kernel) (by decide +kernel), ?_⟩
  intro s hhigh hreq
  exact ⟨_, exec_rsvReady_unasked hhigh hreq, Chip.get_put _ _ _ rfl Nat.one_pos, Chip.put_same _ _ _ .otp⟩

/-! HELD (R59, R497): what a snag's answer leaves. -/

/-- The registers that say where the sequencer is, how the rail stands and what has snagged. -/
def railFlds : List Fld := [F.PWR_STATUS_SEQ_STATE, F.PWR_STATUS_VIN_OK, F.PWR_STATUS_VIN_FUSE_OK, F.PWR_VIN_MV, F.SNG_CAUSE_BITS]

theorem Touch.rail {pm bm : Nat} {c d : Chip} (h : Touch pm bm c d) (hs : railFlds.all (fun f => spares bm (f.off 0)) = true) {f : Fld}
    (hf : f ∈ railFlds) : d.get f = c.get f :=
  h.geti_eq (List.all_eq_true.mp hs f hf)

theorem Chip.rail_put (c : Chip) {g : Fld} (v : Nat) (hg : railFlds.all (fun f => f.ok && f.apart g 0 0) = true) {f : Fld} (hf : f ∈ railFlds) :
    (c.put g v).get f = c.get f := by
  have h := List.all_eq_true.mp hg f hf
  rw [Bool.and_eq_true] at h
  exact Chip.get_put_other _ _ _ _ h.1 h.2

/-- The Service domain's pages lie outside those of PWR, OTP, LCS and SNG. -/
theorem Chip.rd_svcPages (c : Chip) {off : Nat} (hlo : 0x1000 ≤ off) (hhi : off < 0x5000) : c.svcPages.rd off = c.rd off := by
  have hoff : off ≠ R.DBG_NOIL_STATUS ∧ off ≠ R.MBN_GEN ∧ off ≠ R.WHL_TIME_HI := by
    simp only [R.DBG_NOIL_STATUS, R.MBN_GEN, R.WHL_TIME_HI]
    omega
  simp only [Chip.svcPages, Chip.each, List.map_cons, List.map_nil, List.foldl_cons, List.foldl_nil]
  rw [Chip.rd_wr_other _ _ _ _ hoff.2.2, Chip.rd_wr_other _ _ _ _ hoff.2.1, Chip.rd_wr_other _ _ _ _ hoff.1, Chip.rd_resetRegs, if_neg (by omega),
    Chip.rd_resetRegs, if_neg (by omega), Chip.rd_resetRegs, if_neg (by omega)]

theorem railFlds_off {f : Fld} (hf : f ∈ railFlds) : 0x1000 ≤ f.off 0 ∧ f.off 0 < 0x5000 := by
  have h : railFlds.all (fun f => decide (0x1000 ≤ f.off 0 ∧ f.off 0 < 0x5000)) = true := rfl
  exact of_decide_eq_true (List.all_eq_true.mp h f hf)

theorem Chip.rail_svcPages (c : Chip) {f : Fld} (hf : f ∈ railFlds) : c.svcPages.get f = c.get f :=
  congrArg (wget f.hi f.lo) (Chip.rd_svcPages c (railFlds_off hf).1 (railFlds_off hf).2)

theorem Chip.rail_svcLost (c : Chip) {f : Fld} (hf : f ∈ railFlds) : c.svcLost.get f = c.get f := by
  have htear : Touch 0x7ffffff 0x0 c c.spliceDrop.jTear.updTear := by
    refine Touch.step (Chip.updTear_touch _) (by decide +kernel) (by decide +kernel) ?_
    refine Touch.step (Chip.jTear_touch _) (by decide +kernel) (by decide +kernel) ?_
    exact Touch.step (Chip.spliceDrop_touch _) (by decide +kernel) (by decide +kernel) Touch.refl
  have hpages : c.spliceDrop.jTear.updTear.svcPages.get f = c.get f := (Chip.rail_svcPages _ hf).trans (htear.rail (by decide +kernel) hf)
  simp only [Chip.svcLost]
  rw [Chip.rail_put _ _ (by decide +kernel) hf, Chip.rail_put _ _ (by decide +kernel) hf, Chip.rail_put _ _ (by decide +kernel) hf,
    Chip.rail_put _ _ (by decide +kernel) hf, ← hpages]
  split
  · exact Chip.rail_put _ _ (by decide +kernel) hf
  · rfl

/-- The loss of the Service domain clears what Custody, the cores, the hanks, Crypto and SPDM hold. -/
theorem Chip.svcLost_clears (c : Chip) :
    c.svcLost.cust = {} ∧ c.svcLost.cores = {} ∧ c.svcLost.hanks = {} ∧ c.svcLost.cry = {} ∧ c.svcLost.spdm = {} := by
  have keeps (e : Chip) (p : Part) : p.same e ((((e.put F.LCS_ROOTS_SELECTED 0).put F.PWR_STATUS_CRY_PLL_LOCK 0).put F.PWR_STATUS_SVC_PLL_LOCK 0).put
      F.PWR_GRP_STATUS_STATE 0) :=
    Part.same_trans (Part.same_trans (Chip.put_same ..) (Chip.put_same ..)) (Part.same_trans (Chip.put_same ..) (Chip.put_same ..))
  exact ⟨keeps _ .cust, keeps _ .cores, keeps _ .hanks, keeps _ .cry, keeps _ .spdm⟩

/-- What announces a sequencer state changes no register of the rail. -/
theorem Chip.setSeq_touch_put (c : Chip) (q : Seq) :
    Touch 0x108 0x180000000000000000000000000000000000000000000000000000000004 (c.put F.PWR_STATUS_SEQ_STATE q.code) (c.setSeq q) :=
  Touch.step (Chip.trace_touch ..) (by decide +kernel) (by decide +kernel)
    (Touch.step (Chip.noilTrans_touch ..) (by decide +kernel) (by decide +kernel) Touch.refl)

theorem Seq.ofCode_code (q : Seq) : Seq.ofCode (q.code % 16) = q := by cases q <;> rfl

theorem Chip.seq_setSeq (c : Chip) (q : Seq) : (c.setSeq q).seq = q := by
  have hput : (c.put F.PWR_STATUS_SEQ_STATE q.code).get F.PWR_STATUS_SEQ_STATE = q.code % 16 := Chip.get_put _ _ _ rfl Nat.one_pos
  rw [Chip.seq, (Chip.setSeq_touch_put c q).rail (by decide +kernel) (by decide), hput, Seq.ofCode_code]

theorem Chip.rail_setSeq (c : Chip) (q : Seq) {f : Fld} (hf : f ∈ railFlds.tail) : (c.setSeq q).get f = c.get f := by
  have h := List.all_eq_true.mp (by decide : railFlds.tail.all (fun f => f.ok && f.apart F.PWR_STATUS_SEQ_STATE 0 0) = true) f hf
  rw [Bool.and_eq_true] at h
  rw [(Chip.setSeq_touch_put c q).rail (by decide +kernel) (List.mem_of_mem_tail hf)]
  exact Chip.get_put_other _ _ _ _ h.1 h.2

theorem Chip.rail_freezeNoil (c : Chip) (cause : Nat) {f : Fld} (hf : f ∈ railFlds) : (c.freezeNoil cause).get f = c.get f :=
  (Chip.freezeNoil_touch c cause).rail (by decide +kernel) hf

theorem Chip.enterHeld_eq {c : Chip} (h : c.seq ≠ .held) (cause : Nat) :
    c.enterHeld cause = (((((c.setSeq .held).freezeNoil cause).svcLost).put F.GEN_BOOT_PHASE 0xF0).bootTime) := if_neg h

theorem Chip.rail_put_bootTime (c : Chip) {f : Fld} (hf : f ∈ railFlds) : ((c.put F.GEN_BOOT_PHASE 0xF0).bootTime).get f = c.get f :=
  ((Chip.bootTime_touch _).rail (by decide +kernel) hf).trans (Chip.rail_put _ _ (by decide +kernel) hf)

theorem Chip.rail_enterHeld {c : Chip} (h : c.seq ≠ .held) (cause : Nat) {f : Fld} (hf : f ∈ railFlds.tail) :
    (c.enterHeld cause).get f = c.get f := by
  have hf' := List.mem_of_mem_tail hf
  rw [Chip.enterHeld_eq h, Chip.rail_put_bootTime _ hf', Chip.rail_svcLost _ hf', Chip.rail_freezeNoil _ _ hf', Chip.rail_setSeq _ _ hf]

/-- HELD entered, nothing the Service domain held is there any more. -/
theorem Chip.gone_enterHeld {c : Chip} (h : c.seq ≠ .held) (cause : Nat) : (c.enterHeld cause).gone = true := by
  have hseq : (c.enterHeld cause).seq = .held := by
    rw [Chip.enterHeld_eq h, Chip.seq, Chip.rail_put_bootTime _ (by decide), Chip.rail_svcLost _ (by decide), Chip.rail_freezeNoil _ _ (by decide)]
    exact Chip.seq_setSeq c .held
  have hphase : (c.enterHeld cause).phase = 0xF0 := by
    rw [Chip.enterHeld_eq h]
    exact ((Chip.bootTime_touch _).geti_eq (by decide +kernel)).trans (Chip.get_put _ _ _ rfl Nat.one_pos)
  obtain ⟨hcust, hcores, hhanks, hcry, hspdm⟩ := Chip.svcLost_clears ((c.setSeq .held).freezeNoil cause)
  have keeps (d : Chip) (p : Part) : p.same d ((d.put F.GEN_BOOT_PHASE 0xF0).bootTime) := Part.same_trans (Chip.put_same ..) (Chip.put_same ..)
  rw [Chip.gone, hseq, hphase, Chip.enterHeld_eq h, (keeps _ .cust).trans hcust, (keeps _ .cores).trans hcores, (keeps _ .hanks).trans hhanks,
    (keeps _ .cry).trans hcry, (keeps _ .spdm).trans hspdm]
  rfl

/-! A class B cause in SERVICE (R497). -/

/-- The chip with a cause's bit set. -/
def Chip.caused (c : Chip) (k : Nat) : Chip := c.put F.SNG_CAUSE_BITS (withBit (c.get F.SNG_CAUSE_BITS) (causeBit k) true)

/-- A class B cause counted, before its record. -/
def Chip.snagBCounted (c : Chip) (k : Nat) : Chip := ((c.caused k).since 2).snagLast k (c.caused k).snagFlags 2

def Chip.snagBArgs (c : Chip) (k mv : Nat) : List Byte := (c.snagBCounted k).snagArgs 0x4002 k (c.caused k).snagFlags mv

theorem Chip.snagDecide_classB {c : Chip} {k : Nat} (hk : causeClass k = 2) (hq : c.seq.quiet = false) (mv : Nat) :
    c.snagDecide [(k, mv)] =
      ((c.snagBCounted k).log 0x4002 uSNG (c.snagBArgs k mv)).snagAnswer 2 ((c.snagBCounted k).evRec 0x4002 uSNG (c.snagBArgs k mv)) := by
  simp [Chip.snagDecide, hk, hq, Chip.snagBCounted, Chip.snagBArgs, Chip.caused]

/-- Counting, recording and answering a cause change no register of the rail, up to HELD. -/
theorem Chip.snagBCounted_touch (c : Chip) (k : Nat) : Touch 0x180 0x2400000000000 (c.caused k) (c.snagBCounted k) :=
  Touch.step (Chip.snagLast_touch ..) (by decide +kernel) (by decide +kernel)
    (Touch.step (Chip.since_touch ..) (by decide +kernel) (by decide +kernel) Touch.refl)

/-- What precedes HELD in the answer of class B: zeroization, the outputs and the record to write. -/
def Chip.snagBOut (c : Chip) (rec : EvRec) : Chip :=
  let armed := c.get F.SNG_STATUS_ARMED = 1 && c.seq.svcOn
  let d := ((c.when armed Chip.zeroize).driveOut .pulse).put F.SNG_STATUS_HELD_B 1
  if armed then { d with sng := { d.sng with writer := some rec } } else d

theorem Chip.snagAnswer_two (c : Chip) (rec : EvRec) : c.snagAnswer 2 rec = (c.snagBOut rec).enterHeld 1 := rfl

theorem Chip.snagBOut_touch (c : Chip) (rec : EvRec) :
    Touch 0x167dbbc 0x84000180000000001d0080001830400008100000000000000000010c402000004 c (c.snagBOut rec) := by
  have hzero : Touch 0x167dbbc 0x84000180000000001d0080001830400008100000000000000000010c402000004 c
      (((c.when (decide (c.get F.SNG_STATUS_ARMED = 1) && c.seq.svcOn) Chip.zeroize).driveOut .pulse).put F.SNG_STATUS_HELD_B 1) := by
    refine Touch.put (by decide +kernel) (Touch.step (Chip.driveOut_touch ..) (by decide +kernel) (by decide +kernel) ?_)
    exact Touch.when (fun d hd => Touch.step (Chip.zeroize_touch d) (by decide +kernel) (by decide +kernel) hd) Touch.refl
  simp only [Chip.snagBOut]
  split
  · refine hzero.trans (Touch.upd (fun p => ?_) Touch.refl)
    cases p with
    | sng => exact Or.inl rfl
    | _ => exact Or.inr rfl
  · exact hzero

/-- A class B cause, up to HELD. -/
def Chip.snagBEnds (c : Chip) (k mv : Nat) : Chip :=
  ((c.snagBCounted k).log 0x4002 uSNG (c.snagBArgs k mv)).snagBOut ((c.snagBCounted k).evRec 0x4002 uSNG (c.snagBArgs k mv))

theorem Chip.rail_snagBEnds (c : Chip) (k mv : Nat) {f : Fld} (hf : f ∈ railFlds) : (c.snagBEnds k mv).get f = (c.caused k).get f := by
  rw [Chip.snagBEnds, (Chip.snagBOut_touch ..).rail (by decide +kernel) hf, (Chip.log_touch ..).rail (by decide +kernel) hf,
    (Chip.snagBCounted_touch ..).rail (by decide +kernel) hf]

theorem Chip.rail_caused (c : Chip) (k : Nat) {f : Fld} (hf : f ∈ railFlds.dropLast) : (c.caused k).get f = c.get f := by
  have h := List.all_eq_true.mp (by decide : railFlds.dropLast.all (fun f => f.ok && f.apart F.SNG_CAUSE_BITS 0 0) = true) f hf
  rw [Bool.and_eq_true] at h
  exact Chip.get_put_other _ _ _ _ h.1 h.2

theorem Chip.seq_snagBEnds (c : Chip) (k mv : Nat) : (c.snagBEnds k mv).seq = c.seq :=
  congrArg Seq.ofCode ((Chip.rail_snagBEnds c k mv (by decide)).trans (Chip.rail_caused c k (by decide)))

/-- In SERVICE a class B cause ends in HELD, with its bit set and the rail as it stands. -/
theorem Chip.snagDecide_service {c : Chip} {k : Nat} (hk : causeClass k = 2) (hbit : causeBit k < 22) (hsvc : c.seq = .service) (mv : Nat) :
    c.snagDecide [(k, mv)] = (c.snagBEnds k mv).enterHeld 1 ∧ (c.snagDecide [(k, mv)]).gone = true ∧
      bit ((c.snagDecide [(k, mv)]).get F.SNG_CAUSE_BITS) (causeBit k) = true := by
  have heq : c.snagDecide [(k, mv)] = (c.snagBEnds k mv).enterHeld 1 := by
    rw [Chip.snagDecide_classB hk (by rw [hsvc]; rfl), Chip.snagAnswer_two, Chip.snagBEnds]
  have hheld : (c.snagBEnds k mv).seq ≠ .held := by
    rw [Chip.seq_snagBEnds, hsvc]
    decide
  refine ⟨heq, ?_, ?_⟩
  · rw [heq]
    exact Chip.gone_enterHeld hheld 1
  · rw [heq, Chip.rail_enterHeld hheld 1 (by decide), Chip.rail_snagBEnds _ _ _ (by decide)]
    exact (Chip.bit_get_put_withBit c rfl Nat.one_pos hbit true _).trans (if_pos rfl)

theorem Chip.rail_snagDecide_service {c : Chip} {k : Nat} (hk : causeClass k = 2) (hbit : causeBit k < 22) (hsvc : c.seq = .service) (mv : Nat)
    {f : Fld} (hf : f ∈ railFlds.dropLast.tail) : (c.snagDecide [(k, mv)]).get f = c.get f := by
  have hheld : (c.snagBEnds k mv).seq ≠ .held := by
    rw [Chip.seq_snagBEnds, hsvc]
    decide
  have hf' : f ∈ railFlds.dropLast := List.mem_of_mem_tail hf
  have htail : railFlds.dropLast.tail.all (fun f => decide (f ∈ railFlds.tail)) = true := by decide
  rw [(Chip.snagDecide_service hk hbit hsvc mv).1, Chip.rail_enterHeld hheld 1 (of_decide_eq_true (List.all_eq_true.mp htail f hf)),
    Chip.rail_snagBEnds _ _ _ (List.dropLast_subset _ hf'), Chip.rail_caused _ _ hf']

theorem says_clockGlitch : Says.clockGlitch := by
  refine ⟨?_, ?_⟩
  · intro s hlow
    exact ⟨_, congrArg (fun c => Host.Outcome.next (s.cutAfter c)) (if_neg (ne_true_of_eq_false hlow)), rfl⟩
  · intro s hhigh hsvc
    obtain ⟨-, hgone, hbit⟩ := Chip.snagDecide_service (k := 0x11) rfl (by decide) hsvc 0
    exact ⟨_, congrArg (fun c => Host.Outcome.next (s.cutAfter c)) (Chip.aon_of_high hhigh _), hbit, hgone⟩

/-! The operating window ended (R53, R54). -/

theorem Logs.getLast_aonPush (l : Logs) (r : EvRec) : (l.aonPush r).aon.getLast? = some r := by
  unfold Logs.aonPush
  split <;> simp

theorem Chip.logs_logRec_down {c : Chip} (h : c.svcUp = false) (r : EvRec) : (c.logRec r).logs = c.logs.aonPush r := by
  simp only [Chip.logRec, h, Bool.false_and, Bool.false_eq_true, if_false]
  exact ((Chip.countEvent_touch ..).same .logs rfl).trans (((Chip.noil_touch ..).same .logs rfl).trans ((Chip.sumBit_touch ..).same .logs rfl))

/-- No trace record is lost with the Service domain down. -/
theorem Chip.traceOffer_down {c : Chip} (h : c.svcUp = false) (t kind arg0 : Nat) (data : List Byte) : c.traceOffer t kind arg0 data = (c, false) := by
  simp [Chip.traceOffer, h]

/-- No trigger is set on the class of a note. -/
theorem Chip.fireEvent_note (c : Chip) (unit : Nat) {code : Nat} (h : code < 0x1000) : c.fireEvent unit code = c := by
  refine Chip.each_keeps (g := id) (fun d t => ?_) c
  have hcls : code / 0x1000 = 0 := by omega
  simp only [hcls, id]
  rw [if_neg]
  simp
  omega

/-- A note with the Service domain down is the newest record of the always-on log. -/
theorem Chip.lastAon_log_down {c : Chip} (h : c.svcUp = false) (code unit : Nat) (args : List Byte) (hcode : code < 0x1000) :
    (c.log code unit args).lastAon = some code := by
  have hdown : (c.logRec (c.evRec code unit args)).svcUp = false := by
    rw [← h, Chip.svcUp, Chip.svcUp, Chip.seq, Chip.seq, (Chip.logRec_touch ..).rail (by decide +kernel) (by decide)]
  simp only [Chip.log, Chip.traceEvent, Chip.traceOffer_down hdown, Bool.false_eq_true, if_false, Chip.fireEvent_note _ _ hcode, Chip.lastAon,
    Chip.logs_logRec_down h, Logs.getLast_aonPush]
  rfl

theorem says_vinOkFall : Says.vinOkFall := by
  refine ⟨?_, ?_, ?_⟩
  all_goals
    intro s mv hbad
    have hfuse := railFuseOk_of_railOk hbad
    obtain ⟨hfuse', hok', hmv, hseq⟩ := s.chip.get_railRead mv (fuse := 0) (by decide)
    rw [hbad] at hok'
  · intro hjob hdown
    have hfalls : s.chip.railFalls mv = false := by simp [Chip.railFalls, hdown]
    refine ⟨_, exec_vinOkFall_bad hbad, ?_⟩
    rw [Chip.railTo_eq (Or.inr hjob), hfalls, hfuse]
    exact ⟨hok', hmv, Chip.railRead_same _ _ _ .logs, Chip.railRead_same _ _ _ .cust, hseq⟩
  all_goals
    intro hhigh hjob hup hst
    have hfalls : s.chip.railFalls mv = true := by simp [Chip.railFalls, hup, hbad, hhigh]
    refine ⟨_, exec_vinOkFall_bad hbad, ?_⟩
    rw [Chip.railTo_eq (Or.inr hjob), hfalls, hfuse, hst]
  · have hlog := Chip.log_touch (s.chip.railRead mv 0) 0x0304 uPWR (aCount mv 0 0 0)
    have hdown : (s.chip.railRead mv 0).svcUp = false := by
      rw [Chip.svcUp, hseq, hst]
      rfl
    exact ⟨(hlog.rail (by decide +kernel) (by decide)).trans hok', (hlog.rail (by decide +kernel) (by decide)).trans hfuse',
      (hlog.rail (by decide +kernel) (by decide)).trans hmv, (congrArg Seq.ofCode (hlog.rail (by decide +kernel) (by decide))).trans (hseq.trans hst),
      Chip.lastAon_log_down hdown _ _ _ (by decide)⟩
  · have hsvc := hseq.trans hst
    obtain ⟨-, hgone, hbit⟩ := Chip.snagDecide_service (k := 0x10) rfl (by decide) hsvc mv
    have keeps {f : Fld} (hf : f ∈ railFlds.dropLast.tail) := Chip.rail_snagDecide_service (k := 0x10) rfl (by decide) hsvc mv hf
    exact ⟨(keeps (by decide)).trans hok', (keeps (by decide)).trans hfuse', (keeps (by decide)).trans hmv, hbit, hgone⟩

/-! A SYSRST_N pulse (R26, R59, R65). -/

/-- A pulse as taken: RECOVERY_N is sampled and the Noil rings freeze. -/
def Chip.pulsed (c : Chip) (recoveryN : Bool) : Chip := Chip.freezeNoil { c with pins := { c.pins with recoveryN := recoveryN } } 2

theorem Chip.seq_pulsed (c : Chip) (recoveryN : Bool) : (c.pulsed recoveryN).seq = c.seq :=
  congrArg Seq.ofCode (Chip.rail_freezeNoil _ 2 (by decide))

theorem Chip.pins_pulsed (c : Chip) (recoveryN : Bool) : (c.pulsed recoveryN).pins = { c.pins with recoveryN := recoveryN } :=
  (Chip.freezeNoil_touch _ 2).same .pins rfl

theorem exec_sysrstNPulse_untaken {s : State} {taken : Bool} (h : taken = false ∨ s.chip.pins.porstN = false) (recoveryN : Bool) :
    exec (.sysrstNPulse taken recoveryN) s = .next (s.cutAfter s.chip) := by
  refine congrArg (fun c => Host.Outcome.next (s.cutAfter c)) ?_
  rcases h with rfl | h <;> simp [Chip.aon, *]

theorem exec_sysrstNPulse_sleepEntry {s : State} (hhigh : s.chip.pins.porstN = true) (hseq : s.chip.seq = .sleepEntry) (recoveryN : Bool) :
    exec (.sysrstNPulse true recoveryN) s = .next (s.cutAfter
      (Chip.put { s.chip.pulsed recoveryN with pwr := { (s.chip.pulsed recoveryN).pwr with latched := true } } F.PWR_WAKE_CAUSE_RESET 1)) := by
  have hseq' := (s.chip.seq_pulsed recoveryN).trans hseq
  unfold Chip.pulsed at hseq'
  refine congrArg (fun c => Host.Outcome.next (s.cutAfter c)) ((Chip.aon_of_high hhigh _).trans ?_)
  simp [hseq', Chip.pulsed]

theorem exec_sysrstNPulse_service {s : State} (hhigh : s.chip.pins.porstN = true) (hseq : s.chip.seq = .service) (recoveryN : Bool) :
    exec (.sysrstNPulse true recoveryN) s = .next (s.cutAfter (s.chip.pulsed recoveryN).warmReset) := by
  have hseq' := (s.chip.seq_pulsed recoveryN).trans hseq
  unfold Chip.pulsed at hseq'
  refine congrArg (fun c => Host.Outcome.next (s.cutAfter c)) ((Chip.aon_of_high hhigh _).trans ?_)
  simp [hseq', Chip.pulsed]

/-- The chip as a warm reset restarts the Service domain: it clears what the loss of the domain clears. -/
def Chip.restarted (c : Chip) : Chip :=
  { (c.zeroize.freezeNoil 2).svcLost with pwr := { c.pwr with cryTries := 0, warm := true } }

theorem Chip.recoveryN_spliceDrop (c : Chip) : c.spliceDrop.pins.recoveryN = c.pins.recoveryN := by
  unfold Chip.spliceDrop
  cases h : c.ring.splice <;> simp [Chip.setSplice, h]

theorem Chip.recoveryN_svcLost (c : Chip) : c.svcLost.pins.recoveryN = c.pins.recoveryN := by
  have hpages : c.spliceDrop.jTear.updTear.svcPages.pins = c.spliceDrop.pins :=
    ((Chip.svcPages_touch _).same .pins rfl).trans (((Chip.updTear_touch _).same .pins rfl).trans ((Chip.jTear_touch _).same .pins rfl))
  have keeps (e : Chip) : ((((e.put F.LCS_ROOTS_SELECTED 0).put F.PWR_STATUS_CRY_PLL_LOCK 0).put F.PWR_STATUS_SVC_PLL_LOCK 0).put
      F.PWR_GRP_STATUS_STATE 0).pins = e.pins :=
    Part.same_trans (p := .pins) (Part.same_trans (Chip.put_same ..) (Chip.put_same ..)) (Part.same_trans (Chip.put_same ..) (Chip.put_same ..))
  simp only [Chip.svcLost]
  rw [keeps, ← Chip.recoveryN_spliceDrop c, ← hpages]
  split
  · exact congrArg Pins.recoveryN (Chip.put_same _ _ _ .pins)
  · rfl

theorem Chip.svcWake_keeps (c : Chip) :
    c.svcWake.cust = c.cust ∧ c.svcWake.cores = c.cores ∧ c.svcWake.cry = c.cry ∧ c.svcWake.pins = c.pins ∧ c.svcWake.pwr.warm = c.pwr.warm := by
  have h := Chip.setSeq_touch c .svcWaking
  have hpwr : c.svcWake.pwr = { c.pwr with svcTries := 0, latched := false } := Chip.put_same _ _ _ .pwr
  exact ⟨(Chip.put_same _ _ _ .cust).trans (h.same .cust rfl), (Chip.put_same _ _ _ .cores).trans (h.same .cores rfl),
    (Chip.put_same _ _ _ .cry).trans (h.same .cry rfl), (Chip.put_same _ _ _ .pins).trans (h.same .pins rfl),
    (congrArg Pwr.warm hpwr).trans rfl⟩

theorem Chip.warmReset_service {c : Chip} (h : c.seq = .service) : c.warmReset = c.restarted.svcWake := if_pos (by rw [h]; rfl)

theorem Chip.restarted_keeps (c : Chip) :
    c.restarted.cust = (c.zeroize.freezeNoil 2).svcLost.cust ∧ c.restarted.cores = (c.zeroize.freezeNoil 2).svcLost.cores ∧
      c.restarted.cry = (c.zeroize.freezeNoil 2).svcLost.cry ∧ c.restarted.pins = (c.zeroize.freezeNoil 2).svcLost.pins ∧
        c.restarted.pwr.warm = true := ⟨rfl, rfl, rfl, rfl, rfl⟩

theorem Chip.pins_zeroize (c : Chip) : (c.zeroize.freezeNoil 2).pins = c.pins :=
  ((Chip.freezeNoil_touch _ 2).same .pins rfl).trans ((Chip.zeroize_touch c).same .pins rfl)

/-- What a warm reset from SERVICE leaves. -/
theorem Chip.warmReset_clears {c : Chip} (h : c.seq = .service) :
    c.warmReset.cust = {} ∧ c.warmReset.cores = {} ∧ c.warmReset.cry = {} ∧ c.warmReset.pins.recoveryN = c.pins.recoveryN ∧
      c.warmReset.pwr.warm = true := by
  obtain ⟨hcust, hcores, hcry, hpins, hwarm⟩ := c.restarted.svcWake_keeps
  obtain ⟨hcust', hcores', hcry', hpins', hwarm'⟩ := c.restarted_keeps
  obtain ⟨kcust, kcores, -, kcry, -⟩ := Chip.svcLost_clears (c.zeroize.freezeNoil 2)
  rw [Chip.warmReset_service h, hcust, hcust', hcores, hcores', hcry, hcry', hpins, hpins', hwarm, hwarm', Chip.recoveryN_svcLost, Chip.pins_zeroize]
  exact ⟨kcust, kcores, kcry, rfl, rfl⟩

theorem Chip.seq_svcWake (c : Chip) : c.svcWake.seq = .svcWaking := by
  refine (congrArg Seq.ofCode (Chip.rail_put _ _ (by decide +kernel) (by decide))).trans ?_
  exact c.seq_setSeq .svcWaking

theorem says_sysrstNPulse : Says.sysrstNPulse := by
  refine ⟨?_, ?_, ?_⟩
  · intro s taken recoveryN h
    exact ⟨_, exec_sysrstNPulse_untaken h recoveryN, rfl⟩
  · rintro s taken recoveryN rfl hhigh hseq
    refine ⟨_, exec_sysrstNPulse_sleepEntry hhigh hseq recoveryN, ?_, Chip.get_put _ _ _ rfl Nat.one_pos, ?_, ?_⟩
    · exact congrArg Pwr.latched (Chip.put_same _ _ _ .pwr)
    · exact (congrArg Pins.recoveryN (Chip.put_same _ _ _ .pins)).trans (congrArg Pins.recoveryN (s.chip.pins_pulsed recoveryN))
    · exact (congrArg Seq.ofCode (Chip.rail_put _ _ (by decide +kernel) (by decide))).trans ((s.chip.seq_pulsed recoveryN).trans hseq)
  · rintro s taken recoveryN rfl hhigh hseq
    have hsvc := (s.chip.seq_pulsed recoveryN).trans hseq
    obtain ⟨hcust, hcores, hcry, hpins, hwarm⟩ := Chip.warmReset_clears hsvc
    refine ⟨_, exec_sysrstNPulse_service hhigh hseq recoveryN, ?_, hcust, hcores, hcry, ?_, hwarm⟩
    · rw [Chip.warmReset_service hsvc]
      exact Chip.seq_svcWake _
    · rw [hpins, Chip.pins_pulsed]

/-- Settles O24, instruction by instruction. -/
theorem resetsAndRails : Obligations.ResetsAndRails :=
  ⟨says_porstNAssert, says_brownOutReset, says_porstNRise, says_sysrstNPulse, says_vinOkFall, says_vinFuseOkFall, says_vinFuseOkRise, says_refclkLost,
    says_refclkPresentAgain, says_clockGlitch, says_rsvReady⟩

end Sys2Proof.Machine

/-!
SUPPORT. The statement on frames that arrive and are acknowledged on the Skein ring (spec section 02): what a step holds for acknowledgement.
-/

namespace Sys2Proof.Machine

set_option Elab.async false

/-! What the end of a step holds for acknowledgement (R42): only frames sent for the first time. -/

/-- Every frame held has been sent once. -/
def Chip.HeldOnce (c : Chip) : Prop := c.ring.held.all (fun h => h.tries == 1) = true

section
variable {c d : Chip}

theorem Chip.HeldOnce.of_ring (h : c.HeldOnce) (e : d.ring = c.ring) : d.HeldOnce := by
  rw [Chip.HeldOnce, e]
  exact h

theorem Chip.HeldOnce.touch {pm bm : Nat} (h : c.HeldOnce) (ht : Touch pm bm c d) (hp : pm.testBit Part.ring.ix = false) : d.HeldOnce :=
  h.of_ring (ht.same .ring hp)

theorem Chip.HeldOnce.puti (h : c.HeldOnce) (f : Fld) (i v : Nat) : (c.puti f i v).HeldOnce := h.of_ring (Chip.puti_same c f i v .ring)

theorem Chip.HeldOnce.put (h : c.HeldOnce) (f : Fld) (v : Nat) : (c.put f v).HeldOnce := h.puti f 0 v

theorem Chip.HeldOnce.ite {p : Prop} [Decidable p] (h : c.HeldOnce) (k : d.HeldOnce) : (if p then c else d).HeldOnce := by
  split <;> assumption

theorem Chip.HeldOnce.log (h : c.HeldOnce) (code unit : Nat) (args : List Byte) : (c.log code unit args).HeldOnce := h.touch (Chip.log_touch ..) rfl

theorem Chip.HeldOnce.each {α : Type} {l : List α} {f : Chip → α → Chip} (h : c.HeldOnce) (hf : ∀ d i, Chip.HeldOnce d → (f d i).HeldOnce) :
    (c.each l f).HeldOnce := Chip.each_keeps_prop hf h

/-! What sends on the ring. -/

theorem Chip.HeldOnce.seqNext (h : c.HeldOnce) : c.seqNext.HeldOnce := by
  unfold Chip.seqNext
  split
  · exact h
  · have hstopped : Chip.HeldOnce { c with ring := { c.ring with stopped := true } } := h
    exact hstopped.log ..

theorem Chip.HeldOnce.ringOut (h : c.HeldOnce) (f : RingFrame) : (c.ringOut f).HeldOnce := h.touch (Chip.ringOut_touch c f) rfl

theorem Chip.HeldOnce.ringBroadcast (h : c.HeldOnce) (typ : Nat) (payload : List Byte) : (c.ringBroadcast typ payload).HeldOnce := by
  unfold Chip.ringBroadcast
  split
  · exact h
  · exact ((h.ringOut _).ringOut _).seqNext

/-- A frame sent is held with one try. -/
theorem Chip.HeldOnce.held (h : c.HeldOnce) (f : RingFrame) :
    Chip.HeldOnce { c with ring := { c.ring with held := c.ring.held ++ [{ frame := f, tries := 1 }] } } := by
  rw [Chip.HeldOnce, List.all_append, show c.ring.held.all _ = true from h]
  rfl

theorem Chip.HeldOnce.ringSend (h : c.HeldOnce) (typ dst : Nat) (payload : List Byte) : (c.ringSend typ dst payload).HeldOnce := by
  simp only [Chip.ringSend]
  split
  · exact h
  · refine Chip.HeldOnce.seqNext ?_
    split
    · exact h.ringOut _
    · exact (h.ringOut _).held _

theorem Chip.HeldOnce.sendForce (h : c.HeldOnce) (node : Nat) : (c.sendForce node).HeldOnce := h.ringSend ..

theorem Chip.HeldOnce.bridgeDie (h : c.HeldOnce) (n : Nat) (b : Bool) : (c.bridgeDie n b).HeldOnce := (h.put ..).sendForce n

theorem Chip.HeldOnce.measReq (h : c.HeldOnce) (n op index rkey : Nat) (data : List Byte) : (c.measReq n op index rkey data).HeldOnce := h.ringSend ..

theorem Chip.HeldOnce.push (h : c.HeldOnce) (die id epoch : Nat) (st : Status) (flags sub limit : Nat) (key : Option (List Byte)) :
    (c.push die id epoch st flags sub limit key).HeldOnce :=
  (h.touch (Chip.pushBody_touch ..) rfl).ringSend ..

theorem Chip.HeldOnce.pushStale (h : c.HeldOnce) (id epoch flags : Nat) (b : Bob) : (c.pushStale id epoch flags b).HeldOnce :=
  h.each fun _ _ hd => hd.push ..

/-! Bobbins discarded and dies that leave. -/

theorem Chip.HeldOnce.discard (h : c.HeldOnce) (id : Nat) (quiet : Bool) : (c.discard id quiet).HeldOnce := by
  unfold Chip.discard
  split
  · exact h
  · split
    · exact h
    · extract_lets e d d' whl w d''
      have hd' : d'.HeldOnce :=
        ((h.touch (Chip.cacheDrop_touch ..) rfl).touch (Chip.cu_touch ..) rfl).touch (Chip.bobMod_touch ..) rfl
      have hd'' : d''.HeldOnce := by
        simp only [d'']
        split
        · split
          · exact hd'.touch (Chip.unconfirmed_touch ..) rfl
          · exact (hd'.of_ring (d := w) rfl).touch (Chip.warpTo_touch ..) rfl
        · exact hd'
      split
      · exact hd''.pushStale ..
      · exact hd''

theorem Chip.HeldOnce.targetDone (h : c.HeldOnce) (id : Nat) (t : Tgt) (st : Status) : (c.targetDone id t st).HeldOnce := by
  unfold Chip.targetDone
  split
  · exact h
  · split
    · exact h
    · extract_lets d d'
      have hd' : d'.HeldOnce := (Chip.HeldOnce.ite h (h.log ..)).touch (Chip.bobMod_touch ..) rfl
      split
      · exact hd'
      · split
        · exact hd'
        · split
          · exact (hd'.touch (Chip.bobMod_touch ..) rfl).touch (Chip.cmdPart_touch ..) rfl
          · exact (hd'.discard ..).touch (Chip.cmdPart_touch ..) rfl

theorem Chip.HeldOnce.dieLeft (h : c.HeldOnce) (n : Nat) : (c.dieLeft n).HeldOnce := h.each fun _ _ hd => hd.targetDone ..

theorem Chip.HeldOnce.dieGone (h : c.HeldOnce) (n : Nat) : (c.dieGone n).HeldOnce := (h.dieLeft n).touch (Chip.twDieLeft_touch ..) rfl

theorem Chip.HeldOnce.cardAbsent (h : c.HeldOnce) : (c.cardAbsent Chip.dieGone).HeldOnce := by
  refine h.each fun e n he => ?_
  have hgone : (((e.cardDrop n).cardSet n 0).dieGone n).HeldOnce :=
    ((he.touch (Chip.cardDrop_touch ..) rfl).touch (Chip.cardSet_touch ..) rfl).dieGone n
  extract_lets was d card hanks d'
  have hd' : d'.HeldOnce := hgone.of_ring rfl
  exact Chip.HeldOnce.ite (hd'.touch (Chip.mirrorItem_touch ..) rfl) hd'

theorem Chip.HeldOnce.cardRoundEnd (h : c.HeldOnce) : c.cardRoundEnd.HeldOnce := by
  unfold Chip.cardRoundEnd
  extract_lets card d
  have hd : d.HeldOnce := Chip.HeldOnce.ite h h
  split
  · exact hd.each fun e n he => (he.touch (Chip.cardMod_touch ..) rfl).bridgeDie n true
  · exact hd

theorem Chip.HeldOnce.scrubTell (h : c.HeldOnce) (hank op : Nat) : (c.scrubTell hank op).HeldOnce := by
  unfold Chip.scrubTell
  split
  · exact h
  · refine h.each fun e n he => ?_
    split
    · exact he.ringSend ..
    · exact he

/-! The key switch of a hank, launches cancelled, dies released, a Twist frozen. -/

theorem Chip.HeldOnce.switches (h : c.HeldOnce) : c.switches.HeldOnce := by
  refine h.each fun e n he => ?_
  split
  · exact he
  · split
    · exact he
    · split
      · exact Chip.HeldOnce.ite he ((Chip.HeldOnce.ite (he.scrubTell ..) he).touch (Chip.hankMod_touch ..) rfl)
      · split
        · exact he
        · split
          · exact ((he.scrubTell ..).touch (Chip.hankMod_touch ..) rfl).touch (Chip.switchDone_touch ..) rfl
          · exact he

theorem Chip.HeldOnce.cancelGo (h : c.HeldOnce) (n reason : Nat) : (c.cancelGo n reason).HeldOnce := by
  unfold Chip.cancelGo
  split
  · exact h
  · extract_lets num ids d d' whl d''
    have hd' : d'.HeldOnce :=
      (h.touch (Chip.cancelRecs_touch ..) rfl).each fun e i he => (he.discard i true).touch (Chip.cmdPart_touch ..) rfl
    have hd'' : d''.HeldOnce := Chip.HeldOnce.ite hd' hd'
    exact hd''.ringBroadcast ..

theorem Chip.HeldOnce.freezeBob (h : c.HeldOnce) (id : Nat) : (c.freezeBob id).HeldOnce := by
  have hstale := (h.touch (Chip.launchStale_touch c id) rfl).touch (Chip.cancelRec_touch _ id) rfl
  exact ((hstale.discard id false).touch (Chip.bobMod_touch ..) rfl).touch (Chip.freezeFrame_touch ..) rfl

theorem Chip.HeldOnce.twFreeze (h : c.HeldOnce) (hank step : Nat) : (c.twFreeze hank step).HeldOnce := by
  unfold Chip.twFreeze
  extract_lets d d' d''
  have hd : d.HeldOnce := h.each fun _ _ he => he.push ..
  have hd' : d'.HeldOnce := hd.each fun _ i he => he.freezeBob i
  have hd'' : d''.HeldOnce := hd'.touch (Chip.hankFrozen_touch ..) rfl
  exact Chip.HeldOnce.ite (hd''.touch (Chip.jWrite_touch ..) rfl) hd''

theorem Chip.HeldOnce.twDepart (h : c.HeldOnce) (hank code die step seq : Nat) : (c.twDepart hank code die step seq).HeldOnce := by
  unfold Chip.twDepart
  extract_lets d d' d'' freeze d3
  have hd' : d'.HeldOnce := (h.touch (Chip.twFull_touch ..) rfl).touch (Chip.twLog_touch ..) rfl
  have hd'' : d''.HeldOnce := Chip.HeldOnce.ite ((hd'.puti ..).puti ..) hd'
  have hd3 : d3.HeldOnce := (hd''.touch (Chip.twSet_touch ..) rfl).touch (Chip.twWithhold_touch ..) rfl
  exact Chip.HeldOnce.ite hd'' (Chip.HeldOnce.ite ((hd3.twFreeze ..).touch (Chip.twLog_touch ..) rfl) hd3)

theorem Chip.HeldOnce.twReleased (h : c.HeldOnce) (n : Nat) : (c.twReleased n).HeldOnce := by
  unfold Chip.twReleased
  extract_lets tw d
  have hd : d.HeldOnce := h
  split
  · exact Chip.HeldOnce.ite ((hd.twDepart ..).touch (Chip.twMirror_touch ..) rfl) hd
  · exact hd

theorem Chip.HeldOnce.hankReleased (h : c.HeldOnce) (n : Nat) : (c.hankReleased n).HeldOnce := by
  unfold Chip.hankReleased
  extract_lets d
  have hd : d.HeldOnce := h.twReleased n
  split
  · exact Chip.HeldOnce.ite (hd.touch (Chip.scrubAll_touch ..) rfl) hd
  · exact hd

theorem Chip.HeldOnce.cardRelease (h : c.HeldOnce) (n : Nat) : (c.cardRelease n).HeldOnce := by
  unfold Chip.cardRelease
  split
  · exact h
  · extract_lets key d d' d''
    have hd : d.HeldOnce := (h.touch (Chip.cardSet_touch ..) rfl).measReq ..
    have hd' : d'.HeldOnce := (hd.touch (Chip.setCarded_touch ..) rfl).touch (Chip.cu_touch ..) rfl
    exact ((hd'.touch (Chip.cardMod_touch ..) rfl).log ..).cardRoundEnd

/-! Effects that waited for the mirror, the lease, and the end of a phase. -/

theorem Chip.HeldOnce.doEff (h : c.HeldOnce) (e : Eff) : (c.doEff e).HeldOnce := by
  cases e with
  | ring typ dst p => exact h.ringSend ..
  | ringAll typ p => exact h.ringBroadcast ..
  | ack src seq => exact h.ringSend ..
  | command id ready => exact h.touch (Chip.commitDone_touch ..) rfl
  | hankKey n key => exact h.touch (Chip.hankKeyed_touch ..) rfl
  | root tree node => exact h
  | answer m a =>
    simp only [Chip.doEff]
    split
    · exact h.touch (Chip.answer_touch ..) rfl
    · exact h
  | finish t st => exact h.touch (Chip.finishCall_touch ..) rfl
  | spdm n q b => exact h.touch (Chip.spdmSend_touch ..) rfl
  | release n => exact ((h.cardRelease n).hankReleased n).touch (Chip.ringPush_touch ..) rfl
  | warp ch f => exact h.touch (Chip.warpTo_touch ..) rfl
  | launchCancel n r => exact h.cancelGo n r
  | nothing => exact h

theorem Chip.HeldOnce.holdsDue (h : c.HeldOnce) : c.holdsDue.HeldOnce := by
  refine Chip.HeldOnce.each ?_ fun e x he => he.doEff x
  exact h

theorem Chip.HeldOnce.renew (h : c.HeldOnce) (mask : Nat) : (c.renew mask).HeldOnce := by
  unfold Chip.renew
  extract_lets exp d b
  have hd : d.HeldOnce := h.touch (Chip.pl_touch ..) rfl
  exact Chip.HeldOnce.ite (hd.touch (Chip.mirrorThen_touch ..) rfl) (hd.ringBroadcast ..)

theorem Chip.HeldOnce.resyncFive (h : c.HeldOnce) : c.resyncFive.HeldOnce := by
  unfold Chip.resyncFive
  split
  · extract_lets mask d
    have hd : d.HeldOnce := (h.touch (Chip.resyncShow_touch ..) rfl).touch (Chip.pl_touch ..) rfl
    exact hd.renew mask
  · exact h

theorem Chip.HeldOnce.leaseAsk (h : c.HeldOnce) (op fresh num dur : Nat) : (c.leaseAsk op fresh num dur).HeldOnce := by
  unfold Chip.leaseAsk
  extract_lets exp d d' b ply
  have hd : d.HeldOnce := h.touch (Chip.pl_touch ..) rfl
  have hd' : d'.HeldOnce := hd.of_ring rfl
  exact Chip.HeldOnce.ite (hd'.ringBroadcast ..) (hd'.of_ring rfl)

theorem Chip.HeldOnce.candidate (h : c.HeldOnce) (op dur : Nat) : (c.candidate op dur).HeldOnce := by
  unfold Chip.candidate
  split
  · exact h.touch (Chip.setRole_touch ..) rfl
  · extract_lets num d
    have hd : d.HeldOnce := ((h.touch (Chip.setRole_touch c 4) rfl).touch (Chip.pl_touch ..) rfl).touch (Chip.grantRegs_touch _) rfl
    exact ((hd.touch (Chip.groupNeed_touch d 1) rfl).touch (Chip.groupNeed_touch _ 2) rfl).leaseAsk ..

theorem Chip.HeldOnce.handoverGo (h : c.HeldOnce) : c.handoverGo.HeldOnce := by
  unfold Chip.handoverGo
  split
  · split
    · exact h
    · exact (((h.touch (Chip.plySend_touch ..) rfl).ringBroadcast ..).touch (Chip.dropMaster_touch _) rfl).touch (Chip.pl_touch ..) rfl
  · exact h

theorem Chip.HeldOnce.replay (h : c.HeldOnce) : c.replay.HeldOnce := by
  unfold Chip.replay
  split
  · exact h
  · extract_lets recs scratch keys cer d d' bobs back gone d'' d3 d4
    have hd' : d'.HeldOnce := Chip.HeldOnce.each (h.touch (Chip.cu_touch ..) rfl) fun _ _ he => (he.puti ..).puti ..
    have hd'' : d''.HeldOnce := hd'.each fun _ _ he => he.touch (Chip.makeBob_touch ..) rfl
    have hd3 : d3.HeldOnce := hd''.each fun _ _ he => he.touch (Chip.jWrite_touch ..) rfl
    have hd4 : d4.HeldOnce := hd3.each fun _ _ he => he.touch (Chip.jWrite_touch ..) rfl
    exact ((hd4.put ..).touch (Chip.cu_touch ..) rfl).log ..

theorem Chip.HeldOnce.meet (h : c.HeldOnce) : c.meet.HeldOnce := by
  unfold Chip.meet
  split
  · exact h
  · extract_lets own his d
    have hd : d.HeldOnce := by
      refine Chip.HeldOnce.ite h (Chip.HeldOnce.ite ((h.touch (Chip.dropMaster_touch c) rfl).touch (Chip.setRole_touch ..) rfl) ?_)
      exact Chip.HeldOnce.ite (Chip.HeldOnce.ite (h.replay.candidate 1 0) h) (h.touch (Chip.setRole_touch ..) rfl)
    exact Chip.HeldOnce.ite (hd.touch (Chip.askResync_touch d) rfl) hd

theorem Chip.HeldOnce.phases (h : c.HeldOnce) : c.phases.HeldOnce := by
  unfold Chip.phases
  extract_lets warm carded d d' d''
  have hd : d.HeldOnce := Chip.HeldOnce.ite (h.touch (Chip.setPhase_touch ..) rfl) h
  have hd' : d'.HeldOnce := Chip.HeldOnce.ite hd.meet hd
  have hd'' : d''.HeldOnce := Chip.HeldOnce.ite hd' hd'.replay
  refine Chip.HeldOnce.ite hd' (Chip.HeldOnce.ite ?_ (Chip.HeldOnce.ite ?_ hd'))
  · exact ((hd''.touch (Chip.setPhase_touch ..) rfl).touch (Chip.setMaster_touch _) rfl).log ..
  · exact (hd'.touch (Chip.setPhase_touch ..) rfl).log ..

/-! The end of a step. -/

theorem Chip.HeldOnce.settleOnce (h : c.HeldOnce) : c.settleOnce.HeldOnce := by
  unfold Chip.settleOnce
  extract_lets c1 c2 c3 c4 c5 c6 c7 c8 c9 c10
  have h1 : c1.HeldOnce := h.cardAbsent.cardRoundEnd
  have h2 : c2.HeldOnce := h1.touch (Chip.jStart_touch _) rfl
  have h3 : c3.HeldOnce := Chip.HeldOnce.ite (h2.touch (Chip.holdsFail_touch ..) rfl) h2
  have h4 : c4.HeldOnce := h3.holdsDue
  have h5 : c5.HeldOnce := h4.touch (Chip.acksDue_touch _) rfl
  have h6 : c6.HeldOnce := (h5.touch (Chip.cancelsEnd_touch _) rfl).touch (Chip.cmdsEnd_touch _) rfl
  have h7 : c7.HeldOnce := h6.each fun _ _ he => he.touch (Chip.recount_touch ..) rfl
  have h8 : c8.HeldOnce := (h7.touch (Chip.keyWaiters_touch _) rfl).touch (Chip.hostRetry_touch _) rfl
  have h9 : c9.HeldOnce := (h8.switches.touch (Chip.confirmEnd_touch _) rfl).touch (Chip.lcsReply_touch _) rfl
  have h10 : c10.HeldOnce := (h9.each fun _ _ he => he.touch (Chip.twSigning_touch ..) rfl).touch (Chip.sigsDue_touch _) rfl
  exact (h10.resyncFive.handoverGo.touch (Chip.handoverFailed_touch _) rfl).phases.touch (Chip.logLost_touch _) rfl

theorem Chip.HeldOnce.settle (h : c.HeldOnce) : c.settle.HeldOnce := by
  unfold Chip.settle
  split
  · exact ((h.settleOnce.settleOnce.settleOnce.settleOnce).touch (Chip.snapKeep_touch _) rfl).touch (Chip.idleNote_touch _) rfl
  · exact h

end

/-! Two held frames of one number. -/

/-- A chip in SERVICE with its ring enabled and two frames of one number held, one to node 3 tried out and one to node 4. -/
def sameSeq : State :=
  let regs : List (Fld × Nat) := [(F.PWR_STATUS_SEQ_STATE, 2), (F.SKN_CTRL_RING_EN, 1)]
  let frame (dst : Nat) : RingFrame := { typ := 0x50, flags := 0, src := 64, dst := dst, seq := 7, rkey := 0, payload := [], tag := zeroTag }
  let chip : Chip := { ring := { held := [{ frame := frame 3, tries := 20 }, { frame := frame 4, tries := 20 }] } }
  { State.reset with chip := chip.each regs fun c p => c.put p.1 p.2 }

/-- The first of them is given up; the other, sent twenty times, is still held after the step. -/
theorem exec_ringAckTimeout_sameSeq :
    ∃ d, exec (.ringAckTimeout 7) sameSeq = .next (sameSeq.settled d) ∧ d.settle.ring.held.map (·.tries) = [20] :=
  ⟨_, rfl, by decide +kernel⟩

/-- Refutes O39: the clause on a frame given up says that no frame of its number is held then, where one frame alone is let go. In `sameSeq` two
frames of number 7 are held, both sent twenty times; one of them is still held after the step, and it is not a frame that the end of the step
sent, for such a frame has been sent once. -/
theorem not_ringFramesIn : ¬ Obligations.RingFramesIn := by
  rintro ⟨-, -, -, ⟨-, -, -, hgiven⟩, -⟩
  obtain ⟨c, hc, -, -, hheld⟩ := hgiven sameSeq 7 (by decide +kernel) (by decide +kernel)
  obtain ⟨d, hd, htries⟩ := exec_ringAckTimeout_sameSeq
  have hsettle : d.settle = c.settle := congrArg State.chip (Host.Outcome.next.inj (hd.symm.trans hc))
  have hnone : c.ring.held = [] := hheld.trans (by decide +kernel)
  have honce : c.settle.HeldOnce := Chip.HeldOnce.settle (by rw [Chip.HeldOnce, hnone]; rfl)
  rw [← hsettle, Chip.HeldOnce] at honce
  obtain ⟨x, hx⟩ := List.map_eq_singleton_iff.mp htries
  simp [hx.1, hx.2] at honce

end Sys2Proof.Machine

/-!
SUPPORT. The statement on what follows of itself from a command (log entry 76).
-/

namespace Sys2Proof.Machine

set_option Elab.async false

/-- A chip in ACTIVE at Whorl time 0, no Crypto group on and nothing noted idle. -/
def activeChip : Chip := ({} : Chip).put F.PWR_STATUS_SEQ_STATE Seq.active.code

/-- The end of a step notes the slot since which no group is on (R59). -/
theorem idle_settle_activeChip : activeChip.settle.pwr.idle = [(0, 0)] := by decide +kernel

/-- Refutes O20: the slots since which the Crypto groups are idle (R59, R62) are part of the power controller, and `Chip.idleNote`, the last act
of what follows of itself, writes them. In `activeChip` nothing is noted before it, and slot 0 after. -/
theorem not_followsOfItself : ¬ Obligations.FollowsOfItself := by
  intro h
  obtain ⟨-, -, -, hpwr, -⟩ := h activeChip
  have hidle : activeChip.settle.pwr.idle = [] := congrArg Pwr.idle hpwr
  exact absurd (idle_settle_activeChip.symm.trans hidle) (List.cons_ne_nil _ _)

end Sys2Proof.Machine

/-!
SUPPORT. The statement on the power of the Crypto groups (spec section 03).
-/

namespace Sys2Proof.Machine

set_option Elab.async false

/-! The registers of the sequencer and of the Crypto groups. -/

/-- A frame that spares `PWR_STATUS` leaves the sequencer where it is. -/
theorem Touch.seq_eq {pm bm : Nat} {c d : Chip} (h : Touch pm bm c d) (hs : spares bm R.PWR_STATUS = true) : d.seq = c.seq :=
  congrArg Seq.ofCode (h.geti_eq (f := F.PWR_STATUS_SEQ_STATE) (i := 0) hs)

/-- A frame that spares `PWR_GRP_STATUS` leaves the groups as they are. -/
theorem Touch.grp_eq {pm bm : Nat} {c d : Chip} (h : Touch pm bm c d) (hs : spares bm R.PWR_GRP_STATUS = true) (g : Nat) : d.grp g = c.grp g :=
  congrArg (bitsOf · (2 * g + 1) (2 * g)) (h.geti_eq (f := F.PWR_GRP_STATUS_STATE) (i := 0) hs)

theorem Chip.seq_put (c : Chip) {f : Fld} (v : Nat) (hf : F.PWR_STATUS_SEQ_STATE.apart f 0 0 = true) : (c.put f v).seq = c.seq :=
  congrArg Seq.ofCode (Chip.get_put_other _ _ _ _ rfl hf)

theorem Chip.svcUp_of_active {c : Chip} (h : c.seq = .active) : c.svcUp = true := by simp [Chip.svcUp, h]

/-- The two bits of a group replaced, as `PWR_GRP_STATUS` is written. -/
theorem bitsOf_replace {w g st : Nat} (hw : w < 2 ^ 12) (hg : g < 6) (hst : st < 4) :
    bitsOf ((w - bitsOf w (2 * g + 1) (2 * g) * 4 ^ g + st * 4 ^ g) % 2 ^ 12) (2 * g + 1) (2 * g) = st := by
  interval_cases g
  all_goals
    simp only [bitsOf]
    omega

theorem Chip.get_setGrp (c : Chip) (g st : Nat) :
    (c.setGrp g st).get F.PWR_GRP_STATUS_STATE = (c.get F.PWR_GRP_STATUS_STATE - c.grp g * 4 ^ g + st * 4 ^ g) % 2 ^ 12 := by
  unfold Chip.setGrp
  extract_lets old w d
  have hnoted : Touch 0x108 0x180000000000000000000000000000000000000000000000000000000004 (d.put F.PWR_GRP_STATUS_STATE (w - old * 4 ^ g + st * 4 ^ g))
      (((d.put F.PWR_GRP_STATUS_STATE (w - old * 4 ^ g + st * 4 ^ g)).noilTrans uPWR 3 5 g old st).trace 14 2 0 (pack [(1, g), (1, old), (1, st)])) :=
    .step (Chip.trace_touch ..) (by decide +kernel) (by decide +kernel) (.step (Chip.noilTrans_touch ..) (by decide +kernel) (by decide +kernel) .refl)
  exact (hnoted.geti_eq (by decide +kernel)).trans (Chip.get_put _ _ _ rfl Nat.one_pos)

theorem Chip.grp_setGrp (c : Chip) {g st : Nat} (hg : g < 6) (hst : st < 4) : (c.setGrp g st).grp g = st := by
  rw [Chip.grp, Chip.get_setGrp]
  exact bitsOf_replace (c.geti_lt F.PWR_GRP_STATUS_STATE 0) hg hst

theorem Chip.seq_setGrp (c : Chip) (g st : Nat) : (c.setGrp g st).seq = c.seq := (c.setGrp_touch g st).seq_eq (by decide +kernel)

theorem Chip.cryLock_setSeq (c : Chip) (q : Seq) : (c.setSeq q).get F.PWR_STATUS_CRY_PLL_LOCK = c.get F.PWR_STATUS_CRY_PLL_LOCK :=
  ((c.setSeq_touch_put q).geti_eq (by decide +kernel)).trans (Chip.get_put_other _ _ _ _ rfl rfl)

theorem Chip.cryLock_setGrp (c : Chip) (g st : Nat) : (c.setGrp g st).get F.PWR_STATUS_CRY_PLL_LOCK = c.get F.PWR_STATUS_CRY_PLL_LOCK :=
  (c.setGrp_touch g st).geti_eq (by decide +kernel)

/-! Waking and idle groups (R59, R61, R62). -/

/-- A group that is needed takes the sequencer nowhere but to ACTIVE. -/
theorem Chip.seq_groupNeed_of_active {c : Chip} (h : c.seq = .active) (g : Nat) : (c.groupNeed g).seq = .active := by
  unfold Chip.groupNeed
  split
  · exact h
  · split
    · rw [Chip.seq_setGrp, if_neg (by simp [h]), h]
    · exact h

/-- A group off, not disabled, wakes; the sequencer leaves SERVICE for ACTIVE. -/
theorem Chip.groupNeed_of_off {c : Chip} {g : Nat} (hup : c.svcUp = true) (hg : g ≠ 0) (hg6 : g < 6)
    (hdis : bit (c.get F.PWR_GRP_CTRL_DISABLE) (g - 1) = false) (hoff : c.grp g = 0) :
    c.groupNeed g = (if c.seq = .service then c.setSeq .active else c).setGrp g 1 := by
  rw [Chip.groupNeed, if_neg (by simp [hup, hg, hdis, Nat.le_of_lt_succ hg6]), if_pos hoff]

theorem Chip.groupNeed_of_down {c : Chip} {g : Nat} (h : c.svcUp = false ∨ g = 0) : c.groupNeed g = c := by
  rw [Chip.groupNeed, if_pos (by rcases h with h | h <;> simp [h])]

theorem says_cryptoGroupWake : Says.cryptoGroupWake := by
  refine ⟨fun s g => ?_, fun s g hoff => ⟨_, rfl, Chip.groupNeed_of_down hoff⟩, fun s g hup hg hdis hoff => ?_⟩
  · exact exists_only_of_touch (execCryptoGroupWake_touch g s) (by decide +kernel) (by decide +kernel)
  · refine ⟨_, congrArg (fun c => Host.Outcome.next (s.settled c)) (Chip.groupNeed_of_off hup hg g.isLt hdis hoff),
      Chip.grp_setGrp _ g.isLt (by decide), ?_⟩
    rw [Chip.seq_setGrp]
    split
    · exact Chip.seq_setSeq _ _
    · next hseq => simpa [Chip.svcUp, hseq] using hup

theorem says_groupIdlePowerOff : Says.groupIdlePowerOff := by
  refine ⟨fun s g => ?_, fun s g hon => ⟨_, rfl, if_pos (by simp [hon])⟩, fun s g hg hon hauto hidle hbusy hkept => ?_,
    fun s g hg hon hdis hbusy hkept => ?_⟩
  · exact exists_only_of_touch (execGroupIdlePowerOff_touch g s) (by decide +kernel) (by decide +kernel)
  all_goals
    refine ⟨s.chip.setGrp g 0, ?_, Chip.grp_setGrp _ g.isLt (by decide), Chip.seq_setGrp _ _ _⟩
    refine congrArg (fun c => Host.Outcome.next (s.settled c)) (if_neg ?_)
  · simp [hg, hon, hauto, hidle, hbusy, hkept]
  · simp [hg, hon, hdis, hbusy, hkept]

theorem says_cryptoPllHoldExpire : Says.cryptoPllHoldExpire := by
  refine ⟨fun s => ?_, fun s hkeep => ⟨_, rfl, if_pos (by simp [hkeep])⟩, fun s hact hkeep hoff hidle => ?_⟩
  · exact exists_only_of_touch (execCryptoPllHoldExpire_touch s) (by decide +kernel) (by decide +kernel)
  · refine ⟨(s.chip.put F.PWR_STATUS_CRY_PLL_LOCK 0).setSeq .service,
      congrArg (fun c => Host.Outcome.next (s.settled c)) (if_neg ?_), Chip.seq_setSeq _ _, ?_⟩
    · simp [hact, hkeep, hidle, List.any_eq_false.mp hoff]
    · rw [Chip.cryLock_setSeq, Chip.get_put _ _ _ rfl Nat.one_pos, Nat.zero_mod]

/-! FORCE_ON (R62). -/

theorem says_pwrForceOn : Says.pwrForceOn := by
  refine ⟨fun s req mask => ?_, fun s req mask hopen => ?_⟩
  · exact exists_only_of_touch (execPwrForceOn_touch req mask s) (by decide +kernel) (by decide +kernel)
  · refine ⟨_, congrArg (fun c => Host.Outcome.next (s.settled c)) (Chip.guarded_of_opens _ hopen), ?_⟩
    have hforced : ((s.chip.wrote req).forceOn mask.toNat).get F.PWR_GRP_CTRL_FORCE_ON = mask.toNat % 2 ^ 5 :=
      ((Chip.forced_touch _).geti_eq (by decide +kernel)).trans (Chip.get_put _ _ _ rfl Nat.one_pos)
    exact hforced.trans (Nat.mod_eq_of_lt mask.isLt)

/-! A group ready (R61). -/

/-- The Crypto PLL shown locked, its failed tries forgotten. -/
def Chip.cryLocked (c : Chip) : Chip := { c.put F.PWR_STATUS_CRY_PLL_LOCK 1 with pwr := { c.pwr with cryTries := 0 } }

theorem Chip.cryLock_cryLocked (c : Chip) : c.cryLocked.get F.PWR_STATUS_CRY_PLL_LOCK = 1 := Chip.get_put c _ 1 rfl Nat.one_pos

theorem Chip.seq_cryLocked (c : Chip) : c.cryLocked.seq = c.seq := Chip.seq_put c 1 rfl

/-- The group ON, its first wake's tests passed. -/
def Chip.grpTested (c : Chip) (g : Nat) : Chip := (c.cryLocked.setGrp g 2).powerOnTests g []

/-- What waited in the Crypto cluster runs once a group is on. -/
def Chip.grpServed (c : Chip) (g : Nat) : Chip :=
  if g = 1 then c.keyRetry.cryArb.each (List.range 64) Chip.cxWake else c.keyRetry.cryArb

theorem Chip.powerOnTests_touch_nil (c : Chip) (g : Nat) : Touch 0x40000 0x0 c (c.powerOnTests g []) := by
  unfold Chip.powerOnTests
  split
  · exact .refl
  · exact c.cr_touch (fun u => { u with tested := u.tested ++ [g] })

theorem Chip.grpTested_touch (c : Chip) (g : Nat) :
    Touch 0x40108 0x180000000000000000000000000000000000000000000000000000040004 c.cryLocked (c.grpTested g) :=
  .step (Chip.powerOnTests_touch_nil ..) (by decide +kernel) (by decide +kernel)
    (.step (Chip.setGrp_touch ..) (by decide +kernel) (by decide +kernel) .refl)

theorem Chip.seq_grpTested (c : Chip) (g : Nat) : (c.grpTested g).seq = c.seq :=
  ((c.grpTested_touch g).seq_eq (by decide +kernel)).trans c.seq_cryLocked

theorem Chip.grp_grpTested (c : Chip) {g : Nat} (hg : g < 6) : (c.grpTested g).grp g = 2 :=
  ((Chip.powerOnTests_touch_nil ..).grp_eq (by decide +kernel) g).trans (Chip.grp_setGrp _ hg (by decide))

theorem Chip.cryLock_grpTested (c : Chip) (g : Nat) : (c.grpTested g).get F.PWR_STATUS_CRY_PLL_LOCK = 1 :=
  ((c.grpTested_touch g).geti_eq (by decide +kernel)).trans c.cryLock_cryLocked

/-- With no key request waiting for a group, the work a group's wake starts is that of the Crypto channels and contexts. -/
theorem Chip.grpServed_touch {c : Chip} (h : c.cust.waitGrp = []) (g : Nat) :
    Touch 0x5090e 0x180000000000000000000b04000000000000000000000000000000000004 c (c.grpServed g) := by
  have hretry : c.keyRetry = c.cu (fun u => { u with waitGrp := [] }) := by simp [Chip.keyRetry, h, Chip.each]
  have hkeys : Touch 0x5090e 0x180000000000000000000b04000000000000000000000000000000000004 c c.keyRetry.cryArb := by
    rw [hretry]
    exact .step (Chip.cryArb_touch _) (by decide +kernel) (by decide +kernel)
      (.step (Chip.cu_touch ..) (by decide +kernel) (by decide +kernel) .refl)
  unfold Chip.grpServed
  split
  · exact .each (fun d n hd => .step (Chip.cxWake_touch d n) (by decide +kernel) (by decide +kernel) hd) hkeys
  · exact hkeys

theorem exec_cryptoGroupReady_lock {s : State} {g : Fin 6} (hact : s.chip.seq = .active) (hg : g.val = 0) (bad : List (Nat × Nat)) :
    exec (.cryptoGroupReady g bad) s = .next (s.cutSettled s.chip.cryLocked) := by
  refine congrArg (fun c => Host.Outcome.next (s.cutSettled c)) ((if_neg ?_).trans (if_pos hg))
  simp [hact]

theorem exec_cryptoGroupReady_waking {s : State} {g : Fin 6} (hact : s.chip.seq = .active) (hg : g.val ≠ 0) (hwaking : s.chip.grp g.val = 1) :
    exec (.cryptoGroupReady g []) s = .next (s.cutSettled ((s.chip.grpTested g.val).grpServed g.val)) := by
  have hup : (s.chip.grpTested g.val).svcUp = true := Chip.svcUp_of_active ((s.chip.seq_grpTested g.val).trans hact)
  refine congrArg (fun c => Host.Outcome.next (s.cutSettled c)) ((if_neg ?_).trans ((if_neg hg).trans ((if_neg ?_).trans (if_neg ?_))))
  · simp [hact]
  · simp [hwaking]
  · change ¬ (!(s.chip.grpTested g.val).svcUp) = true
    simp [hup]

theorem says_cryptoGroupReady : Says.cryptoGroupReady := by
  refine ⟨fun s g bad hact => ⟨_, rfl, if_pos (by simp [hact])⟩, ?_, fun s g bad hact hg => ?_⟩
  · rintro s g bad hact hg hwaking rfl - hwait
    have htest := s.chip.grpTested_touch g.val
    have hserve := Chip.grpServed_touch ((congrArg Cust.waitGrp (htest.same .cust rfl)).trans hwait) g.val
    refine ⟨_, exec_cryptoGroupReady_waking hact hg hwaking, ?_, ?_, ?_, ?_⟩
    · exact (hserve.grp_eq (by decide +kernel) _).trans (s.chip.grp_grpTested g.isLt)
    · exact (hserve.geti_eq (by decide +kernel)).trans (s.chip.cryLock_grpTested g.val)
    · exact congrArg Pwr.cryTries ((hserve.same .pwr rfl).trans (htest.same .pwr rfl))
    · exact (hserve.seq_eq (by decide +kernel)).trans ((s.chip.seq_grpTested g.val).trans hact)
  · exact ⟨_, exec_cryptoGroupReady_lock hact hg bad, Chip.cryLock_cryLocked _, Chip.put_same _ _ _ .cry⟩

/-! The Crypto PLL's second failure (R62, R139): the groups failed, their work ended. -/

section
variable {c : Chip} (h : c.seq = .active)
include h

theorem Touch.active {pm bm : Nat} {d : Chip} (ht : Touch pm bm c d) (hs : spares bm R.PWR_STATUS = true) : d.seq = .active := (ht.seq_eq hs).trans h

theorem Chip.active_ite {d : Chip} {p : Prop} [Decidable p] (k : d.seq = .active) : (if p then c else d).seq = .active := by
  split
  · exact h
  · exact k

theorem Chip.active_grpsReady (gs : List Nat) : (c.grpsReady gs).1.seq = .active := by
  refine Chip.each_keeps_prop (P := fun d => d.seq = .active) (fun d g hd => ?_) h
  exact Chip.active_ite hd (Chip.seq_groupNeed_of_active hd g)

theorem Chip.active_keyReply (q : KeyReq) (st : Status) (flags sub limit : Nat) (key : Option (List Byte)) (epoch : Nat) :
    (c.keyReply q st flags sub limit key epoch).seq = .active :=
  (Chip.keyReply_touch ..).active h (by decide +kernel)

theorem Chip.active_cu (f : Cust → Cust) : (c.cu f).seq = .active := (Chip.cu_touch c f).active h (by decide +kernel)

theorem Chip.active_blobWrite (id epoch : Nat) (key : List Byte) (slot : Nat) : (c.blobWrite id epoch key slot).seq = .active :=
  (Chip.blobWrite_touch ..).active h (by decide +kernel)

theorem Chip.active_keyGive (q : KeyReq) (b : Bob) (epoch : Nat) (st : Status) (flags : Nat) (blobNames : Bool) :
    (c.keyGive q b epoch st flags blobNames).seq = .active := by
  unfold Chip.keyGive
  split
  · have hcached := (Chip.cacheTouch_touch c q.bob epoch).active h (by decide +kernel)
    exact Chip.active_keyReply ((Chip.count_touch ..).active hcached (by decide +kernel)) ..
  · extract_lets d g k
    have hd : d.seq = .active := (Chip.count_touch ..).active h (by decide +kernel)
    have hg : g.1.seq = .active := Chip.active_grpsReady hd [1]
    have hk : k.1.seq = .active := (Chip.derive_touch ..).active hg (by decide +kernel)
    refine Chip.active_ite (Chip.active_cu ((Chip.portReq_touch ..).active hd (by decide +kernel)) _) ?_
    refine Chip.active_ite (Chip.active_keyReply hd ..) ?_
    refine Chip.active_ite (Chip.active_cu hg _) (Chip.active_ite (Chip.active_keyReply hg ..) ?_)
    split
    · exact Chip.active_keyReply hk ..
    · next key hkey =>
      have hput : (k.1.cachePut q.bob epoch key false).seq = .active := (Chip.cachePut_touch ..).active hk (by decide +kernel)
      refine Chip.active_keyReply (Chip.active_ite hput ?_) ..
      exact Chip.active_ite (Chip.active_blobWrite hput ..) (Chip.active_ite (Chip.active_blobWrite hput ..) hput)

theorem Chip.active_keyServe (q : KeyReq) : (c.keyServe q).seq = .active := by
  have hreply := Chip.active_keyReply h
  unfold Chip.keyServe
  refine Chip.active_ite ((Chip.log_touch ..).active (hreply ..) (by decide +kernel)) ?_
  split
  · exact hreply ..
  · refine Chip.active_ite ((Chip.log_touch ..).active (hreply ..) (by decide +kernel)) (Chip.active_ite (hreply ..) ?_)
    extract_lets want g next d
    have hg : g.1.seq = .active := Chip.active_grpsReady h [2]
    refine Chip.active_ite (hreply ..) (Chip.active_ite ((Chip.logOnce_touch ..).active (hreply ..) (by decide +kernel)) ?_)
    refine Chip.active_ite (Chip.active_cu hg _) (Chip.active_ite (Chip.active_keyReply hg ..) ?_)
    exact Chip.active_ite (Chip.active_keyGive hg ..) (Chip.active_ite (Chip.active_keyGive hg ..) (Chip.active_keyGive hg ..))

theorem Chip.active_keyRetry : c.keyRetry.seq = .active :=
  Chip.each_keeps_prop (P := fun d => d.seq = .active) (fun _ q hd => Chip.active_keyServe hd q) (Chip.active_cu h _)

theorem Chip.active_groupsDown : c.groupsDown.seq = .active := by
  unfold Chip.groupsDown
  extract_lets d e f
  have hd : d.seq = .active := (Chip.each_keeps (g := Chip.seq) (fun d g => d.seq_setGrp g 3) c).trans h
  have he : e.seq = .active := by
    refine Chip.each_keeps_prop (P := fun d => d.seq = .active) (fun d n hn => ?_) hd
    exact Chip.each_keeps_prop (P := fun d => d.seq = .active) (fun _ _ hx => (Chip.chDone_touch ..).active hx (by decide +kernel)) hn
  have hf : f.seq = .active := (Chip.cqDown_touch ..).active (Chip.active_keyRetry he) (by decide +kernel)
  refine Chip.active_ite ?_ hf
  rw [Chip.seq_put _ _ rfl, Chip.seq_put _ _ rfl, hf]

end

/-! The failure (R139): HELD, its event the newest of the always-on log. -/

theorem Chip.rd_svcPages_reset (c : Chip) {off : Nat} (hlo : 0x10000 ≤ off) (hhi : off < 0x20000) (hnoil : off ≠ R.DBG_NOIL_STATUS) :
    c.svcPages.rd off = regReset off := by
  have hkept : off ≠ R.MBN_GEN ∧ off ≠ R.WHL_TIME_HI := by
    simp only [R.MBN_GEN, R.WHL_TIME_HI]
    omega
  simp only [Chip.svcPages, Chip.each, List.map_cons, List.map_nil, List.foldl_cons, List.foldl_nil]
  rw [Chip.rd_wr_other _ _ _ _ hkept.2, Chip.rd_wr_other _ _ _ _ hkept.1, Chip.rd_wr_other _ _ _ _ hnoil, Chip.rd_resetRegs, if_pos (by omega)]

theorem Chip.rd_svcLost_reset (c : Chip) {off : Nat} (hlo : 0x10000 ≤ off) (hhi : off < 0x20000) (hnoil : off ≠ R.DBG_NOIL_STATUS) :
    c.svcLost.rd off = regReset off := by
  have hput (d : Chip) {f : Fld} (v : Nat) (hf : f.off 0 < 0x10000) : (d.put f v).rd off = d.rd off :=
    Chip.rd_put_other d f v off (by omega)
  rw [← Chip.rd_svcPages_reset c.spliceDrop.jTear.updTear hlo hhi hnoil]
  simp only [Chip.svcLost]
  rw [hput _ _ (by decide), hput _ _ (by decide), hput _ _ (by decide), hput _ _ (by decide)]
  split
  · exact hput _ _ (by decide)
  · rfl

/-- No trace source of a unit's events has a trigger class (R498). -/
def Chip.Untriggered (c : Chip) : Prop := ∀ t ∈ (List.range 9).map (· + 6), c.geti F.DBG_TRt_CTRL_TRIG_CLASS t = 0

theorem Chip.untriggered_enterHeld {c : Chip} (h : c.seq ≠ .held) (cause : Nat) : (c.enterHeld cause).Untriggered := by
  have hreset : ∀ t ∈ (List.range 9).map (· + 6), 0x10000 ≤ F.DBG_TRt_CTRL_TRIG_CLASS.off t ∧ F.DBG_TRt_CTRL_TRIG_CLASS.off t < 0x20000 ∧
      F.DBG_TRt_CTRL_TRIG_CLASS.off t ≠ R.DBG_NOIL_STATUS ∧ wget 19 17 (regReset (F.DBG_TRt_CTRL_TRIG_CLASS.off t)) = 0 := by decide +kernel
  intro t ht
  obtain ⟨hlo, hhi, hnoil, hzero⟩ := hreset t ht
  have hrd : (c.enterHeld cause).rd (F.DBG_TRt_CTRL_TRIG_CLASS.off t) = regReset (F.DBG_TRt_CTRL_TRIG_CLASS.off t) := by
    rw [Chip.enterHeld_eq h, Chip.bootTime, Chip.rd_put_other _ _ _ _ (Nat.ne_of_gt (Nat.lt_of_lt_of_le (by decide) hlo)),
      Chip.rd_put_other _ _ _ _ (Nat.ne_of_gt (Nat.lt_of_lt_of_le (by decide) hlo)), Chip.rd_svcLost_reset _ hlo hhi hnoil]
  exact (congrArg (wget 19 17) hrd).trans hzero

theorem Chip.untriggered_logRec {c : Chip} (h : c.Untriggered) (r : EvRec) : (c.logRec r).Untriggered := by
  have hs : ∀ t ∈ (List.range 9).map (· + 6), spares 0x4 (F.DBG_TRt_CTRL_TRIG_CLASS.off t) = true := by decide +kernel
  exact fun t ht => ((c.logRec_touch r).geti_eq (hs t ht)).trans (h t ht)

theorem Chip.fireEvent_untriggered {c : Chip} (h : c.Untriggered) (unit code : Nat) : c.fireEvent unit code = c := by
  refine List.foldlRecOn (motive := fun d => d = c) _ _ rfl ?_
  rintro d rfl t ht
  simp [h t ht]

/-- An event with the Service domain down and no trigger set is the newest record of the always-on log. -/
theorem Chip.lastAon_log_untriggered {c : Chip} (hdown : c.svcUp = false) (htrig : c.Untriggered) (code unit : Nat) (args : List Byte) :
    (c.log code unit args).lastAon = some code := by
  have hdown' : (c.logRec (c.evRec code unit args)).svcUp = false := by
    rw [Chip.svcUp, (c.logRec_touch _).seq_eq (by decide +kernel)]
    exact hdown
  simp only [Chip.log, Chip.traceEvent, Chip.traceOffer_down hdown', Bool.false_eq_true, if_false,
    Chip.fireEvent_untriggered (Chip.untriggered_logRec htrig _), Chip.lastAon, Chip.logs_logRec_down hdown, Logs.getLast_aonPush]
  rfl

theorem Chip.seq_of_gone {c : Chip} (h : c.gone = true) : c.seq = .held := by
  simp only [Chip.gone, Bool.and_eq_true, beq_iff_eq] at h
  obtain ⟨⟨⟨⟨⟨⟨hseq, -⟩, -⟩, -⟩, -⟩, -⟩, -⟩ := h
  exact hseq

theorem Chip.svcUp_of_gone {c : Chip} (h : c.gone = true) : c.svcUp = false := by simp [Chip.svcUp, Chip.seq_of_gone h]

/-- What spares the sequencer, the boot phase and the state that was lost leaves the chip gone. -/
theorem Touch.gone_eq {pm bm : Nat} {c d : Chip} (h : Touch pm bm c d) (hseq : spares bm R.PWR_STATUS = true) (hphase : spares bm R.GEN_BOOT = true)
    (hparts : [Part.cust, .cores, .hanks, .cry, .spdm].all (fun p => !pm.testBit p.ix) = true) : d.gone = c.gone := by
  have hsame (p : Part) (hp : p ∈ [Part.cust, .cores, .hanks, .cry, .spdm]) : p.same c d := h.same p (by simpa using List.all_eq_true.mp hparts p hp)
  have hph : d.phase = c.phase := h.geti_eq (f := F.GEN_BOOT_PHASE) (i := 0) hphase
  rw [Chip.gone, Chip.gone, h.seq_eq hseq, hph, hsame .cust (by simp), hsame .cores (by simp), hsame .hanks (by simp), hsame .cry (by simp),
    hsame .spdm (by simp)]

/-- A chip that fails is gone, the failure's event last in the always-on log. -/
theorem Chip.instFail_gone {c : Chip} (h : c.seq ≠ .held) (code unit : Nat) (args : List Byte) :
    (c.instFail code unit args).gone = true ∧ (c.instFail code unit args).lastAon = some code := by
  have hseq : (c.zeroize.freezeNoil 3).seq ≠ .held := by
    rw [(Chip.freezeNoil_touch ..).seq_eq (by decide +kernel), (Chip.zeroize_touch c).seq_eq (by decide +kernel)]
    exact h
  have hgone := Chip.gone_enterHeld hseq 3
  exact ⟨((Chip.log_touch ..).gone_eq (by decide +kernel) (by decide +kernel) (by decide +kernel)).trans hgone,
    Chip.lastAon_log_untriggered (Chip.svcUp_of_gone hgone) (Chip.untriggered_enterHeld hseq 3) code unit args⟩

/-- Nothing is traced while the Service domain is down. -/
theorem Chip.trace_down {c : Chip} (h : c.svcUp = false) (t kind arg0 : Nat) (data : List Byte) : c.trace t kind arg0 data = c := by
  simp only [Chip.trace, Chip.traceOffer_down h, Bool.false_eq_true, if_false]

/-- A group's move writes its register and the Noil ring; only its trace can reach the logs. -/
theorem Chip.logs_setGrp_down {c : Chip} (h : c.svcUp = false) (g st : Nat) : (c.setGrp g st).logs = c.logs := by
  unfold Chip.setGrp
  extract_lets old w d
  have hmoved : Touch 0x100 0x40000 c ((d.put F.PWR_GRP_STATUS_STATE (w - old * 4 ^ g + st * 4 ^ g)).noilTrans uPWR 3 5 g old st) := by
    refine .step (Chip.noilTrans_touch ..) (by decide +kernel) (by decide +kernel) (.put (by decide +kernel) ?_)
    exact .when (fun e he => .step (Chip.count_touch ..) (by decide +kernel) (by decide +kernel) he) .refl
  rw [Chip.trace_down (by rw [Chip.svcUp, hmoved.seq_eq (by decide +kernel)]; exact h)]
  exact hmoved.same .logs rfl

/-- The second timeout: the groups' work ends in ACTIVE, so HELD is entered and the event logged there; the groups' codes then change no more of it. -/
theorem says_cryptoPllTimeout : Says.cryptoPllTimeout := by
  refine ⟨fun s hlock => ⟨_, rfl, if_pos (by simp [hlock])⟩, fun s hact hlock htries => ⟨_, rfl, ?_⟩, fun s hact hlock htries => ?_⟩
  · exact (if_neg (by simp [hact, hlock])).trans (if_pos htries)
  · have hfail := Chip.instFail_gone (c := s.chip.groupsDown) (by rw [Chip.active_groupsDown hact]; decide) 0x2301 uPWR []
    refine ⟨_, congrArg (fun c => Host.Outcome.next (s.cutSettled c)) ((if_neg (by simp [hact, hlock])).trans (if_neg htries)), ?_⟩
    refine Chip.each_keeps_prop (P := fun d => d.gone = true ∧ d.lastAon = some 0x2301) (fun d g hd => ?_) hfail
    refine ⟨((d.setGrp_touch g 3).gone_eq (by decide +kernel) (by decide +kernel) (by decide +kernel)).trans hd.1, ?_⟩
    rw [Chip.lastAon, Chip.logs_setGrp_down (Chip.svcUp_of_gone hd.1)]
    exact hd.2

/-- Settles O32, command by command: the frames are those of Laws/, the effects those of `Chip.groupNeed`, `Chip.setGrp` and `Chip.instFail`. -/
theorem cryptoGroupPower : Obligations.CryptoGroupPower :=
  ⟨says_cryptoGroupWake, says_cryptoGroupReady, says_cryptoPllTimeout, says_groupIdlePowerOff, says_cryptoPllHoldExpire, says_pwrForceOn⟩

end Sys2Proof.Machine

/-!
SUPPORT. The statements on the fuse array (spec section 04): every step leaves an array that program pulses alone have changed (R68, R70, R82).
-/

namespace Sys2Proof.Machine

set_option Elab.async false

/-! One word under a pulse. -/

theorem testBit_withBit (v i : Nat) (b : Bool) (j : Nat) : (withBit v i b).testBit j = if j = i then b else v.testBit j := by
  simpa only [bit_eq_testBit] using bit_withBit v i b j

theorem testBit_withBit_true {v j : Nat} (i : Nat) (h : v.testBit j = true) : (withBit v i true).testBit j = true := by
  rw [testBit_withBit, h, ite_self]

/-- A cell set in both of two readings leaves the first within the second. -/
theorem testBit_withBit_imp {v w : Nat} (h : ∀ j, v.testBit j = true → w.testBit j = true) (i j : Nat) :
    (withBit v i true).testBit j = true → (withBit w i true).testBit j = true := by
  rw [testBit_withBit, testBit_withBit]
  split
  · exact id
  · exact h j

/-- A word's cells after a pulse at cell `i` that leaves it as `r` says. -/
def Cells.pulsed (w : Cells) (i : Nat) (r : CellRead) : Cells :=
  match r with
  | .unblown => w
  | .weak => { w with loose := withBit w.loose i true }
  | .blown => { tight := withBit w.tight i true, normal := withBit w.normal i true, loose := withBit w.loose i true }

theorem Cells.le_refl (w : Cells) : w.le w := ⟨fun _ => id, fun _ => id, fun _ => id⟩

theorem Cells.le_trans {u v w : Cells} (h : u.le v) (k : v.le w) : u.le w := by
  obtain ⟨hnormal, htight, hloose⟩ := h
  obtain ⟨knormal, ktight, kloose⟩ := k
  exact ⟨fun i hi => knormal i (hnormal i hi), fun i hi => ktight i (htight i hi), fun i hi => kloose i (hloose i hi)⟩

/-- A pulse returns no cell to 0 at any margin. -/
theorem Cells.le_pulsed (w : Cells) (i : Nat) (r : CellRead) : w.le (w.pulsed i r) := by
  cases r with
  | unblown => exact w.le_refl
  | weak => exact ⟨fun _ => id, fun _ => id, fun _ => testBit_withBit_true i⟩
  | blown => exact ⟨fun _ => testBit_withBit_true i, fun _ => testBit_withBit_true i, fun _ => testBit_withBit_true i⟩

/-- A pulse keeps the order of the margins: it sets a cell at all of them, or at the loose one alone. -/
theorem Cells.ok_pulsed {w : Cells} (h : w.ok) (i : Nat) (r : CellRead) : (w.pulsed i r).ok := by
  obtain ⟨htight, hnormal⟩ := h
  cases r with
  | unblown => exact ⟨htight, hnormal⟩
  | weak => exact ⟨htight, fun j hj => testBit_withBit_true i (hnormal j hj)⟩
  | blown => exact ⟨testBit_withBit_imp htight i, testBit_withBit_imp hnormal i⟩

theorem Cells.ok_blank : Cells.ok {} := ⟨fun i hi => by simp at hi, fun i hi => by simp at hi⟩

/-! The array under a pulse. -/

theorem mem_of_tget?_eq_some {α : Type} {t : Tab α} {k : Nat} {v : α} (h : tget? t k = some v) : (k, v) ∈ t := by
  induction t with
  | nil => cases h
  | cons e t ih =>
    rw [tget?_cons] at h
    split at h
    · next hk =>
      obtain rfl := Option.some.inj h
      exact hk ▸ List.mem_cons_self
    · exact List.mem_cons_of_mem e (ih h)

/-- A word of an array in its form is as an array can hold it, listed or blank. -/
theorem Fuses.ok.at {fu : Fuses} (h : fu.ok) (a : Nat) : (fu.at a).ok := by
  unfold Fuses.at tget
  cases hk : tget? fu.cells a with
  | none => exact Cells.ok_blank
  | some w => exact h.2 _ (mem_of_tget?_eq_some hk)

/-- A pulse changes the entry of its word. -/
theorem Fuses.cut_eq (fu : Fuses) (p : Nat × Nat) (r : CellRead) :
    fu.cut p r = fu ∨ fu.cut p r = { cells := tput fu.cells p.1 ((fu.at p.1).pulsed p.2 r) } := by
  cases r with
  | unblown => exact .inl rfl
  | weak => exact .inr rfl
  | blown => exact .inr rfl

theorem Fuses.at_tput (fu : Fuses) (k : Nat) (w : Cells) (a : Nat) :
    Fuses.at { cells := tput fu.cells k w } a = if a = k then w else fu.at a := by
  unfold Fuses.at tget
  rw [tget?_tput]
  split <;> rfl

theorem Fuses.le_cut (fu : Fuses) (p : Nat × Nat) (r : CellRead) : fu.le (fu.cut p r) := by
  rcases fu.cut_eq p r with h | h <;> rw [h]
  · exact fu.le_refl
  · intro a
    rw [Fuses.at_tput]
    split
    · next ha => exact ha ▸ (fu.at a).le_pulsed p.2 r
    · exact (fu.at a).le_refl

theorem Fuses.ok_cut {fu : Fuses} (hok : fu.ok) (p : Nat × Nat) (r : CellRead) : (fu.cut p r).ok := by
  rcases fu.cut_eq p r with h | h <;> rw [h]
  · exact hok
  · refine ⟨Tab.sorted_tput _ _ _ hok.1, fun e he => ?_⟩
    rcases mem_tput _ _ _ _ he with rfl | he
    · exact Cells.ok_pulsed (hok.at p.1) p.2 r
    · exact hok.2 e he

/-! Arrays that program pulses lead to. -/

/-- One pulse, at some cell, ending in some way. -/
def Fuses.Pulse (a b : Fuses) : Prop := ∃ p r, b = a.cut p r

/-- Any number of pulses: what every step does to the array. -/
abbrev Fuses.Pulses : Fuses → Fuses → Prop := Relation.ReflTransGen Fuses.Pulse

theorem Fuses.Pulses.le {a b : Fuses} (h : a.Pulses b) : a.le b := by
  induction h with
  | refl => exact a.le_refl
  | tail _ hlast ih =>
    obtain ⟨p, r, rfl⟩ := hlast
    exact fun w => Cells.le_trans (ih w) (Fuses.le_cut _ p r w)

theorem Fuses.Pulses.ok {a b : Fuses} (h : a.Pulses b) (hok : a.ok) : b.ok := by
  induction h with
  | refl => exact hok
  | tail _ hlast ih =>
    obtain ⟨p, r, rfl⟩ := hlast
    exact Fuses.ok_cut ih p r

theorem Fuses.Pulses.cut {a b : Fuses} (h : a.Pulses b) (p : Nat × Nat) (r : CellRead) : a.Pulses (b.cut p r) := h.tail ⟨p, r, rfl⟩

/-- A program of whole pulses. -/
theorem Fuses.pulses_blowAll (fu : Fuses) (ps : List (Nat × Nat)) : fu.Pulses (fu.blowAll ps) :=
  List.foldlRecOn ps Fuses.blow .refl fun _ h p _ => h.cut p .blown

/-- A program cut short blows some of its cells, and leaves the next as its pulse got (R82). -/
theorem pulses_settleCut (fu : Fuses) (c : Chip) : fu.Pulses (settleCut fu c).1 := by
  unfold settleCut
  split
  · exact .refl
  · extract_lets d n e r fu' fu''
    change fu.Pulses fu''
    simp only [fu'']
    split
    · exact (fu.pulses_blowAll _).cut _ r
    · exact fu.pulses_blowAll _

/-! The commands that end a program (R81, R86, R94, R95). -/

theorem execOtpProgramDone_pulses (bad : Option Nat) (s : State) :
    ∃ fu c, execOtpProgramDone bad s = .next { s with fuses := fu, chip := c } ∧ s.fuses.Pulses fu := by
  refine ⟨_, _, rfl, ?_⟩
  dsimp only
  split
  · exact .refl
  · split
    · exact .refl
    · split
      · exact Fuses.pulses_blowAll ..
      · exact Fuses.pulses_blowAll ..

theorem execQuenchDone_pulses (bad : Nat) (s : State) :
    ∃ fu c, execQuenchDone bad s = .next { s with fuses := fu, chip := c } ∧ s.fuses.Pulses fu := by
  refine ⟨_, _, rfl, ?_⟩
  dsimp only
  split
  · exact .refl
  · split
    · exact Fuses.pulses_blowAll ..
    · split
      · split
        · exact Fuses.pulses_blowAll ..
        · exact Fuses.pulses_blowAll ..
      · exact Fuses.pulses_blowAll ..

theorem execLcsRecordResume_pulses (bad : Option Nat) (s : State) :
    ∃ fu c, execLcsRecordResume bad s = .next { s with fuses := fu, chip := c } ∧ s.fuses.Pulses fu := by
  refine ⟨_, _, rfl, ?_⟩
  dsimp only
  split
  · exact .refl
  · split
    · exact .refl
    · split
      · exact .refl
      · split
        · split
          · exact .refl
          · exact .refl
        · split
          · exact Fuses.pulses_blowAll ..
          · split
            · exact Fuses.pulses_blowAll ..
            · exact Fuses.pulses_blowAll ..

theorem execLcsPhaseDone_pulses (bad : Option Nat) (s : State) :
    ∃ fu c, execLcsPhaseDone bad s = .next { s with fuses := fu, chip := c } ∧ s.fuses.Pulses fu := by
  refine ⟨_, _, rfl, ?_⟩
  dsimp only
  split
  · exact .refl
  · split
    · exact .refl
    · split
      · exact .refl
      · split
        · exact Fuses.pulses_blowAll ..
        · split
          · exact (Fuses.pulses_blowAll ..).trans (pulses_settleCut ..)
          · exact Fuses.pulses_blowAll ..
          · exact Fuses.pulses_blowAll ..

/-- A pulse of `PORST_N` that is not taken leaves the cells, one that is cuts the program (R26). -/
theorem execPorstNAssert_pulses (taken : Bool) (s : State) :
    ∃ fu c, execPorstNAssert taken s = .next { s with fuses := fu, chip := c } ∧ s.fuses.Pulses fu := by
  cases taken with
  | false => exact ⟨_, _, rfl, .refl⟩
  | true => exact ⟨_, _, rfl, pulses_settleCut s.fuses s.chip.otpLost⟩

/-! Every command, every step. -/

/-- What a command does to the cells: the ends of programs blow theirs, the commands that can cut a program short leave it as its pulse got, and
every other one leaves the array. -/
theorem exec_pulses (i : Instr) (s : State) : ∃ fu c, exec i s = .next { s with fuses := fu, chip := c } ∧ s.fuses.Pulses fu := by
  cases i
  case otpProgramDone bad => exact execOtpProgramDone_pulses bad s
  case quenchDone bad => exact execQuenchDone_pulses bad s
  case lcsRecordResume bad => exact execLcsRecordResume_pulses bad s
  case lcsPhaseDone bad => exact execLcsPhaseDone_pulses bad s
  case porstNAssert taken => exact execPorstNAssert_pulses taken s
  case brownOutReset | snagDecision | tempConversion | sensorCalibration | forceCal | sysrstNPulse | vinFuseOkFall | vinOkFall | rsvReady
      | refclkLost | clockGlitch | sleepReq | pwrShutdown | lcsGo | lcsRestart | integDecide | fetchResp | fetchTimeout | recoveryEnter
      | skeinFrameReceive | configApply | lockstepMismatch | spindleSramUncorrectable | spindleWdtExpire | spindleCodeFault | sramPatrol
      | rovingCoreFence | rovingWdtExpire | coreFence | cryptoGroupReady | cryptoPllTimeout | entropyHealthFail | entropyRetestDone | drbgKatFail
      | laneTestDone | partnerLost | sleepFrame | registerWrite | sleepRequest | lcRequest | dtmRov | dtmSpn | otpPort | lcPort | dmaRequestLine
      | dmaDescriptorDone | dmaPauseDrained | dmaBusError | fencingDone | loaderActivation | updateReset =>
    exact ⟨_, _, rfl, pulses_settleCut ..⟩
  all_goals exact ⟨_, _, rfl, .refl⟩

/-- A step blows cells and does nothing else to the array; while no command waits it leaves it. -/
theorem step_pulses {s t : State} (h : step s = .next t) : s.fuses.Pulses t.fuses := by
  unfold step at h
  split at h
  · obtain rfl := Host.Outcome.next.inj h
    exact .refl
  · next i _ _ =>
    obtain ⟨fu, c, hexec, hpulses⟩ := exec_pulses i s.popped
    obtain rfl := Host.Outcome.next.inj (hexec.symm.trans h)
    exact hpulses

/-- Settles O7: the cells change by pulses alone, and no pulse returns a cell to 0. -/
theorem fusesNeverUnblown : Obligations.FusesNeverUnblown := fun _ _ h => (step_pulses h).le

/-- Settles O8: the cells change by pulses alone, and each pulse keeps the rising order of the words and that of the margins. -/
theorem fusesKeepForm : Obligations.FusesKeepForm := fun _ _ hok h => (step_pulses h).ok hok

theorem Fuses.ok_blank : Fuses.ok {} := ⟨rfl, fun _ he => by simp at he⟩

/-- Settles O4: a fresh part's array lists no word (log entry 4). -/
theorem resetFusesOk : Obligations.ResetFusesOk := Fuses.ok_blank

end Sys2Proof.Machine

/-!
SUPPORT. The statements on the OTP commands and on the life-cycle machine (spec section 04): a transition that waits for
its restart, and a record left unfinished at this start.
-/

namespace Sys2Proof.Machine

set_option Elab.async false

/-! READ while a transition waits for its restart (R80, R94). -/

theorem exec_otpRead_of_opens {s : State} {req : Req} (h : s.chip.opens req R.OTP_CMD true = true) :
    exec (.otpRead req 0x0F75#16) s = .next (s.after (s.chip.wrote req).otpReadWord) :=
  congrArg (fun c => Host.Outcome.next (s.after c)) (Chip.guarded_of_opens _ h)

/-- A transition that has not restarted yet keeps the controller busy (R80). -/
theorem Chip.otpReadWord_of_lcsBusy {c : Chip} (hregion : c.get F.OTP_ADDR_WORD / 512 ≠ 2)
    (hlock : c.otp.rlock (c.get F.OTP_ADDR_WORD / 512) = false) (hbusy : c.get F.LCS_STATUS_BUSY = 1) :
    c.otpReadWord = c.otpAnswer 1 .busy false := by
  simp [Chip.otpReadWord, Chip.otpBusy, hregion, hlock, hbusy]

theorem Chip.result_otpAnswer (c : Chip) (op : Nat) (st : Status) : (c.otpAnswer op st false).get F.OTP_STATUS_RESULT = st.code % 2 ^ 8 :=
  Chip.get_put _ _ _ rfl Nat.one_pos

/-- A chip out of `PORST_N` whose transition is done and has not restarted yet: no program runs, `LCS_STATUS.BUSY` is 1 (R94). -/
def restartDue : State :=
  let chip : Chip := { pins := { porstN := true } }
  { State.reset with chip := (chip.put F.LCS_STATUS_PHASE 5).put F.LCS_STATUS_BUSY 1 }

theorem exec_otpRead_restartDue :
    ∃ c, exec (.otpRead reqSpindle 0x0F75#16) restartDue = .next (restartDue.after c) ∧ c.get F.OTP_STATUS_RESULT = Status.busy.code := by
  refine ⟨_, exec_otpRead_of_opens (by decide +kernel), ?_⟩
  rw [Chip.otpReadWord_of_lcsBusy (by decide +kernel) (by decide +kernel) (by decide +kernel), Chip.result_otpAnswer]
  rfl

/-- Refutes O27: the last clause on READ asks that no program, audit or quench run, and not that no transition wait for its restart. In
`restartDue` every condition named there holds, and READ is answered BUSY (R80), where the clause claims OK. -/
theorem not_otpCommands : ¬ Obligations.OtpCommands := by
  rintro ⟨⟨-, -, -, hread⟩, -⟩
  obtain ⟨c, hc, -, hok, -⟩ := hread restartDue reqSpindle 0x0F75#16 (by decide +kernel) rfl (by decide +kernel)
    (by decide +kernel) (by decide +kernel)
  obtain ⟨d, hd, hbusy⟩ := exec_otpRead_restartDue
  obtain rfl : d = c := congrArg State.chip (Host.Outcome.next.inj (hd.symm.trans hc))
  rw [hbusy] at hok
  exact absurd hok (by decide)

/-! A record left unfinished at this start (R95). -/

/-- A stuck record waits for the next start: sensing ends without it, whatever the rail. -/
theorem exec_lcsRecordResume_stuck {s : State} {k : Nat} (hrecord : s.chip.lcs.record = some k) (hpending : s.chip.lcs.pending = true)
    (hseq : s.chip.seq = .sense) (hquench : s.chip.otp.quenching = false) (hstuck : s.chip.lcs.stuck = true) (bad : Option Nat) :
    exec (.lcsRecordResume bad) s = .next (s.after s.chip.senseEnd) := by
  change Host.Outcome.next _ = _
  simp [hrecord, hpending, hseq, hquench, hstuck, State.after]

/-- A chip in SENSE with a transition from PROD to SCRAP pending that was left unfinished at this start, the quench having failed (R86), and the
rail outside the fuse window since. -/
def stuckRecord : State :=
  let chip : Chip := { lcs := { record := some 0, source := lcPROD, target := lcSCRAP, pending := true, stuck := true }, pins := { porstN := true } }
  { State.reset with chip := chip.put F.PWR_STATUS_VIN_FUSE_OK 0 }

/-- The end of sensing notes no wait for the rail. -/
theorem exec_lcsRecordResume_stuckRecord :
    ∃ c, exec (.lcsRecordResume none) stuckRecord = .next (stuckRecord.after c) ∧ c.lcs.waited = false :=
  ⟨_, exec_lcsRecordResume_stuck (k := 0) rfl rfl (by decide +kernel) rfl rfl none, by decide +kernel⟩

/-- Refutes O28: the clause on a record that waits for the rail does not ask that the record be still to be finished at this start. In
`stuckRecord` every condition named there holds, and sensing ends (R95), where the clause claims that the wait is noted. -/
theorem not_lifeCycleMoves : ¬ Obligations.LifeCycleMoves := by
  rintro ⟨-, ⟨-, hwaits, -⟩, -⟩
  obtain ⟨fu, c, hc, -, hwaited, -⟩ := hwaits stuckRecord none rfl rfl (by decide +kernel) rfl (by decide +kernel)
  obtain ⟨d, hd, hunnoted⟩ := exec_lcsRecordResume_stuckRecord
  obtain rfl : d = c := congrArg State.chip (Host.Outcome.next.inj (hd.symm.trans hc))
  rw [hunnoted] at hwaited
  cases hwaited

end Sys2Proof.Machine

/-!
SUPPORT. The statement on the boot phases (spec section 05): what HELD keeps of the boot record.
-/

namespace Sys2Proof.Machine

set_option Elab.async false

/-- The reading back of a cut program leaves the boot record. -/
theorem State.cutAfter_boot (s : State) (c : Chip) : (s.cutAfter c).chip.boot = c.boot :=
  (Chip.settleCut_touch s.fuses c).same .boot rfl

/-- A chip in SERVICE and INTEG_DECIDE that waits for region 3 from its partner, while an earlier decision has left region 5 blank (Table 4.4). -/
def region5Blank : State :=
  let chip : Chip := { otp := { failed := [3], atStart := [3], fetching := [3] }, boot := { region5Lost := true } }
  { State.reset with chip := (chip.put F.PWR_STATUS_SEQ_STATE Seq.service.code).put F.GEN_BOOT_PHASE 0x11 }

/-- Region 3 is not accepted and ROM holds; the loss of the Service domain keeps the decision on region 5. -/
theorem exec_fetchTimeout_region5Blank :
    ∃ d, exec .fetchTimeout region5Blank = .next (region5Blank.cutAfter d) ∧ d.seq = .held ∧ d.boot = { region5Lost := true } :=
  ⟨_, rfl, by decide +kernel⟩

/-- Refutes O29: the clause on a region 3 that no partner sends says that HELD leaves the boot record empty, and does not ask that region 5 be
undecided. In `region5Blank` every condition named there holds, and HELD is entered with the decision to leave region 5 blank still kept. -/
theorem not_bootPhases : ¬ Obligations.BootPhases := by
  rintro ⟨-, -, -, ⟨-, -, hholds⟩, -⟩
  obtain ⟨c, hc, -, -, -, hempty⟩ := hholds region5Blank (by decide +kernel) (by decide +kernel) rfl rfl
  obtain ⟨d, hd, -, hkept⟩ := exec_fetchTimeout_region5Blank
  have hstate : region5Blank.cutAfter d = region5Blank.cutAfter c := Host.Outcome.next.inj (hd.symm.trans hc)
  have hboot : d.boot = c.boot := by rw [← State.cutAfter_boot region5Blank d, hstate, State.cutAfter_boot]
  rw [hkept, hempty] at hboot
  exact absurd (congrArg Boot.region5Lost hboot) (by decide)

end Sys2Proof.Machine

/-!
SUPPORT. The statements on cores, firmware and mailboxes (spec section 06): the SRAMs, the one form of the memories, the lock of a mailbox,
and a fragment that Roving does not take.
-/

namespace Sys2Proof.Machine

set_option Elab.async false

/-! Spindle and Roving SRAM (R135, R138). -/

theorem Chip.spn_spnWr (c : Chip) (a : Nat) (bs : List Byte) :
    (c.spnWr a bs).mem.spn = if a + bs.length ≤ 0x100000 then memWrs 0#8 c.mem.spn a bs else c.mem.spn := by
  unfold Chip.spnWr
  split <;> rfl

theorem Chip.rov_rovWr (c : Chip) (a : Nat) (bs : List Byte) :
    (c.rovWr a bs).mem.rov = if a + bs.length ≤ 0x600000 then memWrs 0#8 c.mem.rov a bs else c.mem.rov := by
  unfold Chip.rovWr
  split <;> rfl

/-- A byte read after a write that takes place under a condition alone. -/
theorem memRd_ite_memWrs (p : Prop) [Decidable p] (d : Byte) (m : List Host.Cell) (a : Nat) (bs : List Byte) (x : Nat) :
    memRd d (if p then memWrs d m a bs else m) x =
      if p ∧ a ≤ x ∧ x < a + bs.length then bs.getD (x - a) d else memRd d m x := by
  by_cases hp : p
  · simp only [hp, if_true, true_and, memRd_memWrs]
  · simp only [hp, if_false, false_and]

/-- Settles O15: each SRAM takes the whole write or none of it, and a write taken is read back byte by byte. -/
theorem sramWrites : Obligations.SramWrites := fun c a bs x =>
  ⟨by rw [Chip.spn_spnWr, memRd_ite_memWrs], by rw [Chip.rov_rovWr, memRd_ite_memWrs]⟩

/-! The one form of the memories (log entry 120). -/

section
variable {c : Chip} (h : c.memOk)
include h

theorem Chip.memOk_spnWr (a : Nat) (bs : List Byte) : (c.spnWr a bs).memOk := by
  obtain ⟨hspn, hrov, hnor⟩ := h
  unfold Chip.spnWr
  split
  · exact ⟨memWf_memWrs a bs hspn, hrov, hnor⟩
  · exact ⟨hspn, hrov, hnor⟩

theorem Chip.memOk_rovWr (a : Nat) (bs : List Byte) : (c.rovWr a bs).memOk := by
  obtain ⟨hspn, hrov, hnor⟩ := h
  unfold Chip.rovWr
  split
  · exact ⟨hspn, memWf_memWrs a bs hrov, hnor⟩
  · exact ⟨hspn, hrov, hnor⟩

theorem Chip.memOk_norWr (a : Nat) (bs : List Byte) : (c.norWr a bs).memOk := by
  obtain ⟨hspn, hrov, hnor⟩ := h
  unfold Chip.norWr
  split
  · exact ⟨hspn, hrov, memWf_norProg a bs hnor⟩
  · exact ⟨hspn, hrov, hnor⟩

theorem Chip.memOk_norErase (a b : Nat) : (c.norErase a b).memOk := by
  obtain ⟨hspn, hrov, hnor⟩ := h
  exact ⟨hspn, hrov, memWf_memClear a b hnor⟩

end

/-- Settles O17: a write, a program and an erase each change one memory, and keep its form. -/
theorem memoriesKeepForm : Obligations.MemoriesKeepForm := fun _ a b bs h =>
  ⟨Chip.memOk_spnWr h a bs, Chip.memOk_rovWr h a bs, Chip.memOk_norWr h a bs, Chip.memOk_norErase h a b⟩

/-! Mailbox fields: a field of MBS or MBN is the same bits of the same copies on either page. -/

theorem mbF_ok (ns : Bool) (f : Fld) : (mbF ns f).ok = f.ok := by cases ns <;> rfl

theorem mbF_count (ns : Bool) (f : Fld) : (mbF ns f).count = f.count := by cases ns <;> rfl

theorem mbF_width (ns : Bool) (f : Fld) : (mbF ns f).hi + 1 - (mbF ns f).lo = f.hi + 1 - f.lo := by cases ns <;> rfl

theorem mbF_apart {ns : Bool} {f g : Fld} (h : f.hi < g.lo ∨ g.hi < f.lo) (n : Nat) : (mbF ns f).apart (mbF ns g) n n = true := by
  cases ns <;> simp [mbF, Fld.apart, or_assoc, h]

/-- A mailbox field set reads back, cut to its width. -/
theorem Chip.mb_mbPut (c : Chip) (ns : Bool) {n : Nat} {f : Fld} (v : Nat) (hok : f.ok = true) (hn : n < f.count) :
    (c.mbPut ns n f v).mb ns n f = v % 2 ^ (f.hi + 1 - f.lo) := by
  rw [← mbF_width ns f]
  exact Chip.geti_puti c _ n v (by rwa [mbF_ok]) (by rwa [mbF_count])

/-- A mailbox field set leaves other bits of the mailbox. -/
theorem Chip.mb_mbPut_other (c : Chip) (ns : Bool) (n : Nat) {f g : Fld} (v : Nat) (hok : f.ok = true) (h : f.hi < g.lo ∨ g.hi < f.lo) :
    (c.mbPut ns n g v).mb ns n f = c.mb ns n f :=
  Chip.geti_puti_other c _ _ n n v (by rwa [mbF_ok]) (mbF_apart h n)

/-- A mailbox field set leaves the other registers. -/
theorem Chip.rd_mbPut_other (c : Chip) (ns : Bool) (n : Nat) (f : Fld) (v : Nat) {off : Nat} (h : off ≠ (mbF ns f).off n) :
    (c.mbPut ns n f v).rd off = c.rd off := by
  unfold Chip.mbPut Chip.puti
  split
  · exact Chip.rd_wr_other _ _ _ _ h
  · rfl

theorem Fld.holds_off {f : Fld} {i : Nat} (hi : i < f.count) : f.holds (f.off i) = true := by
  unfold Fld.holds Fld.off copyAt
  split
  · next hstride => simp [hstride]
  · next hstride => simp [Nat.mul_div_cancel_left _ (Nat.pos_of_ne_zero hstride), hi]

/-- A register that is no mailbox's status is not that of this one. -/
theorem ne_mbStatus_off {ns : Bool} {n off : Nat} (hn : n < 16) (h : (F.MBS_STATUSn_OWNER.holds off || F.MBN_STATUSn_OWNER.holds off) = false) :
    off ≠ (mbF ns F.MBS_STATUSn_OWNER).off n := by
  rintro rfl
  obtain ⟨hmbs, hmbn⟩ := Bool.or_eq_false_iff.mp h
  cases ns
  · exact absurd (Fld.holds_off (f := F.MBS_STATUSn_OWNER) hn) (ne_true_of_eq_false hmbs)
  · exact absurd (Fld.holds_off (f := F.MBN_STATUSn_OWNER) hn) (ne_true_of_eq_false hmbn)

/-! The lock of a mailbox (R147, R149). -/

theorem Chip.rd_mbTouch (c : Chip) (req : Req) (ns : Bool) (n off : Nat) : (c.mbTouch req ns n).rd off = c.rd off :=
  ((c.mbTouch_touch req ns n).2 off).resolve_left (not_covers_of_spares rfl)

theorem Chip.mb_mbTouch (c : Chip) (req : Req) (ns : Bool) (n : Nat) (f : Fld) : (c.mbTouch req ns n).mb ns n f = c.mb ns n f :=
  congrArg (wget (mbF ns f).hi (mbF ns f).lo) (c.rd_mbTouch req ns n _)

/-- Another's access leaves the lock timeout of the owner running. -/
theorem Chip.mbTouch_of_not_owner {c : Chip} {req : Req} {ns : Bool} {n : Nat} (h : c.mbOwner ns n ≠ req.toNat) : c.mbTouch req ns n = c :=
  if_neg (Ne.symm h)

/-- Among the numbers an access may carry, the external ones are those below Roving core 0's. -/
theorem classOf_eq_external_iff {req : Req} (hreq : badReq req = false) : classOf req = .external ↔ 1 ≤ req.toNat ∧ req.toNat < 0xF0 := by
  simp only [badReq, Bool.or_eq_false_iff, beq_eq_false_iff_ne, Bool.and_eq_false_iff, decide_eq_false_iff_not] at hreq
  simp only [classOf, Bool.and_eq_true, decide_eq_true_eq]
  split
  · simp; omega
  · split
    · simp; omega
    · simp; omega

/-- Eligible are the external class on MBN and the Roving class on the pool (Table 6.7). -/
theorem mbEligible_iff {req : Req} (hreq : badReq req = false) (ns : Bool) (n : Nat) :
    mbEligible req ns n = true ↔ (ns = true ∧ 1 ≤ req.toNat ∧ req.toNat < 0xF0) ∨ (ns = false ∧ 12 ≤ n ∧ classOf req = .roving) := by
  cases ns
  · simp [mbEligible]
  · simp [mbEligible, hreq, classOf_eq_external_iff hreq]

/-- The mailbox locked by its reader. -/
def Chip.mbLocked (c : Chip) (req : Req) (ns : Bool) (n : Nat) : Chip :=
  ((c.mbPut ns n F.MBS_STATUSn_STATE 1).mbPut ns n F.MBS_STATUSn_OWNER req.toNat).mbTouch req ns n

theorem Chip.mbLockTake_of_free {c : Chip} {req : Req} {ns : Bool} {n : Nat} (hfree : c.mbSt ns n = 0) (helig : mbEligible req ns n = true) :
    c.mbLockTake req ns n = (c.mbLocked req ns n, 0) := if_pos (by simp [hfree, helig])

theorem Chip.mbLockTake_of_held {c : Chip} {req : Req} {ns : Bool} {n : Nat} (h : c.mbSt ns n ≠ 0 ∨ mbEligible req ns n = false) :
    c.mbLockTake req ns n = (c.mbTouch req ns n, if c.mbOwner ns n = req.toNat then 0 else c.mbOwner ns n) :=
  if_neg (by rcases h with h | h <;> simp [h])

/-- A read of the lock by another than the owner, where it does not take it. -/
theorem Chip.mbLockTake_of_other {c : Chip} {req : Req} {ns : Bool} {n : Nat} (h : c.mbSt ns n ≠ 0 ∨ mbEligible req ns n = false)
    (howner : c.mbOwner ns n ≠ req.toNat) : c.mbLockTake req ns n = (c, c.mbOwner ns n) := by
  rw [Chip.mbLockTake_of_held h, Chip.mbTouch_of_not_owner howner, if_neg howner]

theorem Chip.mbSt_mbLocked (c : Chip) (req : Req) (ns : Bool) {n : Nat} (hn : n < 16) : (c.mbLocked req ns n).mbSt ns n = 1 := by
  rw [Chip.mbLocked, Chip.mbSt, Chip.mb_mbTouch, Chip.mb_mbPut_other _ _ _ _ rfl (by decide), Chip.mb_mbPut _ _ _ rfl hn]
  rfl

theorem Chip.mbOwner_mbLocked (c : Chip) (req : Req) (ns : Bool) {n : Nat} (hn : n < 16) : (c.mbLocked req ns n).mbOwner ns n = req.toNat := by
  rw [Chip.mbLocked, Chip.mbOwner, Chip.mb_mbTouch, Chip.mb_mbPut _ _ _ rfl hn]
  exact Nat.mod_eq_of_lt req.isLt

theorem Chip.tx_mbLocked (c : Chip) (req : Req) (ns : Bool) (n : Nat) : (c.mbLocked req ns n).tx = c.tx :=
  ((Chip.mbTouch_touch ..).same .tx rfl).trans ((Chip.puti_same _ _ _ _ .tx).trans (Chip.puti_same _ _ _ _ .tx))

theorem Chip.rd_mbLocked (c : Chip) (req : Req) (ns : Bool) {n off : Nat} (hn : n < 16)
    (h : (F.MBS_STATUSn_OWNER.holds off || F.MBN_STATUSn_OWNER.holds off) = false) : (c.mbLocked req ns n).rd off = c.rd off := by
  have howner : off ≠ (mbF ns F.MBS_STATUSn_OWNER).off n := ne_mbStatus_off hn h
  have hstate : off ≠ (mbF ns F.MBS_STATUSn_STATE).off n := by cases ns <;> exact howner
  rw [Chip.mbLocked, Chip.rd_mbTouch, Chip.rd_mbPut_other _ _ _ _ _ howner, Chip.rd_mbPut_other _ _ _ _ _ hstate]

theorem Chip.not_badReq_of_opens {c : Chip} {req : Req} {off : Nat} {wr : Bool} (h : c.opens req off wr = true) : badReq req = false := by
  simp only [Chip.opens, Bool.and_eq_true, Bool.not_eq_true'] at h
  obtain ⟨⟨hreq, -⟩, -⟩ := h
  exact hreq

/-- A granted read of a lock: the move of `Chip.mbLockTake`, and its answer on the fabric. -/
theorem exec_mbLockRead_of_opens {s : State} {req : Req} {ns : Bool} {n : Nat} (h : s.chip.opens req (mbLockOff ns n) false = true) :
    exec (.mbLockRead req ns n) s =
      .next (s.after ((s.chip.mbLockTake req ns n).1.respond req true (s.chip.mbLockTake req ns n).2)) :=
  State.on_guarded_of_opens _ h

/-- Settles O23: the lock is taken where the mailbox is FREE and the reader eligible; else the owner's read restarts its timeout and another's
does nothing. -/
theorem lockRead : Obligations.LockRead := by
  intro s req ns n hn hopens
  have hreq : badReq req = false := Chip.not_badReq_of_opens hopens
  refine ⟨mbEligible_iff hreq ns n, _, exec_mbLockRead_of_opens hopens, fun hfree helig => ?_, fun hheld howner => ?_,
    fun hheld howner => ?_, fun helig howner => ?_⟩
  · rw [Chip.mbLockTake_of_free hfree helig]
    refine ⟨Chip.mbSt_mbLocked _ _ _ hn, Chip.mbOwner_mbLocked _ _ _ hn, ?_, fun off hoff => Chip.rd_mbLocked _ _ _ hn hoff⟩
    exact congrArg (· ++ [Out.fabric req true 0]) (Chip.tx_mbLocked ..)
  · rw [Chip.mbLockTake_of_held (.inl hheld), if_pos howner]
  · rw [Chip.mbLockTake_of_other (.inl hheld) howner]
  · rw [Chip.mbLockTake_of_other (.inr helig) howner]

/-! A fragment that Roving answers at once (R158). -/

/-- A chip in SERVICE with Roving core 0 RUNNING and MBN mailbox 0 LOCKED by external requester 1, its words still 0: as a fragment, `PROTO` 0,
which Table 6.11 reserves. -/
def strayFragment : State :=
  let regs : List (Fld × Nat) := [(F.PWR_STATUS_SEQ_STATE, 2), (F.COR_CORE_STATUSn_STATE, 1), (F.MBN_STATUSn_STATE, 1), (F.MBN_STATUSn_OWNER, 1)]
  let chip : Chip := { pins := { porstN := true } }
  { State.reset with chip := chip.each regs fun c p => c.put p.1 p.2 }

/-- Core 0 is free to take the fragment, and answers BAD_ARG: the mailbox is REPLIED. -/
theorem exec_mbGo_strayFragment : ∃ c, exec (.mbGo 1#8 true 0 1) strayFragment = .next (strayFragment.after c) ∧ c.mbSt true 0 = 3 :=
  ⟨_, rfl, by decide +kernel⟩

/-- Refutes O33: the clause on GO of an MBN mailbox says that the mailbox is FULL after it, and does not ask that Roving leave it so. In
`strayFragment` every condition named there holds, and the core that takes the fragment answers it in the same step (R158). -/
theorem not_mailboxMoves : ¬ Obligations.MailboxMoves := by
  rintro ⟨-, -, ⟨-, hfull, -⟩, -⟩
  obtain ⟨c, hc, hst, -⟩ := hfull strayFragment 1#8 true 0 1 (by decide +kernel) (by decide) rfl (by decide +kernel) (by decide +kernel)
    (by decide) (by decide)
  obtain ⟨d, hd, hreplied⟩ := exec_mbGo_strayFragment
  obtain rfl : d = c := congrArg State.chip (Host.Outcome.next.inj (hd.symm.trans hc))
  rw [hst] at hreplied
  exact absurd hreplied (by decide)

end Sys2Proof.Machine

/-!
SUPPORT. The statements on the Bobbin ring and on Custody's frames, journal and patrols (spec section 07).
-/

namespace Sys2Proof.Machine

/-- While the Service domain is down nothing follows of itself: of a chip that has a thing noted idle then, a command's own effect is read off the
state it answers. -/
theorem Chip.eq_of_next_settled {s : State} {o : Host.Outcome State Fault Refusal} {c d : Chip} (hc : o = .next (s.settled c))
    (hd : o = .next (s.settled d)) (hdown : d.svcUp = false) (hidle : d.pwr.idle ≠ []) : c = d := by
  have hsettle : c.settle = d := calc
    c.settle = d.settle := congrArg State.chip (Host.Outcome.next.inj (hc.symm.trans hd))
    _ = d := by rw [Chip.settle, hdown, if_neg Bool.false_ne_true]
  exact (Chip.eq_settle_of_idle (by rwa [hsettle]) (by rwa [hsettle])).trans hsettle

/-! Two Custody commands of one number. -/

/-- A chip in SENSE that leads alone (HX4, phase 0x40), with a COMMIT of Bobbin 5 the one descriptor of its ring. Bobbin 5 is VERIFIED, and a
COMMIT of Bobbin 7 is still in flight under the number the next command takes, with no Bobbin left to wait for. -/
def sameNumber : State :=
  let regs : List (Fld × Nat) := [(F.GEN_BOOT_PHASE, 0x40), (F.BOB_CTRL_EN, 1), (F.BOB_CQ_TAIL_IDX, 1), (F.BOB_STATUS_OPEN, 1)]
  let earlier : CmdRun := { id := 1, op := 4, tag := 0, irq := false, first := 7, last := 7 }
  let chip : Chip :=
    { mem := { spn := [(0, 4), (4, 5), (8, 5)] }
      cust := { bobs := [(5, { cls := clsFLEECE, st := 3, hank := 0, epoch := 1 })], cmds := [earlier], nextCmd := 1 }
      pwr := { idle := [(0, 0)] } }
  { State.reset with chip := chip.each regs fun c p => c.put p.1 p.2 }

/-- The COMMIT looks its command up by number and finds the earlier one, so it writes no record and nothing of the new command waits. -/
theorem exec_commit_sameNumber :
    ∃ d, exec .commit sameNumber = .next (sameNumber.settled d) ∧ d.svcUp = false ∧ d.pwr.idle ≠ [] ∧
      d.cust.cmds.any (fun r => r.holds == 1) = false :=
  ⟨_, rfl, by decide +kernel, by decide +kernel, by decide +kernel⟩

/-- Refutes O51: the last clause on COMMIT says that the command waits for its one record, and does not ask that no command in flight have its
number. In `sameNumber` every condition named there holds, and no command waits for a record. -/
theorem not_custodyRing : ¬ Obligations.CustodyRing := by
  rintro ⟨-, -, -, -, -, ⟨-, -, hrecord⟩, -, -, -, -, -, -, -, -⟩
  obtain ⟨c, hc, hwaits⟩ := hrecord sameNumber (by decide +kernel) (by decide +kernel) (by decide +kernel) (by decide +kernel) (by decide +kernel)
  obtain ⟨d, hd, hdown, hidle, hnone⟩ := exec_commit_sameNumber
  obtain rfl := Chip.eq_of_next_settled hc hd hdown hidle
  simp only [List.any_eq_true, List.any_eq_false, Bool.and_eq_true] at hwaits hnone
  obtain ⟨r, hr, ⟨-, hholds⟩, -⟩ := hwaits
  exact hnone r hr hholds

/-! A usage limit reported while the Service domain is down. -/

/-- A chip in SENSE that leads alone (HX4, phase 0x40), with Bobbin 5 at epoch 9 and its limit not reached. -/
def darkLead : State :=
  let chip : Chip :=
    { cust := { bobs := [(5, { cls := clsLINK, hank := 0, epoch := 9 })] }
      pwr := { idle := [(0, 0)] } }
  { State.reset with chip := chip.put F.GEN_BOOT_PHASE 0x40 }

/-- The ACK of R190 that reports Bobbin 5's limit reached at that epoch. -/
def limitFrame : WarpFrame := { op := 0x87, result := Status.limitReached.code, sub := 0, bobbin := 5, epoch := 9 }

/-- With the Service domain down the report is not taken. -/
theorem exec_limitReport_darkLead : exec (.limitReport 0 limitFrame) darkLead = .next (darkLead.settled darkLead.chip) := by
  have hdown : darkLead.chip.svcUp = false := by decide +kernel
  change Host.Outcome.next _ = _
  simp [Chip.report, hdown, State.settled, State.after]

/-- Refutes O52: the last clause on LIMIT_REPORT asks that the instance lead, and not that its Service domain be up, without which the clause before
it says that nothing changes. In `darkLead` the instance leads with the domain down, and `LIMIT_HIT` of the Bobbin reported stays 0. -/
theorem not_custodyEvents : ¬ Obligations.CustodyEvents := by
  rintro ⟨-, -, -, -, -, -, -, ⟨-, -, hlead⟩, -⟩
  obtain ⟨c, hc, hhit⟩ := hlead darkLead 0 limitFrame (by decide +kernel) (by decide +kernel)
  obtain rfl := Chip.eq_of_next_settled hc exec_limitReport_darkLead (by decide +kernel) (by decide +kernel)
  exact absurd hhit (by decide +kernel)

end Sys2Proof.Machine

/-!
SUPPORT. The statements on Whorl time and launches (spec section 08): markers, alignment and cross-package offset, and a lease taken late in a
launch.
-/

namespace Sys2Proof.Machine

set_option Elab.async false

/-! Markers sent (R205). -/

/-- The master that sends markers with the `ADJ` of this slot: what it does not send on is still to be corrected (R208). -/
def Chip.adjTaken (c : Chip) : Chip :=
  { c with whl := { c.whl with
    adj := c.adjNow, left := if c.get F.WHL_STATUS_XPKG_ALIGNED = 1 then c.whl.left else c.whl.left - c.adjNow } }

/-- The bytes of the master's own marker (Table 8.1). -/
def Chip.ownMarker (c : Chip) : List Byte :=
  markerBytes c.time 0 (c.adjNow % (65536 : Int)).toNat c.node (c.get F.WHL_STATUS_XPKG_ALIGNED)

theorem Chip.markerOut_of_silent {c : Chip}
    (h : c.svcUp = false ∨ c.get F.WHL_STATUS_IS_MASTER = 0 ∨ c.get F.WHL_CTRL_MARKER_EN = 0 ∨ c.get F.SKN_CTRL_RING_EN = 0) :
    c.markerOut = c :=
  if_pos (by rcases h with h | h | h | h <;> simp [h])

theorem Chip.markerOut_of_master {c : Chip} (hup : c.svcUp = true) (hmaster : c.get F.WHL_STATUS_IS_MASTER = 1)
    (hmark : c.get F.WHL_CTRL_MARKER_EN = 1) (hring : c.get F.SKN_CTRL_RING_EN = 1) :
    c.markerOut = (c.adjTaken.send (.marker false c.ownMarker)).send (.marker true c.ownMarker) :=
  if_neg (by simp [hup, hmaster, hmark, hring])

theorem says_markerEmit : Says.markerEmit := by
  refine ⟨fun s => ?_, fun s hsilent => ⟨_, rfl, Chip.markerOut_of_silent hsilent⟩, fun s hup hmaster hmark hring => ?_⟩
  · exact exists_only_of_touch (execMarkerEmit_touch s) (by decide +kernel) (by decide +kernel)
  · refine ⟨_, congrArg (fun c => Host.Outcome.next (s.settled c)) (Chip.markerOut_of_master hup hmaster hmark hring), ?_, rfl⟩
    exact List.append_assoc ..

/-! The alignment state moved, and events (Table 8.2). -/

theorem Chip.whl_log (c : Chip) (code unit : Nat) (args : List Byte) : (c.log code unit args).whl = c.whl :=
  (Chip.log_touch c code unit args).same .whl rfl

theorem Chip.whl_alignSet (c : Chip) (st : Nat) : (c.alignSet st).whl = c.whl := (Chip.alignSet_touch c st).same .whl rfl

/-- A field of a register no event changes reads as before an event. -/
theorem Chip.get_log (c : Chip) (code unit : Nat) (args : List Byte) {f : Fld}
    (hf : spares 0x180000000000000000000000000000000000000000000000000000000004 (f.off 0) = true) : (c.log code unit args).get f = c.get f :=
  (Chip.log_touch c code unit args).geti_eq hf

/-- The alignment state set: beside it, what the move traces. -/
theorem Chip.alignSet_touch_put (c : Chip) (st : Nat) :
    Touch 0x108 0x180000000000000000000000000000000000000000000000000000000004 (c.put F.WHL_STATUS_ALIGN st) (c.alignSet st) :=
  .step (Chip.trace_touch ..) (by decide +kernel) (by decide +kernel)
    (.step (Chip.noilTrans_touch ..) (by decide +kernel) (by decide +kernel) .refl)

theorem Chip.align_alignSet (c : Chip) (st : Nat) : (c.alignSet st).get F.WHL_STATUS_ALIGN = st % 4 :=
  ((c.alignSet_touch_put st).geti_eq (by decide +kernel)).trans (Chip.get_put _ _ _ rfl Nat.one_pos)

/-! Markers received (R205, R206). -/

/-- The marker last taken as the time master's: its slot, its `ADJ`, its sender, and the sender's cross-package alignment. -/
def Chip.lastMark (c : Chip) : Nat × Int × Nat × Nat := (c.whl.seen, c.whl.adj, c.get F.WHL_STATUS_MASTER, c.get F.WHL_STATUS_XPKG_ALIGNED)

theorem Touch.lastMark_eq {pm bm : Nat} {c d : Chip} (h : Touch pm bm c d) (hseen : d.whl.seen = c.whl.seen) (hadj : d.whl.adj = c.whl.adj)
    (hs : spares bm R.WHL_STATUS = true) : d.lastMark = c.lastMark := by
  have hmaster : d.get F.WHL_STATUS_MASTER = c.get F.WHL_STATUS_MASTER := h.geti_eq hs
  have haligned : d.get F.WHL_STATUS_XPKG_ALIGNED = c.get F.WHL_STATUS_XPKG_ALIGNED := h.geti_eq hs
  rw [Chip.lastMark, Chip.lastMark, hseen, hadj, hmaster, haligned]

theorem Chip.lastMark_log (c : Chip) (code unit : Nat) (args : List Byte) : (c.log code unit args).lastMark = c.lastMark :=
  (Chip.log_touch c code unit args).lastMark_eq (congrArg Whl.seen (c.whl_log ..)) (congrArg Whl.adj (c.whl_log ..)) (by decide +kernel)

theorem Chip.lastMark_alignSet (c : Chip) (st : Nat) : (c.alignSet st).lastMark = c.lastMark := by
  have hkept : (c.put F.WHL_STATUS_ALIGN st).whl = c.whl := Chip.put_same _ _ _ .whl
  have hput : (c.put F.WHL_STATUS_ALIGN st).lastMark = c.lastMark := by
    rw [Chip.lastMark, hkept, Chip.get_put_other _ _ _ _ rfl rfl, Chip.get_put_other _ _ _ _ rfl rfl, Chip.lastMark]
  have hwhl : (c.alignSet st).whl = (c.put F.WHL_STATUS_ALIGN st).whl := (c.alignSet_touch_put st).same .whl rfl
  exact ((c.alignSet_touch_put st).lastMark_eq (congrArg Whl.seen hwhl) (congrArg Whl.adj hwhl) (by decide +kernel)).trans hput

theorem Chip.lastMark_correct (c : Chip) (diff : Int) : (c.correct diff).lastMark = c.lastMark := by
  have hwhl : (c.correct diff).whl = { c.whl with corr := diff, good := 0 } := Chip.put_same _ _ _ .whl
  exact (Chip.correct_touch c diff).lastMark_eq (by rw [hwhl]) (by rw [hwhl]) (by decide +kernel)

/-- The state machine of Table 8.2 decides on a marker by the alignment state; the marker taken stays the last one. -/
theorem Chip.lastMark_markerDiff (c : Chip) (diff : Int) (src : Nat) : (c.markerDiff diff src).lastMark = c.lastMark := by
  unfold Chip.markerDiff
  extract_lets d small e
  have hd : d.lastMark = c.lastMark := by
    have ht : Touch 0x0 0x10000000000000000 c d := .put (by decide +kernel) .refl
    exact ht.lastMark_eq (congrArg Whl.seen (ht.same .whl rfl)) (congrArg Whl.adj (ht.same .whl rfl)) (by decide +kernel)
  have hgood (x : Chip) : Chip.lastMark { x with whl := { x.whl with good := 1 } } = x.lastMark := rfl
  rw [← hd]
  split
  · rfl
  · split
    case h_1 =>
      have he : e.lastMark = d.lastMark := d.lastMark_alignSet 1
      split
      · exact (hgood e).trans he
      · exact (e.lastMark_correct diff).trans he
    case h_2 =>
      split
      · exact d.lastMark_correct diff
      · split
        · exact hgood d
        · exact (Chip.lastMark_log ..).trans (d.lastMark_alignSet 2)
    case h_3 =>
      split
      · rfl
      · exact (Chip.lastMark_log ..).trans ((Chip.lastMark_correct _ diff).trans (d.lastMark_alignSet 1))

/-- A marker sent on, this node's delay and its segment's added (R205). -/
def Chip.markerPassed (c : Chip) (cc : Bool) (b : List Byte) : Chip :=
  c.send (.marker cc (markerBytes (numAt b 0 8) ((numAt b 8 2 + (if cc then c.whl.delayCc else c.whl.delay)) % 65536) (numAt b 10 2)
    (numAt b 12 1) (numAt b 13 1)))

/-- A marker taken: its sender is the time master in force. -/
def Chip.markerTaken (c : Chip) (b : List Byte) : Chip :=
  ({ c with whl := { c.whl with seen := c.slot, adj := signed 16 (numAt b 10 2) } }.put F.WHL_STATUS_MASTER (numAt b 12 1)).put
    F.WHL_STATUS_XPKG_ALIGNED (numAt b 13 1 % 2)

theorem Chip.lastMark_markerTaken (c : Chip) (b : List Byte) :
    (c.markerTaken b).lastMark = (c.slot, signed 16 (numAt b 10 2), numAt b 12 1, numAt b 13 1 % 2) := by
  have hwhl : (c.markerTaken b).whl = { c.whl with seen := c.slot, adj := signed 16 (numAt b 10 2) } :=
    (Chip.put_same _ _ _ .whl).trans (Chip.put_same _ _ _ .whl)
  have hmaster : (c.markerTaken b).get F.WHL_STATUS_MASTER = numAt b 12 1 % 2 ^ 8 :=
    (Chip.get_put_other _ _ _ _ rfl rfl).trans (Chip.get_put _ _ _ rfl Nat.one_pos)
  have haligned : (c.markerTaken b).get F.WHL_STATUS_XPKG_ALIGNED = numAt b 13 1 % 2 % 2 := Chip.get_put _ _ _ rfl Nat.one_pos
  rw [Chip.lastMark, hwhl, hmaster, haligned, Nat.mod_mod, Nat.mod_eq_of_lt (b := 2 ^ 8) (numAt_one_lt b 12)]

/-- The node's markers do not pass it twice, and none passes a node that is down or out of the ring. -/
theorem Chip.markerIn_of_unheard {c : Chip} {b : List Byte} (h : c.svcUp = false ∨ c.get F.SKN_CTRL_RING_EN = 0 ∨ numAt b 12 1 = c.node)
    (cc : Bool) : c.markerIn cc b = c :=
  if_pos (by rcases h with h | h | h <;> simp [h])

section
variable {c : Chip} {b : List Byte} (hup : c.svcUp = true) (hring : c.get F.SKN_CTRL_RING_EN = 1) (hcrc : crc16 (b.take 14) = numAt b 14 2)
  (hsrc : numAt b 12 1 ≠ c.node)
include hup hring hcrc hsrc

theorem Chip.markerIn_at_master (hmaster : c.get F.WHL_STATUS_IS_MASTER = 1) (cc : Bool) :
    c.markerIn cc b = (c.markerPassed cc b).log 0x3801 uWHL ((c.markerPassed cc b).alignArgs 0 (numAt b 12 1) 0) :=
  (if_neg (by simp [hup, hring, hcrc, hsrc])).trans (if_pos hmaster)

variable (hmaster : c.get F.WHL_STATUS_IS_MASTER = 0) (hwhole : c.ring.breaks = [])
include hmaster hwhole

/-- In a whole ring the clockwise direction is the one in use (R206). -/
theorem Chip.markerIn_other_way : c.markerIn true b = c.markerPassed true b := by
  have hslave : ¬ (c.markerPassed true b).get F.WHL_STATUS_IS_MASTER = 1 := ne_of_eq_of_ne hmaster Nat.zero_ne_one
  refine (if_neg (by simp [hup, hring, hcrc, hsrc])).trans ((if_neg hslave).trans (if_pos ?_))
  simp [Chip.cwBroken, Chip.send, hwhole]

theorem Chip.markerIn_in_use :
    ∃ diff, c.markerIn false b = ((c.markerPassed false b).markerTaken b).markerDiff diff (numAt b 12 1) := by
  have hslave : ¬ (c.markerPassed false b).get F.WHL_STATUS_IS_MASTER = 1 := ne_of_eq_of_ne hmaster Nat.zero_ne_one
  refine ⟨_, (if_neg (by simp [hup, hring, hcrc, hsrc])).trans ((if_neg hslave).trans (if_neg ?_))⟩
  simp [Chip.cwBroken, Chip.send, hwhole]

end

theorem says_markerReceive : Says.markerReceive := by
  refine ⟨fun s cc b => ?_, fun s cc b hunheard => ⟨_, rfl, Chip.markerIn_of_unheard hunheard cc⟩, ?_, ?_, ?_⟩
  · exact exists_only_of_touch (execMarkerReceive_touch cc b s) (by decide +kernel) (by decide +kernel)
  · rintro s cc b hup hring hcrc hsrc hwhole hslave rfl
    refine ⟨_, congrArg (fun c => Host.Outcome.next (s.settled c)) (Chip.markerIn_other_way hup hring hcrc hsrc hslave hwhole), rfl, ?_, rfl⟩
    exact List.length_append
  · rintro s cc b hup hring hcrc hsrc hwhole hslave rfl
    obtain ⟨diff, hin⟩ := Chip.markerIn_in_use hup hring hcrc hsrc hslave hwhole
    have hlast := (Chip.lastMark_markerDiff ((s.chip.markerPassed false b).markerTaken b) diff (numAt b 12 1)).trans (Chip.lastMark_markerTaken _ b)
    simp only [Chip.lastMark, Prod.mk.injEq] at hlast
    exact ⟨_, congrArg (fun c => Host.Outcome.next (s.settled c)) hin, hlast⟩
  · intro s cc b hup hring hcrc hsrc _ hmaster
    refine ⟨_, congrArg (fun c => Host.Outcome.next (s.settled c)) (Chip.markerIn_at_master hup hring hcrc hsrc hmaster cc), ?_, ?_⟩
    · exact Chip.whl_log ..
    · exact (Chip.get_log _ _ _ _ (by decide +kernel)).trans hmaster

/-! Corrections at a slot boundary (R206). -/

/-- The corrections due, taken. -/
def Chip.corrected (c : Chip) : Chip := { c with whl := { c.whl with adj := 0, corr := 0 } }

theorem Chip.boundary_forward {c : Chip} (h : 0 ≤ c.whl.adj - c.whl.corr) :
    c.boundary = { c.corrected with time := (c.time + (c.whl.adj - c.whl.corr).toNat) % 2 ^ 64 } := if_pos h

theorem Chip.boundary_hold {c : Chip} (h : c.whl.adj - c.whl.corr < 0) :
    c.boundary = { c.corrected with whl := { c.corrected.whl with hold := c.whl.hold + (c.whl.adj - c.whl.corr).natAbs } } :=
  if_neg (not_le.mpr h)

theorem exec_slotBoundaryCorrection_at_boundary {s : State} (hup : s.chip.svcUp = true) (hslot : s.chip.time % 256 = 0) :
    exec .slotBoundaryCorrection s = .next (s.settled s.chip.boundary) :=
  congrArg (fun c => Host.Outcome.next (s.settled c)) (if_pos (by simp [hup, hslot]))

theorem says_slotBoundaryCorrection : Says.slotBoundaryCorrection := by
  refine ⟨fun s => ?_, fun s hno => ⟨_, rfl, if_neg ?_⟩, fun s hup hslot hstep => ?_, fun s hup hslot hstep => ?_⟩
  · exact exists_only_of_touch (execSlotBoundaryCorrection_touch s) (by decide +kernel) (by decide +kernel)
  · rcases hno with hno | hno <;> simp [hno]
  · refine ⟨_, exec_slotBoundaryCorrection_at_boundary hup hslot, ?_⟩
    rw [Chip.boundary_forward hstep]
    exact ⟨rfl, rfl, rfl, rfl⟩
  · refine ⟨_, exec_slotBoundaryCorrection_at_boundary hup hslot, ?_⟩
    rw [Chip.boundary_hold hstep]
    exact ⟨rfl, rfl, rfl, rfl⟩

/-! Alignment lost: no marker, no report (R206, R208). -/

theorem Chip.markerLost_of_not {c : Chip} (h : c.get F.WHL_STATUS_IS_MASTER = 1 ∨ c.get F.WHL_STATUS_ALIGN = 0 ∨ c.slot < c.whl.seen + 64) :
    c.markerLost = c :=
  if_pos (by rcases h with h | h | h <;> simp [h])

theorem Chip.markerLost_of_silence {c : Chip} (hslave : c.get F.WHL_STATUS_IS_MASTER = 0) (halign : c.get F.WHL_STATUS_ALIGN ≠ 0)
    (hlate : c.whl.seen + 64 ≤ c.slot) :
    ∃ args, c.markerLost = (Chip.alignSet { c with whl := { c.whl with good := 0 } } 0).log 0x2803 uWHL args :=
  ⟨_, if_neg (by simp [hslave, halign, hlate])⟩

theorem says_markerTimeout : Says.markerTimeout := by
  refine ⟨fun s => ?_, fun s hno => ⟨_, rfl, ite_eq_right_iff.mpr fun _ => Chip.markerLost_of_not hno⟩,
    fun s hup hslave halign hlate => ?_⟩
  · exact exists_only_of_touch (execMarkerTimeout_touch s) (by decide +kernel) (by decide +kernel)
  · obtain ⟨args, hlost⟩ := Chip.markerLost_of_silence hslave halign hlate
    refine ⟨_, congrArg (fun c => Host.Outcome.next (s.settled c)) ((if_pos hup).trans hlost), ?_, ?_⟩
    · rw [Chip.get_log _ _ _ _ (by decide +kernel), Chip.align_alignSet]
    · rw [Chip.whl_log, Chip.whl_alignSet]

theorem Chip.whl_xpkgOut (c : Chip) : c.xpkgOut.whl = c.whl := (Chip.xpkgOut_touch c).same .whl rfl

theorem Chip.aligned_xpkgOut (c : Chip) : c.xpkgOut.get F.WHL_STATUS_XPKG_ALIGNED = 0 :=
  (Chip.get_log _ _ _ _ (by decide +kernel)).trans (Chip.get_put _ _ _ rfl Nat.one_pos)

theorem Chip.xpkgLate_of_not {c : Chip} (h : c.get F.WHL_STATUS_IS_MASTER = 0 ∨ c.get F.WHL_XPKG_CTRL_MODE ≠ 2 ∨ c.slot < c.whl.xpkgAt + 64) :
    c.xpkgLate = c :=
  if_pos (by rcases h with h | h | h <;> simp [h])

theorem Chip.xpkgLate_of_silence {c : Chip} (hmaster : c.get F.WHL_STATUS_IS_MASTER = 1) (hmode : c.get F.WHL_XPKG_CTRL_MODE = 2)
    (hlate : c.whl.xpkgAt + 64 ≤ c.slot) : c.xpkgLate = c.xpkgOut :=
  if_neg (by simp [hmaster, hmode, hlate])

theorem says_xpkgReportTimeout : Says.xpkgReportTimeout := by
  refine ⟨fun s => ?_, fun s hno => ⟨_, rfl, ite_eq_right_iff.mpr fun _ => Chip.xpkgLate_of_not hno⟩,
    fun s hup hmaster hmode hlate => ?_⟩
  · exact exists_only_of_touch (execXpkgReportTimeout_touch s) (by decide +kernel) (by decide +kernel)
  · refine ⟨_, congrArg (fun c => Host.Outcome.next (s.settled c)) ((if_pos hup).trans (Chip.xpkgLate_of_silence hmaster hmode hlate)), ?_, ?_⟩
    · exact Chip.aligned_xpkgOut _
    · exact Chip.whl_xpkgOut _

/-! Time reports of a peer package (R208). -/

/-- A report is acted on by the lead. -/
theorem Chip.report_of_leads {c : Chip} (hup : c.svcUp = true) (hlead : c.leads = true) (ch : Nat) (f : WarpFrame)
    (act : Chip → Nat → WarpFrame → Chip) : c.report ch f act = act c ch f :=
  (if_neg (by simp [hup])).trans (if_pos (by simp [hlead]))

/-- The offset to the peer's time, as a report gives it. -/
def WarpFrame.timeOffset (f : WarpFrame) : Int := (f.time : Int) - (f.limit : Int)

/-- The chip with the offset a report gives. -/
def Chip.offsetTaken (c : Chip) (off : Int) : Chip :=
  Chip.put { c with whl := { c.whl with xpkgAt := c.slot, left := off } } F.WHL_XPKG_STATUS_OFFSET (satBits 16 32767 off)

theorem Chip.whl_offsetTaken (c : Chip) (off : Int) : (c.offsetTaken off).whl = { c.whl with xpkgAt := c.slot, left := off } :=
  Chip.put_same _ _ _ .whl

theorem Chip.xpkgTime_of_slave {c : Chip} (h : c.get F.WHL_STATUS_IS_MASTER = 0) (ch : Nat) (f : WarpFrame) : c.xpkgTime ch f = c :=
  if_pos (by simp [h])

theorem Chip.xpkgTime_of_master {c : Chip} {ch : Nat} {f : WarpFrame} (hmaster : c.get F.WHL_STATUS_IS_MASTER = 1)
    (hmode : c.get F.WHL_XPKG_CTRL_MODE = 2) (hch : c.get F.WHL_XPKG_CTRL_CH = ch % 8) (hop : f.op = 0x87) (hres : f.result = 0)
    (hsub : f.sub = 0xFFFD) (hbob : f.bobbin = 0) :
    c.xpkgTime ch f = if f.timeOffset.natAbs ≤ 16 then (c.offsetTaken f.timeOffset).put F.WHL_STATUS_XPKG_ALIGNED 1
      else (c.offsetTaken f.timeOffset).xpkgOut :=
  if_neg (by simp [hmaster, hmode, hch, hop, hres, hsub, hbob])

theorem says_xpkgTimeReport : Says.xpkgTimeReport := by
  refine ⟨fun s ch f => ?_, fun s ch f hup hlead hmaster hmode hch hop hres hsub hbob => ?_, fun s ch f hup hlead hslave => ⟨_, rfl, ?_⟩⟩
  · exact exists_only_of_touch (execXpkgTimeReport_touch ch f s) (by decide +kernel) (by decide +kernel)
  · refine ⟨_, congrArg (fun c => Host.Outcome.next (s.settled c)) ((Chip.report_of_leads hup hlead (ch % 8) f _).trans
      (Chip.xpkgTime_of_master hmaster hmode (hch.trans (Nat.mod_mod ch 8).symm) hop hres hsub hbob)), ?_⟩
    change _ ∧ _ = if f.timeOffset.natAbs ≤ 16 then 1 else 0
    split
    · exact ⟨(Chip.put_same _ _ _ .whl).trans (Chip.whl_offsetTaken ..), Chip.get_put _ _ _ rfl Nat.one_pos⟩
    · exact ⟨(Chip.whl_xpkgOut _).trans (Chip.whl_offsetTaken ..), Chip.aligned_xpkgOut _⟩
  · exact (Chip.report_of_leads hup hlead (ch % 8) f _).trans (Chip.xpkgTime_of_slave hslave _ f)

/-! The time read (R227). -/

theorem says_whlTimeRead : Says.whlTimeRead := by
  refine ⟨fun s req => ?_, fun s req hopens => ?_, fun s req hpow hgrant => ⟨_, rfl, ?_⟩⟩
  · exact exists_only_of_touch (execWhlTimeRead_touch req s) (by decide +kernel) (by decide +kernel)
  · exact ⟨_, congrArg (fun c => Host.Outcome.next (s.settled c)) (Chip.guarded_of_opens _ hopens), rfl, Chip.rd_wr_same ..⟩
  · exact ((Chip.guarded_touch_of_not_granted _ hpow hgrant).2 _).resolve_left (not_covers_of_spares (by decide +kernel))

/-- Settles O41, command by command. -/
theorem whorlAlignment : Obligations.WhorlAlignment :=
  ⟨says_markerEmit, says_markerReceive, says_slotBoundaryCorrection, says_markerTimeout, says_xpkgTimeReport, says_xpkgReportTimeout,
    says_whlTimeRead⟩

/-! A lease taken late in a launch (R216). -/

/-- A chip of an HX16 in SENSE that leads, promoted at the present slot, 100. Launch 1, of slot 104, is CLOSED in entry 0, its FINAL 0. -/
def lateLease : State :=
  let regs : List (Fld × Nat) := [(F.GEN_ID_PKG_CLASS, 1), (F.PLY_STATUS_LEASE, 1), (F.WHL_Ln_NUM_NUM, 1), (F.WHL_Ln_SLOT_LO_SLOT, 104),
    (F.WHL_Ln_STATE_STATE, 2)]
  let chip : Chip := { time := 100 * 256, ply := { taken := 100 }, pwr := { idle := [(0, 0)] } }
  { State.reset with chip := chip.each regs fun c p => c.put p.1 p.2 }

/-- A lead promoted after *L* − 8 does not perform the final point. -/
theorem Chip.lfinal_of_taken_late {c : Chip} {n : Nat} (h : c.lslot n < c.ply.taken + 8) : c.lfinal n = c := if_pos (by simp [h])

theorem exec_launchFinalPoint_lateLease : exec (.launchFinalPoint 0#4) lateLease = .next (lateLease.settled lateLease.chip) :=
  congrArg (fun c => Host.Outcome.next (lateLease.settled c))
    ((if_neg (by decide +kernel)).trans (Chip.lfinal_of_taken_late (by decide +kernel)))

/-- Refutes O42: the last clause on LAUNCH_FINAL_POINT does not ask that the lease have been taken by *L* − 8. In `lateLease` every condition named
there holds, and the final point is not performed (R216), where the clause claims that FINAL is set. -/
theorem not_launchLife : ¬ Obligations.LaunchLife := by
  rintro ⟨-, -, -, -, ⟨-, -, hfinal⟩, -⟩
  obtain ⟨c, hc, hset, -⟩ := hfinal lateLease 0#4 (by decide +kernel) rfl (by decide +kernel)
    (by decide +kernel) (by decide +kernel)
  obtain rfl := Chip.eq_of_next_settled hc exec_launchFinalPoint_lateLease (by decide +kernel) (by decide +kernel)
  exact absurd hset (by decide +kernel)

end Sys2Proof.Machine

/-!
SUPPORT. The statement on the tree roots and the reports of inline engines (spec section 09).
-/

namespace Sys2Proof.Machine

set_option Elab.async false

/-! What an event adds to the service event log (R514). -/

theorem Logs.svc_aonPush (l : Logs) (r : EvRec) : (l.aonPush r).svc = l.svc := by
  unfold Logs.aonPush
  split <;> rfl

theorem Logs.svc_prefix_svcPush (l : Logs) (r : EvRec) : l.svc <+: (l.svcPush r).svc := by
  unfold Logs.svcPush
  split
  · exact List.prefix_append ..
  · exact List.prefix_rfl

/-- A record reaches the service log, or is counted as lost there, exactly while the Service domain is up. -/
theorem Chip.svc_logRec (c : Chip) (r : EvRec) : (c.logRec r).logs.svc = (if c.svcUp then c.logs.svcPush r else c.logs).svc := by
  unfold Chip.logRec
  extract_lets cls l l'
  rw [(Chip.countEvent_touch ..).same .logs rfl, (Chip.noil_touch ..).same .logs rfl, (Chip.sumBit_touch ..).same .logs rfl]
  have hl : l.svc = (if c.svcUp then c.logs.svcPush r else c.logs).svc := by
    unfold l
    split
    · rfl
    · exact Logs.svc_aonPush ..
  change l'.svc = _
  rw [← hl]
  unfold l'
  split
  · exact Logs.svc_aonPush ..
  · rfl

theorem Chip.svc_prefix_logRec (c : Chip) (r : EvRec) : c.logs.svc <+: (c.logRec r).logs.svc := by
  rw [Chip.svc_logRec]
  split
  · exact Logs.svc_prefix_svcPush ..
  · exact List.prefix_rfl

theorem Chip.logs_traceEvent (c : Chip) (r : EvRec) : (c.traceEvent r).1.logs = c.logs := (Chip.traceEvent_touch c r).same .logs rfl

theorem Chip.svc_prefix_logDrop (c : Chip) (t : Nat) : c.logs.svc <+: (c.logDrop t).logs.svc := by
  unfold Chip.logDrop
  split
  · extract_lets r
    rw [Chip.logs_traceEvent]
    exact Chip.svc_prefix_logRec (c.noteLog 0x1022 t) r
  · exact List.prefix_rfl

theorem Chip.svc_prefix_fire (c : Chip) (t cause bp code : Nat) : c.logs.svc <+: (c.fire t cause bp code).logs.svc := by
  unfold Chip.fire
  split
  · extract_lets s d r
    have hlogs : d.logs = c.logs := Chip.puti_same _ _ _ _ .logs
    rw [Chip.logs_traceEvent, ← hlogs]
    exact Chip.svc_prefix_logRec ..
  · exact List.prefix_rfl

theorem Chip.svc_prefix_fireEvent (c : Chip) (unit code : Nat) : c.logs.svc <+: (c.fireEvent unit code).logs.svc := by
  refine Chip.each_keeps_prop (P := fun d => c.logs.svc <+: d.logs.svc) (fun d t hd => ?_) List.prefix_rfl
  extract_lets k
  split
  · exact hd.trans (Chip.svc_prefix_fire ..)
  · exact hd

/-- With room in the service log an event's record follows what the log held; what the event traces and triggers comes after it. -/
theorem Chip.svc_append_prefix_log {c : Chip} (hup : c.svcUp = true) (hroom : c.logs.svc.length < 4096) (code unit : Nat) (args : List Byte) :
    c.logs.svc ++ [c.evRec code unit args] <+: (c.log code unit args).logs.svc := by
  have hpush : (c.logRec (c.evRec code unit args)).logs.svc = c.logs.svc ++ [c.evRec code unit args] := by
    simp [Chip.svc_logRec, hup, Logs.svcPush, hroom]
  have htrace := congrArg Logs.svc (Chip.logs_traceEvent (c.logRec (c.evRec code unit args)) (c.evRec code unit args))
  unfold Chip.log
  refine List.IsPrefix.trans ?_ (Chip.svc_prefix_fireEvent ..)
  rw [← hpush, ← htrace]
  split
  · exact Chip.svc_prefix_logDrop ..
  · exact List.prefix_rfl

theorem any_drop_of_append_prefix {α : Type} {l m : List α} {a : α} {p : α → Bool} (h : l ++ [a] <+: m) (ha : p a = true) :
    (m.drop l.length).any p = true := by
  obtain ⟨rest, rfl⟩ := h
  simp [List.append_assoc, ha]

/-! What a notice leaves of the Custody cluster (R173, R259). -/

theorem Chip.cust_cplDrain (c : Chip) (n : Nat) : ∃ held, (c.cplDrain n).cust = { c.cust with held := held } := by
  induction n generalizing c with
  | zero => exact ⟨_, rfl⟩
  | succ n ih =>
    unfold Chip.cplDrain
    split
    · exact ⟨_, rfl⟩
    · next b bs hheld =>
      split
      · extract_lets t d
        obtain ⟨held, hdrain⟩ := ih (({ d with cust := { d.cust with held := bs } }).put F.BOB_CPL_TAIL_IDX ((t + 1) % d.cqSize))
        have hput := Chip.put_same { d with cust := { d.cust with held := bs } } F.BOB_CPL_TAIL_IDX ((t + 1) % d.cqSize) .cust
        have hwr : d.cust = c.cust := (Chip.spnWr_touch ..).same .cust rfl
        refine ⟨held, hdrain.trans ?_⟩
        rw [hput, hwr]
      · exact ⟨_, rfl⟩

/-- A notice changes the completions held alone. -/
theorem Chip.cust_notice (c : Chip) (op tag : Nat) (st : Status) (done failId jseq : Nat) :
    ∃ held, (c.notice op tag st done failId jseq).cust = { c.cust with held := held } := by
  simp only [Chip.notice, Chip.complete]
  obtain ⟨held, hdrain⟩ := Chip.cust_cplDrain { c with cust := { c.cust with
    held := c.cust.held ++ [pack [(2, tag), (1, op), (1, st.code), (4, done), (4, failId), (4, jseq)]] } } (c.cust.held.length + 1)
  refine ⟨held, ?_⟩
  split
  · exact hdrain
  · exact hdrain

theorem Chip.cust_log (c : Chip) (code unit : Nat) (args : List Byte) : (c.log code unit args).cust = c.cust :=
  (Chip.log_touch c code unit args).same .cust rfl

theorem Chip.cust_treeLog (c : Chip) (code tree : Nat) (st : Status) : (c.treeLog code tree st).cust = c.cust :=
  (Chip.treeLog_touch c code tree st).same .cust rfl

/-! A Bobbin changed. -/

theorem Chip.cust_bobMod {c : Chip} {id : Nat} {b : Bob} (h : c.bob? id = some b) (f : Bob → Bob) :
    (c.bobMod id f).cust = { c.cust with bobs := tput c.cust.bobs id (f b) } := by
  unfold Chip.bobMod
  rw [h]
  exact (Chip.noilTrans_touch ..).same .cust rfl

theorem Chip.bob?_bobMod {c : Chip} {id : Nat} {b : Bob} (h : c.bob? id = some b) (f : Bob → Bob) : (c.bobMod id f).bob? id = some (f b) := by
  rw [Chip.bob?, Chip.cust_bobMod h, tget?_tput, if_pos rfl]

/-! Root updates (R241). -/

/-- The update names a WORSTED Bobbin of its tree and of this channel, with a version higher than the one it has. -/
def Chip.rootAccepts (c : Chip) (ch : Nat) (f : WarpFrame) (b : Bob) : Bool :=
  b.cls == clsWORSTED && b.sub == f.epoch % 4096 && c.warpCh b == some ch && decide (b.rootVer < f.time)

/-- The Bobbin that an update names, raised to the update's version. -/
def Chip.rootRaised (c : Chip) (f : WarpFrame) : Chip := c.bobMod f.bobbin fun b => { b with rootVer := f.time }

/-- An update accepted, its entry not under repair: the Bobbin has its version, and the effect is held, mirrored if it must be. -/
theorem Chip.rootUpdate_of_accepted {c : Chip} {ch : Nat} {f : WarpFrame} {b : Bob} (hup : c.svcUp = true) (hch : ch < 8)
    (hrepair : c.cust.rootRepair = []) (hb : c.bob? f.bobbin = some b) (hok : c.rootAccepts ch f b = true) :
    ∃ item eff, c.rootUpdate ch f = ((c.rootRaised f).mirrorEarly item).1.hold eff ((c.rootRaised f).mirrorEarly item).2 0 := by
  refine ⟨_, _, (if_neg (by simp [hup, hch])).trans ((if_neg ?_).trans (if_neg (by simp [hrepair])))⟩
  simpa [hb, Chip.rootAccepts] using hok

theorem says_rootUpdate : Says.rootUpdate := by
  refine ⟨fun s ch f => ?_, fun s ch f hup hch hrepair hok => ?_⟩
  · exact exists_only_of_touch (execRootUpdate_touch ch f s) (by decide +kernel) (by decide +kernel)
  · obtain ⟨b, hb, hok⟩ := (Option.any_eq_true _ _).mp hok
    obtain ⟨item, eff, hroot⟩ := Chip.rootUpdate_of_accepted hup hch hrepair hb hok
    have hcust : (s.chip.rootUpdate ch f).cust = (s.chip.rootRaised f).cust := by
      rw [hroot]
      exact (Chip.mirrorEarly_touch ..).same .cust rfl
    rw [Chip.rootRaised, Chip.cust_bobMod hb] at hcust
    refine ⟨_, rfl, ?_, by rw [hcust]⟩
    rw [Chip.bob?, hcust, tget?_tput, if_pos rfl]
    rfl

/-! The patrol of the root store (R243). -/

theorem Chip.rootPatrol_of_single {c : Chip} (hup : c.svcUp = true) (tree : Nat) : c.rootPatrol tree false = c.treeLog 0x1904 tree .ok := by
  simp [Chip.rootPatrol, hup]

theorem Chip.rootPatrol_of_double {c : Chip} (hup : c.svcUp = true) (tree : Nat) :
    c.rootPatrol tree true =
      c.cu fun u => { u with rootRepair := if u.rootRepair.contains tree then u.rootRepair else u.rootRepair ++ [tree] } := by
  simp [Chip.rootPatrol, hup]

theorem says_rootStorePatrol : Says.rootStorePatrol := by
  refine ⟨fun s tree double => ?_, fun s tree double hup hdouble => ?_, fun s tree double hup hdouble => ?_⟩
  · exact exists_only_of_touch (execRootStorePatrol_touch tree double s) (by decide +kernel) (by decide +kernel)
  · subst hdouble
    refine ⟨_, congrArg (fun c => Host.Outcome.next (s.settled c)) (Chip.rootPatrol_of_double hup tree), ?_, rfl⟩
    rw [Chip.cu]
    split
    · assumption
    · simp
  · subst hdouble
    exact ⟨_, congrArg (fun c => Host.Outcome.next (s.settled c)) (Chip.rootPatrol_of_single hup tree), Chip.cust_treeLog ..⟩

/-! A root repaired (R243). -/

/-- The entry of the only tree under repair is good: the copy is stored, and no update was held. -/
theorem Chip.cust_rootRepaired {c : Chip} {tree : Nat} (hrepair : c.cust.rootRepair = [tree]) (hwait : c.cust.rootWait = []) (hpkg : c.pkg ≠ .hx4)
    (bytes : List Byte) :
    ∃ held, (c.rootRepaired tree true bytes).cust =
      { c.cust with rootRepair := [], trs := tput c.cust.trs tree (padTo 64 bytes), held := held } := by
  unfold Chip.rootRepaired
  extract_lets waiting d id stored noted
  have hwaiting : waiting = [] := by simp [waiting, hwait]
  have hgood : (true && d.pkg != .hx4) = true := bne_iff_ne.mpr hpkg
  have hstored : stored.cust = { c.cust with rootRepair := [], trs := tput c.cust.trs tree (padTo 64 bytes) } := by
    simp [stored, d, Chip.cu, hrepair, hwait]
  obtain ⟨held, hnotice⟩ := Chip.cust_notice stored 0x87 tree .ok id.2 id.1 0
  refine ⟨held, ?_⟩
  rw [if_neg (by simp [hrepair]), if_pos hgood, hwaiting]
  calc noted.cust
    _ = (stored.notice 0x87 tree .ok id.2 id.1 0).cust := Chip.cust_treeLog ..
    _ = _ := by rw [hnotice, hstored]

theorem says_rootRepairDone : Says.rootRepairDone := by
  refine ⟨fun s tree good bytes => ?_, fun s tree good bytes hup hrepair hwait hgood hpkg => ?_⟩
  · exact exists_only_of_touch (execRootRepairDone_touch tree good bytes s) (by decide +kernel) (by decide +kernel)
  · subst hgood
    obtain ⟨held, hcust⟩ := Chip.cust_rootRepaired hrepair hwait hpkg bytes
    refine ⟨_, congrArg (fun c => Host.Outcome.next (s.settled c)) (if_pos hup), ?_, congrArg Cust.rootRepair hcust⟩
    rw [hcust, tget?_tput, if_pos rfl]

/-! Who acts on a report (R231, R244). -/

/-- A chip that does not lead and has no link to a lead holds the report for one. -/
theorem Chip.report_of_alone {c : Chip} (hup : c.svcUp = true) (hpkg : c.pkg ≠ .hx4) (hlead : c.leads = false) (hlink : c.linked = false) (ch : Nat)
    (f : WarpFrame) (act : Chip → Nat → WarpFrame → Chip) :
    c.report ch f act = { c with ply := { c.ply with reports := holdReport c.ply.reports (ch, f) } } := by
  simp [Chip.report, hup, hpkg, hlead, hlink]

/-- The chip that has noted a report, the first of its kind. -/
def Chip.reportNoted (c : Chip) (ch : Nat) (f : WarpFrame) : Chip := c.cu fun u => { u with seenReports := [(ch, f, c.slot)] }

theorem Chip.reportOnce_of_first {c : Chip} (h : c.cust.seenReports = []) (ch : Nat) (f : WarpFrame) (act : Chip → Chip) :
    c.reportOnce ch f act = act (c.reportNoted ch f) := by
  simp [Chip.reportOnce, Chip.reportNoted, h]

/-- A notice and its event, of a report the lead acts on: the report stays noted, and the event's record is new in the service log. -/
theorem Chip.noticed_and_logged {c : Chip} (hup : c.svcUp = true) (hroom : c.logs.svc.length ≤ 4000) (op tag : Nat) (st : Status)
    (done failId jseq code unit : Nat) (args : List Byte) :
    (((c.notice op tag st done failId jseq).log code unit args).cust.seenReports = c.cust.seenReports) ∧
      (((c.notice op tag st done failId jseq).log code unit args).logs.svc.drop c.logs.svc.length).any (fun r => r.code == code) = true := by
  generalize hd : c.notice op tag st done failId jseq = d
  have htouch := Chip.notice_touch c op tag st done failId jseq
  obtain ⟨held, hcust⟩ := Chip.cust_notice c op tag st done failId jseq
  rw [hd] at htouch hcust
  have hlogs : d.logs = c.logs := htouch.same .logs rfl
  have hup' : d.svcUp = true := by rwa [Chip.svcUp, htouch.seq_eq (by decide +kernel)]
  refine ⟨by rw [Chip.cust_log, hcust], ?_⟩
  rw [← hlogs]
  exact any_drop_of_append_prefix (Chip.svc_append_prefix_log hup' (by rw [hlogs]; omega) code unit args) (beq_self_eq_true code)

/-! Fault reports (R244). -/

/-- The event of a fault report, by its cause. -/
def WarpFrame.faultCode (f : WarpFrame) : Nat :=
  if numAt f.share0 0 1 = 1 then 0x3901 else if numAt f.share0 0 1 = 2 then 0x3902 else 0x2901

theorem Chip.faultTold_of_no_hank {c : Chip} {b : Bob} (h : c.hank? b.hank = none) (id off pages : Nat) : c.faultTold id b off pages = c := by
  rw [Chip.faultTold, h]

def WarpFrame.faultPages (f : WarpFrame) : Nat := if numAt f.share0 0 1 == 3 then 1 else (f.limit + 4095) / 4096

/-- The notice and the event of a fault in a Bobbin's range. -/
def Chip.faultNoted (c : Chip) (f : WarpFrame) (b : Bob) : Chip :=
  (c.notice 0x83 b.sub .integrity (numAt f.share0 0 1 % 16 * 2 ^ 28 + f.time / 4096 % 2 ^ 28) f.bobbin f.faultPages).log f.faultCode uBOB
    (aRange f.bobbin b.sub (numAt f.share0 0 1) Status.integrity.code f.time f.faultPages)

theorem Chip.hank?_faultNoted (c : Chip) (f : WarpFrame) (b : Bob) (h : Nat) : (c.faultNoted f b).hank? h = c.hank? h :=
  congrArg (fun u : Hanks => tget? u.tab h) (((Chip.log_touch ..).same .hanks rfl).trans ((Chip.notice_touch ..).same .hanks rfl))

/-- A first report about a Bobbin without a hank: there is no die to tell. -/
theorem Chip.faultReport_of_no_hank {c : Chip} {f : WarpFrame} {b : Bob} (hseen : c.cust.seenReports = []) (hb : c.bob? f.bobbin = some b)
    (hhank : c.hank? b.hank = none) (ch : Nat) : c.faultReport ch f = (c.reportNoted ch f).faultNoted f b := by
  have hb' : (c.reportNoted ch f).bob? f.bobbin = some b := hb
  have hhank' : ((c.reportNoted ch f).faultNoted f b).hank? b.hank = none := (Chip.hank?_faultNoted ..).trans hhank
  rw [Chip.faultReport, Chip.reportOnce_of_first hseen]
  simp only [hb']
  exact Chip.faultTold_of_no_hank hhank' ..

theorem says_faultReport : Says.faultReport := by
  refine ⟨fun s ch f => ?_, fun s ch f hup hpkg hlead hlink => ?_, fun s ch f hup hlead hseen hroom hb => ?_⟩
  · exact exists_only_of_touch (execFaultReport_touch ch f s) (by decide +kernel) (by decide +kernel)
  · exact ⟨_, rfl, congrArg (·.ply.reports) (Chip.report_of_alone hup hpkg hlead hlink ..)⟩
  · obtain ⟨b, hb, hhank⟩ := (Option.any_eq_true _ _).mp hb
    have hact := (Chip.report_of_leads hup hlead (ch % 8) f _).trans
      (Chip.faultReport_of_no_hank hseen hb (Option.isNone_iff_eq_none.mp hhank) (ch % 8))
    refine ⟨_, congrArg (fun c => Host.Outcome.next (s.settled c)) hact, ?_⟩
    exact Chip.noticed_and_logged (c := s.chip.reportNoted (ch % 8) f) hup hroom ..

/-! A complex that has left reset (R246). -/

/-- One of `n` pairs of bits replaced, as `BOB_WARP_STATUS` is written. -/
theorem bitsOf_replace_pair {n g st : Nat} (w : Nat) (hg : g < n) (hst : st < 4) :
    bitsOf ((w - bitsOf w (2 * g + 1) (2 * g) * 4 ^ g + st * 4 ^ g) % 4 ^ n) (2 * g + 1) (2 * g) = st := by
  have hbits (v : Nat) : bitsOf v (2 * g + 1) (2 * g) = v / 4 ^ g % 4 := by
    rw [bitsOf, Nat.pow_mul, show 2 * g + 1 + 1 - 2 * g = 2 by omega]
    rfl
  have hsplit : 4 ^ n = 4 ^ g * (4 * 4 ^ (n - g - 1)) := by
    rw [← Nat.pow_succ', ← Nat.pow_add]
    congr 1
    omega
  rw [hbits, hbits, hsplit, Nat.mod_mul_right_div_self, Nat.mod_mod_of_dvd _ (Nat.dvd_mul_right ..),
    Nat.add_mul_div_right _ _ (Nat.pow_pos (by decide)), Nat.mul_comm, Nat.sub_mul_div]
  omega

theorem Touch.chSt_eq {pm bm : Nat} {c d : Chip} (h : Touch pm bm c d) (hs : spares bm R.BOB_WARP_STATUS = true) {ch : Nat} (hch : ch < 8) :
    d.chSt ch = c.chSt ch := by
  have hget : d.get F.BOB_WARP_STATUS_CH = c.get F.BOB_WARP_STATUS_CH := h.geti_eq hs
  rw [Chip.chSt, Chip.chSt, if_pos hch, if_pos hch, hget]

theorem Chip.chSt_chPut (c : Chip) {ch st : Nat} (hch : ch < 8) (hst : st < 4) : (c.chPut ch st).chSt ch = st := by
  rw [Chip.chSt, if_pos hch, Chip.chPut, if_pos hch, Chip.get_put _ _ _ rfl Nat.one_pos]
  exact bitsOf_replace_pair _ hch hst

/-- What a CANCEL left unconfirmed changes is counted at its launch, not at the channel. -/
theorem Chip.chSt_chFail (c : Chip) {ch : Nat} (hch : ch < 8) : (c.chFail ch).chSt ch = 3 := by
  unfold Chip.chFail
  extract_lets outs
  refine Chip.each_keeps_prop (P := fun d => d.chSt ch = 3) (fun d f hd => ?_) (Chip.chSt_chPut c hch (by decide))
  split
  · rw [(Chip.unconfirmed_touch ..).chSt_eq (by decide +kernel) hch, (Chip.cancelSettled_touch ..).chSt_eq (by decide +kernel) hch, hd]
  · exact hd

theorem Chip.chSt_complexReset {c : Chip} {ch : Nat} {f : WarpFrame} (hseen : c.cust.seenReports = []) (hch : ch < 8) :
    (c.complexReset ch f).chSt ch = 3 := by
  rw [Chip.complexReset, Chip.reportOnce_of_first hseen]
  extract_lets ids die d
  have hd : d.chSt ch = 3 := by
    refine Chip.each_keeps_prop (P := fun d => d.chSt ch = 3) (fun d id hd => ?_) (Chip.chSt_chFail _ hch)
    rw [(Chip.bobMod_touch ..).chSt_eq (by decide +kernel) hch, hd]
  rw [(Chip.log_touch ..).chSt_eq (by decide +kernel) hch, (Chip.notice_touch ..).chSt_eq (by decide +kernel) hch, hd]

theorem says_complexResetAnnounce : Says.complexResetAnnounce := by
  refine ⟨fun s ch f => ?_, fun s ch f hup hpkg hlead hlink => ?_, fun s ch f hup hlead hseen _ => ?_⟩
  · exact exists_only_of_touch (execComplexResetAnnounce_touch ch f s) (by decide +kernel) (by decide +kernel)
  · exact ⟨_, rfl, congrArg (·.ply.reports) (Chip.report_of_alone hup hpkg hlead hlink ..)⟩
  · exact ⟨_, congrArg (fun c => Host.Outcome.next (s.settled c)) (Chip.report_of_leads hup hlead ..),
      Chip.chSt_complexReset hseen (Nat.mod_lt ch (by decide))⟩

/-! Boundary reports (R249). -/

theorem Chip.bob?_reenc (c : Chip) (id : Nat) (b : Bob) (st : Status) (epoch i : Nat) : (c.reenc id b st epoch).bob? i = c.bob? i := by
  obtain ⟨held, hcust⟩ := Chip.cust_notice c 0x82 b.sub st (b.bound / 4096) id epoch
  rw [Chip.bob?, Chip.reenc, Chip.cust_log, hcust]
  rfl

/-- A Bobbin after a report of its epoch: at the boundary reported, and at the end of its range no longer in re-encryption. -/
def Bob.bounded (b : Bob) (f : WarpFrame) : Bob := { b with bound := f.time, reenc := b.reenc && !(f.result == Status.ok.code) }

theorem Chip.bob?_boundaryReport {c : Chip} {f : WarpFrame} {b : Bob} (hb : c.bob? f.bobbin = some b) (hepoch : b.epoch = f.epoch) :
    (c.boundaryReport f).bob? f.bobbin = some (b.bounded f) := by
  have hmirror (d : Chip) (i : MItem) : (d.mirrorItem i).1.bob? f.bobbin = d.bob? f.bobbin :=
    congrArg (fun u : Cust => tget? u.bobs f.bobbin) ((Chip.mirrorItem_touch d i).same .cust rfl)
  unfold Chip.boundaryReport
  rw [hb]
  simp only [hepoch, bne_self_eq_false, Bool.false_eq_true, if_false]
  split
  · rw [Chip.bob?_reenc, hmirror, Chip.bob?_bobMod hb]
    rfl
  · rw [hmirror, Chip.bob?_bobMod hb]
    rfl

theorem exec_boundaryReport_of_leads {s : State} (hup : s.chip.svcUp = true) (hlead : s.chip.leads = true) (ch : Nat) (f : WarpFrame) :
    exec (.boundaryReport ch f) s = .next (s.settled (s.chip.boundaryReport f)) :=
  congrArg (fun c => Host.Outcome.next (s.settled c)) (Chip.report_of_leads hup hlead ..)

theorem says_boundaryReport : Says.boundaryReport := by
  refine ⟨fun s ch f => ?_, fun s ch f hup hlead hb hmore => ?_, fun s ch f hup hlead hb hdone => ?_⟩
  · exact exists_only_of_touch (execBoundaryReport_touch ch f s) (by decide +kernel) (by decide +kernel)
  · obtain ⟨b, hb, hepoch⟩ := (Option.any_eq_true _ _).mp hb
    refine ⟨_, exec_boundaryReport_of_leads hup hlead ch f, ?_⟩
    rw [Chip.bob?_boundaryReport hb (beq_iff_eq.mp hepoch), hb]
    simp [Bob.bounded, hmore]
  · obtain ⟨b, hb, hepoch⟩ := (Option.any_eq_true _ _).mp hb
    refine ⟨_, exec_boundaryReport_of_leads hup hlead ch f, ?_⟩
    rw [Chip.bob?_boundaryReport hb (beq_iff_eq.mp hepoch)]
    simp [Bob.bounded, hdone]

/-! Flits under an epoch with no key (R252). -/

/-- A LINK Bobbin on the channel that a report names. -/
def Chip.linkAt (c : Chip) (ch : Nat) (f : WarpFrame) : Option (Nat × Bob) :=
  c.cust.bobs.find? fun e => e.2.cls == clsLINK && e.2.sub == f.sub && c.warpCh e.2 == some ch

theorem Chip.peerEpoch_of_link {c : Chip} {ch : Nat} {f : WarpFrame} {e : Nat × Bob} (hseen : c.cust.seenReports = [])
    (he : c.linkAt ch f = some e) :
    ∃ args, c.peerEpoch ch f = ((c.reportNoted ch f).notice 0x86 f.sub .staleEpoch f.epoch e.1 e.2.epoch).log 0x2906 uBOB args := by
  have he' : (c.reportNoted ch f).linkAt ch f = some e := he
  rw [Chip.linkAt] at he'
  rw [Chip.peerEpoch, Chip.reportOnce_of_first hseen]
  simp only [he']
  exact ⟨_, rfl⟩

theorem says_peerEpochReport : Says.peerEpochReport := by
  refine ⟨fun s ch f => ?_, fun s ch f hup hpkg hlead hlink => ?_, fun s ch f hup hlead hseen hroom he => ?_⟩
  · exact exists_only_of_touch (execPeerEpochReport_touch ch f s) (by decide +kernel) (by decide +kernel)
  · exact ⟨_, rfl, congrArg (·.ply.reports) (Chip.report_of_alone hup hpkg hlead hlink ..)⟩
  · obtain ⟨e, he⟩ := Option.isSome_iff_exists.mp he
    obtain ⟨args, hact⟩ := Chip.peerEpoch_of_link (ch := ch % 8) hseen he
    refine ⟨_, congrArg (fun c => Host.Outcome.next (s.settled c)) ((Chip.report_of_leads hup hlead ..).trans hact), ?_⟩
    exact Chip.noticed_and_logged (c := s.chip.reportNoted (ch % 8) f) hup hroom ..

/-- Settles O47, command by command. -/
theorem treesAndReports : Obligations.TreesAndReports :=
  ⟨says_rootUpdate, says_rootStorePatrol, says_rootRepairDone, says_faultReport, says_complexResetAnnounce, says_boundaryReport,
    says_peerEpochReport⟩

end Sys2Proof.Machine

/-!
SUPPORT. The statements on the crypto engines (spec section 10): digest contexts and the Tally engine, lanes and entropy sources.
-/

namespace Sys2Proof.Machine

set_option Elab.async false

/-- What follows of itself from two answers of one command is the same. -/
theorem Chip.settle_eq_of_next {s : State} {o : Host.Outcome State Fault Refusal} {c d : Chip} (hc : o = .next (s.settled c))
    (hd : o = .next (s.settled d)) : c.settle = d.settle :=
  congrArg State.chip (Host.Outcome.next.inj (hc.symm.trans hd))

/-! An accumulator whose engine group has FAILED (R61, R288). -/

/-- A chip in SERVICE, the Tally group FAILED, accumulator 0 OPEN. -/
def failedTally : State :=
  let regs : List (Fld × Nat) := [(F.PWR_STATUS_SEQ_STATE, Seq.service.code), (F.PWR_GRP_STATUS_STATE, 3 * 4 ^ 5), (F.TLY_ACCn_STATUS_STATE, 1)]
  { State.reset with chip := State.reset.chip.each regs fun c p => c.put p.1 p.2 }

/-- Spindle's ABORT is refused with POWERED_DOWN, and the accumulator stays OPEN. -/
theorem exec_tlyAbort_failedTally :
    ∃ d, exec (.tlyAbort 0xFF#8 0#3) failedTally = .next (failedTally.settled d) ∧ d.acSt 0 = 1 :=
  ⟨_, rfl, by decide +kernel⟩

/-- What follows of itself leaves the accumulators' states. -/
theorem Chip.acSt_settle_zero (c : Chip) : c.settle.acSt 0 = c.acSt 0 := c.settle_touch.geti_eq (by decide +kernel)

/-- Refutes O36: the last clause on ABORT does not ask that the Tally group be usable. In `failedTally` every condition named there holds, and the
accumulator, which the clause claims FREE, stays OPEN. -/
theorem not_digestsAndTally : ¬ Obligations.DigestsAndTally := by
  rintro ⟨-, -, -, -, -, -, -, -, -, ⟨-, -, hfree⟩, -⟩
  obtain ⟨c, hc, hst, -⟩ := hfree failedTally 0xFF#8 0#3 (by decide +kernel) (Or.inl (by decide +kernel))
  obtain ⟨d, hd, hopen⟩ := exec_tlyAbort_failedTally
  have hsame : c.acSt 0 = d.acSt 0 := by rw [← c.acSt_settle_zero, ← d.acSt_settle_zero, Chip.settle_eq_of_next hc hd]
  exact absurd (hst.symm.trans (hsame.trans hopen)) (by decide)

/-! A lane that drains (R291). -/

/-- A chip in SERVICE, lattice lane 0 DRAINING, an MLDSA_KEYGEN of channel 0 still at work on it. -/
def drainingLane : State :=
  let regs : List (Fld × Nat) := [(F.PWR_STATUS_SEQ_STATE, Seq.service.code), (F.CRY_LANES0_LAT, 1)]
  let unit : Flight := { idx := 0, desc := { op := 0x10 }, started := true, lane := some 0 }
  let chip : Chip := { State.reset.chip with cry := { ch := [(0, { fl := [unit] })] } }
  { State.reset with chip := chip.each regs fun c p => c.put p.1 p.2 }

/-- The lane is not drained while a unit holds it. -/
theorem exec_laneDrained_drainingLane :
    ∃ d, exec (.laneDrained 0 0) drainingLane = .next (drainingLane.settled d) ∧ d.laneSt 0 0 = 1 :=
  ⟨_, rfl, by decide +kernel⟩

/-- What follows of itself leaves the lattice lanes. -/
theorem Chip.laneSt_settle_lattice (c : Chip) (l : Nat) : c.settle.laneSt 0 l = c.laneSt 0 l :=
  congrArg (bitsOf · (2 * l + 1) (2 * l)) (c.settle_touch.geti_eq (f := F.CRY_LANES0_LAT) (i := 0) (by decide +kernel))

/-- Refutes O37: the last clause on LANE_DRAINED does not ask that nothing run on the lane. In `drainingLane` every condition named there holds, and
the lane, which the clause claims in TESTING, goes on draining. -/
theorem not_lanesAndEntropy : ¬ Obligations.LanesAndEntropy := by
  rintro ⟨-, -, -, -, -, -, ⟨-, -, htested⟩, -, -⟩
  obtain ⟨c, hc, hst⟩ := htested drainingLane 0 0 (by decide +kernel) (by decide) (by decide) (by decide +kernel)
  obtain ⟨d, hd, hdrains⟩ := exec_laneDrained_drainingLane
  have hsame : c.laneSt 0 0 = d.laneSt 0 0 := by rw [← c.laneSt_settle_lattice, ← d.laneSt_settle_lattice, Chip.settle_eq_of_next hc hd]
  exact absurd (hst.symm.trans (hsame.trans hdrains)) (by decide)

end Sys2Proof.Machine

/-!
SUPPORT. The statement on the crypto channels (spec section 10): the channels' tables, what waits for a lane, and a descriptor's way from `HEAD` to
its lane.
-/

namespace Sys2Proof.Machine

set_option Elab.async false

/-! Tables of the channels. -/

theorem tget_tput {α : Type} (t : Tab α) (k j : Nat) (v d : α) : tget (tput t k v) j d = if j = k then v else tget t j d := by
  rw [tget, tget?_tput]
  split
  · rfl
  · rfl

@[simp] theorem Chip.ch_chMod_same (c : Chip) (n : Nat) (f : CryCh → CryCh) : (c.chMod n f).ch n = f (c.ch n) := by
  simp [Chip.ch, Chip.chMod, Chip.cr, tmod, tget_tput]

theorem Chip.ch_chMod_other (c : Chip) {n k : Nat} (h : k ≠ n) (f : CryCh → CryCh) : (c.chMod n f).ch k = c.ch k := by
  simp [Chip.ch, Chip.chMod, Chip.cr, tmod, tget_tput, h]

theorem Chip.ch_of_cry {c d : Chip} (h : d.cry.ch = c.cry.ch) (k : Nat) : d.ch k = c.ch k :=
  congrArg (fun t => tget t k ({} : CryCh)) h

theorem Touch.ch_eq {pm bm : Nat} {c d : Chip} (h : Touch pm bm c d) (hp : pm.testBit Part.cry.ix = false) (k : Nat) : d.ch k = c.ch k :=
  Chip.ch_of_cry (congrArg Cry.ch (h.same .cry hp)) k

theorem Chip.ch_puti (c : Chip) (f : Fld) (i v k : Nat) : (c.puti f i v).ch k = c.ch k :=
  Chip.ch_of_cry (congrArg Cry.ch (c.puti_same f i v .cry)) k

/-! The DRBG leaves the channels (R283). -/

theorem Chip.chs_put (c : Chip) (f : Fld) (v : Nat) : (c.put f v).cry.ch = c.cry.ch := congrArg Cry.ch (c.put_same f v .cry)

theorem Chip.chs_entBlock (c : Chip) (i : Nat) : (c.entBlock i).2.cry.ch = c.cry.ch ∧ (c.entBlock i).2.dbg = c.dbg := by
  unfold Chip.entBlock
  split
  · exact ⟨rfl, rfl⟩
  · exact ⟨rfl, rfl⟩

theorem Chip.chs_entInput (c : Chip) : c.entInput.2.cry.ch = c.cry.ch ∧ c.entInput.2.dbg = c.dbg := by
  unfold Chip.entInput
  extract_lets a b
  obtain ⟨ha, hadbg⟩ := c.chs_entBlock (if c.entGives 0 || !c.entGives 1 then 0 else 1)
  obtain ⟨hb, hbdbg⟩ := a.2.chs_entBlock (if c.entGives 1 || !c.entGives 0 then 1 else 0)
  exact ⟨hb.trans ha, hbdbg.trans hadbg⟩

theorem Chip.chs_drbgSeeded (c : Chip) (seed : List Byte) : (c.drbgSeeded seed).cry.ch = c.cry.ch ∧ (c.drbgSeeded seed).dbg = c.dbg :=
  ⟨(Chip.chs_put ..).trans (Chip.chs_put ..), (Chip.dbg_put ..).trans (Chip.dbg_put ..)⟩

theorem Chip.chs_drbgSeed (c : Chip) : c.drbgSeed.cry.ch = c.cry.ch :=
  (Chip.chs_drbgSeeded ..).1.trans c.chs_entInput.1

theorem Chip.chs_drbgStart (c : Chip) : c.drbgStart.cry.ch = c.cry.ch ∧ c.drbgStart.dbg = c.dbg := by
  unfold Chip.drbgStart
  extract_lets e
  obtain ⟨he, hedbg⟩ := c.chs_entInput
  obtain ⟨hseed, hdbg⟩ := e.2.chs_drbgSeeded (Config.drbgInit e.1 c.drbgPers)
  refine ⟨?_, ?_⟩
  · rw [Chip.chs_put, Chip.chs_put, hseed, he]
  · rw [Chip.dbg_put, Chip.dbg_put, hdbg, hedbg]

theorem Chip.chs_count (c : Chip) (i n : Nat) : (c.count i n).cry.ch = c.cry.ch := congrArg Cry.ch ((c.count_touch i n).same .cry rfl)

theorem Chip.chs_rngReq (c : Chip) (n : Nat) (pr : Bool) : (c.rngReq n pr).2.2.cry.ch = c.cry.ch := by
  unfold Chip.rngReq
  extract_lets d e r g
  have hd : d.cry.ch = c.cry.ch := by
    unfold d
    split
    · exact c.chs_drbgStart.1
    · rfl
  have he : e.cry.ch = d.cry.ch := by
    unfold e
    split
    · exact d.chs_drbgSeed
    · rfl
  split
  · exact (Chip.chs_put ..).trans hd
  · rw [Chip.chs_count, Chip.chs_put, Chip.add, Chip.addi]
    exact (Chip.chs_put g ..).trans (he.trans hd)

/-- The DRBG is not in ERROR and some source can give it a reseed. -/
def Chip.drbgServes (c : Chip) : Prop := c.get F.CRY_DRBG_STATUS_ERROR = 0 ∧ c.entNone = false

theorem Chip.entNone_eq {c d : Chip} (hent : d.rd R.CRY_ENT = c.rd R.CRY_ENT) (hjtag : d.dbg.jtag = c.dbg.jtag)
    (hsource : d.dbg.entSource = c.dbg.entSource) : d.entNone = c.entNone := by
  have hst (i : Nat) : d.entSt i = c.entSt i := by
    unfold Chip.entSt
    split
    · exact congrArg (wget _ _) hent
    · exact congrArg (wget _ _) hent
  simp only [Chip.entNone, Chip.entRaw, hst, hjtag, hsource]

theorem Touch.rd_eq {pm bm : Nat} {c d : Chip} (h : Touch pm bm c d) {off : Nat} (hs : spares bm off = true) : d.rd off = c.rd off :=
  (h.2 off).resolve_left (not_covers_of_spares hs)

theorem Chip.drbgServes_drbgStart {c : Chip} (h : c.drbgServes) : c.drbgStart.drbgServes := by
  obtain ⟨-, hdbg⟩ := c.chs_drbgStart
  refine ⟨Chip.get_put _ _ _ rfl Nat.one_pos, ?_⟩
  rw [Chip.entNone_eq (c.drbgStart_touch.rd_eq (by decide +kernel)) (congrArg Dbg.jtag hdbg) (congrArg Dbg.entSource hdbg)]
  exact h.2

theorem Chip.rngReq_ok {c : Chip} (h : c.drbgServes) (n : Nat) (pr : Bool) : (c.rngReq n pr).1 = .ok := by
  unfold Chip.rngReq
  extract_lets d e r g
  have hd : d.drbgServes := by
    unfold d
    split
    · exact Chip.drbgServes_drbgStart h
    · exact h
  obtain ⟨herror, hnone⟩ := hd
  rw [if_neg (by simp [herror, hnone])]

/-! What ENT_RAW reads, through a trace record. -/

theorem Chip.entSource_traceOffer (c : Chip) (t kind arg0 : Nat) (data : List Byte) :
    (c.traceOffer t kind arg0 data).1.dbg.entSource = c.dbg.entSource := by
  simp only [Chip.traceOffer]
  split
  · rfl
  · split
    · simp only [Chip.trAdmit]
      split
      · split
        · rw [Chip.dbg_puti]
          rfl
        · rfl
      · rfl
    · simp [Chip.trDrop, Chip.trSet]

theorem Chip.entSource_noil (c : Chip) (unit code : Nat) (args : List Byte) : (c.noil unit code args).dbg.entSource = c.dbg.entSource := by
  unfold Chip.noil
  split
  · rfl
  · rfl

theorem Chip.entSource_countEvent (c : Chip) (code : Nat) (args : List Byte) : (c.countEvent code args).dbg.entSource = c.dbg.entSource := by
  unfold Chip.countEvent
  refine Chip.each_keeps (g := (·.dbg.entSource)) (fun d i => ?_) c
  split
  · unfold Chip.count
    split
    · rfl
    · rfl
  · rfl

theorem Chip.entSource_logRec (c : Chip) (r : EvRec) : (c.logRec r).dbg.entSource = c.dbg.entSource := by
  unfold Chip.logRec
  extract_lets cls l l'
  rw [Chip.entSource_countEvent, Chip.entSource_noil, Chip.dbg_sumBit]

theorem Chip.entSource_logDrop (c : Chip) (t : Nat) : (c.logDrop t).dbg.entSource = c.dbg.entSource := by
  unfold Chip.logDrop
  split
  · exact (Chip.entSource_traceOffer ..).trans (Chip.entSource_logRec ..)
  · rfl

theorem Chip.entSource_trace (c : Chip) (t kind arg0 : Nat) (data : List Byte) : (c.trace t kind arg0 data).dbg.entSource = c.dbg.entSource := by
  unfold Chip.trace
  extract_lets p
  split
  · exact (Chip.entSource_logDrop ..).trans (Chip.entSource_traceOffer ..)
  · exact Chip.entSource_traceOffer ..

/-! What waits for a lane and what holds one (R271). -/

/-- Is the channel's owner a core that debug has halted (R491)? -/
def Chip.chHalted (c : Chip) (n : Nat) : Bool := decide (0xF0 ≤ c.chOwner n) && c.chOwner n != 0xFF && c.coreHalted (c.chOwner n - 0xF0)

/-- Of a channel's flights, those that wait for a lane: the ones that yielded, and the first not started once its group is ready and `ORDER` lets
it. -/
def flWaits (ready : Nat → Bool) (n : Nat) (fl : List Flight) : List (Nat × Flight) :=
  let head := match fl with | g :: _ => [g.idx] | [] => []
  let next := match fl.find? (fun f => !f.started) with
    | some f => if ready f.desc.op && (!f.desc.order || head.contains f.idx) then [(n, f)] else []
    | none => []
  (fl.filter (fun f => f.started && f.lane.isNone)).map (fun f => (n, f)) ++ next

theorem Chip.chWaits_eq (c : Chip) (n : Nat) : c.chWaits n = if c.chHalted n then [] else flWaits c.cryReady n (c.ch n).fl := rfl

theorem flWaits_running (ready : Nat → Bool) (n : Nat) {f : Flight} (hstarted : f.started = true) (hlane : f.lane.isSome = true) :
    flWaits ready n [f] = [] := by
  simp [flWaits, hstarted, Option.isSome_iff_ne_none.mp hlane]

theorem flWaits_queued (ready : Nat → Bool) (n : Nat) {f : Flight} (hqueued : f.started = false) :
    flWaits ready n [f] = if ready f.desc.op then [(n, f)] else [] := by
  simp [flWaits, hqueued]

theorem mem_flWaits {ready : Nat → Bool} {n : Nat} {fl : List Flight} {w : Nat × Flight} (h : w ∈ flWaits ready n fl) : w.1 = n := by
  unfold flWaits at h
  extract_lets head next at h
  have hnext : ∀ w ∈ next, w.1 = n := by
    unfold next
    split
    · split
      · exact fun w hw => congrArg Prod.fst (List.mem_singleton.mp hw)
      · exact fun w hw => by cases hw
    · exact fun w hw => by cases hw
  rcases List.mem_append.mp h with h | h
  · obtain ⟨f, -, rfl⟩ := List.mem_map.mp h
    rfl
  · exact hnext w h

theorem Chip.fst_of_mem_chWaits {c : Chip} {n : Nat} {w : Nat × Flight} (h : w ∈ c.chWaits n) : w.1 = n := by
  rw [Chip.chWaits_eq] at h
  split at h
  · cases h
  · exact mem_flWaits h

/-- The lanes of a class are held by the flights that hold a lane. -/
theorem Chip.laneRuns_eq_of_held {c d : Chip} (h : ∀ k < 32, (d.ch k).fl.filter (·.lane.isSome) = (c.ch k).fl.filter (·.lane.isSome)) (cls : Nat) :
    d.laneRuns cls = c.laneRuns cls := by
  refine List.flatMap_congr fun k hk => ?_
  have hboth (fl : List Flight) : fl.filter (fun f => f.lane.isSome && cryLane f.desc.op == cls) =
      (fl.filter (·.lane.isSome)).filter (fun f => cryLane f.desc.op == cls) := by
    rw [List.filter_filter]
    exact List.filter_congr fun f _ => Bool.and_comm ..
  rw [hboth, hboth, h k (List.mem_range.mp hk)]

theorem Chip.mem_laneRuns {c : Chip} {cls : Nat} {r : Nat × Flight} (h : r ∈ c.laneRuns cls) :
    r.1 < 32 ∧ r.2 ∈ (c.ch r.1).fl ∧ r.2.lane.isSome = true := by
  simp only [Chip.laneRuns, List.mem_flatMap, List.mem_range, List.mem_map, List.mem_filter, Bool.and_eq_true] at h
  obtain ⟨k, hk, f, ⟨hf, hlane, -⟩, rfl⟩ := h
  exact ⟨hk, hf, hlane⟩

/-- An open lane is held by nothing, so what takes it makes nothing yield. -/
theorem Chip.no_yield_of_laneOpen {c : Chip} {cls l : Nat} (h : c.laneOpen cls = some l) :
    (c.laneRuns cls).filter (fun r => cls != 7 && r.2.lane == some l) = [] := by
  rw [List.filter_eq_nil_iff]
  intro r hr
  unfold Chip.laneOpen at h
  split at h
  · next h7 => simp [h7]
  · have hfree := List.find?_some h
    have hother := List.all_eq_true.mp hfree r hr
    rw [beq_eq_false_iff_ne.mpr (by simpa using hother), Bool.and_false]
    exact Bool.false_ne_true

theorem Chip.laneFor_of_laneOpen {c : Chip} {f : Flight} {l : Nat} (h : c.laneOpen (cryLane f.desc.op) = some l) : c.laneFor f = some l := by
  simp only [Chip.laneFor, h]

theorem flightFirst_mem {ws : List (Nat × Flight)} {w : Nat × Flight} (h : flightFirst ws = some w) : w ∈ ws := by
  refine (List.foldlRecOn (motive := fun m => ∀ v, m = some v → v ∈ ws) ws _ (fun _ hv => by cases hv) ?_) w h
  intro m ih v hv u hu
  split at hu
  · split at hu
    · obtain rfl := Option.some.inj hu
      exact hv
    · exact ih u hu
  · obtain rfl := Option.some.inj hu
    exact hv

/-! One step of the arbiter. -/

theorem Chip.cryGo_of_none {c : Chip} (h : ∀ k < 32, c.chWaits k = []) (fuel : Nat) : c.cryGo fuel = c := by
  have hnone : (List.range 32).flatMap c.chWaits = [] := List.flatMap_eq_nil_iff.mpr fun k hk => h k (List.mem_range.mp hk)
  cases fuel with
  | zero => rfl
  | succ fuel => simp [Chip.cryGo, hnone, flightFirst]

theorem flatMap_range_singleton {α : Type} {f : Nat → List α} {a : α} {n : Nat} (hn : f n = [a]) {m : Nat} (hm : n < m)
    (hother : ∀ k < m, k ≠ n → f k = []) : (List.range m).flatMap f = [a] := by
  induction m with
  | zero => omega
  | succ m ih =>
    rw [List.range_succ, List.flatMap_append, List.flatMap_singleton]
    rcases Nat.lt_succ_iff_lt_or_eq.mp hm with hlt | rfl
    · rw [ih hlt fun k hk => hother k (Nat.lt_succ_of_lt hk), hother m (Nat.lt_succ_self m) (Nat.ne_of_gt hlt), List.append_nil]
    · rw [hn, List.flatMap_eq_nil_iff.mpr fun k hk => hother k (Nat.lt_succ_of_lt (List.mem_range.mp hk)) (Nat.ne_of_lt (List.mem_range.mp hk)),
        List.nil_append]

/-- A flight that alone waits takes the lane it can have. -/
theorem Chip.cryGo_of_one {c : Chip} {n l : Nat} {f : Flight} (hn : n < 32) (hwait : c.chWaits n = [(n, f)])
    (hother : ∀ k < 32, k ≠ n → c.chWaits k = []) (hlane : c.laneFor f = some l) (fuel : Nat) :
    c.cryGo (fuel + 1) = (c.cryStart n f l).cryGo fuel := by
  simp [Chip.cryGo, flatMap_range_singleton hwait hn hother, hlane, flightFirst]

/-! What the channels read of the chip. -/

/-- From `c` to `d` at most that changed which a descriptor changes as it is taken from its ring, waits, starts and ends. -/
def CryTouch (c d : Chip) : Prop := Touch 0x4090e 0x180000000000000000000384000000000000000000000000000000000004 c d

theorem CryTouch.geti_eq {c d : Chip} (h : CryTouch c d) {f : Fld} {i : Nat}
    (hs : spares 0x180000000000000000000384000000000000000000000000000000000004 (f.off i) = true) : d.geti f i = c.geti f i :=
  Touch.geti_eq h hs

theorem Chip.chOwner_lt (c : Chip) (n : Nat) : c.chOwner n < 256 := by
  unfold Chip.chOwner
  split
  · decide
  · exact c.geti_lt F.CRY_CHn_CFG_OWNER n

section
variable {c d : Chip} (h : CryTouch c d)
include h

theorem CryTouch.cfg_eq {n : Nat} (hn : n < 32) : d.rd (R.CRY_CHn_CFG n) = c.rd (R.CRY_CHn_CFG n) := by
  have hs : ∀ n < 32, spares 0x180000000000000000000384000000000000000000000000000000000004 (R.CRY_CHn_CFG n) = true := by decide +kernel
  exact Touch.rd_eq h (hs n hn)

theorem CryTouch.chOwner_eq {n : Nat} (hn : n < 32) : d.chOwner n = c.chOwner n := by
  have howner : d.geti F.CRY_CHn_CFG_OWNER n = c.geti F.CRY_CHn_CFG_OWNER n := congrArg (wget _ _) (h.cfg_eq hn)
  rw [Chip.chOwner, Chip.chOwner, howner]

theorem CryTouch.chSpn_eq {n : Nat} (hn : n < 32) : d.chSpn n = c.chSpn n := by rw [Chip.chSpn, Chip.chSpn, h.chOwner_eq hn]

theorem CryTouch.coreHalted_eq {k : Nat} (hk : k < 16) : d.coreHalted k = c.coreHalted k := by
  have hs : ∀ k < 16, spares 0x180000000000000000000384000000000000000000000000000000000004 (F.DBG_COREc_STATUS_STATE.off k) = true := by
    decide +kernel
  rw [Chip.coreHalted, Chip.coreHalted, h.geti_eq (hs k hk)]

theorem CryTouch.grp_eq (g : Nat) : d.grp g = c.grp g := Touch.grp_eq h (by decide +kernel) g

theorem CryTouch.cryReady_eq (op : Nat) : d.cryReady op = c.cryReady op := by rw [Chip.cryReady, Chip.cryReady, h.grp_eq]

theorem CryTouch.cryDown_eq (op : Nat) : d.cryDown op = c.cryDown op := by
  have hdis : d.get F.PWR_GRP_CTRL_DISABLE = c.get F.PWR_GRP_CTRL_DISABLE := h.geti_eq (by decide +kernel)
  rw [Chip.cryDown, Chip.cryDown, h.grp_eq, hdis]

theorem CryTouch.laneFree_eq (cls : Nat) : d.laneFree cls = c.laneFree cls := by
  have hlanes : d.get (laneField cls) = c.get (laneField cls) := by
    unfold laneField
    split <;> exact h.geti_eq (by decide +kernel)
  simp only [Chip.laneFree, Chip.laneSt, hlanes]

theorem CryTouch.chHalted_eq {n : Nat} (hn : n < 32) : d.chHalted n = c.chHalted n := by
  have hlt := c.chOwner_lt n
  rw [Chip.chHalted, Chip.chHalted, h.chOwner_eq hn, h.coreHalted_eq (by omega)]

theorem CryTouch.chWaits_eq {n : Nat} (hn : n < 32) (hfl : (d.ch n).fl = (c.ch n).fl) : d.chWaits n = c.chWaits n := by
  rw [Chip.chWaits_eq, Chip.chWaits_eq, h.chHalted_eq hn, hfl, funext h.cryReady_eq]

theorem CryTouch.laneOpen_eq (hruns : ∀ k < 32, (d.ch k).fl.filter (·.lane.isSome) = (c.ch k).fl.filter (·.lane.isSome)) (cls : Nat) :
    d.laneOpen cls = c.laneOpen cls := by
  rw [Chip.laneOpen, Chip.laneOpen, h.laneFree_eq, Chip.laneRuns_eq_of_held hruns]

end

/-! A channel that waits for nothing: the arbiter leaves it, whatever starts, yields or is refused on others. -/

/-- The flights of a channel, and how many `CRY_CHn_STATUS` shows. -/
def Chip.chShown (c : Chip) (n : Nat) : List Flight × Nat := ((c.ch n).fl, c.geti F.CRY_CHn_STATUS_INFLIGHT n)

theorem Chip.chShown_eq {c d : Chip} {n : Nat} (hch : d.ch n = c.ch n)
    (hshown : d.geti F.CRY_CHn_STATUS_INFLIGHT n = c.geti F.CRY_CHn_STATUS_INFLIGHT n) : d.chShown n = c.chShown n := by
  rw [Chip.chShown, Chip.chShown, hch, hshown]

theorem Chip.inflight_puti_other (c : Chip) {m n : Nat} (h : m ≠ n) (v : Nat) {f : Fld} (hf : f.base = 0xC110 ∨ f.base = 0xC114)
    (hstride : f.stride = 0x20) : (c.puti f m v).geti F.CRY_CHn_STATUS_INFLIGHT n = c.geti F.CRY_CHn_STATUS_INFLIGHT n := by
  refine Chip.geti_puti_other _ _ _ _ _ _ rfl ?_
  have hoff : F.CRY_CHn_STATUS_INFLIGHT.off n ≠ f.off m := by
    simp only [Fld.off, hstride, F.CRY_CHn_STATUS_INFLIGHT]
    omega
  simp [Fld.apart, hoff]

theorem Touch.inflight_eq {pm bm : Nat} {c d : Chip} (h : Touch pm bm c d) {n : Nat} (hn : n < 32)
    (hs : (List.range 32).all (fun n => spares bm (R.CRY_CHn_STATUS n)) = true) :
    d.geti F.CRY_CHn_STATUS_INFLIGHT n = c.geti F.CRY_CHn_STATUS_INFLIGHT n :=
  congrArg (wget _ _) (h.rd_eq (List.all_eq_true.mp hs n (List.mem_range.mpr hn)))

/-- What spares the cluster's component and the channels' status shows a channel as before. -/
theorem Touch.chShown_eq {pm bm : Nat} {c d : Chip} (h : Touch pm bm c d) (hp : pm.testBit Part.cry.ix = false) {n : Nat} (hn : n < 32)
    (hs : (List.range 32).all (fun n => spares bm (R.CRY_CHn_STATUS n)) = true) : d.chShown n = c.chShown n :=
  Chip.chShown_eq (h.ch_eq hp n) (h.inflight_eq hn hs)

section
variable (c : Chip) {m n : Nat} (hmn : m ≠ n) (hn : n < 32)
include hmn

theorem Chip.chShown_chMod_other (f : CryCh → CryCh) : (c.chMod m f).chShown n = c.chShown n :=
  Chip.chShown_eq (c.ch_chMod_other hmn.symm f) rfl

theorem Chip.chShown_puti_other (v : Nat) {f : Fld} (hf : f.base = 0xC110 ∨ f.base = 0xC114) (hstride : f.stride = 0x20) :
    (c.puti f m v).chShown n = c.chShown n :=
  Chip.chShown_eq (c.ch_puti ..) (c.inflight_puti_other hmn v hf hstride)

theorem Chip.chShown_chKeySet_other (r : Nat) (k : CKey) : (c.chKeySet m r k).chShown n = c.chShown n :=
  (Chip.chShown_puti_other _ hmn _ (.inr rfl) rfl).trans (c.chShown_chMod_other hmn _)

include hn

theorem Chip.chShown_chBack_other (idx flags : Nat) (st : Status) (iter used : Nat) :
    (c.chBack m idx flags st iter used).chShown n = c.chShown n := by
  have hwr (d : Chip) (o a : Nat) (bs : List Byte) : (d.ownWr o a bs).chShown n = d.chShown n :=
    (d.ownWr_touch o a bs).chShown_eq rfl hn (by decide +kernel)
  unfold Chip.chBack
  extract_lets a o d e
  have he : e.chShown n = c.chShown n := by rw [hwr, hwr, hwr]
  split
  · exact he
  · exact (Chip.chShown_puti_other _ hmn _ (.inl rfl) rfl).trans he

theorem Chip.chShown_chDone_other (f : Flight) (st : Status) (iter : Nat) : (c.chDone m f st iter).chShown n = c.chShown n := by
  unfold Chip.chDone
  extract_lets o c1 c2 c3 c4 c5 c6
  have h3 : c3.chShown n = c.chShown n :=
    ((c2.ownWr_touch ..).chShown_eq rfl hn (by decide +kernel)).trans
      ((Chip.chShown_puti_other _ hmn _ (.inl rfl) rfl).trans (c.chShown_chMod_other hmn _))
  have h4 : c4.chShown n = c3.chShown n := by
    unfold c4
    split
    · split
      · exact Chip.chShown_chKeySet_other _ hmn ..
      · rfl
    · rfl
  have h6 : c6.chShown n = c.chShown n :=
    ((c5.trace_touch ..).chShown_eq rfl hn (by decide +kernel)).trans ((Chip.chShown_chBack_other _ hmn hn ..).trans (h4.trans h3))
  split
  · exact ((c6.chIrq_touch ..).chShown_eq rfl hn (by decide +kernel)).trans h6
  · exact h6

end

theorem Chip.chShown_cryBegin (c : Chip) {n : Nat} (hn : n < 32) (m : Nat) (d : CryDesc) : (c.cryBegin m d).1.chShown n = c.chShown n := by
  refine Chip.chShown_eq (Chip.ch_of_cry ?_ n) ((c.cryBegin_touch m d).inflight_eq hn (by decide +kernel))
  unfold Chip.cryBegin
  extract_lets k w wrong ld rnd r
  split
  · exact congrArg Cry.ch ((c.sealLog_touch m).same .cry rfl)
  · split
    · rfl
    · split
      · rfl
      · split
        · rfl
        · split
          · exact c.chs_rngReq ..
          · exact c.chs_rngReq ..

/-- A start on one channel leaves another that holds no lane. -/
theorem Chip.chShown_cryStart_other (c : Chip) {m n : Nat} (hmn : m ≠ n) (hn : n < 32) (hheld : ∀ g ∈ (c.ch n).fl, g.lane = none)
    (f : Flight) (l : Nat) :
    (c.cryStart m f l).chShown n = c.chShown n := by
  unfold Chip.cryStart
  extract_lets d seed r
  have hd : d.chShown n = c.chShown n := by
    have hother : ∀ r ∈ (c.laneRuns (cryLane f.desc.op)).filter (fun r => cryLane f.desc.op != 7 && r.2.lane == some l), r.1 ≠ n := by
      rintro r hr rfl
      obtain ⟨-, hmem, hlane⟩ := Chip.mem_laneRuns (List.mem_filter.mp hr).1
      simp [hheld _ hmem] at hlane
    refine List.foldlRecOn (motive := fun (d : Chip) => d.chShown n = c.chShown n) _ _ rfl fun d hd r hr => ?_
    exact (d.chShown_chMod_other (hother r hr) _).trans hd
  split
  · exact (d.chShown_chMod_other hmn _).trans hd
  · have hr : r.1.chShown n = c.chShown n := (d.chShown_cryBegin hn m f.desc).trans hd
    split
    · exact (r.1.chShown_chDone_other hmn hn ..).trans hr
    · have hput (g : Flight) : (r.1.flPut m g).chShown n = c.chShown n := (r.1.chShown_chMod_other hmn _).trans hr
      unfold Chip.seedUse
      split
      · exact hput _
      · exact hput _

theorem Chip.chShown_cryGo {c : Chip} {n : Nat} (hn : n < 32) (hwait : c.chWaits n = []) (hheld : ∀ g ∈ (c.ch n).fl, g.lane = none) (fuel : Nat) :
    (c.cryGo fuel).chShown n = c.chShown n := by
  induction fuel generalizing c with
  | zero => rfl
  | succ fuel ih =>
    unfold Chip.cryGo
    split
    · rfl
    · next w hw =>
      obtain ⟨k, hk, hmem⟩ := List.mem_flatMap.mp (List.mem_filter.mp (flightFirst_mem hw)).1
      have hother : w.1 ≠ n := by
        rw [Chip.fst_of_mem_chWaits hmem]
        rintro rfl
        rw [hwait] at hmem
        cases hmem
      have hstart := c.chShown_cryStart_other hother hn hheld w.2 ((c.laneFor w.2).getD 0)
      have hfl : ((c.cryStart w.1 w.2 ((c.laneFor w.2).getD 0)).ch n).fl = (c.ch n).fl := congrArg Prod.fst hstart
      have htouch : CryTouch c (c.cryStart w.1 w.2 ((c.laneFor w.2).getD 0)) := (c.cryStart_touch ..).mono (by decide +kernel) (by decide +kernel)
      exact (ih ((htouch.chWaits_eq hn hfl).trans hwait) fun g hg => hheld g (by rwa [hfl] at hg)).trans hstart

/-! A descriptor taken at `HEAD` (R268). -/

/-- The descriptor offered is fetched: `HEAD` moves on, the counters that a start resets are reset, and the start is traced. -/
def Chip.cryFetched (c : Chip) (n : Nat) : Chip :=
  let d := c.chRead n
  let c := c.puti F.CRY_CHn_HEAD_IDX n (c.cryNext n)
  (c.countReset 2 (fun i => c.geti F.DBG_CNTi_CFG_CH i == n)).trace 12 1 0 (pack [(1, d.op), (1, d.flags), (1, d.key), (1, d.cls)])

/-- And enters the channel, waiting for its start. -/
def Chip.cryEntered (c : Chip) (n : Nat) : Chip :=
  let e := c.cryFetched n
  ((e.chMod n (fun u => { u with fl := u.fl ++ [c.cryQueued n] })).cr (fun u => { u with arrive := u.arrive + 1 })).puti F.CRY_CHn_STATUS_INFLIGHT n
    ((e.ch n).fl.length + 1)

theorem Chip.cryFetched_touch_head (c : Chip) (n : Nat) :
    Touch 0x108 0x180000000000000000000000000000000000000000000000000000000004 (c.puti F.CRY_CHn_HEAD_IDX n (c.cryNext n)) (c.cryFetched n) :=
  .step (Chip.trace_touch ..) (by decide +kernel) (by decide +kernel) (.step (Chip.countReset_touch ..) (by decide +kernel) (by decide +kernel) .refl)

theorem Chip.cryFetched_touch (c : Chip) (n : Nat) :
    Touch 0x108 0x180000000000000000000080000000000000000000000000000000000004 c (c.cryFetched n) :=
  .step (c.cryFetched_touch_head n) (by decide +kernel) (by decide +kernel) (.puti (by decide +kernel) .refl)

theorem Chip.cryEntered_touch_fetched (c : Chip) (n : Nat) :
    Touch 0x40000 0x100000000000000000000000000000000000000 (c.cryFetched n) (c.cryEntered n) :=
  .puti (by decide +kernel) (.step (Chip.cr_touch ..) (by decide +kernel) (by decide +kernel)
    (.step (Chip.chMod_touch ..) (by decide +kernel) (by decide +kernel) .refl))

theorem Chip.cryEntered_touch (c : Chip) (n : Nat) :
    Touch 0x40108 0x180000000000000000000180000000000000000000000000000000000004 c (c.cryEntered n) :=
  .step (c.cryEntered_touch_fetched n) (by decide +kernel) (by decide +kernel) ((c.cryFetched_touch n).mono (by decide +kernel) (by decide +kernel))

/-- What `Chip.cryOffered` says. -/
theorem Chip.cryOffered_iff {c : Chip} {n op : Nat} : c.cryOffered n op = true ↔ (c.chRead n).op = op ∧ c.svcUp = true ∧ n < 32 ∧
    c.geti F.CRY_CHn_CFG_EN n = 1 ∧ c.geti F.CRY_CHn_HEAD_IDX n ≠ c.geti F.CRY_CHn_TAIL_IDX n ∧ c.cryNext n = c.geti F.CRY_CHn_TAIL_IDX n ∧
    bit (c.chRead n).flags 0 = true ∧ c.geti F.CRY_CHn_CFG_LOG2 n ≤ 8 ∧ (c.ch n).fl = [] := by
  simp only [Chip.cryOffered, Bool.and_eq_true, beq_iff_eq, bne_iff_ne, decide_eq_true_eq, List.isEmpty_iff, and_assoc]

/-- What `Chip.cryChecks` says. -/
theorem Chip.cryChecks_iff {c : Chip} {n : Nat} : c.cryChecks n = true ↔ c.cryDown (c.chRead n).op = false ∧
    cryAllowed (c.chSpn n) (c.chRead n) = true ∧ cryGood (c.chSpn n) (c.geti F.CRY_CHn_CFG_CAP n) (c.chRead n) = true ∧
    c.cryPoison n (c.chRead n) = false := by
  simp only [Chip.cryChecks, Bool.and_eq_true, Bool.not_eq_true', and_assoc]

theorem Chip.cryTouch_cryEntered (c : Chip) (n : Nat) : CryTouch c (c.cryEntered n) :=
  (c.cryEntered_touch n).mono (by decide +kernel) (by decide +kernel)

theorem CryTouch.cryPoison_eq {c d : Chip} (h : CryTouch c d) {n : Nat} (hn : n < 32) (hmem : d.mem = c.mem) (desc : CryDesc) :
    d.cryPoison n desc = c.cryPoison n desc := by
  have hpoison (a k : Nat) : d.poisoned a k = c.poisoned a k := by rw [Chip.poisoned, Chip.poisoned, hmem]
  rw [Chip.cryPoison, Chip.cryPoison, h.chSpn_eq hn, hpoison, hpoison]

/-- A descriptor that passes its checks enters the channel; a group that is not on is needed; then the arbiter runs. -/
theorem Chip.cryTake_of_checks {c : Chip} {n op : Nat} (hoff : c.cryOffered n op = true) (hchecks : c.cryChecks n = true) :
    c.cryTake n (c.chRead n) = (if c.cryReady op then c.cryEntered n else (c.cryEntered n).groupNeed (cryGroup op)).cryArb := by
  obtain ⟨rfl, hup, hn, hen, hne, -, hown, -, -⟩ := Chip.cryOffered_iff.mp hoff
  obtain ⟨hdown, hallowed, hgood, hpoison⟩ := Chip.cryChecks_iff.mp hchecks
  unfold Chip.cryTake
  extract_lets h d e good st f g
  have htouch : CryTouch c e := (c.cryFetched_touch n).mono (by decide +kernel) (by decide +kernel)
  have hmem : e.mem = c.mem := (c.cryFetched_touch n).same .mem rfl
  have hcap : e.geti F.CRY_CHn_CFG_CAP n = c.geti F.CRY_CHn_CFG_CAP n := congrArg (wget _ _) (htouch.cfg_eq hn)
  have hgood' : good = true := by rw [← hgood, ← htouch.chSpn_eq hn, ← hcap]
  have hst : st = .ok := by
    simp only [st, hgood', htouch.cryDown_eq, hdown, htouch.chSpn_eq hn, hallowed, htouch.cryPoison_eq hn hmem, hpoison]
    rfl
  have hf : f = c.cryQueued n := by
    have harrive : e.cry.arrive = c.cry.arrive := congrArg Cry.arrive ((c.cryFetched_touch n).same .cry rfl)
    simp only [f, Chip.cryQueued, harrive, h]
  have hg : g = c.cryEntered n := by
    simp only [g, hf]
    rfl
  rw [if_neg (by simp [h, hup, hn, hen, hne, hown]), if_pos hst, hg, (c.cryTouch_cryEntered n).cryReady_eq]

theorem Chip.ch_cryEntered_fetched (c : Chip) (n k : Nat) :
    (c.cryEntered n).ch k = ((c.cryFetched n).chMod n (fun u => { u with fl := u.fl ++ [c.cryQueued n] })).ch k :=
  (Chip.ch_puti ..).trans rfl

theorem Chip.ch_cryEntered (c : Chip) (n : Nat) : (c.cryEntered n).ch n = { c.ch n with fl := (c.ch n).fl ++ [c.cryQueued n] } := by
  rw [Chip.ch_cryEntered_fetched, Chip.ch_chMod_same, (c.cryFetched_touch n).ch_eq rfl]

theorem Chip.ch_cryEntered_other (c : Chip) {n k : Nat} (h : k ≠ n) : (c.cryEntered n).ch k = c.ch k := by
  rw [Chip.ch_cryEntered_fetched, Chip.ch_chMod_other _ h, (c.cryFetched_touch n).ch_eq rfl]

theorem Touch.head_eq {pm bm : Nat} {c d : Chip} (h : Touch pm bm c d) {n : Nat} (hn : n < 32)
    (hs : (List.range 32).all (fun n => spares bm (R.CRY_CHn_HEAD n)) = true) : d.geti F.CRY_CHn_HEAD_IDX n = c.geti F.CRY_CHn_HEAD_IDX n :=
  congrArg (wget _ _) (h.rd_eq (List.all_eq_true.mp hs n (List.mem_range.mpr hn)))

theorem Touch.tail_eq {pm bm : Nat} {c d : Chip} (h : Touch pm bm c d) {n : Nat} (hn : n < 32)
    (hs : (List.range 32).all (fun n => spares bm (R.CRY_CHn_TAIL n)) = true) : d.geti F.CRY_CHn_TAIL_IDX n = c.geti F.CRY_CHn_TAIL_IDX n :=
  congrArg (wget _ _) (h.rd_eq (List.all_eq_true.mp hs n (List.mem_range.mpr hn)))

theorem Chip.head_cryEntered {c : Chip} {n : Nat} (hn : n < 32) (hlog : c.geti F.CRY_CHn_CFG_LOG2 n ≤ 8) :
    (c.cryEntered n).geti F.CRY_CHn_HEAD_IDX n = c.cryNext n := by
  have hlt : c.cryNext n < 2 ^ 8 := calc
    c.cryNext n < 2 ^ c.geti F.CRY_CHn_CFG_LOG2 n := Nat.mod_lt _ (Nat.two_pow_pos _)
    _ ≤ 2 ^ 8 := Nat.pow_le_pow_right (by decide) hlog
  rw [(c.cryEntered_touch_fetched n).head_eq hn (by decide +kernel), (c.cryFetched_touch_head n).head_eq hn (by decide +kernel),
    Chip.geti_puti _ _ _ _ rfl hn]
  exact Nat.mod_eq_of_lt hlt

theorem Chip.inflight_cryEntered {c : Chip} {n : Nat} (hn : n < 32) (hempty : (c.ch n).fl = []) :
    (c.cryEntered n).geti F.CRY_CHn_STATUS_INFLIGHT n = 1 := by
  rw [Chip.cryEntered, Chip.geti_puti _ _ _ _ rfl hn, (c.cryFetched_touch n).ch_eq rfl, hempty]
  rfl

/-! The row of an operation: the descriptor taken, the rest of the ring looked at. -/

theorem Chip.crySkip_of_empty {c : Chip} {n : Nat} (h : c.geti F.CRY_CHn_HEAD_IDX n = c.geti F.CRY_CHn_TAIL_IDX n) (fuel : Nat) :
    c.crySkip n fuel = c := by
  cases fuel with
  | zero => rfl
  | succ fuel => simp [Chip.crySkip, h]

/-- The one descriptor of a ring taken leaves nothing to look at. -/
theorem Chip.cryRow_of_offered {c d : Chip} {n op : Nat} (hoff : c.cryOffered n op = true) (htake : c.cryTake n (c.chRead n) = d)
    (hhead : d.geti F.CRY_CHn_HEAD_IDX n = c.cryNext n) : c.cryRow n op = d := by
  obtain ⟨hop, -, hn, -, -, hnext, -⟩ := Chip.cryOffered_iff.mp hoff
  have htail : d.geti F.CRY_CHn_TAIL_IDX n = c.geti F.CRY_CHn_TAIL_IDX n := by
    rw [← htake]
    exact (c.cryTake_touch n (c.chRead n)).tail_eq hn (by decide +kernel)
  rw [Chip.cryRow, if_pos hop, htake, Chip.crySkip_of_empty (by rw [hhead, hnext, htail])]

/-- A channel that is not enabled takes nothing. -/
theorem Chip.cryRow_of_disabled {c : Chip} {n : Nat} (h : c.geti F.CRY_CHn_CFG_EN n = 0) (op : Nat) : c.cryRow n op = c := by
  have htake : c.cryTake n (c.chRead n) = c := if_pos (by simp [h])
  have hskip (fuel : Nat) : c.crySkip n fuel = c := by
    induction fuel with
    | zero => rfl
    | succ fuel ih =>
      unfold Chip.crySkip
      split
      · rfl
      · rw [htake, ih]
  rw [Chip.cryRow, htake, hskip, ite_self]

/-! A descriptor whose group is off (R61). -/

theorem cryGroup_lt (op : Nat) : cryGroup op < 6 := by
  unfold cryGroup
  repeat' split
  all_goals decide

/-- A group that is needed, neither disabled nor FAILED, is not off, and does not come on at once. -/
theorem Chip.grp_groupNeed {c : Chip} {g : Nat} (hup : c.svcUp = true) (hg : g ≠ 0) (hg6 : g < 6)
    (hdis : bit (c.get F.PWR_GRP_CTRL_DISABLE) (g - 1) = false) (hon : c.grp g ≠ 2) : (c.groupNeed g).grp g ≠ 0 ∧ (c.groupNeed g).grp g ≠ 2 := by
  by_cases hoff : c.grp g = 0
  · rw [Chip.groupNeed_of_off hup hg hg6 hdis hoff, Chip.grp_setGrp _ hg6 (by decide)]
    decide
  · have hsame : c.groupNeed g = c := by rw [Chip.groupNeed, if_neg (by simp [hup, hg, hdis, Nat.le_of_lt_succ hg6]), if_neg hoff]
    rw [hsame]
    exact ⟨hoff, hon⟩

/-- The group of a descriptor that passed its checks, needed, is waking or to be woken. -/
theorem Chip.grp_needed_cryEntered {c : Chip} {n : Nat} (hup : c.svcUp = true) (hdown : c.cryDown (c.chRead n).op = false)
    (hready : c.cryReady (c.chRead n).op = false) : cryGroup (c.chRead n).op ≠ 0 ∧
      ((c.cryEntered n).groupNeed (cryGroup (c.chRead n).op)).grp (cryGroup (c.chRead n).op) ≠ 0 ∧
      ((c.cryEntered n).groupNeed (cryGroup (c.chRead n).op)).grp (cryGroup (c.chRead n).op) ≠ 2 := by
  have hentered := c.cryTouch_cryEntered n
  obtain ⟨hg, hon⟩ : cryGroup (c.chRead n).op ≠ 0 ∧ c.grp (cryGroup (c.chRead n).op) ≠ 2 := by simpa [Chip.cryReady] using hready
  have hdis : bit (c.get F.PWR_GRP_CTRL_DISABLE) (cryGroup (c.chRead n).op - 1) = false := by
    simp only [Chip.cryDown, Bool.and_eq_false_iff, Bool.or_eq_false_iff, bne_eq_false_iff_eq, hg, false_or] at hdown
    exact hdown.2
  refine ⟨hg, Chip.grp_groupNeed ?_ hg (cryGroup_lt _) ?_ ?_⟩
  · rwa [Chip.svcUp, Touch.seq_eq hentered (by decide +kernel)]
  · rwa [show (c.cryEntered n).get F.PWR_GRP_CTRL_DISABLE = _ from hentered.geti_eq (by decide +kernel)]
  · rwa [hentered.grp_eq]

/-- A descriptor whose group is off waits in flight, and the group is needed. -/
theorem Chip.cryRow_waits {c : Chip} {n op : Nat} (hoff : c.cryOffered n op = true) (hchecks : c.cryChecks n = true)
    (hready : c.cryReady op = false) :
    ((c.cryRow n op).ch n).fl = [c.cryQueued n] ∧ (c.cryRow n op).geti F.CRY_CHn_HEAD_IDX n = c.cryNext n ∧
      (c.cryRow n op).geti F.CRY_CHn_STATUS_INFLIGHT n = 1 ∧ (c.cryRow n op).grp (cryGroup op) ≠ 0 := by
  obtain ⟨rfl, hup, hn, -, -, -, -, hlog, hempty⟩ := Chip.cryOffered_iff.mp hoff
  obtain ⟨hdown, -, -, -⟩ := Chip.cryChecks_iff.mp hchecks
  obtain ⟨hg, hneeded, hnoton⟩ := Chip.grp_needed_cryEntered hup hdown hready
  let e := (c.cryEntered n).groupNeed (cryGroup (c.chRead n).op)
  have hneed : Touch 0x108 0x180000000000000000000000000000000000000000000000000000050004 (c.cryEntered n) e := Chip.groupNeed_touch ..
  have hshown : e.chShown n = ([c.cryQueued n], 1) := by
    rw [hneed.chShown_eq rfl hn (by decide +kernel), Chip.chShown, Chip.ch_cryEntered, Chip.inflight_cryEntered hn hempty, hempty]
    rfl
  have hfl : (e.ch n).fl = [c.cryQueued n] := congrArg Prod.fst hshown
  have hwait : e.chWaits n = [] := by
    have hnot : e.cryReady (c.cryQueued n).desc.op = false := by
      change e.cryReady (c.chRead n).op = false
      simpa [Chip.cryReady, hg] using hnoton
    simp [Chip.chWaits_eq, hfl, flWaits_queued (f := c.cryQueued n) _ _ rfl, hnot]
  have hgo : e.cryArb.chShown n = ([c.cryQueued n], 1) := by
    rw [Chip.cryArb, Chip.chShown_cryGo hn hwait, hshown]
    rw [hfl]
    exact fun g hg => by rw [List.mem_singleton.mp hg]; rfl
  have hhead : e.cryArb.geti F.CRY_CHn_HEAD_IDX n = c.cryNext n := by
    rw [e.cryArb_touch.head_eq hn (by decide +kernel), hneed.head_eq hn (by decide +kernel), Chip.head_cryEntered hn hlog]
  have hrow : c.cryRow n (c.chRead n).op = e.cryArb := by
    refine Chip.cryRow_of_offered hoff ?_ hhead
    rw [Chip.cryTake_of_checks hoff hchecks, if_neg (by simp [hready])]
  have hgrp : e.cryArb.grp (cryGroup (c.chRead n).op) ≠ 0 := by rwa [e.cryArb_touch.grp_eq (by decide +kernel)]
  obtain ⟨hflights, hinflight⟩ := Prod.mk.inj hgo
  rw [hrow]
  exact ⟨hflights, hhead, hinflight, hgrp⟩

/-! A descriptor whose unit starts (R269, R271). -/

/-- What an operation of channel `n` leaves of its input, its keys and random bytes. -/
def Chip.cryLeaves (c : Chip) (n : Nat) (d : CryDesc) (rnd : List Byte) : CryRes :=
  c.cryRun (c.cryLoad n d) (c.chKey n d.src) (c.chKey n (d.arg % 4)) rnd

/-- Of the chip an operation itself reads the Alias keys alone. -/
theorem Chip.cryRun_eq {c d : Chip} (h : d.boot = c.boot) : d.cryRun = c.cryRun := by
  funext desc k w rnd
  have hdistaff : d.cryDistaff desc = c.cryDistaff desc := by rw [Chip.cryDistaff, Chip.cryDistaff, h]
  unfold Chip.cryRun
  rw [hdistaff]

theorem CryTouch.cryLeaves_eq {c d : Chip} (h : CryTouch c d) {n : Nat} (hn : n < 32) (hmem : d.mem = c.mem) (hkeys : (d.ch n).keys = (c.ch n).keys)
    (desc : CryDesc) (rnd : List Byte) : d.cryLeaves n desc rnd = c.cryLeaves n desc rnd := by
  have hload : d.cryLoad n desc = c.cryLoad n desc := by
    simp only [Chip.cryLoad, Chip.ownRd, Chip.spnRd, Chip.rovRd, h.chOwner_eq hn, hmem]
  have hkey (r : Nat) : d.chKey n r = c.chKey n r := by rw [Chip.chKey, Chip.chKey, hkeys]
  rw [Chip.cryLeaves, Chip.cryLeaves, hload, hkey, hkey, Chip.cryRun_eq (Touch.same h .boot rfl)]

/-- What `Chip.cryKeyed` says of a descriptor. -/
def Chip.keyFits (c : Chip) (n : Nat) (d : CryDesc) : Prop :=
  c.cryMisuse n d = false ∧ (match crySrc d.op with | some ts => !ts.contains (c.chKey n d.src).typ | none => false) = false

theorem Chip.keyFits_of_keyed {c : Chip} {n : Nat} (h : c.cryKeyed n = true) : c.keyFits n (c.chRead n) := by
  simp only [Chip.cryKeyed, Bool.and_eq_true, Bool.not_eq_true'] at h
  obtain ⟨hmisuse, hsrc⟩ := h
  refine ⟨hmisuse, ?_⟩
  cases hts : crySrc (c.chRead n).op with
  | none => rfl
  | some ts => simpa only [hts, Bool.not_eq_false'] using hsrc

/-- An operation without a source key, and that wraps none, has none that does not fit. -/
theorem Chip.keyed_of_no_source {c : Chip} {n op : Nat} (hop : (c.chRead n).op = op) (hsrc : crySrc op = none) (hwrap : op ≠ 0x43) :
    c.cryKeyed n = true := by
  simp [Chip.cryKeyed, Chip.cryMisuse, hop, hsrc, hwrap]

theorem Chip.keyFits_eq {c d : Chip} {n : Nat} (hkeys : (d.ch n).keys = (c.ch n).keys) (desc : CryDesc) (h : c.keyFits n desc) :
    d.keyFits n desc := by
  have hkey (r : Nat) : d.chKey n r = c.chKey n r := by rw [Chip.chKey, Chip.chKey, hkeys]
  simpa only [Chip.keyFits, Chip.cryMisuse, hkey] using h

/-- A unit whose key fits and whose input is good begins: with random bytes the DRBG gives, where its operation takes any. -/
theorem Chip.cryBegin_of_fit {c : Chip} {n : Nat} {d : CryDesc} (hfit : c.keyFits n d) (hpoison : c.cryPoison n d = false)
    (hrandom : cryRandom d = 0 ∨ c.drbgServes) :
    ∃ rnd, (c.cryBegin n d).2 = c.cryLeaves n d rnd ∧ (cryRandom d = 0 → rnd = []) ∧ (c.cryBegin n d).1.cry.ch = c.cry.ch := by
  obtain ⟨hmisuse, hwrong⟩ := hfit
  have hbegin : c.cryBegin n d = if cryRandom d = 0 then (c, c.cryLeaves n d []) else
      if (c.rngReq (cryRandom d) d.pr).1 = .ok then ((c.rngReq (cryRandom d) d.pr).2.2,
        (c.rngReq (cryRandom d) d.pr).2.2.cryRun (c.cryLoad n d) (c.chKey n d.src) (c.chKey n (d.arg % 4)) (c.rngReq (cryRandom d) d.pr).2.1)
      else ((c.rngReq (cryRandom d) d.pr).2.2, { st := (c.rngReq (cryRandom d) d.pr).1, early := true }) := by
    unfold Chip.cryBegin
    extract_lets k w wrong
    rw [if_neg (by simp [hmisuse]), if_neg (by rw [show wrong = false from hwrong]; decide), if_neg (by simp [hpoison])]
    rfl
  rw [hbegin]
  by_cases hm : cryRandom d = 0
  · rw [if_pos hm]
    exact ⟨[], rfl, fun _ => rfl, rfl⟩
  · rw [if_neg hm, if_pos (Chip.rngReq_ok (hrandom.resolve_left hm) ..)]
    refine ⟨(c.rngReq (cryRandom d) d.pr).2.1, ?_, fun h => absurd h hm, c.chs_rngReq ..⟩
    rw [Chip.cryRun_eq ((c.rngReq_touch ..).same .boot rfl)]
    rfl

/-- A flight whose unit has started on lane `l`, with what its operation leaves. -/
def Chip.cryStarted (c : Chip) (n : Nat) (f : Flight) (l : Nat) (r : CryRes) : Flight :=
  { f with
    started := true, lane := some l, expand := f.desc.op == 0x11 && !c.seedHeld l (c.chKey n f.desc.src).bytes, st := r.st, out := r.out
    used := r.used, key := r.key }

/-- A unit that begins on an open lane is put there in its flight's place. -/
theorem Chip.cryStart_of_open {c : Chip} {n l : Nat} {f : Flight} (hopen : c.laneOpen (cryLane f.desc.op) = some l) (hqueued : f.started = false)
    (hearly : (c.cryBegin n f.desc).2.early = false) :
    c.cryStart n f l =
      ((c.cryBegin n f.desc).1.flPut n (c.cryStarted n f l (c.cryBegin n f.desc).2)).seedUse l f (c.chKey n f.desc.src).bytes := by
  unfold Chip.cryStart
  rw [Chip.no_yield_of_laneOpen hopen]
  simp only [Chip.each, List.foldl_nil, hqueued, hearly, Bool.false_eq_true, if_false]
  rfl

theorem Chip.ch_seedUse (c : Chip) (l : Nat) (f : Flight) (seed : List Byte) (k : Nat) : (c.seedUse l f seed).ch k = c.ch k := by
  unfold Chip.seedUse
  split
  · rfl
  · rfl

theorem Chip.ch_flPut_only {c : Chip} {n : Nat} {f g : Flight} (hfl : (c.ch n).fl = [f]) (hidx : g.idx = f.idx) : ((c.flPut n g).ch n).fl = [g] := by
  simp [Chip.flPut, hfl, hidx]

/-- The descriptor at `HEAD`, entered on a channel that was empty, alone waits: of what `Chip.cryAlone` says. -/
theorem Chip.waits_cryEntered {c : Chip} {n op : Nat} (hoff : c.cryOffered n op = true) (hready : c.cryReady op = true)
    (halone : c.cryAlone n op = true) : (c.cryEntered n).chWaits n = [(n, c.cryQueued n)] ∧ (∀ k < 32, k ≠ n → (c.cryEntered n).chWaits k = []) ∧
      ∃ l, c.laneOpen (cryLane op) = some l ∧ (c.cryEntered n).laneOpen (cryLane op) = some l := by
  obtain ⟨rfl, -, hn, -, -, -, -, -, hempty⟩ := Chip.cryOffered_iff.mp hoff
  simp only [Chip.cryAlone, Bool.and_eq_true, List.all_eq_true, List.mem_range, List.isEmpty_iff] at halone
  obtain ⟨⟨hwaits, hopen⟩, hrunning⟩ := halone
  have htouch := c.cryTouch_cryEntered n
  have hother {k : Nat} (hkn : k ≠ n) : ((c.cryEntered n).ch k).fl = (c.ch k).fl := congrArg CryCh.fl (c.ch_cryEntered_other hkn)
  have hfl : ((c.cryEntered n).ch n).fl = [c.cryQueued n] := by rw [Chip.ch_cryEntered, hempty, List.nil_append]
  refine ⟨?_, fun k hk hkn => (htouch.chWaits_eq hk (hother hkn)).trans (hwaits k hk), ?_⟩
  · have hhalted : c.chHalted n = false := (Bool.not_eq_true' _).mp hrunning
    have hon : c.cryReady (c.cryQueued n).desc.op = true := hready
    rw [Chip.chWaits_eq, htouch.chHalted_eq hn, hhalted, hfl, flWaits_queued _ _ rfl, htouch.cryReady_eq, hon]
    rfl
  · obtain ⟨l, hl⟩ := Option.isSome_iff_exists.mp hopen
    refine ⟨l, hl, (htouch.laneOpen_eq (fun k hk => ?_) _).trans hl⟩
    by_cases hkn : k = n
    · subst hkn
      rw [hfl, hempty]
      rfl
    · rw [hother hkn]

theorem Chip.drbgServes_cryEntered {c : Chip} (h : c.drbgServes) (n : Nat) : (c.cryEntered n).drbgServes := by
  have hdbg : (c.cryEntered n).dbg = (c.cryFetched n).dbg := by
    rw [Chip.cryEntered, Chip.dbg_puti]
    rfl
  obtain ⟨herror, hnone⟩ := h
  refine ⟨((c.cryEntered_touch n).geti_eq (by decide +kernel)).trans herror, (Chip.entNone_eq ?_ ?_ ?_).trans hnone⟩
  · exact (c.cryEntered_touch n).rd_eq (by decide +kernel)
  · rw [hdbg, Chip.cryFetched, Chip.jtag_trace]
    change (c.puti F.CRY_CHn_HEAD_IDX n (c.cryNext n)).dbg.jtag = _
    rw [Chip.dbg_puti]
  · rw [hdbg, Chip.cryFetched, Chip.entSource_trace]
    change (c.puti F.CRY_CHn_HEAD_IDX n (c.cryNext n)).dbg.entSource = _
    rw [Chip.dbg_puti]

theorem Chip.cry_puti (c : Chip) (f : Fld) (i v : Nat) : (c.puti f i v).cry = c.cry := c.puti_same f i v .cry

theorem Chip.cryStarted_cryEntered (c : Chip) (n : Nat) {l : Nat} (hl : c.laneOpen (cryLane (c.chRead n).op) = some l) (rnd : List Byte) :
    (c.cryEntered n).cryStarted n (c.cryQueued n) l (c.cryLeaves n (c.chRead n) rnd) = c.cryRan n rnd := by
  have hkey : (c.cryEntered n).chKey n (c.chRead n).src = c.chKey n (c.chRead n).src := by rw [Chip.chKey, Chip.chKey, Chip.ch_cryEntered]
  have hseeds : (c.cryEntered n).cry.seeds = c.cry.seeds := by
    rw [Chip.cryEntered, Chip.cry_puti]
    exact congrArg Cry.seeds (a₁ := (c.cryFetched n).cry) ((c.cryFetched_touch n).same .cry rfl)
  simp only [Chip.cryStarted, Chip.cryRan, Chip.seedHeld, hl, Option.getD_some, hseeds]
  rw [show (c.cryQueued n).desc = c.chRead n from rfl, hkey]
  rfl

/-- The descriptor entered, given an open lane, is there with the result of its operation; no other channel's flights change. -/
theorem Chip.flights_cryStart_cryEntered {c : Chip} {n l : Nat} (hn : n < 32) (hempty : (c.ch n).fl = [])
    (hpoison : c.cryPoison n (c.chRead n) = false)
    (hkeyed : c.cryKeyed n = true) (hrandom : cryRandom (c.chRead n) = 0 ∨ c.drbgServes)
    (hearly : ∀ rnd, (c.cryLeaves n (c.chRead n) rnd).early = false) (hl : c.laneOpen (cryLane (c.chRead n).op) = some l)
    (hopen : (c.cryEntered n).laneOpen (cryLane (c.chRead n).op) = some l) :
    ∃ rnd, (cryRandom (c.chRead n) = 0 → rnd = []) ∧ (((c.cryEntered n).cryStart n (c.cryQueued n) l).ch n).fl = [c.cryRan n rnd] ∧
      ∀ k ≠ n, (((c.cryEntered n).cryStart n (c.cryQueued n) l).ch k).fl = ((c.cryEntered n).ch k).fl := by
  have htouch := c.cryTouch_cryEntered n
  have hmem : (c.cryEntered n).mem = c.mem := (c.cryEntered_touch n).same .mem rfl
  have hkeys : ((c.cryEntered n).ch n).keys = (c.ch n).keys := by rw [Chip.ch_cryEntered]
  have hfl : ((c.cryEntered n).ch n).fl = [c.cryQueued n] := by rw [Chip.ch_cryEntered, hempty, List.nil_append]
  obtain ⟨rnd, hleaves, hrnd, hchs⟩ := Chip.cryBegin_of_fit (Chip.keyFits_eq hkeys _ (Chip.keyFits_of_keyed hkeyed))
    ((htouch.cryPoison_eq hn hmem _).trans hpoison) (hrandom.imp_right fun h => Chip.drbgServes_cryEntered h n)
  rw [htouch.cryLeaves_eq hn hmem hkeys] at hleaves
  have hstart : (c.cryEntered n).cryStart n (c.cryQueued n) l = (((c.cryEntered n).cryBegin n (c.chRead n)).1.flPut n (c.cryRan n rnd)).seedUse l
      (c.cryQueued n) ((c.cryEntered n).chKey n (c.chRead n).src).bytes := by
    refine (Chip.cryStart_of_open hopen rfl (hleaves ▸ hearly rnd)).trans ?_
    rw [show (c.cryQueued n).desc = c.chRead n from rfl, hleaves, Chip.cryStarted_cryEntered c n hl]
  refine ⟨rnd, hrnd, ?_, fun k hkn => ?_⟩
  · rw [hstart, Chip.ch_seedUse]
    exact Chip.ch_flPut_only (f := c.cryQueued n) (by rw [Chip.ch_of_cry hchs, hfl]) rfl
  · rw [hstart, Chip.ch_seedUse, Chip.flPut, Chip.ch_chMod_other _ hkn, Chip.ch_of_cry hchs]

/-- With its group on, its key good and nothing else waiting, a descriptor's unit starts on a lane with the result of its operation. -/
theorem Chip.cryRow_starts {c : Chip} {n op : Nat} (hoff : c.cryOffered n op = true) (hchecks : c.cryChecks n = true) (hready : c.cryReady op = true)
    (halone : c.cryAlone n op = true) (hkeyed : c.cryKeyed n = true) (hrandom : cryRandom (c.chRead n) = 0 ∨ c.drbgServes)
    (hearly : ∀ rnd, (c.cryLeaves n (c.chRead n) rnd).early = false) :
    ∃ rnd, (cryRandom (c.chRead n) = 0 → rnd = []) ∧ ((c.cryRow n op).ch n).fl = [c.cryRan n rnd] ∧
      (c.cryRow n op).geti F.CRY_CHn_HEAD_IDX n = c.cryNext n := by
  obtain ⟨rfl, -, hn, -, -, -, -, hlog, hempty⟩ := Chip.cryOffered_iff.mp hoff
  obtain ⟨-, -, -, hpoison⟩ := Chip.cryChecks_iff.mp hchecks
  obtain ⟨hwait, hother, l, hl, hopen⟩ := Chip.waits_cryEntered hoff hready halone
  obtain ⟨rnd, hrnd, hbfl, hbother⟩ := Chip.flights_cryStart_cryEntered hn hempty hpoison hkeyed hrandom hearly hl hopen
  let b := (c.cryEntered n).cryStart n (c.cryQueued n) l
  have hbtouch : CryTouch (c.cryEntered n) b := (Chip.cryStart_touch ..).mono (by decide +kernel) (by decide +kernel)
  have hdone : ∀ k < 32, b.chWaits k = [] := by
    intro k hk
    by_cases hkn : k = n
    · subst hkn
      rw [Chip.chWaits_eq, hbfl, flWaits_running _ _ rfl rfl, ite_self]
    · rw [hbtouch.chWaits_eq hk (hbother k hkn), hother k hk hkn]
  have harb : (c.cryEntered n).cryArb = b :=
    (Chip.cryGo_of_one hn hwait hother (Chip.laneFor_of_laneOpen hopen) 8191).trans (Chip.cryGo_of_none hdone 8191)
  have hhead : b.geti F.CRY_CHn_HEAD_IDX n = c.cryNext n := by
    rw [(Chip.cryStart_touch (c.cryEntered n) n (c.cryQueued n) l).head_eq hn (by decide +kernel), Chip.head_cryEntered hn hlog]
  have hrow : c.cryRow n (c.chRead n).op = b := by
    refine Chip.cryRow_of_offered hoff ?_ hhead
    rw [Chip.cryTake_of_checks hoff hchecks, if_pos hready, harb]
  rw [hrow]
  exact ⟨rnd, hrnd, hbfl, hhead⟩

/-! What an operation takes and leaves (Table 10.3). -/

/-- Operations that draw no random bytes and that nothing refuses once their key fits. -/
def cryPlain (op : Nat) : Bool := !([0x11, 0x19, 0x20, 0x21, 0x43, 0x50, 0x52, 0x60].contains op)

theorem cryRandom_of_plain {d : CryDesc} (h : cryPlain d.op = true) : cryRandom d = 0 := by
  unfold cryRandom
  split
  case h_7 => rfl
  all_goals simp_all [cryPlain]

theorem early_cryDsaVerify (d : CryDesc) : (cryDsaVerify d).early = false := by
  simp only [cryDsaVerify]
  split
  · rfl
  · rfl

theorem early_cryEcVerify (d : CryDesc) : (cryEcVerify d).early = false := by
  simp only [cryEcVerify]
  split
  · rfl
  · split
    · rfl
    · rfl

theorem early_cryEcdh (d : CryDesc) (k : CKey) : (cryEcdh d k).early = false := by
  unfold cryEcdh
  split
  · rfl
  · rfl

theorem early_cryKmac (d : CryDesc) (k : CKey) : (cryKmac d k).early = false := by
  simp only [cryKmac]
  split
  · rfl
  · rfl

theorem early_cryGcmDec (d : CryDesc) (k : CKey) : (cryGcmDec d k).early = false := by
  unfold cryGcmDec
  split
  · rfl
  · rfl

theorem early_cryUnwrap (d : CryDesc) (k : CKey) : (cryUnwrap d k).early = false := by
  unfold cryUnwrap
  split
  · rfl
  · rfl

/-- Only KW_WRAP and KEY_DISTAFF are refused for what they find once they begin. -/
theorem Chip.early_cryLeaves (c : Chip) (n : Nat) {d : CryDesc} (rnd : List Byte) (hwrap : d.op ≠ 0x43) (hdistaff : d.op ≠ 0x52) :
    (c.cryLeaves n d rnd).early = false := by
  have hload : (c.cryLoad n d).op = d.op := rfl
  unfold Chip.cryLeaves Chip.cryRun
  rw [hload]
  split
  case h_3 => exact early_cryDsaVerify _
  case h_9 => exact early_cryEcVerify _
  case h_10 => exact early_cryEcdh ..
  case h_11 => exact early_cryKmac ..
  case h_13 => exact early_cryGcmDec ..
  case h_15 h => exact absurd h hwrap
  case h_16 => exact early_cryUnwrap ..
  case h_19 h => exact absurd h hdistaff
  all_goals rfl

theorem Chip.cryReady_of_no_group {op : Nat} (h : cryGroup op = 0) (c : Chip) : c.cryReady op = true := by simp [Chip.cryReady, h]

/-! The rows of the operations. -/

section
variable {s : State} {i : Instr} {n op : Nat} (hrow : exec i s = .next (s.settled (s.chip.cryRow n op)))
include hrow

theorem row_frame : ∃ c : Chip, exec i s = .next (s.settled c) ∧ s.chip.Only ([Part.free, Part.tx, Part.mem, Part.cry] ++ eventParts)
    ([F.PWR_STATUS_LAST_RESULT, F.PWR_GRP_STATUS_STATE, F.CRY_DRBG_STATUS_LAST, F.CRY_CHn_HEAD_IDX, F.CRY_CHn_STATUS_LAST_ERR, F.CRY_CHn_KEYS_REG] ++
      eventRegs) c :=
  ⟨_, hrow, (Chip.cryRow_touch ..).only (by decide +kernel) (by decide +kernel)⟩

theorem row_disabled (hen : s.chip.geti F.CRY_CHn_CFG_EN n = 0) : ∃ c : Chip, exec i s = .next (s.settled c) ∧ c = s.chip :=
  ⟨_, hrow, Chip.cryRow_of_disabled hen op⟩

variable (hoff : s.chip.cryOffered n op = true) (hchecks : s.chip.cryChecks n = true)
include hoff hchecks

theorem row_waits (hready : s.chip.cryReady op = false) : ∃ c : Chip, exec i s = .next (s.settled c) ∧ (c.ch n).fl = [s.chip.cryQueued n] ∧
    c.geti F.CRY_CHn_HEAD_IDX n = s.chip.cryNext n ∧ c.geti F.CRY_CHn_STATUS_INFLIGHT n = 1 ∧ c.grp (cryGroup op) ≠ 0 :=
  ⟨_, hrow, Chip.cryRow_waits hoff hchecks hready⟩

variable (hready : s.chip.cryReady op = true) (halone : s.chip.cryAlone n op = true) (hkeyed : s.chip.cryKeyed n = true)
include hready halone hkeyed

/-- An operation that draws no random bytes starts. -/
theorem row_starts (hrandom : cryRandom (s.chip.chRead n) = 0) (hearly : ∀ rnd, (s.chip.cryLeaves n (s.chip.chRead n) rnd).early = false) :
    ∃ c : Chip, exec i s = .next (s.settled c) ∧ (c.ch n).fl = [s.chip.cryRan n []] ∧ c.geti F.CRY_CHn_HEAD_IDX n = s.chip.cryNext n := by
  obtain ⟨rnd, hnil, hfl, hhead⟩ := Chip.cryRow_starts hoff hchecks hready halone hkeyed (.inl hrandom) hearly
  obtain rfl := hnil hrandom
  exact ⟨_, hrow, hfl, hhead⟩

theorem row_starts_plain (hplain : cryPlain op = true) :
    ∃ c : Chip, exec i s = .next (s.settled c) ∧ (c.ch n).fl = [s.chip.cryRan n []] ∧ c.geti F.CRY_CHn_HEAD_IDX n = s.chip.cryNext n := by
  obtain ⟨hop, -⟩ := Chip.cryOffered_iff.mp hoff
  subst hop
  refine row_starts hrow hoff hchecks hready halone hkeyed (cryRandom_of_plain hplain) fun _ => Chip.early_cryLeaves _ _ _ ?_ ?_
  · rintro h
    simp [h, cryPlain] at hplain
  · rintro h
    simp [h, cryPlain] at hplain

/-- An operation starts with random bytes of the DRBG. -/
theorem row_starts_drawn (hserves : s.chip.drbgServes) (hwrap : op ≠ 0x43) (hdistaff : op ≠ 0x52) : ∃ c : Chip, exec i s = .next (s.settled c) ∧
    (∃ rnd, (c.ch n).fl = [s.chip.cryRan n rnd]) ∧ c.geti F.CRY_CHn_HEAD_IDX n = s.chip.cryNext n := by
  obtain ⟨hop, -⟩ := Chip.cryOffered_iff.mp hoff
  subst hop
  obtain ⟨rnd, -, hfl, hhead⟩ := Chip.cryRow_starts hoff hchecks hready halone hkeyed (.inr hserves)
    fun rnd => Chip.early_cryLeaves _ _ _ hwrap hdistaff
  exact ⟨_, hrow, ⟨rnd, hfl⟩, hhead⟩

end

/-! The operations with a source key and no random bytes. -/

theorem says_mldsaKeygen : Says.mldsaKeygen :=
  ⟨fun _ _ => row_frame rfl, fun _ _ => row_disabled rfl, fun _ _ => row_waits (op := 0x10) rfl,
    fun _ _ hoff hchecks hready halone hkeyed => row_starts_plain (op := 0x10) rfl hoff hchecks hready halone hkeyed rfl⟩

theorem says_mlkemKeygen : Says.mlkemKeygen :=
  ⟨fun _ _ => row_frame rfl, fun _ _ => row_disabled rfl, fun _ _ => row_waits (op := 0x18) rfl,
    fun _ _ hoff hchecks hready halone hkeyed => row_starts_plain (op := 0x18) rfl hoff hchecks hready halone hkeyed rfl⟩

theorem says_mlkemDecaps : Says.mlkemDecaps :=
  ⟨fun _ _ => row_frame rfl, fun _ _ => row_disabled rfl, fun _ _ => row_waits (op := 0x1A) rfl,
    fun _ _ hoff hchecks hready halone hkeyed => row_starts_plain (op := 0x1A) rfl hoff hchecks hready halone hkeyed rfl⟩

theorem says_ecdh : Says.ecdh :=
  ⟨fun _ _ => row_frame rfl, fun _ _ => row_disabled rfl, fun _ _ => row_waits (op := 0x23) rfl,
    fun _ _ hoff hchecks hready halone hkeyed => row_starts_plain (op := 0x23) rfl hoff hchecks hready halone hkeyed rfl⟩

theorem says_kmac : Says.kmac :=
  ⟨fun _ _ => row_frame rfl, fun _ _ => row_disabled rfl, fun _ _ => row_waits (op := 0x30) rfl,
    fun _ _ hoff hchecks hready halone hkeyed => row_starts_plain (op := 0x30) rfl hoff hchecks hready halone hkeyed rfl⟩

theorem says_gcmEnc : Says.gcmEnc :=
  ⟨fun _ _ => row_frame rfl, fun _ _ => row_disabled rfl, fun _ _ => row_waits (op := 0x40) rfl,
    fun _ _ hoff hchecks hready halone hkeyed => row_starts_plain (op := 0x40) rfl hoff hchecks hready halone hkeyed rfl⟩

theorem says_gcmDec : Says.gcmDec :=
  ⟨fun _ _ => row_frame rfl, fun _ _ => row_disabled rfl, fun _ _ => row_waits (op := 0x41) rfl,
    fun _ _ hoff hchecks hready halone hkeyed => row_starts_plain (op := 0x41) rfl hoff hchecks hready halone hkeyed rfl⟩

theorem says_ctr : Says.ctr :=
  ⟨fun _ _ => row_frame rfl, fun _ _ => row_disabled rfl, fun _ _ => row_waits (op := 0x42) rfl,
    fun _ _ hoff hchecks hready halone hkeyed => row_starts_plain (op := 0x42) rfl hoff hchecks hready halone hkeyed rfl⟩

theorem says_kwUnwrap : Says.kwUnwrap :=
  ⟨fun _ _ => row_frame rfl, fun _ _ => row_disabled rfl, fun _ _ => row_waits (op := 0x44) rfl,
    fun _ _ hoff hchecks hready halone hkeyed => row_starts_plain (op := 0x44) rfl hoff hchecks hready halone hkeyed rfl⟩

/-! The operations with a source key and random bytes. -/

theorem says_mldsaSign : Says.mldsaSign :=
  ⟨fun _ _ => row_frame rfl, fun _ _ => row_disabled rfl, fun _ _ => row_waits (op := 0x11) rfl,
    fun _ _ hoff hchecks hready halone hkeyed herror hnone =>
      row_starts_drawn (op := 0x11) rfl hoff hchecks hready halone hkeyed ⟨herror, hnone⟩ (by decide) (by decide)⟩

theorem says_ecdsaSign : Says.ecdsaSign :=
  ⟨fun _ _ => row_frame rfl, fun _ _ => row_disabled rfl, fun _ _ => row_waits (op := 0x21) rfl,
    fun _ _ hoff hchecks hready halone hkeyed herror hnone =>
      row_starts_drawn (op := 0x21) rfl hoff hchecks hready halone hkeyed ⟨herror, hnone⟩ (by decide) (by decide)⟩

/-! The operations without a source key. -/

/-- An operation offered without a source key, and that wraps none, has none that does not fit. -/
theorem Chip.keyed_of_offered {c : Chip} {n op : Nat} (hoff : c.cryOffered n op = true) (hsrc : crySrc op = none) (hwrap : op ≠ 0x43) :
    c.cryKeyed n = true :=
  Chip.keyed_of_no_source (Chip.cryOffered_iff.mp hoff).1 hsrc hwrap

theorem says_mldsaVerify : Says.mldsaVerify :=
  ⟨fun _ _ => row_frame rfl, fun _ _ => row_disabled rfl, fun _ _ => row_waits (op := 0x12) rfl,
    fun _ _ hoff hchecks hready halone =>
      row_starts_plain (op := 0x12) rfl hoff hchecks hready halone (Chip.keyed_of_offered hoff rfl (by decide)) rfl⟩

theorem says_ecdsaVerify : Says.ecdsaVerify :=
  ⟨fun _ _ => row_frame rfl, fun _ _ => row_disabled rfl, fun _ _ => row_waits (op := 0x22) rfl,
    fun _ _ hoff hchecks hready halone =>
      row_starts_plain (op := 0x22) rfl hoff hchecks hready halone (Chip.keyed_of_offered hoff rfl (by decide)) rfl⟩

/-- NTT, INTT and PMUL are three operations of one kind. -/
theorem ntt_op (which : Fin 3) : cryGroup (0x1C + which.val) = 4 ∧ crySrc (0x1C + which.val) = none ∧ 0x1C + which.val ≠ 0x43 ∧
    cryPlain (0x1C + which.val) = true := by
  decide +revert

theorem says_ntt : Says.ntt := by
  refine ⟨fun _ _ _ => row_frame rfl, fun _ _ _ => row_disabled rfl, fun s n which hoff hchecks hready => ?_,
    fun s n which hoff hchecks hready halone => ?_⟩
  · obtain ⟨hgroup, -, -, -⟩ := ntt_op which
    simpa only [hgroup] using row_waits (i := .ntt n which) rfl hoff hchecks hready
  · obtain ⟨-, hsrc, hwrap, hplain⟩ := ntt_op which
    exact row_starts_plain rfl hoff hchecks hready halone (Chip.keyed_of_offered hoff hsrc hwrap) hplain

theorem says_mlkemEncaps : Says.mlkemEncaps :=
  ⟨fun _ _ => row_frame rfl, fun _ _ => row_disabled rfl, fun _ _ => row_waits (op := 0x19) rfl,
    fun _ _ hoff hchecks hready halone herror hnone => row_starts_drawn (op := 0x19) rfl hoff hchecks hready halone
      (Chip.keyed_of_offered hoff rfl (by decide)) ⟨herror, hnone⟩ (by decide) (by decide)⟩

theorem says_eccKeygen : Says.eccKeygen :=
  ⟨fun _ _ => row_frame rfl, fun _ _ => row_disabled rfl, fun _ _ => row_waits (op := 0x20) rfl,
    fun _ _ hoff hchecks hready halone herror hnone => row_starts_drawn (op := 0x20) rfl hoff hchecks hready halone
      (Chip.keyed_of_offered hoff rfl (by decide)) ⟨herror, hnone⟩ (by decide) (by decide)⟩

/-! The operations of no engine group, which are always ready. -/

theorem says_keyErase : Says.keyErase :=
  ⟨fun _ _ => row_frame rfl, fun _ _ => row_disabled rfl, fun _ _ hoff hchecks halone => row_starts_plain (op := 0x51) rfl hoff hchecks
    (Chip.cryReady_of_no_group rfl _) halone (Chip.keyed_of_offered hoff rfl (by decide)) rfl⟩

theorem says_keyLoad : Says.keyLoad :=
  ⟨fun _ _ => row_frame rfl, fun _ _ => row_disabled rfl, fun _ _ hoff hchecks halone => row_starts_plain (op := 0x53) rfl hoff hchecks
    (Chip.cryReady_of_no_group rfl _) halone (Chip.keyed_of_offered hoff rfl (by decide)) rfl⟩

theorem says_keyRandom : Says.keyRandom :=
  ⟨fun _ _ => row_frame rfl, fun _ _ => row_disabled rfl, fun _ _ hoff hchecks halone herror hnone => row_starts_drawn (op := 0x50) rfl hoff hchecks
    (Chip.cryReady_of_no_group rfl _) halone (Chip.keyed_of_offered hoff rfl (by decide)) ⟨herror, hnone⟩ (by decide) (by decide)⟩

theorem says_random : Says.random :=
  ⟨fun _ _ => row_frame rfl, fun _ _ => row_disabled rfl, fun _ _ hoff hchecks halone herror hnone _ => row_starts_drawn (op := 0x60) rfl hoff hchecks
    (Chip.cryReady_of_no_group rfl _) halone (Chip.keyed_of_offered hoff rfl (by decide)) ⟨herror, hnone⟩ (by decide) (by decide)⟩

/-- KEY_DISTAFF is not refused once Distaff holds the Alias keys. -/
theorem Chip.early_cryLeaves_distaff {c : Chip} {n : Nat} {d : CryDesc} (hop : d.op = 0x52) (halias : c.boot.alias_.isSome = true) (rnd : List Byte) :
    (c.cryLeaves n d rnd).early = false := by
  obtain ⟨a, ha⟩ := Option.isSome_iff_exists.mp halias
  have hload : (c.cryLoad n d).op = 0x52 := hop
  simp only [Chip.cryLeaves, Chip.cryRun, hload, Chip.cryDistaff, ha]

theorem says_keyDistaff : Says.keyDistaff := by
  refine ⟨fun _ _ => row_frame rfl, fun _ _ => row_disabled rfl, fun s n hoff hchecks halone halias => ?_⟩
  obtain ⟨hop, -⟩ := Chip.cryOffered_iff.mp hoff
  exact row_starts (op := 0x52) rfl hoff hchecks (Chip.cryReady_of_no_group rfl _) halone (Chip.keyed_of_offered hoff rfl (by decide))
    (by simp [cryRandom, hop]) (Chip.early_cryLeaves_distaff hop halias)

/-! KW_WRAP. -/

/-- The lengths of KW_WRAP leave room for a wrapped key of 32 bytes. -/
theorem Chip.outLen_of_wrap {c : Chip} {n : Nat} (hop : (c.chRead n).op = 0x43) (hchecks : c.cryChecks n = true) : 40 ≤ (c.chRead n).outLen := by
  obtain ⟨-, -, hgood, -⟩ := Chip.cryChecks_iff.mp hchecks
  have hlens : cryLens (c.chRead n) = true := (Bool.and_eq_true_iff.mp hgood).2
  simp only [cryLens, hop, Bool.and_eq_true, decide_eq_true_eq] at hlens
  exact hlens.2

/-- KW_WRAP is not refused for a key of 32 bytes that is not sealed and whose wrapped form its output holds. -/
theorem Chip.early_cryLeaves_wrap {c : Chip} {n : Nat} {d : CryDesc} (hop : d.op = 0x43) (hopen : (c.chKey n (d.arg % 4)).isSealed = false)
    (htyp : (c.chKey n (d.arg % 4)).typ = 1) (hroom : 40 ≤ d.outLen) (rnd : List Byte) : (c.cryLeaves n d rnd).early = false := by
  have hload : (c.cryLoad n d).op = 0x43 := hop
  have hout : ¬(c.cryLoad n d).outLen < keySize 1 + 8 := Nat.not_lt.mpr hroom
  simp only [Chip.cryLeaves, Chip.cryRun, hload, cryWrap, hopen, htyp]
  simp [hout, kEC, cryOut]

theorem says_kwWrap : Says.kwWrap := by
  refine ⟨fun _ _ => row_frame rfl, fun _ _ => row_disabled rfl, fun _ _ => row_waits (op := 0x43) rfl,
    fun s n hoff hchecks hready halone hkeyed hopen htyp => ?_⟩
  obtain ⟨hop, -⟩ := Chip.cryOffered_iff.mp hoff
  exact row_starts (op := 0x43) rfl hoff hchecks hready halone hkeyed (by simp [cryRandom, hop])
    (Chip.early_cryLeaves_wrap hop hopen htyp (Chip.outLen_of_wrap hop hchecks))

/-! `TAIL` written (R268, R294). -/

/-- The descriptor at `HEAD` is read through the channel's `BASE`, `HEAD` and owner. -/
theorem Touch.chRead_eq {pm bm : Nat} {c d : Chip} (h : Touch pm bm c d) (hp : pm.testBit Part.mem.ix = false) {n : Nat} (hn : n < 32)
    (hs : (List.range 32).all (fun n => spares bm (R.CRY_CHn_CFG n) && spares bm (R.CRY_CHn_BASE n) && spares bm (R.CRY_CHn_HEAD n)) = true) :
    d.chRead n = c.chRead n := by
  have hspares := List.all_eq_true.mp hs n (List.mem_range.mpr hn)
  simp only [Bool.and_eq_true] at hspares
  obtain ⟨⟨hcfg, hbase⟩, hhead⟩ := hspares
  have howner : d.geti F.CRY_CHn_CFG_OWNER n = c.geti F.CRY_CHn_CFG_OWNER n := congrArg (wget _ _) (h.rd_eq hcfg)
  have hoff : d.geti F.CRY_CHn_BASE_OFF n = c.geti F.CRY_CHn_BASE_OFF n := congrArg (wget _ _) (h.rd_eq hbase)
  have hidx : d.geti F.CRY_CHn_HEAD_IDX n = c.geti F.CRY_CHn_HEAD_IDX n := congrArg (wget _ _) (h.rd_eq hhead)
  have hmem : d.mem = c.mem := h.same .mem hp
  have howns : d.chOwner n = c.chOwner n := by rw [Chip.chOwner, Chip.chOwner, howner]
  have hbytes (o a k : Nat) : d.ownRd o a k = c.ownRd o a k := by rw [Chip.ownRd, Chip.ownRd, Chip.spnRd, Chip.spnRd, Chip.rovRd, Chip.rovRd, hmem]
  simp only [Chip.chRead, Chip.chDesc, hbytes, howns, hoff, hidx]

/-- An operation of Table 10.3 at `HEAD` waits for its command. -/
theorem Chip.crySkip_of_known {c : Chip} {n : Nat} (h : cryOps.contains (c.chRead n).op = true) (fuel : Nat) : c.crySkip n fuel = c := by
  cases fuel with
  | zero => rfl
  | succ fuel => rw [Chip.crySkip, if_pos (by simp only [h, Bool.true_or])]

theorem Chip.cryTail_cry (c : Chip) (req : Req) (n idx : Nat) : (c.cryTail req n idx).cry = c.cry := (c.cryTail_touch req n idx).same .cry rfl

theorem Chip.tail_cryTail (c : Chip) (req : Req) {n idx : Nat} (hn : n < 32) (hidx : idx < 256) :
    (c.cryTail req n idx).geti F.CRY_CHn_TAIL_IDX n = min (2 ^ c.geti F.CRY_CHn_CFG_LOG2 n - 1) idx := by
  rw [Chip.cryTail, Chip.geti_puti _ _ _ _ rfl hn]
  exact Nat.mod_eq_of_lt (lt_of_le_of_lt (Nat.min_le_right ..) hidx)

theorem says_cryChTailWrite : Says.cryChTailWrite := by
  refine ⟨fun s req n idx => exists_only_of_touch (execCryChTailWrite_touch req n idx s) (by decide +kernel) (by decide +kernel),
    fun s req n idx hopen hknown => ?_⟩
  have htail := s.chip.wrote_touch req
  have hread : (((s.chip.wrote req).cryTail req n.toNat idx.toNat).chRead n.toNat) = s.chip.chRead n.toNat :=
    (((s.chip.wrote req).cryTail_touch req n.toNat idx.toNat).chRead_eq rfl n.isLt (by decide +kernel)).trans
      (htail.chRead_eq rfl n.isLt (by decide +kernel))
  refine ⟨(s.chip.wrote req).cryTail req n.toNat idx.toNat, ?_, ?_, (Chip.cryTail_cry ..).trans (htail.same .cry rfl)⟩
  · have hexec : exec (.cryChTailWrite req n idx) s = .next (s.settled (s.chip.guarded req (R.CRY_CHn_TAIL n.toNat) true fun c =>
        ((c.wrote req).cryTail req n.toNat idx.toNat).crySkip n.toNat 256)) := rfl
    have hskip := Chip.crySkip_of_known (hread.symm ▸ hknown) 256
    rw [hexec, Chip.guarded_of_opens _ hopen, hskip]
  · have hcfg : CryTouch s.chip (s.chip.wrote req) := htail.mono (by decide +kernel) (by decide +kernel)
    have hlog : (s.chip.wrote req).geti F.CRY_CHn_CFG_LOG2 n.toNat = s.chip.geti F.CRY_CHn_CFG_LOG2 n.toNat :=
      congrArg (wget _ _) (hcfg.cfg_eq n.isLt)
    rw [Chip.tail_cryTail _ _ n.isLt idx.isLt, hlog]

/-! A unit that ends (R268, R270). -/

theorem Chip.chShown_chBack_ok (c : Chip) {n : Nat} (hn : n < 32) (m idx flags iter used : Nat) :
    (c.chBack m idx flags .ok iter used).chShown n = c.chShown n := by
  have hwr (d : Chip) (o a : Nat) (bs : List Byte) : (d.ownWr o a bs).chShown n = d.chShown n :=
    (d.ownWr_touch o a bs).chShown_eq rfl hn (by decide +kernel)
  unfold Chip.chBack
  extract_lets a o d e
  rw [if_pos rfl]
  exact (hwr ..).trans ((hwr ..).trans (hwr ..))

/-- The one flight of a channel, ended with OK and without a key, leaves the channel empty. -/
theorem Chip.chShown_chDone_only {c : Chip} {n : Nat} {f : Flight} (hn : n < 32) (hfl : (c.ch n).fl = [f]) (hkey : f.key = none) (iter : Nat) :
    (c.chDone n f .ok iter).chShown n = ([], 0) := by
  unfold Chip.chDone
  rw [hkey]
  extract_lets o c1 c2 c3 c4 c5 c6
  have hnone : (c1.ch n).fl = [] := by
    unfold c1
    simp [hfl]
  have h2 : c2.chShown n = ([], 0) := by
    unfold c2
    rw [Chip.chShown, Chip.ch_puti, Chip.geti_puti _ _ _ _ rfl hn, hnone]
    rfl
  have h6 : c6.chShown n = ([], 0) :=
    ((c5.trace_touch ..).chShown_eq rfl hn (by decide +kernel)).trans
      ((c4.chShown_chBack_ok hn ..).trans (((c2.ownWr_touch ..).chShown_eq rfl hn (by decide +kernel)).trans h2))
  split
  · exact ((c6.chIrq_touch ..).chShown_eq rfl hn (by decide +kernel)).trans h6
  · exact h6

/-- The arbiter leaves a channel with nothing in flight. -/
theorem Chip.chShown_cryArb_of_empty {c : Chip} {n : Nat} (hn : n < 32) (hfl : (c.ch n).fl = []) : c.cryArb.chShown n = c.chShown n := by
  refine Chip.chShown_cryGo hn ?_ (by simp [hfl]) 8192
  rw [Chip.chWaits_eq, hfl]
  exact ite_self _

theorem Chip.cryEnd_of_empty {c : Chip} {n : Nat} (hfl : (c.ch n).fl = []) (idx iter : Nat) : c.cryEnd n idx iter = c := by
  simp only [Chip.cryEnd, hfl, List.find?_nil]

/-- The one unit of a channel, not a signature, ends. -/
theorem Chip.cryEnd_of_only {c : Chip} {n : Nat} {f : Flight} (hfl : (c.ch n).fl = [f]) (hstarted : f.started = true)
    (hlane : f.lane.isSome = true) (hop : f.desc.op ≠ 0x11) (iter : Nat) : c.cryEnd n f.idx iter =
      ((c.count (cryCycles f.desc 0 f.expand).1 (cryCycles f.desc 0 f.expand).2).chDone n f f.st 0).cryArb := by
  simp [Chip.cryEnd, hfl, hstarted, hlane, hop]

/-- And with OK and no key, it leaves its channel empty. -/
theorem Chip.chShown_cryEnd_only {c : Chip} {n : Nat} {f : Flight} (hn : n < 32) (hfl : (c.ch n).fl = [f]) (hstarted : f.started = true)
    (hlane : f.lane.isSome = true) (hop : f.desc.op ≠ 0x11) (hst : f.st = .ok) (hkey : f.key = none) (iter : Nat) :
    (c.cryEnd n f.idx iter).chShown n = ([], 0) := by
  rw [Chip.cryEnd_of_only hfl hstarted hlane hop, hst]
  have hcounted := (c.count_touch (cryCycles f.desc 0 f.expand).1 (cryCycles f.desc 0 f.expand).2).ch_eq rfl n
  have hdone := Chip.chShown_chDone_only hn ((congrArg CryCh.fl hcounted).trans hfl) hkey 0
  rw [Chip.chShown_cryArb_of_empty hn (congrArg Prod.fst hdone), hdone]

theorem says_cryptoOpComplete : Says.cryptoOpComplete := by
  refine ⟨fun s n idx iter => exists_only_of_touch (execCryptoOpComplete_touch n idx iter s) (by decide +kernel) (by decide +kernel),
    fun s n idx iter hfl => ⟨_, rfl, Chip.cryEnd_of_empty hfl ..⟩, ?_⟩
  rintro s n idx iter hfl rfl
  have hend := Chip.chShown_cryEnd_only n.isLt hfl rfl rfl (by decide) rfl rfl iter
  exact ⟨_, rfl, congrArg Prod.fst hend, congrArg Prod.snd hend⟩

/-- Settles O35: a descriptor offered at `HEAD` goes its way alone, through the ring, its group, its lane and its operation. -/
theorem cryptoEngines : Obligations.CryptoEngines :=
  ⟨says_cryChTailWrite, says_cryptoOpComplete, says_mldsaKeygen, says_mldsaSign, says_mldsaVerify, says_mlkemKeygen, says_mlkemEncaps,
    says_mlkemDecaps, says_ntt, says_eccKeygen, says_ecdsaSign, says_ecdsaVerify, says_ecdh, says_kmac, says_gcmEnc, says_gcmDec, says_ctr,
    says_kwWrap, says_kwUnwrap, says_keyRandom, says_keyErase, says_keyDistaff, says_keyLoad, says_random⟩

end Sys2Proof.Machine

/-!
SUPPORT. The statements on the logs, the totals of a decision's record and the read-only fields (spec sections 00, 16 and 18).
-/

namespace Sys2Proof.Machine

/-- Settles O21: once the base is locked the sum is not cut, for it does not pass the top. -/
theorem snagTotals : Obligations.SnagTotals := by
  intro c i since
  unfold Chip.total satAdd
  exact ⟨fun h => if_pos h, fun h hsum => (if_neg h).trans (min_eq_right hsum)⟩

/-! The two logs. -/

theorem Logs.aonPush_of_room {l : Logs} (h : l.aon.length < 64) (r : EvRec) : (l.aonPush r).aon = l.aon ++ [r] := by
  simp [Logs.aonPush, h]

theorem Logs.aonPush_of_full {l : Logs} (h : 64 ≤ l.aon.length) (r : EvRec) : (l.aonPush r).aon = l.aon.drop 1 ++ [r] := by
  simp [Logs.aonPush, h.not_gt]

theorem Logs.svcPush_of_room {l : Logs} (h : l.svc.length < 4096) (r : EvRec) : (l.svcPush r).svc = l.svc ++ [r] := by
  simp [Logs.svcPush, h]

theorem Logs.svcPush_of_full {l : Logs} (h : 4096 ≤ l.svc.length) (r : EvRec) : l.svcPush r = { l with svcLost := satAdd 0xFFFF l.svcLost 1 } :=
  if_neg h.not_gt

theorem Logs.length_aonPush_le {l : Logs} (h : l.aon.length ≤ 64) (r : EvRec) : (l.aonPush r).aon.length ≤ 64 := by
  rcases h.lt_or_eq with hroom | hfull
  · rw [Logs.aonPush_of_room hroom]; simpa using hroom
  · rw [Logs.aonPush_of_full hfull.ge]; simp [hfull]

theorem Logs.getLast?_aonPush (l : Logs) (r : EvRec) : (l.aonPush r).aon.getLast? = some r := by
  rcases Nat.lt_or_ge l.aon.length 64 with hroom | hfull
  · rw [Logs.aonPush_of_room hroom, List.getLast?_concat]
  · rw [Logs.aonPush_of_full hfull, List.getLast?_concat]

theorem Logs.length_svcPush_le {l : Logs} (h : l.svc.length ≤ 4096) (r : EvRec) : (l.svcPush r).svc.length ≤ 4096 := by
  rcases h.lt_or_eq with hroom | hfull
  · rw [Logs.svcPush_of_room hroom]; simpa using hroom
  · rw [Logs.svcPush_of_full hfull.ge]; exact h

theorem Logs.svcLost_svcPush_of_full {l : Logs} (h : 4096 ≤ l.svc.length) (hroom : l.svcLost < 0xFFFF) (r : EvRec) :
    (l.svcPush r).svcLost = l.svcLost + 1 := by
  rw [Logs.svcPush_of_full h]
  exact min_eq_right hroom

/-- Settles O14: each log either has room and takes the record at its end, or is full and drops its oldest, the AON buffer, or the new one,
the service log. -/
theorem logBounds : Obligations.LogBounds := fun l r =>
  ⟨fun h => l.length_aonPush_le h r, l.getLast?_aonPush r, fun h => Logs.aonPush_of_full h.ge r, fun h => l.length_svcPush_le h r,
    fun h => by rw [Logs.svcPush_of_full h], fun h hroom => Logs.svcLost_svcPush_of_full h hroom r⟩

/-! What an event changes, and what a write by fields leaves. -/

/-- Settles O13, from what a logged event can touch. -/
theorem eventFrame : Obligations.EventFrame := fun c code unit args =>
  (c.log_touch code unit args).only (by decide +kernel) (by decide +kernel)

theorem Chip.rd_log {off : Nat} (hoff : eventRegs.any (·.holds off) = false) (c : Chip) (code unit : Nat) (args : List Byte) :
    (c.log code unit args).rd off = c.rd off :=
  ((eventFrame c code unit args).2 off).resolve_left (by simp [hoff])

theorem mem_of_rowIn {rows : List RegRow} {off : Nat} {r : RegRow} (h : rowIn rows off = some r) : r ∈ rows := by
  induction rows with
  | nil => simp [rowIn] at h
  | cons q rows ih =>
    simp only [rowIn] at h
    split at h
    · exact Option.some.inj h ▸ List.mem_cons_self
    · exact List.mem_cons_of_mem q (ih h)

/-- Do two fields share no bit? -/
def FieldRow.apart (f g : FieldRow) : Bool := decide (g.hi < f.lo) || decide (f.hi < g.lo)

/-- May a write by fields change this field? -/
def FieldRow.writable (f : FieldRow) : Bool := !(f.acc == .ro || f.acc == .rs || f.acc == .wo)

/-- In every row of the register table a read-only field lies within the word and apart from each field that may be written. -/
theorem readOnly_apart_of_mem :
    ∀ r ∈ regTable, ∀ g ∈ r.fields, g.acc = .ro → g.hi < 32 ∧ ∀ f ∈ r.fields, f.writable = true → f.apart g = true := by
  decide +kernel

/-- Fields written apart from a field leave it: what `bitsPut` and the events of `fieldPut` do to the register. -/
theorem Chip.wget_bitsPut_of_apart {f g : FieldRow} (hg : g.hi < 32) (h : f.apart g = true) (c : Chip) (off v : Nat) :
    wget g.hi g.lo ((c.bitsPut off f.hi f.lo v).rd off) = wget g.hi g.lo (c.rd off) := by
  have h : g.hi < f.lo ∨ f.hi < g.lo := by simpa [FieldRow.apart] using h
  rw [Chip.bitsPut, Chip.rd_wr_same, wget_wset_other _ _ _ _ _ _ hg h]

theorem Chip.wget_fieldPut_of_apart {f g : FieldRow} (hg : g.hi < 32) (h : f.apart g = true) {off : Nat}
    (hoff : eventRegs.any (·.holds off) = false) (c : Chip) (req : Req) (v : Nat) :
    wget g.hi g.lo ((c.fieldPut req off f.hi f.lo v).rd off) = wget g.hi g.lo (c.rd off) := by
  unfold Chip.fieldPut
  split
  · split
    · exact c.wget_bitsPut_of_apart hg h off v
    · rw [Chip.rd_log hoff]
  · split
    · unfold Chip.when
      dsimp only
      split
      · rw [Chip.rd_log hoff]; exact c.wget_bitsPut_of_apart hg h off _
      · exact c.wget_bitsPut_of_apart hg h off _
    · exact c.wget_bitsPut_of_apart hg h off v

/-- One field written leaves a read-only field of its register: a field that shares bits with it is not writable. -/
theorem Chip.wget_fieldWrite_of_apart {f g : FieldRow} (hg : g.hi < 32) (h : f.writable = true → f.apart g = true) {off : Nat}
    (hoff : eventRegs.any (·.holds off) = false) (c : Chip) (req : Req) (w : Word) (locked : Bool) :
    wget g.hi g.lo ((c.fieldWrite req off w locked f).rd off) = wget g.hi g.lo (c.rd off) := by
  unfold Chip.fieldWrite
  cases hacc : f.acc
  case ro => rfl
  case rs => rfl
  case wo => rfl
  all_goals replace h := h (by simp [FieldRow.writable, hacc])
  case rw => exact c.wget_fieldPut_of_apart hg h hoff req _
  case rwl =>
    simp only
    split
    · rfl
    · exact c.wget_fieldPut_of_apart hg h hoff req _
  case w1c => exact c.wget_bitsPut_of_apart hg h off _
  case w1s => exact c.wget_bitsPut_of_apart hg h off _

/-- Settles O12: a write by fields writes each field of the register in turn, and none that may be written shares a bit with a read-only one. -/
theorem readOnlyFields : Obligations.ReadOnlyFields := by
  intro c req off w r g hrow hg hro hoff
  obtain ⟨hhi, hapart⟩ := readOnly_apart_of_mem r (mem_of_rowIn hrow) g hg hro
  simp only [Chip.fieldsWrite, hrow, Chip.each]
  refine List.foldlRecOn r.fields _ (motive := fun d : Chip => wget g.hi g.lo (d.rd off) = wget g.hi g.lo (c.rd off)) rfl ?_
  intro d hd f hf
  exact (d.wget_fieldWrite_of_apart hhi (hapart f hf) hoff req w _).trans hd

end Sys2Proof.Machine

/-!
SUPPORT. The statements on the DMA channels, the owners' objects and the lease (spec sections 11, 14 and 15).
-/

namespace Sys2Proof.Machine

set_option Elab.async false

/-! A burst that asks for the next. -/

/-- What follows of itself, and the reading back of a cut program, leave the requests pending on a software line. -/
theorem State.swPend_cutSettled (s : State) (c : Chip) (line : Nat) : (s.cutSettled c).chip.swPend line = c.swPend line := by
  have hkept : ∀ f, spares 0x9882000000 (f.off 0) = true → spares
      0xc00180000000000000203800004189391810413f4382e0000200000000541b4 (f.off 0) = true → (s.cutSettled c).chip.get f = c.get f :=
    fun f hcut hsettle => ((Chip.settleCut_touch s.fuses c.settle).geti_eq hcut).trans (c.settle_touch.geti_eq hsettle)
  simp only [Chip.swPend, hkept F.DMA_SWREQ_PEND_LO_COUNT (by decide +kernel) (by decide +kernel),
    hkept F.DMA_SWREQ_PEND_HI_COUNT (by decide +kernel) (by decide +kernel)]

/-- A chip in SERVICE whose channel 8, Spindle's, waits on software line 63 with two requests pending. Its descriptor is a FILL of one word,
and the word goes to `DMA_SWREQ` and asks for that line. -/
def selfRequesting : State :=
  let regs : List (Fld × Nat × Nat) := [(F.PWR_STATUS_SEQ_STATE, 0, 2), (F.DMA_SWREQ_PEND_HI_COUNT, 0, 0x20000000),
    (F.DMA_CHn_CFG_EN, 8, 1), (F.DMA_CHn_STATUS_STATE, 8, 3), (F.DMA_CHn_REMAIN_COUNT, 8, 4)]
  let desc : DmaDesc := { op := 2, req := 0xBF, dst := 0x40000000 + R.DMA_SWREQ, len := 4, pattern := [0x00, 0x80, 0x00, 0x00] }
  let chip : Chip := { dma := [(8, { desc := some desc })], pins := { porstN := true } }
  { State.reset with chip := (chip.each regs fun c p => c.puti p.1 p.2.1 p.2.2).dmCur 8 0 (0x40000000 + R.DMA_SWREQ) }


/-- The channel bound to the line waits for it. -/
theorem waits_selfRequesting : (selfRequesting.chip.lineOwner 63).any (fun n => (selfRequesting.chip.dm n).desc.isSome &&
    (selfRequesting.chip.dmSt n == dWaiting || selfRequesting.chip.dmSt n == dRunning) &&
      selfRequesting.chip.geti F.DMA_CHn_REMAIN_COUNT n != 0) = true := by
  decide +kernel

/-- The request taken is counted off, and the burst counts one more. -/
theorem exec_dmaRequestLine_selfRequesting :
    ∃ c, exec (.dmaRequestLine 63 []) selfRequesting = .next (selfRequesting.cutSettled c) ∧ c.swPend 63 = 2 :=
  ⟨_, rfl, by decide +kernel⟩

/-- Refutes O46: the clause on a request line says that a software line has one request less after a burst, and does not ask that the burst
write elsewhere than to `DMA_SWREQ` (R309). In `selfRequesting` two requests are pending before the burst, and two after it. -/
theorem not_dmaChannels : ¬ Obligations.DmaChannels := by
  rintro ⟨-, -, -, -, -, -, hline, -⟩
  obtain ⟨c, hc, hone⟩ := hline selfRequesting 63 [] (by decide +kernel) (by decide) (by decide +kernel) waits_selfRequesting
  obtain ⟨d, hd, htwo⟩ := exec_dmaRequestLine_selfRequesting
  have hcut : (selfRequesting.cutSettled d).chip.swPend 63 = (selfRequesting.cutSettled c).chip.swPend 63 :=
    congrArg (Chip.swPend · 63) (congrArg State.chip (Host.Outcome.next.inj (hd.symm.trans hc)))
  rw [State.swPend_cutSettled, State.swPend_cutSettled, htwo] at hcut
  exact absurd (hcut.trans hone) (by decide +kernel)

/-! Steps of a hank, and a frame of the pair, while the Service domain is down. -/

/-- A chip in SENSE that leads alone (HX4, phase 0x40), with hank 0 in the last step of its KEYING and no Bobbin of it. -/
def keyedInSense : State :=
  let hank : Hank := { st := 2, ceremony := 1, owners := [], flags := 0, dies := 0, first := 0, count := 0, epochBase := 0, hostMax := 0, thresh := [],
                       ranges := [], lanes := [], strands := [], active := 0, phase := 4 }
  let chip : Chip := { hanks := { tab := [(0, hank)] }, pwr := { idle := [(0, 0)] } }
  { State.reset with chip := chip.put F.GEN_BOOT_PHASE 0x40 }

/-- Refutes O53: the clause on KEYING says that the hank is LIVE once every Bobbin of it is enabled, and does not ask that the Service domain be
up. In `keyedInSense` it is down, where another clause says that nothing changes. -/
theorem not_hankObjects : ¬ Obligations.HankObjects := by
  rintro ⟨-, -, -, -, -, -, -, -, ⟨-, hdown, hlive⟩, -⟩
  obtain ⟨c, hc, hst⟩ := hlive keyedInSense 0 (by decide +kernel) (by decide +kernel) (by decide +kernel) (by decide +kernel)
  obtain ⟨d, hd, rfl⟩ := hdown keyedInSense 0 (.inl (by decide +kernel))
  rw [Chip.eq_of_next_settled hc hd (by decide +kernel) (by decide +kernel)] at hst
  exact absurd hst (by decide +kernel)

/-- While the Service domain is down, the Ply state that a command leaves is read off the state it answers: nothing follows of itself, and the
reading back of a cut program leaves the Ply, the power controller and the sequencer. -/
theorem Chip.eq_of_next_cutSettled_ply {s : State} {o : Host.Outcome State Fault Refusal} {c d : Chip} (hc : o = .next (s.cutSettled c))
    (hd : o = .next (s.cutSettled d)) (hdown : d.svcUp = false) (hidle : d.pwr.idle ≠ []) : c.ply = d.ply := by
  have hcut : (settleCut s.fuses c.settle).2 = (settleCut s.fuses d.settle).2 :=
    congrArg State.chip (Host.Outcome.next.inj (hc.symm.trans hd))
  have hself : d.settle = d := by rw [Chip.settle, hdown, if_neg Bool.false_ne_true]
  have htouch := Chip.settleCut_touch s.fuses c.settle
  have htouch' := Chip.settleCut_touch s.fuses d.settle
  have hply : c.settle.ply = d.ply := calc
    c.settle.ply = (settleCut s.fuses c.settle).2.ply := (htouch.same .ply rfl).symm
    _ = d.settle.ply := (congrArg Chip.ply hcut).trans (htouch'.same .ply rfl)
    _ = d.ply := congrArg Chip.ply hself
  have hpwr : c.settle.pwr = d.pwr := calc
    c.settle.pwr = (settleCut s.fuses c.settle).2.pwr := (htouch.same .pwr rfl).symm
    _ = d.settle.pwr := (congrArg Chip.pwr hcut).trans (htouch'.same .pwr rfl)
    _ = d.pwr := congrArg Chip.pwr hself
  have hseq : c.settle.seq = d.seq := calc
    c.settle.seq = (settleCut s.fuses c.settle).2.seq := (htouch.seq_eq (by decide +kernel)).symm
    _ = d.settle.seq := (congrArg Chip.seq hcut).trans (htouch'.seq_eq (by decide +kernel))
    _ = d.seq := congrArg Chip.seq hself
  rw [Chip.eq_settle_of_idle (c := c) (by rwa [Chip.svcUp, hseq]) (by rwa [hpwr]), hply]

/-- A chip in SENSE, a follow of an authenticated link, that knows of hank 0. -/
def followOfHank : State :=
  let hank : Hank := { ceremony := 1, owners := [], flags := 0, dies := 0, first := 0, count := 0, epochBase := 0, hostMax := 0, thresh := [],
                       ranges := [], lanes := [], strands := [], active := 0 }
  let chip : Chip := { hanks := { tab := [(0, hank)] }, pwr := { idle := [(0, 0)] } }
  { State.reset with chip := (chip.put F.PLY_STATUS_AUTH 1).put F.PLY_STATUS_ROLE 3 }

/-- It knows of a hank, so it does not go to sleep. -/
theorem exec_sleepFrame_followOfHank :
    ∃ d, exec .sleepFrame followOfHank = .next (followOfHank.cutSettled d) ∧ d.svcUp = false ∧ d.pwr.idle ≠ [] ∧ d.ply.sleeping = 0 :=
  ⟨_, rfl, by decide +kernel, by decide +kernel, by decide +kernel⟩

/-- Refutes O50: the clause on SLEEP says that a follow answers and goes to sleep, and does not ask that it know of no hank (R64). In
`followOfHank` it knows of one. -/
theorem not_plyLease : ¬ Obligations.PlyLease := by
  rintro ⟨-, ⟨-, hsleep⟩, -⟩
  obtain ⟨c, hc, hasleep, -⟩ := hsleep followOfHank (by decide +kernel) (by decide +kernel)
  obtain ⟨d, hd, hdown, hidle, hawake⟩ := exec_sleepFrame_followOfHank
  rw [Chip.eq_of_next_cutSettled_ply hc hd hdown hidle, hawake] at hasleep
  exact absurd hasleep (by decide)

end Sys2Proof.Machine

/-!
SUPPORT. The statement on the Twist fold unit (spec section 13).
-/

namespace Sys2Proof.Machine

set_option Elab.async false

/-! The chain of a hank, and the intake. -/

theorem Touch.tw_eq {pm bm : Nat} {c d : Chip} (h : Touch pm bm c d) (hp : pm.testBit Part.twist.ix = false) (hank : Nat) :
    d.tw hank = c.tw hank := by
  unfold Chip.tw
  rw [show d.twist = c.twist from h.same .twist hp]

theorem Touch.intake_eq {pm bm : Nat} {c d : Chip} (h : Touch pm bm c d) (hp : pm.testBit Part.twist.ix = false) : d.twist.intake = c.twist.intake :=
  congrArg Twists.intake (h.same .twist hp)

theorem Chip.tw_twMod_same (c : Chip) (h : Nat) (f : Twist → Twist) : (c.twMod h f).tw h = f (c.tw h) := by
  simp [Chip.tw, Chip.twMod, tmod, tget_tput]

theorem Chip.tw_puti (c : Chip) (f : Fld) (i v h : Nat) : (c.puti f i v).tw h = c.tw h :=
  congrArg (fun w : Twists => tget w.tab h {}) (Chip.puti_same c f i v .twist)

theorem Chip.tw_twIntake (c : Chip) (q : List (Bool × List Byte)) (h : Nat) : (c.twIntake q).tw h = c.tw h := Chip.tw_puti ..

theorem Chip.intake_twIntake (c : Chip) (q : List (Bool × List Byte)) : (c.twIntake q).twist.intake = q :=
  congrArg Twists.intake (Chip.put_same _ F.DGT_TW_STATUS_INTAKE q.length .twist)

theorem Chip.intake_puti (c : Chip) (f : Fld) (i v : Nat) : (c.puti f i v).twist.intake = c.twist.intake :=
  congrArg Twists.intake (Chip.puti_same c f i v .twist)

theorem Chip.intake_put64i (c : Chip) (f : Fld) (i v : Nat) : (c.put64i f i v).twist.intake = c.twist.intake := by
  unfold Chip.put64i
  split <;> rfl

theorem Chip.intake_twMod (c : Chip) (h : Nat) (f : Twist → Twist) : (c.twMod h f).twist.intake = c.twist.intake := rfl

theorem Chip.intake_twStepMod (c : Chip) (h : Nat) (f : TwStep → TwStep) : (c.twStepMod h f).twist.intake = c.twist.intake := rfl

theorem Chip.intake_twPending (c : Chip) (h : Nat) : (c.twPending h).twist.intake = c.twist.intake := Chip.intake_puti ..

theorem Chip.intake_twLog (c : Chip) (code h die strand step cause count num : Nat) :
    (c.twLog code h die strand step cause count num).twist.intake = c.twist.intake :=
  (Chip.twLog_touch ..).intake_eq rfl

theorem Chip.intake_twSet (c : Chip) (h st : Nat) : (c.twSet h st).twist.intake = c.twist.intake := (Chip.twSet_touch ..).intake_eq rfl

theorem Chip.intake_count (c : Chip) (i n : Nat) : (c.count i n).twist.intake = c.twist.intake := (Chip.count_touch ..).intake_eq rfl

/-! A fold leaves the intake: the record it folds was taken out before. -/

theorem Chip.intake_twChain (c : Chip) (h : Nat) (r : List Byte) : (c.twChain h r).twist.intake = c.twist.intake := by
  unfold Chip.twChain
  extract_lets g i gran cap c1 c2
  have h2 : c2.twist.intake = c.twist.intake := (Chip.intake_count ..).trans (Chip.intake_puti ..)
  split
  · exact ((Chip.portReq_touch ..).intake_eq rfl).trans h2
  · exact h2

theorem Chip.intake_twSeal (c : Chip) (h : Nat) (again : Bool) : (c.twSeal h again).twist.intake = c.twist.intake := by
  unfold Chip.twSeal
  extract_lets g n c1 c2 c3
  have h2 : c2.twist.intake = c.twist.intake := (Chip.intake_twLog ..).trans (Chip.intake_twChain ..)
  split
  · exact (Chip.intake_twMod ..).trans (((Chip.intake_puti ..).trans (Chip.intake_puti ..)).trans h2)
  · exact h2

theorem Chip.intake_twFull (c : Chip) (h : Nat) (r : List Byte) : (c.twFull h r).twist.intake = c.twist.intake := by
  unfold Chip.twFull
  extract_lets c1
  split
  · exact (Chip.intake_twSeal ..).trans (Chip.intake_twChain ..)
  · exact Chip.intake_twChain ..

theorem Chip.intake_twWithhold (c : Chip) (h : Nat) : (c.twWithhold h).twist.intake = c.twist.intake :=
  (Chip.intake_twPending ..).trans (Chip.intake_twMod ..)

theorem Chip.intake_twDepart (c : Chip) (h code die step seq : Nat) : (c.twDepart h code die step seq).twist.intake = c.twist.intake := by
  unfold Chip.twDepart
  extract_lets c1 c2 c3 freeze c4
  have h2 : c2.twist.intake = c.twist.intake := (Chip.intake_twLog ..).trans (Chip.intake_twFull ..)
  have h3 : c3.twist.intake = c.twist.intake := by
    unfold c3
    split
    · exact ((Chip.intake_puti ..).trans (Chip.intake_puti ..)).trans h2
    · exact h2
  have h4 : c4.twist.intake = c.twist.intake := ((Chip.intake_twWithhold ..).trans (Chip.intake_twSet ..)).trans h3
  split
  · exact h3
  · split
    · exact (Chip.intake_twLog ..).trans (((Chip.twFreeze_touch ..).intake_eq rfl).trans h4)
    · exact h4

theorem Chip.intake_twSeeds (c : Chip) (h s : Nat) : (c.twSeeds h s).twist.intake = c.twist.intake := by
  unfold Chip.twSeeds
  extract_lets t
  split
  · rfl
  · split
    · rfl
    · refine Eq.trans (Chip.each_keeps (g := fun d => d.twist.intake) (fun d x => ?_) _) (Chip.intake_twMod ..)
      exact Chip.each_keeps (g := fun d => d.twist.intake) (fun e n => (Chip.push_touch ..).intake_eq rfl) d

theorem Chip.intake_twStepRec (c : Chip) (h : Nat) (r : List Byte) : (c.twStepRec h r).twist.intake = c.twist.intake := by
  unfold Chip.twStepRec
  extract_lets t s die c1 c2 ent st c3
  split
  case h_1 => rfl
  case h_2 =>
    have h2 : c2.twist.intake = c.twist.intake := (Chip.countReset_touch ..).intake_eq rfl
    split
    · split
      · exact (Chip.intake_twStepMod ..).trans h2
      · exact h2
    · exact (Chip.intake_twSeeds ..).trans ((Chip.intake_twSeeds ..).trans h2)
  case h_3 | h_4 =>
    split
    · split <;> rfl
    · rfl
  case h_5 => rfl

theorem Chip.intake_twComplete (c : Chip) (h : Nat) : (c.twComplete h).twist.intake = c.twist.intake := by
  unfold Chip.twComplete
  extract_lets t c0
  split
  · rfl
  · split
    · rfl
    · extract_lets c1 done
      have h1 : c1.twist.intake = c.twist.intake := (Chip.intake_twPending ..).trans (Chip.intake_put64i ..)
      split
      · split
        · exact h1
        · refine (Chip.intake_twPending ..).trans ?_
          split
          · exact h1
          · exact (Chip.intake_twDepart ..).trans h1
      · exact h1

theorem Chip.intake_twEffect (c : Chip) (h : Nat) : (c.twEffect h).twist.intake = c.twist.intake := by
  unfold Chip.twEffect
  extract_lets b c1 c2 d c3 c4 c5
  have h2 : c2.twist.intake = c.twist.intake := (Chip.intake_twFull ..).trans (Chip.intake_twSeal ..)
  have h4 : c4.twist.intake = c.twist.intake :=
    (Chip.intake_twMod ..).trans (((Chip.intake_puti ..).trans (Chip.intake_puti ..)).trans (((Chip.draw_touch _).intake_eq rfl).trans h2))
  have h5 : c5.twist.intake = c.twist.intake := by
    refine (Chip.intake_twLog ..).trans ?_
    split
    · exact h4
    · exact (Chip.intake_twSet ..).trans h4
  split
  · exact h5
  · exact (Chip.each_keeps (g := fun d => d.twist.intake) (fun d n => Chip.intake_twDepart ..) _).trans h5

theorem Chip.intake_twWatch (c : Chip) (h : Nat) (r : List Byte) : (c.twWatch h r).twist.intake = c.twist.intake := by
  unfold Chip.twWatch
  split
  · exact (Chip.trace_touch ..).intake_eq rfl
  · rfl

theorem Chip.intake_twFoldOne (c : Chip) (h : Nat) (q : Bool × List Byte) : (c.twFoldOne h q).twist.intake = c.twist.intake := by
  unfold Chip.twFoldOne
  extract_lets r step c1 c2 t c3 c4 code c5 c6
  split
  · have h2 : c2.twist.intake = c.twist.intake := (Chip.intake_count ..).trans ((Chip.intake_puti ..).trans (Chip.intake_twFull ..))
    split
    · exact h2
    · exact (Chip.intake_twDepart ..).trans h2
  · have h3 : c3.twist.intake = c.twist.intake := by
      unfold c3
      split
      · exact Chip.intake_twEffect ..
      · rfl
    have h5 : c5.twist.intake = c.twist.intake :=
      (Chip.intake_twStepRec ..).trans ((Chip.intake_twWatch ..).trans ((Chip.intake_twFull ..).trans h3))
    have h6 : c6.twist.intake = c.twist.intake := by
      clear_value code
      unfold c6
      split
      · exact (Chip.intake_twDepart ..).trans h5
      · exact h5
    split
    · exact (Chip.intake_twComplete ..).trans h6
    · exact h6

/-! A fold, and what it takes from the intake. -/

/-- One record of the intake passed by a fold of hank `h`: taken while it is the hank's and fewer than 32 are, else left. -/
def twPass (h : Nat) (acc : List (Bool × List Byte) × Nat) (q : Bool × List Byte) : List (Bool × List Byte) × Nat :=
  if twHank q.2 = h && acc.2 < 32 then (acc.1, acc.2 + 1) else (acc.1 ++ [q], acc.2)

theorem foldl_twPass_of_all {h : Nat} {l : List (Bool × List Byte)} (hall : l.all (fun q => twHank q.2 == h) = true)
    (acc : List (Bool × List Byte) × Nat) (hroom : acc.2 + l.length ≤ 32) : l.foldl (twPass h) acc = (acc.1, acc.2 + l.length) := by
  induction l generalizing acc with
  | nil => rfl
  | cons q l ih =>
    obtain ⟨hq, hl⟩ : twHank q.2 = h ∧ _ := by simpa using hall
    have hlt : acc.2 < 32 := by simp only [List.length_cons] at hroom; omega
    have hstep : twPass h acc q = (acc.1, acc.2 + 1) := by simp [twPass, hq, hlt]
    rw [List.foldl_cons, hstep, ih (by simpa using hl) _ (by simp only [List.length_cons] at hroom; simp only; omega), List.length_cons]
    simp only [Prod.mk.injEq, true_and]
    omega

/-- A fold that may run folds the first 32 records of its hank and mirrors what it folded. -/
theorem Chip.twFold_eq {c : Chip} {h : Nat} (hleads : c.leads = true) (hup : c.svcUp = true) (hen : c.get F.DGT_TW_CTRL_EN = 1)
    (hopen : c.twOpened h = true) (hgrp : c.grp 1 = 2) :
    c.twFold h = (((c.twIntake (c.twist.intake.foldl (twPass h) ([], 0)).1).each ((c.twist.intake.filter (fun q => twHank q.2 == h)).take 32)
      (fun c q => c.twFoldOne h q)).twMirror h) := by
  unfold Chip.twFold
  simp only [hleads, hup, hen, hopen, hgrp]
  rfl

theorem Chip.intake_each_twFoldOne (c : Chip) (l : List (Bool × List Byte)) (h : Nat) :
    (c.each l (fun c q => c.twFoldOne h q)).twist.intake = c.twist.intake :=
  Chip.each_keeps (g := fun d => d.twist.intake) (fun d q => d.intake_twFoldOne h q) c

/-- The mirror takes what was folded; the head is as it was. -/
theorem Chip.tw_twMirror (c : Chip) (h : Nat) : ((c.twMirror h).tw h).done = [] ∧ ((c.twMirror h).tw h).head = (c.tw h).head := by
  unfold Chip.twMirror
  extract_lets t p
  have hp : p.1.tw h = c.tw h := by
    unfold p
    split
    · rfl
    · exact (Chip.mirrorItem_touch ..).tw_eq rfl h
  rw [Chip.tw_twMod_same, hp]
  exact ⟨rfl, rfl⟩

theorem Chip.intake_twMirror (c : Chip) (h : Nat) : (c.twMirror h).twist.intake = c.twist.intake := by
  unfold Chip.twMirror
  extract_lets t p
  refine (Chip.intake_twMod ..).trans ?_
  unfold p
  split
  · rfl
  · exact (Chip.mirrorItem_touch ..).intake_eq rfl

theorem says_twistFold : Says.twistFold := by
  refine ⟨fun s h => exists_only_of_touch (execTwistFold_touch h s) (by decide +kernel) (by decide +kernel), ?_, ?_⟩
  · intro s h hleads hup hen hopen hgrp hin _
    refine ⟨s.chip.twFold h.toNat, rfl, ?_⟩
    rw [Chip.twFold_eq hleads hup hen hopen hgrp, hin]
    exact ⟨(Chip.intake_twMirror ..).trans (Chip.intake_twIntake ..),
      (Chip.tw_twMirror ..).2.trans (congrArg Twist.head (Chip.tw_twIntake ..))⟩
  · intro s h hleads hup hen hopen hgrp _ hlen hall
    refine ⟨s.chip.twFold h.toNat, rfl, ?_⟩
    have hrest : s.chip.twist.intake.foldl (twPass h.toNat) ([], 0) = ([], s.chip.twist.intake.length) := by
      rw [foldl_twPass_of_all hall _ (by simpa using hlen), Nat.zero_add]
    rw [Chip.twFold_eq hleads hup hen hopen hgrp, hrest]
    refine ⟨(Chip.intake_twMirror ..).trans ((Chip.intake_each_twFoldOne ..).trans (Chip.intake_twIntake ..)), ?_, (Chip.tw_twMirror ..).1⟩
    refine ((Chip.twMirror_touch ..).geti_eq (by decide +kernel)).trans ?_
    refine (Chip.each_keeps (g := fun d => d.get F.DGT_TW_STATUS_INTAKE) (fun d q => (d.twFoldOne_touch h.toNat q).geti_eq (by decide +kernel)) _).trans ?_
    exact Chip.get_put _ _ _ rfl Nat.one_pos

/-! A batch. -/

/-- A batch from a die that is not carded is logged. -/
theorem Chip.twBatch_of_uncarded {c : Chip} {m : Inbox} (hleads : c.leads = true) (hen : c.get F.DGT_TW_CTRL_EN = 1) (hdie : c.carded m.src = false) :
    c.twBatch m = c.twLog 0x1D01 0 m.src 0 0 0 3 0 := by
  simp [Chip.twBatch, hleads, hen, hdie]

/-- A record of kind 0 is none. -/
theorem Chip.twTake_of_none {c : Chip} {src : Nat} {r : List Byte} (h : twKind r = 0) : c.twTake src r = (c, []) := if_pos h

/-- The next record of a die goes into the intake as it is. -/
theorem Chip.twTake_of_next {c : Chip} {src : Nat} {r : List Byte} (hkind : twKind r ≠ 0) (hdie : c.hankOfDie src = some (twHank r))
    (hopen : c.twOpened (twHank r) = true) (hseq : twSeq r = tget c.twist.next src 0) :
    c.twTake src r = ({ c with twist := { c.twist with next := tput c.twist.next src (twSeq r + 1) } }, [(false, r)]) := by
  simp [Chip.twTake, hkind, hdie, hopen, hseq]

/-- The next record of a die taken into the intake. -/
def Chip.twTaken (c : Chip) (src : Nat) (r : List Byte) : Chip :=
  Chip.twIntake { c with twist := { c.twist with next := tput c.twist.next src (twSeq r + 1) } } (c.twist.intake ++ [(false, r)])

theorem Chip.twist_twTaken (c : Chip) (src : Nat) (r : List Byte) :
    (c.twTaken src r).twist =
      { c.twist with next := tput c.twist.next src (twSeq r + 1), intake := c.twist.intake ++ [(false, r)] } :=
  Chip.put_same _ F.DGT_TW_STATUS_INTAKE _ .twist

/-- A batch of one record, the next of its die, goes into the intake, and its acknowledgement is held for the mirror. -/
theorem Chip.twBatch_of_next {c : Chip} {m : Inbox} (hleads : c.leads = true) (hen : c.get F.DGT_TW_CTRL_EN = 1) (hdie : c.carded m.src = true)
    (hkind : twKind (slice m.payload 0 64) ≠ 0) (hhank : c.hankOfDie m.src = some (twHank (slice m.payload 0 64)))
    (hopen : c.twOpened (twHank (slice m.payload 0 64)) = true) (hseq : twSeq (slice m.payload 0 64) = tget c.twist.next m.src 0)
    (hkind1 : twKind (slice m.payload 64 64) = 0) (hkind2 : twKind (slice m.payload 128 64) = 0) (hroom : c.twRoom m.src 1 = true) :
    c.twBatch m = (c.twTaken m.src (slice m.payload 0 64)).mirrorThen (.twist m.src (slice m.payload 0 64)) (.ack m.src m.seq) := by
  simp [Chip.twBatch, hleads, hen, hdie, List.range, List.range.loop, Chip.twTake_of_next hkind hhank hopen hseq, Chip.twTake_of_none hkind1,
    Chip.twTake_of_none hkind2, hroom, Chip.twTaken]

/-- An effect mirrored is the last held. -/
theorem Chip.getLast?_holds_mirrorThen (c : Chip) (i : MItem) (e : Eff) : ((c.mirrorThen i e).ply.holds.getLast?).map (·.eff) = some e := by
  simp [Chip.mirrorThen, Chip.hold]

theorem says_twistBatch : Says.twistBatch := by
  refine ⟨fun s => exists_only_of_touch (execTwistBatch_touch s) (by decide +kernel) (by decide +kernel), ?_, ?_⟩
  · intro s hleads hen hfront
    obtain ⟨m, hm, hdie⟩ := (Option.any_eq_true _ _).mp hfront
    have hdie : s.chip.carded m.src = false := by simpa using hdie
    have heq : s.chip.onFrame 0x30 Chip.twBatch = (s.chip.taken m).twLog 0x1D01 0 m.src 0 0 0 3 0 :=
      (Chip.onFrame_of_front hm _).trans (Chip.twBatch_of_uncarded hleads hen hdie)
    refine ⟨_, congrArg (fun c => Host.Outcome.next (s.settled c)) heq, ?_⟩
    have ht := (s.chip.taken m).twLog_touch 0x1D01 0 m.src 0 0 0 3 0
    exact ⟨ht.same .twist rfl, ht.same .ply rfl⟩
  · intro s hleads hen hfront
    obtain ⟨m, hm, hnext⟩ := (Option.any_eq_true _ _).mp hfront
    simp only [Bool.and_eq_true, bne_iff_ne, ne_eq, beq_iff_eq] at hnext
    obtain ⟨⟨⟨⟨⟨⟨⟨hdie, hkind⟩, hhank⟩, hopen⟩, hseq⟩, hkind1⟩, hkind2⟩, hroom⟩ := hnext
    have heq := (Chip.onFrame_of_front hm _).trans
      (Chip.twBatch_of_next (c := s.chip.taken m) hleads hen hdie hkind hhank hopen hseq hkind1 hkind2 hroom)
    refine ⟨_, congrArg (fun c => Host.Outcome.next (s.settled c)) heq, ?_⟩
    have htwist := (((s.chip.taken m).twTaken m.src (slice m.payload 0 64)).mirrorThen_touch (.twist m.src (slice m.payload 0 64))
      (.ack m.src m.seq)).same .twist rfl
    have htwist := htwist.trans (Chip.twist_twTaken ..)
    simp only [hm, Option.all_some, Bool.and_eq_true, decide_eq_true_eq, beq_iff_eq, htwist, tget_tput, if_true]
    exact ⟨⟨rfl, trivial⟩, Chip.getLast?_holds_mirrorThen ..⟩

/-! SEAL. -/

theorem Chip.geti_twSeal {c : Chip} {h : Nat} (hh : h < 16) : (c.twSeal h true).geti F.DGT_TWn_SEGMENT_NUM h =
    (c.geti F.DGT_TWn_SEGMENT_NUM h + 1) % 2 ^ 32 ∧ (c.twSeal h true).geti F.DGT_TWn_RECORDS_COUNT h = 0 := by
  unfold Chip.twSeal
  extract_lets g n c1 c2 c3
  rw [if_pos rfl]
  have hseg : c3.geti F.DGT_TWn_SEGMENT_NUM h = (g + 1) % 2 ^ 32 :=
    (Chip.geti_puti_other _ _ _ _ _ _ rfl (by interval_cases h <;> rfl)).trans (Chip.geti_puti _ _ _ _ rfl hh)
  exact ⟨hseg, Chip.geti_puti _ _ _ _ rfl hh⟩

theorem spares_twMirror : ∀ h < 16, spares 0x180000000000000000000000000000000003000000000000000000000004 (F.DGT_TWn_SEGMENT_NUM.off h) = true ∧
    spares 0x180000000000000000000000000000000003000000000000000000000004 (F.DGT_TWn_RECORDS_COUNT.off h) = true := by
  decide +kernel

theorem says_seal : Says.seal := by
  refine ⟨fun s req h => exists_only_of_touch (execSeal_touch req h s) (by decide +kernel) (by decide +kernel), ?_⟩
  intro s req h hopens hleads hopen
  refine ⟨_, congrArg (fun c => Host.Outcome.next (s.settled c)) (Chip.guarded_of_opens _ hopens), ?_⟩
  have heq : (s.chip.wrote req).twSealNow h.toNat = (((s.chip.wrote req).twSeal h.toNat true).twMirror h.toNat) :=
    if_pos (Bool.and_eq_true_iff.mpr ⟨hleads, hopen⟩)
  have hmirror := ((s.chip.wrote req).twSeal h.toNat true).twMirror_touch h.toNat
  have hseal := Chip.geti_twSeal (c := s.chip.wrote req) h.isLt
  simp only [heq]
  exact ⟨(hmirror.geti_eq (spares_twMirror _ h.isLt).1).trans hseal.1, (hmirror.geti_eq (spares_twMirror _ h.isLt).2).trans hseal.2⟩

theorem says_twistLogWriteError : Says.twistLogWriteError := by
  refine ⟨fun s h seg pos => exists_only_of_touch (execTwistLogWriteError_touch h seg pos s) (by decide +kernel) (by decide +kernel), ?_⟩
  intro s h seg pos hleads hopen
  exact ⟨_, rfl, by simp [hleads, hopen]⟩

theorem says_twistHeadRead : Says.twistHeadRead := by
  refine ⟨fun s req h => exists_only_of_touch (execTwistHeadRead_touch req h s) (by decide +kernel) (by decide +kernel), ?_⟩
  intro s req h hopens
  have hread : (s.chip.twHeadRead h.toNat).1.tw h.toNat = { s.chip.tw h.toNat with word := ((s.chip.tw h.toNat).word + 1) % 12 } :=
    Chip.tw_twMod_same ..
  exact ⟨_, congrArg (fun c => Host.Outcome.next (s.settled c)) (Chip.guarded_of_opens _ hopens), (congrArg Twist.word hread :),
    (congrArg Twist.head hread :), rfl⟩

theorem getLast?_newest_concat {α : Type} (n : Nat) (l : List α) (x : α) : (newest (n + 1) (l ++ [x])).getLast? = some x := by
  rw [newest, List.getLast?_drop, if_neg (by simp), List.getLast?_concat]

/-- The receipt of the step being signed is the newest kept. -/
theorem Chip.getLast?_receipts_twSigned {c : Chip} {h : Nat} {t : TwStep} (hs : (c.tw h).signing? = some t) :
    ((c.twSigned h).tw h).receipts.getLast?.map (·.1) = some t.num := by
  unfold Chip.twSigned
  split
  case h_1 hnone => exact absurd (hs.symm.trans hnone) (Option.some_ne_none t)
  rename_i t' hs'
  obtain rfl : t = t' := Option.some.inj (hs.symm.trans hs')
  extract_lets d rcpt c1 c2
  have h1 : (c1.tw h).receipts.getLast? = some (t.num, rcpt) := by
    rw [show c1.tw h = _ from (Chip.tw_puti ..).trans (Chip.tw_twMod_same ..)]
    exact getLast?_newest_concat 15 _ _
  have h2 : c2.tw h = c1.tw h := (Chip.portReq_touch ..).tw_eq rfl h
  have h3 : ((c2.count 36 1).twLog 0x0D03 h c2.node (c2.twActive h) t.num 0 0 t.seg).tw h = c2.tw h :=
    ((Chip.twLog_touch ..).tw_eq rfl h).trans ((Chip.count_touch ..).tw_eq rfl h)
  rw [h3, h2, h1]
  rfl

theorem says_receiptSigned : Says.receiptSigned := by
  refine ⟨fun s h => exists_only_of_touch (execReceiptSigned_touch h s) (by decide +kernel) (by decide +kernel), ?_, ?_⟩
  · intro s h hnone
    refine ⟨_, rfl, ?_⟩
    simp [Chip.twSigned, hnone]
  · intro s h hup hsome
    obtain ⟨t, ht⟩ := Option.isSome_iff_exists.mp hsome
    refine ⟨s.chip.twSigned h.toNat, ?_, ?_⟩
    · exact congrArg (fun c => Host.Outcome.next (s.settled c)) (if_pos hup)
    · rw [ht, Chip.getLast?_receipts_twSigned ht]
      rfl

/-- Settles O48, instruction by instruction. -/
theorem twistUnit : Obligations.TwistUnit :=
  ⟨says_twistBatch, says_twistFold, says_seal, says_twistLogWriteError, says_twistHeadRead, says_receiptSigned⟩

end Sys2Proof.Machine

/-!
SUPPORT. The statement on the calls and signatures of attestation (spec section 12).
-/

namespace Sys2Proof.Machine

set_option Elab.async false

/-! Spindle's reply to a call (Table 6.9). -/

theorem Chip.rd_mbWord (c : Chip) {ns : Bool} {n i : Nat} (hn : n < 16) (hi : i < 16) (w : Word) (off : Nat) :
    (c.mbWord ns n i w).rd off = if off = mbBase ns n + 4 * i then w else c.rd off := by
  rw [Chip.mbWord, if_pos (by simp [hn, hi]), Chip.rd_wr]

/-- The words after the first leave it. -/
theorem Chip.rd_mbWord_succ (c : Chip) (ns : Bool) (n i : Nat) (w : Word) : (c.mbWord ns n (i + 1) w).rd (mbBase ns n) = c.rd (mbBase ns n) := by
  unfold Chip.mbWord
  split
  · exact Chip.rd_wr_other _ _ _ _ (by omega)
  · rfl

/-- Of sixteen words written in turn the first reads back. -/
theorem Chip.rd_each_mbWord (c : Chip) {ns : Bool} {n : Nat} (hn : n < 16) (ws : Nat → Word) :
    (c.each (List.range 16) (fun c i => c.mbWord ns n i (ws i))).rd (mbBase ns n) = ws 0 := by
  rw [List.range_succ_eq_map, Chip.each, List.foldl_cons, List.foldl_map]
  refine (Chip.each_keeps (g := fun d : Chip => d.rd (mbBase ns n)) (l := List.range 15) (fun d i => d.rd_mbWord_succ ns n i _) _).trans ?_
  exact (c.rd_mbWord hn (by decide) _ _).trans (if_pos rfl)

/-- A step that touches no register leaves each. -/
theorem Touch.rd_eq_of_none {pm : Nat} {c d : Chip} (h : Touch pm 0 c d) (off : Nat) : d.rd off = c.rd off :=
  (h.2 off).resolve_left (by simp [covers])

/-- The data words of a mailbox are none of the registers in which its status stands. -/
theorem spares_mbBase : ∀ n < 16, spares 0x10400000000000000000000000000 (mbBase false n) = true := by decide +kernel

/-- The status fields of a reply: REPLIED, its words, its interrupts. -/
def Chip.mbReplyPut (c : Chip) (ns : Bool) (n words : Nat) : Chip :=
  (((c.mbPut ns n F.MBS_STATUSn_STATE 3).mbPut ns n F.MBS_STATUSn_WORDS words).mbPut ns n F.MBS_STATUSn_FULL_IRQ 0).mbPut ns n
    F.MBS_STATUSn_EMPTY_IRQ 1

theorem Chip.rd_mbReplied (c : Chip) (ns : Bool) (n words off : Nat) : (c.mbReplied ns n words).rd off = (c.mbReplyPut ns n words).rd off :=
  (Chip.mbRaiseEmpty_touch ..).rd_eq_of_none off

theorem Chip.mbSt_mbReplied (c : Chip) {ns : Bool} {n : Nat} (hn : n < 16) (words : Nat) : (c.mbReplied ns n words).mbSt ns n = 3 := by
  have hst : (c.mbReplyPut ns n words).mbSt ns n = 3 := by
    rw [Chip.mbReplyPut, Chip.mbSt, Chip.mb_mbPut_other _ _ _ _ rfl (by decide), Chip.mb_mbPut_other _ _ _ _ rfl (by decide),
      Chip.mb_mbPut_other _ _ _ _ rfl (by decide), Chip.mb_mbPut _ _ _ rfl hn]
    rfl
  rw [← hst, Chip.mbSt, Chip.mb, Chip.geti, Chip.rd_mbReplied]
  rfl

/-- A status stands in the low byte of its word. -/
theorem mod_256_of_status (a b : Nat) (st : Status) : (BitVec.ofNat 32 (a * 65536 + b * 256 + st.code)).toNat % 256 = st.code := by
  have hst : st.code < 256 := by cases st <;> decide
  rw [BitVec.toNat_ofNat]
  omega

/-- A call answered in its mailbox: the mailbox holds the reply, with its status. -/
theorem Chip.answered_answer {c : Chip} {k : Call} (a : Answer) (hn : k.mbox < 16) (horphan : c.cores.orphan.contains k.mbox = false) :
    (c.answer k a).answered k.mbox a.st = true := by
  unfold Chip.answer
  extract_lets c1 c2 cores out c3 ws c4
  have horphan2 : c2.cores.orphan.contains k.mbox = false := by
    have h2 : c2.cores = c1.cores := (c1.count_touch 40 1).same .cores rfl
    have h1 : c1.cores = c.cores := by
      unfold c1
      split
      · exact (Chip.log_touch ..).same .cores rfl
      · rfl
    rw [h2, h1, horphan]
  rw [if_neg (by simp only [horphan2]; decide)]
  have hword : ((c4.mbLast false k.mbox .ok).mbReplied false k.mbox 16).rd (mbBase false k.mbox) =
      BitVec.ofNat 32 (k.code * 65536 + k.tag * 256 + a.st.code) :=
    ((Chip.mbReplied_touch ..).rd_eq (spares_mbBase _ hn)).trans (((Chip.mbLast_touch ..).rd_eq (spares_mbBase _ hn)).trans
      (Chip.rd_each_mbWord c3 hn fun i => BitVec.ofNat 32 (ws.getD i 0)))
  rw [Chip.answered, Chip.mbSt_mbReplied _ hn, Chip.mbsWord, Nat.mul_zero, Nat.add_zero, hword, mod_256_of_status]
  simp

/-! A call that waits and is ready. -/

/-- A call waits in a mailbox of its own number. -/
theorem Chip.mbox_of_callAt {c : Chip} {n : Nat} {k : Call} (h : c.callAt n = some k) : k.mbox = n ∧ n < 16 := by
  unfold Chip.callAt at h
  split at h
  · rename_i hn
    simp only [Bool.and_eq_true, Bool.or_eq_true, decide_eq_true_eq] at hn
    exact ⟨(congrArg Call.mbox (Option.some.inj h)).symm, by omega⟩
  · cases h

/-- What `Chip.callReady` says of the call. -/
theorem Chip.exists_call_of_callReady {c : Chip} {n code : Nat} (h : c.callReady n code = true) :
    ∃ k, c.callAt n = some k ∧ k.mbox = n ∧ n < 16 ∧ k.code = code ∧ c.coreSt k.core ≠ 2 ∧ c.cores.orphan.contains n = false ∧
      k.bufsOk = true ∧ c.mem.poison = [] := by
  unfold Chip.callReady at h
  split at h
  · rename_i k hk
    simp only [Bool.and_eq_true, beq_iff_eq, bne_iff_ne, Bool.not_eq_true', List.isEmpty_iff] at h
    obtain ⟨⟨⟨⟨hcode, hcore⟩, horphan⟩, hbufs⟩, hpoison⟩ := h
    obtain ⟨hbox, hn⟩ := Chip.mbox_of_callAt hk
    exact ⟨k, hk, hbox, hn, hcode, hcore, horphan, hbufs, hpoison⟩
  · cases h

/-- A ready call has its effect on its input and is answered, unless its answer leaves later. -/
theorem Chip.onCall_of_ready {c : Chip} {n code : Nat} {k : Call} (h : c.callReady n code = true) (hk : c.callAt n = some k)
    (f : Chip → Call → List Byte → Chip × Answer) :
    c.onCall n code noGate f = if (f c k (c.callInput n)).2.wait_ then (f c k (c.callInput n)).1
      else (f c k (c.callInput n)).1.answer k (f c k (c.callInput n)).2 := by
  obtain ⟨k', hk', -, -, hcode, hcore, horphan, hbufs, hpoison⟩ := Chip.exists_call_of_callReady h
  obtain rfl : k = k' := Option.some.inj (hk.symm.trans hk')
  have hpoisoned : c.poisoned k.inAddr k.inLen = none := by simp [Chip.poisoned, hpoison]
  simp only [List.contains_eq_mem, decide_eq_false_iff_not] at horphan
  simp [Chip.onCall, hk, hcode, hcore, horphan, hbufs, hpoisoned, noGate, firstStatus]

/-- A ready call answered at once: the mailbox holds the reply, and of the attestation state what the call's own effect leaves. -/
theorem Chip.onCall_answered {c d : Chip} {n code : Nat} {k : Call} {a : Answer} {f : Chip → Call → List Byte → Chip × Answer}
    (h : c.callReady n code = true) (hk : c.callAt n = some k) (hf : f c k (c.callInput n) = (d, a)) (hnow : a.wait_ = false)
    (horphan : d.cores.orphan = c.cores.orphan) :
    (c.onCall n code noGate f).answered n a.st = true ∧ (c.onCall n code noGate f).spdm = d.spdm := by
  obtain ⟨k', hk', hbox, hn, -, -, hnone, -, -⟩ := Chip.exists_call_of_callReady h
  obtain rfl : k = k' := Option.some.inj (hk.symm.trans hk')
  have heq : c.onCall n code noGate f = d.answer k a := by
    rw [Chip.onCall_of_ready h hk, hf, if_neg (by simp [hnow])]
  rw [heq]
  subst hbox
  exact ⟨Chip.answered_answer a hn (by rw [horphan, hnone]), (Chip.answer_touch ..).same .spdm rfl⟩

/-- The same of a property of the attestation state. -/
theorem Chip.onCall_answered_with {c : Chip} {n code : Nat} {k : Call} {st : Status} {f : Chip → Call → List Byte → Chip × Answer}
    {P : Spdm → Prop} (h : c.callReady n code = true) (hk : c.callAt n = some k)
    (hf : ∃ (d : Chip) (a : Answer), f c k (c.callInput n) = (d, a) ∧ a.st = st ∧ a.wait_ = false ∧ d.cores.orphan = c.cores.orphan ∧
      P d.spdm) :
    (c.onCall n code noGate f).answered n st = true ∧ P (c.onCall n code noGate f).spdm := by
  obtain ⟨d, a, heq, rfl, hnow, horphan, hP⟩ := hf
  obtain ⟨hanswered, hkept⟩ := Chip.onCall_answered h hk heq hnow horphan
  exact ⟨hanswered, hkept ▸ hP⟩

/-- A call made PENDING: its ticket's work, on a chip that differs in the calls that wait alone. -/
theorem Chip.pending_of_empty {c : Chip} (h : c.cores.pend = []) (k : Call) (work : Chip → Nat → Chip) :
    ∃ d t, d.cores.orphan = c.cores.orphan ∧ d.spdm = c.spdm ∧ c.pending k work = (work d t, { st := .pending, ticket := t }) := by
  have hcall : ∃ p, c.pendCall k = some p ∧ p.2.cores.orphan = c.cores.orphan ∧ p.2.spdm = c.spdm := by
    rw [Chip.pendCall, h, List.filter_nil, if_pos (by decide)]
    exact ⟨_, rfl, rfl, rfl⟩
  obtain ⟨p, hp, horphan, hspdm⟩ := hcall
  exact ⟨p.2, p.1, horphan, hspdm, by rw [Chip.pending, hp]⟩

/-- A ready call that asks for a signature: the mailbox holds PENDING, and the queue has one entry more. -/
theorem Chip.onCall_queued {c : Chip} {n code : Nat} {k : Call} {f : Chip → Call → List Byte → Chip × Answer}
    (h : c.callReady n code = true) (hk : c.callAt n = some k) (hpend : c.cores.pend = [])
    (hf : ∃ (hank : Nat) (work : Chip → Nat → SignWork), f c k (c.callInput n) = c.pending k fun d t => d.sigPut hank (work d t)) :
    (c.onCall n code noGate f).answered n .pending = true ∧ (c.onCall n code noGate f).spdm.queue.length = c.spdm.queue.length + 1 := by
  obtain ⟨hank, work, hf⟩ := hf
  obtain ⟨d, t, horphan, hspdm, hpending⟩ := Chip.pending_of_empty hpend k fun d t => d.sigPut hank (work d t)
  obtain ⟨hanswered, hkept⟩ := Chip.onCall_answered h hk (hf.trans hpending) rfl horphan
  refine ⟨hanswered, ?_⟩
  rw [hkept, ← hspdm]
  exact List.length_append

theorem says_snapshotGet : Says.snapshotGet := by
  refine ⟨fun s n => exists_only_of_touch (execSnapshotGet_touch n s) (by decide +kernel) (by decide +kernel), ?_, ?_⟩
  · intro s n hready hnone
    obtain ⟨k, hk, -⟩ := Chip.exists_call_of_callReady hready
    refine ⟨s.chip.onCall n 0x0002 noGate _, rfl, (Chip.onCall_answered (d := s.chip) (a := { st := .denied }) hready hk ?_ rfl rfl).1⟩
    simp only [hnone]
  · intro s n hready hsome
    obtain ⟨k, hk, -⟩ := Chip.exists_call_of_callReady hready
    obtain ⟨p, hp⟩ := Option.isSome_iff_exists.mp hsome
    refine ⟨s.chip.onCall n 0x0002 noGate _, rfl, Chip.onCall_answered (d := s.chip)
      (a := { st := .ok, out := p.bytes, inl := [p.gen % 2 ^ 32, p.gen / 2 ^ 32] }) hready hk ?_ rfl rfl⟩
    simp only [hp]

/-- A scope is a hank's or that of the whole chip. -/
theorem not_badScope {v : Nat} (h : (v == 255 || decide (v < 16)) = true) : ¬ (v != 255 && decide (16 ≤ v)) = true := by
  simp only [Bool.or_eq_true, Bool.and_eq_true, beq_iff_eq, bne_iff_ne, decide_eq_true_eq] at h ⊢
  omega

theorem says_signReport : Says.signReport := by
  refine ⟨fun s n => exists_only_of_touch (execSignReport_touch n s) (by decide +kernel) (by decide +kernel), ?_, ?_⟩
  · intro s n hready hgen
    obtain ⟨k, hk, -⟩ := Chip.exists_call_of_callReady hready
    simp only [hk, Option.any_some, Bool.and_eq_true, Option.isNone_iff_eq_none] at hgen
    obtain ⟨hscope, hgen⟩ := hgen
    have ht := s.chip.log_touch 0x1C02 uSPN (aCount (numAt k.args 0 4) 0 0 (numAt k.args 4 1))
    refine ⟨s.chip.onCall n 0x0010 noGate _, rfl, And.imp_right (·.trans (ht.same .spdm rfl))
      (Chip.onCall_answered (a := { st := .staleEpoch }) hready hk ?_ rfl (congrArg Cores.orphan (ht.same .cores rfl)))⟩
    simp only [hgen, if_neg (not_badScope hscope)]
  · intro s n hready hpend hgood
    obtain ⟨k, hk, -⟩ := Chip.exists_call_of_callReady hready
    simp only [hk, Option.any_some, Bool.and_eq_true, Option.any_eq_true, decide_eq_true_eq] at hgood
    obtain ⟨hscope, p, hp, hroom, hinput⟩ := hgood
    refine ⟨s.chip.onCall n 0x0010 noGate _, rfl, Chip.onCall_queued hready hk hpend ?_⟩
    simp only [hp, if_neg (not_badScope hscope), hroom, if_pos hinput, Bool.not_true, Bool.false_eq_true, if_false]
    exact ⟨_, _, rfl⟩

theorem says_signSpdm : Says.signSpdm := by
  refine ⟨fun s n => exists_only_of_touch (execSignSpdm_touch n s) (by decide +kernel) (by decide +kernel), ?_, ?_⟩
  · intro s n hready hid
    obtain ⟨k, hk, -⟩ := Chip.exists_call_of_callReady hready
    refine ⟨s.chip.onCall n 0x0011 noGate _, rfl, Chip.onCall_answered (d := s.chip) (a := { st := .denied }) hready hk ?_ rfl rfl⟩
    simp only [hid, if_true]
  · intro s n hready hid hpend hroom hlen hkind hkind3 halg hzero
    obtain ⟨k, hk, -⟩ := Chip.exists_call_of_callReady hready
    have hform : ¬ ((s.chip.callInput n).length != 56 || decide (numAt (s.chip.callInput n) 0 1 = 0) ||
        decide (3 < numAt (s.chip.callInput n) 0 1) || decide (1 < numAt (s.chip.callInput n) 1 1) || numAt (s.chip.callInput n) 2 6 != 0) = true := by
      simp only [Bool.or_eq_true, bne_iff_ne, decide_eq_true_eq]
      omega
    refine ⟨s.chip.onCall n 0x0011 noGate _, rfl, Chip.onCall_queued hready hk hpend ?_⟩
    simp only [hid, if_neg hform, hroom, zero_ne_one, Bool.not_true, Bool.false_eq_true, if_false]
    exact ⟨_, _, rfl⟩

theorem says_sessionKeys : Says.sessionKeys := by
  refine ⟨fun s n => exists_only_of_touch (execSessionKeys_touch n s) (by decide +kernel) (by decide +kernel), ?_, ?_⟩
  · intro s n hready hnone
    obtain ⟨k, hk, -⟩ := Chip.exists_call_of_callReady hready
    have hnone : s.chip.sess? (numAt k.args 0 4) = none := by simpa [hk] using hnone
    refine ⟨s.chip.onCall n 0x0012 noGate _, rfl, Chip.onCall_answered (d := s.chip) (a := { st := .badArg }) hready hk ?_ rfl rfl⟩
    simp only [hnone]
  · intro s n hready hgood
    obtain ⟨k, hk, -⟩ := Chip.exists_call_of_callReady hready
    simp only [hk, Option.any_some, Bool.and_eq_true, Option.any_eq_true, decide_eq_true_eq, beq_iff_eq] at hgood
    obtain ⟨⟨⟨⟨⟨q, hq, hest⟩, hch⟩, howner⟩, hreg⟩, hhost⟩ := hgood
    have hst : firstStatus [(!q.est || (decide (numAt k.args 4 1 < 32) && s.chip.chOwner (numAt k.args 4 1) != 0xF0 + k.core), .denied),
        (decide (32 ≤ numAt k.args 4 1) || decide (4 ≤ numAt k.args 5 1) || decide (4096 ≤ numAt k.args 6 2), .badArg)] = .ok := by
      simp [firstStatus, hest, howner, hch, hreg, hhost]
    refine ⟨s.chip.onCall n 0x0012 noGate _, rfl, ?_⟩
    simp only [hk, Option.all_some, decide_eq_true_eq]
    refine Chip.onCall_answered_with (P := fun u => tget? u.chan (numAt k.args 6 2) = some (numAt k.args 0 4)) hready hk ?_
    simp only [hq, hst]
    exact ⟨_, _, rfl, rfl, rfl, congrArg Cores.orphan ((Chip.chKeySet_touch ..).same .cores rfl), (tget?_tput ..).trans (if_pos rfl)⟩

/-! A report signed. -/

/-- A report fetched is signed: it leaves the queue and takes the next number. -/
theorem Chip.spdm_reportDone_of_fetch {c : Chip} {k : Nat} {e : Nat × Nat × SignWork} {conn : Nat} {sess : Option Nat} {gen : Nat}
    {payload : List Byte} {t off : Nat} (he : c.spdm.queue[k]? = some e) (hwork : e.2.2 = .fetch conn sess gen payload t off) :
    (c.reportDone k).spdm.queue = c.spdm.queue.eraseIdx k ∧ (c.reportDone k).spdm.lastReport = c.spdm.lastReport % (2 ^ 32 - 1) + 1 := by
  obtain ⟨since, hank, work⟩ := e
  obtain rfl : work = _ := hwork
  unfold Chip.reportDone
  rw [he]
  dsimp -zeta only
  extract_lets drop d bytes id c1
  have hd : d.2.spdm = (drop c).spdm := (Chip.coseSigned_touch ..).same .spdm rfl
  have hout : ((c1.reportLog gen hank).quietOut conn sess hank since 16000 (reportMsg id off bytes)).spdm = c1.spdm :=
    ((Chip.quietOut_touch ..).same .spdm rfl).trans ((Chip.reportLog_touch ..).same .spdm rfl)
  rw [hout]
  exact ⟨congrArg Spdm.queue hd, (congrArg (fun u : Spdm => u.lastReport % (2 ^ 32 - 1) + 1) hd :)⟩

theorem says_reportSigned : Says.reportSigned := by
  refine ⟨fun s k => exists_only_of_touch (execReportSigned_touch k s) (by decide +kernel) (by decide +kernel), ?_, ?_⟩
  · intro s k hnone
    refine ⟨_, rfl, ?_⟩
    simp [Chip.reportDone, hnone]
  · intro s k hup hfetch
    obtain ⟨e, he, hwork⟩ := (Option.any_eq_true _ _).mp hfetch
    refine ⟨s.chip.reportDone k, congrArg (fun c => Host.Outcome.next (s.settled c)) (if_pos hup), ?_⟩
    split at hwork
    · next hfetch => exact Chip.spdm_reportDone_of_fetch he hfetch
    · cases hwork

/-- Settles O54, instruction by instruction. -/
theorem attestationCalls : Obligations.AttestationCalls :=
  ⟨says_snapshotGet, says_signReport, says_signSpdm, says_sessionKeys, says_reportSigned⟩

end Sys2Proof.Machine

/-!
SUPPORT. The statements on the SPDM and the vendor-defined requests (spec section 12).
-/

namespace Sys2Proof.Machine

set_option Elab.async false

/-! Messages. -/

/-- A message on a connection that is no mailbox's leaves, and nothing more. -/
theorem Chip.spdmSend_of_noMailbox {conn : Nat} (h : conn / 256 ≠ 1) (c : Chip) (sess : Option Nat) (body : List Byte) :
    c.spdmSend conn sess body = c.send (.spdm conn sess body) := by
  have hnone : (List.range 16).find? (fun n => conn / 256 == 1 && (c.send (.spdm conn sess body)).mbSt true n == 2 &&
      (c.send (.spdm conn sess body)).mbOwner true n == conn % 256) = none := by
    simp [h]
  rw [Chip.spdmSend, Chip.hostReply, hnone]

theorem Chip.spdmOut_of_noMailbox {m : SpdmMsg} (h : m.conn / 256 ≠ 1) (c : Chip) (body : List Byte) :
    c.spdmOut m body = c.send (.spdm m.conn m.sess body) :=
  Chip.spdmSend_of_noMailbox h ..

theorem Chip.tx_spdmOut {m : SpdmMsg} (h : m.conn / 256 ≠ 1) (c : Chip) (body : List Byte) :
    (c.spdmOut m body).tx = c.tx ++ [.spdm m.conn m.sess body] :=
  congrArg Chip.tx (Chip.spdmOut_of_noMailbox h c body)

theorem Chip.spdm_spdmOut (c : Chip) (m : SpdmMsg) (body : List Byte) : (c.spdmOut m body).spdm = c.spdm := (Chip.spdmSend_touch ..).same .spdm rfl

theorem Chip.tx_errLog (c : Chip) (m : SpdmMsg) (code : Nat) : (c.errLog m code).tx = c.tx := (Chip.logOnce_touch ..).same .tx rfl

theorem Chip.tx_spdmErr {m : SpdmMsg} (h : m.conn / 256 ≠ 1) (c : Chip) (code : Nat) :
    (c.spdmErr m code).tx = c.tx ++ [.spdm m.conn m.sess (spdmErrMsg code 0)] :=
  (Chip.tx_spdmOut h ..).trans (congrArg (· ++ _) (c.tx_errLog m code))

/-! Connections and sessions. -/

theorem tget_tmod {α : Type} (t : Tab α) (k j : Nat) (d : α) (f : α → α) :
    tget (tmod t k d f) j d = if j = k then f (tget t k d) else tget t j d :=
  tget_tput ..

theorem Chip.conn_connMod_same (c : Chip) (k : Nat) (f : Conn → Conn) : (c.connMod k f).conn k = f (c.conn k) :=
  (tget_tmod ..).trans (if_pos rfl)

theorem Chip.sess?_sessMod (c : Chip) (id : Nat) (f : Sess → Sess) (j : Nat) :
    (c.sessMod id f).sess? j = if j = id then (c.sess? id).map f else c.sess? j := by
  unfold Chip.sessMod
  split
  · next s hs =>
    rw [hs]
    exact tget?_tput ..
  · next hs =>
    split
    · next h => rw [h, hs]; rfl
    · rfl

/-! What a request that is good does before it is served. -/

/-- The chip a good request is served on: it is counted, its session's timer starts again, and of its connection the signature HYBRID_SIG may
name and the measurements' transcript go, unless they are kept. -/
def Chip.served (c : Chip) (m : SpdmMsg) (keep l1 : Bool) : Chip :=
  let c := c.count 38 1
  let c := match m.sess with | some i => c.sessMod i (fun s => { s with last := c.slot }) | none => c
  let c := if keep then c else c.connMod m.conn (fun u => { u with last := none })
  if l1 then c else c.connMod m.conn (fun u => { u with l1 := tdel u.l1 (m.sess.getD 0) })

theorem Chip.count_eq (c : Chip) (i n : Nat) : ∃ dbg, c.count i n = { c with dbg := dbg } := by
  unfold Chip.count
  split
  · exact ⟨_, rfl⟩
  · exact ⟨c.dbg, rfl⟩

theorem Chip.sessMod_eq (c : Chip) (id : Nat) (f : Sess → Sess) : ∃ sess, c.sessMod id f = { c with spdm := { c.spdm with sess := sess } } := by
  unfold Chip.sessMod
  split
  · exact ⟨_, rfl⟩
  · exact ⟨c.spdm.sess, rfl⟩

theorem Chip.spdmBad_count (c : Chip) (i n : Nat) (m : SpdmMsg) : (c.count i n).spdmBad m = c.spdmBad m := by
  obtain ⟨dbg, h⟩ := c.count_eq i n
  rw [h]
  rfl

/-- Of the chip, the connections, the sessions and the counter of requests may differ when a good request is served. -/
theorem Chip.served_eq (c : Chip) (m : SpdmMsg) (keep l1 : Bool) :
    ∃ dbg conns sess, c.served m keep l1 = { c with dbg := dbg, spdm := { c.spdm with conns := conns, sess := sess } } := by
  unfold Chip.served
  extract_lets c1 c2 c3
  obtain ⟨dbg, h1⟩ : ∃ dbg, c1 = { c with dbg := dbg } := c.count_eq 38 1
  obtain ⟨sess, h2⟩ : ∃ sess, c2 = { c with dbg := dbg, spdm := { c.spdm with sess := sess } } := by
    unfold c2
    split
    · obtain ⟨sess, h⟩ := c1.sessMod_eq _ _
      exact ⟨sess, by rw [h, h1]⟩
    · exact ⟨c.spdm.sess, by rw [h1]⟩
  obtain ⟨conns, h3⟩ : ∃ conns, c3 = { c with dbg := dbg, spdm := { c.spdm with conns := conns, sess := sess } } := by
    unfold c3
    split
    · exact ⟨c.spdm.conns, h2⟩
    · exact ⟨_, by rw [h2]; rfl⟩
  split
  · exact ⟨dbg, conns, sess, h3⟩
  · exact ⟨dbg, _, sess, by rw [h3]; rfl⟩

/-- A property of a chip that reads neither its connections nor its sessions nor its counters is as it was. -/
theorem Chip.served_keeps {α : Type} {g : Chip → α}
    (hg : ∀ c dbg conns sess, g { c with dbg := dbg, spdm := { c.spdm with conns := conns, sess := sess } } = g c)
    (c : Chip) (m : SpdmMsg) (keep l1 : Bool) : g (c.served m keep l1) = g c := by
  obtain ⟨dbg, conns, sess, h⟩ := c.served_eq m keep l1
  rw [h, hg]

theorem Chip.sess?_connMod (c : Chip) (k : Nat) (f : Conn → Conn) (id : Nat) : (c.connMod k f).sess? id = c.sess? id := rfl

theorem Chip.conn_sessMod (c : Chip) (id : Nat) (f : Sess → Sess) (k : Nat) : (c.sessMod id f).conn k = c.conn k := by
  obtain ⟨sess, h⟩ := c.sessMod_eq id f
  rw [h]
  rfl

theorem Chip.spdm_count (c : Chip) (i n : Nat) : (c.count i n).spdm = c.spdm := (c.count_touch i n).same .spdm rfl

/-- The session a request is secured under has its timer started again, the others are as they were. -/
theorem Chip.sess?_served (c : Chip) (m : SpdmMsg) (keep l1 : Bool) (id : Nat) :
    (c.served m keep l1).sess? id = (c.sess? id).map fun q => if m.sess = some id then { q with last := c.slot } else q := by
  unfold Chip.served
  extract_lets c1 c2 c3
  have h1 : c1.sess? id = c.sess? id := congrArg (fun u : Spdm => tget? u.sess id) (c.spdm_count 38 1)
  have h2 : c2.sess? id = (c.sess? id).map fun q => if m.sess = some id then { q with last := c.slot } else q := by
    have hslot : c1.slot = c.slot := congrArg (· / 256) ((c.count_touch 38 1).same .time rfl)
    unfold c2
    split
    · next i hi =>
      rw [Chip.sess?_sessMod, hslot, hi]
      by_cases h : id = i
      · subst h; simp [h1]
      · simp [h, Ne.symm h, h1]
    · next hnone => simp [hnone, h1]
  have h3 : c3.sess? id = c2.sess? id := by
    unfold c3
    split
    · rfl
    · exact c2.sess?_connMod ..
  split
  · exact h3.trans h2
  · exact (c3.sess?_connMod ..).trans (h3.trans h2)

/-- Of its connection a request leaves all but what HYBRID_SIG may name and the transcript of measurements. -/
theorem Chip.conn_served (c : Chip) (m : SpdmMsg) (keep l1 : Bool) :
    (c.served m keep l1).conn m.conn = { c.conn m.conn with
      last := if keep then (c.conn m.conn).last else none
      l1 := if l1 then (c.conn m.conn).l1 else tdel (c.conn m.conn).l1 (m.sess.getD 0) } := by
  unfold Chip.served
  extract_lets c1 c2 c3
  have h1 : c1.conn m.conn = c.conn m.conn := congrArg (fun u : Spdm => tget u.conns m.conn {}) (c.spdm_count 38 1)
  have h2 : c2.conn m.conn = c.conn m.conn := by
    unfold c2
    split
    · exact (c1.conn_sessMod ..).trans h1
    · exact h1
  have h3 : c3.conn m.conn = { c.conn m.conn with last := if keep then (c.conn m.conn).last else none } := by
    unfold c3
    split
    · exact h2
    · rw [Chip.conn_connMod_same, h2]
  split
  · exact h3
  · rw [Chip.conn_connMod_same, h3]

theorem Chip.tx_served (c : Chip) (m : SpdmMsg) (keep l1 : Bool) : (c.served m keep l1).tx = c.tx := Chip.served_keeps (fun _ _ _ _ => rfl) ..

/-- A good request that something refuses gets that ERROR. -/
theorem Chip.spdmServe_of_bad {c : Chip} {m : SpdmMsg} {mine : Nat → Bool} {keep l1 : Bool} {f : Chip → Chip} {e : Nat} (ha : c.answers = true)
    (hmine : mine (numAt m.msg 1 1) = true) (hgood : m.good = true) (hbad : c.spdmBad m = some e) :
    c.spdmServe m mine keep l1 f = (c.served m keep l1).spdmErr m e := by
  unfold Chip.spdmServe
  rw [if_neg (by simp [ha, hmine])]
  simp only [hgood, Chip.spdmBad_count, hbad, Bool.not_true, Bool.false_eq_true, if_false]
  rfl

/-- One that nothing refuses is served. -/
theorem Chip.spdmServe_of_good {c : Chip} {m : SpdmMsg} {mine : Nat → Bool} {keep l1 : Bool} {f : Chip → Chip} (ha : c.answers = true)
    (hmine : mine (numAt m.msg 1 1) = true) (hgood : m.good = true) (hbad : c.spdmBad m = none) :
    c.spdmServe m mine keep l1 f = f (c.served m keep l1) := by
  unfold Chip.spdmServe
  rw [if_neg (by simp [ha, hmine])]
  simp only [hgood, Chip.spdmBad_count, hbad, Bool.not_true, Bool.false_eq_true, if_false]
  rfl

/-- The ERROR of R336, whichever request it is. -/
theorem Chip.tx_spdmServe_of_bad {c : Chip} {m : SpdmMsg} {mine : Nat → Bool} {keep l1 : Bool} {f : Chip → Chip} (ha : c.answers = true)
    (hmine : mine (numAt m.msg 1 1) = true) (hgood : m.good = true) (hbad : (c.spdmBad m).isSome = true) (hconn : m.conn / 256 ≠ 1) :
    (c.spdmBad m).all (fun e => decide ((c.spdmServe m mine keep l1 f).tx = c.tx ++ [.spdm m.conn m.sess (spdmErrMsg e 0)])) = true := by
  obtain ⟨e, he⟩ := Option.isSome_iff_exists.mp hbad
  rw [he, Option.all_some, decide_eq_true_eq, Chip.spdmServe_of_bad ha hmine hgood he, Chip.tx_spdmErr hconn, Chip.tx_served]

section
variable {s : State} {o : Host.Outcome State Fault Refusal} {m : SpdmMsg} {mine : Nat → Bool} {keep l1 : Bool} {f : Chip → Chip}

/-- A command that serves a request answers, where something refuses it, that ERROR. -/
theorem State.exists_of_refused (ho : o = .next (s.settled (s.chip.spdmServe m mine keep l1 f))) (ha : s.chip.answers = true)
    (hmine : mine (numAt m.msg 1 1) = true) (hgood : m.good = true) (hbad : (s.chip.spdmBad m).isSome = true) (hconn : m.conn / 256 ≠ 1) :
    ∃ c : Chip, o = .next (s.settled c) ∧
      (s.chip.spdmBad m).all (fun e => decide (c.tx = s.chip.tx ++ [.spdm m.conn m.sess (spdmErrMsg e 0)])) = true :=
  ⟨_, ho, Chip.tx_spdmServe_of_bad ha hmine hgood hbad hconn⟩

/-- And does, where nothing refuses it, what serving it does. -/
theorem State.exists_of_served {P : Chip → Prop} (ho : o = .next (s.settled (s.chip.spdmServe m mine keep l1 f))) (ha : s.chip.answers = true)
    (hmine : mine (numAt m.msg 1 1) = true) (hgood : m.good = true) (hbad : s.chip.spdmBad m = none) (hP : P (f (s.chip.served m keep l1))) :
    ∃ c : Chip, o = .next (s.settled c) ∧ P c :=
  ⟨_, ho, (Chip.spdmServe_of_good ha hmine hgood hbad).symm ▸ hP⟩

end

theorem Chip.conn_spdmOut (c : Chip) (m : SpdmMsg) (body : List Byte) (k : Nat) : (c.spdmOut m body).conn k = c.conn k :=
  congrArg (fun u : Spdm => tget u.conns k {}) (c.spdm_spdmOut m body)

theorem Chip.tx_connMod_served (c : Chip) (m : SpdmMsg) (keep l1 : Bool) (k : Nat) (f : Conn → Conn) :
    ((c.served m keep l1).connMod k f).tx = c.tx :=
  c.tx_served m keep l1

/-- A message sent by a chip that has sent nothing since. -/
theorem Chip.tx_spdmOut_of_eq {m : SpdmMsg} (h : m.conn / 256 ≠ 1) {c d : Chip} (hd : d.tx = c.tx) (body : List Byte) :
    (d.spdmOut m body).tx = c.tx ++ [.spdm m.conn m.sess body] := by
  rw [Chip.tx_spdmOut h, hd]

theorem Chip.tx_spdmErr_of_eq {m : SpdmMsg} (h : m.conn / 256 ≠ 1) {c d : Chip} (hd : d.tx = c.tx) (code : Nat) :
    (d.spdmErr m code).tx = c.tx ++ [.spdm m.conn m.sess (spdmErrMsg code 0)] := by
  rw [Chip.tx_spdmErr h, hd]

/-! Requests answered from tables. -/

theorem says_getVersion : Says.getVersion := by
  refine ⟨fun s m => exists_only_of_touch (execGetVersion_touch m s) (by decide +kernel) (by decide +kernel),
    fun s m ha hcode hgood hbad hconn => State.exists_of_refused rfl ha (by simp [hcode]) hgood hbad hconn, ?_⟩
  intro s m ha hcode hgood hbad hconn
  refine State.exists_of_served rfl ha (by simp [hcode]) hgood hbad ⟨Chip.tx_spdmOut_of_eq hconn (Chip.tx_connMod_served ..) _, ?_⟩
  exact congrArg Conn.stage ((Chip.conn_spdmOut ..).trans (Chip.conn_connMod_same ..))

theorem says_getCapabilities : Says.getCapabilities := by
  refine ⟨fun s m => exists_only_of_touch (execGetCapabilities_touch m s) (by decide +kernel) (by decide +kernel),
    fun s m ha hcode hgood hbad hconn => State.exists_of_refused rfl ha (by simp [hcode]) hgood hbad hconn, ?_⟩
  intro s m ha hcode hgood hbad hconn hlen
  refine State.exists_of_served rfl ha (by simp [hcode]) hgood hbad ?_
  rw [if_neg hlen.not_gt]
  exact ⟨Chip.tx_spdmOut_of_eq hconn (Chip.tx_connMod_served ..) _, congrArg Conn.stage ((Chip.conn_spdmOut ..).trans (Chip.conn_connMod_same ..))⟩

theorem says_negotiateAlgorithms : Says.negotiateAlgorithms := by
  refine ⟨fun s m => exists_only_of_touch (execNegotiateAlgorithms_touch m s) (by decide +kernel) (by decide +kernel),
    fun s m ha hcode hgood hbad hconn => State.exists_of_refused rfl ha (by simp [hcode]) hgood hbad hconn, ?_⟩
  intro s m ha hcode hgood hbad hconn hoffered
  refine State.exists_of_served rfl ha (by simp [hcode]) hgood hbad ?_
  rw [if_neg (by simp [hoffered])]
  exact ⟨Chip.tx_spdmOut_of_eq hconn (Chip.tx_connMod_served ..) _, congrArg Conn.stage ((Chip.conn_spdmOut ..).trans (Chip.conn_connMod_same ..))⟩

theorem says_heartbeat : Says.heartbeat := by
  refine ⟨fun s m => exists_only_of_touch (execHeartbeat_touch m s) (by decide +kernel) (by decide +kernel),
    fun s m ha hcode hgood hbad hconn => State.exists_of_refused rfl ha (by simp [hcode]) hgood hbad hconn, ?_⟩
  intro s m ha hcode hgood hbad hconn
  exact State.exists_of_served rfl ha (by simp [hcode]) hgood hbad (Chip.tx_spdmOut_of_eq hconn (Chip.tx_served ..) _)

theorem Chip.tx_sessMod (c : Chip) (id : Nat) (f : Sess → Sess) : (c.sessMod id f).tx = c.tx := by
  obtain ⟨sess, h⟩ := c.sessMod_eq id f
  rw [h]

theorem says_keyUpdate : Says.keyUpdate := by
  refine ⟨fun s m => exists_only_of_touch (execKeyUpdate_touch m s) (by decide +kernel) (by decide +kernel),
    fun s m ha hcode hgood hbad hconn => State.exists_of_refused rfl ha (by simp [hcode]) hgood hbad hconn, ?_⟩
  intro s m ha hcode hgood hbad hconn hop hop3
  refine State.exists_of_served rfl ha (by simp [hcode]) hgood hbad ?_
  extract_lets op c1
  have hc1 : c1.tx = s.chip.tx := by
    unfold c1
    split
    · exact (Chip.tx_sessMod ..).trans (Chip.tx_served ..)
    · exact Chip.tx_served ..
  rw [if_neg (by simp only [Bool.or_eq_true, decide_eq_true_eq]; omega)]
  exact Chip.tx_spdmOut_of_eq hconn hc1 _

/-! Requests that need the chain of slot 0 (R322). -/

theorem Chip.chain_of_some {c : Chip} {k : Nat} {l : List (List Byte)} (h : c.chainCerts k = some l) : c.chain k = (c, some l) := by
  rw [Chip.chain, h]

theorem Chip.chain_of_none {c : Chip} {k : Nat} (h : c.chainCerts k = none) : (c.chain k).2 = none := by
  rw [Chip.chain, h]
  dsimp only
  split <;> rfl

theorem Chip.withChain_of_some {c : Chip} {m : SpdmMsg} {l : List (List Byte)} (h : c.chainCerts 4 = some l) (f : Chip → List Byte → Chip) :
    c.withChain m f = f c (spdmChain l) := by
  rw [Chip.withChain, Chip.chain_of_some h]

theorem Chip.withChain_of_none {c : Chip} {m : SpdmMsg} (h : c.chainCerts 4 = none) (f : Chip → List Byte → Chip) :
    c.withChain m f = (c.chain 4).1.spdmErr m 0x05 := by
  rw [Chip.withChain, Chip.chain_of_none h]

theorem Chip.chainCerts_served (c : Chip) (m : SpdmMsg) (keep l1 : Bool) (k : Nat) : (c.served m keep l1).chainCerts k = c.chainCerts k :=
  Chip.served_keeps (g := fun c => c.chainCerts k) (fun _ _ _ _ => rfl) ..

/-- A chain that cannot be read is answered with ERROR 0x05. -/
theorem Chip.tx_withChain_of_none {c : Chip} {m : SpdmMsg} {keep l1 : Bool} (hconn : m.conn / 256 ≠ 1) (h : c.chainCerts 4 = none)
    (f : Chip → List Byte → Chip) : ((c.served m keep l1).withChain m f).tx = c.tx ++ [.spdm m.conn m.sess (spdmErrMsg 0x05 0)] := by
  rw [Chip.withChain_of_none ((c.chainCerts_served ..).trans h)]
  exact Chip.tx_spdmErr_of_eq hconn (((Chip.chain_touch ..).same .tx rfl).trans (Chip.tx_served ..)) _

theorem says_getDigests : Says.getDigests := by
  refine ⟨fun s m => exists_only_of_touch (execGetDigests_touch m s) (by decide +kernel) (by decide +kernel),
    fun s m ha hcode hgood hbad hconn => State.exists_of_refused rfl ha (by simp [hcode]) hgood hbad hconn, ?_⟩
  intro s m ha hcode hgood hbad hconn
  refine State.exists_of_served rfl ha (by simp [hcode]) hgood hbad ?_
  split
  · next l hl =>
    rw [Chip.withChain_of_some ((Chip.chainCerts_served ..).trans hl)]
    exact Chip.tx_spdmOut_of_eq hconn (Chip.tx_connMod_served ..) _
  · next hl => exact Chip.tx_withChain_of_none hconn hl _

theorem says_getCertificate : Says.getCertificate := by
  refine ⟨fun s m => exists_only_of_touch (execGetCertificate_touch m s) (by decide +kernel) (by decide +kernel),
    fun s m ha hcode hgood hbad hconn => State.exists_of_refused rfl ha (by simp [hcode]) hgood hbad hconn, ?_⟩
  intro s m ha hcode hgood hbad hconn hlen hslot
  refine State.exists_of_served rfl ha (by simp [hcode]) hgood hbad ?_
  rw [if_neg (by simp [hslot, hlen])]
  split
  · next l hl =>
    rw [Chip.withChain_of_some ((Chip.chainCerts_served ..).trans hl)]
    dsimp only
    split
    · next hoff =>
      rw [Chip.tx_spdmErr_of_eq hconn (Chip.tx_served s.chip m false false)]
      exact ⟨List.length_append, fun h => absurd hoff h.not_ge⟩
    · rw [Chip.tx_spdmOut_of_eq hconn (Chip.tx_connMod_served s.chip m false false _ _)]
      exact ⟨List.length_append, fun _ => rfl⟩
  · next hl => exact Chip.tx_withChain_of_none hconn hl _

/-! Requests that ask for a signature (R347). -/

/-- The room of the signature queue is read off the hanks, the queue, the chains and the lanes. -/
theorem Chip.sigRoom_congr {c d : Chip} (hhanks : d.hanks = c.hanks) (hqueue : d.spdm.queue = c.spdm.queue) (htwist : d.twist = c.twist)
    (hlanes : d.laneFree 1 = c.laneFree 1) (h : Nat) : d.sigRoom h = c.sigRoom h := by
  have hquiet : d.quietHanks = c.quietHanks := by rw [Chip.quietHanks, hhanks, Chip.quietHanks]
  have hused : d.sigUsed = c.sigUsed := by
    funext g
    rw [Chip.sigUsed, Chip.tw, hqueue, htwist]
    rfl
  rw [Chip.sigRoom, hquiet, hused, hlanes]
  rfl

theorem Chip.sigRoom_served (c : Chip) (m : SpdmMsg) (keep l1 : Bool) (h : Nat) : (c.served m keep l1).sigRoom h = c.sigRoom h :=
  Chip.served_keeps (g := fun c => c.sigRoom h) (fun _ _ _ _ => rfl) ..

theorem Chip.queue_served (c : Chip) (m : SpdmMsg) (keep l1 : Bool) : (c.served m keep l1).spdm.queue = c.spdm.queue :=
  Chip.served_keeps (g := fun c => c.spdm.queue) (fun _ _ _ _ => rfl) ..

theorem Chip.sigRoom_rnd (c : Chip) (n h : Nat) : (c.rnd n).2.sigRoom h = c.sigRoom h := by
  have ht := c.rnd_touch n
  refine Chip.sigRoom_congr (ht.same .hanks rfl) (congrArg Spdm.queue (ht.same .spdm rfl)) (ht.same .twist rfl) ?_ h
  have hlane : (c.rnd n).2.get (laneField 1) = c.get (laneField 1) := ht.geti_eq (by decide +kernel)
  simp only [Chip.laneFree, Chip.laneSt, hlane]

theorem Chip.queue_rnd (c : Chip) (n : Nat) : (c.rnd n).2.spdm.queue = c.spdm.queue := congrArg Spdm.queue ((c.rnd_touch n).same .spdm rfl)

/-- With room, a response that is to be signed joins the queue. -/
theorem Chip.queue_signLater {c : Chip} (h : c.sigRoom 255 = true) (m : SpdmMsg) (kind : Nat) (body transcript : List Byte) :
    (c.signLater m kind body transcript).spdm.queue.length = c.spdm.queue.length + 1 := by
  rw [Chip.signLater, if_pos h]
  exact List.length_append

theorem says_challenge : Says.challenge := by
  refine ⟨fun s m => exists_only_of_touch (execChallenge_touch m s) (by decide +kernel) (by decide +kernel),
    fun s m ha hcode hgood hbad hconn => State.exists_of_refused rfl ha (by simp [hcode]) hgood hbad hconn, ?_⟩
  intro s m ha hcode hgood hbad hconn hlen hslot htype hroom
  refine State.exists_of_served rfl ha (by simp [hcode]) hgood hbad ?_
  rw [if_neg (by simp [hslot, hlen, htype])]
  split
  · next l hl =>
    rw [Chip.withChain_of_some ((Chip.chainCerts_served ..).trans hl)]
    extract_lets d body u c1
    have hroom : d.2.sigRoom 255 = true := (Chip.sigRoom_rnd ..).trans ((Chip.sigRoom_served ..).trans hroom)
    have hqueue : d.2.spdm.queue = s.chip.spdm.queue := (Chip.queue_rnd ..).trans (Chip.queue_served ..)
    have hsigned : c1.spdm.queue.length = d.2.spdm.queue.length + 1 := Chip.queue_signLater hroom m 1 body _
    exact hsigned.trans (congrArg (List.length · + 1) hqueue)
  · next hl => exact Chip.tx_withChain_of_none hconn hl _

theorem says_getMeasurements : Says.getMeasurements := by
  refine ⟨fun s m => exists_only_of_touch (execGetMeasurements_touch m s) (by decide +kernel) (by decide +kernel),
    fun s m ha hcode hgood hbad hconn => State.exists_of_refused rfl ha (by simp [hcode]) hgood hbad hconn, ?_⟩
  intro s m ha hcode hgood hbad hconn hunsigned hop hlen
  refine State.exists_of_served rfl ha (by simp [hcode]) hgood hbad ?_
  extract_lets signed op blocks at_ rec_ d body q l
  have hsigned : signed = false := by simp [signed, hunsigned, bit]
  have hop : op = 0 := hop
  have hat : at_ = 4 := by simp [at_, hsigned]
  rw [if_neg (by simp [hsigned, hop, hat]; omega), if_neg (by simp [hsigned])]
  have hd : d.2.spdm = (s.chip.served m false true).spdm := (Chip.rnd_touch ..).same .spdm rfl
  have htx : d.2.tx = s.chip.tx := ((Chip.rnd_touch ..).same .tx rfl).trans (Chip.tx_served ..)
  refine ⟨?_, ?_, ?_⟩
  · exact (congrArg List.length (Chip.tx_spdmOut_of_eq hconn (d := d.2.connMod _ _) htx body)).trans List.length_append
  · rw [Chip.spdm_spdmOut]
    exact (congrArg Spdm.queue hd).trans (Chip.queue_served ..)
  · have hconn' : (d.2.conn m.conn).l1 = (s.chip.conn m.conn).l1 :=
      (congrArg (fun u : Spdm => (tget u.conns m.conn {}).l1) hd).trans (congrArg Conn.l1 (s.chip.conn_served m false true) :)
    rw [Chip.conn_spdmOut, Chip.conn_connMod_same, tget_tput, if_pos rfl]
    simp only [l, hconn']
    exact List.take_append_of_le_length (by simp)

/-! Sessions. -/

/-- What R336 and R338 say of the session of a request that nothing refuses: it is known, it is missing where the request comes outside a session
alone, and it is there where the request comes inside one. -/
theorem Chip.sess_of_spdmBad {c : Chip} {m : SpdmMsg} (hbad : c.spdmBad m = none) :
    (∀ id, m.sess = some id → (c.sess? id).isSome = true) ∧ (outsideOnly.contains (numAt m.msg 1 1) = true → m.sess = none) ∧
      (insideOnly.contains (numAt m.msg 1 1) = true → m.sess.isSome = true) := by
  simp only [Chip.spdmBad, ite_eq_iff, reduceCtorEq, and_false, false_or] at hbad
  obtain ⟨hknown, -, -, -, hplace, -⟩ := hbad
  refine ⟨fun id hid => ?_, fun hout => ?_, fun hin => ?_⟩
  · by_contra hnone
    have hnone : c.sess? id = none := by simpa using hnone
    simp [hid, hnone] at hknown
  · by_contra hsome
    exact hplace (by rw [hout, Option.isSome_iff_ne_none.mpr hsome]; rfl)
  · by_contra hnone
    exact hplace (by rw [hin, Option.not_isSome_iff_eq_none.mp hnone, Bool.or_comm]; rfl)

theorem Chip.hybridOf_of_none (c : Chip) {m : SpdmMsg} (h : numAt m.msg 136 2 = 0) : c.hybridOf m = none := by
  simp [Chip.hybridOf, h]

theorem Chip.ownSess_served {c : Chip} {m : SpdmMsg} (h : m.sess = none) (keep l1 : Bool) : (c.served m keep l1).ownSess = c.ownSess := by
  have hserved : (c.served m keep l1).spdm.sess = c.spdm.sess := by
    unfold Chip.served
    rw [h]
    dsimp only
    split <;> split <;> exact (congrArg Spdm.sess (c.spdm_count 38 1) :)
  rw [Chip.ownSess, hserved, Chip.ownSess]

theorem says_keyExchange : Says.keyExchange := by
  refine ⟨fun s m => exists_only_of_touch (execKeyExchange_touch m s) (by decide +kernel) (by decide +kernel),
    fun s m ha hcode hgood hbad hconn => State.exists_of_refused rfl ha (by simp [hcode]) hgood hbad hconn, ?_⟩
  intro s m ha hcode hgood hbad hconn hlen hopq hslot htype hsess hroom
  have hout : m.sess = none := (Chip.sess_of_spdmBad hbad).2.1 (by rw [hcode]; rfl)
  refine State.exists_of_served rfl ha (by simp [hcode]) hgood hbad ?_
  rw [Chip.hybridOf_of_none _ hopq]
  have hform : ∀ b, (m.msg.length < 138 || m.msg.length < 138 + numAt m.msg 136 2 || numAt m.msg 3 1 % 16 != 0 || !summaryOk (numAt m.msg 2 1) ||
      (none : Option (Option (List Byte × List Byte × List Byte))) = some none || b) = b := by
    intro b
    simp [hopq, hslot, htype, hlen]
  simp only [hform]
  refine ⟨fun hpoint => ?_, fun hpoint => ?_⟩
  · rw [if_pos (by simp [hpoint])]
    exact Chip.tx_spdmErr_of_eq hconn (Chip.tx_served ..) _
  · rw [if_neg (by simp [hpoint]), if_neg (by rw [Chip.ownSess_served hout]; exact hsess.not_ge), if_neg (by rw [Chip.sigRoom_served, hroom]; decide)]
    split
    · next l hl =>
      rw [Chip.withChain_of_some ((Chip.chainCerts_served ..).trans hl)]
      have hqueue : (((s.chip.served m false false).rnd 48).2.rnd 32).2.spdm.queue = s.chip.spdm.queue :=
        (Chip.queue_rnd ..).trans ((Chip.queue_rnd ..).trans (Chip.queue_served ..))
      exact ⟨Chip.served_keeps (g := fun c => c.spdm.lastSess % 32767 + 1) (fun _ _ _ _ => rfl) ..,
        List.length_append.trans (congrArg (List.length · + 1) hqueue)⟩
    · next hl => exact Chip.tx_withChain_of_none hconn hl _

theorem Chip.sess?_sessEnd (c : Chip) (id code : Nat) : (c.sessEnd id code).sess? id = none := by
  unfold Chip.sessEnd
  split
  · assumption
  · extract_lets c1 c2
    have h : ((c2.log code uSPN (aObj 0 0 0 0 id [])).hostEnd id).spdm = c1.spdm :=
      ((Chip.hostEnd_touch ..).same .spdm rfl).trans ((Chip.log_touch ..).same .spdm rfl)
    rw [Chip.sess?, h]
    exact (tget?_tdel ..).trans (if_pos rfl)

theorem says_finish : Says.finish := by
  refine ⟨fun s m => exists_only_of_touch (execFinish_touch m s) (by decide +kernel) (by decide +kernel),
    fun s m ha hcode hgood hbad hconn => State.exists_of_refused rfl ha (by simp [hcode]) hgood hbad hconn, ?_⟩
  intro s m ha hcode hgood hbad hconn hlen hopq
  refine State.exists_of_served rfl ha (by simp [hcode]) hgood hbad ?_
  split
  · next q hq =>
    obtain ⟨id, hid, hq⟩ := Option.bind_eq_some_iff.mp hq
    have hserved : (s.chip.served m false false).sess? id = some { q with last := s.chip.slot } := by
      rw [Chip.sess?_served, hq, hid, Option.map_some, if_pos rfl]
    have hform : ¬ (m.msg.length != 52 || bit (numAt m.msg 2 1) 0) = true := by simp [hlen, hopq]
    by_cases hmac : slice m.msg 4 48 = padTo 48 (Config.spdmMac q.shared (q.th ++ m.msg.take 4) 0)
    · have hmac' : ¬ (slice m.msg 4 48 != padTo 48 (Config.spdmMac q.shared (q.th ++ m.msg.take 4) 0)) = true := by simpa using hmac
      simp only [hid, hserved, Option.bind_some, if_neg hform, if_neg hmac', if_pos hmac]
      have hspdm : ∀ (d : Chip) i e, ((d.log 0x0C01 uSPN (aObj 0 0 0 0 id [])).mirrorThen i e).sess? id = d.sess? id := fun d i e =>
        congrArg (fun u : Spdm => tget? u.sess id) (((Chip.mirrorThen_touch ..).same .spdm rfl).trans ((Chip.log_touch ..).same .spdm rfl))
      rw [hspdm, Chip.sess?_sessMod, if_pos rfl, hserved]
      rfl
    · have hmac' : (slice m.msg 4 48 != padTo 48 (Config.spdmMac q.shared (q.th ++ m.msg.take 4) 0)) = true := by simpa using hmac
      simp only [hid, hserved, Option.bind_some, if_neg hform, if_pos hmac', if_neg hmac]
      exact (congrArg (fun u : Spdm => tget? u.sess id) (Chip.spdm_spdmOut ..)).trans (Chip.sess?_sessEnd ..)
  · trivial

theorem says_endSession : Says.endSession := by
  refine ⟨fun s m => exists_only_of_touch (execEndSession_touch m s) (by decide +kernel) (by decide +kernel),
    fun s m ha hcode hgood hbad hconn => State.exists_of_refused rfl ha (by simp [hcode]) hgood hbad hconn, ?_⟩
  intro s m ha hcode hgood hbad hconn
  obtain ⟨id, hid⟩ := Option.isSome_iff_exists.mp ((Chip.sess_of_spdmBad hbad).2.2 (by rw [hcode]; rfl))
  refine State.exists_of_served rfl ha (by simp [hcode]) hgood hbad ?_
  simp only [hid, Option.bind_some, Option.isSome_some, and_true]
  exact (congrArg (fun u : Spdm => tget? u.sess id) (Chip.spdm_spdmOut ..)).trans (Chip.sess?_sessEnd ..)

theorem says_sessionExpire : Says.sessionExpire := by
  refine ⟨fun s id => exists_only_of_touch (execSessionExpire_touch id s) (by decide +kernel) (by decide +kernel), ?_, ?_⟩
  · intro s id hfresh
    refine ⟨_, rfl, ?_⟩
    dsimp only
    split
    · next q hq =>
      rw [hq, Option.all_some, decide_eq_true_eq] at hfresh
      refine if_neg fun h => ?_
      simp only [Bool.and_eq_true, decide_eq_true_eq] at h
      exact hfresh.not_ge h.2
    · rfl
  · intro s id hup hdue
    obtain ⟨q, hq, hdue⟩ := (Option.any_eq_true _ _).mp hdue
    refine ⟨_, rfl, ?_⟩
    dsimp only
    split
    · next q' hq' =>
      obtain rfl : q = q' := Option.some.inj (hq.symm.trans hq')
      rw [if_pos (by rw [hup, Bool.true_and, hdue])]
      exact Chip.sess?_sessEnd ..
    · next hnone => exact hnone

theorem says_orphanSessionExpire : Says.orphanSessionExpire := by
  refine ⟨fun s id => exists_only_of_touch (execOrphanSessionExpire_touch id s) (by decide +kernel) (by decide +kernel), ?_, ?_⟩
  · intro s id hown
    refine ⟨_, rfl, ?_⟩
    dsimp only
    split
    · next q hq =>
      rw [hq, Option.all_some, Option.isNone_iff_eq_none] at hown
      rw [hown]
    · rfl
  · intro s id hup hdue
    obtain ⟨q, hq, hdue⟩ := (Option.any_eq_true _ _).mp hdue
    obtain ⟨t, ht, hdue⟩ := (Option.any_eq_true _ _).mp hdue
    refine ⟨_, rfl, ?_⟩
    dsimp only
    split
    · next q' hq' =>
      obtain rfl : q = q' := Option.some.inj (hq.symm.trans hq')
      rw [ht]
      dsimp only
      rw [if_pos (by rw [hup, Bool.true_and, hdue])]
      exact Chip.sess?_sessEnd ..
    · next hnone => exact hnone

/-- Settles O55, instruction by instruction. -/
theorem spdmRequests : Obligations.SpdmRequests :=
  ⟨says_getVersion, says_getCapabilities, says_negotiateAlgorithms, says_getDigests, says_getCertificate, says_challenge, says_getMeasurements,
    says_keyExchange, says_finish, says_heartbeat, says_keyUpdate, says_endSession, says_sessionExpire, says_orphanSessionExpire⟩

end Sys2Proof.Machine

/-!
SUPPORT. The statement on the vendor-defined requests (spec section 12, Table 12.8).
-/

namespace Sys2Proof.Machine

set_option Elab.async false

section
variable {s : State} {o : Host.Outcome State Fault Refusal} {m : SpdmMsg} {mine : Nat → Bool} {keep : Bool} {f : Chip → List Byte → Chip}

/-- A command that serves a vendor-defined request does, where nothing refuses it, what the request's opcode does with its body. -/
theorem State.exists_of_vendor {P : Chip → Prop} (ho : o = .next (s.settled (s.chip.vendor m mine keep f))) (ha : s.chip.answers = true)
    (hcode : numAt m.msg 1 1 = 0xFE) (hgood : m.good = true) (hbad : s.chip.spdmBad m = none) (hok : vendorOk m.msg = true)
    (hres : numAt m.msg 15 2 = 0) (hmine : mine (vendorOp m.msg) = true) (hP : P (f (s.chip.served m keep false) (vendorBody m.msg))) :
    ∃ c : Chip, o = .next (s.settled c) ∧ P c := by
  rw [Chip.vendor, if_pos hok, hmine, Bool.not_true, if_neg Bool.false_ne_true] at ho
  refine State.exists_of_served ho ha (by simp [hcode]) hgood hbad ?_
  rw [if_neg (by simp [hok]), if_neg (by simp [hres])]
  exact hP

end

/-- A vendor-defined response of a chip that has sent nothing since. -/
theorem Chip.tx_vout_of_eq {m : SpdmMsg} (h : m.conn / 256 ≠ 1) {c d : Chip} (hd : d.tx = c.tx) (op : Nat) (st : Status) (body : List Byte) :
    (d.vout m op st body).tx = c.tx ++ [.spdm m.conn m.sess (vendorMsg op st body)] :=
  Chip.tx_spdmOut_of_eq h hd _

theorem Chip.tx_vout_served {m : SpdmMsg} (h : m.conn / 256 ≠ 1) (c : Chip) (keep l1 : Bool) (op : Nat) (st : Status) (body : List Byte) :
    ((c.served m keep l1).vout m op st body).tx = c.tx ++ [.spdm m.conn m.sess (vendorMsg op st body)] :=
  Chip.tx_vout_of_eq h (c.tx_served m keep l1) op st body

theorem says_getChain : Says.getChain := by
  refine ⟨fun s m => exists_only_of_touch (execGetChain_touch m s) (by decide +kernel) (by decide +kernel), ?_, ?_⟩
  · intro s m ha hcode hgood hbad hconn hok hres hop hlen
    refine State.exists_of_vendor rfl ha hcode hgood hbad hok hres (by simp [hop]) ?_
    rw [hop, if_pos (by simp [hlen])]
    exact Chip.tx_vout_served hconn ..
  · intro s m ha hcode hgood hbad hconn hok hres hop hlen hkind hoff
    refine State.exists_of_vendor rfl ha hcode hgood hbad hok hres (by simp [hop]) ?_
    have hclamp : (s.chip.served m false false).boot.clamp = s.chip.boot.clamp :=
      Chip.served_keeps (g := fun c => c.boot.clamp) (fun _ _ _ _ => rfl) ..
    rw [if_neg (by simp [hop, hlen, hkind])]
    simp only [hkind, if_true, hclamp, List.flatten_cons, List.flatten_nil, List.append_nil, if_neg hoff.not_gt]
    exact Chip.tx_vout_served hconn ..

theorem says_hybridSig : Says.hybridSig := by
  refine ⟨fun s m => exists_only_of_touch (execHybridSig_touch m s) (by decide +kernel) (by decide +kernel), ?_, ?_⟩
  · intro s m ha hcode hgood hbad hconn hok hres hop hlen
    refine State.exists_of_vendor rfl ha hcode hgood hbad hok hres (by simp [hop]) ?_
    simp only [bne_iff_ne.mpr hlen, if_true]
    exact Chip.tx_vout_of_eq hconn (Chip.tx_connMod_served ..) ..
  · intro s m ha hcode hgood hbad hconn hok hres hop hlen hkind hlast hroom
    obtain ⟨l, hl, hlk⟩ := (Option.any_eq_true _ _).mp hlast
    have hlk : l.1 = numAt (vendorBody m.msg) 0 1 := by simpa using hlk
    refine State.exists_of_vendor rfl ha hcode hgood hbad hok hres (by simp [hop]) ?_
    have hlast : ((s.chip.served m true false).conn m.conn).last = some l := (congrArg Conn.last (s.chip.conn_served m true false)).trans hl
    have hroom : ∀ g, ((s.chip.served m true false).connMod m.conn g).sigRoom 255 = true := fun g =>
      (Chip.sigRoom_congr rfl rfl rfl rfl 255).trans ((Chip.sigRoom_served ..).trans hroom)
    have hslot : (s.chip.served m true false).slot = s.chip.slot := Chip.served_keeps (g := Chip.slot) (fun _ _ _ _ => rfl) ..
    simp only [hlen, hkind, hlast, hlk, hl, if_true, if_false, bne_self_eq_false, Bool.false_eq_true, hroom, Option.all_some, decide_eq_true_eq]
    exact congrArg₂ (fun q t => q ++ [(t, 255, SignWork.hybrid m.conn m.sess l.2)]) (Chip.queue_served ..) hslot

theorem says_kemOffer : Says.kemOffer := by
  refine ⟨fun s m => exists_only_of_touch (execKemOffer_touch m s) (by decide +kernel) (by decide +kernel), ?_, ?_⟩
  · intro s m ha hcode hgood hbad hconn hok hres hop hlen
    refine State.exists_of_vendor rfl ha hcode hgood hbad hok hres (by simp [hop]) ?_
    rw [if_pos (by simp [hlen])]
    exact Chip.tx_vout_served hconn ..
  · intro s m ha hcode hgood hbad hconn hok hres hop hlen
    refine State.exists_of_vendor rfl ha hcode hgood hbad hok hres (by simp [hop]) ?_
    rw [if_neg (by simp [hlen])]
    extract_lets r k id c1 fresh c2
    have hr := (s.chip.served m false false).rnd_touch 32
    have hkem : r.2.spdm.lastKem = s.chip.spdm.lastKem :=
      (congrArg Spdm.lastKem (hr.same .spdm rfl)).trans (Chip.served_keeps (g := fun c => c.spdm.lastKem) (fun _ _ _ _ => rfl) ..)
    have htx : r.2.tx = s.chip.tx := (hr.same .tx rfl).trans (Chip.tx_served ..)
    clear hr
    clear_value r
    refine ⟨?_, ?_⟩
    · rw [Chip.vout, Chip.spdm_spdmOut, ← hkem]
      rfl
    · exact (congrArg List.length (Chip.tx_vout_of_eq hconn (d := c2) htx ..)).trans List.length_append

theorem says_getReport : Says.getReport := by
  refine ⟨fun s m => exists_only_of_touch (execGetReport_touch m s) (by decide +kernel) (by decide +kernel), ?_, ?_⟩
  · intro s m ha hcode hgood hbad hconn hok hres hop hlen
    refine State.exists_of_vendor rfl ha hcode hgood hbad hok hres (by simp [hop]) ?_
    rw [if_pos (by simp [hlen])]
    exact Chip.tx_vout_served hconn ..
  · intro s m ha hcode hgood hbad hconn hok hres hop hlen hscope hid hsnap hroom
    obtain ⟨p, hp⟩ := Option.isSome_iff_exists.mp hsnap
    have hp : (s.chip.served m false false).spdm.snap = some p :=
      (Chip.served_keeps (g := fun c => c.spdm.snap) (fun _ _ _ _ => rfl) ..).trans hp
    refine State.exists_of_vendor rfl ha hcode hgood hbad hok hres (by simp [hop]) ?_
    rw [if_neg (by simp [hlen, hscope])]
    simp only [hid, hp, hscope, Chip.sigRoom_served, hroom, if_true, Bool.not_true, Bool.false_eq_true, if_false]
    refine ⟨List.length_append.trans (congrArg (List.length · + 1) (Chip.queue_served ..)), Chip.tx_served ..⟩

theorem says_getLeakage : Says.getLeakage := by
  refine ⟨fun s m => exists_only_of_touch (execGetLeakage_touch m s) (by decide +kernel) (by decide +kernel), ?_⟩
  intro s m ha hcode hgood hbad hconn hok hres hop hempty
  refine State.exists_of_vendor rfl ha hcode hgood hbad hok hres (by simp [hop]) ?_
  rw [if_pos hempty]
  exact Chip.tx_vout_served hconn ..

/-! Answers that concern a hank (R413). -/

/-- With no quiet hank an answer leaves at once. -/
theorem Chip.tx_quietOut {conn : Nat} (h : conn / 256 ≠ 1) {c d : Chip} (hquiet : d.quietHanks = []) (htx : d.tx = c.tx) (sess : Option Nat)
    (hank arrive period : Nat) (body : List Byte) : (d.quietOut conn sess hank arrive period body).tx = c.tx ++ [.spdm conn sess body] := by
  rw [Chip.quietOut, hquiet, if_neg (by simp), Chip.spdmSend_of_noMailbox h, ← htx]
  rfl

theorem Chip.quietHanks_served (c : Chip) (m : SpdmMsg) (keep l1 : Bool) : (c.served m keep l1).quietHanks = c.quietHanks :=
  Chip.served_keeps (g := fun c => c.quietHanks) (fun _ _ _ _ => rfl) ..

theorem Chip.hank?_served (c : Chip) (m : SpdmMsg) (keep l1 : Bool) (h : Nat) : (c.served m keep l1).hank? h = c.hank? h :=
  Chip.served_keeps (g := fun c => c.hank? h) (fun _ _ _ _ => rfl) ..

theorem says_getReceipt : Says.getReceipt := by
  refine ⟨fun s m => exists_only_of_touch (execGetReceipt_touch m s) (by decide +kernel) (by decide +kernel), ?_, ?_, ?_⟩
  · intro s m ha hcode hgood hbad hconn hok hres hop hlen
    refine State.exists_of_vendor rfl ha hcode hgood hbad hok hres (by simp [hop]) ?_
    rw [if_pos (by simp [hlen])]
    exact Chip.tx_vout_served hconn ..
  · intro s m ha hcode hgood hbad hconn hok hres hop hlen hnone hempty
    refine State.exists_of_vendor rfl ha hcode hgood hbad hok hres (by simp [hop]) ?_
    rw [if_neg (by simp [hlen])]
    have hnone : ((s.chip.served m false false).hank? (numAt (vendorBody m.msg) 0 1)).isNone = true := by rw [Chip.hank?_served, hnone]; rfl
    have hquiet : s.chip.quietHanks = [] := by rw [Chip.quietHanks, hempty]; rfl
    simp only [Chip.receipt, hnone, if_true]
    exact Chip.tx_quietOut hconn ((Chip.quietHanks_served ..).trans hquiet) (Chip.tx_served ..) ..
  · intro s m ha hcode hgood hbad hconn hok hres hop hlen hhank hquiet
    refine State.exists_of_vendor rfl ha hcode hgood hbad hok hres (by simp [hop]) ?_
    rw [if_neg (by simp [hlen])]
    extract_lets h r
    have ht := (s.chip.served m false false).receipt_touch h (numAt (vendorBody m.msg) 1 8)
    have hquiet : r.1.quietHanks = [] := by
      rw [Chip.quietHanks, show r.1.hanks = (s.chip.served m false false).hanks from ht.same .hanks rfl]
      exact (Chip.quietHanks_served ..).trans hquiet
    exact (congrArg List.length (Chip.tx_quietOut hconn hquiet ((ht.same .tx rfl).trans (Chip.tx_served ..)) ..)).trans List.length_append

theorem says_getTwistHead : Says.getTwistHead := by
  refine ⟨fun s m => exists_only_of_touch (execGetTwistHead_touch m s) (by decide +kernel) (by decide +kernel), ?_, ?_⟩
  · intro s m ha hcode hgood hbad hconn hok hres hop hlen
    refine State.exists_of_vendor rfl ha hcode hgood hbad hok hres (by simp [hop]) ?_
    rw [if_pos (by simp [hlen])]
    exact Chip.tx_vout_served hconn ..
  · intro s m ha hcode hgood hbad hconn hok hres hop hlen hhank hquiet
    refine State.exists_of_vendor rfl ha hcode hgood hbad hok hres (by simp [hop]) ?_
    have hhank : ((s.chip.served m false false).hank? (numAt (vendorBody m.msg) 0 1)).isNone = false := by
      rw [Chip.hank?_served]; simpa using hhank
    rw [if_neg (by simp [hlen, hhank])]
    have hgeti : ∀ f i, (s.chip.served m false false).geti f i = s.chip.geti f i := fun f i =>
      Chip.served_keeps (g := fun c => c.geti f i) (fun _ _ _ _ => rfl) ..
    have htw : (s.chip.served m false false).tw (numAt (vendorBody m.msg) 0 1) = s.chip.tw (numAt (vendorBody m.msg) 0 1) :=
      Chip.served_keeps (g := fun c => c.tw (numAt (vendorBody m.msg) 0 1)) (fun _ _ _ _ => rfl) ..
    dsimp only
    rw [hgeti, hgeti, htw]
    exact Chip.tx_quietOut hconn ((Chip.quietHanks_served ..).trans hquiet) (Chip.tx_served ..) ..

/-! Requests that a session carries. -/

/-- The channels and Bobbins of the session `old` are moved to the session `new`, and `old` is gone (R340). -/
def Chip.rebound (c : Chip) (old new : Nat) : Chip :=
  (c.sp (fun u => { u with
    sess := tdel u.sess old, chan := u.chan.map (fun (e : Nat × Nat) => if e.2 = old then (e.1, new) else e) })).cu
    (fun u => { u with bobs := u.bobs.map (fun (e : Nat × Bob) => if e.2.session = old then (e.1, { e.2 with session := new }) else e) })

theorem Chip.tx_vout_rebound {m : SpdmMsg} (h : m.conn / 256 ≠ 1) (c : Chip) (old new op : Nat) (st : Status) (body : List Byte) :
    ((c.rebound old new).vout m op st body).tx = c.tx ++ [.spdm m.conn m.sess (vendorMsg op st body)] :=
  Chip.tx_vout_of_eq h (show (c.rebound old new).tx = c.tx from rfl) op st body

theorem Chip.sess?_vout_rebound (c : Chip) (m : SpdmMsg) (old new op : Nat) (st : Status) (body : List Byte) :
    ((c.rebound old new).vout m op st body).sess? old = none :=
  calc
    _ = tget? (c.rebound old new).spdm.sess old := congrArg (fun u : Spdm => tget? u.sess old) (Chip.spdm_spdmOut ..)
    _ = none := (tget?_tdel ..).trans (if_pos rfl)

theorem says_rebind : Says.rebind := by
  refine ⟨fun s m => exists_only_of_touch (execRebind_touch m s) (by decide +kernel) (by decide +kernel), ?_, ?_⟩
  · intro s m ha hcode hgood hbad hconn hok hres hop hnone
    refine State.exists_of_vendor rfl ha hcode hgood hbad hok hres (by simp [hop]) ?_
    simp only [hnone]
    exact hnone ▸ Chip.tx_vout_served hconn ..
  · intro s m ha hcode hgood hbad hconn hok hres hop hlen hsome horphan
    obtain ⟨new, hnew⟩ := Option.isSome_iff_exists.mp hsome
    obtain ⟨q, hq, horphan⟩ := (Option.any_eq_true _ _).mp horphan
    refine State.exists_of_vendor rfl ha hcode hgood hbad hok hres (by simp [hop]) ?_
    generalize numAt (vendorBody m.msg) 0 4 = old at hq ⊢
    obtain ⟨q', hq', horphan', hsecret⟩ : ∃ q', (s.chip.served m false false).sess? old = some q' ∧
        q'.orphan = q.orphan ∧ q'.secret = q.secret := by
      rw [Chip.sess?_served, hq, Option.map_some]
      split
      · exact ⟨_, rfl, rfl, rfl⟩
      · exact ⟨_, rfl, rfl, rfl⟩
    have hform : ¬ ((vendorBody m.msg).length != 36 || q'.orphan.isNone) = true := by
      rw [horphan', hlen]
      simpa using Option.isSome_iff_ne_none.mp horphan
    simp only [hnew, Option.all_some, hq]
    by_cases hmac : slice (vendorBody m.msg) 4 32 =
        Config.kmac256 q.secret (ascii "rebind" ++ le 4 old ++ le 4 new) (ascii "GGM-1 HOST") 32
    · simp only [hq', if_neg hform, hsecret, hmac, bne_self_eq_false, Bool.false_eq_true, if_false, Bool.false_or]
      rw [Bool.and_eq_true, decide_eq_true_eq, Option.isNone_iff_eq_none, ← hnew]
      exact ⟨(Chip.tx_vout_rebound hconn ..).trans (congrArg (· ++ _) (Chip.tx_served ..)), Chip.sess?_vout_rebound ..⟩
    · rw [bne_iff_ne.mpr hmac, Bool.true_or]

/-- A first portion that leaves its object short is kept (R384). -/
theorem Chip.portion_of_short {c : Chip} {b : List Byte} (hparts : c.hanks.parts = []) (hobj : numAt b 0 4 ≠ 0) (htyp : numAt b 4 1 = 1)
    (hzero : numAt b 5 3 = 0) (hmin : 64 ≤ numAt b 8 4) (hmax : numAt b 8 4 ≤ 196608) (hlen : 16 < b.length) (hlen' : b.length ≤ 14352)
    (hshort : numAt b 12 4 + b.length - 16 < numAt b 8 4) (session op : Nat) (genuine : Bool) :
    c.portion session op b genuine = (c.partsFresh.ha (fun u => { u with parts := [
      { session := session, object := numAt b 0 4, opcode := op, total := numAt b 8 4,
        parts := [(numAt b 12 4, b.drop 16)], last := c.slot }] }), .ok) := by
  have hfresh : c.partsFresh.hanks.parts = [] := by simp [Chip.partsFresh, Chip.ha, hparts]
  have hslot : c.partsFresh.slot = c.slot := rfl
  have hdata : (b.drop 16).length = b.length - 16 := List.length_drop
  have hhead : ¬ (b.length < 16 || numAt b 0 4 = 0 || numAt b 5 3 != 0) = true := by simp [hobj, hzero]; omega
  have htype : ¬ (numAt b 4 1 != 1 || numAt b 8 4 < 64 || decide (196608 < numAt b 8 4) || (b.drop 16).isEmpty ||
      decide (14336 < (b.drop 16).length) || decide (numAt b 8 4 < numAt b 12 4 + (b.drop 16).length)) = true := by
    simp only [Bool.or_eq_true, bne_iff_ne, decide_eq_true_eq, List.isEmpty_iff_length_eq_zero, hdata]
    omega
  unfold Chip.portion
  dsimp only
  generalize c.partsFresh = d at hfresh hslot
  rw [hfresh, hslot, if_neg hhead, if_neg (by omega), if_neg (by omega), if_neg htype, if_neg (by simp [partsMeet]), if_neg (by simp),
    if_pos (by simp; omega)]
  rfl

theorem says_ownerObjectPortion : Says.ownerObjectPortion := by
  refine ⟨fun s m genuine => exists_only_of_touch (execOwnerObjectPortion_touch m genuine s) (by decide +kernel) (by decide +kernel), ?_, ?_⟩
  · intro s m genuine ha hcode hgood hbad hconn hok hres hop hop' hnone
    refine State.exists_of_vendor rfl ha hcode hgood hbad hok hres (by simp [hop, hop']) ?_
    simp only [hnone]
    exact hnone ▸ Chip.tx_vout_served hconn ..
  · intro s m genuine ha hcode hgood hbad hconn hok hres hop hop' hhyb hparts hwait hobj htyp hzero hmin hmax hlen hlen' hshort
    obtain ⟨q, hq, hhyb⟩ := (Option.any_eq_true _ _).mp hhyb
    obtain ⟨id, hid, hq⟩ := Option.bind_eq_some_iff.mp hq
    refine State.exists_of_vendor rfl ha hcode hgood hbad hok hres (by simp [hop, hop']) ?_
    have hserved : (s.chip.served m false false).sess? id = some { q with last := s.chip.slot } := by
      rw [Chip.sess?_served, hq, hid, Option.map_some, if_pos rfl]
    have hparts : (s.chip.served m false false).hanks.parts = [] :=
      (Chip.served_keeps (g := fun c => c.hanks.parts) (fun _ _ _ _ => rfl) ..).trans hparts
    have htx := s.chip.tx_served m false false
    simp only [hid, hserved, hhyb, Bool.not_true, Bool.false_eq_true, if_false,
      Chip.portion_of_short hparts hobj htyp hzero hmin hmax hlen hlen' hshort]
    generalize s.chip.served m false false = c0 at htx ⊢
    rw [if_neg (by simp [Chip.ha, Chip.partsFresh])]
    refine ⟨?_, ?_⟩
    · rw [Chip.tx_spdmOut_of_eq hconn (c := s.chip) (by exact htx), hid]
    · rw [show ∀ d : Chip, (d.spdmOut m (vendorMsg (vendorOp m.msg) .ok [])).hanks = d.hanks from
        fun d => (Chip.spdmSend_touch ..).same .hanks rfl]
      simp [Chip.ha]

/-- Settles O56, instruction by instruction. -/
theorem vendorRequests : Obligations.VendorRequests :=
  ⟨says_getChain, says_hybridSig, says_kemOffer, says_getReport, says_getReceipt, says_getTwistHead, says_rebind, says_getLeakage,
    says_ownerObjectPortion⟩

end Sys2Proof.Machine

/-!
SUPPORT. What the end of a step can do to the trace sources (R495 to R498) while no trigger class is set: offer records that are neither of source 11
nor the record of a trigger. The statements on debug and on trace are refuted with it.
-/

namespace Sys2Proof.Machine

set_option Elab.async false

/-- The registers that decide what an event does to the trace sources: the state of source 13 and the trigger classes of sources 6 to 14. -/
def traceRegs : List Nat := R.DBG_TRt_STATUS 13 :: (List.range 9).map (fun k => R.DBG_TRt_CTRL (k + 6))

theorem traceRegs_bounds : ∀ off ∈ traceRegs, 0x10400 ≤ off ∧ off < 0x10800 := by decide +kernel

/-- The trace sources and the registers above are those of `c`. -/
def Chip.SameTrace (c d : Chip) : Prop := d.dbg.tr = c.dbg.tr ∧ ∀ off ∈ traceRegs, d.rd off = c.rd off

/-- A field of no trace source. -/
def Fld.untraced (f : Fld) : Bool := decide (f.off (f.count - 1) < 0x10400) || decide (0x10800 ≤ f.base)

section
variable {c d e : Chip}

theorem Chip.SameTrace.trans (h : c.SameTrace d) (k : d.SameTrace e) : c.SameTrace e :=
  ⟨k.1.trans h.1, fun off ho => (k.2 off ho).trans (h.2 off ho)⟩

theorem Chip.SameTrace.of_parts (ht : d.dbg.tr = c.dbg.tr) (hr : d.regs = c.regs) : c.SameTrace d :=
  ⟨ht, fun off _ => by rw [Chip.rd, hr]; rfl⟩

theorem Touch.sameTrace {pm bm : Nat} (h : Touch pm bm c d) (hp : pm.testBit Part.dbg.ix = false) (hb : traceRegs.all (spares bm) = true) :
    c.SameTrace d :=
  ⟨congrArg Dbg.tr (h.same .dbg hp), fun off ho => (h.2 off).resolve_left (not_covers_of_spares (List.all_eq_true.mp hb off ho))⟩

theorem Chip.sameTrace_wr (c : Chip) {off : Nat} (h : off < 0x10400 ∨ 0x10800 ≤ off) (w : Word) : c.SameTrace (c.wr off w) :=
  ⟨rfl, fun off' ho => c.rd_wr_other off off' w (by have := traceRegs_bounds off' ho; omega)⟩

theorem Chip.sameTrace_puti (c : Chip) {f : Fld} (hf : f.untraced = true) (i v : Nat) : c.SameTrace (c.puti f i v) := by
  unfold Chip.puti
  split
  case isFalse => exact ⟨rfl, fun _ _ => rfl⟩
  case isTrue hi =>
    refine c.sameTrace_wr ?_ _
    have hlast : f.stride * i ≤ f.stride * (f.count - 1) := Nat.mul_le_mul_left _ (by omega)
    obtain hf | hf := by simpa only [Fld.untraced, Bool.or_eq_true, decide_eq_true_eq] using hf
    · exact .inl (Nat.lt_of_le_of_lt (Nat.add_le_add_left hlast _) hf)
    · exact .inr (Nat.le_add_right_of_le hf)

/-! A record offered to a source. -/

theorem Chip.sameTrace_count (c : Chip) (i n : Nat) : c.SameTrace (c.count i n) := by
  unfold Chip.count
  split <;> exact .of_parts rfl rfl

theorem Chip.sameTrace_noil (c : Chip) (unit code : Nat) (args : List Byte) : c.SameTrace (c.noil unit code args) := by
  unfold Chip.noil
  split <;> exact .of_parts rfl rfl

theorem Chip.sameTrace_noilTrans (c : Chip) (unit chapter table inst old new : Nat) :
    c.SameTrace (c.noilTrans unit chapter table inst old new) := by
  unfold Chip.noilTrans
  split
  · exact .of_parts rfl rfl
  · exact c.sameTrace_noil ..

theorem Chip.sameTrace_sumBit (c : Chip) (cls : Nat) : c.SameTrace (c.sumBit cls) := by
  unfold Chip.sumBit
  split
  case h_5 => exact .of_parts rfl rfl
  all_goals exact c.sameTrace_puti (by decide) ..

theorem Chip.sameTrace_each {α : Type} {l : List α} {f : Chip → α → Chip} (hf : ∀ (d : Chip) i, d.SameTrace (f d i)) (c : Chip) :
    c.SameTrace (c.each l f) :=
  Chip.each_keeps_prop (fun d i h => Chip.SameTrace.trans h (hf d i)) (.of_parts rfl rfl)

theorem Chip.sameTrace_countEvent (c : Chip) (code : Nat) (args : List Byte) : c.SameTrace (c.countEvent code args) := by
  refine Chip.sameTrace_each (fun d i => ?_) c
  split
  · exact d.sameTrace_count ..
  · exact .of_parts rfl rfl

/-- A record that enters the logs reaches no trace source by that. -/
theorem Chip.sameTrace_logRec (c : Chip) (r : EvRec) : c.SameTrace (c.logRec r) := by
  unfold Chip.logRec
  extract_lets cls l l'
  have hlogs : c.SameTrace { c with logs := l' } := .of_parts rfl rfl
  exact ((hlogs.trans (Chip.sameTrace_sumBit ..)).trans (Chip.sameTrace_noil ..)).trans (Chip.sameTrace_countEvent ..)

end

/-- From `a`, where no trigger class is set, the trace sources changed at most by records offered to them, none to source 11 and none that tells
of a trigger (event 0x0023 of DBG). -/
inductive Chip.Traced (a : Chip) : Chip → Prop
  | refl : a.Untriggered → Traced a a
  | same {c d : Chip} : Traced a c → c.SameTrace d → Traced a d
  | offer {c : Chip} {t kind arg0 : Nat} {data : List Byte} : Traced a c → t ≠ 11 → (kind % 256 ≠ uDBG ∨ arg0 % 65536 ≠ 0x0023) →
      Traced a (c.traceOffer t kind arg0 data).1

theorem Chip.SameTrace.untriggered {c d : Chip} (h : c.SameTrace d) (hc : c.Untriggered) : d.Untriggered := by
  have hin : ∀ t ∈ (List.range 9).map (· + 6), F.DBG_TRt_CTRL_TRIG_CLASS.off t ∈ traceRegs := by decide +kernel
  intro t ht
  rw [Chip.geti, h.2 _ (hin t ht)]
  exact hc t ht

section
variable {a c d : Chip}

theorem Chip.Traced.untriggered (h : a.Traced c) : c.Untriggered := by
  induction h with
  | refl ha => exact ha
  | same _ hs ih => exact hs.untriggered ih
  | @offer c t kind arg0 data _ _ _ ih =>
    have hs : ∀ t ∈ (List.range 9).map (· + 6), spares 0x180000000000000000000000000000000000000000000000000000000000
        (F.DBG_TRt_CTRL_TRIG_CLASS.off t) = true := by decide +kernel
    exact fun t' ht => ((c.traceOffer_touch t kind arg0 data).geti_eq (hs t' ht)).trans (ih t' ht)

/-- Parts other than the trace sources and the registers. -/
theorem Chip.Traced.keep (h : a.Traced c) (ht : d.dbg.tr = c.dbg.tr) (hr : d.regs = c.regs) : a.Traced d := h.same (.of_parts ht hr)

theorem Chip.Traced.withRing (h : a.Traced c) (r : Ring) : a.Traced { c with ring := r } := h.keep rfl rfl

theorem Chip.Traced.withCores (h : a.Traced c) (k : Cores) : a.Traced { c with cores := k } := h.keep rfl rfl

theorem Chip.Traced.withWhl (h : a.Traced c) (w : Whl) : a.Traced { c with whl := w } := h.keep rfl rfl

theorem Chip.Traced.withCust (h : a.Traced c) (k : Cust) : a.Traced { c with cust := k } := h.keep rfl rfl

theorem Chip.Traced.withPly (h : a.Traced c) (p : Ply) : a.Traced { c with ply := p } := h.keep rfl rfl

theorem Chip.Traced.touch {pm bm : Nat} (h : a.Traced c) (ht : Touch pm bm c d) (hp : pm.testBit Part.dbg.ix = false := by rfl)
    (hb : traceRegs.all (spares bm) = true := by decide +kernel) : a.Traced d := h.same (ht.sameTrace hp hb)

theorem Chip.Traced.ite {p : Prop} [Decidable p] (h : a.Traced c) (k : a.Traced d) : a.Traced (if p then c else d) := by
  split <;> assumption

theorem Chip.Traced.each {α : Type} {l : List α} {f : Chip → α → Chip} (h : a.Traced c) (hf : ∀ d i, a.Traced d → a.Traced (f d i)) :
    a.Traced (c.each l f) := Chip.each_keeps_prop hf h

theorem Chip.Traced.puti (h : a.Traced c) (f : Fld) (i v : Nat) (hf : f.untraced = true := by decide) : a.Traced (c.puti f i v) :=
  h.same (c.sameTrace_puti hf i v)

theorem Chip.Traced.put (h : a.Traced c) (f : Fld) (v : Nat) (hf : f.untraced = true := by decide) : a.Traced (c.put f v) := h.puti f 0 v hf

theorem Chip.Traced.wr (h : a.Traced c) (off : Nat) (w : Word) (ho : off < 0x10400 ∨ 0x10800 ≤ off := by decide) : a.Traced (c.wr off w) :=
  h.same (c.sameTrace_wr ho w)

theorem Chip.Traced.put64 (h : a.Traced c) (off v : Nat) (ho : off + 4 < 0x10400 := by decide) : a.Traced (c.put64 off v) :=
  (h.wr off _ (by omega)).wr (off + 4) _ (by omega)

theorem Chip.Traced.count (h : a.Traced c) (i n : Nat) : a.Traced (c.count i n) := h.same (c.sameTrace_count i n)

theorem Chip.Traced.noilTrans (h : a.Traced c) (unit chapter table inst old new : Nat) : a.Traced (c.noilTrans unit chapter table inst old new) :=
  h.same (c.sameTrace_noilTrans ..)

theorem Chip.Traced.traceEvent (h : a.Traced c) (r : EvRec) (hr : r.unit % 256 ≠ uDBG ∨ r.code % 65536 ≠ 0x0023) :
    a.Traced ((c.logRec r).traceEvent r).1 :=
  (h.same (c.sameTrace_logRec r)).offer (by decide) (by rwa [Nat.mod_mod])

theorem Chip.Traced.logDrop (h : a.Traced c) (t : Nat) : a.Traced (c.logDrop t) := by
  unfold Chip.logDrop
  split
  · exact (h.touch (c.noteLog_touch ..)).traceEvent _ (.inr (show 0x1022 % 65536 ≠ 0x0023 by decide))
  · exact h

theorem Chip.Traced.trace (h : a.Traced c) (t kind arg0 : Nat) (data : List Byte) (ht : t ≠ 11 := by decide) (hk : kind % 256 ≠ uDBG := by decide) :
    a.Traced (c.trace t kind arg0 data) := by
  have ho : a.Traced (c.traceOffer t kind arg0 data).1 := h.offer ht (.inl hk)
  exact (ho.logDrop t).ite ho

/-- An event of another unit than DBG. -/
theorem Chip.Traced.log (h : a.Traced c) (code unit : Nat) (args : List Byte) (hu : unit % 256 ≠ uDBG := by decide) :
    a.Traced (c.log code unit args) := by
  unfold Chip.log
  extract_lets r p
  have hunit : r.unit % 256 = unit % 256 := Nat.mul_add_mod_self_right ..
  have hp : a.Traced p.1 := h.traceEvent r (.inl (hunit ▸ hu))
  have hd : a.Traced (if p.2 then p.1.logDrop 13 else p.1) := (hp.logDrop 13).ite hp
  rw [Chip.fireEvent_untriggered hd.untriggered]
  exact hd

theorem Chip.Traced.logLost (h : a.Traced c) : a.Traced c.logLost := by
  unfold Chip.logLost
  split
  · extract_lets r logs d
    have hd : a.Traced d := h.keep rfl rfl
    exact hd.traceEvent r (.inr (show 0x1031 % 65536 ≠ 0x0023 by decide))
  · exact h

end

end Sys2Proof.Machine

/-!
SUPPORT. What the end of a step does to the trace sources, act by act (log entry 76).
-/

namespace Sys2Proof.Machine

set_option Elab.async false

section
variable {a c d : Chip}

/-! Frames sent. -/

theorem Chip.Traced.plySend (h : a.Traced c) (typ : Nat) (payload : List Byte) (item : Option MItem) (part : Option ResPart) :
    a.Traced (c.plySend typ payload item part) := by
  unfold Chip.plySend
  split
  · exact h
  · extract_lets body f d
    have hd : a.Traced d := (h.touch (Chip.send_touch ..)).trace ..
    exact hd.withPly _

theorem Chip.Traced.mirrorItem (h : a.Traced c) (i : MItem) : a.Traced (c.mirrorItem i).1 := by
  unfold Chip.mirrorItem
  split
  · extract_lets n wait ply d
    have hd : a.Traced d := (h.withPly _).put64 ..
    exact (hd.plySend ..).count ..
  · exact h

theorem Chip.Traced.mirrorThen (h : a.Traced c) (i : MItem) (e : Eff) : a.Traced (c.mirrorThen i e) :=
  (h.mirrorItem i).touch (Chip.hold_touch ..)

theorem Chip.Traced.seqNext (h : a.Traced c) : a.Traced c.seqNext := by
  unfold Chip.seqNext
  split
  · exact h.withRing _
  · exact (h.withRing _).log ..

theorem Chip.Traced.ringOut (h : a.Traced c) (f : RingFrame) : a.Traced (c.ringOut f) := ((h.touch (Chip.send_touch ..)).count ..).trace ..

theorem Chip.Traced.ringBroadcast (h : a.Traced c) (typ : Nat) (payload : List Byte) : a.Traced (c.ringBroadcast typ payload) := by
  unfold Chip.ringBroadcast
  split
  · exact h
  · exact ((h.ringOut _).ringOut _).seqNext

theorem Chip.Traced.ringSend (h : a.Traced c) (typ dst : Nat) (payload : List Byte) : a.Traced (c.ringSend typ dst payload) := by
  simp only [Chip.ringSend]
  split
  · exact h
  · refine Chip.Traced.seqNext ?_
    split
    · exact h.ringOut _
    · exact (h.ringOut _).withRing _

theorem Chip.Traced.bridgeDie (h : a.Traced c) (n : Nat) (b : Bool) : a.Traced (c.bridgeDie n b) := by
  have hfield : (bridgeField (n / 32)).untraced = true := by
    unfold bridgeField
    split
    · decide
    · split <;> decide
  exact (h.put _ _ hfield).ringSend ..

theorem Chip.Traced.push (h : a.Traced c) (die id epoch : Nat) (st : Status) (flags sub limit : Nat) (key : Option (List Byte)) :
    a.Traced (c.push die id epoch st flags sub limit key) :=
  (h.touch (Chip.pushBody_touch ..)).ringSend ..

theorem Chip.Traced.pushStale (h : a.Traced c) (id epoch flags : Nat) (b : Bob) : a.Traced (c.pushStale id epoch flags b) :=
  h.each fun _ _ hd => hd.push ..

theorem Chip.Traced.warpPut (h : a.Traced c) (ch : Nat) (w : WarpWait) : a.Traced (c.warpPut ch w) := by
  unfold Chip.warpPut
  extract_lets q
  split
  · exact ((h.touch (Chip.cu_touch ..)).touch (Chip.send_touch ..)).count ..
  · exact h.touch (Chip.cu_touch ..)

theorem Chip.Traced.warpTo (h : a.Traced c) (ch : Nat) (f : WarpFrame) : a.Traced (c.warpTo ch f) := by
  unfold Chip.warpTo
  split
  · exact h.warpPut ..
  · split
    · exact (h.plySend ..).withPly _
    · exact (h.touch (Chip.cu_touch ..)).ite h

/-! Calls answered, in mailboxes and in tickets. -/

theorem Chip.Traced.mbPut (h : a.Traced c) (ns : Bool) (n : Nat) (f : Fld) (v : Nat)
    (hf : f.untraced = true ∧ (mbF true f).untraced = true := by decide) : a.Traced (c.mbPut ns n f v) := by
  cases ns with
  | false => exact h.puti f n v hf.1
  | true => exact h.puti (mbF true f) n v hf.2

theorem Chip.Traced.mbLast (h : a.Traced c) (ns : Bool) (n : Nat) (st : Status) : a.Traced (c.mbLast ns n st) := h.mbPut ..

theorem Chip.Traced.mbFree (h : a.Traced c) (ns : Bool) (n : Nat) : a.Traced (c.mbFree ns n) := by
  unfold Chip.mbFree
  extract_lets d cores d'
  have hd : a.Traced d := ((h.touch (Chip.mbClear_touch ..)).mbPut ..).mbPut ..
  have hd' : a.Traced d' := hd.withCores _
  exact (hd'.mbPut ..).ite ((hd'.mbPut ..).mbPut ..)

theorem Chip.Traced.mbReplied (h : a.Traced c) (ns : Bool) (n words : Nat) : a.Traced (c.mbReplied ns n words) := by
  unfold Chip.mbReplied
  extract_lets d k cores d'
  have hd : a.Traced d := (((h.mbPut ..).mbPut ..).mbPut ..).mbPut ..
  have hd' : a.Traced d' := hd.withCores _
  exact hd'.touch (Chip.mbRaiseEmpty_touch ..)

theorem Chip.Traced.answer (h : a.Traced c) (k : Call) (r : Answer) : a.Traced (c.answer k r) := by
  unfold Chip.answer
  extract_lets d d' cores out d'' ws d3
  have hd' : a.Traced d' := ((h.log ..).ite h).count ..
  have hd'' : a.Traced d'' := hd'.ite (hd'.touch (Chip.rovWr_touch ..))
  have hd3 : a.Traced d3 := hd''.each fun _ _ he => he.touch (Chip.mbWord_touch ..)
  exact Chip.Traced.ite ((hd'.withCores _).mbFree ..) ((hd3.mbLast ..).mbReplied ..)

theorem Chip.Traced.finishCall (h : a.Traced c) (ticket : Nat) (st : Status) (out : List Byte) : a.Traced (c.finishCall ticket st out) := by
  unfold Chip.finishCall
  split
  · exact h
  · extract_lets out d d' nt cores
    have hd : a.Traced d := h.ite (h.touch (Chip.rovWr_touch ..))
    have hd' : a.Traced d' := (hd.log ..).ite hd
    exact hd'.withCores _

theorem Chip.Traced.hostSend (h : a.Traced c) (n : Nat) (m : HostMsg) (body : List Byte) : a.Traced (c.hostSend n m body) := by
  unfold Chip.hostSend
  extract_lets part last pad d d' host cores
  have hd : a.Traced d := (h.touch (Chip.mbClear_touch ..)).touch (Chip.mbWord_touch ..)
  have hd' : a.Traced d' := hd.each fun _ _ he => he.touch (Chip.mbWord_touch ..)
  exact ((hd'.withCores _).mbLast ..).mbReplied ..

theorem Chip.Traced.hostReply (h : a.Traced c) (conn : Nat) (body : List Byte) : a.Traced (c.hostReply conn body) := by
  unfold Chip.hostReply
  split
  · exact h
  · split
    · exact (h.hostSend ..).ite h
    · exact h

theorem Chip.Traced.spdmSend (h : a.Traced c) (conn : Nat) (sess : Option Nat) (body : List Byte) : a.Traced (c.spdmSend conn sess body) :=
  (h.touch (Chip.send_touch ..)).hostReply ..

theorem Chip.Traced.hostAck (h : a.Traced c) (n proto seq flags : Nat) (st : Status) : a.Traced (c.hostAck n proto seq flags st) :=
  (((h.touch (Chip.mbClear_touch ..)).touch (Chip.mbWord_touch ..)).mbLast ..).mbReplied ..

theorem Chip.Traced.hostTake (h : a.Traced c) (n words : Nat) : a.Traced (c.hostTake n words) := by
  unfold Chip.hostTake
  extract_lets w proto seq flags old cores pad data r d
  have hd : a.Traced d := h.withCores _
  clear_value old
  split
  · exact h.withCores _
  · split
    · split
      · split
        · exact (h.hostSend ..).ite ((h.withCores _).hostAck ..)
        · exact h.ite ((h.withCores _).hostAck ..)
      · exact h.hostAck ..
    · exact ((h.withCores _).hostAck ..).ite (hd.ite (hd.hostAck ..))

theorem Chip.Traced.hostRetry (h : a.Traced c) : a.Traced c.hostRetry := by
  refine h.each fun e w he => ?_
  extract_lets cores d
  have hd : a.Traced d := he.withCores _
  exact ((hd.touch (Chip.mbRaiseFull_touch ..)).hostTake ..).ite hd

/-! Cards and their Bobbins. -/

theorem Chip.Traced.bobMod (h : a.Traced c) (id : Nat) (f : Bob → Bob) : a.Traced (c.bobMod id f) := by
  unfold Chip.bobMod
  split
  · exact h
  · exact (h.touch (Chip.cu_touch ..)).noilTrans ..

theorem Chip.Traced.cacheDrop (h : a.Traced c) (p : CEnt → Bool) : a.Traced (c.cacheDrop p) := by
  unfold Chip.cacheDrop Chip.cacheStat
  exact ((h.touch (Chip.cu_touch ..)).put ..).put ..

theorem Chip.Traced.unconfirmed (h : a.Traced c) (launch id epoch : Nat) : a.Traced (c.unconfirmed launch id epoch) :=
  ((h.bobMod id _).each fun _ _ he => (he.puti ..).ite he).log ..

theorem Chip.Traced.discard (h : a.Traced c) (id : Nat) (quiet : Bool) : a.Traced (c.discard id quiet) := by
  unfold Chip.discard
  split
  · exact h
  · split
    · exact h
    · extract_lets e d d' whl w d''
      have hd' : a.Traced d' := ((h.cacheDrop _).touch (Chip.cu_touch ..)).bobMod ..
      have hd'' : a.Traced d'' := by
        simp only [d'']
        split
        · split
          · exact hd'.unconfirmed ..
          · exact (hd'.withWhl _).warpTo ..
        · exact hd'
      split
      · exact hd''.pushStale ..
      · exact hd''

theorem Chip.Traced.targetDone (h : a.Traced c) (id : Nat) (t : Tgt) (st : Status) : a.Traced (c.targetDone id t st) := by
  unfold Chip.targetDone
  split
  · exact h
  · split
    · exact h
    · extract_lets d d'
      have hd' : a.Traced d' := (h.ite (h.log ..)).bobMod ..
      split
      · exact hd'
      · split
        · exact hd'
        · split
          · exact (hd'.bobMod ..).touch (Chip.cmdPart_touch ..)
          · exact (hd'.discard ..).touch (Chip.cmdPart_touch ..)

theorem Chip.Traced.dieLeft (h : a.Traced c) (n : Nat) : a.Traced (c.dieLeft n) := h.each fun _ _ hd => hd.targetDone ..

theorem Chip.Traced.setCarded (h : a.Traced c) (n : Nat) (b : Bool) : a.Traced (c.setCarded n b) := (h.put ..).ite (h.put ..)

theorem Chip.Traced.cardSet (h : a.Traced c) (n st : Nat) : a.Traced (c.cardSet n st) := (h.puti ..).noilTrans ..

theorem Chip.Traced.cardRoundEnd (h : a.Traced c) : a.Traced c.cardRoundEnd := by
  unfold Chip.cardRoundEnd
  extract_lets card d
  have hd : a.Traced d := h.ite (h.keep rfl rfl)
  split
  · exact hd.each fun e n he => (he.touch (Chip.cardMod_touch ..)).bridgeDie n true
  · exact hd

theorem Chip.Traced.cardRelease (h : a.Traced c) (n : Nat) : a.Traced (c.cardRelease n) := by
  unfold Chip.cardRelease
  split
  · exact h
  · extract_lets key d d' d''
    have hd : a.Traced d := (h.cardSet ..).ringSend ..
    have hd' : a.Traced d' := (hd.setCarded ..).touch (Chip.cu_touch ..)
    exact ((hd'.touch (Chip.cardMod_touch ..)).log ..).cardRoundEnd

/-! The chains of a Twist. -/

theorem Chip.Traced.twMirror (h : a.Traced c) (hank : Nat) : a.Traced (c.twMirror hank) := by
  unfold Chip.twMirror
  extract_lets t p
  have hp : a.Traced p.1 := by
    simp only [p]
    split
    · exact h
    · exact h.mirrorItem _
  exact hp.touch (Chip.twMod_touch ..)

theorem Chip.Traced.twChain (h : a.Traced c) (hank : Nat) (r : List Byte) : a.Traced (c.twChain hank r) := by
  unfold Chip.twChain
  extract_lets g i gran cap d d'
  have hd' : a.Traced d' := ((h.touch (Chip.twMod_touch ..)).puti ..).count ..
  exact (hd'.touch (Chip.portReq_touch ..)).ite hd'

theorem Chip.Traced.twLog (h : a.Traced c) (code hank die strand step cause count num : Nat) :
    a.Traced (c.twLog code hank die strand step cause count num) := h.log ..

theorem Chip.Traced.twSeal (h : a.Traced c) (hank : Nat) (again : Bool) : a.Traced (c.twSeal hank again) := by
  unfold Chip.twSeal
  extract_lets g n d d' d''
  have hd' : a.Traced d' := (h.twChain ..).twLog ..
  exact Chip.Traced.ite (Chip.Traced.touch ((hd'.puti ..).puti ..) (Chip.twMod_touch ..)) hd'

theorem Chip.Traced.twFull (h : a.Traced c) (hank : Nat) (r : List Byte) : a.Traced (c.twFull hank r) :=
  ((h.twChain hank r).twSeal hank true).ite (h.twChain hank r)

theorem Chip.Traced.twPending (h : a.Traced c) (hank : Nat) : a.Traced (c.twPending hank) := h.puti ..

theorem Chip.Traced.twVoid (h : a.Traced c) (hank cause : Nat) : a.Traced (c.twVoid hank cause) := by
  unfold Chip.twVoid
  extract_lets t gone d d'
  have hd : a.Traced d := h.touch (Chip.twMod_touch ..)
  have hd' : a.Traced d' := hd.each fun e x he => Chip.Traced.twLog (Chip.Traced.puti ((he.twFull ..).ite he) ..) ..
  exact hd'.twPending hank

theorem Chip.Traced.twDieLeft (h : a.Traced c) (n : Nat) : a.Traced (c.twDieLeft n) := by
  unfold Chip.twDieLeft
  split
  · exact ((h.twVoid ..).twMirror ..).ite h
  · exact h

theorem Chip.Traced.dieGone (h : a.Traced c) (n : Nat) : a.Traced (c.dieGone n) := (h.dieLeft n).twDieLeft n

theorem Chip.Traced.cardAbsent (h : a.Traced c) : a.Traced (c.cardAbsent Chip.dieGone) := by
  refine h.each fun e n he => ?_
  have hgone : a.Traced (((e.cardDrop n).cardSet n 0).dieGone n) :=
    (((he.setCarded ..).touch (Chip.cu_touch ..)).cardSet ..).dieGone n
  extract_lets was d card hanks d'
  have hd' : a.Traced d' := hgone.keep rfl rfl
  exact (hd'.mirrorItem _).ite hd'

theorem Chip.Traced.twWithhold (h : a.Traced c) (hank : Nat) : a.Traced (c.twWithhold hank) := (h.touch (Chip.twMod_touch ..)).twPending hank

theorem Chip.Traced.twSigning (h : a.Traced c) (hank : Nat) : a.Traced (c.twSigning hank) :=
  h.ite (Chip.Traced.twPending (h.touch (Chip.twMod_touch ..)) hank)

/-! A Twist frozen. -/

theorem Chip.Traced.freezeFrame (h : a.Traced c) (id : Nat) : a.Traced (c.freezeFrame id) := by
  unfold Chip.freezeFrame
  split
  · exact h
  · split
    · exact h.ite (h.warpTo ..)
    · exact h

theorem Chip.Traced.launchStale (h : a.Traced c) (id : Nat) : a.Traced (c.launchStale id) := by
  unfold Chip.launchStale
  split
  · split
    · split
      · exact h.puti ..
      · exact h
    · exact h
  · exact h

theorem Chip.Traced.freezeBob (h : a.Traced c) (id : Nat) : a.Traced (c.freezeBob id) :=
  ((((h.launchStale id).touch (Chip.cancelRec_touch ..)).discard id false).bobMod ..).freezeFrame id

theorem Chip.Traced.twFreeze (h : a.Traced c) (hank step : Nat) : a.Traced (c.twFreeze hank step) := by
  unfold Chip.twFreeze
  extract_lets d d' d''
  have hd : a.Traced d := h.each fun _ _ he => he.push ..
  have hd' : a.Traced d' := hd.each fun _ i he => he.freezeBob i
  have hd'' : a.Traced d'' := Chip.Traced.keep (hd'.puti F.DST_HANKn_FROZEN hank 1) rfl rfl
  exact (hd''.touch (Chip.jWrite_touch ..)).ite hd''

theorem Chip.Traced.twDepart (h : a.Traced c) (hank code die step seq : Nat) : a.Traced (c.twDepart hank code die step seq) := by
  unfold Chip.twDepart
  extract_lets d d' d'' freeze d3
  have hd' : a.Traced d' := (h.twFull ..).twLog ..
  have hd'' : a.Traced d'' := ((hd'.puti ..).puti ..).ite hd'
  have hd3 : a.Traced d3 := Chip.Traced.twWithhold ((hd''.puti ..).noilTrans ..) hank
  exact hd''.ite (Chip.Traced.ite ((hd3.twFreeze ..).twLog ..) hd3)

theorem Chip.Traced.twReleased (h : a.Traced c) (n : Nat) : a.Traced (c.twReleased n) := by
  unfold Chip.twReleased
  extract_lets tw d
  have hd : a.Traced d := h.keep rfl rfl
  split
  · exact ((hd.twDepart ..).twMirror ..).ite hd
  · exact hd

/-! Scrubs and the draws of random bytes they take. -/

theorem Chip.Traced.drbgSeeded (h : a.Traced c) (seed : List Byte) : a.Traced (c.drbgSeeded seed) := ((h.put ..).put ..).touch (Chip.cr_touch ..)

theorem Chip.Traced.rngReq (h : a.Traced c) (n : Nat) (pr : Bool) : a.Traced (c.rngReq n pr).2.2 := by
  unfold Chip.rngReq
  extract_lets d d' r d''
  have hd : a.Traced d := (Chip.Traced.put (Chip.Traced.put (Chip.Traced.drbgSeeded (h.touch (Chip.entInput_touch c)) _) ..) ..).ite h
  split
  · exact hd.put F.CRY_DRBG_STATUS_LAST _
  · have hd' : a.Traced d' := (Chip.Traced.drbgSeeded (hd.touch (Chip.entInput_touch d)) _).ite hd
    have hd'' : a.Traced d'' := hd'.touch (Chip.cr_touch ..)
    exact ((hd''.puti F.CRY_DRBG_STATUS_GEN_SINCE 0 _).put F.CRY_DRBG_STATUS_LAST 0).count 14 1

theorem Chip.Traced.rnd (h : a.Traced c) (n : Nat) : a.Traced (c.rnd n).2 := by
  simp only [Chip.rnd, Chip.rndWith]
  split
  · exact h.rngReq ..
  · exact (h.rngReq ..).touch (Chip.drawBytes_touch ..)

theorem Chip.Traced.scrubDie (h : a.Traced c) (hank op strand launch number n : Nat) : a.Traced (c.scrubDie hank op strand launch number n) :=
  Chip.Traced.mirrorThen ((h.rnd 16).touch (Chip.hankMod_touch ..)) ..

theorem Chip.Traced.scrubAll (h : a.Traced c) (hank op strand launch : Nat) (dies : List Nat) : a.Traced (c.scrubAll hank op strand launch dies) :=
  Chip.Traced.each (h.touch (Chip.ha_touch ..)) fun _ _ he => he.scrubDie ..

theorem Chip.Traced.hankReleased (h : a.Traced c) (n : Nat) : a.Traced (c.hankReleased n) := by
  unfold Chip.hankReleased
  extract_lets d
  have hd : a.Traced d := h.twReleased n
  split
  · exact (hd.scrubAll ..).ite hd
  · exact hd

theorem Chip.Traced.scrubTell (h : a.Traced c) (hank op : Nat) : a.Traced (c.scrubTell hank op) := by
  unfold Chip.scrubTell
  split
  · exact h
  · refine h.each fun e n he => ?_
    split
    · exact he.ringSend ..
    · exact he

theorem Chip.Traced.switchDone (h : a.Traced c) (hank : Nat) : a.Traced (c.switchDone hank) := by
  unfold Chip.switchDone
  split
  · split
    · exact (Chip.Traced.log (h.touch (Chip.hankMod_touch ..)) ..).ite h
    · exact h
  · exact h

theorem Chip.Traced.switches (h : a.Traced c) : a.Traced c.switches := by
  refine h.each fun e n he => ?_
  split
  · exact he
  · split
    · exact he
    · split
      · exact he.ite (((he.scrubTell ..).ite he).touch (Chip.hankMod_touch ..))
      · split
        · exact he
        · exact (Chip.Traced.switchDone ((he.scrubTell ..).touch (Chip.hankMod_touch ..)) _).ite he

/-! Launches cancelled and commands that end. -/

theorem Chip.Traced.lset (h : a.Traced c) (n st : Nat) : a.Traced (c.lset n st) := ((h.puti ..).noilTrans ..).trace ..

theorem Chip.Traced.cancelsEnd (h : a.Traced c) : a.Traced c.cancelsEnd := by
  refine h.each fun e n he => ?_
  split
  · exact Chip.Traced.log (Chip.Traced.mirrorItem ((he.lset n 6).puti ..) _) ..
  · exact he

theorem Chip.Traced.cancelGo (h : a.Traced c) (n reason : Nat) : a.Traced (c.cancelGo n reason) := by
  unfold Chip.cancelGo
  split
  · exact h
  · extract_lets num ids d d' whl d'' d3 whl'
    have hd' : a.Traced d' :=
      (h.touch (Chip.cancelRecs_touch ..)).each fun e i he => (he.discard i true).touch (Chip.cmdPart_touch ..)
    have hd'' : a.Traced d'' := (hd'.withWhl _).ite hd'
    exact (hd''.ringBroadcast ..).withWhl _

theorem Chip.Traced.cplDrain (h : a.Traced c) (n : Nat) : a.Traced (c.cplDrain n) := by
  induction n generalizing c with
  | zero => exact h
  | succ n ih =>
    unfold Chip.cplDrain
    split
    · exact h
    · split
      · refine ih (Chip.Traced.put ?_ _ _)
        exact (h.touch (Chip.spnWr_touch ..)).withCust _
      · exact h

theorem Chip.Traced.complete (h : a.Traced c) (b : List Byte) (irq : Bool) : a.Traced (c.complete b irq) := by
  unfold Chip.complete
  extract_lets cust d
  have hd : a.Traced d := (h.withCust _).cplDrain _
  exact (hd.touch (Chip.send_touch ..)).ite hd

theorem Chip.Traced.cmdDone (h : a.Traced c) (r : CmdRun) : a.Traced (c.cmdDone r) := by
  unfold Chip.cmdDone
  extract_lets worst b d d'
  have hd : a.Traced d := h.touch (Chip.cu_touch ..)
  have hd' : a.Traced d' := hd.ite (hd.put ..)
  exact ((hd'.complete ..).count ..).trace ..

theorem Chip.Traced.commitDone (h : a.Traced c) (id : Nat) (ready : List Nat) : a.Traced (c.commitDone id ready) := by
  refine Chip.Traced.touch (h.each fun e i he => ?_) (Chip.cu_touch ..)
  split
  · exact Chip.Traced.ite ((he.bobMod ..).touch (Chip.cmdPart_touch ..)) he
  · exact he

theorem Chip.Traced.hankKeyed (h : a.Traced c) (hank : Nat) (key : List Byte) : a.Traced (c.hankKeyed hank key) := by
  unfold Chip.hankKeyed
  split
  · exact h
  · split
    · exact h
    · extract_lets d d'
      have hd' : a.Traced d' := ((Chip.Traced.puti (h.touch (Chip.cu_touch ..)) ..).puti ..).puti ..
      exact hd'.touch (Chip.hankMod_touch ..)

/-! Updates confirmed, signatures made, replies of the life cycle. -/

theorem Chip.Traced.updOut (h : a.Traced c) (o : UpdFrom) (st : Status) : a.Traced (c.updOut o st) := by
  unfold Chip.updOut
  extract_lets b
  split
  · exact h.finishCall ..
  · split
    · exact h.answer ..
    · exact h
  · exact Chip.Traced.ite (h.touch (Chip.up_touch ..)) h

theorem Chip.Traced.confirmEnd (h : a.Traced c) : a.Traced c.confirmEnd := by
  unfold Chip.confirmEnd
  split
  · exact h
  · split
    · exact h
    · extract_lets st d d' old
      have hd : a.Traced d := h.touch (Chip.up_touch ..)
      have hd' : a.Traced d' := Chip.Traced.log (hd.touch (Chip.updPut_touch ..)) ..
      exact (hd.updOut ..).ite (Chip.Traced.updOut (hd'.touch (Chip.up_touch ..)) ..)

theorem Chip.Traced.lcsReply (h : a.Traced c) : a.Traced c.lcsReply := by
  unfold Chip.lcsReply
  split
  · exact h
  · split
    · exact h
    · refine Chip.Traced.finishCall ?_ ..
      exact h.keep rfl rfl

theorem Chip.Traced.kexDone (h : a.Traced c) (conn id : Nat) (sent sig msg : List Byte) : a.Traced (c.kexDone conn id sent sig msg) := by
  unfold Chip.kexDone
  split
  · exact h
  · exact Chip.Traced.spdmSend (h.touch (Chip.sessMod_touch ..)) ..

theorem Chip.Traced.sigDone (h : a.Traced c) (w : SignWork) : a.Traced (c.sigDone w) := by
  have hec (msg : List Byte) : a.Traced (c.aliasEc msg).1 := h.rnd 56
  have hml (msg : List Byte) : a.Traced (c.aliasMl msg).1 := h.rnd 32
  unfold Chip.sigDone
  split
  · refine Chip.Traced.finishCall ?_ ..
    split
    · exact hec _
    · exact hml _
  · split
    · split
      · exact (hec _).kexDone ..
      · exact hec _
    · exact Chip.Traced.spdmSend ((hec _).touch (Chip.connMod_touch ..)) ..
  · refine Chip.Traced.spdmSend ?_ ..
    split
    · exact (hml _).touch (Chip.sessMod_touch ..)
    · exact hml _
  · exact h

/-! Effects that waited for the mirror. -/

theorem Chip.Traced.doEff (h : a.Traced c) (e : Eff) : a.Traced (c.doEff e) := by
  cases e with
  | ring typ dst p => exact h.ringSend ..
  | ringAll typ p => exact h.ringBroadcast ..
  | ack src seq => exact h.ringSend ..
  | command id ready => exact h.commitDone ..
  | hankKey n key => exact h.hankKeyed ..
  | root tree node => exact h.touch (Chip.cu_touch ..)
  | answer m r =>
    simp only [Chip.doEff]
    split
    · exact h.answer ..
    · exact h
  | finish t st => exact h.finishCall ..
  | spdm n q b => exact h.spdmSend ..
  | release n => exact ((h.cardRelease n).hankReleased n).touch (Chip.ringPush_touch ..)
  | warp ch f => exact h.warpTo ch f
  | launchCancel n r => exact h.cancelGo n r
  | nothing => exact h

theorem Chip.Traced.failEff (h : a.Traced c) (st : Status) (e : Eff) : a.Traced (Chip.failEff st c e) := by
  unfold Chip.failEff
  split
  · exact h.touch (Chip.cu_touch ..)
  · split
    · exact h.answer ..
    · exact h
  · exact h.finishCall ..
  · exact h

/-! The journal and the mirror's replay. -/

theorem Chip.Traced.jErase (h : a.Traced c) : a.Traced c.jErase := by
  unfold Chip.jErase
  split
  · exact Chip.Traced.ite (Chip.Traced.put (h.touch (Chip.jr_touch ..)) ..) h
  · exact h

theorem Chip.Traced.jPage (h : a.Traced c) (page : List (Nat × JRec)) : a.Traced (c.jPage page) := by
  refine h.each fun e x he => ?_
  exact (he.mirrorItem _).withPly _

theorem Chip.Traced.jStart (h : a.Traced c) : a.Traced c.jStart := by
  unfold Chip.jStart
  extract_lets d j
  have hd : a.Traced d := h.touch (Chip.jClear_touch ..)
  split
  · exact hd.jErase
  · split
    · exact hd.jErase
    · extract_lets pos sector enters t head d' d'' d3
      split
      · exact hd.jErase
      · have hd' : a.Traced d' := hd.touch (Chip.jr_touch ..)
        have hd'' : a.Traced d'' := ((hd'.put ..).put ..).jPage _
        exact Chip.Traced.jErase (Chip.Traced.ite (hd''.touch (Chip.jWant_touch ..)) hd'')

theorem Chip.Traced.bobNew (h : a.Traced c) (id : Nat) (b : Bob) : a.Traced (c.bobNew id b) := by
  unfold Chip.bobNew
  extract_lets l b' b'' d
  have hd : a.Traced d := (h.touch (Chip.cu_touch ..)).noilTrans ..
  exact (hd.log ..).ite hd

theorem Chip.Traced.derive (h : a.Traced c) (id epoch : Nat) : a.Traced (c.derive id epoch).1 := by
  unfold Chip.derive
  split
  · exact h
  · split
    · exact h
    · exact h.count ..

theorem Chip.Traced.blobWrite (h : a.Traced c) (id epoch : Nat) (key : List Byte) (slot : Nat) : a.Traced (c.blobWrite id epoch key slot) :=
  ((h.touch (Chip.portReq_touch ..)).count ..).bobMod ..

theorem Chip.Traced.warpDesc (h : a.Traced c) (id : Nat) : a.Traced (c.warpDesc id) := by
  unfold Chip.warpDesc
  split
  · exact h
  · split
    · exact h
    · extract_lets d
      have hd : a.Traced d := Chip.Traced.ite (h.touch (Chip.cu_touch ..)) h
      exact (hd.bobMod ..).warpTo ..

theorem Chip.Traced.makeBob (h : a.Traced c) (id : Nat) (b : Bob) : a.Traced (c.makeBob id b) := by
  unfold Chip.makeBob
  extract_lets d k d'
  have hk : a.Traced k.1 := (h.bobNew ..).derive ..
  have hd' : a.Traced d' := by
    simp only [d']
    split
    · exact hk.blobWrite ..
    · exact hk
  exact hd'.warpDesc id

theorem Chip.Traced.replay (h : a.Traced c) : a.Traced c.replay := by
  unfold Chip.replay
  split
  · exact h
  · extract_lets recs scratch keys cer d d' bobs back gone d'' d3 d4
    have hd' : a.Traced d' := Chip.Traced.each (h.touch (Chip.cu_touch ..)) fun _ _ he => (he.puti ..).puti ..
    have hd'' : a.Traced d'' := hd'.each fun _ _ he => he.makeBob ..
    have hd3 : a.Traced d3 := hd''.each fun _ _ he => he.touch (Chip.jWrite_touch ..)
    have hd4 : a.Traced d4 := hd3.each fun _ _ he => he.touch (Chip.jWrite_touch ..)
    exact (Chip.Traced.touch (hd4.put ..) (Chip.cu_touch ..)).log ..

/-! The lease, the handover and the end of a phase. -/

theorem Chip.Traced.setRole (h : a.Traced c) (r : Nat) : a.Traced (c.setRole r) := (h.put ..).noilTrans ..

theorem Chip.Traced.setSeq (h : a.Traced c) (q : Seq) : a.Traced (c.setSeq q) := ((h.put ..).noilTrans ..).trace ..

theorem Chip.Traced.setGrp (h : a.Traced c) (g st : Nat) : a.Traced (c.setGrp g st) := by
  unfold Chip.setGrp Chip.when
  extract_lets old w d
  have hd : a.Traced d := (h.count ..).ite h
  exact ((hd.put ..).noilTrans ..).trace ..

theorem Chip.Traced.groupNeed (h : a.Traced c) (g : Nat) : a.Traced (c.groupNeed g) := by
  unfold Chip.groupNeed
  exact h.ite (Chip.Traced.ite (Chip.Traced.setGrp ((h.setSeq _).ite h) ..) h)

theorem Chip.Traced.grantRegs (h : a.Traced c) : a.Traced c.grantRegs := by
  unfold Chip.grantRegs
  extract_lets m q
  exact ((h.put64 ..).put ..).wr ..

theorem Chip.Traced.leaseAsk (h : a.Traced c) (op fresh num dur : Nat) : a.Traced (c.leaseAsk op fresh num dur) := by
  unfold Chip.leaseAsk
  extract_lets exp d d' b ply
  have hd' : a.Traced d' := Chip.Traced.wr (h.touch (Chip.pl_touch ..)) ..
  exact (hd'.ringBroadcast ..).ite (hd'.withPly _)

theorem Chip.Traced.candidate (h : a.Traced c) (op dur : Nat) : a.Traced (c.candidate op dur) := by
  unfold Chip.candidate
  split
  · exact h.setRole _
  · extract_lets num d
    have hd : a.Traced d := Chip.Traced.grantRegs ((h.setRole 4).touch (Chip.pl_touch ..))
    exact ((hd.groupNeed 1).groupNeed 2).leaseAsk ..

theorem Chip.Traced.renew (h : a.Traced c) (mask : Nat) : a.Traced (c.renew mask) := by
  unfold Chip.renew
  extract_lets exp d b
  have hd : a.Traced d := h.touch (Chip.pl_touch ..)
  exact (hd.mirrorThen ..).ite (hd.ringBroadcast ..)

theorem Chip.Traced.resyncFive (h : a.Traced c) : a.Traced c.resyncFive := by
  unfold Chip.resyncFive
  split
  · extract_lets mask d
    have hshow : a.Traced (c.resyncShow (c.get F.PLY_RESYNC_PATH) 5 0) := ((Chip.Traced.put (h.touch (Chip.pl_touch ..)) ..).put ..).put ..
    have hd : a.Traced d := hshow.touch (Chip.pl_touch ..)
    exact hd.renew mask
  · exact h

theorem Chip.Traced.handoverGo (h : a.Traced c) : a.Traced c.handoverGo := by
  unfold Chip.handoverGo
  split
  · split
    · exact h
    · exact Chip.Traced.touch (Chip.Traced.put ((h.plySend ..).ringBroadcast ..) ..) (Chip.pl_touch ..)
  · exact h

theorem Chip.Traced.handoverFailed (h : a.Traced c) : a.Traced c.handoverFailed := by
  unfold Chip.handoverFailed Chip.handoverStart
  split
  · exact Chip.Traced.ite ((h.put ..).log ..) (Chip.Traced.touch ((h.put ..).put ..) (Chip.pl_touch ..))
  · exact h

theorem Chip.Traced.askResync (h : a.Traced c) : a.Traced c.askResync := Chip.Traced.ite (Chip.Traced.plySend (h.touch (Chip.pl_touch ..)) ..) h

theorem Chip.Traced.meet (h : a.Traced c) : a.Traced c.meet := by
  unfold Chip.meet
  split
  · exact h
  · extract_lets own his d
    have hd : a.Traced d :=
      h.ite (Chip.Traced.ite (Chip.Traced.setRole (h.put ..) _) (Chip.Traced.ite ((h.replay.candidate 1 0).ite h) (h.setRole _)))
    exact hd.askResync.ite hd

theorem Chip.Traced.alignSet (h : a.Traced c) (st : Nat) : a.Traced (c.alignSet st) := ((h.put ..).noilTrans ..).trace ..

theorem Chip.Traced.setMaster (h : a.Traced c) : a.Traced c.setMaster := by
  unfold Chip.setMaster
  extract_lets d
  have hd : a.Traced d := (h.put ..).put ..
  exact h.ite (hd.ite (hd.alignSet _))

theorem Chip.Traced.setPhase (h : a.Traced c) (p : Nat) : a.Traced (c.setPhase p) := by
  unfold Chip.setPhase
  extract_lets d cores
  have hd : a.Traced d := (h.put ..).put ..
  exact (hd.withCores _).ite hd

theorem Chip.Traced.phases (h : a.Traced c) : a.Traced c.phases := by
  unfold Chip.phases
  extract_lets warm carded d d' d''
  have hd : a.Traced d := (h.setPhase _).ite h
  have hd' : a.Traced d' := hd.meet.ite hd
  have hd'' : a.Traced d'' := hd'.ite hd'.replay
  exact hd'.ite (((hd''.setPhase _).setMaster.log ..).ite (((hd'.setPhase _).log ..).ite hd'))

theorem Chip.Traced.acksDue (h : a.Traced c) : a.Traced c.acksDue := by
  unfold Chip.acksDue
  extract_lets ready
  split
  · exact h
  · exact Chip.Traced.plySend (h.touch (Chip.pl_touch ..)) ..

theorem Chip.Traced.recount (h : a.Traced c) (n : Nat) : a.Traced (c.recount n) := by
  unfold Chip.recount
  extract_lets st bs d d'
  split
  · exact h
  · have hd : a.Traced d := h.puti ..
    have hd' : a.Traced d' := (hd.puti ..).ite hd
    exact (hd'.puti ..).ite hd'

/-! The end of a step. -/

theorem Chip.Traced.settleOnce (h : a.Traced c) : a.Traced c.settleOnce := by
  unfold Chip.settleOnce
  extract_lets c1 c2 c3 c4 c5 c6 c7 c8 c9 c10
  have h1 : a.Traced c1 := h.cardAbsent.cardRoundEnd
  have h2 : a.Traced c2 := h1.jStart
  have h3 : a.Traced c3 := Chip.Traced.ite (Chip.Traced.each (h2.touch (Chip.pl_touch ..)) fun _ e he => he.failEff _ e) h2
  have h4 : a.Traced c4 := Chip.Traced.each (h3.touch (Chip.pl_touch ..)) fun _ e he => he.doEff e
  have h5 : a.Traced c5 := h4.acksDue
  have h6 : a.Traced c6 := h5.cancelsEnd.each fun _ r he => he.cmdDone r
  have h7 : a.Traced c7 := h6.each fun _ n he => he.recount n
  have h8 : a.Traced c8 := (h7.touch (Chip.keyWaiters_touch _)).hostRetry
  have h9 : a.Traced c9 := h8.switches.confirmEnd.lcsReply
  have h10 : a.Traced c10 := Chip.Traced.each (Chip.Traced.touch (h9.each fun _ n he => he.twSigning n) (Chip.sp_touch ..)) fun _ w he => he.sigDone w
  exact h10.resyncFive.handoverGo.handoverFailed.phases.logLost

/-- The end of a step offers records to the trace sources and does nothing else to them. -/
theorem Chip.Traced.settle (h : a.Traced c) : a.Traced c.settle := by
  unfold Chip.settle
  split
  · exact (Chip.Traced.touch h.settleOnce.settleOnce.settleOnce.settleOnce (Chip.snapKeep_touch _)).touch (Chip.idleNote_touch _)
  · exact h

end

end Sys2Proof.Machine

/-!
SUPPORT. The statements on debug of the Roving cores and on trace (spec section 18): what source 11 and source 13 hold once a step has ended.
-/

namespace Sys2Proof.Machine

set_option Elab.async false

section
variable {a c d : Chip}

theorem Chip.trSrc_trSet (c : Chip) (t u : Nat) (s : TraceSrc) : (c.trSet t s).trSrc u = if u = t then s else c.trSrc u := tget_tput ..

theorem Chip.trSrc_puti (c : Chip) (f : Fld) (i v u : Nat) : (c.puti f i v).trSrc u = c.trSrc u :=
  congrArg (fun x : Dbg => tget x.tr u {}) (c.puti_same f i v .dbg)

theorem Chip.trSrc_trAdmit_other (c : Chip) {t u : Nat} (h : u ≠ t) (s : TraceSrc) (r : List Byte) : (c.trAdmit t s r).trSrc u = c.trSrc u := by
  have hset (s : TraceSrc) : (c.trSet t s).trSrc u = c.trSrc u := (c.trSrc_trSet ..).trans (if_neg h)
  unfold Chip.trAdmit
  dsimp only
  split
  · split
    · exact (Chip.trSrc_puti ..).trans (hset _)
    · exact hset _
  · exact hset _

theorem Chip.trSrc_trDrop_other (c : Chip) {t u : Nat} (h : u ≠ t) (s : TraceSrc) : (c.trDrop t s).trSrc u = c.trSrc u :=
  (Chip.trSrc_puti ..).trans ((c.trSrc_trSet ..).trans (if_neg h))

/-- A record offered to another source. -/
theorem Chip.trSrc_traceOffer_other (c : Chip) {t u : Nat} (h : u ≠ t) (kind arg0 : Nat) (data : List Byte) :
    (c.traceOffer t kind arg0 data).1.trSrc u = c.trSrc u := by
  unfold Chip.traceOffer
  split
  · rfl
  · dsimp only
    split
    · exact c.trSrc_trAdmit_other h ..
    · exact c.trSrc_trDrop_other h _

/-- The end of a step changes nothing of source 11. -/
theorem Chip.Traced.trSrc_eleven (h : a.Traced c) : c.trSrc 11 = a.trSrc 11 := by
  induction h with
  | refl => rfl
  | same _ hs ih => exact (congrArg (fun t : Tab TraceSrc => tget t 11 {}) hs.1).trans ih
  | offer _ ht _ ih => exact (Chip.trSrc_traceOffer_other _ ht.symm ..).trans ih

/-! Source 13, to which every event is offered. -/

/-- An admitted record is the newest. -/
theorem Chip.getLast_trAdmit (c : Chip) (t : Nat) (s : TraceSrc) (r : List Byte) : ((c.trAdmit t s r).trSrc t).recs.getLast? = some r := by
  have hset (s : TraceSrc) : (c.trSet t s).trSrc t = s := (c.trSrc_trSet ..).trans (if_pos rfl)
  unfold Chip.trAdmit
  dsimp only
  split
  · split
    · rw [Chip.trSrc_puti, hset]
      exact List.getLast?_concat
    · rw [hset]
      exact List.getLast?_concat
  · rw [hset]
    exact List.getLast?_concat

/-- The state of a source is read at a register of its own. -/
theorem Chip.trState_puti (c : Chip) {f : Fld} {i u : Nat} (h : F.DBG_TRt_STATUS_STATE.off u ≠ f.off i) (v : Nat) :
    (c.puti f i v).geti F.DBG_TRt_STATUS_STATE u = c.geti F.DBG_TRt_STATUS_STATE u := by
  refine Chip.geti_puti_other _ _ _ _ _ _ rfl ?_
  simp [Fld.apart, h]

theorem Chip.trState_trDrop (c : Chip) (t u : Nat) (s : TraceSrc) :
    (c.trDrop t s).geti F.DBG_TRt_STATUS_STATE u = c.geti F.DBG_TRt_STATUS_STATE u :=
  Chip.trState_puti _ (by simp only [Fld.off, F.DBG_TRt_STATUS_STATE, F.DBG_TRt_LOST_COUNT]; omega) _

theorem Chip.trState_trAdmit_other (c : Chip) {t u : Nat} (h : u ≠ t) (s : TraceSrc) (r : List Byte) :
    (c.trAdmit t s r).geti F.DBG_TRt_STATUS_STATE u = c.geti F.DBG_TRt_STATUS_STATE u := by
  unfold Chip.trAdmit
  dsimp only
  split
  · split
    · exact Chip.trState_puti _ (by simp only [Fld.off, F.DBG_TRt_STATUS_STATE]; omega) _
    · rfl
  · rfl

theorem Chip.trState_traceOffer_other (c : Chip) {t u : Nat} (h : u ≠ t) (kind arg0 : Nat) (data : List Byte) :
    (c.traceOffer t kind arg0 data).1.geti F.DBG_TRt_STATUS_STATE u = c.geti F.DBG_TRt_STATUS_STATE u := by
  unfold Chip.traceOffer
  split
  · rfl
  · dsimp only
    split
    · exact c.trState_trAdmit_other h ..
    · exact c.trState_trDrop ..

/-- Unless the source is stopped already, it is not stopped after the offer, or the record is its newest. -/
theorem Chip.traceOffer_cases (c : Chip) (t kind arg0 : Nat) (data : List Byte) :
    (c.traceOffer t kind arg0 data).1 = c ∨ (c.traceOffer t kind arg0 data).1.geti F.DBG_TRt_STATUS_STATE t ≠ 4 ∨
      ((c.traceOffer t kind arg0 data).1.trSrc t).recs.getLast? = some (traceBytes c t kind arg0 data) := by
  unfold Chip.traceOffer
  split
  case isTrue => exact .inl rfl
  case isFalse hopen =>
    dsimp only
    split
    · exact .inr (.inr (c.getLast_trAdmit ..))
    · refine .inr (.inl ?_)
      rw [Chip.trState_trDrop]
      simp only [Bool.or_eq_true, decide_eq_true_eq, not_or] at hopen
      obtain ⟨⟨-, hstate⟩, -⟩ := hopen
      exact hstate

/-- Does a record of source 13 tell of a trigger (event 0x0023 of DBG)? -/
def tellsTrigger (r : List Byte) : Bool := numAt r 9 1 == uDBG && numAt r 10 2 == 0x0023

theorem tellsTrigger_traceBytes {kind arg0 : Nat} (h : kind % 256 ≠ uDBG ∨ arg0 % 65536 ≠ 0x0023) (c : Chip) (t : Nat) (data : List Byte) :
    tellsTrigger (traceBytes c t kind arg0 data) = false := by
  have hkind : numAt (traceBytes c t kind arg0 data) 9 1 = kind % 256 := by
    simp only [traceBytes, List.append_assoc]
    rw [numAt_le_append_of_le (by decide), numAt_le_append_of_le (by decide)]
    exact numAt_le_append 1 kind _
  have harg : numAt (traceBytes c t kind arg0 data) 10 2 = arg0 % 65536 := by
    simp only [traceBytes, List.append_assoc]
    rw [numAt_le_append_of_le (by decide), numAt_le_append_of_le (by decide), numAt_le_append_of_le (by decide)]
    exact numAt_le_append 2 arg0 _
  rw [tellsTrigger, hkind, harg, Bool.and_eq_false_iff, beq_eq_false_iff_ne, beq_eq_false_iff_ne]
  exact h

/-- Source 13 was not stopped by the record that tells of a trigger. -/
def Chip.NotByTrigger (c : Chip) : Prop := c.geti F.DBG_TRt_STATUS_STATE 13 = 4 → (c.trSrc 13).recs.getLast?.all (!tellsTrigger ·) = true

/-- The end of a step does not stop source 13 by such a record. -/
theorem Chip.Traced.notByTrigger (h : a.Traced c) (ha : a.NotByTrigger) : c.NotByTrigger := by
  induction h with
  | refl => exact ha
  | @same c d _ hs ih =>
    have hstate : d.geti F.DBG_TRt_STATUS_STATE 13 = c.geti F.DBG_TRt_STATUS_STATE 13 :=
      congrArg (wget 2 0) (hs.2 _ (List.mem_cons_self ..))
    rw [Chip.NotByTrigger, hstate, Chip.trSrc, hs.1]
    exact ih
  | @offer c t kind arg0 data _ _ hrec ih =>
    by_cases ht : 13 = t
    · subst ht
      intro hstop
      obtain hsame | hopen | hnew := c.traceOffer_cases 13 kind arg0 data
      · rw [hsame] at hstop ⊢
        exact ih hstop
      · exact absurd hstop hopen
      · rw [hnew]
        simp [tellsTrigger_traceBytes hrec]
    · rw [Chip.NotByTrigger, Chip.trState_traceOffer_other _ ht, Chip.trSrc_traceOffer_other _ ht]
      exact ih

/-- The end of a step leaves the trigger classes as they are. -/
theorem Chip.traced_settle (h : c.settle.Untriggered) : c.Traced c.settle := by
  have hs : ∀ t ∈ (List.range 9).map (· + 6), spares 0xc00180000000000000203800004189391810413f4382e0000200000000541b4
      (F.DBG_TRt_CTRL_TRIG_CLASS.off t) = true := by decide +kernel
  exact Chip.Traced.settle (.refl fun t ht => (c.settle_touch.geti_eq (hs t ht)).symm.trans (h t ht))

end

/-! Debug of the Roving cores. -/

/-- A chip in SERVICE whose trace source 11 is on and granted, with a Roving core's DMA channel paused on the line of that source. -/
def pausedOnLine : State :=
  let regs : List (Fld × Nat × Nat) := [(F.PWR_STATUS_SEQ_STATE, 0, 2), (F.DBG_CTRL_TRACE_ROV, 0, 1), (F.DBG_TRt_CTRL_EN, 11, 1),
    (F.DBG_TRt_STATUS_STATE, 11, 1), (F.DMA_CHn_STATUS_STATE, 8, dPaused), (F.DMA_CHn_CFG_OWNER, 8, 0xF0)]
  let chip : Chip := { dma := [(8, { desc := some { req := 0x80 + 11 } })], dbg := { tr := [(11, { grant := some 0 })] } }
  { State.reset with chip := chip.each regs fun c p => c.puti p.1 p.2.1 p.2.2 }

/-- Its descriptor's end is a record of source 11, made after the source was erased. -/
theorem exec_traceRovClear_pausedOnLine :
    ∃ d, exec (.traceRovClear 0xFF) pausedOnLine = .next (pausedOnLine.settled d) ∧ d.settle.Untriggered ∧ (d.settle.trSrc 11).recs ≠ [] :=
  ⟨_, rfl, by unfold Chip.Untriggered; decide +kernel, by decide +kernel⟩

/-- Refutes O44: the clause on TRACE_ROV says that the granted sources are empty once it is cleared. In `pausedOnLine` the channel on the line of
source 11 is aborted after the source is erased, and its descriptor's end is a record of that source (R311, R500). -/
theorem not_coreDebug : ¬ Obligations.CoreDebug := by
  rintro ⟨-, -, -, -, -, ⟨-, hclear⟩, -⟩
  obtain ⟨c, hc, -, hempty⟩ := hclear pausedOnLine 0xFF (by decide +kernel) (by decide +kernel)
  obtain ⟨d, hd, htrig, hrec⟩ := exec_traceRovClear_pausedOnLine
  have hsettle : d.settle = c.settle := congrArg State.chip (Host.Outcome.next.inj (hd.symm.trans hc))
  have hsrc := List.all_eq_true.mp hempty 11 (by decide)
  have hgrant : (pausedOnLine.chip.trSrc 11).grant.isNone = false := by decide +kernel
  rw [hgrant, Bool.false_or, List.isEmpty_iff] at hsrc
  rw [hsettle] at htrig hrec
  rw [(Chip.traced_settle htrig).trSrc_eleven, hsrc] at hrec
  exact hrec rfl

/-! Trace. -/

/-- A chip in SERVICE whose trace source 13 is on and armed, to take one record after its trigger. -/
def armedForOne : State :=
  let regs : List (Fld × Nat × Nat) := [(F.PWR_STATUS_SEQ_STATE, 0, 2), (F.DBG_TRt_CTRL_EN, 13, 1), (F.DBG_TRt_CTRL_POST, 13, 1),
    (F.DBG_TRt_STATUS_STATE, 13, 2)]
  { State.reset with chip := Chip.each {} regs fun c p => c.puti p.1 p.2.1 p.2.2 }

/-- The event that tells of the trigger is that record. -/
theorem exec_swTrig_armedForOne :
    ∃ d, exec (.swTrig 0xFF 13) armedForOne = .next (armedForOne.settled d) ∧ d.settle.Untriggered ∧ ¬ d.settle.NotByTrigger :=
  ⟨_, rfl, by unfold Chip.Untriggered; decide +kernel, by unfold Chip.NotByTrigger; decide +kernel⟩

/-- Refutes O45: the clause on SW_TRIG says that the source is FIRED after it, with its POST to go. Source 13 takes every event, so in
`armedForOne` the event of its own trigger (R498) is the one record it takes, and it is stopped. -/
theorem not_traceAndCounters : ¬ Obligations.TraceAndCounters := by
  rintro ⟨-, -, ⟨-, hfire⟩, -⟩
  obtain ⟨c, hc, hfired, -⟩ := hfire armedForOne 0xFF 13 (by decide +kernel) (by decide) (by decide +kernel)
  obtain ⟨d, hd, htrig, hstop⟩ := exec_swTrig_armedForOne
  have hsettle : d.settle = c.settle := congrArg State.chip (Host.Outcome.next.inj (hd.symm.trans hc))
  rw [hsettle] at htrig hstop
  exact hstop ((Chip.traced_settle htrig).notByTrigger fun hfour => absurd (hfired.symm.trans hfour) (by decide))

end Sys2Proof.Machine
